-- ==== Sys2Proof/Word.lean ====
section
/-! DEFINITION. The word types of the block: registers are 32 bits wide (R7), records and
frames are byte strings, a link is one of 144 (R4) and a tenant one of 1,024 (R5). -/

namespace Sys2Proof

/-- A register word (R7). -/
abbrev Word := BitVec 32

/-- One byte of a frame, a record or an object. -/
abbrev Byte := BitVec 8

/-- A head link, 0 to 143 (R4). -/
abbrev LinkId := Fin 144

/-- A tenant, 0 to 1023 (R5). -/
abbrev TenantId := Fin 1024

/-- A count of Pacer ticks, 1 µs each (R6). -/
abbrev Tick := Nat

end Sys2Proof
end

