-- ==== Sys2Proof/Syntax.lean ====
section
/-! DEFINITION. The commands of the block: one constructor of `Instr` per row of the spec's table of
operations and events, with the information the outside world supplies with it. What the block can
work out from its own state is never an operand. -/

namespace Sys2Proof

/-- The work classes of R37 whose deadline may be missed. -/
inductive WorkClass where
  | tick | samplePoint | planning | lapClosure
  deriving DecidableEq, Repr

/-- How a PMBus transaction ends (R64): it completes, with the data read, or fails on NACK, on a packet
error, or on a bus held longer than 25 ms. -/
inductive PmbResult where
  | ok (data : BitVec 16)
  | nack
  | pecError
  | busHeld
  deriving DecidableEq, Repr

/-- The two supply warnings of R70. -/
inductive SupplySource where
  | pfail | vaonLow
  deriving DecidableEq, Repr

/-- The rails that the always-on domain monitors (R486). -/
inductive Rail where
  | vsp | vlink | vlinkh | vio18 | vio33 | vmr
  deriving DecidableEq, Repr

/-- One 34-bit block of a tick frame as taken from the line: header and descrambled payload (R112). -/
structure Block where
  header  : BitVec 2
  payload : Word
  deriving DecidableEq, Repr

/-- The charging protocols a vehicle may offer (R249). -/
inductive Protocol where
  | iso15118_20 | iso15118_2 | din70121
  deriving DecidableEq, Repr

/-- A contract certificate chain as presented by a vehicle (R324 path 3): its bytes, its EMAID, and the first and last
calendar second of each certificate's validity period, from the leaf up. -/
structure ContractChain where
  bytes    : List Byte
  emaid    : List Byte
  validity : List (Nat × Nat)
  deriving DecidableEq, Repr

/-- Whether a V2G request keeps the message sequence, its schema and the 16 KiB bound (R269). -/
inductive V2gForm where
  | good | bad
  deriving DecidableEq, Repr

/-- What a charge-loop request carries (R270, R272, R273): target voltage (0.1 V), target current
(0.1 A, magnitude), the vehicle's own discharge target (kW, scheduled mode) and state of charge. -/
structure ChargeLoop where
  targetV  : BitVec 16
  targetI  : BitVec 16
  ownDisKw : BitVec 16
  soc      : Byte
  deriving DecidableEq, Repr

/-- What a vehicle agrees in NEGOTIATING (R265, R270, R274): its limits and the service taken. -/
structure Negotiated where
  maxChgKw : BitVec 16
  maxDisKw : BitVec 16
  maxV     : BitVec 16
  maxI     : BitVec 16
  maxDisI  : BitVec 16
  bpt      : Bool
  dynamic  : Bool
  /-- The schedule agreed under scheduled control: its current in A and its power in kW (R271). -/
  schedA   : BitVec 16
  schedKw  : BitVec 16
  deriving DecidableEq, Repr

/-- The two ways the sprint channels disagree (R287). -/
inductive ChannelMismatch where
  | resultsDiffer | oneLate
  deriving DecidableEq, Repr

/-- The two safety networks (R312). -/
inductive SafetyNet where
  | a | b
  deriving DecidableEq, Repr

/-- What a card or tag answers on the air interface (R328 to R330). -/
inductive AirAnswer where
  /-- Anticollision found cards of these UIDs (R329). -/
  | uids (found : List (List Byte))
  /-- The FCI of the selected application: TENANT and KEY_VER (R328 step 1). -/
  | fci (tenant : BitVec 16) (keyVer : Byte)
  /-- AUTH1 answer: nonce and sealed RndB (R328 step 2). -/
  | auth1 (nonce : List Byte) (sealedText : List Byte)
  /-- AUTH2 answer: nonce and sealed RndB then RndA (R328 step 3). -/
  | auth2 (nonce : List Byte) (sealedText : List Byte)
  /-- The sealed credential file (R328 step 4). -/
  | credential (sealedText : List Byte)
  /-- A UHF tag found by the inventory round: toggle bit and AFI of its PC word, EPC, TID and its TAM1 answer (R330). -/
  | uhfTag (toggle : Bool) (afi : Byte) (epc : List Byte) (tid : List Byte) (tam1 : List Byte)
  /-- The frame waiting time passed, or the poll ended, without a (further) answer (R329, R332). -/
  | none
  deriving DecidableEq, Repr

/-- The crypto engines (R364). -/
inductive EngineKind where
  | asym | sym
  deriving DecidableEq, Repr

/-- Where a signed object waits for its verification: a submission slot (R359) or the grid link (R392). -/
inductive ObjectPath where
  | slot (c : Fin 4)
  | grid
  deriving DecidableEq, Repr

/-- What the receiver took in the windows of one cell: the difference samples d of R381, in 10 µV, earliest first. Empty
where the window is on a phase the sender's map does not give. -/
abbrev CellDiffs := List Int

/-- The windows in which SYNC is searched (R386): before the positive and the negative crossing of L1, L2 and L3, in this
order, each with the cells of its three cell times. -/
abbrev SyncDiffs := Vector (Vector CellDiffs 3) 6

/-- A beacon as received (R383): the own cycle in which its cell time 1 began, the windows searched for SYNC (R386), and cells
12 to 53, each taken where SYNC was found for its transmit phase. -/
structure Beacon where
  cycle : Nat
  sync  : SyncDiffs
  cells : Vector CellDiffs 42
  deriving DecidableEq, Repr

/-- A data segment as received (R384): cells 54 to 381, each taken where its sender's map says (R386). -/
abbrev Segment := Vector CellDiffs 328

/-- A discovery answer as received (R390): its slot, the windows searched for SYNC, and its cells NODE and CRC-16. -/
structure DiscAnswer where
  slot  : Fin 4
  sync  : SyncDiffs
  cells : Vector CellDiffs 64
  deriving DecidableEq, Repr

/-- Where an update piece waits for its tag check: a piece slot (R415) or one of the four grid places (R392). -/
inductive PiecePath where
  | slot (c : Fin 2)
  | grid
  deriving DecidableEq, Repr

/-- One copy of a ledger word (R429): its parity, version tag and data. -/
structure Copy where
  good : Bool
  ver  : Fin 4
  data : Word
  deriving DecidableEq, Repr

/-- What a scrub read finds (R434): the two copies of the next ledger word (R430), the parity of the next word of work memory
(R433), or that of a vault slot (R346). -/
inductive ScrubTarget where
  | ledger (a b : Copy)
  | work (bad : Bool)
  | vault (slot : Nat) (bad : Bool)
  deriving DecidableEq, Repr

/-- What the first full scrub pass of a bring-up finds, other than a clean word (R56 step 8): the copies of a ledger word, or a
vault slot with a parity failure. -/
inductive ScrubFound where
  | ledger (word : Nat) (a b : Copy)
  | vault (slot : Nat)
  deriving DecidableEq, Repr

/-- How an NVMe command ends (R453). -/
inductive NvmeStatus where
  | ok | error
  deriving DecidableEq, Repr

/-- How an archive block read ends at the NVMe side (R455). -/
inductive ArcRead where
  | data (block : List Byte)
  | ioError
  deriving DecidableEq, Repr

/-- The commands of the block, one per row of the table of operations and events, in the table's order. -/
inductive Instr where
  | tickClosure
  | samplePoint
  | planningLapBoundary
  | lapBoundary
  | calendarSecond
  | paceLoss
  | paceDriftCheck (periods : Nat)
  | lapOverrun (cls : WorkClass) (late : List LinkId)
  | porRelease (testEn : Bool) (paceOk : Bool) (loaderOk : Bool)
  | enterStartingBlock
  | enterRun (fwOk : Bool) (keysOk : Bool) (found : List ScrubFound)
  | modeReqDormant
  | modeReqRun
  | modeReqEconomy
  | modeReqMaintenance
  | modeReqSafeHalt
  | ecoDelayExpiry
  | supplyDormantEntry
  | wakeFrameWake (addr : Byte) (parity : Bool)
  | wakeFrameSleepNotice (addr : Byte) (parity : Bool)
  | wakeFrameAlert (addr : Byte) (parity : Bool)
  | wakeBitTimeout
  | pfailRelease
  | readVoutPoll
  | pmbusTransactionDone (res : PmbResult)
  | pmbusRetry
  | pmbusRecoveryRetry
  | tempoLower
  | pmbAlert
  | vcoreLow
  | supplyWarning (src : SupplySource)
  | supplyRecovery (vaonSince : Nat)
  | railUndervoltageReset (rail : Rail)
  | porAssert
  | writeInc (addr : Word) (data : List Word)
  | writeFix (addr : Word) (data : List Word)
  | readInc (addr : Word) (len : Byte)
  | readFix (addr : Word) (len : Byte)
  | readId
  | unknownOpcode (opcode : Byte)
  | transactionAbort (opcode : Byte) (addr : Word) (len : Byte) (words : List Word)
  | guardPairExpiry
  | stallTimeout (opcode : Byte) (addr : Word) (len : Byte) (words : List Word) (word : Byte) (applied : Bool)
  | headTimeout (link : LinkId)
  | registerWrite (addr : Word) (data : Word)
  | w1cClear (addr : Word) (data : Word)
  | wideValueCapture (addr : Word)
  | errCauseRead
  | stallMaxWrite (data : Word)
  | headRegisterAccess (link : LinkId) (addr : BitVec 15) (write : Option Word)
  | headFrameReceived (link : LinkId) (blocks : List Block)
  | alarmReceived (link : LinkId) (arg : BitVec 16)
  | trainingStart (link : LinkId)
  | trainAReply (link : LinkId) (arg : BitVec 16)
  | trainBEcho (link : LinkId) (marker : BitVec 16) (rttPs : Word)
  | trainingComplete (link : LinkId)
  | trainingFail (link : LinkId)
  | trainingRetry (link : LinkId)
  | linkLost (link : LinkId)
  | retrain (link : LinkId)
  | headRegResponse (link : LinkId) (resp : BitVec 2) (tag : BitVec 6) (addr : BitVec 15) (data : Word)
  | headRegRepeat (link : LinkId)
  | overcurrentDecision (link : LinkId) (ch : Fin 8)
  | senseOpen (link : LinkId)
  | senseOpenClear (link : LinkId)
  | tpoPulseStart (out : Fin 2)
  | tpoPulseEnd (out : Fin 2)
  | s0LevelChange (inp : Fin 4) (level : Bool)
  | s0PulseCount (inp : Fin 4)
  | s0Stuck (inp : Fin 4)
  | tariffHoldExpiry (tenant : TenantId)
  | mdIntervalEnd (link : LinkId) (sliding : Bool)
  | sealChange (a : Bool) (b : Bool)
  | sealFault
  | recordSigned
  | recCursorWrite (data : Word)
  | tokensCredited (link : LinkId)
  | reduceTimeout (link : LinkId)
  | hostLimitWrite (data : Word)
  | utilLimitStart
  | utilLimitExpiry
  | budgetInForce
  | groupNotReady (link : LinkId)
  | withdrawOpen (link : LinkId)
  | withdrawEnd (link : LinkId)
  | groupIdleOff (link : LinkId)
  | assignDischarged (link : LinkId)
  | assignOwned (link : LinkId)
  | releaseCurrentLow (link : LinkId)
  | releaseDischarged (link : LinkId)
  | releaseFreed (link : LinkId)
  | exchRampDone (slot : Fin 16)
  | exchDonorOpen (slot : Fin 16)
  | exchMatched (slot : Fin 16)
  | exchSegPrepare (slot : Fin 16)
  | exchCloseCommand (slot : Fin 16)
  | exchJoined (slot : Fin 16)
  | exchTimeout (slot : Fin 16)
  | contactorOpenFault (link : LinkId) (contactor : Fin 16)
  | contactorWeld (link : LinkId) (contactor : Fin 16)
  | pilotStateTaken (link : LinkId)
  | pilotFault (link : LinkId)
  | pilotDiodeMissing (link : LinkId)
  | faultPilotFEnd (link : LinkId)
  | stopCToBOpen (link : LinkId)
  | proximityTaken (link : LinkId)
  | matchingStart (link : LinkId)
  | slacParmReq (link : LinkId) (evMac : BitVec 48) (runId : BitVec 64)
  | startAttenCharInd (link : LinkId) (runId : BitVec 64)
  | slacMatchReq (link : LinkId) (evMac : BitVec 48) (evseMac : BitVec 48) (runId : BitVec 64)
  | cmValidate (link : LinkId) (toggles : Nat)
  | slacInitExpiry (link : LinkId)
  | attemptRestart (link : LinkId)
  | supportedAppProtocol (link : LinkId) (offered : List Protocol)
  | sessionSetupReq (link : LinkId) (form : V2gForm)
  | authorizationReq (link : LinkId) (form : V2gForm) (contract : Option ContractChain)
  | cableCheckReq (link : LinkId) (form : V2gForm)
  | preChargeReq (link : LinkId) (form : V2gForm) (targetV : BitVec 16) (targetI : BitVec 16)
  | powerDeliveryStart (link : LinkId) (form : V2gForm)
  | powerDeliveryStop (link : LinkId) (form : V2gForm)
  | chargeLoopReq (link : LinkId) (form : V2gForm) (req : ChargeLoop)
  | pauseStandbyReq (link : LinkId)
  | v2gSequenceTimeout (link : LinkId)
  | stateBoundExpiry (link : LinkId)
  | authTimeout (link : LinkId)
  | authHoldExpiry (link : LinkId)
  | stopCurrentLow (link : LinkId)
  | stopMsExpiry (link : LinkId)
  | sessionEnd (link : LinkId)
  | vehStopCmd (link : LinkId)
  | dischKwWrite (link : LinkId) (data : Word)
  | directionSettled (link : LinkId)
  | sprintChMismatch (how : ChannelMismatch)
  | sprintSelftest (aOk : Bool) (bOk : Bool)
  | tripoutReadbackFault (pair : Fin 4)
  | threshRetry (link : LinkId)
  | imdHalfPeriod (link : LinkId)
  | segReady (group : LinkId)
  | symmetryFault (link : LinkId)
  | rdcAcFault (link : LinkId)
  | rdcDcFault (link : LinkId)
  | siteRdc (link : LinkId)
  | limitReduce (link : LinkId) (voltage : Bool)
  | limitTrip (link : LinkId) (voltage : Bool)
  | limitLift (link : LinkId) (voltage : Bool)
  | safeDirFault (link : LinkId)
  | avPairChange (pair : Fin 8) (a : Bool) (b : Bool)
  | avDiscrepancy (pair : Fin 8)
  | avTimerRestart (pair : Fin 8)
  | causeGone (link : Option LinkId) (code : Byte)
  | rstreqRise (inp : Fin 2)
  | edgeResetAccepted (inp : Fin 2)
  | rstJammed (inp : Fin 2)
  | snDataFrame (net : SafetyNet) (frame : List Byte)
  | snResetFrame (net : SafetyNet) (frame : List Byte)
  | snSecondCopyTimeout (conn : Fin 8)
  | snWatchdogExpiry (conn : Fin 8)
  | snStartTimeout (conn : Fin 8)
  | snTx
  | tagPoll (link : LinkId)
  | tagEngineGrant (engine : Fin 24)
  | airResponse (engine : Fin 24) (answer : AirAnswer)
  | tagTransactionEnd (engine : Fin 24)
  | tagEngineTimeout (engine : Fin 24)
  | tagPollPromote (link : LinkId)
  | fieldResetEnd (link : LinkId)
  | serviceFieldPresent
  | serviceFieldLost
  | svcReadSummary (p1p2 : BitVec 16)
  | svcReadLastword (entry : Byte)
  | svcAuth1
  | svcAuth2 (nonce : List Byte) (sealedText : List Byte)
  | svcReadEvent (seq : BitVec 64) (tagOk : Bool)
  | svcMbxWrite (p1 : Byte) (data : List Byte) (tagOk : Bool)
  | svcMbxRead (p1 : Byte) (le : Byte)
  | svcMbxAcquire
  | svcMbxPost (p2 : Byte)
  | svcMbxRelease
  | svcMbxCancel
  | svcSecureTimeout
  | wireMbxAcquire
  | wireMbxPost (len : BitVec 9)
  | wireMbxRelease
  | wireMbxCancel
  | wireMbxDataWrite (index : Fin 64) (data : Word)
  | wireMbxTimeout
  | hostTenantLock (tenant : BitVec 10)
  | enrolHe
  | enrolVendor
  | rotateRoot
  | rngRestart
  | loadChain (len : BitVec 13)
  | objectSubmit (slot : Fin 4) (data : Word)
  | cryptoOperationDone (kind : EngineKind) (engine : Fin 32)
  | cryptoResult
  | cryptoOverrun
  | objectVerified (path : ObjectPath)
  | attestationStart
  | rngHealthAlarm
  | rngStartupDone (passed : Bool)
  | rngReseed
  | violCauseRead
  | waitMaxWrite (data : Word)
  | gridPeriodStart (quiet : Vector CellDiffs 6)
  | beaconDecoded (beacon : Beacon)
  | electionReadTimeout
  | gridSegmentRx (seg : Segment)
  | gridMsgTimeout (sender : Fin 32)
  | gridObjectRx (sender : Fin 32)
  | gridPieceRx (sender : Fin 32)
  | gridChallengeRx (sender : Fin 32)
  | gridTableRx (sender : Fin 32)
  | gridListenExpiry
  | beaconLoss
  | guardEnd
  | discoveryStart
  | discoveryAnswerRx (answer : DiscAnswer)
  | grdDiscover
  | grdRestart
  | fnHold (fn : Byte) (inst : BitVec 10)
  | fnResume (fn : Byte) (inst : BitVec 10)
  | fnCancel (fn : Byte) (inst : BitVec 10)
  | fnCmdZero (fn : Byte) (inst : BitVec 10)
  | holdTakesEffect (slot : Fin 16)
  | resumeTakesEffect (slot : Fin 16)
  | cfgLoadWrite
  | cfgLoadCommit (len : BitVec 23)
  | updPieceSubmit (slot : Fin 2) (data : Word)
  | pieceChecked (path : PiecePath)
  | partVerified (part : Fin 32)
  | headStagingDone (link : LinkId)
  | updActivate
  | updAbandon
  | manifestExpiry
  | activationEntry
  | activationStopTimeout
  | headsArmed
  | loaderWriteDone (hashesOk : Bool) (ms : Word)
  | healthConfirm (data : Word)
  | confirmWindowExpiry
  | scrubStep (target : ScrubTarget)
  | codePageRepair (page : BitVec 16) (hashOk : Bool)
  | evrCursorWrite (data : Word)
  | evrNorSectWrite (data : Word)
  | evrRetest
  | retestDone (passed : BitVec 64)
  | lwClear
  | poisonAddrRead
  | norProgramDone (ok : Bool)
  | norEraseDone (ok : Bool)
  | archiveBlockSealed (ns : Fin 8)
  | nvmeCompletion (cmd : Fin 64) (status : NvmeStatus)
  | nvmeTimeout (cmd : Fin 64)
  | arcReadGo (data : Word)
  | arcReadDone (res : ArcRead)
  | displayFrame (differ : BitVec 68)
  | bistablePulseEnd
  | vlcdFault
  | vlcdRestart (holds : Bool)
  | keyMeasurement (key : Fin 2) (meas : BitVec 16)
  | keyTouch (key : Fin 2)
  | keyRelease (key : Fin 2)
  | keyLongTouch
  | keyStuck (key : Fin 2)
  | keyUnstick (key : Fin 2)
  | keyRebase (key : Fin 2)
  | keyDrift (key : Fin 2)
  | scrollAutoAdvance
  | scrollResume
  | auxCmdWrite (link : LinkId) (data : Word)
  | auxRunOnExpiry (link : LinkId) (ch : Fin 4)
  | auxOcRetry (link : LinkId) (ch : Fin 4)
  | auxOpenLoad (link : LinkId) (ch : Fin 4)
  | auxMismatch (link : LinkId) (ch : Fin 4)
  | auxSpinTimeout (link : LinkId) (ch : Fin 4)
  | auxBlockedRetry (link : LinkId) (ch : Fin 4)
  | wakeRailsInRange
  | dormantEntryEnd
  | railResetRelease (loaderOk : Bool)
  | s0StuckClear (inp : Fin 4)
  | soundingWindowEnd (link : LinkId)
  | attenSoundRx (link : LinkId) (runId : BitVec 64) (groups : Vector Byte 58)
  | negotiationReq (link : LinkId) (form : V2gForm) (agreed : Option Negotiated)
  | tlsHandshake (link : LinkId) (ok : Bool) (done : Bool)
  | pcieLinkTrained (gen : Fin 4) (sizes : Vector Nat 8) (more : Bool)
  | cfgLoadCmdDone
  deriving DecidableEq, Repr

end Sys2Proof
end

