-- ==== Sys2Proof/Machine/RegMap.lean ====
section
/-! DEFINITION. The register map: the byte address of every register the spec lists, and one table per
block with what the register tables of the spec say of each row: which words it covers, its access code
(R11), the bits a host write may reach, the bits that clear only through a guarded pair (R12), its reset
number, and, for a register loaded from the image, its fields with their vendor defaults (R499) and the
ranges the chapters state. -/

namespace Sys2Proof.Machine

/-- PAC_TICK_LO (R31). -/
def Reg.pacTickLo : Nat := 0x10000
/-- PAC_TICK_HI (R31). -/
def Reg.pacTickHi : Nat := 0x10004
/-- PAC_STATUS (R31). -/
def Reg.pacStatus : Nat := 0x10008
/-- PAC_EVENTS (R31). -/
def Reg.pacEvents : Nat := 0x1000C
/-- PAC_LAP_LEN (R31). -/
def Reg.pacLapLen : Nat := 0x10010
/-- PAC_LAP_NUM (R31). -/
def Reg.pacLapNum : Nat := 0x10014
/-- PAC_LAP_START_LO (R31). -/
def Reg.pacLapStartLo : Nat := 0x10018
/-- PAC_LAP_START_HI (R31). -/
def Reg.pacLapStartHi : Nat := 0x1001C
/-- PAC_CAL_LO (R31). -/
def Reg.pacCalLo : Nat := 0x10020
/-- PAC_CAL_HI (R31). -/
def Reg.pacCalHi : Nat := 0x10024
/-- PAC_PLAN_NUM (R31). -/
def Reg.pacPlanNum : Nat := 0x10028
/-- PAC_DRIFT (R31). -/
def Reg.pacDrift : Nat := 0x1002C
/-- PAC_OVERRUN_CNT (R31). -/
def Reg.pacOverrunCnt : Nat := 0x10030
/-- PWR_MODE_REQ (R78). -/
def Reg.pwrModeReq : Nat := 0x20000
/-- PWR_STATUS (R78). -/
def Reg.pwrStatus : Nat := 0x20008
/-- PWR_EVENTS (R78). -/
def Reg.pwrEvents : Nat := 0x2000C
/-- PWR_TEMPO_CFG (R78). -/
def Reg.pwrTempoCfg : Nat := 0x20010
/-- PWR_DEMAND (R78). -/
def Reg.pwrDemand : Nat := 0x20014
/-- PWR_VCORE_REQ (R78). -/
def Reg.pwrVcoreReq : Nat := 0x20018
/-- PWR_VCORE_READ (R78). -/
def Reg.pwrVcoreRead : Nat := 0x2001C
/-- PWR_WAKE_CFG (R78). -/
def Reg.pwrWakeCfg : Nat := 0x20020
/-- PWR_WAKE_CAUSE (R78). -/
def Reg.pwrWakeCause : Nat := 0x20024
/-- PWR_BRINGUP_TIME (R78). -/
def Reg.pwrBringupTime : Nat := 0x20028
/-- PWR_COMMIT_SEQ (R78). -/
def Reg.pwrCommitSeq : Nat := 0x2002C
/-- PWR_OP_SECONDS (R78). -/
def Reg.pwrOpSeconds : Nat := 0x20030
/-- PWR_CYCLES (R78). -/
def Reg.pwrCycles : Nat := 0x20034
/-- GLB_ID (R108). -/
def Reg.glbId : Nat := 0x0
/-- GLB_MODE (R108). -/
def Reg.glbMode : Nat := 0x4
/-- GLB_SERIAL_LO (R108). -/
def Reg.glbSerialLo : Nat := 0x8
/-- GLB_SERIAL_HI (R108). -/
def Reg.glbSerialHi : Nat := 0xC
/-- GLB_NODE_LO (R108). -/
def Reg.glbNodeLo : Nat := 0x10
/-- GLB_NODE_HI (R108). -/
def Reg.glbNodeHi : Nat := 0x14
/-- GLB_ROLES (R108). -/
def Reg.glbRoles : Nat := 0x18
/-- HPT_STATUS (R109). -/
def Reg.hptStatus : Nat := 0xE0000
/-- HPT_EVENTS (R109). -/
def Reg.hptEvents : Nat := 0xE0004
/-- HPT_LAST_STATUS (R109). -/
def Reg.hptLastStatus : Nat := 0xE0008
/-- HPT_ERR_ADDR (R109). -/
def Reg.hptErrAddr : Nat := 0xE000C
/-- HPT_ERR_CAUSE (R109). -/
def Reg.hptErrCause : Nat := 0xE0010
/-- HPT_ERR_CNT (R109). -/
def Reg.hptErrCnt : Nat := 0xE0014
/-- HPT_ABORT_CNT (R109). -/
def Reg.hptAbortCnt : Nat := 0xE0018
/-- HPT_GUARD_CNT (R109). -/
def Reg.hptGuardCnt : Nat := 0xE001C
/-- HPT_STALL_MAX (R109). -/
def Reg.hptStallMax : Nat := 0xE0020
/-- HPT_TXN_CNT (R109). -/
def Reg.hptTxnCnt : Nat := 0xE0024
/-- HPT_SCRATCH (R109). -/
def Reg.hptScratch : Nat := 0xE0028
/-- LNK_CFG (R142). -/
def Reg.lnkCfg (n : Nat) : Nat := 0x1000000 + 0x10000 * n
/-- LNK_STATUS (R142). -/
def Reg.lnkStatus (n : Nat) : Nat := 0x1000004 + 0x10000 * n
/-- LNK_EVENTS (R142). -/
def Reg.lnkEvents (n : Nat) : Nat := 0x1000008 + 0x10000 * n
/-- LNK_CMD (R142). -/
def Reg.lnkCmd (n : Nat) : Nat := 0x100000C + 0x10000 * n
/-- LNK_RTT (R142). -/
def Reg.lnkRtt (n : Nat) : Nat := 0x1000014 + 0x10000 * n
/-- LNK_FAIL_RX (R142). -/
def Reg.lnkFailRx (n : Nat) : Nat := 0x1000018 + 0x10000 * n
/-- LNK_FAIL_LAP (R142). -/
def Reg.lnkFailLap (n : Nat) : Nat := 0x100001C + 0x10000 * n
/-- LNK_TRAIN_CNT (R142). -/
def Reg.lnkTrainCnt (n : Nat) : Nat := 0x1000020 + 0x10000 * n
/-- LNK_ALARM_LAST (R142). -/
def Reg.lnkAlarmLast (n : Nat) : Nat := 0x1000024 + 0x10000 * n
/-- LNK_TRIP_LAST (R142). -/
def Reg.lnkTripLast (n : Nat) : Nat := 0x1000028 + 0x10000 * n
/-- LNK_HEAD_ID (R142). -/
def Reg.lnkHeadId (n : Nat) : Nat := 0x100002C + 0x10000 * n
/-- LNK_HEAD_FW (R142). -/
def Reg.lnkHeadFw (n : Nat) : Nat := 0x1000030 + 0x10000 * n
/-- LNK_BAD_CTRL (R142). -/
def Reg.lnkBadCtrl (n : Nat) : Nat := 0x1000034 + 0x10000 * n
/-- MET_CFG (R177). -/
def Reg.metCfg (n : Nat) : Nat := 0x1001000 + 0x10000 * n
/-- MET_STATUS (R177). -/
def Reg.metStatus (n : Nat) : Nat := 0x1001004 + 0x10000 * n
/-- MET_EVENTS (R177). -/
def Reg.metEvents (n : Nat) : Nat := 0x1001008 + 0x10000 * n
/-- MET_E_IMP_W0 (R177). -/
def Reg.metEImpW0 (n : Nat) : Nat := 0x1001010 + 0x10000 * n
/-- MET_E_IMP_W1 (R177). -/
def Reg.metEImpW1 (n : Nat) : Nat := 0x1001014 + 0x10000 * n
/-- MET_E_IMP_W2 (R177). -/
def Reg.metEImpW2 (n : Nat) : Nat := 0x1001018 + 0x10000 * n
/-- MET_E_EXP_W0 (R177). -/
def Reg.metEExpW0 (n : Nat) : Nat := 0x100101C + 0x10000 * n
/-- MET_E_EXP_W1 (R177). -/
def Reg.metEExpW1 (n : Nat) : Nat := 0x1001020 + 0x10000 * n
/-- MET_E_EXP_W2 (R177). -/
def Reg.metEExpW2 (n : Nat) : Nat := 0x1001024 + 0x10000 * n
/-- MET_LAP_IMP_LO (R177). -/
def Reg.metLapImpLo (n : Nat) : Nat := 0x1001028 + 0x10000 * n
/-- MET_LAP_IMP_HI (R177). -/
def Reg.metLapImpHi (n : Nat) : Nat := 0x100102C + 0x10000 * n
/-- MET_LAP_EXP_LO (R177). -/
def Reg.metLapExpLo (n : Nat) : Nat := 0x1001030 + 0x10000 * n
/-- MET_LAP_EXP_HI (R177). -/
def Reg.metLapExpHi (n : Nat) : Nat := 0x1001034 + 0x10000 * n
/-- MET_LAP_FLAGS (R177). -/
def Reg.metLapFlags (n : Nat) : Nat := 0x1001038 + 0x10000 * n
/-- MET_LAP_NUM (R177). -/
def Reg.metLapNum (n : Nat) : Nat := 0x100103C + 0x10000 * n
/-- MET_RMS (R177). -/
def Reg.metRms (n k : Nat) : Nat := 0x1001040 + 0x10000 * n + 0x4 * k
/-- MET_DC (R177). -/
def Reg.metDc (n k : Nat) : Nat := 0x1001060 + 0x10000 * n + 0x4 * k
/-- MET_PKMAX (R177). -/
def Reg.metPkmax (n k : Nat) : Nat := 0x1001080 + 0x10000 * n + 0x4 * k
/-- MET_PKMIN (R177). -/
def Reg.metPkmin (n k : Nat) : Nat := 0x10010A0 + 0x10000 * n + 0x4 * k
/-- MET_POWER (R177). -/
def Reg.metPower (n : Nat) : Nat := 0x10010C0 + 0x10000 * n
/-- MET_PPH (R177). -/
def Reg.metPph (n k : Nat) : Nat := 0x10010C4 + 0x10000 * n + 0x4 * k
/-- MET_FREQ (R177). -/
def Reg.metFreq (n : Nat) : Nat := 0x10010D0 + 0x10000 * n
/-- MET_DIP_CNT (R177). -/
def Reg.metDipCnt (n : Nat) : Nat := 0x10010D8 + 0x10000 * n
/-- MET_SWELL_CNT (R177). -/
def Reg.metSwellCnt (n : Nat) : Nat := 0x10010DC + 0x10000 * n
/-- MET_PQ_LAST0 (R177). -/
def Reg.metPqLast0 (n : Nat) : Nat := 0x10010E0 + 0x10000 * n
/-- MET_PQ_LAST1 (R177). -/
def Reg.metPqLast1 (n : Nat) : Nat := 0x10010E4 + 0x10000 * n
/-- MET_PQ_LAST2 (R177). -/
def Reg.metPqLast2 (n : Nat) : Nat := 0x10010E8 + 0x10000 * n
/-- MET_OC_CNT (R177). -/
def Reg.metOcCnt (n : Nat) : Nat := 0x10010EC + 0x10000 * n
/-- MET_CAL_CRC (R177). -/
def Reg.metCalCrc (n : Nat) : Nat := 0x10010F0 + 0x10000 * n
/-- MET_LAP_BRIDGED (R177). -/
def Reg.metLapBridged (n : Nat) : Nat := 0x10010F4 + 0x10000 * n
/-- MET_TEST_E_LO (R177). -/
def Reg.metTestELo (n : Nat) : Nat := 0x10010F8 + 0x10000 * n
/-- MET_TEST_E_HI (R177). -/
def Reg.metTestEHi (n : Nat) : Nat := 0x10010FC + 0x10000 * n
/-- MET_X_OC (R177). -/
def Reg.metXOc (n : Nat) : Nat := 0x1001100 + 0x10000 * n
/-- MET_X_SENSE (R177). -/
def Reg.metXSense (n : Nat) : Nat := 0x1001104 + 0x10000 * n
/-- MET_X_PQ (R177). -/
def Reg.metXPq (n : Nat) : Nat := 0x1001108 + 0x10000 * n
/-- MET_X_PQ2 (R177). -/
def Reg.metXPq2 (n : Nat) : Nat := 0x100110C + 0x10000 * n
/-- MET_CAL_OFFSET (R177). -/
def Reg.metCalOffset (n i : Nat) : Nat := 0x1001200 + 0x10000 * n + 0x20 * i
/-- MET_CAL_GAIN (R177). -/
def Reg.metCalGain (n i : Nat) : Nat := 0x1001204 + 0x10000 * n + 0x20 * i
/-- MET_CAL_TC (R177). -/
def Reg.metCalTc (n i : Nat) : Nat := 0x1001208 + 0x10000 * n + 0x20 * i
/-- MET_CAL_PHASE (R177). -/
def Reg.metCalPhase (n i : Nat) : Nat := 0x100120C + 0x10000 * n + 0x20 * i
/-- MET_CAL_TREF (R177). -/
def Reg.metCalTref (n i : Nat) : Nat := 0x1001210 + 0x10000 * n + 0x20 * i
/-- MET_H (R177). -/
def Reg.metH (n i k : Nat) : Nat := 0x1001400 + 0x10000 * n + 0xA0 * i + 0x4 * k
/-- MET_THD (R177). -/
def Reg.metThd (n k : Nat) : Nat := 0x10017C0 + 0x10000 * n + 0x4 * k
/-- LIO_TPO0_CFG (R178). -/
def Reg.lioTpo0Cfg : Nat := 0xD0800
/-- LIO_TPO1_CFG (R178). -/
def Reg.lioTpo1Cfg : Nat := 0xD0804
/-- LIO_TPO0_X (R178). -/
def Reg.lioTpo0X : Nat := 0xD0808
/-- LIO_TPO1_X (R178). -/
def Reg.lioTpo1X : Nat := 0xD080C
/-- LIO_TPO_STATUS (R178). -/
def Reg.lioTpoStatus : Nat := 0xD0810
/-- LIO_TPO_EVENTS (R178). -/
def Reg.lioTpoEvents : Nat := 0xD0814
/-- LIO_TPO0_CNT (R178). -/
def Reg.lioTpo0Cnt : Nat := 0xD0818
/-- LIO_TPO1_CNT (R178). -/
def Reg.lioTpo1Cnt : Nat := 0xD081C
/-- LIO_S0_CFG (R178). -/
def Reg.lioS0Cfg (k : Nat) : Nat := 0xD0820 + 0x4 * k
/-- LIO_S0_X (R178). -/
def Reg.lioS0X (k : Nat) : Nat := 0xD0830 + 0x4 * k
/-- LIO_S0_CNT_LO (R178). -/
def Reg.lioS0CntLo (i : Nat) : Nat := 0xD0840 + 0x8 * i
/-- LIO_S0_CNT_HI (R178). -/
def Reg.lioS0CntHi (i : Nat) : Nat := 0xD0844 + 0x8 * i
/-- LIO_S0_STATUS (R178). -/
def Reg.lioS0Status : Nat := 0xD0860
/-- LIO_S0_EVENTS (R178). -/
def Reg.lioS0Events : Nat := 0xD0864
/-- LIO_S0_GLITCH (R178). -/
def Reg.lioS0Glitch : Nat := 0xD0868
/-- LIO_DISP_CFG (R477). -/
def Reg.lioDispCfg : Nat := 0xD0000
/-- LIO_DISP_STATUS (R477). -/
def Reg.lioDispStatus : Nat := 0xD0004
/-- LIO_EVENTS (R477). -/
def Reg.lioEvents : Nat := 0xD0008
/-- LIO_DISP_AGE (R477). -/
def Reg.lioDispAge : Nat := 0xD000C
/-- LIO_X_DISP (R477). -/
def Reg.lioXDisp : Nat := 0xD0010
/-- LIO_DISP_TEMP (R477). -/
def Reg.lioDispTemp : Nat := 0xD0014
/-- LIO_OD (R477). -/
def Reg.lioOd (i : Nat) : Nat := 0xD0020 + 0x4 * i
/-- LIO_STRESS_LO (R477). -/
def Reg.lioStressLo (i : Nat) : Nat := 0xD0040 + 0x8 * i
/-- LIO_STRESS_HI (R477). -/
def Reg.lioStressHi (i : Nat) : Nat := 0xD0044 + 0x8 * i
/-- LIO_DISP_PINFAULT0 (R477). -/
def Reg.lioDispPinfault0 : Nat := 0xD0080
/-- LIO_DISP_PINFAULT1 (R477). -/
def Reg.lioDispPinfault1 : Nat := 0xD0084
/-- LIO_DISP_PINFAULT2 (R477). -/
def Reg.lioDispPinfault2 : Nat := 0xD0088
/-- LIO_KEY_CFG (R477). -/
def Reg.lioKeyCfg : Nat := 0xD0100
/-- LIO_X_KEY (R477). -/
def Reg.lioXKey : Nat := 0xD0104
/-- LIO_KEY_INIT (R477). -/
def Reg.lioKeyInit : Nat := 0xD0108
/-- LIO_KEY_STATUS (R477). -/
def Reg.lioKeyStatus : Nat := 0xD010C
/-- LIO_KEY_MEAS (R477). -/
def Reg.lioKeyMeas (i : Nat) : Nat := 0xD0110 + 0x8 * i
/-- LIO_KEY_GLITCH (R477). -/
def Reg.lioKeyGlitch : Nat := 0xD0120
/-- LIO_MAP (R477). -/
def Reg.lioMap (i : Nat) : Nat := 0xD0400 + 0x4 * i
/-- LIO_IMAGE (R477). -/
def Reg.lioImage (k : Nat) : Nat := 0xD0600 + 0x4 * k
/-- LIO_DIRTY (R477). -/
def Reg.lioDirty : Nat := 0xD063C
/-- BIL_CFG (R215). -/
def Reg.bilCfg : Nat := 0xA0000
/-- BIL_STATUS (R215). -/
def Reg.bilStatus : Nat := 0xA0004
/-- BIL_EVENTS (R215). -/
def Reg.bilEvents : Nat := 0xA0008
/-- BIL_SEAL_CNT (R215). -/
def Reg.bilSealCnt : Nat := 0xA000C
/-- BIL_SEAL_LAST (R215). -/
def Reg.bilSealLast : Nat := 0xA0010
/-- BIL_REC_SEQ_LO (R215). -/
def Reg.bilRecSeqLo : Nat := 0xA0014
/-- BIL_REC_SEQ_HI (R215). -/
def Reg.bilRecSeqHi : Nat := 0xA0018
/-- BIL_PERIOD_NUM (R215). -/
def Reg.bilPeriodNum : Nat := 0xA001C
/-- BIL_PERIOD_START (R215). -/
def Reg.bilPeriodStart : Nat := 0xA0020
/-- BIL_RECON_LAP (R215). -/
def Reg.bilReconLap : Nat := 0xA0024
/-- BIL_RECON_A (R215). -/
def Reg.bilReconA : Nat := 0xA0028
/-- BIL_RECON_B (R215). -/
def Reg.bilReconB : Nat := 0xA002C
/-- BIL_RECON_CFG (R215). -/
def Reg.bilReconCfg : Nat := 0xA0030
/-- BIL_DISP_CFG (R215). -/
def Reg.bilDispCfg : Nat := 0xA0034
/-- BIL_DISP_POS (R215). -/
def Reg.bilDispPos : Nat := 0xA0038
/-- BIL_REC_CURSOR (R215). -/
def Reg.bilRecCursor : Nat := 0xA003C
/-- BIL_REC_STATE (R215). -/
def Reg.bilRecState : Nat := 0xA0040
/-- BIL_REC_CHECK (R215). -/
def Reg.bilRecCheck : Nat := 0xA0044
/-- BIL_REC_WIN (R215). -/
def Reg.bilRecWin (k : Nat) : Nat := 0xA0100 + 0x4 * k
/-- BIL_IMP_LO (R216). -/
def Reg.bilImpLo (n : Nat) : Nat := 0xA1000 + 0x80 * n
/-- BIL_IMP_HI (R216). -/
def Reg.bilImpHi (n : Nat) : Nat := 0xA1004 + 0x80 * n
/-- BIL_EXP_LO (R216). -/
def Reg.bilExpLo (n : Nat) : Nat := 0xA1008 + 0x80 * n
/-- BIL_EXP_HI (R216). -/
def Reg.bilExpHi (n : Nat) : Nat := 0xA100C + 0x80 * n
/-- BIL_CARRY_IMP (R216). -/
def Reg.bilCarryImp (n : Nat) : Nat := 0xA1010 + 0x80 * n
/-- BIL_CARRY_EXP (R216). -/
def Reg.bilCarryExp (n : Nat) : Nat := 0xA1014 + 0x80 * n
/-- BIL_SUSP_LO (R216). -/
def Reg.bilSuspLo (n : Nat) : Nat := 0xA1018 + 0x80 * n
/-- BIL_SUSP_HI (R216). -/
def Reg.bilSuspHi (n : Nat) : Nat := 0xA101C + 0x80 * n
/-- BIL_SES_IMP_LO (R216). -/
def Reg.bilSesImpLo (n : Nat) : Nat := 0xA1020 + 0x80 * n
/-- BIL_SES_IMP_HI (R216). -/
def Reg.bilSesImpHi (n : Nat) : Nat := 0xA1024 + 0x80 * n
/-- BIL_SES_EXP_LO (R216). -/
def Reg.bilSesExpLo (n : Nat) : Nat := 0xA1028 + 0x80 * n
/-- BIL_SES_EXP_HI (R216). -/
def Reg.bilSesExpHi (n : Nat) : Nat := 0xA102C + 0x80 * n
/-- BIL_SES_DUR (R216). -/
def Reg.bilSesDur (n : Nat) : Nat := 0xA1030 + 0x80 * n
/-- BIL_SES_ID (R216). -/
def Reg.bilSesId (n : Nat) : Nat := 0xA1034 + 0x80 * n
/-- BIL_SES_TENANT (R216). -/
def Reg.bilSesTenant (n : Nat) : Nat := 0xA1038 + 0x80 * n
/-- BIL_SLOT (R216). -/
def Reg.bilSlot (n : Nat) : Nat := 0xA103C + 0x80 * n
/-- BIL_MD_FIX_P (R216). -/
def Reg.bilMdFixP (n : Nat) : Nat := 0xA1040 + 0x80 * n
/-- BIL_MD_FIX_P_T (R216). -/
def Reg.bilMdFixPT (n : Nat) : Nat := 0xA1044 + 0x80 * n
/-- BIL_MD_FIX_C (R216). -/
def Reg.bilMdFixC (n : Nat) : Nat := 0xA1048 + 0x80 * n
/-- BIL_MD_FIX_C_T (R216). -/
def Reg.bilMdFixCT (n : Nat) : Nat := 0xA104C + 0x80 * n
/-- BIL_MD_SLD_P (R216). -/
def Reg.bilMdSldP (n : Nat) : Nat := 0xA1050 + 0x80 * n
/-- BIL_MD_SLD_P_T (R216). -/
def Reg.bilMdSldPT (n : Nat) : Nat := 0xA1054 + 0x80 * n
/-- BIL_MD_SLD_C (R216). -/
def Reg.bilMdSldC (n : Nat) : Nat := 0xA1058 + 0x80 * n
/-- BIL_MD_SLD_C_T (R216). -/
def Reg.bilMdSldCT (n : Nat) : Nat := 0xA105C + 0x80 * n
/-- BIL_LAP_FLAGS (R216). -/
def Reg.bilLapFlags (n : Nat) : Nat := 0xA1060 + 0x80 * n
/-- BIL_LAP_SEQ (R216). -/
def Reg.bilLapSeq (n : Nat) : Nat := 0xA1064 + 0x80 * n
/-- BIL_SES_COST_LO (R216). -/
def Reg.bilSesCostLo (n : Nat) : Nat := 0xA1068 + 0x80 * n
/-- BIL_SES_COST_HI (R216). -/
def Reg.bilSesCostHi (n : Nat) : Nat := 0xA106C + 0x80 * n
/-- BIL_T_CFG (R217). -/
def Reg.bilTCfg (n : Nat) : Nat := 0x4000000 + 0x1000 * n
/-- BIL_T_STATUS (R217). -/
def Reg.bilTStatus (n : Nat) : Nat := 0x4000004 + 0x1000 * n
/-- BIL_T_EVENTS (R217). -/
def Reg.bilTEvents (n : Nat) : Nat := 0x4000008 + 0x1000 * n
/-- BIL_T_CREDIT_LO (R217). -/
def Reg.bilTCreditLo (n : Nat) : Nat := 0x4000010 + 0x1000 * n
/-- BIL_T_CREDIT_HI (R217). -/
def Reg.bilTCreditHi (n : Nat) : Nat := 0x4000014 + 0x1000 * n
/-- BIL_T_RESV_LO (R217). -/
def Reg.bilTResvLo (n : Nat) : Nat := 0x4000018 + 0x1000 * n
/-- BIL_T_RESV_HI (R217). -/
def Reg.bilTResvHi (n : Nat) : Nat := 0x400001C + 0x1000 * n
/-- BIL_T_CONSUMED_LO (R217). -/
def Reg.bilTConsumedLo (n : Nat) : Nat := 0x4000020 + 0x1000 * n
/-- BIL_T_CONSUMED_HI (R217). -/
def Reg.bilTConsumedHi (n : Nat) : Nat := 0x4000024 + 0x1000 * n
/-- BIL_T_GRANTS_LO (R217). -/
def Reg.bilTGrantsLo (n : Nat) : Nat := 0x4000028 + 0x1000 * n
/-- BIL_T_GRANTS_HI (R217). -/
def Reg.bilTGrantsHi (n : Nat) : Nat := 0x400002C + 0x1000 * n
/-- BIL_T_GRANT_SERIAL (R217). -/
def Reg.bilTGrantSerial (n : Nat) : Nat := 0x4000030 + 0x1000 * n
/-- BIL_T_SESSIONS (R217). -/
def Reg.bilTSessions (n : Nat) : Nat := 0x4000034 + 0x1000 * n
/-- BIL_T_INTERIM_LO (R217). -/
def Reg.bilTInterimLo (n : Nat) : Nat := 0x4000038 + 0x1000 * n
/-- BIL_T_INTERIM_HI (R217). -/
def Reg.bilTInterimHi (n : Nat) : Nat := 0x400003C + 0x1000 * n
/-- BIL_T_X_LOW_CREDIT (R217). -/
def Reg.bilTXLowCredit (n : Nat) : Nat := 0x4000040 + 0x1000 * n
/-- BIL_T_X_STOP_RESERVE (R217). -/
def Reg.bilTXStopReserve (n : Nat) : Nat := 0x4000044 + 0x1000 * n
/-- BIL_T_X_CFG (R217). -/
def Reg.bilTXCfg (n : Nat) : Nat := 0x4000048 + 0x1000 * n
/-- BIL_T_X_PRICE_IMP (R217). -/
def Reg.bilTXPriceImp (n i : Nat) : Nat := 0x4000100 + 0x1000 * n + 0x8 * i
/-- BIL_T_X_PRICE_EXP (R217). -/
def Reg.bilTXPriceExp (n i : Nat) : Nat := 0x4000104 + 0x1000 * n + 0x8 * i
/-- BIL_T_X_SWITCH (R217). -/
def Reg.bilTXSwitch (n i : Nat) : Nat := 0x4000180 + 0x1000 * n + 0x4 * i
/-- BIL_T_SLOT_IMP (R217). -/
def Reg.bilTSlotImp (n i k : Nat) : Nat := 0x4000200 + 0x1000 * n + 0x8 * i + 0x4 * k
/-- BIL_T_SLOT_EXP (R217). -/
def Reg.bilTSlotExp (n i k : Nat) : Nat := 0x4000280 + 0x1000 * n + 0x8 * i + 0x4 * k
/-- ALC_STATUS (R245). -/
def Reg.alcStatus : Nat := 0x90000
/-- ALC_EVENTS (R245). -/
def Reg.alcEvents : Nat := 0x90004
/-- ALC_BUDGET (R245). -/
def Reg.alcBudget : Nat := 0x90008
/-- ALC_TOKENS (R245). -/
def Reg.alcTokens : Nat := 0x9000C
/-- ALC_UTIL_LIMIT (R245). -/
def Reg.alcUtilLimit : Nat := 0x90010
/-- ALC_UTIL_EXPIRY (R245). -/
def Reg.alcUtilExpiry : Nat := 0x90014
/-- ALC_HOST_LIMIT (R245). -/
def Reg.alcHostLimit : Nat := 0x90018
/-- ALC_PLAN_NUM (R245). -/
def Reg.alcPlanNum : Nat := 0x9001C
/-- ALC_EXCH_CNT (R245). -/
def Reg.alcExchCnt : Nat := 0x90020
/-- ALC_ABORT_CNT (R245). -/
def Reg.alcAbortCnt : Nat := 0x90024
/-- ALC_CFG (R245). -/
def Reg.alcCfg : Nat := 0x90030
/-- ALC_CFG2 (R245). -/
def Reg.alcCfg2 : Nat := 0x90034
/-- ALC_X_BUDGET (R245). -/
def Reg.alcXBudget : Nat := 0x90040
/-- ALC_X_MOVE (R245). -/
def Reg.alcXMove : Nat := 0x90044
/-- ALC_X_LEVEL (R245). -/
def Reg.alcXLevel : Nat := 0x90048
/-- ALC_X_TIME1 (R245). -/
def Reg.alcXTime1 : Nat := 0x9004C
/-- ALC_X_TIME2 (R245). -/
def Reg.alcXTime2 : Nat := 0x90050
/-- ALC_X_FB (R245). -/
def Reg.alcXFb : Nat := 0x90054
/-- ALC_EX_STATE (R245). -/
def Reg.alcExState (i : Nat) : Nat := 0x90100 + 0x10 * i
/-- ALC_EX_START (R245). -/
def Reg.alcExStart (i : Nat) : Nat := 0x90104 + 0x10 * i
/-- ALC_EX_INFO (R245). -/
def Reg.alcExInfo (i : Nat) : Nat := 0x90108 + 0x10 * i
/-- ALC_L_CFG (R246). -/
def Reg.alcLCfg (n : Nat) : Nat := 0x91000 + 0x20 * n
/-- ALC_L_STATE (R246). -/
def Reg.alcLState (n : Nat) : Nat := 0x91004 + 0x20 * n
/-- ALC_L_TARGET (R246). -/
def Reg.alcLTarget (n : Nat) : Nat := 0x91008 + 0x20 * n
/-- ALC_L_GRANT (R246). -/
def Reg.alcLGrant (n : Nat) : Nat := 0x9100C + 0x20 * n
/-- ALC_L_LIMIT (R246). -/
def Reg.alcLLimit (n : Nat) : Nat := 0x91010 + 0x20 * n
/-- ALC_L_SEG (R246). -/
def Reg.alcLSeg (n : Nat) : Nat := 0x91014 + 0x20 * n
/-- VEH_CFG (R280). -/
def Reg.vehCfg (n : Nat) : Nat := 0x1002000 + 0x10000 * n
/-- VEH_STATUS (R280). -/
def Reg.vehStatus (n : Nat) : Nat := 0x1002004 + 0x10000 * n
/-- VEH_EVENTS (R280). -/
def Reg.vehEvents (n : Nat) : Nat := 0x1002008 + 0x10000 * n
/-- VEH_PILOT (R280). -/
def Reg.vehPilot (n : Nat) : Nat := 0x100200C + 0x10000 * n
/-- VEH_PROX (R280). -/
def Reg.vehProx (n : Nat) : Nat := 0x1002010 + 0x10000 * n
/-- VEH_EV_MAC_LO (R280). -/
def Reg.vehEvMacLo (n : Nat) : Nat := 0x1002014 + 0x10000 * n
/-- VEH_EV_MAC_HI (R280). -/
def Reg.vehEvMacHi (n : Nat) : Nat := 0x1002018 + 0x10000 * n
/-- VEH_EVSE_MAC_LO (R280). -/
def Reg.vehEvseMacLo (n : Nat) : Nat := 0x100201C + 0x10000 * n
/-- VEH_EVSE_MAC_HI (R280). -/
def Reg.vehEvseMacHi (n : Nat) : Nat := 0x1002020 + 0x10000 * n
/-- VEH_SLAC (R280). -/
def Reg.vehSlac (n : Nat) : Nat := 0x1002024 + 0x10000 * n
/-- VEH_EV_POWER (R280). -/
def Reg.vehEvPower (n : Nat) : Nat := 0x1002028 + 0x10000 * n
/-- VEH_EV_VOLT (R280). -/
def Reg.vehEvVolt (n : Nat) : Nat := 0x100202C + 0x10000 * n
/-- VEH_EV_CURR (R280). -/
def Reg.vehEvCurr (n : Nat) : Nat := 0x1002030 + 0x10000 * n
/-- VEH_EV_SOC (R280). -/
def Reg.vehEvSoc (n : Nat) : Nat := 0x1002034 + 0x10000 * n
/-- VEH_PUB (R280). -/
def Reg.vehPub (n : Nat) : Nat := 0x1002038 + 0x10000 * n
/-- VEH_REQ (R280). -/
def Reg.vehReq (n : Nat) : Nat := 0x100203C + 0x10000 * n
/-- VEH_SETPT (R280). -/
def Reg.vehSetpt (n : Nat) : Nat := 0x1002040 + 0x10000 * n
/-- VEH_DISCH_KW (R280). -/
def Reg.vehDischKw (n : Nat) : Nat := 0x1002044 + 0x10000 * n
/-- VEH_CMD (R280). -/
def Reg.vehCmd (n : Nat) : Nat := 0x1002048 + 0x10000 * n
/-- VEH_LAST_END (R280). -/
def Reg.vehLastEnd (n : Nat) : Nat := 0x1002050 + 0x10000 * n
/-- VEH_COUNTS (R280). -/
def Reg.vehCounts (n : Nat) : Nat := 0x1002054 + 0x10000 * n
/-- VEH_X_STOP (R280). -/
def Reg.vehXStop (n : Nat) : Nat := 0x1002100 + 0x10000 * n
/-- VEH_X_AUTH (R280). -/
def Reg.vehXAuth (n : Nat) : Nat := 0x1002104 + 0x10000 * n
/-- VEH_X_SLAC (R280). -/
def Reg.vehXSlac (n : Nat) : Nat := 0x1002108 + 0x10000 * n
/-- VEH_X_REQ (R280). -/
def Reg.vehXReq (n : Nat) : Nat := 0x100210C + 0x10000 * n
/-- PRT_STATUS (R321). -/
def Reg.prtStatus : Nat := 0x80000
/-- PRT_EVENTS (R321). -/
def Reg.prtEvents : Nat := 0x80004
/-- PRT_TRIP_CNT (R321). -/
def Reg.prtTripCnt : Nat := 0x80008
/-- PRT_LAST_TRIP (R321). -/
def Reg.prtLastTrip : Nat := 0x8000C
/-- PRT_LAST_TICK_LO (R321). -/
def Reg.prtLastTickLo : Nat := 0x80010
/-- PRT_LAST_TICK_HI (R321). -/
def Reg.prtLastTickHi : Nat := 0x80014
/-- PRT_LATCHED (R321). -/
def Reg.prtLatched (k : Nat) : Nat := 0x80018 + 0x4 * k
/-- PRT_TRIP_MAP (R321). -/
def Reg.prtTripMap (k : Nat) : Nat := 0x80030 + 0x4 * k
/-- PRT_AV_CFG (R321). -/
def Reg.prtAvCfg (i : Nat) : Nat := 0x80040 + 0x4 * i
/-- PRT_AV_STATUS (R321). -/
def Reg.prtAvStatus : Nat := 0x80060
/-- PRT_AV_EVENTS (R321). -/
def Reg.prtAvEvents : Nat := 0x80064
/-- PRT_RST_STATUS (R321). -/
def Reg.prtRstStatus : Nat := 0x80068
/-- PRT_RST_EVENTS (R321). -/
def Reg.prtRstEvents : Nat := 0x8006C
/-- PRT_TRIPOUT_CFG (R321). -/
def Reg.prtTripoutCfg : Nat := 0x80070
/-- PRT_TRIPOUT_STATUS (R321). -/
def Reg.prtTripoutStatus : Nat := 0x80074
/-- PRT_TRIPOUT_EVENTS (R321). -/
def Reg.prtTripoutEvents : Nat := 0x80078
/-- PRT_SN_CFG (R321). -/
def Reg.prtSnCfg : Nat := 0x80080
/-- PRT_SN_TX_CONN (R321). -/
def Reg.prtSnTxConn : Nat := 0x80084
/-- PRT_SN_DA_LO (R321). -/
def Reg.prtSnDaLo : Nat := 0x80088
/-- PRT_SN_DA_HI (R321). -/
def Reg.prtSnDaHi : Nat := 0x8008C
/-- PRT_SN_STATUS (R321). -/
def Reg.prtSnStatus : Nat := 0x80090
/-- PRT_SN_EVENTS (R321). -/
def Reg.prtSnEvents : Nat := 0x80094
/-- PRT_SN_UNKNOWN (R321). -/
def Reg.prtSnUnknown : Nat := 0x80098
/-- PRT_SN_RX_ID (R321). -/
def Reg.prtSnRxId (i : Nat) : Nat := 0x800A0 + 0x8 * i
/-- PRT_SN_RX_CFG (R321). -/
def Reg.prtSnRxCfg (i : Nat) : Nat := 0x800A4 + 0x8 * i
/-- PRT_SN_SIG (R321). -/
def Reg.prtSnSig (i : Nat) : Nat := 0x800E0 + 0x4 * i
/-- PRT_X_SITE (R321). -/
def Reg.prtXSite : Nat := 0x80100
/-- PRT_X_SN (R321). -/
def Reg.prtXSn : Nat := 0x80104
/-- PRT_L_CFG (R322). -/
def Reg.prtLCfg (n : Nat) : Nat := 0x81000 + 0x40 * n
/-- PRT_L_STATUS (R322). -/
def Reg.prtLStatus (n : Nat) : Nat := 0x81004 + 0x40 * n
/-- PRT_L_EVENTS (R322). -/
def Reg.prtLEvents (n : Nat) : Nat := 0x81008 + 0x40 * n
/-- PRT_L_ISO (R322). -/
def Reg.prtLIso (n : Nat) : Nat := 0x8100C + 0x40 * n
/-- PRT_L_SYM (R322). -/
def Reg.prtLSym (n : Nat) : Nat := 0x81010 + 0x40 * n
/-- PRT_L_RDC (R322). -/
def Reg.prtLRdc (n : Nat) : Nat := 0x81014 + 0x40 * n
/-- PRT_L_LIMIT (R322). -/
def Reg.prtLLimit (n : Nat) : Nat := 0x81018 + 0x40 * n
/-- PRT_L_X_IMD (R322). -/
def Reg.prtLXImd (n : Nat) : Nat := 0x81020 + 0x40 * n
/-- PRT_L_X_INJ (R322). -/
def Reg.prtLXInj (n : Nat) : Nat := 0x81024 + 0x40 * n
/-- PRT_L_X_RDC (R322). -/
def Reg.prtLXRdc (n : Nat) : Nat := 0x81028 + 0x40 * n
/-- PRT_L_X_LIM (R322). -/
def Reg.prtLXLim (n : Nat) : Nat := 0x8102C + 0x40 * n
/-- PRT_L_X_SYM (R322). -/
def Reg.prtLXSym (n : Nat) : Nat := 0x81030 + 0x40 * n
/-- TAG_CFG (R340). -/
def Reg.tagCfg : Nat := 0xC0000
/-- TAG_STATUS (R340). -/
def Reg.tagStatus : Nat := 0xC0004
/-- TAG_EVENTS (R340). -/
def Reg.tagEvents : Nat := 0xC0008
/-- TAG_AUTH_CNT (R340). -/
def Reg.tagAuthCnt : Nat := 0xC000C
/-- TAG_REFUSE_CNT (R340). -/
def Reg.tagRefuseCnt : Nat := 0xC0010
/-- TAG_X_POLL (R340). -/
def Reg.tagXPoll : Nat := 0xC0040
/-- TAG_HOST_TEN (R340). -/
def Reg.tagHostTen (k : Nat) : Nat := 0xC0080 + 0x4 * k
/-- TAG_HOST_LOCK (R340). -/
def Reg.tagHostLock : Nat := 0xC0100
/-- TAG_ENG (R340). -/
def Reg.tagEng (i : Nat) : Nat := 0xC0200 + 0x4 * i
/-- TAG_SVC_STATUS (R340). -/
def Reg.tagSvcStatus : Nat := 0xC0800
/-- TAG_SVC_EVENTS (R340). -/
def Reg.tagSvcEvents : Nat := 0xC0804
/-- TAG_SVC_MBX_CMD (R340). -/
def Reg.tagSvcMbxCmd : Nat := 0xC0808
/-- TAG_SVC_CNT (R340). -/
def Reg.tagSvcCnt : Nat := 0xC080C
/-- TAG_SVC_MBX_DATA (R340). -/
def Reg.tagSvcMbxData (k : Nat) : Nat := 0xC0900 + 0x4 * k
/-- TAG_L_CFG (R341). -/
def Reg.tagLCfg (n : Nat) : Nat := 0xC1000 + 0x10 * n
/-- TAG_L_STATUS (R341). -/
def Reg.tagLStatus (n : Nat) : Nat := 0xC1004 + 0x10 * n
/-- TAG_L_RESULT (R341). -/
def Reg.tagLResult (n : Nat) : Nat := 0xC1008 + 0x10 * n
/-- TAG_L_EVENTS (R341). -/
def Reg.tagLEvents (n : Nat) : Nat := 0xC100C + 0x10 * n
/-- TAG_T_CFG (R342). -/
def Reg.tagTCfg (n : Nat) : Nat := 0x4000300 + 0x1000 * n
/-- TAG_T_STATUS (R342). -/
def Reg.tagTStatus (n : Nat) : Nat := 0x4000304 + 0x1000 * n
/-- TAG_T_ROOT_ID (R342). -/
def Reg.tagTRootId (n : Nat) : Nat := 0x4000308 + 0x1000 * n
/-- TAG_T_REMOTE_SERIAL (R342). -/
def Reg.tagTRemoteSerial (n : Nat) : Nat := 0x400030C + 0x1000 * n
/-- TAG_T_AUTH_CNT (R342). -/
def Reg.tagTAuthCnt (n : Nat) : Nat := 0x4000310 + 0x1000 * n
/-- TAG_T_REFUSE_CNT (R342). -/
def Reg.tagTRefuseCnt (n : Nat) : Nat := 0x4000314 + 0x1000 * n
/-- TAG_T_OUTLETS (R342). -/
def Reg.tagTOutlets (n k : Nat) : Nat := 0x4000320 + 0x1000 * n + 0x4 * k
/-- TAG_T_BLOCK (R342). -/
def Reg.tagTBlock (n i k : Nat) : Nat := 0x4000400 + 0x1000 * n + 0x10 * i + 0x4 * k
/-- SEC_STATUS (R374). -/
def Reg.secStatus : Nat := 0x50000
/-- SEC_EVENTS (R374). -/
def Reg.secEvents : Nat := 0x50004
/-- SEC_CMD (R374). -/
def Reg.secCmd : Nat := 0x50008
/-- SEC_CMD_STATE (R374). -/
def Reg.secCmdState : Nat := 0x50010
/-- SEC_VIOL_CNT (R374). -/
def Reg.secViolCnt : Nat := 0x50014
/-- SEC_VIOL_ADDR (R374). -/
def Reg.secViolAddr : Nat := 0x50018
/-- SEC_VIOL_CAUSE (R374). -/
def Reg.secViolCause : Nat := 0x5001C
/-- SEC_ROOT_EPOCH (R374). -/
def Reg.secRootEpoch : Nat := 0x50020
/-- SEC_Q_A (R374). -/
def Reg.secQA : Nat := 0x50024
/-- SEC_Q_B (R374). -/
def Reg.secQB : Nat := 0x50028
/-- SEC_ENG_BUSY (R374). -/
def Reg.secEngBusy : Nat := 0x5002C
/-- SEC_WAIT_MAX (R374). -/
def Reg.secWaitMax : Nat := 0x50030
/-- SEC_RNG_FAIL_CNT (R374). -/
def Reg.secRngFailCnt : Nat := 0x50034
/-- SEC_CFG (R374). -/
def Reg.secCfg : Nat := 0x50038
/-- SEC_ATT_CHAL (R374). -/
def Reg.secAttChal (k : Nat) : Nat := 0x50040 + 0x4 * k
/-- SEC_ATT_CMD (R374). -/
def Reg.secAttCmd : Nat := 0x50060
/-- SEC_ATT_STATE (R374). -/
def Reg.secAttState : Nat := 0x50064
/-- SEC_ATT_RESP (R374). -/
def Reg.secAttResp (k : Nat) : Nat := 0x50080 + 0x4 * k
/-- SEC_ATT_DIGEST (R374). -/
def Reg.secAttDigest (k : Nat) : Nat := 0x500C0 + 0x4 * k
/-- SEC_LEGAL_PUB (R374). -/
def Reg.secLegalPub (k : Nat) : Nat := 0x50100 + 0x4 * k
/-- SEC_INSTALL_PUB (R374). -/
def Reg.secInstallPub (k : Nat) : Nat := 0x50160 + 0x4 * k
/-- SEC_HE_PUB (R374). -/
def Reg.secHePub (k : Nat) : Nat := 0x501C0 + 0x4 * k
/-- SEC_SUB_CMD (R374). -/
def Reg.secSubCmd (i : Nat) : Nat := 0x50300 + 0x10 * i
/-- SEC_SUB_STATE (R374). -/
def Reg.secSubState (i : Nat) : Nat := 0x50304 + 0x10 * i
/-- SEC_SUB_BUF (R374). -/
def Reg.secSubBuf (i k : Nat) : Nat := 0x53000 + 0x1000 * i + 0x4 * k
/-- SEC_ENROL (R374). -/
def Reg.secEnrol (k : Nat) : Nat := 0x51800 + 0x4 * k
/-- SEC_DEVCERT (R374). -/
def Reg.secDevcert (k : Nat) : Nat := 0x51C00 + 0x4 * k
/-- SEC_CHAIN_BUF (R374). -/
def Reg.secChainBuf (k : Nat) : Nat := 0x52000 + 0x4 * k
/-- SEC_VAULT (R374). -/
def Reg.secVault (k : Nat) : Nat := 0x58000 + 0x4 * k
/-- GRD_CFG (R395). -/
def Reg.grdCfg : Nat := 0xB0000
/-- GRD_STATUS (R395). -/
def Reg.grdStatus : Nat := 0xB0004
/-- GRD_EVENTS (R395). -/
def Reg.grdEvents : Nat := 0xB0008
/-- GRD_CMD (R395). -/
def Reg.grdCmd : Nat := 0xB000C
/-- GRD_COORD_LO (R395). -/
def Reg.grdCoordLo : Nat := 0xB0014
/-- GRD_COORD_HI (R395). -/
def Reg.grdCoordHi : Nat := 0xB0018
/-- GRD_NOISE (R395). -/
def Reg.grdNoise : Nat := 0xB001C
/-- GRD_RX_OK (R395). -/
def Reg.grdRxOk : Nat := 0xB0020
/-- GRD_RX_BAD (R395). -/
def Reg.grdRxBad : Nat := 0xB0024
/-- GRD_BLANKED (R395). -/
def Reg.grdBlanked : Nat := 0xB0028
/-- GRD_MSG_CNT (R395). -/
def Reg.grdMsgCnt : Nat := 0xB002C
/-- GRD_DROP (R395). -/
def Reg.grdDrop : Nat := 0xB0030
/-- GRD_X_LINK (R395). -/
def Reg.grdXLink : Nat := 0xB0040
/-- GRD_X_DISC (R395). -/
def Reg.grdXDisc : Nat := 0xB0044
/-- GRD_NB_LO (R396). -/
def Reg.grdNbLo (i : Nat) : Nat := 0xB0100 + 0x10 * i
/-- GRD_NB_HI (R396). -/
def Reg.grdNbHi (i : Nat) : Nat := 0xB0104 + 0x10 * i
/-- GRD_NB_MAP (R396). -/
def Reg.grdNbMap (i : Nat) : Nat := 0xB0108 + 0x10 * i
/-- GRD_NB_SEEN (R396). -/
def Reg.grdNbSeen (i : Nat) : Nat := 0xB010C + 0x10 * i
/-- CFG_STATUS (R426). -/
def Reg.cfgStatus : Nat := 0x30000
/-- CFG_EVENTS (R426). -/
def Reg.cfgEvents : Nat := 0x30004
/-- CFG_IMAGE_SERIAL (R426). -/
def Reg.cfgImageSerial : Nat := 0x30008
/-- CFG_FW_VER (R426). -/
def Reg.cfgFwVer : Nat := 0x3000C
/-- CFG_PMB_ADDR (R426). -/
def Reg.cfgPmbAddr : Nat := 0x30010
/-- CFG_DEFAULTED (R426). -/
def Reg.cfgDefaulted : Nat := 0x30014
/-- CFG_FN_CTRL (R426). -/
def Reg.cfgFnCtrl : Nat := 0x30020
/-- CFG_FN_STAT (R426). -/
def Reg.cfgFnStat : Nat := 0x30028
/-- CFG_HOLD (R426). -/
def Reg.cfgHold (i : Nat) : Nat := 0x30040 + 0x4 * i
/-- CFG_HASH (R426). -/
def Reg.cfgHash (k : Nat) : Nat := 0x30100 + 0x4 * k
/-- CFG_LOAD_OFFSET (R426). -/
def Reg.cfgLoadOffset : Nat := 0x30200
/-- CFG_LOAD_CMD (R426). -/
def Reg.cfgLoadCmd : Nat := 0x30204
/-- CFG_LOAD_STATE (R426). -/
def Reg.cfgLoadState : Nat := 0x3020C
/-- CFG_LOAD_BUF (R426). -/
def Reg.cfgLoadBuf (k : Nat) : Nat := 0x31000 + 0x4 * k
/-- UPD_STATUS (R427). -/
def Reg.updStatus : Nat := 0x40000
/-- UPD_EVENTS (R427). -/
def Reg.updEvents : Nat := 0x40004
/-- UPD_CMD (R427). -/
def Reg.updCmd : Nat := 0x40008
/-- UPD_HEALTH_CONFIRM (R427). -/
def Reg.updHealthConfirm : Nat := 0x40010
/-- UPD_MAN_SERIAL (R427). -/
def Reg.updManSerial : Nat := 0x40018
/-- UPD_MAN_LAST (R427). -/
def Reg.updManLast : Nat := 0x4001C
/-- UPD_PIECES (R427). -/
def Reg.updPieces : Nat := 0x40020
/-- UPD_HAVE (R427). -/
def Reg.updHave : Nat := 0x40024
/-- UPD_PIECE_CNT (R427). -/
def Reg.updPieceCnt : Nat := 0x40028
/-- UPD_CONFIRM_LEFT (R427). -/
def Reg.updConfirmLeft : Nat := 0x4002C
/-- UPD_LAST_END (R427). -/
def Reg.updLastEnd : Nat := 0x40030
/-- UPD_SWAP_MS (R427). -/
def Reg.updSwapMs : Nat := 0x40034
/-- UPD_PART (R427). -/
def Reg.updPart (i : Nat) : Nat := 0x40040 + 0x4 * i
/-- UPD_PIECE_CMD (R427). -/
def Reg.updPieceCmd (i : Nat) : Nat := 0x40100 + 0x10 * i
/-- UPD_PIECE_INDEX (R427). -/
def Reg.updPieceIndex (i : Nat) : Nat := 0x40104 + 0x10 * i
/-- UPD_PIECE_STATE (R427). -/
def Reg.updPieceState (i : Nat) : Nat := 0x40108 + 0x10 * i
/-- UPD_PIECE_BUF (R427). -/
def Reg.updPieceBuf (i k : Nat) : Nat := 0x41000 + 0x2000 * i + 0x4 * k
/-- MEM_STATUS (R456). -/
def Reg.memStatus : Nat := 0x60000
/-- MEM_EVENTS (R456). -/
def Reg.memEvents : Nat := 0x60004
/-- MEM_CORR_CNT (R456). -/
def Reg.memCorrCnt : Nat := 0x60008
/-- MEM_POISON_CNT (R456). -/
def Reg.memPoisonCnt : Nat := 0x6000C
/-- MEM_POISON_ADDR (R456). -/
def Reg.memPoisonAddr : Nat := 0x60010
/-- MEM_SCRUB_CFG (R456). -/
def Reg.memScrubCfg : Nat := 0x60014
/-- MEM_SCRUB_CFG2 (R456). -/
def Reg.memScrubCfg2 : Nat := 0x60018
/-- MEM_X_SCRUB_L (R456). -/
def Reg.memXScrubL : Nat := 0x6001C
/-- MEM_X_SCRUB_W (R456). -/
def Reg.memXScrubW : Nat := 0x60020
/-- MEM_SCRUB_PASS (R456). -/
def Reg.memScrubPass : Nat := 0x60024
/-- MEM_LW_CLEAR (R456). -/
def Reg.memLwClear : Nat := 0x60030
/-- MEM_LW_NEXT (R456). -/
def Reg.memLwNext : Nat := 0x60038
/-- MEM_LW_w (R456). -/
def Reg.memLwW (i k : Nat) : Nat := 0x60040 + 0x10 * i + 0x4 * k
/-- MEM_ARC_CFG (R456). -/
def Reg.memArcCfg : Nat := 0x60200
/-- MEM_ARC_STATUS (R456). -/
def Reg.memArcStatus : Nat := 0x60204
/-- MEM_ARC_EVENTS (R456). -/
def Reg.memArcEvents : Nat := 0x60208
/-- MEM_ARC_GAP_CNT (R456). -/
def Reg.memArcGapCnt : Nat := 0x6020C
/-- MEM_ARC_NS_CFG (R456). -/
def Reg.memArcNsCfg (i : Nat) : Nat := 0x60220 + 0x10 * i
/-- MEM_X_ARC_NS (R456). -/
def Reg.memXArcNs (i : Nat) : Nat := 0x60224 + 0x10 * i
/-- MEM_ARC_NS_EPOCH (R456). -/
def Reg.memArcNsEpoch (i : Nat) : Nat := 0x60228 + 0x10 * i
/-- MEM_ARC_NS_NEXT (R456). -/
def Reg.memArcNsNext (i : Nat) : Nat := 0x6022C + 0x10 * i
/-- MEM_ARC_RD_NS (R456). -/
def Reg.memArcRdNs : Nat := 0x60300
/-- MEM_ARC_RD_EPOCH (R456). -/
def Reg.memArcRdEpoch : Nat := 0x60304
/-- MEM_ARC_RD_BLOCK_LO (R456). -/
def Reg.memArcRdBlockLo : Nat := 0x60308
/-- MEM_ARC_RD_BLOCK_HI (R456). -/
def Reg.memArcRdBlockHi : Nat := 0x6030C
/-- MEM_ARC_RD_CMD (R456). -/
def Reg.memArcRdCmd : Nat := 0x60310
/-- MEM_ARC_RD_STATE (R456). -/
def Reg.memArcRdState : Nat := 0x60314
/-- MEM_ARC_RD_TAG (R456). -/
def Reg.memArcRdTag (k : Nat) : Nat := 0x60320 + 0x4 * k
/-- MEM_ARC_WIN (R456). -/
def Reg.memArcWin (k : Nat) : Nat := 0x68000 + 0x4 * k
/-- EVR_STATUS (R457). -/
def Reg.evrStatus : Nat := 0x70000
/-- EVR_EVENTS (R457). -/
def Reg.evrEvents : Nat := 0x70004
/-- EVR_NEXT_LO (R457). -/
def Reg.evrNextLo : Nat := 0x70008
/-- EVR_NEXT_HI (R457). -/
def Reg.evrNextHi : Nat := 0x7000C
/-- EVR_OLDEST_LO (R457). -/
def Reg.evrOldestLo : Nat := 0x70010
/-- EVR_OLDEST_HI (R457). -/
def Reg.evrOldestHi : Nat := 0x70014
/-- EVR_NOR_LOST_CNT (R457). -/
def Reg.evrNorLostCnt : Nat := 0x70018
/-- EVR_DROP_CNT (R457). -/
def Reg.evrDropCnt : Nat := 0x7001C
/-- EVR_CURSOR (R457). -/
def Reg.evrCursor : Nat := 0x70020
/-- EVR_WIN_STATE (R457). -/
def Reg.evrWinState : Nat := 0x70024
/-- EVR_NOR_SECT (R457). -/
def Reg.evrNorSect : Nat := 0x70028
/-- EVR_NOR_HEAD (R457). -/
def Reg.evrNorHead : Nat := 0x7002C
/-- EVR_EVT_CFG (R457). -/
def Reg.evrEvtCfg : Nat := 0x70030
/-- EVR_CMD (R457). -/
def Reg.evrCmd : Nat := 0x70034
/-- EVR_RETIRED0 (R457). -/
def Reg.evrRetired0 : Nat := 0x70040
/-- EVR_RETIRED1 (R457). -/
def Reg.evrRetired1 : Nat := 0x70044
/-- EVR_WIN (R457). -/
def Reg.evrWin (k : Nat) : Nat := 0x70100 + 0x4 * k
/-- EVR_PEND (R457). -/
def Reg.evrPend (k : Nat) : Nat := 0x70200 + 0x4 * k
/-- EVR_EN (R457). -/
def Reg.evrEn (k : Nat) : Nat := 0x70300 + 0x4 * k
/-- EVR_ROUTE (R457). -/
def Reg.evrRoute (k : Nat) : Nat := 0x70400 + 0x4 * k
/-- EVR_SNAP (R457). -/
def Reg.evrSnap (i k : Nat) : Nat := 0x70500 + 0x20 * i + 0x4 * k
/-- EVR_NOR_WIN (R457). -/
def Reg.evrNorWin (k : Nat) : Nat := 0x71000 + 0x4 * k
/-- AUX_STATUS (R478). -/
def Reg.auxStatus (n : Nat) : Nat := 0x1003000 + 0x10000 * n
/-- AUX_EVENTS (R478). -/
def Reg.auxEvents (n : Nat) : Nat := 0x1003004 + 0x10000 * n
/-- AUX_TACH01 (R478). -/
def Reg.auxTach01 (n : Nat) : Nat := 0x1003008 + 0x10000 * n
/-- AUX_TACH23 (R478). -/
def Reg.auxTach23 (n : Nat) : Nat := 0x100300C + 0x10000 * n
/-- AUX_CMD (R478). -/
def Reg.auxCmd (n : Nat) : Nat := 0x1003010 + 0x10000 * n
/-- AUX_CFG (R478). -/
def Reg.auxCfg (n i : Nat) : Nat := 0x1003020 + 0x10000 * n + 0x4 * i
/-- AUX_X_TACH (R478). -/
def Reg.auxXTach (n i : Nat) : Nat := 0x1003040 + 0x10000 * n + 0x4 * i

/-- Access codes of R11; an Expert register is a RW register that takes writes only while its function is
held (R407); every access to the vault window is a violation (R373). -/
inductive RegKind where
  | ro | rw | expert | w1c | gw | wo | vault
  deriving DecidableEq, Repr

/-- A field of a register loaded from the image: lowest bit, width, vendor default (R499) and range. A range with a
negative lower end is that of a signed field. -/
structure RegField where
  lo    : Nat
  width : Nat
  dflt  : Nat
  min   : Int
  max   : Int
  deriving DecidableEq, Repr

/-- A row of a register table: `count` groups, `stride` bytes apart, of `run` consecutive words. -/
structure RegDecl where
  first  : Nat
  run    : Nat := 1
  stride : Nat := 4
  count  : Nat := 1
  kind   : RegKind
  /-- Bits a host write may set, or clear. -/
  mask   : Nat := 0
  /-- Bits that clear only through a guarded pair (R12). -/
  guard  : Nat := 0
  /-- Fields of a register whose Reset column reads "image". -/
  fields : List RegField := []
  /-- Whether the Reset column reads "kept". -/
  kept   : Bool := false
  /-- The number in the Reset column, 0 where the column reads "kept" or "—". -/
  reset  : Nat := 0
  deriving DecidableEq, Repr

def RegTable.pac : List RegDecl := [
  { first := 0x0, kind := .ro },  -- PAC_TICK_LO
  { first := 0x4, kind := .ro },  -- PAC_TICK_HI
  { first := 0x8, kind := .ro },  -- PAC_STATUS
  { first := 0xC, kind := .w1c, mask := 0x1F, guard := 0x1 },  -- PAC_EVENTS
  { first := 0x10, kind := .ro, fields := [⟨0, 12, 900, 1, 3600⟩] },  -- PAC_LAP_LEN
  { first := 0x14, kind := .ro },  -- PAC_LAP_NUM
  { first := 0x18, kind := .ro },  -- PAC_LAP_START_LO
  { first := 0x1C, kind := .ro },  -- PAC_LAP_START_HI
  { first := 0x20, kind := .ro, kept := true },  -- PAC_CAL_LO
  { first := 0x24, kind := .ro, kept := true },  -- PAC_CAL_HI
  { first := 0x28, kind := .ro },  -- PAC_PLAN_NUM
  { first := 0x2C, kind := .ro },  -- PAC_DRIFT
  { first := 0x30, kind := .ro } ]  -- PAC_OVERRUN_CNT

def RegTable.pwr : List RegDecl := [
  { first := 0x0, kind := .gw, mask := 0xF },  -- PWR_MODE_REQ
  { first := 0x4, kind := .wo },  -- complement half
  { first := 0x8, kind := .ro },  -- PWR_STATUS
  { first := 0xC, kind := .w1c, mask := 0xFF, guard := 0x1 },  -- PWR_EVENTS
  { first := 0x10, kind := .ro, fields := [⟨16, 8, 15, 0, 255⟩, ⟨8, 8, 10, 0, 255⟩, ⟨4, 3, 7, 1, 7⟩, ⟨0, 3, 1, 1, 7⟩] },  -- PWR_TEMPO_CFG
  { first := 0x14, kind := .ro },  -- PWR_DEMAND
  { first := 0x18, kind := .ro },  -- PWR_VCORE_REQ
  { first := 0x1C, kind := .ro },  -- PWR_VCORE_READ
  { first := 0x20, kind := .ro, kept := true, fields := [⟨0, 8, 0xF0, 0, 255⟩, ⟨8, 1, 1, 0, 1⟩] },  -- PWR_WAKE_CFG
  { first := 0x24, kind := .ro, kept := true },  -- PWR_WAKE_CAUSE
  { first := 0x28, kind := .ro },  -- PWR_BRINGUP_TIME
  { first := 0x2C, kind := .ro, kept := true },  -- PWR_COMMIT_SEQ
  { first := 0x30, kind := .ro, kept := true },  -- PWR_OP_SECONDS
  { first := 0x34, kind := .ro, kept := true } ]  -- PWR_CYCLES

def RegTable.glb : List RegDecl := [
  { first := 0x0, kind := .ro, reset := 0xB1C14421 },  -- GLB_ID
  { first := 0x4, kind := .ro, reset := 0x2 },  -- GLB_MODE
  { first := 0x8, kind := .ro },  -- GLB_SERIAL_LO
  { first := 0xC, kind := .ro },  -- GLB_SERIAL_HI
  { first := 0x10, kind := .ro },  -- GLB_NODE_LO
  { first := 0x14, kind := .ro },  -- GLB_NODE_HI
  { first := 0x18, kind := .ro } ]  -- GLB_ROLES

def RegTable.hpt : List RegDecl := [
  { first := 0x0, kind := .ro },  -- HPT_STATUS
  { first := 0x4, kind := .w1c, mask := 0xF },  -- HPT_EVENTS
  { first := 0x8, kind := .ro },  -- HPT_LAST_STATUS
  { first := 0xC, kind := .ro },  -- HPT_ERR_ADDR
  { first := 0x10, kind := .ro },  -- HPT_ERR_CAUSE
  { first := 0x14, kind := .ro },  -- HPT_ERR_CNT
  { first := 0x18, kind := .ro },  -- HPT_ABORT_CNT
  { first := 0x1C, kind := .ro },  -- HPT_GUARD_CNT
  { first := 0x20, kind := .rw, mask := 0xFFFFFFFF },  -- HPT_STALL_MAX
  { first := 0x24, kind := .ro },  -- HPT_TXN_CNT
  { first := 0x28, kind := .rw, mask := 0xFFFFFFFF } ]  -- HPT_SCRATCH

def RegTable.lnk : List RegDecl := [
  { first := 0x0, kind := .ro, fields := [⟨16, 8, 100, 0, 255⟩, ⟨2, 1, 0, 0, 1⟩, ⟨0, 2, 0, 0, 3⟩] },  -- LNK_CFG
  { first := 0x4, kind := .ro },  -- LNK_STATUS
  { first := 0x8, kind := .w1c, mask := 0xFFF, guard := 0x203 },  -- LNK_EVENTS
  { first := 0xC, kind := .gw, mask := 0x1 },  -- LNK_CMD
  { first := 0x10, kind := .wo },  -- complement half
  { first := 0x14, kind := .ro },  -- LNK_RTT
  { first := 0x18, kind := .ro },  -- LNK_FAIL_RX
  { first := 0x1C, kind := .ro },  -- LNK_FAIL_LAP
  { first := 0x20, kind := .ro },  -- LNK_TRAIN_CNT
  { first := 0x24, kind := .ro },  -- LNK_ALARM_LAST
  { first := 0x28, kind := .ro },  -- LNK_TRIP_LAST
  { first := 0x2C, kind := .ro },  -- LNK_HEAD_ID
  { first := 0x30, kind := .ro },  -- LNK_HEAD_FW
  { first := 0x34, kind := .ro } ]  -- LNK_BAD_CTRL

def RegTable.met0 : List RegDecl := [
  { first := 0x0, kind := .ro, fields := [⟨24, 8, 0, 0, 255⟩, ⟨16, 2, 0, 0, 3⟩, ⟨8, 8, 0, 0, 255⟩, ⟨1, 1, 0, 0, 1⟩, ⟨0, 1, 0, 0, 1⟩] },  -- MET_CFG
  { first := 0x4, kind := .ro },  -- MET_STATUS
  { first := 0x8, kind := .w1c, mask := 0x1FF },  -- MET_EVENTS
  { first := 0x10, kind := .ro, kept := true },  -- MET_E_IMP_W0
  { first := 0x14, kind := .ro, kept := true },  -- MET_E_IMP_W1
  { first := 0x18, kind := .ro, kept := true },  -- MET_E_IMP_W2
  { first := 0x1C, kind := .ro, kept := true },  -- MET_E_EXP_W0
  { first := 0x20, kind := .ro, kept := true },  -- MET_E_EXP_W1
  { first := 0x24, kind := .ro, kept := true },  -- MET_E_EXP_W2
  { first := 0x28, kind := .ro },  -- MET_LAP_IMP_LO
  { first := 0x2C, kind := .ro },  -- MET_LAP_IMP_HI
  { first := 0x30, kind := .ro },  -- MET_LAP_EXP_LO
  { first := 0x34, kind := .ro },  -- MET_LAP_EXP_HI
  { first := 0x38, kind := .ro },  -- MET_LAP_FLAGS
  { first := 0x3C, kind := .ro },  -- MET_LAP_NUM
  { first := 0x40, run := 8, kind := .ro },  -- MET_RMS
  { first := 0x60, run := 8, kind := .ro },  -- MET_DC
  { first := 0x80, run := 8, kind := .ro },  -- MET_PKMAX
  { first := 0xA0, run := 8, kind := .ro },  -- MET_PKMIN
  { first := 0xC0, kind := .ro },  -- MET_POWER
  { first := 0xC4, run := 3, kind := .ro },  -- MET_PPH
  { first := 0xD0, kind := .ro },  -- MET_FREQ
  { first := 0xD8, kind := .ro },  -- MET_DIP_CNT
  { first := 0xDC, kind := .ro } ]  -- MET_SWELL_CNT

def RegTable.met1 : List RegDecl := [
  { first := 0xE0, kind := .ro },  -- MET_PQ_LAST0
  { first := 0xE4, kind := .ro },  -- MET_PQ_LAST1
  { first := 0xE8, kind := .ro },  -- MET_PQ_LAST2
  { first := 0xEC, kind := .ro },  -- MET_OC_CNT
  { first := 0xF0, kind := .ro, kept := true },  -- MET_CAL_CRC
  { first := 0xF4, kind := .ro },  -- MET_LAP_BRIDGED
  { first := 0xF8, kind := .ro },  -- MET_TEST_E_LO
  { first := 0xFC, kind := .ro },  -- MET_TEST_E_HI
  { first := 0x100, kind := .expert, mask := 0xFFFFFF, fields := [⟨16, 8, 16, 1, 255⟩, ⟨0, 16, 0, 0, 65535⟩] },  -- MET_X_OC
  { first := 0x104, kind := .expert, mask := 0xFFFFFFFF, fields := [⟨16, 16, 10, 0, 65535⟩, ⟨0, 16, 200, 0, 65535⟩] },  -- MET_X_SENSE
  { first := 0x108, kind := .expert, mask := 0xFFFFFFFF, fields := [⟨24, 8, 110, 0, 255⟩, ⟨16, 8, 90, 0, 255⟩, ⟨0, 16, 0x8FC, 0, 65535⟩] },  -- MET_X_PQ
  { first := 0x10C, kind := .expert, mask := 0xFF, fields := [⟨0, 8, 20, 0, 255⟩] },  -- MET_X_PQ2
  { first := 0x200, stride := 0x20, count := 8, kind := .gw, kept := true, mask := 0xFFFFFFFF },  -- MET_CAL_OFFSET
  { first := 0x204, stride := 0x20, count := 8, kind := .gw, kept := true, mask := 0xFFFFFFFF },  -- MET_CAL_GAIN
  { first := 0x208, stride := 0x20, count := 8, kind := .gw, kept := true, mask := 0xFFFFFFFF },  -- MET_CAL_TC
  { first := 0x20C, stride := 0x20, count := 8, kind := .gw, kept := true, mask := 0x3FFFF },  -- MET_CAL_PHASE
  { first := 0x210, stride := 0x20, count := 8, kind := .gw, kept := true, mask := 0xFFFF },  -- MET_CAL_TREF
  { first := 0x400, run := 40, stride := 0xA0, count := 6, kind := .ro },  -- MET_H
  { first := 0x7C0, run := 6, kind := .ro } ]  -- MET_THD

def RegTable.met : List RegDecl := RegTable.met0 ++ RegTable.met1

def RegTable.lio0 : List RegDecl := [
  { first := 0x800, kind := .ro, fields := [⟨31, 1, 0, 0, 1⟩, ⟨30, 1, 0, 0, 1⟩, ⟨28, 2, 0, 0, 3⟩, ⟨20, 8, 0, 0, 143⟩, ⟨0, 17, 0, 0, 131071⟩] },  -- LIO_TPO0_CFG
  { first := 0x804, kind := .ro, fields := [⟨31, 1, 0, 0, 1⟩, ⟨30, 1, 0, 0, 1⟩, ⟨28, 2, 0, 0, 3⟩, ⟨20, 8, 0, 0, 143⟩, ⟨0, 17, 0, 0, 131071⟩] },  -- LIO_TPO1_CFG
  { first := 0x808, kind := .expert, mask := 0xFFF1FFFF, fields := [⟨31, 1, 0, 0, 1⟩, ⟨30, 1, 0, 0, 1⟩, ⟨28, 2, 0, 0, 3⟩, ⟨20, 8, 0, 0, 143⟩, ⟨0, 17, 0, 0, 131071⟩] },  -- LIO_TPO0_X
  { first := 0x80C, kind := .expert, mask := 0xFFF1FFFF, fields := [⟨31, 1, 0, 0, 1⟩, ⟨30, 1, 0, 0, 1⟩, ⟨28, 2, 0, 0, 3⟩, ⟨20, 8, 0, 0, 143⟩, ⟨0, 17, 0, 0, 131071⟩] },  -- LIO_TPO1_X
  { first := 0x810, kind := .ro },  -- LIO_TPO_STATUS
  { first := 0x814, kind := .w1c, mask := 0x3F },  -- LIO_TPO_EVENTS
  { first := 0x818, kind := .ro },  -- LIO_TPO0_CNT
  { first := 0x81C, kind := .ro },  -- LIO_TPO1_CNT
  { first := 0x820, run := 4, kind := .ro, fields := [⟨31, 1, 0, 0, 1⟩, ⟨30, 1, 0, 0, 1⟩, ⟨16, 14, 100, 10, 1000⟩, ⟨0, 16, 0, 0, 65535⟩] },  -- LIO_S0_CFG
  { first := 0x830, run := 4, kind := .expert, mask := 0xFFFFFFFF, fields := [⟨31, 1, 0, 0, 1⟩, ⟨30, 1, 0, 0, 1⟩, ⟨16, 14, 100, 10, 1000⟩, ⟨0, 16, 0, 0, 65535⟩] },  -- LIO_S0_X
  { first := 0x840, stride := 0x8, count := 4, kind := .ro, kept := true },  -- LIO_S0_CNT_LO
  { first := 0x844, stride := 0x8, count := 4, kind := .ro, kept := true },  -- LIO_S0_CNT_HI
  { first := 0x860, kind := .ro },  -- LIO_S0_STATUS
  { first := 0x864, kind := .w1c, mask := 0xFFF },  -- LIO_S0_EVENTS
  { first := 0x868, kind := .ro },  -- LIO_S0_GLITCH
  { first := 0x0, kind := .ro, fields := [⟨31, 1, 0, 0, 1⟩, ⟨30, 1, 0, 0, 1⟩, ⟨16, 8, 0, 0, 255⟩, ⟨0, 8, 64, 1, 128⟩] },  -- LIO_DISP_CFG
  { first := 0x4, kind := .ro },  -- LIO_DISP_STATUS
  { first := 0x8, kind := .w1c, mask := 0x3F1F },  -- LIO_EVENTS
  { first := 0xC, kind := .ro, fields := [⟨24, 8, 10, 0, 255⟩, ⟨16, 8, 20, 0, 255⟩, ⟨0, 6, 28, 10, 40⟩] },  -- LIO_DISP_AGE
  { first := 0x10, kind := .expert, mask := 0xFFFF, fields := [⟨8, 8, 0, (-50), 50⟩, ⟨0, 8, 64, 1, 128⟩] },  -- LIO_X_DISP
  { first := 0x14, kind := .ro },  -- LIO_DISP_TEMP
  { first := 0x20, stride := 0x4, count := 8, kind := .ro, fields := [⟨24, 8, 0, (-128), 127⟩, ⟨12, 12, 0, 250, 500⟩, ⟨0, 12, 0, 1, 4095⟩] },  -- LIO_OD
  { first := 0x40, stride := 0x8, count := 8, kind := .ro, kept := true },  -- LIO_STRESS_LO
  { first := 0x44, stride := 0x8, count := 8, kind := .ro, kept := true } ]  -- LIO_STRESS_HI

def RegTable.lio1 : List RegDecl := [
  { first := 0x80, kind := .ro },  -- LIO_DISP_PINFAULT0
  { first := 0x84, kind := .ro },  -- LIO_DISP_PINFAULT1
  { first := 0x88, kind := .ro },  -- LIO_DISP_PINFAULT2
  { first := 0x100, kind := .ro, fields := [⟨16, 8, 10, 1, 255⟩, ⟨0, 16, 400, 0, 65535⟩] },  -- LIO_KEY_CFG
  { first := 0x104, kind := .expert, mask := 0xFFFFFF, fields := [⟨16, 8, 10, 1, 255⟩, ⟨0, 16, 400, 0, 65535⟩] },  -- LIO_X_KEY
  { first := 0x108, kind := .ro, fields := [⟨16, 16, 0, 0, 65535⟩, ⟨0, 16, 0, 0, 65535⟩] },  -- LIO_KEY_INIT
  { first := 0x10C, kind := .ro },  -- LIO_KEY_STATUS
  { first := 0x110, stride := 0x8, count := 2, kind := .ro },  -- LIO_KEY_MEAS
  { first := 0x120, kind := .ro },  -- LIO_KEY_GLITCH
  { first := 0x400, stride := 0x4, count := 128, kind := .ro, fields := [⟨0, 32, 0, 0, 4294967295⟩] },  -- LIO_MAP
  { first := 0x600, run := 15, kind := .ro, kept := true },  -- LIO_IMAGE
  { first := 0x63C, kind := .ro, kept := true } ]  -- LIO_DIRTY

def RegTable.lio : List RegDecl := RegTable.lio0 ++ RegTable.lio1

def RegTable.bil : List RegDecl := [
  { first := 0x0, kind := .ro, fields := [⟨20, 12, 0, (-720), 840⟩, ⟨15, 4, 3, 2, 15⟩, ⟨11, 4, 5, 0, 15⟩, ⟨5, 6, 15, 0, 63⟩, ⟨0, 5, 1, 1, 28⟩] },  -- BIL_CFG
  { first := 0x4, kind := .ro },  -- BIL_STATUS
  { first := 0x8, kind := .w1c, mask := 0xFF },  -- BIL_EVENTS
  { first := 0xC, kind := .ro, kept := true },  -- BIL_SEAL_CNT
  { first := 0x10, kind := .ro, kept := true },  -- BIL_SEAL_LAST
  { first := 0x14, kind := .ro, kept := true },  -- BIL_REC_SEQ_LO
  { first := 0x18, kind := .ro, kept := true },  -- BIL_REC_SEQ_HI
  { first := 0x1C, kind := .ro, kept := true },  -- BIL_PERIOD_NUM
  { first := 0x20, kind := .ro, kept := true },  -- BIL_PERIOD_START
  { first := 0x24, kind := .ro },  -- BIL_RECON_LAP
  { first := 0x28, kind := .ro },  -- BIL_RECON_A
  { first := 0x2C, kind := .ro },  -- BIL_RECON_B
  { first := 0x30, kind := .ro, fields := [⟨24, 8, 10, 0, 255⟩, ⟨16, 8, 40, 0, 255⟩, ⟨8, 8, 5, 0, 255⟩, ⟨0, 8, 0, 0, 255⟩] },  -- BIL_RECON_CFG
  { first := 0x34, kind := .ro, fields := [⟨0, 8, 10, 2, 60⟩] },  -- BIL_DISP_CFG
  { first := 0x38, kind := .ro },  -- BIL_DISP_POS
  { first := 0x3C, kind := .rw, mask := 0xFFFFFFFF },  -- BIL_REC_CURSOR
  { first := 0x40, kind := .ro },  -- BIL_REC_STATE
  { first := 0x44, kind := .ro },  -- BIL_REC_CHECK
  { first := 0x100, run := 128, kind := .ro } ]  -- BIL_REC_WIN

def RegTable.bilLink0 : List RegDecl := [
  { first := 0x0, kind := .ro, kept := true },  -- BIL_IMP_LO
  { first := 0x4, kind := .ro, kept := true },  -- BIL_IMP_HI
  { first := 0x8, kind := .ro, kept := true },  -- BIL_EXP_LO
  { first := 0xC, kind := .ro, kept := true },  -- BIL_EXP_HI
  { first := 0x10, kind := .ro, kept := true },  -- BIL_CARRY_IMP
  { first := 0x14, kind := .ro, kept := true },  -- BIL_CARRY_EXP
  { first := 0x18, kind := .ro, kept := true },  -- BIL_SUSP_LO
  { first := 0x1C, kind := .ro, kept := true },  -- BIL_SUSP_HI
  { first := 0x20, kind := .ro, kept := true },  -- BIL_SES_IMP_LO
  { first := 0x24, kind := .ro, kept := true },  -- BIL_SES_IMP_HI
  { first := 0x28, kind := .ro, kept := true },  -- BIL_SES_EXP_LO
  { first := 0x2C, kind := .ro, kept := true },  -- BIL_SES_EXP_HI
  { first := 0x30, kind := .ro, kept := true },  -- BIL_SES_DUR
  { first := 0x34, kind := .ro, kept := true },  -- BIL_SES_ID
  { first := 0x38, kind := .ro, kept := true },  -- BIL_SES_TENANT
  { first := 0x3C, kind := .ro },  -- BIL_SLOT
  { first := 0x40, kind := .ro, kept := true },  -- BIL_MD_FIX_P
  { first := 0x44, kind := .ro, kept := true },  -- BIL_MD_FIX_P_T
  { first := 0x48, kind := .ro, kept := true },  -- BIL_MD_FIX_C
  { first := 0x4C, kind := .ro, kept := true },  -- BIL_MD_FIX_C_T
  { first := 0x50, kind := .ro, kept := true },  -- BIL_MD_SLD_P
  { first := 0x54, kind := .ro, kept := true },  -- BIL_MD_SLD_P_T
  { first := 0x58, kind := .ro, kept := true },  -- BIL_MD_SLD_C
  { first := 0x5C, kind := .ro, kept := true } ]  -- BIL_MD_SLD_C_T

def RegTable.bilLink1 : List RegDecl := [
  { first := 0x60, kind := .ro },  -- BIL_LAP_FLAGS
  { first := 0x64, kind := .ro },  -- BIL_LAP_SEQ
  { first := 0x68, kind := .ro, kept := true },  -- BIL_SES_COST_LO
  { first := 0x6C, kind := .ro, kept := true } ]  -- BIL_SES_COST_HI

def RegTable.bilLink : List RegDecl := RegTable.bilLink0 ++ RegTable.bilLink1

def RegTable.bilT : List RegDecl := [
  { first := 0x0, kind := .ro, fields := [⟨16, 11, 60, 1, 1440⟩, ⟨0, 1, 0, 0, 1⟩] },  -- BIL_T_CFG
  { first := 0x4, kind := .ro },  -- BIL_T_STATUS
  { first := 0x8, kind := .w1c, mask := 0x7F },  -- BIL_T_EVENTS
  { first := 0x10, kind := .ro, kept := true },  -- BIL_T_CREDIT_LO
  { first := 0x14, kind := .ro, kept := true },  -- BIL_T_CREDIT_HI
  { first := 0x18, kind := .ro, kept := true },  -- BIL_T_RESV_LO
  { first := 0x1C, kind := .ro, kept := true },  -- BIL_T_RESV_HI
  { first := 0x20, kind := .ro, kept := true },  -- BIL_T_CONSUMED_LO
  { first := 0x24, kind := .ro, kept := true },  -- BIL_T_CONSUMED_HI
  { first := 0x28, kind := .ro, kept := true },  -- BIL_T_GRANTS_LO
  { first := 0x2C, kind := .ro, kept := true },  -- BIL_T_GRANTS_HI
  { first := 0x30, kind := .ro, kept := true },  -- BIL_T_GRANT_SERIAL
  { first := 0x34, kind := .ro },  -- BIL_T_SESSIONS
  { first := 0x38, kind := .ro },  -- BIL_T_INTERIM_LO
  { first := 0x3C, kind := .ro },  -- BIL_T_INTERIM_HI
  { first := 0x40, kind := .expert, mask := 0xFFFFFFFF, fields := [⟨0, 32, 0, 0, 4294967295⟩] },  -- BIL_T_X_LOW_CREDIT
  { first := 0x44, kind := .expert, mask := 0xFFFFFFFF, fields := [⟨0, 32, 0, 0, 4294967295⟩] },  -- BIL_T_X_STOP_RESERVE
  { first := 0x48, kind := .expert, mask := 0xFFF000F, fields := [⟨16, 12, 0, (-2048), 2047⟩, ⟨0, 4, 0, 0, 15⟩] },  -- BIL_T_X_CFG
  { first := 0x100, stride := 0x8, count := 16, kind := .expert, mask := 0xFFFFFFFF, fields := [⟨0, 32, 0, 0, 4294967295⟩] },  -- BIL_T_X_PRICE_IMP
  { first := 0x104, stride := 0x8, count := 16, kind := .expert, mask := 0xFFFFFFFF, fields := [⟨0, 32, 0, 0, 4294967295⟩] },  -- BIL_T_X_PRICE_EXP
  { first := 0x180, stride := 0x4, count := 24, kind := .expert, mask := 0xFF07FF0F, fields := [⟨31, 1, 0, 0, 1⟩, ⟨24, 7, 0, 0, 127⟩, ⟨8, 11, 0, 0, 2047⟩, ⟨0, 4, 0, 0, 15⟩] },  -- BIL_T_X_SWITCH
  { first := 0x200, run := 2, stride := 0x8, count := 16, kind := .ro, kept := true },  -- BIL_T_SLOT_IMP
  { first := 0x280, run := 2, stride := 0x8, count := 16, kind := .ro, kept := true } ]  -- BIL_T_SLOT_EXP

def RegTable.alc : List RegDecl := [
  { first := 0x0, kind := .ro },  -- ALC_STATUS
  { first := 0x4, kind := .w1c, mask := 0xFF },  -- ALC_EVENTS
  { first := 0x8, kind := .ro },  -- ALC_BUDGET
  { first := 0xC, kind := .ro },  -- ALC_TOKENS
  { first := 0x10, kind := .ro, reset := 0xFFFF },  -- ALC_UTIL_LIMIT
  { first := 0x14, kind := .ro },  -- ALC_UTIL_EXPIRY
  { first := 0x18, kind := .rw, mask := 0xFFFF, reset := 0xFFFF },  -- ALC_HOST_LIMIT
  { first := 0x1C, kind := .ro },  -- ALC_PLAN_NUM
  { first := 0x20, kind := .ro },  -- ALC_EXCH_CNT
  { first := 0x24, kind := .ro },  -- ALC_ABORT_CNT
  { first := 0x30, kind := .ro, fields := [⟨16, 16, 0, 0, 65535⟩, ⟨0, 16, 0, 0, 65535⟩] },  -- ALC_CFG
  { first := 0x34, kind := .ro, fields := [⟨16, 16, 300, 0, 65535⟩, ⟨0, 16, 200, 10, 500⟩] },  -- ALC_CFG2
  { first := 0x40, kind := .expert, mask := 0xFFFFFFFF, fields := [⟨16, 16, 0, 0, 65535⟩, ⟨0, 16, 0, 0, 65535⟩] },  -- ALC_X_BUDGET
  { first := 0x44, kind := .expert, mask := 0xFFFFFFF, fields := [⟨24, 4, 4, 1, 4⟩, ⟨16, 8, 30, 0, 255⟩, ⟨8, 8, 10, 1, 255⟩, ⟨0, 8, 20, 0, 255⟩] },  -- ALC_X_MOVE
  { first := 0x48, kind := .expert, mask := 0xFFFFFF, fields := [⟨16, 8, 60, 0, 255⟩, ⟨8, 8, 10, 1, 50⟩, ⟨0, 8, 2, 1, 20⟩] },  -- ALC_X_LEVEL
  { first := 0x4C, kind := .expert, mask := 0xFFFFFFFF, fields := [⟨16, 16, 500, 50, 5000⟩, ⟨0, 16, 0x3E8, 100, 10000⟩] },  -- ALC_X_TIME1
  { first := 0x50, kind := .expert, mask := 0xFFFFFFFF, fields := [⟨16, 16, 100, 20, 500⟩, ⟨0, 16, 300, 50, 2000⟩] },  -- ALC_X_TIME2
  { first := 0x54, kind := .expert, mask := 0xFFFFFFFF, fields := [⟨16, 16, 40, 10, 500⟩, ⟨0, 16, 60, 10, 500⟩] },  -- ALC_X_FB
  { first := 0x100, stride := 0x10, count := 16, kind := .ro },  -- ALC_EX_STATE
  { first := 0x104, stride := 0x10, count := 16, kind := .ro },  -- ALC_EX_START
  { first := 0x108, stride := 0x10, count := 16, kind := .ro } ]  -- ALC_EX_INFO

def RegTable.alcLink : List RegDecl := [
  { first := 0x0, kind := .ro, fields := [⟨20, 12, 0, 0, 4095⟩, ⟨16, 3, 4, 0, 7⟩, ⟨0, 16, 0, 0, 65535⟩] },  -- ALC_L_CFG
  { first := 0x4, kind := .ro },  -- ALC_L_STATE
  { first := 0x8, kind := .ro },  -- ALC_L_TARGET
  { first := 0xC, kind := .ro },  -- ALC_L_GRANT
  { first := 0x10, kind := .ro },  -- ALC_L_LIMIT
  { first := 0x14, kind := .ro } ]  -- ALC_L_SEG

def RegTable.veh0 : List RegDecl := [
  { first := 0x0, kind := .ro, fields := [⟨16, 12, 0, 0, 4095⟩, ⟨10, 1, 0, 0, 1⟩, ⟨8, 2, 1, 0, 2⟩, ⟨4, 1, 0, 0, 1⟩, ⟨3, 1, 1, 0, 1⟩, ⟨2, 1, 1, 0, 1⟩, ⟨1, 1, 1, 0, 1⟩, ⟨0, 1, 1, 0, 1⟩] },  -- VEH_CFG
  { first := 0x4, kind := .ro },  -- VEH_STATUS
  { first := 0x8, kind := .w1c, mask := 0x7FFF },  -- VEH_EVENTS
  { first := 0xC, kind := .ro },  -- VEH_PILOT
  { first := 0x10, kind := .ro },  -- VEH_PROX
  { first := 0x14, kind := .ro },  -- VEH_EV_MAC_LO
  { first := 0x18, kind := .ro },  -- VEH_EV_MAC_HI
  { first := 0x1C, kind := .ro },  -- VEH_EVSE_MAC_LO
  { first := 0x20, kind := .ro },  -- VEH_EVSE_MAC_HI
  { first := 0x24, kind := .ro },  -- VEH_SLAC
  { first := 0x28, kind := .ro },  -- VEH_EV_POWER
  { first := 0x2C, kind := .ro },  -- VEH_EV_VOLT
  { first := 0x30, kind := .ro },  -- VEH_EV_CURR
  { first := 0x34, kind := .ro, reset := 0xFF },  -- VEH_EV_SOC
  { first := 0x38, kind := .ro },  -- VEH_PUB
  { first := 0x3C, kind := .ro },  -- VEH_REQ
  { first := 0x40, kind := .ro },  -- VEH_SETPT
  { first := 0x44, kind := .rw, mask := 0xFFFF },  -- VEH_DISCH_KW
  { first := 0x48, kind := .gw, mask := 0x1 },  -- VEH_CMD
  { first := 0x4C, kind := .wo },  -- complement half
  { first := 0x50, kind := .ro },  -- VEH_LAST_END
  { first := 0x54, kind := .ro },  -- VEH_COUNTS
  { first := 0x100, kind := .expert, mask := 0xFFFFFF, fields := [⟨16, 8, 2, 1, 20⟩, ⟨0, 16, 0x3E8, 100, 10000⟩] },  -- VEH_X_STOP
  { first := 0x104, kind := .expert, mask := 0xFFFFFFFF, fields := [⟨16, 16, 120, 10, 600⟩, ⟨0, 16, 60, 10, 300⟩] } ]  -- VEH_X_AUTH

def RegTable.veh1 : List RegDecl := [
  { first := 0x108, kind := .expert, mask := 0xFFFF, fields := [⟨8, 8, 3, 0, 30⟩, ⟨0, 8, 40, 20, 50⟩] },  -- VEH_X_SLAC
  { first := 0x10C, kind := .expert, mask := 0xFF, fields := [⟨0, 8, 10, 0, 255⟩] } ]  -- VEH_X_REQ

def RegTable.veh : List RegDecl := RegTable.veh0 ++ RegTable.veh1

def RegTable.prt0 : List RegDecl := [
  { first := 0x0, kind := .ro },  -- PRT_STATUS
  { first := 0x4, kind := .w1c, mask := 0xF, guard := 0xF },  -- PRT_EVENTS
  { first := 0x8, kind := .ro },  -- PRT_TRIP_CNT
  { first := 0xC, kind := .ro },  -- PRT_LAST_TRIP
  { first := 0x10, kind := .ro },  -- PRT_LAST_TICK_LO
  { first := 0x14, kind := .ro },  -- PRT_LAST_TICK_HI
  { first := 0x18, run := 5, kind := .ro },  -- PRT_LATCHED
  { first := 0x30, run := 4, kind := .ro, fields := [⟨0, 32, 0, 0, 4294967295⟩] },  -- PRT_TRIP_MAP
  { first := 0x40, stride := 0x4, count := 8, kind := .ro, fields := [⟨31, 1, 0, 0, 1⟩, ⟨16, 8, 20, 1, 100⟩, ⟨0, 8, 0, 0, 255⟩] },  -- PRT_AV_CFG
  { first := 0x60, kind := .ro },  -- PRT_AV_STATUS
  { first := 0x64, kind := .w1c, mask := 0xFFFF, guard := 0xFFFF },  -- PRT_AV_EVENTS
  { first := 0x68, kind := .ro },  -- PRT_RST_STATUS
  { first := 0x6C, kind := .w1c, mask := 0x7 },  -- PRT_RST_EVENTS
  { first := 0x70, kind := .ro, fields := [⟨0, 3, 4, 0, 7⟩, ⟨8, 3, 4, 0, 7⟩, ⟨16, 3, 4, 0, 7⟩, ⟨24, 3, 4, 0, 7⟩] },  -- PRT_TRIPOUT_CFG
  { first := 0x74, kind := .ro },  -- PRT_TRIPOUT_STATUS
  { first := 0x78, kind := .w1c, mask := 0xF, guard := 0xF },  -- PRT_TRIPOUT_EVENTS
  { first := 0x80, kind := .ro, fields := [⟨31, 1, 0, 0, 1⟩, ⟨30, 1, 0, 0, 1⟩, ⟨16, 8, 20, 1, 200⟩, ⟨0, 16, 60, 10, 1000⟩] },  -- PRT_SN_CFG
  { first := 0x84, kind := .ro, fields := [⟨0, 32, 0, 0, 4294967295⟩] },  -- PRT_SN_TX_CONN
  { first := 0x88, kind := .ro, fields := [⟨0, 32, 0, 0, 4294967295⟩] },  -- PRT_SN_DA_LO
  { first := 0x8C, kind := .ro, fields := [⟨0, 16, 0, 0, 65535⟩] },  -- PRT_SN_DA_HI
  { first := 0x90, kind := .ro },  -- PRT_SN_STATUS
  { first := 0x94, kind := .w1c, mask := 0xFFFFFF, guard := 0xFFFFFF },  -- PRT_SN_EVENTS
  { first := 0x98, kind := .ro },  -- PRT_SN_UNKNOWN
  { first := 0xA0, stride := 0x8, count := 8, kind := .ro, fields := [⟨0, 32, 0, 0, 4294967295⟩] } ]  -- PRT_SN_RX_ID

def RegTable.prt1 : List RegDecl := [
  { first := 0xA4, stride := 0x8, count := 8, kind := .ro, fields := [⟨31, 1, 0, 0, 1⟩, ⟨30, 1, 0, 0, 1⟩, ⟨0, 16, 0, 10, 1000⟩] },  -- PRT_SN_RX_CFG
  { first := 0xE0, stride := 0x4, count := 8, kind := .ro, fields := [⟨8, 2, 0, 0, 3⟩, ⟨0, 8, 0, 0, 255⟩] },  -- PRT_SN_SIG
  { first := 0x100, kind := .expert, mask := 0xFFFFFF, fields := [⟨16, 8, 40, 10, 200⟩, ⟨0, 16, 300, 0, 65535⟩] },  -- PRT_X_SITE
  { first := 0x104, kind := .expert, mask := 0xFFFFFF, fields := [⟨16, 8, 20, 1, 200⟩, ⟨0, 16, 60, 10, 1000⟩] } ]  -- PRT_X_SN

def RegTable.prt : List RegDecl := RegTable.prt0 ++ RegTable.prt1

def RegTable.prtLink : List RegDecl := [
  { first := 0x0, kind := .ro, fields := [⟨20, 12, 0, 0, 4095⟩, ⟨8, 12, 850, 0, 4095⟩, ⟨0, 1, 1, 0, 1⟩] },  -- PRT_L_CFG
  { first := 0x4, kind := .ro },  -- PRT_L_STATUS
  { first := 0x8, kind := .w1c, mask := 0x3FFF, guard := 0x3B9 },  -- PRT_L_EVENTS
  { first := 0xC, kind := .ro },  -- PRT_L_ISO
  { first := 0x10, kind := .ro },  -- PRT_L_SYM
  { first := 0x14, kind := .ro },  -- PRT_L_RDC
  { first := 0x18, kind := .ro },  -- PRT_L_LIMIT
  { first := 0x20, kind := .expert, mask := 0xFFFFFFFF, fields := [⟨16, 16, 500, 0, 65535⟩, ⟨0, 16, 100, 0, 65535⟩] },  -- PRT_L_X_IMD
  { first := 0x24, kind := .expert, mask := 0xFFFFFFFF, fields := [⟨16, 16, 0x7D0, 0, 65535⟩, ⟨0, 16, 250, 100, 500⟩] },  -- PRT_L_X_INJ
  { first := 0x28, kind := .expert, mask := 0xFFFFFF, fields := [⟨16, 8, 60, 0, 255⟩, ⟨8, 8, 6, 0, 255⟩, ⟨0, 8, 30, 0, 255⟩] },  -- PRT_L_X_RDC
  { first := 0x2C, kind := .expert, mask := 0xFFFFFFFF, fields := [⟨24, 8, 5, 0, 255⟩, ⟨16, 8, 10, 2, 100⟩, ⟨8, 8, 20, 0, 255⟩, ⟨0, 8, 50, 0, 255⟩] },  -- PRT_L_X_LIM
  { first := 0x30, kind := .expert, mask := 0xFFFF, fields := [⟨8, 8, 10, 1, 100⟩, ⟨0, 8, 25, 5, 50⟩] } ]  -- PRT_L_X_SYM

def RegTable.tag : List RegDecl := [
  { first := 0x0, kind := .ro, fields := [⟨24, 8, 177, 0, 255⟩, ⟨12, 12, 0x3E8, 200, 4000⟩, ⟨0, 12, 300, 100, 4000⟩] },  -- TAG_CFG
  { first := 0x4, kind := .ro },  -- TAG_STATUS
  { first := 0x8, kind := .w1c, mask := 0x1F },  -- TAG_EVENTS
  { first := 0xC, kind := .ro },  -- TAG_AUTH_CNT
  { first := 0x10, kind := .ro },  -- TAG_REFUSE_CNT
  { first := 0x40, kind := .expert, mask := 0xFFFFFFFF, fields := [⟨24, 8, 177, 0, 255⟩, ⟨12, 12, 0x3E8, 200, 4000⟩, ⟨0, 12, 300, 100, 4000⟩] },  -- TAG_X_POLL
  { first := 0x80, run := 32, kind := .ro, fields := [⟨0, 32, 0, 0, 4294967295⟩] },  -- TAG_HOST_TEN
  { first := 0x100, kind := .gw, mask := 0x3FF },  -- TAG_HOST_LOCK
  { first := 0x104, kind := .wo },  -- complement half
  { first := 0x200, stride := 0x4, count := 24, kind := .ro },  -- TAG_ENG
  { first := 0x800, kind := .ro, kept := true },  -- TAG_SVC_STATUS
  { first := 0x804, kind := .w1c, kept := true, mask := 0x3F },  -- TAG_SVC_EVENTS
  { first := 0x808, kind := .wo },  -- TAG_SVC_MBX_CMD
  { first := 0x80C, kind := .ro, kept := true },  -- TAG_SVC_CNT
  { first := 0x900, run := 64, kind := .rw, kept := true, mask := 0xFFFFFFFF } ]  -- TAG_SVC_MBX_DATA

def RegTable.tagLink : List RegDecl := [
  { first := 0x0, kind := .ro, fields := [⟨0, 3, 0, 0, 7⟩] },  -- TAG_L_CFG
  { first := 0x4, kind := .ro },  -- TAG_L_STATUS
  { first := 0x8, kind := .ro },  -- TAG_L_RESULT
  { first := 0xC, kind := .w1c, mask := 0xF } ]  -- TAG_L_EVENTS

def RegTable.tagT : List RegDecl := [
  { first := 0x300, kind := .ro, fields := [⟨31, 1, 0, 0, 1⟩, ⟨30, 1, 0, 0, 1⟩, ⟨24, 4, 15, 0, 15⟩] },  -- TAG_T_CFG
  { first := 0x304, kind := .ro, kept := true },  -- TAG_T_STATUS
  { first := 0x308, kind := .ro, kept := true },  -- TAG_T_ROOT_ID
  { first := 0x30C, kind := .ro, kept := true },  -- TAG_T_REMOTE_SERIAL
  { first := 0x310, kind := .ro },  -- TAG_T_AUTH_CNT
  { first := 0x314, kind := .ro },  -- TAG_T_REFUSE_CNT
  { first := 0x320, run := 5, kind := .ro, fields := [⟨0, 32, 0, 0, 4294967295⟩] },  -- TAG_T_OUTLETS
  { first := 0x400, run := 4, stride := 0x10, count := 64, kind := .ro, kept := true } ]  -- TAG_T_BLOCK

def RegTable.sec0 : List RegDecl := [
  { first := 0x0, kind := .ro },  -- SEC_STATUS
  { first := 0x4, kind := .w1c, mask := 0x7FF },  -- SEC_EVENTS
  { first := 0x8, kind := .gw, mask := 0x1FFF000F },  -- SEC_CMD
  { first := 0xC, kind := .wo },  -- complement half
  { first := 0x10, kind := .ro },  -- SEC_CMD_STATE
  { first := 0x14, kind := .ro },  -- SEC_VIOL_CNT
  { first := 0x18, kind := .ro },  -- SEC_VIOL_ADDR
  { first := 0x1C, kind := .ro },  -- SEC_VIOL_CAUSE
  { first := 0x20, kind := .ro, kept := true },  -- SEC_ROOT_EPOCH
  { first := 0x24, kind := .ro },  -- SEC_Q_A
  { first := 0x28, kind := .ro },  -- SEC_Q_B
  { first := 0x2C, kind := .ro },  -- SEC_ENG_BUSY
  { first := 0x30, kind := .rw, mask := 0xFFFFFFFF },  -- SEC_WAIT_MAX
  { first := 0x34, kind := .ro },  -- SEC_RNG_FAIL_CNT
  { first := 0x38, kind := .ro, fields := [⟨0, 1, 0, 0, 1⟩] },  -- SEC_CFG
  { first := 0x40, run := 8, kind := .rw, mask := 0xFFFFFFFF },  -- SEC_ATT_CHAL
  { first := 0x60, kind := .wo },  -- SEC_ATT_CMD
  { first := 0x64, kind := .ro },  -- SEC_ATT_STATE
  { first := 0x80, run := 12, kind := .ro },  -- SEC_ATT_RESP
  { first := 0xC0, run := 12, kind := .ro },  -- SEC_ATT_DIGEST
  { first := 0x100, run := 24, kind := .ro },  -- SEC_LEGAL_PUB
  { first := 0x160, run := 24, kind := .ro },  -- SEC_INSTALL_PUB
  { first := 0x1C0, run := 24, kind := .ro, fields := [⟨0, 32, 0, 0, 4294967295⟩] },  -- SEC_HE_PUB
  { first := 0x300, stride := 0x10, count := 4, kind := .wo } ]  -- SEC_SUB_CMD

def RegTable.sec1 : List RegDecl := [
  { first := 0x304, stride := 0x10, count := 4, kind := .ro },  -- SEC_SUB_STATE
  { first := 0x3000, run := 1024, stride := 0x1000, count := 4, kind := .rw, mask := 0xFFFFFFFF },  -- SEC_SUB_BUF
  { first := 0x1800, run := 256, kind := .ro },  -- SEC_ENROL
  { first := 0x1C00, run := 256, kind := .ro },  -- SEC_DEVCERT
  { first := 0x2000, run := 1024, kind := .rw, mask := 0xFFFFFFFF },  -- SEC_CHAIN_BUF
  { first := 0x8000, run := 8192, kind := .vault } ]  -- SEC_VAULT

def RegTable.sec : List RegDecl := RegTable.sec0 ++ RegTable.sec1

def RegTable.grd : List RegDecl := [
  { first := 0x0, kind := .ro, fields := [⟨31, 1, 0, 0, 1⟩, ⟨30, 1, 1, 0, 1⟩, ⟨24, 3, 3, 0, 7⟩, ⟨16, 8, 0, 0, 255⟩, ⟨8, 8, 0, 0, 255⟩] },  -- GRD_CFG
  { first := 0x4, kind := .ro },  -- GRD_STATUS
  { first := 0x8, kind := .w1c, mask := 0x1FF },  -- GRD_EVENTS
  { first := 0xC, kind := .gw, mask := 0x3 },  -- GRD_CMD
  { first := 0x10, kind := .wo },  -- complement half
  { first := 0x14, kind := .ro },  -- GRD_COORD_LO
  { first := 0x18, kind := .ro },  -- GRD_COORD_HI
  { first := 0x1C, kind := .ro },  -- GRD_NOISE
  { first := 0x20, kind := .ro },  -- GRD_RX_OK
  { first := 0x24, kind := .ro },  -- GRD_RX_BAD
  { first := 0x28, kind := .ro },  -- GRD_BLANKED
  { first := 0x2C, kind := .ro },  -- GRD_MSG_CNT
  { first := 0x30, kind := .ro },  -- GRD_DROP
  { first := 0x40, kind := .expert, mask := 0xFFFFFF00, fields := [⟨24, 8, 24, 8, 64⟩, ⟨16, 8, 8, 2, 32⟩, ⟨8, 8, 16, 4, 64⟩] },  -- GRD_X_LINK
  { first := 0x44, kind := .expert, mask := 0xFFFF, fields := [⟨0, 16, 720, 120, 65535⟩] },  -- GRD_X_DISC
  { first := 0x100, stride := 0x10, count := 32, kind := .ro },  -- GRD_NB_LO
  { first := 0x104, stride := 0x10, count := 32, kind := .ro },  -- GRD_NB_HI
  { first := 0x108, stride := 0x10, count := 32, kind := .ro },  -- GRD_NB_MAP
  { first := 0x10C, stride := 0x10, count := 32, kind := .ro } ]  -- GRD_NB_SEEN

def RegTable.cfg : List RegDecl := [
  { first := 0x0, kind := .ro },  -- CFG_STATUS
  { first := 0x4, kind := .w1c, mask := 0x1F },  -- CFG_EVENTS
  { first := 0x8, kind := .ro },  -- CFG_IMAGE_SERIAL
  { first := 0xC, kind := .ro },  -- CFG_FW_VER
  { first := 0x10, kind := .ro, fields := [⟨0, 7, 64, 0, 127⟩] },  -- CFG_PMB_ADDR
  { first := 0x14, kind := .ro },  -- CFG_DEFAULTED
  { first := 0x20, kind := .gw, mask := 0x3003FFFF },  -- CFG_FN_CTRL
  { first := 0x24, kind := .wo },  -- complement half
  { first := 0x28, kind := .ro },  -- CFG_FN_STAT
  { first := 0x40, stride := 0x4, count := 16, kind := .ro },  -- CFG_HOLD
  { first := 0x100, run := 12, kind := .ro },  -- CFG_HASH
  { first := 0x200, kind := .rw, mask := 0xFFFFFFFF },  -- CFG_LOAD_OFFSET
  { first := 0x204, kind := .gw, mask := 0xF07FFFFF },  -- CFG_LOAD_CMD
  { first := 0x208, kind := .wo },  -- complement half
  { first := 0x20C, kind := .ro },  -- CFG_LOAD_STATE
  { first := 0x1000, run := 1024, kind := .rw, mask := 0xFFFFFFFF } ]  -- CFG_LOAD_BUF

def RegTable.upd : List RegDecl := [
  { first := 0x0, kind := .ro, kept := true },  -- UPD_STATUS
  { first := 0x4, kind := .w1c, mask := 0xFF },  -- UPD_EVENTS
  { first := 0x8, kind := .gw, mask := 0xF },  -- UPD_CMD
  { first := 0xC, kind := .wo },  -- complement half
  { first := 0x10, kind := .gw, mask := 0x1 },  -- UPD_HEALTH_CONFIRM
  { first := 0x14, kind := .wo },  -- complement half
  { first := 0x18, kind := .ro, kept := true },  -- UPD_MAN_SERIAL
  { first := 0x1C, kind := .ro, kept := true },  -- UPD_MAN_LAST
  { first := 0x20, kind := .ro, kept := true },  -- UPD_PIECES
  { first := 0x24, kind := .ro, kept := true },  -- UPD_HAVE
  { first := 0x28, kind := .ro },  -- UPD_PIECE_CNT
  { first := 0x2C, kind := .ro, kept := true },  -- UPD_CONFIRM_LEFT
  { first := 0x30, kind := .ro, kept := true },  -- UPD_LAST_END
  { first := 0x34, kind := .ro, kept := true },  -- UPD_SWAP_MS
  { first := 0x40, stride := 0x4, count := 32, kind := .ro, kept := true },  -- UPD_PART
  { first := 0x100, stride := 0x10, count := 2, kind := .wo },  -- UPD_PIECE_CMD
  { first := 0x104, stride := 0x10, count := 2, kind := .rw, mask := 0xFFFFFFFF },  -- UPD_PIECE_INDEX
  { first := 0x108, stride := 0x10, count := 2, kind := .ro },  -- UPD_PIECE_STATE
  { first := 0x1000, run := 2048, stride := 0x2000, count := 2, kind := .rw, mask := 0xFFFFFFFF } ]  -- UPD_PIECE_BUF

def RegTable.mem0 : List RegDecl := [
  { first := 0x0, kind := .ro },  -- MEM_STATUS
  { first := 0x4, kind := .w1c, mask := 0xF },  -- MEM_EVENTS
  { first := 0x8, kind := .ro },  -- MEM_CORR_CNT
  { first := 0xC, kind := .ro },  -- MEM_POISON_CNT
  { first := 0x10, kind := .ro },  -- MEM_POISON_ADDR
  { first := 0x14, kind := .ro, fields := [⟨0, 17, 60, 1, 86400⟩] },  -- MEM_SCRUB_CFG
  { first := 0x18, kind := .ro, fields := [⟨0, 17, 600, 10, 86400⟩] },  -- MEM_SCRUB_CFG2
  { first := 0x1C, kind := .expert, mask := 0x1FFFF, fields := [⟨0, 17, 60, 1, 86400⟩] },  -- MEM_X_SCRUB_L
  { first := 0x20, kind := .expert, mask := 0x1FFFF, fields := [⟨0, 17, 600, 10, 86400⟩] },  -- MEM_X_SCRUB_W
  { first := 0x24, kind := .ro },  -- MEM_SCRUB_PASS
  { first := 0x30, kind := .gw, mask := 0x1 },  -- MEM_LW_CLEAR
  { first := 0x34, kind := .wo },  -- complement half
  { first := 0x38, kind := .ro, kept := true },  -- MEM_LW_NEXT
  { first := 0x40, run := 4, stride := 0x10, count := 16, kind := .ro, kept := true },  -- MEM_LW_w
  { first := 0x200, kind := .ro, fields := [⟨31, 1, 0, 0, 1⟩, ⟨0, 2, 3, 1, 3⟩] },  -- MEM_ARC_CFG
  { first := 0x204, kind := .ro },  -- MEM_ARC_STATUS
  { first := 0x208, kind := .w1c, mask := 0xFF1F },  -- MEM_ARC_EVENTS
  { first := 0x20C, kind := .ro },  -- MEM_ARC_GAP_CNT
  { first := 0x220, stride := 0x10, count := 8, kind := .ro, fields := [⟨24, 2, 0, 0, 3⟩, ⟨8, 8, 0, 0, 255⟩, ⟨0, 8, 0, 0, 255⟩] },  -- MEM_ARC_NS_CFG
  { first := 0x224, stride := 0x10, count := 8, kind := .expert, mask := 0x300FFFF, fields := [⟨24, 2, 0, 0, 3⟩, ⟨8, 8, 0, 0, 255⟩, ⟨0, 8, 0, 0, 255⟩] },  -- MEM_X_ARC_NS
  { first := 0x228, stride := 0x10, count := 8, kind := .ro, kept := true },  -- MEM_ARC_NS_EPOCH
  { first := 0x22C, stride := 0x10, count := 8, kind := .ro, kept := true },  -- MEM_ARC_NS_NEXT
  { first := 0x300, kind := .rw, mask := 0x7 },  -- MEM_ARC_RD_NS
  { first := 0x304, kind := .rw, mask := 0xFFFFFFFF } ]  -- MEM_ARC_RD_EPOCH

def RegTable.mem1 : List RegDecl := [
  { first := 0x308, kind := .rw, mask := 0xFFFFFFFF },  -- MEM_ARC_RD_BLOCK_LO
  { first := 0x30C, kind := .rw, mask := 0xFFFFFFFF },  -- MEM_ARC_RD_BLOCK_HI
  { first := 0x310, kind := .wo },  -- MEM_ARC_RD_CMD
  { first := 0x314, kind := .ro },  -- MEM_ARC_RD_STATE
  { first := 0x320, run := 4, kind := .ro },  -- MEM_ARC_RD_TAG
  { first := 0x8000, run := 1024, kind := .ro } ]  -- MEM_ARC_WIN

def RegTable.mem : List RegDecl := RegTable.mem0 ++ RegTable.mem1

def RegTable.evr0 : List RegDecl := [
  { first := 0x0, kind := .ro },  -- EVR_STATUS
  { first := 0x4, kind := .w1c, mask := 0x3F },  -- EVR_EVENTS
  { first := 0x8, kind := .ro, kept := true },  -- EVR_NEXT_LO
  { first := 0xC, kind := .ro, kept := true },  -- EVR_NEXT_HI
  { first := 0x10, kind := .ro },  -- EVR_OLDEST_LO
  { first := 0x14, kind := .ro },  -- EVR_OLDEST_HI
  { first := 0x18, kind := .ro },  -- EVR_NOR_LOST_CNT
  { first := 0x1C, kind := .ro },  -- EVR_DROP_CNT
  { first := 0x20, kind := .rw, mask := 0xFFFFFFFF },  -- EVR_CURSOR
  { first := 0x24, kind := .ro },  -- EVR_WIN_STATE
  { first := 0x28, kind := .rw, mask := 0x7FFF },  -- EVR_NOR_SECT
  { first := 0x2C, kind := .ro },  -- EVR_NOR_HEAD
  { first := 0x30, kind := .ro, fields := [⟨0, 4, 0, 0, 15⟩] },  -- EVR_EVT_CFG
  { first := 0x34, kind := .gw, mask := 0x1 },  -- EVR_CMD
  { first := 0x38, kind := .wo },  -- complement half
  { first := 0x40, kind := .ro, kept := true },  -- EVR_RETIRED0
  { first := 0x44, kind := .ro, kept := true },  -- EVR_RETIRED1
  { first := 0x100, run := 32, kind := .ro },  -- EVR_WIN
  { first := 0x200, run := 20, kind := .ro },  -- EVR_PEND
  { first := 0x300, run := 20, kind := .rw, mask := 0xFFFFFFFF, fields := [⟨0, 32, 0xFFFFFFFF, 0, 4294967295⟩] },  -- EVR_EN
  { first := 0x400, run := 40, kind := .rw, mask := 0xFFFFFFFF, fields := [⟨0, 32, 0, 0, 4294967295⟩] },  -- EVR_ROUTE
  { first := 0x500, kind := .ro, fields := [⟨0, 32, 0x80000004, 0, 4294967295⟩] },  -- EVR_SNAP0_0
  { first := 0x504, kind := .ro, fields := [⟨0, 32, 0x80000008, 0, 4294967295⟩] },  -- EVR_SNAP0_1
  { first := 0x508, kind := .ro, fields := [⟨0, 32, 0x80000024, 0, 4294967295⟩] } ]  -- EVR_SNAP0_2

def RegTable.evr1 : List RegDecl := [
  { first := 0x50C, kind := .ro, fields := [⟨0, 32, 0x80000028, 0, 4294967295⟩] },  -- EVR_SNAP0_3
  { first := 0x510, kind := .ro, fields := [⟨0, 32, 0x80001004, 0, 4294967295⟩] },  -- EVR_SNAP0_4
  { first := 0x514, kind := .ro, fields := [⟨0, 32, 0x80001040, 0, 4294967295⟩] },  -- EVR_SNAP0_5
  { first := 0x518, kind := .ro, fields := [⟨0, 32, 0x80001044, 0, 4294967295⟩] },  -- EVR_SNAP0_6
  { first := 0x51C, kind := .ro, fields := [⟨0, 32, 0x80002004, 0, 4294967295⟩] },  -- EVR_SNAP0_7
  { first := 0x520, kind := .ro, fields := [⟨0, 32, 0x80001004, 0, 4294967295⟩] },  -- EVR_SNAP1_0
  { first := 0x524, kind := .ro, fields := [⟨0, 32, 0x80001008, 0, 4294967295⟩] },  -- EVR_SNAP1_1
  { first := 0x528, kind := .ro, fields := [⟨0, 32, 0x80001040, 0, 4294967295⟩] },  -- EVR_SNAP1_2
  { first := 0x52C, kind := .ro, fields := [⟨0, 32, 0x80001044, 0, 4294967295⟩] },  -- EVR_SNAP1_3
  { first := 0x530, kind := .ro, fields := [⟨0, 32, 0x80001060, 0, 4294967295⟩] },  -- EVR_SNAP1_4
  { first := 0x534, kind := .ro, fields := [⟨0, 32, 0x80001064, 0, 4294967295⟩] },  -- EVR_SNAP1_5
  { first := 0x538, kind := .ro, fields := [⟨0, 32, 0x800010C0, 0, 4294967295⟩] },  -- EVR_SNAP1_6
  { first := 0x53C, kind := .ro, fields := [⟨0, 32, 0x800010EC, 0, 4294967295⟩] },  -- EVR_SNAP1_7
  { first := 0x540, kind := .ro, fields := [⟨0, 32, 0x80002004, 0, 4294967295⟩] },  -- EVR_SNAP2_0
  { first := 0x544, kind := .ro, fields := [⟨0, 32, 0x80002008, 0, 4294967295⟩] },  -- EVR_SNAP2_1
  { first := 0x548, kind := .ro, fields := [⟨0, 32, 0x80002050, 0, 4294967295⟩] },  -- EVR_SNAP2_2
  { first := 0x54C, kind := .ro, fields := [⟨0, 32, 0x80002038, 0, 4294967295⟩] },  -- EVR_SNAP2_3
  { first := 0x550, kind := .ro, fields := [⟨0, 32, 0x8000203C, 0, 4294967295⟩] },  -- EVR_SNAP2_4
  { first := 0x554, kind := .ro, fields := [⟨0, 32, 0x80002040, 0, 4294967295⟩] },  -- EVR_SNAP2_5
  { first := 0x558, kind := .ro, fields := [⟨0, 32, 0x80002030, 0, 4294967295⟩] },  -- EVR_SNAP2_6
  { first := 0x55C, kind := .ro, fields := [⟨0, 32, 0x8000200C, 0, 4294967295⟩] },  -- EVR_SNAP2_7
  { first := 0x560, kind := .ro, fields := [⟨0, 32, 0x80000004, 0, 4294967295⟩] },  -- EVR_SNAP3_0
  { first := 0x564, kind := .ro, fields := [⟨0, 32, 0x80002004, 0, 4294967295⟩] },  -- EVR_SNAP3_1
  { first := 0x568, kind := .ro, fields := [⟨0, 32, 0x80001004, 0, 4294967295⟩] } ]  -- EVR_SNAP3_2

def RegTable.evr2 : List RegDecl := [
  { first := 0x56C, kind := .ro, fields := [⟨0, 32, 0x80003000, 0, 4294967295⟩] },  -- EVR_SNAP3_3
  { first := 0x570, kind := .ro, fields := [⟨0, 32, 0x80003004, 0, 4294967295⟩] },  -- EVR_SNAP3_4
  { first := 0x574, kind := .ro, fields := [⟨0, 32, 0x80003008, 0, 4294967295⟩] },  -- EVR_SNAP3_5
  { first := 0x578, kind := .ro, fields := [⟨0, 32, 0x8000300C, 0, 4294967295⟩] },  -- EVR_SNAP3_6
  { first := 0x57C, kind := .ro, fields := [⟨0, 32, 0x80003010, 0, 4294967295⟩] },  -- EVR_SNAP3_7
  { first := 0x580, kind := .ro, fields := [⟨0, 32, 0x80000, 0, 4294967295⟩] },  -- EVR_SNAP4_0
  { first := 0x584, kind := .ro, fields := [⟨0, 32, 0x80004, 0, 4294967295⟩] },  -- EVR_SNAP4_1
  { first := 0x588, kind := .ro, fields := [⟨0, 32, 0x8000C, 0, 4294967295⟩] },  -- EVR_SNAP4_2
  { first := 0x58C, kind := .ro, fields := [⟨0, 32, 0x80060, 0, 4294967295⟩] },  -- EVR_SNAP4_3
  { first := 0x590, kind := .ro, fields := [⟨0, 32, 0x80074, 0, 4294967295⟩] },  -- EVR_SNAP4_4
  { first := 0x594, kind := .ro, fields := [⟨0, 32, 0x80090, 0, 4294967295⟩] },  -- EVR_SNAP4_5
  { first := 0x598, kind := .ro, fields := [⟨0, 32, 0x20008, 0, 4294967295⟩] },  -- EVR_SNAP4_6
  { first := 0x59C, kind := .ro, fields := [⟨0, 32, 0x4, 0, 4294967295⟩] },  -- EVR_SNAP4_7
  { first := 0x5A0, kind := .ro, fields := [⟨0, 32, 0x20008, 0, 4294967295⟩] },  -- EVR_SNAP5_0
  { first := 0x5A4, kind := .ro, fields := [⟨0, 32, 0x10008, 0, 4294967295⟩] },  -- EVR_SNAP5_1
  { first := 0x5A8, kind := .ro, fields := [⟨0, 32, 0x2001C, 0, 4294967295⟩] },  -- EVR_SNAP5_2
  { first := 0x5AC, kind := .ro, fields := [⟨0, 32, 0xA0004, 0, 4294967295⟩] },  -- EVR_SNAP5_3
  { first := 0x5B0, kind := .ro, fields := [⟨0, 32, 0x90000, 0, 4294967295⟩] },  -- EVR_SNAP5_4
  { first := 0x5B4, kind := .ro, fields := [⟨0, 32, 0x50000, 0, 4294967295⟩] },  -- EVR_SNAP5_5
  { first := 0x5B8, kind := .ro, fields := [⟨0, 32, 0x30000, 0, 4294967295⟩] },  -- EVR_SNAP5_6
  { first := 0x5BC, kind := .ro, fields := [⟨0, 32, 0x40000, 0, 4294967295⟩] },  -- EVR_SNAP5_7
  { first := 0x1000, run := 1024, kind := .ro } ]  -- EVR_NOR_WIN

def RegTable.evr : List RegDecl := RegTable.evr0 ++ RegTable.evr1 ++ RegTable.evr2

def RegTable.aux : List RegDecl := [
  { first := 0x0, kind := .ro },  -- AUX_STATUS
  { first := 0x4, kind := .w1c, mask := 0x3F3F3F3F },  -- AUX_EVENTS
  { first := 0x8, kind := .ro },  -- AUX_TACH01
  { first := 0xC, kind := .ro },  -- AUX_TACH23
  { first := 0x10, kind := .rw, mask := 0xBFBFBFBF },  -- AUX_CMD
  { first := 0x20, stride := 0x4, count := 4, kind := .ro, fields := [⟨30, 2, 0, 0, 3⟩, ⟨29, 1, 0, 0, 1⟩, ⟨24, 3, 2, 0, 7⟩, ⟨16, 6, 0, 0, 63⟩, ⟨8, 8, 60, 0, 255⟩] },  -- AUX_CFG
  { first := 0x40, stride := 0x4, count := 4, kind := .expert, mask := 0xFFFFFFFF, fields := [⟨20, 12, 0x7D0, 100, 4000⟩, ⟨8, 12, 0, 0, 4095⟩, ⟨0, 8, 2, 0, 255⟩] } ]  -- AUX_X_TACH

/-- ALC_MXn_k (R246): 16 words per link, vendor default 0xFF (R499). -/
def RegTable.alcMx : List RegDecl := [
  { first := 0x0, run := 16, kind := .ro, fields := [⟨0, 8, 0xFF, 0, 255⟩] } ]

/-- ALC_MXn_k (R246). -/
def Reg.alcMx (n k : Nat) : Nat := 0x94000 + 0x40 * n + 4 * k

end Sys2Proof.Machine
end

