-- ==== Sys2Proof/Machine/RegFind.lean ====
section
/-! DEFINITION. Finding a register in the map of R104 and R105: the row of the register tables that covers a byte
address, what the register reads after reset (R13, R499), and where each block's event detail bits stand. -/

namespace Sys2Proof.Machine

/-- Offset `o` belongs to row `r`. -/
def RegDecl.covers (r : RegDecl) (o : Nat) : Bool :=
  r.first ≤ o && (o - r.first) / r.stride < r.count && (o - r.first) % r.stride < 4 * r.run && o % 4 == 0 ||
    r.count == 1 && r.first ≤ o && o - r.first < 4 * r.run && o % 4 == 0

/-- The row of a table that covers an offset. -/
def RegTable.row (t : List RegDecl) (o : Nat) : Option RegDecl := t.find? (·.covers o)

/-- Row of a register outside the link and tenant windows, by block (R104). The per-link and matrix registers of
PRT, ALC, BIL and TAG stand at their own bases inside their block. -/
def RegTable.device (block o : Nat) : Option RegDecl :=
  match block with
  | 0x0 => RegTable.row RegTable.glb o
  | 0x1 => RegTable.row RegTable.pac o
  | 0x2 => RegTable.row RegTable.pwr o
  | 0x3 => RegTable.row RegTable.cfg o
  | 0x4 => RegTable.row RegTable.upd o
  | 0x5 => RegTable.row RegTable.sec o
  | 0x6 => RegTable.row RegTable.mem o
  | 0x7 => RegTable.row RegTable.evr o
  | 0x8 =>
    if 0x1000 ≤ o && o < 0x1000 + 0x40 * 144 then RegTable.row RegTable.prtLink ((o - 0x1000) % 0x40)
    else RegTable.row RegTable.prt o
  | 0x9 =>
    if 0x4000 ≤ o && o < 0x4000 + 0x40 * 144 then RegTable.row RegTable.alcMx ((o - 0x4000) % 0x40)
    else if 0x1000 ≤ o && o < 0x1000 + 0x20 * 144 then RegTable.row RegTable.alcLink ((o - 0x1000) % 0x20)
    else RegTable.row RegTable.alc o
  | 0xA =>
    if 0x6000 ≤ o && o < 0x6000 + 0x100 * 144 then some { first := 0x6000, run := 9216, kind := .ro, kept := true }
    else if 0x1000 ≤ o && o < 0x1000 + 0x80 * 144 then RegTable.row RegTable.bilLink ((o - 0x1000) % 0x80)
    else RegTable.row RegTable.bil o
  | 0xB => RegTable.row RegTable.grd o
  | 0xC =>
    if 0x1000 ≤ o && o < 0x1000 + 0x10 * 144 then RegTable.row RegTable.tagLink ((o - 0x1000) % 0x10)
    else RegTable.row RegTable.tag o
  | 0xD => RegTable.row RegTable.lio o
  | 0xE => RegTable.row RegTable.hpt o
  | _ => none

/-- Row of a register of a link window, by offset in the window (R105). -/
def RegTable.window (o : Nat) : Option RegDecl :=
  match o / 0x1000 with
  | 0 => RegTable.row RegTable.lnk (o % 0x1000)
  | 1 => RegTable.row RegTable.met (o % 0x1000)
  | 2 => RegTable.row RegTable.veh (o % 0x1000)
  | 3 => RegTable.row RegTable.aux (o % 0x1000)
  | _ => none

/-- Row of a register of a tenant window (R104, R217, R342). -/
def RegTable.tenant (o : Nat) : Option RegDecl :=
  if o < 0x300 then RegTable.row RegTable.bilT o else RegTable.row RegTable.tagT o

/-- The row that covers a byte address, if a register table lists the address (R15, R104, R105). -/
def regRow (a : Nat) : Option RegDecl :=
  if a < 0xF0000 then RegTable.device (a / 0x10000) (a % 0x10000)
  else if 0x1000000 ≤ a && a < 0x1900000 then RegTable.window (a % 0x10000)
  else if 0x4000000 ≤ a && a < 0x4400000 then RegTable.tenant (a % 0x1000)
  else none

/-- The vendor defaults of an image register, put together (R499). -/
def RegField.word (fs : List RegField) : Nat := (fs.map fun f => f.dflt * 2 ^ f.lo).sum

/-- Default class of a trip cause code (R281). -/
def tripClassDefault (code : Nat) : Nat :=
  if code ∈ [0x11, 0x12, 0x13, 0x16, 0x17, 0x18, 0x1B] then 1
  else if code ∈ [0x01, 0x02, 0x03, 0x04, 0x05, 0x06, 0x07, 0x08, 0x10, 0x14, 0x15, 0x19, 0x1A] then 2
  else if code ∈ [0x20, 0x21, 0x23, 0x24] then 3
  else 0

/-- PRT_TRIP_MAPk with the defaults of R281. -/
def tripMapDefault (k : Nat) : Nat :=
  ((List.range 16).map fun i => tripClassDefault (16 * k + i) * 4 ^ i).sum

/-- What a register reads when nothing has written it since reset: the number of its Reset column, its vendor
default where the column reads "image" (R13, R499), else 0. -/
def regReset (a : Nat) : Word :=
  if 0x80030 ≤ a ∧ a < 0x80040 then BitVec.ofNat 32 (tripMapDefault ((a - 0x80030) / 4))
  else if a = 0x4000300 then 0x8F000000
  else match regRow a with
    | some r => BitVec.ofNat 32 (if r.fields.isEmpty then r.reset else RegField.word r.fields)
    | none => 0

/-- A register of event detail bits (R436, R501). -/
inductive EvReg where
  | lnk (n : LinkId) | prtL (n : LinkId) | met (n : LinkId) | veh (n : LinkId) | tagL (n : LinkId)
  | aux (n : LinkId)
  | av | rst | sn | tripout | prt | pac | pwr | hpt | mem | evr | arc | lio | tpo | s0 | bil
  | bilT (t : TenantId)
  | alc | tag | svc | sec | grd | cfg | upd
  deriving DecidableEq, Repr

/-- Address of a register of detail bits. -/
def EvReg.addr : EvReg → Nat
  | .lnk n => Reg.lnkEvents n
  | .prtL n => Reg.prtLEvents n
  | .met n => Reg.metEvents n
  | .veh n => Reg.vehEvents n
  | .tagL n => Reg.tagLEvents n
  | .aux n => Reg.auxEvents n
  | .av => Reg.prtAvEvents
  | .rst => Reg.prtRstEvents
  | .sn => Reg.prtSnEvents
  | .tripout => Reg.prtTripoutEvents
  | .prt => Reg.prtEvents
  | .pac => Reg.pacEvents
  | .pwr => Reg.pwrEvents
  | .hpt => Reg.hptEvents
  | .mem => Reg.memEvents
  | .evr => Reg.evrEvents
  | .arc => Reg.memArcEvents
  | .lio => Reg.lioEvents
  | .tpo => Reg.lioTpoEvents
  | .s0 => Reg.lioS0Events
  | .bil => Reg.bilEvents
  | .bilT t => Reg.bilTEvents t
  | .alc => Reg.alcEvents
  | .tag => Reg.tagEvents
  | .svc => Reg.tagSvcEvents
  | .sec => Reg.secEvents
  | .grd => Reg.grdEvents
  | .cfg => Reg.cfgEvents
  | .upd => Reg.updEvents

/-- Event source of a detail bit (R436): of the antivalent pairs, each bit belongs to its pair's own source. -/
def EvReg.source (bit : Nat) : EvReg → Nat
  | .lnk n | .prtL n => 4 * n
  | .met n => 4 * n + 1
  | .veh n | .tagL n => 4 * n + 2
  | .aux n => 4 * n + 3
  | .av => 576 + bit % 8
  | .rst => 584
  | .sn => 585
  | .tripout => 586
  | .prt => 587
  | .pac => 588
  | .pwr => 589
  | .hpt => 590
  | .mem => 591
  | .evr => 592
  | .arc => 593
  | .lio => 594
  | .tpo | .s0 => 600
  | .bil => 601
  | .bilT _ => 602
  | .alc => 603
  | .tag => 604
  | .svc => 605
  | .sec => 606
  | .grd => 607
  | .cfg => 608
  | .upd => 609

/-- Index REG of a register within its source (R501). -/
def EvReg.index : EvReg → Nat
  | .prtL _ | .tagL _ | .s0 => 1
  | _ => 0

/-- The tenant an event names (R441). -/
def EvReg.tenant : EvReg → Option TenantId
  | .bilT t => some t
  | _ => none

end Sys2Proof.Machine
end

