-- ==== Sys2Proof/Config.lean ====
section
/-! DEFINITION. What an implementation fixes and what the spec leaves open: constants with no body, so that no
proof can see their values. -/

namespace Sys2Proof

/-- The value number `k` that the spec leaves open; the counter `Dev.fresh` numbers them. -/
opaque Config.freeWord (k : Nat) : Word

/-- The Device Root Key drawn at manufacture (R346). -/
opaque Config.deviceRootKey : List Byte

/-- Its check value (R343). -/
opaque Config.deviceRootCheck : List Byte

/-- The mask seed in force at delivery (R344). -/
opaque Config.maskSeed : List Byte

/-- The serial number and the node number of the device, and the firmware it left the factory with. -/
opaque Config.serial : BitVec 64

opaque Config.node : BitVec 48

/-- Whether the copies of a control block that is inserted in a tick displace a block outside 48 to 93 of a link's frame of that
tick, or of the next (R126): the instant of the decision within its tick decides. -/
opaque Config.displaced (tick link : Nat) (next : Bool) : Bool

/-- Whether the output of an FIR stage is the next whole number above its exact value: the spec does not say how it is
rounded (R145). -/
opaque Config.firUp (exact : Int) : Bool

/-- The fixed low-pass filter at 200 Hz of R162: its next value from its last one and the sample. -/
opaque Config.lowPass200 (last sample : Int) : Int

/-- Delay of that filter at the mains frequency, in ps, which the placing of the grid link's pulses removes (R378). -/
opaque Config.lowPassDelay : Nat

/-- Whether a harmonic or a ratio of harmonics, the square root of this quotient, is the next whole number above it: the spec does
not say how it is rounded (R164). -/
opaque Config.harmonicUp (num den : Nat) : Bool

/-! The cryptographic functions are those of the standards that the spec names; the spec does not restate them. -/

/-- The running firmware with which the device is made (R398): what NOR holds in its region before the first update. -/
opaque Config.firmwareImage : List Byte

/-- SHA-384 (R209, R361). -/
opaque Config.sha384 : List Byte → List Byte

/-- HMAC-SHA-384 of a key and a message (R363). -/
opaque Config.hmac384 : List Byte → List Byte → List Byte

/-- child(parent, salt, label, L) of R347. -/
opaque Config.child : List Byte → List Byte → List Byte → Nat → List Byte

/-- The P-384 scalar of R348 from its 72 bytes of key material, and its public key X ‖ Y. -/
opaque Config.p384Public : List Byte → List Byte

/-- The P-521 public key of the 80 bytes of key material of SECC (R347, R348). -/
opaque Config.p521Public : List Byte → List Byte

/-- A P-384 public key X ‖ Y compressed. -/
opaque Config.compress384 : List Byte → List Byte

/-- ECDSA P-384 with the nonce of RFC 6979 under the scalar of this key material, r ‖ s (R360). -/
opaque Config.sign384 : List Byte → List Byte → List Byte

/-- A signature holds: ALG of R343, public key, message, signature (R358). -/
opaque Config.sigVerify : Nat → List Byte → List Byte → List Byte → Bool

/-- ECDH of a scalar's key material and a compressed point, P-384 (R351, R355). -/
opaque Config.ecdh384 : List Byte → List Byte → List Byte

/-- AES-256-GCM: key, nonce, associated data, plain text; cipher text followed by the tag. -/
opaque Config.gcmSeal : List Byte → List Byte → List Byte → List Byte → List Byte

/-- AES-256-GCM opened, none where the tag does not hold. -/
opaque Config.gcmOpen : List Byte → List Byte → List Byte → List Byte → Option (List Byte)

/-- `n` random bytes, the draw number `k` (R370): free values. -/
opaque Config.randomBytes (k n : Nat) : List Byte

/-- The vendor key held in the loader, compressed (R351). -/
opaque Config.vendorKey : List Byte

/-- The device certificate of R350. -/
opaque Config.deviceCert : List Byte

/-- The public key that the leaf of a certificate chain binds (R352). -/
opaque Config.leafKey : List Byte → List Byte

/-- Every signature of a contract chain holds under a root public key (R324 path 3). -/
opaque Config.chainUnder (alg : Nat) (root chain : List Byte) : Bool

/-- AES-128-GCM of the card and service tag exchanges (R328): key, nonce, plain text; cipher text and tag. -/
opaque Config.gcm128Seal (key nonce text : List Byte) : List Byte

opaque Config.gcm128Open (key nonce sealedText : List Byte) : Option (List Byte)

/-- The TAM1 answer of a tag holds under a key for a challenge (R330). -/
opaque Config.tam1Holds (key challenge answer : List Byte) : Bool

/-- SHA-384 of a firmware image, by its version (R362). -/
opaque Config.firmwareHash (version : Word) : List Byte

/-- A fixed message of 48 bytes, signed in the test of a Device Root Key (R353). -/
opaque Config.testMessage : List Byte

/-- The register whose value a word of work memory holds, by its address, if it holds one (R428): the spec gives no layout
of work memory. -/
opaque Config.workReg (word : Nat) : Option Nat

/-- The register whose value a word of the ledger store holds, by its address, if it holds one: the spec gives the layout of
the event ring and of the record queue only (R432). -/
opaque Config.ledgerReg (word : Nat) : Option Nat

/-- The page of firmware code that a word of work memory holds, if it lies in the code region (R433). -/
opaque Config.codePage : Nat → Option (BitVec 16)

/-- Session cores in demand with so many vehicles in communication (R59): the spec gives no figure per session. -/
opaque Config.coresFor (vehicles : Nat) : Nat

/-- Whether PAC_DRIFT is the next whole number above its exact value, given in fifths: the spec does not say how it is
rounded (R31). -/
opaque Config.driftUp (fifths : Int) : Bool

/-- LIM_A of an outlet whose MET_RMS0 reads 0 V: the quotient of R255 is not defined there. -/
opaque Config.limAAtZero : Nat → Nat


/-- The firmware version the device left the factory with, and the SCHEMA values a firmware version lists for a section
(R404). -/
opaque Config.firmware : Word

opaque Config.schemas (version : Word) (section_ : Nat) : List Nat

/-- Which quantity a word of the ledger store outside the event ring describes (R428, R435). -/
inductive LedgerHolder where
  | nothing
  | ownership (link : LinkId)
  | recordQueue (slot : Fin 1024)
  | tokenAccount
  | tenant (t : TenantId)
  | legal (link : LinkId)
  | lapEnergy (link : LinkId)
  | other
  deriving DecidableEq, Repr, Inhabited

/-- The holder of a word, by its index in the ledger store: the spec gives the layout of the event ring only. -/
opaque Config.ledgerHolder (word : Nat) : LedgerHolder

/-- What a word of the event ring or of the record queue holds where no record of this model stands: a place never written,
or one that a record has left (R432, R442, R213). -/
opaque Config.ledgerRest (word : Nat) : Word

/-- What a word of the record ring in NOR flash holds in a sector that this model has neither written nor erased (R447). -/
opaque Config.norRest (sector word : Nat) : Word

/-- What a device frame carries in its blocks 4 to 28 and 35 where the spec names the content of no bit, or leaves its bits to
what the model does not hold: modulation and field level (R121), powerline samples (R120) and the MAC transmit stream (R122,
R263); by draw, link and block. -/
opaque Config.frameOpen (draw link block : Nat) : Word

/-- Whether a shown quotient is the next whole number above its exact value, which is no whole number: the spec does not say
how PRT_L_SYM and PRT_L_RDC are rounded (R322). -/
opaque Config.showUp (num : Int) (den : Nat) : Bool

/-- What a 16-bit field shows for a quotient outside its range (R322). -/
opaque Config.showOver (num : Int) (den : Nat) : BitVec 16

/-- U_ref_mid of a reference member whose segment has had no whole injection period: the spec gives no value (R297). -/
opaque Config.symReference (link : Nat) : Int

/-- U_ref_mid of a merged segment from the one its reference member had, if any, and the reading that the joining group brings:
the spec does not say how the reading is taken into it (R296). -/
opaque Config.mergedReference (had : Option Int) (reading : Int) : Int

/-- Whether the mV of a linear-mode word is the next whole number above its exact value: the spec does not say how it is rounded
(R63). -/
opaque Config.linearUp (w : BitVec 16) : Bool

/-- Packet error code of a PMBus message (R63): the function of the PMBus standard, which the spec does not restate. -/
opaque Config.pmbPec : List Byte → Byte

/-- Data byte of OPERATION on and off: the spec does not state them (R63). -/
opaque Config.operationByte (on : Bool) : Byte

end Sys2Proof
end

