-- ==== Sys2Proof/Machine/StateBase.lean ====
section
/-! DEFINITION. State of the Pacer, of the modes, tempo and supply, of the host port, of the memories, the
event recorder and the archive, and of configuration and update. What the spec gives as whole registers
without a structure of their own is held in the register store (`State.regs`), each register at its own
address; what is a state of a machine, a queue or a condition is held here under a name. -/

namespace Sys2Proof.Machine

/-- The register store: word per byte address, addresses strictly rising, no entry equal to what an
unlisted register reads as (`regReset`). -/
abbrev RegStore := List (Nat × Word)

/-- The eight modes (R49). -/
inductive Mode where
  | dormant | waking | startingBlock | run | economy | maintenance | safeHalt | activation
  deriving DecidableEq, Repr

/-- The mode triggers of R51 that wait for the closure of their tick, in the order of the rows of R51. -/
inductive ModeTrigger where
  | toEconomy (host : Bool)
  | toRunFromEconomy (host : Bool)
  | toMaintenance
  | toRunFromMaintenance (host : Bool)
  | toActivation
  /-- By the host, or by the supply rule. -/
  | toDormant (host : Bool)
  deriving DecidableEq, Repr

/-- Why a mode request was refused: PWR_STATUS.REFUSE (R78). -/
inductive ModeRefusal where
  | none | notRequestable | liveSession | contactorClosed | sealClosed | updateInProgress | coincidence
  deriving DecidableEq, Repr

/-- The Pacer (R23 to R31). -/
structure Pacer where
  /-- The tick now open; PAC_TICK shows the last closed one (R24, R31). -/
  tick        : Tick
  paceOk      : Bool
  driftNow    : Bool
  vcoreMargin : Bool
  calSet      : Bool
  /-- Calendar, UTC seconds since 1970-01-01 (R26). -/
  cal         : Nat
  /-- Tick at which the next calendar second begins (R26, R29). -/
  secNext     : Tick
  /-- A leap second ordered by a time token: last calendar second of its UTC day, and whether inserted (R27). -/
  leap        : Option (Nat × Bool)
  /-- The inserted second is running: 23:59:59 is held for its second time (R27). -/
  leapHeld    : Bool
  /-- Ticks that leap seconds added or removed in the running lap's seconds (R27). -/
  lapSeconds  : Nat
  lapRunning  : Bool
  /-- Tick at which the running lap began (R31). -/
  lapStart    : Tick
  /-- Calendar at the start of the running lap, for records, and whether it was set then (R188). -/
  lapStartCal : Nat
  lapStartSet : Bool
  /-- A time step ends the running lap at this tick (R29). -/
  lapEndAt    : Option Tick
  lapAdjusted : Bool
  lapStep     : Bool
  lapRecovered : Bool
  lapInterrupted : Bool
  lapDormant  : Bool
  /-- Tick at which the last lap boundary fell. -/
  lastBoundary : Option Tick
  /-- Tick of the last drift comparison (R30). -/
  driftAt     : Tick
  /-- 32.768 kHz periods counted since DORMANT was entered (R25). -/
  dormantPeriods : Nat
  /-- Tick count at DORMANT entry (R439). -/
  dormantTick : Tick
  /-- Ticks of the last sample point and of the last planning lap boundary carried out: each falls once in its tick
  (R24). -/
  sampledAt   : Option Tick
  plannedAt   : Option Tick
  deriving DecidableEq, Repr

/-- A PMBus transaction on the supply-control island (R63). -/
inductive PmbOp where
  | operationOn
  | operationOff
  | voutMode
  | voutCommand (mv : Nat)
  | readVout
  | statusWord
  | clearFaults
  deriving DecidableEq, Repr

/-- Wake causes, with the address matched (R68, R78). -/
inductive WakeCause where
  | powerOn
  | wake (addr : Byte)
  | alert (addr : Byte)
  | serviceField
  | pfailRelease
  deriving DecidableEq, Repr

/-- Progress of the bring-up (R56). -/
inductive Bringup where
  | idle
  /-- Steps 1 to 4 in WAKING. -/
  | waking
  /-- Steps 5 to 8. -/
  | starting
  | done
  deriving DecidableEq, Repr

/-- What ended a bring-up without RUN (R56). -/
inductive BringupFault where
  | cfgInvalid | fwInvalid | keyFail | loaderBad
  deriving DecidableEq, Repr

/-- Modes, tempo, wake bus and supply (R49 to R78). -/
structure Power where
  mode        : Mode
  refuse      : ModeRefusal
  /-- Triggers admitted in the open tick (R54). -/
  trigs       : List ModeTrigger
  /-- SAFE HALT was entered in the open tick (R54). -/
  haltNow     : Bool
  /-- A transition waiting for its boundary (R51). -/
  pending     : Option ModeTrigger
  /-- An edge reset has released the last latch: SAFE HALT is left at the next tick boundary (R51). -/
  exitHalt    : Bool
  /-- Set when DORMANT is entered from SAFE HALT (R52). -/
  haltLatch   : Bool
  /-- The SAFE HALT in force was entered before bring-up had completed (R60). -/
  haltEarly   : Bool
  bringup     : Bringup
  bringupAt   : Tick
  /-- Ticks between the wake cause and the entry to WAKING (R56, R78). -/
  bringupLead : Nat
  /-- What the last verification of the loader found (R56 step 3). -/
  loaderOk    : Bool
  /-- Level of TEST_EN at the last release of POR_N (R487). -/
  testEn      : Bool
  bringupFault : Option BringupFault
  /-- CODE_FAULT or LOADER_BAD: SAFE HALT left only by power-on reset (R56, R433). -/
  haltForGood : Bool
  ecoSince    : Option Tick
  /-- Running tempo and the tempo aimed at (R78). -/
  tempo       : Nat
  target      : Nat
  /-- Since when each level has covered the demand without a break (R61). -/
  covers      : Vector (Option Tick) 8
  /-- READ_VOUT at or above the new minimum seen; the tempo rises at the closure (R62). -/
  riseReady   : Bool
  pmbLost     : Bool
  /-- The transaction running on the PMBus, and the failures in a row (R64). -/
  pmbOp       : Option PmbOp
  pmbQueue    : List PmbOp
  pmbFails    : Nat
  pmbRetryAt  : Option Tick
  pmbOpAt     : Tick
  /-- When VOUT_COMMAND was sent, while its target has not been read back (R62, R64). -/
  voutAt      : Option Tick
  pollAt      : Tick
  /-- VOUT_MODE and READ_VOUT as last read (R63). -/
  voutMode    : Byte
  voutWord    : BitVec 16
  /-- Last STATUS_WORD recorded (R63). -/
  statusWord  : BitVec 16
  /-- The regulator was told to be off (R75). -/
  vcoreOff    : Bool
  pfail       : Bool
  /-- Tick at which PFAIL_N was last released (R73). -/
  pfailGone   : Option Tick
  vaonLow     : Bool
  /-- VAON has been lost since the last start (R77, R203). -/
  vaonLost    : Bool
  brace       : Bool
  /-- Tick of the last-gasp commit of the warning in force (R70, R51). -/
  warnAt      : Option Tick
  /-- Tick of the last commit of the last-gasp engine (R72, R183). -/
  commitAt    : Tick
  /-- Calendar at that commit, if it was set (R183). -/
  commitCal   : Option Nat
  /-- DORMANT entry in progress, and the wake cause it caught (R69). -/
  entering    : Bool
  caught      : Option WakeCause
  supplyDormant : Bool
  /-- Wake cause that waits for rails and reference (R51, R485). -/
  waking      : Option WakeCause
  /-- The wake-bus frame being received was abandoned (R66). -/
  frameAbandoned : Bool
  /-- Addresses whose SLEEP_NOTICE was recorded (R67). -/
  asleep      : List Byte
  /-- The last wake-bus frame that the device sent: address, command and parity (R66, R67). -/
  wakeSent    : Option (BitVec 13)
  /-- A rail's reset or POR_N holds the core (R486, R487). -/
  resetHeld   : Bool
  railLow     : List Rail
  porAsserted : Bool
  /-- Mirrors in the ledger store (R77, R203). -/
  opSecondsMirror : Word
  cyclesMirror    : Word
  sealCntMirror   : Word
  deriving DecidableEq, Repr

/-- An open guarded pair (R95, R98). -/
structure OpenPair where
  addr   : Word
  data   : Word
  since  : Tick
  silent : Bool
  deriving DecidableEq, Repr

/-- HPT_LAST_STATUS (R109). -/
structure LastStatus where
  firstValid : Bool
  opcode     : Byte
  firstWord  : Byte
  status     : Byte
  deriving DecidableEq, Repr

/-- A read of a _LO register that captured its value (R9, R177): address of the word the capture serves next,
and the words it holds. -/
structure Capture where
  addr  : Nat
  words : List Word
  deriving DecidableEq, Repr

/-- A host-port transaction under way (R83 to R91): words still to serve, a write word as its data and a read word as
none, the address and the index of the next one, and what the words served have met. A transaction stays under way
from one command to another only while it waits for the answer of a head (R106, R140). -/
structure Txn where
  opcode : Byte
  addr   : Word
  words  : List (Option Word)
  /-- LEN is 0: the one word may open a guarded pair (R95, R97). -/
  single : Bool
  /-- HP_CS_N rose before the status byte (R103). -/
  aborted : Bool
  index  : Nat
  /-- Status bits met so far, without PAR and OK (R88), and the first word that met one other than STALLED. -/
  status : Byte
  first  : Option Nat
  out    : List Word
  /-- The head access that its current word waits for: link, since when, and whether it writes (R140). -/
  head   : Option (Fin 144 × Tick × Bool)
  /-- The longest wait in µs that the words served so far allow (R89). -/
  bound  : Nat
  /-- The word that stalls for 200 µs, and whether a write takes effect before that (R89, R92). -/
  stall  : Option (Nat × Bool)
  deriving DecidableEq, Repr

/-- The host port (R79 to R109). -/
structure HostPort where
  pair      : Option OpenPair
  resync    : Bool
  resyncAt  : Tick
  last      : LastStatus
  errAddr   : Word
  errCause  : Word
  /-- HPT_ERR_ADDR and HPT_ERR_CAUSE take the next error (R92). -/
  errArmed  : Bool
  capture   : Option Capture
  run       : Option Txn
  /-- What the device drove in the last transaction: read data, status byte, HP_ERR (R79, R88). -/
  outData   : List Word
  outStatus : Byte
  outErr    : Bool
  deriving DecidableEq, Repr

/-- One event of a tick before it is recorded (R438). -/
structure TickEvent where
  source : Nat
  reg    : Nat
  bit    : Nat
  arg    : Word
  tenant : Option TenantId
  /-- Its own tick and the places captured with it, for an event that arose in DORMANT or WAKING (R439). -/
  at?    : Option Tick
  places : List (Nat × Word)
  /-- Events that the event hold had no place for after it (R439). -/
  lost   : Nat := 0
  deriving DecidableEq, Repr

/-- An event record (R440); the CRC and the zero bytes follow from the rest. -/
structure EventRecord where
  seq       : Nat
  opSeconds : Word
  cycles    : Word
  tick      : Nat
  source    : Nat
  reg       : Nat
  bit       : Nat
  arg       : Word
  repeats   : Word
  dropped   : BitVec 16
  cls       : Nat
  poison    : Bool
  tenant    : Bool
  snapshot  : List (Word × Word)
  cal       : Nat
  deriving DecidableEq, Repr

/-- A record in the ring, with the block and the place it occupies (R432, R444). -/
structure RingSlot where
  block : Fin 64
  place : Fin 256
  entry : EventRecord
  deriving DecidableEq, Repr

/-- A sector of the record ring in NOR flash (R447): its index, its SECTOR_SEQ, the number of its first entry in
the order of the ring, and its entries as TYPE and record bytes. -/
structure NorSector where
  sector  : Nat
  seq     : Nat
  first   : Nat
  entries : List (Byte × List Byte)
  deriving DecidableEq, Repr

/-- The event recorder (R436 to R447, R457). -/
structure Recorder where
  /-- SEQ of the next record. -/
  next      : Nat
  ring      : List RingSlot
  /-- Block and place the next record takes. -/
  headBlock : Fin 64
  headPlace : Fin 256
  retired   : BitVec 64
  dead      : Bool
  /-- Blocks that passed the retest and rejoin at the next block boundary of the ring (R445). -/
  rejoin    : BitVec 64
  /-- Events of the open tick in their order of arrival. -/
  events    : List TickEvent
  /-- Detail bits that an event of the open tick set or set again: address and bit (R100). -/
  setNow    : List (Nat × Nat)
  /-- Bits that a host word of the open tick cleared, by address: the tick's events come before it (R99). -/
  clearedNow : List (Nat × Word)
  /-- Repeat counts per source (R438). -/
  repeats   : List (Nat × Nat)
  /-- Records dropped by the last tick, carried in DROPPED (R438). -/
  dropped   : Nat
  /-- An OVERFLOW record is due first in the next tick (R438). -/
  overflowDue : Bool
  /-- Event hold of the always-on domain, 16 places (R439). -/
  held      : List TickEvent
  heldLost  : Nat
  /-- Levels of EVT0 to EVT3 (R437). -/
  evt       : BitVec 4
  retesting : Bool
  /-- Records that wait for their NOR copy, in the order in which they became ready (R447): a signed record by its
  RECORD_SEQ and bytes, an event record whole. -/
  norWait   : List (Sum (Nat × List Byte) EventRecord)
  /-- Sector being written, its SECTOR_SEQ, bytes used in it, and number of entries written so far. -/
  norHead   : Nat
  norSeq    : Nat
  norBytes  : Nat
  norCount  : Nat
  /-- Sectors of the record ring that failed in this power cycle, and the sector erased ahead (R447). -/
  norSkipped : List Nat
  norErased : Option Nat
  norSectors : List NorSector
  deriving DecidableEq, Repr

/-- An entry of the last-word table (R446). -/
structure LastWord where
  cycles    : Word
  opSeconds : Word
  code      : Nat
  arg       : BitVec 16
  cal       : Word
  deriving DecidableEq, Repr

/-- On-chip memories and the scrubber (R428 to R435, R456). -/
structure Memory where
  /-- Poisoned words of the ledger store and of work memory, by word index. -/
  poisonLedger : List Nat
  poisonWork   : List Nat
  poisonAddr   : Word
  poisonArmed  : Bool
  /-- Next word of each scrub pass (R434). -/
  scrubLedger  : Nat
  scrubWork    : Nat
  lastWords    : List LastWord
  lwNext       : Fin 16
  lwCount      : Nat
  /-- A code page that failed its check once: page number (R433). -/
  codeRetry    : Option (BitVec 16)
  deriving DecidableEq, Repr

/-- State of the archive port: MEM_ARC_STATUS.STATE (R456). -/
inductive ArchiveState where
  | off | training | ready | writing | held | down
  deriving DecidableEq, Repr

/-- An archive block sealed and waiting to be written, or written: its place in the archive and its 64 KiB (R450). -/
structure ArchiveBlock where
  ns    : Fin 8
  epoch : Word
  no    : Nat
  /-- The Device Root Key epoch under which its key was derived (R451). -/
  root  : Word
  /-- Its logical place in the namespace, in blocks. -/
  place : Nat
  bytes : List Byte
  tag   : List Byte
  /-- Number of the record ring's entry after the last one in it, 0 for waveforms (R449). -/
  recEnd : Nat
  deriving DecidableEq, Repr

/-- An outstanding NVMe command (R448, R453): a block write, or the read of a block for the host. -/
structure NvmeCmd where
  block : Option ArchiveBlock
  tries : Nat
  since : Tick
  deriving DecidableEq, Repr

/-- A namespace (R448 to R451). -/
structure Namespace where
  failed  : Bool
  prevTag : List Byte
  gap     : Bool
  lostRec : Bool
  /-- A new epoch begins with the next block (R451). -/
  bump    : Bool
  /-- Sample sets that wait to be sealed, oldest first, each with its tick (R449). -/
  wave    : List (Tick × List Byte)
  /-- Number of the next entry of the record ring to archive (R449). -/
  recPos  : Nat
  /-- Blocks written, newest first. -/
  blocks  : List ArchiveBlock
  /-- Root epoch under which the running epoch's key was derived (R451). -/
  root    : Word
  /-- Blocks the namespace holds before writing restarts at its first logical block, and its next free one (R451). -/
  size    : Nat
  place   : Nat
  deriving DecidableEq, Repr

/-- The archive (R448 to R456). -/
structure Archive where
  state     : ArchiveState
  gen       : Nat
  buffer    : List ArchiveBlock
  cmds      : Vector (Option NvmeCmd) 64
  ns        : Vector Namespace 8
  resets    : List Tick
  /-- A hold of function 0x09 is admitted: no new NVMe command is issued (R454). -/
  held      : Bool
  /-- A read in progress: namespace, epoch, block number and page (R455). -/
  reading   : Option (Nat × Word × Nat × Nat)
  /-- The decrypted copy at hand: namespace, epoch, block number and its bytes. -/
  copy      : Option (Nat × Word × Nat × List Byte)
  /-- RESULT and PAGE shown in MEM_ARC_RD_STATE. -/
  result    : Nat
  page      : Nat
  deriving DecidableEq, Repr

/-- STATE of CFG_FN_STAT (R426). -/
inductive HoldState where
  | running | holdPending | held | resumePending
  deriving DecidableEq, Repr

/-- A function instance in one of the 16 slots (R407): its function, its instance, its state, the values its
Expert registers had when the hold began, and the tick of its last command. -/
structure HoldSlot where
  fn    : Byte
  inst  : BitVec 10
  state : HoldState
  saved : List (Nat × Word)
  since : Tick
  deriving DecidableEq, Repr

/-- CFG_FN_STAT (R426). -/
structure FnStat where
  refuse : Nat
  fn     : Byte
  inst   : BitVec 10
  deriving DecidableEq, Repr

/-- A FACTORY_CAL entry (R401). -/
structure FactoryCal where
  headId  : Word
  role    : Byte
  channel : Byte
  words   : List Word
  deriving DecidableEq, Repr

/-- A COMPAT entry (R401). -/
structure Compat where
  subject : Word
  min     : Word
  max     : Word
  deriving DecidableEq, Repr

/-- The configuration (R397 to R409, R426). -/
structure Configuration where
  /-- Bytes of the configuration region and of the load area of NOR flash (R398). -/
  region    : List Byte
  loadArea  : List (Nat × List Byte)
  valid     : Bool
  why       : Nat
  sections  : Nat
  compatNone : Bool
  defaulted : Bool
  unsigned  : Bool
  factory   : List FactoryCal
  /-- SCROLL: item codes of each link, 255 for the device section (R206, R401). -/
  scroll    : List (Byte × List Byte)
  compat    : List Compat
  slots     : Vector (Option HoldSlot) 16
  stat      : FnStat
  loadWhy   : Nat
  /-- CFG_LOAD_CMD in progress: 0 none, 1 a block write, 2 a COMMIT; and the LEN of the COMMIT. -/
  loadBusy  : Nat
  loadLen   : Nat
  deriving DecidableEq, Repr

/-- UPD_STATUS.STATE (R427). -/
inductive UpdState where
  | idle | receiving | verifying | ready | activating | confirming | retreating | failed
  deriving DecidableEq, Repr

/-- UPD_STATUS.RECORD, the activation record (R420, R427). -/
inductive ActRecord where
  | none | arming | swapping | confirming | retreating
  deriving DecidableEq, Repr

/-- A part entry of a manifest (R411). -/
structure PartEntry where
  kind       : Byte
  mode       : Byte
  headId     : Word
  first      : Nat
  units      : Nat
  newVer     : Word
  baseVer    : Word
  payloadLen : Nat
  imageLen   : Nat
  hash       : List Byte
  deriving DecidableEq, Repr

/-- Progress of a part: UPD_PARTk.STATE (R427). -/
structure PartState where
  state  : Nat
  /-- Heads that hold the image verified, and heads that reported FAILED once (R416). -/
  heads  : List (Fin 144)
  failed : List (Fin 144)
  deriving DecidableEq, Repr

/-- A manifest (R410). -/
structure Manifest where
  serial    : Word
  notBefore : Nat
  notAfter  : Nat
  auto      : Bool
  units     : Nat
  parts     : List PartEntry
  compat    : List Compat
  deriving DecidableEq, Repr

/-- A piece waiting for its tag check (R413 to R415). -/
structure Piece where
  index : Nat
  data  : List Byte
  tag   : List Byte
  deriving DecidableEq, Repr

/-- A piece slot (R415, R427). -/
structure PieceSlot where
  state  : Nat
  result : Nat
  piece  : Option Piece
  deriving DecidableEq, Repr

/-- Field update (R410 to R427). -/
structure Update where
  /-- Running firmware version (R426) and the image in the running firmware region (R398). -/
  fw        : Word
  fwImage   : List Byte
  state     : UpdState
  record    : ActRecord
  refuse    : Nat
  actRefuse : Nat
  manifest  : Option Manifest
  /-- Units stored in staging: index, and the cipher text and tag of its 256 bytes (R414). -/
  stored    : List (Nat × List Byte)
  parts     : List PartState
  /-- Images assembled for the device parts: part and bytes. -/
  images    : List (Fin 32 × List Byte)
  slots     : Vector PieceSlot 2
  gridPieces : List Piece
  /-- Activation step of R420 and the tick at which it began. -/
  step      : Nat
  stepAt    : Tick
  /-- Heads that hold a staged image, and those armed (R416, R420). -/
  staged    : List LinkId
  armed     : List LinkId
  /-- A head was found not VERIFIED, or a write to arm it failed twice (R420 step 3). -/
  armBad    : Bool
  /-- AUTO has had its lap boundary (R418). -/
  autoDone  : Bool
  /-- Journal: previous firmware version, firmware and configuration (R421, R422). -/
  journal   : Option (Word × List Byte × List Byte)
  /-- Running compatibility list of the last confirmed manifest (R425). -/
  compat    : Option (List Compat)
  /-- The confirmation window was opened, and the operating second at which it was last counted (R423). -/
  windowOpen : Bool
  /-- Outcome due when a retreat ends (R422). -/
  retreatWhy : Nat
  deriving DecidableEq, Repr

end Sys2Proof.Machine
end

