-- ==== Sys2Proof/Machine/StateAlloc.lean ====
section
/-! DEFINITION. State of the allocation engine: groups, token account, exchange slots and contactor supervision
(R219 to R246). -/

namespace Sys2Proof.Machine

/-- ALC_L_STATE.STATE of a group (R246). -/
inductive GroupState where
  | free | owned | inExchange | withdrawn | releasing
  deriving DecidableEq, Repr

/-- ALC_L_STATE.WHY (R246). -/
inductive WithdrawWhy where
  | none | gfault | notReady | linkHeldOrLost | weld | openFault | trip
  deriving DecidableEq, Repr

/-- Steps of an assignment (R232, R241). -/
inductive AssignStep where
  | discharge | segPrepare | closing
  deriving DecidableEq, Repr

/-- Steps of a release (R233). -/
inductive ReleaseStep where
  | rampDown | discharge | opening
  deriving DecidableEq, Repr

/-- A converter group (R221 to R233). -/
structure Group where
  state     : GroupState
  why       : WithdrawWhy
  owner     : Option LinkId
  /-- When the group last became idle, and last joined an outlet (R222, R230). -/
  idleSince : Tick
  joinedAt  : Option Tick
  /-- An assignment in progress: outlet, contactor, step, when the step began (R232). -/
  assign    : Option (LinkId × Fin 16 × AssignStep × Tick)
  release   : Option (ReleaseStep × Tick)
  /-- A withdrawn group's contactor waits to open since this tick (R223). -/
  breakAt   : Option Tick
  /-- Cause of the withdrawal absent since (R223). -/
  clearSince : Option Tick
  /-- The link whose trip has withdrawn a group that the trip does not name (R237 code 7). -/
  heldBy    : Option LinkId
  /-- GMODE 2 commanded since (R223). -/
  gmode2Since : Option Tick
  /-- Current at or below RELEASE_A, and output below DEAD_V, at every sample point since (R233, R232). -/
  lowSince  : Option Tick
  deadSince : Option Tick
  deriving DecidableEq, Repr

/-- Allocation to an outlet (R226 to R230). -/
structure OutletAlloc where
  req      : Nat
  target   : Nat
  grant    : Nat
  pending  : Nat
  /-- Tick of the cut whose tokens are pending (R227). -/
  cutAt    : Tick
  stopDone : Bool
  limA     : BitVec 16
  limKw    : BitVec 16
  /-- Planning lap boundaries in a row at which the shortfall was greater than 0 (R230). -/
  shortLaps : Nat
  deriving DecidableEq, Repr

/-- An exchange slot (R234 to R238). -/
structure Exchange where
  receiver  : LinkId
  donor     : Option LinkId
  group     : LinkId
  step      : Nat
  start     : Tick
  stepAt    : Tick
  condSince : Option Tick
  /-- When the group ceased to be owned, and the time it had been so before a pause (R245). -/
  unownedAt : Option Tick
  segSent   : Bool
  segReady  : Bool
  paused    : Bool
  deriving DecidableEq, Repr

/-- What a slot keeps of its last exchange (R237, R245): when it ended, whether it was aborted, the time its group was owned
by no outlet, and the reason of the slot's last abort. -/
structure ExchangeInfo where
  exch      : Exchange
  endedAt   : Tick
  aborted   : Bool
  unownedMs : Nat
  reason    : Nat
  deriving DecidableEq, Repr

/-- Contactor supervision of a link (R239). -/
structure Contactors where
  /-- First valid device frame that carries each contactor's present command. -/
  carried  : Vector (Option Tick) 16
  /-- FB has agreed with the present command. -/
  seen     : BitVec 16
  /-- Faults decided since FB last agreed with the command. -/
  openFault : BitVec 16
  weld     : BitVec 16
  deriving DecidableEq, Repr

/-- A verified demand limit (R224, R357). -/
structure UtilLimit where
  kw     : Nat
  start  : Nat
  expiry : Nat
  deriving DecidableEq, Repr

/-- Allocation, device-wide (R224 to R245). -/
structure Allocation where
  inForce   : Nat
  target    : Option Nat
  /-- A raise accepted, in force from the next tick boundary (R47). -/
  raise     : Option Nat
  limit     : Option UtilLimit
  waiting   : Option UtilLimit
  /-- A utility limit was ever verified since power-on, and one has expired with no successor (R224). -/
  everLimit : Bool
  expired   : Bool
  slots     : Vector (Option Exchange) 16
  infos     : Vector (Option ExchangeInfo) 16
  held      : Bool
  holdPending : Bool
  deriving DecidableEq, Repr

end Sys2Proof.Machine
end

