-- ==== Sys2Proof/Machine/StateSec.lean ====
section
/-! DEFINITION. State of the key vault, the crypto pool, the submission slots, attestation, enrolment and the
random number generator (R343 to R375). -/

namespace Sys2Proof.Machine

/-- A Device Root Key slot of the vault (R343). -/
structure DrkSlot where
  key   : List Byte
  epoch : Word
  check : List Byte
  deriving DecidableEq, Repr

/-- A tenant root slot of the vault (R343). -/
structure RootSlot where
  alg    : Byte
  keyVer : Byte
  seedOn : Bool
  pub    : List Byte
  seed   : List Byte
  check  : List Byte
  deriving DecidableEq, Repr

/-- The key vault (R343 to R346) and the pointer of its Device Root Key pair; the tenant slots stand with their
tenants. -/
structure Vault where
  drkA    : DrkSlot
  drkB    : DrkSlot
  /-- Slot B is the active one. -/
  activeB : Bool
  seedOld : List Byte
  seedNew : List Byte
  walk    : Word
  deriving DecidableEq, Repr

/-- The five request classes of R365, in their order of service. -/
inductive CryptoClass where
  | legal | tag | session | update | archive
  deriving DecidableEq, Repr

/-- What a crypto request is for. -/
inductive CryptoUse where
  /-- Hash and signature of the record in this queue place (R360, R361). -/
  | sign (seq : Nat)
  /-- Verification of a submitted or received object (R358). -/
  | object (path : ObjectPath)
  /-- Tests of a root replacement (R353): the Device Root Key, or a tenant's root. -/
  | drkTest
  | rootTest (t : TenantId)
  | attestHost
  | attestGrid
  /-- A step of a card, tag or service-tag exchange (R328, R330, R335). -/
  | tagStep (engine : Fin 24)
  | svcStep
  | tls (link : LinkId)
  /-- Verification of a contract chain (R324 path 3). -/
  | contract (link : LinkId)
  | enrol
  | chain
  | piece (path : PiecePath)
  | image (part : Fin 32)
  | archive (ns : Fin 8)
  deriving DecidableEq, Repr

/-- One operation of a request (R364): the kind of engine it needs, its chunks, and its worst-case time in µs. -/
structure CryptoOp where
  kind   : EngineKind
  chunks : Nat
  us     : Nat
  deriving DecidableEq, Repr

/-- A crypto request (R365, R366). -/
structure CryptoReq where
  use      : CryptoUse
  cls      : CryptoClass
  admitted : Tick
  rank     : Nat
  /-- Operations still to run, the first one running or waiting. -/
  ops      : List CryptoOp
  /-- Since when it waits for an engine (R367, SEC_WAIT_MAX). -/
  since    : Tick
  cancelled : Bool
  deriving DecidableEq, Repr

/-- A covered result that is due at its result tick, ready or not (R34): its use, its result tick, its rank, and
whether an overrun was declared. -/
structure CryptoDue where
  use     : CryptoUse
  at?     : Tick
  rank    : Nat
  overrun : Bool
  deriving DecidableEq, Repr

/-- SEC_STATUS.RNG (R375). -/
inductive RngState where
  | startup | healthy | restarting | failed
  deriving DecidableEq, Repr

/-- A submission slot (R359): STATE, KIND and RESULT of SEC_SUBc_STATE, and the object taken. -/
structure SubSlot where
  state  : Nat
  kind   : Byte
  result : Nat
  obj    : List Byte
  since  : Tick
  deriving DecidableEq, Repr

/-- A contract chain under verification for an outlet (R324 path 3). -/
structure ContractWait where
  link  : LinkId
  chain : ContractChain
  deriving DecidableEq, Repr

/-- A replacement of a root under test (R353, R355): the target, none for the Device Root Key. -/
structure RootWait where
  target : Option TenantId
  shadow : RootSlot
  drk    : DrkSlot
  /-- Proof of possession, and the serial of the object, for its test. -/
  pop    : List Byte
  signer : Nat
  serial : Word
  path   : Option ObjectPath
  deriving DecidableEq, Repr

/-- Who waits for random numbers while the source restarts (R371): a SLAC run with what its request carried, a TLS handshake, a tag
engine, and AUTH1 of the service tag. -/
inductive RngWait where
  | slac (link : LinkId) (evMac : BitVec 48) (runId : BitVec 64)
  | tls (link : LinkId)
  | tag (engine : Fin 24)
  | svcAuth1
  deriving DecidableEq, Repr

/-- Keys, crypto pool and random number generator (R343 to R375). -/
structure Security where
  vault     : Vault
  vaultOk   : Bool
  remaskSkipped : Bool
  /-- The previous epoch's key is kept, for records below FIRST_SEQ (R354). -/
  rotatePending : Bool
  firstSeq  : Nat
  queue     : List CryptoReq
  /-- Requests whose producer waits because the quota of their class is full (R368). -/
  outside   : List CryptoReq
  asym      : Vector (Option CryptoReq) 24
  sym       : Vector (Option CryptoReq) 32
  dues      : List CryptoDue
  rng       : RngState
  rngFails  : Nat
  rngWaits  : List RngWait
  /-- Requests generated since the last reseed, and its tick (R370). -/
  rngGen    : Nat
  rngSeedAt : Tick
  slots     : Vector SubSlot 4
  /-- Object received on the grid link and under verification, and its admission (R392). -/
  gridObj   : Option (List Byte × Tick)
  /-- SEC_CMD_STATE. -/
  cmd       : Nat
  cmdBusy   : Bool
  /-- The command waits for random numbers (R371). -/
  cmdWaits  : Bool
  cmdResult : Nat
  attBusy   : Bool
  attCount  : BitVec 16
  /-- Mode and seal count at the challenge's admission tick (R362), and the challenge. -/
  attMode   : Byte
  attChal   : List Byte
  gridChal  : Option (List Byte × Byte)
  roots     : List RootWait
  contracts : List ContractWait
  /-- Signed by a root: last serial of each kind and signer (R357). -/
  serials   : List ((Nat × Nat) × Word)
  /-- Committed SECC chain (R352). -/
  chain     : List Byte
  /-- LEN of the LOAD_CHAIN in progress. -/
  chainLen  : Nat
  /-- SEC_VIOL_ADDR and SEC_VIOL_CAUSE take the next violation (R373). -/
  violArmed : Bool
  /-- CFG_HASH of R362. -/
  cfgHash   : List Byte
  deriving DecidableEq, Repr

end Sys2Proof.Machine
end

