-- ==== Sys2Proof/Machine/StateBill.lean ====
section
/-! DEFINITION. State of the billing engine: legal registers, segments, sessions' cost, tenants' credit and
tariffs, maximum demand, the seal and the record queue (R179 to R217). -/

namespace Sys2Proof.Machine

/-- Stop reasons of R211. -/
inductive StopReason where
  | none | vehicle | unplug | credit | remote | trip | senseOpen | powerLoss | modeChange
  deriving DecidableEq, Repr

/-- Authorization paths (R211, R324). -/
inductive AuthPath where
  | card | tag | contract | remote
  deriving DecidableEq, Repr

/-- The cost account of a session (R192 to R194, R211). -/
structure SessionCost where
  id        : Word
  tenant    : TenantId
  path      : AuthPath
  startTick : Tick
  startCal  : Nat
  /-- S, in millionths of a minor unit, and the hidden remainders (R192). -/
  cost      : Int
  remImp    : Nat
  remExp    : Nat
  charged   : Int
  /-- Reservation of the session (R194). -/
  resv      : Int
  imp       : Nat
  exp       : Nat
  susp      : Nat
  slots     : BitVec 16
  /-- Largest planning-lap mean power in W, once a planning lap has ended. -/
  maxPower  : Option Int
  credHash  : List Byte
  /-- Protocol as the session record codes it (R211). -/
  protocol  : Nat
  /-- The authorization rests on a late result (R34). -/
  late      : Bool
  deriving DecidableEq, Repr

/-- Running maximum-demand interval of a link (R199, R200). -/
structure Demand where
  /-- Import integer and tick at the start of the running interval; whether every tick so far makes a candidate. -/
  start     : Nat
  startTick : Tick
  startCal  : Nat
  good      : Bool
  /-- Completed sub-intervals of the sliding window, newest first: µJ, seconds, candidate. -/
  subs      : List (Nat × Nat × Bool)
  deriving DecidableEq, Repr

/-- Billing of one link (R179 to R186, R199 to R201, R216). -/
structure LinkBill where
  impMwh   : Nat
  expMwh   : Nat
  carryImp : Nat
  carryExp : Nat
  susp     : Nat
  /-- Import and export slot registers (R184). -/
  slotImp  : Vector Nat 16
  slotExp  : Vector Nat 16
  /-- Slot in force for the running lap, and that of its last segment with a session; 16 none. -/
  slot     : Nat
  lapSlot  : Nat
  /-- Metrology integers at the start of the open segment (R180). -/
  segImp   : Nat
  segExp   : Nat
  segStart : Tick
  /-- Segments closed in the running lap, tenants seen, and energy placed in suspense in it (R210). -/
  segs     : Nat
  tenants  : List TenantId
  lapSusp  : Nat
  lapCost  : Int
  unattributed : Bool
  tariffHeld : Bool
  sealOpen : Bool
  unwatched : Bool
  recordGap : Bool
  poison   : Bool
  maxPower : Option Int
  /-- Totals latched for laps whose record found no slot (R213). -/
  gapImp   : Nat
  gapExp   : Nat
  gapCost  : Int
  gapSusp  : Nat
  gapSegs  : Nat
  session  : Option SessionCost
  /-- The last session, shown after its end (R216). -/
  lastSession : Option SessionCost
  lastDuration : Nat
  /-- Calendar of the fixed period, fixed cumulative, sliding period and sliding cumulative maximum (R200). -/
  mdAt     : Vector Nat 4
  fixed    : Demand
  sliding  : Demand
  deriving DecidableEq, Repr

/-- Billing and authorization state of one tenant (R187 to R198, R217, R323 to R327). -/
structure Tenant where
  credit   : Int
  consumed : Int
  grants   : Int
  resv     : Int
  /-- Available credit has been at or above LOW_CREDIT at a planning lap boundary since LOW_CREDIT was last set (R196). -/
  lowArmed : Bool
  poisoned : Bool
  consumedPoisoned : Bool
  /-- Σ grants of the last GRANT settlement record (R198). -/
  lastGrants : Int
  slotImp  : Vector Nat 16
  slotExp  : Vector Nat 16
  held     : Bool
  heldAt   : Tick
  heldLap  : Word
  /-- The interim accumulator, per slot (R190). -/
  interimImp : Vector Nat 16
  interimExp : Vector Nat 16
  /-- Sessions ended, and activity, in the running billing period (R201). -/
  ended    : Nat
  active   : Bool
  /-- The two vault slots of the tenant's root, and whether slot B is the active one (R343, R353). -/
  rootA    : RootSlot
  rootB    : RootSlot
  activeB  : Bool
  /-- Block list (R327): 16-byte identities. -/
  blocked  : List (List Byte)
  deriving DecidableEq, Repr

/-- State of the seal (R203). -/
inductive SealState where
  | closed | opened | fault
  deriving DecidableEq, Repr

/-- A record of the record queue (R213), or one that waits to be issued: at the closure of its tick, or until a
slot is free. Its RECORD_SEQ is taken at its issue. -/
structure QueuedRecord where
  seq       : Nat
  /-- KIND of R209. -/
  kind      : Nat
  link      : Option LinkId
  /-- Order among the records of one tick: lap records by link, session records by link, settlement records (R213). -/
  rank      : Nat
  bytes     : List Byte
  signed    : Bool
  poisoned  : Bool
  deriving DecidableEq, Repr

/-- Device-wide billing (R201 to R215). -/
structure Billing where
  nextSeq   : Nat
  nextSession : Word
  /-- Issued records whose copy in NOR flash is awaited, in RECORD_SEQ order; at most 1,024 (R213). -/
  records   : List QueuedRecord
  /-- Records that wait for their issue. -/
  waiting   : List QueuedRecord
  /-- Bytes of the record issued last, for the chain of R209. -/
  lastRecord : List Byte
  periodStart : Nat
  /-- Local day on which the last period began (R201). -/
  lastMidnight : Nat
  sealState : SealState
  sealA     : Bool
  sealB     : Bool
  sealSince : Tick
  unwatched : Bool
  frozen    : Bool
  deriving DecidableEq, Repr

end Sys2Proof.Machine
end

