-- ==== Sys2Proof/Machine/StateGrid.lean ====
section
/-! DEFINITION. State of the grid link (R376 to R396). -/

namespace Sys2Proof.Machine

/-- GRD_STATUS.STATE (R395). -/
inductive GridState where
  | off | noMains | listen | guarding | coordinator | member
  deriving DecidableEq, Repr

/-- A neighbour of the table (R386, R396). -/
structure Neighbour where
  valid : Bool
  node  : BitVec 48
  map   : BitVec 12
  level : BitVec 16
  age   : Nat
  /-- Last segment carried PENDING, and periods since the last offer (R385). -/
  pending : Bool
  offered : Nat
  deriving DecidableEq, Repr

/-- A message of a sender under assembly or complete (R384). -/
structure GridMsg where
  sender : Fin 32
  kind   : Nat
  msg    : BitVec 4
  next   : Nat
  bytes  : List Byte
  done   : Bool
  /-- Periods since its last segment, and start of the period of its last segment (R393). -/
  idle   : Nat
  start  : Tick
  deriving DecidableEq, Repr

/-- A message queued for transmission (R394): its type and bytes, and segments already sent. -/
structure GridTx where
  kind  : Nat
  bytes : List Byte
  sent  : Nat
  deriving DecidableEq, Repr

/-- Reading the number of another coordinator (R389): parts in, its PRIO, since how many periods, and the state to
resume. -/
structure Election where
  prio   : BitVec 3
  part0  : Option (BitVec 16)
  part1  : Option (BitVec 16)
  part2  : Option (BitVec 16)
  since  : Nat
  resume : GridState
  silent : Bool
  deriving DecidableEq, Repr

/-- The grid link (R376 to R396). -/
structure Grid where
  state    : GridState
  count    : Fin 120
  /-- Wraps of COUNT since the start (R388). -/
  wraps    : Nat
  /-- Own cycles counted on L1 of RX_LINK (R378), own cycle in which the running period began, tick at which that period was
  turned, and instant of its own cycle 0 (R383, R393). -/
  cycle    : Nat
  cycle0   : Nat
  startAt  : Tick
  began    : Tick
  /-- Periods spent without a decoded beacon, in LISTEN or as a member (R387). -/
  quiet    : Nat
  /-- A beacon was decoded in the running period. -/
  heard    : Bool
  coord    : BitVec 48
  /-- Where each transmit phase of the coordinator arrives, from its last beacon (R386). -/
  coordMap : BitVec 12
  /-- Parts of the coordinator's number read so far, by COUNT mod 3 (R383). -/
  coordParts : List (Nat × BitVec 16)
  table    : List (BitVec 48)
  index    : Option (Fin 32)
  nbs      : Vector Neighbour 32
  msgs     : List GridMsg
  tx       : List GridTx
  msgNo    : BitVec 4
  /-- Owner of the running period (R385): 0xFF discovery, 0xFE none. -/
  owner    : Byte
  prevOwner : Nat
  /-- Round of the discovery in progress, its answers, and periods until the next one is due (R390). -/
  disc     : Option (Fin 24)
  answers  : List (BitVec 48 × BitVec 12)
  discDue  : Nat
  election : Option Election
  /-- This node lost an election and waits for the winner's beacon (R389). -/
  yielding : Bool
  /-- HEAD_GRD_A of TX_LINK, as read when it became LIVE (R379). -/
  grdA     : Word
  /-- By local phase and crossing, as SYNC is searched: squares and number of the difference samples in the quiet cells of the
  last 16 periods, newest first (R381). -/
  quietSq  : Vector (List (Nat × Nat)) 6
  /-- What this node sends in the running period, cell by cell, none where it is quiet; empty where it sends nothing
  (R380, R382). -/
  cells    : List (Option Bool)
  deriving DecidableEq, Repr

end Sys2Proof.Machine
end

