-- ==== Sys2Proof/Machine/StateIo.lean ====
section
/-! DEFINITION. State of the display, of the keys and of the auxiliary load channels (R206 to R208, R458 to
R478). -/

namespace Sys2Proof.Machine

/-- LIO_DISP_STATUS.STATE (R477). -/
inductive DispState where
  | off | legend | scroll | stopping | fault
  deriving DecidableEq, Repr

/-- Position of the scroll (R207): the section (a link, or 144 for the device) and the place in its list. -/
structure Scroll where
  section_ : Nat
  item     : Nat
  frozen   : Bool
  /-- Automatic scrolling runs; tick of the last advance and of the last touch. -/
  auto     : Bool
  advAt    : Tick
  touchAt  : Tick
  /-- Value cells and bay cells shown, rightmost first, and the lit indicators (R206, R462). A cell is a digit 0 to 15, 16 for
  a dash or 17 for a blank, plus 32 where its decimal point is lit. -/
  value    : List Nat
  bay      : List Nat
  lamps    : List Nat
  deriving DecidableEq, Repr

/-- The display drive (R458 to R465). -/
structure Display where
  state   : DispState
  band    : Nat
  vlcd    : Nat
  /-- Glass temperature in use (R461). -/
  temp    : BitVec 16
  polarity : Bool
  /-- Commons still to write in the pass under way, the running pulse first, and its start (R459). -/
  pass    : List (Fin 8)
  pulseAt : Tick
  /-- Rows that the pass writes: the wanted image at its start, as LIO_IMAGE lays it out. -/
  want    : Vector Word 15
  /-- The next pass begins when the running one ends. -/
  passDue : Bool
  frameAt : Tick
  faultNow : Bool
  restartAt : Tick
  /-- Ages of S_max by common (R460). -/
  stress  : Vector Nat 8
  /-- Balls that differed in the last frames in a row, and marked balls that agreed: ball and frames (R465). -/
  differ  : List (Nat × Nat)
  agree   : List (Nat × Nat)
  /-- FRAME_HZ in force, which changes at a frame boundary (R476). -/
  hz      : Nat
  stopAt  : Tick
  deriving DecidableEq, Repr

/-- A touch key (R466 to R470). -/
structure Key where
  meas     : BitVec 16
  base     : BitVec 16
  /-- BASE as last committed to the ledger store; none if never (R468, R469). -/
  stored   : Option (BitVec 16)
  /-- Consecutive measurements at or above THRESH, and below three quarters of it (R466). -/
  above    : Nat
  below    : Nat
  /-- Tick of the last measurement: touches and releases are taken in it. -/
  measAt   : Tick
  touched  : Bool
  /-- The touch is ignored, because the other key was touched or both came in one tick (R467). -/
  ignored  : Bool
  touchAt  : Tick
  long     : Bool
  stuck    : Bool
  blocked  : Bool
  first    : Bool
  /-- δ at or below −THRESH since, δ below three quarters since, and the last drift step (R468, R470). -/
  lowSince : Option Tick
  freeSince : Option Tick
  driftAt  : Tick
  deriving DecidableEq, Repr

/-- AUX_STATUS.TACH (R478). -/
inductive TachState where
  | unsupervised | spinUp | running | blocked | stalled | tachLost
  deriving DecidableEq, Repr

/-- An auxiliary channel of an outlet (R471 to R475). -/
structure AuxChannel where
  on       : Bool
  duty     : BitVec 6
  fault    : Bool
  cap      : Bool
  /-- The cap has entered the outlet's protection limit, at a planning lap boundary (R475). -/
  capIn    : Bool
  tach     : TachState
  /-- Ticks of the over-currents of the last 60 s, and the tick at which the channel is commanded on again. -/
  ocTimes  : List Tick
  offUntil : Option Tick
  spinAt   : Tick
  tries    : Nat
  openSince : Option Tick
  openSet  : Bool
  misSince : Option Tick
  misSet   : Bool
  /-- Tachometer counter of the last valid frame, edges in the running planning lap, and the last rate. -/
  lastCnt  : BitVec 8
  edges    : Nat
  rate     : Nat
  below    : Bool
  /-- A general channel in FAULT has seen ON = 0 (R473). -/
  seenOff  : Bool
  /-- The cooling channel runs on until this tick (R472). -/
  runOn    : Option Tick
  wanted   : Bool
  deriving DecidableEq, Repr

end Sys2Proof.Machine
end

