-- ==== Sys2Proof/Machine/StateLink.lean ====
section
/-! DEFINITION. State of a head link and of its metrology, and of the test pulse outputs and S0 inputs. -/

namespace Sys2Proof.Machine

/-- LNK_STATUS.STATE (R142). -/
inductive LinkState where
  | off | trainA | trainB | trainC | confirm | live | held | lost
  deriving DecidableEq, Repr

/-- LNK_STATUS.HELD_WHY (R142). -/
inductive HeldWhy where
  | none | roleMismatch | protocolMismatch | rttLimit | versionMismatch | ownDecision
  deriving DecidableEq, Repr

/-- Role of a link (R4). -/
inductive Role where
  | unused | outlet | power | site
  deriving DecidableEq, Repr

/-- What the head register channel carries out for the device itself (R140). -/
inductive RegPurpose where
  | host
  | headId | headRole | headFw | headCaps
  /-- HEAD_INJ_R and HEAD_INJ_MAX, read when the link becomes LIVE (R291). -/
  | injR | injMax
  /-- Threshold word k written, or read back (R290, R291). -/
  | threshWrite (k : Nat) | threshRead (k : Nat)
  /-- Step `k` of sending an image to a head, and a command of activation (R416, R417, R420, R422, R423). -/
  | stage (k : Nat)
  | stageCtrl (cmd : Nat)
  /-- HEAD_STG_STATUS read, and ARM written, a second time where the first write failed (R420 step 3). -/
  | stageRead
  | stageArm (again : Bool)
  /-- HEAD_GRD_A (R379). -/
  | gridA
  deriving DecidableEq, Repr

/-- A head register request (R139, R140). -/
structure HeadRequest where
  purpose  : RegPurpose
  addr     : BitVec 15
  write    : Option Word
  tag      : BitVec 6
  since    : Tick
  repeated : Bool
  /-- The next device frame carries it (R139). -/
  carry    : Bool
  deriving DecidableEq, Repr

/-- A pre-empting control block being sent three times (R126, R128). -/
structure Preempt where
  release : Bool
  cls     : Nat
  serial  : Byte
  deriving DecidableEq, Repr

/-- The link layer of one head link (R110 to R142). -/
structure LinkLayer where
  state     : LinkState
  heldWhy   : HeldWhy
  headProto : Byte
  roleSeen  : BitVec 2
  /-- When the running training began, and when it may begin again after a failure or a loss (R134, R136, R137). -/
  trainAt   : Tick
  retryAt   : Option Tick
  /-- TRAIN_B markers echoed so far (R134). -/
  echoes    : Nat
  /-- Tick of the first frame, named by TRAIN_C (R134). -/
  firstFrame : Option Tick
  goodRun   : Nat
  /-- Consecutive ticks without a valid received frame (R137). -/
  badRun    : Nat
  /-- A valid ALARM was taken in the open tick (R127). -/
  alarmNow  : Bool
  /-- The last ALARM taken in full, for the repeats of R127. -/
  alarmSerial : Option (BitVec 6)
  tripSerial  : Byte
  /-- The latch was set and its TRIP not yet released at the head (R128). -/
  preempt   : Option Preempt
  /-- Copies of such a block reach into the next device frame and displace a block of it outside 48 to 93 (R126). -/
  spoiled   : Bool
  /-- The received frame of the open tick has been judged, or its absence (R131). -/
  judged    : Bool
  /-- Of the last 1,119 blocks since lock was gained, newest first, whether the header was invalid (R113). -/
  hdrBad    : List Bool
  /-- Failed received ticks of the running planning lap, and the head's RX_FAIL at its start, or in the first valid frame of the
  last training where the lap began before it (R133). -/
  lapFails  : Nat
  lapRxFail : Option Byte
  /-- HEAD_ROLE and HEAD_CAPS as read (R134, R141). -/
  headRole  : Word
  headCaps  : Word
  /-- HEAD_ID, HEAD_ROLE and HEAD_FW_VER as far as the running training has read them (R134 step 5). -/
  idReads   : List Word
  /-- STATE of HEAD_STG_STATUS as last read (R417). -/
  stg       : Nat
  /-- Register channel: request outstanding, requests waiting in order of issue, next tag (R140). -/
  request   : Option HeadRequest
  waiting   : List HeadRequest
  tag       : BitVec 6
  deriving DecidableEq, Repr

/-- Status blocks of the last valid head frame (R123). -/
structure HeadStatus where
  b32 : Word
  fb  : BitVec 16
  b34 : Word
  b35 : Word
  b36 : Word
  b37 : Word
  b38 : Word
  b39 : Word
  deriving DecidableEq, Repr

/-- Receive samples of the last tick, earliest first: the 75 powerline samples of blocks 4 to 27, and the 16 bytes of tag blocks
28 to 31, signed: envelope samples, or I and Q in turn (R120, R121). Zero for a tick whose frame was not valid (R131). -/
structure RxSamples where
  plc : List Int
  tag : List Int
  deriving DecidableEq, Repr

/-- The blocks of a device frame that are not zero: PACE, the injection command, powerline transmit samples, tag modulation,
commands, the register request and the CRC-32 (R116, R117, R119 to R122, R139). -/
structure FrameOut where
  pace : BitVec 16
  b1   : Word
  /-- Blocks 4 to 27: 75 samples of 10 bits, bit 767 first, the last 18 bits zero (R120). -/
  plc  : List Word
  b28  : Word
  b32  : Word
  b33  : Word
  b34  : Word
  b35  : Word
  b36  : Word
  b37  : Word
  b38  : Word
  b40  : Word
  b41  : Word
  crc  : Word
  deriving DecidableEq, Repr

/-- What the device commands a head to do, beside its contactors (R122, R119, R121). -/
structure Commands where
  /-- CLOSE[15:0]. -/
  close     : BitVec 16
  pilotMode : BitVec 2
  duty      : BitVec 10
  plcEn     : Bool
  vset      : BitVec 16
  iset      : BitVec 16
  gmode     : BitVec 2
  plim      : BitVec 16
  deriving DecidableEq, Repr

/-- Decimation, delay and running values of one metrology channel (R145 to R166). -/
structure Channel where
  /-- Newest modulator bits first, at most 1,040 (R145). -/
  bits   : List Bool
  /-- The channel's 20 bits of the last valid frame (R148). -/
  lastTick : List Bool
  /-- Stage 1 outputs, newest first, at most 128, and raw samples at 32 kS/s, at most 64. -/
  s1     : List Int
  s2     : List Int
  /-- Uncompensated samples y0, newest first, at most 20, at each rate (R151, R153). -/
  y32    : List Int
  y8     : List Int
  /-- Calibrated samples, newest first, at most 32 at 32 kS/s. -/
  last   : List Int
  /-- Samples above OC_LIM in a row (R166). -/
  ocRun  : Nat
  /-- The running run has made its decision. -/
  ocDone : Bool
  pkMax  : Option Int
  pkMin  : Option Int
  sum    : Int
  sumSq  : Nat
  tempDef : Bool
  /-- Half-cycle accumulators of R163: sum of squares and count of the last complete half and of the running one,
  and whether the last sample was negative. -/
  halfSq : Nat
  halfN  : Nat
  curSq  : Nat
  curN   : Nat
  neg    : Bool
  /-- The running half-cycle began at a zero crossing. -/
  whole  : Bool
  urms   : Option Nat
  /-- Samples of the last 200 ms, for the harmonics of site channels (R164). -/
  hist   : List Int
  deriving DecidableEq, Repr

/-- A dip or swell in progress (R163). -/
structure PqEvent where
  phases  : BitVec 3
  /-- Phase whose half-cycles are counted: the one that began the event. -/
  first   : Nat
  start   : Tick
  halves  : Nat
  extreme : Nat
  deriving DecidableEq, Repr

/-- Energy total of one direction: whole µJ and the remainder in 1/320,000,000 µJ (R158). -/
structure Energy where
  uj  : Nat
  rem : Nat
  deriving DecidableEq, Repr

/-- Running lap flags of a link (R186, MET_LAP_FLAGS). -/
structure MetFlags where
  bridged     : Bool
  gapLong     : Bool
  sat         : Bool
  tempDefault : Bool
  calChanged  : Bool
  senseOpen   : Bool
  unsealed    : Bool
  overrun     : Bool
  deriving DecidableEq, Repr

/-- Metrology of one link (R143 to R177). -/
structure Metrology where
  chans   : Vector Channel 8
  /-- Channels at 32 kS/s; a change waits for a multiple of 125 ticks (R147). -/
  fast    : Bool
  /-- Index of the bit that follows the newest one, and of the newest replaced bit (R146, R148). -/
  nbits   : Nat
  replaced : Option Nat
  bridgeRun : Nat
  gapNow  : Bool
  /-- Channels whose sealed set has been committed (R150). -/
  sealedCh : BitVec 8
  /-- Sealed-set words written during the running hold: address and word (R154). -/
  calWrites : List (Nat × Word)
  tempDefault : Bool
  imp     : Energy
  exp     : Energy
  /-- The totals as last committed to the ledger store (R158). -/
  comImp  : Energy
  comExp  : Energy
  /-- Whole µJ before the samples of the last sample point (R180). -/
  impWas  : Nat
  expWas  : Nat
  /-- Whole µJ at the last lap boundary (R159). -/
  impLap  : Nat
  expLap  : Nat
  /-- MAINTENANCE test energy: µJ and remainder (R160). -/
  testUj  : Int
  testRem : Nat
  /-- Samples, weighted, of the running planning lap and the sums of their power products (R161). -/
  planN   : Nat
  planP   : Int
  planPh  : Vector Int 3
  bridgedCnt : Nat
  /-- Over-current decisions of the running lap, and as latched for the last one (R159). -/
  ocLap   : Nat
  ocLapLast : Nat
  ocNow   : Bool
  flags   : MetFlags
  senseSince : Option Tick
  senseOpen  : Bool
  senseGood  : Option Tick
  /-- By voltage channel of a site link: positive zero crossings of the last second, in 2^-10 samples, newest first, and the
  last filtered value (R162, R378). -/
  crossings : Vector (List Nat) 3
  filtered  : Vector Int 3
  dip     : Option PqEvent
  swell   : Option PqEvent
  planOdd : Bool
  deriving DecidableEq, Repr

/-- A test pulse output (R172, R173). -/
structure TestPulse where
  acc     : Nat
  backlog : Nat
  active  : Bool
  /-- Start of the running or last pulse. -/
  start   : Option Tick
  /-- Level of the pin (R172). -/
  pin     : Bool
  deriving DecidableEq, Repr

/-- An S0 input (R174, R175). -/
structure S0Input where
  raw      : Bool
  level    : Bool
  since    : Tick
  /-- This activity has been counted or refused; previous counted pulse. -/
  judged   : Bool
  lastPulse : Option Tick
  stuck    : Bool
  deriving DecidableEq, Repr

end Sys2Proof.Machine
end

