-- ==== Sys2Proof/Machine/StateProt.lean ====
section
/-! DEFINITION. State of the protection unit and the sprint path, and of the safety network (R281 to R322). -/

namespace Sys2Proof.Machine

/-- A trip cause: its code (R281), its event source, and the pair or signal it names, if any. -/
structure Cause where
  code   : Nat
  source : Nat
  index  : Nat
  deriving DecidableEq, Repr

/-- A cause that joined a latch (R284): its class when it acted, and whether it is gone (R309). -/
structure LatchedCause where
  cause : Cause
  cls   : Nat
  gone  : Bool
  deriving DecidableEq, Repr

/-- A trip latch (R284). -/
structure Latch where
  causes  : List LatchedCause
  primary : Cause
  /-- Tick of the first cause. -/
  first   : Tick
  deriving DecidableEq, Repr

/-- A quantity judged at sample points: since when it has been at or above its level without a break, and the last
sample point at which it was. -/
structure Judged where
  since : Option Tick
  last  : Tick
  deriving DecidableEq, Repr

/-- Insulation monitoring of a link's segment and of its own sense channel (R292 to R299). Every member of a
segment holds the segment's values. -/
structure Insulation where
  /-- The link's head injects; polarity positive; start of the running half-period (R293). -/
  injecting : Bool
  positive  : Bool
  halfStart : Tick
  restartAt : Tick
  /-- Sense-channel sum and count over the last quarter of the running half-period, and whether bridged. -/
  qSum      : Int
  qN        : Nat
  qBridged  : Bool
  /-- Means of the last half-periods, newest first: positive, start tick, sum, count, usable. -/
  halves    : List (Bool × Tick × Int × Nat × Bool)
  /-- Last valid value in kΩ, and whether it lay below the fault level (R294). -/
  value     : Option Nat
  belowFault : Bool
  /-- At or above the warning level. -/
  aboveWarn : Bool
  blindSince : Option Tick
  /-- Consecutive half-period means that differ by more than 2 V while not injecting (R298). -/
  foreignRun : Nat
  /-- Consecutive valid frames with INJ_EN = 0 that the head has been sent, up to two (R296). -/
  quiet     : Nat
  /-- Symmetry reference, none before the first whole period, and the running period's mean of the sense channel (R297). -/
  refMid    : Option Int
  perSum    : Int
  perN      : Nat
  devMid    : Int
  deriving DecidableEq, Repr

/-- Protection of one link (R290 to R311, R322). -/
structure LinkProt where
  latch     : Option Latch
  threshOk  : Bool
  /-- Failures of the running attempt, and when to retry (R291). -/
  threshFails : Nat
  threshRetryAt : Option Tick
  injR      : Option Nat
  injMax    : Nat
  imd       : Insulation
  /-- Samples of the residual-current channel over one nominal cycle, newest first (R300, R302). -/
  window    : List Int
  /-- Samples of the current of an AC outlet over the same time (R303). -/
  windowI   : List Int
  fastRun   : Nat
  oc        : Judged
  rdcAc     : Judged
  rdcDc     : Judged
  siteRdc   : Judged
  slc       : Judged
  slv       : Judged
  safeDir   : Judged
  sym       : Judged
  rdcWarn   : Bool
  reducingI : Bool
  reducingV : Bool
  /-- Last sample point at which the current, or the voltage, was above its base limit (R303). -/
  overI     : Tick
  overV     : Tick
  /-- Last ALARM on the link, and since when each contactor's feedback has agreed with its command, and has read open
  under CLOSE 0 (R309). -/
  alarmAt   : Tick
  agreeSince : Vector (Option Tick) 16
  openSince : Vector (Option Tick) 16
  /-- y(0) inside ±5 % of the cable-check voltage since (R299). -/
  bandSince : Option Tick
  /-- Galvanic segment identity (R240). -/
  seg       : Nat
  /-- Members of the segment, this link included. -/
  members   : List LinkId
  deriving DecidableEq, Repr

/-- State of an antivalent pair (R306). -/
inductive AvState where
  | clear | demand | discrepancy
  deriving DecidableEq, Repr

/-- An antivalent pair (R306 to R308). -/
structure AvPair where
  a        : Bool
  b        : Bool
  state    : AvState
  /-- Since when the present state has lasted, and ticks of discrepancy counted before it (R307). -/
  since    : Tick
  counted  : Nat
  /-- The timer stands restarted. -/
  restarted : Bool
  faulted  : Bool
  deriving DecidableEq, Repr

/-- A reset input (R310): filtered level, rising edge, what was gone at it, and the time it has been low. -/
structure ResetInput where
  high     : Bool
  riseAt   : Tick
  goneLinks : List LinkId
  goneSite : Bool
  jammed   : Bool
  lowSince : Tick
  deriving DecidableEq, Repr

/-- The first copy of a SEQ whose second copy is awaited (R316). -/
structure FirstCopy where
  net : SafetyNet
  seq : BitVec 16
  pdu : List Byte
  at? : Tick
  deriving DecidableEq, Repr

/-- A receive connection of the safety network (R316). -/
structure Connection where
  isOpen   : Bool
  lastSeq  : Option (BitVec 16)
  firsts   : List FirstCopy
  lastFirst : Tick
  texp     : Nat
  openedAt : Tick
  gotPair  : Bool
  pairAt   : Tick
  fault    : Bool
  /-- Tick of the last SN_FAULT, for R309. -/
  faultAt  : Tick
  sig      : Byte
  resetCnt : BitVec 16
  deriving DecidableEq, Repr

/-- A SEG_PREPARE waiting for READY (R296). -/
structure SegRequest where
  group   : LinkId
  outlet  : LinkId
  since   : Tick
  answered : Bool
  deriving DecidableEq, Repr

/-- Device-wide protection (R285 to R289, R306 to R316, R321). -/
structure Protection where
  armed     : Bool
  bootMap   : Bool
  selftestOk : Bool
  siteLatch : Option Latch
  /-- Last trip: tick, highest class and primary cause (R321). -/
  lastTick  : Tick
  lastCls   : Nat
  lastCause : Option Cause
  pairs     : Vector AvPair 8
  resets    : Vector ResetInput 2
  tripout   : BitVec 4
  tripoutFault : BitVec 4
  tripoutAt : Tick
  conns     : Vector Connection 8
  txSeq     : BitVec 16
  txAt      : Tick
  txSig     : Byte
  /-- The SIG byte as the last tick closed (R315). -/
  sigClosed : Byte
  /-- The last safety PDU (R313), and the Ethernet frames that carried it on SNA and SNB (R312, R315). -/
  txPdu     : List Byte
  txA       : List Byte
  txB       : List Byte
  segs      : List SegRequest
  /-- Since when the internal conditions of R309 have been absent. -/
  paceOkSince  : Option Tick
  vcoreOkSince : Option Tick
  deriving DecidableEq, Repr

end Sys2Proof.Machine
end

