-- ==== Sys2Proof/Machine/StateTag.lean ====
section
/-! DEFINITION. State of the tag engines, of an outlet's reader and of the service tag with its mailbox
(R323 to R342). -/

namespace Sys2Proof.Machine

/-- The card states of R329, as TAG_L_STATUS.CARD codes them. -/
inductive CardState where
  | none | opened | secured | halted
  deriving DecidableEq, Repr

/-- A request for a tag engine (R332): class 1 auth or class 2 poll, with its admission tick. -/
structure TagRequest where
  cls      : Nat
  admitted : Tick
  deriving DecidableEq, Repr

/-- The reader of one outlet (R331, R332, R341). -/
structure LinkTag where
  card     : CardState
  /-- UID of the card of the last transaction, and UIDs of the HALTED cards that have not left the field for a poll (R329). -/
  uid      : List Byte
  halted   : List (List Byte)
  /-- The next HF poll in mode 3 is of type B (R331). -/
  turnB    : Bool
  request  : Option TagRequest
  engine   : Option (Fin 24)
  /-- Tick of the last poll interval (R332). -/
  pollAt   : Tick
  /-- FIELD_ON is 0 until this tick (R333). -/
  fieldOff : Option Tick
  /-- The modulation of TAG_L_CFG is not fitted: MODE_MISMATCH (R331). -/
  mismatch : Bool
  /-- TAG_L_RESULT: path, code and tenant of the last decision. -/
  path     : Nat
  code     : Nat
  tenant   : BitVec 10
  deriving DecidableEq, Repr

/-- What a tag engine waits for (R328, R330). -/
inductive TagStep where
  /-- The next command waits for random numbers (R371). -/
  | held
  | anticollision | fci | auth1 | auth2 | credential | round | done
  deriving DecidableEq, Repr

/-- What a tag transaction ends in (R325, R328, R330): no card, a refusal that precedes verification, a failed
verification with the tenant named, or a credential. -/
inductive TagOutcome where
  | noCard
  | refused (code : Nat) (tenant : BitVec 16)
  | bad (tenant : BitVec 16)
  | credential (tenant : BitVec 16) (ident : List Byte) (expiryDays : Word)
  | ambiguous
  /-- ENGINE_TIMEOUT, with the tenant if it was known (R333). -/
  | timeout (tenant : Option (BitVec 16))
  deriving DecidableEq, Repr

/-- A command on the air interface (R328, R330): anticollision of type A or B, SELECT by AID, AUTH1, AUTH2 and READ_CRED with what
they carry, a UHF inventory round with its Select on an AFI and the TAM1 challenge that each tag it finds is sent. -/
inductive AirCommand where
  | poll (typeB : Bool)
  | select (aid : List Byte)
  | auth1
  | auth2 (nonce sealedText : List Byte)
  | readCred (sealedText : List Byte)
  | round (afi : Byte) (challenge : List Byte)
  deriving DecidableEq, Repr

/-- A tag transaction that holds an engine (R333). -/
structure TagTransaction where
  link     : LinkId
  cls      : Nat
  granted  : Tick
  step     : TagStep
  /-- Lowest UID of the cards found, FCI fields, challenges and session key of R328. -/
  uid      : List Byte
  tenant   : BitVec 16
  keyVer   : Byte
  rndA     : List Byte
  rndB     : List Byte
  ks       : List Byte
  /-- UHF tags that authenticated in this round: tenant and TID (R330). -/
  found    : List (BitVec 16 × List Byte)
  /-- UHF tags of this AFI that did not authenticate: tenant. -/
  failed   : List (BitVec 16)
  outcome  : Option TagOutcome
  /-- The command that is sent at `sendAt`, and awaits its answer. -/
  sent     : AirCommand
  /-- Tick at which the next command is sent (R333). -/
  sendAt   : Tick
  deriving DecidableEq, Repr

/-- TAG_SVC_STATUS.STATE (R340). -/
inductive SvcState where
  | noField | field | opened | secured
  deriving DecidableEq, Repr

/-- Owner of the mailbox (R337). -/
inductive MbxOwner where
  | none | field | wire
  deriving DecidableEq, Repr

/-- Fill state of the mailbox (R337). -/
inductive MbxFill where
  | empty | forWire | forField
  deriving DecidableEq, Repr

/-- The service tag and its mailbox (R335 to R337). The bytes of the mailbox are TAG_SVC_MBX_DATA. -/
structure ServiceTag where
  state    : SvcState
  /-- The always-on domain runs on field energy: TAG_SVC_STATUS.FIELD_POWER. -/
  power    : Bool
  /-- Tick of the last command, failed AUTH2 in this field presence, and the exchange in progress (R336). -/
  lastCmd  : Tick
  fails    : Nat
  rndB     : Option (List Byte)
  ks       : List Byte
  txCount  : Nat
  rxCount  : Nat
  /-- The last response: data and status word (R335). -/
  resp     : List Byte
  sw       : BitVec 16
  owner    : MbxOwner
  fill     : MbxFill
  len      : Nat
  secured  : Bool
  /-- Something was written since ACQUIRE, and whether all of it in the secured state. -/
  wrote    : Option Bool
  /-- The 32.768 kHz period and tick of the last ACQUIRE (R337). -/
  acqAt    : Option Tick
  deriving DecidableEq, Repr

end Sys2Proof.Machine
end

