-- ==== Sys2Proof/Machine/StateVeh.lean ====
section
/-! DEFINITION. State of a vehicle session on an outlet link (R247 to R280). -/

namespace Sys2Proof.Machine

/-- Pilot states of R252; `unknown` while the link is not trained. -/
inductive Pilot where
  | a | b | c | d | e | f | invalid | unknown
  deriving DecidableEq, Repr

/-- VEH_STATUS.STATE: the states of R265. -/
inductive VehState where
  | idle | plugged | matching | setup | authorizing | negotiating | allocating | cableCheck | precharge
  | energy | stopping | ended | fault
  deriving DecidableEq, Repr

/-- VEH_STATUS.PROTOCOL, coded as in R211. -/
inductive VehProtocol where
  | none | basic | din70121 | iso15118_2 | iso15118_20 | iso15118_20bpt | megawatt
  deriving DecidableEq, Repr

/-- VEH_STATUS.WAIT (R268). -/
inductive WaitWhy where
  | none | tempo | hold | warning | mode
  deriving DecidableEq, Repr

/-- What the last V2G or SLAC response carried (R258, R269, R271, R275). -/
inductive Response where
  | none
  | slacParmCnf
  | attenCharInd
  | slacMatchCnf
  /-- CM_VALIDATE.CNF with the toggles counted (R258). -/
  | validateCnf (toggles : Nat)
  | appProtocol (p : VehProtocol)
  | ok
  | ongoing
  | failed
  /-- A charge-loop response with the published limits, and whether it carries ScheduleRenegotiation (R271). -/
  | limits (a kw : BitVec 16) (renegotiate : Bool)
  /-- EVSE_Shutdown or Terminate, and EVSE_EmergencyShutdown (R276). -/
  | shutdown
  | emergency
  deriving DecidableEq, Repr

/-- A credential accepted and held for an outlet (R267). -/
structure HeldCredential where
  tenant : TenantId
  path   : AuthPath
  hash   : List Byte
  since  : Tick
  /-- It rests on a late result (R34). -/
  late   : Bool
  deriving DecidableEq, Repr

/-- Attenuation of a RunID heard at this outlet (R258, R259). -/
structure Sounding where
  runId : BitVec 64
  atten : Nat
  at?   : Tick
  deriving DecidableEq, Repr

/-- A SLAC run (R258 to R262). -/
structure SlacRun where
  runId   : BitVec 64
  evMac   : BitVec 48
  nmk     : List Byte
  parmAt  : Tick
  /-- Sounding window open since, sounds heard and the sum of their attenuations. -/
  soundAt : Option Tick
  sounds  : Nat
  sum     : Nat
  /-- Pilot states taken when the vehicle asked for validation: toggles counted since (R258). -/
  toggles : Nat
  deriving DecidableEq, Repr

/-- The vehicle session of one outlet (R247 to R280). -/
structure Vehicle where
  state     : VehState
  /-- Tick at which the state was entered, for its bound (R265). -/
  stateAt   : Tick
  pilot     : Pilot
  /-- Classification of PILOT_HI under way, and since when it has held (R252). -/
  cand      : Option Pilot
  candSince : Tick
  /-- PILOT_LO outside its range since (R253). -/
  diodeSince : Option Tick
  ppRaw     : Byte
  ppSince   : Tick
  pp        : Option Byte
  /-- CABLE_A in force (R256). -/
  cableA    : Nat
  ppFault   : Bool
  protocol  : VehProtocol
  /-- The baseband, or the 10BASE-T1S link of a megawatt outlet, has left listen (R257, R263). -/
  active    : Bool
  /-- Dynamic control mode, and TLS established (R274, R280). -/
  dynamic   : Bool
  tls       : Bool
  /-- Direction in force, true for discharge, and a change under way (R273). -/
  discharge : Bool
  turning   : Option Bool
  wait      : WaitWhy
  tempoWaiting : Bool
  live      : Bool
  basic     : Bool
  tries     : Nat
  /-- A new attempt is due at this tick (R260); the pilot is held at steady +12 V until then. -/
  restartAt : Option Tick
  /-- State F is driven until this tick, in FAULT (R254). -/
  pilotFUntil : Option Tick
  /-- State F until the trip is released (R276). -/
  tripF     : Bool
  slac      : Option SlacRun
  heard     : List Sounding
  held      : Option HeldCredential
  /-- An accepted authorization waits for the end of a supply warning (R268). -/
  waitAuth  : Option HeldCredential
  /-- The vehicle's figures (R270): its own discharge target, its largest discharge current, whether bidirectional. -/
  ownDisKw  : BitVec 16
  maxDisI   : BitVec 16
  bpt       : Bool
  contract  : Bool
  /-- VSET and I_OUT (R272). -/
  vset      : BitVec 16
  iout      : BitVec 16
  /-- A session was allocated: SEG_PREPARE answered (R265). -/
  segAnswered : Bool
  cablePassed : Bool
  /-- Controlled stop: cause, when it began, current low since, and opening commanded (R275). -/
  stopWhy   : StopReason
  stopRank  : Nat
  stopAt    : Tick
  lowSince  : Option Tick
  openCmd   : Bool
  /-- C or D to B on DC with current flowing since this tick (R254). -/
  cToBAt    : Option Tick
  closedOnce : Bool
  response  : Response
  /-- Limits the last charge-loop response carried, in A and kW; the published limits have changed since it; the schedule in
  force under scheduled control; and a renegotiation of it was asked for (R271). -/
  carried   : Option (BitVec 16 × BitVec 16)
  pubNew    : Bool
  sched     : Option (BitVec 16 × BitVec 16)
  reneg     : Bool
  deriving DecidableEq, Repr

end Sys2Proof.Machine
end

