-- ==== Sys2Proof/Machine/State.lean ====
section
/-! DEFINITION. The state of the device: one record per head link, one per tenant, the device-wide parts, the
register store, the copy of all this that the last tick closure committed (R22, R101), and the queue of commands
that wait. `State.reset` is the device held in reset, before the release of POR_N. -/

namespace Sys2Proof.Machine

/-- Everything the device holds for one head link (R4). -/
structure Link where
  lnk   : LinkLayer
  /-- Status blocks and samples of the last valid head frame (R123, R120, R121). -/
  hs    : HeadStatus
  rx    : RxSamples
  cmd   : Commands
  /-- Command blocks of the last device frame sent (R119, R121, R122, R139). -/
  frame : FrameOut
  met   : Metrology
  bill  : LinkBill
  group : Group
  out   : OutletAlloc
  con   : Contactors
  veh   : Vehicle
  prot  : LinkProt
  tag   : LinkTag
  aux   : Vector AuxChannel 4
  deriving DecidableEq, Repr

/-- An update of covered state that waits for the closure of its tick (R22). -/
inductive Commit where
  /-- A tag transaction on an outlet has ended (R325, R333). -/
  | tagResult (link : LinkId) (path : AuthPath) (outcome : TagOutcome)
  /-- A contract chain's result; whether it is late (R34). -/
  | contract (wait : ContractWait) (late : Bool)
  /-- A signed object's result (R358); whether it is late. -/
  | object (path : ObjectPath) (late : Bool)
  /-- The tests of a root replacement are over (R353). -/
  | rootTest (tenant : TenantId)
  | drkTest
  deriving DecidableEq, Repr

/-- The device. -/
structure Dev where
  pacer   : Pacer
  power   : Power
  host    : HostPort
  regs    : RegStore
  links   : Vector Link 144
  tenants : Vector Tenant 1024
  bill    : Billing
  alloc   : Allocation
  prot    : Protection
  engines : Vector (Option TagTransaction) 24
  svc     : ServiceTag
  sec     : Security
  grid    : Grid
  disp    : Display
  scroll  : Scroll
  keys    : Vector Key 2
  tpo     : Vector TestPulse 2
  s0      : Vector S0Input 4
  cfg     : Configuration
  upd     : Update
  recorder : Recorder
  mem     : Memory
  archive : Archive
  /-- Host session: tenants locked in it (R339). -/
  locked  : List TenantId
  /-- Updates that wait for the closure of this tick, each with its place in photo-finish order (R22, R38). -/
  commits : List (Nat × Commit)
  /-- The model's own field: number of free values drawn so far. It is no state of the device. -/
  fresh   : Nat
  deriving DecidableEq, Repr

/-- The state of the machine: the device as it is now, the device as the last tick closure left it (what a host
read and a device frame show: R22, R101, R122), and the commands that wait, first in, first out. -/
structure State where
  dev     : Dev
  shown   : Dev
  pending : List Instr
  deriving DecidableEq, Repr

/-- Why a command stops the machine with a fault. No command of this device does: every row of the spec's table has
an effect the spec states, and a command whose condition does not hold changes nothing. -/
inductive Fault where
  /-- Raised by no command. It would be safe: the machine stops where the device goes on. -/
  | none
  deriving DecidableEq, Repr

/-- Why a command has no meaning in this model. -/
inductive Refusal where
  /-- Raised by an arm of `exec` whose command has no meaning yet. Safe: the machine stops where the device goes
  on. -/
  | notModelled (mnemonic : String)
  deriving DecidableEq, Repr

def Pacer.reset : Pacer :=
  { tick := 0, paceOk := true, driftNow := false, vcoreMargin := false, calSet := false, cal := 0,
    secNext := 1000000, leap := none, leapHeld := false, lapSeconds := 0, lapRunning := false, lapStart := 0,
    lapStartCal := 0, lapStartSet := false, lapEndAt := none, lapAdjusted := false, lapStep := false,
    lapRecovered := false, lapInterrupted := false, lapDormant := false, lastBoundary := none, driftAt := 0,
    dormantPeriods := 0, dormantTick := 0, sampledAt := none, plannedAt := none }

def Power.reset : Power :=
  { mode := .waking, refuse := .none, trigs := [], haltNow := false, pending := none, exitHalt := false, haltLatch := false, haltEarly := false,
    bringup := .idle, bringupAt := 0, bringupLead := 0, loaderOk := true, testEn := false, bringupFault := none, haltForGood := false, ecoSince := none, tempo := 1,
    target := 1, covers := Vector.replicate 8 none, riseReady := false, pmbLost := false, pmbOp := none,
    pmbQueue := [], pmbFails := 0, pmbRetryAt := none, pmbOpAt := 0, voutAt := none, pollAt := 0, voutMode := 0, voutWord := 0, statusWord := 0,
    vcoreOff := false, pfail := false, pfailGone := none, vaonLow := false, vaonLost := true, brace := false, warnAt := none, commitAt := 0, commitCal := none,
    entering := false, caught := none, supplyDormant := false, waking := none,
    frameAbandoned := false, asleep := [], wakeSent := none, resetHeld := true, railLow := [], porAsserted := true,
    opSecondsMirror := 0, cyclesMirror := 0, sealCntMirror := 0 }

def HostPort.reset : HostPort :=
  { pair := none, resync := false, resyncAt := 0,
    last := { firstValid := false, opcode := 0, firstWord := 0, status := 0 }, errAddr := 0, errCause := 0,
    errArmed := true, capture := none, run := none, outData := [], outStatus := 0, outErr := false }

def LinkLayer.reset : LinkLayer :=
  { state := .off, heldWhy := .none, headProto := 0, roleSeen := 0, trainAt := 0, retryAt := none, echoes := 0,
    firstFrame := none, goodRun := 0, badRun := 0, alarmNow := false, alarmSerial := none,
    tripSerial := 0, preempt := none, spoiled := false, judged := false, hdrBad := [], idReads := [], stg := 0, lapFails := 0, lapRxFail := none,
    headRole := 0, headCaps := 0, request := none, waiting := [],
    tag := 0 }

def HeadStatus.reset : HeadStatus :=
  { b32 := 0, fb := 0, b34 := 0, b35 := 0, b36 := 0, b37 := 0, b38 := 0, b39 := 0 }

def FrameOut.reset : FrameOut :=
  { pace := 0, b1 := 0, plc := List.replicate 24 0, b28 := 0, b32 := 0, b33 := 0, b34 := 0, b35 := 0, b36 := 0, b37 := 0,
    b38 := 0, b40 := 0, b41 := 0, crc := 0 }

def Commands.reset : Commands :=
  { close := 0, pilotMode := 0, duty := 0, plcEn := false, vset := 0, iset := 0, gmode := 0, plim := 0 }

def Channel.reset : Channel :=
  { bits := [], lastTick := [], s1 := [], s2 := [], y32 := [], y8 := [], last := [], ocRun := 0, ocDone := false, pkMax := none,
    pkMin := none, sum := 0, sumSq := 0, tempDef := false, halfSq := 0, halfN := 0, curSq := 0, curN := 0,
    neg := false, whole := false, urms := none, hist := [] }

def MetFlags.none : MetFlags :=
  { bridged := false, gapLong := false, sat := false, tempDefault := false, calChanged := false,
    senseOpen := false, unsealed := false, overrun := false }

def Metrology.reset : Metrology :=
  { chans := Vector.replicate 8 Channel.reset, fast := false, nbits := 0, replaced := none,
    bridgeRun := 0, gapNow := false, sealedCh := 0, calWrites := [], tempDefault := false,
    imp := ⟨0, 0⟩, exp := ⟨0, 0⟩, comImp := ⟨0, 0⟩, comExp := ⟨0, 0⟩, impWas := 0, expWas := 0, impLap := 0, expLap := 0, testUj := 0, testRem := 0, planN := 0, planP := 0,
    planPh := Vector.replicate 3 0, bridgedCnt := 0, ocLap := 0, ocLapLast := 0, ocNow := false,
    flags := MetFlags.none, senseSince := .none, senseOpen := false, senseGood := .none,
    crossings := Vector.replicate 3 [], filtered := Vector.replicate 3 0, dip := .none, swell := .none, planOdd := false }

def Demand.reset : Demand :=
  { start := 0, startTick := 0, startCal := 0, good := false, subs := [] }

def LinkBill.reset : LinkBill :=
  { impMwh := 0, expMwh := 0, carryImp := 0, carryExp := 0, susp := 0, slotImp := Vector.replicate 16 0,
    slotExp := Vector.replicate 16 0, slot := 16, lapSlot := 16, segImp := 0, segExp := 0, segStart := 0, segs := 0, tenants := [], lapSusp := 0,
    lapCost := 0, unattributed := false, tariffHeld := false, sealOpen := false, unwatched := true,
    recordGap := false, poison := false, maxPower := .none, gapImp := 0, gapExp := 0,
    gapCost := 0, gapSusp := 0, gapSegs := 0, session := none, lastSession := none, lastDuration := 0, mdAt := Vector.replicate 4 0, fixed := Demand.reset,
    sliding := Demand.reset }

def Group.reset : Group :=
  { state := .free, why := .none, owner := none, idleSince := 0, joinedAt := none, assign := none,
    release := none, breakAt := none, clearSince := none, heldBy := none, gmode2Since := none,
    lowSince := none, deadSince := none }

def OutletAlloc.reset : OutletAlloc :=
  { req := 0, target := 0, grant := 0, pending := 0, cutAt := 0, stopDone := false, limA := 0, limKw := 0,
    shortLaps := 0 }

def Contactors.reset : Contactors :=
  { carried := Vector.replicate 16 none, seen := 0, openFault := 0, weld := 0 }

def Vehicle.reset : Vehicle :=
  { state := .idle, stateAt := 0, pilot := .unknown, cand := none, candSince := 0, diodeSince := none, ppRaw := 0,
    ppSince := 0, pp := none, cableA := 0, ppFault := false, protocol := .none, active := false, dynamic := false, tls := false,
    discharge := false, turning := none, wait := .none, tempoWaiting := false, live := false, basic := false,
    tries := 0, restartAt := none, pilotFUntil := none, tripF := false, slac := none, heard := [], held := none,
    waitAuth := none, ownDisKw := 0, maxDisI := 0, bpt := false, contract := false, vset := 0,
    iout := 0, segAnswered := false, cablePassed := false, stopWhy := .none, stopRank := 0, stopAt := 0,
    lowSince := none, openCmd := false, cToBAt := none, closedOnce := false, response := .none, carried := none,
    pubNew := false, sched := none, reneg := false }

def Judged.reset : Judged := { since := none, last := 0 }

def Insulation.reset : Insulation :=
  { injecting := false, positive := true, halfStart := 0, restartAt := 0, qSum := 0, qN := 0, qBridged := false,
    halves := [], value := none, belowFault := false, aboveWarn := false, blindSince := none, foreignRun := 0,
    quiet := 0, refMid := none, perSum := 0, perN := 0, devMid := 0 }

def LinkProt.reset (n : Nat) (h : n < 144) : LinkProt :=
  { latch := none, threshOk := false, threshFails := 0, threshRetryAt := none, injR := none,
    injMax := 0, imd := Insulation.reset, window := [], windowI := [], fastRun := 0, oc := Judged.reset, rdcAc := Judged.reset,
    rdcDc := Judged.reset, siteRdc := Judged.reset, slc := Judged.reset, slv := Judged.reset,
    safeDir := Judged.reset, sym := Judged.reset, rdcWarn := false, reducingI := false, reducingV := false,
    overI := 0, overV := 0, alarmAt := 0,
    agreeSince := Vector.replicate 16 none, openSince := Vector.replicate 16 none, bandSince := none, seg := n, members := [⟨n, h⟩] }

def LinkTag.reset : LinkTag :=
  { card := .none, uid := [], halted := [], turnB := false, request := none, engine := none, pollAt := 0, fieldOff := none, mismatch := false,
    path := 0, code := 0, tenant := 0 }

def AuxChannel.reset : AuxChannel :=
  { on := false, duty := 0, fault := false, cap := false, capIn := false, tach := .unsupervised, ocTimes := [], offUntil := none,
    spinAt := 0, tries := 0, openSince := none, openSet := false, misSince := none, misSet := false, lastCnt := 0,
    edges := 0, rate := 0, below := false, seenOff := false, runOn := none, wanted := false }

/-- A link after reset. -/
def Link.reset (n : Fin 144) : Link :=
  { lnk := LinkLayer.reset, hs := HeadStatus.reset, rx := { plc := List.replicate 75 0, tag := List.replicate 16 0 }, cmd := Commands.reset,
    frame := FrameOut.reset, met := Metrology.reset, bill := LinkBill.reset, group := Group.reset,
    out := OutletAlloc.reset, con := Contactors.reset, veh := Vehicle.reset, prot := LinkProt.reset n.1 n.2,
    tag := LinkTag.reset, aux := Vector.replicate 4 AuxChannel.reset }

def RootSlot.empty : RootSlot :=
  { alg := 0, keyVer := 0, seedOn := false, pub := [], seed := [], check := [] }

/-- A tenant after reset. -/
def Tenant.reset : Tenant :=
  { credit := 0, consumed := 0, grants := 0, resv := 0, lowArmed := true,
    poisoned := false, consumedPoisoned := false, lastGrants := 0, slotImp := Vector.replicate 16 0,
    slotExp := Vector.replicate 16 0, held := false, heldAt := 0, heldLap := 0, interimImp := Vector.replicate 16 0,
    interimExp := Vector.replicate 16 0, ended := 0, active := false, rootA := RootSlot.empty, rootB := RootSlot.empty,
    activeB := false, blocked := [] }

def Billing.reset : Billing :=
  { nextSeq := 0, nextSession := 1, records := [], waiting := [], lastRecord := [], periodStart := 0, lastMidnight := 0,
    sealState := .closed, sealA := true, sealB := false, sealSince := 0, unwatched := true, frozen := false }

def Allocation.reset : Allocation :=
  { inForce := 0, target := none, raise := none, limit := none, waiting := none, everLimit := false,
    expired := false, slots := Vector.replicate 16 none, infos := Vector.replicate 16 none, held := false,
    holdPending := false }

def AvPair.reset : AvPair :=
  { a := false, b := true, state := .clear, since := 0, counted := 0, restarted := false, faulted := false }

def ResetInput.reset : ResetInput :=
  { high := false, riseAt := 0, goneLinks := [], goneSite := false, jammed := false, lowSince := 0 }

def Connection.reset : Connection :=
  { isOpen := false, lastSeq := none, firsts := [], lastFirst := 0, texp := 0, openedAt := 0, gotPair := false,
    pairAt := 0, fault := false, faultAt := 0, sig := 0, resetCnt := 0 }

def Protection.reset : Protection :=
  { armed := false, bootMap := true, selftestOk := false, siteLatch := none, lastTick := 0, lastCls := 0,
    lastCause := none, pairs := Vector.replicate 8 AvPair.reset, resets := Vector.replicate 2 ResetInput.reset,
    tripout := 0, tripoutFault := 0, tripoutAt := 0, conns := Vector.replicate 8 Connection.reset, txSeq := 0,
    txAt := 0, txSig := 0, sigClosed := 0, txPdu := [], txA := [], txB := [], segs := [], paceOkSince := none, vcoreOkSince := none }

def ServiceTag.reset : ServiceTag :=
  { state := .noField, power := false, lastCmd := 0, fails := 0, rndB := none, ks := [], txCount := 0,
    rxCount := 0, resp := [], sw := 0, owner := .none, fill := .empty, len := 0, secured := false, wrote := none, acqAt := none }

def DrkSlot.empty : DrkSlot := { key := [], epoch := 0, check := [] }

/-- Slot A holds the key drawn at manufacture (R346), which is the device's own secret. -/
def Vault.reset : Vault :=
  { drkA := { key := Config.deviceRootKey, epoch := 0, check := Config.deviceRootCheck }, drkB := DrkSlot.empty,
    activeB := false, seedOld := Config.maskSeed, seedNew := [], walk := 0 }

def SubSlot.reset : SubSlot := { state := 0, kind := 0, result := 0, obj := [], since := 0 }

def Security.reset : Security :=
  { vault := Vault.reset, vaultOk := false, remaskSkipped := false, rotatePending := false, firstSeq := 0,
    queue := [], outside := [], asym := Vector.replicate 24 none, sym := Vector.replicate 32 none, dues := [],
    rng := .startup, rngFails := 0, rngWaits := [], rngGen := 0, rngSeedAt := 0, slots := Vector.replicate 4 SubSlot.reset,
    gridObj := none, cmd := 0, cmdBusy := false, cmdWaits := false, cmdResult := 0, attBusy := false, attCount := 0, attMode := 0,
    attChal := [], gridChal := none, roots := [], contracts := [], serials := [], chain := [], chainLen := 0, violArmed := true,
    cfgHash := [] }

def Neighbour.reset : Neighbour :=
  { valid := false, node := 0, map := 0, level := 0, age := 0, pending := false, offered := 0 }

def Grid.reset : Grid :=
  { state := .off, count := 0, wraps := 0, cycle := 0, cycle0 := 0, startAt := 0, began := 0, quiet := 0,
    heard := false, coord := 0, coordMap := 0, coordParts := [], table := [], index := none, nbs := Vector.replicate 32 Neighbour.reset,
    msgs := [], tx := [], msgNo := 0, owner := 0xFE, prevOwner := 0, disc := none, answers := [], discDue := 0,
    election := none, yielding := false, grdA := 0, quietSq := Vector.replicate 6 [],
    cells := [] }

def Display.reset : Display :=
  { state := .off, band := 0, vlcd := 250, temp := 0, polarity := false, pass := [], pulseAt := 0, want := Vector.replicate 15 0,
    passDue := false, frameAt := 0, faultNow := false, restartAt := 0, stress := Vector.replicate 8 0,
    differ := [], agree := [], hz := 0, stopAt := 0 }

def Scroll.reset : Scroll :=
  { section_ := 144, item := 0, frozen := false, auto := true, advAt := 0, touchAt := 0, value := [], bay := [],
    lamps := [] }

def Key.reset : Key :=
  { meas := 0, base := 0, stored := none, above := 0, below := 0, measAt := 0, touched := false, ignored := false,
    touchAt := 0, long := false, stuck := false, blocked := false, first := true, lowSince := none,
    freeSince := none, driftAt := 0 }

def TestPulse.reset : TestPulse := { acc := 0, backlog := 0, active := false, start := none, pin := false }

def S0Input.reset : S0Input :=
  { raw := false, level := false, since := 0, judged := false, lastPulse := none, stuck := false }

def Configuration.reset : Configuration :=
  { region := [], loadArea := [], valid := false, why := 0, sections := 0, compatNone := false,
    defaulted := false, unsigned := false, factory := [], scroll := [], compat := [],
    slots := Vector.replicate 16 none, stat := { refuse := 0, fn := 0, inst := 0 },
    loadWhy := 0, loadBusy := 0, loadLen := 0 }

def Update.reset : Update :=
  { fw := Config.firmware, fwImage := Config.firmwareImage, state := .idle, record := .none, refuse := 0, actRefuse := 0, manifest := none, stored := [], parts := [],
    images := [], slots := Vector.replicate 2 { state := 0, result := 0, piece := none }, gridPieces := [],
    step := 0, stepAt := 0, staged := [], armed := [], armBad := false, autoDone := false, journal := none, compat := none, windowOpen := false,
    retreatWhy := 0 }

def Recorder.reset : Recorder :=
  { next := 0, ring := [], headBlock := 0, headPlace := 0, retired := 0, dead := false, rejoin := 0, events := [],
    setNow := [], clearedNow := [], repeats := [], dropped := 0, overflowDue := false, held := [], heldLost := 0, evt := 0xF,
    retesting := false, norWait := [], norHead := 0, norSeq := 0, norBytes := 64, norCount := 0, norSkipped := [],
    norErased := none, norSectors := [] }

def Memory.reset : Memory :=
  { poisonLedger := [], poisonWork := [], poisonAddr := 0, poisonArmed := true, scrubLedger := 0, scrubWork := 0,
    lastWords := [], lwNext := 0, lwCount := 0, codeRetry := none }

def Namespace.reset : Namespace :=
  { failed := false, prevTag := [], gap := false, lostRec := false, bump := false, wave := [],
    recPos := 0, blocks := [], root := 0, size := 0, place := 0 }

def Archive.reset : Archive :=
  { state := .off, gen := 0, buffer := [], cmds := Vector.replicate 64 none, ns := Vector.replicate 8 Namespace.reset,
    resets := [], held := false, reading := none, copy := none, result := 0, page := 0 }

/-- The device held in reset: every register reads its reset value (the register store lists nothing), and every
other piece of state is at the value its rule gives, or at the value the assumption log names. -/
def Dev.reset : Dev :=
  { pacer := Pacer.reset, power := Power.reset, host := HostPort.reset, regs := [],
    links := Vector.ofFn Link.reset, tenants := Vector.replicate 1024 Tenant.reset, bill := Billing.reset,
    alloc := Allocation.reset, prot := Protection.reset, engines := Vector.replicate 24 none,
    svc := ServiceTag.reset, sec := Security.reset, grid := Grid.reset, disp := Display.reset,
    scroll := Scroll.reset, keys := Vector.replicate 2 Key.reset, tpo := Vector.replicate 2 TestPulse.reset,
    s0 := Vector.replicate 4 S0Input.reset, cfg := Configuration.reset, upd := Update.reset,
    recorder := Recorder.reset, mem := Memory.reset, archive := Archive.reset, locked := [], commits := [], fresh := 0 }

/-- The machine right after reset. -/
def State.reset : State := { dev := Dev.reset, shown := Dev.reset, pending := [] }

end Sys2Proof.Machine
end

