-- ==== Sys2Proof/Machine/Ops.lean ====
section
/-! DEFINITION. The named operations over the state: the register store, bit fields, counters, links and tenants,
events and happenings, free values, and the end of every command. -/

namespace Sys2Proof.Machine

/-- How every command ends. -/
abbrev Ending := Host.Outcome State Fault Refusal

/-- A conditional change of anything. -/
def applyIf {α : Type} (c : Bool) (f : α → α) (x : α) : α := if c then f x else x

/-! ### Bits -/

/-- The number in `width` bits from bit `lo`. -/
def fieldOf (w : Word) (lo width : Nat) : Nat := w.toNat / 2 ^ lo % 2 ^ width

/-- One bit of a word. -/
def bitOf (w : Word) (b : Nat) : Bool := w.getLsbD b

/-- A word whose only 1 is bit `b`. -/
def oneBit (b : Nat) : Word := BitVec.ofNat 32 (2 ^ b)

/-- A word with the number `v` put into `width` bits from bit `lo`. -/
def putField (w : Word) (lo width v : Nat) : Word :=
  (w &&& ~~~(BitVec.ofNat 32 ((2 ^ width - 1) * 2 ^ lo))) ||| BitVec.ofNat 32 (v % 2 ^ width * 2 ^ lo)

/-- A register made of fields: lowest bit, width and value of each. -/
def packWord (fs : List (Nat × Nat × Nat)) : Word :=
  BitVec.ofNat 32 ((fs.map fun f => f.2.2 % 2 ^ f.2.1 * 2 ^ f.1).sum)

/-- A Bool as a bit of a packed register. -/
def b2n (b : Bool) : Nat := if b then 1 else 0

/-- The signed number in `width` bits from bit `lo`. -/
def sfieldOf (w : Word) (lo width : Nat) : Int :=
  let v := fieldOf w lo width
  if v < 2 ^ (width - 1) then (v : Int) else (v : Int) - 2 ^ width

/-- A signed number as a register word. -/
def wordOfInt (i : Int) : Word := BitVec.ofInt 32 i

/-- A whole number held to 32 bits: 0xFFFF_FFFF stands for every larger one. -/
def satWord (n : Nat) : Word := BitVec.ofNat 32 (min n 0xFFFFFFFF)

/-- The largest `width`-bit number for every number above it. -/
def satTo (width n : Nat) : Nat := min n (2 ^ width - 1)

/-- The bytes of a word, the one in bits 31:24 first. -/
def wordBytes (w : Word) : List Byte :=
  [BitVec.ofNat 8 (w.toNat / 2 ^ 24), BitVec.ofNat 8 (w.toNat / 2 ^ 16), BitVec.ofNat 8 (w.toNat / 2 ^ 8),
    BitVec.ofNat 8 w.toNat]

/-- The `len` bytes of a number, most significant first. -/
def bytesBE : Nat → Nat → List Byte
  | 0, _ => []
  | len + 1, v => BitVec.ofNat 8 (v / 2 ^ (8 * len)) :: bytesBE len v

/-- The `len` bytes of a number, least significant first. -/
def bytesLE : Nat → Nat → List Byte
  | 0, _ => []
  | len + 1, v => BitVec.ofNat 8 v :: bytesLE len (v / 256)

/-- The number that bytes spell, most significant first. -/
def natBE (bs : List Byte) : Nat := bs.foldl (fun a b => a * 256 + b.toNat) 0

/-- The number that bytes spell, least significant first. -/
def natLE (bs : List Byte) : Nat := bs.foldr (fun b a => a * 256 + b.toNat) 0

/-- `len` bytes from place `off`, zeros where the list ends. -/
def slice (bs : List Byte) (off len : Nat) : List Byte :=
  let p := (bs.drop off).take len
  p ++ List.replicate (len - p.length) 0

/-- The big-endian number in `len` bytes at place `off`. -/
def fieldBE (bs : List Byte) (off len : Nat) : Nat := natBE (slice bs off len)

/-- Bytes cut or filled with zeros to a length. -/
def padTo (len : Nat) (bs : List Byte) : List Byte := slice bs 0 len

/-- Exclusive or with a polynomial for each of the eight bits of a byte, most significant first. -/
def crcByte (width poly : Nat) (crc : Nat) (b : Byte) : Nat :=
  (List.range 8).foldl
    (fun c i =>
      let top := c / 2 ^ (width - 1) % 2
      let bit := b.toNat / 2 ^ (7 - i) % 2
      let sh := c * 2 % 2 ^ width
      if top + bit = 1 then Nat.xor sh poly else sh)
    crc

/-- A cyclic redundancy check, most significant bit first, neither reflected nor inverted at the end. -/
def crcOf (width poly init : Nat) (bs : List Byte) : Nat := bs.foldl (crcByte width poly) init

/-- The CRC-32 of R117. -/
def crc32 (bs : List Byte) : Nat := crcOf 32 0x04C11DB7 0xFFFFFFFF bs

/-- The CRC-16 of R384. -/
def crc16 (bs : List Byte) : Nat := crcOf 16 0x1021 0xFFFF bs

/-! ### The register store -/

/-- What a register reads. -/
def RegStore.get (st : RegStore) (a : Nat) : Word :=
  match st.find? fun e => e.1 == a with
  | some e => e.2
  | none => regReset a

/-- An entry put at its place in the rising order of addresses. -/
def RegStore.insert (st : RegStore) (a : Nat) (w : Word) : RegStore :=
  match st with
  | [] => [(a, w)]
  | e :: es => if a < e.1 then (a, w) :: e :: es else e :: RegStore.insert es a w

/-- A register written. Writing what an unlisted register reads as removes the entry. -/
def RegStore.set (st : RegStore) (a : Nat) (w : Word) : RegStore :=
  let rest := st.filter fun e => e.1 != a
  if w = regReset a then rest else RegStore.insert rest a w

/-- The canonical form of the store: addresses strictly rising, no entry that says what an unlisted register
reads as. -/
def RegStore.wf (st : RegStore) : Bool :=
  match st with
  | [] => true
  | e :: es => (es.all fun f => decide (e.1 < f.1)) && decide (e.2 ≠ regReset e.1) && RegStore.wf es

/-- Any store put into canonical form. -/
def RegStore.normal (st : RegStore) : RegStore := st.foldr (fun e acc => RegStore.set acc e.1 e.2) []

/-- The device at the end of a command: the register store in canonical form. -/
def Dev.settled (d : Dev) : Dev := { d with regs := d.regs.normal }

/-- A command changes the device and nothing else: what the last closure committed, and the commands that wait,
stay. -/
def State.upd (s : State) (f : Dev → Dev) : Ending := .next { s with dev := (f s.dev).settled }

def Dev.reg (d : Dev) (a : Nat) : Word := d.regs.get a

def Dev.setReg (d : Dev) (a : Nat) (w : Word) : Dev := { d with regs := d.regs.set a w }

/-- The number in a field of a register. -/
def Dev.field (d : Dev) (a lo width : Nat) : Nat := fieldOf (d.reg a) lo width

/-- One bit of a register. -/
def Dev.bit (d : Dev) (a b : Nat) : Bool := bitOf (d.reg a) b

def Dev.setField (d : Dev) (a lo width v : Nat) : Dev := d.setReg a (putField (d.reg a) lo width v)

/-- A field that counts up to its largest value and stays there. -/
def Dev.countField (d : Dev) (a lo width : Nat) (n : Nat := 1) : Dev :=
  d.setField a lo width (satTo width (d.field a lo width + n))

/-- A saturating counter register. -/
def Dev.count (d : Dev) (a : Nat) (n : Nat := 1) : Dev := d.setReg a (satWord ((d.reg a).toNat + n))

/-- Consecutive words written from an address on. -/
def Dev.setRegs (d : Dev) (a : Nat) : List Word → Dev
  | [] => d
  | w :: ws => Dev.setRegs (d.setReg a w) (a + 4) ws

/-- `n` consecutive words from an address on. -/
def Dev.words (d : Dev) (a n : Nat) : List Word := (List.range n).map fun i => d.reg (a + 4 * i)

/-- Bytes laid out as words, first byte in bits 31:24. -/
def wordsOfBytes (bs : List Byte) : List Word :=
  (List.range ((bs.length + 3) / 4)).map fun i => BitVec.ofNat 32 (fieldBE bs (4 * i) 4)

/-- Bytes laid out as words, first byte in bits 7:0 (R8). -/
def wordsLE (bs : List Byte) : List Word :=
  (List.range ((bs.length + 3) / 4)).map fun i => BitVec.ofNat 32 (natLE (slice bs (4 * i) 4))

/-- The bytes of words, bits 7:0 first (R8). -/
def bytesOfWordsLE (ws : List Word) : List Byte := ws.flatMap fun w => bytesLE 4 w.toNat

/-- The bytes of words, bits 31:24 first. -/
def bytesOfWordsBE (ws : List Word) : List Byte := ws.flatMap wordBytes

/-! ### Links and tenants -/

def Dev.link (d : Dev) (n : LinkId) : Link := d.links.get n

def Dev.onLink (d : Dev) (n : LinkId) (f : Link → Link) : Dev :=
  { d with links := d.links.set n.1 (f (d.links.get n)) }

def Dev.onLnk (d : Dev) (n : LinkId) (f : LinkLayer → LinkLayer) : Dev := d.onLink n fun l => { l with lnk := f l.lnk }

def Dev.onCmd (d : Dev) (n : LinkId) (f : Commands → Commands) : Dev := d.onLink n fun l => { l with cmd := f l.cmd }

def Dev.onMet (d : Dev) (n : LinkId) (f : Metrology → Metrology) : Dev := d.onLink n fun l => { l with met := f l.met }

def Dev.onBill (d : Dev) (n : LinkId) (f : LinkBill → LinkBill) : Dev := d.onLink n fun l => { l with bill := f l.bill }

def Dev.onGroup (d : Dev) (n : LinkId) (f : Group → Group) : Dev := d.onLink n fun l => { l with group := f l.group }

def Dev.onOut (d : Dev) (n : LinkId) (f : OutletAlloc → OutletAlloc) : Dev :=
  d.onLink n fun l => { l with out := f l.out }

def Dev.onCon (d : Dev) (n : LinkId) (f : Contactors → Contactors) : Dev := d.onLink n fun l => { l with con := f l.con }

def Dev.onVeh (d : Dev) (n : LinkId) (f : Vehicle → Vehicle) : Dev := d.onLink n fun l => { l with veh := f l.veh }

def Dev.onProt (d : Dev) (n : LinkId) (f : LinkProt → LinkProt) : Dev := d.onLink n fun l => { l with prot := f l.prot }

def Dev.onTag (d : Dev) (n : LinkId) (f : LinkTag → LinkTag) : Dev := d.onLink n fun l => { l with tag := f l.tag }

def Dev.onAux (d : Dev) (n : LinkId) (k : Fin 4) (f : AuxChannel → AuxChannel) : Dev :=
  d.onLink n fun l => { l with aux := l.aux.set k.1 (f (l.aux.get k)) }

def Dev.tenant (d : Dev) (t : TenantId) : Tenant := d.tenants.get t

def Dev.onTenant (d : Dev) (t : TenantId) (f : Tenant → Tenant) : Dev :=
  { d with tenants := d.tenants.set t.1 (f (d.tenants.get t)) }

/-- Every link in ascending order. -/
def allLinks : List LinkId := List.finRange 144

def allTenants : List TenantId := List.finRange 1024

/-- The same done for each of a list in turn. -/
def Dev.each {α : Type} (d : Dev) (xs : List α) (f : Dev → α → Dev) : Dev := xs.foldl f d

/-- Role of a link, as LNK_CFG.ROLE codes it (R4, R142). -/
def Dev.role (d : Dev) (n : LinkId) : Role :=
  match d.field (Reg.lnkCfg n) 0 2 with
  | 1 => .outlet
  | 2 => .power
  | 3 => .site
  | _ => .unused

/-- The links of a role, ascending. -/
def Dev.linksOf (d : Dev) (r : Role) : List LinkId := allLinks.filter fun n => decide (d.role n = r)

/-- Links with a role, ascending. -/
def Dev.usedLinks (d : Dev) : List LinkId := allLinks.filter fun n => decide (d.role n ≠ .unused)

def linkOfNat (n : Nat) : Option LinkId := if h : n < 144 then some ⟨n, h⟩ else none

/-- Photo-finish rank of an outlet's session and tag results (R38, R323). -/
def vehRank (n : LinkId) : Nat := 4 * n.1 + 2

/-- Photo-finish rank of the host's words (R38). -/
def hostRank : Nat := 640

def tenantOfNat (t : Nat) : Option TenantId := if h : t < 1024 then some ⟨t, h⟩ else none

/-! ### Time -/

/-- The open tick: commands that arrive now belong to it (R22, R33). -/
def Dev.now (d : Dev) : Tick := d.pacer.tick

/-- Milliseconds in ticks (R6). -/
def ms (n : Nat) : Tick := 1000 * n

/-- Seconds in ticks (R6). -/
def secs (n : Nat) : Tick := 1000000 * n

/-- Whether a condition that has held since a tick has held for a time. -/
def heldFor (since : Option Tick) (now span : Nat) : Bool :=
  match since with
  | some t => t + span ≤ now
  | none => false

/-- The tick since which a condition has held without a break. -/
def sinceWhen (since : Option Tick) (now : Tick) (holds : Bool) : Option Tick :=
  if holds then some (since.getD now) else none

/-- Milliseconds since a tick, held to `width` bits. -/
def msSince (t now : Tick) (width : Nat) : Nat := satTo width ((now - t) / 1000)

/-! ### Modes -/

/-- Mode codes (R49). -/
def Mode.code : Mode → Nat
  | .dormant => 0
  | .waking => 1
  | .startingBlock => 2
  | .run => 3
  | .economy => 4
  | .maintenance => 5
  | .safeHalt => 6
  | .activation => 7

def Dev.mode (d : Dev) : Mode := d.power.mode

/-- The modes in which the event recorder runs (R439). -/
def Dev.recording (d : Dev) : Bool := d.mode != .dormant && d.mode != .waking

/-! ### Free values -/

/-- A fresh value that the spec leaves open. -/
def Dev.drawn (d : Dev) : Word := Config.freeWord d.fresh

/-- The next draw gives another value. -/
def Dev.drew (d : Dev) : Dev := { d with fresh := d.fresh + 1 }

/-! ### Guarded commands -/

/-- A command through a completed guarded pair: its register reads back what was written (R498), and what it does is done.
No command is served while the core does not run (R81). -/
def Dev.gw (d : Dev) (a : Nat) (w : Word) (f : Dev → Dev) : Dev := if d.recording then f (d.setReg a w) else d

/-- A word of the host that reaches the core: none does while the core does not run (R81). -/
def Dev.hosted (f : Dev → Dev) (d : Dev) : Dev := if d.recording then f d else d

/-! ### Events -/

def Dev.onRec (d : Dev) (f : Recorder → Recorder) : Dev := { d with recorder := f d.recorder }

/-- Tick of an event that arises in DORMANT (R439, R25). -/
def Dev.eventTick (d : Dev) : Tick :=
  if d.mode = .dormant then d.pacer.dormantTick + d.pacer.dormantPeriods * 1000000 / 32768 else d.now

/-- Places that the always-on domain captures with an event of source 601 (R203, R441). -/
def Dev.capturedPlaces (d : Dev) (source : Nat) : List (Nat × Word) :=
  if source = 601 then
    [(Reg.bilSealCnt, d.reg Reg.bilSealCnt), (Reg.glbMode, BitVec.ofNat 32 d.mode.code)]
  else []

/-- An event of the open tick goes to the recorder, or, while the recorder does not run, to the event hold of 16
places (R438, R439). -/
def Dev.logEvent (d : Dev) (e : TickEvent) : Dev :=
  if d.recording then d.onRec fun r => { r with events := r.events ++ [e] }
  else if d.recorder.held.length < 16 then
    d.onRec fun r => { r with
      held := r.held ++ [{ e with at? := some d.eventTick, places := d.capturedPlaces e.source }] }
  else d.onRec fun r => { r with heldLost := r.heldLost + 1 }

/-- A happening that a chapter states is recorded as an event, with no detail bit (R438, R440). -/
def Dev.happen (d : Dev) (source : Nat) (arg : Word := 0) (tenant : Option TenantId := none) : Dev :=
  d.logEvent { source := source, reg := 0xFF, bit := 0xFF, arg := arg, tenant := tenant, at? := none, places := [] }

def bumpRepeat (rs : List (Nat × Nat)) (source : Nat) : List (Nat × Nat) :=
  match rs with
  | [] => [(source, 1)]
  | r :: rest => if r.1 = source then (source, r.2 + 1) :: rest else r :: bumpRepeat rest source

/-- A detail bit is 1 for the event sources of the open tick: a host word that cleared it in this tick comes after them
(R99). -/
def Dev.bitHeld (d : Dev) (a bit : Nat) : Bool :=
  d.bit a bit || d.recorder.clearedNow.any fun x => x.1 == a && bitOf x.2 bit

/-- A detail bit is set (R438): from 0 to 1 it is an event; already 1, a repeat. Either way the tick has set it, so
that a clear of the same tick does not clear it (R100). -/
def Dev.raise (d : Dev) (e : EvReg) (bit : Nat) (arg : Word := 0) (tenant : Option TenantId := none) : Dev :=
  let d1 := d.onRec fun r => { r with setNow := (e.addr, bit) :: r.setNow }
  if d.bitHeld e.addr bit then
    (d1.setReg e.addr (d1.reg e.addr ||| oneBit bit)).onRec fun r => { r with repeats := bumpRepeat r.repeats (e.source bit) }
  else
    (d1.setReg e.addr (d1.reg e.addr ||| oneBit bit)).logEvent
      { source := e.source bit, reg := e.index, bit := bit, arg := arg, tenant := tenant.or e.tenant, at? := none,
        places := [] }

/-- A detail bit whose every occurrence a chapter states is recorded: the record is written even where the bit is
already 1 (R438). -/
def Dev.raiseAlways (d : Dev) (e : EvReg) (bit : Nat) (arg : Word := 0) (tenant : Option TenantId := none) : Dev :=
  if d.bitHeld e.addr bit then
    ((d.onRec fun r => { r with setNow := (e.addr, bit) :: r.setNow }).setReg e.addr (d.reg e.addr ||| oneBit bit)).logEvent
      { source := e.source bit, reg := e.index, bit := bit, arg := arg, tenant := tenant.or e.tenant, at? := none,
        places := [] }
  else d.raise e bit arg tenant

/-- A detail bit set under a condition. -/
def Dev.raiseIf (d : Dev) (c : Bool) (e : EvReg) (bit : Nat) (arg : Word := 0) : Dev :=
  if c then d.raise e bit arg else d

/-! ### Sections of the device -/

def Dev.onPower (d : Dev) (f : Power → Power) : Dev := { d with power := f d.power }
def Dev.onPacer (d : Dev) (f : Pacer → Pacer) : Dev := { d with pacer := f d.pacer }
def Dev.onHost (d : Dev) (f : HostPort → HostPort) : Dev := { d with host := f d.host }
def Dev.onBilling (d : Dev) (f : Billing → Billing) : Dev := { d with bill := f d.bill }
def Dev.onAlloc (d : Dev) (f : Allocation → Allocation) : Dev := { d with alloc := f d.alloc }
def Dev.onProtection (d : Dev) (f : Protection → Protection) : Dev := { d with prot := f d.prot }
def Dev.onSvc (d : Dev) (f : ServiceTag → ServiceTag) : Dev := { d with svc := f d.svc }
def Dev.onSec (d : Dev) (f : Security → Security) : Dev := { d with sec := f d.sec }
def Dev.onGrid (d : Dev) (f : Grid → Grid) : Dev := { d with grid := f d.grid }
def Dev.onDisp (d : Dev) (f : Display → Display) : Dev := { d with disp := f d.disp }
def Dev.onScroll (d : Dev) (f : Scroll → Scroll) : Dev := { d with scroll := f d.scroll }
def Dev.onKey (d : Dev) (k : Fin 2) (f : Key → Key) : Dev := { d with keys := d.keys.set k.1 (f (d.keys.get k)) }
def Dev.onTpo (d : Dev) (k : Fin 2) (f : TestPulse → TestPulse) : Dev :=
  { d with tpo := d.tpo.set k.1 (f (d.tpo.get k)) }
def Dev.onS0 (d : Dev) (k : Fin 4) (f : S0Input → S0Input) : Dev := { d with s0 := d.s0.set k.1 (f (d.s0.get k)) }
def Dev.onCfg (d : Dev) (f : Configuration → Configuration) : Dev := { d with cfg := f d.cfg }
def Dev.onUpd (d : Dev) (f : Update → Update) : Dev := { d with upd := f d.upd }
def Dev.onMem (d : Dev) (f : Memory → Memory) : Dev := { d with mem := f d.mem }
def Dev.onArc (d : Dev) (f : Archive → Archive) : Dev := { d with archive := f d.archive }

/-! ### Glass (R206, R458) -/

def dashCell : Nat := 16

/-- The starting legend (R462). -/
def legendContent (sc : Scroll) : Scroll := { sc with value := List.replicate 12 dashCell, bay := [], lamps := [130] }

def Dev.bistable (d : Dev) : Bool := d.bit Reg.lioDispCfg 31

end Sys2Proof.Machine
end

