-- ==== Sys2Proof/Machine/RecOps.lean ====
section
/-! DEFINITION. The event recorder's operations: the bytes of a record, the ring and its blocks, the last-word
table, pending sources and event lines, and the records that a tick closure writes (R436 to R446). -/

namespace Sys2Proof.Machine

/-- The 64 bytes of a snapshot: eight places of address and value (R440). -/
def snapshotBytes (ps : List (Word × Word)) : List Byte :=
  ((List.range 8).flatMap fun i =>
    match ps[i]? with
    | some p => bytesLE 4 p.1.toNat ++ bytesLE 4 p.2.toNat
    | none => bytesLE 4 0xFFFFFFFF ++ bytesLE 4 0)

/-- Bytes 0x00 to 0x6F of an event record (R440). -/
def EventRecord.body (e : EventRecord) : List Byte :=
  bytesLE 8 e.seq ++ bytesLE 4 e.opSeconds.toNat ++ bytesLE 4 e.cycles.toNat ++ bytesLE 8 e.tick ++
    bytesLE 2 e.source ++ bytesLE 1 e.reg ++ bytesLE 1 e.bit ++ bytesLE 4 e.arg.toNat ++ bytesLE 4 e.repeats.toNat ++
    bytesLE 2 e.dropped.toNat ++ bytesLE 1 e.cls ++ bytesLE 1 (b2n e.poison + 2 * b2n e.tenant) ++
    snapshotBytes e.snapshot ++ bytesLE 8 e.cal

/-- The 128 bytes of an event record (R440). -/
def EventRecord.bytes (e : EventRecord) : List Byte :=
  e.body ++ bytesLE 4 (crc32 e.body) ++ List.replicate 8 0 ++ bytesLE 4 e.seq

/-- Blocks of the ring in service (R444). -/
def Recorder.inService (r : Recorder) : Nat := ((List.finRange 64).filter fun b => !r.retired.getLsbD b.1).length

/-- Lowest SEQ still in the ring; the SEQ of the next record where the ring holds none (R442). -/
def Recorder.oldest (r : Recorder) : Nat := r.ring.foldl (fun m x => min m x.entry.seq) r.next

/-- The next entry of the last-word table (R446). -/
def Dev.lastWord (d : Dev) (code : Nat) (arg : Nat) : Dev :=
  let e : LastWord :=
    { cycles := d.reg Reg.pwrCycles, opSeconds := d.reg Reg.pwrOpSeconds, code := code, arg := BitVec.ofNat 16 arg,
      cal := if d.pacer.calSet then BitVec.ofNat 32 d.pacer.cal else 0 }
  d.onMem fun m => { m with
    lastWords := (List.range 16).filterMap fun i =>
      if i = m.lwNext.1 then some e else m.lastWords[i]?
    lwNext := m.lwNext + 1
    lwCount := min 16 (m.lwCount + 1) }

/-- The block after `b` in service, or `b` itself if there is no other. -/
def Recorder.nextBlock (r : Recorder) (b : Fin 64) : Fin 64 :=
  (((List.range 64).map fun i => b + 1 + (Fin.ofNat 64 i)).find? fun c => !r.retired.getLsbD c.1).getD b

/-- The ring moves on to another block; blocks that passed their retest rejoin here (R445). -/
def Recorder.toNextBlock (r : Recorder) : Recorder :=
  let r1 := { r with retired := r.retired &&& ~~~r.rejoin, rejoin := 0 }
  { r1 with headBlock := r1.nextBlock r1.headBlock, headPlace := 0 }

/-- An event record leaves the ring; if its NOR copy is still awaited, it is lost from NOR (R447). -/
def Recorder.awaits (r : Recorder) (seq : Nat) : Bool :=
  r.norWait.any fun w => match w with
    | .inr e => e.seq == seq
    | .inl _ => false

def Recorder.forget (r : Recorder) (seq : Nat) : Recorder :=
  { r with norWait := r.norWait.filter fun w => match w with
      | .inr e => e.seq != seq
      | .inl _ => true }

/-- Records that leave the ring before their copy is confirmed are counted and set NOR_LOST (R447). -/
def Dev.loseRecords (d : Dev) (seqs : List Nat) : Dev :=
  let lost := seqs.filter d.recorder.awaits
  let d1 := d.onRec fun r => lost.foldl Recorder.forget r
  if lost.isEmpty then d1 else (d1.count Reg.evrNorLostCnt lost.length).raise .evr 3

/-- A failed ring block is retired (R444). -/
def Dev.retireBlock (d : Dev) (b : Fin 64) : Dev :=
  let gone := (d.recorder.ring.filter fun x => x.block == b).map fun x => x.entry.seq
  let d1 := (d.onRec fun r => { r with
      ring := r.ring.filter fun x => x.block != b
      retired := r.retired ||| BitVec.ofNat 64 (2 ^ b.1)
      rejoin := r.rejoin &&& ~~~(BitVec.ofNat 64 (2 ^ b.1)) }).loseRecords gone
  let d2 := (d1.raise .evr 0).lastWord 2 b.1
  let d3 := if d2.recorder.headBlock = b then d2.onRec Recorder.toNextBlock else d2
  if d3.recorder.inService < 4 && !d3.recorder.dead then
    ((d3.onRec fun r => { r with dead := true }).raise .evr 1).lastWord 3 d3.recorder.inService
  else d3

/-- The 32 ledger words of a place of the ring (R432). -/
def ringWords (b : Fin 64) (p : Fin 256) : List Nat := (List.range 32).map fun i => (b.1 * 256 + p.1) * 32 + i

/-- A poisoned word of the ring lies at a place (R444). -/
def Dev.placePoisoned (d : Dev) (b : Fin 64) (p : Fin 256) : Bool :=
  (ringWords b p).any fun w => d.mem.poisonLedger.contains w

/-- A record is put into the ring at the place due, over the oldest one (R442), and waits for its copy in NOR
flash (R447). A block found poisoned at the write is retired first (R444). A dead ring takes no record. -/
def Dev.ringWrite (d : Dev) (e : EventRecord) : Dev :=
  let d0 := if d.placePoisoned d.recorder.headBlock d.recorder.headPlace && !d.recorder.dead then
      d.retireBlock d.recorder.headBlock else d
  let r := d0.recorder
  let gone := (r.ring.filter fun x => x.block == r.headBlock && x.place == r.headPlace).map fun x => x.entry.seq
  let d1 := if r.dead then d0 else
    (d0.loseRecords gone).onRec fun r => { r with
      ring := (r.ring.filter fun x => !(x.block == r.headBlock && x.place == r.headPlace)) ++
        [{ block := r.headBlock, place := r.headPlace, entry := e }] }
  let d2 := d1.onRec fun r => { r with norWait := r.norWait ++ [.inr e] }
  if r.dead then d2
  else if r.headPlace = 255 then d2.onRec Recorder.toNextBlock
  else d2.onRec fun r => { r with headPlace := r.headPlace + 1 }

/-- A consumer uses a poisoned word: counted, and the first address since the last read kept. -/
def Dev.consumePoison (d : Dev) (work : Bool) (word : Nat) : Dev :=
  let d1 := d.count Reg.memPoisonCnt
  if d.mem.poisonArmed then
    d1.onMem fun m => { m with poisonAddr := packWord [(31, 1, b2n work), (0, 28, 4 * word)], poisonArmed := false }
  else d1

/-- Class of the snapshot of a source (R441). -/
def snapClass (source : Nat) : Nat := if source < 576 then source % 4 else if source < 588 then 4 else 5

/-- Address that a snapshot entry names for a source (R441). -/
def snapAddr (source : Nat) (w : Word) : Nat :=
  if source < 576 ∧ bitOf w 31 then 0x1000000 + 0x10000 * (source / 4) + fieldOf w 0 16 else w.toNat

/-- The eight places of a record's snapshot (R441): the places captured with a held event or fixed for its source
first, then the entries of its class. -/
def Dev.snapshot (d : Dev) (view : Nat → Word) (e : TickEvent) : List (Word × Word) :=
  let fixed : List (Word × Word) :=
    if e.source = 601 then
      if e.places.isEmpty then
        [(BitVec.ofNat 32 Reg.bilSealCnt, view Reg.bilSealCnt), (BitVec.ofNat 32 Reg.glbMode, view Reg.glbMode)]
      else e.places.map fun p => (BitVec.ofNat 32 p.1, p.2)
    else if e.source = 602 ∨ e.source = 604 then
      match e.tenant with
      | some t => [(0xFFFFFFF0, BitVec.ofNat 32 t.1)]
      | none => []
    else []
  let entries := (List.range 8).map fun k =>
    let w := d.reg (Reg.evrSnap (snapClass e.source) k)
    if w = 0xFFFFFFFF then ((0xFFFFFFFF, 0) : Word × Word)
    else (BitVec.ofNat 32 (snapAddr e.source w), view (snapAddr e.source w))
  (fixed ++ entries).take 8

/-- REPEAT of a source, and the counts after it is carried (R438). -/
def repeatOf (rs : List (Nat × Nat)) (source : Nat) : Nat := ((rs.find? fun r => r.1 == source).map Prod.snd).getD 0

/-- One event of the closing tick written as a record (R438, R440). `poison` names the poisoned word behind an address; a snapshot that
uses one consumes it (R435). -/
def Dev.writeEvent (d : Dev) (view : Nat → Word) (poison : Nat → Option (Bool × Nat)) (e : TickEvent) : Dev :=
  let snap := d.snapshot view e
  let bad := snap.filterMap fun p => poison p.1.toNat
  let r : EventRecord :=
    { seq := d.recorder.next, opSeconds := d.reg Reg.pwrOpSeconds, cycles := d.reg Reg.pwrCycles,
      tick := e.at?.getD d.now, source := e.source, reg := e.reg, bit := e.bit, arg := e.arg,
      repeats := satWord (repeatOf d.recorder.repeats e.source),
      dropped := BitVec.ofNat 16 (min 0xFFFF (d.recorder.dropped + e.lost)), cls := snapClass e.source,
      poison := !bad.isEmpty, tenant := e.tenant.isSome,
      snapshot := snap, cal := if d.pacer.calSet then d.pacer.cal else 0 }
  ((bad.foldl (fun d x => d.consumePoison x.1 x.2) d).onRec fun x => { x with
    next := x.next + 1
    dropped := 0
    repeats := x.repeats.filter fun p => p.1 != e.source }).ringWrite r

/-- An event goes in before the first event of a higher source (R38). -/
def insertBySource (e : TickEvent) (es : List TickEvent) : List TickEvent :=
  match es with
  | [] => [e]
  | x :: xs => if e.source < x.source then e :: x :: xs else x :: insertBySource e xs

/-- Photo-finish order of the events of a tick: by source, and within one source as they came (R38, R39). -/
def photoFinish (es : List TickEvent) : List TickEvent := es.foldl (fun acc e => insertBySource e acc) []

/-- The OVERFLOW event of the tick before (R438). -/
def overflowEvent : TickEvent :=
  { source := 592, reg := 0, bit := 2, arg := 0, tenant := none, at? := none, places := [] }

/-- What the closing tick records, in order: an OVERFLOW record that is due, the events of the event hold in the
order of their own ticks, then the events of the tick in photo-finish order (R438, R439). -/
def Recorder.due (r : Recorder) : List TickEvent :=
  (if r.overflowDue then [overflowEvent] else []) ++ (r.events.filter fun e => e.at?.isSome) ++
    photoFinish (r.events.filter fun e => e.at?.isNone)

/-- The records of the closing tick: at most 64, the others counted (R438). -/
def Dev.closeEvents (d : Dev) (view : Nat → Word) (poison : Nat → Option (Bool × Nat)) : Dev :=
  let due := d.recorder.due
  let d1 := (due.take 64).foldl (fun d e => d.writeEvent view poison e) d
  let lost := due.length - 64
  let d2 := d1.onRec fun r => { r with events := [], setNow := [], clearedNow := [], overflowDue := false }
  if lost = 0 then d2
  else
    (d2.count Reg.evrDropCnt lost).onRec fun r => { r with
      dropped := r.dropped + lost
      overflowDue := !d2.bit Reg.evrEvents 2 }

/-- An overflow that a closure caused sets its bit in the tick that follows (R438). -/
def Dev.openTick (d : Dev) : Dev :=
  if d.recorder.overflowDue then d.setReg Reg.evrEvents (d.reg Reg.evrEvents ||| oneBit 2) else d

/-- The detail registers of a source, each with the bits that belong to it (R436). -/
def sourceRegs (s : Nat) : List (Nat × Word) :=
  let all : Word := 0xFFFFFFFF
  if s < 576 then
    let n := s / 4
    match s % 4 with
    | 0 => [(Reg.lnkEvents n, all), (Reg.prtLEvents n, all)]
    | 1 => [(Reg.metEvents n, all)]
    | 2 => [(Reg.vehEvents n, all), (Reg.tagLEvents n, all)]
    | _ => [(Reg.auxEvents n, all)]
  else if s < 584 then [(Reg.prtAvEvents, BitVec.ofNat 32 (0x101 * 2 ^ (s - 576)))]
  else match s with
    | 584 => [(Reg.prtRstEvents, all)]
    | 585 => [(Reg.prtSnEvents, all)]
    | 586 => [(Reg.prtTripoutEvents, all)]
    | 587 => [(Reg.prtEvents, all)]
    | 588 => [(Reg.pacEvents, all)]
    | 589 => [(Reg.pwrEvents, all)]
    | 590 => [(Reg.hptEvents, all)]
    | 591 => [(Reg.memEvents, all)]
    | 592 => [(Reg.evrEvents, all)]
    | 593 => [(Reg.memArcEvents, all)]
    | 594 => [(Reg.lioEvents, all)]
    | 600 => [(Reg.lioTpoEvents, all), (Reg.lioS0Events, all)]
    | 601 => [(Reg.bilEvents, all)]
    | 603 => [(Reg.alcEvents, all)]
    | 604 => [(Reg.tagEvents, all)]
    | 605 => [(Reg.tagSvcEvents, all)]
    | 606 => [(Reg.secEvents, all)]
    | 607 => [(Reg.grdEvents, all)]
    | 608 => [(Reg.cfgEvents, all)]
    | 609 => [(Reg.updEvents, all)]
    | _ => []

/-- A tenant's detail register holds a 1: source 602. -/
def Dev.tenantPending (d : Dev) : Bool :=
  d.regs.any fun e => decide (0x4000000 ≤ e.1 ∧ e.1 < 0x4400000 ∧ e.1 % 0x1000 = 8) && e.2 != 0

/-- A source is pending: one of its detail bits is 1 (R437). -/
def Dev.sourcePending (d : Dev) (s : Nat) : Bool :=
  if s = 602 then d.tenantPending else (sourceRegs s).any fun r => d.reg r.1 &&& r.2 != 0

/-- EVR_PENDk (R457). -/
def Dev.pendWord (d : Dev) (k : Nat) : Word :=
  BitVec.ofNat 32 (((List.range 32).map fun i => b2n (d.sourcePending (32 * k + i)) * 2 ^ i).sum)

/-- Enabled sources, ascending (R437). -/
def Dev.enabledSources (d : Dev) : List Nat :=
  (List.range 20).flatMap fun k =>
    let w := d.reg (Reg.evrEn k)
    if w = 0 then [] else ((List.range 32).filter fun i => bitOf w i && decide (32 * k + i < 610)).map fun i => 32 * k + i

/-- An event line is active: a source that is pending, enabled and routed to it (R437). -/
def Dev.lineActive (d : Dev) (sources : List Nat) (k : Nat) : Bool :=
  sources.any fun s => d.field (Reg.evrRoute (s / 16)) (2 * (s % 16)) 2 == k && d.sourcePending s

/-- The four event lines at a closure (R437), at the polarity of EVR_EVT_CFG; inactive in DORMANT and WAKING (R489). -/
def Dev.eventLines (d : Dev) : BitVec 4 :=
  let sources := d.enabledSources
  BitVec.ofNat 4 (((List.range 4).map fun k =>
    b2n ((d.recording && d.lineActive sources k) == d.bit Reg.evrEvtCfg k) * 2 ^ k).sum)

end Sys2Proof.Machine
end

