-- ==== Sys2Proof/Machine/LinkOps.lean ====
section
/-! DEFINITION. Operations of the head links: blocks and frames, block lock, the register channel, TRIP and
TRIP_RELEASE, training steps and the hold of a link (R110 to R142, R425). -/

namespace Sys2Proof.Machine

/-- The link carries frames in both directions and received frames are judged (R134 step 4, R135). -/
def LinkState.framed : LinkState → Bool
  | .confirm | .live | .held => true
  | _ => false

def Dev.live (d : Dev) (n : LinkId) : Bool := (d.link n).lnk.state == .live

/-- The link is LIVE or held: it has completed a training (R135, R137). -/
def Dev.trained (d : Dev) (n : LinkId) : Bool := (d.link n).lnk.state == .live || (d.link n).lnk.state == .held

/-! ### Blocks and frames -/

/-- CRC8 of a control block over payload bits 31:8 (R114). -/
def ctrlCrc (p : Word) : Nat := crcOf 8 0x07 0 ((wordBytes p).take 3)

def ctrlType (p : Word) : Nat := fieldOf p 24 8

def ctrlArg (p : Word) : BitVec 16 := BitVec.ofNat 16 (fieldOf p 8 16)

/-- The control block types of R115. -/
def ctrlTypes : List Nat := [0x01, 0x02, 0x10, 0x11, 0x12, 0x3C, 0x5A, 0xA5]

/-- A valid control block (R114, R115). -/
def ctrlOk (b : Block) : Bool :=
  b.header == 2 && ctrlCrc b.payload == fieldOf b.payload 0 8 && ctrlTypes.contains (ctrlType b.payload)

/-- A header that is neither data nor control (R113). -/
def badHeader (b : Block) : Bool := b.header == 0 || b.header == 3

/-- CRC-32 of a frame over the payloads of blocks 0 to 47, complemented (R117). -/
def frameCrc (bs : List Block) : Nat :=
  0xFFFFFFFF - crc32 ((bs.take 48).flatMap fun b => wordBytes b.payload)

def blockAt (bs : List Block) (k : Nat) : Block := bs.getD k { header := 0, payload := 0 }

/-- A received frame is valid (R117): PACE with the expected tick, data headers, CRC-32, END with the link number. -/
def frameValid (tick : Nat) (n : Nat) (bs : List Block) : Bool :=
  bs.length == 96 &&
    (ctrlOk (blockAt bs 0) && ctrlType (blockAt bs 0).payload == 0x01 &&
      ctrlArg (blockAt bs 0).payload == BitVec.ofNat 16 tick) &&
    ((bs.drop 1).take 47).all (fun b => b.header == 1) && (blockAt bs 94).header == 1 &&
    (blockAt bs 94).payload.toNat == frameCrc bs &&
    (ctrlOk (blockAt bs 95) && ctrlType (blockAt bs 95).payload == 0x02 &&
      ctrlArg (blockAt bs 95).payload == BitVec.ofNat 16 n)

/-- Invalid headers and invalid or unlisted control blocks in blocks 48 to 93 (R142). -/
def badCtrl (bs : List Block) : Nat :=
  (((bs.drop 48).take 46).filter fun b => badHeader b || b.header == 2 && !ctrlOk b).length

/-- Invalid headers among the newest 1,024 of a list of blocks. -/
def badIn (hdr : List Bool) : Nat := ((hdr.take 1024).filter id).length

/-- Block lock through a frame (R113): fewer than 64 invalid headers in every 1,024 consecutive blocks that end in it. `hdr` holds
the blocks up to the frame's last, newest first. Lock is held again as soon as that is so again, a DESIGN CHOICE. -/
def hasLock (hdr : List Bool) : Bool :=
  decide ((hdr.filter id).length < 64) || (List.range 96).all fun k => decide (badIn (hdr.drop k) < 64)

/-- Blocks kept for lock: the 1,024 that end at the first block of the newest frame. -/
def lockBlocks (bs : List Block) (old : List Bool) : List Bool := ((bs.map badHeader).reverse ++ old).take 1119

/-- The blocks of a device frame on a link, all 96 (R116, R117). -/
def FrameOut.blocks (f : FrameOut) (n : Nat) : List Block :=
  let ctrl := fun (type arg : Nat) =>
    let p : Word := packWord [(24, 8, type), (8, 16, arg)]
    ({ header := 2, payload := p ||| BitVec.ofNat 32 (ctrlCrc p) } : Block)
  let data := fun (w : Word) => ({ header := 1, payload := w } : Block)
  [ctrl 0x01 f.pace.toNat, data f.b1, data 0, data 0] ++ f.plc.map data ++ [data f.b28, data 0, data 0, data 0] ++
    [f.b32, f.b33, f.b34, f.b35, f.b36, f.b37, f.b38, 0, f.b40, f.b41, 0, 0, 0, 0, 0, 0].map data ++
    List.replicate 46 (data 0) ++ [data f.crc, ctrl 0x02 n]

/-- The frame with its CRC-32 (R117). -/
def FrameOut.sealed (f : FrameOut) (n : Nat) : FrameOut := { f with crc := BitVec.ofNat 32 (frameCrc (f.blocks n)) }

/-- Whether a list of block payloads agrees with a frame's block `k`. -/
def payloadAt (bs : List Block) (k : Nat) : Word := (blockAt bs k).payload

/-! ### The register channel -/

/-- The next request is issued if none is outstanding (R140): it takes the next TAG and the next device frame. -/
def LinkLayer.issue (l : LinkLayer) (now : Tick) : LinkLayer :=
  match l.request, l.waiting with
  | none, r :: rest =>
    { l with request := some { r with tag := l.tag + 1, since := now, carry := true }, waiting := rest,
             tag := l.tag + 1 }
  | _, _ => l

/-- A request in the order of issue (R140). One of the host goes behind those of the host that wait; where none waits, one request
of the device's own may stay ahead of it, the one in flight counted. -/
def LinkLayer.enqueue (l : LinkLayer) (r : HeadRequest) : LinkLayer :=
  let own := fun (x : HeadRequest) => x.purpose != .host
  if own r then { l with waiting := l.waiting ++ [r] }
  else
    let ahead := if l.waiting.all own then
        (if (l.request.map own).getD false then 0 else 1)
      else l.waiting.length - (l.waiting.reverse.takeWhile own).length
    { l with waiting := l.waiting.take ahead ++ r :: l.waiting.drop ahead }

/-- Requests of the device's own that go out next, behind those of the host (R140). -/
def LinkLayer.goNext (l : LinkLayer) (rs : List HeadRequest) : LinkLayer :=
  let ahead := l.waiting.length - (l.waiting.reverse.takeWhile fun x => x.purpose != .host).length
  { l with waiting := l.waiting.take ahead ++ rs ++ l.waiting.drop ahead }

/-- A request joins the link's requests (R140). -/
def Dev.queueReq (d : Dev) (n : LinkId) (p : RegPurpose) (addr : Nat) (write : Option Word) : Dev :=
  let r : HeadRequest := { purpose := p, addr := BitVec.ofNat 15 addr, write := write, tag := 0, since := d.now,
                           repeated := false, carry := false }
  d.onLnk n fun l => LinkLayer.issue (l.enqueue r) d.now

/-- The outstanding request is done, and the next one issued. -/
def Dev.reqDone (d : Dev) (n : LinkId) : Dev := d.onLnk n fun l => LinkLayer.issue { l with request := none } d.now

/-- Every request of a link that stops is dropped. -/
def LinkLayer.dropRequests (l : LinkLayer) : LinkLayer := { l with request := none, waiting := [] }

/-! ### TRIP and TRIP_RELEASE -/

/-- The link transmits: every state but OFF, and after a loss nothing until the next training (R137 step 2). -/
def Dev.transmits (d : Dev) (n : LinkId) : Bool := (d.link n).lnk.state != .off && (d.link n).lnk.state != .lost

/-- Three copies of a control block take the next block slots (R126). Which blocks they displace follows from the instant of the
decision within its tick, which is not modelled: a free value. A frame that loses a block outside 48 to 93 is not valid, and
contactor supervision does not count from it (R239). -/
def Dev.preemptWith (d : Dev) (n : LinkId) (p : Preempt) : Dev :=
  let lost := Config.displaced d.now n.1 false
  d.onLink n fun l => { l with
    lnk := { l.lnk with preempt := some p, spoiled := Config.displaced d.now n.1 true }
    con := { l.con with carried := l.con.carried.map fun t => if lost ∧ t = some d.now then none else t } }

/-- A TRIP of a class is inserted on a link with the next serial; while an earlier one is being repeated the class is
that of the union (R126, R130). LNK_TRIP_LAST shows the argument with its first repeat index. -/
def Dev.sendTrip (d : Dev) (n : LinkId) (cls : Nat) : Dev :=
  if d.transmits n then
    let l := (d.link n).lnk
    let serial := l.tripSerial + 1
    let c := match l.preempt with
      | some p => if p.release then cls else max cls p.cls
      | none => cls
    let arg := c * 2 ^ 14 + 1 * 2 ^ 12 + serial.toNat
    (((d.preemptWith n { release := false, cls := c, serial := serial }).onLnk n fun l => { l with tripSerial := serial }).setReg
      (Reg.lnkTripLast n) (packWord [(16, 16, d.now), (0, 16, arg)])).raise (.lnk n) 2 (BitVec.ofNat 32 arg)
  else d

/-- TRIP_RELEASE with the serial of the last TRIP (R128). -/
def Dev.sendRelease (d : Dev) (n : LinkId) : Dev :=
  if d.transmits n then
    d.preemptWith n { release := true, cls := 0, serial := (d.link n).lnk.tripSerial }
  else d

/-! ### Compatibility and the hold of a link -/

/-- The running compatibility list (R425): the confirmed manifest's, else the image's COMPAT section, else none. -/
def Dev.compatList (d : Dev) : Option (List Compat) :=
  match d.upd.compat with
  | some l => some l
  | none => if d.cfg.compatNone then none else some d.cfg.compat

/-- A head's firmware is inside the list (R425). -/
def Dev.versionOk (d : Dev) (headId fw : Word) : Bool :=
  match d.compatList with
  | none => true
  | some l => l.any fun c => c.subject == headId && c.min.toNat ≤ fw.toNat && fw.toNat ≤ c.max.toNat

def Role.code : Role → Nat
  | .unused => 0
  | .outlet => 1
  | .power => 2
  | .site => 3

/-- Reasons of R135 that hold a link once it has trained, in the order of R135. -/
def Dev.holdReasons (d : Dev) (n : LinkId) : List HeldWhy :=
  let l := (d.link n).lnk
  let role := (d.role n).code
  (if l.roleSeen.toNat ≠ role ∨ fieldOf l.headRole 0 2 ≠ l.roleSeen.toNat then [.roleMismatch] else []) ++
    (if l.headProto ≠ 1 ∨ fieldOf l.headRole 8 8 ≠ 1 then [.protocolMismatch] else []) ++
    (if 600000 < (d.reg (Reg.lnkRtt n)).toNat then [.rttLimit] else []) ++
    (if d.power.bringup = .done ∧ !d.versionOk (d.reg (Reg.lnkHeadId n)) (d.reg (Reg.lnkHeadFw n)) then
      [.versionMismatch] else [])

/-- Detail bit of a hold reason (R142). -/
def HeldWhy.bit : HeldWhy → Nat
  | .roleMismatch => 4
  | .protocolMismatch => 5
  | .rttLimit => 6
  | _ => 7

/-- A trained link is LIVE if nothing holds it: no reason of R135, and its thresholds read back as written (R291). -/
def Dev.settleLink (d : Dev) (n : LinkId) : Dev :=
  let l := d.link n
  if d.trained n then
    if l.lnk.heldWhy = .none ∧ l.prot.threshOk then d.onLnk n fun x => { x with state := .live }
    else if l.lnk.heldWhy ≠ .none then d.onLnk n fun x => { x with state := .held }
    else d
  else d

/-! ### Stopping and training -/

/-- Training begins: TRAIN_A is sent, the count of trainings goes up and LNK_FAIL_RX restarts (R134, R136, R142). -/
def Dev.beginTraining (d : Dev) (n : LinkId) : Dev :=
  ((d.onLnk n fun l => { l with state := .trainA, trainAt := d.now, retryAt := none, echoes := 0,
                                firstFrame := none, goodRun := 0, badRun := 0, heldWhy := .none, lapRxFail := none,
                                alarmSerial := none, roleSeen := 0, headProto := 0,
                                hdrBad := [], idReads := [], stg := 0 }).setReg (Reg.lnkFailRx n) 0).count
    (Reg.lnkTrainCnt n)

/-- The link stops; its requests are dropped. -/
def LinkLayer.stop (l : LinkLayer) (st : LinkState) (retry : Option Tick) : LinkLayer :=
  { l.dropRequests with state := st, retryAt := retry, goodRun := 0, badRun := 0, preempt := none, heldWhy := .none,
                          hdrBad := [], idReads := [] }

/-- A link that no longer carries frames bridges nothing (R148). -/
def Dev.endBridge (d : Dev) (n : LinkId) : Dev := d.onMet n fun m => { m with bridgeRun := 0, gapNow := false }

/-- A training fails: the link is stopped for 1 s (R136). -/
def Dev.failTraining (d : Dev) (n : LinkId) : Dev :=
  (d.onLnk n fun l => l.stop .off (some (d.now + secs 1))).raise (.lnk n) 3

/-- Contactors commanded closed on a link, as its device frame says it: none on a held link (R125). -/
def Dev.closeBits (d : Dev) (n : LinkId) : BitVec 16 :=
  if (d.link n).lnk.state == .held then 0 else (d.link n).cmd.close

end Sys2Proof.Machine
end

