-- ==== Sys2Proof/Machine/MetOps.lean ====
section
/-! DEFINITION. Operations of metrology: the decimation chain, calibration and the delay line, power and energy, planning
lap values, power quality, frequency, peaks and over-current runs (R143 to R173). -/

namespace Sys2Proof.Machine

/-! ### Arithmetic -/

/-- Division rounded half-even (R151). -/
def divHalfEven (a : Int) (b : Int) : Int :=
  let q := a / b
  let r := a % b
  if 2 * r < b then q else if b < 2 * r then q + 1 else if q % 2 = 0 then q else q + 1

/-- Integer square root by bisection over the bits, highest first. -/
def sqrtBits : Nat → Nat → Nat → Nat
  | 0, _, r => r
  | k + 1, n, r => if (r + 2 ^ k) * (r + 2 ^ k) ≤ n then sqrtBits k n (r + 2 ^ k) else sqrtBits k n r

/-- Integer square root, floor (R161). -/
def isqrt (n : Nat) : Nat := sqrtBits 64 n 0

def dot (cs xs : List Int) : Int := ((cs.zip xs).map fun p => p.1 * p.2).sum

/-! ### Decimation (R145) -/

/-- One moving sum over 125 places, as a convolution of coefficients. -/
def boxConv (cs : List Int) : List Int :=
  (List.range (cs.length + 124)).map fun i => ((cs.drop (i - 124)).take (i + 1 - (i - 124))).sum

/-- The 497 coefficients of the fourth-order sinc filter that decimates by 125. -/
def sinc4 : List Int := boxConv (boxConv (boxConv (List.replicate 125 1)))

/-- A modulator bit enters as +1 or −1. -/
def bitSign (b : Bool) : Int := if b then 1 else -1

/-- A stage 1 output from the bits of its window, newest first. -/
def stage1 (bits : List Bool) : Int := divHalfEven (dot sinc4 (bits.map bitSign) * 2 ^ 23) (125 ^ 4)

/-- The taps of stage 2: 128 taps, Kaiser window β = 10, cut-off 14,000/160,000, scaled to 2^24. -/
def taps2 : List Int :=
    [-10, 12, 68, 152, 225, 226, 90, -215, -645, -1059, -1241, -960, -85, 1306, 2860, 3984, 4002, 2415, -808,
    -5035, -8982, -10997, -9596, -4115, 4753, 14793, 22645, 24736, 18577, 4001, -16120, -36107] ++
    [-48809, -47819, -29978, 2691, 42443, 77199, 93778, 82261, 40164, -25052, -96376, -150991, -166776, -129912,
    -41249, 80898, 203130, 284721, 289250, 197167, 15586, -218104, -440818, -576433, -554018, -327250, 110129,
    717392, 1411010, 2079740, 2607445, 2898320] ++
    [2898318, 2607445, 2079740, 1411010, 717392, 110129, -327250, -554018, -576433, -440818, -218104, 15586,
    197167, 289250, 284721, 203130, 80898, -41249, -129912, -166776, -150991, -96376, -25052, 40164, 82261, 93778,
    77199, 42443, 2691, -29978, -47819, -48809] ++
    [-36107, -16120, 4001, 18577, 24736, 22645, 14793, 4753, -4115, -9596, -10997, -8982, -5035, -808, 2415, 4002,
    3984, 2860, 1306, -85, -960, -1241, -1059, -645, -215, 90, 226, 225, 152, 68, 12, -10]

/-- The taps of stage 3: 64 taps, cut-off 3,500/32,000. -/
def taps3 : List Int :=
    [20, 175, 472, 633, 83, -1672, -4312, -6108, -4246, 3448, 15901, 27010, 26871, 7021, -31991, -75223, -95487,
    -65525, 23302, 145554, 241308, 237681, 87874, -189011, -490115, -649887, -500014, 52834, 966241, 2050755,
    3021060, 3593954] ++
    [3593958, 3021060, 2050755, 966241, 52834, -500014, -649887, -490115, -189011, 87874, 237681, 241308, 145554,
    23302, -65525, -95487, -75223, -31991, 7021, 26871, 27010, 15901, 3448, -4246, -6108, -4312, -1672, 83, 633,
    472, 175, 20]

/-- An FIR output as a signed 24-bit value. -/
def firOut (taps xs : List Int) : Int :=
  let e := dot taps xs
  let q := if e % 2 ^ 24 ≠ 0 ∧ Config.firUp e then e / 2 ^ 24 + 1 else e / 2 ^ 24
  max (-(2 ^ 23)) (min (2 ^ 23 - 1) q)

/-- Index of the raw sample at 32 kS/s whose last bit a sample point's tick holds (R24, R146). -/
def sampleIndex (tick : Nat) : Nat := (20 * tick + 19 - 624) / 625

/-- A tick on which a sample point falls (R24). -/
def isSamplePoint (tick : Nat) : Bool := [31, 62, 93, 124].contains (tick % 125)

/-- The first tick, from `t` on, on which a sample point falls. -/
def nextSample (t : Tick) : Tick :=
  let r := t % 125
  t - r + (([31, 62, 93, 124].find? fun p => decide (r ≤ p)).getD 124)

/-- The five stage 1 outputs of a sample point and its stage 2 output, of a channel whose newest bit has index
`nbits − 1` (R145, R146). -/
def Channel.decimate (c : Channel) (nbits k : Nat) : Channel :=
  let skip := nbits - (625 * k + 625)
  let s1 := [4, 3, 2, 1, 0].foldl (fun acc j => stage1 (c.bits.drop (skip + 125 * j)) :: acc) c.s1
  { c with s1 := s1.take 128, s2 := (firOut taps2 s1 :: c.s2).take 64 }

/-! ### Calibration (R150 to R153) -/

/-- The five words of a channel's calibration set: OFFSET, GAIN, TC, PHASE, TREF. -/
structure CalSet where
  offset : Int
  gain   : Nat
  tc1    : Int
  tc2    : Int
  phase  : Int
  tsel   : Nat
  tref   : Int
  deriving DecidableEq, Repr

/-- A calibration set from its five words as MET_CALk registers hold them (R177). -/
def calOfWords (ws : List Word) : CalSet :=
  let w := fun i => ws.getD i 0
  { offset := sfieldOf (w 0) 0 24, gain := (w 1).toNat, tc1 := sfieldOf (w 2) 0 16, tc2 := sfieldOf (w 2) 16 16,
    phase := sfieldOf (w 3) 0 16, tsel := fieldOf (w 3) 16 2, tref := sfieldOf (w 4) 0 16 }

/-- The factory words of a channel: the FACTORY_CAL entry of the head model, else the values of R401. -/
def Dev.factoryWords (d : Dev) (n : LinkId) (ch : Nat) : List Word :=
  match d.cfg.factory.find? fun f =>
      f.headId == d.reg (Reg.lnkHeadId n) && f.role.toNat == (d.role n).code && f.channel.toNat == ch with
  | some f => f.words
  | none => [0, 0x01000000, 0, 0x20000, 0]

/-- Address of word `i` of MET_CALk. -/
def calAddr (n : LinkId) (ch i : Nat) : Nat := 0x1001200 + 0x10000 * n.1 + 0x20 * ch + 4 * i

/-- Whether a channel's sealed set has been committed (R150). -/
def Dev.sealedCal (d : Dev) (n : LinkId) (ch : Nat) : Bool := (d.link n).met.sealedCh.getLsbD ch

/-- The words MET_CALk reads: the sealed set, or the factory values while none has been committed (R150). -/
def Dev.calWords (d : Dev) (n : LinkId) (ch : Nat) : List Word :=
  if d.sealedCal n ch then d.words (calAddr n ch 0) 5 else d.factoryWords n ch

/-- The calibration in use: the factory set in STARTING BLOCK, else the words of MET_CALk (R150). -/
def Dev.calInUse (d : Dev) (n : LinkId) (ch : Nat) : CalSet :=
  calOfWords (if d.mode = .startingBlock then d.factoryWords n ch else d.calWords n ch)

/-- Channels that a role carries (R143). -/
def Role.channels : Role → Nat
  | .unused => 0
  | .outlet | .power => 4
  | .site => 8

/-- Channels judged for CAL_SRC: carried by the role and enabled (R150). -/
def Dev.judgedChannels (d : Dev) (n : LinkId) : List Nat :=
  (List.range (d.role n).channels).filter fun ch => d.bit (Reg.metCfg n) (24 + ch)

/-- CAL_SRC: every judged channel uses its sealed set (R150). -/
def Dev.calSrc (d : Dev) (n : LinkId) : Bool :=
  d.mode != .startingBlock && (d.judgedChannels n).all fun ch => d.sealedCal n ch

/-- Sensor reading that TSEL selects, none for "no sensor" (R152). -/
def sensorOf (hs : HeadStatus) (tsel : Nat) : Option (BitVec 16) :=
  match tsel with
  | 0 => some (BitVec.ofNat 16 (fieldOf hs.b36 16 16))
  | 1 => some (BitVec.ofNat 16 (fieldOf hs.b36 0 16))
  | _ => none

/-- The sensor that a set selects reads 0x8000 (R152). -/
def tempDefault (cal : CalSet) (hs : HeadStatus) : Bool := sensorOf hs cal.tsel == some 0x8000

/-- Temperature difference d of R151. -/
def tempDiff (cal : CalSet) (hs : HeadStatus) : Int :=
  match sensorOf hs cal.tsel with
  | some t => if t = 0x8000 then 0 else t.toInt - cal.tref
  | none => 0

/-- Uncompensated calibrated sample y0 of R151. -/
def calSample (cal : CalSet) (dT x : Int) : Int :=
  let g := (cal.gain : Int) + divHalfEven ((cal.gain : Int) * (100 * cal.tc1 * dT + cal.tc2 * dT * dT)) (10 ^ 11)
  divHalfEven ((x - cal.offset) * g) (2 ^ 24)

/-- Lagrange coefficient to 30 fractional bits of the node at delay `nd`, among `nodes`, for a delay `u / m` (R153). -/
def lagrange (nodes : List Int) (u m : Int) (nd : Int) : Int :=
  let others := nodes.filter fun e => e ≠ nd
  divHalfEven ((others.map fun e => u - e * m).prod * 2 ^ 30 * (if (others.map fun e => nd - e).prod < 0 then -1 else 1))
    (m ^ 3 * ((others.map fun e => nd - e).prod.natAbs : Int))

/-- The delayed sample y of R151 and R153 from the samples y0, newest first; `m` is 1,024 at 32 kS/s and 4,096 at
8 kS/s. -/
def delayed (cal : CalSet) (m : Nat) (ys : List Int) : Int :=
  let t := (8192 + max (-8191) (min 8191 cal.phase)).toNat
  let dly : Int := (t / m : Nat)
  let nodes : List Int := if dly = 0 then [0, 1, 2, 3] else [dly - 1, dly, dly + 1, dly + 2]
  divHalfEven ((nodes.map fun nd => lagrange nodes t m nd * ys.getD nd.toNat 0).sum) (2 ^ 30)

/-! ### Samples -/

/-- Sample weight: a sample at 8 kS/s counts four (R158, R161). -/
def Metrology.weight (m : Metrology) : Nat := if m.fast then 1 else 4

/-- A channel kind of current whose samples judge over-current (R166). -/
def ocChannel (r : Role) (ch : Nat) : Bool :=
  match r with
  | .outlet | .power => ch == 1
  | .site => ch == 3 || ch == 4 || ch == 5
  | .unused => false

/-- A calibrated sample enters the channel's sums, peaks and last samples (R161, R165, R166). -/
def Channel.take (c : Channel) (y : Int) (w : Nat) (ocLim : Nat) (oc : Bool) : Channel :=
  { c with
    last := (y :: c.last).take 32
    sum := c.sum + w * y
    sumSq := c.sumSq + w * y.natAbs * y.natAbs
    pkMax := some (match c.pkMax with | some p => max p y | none => y)
    pkMin := some (match c.pkMin with | some p => min p y | none => y)
    ocRun := if oc && ocLim ≠ 0 && ocLim < y.natAbs then c.ocRun + 1 else 0
    ocDone := oc && ocLim ≠ 0 && ocLim < y.natAbs && c.ocDone }

/-- The value of an Expert register in force: while its function is held, the value it had when the hold began (R170,
R407). -/
def Dev.setting (d : Dev) (a : Nat) : Word :=
  match (d.cfg.slots.toList.filterMap id).findSome? fun s => (s.saved.find? fun p => p.1 == a).map Prod.snd with
  | some w => w
  | none => d.reg a

/-- A field of an Expert register in force. -/
def Dev.settingField (d : Dev) (a lo width : Nat) : Nat := fieldOf (d.setting a) lo width

/-- OC_LIM in channel units of 10 µA; 0.1 A is 10,000 of them (R166, R177). -/
def Dev.ocLim (d : Dev) (n : LinkId) : Nat := d.settingField (Reg.metXOc n) 0 16 * 10000

/-- Samples in a row above OC_LIM that make a decision, at the rate in force (R166). -/
def Dev.ocCount (d : Dev) (n : LinkId) : Nat :=
  let c := d.settingField (Reg.metXOc n) 16 8
  if (d.link n).met.fast then c else (c + 3) / 4

/-- The power product of a sample pair (R156). -/
def powerOf (r : Role) (y : Nat → Int) : Int :=
  match r with
  | .outlet | .power => y 0 * y 1
  | .site => y 0 * y 3 + y 1 * y 4 + y 2 * y 5
  | .unused => 0

/-- The energy gate of a link (R157), by the status fields of its last valid frame. -/
def gateOpen (r : Role) (hs : HeadStatus) : Bool :=
  match r with
  | .outlet => hs.fb != 0
  | .power => fieldOf hs.b39 30 2 == 2 || hs.fb != 0
  | .site => true
  | .unused => false

/-- Units of the remainder that make one µJ (R158). -/
def perUj : Nat := 320000000

def Energy.add (e : Energy) (p : Nat) : Energy :=
  { uj := e.uj + (e.rem + p) / perUj, rem := (e.rem + p) % perUj }

/-- Energy of one gated sample goes to the totals, or in MAINTENANCE to the test energy (R158, R160). -/
def Metrology.accumulate (m : Metrology) (maint : Bool) (p : Int) : Metrology :=
  let q : Int := (m.weight : Int) * p
  if maint then
    let t : Int := m.testRem + q
    { m with testUj := m.testUj + t / perUj, testRem := (t % perUj).toNat }
  else if 0 < p then { m with imp := m.imp.add q.natAbs }
  else if p < 0 then { m with exp := m.exp.add q.natAbs }
  else m

/-! ### Test pulses (R172, R173) -/

/-- Accumulator units of one pulse. -/
def perPulse : Nat := 1152000000000000000

/-- LIO_TPOm_X. -/
def tpoReg (k : Fin 2) : Nat := if k = 0 then Reg.lioTpo0X else Reg.lioTpo1X

def tpoCnt (k : Fin 2) : Nat := if k = 0 then Reg.lioTpo0Cnt else Reg.lioTpo1Cnt

/-- A CONST of 0 or above 100,000 disables an output (R172). -/
def tpoConstOk (w : Word) : Bool := fieldOf w 0 17 != 0 && fieldOf w 0 17 ≤ 100000

/-- CONST_BAD is set for an enabled output whose CONST disables it (R172), as its settings come into force. -/
def Dev.tpoCheck (d : Dev) : Dev :=
  d.each [0, 1] fun d k => d.raiseIf (bitOf (d.setting (tpoReg k)) 31 && !tpoConstOk (d.setting (tpoReg k))) .tpo (4 + k.1)

/-- Pulses queued one after another: each is counted; the backlog holds 65,535 (R173). -/
def Dev.queuePulses (d : Dev) (k : Fin 2) : Nat → Dev
  | 0 => d
  | c + 1 =>
    let b := (d.tpo.get k).backlog
    let d1 := d.setReg (tpoCnt k) (d.reg (tpoCnt k) + 1)
    let d2 := if b < 65535 then
        (d1.onTpo k fun t => { t with backlog := b + 1 }).raiseIf (1 < b + 1) .tpo k.1
      else d1.raise .tpo (2 + k.1)
    Dev.queuePulses d2 k c

/-- The level of an output's pin: POL = 0 makes the active level high (R172). -/
def Dev.tpoPin (d : Dev) (k : Fin 2) : Dev := d.onTpo k fun t => { t with pin := t.active != bitOf (d.setting (tpoReg k)) 30 }

/-- An output is enabled and its pulses run (R172): EN, a CONST and a QTY that do not disable it, the mode, and 32 kS/s. -/
def Dev.tpoRuns (d : Dev) (k : Fin 2) : Bool :=
  let w := d.setting (tpoReg k)
  bitOf w 31 && tpoConstOk w && fieldOf w 28 2 != 3 && (d.mode == .run || d.mode == .economy || d.mode == .maintenance) &&
    ((linkOfNat (fieldOf w 20 8)).map fun n => (d.link n).met.fast).getD false

/-- A gated sample of a link enters the accumulators of the outputs that name it (R172). -/
def Dev.tpoSample (d : Dev) (n : LinkId) (p : Int) : Dev :=
  d.each [0, 1] fun d k =>
    let w := d.setting (tpoReg k)
    let qty := fieldOf w 28 2
    let sel := qty = 0 ∧ 0 < p ∨ qty = 1 ∧ p < 0 ∨ qty = 2
    if d.tpoRuns k ∧ fieldOf w 20 8 = n.1 ∧ sel then
      let acc := (d.tpo.get k).acc + fieldOf w 0 17 * p.natAbs
      (d.onTpo k fun t => { t with acc := acc % perPulse }).queuePulses k (acc / perPulse)
    else d

/-! ### Power quality and frequency at site heads (R162, R163) -/

/-- Half-cycle sums of a voltage channel; a zero crossing closes a half. Two whole halves make the cycle that refreshes
Urms(½): the half that ran when the samples began is none. -/
def Channel.halfCycle (c : Channel) (y : Int) : Channel × Bool :=
  let neg := decide (y < 0)
  if neg != c.neg then
    let cycle := c.whole && c.halfN != 0
    ({ c with
        urms := if cycle then some (isqrt ((c.halfSq + c.curSq) / (c.halfN + c.curN))) else c.urms
        halfSq := if c.whole then c.curSq else 0, halfN := if c.whole then c.curN else 0
        curSq := y.natAbs * y.natAbs, curN := 1, neg := neg, whole := true }, cycle)
  else ({ c with curSq := c.curSq + y.natAbs * y.natAbs, curN := c.curN + 1 }, false)

/-- Urms(½) of a phase in 0.1 % of UDECL. -/
def permille (u udecl : Nat) : Nat := if udecl = 0 then 0 else u * 1000 / (udecl * 10000)

/-- One kind of event after a refresh of a phase's Urms(½): begun, continued with its extreme, or ended. `low` tells a
dip from a swell. Answers the event now in progress and the one that ended. -/
def pqStep (low : Bool) (ev : Option PqEvent) (now : Tick) (ph : Nat) (us : List (Option Nat)) (udecl lim back : Nat) :
    Option PqEvent × Option PqEvent :=
  let out := fun (u : Option Nat) => match u with
    | some v => if low then decide (v * 1000 < lim * udecl * 10000) else decide (lim * udecl * 10000 < v * 1000)
    | none => false
  let inside := us.all fun u => match u with
    | some v => if low then decide (back * udecl * 10000 ≤ v * 1000) else decide (v * 1000 ≤ back * udecl * 10000)
    | none => true
  let mask := BitVec.ofNat 3 (((List.range 3).map fun i => b2n (out (us.getD i none)) * 2 ^ i).sum)
  let worst := (us.filterMap id).foldl (fun a v => if low then min a (permille v udecl) else max a (permille v udecl))
    (if low then 65535 else 0)
  match ev with
  | none =>
    if mask ≠ 0 then (some { phases := mask, first := ph, start := now, halves := 0, extreme := worst }, none)
    else (none, none)
  | some e =>
    let e1 := { e with phases := e.phases ||| mask, extreme := if low then min e.extreme worst else max e.extreme worst,
                       halves := if ph = e.first then e.halves + 1 else e.halves }
    if inside then (none, some e1) else (some e1, none)

/-- A dip (kind 1) or a swell (kind 2) that ends is recorded (R163). -/
def Dev.pqEnd (d : Dev) (n : LinkId) (kind : Nat) (e : PqEvent) : Dev :=
  let d1 := ((d.setReg (Reg.metPqLast0 n) (packWord [(30, 2, kind), (24, 3, e.phases.toNat), (0, 16, min 65535 e.extreme)])).setReg
      (Reg.metPqLast1 n) (BitVec.ofNat 32 e.start)).setReg (Reg.metPqLast2 n) (BitVec.ofNat 32 (min 65535 e.halves))
  if kind = 1 then (d1.count (Reg.metDipCnt n)).raise (.met n) 5 else (d1.count (Reg.metSwellCnt n)).raise (.met n) 6

/-- The voltage channels of a site head after a sample: half-cycles, dips and swells. -/
def Dev.pqSample (d : Dev) (n : LinkId) (ys : List Int) : Dev :=
  d.each [0, 1, 2] fun d ph =>
    let c := ((d.link n).met.chans.toList.getD ph Channel.reset).halfCycle (ys.getD ph 0)
    let d1 := d.onMet n fun m => { m with chans := if h : ph < 8 then m.chans.set ph c.1 else m.chans }
    if c.2 then
      let us := ((d1.link n).met.chans.toList.take 3).map fun x => x.urms
      let pq := d1.setting (Reg.metXPq n)
      let hyst := d1.settingField (Reg.metXPq2 n) 0 8
      let dip := pqStep true (d1.link n).met.dip d1.now ph us (fieldOf pq 0 16) (10 * fieldOf pq 16 8)
        (10 * fieldOf pq 16 8 + hyst)
      let swl := pqStep false (d1.link n).met.swell d1.now ph us (fieldOf pq 0 16) (10 * fieldOf pq 24 8)
        (10 * fieldOf pq 24 8 - hyst)
      let d2 := d1.onMet n fun m => { m with dip := dip.1, swell := swl.1 }
      let d3 := match dip.2 with | some e => d2.pqEnd n 1 e | none => d2
      match swl.2 with | some e => d3.pqEnd n 2 e | none => d3
    else d1

/-- A sample of voltage channel `i` of a site link: positive zero crossings of the filtered voltage, in 2^-10 of a 32 kS/s
sample (R162). -/
def Metrology.crossSample (m : Metrology) (k : Nat) (i : Fin 3) (y : Int) : Metrology :=
  let was := m.filtered.get i
  let f := Config.lowPass200 was y
  let m1 := { m with filtered := m.filtered.set i.1 f }
  if was < 0 ∧ 0 ≤ f then
    let w := m.weight
    let at_ := (k - w) * 1024 + w * (divHalfEven (1024 * (-was)) (f - was)).toNat
    { m1 with crossings := m.crossings.set i.1 (at_ :: (m.crossings.get i).filter fun c => k * 1024 < c + 32000 * 1024) }
  else m1

/-- MET_FREQ in mHz: whole cycles of L1 over their time, half-even, 0 outside 45 Hz to 65 Hz (R162). -/
def Metrology.freq (m : Metrology) (k : Nat) : Nat :=
  let cs := (m.crossings.get 0).filter fun c => k * 1024 < c + 32000 * 1024
  match cs, cs.getLast? with
  | a :: _ :: _, some b =>
    let f := (divHalfEven ((cs.length - 1 : Nat) * 32000 * 1024 * 1000) (a - b : Nat)).toNat
    if 45000 ≤ f ∧ f ≤ 65000 then f else 0
  | _, _ => 0

/-! ### One link at a sample point -/

/-- The frame of the open tick is missing on a link that is framed: the bits of the last valid frame stand in for the
missing ones (R131, R148). -/
def Metrology.bridge (m : Metrology) (tick : Tick) : Metrology :=
  { m with
    chans := m.chans.map fun c => { c with bits := (c.lastTick ++ c.bits).take 1040 }
    nbits := 20 * tick + 20, replaced := some (20 * tick + 19), bridgeRun := m.bridgeRun + 1, gapNow := true,
    flags := if 2 < m.bridgeRun + 1 then { m.flags with gapLong := true } else m.flags }

/-- The 20 bits of each channel from a valid frame, newest first in each list (R118, R144). -/
def Metrology.takeBits (m : Metrology) (tick : Tick) (bits : Nat → List Bool) : Metrology :=
  { m with
    chans := Vector.ofFn fun k : Fin 8 =>
      { m.chans.get k with bits := (bits k.1 ++ (m.chans.get k).bits).take 1040, lastTick := bits k.1 }
    nbits := 20 * tick + 20, bridgeRun := 0, gapNow := false }

/-- The window of the newest raw sample holds a replaced bit (R148). -/
def Metrology.bridgedSample (m : Metrology) (k : Nat) : Bool :=
  match m.replaced with
  | some r => 625 * k + 624 < r + (if m.fast then 16372 else 55747)
  | none => false

/-- A raw sample above 0.9 of full scale (R149). -/
def saturated (x : Int) : Bool := 9 * 2 ^ 23 < 10 * x.natAbs

/-- Every channel of a link decimated, calibrated and delayed at a sample point. Both delay lines run. -/
def Dev.channelSamples (d : Dev) (n : LinkId) (k : Nat) : Vector Channel 8 :=
  let l := d.link n
  Vector.ofFn fun i : Fin 8 =>
    let c := (l.met.chans.get i).decimate l.met.nbits k
    if i.1 < (d.role n).channels then
      let cal := d.calInUse n i.1
      let dT := tempDiff cal l.hs
      let c1 := { c with y32 := (calSample cal dT (c.s2.headD 0) :: c.y32).take 20,
                         tempDef := tempDefault cal l.hs }
      if k % 4 = 3 then { c1 with y8 := (calSample cal dT (firOut taps3 c1.s2) :: c1.y8).take 20 } else c1
    else c

/-- The calibrated sample of a channel at the rate in force. -/
def Dev.sampleOf (d : Dev) (n : LinkId) (fast : Bool) (c : Channel) (i : Nat) : Int :=
  let cal := d.calInUse n i
  if fast then delayed cal 1024 c.y32 else delayed cal 4096 c.y8

/-- The raw sample of a channel at the rate in force. -/
def rawOf (fast : Bool) (c : Channel) : Int := if fast then c.s2.headD 0 else firOut taps3 c.s2

/-- MET_EVENTS and lap flags of one raw sample: BRIDGED, SAT, TEMP_DEFAULT (R148, R149, R152). -/
def Dev.sampleFlags (d : Dev) (n : LinkId) (bridged : Bool) (sats : Nat) (tempNow : Bool) : Dev :=
  let m := (d.link n).met
  let d1 := d.onMet n fun x => { x with
    flags := { x.flags with bridged := x.flags.bridged || bridged, sat := x.flags.sat || sats != 0,
                            tempDefault := x.flags.tempDefault || tempNow }
    bridgedCnt := satTo 32 (x.bridgedCnt + b2n bridged), tempDefault := tempNow }
  let d2 := d1.raiseIf bridged (.met n) 2
  let d3 := d2.each (List.range sats) fun d _ => d.raise (.met n) 3
  d3.raiseIf (tempNow && !m.tempDefault) (.met n) 4

/-- A raw sample of a link is formed, calibrated and accumulated at a sample point (R146 to R158). At 8 kS/s a sample
falls at every fourth sample point. -/
def Dev.linkSample (d : Dev) (n : LinkId) : Dev :=
  let k := sampleIndex d.now
  let chans := d.channelSamples n k
  let d0 := d.onMet n fun m => { m with chans := chans }
  let m := (d0.link n).met
  if m.fast ∨ k % 4 = 3 then
    let role := d0.role n
    let count := role.channels
    let ys := (List.range count).map fun i => d0.sampleOf n m.fast (m.chans.toList.getD i Channel.reset) i
    let y := fun i => ys.getD i 0
    let sats := ((List.range count).filter fun i => saturated (rawOf m.fast (m.chans.toList.getD i Channel.reset))).length
    let temp := (List.range count).any fun i => (m.chans.toList.getD i Channel.reset).tempDef
    let p := powerOf role y
    let lim := d0.ocLim n
    let d1 := d0.onMet n fun m => { m with
      chans := Vector.ofFn fun i : Fin 8 =>
        if i.1 < count then
          let c := (m.chans.get i).take (y i.1) m.weight lim (ocChannel role i.1)
          if role = .site ∧ i.1 < 6 then { c with hist := (y i.1 :: c.hist).take 6400 } else c
        else m.chans.get i
      planN := m.planN + m.weight, planP := m.planP + m.weight * p
      planPh := Vector.ofFn fun i : Fin 3 =>
        if role = .site then m.planPh.get i + m.weight * (y i.1 * y (3 + i.1)) else 0 }
    let d2 := d1.sampleFlags n (m.bridgedSample k) sats temp
    let d3 := d2.onMet n fun m => { m with ocNow := (m.chans.toList.any fun c => 0 < c.ocRun) }
    let d4 := if gateOpen role (d3.link n).hs && d3.mode != .startingBlock then
        (d3.onMet n fun m => m.accumulate (d3.mode == .maintenance) p).tpoSample n p
      else d3
    if role = .site then
      let d5 := (d4.pqSample n ys).onMet n fun m => (List.finRange 3).foldl (fun m i => m.crossSample k i (y i.1)) m
      let begun := ((d5.link n).met.crossings.get 0).head? != (m.crossings.get 0).head?
      applyIf (begun && decide (d5.field Reg.grdCfg 8 8 = n.1)) (fun d => d.onGrid fun g => { g with cycle := g.cycle + 1 }) d5
    else d4
  else d0

/-- A link gives samples while it is trained (R134 step 4). -/
def Dev.sampleLink (d : Dev) (n : LinkId) : Dev :=
  let d1 := d.onMet n fun m => { m with impWas := m.imp.uj, expWas := m.exp.uj }
  applyIf (d.trained n) (fun d => d.linkSample n) d1

/-- Metrology integers of a link at the open tick: the samples of the ticks before it (R180). -/
def Dev.ujAt (d : Dev) (n : LinkId) : Nat × Nat :=
  let m := (d.link n).met
  if d.pacer.sampledAt = some d.now then (m.impWas, m.expWas) else (m.imp.uj, m.exp.uj)

/-! ### Planning laps and laps -/

/-- Mean power of the running planning lap in W, once it has a sample (R161). -/
def Metrology.planPower (m : Metrology) : Option Int :=
  if m.planN = 0 then none else some (divHalfEven m.planP ((m.planN : Int) * 10 ^ 10))

/-- RMS, DC and power of the planning lap that ends, and a new one begun (R161). -/
def Dev.latchPlanning (d : Dev) (n : LinkId) : Dev :=
  let m := (d.link n).met
  let N : Int := m.planN
  let mean := fun (s : Int) => if m.planN = 0 then 0 else divHalfEven s N
  let watts := fun (s : Int) => if m.planN = 0 then 0 else divHalfEven s (N * 10 ^ 10)
  let d1 := d.each (List.range (d.role n).channels) fun d i =>
    let c := m.chans.toList.getD i Channel.reset
    (d.setReg (Reg.metRms n i) (BitVec.ofNat 32 (if m.planN = 0 then 0 else isqrt (c.sumSq / m.planN)))).setReg
      (Reg.metDc n i) (wordOfInt (mean c.sum))
  let d2 := d1.setReg (Reg.metPower n) (wordOfInt (watts m.planP))
  let d3 := if d.role n = .site then
      let f := m.freq (sampleIndex d.now)
      let d := d2.each [0, 1, 2] fun d i =>
        d.setReg (Reg.metPph n i) (wordOfInt (watts (m.planPh.toList.getD i 0)))
      (d.setReg (Reg.metFreq n) (BitVec.ofNat 32 f)).raiseIf (f = 0) (.met n) 7
    else d2
  d3.onMet n fun m => { m with
    planN := 0, planP := 0
    planPh := Vector.replicate 3 0, chans := m.chans.map fun c => { c with sum := 0, sumSq := 0 } }

/-- π in 2^-128. -/
def piScaled : Int := 0x3243F6A8885A308D313198A2E03707344

/-- Cosine and sine in 2^-128 of an angle in 2^-128, at most π/2, by forty terms of their series. -/
def cosSin (x : Int) : Int × Int :=
  ((List.range 40).foldl (fun (a : Int × Int × Int) k =>
    let t := a.1
    (t * x / (2 ^ 128 * (k + 1)),
      if k % 4 = 0 then a.2.1 + t else if k % 4 = 2 then a.2.1 - t else a.2.1,
      if k % 4 = 1 then a.2.2 + t else if k % 4 = 3 then a.2.2 - t else a.2.2)) (2 ^ 128, 0, 0)).2

/-- Twice the squared magnitude of bin `b` of the DFT of 6,400 samples with a rectangular window (R164), in 2^-128. -/
def binPower (ys : List Int) (b : Nat) : Nat :=
  let r := cosSin (2 * piScaled * b / 6400)
  let a := ys.foldl (fun (a : (Int × Int) × Int × Int) y =>
    ((a.1.1 + y * a.2.1, a.1.2 + y * a.2.2),
      (a.2.1 * r.1 - a.2.2 * r.2) / 2 ^ 128, (a.2.1 * r.2 + a.2.2 * r.1) / 2 ^ 128)) ((0, 0), 2 ^ 128, 0)
  2 * (a.1.1.natAbs ^ 2 + a.1.2.natAbs ^ 2) / 2 ^ 128

/-- Square of harmonic `h` over a window of samples (R164): of the bins at h × fn/5 − 1, h × fn/5 and h × fn/5 + 1, in
2^-128 / 6,400². -/
def harmonicPower (ys : List Int) (fn60 : Bool) (h : Nat) : Nat :=
  let c := h * (if fn60 then 12 else 10)
  binPower ys (c - 1) + binPower ys c + binPower ys (c + 1)

/-- Square root of a quotient: which way a fraction is rounded is left open. -/
def rootOf (num den : Nat) : Nat :=
  let r := isqrt (num / den)
  if r * r * den ≠ num ∧ Config.harmonicUp num den then r + 1 else r

/-- Harmonics and THD of the site channels over their last 6,400 samples (R164). -/
def Dev.harmonics (d : Dev) (n : LinkId) : Dev :=
  let fn60 := d.bit (Reg.metCfg n) 1
  d.each (List.range 6) fun d i =>
    let p := harmonicPower ((d.link n).met.chans.toList.getD i Channel.reset).hist fn60
    let p1 := p 1
    let low := p1 * 40000 < (d.calInUse n i).gain ^ 2 * 6400 ^ 2 * 2 ^ 128
    let ps := (List.range 39).map fun j => p (j + 2)
    let ratio := fun (q : Nat) => satWord (if low then 0 else rootOf (10 ^ 8 * q) p1)
    let d1 := d.setReg (Reg.metH n i 0) (satWord (rootOf p1 (6400 ^ 2 * 2 ^ 128)))
    let d2 := d1.each (List.range 39) fun d j => d.setReg (Reg.metH n i (j + 1)) (ratio (ps.getD j 0))
    d2.setReg (Reg.metThd n i) (ratio ps.sum)

/-- MET_LAP_FLAGS of the running lap (R177). -/
def Dev.lapFlagWord (d : Dev) (n : LinkId) : Word :=
  let f := (d.link n).met.flags
  packWord [(0, 1, b2n f.bridged), (1, 1, b2n f.gapLong), (2, 1, b2n f.sat), (3, 1, b2n f.tempDefault),
    (4, 1, b2n f.calChanged), (5, 1, b2n f.senseOpen), (6, 1, b2n f.unsealed), (7, 1, b2n f.overrun)]

/-- The lap of a link is latched and its running values restart (R159, R165). -/
def Dev.latchLap (d : Dev) (n : LinkId) : Dev :=
  let m := (d.link n).met
  let uj := d.ujAt n
  let imp := uj.1 - m.impLap
  let exp := uj.2 - m.expLap
  let d0 := d.onMet n fun x => { x with flags := { x.flags with unsealed := x.flags.unsealed || !d.calSrc n } }
  let d1 := (((((((d0.setReg (Reg.metLapImpLo n) (BitVec.ofNat 32 imp)).setReg (Reg.metLapImpHi n)
    (BitVec.ofNat 32 (imp / 2 ^ 32))).setReg (Reg.metLapExpLo n) (BitVec.ofNat 32 exp)).setReg (Reg.metLapExpHi n)
    (BitVec.ofNat 32 (exp / 2 ^ 32))).setReg (Reg.metLapFlags n) (d0.lapFlagWord n)).setReg (Reg.metLapNum n)
    (d.reg Reg.pacLapNum)).setReg (Reg.metLapBridged n) (satWord m.bridgedCnt))
  let d2 := d1.each (List.range (d.role n).channels) fun d i =>
    let c := m.chans.toList.getD i Channel.reset
    (d.setReg (Reg.metPkmax n i) (wordOfInt (c.pkMax.getD 0))).setReg (Reg.metPkmin n i)
      (wordOfInt (c.pkMin.getD 0))
  d2.onMet n fun m => { m with
    impLap := uj.1, expLap := uj.2, bridgedCnt := 0, ocLapLast := m.ocLap, ocLap := 0, flags := MetFlags.none,
    chans := m.chans.map fun c => { c with pkMax := none, pkMin := none } }

/-- MET_CAL_CRC over the calibration words of the channels the role carries (R155). -/
def Dev.calCrc (d : Dev) (n : LinkId) : Word :=
  BitVec.ofNat 32 (0xFFFFFFFF -
    crc32 (bytesOfWordsBE ((List.range (d.role n).channels).flatMap fun ch => d.calWords n ch)))

end Sys2Proof.Machine
end

