-- ==== Sys2Proof/Machine/CryptoOps.lean ====
section
/-! DEFINITION. Keys, random numbers and the crypto pool: derivation, request classes and quotas, engines and the
order in which they take work, allowances and result ticks (R34, R343 to R372). -/

namespace Sys2Proof.Machine

/-! ### Keys -/

/-- ASCII bytes of a label (R347). -/
def ascii (s : String) : List Byte := s.toList.map fun c => BitVec.ofNat 8 c.toNat

/-- GLB_SERIAL as 8 bytes (R347). -/
def serialBytes : List Byte := bytesBE 8 Config.serial.toNat

/-- The active slot of the Device Root Key (R353). -/
def Vault.drk (v : Vault) : DrkSlot := if v.activeB then v.drkB else v.drkA

def Vault.otherDrk (v : Vault) : DrkSlot := if v.activeB then v.drkA else v.drkB

/-- A key of the device branch below a parent (R347). -/
def deviceChild (parent : List Byte) (label : String) (len : Nat) : List Byte :=
  Config.child parent serialBytes (ascii label) len

def legalKey (drk : List Byte) : List Byte := deviceChild drk "LEGAL" 72

def attestKey (drk : List Byte) : List Byte := deviceChild drk "ATTEST" 48

def transportKey (drk : List Byte) : List Byte := deviceChild drk "TRANSPORT" 48

def installKey (drk : List Byte) : List Byte := deviceChild (transportKey drk) "INSTALL" 72

def seccKey (drk : List Byte) : List Byte := deviceChild (transportKey drk) "SECC" 80

/-- A namespace's archive key of an epoch (R347, R451). -/
def archiveKey (drk : List Byte) (ns : Nat) (epoch : Word) : List Byte :=
  Config.child (deviceChild drk "ARCHIVE" 48) serialBytes (ascii "NS" ++ bytesBE 1 ns ++ bytesBE 4 epoch.toNat) 32

/-- The staging key of a manifest (R347, R414). -/
def stagingKey (drk : List Byte) (serial : Word) : List Byte :=
  Config.child (deviceChild drk "UPDATE" 48) serialBytes (ascii "STAGE" ++ bytesBE 4 serial.toNat) 32

/-- The active root slot of a tenant (R353). -/
def Tenant.root (t : Tenant) : RootSlot := if t.activeB then t.rootB else t.rootA

/-- A tenant's node key from its seed (R347). -/
def tenantKey (seed : List Byte) (t : Nat) : List Byte := Config.child seed (bytesBE 2 t) (ascii "TENANT") 48

/-- A key of a tenant branch. -/
def tenantChild (seed : List Byte) (t : Nat) (label : List Byte) : List Byte :=
  Config.child (tenantKey seed t) (bytesBE 2 t) label 16

/-- The LEGAL key of the epoch that covers a RECORD_SEQ (R354, R360). -/
def Security.signKey (s : Security) (seq : Nat) : List Byte :=
  legalKey (if s.rotatePending ∧ seq < s.firstSeq then s.vault.otherDrk.key else s.vault.drk.key)

/-- CHAIN_OK: a chain is held and its leaf binds the SECC public key (R352). -/
def Security.chainOk (s : Security) : Bool :=
  !s.chain.isEmpty && Config.leafKey s.chain == Config.p521Public (seccKey s.vault.drk.key)

/-- The first 16 bytes of SHA-384. -/
def hash16 (bs : List Byte) : List Byte := padTo 16 (Config.sha384 bs)

/-! ### Random numbers -/

/-- Random bytes drawn from the RNG (R370). -/
def Dev.random (d : Dev) (n : Nat) : List Byte := Config.randomBytes d.fresh n

/-- A generate request counted; the next draw gives another value. -/
def Dev.randomDrawn (d : Dev) : Dev := d.drew.onSec fun s => { s with rngGen := s.rngGen + 1 }

/-- A consumer is held until the source has restarted (R371). -/
def Dev.holdForRng (d : Dev) (w : RngWait) : Dev := d.onSec fun s => { s with rngWaits := s.rngWaits ++ [w] }

/-- A consumer no longer waits. -/
def Dev.dropRngWait (d : Dev) (gone : RngWait → Bool) : Dev :=
  d.onSec fun s => { s with rngWaits := s.rngWaits.filter fun w => !gone w }

/-- The wait of an outlet's vehicle. -/
def RngWait.ofLink (n : LinkId) : RngWait → Bool
  | .slac m _ _ | .tls m => m == n
  | _ => false

/-! ### Classes, operations and allowances -/

/-- Quota of a class in the request queue (R365). -/
def CryptoClass.quota : CryptoClass → Nat
  | .legal => 256
  | .tag => 24
  | .session => 144
  | .update => 24
  | .archive => 64

/-- Class that prefers an engine (R365). -/
def preferredClass (k : EngineKind) (e : Nat) : CryptoClass :=
  match k with
  | .asym =>
    if e = 0 then .legal else if e ≤ 8 then .tag else if e ≤ 20 then .session else if e ≤ 22 then .update else .archive
  | .sym =>
    if e ≤ 3 then .legal else if e ≤ 11 then .tag else if e ≤ 23 then .session else if e ≤ 27 then .update
    else .archive

/-- Worst-case wait in µs at full quota of a class for a kind of engine (R34, R367). -/
def CryptoClass.wait (c : CryptoClass) (k : EngineKind) : Nat :=
  match c, k with
  | .legal, .asym => 256 * 2400
  | .legal, .sym => 6400
  | .tag, .asym => 7200
  | .tag, .sym => 300
  | .session, .asym => 28800
  | .session, .sym => 1200
  | .update, .asym => 28800
  | .update, .sym => 600
  | .archive, .asym => 153600
  | .archive, .sym => 1600

/-- Hash, HMAC or SHAKE over `n` bytes: 5 µs up to 1 KiB, else 100 µs for each chunk of 64 KiB (R364). -/
def hashOp (n : Nat) : CryptoOp :=
  if n ≤ 1024 then { kind := .sym, chunks := 1, us := 5 }
  else { kind := .sym, chunks := (n + 65535) / 65536, us := (n + 65535) / 65536 * 100 }

/-- GCM over `n` bytes (R364). -/
def gcmOp (n : Nat) : CryptoOp :=
  if n ≤ 1024 then { kind := .sym, chunks := 1, us := 5 }
  else { kind := .sym, chunks := (n + 65535) / 65536, us := (n + 65535) / 65536 * 90 }

/-- One key derivation (R364). -/
def deriveOp : CryptoOp := { kind := .sym, chunks := 1, us := 5 }

/-- A signature verification of an ALG of R343 (R364). -/
def verifyOp (alg : Nat) : CryptoOp :=
  { kind := .asym, chunks := 1, us := if alg = 2 then 2400 else if alg = 3 then 2200 else 1700 }

/-- A P-384 signature (R364). -/
def signOp : CryptoOp := { kind := .asym, chunks := 1, us := 900 }

/-- ECDH or key generation on P-384 (R364). -/
def ecdhOp : CryptoOp := { kind := .asym, chunks := 1, us := 850 }

/-- Allowance of a covered request (R34), in ticks. -/
def allowance (c : CryptoClass) (ops : List CryptoOp) : Nat := (ops.map fun o => c.wait o.kind + o.us).sum

/-! ### The queue and the engines -/

def Security.inClass (s : Security) (c : CryptoClass) : Nat := (s.queue.filter fun r => r.cls = c).length

/-- Kind of engine a request needs next. -/
def CryptoReq.needs (r : CryptoReq) (k : EngineKind) : Bool := (r.ops.head?.map CryptoOp.kind) == some k

/-- Of two waiting requests the one served first: by admission tick, then by rank (R365). -/
def servedFirst (a b : CryptoReq) : CryptoReq :=
  if b.admitted < a.admitted ∨ b.admitted = a.admitted ∧ b.rank < a.rank then b else a

/-- First waiting request of a class for a kind of engine (R365). -/
def firstOf (q : List CryptoReq) (c : CryptoClass) (k : EngineKind) : Option CryptoReq :=
  match q.filter fun r => r.cls = c && r.needs k with
  | [] => none
  | r :: rs => some (rs.foldl servedFirst r)

/-- The order LEGAL, TAG, SESSION, UPDATE, ARCHIVE (R365). -/
def classOrder : List CryptoClass := [.legal, .tag, .session, .update, .archive]

/-- What a free engine takes next (R365). While a record waits for its signature, asymmetric engine 0 takes no class but
LEGAL. -/
def pickFor (q : List CryptoReq) (signing : Bool) (k : EngineKind) (e : Nat) : Option CryptoReq :=
  match firstOf q (preferredClass k e) k with
  | some r => some r
  | none => if k = .asym ∧ e = 0 ∧ signing then none else classOrder.findSome? fun c => firstOf q c k

/-- A record waits for its signature. -/
def Dev.signing (d : Dev) : Bool := d.bill.records.any fun r => !r.signed && !r.poisoned

/-- SEC_WAIT_MAX takes a longer wait (R374). -/
def Dev.waited (d : Dev) (us : Nat) : Dev :=
  if (d.reg Reg.secWaitMax).toNat < us then d.setReg Reg.secWaitMax (BitVec.ofNat 32 (satTo 16 us)) else d

/-- The first request equal to one leaves a list. -/
def takeOut (q : List CryptoReq) (r : CryptoReq) : List CryptoReq := q.erase r

/-- A request's place among others in the order of service (R365). -/
def insertServed (r : CryptoReq) : List CryptoReq → List CryptoReq
  | [] => [r]
  | x :: xs =>
    if x.admitted < r.admitted ∨ x.admitted = r.admitted ∧ x.rank < r.rank then x :: insertServed r xs else r :: x :: xs

/-- Requests whose producer waited enter the queue as room in their class appears (R368). -/
def Security.letIn (s : Security) : Security :=
  (s.outside.foldr insertServed []).foldl (fun s r =>
    if s.inClass r.cls < r.cls.quota then { s with queue := s.queue ++ [r], outside := takeOut s.outside r } else s) s

/-- A free asymmetric engine takes its next request. -/
def Dev.feedAsym (d : Dev) (e : Fin 24) : Dev :=
  match d.sec.asym.get e, pickFor d.sec.queue d.signing .asym e.1 with
  | none, some r =>
    (d.onSec fun s => { s with queue := takeOut s.queue r, asym := s.asym.set e.1 (some r) }).waited (d.now - r.since)
  | _, _ => d

/-- A free symmetric engine takes its next request. -/
def Dev.feedSym (d : Dev) (e : Fin 32) : Dev :=
  match d.sec.sym.get e, pickFor d.sec.queue d.signing .sym e.1 with
  | none, some r =>
    (d.onSec fun s => { s with queue := takeOut s.queue r, sym := s.sym.set e.1 (some r) }).waited (d.now - r.since)
  | _, _ => d

/-- Every free engine takes work, in ascending order, at the closure of a tick: its requests then stand in the order of their
class, admission tick and rank, in whatever order they came (R365, R39). -/
def Dev.feedEngines (d : Dev) : Dev :=
  let d1 := (d.each (List.finRange 24) Dev.feedAsym).each (List.finRange 32) Dev.feedSym
  d1.onSec Security.letIn

/-- Source rank of an object path (R38): the host, or the grid link. -/
def pathRank : ObjectPath → Nat
  | .slot _ => 640
  | .grid => 607

/-- A request is admitted (R365, R368): it is queued, or its producer waits and QUEUE_FULL is set. A covered request is
due at its result tick (R34). -/
def Dev.request (d : Dev) (use : CryptoUse) (cls : CryptoClass) (ops : List CryptoOp) (covered : Bool) (rank : Nat := 640) :
    Dev :=
  let r : CryptoReq := { use := use, cls := cls, admitted := d.now, rank := rank, ops := ops, since := d.now,
                         cancelled := false }
  let d1 := if covered then
      d.onSec fun s => { s with
        dues := s.dues ++ [{ use := use, at? := d.now + allowance cls ops, rank := rank, overrun := false }] }
    else d
  if d.sec.inClass cls < cls.quota then d1.onSec fun s => { s with queue := s.queue ++ [r] }
  else (d1.onSec fun s => { s with outside := s.outside ++ [r] }).raise .sec 8

/-- A request of this use is still in the pool: waiting, outside or executing, and not cancelled. -/
def Security.working (s : Security) (u : CryptoUse) : Bool :=
  let has := fun (r : CryptoReq) => decide (r.use = u) && !r.cancelled
  s.queue.any has || s.outside.any has || s.asym.toList.any (fun o => (o.map has).getD false) ||
    s.sym.toList.any (fun o => (o.map has).getD false)

/-- The result of a use is there: its work is done and its result tick has come. -/
def Dev.resultReady (d : Dev) (u : CryptoUse) : Bool :=
  (d.sec.dues.any fun x => decide (x.use = u) && decide (x.at? ≤ d.now)) && !d.sec.working u

/-- A result that is there at once, without work for an engine. -/
def Dev.dueNow (d : Dev) (u : CryptoUse) (rank : Nat := 640) : Dev :=
  d.onSec fun s => { s with dues := s.dues ++ [{ use := u, at? := d.now, rank := rank, overrun := false }] }

/-- The work of a use has ended: whatever of it stands in the pool leaves it, and its result tick is forgotten. -/
def Dev.finish (d : Dev) (u : CryptoUse) : Dev :=
  let drop := fun (o : Option CryptoReq) => o.bind fun r => if r.use = u ∧ !r.cancelled then none else some r
  d.onSec fun s => { s with
    queue := s.queue.filter fun r => r.use ≠ u, outside := s.outside.filter fun r => r.use ≠ u,
    asym := s.asym.map drop, sym := s.sym.map drop, dues := s.dues.filter fun x => x.use ≠ u }

/-- A request is abandoned (R369): waiting it leaves the queue, executing it runs to the end of its operation and its
result is discarded. -/
def Dev.cancel (d : Dev) (u : CryptoUse) : Dev :=
  let mark := fun (o : Option CryptoReq) => o.map fun r => if r.use = u then { r with cancelled := true } else r
  d.onSec fun s => { s with
    queue := s.queue.filter fun r => r.use ≠ u, outside := s.outside.filter fun r => r.use ≠ u,
    asym := s.asym.map mark, sym := s.sym.map mark, dues := s.dues.filter fun x => x.use ≠ u }

/-! ### Updates that wait for the closure (R22, R38) -/

/-- The place of a source's update in photo-finish order; `sub` orders the submission slots of the host (R358). -/
def commitKey (rank sub : Nat) : Nat := rank * 4 + sub

/-- An update waits for the closure of its tick. -/
def Dev.commit (d : Dev) (key : Nat) (c : Commit) : Dev := { d with commits := d.commits ++ [(key, c)] }

/-- An update behind those of the same place that came before it. -/
def insertCommit (e : Nat × Commit) : List (Nat × Commit) → List (Nat × Commit)
  | [] => [e]
  | x :: xs => if e.1 < x.1 then e :: x :: xs else x :: insertCommit e xs

/-- Updates in photo-finish order, those of one place in the order in which they came. -/
def sortCommits (l : List (Nat × Commit)) : List (Nat × Commit) := l.foldl (fun acc e => insertCommit e acc) []

/-- The due of a use was declared an overrun: its result is late (R34). -/
def Security.isLate (s : Security) (u : CryptoUse) : Bool := s.dues.any fun x => decide (x.use = u) && x.overrun

/-- What is left of a request after the operation or the chunk on its engine (R366). -/
def CryptoReq.advance (r : CryptoReq) : CryptoReq :=
  match r.ops with
  | [] => r
  | o :: os => if o.chunks ≤ 1 then { r with ops := os } else { r with ops := { o with chunks := o.chunks - 1 } :: os }

/-- The request on an engine, and the engine freed. -/
def Dev.freeEngine (d : Dev) (k : EngineKind) (e : Fin 32) : Option CryptoReq × Dev :=
  match k with
  | .sym => (d.sec.sym.get e, d.onSec fun s => { s with sym := s.sym.set e.1 none })
  | .asym =>
    if h : e.1 < 24 then (d.sec.asym.get ⟨e.1, h⟩, d.onSec fun s => { s with asym := s.asym.set e.1 none })
    else (none, d)

/-- An access violation of a cause of R373 (R93): counted, SEC_VIOL set, the first one since the last read kept. -/
def Dev.violation (d : Dev) (addr : Word) (cause : Nat) (write : Bool) : Dev :=
  let d1 := (d.count Reg.secViolCnt).raise .sec 0
  if d1.sec.violArmed then
    ((d1.setReg Reg.secViolAddr addr).setReg Reg.secViolCause (packWord [(8, 1, b2n write), (0, 3, cause)])).onSec
      fun s => { s with violArmed := false }
  else d1

end Sys2Proof.Machine
end

