-- ==== Sys2Proof/Machine/BillOps.lean ====
section
/-! DEFINITION. Calendar and laps, and the billing engine's operations: segments, slots, prices, credit, reservations,
records, demand intervals, billing periods, reconciliation and tariff holds (R26 to R29, R179 to R213). -/

namespace Sys2Proof.Machine

/-! ### Calendar and lap boundaries -/

/-- The calendar second turns over (R26); a leap second of a time token lengthens or shortens the day (R27). -/
def Pacer.turnOver (p : Pacer) : Pacer :=
  let q := { p with secNext := p.secNext + 1000000 }
  match p.leap with
  | some (last, true) =>
    if p.cal = last then
      if p.leapHeld then { q with cal := p.cal + 1, leap := none, leapHeld := false }
      else { q with leapHeld := true, lapSeconds := p.lapSeconds + 1 }
    else { q with cal := p.cal + 1 }
  | some (last, false) =>
    if p.cal + 1 = last then { q with cal := last + 1, leap := none } else { q with cal := p.cal + 1 }
  | none => { q with cal := p.cal + 1 }

/-- The Pacer at a tick, with the turn-over that falls in this tick carried out. -/
def Pacer.atTick (p : Pacer) (now : Tick) : Pacer := if p.secNext ≤ now then p.turnOver else p

/-- The position in the running calendar second at a tick, in µs (R26). -/
def Pacer.inSecond (p : Pacer) (now : Tick) : Nat := 1000000 - (p.secNext - now)

/-- A calendar second begins at a tick. -/
def Pacer.secondAt (p : Pacer) (now : Tick) : Bool := p.secNext == now + 1000000

/-- Lap length L in seconds. -/
def Dev.lapLen (d : Dev) : Nat := d.field Reg.pacLapLen 0 12

/-- A lap boundary falls in the open tick (R27, R28, R29). -/
def Dev.atBoundary (d : Dev) : Bool :=
  let p := d.pacer.atTick d.now
  let len := max 1 d.lapLen
  p.lapRunning && !p.lapInterrupted && decide (p.lapStart < d.now) &&
    (p.lapEndAt == some d.now ||
      (if p.calSet then
        p.secondAt d.now && decide (p.cal % 86400 % len = 0) && (!p.leapHeld || len == 1)
      else decide (d.now = p.lapStart + secs len)))

/-- Days since 1970-01-01 of a local second, and the weekday, Monday 0. -/
def weekday (days : Int) : Nat := ((days + 3) % 7).toNat

/-- Day of the month of a day number, by the civil calendar. -/
def dayOfMonth (days : Int) : Nat :=
  let z := days + 719468
  let doe := (z % 146097).toNat
  let yoe := (doe - doe / 1460 + doe / 36524 - doe / 146096) / 365
  let doy := doe - (365 * yoe + yoe / 4 - yoe / 100)
  let mp := (5 * doy + 2) / 153
  doy - (153 * mp + 2) / 5 + 1

/-! ### Tariffs -/

/-- An enabled switch entry: weekday bits, minute, slot (R188). -/
def switchEntry (w : Word) : Option (Nat × Nat × Nat) :=
  if bitOf w 31 ∧ fieldOf w 8 11 < 1440 then some (fieldOf w 24 7, fieldOf w 8 11, fieldOf w 0 4) else none

/-- Of two entries the one with the larger MINUTE; the first on a tie. -/
def laterEntry (a b : Nat × Nat × Nat) : Nat × Nat × Nat := if a.2.1 < b.2.1 then b else a

/-- The tenant's slot for a lap that starts at a calendar second, under the tariff in force (R188). -/
def Dev.slotAt (d : Dev) (t : TenantId) (calSet : Bool) (cal : Nat) : Nat :=
  let cfg := d.setting (Reg.bilTXCfg t)
  let dflt := fieldOf cfg 0 4
  if !calSet then dflt
  else
    let loc : Int := cal + 60 * sfieldOf cfg 16 12
    let day := loc / 86400
    let min := ((loc % 86400) / 60).toNat
    let es := (List.range 24).filterMap fun i => switchEntry (d.setting (Reg.bilTXSwitch t i))
    let found := (List.range 8).findSome? fun k =>
      match es.filter fun e => e.1 / 2 ^ weekday (day - k) % 2 == 1 && (0 < k || e.2.1 ≤ min) with
      | [] => none
      | e :: rest => some (rest.foldl laterEntry e).2.2
    found.getD dflt

/-- The slot in force for a tenant in the running lap. -/
def Dev.slotNow (d : Dev) (t : TenantId) : Nat := d.slotAt t d.pacer.lapStartSet d.pacer.lapStartCal

def Dev.priceImp (d : Dev) (t : TenantId) (slot : Nat) : Nat := (d.setting (Reg.bilTXPriceImp t slot)).toNat

def Dev.priceExp (d : Dev) (t : TenantId) (slot : Nat) : Nat := (d.setting (Reg.bilTXPriceExp t slot)).toNat

/-- The tenant's tariff is held (R190). -/
def Dev.tariffHeld (d : Dev) (t : TenantId) : Bool := (d.tenant t).held

/-! ### Segments -/

/-- Whole mWh and new carry (R180). -/
def toMwh (e carry : Nat) : Nat × Nat := ((e + carry) / 3600000, (e + carry) % 3600000)

/-- One direction's addition to a slot register. -/
def addSlot (v : Vector Nat 16) (slot m : Nat) : Vector Nat 16 :=
  if h : slot < 16 then v.set slot (v.get ⟨slot, h⟩ + m) else v

/-- The cost of a segment of a session (R192). -/
def SessionCost.price (s : SessionCost) (mi me pi pe slot : Nat) : SessionCost :=
  { s with
    cost := s.cost + ((mi * pi + s.remImp) / 1000 : Nat) - ((me * pe + s.remExp) / 1000 : Nat)
    remImp := (mi * pi + s.remImp) % 1000, remExp := (me * pe + s.remExp) % 1000
    imp := s.imp + mi, exp := s.exp + me
    slots := if mi + me ≠ 0 then s.slots ||| BitVec.ofNat 16 (2 ^ slot) else s.slots }

/-- The legal registers are not advanced: in MAINTENANCE (R182), SAFE HALT and ACTIVATION (R49). A lap that a loss of supply
cut short closes as it was committed (R183). -/
def Dev.legalStill (d : Dev) : Bool :=
  d.bill.frozen || (d.mode == .safeHalt || d.mode == .activation) && !d.pacer.lapInterrupted

/-- The open segment of a link closes (R180, R181): registered with the carry, priced and added to its slots; the energy of
an OVERRUN lap goes to suspense. A new segment begins. A run of no ticks is no segment. Where the legal registers are not
advanced, the metrology integers at which the segment began stay, so that its energy is registered in the next one. -/
def Dev.closeSegment (d : Dev) (n : LinkId) : Dev :=
  let l := d.link n
  let b := l.bill
  let uj := d.ujAt n
  let ei := uj.1 - b.segImp
  let ee := uj.2 - b.segExp
  let marks := fun (b : LinkBill) => { b with
    segImp := if d.legalStill then b.segImp else uj.1, segExp := if d.legalStill then b.segExp else uj.2
    segStart := d.now, segs := b.segs + 1
    tariffHeld := b.tariffHeld || (b.session.map fun s => d.tariffHeld s.tenant).getD false
    lapSlot := if b.session.isSome then b.slot else b.lapSlot
    tenants := match b.session with
      | some s => if b.tenants.contains s.tenant then b.tenants else b.tenants ++ [s.tenant]
      | none => b.tenants
    unattributed := b.unattributed || (b.session.isNone && ei + ee != 0) }
  if d.now = b.segStart ∧ !d.pacer.lapInterrupted then d
  else if d.legalStill then d.onBill n marks
  else if l.met.flags.overrun then
    (d.onBill n fun b => { marks b with
      susp := b.susp + (ei + ee), lapSusp := b.lapSusp + (ei + ee)
      session := b.session.map fun s => { s with susp := s.susp + (ei + ee) } }).raise .bil 7
  else
    let mi := toMwh ei b.carryImp
    let me := toMwh ee b.carryExp
    let d1 := d.onBill n fun b => { marks b with
      impMwh := b.impMwh + mi.1, carryImp := mi.2, expMwh := b.expMwh + me.1, carryExp := me.2
      slotImp := addSlot b.slotImp b.slot mi.1, slotExp := addSlot b.slotExp b.slot me.1 }
    match b.session with
    | none => d1
    | some s =>
      let s1 := s.price mi.1 me.1 (d.priceImp s.tenant b.slot) (d.priceExp s.tenant b.slot) b.slot
      (d1.onBill n fun b => { b with session := some s1, lapCost := b.lapCost + (s1.cost - s.cost) }).onTenant s.tenant
        fun t => { t with
          slotImp := addSlot t.slotImp b.slot mi.1, slotExp := addSlot t.slotExp b.slot me.1
          interimImp := if t.held then addSlot t.interimImp b.slot mi.1 else t.interimImp
          interimExp := if t.held then addSlot t.interimExp b.slot me.1 else t.interimExp }

/-- The segments of every link close without an end of lap or session, before a mode in which the legal registers are not
advanced (R49). -/
def Dev.settleSegments (d : Dev) : Dev :=
  if d.pacer.lapRunning && !d.pacer.lapInterrupted then
    d.each d.usedLinks fun d n => (d.closeSegment n).onBill n fun b => { b with segs := b.segs - 1 }
  else d

/-- The totals are committed to the ledger store (R158), with the tick and the calendar of the commit (R183). -/
def Dev.commitTotals (d : Dev) : Dev :=
  (d.each d.usedLinks fun d n => d.onMet n fun m => { m with comImp := m.imp, comExp := m.exp }).onPower fun p => { p with
    commitAt := d.now, commitCal := if d.pacer.calSet then some d.pacer.cal else none }

/-! ### Credit -/

/-- Credit plus consumed is the sum of the grants (R46). -/
def Tenant.balanced (t : Tenant) : Bool := t.credit + t.consumed == t.grants

/-- A commit of a tenant's credit is refused if it breaks the invariant, and the refusal recorded (R48). -/
def Dev.commitTenant (d : Dev) (t : TenantId) (f : Tenant → Tenant) : Dev :=
  if (f (d.tenant t)).balanced || (d.tenant t).poisoned then d.onTenant t f else d.happen 602 0 (some t)

/-- ⌈a / b⌉ for a positive b. -/
def ceilDiv (a b : Int) : Int := -((-a) / b)

/-- Live sessions of a tenant: their links. -/
def Dev.sessionsOf (d : Dev) (t : TenantId) : List LinkId :=
  allLinks.filter fun n => ((d.link n).bill.session.map fun s => decide (s.tenant = t)).getD false

/-- BIL_T_RESV is the sum over the tenant's live sessions (R194). -/
def Dev.sumResv (d : Dev) (t : TenantId) : Dev :=
  let total := ((d.sessionsOf t).map fun n => ((d.link n).bill.session.map SessionCost.resv).getD 0).sum
  d.onTenant t fun x => { x with resv := total }

/-- Credit available (R194). -/
def Dev.available (d : Dev) (t : TenantId) : Int := (d.tenant t).credit - (d.tenant t).resv

def Dev.prepaid (d : Dev) (t : TenantId) : Bool := d.bit (Reg.bilTCfg t) 0

/-- A signed Expert register in force. -/
def Dev.signedSetting (d : Dev) (a : Nat) : Int := (d.setting a).toInt

/-- A prepaid tenant at or below STOP_RESERVE accepts no session (R195). -/
def Dev.creditOut (d : Dev) (t : TenantId) : Bool :=
  d.prepaid t && decide (d.available t ≤ d.signedSetting (Reg.bilTXStopReserve t))

/-- A prepaid tenant's available credit is below LOW_CREDIT (R196). -/
def Dev.lowNow (d : Dev) (t : TenantId) : Bool :=
  d.prepaid t && decide (d.available t < d.signedSetting (Reg.bilTXLowCredit t))

/-- LOW_CREDIT as a prepaid tenant's available credit falls below it, from what it was (R196). -/
def Dev.checkLow (d was : Dev) (t : TenantId) : Dev :=
  if d.lowNow t && !was.lowNow t && (d.tenant t).lowArmed then
    (d.raise (.bilT t) 3).onTenant t fun x => { x with lowArmed := false }
  else d

/-- At a planning lap boundary, available credit at or above LOW_CREDIT allows the event again (R196). -/
def Dev.armLow (d : Dev) : Dev :=
  d.each (allTenants.filter fun t => !(d.tenant t).lowArmed && !d.lowNow t) fun d t =>
    d.onTenant t fun x => { x with lowArmed := true }

/-- Minor units due on a session, and its charge (R193). -/
def Dev.charge (d : Dev) (n : LinkId) : Dev :=
  match (d.link n).bill.session with
  | none => d
  | some s =>
    let due := divHalfEven s.cost 1000000 - s.charged
    let s1 := { s with charged := s.charged + due, resv := max 0 (ceilDiv s.cost 1000000 - (s.charged + due)) }
    (((d.onBill n fun b => { b with session := some s1 }).commitTenant s.tenant fun t =>
      { t with credit := t.credit - due, consumed := t.consumed + due }).sumResv s.tenant).checkLow d s.tenant

/-- Reservation of a live session at a planning lap boundary (R194). -/
def Dev.reserve (d : Dev) (n : LinkId) : Dev :=
  let l := d.link n
  match l.bill.session with
  | none => d
  | some s =>
    let m := (toMwh ((d.ujAt n).1 - l.bill.segImp) l.bill.carryImp).1
    let run := (m * d.priceImp s.tenant l.bill.slot + 999) / 1000
    d.onBill n fun b => { b with
      session := some { s with resv := max 0 (ceilDiv (s.cost + run) 1000000 - s.charged) } }

/-! ### Records -/

/-- A signed number in 8 bytes, two's complement. -/
def be64 (i : Int) : List Byte := bytesBE 8 (i % 2 ^ 64).toNat

/-- A signed number in 4 bytes. -/
def be32 (i : Int) : List Byte := bytesBE 4 (i % 2 ^ 32).toNat

/-- Bytes of a list replaced from a place on. -/
def patch (bs : List Byte) (off : Nat) (new : List Byte) : List Byte :=
  bs.take off ++ new ++ bs.drop (off + new.length)

/-- Record header of R209; RECORD_SEQ and PWR_CYCLES are put in at the issue, the hash of the previous record at the
signature. -/
def Dev.recordHeader (d : Dev) (kind sub : Nat) (flags : Word) : List Byte :=
  bytesBE 2 kind ++ bytesBE 1 1 ++ bytesBE 1 sub ++ serialBytes ++ bytesBE 8 0 ++ bytesBE 4 0 ++
    bytesBE 4 (d.reg Reg.pacLapNum).toNat ++ bytesBE 8 d.now ++
    bytesBE 8 (if d.pacer.calSet then d.pacer.cal else 0) ++ bytesBE 4 flags.toNat ++ bytesBE 16 0

/-- A record closes and waits for its issue at the closure of its tick (R213). -/
def Dev.addRecord (d : Dev) (kind sub : Nat) (link : Option LinkId) (rank : Nat) (flags : Word) (poisoned : Bool)
    (body : List Byte) : Dev :=
  let size := if kind = 3 then 512 else 256
  d.onBilling fun b => { b with
    waiting := b.waiting ++ [{ seq := 0, kind := kind, link := link, rank := rank,
                               bytes := padTo size (d.recordHeader kind sub flags ++ body), signed := false,
                               poisoned := poisoned }] }

/-- Bytes before the signature (R209). -/
def signedPart (bs : List Byte) : List Byte := bs.take (bs.length - 96)

/-- A record below FIRST_SEQ is still unsigned (R354). -/
def Dev.oldUnsigned (d : Dev) : Bool :=
  d.bill.records.any fun r => !r.signed && !r.poisoned && decide (r.seq < d.sec.firstSeq)

/-- The key of the epoch before is kept until the last record below FIRST_SEQ is signed (R354). -/
def Dev.keepOldKey (d : Dev) : Dev := d.onSec fun s => { s with rotatePending := s.rotatePending && d.oldUnsigned }

/-- A record is complete: the hash of the previous record and the signature are in place; it waits for its copy in
NOR flash (R209, R213, R447). -/
def Dev.completeRecord (d : Dev) (seq : Nat) (bytes : List Byte) : Dev :=
  (d.onBilling fun b => { b with
    lastRecord := bytes
    records := b.records.map fun r => if r.seq = seq then { r with bytes := bytes, signed := true } else r }).keepOldKey.onRec
    fun r => { r with norWait := r.norWait ++ [.inl (seq, bytes)] }

/-- A poisoned record is issued with UNSIGNABLE, flag bit 25, and a signature of zeros (R213). -/
def Dev.completeUnsignable (d : Dev) (r : QueuedRecord) : Dev :=
  let fl := BitVec.ofNat 32 (fieldBE r.bytes 0x2C 4) ||| oneBit 25
  let bs := patch (patch r.bytes 0x2C (bytesBE 4 fl.toNat)) 0x30 (hash16 d.bill.lastRecord)
  let used := match (List.range 128).find? fun i => d.mem.poisonLedger.contains (524288 + 128 * (r.seq % 1024) + i) with
    | some i => d.consumePoison false (524288 + 128 * (r.seq % 1024) + i)
    | none => d
  let d1 := (used.completeRecord r.seq bs).raise .bil 6
  match r.link, r.kind with
  | some n, 1 => if (d.reg (Reg.bilLapSeq n)) = BitVec.ofNat 32 r.seq then d1.setReg (Reg.bilLapFlags n) fl else d1
  | _, _ => d1

/-- Leading poisoned records are completed, one after the other. -/
def Dev.passUnsignable (d : Dev) : Nat → Dev
  | 0 => d
  | k + 1 =>
    match d.bill.records.find? fun r => !r.signed with
    | some r => if r.poisoned then (d.completeUnsignable r).passUnsignable k else d
    | none => d

/-- The next record to sign becomes the signer's request, one at a time (R361). -/
def Dev.startSigning (d : Dev) : Dev :=
  let d1 := d.passUnsignable d.bill.records.length
  match d1.bill.records.find? fun r => !r.signed with
  | some r =>
    if d1.sec.working (.sign r.seq) || d1.sec.dues.any (fun x => decide (x.use = .sign r.seq)) then d1
    else d1.request (.sign r.seq) .legal [hashOp d1.bill.lastRecord.length, hashOp r.bytes.length, signOp] false
  | none => d1

/-- A record finds a slot: 1,024 slots, 960 of them for lap records (R213). -/
def Billing.hasSlot (b : Billing) (kind : Nat) : Bool :=
  b.records.length < 1024 && (kind != 1 || (b.records.filter fun r => r.kind = 1).length < 960)

/-- A record is issued: it takes its RECORD_SEQ and a slot. -/
def Dev.issueRecord (d : Dev) (r : QueuedRecord) : Dev :=
  let seq := d.bill.nextSeq
  let bs := patch (patch r.bytes 0x0C (bytesBE 8 seq)) 0x14 (bytesBE 4 (d.reg Reg.pwrCycles).toNat)
  let d1 := d.onBilling fun b => { b with
    nextSeq := seq + 1, records := b.records ++ [{ r with seq := seq, bytes := bs }] }
  match r.link, r.kind with
  | some n, 1 =>
    (d1.setReg (Reg.bilLapSeq n) (BitVec.ofNat 32 seq)).setReg (Reg.bilLapFlags n)
      (BitVec.ofNat 32 (fieldBE r.bytes 0x2C 4))
  | _, _ => d1

/-- A lap record that found no slot: its totals go to the link's next lap record, which carries RECORD_GAP. -/
def Dev.dropLap (d : Dev) (r : QueuedRecord) : Dev :=
  match r.link with
  | some n =>
    (d.onBill n fun b => { b with
      recordGap := true, gapImp := b.gapImp + fieldBE r.bytes 0x58 8, gapExp := b.gapExp + fieldBE r.bytes 0x60 8
      gapCost := b.gapCost + (BitVec.ofNat 64 (fieldBE r.bytes 0x80 8)).toInt
      gapSusp := b.gapSusp + fieldBE r.bytes 0x98 8, gapSegs := b.gapSegs + fieldBE r.bytes 0x56 2 }).raise .bil 5
  | none => d

/-- A record goes in before the first of a higher rank. -/
def insertByRank (r : QueuedRecord) (rs : List QueuedRecord) : List QueuedRecord :=
  match rs with
  | [] => [r]
  | x :: xs => if r.rank < x.rank then r :: x :: xs else x :: insertByRank r xs

/-- The records that wait are issued in rank order (R213): a lap record without a slot is dropped, another one waits. -/
def Dev.issueWaiting (d : Dev) : Dev :=
  let rs := d.bill.waiting.foldl (fun acc r => insertByRank r acc) []
  let d1 := rs.foldl (fun d r =>
    if d.bill.hasSlot r.kind then d.issueRecord r
    else if r.kind = 1 then d.dropLap r
    else d.onBilling fun b => { b with waiting := b.waiting ++ [r] }) (d.onBilling fun b => { b with waiting := [] })
  d1.startSigning

/-- Seal open or in fault (R203). -/
def Billing.sealOpen (b : Billing) : Bool := b.sealState != .closed

/-- Flags of a lap record (R186). -/
def Dev.lapFlags (d : Dev) (n : LinkId) (metFlags : Word) (recon activation : Bool) : Word :=
  let b := (d.link n).bill
  let p := d.pacer
  metFlags &&& 0xFF ||| packWord [(8, 1, b2n !p.calSet), (9, 1, b2n p.lapAdjusted), (10, 1, b2n p.lapStep),
    (11, 1, b2n p.driftNow), (12, 1, b2n p.lapDormant),
    (13, 1, b2n p.lapInterrupted), (14, 1, b2n p.lapRecovered), (15, 1, b2n d.bill.frozen),
    (16, 1, b2n (b.sealOpen || d.bill.sealOpen)), (17, 1, b2n (b.unwatched && !p.lapInterrupted)), (18, 1, b2n b.tariffHeld),
    (19, 1, b2n activation), (20, 1, b2n b.unattributed), (21, 1, b2n b.recordGap), (22, 1, b2n b.poison),
    (23, 1, b2n (decide (d.now < p.lapStart + secs d.lapLen))),
    (24, 1, b2n (recon && decide (d.role n = .site)))]

/-- Body of a lap record (R210). -/
def Dev.lapBody (d : Dev) (n : LinkId) : List Byte :=
  let l := d.link n
  let b := l.bill
  let imp := (d.reg (Reg.metLapImpLo n)).toNat + 2 ^ 32 * (d.reg (Reg.metLapImpHi n)).toNat
  let exp := (d.reg (Reg.metLapExpLo n)).toNat + 2 ^ 32 * (d.reg (Reg.metLapExpHi n)).toNat
  bytesBE 8 d.pacer.lapStart ++ bytesBE 8 d.pacer.lapStartCal ++ bytesBE 2 n.1 ++ bytesBE 1 (d.role n).code ++
    bytesBE 1 (if b.lapSlot < 16 then b.lapSlot else 0xFF) ++
    bytesBE 2 (match b.tenants with | [] => 0xFFFF | [t] => t.1 | _ => 0xFFFE) ++ bytesBE 2 (satTo 16 (b.segs + b.gapSegs)) ++
    bytesBE 8 (imp + b.gapImp) ++ bytesBE 8 (exp + b.gapExp) ++ bytesBE 8 b.impMwh ++ bytesBE 8 b.expMwh ++
    bytesBE 4 b.carryImp ++ bytesBE 4 b.carryExp ++ be64 (b.lapCost + b.gapCost) ++ be32 (b.maxPower.getD 0) ++
    bytesBE 4 (d.reg (Reg.metCalCrc n)).toNat ++ bytesBE 4 (d.reg Reg.bilSealCnt).toNat ++
    bytesBE 4 ((b.session.map fun s => s.id.toNat).getD 0) ++ bytesBE 8 (b.lapSusp + b.gapSusp)

/-- A poisoned word still holds a legal register of the link: what is added to it stays poisoned (R431, R48). -/
def Dev.legalPoisoned (d : Dev) (n : LinkId) : Bool :=
  d.mem.poisonLedger.any fun w => match Config.ledgerHolder w with
    | .legal k => k == n
    | _ => false

/-- A lap record of a link queued for signing, and the link's lap values restarted (R184 steps 4 and 5). -/
def Dev.lapRecord (d : Dev) (n : LinkId) (recon activation : Bool) : Dev :=
  let flags := d.lapFlags n (d.reg (Reg.metLapFlags n)) recon activation
  (d.addRecord 1 0 (some n) n.1 flags (d.link n).bill.poison (d.lapBody n)).onBill n fun b => { b with
    segs := 0, lapSlot := 16, tenants := [], lapSusp := 0, lapCost := 0, unattributed := false, tariffHeld := false,
    sealOpen := false, unwatched := b.unwatched && d.pacer.lapInterrupted, recordGap := false, poison := d.legalPoisoned n
    maxPower := none, gapImp := 0, gapExp := 0, gapCost := 0, gapSusp := 0, gapSegs := 0 }

/-! ### Reconciliation (R202) -/

/-- Lap energy of a link, import minus export (R159). -/
def Dev.lapEnergy (d : Dev) (n : LinkId) : Int :=
  ((d.reg (Reg.metLapImpLo n)).toNat + 2 ^ 32 * (d.reg (Reg.metLapImpHi n)).toNat : Nat) -
    ((d.reg (Reg.metLapExpLo n)).toNat + 2 ^ 32 * (d.reg (Reg.metLapExpHi n)).toNat : Nat)

/-- The outlet is an AC outlet (MET_CFG.KIND). -/
def Dev.isAc (d : Dev) (n : LinkId) : Bool := d.bit (Reg.metCfg n) 0

def Dev.isDc (d : Dev) (n : LinkId) : Bool := !d.isAc n

/-- ea and eb of R202 in µJ over the laps just latched. Divisions of the lap values by 1,000 are exact in the
comparison, which is made in thousandths. -/
structure Recon where
  ea1000    : Int
  eb1000    : Int
  groups    : Int
  site      : Int
  deriving DecidableEq, Repr

def Dev.recon (d : Dev) : Recon :=
  let cfg := d.reg Reg.bilReconCfg
  let total := fun (ns : List LinkId) => (ns.map d.lapEnergy).sum
  let g := total (d.linksOf .power)
  let s := total (d.linksOf .site)
  let dc := total ((d.linksOf .outlet).filter d.isDc)
  let ac := total ((d.linksOf .outlet).filter d.isAc)
  { ea1000 := 1000 * (g - dc) - fieldOf cfg 8 8 * g
    eb1000 := 1000 * (s - g - ac) - fieldOf cfg 16 8 * g - 1000 * (fieldOf cfg 0 8 * 10 ^ 9 * d.lapLen : Nat)
    groups := g, site := s }

/-- |x| is beyond the tolerance of a base (R202). -/
def beyondTol (x1000 base : Int) (tol : Nat) : Bool := tol * max base.natAbs 3600000000 < x1000.natAbs

/-- A lap value is poisoned (R48, R202). -/
def Dev.lapPoisoned (d : Dev) : Bool := d.usedLinks.any fun n => (d.link n).bill.poison

/-- The reconciliation of a lap; answers whether it mismatches. -/
def Dev.reconcile (d : Dev) : Dev × Bool :=
  let d0 := d.setReg Reg.bilReconLap (d.reg Reg.pacLapNum)
  if d.lapPoisoned then ((d0.setReg Reg.bilReconA 0x80000000).setReg Reg.bilReconB 0x80000000, false)
  else
    let r := d.recon
    let tol := d.field Reg.bilReconCfg 24 8
    let bad := beyondTol r.ea1000 r.groups tol || beyondTol r.eb1000 r.site tol
    ((((d0.setReg Reg.bilReconA (wordOfInt (divHalfEven r.ea1000 3600000000000))).setReg Reg.bilReconB
      (wordOfInt (divHalfEven r.eb1000 3600000000000))).raiseIf bad .bil 4), bad)

/-! ### Demand (R199, R200) -/

/-- The addresses of the maxima of a kind of interval, and where their calendars stand. -/
def mdRegs (n : Nat) (sliding : Bool) : (Nat × Nat × Fin 4) × (Nat × Nat × Fin 4) :=
  if sliding then ((Reg.bilMdSldP n, Reg.bilMdSldPT n, 2), (Reg.bilMdSldC n, Reg.bilMdSldCT n, 3))
  else ((Reg.bilMdFixP n, Reg.bilMdFixPT n, 0), (Reg.bilMdFixC n, Reg.bilMdFixCT n, 1))

/-- A candidate replaces a stored maximum only if it is strictly greater (R200). -/
def Dev.maxDemand (d : Dev) (n : LinkId) (w cal : Nat) (r : Nat × Nat × Fin 4) : Dev :=
  if (d.reg r.1).toNat < w then
    ((d.setReg r.1 (satWord w)).setReg r.2.1 (BitVec.ofNat 32 cal)).onBill n fun b =>
      { b with mdAt := b.mdAt.set r.2.2.1 cal }
  else d

/-- Both maxima of a kind take a candidate value. -/
def Dev.demandValue (d : Dev) (n : LinkId) (sliding : Bool) (uj secs : Nat) : Dev :=
  let w := (divHalfEven uj (secs * 1000000)).toNat
  let r := mdRegs n.1 sliding
  (d.maxDemand n w (d.pacer.atTick d.now).cal r.1).maxDemand n w (d.pacer.atTick d.now).cal r.2

/-- Demand intervals that the present tick spoils: it lies outside RUN and ECONOMY or the calendar is unset (R200). -/
def Dev.spoilDemand (d : Dev) : Dev :=
  d.each allLinks fun d n =>
    if (d.link n).bill.fixed.good || (d.link n).bill.sliding.good then
      d.onBill n fun b => { b with fixed := { b.fixed with good := false },
                                   sliding := { b.sliding with good := false } }
    else d

/-- An interval is being made in RUN or ECONOMY with the calendar set. -/
def Dev.demandTick (d : Dev) : Bool := (d.mode = .run || d.mode = .economy) && d.pacer.calSet

/-! ### Billing periods (R201) -/

/-- Local day on which the period that contains a local second began: the last day BP_DAY. -/
def periodDay (today : Int) (bpDay : Nat) : Int :=
  ((List.range 32).findSome? fun k => if dayOfMonth (today - k) = bpDay then some (today - (k : Int)) else none).getD today

/-- SITE_PERIOD body (R212). -/
def Dev.sitePeriodBody (d : Dev) (n : LinkId) : List Byte :=
  let b := (d.link n).bill
  let mx := fun (a : Nat) (i : Nat) => bytesBE 4 (d.reg a).toNat ++ bytesBE 4 0 ++ bytesBE 8 (b.mdAt.toList.getD i 0)
  bytesBE 2 n.1 ++ bytesBE 2 0 ++ bytesBE 4 (d.reg Reg.bilPeriodNum).toNat ++ bytesBE 8 d.bill.periodStart ++
    bytesBE 8 b.impMwh ++ bytesBE 8 b.expMwh ++ mx (Reg.bilMdFixP n) 0 ++ mx (Reg.bilMdSldP n) 2 ++
    mx (Reg.bilMdFixC n) 1 ++ mx (Reg.bilMdSldC n) 3 ++ bytesBE 8 b.susp

/-- TENANT_PERIOD body (R212). -/
def Dev.tenantPeriodBody (d : Dev) (t : TenantId) : List Byte :=
  let x := d.tenant t
  bytesBE 2 t.1 ++ bytesBE 2 0 ++ bytesBE 4 (d.reg Reg.bilPeriodNum).toNat ++ bytesBE 8 d.bill.periodStart ++
    be64 x.credit ++ be64 x.consumed ++ be64 x.grants ++ bytesBE 4 (d.reg (Reg.bilTGrantSerial t)).toNat ++
    bytesBE 4 x.ended ++ (x.slotImp.toList.flatMap fun v => bytesBE 8 v) ++
    (x.slotExp.toList.flatMap fun v => bytesBE 8 v)

/-- The end of a billing period: its settlement records, the period maxima reset, the period number raised (R201). -/
def Dev.closePeriod (d : Dev) (day : Nat) : Dev :=
  let metered := allLinks.filter fun n => decide (d.role n = .outlet) || decide (d.role n = .site)
  let d1 := d.each metered fun d n => d.addRecord 3 2 (some n) (2000 + n.1) 0 (d.link n).bill.poison (d.sitePeriodBody n)
  let d2 := d1.each allTenants fun d t =>
    if (d.tenant t).active || (d.tenant t).credit != 0 || !(d.sessionsOf t).isEmpty then
      d.addRecord 3 1 none (2000 + t.1) 0 (d.tenant t).poisoned (d.tenantPeriodBody t)
    else d
  let d3 := d2.each metered fun d n =>
    ((((d.setReg (Reg.bilMdFixP n) 0).setReg (Reg.bilMdFixPT n) 0).setReg (Reg.bilMdSldP n) 0).setReg
      (Reg.bilMdSldPT n) 0).onBill n fun b => { b with mdAt := (b.mdAt.set 0 0).set 2 0 }
  let d4 : Dev := { d3 with tenants := d3.tenants.map fun t => { t with ended := 0, active := false } }
  let cal := (d.pacer.atTick d.now).cal
  (((d4.setReg Reg.bilPeriodNum (d.reg Reg.bilPeriodNum + 1)).setReg Reg.bilPeriodStart (BitVec.ofNat 32 cal)).onBilling
    fun b => { b with periodStart := cal, lastMidnight := day }).raise .bil 3

/-- At a lap boundary a billing period may end (R201); the first period begins when the calendar is first known. -/
def Dev.periodStep (d : Dev) : Dev :=
  let p := d.pacer.atTick d.now
  if p.calSet then
    let off := sfieldOf (d.reg Reg.bilCfg) 20 12
    let day := (periodDay ((p.cal + 60 * off) / 86400) (d.field Reg.bilCfg 0 5)).toNat
    if d.bill.lastMidnight = 0 then (d.setReg Reg.bilPeriodStart (BitVec.ofNat 32 p.cal)).onBilling fun b =>
      { b with lastMidnight := day, periodStart := p.cal }
    else if d.bill.lastMidnight < day then d.closePeriod day
    else d
  else d

/-! ### Sessions in the ledger -/

/-- A session begins in the ledger at its start tick (R180, R211, R266). -/
def Dev.openSession (d : Dev) (n : LinkId) (t : TenantId) (path : AuthPath) (credHash : List Byte) (protocol : Nat) (late : Bool) :
    Dev :=
  let s : SessionCost :=
    { id := d.bill.nextSession, tenant := t, path := path, startTick := d.now,
      startCal := if d.pacer.calSet then d.pacer.cal else 0, cost := 0, remImp := 0, remExp := 0, charged := 0, resv := 0,
      imp := 0, exp := 0, susp := 0, slots := 0, maxPower := none, credHash := credHash, protocol := protocol, late := late }
  (((d.closeSegment n).onBill n fun b => { b with session := some s, slot := d.slotNow t, segStart := d.now }).onBilling fun b =>
    { b with nextSession := b.nextSession + 1 }).commitTotals

def StopReason.code : StopReason → Nat
  | .none => 0
  | .vehicle => 1
  | .unplug => 2
  | .credit => 3
  | .remote => 4
  | .trip => 5
  | .senseOpen => 6
  | .powerLoss => 7
  | .modeChange => 8

def AuthPath.code : AuthPath → Nat
  | .card => 1
  | .tag => 2
  | .contract => 3
  | .remote => 4

/-- Seconds of a session up to a tick. -/
def SessionCost.duration (s : SessionCost) (now : Tick) : Nat := (now - s.startTick) / 1000000

/-- Body of a session record (R211). -/
def sessionBody (n : LinkId) (s : SessionCost) (reason : Nat) (now : Tick) : List Byte :=
  bytesBE 8 s.startTick ++ bytesBE 8 s.startCal ++ bytesBE 2 n.1 ++ bytesBE 2 s.tenant.1 ++ bytesBE 4 s.id.toNat ++
    bytesBE 1 s.path.code ++ bytesBE 1 reason ++ bytesBE 2 s.protocol ++ bytesBE 4 (s.duration now) ++
    padTo 16 s.credHash ++ bytesBE 8 s.imp ++ bytesBE 8 s.exp ++ be64 s.charged ++ be64 s.cost ++
    be32 (s.maxPower.getD 0) ++ bytesBE 4 s.slots.toNat ++ bytesBE 8 s.susp

/-- The planning lap that ends in the open tick counts for the running lap of a link and for its session (R210, R211): its mean
power, larger than the largest so far. -/
def Dev.notePower (d : Dev) (n : LinkId) : Dev :=
  match (d.link n).met.planPower with
  | some w =>
    let top := fun (x : Option Int) => some ((x.map (max w)).getD w)
    d.onBill n fun b => { b with
      maxPower := top b.maxPower
      session := b.session.map fun s => if s.startTick < d.now then { s with maxPower := top s.maxPower } else s }
  | none => d

/-- A planning lap ends in the open tick, and its values have not yet been latched. -/
def Dev.planEnds (d : Dev) : Bool := d.now % 100000 == 0 && d.pacer.plannedAt != some d.now

/-- A session ends in the ledger at its end tick: the segment closes, the tenant is charged, the record is issued
(R180, R193, R211, R266). -/
def Dev.closeSession (d : Dev) (n : LinkId) (reason : StopReason) : Dev :=
  let d1 := ((applyIf d.planEnds (fun d => d.notePower n) d).closeSegment n).charge n
  match (d1.link n).bill.session with
  | none => d
  | some s =>
    let poisoned := (d1.link n).bill.poison
    let flags := packWord [(7, 1, b2n (s.susp != 0 || s.late)), (8, 1, b2n !d.pacer.calSet),
      (13, 1, b2n (reason == .powerLoss)), (16, 1, b2n d1.bill.sealOpen), (22, 1, b2n poisoned)]
    let d2 := d1.addRecord 2 0 (some n) (1000 + n.1) flags poisoned (sessionBody n s reason.code d.now)
    let d3 := d2.onBill n fun b =>
      { b with session := none, slot := 16, lastSession := some s, lastDuration := s.duration d.now }
    ((d3.onTenant s.tenant fun t => { t with ended := t.ended + 1, active := true }).sumResv s.tenant).commitTotals

/-! ### Laps -/

/-- A new lap begins for a link: the slot in force is fixed (R188), and the running values restart (R159, R165). -/
def Dev.beginLapLink (d : Dev) (n : LinkId) : Dev :=
  (d.onMet n fun m => { m with
    bridgedCnt := 0, ocLap := 0, flags := MetFlags.none
    chans := m.chans.map fun c => { c with pkMax := none, pkMin := none } }).onBill n fun b => { b with
    segStart := d.now, sealOpen := d.bill.sealOpen
    slot := match b.session with
      | some s => d.slotNow s.tenant
      | none => 16 }

/-- A new lap begins at the open tick. It is one of MAINTENANCE in that mode alone (R182). -/
def Dev.beginLap (d : Dev) : Dev :=
  let d1 := d.onPacer fun p => { p with
    lapRunning := true, lapStart := d.now, lapStartCal := if p.calSet then (p.atTick d.now).cal else 0, lapStartSet := p.calSet, lapEndAt := none,
    lapAdjusted := false, lapStep := false, lapRecovered := false, lapInterrupted := false,
    lapDormant := false, lapSeconds := 0, lastBoundary := some d.now }
  let d2 := (d1.setReg Reg.pacLapStartLo (BitVec.ofNat 32 d.now)).setReg Reg.pacLapStartHi
    (BitVec.ofNat 32 (d.now / 2 ^ 32))
  (d2.each d2.usedLinks Dev.beginLapLink).onBilling fun b => { b with frozen := d.mode == .maintenance }

/-- Every link with a role closes its lap, in ascending order of source 4n + 1 (R184): segment, slots, price and charge,
latches; then the reconciliation, and the lap records. -/
def Dev.closeLap (d : Dev) (activation : Bool) : Dev :=
  let d0 := applyIf d.planEnds (fun d => d.each d.usedLinks Dev.notePower) d
  let d1 := d0.each d.usedLinks fun d n => ((d.closeSegment n).charge n).latchLap n
  let r := d1.reconcile
  let d2 := r.1.each d.usedLinks fun d n => d.lapRecord n r.2 activation
  ((d2.setReg Reg.pacLapNum (d2.reg Reg.pacLapNum + 1)).onPacer fun p => { p with lapRunning := false }).commitTotals

/-- A flag for the lap that a boundary of this tick has closed: its records still wait for their issue. -/
def Dev.flagClosedLap (d : Dev) (bit : Nat) : Dev :=
  d.onBilling fun b => { b with
    waiting := b.waiting.map fun r =>
      if r.kind = 1 then { r with bytes := patch r.bytes 0x2C (bytesBE 4 (Nat.lor (fieldBE r.bytes 0x2C 4) (2 ^ bit))) }
      else r }

/-- The counters of the always-on domain are mirrored into the ledger store (R77, R203). -/
def Dev.mirror (d : Dev) : Dev :=
  d.onPower fun p => { p with
    opSecondsMirror := d.reg Reg.pwrOpSeconds, cyclesMirror := d.reg Reg.pwrCycles, sealCntMirror := d.reg Reg.bilSealCnt }

/-- The Pacer counts ticks: the core is powered and not held in reset. -/
def Dev.ticking (d : Dev) : Bool := !d.power.resetHeld && (d.mode != .dormant || d.power.entering)

/-- A lap boundary is carried out at the open tick (R184, R201, R77): the running lap closes, a billing period may end, the
counters are mirrored, and the next lap begins. -/
def Dev.crossLap (d : Dev) : Dev :=
  (((d.onPacer fun p => p.atTick d.now).closeLap false).periodStep.mirror).beginLap

/-- A lap boundary falls in the open tick and has not been carried out. -/
def Dev.lapDue (d : Dev) : Bool := d.ticking && d.atBoundary

/-- The lap closure precedes every other commit of its tick (R39, R184, R185): what commits to the ledger carries out a boundary
that is due first. -/
def Dev.lapFirst (d : Dev) : Dev := if d.lapDue then d.crossLap else d

/-! ### Tariff holds (R190, R191) -/

/-- Bytes of a switch table and UTC_OFF, for the hashes of a TARIFF_CHANGE record (R212). -/
def tariffTable (get : Nat → Word) (t : TenantId) : List Byte :=
  ((List.range 24).flatMap fun i => wordBytes (get (Reg.bilTXSwitch t i))) ++
    bytesBE 2 (fieldOf (get (Reg.bilTXCfg t)) 16 12)

/-- TARIFF_CHANGE body, from the tariff in force to the one written (R212). -/
def Dev.tariffBody (d : Dev) (t : TenantId) : List Byte :=
  let x := d.tenant t
  let prices := fun (get : Nat → Word) (a : Nat → Nat) => (List.range 16).flatMap fun i => wordBytes (get (a i))
  bytesBE 2 t.1 ++ bytesBE 2 0 ++ bytesBE 4 x.heldLap.toNat ++ bytesBE 8 x.interimImp.toList.sum ++ bytesBE 8 x.interimExp.toList.sum ++
    prices d.setting (Reg.bilTXPriceImp t) ++ prices d.reg (Reg.bilTXPriceImp t) ++
    prices d.setting (Reg.bilTXPriceExp t) ++ prices d.reg (Reg.bilTXPriceExp t) ++
    hash16 (tariffTable d.setting t) ++ hash16 (tariffTable d.reg t)

/-- A tariff HOLD takes effect (R190). -/
def Dev.holdTariff (d : Dev) (t : TenantId) : Dev :=
  d.onTenant t fun x => { x with held := true, heldAt := d.now, heldLap := d.reg Reg.pacLapNum,
                                 interimImp := Vector.replicate 16 0, interimExp := Vector.replicate 16 0 }

/-- A tariff RESUME takes effect: TARIFF_CHANGE record, interim cleared (R190). The slot of the function is freed by the
caller. -/
def Dev.resumeTariff (d : Dev) (t : TenantId) : Dev :=
  ((d.addRecord 3 3 none (2000 + t.1) 0 (d.tenant t).poisoned (d.tariffBody t)).onTenant t fun x =>
    { x with held := false, interimImp := Vector.replicate 16 0, interimExp := Vector.replicate 16 0 }).raise (.bilT t) 0

/-- The slots of a lap that begins at the open tick follow a tariff that is resumed at it (R188, R190). -/
def Dev.refixSlots (d : Dev) (t : TenantId) : Dev :=
  if d.pacer.lapStart = d.now then d.each (d.sessionsOf t) fun d n => d.onBill n fun b => { b with slot := d.slotNow t } else d

/-! ### Grants (R197, R198) -/

/-- A verified grant of a tenant: its amount and serial, its bytes as received, and whether its result came late (R34). -/
def Dev.applyGrant (d : Dev) (t : TenantId) (amount : Int) (serial : Word) (raw : List Byte) (late : Bool) : Dev :=
  if serial.toNat ≤ (d.reg (Reg.bilTGrantSerial t)).toNat then d.raise (.bilT t) 2
  else
    let x := d.tenant t
    let grants := if x.poisoned then x.lastGrants + amount else x.grants + amount
    let credit := if x.poisoned then grants - x.consumed else x.credit + amount
    let d1 := ((d.onTenant t fun x => { x with
        grants := grants, credit := credit, lastGrants := grants, active := true
        poisoned := x.poisoned && x.consumedPoisoned }).setReg (Reg.bilTGrantSerial t) serial).raise (.bilT t) 1
    let d2 := d1.checkLow d t
    d2.addRecord 3 4 none (2000 + t.1) (packWord [(7, 1, b2n late)]) (d2.tenant t).poisoned
      (bytesBE 2 t.1 ++ bytesBE 2 0 ++ bytesBE 4 serial.toNat ++ be64 amount ++ be64 credit ++ be64 grants ++ hash16 raw)

end Sys2Proof.Machine
end

