-- ==== Sys2Proof/Machine/AllocOps.lean ====
section
/-! DEFINITION. Operations of the allocation engine: contactor commands, galvanic segments, budget and tokens, group
drive, withdrawal and release, planning, moves and exchanges (R219 to R246). -/

namespace Sys2Proof.Machine

/-! ### Settings and measures -/

def Dev.outKw (d : Dev) (n : LinkId) : Nat := d.field (Reg.alcLCfg n) 0 16
def Dev.outA (d : Dev) (n : LinkId) : Nat := d.field (Reg.alcLCfg n) 20 12
def Dev.prio (d : Dev) (n : LinkId) : Nat := d.field (Reg.alcLCfg n) 16 3
def Dev.closeMs (d : Dev) : Nat := d.settingField Reg.alcXFb 0 16
def Dev.openMs (d : Dev) : Nat := d.settingField Reg.alcXFb 16 16
def Dev.rampMs (d : Dev) : Nat := d.settingField Reg.alcXTime1 16 16
def Dev.reduceMs (d : Dev) : Nat := d.settingField Reg.alcXTime1 0 16
def Dev.segMs (d : Dev) : Nat := d.settingField Reg.alcXTime2 16 16
def Dev.matchMs (d : Dev) : Nat := d.settingField Reg.alcXTime2 0 16
def Dev.deadV (d : Dev) : Nat := d.settingField Reg.alcXLevel 16 8
def Dev.matchV (d : Dev) : Nat := d.settingField Reg.alcXLevel 8 8
def Dev.releaseA (d : Dev) : Nat := d.settingField Reg.alcXLevel 0 8
def Dev.minKw (d : Dev) : Nat := d.settingField Reg.alcXMove 0 8
def Dev.moveHold (d : Dev) : Nat := d.settingField Reg.alcXMove 8 8
def Dev.groupRest (d : Dev) : Nat := d.settingField Reg.alcXMove 16 8
def Dev.maxPerRx (d : Dev) : Nat := d.settingField Reg.alcXMove 24 4

/-- One volt, or one ampere, in channel units of 10 µV and 10 µA (R151, R156). -/
def unitsPer : Nat := 100000

/-- The newest calibrated samples of a channel, at most 32. -/
def Dev.samples (d : Dev) (n : LinkId) (ch : Nat) : List Int :=
  ((d.link n).met.chans.toList.getD ch Channel.reset).last

/-- Sum and count over the last 32 samples of a channel. -/
def Dev.sum32 (d : Dev) (n : LinkId) (ch : Nat) : Int × Nat := ((d.samples n ch).sum, (d.samples n ch).length)

/-- The magnitude of the mean over 32 samples is at or below a number of volts or amperes. -/
def Dev.meanAtMost (d : Dev) (n : LinkId) (ch lim : Nat) : Bool :=
  (d.sum32 n ch).1.natAbs ≤ lim * unitsPer * (d.sum32 n ch).2

/-- The magnitude of the mean over 32 samples is below a number of volts; there is a sample. -/
def Dev.meanBelow (d : Dev) (n : LinkId) (ch lim : Nat) : Bool :=
  decide ((d.sum32 n ch).1.natAbs < lim * unitsPer * (d.sum32 n ch).2)

/-- Mean of a channel over 32 samples in tenths of a volt or ampere, rounded toward zero. -/
def Dev.meanTenths (d : Dev) (n : LinkId) (ch : Nat) : Nat :=
  let s := d.sum32 n ch
  if s.2 = 0 then 0 else s.1.toNat / (s.2 * (unitsPer / 10))

/-- Contactor feedback of a link, from the last valid frame (R123, R131). -/
def Dev.fb (d : Dev) (n : LinkId) (k : Nat) : Bool := (d.link n).hs.fb.getLsbD k

/-- The feedback of every contactor of every link reads open. -/
def Dev.allOpen (d : Dev) : Bool := allLinks.all fun n => (d.link n).hs.fb == 0

/-- A supply warning is in force: heads are braced and no contactor closes (R70). -/
def Dev.warned (d : Dev) : Bool := d.power.brace

/-! ### Contactor commands -/

/-- A contactor is commanded. A changed command has not yet been carried by a frame, and its supervision starts anew
(R239). Nothing is commanded closed while heads are braced (R70). -/
def Dev.command (d : Dev) (n : LinkId) (k : Fin 16) (shut : Bool) : Dev :=
  if (d.link n).cmd.close.getLsbD k.1 == shut || (shut && d.warned) then d
  else
    let bit := BitVec.ofNat 16 (2 ^ k.1)
    (d.onCmd n fun c => { c with close := if shut then c.close ||| bit else c.close &&& ~~~bit }).onCon n fun c => { c with
      carried := c.carried.set k.1 none, seen := c.seen &&& ~~~bit, openFault := c.openFault &&& ~~~bit
      weld := c.weld &&& ~~~bit }

/-- Every contactor of a link is commanded open. -/
def Dev.openAll (d : Dev) (n : LinkId) : Dev := d.each (List.finRange 16) fun d k => d.command n k false

/-! ### The matrix -/

/-- Destination of a matrix contactor (R220). -/
def Dev.dest (d : Dev) (g : LinkId) (k : Nat) : Option LinkId := linkOfNat (d.field (Reg.alcMx g k) 0 8)

/-- The contactor of a group that leads to an outlet. -/
def Dev.contactorTo (d : Dev) (g o : LinkId) : Option (Fin 16) :=
  (List.finRange 16).find? fun k => d.dest g k.1 == some o

def Dev.reaches (d : Dev) (g o : LinkId) : Bool := (d.contactorTo g o).isSome

def Dev.powers (d : Dev) : List LinkId := d.linksOf .power

def Dev.outlets (d : Dev) : List LinkId := d.linksOf .outlet

/-- Groups an outlet owns. -/
def Dev.owned (d : Dev) (o : LinkId) : List LinkId := d.powers.filter fun g => (d.link g).group.owner == some o

/-- Groups an outlet owns in the sharing state. -/
def Dev.sharing (d : Dev) (o : LinkId) : List LinkId := (d.owned o).filter fun g => (d.link g).group.state == .owned

def Dev.kwOf (d : Dev) (gs : List LinkId) : Nat := (gs.map d.outKw).sum

/-! ### Galvanic segments (R240) -/

/-- A contactor is taken as closed: its feedback reads closed, or the command carried in the device frame closes it. -/
def Dev.taken (d : Dev) (g : LinkId) (k : Fin 16) : Bool := d.fb g k.1 || bitOf (d.link g).frame.b33 k.1

/-- Two labels become the lower one. -/
def joinLabels (v : Vector Nat 144) (a b : LinkId) : Vector Nat 144 :=
  let x := v.get a
  let y := v.get b
  if x = y then v else v.map fun z => if z = max x y then min x y else z

/-- Segment identity of every link: the lowest link number among its members. -/
def Dev.labels (d : Dev) : Vector Nat 144 :=
  d.powers.foldl (fun v g =>
    (List.finRange 16).foldl (fun v k =>
      match d.dest g k.1 with
      | some o => if d.taken g k then joinLabels v g o else v
      | none => v) v) (Vector.ofFn fun i => i.1)

/-- The head can inject (R290, R292), and no SEG_PREPARE has ended its injection (R296 step 1). -/
def Dev.canInject (d : Dev) (n : LinkId) : Bool :=
  d.trained n && ((d.link n).prot.injR.getD 0) != 0 && d.prot.segs.all fun s => decide (s.group ≠ n)

/-- GMODE that a group is commanded to. -/
def Dev.gmodeOf (d : Dev) (g : LinkId) : Nat := (d.link g).cmd.gmode.toNat

/-- Insulation monitoring applies to DC outlets and to groups. -/
def Dev.hasImd (d : Dev) (n : LinkId) : Bool :=
  decide (d.role n = .outlet) && d.isDc n || decide (d.role n = .power)

/-- The injector of a segment (R292, R298, R320): the outlet's head if it can inject, else the lowest-linked power head that
can; a single group injects only while its GMODE is not 0. -/
def Dev.injectorOf (d : Dev) (ms : List LinkId) : Option LinkId :=
  if d.mode = .startingBlock ∨ d.mode = .waking ∨ d.mode = .dormant then none
  else
    match ms with
    | [g] => if d.canInject g && (decide (d.role g = .outlet) && d.isDc g || decide (d.role g = .power) && d.gmodeOf g != 0)
        then some g else none
    | _ =>
      match ms.find? fun n => decide (d.role n = .outlet) && d.canInject n with
      | some o => some o
      | none => ms.find? fun n => decide (d.role n = .power) && d.canInject n

/-- Insulation monitoring of a segment restarts (R295): the half-periods begin anew with a positive one; the last valid
value and the beginning of the blind time are given. -/
def Insulation.restart (i : Insulation) (now : Tick) (value : Option Nat) (blind : Tick) : Insulation :=
  { i with halfStart := nextSample now, restartAt := now, positive := true, qSum := 0, qN := 0, qBridged := false, halves := [],
           value := value, blindSince := some blind }

/-- The lowest of the values that are known. -/
def lowest (vs : List (Option Nat)) : Option Nat := (vs.filterMap id).min?

/-- Every member of a segment restarts, with the lowest last valid value and the earliest blind beginning among the
values its members brought (R295). -/
def Dev.restartSegment (d : Dev) (ms : List LinkId) : Dev :=
  let imds := ms.map fun n => (d.link n).prot.imd
  let value := lowest (imds.map Insulation.value)
  let below := imds.any Insulation.belowFault
  let blind := ((imds.filterMap Insulation.blindSince).min?).getD d.now
  d.each ms fun d n => d.onProt n fun p => { p with imd := { p.imd.restart d.now value blind with belowFault := below } }

/-- A frame that the head has been sent whole: whether it and the next one carry INJ_EN = 1, and whether it was displaced
(R126, R296). -/
def Insulation.countQuiet (i : Insulation) (sent next spoiled : Bool) : Insulation :=
  { i with quiet := if sent || next then 0 else if spoiled then i.quiet else min 2 (i.quiet + 1) }

/-- A segment without an injector is blind for as long as it has none (R295). -/
def Dev.blindWithout (d : Dev) (n : LinkId) : Dev :=
  if d.hasImd n ∧ (d.link n).prot.imd.blindSince.isNone then
    d.onProt n fun p => { p with imd := { p.imd with blindSince := some d.now } }
  else d

/-- Injectors follow the segments; a change of injector restarts (R292, R295). -/
def Dev.chooseInjectors (d : Dev) : Dev :=
  d.each allLinks fun d n =>
    let ms := (d.link n).prot.members
    if ms.head? = some n then
      let inj := d.injectorOf ms
      let old := ms.find? fun m => (d.link m).prot.imd.injecting
      let d1 := d.each ms fun d m => d.onProt m fun p => { p with imd := { p.imd with injecting := inj == some m } }
      let d2 := if inj = old then d1 else d1.restartSegment ms
      if inj.isNone then d2.each ms Dev.blindWithout else d2
    else d

/-- The segment map, recomputed (R240) and delivered to protection: segments whose membership changed restart their
insulation monitoring. -/
def Dev.updateSegments (d : Dev) : Dev :=
  let v := d.labels
  let members := fun (id : Nat) => allLinks.filter fun m => v.get m == id
  let changed := allLinks.filter fun n => (d.link n).prot.members != members (v.get n)
  if changed.isEmpty then d
  else
    let heads := changed.filter fun n => v.get n == n.1
    let d1 := d.each changed fun d n => d.onProt n fun p => { p with seg := v.get n, members := members (v.get n) }
    (d1.each heads fun d n => d.restartSegment (d.link n).prot.members).chooseInjectors

/-! ### Budget and tokens (R224 to R228) -/

def Dev.pending (d : Dev) : Nat := (allLinks.map fun n => (d.link n).out.pending).sum

def Dev.granted (d : Dev) : Nat := (allLinks.map fun n => (d.link n).out.grant).sum

/-- The utility term (R224): the limit in force, FALLBACK_KW while one has expired, none otherwise. -/
def Dev.utilTerm (d : Dev) : Nat :=
  let fb := d.settingField Reg.alcXBudget 16 16
  if !d.pacer.calSet then (if d.alloc.everLimit then fb else 0xFFFF)
  else match d.alloc.limit with
    | some l => l.kw
    | none => if d.alloc.expired then fb else 0xFFFF

/-- The smallest of the budget's terms; a term of 0xFFFF is absent (R224). -/
def Dev.budgetTerm (d : Dev) : Nat :=
  min (min (d.settingField Reg.alcXBudget 0 16) d.utilTerm) (d.field Reg.alcHostLimit 0 16)

/-- A change of a term is accepted (R225): a raise is in force from the next tick boundary, a lowered budget awaits
force. -/
def Dev.setBudget (d : Dev) : Dev :=
  let b := d.budgetTerm
  if d.alloc.inForce < b then d.onAlloc fun a => { a with raise := some b, target := none }
  else if b < d.alloc.inForce then d.onAlloc fun a => { a with target := some b, raise := none }
  else d.onAlloc fun a => { a with target := none, raise := none }

/-- A raised budget comes into force at the tick boundary (R47). -/
def Dev.budgetRaise (d : Dev) : Dev :=
  match d.alloc.raise with
  | some b => (d.onAlloc fun a => { a with inForce := b, raise := none }).raise .alc 1 (BitVec.ofNat 32 b)
  | none => d

/-- Tokens cut from a grant become pending at once (R226); REDUCE_MS runs from the first cut that is not yet credited (R227). -/
def OutletAlloc.cut (o : OutletAlloc) (new : Nat) (now : Tick) : OutletAlloc :=
  if new < o.grant then
    { o with pending := o.pending + (o.grant - new), grant := new
             cutAt := if o.pending = 0 then now else o.cutAt, stopDone := o.stopDone && o.pending != 0 }
  else o

/-- LIM_A of a grant (R255): the grant over the outlet's voltage. -/
def Dev.limA (d : Dev) (n : LinkId) (grant : Nat) : Nat :=
  let v := (d.reg (Reg.metRms n 0)).toNat
  satTo 16 (if v = 0 then Config.limAAtZero grant else grant * 1000 * unitsPer / v)

/-- Limits published to the session (R246). -/
def Dev.publishGrant (d : Dev) (n : LinkId) : Dev :=
  d.onOut n fun o => { o with limA := BitVec.ofNat 16 (d.limA n (d.link n).out.grant), limKw := BitVec.ofNat 16 o.grant }

/-- A grant is raised within the account; a raise that would break the account is refused and recorded (R48, R226). -/
def Dev.raiseGrant (d : Dev) (n : LinkId) (cap : Nat) : Dev :=
  let used := d.granted + d.pending
  let o := (d.link n).out
  if cap ≤ o.grant then d
  else if d.alloc.inForce < used then d.raise .alc 6
  else d.onOut n fun o => { o with grant := o.grant + min (cap - o.grant) (d.alloc.inForce - used) }

/-! ### Withdrawal and release -/

def Group.free (g : Group) (now : Tick) : Group :=
  { g with state := .free, owner := none, idleSince := now, assign := none, release := none, why := .none,
           breakAt := none, clearSince := none, heldBy := none }

/-- The ownership map is empty, and every group free (R244). -/
def Dev.freeAll (d : Dev) : Dev := d.each d.powers fun d g => d.onGroup g fun x => x.free d.now

/-- Time that the group of an exchange has been owned by no outlet, in ms (R245). -/
def Exchange.unownedMs (e : Exchange) (now : Tick) : Nat :=
  match e.unownedAt with
  | some t => msSince t now 16
  | none => 0

/-- An exchange leaves its slot; the slot keeps what R245 shows. -/
def Dev.closeSlot (d : Dev) (x : Fin 16) (abort : Option Nat) : Dev :=
  match d.alloc.slots.get x with
  | some e =>
    let old := ((d.alloc.infos.get x).map ExchangeInfo.reason).getD 0
    d.onAlloc fun a => { a with
      slots := a.slots.set x.1 none
      infos := a.infos.set x.1 (some { exch := e, endedAt := d.now, aborted := abort.isSome,
                                       unownedMs := e.unownedMs d.now, reason := abort.getD old }) }
  | none => d

/-- A SEG_PREPARE of a group is withdrawn or done with (R296). -/
def Dev.dropSeg (d : Dev) (g : LinkId) : Dev :=
  d.onProtection fun p => { p with segs := p.segs.filter fun s => decide (s.group ≠ g) }

/-- The grant of an outlet is cut to what its sharing groups can carry (R223). -/
def Dev.cutToGroups (d : Dev) (o : LinkId) : Dev :=
  let cap := d.kwOf (d.sharing o)
  (d.onOut o fun x => x.cut cap d.now).publishGrant o

/-- A group that no exchange moves is withdrawn from planning (R223): its outlet's grant is cut, GMODE 0 is commanded, and its
contactor waits to open. -/
def Dev.takeOut (d : Dev) (g : LinkId) (why : WithdrawWhy) : Dev :=
  let owner := (d.link g).group.owner
  let d1 := ((d.dropSeg g).onGroup g fun x => { x with
      state := .withdrawn, why := why, assign := none, release := none, clearSince := none, heldBy := none,
      breakAt := some d.now }).raise .alc 5 (BitVec.ofNat 32 g.1)
  match owner with
  | some o => d1.cutToGroups o
  | none => d1

/-- The exchange slot that moves a group. -/
def Dev.slotOf (d : Dev) (g : LinkId) : Option (Fin 16) :=
  (List.finRange 16).find? fun x => ((d.alloc.slots.get x).map fun e => decide (e.group = g)).getD false

/-- What becomes of the group of an aborted exchange (R237): with the donor and sharing; free and not rested, a contactor
commanded closed at step 7 commanded open again; or withdrawn. A group that is being withdrawn itself (codes 7 and 9) is left
to that withdrawal. -/
def Dev.afterAbort (d : Dev) (e : Exchange) (code : Nat) : Dev :=
  let g := e.group
  let d1 := match decide (e.step = 7), d.contactorTo g e.receiver with
    | true, some k => d.command g k false
    | _, _ => d
  let back := d1.onGroup g fun x => { x with state := .owned, owner := e.donor }
  let idle := d1.onGroup g fun x => { x.free d.now with joinedAt := some d.now }
  match code with
  | 1 | 2 => back
  | 3 => (d1.onGroup g fun x => { x with owner := e.donor }).takeOut g .weld
  | 6 => (d1.onGroup g fun x => { x with owner := none }).takeOut g .openFault
  | 7 | 9 => d
  | _ => if e.step < 4 then back else idle

/-- An exchange is aborted with a reason code (R237). -/
def Dev.abortExchange (d : Dev) (x : Fin 16) (code : Nat) : Dev :=
  match d.alloc.slots.get x with
  | some e => (((((d.closeSlot x (some code)).dropSeg e.group).afterAbort e code)).count Reg.alcAbortCnt).raise .alc 0
      (packWord [(0, 4, code), (8, 4, x.1)])
  | none => d

/-- Of several reasons admitted in one tick the lowest code is recorded (R237). -/
def Dev.lowerReason (d : Dev) (x : Fin 16) (hit : Exchange → Bool) (code : Nat) : Dev :=
  match d.alloc.slots.get x, d.alloc.infos.get x with
  | none, some i =>
    if i.aborted ∧ i.endedAt = d.now ∧ hit i.exch ∧ code < i.reason then
      d.onAlloc fun a => { a with infos := a.infos.set x.1 (some { i with reason := code }) }
    else d
  | _, _ => d

/-- Every exchange that a happening concerns aborts with its code (R237). -/
def Dev.abortWhere (d : Dev) (hit : Exchange → Bool) (code : Nat) : Dev :=
  d.each (List.finRange 16) fun d x =>
    match d.alloc.slots.get x with
    | some e => if hit e then d.abortExchange x code else d
    | none => d.lowerReason x hit code

def Dev.abortAll (d : Dev) (code : Nat) : Dev := d.abortWhere (fun _ => true) code

/-- A group is withdrawn from planning (R223); an exchange that moves it aborts. A trip is the reason shown of a group that was
withdrawn before (R283). -/
def Dev.withdraw (d : Dev) (g : LinkId) (why : WithdrawWhy) : Dev :=
  let d1 := d.abortWhere (fun e => e.group == g) (if why = .trip then 7 else 9)
  if (d1.link g).group.state ≠ .withdrawn then d1.takeOut g why
  else if why = .trip then d1.onGroup g fun x => { x with why := .trip, clearSince := none }
  else d1

/-- An exchange whose donor or receiver a trip forces aborts, and its group is withdrawn until the release (R237 code 7). -/
def Dev.tripExchanges (d : Dev) (n : LinkId) : Dev :=
  let hit := fun (e : Exchange) => e.receiver == n || e.donor == some n
  let gs := (d.alloc.slots.toList.filterMap id).filterMap fun e => if hit e then some e.group else none
  (d.abortWhere hit 7).each gs fun d g => (d.withdraw g .trip).onGroup g fun x => { x with heldBy := some n }

/-- Groups of an outlet begin their release (R233). -/
def Dev.releaseGroups (d : Dev) (o : LinkId) : Dev :=
  d.each (d.sharing o) fun d g => d.onGroup g fun x => { x with state := .releasing, release := some (.rampDown, d.now) }

/-- A matrix contactor closed on a group: its index. -/
def Dev.closedContactor (d : Dev) (g : LinkId) : Option (Fin 16) :=
  (List.finRange 16).find? fun k => (d.link g).cmd.close.getLsbD k.1

/-! ### Planning (R229 to R231) -/

/-- A live session stands on an outlet (R266). -/
def Dev.sessionLive (d : Dev) (n : LinkId) : Bool := (d.link n).veh.live

/-- The first elements of a list in ECONOMY, where at most 24 outlets hold grants (R244). -/
def Dev.granting (d : Dev) (os : List LinkId) : List LinkId := if d.mode = .economy then os.take 24 else os

/-- The modes in which allocation serves (R244). -/
def Dev.serving (d : Dev) : Bool := decide (d.mode = .run) || decide (d.mode = .economy) || decide (d.mode = .maintenance)

/-- Outlets with a live session, PRIO descending, then link ascending; one that a trip forces has none to plan for (R283). -/
def Dev.planOrder (d : Dev) : List LinkId :=
  let live := d.outlets.filter fun n => d.serving && d.sessionLive n && (d.link n).prot.latch.isNone
  d.granting ([7, 6, 5, 4, 3, 2, 1, 0].flatMap fun p => live.filter fun n => d.prio n == p)

/-- Base current limit of R303 in tenths of an ampere. -/
def Dev.iBase10 (d : Dev) (n : LinkId) : Nat :=
  let v := (d.link n).veh
  let neg := if v.discharge then v.maxDisI.toNat else d.field (Reg.vehEvCurr n) 0 16
  let own := 10 * min v.cableA (d.outA n)
  if neg = 0 then own else min own neg

/-- Base voltage limit of R303 in tenths of a volt. -/
def Dev.vBase10 (d : Dev) (n : LinkId) : Nat :=
  let maxV := d.field (Reg.vehEvVolt n) 16 16
  min (if maxV = 0 then 0xFFFF else maxV) (10 * d.field (Reg.prtLCfg n) 20 12)

/-- UNCOOLED_A of the auxiliary channels whose cap is applied, from the planning lap boundary of its decision (R475). -/
def Dev.auxCap (d : Dev) (n : LinkId) : Nat :=
  (List.finRange 4).foldl (fun m k =>
    if ((d.link n).aux.get k).capIn then min m (d.settingField (Reg.auxXTach n k) 8 12) else m) 0xFFFF

/-- The protection current limit in A (R303, R475). -/
def Dev.protA (d : Dev) (n : LinkId) : Nat :=
  min (if (d.link n).prot.reducingI then 9 * d.iBase10 n / 100 else 0xFFFF) (d.auxCap n)

/-- The limit of an outlet for planning (R229). -/
def Dev.planLimit (d : Dev) (n : LinkId) : Nat :=
  let prot := if d.protA n < 0xFFFF then d.protA n * (d.reg (Reg.metRms n 0)).toNat / (1000 * unitsPer) else 0xFFFF
  let pw := d.reg (Reg.vehEvPower n)
  let nego := if (d.link n).veh.discharge then fieldOf pw 16 16 else fieldOf pw 0 16
  min (min (d.outKw n) prot) (if pw = 0 then 0xFFFF else nego)

/-- One pass over the outlets: each target grows toward what is wanted within the room left. -/
def Dev.planPass (d : Dev) (first : Bool) (os : List LinkId) (s : Dev × Nat) : Dev × Nat :=
  os.foldl (fun s o =>
    let want := min (s.1.link o).out.req (d.planLimit o)
    let w := if first then min want d.minKw else want
    let add := min (w - (s.1.link o).out.target) s.2
    (s.1.onOut o fun x => { x with target := x.target + add }, s.2 - add)) s

/-- What an outlet may be granted: its target, on DC within its sharing groups. -/
def Dev.capOf (d : Dev) (o : LinkId) : Nat :=
  let t := (d.link o).out.target
  if d.isDc o then min t (d.kwOf (d.sharing o)) else t

/-- The cut of an outlet. -/
def Dev.planCut (d : Dev) (o : LinkId) : Dev :=
  let cap := d.capOf o
  d.onOut o fun x => x.cut cap d.now

/-- The raise of an outlet, none while a lowered budget awaits force (R228). -/
def Dev.planRaise (d : Dev) (o : LinkId) : Dev :=
  if d.alloc.target.isSome then d else d.raiseGrant o (d.capOf o)

/-- Targets, cuts and raises of a planning lap (R229). Outlets without a live session have a target of 0. -/
def Dev.plan (d : Dev) : Dev :=
  let os := d.planOrder
  let budget := d.alloc.target.getD d.alloc.inForce
  let d1 := d.each d.outlets fun d o => d.onOut o fun x => { x with target := 0 }
  let d2 := (d1.planPass false os (d1.planPass true os (d1, budget))).1
  let d3 := d2.each (os ++ d.outlets.filter fun o => !os.contains o) Dev.planCut
  let d4 := d3.each os Dev.planRaise
  d4.each d.outlets Dev.publishGrant

/-- Exchanges in progress. -/
def Dev.exchanges (d : Dev) : List Exchange := d.alloc.slots.toList.filterMap id

def Dev.assignsTo (d : Dev) (o : LinkId) : List LinkId :=
  d.powers.filter fun g => ((d.link g).group.assign.map fun a => decide (a.1 = o)).getD false

/-- Moves into an outlet: exchanges and assignments in progress (R231). -/
def Dev.movesInto (d : Dev) (o : LinkId) : Nat :=
  (d.exchanges.filter fun e => e.receiver = o).length + (d.assignsTo o).length

/-- Moves in flight: at most 16 (R231). -/
def Dev.movesInFlight (d : Dev) : Nat :=
  d.exchanges.length + (d.powers.filter fun g => (d.link g).group.assign.isSome).length

/-- Target less the ratings of the groups owned and of those being moved in (R230). -/
def Dev.shortfall (d : Dev) (o : LinkId) : Nat :=
  (d.link o).out.target -
    (d.kwOf (d.owned o) + d.kwOf ((d.exchanges.filter fun e => e.receiver = o).map Exchange.group) + d.kwOf (d.assignsTo o))

/-- At least GROUP_REST since it last joined an outlet (R230). -/
def Dev.rested (d : Dev) (g : LinkId) : Bool :=
  match (d.link g).group.joinedAt with
  | some t => decide (t + secs d.groupRest ≤ d.now)
  | none => true

/-- The lowest-linked free group that reaches an outlet. -/
def Dev.freeGroupFor (d : Dev) (r : LinkId) : Option LinkId :=
  d.powers.find? fun g =>
    let x := (d.link g).group
    x.state == .free && x.assign.isNone && (d.slotOf g).isNone && d.reaches g r && d.rested g &&
      (d.link g).prot.latch.isNone && d.live g

/-- The donor's group of R230 and its donor. -/
def Dev.donorFor (d : Dev) (r : LinkId) : Option (LinkId × LinkId) :=
  let live := (d.outlets.filter d.sessionLive).filter fun o => d.isDc o && o != r && d.movesInto o == 0
  let order := [0, 1, 2, 3, 4, 5, 6, 7].flatMap fun p => live.filter fun n => d.prio n == p
  order.findSome? fun o =>
    let gs := d.sharing o
    (gs.reverse.find? fun g =>
      d.reaches g r && d.rested g && decide (2 ≤ gs.length) &&
        decide ((d.link o).out.target ≤ d.kwOf (gs.filter fun h => h != g))).map fun g => (g, o)

def Dev.freeSlot (d : Dev) : Option (Fin 16) := (List.finRange 16).find? fun x => (d.alloc.slots.get x).isNone

/-- The bus of an outlet is dead: its session owns no group and its output contactor is open (R232). -/
def Dev.deadBus (d : Dev) (o : LinkId) : Bool := (d.owned o).isEmpty && !d.fb o 0

/-- An exchange starts in a slot (R234): with a donor at step 2, its grant cut and the moved group at ISET 0, or at step 3 where
no token is pending; a free group at step 5 (R231). During a supply warning it is paused from its start (R238). -/
def Dev.startExchange (d : Dev) (x : Fin 16) (g r : LinkId) (donor : Option LinkId) : Dev :=
  let d1 := d.onGroup g fun z => { z with state := .inExchange, lowSince := none }
  let d2 := match donor with
    | some o => (d1.planCut o).publishGrant o
    | none => d1
  let step := match donor with
    | some o => if (d2.link o).out.pending = 0 then 3 else 2
    | none => 5
  let e : Exchange :=
    { receiver := r, donor := donor, group := g, step := step, start := d.now, stepAt := d.now, condSince := none,
      unownedAt := if donor.isSome then none else some d.now, segSent := false, segReady := false, paused := d.warned }
  d2.onAlloc fun a => { a with slots := a.slots.set x.1 (some e) }

/-- An assignment starts (R232). -/
def Dev.startAssign (d : Dev) (g r : LinkId) : Dev :=
  match d.contactorTo g r with
  | some k => d.onGroup g fun z => { z with assign := some (r, k, .discharge, d.now), deadSince := none }
  | none => d

/-- Moves into one outlet (R230). An outlet that gives a group away is no receiver. No exchange starts while a lowered budget
awaits force (R228). -/
def Dev.moveInto (d : Dev) (r : LinkId) : Nat → Dev
  | 0 => d
  | k + 1 =>
    if d.shortfall r = 0 ∨ d.maxPerRx ≤ d.movesInto r ∨ 16 ≤ d.movesInFlight ∨
        (d.exchanges.any fun e => e.donor == some r) then d
    else
      match d.freeSlot with
      | none => d
      | some x =>
        match d.freeGroupFor r with
        | some g =>
          if d.deadBus r then (d.startAssign g r).moveInto r k
          else if d.alloc.target.isSome then d
          else (d.startExchange x g r none).moveInto r k
        | none =>
          match d.alloc.target, d.donorFor r with
          | none, some (g, o) => (d.startExchange x g r (some o)).moveInto r k
          | _, _ => d

/-- The outlet's shortfall counted over planning lap boundaries (R230). -/
def Dev.countShort (d : Dev) (o : LinkId) : Dev :=
  let s := d.shortfall o
  d.onOut o fun x => { x with shortLaps := if s = 0 then 0 else satTo 8 (x.shortLaps + 1) }

/-- Move selection in plan order (R230, R231), none while allocation is held (R243). -/
def Dev.selectMoves (d : Dev) : Dev :=
  let os := d.planOrder.filter d.isDc
  let d1 := d.each (d.outlets.filter d.isDc) Dev.countShort
  if d1.alloc.held || d1.alloc.holdPending then d1
  else d1.each os fun d o =>
    if decide (d.moveHold ≤ (d.link o).out.shortLaps) || (d.owned o).isEmpty then d.moveInto o 16 else d

/-- Releases of outlets whose target is 0 (R233), unless allocation is held (R243). -/
def Dev.startReleases (d : Dev) : Dev :=
  if d.alloc.held then d
  else d.each (d.outlets.filter fun o => d.isDc o && (d.link o).out.target == 0) Dev.releaseGroups

/-! ### Group drive (R222) -/

/-- GMODE, VSET, ISET and PLIM of a group, in block units of 0.1 V, 0.1 A and 0.1 kW. -/
structure Drive where
  gmode : Nat
  vset  : Nat
  iset  : Nat
  plim  : Nat
  deriving DecidableEq, Repr

/-- VSET of an outlet's groups: the session's setpoint, clamped while its voltage is being reduced (R222, R303). -/
def Dev.vsetOf (d : Dev) (o : LinkId) : Nat :=
  let v := (d.link o).veh.vset.toNat
  if (d.link o).prot.reducingV then min v (10 * (98 * d.vBase10 o / 1000)) else v

/-- The drive of a group (R222, R223, R232, R233, R234, R243, R305). -/
def Dev.drive (d : Dev) (g : LinkId) : Drive :=
  let x := (d.link g).group
  let off : Drive := { gmode := 0, vset := 0, iset := 0, plim := 0 }
  match x.state with
  | .withdrawn => if (d.link g).con.weld != 0 && (d.link g).prot.latch.isSome then { off with gmode := 3 } else off
  | .releasing =>
    match x.release, x.owner with
    | some (.rampDown, _), some o => { gmode := 2, vset := d.vsetOf o, iset := 0, plim := 0 }
    | _, _ => { off with gmode := 3 }
  | .inExchange =>
    match d.slotOf g with
    | some s =>
      match d.alloc.slots.get s with
      | some e =>
        if e.step < 5 then { gmode := 2, vset := (e.donor.map d.vsetOf).getD 0, iset := 0, plim := 0 }
        else { gmode := 2, vset := d.meanTenths e.receiver 0, iset := 0, plim := 0 }
      | none => off
    | none => off
  | .owned =>
    match x.owner with
    | some o =>
      let n := max 1 (d.sharing o).length
      if d.alloc.held && !d.sessionLive o then { off with gmode := 1 }
      else { gmode := 2, vset := d.vsetOf o, iset := min ((d.link o).veh.iout.toNat / n) (10 * d.outA g),
             plim := 10 * (d.link o).out.grant / n }
    | none => off
  | .free =>
    match x.assign with
    | some (_, _, .discharge, _) => { off with gmode := 3 }
    | some _ => { off with gmode := 1 }
    | none => if d.now < x.idleSince + secs (d.field Reg.alcCfg2 16 16) then { off with gmode := 1 } else off

/-- The command blocks of a group set for a tick, and the time since GMODE 2 was commanded (R223). -/
def Dev.driveGroup (d : Dev) (g : LinkId) : Dev :=
  let v := d.drive g
  (d.onCmd g fun c => { c with gmode := BitVec.ofNat 2 v.gmode, vset := BitVec.ofNat 16 v.vset,
                               iset := BitVec.ofNat 16 v.iset, plim := BitVec.ofNat 16 v.plim }).onGroup g fun x =>
    { x with gmode2Since := sinceWhen x.gmode2Since d.now (v.gmode == 2) }

/-! ### Sample-point conditions -/

/-- |group y(0) − receiver y(0)| is at most MATCH_V, of the newest calibrated samples (R234). -/
def Dev.matched (d : Dev) (g r : LinkId) : Bool :=
  match d.samples g 0, d.samples r 0 with
  | a :: _, b :: _ => decide ((a - b).natAbs ≤ d.matchV * unitsPer)
  | _, _ => false

/-- The contactor of an assignment is commanded closed once SEG_PREPARE is answered and group and bus differ by at most MATCH_V
(R232 step 2, R235). -/
def Dev.closeAssigned (d : Dev) (g : LinkId) : Dev :=
  match (d.link g).group.assign with
  | some (o, k, .segPrepare, _) =>
    if (d.prot.segs.any fun s => decide (s.group = g) && s.answered) ∧ d.matched g o ∧ !d.warned then
      (d.command g k true).onGroup g fun z => { z with assign := some (o, k, .closing, d.now) }
    else d
  | _ => d

/-- The conditions that R232, R233 and R234 judge at every sample point, of one group. -/
def Dev.groupSample (d : Dev) (g : LinkId) : Dev :=
  let low := d.meanAtMost g 1 d.releaseA
  let dead := d.meanBelow g 0 d.deadV
  (d.onGroup g fun x => { x with
    lowSince := sinceWhen x.lowSince d.now low, deadSince := sinceWhen x.deadSince d.now dead }).closeAssigned g

/-- Matching of one exchange at a sample point. -/
def Dev.exchangeSample (d : Dev) (x : Fin 16) : Dev :=
  match d.alloc.slots.get x with
  | some e =>
    if 5 ≤ e.step then
      let m := d.matched e.group e.receiver
      d.onAlloc fun a => { a with
        slots := a.slots.set x.1 (some { e with condSince := sinceWhen e.condSince d.now m }) }
    else d
  | none => d

/-! ### Modes (R244) -/

/-- Step 2 of the exchanges of a donor is over as its tokens are credited (R234). -/
def Dev.donorCredited (d : Dev) (n : LinkId) : Dev :=
  d.onAlloc fun a => { a with
    slots := a.slots.map fun s => s.map fun e =>
      if e.donor = some n ∧ e.step = 2 then { e with step := 3, stepAt := d.now } else e }

/-- SAFE HALT and ACTIVATION: every CLOSE bit 0 and every grant 0, the tokens pending until the feedback reads open. -/
def Dev.haltAllocation (d : Dev) : Dev :=
  let d1 := (d.abortAll 10).onProtection fun p => { p with segs := [] }
  d1.each d1.usedLinks fun d n =>
    (((d.openAll n).onOut n fun o => { o.cut 0 d.now with target := 0 }).publishGrant n).onGroup n fun g =>
      { g with assign := none }

/-- SAFE HALT or ACTIVATION: pending tokens wait for open feedback (R244). -/
def Dev.halted (d : Dev) : Bool := decide (d.mode = .safeHalt) || decide (d.mode = .activation)

/-- Ownership is cleared, and tokens credited, as feedback opens: in SAFE HALT and ACTIVATION (R244), of a withdrawn group
(R236, R283), and of an outlet that REDUCE_STOP stopped (R227). -/
def Dev.clearOnOpen (d : Dev) (n : LinkId) : Dev :=
  let l := d.link n
  match d.role n with
  | .power =>
    if l.hs.fb = 0 ∧ l.cmd.close = 0 ∧ l.group.owner.isSome ∧ (d.halted ∨ l.group.state = .withdrawn) then
      d.onGroup n fun g => if g.state = .withdrawn then { g with owner := none } else g.free d.now
    else d
  | .outlet =>
    if l.out.pending ≠ 0 ∧ !d.fb n 0 ∧ (d.halted ∨ l.out.stopDone) then
      (d.onOut n fun o => { o with pending := 0 }).donorCredited n
    else d
  | _ => d

end Sys2Proof.Machine
end

