-- ==== Sys2Proof/Machine/VehOps.lean ====
section
/-! DEFINITION. Operations of the auxiliary channels and of the vehicle sessions: cooling, pilot drive, requests, published
limits and setpoints, start, stop and end of a session, failed attempts (R247 to R280, R471 to R475). -/

namespace Sys2Proof.Machine

/-! ### Auxiliary channels -/

def Dev.auxRole (d : Dev) (n : LinkId) (k : Fin 4) : Nat := d.field (Reg.auxCfg n k) 30 2

/-- A cooling fan or a cooling pump (R472). -/
def Dev.auxCooling (d : Dev) (n : LinkId) (k : Fin 4) : Bool := d.auxRole n k == 1 || d.auxRole n k == 2

def Dev.auxMinRate (d : Dev) (n : LinkId) (k : Fin 4) : Nat := d.settingField (Reg.auxXTach n k) 0 8

/-- The head fits the channel: HEAD_CAPS[19:16]. -/
def Dev.auxFitted (d : Dev) (n : LinkId) (k : Fin 4) : Bool := bitOf (d.link n).lnk.headCaps (16 + k.1)

/-- A channel is commanded on with a duty; the supervision of a tachometer begins with SPIN_UP (R474). Nothing is commanded of a
channel that is not fitted (R471). -/
def Dev.auxOn (d : Dev) (n : LinkId) (k : Fin 4) (duty : Nat) : Dev :=
  if !d.auxFitted n k then d else
  let tach := if d.auxCooling n k && d.auxMinRate n k != 0 then TachState.spinUp else TachState.unsupervised
  d.onAux n k fun a => { a with
    on := true, duty := BitVec.ofNat 6 duty, tach := tach, spinAt := d.now, offUntil := none, openSince := none,
    misSince := none, openSet := false, misSet := false, below := false, rate := 0, edges := 0 }

def Dev.auxOff (d : Dev) (n : LinkId) (k : Fin 4) : Dev :=
  d.onAux n k fun a => { a with on := false, duty := 0, openSince := none, misSince := none, openSet := false,
                                misSet := false }

/-- A channel as the device commands it: its SAFE_ON value in STARTING BLOCK (R472). -/
def Dev.auxCommanded (d : Dev) (n : LinkId) (k : Fin 4) : Bool :=
  if d.mode = .startingBlock then d.bit (Reg.auxCfg n k) 29 else ((d.link n).aux.get k).on

/-- Cooling is wanted from now on (R472). -/
def Dev.coolingOn (d : Dev) (n : LinkId) : Dev :=
  d.each (List.finRange 4) fun d k =>
    if d.auxCooling n k then
      let a := (d.link n).aux.get k
      let d1 := d.onAux n k fun a => { a with wanted := true, runOn := none }
      if a.on || a.fault || a.offUntil.isSome then d1 else d1.auxOn n k (d.field (Reg.auxCfg n k) 16 6)
    else d

/-- The cooling runs on for RUN_ON_S after the end tick of the session (R472). -/
def Dev.coolingRunOn (d : Dev) (n : LinkId) : Dev :=
  d.each (List.finRange 4) fun d k =>
    if d.auxCooling n k && ((d.link n).aux.get k).wanted then
      d.onAux n k fun a => { a with runOn := some (d.now + secs (d.field (Reg.auxCfg n k) 8 8)) }
    else d

/-! ### Settings and measures -/

def Dev.vehBit (d : Dev) (n : LinkId) (b : Nat) : Bool := d.bit (Reg.vehCfg n) b

def Dev.megawatt (d : Dev) (n : LinkId) : Bool := d.bit (Reg.lnkCfg n) 2

def Dev.stopA (d : Dev) (n : LinkId) : Nat := d.settingField (Reg.vehXStop n) 16 8

def Dev.stopMs (d : Dev) (n : LinkId) : Nat := d.settingField (Reg.vehXStop n) 0 16

def Dev.slacInit (d : Dev) (n : LinkId) : Nat := d.settingField (Reg.vehXSlac n) 0 8

/-- The mean magnitude of the outlet current over 32 samples is at or below a number of amperes. -/
def Dev.currentAtMost (d : Dev) (n : LinkId) (a : Nat) : Bool :=
  ((d.samples n 1).map Int.natAbs).sum ≤ a * unitsPer * (d.samples n 1).length

/-- The outlet's voltage of R255 in channel units. -/
def Dev.rmsV (d : Dev) (n : LinkId) : Nat := (d.reg (Reg.metRms n 0)).toNat

def VehState.code : VehState → Nat
  | .idle => 0
  | .plugged => 1
  | .matching => 2
  | .setup => 3
  | .authorizing => 4
  | .negotiating => 5
  | .allocating => 6
  | .cableCheck => 7
  | .precharge => 8
  | .energy => 9
  | .stopping => 10
  | .ended => 11
  | .fault => 12

def VehProtocol.code : VehProtocol → Nat
  | .none => 0
  | .basic => 1
  | .din70121 => 2
  | .iso15118_2 => 3
  | .iso15118_20 => 4
  | .iso15118_20bpt => 5
  | .megawatt => 6

def Pilot.code : Pilot → Nat
  | .a => 0
  | .b => 1
  | .c => 2
  | .d => 3
  | .e => 4
  | .f => 5
  | .invalid => 6
  | .unknown => 7

def WaitWhy.code : WaitWhy → Nat
  | .none => 0
  | .tempo => 1
  | .hold => 2
  | .warning => 3
  | .mode => 4

/-- A state is entered; its bound runs from now (R265). -/
def Dev.toState (d : Dev) (n : LinkId) (st : VehState) : Dev :=
  d.onVeh n fun v => { v with state := st, stateAt := d.now }

/-- A response to the vehicle (R269). -/
def Dev.answer (d : Dev) (n : LinkId) (r : Response) : Dev := d.onVeh n fun v => { v with response := r }

/-- VEH_LAST_END (R280). -/
def Dev.lastEnd (d : Dev) (n : LinkId) (fail reason : Nat) : Dev :=
  d.setReg (Reg.vehLastEnd n) (packWord [(16, 4, (d.link n).veh.state.code), (8, 8, fail), (0, 8, reason)])

/-- The vehicle's messages are answered: MATCHING or later, to the end of the stop, over powerline or 10BASE-T1S (R265, R269). -/
def Vehicle.talking (v : Vehicle) : Bool :=
  !v.basic && match v.state with
    | .matching | .setup | .authorizing | .negotiating | .allocating | .cableCheck | .precharge | .energy
    | .stopping => true
    | _ => false

/-- Active vehicle links: those that have left listen (R59, R257). -/
def Dev.vehActive (d : Dev) : Nat := (d.outlets.filter fun n => (d.link n).veh.active).length

/-- Metrology units, active vehicle links and session cores that a tempo covers (R59). -/
def tempoUnits (t : Nat) : Nat := [256, 640, 1536, 1792, 2048, 2304, 2560, 2560].getD t 2560

def tempoLinks (t : Nat) : Nat := [0, 0, 24, 48, 72, 108, 144, 144].getD t 144

def tempoCores (t : Nat) : Nat := [2, 4, 6, 8, 10, 12, 14, 16].getD t 16

/-- The running tempo admits one more active vehicle link (R257). -/
def Dev.tempoAdmits (d : Dev) : Bool :=
  decide (d.vehActive + 1 ≤ tempoLinks d.power.tempo) &&
    decide (min 16 (Config.coresFor (d.vehActive + 1)) ≤ tempoCores d.power.tempo)

/-- A mode trigger of the open tick (R54). -/
def Dev.trigger (d : Dev) (t : ModeTrigger) : Dev := d.onPower fun p => { p with trigs := p.trigs ++ [t] }

/-! ### Requests, limits and setpoints -/

/-- ⌈a / b⌉ of natural numbers. -/
def ceilNat (a b : Nat) : Nat := (a + b - 1) / b

/-- The power request of a session in kW (R270). -/
def Dev.reqOf (d : Dev) (n : LinkId) : Nat :=
  let v := (d.link n).veh
  let targetV := d.field (Reg.vehEvVolt n) 0 16
  let targetI := (sfieldOf (d.reg (Reg.vehEvCurr n)) 16 16).natAbs
  let maxI := d.field (Reg.vehEvCurr n) 0 16
  let maxKw := d.field (Reg.vehEvPower n) 0 16
  let maxDis := d.field (Reg.vehEvPower n) 16 16
  match v.state with
  | .negotiating | .cableCheck | .precharge => d.minKw
  | .energy | .allocating =>
    if v.state = .energy ∧ v.discharge then
      if v.dynamic then min (d.field (Reg.vehDischKw n) 0 16) maxDis else v.ownDisKw.toNat
    else if d.isAc n then
      ceilNat (d.rmsV n * (if v.basic then 10 * min v.cableA (d.outA n) else maxI)) (10 * 1000 * unitsPer)
    else if v.state = .allocating then d.minKw
    else if 98 * (10 * d.field (Reg.vehPub n) 16 16) ≤ 100 * targetI then maxKw
    else min (ceilNat (targetV * targetI) 100000 + d.settingField (Reg.vehXReq n) 0 8) maxKw
  | _ => 0

/-- req is refreshed and shown in VEH_REQ. -/
def Dev.refreshReq (d : Dev) (n : LinkId) : Dev :=
  let r := satTo 16 (d.reqOf n)
  (d.onOut n fun o => { o with req := r }).setReg (Reg.vehReq n)
    (packWord [(31, 1, b2n (d.link n).veh.discharge), (0, 16, r)])

/-- Published maximum current in A (R271): 0 on an AC outlet that a controlled stop ends (R275). -/
def Dev.pubA (d : Dev) (n : LinkId) : Nat :=
  if d.isAc n ∧ (d.link n).veh.state = .stopping then 0
  else min (min (d.link n).out.limA.toNat (d.link n).veh.cableA) (d.protA n)

/-- VEH_PUB follows the limits (R271). -/
def Dev.publish (d : Dev) (n : LinkId) : Dev :=
  let d1 := d.publishGrant n
  let w := packWord [(16, 16, d1.pubA n), (0, 16, (d1.link n).out.limKw.toNat)]
  (d1.onVeh n fun v => { v with pubNew := v.pubNew || d1.reg (Reg.vehPub n) != w }).setReg (Reg.vehPub n) w

/-- V_set and I_out of an outlet. -/
def Dev.putSet (d : Dev) (n : LinkId) (volts amps : Nat) : Dev :=
  d.onVeh n fun v => { v with vset := BitVec.ofNat 16 (satTo 16 volts), iout := BitVec.ofNat 16 (satTo 16 amps) }

/-- The setpoints of a DC session (R272). -/
def Dev.setpoints (d : Dev) (n : LinkId) : Dev :=
  let v := (d.link n).veh
  let targetV := d.field (Reg.vehEvVolt n) 0 16
  let targetI := (sfieldOf (d.reg (Reg.vehEvCurr n)) 16 16).natAbs
  let pub10 := 10 * d.field (Reg.vehPub n) 16 16
  let put := d.putSet n
  if d.isAc n then d
  else match v.state with
  | .cableCheck => put (d.vBase10 n) 10
  | .precharge => put targetV (min targetI 20)
  | .energy =>
    if v.turning.isSome then put v.vset.toNat 0
    else if v.discharge then
      put (d.meanTenths n 0 - 250) (min (min v.maxDisI.toNat (10 * d.limA n (d.link n).out.grant)) pub10)
    else put targetV (min targetI pub10)
  | .stopping => put v.vset.toNat 0
  | _ => d

/-- The current limit of basic charging in whole amperes (R255). -/
def Dev.acLimit (d : Dev) (n : LinkId) : Nat :=
  min (min (d.link n).veh.cableA (d.outA n)) (min (d.link n).out.limA.toNat (d.protA n))

/-- Duty of R255 in 0.1 %; none below 6 A. -/
def acDuty (i : Nat) : Option Nat :=
  if i < 6 then none
  else if i ≤ 52 then some (min (50 * i / 3) 850)
  else if i ≤ 80 then some (640 + 4 * i)
  else some 960

/-- PILOT_MODE, DUTY and PLC_EN of an outlet (R254 to R257, R263, R264, R276, R279). The powerline stays coupled from R257 until
state A is taken or the attempt fails. -/
def Dev.pilotDrive (d : Dev) (n : LinkId) : Nat × Nat × Bool :=
  let v := (d.link n).veh
  let plc := v.active && !d.megawatt n
  if v.tripF then (2, 0, plc)
  else if (v.pilotFUntil.map fun t => decide (d.now < t)).getD false then (2, 0, plc)
  else if d.megawatt n then (if v.state = .plugged ∧ v.wait ≠ .none then 2 else 0, 0, false)
  else if v.active then (if v.state = .fault then (0, 0, plc) else (1, 50, plc))
  else if v.basic && v.live && v.state != .stopping && v.state != .ended then
    match acDuty (d.acLimit n) with
    | some duty => (1, duty, false)
    | none => (0, 0, false)
  else (0, 0, false)

/-- The pilot of an outlet for the next frame. -/
def Dev.driveOutlet (d : Dev) (n : LinkId) : Dev :=
  let p := d.pilotDrive n
  d.onCmd n fun c => { c with pilotMode := BitVec.ofNat 2 p.1, duty := BitVec.ofNat 10 p.2.1, plcEn := p.2.2 }

/-! ### Start and end of a session -/

/-- Outlets with a live session. -/
def Dev.liveSessions (d : Dev) : Nat := (d.outlets.filter d.sessionLive).length

/-- Proximity is read from the head: a coded cable, or the ID signal of a megawatt outlet (R256, R264). -/
def Dev.ppMode (d : Dev) (n : LinkId) : Nat := d.field (Reg.vehCfg n) 8 2

/-- PP of a coded cable reads no cable, which counts as state A (R256). -/
def Dev.noCable (d : Dev) (n : LinkId) : Bool := d.ppMode n == 0 && (d.link n).veh.pp == some 0xFF

/-- A session starts on an outlet (R266): identity, billing segment, SESSION_START. A lap that ends in this tick closes before
(R185). -/
def Dev.startSession (d0 : Dev) (n : LinkId) (c : HeldCredential) : Dev :=
  let d := d0.lapFirst
  let d1 := (d.openSession n c.tenant c.path c.hash (d.link n).veh.protocol.code c.late).onVeh n fun v => { v with
    live := true, closedOnce := false, held := none, waitAuth := none, wait := .none, stopWhy := .none, openCmd := false,
    carried := none, pubNew := false, sched := none, reneg := false,
    segAnswered := false, cablePassed := false, turning := none, discharge := false }
  let d2 := d1.toState n (if (d1.link n).veh.basic then .allocating else .negotiating)
  ((d2.raise (.veh n) 1 (d2.bill.nextSession - 1) (some c.tenant)).countField (Reg.vehCounts n) 0 16).refreshReq n

/-- A session ends at its end tick (R266): record, events, groups and exchanges, run-on of the cooling. A lap that ends in this
tick closes before (R185). -/
def Dev.endSession (d : Dev) (n : LinkId) (why : StopReason) : Dev :=
  let v := (d.link n).veh
  if v.live then
    let d0 := d.lapFirst
    let d1 := ((d0.closeSession n why).lastEnd n 0 why.code).raise (.veh n) 2
      (BitVec.ofNat 32 why.code)
    let d2 := (d1.onVeh n fun v => { v with
      live := false, turning := none, discharge := false, iout := 0, openCmd := true, cToBAt := none }).toState n .ended
    ((d2.coolingRunOn n).refreshReq n).abortWhere (fun e => e.receiver == n) 8
  else d

/-- What the vehicle is told of a stop (R276). -/
def StopReason.told : StopReason → Response
  | .vehicle => .ok
  | .trip => .emergency
  | _ => .shutdown

/-- The output contactor of an outlet has closed in this session, or is commanded closed. -/
def Dev.everClosed (d : Dev) (n : LinkId) : Bool :=
  (d.link n).veh.closedOnce || (d.link n).cmd.close.getLsbD 0 || d.fb n 0

/-- A stop begins (R275, R276): I_out 0 at once, and what the vehicle is told. Of several causes of one tick the lowest-ranked
source gives the reason; later ones change nothing. -/
def Dev.beginStop (d : Dev) (n : LinkId) (why : StopReason) (rank : Nat) : Dev :=
  let v := (d.link n).veh
  if v.stopWhy ≠ .none then
    if v.stopAt = d.now ∧ rank < v.stopRank then
      d.onVeh n fun v => { v with stopWhy := why, stopRank := rank, response := why.told }
    else d
  else
    ((d.onVeh n fun v => { v with
      stopWhy := why, stopRank := rank, stopAt := d.now, lowSince := none, iout := 0, turning := none
      response := why.told }).toState n .stopping).refreshReq n

/-- A controlled stop of a live session (R275). -/
def Dev.startStop (d : Dev) (n : LinkId) (why : StopReason) (rank : Nat) : Dev :=
  if (d.link n).veh.live then d.beginStop n why rank else d

/-- The opening of the output contactor is commanded at once (R254, R276), whatever the current. -/
def Dev.openNow (d : Dev) (n : LinkId) (why : StopReason) (rank : Nat) : Dev :=
  ((d.command n 0 false).onVeh n fun v => { v with openCmd := true, iout := 0, turning := none }).startStop n why rank

/-- The session of a begun stop ends. An outlet in FAULT stays there; one whose pilot has reached state A, or that sees no cable,
is IDLE. -/
def Dev.endStopped (d : Dev) (n : LinkId) : Dev :=
  let v := (d.link n).veh
  let d1 := d.endSession n v.stopWhy
  if v.state = .fault then d1.toState n .fault
  else if v.pilot = .a ∨ d.noCable n then
    (d1.onVeh n fun x => { x with protocol := .none, basic := false }).toState n .idle
  else d1

/-- A session whose contactor never closed ends in the tick of the cause (R266), which is known at the closure. -/
def Dev.endUnclosed (d : Dev) (n : LinkId) : Dev :=
  if (d.link n).veh.live ∧ (d.link n).veh.stopWhy ≠ .none ∧ !d.everClosed n then d.endStopped n else d

/-- The output contactor of a DC outlet is commanded closed, or an AC outlet's at R255: the cooling runs. -/
def Dev.closeOutlet (d : Dev) (n : LinkId) : Dev :=
  ((d.command n 0 true).onVeh n fun v => { v with closedOnce := true }).coolingOn n

/-! ### Attempts -/

/-- What a matching run holds is discarded (R261), and the crypto work of the outlet cancelled (R369). -/
def Dev.dropRun (d : Dev) (n : LinkId) : Dev :=
  (((d.onVeh n fun v => { v with slac := none, tls := false, contract := false }).cancel (.tls n)).cancel (.contract n)).dropRngWait
    (RngWait.ofLink n)

/-- An attempt ends without a session (R265): ENDED. -/
def Dev.endAttempt (d : Dev) (n : LinkId) (fail : Nat) : Dev :=
  (((d.lastEnd n fail 0).dropRun n).onVeh n fun v => { v with waitAuth := none }).toState n .ended

/-- An outlet enters FAULT (R254, R256, R260). -/
def Dev.enterFault (d : Dev) (n : LinkId) (fail : Nat) : Dev :=
  (((if (d.link n).veh.live then d else d.lastEnd n fail 0).dropRun n).onVeh n fun v => { v with waitAuth := none }).toState n
    .fault

/-- A matching or setup attempt fails (R260): PLC_EN cleared and steady +12 V for 4 s, or after the third failure basic
charging on an AC outlet with BASIC, else FAULT. -/
def Dev.failAttempt (d : Dev) (n : LinkId) (fail : Nat) (third : Bool := false) : Dev :=
  let tries := if third then 3 else (d.link n).veh.tries + 1
  let d0 := (d.dropRun n).onVeh n fun v => { v with
    tries := tries, protocol := .none, active := false }
  let d1 := d0.setField (Reg.vehSlac n) 24 2 (min 3 tries)
  if tries < 3 then
    ((d1.lastEnd n fail 0).onVeh n fun v => { v with restartAt := some (d.now + secs 4) }).toState n .plugged
  else if d.isAc n && d.vehBit n 0 then
    (((d1.lastEnd n fail 0).onVeh n fun v => { v with basic := true, protocol := .basic, restartAt := none }).toState n
      .authorizing).raise (.veh n) 13
  else d1.enterFault n fail

/-- Why a plug-in may not go on now (R268, R278, R279). -/
def Dev.waitReason (d : Dev) (n : LinkId) : WaitWhy :=
  let held := d.cfg.slots.toList.any fun s =>
    (s.map fun h => decide (h.fn = 5 ∧ h.inst.toNat = n.1)).getD false
  if d.mode = .startingBlock ∨ d.mode = .safeHalt ∨ d.mode = .maintenance ∨ d.mode = .activation ∨
      d.upd.state = .activating then .mode
  else if held then .hold
  else if !d.tempoAdmits then .tempo
  else .none

/-- A bad message of the vehicle (R269): FAILED, PROTO_ERROR, and a controlled stop of a live session. -/
def Dev.badMessage (d : Dev) (n : LinkId) : Dev :=
  let d1 := (d.answer n .failed).raise (.veh n) 10
  if (d1.link n).veh.live then (d1.startStop n .vehicle (4 * n.1 + 2)).answer n .failed
  else d1.endAttempt n 9


end Sys2Proof.Machine
end

