-- ==== Sys2Proof/Machine/ProtOps.lean ====
section
/-! DEFINITION. Operations of the protection unit and the sprint path: causes and classes, the links a trip names, the trip
action, latches and their release, TRIP_OUT, head thresholds, the judgements of a sample point, antivalent pairs and the
safety network (R281 to R322). -/

namespace Sys2Proof.Machine

/-! ### Causes and classes (R50, R281) -/

/-- Class of a cause: the boot trip map, a fixed class, the safety-signal map, or the trip map of the image. -/
def Dev.tripClass (d : Dev) (code index : Nat) : Nat :=
  if d.prot.bootMap then 3
  else if 0x30 ≤ code then (if code = 0x34 then 2 else 3)
  else if code = 0x22 then d.field (Reg.prtSnSig index) 8 2
  else d.field (Reg.prtTripMap (code / 16)) (2 * (code % 16)) 2

/-- ARG of the record of a cause (R440). -/
def causeArg (code cls : Nat) (n : Option LinkId) : Word :=
  packWord [(0, 8, code), (8, 2, cls), (16, 8, (n.map fun x => x.1).getD 0xFF)]

/-- Highest class in a latch (R322). -/
def Latch.cls (l : Latch) : Nat := l.causes.foldl (fun m c => max m c.cls) 0

def Latch.allGone (l : Latch) : Bool := l.causes.all LatchedCause.gone

/-- A cause joins a latch, or sets it (R284). The primary cause is the lowest-ranked one of the earliest tick that held
one (R39). -/
def Latch.join (l : Option Latch) (c : Cause) (cls : Nat) (gone : Bool) (now : Tick) : Latch :=
  match l with
  | none => { causes := [{ cause := c, cls := cls, gone := gone }], primary := c, first := now }
  | some x => { x with
      causes := (x.causes.filter fun y => decide (y.cause ≠ c)) ++
        [{ cause := c, cls := ((x.causes.filter fun y => decide (y.cause = c)).map LatchedCause.cls).foldl max cls,
           gone := gone }]
      primary := if x.first = now ∧ c.source < x.primary.source then c else x.primary }

/-- The class of a cause on the links of its name: on a SITE link classes 1 and 2 are taken as class 3 (R282). -/
def Dev.classOn (d : Dev) (cls : Nat) (ns : List LinkId) : Nat :=
  if cls ≠ 0 ∧ ns.any (fun n => d.role n = .site) then 3 else cls

/-- The links that a cause of a class names (R282). A link belongs to its own segment. -/
def Dev.namedLinks (d : Dev) (cls : Nat) (ns : List LinkId) : List LinkId :=
  let used := ns.filter fun n => d.role n ≠ .unused
  match cls with
  | 0 => []
  | 1 => used
  | 2 => allLinks.filter fun m => used.any fun n => decide (m = n) || (d.link n).prot.members.contains m
  | _ => d.usedLinks

/-! ### TRIP_OUT (R288) -/

/-- A link latch or the site latch holds a trip of a class. -/
def Dev.holdsClass (d : Dev) (cls : Nat) : Bool :=
  let has := fun (l : Option Latch) => (l.map fun x => x.causes.any fun c => c.cls == cls).getD false
  has d.prot.siteLatch || allLinks.any fun n => has (d.link n).prot.latch

/-- TRIP_OUTk follows the latches. -/
def Dev.driveTripout (d : Dev) : Dev :=
  let has : Nat → Bool := fun c => d.holdsClass c
  d.onProtection fun p => { p with
    tripout := BitVec.ofNat 4 (((List.range 4).map fun k =>
      b2n ([1, 2, 3].any fun c => d.bit Reg.prtTripoutCfg (8 * k + c - 1) && has c) * 2 ^ k).sum) }

/-! ### The trip action (R283, R284) -/

/-- Forced state of a link that a trip names. An exchange that moves one of its groups, or into or out of it, aborts. -/
def Dev.forceLink (d : Dev) (n : LinkId) (rank : Nat) : Dev :=
  let d0 := d.tripExchanges n
  match d.role n with
  | .outlet =>
    (((d0.openNow n .trip rank).openAll n).onVeh n fun v => { v with tripF := true }).onOut n
      (fun o => { o.cut 0 d.now with target := 0 }) |>.publishGrant n
  | .power => (d0.openAll n).withdraw n .trip
  | _ => d0

/-- A cause acts on one link: its latch, TRIP where it is new or of a higher class, and the forced state. -/
def Dev.tripLink (d : Dev) (n : LinkId) (c : Cause) (cls : Nat) (gone : Bool) : Dev :=
  let old := (d.link n).prot.latch
  let d1 := d.onProt n fun p => { p with latch := some (Latch.join p.latch c cls gone d.now) }
  let d2 := if old.isNone then d1.raise (.prtL n) 0 (causeArg c.code cls (some n)) else d1
  let d3 := if (old.map Latch.cls).getD 0 < cls then d2.sendTrip n cls else d2
  d3.forceLink n c.source

/-- TRIP_SITE enters SAFE HALT (R51, R283). -/
def Dev.haltBy (d : Dev) (c : Cause) (gone : Bool) : Dev :=
  ((d.onProtection fun p => { p with siteLatch := some (Latch.join p.siteLatch c 3 gone d.now) }).onPower fun p =>
    { p with haltNow := true, exitHalt := false }).raise .prt 3 (causeArg c.code 3 none)

/-- PRT_TRIP_CNT and PRT_LAST_TRIP (R321): one trip for every tick in which a cause acts. -/
def Dev.recordTrip (d : Dev) (c : Cause) (cls : Nat) : Dev :=
  let same := d.prot.lastCause.isSome && d.prot.lastTick == d.now
  (if same then d else d.count Reg.prtTripCnt).onProtection fun p => { p with
    lastTick := d.now
    lastCls := if same then max p.lastCls cls else cls
    lastCause := match p.lastCause with
      | some x => if same ∧ x.source ≤ c.source then some x else some c
      | none => some c }

/-- A cause of class 1 to 3 acts on the links it names (R282 to R284); of class 0 it acts on nothing. Nothing acts before
the sprint path is armed (R49). -/
def Dev.trip (d : Dev) (c : Cause) (ns : List LinkId) (gone : Bool := false) : Dev :=
  let cls := d.classOn (d.tripClass c.code c.index) ns
  if cls = 0 ∨ !d.prot.armed then d
  else
    let d1 := (d.recordTrip c cls).each (d.namedLinks cls ns) fun d n => d.tripLink n c cls gone
    (if cls = 3 then d1.haltBy c gone else d1).driveTripout

/-- A cause with its detail bit: recorded with code, class and link (R284, R440), and acting. -/
def Dev.causeOn (d : Dev) (e : EvReg) (bit : Nat) (c : Cause) (n : Option LinkId) (ns : List LinkId)
    (gone : Bool := false) : Dev :=
  (d.raiseAlways e bit (causeArg c.code (d.classOn (d.tripClass c.code c.index) ns) n)).trip c ns gone

/-- A cause of a link's own protection, source 4n (R281). -/
def Dev.linkCause (d : Dev) (n : LinkId) (code bit : Nat) (index : Nat := 0) : Dev :=
  d.causeOn (.prtL n) bit { code := code, source := 4 * n.1, index := index } (some n) [n]

/-- A device-wide internal decision, source 587 (R281). -/
def Dev.deviceCause (d : Dev) (code bit : Nat) (ns : List LinkId := []) (index : Nat := 0) (gone : Bool := false) : Dev :=
  d.causeOn .prt bit { code := code, source := 587, index := index } none ns gone

/-! ### Gone causes (R309) -/

/-- Antivalent pair: ticks counted by its discrepancy timer (R307). -/
def AvPair.timer (p : AvPair) (now : Tick) : Nat :=
  if p.state = .discrepancy then p.counted + (now - p.since) else p.counted

/-- The quantity has been below its level for 1 s. -/
def Judged.quiet (j : Judged) (now : Tick) : Bool := j.since.isNone && decide (j.last + secs 1 ≤ now)

/-- A poisoned word of the ledger store still describes the ownership of a link. -/
def Dev.ownerPoisoned (d : Dev) (n : Nat) : Bool :=
  d.mem.poisonLedger.any fun w => match Config.ledgerHolder w with
    | .ownership k => k.1 == n
    | _ => false

/-- The outlet or group voltage that the symmetry bridge takes, in channel units (R297). -/
def Dev.segVolts (d : Dev) (n : LinkId) : Nat :=
  let ms := (d.link n).prot.members
  let o := (ms.find? fun m => d.role m = .outlet).getD n
  ((d.samples o 0).headD 0).natAbs

/-- Receive connections enabled in the image (R316). -/
def Dev.connOn (d : Dev) (c : Fin 8) : Bool := d.bit (Reg.prtSnRxCfg c) 31

/-- The condition of R309 under which a cause on a link, or on the device, is gone. -/
def Dev.absent (d : Dev) (n : Option LinkId) (c : Cause) : Bool :=
  let now := d.now
  let l := n.map d.link
  let q := fun (f : LinkProt → Judged) => (l.map fun x => (f x.prot).quiet now).getD true
  if 1 ≤ c.code ∧ c.code ≤ 8 then
    (l.map fun x => decide (x.prot.alarmAt + ms 100 ≤ now) && !bitOf x.hs.b38 27 && !bitOf x.hs.b38 28).getD true
  else match c.code with
    | 0x10 => (n.map d.live).getD true
    | 0x11 => q LinkProt.oc
    | 0x12 => q LinkProt.rdcAc
    | 0x13 => q LinkProt.rdcDc
    | 0x14 => (l.map fun x => x.prot.imd.aboveWarn && x.prot.imd.value.isSome).getD true
    | 0x15 => q LinkProt.sym || (n.map fun x => decide (d.segVolts x < 60 * unitsPer)).getD true
    | 0x16 => q LinkProt.slc
    | 0x17 => q LinkProt.slv
    | 0x18 => q LinkProt.safeDir
    | 0x19 | 0x1A => (l.map fun x => heldFor (x.prot.openSince.toList.getD c.index none) now (secs 1)).getD true
    | 0x1B => (l.map fun x => heldFor (x.prot.agreeSince.toList.getD c.index none) now (secs 1)).getD true
    | 0x1C => q LinkProt.siteRdc
    | 0x20 | 0x21 =>
      (d.prot.pairs.toList[c.index]?.map fun p => decide (p.state = .clear) && p.restarted).getD true
    | 0x22 => (List.finRange 8).all fun k => !(d.prot.conns.get k).sig.getLsbD c.index
    | 0x23 => (List.finRange 8).all fun k =>
        let x := d.prot.conns.get k
        !d.connOn k || (!x.fault && x.gotPair && decide (x.pairAt + secs 1 ≤ now))
    | 0x24 => decide (d.prot.tripoutAt + secs 1 ≤ now)
    | 0x30 => heldFor d.prot.paceOkSince now (secs 1) && !d.pacer.driftNow
    | 0x31 => heldFor d.prot.vcoreOkSince now (secs 1)
    | 0x33 => true
    | 0x34 => !d.ownerPoisoned c.index
    | 0x36 | 0x37 => d.prot.selftestOk
    | _ => false

/-- The link of a cause of source 4n or 4n + 1. -/
def Cause.link (c : Cause) : Option LinkId := linkOfNat (if c.source < 576 then c.source / 4 else 144)

/-- A latched cause marked gone, where its condition holds. -/
def LatchedCause.mark (d : Dev) (c : LatchedCause) : LatchedCause := { c with gone := d.absent c.cause.link c.cause }

/-- A latched cause that is no longer gone. -/
def LatchedCause.check (d : Dev) (c : LatchedCause) : LatchedCause :=
  { c with gone := c.gone && d.absent c.cause.link c.cause }

def Latch.mapCauses (l : Latch) (f : LatchedCause → LatchedCause) : Latch := { l with causes := l.causes.map f }

/-- Causes that have come back are no longer gone. -/
def Dev.checkGone (d : Dev) : Dev :=
  (d.each allLinks fun e n =>
    if (e.link n).prot.latch.isSome then
      e.onProt n fun p => { p with latch := p.latch.map fun l => l.mapCauses (LatchedCause.check d) }
    else e).onProtection fun p => { p with siteLatch := p.siteLatch.map fun l => l.mapCauses (LatchedCause.check d) }

/-- The causes of a code named with a link, or with none, are marked gone in every latch that holds them, where the
condition of R309 holds. -/
def Dev.markGone (d : Dev) (n : Option LinkId) (code : Nat) : Dev :=
  let f := fun (c : LatchedCause) => if c.cause.code = code ∧ c.cause.link = n then c.mark d else c
  (d.each allLinks fun e m =>
    if (e.link m).prot.latch.isSome then
      e.onProt m fun p => { p with latch := p.latch.map fun l => l.mapCauses f }
    else e).onProtection fun p => { p with
      siteLatch := p.siteLatch.map fun l => l.mapCauses f
      tripoutFault := if code = 0x24 ∧ d.absent none { code := 0x24, source := 586, index := 0 } then 0
        else p.tripoutFault }

/-! ### Release (R310, R311) -/

/-- The latch of a link is released: TRIP_RELEASE, the forced state lifted, the group's withdrawal ended, RELEASED. -/
def Dev.releaseLink (d : Dev) (n : LinkId) : Dev :=
  let d1 := (((d.sendRelease n).onProt n fun p => { p with latch := none }).onVeh n fun v => { v with tripF := false }).raise
    (.prtL n) 1
  d1.each d1.powers fun d g =>
    let x := (d.link g).group
    if x.state = .withdrawn ∧ (x.why = .trip ∨ x.why = .weld ∨ x.why = .openFault) ∧ (g = n ∨ x.heldBy = some n) ∧
        (d.link g).prot.latch.isNone ∧ (x.heldBy.all fun m => (d.link m).prot.latch.isNone) then
      d.onGroup g fun z => z.free d.now
    else d

/-- Links whose latches hold only causes that are gone, and whether the site latch does. -/
def Dev.goneLatches (d : Dev) : List LinkId × Bool :=
  (allLinks.filter fun n => ((d.link n).prot.latch.map Latch.allGone).getD false,
    (d.prot.siteLatch.map Latch.allGone).getD false)

def Dev.noLatch (d : Dev) : Bool := d.prot.siteLatch.isNone && allLinks.all fun n => (d.link n).prot.latch.isNone

/-- An edge reset (R310): of the latches named, those whose causes are all still gone are released. A release that covers
every latch leaves SAFE HALT at the next tick boundary (R51, R311). -/
def Dev.edgeReset (d : Dev) (links : List LinkId) (site : Bool) : Dev :=
  let now := d.goneLatches
  let d1 := d.each (links.filter now.1.contains) Dev.releaseLink
  let d2 := if site ∧ now.2 then d1.onProtection fun p => { p with siteLatch := none } else d1
  let d3 := d2.driveTripout
  if d3.noLatch ∧ d.mode = .safeHalt then d3.onPower fun p => { p with exitHalt := true } else d3

/-! ### Head thresholds (R290, R291) -/

/-- Offset of threshold register `k` in the order written. -/
def threshAddr (k : Nat) : Nat := [0x7F04, 0x7F08, 0x7F0C, 0x7F10, 0x7F14, 0x7F00].getD k 0x7F00

def Dev.rateV (d : Dev) (n : LinkId) : Nat := d.field (Reg.prtLCfg n) 20 12

/-- Value written to threshold register `k` (R291). -/
def Dev.threshValue (d : Dev) (n : LinkId) (k : Nat) : Word :=
  match k with
  | 0 => BitVec.ofNat 32 ((5 * d.settingField (Reg.metXOc n) 0 16 + 3) / 4)
  | 1 => BitVec.ofNat 32 (7 * if d.role n = .site then d.settingField Reg.prtXSite 0 16
      else d.settingField (Reg.prtLXRdc n) 0 8)
  | 2 => BitVec.ofNat 32 (d.settingField (Reg.prtLXImd n) 0 16 * d.rateV n / 2000)
  | 3 => BitVec.ofNat 32 (d.settingField (Reg.prtLXSym n) 0 8 * d.rateV n / 100)
  | 4 => BitVec.ofNat 32 (d.field (Reg.prtLCfg n) 8 12)
  | _ => packWord [(0, 8, 0xFF), (8, 1, b2n (d.bit (Reg.prtLCfg n) 0))]

/-- A read-back matches (R291): the value written, or for HEAD_PRT_CTRL its bits 31:8. -/
def Dev.threshMatches (d : Dev) (n : LinkId) (k : Nat) (got : Word) : Bool :=
  let want := d.threshValue n k
  if k = 5 then fieldOf got 8 24 == fieldOf want 8 24 else got == want

/-- Write and read-back of threshold register `k` queued. -/
def Dev.queueThresh (d : Dev) (n : LinkId) (k : Nat) : Dev :=
  (d.queueReq n (.threshWrite k) (threshAddr k) (some (d.threshValue n k))).queueReq n (.threshRead k) (threshAddr k) none

/-- The thresholds of a link are written and read back; THRESH_OK reads 0 meanwhile. -/
def Dev.startThresholds (d : Dev) (n : LinkId) : Dev :=
  (d.onProt n fun p => { p with threshOk := false, threshFails := 0, threshRetryAt := none }).each
    [0, 1, 2, 3, 4, 5] fun d k => d.queueThresh n k

def RegPurpose.isThresh : RegPurpose → Bool
  | .threshWrite _ | .threshRead _ => true
  | _ => false

/-- A link that has trained is held by the device: HOLD with no contactor closed (R125, R135). Its group is withdrawn
(R223), and a live session on it loses its contactor with stop reason 5 (R276). -/
def Dev.holdLink (d : Dev) (n : LinkId) (why : HeldWhy) : Dev :=
  let d1 := d.onLnk n fun l => { l with state := .held, heldWhy := why }
  match d1.role n with
  | .power => if d1.serving then (d1.openAll n).withdraw n .linkHeldOrLost else d1.openAll n
  | .outlet => (d1.openNow n .trip (4 * n.1)).openAll n
  | _ => d1

/-- A threshold write or read-back has failed: it is tried a second time, then THRESH_FAIL, the link held with HELD_WHY 5,
and a retry after 1 s (R291). -/
def Dev.threshFailed (d : Dev) (n : LinkId) (k : Nat) : Dev :=
  if (d.link n).prot.threshFails = 0 then
    let ask := fun (p : RegPurpose) (w : Option Word) =>
      ({ purpose := p, addr := BitVec.ofNat 15 (threshAddr k), write := w, tag := 0, since := d.now, repeated := false
         carry := false } : HeadRequest)
    ((d.onProt n fun p => { p with threshFails := 1 }).onLnk n fun l =>
      LinkLayer.goNext { l with waiting := l.waiting.filter fun r => decide (r.purpose ≠ .threshRead k) }
        [ask (.threshWrite k) (some (d.threshValue n k)), ask (.threshRead k) none]).reqDone n
  else
    let why := (d.link n).lnk.heldWhy
    let d1 := (((d.onProt n fun p => { p with threshRetryAt := some (d.now + secs 1) }).onLnk n fun l =>
      { l with waiting := l.waiting.filter fun r => !r.purpose.isThresh }).raise (.prtL n) 12).holdLink n
      (if why = .none then .ownDecision else why)
    d1.reqDone n

/-- The head does not declare a contactor that it must have fitted (R219): the output contactor of an outlet, or a matrix
contactor with a matrix entry. Its link is held. -/
def Dev.capsBad (d : Dev) (n : LinkId) : Bool :=
  let caps := (d.link n).lnk.headCaps
  match d.role n with
  | .outlet => !bitOf caps 0
  | .power => (List.range 16).any fun k => (d.dest n k).isSome && !bitOf caps k
  | _ => false

/-- A threshold read back as written. After the last one THRESH_OK reads 1, and a link held for it is LIVE (R291), if its
head declares its contactors (R219). -/
def Dev.threshPassed (d : Dev) (n : LinkId) (k : Nat) : Dev :=
  let d1 := (d.onProt n fun p => { p with threshFails := 0 }).reqDone n
  if k = 5 then
    ((d1.onProt n fun p => { p with threshOk := true }).onLnk n fun l =>
      { l with heldWhy := if l.heldWhy = .ownDecision ∧ !d.capsBad n then .none else l.heldWhy }).settleLink n
  else d1

/-! ### Insulation monitoring (R292 to R299) -/

/-- Sense channel of a head (R143, R292). -/
def Dev.senseCh (d : Dev) (n : LinkId) : Nat := if d.role n = .outlet then 2 else 3

def Dev.imdHalf (d : Dev) (n : LinkId) : Nat := d.settingField (Reg.prtLXInj n) 0 16

def Dev.injAmp (d : Dev) (n : LinkId) : Nat := d.settingField (Reg.prtLXInj n) 16 16

/-- The injector of a link's segment. -/
def Dev.injectorFor (d : Dev) (n : LinkId) : Option LinkId :=
  (d.link n).prot.members.find? fun m => (d.link m).prot.imd.injecting

/-- The insulation value of a pair of half-period means: kΩ, whether below the fault level, whether at or above the
warning level (R293, R294). `num / den` is ΔU in channel units. -/
def Dev.isoValue (d : Dev) (n : LinkId) (num : Int) (den : Nat) : Nat × Bool × Bool :=
  let r := (d.link n).prot.injR.getD 0
  let twoA : Int := 2000 * d.injAmp n
  let fault := d.settingField (Reg.prtLXImd n) 0 16 * d.rateV n
  let warn := d.settingField (Reg.prtLXImd n) 16 16 * d.rateV n
  let rest := twoA * den - num
  let judge := fun (ohm : Nat) => (decide (ohm < fault), decide (warn ≤ ohm))
  if num ≤ 0 then (0, judge 0)
  else if rest ≤ 0 ∨ 0xFFFFFF * 1000 * rest < r * num then (0xFFFFFF, judge (0xFFFFFF * 1000))
  else ((divHalfEven (r * num) (1000 * rest)).toNat, decide (r * num < fault * rest), decide (warn * rest ≤ r * num))

/-- A valid value reaches every member of the segment: the blind time ends (R294, R295). -/
def Dev.takeIso (d : Dev) (n : LinkId) (v : Nat × Bool × Bool) : Dev :=
  d.each (d.link n).prot.members fun d m => d.onProt m fun p => { p with
    imd := { p.imd with value := some v.1, belowFault := v.2.1, aboveWarn := v.2.2, blindSince := none } }

/-- The cable check of the segment's outlet passes (R299). -/
def Dev.passCable (d : Dev) (n : LinkId) (start : Tick) (v : Nat × Bool × Bool) : Dev :=
  d.each ((d.link n).prot.members.filter fun m => d.role m = .outlet) fun d o =>
    let l := d.link o
    if l.veh.state = .cableCheck ∧ !v.2.1 ∧ (l.prot.bandSince.map fun t => decide (t ≤ start)).getD false then
      d.onVeh o fun x => { x with cablePassed := true }
    else d

/-- The mean of a half-period closed at a sample point (R293), foreign injection (R298), and, after a negative one, the
value of the pair and the symmetry reference (R297). -/
def Dev.halfPeriod (d : Dev) (n : LinkId) : Dev :=
  let i := (d.link n).prot.imd
  let now := d.now
  let mine := (i.positive, i.halfStart, i.qSum, i.qN, !i.qBridged)
  let far := match i.halves with
    | (_, _, s, c, _) :: _ => decide (2 * unitsPer * (c * i.qN) < (s * i.qN - i.qSum * c).natAbs)
    | [] => false
  let run := if !i.injecting && far then i.foreignRun + 1 else 0
  let d1 := (d.onProt n fun p => { p with imd := { p.imd with
      halves := (mine :: p.imd.halves).take 4, halfStart := now, positive := !p.imd.positive, qSum := 0, qN := 0,
      qBridged := false, foreignRun := run } }).raiseIf (run = 4) (.prtL n) 11
  let d2 := match i.positive, i.halves with
    | false, (true, start, sp, np, okp) :: _ =>
      if i.injecting ∧ okp ∧ !i.qBridged ∧ 0 < np ∧ 0 < i.qN ∧ i.restartAt + 2 * ms (d.imdHalf n) ≤ start then
        let v := d1.isoValue n (sp * i.qN - i.qSum * np) (np * i.qN)
        let e := ((d1.takeIso n v).passCable n start v).raiseIf (!v.2.2) (.prtL n) 2
        if v.2.1 then e.linkCause n 0x14 3 else e
      else d1
    | _, _ => d1
  if i.positive then d2
  else d2.onProt n fun p => { p with imd := { p.imd with
    refMid := if p.imd.blindSince.isNone ∧ p.imd.perN ≠ 0 then some (divHalfEven p.imd.perSum p.imd.perN) else p.imd.refMid
    perSum := 0, perN := 0 } }

/-- What a sample of the sense channel adds to the running half-period (R293, R297). -/
def Dev.imdSample (d : Dev) (n : LinkId) : Dev :=
  let m := (d.link n).met
  let y := (d.samples n (d.senseCh n)).headD 0
  let quarter := (d.link n).prot.imd.halfStart + 750 * d.imdHalf n
  let late := decide (quarter < d.now)
  d.onProt n fun p => { p with imd := { p.imd with
    qSum := if late then p.imd.qSum + y else p.imd.qSum
    qN := if late then p.imd.qN + 1 else p.imd.qN
    qBridged := p.imd.qBridged || late && m.bridgedSample (sampleIndex d.now)
    perSum := p.imd.perSum + y, perN := p.imd.perN + 1 } }

/-! ### Judgements of a sample point -/

/-- A quantity judged against its level at a sample point. -/
def Judged.step (j : Judged) (now : Tick) (above : Bool) : Judged :=
  { since := sinceWhen j.since now above, last := if above then now else j.last }

/-- Samples of one nominal cycle at the rate in force (R300, R301). -/
def Dev.cycleLen (d : Dev) (n : LinkId) : Nat :=
  let site := if d.role n = .site then n.1 else d.field (Reg.metCfg n) 8 8
  let w := if d.bit (Reg.metCfg site) 1 then 533 else 640
  if (d.link n).met.fast then w else (w + 3) / 4

/-- The RMS of a window is at or above a level in channel units. -/
def rmsAtLeast (w : List Int) (len level : Nat) : Bool :=
  level * level * len ≤ (w.map fun y => y.natAbs * y.natAbs).sum

/-- Milliamperes in channel units. -/
def milli : Nat := 100

/-- Residual current of an AC outlet (R300, R301), or of a site (R302). -/
def Dev.residual (d : Dev) (n : LinkId) (new : Bool) : Dev :=
  let site := decide (d.role n = .site)
  let y := (d.samples n (if site then 7 else 3)).headD 0
  let len := d.cycleLen n
  let w := if new then (y :: (d.link n).prot.window).take len else (d.link n).prot.window
  let wi := if new then ((d.samples n 1).headD 0 :: (d.link n).prot.windowI).take len else (d.link n).prot.windowI
  let pk := d.settingField (Reg.prtLXRdc n) 16 8 * milli
  let dc := d.settingField (Reg.prtLXRdc n) 8 8 * milli
  let ac := d.settingField (Reg.prtLXRdc n) 0 8 * milli
  let acNow := rmsAtLeast w len ac
  let warn := 4 * (w.map fun y => y.natAbs * y.natAbs).sum ≥ ac * ac * len
  let dcNow := decide (dc * len ≤ w.sum.natAbs)
  let pkNow := decide (pk ≤ y.natAbs)
  let d1 := d.onProt n fun p => { p with window := w, windowI := wi }
  if site then
    d1.onProt n fun p => { p with
      siteRdc := p.siteRdc.step d.now (rmsAtLeast w len (d.settingField Reg.prtXSite 0 16 * milli)) }
  else
    (d1.onProt n fun p => { p with
      fastRun := if new then (if pkNow then p.fastRun + 1 else 0) else p.fastRun
      rdcAc := let j := p.rdcAc.step d.now acNow
        if new && pkNow then { j with last := d.now } else j
      rdcDc := p.rdcDc.step d.now dcNow, rdcWarn := warn }).raiseIf warn (.prtL n) 13

/-- The judged current of an outlet is above a number of tenths of an ampere times `mul` thousandths: the mean of |y(1)| over 32
samples, or the RMS over one nominal cycle on AC (R303). -/
def Dev.currentAbove (d : Dev) (n : LinkId) (amps10 mul : Nat) : Bool :=
  if d.isAc n then
    let w := (d.link n).prot.windowI
    let lvl := amps10 * mul * (unitsPer / 10000)
    lvl * lvl * d.cycleLen n < (w.map fun y => y.natAbs * y.natAbs).sum
  else
    let s := d.samples n 1
    amps10 * mul * (unitsPer / 10000) * s.length < (s.map Int.natAbs).sum

/-- The judged voltage is above a number of tenths of a volt times `mul` thousandths (R303). -/
def Dev.voltageAbove (d : Dev) (n : LinkId) (v10 mul : Nat) : Bool :=
  let s := d.sum32 n 0
  decide ((v10 * mul * (unitsPer / 10000) * s.2 : Nat) < s.1)

/-- The session's tenant may export (R304, R338). -/
def Dev.exportOk (d : Dev) (n : LinkId) : Bool :=
  (d.link n).veh.bpt &&
    ((d.link n).bill.session.map fun s => d.bit (Reg.tagTCfg s.tenant) 30).getD false

/-- The mean of y(1) over 32 samples is opposite to the direction in force and above REV_A (R304). -/
def Dev.reverseNow (d : Dev) (n : LinkId) : Bool :=
  let s := d.sum32 n 1
  let dis := (d.link n).veh.discharge && d.exportOk n
  let x := if dis then s.1 else -s.1
  decide ((d.settingField (Reg.prtLXLim n) 24 8 * unitsPer * s.2 : Nat) < x)

/-- Safely limited current, voltage and direction of an outlet (R303, R304). -/
def Dev.limitSample (d : Dev) (n : LinkId) : Dev :=
  let x := d.settingField (Reg.prtLXLim n)
  let live := d.sessionLive n
  let ib := d.iBase10 n
  let vb := d.vBase10 n
  let oi := live && d.currentAbove n ib (1000 + x 0 8)
  let ov := live && d.voltageAbove n vb (1000 + x 8 8)
  d.onProt n fun p => { p with
    slc := p.slc.step d.now oi, slv := p.slv.step d.now ov
    overI := if live && d.currentAbove n ib 1000 then d.now else p.overI
    overV := if live && d.voltageAbove n vb 1000 then d.now else p.overV
    safeDir := p.safeDir.step d.now (d.reverseNow n) }

/-- The symmetry reference of a reference member; free where no whole injection period has given one (R297). -/
def Dev.refMid (d : Dev) (n : LinkId) : Int := (d.link n).prot.imd.refMid.getD (Config.symReference n.1)

/-- The reference member of a link's segment (R297): the injector, or the lowest-linked member. -/
def Dev.symMember (d : Dev) (n : LinkId) : LinkId := (d.injectorFor n).getD ((d.link n).prot.members.headD n)

/-- The merge of a group into a segment (R296 step 4): the tick at which the feedback of its matrix contactor reads closed
restarts the merged segment, and the group's reading is taken into the reference. -/
def Dev.mergeSegment (d : Dev) (g : LinkId) : Dev :=
  let s := d.sum32 g (d.senseCh g)
  let reading := if s.2 = 0 then 0 else divHalfEven s.1 s.2
  (d.restartSegment (d.link g).prot.members).onProt (d.symMember g) fun p => { p with
    imd := { p.imd with refMid := some (Config.mergedReference p.imd.refMid reading) } }

/-- The symmetry bridge of a segment (R297), held at its reference member. No deviation is held of another member. -/
def Dev.symmetrySample (d : Dev) (n : LinkId) : Dev :=
  let ms := (d.link n).prot.members
  if ms.head? ≠ some n ∨ !d.hasImd n then d
  else
    let r := d.symMember n
    let u := d.segVolts n
    let s := d.sum32 r (d.senseCh r)
    let dev := s.1 - d.refMid r * s.2
    let d0 := d.each (ms.filter fun m => m != r) fun d m => d.onProt m fun p => { p with sym := { p.sym with since := none } }
    let lim := (d.settingField (Reg.prtLXSym r) 0 8 * u + 100 * 1000 * d.injAmp r) * s.2
    let above := decide (60 * unitsPer ≤ u) && decide (lim < 100 * dev.natAbs)
    d0.onProt r fun p => { p with
      sym := p.sym.step d.now above
      imd := { p.imd with devMid := if s.2 = 0 then 0 else divHalfEven dev s.2 } }

/-- y(0) of an outlet inside ±5 % of the cable-check voltage since (R299). -/
def Dev.bandSample (d : Dev) (n : LinkId) : Dev :=
  let v := d.vBase10 n * (unitsPer / 10)
  let y := (d.samples n 0).headD 0
  let inside := decide (20 * (y - (v : Nat)).natAbs ≤ v)
  d.onProt n fun p => { p with bandSince := sinceWhen p.bandSince d.now inside }

/-- What protection judges of a link at a sample point (R282 to R304). -/
def Dev.protSample (d : Dev) (n : LinkId) : Dev :=
  let new := (d.link n).met.fast || sampleIndex d.now % 4 == 3
  let d1 := d.onProt n fun p => { p with oc := p.oc.step d.now (d.link n).met.ocNow }
  let d2 := if new && d1.hasImd n then d1.imdSample n else d1
  match d2.role n with
  | .site => d2.residual n new
  | .outlet =>
    let e := if d2.isAc n then d2.residual n new else d2
    (e.limitSample n).bandSample n
  | _ => d2

/-- Feedback that agrees with its command, and feedback open under CLOSE 0, since when (R309). -/
def Dev.feedbackSince (d : Dev) (n : LinkId) : Dev :=
  let l := d.link n
  d.onProt n fun p => { p with
    agreeSince := Vector.ofFn fun k : Fin 16 =>
      sinceWhen (p.agreeSince.get k) d.now (l.hs.fb.getLsbD k.1 == l.cmd.close.getLsbD k.1)
    openSince := Vector.ofFn fun k : Fin 16 =>
      sinceWhen (p.openSince.get k) d.now (!l.hs.fb.getLsbD k.1 && !l.cmd.close.getLsbD k.1) }

/-! ### SEG_PREPARE (R241, R296) -/

/-- Allocation sends SEG_PREPARE: injection on the group's head ends in that tick. -/
def Dev.segPrepare (d : Dev) (g o : LinkId) : Dev :=
  (d.onProtection fun p => { p with
    segs := (p.segs.filter fun s => decide (s.group ≠ g)) ++
      [{ group := g, outlet := o, since := d.now, answered := false }] }).chooseInjectors

/-- A segment is not blind, or its blind time will end within 2,000 ms of its beginning (R296). -/
def Dev.blindOk (d : Dev) (o : LinkId) : Bool :=
  match (d.link o).prot.imd.blindSince with
  | none => true
  | some t => decide (d.now - t + 4 * ms (d.imdHalf ((d.injectorFor o).getD o)) ≤ ms 2000)

/-- The conditions for READY (R296). -/
def Dev.segReadyNow (d : Dev) (s : SegRequest) : Bool :=
  let both := (d.link s.group).prot.members ++ (d.link s.outlet).prot.members
  let head := (d.link s.group).prot.imd
  !head.injecting && decide (2 ≤ head.quiet) && (both.all fun n => (d.link n).prot.latch.isNone) &&
    !(d.link s.group).prot.imd.belowFault && !(d.link s.outlet).prot.imd.belowFault && d.blindOk s.outlet

/-! ### Antivalent inputs (R306 to R308) -/

def avOf (a b : Bool) : AvState := if a && !b then .clear else if !a && b then .demand else .discrepancy

def Dev.avEnabled (d : Dev) (k : Fin 8) : Bool := d.prot.armed && d.bit (Reg.prtAvCfg k) 31

def Dev.discMs (d : Dev) (k : Fin 8) : Nat := d.field (Reg.prtAvCfg k) 16 8

/-- Target link of an antivalent pair or of a safety signal. -/
def Dev.targets (d : Dev) (reg : Nat) : List LinkId := (linkOfNat (d.field reg 0 8)).toList

def Dev.onPair (d : Dev) (k : Fin 8) (f : AvPair → AvPair) : Dev :=
  d.onProtection fun p => { p with pairs := p.pairs.set k.1 (f (p.pairs.get k)) }

/-- A pair in DEMAND is cause 0x21. -/
def Dev.avDemand (d : Dev) (k : Fin 8) : Dev :=
  d.causeOn .av k.1 { code := 0x21, source := 576 + k.1, index := k.1 } none (d.targets (Reg.prtAvCfg k))

/-- A pair takes new levels. -/
def Dev.avLevels (d : Dev) (k : Fin 8) (a b : Bool) : Dev :=
  let p := d.prot.pairs.get k
  let st := avOf a b
  if st = p.state then d.onPair k fun p => { p with a := a, b := b }
  else
    let d1 := d.onPair k fun p => { p with
      a := a, b := b, state := st, since := d.now, counted := p.timer d.now
      restarted := p.restarted && decide (st ≠ .discrepancy) }
    if st = .demand ∧ d1.avEnabled k then d1.avDemand k else d1

/-- Every enabled pair that stands in DEMAND is cause 0x21 at once (R308). -/
def Dev.judgePairs (d : Dev) : Dev :=
  d.each (List.finRange 8) fun d k =>
    if (d.prot.pairs.get k).state = .demand ∧ d.avEnabled k then d.avDemand k else d

/-- Arming finds each pair in a state (R308). -/
def Dev.armPairs (d : Dev) : Dev :=
  (d.each (List.finRange 8) fun d k =>
    d.onPair k fun p => { p with
      since := d.now, counted := 0, restarted := decide (p.state = .clear), faulted := false }).judgePairs

/-! ### The safety network (R312 to R316) -/

/-- SCRC of R314. -/
def scrc (bs : List Byte) : Nat := 0xFFFFFFFF - crcOf 32 0xF4ACFB13 0xFFFFFFFF bs

/-- A safety PDU is valid (R314): VERSION, KIND, LEN and SCRC. The bytes after the SCRC are padding. -/
def pduValid (p : List Byte) : Bool :=
  let len := fieldBE p 10 1
  fieldBE p 0 1 == 1 && (fieldBE p 1 1 == 1 || fieldBE p 1 1 == 2 && len == 2) && len ≤ 64 && 16 + len ≤ p.length &&
    fieldBE p (12 + len) 4 == scrc (p.take (12 + len))

/-- The PDU without its padding. -/
def pduOf (p : List Byte) : List Byte := p.take (16 + fieldBE p 10 1)

/-- The network is enabled (R321). -/
def Dev.netOn (d : Dev) (net : SafetyNet) : Bool := d.bit Reg.prtSnCfg (if net = .a then 31 else 30)

/-- The enabled connection of a CONN_ID. -/
def Dev.connOf (d : Dev) (id : Nat) : Option (Fin 8) :=
  (List.finRange 8).find? fun c => d.connOn c && (d.reg (Reg.prtSnRxId c)).toNat == id

def Dev.onConn (d : Dev) (c : Fin 8) (f : Connection → Connection) : Dev :=
  d.onProtection fun p => { p with conns := p.conns.set c.1 (f (p.conns.get c)) }

/-- SN_FAULT on a connection: cause 0x23. -/
def Dev.snFault (d : Dev) (c : Fin 8) : Dev :=
  (d.onConn c fun x => { x with fault := true, faultAt := d.now }).causeOn .sn (16 + c.1)
    { code := 0x23, source := 585, index := c.1 } none []

/-- The safety signals of a first copy: each one set is cause 0x22 (R316). -/
def Dev.snSignals (d : Dev) (c : Fin 8) (sig : Byte) : Dev :=
  (d.onConn c fun x => { x with sig := sig }).each ((List.range 8).filter sig.getLsbD) fun d k =>
    d.causeOn .sn c.1 { code := 0x22, source := 585, index := k } none (d.targets (Reg.prtSnSig k))

/-- A RESET frame with the next count is an edge reset of this tick (R316). -/
def Dev.snReset (d : Dev) (c : Fin 8) (cnt : BitVec 16) : Dev :=
  let step := (cnt - (d.prot.conns.get c).resetCnt).toNat
  if 1 ≤ step ∧ step ≤ 255 ∧ d.bit (Reg.prtSnRxCfg c) 30 then
    let g := d.goneLatches
    ((d.onConn c fun x => { x with resetCnt := cnt }).raise .rst 0).edgeReset g.1 g.2
  else d

/-- What a valid first copy does. -/
def Dev.snAct (d : Dev) (c : Fin 8) (p : List Byte) : Dev :=
  if fieldBE p 1 1 = 1 then d.snSignals c (if fieldBE p 10 1 = 0 then 0 else p.getD 12 0)
  else d.snReset c (BitVec.ofNat 16 (fieldBE p 12 2))

/-- TEXP of a first copy, capped (R316). -/
def Dev.texpOf (d : Dev) (c : Fin 8) (f : FirstCopy) : Nat := min (fieldBE f.pdu 8 2) (d.field (Reg.prtSnRxCfg c) 0 16)

/-- A safety frame of a kind on one network (R316). -/
def Dev.snFrame (d : Dev) (net : SafetyNet) (kind : Nat) (raw : List Byte) : Dev :=
  if !d.netOn net ∨ !pduValid raw ∨ fieldBE raw 1 1 ≠ kind then d
  else
    let p := pduOf raw
    match d.connOf (fieldBE p 2 4) with
    | none => d.count Reg.prtSnUnknown
    | some c =>
      let x := d.prot.conns.get c
      let seq := BitVec.ofNat 16 (fieldBE p 6 2)
      if !x.isOpen then d
      else match x.firsts.find? fun f => f.seq == seq with
        | some f =>
          if f.net = net then d
          else
            let d1 := d.onConn c fun x => { x with firsts := x.firsts.filter fun g => decide (g.seq ≠ seq) }
            if f.pdu = p ∧ d.now ≤ f.at? + ms (d.texpOf c f) then
              d1.onConn c fun x => { x with
                gotPair := true, fault := false, pairAt := if x.fault ∨ !x.gotPair then d.now else x.pairAt }
            else d1.snFault c
        | none =>
          let step := (x.lastSeq.map fun l => (seq - l).toNat).getD 1
          if step = 0 then d
          else
            let d1 := d.onConn c fun x => { x with lastSeq := some seq }
            if step ≤ 8 then
              let d2 := (d1.onConn c fun x => { x with
                firsts := x.firsts ++ [{ net := net, seq := seq, pdu := p, at? := d.now }]
                lastFirst := d.now, texp := min (fieldBE p 8 2) (d.field (Reg.prtSnRxCfg c) 0 16) }).raiseIf
                (step ≠ 1) .sn (8 + c.1)
              d2.snAct c p
            else d1.snFault c

/-- SIG byte of the device's own frames (R315). -/
def Dev.ownSig (d : Dev) : Byte := BitVec.ofNat 8 (d.prot.tripout.toNat + 16 * b2n (decide (d.mode = .safeHalt)))

/-- EtherType of safety frames (R312). -/
def safetyType : List Byte := [0x88, 0xB5]

/-- The safety PDU of an Ethernet frame without its FCS: the bytes after EtherType 0x88B5. A VLAN-tagged frame has another one
there and is ignored (R312). -/
def pduIn (frame : List Byte) : Option (List Byte) :=
  if (frame.drop 12).take 2 = safetyType then some (frame.drop 14) else none

/-- Source address of a network: 0x02, bits 31:0 of GLB_NODE, then 0xFA or 0xFB (R312). -/
def snSource (net : SafetyNet) : List Byte :=
  2 :: bytesBE 4 (Config.node.toNat % 2 ^ 32) ++ [if net = .a then 0xFA else 0xFB]

/-- The Ethernet frame of a PDU on a network, without its FCS: to PRT_SN_DA, padded to the Ethernet minimum of 60 bytes after the
SCRC (R312, R313, R315). -/
def Dev.snEthernet (d : Dev) (net : SafetyNet) (pdu : List Byte) : List Byte :=
  let f := bytesBE 2 (d.field Reg.prtSnDaHi 0 16) ++ bytesBE 4 (d.reg Reg.prtSnDaLo).toNat ++ snSource net ++ safetyType ++ pdu
  f ++ List.replicate (60 - f.length) 0

/-- The DATA frame sent on both networks (R313, R315). -/
def Dev.snSend (d : Dev) : Dev :=
  let seq := d.prot.txSeq + 1
  let body := [1, 1] ++ bytesBE 4 (d.reg Reg.prtSnTxConn).toNat ++ bytesBE 2 seq.toNat ++
    bytesBE 2 (d.settingField Reg.prtXSn 0 16) ++ [1, 0, d.ownSig]
  let pdu := body ++ bytesBE 4 (scrc body)
  d.onProtection fun p => { p with
    txSeq := seq, txAt := d.now, txSig := d.ownSig, txPdu := pdu
    txA := if d.netOn .a then d.snEthernet .a pdu else []
    txB := if d.netOn .b then d.snEthernet .b pdu else [] }

/-- Every enabled connection opens: at bring-up step 4, and its watchdog restarts at a resume (R316, R319). -/
def Dev.openConnections (d : Dev) : Dev :=
  d.each (List.finRange 8) fun d c =>
    d.onConn c fun x =>
      if d.connOn c then
        { x with isOpen := true, lastSeq := none, firsts := [], openedAt := d.now, gotPair := false, fault := false }
      else { x with isOpen := false }

end Sys2Proof.Machine
end

