-- ==== Sys2Proof/Machine/ConfOps.lean ====
section
/-! DEFINITION. Operations of the configuration: the image, its nine checks and its loading, and the hold of a function
(R397 to R409, R426). -/

namespace Sys2Proof.Machine

/-! ### The image (R399 to R401) -/

/-- A directory entry of the image. -/
structure ImgSection where
  id     : Nat
  schema : Nat
  off    : Nat
  len    : Nat
  crc    : Nat
  deriving DecidableEq, Repr

def imgLen (img : List Byte) : Nat := fieldBE img 8 4

def imgSections (img : List Byte) : List ImgSection :=
  (List.range (min 32 (fieldBE img 6 2))).map fun i =>
    let o := 0x20 + 16 * i
    { id := fieldBE img o 2, schema := fieldBE img (o + 2) 2, off := fieldBE img (o + 4) 4, len := fieldBE img (o + 8) 4,
      crc := fieldBE img (o + 12) 4 }

def ImgSection.body (s : ImgSection) (img : List Byte) : List Byte := slice img s.off s.len

/-- Bytes of a signature by its ALG; 0 is unsigned (R343, R399). -/
def sigLen (alg : Nat) : Nat := if alg = 1 then 96 else if alg = 2 then 132 else if alg = 3 then 114 else 0

/-- Start and SIG_ALG of the trailer: the one place at the end of the image where DIGEST is the SHA-384 of what precedes
it and SIG_ALG says how much follows (R399). -/
def imgTrailer (img : List Byte) : Option (Nat × Nat) :=
  let n := imgLen img
  [0, 1, 2, 3].findSome? fun alg =>
    let start := n - (52 + sigLen alg)
    if 52 + sigLen alg ≤ n ∧ fieldBE img (start + 48) 4 = alg * 2 ^ 24 ∧
        slice img start 48 = Config.sha384 (img.take start) then some (start, alg) else none

/-- Section that an address belongs to (R400). -/
def sectionOf (a : Nat) : Nat :=
  if a < 0xF0000 then
    match a / 0x10000 with
    | 0x8 => 6
    | 0x9 => 5
    | 0xA => 4
    | 0xB => 9
    | 0xC => 8
    | 0xD => if 0x800 ≤ a % 0x10000 ∧ a % 0x10000 ≤ 0x86C then 3 else 10
    | _ => 1
  else if 0x1000000 ≤ a ∧ a < 0x1900000 then [2, 3, 7, 10].getD (a % 0x10000 / 0x1000) 0
  else if a % 0x1000 < 0x300 then 4 else 8

/-- Fields of a register whose Reset column reads "image"; none for every other address. -/
def imageFields (a : Nat) : List RegField := ((regRow a).map RegDecl.fields).getD []

/-- A field's value lies in its range. -/
def RegField.within (f : RegField) (w : Word) : Bool :=
  let v : Int := if f.min < 0 then sfieldOf w f.lo f.width else fieldOf w f.lo f.width
  f.min ≤ v && v ≤ f.max

/-- The bits of a register that belong to a field. -/
def RegField.bits (fs : List RegField) : Nat := (fs.map fun f => (2 ^ f.width - 1) * 2 ^ f.lo).sum

/-- A value that the register may take: every field in range, reserved bits zero (R402 check 7). -/
def valueOk (a : Nat) (w : Word) : Bool :=
  let fs := imageFields a
  fs.all (fun f => f.within w) && w &&& ~~~(BitVec.ofNat 32 (RegField.bits fs)) == 0

/-- Basic register whose value an Expert register takes, and the bits they share (R499). -/
def sharedBasic (a : Nat) : Option (Nat × Word) :=
  let all : Word := 0xFFFFFFFF
  if a = Reg.alcXBudget then some (Reg.alcCfg, all)
  else if a = Reg.tagXPoll then some (Reg.tagCfg, all)
  else if a = Reg.lioTpo0X then some (Reg.lioTpo0Cfg, all)
  else if a = Reg.lioTpo1X then some (Reg.lioTpo1Cfg, all)
  else if Reg.lioS0X 0 ≤ a ∧ a ≤ Reg.lioS0X 3 then some (Reg.lioS0Cfg ((a - Reg.lioS0X 0) / 4), all)
  else if a = Reg.memXScrubL then some (Reg.memScrubCfg, all)
  else if a = Reg.memXScrubW then some (Reg.memScrubCfg2, all)
  else if Reg.memXArcNs 0 ≤ a ∧ a ≤ Reg.memXArcNs 7 ∧ (a - Reg.memXArcNs 0) % 0x10 = 0 then
    some (Reg.memArcNsCfg ((a - Reg.memXArcNs 0) / 0x10), all)
  else if a = Reg.prtXSn then some (Reg.prtSnCfg, 0xFFFFFF)
  else if a = Reg.lioXKey then some (Reg.lioKeyCfg, all)
  else if a = Reg.lioXDisp then some (Reg.lioDispCfg, 0xFF)
  else none

/-- Expert registers that share a value with a Basic one. -/
def sharedRegs : List Nat :=
  [Reg.alcXBudget, Reg.tagXPoll, Reg.lioTpo0X, Reg.lioTpo1X, Reg.memXScrubL, Reg.memXScrubW, Reg.prtXSn, Reg.lioXKey,
    Reg.lioXDisp] ++ (List.range 4).map (fun i => Reg.lioS0X i) ++ (List.range 8).map fun i => Reg.memXArcNs i

/-- Entries of a register section: address and value (R400). -/
def regEntries (body : List Byte) : List (Nat × Word) :=
  (List.range (body.length / 8)).map fun i => (fieldBE body (8 * i) 4, BitVec.ofNat 32 (fieldBE body (8 * i + 4) 4))

/-- FACTORY_CAL entries (R401). -/
def factoryEntries (body : List Byte) : List FactoryCal :=
  (List.range (body.length / 28)).map fun i =>
    let o := 28 * i
    { headId := BitVec.ofNat 32 (fieldBE body o 4), role := BitVec.ofNat 8 (fieldBE body (o + 4) 1),
      channel := BitVec.ofNat 8 (fieldBE body (o + 5) 1),
      words := (List.range 5).map fun k => BitVec.ofNat 32 (fieldBE body (o + 8 + 4 * k) 4) }

/-- COMPAT entries (R401, R410). -/
def compatEntries (body : List Byte) (n : Nat) : List Compat :=
  (List.range n).map fun i =>
    { subject := BitVec.ofNat 32 (fieldBE body (12 * i) 4), min := BitVec.ofNat 32 (fieldBE body (12 * i + 4) 4),
      max := BitVec.ofNat 32 (fieldBE body (12 * i + 8) 4) }

/-- SCROLL entries (R401); the count bounds the entries read. -/
def scrollEntries : Nat → List Byte → List (Byte × List Byte)
  | 0, _ => []
  | k + 1, bs =>
    match bs with
    | l :: n :: rest => (l, rest.take n.toNat) :: scrollEntries k (rest.drop n.toNat)
    | _ => []

/-- The mandatory scroll items (R206). -/
def scrollMust : List Byte := [0x01, 0x02, 0x0A, 0x0B]

/-- An outlet's list with the mandatory items it omits appended. -/
def scrollList (codes : List Byte) : List Byte := codes ++ scrollMust.filter fun c => !codes.contains c

/-! ### Conditions of other chapters (R402 check 8) -/

/-- Permitted classes of a trip cause code in the image (R281). -/
def classPermitted (code cls : Nat) : Bool :=
  if 1 ≤ code ∧ code ≤ 8 ∨ code ∈ [0x10, 0x12, 0x13, 0x16, 0x17, 0x18, 0x20, 0x21] then 1 ≤ cls
  else if code ∈ [0x14, 0x15, 0x19, 0x1A] then 2 ≤ cls
  else if code ∈ [0x11, 0x1B, 0x1C] then true
  else if code ∈ [0x23, 0x24] then cls = 0 || cls = 3
  else cls = 0

/-- An address of the map that a snapshot may name: no window, buffer or vault (R441). -/
def snapAllowed (a : Nat) : Bool :=
  a % 4 == 0 && (a < 0xF0000 || 0x1000000 ≤ a && a < 0x1900000) &&
    match regRow a with
    | some r => r.run < 64 && r.kind != .vault && !(Reg.tagSvcMbxData 0 ≤ a && a < Reg.tagSvcMbxData 0 + 256) &&
        !(Reg.evrWin 0 ≤ a && a < Reg.evrWin 0 + 128)
    | none => false

def snapOk (cls : Nat) (w : Word) : Bool :=
  w == 0xFFFFFFFF ||
    (if cls < 4 && bitOf w 31 then fieldOf w 16 15 == 0 && fieldOf w 0 16 < 0x4000 && snapAllowed (0x1000000 + fieldOf w 0 16)
     else snapAllowed w.toNat)

/-- What R250 forbids on an outlet. -/
def Dev.vehCfgBad (d : Dev) (n : LinkId) : Bool :=
  let b := fun k => d.bit (Reg.vehCfg n) k
  let ac := d.isAc n
  (b 0 && !ac) || (b 1 && ac) || (b 4 && !b 3) || d.field (Reg.vehCfg n) 8 2 == 3 ||
    d.bit (Reg.lnkCfg n) 2 && (b 0 || b 1 || b 2)

/-- What R220 forbids in the matrix of a group. -/
def Dev.matrixBad (d : Dev) (g : LinkId) : Bool :=
  let ds := (List.range 16).map fun k => d.field (Reg.alcMx g k) 0 8
  let named := ds.filter fun x => x != 0xFF
  named.any (fun x => match linkOfNat x with
    | some o => !(decide (d.role o = .outlet) && d.isDc o)
    | none => true) || decide (¬ named.Nodup)

def mdFixOk (m : Nat) : Bool := [1, 2, 3, 4, 5, 6, 10, 12, 15, 20, 30, 60].contains m

def mdSubOk (m : Nat) : Bool := [1, 2, 3, 4, 5, 6, 10, 12, 15].contains m

/-- TEMP_UP ascends strictly over the entries in use: those with a pulse (R460). -/
def Dev.overdriveOk (d : Dev) : Bool :=
  let ts := ((List.range 8).filter fun k => d.field (Reg.lioOd k) 12 12 != 0).map fun k => sfieldOf (d.reg (Reg.lioOd k)) 24 8
  (ts.zip ts.tail).all fun p => p.1 < p.2

/-- Pixel numbers of the present elements (R462): two entries a word, the even one in bits 15:0. -/
def Dev.mapPixels (d : Dev) : List Nat :=
  ((List.range 256).map fun e => d.field (Reg.lioMap (e / 2)) (16 * (e % 2)) 16).filter fun p => p != 0xFFFF

/-- The counts of R4: at most 144 links in all have a role, since there are 144 links. -/
def Dev.rolesFit (d : Dev) : Bool := decide ((d.linksOf .power).length ≤ 48 ∧ (d.linksOf .site).length ≤ 8)

/-- The grid link's links are in role SITE (R377). -/
def Dev.gridFits (d : Dev) : Bool :=
  let site := fun (lo : Nat) => ((linkOfNat (d.field Reg.grdCfg lo 8)).map fun n => d.role n == .site).getD false
  !d.bit Reg.grdCfg 31 || (site 8 && (!d.bit Reg.grdCfg 30 || site 16))

/-- No condition of another chapter makes the image invalid; `d` holds the registers as the image gives them. -/
def Dev.imageFits (d : Dev) (scroll : List (Byte × List Byte)) : Bool :=
  let t := Reg.pwrTempoCfg
  let f := d.field Reg.lioDispCfg 0 8
  (d.field t 0 3 ≤ d.field t 4 3) && d.rolesFit && d.gridFits && mdFixOk (d.field Reg.bilCfg 5 6) && mdSubOk (d.field Reg.bilCfg 11 4) &&
    (scroll.all fun e => (scrollList e.2).length ≤ 64) && (d.powers.all fun g => !d.matrixBad g) &&
    (d.outlets.all fun n => !d.vehCfgBad n) && ((allLinks.filter fun n => d.megawatt n).length ≤ 24) &&
    ((List.range 64).all fun c => classPermitted c (d.field (Reg.prtTripMap (c / 16)) (2 * (c % 16)) 2)) &&
    ((List.range 48).all fun i => snapOk (i / 8) (d.reg (Reg.evrSnap (i / 8) (i % 8)))) &&
    (if d.bit Reg.lioDispCfg 31 then 1 ≤ f && f ≤ 8 else 32 ≤ f && f ≤ 128) && d.overdriveOk &&
    decide d.mapPixels.Nodup && d.mapPixels.all (fun p => p < 480)

/-! ### Loading -/

/-- Schema of a section against the list of the running firmware (R404). -/
inductive SchemaFit where
  | listed | below | other
  deriving DecidableEq, Repr

def schemaFit (fw : Word) (s : ImgSection) : SchemaFit :=
  let l := Config.schemas fw s.id
  if l.contains s.schema then .listed else if l.all fun x => s.schema < x then .below else .other

/-- Sections that are read. -/
def sectionsRead (fw : Word) (img : List Byte) : List ImgSection :=
  (imgSections img).filter fun s => decide (schemaFit fw s = .listed)

def imageEntries (fw : Word) (img : List Byte) : List (Nat × Word) :=
  ((sectionsRead fw img).filter fun s => s.id ≤ 10).flatMap fun s => regEntries (s.body img)

/-- An address whose Reset column reads "kept" (R13). -/
def keptAddr (a : Nat) : Bool := ((regRow a).map RegDecl.kept).getD false

/-- Every image register at its vendor default, those without a fixed default by the kind of the outlet (R280, R499). -/
def Dev.imageDefaults (d : Dev) : Dev :=
  { d with regs := d.regs.filter fun e => (imageFields e.1).isEmpty }

/-- The same without an image to load from: what is kept stays (R13, R67). -/
def Dev.imageAbsent (d : Dev) : Dev :=
  { d with regs := d.regs.filter fun e => (imageFields e.1).isEmpty || keptAddr e.1 }

/-- Defaults that depend on what the image says of the link: BASIC and DIN, and STOP_MS (R280). -/
def Dev.kindDefaults (d : Dev) (given : List Nat) : Dev :=
  d.each d.outlets fun d n =>
    let d1 := if given.contains (Reg.vehCfg n) then d
      else (d.setField (Reg.vehCfg n) 0 1 (b2n (d.isAc n))).setField (Reg.vehCfg n) 1 1 (b2n (d.isDc n))
    if given.contains (Reg.vehXStop n) then d1
    else d1.setField (Reg.vehXStop n) 0 16 (if d1.isAc n then 6000 else 1000)

/-- The registers as an image gives them (R400, R404, R499). -/
def Dev.imageRegs (d : Dev) (es : List (Nat × Word)) : Dev :=
  let d1 := d.imageDefaults.each es fun d e => d.setReg e.1 e.2
  let d2 := d1.kindDefaults (es.map Prod.fst)
  d2.each sharedRegs fun d x =>
    match sharedBasic x with
    | some (b, mask) => d.setReg x ((d.reg x &&& ~~~mask) ||| (d.reg b &&& mask))
    | none => d

/-- An entry is aligned, in its section, of a register of Reset "image", in range, and equal to the Basic value where it
shares one (R402 check 7, R499). -/
def entryOk (e : Dev) (sec : Nat) (x : Nat × Word) : Bool :=
  x.1 % 4 == 0 && !(imageFields x.1).isEmpty && sectionOf x.1 == sec && valueOk x.1 x.2 &&
    match sharedBasic x.1 with
    | some (b, mask) => x.2 &&& mask == e.reg b &&& mask
    | none => true

/-- A FACTORY_CAL entry (R401): its zero bytes, and five words within the ranges of MET_CALk. -/
def factoryOk (b : List Byte) : Bool :=
  let w := fun k => (BitVec.ofNat 32 (fieldBE b (8 + 4 * k) 4) : Word)
  let phase := ((w 3).setWidth 16).toInt
  fieldBE b 6 2 == 0 && decide (-8388608 ≤ (w 0).toInt ∧ (w 0).toInt < 8388608) &&
    decide (-8191 ≤ phase ∧ phase ≤ 8191) && (w 3).toNat < 2 ^ 18 && (w 4).toNat < 2 ^ 16

def sectionOk (e : Dev) (img : List Byte) (s : ImgSection) : Bool :=
  let b := s.body img
  if s.id ≤ 10 then b.length % 8 == 0 && (regEntries b).all (entryOk e s.id) && decide ((regEntries b).map Prod.fst).Nodup
  else if s.id = 0x10 then
    b.length % 28 == 0 && (List.range (b.length / 28)).all fun i => factoryOk (slice b (28 * i) 28)
  else if s.id = 0x12 then b.length % 12 == 0
  else ((scrollEntries b.length b).map fun x => 2 + x.2.length).sum == b.length &&
    (scrollEntries b.length b).all fun x => x.2.length ≤ 64

def listedSections : List Nat := [1, 2, 3, 4, 5, 6, 7, 8, 9, 10, 0x10, 0x11, 0x12]

def imageScroll (fw : Word) (img : List Byte) : List (Byte × List Byte) :=
  ((sectionsRead fw img).filter fun s => s.id = 0x11).flatMap fun s => scrollEntries s.len (s.body img)

/-- SIG_ALG and signature against tenant 0's root (R402 check 4). -/
def Dev.imageSigned (d : Dev) (img : List Byte) : Bool :=
  let r := (d.tenants.get 0).root
  match imgTrailer img with
  | some (start, alg) =>
    r.alg == 0 || (r.alg.toNat == alg && Config.sigVerify alg r.pub (slice img start 48) (slice img (start + 52) (sigLen alg)))
  | none => false

/-- First failed check of R402, 0 if the image is valid. -/
def Dev.imageCheck (d : Dev) (img : List Byte) : Nat :=
  let ss := imgSections img
  let fw := d.upd.fw
  let e := d.imageRegs (imageEntries fw img)
  let v := fun o => fieldBE img o 4
  if !(v 0 = 0x414B4E44 ∧ fieldBE img 4 2 = 1 ∧ 1 ≤ fieldBE img 6 2 ∧ fieldBE img 6 2 ≤ 32 ∧ imgLen img ≤ 0x400000 ∧
      imgLen img ≤ img.length ∧ ss.all fun s => s.off + s.len ≤ imgLen img) then 1
  else if !((ss.all fun s => s.crc == 0xFFFFFFFF - crc32 (s.body img)) && (imgTrailer img).isSome) then 2
  else if !(fieldBE img 0x10 8 = 0 ∨ fieldBE img 0x10 8 = Config.serial.toNat) then 3
  else if !d.imageSigned img then 4
  else if !(v 0x18 ≤ fw.toNat ∧ fw.toNat ≤ v 0x1C) then 5
  else if !((ss.map ImgSection.id).Nodup ∧ ss.all fun s => listedSections.contains s.id) then 6
  else if !((sectionsRead fw img).all (sectionOk e img)) then 7
  else if !e.imageFits (imageScroll fw img) then 8
  else if !(ss.all fun s => decide (schemaFit fw s ≠ .other)) then 9
  else 0

/-- The first section defaulted under R404 with its bit (R426): CFG_DEFAULTED takes section IDs 0x01 to 0x12. -/
def defaultedIds (fw : Word) (img : List Byte) : List Nat :=
  ((imgSections img).filter fun s => decide (schemaFit fw s = .below)).map ImgSection.id

/-- A new configuration image restores a tenant whose consumed total is poisoned (R198): the total that R46 gives it. -/
def Tenant.restored (t : Tenant) : Tenant :=
  if t.consumedPoisoned then { t with poisoned := false, consumedPoisoned := false, consumed := t.grants - t.credit } else t

/-- The image in the configuration region is read and verified: bring-up step 4 (R402 to R405). -/
def Dev.loadImage (d : Dev) : Dev :=
  let img := d.cfg.region
  let fw := d.upd.fw
  let why := d.imageCheck img
  if why ≠ 0 then
    (((d.imageAbsent.onSec fun s => { s with cfgHash := Config.sha384 (img.take (imgLen img)) }).onCfg fun c => { c with
        valid := false, why := why, sections := fieldBE img 6 2, factory := [], scroll := [], compat := [],
        compatNone := false, defaulted := false, unsigned := false }).setReg Reg.cfgImageSerial
      (BitVec.ofNat 32 (fieldBE img 0xC 4))).raise .cfg 0 (BitVec.ofNat 32 why)
  else
    let ids := defaultedIds fw img
    let read := sectionsRead fw img
    let d1 := (d.imageRegs (imageEntries fw img)).onCfg fun c => { c with
      valid := true, why := 0, sections := fieldBE img 6 2, defaulted := !ids.isEmpty
      unsigned := (d.tenants.get 0).root.alg == 0
      factory := (read.filter fun s => s.id = 0x10).flatMap fun s => factoryEntries (s.body img)
      scroll := imageScroll fw img
      compat := (read.filter fun s => s.id = 0x12).flatMap fun s => compatEntries (s.body img) (s.len / 12)
      compatNone := !read.any fun s => s.id = 0x12 }
    let d2 := (d1.setReg Reg.cfgImageSerial (BitVec.ofNat 32 (fieldBE img 0xC 4))).setReg Reg.cfgDefaulted
      (BitVec.ofNat 32 ((ids.map fun i => 2 ^ (i - 1)).sum))
    let hash := Config.sha384 (img.take (imgLen img))
    let d3 := if hash ≠ d.sec.cfgHash then { d2 with tenants := d2.tenants.map Tenant.restored } else d2
    (d3.each ids fun d i => d.raiseAlways .cfg 1 (BitVec.ofNat 32 i)).onSec fun s => { s with cfgHash := hash }

/-! ### The load area (R406) -/

/-- Bytes of the load area: 0xFF where no block has been written since the area was erased. -/
def Configuration.loaded (c : Configuration) (len : Nat) : List Byte :=
  ((List.range ((len + 4095) / 4096)).flatMap fun i =>
    match c.loadArea.find? fun b => b.1 == 4096 * i with
    | some b => b.2
    | none => List.replicate 4096 0xFF).take len

/-- The modes in which CFG_LOAD_* is served. -/
def Dev.loadServed (d : Dev) : Bool := d.mode == .startingBlock || d.mode == .safeHalt

/-! ### Holding a function (R407 to R409) -/

/-- FN and INST name a function instance. -/
def fnKnown (fn : Nat) (inst : Nat) : Bool :=
  match fn with
  | 0x01 => inst < 144 || inst == 255
  | 0x02 => true
  | 0x04 | 0x05 | 0x0B => inst < 144
  | 0x03 | 0x06 | 0x07 | 0x08 | 0x09 | 0x0A | 0x0C | 0x0D => inst == 0
  | _ => false

/-- Expert registers of a function instance. -/
def expertRegs (fn : Nat) (i : Nat) : List Nat :=
  match fn with
  | 0x01 =>
    if i = 255 then [Reg.lioTpo0X, Reg.lioTpo1X] ++ (List.range 4).map fun k => Reg.lioS0X k
    else [Reg.metXOc i, Reg.metXSense i, Reg.metXPq i, Reg.metXPq2 i]
  | 0x02 => [Reg.bilTXLowCredit i, Reg.bilTXStopReserve i, Reg.bilTXCfg i] ++
      ((List.range 16).flatMap fun k => [Reg.bilTXPriceImp i k, Reg.bilTXPriceExp i k]) ++
      (List.range 24).map fun k => Reg.bilTXSwitch i k
  | 0x03 => [Reg.alcXBudget, Reg.alcXMove, Reg.alcXLevel, Reg.alcXTime1, Reg.alcXTime2, Reg.alcXFb]
  | 0x04 => [Reg.prtLXImd i, Reg.prtLXInj i, Reg.prtLXRdc i, Reg.prtLXLim i, Reg.prtLXSym i]
  | 0x05 => [Reg.vehXStop i, Reg.vehXAuth i, Reg.vehXSlac i, Reg.vehXReq i]
  | 0x06 => [Reg.tagXPoll]
  | 0x07 => [Reg.grdXLink, Reg.grdXDisc]
  | 0x08 => [Reg.lioXDisp, Reg.lioXKey]
  | 0x09 => (List.range 8).map fun k => Reg.memXArcNs k
  | 0x0A => [Reg.memXScrubL, Reg.memXScrubW]
  | 0x0B => (List.range 4).map fun k => Reg.auxXTach i k
  | 0x0C => [Reg.prtXSite]
  | 0x0D => [Reg.prtXSn]
  | _ => []

/-- The function instance that an Expert register belongs to is HELD, so that it takes writes (R407). -/
def Dev.expertOpen (d : Dev) (a : Nat) : Bool :=
  d.cfg.slots.toList.any fun s =>
    (s.map fun h => decide (h.state = .held) && (h.saved.any fun p => p.1 == a)).getD false

/-- Slot of a function instance. -/
def Dev.slotFor (d : Dev) (fn : Byte) (inst : BitVec 10) : Option (Fin 16) :=
  (List.finRange 16).find? fun k => ((d.cfg.slots.get k).map fun h => h.fn == fn && h.inst == inst).getD false

/-- A function instance occupies a slot. -/
def Dev.fnHeld (d : Dev) (fn : Nat) (inst : Nat) : Bool := (d.slotFor (BitVec.ofNat 8 fn) (BitVec.ofNat 10 inst)).isSome

/-- The function's own condition of R409 fails. -/
def Dev.holdBarred (d : Dev) (fn inst : Nat) : Bool :=
  match fn, linkOfNat inst with
  | 0x01, some n =>
    match d.role n with
    | .outlet => d.sessionLive n
    | .power => (d.link n).group.owner.isSome || (d.link n).group.state == .inExchange || (d.link n).group.state == .releasing
    | .site => d.mode == .run || d.mode == .economy
    | .unused => false
  | 0x05, some n => (d.link n).veh.state != .idle
  | 0x0B, some n => d.sessionLive n
  | _, _ => false

/-- Refusal code of a HOLD (R408), 0 if it is admitted. -/
def Dev.holdRefusal (d : Dev) (fn : Byte) (inst : BitVec 10) : Nat :=
  if !fnKnown fn.toNat inst.toNat then 1
  else if (d.slotFor fn inst).isSome then 2
  else if d.holdBarred fn.toNat inst.toNat then 3
  else if !(d.mode = .run ∨ d.mode = .economy ∨ d.mode = .maintenance ∨ d.mode = .safeHalt) then 4
  else if d.cfg.slots.toList.all Option.isSome then 5
  else if d.upd.state = .activating then 6
  else 0

/-- CFG_FN_STAT names the instance of a command and its refusal (R426). -/
def Dev.fnStat (d : Dev) (refuse : Nat) (fn : Byte) (inst : BitVec 10) : Dev :=
  d.onCfg fun c => { c with stat := { refuse := refuse, fn := fn, inst := inst } }

def Dev.setSlot (d : Dev) (k : Fin 16) (h : Option HoldSlot) : Dev :=
  d.onCfg fun c => { c with slots := c.slots.set k.1 h }

/-- State of a function instance: that of its slot, RUNNING without one (R426). -/
def Dev.fnState (d : Dev) (fn : Byte) (inst : BitVec 10) : HoldState :=
  match d.slotFor fn inst with
  | some k => ((d.cfg.slots.get k).map HoldSlot.state).getD .running
  | none => .running

/-- The refusal of a command (R408). -/
def Dev.fnRefuse (d : Dev) (code : Nat) (fn : Byte) (inst : BitVec 10) : Dev :=
  (d.fnStat code fn inst).raise .cfg 2 (BitVec.ofNat 32 code)

/-- A slot reports HELD. -/
def Dev.nowHeld (d : Dev) (k : Fin 16) : Dev :=
  match d.cfg.slots.get k with
  | some h =>
    let d1 := d.setSlot k (some { h with state := .held, since := d.now })
    match h.fn.toNat with
    | 0x02 => match tenantOfNat h.inst.toNat with
      | some t => d1.holdTariff t
      | none => d1
    | 0x03 => d1.onAlloc fun a => { a with held := true, holdPending := false }
    | _ => d1
  | none => d

/-- Functions that are HELD at the admission tick of their HOLD (R409). -/
def heldAtOnce (fn : Nat) : Bool := fn != 0x02 && fn != 0x03 && fn != 0x09

/-- A HOLD is admitted in a free slot. -/
def Dev.takeSlot (d : Dev) (fn : Byte) (inst : BitVec 10) : Dev :=
  match (List.finRange 16).find? fun k => (d.cfg.slots.get k).isNone with
  | some k =>
    let h : HoldSlot := { fn := fn, inst := inst, state := .holdPending, since := d.now
                          saved := (expertRegs fn.toNat inst.toNat).map fun a => (a, d.reg a) }
    let d1 := (d.setSlot k (some h)).fnStat 0 fn inst
    match fn.toNat with
    | 0x03 =>
      let d2 := d1.onAlloc fun a => { a with holdPending := true }
      if d2.exchanges.isEmpty then d2.nowHeld k else d2
    | 0x09 =>
      let d2 := d1.onArc fun a => { a with held := true }
      if d2.archive.cmds.toList.all Option.isNone then d2.nowHeld k else d2
    | f => if heldAtOnce f then d1.nowHeld k else d1
  | none => d

/-! ### Resume (R500, R409) -/

/-- A field replaced by the nearest limit of its range (R500). -/
def RegField.clamp (w : Word) (f : RegField) : Word :=
  if f.within w then w
  else
    let v : Int := if f.min < 0 then sfieldOf w f.lo f.width else fieldOf w f.lo f.width
    putField w f.lo f.width ((if v < f.min then f.min else f.max) % 2 ^ f.width).toNat

/-- A field whose own rule says what a value out of range does: CONST and QTY of LIO_TPOm_X (R172, R178), and those of
BIL_T_X_SWITCHi (R188). -/
def ownRule (a : Nat) (f : RegField) : Bool :=
  (a == Reg.lioTpo0X || a == Reg.lioTpo1X) && (f.lo == 0 || f.lo == 28) ||
    (0x4000000 ≤ a && a < 0x4400000 && 0x180 ≤ a % 0x1000 && a % 0x1000 < 0x1E0)

def clampReg (a : Nat) (w : Word) : Word := ((imageFields a).filter fun f => !ownRule a f).foldl RegField.clamp w

/-- FRAME_HZ of LIO_X_DISP is held to the range of the glass (R458). -/
def Dev.clampExpert (d : Dev) (a : Nat) (w : Word) : Word :=
  if a = Reg.lioXDisp then
    let f := fieldOf w 0 8
    let f' := if d.bit Reg.lioDispCfg 31 then max 1 (min 8 f) else max 32 (min 128 f)
    putField (clampReg a w) 0 8 f'
  else clampReg a w

/-- The sealed-set words written during a metrology hold are committed (R154): a channel's first commit takes the factory
words it had; OFFSET is sign-extended (R177), a PHASE out of range takes the nearest limit. -/
def Dev.commitCal (d : Dev) (n : LinkId) (ch : Fin 8) : Dev :=
  let m := (d.link n).met
  let mine := m.calWrites.filter fun w => (List.range 5).any fun i => w.1 == calAddr n ch.1 i
  if mine.isEmpty ∨ (d.role n).channels ≤ ch.1 then d
  else
    let old := d.calWords n ch.1
    let new := (List.range 5).map fun i =>
      let w := ((mine.reverse.find? fun w => w.1 == calAddr n ch.1 i).map Prod.snd).getD (old.getD i 0)
      if i = 0 then wordOfInt (sfieldOf w 0 24)
      else if i = 3 then putField w 0 16 ((max (-8191) (min 8191 (sfieldOf w 0 16))) % 65536).toNat else w
    let changed := decide (new ≠ old) || !d.sealedCal n ch.1
    let d1 := (d.setRegs (calAddr n ch.1 0) new).onMet n fun m => { m with
      sealedCh := m.sealedCh ||| BitVec.ofNat 8 (2 ^ ch.1)
      flags := { m.flags with calChanged := m.flags.calChanged || changed } }
    (d1.setReg (Reg.metCalCrc n) (d1.calCrc n)).raiseIf changed (.met n) 8

/-- The sealed sets of a link are committed. A lap in which a factory set was in use before the commit is flagged (R150). -/
def Dev.commitCals (d : Dev) (n : LinkId) : Dev :=
  let unsealed := !d.calSrc n
  (d.each (List.finRange 8) fun d ch => d.commitCal n ch).onMet n fun m => { m with
    calWrites := [], flags := { m.flags with unsealed := m.flags.unsealed || unsealed } }

/-- The registers as a hold found them. -/
def Dev.before (d : Dev) (old : List (Nat × Word)) : Dev := d.each old fun d p => d.setReg p.1 p.2

/-- A threshold of the link differs from the one in force before (R291). -/
def Dev.threshMoved (d was : Dev) (n : LinkId) : Bool :=
  (List.range 6).any fun k => was.threshValue n k != d.threshValue n k

/-- A resume of protection that changes INJ_AMP or IMD_HALF of an injector restarts its segment (R295), and changed thresholds are
written again (R291, R319). -/
def Dev.resumeProt (d : Dev) (n : LinkId) (old : List (Nat × Word)) : Dev :=
  let was := d.before old
  let injOld := ((old.find? fun p => p.1 == Reg.prtLXInj n).map Prod.snd).getD 0
  let d1 := if injOld ≠ d.reg (Reg.prtLXInj n) ∧ (d.link n).prot.imd.injecting then d.restartSegment (d.link n).prot.members else d
  if d.threshMoved was n && d1.trained n then d1.startThresholds n else d1

/-- Function 0x09 runs again (R453, R454): an archive that is down is ready. -/
def Archive.resume (a : Archive) : Archive :=
  { a with held := false, state := if a.state = .down then .ready else a.state, resets := if a.state = .down then [] else a.resets }

/-- What the end of a hold does beside the registers and the tariff record: the slot is free already. -/
def Dev.resumed (d : Dev) (h : HoldSlot) : Dev :=
  match h.fn.toNat, linkOfNat h.inst.toNat with
  | 0x01, some n => d.commitCals n
  | 0x01, none => d.tpoCheck
  | 0x02, _ => match tenantOfNat h.inst.toNat with
    | some t => d.refixSlots t
    | none => d
  | 0x03, _ => (d.onAlloc fun a => { a with held := false, holdPending := false }).setBudget
  | 0x04, some n => d.resumeProt n h.saved
  | 0x05, some n => d.onVeh n fun v => { v with wait := if v.wait = .hold then .none else v.wait }
  | 0x09, _ => d.onArc fun b =>
    let a := b.resume
    { a with
      ns := Vector.ofFn fun k : Fin 8 =>
        let was := ((h.saved.find? fun p => p.1 == Reg.memXArcNs k).map Prod.snd).getD 0
        let x := a.ns.get k
        if was ≠ d.reg (Reg.memXArcNs k) then { x with bump := true } else x }
  | 0x0C, _ =>
    let was := d.before h.saved
    d.each (d.linksOf .site) fun d n => if d.threshMoved was n ∧ d.trained n then d.startThresholds n else d
  | 0x0D, _ => d.each (List.finRange 8) fun d c => d.onConn c fun x => { x with lastFirst := d.now }
  | _, _ => d

/-- The held values take effect and the slot is freed (R407); a tariff's change record shows the values before and after
(R190). -/
def Dev.applyResume (d : Dev) (k : Fin 16) : Dev :=
  match d.cfg.slots.get k with
  | some h =>
    let d1 := d.each (h.saved.map Prod.fst) fun d a => d.setReg a (d.clampExpert a (d.reg a))
    let d2 := match h.fn.toNat, tenantOfNat h.inst.toNat with
      | 0x02, some t => if (d1.tenant t).held then d1.resumeTariff t else d1
      | _, _ => d1
    (d2.setSlot k none).resumed h
  | none => d

/-- The hold ends and its writes are discarded (R407 CANCEL, R191, R409). -/
def Dev.discardHold (d : Dev) (k : Fin 16) : Dev :=
  match d.cfg.slots.get k with
  | some h =>
    let d1 := (d.each h.saved fun d p => d.setReg p.1 p.2).setSlot k none
    match h.fn.toNat, linkOfNat h.inst.toNat with
    | 0x01, some n => d1.onMet n fun m => { m with calWrites := [] }
    | 0x02, _ => match tenantOfNat h.inst.toNat with
      | some t => d1.onTenant t fun x => { x with held := false }
      | none => d1
    | 0x03, _ => d1.onAlloc fun a => { a with held := false, holdPending := false }
    | 0x05, some n => d1.onVeh n fun v => { v with wait := if v.wait = .hold then .none else v.wait }
    | 0x09, _ => d1.onArc Archive.resume
    | _, _ => d1
  | none => d

/-- Every hold ends with its writes discarded: entry to ACTIVATION and every bring-up (R409). -/
def Dev.endHolds (d : Dev) : Dev := d.each (List.finRange 16) Dev.discardHold

/-- Functions whose values apply at the admission tick of the RESUME (R409). -/
def resumesAtOnce (fn : Nat) : Bool := [0x01, 0x05, 0x06, 0x08, 0x09, 0x0A, 0x0B].contains fn

/-- Planning lap boundaries fall at multiples of 100,000 ticks (R24). -/
def Dev.atPlanning (d : Dev) : Bool := d.now % 100000 == 0

/-- The application point of a pending resume is the open tick (R409). -/
def Dev.resumeDue (d : Dev) (h : HoldSlot) : Bool :=
  match h.fn.toNat with
  | 0x02 => d.pacer.lastBoundary == some d.now
  | 0x03 => d.atPlanning
  | 0x04 | 0x0C | 0x0D => isSamplePoint d.now && decide (h.since < d.now)
  | 0x07 => (d.grid.startAt == d.now && decide (h.since < d.now)) || decide (d.grid.state = .off ∨ d.grid.state = .noMains)
  | _ => true

/-- A pending HOLD meets its function's rule (R409). -/
def Dev.holdDue (d : Dev) (h : HoldSlot) : Bool :=
  match h.fn.toNat with
  | 0x02 => d.pacer.lastBoundary == some d.now
  | 0x03 => d.exchanges.isEmpty
  | 0x09 => d.archive.cmds.toList.all Option.isNone
  | _ => true

end Sys2Proof.Machine
end

