-- ==== Sys2Proof/Machine/ResetOps.lean ====
section
/-! DEFINITION. What a reset keeps and what it does not, the calendar keeper, and the beginning of a bring-up (R13, R14,
R25, R26, R56, R486, R487). -/

namespace Sys2Proof.Machine

/-! ### What a reset keeps -/

/-- A count "since power-on reset" goes on through DORMANT and through an internal reset. -/
def cycleAddr (a : Nat) : Bool :=
  if a < 0xF0000 then
    [Reg.pacLapNum, Reg.pacOverrunCnt, Reg.hptErrCnt, Reg.hptAbortCnt, Reg.hptGuardCnt, Reg.hptTxnCnt, Reg.alcExchCnt,
      Reg.alcAbortCnt, Reg.prtTripCnt, Reg.tagAuthCnt, Reg.tagRefuseCnt, Reg.secViolCnt, Reg.secRngFailCnt, Reg.memCorrCnt,
      Reg.memArcGapCnt].contains a
  else
    let n := (a - 0x1000000) / 0x10000
    [Reg.lnkTrainCnt n, Reg.metDipCnt n, Reg.metSwellCnt n, Reg.metOcCnt n, Reg.vehCounts n].contains a

/-- What the ledger store keeps of a link: legal registers, the metrology totals as last committed (R158), the open lap and
calibration. -/
def Link.kept (l : Link) (n : LinkId) : Link :=
  { Link.reset n with
    bill := l.bill
    met := { Metrology.reset with
      sealedCh := l.met.sealedCh, imp := l.met.comImp, exp := l.met.comExp, comImp := l.met.comImp
      comExp := l.met.comExp, impLap := l.met.impLap, expLap := l.met.expLap
      flags := l.met.flags } }

def AvPair.kept (p : AvPair) : AvPair := { AvPair.reset with a := p.a, b := p.b, state := p.state }

def ResetInput.kept (r : ResetInput) : ResetInput := { ResetInput.reset with high := r.high, jammed := r.high }

def Security.kept (s : Security) : Security :=
  { Security.reset with
    vault := s.vault, rotatePending := s.rotatePending, firstSeq := s.firstSeq, serials := s.serials, chain := s.chain
    cfgHash := s.cfgHash }

def Recorder.kept (r : Recorder) (cold : Bool) : Recorder :=
  { r with events := [], setNow := [], clearedNow := [], repeats := [], evt := 0xF, retesting := false, rejoin := 0
           norSkipped := if cold then [] else r.norSkipped }

def Power.kept (p : Power) (cold : Bool) : Power :=
  { Power.reset with
    haltForGood := !cold && p.haltForGood, loaderOk := p.loaderOk, testEn := p.testEn, pfailGone := p.pfailGone, vaonLost := p.vaonLost
    sealCntMirror := p.sealCntMirror, voutMode := p.voutMode
    haltLatch := p.haltLatch, pfail := p.pfail, vaonLow := p.vaonLow, railLow := p.railLow, asleep := p.asleep
    commitAt := p.commitAt, commitCal := p.commitCal, opSecondsMirror := p.opSecondsMirror, cyclesMirror := p.cyclesMirror, waking := p.waking
    caught := p.caught, supplyDormant := p.supplyDormant, resetHeld := false, porAsserted := p.porAsserted }

/-- The running lap as committed: it closes in bring-up step 8 (R183). -/
def Pacer.kept (p : Pacer) (cold : Bool) : Pacer :=
  { Pacer.reset with
    tick := if cold then 0 else p.tick, paceOk := p.paceOk, calSet := p.calSet, cal := p.cal
    secNext := p.secNext, leap := p.leap, leapHeld := p.leapHeld, lapRunning := p.lapRunning, lapStart := p.lapStart
    lapStartCal := p.lapStartCal, lapStartSet := p.lapStartSet, lapInterrupted := p.lapRunning, dormantTick := p.dormantTick
    dormantPeriods := p.dormantPeriods, vcoreMargin := !cold && p.vcoreMargin }

/-- The secured state ends where AUTH is not served (R336). -/
def ServiceTag.unsecured (t : ServiceTag) : ServiceTag :=
  { t with state := if t.state = .secured then .opened else t.state, ks := [], rndB := none, txCount := 0, rxCount := 0 }

/-- What lasts of the latch of the site (R309): OVERRUN, POISON_TOKEN and CODE_FAULT are never gone within a power cycle. -/
def Latch.lasting (l : Latch) : Option Latch :=
  let cs := l.causes.filter fun c => [0x32, 0x35, 0x38].contains c.cause.code
  cs.head?.map fun c => { l with
    causes := cs, primary := if [0x32, 0x35, 0x38].contains l.primary.code then l.primary else c.cause }

/-- The newest block written. -/
def Namespace.newest (x : Namespace) : Option ArchiveBlock :=
  x.blocks.foldl (fun m b => match m with
    | some o => if o.epoch.toNat < b.epoch.toNat ∨ o.epoch = b.epoch ∧ o.no < b.no then some b else m
    | none => some b) none

/-- What the archive goes on from after a restart: blocks that waited in work memory are gone, so that writing resumes after the last
block written, with the records after those it holds (R449, R450, R452). -/
def Namespace.kept (x : Namespace) : Namespace :=
  let last := x.newest
  { x with
    wave := [], failed := false
    prevTag := (last.map ArchiveBlock.tag).getD (List.replicate 16 0), place := (last.map fun b => b.place + 1).getD 0
    recPos := x.blocks.foldl (fun n b => max n b.recEnd) 0 }

/-- The core after a reset that leaves VAON applied (R13, R487). A reset of the whole device is cold: the tick counter
restarts at 0 (R24), and what lasts for a power cycle ends. -/
def Dev.coreReset (d : Dev) (cold : Bool) : Dev :=
  { Dev.reset with
    pacer := d.pacer.kept cold
    power := { d.power.kept cold with
      haltLatch := d.power.haltLatch || !cold && (d.prot.siteLatch.bind Latch.lasting).isSome }
    regs := d.regs.filter fun e => keptAddr e.1 || (!cold && cycleAddr e.1)
    links := Vector.ofFn fun n : Fin 144 => (d.links.get n).kept n
    tenants := d.tenants
    bill := d.bill
    alloc := if cold then Allocation.reset else
      { Allocation.reset with
        limit := d.alloc.limit, waiting := d.alloc.waiting, everLimit := d.alloc.everLimit, expired := d.alloc.expired }
    prot := { Protection.reset with
      siteLatch := if cold then none else d.prot.siteLatch.bind Latch.lasting
      pairs := d.prot.pairs.map AvPair.kept, resets := d.prot.resets.map ResetInput.kept }
    svc := d.svc.unsecured
    sec := d.sec.kept
    disp := { Display.reset with stress := d.disp.stress, polarity := d.disp.polarity }
    scroll := { Scroll.reset with value := d.scroll.value, bay := d.scroll.bay, lamps := d.scroll.lamps }
    keys := d.keys.map fun k => { Key.reset with stored := k.stored, base := k.stored.getD 0 }
    s0 := d.s0.map fun x => { S0Input.reset with raw := x.raw, level := x.level, judged := x.level }
    cfg := { Configuration.reset with region := d.cfg.region, loadArea := d.cfg.loadArea }
    upd := { d.upd with
      refuse := 0, actRefuse := 0, gridPieces := [], slots := Vector.replicate 2 { state := 0, result := 0, piece := none } }
    recorder := d.recorder.kept cold
    mem := { d.mem with poisonWork := [], poisonArmed := true, poisonAddr := 0, scrubLedger := 0, scrubWork := 0
                        codeRetry := none }
    archive := { Archive.reset with ns := d.archive.ns.map Namespace.kept }
    fresh := d.fresh }

/-! ### The last-gasp engine (R70, R72) -/

/-- A commit: the accumulators are committed, the open lap and the reservations are as they stand, the counters are mirrored,
and the commit takes the next sequence number. In the tick of a lap boundary the boundary's latching comes first (R74). -/
def Dev.lastGasp (d : Dev) : Dev :=
  let d1 := d.lapFirst
  ((d1.setReg Reg.pwrCommitSeq (d1.reg Reg.pwrCommitSeq + 1)).mirror).commitTotals

/-- A reset of the whole device (R486, R487): the entry of the last-word table if a supply warning is present, and the
core as a reset leaves it, with the totals as last committed (R158, R183). -/
def Dev.resetAll (d : Dev) : Dev :=
  let d0 := applyIf d.power.warnAt.isSome (fun d => d.lastWord 7 (fieldOf (d.reg Reg.pwrCommitSeq) 0 16)) d
  (d0.coreReset true).onPower fun p => { p with resetHeld := true, waking := none, caught := none, supplyDormant := false }

/-! ### The calendar keeper (R25, R26) -/

/-- ⌈p × 1,000,000 / 32,768⌉ (R26). -/
def ticksOfPeriods (p : Nat) : Nat := (p * 1000000 + 32767) / 32768

/-- The keeper's periods within the running second when the device left the Pacer's time. -/
def Pacer.keeperAt (p : Pacer) : Nat := p.inSecond p.dormantTick * 32768 / 1000000 % 32768

/-- The Pacer takes the keeper's second and its position in it, at tick `t0` (R26). -/
def Pacer.fromKeeper (p : Pacer) (q t0 : Nat) : Pacer :=
  { p with tick := t0, secNext := t0 + ticksOfPeriods (32768 - q), driftAt := t0 }

/-- On leaving DORMANT the ticks that would have elapsed are added to the count (R25). Whole seconds are known from the
turns of the calendar; the periods since the last turn are a free value. -/
def Pacer.wake (p : Pacer) (draw : Nat) : Pacer :=
  let k0 := p.keeperAt
  let q := if p.dormantPeriods = 0 then k0 + draw % (32768 - k0) else draw % 32768
  let periods := p.dormantPeriods + (if p.dormantPeriods = 0 then q - k0 else q)
  { p.fromKeeper q (p.dormantTick + periods * 1000000 / 32768) with dormantPeriods := 0 }

/-- The calendar second turns over in the keeper while the Pacer does not count (R26). -/
def Pacer.keeperTurn (p : Pacer) : Pacer :=
  { p.turnOver with
    dormantPeriods := p.dormantPeriods + (if p.dormantPeriods = 0 then 32768 - p.keeperAt else 32768) }

/-! ### The beginning of a bring-up (R56) -/

/-- Step 3: the loader is verified. It fails with LOADER_BAD in SAFE HALT, left only by a power-on reset. The loader does not
change within a power cycle, so that each verification finds what the one after the release of POR_N found. -/
def Dev.verifyLoader (d : Dev) : Dev :=
  if d.power.loaderOk then d
  else (d.lastWord 1 0).onPower fun p => { p with haltNow := true, haltForGood := true, bringupFault := some .loaderBad }

/-- The settings of the antivalent pairs that a valid image in the configuration region enables (R308): they are judged from
bring-up step 2. -/
def Dev.imagePairs (d : Dev) : Dev :=
  let img := d.cfg.region
  if d.imageCheck img = 0 then
    d.each ((imageEntries d.upd.fw img).filter fun e => (List.range 8).any fun k => e.1 == Reg.prtAvCfg k) fun d e =>
      d.setReg e.1 e.2
  else d

/-- Steps 1 to 3: WAKING, the sprint path armed with the boot trip map, and the loader verified. -/
def Dev.armBoot (d : Dev) : Dev :=
  ((d.onPower fun p => { p with
      mode := .waking, bringup := .waking, bringupAt := d.now, bringupLead := 0, bringupFault := none, tempo := 0, target := 0
      vcoreOff := false }).onProtection fun p => { p with
        armed := true, bootMap := true, selftestOk := false }).imagePairs.armPairs.verifyLoader

/-- After VAON is lost the counters are restored from their mirrors in the ledger store; the calendar is unset, and no seal
change has been watched since (R26, R77, R203). -/
def Dev.restoreMirrors (d : Dev) : Dev :=
  if d.power.vaonLost then
    ((((d.setReg Reg.pwrOpSeconds d.power.opSecondsMirror).setReg Reg.pwrCycles d.power.cyclesMirror).setReg Reg.bilSealCnt
      d.power.sealCntMirror).onPacer fun p => { p with calSet := false }).onBilling (fun b => { b with unwatched := true })
      |>.each allLinks (fun d n => d.onBill n fun b => { b with unwatched := true }) |>.onPower (fun p => { p with vaonLost := false }) |>.onSvc fun t => { t with power := false }
  else d

/-- A start that finds an activation unfinished before step 4 (R420, R422): with a record in ARMING the loader retreats the heads,
without one nothing was begun that outlives the start, and the update is READY again. -/
def Dev.activationCut (d : Dev) : Dev :=
  if d.upd.state = .activating ∧ d.upd.record = .arming then
    d.onUpd fun u => { u with record := .retreating, state := .retreating, retreatWhy := 3, step := 0 }
  else if d.upd.state = .activating ∧ d.upd.record = .none then
    (d.onUpd fun u => { u with state := .ready, step := 0 }).raise .upd 4
  else d

/-- Bring-up after a reset of the whole device: the power-on reset is counted (R77), and the Pacer takes the keeper's
time (R26). While an activation record says SWAPPING the loader writes first (R421), and with TEST_EN high at the last release of
POR_N the device stays in WAKING (R487). -/
def Dev.powerOn (d : Dev) (loaderOk : Bool) : Dev :=
  let d1 := (((d.activationCut.restoreMirrors.count Reg.pwrCycles).setReg Reg.pwrWakeCause 0).onPacer fun p =>
    p.fromKeeper (d.drawn.toNat % 32768) 0).drew
  let d2 := (d1.onPower fun p => { p with
    resetHeld := false, porAsserted := false, railLow := [], loaderOk := loaderOk }).armBoot
  if d2.power.testEn ∨ d2.upd.record = .swapping then d2.onPower fun p => { p with bringup := .idle } else d2

/-- PWR_WAKE_CAUSE (R78): cause, underlying cause of a false start, and address. -/
def WakeCause.word (c : WakeCause) (falseStart : Bool) : Word :=
  let a := match c with
    | .wake a | .alert a => a.toNat
    | _ => 0
  let code := match c with
    | .powerOn => 0
    | .wake _ => 1
    | .alert _ => 2
    | .serviceField => 3
    | .pfailRelease => 4
  if falseStart then packWord [(0, 4, 5), (4, 4, code), (8, 8, a)] else packWord [(0, 4, code), (8, 8, a)]

/-- A wake cause (R68, R69): during DORMANT entry the false-start latch catches it; in DORMANT the first one waits for the
rails. -/
def Dev.wakeCause (d : Dev) (c : WakeCause) : Dev :=
  if d.mode = .dormant then
    if d.power.entering then d.onPower fun p => { p with caught := p.caught.or (some c) }
    else d.onPower fun p => { p with waking := p.waking.or (some c) }
  else d

/-- Exit from DORMANT (R25, R51, R56, R69): OPERATION on is sent, and the wake cause recorded. How long before WAKING the cause
came is a free value. -/
def Dev.leaveDormant (d : Dev) (c : WakeCause) : Dev :=
  let early := d.power.caught.isSome
  let d1 := ((d.onPacer fun p => p.wake d.drawn.toNat).drew).setReg Reg.pwrWakeCause (c.word early)
  let d2 := (d1.onPower fun p => { p with caught := none, supplyDormant := false, pmbOp := some .operationOn }).armBoot
  let d3 := (d2.onPower fun p => { p with bringupLead := d2.drawn.toNat }).drew
  d3.raiseIf early .pwr 5

end Sys2Proof.Machine
end

