-- ==== Sys2Proof/Machine/UpdOps.lean ====
section
/-! DEFINITION. Operations of field update: the manifest and its checks, pieces, assembly and head staging, activation,
retreat and confirmation (R410 to R425). -/

namespace Sys2Proof.Machine

/-! ### Manifests (R410 to R412) -/

/-- A part entry at a place of the body (R411). -/
def partEntry (b : List Byte) (o : Nat) : PartEntry :=
  { kind := BitVec.ofNat 8 (fieldBE b o 1), mode := BitVec.ofNat 8 (fieldBE b (o + 1) 1)
    headId := BitVec.ofNat 32 (fieldBE b (o + 4) 4), first := fieldBE b (o + 8) 4, units := fieldBE b (o + 12) 4
    newVer := BitVec.ofNat 32 (fieldBE b (o + 16) 4), baseVer := BitVec.ofNat 32 (fieldBE b (o + 20) 4)
    payloadLen := fieldBE b (o + 24) 4, imageLen := fieldBE b (o + 28) 4, hash := slice b (o + 32) 48 }

/-- A manifest from its serial, its times and its body (R410). -/
def manifestOf (serial : Word) (notBefore notAfter : Nat) (b : List Byte) : Manifest :=
  let n := fieldBE b 0 1
  let c := fieldBE b 2 2
  { serial := serial, notBefore := notBefore, notAfter := notAfter, auto := fieldBE b 1 1 % 2 == 1, units := fieldBE b 4 4
    parts := (List.range n).map fun i => partEntry b (16 + 80 * i)
    compat := (List.range c).map fun i =>
      let o := 16 + 80 * n + 12 * i
      { subject := BitVec.ofNat 32 (fieldBE b o 4), min := BitVec.ofNat 32 (fieldBE b (o + 4) 4)
        max := BitVec.ofNat 32 (fieldBE b (o + 8) 4) } }

/-- The units of two parts overlap. -/
def PartEntry.overlaps (a b : PartEntry) : Bool := a.first < b.first + b.units && b.first < a.first + a.units

/-- Check 2: counts, ranges and part units, at most one part of kinds 1 and 2, no delta for a head. -/
def Manifest.layoutOk (m : Manifest) (b : List Byte) : Bool :=
  let n := m.parts.length
  1 ≤ n && n ≤ 32 && m.compat.length ≤ 64 && 1 ≤ m.units && m.units ≤ 229376 &&
    b.length == 16 + 80 * n + 12 * m.compat.length &&
    m.parts.all (fun p =>
      1 ≤ p.kind.toNat && p.kind.toNat ≤ 5 && (p.mode == 1 || p.mode == 2) && p.first + p.units ≤ m.units &&
        p.payloadLen ≤ 256 * p.units && (p.kind.toNat ≤ 2 || p.mode == 1)) &&
    (m.parts.filter fun p => p.kind = 1).length ≤ 1 && (m.parts.filter fun p => p.kind = 2).length ≤ 1 &&
    (List.range n).all fun i => (List.range i).all fun j =>
      match m.parts[i]?, m.parts[j]? with
      | some a, some c => !a.overlaps c
      | _, _ => true

def Manifest.partOf (m : Manifest) (kind : Nat) : Option PartEntry := m.parts.find? fun p => p.kind.toNat == kind

/-- The part that holds an image for the head of a link: its HEAD_ID and the kind of its role (R416). -/
def Dev.partFor (d : Dev) (m : Manifest) (n : LinkId) : Option PartEntry :=
  m.parts.find? fun p => 3 ≤ p.kind.toNat && p.headId == d.reg (Reg.lnkHeadId n) && p.kind.toNat - 2 == (d.role n).code

/-- Firmware that results from an activation. -/
def Dev.newFw (d : Dev) (m : Manifest) : Word := ((m.partOf 1).map PartEntry.newVer).getD d.upd.fw

/-- The resulting set is compatible (R419). A new configuration image states its range only when it has been assembled, so
the running image's range is judged where the manifest brings none. -/
def Dev.setCompatible (d : Dev) (m : Manifest) : Bool :=
  let fw := (d.newFw m).toNat
  (m.compat.filter fun c => c.subject = 0).all (fun c => c.min.toNat ≤ fw && fw ≤ c.max.toNat) &&
    ((m.partOf 2).isSome || !d.cfg.valid ||
      (fieldBE d.cfg.region 0x18 4 ≤ fw && fw ≤ fieldBE d.cfg.region 0x1C 4)) &&
    (d.usedLinks.filter d.trained).all fun n =>
      let v := ((d.partFor m n).map PartEntry.newVer).getD (d.reg (Reg.lnkHeadFw n))
      m.compat.any fun c => c.subject == d.reg (Reg.lnkHeadId n) && c.min.toNat ≤ v.toNat && v.toNat ≤ c.max.toNat

/-- Refusal code of a manifest that verifies (R412), 0 if it is accepted. -/
def Dev.manifestRefusal (d : Dev) (m : Manifest) (b : List Byte) : Nat :=
  if d.upd.state ≠ .idle then 1
  else if !m.layoutOk b then 2
  else if !m.parts.all fun p => (p.kind ≠ 1 || p.imageLen ≤ 28 * 1048576) && (p.kind ≠ 2 || p.imageLen ≤ 4 * 1048576) then 3
  else if !m.parts.all fun p =>
      p.mode ≠ 2 || (if p.kind = 1 then p.baseVer == d.upd.fw else p.baseVer == d.reg Reg.cfgImageSerial) then 4
  else if !(d.tenants.get 0).root.seedOn then 5
  else if !d.setCompatible m then 6
  else 0

/-- A part's state shown in UPD_PARTk (R427). -/
def Dev.setPart (d : Dev) (k : Nat) (s : PartState) : Dev :=
  let kind := ((d.upd.manifest.bind fun m => m.parts[k]?).map fun p => p.kind.toNat).getD 0
  let d1 := d.onUpd fun u => { u with parts := u.parts.set k s }
  if k < 32 then d1.setReg (Reg.updPart k) (packWord [(28, 4, kind), (24, 4, s.state), (0, 8, s.heads.length)]) else d1

/-- The staging region is erased. -/
def Dev.eraseStaging (d : Dev) : Dev := d.onUpd fun u => { u with stored := [], images := [], staged := [] }

/-- A manifest that verified under R358 is offered (R412). -/
def Dev.offerManifest (d : Dev) (serial : Word) (notBefore notAfter : Nat) (b : List Byte) : Dev :=
  let m := manifestOf serial notBefore notAfter b
  let code := d.manifestRefusal m b
  if code ≠ 0 then (d.onUpd fun u => { u with refuse := code }).raiseAlways .upd 1 (BitVec.ofNat 32 code)
  else
    let d1 := ((((d.eraseStaging.onUpd fun u => { u with
        state := .receiving, refuse := 0, manifest := some m, armed := [], armBad := false, autoDone := false
        parts := m.parts.map fun _ => { state := 0, heads := [], failed := [] } }).setReg Reg.updManSerial serial).setReg
      Reg.updManLast serial).setReg Reg.updPieces (BitVec.ofNat 32 m.units)).setReg Reg.updHave 0
    (d1.each (List.range m.parts.length) fun d k => d.setPart k { state := 0, heads := [], failed := [] }).raise .upd 0 serial

/-! ### Ends of an update -/

/-- The update ends with an outcome and STATE is IDLE (R418, R422, R423, R427). -/
def Dev.endUpdate (d : Dev) (outcome : Nat) : Dev :=
  (d.eraseStaging.onUpd fun u => { u with
    state := .idle, record := .none, journal := none, manifest := none, step := 0, armed := [], windowOpen := false }).setReg
    Reg.updLastEnd (packWord [(0, 4, outcome)])

/-- A part fails (R416): STATE is FAILED, the part is shown, staging is erased. -/
def Dev.failPart (d : Dev) (k : Nat) : Dev :=
  ((((d.setPart k { state := 4, heads := [], failed := [] }).onUpd fun u => { u with state := .failed }).setReg
    Reg.updLastEnd (packWord [(0, 4, 6), (8, 5, k)])).raise .upd 2 (BitVec.ofNat 32 k)).eraseStaging

/-! ### Assembly and head staging (R416, R417) -/

/-- The plain bytes of a stored unit. -/
def Dev.unitBytes (d : Dev) (serial : Word) (i : Nat) : Option (List Byte) :=
  (d.upd.stored.find? fun u => u.1 == i).bind fun u =>
    Config.gcmOpen (stagingKey d.sec.vault.drk.key serial) (bytesBE 4 i ++ List.replicate 8 0) [] u.2

/-- The payload of a part. -/
def Dev.payload (d : Dev) (m : Manifest) (p : PartEntry) : List Byte :=
  ((List.range p.units).flatMap fun i => (d.unitBytes m.serial (p.first + i)).getD []).take p.payloadLen

/-- The extents of a delta written over a base image, in order (R411); the number of extents is bounded by the payload. -/
def applyDelta : Nat → List Byte → List Byte → List Byte
  | 0, _, base => base
  | fuel + 1, payload, base =>
    if payload.length < 8 then base
    else
      let off := fieldBE payload 0 4
      let len := fieldBE payload 4 4
      let grown := padTo (max base.length (off + len)) base
      applyDelta fuel (payload.drop (8 + len)) (grown.take off ++ slice payload 8 len ++ grown.drop (off + len))

/-- The image that a part results in (R411): its payload, or a delta over the running image of its kind. -/
def Dev.assembled (d : Dev) (m : Manifest) (p : PartEntry) : List Byte :=
  let pay := d.payload m p
  if p.mode = 1 then padTo p.imageLen pay
  else padTo p.imageLen (applyDelta (pay.length / 8 + 1) pay (if p.kind = 2 then d.cfg.region else d.upd.fwImage))

/-- Links whose head takes a part's image (R416). -/
def Dev.headsFor (d : Dev) (p : PartEntry) : List LinkId :=
  d.usedLinks.filter fun n =>
    d.trained n && d.reg (Reg.lnkHeadId n) == p.headId && (d.role n).code == p.kind.toNat - 2

/-- The first part that is not complete (R416). -/
def Dev.currentPart (d : Dev) : Option Nat :=
  (List.range d.upd.parts.length).find? fun k => ((d.upd.parts[k]?).map fun s => decide (s.state < 2)).getD false

/-- One word of the image, first byte in bits 31:24. -/
def imageWord (img : List Byte) (i : Nat) : Word := BitVec.ofNat 32 (fieldBE img (4 * i) 4)

/-- Step `k` of sending a part to a head: HEAD_STG_MAX read, HEAD_STG_SIZE, HEAD_STG_VER and the hash written, OPEN, the
words of the image, VERIFY, and HEAD_STG_STATUS read (R417). -/
def Dev.stageStep (d : Dev) (n : LinkId) (p : PartEntry) (img : List Byte) (k : Nat) : Dev :=
  let words := (p.imageLen + 3) / 4
  let q := fun (a : Nat) (w : Option Word) => d.queueReq n (.stage k) a w
  if k = 0 then (d.onLnk n fun l => { l with stg := 0 }).queueReq n (.stage k) 0x50 none
  else if k = 1 then q 0x44 (some (BitVec.ofNat 32 p.imageLen))
  else if k = 2 then q 0x54 (some p.newVer)
  else if k < 15 then q (0x60 + 4 * (k - 3)) (some (imageWord p.hash (k - 3)))
  else if k = 15 then q 0x40 (some 1)
  else if k < 16 + words then q 0x48 (some (imageWord img (k - 16)))
  else if k = 16 + words then q 0x40 (some 2)
  else q 0x4C none

/-- The part under way on a link, if its head is being staged. -/
def Dev.stagingOn (d : Dev) (n : LinkId) : Option (Nat × PartEntry) :=
  match d.upd.manifest, d.currentPart with
  | some m, some k =>
    match m.parts[k]?, d.upd.parts[k]? with
    | some p, some s =>
      if d.upd.state = .verifying ∧ 3 ≤ p.kind.toNat ∧ (d.headsFor p).contains n ∧ !s.heads.contains n then some (k, p)
      else none
    | _, _ => none
  | _, _ => none

/-- Sending a part to a head goes on at step `k`. -/
def Dev.stageOn (d : Dev) (n : LinkId) (k : Nat) : Dev :=
  match d.upd.manifest, d.stagingOn n with
  | some m, some (_, p) => d.stageStep n p (d.assembled m p) k
  | _, _ => d

/-- Parts are taken up in ascending order (R416): a device part is assembled and its hash asked for, a head part is sent to
its heads, one without heads is complete at once. When every part is complete the update is READY. -/
def Dev.takeParts (d : Dev) : Nat → Dev
  | 0 => d
  | fuel + 1 =>
    match d.upd.manifest, d.currentPart with
    | some m, some k =>
      match m.parts[k]? with
      | some p =>
        if p.kind.toNat ≤ 2 then
          (d.setPart k { state := 1, heads := [], failed := [] }).request (.image (Fin.ofNat 32 k)) .update
            [hashOp p.imageLen] false
        else
          let ns := d.headsFor p
          if ns.isEmpty then (d.setPart k { state := 3, heads := [], failed := [] }).takeParts fuel
          else (d.setPart k { state := 1, heads := [], failed := [] }).each ns fun d n => d.stageOn n 0
      | none => d
    | some _, none => (d.onUpd fun u => { u with state := .ready }).raise .upd 3
    | none, _ => d

/-- Every bit of the bitmap is 0 (R416). -/
def Dev.verifyParts (d : Dev) : Dev := (d.onUpd fun u => { u with state := .verifying }).takeParts 33

/-- The hash check of an assembled part ends (R416). -/
def Dev.partChecked (d : Dev) (k : Nat) : Dev :=
  match d.upd.manifest with
  | some m =>
    match m.parts[k]?, d.upd.parts[k]? with
    | some p, some s =>
      if d.upd.state = .verifying ∧ d.currentPart = some k ∧ p.kind.toNat ≤ 2 ∧ s.state = 1 ∧
          d.resultReady (.image (Fin.ofNat 32 k)) then
        let img := d.assembled m p
        let d1 := d.finish (.image (Fin.ofNat 32 k))
        if Config.sha384 img = p.hash then
          ((d1.onUpd fun u => { u with images := u.images ++ [(Fin.ofNat 32 k, img)] }).setPart k
            { state := 2, heads := [], failed := [] }).takeParts 33
        else d1.failPart k
      else d
    | _, _ => d
  | none => d

/-- A head reports its image VERIFIED or FAILED (R416). -/
def Dev.headStaged (d : Dev) (n : LinkId) (verified : Bool) : Dev :=
  match d.stagingOn n with
  | some (k, p) =>
    let s := d.upd.parts.getD k { state := 1, heads := [], failed := [] }
    if verified then
      let s1 := { s with heads := s.heads ++ [n] }
      let done := (d.headsFor p).all s1.heads.contains
      let d1 := (d.onUpd fun u => { u with staged := if u.staged.contains n then u.staged else u.staged ++ [n] }).setPart k
        { s1 with state := if done then 3 else 1 }
      if done then d1.takeParts 33 else d1
    else if s.failed.contains n then d.failPart k
    else (d.setPart k { s with failed := s.failed ++ [n] }).stageOn n 0
  | none => d

/-! ### Pieces (R413 to R415) -/

/-- PIECE_KEY of a manifest (R414). -/
def Dev.pieceKey (d : Dev) (serial : Word) : List Byte :=
  Config.child (tenantKey (d.tenants.get 0).root.seed 0) (bytesBE 2 0) (ascii "PIECE" ++ bytesBE 4 serial.toNat) 32

/-- Tag of a piece (R414). -/
def Dev.pieceTag (d : Dev) (serial : Word) (p : Piece) : List Byte :=
  (Config.hmac384 (d.pieceKey serial)
    (bytesBE 4 serial.toNat ++ bytesBE 4 p.index ++ bytesBE 2 p.data.length ++ p.data)).take 32

def Dev.hasUnit (d : Dev) (i : Nat) : Bool := d.upd.stored.any fun u => u.1 == i

/-- The indices of the units that a piece carries. -/
def Piece.units (p : Piece) : List Nat := (List.range (p.data.length / 256)).map fun i => p.index + i

/-- Result of a piece's check (R414). -/
def Dev.pieceResult (d : Dev) (host poisoned : Bool) (p : Piece) : Nat :=
  match d.upd.manifest with
  | none => 4
  | some m =>
    let len := p.data.length
    if d.upd.state ≠ .receiving then 4
    else if len % 256 ≠ 0 ∨ len = 0 ∨ 4096 < len ∨ m.units < p.index + len / 256 ∨ (host ∧ p.index % 16 ≠ 0) then 5
    else if poisoned then 6
    else if p.tag ≠ d.pieceTag m.serial p then 3
    else if p.units.all d.hasUnit then 2
    else 1

/-- A unit is written to staging, encrypted (R414). -/
def Dev.storeUnit (d : Dev) (serial : Word) (i : Nat) (bytes : List Byte) : Dev :=
  if d.hasUnit i then d
  else d.onUpd fun u => { u with
    stored := u.stored ++ [(i, Config.gcmSeal (stagingKey d.sec.vault.drk.key serial)
      (bytesBE 4 i ++ List.replicate 8 0) [] bytes)] }

/-- What the result of a piece's check does (R414, R416). -/
def Dev.applyPiece (d : Dev) (p : Piece) (code : Nat) : Dev :=
  match d.upd.manifest with
  | none => d
  | some m =>
    if code = 1 then
      let d1 := d.each (List.range p.units.length) fun d i => d.storeUnit m.serial (p.index + i) (slice p.data (256 * i) 256)
      let d2 := d1.setReg Reg.updHave (BitVec.ofNat 32 d1.upd.stored.length)
      if (List.range m.units).all d2.hasUnit then d2.verifyParts else d2
    else if code = 2 then d.countField Reg.updPieceCnt 0 16
    else if code = 3 then d.countField Reg.updPieceCnt 16 16
    else d

/-! ### Activation (R418 to R420) -/

/-- A staged head reads VERIFIED: its link is LIVE and its status as last read says so (R417). -/
def Dev.readsVerified (d : Dev) (n : LinkId) : Bool := d.live n && (d.link n).lnk.stg == 3

/-- Refusal code of an activation (R418), 0 if it is admitted. -/
def Dev.activateRefusal (d : Dev) : Nat :=
  match d.upd.manifest with
  | none => 1
  | some m =>
    if d.upd.state ≠ .ready then 1
    else if !d.pacer.calSet ∨ (m.notBefore ≠ 0 ∧ d.pacer.cal < m.notBefore) then 2
    else if d.mode ≠ .run ∧ d.mode ≠ .economy then 3
    else if !d.upd.staged.all d.readsVerified then 4
    else 0

/-- Step 1 of R420: plug-ins wait, every live session is stopped with reason 8, every group is released. -/
def Dev.activate (d : Dev) : Dev :=
  let d1 := d.onUpd fun u => { u with state := .activating, actRefuse := 0, step := 1, stepAt := d.now }
  let d2 := d1.each d1.outlets fun d n =>
    if d.sessionLive n then d.startStop n .modeChange (4 * n.1 + 2) else d
  d2.each d2.outlets Dev.releaseGroups

/-- AUTO: at the first lap boundary at or after READY and NOT_BEFORE, and at no other (R418). -/
def Dev.autoActivate (d : Dev) : Dev :=
  match d.upd.manifest with
  | some m =>
    if m.auto ∧ !d.upd.autoDone ∧ d.upd.state = .ready ∧ (m.notBefore = 0 ∨ d.pacer.calSet ∧ m.notBefore ≤ d.pacer.cal) then
      let d1 := d.onUpd fun u => { u with autoDone := true }
      if d1.activateRefusal = 0 then d1.activate else d1
    else d
  | none => d

/-- A command to the staging registers of every staged head (R417, R420, R422, R423). -/
def Dev.commandHeads (d : Dev) (ns : List LinkId) (cmd : Nat) : Dev :=
  d.each ns fun d n => d.queueReq n (.stageCtrl cmd) 0x40 (some (BitVec.ofNat 32 cmd))

/-- HEAD_STG_STATUS of a head is read (R417). -/
def Dev.readStaging (d : Dev) (n : LinkId) : Dev := d.queueReq n .stageRead 0x4C none

/-- Step 3 of R420: ARMING, and every staged head read; ARM is written to each that reads VERIFIED. -/
def Dev.armHeads (d : Dev) : Dev :=
  let d1 := d.onUpd fun u => { u with record := .arming, step := 3, stepAt := d.now, armed := [], armBad := false }
  d1.each d1.upd.staged Dev.readStaging

/-- ARM is written to a head. -/
def Dev.writeArm (d : Dev) (n : LinkId) (again : Bool) : Dev := d.queueReq n (.stageArm again) 0x40 (some 3)

/-- A head of step 3 is not VERIFIED, or writing to it failed twice. -/
def Dev.armFails (d : Dev) : Dev := d.onUpd fun u => { u with armBad := true }

/-- Step 3 of R420 is under way. -/
def Dev.arming (d : Dev) : Bool := d.upd.state == .activating && d.upd.step == 3

/-- HEAD_STG_STATUS has been read (R417, R420, R422): a head of step 3 is armed if it is VERIFIED. -/
def Dev.stagingRead (d : Dev) (n : LinkId) (data : Word) : Dev :=
  let st := fieldOf data 0 4
  let d1 := d.onLnk n fun l => { l with stg := st }
  if d1.arming ∧ d1.upd.staged.contains n then if st = 3 then d1.writeArm n false else d1.armFails else d1

/-- SAFE HALT before step 4 abandons the activation (R420): armed heads are disarmed, STATE is READY. -/
def Dev.abandonActivation (d : Dev) : Dev :=
  if d.upd.state = .activating ∧ d.upd.step < 4 then
    ((d.commandHeads d.upd.armed 4).onUpd fun u => { u with
      state := .ready, record := .none, step := 0, armed := [] }).raise .upd 4
  else d

/-- Frames stop on every link without loss being declared (R420 step 4). -/
def Dev.stopFrames (d : Dev) : Dev :=
  d.each allLinks fun d n => d.onLnk n fun l => l.stop .off none

/-- The internal reset of an activation or a retreat. It is no power-on reset, so the tick count goes on. -/
def Dev.internalReset (d : Dev) : Dev := (d.stopFrames).coreReset false

/-- A retreat (R422): journal and regions restored, and the device brought up on its previous images. -/
def Dev.retreat (d : Dev) (why : Nat) : Dev :=
  let d1 := d.onUpd fun u => { u with
    record := .retreating, state := .retreating, retreatWhy := why, step := 0
    fw := (u.journal.map fun j => j.1).getD u.fw, fwImage := (u.journal.map fun j => j.2.1).getD u.fwImage }
  let d2 := match d.upd.journal with
    | some j => d1.onCfg fun c => { c with region := j.2.2 }
    | none => d1
  d2.internalReset.armBoot

/-- Step 4 of R420: SWAPPING, the journal begun, frames stopped, and the reset into the loader. -/
def Dev.swap (d : Dev) : Dev :=
  let d1 := d.onUpd fun u => { u with record := .swapping, step := 5, stepAt := d.now, journal := some (u.fw, u.fwImage, d.cfg.region) }
  (d1.internalReset.armBoot).onPower fun p => { p with bringup := .idle }

/-- The image assembled for the device part of a kind. -/
def Dev.newImage (d : Dev) (m : Manifest) (kind : Nat) : Option (List Byte) :=
  ((List.range m.parts.length).find? fun k => ((m.parts[k]?).map fun p => p.kind.toNat == kind).getD false).bind fun k =>
    (d.upd.images.find? fun i => i.1.1 == k).map Prod.snd

/-- The loader has written the device parts (R421): the new images run in the bring-up that follows. -/
def Dev.swapped (d : Dev) : Dev :=
  match d.upd.manifest with
  | some m =>
    let d1 := d.onUpd fun u => { u with fw := d.newFw m, fwImage := (d.newImage m 1).getD u.fwImage, step := 6 }
    (d1.onCfg fun c => { c with region := (d.newImage m 2).getD c.region }).armBoot
  | none => d.armBoot

/-- A head reports RUNNING_NEW (R417). -/
def Dev.reportsNew (d : Dev) (n : LinkId) : Bool := (d.link n).lnk.stg == 6

/-- A head reports RUNNING_NEW with the version of its part (R423). -/
def Dev.runsNew (d : Dev) (m : Manifest) (n : LinkId) : Bool :=
  d.reportsNew n && ((d.partFor m n).map fun p => p.newVer == d.reg (Reg.lnkHeadFw n)).getD false

/-- The previous firmware ends a retreat (R422): RETREAT to the heads that run the new image, their links retrained,
staging and journal erased. -/
def Dev.endRetreat (d : Dev) : Dev :=
  ((d.commandHeads (d.upd.staged.filter d.reportsNew) 6).endUpdate d.upd.retreatWhy).raise .upd 5

/-- Verification that a restart interrupted goes on: parts under way are taken up again (R416). -/
def Dev.resumeParts (d : Dev) : Dev :=
  if d.upd.state = .verifying then
    (d.each (List.range d.upd.parts.length) fun d k =>
      if (d.upd.parts[k]?.map PartState.state) = some 1 then d.setPart k { state := 0, heads := [], failed := [] } else d).takeParts 33
  else d

/-- The window of R423 opens at the first entry to RUN after the swap, and the update goes on after any other start. -/
def Dev.updateAtRun (d : Dev) : Dev :=
  match d.upd.record with
  | .swapping => (d.onUpd fun u => { u with record := .confirming, state := .confirming, step := 7, windowOpen := true }).setReg
      Reg.updConfirmLeft 600
  | .retreating => d.endRetreat
  | _ => d.resumeParts

/-- One second of operating time of the window. -/
def Dev.countWindow (d : Dev) : Dev :=
  if d.upd.windowOpen then d.setReg Reg.updConfirmLeft (BitVec.ofNat 32 ((d.reg Reg.updConfirmLeft).toNat - 1)) else d

/-- The conditions of a confirmation (R423). -/
def Dev.confirmable (d : Dev) : Bool :=
  match d.upd.manifest with
  | some m => d.upd.state == .confirming && (d.mode == .run || d.mode == .economy) && d.usedLinks.all d.live &&
      d.upd.staged.all (d.runsNew m)
  | none => false

/-- The new images are confirmed (R423). -/
def Dev.confirm (d : Dev) : Dev :=
  let list := (d.upd.manifest.map Manifest.compat).getD []
  (((d.commandHeads d.upd.staged 5).onUpd fun u => { u with compat := some list }).endUpdate 1).raise .upd 6

end Sys2Proof.Machine
end

