-- ==== Sys2Proof/Machine/ModeOps.lean ====
section
/-! DEFINITION. Operations of the modes, the tempo governor, the PMBus island and the supply warning (R49 to R77). -/

namespace Sys2Proof.Machine

/-! ### Demand and tempo (R59 to R62) -/

/-- Minimum VCORE of a tempo in mV (R59). -/
def tempoMv (t : Nat) : Nat := [600, 620, 650, 680, 720, 760, 820, 900].getD t 900

/-- Channels that R60 runs at 32 kS/s: site heads, outlets with energy transfer or a session, and groups that are owned or on
their way to an outlet; none before bring-up has completed, nor in a SAFE HALT entered before that. -/
def Dev.fastWanted (d : Dev) (n : LinkId) : Bool :=
  let l := d.link n
  decide (d.power.bringup = .done) && !(decide (d.mode = .safeHalt) && d.power.haltEarly) &&
    match d.role n with
    | .site => true
    | .outlet => gateOpen .outlet l.hs || d.sessionLive n
    | .power => gateOpen .power l.hs || l.group.owner.isSome || l.group.assign.isSome || l.group.state == .inExchange
    | .unused => false

/-- Metrology units of the channels of a link at a rate (R59). -/
def Dev.unitsAt (d : Dev) (n : LinkId) (fast : Bool) : Nat := (d.role n).channels * (if fast then 4 else 1)

/-- Metrology units in demand (R59, R60). -/
def Dev.metroUnits (d : Dev) : Nat := (d.usedLinks.map fun n => d.unitsAt n ((d.link n).met.fast || d.fastWanted n)).sum

/-- Metrology units of the rates in force. -/
def Dev.metroRunning (d : Dev) : Nat := (d.usedLinks.map fun n => d.unitsAt n (d.link n).met.fast).sum

/-- Rates of the channels at a multiple of 125 ticks (R60, R147): lowered where 32 kS/s is no longer wanted, raised by link
ascending where it is, as far as the running tempo covers the units (R45, R61). -/
def Dev.setRates (d : Dev) : Dev :=
  let d1 := d.each d.usedLinks fun d n => if d.fastWanted n then d else d.onMet n fun m => { m with fast := false }
  d1.each (d1.usedLinks.filter d1.fastWanted) fun d n =>
    if (d.link n).met.fast then d
    else if d.metroRunning - d.unitsAt n false + d.unitsAt n true ≤ tempoUnits d.power.tempo then
      d.onMet n fun m => { m with fast := true }
    else d

/-- Active vehicle links in demand: in communication, or waiting for tempo (R59, R61). -/
def Dev.linksDemanded (d : Dev) : Nat :=
  (d.outlets.filter fun n => (d.link n).veh.active || (d.link n).veh.tempoWaiting).length

def Dev.coresDemanded (d : Dev) : Nat := min 16 (Config.coresFor d.linksDemanded)

/-- The three ceilings of a tempo cover the demand (R61). -/
def Dev.covers (d : Dev) (t : Nat) : Bool :=
  d.metroUnits ≤ tempoUnits t && d.linksDemanded ≤ tempoLinks t && d.coresDemanded ≤ tempoCores t

/-- The lowest tempo whose three ceilings cover the demand (R61). -/
def Dev.neededTempo (d : Dev) : Nat := ((List.range 8).find? d.covers).getD 7

/-- Lowest and highest tempo of a mode (R49, R61). -/
def Dev.tempoBounds (d : Dev) : Nat × Nat :=
  let floor := max 1 (d.field Reg.pwrTempoCfg 0 3)
  let cap := d.field Reg.pwrTempoCfg 4 3
  match d.mode with
  | .dormant | .waking => (0, 0)
  | .startingBlock => (1, 1)
  | .run | .maintenance => (floor, max floor cap)
  | .economy => (min 2 floor, min 2 (max 1 cap))
  | .safeHalt | .activation => (max 2 floor, max 2 cap)

def Dev.goalTempo (d : Dev) : Nat := max d.tempoBounds.1 (min d.tempoBounds.2 d.neededTempo)

/-- VOUT_COMMAND of a tempo: its minimum, or 20 mV more under VCORE_MARGIN, up to 0.90 V (R37, R62). -/
def Dev.voutFor (d : Dev) (t : Nat) : Nat := min 900 (tempoMv t + (if d.pacer.vcoreMargin then 20 else 0))

/-- Exponent of the linear VOUT mode: bits 4:0 of VOUT_MODE, signed (R63). -/
def linearExp (mode : Byte) : Int := (mode.truncate 5 : BitVec 5).toInt

/-- A linear-mode word stands for at least so many mV. -/
def voutAtLeast (mode : Byte) (w : BitVec 16) (mv : Nat) : Bool :=
  match linearExp mode with
  | .ofNat k => decide (mv ≤ w.toNat * 1000 * 2 ^ k)
  | .negSucc k => decide (mv * 2 ^ (k + 1) ≤ w.toNat * 1000)

/-- The mV that a linear-mode word stands for. Which way a fraction is rounded is left open. -/
def linearMv (mode : Byte) (w : BitVec 16) : Nat :=
  match linearExp mode with
  | .ofNat k => w.toNat * 1000 * 2 ^ k
  | .negSucc k => (w.toNat * 1000 + (if Config.linearUp w then 2 ^ (k + 1) - 1 else 0)) / 2 ^ (k + 1)

/-- The least linear-mode word that stands for at least so many mV. -/
def linearWord (mode : Byte) (mv : Nat) : BitVec 16 :=
  match linearExp mode with
  | .ofNat k => BitVec.ofNat 16 ((mv + (1000 * 2 ^ k - 1)) / (1000 * 2 ^ k))
  | .negSucc k => BitVec.ofNat 16 ((mv * 2 ^ (k + 1) + 999) / 1000)

/-- PMBus command code (R63). -/
def PmbOp.code : PmbOp → Byte
  | .operationOn | .operationOff => 0x01
  | .clearFaults => 0x03
  | .voutMode => 0x20
  | .voutCommand _ => 0x21
  | .statusWord => 0x79
  | .readVout => 0x8B

/-- What the device puts on the PMBus in a transaction: the regulator's address, the command code, the data of a write and the
packet error code; a read repeats the address with its direction bit and takes the reply (R63). -/
def Dev.pmbWire (d : Dev) (op : PmbOp) : List Byte :=
  let addr := BitVec.ofNat 8 (2 * d.field Reg.cfgPmbAddr 0 7)
  let head := [addr, op.code]
  let pec (bs : List Byte) := bs ++ [Config.pmbPec bs]
  match op with
  | .operationOn => pec (head ++ [Config.operationByte true])
  | .operationOff => pec (head ++ [Config.operationByte false])
  | .clearFaults => pec head
  | .voutCommand mv => pec (head ++ (bytesBE 2 (linearWord d.power.voutMode mv).toNat).reverse)
  | .voutMode | .statusWord | .readVout => head ++ [addr ||| 1]

/-- A PMBus transaction is sent, or waits for the running one (R63). -/
def Dev.sendPmb (d : Dev) (op : PmbOp) : Dev :=
  if d.power.pmbOp.isNone then d.onPower fun p => { p with pmbOp := some op, pmbOpAt := d.now, pmbFails := 0 }
  else d.onPower fun p => { p with pmbQueue := p.pmbQueue ++ [op] }

/-- A voltage is commanded: none while VCORE is frozen (R64), none below the running tempo's minimum (R62). -/
def Dev.sendVout (d : Dev) (mv : Nat) : Dev :=
  if d.power.pmbLost then d
  else if mv < tempoMv d.power.tempo then d.raise .pwr 2
  else
    ((d.sendPmb (.voutCommand mv)).onPower fun p => { p with voutAt := some d.now, pollAt := d.now }).setReg Reg.pwrVcoreReq
      (BitVec.ofNat 32 mv)

/-- The governor at a tick boundary (R61, R62): a confirmed rise takes effect, the ceiling of the mode prevails once the demand
fits it, a new rise is begun, and the time for which each level has covered the demand is kept. -/
def Dev.govern (d : Dev) : Dev :=
  let d1 := if d.power.riseReady then
      d.onPower fun p => { p with tempo := p.target, riseReady := false, voutAt := none }
    else d
  let hi := d1.tempoBounds.2
  let d2 := if hi < d1.power.tempo ∧ d1.covers hi then
      let e := d1.onPower fun p => { p with tempo := hi, target := hi, riseReady := false }
      e.sendVout (e.voutFor hi)
    else d1
  let goal := d2.goalTempo
  let d3 := d2.onPower fun p => { p with
    covers := Vector.ofFn fun t => sinceWhen (p.covers.get t) d.now (d2.covers t.1)
    target := if goal ≤ p.tempo then p.tempo else p.target }
  if goal ≤ d3.power.tempo ∨ goal = d3.power.target ∨ d3.power.pmbLost then d3
  else (d3.onPower fun p => { p with target := goal }).sendVout (d3.voutFor goal)

/-! ### Overrun (R37) -/

/-- Steps 4 and 5 of R37, and SAFE HALT at the second overrun. -/
def Dev.overrun (d : Dev) (arg : Word) : Dev :=
  let d1 := (d.raiseAlways .pac 4 arg).count Reg.pacOverrunCnt
  if d.pacer.vcoreMargin then d1.deviceCause 0x32 0
  else
    let d2 := d1.onPacer fun p => { p with vcoreMargin := true }
    d2.sendVout (d2.voutFor d2.power.tempo)

/-! ### Supply warning (R70 to R74, R243) -/

/-- Exchanges that have not reached step 7 hold their step, and their bounds pause; the display drive stops. -/
def Dev.braceUp (d : Dev) : Dev :=
  let d1 := d.onAlloc fun a => { a with
    slots := a.slots.map fun s => s.map fun e => if e.step < 7 then { e with paused := true } else e }
  (d1.onPower fun p => { p with brace := true, warnAt := some d.now }).onDisp fun x =>
    if x.state = .off then x else { x with state := .stopping, stopAt := d.now, pass := [], passDue := false }

/-- Recovery (R73, R243): brace lifted, exchanges resume at step 5 with fresh bounds, the lap flagged. A step of an activation
has paused meanwhile (R420); bistable glass rewrites its dirty commons (R464). -/
def Dev.unbrace (d : Dev) : Dev :=
  let d0 := d.each (d.exchanges.filter fun e => e.paused && e.segSent) fun d e => d.dropSeg e.group
  let d1 := d0.onAlloc fun a => { a with
    slots := a.slots.map fun s => s.map fun e =>
      if e.paused then
        { e with paused := false, step := min e.step 5, stepAt := d.now, segSent := false, segReady := false
                 condSince := none }
      else e }
  let d1 := (d1.raiseIf (d.bit Reg.lioDispCfg 31 && d.reg Reg.lioDirty != 0) .lio 3).onUpd fun u => { u with
    stepAt := if u.state = .activating ∧ u.step ≤ 3 then u.stepAt + (d.now - d.power.warnAt.getD d.now) else u.stepAt }
  (((d1.onPower fun p => { p with brace := false, warnAt := none, vaonLow := false }).onPacer
    fun p => { p with lapRecovered := p.lapRecovered || p.lapRunning }).raise .pwr 4).each d1.outlets fun d n =>
      match (d.link n).veh.waitAuth with
      | some c => if (d.link n).veh.state = .authorizing then d.startSession n c else d
      | none => d

/-! ### Modes (R51 to R55) -/

/-- A mode request is refused (R53, R54, R78). -/
def Dev.refuseMode (d : Dev) (why : ModeRefusal) : Dev :=
  (d.onPower fun p => { p with refuse := why }).raise .pwr 6

def ModeTrigger.row : ModeTrigger → Nat
  | .toEconomy _ => 0
  | .toRunFromEconomy _ => 1
  | .toMaintenance => 2
  | .toRunFromMaintenance _ => 3
  | .toActivation => 4
  | .toDormant true => 5
  | .toDormant false => 6

/-- The trigger came from the host. -/
def ModeTrigger.byHost : ModeTrigger → Bool
  | .toEconomy h | .toRunFromEconomy h | .toRunFromMaintenance h | .toDormant h => h
  | .toMaintenance => true
  | .toActivation => false

/-- The trigger of the lowest row of R51. -/
def lowestRow (ts : List ModeTrigger) : Option ModeTrigger :=
  ts.foldl (fun best t => match best with
    | some b => if b.row ≤ t.row then some t else some b
    | none => some t) none

/-- Running laps of a device that enters DORMANT close with DORMANT_ENTRY (R55). A lap that a boundary of this tick closed is
that running lap: its records wait for their issue, and take the flag. -/
def Dev.closeForDormant (d : Dev) : Dev :=
  if !d.pacer.lapRunning then d
  else if d.pacer.lapStart = d.now then (d.flagClosedLap 12).onPacer fun p => { p with lapRunning := false }
  else (d.onPacer fun p => { p with lapDormant := true }).closeLap false

/-- DORMANT entry begins (R51, R55, R75, R244): laps closed, exchanges aborted, the ownership map and the token account empty,
the display drive stopped, OPERATION off sent. -/
def Dev.enterDormant (d : Dev) : Dev :=
  let d1 := ((d.closeForDormant.abortAll 10).onDisp fun x =>
    if x.state = .off then x else { x with state := .stopping, stopAt := d.now, pass := [], passDue := false }).sendPmb .operationOff
  ((d1.onPower fun p => { p with
    mode := .dormant, haltLatch := p.haltLatch || decide (d.mode = .safeHalt), entering := true
    caught := none, waking := none, vcoreOff := true, pending := none }).onPacer fun p => { p with
      dormantTick := d.now, dormantPeriods := 0 }).freeAll.each d.outlets fun d n =>
    d.onOut n fun o => { o with target := 0, grant := 0, pending := 0 }

/-- SAFE HALT is entered (R49, R51, R244, R420): contactors open, activation abandoned, last-word entry. What was metered before
is registered; from now on the legal registers are not advanced. -/
def Dev.enterSafeHalt (d : Dev) : Dev :=
  let cause := (d.prot.siteLatch.map fun l => l.primary.code).getD 0
  let d1 := if d.mode = .safeHalt then d else d.settleSegments.lastWord 4 cause
  let early := if d.mode = .safeHalt then d.power.haltEarly else decide (d.power.bringup ≠ .done)
  (d1.onPower fun p => { p with mode := .safeHalt, pending := none, trigs := [], haltEarly := early }).abandonActivation.haltAllocation

/-- SAFE HALT is left (R51, R52). -/
def Dev.leaveSafeHalt (d : Dev) : Dev :=
  let d1 := d.onPower fun p => { p with
    haltLatch := false, mode := if p.bringup = .done then .run else .startingBlock }
  if d1.mode = .run then
    let d2 := d1.freeAll.updateAtRun
    if d2.pacer.lapRunning then d2 else d2.beginLap
  else d1

/-- ACTIVATION is entered (R49, R185, R420 step 2): the lap closes, unless a boundary of this tick has closed it, every hold
ends, outlets are held. -/
def Dev.enterActivation (d : Dev) : Dev :=
  let d1 := if !d.pacer.lapRunning then d
    else if d.pacer.lapStart = d.now then d.onPacer fun p => { p with lapRunning := false }
    else d.closeLap true
  (d1.endHolds.onPower fun p => { p with mode := .activation, pending := none }).haltAllocation

/-- MAINTENANCE is entered: legal registers are frozen, the test energies cleared (R49, R160, R182). -/
def Dev.enterMaintenance (d : Dev) : Dev :=
  ((d.onPower fun p => { p with mode := .maintenance, pending := none }).onBilling fun b => { b with frozen := true }).each
    d.usedLinks fun d n => d.onMet n fun m => { m with testUj := 0, testRem := 0 }

/-- MAINTENANCE is left. -/
def Dev.leaveMaintenance (d : Dev) : Dev :=
  (d.onPower fun p => { p with mode := .run, pending := none }).onBilling fun b => { b with frozen := false }

/-- Why a request for DORMANT is refused (R51, R423), if it is. -/
def Dev.dormantRefusal (d : Dev) : ModeRefusal :=
  if d.mode ≠ .run ∧ d.mode ≠ .economy then .notRequestable
  else if d.liveSessions ≠ 0 then .liveSession
  else if !d.allOpen then .contactorClosed
  else if d.upd.state = .confirming then .updateInProgress
  else .none

/-- Why a request for MAINTENANCE is refused (R51), if it is. -/
def Dev.maintenanceRefusal (d : Dev) : ModeRefusal :=
  if d.mode ≠ .run ∧ d.mode ≠ .economy then .notRequestable
  else if !d.bill.sealOpen then .sealClosed
  else if d.liveSessions ≠ 0 then .liveSession
  else .none

/-- The trigger applied in its tick: a transition at the next tick boundary takes place, one at a lap or planning lap
boundary waits for it (R51). -/
def Dev.applyTrigger (d : Dev) (t : ModeTrigger) : Dev :=
  match t with
  | .toRunFromEconomy _ =>
    if d.mode = .economy then d.onPower fun p => { p with mode := .run, pending := none, ecoSince := none } else d
  | .toActivation => d.enterActivation
  | .toDormant false => (d.onPower fun p => { p with supplyDormant := true }).enterDormant
  | .toDormant true => if d.dormantRefusal = .none then d.enterDormant else d.refuseMode d.dormantRefusal
  | _ => d.onPower fun p => { p with pending := some t }

/-- A transition that waited for a boundary takes place at it (R51). -/
def Dev.boundaryTransition (d : Dev) : Dev :=
  let lap := d.pacer.lastBoundary == some d.now
  match d.power.pending with
  | some (.toEconomy _) =>
    if d.now % 100000 = 0 ∧ d.mode = .run then d.onPower fun p => { p with mode := .economy, pending := none } else d
  | some .toMaintenance =>
    if !lap then d
    else if d.maintenanceRefusal = .none then d.enterMaintenance
    else (d.onPower fun p => { p with pending := none }).refuseMode d.maintenanceRefusal
  | some (.toRunFromMaintenance _) => if lap ∧ d.mode = .maintenance then d.leaveMaintenance else d
  | _ => d

/-- The triggers of the open tick resolved at its closure (R54). SAFE HALT wins; else the lower row; every discarded host
request sets MODE_REFUSED. -/
def Dev.resolveModes (d : Dev) : Dev :=
  let p := d.power
  let ts := p.trigs
  let refused := fun (d : Dev) (gone : List ModeTrigger) =>
    if gone.any ModeTrigger.byHost then d.refuseMode .coincidence else d
  let d0 := d.onPower fun p => { p with trigs := [], haltNow := false, exitHalt := false }
  if p.haltNow ∧ d.mode ≠ .dormant then (refused d0 ts).enterSafeHalt
  else
    let d1 := d0.boundaryTransition
    let win := lowestRow ts
    let d2 := match win with
      | some t => (refused d1 (ts.erase t)).applyTrigger t
      | none => d1
    if p.exitHalt ∧ d2.mode = .safeHalt ∧ !p.haltForGood then d2.leaveSafeHalt else d2

/-- A 25th session, or a demand above the ceilings of T2, ends ECONOMY at the next tick boundary (R51). -/
def Dev.economyExit (d : Dev) : Dev :=
  if d.mode = .economy ∧ (24 < d.liveSessions ∨ 2 < d.neededTempo) then d.trigger (.toRunFromEconomy false) else d

/-- How long at most 24 outlets have carried sessions in RUN (R51). -/
def Dev.countEco (d : Dev) : Dev :=
  let few := decide (d.mode = .run) && decide (d.liveSessions ≤ 24)
  d.onPower fun p => { p with ecoSince := sinceWhen p.ecoSince d.now few }

/-- A mode request (R53): admitted as a trigger of the tick, or refused. -/
def Dev.requestMode (d : Dev) (why : ModeRefusal) (t : ModeTrigger) : Dev :=
  if why = .none then d.trigger t else d.refuseMode why

/-- A mode request of a code by the host (R53). -/
def Dev.modeRequest (d : Dev) (code : Nat) : Dev :=
  let barred : ModeRefusal := .notRequestable
  match code with
  | 0 => d.requestMode d.dormantRefusal (.toDormant true)
  | 3 =>
    if d.mode = .economy then d.requestMode .none (.toRunFromEconomy true)
    else if d.mode = .maintenance then d.requestMode .none (.toRunFromMaintenance true)
    else d.refuseMode barred
  | 4 => d.requestMode (if d.mode = .run then .none else barred) (.toEconomy true)
  | 5 => d.requestMode d.maintenanceRefusal .toMaintenance
  | 6 => d.deviceCause 0x33 0 [] 0 true
  | _ => d.refuseMode barred

/-! ### Bring-up steps 4 and 8 (R56) -/

/-- A bring-up fails at a step: the device stays in STARTING BLOCK (R56). -/
def Dev.bringupFails (d : Dev) (f : BringupFault) (word : Option Nat) : Dev :=
  let d1 := (d.onPower fun p => { p with bringupFault := some f }).raise .pwr 7
  match word with
  | some a => d1.lastWord 8 a
  | none => d1

/-- Held events are recorded in step 4, each with its own tick (R439). -/
def Dev.recordHeld (d : Dev) : Dev :=
  let r := d.recorder
  let d1 := d.onRec fun r => { r with
    events := r.held.take 15 ++ (r.held.drop 15).map (fun e => { e with lost := r.heldLost }) ++ r.events, held := [], heldLost := 0 }
  if r.heldLost = 0 then d1 else d1.count Reg.evrDropCnt r.heldLost

/-- A wake-bus frame, most significant bit first: address, command, and the bit that makes the parity of the twelve odd
(R66). -/
def wakeBits (addr : Byte) (cmd : BitVec 4) : BitVec 13 :=
  let w : BitVec 12 := addr ++ cmd
  w ++ BitVec.ofBool (((List.range 12).filter w.getLsbD).length % 2 == 0)

/-- BASE at entry to STARTING BLOCK (R469): as stored, else BASE_INIT of the image. -/
def Dev.takeBases (d : Dev) : Dev :=
  d.each [0, 1] fun d k => d.onKey k fun x => { x with
    base := x.stored.getD (BitVec.ofNat 16 (d.field Reg.lioKeyInit (16 * k.1) 16)) }

/-- Step 4: the image read and verified, the trip map and the antivalent settings written, STARTING BLOCK (R56, R57). A reset
input found high counts as jammed (R310). -/
def Dev.startingBlock (d : Dev) : Dev :=
  let woke := d.power.waking.isSome
  let d1 := (d.onPower fun p => { p with
    mode := if p.mode = .safeHalt then .safeHalt else .startingBlock, bringup := .starting
    tempo := max 1 p.tempo, target := max 1 p.target
    waking := none, wakeSent := if woke then some (wakeBits 0xFF 1) else p.wakeSent }).onProtection fun p => { p with
      resets := p.resets.map fun r => { r with jammed := r.jammed || r.high } }
  let d2 := d1.loadImage.takeBases
  let d3 := if d2.cfg.valid then
      (d2.onProtection fun p => { p with bootMap := false }).openConnections.tpoCheck
    else (d2.bringupFails .cfgInvalid (some 1)).resumeParts
  ((d3.recordHeld.sendPmb .voutMode).onDisp fun x => { x with state := .legend, frameAt := d.now }).onScroll fun x =>
    if d3.bistable then x else legendContent x

/-- The re-masking walk of step 7 (R345). -/
def Dev.remask (d : Dev) : Dev :=
  if d.sec.rng = .failed then (d.onSec fun s => { s with remaskSkipped := true }).raise .sec 3
  else
    (d.onSec fun s => { s with vault := { s.vault with seedOld := d.random 32, seedNew := [], walk := 0 }
                               remaskSkipped := false }).randomDrawn

/-- Laps and sessions that a loss of supply left open close in step 8 at the last committed totals, with the tick and the
calendar of the last commit (R183). -/
def Dev.closeInterrupted (d : Dev) : Dev :=
  let d1 := d.onPacer fun p => { p with
    tick := d.power.commitAt, cal := d.power.commitCal.getD 0, calSet := d.power.commitCal.isSome }
  let d2 := d1.each allLinks fun d n => if (d.link n).bill.session.isSome then d.closeSession n .powerLoss else d
  let d3 := if d2.pacer.lapRunning then d2.closeLap false else d2
  (d3.onPower fun p => { p with commitAt := d.power.commitAt, commitCal := d.power.commitCal }).onPacer fun p => { p with
    tick := d.pacer.tick, cal := d.pacer.cal, calSet := d.pacer.calSet }

/-- Heads outside the running compatibility list are held (R425). -/
def Dev.holdVersions (d : Dev) : Dev :=
  d.each d.usedLinks fun d n =>
    if d.trained n ∧ !d.versionOk (d.reg (Reg.lnkHeadId n)) (d.reg (Reg.lnkHeadFw n)) then
      (d.holdLink n .versionMismatch).raise (.lnk n) 7
    else d

/-- The end of steps 7 and 8: RUN, or SAFE HALT under the halt latch (R52, R56). -/
def Dev.enterRun (d : Dev) : Dev :=
  let d1 := d.remask
  let d2 := d1.closeInterrupted.startSigning
  let d3 := d2.onPower fun p => { p with
    bringup := .done, ecoSince := none
    mode := if p.mode = .safeHalt ∨ p.haltLatch then .safeHalt else .run
    haltEarly := decide (p.mode = .safeHalt) }
  let d4 := (if d3.mode = .run then
      d3.setReg Reg.pwrBringupTime (BitVec.ofNat 32 ((d.now - d.power.bringupAt + d.power.bringupLead) / 1000))
    else d3).holdVersions
  let d5 := d4.setBudget
  let d6 := if d5.mode = .run then d5.freeAll.updateAtRun else d5
  if d6.mode = .run then d6.beginLap else d6

end Sys2Proof.Machine
end

