-- ==== Sys2Proof/Machine/AuthOps.lean ====
section
/-! DEFINITION. The lap boundary and the time token, and the authorization decision with what follows from it (R26 to R29,
R184, R323 to R327). -/

namespace Sys2Proof.Machine

/-! ### Laps and time tokens -/

/-- A demand interval that holds a time step is no candidate (R200). -/
def Dev.stepDemand (d : Dev) : Dev :=
  d.each d.usedLinks fun d n => d.onBill n fun b => { b with
    fixed := { b.fixed with good := false }, sliding := { b.sliding with good := false } }

/-- The calendar set to a time in µs at the open tick. -/
def Pacer.setTime (p : Pacer) (us now : Nat) : Pacer :=
  { p with calSet := true, cal := us / 1000000, secNext := now + 1000000 - us % 1000000
           leapHeld := false }

/-- The last calendar second of the day that holds a second. -/
def dayEnd (cal : Nat) : Nat := cal / 86400 * 86400 + 86399

/-- A time token takes effect (R28, R29): its time in µs at the open tick, and its leap second. A step in the tick of a lap
boundary ends no second lap: the lap that closes there is flagged (R185). The terms that hang on the calendar follow it
(R224). -/
def Dev.applyTime (d0 : Dev) (us leap : Nat) : Dev :=
  let now := d0.now
  let d := d0.lapFirst
  let p := d.pacer.atTick now
  let was : Int := p.cal * 1000000 + p.inSecond now
  let diff := ((us : Int) - was).natAbs
  let set := fun (q : Pacer) => { q.setTime us now with
    leap := if leap = 1 then some (dayEnd (us / 1000000), true)
      else if leap = 2 then some (dayEnd (us / 1000000), false) else none }
  if !d.pacer.calSet then (d.onPacer fun q => set q).setBudget
  else if diff ≤ 100000 then
    (d.onPacer fun q => { set q with lapAdjusted := q.lapRunning }).raise .pac 2
  else
    let d1 := (d.raise .pac 3).stepDemand
    if d.pacer.lapRunning ∧ d.pacer.lapStart < now then
      let d2 := ((d1.onPacer fun q => { q.atTick now with lapStep := true, lapEndAt := some now }).closeLap false).onPacer set
      (d2.periodStep.mirror).beginLap
    else (if d.pacer.lapRunning then d1.flagClosedLap 10 else d1).onPacer set

/-! ### The decision (R323 to R326) -/

/-- A credential as it reaches the decision: its path, the tenant it names, if any, whether it needs random numbers and verified, its
identifier, the last calendar second at which it holds, and for a grant whether it names this device and outlet, and its
serial. -/
structure Credential where
  path     : AuthPath
  tenant   : Option Nat
  needsRng : Bool
  verified : Bool
  ident    : List Byte
  expiry   : Option Nat
  onTarget : Bool
  serial   : Word
  /-- It rests on a late result (R34). -/
  late     : Bool
  deriving DecidableEq, Repr

/-- Authorization is served in RUN and ECONOMY (R325). -/
def Dev.authServed (d : Dev) : Bool := d.mode == .run || d.mode == .economy

/-- Configuration checks of R325, which come before cryptographic work: a refusal code, or none. Paths 3 and 4 need the
tenant's root. -/
def Dev.configRefusal (d : Dev) (path : AuthPath) (tenant : Nat) : Option Nat :=
  if !d.authServed then some 16
  else match tenantOfNat tenant with
    | none => some 3
    | some t =>
      if !d.bit (Reg.tagTCfg t) 31 then some 3
      else if !d.bit (Reg.tagTCfg t) (23 + path.code) then some 4
      else if (path = .contract ∨ path = .remote) ∧ (d.tenant t).root.alg = 0 then some 17
      else none

/-- A session is live on an outlet, or a credential waits there to start one. -/
def Dev.outletTaken (d : Dev) (n : LinkId) : Bool := d.sessionLive n || (d.link n).veh.waitAuth.isSome

/-- The rest of the checks of R325, from the verification on, for a tenant that takes the path. Block list, outlets and credit
are those that the last closure committed (R323). -/
def Dev.credentialCode (d was : Dev) (n : LinkId) (t : TenantId) (c : Credential) : Nat :=
  let cal := (d.pacer.atTick d.now).cal
  if c.needsRng ∧ d.sec.rng = .failed then 14
  else if !c.verified then 2
  else if c.path = .remote ∧ !c.onTarget then 11
  else if c.path = .remote ∧ c.serial.toNat ≤ (d.reg (Reg.tagTRemoteSerial t)).toNat then 10
  else if c.expiry.isSome ∧ !d.pacer.calSet then 9
  else if c.expiry.isSome ∧ c.expiry.getD 0 < cal then 6
  else if (was.tenant t).blocked.contains (hash16 c.ident) then 7
  else if !was.bit (Reg.tagTOutlets t (n.1 / 32)) (n.1 % 32) then 5
  else if d.outletTaken n then 12
  else if (was.prepaid t ∧ was.creditOut t) ∨ (was.tenant t).poisoned then 8
  else 1

/-- The code of R325 and R326 for a credential on an outlet. The tenant's settings are those that the last closure committed
(R323). A credential that names no tenant is refused by the mode, or because nothing verifies it. -/
def Dev.authCode (d was : Dev) (n : LinkId) (c : Credential) : Nat :=
  match d.authServed, c.tenant with
  | false, _ => 16
  | true, none => 2
  | true, some k =>
    match was.configRefusal c.path k, tenantOfNat k with
    | some code, _ => code
    | none, some t => d.credentialCode was n t c
    | none, none => 3

/-- A matrix contactor is welded to an outlet (R305). -/
def Dev.weldedTo (d : Dev) (o : LinkId) : Bool :=
  d.powers.any fun g => (List.range 16).any fun k => (d.link g).con.weld.getLsbD k && d.dest g k == some o

/-- No session starts on an outlet with a broken sense wire, a proximity fault, a welded contactor or a latched trip (R168,
R256, R283, R305). -/
def Dev.sessionBarred (d : Dev) (n : LinkId) : Bool :=
  let l := d.link n
  l.met.senseOpen || l.veh.ppFault || l.con.weld != 0 || d.weldedTo n || l.prot.latch.isSome

/-- An accepted credential is applied to its outlet (R266 to R268, R327): in AUTHORIZING the session starts, or waits for the
end of a supply warning; in every other state, and while no session may start, the credential is held. -/
def Dev.applyCredential (d : Dev) (n : LinkId) (h : HeldCredential) : Dev :=
  if (d.link n).veh.state = .authorizing ∧ !d.sessionBarred n then
    if d.warned then d.onVeh n fun v => { v with waitAuth := some h, wait := .warning }
    else d.startSession n h
  else d.onVeh n fun v => { v with held := some h }

/-- A refusal reaches an outlet in AUTHORIZING (R265, R326): FAILED, and ENDED without a session. -/
def Dev.refuseOutlet (d : Dev) (n : LinkId) (code : Nat) : Dev :=
  if (d.link n).veh.state = .authorizing then
    ((d.raise (.veh n) 5 (BitVec.ofNat 32 code)).answer n .failed).endAttempt n (if code = 8 then 6 else 4)
  else d

/-- The argument of an authorization event: code, path and tenant. -/
def decisionArg (path tenant code : Nat) : Word := packWord [(0, 8, code), (8, 8, path), (16, 10, tenant)]

/-- A decision counted for the device and for the tenant (R340, R342). -/
def Dev.countDecision (d : Dev) (path tenant code : Nat) : Dev :=
  let t := tenantOfNat tenant
  let arg := decisionArg path tenant code
  let d1 := if code = 1 then (d.raise .tag 0 arg t).count Reg.tagAuthCnt
    else ((d.raise .tag 1 arg t).raiseIf (code == 14) .tag 3 arg).count Reg.tagRefuseCnt
  match t with
  | some t => if code = 1 then d1.count (Reg.tagTAuthCnt t) else d1.count (Reg.tagTRefuseCnt t)
  | none => d1

/-- The result of a decision shown at the outlet and counted (R326, R340 to R342). -/
def Dev.showDecision (d : Dev) (n : LinkId) (path tenant code : Nat) : Dev :=
  let d1 := d.onTag n fun x => { x with path := path, code := code, tenant := BitVec.ofNat 10 tenant }
  (d1.raise (.tagL n) (if code = 1 then 0 else 1) (decisionArg path tenant code) (tenantOfNat tenant)).countDecision path
    tenant code

/-- An authorization decision on an outlet (R325). A contract certificate belongs to the vehicle that presented it: it is not held for
another plug-in (R261, R267). -/
def Dev.judgeCredential (d was : Dev) (n : LinkId) (c : Credential) : Dev :=
  let code := d.authCode was n c
  let d1 := d.showDecision n c.path.code (c.tenant.getD 0) code
  match code, c.tenant.bind tenantOfNat with
  | 1, some t =>
    let d2 := if c.path = .remote then d1.setReg (Reg.tagTRemoteSerial t) c.serial else d1
    if c.path = .contract ∧ (d2.link n).veh.state ≠ .authorizing then d2 else d2.applyCredential n
      { tenant := t, path := c.path, hash := hash16 c.ident, since := d.now, late := c.late }
  | _, _ => d1.refuseOutlet n code

/-- A remote start grant for no outlet of this device: it is decided and counted, and no outlet shows it (R325). -/
def Dev.judgeAstray (d was : Dev) (c : Credential) : Dev :=
  let code := d.authCode was 0 c
  d.countDecision c.path.code (c.tenant.getD 0) code

end Sys2Proof.Machine
end

