-- ==== Sys2Proof/Machine/SecOps.lean ====
section
/-! DEFINITION. Operations of the security block: signed objects and their consumers, root replacement, enrolment,
attestation, the SECC chain and the random number generator (R350 to R371). -/

namespace Sys2Proof.Machine

/-! ### Objects (R356 to R358) -/

def objKind (b : List Byte) : Nat := fieldBE b 0 1
def objSigner (b : List Byte) : Nat := fieldBE b 2 2
def objAlg (b : List Byte) : Nat := fieldBE b 4 1
def objSerial (b : List Byte) : Word := BitVec.ofNat 32 (fieldBE b 8 4)
def objDevice (b : List Byte) : Nat := fieldBE b 12 8
def objNotBefore (b : List Byte) : Nat := fieldBE b 20 8
def objNotAfter (b : List Byte) : Nat := fieldBE b 28 8
def objLen (b : List Byte) : Nat := fieldBE b 36 2
def objBody (b : List Byte) : List Byte := slice b 40 (objLen b)
def objSig (b : List Byte) : List Byte := b.drop (40 + objLen b)

/-- Kinds that an object for every device may have (R357). -/
def kindForAll (k : Nat) : Bool := [3, 4, 5, 7].contains k

/-- Bytes of a kind's body; an update manifest has its own (R357, R410). -/
def bodyLenOk (k len : Nat) : Bool :=
  match k with
  | 1 => len == 8
  | 2 | 4 => len == 4
  | 3 => 4 ≤ len && len ≤ 132 && (len - 4) % 16 == 0
  | 5 => len == 12
  | 6 => len == 304
  | _ => len ≤ 3924

/-- Times that a kind requires or forbids (R357, R410). -/
def timesOk (b : List Byte) : Bool :=
  match objKind b with
  | 4 => objNotBefore b != 0 && objNotAfter b != 0
  | 5 => objNotBefore b == 0 && objNotAfter b == 0
  | 7 => objNotAfter b != 0
  | _ => true

/-- The first root of tenant 0 (R355). -/
def Dev.firstInstall (d : Dev) (b : List Byte) : Bool :=
  objKind b == 6 && objSigner b == 0 && fieldBE (objBody b) 0 2 == 0 && (d.tenants.get 0).root.alg == 0 &&
    fieldBE (objBody b) 2 1 != 0 && d.mode == .maintenance && d.bill.sealOpen

def Dev.rootOf (d : Dev) (s : Nat) : RootSlot := ((tenantOfNat s).map fun t => (d.tenant t).root).getD RootSlot.empty

/-- The signer may sign an object of this kind (R355, R357). -/
def signerPermitted (s : Nat) (b : List Byte) : Bool :=
  match objKind b with
  | 1 | 2 | 3 => true
  | 4 | 5 | 7 => s == 0
  | _ =>
    let t := fieldBE (objBody b) 0 2
    if t = 0 then s == 0 && fieldBE (objBody b) 2 1 != 0 else t < 1024 && (s == 0 || s == t)

/-- Public key of the body of a ROOT_INSTALL. -/
def newRootPub (b : List Byte) : List Byte := slice (objBody b) 4 68

/-- The checks of R358 that cost no engine time; 0 if they pass. -/
def Dev.objectPre (d : Dev) (b : List Byte) (poisoned : Bool) : Nat :=
  let s := objSigner b
  let first := d.firstInstall b
  if b.length < 40 ∨ fieldBE b 1 1 ≠ 1 then 2
  else if objKind b < 1 ∨ 7 < objKind b then 3
  else if b.length ≠ 40 + objLen b + sigLen (objAlg b) ∨ !bodyLenOk (objKind b) (objLen b) ∨ !timesOk b then 2
  else if objDevice b ≠ Config.serial.toNat ∧ !(objDevice b = 0 ∧ kindForAll (objKind b)) then 6
  else if 1023 < s then 4
  else if (d.rootOf s).alg = 0 ∧ !first then 4
  else if !first ∧ !signerPermitted s b then 7
  else if objAlg b ≠ (if first then fieldBE (objBody b) 2 1 else (d.rootOf s).alg.toNat) then 5
  else if poisoned then 13
  else 0

/-- Last serial of a kind and signer (R357). -/
def Dev.lastSerial (d : Dev) (kind s : Nat) : Nat :=
  if kind = 7 then (d.reg Reg.updManLast).toNat
  else ((d.sec.serials.find? fun e => e.1 == (kind, s)).map fun e => e.2.toNat).getD 0

/-- A serial was applied before: a kind with no serial seen yet takes every serial (R358). -/
def Dev.replayed (d : Dev) (kind s : Nat) (serial : Word) : Bool :=
  kind != 1 && kind != 2 &&
    ((kind == 7 || d.sec.serials.any fun e => e.1 == (kind, s)) && decide (serial.toNat ≤ d.lastSerial kind s))

def Dev.noteSerial (d : Dev) (kind s : Nat) (serial : Word) : Dev :=
  d.onSec fun x => { x with serials := ((kind, s), serial) :: x.serials.filter fun e => e.1 != (kind, s) }

/-- The result of R358 for an object. -/
def Dev.objectCode (d : Dev) (b : List Byte) (poisoned : Bool) : Nat :=
  let s := objSigner b
  let pre := d.objectPre b poisoned
  let key := if d.firstInstall b then newRootPub b else (d.rootOf s).pub
  let kind := objKind b
  let timed := kind == 1 || kind == 6 || kind == 7
  let cal := (d.pacer.atTick d.now).cal
  if pre ≠ 0 then pre
  else if !Config.sigVerify (objAlg b) key (b.take (40 + objLen b)) (objSig b) then 5
  else if timed ∧ objNotAfter b ≠ 0 ∧ !d.pacer.calSet then 9
  else if timed ∧ objNotAfter b ≠ 0 ∧ objNotAfter b < cal then 8
  else if d.replayed kind s (objSerial b) then 10
  else 1

/-! ### Consumers (R327, R224, R355) -/

/-- Entries of a block list written to its registers. -/
def Dev.showBlocks (d : Dev) (t : TenantId) : Dev :=
  d.each (List.range 64) fun d i => d.setRegs (Reg.tagTBlock t i 0) (wordsOfBytes (padTo 16 ((d.tenant t).blocked.getD i [])))

/-- A block list is applied; an add beyond 64 entries is refused whole (R327, R357). -/
def Dev.applyBlocks (d : Dev) (t : TenantId) (body : List Byte) : Option Dev :=
  let count := min 8 (fieldBE body 1 1)
  let es := (List.range count).map fun i => slice body (4 + 16 * i) 16
  let old := (d.tenant t).blocked
  let new := match fieldBE body 0 1 with
    | 1 => old ++ (es.filter fun e => !old.contains e).dedup
    | 2 => old.filter fun e => !es.contains e
    | 3 => []
    | _ => old
  if 64 < new.length then none
  else some (((d.onTenant t fun x => { x with blocked := new }).showBlocks t).raise .tag 2 (BitVec.ofNat 32 t.1) (some t))

/-- A verified demand limit (R224): in force from its start; until then it waits. -/
def Dev.applyLimit (d : Dev) (kw start expiry : Nat) : Dev :=
  let l : UtilLimit := { kw := kw, start := start, expiry := expiry }
  if d.pacer.calSet ∧ start ≤ d.pacer.cal then
    (d.onAlloc fun a => { a with limit := some l, waiting := none, everLimit := true, expired := false }).setBudget
  else (d.onAlloc fun a => { a with waiting := some l, everLimit := true }).setBudget

/-- The shadow root of a ROOT_INSTALL body, with its seed opened; none if the seed does not open (R355). -/
def Dev.shadowRoot (d : Dev) (body : List Byte) : Option RootSlot :=
  let eph := slice body 72 49
  let hasSeed := eph.any fun x => x != 0
  let secret := Config.ecdh384 (installKey d.sec.vault.drk.key) eph
  let seed := if hasSeed then
      Config.gcmOpen (deviceChild secret "SEED" 32) (List.replicate 12 0) [] (slice body 121 48)
    else some []
  seed.map fun s =>
    { alg := BitVec.ofNat 8 (fieldBE body 2 1), keyVer := BitVec.ofNat 8 (fieldBE body 3 1), seedOn := hasSeed
      pub := slice body 4 68, seed := s
      check := Config.child (slice body 4 68 ++ s) (bytesBE 2 (fieldBE body 0 2)) (ascii "KAT") 16 }

/-- TAG_T_ROOT_ID (R342). -/
def Dev.showRoot (d : Dev) (t : TenantId) : Dev :=
  let r := (d.tenant t).root
  d.setReg (Reg.tagTRootId t)
    (if r.alg = 0 then 0 else BitVec.ofNat 32 (fieldBE (Config.sha384 r.pub) 0 4))

/-- A tenant's root is emptied, its seed with it (R346, R355). -/
def Dev.emptyRoot (d : Dev) (t : TenantId) : Dev :=
  (d.onTenant t fun x => { x with rootA := RootSlot.empty, rootB := RootSlot.empty }).showRoot t

/-- A tenant's root is removed (R355). -/
def Dev.removeRoot (d : Dev) (t : TenantId) : Dev := (d.emptyRoot t).raise .sec 4 0 (some t)

/-- The commit of a tenant root: one write flips the pointer of the pair (R353). -/
def Dev.commitRoot (d : Dev) (t : TenantId) (shadow : RootSlot) : Dev :=
  ((d.onTenant t fun x =>
    if x.activeB then { x with rootA := shadow, activeB := false } else { x with rootB := shadow, activeB := true }).showRoot t).raise
    .sec 4 0 (some t)

/-- A ROOT_INSTALL object begins its replacement (R353, R355). Answers whether its result waits for the tests. -/
def Dev.beginRoot (d : Dev) (path : ObjectPath) (b : List Byte) : Dev × Nat :=
  match tenantOfNat (fieldBE (objBody b) 0 2) with
  | none => (d, 7)
  | some t =>
    if fieldBE (objBody b) 2 1 = 0 then ((d.noteSerial 6 (objSigner b) (objSerial b)).removeRoot t, 1)
    else match d.shadowRoot (objBody b) with
      | none => (d.raise .sec 6 (BitVec.ofNat 32 t.1), 11)
      | some r =>
        let w : RootWait := { target := some t, shadow := r, drk := DrkSlot.empty, pop := slice (objBody b) 172 (sigLen r.alg.toNat)
                              signer := objSigner b, serial := objSerial b, path := some path }
        ((d.onSec fun s => { s with roots := s.roots ++ [w] }).request (.rootTest t) .legal
          [deriveOp, deriveOp, verifyOp r.alg.toNat] true (pathRank path), 0)

/-- The credential of a REMOTE_START object (R324 path 4, R357). -/
def Dev.remoteCredential (d : Dev) (b : List Byte) (late : Bool) : Credential :=
  let link := fieldBE (objBody b) 0 2
  { path := .remote, tenant := some (objSigner b), needsRng := false, verified := true
    ident := bytesBE 4 (objSerial b).toNat ++ serialBytes ++ bytesBE 2 link
    expiry := if objNotAfter b = 0 then none else some (objNotAfter b)
    onTarget := objDevice b == Config.serial.toNat && ((linkOfNat link).map fun n => decide (d.role n = .outlet)).getD false
    serial := objSerial b, late := late }

/-- A REMOTE_START object reaches the authorization decision (R325). -/
def Dev.remoteStart (d was : Dev) (b : List Byte) (late : Bool) : Dev :=
  let c := d.remoteCredential b late
  match linkOfNat (fieldBE (objBody b) 0 2) with
  | some n => if d.role n = .outlet then d.judgeCredential was n c else d.judgeAstray was c
  | none => d.judgeAstray was c

/-- A REMOTE_START that the configuration refuses costs no engine time (R325). -/
def Dev.refusedEarly (d : Dev) (b : List Byte) : Bool :=
  objKind b == 2 && (d.configRefusal .remote (objSigner b)).isSome

/-- A verified object goes to its consumer at this tick (R357). The answer is the result shown, 0 while tests run. `admitted`
is the tick at which a time token's time holds; `late` says that the result is (R34). -/
def Dev.consume (d was : Dev) (path : ObjectPath) (b : List Byte) (admitted : Tick) (late : Bool) : Dev × Nat :=
  let body := objBody b
  let s := objSigner b
  let d1 := if [3, 4, 5].contains (objKind b) then d.noteSerial (objKind b) s (objSerial b) else d
  match objKind b, tenantOfNat s with
  | 1, some t => (d.applyGrant t (BitVec.ofNat 64 (fieldBE body 0 8)).toInt (objSerial b) b late, 1)
  | 2, some _ => (d.remoteStart was b late, 1)
  | 3, some t =>
    match d1.applyBlocks t body with
    | some d2 => (d2, 1)
    | none => (d, 7)
  | 4, _ => (d1.applyLimit (fieldBE body 0 2) (objNotBefore b) (objNotAfter b), 1)
  | 5, _ => (d1.applyTime (fieldBE body 0 8 + (d.now - admitted)) (fieldBE body 8 1), 1)
  | 6, _ => d.beginRoot path b
  | 7, _ => (d.offerManifest (objSerial b) (objNotBefore b) (objNotAfter b) body, 1)
  | _, _ => (d, 2)

/-! ### Submission slots (R359) -/

def Dev.onSub (d : Dev) (c : Fin 4) (f : SubSlot → SubSlot) : Dev :=
  d.onSec fun s => { s with slots := s.slots.set c.1 (f (s.slots.get c)) }

/-- The poisoned word of work memory that holds part of the registers from `lo` to before `hi`, if there is one (R435). -/
def Dev.workPoison (d : Dev) (lo hi : Nat) : Option Nat := d.mem.poisonWork.find? fun w =>
  match Config.workReg w with
  | some a => decide (lo ≤ a ∧ a < hi)
  | none => false

/-- A word of work memory that holds part of a slot's buffer is poisoned (R358). -/
def Dev.subPoison (d : Dev) (c : Fin 4) : Option Nat := d.workPoison (Reg.secSubBuf c 0) (Reg.secSubBuf c 1024)

/-- An engine that takes a poisoned word of work memory consumes it (R369, R435). -/
def Dev.engineTakes (d : Dev) (w : Option Nat) : Dev :=
  match w with
  | some w => d.consumePoison true w
  | none => d

/-- The bytes of a slot's buffer. -/
def Dev.subBytes (d : Dev) (c : Fin 4) (len : Nat) : List Byte :=
  (bytesOfWordsLE (d.words (Reg.secSubBuf c 0) ((len + 3) / 4))).take len

/-- An object enters verification (R358, R359): checks that cost nothing come first, and an object that fails one is due in
this tick. -/
def Dev.admitObject (d : Dev) (path : ObjectPath) (b : List Byte) (poisoned : Bool) : Dev :=
  if d.objectPre b poisoned = 0 ∧ !d.refusedEarly b then
    d.request (.object path) .legal [hashOp b.length, verifyOp (objAlg b)] true (pathRank path)
  else d.dueNow (.object path) (pathRank path)

def Dev.submitObject (d : Dev) (c : Fin 4) (data : Word) : Dev :=
  if !bitOf data 31 ∨ (d.sec.slots.get c).state = 1 then d
  else
    let b := d.subBytes c (min 4096 (fieldOf data 0 13))
    (d.onSub c fun s => { s with state := 1, kind := BitVec.ofNat 8 (objKind b), result := 0, obj := b, since := d.now }).admitObject
      (.slot c) b (d.subPoison c).isSome

/-- A slot shows its result (R359); a refused object sets OBJ_REFUSED (R358). -/
def Dev.subDone (d : Dev) (c : Fin 4) (code : Nat) : Dev :=
  (d.onSub c fun s => { s with state := 2, result := code }).raiseIf (code != 1) .sec 7 (BitVec.ofNat 32 code)

/-- The object on a path. -/
def Dev.objectOf (d : Dev) (path : ObjectPath) : List Byte :=
  match path with
  | .slot c => (d.sec.slots.get c).obj
  | .grid => (d.sec.gridObj.map Prod.fst).getD []

/-- Place of an object's result in the photo finish (R38, R358): its path's rank, then its slot. -/
def pathKey (path : ObjectPath) : Nat :=
  commitKey (pathRank path) (match path with | .slot c => c.1 | .grid => 0)

/-- The result of an object is there (R34, R358): it waits for the closure of its tick. -/
def Dev.objectReady (d : Dev) (path : ObjectPath) : Dev :=
  if !d.resultReady (.object path) then d
  else (d.finish (.object path)).commit (pathKey path) (.object path (d.sec.isLate (.object path)))

/-- The result of R358 for an object, or 1 for one that the configuration refuses before its signature is looked at (R325). -/
def Dev.objectResult (d was : Dev) (b : List Byte) (poisoned : Bool) : Nat :=
  if d.objectPre b poisoned = 0 ∧ was.refusedEarly b then 1 else d.objectCode b poisoned

/-- An object is applied at the closure of its result tick (R358). The grid link's object leaves its place. -/
def Dev.objectDone (d was : Dev) (path : ObjectPath) (late : Bool) : Dev :=
  match path with
  | .slot c =>
    let s := d.sec.slots.get c
    let code := d.objectResult was s.obj (d.subPoison c).isSome
    if code = 13 then (d.engineTakes (d.subPoison c)).subDone c code
    else if code ≠ 1 then d.subDone c code
    else
      let r := d.consume was path s.obj s.since late
      if r.2 = 0 then r.1 else r.1.subDone c r.2
  | .grid =>
    match d.sec.gridObj with
    | none => d
    | some o =>
      let d1 := d.onSec fun x => { x with gridObj := none }
      let code := d1.objectResult was o.1 false
      if code ≠ 1 then d1.raise .sec 7 (BitVec.ofNat 32 code)
      else
        let r := d1.consume was path o.1 o.2 late
        if r.2 = 0 ∨ r.2 = 1 then r.1 else r.1.raise .sec 7 (BitVec.ofNat 32 r.2)

/-! ### Tests of a replacement (R353, R354) -/

/-- The proof of possession of a new root (R355). -/
def RootWait.popHolds (w : RootWait) : Bool :=
  Config.sigVerify w.shadow.alg.toNat w.shadow.pub (serialBytes ++ bytesBE 4 w.serial.toNat) w.pop

/-- The tests of a tenant root end. -/
def Dev.rootTested (d : Dev) (t : TenantId) : Dev :=
  match d.sec.roots.find? fun w => w.target == some t with
  | none => d
  | some w =>
    let d1 := d.onSec fun s => { s with roots := s.roots.erase w }
    let ok := w.popHolds
    let d2 := if ok then (d1.noteSerial 6 w.signer w.serial).commitRoot t w.shadow else d1.raise .sec 6 (BitVec.ofNat 32 t.1)
    match w.path with
    | some (.slot c) => d2.subDone c (if ok then 1 else 11)
    | _ => if ok then d2 else d2.raise .sec 7 11

def Dev.cmdDone (d : Dev) (code : Nat) : Dev :=
  d.onSec fun s => { s with cmdBusy := false, cmdWaits := false, cmdResult := code }

/-- The tests of a new Device Root Key end (R353, R354). -/
def Dev.drkTested (d : Dev) : Dev :=
  match d.sec.roots.find? fun w => w.target.isNone with
  | none => d
  | some w =>
    let key := legalKey w.drk.key
    let d1 := d.onSec fun s => { s with roots := s.roots.erase w }
    if Config.sigVerify 1 (Config.compress384 (Config.p384Public key)) Config.testMessage
        (Config.sign384 key Config.testMessage) then
      let d2 := d1.onSec fun s => { s with
        vault := if s.vault.activeB then { s.vault with drkA := w.drk, activeB := false }
          else { s.vault with drkB := w.drk, activeB := true }
        firstSeq := d1.bill.nextSeq, rotatePending := true }
      let d3 := d2.keepOldKey
      ((d3.setReg Reg.secRootEpoch w.drk.epoch).raise .sec 5 w.drk.epoch).cmdDone 1
    else (d1.raise .sec 6).cmdDone 11

/-- ROTATE_ROOT is served (R354, R373). -/
def Dev.rotateServed (d : Dev) : Bool := d.mode == .maintenance && d.bill.sealOpen

/-- A new Device Root Key is drawn, and its tests begin (R353, R354). -/
def Dev.drawRoot (d : Dev) : Dev :=
  let key := d.random 32
  let drk : DrkSlot := { key := key, epoch := d.sec.vault.drk.epoch + 1
                         check := Config.child key serialBytes (ascii "KAT") 16 }
  let w : RootWait := { target := none, shadow := RootSlot.empty, drk := drk, pop := [], signer := 0, serial := 0,
                        path := none }
  ((d.onSec fun s => { s with cmdWaits := false, roots := s.roots ++ [w] }).randomDrawn).request .drkTest .legal
    [deriveOp, deriveOp, deriveOp, signOp, verifyOp 1] true

/-- ROTATE_ROOT is served only in MAINTENANCE with the seal open (R354); while the RNG restarts it waits (R371). -/
def Dev.rotateRoot (d : Dev) : Dev :=
  if !d.rotateServed then d.violation (BitVec.ofNat 32 Reg.secCmd) 4 true
  else if d.sec.cmdBusy then d
  else if d.sec.rng = .failed then (d.onSec fun s => { s with cmd := 3 }).cmdDone 12
  else
    let d1 := d.onSec fun s => { s with cmd := 3, cmdBusy := true, cmdResult := 0, cmdWaits := true }
    if d.sec.rng = .healthy then d1.drawRoot else d1

/-! ### Enrolment and the chain (R351, R352) -/

/-- HE_PUB compressed, or the vendor key. -/
def Dev.enrolKey (d : Dev) (vendor : Bool) : List Byte :=
  if vendor then Config.vendorKey else Config.compress384 (bytesOfWordsBE (d.words (Reg.secHePub 0) 24))

/-- The enrolment record (R351). -/
def Dev.enrolRecord (d : Dev) (vendor : Bool) : List Byte :=
  let v := d.sec.vault
  let eph := d.random 72
  let legal := legalKey v.drk.key
  let secret := Config.ecdh384 eph (d.enrolKey vendor)
  let key := deviceChild secret "ENROL" 32
  let body := [0x0E, 0x01, 0, 0] ++ serialBytes ++ bytesBE 8 Config.node.toNat ++ bytesBE 4 v.drk.epoch.toNat ++
    bytesBE 8 d.sec.firstSeq ++ padTo 96 (Config.p384Public legal) ++ padTo 96 (Config.p384Public (installKey v.drk.key)) ++
    padTo 49 (Config.compress384 (Config.p384Public eph)) ++ [0, 0, 0] ++
    padTo 64 (Config.gcmSeal key (List.replicate 12 0) [] (attestKey v.drk.key)) ++ List.replicate 12 0
  body ++ padTo 96 (Config.sign384 legal body) ++
    (if v.drk.epoch = 0 then List.replicate 96 0 else padTo 96 (Config.sign384 (legalKey v.otherDrk.key) body))

/-- An enrolment is asked for (R351). -/
def Dev.enrol (d : Dev) (vendor : Bool) : Dev :=
  let code := if vendor then 2 else 1
  if d.sec.cmdBusy then d
  else if !vendor ∧ !d.bit Reg.secCfg 0 then (d.onSec fun s => { s with cmd := code }).cmdDone 7
  else if d.sec.rng = .failed then (d.onSec fun s => { s with cmd := code }).cmdDone 12
  else
    (d.onSec fun s => { s with cmd := code, cmdBusy := true, cmdResult := 0, cmdWaits := s.rng != .healthy }).request .enrol .legal
      [ecdhOp, ecdhOp, deriveOp, gcmOp 48, signOp, signOp] false

/-- The enrolment record is complete. -/
def Dev.enrolDone (d : Dev) : Dev :=
  let rec_ := d.enrolRecord (d.sec.cmd == 2)
  ((d.setRegs (Reg.secEnrol 0) (wordsLE (padTo 1024 rec_))).randomDrawn).cmdDone 1

/-- LOAD_CHAIN (R352): the chain's leaf is checked against the SECC public key. -/
def Dev.loadChain (d : Dev) (len : Nat) : Dev :=
  if d.sec.cmdBusy then d
  else
    (d.onSec fun s => { s with cmd := 5, cmdBusy := true, cmdResult := 0, chainLen := len }).request .chain .legal
      [deriveOp, hashOp len] false

def Dev.chainChecked (d : Dev) : Dev :=
  let len := min 4096 d.sec.chainLen
  let chain := (bytesOfWordsLE (d.words (Reg.secChainBuf 0) ((len + 3) / 4))).take len
  if Config.leafKey chain = Config.p521Public (seccKey d.sec.vault.drk.key) ∧ !chain.isEmpty then
    (d.onSec fun s => { s with chain := chain }).cmdDone 1
  else (d.raise .sec 9).cmdDone 14

/-! ### Attestation (R362, R363) -/

/-- CAL_HASH (R362). -/
def Dev.calHash (d : Dev) : List Byte :=
  Config.sha384 (allLinks.flatMap fun n => (List.range 8).flatMap fun ch =>
    if d.role n = .unused then List.replicate 20 0 else bytesOfWordsBE (d.calWords n ch))

/-- The attestation state digest (R362). -/
def Dev.attestDigest (d : Dev) (mode : Byte) : List Byte :=
  Config.sha384 (padTo 48 (Config.firmwareHash d.upd.fw) ++ padTo 48 d.sec.cfgHash ++ padTo 48 d.calHash ++
    bytesBE 4 (d.reg Reg.bilSealCnt).toNat ++ [mode])

/-- The response to a challenge (R363). -/
def Dev.attestResponse (d : Dev) (challenge : List Byte) (mode : Byte) : List Byte :=
  padTo 48 (Config.hmac384 (attestKey d.sec.vault.drk.key) (challenge ++ padTo 48 (d.attestDigest mode)))

def attestOps : List CryptoOp := [hashOp 149, deriveOp, hashOp 80]

def Dev.attestStart (d : Dev) : Dev :=
  if d.sec.attBusy then d
  else
    (d.onSec fun s => { s with attBusy := true, attMode := BitVec.ofNat 8 d.mode.code
                               attChal := bytesOfWordsBE (d.words (Reg.secAttChal 0) 8) }).request .attestHost .legal attestOps true

def Dev.attestDone (d : Dev) : Dev :=
  let d1 := (d.setRegs (Reg.secAttResp 0) (wordsOfBytes (d.attestResponse d.sec.attChal d.sec.attMode))).setRegs
    (Reg.secAttDigest 0) (wordsOfBytes (padTo 48 (d.attestDigest d.sec.attMode)))
  (d1.onSec fun s => { s with attBusy := false, attCount := s.attCount + 1 }).raise .sec 10

/-! ### The random number generator (R370, R371) -/

/-- The RNG is declared failed: every attempt in MATCHING or SETUP fails as its third one (R262). -/
def Dev.failMatching (d : Dev) : Dev :=
  d.each d.outlets fun d n =>
    match (d.link n).veh.state with
    | .matching => (d.raise (.veh n) 3).failAttempt n 1 true
    | .setup => (d.raise (.veh n) 4).failAttempt n 2 true
    | _ => d

/-- A SLAC run begins with a fresh NMK, and its request is answered (R258, R262). -/
def Dev.slacAnswer (d : Dev) (n : LinkId) (evMac : BitVec 48) (runId : BitVec 64) : Dev :=
  ((d.onVeh n fun v => { v with
    slac := some { runId := runId, evMac := evMac, nmk := d.random 16, parmAt := d.now, soundAt := none, sounds := 0, sum := 0
                   toggles := 0 } }).answer n .slacParmCnf).randomDrawn

/-- The key exchange of a TLS handshake is work for the pool (R365). -/
def Dev.tlsWork (d : Dev) (n : LinkId) : Dev :=
  d.randomDrawn.request (.tls n) .session [{ kind := .asym, chunks := 1, us := 2000 }, { kind := .asym, chunks := 1, us := 2000 }]
    false (vehRank n)

end Sys2Proof.Machine
end

