-- ==== Sys2Proof/Machine/Tags.lean ====
section
/-! DEFINITION. The tag engines, the service tag and its mailbox, and the tenant lock (R328 to R339). -/

namespace Sys2Proof.Machine

/-! ### Polls and engines (R331 to R333) -/

/-- Modulation in use: 0 if the head lacks the front-end (R331). -/
def Dev.tagMode (d : Dev) (n : LinkId) : Nat := if (d.link n).tag.mismatch then 0 else d.field (Reg.tagLCfg n) 0 3

def Dev.uhf (d : Dev) (n : LinkId) : Bool := d.tagMode n == 4

/-- Poll interval of an outlet in ms, by the setting in force (R332, R340). -/
def Dev.pollMs (d : Dev) (n : LinkId) : Nat :=
  if d.uhf n then d.settingField Reg.tagXPoll 12 12 else d.settingField Reg.tagXPoll 0 12

/-- Class of the request an outlet makes now, if it makes one (R332). -/
def Dev.pollClass (d : Dev) (n : LinkId) : Option Nat :=
  let l := d.link n
  if d.role n ≠ .outlet ∨ (d.mode ≠ .run ∧ d.mode ≠ .economy) ∨ d.tagMode n = 0 ∨ 4 < d.tagMode n ∨ l.veh.live ∨
      l.tag.request.isSome ∨ l.tag.engine.isSome ∨ l.tag.fieldOff.isSome then none
  else match l.veh.state with
    | .idle => some 2
    | .plugged | .matching | .setup | .authorizing => if l.veh.held.isNone then some 1 else none
    | _ => none

/-- TAG_POLL: at a poll interval an outlet requests an engine (R332). -/
def Dev.tagPoll (d : Dev) (n : LinkId) : Dev :=
  if (d.link n).tag.pollAt + ms (d.pollMs n) ≤ d.now then
    d.onTag n fun x => { x with
      pollAt := d.now, request := (d.pollClass n).map (fun c => { cls := c, admitted := d.now }) |>.or x.request }
  else d

def execTagPoll (link : LinkId) (s : State) : Ending := s.upd fun d => d.tagPoll link

/-- Engine x serves UHF: 16 to 23 (R332, R340). -/
def uhfEngine (x : Fin 24) : Bool := 16 ≤ x.1

/-- The request served first among those of a pool: class 1 before class 2, then admission tick, then rank (R333). -/
def Dev.firstRequest (d : Dev) (uhf : Bool) : Option (LinkId × TagRequest) :=
  let waiting := allLinks.filterMap fun n =>
    match (d.link n).tag.request with
    | some r => if d.uhf n == uhf then some (n, r) else none
    | none => none
  match waiting with
  | [] => none
  | x :: xs => some (xs.foldl (fun a b =>
      if b.2.cls < a.2.cls ∨ (b.2.cls = a.2.cls ∧ b.2.admitted < a.2.admitted) then b else a) x)

def Dev.onEngine (d : Dev) (x : Fin 24) (t : Option TagTransaction) : Dev := { d with engines := d.engines.set x.1 t }

/-- AFI of the Select (R330, R340). -/
def Dev.uhfAfi (d : Dev) : Byte := BitVec.ofNat 8 (d.settingField Reg.tagXPoll 24 8)

/-- An inventory round with a fresh challenge of TAM1 (R330). It waits for random numbers while the RNG restarts; while the RNG is
declared failed no tag authenticates (R371). -/
def Dev.nextRound (d : Dev) (x : Fin 24) (t : TagTransaction) (at' : Tick) : Dev :=
  match d.sec.rng with
  | .healthy =>
    let c := d.random 10
    (d.onEngine x (some { t with step := .round, rndB := c, sent := .round d.uhfAfi c, sendAt := at' })).randomDrawn
  | .failed => d.onEngine x (some { t with step := .round, sent := .round d.uhfAfi [], sendAt := at' })
  | _ => (d.onEngine x (some { t with step := .held, sendAt := at' })).holdForRng (.tag x)

/-- TAG_ENGINE_GRANT (R333): the first command goes out. In mode 3 type A and type B take turns (R331). -/
def Dev.grantEngine (d : Dev) (x : Fin 24) : Dev :=
  match d.engines.get x, d.firstRequest (uhfEngine x) with
  | none, some (n, r) =>
    let typeB := d.tagMode n == 2 || d.tagMode n == 3 && (d.link n).tag.turnB
    let t : TagTransaction := { link := n, cls := r.cls, granted := d.now, step := .anticollision, uid := [], tenant := 0
                                keyVer := 0, rndA := [], rndB := [], ks := [], found := [], failed := [], outcome := none
                                sent := .poll typeB, sendAt := d.now }
    let d1 := d.onTag n fun t => { t with request := none, engine := some x, turnB := !t.turnB }
    if uhfEngine x then d1.nextRound x t d.now else d1.onEngine x (some t)
  | _, _ => d

def execTagEngineGrant (engine : Fin 24) (s : State) : Ending := s.upd fun d => d.grantEngine engine

/-! ### The course of a transaction (R328 to R330) -/

/-- CARD key of a tenant for a UID (R347). -/
def Dev.cardKey (d : Dev) (t : TenantId) (keyVer : Byte) (uid : List Byte) : List Byte :=
  tenantChild (d.tenant t).root.seed t.1 (ascii "CARD" ++ [keyVer] ++ uid)

def Dev.tagKey (d : Dev) (t : TenantId) (tid : List Byte) : List Byte :=
  tenantChild (d.tenant t).root.seed t.1 (ascii "TAG" ++ tid)

/-- Nonce of a secured message (R328): direction and counter. -/
def msgNonce (dir count : Nat) : List Byte := bytesBE 4 dir ++ bytesBE 8 count

/-- Session key KS (R328). -/
def sessionKs (k rndA rndB : List Byte) : List Byte := (Config.hmac384 k (rndA ++ rndB)).take 16

/-- A command that needs a crypto result is sent 2 ms after the response (R333); the work runs in class TAG. -/
def Dev.tagCrypto (d : Dev) (x : Fin 24) : Dev := d.request (.tagStep x) .tag [deriveOp, gcmOp 64] false

/-- The transaction after a response that needs crypto work. -/
def TagTransaction.wait (t : TagTransaction) (now : Tick) (step : TagStep) (sent : AirCommand) : TagTransaction :=
  { t with step := step, sendAt := now + ms 2, sent := sent }

def TagTransaction.go (t : TagTransaction) (now : Tick) (step : TagStep) (sent : AirCommand) : TagTransaction :=
  { t with step := step, sendAt := now, sent := sent }

/-- AID of the credential application (R328 step 1). -/
def credentialAid : List Byte := [0xF0, 0x42, 0x49, 0x4C, 0x43, 0x45, 0x4E, 0x01]

/-- The lowest UID of a list. -/
def lowestUid (us : List (List Byte)) : Option (List Byte) :=
  match us with
  | [] => none
  | u :: rest => some (rest.foldl (fun a b => if fieldBE b 0 b.length < fieldBE a 0 a.length then b else a) u)

/-- Anticollision (R329): of the cards found, those HALTED since they entered the field are left out, and of the others the one of
the lowest UID is selected. -/
def Dev.cardsFound (d : Dev) (x : Fin 24) (t : TagTransaction) (found : List (List Byte)) : Dev :=
  let still := (d.link t.link).tag.halted.filter found.contains
  match lowestUid (found.filter fun u => !still.contains u) with
  | some u =>
    (d.onEngine x (some { t.go d.now .fci (.select credentialAid) with uid := u })).onTag t.link fun l =>
      { l with uid := u, halted := still }
  | none =>
    (d.onEngine x (some { t with step := .done, outcome := some .noCard, sendAt := d.now })).onTag t.link fun l =>
      { l with uid := [], halted := still, card := if still.isEmpty then .none else .halted }

def TagTransaction.ends (t : TagTransaction) (now : Tick) (o : TagOutcome) : TagTransaction :=
  { t with step := .done, outcome := some o, sendAt := now }

/-- The seed of the tenant is there, so that its card and tag keys exist (R347). -/
def Dev.seeded (d : Dev) (t : Nat) : Bool := ((tenantOfNat t).map fun t => (d.tenant t).root.seedOn).getD false

/-- AUTH2 with a fresh challenge and nonce (R328 step 3). -/
def Dev.sendAuth2 (d : Dev) (x : Fin 24) (tn : TenantId) (t : TagTransaction) (at' : Tick) : Dev :=
  let rndA := d.random 16
  let d1 := d.randomDrawn
  let nonce := d1.random 12
  let cmd := AirCommand.auth2 nonce (Config.gcm128Seal (d.cardKey tn t.keyVer t.uid) nonce (rndA ++ t.rndB))
  ((d1.onEngine x (some { t with step := .auth2, rndA := rndA, sent := cmd, sendAt := at' })).randomDrawn).tagCrypto x

/-- An answer of an HF card (R328, R329). -/
def Dev.cardAnswer (d : Dev) (x : Fin 24) (t : TagTransaction) (a : AirAnswer) : Dev :=
  let now := d.now
  let put := fun (t : TagTransaction) => d.onEngine x (some t)
  match t.step, a with
  | .anticollision, .uids us => d.cardsFound x t us
  | .anticollision, .none => d.cardsFound x t []
  | .fci, .fci tenant keyVer =>
    let d1 := d.onTag t.link fun l => { l with card := .opened }
    let t1 := { t with tenant := tenant, keyVer := keyVer }
    match d.configRefusal .card tenant.toNat with
    | some code => d1.onEngine x (some (t1.ends now (.refused code tenant)))
    | none =>
      if d.sec.rng = .failed then d1.onEngine x (some (t1.ends now (.refused 14 tenant)))
      else if !d.seeded tenant.toNat then d1.onEngine x (some (t1.ends now (.bad tenant)))
      else d1.onEngine x (some (t1.go now .auth1 .auth1))
  | .auth1, .auth1 nonce sealedText =>
    match tenantOfNat t.tenant.toNat with
    | none => put (t.ends now (.bad t.tenant))
    | some tn =>
      match Config.gcm128Open (d.cardKey tn t.keyVer t.uid) nonce sealedText with
      | none => put (t.ends now (.bad t.tenant))
      | some rndB =>
        let t1 := { t with rndB := rndB }
        match d.sec.rng with
        | .healthy => d.sendAuth2 x tn t1 (now + ms 2)
        | .failed => put (t.ends now (.refused 14 t.tenant))
        | _ => (put { t1 with step := .held, sendAt := now + ms 2 }).holdForRng (.tag x)
  | .auth2, .auth2 nonce sealedText =>
    match tenantOfNat t.tenant.toNat with
    | none => put (t.ends now (.bad t.tenant))
    | some tn =>
      let k := d.cardKey tn t.keyVer t.uid
      if Config.gcm128Open k nonce sealedText = some (t.rndB ++ t.rndA) then
        let ks := sessionKs k t.rndA t.rndB
        ((put { t.wait now .credential (.readCred (Config.gcm128Seal ks (msgNonce 1 0) [])) with ks := ks }).onTag t.link fun l =>
          { l with card := .secured }).tagCrypto x
      else put (t.ends now (.bad t.tenant))
  | .credential, .credential sealedText =>
    match Config.gcm128Open t.ks (msgNonce 2 0) sealedText with
    | none => put (t.ends now (.bad t.tenant))
    | some f =>
      if fieldBE f 0 2 = t.tenant.toNat then
        put (t.ends now (.credential t.tenant (t.uid ++ slice f 2 4) (BitVec.ofNat 32 (fieldBE f 6 4))))
      else put (t.ends now (.bad t.tenant))
  | .done, _ => d
  | _, .none => (put (t.ends now .noCard)).onTag t.link fun l => { l with card := .none, uid := [] }
  | _, _ => put (t.ends now (.bad t.tenant))

/-- A UHF tag found by the round, or the end of the round (R330). -/
def Dev.uhfAnswer (d : Dev) (x : Fin 24) (t : TagTransaction) (a : AirAnswer) : Dev :=
  let now := d.now
  let put := fun (t : TagTransaction) => d.onEngine x (some t)
  match t.step, a with
  | .round, .uhfTag toggle afi epc tid tam1 =>
    if !toggle ∨ afi ≠ d.uhfAfi then d
    else
      let tn := fieldBE epc 0 2
      let bad := d.nextRound x { t with failed := t.failed ++ [BitVec.ofNat 16 tn] } now
      match d.configRefusal .tag tn, tenantOfNat tn with
      | none, some tt =>
        if d.sec.rng ≠ .failed ∧ d.seeded tn ∧ Config.tam1Holds (d.tagKey tt tid) t.rndB tam1 then
          (d.nextRound x { t with found := t.found ++ [(BitVec.ofNat 16 tn, tid)] } (now + ms 2)).tagCrypto x
        else bad
      | _, _ => bad
  | .round, .none =>
    match t.found, t.failed with
    | [f], _ => put (t.ends now (.credential f.1 f.2 0))
    | _ :: _ :: _, _ => put (t.ends now .ambiguous)
    | [], f :: _ =>
      put (t.ends now (match d.configRefusal .tag f.toNat with
        | some code => .refused code f
        | none => if d.sec.rng = .failed then .refused 14 f else .bad f))
    | [], [] => put (t.ends now .noCard)
  | _, _ => d

/-- AIR_RESPONSE (R333): a response to the command that has been sent. -/
def Dev.airResponse (d : Dev) (x : Fin 24) (a : AirAnswer) : Dev :=
  match d.engines.get x with
  | some t =>
    if d.now < t.sendAt ∨ t.step = .held then d
    else if uhfEngine x then d.uhfAnswer x t a else d.cardAnswer x t a
  | none => d

def execAirResponse (engine : Fin 24) (answer : AirAnswer) (s : State) : Ending := s.upd fun d => d.airResponse engine answer

/-- The engine is released. -/
def Dev.freeTag (d : Dev) (x : Fin 24) (n : LinkId) : Dev :=
  ((d.onEngine x none).onTag n fun t => { t with engine := none }).finish (.tagStep x)

/-- A refusal that names no tenant, AMBIGUOUS or ENGINE_TIMEOUT, is shown and counted for the device, and reaches an outlet in
AUTHORIZING (R326, R330, R333). In every other state the next poll tries again. -/
def Dev.refuseUnnamed (d : Dev) (n : LinkId) (path code : Nat) : Dev :=
  let arg := packWord [(0, 8, code), (8, 8, path)]
  (((((d.onTag n fun x => { x with path := path, code := code, tenant := 0 }).raise (.tagL n) 1 arg).raiseIf
    (code == 15) (.tagL n) 2 arg).raise .tag 1 arg).count Reg.tagRefuseCnt).refuseOutlet n code

/-- The credential that a tag transaction delivers (R324 paths 1 and 2). -/
def tagCredential (path : AuthPath) (tenant : BitVec 16) (ok : Bool) (ident : List Byte) (expiry : Option Nat) : Credential :=
  { path := path, tenant := some tenant.toNat, needsRng := true, verified := ok, ident := ident, expiry := expiry
    onTarget := true, serial := 0, late := false }

/-- The result of a tag transaction, at the closure of the tick in which it ended (R323, R325, R333). -/
def Dev.tagResult (d was : Dev) (n : LinkId) (path : AuthPath) (o : TagOutcome) : Dev :=
  match o with
  | .noCard => d
  | .refused code tenant => (d.showDecision n path.code tenant.toNat code).refuseOutlet n code
  | .bad tenant => d.judgeCredential was n (tagCredential path tenant false [] none)
  | .ambiguous => d.refuseUnnamed n path.code 15
  | .timeout (some tenant) => (d.showDecision n path.code tenant.toNat 13).refuseOutlet n 13
  | .timeout none => d.refuseUnnamed n path.code 13
  | .credential tenant ident days => d.judgeCredential was n
      (tagCredential path tenant true ident (if days = 0 then none else some (days.toNat * 86400 + 86399)))

/-- A card that a transaction ended with is left HALTED (R329). -/
def TagOutcome.halts (o : TagOutcome) : Bool :=
  match o with
  | .refused .. | .bad _ | .credential .. => true
  | .noCard | .ambiguous | .timeout _ => false

/-- TAG_TRANSACTION_END (R329, R333): the engine is released and the card left HALTED; the decision belongs to this tick and
waits for its closure (R323). -/
def Dev.tagEnd (d : Dev) (x : Fin 24) : Dev :=
  match d.engines.get x with
  | some t =>
    match t.outcome with
    | none => d
    | some o =>
      let uhf := uhfEngine x
      let d1 := d.freeTag x t.link
      let d2 := if !uhf && o.halts then d1.onTag t.link fun l => { l with card := .halted, halted := l.halted ++ [t.uid] } else d1
      if o = .noCard then d2
      else d2.commit (commitKey (vehRank t.link) 0) (.tagResult t.link (if uhf then .tag else .card) o)
  | none => d

def execTagTransactionEnd (engine : Fin 24) (s : State) : Ending := s.upd fun d => d.tagEnd engine

/-- The tenant that a transaction knows: of the card whose FCI it has read (R328). -/
def TagTransaction.named (t : TagTransaction) : Option (BitVec 16) :=
  match t.step with
  | .auth1 | .auth2 | .credential => some t.tenant
  | _ => none

/-- TAG_ENGINE_TIMEOUT (R333): at 250 ms the transaction is abandoned and the field is off for 5 ms, so that the card resets; the
result waits for the closure of the tick. -/
def Dev.tagTimeout (d : Dev) (x : Fin 24) : Dev :=
  match d.engines.get x with
  | some t =>
    if t.granted + ms 250 ≤ d.now then
      (((((d.onEngine x none).cancel (.tagStep x)).dropRngWait (· == .tag x)).onTag t.link fun l => { l with
          engine := none, fieldOff := some (d.now + ms 5), card := .none, uid := [], halted := [] }).raise .tag 4
        (BitVec.ofNat 32 t.link.1)).commit (commitKey (vehRank t.link) 0)
        (.tagResult t.link (if uhfEngine x then .tag else .card) (.timeout t.named))
    else d
  | none => d

def execTagEngineTimeout (engine : Fin 24) (s : State) : Ending := s.upd fun d => d.tagTimeout engine

/-- TAG_POLL_PROMOTE (R333): after 2 s a class 2 request is of class 1. -/
def Dev.tagPromote (d : Dev) (n : LinkId) : Dev :=
  match (d.link n).tag.request with
  | some r =>
    if r.cls = 2 ∧ r.admitted + secs 2 ≤ d.now then d.onTag n fun x => { x with request := some { r with cls := 1 } } else d
  | none => d

def execTagPollPromote (link : LinkId) (s : State) : Ending := s.upd fun d => d.tagPromote link

/-- FIELD_RESET_END (R333). -/
def Dev.fieldResetEnd (d : Dev) (n : LinkId) : Dev :=
  if heldFor (d.link n).tag.fieldOff d.now 0 then d.onTag n fun x => { x with fieldOff := none } else d

def execFieldResetEnd (link : LinkId) (s : State) : Ending := s.upd fun d => d.fieldResetEnd link

/-! ### The service tag (R335, R336) -/

/-- SERVICE_FIELD_PRESENT: a presence is counted, and may be a wake cause (R68, R335). -/
def Dev.fieldPresent (d : Dev) : Dev :=
  if d.svc.state ≠ .noField then d
  else
    let d1 := ((d.onSvc fun t => { t with
      state := .field, power := d.power.vaonLost, fails := 0, rndB := none, ks := [], lastCmd := d.now }).count
      Reg.tagSvcCnt).raise .svc 0
    if d.bit Reg.pwrWakeCfg 8 then d1.wakeCause .serviceField else d1

def execServiceFieldPresent (s : State) : Ending := s.upd Dev.fieldPresent

/-- The mailbox is lost and its content discarded (R337). -/
def Dev.loseMailbox (d : Dev) : Dev :=
  ((d.onSvc fun t => { t with owner := .none, fill := .empty, len := 0, secured := false, acqAt := none }).setRegs
    (Reg.tagSvcMbxData 0) (List.replicate 64 0)).raise .svc 5

/-- SERVICE_FIELD_LOST (R336, R337). -/
def Dev.fieldLost (d : Dev) : Dev :=
  let d1 := (d.dropRngWait (· == .svcAuth1)).onSvc fun t => { t with state := .noField, power := false, ks := [], rndB := none, txCount := 0, rxCount := 0, fails := 0 }
  if d.svc.state ≠ .noField ∧ d.svc.owner = .field then d1.loseMailbox else d1

def execServiceFieldLost (s : State) : Ending := s.upd Dev.fieldLost

/-- A command is answered: data and status word (R335). The first command opens the card. -/
def Dev.svcAnswer (d : Dev) (data : List Byte) (sw : Nat) : Dev :=
  d.onSvc fun t => { t with resp := data, sw := BitVec.ofNat 16 sw, lastCmd := d.now
                            state := if t.state = .field then .opened else t.state }

/-- A command of the service tag: none without a field. It takes the place of an AUTH1 that still waits. -/
def Dev.svcCmd (d : Dev) (f : Dev → Dev) : Dev :=
  if d.svc.state = .noField then d else f (d.dropRngWait (· == .svcAuth1))

/-- AUTH is served: any mode but DORMANT and WAKING (R335). -/
def Dev.svcServed (d : Dev) : Bool := d.recording

/-- READ_SUMMARY (R335), in the open state. -/
def Dev.readSummary (d : Dev) (p : Nat) : Dev :=
  if d.svc.state = .secured then d.svcAnswer [] 0x6982
  else if p = 0xFFFF then
    d.svcAnswer (serialBytes ++ bytesBE 4 (d.reg Reg.pwrCycles).toNat ++ bytesBE 4 (d.reg Reg.pwrOpSeconds).toNat ++
      bytesBE 4 (d.reg Reg.bilSealCnt).toNat ++
      [match d.bill.sealState with | .closed => 0 | .opened => 1 | .fault => 2] ++ [BitVec.ofNat 8 d.mode.code] ++
      bytesBE 8 (if d.pacer.calSet then d.pacer.cal else 0)) 0x9000
  else match linkOfNat p with
    | none => d.svcAnswer [] 0x6A86
    | some n =>
      if d.svcServed then
        d.svcAnswer (bytesBE 8 (d.link n).bill.impMwh ++ bytesBE 8 (d.link n).bill.expMwh ++
          bytesBE 4 (d.reg (Reg.metCalCrc n)).toNat ++ [if d.sessionLive n then 1 else 0]) 0x9000
      else d.svcAnswer [] 0x6985

def execSvcReadSummary (p1p2 : BitVec 16) (s : State) : Ending := s.upd fun d => d.svcCmd fun d => d.readSummary p1p2.toNat

/-- The 16 bytes of an entry of the last-word table (R446). -/
def LastWord.bytes (w : LastWord) : List Byte :=
  bytesLE 4 w.cycles.toNat ++ bytesLE 4 w.opSeconds.toNat ++ bytesLE 1 w.code ++ [0] ++ bytesLE 2 w.arg.toNat ++
    bytesLE 4 w.cal.toNat

/-- An entry of the table, zeros where none was written. -/
def Memory.lwBytes (m : Memory) (i : Nat) : List Byte := ((m.lastWords[i]?).map LastWord.bytes).getD (List.replicate 16 0)

/-- READ_LASTWORD (R335). -/
def Dev.readLastword (d : Dev) (i : Nat) : Dev :=
  if d.svc.state = .secured then d.svcAnswer [] 0x6982
  else if 15 < i then d.svcAnswer [] 0x6A86
  else d.svcAnswer (d.mem.lwBytes i) 0x9000

def execSvcReadLastword (entry : Byte) (s : State) : Ending := s.upd fun d => d.svcCmd fun d => d.readLastword entry.toNat

/-- The SERVICE key of tenant 0 (R347). -/
def Dev.serviceKey (d : Dev) : List Byte := tenantChild (d.tenants.get 0).root.seed 0 (ascii "SERVICE")

/-- The answer to AUTH1 (R328 step 2, R335). -/
def Dev.svcChallenge (d : Dev) : Dev :=
  let rndB := d.random 16
  let d1 := d.randomDrawn
  let nonce := d1.random 12
  (((d1.randomDrawn).onSvc fun t => { t with rndB := some rndB }).svcAnswer
    (nonce ++ Config.gcm128Seal d.serviceKey nonce rndB) 0x9000).request .svcStep .tag [deriveOp, gcmOp 64] false

/-- AUTH1 (R335, R336): refused without a seed of tenant 0, after three failures, and while the RNG is declared failed; it waits
while the RNG restarts (R371). -/
def Dev.svcAuth1 (d : Dev) : Dev :=
  if d.svc.state = .secured then d.svcAnswer [] 0x6982
  else if !d.svcServed ∨ 3 ≤ d.svc.fails ∨ !(d.tenants.get 0).root.seedOn ∨ d.sec.rng = .failed then d.svcAnswer [] 0x6985
  else if d.sec.rng = .healthy then d.svcChallenge
  else d.holdForRng .svcAuth1

def execSvcAuth1 (s : State) : Ending := s.upd fun d => d.svcCmd Dev.svcAuth1

/-- AUTH2 (R335, R336). -/
def Dev.svcAuth2 (d : Dev) (nonce sealedText : List Byte) : Dev :=
  if d.svc.state = .secured then d.svcAnswer [] 0x6982
  else if !d.svcServed then d.svcAnswer [] 0x6985
  else match d.svc.rndB with
    | none => d.svcAnswer [] 0x6985
    | some rndB =>
      let k := d.serviceKey
      let plain := Config.gcm128Open k nonce sealedText
      let rndA := (plain.getD []).take 16
      if plain = some (rndA ++ rndB) then
        let nc := d.random 12
        (((d.randomDrawn.svcAnswer (nc ++ Config.gcm128Seal k nc (rndB ++ rndA)) 0x9000).onSvc fun t => { t with
            state := .secured, rndB := none, ks := sessionKs k rndA rndB, txCount := 0, rxCount := 0 }).raise .svc 1).request
          .svcStep .tag [deriveOp, gcmOp 64] false
      else
        ((d.svcAnswer [] 0x6982).onSvc fun t => { t with rndB := none, fails := t.fails + 1 }).raise .svc 2

def execSvcAuth2 (nonce sealedText : List Byte) (s : State) : Ending := s.upd fun d => d.svcCmd fun d => d.svcAuth2 nonce sealedText

/-- A sealed message that fails its tag ends the secured state (R336). -/
def Dev.svcUnsealed (d : Dev) : Dev := (d.onSvc ServiceTag.unsecured).svcAnswer [] 0x6982

/-- A response sealed under KS (R328, R335). -/
def Dev.svcSealed (d : Dev) (data : List Byte) : Dev :=
  (d.svcAnswer (Config.gcm128Seal d.svc.ks (msgNonce 2 d.svc.txCount) data) 0x9000).onSvc fun t => { t with
    txCount := t.txCount + 1, rxCount := t.rxCount + 1 }

/-- A command done: its response is sealed in the secured state (R328, R335). -/
def Dev.svcDone (d : Dev) (data : List Byte) : Dev :=
  if d.svc.state = .secured then d.svcSealed data else d.svcAnswer data 0x9000

/-- READ_EVENT (R335): the record of a sequence number in the ring, sealed. -/
def Dev.svcReadEvent (d : Dev) (seq : Nat) (tagOk : Bool) : Dev :=
  if d.svc.state ≠ .secured then d.svcAnswer [] 0x6982
  else if !tagOk then d.svcUnsealed
  else match d.recorder.ring.find? fun x => x.entry.seq == seq with
    | some x => d.svcSealed x.entry.bytes
    | none => d.svcAnswer [] 0x6A86

def execSvcReadEvent (seq : BitVec 64) (tagOk : Bool) (s : State) : Ending :=
  s.upd fun d => d.svcCmd fun d => d.svcReadEvent seq.toNat tagOk

/-! ### The mailbox (R337) -/

/-- The bytes of the mailbox. -/
def Dev.mbxBytes (d : Dev) : List Byte := bytesOfWordsLE (d.words (Reg.tagSvcMbxData 0) 64)

def Dev.setMbx (d : Dev) (bs : List Byte) : Dev := d.setRegs (Reg.tagSvcMbxData 0) (wordsLE (padTo 256 bs))

/-- SVC_MBX_WRITE: only the owner writes. -/
def Dev.mbxWrite (d : Dev) (off : Nat) (data : List Byte) (tagOk : Bool) : Dev :=
  if d.svc.state = .secured ∧ !tagOk then d.svcUnsealed
  else if d.svc.owner ≠ .field then d.svcAnswer [] 0x6985
  else if 256 < off + data.length ∨ 128 < data.length then d.svcAnswer [] 0x6A86
  else ((d.setMbx (patch d.mbxBytes off data)).onSvc fun t => { t with
    wrote := some (t.wrote.getD true && t.state == .secured) }).svcDone []

def execSvcMbxWrite (p1 : Byte) (data : List Byte) (tagOk : Bool) (s : State) : Ending :=
  s.upd fun d => d.svcCmd fun d => d.mbxWrite (4 * p1.toNat) data tagOk

/-- SVC_MBX_READ. -/
def Dev.mbxRead (d : Dev) (off len : Nat) : Dev :=
  if 256 < off + len ∨ 128 < len then d.svcAnswer [] 0x6A86
  else d.svcDone (slice d.mbxBytes off len)

def execSvcMbxRead (p1 : Byte) (le : Byte) (s : State) : Ending :=
  s.upd fun d => d.svcCmd fun d => d.mbxRead (4 * p1.toNat) le.toNat

/-- The wire acquired the mailbox within the same 32.768 kHz period: at most 30 whole ticks ago. -/
def Dev.wireJustAcquired (d : Dev) : Bool :=
  d.svc.owner == .wire && ((d.svc.acqAt.map fun t => decide (d.now ≤ t + 30)).getD false)

/-- SVC_MBX_ACQUIRE: the field wins over a wire that acquired within one period. -/
def Dev.fieldAcquire (d : Dev) : Dev :=
  let take := fun (d : Dev) => (d.onSvc fun t => { t with owner := .field, acqAt := some d.now, wrote := none }).svcDone []
  if d.svc.owner = .none ∧ d.svc.fill = .empty then take d
  else if d.wireJustAcquired ∧ d.svc.fill = .empty then (take d).raise .svc 4
  else d.svcAnswer [] 0x6985

def execSvcMbxAcquire (s : State) : Ending := s.upd fun d => d.svcCmd Dev.fieldAcquire

/-- SVC_MBX_POST: P2 is the length / 2. The message counts as secured where all that was written of it since ACQUIRE came in the
secured state. -/
def Dev.fieldPost (d : Dev) (p2 : Nat) : Dev :=
  if d.svc.owner ≠ .field then d.svcAnswer [] 0x6985
  else if p2 = 0 ∨ 128 < p2 then d.svcAnswer [] 0x6A86
  else
    ((d.onSvc fun t => { t with owner := .none, fill := .forWire, len := 2 * p2, secured := t.wrote == some true, acqAt := none }).raise
      .svc 3).svcDone []

def execSvcMbxPost (p2 : Byte) (s : State) : Ending := s.upd fun d => d.svcCmd fun d => d.fieldPost p2.toNat

def ServiceTag.emptied (t : ServiceTag) : ServiceTag := { t with fill := .empty, len := 0, secured := false }

/-- SVC_MBX_RELEASE: the side addressed empties the mailbox. -/
def Dev.fieldRelease (d : Dev) : Dev :=
  if d.svc.fill = .forField then (d.onSvc ServiceTag.emptied).svcDone [] else d.svcAnswer [] 0x6985

def execSvcMbxRelease (s : State) : Ending := s.upd fun d => d.svcCmd Dev.fieldRelease

/-- SVC_MBX_CANCEL: the writer withdraws its own unread message. -/
def Dev.fieldCancel (d : Dev) : Dev :=
  if d.svc.fill = .forWire then (d.onSvc ServiceTag.emptied).svcDone [] else d.svcAnswer [] 0x6985

def execSvcMbxCancel (s : State) : Ending := s.upd fun d => d.svcCmd Dev.fieldCancel

/-- SVC_SECURE_TIMEOUT (R336). -/
def Dev.svcTimeout (d : Dev) : Dev :=
  if d.svc.state = .secured ∧ d.svc.lastCmd + secs 60 ≤ d.now then d.onSvc ServiceTag.unsecured else d

def execSvcSecureTimeout (s : State) : Ending := s.upd Dev.svcTimeout

/-- The host port serves the wire side: the core runs. -/
def Dev.wireOn (d : Dev) : Bool := d.recording

/-- WIRE_MBX_ACQUIRE. -/
def Dev.wireAcquire (d : Dev) : Dev :=
  if d.wireOn ∧ d.svc.owner = .none ∧ d.svc.fill = .empty then
    d.onSvc fun t => { t with owner := .wire, acqAt := some d.now, wrote := none }
  else if d.wireOn ∧ d.svc.owner = .field ∧ d.svc.fill = .empty ∧
      ((d.svc.acqAt.map fun t => decide (d.now ≤ t + 30)).getD false) then d.raise .svc 4
  else d

def execWireMbxAcquire (s : State) : Ending := s.upd Dev.wireAcquire

/-- WIRE_MBX_POST: LEN holds the bytes − 1. -/
def Dev.wirePost (d : Dev) (len : Nat) : Dev :=
  if d.wireOn ∧ d.svc.owner = .wire ∧ 1 ≤ len ∧ len ≤ 255 then
    d.onSvc fun t => { t with owner := .none, fill := .forField, len := len + 1, secured := false, acqAt := none }
  else d

def execWireMbxPost (len : BitVec 9) (s : State) : Ending := s.upd fun d => d.wirePost len.toNat

/-- WIRE_MBX_RELEASE. -/
def Dev.wireRelease (d : Dev) : Dev :=
  if d.wireOn ∧ d.svc.fill = .forWire then d.onSvc ServiceTag.emptied else d

def execWireMbxRelease (s : State) : Ending := s.upd Dev.wireRelease

/-- WIRE_MBX_CANCEL. -/
def Dev.wireCancel (d : Dev) : Dev :=
  if d.wireOn ∧ d.svc.fill = .forField then d.onSvc ServiceTag.emptied else d

def execWireMbxCancel (s : State) : Ending := s.upd Dev.wireCancel

/-- WIRE_MBX_DATA_WRITE: ignored unless the wire owns the mailbox. -/
def Dev.wireWrite (d : Dev) (index : Fin 64) (data : Word) : Dev :=
  if d.wireOn ∧ d.svc.owner = .wire then d.setReg (Reg.tagSvcMbxData index) data else d

def execWireMbxDataWrite (index : Fin 64) (data : Word) (s : State) : Ending := s.upd fun d => d.wireWrite index data

/-- WIRE_MBX_TIMEOUT: 1 s after ACQUIRE without a POST. -/
def Dev.wireTimeout (d : Dev) : Dev :=
  if d.svc.owner = .wire ∧ heldFor d.svc.acqAt d.now (secs 1) then d.loseMailbox else d

def execWireMbxTimeout (s : State) : Ending := s.upd Dev.wireTimeout

/-- HOST_TENANT_LOCK (R339). -/
def Dev.lockTenant (d : Dev) (t : Nat) : Dev :=
  match tenantOfNat t with
  | some t => if d.locked.contains t then d else { d with locked := d.locked ++ [t] }
  | none => d

def execHostTenantLock (tenant : BitVec 10) (s : State) : Ending :=
  s.upd fun d => if d.recording then d.lockTenant tenant.toNat else d

end Sys2Proof.Machine
end

