-- ==== Sys2Proof/Machine/GridOps.lean ====
section
/-! DEFINITION. Operations of the grid link: when it runs, what a node sends in a period, election, discovery and the
messages it assembles and queues (R376 to R396). -/

namespace Sys2Proof.Machine

def Dev.rxLink (d : Dev) : Option LinkId := linkOfNat (d.field Reg.grdCfg 8 8)

def Dev.txLink (d : Dev) : Option LinkId := linkOfNat (d.field Reg.grdCfg 16 8)

def Dev.gridPrio (d : Dev) : Nat := d.field Reg.grdCfg 24 3

/-- TX_OK (R377, R395). -/
def Dev.txOk (d : Dev) : Bool :=
  d.bit Reg.grdCfg 30 && (d.txLink.map d.live).getD false && d.grid.grdA != 0

def Dev.listenN (d : Dev) : Nat := d.settingField Reg.grdXLink 8 8

def Dev.lossN (d : Dev) : Nat := d.settingField Reg.grdXLink 16 8

def Dev.discEvery (d : Dev) : Nat := d.settingField Reg.grdXDisc 0 16

/-- The grid link runs in this state. -/
def GridState.runs : GridState → Bool
  | .off | .noMains => false
  | _ => true

/-- The state that keeps the link from running, if any (R377). -/
def Dev.gridBarred (d : Dev) : Option GridState :=
  let modeOk := d.mode = .run ∨ d.mode = .economy ∨ d.mode = .maintenance ∨ d.mode = .safeHalt ∨ d.mode = .activation
  match d.rxLink with
  | none => some .off
  | some n =>
    if !d.bit Reg.grdCfg 31 ∨ !decide modeOk ∨ !d.live n then some .off
    else if d.reg (Reg.metFreq n) = 0 then some .noMains
    else none

/-- The link leaves its network: nothing is heard, sent or assembled any more. The last TABLE stays. -/
def Grid.leave (g : Grid) (st : GridState) : Grid :=
  { g with state := st, count := 0, wraps := 0, quiet := 0, heard := false, coordParts := [], msgs := [], tx := [], cycle0 := g.cycle,
           owner := 0xFE, disc := none, answers := [], discDue := 0, election := none, yielding := false, cells := [] }

/-- STATE follows the conditions of R377; a link that may run begins in LISTEN, and a node that loses TX_OK coordinates no
longer. -/
def Dev.gridGate (d : Dev) : Dev :=
  match d.gridBarred with
  | some st => if d.grid.state = st then d else d.onGrid fun g => g.leave st
  | none =>
    if d.grid.state.runs ∧ (d.txOk ∨ (d.grid.state ≠ .guarding ∧ d.grid.state ≠ .coordinator)) then d
    else d.onGrid fun g => g.leave .listen

/-! ### Cycles and windows (R378) -/

/-- How far a voltage sample lies behind the instant it refers to (R147, R153), and the crossings behind that (R162); in ps. -/
def Dev.sampleLag (d : Dev) (n : LinkId) (ch : Nat) : Int :=
  (if (d.link n).met.fast then 409275000 else 1393650000) +
    (8192 + max (-8191) (min 8191 (d.calInUse n ch).phase)) * 31250000 / 1024 + Config.lowPassDelay

/-- The instant of a crossing, in 1/512 ps. -/
def Dev.crossInstant (d : Dev) (n : LinkId) (ch : Nat) (c : Nat) : Int := 15625000 * (c + 1024 : Nat) - 512 * d.sampleLag n ch

/-- Newest positive crossing of a phase (1/576 of 1/512 ps) and 1/72 of the mean period of its last 8 cycles (the same unit),
where it has had 8 (R378). -/
def Dev.phaseClock (d : Dev) (p : Fin 3) : Option (Int × Int) :=
  d.rxLink.bind fun n =>
    match (d.link n).met.crossings.get p with
    | c :: cs => cs[7]?.map fun old => (576 * d.crossInstant n p.1 c, (15625000 * (c - old) : Nat))
    | [] => none

/-- The tick in which an own cycle began, where its crossing is among those of the last second. -/
def Dev.cycleBegan (d : Dev) (cycle : Nat) : Option Tick :=
  d.rxLink.bind fun n =>
    if d.grid.cycle < cycle then none
    else ((d.link n).met.crossings.get 0)[d.grid.cycle - cycle]?.map fun c =>
      (d.crossInstant n 0 c / 512000000).toNat

/-- The cell of the running period and the cycle of the two in it whose window on phase `p` holds the interval in which the head
applies the frame of `tick` (R124, R378): 25° to 5° before the first crossing of the phase after that cycle begins. -/
def Dev.windowCell (d : Dev) (p : Fin 3) (tick : Tick) : Option (Nat × Bool) :=
  match d.phaseClock 0, d.phaseClock p, d.txLink with
  | some (z1, q1), some (z, q), some n =>
    let us : Int := 576 * 512000000
    let a := us * (tick + 1 : Nat) + 576 * 256 * (d.reg (Reg.lnkRtt n)).toNat
    let cross := z + 72 * q * ceilDiv (a + us + q - z) (72 * q)
    let i : Int := d.grid.cycle + ceilDiv (cross - z1) (72 * q1) - 1 - d.grid.cycle0
    if 0 < q ∧ 0 < q1 ∧ cross - 5 * q ≤ a ∧ 0 ≤ i then some (3 * (i.toNat / 2) + p.1, i.toNat % 2 == 1) else none
  | _, _, _ => none

/-- The phase on which the frame of `tick` draws the injection current, 0 for none (R122, R380): in the first window of a cell for
a 1, in the second for a 0. Without TX_OK and during a supply warning nothing is sent (R377, R394). -/
def Dev.gridPulse (d : Dev) (tick : Tick) : Nat :=
  if d.grid.cells.isEmpty ∨ !d.txOk ∨ d.warned then 0
  else (((List.finRange 3).find? fun p =>
    match d.windowCell p tick with
    | some (k, second) => (d.grid.cells[k]?.join.map fun b => b != second).getD false
    | none => false).map fun p => p.1 + 1).getD 0

/-! ### Deciding cells (R381) -/

/-- Sum of the squares and number of the difference samples in the quiet cells of the last 16 periods, by local phase and
crossing: σq is the root of their quotient. -/
def Grid.quietSum (g : Grid) (w : Fin 6) : Nat × Nat :=
  (g.quietSq.get w).foldl (fun a x => (a.1 + x.1, a.2 + x.2)) (0, 0)

/-- The largest σq (R395). -/
def Grid.noise (g : Grid) : Nat :=
  (List.finRange 6).foldl (fun m w => let s := g.quietSum w; max m (if s.2 = 0 then 0 else isqrt (s.1 / s.2))) 0

/-- A decided cell: D, the samples left in it, the samples blanked, and whether |D| is at least 4 σq √n. -/
structure Decision where
  sum     : Int
  left    : Nat
  blanked : Nat
  clear   : Bool
  deriving DecidableEq, Repr

/-- One cell in the windows of a local phase and crossing: a sample beyond BLANK_K/4 times σq is replaced by 0, and D is negated
before the negative crossing (R381, R386). -/
def Dev.decideCell (d : Dev) (w : Fin 6) (ds : CellDiffs) : Decision :=
  let s := d.grid.quietSum w
  let k := d.settingField Reg.grdXLink 24 8
  let kept := ds.filter fun x => decide (16 * (x.natAbs * x.natAbs) * s.2 ≤ k * k * s.1) || s.2 == 0
  let sum := if w.1 % 2 = 1 then -kept.sum else kept.sum
  { sum := sum, left := kept.length, blanked := ds.length - kept.length
    clear := decide (16 * s.1 * kept.length ≤ sum.natAbs * sum.natAbs * s.2) }

/-- The windows a map gives for a transmit phase (R386, R396): none where its local phase is unknown. -/
def windowOf (map : BitVec 12) (p : Nat) : Option (Fin 6) :=
  let nib := map.toNat / 16 ^ p % 16
  if nib % 4 = 0 then none else some (Fin.ofNat 6 (2 * (nib % 4 - 1) + nib / 4 % 2))

/-- Cells decided with a sender's map; cell `j` is sent on phase L(j mod 3 + 1) (R380). -/
def Dev.decideCells (d : Dev) (map : BitVec 12) (cells : List CellDiffs) : List Decision :=
  cells.zipIdx.map fun x =>
    match windowOf map (x.2 % 3) with
    | some w => d.decideCell w x.1
    | none => { sum := 0, left := 0, blanked := 0, clear := false }

def Decision.bit (x : Decision) : Bool := 0 < x.sum

/-- The samples blanked are counted (R381). -/
def Dev.countBlanked (d : Dev) (xs : List Decision) : Dev := d.count Reg.grdBlanked (xs.map Decision.blanked).sum

/-- Bits as a number, most significant first (R380). -/
def natOfBits (bs : List Bool) : Nat := bs.foldl (fun n b => 2 * n + b2n b) 0

/-- The bits of the cells from `lo` on, as a number. -/
def cellField (xs : List Decision) (lo len : Nat) : Nat := natOfBits (((xs.drop lo).take len).map Decision.bit)

/-- The pattern of SYNC on each transmit phase (R383). -/
def syncPattern (p : Nat) : List Bool :=
  match p with
  | 0 => [true, true, false]
  | 1 => [false, true, true]
  | _ => [true, false, true]

/-- Where each transmit phase's pattern was found (R386), with |D| at least 4 σq √n in each cell (R383); the earlier window where it
was found in two. -/
def Dev.findSync (d : Dev) (sync : SyncDiffs) : BitVec 12 :=
  let found := fun p => (List.finRange 6).find? fun w =>
    let xs := (sync.get w).toList.map (d.decideCell w)
    xs.all Decision.clear && xs.map Decision.bit == syncPattern p
  let nib := fun p => match found p with
    | some w => w.1 / 2 + 1 + 4 * (w.1 % 2)
    | none => 0
  BitVec.ofNat 12 (nib 0 + 16 * nib 1 + 256 * nib 2)

/-- Every decision that a search for SYNC makes. -/
def Dev.syncDecisions (d : Dev) (sync : SyncDiffs) : List Decision :=
  (List.finRange 6).flatMap fun w => (sync.get w).toList.map (d.decideCell w)

/-- All three transmit phases were found. -/
def mapWhole (m : BitVec 12) : Bool := (List.range 3).all fun p => (windowOf m p).isSome

/-- SYNC was found and the nine cells match (R383). -/
structure BeaconBits where
  prio     : Nat
  count    : Fin 120
  nodePart : BitVec 16
  owner    : Byte
  /-- Own cycle in which the beacon's cell time 1 began. -/
  cycle    : Nat
  map      : BitVec 12
  deriving DecidableEq, Repr

/-! ### What a node sends (R380 to R384, R390) -/

/-- A number as bits, most significant first. -/
def bitsOf (len v : Nat) : List Bool := (List.range len).map fun i => v / 2 ^ (len - 1 - i) % 2 == 1

/-- A cyclic redundancy check over bits. -/
def crcBits (width poly init : Nat) (bs : List Bool) : Nat :=
  bs.foldl (fun c b =>
    let sh := c * 2 % 2 ^ width
    if c / 2 ^ (width - 1) % 2 + b2n b = 1 then Nat.xor sh poly else sh) init

/-- SYNC, in the order of cells 3 to 11 (R383). -/
def syncCells : List Bool := [true, false, true, true, true, false, false, true, true]

/-- Part of a node number that a beacon of this COUNT carries (R383). -/
def nodePart (node : BitVec 48) (count : Nat) : BitVec 16 :=
  BitVec.ofNat 16 (match count % 3 with
    | 0 => node.toNat / 2 ^ 32
    | 1 => node.toNat / 2 ^ 16
    | _ => node.toNat)

/-- PRIO, COUNT, NODE_PART and OWNER: cells 12 to 45 (R383). -/
def beaconBits (prio count : Nat) (part : BitVec 16) (owner : Byte) : List Bool :=
  bitsOf 3 prio ++ bitsOf 7 count ++ bitsOf 16 part.toNat ++ bitsOf 8 owner.toNat

/-- CRC-8 of R114 over cells 12 to 45 (R383). -/
def beaconCrc (prio count : Nat) (part : BitVec 16) (owner : Byte) : Nat :=
  crcBits 8 0x07 0 (beaconBits prio count part owner)

def quietCells (n : Nat) : List (Option Bool) := List.replicate n none

/-- BEACON_DECODED (R383): the fields of a beacon, where its nine SYNC cells match and its CRC-8 does. -/
def Dev.readBeacon (d : Dev) (b : Beacon) : Option BeaconBits :=
  let map := d.findSync b.sync
  let xs := d.decideCells map b.cells.toList
  let prio := cellField xs 0 3
  let count := cellField xs 3 7
  let part := BitVec.ofNat 16 (cellField xs 10 16)
  let owner := BitVec.ofNat 8 (cellField xs 26 8)
  if h : count < 120 then
    if mapWhole map ∧ cellField xs 34 8 = beaconCrc prio count part owner then
      some { prio := prio, count := ⟨count, h⟩, nodePart := part, owner := owner, cycle := b.cycle, map := map }
    else none
  else none

/-- Cells 3 to 53 (R383). -/
def Dev.beaconCells (d : Dev) : List (Option Bool) :=
  let part := nodePart Config.node d.grid.count.1
  (syncCells ++ beaconBits d.gridPrio d.grid.count.1 part d.grid.owner ++
    bitsOf 8 (beaconCrc d.gridPrio d.grid.count.1 part d.grid.owner)).map some

/-- HDR of a segment (R384). -/
def segHdr (kind : Nat) (msg : BitVec 4) (seg : Nat) (last pending : Bool) : Nat :=
  kind * 2 ^ 13 + msg.toNat * 2 ^ 9 + seg * 4 + b2n last * 2 + b2n pending

/-- Segments of a message. -/
def segsOf (bytes : List Byte) : Nat := max 1 ((bytes.length + 36) / 37)

/-- Cells 54 to 381 of a segment (R384). -/
def segCells (hdr : Nat) (payload : List Byte) : List (Option Bool) :=
  let bytes := bytesBE 2 hdr ++ padTo 37 payload
  (bitsOf 16 hdr ++ ((padTo 37 payload).flatMap fun b => bitsOf 8 b.toNat) ++ bitsOf 16 (crc16 bytes)).map some

/-- This node owns the running period: it sends its next segment, or IDLE (R384, R385, R394). -/
def Dev.ownSegment (d : Dev) : List (Option Bool) × Dev :=
  match d.grid.tx with
  | [] => (segCells (segHdr 0 d.grid.msgNo 0 true false) [], d.onGrid fun g => { g with msgNo := g.msgNo + 1 })
  | t :: rest =>
    let last := segsOf t.bytes ≤ t.sent + 1
    (segCells (segHdr t.kind d.grid.msgNo t.sent last (!last || !rest.isEmpty)) (slice t.bytes (37 * t.sent) 37),
      d.onGrid fun g =>
        if last then { g with tx := rest, msgNo := g.msgNo + 1 } else { g with tx := { t with sent := t.sent + 1 } :: rest })

/-- Slot of a node in a discovery round (R390). -/
def discSlot (node : BitVec 48) (r : Nat) : Nat := node.toNat / 4 ^ r % 4

/-- The CRC-16 of a discovery answer, over its node number. -/
def discCrc (node : BitVec 48) : Nat := crc16 (bytesBE 6 node.toNat)

/-- Cells 54 on of a discovery answer in round `r` (R390). -/
def discCells (node : BitVec 48) (r : Nat) : List (Option Bool) :=
  quietCells (75 * discSlot node r) ++ (syncCells ++ bitsOf 48 node.toNat ++ bitsOf 16 (discCrc node)).map some

/-- The beacon of the running period is sent: guard and listening periods of R388, an election that silences it (R389),
TX_OK and the supply warning (R377, R394). -/
def Dev.sendsBeacon (d : Dev) : Bool :=
  let g := d.grid
  let quiet := match g.state with
    | .guarding => Config.node.getLsbD g.count.1
    | .coordinator => g.count.1 == 119 && Config.node.getLsbD (g.wraps % 48)
    | _ => true
  !quiet && !g.yielding && !((g.election.map Election.silent).getD false) && d.txOk && !d.warned

/-- The cells of the running period as they are sent: beacon, then the data section of this node if it owns the period. -/
def Dev.fillPeriod (d : Dev) (mine : Bool) : Dev :=
  let head := if d.sendsBeacon then quietCells 3 ++ d.beaconCells else quietCells 54
  if mine ∧ d.txOk ∧ !d.warned ∧ (d.grid.state = .coordinator ∨ d.grid.state = .member) then
    let r := d.ownSegment
    r.2.onGrid fun g => { g with cells := head ++ r.1 ++ quietCells 2 }
  else d.onGrid fun g => { g with cells := if d.sendsBeacon then head else [] }

/-! ### Neighbours and messages -/

def Dev.onNb (d : Dev) (i : Fin 32) (f : Neighbour → Neighbour) : Dev :=
  d.onGrid fun g => { g with nbs := g.nbs.set i.1 (f (g.nbs.get i)) }

/-- A map names a local phase and crossing for two transmit phases (R386). -/
def mapClash (m : BitVec 12) : Bool :=
  let nib := fun k => m.toNat / 16 ^ k % 8
  let same := fun a b => nib a % 4 != 0 && nib a == nib b
  same 0 1 || same 0 2 || same 1 2

/-- A decode of SYNC gives a neighbour's map (R386). -/
def Neighbour.mapped (x : Neighbour) (m : BitVec 12) : Neighbour := if mapClash m then x else { x with map := m }

/-- A new TABLE is in force (R391): the neighbours follow it, each with what was known of it. -/
def Grid.useTable (g : Grid) (table : List (BitVec 48)) (maps : List (BitVec 48 × BitVec 12)) : Grid :=
  let old := g.nbs.toList
  { g with
    table := table
    index := (List.finRange 32).find? fun i => table[i.1]? == some Config.node
    nbs := Vector.ofFn fun i : Fin 32 =>
      match table[i.1]? with
      | none => Neighbour.reset
      | some node =>
        let x := (old.find? fun x => x.valid && x.node == node).getD
          { Neighbour.reset with valid := true, node := node, offered := 32 }
        let y := match maps.find? fun p => p.1 == node with
          | some p => x.mapped p.2
          | none => x
        if i.1 = 0 ∧ node ≠ Config.node then y.mapped g.coordMap else y }

/-- The coordinator's node number is known; COORD_CHANGE where it differs (R395). -/
def Dev.setCoord (d : Dev) (node : BitVec 48) : Dev :=
  if d.grid.coord = node then d else (d.onGrid fun g => { g with coord := node }).raise .grd 4

/-- A message joins the queue for transmission, which holds at most 4 (R394). -/
def Dev.sendGrid (d : Dev) (kind : Nat) (bytes : List Byte) : Dev :=
  if 4 ≤ d.grid.tx.length then d
  else d.onGrid fun g => { g with tx := g.tx ++ [{ kind := kind, bytes := bytes, sent := 0 }] }

/-- A message of a sender complete and not yet handed on. -/
def Dev.gridDone (d : Dev) (sender : Fin 32) (kind : Nat) : Option GridMsg :=
  d.grid.msgs.find? fun m => m.sender == sender && m.done && m.kind == kind

def Dev.dropMsg (d : Dev) (m : GridMsg) : Dev := d.onGrid fun g => { g with msgs := g.msgs.erase m }

/-- A partial message is discarded (R384). -/
def Dev.badMsg (d : Dev) (m : GridMsg) : Dev := (d.dropMsg m).raise .grd 1

/-- A valid segment appended to its sender's message, or beginning one (R384). -/
def Dev.takeSegment (d : Dev) (sender : Fin 32) (h : Nat) (payload : List Byte) : Dev :=
  let kind := h / 2 ^ 13
  let msg := BitVec.ofNat 4 (h / 2 ^ 9)
  let no := h / 4 % 128
  let last := h / 2 % 2 == 1
  let begun : GridMsg :=
    { sender := sender, kind := kind, msg := msg, next := 1, bytes := payload, done := last, idle := 0
      start := d.grid.began }
  let fresh := fun (d : Dev) =>
    if no = 0 ∧ kind < 6 ∧ (last = false ∨ kind = 1 ∨ kind = 2 ∨ kind = 3 ∨ kind = 5) then
      d.onGrid fun g => { g with msgs := g.msgs ++ [begun] }
    else d
  match d.grid.msgs.find? fun m => m.sender == sender && !m.done with
  | none => fresh d
  | some m =>
    if m.msg ≠ msg ∨ m.next ≠ no then fresh (d.badMsg m)
    else
      let m' := { m with next := no + 1, bytes := m.bytes ++ payload, done := last, idle := 0
                         start := d.grid.began }
      let d1 := d.dropMsg m
      if last && !([1, 2, 3, 5].contains m.kind) then d1 else d1.onGrid fun g => { g with msgs := g.msgs ++ [m'] }

/-! ### Discovery (R390, R391) -/

/-- Discovery begins, in the period that has just begun or in the next one. -/
def Dev.beginDiscovery (d : Dev) : Dev :=
  let d1 := d.onGrid fun g => { g with
    disc := some 0, answers := [], discDue := d.discEvery
    owner := if g.startAt = d.now then 0xFF else g.owner }
  if d.grid.startAt = d.now then d1.fillPeriod false else d1

def insertNode (x : BitVec 48 × BitVec 12) : List (BitVec 48 × BitVec 12) → List (BitVec 48 × BitVec 12)
  | [] => [x]
  | y :: ys => if x.1.toNat < y.1.toNat then x :: y :: ys else y :: insertNode x ys

/-- DISCOVERY_COMPLETE: the TABLE is built, put into force and queued (R390, R391). -/
def Dev.discoveryComplete (d : Dev) : Dev :=
  let found := d.grid.answers.foldl (fun acc x => insertNode x acc) []
  let table := Config.node :: (found.take 31).map Prod.fst
  (((d.onGrid fun g => { g.useTable table found with disc := none, answers := [] }).raise .grd 2).raiseIf
    (31 < found.length) .grd 8).sendGrid 5 (bytesBE 1 table.length ++ table.flatMap fun n => bytesBE 6 n.toNat)

/-! ### Election (R389) -/

/-- This node's beacon cells overlap those of a beacon whose cell time 1 begins in this own cycle. -/
def Dev.overlaps (d : Dev) (cycle : Nat) : Bool :=
  let off := (cycle + 256 - (d.grid.cycle0 + 2) % 256) % 256
  off < 34 || 222 < off

/-- ELECTION_COMPARE: the higher PRIO keeps coordination, on equal PRIO the lower node number. -/
def Dev.compareElection (d : Dev) (prio : Nat) (node : Nat) : Dev :=
  let wins := prio < d.gridPrio ∨ prio = d.gridPrio ∧ Config.node.toNat < node
  let d1 := d.onGrid fun g => { g with election := none }
  if wins then d1 else (d1.onGrid fun g => { g with yielding := true, disc := none }).raise .grd 5

/-- A beacon of another node in GUARD or COORDINATOR. -/
def Dev.hearRival (d : Dev) (b : BeaconBits) : Dev :=
  let e := d.grid.election.getD
    { prio := BitVec.ofNat 3 b.prio, part0 := none, part1 := none, part2 := none, since := 0, resume := d.grid.state, silent := false }
  let e1 : Election := { e with
    prio := BitVec.ofNat 3 b.prio
    silent := e.silent || d.overlaps b.cycle
    part0 := if b.count.1 % 3 = 0 then some b.nodePart else e.part0
    part1 := if b.count.1 % 3 = 1 then some b.nodePart else e.part1
    part2 := if b.count.1 % 3 = 2 then some b.nodePart else e.part2 }
  match e1.part0, e1.part1, e1.part2 with
  | some a, some x, some y => d.compareElection b.prio (a.toNat * 2 ^ 32 + x.toNat * 2 ^ 16 + y.toNat)
  | _, _, _ => d.onGrid fun g => { g with election := some e1 }

/-! ### Period boundaries (R382, R385) -/

/-- Owner of a coordinator's period outside discovery (R385). -/
def Grid.choose (g : Grid) : Nat :=
  let n := g.table.length
  if g.tx.any fun t => t.kind == 5 then 0
  else
    let after := (List.range n).map fun k => (g.prevOwner + 1 + k) % n
    (after.find? fun i => (g.nbs.toList[i]?.map fun x => x.pending || decide (32 ≤ x.offered)).getD false).getD 0

/-- What every period boundary does to a node: times counted, discovery rounds advanced. -/
def Grid.turnPeriod (g : Grid) (now began : Tick) (quiet : Vector CellDiffs 6) : Grid :=
  { g with
    startAt := now, began := began, cycle0 := g.cycle0 + 256
    quietSq := Vector.ofFn fun w : Fin 6 =>
      (((quiet.get w).map fun x => x.natAbs * x.natAbs).sum, (quiet.get w).length) :: (g.quietSq.get w).take 15
    quiet := if g.heard then 0 else g.quiet + 1
    heard := false
    count := if g.state = .listen then 0 else if h : g.count.1 + 1 < 120 then ⟨g.count.1 + 1, h⟩ else 0
    wraps := if g.state = .listen ∨ g.count.1 + 1 < 120 then g.wraps else g.wraps + 1
    nbs := g.nbs.map fun x => { x with age := satTo 16 (x.age + b2n x.valid), offered := satTo 16 (x.offered + b2n x.valid) }
    msgs := g.msgs.map fun m => { m with idle := m.idle + 1 }
    election := g.election.map fun e => { e with since := e.since + 1 }
    discDue := g.discDue - 1
    cells := [] }

/-- The coordinator's choice of the owner (R385), and the rounds of a discovery (R390). -/
def Dev.coordinate (d : Dev) (was : Byte) : Dev :=
  let d1 := match d.grid.disc with
    | some r =>
      if was ≠ 0xFF then d.onGrid fun g => { g with owner := 0xFF }
      else if h : r.1 + 1 < 24 then d.onGrid fun g => { g with disc := some ⟨r.1 + 1, h⟩, owner := 0xFF }
      else d.discoveryComplete
    | none => d
  if d1.grid.disc.isSome then d1
  else
    let i := d1.grid.choose
    d1.onGrid fun g => { g with
      owner := BitVec.ofNat 8 i, prevOwner := i
      nbs := if h : i < 32 then g.nbs.set i { g.nbs.get ⟨i, h⟩ with offered := 0 } else g.nbs }

/-- 256 own cycles have passed since the running period began (R382). -/
def Grid.periodOver (g : Grid) : Bool := g.cycle0 + 256 ≤ g.cycle

/-- GRID_PERIOD_START (R382), with the difference samples of the quiet cells of the period that ends (R381). -/
def Dev.gridPeriod (d : Dev) (quiet : Vector CellDiffs 6) : Dev :=
  if !d.grid.state.runs ∨ !d.grid.periodOver then d
  else
    let was := d.grid.owner
    let began := (d.cycleBegan (d.grid.cycle0 + 256)).getD d.now
    let d1 := (d.onGrid fun g => g.turnPeriod d.now began quiet).onGrid fun g => { g with
      owner := 0xFE
      nbs := if g.state = .coordinator then g.nbs.set 0 { g.nbs.get 0 with pending := !g.tx.isEmpty } else g.nbs }
    match d1.grid.state with
    | .coordinator =>
      let d2 := if d1.grid.yielding then d1 else d1.coordinate was
      d2.fillPeriod (d2.grid.owner == 0 && !d2.grid.yielding)
    | .guarding => d1.fillPeriod false
    | .member =>
      d1.onGrid fun g => { g with
        disc := g.disc.bind fun r => if h : r.1 + 1 < 24 then some ⟨r.1 + 1, h⟩ else none }
    | _ => d1

/-! ### Beacons (R383, R387) -/

/-- The parts of the coordinator's number read so far, and the number where all three are there. -/
def Dev.readCoord (d : Dev) (b : BeaconBits) : Dev :=
  let k := b.count.1 % 3
  let known := d.grid.coordParts
  let kept := if known.any fun p => p.1 == k && p.2 != b.nodePart then [] else known.filter fun p => p.1 != k
  let parts := (k, b.nodePart) :: kept
  let part := fun j => (parts.find? fun p => p.1 == j).map fun p => p.2.toNat
  let d1 := d.onGrid fun g => { g with coordParts := parts }
  match part 0, part 1, part 2 with
  | some x, some y, some z => d1.setCoord (BitVec.ofNat 48 (x * 2 ^ 32 + y * 2 ^ 16 + z))
  | _, _, _ => d1

/-- The round of discovery in which a member hears OWNER 0xFF (R390): the one it counts, round 0 where it heard the beacon of the
period before, else a free value: the beacon does not carry it. -/
def Dev.heardRound (d : Dev) : Fin 24 :=
  match d.grid.disc with
  | some r => r
  | none => if d.grid.state = .member ∧ d.grid.quiet = 0 then 0 else Fin.ofNat 24 d.drawn.toNat

/-- A member takes a beacon (R383, R386, R390): it aligns its cycles so that cell time 1 falls in its cycles 2 and 3, and
sends what the owner of the period sends. A TABLE of its own as coordinator is no longer sent. -/
def Dev.followBeacon (d : Dev) (b : BeaconBits) : Dev :=
  let r := d.heardRound
  let began := (d.cycleBegan (b.cycle - 2)).getD d.grid.began
  let d1 := ((d.onGrid fun g => { g with
      state := .member, yielding := false, election := none, heard := true, quiet := 0, count := b.count
      cycle0 := b.cycle - 2, began := began, owner := b.owner, coordMap := b.map
      tx := if g.state = .member then g.tx else g.tx.filter fun t => t.kind != 5
      disc := if b.owner = 0xFF then some r else none }).drew.readCoord b).onNb 0 fun x =>
        if x.valid then x.mapped b.map else x
  match d1.grid.disc, d1.grid.index with
  | some r, _ =>
    d1.onGrid fun g => { g with cells := if d1.txOk then quietCells 54 ++ discCells Config.node r.1 else [] }
  | none, some i => d1.fillPeriod (b.owner == BitVec.ofNat 8 i.1)
  | none, none => d1.fillPeriod false

/-- BEACON_DECODED (R383). -/
def Dev.beaconHeard (d : Dev) (b : Beacon) : Dev :=
  if !d.grid.state.runs then d
  else
    let d1 := d.countBlanked (d.syncDecisions b.sync ++ d.decideCells (d.findSync b.sync) b.cells.toList)
    match d.readBeacon b with
    | none => d1
    | some x =>
      match d.grid.state with
      | .guarding | .coordinator => if d.grid.yielding then d1.followBeacon x else d1.hearRival x
      | _ => d1.followBeacon x

/-! ### Challenges (R392) -/

/-- The response to the grid challenge at hand is queued (R363, R394). -/
def Dev.gridRespond (d : Dev) : Dev :=
  match d.sec.gridChal with
  | none => d
  | some c =>
    (d.onSec fun s => { s with gridChal := none }).sendGrid 4
      (bytesBE 6 Config.node.toNat ++ d.attestResponse c.1 c.2 ++ padTo 48 (d.attestDigest c.2))

/-- A challenge for this node replaces one whose response has not begun (R392). -/
def Dev.takeChallenge (d : Dev) (challenge : List Byte) : Dev :=
  let unsent := d.grid.tx.any fun t => t.kind == 4 && t.sent == 0
  let d1 := if d.sec.gridChal.isSome ∨ unsent then
      (((d.cancel .attestGrid).onGrid fun g => { g with tx := g.tx.filter fun t => !(t.kind == 4 && t.sent == 0) }).countField
        Reg.grdDrop 0 16).raise .grd 7
    else d
  (d1.onSec fun s => { s with gridChal := some (challenge, BitVec.ofNat 8 d.mode.code) }).request .attestGrid .legal attestOps
    true

end Sys2Proof.Machine
end

