-- ==== Sys2Proof/Machine/Grid.lean ====
section
/-! DEFINITION. The commands of the grid link (R382 to R395). -/

namespace Sys2Proof.Machine

def execGridPeriodStart (quiet : Vector CellDiffs 6) (s : State) : Ending := s.upd fun d => d.gridPeriod quiet

def execBeaconDecoded (b : Beacon) (s : State) : Ending := s.upd fun d => d.beaconHeard b

/-- A reading that does not complete within 8 periods ends; the node goes on in its previous state (R389). -/
def execElectionReadTimeout (s : State) : Ending :=
  s.upd fun d =>
    match d.grid.election with
    | some e => if 8 ≤ e.since then d.onGrid fun g => { g with election := none, state := e.resume } else d
    | none => d

/-- The sender of the running period's segment: its owner, if that is another node of the table or the coordinator (R385). -/
def Grid.sender (g : Grid) : Option (Fin 32) :=
  if h : g.owner.toNat < 32 then if g.index = some ⟨g.owner.toNat, h⟩ then none else some ⟨g.owner.toNat, h⟩ else none

/-- The map with which a sender's segments are decoded (R386). -/
def Grid.mapOf (g : Grid) (sender : Fin 32) : BitVec 12 :=
  if sender = 0 ∧ g.state = .member then g.coordMap else (g.nbs.get sender).map

/-- Mean |D| of a segment's cells (R396). -/
def levelOf (xs : List Decision) : BitVec 16 :=
  BitVec.ofNat 16 (satTo 16 (divHalfEven (xs.map fun x => x.sum.natAbs).sum xs.length).toNat)

/-- GRID_SEGMENT_RX (R384, R396): the cells of the period's owner are decided; a segment that fails its CRC discards its sender's
partial message. -/
def Dev.segmentHeard (d : Dev) (seg : Segment) : Dev :=
  match d.grid.sender with
  | some sender =>
    if !d.grid.state.runs then d
    else
      let xs := d.decideCells (d.grid.mapOf sender) seg.toList
      let hdr := cellField xs 0 16
      let payload := (List.range 37).map fun i => BitVec.ofNat 8 (cellField xs (16 + 8 * i) 8)
      let d0 := d.countBlanked xs
      if cellField xs 312 16 ≠ crc16 (bytesBE 2 hdr ++ payload) then
        let d1 := d0.count Reg.grdRxBad
        match d.grid.msgs.find? fun m => m.sender == sender && !m.done with
        | some m => d1.badMsg m
        | none => d1
      else
        ((d0.count Reg.grdRxOk).onNb sender fun x =>
          if x.valid then { x with level := levelOf xs, age := 0, pending := hdr % 2 == 1 } else x).takeSegment sender hdr payload
  | none => d

def execGridSegmentRx (seg : Segment) (s : State) : Ending := s.upd fun d => d.segmentHeard seg

/-- 64 periods without the next segment (R384). -/
def execGridMsgTimeout (sender : Fin 32) (s : State) : Ending :=
  s.upd fun d =>
    match d.grid.msgs.find? fun m => m.sender == sender && !m.done with
    | some m => if 64 ≤ m.idle then d.badMsg m else d
    | none => d

/-- An OBJECT is handed to verification with rank 607 (R392). It waits while the one before it is under verification. Its
instant is the start of the period of its last segment (R393). -/
def Dev.gridObject (d : Dev) (sender : Fin 32) : Dev :=
  match d.gridDone sender 1 with
  | some m =>
    if d.sec.gridObj.isSome then d
    else
      let b := m.bytes.take (40 + objLen m.bytes + sigLen (objAlg m.bytes))
      ((((d.dropMsg m).onSec fun s => { s with gridObj := some (b, m.start) }).countField Reg.grdMsgCnt 16 16).raise .grd
        0).admitObject .grid b false
  | none => d

def execGridObjectRx (sender : Fin 32) (s : State) : Ending := s.upd fun d => d.gridObject sender

/-- A PIECE goes to update intake, which holds 4 of them, or is dropped (R392). -/
def Dev.gridPiece (d : Dev) (sender : Fin 32) : Dev :=
  match d.gridDone sender 2 with
  | some m =>
    let d1 := d.dropMsg m
    if 4 ≤ d.upd.gridPieces.length then (d1.countField Reg.grdDrop 16 16).raise .grd 6
    else
      let p : Piece := { index := fieldBE m.bytes 0 4, data := slice m.bytes 4 256, tag := slice m.bytes 260 32 }
      let d2 := (d1.onUpd fun u => { u with gridPieces := u.gridPieces ++ [p] }).countField Reg.grdMsgCnt 0 16
      if d.upd.gridPieces.isEmpty then d2.request (.piece .grid) .update [deriveOp, hashOp 300] false 607 else d2
  | none => d

def execGridPieceRx (sender : Fin 32) (s : State) : Ending := s.upd fun d => d.gridPiece sender

/-- A CHALLENGE for this node is answered, if it may transmit; any other is not handed on (R392, R377). -/
def execGridChallengeRx (sender : Fin 32) (s : State) : Ending :=
  s.upd fun d =>
    match d.gridDone sender 3 with
    | some m =>
      let d1 := d.dropMsg m
      if fieldBE m.bytes 0 6 = Config.node.toNat ∧ d.txOk then d1.takeChallenge (slice m.bytes 6 32) else d1
    | none => d

/-- A member's table index is its place in the last TABLE (R391). -/
def Dev.gridTable (d : Dev) (sender : Fin 32) : Dev :=
  match d.gridDone sender 5 with
  | some m =>
    let d1 := d.dropMsg m
    let n := fieldBE m.bytes 0 1
    if d.grid.state ≠ .member ∨ n = 0 ∨ 32 < n ∨ m.bytes.length < 1 + 6 * n then d1
    else
      let table := (List.range n).map fun i => BitVec.ofNat 48 (fieldBE m.bytes (1 + 6 * i) 6)
      (d1.onGrid fun g => { g.useTable table g.answers with answers := [] }).setCoord (table.headD 0)
  | none => d

def execGridTableRx (sender : Fin 32) (s : State) : Ending := s.upd fun d => d.gridTable sender

/-- LISTEN_N periods without a beacon: a node that may transmit starts a network (R387). -/
def execGridListenExpiry (s : State) : Ending :=
  s.upd fun d =>
    if d.grid.state = .listen ∧ d.txOk ∧ d.listenN ≤ d.grid.quiet then
      (d.onGrid fun g => { g.leave .guarding with msgNo := g.msgNo }).fillPeriod false
    else d

/-- LOSS_N periods without a beacon: a member returns to LISTEN (R387). -/
def execBeaconLoss (s : State) : Ending :=
  s.upd fun d =>
    if d.grid.state = .member ∧ d.lossN ≤ d.grid.quiet then (d.onGrid fun g => g.leave .listen).raise .grd 3 else d

/-- After COUNT 47 the node is coordinator; its first discovery follows after 4 periods (R388, R390). -/
def Dev.guardDone (d : Dev) : Dev :=
  if d.grid.state = .guarding ∧ 48 ≤ d.grid.count.1 ∧ !d.grid.yielding then
    let d1 := (d.onGrid fun g => { g with
      state := .coordinator, index := some 0, discDue := 4, prevOwner := 0, owner := 0 }).setCoord Config.node
    if d.grid.startAt = d.now then d1.fillPeriod true else d1
  else d

def execGuardEnd (s : State) : Ending := s.upd Dev.guardDone

/-- 4 periods after becoming coordinator, and every DISC_EVERY periods (R390). -/
def execDiscoveryStart (s : State) : Ending :=
  s.upd fun d =>
    if d.grid.state = .coordinator ∧ d.grid.disc.isNone ∧ d.grid.discDue = 0 ∧ !d.grid.yielding then d.beginDiscovery else d

/-- A discovery answer heard (R386, R390): every receiver keeps its sender's map; the coordinator takes the answer in the slot its
round gives it, with its CRC right. -/
def Dev.answerHeard (d : Dev) (a : DiscAnswer) : Dev :=
  match d.grid.disc with
  | none => d
  | some r =>
    if d.grid.owner ≠ 0xFF then d
    else
      let map := d.findSync a.sync
      let xs := d.decideCells map a.cells.toList
      let node := BitVec.ofNat 48 (cellField xs 0 48)
      let d1 := d.countBlanked (d.syncDecisions a.sync ++ xs)
      if mapWhole map ∧ cellField xs 48 16 = discCrc node ∧ node ≠ Config.node ∧
          (d.grid.state = .coordinator → discSlot node r.1 = a.slot.1) then
        d1.onGrid fun g => { g with
          answers := (node, map) :: g.answers.filter fun x => x.1 != node
          nbs := g.nbs.map fun x => if x.valid && x.node == node then x.mapped map else x }
      else d1

def execDiscoveryAnswerRx (a : DiscAnswer) (s : State) : Ending := s.upd fun d => d.answerHeard a

/-- DISCOVER, of the coordinator only (R390, R395). -/
def Dev.discover (d : Dev) : Dev :=
  if d.grid.state = .coordinator ∧ d.grid.disc.isNone ∧ !d.grid.yielding then d.beginDiscovery else d

def execGrdDiscover (s : State) : Ending :=
  s.upd fun d => d.gw Reg.grdCmd 1 Dev.discover

/-- RESTART returns to LISTEN (R395). -/
def Dev.relisten (d : Dev) : Dev := if d.grid.state.runs then d.onGrid fun g => g.leave .listen else d

def execGrdRestart (s : State) : Ending :=
  s.upd fun d => d.gw Reg.grdCmd 2 Dev.relisten

end Sys2Proof.Machine
end

