-- ==== Sys2Proof/Machine/Security.lean ====
section
/-! DEFINITION. The commands of the key vault, the crypto pool, attestation, the random number generator and the
violation registers (R34, R351 to R374). -/

namespace Sys2Proof.Machine

def execEnrolHe (s : State) : Ending := s.upd fun d => d.gw Reg.secCmd 1 fun d => d.enrol false

def execEnrolVendor (s : State) : Ending := s.upd fun d => d.gw Reg.secCmd 2 fun d => d.enrol true

def execRotateRoot (s : State) : Ending :=
  s.upd fun d => if d.rotateServed then d.gw Reg.secCmd 3 Dev.rotateRoot else if d.recording then d.rotateRoot else d

/-- RNG_RESTART (R371): the start-up test runs; a declared failure is left only when it passes. -/
def Dev.rngRestart (d : Dev) : Dev :=
  if d.sec.cmdBusy then d
  else
    let d1 := d.onSec fun s => { s with cmd := 4 }
    if d.sec.rng = .failed then
      d1.onSec fun s => { s with cmdBusy := true, cmdResult := 0 }
    else d1.cmdDone 1

def execRngRestart (s : State) : Ending := s.upd fun d => d.gw Reg.secCmd 4 Dev.rngRestart

def execLoadChain (len : BitVec 13) (s : State) : Ending := s.upd fun d =>
  d.gw Reg.secCmd (packWord [(16, 13, len.toNat), (0, 4, 5)]) fun d => d.loadChain len.toNat

def execObjectSubmit (slot : Fin 4) (data : Word) (s : State) : Ending := s.upd (Dev.hosted fun d => d.submitObject slot data)

/-- The last operation of a request has ended. What waits for a result tick is covered and has it already (R34); an exchange on
the air interface goes on at its own time (R333); an enrolment waits for random numbers (R371). -/
def Dev.workDone (d : Dev) (r : CryptoReq) : Dev :=
  match r.use with
  | .tagStep _ | .svcStep | .tls _ => d
  | .enrol =>
    if d.sec.rng = .healthy then d.enrolDone
    else if d.sec.rng = .failed then d.cmdDone 12
    else d.onSec fun s => { s with cmdWaits := true }
  | .chain => d.chainChecked
  | u => if d.sec.dues.any fun x => decide (x.use = u) then d else d.dueNow u r.rank

/-- CRYPTO_OPERATION_DONE (R365, R366, R369): the engine is free; a request with more to do returns to its queue with its
admission tick; a cancelled one is discarded. -/
def Dev.operationDone (d : Dev) (kind : EngineKind) (engine : Fin 32) : Dev :=
  match d.freeEngine kind engine with
  | (none, d1) => d1
  | (some r, d1) =>
    if r.cancelled then d1
    else
      let r1 := r.advance
      if r1.ops.isEmpty then d1.workDone r
      else d1.onSec fun s => { s with queue := s.queue ++ [{ r1 with since := d.now }] }

def execCryptoOperationDone (kind : EngineKind) (engine : Fin 32) (s : State) : Ending :=
  s.upd fun d => d.operationDone kind engine

/-- Uses whose result the pool applies by itself at its result tick; the others have a command of their own. -/
def CryptoUse.appliedHere : CryptoUse → Bool
  | .drkTest | .rootTest _ | .contract _ | .attestHost | .attestGrid => true
  | _ => false

/-- The result due now that comes first (R34, R38). -/
def Dev.nextResult (d : Dev) : Option CryptoDue :=
  let ready := d.sec.dues.filter fun x => x.use.appliedHere && decide (x.at? ≤ d.now) && !d.sec.working x.use
  match ready with
  | [] => none
  | x :: xs => some (xs.foldl (fun a b => if b.rank < a.rank then b else a) x)

/-- The lowest tenant whose installed root verifies a contract chain of one to three certificates (R324 path 3). -/
def Dev.chainTenant (d : Dev) (c : ContractChain) : Option TenantId :=
  if c.validity.isEmpty ∨ 3 < c.validity.length then none
  else allTenants.find? fun t =>
    (d.tenant t).root.alg != 0 && Config.chainUnder (d.tenant t).root.alg.toNat (d.tenant t).root.pub c.bytes

/-- The credential of a contract chain (R324 path 3). The end of the first validity period to end is its expiry; a certificate
that is not valid yet fails the verification. -/
def Dev.contractCredential (d was : Dev) (c : ContractChain) (late : Bool) : Credential :=
  let cal := (d.pacer.atTick d.now).cal
  let ends := c.validity.map Prod.snd
  { path := .contract, tenant := (was.chainTenant c).map Fin.val, needsRng := false
    verified := !d.pacer.calSet || c.validity.all fun v => decide (v.1 ≤ cal)
    ident := c.emaid, expiry := some (ends.foldl min (ends.headD 0)), onTarget := true, serial := 0, late := late }

/-- A contract chain has been verified: the decision, at the closure (R323, R324). -/
def Dev.contractDone (d was : Dev) (w : ContractWait) (late : Bool) : Dev :=
  d.judgeCredential was w.link (d.contractCredential was w.chain late)

/-- What the pool applies at a result tick, in place of its producer (R34): covered results wait for the closure. -/
def Dev.applyResult (d : Dev) (x : CryptoDue) : Dev :=
  let key := commitKey x.rank 0
  match x.use with
  | .drkTest => d.commit key .drkTest
  | .rootTest t => d.commit key (.rootTest t)
  | .contract n =>
    match d.sec.contracts.find? fun c => c.link == n with
    | some c => (d.onSec fun s => { s with contracts := s.contracts.erase c }).commit key (.contract c x.overrun)
    | none => d
  | .attestHost => d.attestDone
  | .attestGrid => d.gridRespond
  | _ => d

/-- CRYPTO_RESULT (R34). -/
def Dev.cryptoResult (d : Dev) : Dev :=
  match d.nextResult with
  | none => d
  | some x => (d.onSec fun s => { s with dues := s.dues.erase x }).applyResult x

def execCryptoResult (s : State) : Ending := s.upd Dev.cryptoResult

/-- CRYPTO_OVERRUN (R34): the result tick has come and the work is not done. -/
def Dev.cryptoOverrun (d : Dev) : Dev :=
  match d.sec.dues.find? fun x => decide (x.at? ≤ d.now) && !x.overrun && d.sec.working x.use with
  | none => d
  | some x =>
    (d.onSec fun s => { s with
      dues := s.dues.map fun y => if y = x then { y with overrun := true } else y }).overrun (BitVec.ofNat 32 x.rank)

def execCryptoOverrun (s : State) : Ending := s.upd Dev.cryptoOverrun

def execObjectVerified (path : ObjectPath) (s : State) : Ending := s.upd fun d => d.objectReady path

def execAttestationStart (s : State) : Ending := s.upd (Dev.hosted Dev.attestStart)

/-- A consumer that waited for random numbers is served (R371). -/
def Dev.rngServe (d : Dev) (w : RngWait) : Dev :=
  match w with
  | .slac n evMac runId => if (d.link n).veh.state = .matching then d.slacAnswer n evMac runId else d
  | .tls n => if (d.link n).veh.state = .setup then d.tlsWork n else d
  | .svcAuth1 => d.svcChallenge
  | .tag x =>
    match d.engines.get x with
    | some t =>
      let at' := max t.sendAt d.now
      if uhfEngine x then d.nextRound x t at'
      else match tenantOfNat t.tenant.toNat with
        | some tn => d.sendAuth2 x tn t at'
        | none => d
    | none => d

/-- A consumer that waits completes with RNG_FAIL (R371, R372). What a vehicle waits for fails with its attempt (R262). -/
def Dev.rngRefuse (d : Dev) (w : RngWait) : Dev :=
  match w with
  | .slac .. | .tls _ => d
  | .svcAuth1 => d.svcAnswer [] 0x6985
  | .tag x =>
    match d.engines.get x with
    | some t => if uhfEngine x then d.nextRound x t d.now else d.onEngine x (some (t.ends d.now (.refused 14 t.tenant)))
    | none => d

/-- The RNG is declared failed (R371): held consumers complete with RNG_FAIL in that tick. -/
def Dev.declareFailed (d : Dev) (fails : Nat) : Dev :=
  let waits := d.sec.rngWaits
  let d1 := (d.onSec fun s => { s with rng := .failed, rngFails := fails, rngWaits := [] }).raise .sec 2
  let d2 := (d1.each waits Dev.rngRefuse).failMatching
  if d2.sec.cmdBusy ∧ d2.sec.cmdWaits then (d2.cancel .enrol).cmdDone 12 else d2

/-- A failure of the RNG (R371). The third in a row declares it failed. -/
def Dev.rngFailure (d : Dev) (fails : Nat) : Dev :=
  let d1 := d.count Reg.secRngFailCnt
  if 3 ≤ fails then d1.declareFailed fails else d1.onSec fun s => { s with rng := .restarting, rngFails := fails }

/-- RNG_HEALTH_ALARM (R371): the source restarts. Whether 4,096 bits have passed without an alarm since the last start-up
test, which ends a run of failures, is a free value. -/
def Dev.rngAlarm (d : Dev) : Dev :=
  let d1 := d.raise .sec 1
  if d.sec.rng = .failed then d1
  else if d.sec.rng = .healthy then
    d1.drew.rngFailure (if d.drawn.getLsbD 0 then 1 else d.sec.rngFails + 1)
  else d1.rngFailure (d.sec.rngFails + 1)

def execRngHealthAlarm (s : State) : Ending := s.upd Dev.rngAlarm

/-- RNG_RESTART is under way (R371). -/
def Dev.rngRestarting (d : Dev) : Bool := d.sec.rng == .failed && d.sec.cmdBusy && d.sec.cmd == 4

/-- The command that waits for random numbers is served (R351, R354, R371). -/
def Dev.cmdServe (d : Dev) : Dev :=
  if d.sec.cmdBusy ∧ d.sec.cmdWaits then
    let d1 := d.onSec fun s => { s with cmdWaits := false }
    if d.sec.cmd = 3 then d1.drawRoot
    else if d1.sec.working .enrol then d1 else d1.enrolDone
  else d

/-- RNG_STARTUP_DONE (R371). A passed test restarts generation and serves who waits; a failed one is a failure. -/
def Dev.startupDone (d : Dev) (passed : Bool) : Dev :=
  if d.sec.rng = .healthy ∨ d.sec.rng = .failed ∧ !d.rngRestarting then d
  else if passed then
    let waits := d.sec.rngWaits
    let d1 := d.onSec fun s => { s with
      rng := .healthy, rngSeedAt := d.now, rngGen := 0, rngWaits := [], rngFails := if s.rng = .failed then 0 else s.rngFails }
    if d.rngRestarting then d1.cmdDone 1 else (d1.each waits Dev.rngServe).cmdServe
  else if d.rngRestarting then (d.count Reg.secRngFailCnt).cmdDone 12
  else d.rngFailure (d.sec.rngFails + 1)

def execRngStartupDone (passed : Bool) (s : State) : Ending := s.upd fun d => d.startupDone passed

/-- Reseeded after 65,536 requests or 60 s (R370). -/
def execRngReseed (s : State) : Ending :=
  s.upd fun d =>
    if d.sec.rng = .healthy ∧ (65536 ≤ d.sec.rngGen ∨ d.sec.rngSeedAt + secs 60 ≤ d.now) then
      d.onSec fun x => { x with rngGen := 0, rngSeedAt := d.now }
    else d

/-- Reading SEC_VIOL_CAUSE re-arms recording (R373). -/
def Dev.readViolCause (d : Dev) : Dev := d.onSec fun s => { s with violArmed := true }

def execViolCauseRead (s : State) : Ending := s.upd (Dev.hosted Dev.readViolCause)

/-- A write of 0 clears SEC_WAIT_MAX; any other is ignored (R374). -/
def Dev.writeWaitMax (d : Dev) (data : Word) : Dev := if data = 0 then d.setReg Reg.secWaitMax 0 else d

def execWaitMaxWrite (data : Word) (s : State) : Ending := s.upd (Dev.hosted fun d => d.writeWaitMax data)

end Sys2Proof.Machine
end

