-- ==== Sys2Proof/Machine/Holds.lean ====
section
/-! DEFINITION. The commands of the configuration: holding a function and the load area (R406 to R409, R500). -/

namespace Sys2Proof.Machine

/-- CFG_FN_CTRL as a command spells it (R426). -/
def fnWord (cmd : Nat) (fn : Byte) (inst : BitVec 10) : Word :=
  packWord [(28, 2, cmd), (8, 10, inst.toNat), (0, 8, fn.toNat)]

/-- HOLD (R407, R408). -/
def Dev.fnHold (d : Dev) (fn : Byte) (inst : BitVec 10) : Dev :=
  let code := d.holdRefusal fn inst
  if code ≠ 0 then d.fnRefuse code fn inst else d.takeSlot fn inst

def execFnHold (fn : Byte) (inst : BitVec 10) (s : State) : Ending := s.upd fun d => d.gw Reg.cfgFnCtrl (fnWord 1 fn inst) fun d => d.fnHold fn inst

/-- HOLD_MAX minutes have passed since a tariff was HELD: the device resumes by itself (R191). -/
def Dev.holdExpired (d : Dev) (t : TenantId) : Bool :=
  (d.tenant t).held && decide ((d.tenant t).heldAt + secs (60 * d.field (Reg.bilTCfg t) 16 11) ≤ d.now)

/-- RESUME (R407, R500): a second one has no effect, and so has one of a tariff after HOLD_MAX (R191); the values apply at once
where R409 says so, after a lap closure of this tick (R170, R185). -/
def Dev.fnResume (d0 : Dev) (fn : Byte) (inst : BitVec 10) : Dev :=
  let d := d0.lapFirst
  match d.slotFor fn inst with
  | none => d.fnRefuse 7 fn inst
  | some k =>
    match d.cfg.slots.get k with
    | none => d
    | some h =>
      if h.state = .resumePending ∨ fn = 2 ∧ ((tenantOfNat inst.toNat).map d.holdExpired).getD false then d
      else
        let d1 := (d.setSlot k (some { h with state := .resumePending, since := d.now })).fnStat 0 fn inst
        if resumesAtOnce fn.toNat then d1.applyResume k else d1

def execFnResume (fn : Byte) (inst : BitVec 10) (s : State) : Ending := s.upd fun d => d.gw Reg.cfgFnCtrl (fnWord 2 fn inst) fun d => d.fnResume fn inst

/-- CANCEL (R407, R500). -/
def Dev.fnCancel (d : Dev) (fn : Byte) (inst : BitVec 10) : Dev :=
  match d.slotFor fn inst with
  | none => d.fnRefuse 7 fn inst
  | some k => (d.discardHold k).fnStat 0 fn inst

def execFnCancel (fn : Byte) (inst : BitVec 10) (s : State) : Ending := s.upd fun d => d.gw Reg.cfgFnCtrl (fnWord 3 fn inst) fun d => d.fnCancel fn inst

/-- CMD 0 has no effect (R500). -/
def execFnCmdZero (fn : Byte) (inst : BitVec 10) (s : State) : Ending :=
  s.upd fun d => d.gw Reg.cfgFnCtrl (fnWord 0 fn inst) id

/-- A pending hold becomes HELD (R409). -/
def Dev.holdStep (d0 : Dev) (k : Fin 16) : Dev :=
  let d := d0.lapFirst
  match d.cfg.slots.get k with
  | some h => if h.state = .holdPending ∧ d.holdDue h then d.nowHeld k else d
  | none => d

def execHoldTakesEffect (slot : Fin 16) (s : State) : Ending := s.upd fun d => d.holdStep slot

/-- Held values take effect at their application point (R409). -/
def Dev.resumeStep (d0 : Dev) (k : Fin 16) : Dev :=
  let d := d0.lapFirst
  match d.cfg.slots.get k with
  | some h => if h.state = .resumePending ∧ d.resumeDue h then d.applyResume k else d
  | none => d

def execResumeTakesEffect (slot : Fin 16) (s : State) : Ending := s.upd fun d => d.resumeStep slot

/-! ### The load area (R406) -/

/-- A load command through its guarded pair: one that violates leaves its register as it was. -/
def Dev.loadCmd (d : Dev) (w : Word) (f : Dev → Dev) : Dev := 
  if d.loadServed then d.gw Reg.cfgLoadCmd w f else if d.recording then f d else d

/-- A load command outside STARTING BLOCK and SAFE HALT is an access violation. -/
def Dev.loadBarred (d : Dev) : Dev := d.violation (BitVec.ofNat 32 Reg.cfgLoadCmd) 5 true

/-- WRITE: the buffer goes to the 4 KiB block at CFG_LOAD_OFFSET of the 4 MiB load area. -/
def Dev.loadWrite (d : Dev) : Dev :=
  if !d.loadServed then d.loadBarred
  else if d.cfg.loadBusy ≠ 0 then d
  else
    let off := (d.reg Reg.cfgLoadOffset).toNat / 4096 * 4096
    let block := bytesOfWordsLE (d.words (Reg.cfgLoadBuf 0) 1024)
    d.onCfg fun c => { c with
      loadBusy := 1
      loadArea := if off < 4194304 then (off, block) :: c.loadArea.filter fun b => b.1 != off else c.loadArea }

def execCfgLoadWrite (s : State) : Ending := s.upd fun d => d.loadCmd 0x10000000 Dev.loadWrite

/-- COMMIT: the check of the loaded image begins. -/
def Dev.loadCommit (d : Dev) (len : Nat) : Dev :=
  if !d.loadServed then d.loadBarred
  else if d.cfg.loadBusy ≠ 0 then d
  else d.onCfg fun c => { c with loadBusy := 2, loadLen := len }

def execCfgLoadCommit (len : BitVec 23) (s : State) : Ending := s.upd fun d =>
  d.loadCmd (packWord [(28, 4, 2), (0, 23, len.toNat)]) fun d => d.loadCommit len.toNat

/-- The command in progress ends: a valid image replaces the region, an invalid one is refused with its failed check. -/
def Dev.loadDone (d : Dev) : Dev :=
  let d1 := d.onCfg fun c => { c with loadBusy := 0 }
  if d.cfg.loadBusy ≠ 2 then d1
  else
    let img := d.cfg.loaded d.cfg.loadLen
    let why := d.imageCheck img
    if why = 0 then (d1.onCfg fun c => { c with region := img, loadWhy := 0 }).raise .cfg 3
    else (d1.onCfg fun c => { c with loadWhy := why }).raise .cfg 4 (BitVec.ofNat 32 why)

def execCfgLoadCmdDone (s : State) : Ending := s.upd Dev.loadDone

end Sys2Proof.Machine
end

