-- ==== Sys2Proof/Machine/Updates.lean ====
section
/-! DEFINITION. The commands of a field update (R413 to R424). -/

namespace Sys2Proof.Machine

/-! ### Pieces (R413 to R415, R392) -/

def Dev.onPiece (d : Dev) (c : Fin 2) (f : PieceSlot → PieceSlot) : Dev :=
  d.onUpd fun u => { u with slots := u.slots.set c.1 (f (u.slots.get c)) }

/-- The poisoned word of work memory that holds part of a piece's buffer. -/
def Dev.piecePoison (d : Dev) (c : Fin 2) : Option Nat := d.workPoison (Reg.updPieceBuf c 0) (Reg.updPieceBuf c 1032)

/-- The piece in a slot's buffer. -/
def Dev.pieceOf (d : Dev) (c : Fin 2) (len : Nat) : Piece :=
  let b := bytesOfWordsLE (d.words (Reg.updPieceBuf c 0) 1032)
  { index := (d.reg (Reg.updPieceIndex c)).toNat, data := slice b 0 len, tag := slice b 4096 32 }

/-- UPD_PIECE_SUBMIT (R415): ignored while the slot is BUSY. -/
def Dev.submitPiece (d : Dev) (c : Fin 2) (data : Word) : Dev :=
  if !bitOf data 31 ∨ (d.upd.slots.get c).state = 1 then d
  else
    let p := d.pieceOf c (fieldOf data 0 13)
    (d.onPiece c fun _ => { state := 1, result := 0, piece := some p }).request (.piece (.slot c)) .update
      [deriveOp, hashOp (fieldOf data 0 13 + 10)] false

def execUpdPieceSubmit (slot : Fin 2) (data : Word) (s : State) : Ending := s.upd (Dev.hosted fun d => d.submitPiece slot data)

/-- PIECE_CHECKED (R414). The next piece from the grid link follows the one that leaves its place. -/
def Dev.pieceChecked (d : Dev) (path : PiecePath) : Dev :=
  if !d.resultReady (.piece path) then d
  else
    let d1 := d.finish (.piece path)
    match path with
    | .slot c =>
      match (d.upd.slots.get c).piece with
      | some p =>
        let w := d.piecePoison c
        let code := d.pieceResult true w.isSome p
        ((d1.engineTakes (if code = 6 then w else none)).applyPiece p code).onPiece c fun _ => { state := 2, result := code, piece := none }
      | none => d1
    | .grid =>
      match d.upd.gridPieces with
      | p :: rest =>
        let d2 := (d1.onUpd fun u => { u with gridPieces := rest }).applyPiece p (d.pieceResult false false p)
        if rest.isEmpty then d2 else d2.request (.piece .grid) .update [deriveOp, hashOp 300] false 607
      | [] => d1

def execPieceChecked (path : PiecePath) (s : State) : Ending := s.upd fun d => d.pieceChecked path

def execPartVerified (part : Fin 32) (s : State) : Ending := s.upd fun d => d.partChecked part.1

/-- HEAD_STAGING_DONE (R416): the head's status after VERIFY reads VERIFIED or FAILED. -/
def Dev.stagingEnds (d : Dev) (n : LinkId) : Dev :=
  if (d.link n).lnk.stg = 3 then d.headStaged n true
  else if (d.link n).lnk.stg = 4 then d.headStaged n false
  else d

def execHeadStagingDone (link : LinkId) (s : State) : Ending := s.upd fun d => d.stagingEnds link

/-! ### Activation (R418 to R421) -/

/-- ACTIVATE (R418). -/
def Dev.updActivate (d : Dev) : Dev :=
  let code := d.activateRefusal
  if code ≠ 0 then d.onUpd fun u => { u with actRefuse := code } else d.activate

def execUpdActivate (s : State) : Ending := s.upd fun d => d.gw Reg.updCmd 1 Dev.updActivate

/-- ABANDON, in any state before ARMING (R418). -/
def Dev.updAbandon (d : Dev) : Dev :=
  match d.upd.state with
  | .receiving | .verifying | .ready | .failed => d.endUpdate 4
  | .activating => if d.upd.step < 3 then d.endUpdate 4 else d
  | _ => d

def execUpdAbandon (s : State) : Ending := s.upd fun d => d.gw Reg.updCmd 2 Dev.updAbandon

/-- A READY manifest whose NOT_AFTER has passed (R418). -/
def Dev.manifestExpired (d : Dev) : Bool :=
  match d.upd.manifest with
  | some m => d.upd.state == .ready && d.pacer.calSet && m.notAfter != 0 && decide (m.notAfter < d.pacer.cal)
  | none => false

def execManifestExpiry (s : State) : Ending := s.upd fun d => if d.manifestExpired then d.endUpdate 5 else d

/-- Steps 2 and 3 of R420: with all feedback open and no live session (R279) ACTIVATION is entered and the heads are armed. A supply warning pauses the
step. -/
def Dev.activationEntry (d : Dev) : Dev :=
  if d.upd.state = .activating ∧ d.upd.step = 1 ∧ d.allOpen ∧ d.liveSessions = 0 ∧ !d.warned ∧ (d.mode = .run ∨ d.mode = .economy) then
    (d.trigger .toActivation).armHeads
  else d

def execActivationEntry (s : State) : Ending := s.upd Dev.activationEntry

/-- A contactor still closed 30 s after ACTIVATE (R420). -/
def Dev.activationTimeout (d : Dev) : Dev :=
  if d.upd.state = .activating ∧ d.upd.step = 1 ∧ d.upd.stepAt + secs 30 ≤ d.now ∧ !d.allOpen ∧ !d.warned then
    (d.onUpd fun u => { u with state := .ready, step := 0 }).raise .upd 4
  else d

def execActivationStopTimeout (s : State) : Ending := s.upd Dev.activationTimeout

/-- Every staged head is armed: step 4. One is not VERIFIED, a write failed twice, or 1 s has passed: the retreat begins (R420). -/
def Dev.headsArmed (d : Dev) : Dev :=
  if d.arming ∧ d.mode = .activation ∧ !d.warned then
    if d.upd.staged.all d.upd.armed.contains then d.swap
    else if d.upd.armBad ∨ d.upd.stepAt + secs 1 < d.now then d.retreat 3
    else d
  else d

def execHeadsArmed (s : State) : Ending := s.upd Dev.headsArmed

/-- The loader has written the device parts and checked the regions (R421). -/
def Dev.loaderDone (d : Dev) (ok : Bool) (took : Word) : Dev :=
  if d.upd.record = .swapping ∧ d.upd.step = 5 ∧ !d.power.resetHeld then
    let d1 := d.setReg Reg.updSwapMs took
    if ok then d1.swapped else d1.retreat 3
  else d

def execLoaderWriteDone (hashesOk : Bool) (ms : Word) (s : State) : Ending := s.upd fun d => d.loaderDone hashesOk ms

/-! ### Confirmation (R423, R424) -/

/-- CONFIRM accepted or refused (R423). -/
def Dev.healthConfirm (d : Dev) (data : Word) : Dev :=
  if !bitOf data 0 then d
  else if d.confirmable then d.confirm
  else d.raiseAlways .upd 7

def execHealthConfirm (data : Word) (s : State) : Ending := s.upd fun d =>
  d.gw Reg.updHealthConfirm (data &&& 1) fun d => d.healthConfirm data

/-- The window ends unconfirmed (R424, R446). -/
def Dev.windowExpired (d : Dev) : Dev :=
  if d.upd.state = .confirming ∧ d.upd.windowOpen ∧ d.reg Reg.updConfirmLeft = 0 then 
    (d.lastWord 5 ((d.upd.manifest.map fun m => m.serial.toNat).getD 0)).retreat 2
  else d

def execConfirmWindowExpiry (s : State) : Ending := s.upd Dev.windowExpired

end Sys2Proof.Machine
end

