-- ==== Sys2Proof/Machine/MemOps.lean ====
section
/-! DEFINITION. Operations of the on-chip memories, the scrubber, the record ring in NOR flash and the archive (R428 to R435,
R447 to R455). -/

namespace Sys2Proof.Machine

/-! ### Mirrored words (R429, R430) -/

/-- What a read of a mirrored word settles (R430). -/
inductive Settled where
  | clean | repaired | poison
  deriving DecidableEq, Repr

/-- The table of R430. -/
def settle (a b : Copy) : Settled :=
  match a.good, b.good with
  | true, true =>
    if a.ver = b.ver then (if a.data = b.data then .clean else .poison)
    else if a.ver = b.ver + 1 ∨ b.ver = a.ver + 1 then .repaired
    else .poison
  | true, false | false, true => .repaired
  | false, false => .poison

/-! ### Poison (R435, R48) -/

/-- Words of the event ring and of the record queue (R432). -/
def ringWordCount : Nat := 524288

def queueWordCount : Nat := 131072

def ledgerWordCount : Nat := 1048576

def workWordCount : Nat := 12582912

/-- Every session of a tenant is brought to a controlled stop (R48). -/
def Dev.stopTenant (d : Dev) (t : TenantId) : Dev :=
  d.each (d.sessionsOf t) fun d n => d.startStop n .credit (602 * 4)

/-- POISON_RESPONSE (R48): what the keeper of a poisoned quantity does. Of a tenant's registers, whether it is the consumed
total is a free value. -/
def Dev.poisonResponse (d : Dev) (word : Nat) : Dev :=
  if word < ringWordCount then d.retireBlock (Fin.ofNat 64 (word / 8192))
  else if word < ringWordCount + queueWordCount then
    let slot := (word - ringWordCount) / 128
    d.onBilling fun b => { b with
      records := b.records.map fun r => if r.seq % 1024 = slot ∧ !r.signed then { r with poisoned := true } else r }
  else match Config.ledgerHolder word with
    | .ownership n => (d.consumePoison false word).deviceCause 0x34 0 [n] n.1
    | .tokenAccount => (d.consumePoison false word).deviceCause 0x35 0
    | .tenant t =>
      (((d.consumePoison false word).onTenant t fun x => { x with
        poisoned := true, consumedPoisoned := x.consumedPoisoned || d.drawn.getLsbD 0 }).drew.raise (.bilT t) 6).stopTenant t
    | .legal n | .lapEnergy n => (d.consumePoison false word).onBill n fun b => { b with poison := true }
    | .recordQueue s => d.onBilling fun b => { b with
        records := b.records.map fun r => if r.seq % 1024 = s.1 ∧ !r.signed then { r with poisoned := true } else r }
    | .nothing | .other => d

/-- A ledger word has been written whole since it was found poisoned, and carries poison no longer (R431, R435): `was` is the
device at the closure before. Of the words of R432 that hold state, those that the rules rewrite. -/
def Dev.rewritten (d was : Dev) (word : Nat) : Bool :=
  let slotNew := fun (slot : Nat) => decide (was.bill.nextSeq < d.bill.nextSeq) && d.bill.records.any fun r =>
    decide (r.seq % 1024 = slot) && decide (was.bill.nextSeq ≤ r.seq) && !r.poisoned
  if word < ringWordCount then false
  else if word < ringWordCount + queueWordCount then slotNew ((word - ringWordCount) / 128)
  else match Config.ledgerHolder word with
    | .ownership n => (d.link n).group.owner != (was.link n).group.owner || (d.link n).group.state != (was.link n).group.state
    | .tenant t => !(d.tenant t).poisoned
    | .lapEnergy n => !(d.link n).bill.poison
    | .recordQueue s => slotNew s.1
    | .tokenAccount | .legal _ | .nothing | .other => false

def Dev.clearRewritten (d was : Dev) : Dev :=
  if d.mem.poisonLedger.isEmpty then d
  else d.onMem fun m => { m with poisonLedger := m.poisonLedger.filter fun w => !d.rewritten was w }

/-- A ledger word is found poisoned. -/
def Dev.poisonLedger (d : Dev) (word : Nat) : Dev :=
  if d.mem.poisonLedger.contains word then d
  else
    ((d.onMem fun m => { m with poisonLedger := word :: m.poisonLedger }).raise .mem 1
      (BitVec.ofNat 32 (4 * word))).poisonResponse word

/-- LEDGER_REPAIR (R430). -/
def Dev.ledgerRepair (d : Dev) : Dev := (d.count Reg.memCorrCnt).raise .mem 0

/-! ### The scrubber (R434) -/

/-- The next place of a pass, and the pass counted at its end. -/
def Dev.scrubLedgerNext (d : Dev) (word : Nat) : Dev :=
  if word + 1 < ledgerWordCount then d.onMem fun m => { m with scrubLedger := word + 1 }
  else (d.onMem fun m => { m with scrubLedger := 0 }).setField Reg.memScrubPass 16 16 (d.field Reg.memScrubPass 16 16 + 1)

def Dev.scrubWorkNext (d : Dev) (word : Nat) : Dev :=
  if word + 1 < workWordCount then d.onMem fun m => { m with scrubWork := word + 1 }
  else (d.onMem fun m => { m with scrubWork := 0 }).setField Reg.memScrubPass 0 16 (d.field Reg.memScrubPass 0 16 + 1)

/-- A read of a ledger word settled by the table (R430). A word that is poisoned stays so until it is written whole (R431). -/
def Dev.readLedger (d : Dev) (word : Nat) (a b : Copy) : Dev :=
  if ledgerWordCount ≤ word ∨ d.mem.poisonLedger.contains word then d
  else match settle a b with
    | .clean => d
    | .repaired => d.ledgerRepair
    | .poison => d.poisonLedger word

/-- The scrubber reads the next ledger word. -/
def Dev.scrubLedger (d : Dev) (a b : Copy) : Dev := (d.readLedger d.mem.scrubLedger a b).scrubLedgerNext d.mem.scrubLedger

/-- The scrubber reads the next word of work memory (R433): bad parity poisons it. A word of the code region is poisoned until its
page has been read again. -/
def Dev.scrubWork (d : Dev) (bad : Bool) : Dev :=
  let word := d.mem.scrubWork
  let d1 := if !bad ∨ d.mem.poisonWork.contains word then d
    else (d.onMem fun m => { m with poisonWork := word :: m.poisonWork }).raiseIf (Config.codePage word).isNone .mem 2
      (BitVec.ofNat 32 (4 * word))
  d1.scrubWorkNext word

/-- A parity failure in a slot of the key vault (R346): the two of the Device Root Key, then the two of each tenant. In
either slot of a tenant it empties its root. -/
def Dev.vaultFailure (d : Dev) (slot : Nat) : Dev :=
  if slot < 2 then
    if d.sec.vault.activeB == (slot == 1) then d.onSec fun s => { s with vaultOk := false } else d
  else match tenantOfNat ((slot - 2) / 2) with
    | some t =>
      if (d.tenant t).root.alg ≠ 0 then (d.emptyRoot t).raise .sec 6 (BitVec.ofNat 32 t.1)
      else d
    | none => d

/-- What the first pass of a bring-up finds. -/
def Dev.foundBad (d : Dev) (x : ScrubFound) : Dev :=
  match x with
  | .ledger w a b => d.readLedger w a b
  | .vault k => d.vaultFailure k

/-- The first full ledger scrub pass of a bring-up, with the key vault (R56 step 8, R434); the next pass starts after it. -/
def Dev.firstPass (d : Dev) (found : List ScrubFound) : Dev :=
  (d.each found Dev.foundBad).scrubLedgerNext (ledgerWordCount - 1)

/-- The page of a poisoned code word is read again from NOR flash (R433). -/
def Dev.repairPage (d : Dev) (page : BitVec 16) (ok : Bool) : Dev :=
  if !d.mem.poisonWork.any fun w => Config.codePage w == some page then d
  else if ok then
    (d.onMem fun m => { m with
      codeRetry := none, poisonWork := m.poisonWork.filter fun w => Config.codePage w != some page }).raise .mem 3
        (BitVec.ofNat 32 page.toNat)
  else if d.mem.codeRetry = some page then
    (((d.onMem fun m => { m with codeRetry := none }).lastWord 6 page.toNat).onPower fun p =>
      { p with haltForGood := true }).deviceCause 0x38 0
  else d.onMem fun m => { m with codeRetry := some page }

/-! ### The record ring in NOR flash (R447) -/

/-- TYPE and bytes of a record that waits for its copy. -/
def norEntry : Sum (Nat × List Byte) EventRecord → Byte × List Byte
  | .inl r => (1, r.2)
  | .inr e => (2, e.bytes)

/-- The sector after one in the ring. -/
def nextSector (k : Nat) : Nat := (k + 1) % 24576

/-- The sector to erase next: the first after the one being written that has not failed. -/
def Recorder.eraseTarget (r : Recorder) : Nat :=
  (((List.range 24576).map fun i => (r.norHead + 1 + i) % 24576).find? fun k => !r.norSkipped.contains k).getD
    (nextSector r.norHead)

/-- Writing goes on in the sector erased ahead, if there is one. -/
def Recorder.openSector (r : Recorder) : Recorder :=
  match r.norErased with
  | some k => { r with norHead := k, norSeq := r.norSeq + 1, norBytes := 64, norErased := none }
  | none => r

/-- An entry is put into the sector being written. -/
def Recorder.putEntry (r : Recorder) (e : Byte × List Byte) : Recorder :=
  let had := r.norSectors.any fun s => s.sector == r.norHead
  { r with
    norBytes := r.norBytes + 4 + e.2.length
    norCount := r.norCount + 1
    norSectors :=
      if had then
        r.norSectors.map fun s => if s.sector = r.norHead then { s with entries := s.entries ++ [e] } else s
      else r.norSectors ++ [{ sector := r.norHead, seq := r.norSeq, first := r.norCount, entries := [e] }] }

/-- A program of the record ring ends (R447): the copy is confirmed and a signed record's slot freed, or the sector is
skipped for the rest of the power cycle. -/
def Dev.norProgrammed (d : Dev) (ok : Bool) : Dev :=
  match d.recorder.norWait with
  | [] => d
  | w :: rest =>
    let e := norEntry w
    let fits := d.recorder.norBytes + 4 + e.2.length ≤ 4096
    if !fits ∧ d.recorder.norErased.isNone then d
    else
      let d1 := if fits then d else d.onRec Recorder.openSector
      if ok then
        let d2 := d1.onRec fun r => { r.putEntry e with norWait := rest }
        match w with
        | .inl r => d2.onBilling fun b => { b with records := b.records.filter fun x => x.seq != r.1 }
        | .inr _ => d2
      else
        (d1.onRec fun r => { r with norSkipped := r.norHead :: r.norSkipped, norBytes := 4096 }).raise .evr 4

/-- The lowest entry number still in the ring. -/
def Recorder.firstEntry (r : Recorder) : Nat := r.norSectors.foldl (fun m s => min m s.first) r.norCount

/-- A sector erase ends (R447): the sector is the one ahead, its old content gone, or it is skipped. -/
def Dev.norErasedDone (d : Dev) (ok : Bool) : Dev :=
  if d.recorder.norErased.isSome then d
  else
    let k := d.recorder.eraseTarget
    if ok then
      d.onRec fun r => { r with norErased := some k, norSectors := r.norSectors.filter fun s => s.sector != k }
    else (d.onRec fun r => { r with norSkipped := k :: r.norSkipped }).raise .evr 4

/-! ### The archive (R448 to R455) -/

def Dev.onNs (d : Dev) (k : Fin 8) (f : Namespace → Namespace) : Dev :=
  d.onArc fun a => { a with ns := a.ns.set k.1 (f (a.ns.get k)) }

/-- The archive is fitted: MEM_ARC_CFG.EN. -/
def Dev.arcOn (d : Dev) : Bool := d.bit Reg.memArcCfg 31

/-- The controller has been identified (R448). -/
def Archive.known (a : Archive) : Bool := a.state != .off && a.state != .training

/-- CONTENT in force of a namespace (R449, R454): nothing where it has failed or is not used. -/
def Dev.nsContent (d : Dev) (k : Fin 8) : Nat :=
  let x := d.archive.ns.get k
  if x.failed || (d.archive.known && x.size == 0) then 0 else d.settingField (Reg.memXArcNs k) 24 2

/-- Bytes of a block's content (R450). -/
def blockRoom : Nat := 65456

/-- A record entry of R447. -/
def entryBytes (e : Byte × List Byte) : List Byte := [e.1, 0] ++ bytesBE 2 e.2.length ++ e.2

/-- Entries of the record ring from a number on, in order. -/
def Recorder.entriesFrom (r : Recorder) (pos : Nat) : List (Byte × List Byte) :=
  (r.norSectors.flatMap fun s =>
    ((List.range s.entries.length).filterMap fun i => (s.entries[i]?).map fun e => (s.first + i, e))).filterMap fun p =>
      if pos ≤ p.1 then some p.2 else none

/-- The longest front of a list of byte strings that fits into a block. -/
def fitBlock : Nat → List (List Byte) → Nat
  | _, [] => 0
  | room, b :: bs => if b.length ≤ room then 1 + fitBlock (room - b.length) bs else 0

def totalLength (bs : List (List Byte)) : Nat := (bs.map List.length).sum

/-- Enough waits for a waveform block, and for a block of records (R450). -/
def Dev.waveReady (d : Dev) (k : Fin 8) : Bool :=
  2 ≤ d.nsContent k && decide (blockRoom < totalLength ((d.archive.ns.get k).wave.map Prod.snd))

def Dev.recsReady (d : Dev) (k : Fin 8) : Bool :=
  d.nsContent k % 2 == 1 &&
    decide (blockRoom < totalLength ((d.recorder.entriesFrom (d.archive.ns.get k).recPos).map entryBytes))

/-- A namespace with a block's content at hand asks for its sealing, while the buffer has room (R452). -/
def Dev.arcFeed (d : Dev) (k : Fin 8) : Dev :=
  let use := CryptoUse.archive k
  if !d.arcOn ∨ 256 ≤ d.archive.buffer.length ∨ d.sec.working use ∨ (d.sec.dues.any fun x => decide (x.use = use)) then d
  else if d.waveReady k ∨ d.recsReady k then d.request use .archive [deriveOp, gcmOp blockRoom] false
  else d

/-- Records overwritten before they were archived are lost from the archive (R449). -/
def Dev.arcLost (d : Dev) (k : Fin 8) : Dev :=
  if d.nsContent k % 2 = 1 ∧ (d.archive.ns.get k).recPos < d.recorder.firstEntry then
    (d.onNs k fun x => { x with recPos := d.recorder.firstEntry, lostRec := true }).raise .arc 1
  else d

/-- Tick of a record entry. -/
def entryTick (e : Byte × List Byte) : Nat := if e.1 = 1 then fieldBE e.2 0x1C 8 else natLE (slice e.2 0x10 8)

/-- A new epoch begins with this block (R451). -/
def Dev.newEpoch (d : Dev) (k : Fin 8) : Bool :=
  let x := d.archive.ns.get k
  x.bump || (x.size != 0 && decide (x.size ≤ x.place)) || x.root != d.sec.vault.drk.epoch

/-- Content of the next block of a namespace: kind, tick of its first set or record, bytes, and how many sets or records. -/
def Dev.blockContent (d : Dev) (k : Fin 8) : Nat × Nat × List Byte × Nat :=
  let x := d.archive.ns.get k
  if d.waveReady k then
    let n := fitBlock blockRoom (x.wave.map Prod.snd)
    (2, (x.wave.head?.map Prod.fst).getD 0, (x.wave.take n).flatMap Prod.snd, n)
  else
    let es := d.recorder.entriesFrom x.recPos
    let n := fitBlock blockRoom (es.map entryBytes)
    (1, (es.head?.map entryTick).getD 0, (es.take n).flatMap entryBytes, n)

/-- A block is sealed and waits in the buffer (R450, R452). -/
def Dev.sealBlock (d : Dev) (k : Fin 8) : Dev :=
  let x := d.archive.ns.get k
  let fresh := d.newEpoch k
  let epoch := if fresh then d.reg (Reg.memArcNsEpoch k) + 1 else d.reg (Reg.memArcNsEpoch k)
  let no := if fresh then 0 else (d.reg (Reg.memArcNsNext k)).toNat
  let place := if x.size ≠ 0 ∧ x.size ≤ x.place then 0 else x.place
  let c := d.blockContent k
  let head := bytesBE 4 0x41524342 ++ bytesBE 1 k.1 ++ bytesBE 1 c.1 ++ bytesBE 2 (if c.1 = 2 then b2n x.gap else 2 * b2n x.lostRec) ++
    bytesBE 4 epoch.toNat ++ bytesBE 4 0 ++ bytesBE 8 no ++ bytesBE 8 c.2.1 ++ bytesBE 4 (d.reg Reg.pwrCycles).toNat ++
    bytesBE 4 0 ++ padTo 16 x.prevTag ++ List.replicate 8 0
  let nonce := bytesBE 8 no ++ bytesBE 1 k.1 ++ [0, 0, 0]
  let body := Config.gcmSeal (archiveKey d.sec.vault.drk.key k.1 epoch) nonce head (padTo blockRoom c.2.2.1)
  let tag := slice body blockRoom 16
  let block : ArchiveBlock :=
    { ns := k, epoch := epoch, no := no, root := d.sec.vault.drk.epoch, place := place, bytes := head ++ body, tag := tag,
      recEnd := if c.1 = 1 then x.recPos + c.2.2.2 else 0 }
  let d1 := d.onNs k fun x => { x with
    prevTag := tag, bump := false, root := d.sec.vault.drk.epoch, place := place + 1
    gap := if c.1 = 2 then false else x.gap, lostRec := if c.1 = 1 then false else x.lostRec
    wave := if c.1 = 2 then x.wave.drop c.2.2.2 else x.wave, recPos := if c.1 = 1 then x.recPos + c.2.2.2 else x.recPos }
  ((d1.onArc fun a => { a with buffer := a.buffer ++ [block] }).setReg (Reg.memArcNsEpoch k) epoch).setReg
    (Reg.memArcNsNext k) (BitVec.ofNat 32 (no + 1))

/-- Commands are issued to the controller (R453, R454). -/
def Archive.issues (a : Archive) : Bool := (a.state == .ready || a.state == .writing) && !a.held

/-- Blocks go to the controller, oldest first, while commands are free (R448). -/
def Archive.issueWrites (a : Archive) (now : Tick) : Nat → Archive
  | 0 => a
  | fuel + 1 =>
    match a.buffer, (List.finRange 64).find? fun i => (a.cmds.get i).isNone with
    | b :: rest, some i =>
      if a.issues then
        Archive.issueWrites { a with
          buffer := rest, state := .writing
          cmds := a.cmds.set i.1 (some { block := some b, tries := 0, since := now }) } now fuel
      else a
    | _, _ => a

def Dev.arcIssue (d : Dev) : Dev := d.onArc fun a => a.issueWrites d.now 64

/-- No command is outstanding any more. -/
def Archive.idle (a : Archive) : Archive :=
  if a.state = .writing ∧ a.cmds.toList.all Option.isNone then { a with state := .ready } else a

/-- A block written takes its logical place; what stood there is gone. -/
def Namespace.written (x : Namespace) (b : ArchiveBlock) : Namespace :=
  { x with blocks := b :: x.blocks.filter fun o => o.place != b.place }

/-- A write completes (R453): an error is retried once; a second one fails the namespace. -/
def Dev.arcCompletion (d : Dev) (i : Fin 64) (ok : Bool) : Dev :=
  match d.archive.cmds.get i with
  | none => d
  | some c =>
    let free := fun (d : Dev) => (d.onArc fun a => Archive.idle { a with cmds := a.cmds.set i.1 none }).arcIssue
    match c.block with
    | none => d
    | some b =>
      if ok then free (d.onNs b.ns fun x => x.written b)
      else if c.tries = 0 then
        d.onArc fun a => { a with cmds := a.cmds.set i.1 (some { c with tries := 1, since := d.now }) }
      else
        free (((d.onNs b.ns fun x => { x with failed := true, wave := [] }).onArc fun a => { a with
          buffer := a.buffer.filter fun o => o.ns != b.ns }).raise .arc (8 + b.ns.1))

/-- A read in progress ends with a result. -/
def Dev.readEnds (d : Dev) (result page : Nat) : Dev :=
  d.onArc fun a => Archive.idle { a with
    reading := none, result := result, page := page
    cmds := a.cmds.map fun c => c.bind fun x => if x.block.isNone then none else some x }

/-- A command without completion for 2 s resets the controller (R453): what was outstanding is issued again. Three resets
within 10 minutes take the archive down. -/
def Dev.arcTimeout (d : Dev) (i : Fin 64) : Dev :=
  match d.archive.cmds.get i with
  | none => d
  | some c =>
    if d.now < c.since + secs 2 then d
    else
      let back := (d.archive.cmds.toList.filterMap id).filterMap NvmeCmd.block
      let resets := d.now :: d.archive.resets.filter fun t => d.now < t + secs 600
      let down := 3 ≤ resets.length
      let d0 := if d.archive.reading.isSome then d.readEnds 5 0 else d
      let d1 := (d0.onArc fun a => { a with
        buffer := back ++ a.buffer, cmds := Vector.replicate 64 none, resets := resets
        state := if down then .down else .ready }).raise .arc 2
      (d1.raiseIf down .arc 3).arcIssue

/-! ### Reading a block (R455) -/

/-- A GO with a page. -/
def Dev.arcRead (d : Dev) (data : Word) : Dev :=
  let a := d.archive
  let k : Fin 8 := Fin.ofNat 8 (d.field Reg.memArcRdNs 0 3)
  let epoch := d.reg Reg.memArcRdEpoch
  let no := (d.reg Reg.memArcRdBlockHi).toNat * 2 ^ 32 + (d.reg Reg.memArcRdBlockLo).toNat
  let page := fieldOf data 0 4
  if !bitOf data 31 ∨ a.reading.isSome then d
  else if !d.arcOn ∨ !a.issues then d.onArc fun a => { a with result := 6, page := page }
  else if (a.copy.map fun c => decide (c.1 = k.1 ∧ c.2.1 = epoch ∧ c.2.2.1 = no)).getD false then
    d.onArc fun a => { a with result := 1, page := page }
  else match (a.ns.get k).blocks.find? fun b => b.epoch == epoch && b.no == no with
    | none => d.onArc fun a => { a with result := 4, page := page }
    | some b =>
      if b.root ≠ d.sec.vault.drk.epoch then d.onArc fun a => { a with result := 3, page := page }
      else
        d.onArc fun a => { a with
          reading := some (k.1, epoch, no, page), result := 0
          cmds := match (List.finRange 64).find? fun i => (a.cmds.get i).isNone with
            | some i => a.cmds.set i.1 (some { block := none, tries := 0, since := d.now })
            | none => a.cmds }

/-- The bytes of a block are there, or the read has failed. -/
def Dev.arcReadDone (d : Dev) (res : ArcRead) : Dev :=
  match d.archive.reading with
  | none => d
  | some (k, epoch, no, page) =>
    match res with
    | .ioError => d.readEnds 5 page
    | .data b =>
      let head := slice b 0 64
      let good := fieldBE b 0 4 = 0x41524342 ∧ fieldBE b 4 1 = k ∧ fieldBE b 8 4 = epoch.toNat ∧ fieldBE b 0x10 8 = no
      let nonce := bytesBE 8 no ++ bytesBE 1 k ++ [0, 0, 0]
      match Config.gcmOpen (archiveKey d.sec.vault.drk.key k epoch) nonce head (slice b 64 (blockRoom + 16)) with
      | some text =>
        if good then
          let tag := slice b 0xFFF0 16
          ((d.setRegs (Reg.memArcRdTag 0) (wordsOfBytes tag)).readEnds 1 page).onArc fun a => { a with
            copy := some (k, epoch, no, head ++ padTo blockRoom text ++ tag) }
        else d.readEnds 2 page
      | none => d.readEnds 2 page

/-- The controller is identified after the link has trained (R448): the sizes of its first eight namespaces in archive blocks, and
whether it has one beyond them. Namespaces beyond 2^52 bytes in all are not used. -/
def Dev.arcIdentify (d : Dev) (sizes : Vector Nat 8) (more : Bool) : Dev :=
  let upTo := fun (k : Nat) => (sizes.toList.take (k + 1)).sum
  let d1 := d.onArc fun a => { a with
    ns := Vector.ofFn fun k : Fin 8 => { a.ns.get k with size := if upTo k.1 ≤ 2 ^ 36 then sizes.get k else 0 } }
  (d1.onArc fun a => { a with buffer := a.buffer.filter fun b => (a.ns.get b.ns).size != 0 }).raiseIf
    (decide (2 ^ 36 < upTo 7) || more) .arc 4

/-- The port trains once the device is up, if it is fitted (R448); blocks that waited for a resume are issued (R454). -/
def Dev.arcGate (d : Dev) : Dev :=
  if d.archive.state = .off ∧ d.arcOn ∧ d.power.bringup = .done then d.onArc fun a => { a with state := .training }
  else d.arcIssue

/-- A sample set of a namespace (R449): kept, or dropped as a gap where the buffer is full (R452). -/
def Dev.arcSample (d : Dev) (k : Fin 8) (bytes : List Byte) : Dev :=
  if bytes.isEmpty ∨ !d.arcOn ∨ d.nsContent k < 2 then d
  else if 256 ≤ d.archive.buffer.length then ((d.onNs k fun x => { x with gap := true }).count Reg.memArcGapCnt).raise .arc 0
  else (d.onNs k fun x => { x with wave := x.wave ++ [(d.now, bytes)] }).arcFeed k

end Sys2Proof.Machine
end

