-- ==== Sys2Proof/Machine/Memories.lean ====
section
/-! DEFINITION. The commands of the memories, the event recorder and the archive (R433 to R455). -/

namespace Sys2Proof.Machine

/-- The scrubber reads its next word (R434); it stops in DORMANT and while the core is held in reset. -/
def Dev.scrub (d : Dev) (t : ScrubTarget) : Dev :=
  if d.mode = .dormant ∨ d.power.resetHeld then d
  else match t with
    | .ledger a b => d.scrubLedger a b
    | .work bad => d.scrubWork bad
    | .vault k bad => if bad then d.vaultFailure k else d

/-- ENTER_RUN (R56 steps 6 to 8): firmware and keys as found, and what the first full ledger scrub pass finds; a firmware found
invalid while the journal holds entries is a retreat (R424). While the RNG tests itself the re-masking walk of step 7 waits (R345,
R371). -/
def Dev.enterRunStep (d : Dev) (fwOk keysOk : Bool) (found : List ScrubFound) : Dev :=
  if d.power.bringup = .starting ∧ d.power.bringupFault.isNone ∧ (d.mode = .startingBlock ∨ d.mode = .safeHalt) ∧
      d.sec.rng ≠ .startup ∧ d.sec.rng ≠ .restarting then
    if !fwOk then
      if d.upd.journal.isSome then d.retreat 2 else d.bringupFails .fwInvalid none
    else if !keysOk then (d.onSec fun s => { s with vaultOk := false }).bringupFails .keyFail (some 2)
    else ((d.onSec fun s => { s with vaultOk := true }).firstPass found).enterRun
  else d

def execEnterRun (fwOk keysOk : Bool) (found : List ScrubFound) (s : State) : Ending :=
  s.upd fun d => d.enterRunStep fwOk keysOk found

def execScrubStep (target : ScrubTarget) (s : State) : Ending := s.upd fun d => d.scrub target

def execCodePageRepair (page : BitVec 16) (hashOk : Bool) (s : State) : Ending := s.upd fun d => d.repairPage page hashOk

/-- EVR_CURSOR selects the record of EVR_WIN (R443). -/
def execEvrCursorWrite (data : Word) (s : State) : Ending := s.upd (Dev.hosted fun d => d.setReg Reg.evrCursor data)

/-- EVR_NOR_SECT selects the sector of EVR_NOR_WIN (R447). -/
def execEvrNorSectWrite (data : Word) (s : State) : Ending :=
  s.upd (Dev.hosted fun d => d.setReg Reg.evrNorSect (BitVec.ofNat 32 (fieldOf data 0 15)))

/-- RETEST is served in MAINTENANCE with the seal open (R445). -/
def Dev.retest (d : Dev) : Dev :=
  if d.mode = .maintenance ∧ d.bill.sealOpen then d.onRec fun r => { r with retesting := true } else d

def execEvrRetest (s : State) : Ending := s.upd fun d => d.gw Reg.evrCmd 1 Dev.retest

/-- The test ends (R445): blocks that passed rejoin at the next block boundary of the ring, at once where the ring takes no
records. -/
def Dev.retestDone (d : Dev) (passed : BitVec 64) : Dev :=
  if !d.recorder.retesting then d
  else
    let d1 := d.onRec fun r => { r with retesting := false, rejoin := r.rejoin ||| (passed &&& r.retired) }
    let d2 := if d1.recorder.dead then
        d1.onRec fun r =>
          let r1 := { r with retired := r.retired &&& ~~~r.rejoin, rejoin := 0 }
          if 4 ≤ r1.inService then { r1 with dead := false, headBlock := r1.nextBlock r1.headBlock, headPlace := 0 } else r1
      else d1
    let d3 := d2.onMem fun m => { m with poisonLedger := m.poisonLedger.filter fun w =>
      !(decide (w < ringWordCount) && passed.getLsbD (w / 8192)) }
    d3.raise .evr 5

def execRetestDone (passed : BitVec 64) (s : State) : Ending := s.upd fun d => d.retestDone passed

/-- MEM_LW_CLEAR empties the last-word table (R446). -/
def Dev.clearLastWords (d : Dev) : Dev := d.onMem fun m => { m with lastWords := [], lwNext := 0, lwCount := 0 }

def execLwClear (s : State) : Ending := s.upd fun d => d.gw Reg.memLwClear 1 Dev.clearLastWords

/-- Reading MEM_POISON_ADDR re-arms recording (R435, R456). -/
def Dev.readPoisonAddr (d : Dev) : Dev := d.onMem fun m => { m with poisonArmed := true }

def execPoisonAddrRead (s : State) : Ending := s.upd (Dev.hosted Dev.readPoisonAddr)

/-- A program of the record ring ends; what was waiting for a slot is issued, and the archive follows the ring. -/
def Dev.programDone (d : Dev) (ok : Bool) : Dev := (d.norProgrammed ok).each (List.finRange 8) Dev.arcFeed

def execNorProgramDone (ok : Bool) (s : State) : Ending := s.upd fun d => d.programDone ok

def execNorEraseDone (ok : Bool) (s : State) : Ending :=
  s.upd fun d => (d.norErasedDone ok).each (List.finRange 8) Dev.arcLost

/-- ARCHIVE_BLOCK_SEALED (R452). -/
def Dev.blockSealed (d : Dev) (k : Fin 8) : Dev :=
  if d.resultReady (.archive k) ∧ d.archive.buffer.length < 256 then
    let d1 := d.finish (.archive k)
    if d.waveReady k ∨ d.recsReady k then ((d1.sealBlock k).arcIssue).arcFeed k else d1
  else d

def execArchiveBlockSealed (ns : Fin 8) (s : State) : Ending := s.upd fun d => d.blockSealed ns

def execNvmeCompletion (cmd : Fin 64) (status : NvmeStatus) (s : State) : Ending :=
  s.upd fun d => d.arcCompletion cmd (status == .ok)

def execNvmeTimeout (cmd : Fin 64) (s : State) : Ending := s.upd fun d => d.arcTimeout cmd

def execArcReadGo (data : Word) (s : State) : Ending := s.upd (Dev.hosted fun d => d.arcRead data)

def execArcReadDone (res : ArcRead) (s : State) : Ending := s.upd fun d => d.arcReadDone res

/-- The PCIe link completes training (R448): the port is ready, at no more than the generation of MEM_ARC_CFG. -/
def Dev.arcTrained (d : Dev) (gen : Fin 4) (sizes : Vector Nat 8) (more : Bool) : Dev :=
  if d.arcOn ∧ (d.archive.state = .off ∨ d.archive.state = .training) then
    (d.onArc fun a => { a with state := .ready, gen := min gen.1 (d.field Reg.memArcCfg 0 2) }).arcIdentify sizes more |>.arcIssue
  else d

def execPcieLinkTrained (gen : Fin 4) (sizes : Vector Nat 8) (more : Bool) (s : State) : Ending :=
  s.upd fun d => d.arcTrained gen sizes more

end Sys2Proof.Machine
end

