-- ==== Sys2Proof/Machine/IoOps.lean ====
section
/-! DEFINITION. Operations of the display, the scroll, the keys and the auxiliary channels (R206, R207, R458 to R475). -/

namespace Sys2Proof.Machine

/-! ### Content (R206, R207, R462) -/

def blankCell : Nat := 17

/-- The lowest `n` digits of a number in a base, rightmost first; above the first `must` digits, leading zeros stay blank. -/
def digits (base must : Nat) : Nat → Nat → List Nat
  | 0, _ => []
  | n + 1, v => (if v = 0 ∧ must = 0 then blankCell else v % base) :: digits base (must - 1) n (v / base)

/-- The decimal point of a cell lit. -/
def pointAt (k : Nat) (cells : List Nat) : List Nat := cells.set k (cells.getD k blankCell + 32)

/-- kWh or kW with three decimals, low 10 digits, from Wh or W. -/
def threeDecimals (v : Nat) : List Nat := pointAt 3 (digits 10 4 10 v)

/-- Year, month and day of a day number, by the civil calendar. -/
def civil (days : Int) : Nat × Nat × Nat :=
  let z := days + 719468
  let doe := (z % 146097).toNat
  let yoe := (doe - doe / 1460 + doe / 36524 - doe / 146096) / 365
  let doy := doe - (365 * yoe + yoe / 4 - yoe / 100)
  let mp := (5 * doy + 2) / 153
  let m := if mp < 10 then mp + 3 else mp - 9
  let y := yoe + (z / 146097).toNat * 400 + (if m ≤ 2 then 1 else 0)
  (y, m, doy - (153 * mp + 2) / 5 + 1)

/-- Local date and time as YYMMDDhhmmss. -/
def dateCells (loc : Int) : List Nat :=
  let c := civil (loc / 86400)
  let s := (loc % 86400).toNat
  digits 10 2 2 (s % 60) ++ digits 10 2 2 (s / 60 % 60) ++ digits 10 2 2 (s / 3600) ++ digits 10 2 2 c.2.2 ++
    digits 10 2 2 c.2.1 ++ digits 10 2 2 c.1

/-- Local seconds of a calendar second (R201). -/
def Dev.localTime (d : Dev) (cal : Nat) : Int := cal + 60 * sfieldOf (d.reg Reg.bilCfg) 20 12

/-- h:mm:ss up to 999:59:59 (R206). -/
def durationCells (s : Nat) : List Nat :=
  let t := min s 3599999
  digits 10 2 2 (t % 60) ++ digits 10 2 2 (t / 60 % 60) ++ digits 10 1 3 (t / 3600)

/-- The session that an outlet's items show: the live one, or the last (R216). -/
def LinkBill.shownSession (b : LinkBill) : Option SessionCost := b.session.or b.lastSession

/-- Value cells and indicators of an item of an outlet's list (R206). -/
def Dev.item (d : Dev) (n : LinkId) (code : Nat) : List Nat × List Nat :=
  let b := (d.link n).bill
  let kwh := fun (mwh : Nat) => threeDecimals (mwh / 1000)
  match code with
  | 0x01 => (kwh b.impMwh, [120, 124])
  | 0x02 => (kwh b.expMwh, [120, 125])
  | 0x03 => (kwh ((b.shownSession.map SessionCost.imp).getD 0), [120, 124])
  | 0x04 => (durationCells (match b.session with
      | some s => s.duration d.now
      | none => b.lastDuration), [123])
  | 0x05 => (threeDecimals (d.reg (Reg.bilMdFixP n)).toNat, [121])
  | 0x06 => (dateCells (d.localTime (b.mdAt.get 0)), [])
  | 0x07 => (threeDecimals (d.reg (Reg.bilMdSldP n)).toNat, [121])
  | 0x08 => (dateCells (d.localTime (b.mdAt.get 2)), [])
  | 0x09 => (kwh (b.susp / 3600000), [120])
  | 0x0A => (digits 16 8 8 (d.reg (Reg.metCalCrc n)).toNat, [127])
  | 0x0B => (digits 10 1 10 (d.reg Reg.bilSealCnt).toNat, [137])
  | 0x0C =>
    ((match b.session with
      | some s => digits 10 4 4 s.tenant.1
      | none => List.replicate 4 dashCell) ++ digits 10 2 2 b.slot, [138])
  | 0x0D =>
    match b.session with
    | some s =>
      let c := d.available s.tenant
      (digits 10 1 12 c.natAbs, if c < 0 then [122, 126] else [126])
    | none => ([dashCell], [126])
  | c =>
    if 0x10 ≤ c ∧ c < 0x20 then (kwh (b.slotImp.toList.getD (c - 0x10) 0), [120, 124, 138])
    else if 0x20 ≤ c ∧ c < 0x30 then (kwh (b.slotExp.toList.getD (c - 0x20) 0), [120, 125, 138])
    else ([], [])

/-- A register whose word of the ledger store or of work memory is poisoned (R94, R435). -/
def Dev.regPoisoned (d : Dev) (a : Nat) : Bool :=
  (d.mem.poisonLedger.any fun w => Config.ledgerReg w == some a) || d.mem.poisonWork.any fun w => Config.workReg w == some a

/-- An item whose value is poisoned shows dashes in every digit (R206, R435). -/
def Dev.itemPoisoned (d : Dev) (n : LinkId) (code : Nat) : Bool :=
  let b := (d.link n).bill
  if code = 0x0D then (b.session.map fun s => (d.tenant s.tenant).poisoned).getD false
  else if code = 0x0A then d.regPoisoned (Reg.metCalCrc n)
  else if code = 0x0B then d.regPoisoned Reg.bilSealCnt
  else if code = 0x0C then d.regPoisoned (Reg.bilSlot n)
  else b.poison

def dashed (cells : List Nat) : List Nat := cells.map fun c => if c = blankCell then c else dashCell

/-- The device section (R207): serial, firmware hash, date and time, seal count. -/
def Dev.deviceItem (d : Dev) (k : Nat) : List Nat × List Nat :=
  match k with
  | 0 => (digits 10 10 10 Config.serial.toNat, [])
  | 1 => (digits 16 8 8 (fieldBE (Config.firmwareHash d.upd.fw) 0 4), [127])
  | 2 => (dateCells (d.localTime d.pacer.cal), [])
  | _ => (digits 10 1 10 (d.reg Reg.bilSealCnt).toNat, [137])

/-- The scroll list of an outlet (R206): its own of the image, with the mandatory items. -/
def Dev.scrollOf (d : Dev) (n : LinkId) : List Byte :=
  scrollList (((d.cfg.scroll.find? fun s => s.1.toNat == n.1).map Prod.snd).getD [])

/-- Items in a section; 144 is the device section. -/
def Dev.sectionLen (d : Dev) (sec : Nat) : Nat :=
  match linkOfNat sec with
  | some n => (d.scrollOf n).length
  | none => 4

/-- The content of the glass from committed values (R206, R462). -/
def Dev.content (was : Dev) (mode : Mode) (sc : Scroll) : Scroll :=
  let r := match linkOfNat sc.section_ with
    | some n =>
      let code := ((was.scrollOf n).getD sc.item 0).toNat
      let x := was.item n code
      (if was.itemPoisoned n code then dashed x.1 else x.1, x.2, digits 10 1 3 (n.1 + 1))
    | none => ((was.deviceItem sc.item).1, (was.deviceItem sc.item).2, [dashCell, dashCell, dashCell])
  { sc with value := r.1, bay := r.2.2, lamps := r.2.1 ++ [128 + mode.code] ++ (if sc.frozen then [136] else []) }


/-- Segments a to g of a cell, a in bit 0. -/
def segments (c : Nat) : Nat :=
  [0x3F, 0x06, 0x5B, 0x4F, 0x66, 0x6D, 0x7D, 0x07, 0x7F, 0x6F, 0x77, 0x7C, 0x39, 0x5E, 0x79, 0x71, 0x40].getD (c % 32) 0 +
    (if 32 ≤ c then 0x80 else 0)

/-- Logical elements lit (R462). -/
def Scroll.elements (sc : Scroll) : List Nat :=
  let cells := fun (base : Nat) (cs : List Nat) =>
    (List.range cs.length).flatMap fun i =>
      ((List.range 8).filter fun j => segments (cs.getD i blankCell) / 2 ^ j % 2 == 1).map fun j => base + 8 * i + j
  cells 0 (sc.value.take 12) ++ cells 96 (sc.bay.take 3) ++ sc.lamps

/-- Pixel of an element (R462): none where the element is absent. -/
def Dev.pixelOf (d : Dev) (e : Nat) : Option Nat :=
  let p := d.field (Reg.lioMap (e / 2)) (16 * (e % 2)) 16
  if p < 480 then some p else none

/-- The wanted image as LIO_IMAGE lays it out. -/
def Dev.wantedImage (d : Dev) : Vector Word 15 :=
  let ps := d.scroll.elements.filterMap d.pixelOf
  Vector.ofFn fun k : Fin 15 =>
    BitVec.ofNat 32 (((List.range 32).filter fun b => ps.contains (32 * k.1 + b)).map fun b => 2 ^ b).sum

/-- A pixel of an image. -/
def imagePixel (img : Nat → Word) (p : Nat) : Bool := bitOf (img (p / 32)) (p % 32)

def Dev.mirror15 (d : Dev) (k : Nat) : Word := d.reg (Reg.lioImage k)

def Display.wantWord (x : Display) (k : Nat) : Word := x.want.toList.getD k 0

/-- Pixels of a common that differ between the wanted image and the mirror. -/
def Dev.rowDiff (d : Dev) (c : Nat) : Nat :=
  ((List.range 60).filter fun s =>
    imagePixel d.disp.wantWord (60 * c + s) != imagePixel d.mirror15 (60 * c + s)).length

/-- The mirror takes the wanted row of a common (R463). -/
def Dev.commitRow (d : Dev) (c : Nat) : Dev :=
  d.each (List.range 15) fun d k =>
    let mask := BitVec.ofNat 32 (((List.range 32).filter fun b => (32 * k + b) / 60 == c).map fun b => 2 ^ b).sum
    d.setReg (Reg.lioImage k) ((d.mirror15 k &&& ~~~mask) ||| (d.disp.wantWord k &&& mask))

/-! ### The drive (R458 to R465) -/


/-- The band (R460): the first overdrive entry whose TEMP_UP is at or above the glass temperature, else the last. -/
def Dev.band (d : Dev) (temp : Int) : Nat :=
  ((List.range 8).find? fun k => decide (temp ≤ 10 * sfieldOf (d.reg (Reg.lioOd k)) 24 8)).getD 7

/-- Bistable pulse length in ticks (R460). -/
def Dev.pulseLen (d : Dev) : Nat := 100 * d.field (Reg.lioOd d.disp.band) 0 12

def Dev.dirty (d : Dev) (c : Nat) : Bool := d.bit Reg.lioDirty c

def Dev.setDirty (d : Dev) (c : Nat) (on : Bool) : Dev := d.setField Reg.lioDirty c 1 (b2n on)

/-- The balls read back in a frame, those that differ given by COM0 to COM7, then SEG0 to SEG59 (R465). -/
def Dev.readBack (d : Dev) (differ : BitVec 68) : Dev :=
  let differs := fun (b : Nat) => differ.getLsbD b
  (List.range 68).foldl (fun (d1 : Dev) b =>
    let addr := Reg.lioDispPinfault0 + 4 * (b / 32)
    let run := fun (l : List (Nat × Nat)) => ((l.find? fun p => p.1 == b).map Prod.snd).getD 0
    let put := fun (l : List (Nat × Nat)) (v : Nat) =>
      (if v = 0 then [] else [(b, v)]) ++ l.filter fun p => p.1 != b
    let marked := d1.bit addr (b % 32)
    if differs b then
      let k := run d1.disp.differ + 1
      let d2 := d1.onDisp fun x => { x with differ := put x.differ (min k 3), agree := put x.agree 0 }
      if k = 3 ∧ !marked then (d2.setField addr (b % 32) 1 1).raise .lio 0 (BitVec.ofNat 32 b) else d2
    else
      let k := run d1.disp.agree + 1
      let d2 := d1.onDisp fun x => { x with differ := put x.differ 0, agree := put x.agree (if marked ∧ k < 16 then k else 0) }
      if marked ∧ 16 ≤ k then d2.setField addr (b % 32) 1 0 else d2) d

/-- A bistable write pass begins (R459); in STARTING BLOCK it writes the whole glass with the starting legend, if a common is dirty
(R463). -/
def Dev.startPass (d : Dev) : Dev :=
  let legend := d.onScroll fun x => if d.disp.state = .legend then legendContent x else x
  let d1 := d.onDisp fun x => { x with want := legend.wantedImage, passDue := false, pulseAt := d.now }
  let commons := (List.finRange 8).filter fun c =>
    if d.disp.state = .legend then d.reg Reg.lioDirty != 0 else d1.rowDiff c.1 != 0 || d1.dirty c.1
  let d2 := d1.onDisp fun x => { x with pass := commons }
  match commons with
  | c :: _ => d2.setDirty c.1 true
  | [] => d2

/-- FRAME_HZ in force, at least 1. -/
def Dev.frameTicks (d : Dev) : Nat := 1000000 / max 1 (if d.disp.hz = 0 then d.settingField Reg.lioXDisp 0 8 else d.disp.hz)

/-- A frame boundary (R458, R459): a TN frame is scanned and its image stands on the glass; a bistable pass begins, or is due
when the running one ends. -/
def Dev.displayFrame (d : Dev) (differ : BitVec 68) : Dev :=
  if (d.disp.state ≠ .legend ∧ d.disp.state ≠ .scroll) ∨ d.now < d.disp.frameAt + d.frameTicks then d
  else
    let d1 := (d.onDisp fun x => { x with frameAt := d.now, hz := d.settingField Reg.lioXDisp 0 8 })
    if d.bistable then
      if d1.disp.pass.isEmpty then
        let d2 := d1.startPass
        if d2.disp.pass.isEmpty then d2 else d2.readBack differ
      else (d1.onDisp fun x => { x with passDue := true }).raise .lio 2
    else
      let d2 := (d1.readBack differ).onDisp fun x => { x with polarity := !x.polarity, want := d1.wantedImage }
      d2.each (List.range 15) fun d k => d.setReg (Reg.lioImage k) (d.disp.wantWord k)

/-- Stress counters as LIO_STRESSc shows them (R460). -/
def Dev.addStress (d : Dev) (c n : Nat) : Dev :=
  if n = 0 then d else d.onDisp fun x => { x with stress := if h : c < 8 then x.stress.set c (x.stress.get ⟨c, h⟩ + n) else x.stress }

/-- A bistable pulse ends (R459): its row is committed, the next common is written. -/
def Dev.pulseEnd (d : Dev) : Dev :=
  match d.disp.pass with
  | [] => d
  | c :: rest =>
    if d.now < d.disp.pulseAt + d.pulseLen then d
    else
      let d1 := (((d.addStress c.1 (d.rowDiff c.1)).commitRow c.1).setDirty c.1 false).onDisp fun x =>
        { x with pass := rest, pulseAt := d.now }
      match rest with
      | e :: _ => d1.setDirty e.1 true
      | [] => if d1.disp.passDue then d1.startPass else d1

/-- At a whole second of the calendar a TN glass ages by the pixels that are on (R460), and the values are refreshed
(R206). -/
def Dev.glassSecond (d was : Dev) : Dev :=
  let d1 := if d.bistable ∨ (d.disp.state ≠ .scroll ∧ d.disp.state ≠ .legend) then d
    else d.each (List.range 8) fun d c =>
      d.addStress c ((List.range 60).filter fun s => imagePixel d.mirror15 (60 * c + s)).length
  if d.disp.state = .scroll then d1.onScroll fun x => was.content d.mode x else d1

/-- State of the drive by mode (R463): legend or scroll where the glass is driven. -/
def Mode.display : Mode → DispState
  | .dormant | .waking => .off
  | .startingBlock => .legend
  | _ => .scroll

/-- The drive follows the mode; a stop is over after 1 ms, and it starts again once no warning is present (R463, R464). -/
def Dev.displayGate (d : Dev) (was : Dev) : Dev :=
  let want := d.mode.display
  match d.disp.state with
  | .fault => if want = .off then d.onDisp fun x => { x with state := .off } else d
  | .stopping =>
    if d.power.brace ∨ want = .off then
      if d.disp.stopAt + ms 1 ≤ d.now then d.onDisp fun x => { x with state := .off } else d
    else if d.disp.faultNow then d.onDisp fun x => { x with state := .fault, restartAt := d.now + secs 1 }
    else (d.onDisp fun x => { x with state := want }).onScroll fun x =>
        if want = .scroll then was.content d.mode x else if d.bistable then x else legendContent x
  | st =>
    if d.power.brace ∨ st = want then d
    else
      (d.onDisp fun x => { x with state := want, pass := if want = .off then [] else x.pass }).onScroll fun x =>
        match want with
        | .scroll => was.content d.mode x
        | .legend => if d.bistable then x else legendContent x
        | _ => x

/-- Glass temperature in 0.1 °C (R461): the die temperature, a free value, or T0 of TLINK. -/
def Dev.glassTemp (d : Dev) : BitVec 16 × Bool :=
  let die : BitVec 16 := BitVec.ofNat 16 d.drawn.toNat
  if !d.bit Reg.lioDispCfg 30 then (die, false)
  else match linkOfNat (d.field Reg.lioDispCfg 16 8) with
    | some n =>
      let t := BitVec.ofNat 16 (fieldOf (d.link n).hs.b36 16 16)
      if d.live n ∧ t ≠ 0x8000 then (t, false) else (die, true)
    | none => (die, true)

/-- VLCD_UPDATE (R460), in units of 10 mV. -/
def Dev.vlcdUpdate (d : Dev) : Dev :=
  let t := d.glassTemp
  let k := d.band t.1.toInt
  let age := d.reg Reg.lioDispAge
  let smax := d.disp.stress.toList.foldl max 0
  let ageing := min (fieldOf age 24 8 * (smax / 2 ^ fieldOf age 0 6)) (10 * fieldOf age 16 8)
  let mv : Int := 10 * d.field (Reg.lioOd k) 12 12 + 10 * sfieldOf (d.setting Reg.lioXDisp) 8 8 + ageing
  ((d.onDisp fun x => { x with band := k, temp := t.1, vlcd := (max 2500 (min 5000 mv)).toNat / 10 }).raiseIf t.2 .lio 4).drew

/-! ### Moving the scroll (R207) -/

/-- Sections in order: the device, then the outlets. -/
def Dev.sections (d : Dev) (liveOnly : Bool) : List Nat :=
  144 :: ((d.outlets.filter fun n => !liveOnly || d.sessionLive n).map Fin.val)

/-- The section after one: that of the next outlet, or of the device. -/
def Dev.nextSection (d : Dev) (liveOnly : Bool) (sec : Nat) : Nat :=
  ((d.sections liveOnly).find? fun s => s != 144 && (sec == 144 || decide (sec < s))).getD 144

def Dev.moveTo (d was : Dev) (sec item : Nat) : Dev :=
  d.onScroll fun x => was.content d.mode { x with section_ := sec, item := item }

/-- One item on; past the end of a list, the next section. -/
def Dev.advance (d was : Dev) (liveOnly : Bool) : Dev :=
  let x := d.scroll
  if x.item + 1 < d.sectionLen x.section_ then d.moveTo was x.section_ (x.item + 1)
  else d.moveTo was (d.nextSection liveOnly x.section_) 0

/-! ### Keys (R466 to R470) -/

def Dev.keyThresh (d : Dev) : Int := d.settingField Reg.lioXKey 0 16

def Dev.driftSecs (d : Dev) : Nat := d.settingField Reg.lioXKey 16 8

def Key.delta (k : Key) : Int := k.meas.toNat - k.base.toNat

def otherKey (k : Fin 2) : Fin 2 := 1 - k

/-- A measurement (R466, R468, R469). The first after a bring-up finds a key already touched start-blocked. -/
def Dev.keyMeasured (d : Dev) (k : Fin 2) (meas : BitVec 16) : Dev :=
  let x := d.keys.get k
  let x1 := { x with meas := meas, measAt := d.now }
  let t := d.keyThresh
  let over_ := t ≤ x1.delta
  let low := 4 * x1.delta < 3 * t
  let glitch := !over_ && decide (3 ≤ x.above ∧ x.above ≤ 19) && !x.touched && !x.blocked
  let block := x.first && over_
  let d1 := d.onKey k fun _ => { x1 with
    above := if over_ then min 20 (x.above + 1) else 0, below := if low then min 20 (x.below + 1) else 0
    first := false, blocked := x.blocked || block
    lowSince := sinceWhen x.lowSince d.now (decide (x1.delta ≤ -t)), freeSince := sinceWhen x.freeSince d.now low }
  let d2 := d1.raiseIf block .lio (10 + k.1)
  if glitch then (d2.countField Reg.lioKeyGlitch (16 * k.1) 16).raise .lio 12 else d2

/-- A touch (R466, R467): a touch of HOLD acts at once. -/
def Dev.keyTouched (d was : Dev) (k : Fin 2) : Dev :=
  let x := d.keys.get k
  let o := d.keys.get (otherKey k)
  if x.above < 20 ∨ x.measAt ≠ d.now ∨ x.touched ∨ x.blocked ∨ x.stuck ∨ d.mode = .dormant ∨ d.mode = .waking then d
  else
    let both := o.touched && decide (o.touchAt = d.now)
    let d1 := d.onKey k fun y => { y with touched := true, touchAt := d.now, long := false, ignored := o.touched }
    if both then
      (d1.onKey (otherKey k) fun y => { y with ignored := true }).onScroll fun s =>
        was.content d.mode { s with frozen := was.scroll.frozen, auto := was.scroll.auto, touchAt := was.scroll.touchAt }
    else if o.touched then d1
    else
      let frozen := if d.scroll.frozen then false else k = 1
      d1.onScroll fun s => was.content d.mode { s with frozen := frozen, auto := false, touchAt := d.now }

/-- A release (R466, R467): a short touch of SCROLL advances one item. -/
def Dev.keyReleased (d was : Dev) (k : Fin 2) : Dev :=
  let x := d.keys.get k
  if x.below < 20 ∨ x.measAt ≠ d.now ∨ (!x.touched ∧ !x.blocked) then d
  else
    let short := k = 0 ∧ x.touched ∧ !x.ignored ∧ !x.long ∧ !x.stuck ∧ d.now < x.touchAt + secs 1
    let d1 := d.onKey k fun y => { y with touched := false, blocked := false, ignored := false, long := false }
    if short then (d1.advance was false).onScroll fun s => { s with touchAt := d.now, auto := false } else d1

/-- A long touch of SCROLL passes to the next section (R467). -/
def Dev.keyLong (d was : Dev) : Dev :=
  let x := d.keys.get 0
  if x.touched ∧ !x.ignored ∧ !x.long ∧ !x.stuck ∧ x.touchAt + secs 1 ≤ d.now then
    ((d.onKey 0 fun y => { y with long := true }).moveTo was (d.nextSection false d.scroll.section_) 0).onScroll fun s =>
      { s with touchAt := d.now, auto := false }
  else d

/-- BASE is committed at every lap boundary (R468). -/
def Dev.storeKeys (d : Dev) : Dev := d.each [0, 1] fun d k => d.onKey k fun x => { x with stored := some x.base }

/-! ### Auxiliary channels (R471 to R475) -/

/-- Bit of AUX_EVENTS of a channel (R478). -/
def auxBit (k : Fin 4) (b : Nat) : Nat := 8 * k.1 + b

/-- FAULT (R473, R474): the channel is commanded off. -/
def Dev.auxFault (d : Dev) (n : LinkId) (k : Fin 4) : Dev :=
  (d.auxOff n k).onAux n k fun a => { a with fault := true, offUntil := none, seenOff := false }

/-- BLOCKED (R474): cap applied, off for 5 s, FAULT after TRIES failed retries. -/
def Dev.auxBlocked (d : Dev) (n : LinkId) (k : Fin 4) : Dev :=
  let a := (d.link n).aux.get k
  let d1 := ((d.auxOff n k).onAux n k fun a => { a with tach := .blocked, cap := true }).raise (.aux n) (auxBit k 2)
  if d.field (Reg.auxCfg n k) 24 3 ≤ a.tries then d1.auxFault n k
  else d1.onAux n k fun a => { a with offUntil := some (d.now + secs 5) }

/-- The byte of a channel in status block 34. -/
def auxByte (w : Word) (k : Fin 4) : Nat := fieldOf w (24 - 8 * k.1) 8

/-- The duty a channel is commanded on with. -/
def Dev.auxDuty (d : Dev) (n : LinkId) (k : Fin 4) : Nat :=
  if d.auxCooling n k then d.field (Reg.auxCfg n k) 16 6 else d.field (Reg.auxCmd n) (8 * k.1) 6

/-- What a valid frame says of a channel (R473, R474): over-current answered at once, open load and mismatch timed, edges
counted. -/
def Dev.auxFrame (d : Dev) (n : LinkId) (k : Fin 4) : Dev :=
  let hs := (d.link n).hs
  let a := (d.link n).aux.get k
  let b := auxByte hs.b34 k
  let oc := b / 32 % 2 == 1
  let cnt : BitVec 8 := BitVec.ofNat 8 (auxByte hs.b37 k)
  let on := d.auxFitted n k && d.auxCommanded n k
  let d1 := d.onAux n k fun x => { x with
    lastCnt := cnt, edges := x.edges + (cnt - x.lastCnt).toNat
    openSince := sinceWhen x.openSince d.now (on && b / 64 % 2 == 1), openSet := x.openSet && on && b / 64 % 2 == 1
    misSince := sinceWhen x.misSince d.now (on && b / 128 % 2 == 0 && !oc), misSet := x.misSet && on && b / 128 % 2 == 0 && !oc }
  if a.on ∧ oc then
    let times := d.now :: a.ocTimes.filter fun t => d.now < t + secs 60
    let d2 := ((d1.auxOff n k).onAux n k fun x => { x with ocTimes := times, offUntil := some (d.now + secs 1) }).raise (.aux n)
      (auxBit k 0)
    if 3 ≤ times.length then (d2.auxFault n k).onAux n k fun x => { x with ocTimes := [] } else d2
  else d1

/-- The state that a tachometer gives at a planning lap boundary (R474). In RUNNING a channel that its over-current has switched off
stalls with it. -/
def Dev.tachState (d : Dev) (n : LinkId) (k : Fin 4) : Dev :=
  let a := (d.link n).aux.get k
  let b := auxByte (d.link n).hs.b34 k
  let r := 10 * a.edges
  let min_ := 10 * d.auxMinRate n k
  let d1 := d.onAux n k fun x => { x with rate := r, edges := 0, below := decide (r < min_) }
  if min_ = 0 ∨ !a.on ∧ !(r = 0 ∧ b / 32 % 2 = 1) then d1
  else match a.tach with
    | .spinUp | .stalled =>
      if min_ ≤ r then d1.onAux n k fun x => { x with tach := .running, cap := false, capIn := false, tries := 0 } else d1
    | .running =>
      let ocNow := b / 32 % 2 == 1
      if r = 0 ∧ min_ ≤ a.rate ∧ !ocNow ∧ b / 64 % 2 = 0 then
        (d1.onAux n k fun x => { x with tach := .tachLost }).raise (.aux n) (auxBit k 4)
      else if (r < min_ ∧ a.below) ∨ (r = 0 ∧ ocNow) then
        (d1.onAux n k fun x => { x with tach := .stalled, cap := true }).raise (.aux n) (auxBit k 3)
      else d1
    | _ => d1

/-- TACH_JUDGE (R474), at a planning lap boundary; caps decided since the last one enter the outlet's limit (R475). -/
def Dev.tachJudge (d : Dev) (n : LinkId) (k : Fin 4) : Dev :=
  (d.tachState n k).onAux n k fun a => { a with capIn := a.cap }

/-- A write to AUX_CMD (R472, R473): the byte of a cooling channel is ignored, bit 6 is reserved; a general channel leaves
FAULT by an OFF and then an ON. -/
def Dev.auxCommand (d : Dev) (n : LinkId) (data : Word) : Dev :=
  if d.role n ≠ .outlet then d
  else
    d.each (List.finRange 4) fun d k =>
      if d.auxRole n k ≠ 0 then d
      else
        let byte := fieldOf data (8 * k.1) 8
        let on := byte / 128 = 1
        let d1 := d.setField (Reg.auxCmd n) (8 * k.1) 8 (byte / 128 * 128 + byte % 64)
        let a := (d.link n).aux.get k
        if a.fault then
          if !on then d1.onAux n k fun x => { x with seenOff := true, wanted := false }
          else if a.seenOff then
            (d1.onAux n k fun x => { x with fault := false, seenOff := false, wanted := true, ocTimes := [] }).auxOn n k (byte % 64)
          else d1
        else if on then
          let d2 := d1.onAux n k fun x => { x with wanted := true }
          if a.on then d2.onAux n k fun x => { x with duty := BitVec.ofNat 6 byte }
          else if a.offUntil.isSome then d2
          else d2.auxOn n k (byte % 64)
        else (d1.auxOff n k).onAux n k fun x => { x with wanted := false, offUntil := none }

/-- A cooling channel leaves FAULT, and its cap is lifted, when the outlet returns to IDLE (R473, R475). -/
def Dev.auxIdle (d : Dev) (n : LinkId) : Dev :=
  d.each (List.finRange 4) fun d k =>
    if d.auxCooling n k ∧ ((d.link n).aux.get k).fault then
      d.onAux n k fun x => { x with fault := false, cap := false, capIn := false, tries := 0, tach := .unsupervised, ocTimes := [] }
    else d

end Sys2Proof.Machine
end

