-- ==== Sys2Proof/Machine/FrameOps.lean ====
section
/-! DEFINITION. Head frames: their judgement and where their blocks go, ALARM, the steps of training, link loss and the end
of a head register request (R117 to R142, R251 to R256). -/

namespace Sys2Proof.Machine

/-! ### Pilot and proximity of a valid frame (R251 to R256) -/

/-- Classification of PILOT_HI in 10 mV (R252). -/
def pilotOf (hi : Int) : Pilot :=
  if 1100 ≤ hi ∧ hi ≤ 1300 then .a
  else if 800 ≤ hi ∧ hi ≤ 1000 then .b
  else if 500 ≤ hi ∧ hi ≤ 700 then .c
  else if 200 ≤ hi ∧ hi ≤ 400 then .d
  else if -100 ≤ hi ∧ hi ≤ 100 then .e
  else if -1300 ≤ hi ∧ hi ≤ -1100 then .f
  else .invalid

/-- A PWM plateau in B, C or D whose low side is outside its range (R253). -/
def Dev.diodeBad (d : Dev) (n : LinkId) : Bool :=
  let l := d.link n
  let lo := sfieldOf l.hs.b32 8 12
  l.cmd.pilotMode == 1 && (l.veh.pilot == .b || l.veh.pilot == .c || l.veh.pilot == .d) &&
    !decide (-1300 ≤ lo ∧ lo ≤ -1100)

/-- What a valid frame says of pilot and proximity, and since when it has said so. -/
def Dev.pilotFrame (d : Dev) (n : LinkId) : Dev :=
  let b := (d.link n).hs.b32
  let seen := pilotOf (sfieldOf b 20 12)
  let pp : Byte := BitVec.ofNat 8 (fieldOf b 0 8)
  let bad := d.diodeBad n
  d.onVeh n fun v => { v with
    candSince := if v.cand = some seen then v.candSince else d.now
    cand := some seen
    diodeSince := sinceWhen v.diodeSince d.now bad
    ppSince := if v.ppRaw = pp then v.ppSince else d.now
    ppRaw := pp }

/-- A condition has held for a number of ticks, the open one among them. -/
def heldTicks (since now n : Nat) : Bool := since + n ≤ now + 1

/-! ### Frames -/

/-- The 96 bits of three blocks, bit 95 first (R118). -/
def sliceBits (bs : List Block) (k : Nat) : List Bool :=
  [k, k + 1, k + 2].flatMap fun i => (List.range 32).map fun j => (payloadAt bs i).getLsbD (31 - j)

/-- The 20 bits of a channel in a frame, newest first (R118): channels 0 to 3 in blocks 1 to 3, 4 to 7 of a site head in
blocks 4 to 6. -/
def channelBits (site : Bool) (bs : List Block) (ch : Nat) : List Bool :=
  if ch < 4 then (((sliceBits bs 1).drop (20 * ch)).take 20).reverse
  else if site then (((sliceBits bs 4).drop (20 * (ch - 4))).take 20).reverse
  else List.replicate 20 false

/-- A field of the 768 bits of blocks 4 to 27, bit 767 first, as a signed number (R120). -/
def plcSample (bs : List Block) (k : Nat) : Int :=
  let bit := fun (i : Nat) => (payloadAt bs (4 + i / 32)).getLsbD (31 - i % 32)
  let v := (List.range 10).foldl (fun v j => 2 * v + b2n (bit (10 * k + j))) 0
  if v < 512 then (v : Int) else (v : Int) - 1024

/-- The 75 powerline samples of a frame (R120). -/
def plcSamples (bs : List Block) : List Int := (List.range 75).map (plcSample bs)

/-- The 16 signed bytes of the tag blocks of a frame, the earliest first (R121). -/
def tagSamples (bs : List Block) : List Int := (List.range 16).map fun k => sfieldOf (payloadAt bs (28 + k / 4)) (24 - 8 * (k % 4)) 8

/-- Zeros, for a tick without a valid frame and for a link that carries no such samples (R116, R131). -/
def RxSamples.silent : RxSamples := { plc := List.replicate 75 0, tag := List.replicate 16 0 }

def statusOf (bs : List Block) : HeadStatus :=
  { b32 := payloadAt bs 32, fb := BitVec.ofNat 16 (payloadAt bs 33).toNat, b34 := payloadAt bs 34, b35 := payloadAt bs 35,
    b36 := payloadAt bs 36, b37 := payloadAt bs 37, b38 := payloadAt bs 38, b39 := payloadAt bs 39 }

/-- From the tick that TRAIN_C named, frames are judged (R134 step 4). -/
def Dev.enterConfirm (d : Dev) (n : LinkId) : Dev :=
  let l := (d.link n).lnk
  if l.state = .trainC ∧ (l.firstFrame.map fun t => decide (t ≤ d.now)).getD false then
    d.onLnk n fun x => { x with state := .confirm, goodRun := 0, badRun := 0 }
  else d

/-- The open tick holds no valid frame of a link (R131): counted, on a trained link bridged, samples zero, status kept. A tick
with an ALARM does not count towards loss (R127). -/
def Dev.failedTick (d : Dev) (n : LinkId) : Dev :=
  let d1 := (d.onLnk n fun l => { l with
      judged := true, goodRun := 0, badRun := if l.alarmNow then 0 else l.badRun + 1
      lapFails := l.lapFails + 1 }).count (Reg.lnkFailRx n)
  (applyIf (d.trained n) (fun d => d.onMet n fun m => m.bridge d.now) d1).onLink n fun l =>
    { l with rx := RxSamples.silent }

/-- The frame of the open tick has not come (R131). -/
def Dev.judgeMissing (d : Dev) (n : LinkId) : Dev :=
  let d1 := d.enterConfirm n
  if (d1.link n).lnk.state.framed && !(d1.link n).lnk.judged then d1.failedTick n else d1

/-- What a valid frame of a trained link brings: its blocks reach the blocks of the device that take them (R116 to R123). -/
def Dev.takeFrame (d : Dev) (n : LinkId) (bs : List Block) : Dev :=
  let role := d.role n
  let was := (d.link n).hs
  let d1 := (d.onLink n fun l => { l with
      lnk := { l.lnk with lapRxFail := l.lnk.lapRxFail.or (some (BitVec.ofNat 8 (fieldOf (payloadAt bs 38) 8 8))) }
      hs := statusOf bs
      rx := if role = .outlet then
          { plc := if d.megawatt n then List.replicate 75 0 else plcSamples bs, tag := tagSamples bs }
        else RxSamples.silent }).onMet n fun m =>
    m.takeBits d.now (channelBits (decide (role = .site)) bs)
  let d2 := d1.raiseIf (bitOf (payloadAt bs 38) 28 && !bitOf was.b38 28) (.lnk n) 9
  match role with
  | .outlet => (d2.pilotFrame n).each (List.finRange 4) fun d k => d.auxFrame n k
  | .power => if fieldOf (payloadAt bs 39) 0 16 ≠ 0 then d2.withdraw n .gfault else d2
  | _ => d2

/-- The three reads of a training are asked for: HEAD_ID, HEAD_ROLE and HEAD_FW_VER (R134 step 5, R141). -/
def Dev.askIdentity (d : Dev) (n : LinkId) : Dev :=
  ((d.queueReq n .headId 0x0000 none).queueReq n .headRole 0x0004 none).queueReq n .headFw 0x0008 none

/-- A valid frame (R131). While a link confirms its training, frames are only counted, and the sixteenth in a row brings the
three reads (R134). -/
def Dev.goodFrame (d : Dev) (n : LinkId) (bs : List Block) : Dev :=
  let d1 := d.onLnk n fun l => { l with judged := true, goodRun := l.goodRun + 1, badRun := 0 }
  let l := (d1.link n).lnk
  if d.trained n then d1.takeFrame n bs
  else if l.goodRun = 16 ∧ l.idReads = [] ∧ l.request = none then d1.askIdentity n
  else d1

/-- A frame of the open tick is received on a link whose frames are judged (R113, R117, R131, R142). -/
def Dev.frame (d : Dev) (n : LinkId) (bs : List Block) : Dev :=
  let d0 := d.enterConfirm n
  let l := (d0.link n).lnk
  if l.state.framed && !l.judged then
    let d1 := d0.onLnk n fun l => { l with hdrBad := lockBlocks bs l.hdrBad }
    let bad := badCtrl bs
    let d2 := if bad = 0 then d1 else (d1.count (Reg.lnkBadCtrl n) bad).raise (.lnk n) 11
    if frameValid d.now n.1 bs && hasLock (d2.link n).lnk.hdrBad then d2.goodFrame n bs else d2.failedTick n
  else d

/-- ALARM cause (R129): any value outside the table is taken as 0x08. -/
def alarmCause (arg : BitVec 16) : Nat :=
  let c := arg.toNat / 256
  if 1 ≤ c ∧ c ≤ 8 then c else 8

/-- A valid ALARM block (R127): the first one of a serial is a cause of the sprint path. Its tick, and the next one where a
repeat crosses into it (R130), does not count towards loss. -/
def Dev.alarm (d : Dev) (n : LinkId) (arg : BitVec 16) : Dev :=
  let d0 := d.enterConfirm n
  let l := (d0.link n).lnk
  let serial : BitVec 6 := BitVec.ofNat 6 arg.toNat
  if l.state.framed then
    let d1 := d0.onLnk n fun l => { l with alarmSerial := some serial, alarmNow := true, badRun := 0 }
    if l.alarmSerial = some serial then d1
    else
      ((d1.setReg
        (Reg.lnkAlarmLast n) (packWord [(16, 16, d.now), (0, 16, arg.toNat)])).onProt n fun p =>
          { p with alarmAt := d.now }).causeOn (.lnk n) 1 { code := alarmCause arg, source := 4 * n.1, index := 0 } (some n) [n]
  else d

/-! ### Training (R134 to R137) -/

/-- Links with a role are trained from bring-up step 5 on (R56). -/
def Dev.mayTrain (d : Dev) (n : LinkId) : Bool :=
  d.role n != .unused && (d.power.bringup == .starting || d.power.bringup == .done) && !d.power.resetHeld &&
    d.mode != .dormant && d.mode != .waking && d.power.entering == false

/-- The wait before a training is over (R136, R137). -/
def Dev.trainDue (d : Dev) (n : LinkId) : Bool := ((d.link n).lnk.retryAt.map fun t => decide (t ≤ d.now)).getD true

/-- Bound of a training step, from the start of training (R134). -/
def LinkState.bound : LinkState → Option Nat
  | .trainA => some 50
  | .trainB => some 100
  | .trainC => some 150
  | .confirm => some 200
  | _ => none

/-- The head's TRAIN_A (R134 step 2). -/
def Dev.trainA (d : Dev) (n : LinkId) (arg : BitVec 16) : Dev :=
  if (d.link n).lnk.state = .trainA ∧ d.now ≤ (d.link n).lnk.trainAt + ms 50 then
    (d.onLnk n fun l => { l with
      state := .trainB, echoes := 0, roleSeen := BitVec.ofNat 2 arg.toNat, headProto := BitVec.ofNat 8 (arg.toNat / 256) }).setReg
      (Reg.lnkRtt n) 0
  else d

/-- An echo of TRAIN_B (R134 step 3): markers 1 to 8 in turn. After the last one the device sends TRAIN_C with the tick of the
first frame, which it chooses within the bound of step 4. -/
def Dev.trainB (d : Dev) (n : LinkId) (marker : BitVec 16) (rtt : Word) : Dev :=
  let l := (d.link n).lnk
  if l.state = .trainB ∧ d.now ≤ l.trainAt + ms 100 ∧ marker.toNat = l.echoes + 1 then
    let d1 := d.setReg (Reg.lnkRtt n) (BitVec.ofNat 32 (max (d.reg (Reg.lnkRtt n)).toNat rtt.toNat))
    if l.echoes + 1 < 8 then d1.onLnk n fun x => { x with echoes := l.echoes + 1 }
    else
      (d1.onLnk n fun x => { x with
        echoes := 8, state := .trainC
        firstFrame := some (d.now + 1 + d.drawn.toNat % (l.trainAt + ms 150 - d.now)) }).drew
  else d

/-- Sixteen valid frames and the three reads (R134 step 5, R135). The link is held until its thresholds read back as
written (R291); a reason of R135 holds it beyond that. Protection reads what its injector can do, the grid link the HEAD_GRD_A
of its transmit link. -/
def Dev.trainDone (d : Dev) (n : LinkId) : Dev :=
  let l := (d.link n).lnk
  let headId := l.idReads.getD 0 0
  let headRole := l.idReads.getD 1 0
  let headFw := l.idReads.getD 2 0
  if l.state = .confirm ∧ 16 ≤ l.goodRun ∧ l.idReads.length = 3 ∧ d.now ≤ l.trainAt + ms 200 then
    let d1 := ((d.onLnk n fun x => { x with headRole := headRole, state := .held, heldWhy := .ownDecision }).setReg
      (Reg.lnkHeadId n) headId).setReg (Reg.lnkHeadFw n) headFw
    let why := d1.holdReasons n
    let d2 := d1.each why fun d w => d.raise (.lnk n) w.bit
    let d3 := ((d2.holdLink n (why.headD .ownDecision)).queueReq n .headCaps 0x000C none).startThresholds n
    let d4 := (d3.onProt n fun p => { p with injR := none }).queueReq n .injR 0x7F18 none
    let d5 := d4.queueReq n .injMax 0x7F1C none
    let d5 := if d5.upd.staged.contains n then d5.readStaging n else d5
    let d5 := if (d5.stagingOn n).isSome then d5.stageOn n 0 else d5
    let d6 := if d5.txLink = some n then d5.queueReq n .gridA 0x7F20 none else d5
    let mode := d6.field (Reg.tagLCfg n) 0 3
    let bad := (decide (1 ≤ mode ∧ mode ≤ 3) && !bitOf headRole 3) || (mode == 4 && !bitOf headRole 4)
    (d6.onTag n fun t => { t with mismatch := bad }).raiseIf bad (.tagL n) 3
  else d

/-- A link is declared lost (R137): a cause of the sprint path, TRIP, and training again 10 ms later. -/
def Dev.lose (d : Dev) (n : LinkId) : Dev :=
  let d0 := d.judgeMissing n
  if d0.trained n ∧ 2 ≤ (d0.link n).lnk.badRun then
    let serial := (d0.link n).lnk.tripSerial
    let c : Cause := { code := 0x10, source := 4 * n.1, index := 0 }
    let cls := d0.classOn (d0.tripClass 0x10 0) [n]
    let d1 := d0.causeOn (.lnk n) 0 c (some n) [n]
    let d2 := if (d1.link n).lnk.tripSerial = serial then d1.sendTrip n (max 1 cls) else d1
    let d3 := (d2.onLnk n fun l => l.stop .lost (some (d.now + ms 10))).endBridge n
    let d4 := d3.onVeh n fun v => { v with pilot := .unknown, cand := none, pp := none }
    match d4.role n with
    | .power => if d4.serving then d4.withdraw n .linkHeldOrLost else d4
    | _ => d4
  else d

/-- LNK_CMD.RETRAIN (R142): the link stops and is trained again, unless a contactor is or is commanded closed. -/
def Dev.retrain (d : Dev) (n : LinkId) : Dev :=
  if !d.mayTrain n then d
  else if d.closeBits n ≠ 0 ∨ (d.link n).hs.fb ≠ 0 then d.raise (.lnk n) 10
  else
    let d1 := ((d.onLnk n fun l => l.stop .off none).endBridge n).onVeh n fun v => { v with pilot := .unknown, cand := none, pp := none }
    (match d1.role n with
      | .power => if d1.serving then d1.withdraw n .linkHeldOrLost else d1
      | _ => d1).beginTraining n

/-! ### Head register responses (R139, R140) -/

/-- A request of the device's own that the head rejects, or leaves unanswered twice. One of a training fails it (R134). -/
def Dev.reqFailed (d : Dev) (n : LinkId) (p : RegPurpose) : Dev :=
  match p with
  | .threshWrite k | .threshRead k => d.threshFailed n k
  | .headId | .headRole | .headFw => d.failTraining n
  | .headCaps => (d.onLnk n fun l => { l with headCaps := 0 }).reqDone n
  | .injR => (d.onProt n fun p => { p with injR := some 0 }).reqDone n
  | .stage _ => (d.reqDone n).headStaged n false
  | .stageRead | .stageArm true => if d.arming ∧ d.upd.staged.contains n then (d.reqDone n).armFails else d.reqDone n
  | .stageArm false => (d.reqDone n).writeArm n true
  | _ => d.reqDone n

/-- A response of the head to a request of the device's own. -/
def Dev.reqAnswered (d : Dev) (n : LinkId) (p : RegPurpose) (data : Word) : Dev :=
  match p with
  | .threshRead k => if d.threshMatches n k data then d.threshPassed n k else d.threshFailed n k
  | .headId | .headRole | .headFw => (d.onLnk n fun l => { l with idReads := l.idReads ++ [data] }).reqDone n
  | .headCaps => (d.onLnk n fun l => { l with headCaps := data }).reqDone n
  | .injR => (d.onProt n fun p => { p with injR := some data.toNat }).reqDone n
  | .injMax => (d.onProt n fun p => { p with injMax := data.toNat }).reqDone n
  | .gridA => (d.onGrid fun g => { g with grdA := data }).reqDone n
  | .stage k =>
    let d1 := d.reqDone n
    match d1.stagingOn n with
    | some (_, q) =>
      let last := 17 + (q.imageLen + 3) / 4
      if k = 0 ∧ data.toNat < q.imageLen then d1.failPart ((d1.stagingOn n).map Prod.fst |>.getD 0)
      else if k < last then d1.stageOn n (k + 1)
      else
        let d2 := d1.onLnk n fun l => { l with stg := fieldOf data 0 4 }
        if fieldOf data 0 4 = 2 then d2.stageOn n last else d2
    | none => d1
  | .stageRead => (d.reqDone n).stagingRead n data
  | .stageArm _ => (d.onUpd fun u => { u with armed := if u.armed.contains n then u.armed else u.armed ++ [n] }).reqDone n
  | .stageCtrl 4 => (d.reqDone n).readStaging n
  | .stageCtrl 6 => (d.reqDone n).retrain n
  | _ => d.reqDone n

end Sys2Proof.Machine
end

