-- ==== Sys2Proof/Machine/VehSteps.lean ====
section
/-! DEFINITION. What each happening of a vehicle session does: pilot and proximity, SLAC, the messages of a vehicle, the
bounds of the states, and what the planning lap and the closure of a tick do to an outlet (R252 to R279). -/

namespace Sys2Proof.Machine

/-! ### Plug, unplug and pilot faults (R254) -/

/-- A protocol over powerline or 10BASE-T1S is enabled. -/
def Dev.hlcEnabled (d : Dev) (n : LinkId) : Bool := d.vehBit n 1 || d.vehBit n 2 || d.vehBit n 3

/-- Basic charging with EIM is what a plug-in leads to: an AC outlet with BASIC alone (R255, R265). -/
def Dev.basicOnly (d : Dev) (n : LinkId) : Bool := d.isAc n && d.vehBit n 0 && !d.hlcEnabled n

/-- What the last vehicle negotiated is forgotten: VEH_EV_MAC, VEH_EV_POWER, VEH_EV_VOLT, VEH_EV_CURR, VEH_EV_SOC, VEH_SLAC and
VEH_PUB as at reset (R270, R274, R280, R303). -/
def Dev.forgetVehicle (d : Dev) (n : LinkId) : Dev :=
  (((((((d.setReg (Reg.vehEvMacLo n) 0).setReg (Reg.vehEvMacHi n) 0).setReg (Reg.vehEvPower n) 0).setReg (Reg.vehEvVolt n)
    0).setReg (Reg.vehEvCurr n) 0).setReg (Reg.vehEvSoc n) 0xFF).setReg (Reg.vehSlac n) 0).setReg (Reg.vehPub n) 0

/-- State B is taken in IDLE: PLUG_IN, PLUGGED, new timers (R254). -/
def Dev.plugIn (d : Dev) (n : LinkId) : Dev :=
  let d1 := (d.onVeh n fun v => { v with
    tries := 0, restartAt := none, basic := false, protocol := .none, dynamic := false, tls := false, bpt := false
    contract := false, wait := .none, tempoWaiting := false, slac := none, response := .none, maxDisI := 0, ownDisKw := 0
    cableA := if d.ppMode n = 0 then v.cableA else d.field (Reg.vehCfg n) 16 12 }).toState n .plugged
  let d2 := ((d1.raise (.veh n) 0).countField (Reg.vehCounts n) 16 16).forgetVehicle n
  if (d2.link n).veh.ppFault then d2.enterFault n 7 else d2

/-- An AC outlet with BASIC alone goes on to its authorization once nothing waits (R255, R268). A credential held is applied
there (R267). -/
def Dev.toAuthorizing (d : Dev) (n : LinkId) : Dev :=
  let d1 := d.toState n .authorizing
  match (d1.link n).veh.held with
  | some h => (d1.onVeh n fun v => { v with held := none }).applyCredential n h
  | none => d1

/-- State A is taken (R254, R261): the contactor is commanded open, a live session ends with reason 2, the run is
abandoned, and the outlet is IDLE once its session has ended. -/
def Dev.unplug (d : Dev) (n : LinkId) : Dev :=
  let v := (d.link n).veh
  let d1 := (if v.state = .idle then d else d.raise (.veh n) 14).dropRun n
  let d2 := d1.openNow n .unplug (vehRank n)
  let d3 := d2.onVeh n fun v => { v with
    basic := v.live && v.basic, protocol := if v.live then v.protocol else .none, restartAt := none, wait := .none
    tempoWaiting := false, waitAuth := none, cToBAt := none, pilotFUntil := none, tries := 0, active := false }
  if (d3.link n).veh.live then d3 else d3.toState n .idle

/-- E, F not commanded, or PILOT_FAULT (R254): contactor commanded open, a live session ends with reason 1, FAULT with state F
for 4 s. -/
def Dev.pilotFaulted (d : Dev) (n : LinkId) : Dev :=
  let d1 := (d.raise (.veh n) 6).openNow n .vehicle (vehRank n)
  (d1.enterFault n 8).onVeh n fun v => { v with pilotFUntil := some (d.now + secs 4), cToBAt := none }

/-- What a pilot state does after another (R254). C or D to B on DC ends a session where current flows: the mean over 32 samples
is above STOP_A. -/
def Dev.pilotAction (d1 : Dev) (n : LinkId) (cd : Bool) (p : Pilot) : Dev :=
  let d := d1
  let v := (d.link n).veh
  let closed := (d.link n).cmd.close.getLsbD 0 || d.fb n 0
  match p with
  | .a => d1.unplug n
  | .b =>
    if v.state = .idle then d1.plugIn n
    else if cd && d.isAc n && closed then d1.command n 0 false
    else if cd && d.isDc n && v.live && closed && v.stopWhy == .none && !d.currentAtMost n (d.stopA n) then
      (d1.startStop n .vehicle (vehRank n)).onVeh n fun x => { x with cToBAt := some d.now }
    else d1
  | .d => if !d.vehBit n 10 && closed then d1.startStop n .vehicle (vehRank n) else d1
  | .e => d1.pilotFaulted n
  | .f => if (d.link n).cmd.pilotMode = 2 then d1 else d1.pilotFaulted n
  | _ => d1

/-- A pilot state is taken (R252, R254). While no cable is seen the outlet stands in state A whatever the pilot (R256). -/
def Dev.takePilot (d : Dev) (n : LinkId) (p : Pilot) : Dev :=
  let v := (d.link n).veh
  let cd := v.pilot == .c || v.pilot == .d
  let d1 := d.onVeh n fun x => { x with
    pilot := p
    slac := x.slac.map fun r => if p = .b ∧ cd then { r with toggles := r.toggles + 1 } else r }
  if d.noCable n then d1 else d1.pilotAction n cd p

/-- CABLE_A of a coded cable (R256): none for PP_FAULT. -/
def codedCable (pp : Nat) : Option Nat :=
  if 5 ≤ pp ∧ pp ≤ 13 then some 63
  else if 17 ≤ pp ∧ pp ≤ 30 then some 32
  else if 50 ≤ pp ∧ pp ≤ 100 then some 20
  else if 110 ≤ pp ∧ pp ≤ 250 then some 13
  else if pp = 255 then some 0
  else none

/-- PP_FAULT (R256, R264): no session starts, a live one receives a controlled stop. -/
def Dev.proxFault (d : Dev) (n : LinkId) : Dev :=
  let d1 := (d.onVeh n fun v => { v with ppFault := true }).raise (.veh n) 7
  let v := (d1.link n).veh
  if v.live then d1.startStop n .vehicle (vehRank n)
  else if v.state = .idle ∨ v.state = .ended ∨ v.state = .fault then d1
  else d1.enterFault n 7

/-- A proximity value is taken (R256, R264). No cable counts as state A; once a cable is seen again, the pilot state that stands
counts as taken after A. -/
def Dev.takeProx (d : Dev) (n : LinkId) (pp : Byte) : Dev :=
  let d1 := d.onVeh n fun v => { v with pp := some pp }
  match d.ppMode n with
  | 0 =>
    match codedCable pp.toNat with
    | some a =>
      let d2 := d1.onVeh n fun v => { v with cableA := a, ppFault := false }
      if a = 0 then d2.unplug n
      else if d.noCable n then d2.pilotAction n false (d.link n).veh.pilot
      else d2
    | none => d1.proxFault n
  | 2 => if pp = 0 ∨ pp = 255 then d1.onVeh n fun v => { v with ppFault := false } else d1.proxFault n
  | _ => d1

/-! ### Waiting and matching (R257 to R262, R268) -/

/-- A plug-in that could go on now: nothing but the conditions of R257, R263 and R268 is missing. -/
def Dev.plugReady (d : Dev) (n : LinkId) : Bool :=
  let v := (d.link n).veh
  v.state == .plugged && v.restartAt.isNone && !v.ppFault && d.trained n

/-- Why a plug-in waits, kept at every closure (R268): TEMPO_WAIT is set as a wait for tempo begins. A basic outlet waits for no tempo. -/
def Dev.plugWait (d : Dev) (n : LinkId) : Dev :=
  let v := (d.link n).veh
  if d.plugReady n then
    let w := d.waitReason n
    let basic := d.basicOnly n
    let w1 : WaitWhy := if basic ∧ w = .tempo then .none else w
    let d1 := (d.onVeh n fun x => { x with wait := w1, tempoWaiting := decide (w1 = .tempo) }).raiseIf
      (decide (w1 = .tempo) && !v.tempoWaiting) (.veh n) 12
    if basic ∧ w1 = .none then (d1.onVeh n fun x => { x with basic := true, protocol := .basic }).toAuthorizing n else d1
  else if v.state = .plugged then d
  else if v.tempoWaiting then d.onVeh n fun x => { x with tempoWaiting := false }
  else d

/-- The baseband leaves listen and MATCHING begins (R257); on a megawatt outlet SETUP begins (R263). While the RNG is declared
failed the attempt fails at once as the third one (R262). -/
def Dev.startMatching (d : Dev) (n : LinkId) : Dev :=
  if d.plugReady n ∧ d.hlcEnabled n ∧ d.waitReason n = .none ∧ (!d.megawatt n ∨ (d.link n).veh.pp = some 0) then
    let d1 := d.onVeh n fun v => { v with wait := .none, tempoWaiting := false, slac := none, response := .none, protocol := .none }
    if d.sec.rng = .failed then (d1.raise (.veh n) 3).failAttempt n 1 true
    else (d1.onVeh n fun v => { v with active := true }).toState n (if d.megawatt n then .setup else .matching)
  else d

/-- CM_SLAC_PARM.REQ (R258, R262): answered only while the outlet is MATCHING; the run takes a fresh NMK, and
waits for it while the RNG restarts (R371). -/
def Dev.slacParm (d : Dev) (n : LinkId) (evMac : BitVec 48) (runId : BitVec 64) : Dev :=
  if (d.link n).veh.state = .matching then
    if d.sec.rng = .failed then (d.raise (.veh n) 3).failAttempt n 1 true
    else if d.sec.rng = .healthy then d.slacAnswer n evMac runId
    else (d.dropRngWait (RngWait.ofLink n)).holdForRng (.slac n evMac runId)
  else d

/-- CM_START_ATTEN_CHAR.IND (R258): the sounding window of 600 ms opens. -/
def Dev.soundingStart (d : Dev) (n : LinkId) (runId : BitVec 64) : Dev :=
  if (d.link n).veh.state = .matching then
    d.onVeh n fun v => { v with slac := v.slac.map fun r =>
      if r.runId = runId then { r with soundAt := some d.now, sounds := 0, sum := 0 } else r }
  else d

/-- An entry of the record of R259: one per RunID, those older than 10 s dropped. -/
def hearAt (hs : List Sounding) (runId : BitVec 64) (atten now : Nat) : List Sounding :=
  { runId := runId, atten := atten, at? := now } :: hs.filter fun h => decide (h.runId ≠ runId ∧ now < h.at? + secs 10)

/-- A mean in whole dB; how one that is not whole is rounded is a free value. -/
def Dev.wholeMean (d : Dev) (sum n : Nat) : Nat :=
  if sum % n = 0 then sum / n else sum / n + d.drawn.toNat % 2

/-- A sound is heard at an outlet with the attenuation of each of the 58 carrier groups (R258, R259): its mean enters the record
under its own RunID, and the sound enters the outlet's own run while its window is open. -/
def Dev.sound (d : Dev) (n : LinkId) (runId : BitVec 64) (groups : Vector Byte 58) : Dev :=
  if d.role n = .outlet ∧ d.trained n ∧ !d.megawatt n then
    let total := (groups.toList.map BitVec.toNat).sum
    (d.onVeh n fun v => { v with
      heard := hearAt v.heard runId (d.wholeMean total 58) d.now
      slac := v.slac.map fun r =>
        if r.runId = runId ∧ (r.soundAt.map fun t => decide (d.now < t + ms 600)).getD false ∧ r.sounds < 10 then
          { r with sounds := r.sounds + 1, sum := r.sum + total }
        else r }).drew
  else d

/-- The sounding window ends (R258): with at least 3 sounds the attenuation is reported. -/
def Dev.soundingEnd (d : Dev) (n : LinkId) : Dev :=
  match (d.link n).veh.state, (d.link n).veh.slac with
  | .matching, some r =>
    if heldFor r.soundAt d.now (ms 600) then
      let d1 := d.onVeh n fun v => { v with slac := some { r with soundAt := none } }
      if 3 ≤ r.sounds then
        let m := d.wholeMean r.sum (58 * r.sounds)
        (((d1.onVeh n fun v => { v with heard := hearAt v.heard r.runId m d.now }).setField (Reg.vehSlac n) 0 8 m).answer n
          .attenCharInd).drew
      else d1
    else d
  | _, _ => d

/-- Lowest attenuation of a RunID at the other outlets in the last 10 s (R259). -/
def Dev.attenElsewhere (d : Dev) (n : LinkId) (runId : BitVec 64) : Option Nat :=
  (d.outlets.filter fun m => m != n).foldl (fun acc m =>
    match (d.link m).veh.heard.find? fun h => decide (h.runId = runId ∧ d.now ≤ h.at? + secs 10) with
    | some h => some (match acc with
      | some a => min a h.atten
      | none => h.atten)
    | none => acc) none

/-- MAC address of an outlet (R258): 0x02, bits 31:0 of GLB_NODE, the link number. -/
def evseMac (n : LinkId) : BitVec 48 :=
  BitVec.ofNat 48 (2 * 2 ^ 40 + Config.node.toNat % 2 ^ 32 * 256 + n.1)

/-- CM_SLAC_MATCH.REQ (R258 to R260). -/
def Dev.slacMatch (d : Dev) (n : LinkId) (evMac mac : BitVec 48) (runId : BitVec 64) : Dev :=
  match (d.link n).veh.state, (d.link n).veh.slac with
  | .matching, some r =>
    if r.runId = runId ∧ mac = evseMac n ∧ d.now ≤ r.parmAt + secs 10 then
      match (d.link n).veh.heard.find? fun h => decide (h.runId = runId) with
      | none => d
      | some own =>
        let other := d.attenElsewhere n runId
        let guard := d.settingField (Reg.vehXSlac n) 8 8
        if guard ≠ 0 ∧ (other.map fun a => decide (a + guard < own.atten)).getD false then d.raise (.veh n) 11
        else if d.sec.rng = .failed then (d.raise (.veh n) 3).failAttempt n 1 true
        else
          ((((d.setReg (Reg.vehEvMacLo n) (BitVec.ofNat 32 evMac.toNat)).setReg (Reg.vehEvMacHi n)
            (BitVec.ofNat 32 (evMac.toNat / 2 ^ 32))).setField (Reg.vehSlac n) 8 8 (other.getD 0xFF)).answer n
              .slacMatchCnf).toState n .setup
    else d
  | _, _ => d

/-- CM_VALIDATE (R258, R260): answered with the toggles counted from the pilot states taken; it fails where the vehicle made
another number of them. -/
def Dev.validate (d : Dev) (n : LinkId) (toggles : Nat) : Dev :=
  match (d.link n).veh.state, (d.link n).veh.slac with
  | .matching, some r =>
    if r.toggles = toggles then
      d.answer n (.validateCnf r.toggles)
    else ((d.answer n (.validateCnf r.toggles)).raise (.veh n) 3).failAttempt n 1
  | _, _ => d

/-- SLAC_INIT expires, or the match is not completed in time (R258, R260, R265). -/
def Dev.slacExpiry (d : Dev) (n : LinkId) : Dev :=
  let v := (d.link n).veh
  let init := secs (d.slacInit n)
  let due : Bool := match v.slac with
    | none => decide (v.stateAt + init ≤ d.now)
    | some r => decide (r.parmAt + secs 10 ≤ d.now) || decide (v.stateAt + init + secs 10 ≤ d.now)
  if v.state = .matching ∧ due then (d.raise (.veh n) 3).failAttempt n 1 else d

/-! ### Setup and authorization (R249, R265 to R269) -/

/-- Protocol chosen from what the vehicle offers (R249); a megawatt outlet offers ISO 15118-20 alone (R263). -/
def Dev.chooseProtocol (d : Dev) (n : LinkId) (offered : List Protocol) : Option VehProtocol :=
  if d.megawatt n then
    if offered.contains .iso15118_20 && d.vehBit n 3 then some .megawatt else none
  else if offered.contains .iso15118_20 && d.vehBit n 3 then some .iso15118_20
  else if offered.contains .iso15118_2 && d.vehBit n 2 then some .iso15118_2
  else if offered.contains .din70121 && d.vehBit n 1 then some .din70121
  else none

/-- ISO 15118-20 is served over TLS, ISO 15118-2 and DIN SPEC 70121 without it (R248). -/
def VehProtocol.overTls : VehProtocol → Bool
  | .iso15118_20 | .iso15118_20bpt | .megawatt => true
  | _ => false

/-- SupportedAppProtocol (R248, R249, R260): the protocol chosen cannot be served where TLS stands and it has none, or the other
way round; TLS has then failed. -/
def Dev.appProtocol (d : Dev) (n : LinkId) (offered : List Protocol) : Dev :=
  let v := (d.link n).veh
  if v.state = .setup ∧ v.protocol = .none then
    match d.chooseProtocol n offered with
    | some p =>
      if p.overTls = v.tls then (d.onVeh n fun v => { v with protocol := p }).answer n (.appProtocol p)
      else ((d.answer n .failed).raise (.veh n) 9).failAttempt n 3
    | none => (d.answer n .failed).failAttempt n 10
  else d

/-- A step of the TLS handshake (R248, R260, R262): its key exchange is work for the pool, which waits while
the RNG restarts (R371); a failure fails the attempt, and so does the want of a SECC chain (R352). Once a
protocol without TLS is chosen it breaks the message sequence (R269). -/
def Dev.tlsStep (d : Dev) (n : LinkId) (ok done : Bool) : Dev :=
  let v := (d.link n).veh
  if v.state = .setup ∧ !v.tls then
    if v.protocol ≠ .none then d.badMessage n
    else if d.sec.rng = .failed then (d.raise (.veh n) 9).failAttempt n 3 true
    else if !ok ∨ !d.sec.chainOk then (d.raise (.veh n) 9).failAttempt n 3
    else if done then (d.finish (.tls n)).onVeh n fun v => { v with tls := true }
    else if d.sec.rng = .healthy then d.tlsWork n
    else (d.dropRngWait (RngWait.ofLink n)).holdForRng (.tls n)
  else d

def Dev.sessionSetup (d : Dev) (n : LinkId) (form : V2gForm) : Dev :=
  let v := (d.link n).veh
  if v.state = .setup then
    if form = .bad ∨ v.protocol = .none then d.badMessage n else (d.answer n .ok)
  else if v.talking && v.state != .matching then d.badMessage n
  else d

/-- A contract chain is presented (R324 path 3): a device that does not serve refuses before any crypto work. -/
def Dev.presentContract (d : Dev) (n : LinkId) (c : ContractChain) : Dev :=
  if !d.authServed then (d.showDecision n AuthPath.contract.code 0 16).refuseOutlet n 16
  else
    ((d.onVeh n fun v => { v with contract := true }).onSec fun s => { s with
      contracts := (s.contracts.filter fun w => w.link != n) ++ [{ link := n, chain := c }] }).request (.contract n) .session
      (List.replicate c.validity.length (verifyOp 2)) true (vehRank n)

/-- The vehicle asks for authorization (R265, R267): AUTHORIZING, Ongoing until a credential has been accepted. A contract
certificate is taken under ISO 15118-20 over TLS. -/
def Dev.authRequest (d : Dev) (n : LinkId) (form : V2gForm) (contract : Option ContractChain) : Dev :=
  let v := (d.link n).veh
  let plugCharge := v.tls && (v.protocol == .iso15118_20 || v.protocol == .megawatt)
  match v.state with
  | .setup =>
    if form = .bad ∨ v.response ≠ .ok then d.badMessage n
    else
      let d1 := ((d.answer n .ongoing)).toAuthorizing n
      let d2 := if (d1.link n).veh.live then d1.answer n .ok else d1
      match contract with
      | some c => if plugCharge && !(d2.link n).veh.live then d2.presentContract n c else d2
      | none => d2
  | .authorizing =>
    if form = .bad then d.badMessage n
    else
      let d1 := (d.answer n .ongoing)
      match contract with
      | some c => if plugCharge && !v.contract then d1.presentContract n c else d1
      | none => d1
  | .negotiating => if form = .bad then d.badMessage n else (d.answer n .ok)
  | _ => if v.talking && v.state != .matching then d.badMessage n else d

/-! ### From the negotiation to the end of a session (R265 to R277) -/

/-- The service discovery offers bidirectional transfer (R273). -/
def Dev.offersBpt (d : Dev) (n : LinkId) : Bool :=
  d.vehBit n 4 &&
    match (d.link n).bill.session with
    | some s => d.bit (Reg.tagTCfg s.tenant) 30
    | none => false

/-- What the vehicle agrees is taken and handed on (R265, R270, R274). -/
def Dev.agree (d : Dev) (n : LinkId) (a : Negotiated) : Dev :=
  let v := (d.link n).veh
  let twenty := v.protocol == .iso15118_20 || v.protocol == .megawatt
  let bpt := a.bpt && twenty && d.offersBpt n
  let d1 := (((d.setReg (Reg.vehEvPower n) (packWord [(16, 16, a.maxDisKw.toNat), (0, 16, a.maxChgKw.toNat)])).setField
    (Reg.vehEvVolt n) 16 16 a.maxV.toNat).setField (Reg.vehEvCurr n) 0 16 a.maxI.toNat).onVeh n fun v => { v with
      maxDisI := a.maxDisI, bpt := bpt, dynamic := a.dynamic && twenty
      sched := if twenty ∧ !a.dynamic then some (a.schedA, a.schedKw) else none, reneg := false
      protocol := if bpt ∧ v.protocol = .iso15118_20 then .iso15118_20bpt else v.protocol }
  ((d1.toState n .allocating).refreshReq n).publish n

/-- Service discovery and parameters (R265, R273); a schedule is agreed anew after ScheduleRenegotiation (R271). -/
def Dev.negotiate (d : Dev) (n : LinkId) (form : V2gForm) (agreed : Option Negotiated) : Dev :=
  let v := (d.link n).veh
  if v.state = .negotiating then
    if form = .bad then d.badMessage n
    else
      let d1 := (d.answer n .ok)
      match agreed with
      | some a => d1.agree n a
      | none => d1
  else if v.state = .energy ∧ v.reneg then
    if form = .bad then d.badMessage n
    else (d.answer n .ok).onVeh n fun v => match agreed with
      | some a => { v with sched := some (a.schedA, a.schedKw), reneg := false }
      | none => v
  else if v.talking && v.state != .matching then d.badMessage n
  else d

/-- CableCheckReq (R265, R299): Ongoing until a group is owned, SEG_PREPARE answered and the head at 32 kS/s (R60), then until
the test has passed. -/
def Dev.cableCheck (d : Dev) (n : LinkId) (form : V2gForm) : Dev :=
  let v := (d.link n).veh
  match v.state with
  | .allocating =>
    if form = .bad ∨ d.isAc n then d.badMessage n
    else
      let d1 := (d.answer n .ongoing)
      if v.segAnswered && !(d.owned n).isEmpty && (d.link n).met.fast && !(v.pilot = .d && !d.vehBit n 10) then
        ((((d1.onVeh n fun v => { v with cablePassed := false }).toState n .cableCheck).closeOutlet n).refreshReq n).setpoints n
      else d1
  | .cableCheck =>
    if form = .bad then d.badMessage n
    else (d.answer n (if v.cablePassed then .ok else .ongoing))
  | .stopping => d.answer n v.response
  | _ => if v.talking && v.state != .matching then d.badMessage n else d

/-- Targets of a request, in 0.1 V and 0.1 A. -/
def Dev.setTargets (d : Dev) (n : LinkId) (volts amps : BitVec 16) : Dev :=
  (d.setField (Reg.vehEvVolt n) 0 16 volts.toNat).setField (Reg.vehEvCurr n) 16 16 amps.toNat

def Dev.preCharge (d : Dev) (n : LinkId) (form : V2gForm) (volts amps : BitVec 16) : Dev :=
  let v := (d.link n).veh
  let go := fun (e : Dev) => (((e.setTargets n volts amps).answer n .ok)).setpoints n
  match v.state with
  | .cableCheck => if form = .bad ∨ !v.cablePassed then d.badMessage n else go ((d.toState n .precharge).refreshReq n)
  | .precharge => if form = .bad then d.badMessage n else go d
  | .stopping => d.answer n v.response
  | _ => if v.talking && v.state != .matching then d.badMessage n else d

/-- PowerDelivery start (R265): ENERGY on a DC outlet; an AC outlet answers Ongoing until R255 closes its contactor. -/
def Dev.deliver (d : Dev) (n : LinkId) (form : V2gForm) : Dev :=
  let v := (d.link n).veh
  match v.state with
  | .precharge =>
    if form = .bad then d.badMessage n
    else ((((d.toState n .energy).answer n .ok)).refreshReq n).setpoints n
  | .allocating => if form = .bad ∨ d.isDc n then d.badMessage n else (d.answer n .ongoing)
  | .energy => if form = .bad ∨ d.isDc n then d.badMessage n else (d.answer n .ok)
  | .stopping => d.answer n v.response
  | _ => if v.talking && v.state != .matching then d.badMessage n else d

/-- The vehicle ends the session (R276). -/
def Dev.deliverStop (d : Dev) (n : LinkId) (form : V2gForm) : Dev :=
  let v := (d.link n).veh
  if v.live && v.talking then
    if form = .bad then d.badMessage n
    else if v.state = .stopping then d.answer n v.response
    else (d.answer n .ok).startStop n .vehicle (vehRank n)
  else if v.talking && v.state != .matching then d.badMessage n
  else d

/-- The charge-loop response (R271): the published limits; the first one after a change that falls below the schedule in force
carries ScheduleRenegotiation. -/
def Dev.loopAnswer (d : Dev) (n : LinkId) : Dev :=
  let v := (d.link n).veh
  let a : BitVec 16 := BitVec.ofNat 16 (d.field (Reg.vehPub n) 16 16)
  let kw : BitVec 16 := BitVec.ofNat 16 (d.field (Reg.vehPub n) 0 16)
  let below := v.pubNew && (v.sched.map fun s => decide (a < s.1) || decide (kw < s.2)).getD false
  d.onVeh n fun v => { v with
    response := if v.state = .stopping then v.response else .limits a kw below
    carried := some (a, kw), pubNew := false, reneg := v.reneg || below && v.state != .stopping }

/-- A charge-loop request (R270 to R273). -/
def Dev.chargeLoop (d : Dev) (n : LinkId) (form : V2gForm) (req : ChargeLoop) : Dev :=
  let v := (d.link n).veh
  match v.state with
  | .energy =>
    if form = .bad then d.badMessage n
    else
      let d1 := (((d.setTargets n req.targetV req.targetI).setReg (Reg.vehEvSoc n) (BitVec.ofNat 32 req.soc.toNat)).onVeh n fun v =>
        { v with ownDisKw := req.ownDisKw }).refreshReq n
      let d2 := (d1.publish n)
      (d2.loopAnswer n).setpoints n
  | .stopping => (d.publish n).loopAnswer n
  | _ => if v.talking && v.state != .matching then d.badMessage n else d

/-- A bound of R265 has passed: SETUP, CABLE_CHECK or PRECHARGE. -/
def Dev.stateBound (d : Dev) (n : LinkId) : Dev :=
  let v := (d.link n).veh
  let after := fun (t : Nat) => decide (v.stateAt + secs t ≤ d.now)
  match v.state with
  | .matching => d.slacExpiry n
  | .setup => if after 20 && v.response != .ok then (d.raise (.veh n) 4).failAttempt n 2 else d
  | .cableCheck => if after 30 && !v.cablePassed then d.startStop n .trip (vehRank n) else d
  | .precharge => if after 10 then d.startStop n .vehicle (vehRank n) else d
  | _ => d

/-- The opening of the output contactor is commanded in a controlled stop (R275 step 3). -/
def Dev.stopOpen (d : Dev) (n : LinkId) : Dev := (d.command n 0 false).onVeh n fun v => { v with openCmd := true, cToBAt := none }

/-- The first tick after the stop began at which FB reads open: the end tick (R266). -/
def Dev.endIfOpen (d : Dev) (n : LinkId) : Dev :=
  let v := (d.link n).veh
  if v.live ∧ v.stopWhy ≠ .none ∧ v.stopAt < d.now ∧ !d.fb n 0 then d.endStopped n else d

/-! ### Sample points and planning laps -/

/-- Current at or below STOP_A since, while a stop or a change of direction waits for it (R273, R275). -/
def Dev.vehSample (d : Dev) (n : LinkId) : Dev :=
  let v := (d.link n).veh
  if v.live ∧ (v.state = .stopping ∨ v.turning.isSome) then
    let low := d.currentAtMost n (d.stopA n)
    d.onVeh n fun x => { x with lowSince := sinceWhen x.lowSince d.now low }
  else d

/-- Direction that the vehicle or the host wants (R273). -/
def Dev.wantsDischarge (d : Dev) (n : LinkId) : Bool :=
  let v := (d.link n).veh
  v.bpt && if v.dynamic then d.field (Reg.vehDischKw n) 0 16 != 0
    else decide (sfieldOf (d.reg (Reg.vehEvCurr n)) 16 16 < 0)

/-- The direction is decided at a planning lap boundary (R273). -/
def Dev.decideDirection (d : Dev) (n : LinkId) : Dev :=
  let v := (d.link n).veh
  if v.state = .energy then
    let want := d.wantsDischarge n
    if want = v.discharge then
      if v.turning.isSome then (d.onVeh n fun x => { x with turning := none }).setpoints n else d
    else if v.turning = some want then d
    else (d.onVeh n fun x => { x with turning := some want, lowSince := none, iout := 0 }).setpoints n
  else d

/-- The output contactor of an AC outlet is commanded closed (R255); ENERGY begins. -/
def Dev.acClose (d : Dev) (n : LinkId) : Dev :=
  let l := d.link n
  let v := l.veh
  let drawn := v.pilot == .c || v.pilot == .d && d.vehBit n 10
  if d.isAc n ∧ v.live ∧ (v.state = .allocating ∨ v.state = .energy) ∧ drawn ∧ 6 ≤ d.acLimit n ∧ !l.cmd.close.getLsbD 0 ∧
      l.met.fast ∧ !d.warned ∧ !v.openCmd ∧ !v.tripF ∧ !v.ppFault then
    let d1 := d.closeOutlet n
    if v.state = .allocating then (d1.toState n .energy).refreshReq n else d1
  else d

/-- What a planning lap boundary does to an outlet's session, after allocation has planned. -/
def Dev.vehPlan (d : Dev) (n : LinkId) : Dev :=
  let d1 := (d.decideDirection n).acClose n
  if (d1.link n).veh.live then (d1.publish n).setpoints n else d1

/-- The direction changes at the next sample point after the current has been at or below STOP_A for 10 ms (R273). -/
def Dev.settleDirection (d : Dev) (n : LinkId) : Dev :=
  let v := (d.link n).veh
  match v.turning with
  | some dir =>
    if v.live ∧ isSamplePoint d.now ∧ heldFor v.lowSince d.now (ms 10 + 1) then
      ((d.onVeh n fun x => { x with discharge := dir, turning := none, lowSince := none }).refreshReq n).setpoints n
    else d
  | none => d

end Sys2Proof.Machine
end

