-- ==== Sys2Proof/Machine/Metering.lean ====
section
/-! DEFINITION. The commands of metrology, of the test pulse outputs and of the S0 inputs (R166 to R175), and of the billing
ledger (R191, R199, R203, R213, R214, R361). -/

namespace Sys2Proof.Machine

/-! ### Over-current and the sense wire -/

/-- A run above OC_LIM has reached OC_COUNT samples (R166): one decision for each run, counted in the lap (R159). -/
def Dev.overcurrent (d0 : Dev) (n : LinkId) (ch : Fin 8) : Dev :=
  let d := d0.lapFirst
  let c := (d.link n).met.chans.get ch
  if ocChannel (d.role n) ch.1 ∧ d.ocLim n ≠ 0 ∧ !c.ocDone ∧ d.ocCount n ≤ c.ocRun ∧ 0 < c.ocRun then
    ((d.onMet n fun m => { m with chans := m.chans.set ch.1 { c with ocDone := true }, ocLap := m.ocLap + 1 }).count (Reg.metOcCnt n)).causeOn (.met n) 0
      { code := 0x11, source := 4 * n.1 + 1, index := 0 } (some n) [n]
  else d

def execOvercurrentDecision (link : LinkId) (ch : Fin 8) (s : State) : Ending := s.upd fun d => d.overcurrent link ch

/-- RMS of a list of samples in channel units, floor. -/
def rmsOf (ys : List Int) : Nat :=
  if ys.isEmpty then 0 else isqrt ((ys.map fun y => y.natAbs * y.natAbs).sum / ys.length)

/-- G of R167 in channel units: the mean voltage of the owned group of the lowest link whose matrix contactor to the outlet
reads closed (R242), or the RMS of the supply phase. None where there is no such group. -/
def Dev.senseG (d : Dev) (n : LinkId) : Option Int :=
  if d.isAc n then
    match linkOfNat (d.field (Reg.metCfg n) 8 8) with
    | some site => some (d.reg (Reg.metRms site (d.field (Reg.metCfg n) 16 2 - 1))).toNat
    | none => none
  else ((d.owned n).find? fun g => ((d.contactorTo g n).map fun k => d.fb g k).getD false).map fun g =>
    let s := d.sum32 g 0
    if s.2 = 0 then 0 else s.1 / (s.2 : Int)

/-- The outlet's own voltage in the tests of R167 and R168. -/
def Dev.senseV (d : Dev) (n : LinkId) : Int :=
  if d.isAc n then rmsOf (d.samples n 0) else (d.samples n 0).headD 0

/-- The conditions of R167 hold at this sample point. On AC the residual current has been judged at it before. -/
def Dev.senseBroken (d : Dev) (n : LinkId) : Bool :=
  match d.senseG n with
  | none => false
  | some g =>
    let i := ((d.samples n 1).headD 0).natAbs
    let fourth := if d.isAc n then !(d.link n).prot.rdcWarn
      else
        let y : Int := ((d.samples n 2).headD 0).natAbs
        decide (25 * g ≤ 100 * y ∧ 100 * y ≤ 75 * g)
    decide (1000 * d.settingField (Reg.metXSense n) 0 16 ≤ i ∧ 50 * (unitsPer : Int) ≤ g ∧ 10 * ((d.senseV n).natAbs : Int) < g) &&
      fourth

/-- The sense-wire test of an outlet at a sample point (R167), and the good reading that ends SENSE_OPEN_NOW (R168). -/
def Dev.senseSample (d : Dev) (n : LinkId) : Dev :=
  let broken := d.senseBroken n
  let good := d.mode == .maintenance && d.fb n 0 && ((d.senseG n).map fun g => decide (9 * g ≤ 10 * d.senseV n)).getD false
  d.onMet n fun m => { m with senseSince := sinceWhen m.senseSince d.now broken, senseGood := sinceWhen m.senseGood d.now good }

/-- The conditions have held for SENSE_TIME (R167, R168): controlled stop with reason 6. -/
def Dev.senseOpened (d0 : Dev) (link : LinkId) : Dev :=
  let d := d0.lapFirst
  let m := (d.link link).met
  if d.role link = .outlet ∧ !m.senseOpen ∧ heldFor m.senseSince d.now (ms (d.settingField (Reg.metXSense link) 16 16)) then
    ((d.onMet link fun m => { m with senseOpen := true, flags := { m.flags with senseOpen := true } }).raise (.met link) 1).startStop
      link .senseOpen (4 * link.1 + 1)
  else d

def execSenseOpen (link : LinkId) (s : State) : Ending := s.upd fun d => d.senseOpened link

/-- y(0) has read at least 90 % of G for 1 s with the contactor closed in MAINTENANCE (R168). -/
def execSenseOpenClear (link : LinkId) (s : State) : Ending :=
  s.upd fun d =>
    if (d.link link).met.senseOpen ∧ heldFor (d.link link).met.senseGood d.now (secs 1) then
      d.onMet link fun m => { m with senseOpen := false, senseSince := none }
    else d

/-! ### Test pulses and S0 inputs -/

/-- A queued pulse starts at a tick boundary, at least 500 µs after the previous one, while the output is enabled and runs
(R172). -/
def Dev.tpoStart (d : Dev) (out : Fin 2) : Dev :=
  let t := d.tpo.get out
  let free := (t.start.map fun x => decide (x + 500 ≤ d.now)).getD true
  if 0 < t.backlog ∧ !t.active ∧ free ∧ d.tpoRuns out then
    (d.onTpo out fun t => { t with backlog := t.backlog - 1, active := true, start := some d.now }).tpoPin out
  else d

def execTpoPulseStart (out : Fin 2) (s : State) : Ending := s.upd fun d => d.tpoStart out

/-- A pulse is active for 250 µs (R172). -/
def execTpoPulseEnd (out : Fin 2) (s : State) : Ending :=
  s.upd fun d =>
    let t := d.tpo.get out
    if t.active ∧ (t.start.map fun x => decide (x + 250 ≤ d.now)).getD true then
      (d.onTpo out fun t => { t with active := false }).tpoPin out
    else d

/-- Settings of an S0 input in force (R170, R178). -/
def Dev.s0Cfg (d : Dev) (k : Fin 4) : Word := d.setting (Reg.lioS0X k)

/-- An input is active when its filtered level equals POL (R174). -/
def Dev.s0Active (d : Dev) (k : Fin 4) : Bool := (d.s0.get k).level == bitOf (d.s0Cfg k) 30

/-- A level has been stable for 2 ms (R174). An activity of less than 30 ms is a glitch. -/
def execS0LevelChange (inp : Fin 4) (level : Bool) (s : State) : Ending :=
  s.upd fun d =>
    let x := d.s0.get inp
    if x.level = level ∨ !d.recording then d
    else
      let glitch := d.s0Active inp && !x.judged && bitOf (d.s0Cfg inp) 31
      let d1 := d.onS0 inp fun x => { x with raw := level, level := level, since := d.now, judged := false }
      if glitch then (d1.countField Reg.lioS0Glitch (8 * inp.1) 8).raise .s0 (8 + inp.1) else d1

/-- An input has been active for 30 ms (R174): counted, unless 62.5 ms have not passed since the last counted pulse. -/
def execS0PulseCount (inp : Fin 4) (s : State) : Ending :=
  s.upd fun d =>
    let x := d.s0.get inp
    if d.recording ∧ bitOf (d.s0Cfg inp) 31 ∧ d.s0Active inp ∧ !x.judged ∧ x.since + ms 30 ≤ d.now then
      let d1 := d.onS0 inp fun x => { x with judged := true }
      if (x.lastPulse.map fun t => decide (t + 62500 ≤ d.now)).getD true then
        let n := (d.reg (Reg.lioS0CntLo inp)).toNat + 2 ^ 32 * (d.reg (Reg.lioS0CntHi inp)).toNat + 1
        ((d1.onS0 inp fun x => { x with lastPulse := some d.now }).setReg (Reg.lioS0CntLo inp) (BitVec.ofNat 32 n)).setReg
          (Reg.lioS0CntHi inp) (BitVec.ofNat 32 (n / 2 ^ 32))
      else d1.raise .s0 (4 + inp.1)
    else d

/-- An input active for longer than STUCK (R175). -/
def execS0Stuck (inp : Fin 4) (s : State) : Ending :=
  s.upd fun d =>
    let x := d.s0.get inp
    if d.recording ∧ bitOf (d.s0Cfg inp) 31 ∧ d.s0Active inp ∧ !x.stuck ∧ x.since + ms (10 * fieldOf (d.s0Cfg inp) 16 14) < d.now then
      (d.onS0 inp fun x => { x with stuck := true }).raise .s0 inp.1
    else d

/-- STUCK_NOW clears once the input has been inactive for 30 ms (R175). -/
def execS0StuckClear (inp : Fin 4) (s : State) : Ending :=
  s.upd fun d =>
    let x := d.s0.get inp
    if x.stuck ∧ !d.s0Active inp ∧ x.since + ms 30 ≤ d.now then d.onS0 inp fun x => { x with stuck := false } else d

/-! ### Billing -/

/-- No RESUME within HOLD_MAX (R191): at the next lap boundary, after its closure, the hold ends and its writes are discarded. -/
def execTariffHoldExpiry (tenant : TenantId) (s : State) : Ending :=
  s.upd fun d0 =>
    let d := d0.lapFirst
    if d.holdExpired tenant ∧ d.pacer.lastBoundary = some d.now then
      match (d.slotFor 2 (BitVec.ofNat 10 tenant.1)).filter fun k => d.cfg.slots.get k |>.any fun h => h.state == .held with
      | some k =>
        (((d.discardHold k).onTenant tenant fun x => { x with interimImp := Vector.replicate 16 0, interimExp := Vector.replicate 16 0 }).fnStat 0 2
          (BitVec.ofNat 10 tenant.1)).raise (.bilT tenant) 5
      | none => d
    else d

/-- Length in minutes of a kind of interval, or of a sliding sub-interval (R199). -/
def Dev.mdMinutes (d : Dev) (sliding : Bool) : Nat := if sliding then d.field Reg.bilCfg 11 4 else d.field Reg.bilCfg 5 6

/-- A boundary of a kind of interval falls in the open tick (R199). -/
def Dev.mdBoundary (d : Dev) (sliding : Bool) : Bool :=
  let p := d.pacer.atTick d.now
  let len := 60 * d.mdMinutes sliding
  p.calSet && p.secondAt d.now && len != 0 && p.cal % 3600 % len == 0

/-- The interval that begins at the open tick. -/
def Dev.newDemand (d : Dev) (n : LinkId) (subs : List (Nat × Nat × Bool)) : Demand :=
  { start := (d.ujAt n).1, startTick := d.now, startCal := (d.pacer.atTick d.now).cal, good := d.demandTick, subs := subs }

/-- A fixed interval, or a sliding sub-interval, ends and a new one begins (R199, R200). Its value divides by its actual length in
seconds, which a leap second changes (R27). -/
def Dev.mdEnd (d : Dev) (n : LinkId) (sliding : Bool) : Dev :=
  let q := if sliding then (d.link n).bill.sliding else (d.link n).bill.fixed
  if (d.role n = .outlet ∨ d.role n = .site) ∧ d.mdBoundary sliding ∧ q.startTick ≠ d.now then
    let uj := (d.ujAt n).1 - q.start
    let actual := (d.now - q.startTick + 500000) / 1000000
    let len := 60 * d.mdMinutes sliding
    let whole := q.good && q.startCal + len == (d.pacer.atTick d.now).cal
    if sliding then
      let k := d.field Reg.bilCfg 15 4
      let subs := ((uj, actual, whole) :: q.subs).take k
      let d1 := if subs.length = k ∧ 0 < k ∧ (subs.all fun s => s.2.2) then
          d.demandValue n true (subs.map fun s => s.1).sum (subs.map fun s => s.2.1).sum
        else d
      d1.onBill n fun b => { b with sliding := d.newDemand n subs }
    else
      let d1 := if whole then d.demandValue n false uj actual else d
      d1.onBill n fun b => { b with fixed := d.newDemand n [] }
  else d

def execMdIntervalEnd (link : LinkId) (sliding : Bool) (s : State) : Ending := s.upd fun d => d.mdEnd link sliding

/-- The seal changes its state (R203): each change from closed is counted and kept with the calendar, every lap in progress is
flagged, and closing it ends MAINTENANCE (R51) and discards the calibration words written (R154). A lap that ends in this tick
closes before (R185). -/
def Dev.sealTo (d0 : Dev) (new : SealState) : Dev :=
  let d := d0.lapFirst
  let old := d.bill.sealState
  if new = old then d
  else
    let d1 := d.onBilling fun b => { b with sealState := new, unwatched := false }
    if old = .closed then
      let d2 := ((d1.count Reg.bilSealCnt).setReg Reg.bilSealLast (BitVec.ofNat 32 d.pacer.cal)).each d1.usedLinks fun d n =>
        d.onBill n fun b => { b with sealOpen := true }
      d2.raiseAlways .bil (if new = .opened then 0 else 2)
    else if new = .closed then
      let d2 := (d1.raiseAlways .bil 1).each allLinks fun d n => d.onMet n fun m => { m with calWrites := [] }
      if d2.mode = .maintenance then d2.trigger (.toRunFromMaintenance false) else d2
    else d1

/-- Levels of the changeover pair, stable for 20 ms (R203). Equal levels are a fault only after 100 ms. -/
def execSealChange (a b : Bool) (s : State) : Ending :=
  s.upd fun d =>
    let since := if d.bill.sealA = d.bill.sealB then d.bill.sealSince else d.now
    let d1 := d.onBilling fun x => { x with sealA := a, sealB := b, sealSince := if a = b then since else d.now }
    if a = b then d1 else d1.sealTo (if a then .closed else .opened)

/-- Equal levels for more than 100 ms (R203). -/
def execSealFault (s : State) : Ending :=
  s.upd fun d => if d.bill.sealA = d.bill.sealB ∧ d.bill.sealSince + ms 100 < d.now then d.sealTo .fault else d

/-- The signature of the next record in RECORD_SEQ order is there (R209, R361). -/
def Dev.recordSigned (d : Dev) : Dev :=
  match d.bill.records.find? fun r => !r.signed with
  | some r =>
    if d.resultReady (.sign r.seq) then
      let chained := patch r.bytes 0x30 (hash16 d.bill.lastRecord)
      let body := signedPart chained
      let full := body ++ padTo 96 (Config.sign384 (d.sec.signKey r.seq) body)
      ((d.finish (.sign r.seq)).completeRecord r.seq full).startSigning
    else d
  | none => d

def execRecordSigned (s : State) : Ending := s.upd Dev.recordSigned

/-- BIL_REC_CURSOR (R214). -/
def execRecCursorWrite (data : Word) (s : State) : Ending := s.upd (Dev.hosted fun d => d.setReg Reg.bilRecCursor data)

end Sys2Proof.Machine
end

