-- ==== Sys2Proof/Machine/AllocSteps.lean ====
section
/-! DEFINITION. The steps of allocation: tokens and budget, withdrawals, assignments, releases, exchanges and contactor
supervision (R222 to R242). -/

namespace Sys2Proof.Machine

/-! ### Tokens and budget (R224 to R228) -/

/-- The outlet's power is at or below its grant (R227): on DC the mean of |y(0) × y(1)| over 32 samples, on AC MET_POWER. -/
def Dev.powerWithin (d : Dev) (n : LinkId) : Bool :=
  let g := (d.link n).out.grant
  if d.isAc n then decide ((d.reg (Reg.metPower n)).toInt.natAbs ≤ g * 1000)
  else
    let ps := (d.samples n 0).zip (d.samples n 1)
    decide ((ps.map fun p => (p.1 * p.2).natAbs).sum ≤ g * 10 ^ 13 * ps.length)

/-- Pending tokens are credited (R227). -/
def Dev.creditTokens (d : Dev) (n : LinkId) : Dev :=
  let o := (d.link n).out
  if o.pending ≠ 0 ∧ !o.stopDone ∧ !d.halted ∧ isSamplePoint d.now ∧ d.powerWithin n then
    (d.onOut n fun x => { x with pending := 0 }).donorCredited n
  else d

/-- REDUCE_MS passes without it (R227): a controlled stop with reason trip; the tokens stay pending. -/
def Dev.reduceStop (d : Dev) (n : LinkId) : Dev :=
  let o := (d.link n).out
  if o.pending ≠ 0 ∧ !o.stopDone ∧ !d.halted ∧ o.cutAt + ms d.reduceMs ≤ d.now then
    ((d.onOut n fun x => { x with stopDone := true }).raise .alc 4 (BitVec.ofNat 32 n.1)).startStop n .trip (vehRank n)
  else d

/-- ALC_HOST_LIMIT (R224, R225). -/
def Dev.hostLimit (d : Dev) (data : Word) : Dev :=
  (d.setReg Reg.alcHostLimit (BitVec.ofNat 32 (fieldOf data 0 16))).setBudget

/-- A verified limit whose start the calendar has reached (R224). -/
def Dev.limitStart (d : Dev) : Dev :=
  match d.alloc.waiting with
  | some l =>
    if d.pacer.calSet ∧ l.start ≤ d.pacer.cal then
      (d.onAlloc fun a => { a with limit := some l, waiting := none, expired := false }).setBudget
    else d
  | none => d

/-- A limit expires with no successor (R224). -/
def Dev.limitExpiry (d : Dev) : Dev :=
  match d.alloc.limit with
  | some l =>
    if d.pacer.calSet ∧ l.expiry ≤ d.pacer.cal then
      ((d.onAlloc fun a => { a with limit := none, expired := true }).raise .alc 3).setBudget
    else d
  | none => d

/-- A lowered budget comes into force (R228). -/
def Dev.lowerBudget (d : Dev) : Dev :=
  match d.alloc.target with
  | some b =>
    if d.granted + d.pending ≤ b then
      (d.onAlloc fun a => { a with inForce := b, target := none }).raise .alc 2 (BitVec.ofNat 32 b)
    else d
  | none => d

/-! ### Withdrawal (R223) -/

/-- READY 0 while GMODE 2 has been commanded for more than 100 ms (R223). -/
def Dev.notReady (d : Dev) (g : LinkId) : Dev :=
  let l := d.link g
  if d.role g = .power ∧ d.trained g ∧ !bitOf l.hs.b39 29 ∧
      (l.group.gmode2Since.map fun t => decide (t + ms 100 < d.now)).getD false then
    d.withdraw g .notReady
  else d

/-- The contactor of a withdrawn group opens at low current, or by force after RAMP_MS (R223). -/
def Dev.breakGroup (d : Dev) (g : LinkId) : Dev :=
  match (d.link g).group.breakAt with
  | some t =>
    let open_ := (d.openAll g).onGroup g fun x => { x with breakAt := none }
    if isSamplePoint d.now ∧ d.meanAtMost g 1 d.releaseA then open_
    else if t + ms d.rampMs ≤ d.now then
      if (d.link g).cmd.close = 0 then open_ else open_.raise .alc 7 (BitVec.ofNat 32 g.1)
    else d
  | none => d

/-- The cause of a withdrawal is absent (R223). -/
def Dev.withdrawCauseGone (d : Dev) (g : LinkId) : Bool :=
  let l := d.link g
  match l.group.why with
  | .gfault => fieldOf l.hs.b39 0 16 == 0 && d.live g
  | .notReady => bitOf l.hs.b39 29 && d.live g
  | .linkHeldOrLost => d.live g
  | .weld | .openFault => l.hs.fb == 0 && d.live g
  | _ => false

/-- Since when the cause of a withdrawal has been absent, kept at every closure. A group whose link is held or lost is withdrawn
(R223). -/
def Dev.withdrawTick (d : Dev) (g : LinkId) : Dev :=
  if (d.link g).group.state = .withdrawn then
    let gone := d.withdrawCauseGone g
    d.onGroup g fun x => { x with clearSince := sinceWhen x.clearSince d.now gone }
  else if d.serving ∧ !d.live g then d.withdraw g .linkHeldOrLost
  else d

/-- A withdrawal caused by a fault ends after 10 s without its cause (R223). -/
def Dev.unwithdraw (d : Dev) (g : LinkId) : Dev :=
  let x := (d.link g).group
  if x.state = .withdrawn ∧ heldFor x.clearSince d.now (secs 10) ∧ (d.link g).prot.latch.isNone then
    d.onGroup g fun x => x.free d.now
  else d

/-! ### Assignments and releases (R232, R233, R241) -/

/-- Step 1 of an assignment is met: SEG_PREPARE is sent (R232, R241). -/
def Dev.assignPrepare (d : Dev) (g : LinkId) : Dev :=
  match (d.link g).group.assign with
  | some (o, k, .discharge, _) =>
    if heldFor (d.link g).group.deadSince d.now (ms 5) ∧ !d.warned then
      (d.onGroup g fun x => { x with assign := some (o, k, .segPrepare, d.now) }).segPrepare g o
    else d
  | _ => d

/-- An assignment misses a bound (R232): at step 1 the group is withdrawn, at SEG_PREPARE it is free again and not rested. -/
def Dev.assignBounds (d : Dev) (g : LinkId) : Dev :=
  match (d.link g).group.assign with
  | some (_, _, .discharge, t) => if t + secs 1 ≤ d.now then d.withdraw g .notReady else d
  | some (_, _, .segPrepare, t) =>
    if t + ms d.segMs ≤ d.now then (d.dropSeg g).onGroup g fun x => { x.free d.now with joinedAt := some d.now } else d
  | _ => d

/-- Ownership passes as the feedback reads closed (R232 step 3). -/
def Dev.assignJoin (d : Dev) (g : LinkId) : Dev :=
  match (d.link g).group.assign with
  | some (o, k, .closing, _) =>
    if d.fb g k.1 then
      (d.dropSeg g).onGroup g fun x => { x with state := .owned, owner := some o, assign := none, joinedAt := some d.now }
    else d
  | _ => d

/-- Step 2 of a release (R233): low current for 10 ms, or the opening forced after RAMP_MS. -/
def Dev.releaseLow (d : Dev) (g : LinkId) : Dev :=
  match (d.link g).group.release with
  | some (.rampDown, t) =>
    if heldFor (d.link g).group.lowSince d.now (ms 10) then
      d.onGroup g fun x => { x with release := some (.discharge, d.now), deadSince := none }
    else if t + ms d.rampMs ≤ d.now then
      ((d.openAll g).onGroup g fun x => { x with release := some (.opening, d.now) }).raise .alc 7 (BitVec.ofNat 32 g.1)
    else d
  | _ => d

/-- Steps 3 and 4 of a release (R233); no contactor opens above RELEASE_A (R235). -/
def Dev.releaseOpen (d : Dev) (g : LinkId) : Dev :=
  match (d.link g).group.release with
  | some (.discharge, _) =>
    if (d.link g).group.deadSince.isSome ∧ d.meanAtMost g 1 d.releaseA then (d.openAll g).onGroup g fun x => { x with release := some (.opening, d.now) } else d
  | _ => d

/-- Step 5 of a release (R233). -/
def Dev.releaseDone (d : Dev) (g : LinkId) : Dev :=
  match (d.link g).group.release with
  | some (.opening, _) => if (d.link g).hs.fb = 0 then d.onGroup g fun x => x.free d.now else d
  | _ => d

/-! ### Exchanges (R234 to R238) -/

def Dev.onSlot (d : Dev) (x : Fin 16) (f : Exchange → Exchange) : Dev :=
  d.onAlloc fun a => { a with slots := a.slots.set x.1 ((a.slots.get x).map f) }

/-- Steps 2 and 3 are both met, the pending tokens credited and the current low: the donor-side contactor is commanded open, and the group is owned by no outlet (R234 step 4). -/
def Dev.exchOpen (d : Dev) (x : Fin 16) : Dev :=
  match d.alloc.slots.get x with
  | some e =>
    if e.step = 3 ∧ isSamplePoint d.now ∧ heldFor (d.link e.group).group.lowSince d.now (ms 10) then
      match e.donor.bind fun o => d.contactorTo e.group o with
      | some k =>
        ((d.command e.group k false).onGroup e.group fun z => { z with owner := none }).onSlot x fun e =>
          { e with step := 4, stepAt := d.now, unownedAt := some d.now }
      | none => d
    else d
  | none => d

/-- The donor-side feedback reads open: matching begins (R234 step 5). -/
def Dev.exchDonorOpen (d : Dev) (x : Fin 16) : Dev :=
  match d.alloc.slots.get x with
  | some e =>
    match e.donor.bind fun o => d.contactorTo e.group o with
    | some k =>
      if e.step = 4 ∧ isSamplePoint d.now ∧ !d.fb e.group k.1 then
        d.onSlot x fun e => { e with step := 5, stepAt := d.now, condSince := none }
      else d
    | none => d
  | none => d

/-- The group has matched the receiver for 5 ms (R234 step 5). -/
def Dev.exchMatched (d : Dev) (x : Fin 16) : Dev :=
  match d.alloc.slots.get x with
  | some e =>
    if e.step = 5 ∧ !e.paused ∧ isSamplePoint d.now ∧ heldFor e.condSince d.now (ms 5) then
      d.onSlot x fun e => { e with step := 6, stepAt := d.now }
    else d
  | none => d

/-- Another merge into a receiver is under way: SEG_PREPARE sent and step 8 not reached (R234 step 6). -/
def Dev.mergePending (d : Dev) (r : LinkId) : Bool :=
  (d.exchanges.any fun e => e.receiver == r && e.segSent) ||
    (d.assignsTo r).any fun g => match (d.link g).group.assign with
      | some (_, _, .discharge, _) => false
      | _ => true

/-- SEG_PREPARE is sent for the lowest slot that waits (R234 step 6). -/
def Dev.exchPrepare (d : Dev) (x : Fin 16) : Dev :=
  match d.alloc.slots.get x with
  | some e =>
    let lower := (List.finRange 16).any fun y => decide (y < x) &&
      ((d.alloc.slots.get y).map fun f => f.receiver == e.receiver && f.step == 6 && !f.segSent && !f.paused).getD false
    if e.step = 6 ∧ !e.segSent ∧ !e.paused ∧ !lower ∧ !d.mergePending e.receiver then
      (d.segPrepare e.group e.receiver).onSlot x fun e => { e with segSent := true, stepAt := d.now }
    else d
  | none => d

/-- READY, and the match still holds: the receiver-side contactor is commanded closed (R234 step 7); not while a supply warning
lasts (R238). -/
def Dev.exchClose (d : Dev) (x : Fin 16) : Dev :=
  match d.alloc.slots.get x with
  | some e =>
    if e.step = 6 ∧ e.segReady ∧ isSamplePoint d.now ∧ heldFor e.condSince d.now (ms 5) ∧ !d.warned ∧ !e.paused then
      match d.contactorTo e.group e.receiver with
      | some k => (d.command e.group k true).onSlot x fun e => { e with step := 7, stepAt := d.now }
      | none => d
    else d
  | none => d

/-- The account refuses a raise: it is broken already (R48). -/
def Dev.raiseRefused (d : Dev) (r : LinkId) (cap : Nat) : Bool :=
  decide ((d.link r).out.grant < cap) && decide (d.alloc.inForce < d.granted + d.pending)

/-- The receiver-side feedback reads closed (R234 step 8, R236): ownership passes, the receiver's grant is raised by at most the
group's rating, and not while a lowered budget awaits force (R47, R228). A refused commit aborts the exchange (R237 code 11). -/
def Dev.exchJoin (d : Dev) (x : Fin 16) : Dev :=
  match d.alloc.slots.get x with
  | some e =>
    match d.contactorTo e.group e.receiver with
    | some k =>
      if e.step = 7 ∧ isSamplePoint d.now ∧ d.fb e.group k.1 then
        let r := e.receiver
        let d1 := (((d.closeSlot x none).dropSeg e.group).onGroup e.group fun z => { z with
          state := .owned, owner := some r, joinedAt := some d.now }).count Reg.alcExchCnt
        let cap := min (d1.capOf r) ((d1.link r).out.grant + d1.outKw e.group)
        if d.alloc.target.isSome then d1.publish r
        else if d1.raiseRefused r cap then (d.raise .alc 6).abortExchange x 11
        else (d1.raiseGrant r cap).publish r
      else d
    | none => d
  | none => d

/-- Reason code of a missed bound (R234, R237). -/
def Dev.exchLate (d : Dev) (e : Exchange) : Option Nat :=
  let past := fun (t : Nat) => decide (e.stepAt + ms t ≤ d.now)
  if e.paused then none
  else match e.step with
  | 2 => if past d.reduceMs then some 1 else none
  | 3 => if past d.rampMs then some 2 else none
  | 4 => if past d.openMs then some 3 else none
  | 5 => if past d.matchMs then some 4 else none
  | 6 => if e.segSent && past d.segMs then some 5 else none
  | 7 => if past d.closeMs then some 6 else none
  | _ => none

/-- An exchange misses a bound and aborts (R237); a contactor that has not closed at step 7 is an OPEN fault. A bound missed in
the tick in which another reason has aborted the exchange lowers the code recorded. -/
def Dev.exchTimeout (d : Dev) (x : Fin 16) : Dev :=
  match d.alloc.slots.get x, d.alloc.infos.get x with
  | some e, _ =>
    match d.exchLate e, d.contactorTo e.group e.receiver with
    | some 6, some k => (d.abortExchange x 6).linkCause e.group 0x1B 10 k.1
    | some code, _ => d.abortExchange x code
    | none, _ => d
  | none, some i =>
    match d.exchLate i.exch with
    | some code => d.lowerReason x (fun _ => true) code
    | none => d
  | none, none => d

/-- The receiver's target has fallen to 0: its exchanges abort (R237 code 8). -/
def Dev.exchNoTarget (d : Dev) : Dev :=
  d.abortWhere (fun e => (d.link e.receiver).out.target == 0) 8

/-! ### Contactor supervision (R239) -/

/-- Since when a frame has carried a contactor's present command. -/
def Dev.carriedFor (d : Dev) (n : LinkId) (k : Fin 16) (span : Nat) : Bool := heldFor ((d.link n).con.carried.get k) d.now span

/-- An OPEN fault (R239, R305): the group of a matrix contactor is withdrawn, owned by no outlet. A contactor that had closed
is judged after more than CLOSE_MS. -/
def Dev.openFault (d : Dev) (n : LinkId) (k : Fin 16) : Dev :=
  let l := d.link n
  if d.trained n ∧ l.cmd.close.getLsbD k.1 ∧ !d.fb n k.1 ∧ !l.con.openFault.getLsbD k.1 ∧
      d.carriedFor n k (ms d.closeMs + b2n (l.con.seen.getLsbD k.1)) then
    let d1 := d.onCon n fun c => { c with openFault := c.openFault ||| BitVec.ofNat 16 (2 ^ k.1) }
    let d2 := match d.role n with
      | .power =>
        let e := d1.abortWhere (fun e => e.group == n && e.step == 7) 6
        ((e.withdraw n .openFault).command n k false).onGroup n fun g => { g with owner := none }
      | _ => d1
    d2.linkCause n 0x1B 10 k.1
  else d

/-- A WELD (R239, R305): a welded group stays owned by the outlet it is welded to. A contactor that had opened is judged after
more than OPEN_MS. A session whose contactor stays closed ends at this decision (R266). -/
def Dev.weldFault (d : Dev) (n : LinkId) (k : Fin 16) : Dev :=
  let l := d.link n
  if d.trained n ∧ !l.cmd.close.getLsbD k.1 ∧ d.fb n k.1 ∧ !l.con.weld.getLsbD k.1 ∧
      d.carriedFor n k (ms d.openMs + b2n (l.con.seen.getLsbD k.1)) then
    let d1 := d.onCon n fun c => { c with weld := c.weld ||| BitVec.ofNat 16 (2 ^ k.1) }
    match d.role n with
    | .power =>
      let e := d1.abortWhere (fun e => e.group == n && e.step == 4) 3
      (e.withdraw n .weld).linkCause n 0x1A 9 k.1
    | .outlet =>
      let d2 := d1.linkCause n 0x19 9 k.1
      let v := (d2.link n).veh
      if v.live ∧ v.stopWhy ≠ .none then d2.endStopped n else d2
    | _ => d1
  else d

end Sys2Proof.Machine
end

