-- ==== Sys2Proof/Machine/Allocation.lean ====
section
/-! DEFINITION. The commands of the allocation engine (R222 to R239). -/

namespace Sys2Proof.Machine

def execTokensCredited (link : LinkId) (s : State) : Ending := s.upd fun d => d.creditTokens link

def execReduceTimeout (link : LinkId) (s : State) : Ending := s.upd fun d => d.reduceStop link

def execHostLimitWrite (data : Word) (s : State) : Ending := s.upd (Dev.hosted fun d => d.hostLimit data)

def execUtilLimitStart (s : State) : Ending := s.upd Dev.limitStart

def execUtilLimitExpiry (s : State) : Ending := s.upd Dev.limitExpiry

def execBudgetInForce (s : State) : Ending := s.upd Dev.lowerBudget

def execGroupNotReady (link : LinkId) (s : State) : Ending := s.upd fun d => d.notReady link

def execWithdrawOpen (link : LinkId) (s : State) : Ending := s.upd fun d => d.breakGroup link

def execWithdrawEnd (link : LinkId) (s : State) : Ending := s.upd fun d => d.unwithdraw link

/-- A free group idle for IDLE_OFF is commanded to GMODE 0 (R222). -/
def execGroupIdleOff (link : LinkId) (s : State) : Ending :=
  s.upd fun d =>
    let x := (d.link link).group
    if d.role link = .power ∧ x.state = .free ∧ x.assign.isNone ∧ x.idleSince + secs (d.field Reg.alcCfg2 16 16) ≤ d.now then
      d.driveGroup link
    else d

def execAssignDischarged (link : LinkId) (s : State) : Ending := s.upd fun d => d.assignPrepare link

def execAssignOwned (link : LinkId) (s : State) : Ending := s.upd fun d => d.assignJoin link

def execReleaseCurrentLow (link : LinkId) (s : State) : Ending := s.upd fun d => d.releaseLow link

def execReleaseDischarged (link : LinkId) (s : State) : Ending := s.upd fun d => d.releaseOpen link

def execReleaseFreed (link : LinkId) (s : State) : Ending := s.upd fun d => d.releaseDone link

def execExchRampDone (slot : Fin 16) (s : State) : Ending := s.upd fun d => d.exchOpen slot

def execExchDonorOpen (slot : Fin 16) (s : State) : Ending := s.upd fun d => d.exchDonorOpen slot

def execExchMatched (slot : Fin 16) (s : State) : Ending := s.upd fun d => d.exchMatched slot

def execExchSegPrepare (slot : Fin 16) (s : State) : Ending := s.upd fun d => d.exchPrepare slot

def execExchCloseCommand (slot : Fin 16) (s : State) : Ending := s.upd fun d => d.exchClose slot

def execExchJoined (slot : Fin 16) (s : State) : Ending := s.upd fun d => d.exchJoin slot

def execExchTimeout (slot : Fin 16) (s : State) : Ending := s.upd fun d => d.exchTimeout slot

def execContactorOpenFault (link : LinkId) (contactor : Fin 16) (s : State) : Ending :=
  s.upd fun d => d.openFault link contactor

def execContactorWeld (link : LinkId) (contactor : Fin 16) (s : State) : Ending :=
  s.upd fun d => d.weldFault link contactor

end Sys2Proof.Machine
end

