-- ==== Sys2Proof/Machine/Protection.lean ====
section
/-! DEFINITION. The commands of the protection unit, the sprint path and the safety network (R281 to R316). -/

namespace Sys2Proof.Machine

/-! ### The sprint path (R287 to R291) -/

/-- CH_MISMATCH (R287), whichever way the channels disagree. -/
def Dev.channelMismatch (d : Dev) : Dev := if d.prot.armed then d.deviceCause 0x36 1 else d

def execSprintChMismatch (_how : ChannelMismatch) (s : State) : Ending := s.upd Dev.channelMismatch

/-- The self-test of R289. One that passes makes CH_MISMATCH and SELFTEST gone (R309). -/
def Dev.selftest (d : Dev) (ok : Bool) : Dev :=
  if d.prot.armed then
    let d1 := d.onProtection fun p => { p with selftestOk := ok }
    if ok then (d1.markGone none 0x36).markGone none 0x37 else d1.deviceCause 0x37 2
  else d

def execSprintSelftest (aOk bOk : Bool) (s : State) : Ending := s.upd fun d => d.selftest (aOk && bOk)

/-- A TRIP_OUT ball read back against its driven level for 1 ms (R288). -/
def Dev.readbackFault (d : Dev) (k : Fin 4) : Dev :=
  if d.prot.armed then
    (d.onProtection fun p => { p with
      tripoutFault := p.tripoutFault ||| BitVec.ofNat 4 (2 ^ k.1), tripoutAt := d.now }).causeOn .tripout k.1
      { code := 0x24, source := 586, index := 0 } none []
  else d

def execTripoutReadbackFault (pair : Fin 4) (s : State) : Ending := s.upd fun d => d.readbackFault pair

/-- The thresholds are tried again once per second (R291). -/
def Dev.threshRetry (d : Dev) (n : LinkId) : Dev :=
  match (d.link n).prot.threshRetryAt with
  | some t => if t ≤ d.now ∧ d.trained n then d.startThresholds n else d
  | none => d

def execThreshRetry (link : LinkId) (s : State) : Ending := s.upd fun d => d.threshRetry link

/-! ### Insulation (R293 to R299) -/

/-- A half-period ends at the sample point at which IMD_HALF has passed. -/
def execImdHalfPeriod (link : LinkId) (s : State) : Ending :=
  s.upd fun d =>
    if d.hasImd link ∧ d.trained link ∧ isSamplePoint d.now ∧ (d.link link).prot.imd.halfStart + ms (d.imdHalf link) ≤ d.now then
      d.halfPeriod link
    else d

/-- What READY permits: an exchange goes on to its closing, an assignment closes its contactor (R232, R234, R241). -/
def Dev.takeReady (d : Dev) (g : LinkId) : Dev :=
  match d.slotOf g with
  | some x => d.onSlot x fun e => { e with segReady := true }
  | none => d.closeAssigned g

/-- READY (R296), at a sample point; the group's head runs at 32 kS/s before its contactor closes (R60). -/
def Dev.segReady (d : Dev) (g : LinkId) : Dev :=
  match d.prot.segs.find? fun s => decide (s.group = g) with
  | some q =>
    if !q.answered ∧ isSamplePoint d.now ∧ !d.warned ∧ (d.link g).met.fast ∧ d.segReadyNow q then
      ((d.onProtection fun p => { p with
        segs := p.segs.map fun s => if s.group = g then { s with answered := true } else s }).onVeh q.outlet
        fun v => { v with segAnswered := true }).takeReady g
    else d
  | none => d

def execSegReady (group : LinkId) (s : State) : Ending := s.upd fun d => d.segReady group

/-- The symmetry bridge (R297). -/
def Dev.symmetryFault (d : Dev) (n : LinkId) : Dev :=
  if isSamplePoint d.now ∧ heldFor (d.link n).prot.sym.since d.now (ms (d.settingField (Reg.prtLXSym n) 8 8)) then
    d.linkCause n 0x15 4
  else d

def execSymmetryFault (link : LinkId) (s : State) : Ending := s.upd fun d => d.symmetryFault link

/-! ### Residual current (R300 to R302) -/

/-- The fast path: four consecutive samples at 32 kS/s, one at 8 kS/s (R300, R301). -/
def Dev.rdcFast (d : Dev) (n : LinkId) : Bool :=
  decide ((if (d.link n).met.fast then 4 else 1) ≤ (d.link n).prot.fastRun)

def Dev.rdcAcFault (d : Dev) (n : LinkId) : Dev :=
  if d.role n = .outlet ∧ d.isAc n ∧ isSamplePoint d.now ∧
      (d.rdcFast n ∨ heldFor (d.link n).prot.rdcAc.since d.now (ms 10)) then
    d.linkCause n 0x12 5
  else d

def execRdcAcFault (link : LinkId) (s : State) : Ending := s.upd fun d => d.rdcAcFault link

def Dev.rdcDcFault (d : Dev) (n : LinkId) : Dev :=
  if d.role n = .outlet ∧ d.isAc n ∧ isSamplePoint d.now ∧ heldFor (d.link n).prot.rdcDc.since d.now (ms 70) then
    d.linkCause n 0x13 5
  else d

def execRdcDcFault (link : LinkId) (s : State) : Ending := s.upd fun d => d.rdcDcFault link

def Dev.siteRdcFault (d : Dev) (n : LinkId) : Dev :=
  if d.role n = .site ∧ isSamplePoint d.now ∧
      heldFor (d.link n).prot.siteRdc.since d.now (ms (d.settingField Reg.prtXSite 16 8)) then
    d.linkCause n 0x1C 5
  else d

def execSiteRdc (link : LinkId) (s : State) : Ending := s.upd fun d => d.siteRdcFault link

/-! ### Limits (R303, R304) -/

/-- The quantity of R303 that is judged. -/
def LinkProt.limited (p : LinkProt) (voltage : Bool) : Judged := if voltage then p.slv else p.slc

/-- The limits published and the setpoints follow a reduction (R271, R303). -/
def Dev.reduced (d : Dev) (n : LinkId) (voltage on : Bool) : Dev :=
  ((d.onProt n fun p => if voltage then { p with reducingV := on } else { p with reducingI := on }).publish n).setpoints n

def Dev.limitReduce (d : Dev) (n : LinkId) (voltage : Bool) : Dev :=
  let p := (d.link n).prot
  if isSamplePoint d.now ∧ d.sessionLive n ∧ !(if voltage then p.reducingV else p.reducingI) ∧
      heldFor (p.limited voltage).since d.now (ms 1) then
    (d.reduced n voltage true).raise (.prtL n) 6
  else d

def execLimitReduce (link : LinkId) (voltage : Bool) (s : State) : Ending := s.upd fun d => d.limitReduce link voltage

def Dev.limitTrip (d : Dev) (n : LinkId) (voltage : Bool) : Dev :=
  if isSamplePoint d.now ∧ d.sessionLive n ∧
      heldFor ((d.link n).prot.limited voltage).since d.now (ms (d.settingField (Reg.prtLXLim n) 16 8)) then
    d.linkCause n (if voltage then 0x17 else 0x16) 7
  else d

def execLimitTrip (link : LinkId) (voltage : Bool) (s : State) : Ending := s.upd fun d => d.limitTrip link voltage

def Dev.limitLift (d : Dev) (n : LinkId) (voltage : Bool) : Dev :=
  let p := (d.link n).prot
  if isSamplePoint d.now ∧ (if voltage then p.reducingV else p.reducingI) ∧
      (if voltage then p.overV else p.overI) + secs 1 ≤ d.now then
    d.reduced n voltage false
  else d

def execLimitLift (link : LinkId) (voltage : Bool) (s : State) : Ending := s.upd fun d => d.limitLift link voltage

def Dev.safeDirFault (d : Dev) (n : LinkId) : Dev :=
  if isSamplePoint d.now ∧ heldFor (d.link n).prot.safeDir.since d.now (ms 5) then d.linkCause n 0x18 8
  else d

def execSafeDirFault (link : LinkId) (s : State) : Ending := s.upd fun d => d.safeDirFault link

/-! ### Antivalent inputs (R306 to R308) -/

def execAvPairChange (pair : Fin 8) (a b : Bool) (s : State) : Ending := s.upd fun d => d.avLevels pair a b

/-- The discrepancy timer reaches DISC_MS (R307): one decision until the timer restarts. -/
def Dev.avDiscrepancy (d : Dev) (k : Fin 8) : Dev :=
  let p := d.prot.pairs.get k
  if d.avEnabled k ∧ p.state = .discrepancy ∧ !p.faulted ∧ ms (d.discMs k) ≤ p.timer d.now then
    (d.onPair k fun p => { p with faulted := true }).causeOn .av (8 + k.1)
      { code := 0x20, source := 576 + k.1, index := k.1 } none (d.targets (Reg.prtAvCfg k))
  else d

def execAvDiscrepancy (pair : Fin 8) (s : State) : Ending := s.upd fun d => d.avDiscrepancy pair

/-- One valid state for DISC_MS without a break restarts the timer (R307). -/
def Dev.avRestart (d : Dev) (k : Fin 8) : Dev :=
  let p := d.prot.pairs.get k
  if d.avEnabled k ∧ p.state ≠ .discrepancy ∧ p.since + ms (d.discMs k) ≤ d.now then
    d.onPair k fun p => { p with counted := 0, restarted := true, faulted := false }
  else d

def execAvTimerRestart (pair : Fin 8) (s : State) : Ending := s.upd fun d => d.avRestart pair

/-! ### Gone causes and edge resets (R309 to R311) -/

/-- A latched cause meets its condition of R309. What only a self-test that passes removes is marked by it. -/
def Dev.causeGone (d : Dev) (n : Option LinkId) (code : Nat) : Dev :=
  if code = 0x36 ∨ code = 0x37 then d else d.markGone n code

def execCauseGone (link : Option LinkId) (code : Byte) (s : State) : Ending := s.upd fun d => d.causeGone link code.toNat

def Dev.onReset (d : Dev) (k : Fin 2) (f : ResetInput → ResetInput) : Dev :=
  d.onProtection fun p => { p with resets := p.resets.set k.1 (f (p.resets.get k)) }

/-- A jammed input counts again after 50 ms low (R310). -/
def ResetInput.barred (r : ResetInput) (now : Tick) : Bool := r.jammed && (r.high || decide (now < r.lowSince + ms 50))

/-- The filtered level rises: the latches whose causes are all gone are noted; none are before the sprint path is armed
(R310). -/
def Dev.resetRise (d : Dev) (k : Fin 2) : Dev :=
  let r := d.prot.resets.get k
  if !r.high then
    let g := if d.prot.armed then d.goneLatches else ([], false)
    d.onReset k fun r => { r with
      high := true, riseAt := d.now, goneLinks := g.1, goneSite := g.2, jammed := r.barred d.now }
  else d

def execRstreqRise (inp : Fin 2) (s : State) : Ending := s.upd fun d => d.resetRise inp

/-- The filtered level falls (R310): a pulse of 50 ms to 5 s is accepted, a shorter one ignored with RST_IGNORED, and a jammed
level only falls. -/
def Dev.resetFall (d : Dev) (k : Fin 2) : Dev :=
  let r := d.prot.resets.get k
  if r.high then
    let held := d.now - r.riseAt
    let d1 := d.onReset k fun r => { r with high := false, lowSince := d.now }
    if !d.prot.armed ∨ r.jammed ∨ secs 5 < held then d1
    else if held < ms 50 then d1.raise .rst 1
    else (d1.raise .rst 0).edgeReset r.goneLinks r.goneSite
  else d

def execEdgeResetAccepted (inp : Fin 2) (s : State) : Ending := s.upd fun d => d.resetFall inp

/-- The level is still high at its 5,000,001st tick (R310). -/
def Dev.resetJam (d : Dev) (k : Fin 2) : Dev :=
  let r := d.prot.resets.get k
  if d.prot.armed ∧ r.high ∧ !r.jammed ∧ r.riseAt + secs 5 ≤ d.now then (d.onReset k fun r => { r with jammed := true }).raise .rst 2 else d

def execRstJammed (inp : Fin 2) (s : State) : Ending := s.upd fun d => d.resetJam inp

/-! ### The safety network (R312 to R316) -/

/-- A frame of a kind on one network: the ports work while the sprint path is armed (R312, R316). -/
def Dev.snReceive (d : Dev) (net : SafetyNet) (kind : Nat) (frame : List Byte) : Dev :=
  match pduIn frame with
  | some pdu => if d.prot.armed then d.snFrame net kind pdu else d
  | none => d

def execSnDataFrame (net : SafetyNet) (frame : List Byte) (s : State) : Ending := s.upd fun d => d.snReceive net 1 frame

def execSnResetFrame (net : SafetyNet) (frame : List Byte) (s : State) : Ending := s.upd fun d => d.snReceive net 2 frame

/-- A second copy has not come within TEXP of the first (R316 step 2). -/
def Dev.copyLate (d : Dev) (c : Fin 8) : Dev :=
  let late := fun (f : FirstCopy) => decide (f.at? + ms (d.texpOf c f) < d.now)
  let x := d.prot.conns.get c
  if x.isOpen ∧ x.firsts.any late then
    (d.onConn c fun x => { x with firsts := x.firsts.filter fun f => !late f }).snFault c
  else d

def execSnSecondCopyTimeout (conn : Fin 8) (s : State) : Ending := s.upd fun d => d.copyLate conn

/-- No new first copy within TEXP of the last (R316 step 3). -/
def Dev.watchdogLate (d : Dev) (c : Fin 8) : Dev :=
  let x := d.prot.conns.get c
  if x.isOpen ∧ x.lastSeq.isSome ∧ x.lastFirst + ms x.texp < d.now ∧ (!x.fault ∨ x.faultAt ≤ x.lastFirst) then d.snFault c else d

def execSnWatchdogExpiry (conn : Fin 8) (s : State) : Ending := s.upd fun d => d.watchdogLate conn

/-- No first pair within 5 s of the opening (R316 step 4). -/
def Dev.startLate (d : Dev) (c : Fin 8) : Dev :=
  let x := d.prot.conns.get c
  if x.isOpen ∧ !x.gotPair ∧ !x.fault ∧ x.openedAt + secs 5 < d.now then d.snFault c else d

def execSnStartTimeout (conn : Fin 8) (s : State) : Ending := s.upd fun d => d.startLate conn

/-- A DATA frame is due (R315): every TX_MS, and in the tick after a change of the SIG byte. -/
def Dev.snTx (d : Dev) : Dev :=
  if d.prot.armed ∧ !d.prot.bootMap ∧ (d.netOn .a ∨ d.netOn .b) ∧
      (d.prot.txAt + ms (d.settingField Reg.prtXSn 16 8) ≤ d.now ∨ d.prot.sigClosed ≠ d.prot.txSig) then
    d.snSend
  else d

def execSnTx (s : State) : Ending := s.upd Dev.snTx

end Sys2Proof.Machine
end

