-- ==== Sys2Proof/Machine/Flags.lean ====
section
/-! DEFINITION. Status and flag computations: what each register reads. A register that the spec gives as a field of some
state of the device is computed from that state here; every other register reads what the register store holds
(R31, R78, R108, R109, R142, R177, R178, R215 to R217, R245, R246, R280, R321, R322, R340 to R342, R374, R375, R395,
R396, R426, R427, R456, R457, R477, R478). Poison behind a register is found here too (R94). -/

namespace Sys2Proof.Machine

/-- Bits 31:0 and 63:32 of a number. -/
def lo32 (n : Nat) : Word := BitVec.ofNat 32 n

def hi32 (n : Nat) : Word := BitVec.ofNat 32 (n / 2 ^ 32)

/-- Bits 31:0 and 63:32 of a signed number. -/
def lo32s (i : Int) : Word := BitVec.ofInt 32 i

def hi32s (i : Int) : Word := BitVec.ofInt 32 (i / 2 ^ 32)

/-- Two 16-bit fields. -/
def halves (hi lo : Nat) : Word := packWord [(16, 16, hi), (0, 16, lo)]

/-- Word `k` of bytes, first byte in bits 7:0 (R8), and in bits 31:24. -/
def wordLE (bs : List Byte) (k : Nat) : Word := BitVec.ofNat 32 (natLE (slice bs (4 * k) 4))

def wordBE (bs : List Byte) (k : Nat) : Word := BitVec.ofNat 32 (fieldBE bs (4 * k) 4)

/-- One bit for every true entry. -/
def bitList (bs : List Bool) : Nat := bs.foldr (fun b n => b2n b + 2 * n) 0

/-! ### Modes, Pacer, host port -/

def ModeRefusal.code : ModeRefusal → Nat
  | .none => 0
  | .notRequestable => 1
  | .liveSession => 2
  | .contactorClosed => 3
  | .sealClosed => 4
  | .updateInProgress => 5
  | .coincidence => 6

def Dev.glbView (d : Dev) (o : Nat) : Option Word :=
  match o with
  | 0x00 => some 0xB1C14421
  | 0x04 => some (BitVec.ofNat 32 d.mode.code)
  | 0x08 => some (lo32 Config.serial.toNat)
  | 0x0C => some (hi32 Config.serial.toNat)
  | 0x10 => some (lo32 Config.node.toNat)
  | 0x14 => some (hi32 Config.node.toNat)
  | 0x18 => some (packWord [(14, 4, (d.linksOf .site).length), (8, 6, (d.linksOf .power).length),
      (0, 8, (d.linksOf .outlet).length)])
  | _ => none

def Dev.pacView (d : Dev) (o : Nat) : Option Word :=
  let p := d.pacer
  match o with
  | 0x00 => some (lo32 p.tick)
  | 0x04 => some (hi32 p.tick)
  | 0x08 => some (packWord [(3, 1, b2n p.vcoreMargin), (2, 1, b2n p.driftNow), (1, 1, b2n p.calSet), (0, 1, b2n p.paceOk)])
  | 0x20 => some (lo32 p.cal)
  | 0x24 => some (hi32 p.cal)
  | 0x28 => some (lo32 (p.tick / 100000))
  | _ => none

/-- A supply warning is present (R70). -/
def Power.warning (p : Power) : Bool := p.pfail || p.vaonLow

def Dev.pwrView (d : Dev) (o : Nat) : Option Word :=
  let p := d.power
  match o with
  | 0x08 => some (packWord [(24, 4, p.refuse.code), (19, 1, b2n p.pmbLost), (18, 1, b2n p.brace), (17, 1, b2n p.warning),
      (16, 1, b2n (voutAtLeast p.voutMode p.voutWord (tempoMv p.tempo))), (8, 3, p.target), (4, 3, p.tempo),
      (0, 4, p.mode.code)])
  | 0x14 => some (packWord [(28, 3, d.neededTempo), (20, 5, d.coresDemanded), (12, 8, d.vehActive), (0, 12, d.metroUnits)])
  | _ => none

def Dev.hptView (d : Dev) (o : Nat) : Option Word :=
  let h := d.host
  match o with
  | 0x00 => some (packWord [(1, 1, b2n h.resync), (0, 1, b2n h.pair.isSome)])
  | 0x08 => some (packWord [(24, 1, b2n h.last.firstValid), (16, 8, h.last.opcode.toNat), (8, 8, h.last.firstWord.toNat),
      (0, 8, h.last.status.toNat)])
  | 0x0C => some h.errAddr
  | 0x10 => some h.errCause
  | _ => none

/-! ### Links -/

def LinkState.code : LinkState → Nat
  | .off => 0
  | .trainA => 1
  | .trainB => 2
  | .trainC => 3
  | .confirm => 4
  | .live => 5
  | .held => 6
  | .lost => 7

def HeldWhy.code : HeldWhy → Nat
  | .none => 0
  | .roleMismatch => 1
  | .protocolMismatch => 2
  | .rttLimit => 3
  | .versionMismatch => 4
  | .ownDecision => 5

def Dev.lnkView (d : Dev) (n : LinkId) (o : Nat) : Option Word :=
  let l := (d.link n).lnk
  match o with
  | 0x04 => some (packWord [(16, 4, l.heldWhy.code), (8, 8, l.headProto.toNat), (6, 2, l.roleSeen.toNat),
      (0, 4, l.state.code)])
  | _ => none

/-- MET registers: status, totals, test energy and calibration. What only a site head carries reads 0 on another role, and
so does a channel that the role does not carry (R177). -/
def Dev.metView (d : Dev) (n : LinkId) (o : Nat) : Option Word :=
  let m := (d.link n).met
  let total (uj k : Nat) : Option Word := some (BitVec.ofNat 32 (uj / 2 ^ (32 * k)))
  match o with
  | 0x04 => some (packWord [(8, 1, b2n m.gapNow), (7, 1, b2n m.ocNow), (6, 1, b2n m.senseOpen), (5, 1, b2n m.tempDefault),
      (4, 1, b2n (d.fnHeld 0x01 n)), (3, 1, b2n (d.calSrc n)), (2, 1, b2n (decide (d.mode = .startingBlock))),
      (0, 2, if d.trained n then (if m.fast then 2 else 1) else 0)])
  | 0x10 => total m.imp.uj 0
  | 0x14 => total m.imp.uj 1
  | 0x18 => total m.imp.uj 2
  | 0x1C => total m.exp.uj 0
  | 0x20 => total m.exp.uj 1
  | 0x24 => total m.exp.uj 2
  | 0xF8 => some (lo32s m.testUj)
  | 0xFC => some (hi32s m.testUj)
  | _ =>
    if 0x200 ≤ o ∧ o < 0x300 ∧ (o - 0x200) % 0x20 < 20 then
      let ch := (o - 0x200) / 0x20
      some (if ch < (d.role n).channels then (d.calWords n ch).getD ((o - 0x200) % 0x20 / 4) 0 else 0)
    else if d.role n ≠ .site ∧
        (0xC4 ≤ o ∧ o ≤ 0xE8 ∨ o = 0x108 ∨ o = 0x10C ∨ 0x400 ≤ o ∧ o < 0x7D8) then some 0
    else if 0x40 ≤ o ∧ o < 0xC0 ∧ (d.role n).channels ≤ (o - 0x40) % 0x20 / 4 then some 0
    else none

def Dev.vehView (d : Dev) (n : LinkId) (o : Nat) : Option Word :=
  let v := (d.link n).veh
  let hs := (d.link n).hs
  if d.role n ≠ .outlet then some 0 else
  match o with
  | 0x04 => some (packWord [(18, 1, b2n v.tls), (17, 1, b2n v.live), (16, 1, b2n v.discharge), (13, 3, v.wait.code),
      (12, 1, b2n v.dynamic), (8, 4, v.protocol.code), (7, 1, b2n (v.pilot != .unknown && (d.link n).cmd.pilotMode == 1)),
      (4, 3, v.pilot.code), (0, 4, v.state.code)])
  | 0x0C => some (halves (BitVec.ofInt 16 (sfieldOf hs.b32 20 12)).toNat (BitVec.ofInt 16 (sfieldOf hs.b32 8 12)).toNat)
  | 0x10 => some (packWord [(16, 12, v.cableA), (0, 8, fieldOf hs.b32 0 8)])
  | 0x1C => some (lo32 (evseMac n).toNat)
  | 0x20 => some (hi32 (evseMac n).toNat)
  | 0x24 => match v.state, v.slac with
    | .matching, some r => some (putField (d.reg (Reg.vehSlac n)) 8 8 ((d.attenElsewhere n r.runId).getD 0xFF))
    | _, _ => none
  | 0x40 => some (halves v.vset.toNat v.iout.toNat)
  | _ => none

def TachState.code : TachState → Nat
  | .unsupervised => 0
  | .spinUp => 1
  | .running => 2
  | .blocked => 3
  | .stalled => 4
  | .tachLost => 5

/-- AUX registers: all zero on a link that is no outlet (R478). -/
def Dev.auxView (d : Dev) (n : LinkId) (o : Nat) : Option Word :=
  if d.role n ≠ .outlet then some 0
  else
    let a := (d.link n).aux
    match o with
    | 0x00 => some (packWord ((List.finRange 4).flatMap fun k =>
        let x := a.get k
        [(8 * k.1 + 7, 1, b2n (d.auxCommanded n k)), (8 * k.1 + 6, 1, auxByte (d.link n).hs.b34 k / 128), (8 * k.1 + 5, 1, b2n x.cap),
          (8 * k.1 + 4, 1, b2n x.fault), (8 * k.1, 4, x.tach.code)]))
    | 0x08 => some (halves (a.get 1).rate (a.get 0).rate)
    | 0x0C => some (halves (a.get 3).rate (a.get 2).rate)
    | _ => none

/-! ### Protection -/

/-- A quotient as a 16-bit signed field shows it: a whole number next to it. -/
def shown16 (num : Int) (den : Nat) : Nat :=
  if den = 0 then 0
  else
    let f := num / den
    let v := if num % den = 0 then f else if Config.showUp num den then f + 1 else f
    if -32768 ≤ v ∧ v ≤ 32767 then (BitVec.ofInt 16 v).toNat else (Config.showOver num den).toNat

/-- The root of a quotient as a 16-bit field shows it: a whole number next to it. -/
def shownRoot (num den : Nat) : Nat :=
  if den = 0 then 0
  else
    let f := isqrt (num / den)
    let v := if f * f * den = num then f else if Config.showUp num den then f + 1 else f
    if v < 65536 then v else (Config.showOver num den).toNat

def AvState.code : AvState → Nat
  | .clear => 0
  | .demand => 1
  | .discrepancy => 2

def Dev.prtView (d : Dev) (o : Nat) : Option Word :=
  let p := d.prot
  match o with
  | 0x00 => some (packWord [(16, 8, (allLinks.filter fun n => (d.link n).prot.latch.isSome).length),
      (3, 1, b2n p.siteLatch.isSome), (2, 1, b2n p.selftestOk), (1, 1, b2n p.bootMap), (0, 1, b2n p.armed)])
  | 0x0C => some (match p.lastCause with
      | some c => packWord [(30, 2, p.lastCls), (16, 8, c.code), (0, 10, c.source)]
      | none => 0)
  | 0x10 => some (lo32 p.lastTick)
  | 0x14 => some (hi32 p.lastTick)
  | 0x60 => some (packWord ((List.finRange 8).map fun k => (2 * k.1, 2, (p.pairs.get k).state.code)))
  | 0x68 => some (packWord ((List.finRange 2).flatMap fun k =>
      let r := p.resets.get k
      [(2 + k.1, 1, b2n (r.barred d.now)), (k.1, 1, b2n r.high)]))
  | 0x74 => some (packWord [(4, 4, p.tripoutFault.toNat), (0, 4, p.tripout.toNat)])
  | 0x90 => some (BitVec.ofNat 32 (bitList ((List.finRange 8).map fun c => (p.conns.get c).isOpen)))
  | _ =>
    if 0x18 ≤ o ∧ o < 0x2C then
      some (BitVec.ofNat 32 (bitList ((List.range 32).map fun i =>
        match linkOfNat (32 * ((o - 0x18) / 4) + i) with
        | some n => (d.link n).prot.latch.isSome
        | none => false)))
    else none

def Dev.prtLinkView (d : Dev) (n : LinkId) (o : Nat) : Option Word :=
  let p := (d.link n).prot
  match o with
  | 0x04 => some (packWord [(31, 1, b2n p.latch.isSome), (29, 2, (p.latch.map Latch.cls).getD 0),
      (28, 1, b2n ((p.latch.map Latch.allGone).getD false)), (27, 1, b2n p.threshOk), (26, 1, b2n p.reducingI),
      (25, 1, b2n p.reducingV), (24, 1, b2n p.imd.blindSince.isSome), (23, 1, b2n p.imd.injecting),
      (8, 8, (p.latch.map fun l => l.primary.code).getD 0)])
  | 0x0C => some (packWord [(31, 1, b2n (p.imd.value.isSome && p.imd.blindSince.isNone)),
      (0, 24, satTo 24 (p.imd.value.getD 0))])
  | 0x10 =>
    let i := (d.link (d.symMember n)).prot.imd
    some (halves (shown16 (d.refMid (d.symMember n)) unitsPer) (shown16 i.devMid unitsPer))
  | 0x14 => some (halves (shown16 p.window.sum (milli * p.window.length))
      (shownRoot ((p.window.map fun y => y.natAbs * y.natAbs).sum) (milli * milli * p.window.length)))
  | 0x18 =>
    if d.role n = .outlet then
      some (halves (d.protA n) (if p.reducingV then 98 * d.vBase10 n / 1000 else 0xFFFF))
    else some 0xFFFFFFFF
  | _ => none

/-! ### Allocation -/

/-- The smallest of the budget's terms by its code: 0 SITE_KW, 1 utility, 2 host, 3 FALLBACK_KW (R224, R245). -/
def Dev.budgetSrc (d : Dev) : Nat :=
  let b := d.budgetTerm
  if d.settingField Reg.alcXBudget 0 16 = b then 0
  else if d.utilTerm = b then (if d.pacer.calSet ∧ d.alloc.limit.isSome then 1 else 3)
  else 2

def Dev.alcView (d : Dev) (o : Nat) : Option Word :=
  let a := d.alloc
  let name (n : Option LinkId) : Nat := (n.map Fin.val).getD 0xFF
  match o with
  | 0x10 => some (BitVec.ofNat 32 ((a.limit.map UtilLimit.kw).getD 0xFFFF))
  | 0x14 => some (lo32 ((a.limit.map UtilLimit.expiry).getD 0))
  | 0x00 => some (packWord [(17, 1, b2n (d.exchanges.any Exchange.paused)), (16, 1, b2n a.target.isSome), (12, 2, d.budgetSrc), (8, 1, b2n a.held),
      (0, 5, d.exchanges.length)])
  | 0x08 => some (halves (a.target.getD 0xFFFF) a.inForce)
  | 0x0C => some (halves d.pending d.granted)
  | _ =>
    if 0x100 ≤ o ∧ o < 0x200 then
      let x : Fin 16 := Fin.ofNat 16 ((o - 0x100) / 0x10)
      match a.slots.get x, a.infos.get x, (o - 0x100) % 0x10 with
      | some e, _, 0x0 => some (packWord [(24, 8, e.receiver.1), (16, 8, name e.donor), (8, 8, e.group.1), (0, 4, e.step)])
      | some e, _, 0x4 => some (lo32 e.start)
      | some e, i, 0x8 => some (packWord [(16, 16, e.unownedMs d.now), (0, 4, (i.map ExchangeInfo.reason).getD 0)])
      | none, some i, 0x4 => some (lo32 i.exch.start)
      | none, some i, 0x8 => some (packWord [(16, 16, i.unownedMs), (0, 4, i.reason)])
      | _, _, _ => none
    else none

def GroupState.code : GroupState → Nat
  | .free => 0
  | .owned => 1
  | .inExchange => 2
  | .withdrawn => 3
  | .releasing => 4

def WithdrawWhy.code : WithdrawWhy → Nat
  | .none => 0
  | .gfault => 1
  | .notReady => 2
  | .linkHeldOrLost => 3
  | .weld => 4
  | .openFault => 5
  | .trip => 6

/-- Per-link ALC registers; fields that do not apply to the link's role read 0 (R246). -/
def Dev.alcLinkView (d : Dev) (n : LinkId) (o : Nat) : Option Word :=
  let g := (d.link n).group
  let u := (d.link n).out
  let outlet := decide (d.role n = .outlet)
  let power := decide (d.role n = .power)
  let when (c : Bool) (w : Word) : Option Word := some (if c then w else 0)
  match o with
  | 0x00 =>
    let w := d.reg (Reg.alcLCfg n)
    when (outlet || power) (packWord [(20, 12, fieldOf w 20 12), (16, 3, if outlet then fieldOf w 16 3 else 0),
      (0, 16, fieldOf w 0 16)])
  | 0x04 => some (packWord [(24, 8, if outlet then d.movesInto n else 0), (16, 8, if outlet then (d.owned n).length else 0),
      (12, 4, if power then g.why.code else 0), (8, 4, if power then g.state.code else 0),
      (0, 8, if power then (g.owner.map Fin.val).getD 0xFF else 0)])
  | 0x08 => when outlet (halves u.req u.target)
  | 0x0C => when outlet (halves u.pending u.grant)
  | 0x10 => when outlet (halves u.limA.toNat u.limKw.toNat)
  | 0x14 => when (outlet || power) (BitVec.ofNat 32 (d.link n).prot.seg)
  | _ => none

/-! ### Billing -/

def SealState.code : SealState → Nat
  | .closed => 0
  | .opened => 1
  | .fault => 2

/-- The record that BIL_REC_CURSOR selects (R214). -/
def Dev.cursorRecord (d : Dev) : Option QueuedRecord :=
  d.bill.records.find? fun r => r.seq % 2 ^ 32 == (d.reg Reg.bilRecCursor).toNat

/-- BIL_REC_CHECK: the last record that took the slot of the cursor (R213, R214); slot `s` is that of the record numbers
that leave remainder `s` in 1,024. -/
def Dev.recordCheck (d : Dev) : Word :=
  match d.cursorRecord with
  | some r => lo32 r.seq
  | none =>
    let s := (d.reg Reg.bilRecCursor).toNat % 1024
    if d.bill.nextSeq ≤ s then Config.ledgerRest (2 ^ 19 + 128 * s + 3)
    else lo32 (d.bill.nextSeq - 1 - (d.bill.nextSeq - 1 - s) % 1024)

def Dev.bilView (d : Dev) (o : Nat) : Option Word :=
  let b := d.bill
  match o with
  | 0x04 => some (packWord [(16, 11, b.records.length), (8, 8, satTo 8 (b.records.filter fun r => !r.signed).length),
      (3, 1, b2n b.frozen), (2, 1, b2n b.unwatched), (0, 2, b.sealState.code)])
  | 0x14 => some (lo32 b.nextSeq)
  | 0x18 => some (hi32 b.nextSeq)
  | 0x38 => some (packWord [(8, 8, if d.scroll.section_ < 144 then d.scroll.section_ else 0xFF), (0, 6, d.scroll.item)])
  | 0x40 => some (match d.cursorRecord with
      | some r => packWord [(1, 1, b2n (decide (256 < r.bytes.length))), (0, 1, 1)]
      | none => 0)
  | 0x44 => some d.recordCheck
  | _ =>
    if 0x100 ≤ o ∧ o < 0x300 then
      some (match d.cursorRecord with
        | some r => wordLE r.bytes ((o - 0x100) / 4)
        | none => 0)
    else none

/-- Per-link BIL registers; what does not apply to the link's role reads 0 (R179, R216). -/
def Dev.bilLinkView (d : Dev) (n : LinkId) (o : Nat) : Option Word :=
  let b := (d.link n).bill
  let r := d.role n
  let s := b.session.or b.lastSession
  let ses (f : SessionCost → Word) : Option Word := some ((s.map f).getD 0)
  if r = .unused ∨ r = .power ∧ 0x20 ≤ o ∧ o ≠ 0x60 ∧ o ≠ 0x64 ∨ r = .site ∧ (0x20 ≤ o ∧ o < 0x3C ∨ 0x68 ≤ o) then some 0
  else
    match o with
    | 0x00 => some (lo32 b.impMwh)
    | 0x04 => some (hi32 b.impMwh)
    | 0x08 => some (lo32 b.expMwh)
    | 0x0C => some (hi32 b.expMwh)
    | 0x10 => some (lo32 b.carryImp)
    | 0x14 => some (lo32 b.carryExp)
    | 0x18 => some (lo32 b.susp)
    | 0x1C => some (hi32 b.susp)
    | 0x20 => ses fun s => lo32 s.imp
    | 0x24 => ses fun s => hi32 s.imp
    | 0x28 => ses fun s => lo32 s.exp
    | 0x2C => ses fun s => hi32 s.exp
    | 0x30 => some (match b.session with
        | some s => lo32 (s.duration d.now)
        | none => lo32 b.lastDuration)
    | 0x34 => ses fun s => s.id
    | 0x38 => some (packWord [(31, 1, b2n b.session.isSome), (0, 16, (s.map fun s => s.tenant.1).getD 0xFFFF)])
    | 0x3C => some (BitVec.ofNat 32 b.slot)
    | 0x68 => ses fun s => lo32s s.cost
    | 0x6C => ses fun s => hi32s s.cost
    | _ => none

/-- Import slot `s` at + 8s, export slot `s` at + 0x80 + 8s (R216). -/
def slotView (imp exp : Vector Nat 16) (o : Nat) : Option Word :=
  let v := (if o / 0x80 = 0 then imp else exp).get (Fin.ofNat 16 (o % 0x80 / 8))
  some (if o % 8 = 0 then lo32 v else hi32 v)

def Dev.bilSlotView (d : Dev) (n : LinkId) (o : Nat) : Option Word :=
  if d.role n = .outlet ∨ d.role n = .site then slotView (d.link n).bill.slotImp (d.link n).bill.slotExp o else some 0

def Dev.bilTView (d : Dev) (t : TenantId) (o : Nat) : Option Word :=
  let x := d.tenant t
  match o with
  | 0x04 => some (packWord [(4, 4, d.slotNow t), (3, 1, b2n x.poisoned), (2, 1, b2n (d.creditOut t)), (1, 1, b2n (d.lowNow t)),
      (0, 1, b2n x.held)])
  | 0x10 => some (lo32s x.credit)
  | 0x14 => some (hi32s x.credit)
  | 0x18 => some (lo32s x.resv)
  | 0x1C => some (hi32s x.resv)
  | 0x20 => some (lo32s x.consumed)
  | 0x24 => some (hi32s x.consumed)
  | 0x28 => some (lo32s x.grants)
  | 0x2C => some (hi32s x.grants)
  | 0x34 => some (lo32 (d.sessionsOf t).length)
  | 0x38 => some (lo32 x.interimImp.toList.sum)
  | 0x3C => some (hi32 x.interimImp.toList.sum)
  | 0x304 => some (packWord [(31, 1, b2n (x.root.alg != 0)), (30, 1, b2n x.activeB), (0, 7, x.blocked.length)])
  | _ => if 0x200 ≤ o ∧ o < 0x300 then slotView x.slotImp x.slotExp (o - 0x200) else none

/-! ### Tags -/

def CardState.code : CardState → Nat
  | .none => 0
  | .opened => 1
  | .secured => 2
  | .halted => 3

def SvcState.code : SvcState → Nat
  | .noField => 0
  | .field => 1
  | .opened => 2
  | .secured => 3

def MbxFill.code : MbxFill → Nat
  | .empty => 0
  | .forWire => 1
  | .forField => 2

def MbxOwner.code : MbxOwner → Nat
  | .none => 0
  | .field => 1
  | .wire => 2

/-- Outlets whose request waits for an engine of a pool (R332). -/
def Dev.tagWaiting (d : Dev) (uhf : Bool) : Nat :=
  (d.outlets.filter fun n => (d.link n).tag.request.isSome && (d.link n).tag.engine.isNone && d.uhf n == uhf).length

def Dev.tagView (d : Dev) (o : Nat) : Option Word :=
  let s := d.svc
  let busy (uhf : Bool) : Nat :=
    ((List.finRange 24).filter fun x => uhfEngine x == uhf && (d.engines.get x).isSome).length
  match o with
  | 0x004 => some (packWord [(24, 8, d.tagWaiting true), (16, 8, d.tagWaiting false), (8, 4, busy true), (0, 5, busy false)])
  | 0x100 => some (lo32 d.locked.length)
  | 0x800 => some (packWord [(8, 9, s.len), (6, 2, s.fill.code), (4, 2, s.owner.code), (3, 1, b2n s.secured),
      (2, 1, b2n s.power), (0, 2, s.state.code)])
  | _ =>
    if 0x200 ≤ o ∧ o < 0x260 then
      some (match d.engines.get (Fin.ofNat 24 ((o - 0x200) / 4)) with
        | some t => packWord [(31, 1, 1), (16, 8, t.link.1), (0, 9, msSince t.granted d.now 9)]
        | none => 0)
    else none

/-- Per-link TAG registers: all zero on a link that is no outlet (R341). -/
def Dev.tagLinkView (d : Dev) (n : LinkId) (o : Nat) : Option Word :=
  let t := (d.link n).tag
  if d.role n ≠ .outlet then some 0
  else
    match o with
    | 0x4 => some (packWord [(31, 1, b2n (d.trained n && d.tagMode n != 0)), (24, 3, t.card.code), (20, 2, (t.request.map TagRequest.cls).getD 0),
        (8, 5, (t.engine.map Fin.val).getD 0x1F)])
    | 0x8 => some (packWord [(29, 3, t.path), (24, 5, t.code), (10, 1, b2n (d.link n).veh.held.isSome),
        (0, 10, t.tenant.toNat)])
    | _ => none

/-! ### Keys and crypto pool -/

def RngState.code : RngState → Nat
  | .startup => 0
  | .healthy => 1
  | .restarting => 2
  | .failed => 3

def Dev.secView (d : Dev) (o : Nat) : Option Word :=
  let s := d.sec
  let drk := s.vault.drk.key
  match o with
  | 0x00 => some (packWord [(7, 1, b2n s.vaultOk), (6, 1, b2n s.remaskSkipped), (5, 1, b2n s.rotatePending),
      (4, 1, d.field Reg.secCfg 0 1), (3, 1, b2n s.chainOk), (0, 2, s.rng.code)])
  | 0x10 => some (packWord [(31, 1, b2n s.cmdBusy), (8, 8, s.cmdResult), (0, 4, s.cmd)])
  | 0x24 => some (packWord [(16, 9, s.inClass .legal), (0, 8, s.inClass .session)])
  | 0x28 => some (packWord [(16, 5, s.inClass .update), (8, 7, s.inClass .archive), (0, 5, s.inClass .tag)])
  | 0x2C => some (packWord [(16, 6, (s.sym.toList.filter Option.isSome).length),
      (0, 5, (s.asym.toList.filter Option.isSome).length)])
  | 0x64 => some (packWord [(31, 1, b2n s.attBusy), (0, 16, s.attCount.toNat)])
  | _ =>
    if 0x100 ≤ o ∧ o < 0x160 then some (wordBE (Config.p384Public (legalKey drk)) ((o - 0x100) / 4))
    else if 0x160 ≤ o ∧ o < 0x1C0 then some (wordBE (Config.p384Public (installKey drk)) ((o - 0x160) / 4))
    else if 0x300 ≤ o ∧ o < 0x340 ∧ o % 0x10 = 4 then
      let c := s.slots.get (Fin.ofNat 4 ((o - 0x300) / 0x10))
      some (packWord [(24, 2, c.state), (16, 8, c.kind.toNat), (8, 8, c.result)])
    else if 0x1C00 ≤ o ∧ o < 0x2000 then some (wordLE Config.deviceCert ((o - 0x1C00) / 4))
    else none

/-! ### Grid link -/

def GridState.code : GridState → Nat
  | .off => 0
  | .noMains => 1
  | .listen => 2
  | .guarding => 3
  | .coordinator => 4
  | .member => 5

def Dev.grdView (d : Dev) (o : Nat) : Option Word :=
  let g := d.grid
  match o with
  | 0x04 => some (packWord [(24, 7, g.count.1), (16, 6, (g.index.map Fin.val).getD 63), (8, 6, g.table.length),
      (6, 1, b2n d.txOk), (5, 1, b2n (d.fnHeld 0x07 0)), (4, 1, b2n g.disc.isSome), (0, 4, g.state.code)])
  | 0x14 => some (lo32 g.coord.toNat)
  | 0x18 => some (hi32 g.coord.toNat)
  | 0x1C => some (BitVec.ofNat 32 g.noise)
  | _ =>
    if 0x100 ≤ o ∧ o < 0x300 then
      let x := g.nbs.get (Fin.ofNat 32 ((o - 0x100) / 0x10))
      if !x.valid then some 0
      else match o % 0x10 with
        | 0x0 => some (lo32 x.node.toNat)
        | 0x4 => some (packWord [(31, 1, 1), (0, 16, x.node.toNat / 2 ^ 32)])
        | 0x8 => some (lo32 x.map.toNat)
        | 0xC => some (halves x.level.toNat (satTo 16 x.age))
        | _ => none
    else none

/-! ### Configuration and update -/

def HoldState.code : HoldState → Nat
  | .running => 0
  | .holdPending => 1
  | .held => 2
  | .resumePending => 3

def Dev.cfgView (d : Dev) (o : Nat) : Option Word :=
  let c := d.cfg
  let stat (st : HoldState) (refuse : Nat) (inst : BitVec 10) (fn : Byte) : Option Word :=
    some (packWord [(28, 3, st.code), (24, 4, refuse), (8, 10, inst.toNat), (0, 8, fn.toNat)])
  match o with
  | 0x000 => some (packWord [(16, 4, c.why), (8, 8, c.sections), (3, 1, b2n (c.compatNone && d.upd.compat.isNone)), (2, 1, b2n c.defaulted),
      (1, 1, b2n c.unsigned), (0, 1, b2n c.valid)])
  | 0x00C => some d.upd.fw
  | 0x028 => stat (d.fnState c.stat.fn c.stat.inst) c.stat.refuse c.stat.inst c.stat.fn
  | 0x20C => some (packWord [(31, 1, b2n (c.loadBusy != 0)), (0, 4, c.loadWhy)])
  | _ =>
    if 0x40 ≤ o ∧ o < 0x80 then
      match c.slots.get (Fin.ofNat 16 ((o - 0x40) / 4)) with
      | some h => stat h.state 0 h.inst h.fn
      | none => some 0
    else if 0x100 ≤ o ∧ o < 0x130 then some (wordBE d.sec.cfgHash ((o - 0x100) / 4))
    else none

def UpdState.code : UpdState → Nat
  | .idle => 0
  | .receiving => 1
  | .verifying => 2
  | .ready => 3
  | .activating => 4
  | .confirming => 5
  | .retreating => 6
  | .failed => 7

def ActRecord.code : ActRecord → Nat
  | .none => 0
  | .arming => 1
  | .swapping => 2
  | .confirming => 3
  | .retreating => 4

def Dev.updView (d : Dev) (o : Nat) : Option Word :=
  let u := d.upd
  match o with
  | 0x000 => some (packWord [(16, 4, u.actRefuse), (8, 4, u.refuse), (4, 4, u.record.code), (0, 4, u.state.code)])
  | 0x108 => some (packWord [(24, 2, (u.slots.get 0).state), (0, 8, (u.slots.get 0).result)])
  | 0x118 => some (packWord [(24, 2, (u.slots.get 1).state), (0, 8, (u.slots.get 1).result)])
  | _ => none

/-! ### Memories, event recorder -/

def ArchiveState.code : ArchiveState → Nat
  | .off => 0
  | .training => 1
  | .ready => 2
  | .writing => 3
  | .held => 4
  | .down => 5

def Dev.memView (d : Dev) (o : Nat) : Option Word :=
  let m := d.mem
  let a := d.archive
  match o with
  | 0x000 => some (packWord [(8, 1, b2n (d.fnHeld 0x0A 0)), (0, 1, b2n (!m.poisonLedger.isEmpty || !m.poisonWork.isEmpty))])
  | 0x010 => some m.poisonAddr
  | 0x038 => some (packWord [(8, 5, m.lwCount), (0, 4, m.lwNext.1)])
  | 0x204 => some (packWord [(16, 9, a.buffer.length), (8, 7, (a.cmds.toList.filter Option.isSome).length),
      (0, 4, (if a.held && a.state == .ready then ArchiveState.held else a.state).code)])
  | 0x314 => some (packWord [(31, 1, b2n a.reading.isSome), (8, 4, a.page), (0, 4, a.result)])
  | _ =>
    if 0x40 ≤ o ∧ o < 0x140 then some (wordLE (m.lwBytes ((o - 0x40) / 0x10)) ((o - 0x40) % 0x10 / 4))
    else if 0x8000 ≤ o ∧ o < 0x9000 then
      some (match a.copy with
        | some c => wordLE (c.2.2.2.drop (4096 * a.page)) ((o - 0x8000) / 4)
        | none => 0)
    else none

/-- The record that EVR_CURSOR selects (R443). -/
def Dev.cursorEvent (d : Dev) : Option RingSlot :=
  d.recorder.ring.find? fun x => x.entry.seq % 2 ^ 32 == (d.reg Reg.evrCursor).toNat

/-- A record with a poisoned byte (R443). -/
def Dev.slotPoison (d : Dev) (x : RingSlot) : Bool := x.entry.poison || d.placePoisoned x.block x.place

/-- The header of a sector of the record ring (R447). -/
def NorSector.header (s : NorSector) : List Byte :=
  let b := bytesBE 4 0x52494E47 ++ bytesBE 2 1 ++ bytesBE 2 0 ++ bytesBE 8 s.seq ++ bytesBE 8 Config.serial.toNat ++
    List.replicate 36 0
  b ++ bytesBE 4 (0xFFFFFFFF - crc32 b)

/-- The bytes of a sector up to the end of its last entry (R447). -/
def NorSector.bytes (s : NorSector) : List Byte :=
  s.header ++ s.entries.flatMap fun e => e.1 :: 0 :: (bytesBE 2 e.2.length ++ e.2)

/-- A word of the sector that EVR_NOR_SECT names, as stored: what is erased reads as ones (R447). -/
def Dev.norWord (d : Dev) (k : Nat) : Word :=
  let sect := d.field Reg.evrNorSect 0 15
  match d.recorder.norSectors.find? fun s => s.sector == sect with
  | some s =>
    let b := s.bytes.drop (4 * k)
    BitVec.ofNat 32 (natLE ((b ++ List.replicate 4 (0xFF : Byte)).take 4))
  | none => if d.recorder.norErased = some sect then 0xFFFFFFFF else Config.norRest sect k

def Dev.evrView (d : Dev) (o : Nat) : Option Word :=
  let r := d.recorder
  match o with
  | 0x000 => some (packWord [(16, 7, r.inService), (0, 1, b2n r.dead)])
  | 0x008 => some (lo32 r.next)
  | 0x00C => some (hi32 r.next)
  | 0x010 => some (lo32 r.oldest)
  | 0x014 => some (hi32 r.oldest)
  | 0x024 => some (match d.cursorEvent with
      | some x => packWord [(1, 1, b2n (d.slotPoison x)), (0, 1, 1)]
      | none => 0)
  | 0x02C => some (BitVec.ofNat 32 r.norHead)
  | 0x040 => some (lo32 r.retired.toNat)
  | 0x044 => some (hi32 r.retired.toNat)
  | _ =>
    if 0x100 ≤ o ∧ o < 0x180 then
      some (match d.cursorEvent with
        | some x => wordLE x.entry.bytes ((o - 0x100) / 4)
        | none => 0)
    else if 0x200 ≤ o ∧ o < 0x250 then some (d.pendWord ((o - 0x200) / 4))
    else if 0x1000 ≤ o ∧ o < 0x2000 then some (d.norWord ((o - 0x1000) / 4))
    else none

/-! ### Display, keys, test pulse outputs, S0 inputs -/

def DispState.code : DispState → Nat
  | .off => 0
  | .legend => 1
  | .scroll => 2
  | .stopping => 3
  | .fault => 4

def Dev.lioView (d : Dev) (o : Nat) : Option Word :=
  let p := d.disp
  match o with
  | 0x004 => some (packWord [(29, 3, p.state.code), (28, 1, b2n p.faultNow), (24, 3, p.band), (0, 12, p.vlcd)])
  | 0x014 => some (BitVec.ofInt 32 p.temp.toInt)
  | 0x10C => some (packWord ((List.finRange 2).flatMap fun k =>
      let x := d.keys.get k
      [(8 * k.1, 1, b2n x.touched), (8 * k.1 + 1, 1, b2n x.stuck), (8 * k.1 + 2, 1, b2n x.blocked),
        (8 * k.1 + 3, 1, b2n x.long)]))
  | 0x110 => some (halves (d.keys.get 0).meas.toNat (d.keys.get 0).base.toNat)
  | 0x118 => some (halves (d.keys.get 1).meas.toNat (d.keys.get 1).base.toNat)
  | 0x810 => some (halves (d.tpo.get 1).backlog (d.tpo.get 0).backlog)
  | 0x860 => some (packWord ((List.finRange 4).flatMap fun k =>
      [(4 + k.1, 1, b2n (d.s0.get k).stuck), (k.1, 1, b2n (d.s0.get k).level)]))
  | _ =>
    if 0x40 ≤ o ∧ o < 0x80 then
      let v := p.stress.get (Fin.ofNat 8 ((o - 0x40) / 8))
      some (if o % 8 = 0 then lo32 v else hi32 v)
    else none

/-! ### Every register -/

/-- A register outside the link and tenant windows that is computed. -/
def Dev.deviceView (d : Dev) (block o : Nat) : Option Word :=
  let link (base size : Nat) (f : LinkId → Nat → Option Word) : Option Word :=
    match linkOfNat ((o - base) / size) with
    | some n => f n ((o - base) % size)
    | none => none
  match block with
  | 0x0 => d.glbView o
  | 0x1 => d.pacView o
  | 0x2 => d.pwrView o
  | 0x3 => d.cfgView o
  | 0x4 => d.updView o
  | 0x5 => d.secView o
  | 0x6 => d.memView o
  | 0x7 => d.evrView o
  | 0x8 => if o < 0x1000 then d.prtView o else link 0x1000 0x40 d.prtLinkView
  | 0x9 =>
    if o < 0x1000 then d.alcView o
    else if o < 0x4000 then link 0x1000 0x20 d.alcLinkView
    else link 0x4000 0x40 fun n _ => if d.role n = .power then none else some 0xFF
  | 0xA =>
    if o < 0x1000 then d.bilView o
    else if o < 0x6000 then link 0x1000 0x80 d.bilLinkView
    else link 0x6000 0x100 d.bilSlotView
  | 0xB => d.grdView o
  | 0xC => if o < 0x1000 then d.tagView o else link 0x1000 0x10 d.tagLinkView
  | 0xD => d.lioView o
  | 0xE => d.hptView o
  | _ => none

/-- A word of the ledger read window (R104, R432): a place of the event ring, a slot of the record queue, zero beyond. -/
def Dev.ledgerView (d : Dev) (w : Nat) : Word :=
  if w < 2 ^ 19 then
    match d.recorder.ring.find? fun x => x.block.1 * 256 + x.place.1 == w / 32 with
    | some x => wordLE x.entry.bytes (w % 32)
    | none => Config.ledgerRest w
  else if w < 0xA0000 then
    match d.bill.records.find? fun r => r.seq % 1024 == (w - 2 ^ 19) / 128 with
    | some r => wordLE r.bytes (w % 128)
    | none => Config.ledgerRest w
  else 0

/-- A register whose value is computed, by byte address. -/
def Dev.computed (d : Dev) (a : Nat) : Option Word :=
  if a < 0xF0000 then d.deviceView (a / 0x10000) (a % 0x10000)
  else if 0x1000000 ≤ a ∧ a < 0x1900000 then
    match linkOfNat ((a - 0x1000000) / 0x10000), a % 0x10000 / 0x1000 with
    | some n, 0 => d.lnkView n (a % 0x1000)
    | some n, 1 => d.metView n (a % 0x1000)
    | some n, 2 => d.vehView n (a % 0x1000)
    | some n, 3 => d.auxView n (a % 0x1000)
    | _, _ => none
  else if 0x4000000 ≤ a ∧ a < 0x4400000 then
    match tenantOfNat ((a - 0x4000000) / 0x1000) with
    | some t => d.bilTView t (a % 0x1000)
    | none => none
  else if 0x8000000 ≤ a ∧ a < 0x8400000 then some (d.ledgerView ((a - 0x8000000) / 4))
  else none

/-- What a register reads. -/
def Dev.view (d : Dev) (a : Nat) : Word :=
  match d.computed a with
  | some w => w
  | none => d.reg a

/-! ### Poison behind a register (R94, R435) -/

/-- The poisoned word that a read of an address uses, if there is one: of work memory or of the ledger store, by its index. -/
def Dev.poisonWord (d : Dev) (a : Nat) : Option (Bool × Nat) :=
  let ledger (w : Nat) : Option (Bool × Nat) := if d.mem.poisonLedger.contains w then some (false, w) else none
  if 0x8000000 ≤ a then ledger ((a - 0x8000000) / 4)
  else if Reg.evrWin 0 ≤ a ∧ a < Reg.evrWin 32 then
    match d.cursorEvent with
    | some x => ledger ((x.block.1 * 256 + x.place.1) * 32 + (a - Reg.evrWin 0) / 4)
    | none => none
  else if Reg.bilRecWin 0 ≤ a ∧ a < Reg.bilRecWin 128 then
    match d.cursorRecord with
    | some r => ledger (2 ^ 19 + 128 * (r.seq % 1024) + (a - Reg.bilRecWin 0) / 4)
    | none => none
  else
    match d.mem.poisonLedger.find? fun w => Config.ledgerReg w == some a with
    | some w => some (false, w)
    | none => (d.mem.poisonWork.find? fun w => Config.workReg w == some a).map fun w => (true, w)

/-- A read of an address carries poison: its word is poisoned, or it shows a record that carries POISON (R443). -/
def Dev.poisonAt (d : Dev) (a : Nat) : Bool :=
  (d.poisonWord a).isSome ||
    (decide (Reg.evrWin 0 ≤ a ∧ a < Reg.evrWin 32) && (d.cursorEvent.map d.slotPoison).getD false)

/-- A whole-word write of a register replaces the poisoned words that hold it (R94, R435). -/
def Dev.unpoison (d : Dev) (a : Nat) : Dev :=
  d.onMem fun m => { m with
    poisonLedger := m.poisonLedger.filter fun w => Config.ledgerReg w != some a
    poisonWork := m.poisonWork.filter fun w => Config.workReg w != some a }

end Sys2Proof.Machine
end

