-- ==== Sys2Proof/Machine/Operands.lean ====
section
/-! DEFINITION. Operand forms: the words of a host transaction. What an address reaches (R104 to R107), what forbids a word
(R93, R373), what a write of each register does (R11, R12, R498, R500), what a read of each register does beside the value
it returns (R9, R92, R373, R435), and guarded pairs (R95 to R98). -/

namespace Sys2Proof.Machine

/-! ### What an address reaches -/

/-- What the address of a word reaches. -/
inductive WordAt where
  | misaligned
  | head (n : LinkId) (a : BitVec 15)
  /-- The window of a tenant that is not enabled for the host session. -/
  | barred
  | ledger
  | reserved
  | reg (r : RegDecl)
  deriving DecidableEq, Repr

/-- A tenant window is enabled for the host session (R339). -/
def Dev.tenantEnabled (d : Dev) (t : TenantId) : Bool :=
  (t == 0 || d.bit (Reg.tagHostTen (t.1 / 32)) (t.1 % 32)) && !d.locked.contains t

def Dev.wordAt (d : Dev) (a : Nat) : WordAt :=
  if a % 4 ≠ 0 then .misaligned
  else if 0x8000000 ≤ a ∧ a < 0x8400000 then .ledger
  else
    let reg : WordAt := match regRow a with
      | some r => .reg r
      | none => .reserved
    if 0x4000000 ≤ a ∧ a < 0x4400000 then
      match tenantOfNat ((a - 0x4000000) / 0x1000) with
      | some t => if d.tenantEnabled t then reg else .barred
      | none => .reserved
    else if 0x1000000 ≤ a ∧ a < 0x1900000 ∧ 0x8000 ≤ a % 0x10000 then
      match linkOfNat ((a - 0x1000000) / 0x10000) with
      | some n => .head n (BitVec.ofNat 15 (a % 0x8000))
      | none => .reserved
    else reg

/-- A register of the calibration set of a link (R154). -/
def calLink (a : Nat) : Option LinkId :=
  if 0x1000000 ≤ a ∧ a < 0x1900000 ∧ 0x1200 ≤ a % 0x10000 ∧ a % 0x10000 < 0x1300 then linkOfNat ((a - 0x1000000) / 0x10000)
  else none

/-- The sealed sets of a link may be written (R154). -/
def Dev.calOpen (d : Dev) (n : LinkId) : Bool :=
  d.mode == .maintenance && d.bill.sealOpen && d.cfg.slots.toList.any fun s =>
    match s with
    | some h => h.fn == 0x01 && h.inst.toNat == n.1 && decide (h.state = .held)
    | none => false

/-- Why a write is an access violation (R373), if it is. -/
def Dev.writeViolation (d : Dev) (a : Nat) (w : Word) (r : RegDecl) : Option Nat :=
  if r.kind = .vault then some 3
  else if r.kind = .gw ∧ ((calLink a).map fun n => !d.calOpen n).getD false then some 2
  else if a = Reg.secCmd ∧ fieldOf w 0 4 = 3 ∧ !d.rotateServed then some 4
  else if (a = Reg.cfgLoadOffset ∨ a = Reg.cfgLoadCmd ∨ Reg.cfgLoadBuf 0 ≤ a ∧ a < Reg.cfgLoadBuf 1024) ∧ !d.loadServed then
    some 5
  else none

/-- A write word opens a guarded pair (R95). -/
def RegDecl.opens (r : RegDecl) (w : Word) : Bool :=
  r.kind == .gw || r.kind == .w1c && decide (w &&& BitVec.ofNat 32 r.guard ≠ 0)

/-! ### What a write does -/

/-- The bits of a written value that reach a register; the device ignores what is written to the others (R15). -/
def RegDecl.taken (r : RegDecl) (w : Word) : Word := w &&& BitVec.ofNat 32 r.mask

/-- A command register written through a completed guarded pair: each chapter's command. -/
def Dev.hostCommand (d : Dev) (a : Nat) (w : Word) : Dev :=
  let linkAt (n : LinkId) : Dev :=
    if a = Reg.lnkCmd n then (if bitOf w 0 then d.gw a w fun d => d.retrain n else d.setReg a w)
    else if a = Reg.vehCmd n then
      (if bitOf w 0 then d.gw a w fun d => d.startStop n .remote hostRank else d.setReg a w)
    else if (calLink a).isSome then
      (if (a % 0x10000 - 0x1200) / 0x20 < (d.role n).channels then
        d.onMet n fun m => { m with calWrites := m.calWrites ++ [(a, w)] }
      else d)
    else d
  if 0x1000000 ≤ a then
    match linkOfNat ((a - 0x1000000) / 0x10000) with
    | some n => linkAt n
    | none => d
  else if a = Reg.pwrModeReq then d.gw a w fun d => d.modeRequest (fieldOf w 0 4)
  else if a = Reg.secCmd then
    d.gw a w fun d => match fieldOf w 0 4 with
      | 1 => d.enrol false
      | 2 => d.enrol true
      | 3 => d.rotateRoot
      | 4 => d.rngRestart
      | 5 => d.loadChain (fieldOf w 16 13)
      | _ => d
  else if a = Reg.grdCmd then
    d.gw a w fun d =>
      let d1 := if bitOf w 0 then d.discover else d
      if bitOf w 1 then d1.relisten else d1
  else if a = Reg.cfgFnCtrl then
    let fn : Byte := BitVec.ofNat 8 (fieldOf w 0 8)
    let inst : BitVec 10 := BitVec.ofNat 10 (fieldOf w 8 10)
    d.gw a w fun d => match fieldOf w 28 2 with
      | 1 => d.fnHold fn inst
      | 2 => d.fnResume fn inst
      | 3 => d.fnCancel fn inst
      | _ => d
  else if a = Reg.cfgLoadCmd then
    d.loadCmd w fun d => match fieldOf w 28 4 with
      | 1 => d.loadWrite
      | 2 => d.loadCommit (fieldOf w 0 23)
      | _ => d
  else if a = Reg.updCmd then
    d.gw a w fun d => match fieldOf w 0 4 with
      | 1 => d.updActivate
      | 2 => d.updAbandon
      | _ => d
  else if a = Reg.updHealthConfirm then d.gw a w fun d => d.healthConfirm w
  else if a = Reg.memLwClear then d.gw a w fun d => if bitOf w 0 then d.clearLastWords else d
  else if a = Reg.evrCmd then d.gw a w fun d => if bitOf w 0 then d.retest else d
  else if a = Reg.tagHostLock then d.lockTenant (fieldOf w 0 10)
  else d

/-- A write-only register written; the complement half of a guarded pair does nothing by itself (R96). -/
def Dev.writeOnly (d : Dev) (a : Nat) (w : Word) : Dev :=
  if a = Reg.tagSvcMbxCmd then
    match fieldOf w 0 4 with
    | 1 => d.wireAcquire
    | 2 => d.wirePost (fieldOf w 8 9)
    | 3 => d.wireRelease
    | 4 => d.wireCancel
    | _ => d
  else if a = Reg.secAttCmd then (if bitOf w 0 then d.attestStart else d)
  else if a = Reg.memArcRdCmd then d.arcRead w
  else
    match (List.finRange 4).find? fun c => Reg.secSubCmd c.1 == a, (List.finRange 2).find? fun c => Reg.updPieceCmd c.1 == a with
    | some c, _ => d.submitObject c w
    | none, some c => d.submitPiece c w
    | none, none => d

/-- A word of a submission slot's buffer while the slot is BUSY: a write is ignored (R359). -/
def Dev.busyBuffer (d : Dev) (a : Nat) : Bool :=
  decide (Reg.secSubBuf 0 0 ≤ a ∧ a < Reg.secSubBuf 4 0) && (d.sec.slots.get (Fin.ofNat 4 ((a - Reg.secSubBuf 0 0) / 0x1000))).state == 1

/-- A plain register takes what is written (R11), where no chapter says more; the word replaces a poisoned one (R94). -/
def Dev.plainWrite (d : Dev) (a : Nat) (w : Word) (r : RegDecl) : Dev := (d.setReg a (r.taken w)).unpoison a

/-- A write that a read/write register ignores (R109, R337, R359, R374). -/
def Dev.rwIgnored (d : Dev) (a : Nat) (w : Word) : Bool :=
  if a = Reg.hptStallMax ∨ a = Reg.secWaitMax then w != 0
  else if Reg.tagSvcMbxData 0 ≤ a ∧ a < Reg.tagSvcMbxData 64 then d.svc.owner != .wire
  else d.busyBuffer a

/-- A read/write register written. -/
def Dev.writeRw (d : Dev) (a : Nat) (w : Word) (r : RegDecl) : Dev :=
  let v := r.taken w
  if a = Reg.hptStallMax then d.setReg a 0
  else if a = Reg.secWaitMax then d.writeWaitMax w
  else if a = Reg.alcHostLimit then d.hostLimit v
  else if Reg.tagSvcMbxData 0 ≤ a ∧ a < Reg.tagSvcMbxData 64 then
    d.wireWrite (Fin.ofNat 64 ((a - Reg.tagSvcMbxData 0) / 4)) w
  else if 0x1000000 ≤ a ∧ a < 0x1900000 then
    match linkOfNat ((a - 0x1000000) / 0x10000) with
    | some n =>
      if a = Reg.auxCmd n then d.auxCommand n w
      else if a = Reg.vehDischKw n ∧ d.role n ≠ .outlet then d
      else d.plainWrite a w r
    | none => d
  else d.plainWrite a w r

/-- A register of sticky bits written: a 1 clears a bit that was set at the last closure and that no event of this tick has
set again (R100). -/
def Dev.clearSticky (d shown : Dev) (a : Nat) (w : Word) (r : RegDecl) : Dev :=
  let again := (d.recorder.setNow.filter fun x => x.1 == a).foldl (fun m x => m ||| oneBit x.2) 0
  let gone := r.taken w &&& shown.reg a &&& ~~~again
  ((d.setReg a (d.reg a &&& ~~~gone)).onRec fun r => { r with clearedNow := (a, gone) :: r.clearedNow }).unpoison a

/-- An admitted write word takes effect (R99); one that its register takes replaces a poisoned word (R94). -/
def Dev.takeWord (d shown : Dev) (a : Nat) (w : Word) (r : RegDecl) : Dev :=
  match r.kind with
  | .rw => if d.rwIgnored a w then d else (d.writeRw a w r).unpoison a
  | .expert => if d.expertOpen a then d.plainWrite a w r else d
  | .w1c => d.clearSticky shown a w r
  | .gw => (d.hostCommand a (r.taken w)).unpoison a
  | .wo => d.writeOnly a w
  | .ro | .vault => d

/-! ### What a read does -/

/-- How many words after one hold the rest of its wide value (R9, R177). -/
def wideFrom (a : Nat) : Nat :=
  let o := a % 0x10000
  if a < 0xF0000 then
    if a ∈ [0x8, 0x10, 0x10000, 0x10018, 0x10020, 0xA0014, 0x80010, 0x80088, 0xB0014, 0x60308, 0x70008, 0x70010] then 1
    else match a / 0x10000 with
      | 0xA =>
        if 0x6000 ≤ o then (if o < 0xF000 ∧ o % 8 = 0 then 1 else 0)
        else if 0x1000 ≤ o ∧ o < 0x5800 ∧ o % 0x80 ∈ [0x0, 0x8, 0x18, 0x20, 0x28, 0x68] then 1
        else 0
      | 0xB => if 0x100 ≤ o ∧ o < 0x300 ∧ o % 0x10 = 0 then 1 else 0
      | 0xD => if (0x40 ≤ o ∧ o < 0x80 ∨ 0x840 ≤ o ∧ o < 0x860) ∧ o % 8 = 0 then 1 else 0
      | _ => 0
  else if 0x1000000 ≤ a ∧ a < 0x1900000 then
    if o = 0x1010 ∨ o = 0x101C then 2
    else if o ∈ [0x1028, 0x1030, 0x10F8, 0x2014, 0x201C] then 1
    else 0
  else if 0x4000000 ≤ a ∧ a < 0x4400000 then
    let p := a % 0x1000
    if p ∈ [0x10, 0x18, 0x20, 0x28, 0x38] ∨ 0x200 ≤ p ∧ p < 0x300 ∧ p % 8 = 0 then 1 else 0
  else 0

/-- What the port returns for a register: the value as the last closure committed it (R101); HPT_LAST_STATUS that of the
transaction before the one that reads it (R88). -/
def Dev.readValue (d shown : Dev) (a : Nat) : Word := if a = Reg.hptLastStatus then d.view a else shown.view a

/-- A wide value captured by the read of its first word (R9, R177). -/
def Dev.captureWide (d shown : Dev) (a : Nat) : Dev :=
  d.onHost fun h => { h with
    capture := if wideFrom a = 0 then none
      else some { addr := a + 4, words := (List.range (wideFrom a)).map fun k => d.readValue shown (a + 4 + 4 * k) } }

/-- A read of a register that re-arms its recording (R92, R373, R435). -/
def Dev.rearm (d : Dev) (a : Nat) : Dev :=
  if a = Reg.hptErrCause then d.onHost fun h => { h with errArmed := true }
  else if a = Reg.secViolCause then d.readViolCause
  else if a = Reg.memPoisonAddr then d.readPoisonAddr
  else d

/-- The word that a capture serves at an address, and the capture after it. -/
def Capture.serve (c : Capture) (a : Nat) : Option (Word × Option Capture) :=
  match c.words with
  | w :: rest =>
    if c.addr = a then some (w, if rest.isEmpty then none else some { addr := a + 4, words := rest }) else none
  | [] => none

/-- A register read: its value, and what the read does. -/
def Dev.readReg (d shown : Dev) (a : Nat) (r : RegDecl) : Word × Dev :=
  match d.host.capture.bind fun c => c.serve a with
  | some (w, c) => (w, d.onHost fun h => { h with capture := c })
  | none => (if r.kind = .wo then 0 else d.readValue shown a, (d.captureWide shown a).rearm a)

/-! ### Status, errors and guarded pairs -/

/-- A status bit is met by the word in turn (R88). The index of the first word that met one is kept (R109). -/
def Txn.meets (t : Txn) (bit : Nat) : Txn :=
  { t with status := t.status ||| BitVec.ofNat 8 (2 ^ bit), first := t.first.or (some t.index) }

/-- A bus error of a cause on the word in turn (R90 to R92). An error found before the address phase ends names neither
address nor word. -/
def Dev.busError (d : Dev) (t : Txn) (cause applied : Nat) (early : Bool := false) : Dev × Txn :=
  let d1 := (d.count Reg.hptErrCnt).raise .hpt 1
  let d2 := if d1.host.errArmed then d1.onHost fun h => { h with
      errArmed := false, errAddr := if early then 0 else t.addr
      errCause := packWord [(10, 8, if early then 0 else t.index), (8, 2, applied), (0, 4, cause)] } else d1
  (d2, t.meets 1)

def Txn.failed (t : Txn) : Bool := t.status.getLsbD 1

/-- A guarded pair is broken, or a word that would open one is discarded (R97). -/
def Dev.guardFail (d : Dev) : Dev :=
  ((d.onHost fun h => { h with pair := none }).count Reg.hptGuardCnt).raise .hpt 0

/-- The first half of a guarded pair is held (R95); in a burst or an aborted transaction it is discarded (R97, R103). -/
def Dev.openPair (d : Dev) (t : Txn) (w : Word) (silent : Bool) : Dev × Txn :=
  if t.single ∧ !t.aborted then
    (d.onHost fun h => { h with pair := some { addr := t.addr, data := w, since := d.now, silent := silent } },
      { t with status := t.status ||| 0x20 })
  else (d.guardFail, t.meets 6)

/-- The always-on registers (R14). -/
def alwaysOn (a : Nat) : Bool :=
  [Reg.pacCalLo, Reg.pacCalHi, Reg.pwrWakeCfg, Reg.pwrWakeCause, Reg.pwrCommitSeq, Reg.pwrOpSeconds, Reg.pwrCycles,
    Reg.bilSealCnt, Reg.bilSealLast, Reg.updConfirmLeft, Reg.tagSvcStatus, Reg.tagSvcEvents, Reg.tagSvcCnt, Reg.memLwNext,
    Reg.lioDirty].contains a ||
  decide (Reg.tagSvcMbxData 0 ≤ a ∧ a < Reg.tagSvcMbxData 64) || decide (Reg.memLwW 0 0 ≤ a ∧ a < Reg.memLwW 16 0)

/-- The worst-case stall in µs before a word, by its target (R89). -/
def WordAt.bound (x : WordAt) (a : Nat) : Nat :=
  match x with
  | .head _ _ => 24
  | .misaligned | .reserved => 0
  | _ => if alwaysOn a then 70 else 4

/-- A word that the port serves may stall for as long as its target allows (R86, R89). -/
def Txn.waitsFor (t : Txn) (us : Nat) : Txn := { t with bound := max t.bound us }

/-- The next word is in turn. -/
def Txn.next (t : Txn) (value : Option Word) : Txn :=
  { t with
    index := t.index + 1, out := match value with | some w => t.out ++ [w] | none => t.out
    addr := if t.opcode = 0x03 ∨ t.opcode = 0x0C then t.addr else t.addr + 4 }

/-- Poison that a word read carries: POISON in the status, and its consumption counted (R94, R435). -/
def Dev.readPoison (d shown : Dev) (t : Txn) (a : Nat) : Dev × Txn :=
  match shown.poisonWord a with
  | some x => (d.consumePoison x.1 x.2, t.meets 2)
  | none => (d, if shown.poisonAt a then t.meets 2 else t)

/-! ### One word -/

/-- A word read (R85, R93, R94, R101). -/
def Dev.readWord (d shown : Dev) (t : Txn) : Dev × Txn :=
  let a := t.addr.toNat
  let lost (d : Dev) : Dev := d.onHost fun h => { h with capture := none }
  let error (cause : Nat) : Dev × Txn := let x := (lost d).busError t cause 0; (x.1, x.2.next (some 0))
  let forbid (cause : Nat) : Dev × Txn := ((lost d).violation t.addr cause false, (t.meets 4).next (some 0))
  match d.wordAt a with
  | .misaligned => error 2
  | .reserved => error 1
  | .barred => forbid 1
  | .ledger =>
    let x := (lost d).readPoison shown t a
    (x.1, x.2.next (some (d.readValue shown a)))
  | .head n b =>
    if !d.trained n then error 5
    else ((lost d).queueReq n .host b.toNat none, if t.aborted then t.next none else { t with head := some (n, d.now, false) })
  | .reg r =>
    if r.kind = .vault then forbid 3
    else
      let v := d.readReg shown a r
      let x := v.2.readPoison shown t a
      (x.1, x.2.next (some v.1))

/-- A word written (R85, R87, R93, R95, R99). -/
def Dev.writeWord (d shown : Dev) (t : Txn) (w : Word) : Dev × Txn :=
  let a := t.addr.toNat
  let d := d.onHost fun h => { h with capture := none }
  let error (cause : Nat) : Dev × Txn := let x := d.busError t cause 0; (x.1, x.2.next none)
  match d.wordAt a with
  | .misaligned => error 2
  | .reserved => error 1
  | .barred =>
    let d1 := d.violation t.addr 1 true
    let x := match regRow a with
      | some r => if r.opens w then d1.openPair (t.meets 4) w true else (d1, t.meets 4)
      | none => (d1, t.meets 4)
    (x.1, x.2.next none)
  | .ledger => (d, t.next none)
  | .head n b =>
    if !d.trained n then error 5
    else (d.queueReq n .host b.toNat (some w), if t.aborted then t.next none else { t with head := some (n, d.now, true) })
  | .reg r =>
    match d.writeViolation a w r with
    | some cause =>
      let d1 := d.violation t.addr cause true
      let x := if r.opens w then d1.openPair (t.meets 4) w true else (d1, t.meets 4)
      (x.1, x.2.next none)
    | none =>
      if r.opens w then
        let x := d.openPair t w false
        (x.1, x.2.next none)
      else (d.takeWord shown a w r, t.next none)

/-- The word in turn has stalled for 200 µs (R89, R90 cause 8): its transaction ends with a bus error. `done` says that a write
took effect before that. -/
def Dev.stalledWord (d : Dev) (t : Txn) (done : Bool) : Dev × Txn :=
  let x := d.busError t 8 (b2n done)
  (x.1.raise .hpt 2, { x.2.waitsFor 200 with status := x.2.status ||| 8 })

/-- The word in turn stalls to the end in this transaction. A word that ends at once with another bus error, or waits for a head,
does not. -/
def Dev.stallsHere (d : Dev) (t : Txn) : Option Bool :=
  match t.stall, d.wordAt t.addr.toNat with
  | some (k, done), .reg _ => if k = t.index then some done else none
  | some (k, done), .ledger => if k = t.index then some done else none
  | _, _ => none

/-- One word served; a word that stalls to the end has no effect but that of a write applied before (R91, R92). -/
def Dev.serveWord (d shown : Dev) (t : Txn) (x : Option Word) : Dev × Txn :=
  match d.stallsHere t, x with
  | none, some w => d.writeWord shown t w
  | none, none => d.readWord shown t
  | some done, some w =>
    let y := if done then d.writeWord shown t w else (d, t.next none)
    let z := y.1.stalledWord t done
    (z.1, { z.2.next none with status := z.2.status ||| y.2.status })
  | some _, none =>
    let z := (d.onHost fun h => { h with capture := none }).stalledWord t false
    (z.1, z.2.next (some 0))

/-- The words of a transaction in turn (R85). After a bus error write words are discarded and read words return zero (R91).
A word that goes to a head waits for its answer: the transaction stays under way with the words after it. -/
def Dev.serveWords (d shown : Dev) : List (Option Word) → Txn → Dev × Txn
  | [], t => (d, { t with words := [] })
  | x :: xs, t =>
    if t.failed then d.serveWords shown xs (t.next (if x.isSome then none else some 0))
    else
      let y := d.serveWord shown (t.waitsFor ((d.wordAt t.addr.toNat).bound t.addr.toNat)) x
      if y.2.head.isSome then (y.1, { y.2 with words := xs }) else y.1.serveWords shown xs y.2

/-! ### A whole transaction -/

/-- The status byte: OK where no bus error occurred, and odd parity (R88). -/
def Txn.statusByte (t : Txn) : Byte :=
  let s := (if t.failed then t.status else t.status ||| 1) &&& 0x7F
  let ones := ((List.range 7).filter fun i => s.getLsbD i).length
  if ones % 2 = 0 then s ||| 0x80 else s

/-- Wait states (R86, R89): whether a transaction whose words may stall had any, and the longest of them within the bounds of its
words, are free values. A transaction during resynchronisation has some, of 2 µs at most (R103). -/
def Dev.stalls (d : Dev) (t : Txn) : Dev × Txn :=
  let w := d.drawn
  let bound := max t.bound (if d.host.resync then 2 else 0)
  if bound = 0 then (d, t)
  else if d.host.resync ∨ t.status.getLsbD 3 ∨ w.getLsbD 0 then
    let us := if t.bound = 200 then 200 else w.toNat / 2 % (bound + 1)
    (d.drew.setReg Reg.hptStallMax (BitVec.ofNat 32 (max (d.reg Reg.hptStallMax).toNat us)), { t with status := t.status ||| 8 })
  else (d.drew, t)

/-- A transaction ends with its status byte (R88, R109); an aborted one drives none, but its status is kept. -/
def Dev.endTxn (d : Dev) (t : Txn) : Dev :=
  let x := d.stalls t
  let st := x.2.statusByte
  (x.1.onHost fun h => { h with
    run := none
    last := { firstValid := x.2.first.isSome, opcode := t.opcode, firstWord := BitVec.ofNat 8 (x.2.first.getD 0), status := st }
    outData := if t.aborted then [] else t.out, outStatus := if t.aborted then 0 else st
    outErr := x.2.failed && !t.aborted }).setReg Reg.hptTxnCnt (d.reg Reg.hptTxnCnt + 1)

/-- A transaction goes on until its words are served or one waits for a head. -/
def Dev.goOn (d shown : Dev) (t : Txn) : Dev :=
  let x := d.serveWords shown t.words t
  if x.2.head.isSome then x.1.onHost fun h => { h with run := some x.2 } else x.1.endTxn x.2

/-- The port serves: power is in its island, the core is not held in reset, and no transaction is under way (R80, R81). -/
def Dev.portServes (d : Dev) : Bool := d.mode != .dormant && !d.power.resetHeld && d.host.run.isNone

/-- A transaction before its first word. -/
def Txn.start (opcode : Byte) (addr : Word) (words : List (Option Word)) (len : Nat) (aborted : Bool) : Txn :=
  { opcode := opcode, addr := addr, words := words, single := len == 0, aborted := aborted, index := 0, status := 0,
    first := none, out := [], head := none, bound := 0, stall := none }

/-- The held value of an open pair that a transaction completes (R96): one write word, to A + 4, the complement, in time. -/
def Dev.completes (d : Dev) (t : Txn) : Option OpenPair :=
  match d.host.pair, t.words with
  | some p, [some w] =>
    if t.single ∧ (t.opcode = 0x02 ∨ t.opcode = 0x03) ∧ t.addr = p.addr + 4 ∧ w = ~~~p.data ∧ d.now ≤ p.since + ms 1 then some p
    else none
  | _, _ => none

/-- The held value takes effect in one commit (R96). A violating first half has no effect (R98), nor has one that has become a
violation meanwhile (R154). -/
def Dev.commitPair (d shown : Dev) (p : OpenPair) : Dev :=
  let d1 := d.onHost fun h => { h with pair := none, capture := none }
  if p.silent then d1
  else match d1.wordAt p.addr.toNat with
    | .reg r =>
      if (d1.writeViolation p.addr.toNat p.data r).isSome then d1
      else match r.kind with
        | .w1c => d1.clearSticky shown p.addr.toNat p.data r
        | _ => d1.takeWord shown p.addr.toNat p.data r
    | _ => d1

/-- A transaction other than the complement breaks an open pair (R97). -/
def Dev.breakPair (d : Dev) (t : Txn) : Dev × Txn :=
  if d.host.pair.isSome then (d.guardFail, t.meets 6) else (d, t)

/-- A transaction that ends with an error found before its address phase is over (R90, R92): read words return zero (R91). -/
def Dev.refuseTxn (d : Dev) (t : Txn) (cause : Nat) : Dev :=
  let x := d.busError t cause 0 true
  (x.1.onHost fun h => { h with capture := none }).endTxn
    { x.2 with words := [], out := t.words.filterMap fun w => if w.isNone then some 0 else none }

/-- The opcodes of R83. -/
def knownOpcode (opcode : Byte) : Bool := opcode ∈ [0x02, 0x03, 0x0B, 0x0C, 0x9F]

/-- The complement completes a pair (R96). One whose word stalls to the end commits the pair or not, as it says. -/
def Dev.completePair (d shown : Dev) (t : Txn) (p : OpenPair) : Dev :=
  let t1 := { t with words := [] }.waitsFor ((d.wordAt p.addr.toNat).bound p.addr.toNat)
  match d.stallsHere t with
  | none => (d.commitPair shown p).endTxn t1
  | some done =>
    let d1 := if done then d.commitPair shown p else d.onHost fun h => { h with pair := none, capture := none }
    let x := d1.stalledWord t1 done
    x.1.endTxn x.2

/-- A transaction (R83 to R103): an open pair completes or is broken; in WAKING only READ_ID is served (R81). -/
def Dev.transact (d shown : Dev) (t : Txn) : Dev :=
  if !d.portServes then d
  else match d.completes t with
    | some p => d.completePair shown t p
    | none =>
      let x := d.breakPair t
      if d.mode = .waking ∧ t.opcode ≠ 0x9F then x.1.refuseTxn x.2 4
      else if !knownOpcode t.opcode then x.1.refuseTxn x.2 3
      else x.1.goOn shown x.2

end Sys2Proof.Machine
end

