-- ==== Sys2Proof/Machine/HostPort.lean ====
section
/-! DEFINITION. Commands of the host port (chapter 3): whole transactions, and what ends, breaks or times out in one. -/

namespace Sys2Proof.Machine

/-! ### The five opcodes (R83) -/

def execWriteInc (addr : Word) (data : List Word) (s : State) : Ending :=
  s.upd fun d => d.transact s.shown (Txn.start 0x02 addr (data.map some) (data.length - 1) false)

def execWriteFix (addr : Word) (data : List Word) (s : State) : Ending :=
  s.upd fun d => d.transact s.shown (Txn.start 0x03 addr (data.map some) (data.length - 1) false)

def execReadInc (addr : Word) (len : Byte) (s : State) : Ending :=
  s.upd fun d => d.transact s.shown (Txn.start 0x0B addr (List.replicate (len.toNat + 1) none) len.toNat false)

def execReadFix (addr : Word) (len : Byte) (s : State) : Ending :=
  s.upd fun d => d.transact s.shown (Txn.start 0x0C addr (List.replicate (len.toNat + 1) none) len.toNat false)

/-- READ_ID returns GLB_ID, at address 0 (R83, R108). -/
def execReadId (s : State) : Ending :=
  s.upd fun d => d.transact s.shown (Txn.start 0x9F 0 [none] 0 false)

/-- One of the five opcodes is no unknown one: nothing happens. -/
def execUnknownOpcode (opcode : Byte) (s : State) : Ending :=
  s.upd fun d => if knownOpcode opcode then d else d.transact s.shown (Txn.start opcode 0 [] 0 false)

/-! ### Aborts, expiries and timeouts -/

/-- What every abort leaves (R103 steps 5 and 6). -/
def Dev.aborted (d : Dev) : Dev :=
  ((d.count Reg.hptAbortCnt).raise .hpt 3).onHost fun h => { h with resync := true, resyncAt := d.now, capture := none }

/-- The newest host request of a link is given up. -/
def Dev.dropHostReq (d : Dev) (n : LinkId) : Dev :=
  let host (x : HeadRequest) : Bool := x.purpose == .host
  let l := (d.link n).lnk
  match (l.waiting.reverse.find? host), l.request with
  | some r, _ => d.onLnk n fun l => { l with waiting := (l.waiting.reverse.erase r).reverse }
  | none, some r => if host r then d.reqDone n else d
  | none, none => d

/-- The newest host request of a link, if it has not been sent yet. -/
def LinkLayer.hostUnsent (l : LinkLayer) : Bool :=
  (l.waiting.any fun x => x.purpose == .host) || (l.request.map fun r => r.purpose == .host && r.carry && !r.repeated).getD false

/-- What becomes of the head access that an aborted transaction waits for (R103): a read not yet sent is abandoned; one that was
sent completes at its link, and a write stands. -/
def Dev.abandonRead (d : Dev) (t : Txn) : Dev :=
  match t.head with
  | some (n, _, false) => if (d.link n).lnk.hostUnsent then d.dropHostReq n else d
  | _ => d

/-- HP_CS_N rises before the status byte (R103). Complete write words stand and reads are abandoned. A transaction that
waits for a head is the one aborted: the word under way stays with its link, and complete words after it stand. -/
def Dev.abort (d shown : Dev) (opcode : Byte) (addr : Word) (len : Byte) (words : List Word) : Dev :=
  let write (o : Byte) : Bool := o == 0x02 || o == 0x03
  match d.host.run with
  | some t =>
    let left := if write t.opcode then (words.drop (t.index + 1)).map some else []
    let t1 : Txn := { (t.next none) with head := none, aborted := true, words := left }
    (((d.abandonRead t).onHost fun h => { h with run := none }).goOn shown t1).aborted
  | none =>
    if d.portServes then
      let left := if write opcode then (words.take (len.toNat + 1)).map some else []
      (d.transact shown (Txn.start opcode addr left len.toNat true)).aborted
    else d

def execTransactionAbort (opcode : Byte) (addr : Word) (len : Byte) (words : List Word) (s : State) : Ending :=
  s.upd fun d => d.abort s.shown opcode addr len words

/-- The 1 ms of an open pair has passed (R97). -/
def Dev.pairExpiry (d : Dev) : Dev :=
  match d.host.pair with
  | some p => if p.since + ms 1 < d.now then d.guardFail else d
  | none => d

def execGuardPairExpiry (s : State) : Ending := s.upd Dev.pairExpiry

/-- A transaction one of whose words stalls for 200 µs (R89, R90 cause 8): the words before it are served, those after it keep
their framing (R91). -/
def Dev.stallTimeout (d shown : Dev) (opcode : Byte) (addr : Word) (len : Byte) (words : List Word) (word : Byte)
    (applied : Bool) : Dev :=
  let write := opcode == 0x02 || opcode == 0x03
  let data : List (Option Word) :=
    if write then (List.range (len.toNat + 1)).map fun k => some (words.getD k 0)
    else List.replicate (if opcode = 0x9F then 1 else len.toNat + 1) none
  if knownOpcode opcode ∧ d.mode ≠ .waking then
    d.transact shown { Txn.start opcode (if opcode = 0x9F then 0 else addr) data (data.length - 1) false with
      stall := some (word.toNat, applied && write) }
  else d

def execStallTimeout (opcode : Byte) (addr : Word) (len : Byte) (words : List Word) (word : Byte) (applied : Bool)
    (s : State) : Ending :=
  s.upd fun d => d.stallTimeout s.shown opcode addr len words word applied

/-- The head has not answered within 24 µs (R140, R90 cause 6). -/
def Dev.headTimeout (d shown : Dev) (n : LinkId) : Dev :=
  match d.host.run with
  | some t =>
    match t.head with
    | some (m, since, write) =>
      if m = n ∧ since + 24 ≤ d.now then
        let x := (d.dropHostReq n).busError { t with head := none } 6 (if write then 2 else 0)
        (x.1.onHost fun h => { h with run := none }).goOn shown (x.2.next (if write then none else some 0))
      else d
    | none => d
  | none => d

def execHeadTimeout (link : LinkId) (s : State) : Ending := s.upd fun d => d.headTimeout s.shown link

/-! ### Single words -/

/-- The register that a word of the host reaches and may write. -/
def Dev.writable (d : Dev) (a : Nat) (w : Word) : Option RegDecl :=
  match d.wordAt a with
  | .reg r => if (d.writeViolation a w r).isNone ∧ !r.opens w then some r else none
  | _ => none

/-- A word admitted at a register of plain behaviour (R11): read/write, Expert, or read-only, which ignores it. -/
def Dev.registerWrite (d shown : Dev) (a : Nat) (w : Word) : Dev :=
  match d.writable a w with
  | some r => if r.kind = .rw ∨ r.kind = .expert then d.takeWord shown a w r else d
  | none => d

def execRegisterWrite (addr : Word) (data : Word) (s : State) : Ending :=
  s.upd (Dev.hosted fun d => d.registerWrite s.shown addr.toNat data)

/-- A word admitted at a register of sticky bits (R100). A 1 in a guarded bit needs a guarded pair (R95). -/
def Dev.w1cClear (d shown : Dev) (a : Nat) (w : Word) : Dev :=
  match d.writable a w with
  | some r => if r.kind = .w1c then d.clearSticky shown a w r else d
  | none => d

def execW1cClear (addr : Word) (data : Word) (s : State) : Ending :=
  s.upd (Dev.hosted fun d => d.w1cClear s.shown addr.toNat data)

/-- The first word of a wide value is read (R9, R177). -/
def Dev.wideRead (d shown : Dev) (a : Nat) : Dev :=
  match d.wordAt a with
  | .reg _ => if wideFrom a = 0 then d else d.captureWide shown a
  | _ => d

def execWideValueCapture (addr : Word) (s : State) : Ending :=
  s.upd (Dev.hosted fun d => d.wideRead s.shown addr.toNat)

/-- Reading HPT_ERR_CAUSE re-arms the recording of bus errors (R92). -/
def execErrCauseRead (s : State) : Ending :=
  s.upd (Dev.hosted fun d => d.onHost fun h => { h with errArmed := true })

/-- A write of 0 clears HPT_STALL_MAX; any other is ignored (R109). -/
def execStallMaxWrite (data : Word) (s : State) : Ending :=
  s.upd (Dev.hosted fun d => if data = 0 then d.setReg Reg.hptStallMax 0 else d)

/-- A transaction of one word in the pass-through half of a link window (R106). -/
def execHeadRegisterAccess (link : LinkId) (addr : BitVec 15) (write : Option Word) (s : State) : Ending :=
  s.upd fun d => d.transact s.shown
    (Txn.start (if write.isSome then 0x02 else 0x0B)
      (BitVec.ofNat 32 (0x1000000 + 0x10000 * link.1 + 0x8000 + addr.toNat)) [write] 0 false)

end Sys2Proof.Machine
end

