-- ==== Sys2Proof/Machine/Links.lean ====
section
/-! DEFINITION. Commands of the head links (chapter 4): frames and alarms received, training, loss, and the register
channel. -/

namespace Sys2Proof.Machine

/-! ### What arrives on a link -/

/-- Feedback that a frame has brought: a change on a group recomputes the segment map in its tick (R240); that it agrees with
its command is kept, and ends a fault decided before (R239), and the first closing of an output contactor under its close
command restarts its segment (R295); a matrix contactor that reads closed under its command merges two segments (R296). -/
def Dev.feedbackTaken (d was : Dev) (n : LinkId) : Dev :=
  let fb := (d.link n).hs.fb
  let c := (d.link n).con
  let agree := ~~~(fb ^^^ (d.link n).cmd.close)
  let first := fb &&& agree &&& ~~~c.seen
  let d1 :=
    if agree &&& (~~~c.seen ||| c.openFault ||| c.weld) = 0 then d
    else d.onCon n fun c => { c with seen := c.seen ||| agree, openFault := c.openFault &&& ~~~agree, weld := c.weld &&& ~~~agree }
  let d2 := if d.role n = .outlet ∧ first.getLsbD 0 then d1.restartSegment (d1.link n).prot.members else d1
  let old := (was.link n).hs.fb
  if d.role n = .power ∧ fb ≠ old then
    let d3 := d2.updateSegments
    if fb &&& ~~~old &&& (d.link n).cmd.close = 0 then d3 else d3.mergeSegment n
  else d2

def execHeadFrameReceived (link : LinkId) (blocks : List Block) (s : State) : Ending :=
  s.upd fun d => (d.frame link blocks).feedbackTaken d link

def execAlarmReceived (link : LinkId) (arg : BitVec 16) (s : State) : Ending := s.upd fun d => d.alarm link arg

/-! ### Training (R134 to R137) -/

/-- Training starts on a link that is off or lost and whose wait is over (R56, R136, R137). -/
def Dev.startTraining (d : Dev) (n : LinkId) : Dev :=
  let l := (d.link n).lnk
  if d.mayTrain n ∧ (l.state = .off ∨ l.state = .lost) ∧ d.trainDue n then d.beginTraining n else d

def execTrainingStart (link : LinkId) (s : State) : Ending := s.upd fun d => d.startTraining link

def execTrainAReply (link : LinkId) (arg : BitVec 16) (s : State) : Ending := s.upd fun d => d.trainA link arg

def execTrainBEcho (link : LinkId) (marker : BitVec 16) (rttPs : Word) (s : State) : Ending :=
  s.upd fun d => d.trainB link marker rttPs

def execTrainingComplete (link : LinkId) (s : State) : Ending := s.upd fun d => (d.enterConfirm link).trainDone link

/-- A step of the training has passed its bound (R134, R136). -/
def Dev.trainingFails (d : Dev) (n : LinkId) : Dev :=
  let d0 := d.enterConfirm n
  let l := (d0.link n).lnk
  match l.state.bound with
  | some b => if l.trainAt + ms b < d0.now then d0.failTraining n else d
  | none => d

def execTrainingFail (link : LinkId) (s : State) : Ending := s.upd fun d => d.trainingFails link

/-- The second that a failed training stops its link is over (R136). -/
def Dev.retryTraining (d : Dev) (n : LinkId) : Dev :=
  let l := (d.link n).lnk
  if d.mayTrain n ∧ l.state = .off ∧ l.retryAt.isSome ∧ d.trainDue n then d.beginTraining n else d

def execTrainingRetry (link : LinkId) (s : State) : Ending := s.upd fun d => d.retryTraining link

def execLinkLost (link : LinkId) (s : State) : Ending := s.upd fun d => d.lose link

/-- LNK_CMD.RETRAIN, through its completed guarded pair (R142). -/
def execRetrain (link : LinkId) (s : State) : Ending := s.upd fun d => d.gw (Reg.lnkCmd link) 1 fun d => d.retrain link

/-! ### The register channel (R139, R140) -/

/-- The response belongs to a request: its tag, its address, and read data to a read, write done to a write (R139). -/
def HeadRequest.fits (r : HeadRequest) (resp : BitVec 2) (tag : BitVec 6) (addr : BitVec 15) : Bool :=
  r.tag == tag && r.addr == addr && (resp == 3 || resp == (if r.write.isSome then 2 else 1))

/-- The head answers a word of the host (R106, R140): the transaction that waits for it goes on. A word whose transaction
was aborted has completed at the head, and its data is discarded (R103 step 3). -/
def Dev.hostAnswered (d shown : Dev) (n : LinkId) (reject : Bool) (data : Word) : Dev :=
  let d1 := d.reqDone n
  let later := ((d.link n).lnk.waiting.any fun x => x.purpose == .host)
  match d.host.run with
  | some t =>
    match t.head with
    | some (m, _, write) =>
      if m = n ∧ !later then
        let t1 : Txn := { t with head := none }
        let x := if reject then d1.busError t1 7 0 else (d1, t1)
        let value : Option Word := if write then none else some (if reject then 0 else data)
        (x.1.onHost fun h => { h with run := none }).goOn shown (x.2.next value)
      else d1
    | none => d1
  | none => d1

/-- A response arrives in a valid frame of its link (R131, R139, R140). -/
def Dev.response (d shown : Dev) (n : LinkId) (resp : BitVec 2) (tag : BitVec 6) (addr : BitVec 15) (data : Word) : Dev :=
  match (d.link n).lnk.request with
  | some r =>
    if (d.link n).lnk.state.framed ∧ r.fits resp tag addr then
      if r.purpose = .host then d.hostAnswered shown n (resp == 3) data
      else if resp = 3 then d.reqFailed n r.purpose
      else d.reqAnswered n r.purpose data
    else d
  | none => d

def execHeadRegResponse (link : LinkId) (resp : BitVec 2) (tag : BitVec 6) (addr : BitVec 15) (data : Word) (s : State) :
    Ending :=
  s.upd fun d => d.response s.shown link resp tag addr data

/-- A request without a response for 8 µs is repeated once, with the same TAG (R140). -/
def Dev.repeatReq (d : Dev) (n : LinkId) : Dev :=
  match (d.link n).lnk.request with
  | some r =>
    if r.since + 8 ≤ d.now ∧ !r.repeated then
      d.onLnk n fun l => { l with request := some { r with repeated := true, carry := true, since := d.now } }
    else d
  | none => d

def execHeadRegRepeat (link : LinkId) (s : State) : Ending := s.upd fun d => d.repeatReq link

end Sys2Proof.Machine
end

