-- ==== Sys2Proof/Machine/LocalIo.lean ====
section
/-! DEFINITION. The commands of the display, the keys and the auxiliary channels (R207, R458 to R475). -/

namespace Sys2Proof.Machine

def execDisplayFrame (differ : BitVec 68) (s : State) : Ending := s.upd fun d => d.displayFrame differ

def execBistablePulseEnd (s : State) : Ending := s.upd Dev.pulseEnd

/-- VLCD outside its range for 10 ms (R465): the drive stops, a pulse in progress is cut. -/
def execVlcdFault (s : State) : Ending :=
  s.upd fun d =>
    if d.disp.state = .legend ∨ d.disp.state = .scroll then
      (d.onDisp fun x => { x with
        state := .fault, faultNow := true, restartAt := d.now + secs 1, pass := [], passDue := false }).raise .lio 1
    else d

/-- Once per second the drive is started again, until VLCD holds (R465). -/
def execVlcdRestart (holds : Bool) (s : State) : Ending :=
  s.upd fun d =>
    if d.disp.faultNow ∧ !d.power.brace ∧ d.disp.restartAt ≤ d.now then
      if holds then d.onDisp fun x => { x with faultNow := false, state := d.mode.display }
      else d.onDisp fun x => { x with restartAt := d.now + secs 1 }
    else d

def execKeyMeasurement (key : Fin 2) (meas : BitVec 16) (s : State) : Ending := s.upd fun d => d.keyMeasured key meas

def execKeyTouch (key : Fin 2) (s : State) : Ending := s.upd fun d => d.keyTouched s.shown key

def execKeyRelease (key : Fin 2) (s : State) : Ending := s.upd fun d => d.keyReleased s.shown key

def execKeyLongTouch (s : State) : Ending := s.upd fun d => d.keyLong s.shown

/-- A touch held for 60 s (R470). -/
def execKeyStuck (key : Fin 2) (s : State) : Ending :=
  s.upd fun d =>
    let x := d.keys.get key
    if x.touched ∧ !x.stuck ∧ x.touchAt + secs 60 ≤ d.now then
      (d.onKey key fun y => { y with stuck := true }).raise .lio (8 + key.1)
    else d

/-- A stuck key is enabled again after 5 s below three quarters of THRESH (R470). -/
def execKeyUnstick (key : Fin 2) (s : State) : Ending :=
  s.upd fun d =>
    let x := d.keys.get key
    if x.stuck ∧ heldFor x.freeSince d.now (secs 5) then d.onKey key fun y => { y with stuck := false, touched := false }
    else d

/-- 5 s at or below −THRESH (R468); the baseline of a stuck key is frozen (R470). -/
def execKeyRebase (key : Fin 2) (s : State) : Ending :=
  s.upd fun d =>
    if !(d.keys.get key).stuck ∧ heldFor (d.keys.get key).lowSince d.now (secs 5) then
      (d.onKey key fun y => { y with base := y.meas, lowSince := none }).raise .lio 13
    else d

/-- Every DRIFT_S the baseline moves one count (R468). -/
def execKeyDrift (key : Fin 2) (s : State) : Ending :=
  s.upd fun d =>
    let x := d.keys.get key
    if !x.touched ∧ !x.stuck ∧ !x.blocked ∧ 2 * (x.delta.natAbs : Int) < d.keyThresh ∧ x.driftAt + secs d.driftSecs ≤ d.now then
      d.onKey key fun y => { y with
        driftAt := d.now
        base := if y.base.toNat < y.meas.toNat then y.base + 1 else if y.meas.toNat < y.base.toNat then y.base - 1 else y.base }
    else d

/-- AUTO_S without a touch (R207). -/
def execScrollAutoAdvance (s : State) : Ending :=
  s.upd fun d =>
    if d.scroll.auto ∧ !d.scroll.frozen ∧ d.disp.state = .scroll ∧ d.scroll.advAt + secs (d.field Reg.bilDispCfg 0 8) ≤ d.now then
      (d.advance s.shown true).onScroll fun x => { x with advAt := d.now }
    else d

/-- 30 s after the last touch (R207). -/
def execScrollResume (s : State) : Ending :=
  s.upd fun d =>
    if !d.scroll.auto ∧ !d.scroll.frozen ∧ d.scroll.touchAt + secs 30 ≤ d.now then
      d.onScroll fun x => { x with auto := true, advAt := d.now }
    else d

def execAuxCmdWrite (link : LinkId) (data : Word) (s : State) : Ending := s.upd (Dev.hosted fun d => d.auxCommand link data)

/-- RUN_ON_S after the end of the session (R472). -/
def execAuxRunOnExpiry (link : LinkId) (ch : Fin 4) (s : State) : Ending :=
  s.upd fun d =>
    match ((d.link link).aux.get ch).runOn with
    | some t =>
      if t ≤ d.now then
        (d.auxOff link ch).onAux link ch fun a => { a with runOn := none, wanted := false, offUntil := none, tach := .unsupervised }
      else d
    | none => d

/-- After 1 s off the channel is commanded on again (R473). -/
def execAuxOcRetry (link : LinkId) (ch : Fin 4) (s : State) : Ending :=
  s.upd fun d =>
    let a := (d.link link).aux.get ch
    match a.offUntil with
    | some t => if t ≤ d.now ∧ a.tach ≠ .blocked ∧ !a.fault then d.auxOn link ch (d.auxDuty link ch) else d
    | none => d

/-- OPEN_LOAD for 100 ms (R473): on a cooling channel it is BLOCKED too. -/
def execAuxOpenLoad (link : LinkId) (ch : Fin 4) (s : State) : Ending :=
  s.upd fun d =>
    let a := (d.link link).aux.get ch
    if a.on ∧ !a.openSet ∧ heldFor a.openSince d.now (ms 100) then
      let d1 := (d.onAux link ch fun x => { x with openSet := true }).raise (.aux link) (auxBit ch 1)
      if d.auxCooling link ch then d1.auxBlocked link ch else d1
    else d

/-- ON_STATE differs for 10 ms (R473). -/
def execAuxMismatch (link : LinkId) (ch : Fin 4) (s : State) : Ending :=
  s.upd fun d =>
    let a := (d.link link).aux.get ch
    if !a.misSet ∧ heldFor a.misSince d.now (ms 10) then
      (d.onAux link ch fun x => { x with misSet := true }).raise (.aux link) (auxBit ch 5)
    else d

/-- SPIN_UP has lasted SPIN_MS (R474). -/
def execAuxSpinTimeout (link : LinkId) (ch : Fin 4) (s : State) : Ending :=
  s.upd fun d =>
    let a := (d.link link).aux.get ch
    if a.on ∧ a.tach = .spinUp ∧ a.spinAt + ms (d.settingField (Reg.auxXTach link ch) 20 12) ≤ d.now then d.auxBlocked link ch
    else d

/-- After 5 s off a blocked channel spins up again (R474). -/
def execAuxBlockedRetry (link : LinkId) (ch : Fin 4) (s : State) : Ending :=
  s.upd fun d =>
    let a := (d.link link).aux.get ch
    match a.offUntil with
    | some t =>
      if t ≤ d.now ∧ a.tach = .blocked ∧ !a.fault then
        (d.auxOn link ch (d.auxDuty link ch)).onAux link ch fun x => { x with tries := a.tries + 1 }
      else d
    | none => d

end Sys2Proof.Machine
end

