-- ==== Sys2Proof/Machine/Modes.lean ====
section
/-! DEFINITION. The commands of the Pacer's supervision, of modes, wake bus, tempo, PMBus and supply. -/

namespace Sys2Proof.Machine

/-- CALENDAR_SECOND (R26): the calendar turns over at its tick; in DORMANT and in reset the keeper turns it. -/
def Dev.calendarSecond (d : Dev) : Dev :=
  if d.power.resetHeld ∨ (d.mode = .dormant ∧ !d.power.entering) then d.onPacer Pacer.keeperTurn
  else d.onPacer fun p => p.atTick d.now

def execCalendarSecond (s : State) : Ending := s.upd Dev.calendarSecond

/-- PACE_LOSS (R30): PAC_EVENTS and a TRIP_SITE decision. -/
def Dev.paceLoss (d : Dev) : Dev :=
  if d.mode = .dormant ∨ d.power.resetHeld then d
  else
    ((d.onPacer fun p => { p with paceOk := false }).onProtection fun p => { p with paceOkSince := none }).raise .pac 0
      |>.deviceCause 0x30 0

def execPaceLoss (s : State) : Ending := s.upd Dev.paceLoss

/-- PAC_DRIFT in 0.1 ppm (R31): a fifth of a period is left over, and the spec does not say how it is rounded. -/
def driftTenths (periods : Nat) : Int :=
  let x : Int := (2 * (periods : Int)) - 50000000
  x / 5 + (if x % 5 ≠ 0 ∧ Config.driftUp x then 1 else 0)

/-- PACE_DRIFT_CHECK (R30), once per second: beyond ±100 ppm PACE_DRIFT is set. -/
def Dev.paceDriftCheck (d : Dev) (periods : Nat) : Dev :=
  if d.pacer.driftAt + secs 1 ≤ d.now ∧ d.mode ≠ .dormant ∧ !d.power.resetHeld then
    let off := decide (periods < 24997500) || decide (25002500 < periods)
    ((d.onPacer fun p => { p with driftAt := d.now, driftNow := off }).setReg Reg.pacDrift
      (wordOfInt (driftTenths periods))).raiseIf off .pac 1 (wordOfInt (driftTenths periods))
  else d

def execPaceDriftCheck (periods : Nat) (s : State) : Ending := s.upd fun d => d.paceDriftCheck periods

/-- LAP_OVERRUN (R37): the laps of late outlets and sites are flagged, and the overrun is declared. -/
def Dev.lapOverrun (d : Dev) (cls : WorkClass) (late : List LinkId) : Dev :=
  let arg : Word := match cls with
    | .tick => 0
    | .samplePoint => 1
    | .planning => 2
    | .lapClosure => 3
  (d.each late fun d n =>
    if d.role n = .outlet ∨ d.role n = .site then d.onMet n fun m => { m with flags := { m.flags with overrun := true } }
    else d).overrun arg

def execLapOverrun (cls : WorkClass) (late : List LinkId) (s : State) : Ending := s.upd fun d => d.lapOverrun cls late

/-- POR_RELEASE (R56, R487): t of the bring-up. With TEST_EN high the device stays in WAKING. -/
def Dev.porRelease (d : Dev) (testEn paceOk loaderOk : Bool) : Dev :=
  if d.power.porAsserted then
    let d1 := d.onPower fun p => { p with porAsserted := false, testEn := testEn }
    if d.power.railLow.isEmpty then
      let d2 := (d1.onPacer fun p => { p with paceOk := true }).powerOn loaderOk
      if paceOk then d2 else d2.paceLoss
    else d1
  else d

def execPorRelease (testEn paceOk loaderOk : Bool) (s : State) : Ending := s.upd fun d => d.porRelease testEn paceOk loaderOk

/-- ENTER_STARTING_BLOCK (R56 step 4). -/
def Dev.enterStartingBlock (d : Dev) : Dev :=
  if d.power.bringup = .waking ∧ !d.power.resetHeld ∧ (d.mode = .waking ∨ d.mode = .safeHalt) ∧ !d.power.haltForGood then
    d.startingBlock
  else d

def execEnterStartingBlock (s : State) : Ending := s.upd Dev.enterStartingBlock

/-- A guarded mode request (R53): the core must run to take it. -/
def Dev.modeRequested (d : Dev) (code : Nat) : Dev := d.gw Reg.pwrModeReq (BitVec.ofNat 32 (code % 16)) fun d => d.modeRequest code

def execModeReqDormant (s : State) : Ending := s.upd fun d => d.modeRequested 0

def execModeReqRun (s : State) : Ending := s.upd fun d => d.modeRequested 3

def execModeReqEconomy (s : State) : Ending := s.upd fun d => d.modeRequested 4

def execModeReqMaintenance (s : State) : Ending := s.upd fun d => d.modeRequested 5

def execModeReqSafeHalt (s : State) : Ending := s.upd fun d => d.modeRequested 6

/-- ECO_DELAY_EXPIRY (R51): ECO_DELAY minutes in RUN with at most 24 sessions. -/
def Dev.ecoDelayExpiry (d : Dev) : Dev :=
  let m := d.field Reg.pwrTempoCfg 16 8
  if d.mode = .run ∧ m ≠ 0 ∧ heldFor d.power.ecoSince d.now (secs (60 * m)) ∧ d.liveSessions ≤ 24 then
    d.trigger (.toEconomy false)
  else d

def execEcoDelayExpiry (s : State) : Ending := s.upd Dev.ecoDelayExpiry

/-- SUPPLY_DORMANT_ENTRY (R51): PFAIL_N still asserted 20 ms after the last-gasp commit. -/
def Dev.supplyDormantEntry (d : Dev) : Dev :=
  if d.power.pfail ∧ heldFor d.power.warnAt d.now (ms 20) ∧ d.mode ≠ .dormant ∧ !d.power.resetHeld then
    d.trigger (.toDormant false)
  else d

def execSupplyDormantEntry (s : State) : Ending := s.upd Dev.supplyDormantEntry

/-- A wake-bus frame begins anew after an abandoned one (R66). -/
def Dev.frameTaken (d : Dev) : Dev := d.onPower fun p => { p with frameAbandoned := false }

/-- The frame's address is the device's own or names every node (R67). -/
def Dev.wakeMatch (d : Dev) (addr : Byte) : Bool := addr == 0xFF || d.field Reg.pwrWakeCfg 0 8 == addr.toNat

/-- The parity bit received is the one of the frame (R66). -/
def wakeParity (addr : Byte) (cmd : BitVec 4) (bit : Bool) : Bool := (wakeBits addr cmd).getLsbD 0 == bit

/-- WAKE_FRAME_WAKE (R67, R68). -/
def Dev.wakeFrame (d : Dev) (addr : Byte) (parity : Bool) : Dev :=
  let d1 := d.frameTaken
  if wakeParity addr 1 parity ∧ d.wakeMatch addr then d1.wakeCause (.wake addr) else d1

def execWakeFrameWake (addr : Byte) (parity : Bool) (s : State) : Ending := s.upd fun d => d.wakeFrame addr parity

/-- WAKE_FRAME_SLEEP_NOTICE (R67): recorded, no effect. -/
def Dev.sleepNotice (d : Dev) (addr : Byte) (parity : Bool) : Dev :=
  let d1 := d.frameTaken
  if wakeParity addr 2 parity then
    (d1.onPower fun p => { p with asleep := if p.asleep.contains addr then p.asleep else p.asleep ++ [addr] }).happen 589
      (BitVec.ofNat 32 addr.toNat)
  else d1

def execWakeFrameSleepNotice (addr : Byte) (parity : Bool) (s : State) : Ending := s.upd fun d => d.sleepNotice addr parity

/-- WAKE_FRAME_ALERT (R67, R68). -/
def Dev.alertFrame (d : Dev) (addr : Byte) (parity : Bool) : Dev :=
  let d1 := d.frameTaken
  if wakeParity addr 3 parity ∧ d.wakeMatch addr then d1.wakeCause (.alert addr) else d1

def execWakeFrameAlert (addr : Byte) (parity : Bool) (s : State) : Ending := s.upd fun d => d.alertFrame addr parity

/-- WAKE_BIT_TIMEOUT (R66): the frame is abandoned. -/
def execWakeBitTimeout (s : State) : Ending := s.upd fun d => d.onPower fun p => { p with frameAbandoned := true }

/-- PFAIL_RELEASE (R68, R73): a wake cause after a DORMANT entered under the supply rule. -/
def Dev.pfailRelease (d : Dev) : Dev :=
  let d1 := d.onPower fun p => { p with pfail := false, pfailGone := some d.now }
  if d.mode = .dormant ∧ d.power.supplyDormant then d1.wakeCause .pfailRelease else d1

def execPfailRelease (s : State) : Ending := s.upd Dev.pfailRelease

/-- READ_VOUT_POLL (R62): every 1 ms while the governor moves to a higher tempo. -/
def Dev.readVoutPoll (d : Dev) : Dev :=
  let p := d.power
  if p.tempo < p.target ∧ p.pmbOp.isNone ∧ p.voutAt.isSome ∧ p.pollAt + ms 1 ≤ d.now ∧ !p.pmbLost then
    (d.sendPmb .readVout).onPower fun p => { p with pollAt := d.now }
  else d

def execReadVoutPoll (s : State) : Ending := s.upd Dev.readVoutPoll

/-- The next transaction of the island's queue is sent. -/
def Dev.nextPmb (d : Dev) : Dev :=
  match d.power.pmbQueue with
  | [] => d.onPower fun p => { p with pmbOp := none, pmbRetryAt := none, pmbFails := 0 }
  | op :: rest => d.onPower fun p => { p with
      pmbOp := some op, pmbQueue := rest, pmbOpAt := d.now, pmbRetryAt := none, pmbFails := 0 }

/-- A transaction fails (R64): after the third retry PMB_LOST and PMB_FAIL, VCORE frozen and a rise under way refused, since no
READ_VOUT has confirmed it (R62). -/
def Dev.pmbFailed (d : Dev) : Dev :=
  if d.power.pmbLost then d.onPower fun p => { p with pmbOp := none, pmbQueue := [], pmbRetryAt := some (d.now + secs 1) }
  else if d.power.pmbFails < 3 then
    d.onPower fun p => { p with pmbFails := p.pmbFails + 1, pmbRetryAt := some (d.now + ms 10) }
  else
    ((d.onPower fun p => { p with
        pmbLost := true, pmbOp := none, pmbQueue := [], pmbFails := 0, pmbRetryAt := some (d.now + secs 1), voutAt := none
        target := p.tempo }).raise .pwr 1).raiseIf (decide (d.power.tempo < d.power.target)) .pwr 2

/-- A READ_VOUT reply, a linear-mode word (R62, R63, R64): at or above the new minimum it confirms the rise; 50 ms after
VOUT_COMMAND a reply below it is a failure. -/
def Dev.voutRead (d : Dev) (w : BitVec 16) : Dev :=
  let d1 := (d.setReg Reg.pwrVcoreRead (BitVec.ofNat 32 (linearMv d.power.voutMode w))).onPower fun p => { p with voutWord := w }
  let p := d1.power
  if p.tempo < p.target ∧ p.voutAt.isSome then
    if voutAtLeast p.voutMode w (tempoMv p.target) then (d1.onPower fun p => { p with riseReady := true }).nextPmb
    else if heldFor p.voutAt d.now (ms 50) then d1.pmbFailed
    else d1.nextPmb
  else d1.nextPmb

/-- PMBUS_TRANSACTION_DONE (R63, R64). -/
def Dev.pmbusDone (d : Dev) (res : PmbResult) : Dev :=
  match d.power.pmbOp, d.power.pmbRetryAt with
  | some op, none =>
    match res with
    | .ok data =>
      let d1 := d.onPower fun p => { p with pmbLost := false }
      match op with
      | .readVout => d1.voutRead data
      | .voutMode =>
        if data.extractLsb' 5 3 = 0 then (d1.onPower fun p => { p with voutMode := data.truncate 8 }).nextPmb else d.pmbFailed
      | .statusWord =>
        (((d1.onPower fun p => { p with statusWord := data }).happen 589 (BitVec.ofNat 32 data.toNat)).nextPmb).sendPmb
          .clearFaults
      | _ => d1.nextPmb
    | .nack | .pecError => d.pmbFailed
    | .busHeld => if d.power.pmbOpAt + ms 25 ≤ d.now then d.pmbFailed else d
  | _, _ => d

def execPmbusTransactionDone (res : PmbResult) (s : State) : Ending := s.upd fun d => d.pmbusDone res

/-- PMBUS_RETRY (R64): 10 ms after a failure the transaction is sent again. -/
def Dev.pmbusRetry (d : Dev) : Dev :=
  if !d.power.pmbLost ∧ heldFor d.power.pmbRetryAt d.now 0 then
    d.onPower fun p => { p with pmbRetryAt := none, pmbOpAt := d.now }
  else d

def execPmbusRetry (s : State) : Ending := s.upd Dev.pmbusRetry

/-- PMBUS_RECOVERY_RETRY (R64): once per second while PMB_LOST. -/
def Dev.pmbusRecoveryRetry (d : Dev) : Dev :=
  if d.power.pmbLost ∧ heldFor d.power.pmbRetryAt d.now 0 then
    d.onPower fun p => { p with pmbOp := some .readVout, pmbOpAt := d.now, pmbRetryAt := none }
  else d

def execPmbusRecoveryRetry (s : State) : Ending := s.upd Dev.pmbusRecoveryRetry

/-- TEMPO_LOWER (R61, R62): the lowest level that has covered the demand for DOWN_HOLD seconds is taken, and only then a lower
voltage is sent. -/
def Dev.tempoLower (d : Dev) : Dev :=
  let lo := d.tempoBounds.1
  let hold := secs (d.field Reg.pwrTempoCfg 8 8)
  match (List.finRange 8).find? fun t =>
      decide (lo ≤ t.1) && decide (t.1 < d.power.tempo) && d.covers t.1 && heldFor (d.power.covers.get t) d.now hold with
  | some t =>
    let d1 := d.onPower fun p => { p with tempo := t.1, target := t.1, riseReady := false }
    d1.sendVout (d1.voutFor t.1)
  | none => d

def execTempoLower (s : State) : Ending := s.upd Dev.tempoLower

/-- PMB_ALERT (R63): STATUS_WORD is read, of a regulator that was lost (R64) too; the reply is recorded and CLEAR_FAULTS
issued. -/
def Dev.pmbAlert (d : Dev) : Dev :=
  if d.mode = .dormant ∨ d.power.resetHeld then d
  else
    let d1 := d.sendPmb .statusWord
    if d.power.pmbLost ∧ d.power.pmbOp.isNone then d1.onPower fun p => { p with pmbRetryAt := none } else d1

def execPmbAlert (s : State) : Ending := s.upd Dev.pmbAlert

/-- VCORE_LOW (R65): a TRIP_SITE decision. -/
def Dev.vcoreLow (d : Dev) : Dev :=
  if d.mode = .dormant ∨ d.power.resetHeld then d
  else ((d.onProtection fun p => { p with vcoreOkSince := some d.now }).raise .pwr 0).deviceCause 0x31 0

def execVcoreLow (s : State) : Ending := s.upd Dev.vcoreLow

/-- SUPPLY_WARNING (R70): the last-gasp commit, heads braced; before recovery a new warning restarts its count. In DORMANT
the always-on domain records it. -/
def Dev.supplyWarning (d : Dev) (src : SupplySource) : Dev :=
  let arg : Word := match src with
    | .pfail => 0
    | .vaonLow => 1
  let d1 := (d.onPower fun p => match src with
    | .pfail => { p with pfail := true, pfailGone := none }
    | .vaonLow => { p with vaonLow := true }).raise .pwr 3 arg
  if d.mode = .dormant ∨ d.power.resetHeld then d1
  else if d.power.brace then (d1.onPower fun p => { p with warnAt := some d.now }).lastGasp
  else d1.braceUp.lastGasp

def execSupplyWarning (src : SupplySource) (s : State) : Ending := s.upd fun d => d.supplyWarning src

/-- SUPPLY_RECOVERY (R73): PFAIL_N has been released, and VAON above 0.78 V, for 10 ms, and no new warning has come. The
operand is the tick since which VAON has been above 0.78 V. -/
def Dev.supplyRecovery (d : Dev) (vaonSince : Tick) : Dev :=
  if d.power.brace ∧ !d.power.pfail ∧ heldFor d.power.warnAt d.now (ms 10) ∧
      (d.power.pfailGone.getD 0) + ms 10 ≤ d.now ∧ vaonSince + ms 10 ≤ d.now ∧ d.mode ≠ .dormant then d.unbrace else d

def execSupplyRecovery (vaonSince : Tick) (s : State) : Ending := s.upd fun d => d.supplyRecovery vaonSince

/-- RAIL_UNDERVOLTAGE_RESET (R486). -/
def Dev.railReset (d : Dev) (rail : Rail) : Dev :=
  if d.mode = .dormant then d
  else if d.power.resetHeld then
    d.onPower fun p => { p with railLow := if p.railLow.contains rail then p.railLow else p.railLow ++ [rail] }
  else
    let d1 := if rail = .vmr then d else d.lastGasp
    d1.resetAll.onPower fun p => { p with railLow := [rail] }

def execRailUndervoltageReset (rail : Rail) (s : State) : Ending := s.upd fun d => d.railReset rail

/-- POR_ASSERT (R487). -/
def Dev.porAssert (d : Dev) : Dev :=
  if d.power.porAsserted then d
  else (if d.power.resetHeld then d else d.resetAll).onPower fun p => { p with porAsserted := true }

def execPorAssert (s : State) : Ending := s.upd Dev.porAssert

/-- WAKE_RAILS_IN_RANGE (R51, R485): WAKING is entered. -/
def Dev.wakeRailsInRange (d : Dev) : Dev :=
  match d.power.waking with
  | some c => if d.mode = .dormant ∧ !d.power.entering then d.leaveDormant c else d
  | none => d

def execWakeRailsInRange (s : State) : Ending := s.upd Dev.wakeRailsInRange

/-- DORMANT_ENTRY_END (R69, R75): the core is off; a cause the false-start latch caught starts WAKING. -/
def Dev.dormantEntryEnd (d : Dev) : Dev :=
  if d.mode = .dormant ∧ d.power.entering then
    let d1 := d.coreReset false
    (d1.onPower fun p => { p with
      mode := .dormant, entering := false, waking := d.power.caught, caught := d.power.caught, vcoreOff := true
      pmbOp := d.power.pmbOp, pmbQueue := d.power.pmbQueue }).onPacer fun p => { p with dormantTick := d.now }
  else d

def execDormantEntryEnd (s : State) : Ending := s.upd Dev.dormantEntryEnd

/-- RAIL_RESET_RELEASE (R486): every rail has been within range for 1 ms; the loader is verified as after any reset (R56). -/
def Dev.railResetRelease (d : Dev) (loaderOk : Bool) : Dev :=
  if d.power.resetHeld ∧ !d.power.railLow.isEmpty then
    let d1 := d.onPower fun p => { p with railLow := [] }
    if d.power.porAsserted then d1 else d1.powerOn loaderOk
  else d

def execRailResetRelease (loaderOk : Bool) (s : State) : Ending := s.upd fun d => d.railResetRelease loaderOk

end Sys2Proof.Machine
end

