-- ==== Sys2Proof/Machine/TickOps.lean ====
section
/-! DEFINITION. What a tick closure, a sample point, a planning lap boundary and a lap boundary do (R22, R24, R184). -/

namespace Sys2Proof.Machine

/-! ### Device frames (R116, R119, R121, R122, R139) -/

/-- The device sends a frame in a tick: from the tick that TRAIN_C named, on a link that is not stopped (R134, R137). -/
def Dev.sendsFrame (d : Dev) (n : LinkId) (tick : Tick) : Bool :=
  let l := (d.link n).lnk
  l.state.framed || l.state == .trainC && (l.firstFrame.map fun t => decide (t ≤ tick)).getD false

/-- The field of an outlet's reader is off: no modulation, or the 5 ms after a transaction was abandoned (R331, R333). -/
def Dev.fieldBarred (d : Dev) (n : LinkId) : Bool :=
  d.field (Reg.tagLCfg n) 0 3 == 0 || (d.link n).tag.mismatch || (d.link n).tag.fieldOff.isSome

/-- The device frame of a tick, from the state committed at the closure before it. Until training is complete its data blocks
are zero (R134), but for the register channel. -/
def Dev.frameFor (d : Dev) (n : LinkId) (tick : Tick) : FrameOut :=
  let l := d.link n
  let c := l.cmd
  let role := d.role n
  let out := decide (role = .outlet)
  let power := decide (role = .power)
  let free (b : Nat) : Word := Config.frameOpen d.fresh n.1 b
  let full (use : Bool) (w : Word) : Word := if use && d.trained n then w else 0
  let ask : Option HeadRequest := l.lnk.request.filter fun r => r.carry
  FrameOut.sealed (n := n.1)
  { pace := BitVec.ofNat 16 tick
    b1 := full l.prot.imd.injecting (packWord [(31, 1, 1), (30, 1, b2n l.prot.imd.positive), (0, 16, d.injAmp n)])
    plc := (List.range 24).map fun k =>
      full (out && !d.megawatt n) (if k = 23 then packWord [(18, 14, fieldOf (free 27) 18 14)] else free (4 + k))
    b28 := full (out && !d.fieldBarred n)
      (packWord [(16, 16, fieldOf (free 28) 16 16),
        (15, 1, if l.tag.engine.isSome then 1 else fieldOf (free 28) 15 1), (12, 3, fieldOf (free 28) 12 3)])
    b32 := full out (packWord [(30, 2, c.pilotMode.toNat), (16, 10, c.duty.toNat), (15, 1, b2n c.plcEn)])
    b33 := full (out || power) (BitVec.ofNat 32 (d.closeBits n).toNat)
    b34 := full out (packWord ((List.finRange 4).flatMap fun k =>
      if d.auxFitted n k then
        [(31 - 8 * k.1, 1, b2n (d.auxCommanded n k)), (30 - 8 * k.1, 1, b2n (d.bit (Reg.auxCfg n k) 29)),
          (24 - 8 * k.1, 6, if d.mode = .startingBlock then 0 else (l.aux.get k).duty.toNat)]
      else []))
    b35 := full (out && d.megawatt n) (packWord [(12, 20, fieldOf (free 35) 12 20)])
    b36 :=
      if power then full true (packWord [(16, 16, c.vset.toNat), (0, 16, c.iset.toNat)])
      else
        let p := if d.txLink = some n then d.gridPulse tick else 0
        full (0 < p) (packWord [(30, 2, p), (29, 1, 1)])
    b37 := full power (packWord [(30, 2, c.gmode.toNat), (0, 16, c.plim.toNat)])
    b38 := full true (packWord [(31, 1, b2n d.warned), (30, 1, b2n (l.lnk.state == .held || l.prot.latch.isSome))])
    b40 := match ask with
      | some r => packWord [(30, 2, if r.write.isSome then 2 else 1), (24, 6, r.tag.toNat), (0, 15, r.addr.toNat)]
      | none => 0
    b41 := (ask.bind fun r => r.write).getD 0
    crc := 0 }

/-- The device frame of a tick is sent on a link. A contactor command counts from the first frame that carries it (R240); an
output contactor's close command restarts its segment there (R295). -/
def Dev.sendFrame (d : Dev) (tick : Tick) (n : LinkId) : Dev :=
  if d.sendsFrame n tick then
    let old := (d.link n).frame.b33
    let f := d.frameFor n tick
    let d1 := d.onLink n fun l => { l with
      frame := f
      lnk := { l.lnk with request := l.lnk.request.map (fun r => { r with carry := false }), spoiled := false }
      con := { l.con with carried := if l.lnk.spoiled then l.con.carried else l.con.carried.map fun t => t.or (some tick) }
      prot := { l.prot with imd := l.prot.imd.countQuiet (bitOf l.frame.b1 31) (bitOf f.b1 31) l.lnk.spoiled } }
    if d.role n = .outlet ∧ bitOf f.b33 0 ∧ !bitOf old 0 then d1.restartSegment (d1.link n).prot.members else d1
  else d

/-! ### Closure -/

/-- A waiting update is applied (R22). -/
def Dev.applyCommit (d was : Dev) (c : Commit) : Dev :=
  match c with
  | .tagResult n path o => d.tagResult was n path o
  | .contract w late => d.contractDone was w late
  | .object path late => d.objectDone was path late
  | .rootTest t => d.rootTested t
  | .drkTest => d.drkTested

/-- A credit grant waits while the tenant registers are frozen (R182). -/
def Dev.commitWaits (d : Dev) (c : Commit) : Bool :=
  match c with
  | .object path _ => d.mode == .maintenance && objKind (d.objectOf path) == 1
  | _ => false

/-- The updates of the tick, in photo-finish order (R22, R38, R323, R358). -/
def Dev.commitAll (d was : Dev) : Dev :=
  let waits := d.commits.filter fun e => d.commitWaits e.2
  let now := d.commits.filter fun e => !d.commitWaits e.2
  ({ d with commits := waits } : Dev).each (sortCommits now) fun d e => d.applyCommit was e.2

/-- A request that its one repeat left unanswered (R140). A word of the host that the port still waits for ends by
HEAD_TIMEOUT. -/
def Dev.requestLate (d : Dev) (n : LinkId) : Dev :=
  match (d.link n).lnk.request with
  | some r =>
    if r.repeated ∧ r.since + 8 ≤ d.now then
      if r.purpose = .host then (if d.host.run.isSome then d else d.reqDone n) else d.reqFailed n r.purpose
    else d
  | none => d

/-- An outlet at a closure: why its plug-in waits, a credential that may now be applied (R266, R268), its limits
and setpoints published (R271, R272), and its cooling back in IDLE. -/
def Dev.outletTick (d : Dev) (n : LinkId) : Dev :=
  let d1 := (d.endUnclosed n).plugWait n
  let v := (d1.link n).veh
  let d2 : Dev := match v.held with
    | some h => if v.state = .authorizing ∧ !d1.sessionBarred n ∧ !d1.warned then d1.applyCredential n h else d1
    | none => d1
  let d3 := if (d2.link n).veh.live then (d2.publish n).setpoints n else d2
  if v.state = .idle then d3.auxIdle n else d3

/-- A group at a closure. -/
def Dev.groupTick (d : Dev) (g : LinkId) : Dev := (d.withdrawTick g).assignBounds g

/-- Once per second outside DORMANT (R77, R423). -/
def Dev.operatingSecond (d : Dev) : Dev :=
  if (d.now + 1) % 1000000 = 0 then (d.setReg Reg.pwrOpSeconds (d.reg Reg.pwrOpSeconds + 1)).countWindow else d

/-- PACE_IN is present in a tick that closes (R24, R30). -/
def Dev.paceSeen (d : Dev) : Dev :=
  (d.onPacer fun p => { p with paceOk := true }).onProtection fun p => { p with
    paceOkSince := some (p.paceOkSince.getD d.now) }

/-- Pointer resynchronisation ends within 2 µs (R103). -/
def Dev.resyncDone (d : Dev) : Dev :=
  d.onHost fun h => if h.resync ∧ h.resyncAt + 2 ≤ d.now then { h with resync := false } else h

/-- The work of the closing tick on every link, before the modes are resolved. -/
def Dev.closeLinks (d : Dev) : Dev :=
  let d1 := (d.each d.usedLinks Dev.judgeMissing).each d.usedLinks Dev.requestLate
  let d2 := (d1.each d1.outlets Dev.outletTick).each d1.powers Dev.groupTick
  (d2.each d2.usedLinks Dev.clearOnOpen).budgetRaise

/-- What follows a lap boundary at the closure of its tick (R418, R468): a waiting update may activate, and the base readings of
the keys are committed. -/
def Dev.afterLap (d : Dev) : Dev := if d.pacer.lastBoundary = some d.now then d.autoActivate.storeKeys else d

/-- Modes, tempo and the gates of the units that follow the mode (R51, R54, R61, R377, R448, R463). -/
def Dev.closeModes (d shown : Dev) : Dev :=
  let d1 := d.economyExit.afterLap.resolveModes.countEco.govern
  let d2 := (if d1.demandTick then d1 else d1.spoilDemand).gridGate.arcGate.displayGate shown
  if (d2.pacer.atTick d2.now).secondAt d2.now then d2.glassSecond shown else d2

/-- Commands of pilots and groups, and what protection keeps, after the decisions of the tick. -/
def Dev.closeCommands (d : Dev) : Dev :=
  let d1 := (d.each d.outlets Dev.driveOutlet).each d.powers Dev.driveGroup
  let d2 := d1.chooseInjectors.checkGone.each d1.usedLinks Dev.feedbackSince
  d2.onProtection fun p => { p with sigClosed := d2.ownSig }

/-- The next tick is open: what counts within one tick starts anew, a change of rate takes effect at a multiple of 125 (R147),
the device frames go out, and the segment map follows the commands they carry (R240). -/
def Dev.nextTick (d : Dev) : Dev :=
  let next := d.now + 1
  let d1 := (d.onPacer fun p => { p with tick := next }).openTick
  let d2 := d1.each d1.usedLinks fun d n => d.onLnk n fun l => { l with judged := false, alarmNow := false, preempt := none }
  (((applyIf (next % 125 = 0) Dev.setRates d2).each d2.usedLinks fun d n => d.sendFrame next n).drew).updateSegments

/-- TICK_CLOSURE (R22): the tick closes, its records are issued and its events written. -/
def Dev.closeTick (d shown : Dev) : Dev :=
  let d0 := d.lapFirst.commitAll shown
  let d1 := (d0.closeLinks.closeModes shown).closeCommands.feedEngines
  let dp := applyIf (d1.mode != .dormant) (fun d => d.each [0, 1] Dev.tpoPin) d1
  let d2 := dp.operatingSecond.paceSeen.resyncDone.issueWaiting.clearRewritten shown
  let d3 := d2.closeEvents d2.view d2.poisonWord
  d3.onRec fun r => { r with evt := d3.eventLines }

/-! ### Sample points -/

/-- One sample set of the archive (R449): the raw samples of a link's channels, where one falls at its rate. -/
def Dev.rawSet (d : Dev) (n : LinkId) : List Byte :=
  let m := (d.link n).met
  if m.fast ∨ sampleIndex d.now % 4 = 3 then
    (m.chans.toList.take (d.role n).channels).flatMap fun c => bytesBE 3 (BitVec.ofInt 24 (rawOf m.fast c)).toNat
  else []

def Dev.arcSamples (d : Dev) : Dev :=
  d.each (List.finRange 8) fun d k =>
    if d.nsContent k < 2 then d
    else
      let first := d.settingField (Reg.memXArcNs k) 8 8
      let last := d.settingField (Reg.memXArcNs k) 0 8
      d.arcSample k ((d.usedLinks.filter fun n => decide (first ≤ n.1 ∧ n.1 ≤ last)).flatMap d.rawSet)

/-- SAMPLE_POINT (R24): samples, then what is judged on them, once in the tick on which it falls. -/
def Dev.samplePoint (d : Dev) : Dev :=
  if d.ticking ∧ isSamplePoint d.now ∧ d.pacer.sampledAt ≠ some d.now then
    let dl := d.lapFirst
    let d0 := (dl.onPacer fun p => { p with sampledAt := some d.now }).each dl.usedLinks Dev.judgeMissing
    let d1 := d0.each d0.usedLinks Dev.sampleLink
    let d2 := d1.each d1.usedLinks Dev.protSample
    let d3 := (d2.each d2.outlets Dev.senseSample).each d2.outlets Dev.vehSample
    let d4 := ((d3.each d3.powers Dev.groupSample).each (List.finRange 16) Dev.exchangeSample).each d3.usedLinks
      Dev.symmetrySample
    let d5 := if d4.power.brace && d4.power.warning && d4.power.commitAt != d4.now then d4.lastGasp else d4
    d5.arcSamples
  else d

/-! ### Planning lap boundaries -/

/-- Frames of the planning lap that ends (R133, R142). -/
def Dev.lapFrames (d : Dev) (n : LinkId) : Dev :=
  let l := d.link n
  let rx : Byte := BitVec.ofNat 8 (fieldOf l.hs.b38 8 8)
  let head := (l.lnk.lapRxFail.map fun b => (rx - b).toNat).getD 0
  let lim := d.field (Reg.lnkCfg n) 16 8
  let d1 := d.setReg (Reg.lnkFailLap n) (packWord [(16, 16, head), (0, 16, min l.lnk.lapFails 0xFFFF)])
  (d1.onLnk n fun x => { x with lapFails := 0, lapRxFail := x.lapRxFail.map fun _ => rx }).raiseIf
    (decide (lim ≠ 0) && (decide (lim < l.lnk.lapFails) || decide (lim < head))) (.lnk n) 8

/-- Credit at a planning lap boundary (R194 to R196): reservations, LOW_CREDIT, and the stop of a prepaid tenant at or below
STOP_RESERVE. -/
def Dev.creditStep (d : Dev) : Dev :=
  let was := d
  let d1 := d.each d.outlets Dev.reserve
  let ts := (d.outlets.filterMap fun n => (d.link n).bill.session.map fun s => s.tenant).eraseDups
  (d1.each ts fun d t =>
    let e := (d.sumResv t).checkLow was t
    let going := (e.sessionsOf t).any fun n => decide ((e.link n).veh.stopWhy = .none)
    if going && e.prepaid t && e.creditOut t then (e.raise (.bilT t) 4).stopTenant t else e) |>.armLow

/-- Metrology at a planning lap boundary (R161, R164): harmonics every second one. -/
def Dev.planMetrology (d : Dev) : Dev :=
  let d0 := applyIf (d.pacer.lastBoundary != some d.now) (fun d => d.each d.usedLinks Dev.notePower) d
  let d1 := d0.each d0.usedLinks Dev.latchPlanning
  d1.each (d1.linksOf .site) fun d n =>
    let odd := (d.link n).met.planOdd
    (applyIf odd (fun d => d.harmonics n) d).onMet n fun m => { m with planOdd := !odd }

/-- PLANNING_LAP_BOUNDARY (R24, R229): values latched, allocation planned, sessions and auxiliary channels judged. -/
def Dev.planningLap (d : Dev) : Dev :=
  if d.ticking ∧ d.now % 100000 = 0 ∧ 0 < d.now ∧ d.pacer.plannedAt ≠ some d.now then
    let d0 := (d.onPacer fun p => { p with plannedAt := some d.now }).each d.usedLinks Dev.lapFrames
    let d1 := d0.planMetrology.creditStep
    let d2 := ((d1.setReg Reg.alcPlanNum (BitVec.ofNat 32 (d1.now / 100000))).plan).selectMoves.startReleases.exchNoTarget
    let d3 := (d2.each d2.outlets Dev.vehPlan).vlcdUpdate
    d3.each d3.outlets fun d n => d.each (List.finRange 4) fun d k => d.tachJudge n k
  else d

/-! ### Lap boundaries -/

/-- LAP_BOUNDARY (R27, R184). -/
def Dev.lapBoundary (d : Dev) : Dev := d.lapFirst

end Sys2Proof.Machine
end

