-- ==== Sys2Proof/Machine/Ticks.lean ====
section
/-! DEFINITION. Commands of the Pacer: the closure of a tick, and what falls on a tick. -/

namespace Sys2Proof.Machine

/-- TICK_CLOSURE: what the closing tick leaves is what a read, and the frames of the next tick, show (R22, R101). -/
def execTickClosure (s : State) : Ending :=
  if s.dev.ticking then
    let closed := (s.dev.closeTick s.shown).settled
    .next { s with dev := closed.nextTick.settled, shown := closed }
  else .next s

def execSamplePoint (s : State) : Ending := s.upd Dev.samplePoint

def execPlanningLapBoundary (s : State) : Ending := s.upd Dev.planningLap

def execLapBoundary (s : State) : Ending := s.upd Dev.lapBoundary

end Sys2Proof.Machine
end

