-- ==== Sys2Proof/Machine/Vehicles.lean ====
section
/-! DEFINITION. The commands of the vehicle sessions (R252 to R278). -/

namespace Sys2Proof.Machine

/-- A classification of PILOT_HI has held for 3,000 ticks (R252). -/
def execPilotStateTaken (link : LinkId) (s : State) : Ending :=
  s.upd fun d =>
    let v := (d.link link).veh
    match v.cand with
    | some p =>
      if d.role link = .outlet ∧ d.trained link ∧ p ≠ .invalid ∧ p ≠ v.pilot ∧ heldTicks v.candSince d.now 3000 then
        d.takePilot link p
      else d
    | none => d

/-- A classification outside every range has held for 100 ms (R252). -/
def execPilotFault (link : LinkId) (s : State) : Ending :=
  s.upd fun d =>
    let v := (d.link link).veh
    if d.role link = .outlet ∧ v.cand = some .invalid ∧ v.pilot ≠ .invalid ∧ heldTicks v.candSince d.now 100000 then
      (d.onVeh link fun x => { x with pilot := .invalid }).pilotFaulted link
    else d

/-- PILOT_LO has been outside its range for 3 ms under PWM (R253). -/
def execPilotDiodeMissing (link : LinkId) (s : State) : Ending :=
  s.upd fun d =>
    match (d.link link).veh.diodeSince with
    | some t =>
      if heldTicks t d.now 3000 then (d.onVeh link fun x => { x with diodeSince := none }).pilotFaulted link else d
    | none => d

/-- After 4 s at state F the pilot is held at steady +12 V (R254). -/
def execFaultPilotFEnd (link : LinkId) (s : State) : Ending :=
  s.upd fun d =>
    match (d.link link).veh.pilotFUntil with
    | some t => if t ≤ d.now then d.onVeh link fun x => { x with pilotFUntil := none } else d
    | none => d

/-- C or D to B on DC with current flowing (R254): opened at the first sample point at or below STOP_A, at most 100 ms later. -/
def execStopCToBOpen (link : LinkId) (s : State) : Ending :=
  s.upd fun d =>
    match (d.link link).veh.cToBAt with
    | some t =>
      if t + ms 100 ≤ d.now ∨ (isSamplePoint d.now ∧ d.currentAtMost link (d.stopA link)) then d.stopOpen link else d
    | none => d

/-- A proximity value has been stable for 3 ms (R256). -/
def execProximityTaken (link : LinkId) (s : State) : Ending :=
  s.upd fun d =>
    let v := (d.link link).veh
    if d.role link = .outlet ∧ d.trained link ∧ v.cand.isSome ∧ v.pp ≠ some v.ppRaw ∧ heldTicks v.ppSince d.now 3000 then
      d.takeProx link v.ppRaw
    else d

def execMatchingStart (link : LinkId) (s : State) : Ending := s.upd fun d => d.startMatching link

def execSlacParmReq (link : LinkId) (evMac : BitVec 48) (runId : BitVec 64) (s : State) : Ending :=
  s.upd fun d => d.slacParm link evMac runId

def execStartAttenCharInd (link : LinkId) (runId : BitVec 64) (s : State) : Ending :=
  s.upd fun d => d.soundingStart link runId

def execSlacMatchReq (link : LinkId) (evMac evseMac : BitVec 48) (runId : BitVec 64) (s : State) : Ending :=
  s.upd fun d => d.slacMatch link evMac evseMac runId

def execCmValidate (link : LinkId) (toggles : Nat) (s : State) : Ending := s.upd fun d => d.validate link toggles

def execSlacInitExpiry (link : LinkId) (s : State) : Ending := s.upd fun d => d.slacExpiry link

/-- 4 s after a failed attempt a new one may start (R260). -/
def execAttemptRestart (link : LinkId) (s : State) : Ending :=
  s.upd fun d =>
    match (d.link link).veh.restartAt with
    | some t => if t ≤ d.now then d.onVeh link fun x => { x with restartAt := none } else d
    | none => d

def execSupportedAppProtocol (link : LinkId) (offered : List Protocol) (s : State) : Ending :=
  s.upd fun d => d.appProtocol link offered

def execSessionSetupReq (link : LinkId) (form : V2gForm) (s : State) : Ending := s.upd fun d => d.sessionSetup link form

def execAuthorizationReq (link : LinkId) (form : V2gForm) (contract : Option ContractChain) (s : State) : Ending :=
  s.upd fun d => d.authRequest link form contract

def execCableCheckReq (link : LinkId) (form : V2gForm) (s : State) : Ending := s.upd fun d => d.cableCheck link form

def execPreChargeReq (link : LinkId) (form : V2gForm) (targetV targetI : BitVec 16) (s : State) : Ending :=
  s.upd fun d => d.preCharge link form targetV targetI

def execPowerDeliveryStart (link : LinkId) (form : V2gForm) (s : State) : Ending := s.upd fun d => d.deliver link form

def execPowerDeliveryStop (link : LinkId) (form : V2gForm) (s : State) : Ending := s.upd fun d => d.deliverStop link form

def execChargeLoopReq (link : LinkId) (form : V2gForm) (req : ChargeLoop) (s : State) : Ending :=
  s.upd fun d => d.chargeLoop link form req

/-- Pause and standby are not supported (R277). -/
def execPauseStandbyReq (link : LinkId) (s : State) : Ending :=
  s.upd fun d =>
    let v := (d.link link).veh
    if v.live ∧ v.talking ∧ v.state ≠ .stopping then (d.answer link .ok).startStop link .vehicle (vehRank link) else d

/-- No request within the standard's sequence timeout (R269). -/
def execV2gSequenceTimeout (link : LinkId) (s : State) : Ending :=
  s.upd fun d =>
    let v := (d.link link).veh
    if v.talking ∧ v.protocol ≠ .none ∧ v.state ≠ .matching ∧ v.state ≠ .stopping then d.badMessage link else d

def execStateBoundExpiry (link : LinkId) (s : State) : Ending := s.upd fun d => d.stateBound link

/-- A card, a tag or a contract certificate of an outlet has its result in this tick (R22, R326). -/
def Dev.decides (d : Dev) (n : LinkId) : Bool :=
  d.commits.any fun e => match e.2 with
    | .tagResult m _ _ => m == n
    | .contract w _ => w.link == n
    | _ => false

/-- AUTH_MS passes in AUTHORIZING without a decision (R265, R326); a result of this tick comes first. -/
def execAuthTimeout (link : LinkId) (s : State) : Ending :=
  s.upd fun d =>
    let v := (d.link link).veh
    if v.state = .authorizing ∧ v.waitAuth.isNone ∧ !d.decides link ∧ v.stateAt + secs (d.settingField (Reg.vehXAuth link) 0 16) ≤ d.now then
      ((d.raise (.veh link) 5).answer link .failed).endAttempt link 5
    else d

/-- A credential held for an IDLE outlet lapses after AUTH_HOLD (R267). -/
def execAuthHoldExpiry (link : LinkId) (s : State) : Ending :=
  s.upd fun d =>
    let v := (d.link link).veh
    match v.held with
    | some h =>
      if v.state = .idle ∧ h.since + secs (d.settingField (Reg.vehXAuth link) 16 16) ≤ d.now then
        d.onVeh link fun x => { x with held := none }
      else d
    | none => d

/-- The outlet current has been at or below STOP_A for 10 ms (R275 step 2). -/
def execStopCurrentLow (link : LinkId) (s : State) : Ending :=
  s.upd fun d =>
    let v := (d.link link).veh
    if v.live ∧ v.state = .stopping ∧ !v.openCmd ∧ heldFor v.lowSince d.now (ms 10) then d.stopOpen link else d

/-- STOP_MS expires first (R275 step 3). -/
def execStopMsExpiry (link : LinkId) (s : State) : Ending :=
  s.upd fun d =>
    let v := (d.link link).veh
    if v.live ∧ v.state = .stopping ∧ !v.openCmd ∧ v.stopAt + ms (d.stopMs link) ≤ d.now then
      (d.stopOpen link).raise (.veh link) 8
    else d

def execSessionEnd (link : LinkId) (s : State) : Ending := s.upd fun d => d.endIfOpen link

/-- VEH_CMD.STOP (R276). -/
def execVehStopCmd (link : LinkId) (s : State) : Ending := s.upd fun d =>
  d.gw (Reg.vehCmd link) 1 fun d => d.startStop link .remote hostRank

/-- VEH_DISCH_KW (R273). -/
def execDischKwWrite (link : LinkId) (data : Word) (s : State) : Ending :=
  s.upd <| Dev.hosted fun d =>
    if d.role link = .outlet then d.setReg (Reg.vehDischKw link) (BitVec.ofNat 32 (fieldOf data 0 16)) else d

def execDirectionSettled (link : LinkId) (s : State) : Ending := s.upd fun d => d.settleDirection link

def execSoundingWindowEnd (link : LinkId) (s : State) : Ending := s.upd fun d => d.soundingEnd link

def execAttenSoundRx (link : LinkId) (runId : BitVec 64) (groups : Vector Byte 58) (s : State) : Ending :=
  s.upd fun d => d.sound link runId groups

def execNegotiationReq (link : LinkId) (form : V2gForm) (agreed : Option Negotiated) (s : State) : Ending :=
  s.upd fun d => d.negotiate link form agreed

def execTlsHandshake (link : LinkId) (ok done : Bool) (s : State) : Ending := s.upd fun d => d.tlsStep link ok done

end Sys2Proof.Machine
end

