-- ==== Sys2Proof/Machine/Dispatch.lean ====
section
/-! DEFINITION. One arm per command: its meaning, applied to its operands and the state. -/

namespace Sys2Proof.Machine

def exec (i : Instr) (s : State) : Host.Outcome State Fault Refusal :=
  match i with
  | .tickClosure => Sys2Proof.Machine.execTickClosure s
  | .samplePoint => Sys2Proof.Machine.execSamplePoint s
  | .planningLapBoundary => Sys2Proof.Machine.execPlanningLapBoundary s
  | .lapBoundary => Sys2Proof.Machine.execLapBoundary s
  | .calendarSecond => Sys2Proof.Machine.execCalendarSecond s
  | .paceLoss => Sys2Proof.Machine.execPaceLoss s
  | .paceDriftCheck x1 => Sys2Proof.Machine.execPaceDriftCheck x1 s
  | .lapOverrun x1 x2 => Sys2Proof.Machine.execLapOverrun x1 x2 s
  | .porRelease x1 x2 x3 => Sys2Proof.Machine.execPorRelease x1 x2 x3 s
  | .enterStartingBlock => Sys2Proof.Machine.execEnterStartingBlock s
  | .enterRun x1 x2 x3 => Sys2Proof.Machine.execEnterRun x1 x2 x3 s
  | .modeReqDormant => Sys2Proof.Machine.execModeReqDormant s
  | .modeReqRun => Sys2Proof.Machine.execModeReqRun s
  | .modeReqEconomy => Sys2Proof.Machine.execModeReqEconomy s
  | .modeReqMaintenance => Sys2Proof.Machine.execModeReqMaintenance s
  | .modeReqSafeHalt => Sys2Proof.Machine.execModeReqSafeHalt s
  | .ecoDelayExpiry => Sys2Proof.Machine.execEcoDelayExpiry s
  | .supplyDormantEntry => Sys2Proof.Machine.execSupplyDormantEntry s
  | .wakeFrameWake x1 x2 => Sys2Proof.Machine.execWakeFrameWake x1 x2 s
  | .wakeFrameSleepNotice x1 x2 => Sys2Proof.Machine.execWakeFrameSleepNotice x1 x2 s
  | .wakeFrameAlert x1 x2 => Sys2Proof.Machine.execWakeFrameAlert x1 x2 s
  | .wakeBitTimeout => Sys2Proof.Machine.execWakeBitTimeout s
  | .pfailRelease => Sys2Proof.Machine.execPfailRelease s
  | .readVoutPoll => Sys2Proof.Machine.execReadVoutPoll s
  | .pmbusTransactionDone x1 => Sys2Proof.Machine.execPmbusTransactionDone x1 s
  | .pmbusRetry => Sys2Proof.Machine.execPmbusRetry s
  | .pmbusRecoveryRetry => Sys2Proof.Machine.execPmbusRecoveryRetry s
  | .tempoLower => Sys2Proof.Machine.execTempoLower s
  | .pmbAlert => Sys2Proof.Machine.execPmbAlert s
  | .vcoreLow => Sys2Proof.Machine.execVcoreLow s
  | .supplyWarning x1 => Sys2Proof.Machine.execSupplyWarning x1 s
  | .supplyRecovery x1 => Sys2Proof.Machine.execSupplyRecovery x1 s
  | .railUndervoltageReset x1 => Sys2Proof.Machine.execRailUndervoltageReset x1 s
  | .porAssert => Sys2Proof.Machine.execPorAssert s
  | .writeInc x1 x2 => Sys2Proof.Machine.execWriteInc x1 x2 s
  | .writeFix x1 x2 => Sys2Proof.Machine.execWriteFix x1 x2 s
  | .readInc x1 x2 => Sys2Proof.Machine.execReadInc x1 x2 s
  | .readFix x1 x2 => Sys2Proof.Machine.execReadFix x1 x2 s
  | .readId => Sys2Proof.Machine.execReadId s
  | .unknownOpcode x1 => Sys2Proof.Machine.execUnknownOpcode x1 s
  | .transactionAbort x1 x2 x3 x4 => Sys2Proof.Machine.execTransactionAbort x1 x2 x3 x4 s
  | .guardPairExpiry => Sys2Proof.Machine.execGuardPairExpiry s
  | .stallTimeout x1 x2 x3 x4 x5 x6 => Sys2Proof.Machine.execStallTimeout x1 x2 x3 x4 x5 x6 s
  | .headTimeout x1 => Sys2Proof.Machine.execHeadTimeout x1 s
  | .registerWrite x1 x2 => Sys2Proof.Machine.execRegisterWrite x1 x2 s
  | .w1cClear x1 x2 => Sys2Proof.Machine.execW1cClear x1 x2 s
  | .wideValueCapture x1 => Sys2Proof.Machine.execWideValueCapture x1 s
  | .errCauseRead => Sys2Proof.Machine.execErrCauseRead s
  | .stallMaxWrite x1 => Sys2Proof.Machine.execStallMaxWrite x1 s
  | .headRegisterAccess x1 x2 x3 => Sys2Proof.Machine.execHeadRegisterAccess x1 x2 x3 s
  | .headFrameReceived x1 x2 => Sys2Proof.Machine.execHeadFrameReceived x1 x2 s
  | .alarmReceived x1 x2 => Sys2Proof.Machine.execAlarmReceived x1 x2 s
  | .trainingStart x1 => Sys2Proof.Machine.execTrainingStart x1 s
  | .trainAReply x1 x2 => Sys2Proof.Machine.execTrainAReply x1 x2 s
  | .trainBEcho x1 x2 x3 => Sys2Proof.Machine.execTrainBEcho x1 x2 x3 s
  | .trainingComplete x1 => Sys2Proof.Machine.execTrainingComplete x1 s
  | .trainingFail x1 => Sys2Proof.Machine.execTrainingFail x1 s
  | .trainingRetry x1 => Sys2Proof.Machine.execTrainingRetry x1 s
  | .linkLost x1 => Sys2Proof.Machine.execLinkLost x1 s
  | .retrain x1 => Sys2Proof.Machine.execRetrain x1 s
  | .headRegResponse x1 x2 x3 x4 x5 => Sys2Proof.Machine.execHeadRegResponse x1 x2 x3 x4 x5 s
  | .headRegRepeat x1 => Sys2Proof.Machine.execHeadRegRepeat x1 s
  | .overcurrentDecision x1 x2 => Sys2Proof.Machine.execOvercurrentDecision x1 x2 s
  | .senseOpen x1 => Sys2Proof.Machine.execSenseOpen x1 s
  | .senseOpenClear x1 => Sys2Proof.Machine.execSenseOpenClear x1 s
  | .tpoPulseStart x1 => Sys2Proof.Machine.execTpoPulseStart x1 s
  | .tpoPulseEnd x1 => Sys2Proof.Machine.execTpoPulseEnd x1 s
  | .s0LevelChange x1 x2 => Sys2Proof.Machine.execS0LevelChange x1 x2 s
  | .s0PulseCount x1 => Sys2Proof.Machine.execS0PulseCount x1 s
  | .s0Stuck x1 => Sys2Proof.Machine.execS0Stuck x1 s
  | .tariffHoldExpiry x1 => Sys2Proof.Machine.execTariffHoldExpiry x1 s
  | .mdIntervalEnd x1 x2 => Sys2Proof.Machine.execMdIntervalEnd x1 x2 s
  | .sealChange x1 x2 => Sys2Proof.Machine.execSealChange x1 x2 s
  | .sealFault => Sys2Proof.Machine.execSealFault s
  | .recordSigned => Sys2Proof.Machine.execRecordSigned s
  | .recCursorWrite x1 => Sys2Proof.Machine.execRecCursorWrite x1 s
  | .tokensCredited x1 => Sys2Proof.Machine.execTokensCredited x1 s
  | .reduceTimeout x1 => Sys2Proof.Machine.execReduceTimeout x1 s
  | .hostLimitWrite x1 => Sys2Proof.Machine.execHostLimitWrite x1 s
  | .utilLimitStart => Sys2Proof.Machine.execUtilLimitStart s
  | .utilLimitExpiry => Sys2Proof.Machine.execUtilLimitExpiry s
  | .budgetInForce => Sys2Proof.Machine.execBudgetInForce s
  | .groupNotReady x1 => Sys2Proof.Machine.execGroupNotReady x1 s
  | .withdrawOpen x1 => Sys2Proof.Machine.execWithdrawOpen x1 s
  | .withdrawEnd x1 => Sys2Proof.Machine.execWithdrawEnd x1 s
  | .groupIdleOff x1 => Sys2Proof.Machine.execGroupIdleOff x1 s
  | .assignDischarged x1 => Sys2Proof.Machine.execAssignDischarged x1 s
  | .assignOwned x1 => Sys2Proof.Machine.execAssignOwned x1 s
  | .releaseCurrentLow x1 => Sys2Proof.Machine.execReleaseCurrentLow x1 s
  | .releaseDischarged x1 => Sys2Proof.Machine.execReleaseDischarged x1 s
  | .releaseFreed x1 => Sys2Proof.Machine.execReleaseFreed x1 s
  | .exchRampDone x1 => Sys2Proof.Machine.execExchRampDone x1 s
  | .exchDonorOpen x1 => Sys2Proof.Machine.execExchDonorOpen x1 s
  | .exchMatched x1 => Sys2Proof.Machine.execExchMatched x1 s
  | .exchSegPrepare x1 => Sys2Proof.Machine.execExchSegPrepare x1 s
  | .exchCloseCommand x1 => Sys2Proof.Machine.execExchCloseCommand x1 s
  | .exchJoined x1 => Sys2Proof.Machine.execExchJoined x1 s
  | .exchTimeout x1 => Sys2Proof.Machine.execExchTimeout x1 s
  | .contactorOpenFault x1 x2 => Sys2Proof.Machine.execContactorOpenFault x1 x2 s
  | .contactorWeld x1 x2 => Sys2Proof.Machine.execContactorWeld x1 x2 s
  | .pilotStateTaken x1 => Sys2Proof.Machine.execPilotStateTaken x1 s
  | .pilotFault x1 => Sys2Proof.Machine.execPilotFault x1 s
  | .pilotDiodeMissing x1 => Sys2Proof.Machine.execPilotDiodeMissing x1 s
  | .faultPilotFEnd x1 => Sys2Proof.Machine.execFaultPilotFEnd x1 s
  | .stopCToBOpen x1 => Sys2Proof.Machine.execStopCToBOpen x1 s
  | .proximityTaken x1 => Sys2Proof.Machine.execProximityTaken x1 s
  | .matchingStart x1 => Sys2Proof.Machine.execMatchingStart x1 s
  | .slacParmReq x1 x2 x3 => Sys2Proof.Machine.execSlacParmReq x1 x2 x3 s
  | .startAttenCharInd x1 x2 => Sys2Proof.Machine.execStartAttenCharInd x1 x2 s
  | .slacMatchReq x1 x2 x3 x4 => Sys2Proof.Machine.execSlacMatchReq x1 x2 x3 x4 s
  | .cmValidate x1 x2 => Sys2Proof.Machine.execCmValidate x1 x2 s
  | .slacInitExpiry x1 => Sys2Proof.Machine.execSlacInitExpiry x1 s
  | .attemptRestart x1 => Sys2Proof.Machine.execAttemptRestart x1 s
  | .supportedAppProtocol x1 x2 => Sys2Proof.Machine.execSupportedAppProtocol x1 x2 s
  | .sessionSetupReq x1 x2 => Sys2Proof.Machine.execSessionSetupReq x1 x2 s
  | .authorizationReq x1 x2 x3 => Sys2Proof.Machine.execAuthorizationReq x1 x2 x3 s
  | .cableCheckReq x1 x2 => Sys2Proof.Machine.execCableCheckReq x1 x2 s
  | .preChargeReq x1 x2 x3 x4 => Sys2Proof.Machine.execPreChargeReq x1 x2 x3 x4 s
  | .powerDeliveryStart x1 x2 => Sys2Proof.Machine.execPowerDeliveryStart x1 x2 s
  | .powerDeliveryStop x1 x2 => Sys2Proof.Machine.execPowerDeliveryStop x1 x2 s
  | .chargeLoopReq x1 x2 x3 => Sys2Proof.Machine.execChargeLoopReq x1 x2 x3 s
  | .pauseStandbyReq x1 => Sys2Proof.Machine.execPauseStandbyReq x1 s
  | .v2gSequenceTimeout x1 => Sys2Proof.Machine.execV2gSequenceTimeout x1 s
  | .stateBoundExpiry x1 => Sys2Proof.Machine.execStateBoundExpiry x1 s
  | .authTimeout x1 => Sys2Proof.Machine.execAuthTimeout x1 s
  | .authHoldExpiry x1 => Sys2Proof.Machine.execAuthHoldExpiry x1 s
  | .stopCurrentLow x1 => Sys2Proof.Machine.execStopCurrentLow x1 s
  | .stopMsExpiry x1 => Sys2Proof.Machine.execStopMsExpiry x1 s
  | .sessionEnd x1 => Sys2Proof.Machine.execSessionEnd x1 s
  | .vehStopCmd x1 => Sys2Proof.Machine.execVehStopCmd x1 s
  | .dischKwWrite x1 x2 => Sys2Proof.Machine.execDischKwWrite x1 x2 s
  | .directionSettled x1 => Sys2Proof.Machine.execDirectionSettled x1 s
  | .sprintChMismatch x1 => Sys2Proof.Machine.execSprintChMismatch x1 s
  | .sprintSelftest x1 x2 => Sys2Proof.Machine.execSprintSelftest x1 x2 s
  | .tripoutReadbackFault x1 => Sys2Proof.Machine.execTripoutReadbackFault x1 s
  | .threshRetry x1 => Sys2Proof.Machine.execThreshRetry x1 s
  | .imdHalfPeriod x1 => Sys2Proof.Machine.execImdHalfPeriod x1 s
  | .segReady x1 => Sys2Proof.Machine.execSegReady x1 s
  | .symmetryFault x1 => Sys2Proof.Machine.execSymmetryFault x1 s
  | .rdcAcFault x1 => Sys2Proof.Machine.execRdcAcFault x1 s
  | .rdcDcFault x1 => Sys2Proof.Machine.execRdcDcFault x1 s
  | .siteRdc x1 => Sys2Proof.Machine.execSiteRdc x1 s
  | .limitReduce x1 x2 => Sys2Proof.Machine.execLimitReduce x1 x2 s
  | .limitTrip x1 x2 => Sys2Proof.Machine.execLimitTrip x1 x2 s
  | .limitLift x1 x2 => Sys2Proof.Machine.execLimitLift x1 x2 s
  | .safeDirFault x1 => Sys2Proof.Machine.execSafeDirFault x1 s
  | .avPairChange x1 x2 x3 => Sys2Proof.Machine.execAvPairChange x1 x2 x3 s
  | .avDiscrepancy x1 => Sys2Proof.Machine.execAvDiscrepancy x1 s
  | .avTimerRestart x1 => Sys2Proof.Machine.execAvTimerRestart x1 s
  | .causeGone x1 x2 => Sys2Proof.Machine.execCauseGone x1 x2 s
  | .rstreqRise x1 => Sys2Proof.Machine.execRstreqRise x1 s
  | .edgeResetAccepted x1 => Sys2Proof.Machine.execEdgeResetAccepted x1 s
  | .rstJammed x1 => Sys2Proof.Machine.execRstJammed x1 s
  | .snDataFrame x1 x2 => Sys2Proof.Machine.execSnDataFrame x1 x2 s
  | .snResetFrame x1 x2 => Sys2Proof.Machine.execSnResetFrame x1 x2 s
  | .snSecondCopyTimeout x1 => Sys2Proof.Machine.execSnSecondCopyTimeout x1 s
  | .snWatchdogExpiry x1 => Sys2Proof.Machine.execSnWatchdogExpiry x1 s
  | .snStartTimeout x1 => Sys2Proof.Machine.execSnStartTimeout x1 s
  | .snTx => Sys2Proof.Machine.execSnTx s
  | .tagPoll x1 => Sys2Proof.Machine.execTagPoll x1 s
  | .tagEngineGrant x1 => Sys2Proof.Machine.execTagEngineGrant x1 s
  | .airResponse x1 x2 => Sys2Proof.Machine.execAirResponse x1 x2 s
  | .tagTransactionEnd x1 => Sys2Proof.Machine.execTagTransactionEnd x1 s
  | .tagEngineTimeout x1 => Sys2Proof.Machine.execTagEngineTimeout x1 s
  | .tagPollPromote x1 => Sys2Proof.Machine.execTagPollPromote x1 s
  | .fieldResetEnd x1 => Sys2Proof.Machine.execFieldResetEnd x1 s
  | .serviceFieldPresent => Sys2Proof.Machine.execServiceFieldPresent s
  | .serviceFieldLost => Sys2Proof.Machine.execServiceFieldLost s
  | .svcReadSummary x1 => Sys2Proof.Machine.execSvcReadSummary x1 s
  | .svcReadLastword x1 => Sys2Proof.Machine.execSvcReadLastword x1 s
  | .svcAuth1 => Sys2Proof.Machine.execSvcAuth1 s
  | .svcAuth2 x1 x2 => Sys2Proof.Machine.execSvcAuth2 x1 x2 s
  | .svcReadEvent x1 x2 => Sys2Proof.Machine.execSvcReadEvent x1 x2 s
  | .svcMbxWrite x1 x2 x3 => Sys2Proof.Machine.execSvcMbxWrite x1 x2 x3 s
  | .svcMbxRead x1 x2 => Sys2Proof.Machine.execSvcMbxRead x1 x2 s
  | .svcMbxAcquire => Sys2Proof.Machine.execSvcMbxAcquire s
  | .svcMbxPost x1 => Sys2Proof.Machine.execSvcMbxPost x1 s
  | .svcMbxRelease => Sys2Proof.Machine.execSvcMbxRelease s
  | .svcMbxCancel => Sys2Proof.Machine.execSvcMbxCancel s
  | .svcSecureTimeout => Sys2Proof.Machine.execSvcSecureTimeout s
  | .wireMbxAcquire => Sys2Proof.Machine.execWireMbxAcquire s
  | .wireMbxPost x1 => Sys2Proof.Machine.execWireMbxPost x1 s
  | .wireMbxRelease => Sys2Proof.Machine.execWireMbxRelease s
  | .wireMbxCancel => Sys2Proof.Machine.execWireMbxCancel s
  | .wireMbxDataWrite x1 x2 => Sys2Proof.Machine.execWireMbxDataWrite x1 x2 s
  | .wireMbxTimeout => Sys2Proof.Machine.execWireMbxTimeout s
  | .hostTenantLock x1 => Sys2Proof.Machine.execHostTenantLock x1 s
  | .enrolHe => Sys2Proof.Machine.execEnrolHe s
  | .enrolVendor => Sys2Proof.Machine.execEnrolVendor s
  | .rotateRoot => Sys2Proof.Machine.execRotateRoot s
  | .rngRestart => Sys2Proof.Machine.execRngRestart s
  | .loadChain x1 => Sys2Proof.Machine.execLoadChain x1 s
  | .objectSubmit x1 x2 => Sys2Proof.Machine.execObjectSubmit x1 x2 s
  | .cryptoOperationDone x1 x2 => Sys2Proof.Machine.execCryptoOperationDone x1 x2 s
  | .cryptoResult => Sys2Proof.Machine.execCryptoResult s
  | .cryptoOverrun => Sys2Proof.Machine.execCryptoOverrun s
  | .objectVerified x1 => Sys2Proof.Machine.execObjectVerified x1 s
  | .attestationStart => Sys2Proof.Machine.execAttestationStart s
  | .rngHealthAlarm => Sys2Proof.Machine.execRngHealthAlarm s
  | .rngStartupDone x1 => Sys2Proof.Machine.execRngStartupDone x1 s
  | .rngReseed => Sys2Proof.Machine.execRngReseed s
  | .violCauseRead => Sys2Proof.Machine.execViolCauseRead s
  | .waitMaxWrite x1 => Sys2Proof.Machine.execWaitMaxWrite x1 s
  | .gridPeriodStart x1 => Sys2Proof.Machine.execGridPeriodStart x1 s
  | .beaconDecoded x1 => Sys2Proof.Machine.execBeaconDecoded x1 s
  | .electionReadTimeout => Sys2Proof.Machine.execElectionReadTimeout s
  | .gridSegmentRx x1 => Sys2Proof.Machine.execGridSegmentRx x1 s
  | .gridMsgTimeout x1 => Sys2Proof.Machine.execGridMsgTimeout x1 s
  | .gridObjectRx x1 => Sys2Proof.Machine.execGridObjectRx x1 s
  | .gridPieceRx x1 => Sys2Proof.Machine.execGridPieceRx x1 s
  | .gridChallengeRx x1 => Sys2Proof.Machine.execGridChallengeRx x1 s
  | .gridTableRx x1 => Sys2Proof.Machine.execGridTableRx x1 s
  | .gridListenExpiry => Sys2Proof.Machine.execGridListenExpiry s
  | .beaconLoss => Sys2Proof.Machine.execBeaconLoss s
  | .guardEnd => Sys2Proof.Machine.execGuardEnd s
  | .discoveryStart => Sys2Proof.Machine.execDiscoveryStart s
  | .discoveryAnswerRx x1 => Sys2Proof.Machine.execDiscoveryAnswerRx x1 s
  | .grdDiscover => Sys2Proof.Machine.execGrdDiscover s
  | .grdRestart => Sys2Proof.Machine.execGrdRestart s
  | .fnHold x1 x2 => Sys2Proof.Machine.execFnHold x1 x2 s
  | .fnResume x1 x2 => Sys2Proof.Machine.execFnResume x1 x2 s
  | .fnCancel x1 x2 => Sys2Proof.Machine.execFnCancel x1 x2 s
  | .fnCmdZero x1 x2 => Sys2Proof.Machine.execFnCmdZero x1 x2 s
  | .holdTakesEffect x1 => Sys2Proof.Machine.execHoldTakesEffect x1 s
  | .resumeTakesEffect x1 => Sys2Proof.Machine.execResumeTakesEffect x1 s
  | .cfgLoadWrite => Sys2Proof.Machine.execCfgLoadWrite s
  | .cfgLoadCommit x1 => Sys2Proof.Machine.execCfgLoadCommit x1 s
  | .updPieceSubmit x1 x2 => Sys2Proof.Machine.execUpdPieceSubmit x1 x2 s
  | .pieceChecked x1 => Sys2Proof.Machine.execPieceChecked x1 s
  | .partVerified x1 => Sys2Proof.Machine.execPartVerified x1 s
  | .headStagingDone x1 => Sys2Proof.Machine.execHeadStagingDone x1 s
  | .updActivate => Sys2Proof.Machine.execUpdActivate s
  | .updAbandon => Sys2Proof.Machine.execUpdAbandon s
  | .manifestExpiry => Sys2Proof.Machine.execManifestExpiry s
  | .activationEntry => Sys2Proof.Machine.execActivationEntry s
  | .activationStopTimeout => Sys2Proof.Machine.execActivationStopTimeout s
  | .headsArmed => Sys2Proof.Machine.execHeadsArmed s
  | .loaderWriteDone x1 x2 => Sys2Proof.Machine.execLoaderWriteDone x1 x2 s
  | .healthConfirm x1 => Sys2Proof.Machine.execHealthConfirm x1 s
  | .confirmWindowExpiry => Sys2Proof.Machine.execConfirmWindowExpiry s
  | .scrubStep x1 => Sys2Proof.Machine.execScrubStep x1 s
  | .codePageRepair x1 x2 => Sys2Proof.Machine.execCodePageRepair x1 x2 s
  | .evrCursorWrite x1 => Sys2Proof.Machine.execEvrCursorWrite x1 s
  | .evrNorSectWrite x1 => Sys2Proof.Machine.execEvrNorSectWrite x1 s
  | .evrRetest => Sys2Proof.Machine.execEvrRetest s
  | .retestDone x1 => Sys2Proof.Machine.execRetestDone x1 s
  | .lwClear => Sys2Proof.Machine.execLwClear s
  | .poisonAddrRead => Sys2Proof.Machine.execPoisonAddrRead s
  | .norProgramDone x1 => Sys2Proof.Machine.execNorProgramDone x1 s
  | .norEraseDone x1 => Sys2Proof.Machine.execNorEraseDone x1 s
  | .archiveBlockSealed x1 => Sys2Proof.Machine.execArchiveBlockSealed x1 s
  | .nvmeCompletion x1 x2 => Sys2Proof.Machine.execNvmeCompletion x1 x2 s
  | .nvmeTimeout x1 => Sys2Proof.Machine.execNvmeTimeout x1 s
  | .arcReadGo x1 => Sys2Proof.Machine.execArcReadGo x1 s
  | .arcReadDone x1 => Sys2Proof.Machine.execArcReadDone x1 s
  | .displayFrame x1 => Sys2Proof.Machine.execDisplayFrame x1 s
  | .bistablePulseEnd => Sys2Proof.Machine.execBistablePulseEnd s
  | .vlcdFault => Sys2Proof.Machine.execVlcdFault s
  | .vlcdRestart x1 => Sys2Proof.Machine.execVlcdRestart x1 s
  | .keyMeasurement x1 x2 => Sys2Proof.Machine.execKeyMeasurement x1 x2 s
  | .keyTouch x1 => Sys2Proof.Machine.execKeyTouch x1 s
  | .keyRelease x1 => Sys2Proof.Machine.execKeyRelease x1 s
  | .keyLongTouch => Sys2Proof.Machine.execKeyLongTouch s
  | .keyStuck x1 => Sys2Proof.Machine.execKeyStuck x1 s
  | .keyUnstick x1 => Sys2Proof.Machine.execKeyUnstick x1 s
  | .keyRebase x1 => Sys2Proof.Machine.execKeyRebase x1 s
  | .keyDrift x1 => Sys2Proof.Machine.execKeyDrift x1 s
  | .scrollAutoAdvance => Sys2Proof.Machine.execScrollAutoAdvance s
  | .scrollResume => Sys2Proof.Machine.execScrollResume s
  | .auxCmdWrite x1 x2 => Sys2Proof.Machine.execAuxCmdWrite x1 x2 s
  | .auxRunOnExpiry x1 x2 => Sys2Proof.Machine.execAuxRunOnExpiry x1 x2 s
  | .auxOcRetry x1 x2 => Sys2Proof.Machine.execAuxOcRetry x1 x2 s
  | .auxOpenLoad x1 x2 => Sys2Proof.Machine.execAuxOpenLoad x1 x2 s
  | .auxMismatch x1 x2 => Sys2Proof.Machine.execAuxMismatch x1 x2 s
  | .auxSpinTimeout x1 x2 => Sys2Proof.Machine.execAuxSpinTimeout x1 x2 s
  | .auxBlockedRetry x1 x2 => Sys2Proof.Machine.execAuxBlockedRetry x1 x2 s
  | .wakeRailsInRange => Sys2Proof.Machine.execWakeRailsInRange s
  | .dormantEntryEnd => Sys2Proof.Machine.execDormantEntryEnd s
  | .railResetRelease x1 => Sys2Proof.Machine.execRailResetRelease x1 s
  | .s0StuckClear x1 => Sys2Proof.Machine.execS0StuckClear x1 s
  | .soundingWindowEnd x1 => Sys2Proof.Machine.execSoundingWindowEnd x1 s
  | .attenSoundRx x1 x2 x3 => Sys2Proof.Machine.execAttenSoundRx x1 x2 x3 s
  | .negotiationReq x1 x2 x3 => Sys2Proof.Machine.execNegotiationReq x1 x2 x3 s
  | .tlsHandshake x1 x2 x3 => Sys2Proof.Machine.execTlsHandshake x1 x2 x3 s
  | .pcieLinkTrained x1 x2 x3 => Sys2Proof.Machine.execPcieLinkTrained x1 x2 x3 s
  | .cfgLoadCmdDone => Sys2Proof.Machine.execCfgLoadCmdDone s

end Sys2Proof.Machine
end

