-- ==== Sys2Proof/Safety.lean ====
section
/-! DEFINITION. What counts as a safe run, and the terms in which statements speak of one command: that it completes, and
what it leaves as it was. -/

namespace Sys2Proof.Machine

/-- The invariant that every step keeps: the device now, and the device as the last closure committed it, hold their
registers in canonical form, so that two equal register files are equal data and every register reads one value. -/
def State.Inv (s : State) : Prop := s.dev.regs.wf = true ∧ s.shown.regs.wf = true

/-- A command completes: `exec` answers a next state, the commands that wait and what the last closure committed are as
before, and the device is as `P` says. -/
def Completes (c : Instr) (s : State) (P : Dev → Prop) : Prop :=
  ∃ t, exec c s = .next t ∧ t.pending = s.pending ∧ t.shown = s.shown ∧ P t.dev

/-- The parts of the device. What it holds for the head links counts by its own parts, from `lnk` to `aux`, each of every
link; the registers count by the blocks of the address map, from `rGlb` to `rTen` (R8). -/
inductive Part where
  | pacer | power | host | tenants | bill | alloc | prot | engines | svc | sec | grid
  | disp | scroll | keys | tpo | s0 | cfg | upd | recorder | mem | archive | locked | commits | fresh
  | lnk | hs | rx | cmd | frame | met | lbill | group | out | con | veh | lprot | ltag | aux
  | rGlb | rPac | rPwr | rCfg | rUpd | rSec | rMem | rEvr | rPrt | rAlc | rBil | rGrd | rTag | rLio | rHpt
  | rLnk | rMet | rVeh | rAux | rTen | rNone
  deriving DecidableEq, Repr

/-- The blocks of the device's own registers, 64 Kbyte each. -/
def devBlock : Nat → Part
  | 0 => .rGlb | 1 => .rPac | 2 => .rPwr | 3 => .rCfg | 4 => .rUpd | 5 => .rSec | 6 => .rMem | 7 => .rEvr | 8 => .rPrt
  | 9 => .rAlc | 10 => .rBil | 11 => .rGrd | 12 => .rTag | 13 => .rLio | 14 => .rHpt | _ => .rNone

/-- The blocks of a link window, 4 Kbyte each. -/
def linkBlock : Nat → Part
  | 0 => .rLnk | 1 => .rMet | 2 => .rVeh | 3 => .rAux | _ => .rNone

/-- The block of the address map that an address lies in. -/
def regPart (a : Nat) : Part :=
  if a < 0x1000000 then devBlock (a / 0x10000)
  else if a < 0x4000000 then linkBlock (a % 0x10000 / 0x1000)
  else .rTen

/-- Every block of registers. -/
def Part.registers : List Part :=
  [.rGlb, .rPac, .rPwr, .rCfg, .rUpd, .rSec, .rMem, .rEvr, .rPrt, .rAlc, .rBil, .rGrd, .rTag, .rLio, .rHpt, .rLnk, .rMet, .rVeh,
    .rAux, .rTen, .rNone]

/-- A part of the device is as before. -/
def Part.same (d e : Dev) : Part → Prop
  | .pacer => e.pacer = d.pacer
  | .power => e.power = d.power
  | .host => e.host = d.host
  | .tenants => e.tenants = d.tenants
  | .bill => e.bill = d.bill
  | .alloc => e.alloc = d.alloc
  | .prot => e.prot = d.prot
  | .engines => e.engines = d.engines
  | .svc => e.svc = d.svc
  | .sec => e.sec = d.sec
  | .grid => e.grid = d.grid
  | .disp => e.disp = d.disp
  | .scroll => e.scroll = d.scroll
  | .keys => e.keys = d.keys
  | .tpo => e.tpo = d.tpo
  | .s0 => e.s0 = d.s0
  | .cfg => e.cfg = d.cfg
  | .upd => e.upd = d.upd
  | .recorder => e.recorder = d.recorder
  | .mem => e.mem = d.mem
  | .archive => e.archive = d.archive
  | .locked => e.locked = d.locked
  | .commits => e.commits = d.commits
  | .fresh => e.fresh = d.fresh
  | .lnk => ∀ n, (e.link n).lnk = (d.link n).lnk
  | .hs => ∀ n, (e.link n).hs = (d.link n).hs
  | .rx => ∀ n, (e.link n).rx = (d.link n).rx
  | .cmd => ∀ n, (e.link n).cmd = (d.link n).cmd
  | .frame => ∀ n, (e.link n).frame = (d.link n).frame
  | .met => ∀ n, (e.link n).met = (d.link n).met
  | .lbill => ∀ n, (e.link n).bill = (d.link n).bill
  | .group => ∀ n, (e.link n).group = (d.link n).group
  | .out => ∀ n, (e.link n).out = (d.link n).out
  | .con => ∀ n, (e.link n).con = (d.link n).con
  | .veh => ∀ n, (e.link n).veh = (d.link n).veh
  | .lprot => ∀ n, (e.link n).prot = (d.link n).prot
  | .ltag => ∀ n, (e.link n).tag = (d.link n).tag
  | .aux => ∀ n, (e.link n).aux = (d.link n).aux
  | p => ∀ a, regPart a = p → e.reg a = d.reg a

/-- Every part of the device outside a list is as before. -/
def Dev.Keeps (d e : Dev) (but : List Part) : Prop := ∀ p, p ∉ but → p.same d e

/-- Every register outside a list of addresses reads as before. -/
def Dev.RegsBut (d e : Dev) (as : List Nat) : Prop := ∀ a, a ∉ as → e.reg a = d.reg a

/-- Every head link but one is as before. -/
def Dev.LinksBut (d e : Dev) (n : LinkId) : Prop := ∀ m, m ≠ n → e.link m = d.link m

/-- Every tenant but one is as before. -/
def Dev.TenantsBut (d e : Dev) (t : TenantId) : Prop := ∀ u, u ≠ t → e.tenant u = d.tenant u

/-! ### What a command can change -/

/-- What carrying out a lap boundary can change. -/
def Part.lap : List Part :=
  [.pacer, .power, .tenants, .bill, .recorder, .met, .lbill, .rPac, .rBil, .rMet, .rTen]

/-- What the end of a session can change, where a lap boundary is due in its tick. -/
def Part.session : List Part := Part.lap ++
  [.alloc, .prot, .cmd, .group, .out, .con, .veh, .aux, .rAlc, .rVeh]

/-- What a trip can change. -/
def Part.trip : List Part :=
  [.power, .alloc, .prot, .recorder, .lnk, .cmd, .group, .out, .con, .veh, .lprot, .rPrt, .rAlc, .rLnk, .rVeh]

/-- What a transaction of the host port can change. -/
def Part.port : List Part := Part.session ++ Part.registers ++
  [.host, .svc, .sec, .grid, .cfg, .upd, .mem, .archive, .locked, .fresh, .lnk, .lprot]

/-- Every part: what a reset can change. -/
def Part.every : List Part := Part.registers ++
  [.pacer, .power, .host, .tenants, .bill, .alloc, .prot, .engines, .svc, .sec, .grid,
    .disp, .scroll, .keys, .tpo, .s0, .cfg, .upd, .recorder, .mem, .archive, .locked, .commits, .fresh,
    .lnk, .hs, .rx, .cmd, .frame, .met, .lbill, .group, .out, .con, .veh, .lprot, .ltag, .aux]

/-- The parts of the device that a command can change. -/
def touches : Instr → List Part
  | .utilLimitStart .. | .exchDonorOpen .. | .exchMatched .. => [.alloc]
  | .arcReadGo .. => [.archive]
  | .auxRunOnExpiry .. | .auxOcRetry .. | .auxBlockedRetry .. => [.aux]
  | .vlcdRestart .. => [.disp]
  | .electionReadTimeout .. | .gridListenExpiry .. | .discoveryStart .. => [.grid]
  | .withdrawEnd .. | .releaseFreed .. => [.group]
  | .wideValueCapture .. | .errCauseRead .. => [.host]
  | .keyUnstick .. | .keyDrift .. => [.keys]
  | .headRegRepeat .. => [.lnk]
  | .hostTenantLock .. => [.locked]
  | .tagPoll .. | .tagPollPromote .. | .fieldResetEnd .. => [.ltag]
  | .poisonAddrRead .. => [.mem]
  | .senseOpenClear .. => [.met]
  | .calendarSecond .. => [.pacer]
  | .ecoDelayExpiry .. | .supplyDormantEntry .. | .wakeFrameWake .. | .wakeFrameAlert .. | .wakeBitTimeout .. |
    .pfailRelease .. | .readVoutPoll .. | .pmbusRetry .. | .pmbusRecoveryRetry .. | .pmbAlert .. => [.power]
  | .avTimerRestart .. | .rstreqRise .. | .snTx .. => [.prot]
  | .recCursorWrite .. => [.rBil]
  | .fnCmdZero .. => [.rCfg]
  | .evrCursorWrite .. | .evrNorSectWrite .. => [.rEvr]
  | .stallMaxWrite .. => [.rHpt]
  | .waitMaxWrite .. => [.rSec]
  | .wireMbxDataWrite .. => [.rTag]
  | .dischKwWrite .. => [.rVeh]
  | .s0StuckClear .. => [.s0]
  | .scrollAutoAdvance .. | .scrollResume .. => [.scroll]
  | .rngReseed .. | .violCauseRead .. => [.sec]
  | .svcSecureTimeout .. | .wireMbxPost .. | .wireMbxRelease .. | .wireMbxCancel .. => [.svc]
  | .tpoPulseStart .. | .tpoPulseEnd .. => [.tpo]
  | .faultPilotFEnd .. | .startAttenCharInd .. | .attemptRestart .. | .authHoldExpiry .. => [.veh]
  | .tokensCredited .. => [.alloc, .out]
  | .hostLimitWrite .. => [.alloc, .rAlc]
  | .arcReadDone .. => [.archive, .rMem]
  | .auxCmdWrite .. => [.aux, .rAux]
  | .groupIdleOff .. => [.cmd, .group]
  | .attenSoundRx .. => [.fresh, .veh]
  | .discoveryAnswerRx .. | .grdDiscover .. | .grdRestart .. => [.grid, .rGrd]
  | .threshRetry .. => [.lnk, .lprot]
  | .trainingStart .. | .trainAReply .. | .trainingRetry .. => [.lnk, .rLnk]
  | .lwClear .. => [.mem, .rMem]
  | .wakeFrameSleepNotice .. => [.power, .recorder]
  | .assignOwned .. => [.prot, .group]
  | .causeGone .. => [.prot, .lprot]
  | .evrRetest .. => [.recorder, .rEvr]
  | .keyTouch .. | .keyRelease .. | .keyLongTouch .. => [.scroll, .keys]
  | .objectVerified .. => [.sec, .commits]
  | .rngRestart .. => [.sec, .rSec]
  | .svcReadSummary .. | .svcReadLastword .. | .svcReadEvent .. | .svcMbxRead .. | .svcMbxRelease .. | .svcMbxCancel .. =>
    [.svc, .sec]
  | .updAbandon .. | .manifestExpiry .. => [.upd, .rUpd]
  | .exchCloseCommand .. => [.alloc, .cmd, .con]
  | .exchSegPrepare .. => [.alloc, .prot, .lprot]
  | .utilLimitExpiry .. | .budgetInForce .. => [.alloc, .recorder, .rAlc]
  | .stopCToBOpen .. | .stopCurrentLow .. => [.cmd, .con, .veh]
  | .releaseDischarged .. => [.cmd, .group, .con]
  | .vlcdFault .. => [.disp, .recorder, .rLio]
  | .bistablePulseEnd .. => [.disp, .scroll, .rLio]
  | .trainBEcho .. => [.fresh, .lnk, .rLnk]
  | .soundingWindowEnd .. => [.fresh, .veh, .rVeh]
  | .gridPeriodStart .. | .gridSegmentRx .. | .gridMsgTimeout .. | .gridTableRx .. | .beaconLoss .. | .guardEnd .. =>
    [.grid, .recorder, .rGrd]
  | .guardPairExpiry .. => [.host, .recorder, .rHpt]
  | .keyMeasurement .. | .keyStuck .. | .keyRebase .. => [.keys, .recorder, .rLio]
  | .pauseStandbyReq .. | .vehStopCmd .. | .directionSettled .. => [.out, .veh, .rVeh]
  | .paceDriftCheck .. => [.pacer, .recorder, .rPac]
  | .pmbusTransactionDone .. | .tempoLower .. => [.power, .recorder, .rPwr]
  | .activationEntry .. => [.power, .upd, .lnk]
  | .assignDischarged .. => [.prot, .group, .lprot]
  | .rstJammed .. => [.prot, .recorder, .rPrt]
  | .nvmeCompletion .. | .nvmeTimeout .. | .pcieLinkTrained .. => [.recorder, .archive, .rMem]
  | .auxOpenLoad .. | .auxMismatch .. | .auxSpinTimeout .. => [.recorder, .aux, .rAux]
  | .trainingFail .. => [.recorder, .lnk, .rLnk]
  | .retestDone .. => [.recorder, .mem, .rEvr]
  | .s0LevelChange .. | .s0PulseCount .. | .s0Stuck .. => [.s0, .recorder, .rLio]
  | .enrolHe .. | .enrolVendor .. | .loadChain .. | .objectSubmit .. | .attestationStart .. => [.sec, .recorder, .rSec]
  | .wireMbxAcquire .. | .wireMbxTimeout .. => [.svc, .recorder, .rTag]
  | .svcMbxWrite .. => [.svc, .sec, .rTag]
  | .activationStopTimeout .. => [.upd, .recorder, .rUpd]
  | .exchRampDone .. => [.alloc, .cmd, .group, .con]
  | .displayFrame .. => [.disp, .scroll, .recorder, .rLio]
  | .tagTransactionEnd .. => [.engines, .sec, .commits, .ltag]
  | .tagEngineGrant .. => [.engines, .sec, .fresh, .ltag]
  | .beaconDecoded .. => [.grid, .recorder, .fresh, .rGrd]
  | .limitLift .. => [.out, .veh, .lprot, .rVeh]
  | .serviceFieldPresent .. => [.power, .svc, .recorder, .rTag]
  | .norEraseDone .. => [.recorder, .archive, .rMem, .rEvr]
  | .rotateRoot .. | .cryptoOperationDone .. => [.sec, .recorder, .fresh, .rSec]
  | .matchingStart .. | .slacMatchReq .. | .cmValidate .. | .slacInitExpiry .. | .supportedAppProtocol .. | .authTimeout ..
    => [.sec, .recorder, .veh, .rVeh]
  | .updPieceSubmit .. => [.sec, .upd, .recorder, .rSec]
  | .serviceFieldLost .. | .svcMbxAcquire .. | .svcMbxPost .. => [.svc, .sec, .recorder, .rTag]
  | .healthConfirm .. => [.upd, .recorder, .lnk, .rUpd]
  | .norProgramDone .. => [.bill, .sec, .recorder, .rSec, .rEvr]
  | .stopMsExpiry .. => [.recorder, .cmd, .con, .veh, .rVeh]
  | .withdrawOpen .. | .releaseCurrentLow .. => [.recorder, .cmd, .group, .con, .rAlc]
  | .reduceTimeout .. => [.recorder, .out, .veh, .rAlc, .rVeh]
  | .cfgLoadWrite .. | .cfgLoadCommit .. => [.sec, .cfg, .recorder, .rCfg, .rSec]
  | .cryptoResult .. => [.sec, .grid, .recorder, .commits, .rSec]
  | .gridObjectRx .. | .gridChallengeRx .. => [.sec, .grid, .recorder, .rSec, .rGrd]
  | .archiveBlockSealed .. => [.sec, .recorder, .archive, .rSec, .rMem]
  | .slacParmReq .. => [.sec, .recorder, .fresh, .veh, .rVeh]
  | .sessionSetupReq .. | .preChargeReq .. | .powerDeliveryStart .. | .powerDeliveryStop .. | .chargeLoopReq .. |
    .v2gSequenceTimeout .. | .stateBoundExpiry .. | .negotiationReq .. => [.sec, .recorder, .out, .veh, .rVeh]
  | .svcAuth1 .. => [.svc, .sec, .recorder, .fresh, .rSec]
  | .segReady .. => [.alloc, .prot, .cmd, .group, .con, .veh]
  | .tagEngineTimeout .. => [.engines, .sec, .recorder, .commits, .ltag, .rTag]
  | .airResponse .. => [.engines, .sec, .recorder, .fresh, .ltag, .rSec]
  | .limitReduce .. => [.recorder, .out, .veh, .lprot, .rPrt, .rVeh]
  | .gridPieceRx .. => [.sec, .grid, .upd, .recorder, .rSec, .rGrd]
  | .partVerified .. | .headStagingDone .. => [.sec, .upd, .recorder, .lnk, .rUpd, .rSec]
  | .svcAuth2 .. => [.svc, .sec, .recorder, .fresh, .rSec, .rTag]
  | .fnHold .. => [.tenants, .alloc, .cfg, .recorder, .archive, .rCfg]
  | .updActivate .. => [.upd, .group, .out, .veh, .rUpd, .rVeh]
  | .recordSigned .. => [.bill, .sec, .recorder, .mem, .rSec, .rMem, .rBil]
  | .pilotStateTaken .. | .pilotFault .. | .pilotDiodeMissing .. | .proximityTaken .. =>
    [.sec, .recorder, .cmd, .out, .con, .veh, .rVeh]
  | .tlsHandshake .. => [.sec, .recorder, .fresh, .out, .veh, .rSec, .rVeh]
  | .groupNotReady .. => [.alloc, .prot, .recorder, .cmd, .group, .out, .con, .rAlc]
  | .rngHealthAlarm .. | .rngStartupDone .. => [.engines, .svc, .sec, .recorder, .fresh, .veh, .rSec, .rVeh]
  | .cableCheckReq .. => [.sec, .recorder, .cmd, .out, .con, .veh, .aux, .rVeh]
  | .pieceChecked .. => [.sec, .upd, .recorder, .mem, .lnk, .rUpd, .rSec, .rMem]
  | .edgeResetAccepted .. => [.power, .prot, .recorder, .lnk, .group, .con, .veh, .lprot, .rPrt]
  | .exchJoined .. => [.alloc, .prot, .recorder, .cmd, .group, .out, .con, .veh, .rAlc, .rVeh]
  | .lapBoundary .. | .sealChange .. | .sealFault .. => Part.lap
  | .retrain .. => [.alloc, .prot, .recorder, .lnk, .cmd, .met, .group, .out, .con, .veh, .rAlc, .rLnk]
  | .holdTakesEffect .. => .alloc :: .cfg :: Part.lap
  | .supplyWarning .. => .alloc :: .disp :: .rPwr :: Part.lap
  | .senseOpen .. => .out :: .veh :: .rVeh :: Part.lap
  | .trainingComplete .. =>
    [.alloc, .prot, .recorder, .lnk, .cmd, .group, .out, .con, .veh, .lprot, .ltag, .rAlc, .rTag, .rLnk, .rVeh]
  | .alarmReceived .. | .exchTimeout .. | .contactorOpenFault .. | .sprintChMismatch .. | .sprintSelftest .. |
    .tripoutReadbackFault .. | .imdHalfPeriod .. | .symmetryFault .. | .rdcAcFault .. | .rdcDcFault .. | .siteRdc .. |
    .limitTrip .. | .safeDirFault .. | .avPairChange .. | .avDiscrepancy .. | .snDataFrame .. | .snResetFrame .. |
    .snSecondCopyTimeout .. | .snWatchdogExpiry .. | .snStartTimeout .. => Part.trip
  | .modeReqDormant .. | .modeReqRun .. | .modeReqEconomy .. | .modeReqMaintenance .. | .modeReqSafeHalt .. | .vcoreLow ..
    => .rPwr :: Part.trip
  | .headFrameReceived .. =>
    [.alloc, .prot, .recorder, .lnk, .hs, .rx, .cmd, .met, .group, .out, .con, .veh, .lprot, .aux, .rAlc, .rLnk, .rAux]
  | .paceLoss .. => .pacer :: .rPac :: Part.trip
  | .linkLost .. => .rx :: .met :: Part.trip
  | .codePageRepair .. => .mem :: .rMem :: Part.trip
  | .authorizationReq .. => .sec :: .out :: .veh :: .ltag :: .rSec :: .rTag :: .rVeh :: Part.lap
  | .lapOverrun .. => .pacer :: .met :: .rPac :: .rPwr :: Part.trip
  | .cryptoOverrun .. => .pacer :: .sec :: .rPac :: .rPwr :: Part.trip
  | .supplyRecovery .. => .alloc :: .prot :: .upd :: .out :: .veh :: .rPwr :: .rLio :: .rVeh :: Part.lap
  | .sessionEnd .. => Part.session
  | .mdIntervalEnd .. => .lbill :: Part.registers
  | .cfgLoadCmdDone .. => .cfg :: .recorder :: Part.registers
  | .planningLapBoundary .. =>
    [.pacer, .tenants, .alloc, .prot, .disp, .recorder, .fresh, .lnk, .cmd, .met, .lbill, .group, .out, .con, .veh, .aux, .rAlc, .rLio, .rLnk, .rMet, .rVeh, .rAux, .rTen]
  | .w1cClear .. => .recorder :: .mem :: Part.registers
  | .overcurrentDecision .. => .pacer :: .tenants :: .bill :: .met :: .lbill :: .rPac :: .rBil :: .rMet :: .rTen ::
    Part.trip
  | .contactorWeld .. => .lnk :: .lprot :: .rPrt :: .rLnk :: Part.session
  | .scrubStep .. => .tenants :: .bill :: .sec :: .mem :: .fresh :: .lbill :: .rSec :: .rMem :: .rEvr :: .rTen :: Part.trip
  | .fnCancel .. => .tenants :: .alloc :: .cfg :: .recorder :: .archive :: .met :: .veh :: Part.registers
  | .samplePoint .. => .alloc :: .sec :: .grid :: .tpo :: .archive :: .lnk :: .rx :: .cmd :: .group :: .con :: .veh ::
    .lprot :: .rPwr :: .rSec :: .rMem :: .rPrt :: .rLio :: .rLnk :: Part.lap
  | .tariffHoldExpiry .. => .pacer :: .power :: .tenants :: .bill :: .alloc :: .cfg :: .recorder :: .archive :: .met ::
    .lbill :: .veh :: Part.registers
  | .enterStartingBlock .. => .power :: .tenants :: .prot :: .sec :: .disp :: .scroll :: .keys :: .cfg :: .upd :: .recorder
    :: .mem :: .lnk :: Part.registers
  | .wakeRailsInRange .. => .pacer :: .power :: .alloc :: .prot :: .recorder :: .mem :: .fresh :: .lnk :: .cmd :: .group ::
    .out :: .con :: .veh :: .lprot :: Part.registers
  | .fnResume .. | .resumeTakesEffect .. => .pacer :: .power :: .tenants :: .bill :: .alloc :: .prot :: .cfg :: .recorder ::
    .archive :: .lnk :: .met :: .lbill :: .veh :: .lprot :: Part.registers
  | .porRelease .. | .railResetRelease .. => .pacer :: .power :: .bill :: .alloc :: .prot :: .svc :: .upd :: .recorder ::
    .mem :: .fresh :: .lnk :: .cmd :: .lbill :: .group :: .out :: .con :: .veh :: .lprot :: Part.registers
  | .registerWrite .. => .svc :: .sec :: .grid :: .cfg :: .upd :: .mem :: .archive :: .locked :: .fresh :: .lnk :: .lprot ::
    .rGlb :: .rPwr :: .rCfg :: .rUpd :: .rSec :: .rMem :: .rEvr :: .rPrt :: .rGrd :: .rTag :: .rLio :: .rHpt :: .rLnk :: .rAux
    :: .rNone :: Part.session
  | .writeInc .. | .writeFix .. | .readInc .. | .readFix .. | .readId .. | .unknownOpcode .. | .transactionAbort .. |
    .stallTimeout .. | .headTimeout .. | .headRegisterAccess .. | .headRegResponse .. => Part.port
  | .tickClosure .. => .host :: .sec :: .grid :: .disp :: .scroll :: .keys :: .tpo :: .cfg :: .upd :: .mem :: .archive ::
    .commits :: .fresh :: .lnk :: .rx :: .frame :: .lprot :: .ltag :: .rGlb :: .rPwr :: .rCfg :: .rUpd :: .rSec :: .rMem ::
    .rEvr :: .rPrt :: .rGrd :: .rTag :: .rLio :: .rHpt :: .rLnk :: .rAux :: .rNone :: Part.session
  | .enterRun .. | .railUndervoltageReset .. | .porAssert .. | .headsArmed .. | .loaderWriteDone .. | .confirmWindowExpiry
    .. | .dormantEntryEnd .. => Part.every

end Sys2Proof.Machine
end

