-- ==== Sys2Proof/Certificates/Slice0/Obligations.lean ====
section
/-! DEFINITION. The statements for the provers: first those of the machine as a whole, then the commands, family by family.
A clause about a command says that it completes and what the device then is. -/

open Sys2Proof Sys2Proof.Machine

/-- One step is the front command's effect: whatever the state and the commands that wait, `step` with a command at the front of
the queue is `exec` of that command on the state with the queue's rest. The queue is the model's own, first in, first out (log
entry 1). -/
def Obligations.StepRunsTheFront : Prop :=
  (∀ (s : State) (c : Instr) (rest : List Instr), step { s with pending := c :: rest } = exec c { s with pending := rest })

/-- On an empty queue the block idles. This is the model's choice, not a rule of the specification (log entry 1). -/
def Obligations.EmptyQueueIdles : Prop :=
  (∀ (s : State), s.pending = [] → step s = .next s)

/-- No command ends the run: on every state each of them answers a next state, and the queue of waiting commands is as before. -/
def Obligations.EveryCommandAnswers : Prop :=
  (∀ (s : State) (c : Instr), ∃ t, exec c s = .next t ∧ t.pending = s.pending)

/-- The state after reset: the queue is empty, the tick counter is zero (R24), no outlet's contactor is commanded closed, what reads
show equals the state, and registers read what the Reset columns give: the identity, and the default of the image for PAC_LAP_LEN,
LNK_CFG and LIO_KEY_CFG (R13). -/
def Obligations.ResetState : Prop :=
  (State.reset.pending = [] ∧ State.reset.dev.now = 0 ∧ State.reset.shown = State.reset.dev ∧
      State.reset.dev.reg Reg.glbId = 0xB1C14421 ∧ State.reset.dev.reg Reg.pacLapLen = 900 ∧
      State.reset.dev.reg (Reg.lnkCfg 143) = 0x640000 ∧ State.reset.dev.reg Reg.lioKeyCfg = 0x0A0190 ∧
      ∀ n : LinkId, (State.reset.dev.link n).cmd.close = 0)

/-- The invariant `State.Inv` holds at reset: the register file of the device, and the one that reads show, are in canonical form.
The form is the model's own way to hold the registers. -/
def Obligations.InvariantAtReset : Prop :=
  (State.Inv State.reset)

/-- From every state that meets `State.Inv`, reached or not, a step that answers a next state answers one that meets it: the
register files now, and as the last closure committed them, list addresses strictly rising and nothing that equals a reset value. -/
def Obligations.InvariantKept : Prop :=
  (∀ (s t : State), s.Inv → step s = .next t → t.Inv)

/-- In states that meet `State.Inv`, register files that read alike at every address are equal data: the file holds the values of
the registers and nothing else. -/
def Obligations.CanonicalRegisters : Prop :=
  (∀ (s t : State), s.Inv → t.Inv → ∀ a, s.dev.reg a = t.dev.reg a → s.dev.regs = t.dev.regs)

/-- The frame of all 286 commands. For each command, `touches` lists the parts of the device, the blocks of registers among them,
that it can change: every part outside the list is as before, whatever the state and the operands. And but for the closure of a
tick no command changes what reads show, the state as the last closure committed it (R22, R101). The lists are the model's
reading of what the specification lets each command change. -/
def Obligations.CommandFrame : Prop :=
  (∀ (s t : State) (c : Instr), exec c s = .next t → s.dev.Keeps t.dev (touches c) ∧ (c ≠ .tickClosure → t.shown = s.shown))

/-- Time (R24, R25): a closure adds one while the Pacer counts; a power-on reset restarts the count at zero; on leaving DORMANT it
goes on from the tick at which DORMANT was entered, or later; no other command changes it. -/
def Obligations.TickCount : Prop :=
  (∀ (s t : State) (c : Instr), exec c s = .next t → match c with
      | .tickClosure => t.dev.now = if s.dev.ticking then s.dev.now + 1 else s.dev.now
      | .porAssert | .railUndervoltageReset _ | .porRelease _ _ _ | .railResetRelease _ => t.dev.now = s.dev.now ∨ t.dev.now = 0
      | .wakeRailsInRange => t.dev.now = s.dev.now ∨ s.dev.pacer.dormantTick ≤ t.dev.now
      | _ => t.dev.now = s.dev.now)

/-- R100, for every register of sticky bits that the word reaches and every bit of it: after the write the bit is set exactly if it
was set and is not cleared, and a 1 clears it only where the last closure committed it set and no event of the open tick is listed
as having set it; every event lists its bit. No other register changes. -/
def Obligations.StickyBits : Prop :=
  (∀ (s : State) (a w : Word) (r : RegDecl) (k : Nat),
      s.dev.recording = true →
      s.dev.writable a.toNat w = some r →
      r.kind = .w1c →
      k < 32 →
      Completes (.w1cClear a w) s fun e =>
        e.bit a.toNat k = (s.dev.bit a.toNat k && !(bitOf (r.taken w) k && s.shown.bit a.toNat k && !s.dev.recorder.setNow.contains (a.toNat, k))) ∧
        s.dev.RegsBut e [a.toNat]) ∧
  (∀ (d : Dev) (r : EvReg) (k : Nat) (w : Word), k < 32 → (d.raise r k w).bit r.addr k = true ∧ (d.raise r k w).recorder.setNow.contains (r.addr, k) = true)

/-- R470, for each key: 60 s of touch make it stuck and set its event; while it is stuck no touch, long touch or release of it moves
the scroll, and no measurement, drift or rebasing moves its baseline; a measurement that is not below three quarters of THRESH
breaks the time it has been free; 5 s free enable it, and less do not. -/
def Obligations.StuckKeys : Prop :=
  (∀ (s : State) (k : Fin 2),
      (s.dev.keys.get k).touched = true →
      (s.dev.keys.get k).stuck = false →
      (s.dev.keys.get k).touchAt + secs 60 ≤ s.dev.now →
      Completes (.keyStuck k) s fun e =>
        e.keys.get k = { s.dev.keys.get k with stuck := true } ∧
        e.bit Reg.lioEvents (8 + k.1) = true ∧
        e.scroll = s.dev.scroll) ∧
  (∀ (s : State) (k : Fin 2),
      (s.dev.keys.get k).stuck = true →
      Completes (.keyTouch k) s fun e =>
        e.scroll = s.dev.scroll ∧
        e.keys = s.dev.keys) ∧
  (∀ (s : State),
      (s.dev.keys.get 0).stuck = true →
      Completes .keyLongTouch s fun e =>
        e.scroll = s.dev.scroll ∧
        e.keys = s.dev.keys) ∧
  (∀ (s : State) (k : Fin 2),
      (s.dev.keys.get k).stuck = true →
      Completes (.keyRelease k) s fun e =>
        e.scroll = s.dev.scroll ∧
        (e.keys.get k).base = (s.dev.keys.get k).base ∧
        (e.keys.get k).stuck = true) ∧
  (∀ (s : State) (k : Fin 2) (m : BitVec 16),
      (s.dev.keys.get k).stuck = true →
      (s.dev.keys.get k).first = false →
      Completes (.keyMeasurement k m) s fun e =>
        (e.keys.get k).base = (s.dev.keys.get k).base ∧
        (e.keys.get k).stuck = true ∧
        (3 * s.dev.keyThresh ≤ 4 * ((m.toNat : Int) - ((s.dev.keys.get k).base.toNat : Int)) → (e.keys.get k).freeSince = none)) ∧
  (∀ (s : State) (k : Fin 2),
      (s.dev.keys.get k).stuck = true →
      Completes (.keyDrift k) s fun e =>
        e.keys = s.dev.keys) ∧
  (∀ (s : State) (k : Fin 2),
      (s.dev.keys.get k).stuck = true →
      Completes (.keyRebase k) s fun e =>
        e.keys = s.dev.keys) ∧
  (∀ (s : State) (k : Fin 2),
      (s.dev.keys.get k).stuck = true →
      Completes (.keyUnstick k) s fun e =>
        (e.keys.get k).stuck = !heldFor (s.dev.keys.get k).freeSince s.dev.now (secs 5) ∧
        (e.keys.get k).base = (s.dev.keys.get k).base ∧
        e.scroll = s.dev.scroll)

/-- R277: in a live session that talks and is not being stopped yet, the request starts a controlled stop of reason 1, told to the
vehicle as the normal end of its protocol, with no current from this tick on; no register changes but VEH_REQ of the outlet, and no
other link. A stopped session whose output contactor has never closed is over at the closure of the tick (R266): `Dev.endUnclosed`, which
every closure applies to every outlet, ends it with its reason. -/
def Obligations.PauseAndStandby : Prop :=
  (∀ (s : State) (n : LinkId),
      (s.dev.link n).veh.live = true →
      (s.dev.link n).veh.talking = true →
      (s.dev.link n).veh.state ≠ .stopping →
      (s.dev.link n).veh.stopWhy = .none →
      Completes (.pauseStandbyReq n) s fun e =>
        (e.link n).veh.state = .stopping ∧
        (e.link n).veh.stopWhy = .vehicle ∧
        StopReason.code .vehicle = 1 ∧
        (e.link n).veh.response = StopReason.told .vehicle ∧
        (e.link n).veh.iout = 0 ∧
        (e.link n).veh.stopAt = s.dev.now ∧
        (e.link n).veh.live = true ∧
        s.dev.RegsBut e [Reg.vehReq n] ∧
        s.dev.LinksBut e n) ∧
  (∀ (d : Dev) (n : LinkId), (d.link n).veh.live = true → (d.link n).veh.stopWhy ≠ .none → d.everClosed n = false → ((d.endUnclosed n).link n).veh.live = false ∧ (d.endUnclosed n).field (Reg.vehLastEnd n) 0 8 = (d.link n).veh.stopWhy.code ∧ (d.endUnclosed n).bit (Reg.vehEvents n) 2 = true)

/-- The Pacer's own events, outside reset and DORMANT. A calendar second at or after its tick turns the calendar over by one second,
and the next one is due 1,000,000 ticks after it; before its tick the command changes nothing; a second that a time token has
announced for insertion at this point is counted in the lap while the calendar stays. The loss of PACE_IN sets its event, latches the
site trip and asks for SAFE HALT where the sprint path is armed. A drift check, once per second, sets PACE_DRIFT beyond 25,000,000 ± 2,500
periods, and notes for the laps that close whether it deviates; the rounding of PAC_DRIFT is a free value (log entry 12). A lap overrun
flags the laps of the outlets and sites that were late, sets its event and counts; the first raises VCORE_MARGIN and asks for the
running tempo's minimum and 20 mV more, up to 900 mV; one under VCORE_MARGIN latches the site trip and asks for SAFE HALT. -/
def Obligations.PacerDoesItsRules : Prop :=
  (∀ (s : State),
      s.dev.power.resetHeld = false →
      s.dev.mode ≠ .dormant →
      s.dev.pacer.leap = none →
      s.dev.pacer.secNext ≤ s.dev.now →
      Completes .calendarSecond s fun e =>
        e.pacer = { s.dev.pacer with cal := s.dev.pacer.cal + 1, secNext := s.dev.pacer.secNext + 1000000 } ∧
        s.dev.Keeps e [.pacer]) ∧
  (∀ (s : State),
      s.dev.power.resetHeld = false →
      s.dev.mode ≠ .dormant →
      s.dev.now < s.dev.pacer.secNext →
      Completes .calendarSecond s fun e =>
        s.dev.Keeps e []) ∧
  (∀ (s : State),
      s.dev.power.resetHeld = false →
      s.dev.mode ≠ .dormant →
      s.dev.pacer.leap = some (s.dev.pacer.cal, true) →
      s.dev.pacer.leapHeld = false →
      s.dev.pacer.secNext ≤ s.dev.now →
      Completes .calendarSecond s fun e =>
        e.pacer = { s.dev.pacer with leapHeld := true, lapSeconds := s.dev.pacer.lapSeconds + 1, secNext := s.dev.pacer.secNext + 1000000 } ∧
        s.dev.Keeps e [.pacer]) ∧
  (∀ (s : State),
      s.dev.power.resetHeld = false →
      s.dev.mode ≠ .dormant →
      s.dev.prot.armed = true →
      Completes .paceLoss s fun e =>
        e.pacer = { s.dev.pacer with paceOk := false } ∧
        e.bit Reg.pacEvents 0 = true ∧
        e.power.haltNow = true ∧
        e.prot.siteLatch.isSome = true ∧
        s.dev.Keeps e (touches .paceLoss)) ∧
  (∀ (s : State) (k : Nat),
      s.dev.power.resetHeld = false →
      s.dev.mode ≠ .dormant →
      s.dev.pacer.driftAt + 1000000 ≤ s.dev.now →
      Completes (.paceDriftCheck k) s fun e =>
        (e.bit Reg.pacEvents 1 = true ↔ s.dev.bit Reg.pacEvents 1 = true ∨ k < 24997500 ∨ 25002500 < k) ∧
        e.pacer = { s.dev.pacer with driftAt := s.dev.now, driftNow := decide (k < 24997500 ∨ 25002500 < k) } ∧
        e.reg Reg.pacDrift = wordOfInt (driftTenths k) ∧
        s.dev.RegsBut e [Reg.pacDrift, Reg.pacEvents] ∧
        s.dev.Keeps e [.pacer, .recorder, .rPac]) ∧
  (∀ (s : State) (w : WorkClass) (ns : List LinkId) (n : LinkId),
      n ∈ ns →
      s.dev.role n = .outlet ∨ s.dev.role n = .site →
      s.dev.pacer.vcoreMargin = false →
      Completes (.lapOverrun w ns) s fun e =>
        e.bit Reg.pacEvents 4 = true ∧
        e.pacer = { s.dev.pacer with vcoreMargin := true } ∧
        e.reg Reg.pacOverrunCnt = satWord ((s.dev.reg Reg.pacOverrunCnt).toNat + 1) ∧
        (e.link n).met.flags = { (s.dev.link n).met.flags with overrun := true } ∧
        (∀ m, m ∉ ns → e.link m = s.dev.link m) ∧
        s.dev.Keeps e [.pacer, .recorder, .power, .met, .rPac, .rPwr]) ∧
  (∀ (s : State) (w : WorkClass) (ns : List LinkId),
      s.dev.pacer.vcoreMargin = false →
      s.dev.power.pmbLost = false →
      Completes (.lapOverrun w ns) s fun e =>
        e.reg Reg.pwrVcoreReq = BitVec.ofNat 32 (min 900 (tempoMv s.dev.power.tempo + 20)) ∧
        e.power.voutAt = some s.dev.now) ∧
  (∀ (s : State) (w : WorkClass) (ns : List LinkId),
      s.dev.pacer.vcoreMargin = true →
      s.dev.prot.armed = true →
      Completes (.lapOverrun w ns) s fun e =>
        e.bit Reg.pacEvents 4 = true ∧
        e.reg Reg.pacOverrunCnt = satWord ((s.dev.reg Reg.pacOverrunCnt).toNat + 1) ∧
        e.power.haltNow = true ∧
        e.prot.siteLatch.isSome = true ∧
        e.pacer = s.dev.pacer)

/-- The six mode requests, one command each. Where the core serves no command (DORMANT, WAKING) each changes nothing. Else PWR_MODE_REQ
reads the code. DORMANT without a reason against it, RUN from ECONOMY or MAINTENANCE, ECONOMY from RUN and MAINTENANCE without a reason
against it add one trigger to the open tick, and nothing else changes in the power controller, the mode included. Any other request
sets MODE_REFUSED and its reason: for DORMANT and MAINTENANCE the reason that `dormantRefusal` and `maintenanceRefusal` give, for RUN and ECONOMY "not requestable"
(that this reason also covers a mode that does not permit the request is the model's choice, log entry 93). SAFE HALT, sprint path
armed, latches the site trip, sets its event and asks for SAFE HALT; the mode is as before until the closure. Beside PWR_MODE_REQ, and
PWR_EVENTS in a refusal, no register changes but for SAFE HALT's. -/
def Obligations.ModeRequests : Prop :=
  (∀ (s : State),
      s.dev.dormantRefusal = .none →
      Completes .modeReqDormant s fun e =>
        e.power = { s.dev.power with trigs := s.dev.power.trigs ++ [.toDormant true] } ∧
        e.reg Reg.pwrModeReq = 0 ∧
        s.dev.RegsBut e [Reg.pwrModeReq]) ∧
  (∀ (s : State),
      s.dev.mode = .economy ∨ s.dev.mode = .maintenance →
      Completes .modeReqRun s fun e =>
        e.power = { s.dev.power with trigs := s.dev.power.trigs ++ [if s.dev.mode = .economy then .toRunFromEconomy true else .toRunFromMaintenance true] } ∧
        e.reg Reg.pwrModeReq = 3 ∧
        s.dev.RegsBut e [Reg.pwrModeReq]) ∧
  (∀ (s : State),
      s.dev.mode = .run →
      Completes .modeReqEconomy s fun e =>
        e.power = { s.dev.power with trigs := s.dev.power.trigs ++ [.toEconomy true] } ∧
        e.reg Reg.pwrModeReq = 4 ∧
        s.dev.RegsBut e [Reg.pwrModeReq]) ∧
  (∀ (s : State),
      s.dev.recording = true →
      s.dev.dormantRefusal ≠ .none →
      Completes .modeReqDormant s fun e =>
        e.power = { s.dev.power with refuse := s.dev.dormantRefusal } ∧
        e.reg Reg.pwrModeReq = 0 ∧
        e.bit Reg.pwrEvents 6 = true ∧
        s.dev.RegsBut e [Reg.pwrModeReq, Reg.pwrEvents]) ∧
  (∀ (s : State),
      s.dev.recording = true →
      s.dev.mode ≠ .economy →
      s.dev.mode ≠ .maintenance →
      Completes .modeReqRun s fun e =>
        e.power = { s.dev.power with refuse := .notRequestable } ∧
        e.reg Reg.pwrModeReq = 3 ∧
        e.bit Reg.pwrEvents 6 = true ∧
        s.dev.RegsBut e [Reg.pwrModeReq, Reg.pwrEvents]) ∧
  (∀ (s : State),
      s.dev.recording = true →
      s.dev.mode ≠ .run →
      Completes .modeReqEconomy s fun e =>
        e.power = { s.dev.power with refuse := .notRequestable } ∧
        e.reg Reg.pwrModeReq = 4 ∧
        e.bit Reg.pwrEvents 6 = true ∧
        s.dev.RegsBut e [Reg.pwrModeReq, Reg.pwrEvents]) ∧
  (∀ (s : State),
      s.dev.maintenanceRefusal = .none →
      Completes .modeReqMaintenance s fun e =>
        e.power = { s.dev.power with trigs := s.dev.power.trigs ++ [.toMaintenance] } ∧
        e.reg Reg.pwrModeReq = 5 ∧
        s.dev.RegsBut e [Reg.pwrModeReq]) ∧
  (∀ (s : State),
      s.dev.recording = true →
      s.dev.maintenanceRefusal ≠ .none →
      Completes .modeReqMaintenance s fun e =>
        e.power = { s.dev.power with refuse := s.dev.maintenanceRefusal } ∧
        e.reg Reg.pwrModeReq = 5 ∧
        e.bit Reg.pwrEvents 6 = true ∧
        s.dev.RegsBut e [Reg.pwrModeReq, Reg.pwrEvents]) ∧
  (∀ (s : State),
      s.dev.recording = true →
      s.dev.prot.armed = true →
      Completes .modeReqSafeHalt s fun e =>
        e.power.haltNow = true ∧
        e.prot.siteLatch.isSome = true ∧
        e.bit Reg.prtEvents 3 = true ∧
        e.reg Reg.pwrModeReq = 6 ∧
        e.mode = s.dev.mode) ∧
  (∀ (s : State) (c : Instr),
      s.dev.recording = false →
      c ∈ [.modeReqDormant, .modeReqRun, .modeReqEconomy, .modeReqMaintenance, .modeReqSafeHalt] →
      Completes c s fun e =>
        s.dev.Keeps e [])

/-- Release of POR_N with every rail in range and no activation cut short starts the Pacer, counts the power-on reset, and arms the sprint
path on the boot map in WAKING; with TEST_EN high bring-up goes no further; a loader found bad asks for SAFE HALT for good; without its
reference the device asks for SAFE HALT; with a rail low the release is only noted, and where POR_N was not asserted nothing changes. Step
4 enters STARTING BLOCK at T1 or above, the glass shows the legend, and the image found valid takes the boot map out, found invalid fails the
bring-up. Steps 6 to 8 with firmware and keys good enter RUN, a lap begins and PWR_BRINGUP_TIME has the milliseconds since bring-up began;
under the halt latch they enter SAFE HALT. Firmware found bad with no journal fails the bring-up, and so do bad keys. The timed
triggers join those of their tick, and nothing else changes. -/
def Obligations.BringUp : Prop :=
  (∀ (s : State),
      s.dev.power.porAsserted = true →
      s.dev.power.railLow = [] →
      s.dev.upd.record ≠ .swapping →
      Completes (.porRelease false true true) s fun e =>
        e.mode = .waking ∧
        e.power.bringup = .waking ∧
        e.power.resetHeld = false ∧
        e.power.porAsserted = false ∧
        e.power.tempo = 0 ∧
        e.prot.armed = true ∧
        e.prot.bootMap = true ∧
        e.pacer.paceOk = true ∧
        e.reg Reg.pwrCycles = satWord ((if s.dev.power.vaonLost then s.dev.power.cyclesMirror else s.dev.reg Reg.pwrCycles).toNat + 1) ∧
        e.reg Reg.pwrWakeCause = 0) ∧
  (∀ (s : State),
      s.dev.power.porAsserted = true →
      s.dev.power.railLow = [] →
      Completes (.porRelease true true true) s fun e =>
        e.mode = .waking ∧
        e.power.bringup = .idle ∧
        e.power.testEn = true ∧
        e.power.resetHeld = false) ∧
  (∀ (s : State),
      s.dev.power.porAsserted = true →
      s.dev.power.railLow = [] →
      Completes (.porRelease false true false) s fun e =>
        e.mode = .waking ∧
        e.power.haltNow = true ∧
        e.power.haltForGood = true ∧
        e.power.bringupFault = some .loaderBad) ∧
  (∀ (s : State),
      s.dev.power.porAsserted = true →
      s.dev.power.railLow = [] →
      Completes (.porRelease false false true) s fun e =>
        e.mode = .waking ∧
        e.pacer.paceOk = false ∧
        e.power.haltNow = true ∧
        e.prot.siteLatch.isSome = true) ∧
  (∀ (s : State) (testEn paceOk loaderOk : Bool),
      s.dev.power.porAsserted = true →
      s.dev.power.railLow ≠ [] →
      Completes (.porRelease testEn paceOk loaderOk) s fun e =>
        e.power = { s.dev.power with porAsserted := false, testEn := testEn } ∧
        s.dev.Keeps e [.power]) ∧
  (∀ (s : State) (testEn paceOk loaderOk : Bool),
      s.dev.power.porAsserted = false →
      Completes (.porRelease testEn paceOk loaderOk) s fun e =>
        s.dev.Keeps e []) ∧
  (∀ (s : State),
      s.dev.power.bringup = .waking →
      s.dev.power.resetHeld = false →
      s.dev.mode = .waking →
      s.dev.power.haltForGood = false →
      Completes .enterStartingBlock s fun e =>
        e.mode = .startingBlock ∧
        e.power.bringup = .starting ∧
        e.power.tempo = max 1 s.dev.power.tempo ∧
        e.power.waking = none ∧
        e.disp.state = .legend ∧
        e.recorder.held = [] ∧
        (e.cfg.valid = true → e.prot.bootMap = false) ∧
        (e.cfg.valid = false → e.power.bringupFault = some .cfgInvalid ∧ e.bit Reg.pwrEvents 7 = true)) ∧
  (∀ (s : State) (found : List ScrubFound),
      s.dev.power.bringup = .starting →
      s.dev.power.bringupFault = none →
      s.dev.mode = .startingBlock →
      s.dev.power.haltLatch = false →
      s.dev.power.haltNow = false →
      s.dev.sec.rng ≠ .startup →
      s.dev.sec.rng ≠ .restarting →
      Completes (.enterRun true true found) s fun e =>
        e.mode = .run ∧
        e.power.bringup = .done ∧
        e.pacer.lapRunning = true ∧
        e.reg Reg.pwrBringupTime = BitVec.ofNat 32 ((s.dev.now - s.dev.power.bringupAt + s.dev.power.bringupLead) / 1000)) ∧
  (∀ (s : State) (found : List ScrubFound),
      s.dev.power.bringup = .starting →
      s.dev.power.bringupFault = none →
      s.dev.mode = .startingBlock →
      s.dev.power.haltLatch = true →
      s.dev.sec.rng ≠ .startup →
      s.dev.sec.rng ≠ .restarting →
      Completes (.enterRun true true found) s fun e =>
        e.mode = .safeHalt ∧
        e.power.bringup = .done ∧
        e.reg Reg.pwrBringupTime = s.dev.reg Reg.pwrBringupTime) ∧
  (∀ (s : State) (keysOk : Bool) (found : List ScrubFound),
      s.dev.power.bringup = .starting →
      s.dev.power.bringupFault = none →
      s.dev.mode = .startingBlock →
      s.dev.upd.journal = none →
      s.dev.sec.rng ≠ .startup →
      s.dev.sec.rng ≠ .restarting →
      Completes (.enterRun false keysOk found) s fun e =>
        e.power = { s.dev.power with bringupFault := some .fwInvalid } ∧
        e.bit Reg.pwrEvents 7 = true ∧
        s.dev.RegsBut e [Reg.pwrEvents]) ∧
  (∀ (s : State) (found : List ScrubFound),
      s.dev.power.bringup = .starting →
      s.dev.power.bringupFault = none →
      s.dev.mode = .startingBlock →
      s.dev.sec.rng ≠ .startup →
      s.dev.sec.rng ≠ .restarting →
      Completes (.enterRun true false found) s fun e =>
        e.mode = .startingBlock ∧
        e.power.bringup = .starting ∧
        e.power.bringupFault = some .keyFail ∧
        e.sec.vaultOk = false ∧
        e.bit Reg.pwrEvents 7 = true) ∧
  (∀ (s : State),
      s.dev.mode = .run →
      s.dev.field Reg.pwrTempoCfg 16 8 ≠ 0 →
      heldFor s.dev.power.ecoSince s.dev.now (60000000 * s.dev.field Reg.pwrTempoCfg 16 8) = true →
      s.dev.liveSessions ≤ 24 →
      Completes .ecoDelayExpiry s fun e =>
        e.power = { s.dev.power with trigs := s.dev.power.trigs ++ [.toEconomy false] } ∧
        s.dev.RegsBut e []) ∧
  (∀ (s : State),
      s.dev.power.pfail = true →
      heldFor s.dev.power.warnAt s.dev.now 20000 = true →
      s.dev.mode ≠ .dormant →
      s.dev.power.resetHeld = false →
      Completes .supplyDormantEntry s fun e =>
        e.power = { s.dev.power with trigs := s.dev.power.trigs ++ [.toDormant false] } ∧
        s.dev.RegsBut e [])

/-- A frame taken lifts the mark of an abandoned one. In DORMANT after its entry a WAKE or ALERT frame of good parity that names the device
becomes the wake cause unless one waits; during the entry it is caught; in another mode, with another address or bad parity it does no
more. A SLEEP_NOTICE of good parity adds its node to those asleep, and no register changes. A bit not completed marks its frame
abandoned. The release of PFAIL_N notes its tick, and is a cause after a DORMANT entered under the supply rule. With a cause waiting and
the rails in range a device in DORMANT enters WAKING, sprint path armed on the boot map, and PWR_WAKE_CAUSE names the cause; without
one nothing changes. The end of DORMANT entry turns the core off, keeps the tenants and the halt latch, and a caught cause waits from then
on; outside the entry it changes nothing. -/
def Obligations.WakeBusRules : Prop :=
  (∀ (s : State) (a : Byte) (p : Bool),
      s.dev.mode = .dormant →
      s.dev.power.entering = false →
      s.dev.wakeMatch a = true →
      wakeParity a 1 p = true →
      Completes (.wakeFrameWake a p) s fun e =>
        e.power = { s.dev.power with frameAbandoned := false, waking := s.dev.power.waking.or (some (.wake a)) } ∧
        s.dev.Keeps e [.power]) ∧
  (∀ (s : State) (a : Byte) (p : Bool),
      s.dev.mode = .dormant →
      s.dev.power.entering = true →
      s.dev.wakeMatch a = true →
      wakeParity a 1 p = true →
      Completes (.wakeFrameWake a p) s fun e =>
        e.power = { s.dev.power with frameAbandoned := false, caught := s.dev.power.caught.or (some (.wake a)) } ∧
        s.dev.Keeps e [.power]) ∧
  (∀ (s : State) (a : Byte) (p : Bool),
      s.dev.mode ≠ .dormant ∨ s.dev.wakeMatch a = false ∨ wakeParity a 1 p = false →
      Completes (.wakeFrameWake a p) s fun e =>
        e.power = { s.dev.power with frameAbandoned := false } ∧
        s.dev.Keeps e [.power]) ∧
  (∀ (s : State) (a : Byte) (p : Bool),
      s.dev.mode = .dormant →
      s.dev.power.entering = false →
      s.dev.wakeMatch a = true →
      wakeParity a 3 p = true →
      Completes (.wakeFrameAlert a p) s fun e =>
        e.power = { s.dev.power with frameAbandoned := false, waking := s.dev.power.waking.or (some (.alert a)) } ∧
        s.dev.Keeps e [.power]) ∧
  (∀ (s : State) (a : Byte) (p : Bool),
      s.dev.mode = .dormant →
      s.dev.power.entering = true →
      s.dev.wakeMatch a = true →
      wakeParity a 3 p = true →
      Completes (.wakeFrameAlert a p) s fun e =>
        e.power = { s.dev.power with frameAbandoned := false, caught := s.dev.power.caught.or (some (.alert a)) } ∧
        s.dev.Keeps e [.power]) ∧
  (∀ (s : State) (a : Byte) (p : Bool),
      s.dev.mode ≠ .dormant ∨ s.dev.wakeMatch a = false ∨ wakeParity a 3 p = false →
      Completes (.wakeFrameAlert a p) s fun e =>
        e.power = { s.dev.power with frameAbandoned := false } ∧
        s.dev.Keeps e [.power]) ∧
  (∀ (s : State) (a : Byte) (p : Bool),
      wakeParity a 2 p = true →
      Completes (.wakeFrameSleepNotice a p) s fun e =>
        e.power = { s.dev.power with frameAbandoned := false, asleep := if s.dev.power.asleep.contains a then s.dev.power.asleep else s.dev.power.asleep ++ [a] } ∧
        s.dev.RegsBut e []) ∧
  (∀ (s : State) (a : Byte) (p : Bool),
      wakeParity a 2 p = false →
      Completes (.wakeFrameSleepNotice a p) s fun e =>
        e.power = { s.dev.power with frameAbandoned := false } ∧
        s.dev.Keeps e [.power]) ∧
  (∀ (s : State),
      Completes .wakeBitTimeout s fun e =>
        e.power = { s.dev.power with frameAbandoned := true } ∧
        s.dev.Keeps e [.power]) ∧
  (∀ (s : State),
      s.dev.mode = .dormant →
      s.dev.power.entering = false →
      s.dev.power.supplyDormant = true →
      Completes .pfailRelease s fun e =>
        e.power = { s.dev.power with pfail := false, pfailGone := some s.dev.now, waking := s.dev.power.waking.or (some .pfailRelease) } ∧
        s.dev.Keeps e [.power]) ∧
  (∀ (s : State),
      s.dev.mode = .dormant →
      s.dev.power.entering = true →
      s.dev.power.supplyDormant = true →
      Completes .pfailRelease s fun e =>
        e.power = { s.dev.power with pfail := false, pfailGone := some s.dev.now, caught := s.dev.power.caught.or (some .pfailRelease) } ∧
        s.dev.Keeps e [.power]) ∧
  (∀ (s : State),
      s.dev.mode ≠ .dormant ∨ s.dev.power.supplyDormant = false →
      Completes .pfailRelease s fun e =>
        e.power = { s.dev.power with pfail := false, pfailGone := some s.dev.now } ∧
        s.dev.Keeps e [.power]) ∧
  (∀ (s : State) (c : WakeCause),
      s.dev.power.waking = some c →
      s.dev.mode = .dormant →
      s.dev.power.entering = false →
      Completes .wakeRailsInRange s fun e =>
        e.mode = .waking ∧
        e.power.bringup = .waking ∧
        e.power.caught = none ∧
        e.prot.armed = true ∧
        e.prot.bootMap = true ∧
        e.reg Reg.pwrWakeCause = c.word s.dev.power.caught.isSome) ∧
  (∀ (s : State),
      s.dev.power.waking = none ∨ s.dev.mode ≠ .dormant ∨ s.dev.power.entering = true →
      Completes .wakeRailsInRange s fun e =>
        s.dev.Keeps e []) ∧
  (∀ (s : State),
      s.dev.mode = .dormant →
      s.dev.power.entering = true →
      Completes .dormantEntryEnd s fun e =>
        e.mode = .dormant ∧
        e.power.entering = false ∧
        e.power.waking = s.dev.power.caught ∧
        e.power.vcoreOff = true ∧
        e.prot.armed = false ∧
        e.power.haltLatch = s.dev.power.haltLatch ∧
        e.tenants = s.dev.tenants) ∧
  (∀ (s : State),
      s.dev.mode ≠ .dormant ∨ s.dev.power.entering = false →
      Completes .dormantEntryEnd s fun e =>
        s.dev.Keeps e [])

/-- While the governor raises the tempo, no transaction runs and a VOUT_COMMAND stands, a poll is sent 1 ms after the last one; with no rise
under way it is not. A good reply ends the transaction and sends the next: STATUS_WORD's is held and CLEAR_FAULTS follows, READ_VOUT's word
shows in PWR_VCORE_READ and confirms a rise if at or above the new minimum, or is a failure 50 ms after the command. A failure, by NACK, PEC
or a bus held for 25 ms, is retried 10 ms later; the fourth in a row sets PMB_LOST and PMB_FAIL, ends a rise, which is then refused, and a
read is tried each second; a bus held for less changes nothing. The retries send the transaction, resp. READ_VOUT. An alert
outside reset and DORMANT reads STATUS_WORD, now or after what waits; in them it changes nothing. The lowest level within the mode's
bounds that has covered the demand for DOWN_HOLD seconds is taken; with none nothing changes. -/
def Obligations.PmbusRules : Prop :=
  (∀ (s : State),
      s.dev.power.tempo < s.dev.power.target →
      s.dev.power.pmbOp = none →
      s.dev.power.voutAt.isSome = true →
      s.dev.power.pollAt + 1000 ≤ s.dev.now →
      s.dev.power.pmbLost = false →
      Completes .readVoutPoll s fun e =>
        e.power = { s.dev.power with pmbOp := some .readVout, pmbOpAt := s.dev.now, pmbFails := 0, pollAt := s.dev.now } ∧
        s.dev.Keeps e [.power]) ∧
  (∀ (s : State),
      s.dev.power.target ≤ s.dev.power.tempo →
      Completes .readVoutPoll s fun e =>
        s.dev.Keeps e []) ∧
  (∀ (s : State) (op : PmbOp) (w : BitVec 16),
      s.dev.power.pmbOp = some op →
      op ≠ .readVout →
      op ≠ .voutMode →
      op ≠ .statusWord →
      s.dev.power.pmbRetryAt = none →
      Completes (.pmbusTransactionDone (.ok w)) s fun e =>
        (s.dev.power.pmbQueue = [] → e.power = { s.dev.power with pmbLost := false, pmbOp := none, pmbFails := 0 }) ∧
        (∀ q rest, s.dev.power.pmbQueue = q :: rest → e.power = { s.dev.power with pmbLost := false, pmbOp := some q, pmbQueue := rest, pmbOpAt := s.dev.now, pmbFails := 0 }) ∧
        s.dev.Keeps e [.power]) ∧
  (∀ (s : State) (w : BitVec 16),
      s.dev.power.pmbOp = some .statusWord →
      s.dev.power.pmbRetryAt = none →
      s.dev.power.pmbQueue = [] →
      Completes (.pmbusTransactionDone (.ok w)) s fun e =>
        e.power = { s.dev.power with pmbLost := false, statusWord := w, pmbOp := some .clearFaults, pmbOpAt := s.dev.now, pmbFails := 0 } ∧
        s.dev.RegsBut e []) ∧
  (∀ (s : State) (w : BitVec 16),
      s.dev.power.pmbOp = some .readVout →
      s.dev.power.pmbRetryAt = none →
      Completes (.pmbusTransactionDone (.ok w)) s fun e =>
        e.reg Reg.pwrVcoreRead = BitVec.ofNat 32 (linearMv s.dev.power.voutMode w) ∧
        (s.dev.power.tempo < s.dev.power.target → s.dev.power.voutAt.isSome = true → voutAtLeast s.dev.power.voutMode w (tempoMv s.dev.power.target) = true → e.power.riseReady = true) ∧
        (s.dev.power.tempo < s.dev.power.target → voutAtLeast s.dev.power.voutMode w (tempoMv s.dev.power.target) = false → heldFor s.dev.power.voutAt s.dev.now 50000 = true → s.dev.power.pmbFails < 3 → e.power.pmbRetryAt = some (s.dev.now + 10000) ∧ e.power.pmbFails = s.dev.power.pmbFails + 1)) ∧
  (∀ (s : State) (op : PmbOp) (r : PmbResult),
      s.dev.power.pmbOp = some op →
      s.dev.power.pmbRetryAt = none →
      s.dev.power.pmbLost = false →
      s.dev.power.pmbFails < 3 →
      r = .nack ∨ r = .pecError ∨ (r = .busHeld ∧ s.dev.power.pmbOpAt + 25000 ≤ s.dev.now) →
      Completes (.pmbusTransactionDone r) s fun e =>
        e.power = { s.dev.power with pmbFails := s.dev.power.pmbFails + 1, pmbRetryAt := some (s.dev.now + 10000) } ∧
        s.dev.Keeps e [.power]) ∧
  (∀ (s : State) (op : PmbOp) (r : PmbResult),
      s.dev.power.pmbOp = some op →
      s.dev.power.pmbRetryAt = none →
      s.dev.power.pmbLost = false →
      3 ≤ s.dev.power.pmbFails →
      r = .nack ∨ r = .pecError ∨ (r = .busHeld ∧ s.dev.power.pmbOpAt + 25000 ≤ s.dev.now) →
      Completes (.pmbusTransactionDone r) s fun e =>
        e.power.pmbLost = true ∧
        e.power.pmbOp = none ∧
        e.power.pmbRetryAt = some (s.dev.now + 1000000) ∧
        e.power.tempo = s.dev.power.tempo ∧
        e.power.target = s.dev.power.tempo ∧
        e.bit Reg.pwrEvents 1 = true ∧
        (s.dev.power.tempo < s.dev.power.target → e.bit Reg.pwrEvents 2 = true) ∧
        s.dev.RegsBut e [Reg.pwrEvents]) ∧
  (∀ (s : State),
      s.dev.now < s.dev.power.pmbOpAt + 25000 →
      Completes (.pmbusTransactionDone .busHeld) s fun e =>
        s.dev.Keeps e []) ∧
  (∀ (s : State),
      s.dev.power.pmbLost = false →
      heldFor s.dev.power.pmbRetryAt s.dev.now 0 = true →
      Completes .pmbusRetry s fun e =>
        e.power = { s.dev.power with pmbRetryAt := none, pmbOpAt := s.dev.now } ∧
        s.dev.Keeps e [.power]) ∧
  (∀ (s : State),
      s.dev.power.pmbLost = true →
      heldFor s.dev.power.pmbRetryAt s.dev.now 0 = true →
      Completes .pmbusRecoveryRetry s fun e =>
        e.power = { s.dev.power with pmbOp := some .readVout, pmbOpAt := s.dev.now, pmbRetryAt := none } ∧
        s.dev.Keeps e [.power]) ∧
  (∀ (s : State) (t : Fin 8),
      s.dev.tempoBounds.1 ≤ t.1 →
      t.1 < s.dev.power.tempo →
      s.dev.covers t.1 = true →
      heldFor (s.dev.power.covers.get t) s.dev.now (1000000 * s.dev.field Reg.pwrTempoCfg 8 8) = true →
      ∀ u : Fin 8, s.dev.tempoBounds.1 ≤ u.1 → u < t → s.dev.covers u.1 = false →
      Completes .tempoLower s fun e =>
        e.power.tempo = t.1 ∧
        e.power.target = t.1 ∧
        e.power.riseReady = false ∧
        s.dev.RegsBut e [Reg.pwrVcoreReq, Reg.pwrEvents]) ∧
  (∀ (s : State),
      ∀ t : Fin 8, s.dev.tempoBounds.1 ≤ t.1 → t.1 < s.dev.power.tempo → s.dev.covers t.1 = true → heldFor (s.dev.power.covers.get t) s.dev.now (1000000 * s.dev.field Reg.pwrTempoCfg 8 8) = false →
      Completes .tempoLower s fun e =>
        s.dev.Keeps e []) ∧
  (∀ (s : State),
      s.dev.mode ≠ .dormant →
      s.dev.power.resetHeld = false →
      Completes .pmbAlert s fun e =>
        (s.dev.power.pmbOp = none → e.power = { s.dev.power with pmbOp := some .statusWord, pmbOpAt := s.dev.now, pmbFails := 0, pmbRetryAt := if s.dev.power.pmbLost then none else s.dev.power.pmbRetryAt }) ∧
        (s.dev.power.pmbOp ≠ none → e.power = { s.dev.power with pmbQueue := s.dev.power.pmbQueue ++ [.statusWord] }) ∧
        s.dev.Keeps e [.power]) ∧
  (∀ (s : State),
      s.dev.mode = .dormant ∨ s.dev.power.resetHeld = true →
      Completes .pmbAlert s fun e =>
        s.dev.Keeps e [])

/-- Outside reset and DORMANT: VCORE_LOW sets its event and, sprint path armed, latches the site trip and asks for SAFE HALT, the mode as
before; a supply warning sets its event, braces, restarts its count and commits under the next commit number, and but for a lap
boundary due in its tick no other register changes. In DORMANT and reset the first does nothing and the warning only sets its event and what
the pin shows. With PFAIL_N released, VAON in range and no warning for 10 ms the brace is lifted, the paused exchanges go on and the event
is set; before that nothing changes. A rail below its range holds the core in reset in WAKING, sprint path disarmed, tenants kept;
in reset it joins the list of low rails; in DORMANT it does nothing. POR_N does the same without a rail, and a second assertion nothing. With the rails back the core
leaves its reset as bring-up begins, counted as a power-on reset, unless POR_N still holds it. -/
def Obligations.SupplyRules : Prop :=
  (∀ (s : State),
      s.dev.mode ≠ .dormant →
      s.dev.power.resetHeld = false →
      s.dev.prot.armed = true →
      Completes .vcoreLow s fun e =>
        e.bit Reg.pwrEvents 0 = true ∧
        e.power.haltNow = true ∧
        e.prot.siteLatch.isSome = true ∧
        e.mode = s.dev.mode) ∧
  (∀ (s : State),
      s.dev.mode = .dormant ∨ s.dev.power.resetHeld = true →
      Completes .vcoreLow s fun e =>
        s.dev.Keeps e []) ∧
  (∀ (s : State) (x : SupplySource),
      s.dev.mode ≠ .dormant →
      s.dev.power.resetHeld = false →
      Completes (.supplyWarning x) s fun e =>
        e.power.brace = true ∧
        e.power.warnAt = some s.dev.now ∧
        e.power.commitAt = s.dev.now ∧
        (x = .pfail → e.power.pfail = true) ∧
        (x = .vaonLow → e.power.vaonLow = true) ∧
        e.mode = s.dev.mode ∧
        e.bit Reg.pwrEvents 3 = true ∧
        e.reg Reg.pwrCommitSeq = s.dev.reg Reg.pwrCommitSeq + 1 ∧
        (s.dev.lapDue = false → s.dev.RegsBut e [Reg.pwrEvents, Reg.pwrCommitSeq])) ∧
  (∀ (s : State) (x : SupplySource),
      s.dev.mode = .dormant ∨ s.dev.power.resetHeld = true →
      Completes (.supplyWarning x) s fun e =>
        (x = .pfail → e.power = { s.dev.power with pfail := true, pfailGone := none }) ∧
        (x = .vaonLow → e.power = { s.dev.power with vaonLow := true }) ∧
        e.bit Reg.pwrEvents 3 = true ∧
        s.dev.RegsBut e [Reg.pwrEvents]) ∧
  (∀ (s : State) (v : Nat),
      s.dev.mode ≠ .dormant →
      s.dev.power.brace = true →
      s.dev.power.pfail = false →
      heldFor s.dev.power.warnAt s.dev.now 10000 = true →
      (s.dev.power.pfailGone.getD 0) + 10000 ≤ s.dev.now →
      v + 10000 ≤ s.dev.now →
      Completes (.supplyRecovery v) s fun e =>
        e.power.brace = false ∧
        e.power.warnAt = none ∧
        e.power.vaonLow = false ∧
        (∀ x y, e.alloc.slots.get x = some y → y.paused = false) ∧
        e.bit Reg.pwrEvents 4 = true) ∧
  (∀ (s : State) (v : Nat),
      s.dev.power.brace = false ∨ s.dev.power.pfail = true ∨ heldFor s.dev.power.warnAt s.dev.now 10000 = false ∨ s.dev.now < (s.dev.power.pfailGone.getD 0) + 10000 ∨ s.dev.now < v + 10000 ∨ s.dev.mode = .dormant →
      Completes (.supplyRecovery v) s fun e =>
        s.dev.Keeps e []) ∧
  (∀ (s : State) (r : Rail),
      s.dev.mode ≠ .dormant →
      s.dev.power.resetHeld = false →
      Completes (.railUndervoltageReset r) s fun e =>
        e.power.resetHeld = true ∧
        e.power.railLow = [r] ∧
        e.mode = .waking ∧
        e.prot.armed = false ∧
        (s.dev.lapDue = false → e.tenants = s.dev.tenants)) ∧
  (∀ (s : State) (r : Rail),
      s.dev.mode ≠ .dormant →
      s.dev.power.resetHeld = true →
      Completes (.railUndervoltageReset r) s fun e =>
        e.power = { s.dev.power with railLow := if s.dev.power.railLow.contains r then s.dev.power.railLow else s.dev.power.railLow ++ [r] } ∧
        s.dev.Keeps e [.power]) ∧
  (∀ (s : State) (r : Rail),
      s.dev.mode = .dormant →
      Completes (.railUndervoltageReset r) s fun e =>
        s.dev.Keeps e []) ∧
  (∀ (s : State),
      s.dev.power.porAsserted = false →
      s.dev.power.resetHeld = false →
      Completes .porAssert s fun e =>
        e.power.resetHeld = true ∧
        e.power.porAsserted = true ∧
        e.mode = .waking ∧
        e.prot.armed = false ∧
        e.tenants = s.dev.tenants) ∧
  (∀ (s : State),
      s.dev.power.porAsserted = false →
      s.dev.power.resetHeld = true →
      Completes .porAssert s fun e =>
        e.power = { s.dev.power with porAsserted := true } ∧
        s.dev.Keeps e [.power]) ∧
  (∀ (s : State),
      s.dev.power.porAsserted = true →
      Completes .porAssert s fun e =>
        s.dev.Keeps e []) ∧
  (∀ (s : State),
      s.dev.power.resetHeld = true →
      s.dev.power.railLow ≠ [] →
      s.dev.power.porAsserted = false →
      s.dev.power.testEn = false →
      s.dev.upd.record ≠ .swapping →
      Completes (.railResetRelease true) s fun e =>
        e.mode = .waking ∧
        e.power.bringup = .waking ∧
        e.power.resetHeld = false ∧
        e.power.railLow = [] ∧
        e.prot.armed = true ∧
        e.prot.bootMap = true ∧
        e.reg Reg.pwrCycles = satWord ((if s.dev.power.vaonLost then s.dev.power.cyclesMirror else s.dev.reg Reg.pwrCycles).toNat + 1)) ∧
  (∀ (s : State),
      s.dev.power.resetHeld = true →
      s.dev.power.railLow ≠ [] →
      s.dev.power.porAsserted = false →
      Completes (.railResetRelease false) s fun e =>
        e.mode = .waking ∧
        e.power.haltNow = true ∧
        e.power.haltForGood = true ∧
        e.power.bringupFault = some .loaderBad) ∧
  (∀ (s : State) (ok : Bool),
      s.dev.power.resetHeld = true →
      s.dev.power.porAsserted = true →
      Completes (.railResetRelease ok) s fun e =>
        e.power = { s.dev.power with railLow := [] } ∧
        s.dev.Keeps e [.power]) ∧
  (∀ (s : State) (ok : Bool),
      s.dev.power.resetHeld = false ∨ s.dev.power.railLow = [] →
      Completes (.railResetRelease ok) s fun e =>
        s.dev.Keeps e [])

/-- Reads with the port serving, no pair open and the device past WAKING, at a register that is no vault word. READ_INC of one word answers
the register's value (0 for a write-only one), or the captured word where the address is the next of a wide value; READ_FIX of two words
answers the value twice where the register is not the first word of a wide value and lies outside the port's own block. READ_ID answers the
word at address 0, in WAKING too. Each counts one transaction, drives no error, and, where the word carries no poison, changes of
the registers only HPT_TXN_CNT and HPT_STALL_MAX, whose value is free (log entry 14). -/
def Obligations.PortReads : Prop :=
  (∀ (s : State) (a : Word) (r : RegDecl),
      s.dev.portServes = true →
      s.dev.host.pair = none →
      s.dev.mode ≠ .waking →
      s.dev.wordAt a.toNat = .reg r →
      r.kind ≠ .vault →
      s.dev.host.capture = none →
      s.shown.poisonWord a.toNat = none →
      Completes (.readInc a 0) s fun e =>
        e.host.outData = [if r.kind = .wo then 0 else s.dev.readValue s.shown a.toNat] ∧
        e.host.outErr = false ∧
        e.host.run = none ∧
        e.reg Reg.hptTxnCnt = s.dev.reg Reg.hptTxnCnt + 1 ∧
        s.dev.RegsBut e [Reg.hptTxnCnt, Reg.hptStallMax]) ∧
  (∀ (s : State) (a : Word) (r : RegDecl) (c : Capture) (w : Word) (rest : List Word),
      s.dev.portServes = true →
      s.dev.host.pair = none →
      s.dev.mode ≠ .waking →
      s.dev.wordAt a.toNat = .reg r →
      r.kind ≠ .vault →
      s.dev.host.capture = some c →
      c.addr = a.toNat →
      c.words = w :: rest →
      Completes (.readInc a 0) s fun e =>
        e.host.outData = [w] ∧
        e.host.outErr = false ∧
        e.reg Reg.hptTxnCnt = s.dev.reg Reg.hptTxnCnt + 1) ∧
  (∀ (s : State) (a : Word) (r : RegDecl),
      s.dev.portServes = true →
      s.dev.host.pair = none →
      s.dev.mode ≠ .waking →
      s.dev.wordAt a.toNat = .reg r →
      r.kind ≠ .vault →
      s.dev.host.capture = none →
      wideFrom a.toNat = 0 →
      a.toNat / 0x10000 ≠ 0xE →
      s.shown.poisonWord a.toNat = none →
      Completes (.readFix a 1) s fun e =>
        e.host.outData = [if r.kind = .wo then 0 else s.dev.readValue s.shown a.toNat, if r.kind = .wo then 0 else s.dev.readValue s.shown a.toNat] ∧
        e.host.outErr = false ∧
        e.host.run = none ∧
        e.reg Reg.hptTxnCnt = s.dev.reg Reg.hptTxnCnt + 1 ∧
        s.dev.RegsBut e [Reg.hptTxnCnt, Reg.hptStallMax]) ∧
  (∀ (s : State),
      s.dev.portServes = true →
      s.dev.host.pair = none →
      s.dev.host.capture = none →
      s.shown.poisonWord 0 = none →
      Completes .readId s fun e =>
        e.host.outData = [s.shown.view 0] ∧
        e.host.outErr = false ∧
        e.host.run = none ∧
        e.reg Reg.hptTxnCnt = s.dev.reg Reg.hptTxnCnt + 1 ∧
        s.dev.RegsBut e [Reg.hptTxnCnt, Reg.hptStallMax])

/-- With the port serving, no pair open and the device past WAKING: a word at a read/write register of the device's own block that no violation
bars and that is no register with a rule of its own (HPT_STALL_MAX, SEC_WAIT_MAX, ALC_HOST_LIMIT, the mailbox, a buffer in use) takes
the bits that the register has; WRITE_FIX of two words leaves the second. Each counts one transaction and drives no error. An
unlisted opcode is a bus error of cause 3, recorded with address 0 while recording is armed. An abort of a transaction with no complete word sets its event, is counted and starts a
resynchronisation, a capture is over; an abort while the last word waits for its head is counted alike, and without a transaction nothing changes. No register changes beside those named and HPT_STALL_MAX. -/
def Obligations.PortWrites : Prop :=
  (∀ (s : State) (a w : Word) (r : RegDecl),
      s.dev.portServes = true →
      s.dev.host.pair = none →
      s.dev.mode ≠ .waking →
      s.dev.wordAt a.toNat = .reg r →
      r.kind = .rw →
      s.dev.writeViolation a.toNat w r = none →
      a.toNat < 0x1000000 →
      a.toNat ∉ [Reg.hptStallMax, Reg.secWaitMax, Reg.alcHostLimit] →
      ¬(Reg.tagSvcMbxData 0 ≤ a.toNat ∧ a.toNat < Reg.tagSvcMbxData 64) →
      s.dev.busyBuffer a.toNat = false →
      Completes (.writeInc a [w]) s fun e =>
        e.reg a.toNat = r.taken w ∧
        e.host.outErr = false ∧
        e.host.run = none ∧
        e.reg Reg.hptTxnCnt = s.dev.reg Reg.hptTxnCnt + 1 ∧
        s.dev.RegsBut e [a.toNat, Reg.hptTxnCnt, Reg.hptStallMax]) ∧
  (∀ (s : State) (a w x : Word) (r : RegDecl),
      s.dev.portServes = true →
      s.dev.host.pair = none →
      s.dev.mode ≠ .waking →
      s.dev.wordAt a.toNat = .reg r →
      r.kind = .rw →
      s.dev.writeViolation a.toNat w r = none →
      s.dev.writeViolation a.toNat x r = none →
      a.toNat < 0x1000000 →
      a.toNat / 0x10000 ∉ [0x3, 0x5, 0x9, 0xC, 0xE] →
      Completes (.writeFix a [w, x]) s fun e =>
        e.reg a.toNat = r.taken x ∧
        e.host.outErr = false ∧
        e.host.run = none ∧
        e.reg Reg.hptTxnCnt = s.dev.reg Reg.hptTxnCnt + 1 ∧
        s.dev.RegsBut e [a.toNat, Reg.hptTxnCnt, Reg.hptStallMax]) ∧
  (∀ (s : State) (o : Byte),
      knownOpcode o = false →
      s.dev.portServes = true →
      s.dev.host.pair = none →
      s.dev.mode ≠ .waking →
      s.dev.host.errArmed = true →
      Completes (.unknownOpcode o) s fun e =>
        e.host.outErr = true ∧
        e.host.outData = [] ∧
        e.host.errCause = packWord [(10, 8, 0), (8, 2, 0), (0, 4, 3)] ∧
        e.host.errAddr = 0 ∧
        e.bit Reg.hptEvents 1 = true ∧
        e.reg Reg.hptErrCnt = satWord ((s.dev.reg Reg.hptErrCnt).toNat + 1) ∧
        s.dev.RegsBut e [Reg.hptTxnCnt, Reg.hptStallMax, Reg.hptErrCnt, Reg.hptEvents]) ∧
  (∀ (s : State) (o : Byte) (a : Word) (len : Byte),
      s.dev.host.run = none →
      s.dev.portServes = true →
      s.dev.host.pair = none →
      s.dev.mode ≠ .waking →
      knownOpcode o = true →
      Completes (.transactionAbort o a len []) s fun e =>
        e.bit Reg.hptEvents 3 = true ∧
        e.reg Reg.hptAbortCnt = satWord ((s.dev.reg Reg.hptAbortCnt).toNat + 1) ∧
        e.host.resync = true ∧
        e.host.resyncAt = s.dev.now ∧
        e.host.capture = none ∧
        s.dev.RegsBut e [Reg.hptEvents, Reg.hptAbortCnt, Reg.hptTxnCnt, Reg.hptStallMax]) ∧
  (∀ (s : State) (o : Byte) (a : Word) (len : Byte) (t : Txn) (n : LinkId) (since : Tick) (write : Bool),
      s.dev.host.run = some t →
      t.head = some (n, since, write) →
      t.words = [] →
      Completes (.transactionAbort o a len []) s fun e =>
        e.bit Reg.hptEvents 3 = true ∧
        e.reg Reg.hptAbortCnt = satWord ((s.dev.reg Reg.hptAbortCnt).toNat + 1) ∧
        e.host.run = none ∧
        e.host.resync = true ∧
        e.host.resyncAt = s.dev.now) ∧
  (∀ (s : State) (o : Byte) (a : Word) (len : Byte) (ws : List Word),
      s.dev.host.run = none →
      s.dev.portServes = false →
      Completes (.transactionAbort o a len ws) s fun e =>
        s.dev.Keeps e [])

/-- A pair open for more than 1 ms is discarded with its event and count; within it nothing changes. A transaction with a word that stalls
to the end ends with both events, an error, and a count. A head that has not answered the last word for 24 µs ends it with cause 6, APPLIED 2 for a write; before that nothing
changes. Where the core records: an admitted word sets an Expert register of a held function, and a read/write register without a
rule of its own, to the bits it has, and an Expert register of no held function keeps; a 1 clears a sticky bit set at the last closure, no event of the tick standing
against it; the first word of a wide value captures the next words; a read of HPT_ERR_CAUSE arms its recording; HPT_STALL_MAX takes
0 and nothing else. A word for a trained head, the port serving, is under way for it from this tick on; for an untrained one it is a bus error. -/
def Obligations.PortWords : Prop :=
  (∀ (s : State) (p : OpenPair),
      s.dev.host.pair = some p →
      p.since + 1000 < s.dev.now →
      Completes .guardPairExpiry s fun e =>
        e.host = { s.dev.host with pair := none } ∧
        e.bit Reg.hptEvents 0 = true ∧
        e.reg Reg.hptGuardCnt = satWord ((s.dev.reg Reg.hptGuardCnt).toNat + 1) ∧
        s.dev.RegsBut e [Reg.hptEvents, Reg.hptGuardCnt]) ∧
  (∀ (s : State) (p : OpenPair),
      s.dev.host.pair = some p →
      s.dev.now ≤ p.since + 1000 →
      Completes .guardPairExpiry s fun e =>
        s.dev.Keeps e []) ∧
  (∀ (s : State) (o : Byte) (a : Word) (len : Byte) (words : List Word) (word : Byte) (applied : Bool),
      s.dev.portServes = true →
      s.dev.mode ≠ .waking →
      knownOpcode o = true →
      s.dev.host.pair = none →
      Completes (.stallTimeout o a len words word applied) s fun e =>
        e.bit Reg.hptEvents 2 = true ∧
        e.bit Reg.hptEvents 1 = true ∧
        e.host.outErr = true ∧
        e.host.run = none ∧
        e.reg Reg.hptErrCnt = satWord ((s.dev.reg Reg.hptErrCnt).toNat + 1) ∧
        s.dev.RegsBut e [Reg.hptEvents, Reg.hptErrCnt, Reg.hptStallMax, Reg.hptTxnCnt]) ∧
  (∀ (s : State) (n : LinkId) (t : Txn) (since : Tick) (write : Bool),
      s.dev.host.run = some t →
      t.head = some (n, since, write) →
      t.words = [] →
      t.aborted = false →
      since + 24 ≤ s.dev.now →
      s.dev.host.errArmed = true →
      Completes (.headTimeout n) s fun e =>
        e.host.run = none ∧
        e.host.outErr = true ∧
        e.host.errAddr = t.addr ∧
        e.host.errCause = packWord [(10, 8, t.index), (8, 2, if write then 2 else 0), (0, 4, 6)] ∧
        e.bit Reg.hptEvents 1 = true) ∧
  (∀ (s : State) (n : LinkId) (t : Txn) (since : Tick) (write : Bool),
      s.dev.host.run = some t →
      t.head = some (n, since, write) →
      s.dev.now < since + 24 →
      Completes (.headTimeout n) s fun e =>
        s.dev.Keeps e []) ∧
  (∀ (s : State) (a w : Word) (r : RegDecl),
      s.dev.recording = true →
      s.dev.writable a.toNat w = some r →
      r.kind = .expert →
      s.dev.expertOpen a.toNat = true →
      Completes (.registerWrite a w) s fun e =>
        e.reg a.toNat = r.taken w ∧
        s.dev.RegsBut e [a.toNat]) ∧
  (∀ (s : State) (a w : Word) (r : RegDecl),
      s.dev.recording = true →
      s.dev.writable a.toNat w = some r →
      r.kind = .expert →
      s.dev.expertOpen a.toNat = false →
      Completes (.registerWrite a w) s fun e =>
        s.dev.Keeps e []) ∧
  (∀ (s : State) (a w : Word) (r : RegDecl),
      s.dev.recording = true →
      s.dev.writable a.toNat w = some r →
      r.kind = .rw →
      a.toNat < 0x1000000 →
      a.toNat ∉ [Reg.hptStallMax, Reg.secWaitMax, Reg.alcHostLimit] →
      ¬(Reg.tagSvcMbxData 0 ≤ a.toNat ∧ a.toNat < Reg.tagSvcMbxData 64) →
      s.dev.busyBuffer a.toNat = false →
      Completes (.registerWrite a w) s fun e =>
        e.reg a.toNat = r.taken w ∧
        s.dev.RegsBut e [a.toNat]) ∧
  (∀ (s : State) (a w : Word) (r : RegDecl),
      s.dev.recording = true →
      s.dev.writable a.toNat w = some r →
      r.kind = .w1c →
      (s.dev.recorder.setNow.filter fun x => x.1 == a.toNat) = [] →
      Completes (.w1cClear a w) s fun e =>
        e.reg a.toNat = s.dev.reg a.toNat &&& ~~~(r.taken w &&& s.shown.reg a.toNat) ∧
        s.dev.RegsBut e [a.toNat]) ∧
  (∀ (s : State) (a : Word) (r : RegDecl),
      s.dev.recording = true →
      s.dev.wordAt a.toNat = .reg r →
      wideFrom a.toNat ≠ 0 →
      Completes (.wideValueCapture a) s fun e =>
        e.host = { s.dev.host with capture := some { addr := a.toNat + 4, words := (List.range (wideFrom a.toNat)).map fun k => s.dev.readValue s.shown (a.toNat + 4 + 4 * k) } } ∧
        s.dev.RegsBut e []) ∧
  (∀ (s : State),
      s.dev.recording = true →
      Completes .errCauseRead s fun e =>
        e.host = { s.dev.host with errArmed := true } ∧
        s.dev.RegsBut e []) ∧
  (∀ (s : State) (w : Word),
      s.dev.recording = true →
      Completes (.stallMaxWrite w) s fun e =>
        e.reg Reg.hptStallMax = (if w = 0 then 0 else s.dev.reg Reg.hptStallMax) ∧
        s.dev.RegsBut e [Reg.hptStallMax]) ∧
  (∀ (s : State) (n : LinkId) (a : BitVec 15) (w : Option Word),
      s.dev.portServes = true →
      s.dev.host.pair = none →
      s.dev.mode ≠ .waking →
      s.dev.trained n = true →
      a.toNat % 4 = 0 →
      Completes (.headRegisterAccess n a w) s fun e =>
        (e.host.run.bind Txn.head) = some (n, s.dev.now, w.isSome) ∧
        e.host.capture = none ∧
        s.dev.RegsBut e []) ∧
  (∀ (s : State) (n : LinkId) (a : BitVec 15) (w : Option Word),
      s.dev.portServes = true →
      s.dev.host.pair = none →
      s.dev.mode ≠ .waking →
      s.dev.trained n = false →
      a.toNat % 4 = 0 →
      Completes (.headRegisterAccess n a w) s fun e =>
        e.host.run = none ∧
        e.host.outErr = true ∧
        e.bit Reg.hptEvents 1 = true ∧
        e.reg Reg.hptErrCnt = satWord ((s.dev.reg Reg.hptErrCnt).toNat + 1))

/-- With the port serving and no pair open, past WAKING: one word read or written at a misaligned or reserved address is a bus error, the
error is driven and counted, a read answers 0; one in the page of a tenant that is not enabled, at a vault word, or that a rule of
access forbids is an access violation, counted with its event, with no error: a read answers 0, a write changes nothing else. A word written into
the ledger window changes nothing. In WAKING the four data opcodes end as bus errors and only READ_ID is served (its statement is
PortReads). Where the port does not serve (DORMANT, reset, a transaction under way) every transaction changes nothing. -/
def Obligations.PortErrors : Prop :=
  (∀ (s : State) (a : Word),
      s.dev.portServes = true →
      s.dev.host.pair = none →
      s.dev.mode ≠ .waking →
      s.dev.wordAt a.toNat = .misaligned ∨ s.dev.wordAt a.toNat = .reserved →
      Completes (.readInc a 0) s fun e =>
        e.host.outData = [0] ∧
        e.host.outErr = true ∧
        e.host.run = none ∧
        e.bit Reg.hptEvents 1 = true ∧
        e.reg Reg.hptErrCnt = satWord ((s.dev.reg Reg.hptErrCnt).toNat + 1) ∧
        e.reg Reg.hptTxnCnt = s.dev.reg Reg.hptTxnCnt + 1 ∧
        s.dev.RegsBut e [Reg.hptTxnCnt, Reg.hptStallMax, Reg.hptErrCnt, Reg.hptEvents]) ∧
  (∀ (s : State) (a w : Word),
      s.dev.portServes = true →
      s.dev.host.pair = none →
      s.dev.mode ≠ .waking →
      s.dev.wordAt a.toNat = .misaligned ∨ s.dev.wordAt a.toNat = .reserved →
      Completes (.writeInc a [w]) s fun e =>
        e.host.outData = [] ∧
        e.host.outErr = true ∧
        e.host.run = none ∧
        e.bit Reg.hptEvents 1 = true ∧
        e.reg Reg.hptErrCnt = satWord ((s.dev.reg Reg.hptErrCnt).toNat + 1) ∧
        e.reg Reg.hptTxnCnt = s.dev.reg Reg.hptTxnCnt + 1 ∧
        s.dev.RegsBut e [Reg.hptTxnCnt, Reg.hptStallMax, Reg.hptErrCnt, Reg.hptEvents]) ∧
  (∀ (s : State) (a : Word),
      s.dev.portServes = true →
      s.dev.host.pair = none →
      s.dev.mode ≠ .waking →
      s.dev.wordAt a.toNat = .barred →
      Completes (.readInc a 0) s fun e =>
        e.host.outData = [0] ∧
        e.host.outErr = false ∧
        e.host.run = none ∧
        e.bit Reg.secEvents 0 = true ∧
        e.reg Reg.secViolCnt = satWord ((s.dev.reg Reg.secViolCnt).toNat + 1) ∧
        e.reg Reg.hptTxnCnt = s.dev.reg Reg.hptTxnCnt + 1 ∧
        s.dev.RegsBut e [Reg.hptTxnCnt, Reg.hptStallMax, Reg.secViolCnt, Reg.secEvents, Reg.secViolAddr, Reg.secViolCause]) ∧
  (∀ (s : State) (a : Word) (r : RegDecl),
      s.dev.portServes = true →
      s.dev.host.pair = none →
      s.dev.mode ≠ .waking →
      s.dev.wordAt a.toNat = .reg r →
      r.kind = .vault →
      Completes (.readInc a 0) s fun e =>
        e.host.outData = [0] ∧
        e.host.outErr = false ∧
        e.host.run = none ∧
        e.bit Reg.secEvents 0 = true ∧
        e.reg Reg.secViolCnt = satWord ((s.dev.reg Reg.secViolCnt).toNat + 1) ∧
        e.reg Reg.hptTxnCnt = s.dev.reg Reg.hptTxnCnt + 1 ∧
        s.dev.RegsBut e [Reg.hptTxnCnt, Reg.hptStallMax, Reg.secViolCnt, Reg.secEvents, Reg.secViolAddr, Reg.secViolCause]) ∧
  (∀ (s : State) (a w : Word) (r : RegDecl),
      s.dev.portServes = true →
      s.dev.host.pair = none →
      s.dev.mode ≠ .waking →
      s.dev.wordAt a.toNat = .barred →
      regRow a.toNat = some r →
      r.opens w = false →
      Completes (.writeInc a [w]) s fun e =>
        e.host.outData = [] ∧
        e.host.outErr = false ∧
        e.host.run = none ∧
        e.bit Reg.secEvents 0 = true ∧
        e.reg Reg.secViolCnt = satWord ((s.dev.reg Reg.secViolCnt).toNat + 1) ∧
        e.reg Reg.hptTxnCnt = s.dev.reg Reg.hptTxnCnt + 1 ∧
        s.dev.RegsBut e [Reg.hptTxnCnt, Reg.hptStallMax, Reg.secViolCnt, Reg.secEvents, Reg.secViolAddr, Reg.secViolCause]) ∧
  (∀ (s : State) (a w : Word) (r : RegDecl) (c : Nat),
      s.dev.portServes = true →
      s.dev.host.pair = none →
      s.dev.mode ≠ .waking →
      s.dev.wordAt a.toNat = .reg r →
      s.dev.writeViolation a.toNat w r = some c →
      r.opens w = false →
      Completes (.writeInc a [w]) s fun e =>
        e.host.outData = [] ∧
        e.host.outErr = false ∧
        e.host.run = none ∧
        e.bit Reg.secEvents 0 = true ∧
        e.reg Reg.secViolCnt = satWord ((s.dev.reg Reg.secViolCnt).toNat + 1) ∧
        e.reg Reg.hptTxnCnt = s.dev.reg Reg.hptTxnCnt + 1 ∧
        s.dev.RegsBut e [Reg.hptTxnCnt, Reg.hptStallMax, Reg.secViolCnt, Reg.secEvents, Reg.secViolAddr, Reg.secViolCause]) ∧
  (∀ (s : State) (a w : Word),
      s.dev.portServes = true →
      s.dev.host.pair = none →
      s.dev.mode ≠ .waking →
      s.dev.wordAt a.toNat = .ledger →
      Completes (.writeInc a [w]) s fun e =>
        e.host.outErr = false ∧
        e.reg Reg.hptTxnCnt = s.dev.reg Reg.hptTxnCnt + 1 ∧
        s.dev.RegsBut e [Reg.hptTxnCnt, Reg.hptStallMax]) ∧
  (∀ (s : State) (a w : Word) (c : Instr),
      s.dev.portServes = true →
      s.dev.host.pair = none →
      s.dev.mode = .waking →
      c ∈ [.readInc a 0, .readFix a 0, .writeInc a [w], .writeFix a [w]] →
      Completes c s fun e =>
        e.host.outErr = true ∧
        e.host.run = none ∧
        e.bit Reg.hptEvents 1 = true ∧
        e.reg Reg.hptErrCnt = satWord ((s.dev.reg Reg.hptErrCnt).toNat + 1) ∧
        e.reg Reg.hptTxnCnt = s.dev.reg Reg.hptTxnCnt + 1 ∧
        s.dev.RegsBut e [Reg.hptTxnCnt, Reg.hptStallMax, Reg.hptErrCnt, Reg.hptEvents]) ∧
  (∀ (s : State) (a : Word) (k o : Byte) (ws : List Word) (c : Instr),
      s.dev.portServes = false →
      c ∈ [.readInc a k, .readFix a k, .writeInc a ws, .writeFix a ws, .readId, .unknownOpcode o] →
      Completes c s fun e =>
        s.dev.Keeps e [])

/-- On a framed link whose tick is not judged yet: a valid frame with lock ends the run of missing ones and, on a trained link, brings
the head's status; a frame that is not valid counts in LNK_FAIL_RX and, in a tick without ALARM, towards loss, and its samples read zero. The first ALARM of a
serial is kept with its tick and its cause's event is set; a repeat only restarts the count towards loss; on a link without frames an
ALARM changes nothing. With two ticks missing a trained link is lost: event, training 10 ms later, pilot unknown; with fewer nothing
changes. A response that fits ends its request: HEAD_CAPS is held, an identity word is held in order, and one refused stops the training for 1
s; a response to no request, or that does not fit, changes nothing. A request unanswered for 8 µs is repeated once with its TAG; before
that, or a second time, nothing changes. -/
def Obligations.LinkFrames : Prop :=
  (∀ (s : State) (n : LinkId) (bs : List Block),
      (s.dev.link n).lnk.state.framed = true →
      (s.dev.link n).lnk.judged = false →
      badCtrl bs = 0 →
      frameValid s.dev.now n.1 bs = true →
      hasLock (lockBlocks bs (s.dev.link n).lnk.hdrBad) = true →
      Completes (.headFrameReceived n bs) s fun e =>
        (e.link n).lnk.goodRun = (s.dev.link n).lnk.goodRun + 1 ∧
        (e.link n).lnk.badRun = 0 ∧
        (e.link n).lnk.judged = true ∧
        (s.dev.trained n = true → (e.link n).hs = statusOf bs)) ∧
  (∀ (s : State) (n : LinkId) (bs : List Block),
      (s.dev.link n).lnk.state.framed = true →
      (s.dev.link n).lnk.judged = false →
      frameValid s.dev.now n.1 bs = false →
      Completes (.headFrameReceived n bs) s fun e =>
        (e.link n).lnk.goodRun = 0 ∧
        (e.link n).lnk.badRun = (if (s.dev.link n).lnk.alarmNow then 0 else (s.dev.link n).lnk.badRun + 1) ∧
        (e.link n).lnk.judged = true ∧
        (e.link n).rx = RxSamples.silent ∧
        (e.link n).hs = (s.dev.link n).hs ∧
        e.reg (Reg.lnkFailRx n) = satWord ((s.dev.reg (Reg.lnkFailRx n)).toNat + 1)) ∧
  (∀ (s : State) (n : LinkId) (a : BitVec 16),
      (s.dev.link n).lnk.state.framed = true →
      (s.dev.link n).lnk.alarmSerial = some (BitVec.ofNat 6 a.toNat) →
      Completes (.alarmReceived n a) s fun e =>
        (e.link n).lnk = { (s.dev.link n).lnk with alarmNow := true, badRun := 0 } ∧
        s.dev.LinksBut e n ∧
        s.dev.Keeps e [.lnk]) ∧
  (∀ (s : State) (n : LinkId) (a : BitVec 16),
      (s.dev.link n).lnk.state.framed = false →
      (s.dev.link n).lnk.state ≠ .trainC →
      Completes (.alarmReceived n a) s fun e =>
        s.dev.Keeps e []) ∧
  (∀ (s : State) (n : LinkId) (a : BitVec 16),
      (s.dev.link n).lnk.state.framed = true →
      (s.dev.link n).lnk.alarmSerial ≠ some (BitVec.ofNat 6 a.toNat) →
      Completes (.alarmReceived n a) s fun e =>
        (e.link n).lnk.alarmSerial = some (BitVec.ofNat 6 a.toNat) ∧
        (e.link n).lnk.alarmNow = true ∧
        e.reg (Reg.lnkAlarmLast n) = packWord [(16, 16, s.dev.now), (0, 16, a.toNat)] ∧
        e.bit (Reg.lnkEvents n) 1 = true) ∧
  (∀ (s : State) (n : LinkId),
      (s.dev.link n).lnk.state = .live →
      (s.dev.link n).lnk.judged = true →
      2 ≤ (s.dev.link n).lnk.badRun →
      Completes (.linkLost n) s fun e =>
        (e.link n).lnk.state = .lost ∧
        (e.link n).lnk.retryAt = some (s.dev.now + 10000) ∧
        e.bit (Reg.lnkEvents n) 0 = true ∧
        (e.link n).veh.pilot = .unknown) ∧
  (∀ (s : State) (n : LinkId),
      (s.dev.link n).lnk.judged = true →
      (s.dev.link n).lnk.badRun < 2 →
      Completes (.linkLost n) s fun e =>
        s.dev.Keeps e []) ∧
  (∀ (s : State) (n : LinkId) (r : HeadRequest) (resp : BitVec 2) (tag : BitVec 6) (a : BitVec 15) (data : Word),
      (s.dev.link n).lnk.state = .confirm →
      (s.dev.link n).lnk.request = some r →
      r.fits resp tag a = true →
      r.purpose = .headId ∨ r.purpose = .headRole ∨ r.purpose = .headFw →
      resp ≠ 3 →
      (s.dev.link n).lnk.waiting = [] →
      Completes (.headRegResponse n resp tag a data) s fun e =>
        (e.link n).lnk.idReads = (s.dev.link n).lnk.idReads ++ [data] ∧
        (e.link n).lnk.request = none ∧
        s.dev.LinksBut e n ∧
        s.dev.RegsBut e []) ∧
  (∀ (s : State) (n : LinkId) (r : HeadRequest) (tag : BitVec 6) (a : BitVec 15) (data : Word),
      (s.dev.link n).lnk.state = .confirm →
      (s.dev.link n).lnk.request = some r →
      r.fits 3 tag a = true →
      r.purpose = .headId ∨ r.purpose = .headRole ∨ r.purpose = .headFw →
      Completes (.headRegResponse n 3 tag a data) s fun e =>
        (e.link n).lnk.state = .off ∧
        (e.link n).lnk.retryAt = some (s.dev.now + 1000000) ∧
        e.bit (Reg.lnkEvents n) 3 = true ∧
        s.dev.LinksBut e n ∧
        s.dev.RegsBut e [Reg.lnkEvents n]) ∧
  (∀ (s : State) (n : LinkId) (resp : BitVec 2) (tag : BitVec 6) (a : BitVec 15) (data : Word),
      (s.dev.link n).lnk.request = none ∨ ((s.dev.link n).lnk.request.map fun r => r.fits resp tag a) = some false →
      Completes (.headRegResponse n resp tag a data) s fun e =>
        s.dev.Keeps e []) ∧
  (∀ (s : State) (n : LinkId) (r : HeadRequest),
      (s.dev.link n).lnk.request = some r →
      s.dev.now < r.since + 8 ∨ r.repeated = true →
      Completes (.headRegRepeat n) s fun e =>
        s.dev.Keeps e []) ∧
  (∀ (s : State) (n : LinkId) (r : HeadRequest) (resp : BitVec 2) (tag : BitVec 6) (a : BitVec 15) (data : Word),
      s.dev.trained n = true →
      (s.dev.link n).lnk.request = some r →
      r.fits resp tag a = true →
      r.purpose = .headCaps →
      resp ≠ 3 →
      (s.dev.link n).lnk.waiting = [] →
      Completes (.headRegResponse n resp tag a data) s fun e =>
        (e.link n).lnk.headCaps = data ∧
        (e.link n).lnk.request = none ∧
        s.dev.LinksBut e n ∧
        s.dev.RegsBut e []) ∧
  (∀ (s : State) (n : LinkId) (r : HeadRequest),
      (s.dev.link n).lnk.request = some r →
      r.since + 8 ≤ s.dev.now →
      r.repeated = false →
      Completes (.headRegRepeat n) s fun e =>
        (e.link n).lnk.request = some { r with repeated := true, carry := true, since := s.dev.now } ∧
        s.dev.LinksBut e n ∧
        s.dev.RegsBut e [])

/-- A link that may train, off or lost, its wait over, begins with TRAIN_A: counted, LNK_FAIL_RX restarted; a link stopped by a failure begins
so again after its second; a link that may not, or that waits, does not. The head's reply within 50 ms of the start brings role and version,
the markers 1 to 8 in turn within 100 ms the largest round trip; the eighth leads to TRAIN_C. Late or out of turn they change nothing. Sixteen good frames in a row and
the three reads within 200 ms hold the link and fill LNK_HEAD_ID and LNK_HEAD_FW; without them nothing changes. A step past its
bound stops the link for 1 s with its event. RETRAIN, where the core records, trains a site link whose contactors are open again at once, and
is refused with its event where one is closed. Beside the registers named for each no register changes; the tick of the first frame is a
free value (log entry 20). -/
def Obligations.LinkTraining : Prop :=
  (∀ (s : State) (n : LinkId),
      s.dev.mayTrain n = true →
      (s.dev.link n).lnk.state = .off ∨ (s.dev.link n).lnk.state = .lost →
      s.dev.trainDue n = true →
      Completes (.trainingStart n) s fun e =>
        (e.link n).lnk.state = .trainA ∧
        (e.link n).lnk.trainAt = s.dev.now ∧
        e.reg (Reg.lnkTrainCnt n) = satWord ((s.dev.reg (Reg.lnkTrainCnt n)).toNat + 1) ∧
        e.reg (Reg.lnkFailRx n) = 0 ∧
        s.dev.LinksBut e n ∧
        s.dev.RegsBut e [Reg.lnkTrainCnt n, Reg.lnkFailRx n]) ∧
  (∀ (s : State) (n : LinkId),
      s.dev.mayTrain n = true →
      (s.dev.link n).lnk.state = .off →
      (s.dev.link n).lnk.retryAt.isSome = true →
      s.dev.trainDue n = true →
      Completes (.trainingRetry n) s fun e =>
        (e.link n).lnk.state = .trainA ∧
        (e.link n).lnk.trainAt = s.dev.now ∧
        (e.link n).lnk.retryAt = none ∧
        e.reg (Reg.lnkTrainCnt n) = satWord ((s.dev.reg (Reg.lnkTrainCnt n)).toNat + 1) ∧
        s.dev.LinksBut e n ∧
        s.dev.RegsBut e [Reg.lnkTrainCnt n, Reg.lnkFailRx n]) ∧
  (∀ (s : State) (n : LinkId) (a : BitVec 16),
      (s.dev.link n).lnk.state = .trainA →
      s.dev.now ≤ (s.dev.link n).lnk.trainAt + 50000 →
      Completes (.trainAReply n a) s fun e =>
        (e.link n).lnk = { (s.dev.link n).lnk with state := .trainB, echoes := 0, roleSeen := BitVec.ofNat 2 a.toNat, headProto := BitVec.ofNat 8 (a.toNat / 256) } ∧
        e.reg (Reg.lnkRtt n) = 0 ∧
        s.dev.LinksBut e n ∧
        s.dev.RegsBut e [Reg.lnkRtt n]) ∧
  (∀ (s : State) (n : LinkId) (m : BitVec 16) (rtt : Word),
      (s.dev.link n).lnk.state = .trainB →
      s.dev.now ≤ (s.dev.link n).lnk.trainAt + 100000 →
      m.toNat = (s.dev.link n).lnk.echoes + 1 →
      Completes (.trainBEcho n m rtt) s fun e =>
        (m.toNat < 8 → (e.link n).lnk.echoes = m.toNat) ∧
        (e.link n).lnk.state = (if m.toNat < 8 then .trainB else .trainC) ∧
        (e.reg (Reg.lnkRtt n)).toNat = max (s.dev.reg (Reg.lnkRtt n)).toNat rtt.toNat ∧
        s.dev.LinksBut e n ∧
        s.dev.RegsBut e [Reg.lnkRtt n]) ∧
  (∀ (s : State) (n : LinkId) (i r f : Word),
      (s.dev.link n).lnk.state = .confirm →
      (s.dev.link n).lnk.idReads = [i, r, f] →
      16 ≤ (s.dev.link n).lnk.goodRun →
      s.dev.now ≤ (s.dev.link n).lnk.trainAt + 200000 →
      Completes (.trainingComplete n) s fun e =>
        (e.link n).lnk.state = .held ∧
        (e.link n).lnk.headRole = r ∧
        (e.link n).prot.threshOk = false ∧
        e.reg (Reg.lnkHeadId n) = i ∧
        e.reg (Reg.lnkHeadFw n) = f) ∧
  (∀ (s : State) (n : LinkId),
      (s.dev.link n).lnk.state ≠ .trainC →
      (s.dev.link n).lnk.state ≠ .confirm ∨ (s.dev.link n).lnk.goodRun < 16 ∨ (s.dev.link n).lnk.idReads.length ≠ 3 ∨ (s.dev.link n).lnk.trainAt + 200000 < s.dev.now →
      Completes (.trainingComplete n) s fun e =>
        s.dev.Keeps e []) ∧
  (∀ (s : State) (n : LinkId),
      s.dev.mayTrain n = false ∨ s.dev.trainDue n = false →
      Completes (.trainingStart n) s fun e =>
        s.dev.Keeps e []) ∧
  (∀ (s : State) (n : LinkId),
      s.dev.mayTrain n = false ∨ s.dev.trainDue n = false →
      Completes (.trainingRetry n) s fun e =>
        s.dev.Keeps e []) ∧
  (∀ (s : State) (n : LinkId) (a : BitVec 16),
      (s.dev.link n).lnk.state ≠ .trainA ∨ (s.dev.link n).lnk.trainAt + 50000 < s.dev.now →
      Completes (.trainAReply n a) s fun e =>
        s.dev.Keeps e []) ∧
  (∀ (s : State) (n : LinkId) (m : BitVec 16) (rtt : Word),
      (s.dev.link n).lnk.state ≠ .trainB ∨ (s.dev.link n).lnk.trainAt + 100000 < s.dev.now ∨ m.toNat ≠ (s.dev.link n).lnk.echoes + 1 →
      Completes (.trainBEcho n m rtt) s fun e =>
        s.dev.Keeps e []) ∧
  (∀ (s : State) (n : LinkId) (b : Nat),
      ((s.dev.enterConfirm n).link n).lnk.state.bound = some b →
      (s.dev.link n).lnk.trainAt + 1000 * b < s.dev.now →
      Completes (.trainingFail n) s fun e =>
        (e.link n).lnk.state = .off ∧
        (e.link n).lnk.retryAt = some (s.dev.now + 1000000) ∧
        e.bit (Reg.lnkEvents n) 3 = true ∧
        s.dev.LinksBut e n ∧
        s.dev.RegsBut e [Reg.lnkEvents n]) ∧
  (∀ (s : State) (n : LinkId),
      s.dev.recording = true →
      s.dev.mayTrain n = true →
      s.dev.role n = .site →
      (s.dev.link n).cmd.close = 0 →
      (s.dev.link n).hs.fb = 0 →
      Completes (.retrain n) s fun e =>
        (e.link n).lnk.state = .trainA ∧
        (e.link n).lnk.trainAt = s.dev.now ∧
        e.reg (Reg.lnkCmd n) = 1 ∧
        s.dev.LinksBut e n ∧
        s.dev.RegsBut e [Reg.lnkCmd n, Reg.lnkTrainCnt n, Reg.lnkFailRx n]) ∧
  (∀ (s : State) (n : LinkId),
      s.dev.recording = true →
      s.dev.mayTrain n = true →
      (s.dev.link n).hs.fb ≠ 0 →
      Completes (.retrain n) s fun e =>
        e.bit (Reg.lnkEvents n) 10 = true ∧
        (e.link n).lnk = (s.dev.link n).lnk ∧
        s.dev.RegsBut e [Reg.lnkCmd n, Reg.lnkEvents n])

/-- With no lap boundary due: a run above OC_LIM of OC_COUNT samples, not decided yet, sets its event and counts, the mode as before, and another run nothing;
the sense wire's conditions held for SENSE_TIME set SENSE_OPEN_NOW and its event, and stop a live session that is not being stopped with
reason 6, its current at 0; short of that nothing changes. One second of good readings ends SENSE_OPEN_NOW, less does not. A queued pulse
starts where its output runs, is inactive and 500 µs have passed since the last start, and ends 250 µs after its start; else
nothing changes. Where the core records: a new S0 level is taken, and an activity ended before it was judged is a glitch; an activity of 30 ms
is counted, or flagged where 62.5 ms have not passed since the last one counted; one longer than STUCK is flagged and marked; 30
ms of inactivity end the mark. No register changes beside those named. -/
def Obligations.MetrologyRules : Prop :=
  (∀ (s : State) (n : LinkId) (ch : Fin 8),
      s.dev.lapDue = false →
      ocChannel (s.dev.role n) ch.1 = true →
      s.dev.ocLim n ≠ 0 →
      ((s.dev.link n).met.chans.get ch).ocDone = false →
      s.dev.ocCount n ≤ ((s.dev.link n).met.chans.get ch).ocRun →
      0 < ((s.dev.link n).met.chans.get ch).ocRun →
      Completes (.overcurrentDecision n ch) s fun e =>
        e.bit (Reg.metEvents n) 0 = true ∧
        e.reg (Reg.metOcCnt n) = satWord ((s.dev.reg (Reg.metOcCnt n)).toNat + 1) ∧
        e.mode = s.dev.mode) ∧
  (∀ (s : State) (n : LinkId) (ch : Fin 8),
      s.dev.lapDue = false →
      s.dev.ocLim n = 0 ∨ ((s.dev.link n).met.chans.get ch).ocDone = true ∨ ((s.dev.link n).met.chans.get ch).ocRun < s.dev.ocCount n →
      Completes (.overcurrentDecision n ch) s fun e =>
        s.dev.Keeps e []) ∧
  (∀ (s : State) (n : LinkId),
      s.dev.lapDue = false →
      s.dev.role n = .outlet →
      (s.dev.link n).met.senseOpen = false →
      heldFor (s.dev.link n).met.senseSince s.dev.now (1000 * s.dev.settingField (Reg.metXSense n) 16 16) = true →
      (s.dev.link n).veh.live = false →
      Completes (.senseOpen n) s fun e =>
        (e.link n).met.senseOpen = true ∧
        e.bit (Reg.metEvents n) 1 = true ∧
        (e.link n).veh = (s.dev.link n).veh ∧
        s.dev.RegsBut e [Reg.metEvents n]) ∧
  (∀ (s : State) (n : LinkId),
      s.dev.lapDue = false →
      (s.dev.link n).met.senseOpen = true ∨ heldFor (s.dev.link n).met.senseSince s.dev.now (1000 * s.dev.settingField (Reg.metXSense n) 16 16) = false →
      Completes (.senseOpen n) s fun e =>
        s.dev.Keeps e []) ∧
  (∀ (s : State) (n : LinkId),
      s.dev.lapDue = false →
      s.dev.role n = .outlet →
      (s.dev.link n).met.senseOpen = false →
      heldFor (s.dev.link n).met.senseSince s.dev.now (1000 * s.dev.settingField (Reg.metXSense n) 16 16) = true →
      (s.dev.link n).veh.live = true →
      (s.dev.link n).veh.stopWhy = .none →
      Completes (.senseOpen n) s fun e =>
        (e.link n).met.senseOpen = true ∧
        e.bit (Reg.metEvents n) 1 = true ∧
        (e.link n).veh.state = .stopping ∧
        (e.link n).veh.stopWhy = .senseOpen ∧
        (e.link n).veh.iout = 0 ∧
        (e.link n).veh.stopAt = s.dev.now) ∧
  (∀ (s : State) (n : LinkId),
      (s.dev.link n).met.senseOpen = true →
      heldFor (s.dev.link n).met.senseGood s.dev.now 1000000 = true →
      Completes (.senseOpenClear n) s fun e =>
        (e.link n).met = { (s.dev.link n).met with senseOpen := false, senseSince := none } ∧
        s.dev.LinksBut e n ∧
        s.dev.RegsBut e []) ∧
  (∀ (s : State) (n : LinkId),
      (s.dev.link n).met.senseOpen = false ∨ heldFor (s.dev.link n).met.senseGood s.dev.now 1000000 = false →
      Completes (.senseOpenClear n) s fun e =>
        s.dev.Keeps e []) ∧
  (∀ (s : State) (k : Fin 2),
      0 < (s.dev.tpo.get k).backlog →
      (s.dev.tpo.get k).active = false →
      ((s.dev.tpo.get k).start.map fun x => decide (x + 500 ≤ s.dev.now)).getD true = true →
      s.dev.tpoRuns k = true →
      Completes (.tpoPulseStart k) s fun e =>
        e.tpo.get k = { s.dev.tpo.get k with backlog := (s.dev.tpo.get k).backlog - 1, active := true, start := some s.dev.now, pin := !bitOf (s.dev.setting (tpoReg k)) 30 } ∧
        s.dev.Keeps e [.tpo]) ∧
  (∀ (s : State) (k : Fin 2),
      (s.dev.tpo.get k).backlog = 0 ∨ (s.dev.tpo.get k).active = true ∨ s.dev.tpoRuns k = false ∨ ((s.dev.tpo.get k).start.map fun x => decide (x + 500 ≤ s.dev.now)) = some false →
      Completes (.tpoPulseStart k) s fun e =>
        s.dev.Keeps e []) ∧
  (∀ (s : State) (k : Fin 2),
      (s.dev.tpo.get k).active = false ∨ ((s.dev.tpo.get k).start.map fun x => decide (x + 250 ≤ s.dev.now)) = some false →
      Completes (.tpoPulseEnd k) s fun e =>
        s.dev.Keeps e []) ∧
  (∀ (s : State) (k : Fin 2),
      (s.dev.tpo.get k).active = true →
      ((s.dev.tpo.get k).start.map fun x => decide (x + 250 ≤ s.dev.now)).getD true = true →
      Completes (.tpoPulseEnd k) s fun e =>
        e.tpo.get k = { s.dev.tpo.get k with active := false, pin := bitOf (s.dev.setting (tpoReg k)) 30 } ∧
        s.dev.Keeps e [.tpo]) ∧
  (∀ (s : State) (k : Fin 4) (v : Bool),
      (s.dev.s0.get k).level ≠ v →
      s.dev.recording = true →
      s.dev.s0Active k = false →
      Completes (.s0LevelChange k v) s fun e =>
        e.s0.get k = { s.dev.s0.get k with raw := v, level := v, since := s.dev.now, judged := false } ∧
        s.dev.RegsBut e []) ∧
  (∀ (s : State) (k : Fin 4) (v : Bool),
      (s.dev.s0.get k).level ≠ v →
      s.dev.recording = true →
      s.dev.s0Active k = true →
      (s.dev.s0.get k).judged = false →
      bitOf (s.dev.s0Cfg k) 31 = true →
      Completes (.s0LevelChange k v) s fun e =>
        e.s0.get k = { s.dev.s0.get k with raw := v, level := v, since := s.dev.now, judged := false } ∧
        e.bit Reg.lioS0Events (8 + k.1) = true ∧
        s.dev.RegsBut e [Reg.lioS0Events, Reg.lioS0Glitch]) ∧
  (∀ (s : State) (k : Fin 4) (v : Bool),
      (s.dev.s0.get k).level = v ∨ s.dev.recording = false →
      Completes (.s0LevelChange k v) s fun e =>
        s.dev.Keeps e []) ∧
  (∀ (s : State) (k : Fin 4) (x : Tick),
      s.dev.recording = true →
      bitOf (s.dev.s0Cfg k) 31 = true →
      s.dev.s0Active k = true →
      (s.dev.s0.get k).judged = false →
      (s.dev.s0.get k).since + 30000 ≤ s.dev.now →
      (s.dev.s0.get k).lastPulse = some x →
      s.dev.now < x + 62500 →
      Completes (.s0PulseCount k) s fun e =>
        e.s0.get k = { s.dev.s0.get k with judged := true } ∧
        e.bit Reg.lioS0Events (4 + k.1) = true ∧
        s.dev.RegsBut e [Reg.lioS0Events]) ∧
  (∀ (s : State) (k : Fin 4),
      s.dev.recording = false ∨ bitOf (s.dev.s0Cfg k) 31 = false ∨ s.dev.s0Active k = false ∨ (s.dev.s0.get k).judged = true ∨ s.dev.now < (s.dev.s0.get k).since + 30000 →
      Completes (.s0PulseCount k) s fun e =>
        s.dev.Keeps e []) ∧
  (∀ (s : State) (k : Fin 4),
      s.dev.recording = false ∨ bitOf (s.dev.s0Cfg k) 31 = false ∨ s.dev.s0Active k = false ∨ (s.dev.s0.get k).stuck = true ∨ s.dev.now ≤ (s.dev.s0.get k).since + 1000 * (10 * fieldOf (s.dev.s0Cfg k) 16 14) →
      Completes (.s0Stuck k) s fun e =>
        s.dev.Keeps e []) ∧
  (∀ (s : State) (k : Fin 4),
      (s.dev.s0.get k).stuck = false ∨ s.dev.s0Active k = true ∨ s.dev.now < (s.dev.s0.get k).since + 30000 →
      Completes (.s0StuckClear k) s fun e =>
        s.dev.Keeps e []) ∧
  (∀ (s : State) (k : Fin 4),
      s.dev.recording = true →
      bitOf (s.dev.s0Cfg k) 31 = true →
      s.dev.s0Active k = true →
      (s.dev.s0.get k).judged = false →
      (s.dev.s0.get k).since + 30000 ≤ s.dev.now →
      ((s.dev.s0.get k).lastPulse.map fun t => decide (t + 62500 ≤ s.dev.now)).getD true = true →
      Completes (.s0PulseCount k) s fun e =>
        (e.s0.get k).judged = true ∧
        (e.s0.get k).lastPulse = some s.dev.now ∧
        e.reg (Reg.lioS0CntLo k) = BitVec.ofNat 32 ((s.dev.reg (Reg.lioS0CntLo k)).toNat + 1) ∧
        s.dev.RegsBut e [Reg.lioS0CntLo k, Reg.lioS0CntHi k]) ∧
  (∀ (s : State) (k : Fin 4),
      s.dev.recording = true →
      bitOf (s.dev.s0Cfg k) 31 = true →
      s.dev.s0Active k = true →
      (s.dev.s0.get k).stuck = false →
      (s.dev.s0.get k).since + 1000 * (10 * fieldOf (s.dev.s0Cfg k) 16 14) < s.dev.now →
      Completes (.s0Stuck k) s fun e =>
        e.s0.get k = { s.dev.s0.get k with stuck := true } ∧
        e.bit Reg.lioS0Events k.1 = true ∧
        s.dev.RegsBut e [Reg.lioS0Events]) ∧
  (∀ (s : State) (k : Fin 4),
      (s.dev.s0.get k).stuck = true →
      s.dev.s0Active k = false →
      (s.dev.s0.get k).since + 30000 ≤ s.dev.now →
      Completes (.s0StuckClear k) s fun e =>
        e.s0.get k = { s.dev.s0.get k with stuck := false } ∧
        s.dev.RegsBut e [])

/-- A fixed or sliding demand interval of an outlet or site ends at a boundary of its kind, and a new one begins at this tick; off a boundary nothing changes. A
change of the seal from closed to open sets its event; equal levels are kept and are a fault only after more than 100 ms; closing it sets its event; the first two
count in BIL_SEAL_CNT and keep the calendar in BIL_SEAL_LAST (no lap boundary due). A held tariff without RESUME after HOLD_MAX, in the
tick of a lap boundary that is carried out, is discarded, its event set; else nothing changes. The result of the next unsigned record
signs it: it is handed to the NOR writer with the previous record's hash and its signature in place, the key and the signature free values of
Config (log entry 15). BIL_REC_CURSOR takes what is written where the core records. -/
def Obligations.BillingRules : Prop :=
  (∀ (s : State) (n : LinkId),
      s.dev.role n = .outlet ∨ s.dev.role n = .site →
      s.dev.mdBoundary false = true →
      (s.dev.link n).bill.fixed.startTick ≠ s.dev.now →
      Completes (.mdIntervalEnd n false) s fun e =>
        (e.link n).bill.fixed = s.dev.newDemand n [] ∧
        (e.link n).bill.sliding = (s.dev.link n).bill.sliding) ∧
  (∀ (s : State) (n : LinkId),
      s.dev.role n = .outlet ∨ s.dev.role n = .site →
      s.dev.mdBoundary true = true →
      (s.dev.link n).bill.sliding.startTick ≠ s.dev.now →
      Completes (.mdIntervalEnd n true) s fun e =>
        (e.link n).bill.sliding.start = (s.dev.ujAt n).1 ∧
        (e.link n).bill.sliding.startTick = s.dev.now ∧
        (e.link n).bill.sliding.subs.length ≤ s.dev.field Reg.bilCfg 15 4 ∧
        (e.link n).bill.fixed = (s.dev.link n).bill.fixed) ∧
  (∀ (s : State) (n : LinkId) (k : Bool),
      s.dev.mdBoundary k = false →
      Completes (.mdIntervalEnd n k) s fun e =>
        s.dev.Keeps e []) ∧
  (∀ (s : State) (a : Bool),
      Completes (.sealChange a a) s fun e =>
        e.bill.sealA = a ∧
        e.bill.sealB = a ∧
        e.bill.sealState = s.dev.bill.sealState ∧
        s.dev.Keeps e [.bill]) ∧
  (∀ (s : State),
      s.dev.lapDue = false →
      s.dev.bill.sealState ≠ .closed →
      Completes (.sealChange true false) s fun e =>
        e.bill.sealState = .closed ∧
        e.bit Reg.bilEvents 1 = true ∧
        e.mode = s.dev.mode ∧
        s.dev.RegsBut e [Reg.bilEvents]) ∧
  (∀ (s : State),
      s.dev.lapDue = false →
      s.dev.bill.sealState = .closed →
      Completes (.sealChange false true) s fun e =>
        e.bill.sealState = .opened ∧
        e.bill.sealA = false ∧
        e.bill.sealB = true ∧
        e.reg Reg.bilSealCnt = satWord ((s.dev.reg Reg.bilSealCnt).toNat + 1) ∧
        e.reg Reg.bilSealLast = BitVec.ofNat 32 s.dev.pacer.cal ∧
        e.bit Reg.bilEvents 0 = true ∧
        s.dev.RegsBut e [Reg.bilSealCnt, Reg.bilSealLast, Reg.bilEvents]) ∧
  (∀ (s : State),
      s.dev.bill.sealA ≠ s.dev.bill.sealB ∨ s.dev.now ≤ s.dev.bill.sealSince + 100000 →
      Completes .sealFault s fun e =>
        s.dev.Keeps e []) ∧
  (∀ (s : State),
      s.dev.lapDue = false →
      s.dev.bill.sealA = s.dev.bill.sealB →
      s.dev.bill.sealSince + 100000 < s.dev.now →
      s.dev.bill.sealState = .closed →
      Completes .sealFault s fun e =>
        e.bill.sealState = .fault ∧
        e.bit Reg.bilEvents 2 = true ∧
        e.reg Reg.bilSealCnt = satWord ((s.dev.reg Reg.bilSealCnt).toNat + 1) ∧
        e.reg Reg.bilSealLast = BitVec.ofNat 32 s.dev.pacer.cal ∧
        s.dev.RegsBut e [Reg.bilSealCnt, Reg.bilSealLast, Reg.bilEvents]) ∧
  (∀ (s : State) (t : TenantId) (k : Fin 16) (h : HoldSlot),
      s.dev.lapDue = false →
      (s.dev.tenant t).held = true →
      (s.dev.tenant t).heldAt + 60000000 * s.dev.field (Reg.bilTCfg t) 16 11 ≤ s.dev.now →
      s.dev.pacer.lastBoundary = some s.dev.now →
      s.dev.slotFor 2 (BitVec.ofNat 10 t.1) = some k →
      s.dev.cfg.slots.get k = some h →
      h.state = .held →
      Completes (.tariffHoldExpiry t) s fun e =>
        e.cfg.stat = { refuse := 0, fn := 2, inst := BitVec.ofNat 10 t.1 } ∧
        e.cfg.slots.get k = none ∧
        (e.tenant t).interimImp = 0 ∧
        (e.tenant t).interimExp = 0 ∧
        e.bit (Reg.bilTEvents t) 5 = true) ∧
  (∀ (s : State) (t : TenantId),
      s.dev.lapDue = false →
      s.dev.holdExpired t = false ∨ s.dev.pacer.lastBoundary ≠ some s.dev.now →
      Completes (.tariffHoldExpiry t) s fun e =>
        s.dev.Keeps e []) ∧
  (∀ (s : State),
      s.dev.bill.records.find? (fun r => !r.signed) = none →
      Completes .recordSigned s fun e =>
        s.dev.Keeps e []) ∧
  (∀ (s : State) (r : QueuedRecord),
      s.dev.bill.records.find? (fun r => !r.signed) = some r →
      s.dev.resultReady (.sign r.seq) = true →
      Completes .recordSigned s fun e =>
        (∀ q ∈ e.bill.records, q.seq = r.seq → q.signed = true) ∧
        (∀ body, body = signedPart (patch r.bytes 0x30 (hash16 s.dev.bill.lastRecord)) → .inl (r.seq, body ++ padTo 96 (Config.sign384 (s.dev.sec.signKey r.seq) body)) ∈ e.recorder.norWait)) ∧
  (∀ (s : State) (w : Word),
      s.dev.recording = true →
      Completes (.recCursorWrite w) s fun e =>
        e.reg Reg.bilRecCursor = w ∧
        s.dev.RegsBut e [Reg.bilRecCursor])

/-- While the device counts, the closure opens the next tick; the mode and the registers, the event register of the recorder apart, are then
as the closing tick left them, and that is what reads show; while it does not count nothing changes. A sample point, at counts 31, 62, 93 and 124 modulo 125, a planning lap
boundary, at multiples of 100,000 above 0, and a lap boundary are carried out in their tick, each once: a sample point carries out a lap boundary that is due first, a planning lap
sets ALC_PLAN_NUM, and a lap boundary counts the lap and starts the next one at its tick. Off their ticks and a second time they change nothing. -/
def Obligations.TicksAndLaps : Prop :=
  (∀ (s : State), s.dev.ticking = true → ∃ t, exec .tickClosure s = .next t ∧ t.pending = s.pending ∧ t.dev.now = s.dev.now + 1 ∧
      t.shown.now = s.dev.now ∧ t.shown.pacer.paceOk = true ∧ t.dev.RegsBut t.shown [Reg.evrEvents] ∧ t.dev.mode = t.shown.mode) ∧
  (∀ (s : State), s.dev.ticking = false → exec .tickClosure s = .next s) ∧
  (∀ (s : State),
      s.dev.ticking = true →
      isSamplePoint s.dev.now = true →
      s.dev.pacer.sampledAt ≠ some s.dev.now →
      Completes .samplePoint s fun e =>
        e.pacer = { s.dev.lapFirst.pacer with sampledAt := some s.dev.now }) ∧
  (∀ (s : State),
      isSamplePoint s.dev.now = false ∨ s.dev.pacer.sampledAt = some s.dev.now →
      Completes .samplePoint s fun e =>
        s.dev.Keeps e []) ∧
  (∀ (s : State),
      s.dev.ticking = true →
      s.dev.now % 100000 = 0 →
      0 < s.dev.now →
      s.dev.pacer.plannedAt ≠ some s.dev.now →
      Completes .planningLapBoundary s fun e =>
        e.pacer = { s.dev.pacer with plannedAt := some s.dev.now } ∧
        e.reg Reg.alcPlanNum = BitVec.ofNat 32 (s.dev.now / 100000)) ∧
  (∀ (s : State),
      s.dev.now % 100000 ≠ 0 ∨ s.dev.now = 0 ∨ s.dev.pacer.plannedAt = some s.dev.now →
      Completes .planningLapBoundary s fun e =>
        s.dev.Keeps e []) ∧
  (∀ (s : State),
      s.dev.lapDue = false →
      Completes .lapBoundary s fun e =>
        s.dev.Keeps e []) ∧
  (∀ (s : State),
      s.dev.ticking = true →
      s.dev.atBoundary = true →
      Completes .lapBoundary s fun e =>
        e.pacer.lapStart = s.dev.now ∧
        e.pacer.lapRunning = true ∧
        e.pacer.lastBoundary = some s.dev.now ∧
        e.reg Reg.pacLapNum = s.dev.reg Reg.pacLapNum + 1 ∧
        e.reg Reg.pacLapStartLo = BitVec.ofNat 32 s.dev.now)

/-- The commands named here act on the device as it is after a lap boundary that is due in the open tick: each of them does on any state what it
does on that state with the boundary carried out. A boundary is not due twice: once carried out in its tick, the statements about
these commands, which ask that none be due, speak of the rest. -/
def Obligations.DueLapFirst : Prop :=
  (∀ (s : State) (n : LinkId) (ch : Fin 8) (k : Fin 16) (t : TenantId) (c : Instr), c ∈ [.lapBoundary, .overcurrentDecision n ch, .senseOpen n, .tariffHoldExpiry t, .holdTakesEffect k, .resumeTakesEffect k] → exec c s = exec c { s with dev := s.dev.lapFirst } ∧ s.dev.lapFirst.lapDue = false)

/-- ALC_HOST_LIMIT takes the low half of the word where the core records; a term that exceeds the budget in force awaits the next tick,
a lower one awaits force as the target, an equal one awaits nothing. A verified utility limit takes effect, and shows, once the calendar
has reached its start, and lapses with its event once it has reached its expiry, ALC_UTIL_LIMIT then reading 0xFFFF. A target is the budget in force, with its event,
once grants plus pending fit it. At a sample point, the power at or below the grant, pending tokens are credited, and nothing else of the outlets changes;
REDUCE_MS after a cut without it sets its event, and a live session that is not being stopped yet is stopped with reason trip, its current at 0, the
tokens pending. Short of their conditions these commands change nothing. -/
def Obligations.BudgetRules : Prop :=
  (∀ (s : State) (n : LinkId),
      (s.dev.link n).out.pending ≠ 0 →
      (s.dev.link n).out.stopDone = false →
      isSamplePoint s.dev.now = true →
      s.dev.powerWithin n = true →
      s.dev.halted = false →
      Completes (.tokensCredited n) s fun e =>
        (e.link n).out = { (s.dev.link n).out with pending := 0 } ∧
        s.dev.LinksBut e n ∧
        (∀ x f, s.dev.alloc.slots.get x = some f → e.alloc.slots.get x = some (if f.donor = some n ∧ f.step = 2 then { f with step := 3, stepAt := s.dev.now } else f)) ∧
        s.dev.Keeps e [.out, .alloc]) ∧
  (∀ (s : State) (n : LinkId),
      (s.dev.link n).out.pending ≠ 0 →
      (s.dev.link n).out.stopDone = false →
      s.dev.halted = false →
      (s.dev.link n).out.cutAt + 1000 * s.dev.reduceMs ≤ s.dev.now →
      (s.dev.link n).veh.live = true →
      (s.dev.link n).veh.stopWhy = .none →
      Completes (.reduceTimeout n) s fun e =>
        e.bit Reg.alcEvents 4 = true ∧
        (e.link n).out.stopDone = true ∧
        (e.link n).out.pending = (s.dev.link n).out.pending ∧
        (e.link n).veh.state = .stopping ∧
        (e.link n).veh.stopWhy = .trip ∧
        (e.link n).veh.iout = 0) ∧
  (∀ (s : State) (n : LinkId),
      (s.dev.link n).out.pending = 0 ∨ (s.dev.link n).out.stopDone = true ∨ isSamplePoint s.dev.now = false ∨ s.dev.powerWithin n = false ∨ s.dev.halted = true →
      Completes (.tokensCredited n) s fun e =>
        s.dev.Keeps e []) ∧
  (∀ (s : State) (n : LinkId),
      (s.dev.link n).out.pending = 0 ∨ (s.dev.link n).out.stopDone = true ∨ s.dev.halted = true ∨ s.dev.now < (s.dev.link n).out.cutAt + 1000 * s.dev.reduceMs →
      Completes (.reduceTimeout n) s fun e =>
        s.dev.Keeps e []) ∧
  (∀ (s : State) (w : Word),
      s.dev.recording = true →
      (s.dev.setReg Reg.alcHostLimit (BitVec.ofNat 32 (fieldOf w 0 16))).budgetTerm = s.dev.alloc.inForce →
      Completes (.hostLimitWrite w) s fun e =>
        e.reg Reg.alcHostLimit = BitVec.ofNat 32 (fieldOf w 0 16) ∧
        e.alloc = { s.dev.alloc with target := none, raise := none } ∧
        s.dev.RegsBut e [Reg.alcHostLimit]) ∧
  (∀ (s : State) (w : Word),
      s.dev.recording = false →
      Completes (.hostLimitWrite w) s fun e =>
        s.dev.Keeps e []) ∧
  (∀ (s : State) (w : Word),
      s.dev.recording = true →
      s.dev.alloc.inForce < (s.dev.setReg Reg.alcHostLimit (BitVec.ofNat 32 (fieldOf w 0 16))).budgetTerm →
      Completes (.hostLimitWrite w) s fun e =>
        e.reg Reg.alcHostLimit = BitVec.ofNat 32 (fieldOf w 0 16) ∧
        e.alloc = { s.dev.alloc with raise := some ((s.dev.setReg Reg.alcHostLimit (BitVec.ofNat 32 (fieldOf w 0 16))).budgetTerm), target := none } ∧
        s.dev.RegsBut e [Reg.alcHostLimit]) ∧
  (∀ (s : State) (w : Word),
      s.dev.recording = true →
      (s.dev.setReg Reg.alcHostLimit (BitVec.ofNat 32 (fieldOf w 0 16))).budgetTerm < s.dev.alloc.inForce →
      Completes (.hostLimitWrite w) s fun e =>
        e.reg Reg.alcHostLimit = BitVec.ofNat 32 (fieldOf w 0 16) ∧
        e.alloc = { s.dev.alloc with target := some ((s.dev.setReg Reg.alcHostLimit (BitVec.ofNat 32 (fieldOf w 0 16))).budgetTerm), raise := none } ∧
        s.dev.RegsBut e [Reg.alcHostLimit]) ∧
  (∀ (s : State) (l : UtilLimit),
      s.dev.alloc.waiting = some l →
      s.dev.pacer.calSet = true →
      l.start ≤ s.dev.pacer.cal →
      Completes .utilLimitStart s fun e =>
        e.alloc.limit = some l ∧
        e.alloc.waiting = none ∧
        e.alloc.expired = false ∧
        e.view Reg.alcUtilLimit = BitVec.ofNat 32 l.kw ∧
        e.view Reg.alcUtilExpiry = BitVec.ofNat 32 l.expiry ∧
        s.dev.Keeps e [.alloc]) ∧
  (∀ (s : State),
      ∀ l, s.dev.alloc.waiting = some l → s.dev.pacer.calSet = true → s.dev.pacer.cal < l.start →
      Completes .utilLimitStart s fun e =>
        s.dev.Keeps e []) ∧
  (∀ (s : State),
      ∀ l, s.dev.alloc.limit = some l → s.dev.pacer.calSet = true → s.dev.pacer.cal < l.expiry →
      Completes .utilLimitExpiry s fun e =>
        s.dev.Keeps e []) ∧
  (∀ (s : State),
      ∀ b, s.dev.alloc.target = some b → b < s.dev.granted + s.dev.pending →
      Completes .budgetInForce s fun e =>
        s.dev.Keeps e []) ∧
  (∀ (s : State) (l : UtilLimit),
      s.dev.alloc.limit = some l →
      s.dev.pacer.calSet = true →
      l.expiry ≤ s.dev.pacer.cal →
      Completes .utilLimitExpiry s fun e =>
        e.alloc.limit = none ∧
        e.alloc.expired = true ∧
        e.bit Reg.alcEvents 3 = true ∧
        e.view Reg.alcUtilLimit = 0xFFFF ∧
        s.dev.RegsBut e [Reg.alcEvents]) ∧
  (∀ (s : State) (b : Nat),
      s.dev.alloc.target = some b →
      s.dev.granted + s.dev.pending ≤ b →
      Completes .budgetInForce s fun e =>
        e.alloc = { s.dev.alloc with inForce := b, target := none } ∧
        e.bit Reg.alcEvents 2 = true ∧
        s.dev.RegsBut e [Reg.alcEvents])

/-- A group of a trained link not ready while GMODE 2 has been commanded for more than 100 ms, with no owner and in no exchange, is withdrawn,
its event set and its contactors to open; they open at a sample point with the current at or below RELEASE_A, or by force, with its event,
after RAMP_MS. Ten seconds without the cause and no latch free it. A free group idle for IDLE_OFF is driven with GMODE, VSET, ISET and PLIM
0. An assignment dead for 5 ms, no supply warning present, asks protection for its segment; as its closing contactor's
feedback reads closed the outlet owns the group. A release goes on from low current for 10 ms, or by force after RAMP_MS, over discharge at or below RELEASE_A,
to all contactors open, and as they read open the group is free. Out of its step or short of its condition each command changes
nothing. -/
def Obligations.GroupRules : Prop :=
  (∀ (s : State) (g : LinkId),
      s.dev.role g ≠ .power ∨ s.dev.trained g = false ∨ bitOf (s.dev.link g).hs.b39 29 = true ∨ (s.dev.link g).group.gmode2Since = none →
      Completes (.groupNotReady g) s fun e =>
        s.dev.Keeps e []) ∧
  (∀ (s : State) (g : LinkId),
      (s.dev.link g).group.breakAt = none →
      Completes (.withdrawOpen g) s fun e =>
        s.dev.Keeps e []) ∧
  (∀ (s : State) (g : LinkId),
      (s.dev.link g).group.state ≠ .withdrawn ∨ heldFor (s.dev.link g).group.clearSince s.dev.now 10000000 = false ∨ (s.dev.link g).prot.latch.isSome = true →
      Completes (.withdrawEnd g) s fun e =>
        s.dev.Keeps e []) ∧
  (∀ (s : State) (g : LinkId),
      s.dev.role g ≠ .power ∨ (s.dev.link g).group.state ≠ .free ∨ (s.dev.link g).group.assign.isSome = true ∨ s.dev.now < (s.dev.link g).group.idleSince + 1000000 * s.dev.field Reg.alcCfg2 16 16 →
      Completes (.groupIdleOff g) s fun e =>
        s.dev.Keeps e []) ∧
  (∀ (s : State) (g : LinkId) (c : Instr),
      (s.dev.link g).group.assign = none →
      c ∈ [.assignDischarged g, .assignOwned g] →
      Completes c s fun e =>
        s.dev.Keeps e []) ∧
  (∀ (s : State) (g : LinkId) (c : Instr),
      (s.dev.link g).group.release = none →
      c ∈ [.releaseCurrentLow g, .releaseDischarged g, .releaseFreed g] →
      Completes c s fun e =>
        s.dev.Keeps e []) ∧
  (∀ (s : State) (g : LinkId),
      heldFor (s.dev.link g).group.deadSince s.dev.now 5000 = false ∨ s.dev.warned = true →
      Completes (.assignDischarged g) s fun e =>
        s.dev.Keeps e []) ∧
  (∀ (s : State) (g : LinkId) (o : LinkId) (k : Fin 16) (a : Tick),
      (s.dev.link g).group.assign = some (o, k, .closing, a) →
      s.dev.fb g k.1 = false →
      Completes (.assignOwned g) s fun e =>
        s.dev.Keeps e []) ∧
  (∀ (s : State) (g : LinkId) (a : Tick),
      (s.dev.link g).group.release = some (.rampDown, a) →
      heldFor (s.dev.link g).group.lowSince s.dev.now 10000 = false →
      s.dev.now < a + 1000 * s.dev.rampMs →
      Completes (.releaseCurrentLow g) s fun e =>
        s.dev.Keeps e []) ∧
  (∀ (s : State) (g : LinkId),
      (s.dev.link g).group.deadSince = none ∨ s.dev.meanAtMost g 1 s.dev.releaseA = false →
      Completes (.releaseDischarged g) s fun e =>
        s.dev.Keeps e []) ∧
  (∀ (s : State) (g : LinkId),
      (s.dev.link g).hs.fb ≠ 0 →
      Completes (.releaseFreed g) s fun e =>
        s.dev.Keeps e []) ∧
  (∀ (s : State) (g : LinkId) (t : Tick),
      s.dev.role g = .power →
      s.dev.trained g = true →
      bitOf (s.dev.link g).hs.b39 29 = false →
      (s.dev.link g).group.gmode2Since = some t →
      t + 100000 < s.dev.now →
      (s.dev.link g).group.state ≠ .withdrawn →
      s.dev.slotOf g = none →
      (s.dev.link g).group.owner = none →
      Completes (.groupNotReady g) s fun e =>
        (e.link g).group.state = .withdrawn ∧
        (e.link g).group.why = .notReady ∧
        (e.link g).group.breakAt = some s.dev.now ∧
        e.bit Reg.alcEvents 5 = true) ∧
  (∀ (s : State) (g : LinkId) (t : Tick),
      (s.dev.link g).group.breakAt = some t →
      isSamplePoint s.dev.now = true →
      s.dev.meanAtMost g 1 s.dev.releaseA = true →
      Completes (.withdrawOpen g) s fun e =>
        (e.link g).group = { (s.dev.link g).group with breakAt := none } ∧
        (e.link g).cmd.close = 0 ∧
        s.dev.RegsBut e []) ∧
  (∀ (s : State) (g : LinkId) (t : Tick),
      (s.dev.link g).group.breakAt = some t →
      isSamplePoint s.dev.now = false →
      t + 1000 * s.dev.rampMs ≤ s.dev.now →
      (s.dev.link g).cmd.close ≠ 0 →
      Completes (.withdrawOpen g) s fun e =>
        (e.link g).group = { (s.dev.link g).group with breakAt := none } ∧
        (e.link g).cmd.close = 0 ∧
        e.bit Reg.alcEvents 7 = true ∧
        s.dev.RegsBut e [Reg.alcEvents]) ∧
  (∀ (s : State) (g : LinkId) (t : Tick),
      (s.dev.link g).group.state = .withdrawn →
      (s.dev.link g).group.clearSince = some t →
      t + 10000000 ≤ s.dev.now →
      (s.dev.link g).prot.latch = none →
      Completes (.withdrawEnd g) s fun e =>
        (e.link g).group.state = .free ∧
        (e.link g).group.owner = none ∧
        (e.link g).group.idleSince = s.dev.now ∧
        s.dev.RegsBut e []) ∧
  (∀ (s : State) (g : LinkId),
      s.dev.role g = .power →
      (s.dev.link g).group.state = .free →
      (s.dev.link g).group.assign = none →
      (s.dev.link g).group.idleSince + 1000000 * s.dev.field Reg.alcCfg2 16 16 ≤ s.dev.now →
      Completes (.groupIdleOff g) s fun e =>
        (e.link g).cmd.gmode = 0 ∧
        (e.link g).cmd.vset = 0 ∧
        (e.link g).cmd.iset = 0 ∧
        (e.link g).cmd.plim = 0 ∧
        s.dev.RegsBut e []) ∧
  (∀ (s : State) (g o : LinkId) (k : Fin 16) (a t : Tick),
      (s.dev.link g).group.assign = some (o, k, .discharge, a) →
      (s.dev.link g).group.deadSince = some t →
      t + 5000 ≤ s.dev.now →
      s.dev.warned = false →
      Completes (.assignDischarged g) s fun e =>
        (e.link g).group.assign = some (o, k, .segPrepare, s.dev.now) ∧
        e.prot.segs = s.dev.prot.segs.filter (fun x => decide (x.group ≠ g)) ++ [{ group := g, outlet := o, since := s.dev.now, answered := false }] ∧
        s.dev.RegsBut e []) ∧
  (∀ (s : State) (g o : LinkId) (k : Fin 16) (a : Tick),
      (s.dev.link g).group.assign = some (o, k, .closing, a) →
      s.dev.fb g k.1 = true →
      Completes (.assignOwned g) s fun e =>
        (e.link g).group = { (s.dev.link g).group with state := .owned, owner := some o, assign := none, joinedAt := some s.dev.now } ∧
        e.prot.segs = s.dev.prot.segs.filter (fun x => decide (x.group ≠ g)) ∧
        s.dev.LinksBut e g ∧
        s.dev.RegsBut e []) ∧
  (∀ (s : State) (g : LinkId) (a t : Tick),
      (s.dev.link g).group.release = some (.rampDown, a) →
      (s.dev.link g).group.lowSince = some t →
      t + 10000 ≤ s.dev.now →
      Completes (.releaseCurrentLow g) s fun e =>
        (e.link g).group = { (s.dev.link g).group with release := some (.discharge, s.dev.now), deadSince := none } ∧
        s.dev.LinksBut e g ∧
        s.dev.RegsBut e []) ∧
  (∀ (s : State) (g : LinkId) (a : Tick),
      (s.dev.link g).group.release = some (.rampDown, a) →
      (s.dev.link g).group.lowSince = none →
      a + 1000 * s.dev.rampMs ≤ s.dev.now →
      Completes (.releaseCurrentLow g) s fun e =>
        (e.link g).group = { (s.dev.link g).group with release := some (.opening, s.dev.now) } ∧
        (e.link g).cmd.close = 0 ∧
        e.bit Reg.alcEvents 7 = true) ∧
  (∀ (s : State) (g : LinkId) (a t : Tick),
      (s.dev.link g).group.release = some (.discharge, a) →
      (s.dev.link g).group.deadSince = some t →
      s.dev.meanAtMost g 1 s.dev.releaseA = true →
      Completes (.releaseDischarged g) s fun e =>
        (e.link g).group = { (s.dev.link g).group with release := some (.opening, s.dev.now) } ∧
        (e.link g).cmd.close = 0 ∧
        s.dev.RegsBut e []) ∧
  (∀ (s : State) (g : LinkId) (a : Tick),
      (s.dev.link g).group.release = some (.opening, a) →
      (s.dev.link g).hs.fb = 0 →
      Completes (.releaseFreed g) s fun e =>
        (e.link g).group.state = .free ∧
        (e.link g).group.owner = none ∧
        (e.link g).group.release = none ∧
        (e.link g).group.idleSince = s.dev.now ∧
        s.dev.LinksBut e g ∧
        s.dev.RegsBut e [])

/-- The commands of an exchange, each in its own step and, but for SEG_PREPARE and the timeout, at a sample point: the group's current low for 10 ms opens the
donor-side contactor, and nobody owns the group; its feedback open begins matching; 5 ms of match end it; SEG_PREPARE goes out
when no lower slot is in use and no other merge into the receiver is under way; with READY, the match held for 5 ms and no supply warning the
receiver-side contactor is commanded closed; its feedback, while the account holds, passes ownership, frees the slot and counts. A bound
missed outside step 7 aborts with its event and its reason counted once; at step 7 the slot is freed. In another step, or with the slot empty (and no
abort of this tick), each changes nothing. -/
def Obligations.ExchangeRules : Prop :=
  (∀ (s : State) (x : Fin 16) (f : Exchange) (o : LinkId) (k : Fin 16) (t : Tick),
      s.dev.alloc.slots.get x = some f →
      f.step = 3 →
      f.donor = some o →
      (s.dev.link f.group).group.lowSince = some t →
      t + 10000 ≤ s.dev.now →
      s.dev.contactorTo f.group o = some k →
      isSamplePoint s.dev.now = true →
      Completes (.exchRampDone x) s fun e =>
        e.alloc.slots.get x = some { f with step := 4, stepAt := s.dev.now, unownedAt := some s.dev.now } ∧
        (e.link f.group).group.owner = none ∧
        (e.link f.group).cmd.close.getLsbD k.1 = false ∧
        s.dev.RegsBut e []) ∧
  (∀ (s : State) (x : Fin 16) (f : Exchange) (o : LinkId) (k : Fin 16),
      s.dev.alloc.slots.get x = some f →
      f.step = 4 →
      f.donor = some o →
      s.dev.contactorTo f.group o = some k →
      s.dev.fb f.group k.1 = false →
      isSamplePoint s.dev.now = true →
      Completes (.exchDonorOpen x) s fun e =>
        e.alloc.slots.get x = some { f with step := 5, stepAt := s.dev.now, condSince := none } ∧
        ∀ n, e.link n = s.dev.link n ∧
        s.dev.RegsBut e []) ∧
  (∀ (s : State) (x : Fin 16) (f : Exchange) (t : Tick),
      s.dev.alloc.slots.get x = some f →
      f.step = 5 →
      f.paused = false →
      f.condSince = some t →
      t + 5000 ≤ s.dev.now →
      isSamplePoint s.dev.now = true →
      Completes (.exchMatched x) s fun e =>
        e.alloc.slots.get x = some { f with step := 6, stepAt := s.dev.now } ∧
        ∀ n, e.link n = s.dev.link n ∧
        s.dev.RegsBut e []) ∧
  (∀ (s : State) (x : Fin 16) (f : Exchange),
      s.dev.alloc.slots.get x = some f →
      f.step = 6 →
      f.segSent = false →
      f.paused = false →
      s.dev.mergePending f.receiver = false →
      ∀ y, y < x → s.dev.alloc.slots.get y = none →
      Completes (.exchSegPrepare x) s fun e =>
        e.alloc.slots.get x = some { f with segSent := true, stepAt := s.dev.now } ∧
        e.prot.segs = s.dev.prot.segs.filter (fun z => decide (z.group ≠ f.group)) ++ [{ group := f.group, outlet := f.receiver, since := s.dev.now, answered := false }] ∧
        s.dev.RegsBut e []) ∧
  (∀ (s : State) (x : Fin 16) (f : Exchange) (k : Fin 16) (t : Tick),
      s.dev.alloc.slots.get x = some f →
      f.step = 6 →
      f.segReady = true →
      f.paused = false →
      f.condSince = some t →
      t + 5000 ≤ s.dev.now →
      s.dev.warned = false →
      s.dev.contactorTo f.group f.receiver = some k →
      isSamplePoint s.dev.now = true →
      Completes (.exchCloseCommand x) s fun e =>
        e.alloc.slots.get x = some { f with step := 7, stepAt := s.dev.now } ∧
        (e.link f.group).cmd.close.getLsbD k.1 = true ∧
        s.dev.RegsBut e []) ∧
  (∀ (s : State) (x : Fin 16) (f : Exchange) (k : Fin 16),
      s.dev.alloc.slots.get x = some f →
      f.step = 7 →
      s.dev.contactorTo f.group f.receiver = some k →
      s.dev.fb f.group k.1 = true →
      isSamplePoint s.dev.now = true →
      s.dev.granted + s.dev.pending ≤ s.dev.alloc.inForce →
      Completes (.exchJoined x) s fun e =>
        e.alloc.slots.get x = none ∧
        (e.link f.group).group.state = .owned ∧
        (e.link f.group).group.owner = some f.receiver ∧
        e.reg Reg.alcExchCnt = satWord ((s.dev.reg Reg.alcExchCnt).toNat + 1)) ∧
  (∀ (s : State) (x : Fin 16) (f : Exchange) (code : Nat),
      s.dev.alloc.slots.get x = some f →
      s.dev.exchLate f = some code →
      code ≠ 6 →
      Completes (.exchTimeout x) s fun e =>
        e.alloc.slots.get x = none ∧
        e.reg Reg.alcAbortCnt = satWord ((s.dev.reg Reg.alcAbortCnt).toNat + 1) ∧
        e.bit Reg.alcEvents 0 = true) ∧
  (∀ (s : State) (x : Fin 16) (f : Exchange),
      s.dev.alloc.slots.get x = some f →
      s.dev.exchLate f = some 6 →
      Completes (.exchTimeout x) s fun e =>
        e.alloc.slots.get x = none ∧
        e.bit Reg.alcEvents 0 = true) ∧
  (∀ (s : State) (x : Fin 16) (f : Exchange),
      s.dev.alloc.slots.get x = some f →
      s.dev.exchLate f = none →
      Completes (.exchTimeout x) s fun e =>
        s.dev.Keeps e []) ∧
  (∀ (s : State) (x : Fin 16) (c : Instr),
      s.dev.alloc.slots.get x = none →
      c ∈ [.exchRampDone x, .exchDonorOpen x, .exchMatched x, .exchSegPrepare x, .exchCloseCommand x, .exchJoined x] →
      Completes c s fun e =>
        s.dev.Keeps e []) ∧
  (∀ (s : State) (x : Fin 16) (f : Exchange) (c : Instr),
      s.dev.alloc.slots.get x = some f →
      (c = .exchRampDone x ∧ f.step ≠ 3) ∨ (c = .exchDonorOpen x ∧ f.step ≠ 4) ∨ (c = .exchMatched x ∧ f.step ≠ 5) ∨ (c = .exchSegPrepare x ∧ f.step ≠ 6) ∨ (c = .exchCloseCommand x ∧ f.step ≠ 6) ∨ (c = .exchJoined x ∧ f.step ≠ 7) →
      Completes c s fun e =>
        s.dev.Keeps e [])

/-- On a trained link: a contactor commanded closed for CLOSE_MS whose feedback reads open, and not judged before, is an OPEN fault, kept, with detail
bit 10; one commanded open for OPEN_MS whose feedback reads closed is a WELD of an outlet or a group, kept, with detail bit 9; a contactor that has
answered its command before is given one tick more. The time runs from the first frame that carries the command. A contactor that follows its command, whose fault is
kept, or whose time has not passed, is neither. -/
def Obligations.ContactorFaults : Prop :=
  (∀ (s : State) (n : LinkId) (k : Fin 16),
      (s.dev.link n).cmd.close.getLsbD k.1 = true →
      s.dev.fb n k.1 = false →
      (s.dev.link n).con.openFault.getLsbD k.1 = false →
      s.dev.trained n = true →
      s.dev.carriedFor n k (1000 * s.dev.closeMs + b2n ((s.dev.link n).con.seen.getLsbD k.1)) = true →
      Completes (.contactorOpenFault n k) s fun e =>
        e.bit (Reg.prtLEvents n) 10 = true) ∧
  (∀ (s : State) (n : LinkId) (k : Fin 16),
      (s.dev.link n).cmd.close.getLsbD k.1 = false ∨ s.dev.fb n k.1 = true ∨ (s.dev.link n).con.openFault.getLsbD k.1 = true ∨ s.dev.trained n = false ∨ s.dev.carriedFor n k (1000 * s.dev.closeMs + b2n ((s.dev.link n).con.seen.getLsbD k.1)) = false →
      Completes (.contactorOpenFault n k) s fun e =>
        s.dev.Keeps e []) ∧
  (∀ (s : State) (n : LinkId) (k : Fin 16),
      s.dev.role n = .outlet ∨ s.dev.role n = .power →
      (s.dev.link n).cmd.close.getLsbD k.1 = false →
      s.dev.fb n k.1 = true →
      (s.dev.link n).con.weld.getLsbD k.1 = false →
      s.dev.trained n = true →
      s.dev.carriedFor n k (1000 * s.dev.openMs + b2n ((s.dev.link n).con.seen.getLsbD k.1)) = true →
      Completes (.contactorWeld n k) s fun e =>
        e.bit (Reg.prtLEvents n) 9 = true) ∧
  (∀ (s : State) (n : LinkId) (k : Fin 16),
      (s.dev.link n).cmd.close.getLsbD k.1 = true ∨ s.dev.fb n k.1 = false ∨ (s.dev.link n).con.weld.getLsbD k.1 = true ∨ s.dev.trained n = false ∨ s.dev.carriedFor n k (1000 * s.dev.openMs + b2n ((s.dev.link n).con.seen.getLsbD k.1)) = false →
      Completes (.contactorWeld n k) s fun e =>
        s.dev.Keeps e [])

/-- On a trained outlet that sees a cable, a pilot state classified for 3,000 ticks is taken. A opens the contactor: a live session not being stopped is stopped
with reason 2, its current 0; with none live the outlet is IDLE and its run dropped. B in IDLE is a plug-in; after C or D on AC, out of IDLE, it opens a
closed contactor; on DC with current flowing it stops the session with reason 1 and starts the 100 ms. C, F while commanded, and D where ventilation is
offered or nothing is closed, change no more than the pilot; E, F not commanded, an invalid level of 100 ms and a diode missing for 3 ms bring FAULT, contactor open, state F for
4 s; after them the pilot is released. While no cable is seen a state is only taken. After C to B the contactor opens at 100 ms, or at a sample point at or below
STOP_A. A coded cable is rated by its code, 255 counts as state A, another code is PP_FAULT with its event. In other cases nothing changes. -/
def Obligations.PilotRules : Prop :=
  (∀ (s : State) (n : LinkId),
      s.dev.role n = .outlet →
      s.dev.trained n = true →
      (s.dev.link n).veh.cand = some .a →
      (s.dev.link n).veh.pilot ≠ .a →
      (s.dev.link n).veh.candSince + 3000 ≤ s.dev.now + 1 →
      s.dev.noCable n = false →
      (s.dev.link n).veh.live = false →
      Completes (.pilotStateTaken n) s fun e =>
        (e.link n).veh.pilot = .a ∧
        (e.link n).veh.state = .idle ∧
        (e.link n).veh.slac = none ∧
        (e.link n).cmd.close.getLsbD 0 = false) ∧
  (∀ (s : State) (n : LinkId),
      s.dev.role n = .outlet →
      s.dev.trained n = true →
      (s.dev.link n).veh.cand = some .a →
      (s.dev.link n).veh.pilot ≠ .a →
      (s.dev.link n).veh.candSince + 3000 ≤ s.dev.now + 1 →
      s.dev.noCable n = false →
      (s.dev.link n).veh.live = true →
      (s.dev.link n).veh.stopWhy = .none →
      Completes (.pilotStateTaken n) s fun e =>
        (e.link n).veh.pilot = .a ∧
        (e.link n).veh.state = .stopping ∧
        (e.link n).veh.stopWhy = .unplug ∧
        StopReason.code .unplug = 2 ∧
        (e.link n).veh.openCmd = true ∧
        (e.link n).veh.iout = 0 ∧
        (e.link n).cmd.close.getLsbD 0 = false) ∧
  (∀ (s : State) (n : LinkId),
      s.dev.role n = .outlet →
      s.dev.trained n = true →
      (s.dev.link n).veh.cand = some .b →
      (s.dev.link n).veh.pilot ≠ .b →
      (s.dev.link n).veh.candSince + 3000 ≤ s.dev.now + 1 →
      s.dev.noCable n = false →
      (s.dev.link n).veh.state = .idle →
      (s.dev.link n).veh.ppFault = false →
      Completes (.pilotStateTaken n) s fun e =>
        (e.link n).veh.pilot = .b ∧
        (e.link n).veh.state = .plugged ∧
        (e.link n).veh.stateAt = s.dev.now ∧
        (e.link n).veh.tries = 0 ∧
        e.bit (Reg.vehEvents n) 0 = true) ∧
  (∀ (s : State) (n : LinkId),
      s.dev.role n = .outlet →
      s.dev.trained n = true →
      (s.dev.link n).veh.cand = some .b →
      (s.dev.link n).veh.pilot ≠ .b →
      (s.dev.link n).veh.candSince + 3000 ≤ s.dev.now + 1 →
      s.dev.noCable n = false →
      (s.dev.link n).veh.state ≠ .idle →
      (s.dev.link n).veh.pilot = .c ∨ (s.dev.link n).veh.pilot = .d →
      s.dev.isAc n = true →
      (s.dev.link n).cmd.close.getLsbD 0 = true →
      Completes (.pilotStateTaken n) s fun e =>
        (e.link n).veh.pilot = .b ∧
        (e.link n).veh.state = (s.dev.link n).veh.state ∧
        (e.link n).cmd.close.getLsbD 0 = false ∧
        s.dev.LinksBut e n ∧
        s.dev.RegsBut e []) ∧
  (∀ (s : State) (n : LinkId),
      s.dev.role n = .outlet →
      s.dev.trained n = true →
      (s.dev.link n).veh.cand = some .b →
      (s.dev.link n).veh.pilot ≠ .b →
      (s.dev.link n).veh.candSince + 3000 ≤ s.dev.now + 1 →
      s.dev.noCable n = false →
      (s.dev.link n).veh.state ≠ .idle →
      (s.dev.link n).veh.pilot = .c ∨ (s.dev.link n).veh.pilot = .d →
      s.dev.isAc n = false →
      (s.dev.link n).veh.live = true →
      (s.dev.link n).veh.stopWhy = .none →
      (s.dev.link n).cmd.close.getLsbD 0 = true →
      s.dev.currentAtMost n (s.dev.stopA n) = false →
      Completes (.pilotStateTaken n) s fun e =>
        (e.link n).veh.pilot = .b ∧
        (e.link n).veh.state = .stopping ∧
        (e.link n).veh.stopWhy = .vehicle ∧
        StopReason.code .vehicle = 1 ∧
        (e.link n).veh.cToBAt = some s.dev.now ∧
        (e.link n).veh.iout = 0) ∧
  (∀ (s : State) (n : LinkId),
      s.dev.role n = .outlet →
      s.dev.trained n = true →
      (s.dev.link n).veh.cand = some .c →
      (s.dev.link n).veh.pilot ≠ .c →
      (s.dev.link n).veh.candSince + 3000 ≤ s.dev.now + 1 →
      Completes (.pilotStateTaken n) s fun e =>
        (e.link n).veh = { (s.dev.link n).veh with pilot := .c } ∧
        s.dev.LinksBut e n ∧
        s.dev.Keeps e [.veh]) ∧
  (∀ (s : State) (n : LinkId),
      s.dev.role n = .outlet →
      s.dev.trained n = true →
      (s.dev.link n).veh.cand = some .d →
      (s.dev.link n).veh.pilot ≠ .d →
      (s.dev.link n).veh.candSince + 3000 ≤ s.dev.now + 1 →
      s.dev.vehBit n 10 = true ∨ ((s.dev.link n).cmd.close.getLsbD 0 = false ∧ s.dev.fb n 0 = false) →
      Completes (.pilotStateTaken n) s fun e =>
        (e.link n).veh = { (s.dev.link n).veh with pilot := .d } ∧
        s.dev.LinksBut e n ∧
        s.dev.Keeps e [.veh]) ∧
  (∀ (s : State) (n : LinkId),
      s.dev.role n = .outlet →
      s.dev.trained n = true →
      (s.dev.link n).veh.cand = some .e →
      (s.dev.link n).veh.pilot ≠ .e →
      (s.dev.link n).veh.candSince + 3000 ≤ s.dev.now + 1 →
      s.dev.noCable n = false →
      Completes (.pilotStateTaken n) s fun e =>
        (e.link n).veh.pilot = .e ∧
        (e.link n).veh.state = .fault ∧
        (e.link n).veh.pilotFUntil = some (s.dev.now + 4000000) ∧
        e.bit (Reg.vehEvents n) 6 = true ∧
        (e.link n).cmd.close.getLsbD 0 = false) ∧
  (∀ (s : State) (n : LinkId),
      s.dev.role n = .outlet →
      s.dev.trained n = true →
      (s.dev.link n).veh.cand = some .f →
      (s.dev.link n).veh.pilot ≠ .f →
      (s.dev.link n).veh.candSince + 3000 ≤ s.dev.now + 1 →
      s.dev.noCable n = false →
      (s.dev.link n).cmd.pilotMode ≠ 2 →
      Completes (.pilotStateTaken n) s fun e =>
        (e.link n).veh.pilot = .f ∧
        (e.link n).veh.state = .fault ∧
        (e.link n).veh.pilotFUntil = some (s.dev.now + 4000000) ∧
        e.bit (Reg.vehEvents n) 6 = true ∧
        (e.link n).cmd.close.getLsbD 0 = false) ∧
  (∀ (s : State) (n : LinkId),
      s.dev.role n = .outlet →
      s.dev.trained n = true →
      (s.dev.link n).veh.cand = some .f →
      (s.dev.link n).veh.pilot ≠ .f →
      (s.dev.link n).veh.candSince + 3000 ≤ s.dev.now + 1 →
      (s.dev.link n).cmd.pilotMode = 2 →
      Completes (.pilotStateTaken n) s fun e =>
        (e.link n).veh = { (s.dev.link n).veh with pilot := .f } ∧
        s.dev.LinksBut e n ∧
        s.dev.Keeps e [.veh]) ∧
  (∀ (s : State) (n : LinkId) (p : Pilot),
      s.dev.role n = .outlet →
      s.dev.trained n = true →
      (s.dev.link n).veh.cand = some p →
      (s.dev.link n).veh.pilot ≠ p →
      p ≠ .invalid →
      (s.dev.link n).veh.candSince + 3000 ≤ s.dev.now + 1 →
      s.dev.noCable n = true →
      Completes (.pilotStateTaken n) s fun e =>
        (e.link n).veh.pilot = p ∧
        (e.link n).veh.state = (s.dev.link n).veh.state ∧
        s.dev.Keeps e [.veh]) ∧
  (∀ (s : State) (n : LinkId),
      s.dev.role n ≠ .outlet ∨ s.dev.trained n = false ∨ (s.dev.link n).veh.cand = none ∨ (s.dev.link n).veh.cand = some (s.dev.link n).veh.pilot ∨ s.dev.now + 1 < (s.dev.link n).veh.candSince + 3000 →
      Completes (.pilotStateTaken n) s fun e =>
        s.dev.Keeps e []) ∧
  (∀ (s : State) (n : LinkId),
      s.dev.role n = .outlet →
      (s.dev.link n).veh.cand = some .invalid →
      (s.dev.link n).veh.pilot ≠ .invalid →
      (s.dev.link n).veh.candSince + 100000 ≤ s.dev.now + 1 →
      Completes (.pilotFault n) s fun e =>
        (e.link n).veh.pilot = .invalid ∧
        (e.link n).veh.state = .fault ∧
        (e.link n).veh.pilotFUntil = some (s.dev.now + 4000000) ∧
        e.bit (Reg.vehEvents n) 6 = true ∧
        (e.link n).cmd.close.getLsbD 0 = false) ∧
  (∀ (s : State) (n : LinkId),
      s.dev.role n ≠ .outlet ∨ (s.dev.link n).veh.cand ≠ some .invalid ∨ (s.dev.link n).veh.pilot = .invalid ∨ s.dev.now + 1 < (s.dev.link n).veh.candSince + 100000 →
      Completes (.pilotFault n) s fun e =>
        s.dev.Keeps e []) ∧
  (∀ (s : State) (n : LinkId) (t : Tick),
      (s.dev.link n).veh.diodeSince = some t →
      t + 3000 ≤ s.dev.now + 1 →
      Completes (.pilotDiodeMissing n) s fun e =>
        (e.link n).veh.diodeSince = none ∧
        (e.link n).veh.state = .fault ∧
        (e.link n).veh.pilotFUntil = some (s.dev.now + 4000000) ∧
        e.bit (Reg.vehEvents n) 6 = true ∧
        (e.link n).cmd.close.getLsbD 0 = false) ∧
  (∀ (s : State) (n : LinkId),
      ((s.dev.link n).veh.diodeSince.map fun t => decide (t + 3000 ≤ s.dev.now + 1)) ≠ some true →
      Completes (.pilotDiodeMissing n) s fun e =>
        s.dev.Keeps e []) ∧
  (∀ (s : State) (n : LinkId) (t : Tick),
      (s.dev.link n).veh.pilotFUntil = some t →
      t ≤ s.dev.now →
      Completes (.faultPilotFEnd n) s fun e =>
        (e.link n).veh = { (s.dev.link n).veh with pilotFUntil := none } ∧
        s.dev.LinksBut e n ∧
        s.dev.Keeps e [.veh]) ∧
  (∀ (s : State) (n : LinkId),
      ((s.dev.link n).veh.pilotFUntil.map fun t => decide (t ≤ s.dev.now)) ≠ some true →
      Completes (.faultPilotFEnd n) s fun e =>
        s.dev.Keeps e []) ∧
  (∀ (s : State) (n : LinkId) (t : Tick),
      (s.dev.link n).veh.cToBAt = some t →
      t + 100000 ≤ s.dev.now ∨ (isSamplePoint s.dev.now = true ∧ s.dev.currentAtMost n (s.dev.stopA n) = true) →
      Completes (.stopCToBOpen n) s fun e =>
        (e.link n).veh = { (s.dev.link n).veh with openCmd := true, cToBAt := none } ∧
        (e.link n).cmd.close.getLsbD 0 = false ∧
        s.dev.LinksBut e n ∧
        s.dev.RegsBut e []) ∧
  (∀ (s : State) (n : LinkId) (t : Tick),
      (s.dev.link n).veh.cToBAt = none ∨ ((s.dev.link n).veh.cToBAt = some t ∧ s.dev.now < t + 100000 ∧ isSamplePoint s.dev.now = false) →
      Completes (.stopCToBOpen n) s fun e =>
        s.dev.Keeps e []) ∧
  (∀ (s : State) (n : LinkId) (a : Nat),
      s.dev.role n = .outlet →
      s.dev.trained n = true →
      (s.dev.link n).veh.cand.isSome = true →
      (s.dev.link n).veh.pp ≠ some (s.dev.link n).veh.ppRaw →
      (s.dev.link n).veh.ppSince + 3000 ≤ s.dev.now + 1 →
      s.dev.field (Reg.vehCfg n) 8 2 = 0 →
      (s.dev.link n).veh.pp ≠ some 0xFF →
      5 ≤ (s.dev.link n).veh.ppRaw.toNat ∧ (s.dev.link n).veh.ppRaw.toNat ≤ 13 ∧ a = 63 ∨
      17 ≤ (s.dev.link n).veh.ppRaw.toNat ∧ (s.dev.link n).veh.ppRaw.toNat ≤ 30 ∧ a = 32 ∨
      50 ≤ (s.dev.link n).veh.ppRaw.toNat ∧ (s.dev.link n).veh.ppRaw.toNat ≤ 100 ∧ a = 20 ∨
      110 ≤ (s.dev.link n).veh.ppRaw.toNat ∧ (s.dev.link n).veh.ppRaw.toNat ≤ 250 ∧ a = 13 →
      Completes (.proximityTaken n) s fun e =>
        (e.link n).veh = { (s.dev.link n).veh with pp := some (s.dev.link n).veh.ppRaw, cableA := a, ppFault := false } ∧
        s.dev.LinksBut e n ∧
        s.dev.Keeps e [.veh]) ∧
  (∀ (s : State) (n : LinkId),
      s.dev.role n = .outlet →
      s.dev.trained n = true →
      (s.dev.link n).veh.cand.isSome = true →
      (s.dev.link n).veh.pp ≠ some (s.dev.link n).veh.ppRaw →
      (s.dev.link n).veh.ppSince + 3000 ≤ s.dev.now + 1 →
      s.dev.field (Reg.vehCfg n) 8 2 = 0 →
      (s.dev.link n).veh.ppRaw = 255 →
      (s.dev.link n).veh.live = false →
      Completes (.proximityTaken n) s fun e =>
        (e.link n).veh.pp = some 255 ∧
        (e.link n).veh.cableA = 0 ∧
        (e.link n).veh.state = .idle ∧
        (e.link n).veh.slac = none ∧
        (e.link n).cmd.close.getLsbD 0 = false) ∧
  (∀ (s : State) (n : LinkId),
      s.dev.role n = .outlet →
      s.dev.trained n = true →
      (s.dev.link n).veh.cand.isSome = true →
      (s.dev.link n).veh.pp ≠ some (s.dev.link n).veh.ppRaw →
      (s.dev.link n).veh.ppSince + 3000 ≤ s.dev.now + 1 →
      s.dev.field (Reg.vehCfg n) 8 2 = 0 →
      codedCable (s.dev.link n).veh.ppRaw.toNat = none →
      Completes (.proximityTaken n) s fun e =>
        (e.link n).veh.ppFault = true ∧
        e.bit (Reg.vehEvents n) 7 = true) ∧
  (∀ (s : State) (n : LinkId),
      s.dev.role n = .outlet →
      s.dev.trained n = true →
      (s.dev.link n).veh.cand.isSome = true →
      (s.dev.link n).veh.pp ≠ some (s.dev.link n).veh.ppRaw →
      (s.dev.link n).veh.ppSince + 3000 ≤ s.dev.now + 1 →
      s.dev.field (Reg.vehCfg n) 8 2 = 2 →
      (s.dev.link n).veh.ppRaw = 0 ∨ (s.dev.link n).veh.ppRaw = 255 →
      Completes (.proximityTaken n) s fun e =>
        (e.link n).veh = { (s.dev.link n).veh with pp := some (s.dev.link n).veh.ppRaw, ppFault := false } ∧
        s.dev.Keeps e [.veh]) ∧
  (∀ (s : State) (n : LinkId),
      s.dev.role n ≠ .outlet ∨ s.dev.trained n = false ∨ (s.dev.link n).veh.cand = none ∨ (s.dev.link n).veh.pp = some (s.dev.link n).veh.ppRaw ∨ s.dev.now + 1 < (s.dev.link n).veh.ppSince + 3000 →
      Completes (.proximityTaken n) s fun e =>
        s.dev.Keeps e [])

/-- A plug-in that is ready, with a protocol enabled and nothing to wait for, goes to MATCHING, a megawatt outlet that reads its ID to SETUP. In MATCHING: CM_SLAC_PARM.REQ starts a run with a fresh NMK (free, log entry
17) and is answered, or waits while the RNG restarts; the start of sounding opens its window; a match of the run, in time, to this EVSE and heard, leads to SETUP with the vehicle's MAC, unless
it is stronger elsewhere by the guard: MATCH_WRONG, and nothing else; CM_VALIDATE is answered with the toggles counted, and another number fails the attempt;
the expiry of SLAC_INIT without a run fails it. A failed attempt sets its event and is tried again after 4 s; the third one goes on to basic charging on an AC outlet with BASIC, else to FAULT. A sound within the
window adds its 58 groups, up to 10 sounds; the window's end reports a whole mean of at least 3 (how another is rounded is free, log entry 30). The 4 s over, a new attempt may start. Else nothing changes. -/
def Obligations.MatchingRules : Prop :=
  (∀ (s : State) (n : LinkId),
      s.dev.plugReady n = true →
      s.dev.hlcEnabled n = true →
      s.dev.waitReason n = .none →
      s.dev.megawatt n = false →
      s.dev.sec.rng ≠ .failed →
      Completes (.matchingStart n) s fun e =>
        (e.link n).veh = { (s.dev.link n).veh with wait := .none, tempoWaiting := false, slac := none, response := .none, protocol := .none, active := true, state := .matching, stateAt := s.dev.now } ∧
        s.dev.LinksBut e n ∧
        s.dev.Keeps e [.veh]) ∧
  (∀ (s : State) (n : LinkId),
      s.dev.plugReady n = true →
      s.dev.hlcEnabled n = true →
      s.dev.waitReason n = .none →
      s.dev.megawatt n = true →
      (s.dev.link n).veh.pp = some 0 →
      s.dev.sec.rng ≠ .failed →
      Completes (.matchingStart n) s fun e =>
        (e.link n).veh.state = .setup ∧
        (e.link n).veh.stateAt = s.dev.now ∧
        s.dev.LinksBut e n ∧
        s.dev.Keeps e [.veh]) ∧
  (∀ (s : State) (n : LinkId),
      s.dev.plugReady n = false ∨ s.dev.hlcEnabled n = false ∨ s.dev.waitReason n ≠ .none ∨ (s.dev.megawatt n = true ∧ (s.dev.link n).veh.pp ≠ some 0) →
      Completes (.matchingStart n) s fun e =>
        s.dev.Keeps e []) ∧
  (∀ (s : State) (n : LinkId) (m : BitVec 48) (r : BitVec 64),
      (s.dev.link n).veh.state = .matching →
      s.dev.sec.rng = .healthy →
      Completes (.slacParmReq n m r) s fun e =>
        (e.link n).veh = { (s.dev.link n).veh with response := .slacParmCnf, slac := some { runId := r, evMac := m, nmk := s.dev.random 16, parmAt := s.dev.now, soundAt := none, sounds := 0, sum := 0, toggles := 0 } } ∧
        s.dev.LinksBut e n ∧
        s.dev.RegsBut e []) ∧
  (∀ (s : State) (n : LinkId) (m : BitVec 48) (r : BitVec 64),
      (s.dev.link n).veh.state = .matching →
      s.dev.sec.rng = .restarting ∨ s.dev.sec.rng = .startup →
      Completes (.slacParmReq n m r) s fun e =>
        e.sec.rngWaits.contains (.slac n m r) = true ∧
        s.dev.Keeps e [.sec]) ∧
  (∀ (s : State) (n : LinkId) (m : BitVec 48) (r : BitVec 64),
      (s.dev.link n).veh.state = .matching →
      s.dev.sec.rng = .failed →
      Completes (.slacParmReq n m r) s fun e =>
        e.bit (Reg.vehEvents n) 3 = true ∧
        (e.link n).veh.tries = 3 ∧
        (e.link n).veh.slac = none ∧
        ((e.link n).veh.state = .fault ∨ (e.link n).veh.state = .authorizing)) ∧
  (∀ (s : State) (n : LinkId) (r : SlacRun),
      (s.dev.link n).veh.state = .matching →
      (s.dev.link n).veh.slac = some r →
      Completes (.startAttenCharInd n r.runId) s fun e =>
        (e.link n).veh = { (s.dev.link n).veh with slac := some { r with soundAt := some s.dev.now, sounds := 0, sum := 0 } } ∧
        s.dev.LinksBut e n ∧
        s.dev.Keeps e [.veh]) ∧
  (∀ (s : State) (n : LinkId) (r : SlacRun) (t : Tick) (a : Vector Byte 58),
      s.dev.role n = .outlet →
      s.dev.trained n = true →
      s.dev.megawatt n = false →
      (s.dev.link n).veh.slac = some r →
      r.soundAt = some t →
      s.dev.now < t + 600000 →
      r.sounds < 10 →
      Completes (.attenSoundRx n r.runId a) s fun e =>
        (e.link n).veh.slac = some { r with sounds := r.sounds + 1, sum := r.sum + (a.toList.map BitVec.toNat).sum } ∧
        s.dev.LinksBut e n ∧
        s.dev.RegsBut e []) ∧
  (∀ (s : State) (n : LinkId) (r : SlacRun) (t : Tick) (a : Vector Byte 58),
      s.dev.role n = .outlet →
      s.dev.trained n = true →
      s.dev.megawatt n = false →
      (s.dev.link n).veh.slac = some r →
      r.soundAt = some t →
      t + 600000 ≤ s.dev.now ∨ 10 ≤ r.sounds →
      Completes (.attenSoundRx n r.runId a) s fun e =>
        (e.link n).veh.slac = some r ∧
        s.dev.LinksBut e n ∧
        s.dev.RegsBut e []) ∧
  (∀ (s : State) (n : LinkId) (r : SlacRun) (t : Tick),
      (s.dev.link n).veh.state = .matching →
      (s.dev.link n).veh.slac = some r →
      r.soundAt = some t →
      t + 600000 ≤ s.dev.now →
      3 ≤ r.sounds →
      r.sum % (58 * r.sounds) = 0 →
      r.sum / (58 * r.sounds) < 256 →
      Completes (.soundingWindowEnd n) s fun e =>
        (e.link n).veh.slac = some { r with soundAt := none } ∧
        (e.link n).veh.response = .attenCharInd ∧
        e.field (Reg.vehSlac n) 0 8 = r.sum / (58 * r.sounds) ∧
        s.dev.LinksBut e n ∧
        s.dev.RegsBut e [Reg.vehSlac n]) ∧
  (∀ (s : State) (n : LinkId) (r : SlacRun) (t : Tick),
      (s.dev.link n).veh.state = .matching →
      (s.dev.link n).veh.slac = some r →
      r.soundAt = some t →
      t + 600000 ≤ s.dev.now →
      r.sounds < 3 →
      Completes (.soundingWindowEnd n) s fun e =>
        (e.link n).veh = { (s.dev.link n).veh with slac := some { r with soundAt := none } } ∧
        s.dev.LinksBut e n ∧
        s.dev.Keeps e [.veh]) ∧
  (∀ (s : State) (n : LinkId) (m : BitVec 48) (r : SlacRun) (h : Sounding),
      (s.dev.link n).veh.state = .matching →
      (s.dev.link n).veh.slac = some r →
      s.dev.now ≤ r.parmAt + 10000000 →
      ((s.dev.link n).veh.heard.find? fun x => decide (x.runId = r.runId)) = some h →
      s.dev.attenElsewhere n r.runId = none →
      s.dev.sec.rng ≠ .failed →
      Completes (.slacMatchReq n m (evseMac n) r.runId) s fun e =>
        (e.link n).veh.state = .setup ∧
        (e.link n).veh.response = .slacMatchCnf ∧
        e.reg (Reg.vehEvMacLo n) = BitVec.ofNat 32 m.toNat ∧
        e.reg (Reg.vehEvMacHi n) = BitVec.ofNat 32 (m.toNat / 2 ^ 32) ∧
        e.field (Reg.vehSlac n) 8 8 = 0xFF ∧
        s.dev.LinksBut e n) ∧
  (∀ (s : State) (n : LinkId) (m : BitVec 48) (r : SlacRun) (h : Sounding) (a : Nat),
      (s.dev.link n).veh.state = .matching →
      (s.dev.link n).veh.slac = some r →
      s.dev.now ≤ r.parmAt + 10000000 →
      ((s.dev.link n).veh.heard.find? fun x => decide (x.runId = r.runId)) = some h →
      s.dev.attenElsewhere n r.runId = some a →
      s.dev.settingField (Reg.vehXSlac n) 8 8 ≠ 0 →
      a + s.dev.settingField (Reg.vehXSlac n) 8 8 < h.atten →
      Completes (.slacMatchReq n m (evseMac n) r.runId) s fun e =>
        e.bit (Reg.vehEvents n) 11 = true ∧
        (e.link n).veh = (s.dev.link n).veh ∧
        s.dev.RegsBut e [Reg.vehEvents n]) ∧
  (∀ (s : State) (n : LinkId) (m x : BitVec 48) (r : SlacRun) (i : BitVec 64),
      (s.dev.link n).veh.slac = some r →
      i ≠ r.runId ∨ r.parmAt + 10000000 < s.dev.now →
      Completes (.slacMatchReq n m x i) s fun e =>
        s.dev.Keeps e []) ∧
  (∀ (s : State) (n : LinkId) (r : SlacRun),
      (s.dev.link n).veh.state = .matching →
      (s.dev.link n).veh.slac = some r →
      Completes (.cmValidate n r.toggles) s fun e =>
        (e.link n).veh = { (s.dev.link n).veh with response := .validateCnf r.toggles } ∧
        s.dev.LinksBut e n ∧
        s.dev.Keeps e [.veh]) ∧
  (∀ (s : State) (n : LinkId) (r : SlacRun) (k : Nat),
      (s.dev.link n).veh.state = .matching →
      (s.dev.link n).veh.slac = some r →
      k ≠ r.toggles →
      (s.dev.link n).veh.tries = 0 →
      Completes (.cmValidate n k) s fun e =>
        e.bit (Reg.vehEvents n) 3 = true ∧
        (e.link n).veh.state = .plugged ∧
        (e.link n).veh.tries = 1 ∧
        (e.link n).veh.restartAt = some (s.dev.now + 4000000) ∧
        (e.link n).veh.slac = none) ∧
  (∀ (s : State) (n : LinkId),
      (s.dev.link n).veh.state = .matching →
      (s.dev.link n).veh.slac = none →
      (s.dev.link n).veh.stateAt + 1000000 * s.dev.slacInit n ≤ s.dev.now →
      (s.dev.link n).veh.tries = 0 →
      Completes (.slacInitExpiry n) s fun e =>
        e.bit (Reg.vehEvents n) 3 = true ∧
        (e.link n).veh.state = .plugged ∧
        (e.link n).veh.tries = 1 ∧
        (e.link n).veh.restartAt = some (s.dev.now + 4000000) ∧
        (e.link n).veh.slac = none) ∧
  (∀ (s : State) (n : LinkId),
      (s.dev.link n).veh.state = .matching →
      (s.dev.link n).veh.slac = none →
      (s.dev.link n).veh.stateAt + 1000000 * s.dev.slacInit n ≤ s.dev.now →
      (s.dev.link n).veh.tries = 2 →
      s.dev.isAc n = true →
      s.dev.vehBit n 0 = true →
      Completes (.slacInitExpiry n) s fun e =>
        e.bit (Reg.vehEvents n) 3 = true ∧
        e.bit (Reg.vehEvents n) 13 = true ∧
        (e.link n).veh.state = .authorizing ∧
        (e.link n).veh.basic = true ∧
        (e.link n).veh.protocol = .basic) ∧
  (∀ (s : State) (n : LinkId),
      (s.dev.link n).veh.state = .matching →
      (s.dev.link n).veh.slac = none →
      (s.dev.link n).veh.stateAt + 1000000 * s.dev.slacInit n ≤ s.dev.now →
      (s.dev.link n).veh.tries = 2 →
      s.dev.isAc n = false →
      Completes (.slacInitExpiry n) s fun e =>
        e.bit (Reg.vehEvents n) 3 = true ∧
        (e.link n).veh.state = .fault) ∧
  (∀ (s : State) (n : LinkId),
      (s.dev.link n).veh.slac = none →
      s.dev.now < (s.dev.link n).veh.stateAt + 1000000 * s.dev.slacInit n →
      Completes (.slacInitExpiry n) s fun e =>
        s.dev.Keeps e []) ∧
  (∀ (s : State) (n : LinkId) (t : Tick),
      (s.dev.link n).veh.restartAt = some t →
      t ≤ s.dev.now →
      Completes (.attemptRestart n) s fun e =>
        (e.link n).veh = { (s.dev.link n).veh with restartAt := none } ∧
        s.dev.LinksBut e n ∧
        s.dev.Keeps e [.veh]) ∧
  (∀ (s : State) (n : LinkId),
      ((s.dev.link n).veh.restartAt.map fun t => decide (t ≤ s.dev.now)) ≠ some true →
      Completes (.attemptRestart n) s fun e =>
        s.dev.Keeps e []) ∧
  (∀ (s : State) (n : LinkId) (m x : BitVec 48) (i : BitVec 64) (k : Nat) (c : Instr),
      (s.dev.link n).veh.state ≠ .matching →
      c ∈ [.slacParmReq n m i, .startAttenCharInd n i, .soundingWindowEnd n, .slacMatchReq n m x i, .cmValidate n k, .slacInitExpiry n] →
      Completes c s fun e =>
        s.dev.Keeps e [])

/-- In SETUP, no protocol chosen: a TLS handshake begun waits while the RNG restarts; done, with a good SECC chain, it makes TLS stand; one that fails, or without a good chain, sets TLS_FAIL and fails the attempt, as
the third if the RNG has failed. Of what the vehicle offers,
ISO 15118-20 is chosen over TLS, DIN SPEC 70121 alone without TLS, where enabled; an offer with nothing enabled fails the attempt. The setup is answered; after it the first authorization leads to AUTHORIZING with
Ongoing, where each further one is Ongoing; negotiation is answered, and what is agreed leads to ALLOCATING with the figures shown. On DC the cable check is Ongoing,
and with its segment answered, a group owned, 32 kS/s and no warning closes the contactor; passed it answers OK; precharge follows the target at 2 A at most; PowerDelivery enters
ENERGY; a charge loop takes its figures. A bad form in ENERGY, whichever message, sets PROTO_ERROR, answers FAILED and stops the live session with reason 1. In IDLE none of them changes
anything. -/
def Obligations.ProtocolRules : Prop :=
  (∀ (s : State) (n : LinkId),
      (s.dev.link n).veh.state = .setup →
      (s.dev.link n).veh.tls = false →
      (s.dev.link n).veh.protocol = .none →
      s.dev.sec.rng ≠ .failed →
      (s.dev.link n).veh.tries = 1 →
      Completes (.tlsHandshake n true true) s fun e =>
        s.dev.sec.chainOk = true → (e.link n).veh = { (s.dev.link n).veh with tls := true } ∧ s.dev.LinksBut e n ∧ s.dev.Keeps e [.veh, .sec] ∧
        s.dev.sec.chainOk = false → e.bit (Reg.vehEvents n) 9 = true ∧ (e.link n).veh.state = .plugged ∧ (e.link n).veh.tries = 2 ∧ (e.link n).veh.restartAt = some (s.dev.now + 4000000)) ∧
  (∀ (s : State) (n : LinkId) (ok done : Bool),
      (s.dev.link n).veh.state = .setup →
      (s.dev.link n).veh.tls = false →
      (s.dev.link n).veh.protocol = .none →
      s.dev.sec.rng ≠ .failed →
      ok = false ∨ s.dev.sec.chain = [] →
      (s.dev.link n).veh.tries = 1 →
      Completes (.tlsHandshake n ok done) s fun e =>
        e.bit (Reg.vehEvents n) 9 = true ∧
        (e.link n).veh.state = .plugged ∧
        (e.link n).veh.tries = 2 ∧
        (e.link n).veh.restartAt = some (s.dev.now + 4000000)) ∧
  (∀ (s : State) (n : LinkId),
      (s.dev.link n).veh.state = .setup →
      (s.dev.link n).veh.tls = false →
      (s.dev.link n).veh.protocol = .none →
      s.dev.sec.rng = .restarting ∨ s.dev.sec.rng = .startup →
      Completes (.tlsHandshake n true false) s fun e =>
        s.dev.sec.chainOk = true → e.sec.rngWaits.contains (.tls n) = true ∧ s.dev.Keeps e [.sec]) ∧
  (∀ (s : State) (n : LinkId) (ok done : Bool),
      (s.dev.link n).veh.state = .setup →
      (s.dev.link n).veh.tls = false →
      (s.dev.link n).veh.protocol = .none →
      s.dev.sec.rng = .failed →
      Completes (.tlsHandshake n ok done) s fun e =>
        e.bit (Reg.vehEvents n) 9 = true ∧
        (e.link n).veh.tries = 3 ∧
        ((e.link n).veh.state = .fault ∨ (e.link n).veh.state = .authorizing)) ∧
  (∀ (s : State) (n : LinkId) (ok done : Bool),
      (s.dev.link n).veh.state = .setup →
      (s.dev.link n).veh.tls = false →
      (s.dev.link n).veh.protocol ≠ .none →
      (s.dev.link n).veh.live = false →
      Completes (.tlsHandshake n ok done) s fun e =>
        e.bit (Reg.vehEvents n) 10 = true ∧
        (e.link n).veh.state = .ended ∧
        (e.link n).veh.response = .failed) ∧
  (∀ (s : State) (n : LinkId) (ps : List Protocol),
      (s.dev.link n).veh.state = .setup →
      (s.dev.link n).veh.protocol = .none →
      s.dev.megawatt n = false →
      Protocol.iso15118_20 ∈ ps →
      s.dev.vehBit n 3 = true →
      (s.dev.link n).veh.tls = true →
      Completes (.supportedAppProtocol n ps) s fun e =>
        (e.link n).veh = { (s.dev.link n).veh with protocol := .iso15118_20, response := .appProtocol .iso15118_20 } ∧
        s.dev.LinksBut e n ∧
        s.dev.Keeps e [.veh]) ∧
  (∀ (s : State) (n : LinkId),
      (s.dev.link n).veh.state = .setup →
      (s.dev.link n).veh.protocol = .none →
      s.dev.megawatt n = false →
      s.dev.vehBit n 1 = true →
      (s.dev.link n).veh.tls = false →
      Completes (.supportedAppProtocol n [.din70121]) s fun e =>
        (e.link n).veh = { (s.dev.link n).veh with protocol := .din70121, response := .appProtocol .din70121 } ∧
        s.dev.LinksBut e n ∧
        s.dev.Keeps e [.veh]) ∧
  (∀ (s : State) (n : LinkId),
      (s.dev.link n).veh.state = .setup →
      (s.dev.link n).veh.protocol = .none →
      (s.dev.link n).veh.tries = 0 →
      Completes (.supportedAppProtocol n []) s fun e =>
        (e.link n).veh.response = .failed ∧
        (e.link n).veh.state = .plugged ∧
        (e.link n).veh.tries = 1 ∧
        (e.link n).veh.restartAt = some (s.dev.now + 4000000)) ∧
  (∀ (s : State) (n : LinkId),
      (s.dev.link n).veh.state = .setup →
      (s.dev.link n).veh.protocol ≠ .none →
      Completes (.sessionSetupReq n .good) s fun e =>
        (e.link n).veh = { (s.dev.link n).veh with response := .ok } ∧
        s.dev.LinksBut e n ∧
        s.dev.Keeps e [.veh]) ∧
  (∀ (s : State) (n : LinkId),
      (s.dev.link n).veh.state = .authorizing →
      Completes (.authorizationReq n .good none) s fun e =>
        (e.link n).veh = { (s.dev.link n).veh with response := .ongoing } ∧
        s.dev.LinksBut e n ∧
        s.dev.Keeps e [.veh]) ∧
  (∀ (s : State) (n : LinkId),
      (s.dev.link n).veh.state = .setup →
      (s.dev.link n).veh.response = .ok →
      (s.dev.link n).veh.held = none →
      (s.dev.link n).veh.live = false →
      Completes (.authorizationReq n .good none) s fun e =>
        (e.link n).veh = { (s.dev.link n).veh with response := .ongoing, state := .authorizing, stateAt := s.dev.now } ∧
        s.dev.LinksBut e n ∧
        s.dev.Keeps e [.veh]) ∧
  (∀ (s : State) (n : LinkId),
      (s.dev.link n).veh.state = .negotiating →
      Completes (.negotiationReq n .good none) s fun e =>
        (e.link n).veh = { (s.dev.link n).veh with response := .ok } ∧
        s.dev.LinksBut e n ∧
        s.dev.Keeps e [.veh]) ∧
  (∀ (s : State) (n : LinkId) (a : Negotiated),
      (s.dev.link n).veh.state = .negotiating →
      Completes (.negotiationReq n .good (some a)) s fun e =>
        (e.link n).veh.state = .allocating ∧
        (e.link n).veh.stateAt = s.dev.now ∧
        (e.link n).veh.response = .ok ∧
        (e.link n).veh.maxDisI = a.maxDisI ∧
        e.reg (Reg.vehEvPower n) = packWord [(16, 16, a.maxDisKw.toNat), (0, 16, a.maxChgKw.toNat)] ∧
        e.field (Reg.vehEvVolt n) 16 16 = a.maxV.toNat ∧
        e.field (Reg.vehEvCurr n) 0 16 = a.maxI.toNat) ∧
  (∀ (s : State) (n : LinkId),
      (s.dev.link n).veh.state = .allocating →
      s.dev.isAc n = false →
      (s.dev.link n).veh.segAnswered = false ∨ s.dev.owned n = [] ∨ (s.dev.link n).met.fast = false →
      Completes (.cableCheckReq n .good) s fun e =>
        (e.link n).veh = { (s.dev.link n).veh with response := .ongoing } ∧
        s.dev.LinksBut e n ∧
        s.dev.Keeps e [.veh]) ∧
  (∀ (s : State) (n : LinkId),
      (s.dev.link n).veh.state = .allocating →
      s.dev.isAc n = false →
      (s.dev.link n).veh.segAnswered = true →
      s.dev.owned n ≠ [] →
      (s.dev.link n).met.fast = true →
      (s.dev.link n).veh.pilot ≠ .d →
      s.dev.warned = false →
      Completes (.cableCheckReq n .good) s fun e =>
        (e.link n).veh.state = .cableCheck ∧
        (e.link n).veh.stateAt = s.dev.now ∧
        (e.link n).veh.response = .ongoing ∧
        (e.link n).veh.cablePassed = false ∧
        (e.link n).cmd.close.getLsbD 0 = true ∧
        (e.link n).veh.closedOnce = true) ∧
  (∀ (s : State) (n : LinkId),
      (s.dev.link n).veh.state = .cableCheck →
      Completes (.cableCheckReq n .good) s fun e =>
        (e.link n).veh = { (s.dev.link n).veh with response := if (s.dev.link n).veh.cablePassed then .ok else .ongoing } ∧
        s.dev.LinksBut e n ∧
        s.dev.Keeps e [.veh]) ∧
  (∀ (s : State) (n : LinkId) (v a : BitVec 16),
      (s.dev.link n).veh.state = .cableCheck →
      (s.dev.link n).veh.cablePassed = true →
      s.dev.isAc n = false →
      Completes (.preChargeReq n .good v a) s fun e =>
        (e.link n).veh.state = .precharge ∧
        (e.link n).veh.response = .ok ∧
        (e.link n).veh.vset = v ∧
        (e.link n).veh.iout.toNat ≤ 20 ∧
        e.field (Reg.vehEvVolt n) 0 16 = v.toNat ∧
        e.field (Reg.vehEvCurr n) 16 16 = a.toNat) ∧
  (∀ (s : State) (n : LinkId),
      (s.dev.link n).veh.state = .precharge →
      Completes (.powerDeliveryStart n .good) s fun e =>
        (e.link n).veh.state = .energy ∧
        (e.link n).veh.stateAt = s.dev.now ∧
        (e.link n).veh.response = .ok) ∧
  (∀ (s : State) (n : LinkId) (q : ChargeLoop),
      (s.dev.link n).veh.state = .energy →
      Completes (.chargeLoopReq n .good q) s fun e =>
        (e.link n).veh.state = .energy ∧
        (e.link n).veh.ownDisKw = q.ownDisKw ∧
        e.reg (Reg.vehEvSoc n) = BitVec.ofNat 32 q.soc.toNat ∧
        e.field (Reg.vehEvVolt n) 0 16 = q.targetV.toNat ∧
        e.field (Reg.vehEvCurr n) 16 16 = q.targetI.toNat) ∧
  (∀ (s : State) (n : LinkId) (v a : BitVec 16) (q : ChargeLoop) (c : Instr),
      (s.dev.link n).veh.state = .energy →
      (s.dev.link n).veh.basic = false →
      (s.dev.link n).veh.live = true →
      (s.dev.link n).veh.stopWhy = .none →
      c ∈ [.sessionSetupReq n .bad, .authorizationReq n .bad none, .negotiationReq n .bad none, .cableCheckReq n .bad, .preChargeReq n .bad v a, .powerDeliveryStart n .bad, .powerDeliveryStop n .bad, .chargeLoopReq n .bad q] →
      Completes c s fun e =>
        e.bit (Reg.vehEvents n) 10 = true ∧
        (e.link n).veh.response = .failed ∧
        (e.link n).veh.state = .stopping ∧
        (e.link n).veh.stopWhy = .vehicle ∧
        (e.link n).veh.iout = 0) ∧
  (∀ (s : State) (n : LinkId) (v a : BitVec 16) (q : ChargeLoop) (f : V2gForm) (ok done : Bool) (ps : List Protocol) (c : Instr),
      (s.dev.link n).veh.state = .idle →
      (s.dev.link n).veh.live = false →
      c ∈ [.tlsHandshake n ok done, .supportedAppProtocol n ps, .sessionSetupReq n f, .authorizationReq n f none, .negotiationReq n f none, .cableCheckReq n f, .preChargeReq n f v a, .powerDeliveryStart n f, .powerDeliveryStop n f, .chargeLoopReq n f q, .pauseStandbyReq n, .v2gSequenceTimeout n] →
      Completes c s fun e =>
        s.dev.Keeps e [])

/-- In a live session not being stopped: PowerDelivery stop and pause (reason 1), VEH_CMD.STOP (remote), a sequence timeout in ENERGY (reason 1, PROTO_ERROR) and the bounds of PRECHARGE (10 s, reason 1) and
CABLE_CHECK (30 s, trip) begin the controlled stop, the current 0 at once. Stopping, low current for 10 ms commands the contactor open, and so does STOP_MS, with STOP_FORCED. The first tick
after the stop's in which the feedback reads open ends the session with its reason and event: ENDED, or IDLE after state A. The bound of SETUP (20 s) before its answer fails the attempt; a sequence timeout in SETUP, and AUTH_MS in
AUTHORIZING with no decision due, end it, answered FAILED; a credential held for an IDLE outlet lapses after AUTH_HOLD. A change of direction waits for a sample point after more than 10 ms of low
current. VEH_DISCH_KW of an outlet takes its low half. Short of their conditions they change nothing. -/
def Obligations.SessionStops : Prop :=
  (∀ (s : State) (n : LinkId),
      (s.dev.link n).veh.live = true →
      (s.dev.link n).veh.stopWhy = .none →
      (s.dev.link n).veh.talking = true →
      (s.dev.link n).veh.state ≠ .stopping →
      Completes (.powerDeliveryStop n .good) s fun e =>
        (e.link n).veh.state = .stopping ∧
        (e.link n).veh.stopWhy = .vehicle ∧
        (e.link n).veh.iout = 0 ∧
        (e.link n).veh.stopAt = s.dev.now ∧
        (e.link n).veh.response = .ok) ∧
  (∀ (s : State) (n : LinkId),
      (s.dev.link n).veh.live = true →
      (s.dev.link n).veh.stopWhy = .none →
      (s.dev.link n).veh.talking = true →
      (s.dev.link n).veh.state ≠ .stopping →
      Completes (.pauseStandbyReq n) s fun e =>
        (e.link n).veh.state = .stopping ∧
        (e.link n).veh.stopWhy = .vehicle ∧
        (e.link n).veh.iout = 0 ∧
        (e.link n).veh.stopAt = s.dev.now ∧
        (e.link n).veh.response = .ok) ∧
  (∀ (s : State) (n : LinkId),
      s.dev.recording = true →
      (s.dev.link n).veh.live = true →
      (s.dev.link n).veh.stopWhy = .none →
      Completes (.vehStopCmd n) s fun e =>
        (e.link n).veh.state = .stopping ∧
        (e.link n).veh.stopWhy = .remote ∧
        (e.link n).veh.iout = 0 ∧
        (e.link n).veh.stopAt = s.dev.now ∧
        (e.link n).veh.response = .shutdown ∧
        e.reg (Reg.vehCmd n) = 1) ∧
  (∀ (s : State) (n : LinkId),
      s.dev.recording = true →
      (s.dev.link n).veh.live = false →
      Completes (.vehStopCmd n) s fun e =>
        (e.link n).veh = (s.dev.link n).veh ∧
        e.reg (Reg.vehCmd n) = 1 ∧
        s.dev.RegsBut e [Reg.vehCmd n]) ∧
  (∀ (s : State) (n : LinkId),
      (s.dev.link n).veh.talking = true →
      (s.dev.link n).veh.protocol ≠ .none →
      (s.dev.link n).veh.state = .setup →
      (s.dev.link n).veh.live = false →
      Completes (.v2gSequenceTimeout n) s fun e =>
        e.bit (Reg.vehEvents n) 10 = true ∧
        (e.link n).veh.state = .ended ∧
        (e.link n).veh.response = .failed) ∧
  (∀ (s : State) (n : LinkId),
      (s.dev.link n).veh.live = true →
      (s.dev.link n).veh.stopWhy = .none →
      (s.dev.link n).veh.talking = true →
      (s.dev.link n).veh.protocol ≠ .none →
      (s.dev.link n).veh.state = .energy →
      Completes (.v2gSequenceTimeout n) s fun e =>
        e.bit (Reg.vehEvents n) 10 = true ∧
        (e.link n).veh.state = .stopping ∧
        (e.link n).veh.stopWhy = .vehicle ∧
        (e.link n).veh.iout = 0 ∧
        (e.link n).veh.stopAt = s.dev.now ∧
        (e.link n).veh.response = .failed) ∧
  (∀ (s : State) (n : LinkId),
      (s.dev.link n).veh.state = .setup →
      (s.dev.link n).veh.stateAt + 20000000 ≤ s.dev.now →
      (s.dev.link n).veh.response ≠ .ok →
      (s.dev.link n).veh.tries = 0 →
      Completes (.stateBoundExpiry n) s fun e =>
        e.bit (Reg.vehEvents n) 4 = true ∧
        (e.link n).veh.state = .plugged ∧
        (e.link n).veh.tries = 1 ∧
        (e.link n).veh.restartAt = some (s.dev.now + 4000000)) ∧
  (∀ (s : State) (n : LinkId),
      (s.dev.link n).veh.live = true →
      (s.dev.link n).veh.stopWhy = .none →
      (s.dev.link n).veh.state = .cableCheck →
      (s.dev.link n).veh.stateAt + 30000000 ≤ s.dev.now →
      (s.dev.link n).veh.cablePassed = false →
      Completes (.stateBoundExpiry n) s fun e =>
        (e.link n).veh.state = .stopping ∧
        (e.link n).veh.stopWhy = .trip ∧
        (e.link n).veh.iout = 0 ∧
        (e.link n).veh.stopAt = s.dev.now) ∧
  (∀ (s : State) (n : LinkId),
      (s.dev.link n).veh.live = true →
      (s.dev.link n).veh.stopWhy = .none →
      (s.dev.link n).veh.state = .precharge →
      (s.dev.link n).veh.stateAt + 10000000 ≤ s.dev.now →
      Completes (.stateBoundExpiry n) s fun e =>
        (e.link n).veh.state = .stopping ∧
        (e.link n).veh.stopWhy = .vehicle ∧
        (e.link n).veh.iout = 0 ∧
        (e.link n).veh.stopAt = s.dev.now) ∧
  (∀ (s : State) (n : LinkId),
      ((s.dev.link n).veh.state = .setup ∧ s.dev.now < (s.dev.link n).veh.stateAt + 20000000) ∨ ((s.dev.link n).veh.state = .cableCheck ∧ s.dev.now < (s.dev.link n).veh.stateAt + 30000000) ∨ ((s.dev.link n).veh.state = .precharge ∧ s.dev.now < (s.dev.link n).veh.stateAt + 10000000) ∨ (s.dev.link n).veh.state = .energy ∨ (s.dev.link n).veh.state = .idle →
      Completes (.stateBoundExpiry n) s fun e =>
        s.dev.Keeps e []) ∧
  (∀ (s : State) (n : LinkId),
      (s.dev.link n).veh.state = .authorizing →
      (s.dev.link n).veh.waitAuth = none →
      s.dev.decides n = false →
      (s.dev.link n).veh.stateAt + 1000000 * s.dev.settingField (Reg.vehXAuth n) 0 16 ≤ s.dev.now →
      Completes (.authTimeout n) s fun e =>
        e.bit (Reg.vehEvents n) 5 = true ∧
        (e.link n).veh.state = .ended ∧
        (e.link n).veh.response = .failed) ∧
  (∀ (s : State) (n : LinkId),
      (s.dev.link n).veh.state ≠ .authorizing ∨ (s.dev.link n).veh.waitAuth.isSome = true ∨ s.dev.decides n = true ∨ s.dev.now < (s.dev.link n).veh.stateAt + 1000000 * s.dev.settingField (Reg.vehXAuth n) 0 16 →
      Completes (.authTimeout n) s fun e =>
        s.dev.Keeps e []) ∧
  (∀ (s : State) (n : LinkId) (h : HeldCredential),
      (s.dev.link n).veh.held = some h →
      (s.dev.link n).veh.state = .idle →
      h.since + 1000000 * s.dev.settingField (Reg.vehXAuth n) 16 16 ≤ s.dev.now →
      Completes (.authHoldExpiry n) s fun e =>
        (e.link n).veh = { (s.dev.link n).veh with held := none } ∧
        s.dev.LinksBut e n ∧
        s.dev.Keeps e [.veh]) ∧
  (∀ (s : State) (n : LinkId) (h : HeldCredential),
      (s.dev.link n).veh.held = none ∨ (s.dev.link n).veh.state ≠ .idle ∨ ((s.dev.link n).veh.held = some h ∧ s.dev.now < h.since + 1000000 * s.dev.settingField (Reg.vehXAuth n) 16 16) →
      Completes (.authHoldExpiry n) s fun e =>
        s.dev.Keeps e []) ∧
  (∀ (s : State) (n : LinkId) (t : Tick),
      (s.dev.link n).veh.live = true →
      (s.dev.link n).veh.state = .stopping →
      (s.dev.link n).veh.openCmd = false →
      (s.dev.link n).veh.lowSince = some t →
      t + 10000 ≤ s.dev.now →
      Completes (.stopCurrentLow n) s fun e =>
        (e.link n).veh = { (s.dev.link n).veh with openCmd := true, cToBAt := none } ∧
        (e.link n).cmd.close.getLsbD 0 = false ∧
        s.dev.LinksBut e n ∧
        s.dev.RegsBut e []) ∧
  (∀ (s : State) (n : LinkId),
      (s.dev.link n).veh.live = false ∨ (s.dev.link n).veh.state ≠ .stopping ∨ (s.dev.link n).veh.openCmd = true ∨ heldFor (s.dev.link n).veh.lowSince s.dev.now 10000 = false →
      Completes (.stopCurrentLow n) s fun e =>
        s.dev.Keeps e []) ∧
  (∀ (s : State) (n : LinkId),
      (s.dev.link n).veh.live = true →
      (s.dev.link n).veh.state = .stopping →
      (s.dev.link n).veh.openCmd = false →
      (s.dev.link n).veh.stopAt + 1000 * s.dev.stopMs n ≤ s.dev.now →
      Completes (.stopMsExpiry n) s fun e =>
        (e.link n).veh = { (s.dev.link n).veh with openCmd := true, cToBAt := none } ∧
        (e.link n).cmd.close.getLsbD 0 = false ∧
        s.dev.LinksBut e n ∧
        e.bit (Reg.vehEvents n) 8 = true ∧
        s.dev.RegsBut e [Reg.vehEvents n]) ∧
  (∀ (s : State) (n : LinkId),
      (s.dev.link n).veh.live = false ∨ (s.dev.link n).veh.state ≠ .stopping ∨ (s.dev.link n).veh.openCmd = true ∨ s.dev.now < (s.dev.link n).veh.stopAt + 1000 * s.dev.stopMs n →
      Completes (.stopMsExpiry n) s fun e =>
        s.dev.Keeps e []) ∧
  (∀ (s : State) (n : LinkId),
      (s.dev.link n).veh.live = true →
      (s.dev.link n).veh.stopWhy ≠ .none →
      (s.dev.link n).veh.stopAt < s.dev.now →
      s.dev.fb n 0 = false →
      (s.dev.link n).veh.state = .stopping →
      (s.dev.link n).veh.pilot ≠ .a →
      s.dev.noCable n = false →
      Completes (.sessionEnd n) s fun e =>
        (e.link n).veh.live = false ∧
        e.bit (Reg.vehEvents n) 2 = true ∧
        (e.link n).out.req = 0 ∧
        e.field (Reg.vehLastEnd n) 0 8 = (s.dev.link n).veh.stopWhy.code ∧
        (e.link n).veh.state = .ended) ∧
  (∀ (s : State) (n : LinkId),
      (s.dev.link n).veh.live = true →
      (s.dev.link n).veh.stopWhy ≠ .none →
      (s.dev.link n).veh.stopAt < s.dev.now →
      s.dev.fb n 0 = false →
      (s.dev.link n).veh.state = .stopping →
      (s.dev.link n).veh.pilot = .a →
      Completes (.sessionEnd n) s fun e =>
        (e.link n).veh.live = false ∧
        e.bit (Reg.vehEvents n) 2 = true ∧
        (e.link n).out.req = 0 ∧
        e.field (Reg.vehLastEnd n) 0 8 = (s.dev.link n).veh.stopWhy.code ∧
        (e.link n).veh.state = .idle ∧
        (e.link n).veh.protocol = .none) ∧
  (∀ (s : State) (n : LinkId),
      (s.dev.link n).veh.live = false ∨ (s.dev.link n).veh.stopWhy = .none ∨ s.dev.now ≤ (s.dev.link n).veh.stopAt ∨ s.dev.fb n 0 = true →
      Completes (.sessionEnd n) s fun e =>
        s.dev.Keeps e []) ∧
  (∀ (s : State) (n : LinkId) (w : Word),
      s.dev.recording = true →
      s.dev.role n = .outlet →
      Completes (.dischKwWrite n w) s fun e =>
        e.reg (Reg.vehDischKw n) = BitVec.ofNat 32 (fieldOf w 0 16) ∧
        s.dev.RegsBut e [Reg.vehDischKw n] ∧
        s.dev.LinksBut e n) ∧
  (∀ (s : State) (n : LinkId) (w : Word),
      s.dev.recording = false ∨ s.dev.role n ≠ .outlet →
      Completes (.dischKwWrite n w) s fun e =>
        s.dev.Keeps e []) ∧
  (∀ (s : State) (n : LinkId) (dir : Bool) (t : Tick),
      (s.dev.link n).veh.turning = some dir →
      (s.dev.link n).veh.live = true →
      (s.dev.link n).veh.lowSince = some t →
      t + 10001 ≤ s.dev.now →
      isSamplePoint s.dev.now = true →
      Completes (.directionSettled n) s fun e =>
        (e.link n).veh.discharge = dir ∧
        (e.link n).veh.turning = none ∧
        (e.link n).veh.lowSince = none) ∧
  (∀ (s : State) (n : LinkId),
      (s.dev.link n).veh.turning = none ∨ (s.dev.link n).veh.live = false ∨ heldFor (s.dev.link n).veh.lowSince s.dev.now 10001 = false ∨ isSamplePoint s.dev.now = false →
      Completes (.directionSettled n) s fun e =>
        s.dev.Keeps e [])

/-- While the sprint path is armed: channels that differ (bit 1) and a self-test of which either channel fails (bit 2) are class 3: the site latch, and the device halts at the closure; a self-test that passes
shows SELFTEST_OK, sets no bit and enters no SAFE HALT; a TRIP_OUT pair that reads back wrong sets its bit and its fault. Before it is armed none of them changes anything. A cause that meets its
condition is marked gone, which releases no latch and changes no register; the causes that only a self-test removes are not marked so. -/
def Obligations.SprintRules : Prop :=
  (∀ (s : State) (m : ChannelMismatch),
      s.dev.prot.armed = true →
      Completes (.sprintChMismatch m) s fun e =>
        e.power.haltNow = true ∧
        e.prot.siteLatch.isSome = true ∧
        e.bit Reg.prtEvents 1 = true) ∧
  (∀ (s : State),
      s.dev.prot.armed = true →
      Completes (.sprintSelftest true true) s fun e =>
        e.prot.selftestOk = true ∧
        e.prot.armed = true ∧
        e.power = s.dev.power ∧
        s.dev.RegsBut e []) ∧
  (∀ (s : State) (a b : Bool),
      s.dev.prot.armed = true →
      a = false ∨ b = false →
      Completes (.sprintSelftest a b) s fun e =>
        e.prot.selftestOk = false ∧
        e.bit Reg.prtEvents 2 = true ∧
        e.power.haltNow = true ∧
        e.prot.siteLatch.isSome = true) ∧
  (∀ (s : State) (k : Fin 4),
      s.dev.prot.armed = true →
      Completes (.tripoutReadbackFault k) s fun e =>
        e.prot.tripoutFault = s.dev.prot.tripoutFault ||| BitVec.ofNat 4 (2 ^ k.1) ∧
        e.prot.tripoutAt = s.dev.now ∧
        e.bit Reg.prtTripoutEvents k.1 = true) ∧
  (∀ (s : State) (m : ChannelMismatch) (a b : Bool) (k : Fin 4) (c : Instr),
      s.dev.prot.armed = false →
      c ∈ [.sprintChMismatch m, .sprintSelftest a b, .tripoutReadbackFault k] →
      Completes c s fun e =>
        s.dev.Keeps e []) ∧
  (∀ (s : State) (m : Option LinkId) (code : Byte),
      code = 0x36 ∨ code = 0x37 →
      Completes (.causeGone m code) s fun e =>
        s.dev.Keeps e []) ∧
  (∀ (s : State) (m : Option LinkId) (code : Byte),
      code ≠ 0x36 →
      code ≠ 0x37 →
      Completes (.causeGone m code) s fun e =>
        (∀ n, (e.link n).prot.latch.isSome = (s.dev.link n).prot.latch.isSome) ∧
        e.prot.siteLatch.isSome = s.dev.prot.siteLatch.isSome ∧
        s.dev.Keeps e [.prot])

/-- The thresholds that failed are written again at their second. At a sample point IMD_HALF after its start a half-period ends: its sum is kept and the polarity turned. READY, its conditions met with group and outlet within MATCH_V,
answers the request and closes the group's contactor. At a sample point, a deviation of symmetry held for its time is its cause with detail bit 4, residual current held for 10 ms (alternating; 4 fast
samples suffice), 70 ms (direct) or the site's time, 5; an excess of the limits of a live session 7, and of direction 8; once armed, a cause of a class
above 0 latches an outlet or power link and opens its contactors. An excess of 1 ms reduces the limit, bit 6, lifted 1 s after the last excess. Away from a sample point, before the time has passed, or on another role, nothing changes. -/
def Obligations.InsulationRules : Prop :=
  (∀ (s : State) (n : LinkId) (t : Tick),
      (s.dev.link n).prot.threshRetryAt = some t →
      t ≤ s.dev.now →
      s.dev.trained n = true →
      Completes (.threshRetry n) s fun e =>
        (e.link n).prot.threshOk = false ∧
        (e.link n).prot.threshFails = 0 ∧
        (e.link n).prot.threshRetryAt = none ∧
        s.dev.LinksBut e n ∧
        s.dev.RegsBut e []) ∧
  (∀ (s : State) (n : LinkId),
      ((s.dev.link n).prot.threshRetryAt.map fun t => decide (t ≤ s.dev.now)) ≠ some true ∨ s.dev.trained n = false →
      Completes (.threshRetry n) s fun e =>
        s.dev.Keeps e []) ∧
  (∀ (s : State) (n : LinkId),
      s.dev.hasImd n = true →
      s.dev.trained n = true →
      isSamplePoint s.dev.now = true →
      (s.dev.link n).prot.imd.halfStart + 1000 * s.dev.imdHalf n ≤ s.dev.now →
      (s.dev.link n).prot.imd.positive = true →
      Completes (.imdHalfPeriod n) s fun e =>
        (e.link n).prot.imd.positive = false ∧
        (e.link n).prot.imd.qN = 0 ∧
        (e.link n).prot.imd.qSum = 0 ∧
        (e.link n).prot.imd.halves = ((true, (s.dev.link n).prot.imd.halfStart, (s.dev.link n).prot.imd.qSum, (s.dev.link n).prot.imd.qN, !(s.dev.link n).prot.imd.qBridged) :: (s.dev.link n).prot.imd.halves).take 4 ∧
        (e.link n).prot.imd.halfStart = s.dev.now ∧
        s.dev.LinksBut e n) ∧
  (∀ (s : State) (n : LinkId),
      s.dev.hasImd n = true →
      s.dev.trained n = true →
      isSamplePoint s.dev.now = true →
      (s.dev.link n).prot.imd.halfStart + 1000 * s.dev.imdHalf n ≤ s.dev.now →
      (s.dev.link n).prot.imd.positive = false →
      Completes (.imdHalfPeriod n) s fun e =>
        (e.link n).prot.imd.positive = true ∧
        (e.link n).prot.imd.qN = 0 ∧
        (e.link n).prot.imd.qSum = 0 ∧
        (e.link n).prot.imd.halves = ((false, (s.dev.link n).prot.imd.halfStart, (s.dev.link n).prot.imd.qSum, (s.dev.link n).prot.imd.qN, !(s.dev.link n).prot.imd.qBridged) :: (s.dev.link n).prot.imd.halves).take 4) ∧
  (∀ (s : State) (n : LinkId),
      s.dev.hasImd n = false ∨ s.dev.trained n = false ∨ isSamplePoint s.dev.now = false ∨ s.dev.now < (s.dev.link n).prot.imd.halfStart + 1000 * s.dev.imdHalf n →
      Completes (.imdHalfPeriod n) s fun e =>
        s.dev.Keeps e []) ∧
  (∀ (s : State) (g o : LinkId) (k : Fin 16) (q : SegRequest) (t : Tick),
      (s.dev.prot.segs.find? fun x => decide (x.group = g)) = some q →
      q.answered = false →
      isSamplePoint s.dev.now = true →
      s.dev.warned = false →
      s.dev.segReadyNow q = true →
      (s.dev.link g).met.fast = true →
      s.dev.slotOf g = none →
      s.dev.matched g o = true →
      (s.dev.link g).group.assign = some (o, k, .segPrepare, t) →
      Completes (.segReady g) s fun e =>
        (e.link g).group.assign = some (o, k, .closing, s.dev.now) ∧
        (e.link g).cmd.close.getLsbD k.1 = true ∧
        (e.link q.outlet).veh.segAnswered = true ∧
        (e.prot.segs.find? fun x => decide (x.group = g)) = some { q with answered := true } ∧
        s.dev.RegsBut e []) ∧
  (∀ (s : State) (g : LinkId) (q : SegRequest) (i : Fin 16) (x : Exchange),
      (s.dev.prot.segs.find? fun x => decide (x.group = g)) = some q →
      q.answered = false →
      isSamplePoint s.dev.now = true →
      s.dev.warned = false →
      s.dev.segReadyNow q = true →
      (s.dev.link g).met.fast = true →
      s.dev.slotOf g = some i →
      s.dev.alloc.slots.get i = some x →
      Completes (.segReady g) s fun e =>
        e.alloc.slots.get i = some { x with segReady := true } ∧
        (e.link q.outlet).veh.segAnswered = true ∧
        (e.link g).cmd = (s.dev.link g).cmd ∧
        s.dev.RegsBut e []) ∧
  (∀ (s : State) (g : LinkId),
      (s.dev.prot.segs.find? fun x => decide (x.group = g)).isNone = true ∨ isSamplePoint s.dev.now = false ∨ s.dev.warned = true ∨ (s.dev.link g).met.fast = false →
      Completes (.segReady g) s fun e =>
        s.dev.Keeps e []) ∧
  (∀ (s : State) (n : LinkId) (t : Tick),
      isSamplePoint s.dev.now = true →
      (s.dev.link n).prot.sym.since = some t →
      t + 1000 * s.dev.settingField (Reg.prtLXSym n) 8 8 ≤ s.dev.now →
      Completes (.symmetryFault n) s fun e =>
        e.bit (Reg.prtLEvents n) 4 = true ∧
        s.dev.prot.armed = true ∧ s.dev.tripClass 0x15 0 ≠ 0 ∧ (s.dev.role n = .outlet ∨ s.dev.role n = .power) → (e.link n).prot.latch.isSome = true ∧ (e.link n).cmd.close = 0) ∧
  (∀ (s : State) (n : LinkId),
      isSamplePoint s.dev.now = false ∨ heldFor (s.dev.link n).prot.sym.since s.dev.now (1000 * s.dev.settingField (Reg.prtLXSym n) 8 8) = false →
      Completes (.symmetryFault n) s fun e =>
        s.dev.Keeps e []) ∧
  (∀ (s : State) (n : LinkId) (t : Tick),
      s.dev.role n = .outlet →
      s.dev.isAc n = true →
      isSamplePoint s.dev.now = true →
      (s.dev.link n).prot.rdcAc.since = some t →
      t + 10000 ≤ s.dev.now →
      Completes (.rdcAcFault n) s fun e =>
        e.bit (Reg.prtLEvents n) 5 = true ∧
        s.dev.prot.armed = true ∧ s.dev.tripClass 0x12 0 ≠ 0 ∧ (s.dev.role n = .outlet ∨ s.dev.role n = .power) → (e.link n).prot.latch.isSome = true ∧ (e.link n).cmd.close = 0) ∧
  (∀ (s : State) (n : LinkId),
      isSamplePoint s.dev.now = false ∨ heldFor (s.dev.link n).prot.rdcAc.since s.dev.now (10000) = false ∧ s.dev.rdcFast n = false ∨ s.dev.role n ≠ .outlet ∨ s.dev.isAc n = false →
      Completes (.rdcAcFault n) s fun e =>
        s.dev.Keeps e []) ∧
  (∀ (s : State) (n : LinkId),
      s.dev.role n = .outlet →
      s.dev.isAc n = true →
      isSamplePoint s.dev.now = true →
      s.dev.rdcFast n = true →
      Completes (.rdcAcFault n) s fun e =>
        e.bit (Reg.prtLEvents n) 5 = true ∧
        s.dev.prot.armed = true ∧ s.dev.tripClass 0x12 0 ≠ 0 ∧ (s.dev.role n = .outlet ∨ s.dev.role n = .power) → (e.link n).prot.latch.isSome = true ∧ (e.link n).cmd.close = 0) ∧
  (∀ (s : State) (n : LinkId) (t : Tick),
      s.dev.role n = .outlet →
      s.dev.isAc n = true →
      isSamplePoint s.dev.now = true →
      (s.dev.link n).prot.rdcDc.since = some t →
      t + 70000 ≤ s.dev.now →
      Completes (.rdcDcFault n) s fun e =>
        e.bit (Reg.prtLEvents n) 5 = true ∧
        s.dev.prot.armed = true ∧ s.dev.tripClass 0x13 0 ≠ 0 ∧ (s.dev.role n = .outlet ∨ s.dev.role n = .power) → (e.link n).prot.latch.isSome = true ∧ (e.link n).cmd.close = 0) ∧
  (∀ (s : State) (n : LinkId),
      isSamplePoint s.dev.now = false ∨ heldFor (s.dev.link n).prot.rdcDc.since s.dev.now (70000) = false ∨ s.dev.role n ≠ .outlet ∨ s.dev.isAc n = false →
      Completes (.rdcDcFault n) s fun e =>
        s.dev.Keeps e []) ∧
  (∀ (s : State) (n : LinkId) (t : Tick),
      s.dev.role n = .site →
      isSamplePoint s.dev.now = true →
      (s.dev.link n).prot.siteRdc.since = some t →
      t + 1000 * s.dev.settingField Reg.prtXSite 16 8 ≤ s.dev.now →
      Completes (.siteRdc n) s fun e =>
        e.bit (Reg.prtLEvents n) 5 = true) ∧
  (∀ (s : State) (n : LinkId),
      s.dev.role n ≠ .site ∨ isSamplePoint s.dev.now = false ∨ heldFor (s.dev.link n).prot.siteRdc.since s.dev.now (1000 * s.dev.settingField Reg.prtXSite 16 8) = false →
      Completes (.siteRdc n) s fun e =>
        s.dev.Keeps e []) ∧
  (∀ (s : State) (n : LinkId) (t : Tick),
      isSamplePoint s.dev.now = true →
      s.dev.sessionLive n = true →
      (s.dev.link n).prot.reducingI = false →
      ((s.dev.link n).prot.limited false).since = some t →
      t + 1000 ≤ s.dev.now →
      Completes (.limitReduce n false) s fun e =>
        (e.link n).prot.reducingI = true ∧
        (e.link n).prot.reducingV = (s.dev.link n).prot.reducingV ∧
        e.bit (Reg.prtLEvents n) 6 = true ∧
        s.dev.LinksBut e n) ∧
  (∀ (s : State) (n : LinkId),
      isSamplePoint s.dev.now = true →
      (s.dev.link n).prot.reducingI = true →
      (s.dev.link n).prot.overI + 1000000 ≤ s.dev.now →
      Completes (.limitLift n false) s fun e =>
        (e.link n).prot.reducingI = false ∧
        (e.link n).prot.reducingV = (s.dev.link n).prot.reducingV ∧
        s.dev.LinksBut e n) ∧
  (∀ (s : State) (n : LinkId),
      isSamplePoint s.dev.now = false ∨ (s.dev.link n).prot.reducingI = false ∨ s.dev.now < (s.dev.link n).prot.overI + 1000000 →
      Completes (.limitLift n false) s fun e =>
        s.dev.Keeps e []) ∧
  (∀ (s : State) (n : LinkId) (t : Tick),
      isSamplePoint s.dev.now = true →
      s.dev.sessionLive n = true →
      (s.dev.link n).prot.reducingV = false →
      ((s.dev.link n).prot.limited true).since = some t →
      t + 1000 ≤ s.dev.now →
      Completes (.limitReduce n true) s fun e =>
        (e.link n).prot.reducingV = true ∧
        (e.link n).prot.reducingI = (s.dev.link n).prot.reducingI ∧
        e.bit (Reg.prtLEvents n) 6 = true ∧
        s.dev.LinksBut e n) ∧
  (∀ (s : State) (n : LinkId),
      isSamplePoint s.dev.now = true →
      (s.dev.link n).prot.reducingV = true →
      (s.dev.link n).prot.overV + 1000000 ≤ s.dev.now →
      Completes (.limitLift n true) s fun e =>
        (e.link n).prot.reducingV = false ∧
        (e.link n).prot.reducingI = (s.dev.link n).prot.reducingI ∧
        s.dev.LinksBut e n) ∧
  (∀ (s : State) (n : LinkId),
      isSamplePoint s.dev.now = false ∨ (s.dev.link n).prot.reducingV = false ∨ s.dev.now < (s.dev.link n).prot.overV + 1000000 →
      Completes (.limitLift n true) s fun e =>
        s.dev.Keeps e []) ∧
  (∀ (s : State) (n : LinkId) (v : Bool),
      isSamplePoint s.dev.now = false ∨ s.dev.sessionLive n = false ∨ heldFor ((s.dev.link n).prot.limited v).since s.dev.now 1000 = false →
      Completes (.limitReduce n v) s fun e =>
        s.dev.Keeps e []) ∧
  (∀ (s : State) (n : LinkId) (v : Bool) (t : Tick),
      isSamplePoint s.dev.now = true →
      s.dev.sessionLive n = true →
      ((s.dev.link n).prot.limited v).since = some t →
      t + 1000 * s.dev.settingField (Reg.prtLXLim n) 16 8 ≤ s.dev.now →
      Completes (.limitTrip n v) s fun e =>
        e.bit (Reg.prtLEvents n) 7 = true ∧
        s.dev.prot.armed = true ∧ s.dev.tripClass (if v then 0x17 else 0x16) 0 ≠ 0 ∧ (s.dev.role n = .outlet ∨ s.dev.role n = .power) → (e.link n).prot.latch.isSome = true ∧ (e.link n).cmd.close = 0) ∧
  (∀ (s : State) (n : LinkId) (v : Bool),
      isSamplePoint s.dev.now = false ∨ s.dev.sessionLive n = false ∨ heldFor ((s.dev.link n).prot.limited v).since s.dev.now (1000 * s.dev.settingField (Reg.prtLXLim n) 16 8) = false →
      Completes (.limitTrip n v) s fun e =>
        s.dev.Keeps e []) ∧
  (∀ (s : State) (n : LinkId) (t : Tick),
      isSamplePoint s.dev.now = true →
      (s.dev.link n).prot.safeDir.since = some t →
      t + 5000 ≤ s.dev.now →
      Completes (.safeDirFault n) s fun e =>
        e.bit (Reg.prtLEvents n) 8 = true ∧
        s.dev.prot.armed = true ∧ s.dev.tripClass 0x18 0 ≠ 0 ∧ (s.dev.role n = .outlet ∨ s.dev.role n = .power) → (e.link n).prot.latch.isSome = true ∧ (e.link n).cmd.close = 0) ∧
  (∀ (s : State) (n : LinkId),
      isSamplePoint s.dev.now = false ∨ heldFor (s.dev.link n).prot.safeDir.since s.dev.now (5000) = false →
      Completes (.safeDirFault n) s fun e =>
        s.dev.Keeps e [])

/-- Antivalent pairs: high and low is CLEAR, low and high is DEMAND and, on an enabled pair, sets its detail bit; equal levels start the discrepancy timer, which stands while the levels agree and is one decision at
DISC_MS, and a valid state of DISC_MS restarts it. The same state again changes nothing but the levels. Reset inputs: a rise notes the latches whose causes are all gone (none before arming); the fall of a pulse of 50 ms to 5 s is accepted, with its bit, and
releases each latch noted whose causes are all still gone and no other; an earlier one is ignored with its bit; a level of more than 5 s is jammed, with its bit, and its fall only ends it. Where a condition fails nothing changes. -/
def Obligations.SafetyInputs : Prop :=
  (∀ (s : State) (k : Fin 8),
      (s.dev.prot.pairs.get k).state ≠ .demand →
      s.dev.avEnabled k = true →
      Completes (.avPairChange k false true) s fun e =>
        (e.prot.pairs.get k).state = .demand ∧
        (e.prot.pairs.get k).since = s.dev.now ∧
        e.bit Reg.prtAvEvents k.1 = true) ∧
  (∀ (s : State) (k : Fin 8),
      (s.dev.prot.pairs.get k).state ≠ .demand →
      s.dev.avEnabled k = false →
      Completes (.avPairChange k false true) s fun e =>
        (e.prot.pairs.get k).state = .demand ∧
        (e.prot.pairs.get k).since = s.dev.now ∧
        s.dev.Keeps e [.prot]) ∧
  (∀ (s : State) (k : Fin 8),
      (s.dev.prot.pairs.get k).state ≠ .clear →
      Completes (.avPairChange k true false) s fun e =>
        (e.prot.pairs.get k).state = .clear ∧
        (e.prot.pairs.get k).since = s.dev.now ∧
        (e.prot.pairs.get k).counted = (s.dev.prot.pairs.get k).timer s.dev.now ∧
        s.dev.Keeps e [.prot]) ∧
  (∀ (s : State) (k : Fin 8) (a : Bool),
      (s.dev.prot.pairs.get k).state ≠ .discrepancy →
      Completes (.avPairChange k a a) s fun e =>
        (e.prot.pairs.get k).state = .discrepancy ∧
        (e.prot.pairs.get k).since = s.dev.now ∧
        s.dev.Keeps e [.prot]) ∧
  (∀ (s : State) (k : Fin 8) (a b : Bool),
      avOf a b = (s.dev.prot.pairs.get k).state →
      Completes (.avPairChange k a b) s fun e =>
        (e.prot.pairs.get k) = { (s.dev.prot.pairs.get k) with a := a, b := b } ∧
        s.dev.Keeps e [.prot]) ∧
  (∀ (s : State) (k : Fin 8),
      s.dev.avEnabled k = true →
      (s.dev.prot.pairs.get k).state = .discrepancy →
      (s.dev.prot.pairs.get k).faulted = false →
      1000 * s.dev.field (Reg.prtAvCfg k) 16 8 ≤ (s.dev.prot.pairs.get k).timer s.dev.now →
      Completes (.avDiscrepancy k) s fun e =>
        (e.prot.pairs.get k).faulted = true ∧
        e.bit Reg.prtAvEvents (8 + k.1) = true) ∧
  (∀ (s : State) (k : Fin 8),
      s.dev.avEnabled k = false ∨ (s.dev.prot.pairs.get k).state ≠ .discrepancy ∨ (s.dev.prot.pairs.get k).faulted = true ∨ (s.dev.prot.pairs.get k).timer s.dev.now < 1000 * s.dev.field (Reg.prtAvCfg k) 16 8 →
      Completes (.avDiscrepancy k) s fun e =>
        s.dev.Keeps e []) ∧
  (∀ (s : State) (k : Fin 8),
      s.dev.avEnabled k = true →
      (s.dev.prot.pairs.get k).state ≠ .discrepancy →
      (s.dev.prot.pairs.get k).since + 1000 * s.dev.field (Reg.prtAvCfg k) 16 8 ≤ s.dev.now →
      Completes (.avTimerRestart k) s fun e =>
        (e.prot.pairs.get k) = { (s.dev.prot.pairs.get k) with counted := 0, restarted := true, faulted := false } ∧
        s.dev.Keeps e [.prot]) ∧
  (∀ (s : State) (k : Fin 8),
      s.dev.avEnabled k = false ∨ (s.dev.prot.pairs.get k).state = .discrepancy ∨ s.dev.now < (s.dev.prot.pairs.get k).since + 1000 * s.dev.field (Reg.prtAvCfg k) 16 8 →
      Completes (.avTimerRestart k) s fun e =>
        s.dev.Keeps e []) ∧
  (∀ (s : State) (k : Fin 2),
      (s.dev.prot.resets.get k).high = false →
      Completes (.rstreqRise k) s fun e =>
        (e.prot.resets.get k).high = true ∧
        (e.prot.resets.get k).riseAt = s.dev.now ∧
        (e.prot.resets.get k).goneLinks = (if s.dev.prot.armed then s.dev.goneLatches.1 else []) ∧
        (e.prot.resets.get k).goneSite = (s.dev.prot.armed && s.dev.goneLatches.2) ∧
        s.dev.Keeps e [.prot]) ∧
  (∀ (s : State) (k : Fin 2),
      (s.dev.prot.resets.get k).high = true →
      Completes (.rstreqRise k) s fun e =>
        s.dev.Keeps e []) ∧
  (∀ (s : State) (k : Fin 2),
      s.dev.prot.armed = true →
      (s.dev.prot.resets.get k).high = true →
      (s.dev.prot.resets.get k).jammed = false →
      50000 ≤ s.dev.now - (s.dev.prot.resets.get k).riseAt →
      s.dev.now - (s.dev.prot.resets.get k).riseAt ≤ 5000000 →
      Completes (.edgeResetAccepted k) s fun e =>
        (e.prot.resets.get k).high = false ∧
        (e.prot.resets.get k).lowSince = s.dev.now ∧
        e.bit Reg.prtRstEvents 0 = true ∧
        (∀ n, (e.link n).prot.latch = if (s.dev.prot.resets.get k).goneLinks.contains n ∧ s.dev.goneLatches.1.contains n then none else (s.dev.link n).prot.latch) ∧
        e.prot.siteLatch = (if (s.dev.prot.resets.get k).goneSite ∧ s.dev.goneLatches.2 then none else s.dev.prot.siteLatch)) ∧
  (∀ (s : State) (k : Fin 2),
      s.dev.prot.armed = true →
      (s.dev.prot.resets.get k).high = true →
      (s.dev.prot.resets.get k).jammed = false →
      s.dev.now - (s.dev.prot.resets.get k).riseAt < 50000 →
      Completes (.edgeResetAccepted k) s fun e =>
        (e.prot.resets.get k).high = false ∧
        e.bit Reg.prtRstEvents 1 = true ∧
        (∀ n, e.link n = s.dev.link n) ∧
        e.prot.siteLatch = s.dev.prot.siteLatch ∧
        s.dev.RegsBut e [Reg.prtRstEvents]) ∧
  (∀ (s : State) (k : Fin 2),
      (s.dev.prot.resets.get k).high = true →
      s.dev.prot.armed = false ∨ (s.dev.prot.resets.get k).jammed = true ∨ 5000000 < s.dev.now - (s.dev.prot.resets.get k).riseAt →
      Completes (.edgeResetAccepted k) s fun e =>
        (e.prot.resets.get k) = { (s.dev.prot.resets.get k) with high := false, lowSince := s.dev.now } ∧
        (∀ n, e.link n = s.dev.link n) ∧
        s.dev.Keeps e [.prot]) ∧
  (∀ (s : State) (k : Fin 2),
      (s.dev.prot.resets.get k).high = false →
      Completes (.edgeResetAccepted k) s fun e =>
        s.dev.Keeps e []) ∧
  (∀ (s : State) (k : Fin 2),
      s.dev.prot.armed = true →
      (s.dev.prot.resets.get k).high = true →
      (s.dev.prot.resets.get k).jammed = false →
      (s.dev.prot.resets.get k).riseAt + 5000000 ≤ s.dev.now →
      Completes (.rstJammed k) s fun e =>
        (e.prot.resets.get k).jammed = true ∧
        e.bit Reg.prtRstEvents 2 = true ∧
        s.dev.RegsBut e [Reg.prtRstEvents]) ∧
  (∀ (s : State) (k : Fin 2),
      s.dev.prot.armed = false ∨ (s.dev.prot.resets.get k).high = false ∨ (s.dev.prot.resets.get k).jammed = true ∨ s.dev.now < (s.dev.prot.resets.get k).riseAt + 5000000 →
      Completes (.rstJammed k) s fun e =>
        s.dev.Keeps e [])

/-- A PDU after EtherType 0x88B5, valid and of the kind, on an enabled network and an open connection: with the next SEQ it is a first copy; the same bytes within TEXP on the other network complete the pair; other
bytes, or a SEQ more than 8 ahead, are SN_FAULT; the copy heard twice on one network and the last SEQ again change nothing; an unknown CONN_ID is counted. Another EtherType, an invalid or unlike PDU, and a network that is off change
nothing. TEXP past without the second copy, TEXP past without a new first copy and 5 s past without a first pair are SN_FAULT, else these change nothing. Every TX_MS, and
in the tick after a change of SIG, the device sends its own frame with the next SEQ on each enabled network, at least 60 bytes long; before that, before bring-up step 4 or with both networks off it sends none. -/
def Obligations.SafetyNetwork : Prop :=
  (∀ (s : State) (net : SafetyNet) (f p : List Byte) (c : Fin 8) (l : BitVec 16),
      s.dev.prot.armed = true →
      s.dev.netOn net = true →
      pduIn f = some p →
      pduValid p = true →
      fieldBE p 1 1 = 1 →
      s.dev.connOf (fieldBE (pduOf p) 2 4) = some c →
      (s.dev.prot.conns.get c).isOpen = true →
      (s.dev.prot.conns.get c).firsts = [] →
      (s.dev.prot.conns.get c).lastSeq = some l →
      BitVec.ofNat 16 (fieldBE (pduOf p) 6 2) = l + 1 →
      Completes (.snDataFrame net f) s fun e =>
        (e.prot.conns.get c).lastSeq = some (l + 1) ∧
        (e.prot.conns.get c).lastFirst = s.dev.now ∧
        (e.prot.conns.get c).firsts = [{ net := net, seq := l + 1, pdu := pduOf p, at? := s.dev.now }]) ∧
  (∀ (s : State) (net : SafetyNet) (f p : List Byte) (c : Fin 8) (l : BitVec 16),
      s.dev.prot.armed = true →
      s.dev.netOn net = true →
      pduIn f = some p →
      pduValid p = true →
      fieldBE p 1 1 = 2 →
      s.dev.connOf (fieldBE (pduOf p) 2 4) = some c →
      (s.dev.prot.conns.get c).isOpen = true →
      (s.dev.prot.conns.get c).firsts = [] →
      (s.dev.prot.conns.get c).lastSeq = some l →
      BitVec.ofNat 16 (fieldBE (pduOf p) 6 2) = l + 1 →
      Completes (.snResetFrame net f) s fun e =>
        (e.prot.conns.get c).lastSeq = some (l + 1) ∧
        (e.prot.conns.get c).lastFirst = s.dev.now ∧
        (e.prot.conns.get c).firsts = [{ net := net, seq := l + 1, pdu := pduOf p, at? := s.dev.now }]) ∧
  (∀ (s : State) (f p : List Byte) (c : Fin 8) (t : Tick),
      s.dev.prot.armed = true →
      s.dev.netOn .b = true →
      pduIn f = some p →
      pduValid p = true →
      fieldBE p 1 1 = 1 →
      s.dev.connOf (fieldBE (pduOf p) 2 4) = some c →
      (s.dev.prot.conns.get c).isOpen = true →
      (s.dev.prot.conns.get c).firsts = [{ net := .a, seq := BitVec.ofNat 16 (fieldBE (pduOf p) 6 2), pdu := pduOf p, at? := t }] →
      s.dev.now ≤ t + 1000 * min (fieldBE (pduOf p) 8 2) (s.dev.field (Reg.prtSnRxCfg c) 0 16) →
      Completes (.snDataFrame .b f) s fun e =>
        (e.prot.conns.get c).firsts = [] ∧
        (e.prot.conns.get c).gotPair = true ∧
        (e.prot.conns.get c).fault = false ∧
        s.dev.Keeps e [.prot]) ∧
  (∀ (s : State) (f p q : List Byte) (c : Fin 8) (t : Tick),
      s.dev.prot.armed = true →
      s.dev.netOn .b = true →
      pduIn f = some p →
      pduValid p = true →
      fieldBE p 1 1 = 1 →
      s.dev.connOf (fieldBE (pduOf p) 2 4) = some c →
      (s.dev.prot.conns.get c).isOpen = true →
      (s.dev.prot.conns.get c).firsts = [{ net := .a, seq := BitVec.ofNat 16 (fieldBE (pduOf p) 6 2), pdu := q, at? := t }] →
      q ≠ pduOf p →
      Completes (.snDataFrame .b f) s fun e =>
        (e.prot.conns.get c).firsts = [] ∧
        (e.prot.conns.get c).fault = true ∧
        e.bit Reg.prtSnEvents (16 + c.1) = true) ∧
  (∀ (s : State) (net : SafetyNet) (f p : List Byte) (c : Fin 8) (t : Tick),
      s.dev.prot.armed = true →
      s.dev.netOn net = true →
      pduIn f = some p →
      pduValid p = true →
      fieldBE p 1 1 = 1 →
      s.dev.connOf (fieldBE (pduOf p) 2 4) = some c →
      (s.dev.prot.conns.get c).isOpen = true →
      (s.dev.prot.conns.get c).firsts = [{ net := net, seq := BitVec.ofNat 16 (fieldBE (pduOf p) 6 2), pdu := pduOf p, at? := t }] ∨ ((s.dev.prot.conns.get c).firsts = [] ∧ (s.dev.prot.conns.get c).lastSeq = some (BitVec.ofNat 16 (fieldBE (pduOf p) 6 2))) →
      Completes (.snDataFrame net f) s fun e =>
        s.dev.Keeps e []) ∧
  (∀ (s : State) (net : SafetyNet) (f p : List Byte) (c : Fin 8) (l : BitVec 16),
      s.dev.prot.armed = true →
      s.dev.netOn net = true →
      pduIn f = some p →
      pduValid p = true →
      fieldBE p 1 1 = 1 →
      s.dev.connOf (fieldBE (pduOf p) 2 4) = some c →
      (s.dev.prot.conns.get c).isOpen = true →
      (s.dev.prot.conns.get c).firsts = [] →
      (s.dev.prot.conns.get c).lastSeq = some l →
      8 < (BitVec.ofNat 16 (fieldBE (pduOf p) 6 2) - l).toNat →
      Completes (.snDataFrame net f) s fun e =>
        (e.prot.conns.get c).fault = true ∧
        e.bit Reg.prtSnEvents (16 + c.1) = true) ∧
  (∀ (s : State) (net : SafetyNet) (f p : List Byte),
      s.dev.prot.armed = true →
      s.dev.netOn net = true →
      pduIn f = some p →
      pduValid p = true →
      fieldBE p 1 1 = 1 →
      s.dev.connOf (fieldBE (pduOf p) 2 4) = none →
      Completes (.snDataFrame net f) s fun e =>
        e.reg Reg.prtSnUnknown = satWord ((s.dev.reg Reg.prtSnUnknown).toNat + 1) ∧
        e.prot = s.dev.prot ∧
        s.dev.RegsBut e [Reg.prtSnUnknown]) ∧
  (∀ (s : State) (net : SafetyNet) (f : List Byte) (k : Nat) (c : Instr),
      (k = 1 ∧ c = .snDataFrame net f) ∨ (k = 2 ∧ c = .snResetFrame net f) →
      s.dev.prot.armed = false ∨ s.dev.netOn net = false ∨ ((pduIn f).map fun p => pduValid p && fieldBE p 1 1 == k) ≠ some true →
      Completes c s fun e =>
        s.dev.Keeps e []) ∧
  (∀ (s : State) (c : Fin 8) (f : FirstCopy),
      (s.dev.prot.conns.get c).isOpen = true →
      (s.dev.prot.conns.get c).firsts = [f] →
      f.at? + 1000 * s.dev.texpOf c f < s.dev.now →
      Completes (.snSecondCopyTimeout c) s fun e =>
        (e.prot.conns.get c).firsts = [] ∧
        (e.prot.conns.get c).fault = true ∧
        (e.prot.conns.get c).faultAt = s.dev.now ∧
        e.bit Reg.prtSnEvents (16 + c.1) = true) ∧
  (∀ (s : State) (c : Fin 8),
      (s.dev.prot.conns.get c).isOpen = false ∨ ((s.dev.prot.conns.get c).firsts.any fun f => decide (f.at? + 1000 * s.dev.texpOf c f < s.dev.now)) = false →
      Completes (.snSecondCopyTimeout c) s fun e =>
        s.dev.Keeps e []) ∧
  (∀ (s : State) (c : Fin 8),
      (s.dev.prot.conns.get c).isOpen = true →
      (s.dev.prot.conns.get c).lastSeq.isSome = true →
      (s.dev.prot.conns.get c).lastFirst + 1000 * (s.dev.prot.conns.get c).texp < s.dev.now →
      (s.dev.prot.conns.get c).fault = false ∨ (s.dev.prot.conns.get c).faultAt ≤ (s.dev.prot.conns.get c).lastFirst →
      Completes (.snWatchdogExpiry c) s fun e =>
        (e.prot.conns.get c).fault = true ∧
        (e.prot.conns.get c).faultAt = s.dev.now ∧
        e.bit Reg.prtSnEvents (16 + c.1) = true) ∧
  (∀ (s : State) (c : Fin 8),
      (s.dev.prot.conns.get c).isOpen = false ∨ (s.dev.prot.conns.get c).lastSeq = none ∨ s.dev.now ≤ (s.dev.prot.conns.get c).lastFirst + 1000 * (s.dev.prot.conns.get c).texp →
      Completes (.snWatchdogExpiry c) s fun e =>
        s.dev.Keeps e []) ∧
  (∀ (s : State) (c : Fin 8),
      (s.dev.prot.conns.get c).isOpen = true →
      (s.dev.prot.conns.get c).gotPair = false →
      (s.dev.prot.conns.get c).fault = false →
      (s.dev.prot.conns.get c).openedAt + 5000000 < s.dev.now →
      Completes (.snStartTimeout c) s fun e =>
        (e.prot.conns.get c).fault = true ∧
        (e.prot.conns.get c).faultAt = s.dev.now ∧
        e.bit Reg.prtSnEvents (16 + c.1) = true) ∧
  (∀ (s : State) (c : Fin 8),
      (s.dev.prot.conns.get c).isOpen = false ∨ (s.dev.prot.conns.get c).gotPair = true ∨ s.dev.now ≤ (s.dev.prot.conns.get c).openedAt + 5000000 →
      Completes (.snStartTimeout c) s fun e =>
        s.dev.Keeps e []) ∧
  (∀ (s : State),
      s.dev.prot.armed = true →
      s.dev.prot.bootMap = false →
      s.dev.netOn .a = true →
      s.dev.prot.txAt + 1000 * s.dev.settingField Reg.prtXSn 16 8 ≤ s.dev.now ∨ s.dev.prot.sigClosed ≠ s.dev.prot.txSig →
      Completes .snTx s fun e =>
        e.prot.txSeq = s.dev.prot.txSeq + 1 ∧
        e.prot.txAt = s.dev.now ∧
        pduValid e.prot.txPdu = true ∧
        fieldBE e.prot.txPdu 6 2 = (s.dev.prot.txSeq + 1).toNat ∧
        60 ≤ e.prot.txA.length ∧
        e.prot.txB.isEmpty = !s.dev.netOn .b ∧
        s.dev.Keeps e [.prot]) ∧
  (∀ (s : State),
      s.dev.prot.armed = false ∨ s.dev.prot.bootMap = true ∨ (s.dev.netOn .a = false ∧ s.dev.netOn .b = false) ∨ (s.dev.now < s.dev.prot.txAt + 1000 * s.dev.settingField Reg.prtXSn 16 8 ∧ s.dev.prot.sigClosed = s.dev.prot.txSig) →
      Completes .snTx s fun e =>
        s.dev.Keeps e [])

/-- At its poll interval an idle outlet in RUN or ECONOMY asks for an engine in class 2 and one that waits for a credential in class 1; with a session, request, engine, field reset or no reader it asks for none.
A free engine goes to the first request. Of the cards found the one of the lowest UID that is not HALTED is selected; none left ends the transaction; the FCI of a card leads to AUTH1, of a tag round's end without a tag to no card. A transaction that has ended frees its engine;
without a card nothing more; any other result waits for the closure. 250 ms abandon it, field off for 5 ms, its result waiting likewise. A poll request of 2 s becomes class 1. A response before the
command is sent, to a free engine or while it waits for random numbers, and the other commands out of their conditions, change nothing. -/
def Obligations.TagRules : Prop :=
  (∀ (s : State) (n : LinkId),
      (s.dev.link n).tag.pollAt + 1000 * s.dev.pollMs n ≤ s.dev.now →
      s.dev.role n = .outlet →
      s.dev.mode = .run ∨ s.dev.mode = .economy →
      1 ≤ s.dev.tagMode n →
      s.dev.tagMode n ≤ 4 →
      (s.dev.link n).veh.live = false →
      (s.dev.link n).tag.request = none →
      (s.dev.link n).tag.engine = none →
      (s.dev.link n).tag.fieldOff = none →
      (s.dev.link n).veh.state = .idle →
      Completes (.tagPoll n) s fun e =>
        (e.link n).tag = { (s.dev.link n).tag with pollAt := s.dev.now, request := some { cls := 2, admitted := s.dev.now } } ∧
        s.dev.LinksBut e n ∧
        s.dev.Keeps e [.ltag]) ∧
  (∀ (s : State) (n : LinkId),
      (s.dev.link n).tag.pollAt + 1000 * s.dev.pollMs n ≤ s.dev.now →
      s.dev.role n = .outlet →
      s.dev.mode = .run ∨ s.dev.mode = .economy →
      1 ≤ s.dev.tagMode n →
      s.dev.tagMode n ≤ 4 →
      (s.dev.link n).veh.live = false →
      (s.dev.link n).tag.request = none →
      (s.dev.link n).tag.engine = none →
      (s.dev.link n).tag.fieldOff = none →
      (s.dev.link n).veh.state ∈ [.plugged, .matching, .setup, .authorizing] →
      (s.dev.link n).veh.held = none →
      Completes (.tagPoll n) s fun e =>
        (e.link n).tag = { (s.dev.link n).tag with pollAt := s.dev.now, request := some { cls := 1, admitted := s.dev.now } } ∧
        s.dev.LinksBut e n ∧
        s.dev.Keeps e [.ltag]) ∧
  (∀ (s : State) (n : LinkId),
      (s.dev.link n).tag.pollAt + 1000 * s.dev.pollMs n ≤ s.dev.now →
      s.dev.role n ≠ .outlet ∨ (s.dev.mode ≠ .run ∧ s.dev.mode ≠ .economy) ∨ s.dev.tagMode n = 0 ∨ (s.dev.link n).veh.live = true ∨ (s.dev.link n).tag.request.isSome = true ∨ (s.dev.link n).tag.engine.isSome = true ∨ (s.dev.link n).tag.fieldOff.isSome = true →
      Completes (.tagPoll n) s fun e =>
        (e.link n).tag = { (s.dev.link n).tag with pollAt := s.dev.now } ∧
        s.dev.LinksBut e n ∧
        s.dev.Keeps e [.ltag]) ∧
  (∀ (s : State) (n : LinkId),
      s.dev.now < (s.dev.link n).tag.pollAt + 1000 * s.dev.pollMs n →
      Completes (.tagPoll n) s fun e =>
        s.dev.Keeps e []) ∧
  (∀ (s : State) (x : Fin 24) (n : LinkId) (r : TagRequest),
      s.dev.engines.get x = none →
      s.dev.firstRequest (uhfEngine x) = some (n, r) →
      uhfEngine x = false ∨ s.dev.sec.rng = .healthy →
      Completes (.tagEngineGrant x) s fun e =>
        (e.link n).tag.request = none ∧
        (e.link n).tag.engine = some x ∧
        ((e.engines.get x).map fun t => (t.link, t.cls, t.granted, t.step)) = some (n, r.cls, s.dev.now, if uhfEngine x then .round else .anticollision) ∧
        s.dev.LinksBut e n ∧
        s.dev.RegsBut e []) ∧
  (∀ (s : State) (x : Fin 24),
      (s.dev.engines.get x).isSome = true ∨ s.dev.firstRequest (uhfEngine x) = none →
      Completes (.tagEngineGrant x) s fun e =>
        s.dev.Keeps e []) ∧
  (∀ (s : State) (x : Fin 24) (t : TagTransaction) (us : List (List Byte)) (u : List Byte),
      s.dev.engines.get x = some t →
      x.1 < 16 →
      t.sendAt ≤ s.dev.now →
      t.step = .anticollision →
      lowestUid ((us.filter fun u => !((s.dev.link t.link).tag.halted.filter us.contains).contains u)) = some u →
      Completes (.airResponse x (.uids us)) s fun e =>
        ((e.engines.get x).map fun r => (r.step, r.uid, r.link)) = some (.fci, u, t.link) ∧
        (e.link t.link).tag.uid = u ∧
        s.dev.LinksBut e t.link ∧
        s.dev.RegsBut e []) ∧
  (∀ (s : State) (x : Fin 24) (t : TagTransaction) (us : List (List Byte)),
      s.dev.engines.get x = some t →
      x.1 < 16 →
      t.sendAt ≤ s.dev.now →
      t.step = .anticollision →
      lowestUid ((us.filter fun u => !((s.dev.link t.link).tag.halted.filter us.contains).contains u)) = none →
      Completes (.airResponse x (.uids us)) s fun e =>
        ((e.engines.get x).map fun r => (r.step, r.outcome)) = some (.done, some .noCard) ∧
        (e.link t.link).tag.uid = [] ∧
        s.dev.LinksBut e t.link ∧
        s.dev.RegsBut e []) ∧
  (∀ (s : State) (x : Fin 24) (t : TagTransaction),
      s.dev.engines.get x = some t →
      x.1 < 16 →
      t.sendAt ≤ s.dev.now →
      t.step = .anticollision →
      Completes (.airResponse x .none) s fun e =>
        ((e.engines.get x).map fun r => (r.step, r.outcome)) = some (.done, some .noCard) ∧
        (e.link t.link).tag.card = .none ∧
        (e.link t.link).tag.uid = [] ∧
        (e.link t.link).tag.halted = [] ∧
        s.dev.LinksBut e t.link ∧
        s.dev.RegsBut e []) ∧
  (∀ (s : State) (x : Fin 24) (t : TagTransaction) (tn : BitVec 16) (k : Byte),
      s.dev.engines.get x = some t →
      x.1 < 16 →
      t.sendAt ≤ s.dev.now →
      t.step = .fci →
      s.dev.configRefusal .card tn.toNat = none →
      s.dev.sec.rng ≠ .failed →
      s.dev.seeded tn.toNat = true →
      Completes (.airResponse x (.fci tn k)) s fun e =>
        ((e.engines.get x).map fun r => (r.step, r.sent, r.tenant, r.keyVer)) = some (.auth1, .auth1, tn, k) ∧
        (e.link t.link).tag.card = .opened ∧
        s.dev.LinksBut e t.link ∧
        s.dev.RegsBut e []) ∧
  (∀ (s : State) (x : Fin 24) (t : TagTransaction) (tn : BitVec 16) (k : Byte) (code : Nat),
      s.dev.engines.get x = some t →
      x.1 < 16 →
      t.sendAt ≤ s.dev.now →
      t.step = .fci →
      s.dev.configRefusal .card tn.toNat = some code →
      Completes (.airResponse x (.fci tn k)) s fun e =>
        ((e.engines.get x).map fun r => (r.step, r.outcome)) = some (.done, some (.refused code tn)) ∧
        s.dev.LinksBut e t.link ∧
        s.dev.RegsBut e []) ∧
  (∀ (s : State) (x : Fin 24) (t : TagTransaction),
      s.dev.engines.get x = some t →
      16 ≤ x.1 →
      t.sendAt ≤ s.dev.now →
      t.step = .round →
      t.found = [] →
      t.failed = [] →
      Completes (.airResponse x .none) s fun e =>
        ((e.engines.get x).map fun r => (r.step, r.outcome)) = some (.done, some .noCard) ∧
        (∀ n, e.link n = s.dev.link n) ∧
        s.dev.RegsBut e []) ∧
  (∀ (s : State) (x : Fin 24) (a : AirAnswer),
      ((s.dev.engines.get x).map fun t => decide (t.sendAt ≤ s.dev.now) && decide (t.step ≠ .held) && decide (t.step ≠ .done)) ≠ some true →
      Completes (.airResponse x a) s fun e =>
        s.dev.Keeps e []) ∧
  (∀ (s : State) (x : Fin 24) (t : TagTransaction),
      s.dev.engines.get x = some t →
      t.outcome = some .noCard →
      Completes (.tagTransactionEnd x) s fun e =>
        e.engines.get x = none ∧
        (e.link t.link).tag.engine = none ∧
        e.commits = s.dev.commits ∧
        s.dev.LinksBut e t.link ∧
        s.dev.RegsBut e []) ∧
  (∀ (s : State) (x : Fin 24) (t : TagTransaction) (r : TagOutcome),
      s.dev.engines.get x = some t →
      t.outcome = some r →
      r ≠ .noCard →
      Completes (.tagTransactionEnd x) s fun e =>
        e.engines.get x = none ∧
        (e.link t.link).tag.engine = none ∧
        e.commits = s.dev.commits ++ [(commitKey (4 * t.link.1 + 2) 0, .tagResult t.link (if uhfEngine x then .tag else .card) r)] ∧
        s.dev.LinksBut e t.link ∧
        s.dev.RegsBut e []) ∧
  (∀ (s : State) (x : Fin 24),
      (s.dev.engines.get x).bind TagTransaction.outcome = none →
      Completes (.tagTransactionEnd x) s fun e =>
        s.dev.Keeps e []) ∧
  (∀ (s : State) (x : Fin 24) (t : TagTransaction),
      s.dev.engines.get x = some t →
      t.granted + 250000 ≤ s.dev.now →
      Completes (.tagEngineTimeout x) s fun e =>
        e.engines.get x = none ∧
        (e.link t.link).tag.engine = none ∧
        (e.link t.link).tag.fieldOff = some (s.dev.now + 5000) ∧
        (e.link t.link).tag.card = .none ∧
        e.bit Reg.tagEvents 4 = true ∧
        e.commits = s.dev.commits ++ [(commitKey (4 * t.link.1 + 2) 0, .tagResult t.link (if uhfEngine x then .tag else .card) (.timeout t.named))] ∧
        s.dev.LinksBut e t.link ∧
        s.dev.RegsBut e [Reg.tagEvents]) ∧
  (∀ (s : State) (x : Fin 24),
      ((s.dev.engines.get x).map fun t => decide (t.granted + 250000 ≤ s.dev.now)) ≠ some true →
      Completes (.tagEngineTimeout x) s fun e =>
        s.dev.Keeps e []) ∧
  (∀ (s : State) (n : LinkId) (r : TagRequest),
      (s.dev.link n).tag.request = some r →
      r.cls = 2 →
      r.admitted + 2000000 ≤ s.dev.now →
      Completes (.tagPollPromote n) s fun e =>
        (e.link n).tag = { (s.dev.link n).tag with request := some { r with cls := 1 } } ∧
        s.dev.LinksBut e n ∧
        s.dev.Keeps e [.ltag]) ∧
  (∀ (s : State) (n : LinkId),
      ((s.dev.link n).tag.request.map fun r => decide (r.cls = 2 ∧ r.admitted + 2000000 ≤ s.dev.now)) ≠ some true →
      Completes (.tagPollPromote n) s fun e =>
        s.dev.Keeps e []) ∧
  (∀ (s : State) (n : LinkId) (t : Tick),
      (s.dev.link n).tag.fieldOff = some t →
      t ≤ s.dev.now →
      Completes (.fieldResetEnd n) s fun e =>
        (e.link n).tag = { (s.dev.link n).tag with fieldOff := none } ∧
        s.dev.LinksBut e n ∧
        s.dev.Keeps e [.ltag]) ∧
  (∀ (s : State) (n : LinkId),
      ((s.dev.link n).tag.fieldOff.map fun t => decide (t ≤ s.dev.now)) ≠ some true →
      Completes (.fieldResetEnd n) s fun e =>
        s.dev.Keeps e [])

/-- A field is counted, sets its bit and is a wake cause where PWR_WAKE_CFG lets it; its loss ends the secured state and empties a mailbox the field owned. READ_SUMMARY and READ_LASTWORD answer in the open state: a
parameter that names no link or entry 6A86, a link's summary while the core does not record 6985. AUTH1 answers with a challenge (log entry 17), waits while the RNG restarts, and is refused 6985 after
three failures, without a seed of tenant 0 or with a failed RNG; AUTH2 secures the exchange that AUTH1 began or is counted a failure, 6982, and unasked is 6985. READ_EVENT answers in the secured state alone: a message that fails its
tag, or 60 s without a command, ends that state, and an unknown record is 6A86. In the secured state summaries, last words and AUTH are 6982. Without a field no command changes anything. -/
def Obligations.ServiceTagRules : Prop :=
  (∀ (s : State),
      s.dev.svc.state = .noField →
      s.dev.bit Reg.pwrWakeCfg 8 = false →
      Completes .serviceFieldPresent s fun e =>
        e.svc.state = .field ∧
        e.svc.fails = 0 ∧
        e.svc.lastCmd = s.dev.now ∧
        e.reg Reg.tagSvcCnt = satWord ((s.dev.reg Reg.tagSvcCnt).toNat + 1) ∧
        e.bit Reg.tagSvcEvents 0 = true ∧
        e.power = s.dev.power ∧
        s.dev.RegsBut e [Reg.tagSvcCnt, Reg.tagSvcEvents]) ∧
  (∀ (s : State),
      s.dev.svc.state = .noField →
      s.dev.bit Reg.pwrWakeCfg 8 = true →
      s.dev.mode = .dormant →
      s.dev.power.entering = false →
      Completes .serviceFieldPresent s fun e =>
        e.svc.state = .field ∧
        e.power = { s.dev.power with waking := s.dev.power.waking.or (some .serviceField) }) ∧
  (∀ (s : State),
      s.dev.svc.state ≠ .noField →
      Completes .serviceFieldPresent s fun e =>
        s.dev.Keeps e []) ∧
  (∀ (s : State),
      s.dev.svc.state ≠ .noField →
      s.dev.svc.owner = .field →
      Completes .serviceFieldLost s fun e =>
        e.svc.state = .noField ∧
        e.svc.ks = [] ∧
        e.svc.rndB = none ∧
        e.svc.owner = .none ∧
        e.svc.fill = .empty ∧
        e.bit Reg.tagSvcEvents 5 = true ∧
        e.reg (Reg.tagSvcMbxData 0) = 0) ∧
  (∀ (s : State),
      s.dev.svc.owner ≠ .field →
      Completes .serviceFieldLost s fun e =>
        e.svc.state = .noField ∧
        e.svc.ks = [] ∧
        e.svc.rndB = none ∧
        e.svc.owner = s.dev.svc.owner ∧
        e.svc.fill = s.dev.svc.fill ∧
        s.dev.RegsBut e []) ∧
  (∀ (s : State),
      s.dev.svc.state = .field ∨ s.dev.svc.state = .opened →
      Completes (.svcReadSummary 0xFFFF) s fun e =>
        e.svc.sw = 0x9000 ∧
        e.svc.state = .opened ∧
        e.svc.lastCmd = s.dev.now ∧
        e.svc.resp = serialBytes ++ bytesBE 4 (s.dev.reg Reg.pwrCycles).toNat ++ bytesBE 4 (s.dev.reg Reg.pwrOpSeconds).toNat ++ bytesBE 4 (s.dev.reg Reg.bilSealCnt).toNat ++ [(match s.dev.bill.sealState with | .closed => 0 | .opened => 1 | .fault => 2 : Byte)] ++ [BitVec.ofNat 8 s.dev.mode.code] ++ bytesBE 8 (if s.dev.pacer.calSet then s.dev.pacer.cal else 0) ∧
        s.dev.RegsBut e []) ∧
  (∀ (s : State) (n : LinkId) (p : BitVec 16),
      s.dev.svc.state = .opened →
      linkOfNat p.toNat = some n →
      s.dev.recording = true →
      Completes (.svcReadSummary p) s fun e =>
        e.svc.sw = 0x9000 ∧
        e.svc.resp = bytesBE 8 (s.dev.link n).bill.impMwh ++ bytesBE 8 (s.dev.link n).bill.expMwh ++ bytesBE 4 (s.dev.reg (Reg.metCalCrc n)).toNat ++ [if s.dev.sessionLive n then 1 else 0] ∧
        s.dev.RegsBut e []) ∧
  (∀ (s : State) (p : BitVec 16),
      s.dev.svc.state = .opened →
      p ≠ 0xFFFF →
      linkOfNat p.toNat = none →
      Completes (.svcReadSummary p) s fun e =>
        e.svc.sw = 0x6A86 ∧
        e.svc.resp = [] ∧
        e.svc.state = s.dev.svc.state ∧
        s.dev.RegsBut e []) ∧
  (∀ (s : State) (n : LinkId) (p : BitVec 16),
      s.dev.svc.state = .opened →
      linkOfNat p.toNat = some n →
      s.dev.recording = false →
      Completes (.svcReadSummary p) s fun e =>
        e.svc.sw = 0x6985 ∧
        e.svc.resp = [] ∧
        e.svc.state = s.dev.svc.state ∧
        s.dev.RegsBut e []) ∧
  (∀ (s : State) (i : Byte),
      s.dev.svc.state = .field ∨ s.dev.svc.state = .opened →
      i.toNat ≤ 15 →
      Completes (.svcReadLastword i) s fun e =>
        e.svc.sw = 0x9000 ∧
        e.svc.resp = s.dev.mem.lwBytes i.toNat ∧
        e.svc.state = .opened ∧
        s.dev.RegsBut e []) ∧
  (∀ (s : State) (i : Byte),
      s.dev.svc.state = .opened →
      15 < i.toNat →
      Completes (.svcReadLastword i) s fun e =>
        e.svc.sw = 0x6A86 ∧
        e.svc.resp = [] ∧
        e.svc.state = s.dev.svc.state ∧
        s.dev.RegsBut e []) ∧
  (∀ (s : State),
      s.dev.svc.state = .opened →
      s.dev.recording = true →
      s.dev.svc.fails < 3 →
      (s.dev.tenants.get 0).root.seedOn = true →
      s.dev.sec.rng = .healthy →
      Completes .svcAuth1 s fun e =>
        e.svc.sw = 0x9000 ∧
        e.svc.rndB = some (Config.randomBytes s.dev.fresh 16) ∧
        e.svc.state = .opened) ∧
  (∀ (s : State),
      s.dev.svc.state = .opened →
      s.dev.recording = true →
      s.dev.svc.fails < 3 →
      (s.dev.tenants.get 0).root.seedOn = true →
      s.dev.sec.rng = .restarting ∨ s.dev.sec.rng = .startup →
      Completes .svcAuth1 s fun e =>
        e.sec.rngWaits.contains .svcAuth1 = true ∧
        e.svc = s.dev.svc ∧
        s.dev.Keeps e [.sec]) ∧
  (∀ (s : State),
      s.dev.svc.state = .opened →
      3 ≤ s.dev.svc.fails ∨ (s.dev.tenants.get 0).root.seedOn = false ∨ s.dev.sec.rng = .failed ∨ s.dev.recording = false →
      Completes .svcAuth1 s fun e =>
        e.svc.sw = 0x6985 ∧
        e.svc.resp = [] ∧
        e.svc.state = s.dev.svc.state ∧
        s.dev.RegsBut e [] ∧
        e.svc.rndB = s.dev.svc.rndB) ∧
  (∀ (s : State) (nonce sealedText rndB : List Byte),
      s.dev.svc.state = .opened →
      s.dev.recording = true →
      s.dev.svc.rndB = some rndB →
      rndB.length = 16 →
      Completes (.svcAuth2 nonce sealedText) s fun e =>
        ((∃ rndA, rndA.length = 16 ∧ Config.gcm128Open s.dev.serviceKey nonce sealedText = some (rndA ++ rndB)) → e.svc.state = .secured ∧ e.svc.sw = 0x9000 ∧ e.svc.txCount = 0 ∧ e.svc.rxCount = 0 ∧ e.bit Reg.tagSvcEvents 1 = true) ∧
        ((¬ ∃ rndA, rndA.length = 16 ∧ Config.gcm128Open s.dev.serviceKey nonce sealedText = some (rndA ++ rndB)) → e.svc.state = .opened ∧ e.svc.sw = 0x6982 ∧ e.svc.fails = s.dev.svc.fails + 1 ∧ e.bit Reg.tagSvcEvents 2 = true) ∧
        e.svc.rndB = none) ∧
  (∀ (s : State) (nonce sealedText : List Byte),
      s.dev.svc.state = .opened →
      s.dev.svc.rndB = none ∨ s.dev.recording = false →
      Completes (.svcAuth2 nonce sealedText) s fun e =>
        e.svc.sw = 0x6985 ∧
        e.svc.resp = [] ∧
        e.svc.state = s.dev.svc.state ∧
        s.dev.RegsBut e []) ∧
  (∀ (s : State) (q : BitVec 64),
      s.dev.svc.state = .secured →
      (s.dev.recorder.ring.find? fun x => x.entry.seq == q.toNat) = none →
      Completes (.svcReadEvent q true) s fun e =>
        e.svc.sw = 0x6A86 ∧
        e.svc.resp = [] ∧
        e.svc.state = s.dev.svc.state ∧
        s.dev.RegsBut e []) ∧
  (∀ (s : State) (q : BitVec 64),
      s.dev.svc.state = .secured →
      (s.dev.recorder.ring.any fun x => x.entry.seq == q.toNat) = true →
      Completes (.svcReadEvent q true) s fun e =>
        e.svc.sw = 0x9000 ∧
        e.svc.state = .secured ∧
        e.svc.txCount = s.dev.svc.txCount + 1 ∧
        e.svc.rxCount = s.dev.svc.rxCount + 1 ∧
        s.dev.RegsBut e []) ∧
  (∀ (s : State) (q : BitVec 64),
      s.dev.svc.state = .secured →
      Completes (.svcReadEvent q false) s fun e =>
        e.svc.sw = 0x6982 ∧
        e.svc.resp = [] ∧
        e.svc.state = .opened ∧
        e.svc.ks = [] ∧
        s.dev.RegsBut e []) ∧
  (∀ (s : State) (q : BitVec 64) (ok : Bool),
      s.dev.svc.state = .opened →
      Completes (.svcReadEvent q ok) s fun e =>
        e.svc.sw = 0x6982 ∧
        e.svc.resp = [] ∧
        e.svc.state = s.dev.svc.state ∧
        s.dev.RegsBut e []) ∧
  (∀ (s : State) (p : BitVec 16) (i : Byte) (a b : List Byte) (c : Instr),
      s.dev.svc.state = .secured →
      c ∈ [.svcReadSummary p, .svcReadLastword i, .svcAuth1, .svcAuth2 a b] →
      Completes c s fun e =>
        e.svc.sw = 0x6982 ∧
        e.svc.resp = [] ∧
        e.svc.state = s.dev.svc.state ∧
        s.dev.RegsBut e []) ∧
  (∀ (s : State),
      s.dev.svc.state = .secured →
      s.dev.svc.lastCmd + 60000000 ≤ s.dev.now →
      Completes .svcSecureTimeout s fun e =>
        e.svc.state = .opened ∧
        e.svc.ks = [] ∧
        e.svc.rndB = none ∧
        e.svc.txCount = 0 ∧
        s.dev.Keeps e [.svc]) ∧
  (∀ (s : State),
      s.dev.svc.state ≠ .secured ∨ s.dev.now < s.dev.svc.lastCmd + 60000000 →
      Completes .svcSecureTimeout s fun e =>
        s.dev.Keeps e []) ∧
  (∀ (s : State) (p : BitVec 16) (i j : Byte) (a b : List Byte) (q : BitVec 64) (ok : Bool) (c : Instr),
      s.dev.svc.state = .noField →
      c ∈ [.svcReadSummary p, .svcReadLastword i, .svcAuth1, .svcAuth2 a b, .svcReadEvent q ok, .svcMbxAcquire, .svcMbxWrite i a ok, .svcMbxRead i j, .svcMbxPost i, .svcMbxRelease, .svcMbxCancel] →
      Completes c s fun e =>
        s.dev.Keeps e [])

/-- In the open state the field, and in any state with the core recording the wire, works on the mailbox: the side that acquires an empty one owns it; the field wins over a wire within one period of 32.768 kHz (30 whole ticks), with
MBX_COLLISION; the owner alone writes; POST hands the message to the other side, RELEASE of the side addressed and CANCEL of the writer empty it; a wire owner that does not post within 1 s loses it with
its content. Out of its turn a command of the field answers 6985 and a word of the wire is ignored; an offset or length out of range is 6A86. In the secured state a write that fails its tag ends that state. HOST_TENANT_LOCK locks a tenant, once; a number above 1,023 names none,
and without a recording core nothing is locked. -/
def Obligations.MailboxRules : Prop :=
  (∀ (s : State),
      s.dev.svc.state = .opened →
      s.dev.svc.owner = .none →
      s.dev.svc.fill = .empty →
      Completes .svcMbxAcquire s fun e =>
        e.svc.owner = .field ∧
        e.svc.acqAt = some s.dev.now ∧
        e.svc.sw = 0x9000 ∧
        e.svc.resp = [] ∧
        s.dev.RegsBut e []) ∧
  (∀ (s : State) (t : Tick),
      s.dev.svc.state = .opened →
      s.dev.svc.owner = .wire →
      s.dev.svc.fill = .empty →
      s.dev.svc.acqAt = some t →
      s.dev.now ≤ t + 30 →
      Completes .svcMbxAcquire s fun e =>
        e.svc.owner = .field ∧
        e.svc.acqAt = some s.dev.now ∧
        e.svc.sw = 0x9000 ∧
        e.bit Reg.tagSvcEvents 4 = true ∧
        s.dev.RegsBut e [Reg.tagSvcEvents]) ∧
  (∀ (s : State),
      s.dev.svc.state = .opened →
      s.dev.svc.owner = .field ∨ s.dev.svc.fill ≠ .empty ∨ (s.dev.svc.owner = .wire ∧ (s.dev.svc.acqAt.map fun t => decide (s.dev.now ≤ t + 30)) ≠ some true) →
      Completes .svcMbxAcquire s fun e =>
        e.svc.sw = 0x6985 ∧
        e.svc.resp = [] ∧
        e.svc.state = s.dev.svc.state ∧
        s.dev.RegsBut e [] ∧
        e.svc.owner = s.dev.svc.owner) ∧
  (∀ (s : State) (p : Byte) (data : List Byte) (ok : Bool),
      s.dev.svc.state = .opened →
      s.dev.svc.owner = .field →
      4 * p.toNat + data.length ≤ 256 →
      data.length ≤ 128 →
      Completes (.svcMbxWrite p data ok) s fun e =>
        e.svc.sw = 0x9000 ∧
        (∀ i, i < 64 → e.reg (Reg.tagSvcMbxData i) = (wordsLE (padTo 256 (patch s.dev.mbxBytes (4 * p.toNat) data))).getD i 0)) ∧
  (∀ (s : State) (p : Byte) (data : List Byte),
      s.dev.svc.state = .opened →
      s.dev.svc.owner ≠ .field →
      Completes (.svcMbxWrite p data true) s fun e =>
        e.svc.sw = 0x6985 ∧
        e.svc.resp = [] ∧
        e.svc.state = s.dev.svc.state ∧
        s.dev.RegsBut e []) ∧
  (∀ (s : State) (p : Byte) (data : List Byte),
      s.dev.svc.state = .opened →
      s.dev.svc.owner = .field →
      256 < 4 * p.toNat + data.length ∨ 128 < data.length →
      Completes (.svcMbxWrite p data true) s fun e =>
        e.svc.sw = 0x6A86 ∧
        e.svc.resp = [] ∧
        e.svc.state = s.dev.svc.state ∧
        s.dev.RegsBut e []) ∧
  (∀ (s : State) (p : Byte) (data : List Byte),
      s.dev.svc.state = .secured →
      Completes (.svcMbxWrite p data false) s fun e =>
        e.svc.sw = 0x6982 ∧
        e.svc.state = .opened ∧
        e.svc.ks = [] ∧
        s.dev.RegsBut e []) ∧
  (∀ (s : State) (p le : Byte),
      s.dev.svc.state = .opened →
      4 * p.toNat + le.toNat ≤ 256 →
      le.toNat ≤ 128 →
      Completes (.svcMbxRead p le) s fun e =>
        e.svc.sw = 0x9000 ∧
        e.svc.resp = slice s.dev.mbxBytes (4 * p.toNat) le.toNat ∧
        s.dev.RegsBut e []) ∧
  (∀ (s : State) (p le : Byte),
      s.dev.svc.state = .opened →
      256 < 4 * p.toNat + le.toNat ∨ 128 < le.toNat →
      Completes (.svcMbxRead p le) s fun e =>
        e.svc.sw = 0x6A86 ∧
        e.svc.resp = [] ∧
        e.svc.state = s.dev.svc.state ∧
        s.dev.RegsBut e []) ∧
  (∀ (s : State) (p : Byte),
      s.dev.svc.state = .opened →
      s.dev.svc.owner = .field →
      1 ≤ p.toNat →
      p.toNat ≤ 128 →
      Completes (.svcMbxPost p) s fun e =>
        e.svc.owner = .none ∧
        e.svc.fill = .forWire ∧
        e.svc.len = 2 * p.toNat ∧
        e.svc.sw = 0x9000 ∧
        e.bit Reg.tagSvcEvents 3 = true ∧
        s.dev.RegsBut e [Reg.tagSvcEvents]) ∧
  (∀ (s : State) (p : Byte),
      s.dev.svc.state = .opened →
      s.dev.svc.owner = .field →
      p.toNat = 0 ∨ 128 < p.toNat →
      Completes (.svcMbxPost p) s fun e =>
        e.svc.sw = 0x6A86 ∧
        e.svc.resp = [] ∧
        e.svc.state = s.dev.svc.state ∧
        s.dev.RegsBut e [] ∧
        e.svc.owner = .field) ∧
  (∀ (s : State) (p : Byte),
      s.dev.svc.state = .opened →
      s.dev.svc.owner ≠ .field →
      Completes (.svcMbxPost p) s fun e =>
        e.svc.sw = 0x6985 ∧
        e.svc.resp = [] ∧
        e.svc.state = s.dev.svc.state ∧
        s.dev.RegsBut e []) ∧
  (∀ (s : State),
      s.dev.svc.state = .opened →
      s.dev.svc.fill = .forField →
      Completes .svcMbxRelease s fun e =>
        e.svc.fill = .empty ∧
        e.svc.len = 0 ∧
        e.svc.sw = 0x9000 ∧
        s.dev.RegsBut e []) ∧
  (∀ (s : State),
      s.dev.svc.state = .opened →
      s.dev.svc.fill ≠ .forField →
      Completes .svcMbxRelease s fun e =>
        e.svc.sw = 0x6985 ∧
        e.svc.resp = [] ∧
        e.svc.state = s.dev.svc.state ∧
        s.dev.RegsBut e [] ∧
        e.svc.fill = s.dev.svc.fill) ∧
  (∀ (s : State),
      s.dev.svc.state = .opened →
      s.dev.svc.fill = .forWire →
      Completes .svcMbxCancel s fun e =>
        e.svc.fill = .empty ∧
        e.svc.len = 0 ∧
        e.svc.sw = 0x9000 ∧
        s.dev.RegsBut e []) ∧
  (∀ (s : State),
      s.dev.svc.state = .opened →
      s.dev.svc.fill ≠ .forWire →
      Completes .svcMbxCancel s fun e =>
        e.svc.sw = 0x6985 ∧
        e.svc.resp = [] ∧
        e.svc.state = s.dev.svc.state ∧
        s.dev.RegsBut e [] ∧
        e.svc.fill = s.dev.svc.fill) ∧
  (∀ (s : State),
      s.dev.recording = true →
      s.dev.svc.owner = .none →
      s.dev.svc.fill = .empty →
      Completes .wireMbxAcquire s fun e =>
        e.svc = { s.dev.svc with owner := .wire, acqAt := some s.dev.now, wrote := none } ∧
        s.dev.Keeps e [.svc]) ∧
  (∀ (s : State) (t : Tick),
      s.dev.recording = true →
      s.dev.svc.owner = .field →
      s.dev.svc.fill = .empty →
      s.dev.svc.acqAt = some t →
      s.dev.now ≤ t + 30 →
      Completes .wireMbxAcquire s fun e =>
        e.svc = s.dev.svc ∧
        e.bit Reg.tagSvcEvents 4 = true ∧
        s.dev.RegsBut e [Reg.tagSvcEvents]) ∧
  (∀ (s : State) (l : BitVec 9),
      s.dev.recording = true →
      s.dev.svc.owner = .wire →
      1 ≤ l.toNat →
      l.toNat ≤ 255 →
      Completes (.wireMbxPost l) s fun e =>
        e.svc = { s.dev.svc with owner := .none, fill := .forField, len := l.toNat + 1, secured := false, acqAt := none } ∧
        s.dev.Keeps e [.svc]) ∧
  (∀ (s : State),
      s.dev.recording = true →
      s.dev.svc.fill = .forWire →
      Completes .wireMbxRelease s fun e =>
        e.svc = { s.dev.svc with fill := .empty, len := 0, secured := false } ∧
        s.dev.Keeps e [.svc]) ∧
  (∀ (s : State),
      s.dev.recording = true →
      s.dev.svc.fill = .forField →
      Completes .wireMbxCancel s fun e =>
        e.svc = { s.dev.svc with fill := .empty, len := 0, secured := false } ∧
        s.dev.Keeps e [.svc]) ∧
  (∀ (s : State) (i : Fin 64) (w : Word),
      s.dev.recording = true →
      s.dev.svc.owner = .wire →
      Completes (.wireMbxDataWrite i w) s fun e =>
        e.reg (Reg.tagSvcMbxData i) = w ∧
        e.svc = s.dev.svc ∧
        s.dev.RegsBut e [Reg.tagSvcMbxData i]) ∧
  (∀ (s : State) (i : Fin 64) (w : Word) (l : BitVec 9) (c : Instr),
      s.dev.recording = false ∨ (s.dev.svc.owner = .none ∧ s.dev.svc.fill ≠ .forWire ∧ s.dev.svc.fill ≠ .forField ∧ c ≠ .wireMbxAcquire) →
      c ∈ [.wireMbxAcquire, .wireMbxPost l, .wireMbxRelease, .wireMbxCancel, .wireMbxDataWrite i w] →
      Completes c s fun e =>
        s.dev.Keeps e []) ∧
  (∀ (s : State) (i : Fin 64) (w : Word),
      s.dev.svc.owner ≠ .wire →
      Completes (.wireMbxDataWrite i w) s fun e =>
        s.dev.Keeps e []) ∧
  (∀ (s : State) (t : Tick),
      s.dev.svc.owner = .wire →
      s.dev.svc.acqAt = some t →
      t + 1000000 ≤ s.dev.now →
      Completes .wireMbxTimeout s fun e =>
        e.svc.owner = .none ∧
        e.svc.fill = .empty ∧
        e.bit Reg.tagSvcEvents 5 = true ∧
        (∀ i, i < 64 → e.reg (Reg.tagSvcMbxData i) = 0)) ∧
  (∀ (s : State),
      s.dev.svc.owner ≠ .wire ∨ (s.dev.svc.acqAt.map fun t => decide (t + 1000000 ≤ s.dev.now)) ≠ some true →
      Completes .wireMbxTimeout s fun e =>
        s.dev.Keeps e []) ∧
  (∀ (s : State) (t : BitVec 10) (u : TenantId),
      s.dev.recording = true →
      tenantOfNat t.toNat = some u →
      u ∉ s.dev.locked →
      Completes (.hostTenantLock t) s fun e =>
        e.locked = s.dev.locked ++ [u] ∧
        s.dev.Keeps e [.locked]) ∧
  (∀ (s : State) (t : BitVec 10),
      s.dev.recording = false ∨ ((tenantOfNat t.toNat).map fun u => decide (u ∈ s.dev.locked)) ≠ some false →
      Completes (.hostTenantLock t) s fun e =>
        s.dev.Keeps e [])

/-- A command of SEC_CMD is taken, and its register written, when none runs: enrolment with the head-end, where the image allows it, else result 7, and with the vendor; both and a rotation with result 12 while the RNG is declared failed; a rotation of
the root in MAINTENANCE with the seal open, waiting while the RNG restarts, elsewhere a violation that leaves the vault as it is; a restart of a failed RNG, else result 1 at once; the chain of the SECC. While one runs another is not taken. A submission takes the object of a slot that is
not busy, and the object's result is due later, an attestation not running takes the challenge and the mode; else they change nothing. A read of SEC_VIOL_CAUSE arms it again, a write of 0 clears SEC_WAIT_MAX, another value does not. While the core does not run
none of them changes anything. -/
def Obligations.SecurityCommands : Prop :=
  (∀ (s : State),
      s.dev.recording = true →
      s.dev.sec.cmdBusy = false →
      s.dev.bit Reg.secCfg 0 = true →
      s.dev.sec.rng ≠ .failed →
      Completes .enrolHe s fun e =>
        e.sec.cmd = 1 ∧
        e.sec.cmdBusy = true ∧
        e.sec.cmdResult = 0 ∧
        e.sec.working .enrol = true ∧
        e.reg Reg.secCmd = 1) ∧
  (∀ (s : State),
      s.dev.recording = true →
      s.dev.sec.cmdBusy = false →
      s.dev.bit Reg.secCfg 0 = false →
      Completes .enrolHe s fun e =>
        e.sec.cmd = 1 ∧
        e.sec.cmdBusy = false ∧
        e.sec.cmdResult = 7 ∧
        e.reg Reg.secCmd = 1 ∧
        s.dev.RegsBut e [Reg.secCmd]) ∧
  (∀ (s : State),
      s.dev.recording = true →
      s.dev.sec.cmdBusy = false →
      s.dev.bit Reg.secCfg 0 = true →
      s.dev.sec.rng = .failed →
      Completes .enrolHe s fun e =>
        e.sec.cmd = 1 ∧
        e.sec.cmdBusy = false ∧
        e.sec.cmdResult = 12 ∧
        e.reg Reg.secCmd = 1 ∧
        s.dev.RegsBut e [Reg.secCmd]) ∧
  (∀ (s : State),
      s.dev.recording = true →
      s.dev.sec.cmdBusy = false →
      s.dev.sec.rng ≠ .failed →
      Completes .enrolVendor s fun e =>
        e.sec.cmd = 2 ∧
        e.sec.cmdBusy = true ∧
        e.sec.cmdResult = 0 ∧
        e.sec.working .enrol = true ∧
        e.reg Reg.secCmd = 2) ∧
  (∀ (s : State),
      s.dev.recording = true →
      s.dev.sec.cmdBusy = false →
      s.dev.sec.rng = .failed →
      Completes .enrolVendor s fun e =>
        e.sec.cmd = 2 ∧
        e.sec.cmdBusy = false ∧
        e.sec.cmdResult = 12 ∧
        e.reg Reg.secCmd = 2 ∧
        s.dev.RegsBut e [Reg.secCmd]) ∧
  (∀ (s : State),
      s.dev.mode = .maintenance →
      s.dev.bill.sealOpen = true →
      s.dev.sec.cmdBusy = false →
      s.dev.sec.rng = .healthy →
      Completes .rotateRoot s fun e =>
        e.sec.cmd = 3 ∧
        e.sec.cmdBusy = true ∧
        e.sec.cmdResult = 0 ∧
        e.sec.working .drkTest = true ∧
        e.reg Reg.secCmd = 3) ∧
  (∀ (s : State),
      s.dev.mode = .maintenance →
      s.dev.bill.sealOpen = true →
      s.dev.sec.cmdBusy = false →
      s.dev.sec.rng = .restarting ∨ s.dev.sec.rng = .startup →
      Completes .rotateRoot s fun e =>
        e.sec.cmd = 3 ∧
        e.sec.cmdBusy = true ∧
        e.sec.cmdResult = 0 ∧
        e.sec.cmdWaits = true ∧
        e.sec.vault = s.dev.sec.vault ∧
        s.dev.RegsBut e [Reg.secCmd]) ∧
  (∀ (s : State),
      s.dev.mode = .maintenance →
      s.dev.bill.sealOpen = true →
      s.dev.sec.cmdBusy = false →
      s.dev.sec.rng = .failed →
      Completes .rotateRoot s fun e =>
        e.sec.cmd = 3 ∧
        e.sec.cmdBusy = false ∧
        e.sec.cmdResult = 12 ∧
        e.reg Reg.secCmd = 3 ∧
        s.dev.RegsBut e [Reg.secCmd]) ∧
  (∀ (s : State),
      s.dev.recording = true →
      s.dev.mode ≠ .maintenance ∨ s.dev.bill.sealOpen = false →
      s.dev.sec.violArmed = true →
      Completes .rotateRoot s fun e =>
        e.bit Reg.secEvents 0 = true ∧
        e.reg Reg.secViolCnt = satWord ((s.dev.reg Reg.secViolCnt).toNat + 1) ∧
        e.reg Reg.secViolAddr = BitVec.ofNat 32 Reg.secCmd ∧
        e.reg Reg.secViolCause = 0x104 ∧
        e.sec = { s.dev.sec with violArmed := false }) ∧
  (∀ (s : State),
      s.dev.recording = true →
      s.dev.sec.cmdBusy = false →
      s.dev.sec.rng = .failed →
      Completes .rngRestart s fun e =>
        e.sec.cmd = 4 ∧
        e.sec.cmdBusy = true ∧
        e.sec.cmdResult = 0 ∧
        e.sec.rng = .failed ∧
        e.reg Reg.secCmd = 4 ∧
        s.dev.RegsBut e [Reg.secCmd]) ∧
  (∀ (s : State),
      s.dev.recording = true →
      s.dev.sec.cmdBusy = false →
      s.dev.sec.rng ≠ .failed →
      Completes .rngRestart s fun e =>
        e.sec.cmd = 4 ∧
        e.sec.cmdBusy = false ∧
        e.sec.cmdResult = 1 ∧
        e.reg Reg.secCmd = 4 ∧
        s.dev.RegsBut e [Reg.secCmd] ∧
        e.sec.rng = s.dev.sec.rng) ∧
  (∀ (s : State) (l : BitVec 13),
      s.dev.recording = true →
      s.dev.sec.cmdBusy = false →
      Completes (.loadChain l) s fun e =>
        e.sec.cmd = 5 ∧
        e.sec.cmdBusy = true ∧
        e.sec.cmdResult = 0 ∧
        e.sec.chainLen = l.toNat ∧
        e.sec.working .chain = true ∧
        e.reg Reg.secCmd = packWord [(16, 13, l.toNat), (0, 4, 5)]) ∧
  (∀ (s : State) (l : BitVec 13) (c : Instr),
      s.dev.recording = true →
      s.dev.sec.cmdBusy = true →
      c ∈ [.enrolHe, .enrolVendor, .rngRestart, .loadChain l] →
      Completes c s fun e =>
        e.sec = s.dev.sec ∧
        s.dev.RegsBut e [Reg.secCmd]) ∧
  (∀ (s : State) (c : Fin 4) (w : Word),
      s.dev.recording = true →
      bitOf w 31 = true →
      (s.dev.sec.slots.get c).state ≠ 1 →
      Completes (.objectSubmit c w) s fun e =>
        (e.sec.slots.get c) = { state := 1, kind := BitVec.ofNat 8 (objKind (s.dev.subBytes c (min 4096 (fieldOf w 0 13)))), result := 0, obj := s.dev.subBytes c (min 4096 (fieldOf w 0 13)), since := s.dev.now } ∧
        (e.sec.dues.any fun x => decide (x.use = .object (.slot c))) = true) ∧
  (∀ (s : State) (c : Fin 4) (w : Word),
      bitOf w 31 = false ∨ (s.dev.sec.slots.get c).state = 1 →
      Completes (.objectSubmit c w) s fun e =>
        s.dev.Keeps e []) ∧
  (∀ (s : State),
      s.dev.recording = true →
      s.dev.sec.attBusy = false →
      Completes .attestationStart s fun e =>
        e.sec.attBusy = true ∧
        e.sec.attMode = BitVec.ofNat 8 s.dev.mode.code ∧
        e.sec.attChal = bytesOfWordsBE (s.dev.words (Reg.secAttChal 0) 8) ∧
        e.sec.working .attestHost = true) ∧
  (∀ (s : State),
      s.dev.sec.attBusy = true →
      Completes .attestationStart s fun e =>
        s.dev.Keeps e []) ∧
  (∀ (s : State),
      s.dev.recording = true →
      Completes .violCauseRead s fun e =>
        e.sec = { s.dev.sec with violArmed := true } ∧
        s.dev.Keeps e [.sec]) ∧
  (∀ (s : State) (w : Word),
      s.dev.recording = true →
      Completes (.waitMaxWrite w) s fun e =>
        e.reg Reg.secWaitMax = (if w = 0 then 0 else s.dev.reg Reg.secWaitMax) ∧
        e.sec = s.dev.sec ∧
        s.dev.RegsBut e [Reg.secWaitMax]) ∧
  (∀ (s : State) (l : BitVec 13) (k : Fin 4) (w : Word) (c : Instr),
      s.dev.recording = false →
      c ∈ [.enrolHe, .enrolVendor, .rotateRoot, .rngRestart, .loadChain l, .objectSubmit k w, .attestationStart, .violCauseRead, .waitMaxWrite w] →
      Completes c s fun e =>
        s.dev.Keeps e [])

/-- An engine whose operation has ended is free, where nothing else waits; a request with more to do works on; a cancelled one is gone, and with it
nothing else; an engine that holds nothing changes nothing. A result takes effect at its result tick: an attestation answers, an object waits for the closure; without one due nothing changes; work not done by then is an overrun, counted, which raises the margin of VCORE at the first. The RNG: a failure restarts the source, the
third in a row declares it failed, with its bit, and an alarm of a failed one sets its bit alone; a passed start-up test starts generation anew, a failed one is a failure; of the test of RNG_RESTART the command's result tells, 1 or 12; a healthy
source and a failed one not being restarted are not tested; it is reseeded after 65,536 requests or 60 s, not before. Whether 4,096 bits have passed without an alarm is a free value (log entry 17), and no clause rests on it. -/
def Obligations.CryptoPoolRules : Prop :=
  (∀ (s : State) (x : Fin 32) (r : CryptoReq),
      s.dev.sec.sym.get x = some r →
      r.cancelled = false →
      r.use = .svcStep →
      r.advance.ops = [] →
      s.dev.sec.queue = [] →
      s.dev.sec.outside = [] →
      Completes (.cryptoOperationDone .sym x) s fun e =>
        e.sec = { s.dev.sec with sym := s.dev.sec.sym.set x.1 none } ∧
        s.dev.Keeps e [.sec]) ∧
  (∀ (s : State) (x : Fin 32) (r : CryptoReq),
      s.dev.sec.sym.get x = some r →
      r.cancelled = false →
      r.advance.ops ≠ [] →
      Completes (.cryptoOperationDone .sym x) s fun e =>
        e.sec.working r.use = true ∧
        s.dev.RegsBut e [Reg.secWaitMax]) ∧
  (∀ (s : State) (x : Fin 32) (r : CryptoReq),
      s.dev.sec.sym.get x = some r →
      r.cancelled = true →
      s.dev.sec.queue = [] →
      s.dev.sec.outside = [] →
      Completes (.cryptoOperationDone .sym x) s fun e =>
        e.sec = { s.dev.sec with sym := s.dev.sec.sym.set x.1 none } ∧
        s.dev.Keeps e [.sec]) ∧
  (∀ (s : State) (x : Fin 32),
      s.dev.sec.sym.get x = none →
      Completes (.cryptoOperationDone .sym x) s fun e =>
        s.dev.Keeps e []) ∧
  (∀ (s : State) (x : CryptoDue),
      s.dev.nextResult = some x →
      x.use = .attestHost →
      Completes .cryptoResult s fun e =>
        e.sec.attBusy = false ∧
        e.sec.attCount = s.dev.sec.attCount + 1 ∧
        e.bit Reg.secEvents 10 = true ∧
        e.sec.dues = s.dev.sec.dues.erase x) ∧
  (∀ (s : State) (x : CryptoDue) (t : TenantId),
      s.dev.nextResult = some x →
      x.use = .rootTest t →
      Completes .cryptoResult s fun e =>
        e.commits = s.dev.commits ++ [(commitKey x.rank 0, .rootTest t)] ∧
        e.sec = { s.dev.sec with dues := s.dev.sec.dues.erase x } ∧
        s.dev.RegsBut e []) ∧
  (∀ (s : State),
      s.dev.nextResult = none →
      Completes .cryptoResult s fun e =>
        s.dev.Keeps e []) ∧
  (∀ (s : State) (x : CryptoDue),
      (s.dev.sec.dues.find? fun y => decide (y.at? ≤ s.dev.now) && !y.overrun && s.dev.sec.working y.use) = some x →
      s.dev.pacer.vcoreMargin = false →
      Completes .cryptoOverrun s fun e =>
        e.sec.dues = s.dev.sec.dues.map (fun y => if y = x then { y with overrun := true } else y) ∧
        e.bit Reg.pacEvents 4 = true ∧
        e.reg Reg.pacOverrunCnt = satWord ((s.dev.reg Reg.pacOverrunCnt).toNat + 1) ∧
        e.pacer = { s.dev.pacer with vcoreMargin := true }) ∧
  (∀ (s : State) (x : CryptoDue),
      (s.dev.sec.dues.find? fun y => decide (y.at? ≤ s.dev.now) && !y.overrun && s.dev.sec.working y.use) = some x →
      s.dev.pacer.vcoreMargin = true →
      s.dev.prot.armed = true →
      Completes .cryptoOverrun s fun e =>
        e.sec.dues = s.dev.sec.dues.map (fun y => if y = x then { y with overrun := true } else y) ∧
        e.bit Reg.pacEvents 4 = true ∧
        e.reg Reg.pacOverrunCnt = satWord ((s.dev.reg Reg.pacOverrunCnt).toNat + 1) ∧
        e.power.haltNow = true ∧
        e.bit Reg.prtEvents 0 = true) ∧
  (∀ (s : State),
      (s.dev.sec.dues.find? fun y => decide (y.at? ≤ s.dev.now) && !y.overrun && s.dev.sec.working y.use).isNone = true →
      Completes .cryptoOverrun s fun e =>
        s.dev.Keeps e []) ∧
  (∀ (s : State) (p : ObjectPath),
      s.dev.resultReady (.object p) = true →
      Completes (.objectVerified p) s fun e =>
        e.commits = s.dev.commits ++ [(pathKey p, .object p (s.dev.sec.isLate (.object p)))] ∧
        e.sec.slots = s.dev.sec.slots ∧
        e.sec.dues = s.dev.sec.dues.filter (fun x => decide (x.use ≠ .object p)) ∧
        s.dev.RegsBut e []) ∧
  (∀ (s : State) (p : ObjectPath),
      s.dev.resultReady (.object p) = false →
      Completes (.objectVerified p) s fun e =>
        s.dev.Keeps e []) ∧
  (∀ (s : State),
      s.dev.sec.rng = .healthy →
      s.dev.sec.rngFails = 0 →
      Completes .rngHealthAlarm s fun e =>
        e.sec.rng = .restarting ∧
        e.sec.rngFails = 1 ∧
        e.bit Reg.secEvents 1 = true ∧
        e.reg Reg.secRngFailCnt = satWord ((s.dev.reg Reg.secRngFailCnt).toNat + 1) ∧
        s.dev.RegsBut e [Reg.secEvents, Reg.secRngFailCnt]) ∧
  (∀ (s : State),
      s.dev.sec.rng = .restarting ∨ s.dev.sec.rng = .startup →
      s.dev.sec.rngFails < 2 →
      Completes .rngHealthAlarm s fun e =>
        e.sec = { s.dev.sec with rng := .restarting, rngFails := s.dev.sec.rngFails + 1 } ∧
        e.bit Reg.secEvents 1 = true ∧
        e.reg Reg.secRngFailCnt = satWord ((s.dev.reg Reg.secRngFailCnt).toNat + 1)) ∧
  (∀ (s : State),
      s.dev.sec.rng = .restarting ∨ s.dev.sec.rng = .startup →
      2 ≤ s.dev.sec.rngFails →
      Completes .rngHealthAlarm s fun e =>
        e.sec.rng = .failed ∧
        e.sec.rngWaits = [] ∧
        e.bit Reg.secEvents 1 = true ∧
        e.bit Reg.secEvents 2 = true ∧
        e.reg Reg.secRngFailCnt = satWord ((s.dev.reg Reg.secRngFailCnt).toNat + 1)) ∧
  (∀ (s : State),
      s.dev.sec.rng = .failed →
      Completes .rngHealthAlarm s fun e =>
        e.sec = s.dev.sec ∧
        e.bit Reg.secEvents 1 = true ∧
        s.dev.RegsBut e [Reg.secEvents]) ∧
  (∀ (s : State),
      s.dev.sec.rng = .startup ∨ s.dev.sec.rng = .restarting →
      s.dev.sec.cmdBusy = false →
      s.dev.sec.rngWaits = [] →
      Completes (.rngStartupDone true) s fun e =>
        e.sec = { s.dev.sec with rng := .healthy, rngSeedAt := s.dev.now, rngGen := 0 } ∧
        s.dev.Keeps e [.sec]) ∧
  (∀ (s : State),
      s.dev.sec.rng = .failed →
      s.dev.sec.cmdBusy = true →
      s.dev.sec.cmd = 4 →
      Completes (.rngStartupDone true) s fun e =>
        e.sec.rng = .healthy ∧
        e.sec.rngFails = 0 ∧
        e.sec.cmdBusy = false ∧
        e.sec.cmdResult = 1 ∧
        s.dev.Keeps e [.sec]) ∧
  (∀ (s : State),
      s.dev.sec.rng = .failed →
      s.dev.sec.cmdBusy = true →
      s.dev.sec.cmd = 4 →
      Completes (.rngStartupDone false) s fun e =>
        e.sec.rng = .failed ∧
        e.sec.cmdBusy = false ∧
        e.sec.cmdResult = 12 ∧
        e.reg Reg.secRngFailCnt = satWord ((s.dev.reg Reg.secRngFailCnt).toNat + 1) ∧
        s.dev.RegsBut e [Reg.secRngFailCnt]) ∧
  (∀ (s : State),
      s.dev.sec.rng = .startup ∨ s.dev.sec.rng = .restarting →
      s.dev.sec.rngFails < 2 →
      Completes (.rngStartupDone false) s fun e =>
        e.sec = { s.dev.sec with rng := .restarting, rngFails := s.dev.sec.rngFails + 1 } ∧
        e.reg Reg.secRngFailCnt = satWord ((s.dev.reg Reg.secRngFailCnt).toNat + 1) ∧
        s.dev.RegsBut e [Reg.secRngFailCnt]) ∧
  (∀ (s : State),
      s.dev.sec.rng = .startup ∨ s.dev.sec.rng = .restarting →
      2 ≤ s.dev.sec.rngFails →
      Completes (.rngStartupDone false) s fun e =>
        e.sec.rng = .failed ∧
        e.bit Reg.secEvents 2 = true) ∧
  (∀ (s : State) (ok : Bool),
      s.dev.sec.rng = .healthy ∨ (s.dev.sec.rng = .failed ∧ (s.dev.sec.cmdBusy = false ∨ s.dev.sec.cmd ≠ 4)) →
      Completes (.rngStartupDone ok) s fun e =>
        s.dev.Keeps e []) ∧
  (∀ (s : State),
      s.dev.sec.rng = .healthy →
      65536 ≤ s.dev.sec.rngGen ∨ s.dev.sec.rngSeedAt + 60000000 ≤ s.dev.now →
      Completes .rngReseed s fun e =>
        e.sec = { s.dev.sec with rngGen := 0, rngSeedAt := s.dev.now } ∧
        s.dev.Keeps e [.sec]) ∧
  (∀ (s : State),
      s.dev.sec.rng ≠ .healthy ∨ (s.dev.sec.rngGen < 65536 ∧ s.dev.now < s.dev.sec.rngSeedAt + 60000000) →
      Completes .rngReseed s fun e =>
        s.dev.Keeps e [])

/-- A period turned after its 256 cycles counts COUNT on, modulo 120 (0 in LISTEN), and the periods without a beacon; its owner is not known yet, but to a coordinator. A beacon that decodes makes a listening node, a member and a node that yields a member at its COUNT, aligned to it; to a
guard or coordinator it is a rival's. LISTEN_N quiet periods start a network where the node may transmit, LOSS_N return a member to LISTEN; the guard of 48 counts ends as coordinator with the first discovery due after 4 periods; an unread node number is given up
after 8 periods. A discovery begins when it is due or by command, of the coordinator without one; an answer heard whole, in its slot, is kept. RESTART returns to LISTEN. A link that is off, a beacon that does not decode, and the other
commands out of their conditions change nothing but the counts of blanked samples and the command's register. -/
def Obligations.GridRules : Prop :=
  (∀ (s : State) (q : Vector CellDiffs 6),
      s.dev.grid.state = .listen →
      s.dev.grid.cycle0 + 256 ≤ s.dev.grid.cycle →
      Completes (.gridPeriodStart q) s fun e =>
        e.grid.state = .listen ∧
        e.grid.count.1 = 0 ∧
        e.grid.startAt = s.dev.now ∧
        e.grid.cycle0 = s.dev.grid.cycle0 + 256 ∧
        e.grid.quiet = (if s.dev.grid.heard = true then 0 else s.dev.grid.quiet + 1) ∧
        e.grid.owner = 0xFE ∧
        e.grid.heard = false ∧
        s.dev.Keeps e [.grid]) ∧
  (∀ (s : State) (q : Vector CellDiffs 6),
      s.dev.grid.state = .member →
      s.dev.grid.cycle0 + 256 ≤ s.dev.grid.cycle →
      Completes (.gridPeriodStart q) s fun e =>
        e.grid.state = .member ∧
        e.grid.count.1 = (s.dev.grid.count.1 + 1) % 120 ∧
        e.grid.startAt = s.dev.now ∧
        e.grid.cycle0 = s.dev.grid.cycle0 + 256 ∧
        e.grid.quiet = (if s.dev.grid.heard = true then 0 else s.dev.grid.quiet + 1) ∧
        e.grid.owner = 0xFE ∧
        e.grid.heard = false ∧
        s.dev.Keeps e [.grid]) ∧
  (∀ (s : State) (q : Vector CellDiffs 6),
      s.dev.grid.state = .guarding →
      s.dev.grid.cycle0 + 256 ≤ s.dev.grid.cycle →
      Completes (.gridPeriodStart q) s fun e =>
        e.grid.state = .guarding ∧
        e.grid.count.1 = (s.dev.grid.count.1 + 1) % 120 ∧
        e.grid.startAt = s.dev.now ∧
        e.grid.cycle0 = s.dev.grid.cycle0 + 256 ∧
        e.grid.quiet = (if s.dev.grid.heard = true then 0 else s.dev.grid.quiet + 1) ∧
        e.grid.owner = 0xFE ∧
        e.grid.heard = false ∧
        s.dev.Keeps e [.grid]) ∧
  (∀ (s : State) (q : Vector CellDiffs 6),
      s.dev.grid.state = .coordinator →
      s.dev.grid.disc = none →
      s.dev.grid.cycle0 + 256 ≤ s.dev.grid.cycle →
      Completes (.gridPeriodStart q) s fun e =>
        e.grid.state = .coordinator ∧
        e.grid.count.1 = (s.dev.grid.count.1 + 1) % 120 ∧
        e.grid.startAt = s.dev.now ∧
        e.grid.cycle0 = s.dev.grid.cycle0 + 256 ∧
        e.grid.quiet = (if s.dev.grid.heard = true then 0 else s.dev.grid.quiet + 1) ∧
        e.grid.heard = false ∧
        s.dev.Keeps e [.grid]) ∧
  (∀ (s : State) (q : Vector CellDiffs 6),
      s.dev.grid.state = .off ∨ s.dev.grid.state = .noMains ∨ s.dev.grid.cycle < s.dev.grid.cycle0 + 256 →
      Completes (.gridPeriodStart q) s fun e =>
        s.dev.Keeps e []) ∧
  (∀ (s : State) (b : Beacon) (x : BeaconBits),
      s.dev.grid.state = .listen ∨ s.dev.grid.state = .member ∨ ((s.dev.grid.state = .guarding ∨ s.dev.grid.state = .coordinator) ∧ s.dev.grid.yielding = true) →
      s.dev.readBeacon b = some x →
      Completes (.beaconDecoded b) s fun e =>
        e.grid.state = .member ∧
        e.grid.count = x.count ∧
        e.grid.owner = x.owner ∧
        e.grid.heard = true ∧
        e.grid.quiet = 0 ∧
        e.grid.cycle0 = b.cycle - 2 ∧
        e.grid.coordMap = x.map ∧
        e.grid.election = none ∧
        e.grid.yielding = false) ∧
  (∀ (s : State) (b : Beacon) (x : BeaconBits),
      s.dev.grid.state = .guarding ∨ s.dev.grid.state = .coordinator →
      s.dev.grid.yielding = false →
      s.dev.grid.election = none →
      s.dev.readBeacon b = some x →
      Completes (.beaconDecoded b) s fun e =>
        e.grid.state = s.dev.grid.state ∧
        e.grid.count = s.dev.grid.count ∧
        (e.grid.election.map fun r => (r.prio.toNat, r.since, r.resume)) = some (x.prio % 8, 0, s.dev.grid.state) ∧
        s.dev.RegsBut e [Reg.grdBlanked]) ∧
  (∀ (s : State) (b : Beacon),
      s.dev.readBeacon b = none →
      Completes (.beaconDecoded b) s fun e =>
        e.grid = s.dev.grid ∧
        s.dev.RegsBut e [Reg.grdBlanked]) ∧
  (∀ (s : State) (b : Beacon),
      s.dev.grid.state = .off ∨ s.dev.grid.state = .noMains →
      Completes (.beaconDecoded b) s fun e =>
        s.dev.Keeps e []) ∧
  (∀ (s : State) (x : Election),
      s.dev.grid.election = some x →
      8 ≤ x.since →
      Completes .electionReadTimeout s fun e =>
        e.grid = { s.dev.grid with election := none, state := x.resume } ∧
        s.dev.Keeps e [.grid]) ∧
  (∀ (s : State),
      (s.dev.grid.election.map fun x => decide (8 ≤ x.since)) ≠ some true →
      Completes .electionReadTimeout s fun e =>
        s.dev.Keeps e []) ∧
  (∀ (s : State),
      s.dev.grid.state = .listen →
      s.dev.txOk = true →
      s.dev.listenN ≤ s.dev.grid.quiet →
      Completes .gridListenExpiry s fun e =>
        e.grid.state = .guarding ∧
        e.grid.count.1 = 0 ∧
        e.grid.quiet = 0 ∧
        e.grid.msgs = [] ∧
        e.grid.msgNo = s.dev.grid.msgNo ∧
        s.dev.Keeps e [.grid]) ∧
  (∀ (s : State),
      s.dev.grid.state ≠ .listen ∨ s.dev.txOk = false ∨ s.dev.grid.quiet < s.dev.listenN →
      Completes .gridListenExpiry s fun e =>
        s.dev.Keeps e []) ∧
  (∀ (s : State),
      s.dev.grid.state = .member →
      s.dev.lossN ≤ s.dev.grid.quiet →
      Completes .beaconLoss s fun e =>
        e.grid.state = .listen ∧
        e.grid.quiet = 0 ∧
        e.grid.msgs = [] ∧
        e.grid.tx = [] ∧
        e.grid.owner = 0xFE ∧
        e.bit Reg.grdEvents 3 = true ∧
        s.dev.RegsBut e [Reg.grdEvents]) ∧
  (∀ (s : State),
      s.dev.grid.state ≠ .member ∨ s.dev.grid.quiet < s.dev.lossN →
      Completes .beaconLoss s fun e =>
        s.dev.Keeps e []) ∧
  (∀ (s : State),
      s.dev.grid.state = .guarding →
      48 ≤ s.dev.grid.count.1 →
      s.dev.grid.yielding = false →
      Completes .guardEnd s fun e =>
        e.grid.state = .coordinator ∧
        e.grid.index = some 0 ∧
        e.grid.discDue = 4 ∧
        e.grid.coord = Config.node ∧
        e.grid.owner = 0) ∧
  (∀ (s : State),
      s.dev.grid.state ≠ .guarding ∨ s.dev.grid.count.1 < 48 ∨ s.dev.grid.yielding = true →
      Completes .guardEnd s fun e =>
        s.dev.Keeps e []) ∧
  (∀ (s : State),
      s.dev.grid.state = .coordinator →
      s.dev.grid.disc = none →
      s.dev.grid.yielding = false →
      s.dev.grid.discDue = 0 →
      Completes .discoveryStart s fun e =>
        e.grid.disc = some 0 ∧
        e.grid.answers = [] ∧
        e.grid.discDue = s.dev.discEvery ∧
        s.dev.Keeps e [.grid]) ∧
  (∀ (s : State),
      s.dev.grid.state ≠ .coordinator ∨ s.dev.grid.disc.isSome = true ∨ s.dev.grid.yielding = true ∨ s.dev.grid.discDue ≠ 0 →
      Completes .discoveryStart s fun e =>
        s.dev.Keeps e []) ∧
  (∀ (s : State) (a : DiscAnswer) (r : Fin 24) (m : BitVec 12) (xs : List Decision) (node : BitVec 48), s.dev.grid.disc = some r → s.dev.grid.owner = 0xFF → s.dev.findSync a.sync = m → s.dev.decideCells m a.cells.toList = xs → mapWhole m = true → cellField xs 0 48 = node.toNat → cellField xs 48 16 = discCrc node → s.dev.grid.state = .coordinator → discSlot node r.1 = a.slot.1 → ∃ t, exec (.discoveryAnswerRx a) s = .next t ∧ t.pending = s.pending ∧ s.dev.RegsBut t.dev [Reg.grdBlanked] ∧
      (node ≠ Config.node → t.dev.grid.answers = (node, m) :: s.dev.grid.answers.filter (fun x => x.1 != node)) ∧
      (node = Config.node → t.dev.grid = s.dev.grid)) ∧
  (∀ (s : State) (a : DiscAnswer) (r : Fin 24) (m : BitVec 12) (xs : List Decision),
      s.dev.grid.disc = some r →
      s.dev.grid.owner = 0xFF →
      s.dev.findSync a.sync = m →
      s.dev.decideCells m a.cells.toList = xs →
      mapWhole m = false ∨ cellField xs 48 16 ≠ discCrc (BitVec.ofNat 48 (cellField xs 0 48)) ∨ (s.dev.grid.state = .coordinator ∧ discSlot (BitVec.ofNat 48 (cellField xs 0 48)) r.1 ≠ a.slot.1) →
      Completes (.discoveryAnswerRx a) s fun e =>
        e.grid = s.dev.grid ∧
        s.dev.RegsBut e [Reg.grdBlanked]) ∧
  (∀ (s : State) (a : DiscAnswer),
      s.dev.grid.disc = none ∨ s.dev.grid.owner ≠ 0xFF →
      Completes (.discoveryAnswerRx a) s fun e =>
        s.dev.Keeps e []) ∧
  (∀ (s : State),
      s.dev.recording = true →
      s.dev.grid.state = .coordinator →
      s.dev.grid.disc = none →
      s.dev.grid.yielding = false →
      Completes .grdDiscover s fun e =>
        e.grid.disc = some 0 ∧
        e.grid.answers = [] ∧
        e.grid.discDue = s.dev.discEvery ∧
        e.reg Reg.grdCmd = 1 ∧
        s.dev.RegsBut e [Reg.grdCmd]) ∧
  (∀ (s : State),
      s.dev.recording = true →
      s.dev.grid.state ≠ .coordinator ∨ s.dev.grid.disc.isSome = true ∨ s.dev.grid.yielding = true →
      Completes .grdDiscover s fun e =>
        e.grid = s.dev.grid ∧
        e.reg Reg.grdCmd = 1 ∧
        s.dev.RegsBut e [Reg.grdCmd]) ∧
  (∀ (s : State),
      s.dev.recording = true →
      s.dev.grid.state.runs = true →
      Completes .grdRestart s fun e =>
        e.grid.state = .listen ∧
        e.grid.msgs = [] ∧
        e.grid.tx = [] ∧
        e.grid.owner = 0xFE ∧
        e.grid.table = s.dev.grid.table ∧
        e.reg Reg.grdCmd = 2 ∧
        s.dev.RegsBut e [Reg.grdCmd]) ∧
  (∀ (s : State),
      s.dev.recording = true →
      s.dev.grid.state.runs = false →
      Completes .grdRestart s fun e =>
        e.grid = s.dev.grid ∧
        e.reg Reg.grdCmd = 2 ∧
        s.dev.RegsBut e [Reg.grdCmd]) ∧
  (∀ (s : State) (c : Instr),
      s.dev.recording = false →
      c ∈ [.grdDiscover, .grdRestart] →
      Completes c s fun e =>
        s.dev.Keeps e [])

/-- The cells of the period's owner, another node, are decided with its map: a segment with its CRC right begins a message, if it is the first, or is its next part; a segment out of turn, a bad CRC and 64 periods without one
discard what there is with MSG_BAD. A complete OBJECT goes to verification, waiting while another is there; a PIECE goes to update intake, or is dropped with its bit where that holds four; a CHALLENGE for this node goes to the attestation where the node may
transmit and is dropped elsewhere; a TABLE sets a member's table and coordinator, and one that is malformed, or for no member, is dropped. Without such a message, with no sender in the period or the link off, nothing changes. -/
def Obligations.GridMessages : Prop :=
  (∀ (s : State) (n : Fin 32) (g : Segment) (h : Nat) (p : List Byte) (xs : List Decision),
      s.dev.grid.state.runs = true →
      s.dev.grid.sender = some n →
      s.dev.decideCells (s.dev.grid.mapOf n) g.toList = xs →
      cellField xs 0 16 = h →
      (List.range 37).map (fun i => BitVec.ofNat 8 (cellField xs (16 + 8 * i) 8)) = p →
      cellField xs 312 16 = crc16 (bytesBE 2 h ++ p) →
      (s.dev.grid.msgs.find? fun m => m.sender == n && !m.done) = none →
      h / 2 ^ 13 = 1 →
      h / 4 % 128 = 0 →
      Completes (.gridSegmentRx g) s fun e =>
        e.grid.msgs = s.dev.grid.msgs ++ [{ sender := n, kind := 1, msg := BitVec.ofNat 4 (h / 2 ^ 9), next := 1, bytes := p, done := (h / 2 % 2 == 1), idle := 0, start := s.dev.grid.began }] ∧
        e.reg Reg.grdRxOk = satWord ((s.dev.reg Reg.grdRxOk).toNat + 1) ∧
        s.dev.RegsBut e [Reg.grdRxOk, Reg.grdBlanked]) ∧
  (∀ (s : State) (n : Fin 32) (g : Segment) (h : Nat) (p : List Byte) (xs : List Decision) (m : GridMsg),
      s.dev.grid.state.runs = true →
      s.dev.grid.sender = some n →
      s.dev.decideCells (s.dev.grid.mapOf n) g.toList = xs →
      cellField xs 0 16 = h →
      (List.range 37).map (fun i => BitVec.ofNat 8 (cellField xs (16 + 8 * i) 8)) = p →
      cellField xs 312 16 = crc16 (bytesBE 2 h ++ p) →
      s.dev.grid.msgs = [m] →
      m.sender = n →
      m.done = false →
      m.msg = BitVec.ofNat 4 (h / 2 ^ 9) →
      m.next = h / 4 % 128 →
      m.kind = 1 →
      Completes (.gridSegmentRx g) s fun e =>
        e.grid.msgs = [{ m with next := m.next + 1, bytes := m.bytes ++ p, done := (h / 2 % 2 == 1), idle := 0, start := s.dev.grid.began }] ∧
        s.dev.RegsBut e [Reg.grdRxOk, Reg.grdBlanked]) ∧
  (∀ (s : State) (n : Fin 32) (g : Segment) (h : Nat) (p : List Byte) (xs : List Decision) (m : GridMsg),
      s.dev.grid.state.runs = true →
      s.dev.grid.sender = some n →
      s.dev.decideCells (s.dev.grid.mapOf n) g.toList = xs →
      cellField xs 0 16 = h →
      (List.range 37).map (fun i => BitVec.ofNat 8 (cellField xs (16 + 8 * i) 8)) = p →
      cellField xs 312 16 = crc16 (bytesBE 2 h ++ p) →
      s.dev.grid.msgs = [m] →
      m.sender = n →
      m.done = false →
      m.msg ≠ BitVec.ofNat 4 (h / 2 ^ 9) ∨ m.next ≠ h / 4 % 128 →
      h / 4 % 128 ≠ 0 →
      Completes (.gridSegmentRx g) s fun e =>
        e.grid.msgs = [] ∧
        e.bit Reg.grdEvents 1 = true ∧
        s.dev.RegsBut e [Reg.grdRxOk, Reg.grdBlanked, Reg.grdEvents]) ∧
  (∀ (s : State) (n : Fin 32) (g : Segment) (h : Nat) (p : List Byte) (xs : List Decision) (m : GridMsg),
      s.dev.grid.state.runs = true →
      s.dev.grid.sender = some n →
      s.dev.decideCells (s.dev.grid.mapOf n) g.toList = xs →
      cellField xs 0 16 = h →
      (List.range 37).map (fun i => BitVec.ofNat 8 (cellField xs (16 + 8 * i) 8)) = p →
      cellField xs 312 16 ≠ crc16 (bytesBE 2 h ++ p) →
      s.dev.grid.msgs = [m] →
      m.sender = n →
      m.done = false →
      Completes (.gridSegmentRx g) s fun e =>
        e.grid.msgs = [] ∧
        e.bit Reg.grdEvents 1 = true ∧
        e.reg Reg.grdRxBad = satWord ((s.dev.reg Reg.grdRxBad).toNat + 1) ∧
        s.dev.RegsBut e [Reg.grdRxBad, Reg.grdBlanked, Reg.grdEvents]) ∧
  (∀ (s : State) (g : Segment),
      s.dev.grid.state.runs = false ∨ s.dev.grid.sender = none →
      Completes (.gridSegmentRx g) s fun e =>
        s.dev.Keeps e []) ∧
  (∀ (s : State) (m : GridMsg),
      s.dev.grid.msgs = [m] →
      m.done = false →
      64 ≤ m.idle →
      Completes (.gridMsgTimeout m.sender) s fun e =>
        e.grid = { s.dev.grid with msgs := [] } ∧
        e.bit Reg.grdEvents 1 = true ∧
        s.dev.RegsBut e [Reg.grdEvents]) ∧
  (∀ (s : State) (n : Fin 32),
      ((s.dev.grid.msgs.find? fun m => m.sender == n && !m.done).map fun m => decide (64 ≤ m.idle)) ≠ some true →
      Completes (.gridMsgTimeout n) s fun e =>
        s.dev.Keeps e []) ∧
  (∀ (s : State) (n : Fin 32) (m : GridMsg),
      s.dev.gridDone n 1 = some m →
      s.dev.sec.gridObj = none →
      Completes (.gridObjectRx n) s fun e =>
        e.sec.gridObj = some (m.bytes.take (40 + objLen m.bytes + sigLen (objAlg m.bytes)), m.start) ∧
        e.grid.msgs = s.dev.grid.msgs.erase m ∧
        e.bit Reg.grdEvents 0 = true ∧
        (e.sec.dues.any fun x => decide (x.use = .object .grid ∧ x.rank = 607)) = true) ∧
  (∀ (s : State) (n : Fin 32),
      s.dev.gridDone n 1 = none ∨ s.dev.sec.gridObj.isSome = true →
      Completes (.gridObjectRx n) s fun e =>
        s.dev.Keeps e []) ∧
  (∀ (s : State) (n : Fin 32) (m : GridMsg),
      s.dev.gridDone n 2 = some m →
      s.dev.upd.gridPieces.length < 4 →
      Completes (.gridPieceRx n) s fun e =>
        e.upd.gridPieces = s.dev.upd.gridPieces ++ [{ index := fieldBE m.bytes 0 4, data := slice m.bytes 4 256, tag := slice m.bytes 260 32 }] ∧
        e.grid.msgs = s.dev.grid.msgs.erase m) ∧
  (∀ (s : State) (n : Fin 32) (m : GridMsg),
      s.dev.gridDone n 2 = some m →
      4 ≤ s.dev.upd.gridPieces.length →
      Completes (.gridPieceRx n) s fun e =>
        e.upd = s.dev.upd ∧
        e.grid.msgs = s.dev.grid.msgs.erase m ∧
        e.bit Reg.grdEvents 6 = true ∧
        s.dev.RegsBut e [Reg.grdEvents, Reg.grdDrop]) ∧
  (∀ (s : State) (n : Fin 32) (m : GridMsg),
      s.dev.gridDone n 3 = some m →
      s.dev.txOk = true →
      s.dev.sec.gridChal = none →
      s.dev.grid.tx = [] →
      Completes (.gridChallengeRx n) s fun e =>
        (fieldBE m.bytes 0 6 = Config.node.toNat → e.sec.gridChal = some (slice m.bytes 6 32, BitVec.ofNat 8 s.dev.mode.code) ∧ e.sec.working .attestGrid = true) ∧
        (fieldBE m.bytes 0 6 ≠ Config.node.toNat → e.sec = s.dev.sec) ∧
        e.grid.msgs = s.dev.grid.msgs.erase m) ∧
  (∀ (s : State) (n : Fin 32) (m : GridMsg),
      s.dev.gridDone n 3 = some m →
      s.dev.txOk = false →
      Completes (.gridChallengeRx n) s fun e =>
        e.grid.msgs = s.dev.grid.msgs.erase m ∧
        e.sec = s.dev.sec ∧
        s.dev.Keeps e [.grid]) ∧
  (∀ (s : State) (n : Fin 32) (m : GridMsg),
      s.dev.gridDone n 5 = some m →
      s.dev.grid.state = .member →
      1 ≤ fieldBE m.bytes 0 1 →
      fieldBE m.bytes 0 1 ≤ 32 →
      1 + 6 * fieldBE m.bytes 0 1 ≤ m.bytes.length →
      Completes (.gridTableRx n) s fun e =>
        e.grid.table = (List.range (fieldBE m.bytes 0 1)).map (fun i => BitVec.ofNat 48 (fieldBE m.bytes (1 + 6 * i) 6)) ∧
        e.grid.coord = BitVec.ofNat 48 (fieldBE m.bytes 1 6) ∧
        e.grid.msgs = s.dev.grid.msgs.erase m) ∧
  (∀ (s : State) (n : Fin 32) (m : GridMsg),
      s.dev.gridDone n 5 = some m →
      s.dev.grid.state ≠ .member ∨ fieldBE m.bytes 0 1 = 0 ∨ 32 < fieldBE m.bytes 0 1 ∨ m.bytes.length < 1 + 6 * fieldBE m.bytes 0 1 →
      Completes (.gridTableRx n) s fun e =>
        e.grid.msgs = s.dev.grid.msgs.erase m ∧
        e.grid.table = s.dev.grid.table ∧
        s.dev.Keeps e [.grid]) ∧
  (∀ (s : State) (n : Fin 32) (k : Nat) (c : Instr),
      (k = 1 ∧ c = .gridObjectRx n) ∨ (k = 2 ∧ c = .gridPieceRx n) ∨ (k = 3 ∧ c = .gridChallengeRx n) ∨ (k = 5 ∧ c = .gridTableRx n) →
      s.dev.gridDone n k = none →
      Completes c s fun e =>
        s.dev.Keeps e [])

/-- While the core runs: an admitted HOLD takes a slot, any other is refused with its code; a RESUME of a held function waits for the function's application point, where the slot is freed, or frees it at once, a second one changes nothing but the register; a lap closure due comes first; CANCEL puts the
Expert registers back; both without a slot are refused with 7; CMD 0 does nothing. A hold pending is held when its function's rule is met, a slot in another state waits. In STARTING BLOCK and SAFE HALT a load command that finds none running writes the block of the buffer into the load area, or begins the
check of the image, and at its end takes the image as the region only where every check passes, else shows the first that fails; in other modes it is a violation and changes nothing else. Where the core does not run nothing changes. -/
def Obligations.HoldRules : Prop :=
  (∀ (s : State) (fn : Byte) (inst : BitVec 10),
      s.dev.recording = true →
      s.dev.holdRefusal fn inst = 0 →
      Completes (.fnHold fn inst) s fun e =>
        (e.slotFor fn inst).isSome = true ∧
        e.cfg.stat = { refuse := 0, fn := fn, inst := inst } ∧
        e.reg Reg.cfgFnCtrl = fnWord 1 fn inst ∧
        s.dev.RegsBut e [Reg.cfgFnCtrl]) ∧
  (∀ (s : State) (fn : Byte) (inst : BitVec 10),
      s.dev.recording = true →
      s.dev.holdRefusal fn inst ≠ 0 →
      Completes (.fnHold fn inst) s fun e =>
        e.cfg.slots = s.dev.cfg.slots ∧
        e.cfg.stat = { refuse := s.dev.holdRefusal fn inst, fn := fn, inst := inst } ∧
        e.bit Reg.cfgEvents 2 = true ∧
        s.dev.RegsBut e [Reg.cfgFnCtrl, Reg.cfgEvents]) ∧
  (∀ (s : State) (fn : Byte) (inst : BitVec 10) (k : Fin 16) (h : HoldSlot),
      s.dev.recording = true →
      s.dev.lapDue = false →
      s.dev.slotFor fn inst = some k →
      s.dev.cfg.slots.get k = some h →
      h.state ≠ .resumePending →
      resumesAtOnce fn.toNat = false →
      fn = 2 → ((tenantOfNat inst.toNat).map s.dev.holdExpired) = some false →
      Completes (.fnResume fn inst) s fun e =>
        e.cfg.slots.get k = some { h with state := .resumePending, since := s.dev.now } ∧
        e.cfg.stat = { refuse := 0, fn := fn, inst := inst } ∧
        s.dev.RegsBut e [Reg.cfgFnCtrl]) ∧
  (∀ (s : State) (fn : Byte) (inst : BitVec 10) (k : Fin 16) (h : HoldSlot),
      s.dev.recording = true →
      s.dev.lapDue = false →
      s.dev.slotFor fn inst = some k →
      s.dev.cfg.slots.get k = some h →
      h.state ≠ .resumePending →
      resumesAtOnce fn.toNat = true →
      Completes (.fnResume fn inst) s fun e =>
        e.cfg.slots.get k = none ∧
        e.cfg.stat = { refuse := 0, fn := fn, inst := inst }) ∧
  (∀ (s : State) (fn : Byte) (inst : BitVec 10) (k : Fin 16) (h : HoldSlot),
      s.dev.recording = true →
      s.dev.lapDue = false →
      s.dev.slotFor fn inst = some k →
      s.dev.cfg.slots.get k = some h →
      h.state = .resumePending →
      Completes (.fnResume fn inst) s fun e =>
        e.cfg = s.dev.cfg ∧
        e.reg Reg.cfgFnCtrl = fnWord 2 fn inst ∧
        s.dev.RegsBut e [Reg.cfgFnCtrl]) ∧
  (∀ (s : State) (fn : Byte) (inst : BitVec 10) (k : Fin 16) (h : HoldSlot) (t : TenantId),
      s.dev.recording = true →
      s.dev.lapDue = false →
      s.dev.slotFor fn inst = some k →
      s.dev.cfg.slots.get k = some h →
      fn = 2 →
      tenantOfNat inst.toNat = some t →
      s.dev.holdExpired t = true →
      Completes (.fnResume fn inst) s fun e =>
        e.cfg = s.dev.cfg ∧
        s.dev.RegsBut e [Reg.cfgFnCtrl]) ∧
  (∀ (s : State) (fn : Byte) (inst : BitVec 10),
      s.dev.recording = true →
      s.dev.lapDue = false →
      s.dev.slotFor fn inst = none →
      Completes (.fnResume fn inst) s fun e =>
        e.cfg.slots = s.dev.cfg.slots ∧
        e.cfg.stat = { refuse := 7, fn := fn, inst := inst } ∧
        e.bit Reg.cfgEvents 2 = true ∧
        s.dev.RegsBut e [Reg.cfgFnCtrl, Reg.cfgEvents]) ∧
  (∀ (s : State) (fn : Byte) (inst : BitVec 10),
      s.dev.recording = true →
      s.dev.lapDue = true →
      Completes (.fnResume fn inst) s fun e =>
        e.pacer.lastBoundary = some s.dev.now ∧
        e.reg Reg.pacLapNum = s.dev.reg Reg.pacLapNum + 1) ∧
  (∀ (s : State) (fn : Byte) (inst : BitVec 10) (k : Fin 16) (h : HoldSlot) (a : Nat) (w : Word),
      s.dev.recording = true →
      s.dev.slotFor fn inst = some k →
      s.dev.cfg.slots.get k = some h →
      h.saved = [(a, w)] →
      Completes (.fnCancel fn inst) s fun e =>
        e.cfg.slots.get k = none ∧
        e.cfg.stat = { refuse := 0, fn := fn, inst := inst } ∧
        e.reg a = w ∧
        s.dev.RegsBut e [Reg.cfgFnCtrl, a]) ∧
  (∀ (s : State) (fn : Byte) (inst : BitVec 10),
      s.dev.recording = true →
      s.dev.slotFor fn inst = none →
      Completes (.fnCancel fn inst) s fun e =>
        e.cfg.slots = s.dev.cfg.slots ∧
        e.cfg.stat = { refuse := 7, fn := fn, inst := inst } ∧
        e.bit Reg.cfgEvents 2 = true ∧
        s.dev.RegsBut e [Reg.cfgFnCtrl, Reg.cfgEvents]) ∧
  (∀ (s : State) (fn : Byte) (inst : BitVec 10),
      s.dev.recording = true →
      Completes (.fnCmdZero fn inst) s fun e =>
        e.reg Reg.cfgFnCtrl = fnWord 0 fn inst ∧
        s.dev.RegsBut e [Reg.cfgFnCtrl] ∧
        e.cfg = s.dev.cfg) ∧
  (∀ (s : State) (k : Fin 16) (h : HoldSlot),
      s.dev.lapDue = false →
      s.dev.cfg.slots.get k = some h →
      h.state = .holdPending →
      s.dev.holdDue h = true →
      Completes (.holdTakesEffect k) s fun e =>
        e.cfg.slots.get k = some { h with state := .held, since := s.dev.now } ∧
        e.cfg.stat = s.dev.cfg.stat ∧
        s.dev.RegsBut e []) ∧
  (∀ (s : State) (k : Fin 16),
      s.dev.lapDue = false →
      ((s.dev.cfg.slots.get k).map fun h => decide (h.state = .holdPending) && s.dev.holdDue h) ≠ some true →
      Completes (.holdTakesEffect k) s fun e =>
        s.dev.Keeps e []) ∧
  (∀ (s : State) (k : Fin 16) (h : HoldSlot),
      s.dev.lapDue = false →
      s.dev.cfg.slots.get k = some h →
      h.state = .resumePending →
      s.dev.resumeDue h = true →
      Completes (.resumeTakesEffect k) s fun e =>
        e.cfg.slots.get k = none) ∧
  (∀ (s : State) (k : Fin 16),
      s.dev.lapDue = false →
      ((s.dev.cfg.slots.get k).map fun h => decide (h.state = .resumePending) && s.dev.resumeDue h) ≠ some true →
      Completes (.resumeTakesEffect k) s fun e =>
        s.dev.Keeps e []) ∧
  (∀ (s : State),
      s.dev.loadServed = true →
      s.dev.cfg.loadBusy = 0 →
      (s.dev.reg Reg.cfgLoadOffset).toNat < 4194304 →
      Completes .cfgLoadWrite s fun e =>
        e.cfg = { s.dev.cfg with
          loadBusy := 1
          loadArea := ((s.dev.reg Reg.cfgLoadOffset).toNat / 4096 * 4096, bytesOfWordsLE (s.dev.words (Reg.cfgLoadBuf 0) 1024)) ::
            s.dev.cfg.loadArea.filter (fun b => b.1 != (s.dev.reg Reg.cfgLoadOffset).toNat / 4096 * 4096) } ∧
        e.reg Reg.cfgLoadCmd = 0x10000000 ∧
        s.dev.RegsBut e [Reg.cfgLoadCmd]) ∧
  (∀ (s : State) (l : BitVec 23),
      s.dev.loadServed = true →
      s.dev.cfg.loadBusy = 0 →
      Completes (.cfgLoadCommit l) s fun e =>
        e.cfg = { s.dev.cfg with loadBusy := 2, loadLen := l.toNat } ∧
        s.dev.RegsBut e [Reg.cfgLoadCmd]) ∧
  (∀ (s : State) (l : BitVec 23) (c : Instr),
      s.dev.loadServed = true →
      s.dev.cfg.loadBusy ≠ 0 →
      c ∈ [.cfgLoadWrite, .cfgLoadCommit l] →
      Completes c s fun e =>
        e.cfg = s.dev.cfg ∧
        s.dev.RegsBut e [Reg.cfgLoadCmd]) ∧
  (∀ (s : State) (l : BitVec 23) (c : Instr),
      s.dev.recording = true →
      s.dev.loadServed = false →
      c ∈ [.cfgLoadWrite, .cfgLoadCommit l] →
      Completes c s fun e =>
        e.cfg = s.dev.cfg ∧
        e.bit Reg.secEvents 0 = true ∧
        e.reg Reg.secViolCnt = satWord ((s.dev.reg Reg.secViolCnt).toNat + 1) ∧
        e.reg Reg.cfgLoadCmd = s.dev.reg Reg.cfgLoadCmd) ∧
  (∀ (s : State) (fn : Byte) (inst : BitVec 10) (l : BitVec 23) (c : Instr),
      s.dev.recording = false →
      c ∈ [.fnHold fn inst, .fnResume fn inst, .fnCancel fn inst, .fnCmdZero fn inst, .cfgLoadWrite, .cfgLoadCommit l] →
      Completes c s fun e =>
        s.dev.Keeps e []) ∧
  (∀ (s : State),
      s.dev.cfg.loadBusy ≠ 2 →
      Completes .cfgLoadCmdDone s fun e =>
        e.cfg = { s.dev.cfg with loadBusy := 0 } ∧
        s.dev.Keeps e [.cfg]) ∧
  (∀ (s : State),
      s.dev.cfg.loadBusy = 2 →
      Completes .cfgLoadCmdDone s fun e =>
        e.cfg.loadBusy = 0 ∧
        (s.dev.imageCheck (s.dev.cfg.loaded s.dev.cfg.loadLen) = 0 → e.cfg.region = s.dev.cfg.loaded s.dev.cfg.loadLen ∧ e.cfg.loadWhy = 0 ∧ e.bit Reg.cfgEvents 3 = true) ∧
        (s.dev.imageCheck (s.dev.cfg.loaded s.dev.cfg.loadLen) ≠ 0 → e.cfg.region = s.dev.cfg.region ∧ e.cfg.loadWhy = s.dev.imageCheck (s.dev.cfg.loaded s.dev.cfg.loadLen) ∧ e.bit Reg.cfgEvents 4 = true) ∧
        s.dev.RegsBut e [Reg.cfgEvents])

/-- A submitted piece of a free slot is checked, and when its check is due the slot shows its result and a piece of the grid link leaves its place; only a good one is stored. The part under way is complete where the hash of what is assembled is the manifest's, and fails the update where it is not. A head whose
status reads VERIFIED is staged; FAILED once, it is sent the image again, twice, the update fails, its staging erased. ACTIVATE begins with step 1 or shows its refusal. ABANDON before ARMING and a NOT_AFTER that has
passed in READY end the update with outcome 4 or 5, its staging erased. Out of these conditions the commands change nothing but the command's register. -/
def Obligations.UpdateIntake : Prop :=
  (∀ (s : State) (c : Fin 2) (w : Word),
      s.dev.recording = true →
      bitOf w 31 = true →
      (s.dev.upd.slots.get c).state ≠ 1 →
      Completes (.updPieceSubmit c w) s fun e =>
        e.upd.slots.get c = { state := 1, result := 0, piece := some (s.dev.pieceOf c (fieldOf w 0 13)) } ∧
        e.sec.working (.piece (.slot c)) = true) ∧
  (∀ (s : State) (c : Fin 2) (w : Word),
      s.dev.recording = false ∨ bitOf w 31 = false ∨ (s.dev.upd.slots.get c).state = 1 →
      Completes (.updPieceSubmit c w) s fun e =>
        s.dev.Keeps e []) ∧
  (∀ (s : State) (c : Fin 2) (p : Piece),
      s.dev.resultReady (.piece (.slot c)) = true →
      (s.dev.upd.slots.get c).piece = some p →
      Completes (.pieceChecked (.slot c)) s fun e =>
        e.upd.slots.get c = { state := 2, result := s.dev.pieceResult true (s.dev.piecePoison c).isSome p, piece := none } ∧
        (s.dev.pieceResult true (s.dev.piecePoison c).isSome p ≠ 1 → e.upd.stored = s.dev.upd.stored)) ∧
  (∀ (s : State) (p : Piece) (ps : List Piece),
      s.dev.resultReady (.piece .grid) = true →
      s.dev.upd.gridPieces = p :: ps →
      Completes (.pieceChecked .grid) s fun e =>
        e.upd.gridPieces = ps ∧
        (s.dev.pieceResult false false p ≠ 1 → e.upd.stored = s.dev.upd.stored)) ∧
  (∀ (s : State) (p : PiecePath),
      s.dev.resultReady (.piece p) = false →
      Completes (.pieceChecked p) s fun e =>
        s.dev.Keeps e []) ∧
  (∀ (s : State) (k : Fin 32) (m : Manifest) (p : PartEntry) (t : PartState),
      s.dev.upd.manifest = some m →
      m.parts[k.1]? = some p →
      s.dev.upd.parts[k.1]? = some t →
      s.dev.upd.state = .verifying →
      s.dev.currentPart = some k.1 →
      p.kind.toNat ≤ 2 →
      t.state = 1 →
      s.dev.resultReady (.image k) = true →
      Completes (.partVerified k) s fun e =>
        (Config.sha384 (s.dev.assembled m p) ≠ p.hash → e.upd.state = .failed ∧ e.bit Reg.updEvents 2 = true ∧ e.upd.images = []) ∧
        (Config.sha384 (s.dev.assembled m p) = p.hash → ((e.upd.parts[k.1]?).map PartState.state) = some 2 ∧ (k, s.dev.assembled m p) ∈ e.upd.images)) ∧
  (∀ (s : State) (k : Fin 32),
      s.dev.upd.manifest = none ∨ s.dev.upd.state ≠ .verifying ∨ s.dev.currentPart ≠ some k.1 ∨ s.dev.resultReady (.image k) = false →
      Completes (.partVerified k) s fun e =>
        s.dev.Keeps e []) ∧
  (∀ (s : State) (n : LinkId) (k : Nat) (p : PartEntry) (t : PartState),
      s.dev.stagingOn n = some (k, p) →
      s.dev.upd.parts[k]? = some t →
      (s.dev.link n).lnk.stg = 3 →
      Completes (.headStagingDone n) s fun e =>
        n ∈ e.upd.staged ∧
        ((e.upd.parts[k]?).map PartState.heads) = some (t.heads ++ [n])) ∧
  (∀ (s : State) (n : LinkId) (k : Nat) (p : PartEntry) (t : PartState),
      s.dev.stagingOn n = some (k, p) →
      s.dev.upd.parts[k]? = some t →
      (s.dev.link n).lnk.stg = 4 →
      n ∉ t.failed →
      Completes (.headStagingDone n) s fun e =>
        e.upd.state = s.dev.upd.state ∧
        e.upd.staged = s.dev.upd.staged ∧
        ((e.upd.parts[k]?).map PartState.failed) = some (t.failed ++ [n])) ∧
  (∀ (s : State) (n : LinkId) (k : Nat) (p : PartEntry) (t : PartState),
      s.dev.stagingOn n = some (k, p) →
      s.dev.upd.parts[k]? = some t →
      (s.dev.link n).lnk.stg = 4 →
      n ∈ t.failed →
      Completes (.headStagingDone n) s fun e =>
        e.upd.state = .failed ∧
        e.upd.staged = [] ∧
        e.bit Reg.updEvents 2 = true ∧
        e.reg Reg.updLastEnd = packWord [(0, 4, 6), (8, 5, k)]) ∧
  (∀ (s : State) (n : LinkId),
      s.dev.stagingOn n = none ∨ ((s.dev.link n).lnk.stg ≠ 3 ∧ (s.dev.link n).lnk.stg ≠ 4) →
      Completes (.headStagingDone n) s fun e =>
        s.dev.Keeps e []) ∧
  (∀ (s : State),
      s.dev.recording = true →
      s.dev.activateRefusal = 0 →
      Completes .updActivate s fun e =>
        e.upd.state = .activating ∧
        e.upd.step = 1 ∧
        e.upd.stepAt = s.dev.now ∧
        e.upd.actRefuse = 0 ∧
        e.reg Reg.updCmd = 1) ∧
  (∀ (s : State),
      s.dev.recording = true →
      s.dev.activateRefusal ≠ 0 →
      Completes .updActivate s fun e =>
        e.upd = { s.dev.upd with actRefuse := s.dev.activateRefusal } ∧
        s.dev.RegsBut e [Reg.updCmd]) ∧
  (∀ (s : State),
      s.dev.recording = true →
      s.dev.upd.state ∈ [.receiving, .verifying, .ready, .failed] ∨ (s.dev.upd.state = .activating ∧ s.dev.upd.step < 3) →
      Completes .updAbandon s fun e =>
        e.upd.state = .idle ∧
        e.upd.manifest = none ∧
        e.upd.stored = [] ∧
        e.upd.staged = [] ∧
        e.reg Reg.updLastEnd = 4 ∧
        e.reg Reg.updCmd = 2 ∧
        s.dev.RegsBut e [Reg.updCmd, Reg.updLastEnd]) ∧
  (∀ (s : State),
      s.dev.recording = true →
      ¬ (s.dev.upd.state ∈ [.receiving, .verifying, .ready, .failed] ∨ (s.dev.upd.state = .activating ∧ s.dev.upd.step < 3)) →
      Completes .updAbandon s fun e =>
        e.upd = s.dev.upd ∧
        s.dev.RegsBut e [Reg.updCmd]) ∧
  (∀ (s : State) (c : Instr),
      s.dev.recording = false →
      c ∈ [.updActivate, .updAbandon] →
      Completes c s fun e =>
        s.dev.Keeps e []) ∧
  (∀ (s : State) (m : Manifest),
      s.dev.upd.manifest = some m →
      s.dev.upd.state = .ready →
      s.dev.pacer.calSet = true →
      m.notAfter ≠ 0 →
      m.notAfter < s.dev.pacer.cal →
      Completes .manifestExpiry s fun e =>
        e.upd.state = .idle ∧
        e.upd.manifest = none ∧
        e.upd.stored = [] ∧
        e.upd.staged = [] ∧
        e.reg Reg.updLastEnd = 5 ∧
        s.dev.RegsBut e [Reg.updLastEnd]) ∧
  (∀ (s : State),
      s.dev.upd.state ≠ .ready ∨ s.dev.pacer.calSet = false ∨ (s.dev.upd.manifest.map fun m => m.notAfter != 0 && decide (m.notAfter < s.dev.pacer.cal)) ≠ some true →
      Completes .manifestExpiry s fun e =>
        s.dev.Keeps e [])

/-- With every contactor open, no live session and no supply warning, in RUN or ECONOMY, ACTIVATION is asked for and the heads are armed; a contactor still closed after 30 s abandons it. In ACTIVATION, every staged head armed, the swap begins: the journal holds firmware and region,
and the device resets; a head that is not VERIFIED, or 1 s passed, begins the retreat, reason 3, else it waits. The loader that succeeds boots the new images, one that fails begins the retreat. A CONFIRM is
taken under its conditions, ending the update with outcome 1, and refused otherwise with its bit; a value without bit 0 does nothing. The window unconfirmed forces a retreat, reason 2; before its end nothing changes. -/
def Obligations.ActivationRules : Prop :=
  (∀ (s : State),
      s.dev.upd.state = .activating →
      s.dev.upd.step = 1 →
      s.dev.allOpen = true →
      s.dev.liveSessions = 0 →
      s.dev.warned = false →
      s.dev.mode = .run ∨ s.dev.mode = .economy →
      Completes .activationEntry s fun e =>
        e.upd.record = .arming ∧
        e.upd.step = 3 ∧
        e.upd.stepAt = s.dev.now ∧
        e.upd.armed = [] ∧
        e.power.trigs = s.dev.power.trigs ++ [.toActivation]) ∧
  (∀ (s : State),
      s.dev.upd.state ≠ .activating ∨ s.dev.upd.step ≠ 1 ∨ s.dev.allOpen = false ∨ s.dev.liveSessions ≠ 0 ∨ s.dev.warned = true ∨ (s.dev.mode ≠ .run ∧ s.dev.mode ≠ .economy) →
      Completes .activationEntry s fun e =>
        s.dev.Keeps e []) ∧
  (∀ (s : State),
      s.dev.upd.state = .activating →
      s.dev.upd.step = 1 →
      s.dev.upd.stepAt + 30000000 ≤ s.dev.now →
      s.dev.allOpen = false →
      s.dev.warned = false →
      Completes .activationStopTimeout s fun e =>
        e.upd = { s.dev.upd with state := .ready, step := 0 } ∧
        e.bit Reg.updEvents 4 = true ∧
        s.dev.RegsBut e [Reg.updEvents]) ∧
  (∀ (s : State),
      s.dev.upd.state ≠ .activating ∨ s.dev.upd.step ≠ 1 ∨ s.dev.now < s.dev.upd.stepAt + 30000000 ∨ s.dev.allOpen = true ∨ s.dev.warned = true →
      Completes .activationStopTimeout s fun e =>
        s.dev.Keeps e []) ∧
  (∀ (s : State),
      s.dev.upd.state = .activating →
      s.dev.upd.step = 3 →
      s.dev.mode = .activation →
      s.dev.warned = false →
      (s.dev.upd.staged.all s.dev.upd.armed.contains) = true →
      Completes .headsArmed s fun e =>
        e.upd.record = .swapping ∧
        e.upd.step = 5 ∧
        e.upd.stepAt = s.dev.now ∧
        e.upd.journal = some (s.dev.upd.fw, s.dev.upd.fwImage, s.dev.cfg.region) ∧
        e.upd.fw = s.dev.upd.fw ∧
        e.mode = .waking) ∧
  (∀ (s : State),
      s.dev.upd.state = .activating →
      s.dev.upd.step = 3 →
      s.dev.mode = .activation →
      s.dev.warned = false →
      (s.dev.upd.staged.all s.dev.upd.armed.contains) = false →
      s.dev.upd.armBad = true ∨ s.dev.upd.stepAt + 1000000 < s.dev.now →
      Completes .headsArmed s fun e =>
        e.upd.state = .retreating ∧
        e.upd.record = .retreating ∧
        e.upd.retreatWhy = 3 ∧
        e.mode = .waking ∧
        e.upd.fw = (s.dev.upd.journal.map fun j => j.1).getD s.dev.upd.fw ∧
        e.cfg.region = (s.dev.upd.journal.map fun j => j.2.2).getD s.dev.cfg.region) ∧
  (∀ (s : State),
      s.dev.upd.state ≠ .activating ∨ s.dev.upd.step ≠ 3 ∨ s.dev.mode ≠ .activation ∨ s.dev.warned = true ∨ ((s.dev.upd.staged.all s.dev.upd.armed.contains) = false ∧ s.dev.upd.armBad = false ∧ s.dev.now ≤ s.dev.upd.stepAt + 1000000) →
      Completes .headsArmed s fun e =>
        s.dev.Keeps e []) ∧
  (∀ (s : State) (m : Manifest) (w : Word),
      s.dev.upd.record = .swapping →
      s.dev.upd.step = 5 →
      s.dev.power.resetHeld = false →
      s.dev.upd.manifest = some m →
      Completes (.loaderWriteDone true w) s fun e =>
        e.upd.step = 6 ∧
        e.upd.fw = s.dev.newFw m ∧
        e.cfg.region = (s.dev.newImage m 2).getD s.dev.cfg.region ∧
        e.reg Reg.updSwapMs = w ∧
        e.mode = .waking) ∧
  (∀ (s : State) (w : Word),
      s.dev.upd.record = .swapping →
      s.dev.upd.step = 5 →
      s.dev.power.resetHeld = false →
      Completes (.loaderWriteDone false w) s fun e =>
        e.upd.state = .retreating ∧
        e.upd.record = .retreating ∧
        e.upd.retreatWhy = 3 ∧
        e.mode = .waking ∧
        e.upd.fw = (s.dev.upd.journal.map fun j => j.1).getD s.dev.upd.fw ∧
        e.cfg.region = (s.dev.upd.journal.map fun j => j.2.2).getD s.dev.cfg.region) ∧
  (∀ (s : State) (ok : Bool) (w : Word),
      s.dev.upd.record ≠ .swapping ∨ s.dev.upd.step ≠ 5 ∨ s.dev.power.resetHeld = true →
      Completes (.loaderWriteDone ok w) s fun e =>
        s.dev.Keeps e []) ∧
  (∀ (s : State) (w : Word),
      s.dev.recording = true →
      bitOf w 0 = true →
      s.dev.confirmable = true →
      Completes (.healthConfirm w) s fun e =>
        e.upd.state = .idle ∧
        e.upd.record = .none ∧
        e.upd.compat = some ((s.dev.upd.manifest.map Manifest.compat).getD []) ∧
        e.reg Reg.updLastEnd = 1 ∧
        e.bit Reg.updEvents 6 = true) ∧
  (∀ (s : State) (w : Word),
      s.dev.recording = true →
      bitOf w 0 = true →
      s.dev.confirmable = false →
      Completes (.healthConfirm w) s fun e =>
        e.upd = s.dev.upd ∧
        e.bit Reg.updEvents 7 = true ∧
        s.dev.RegsBut e [Reg.updHealthConfirm, Reg.updEvents]) ∧
  (∀ (s : State) (w : Word),
      s.dev.recording = true →
      bitOf w 0 = false →
      Completes (.healthConfirm w) s fun e =>
        e.upd = s.dev.upd ∧
        s.dev.RegsBut e [Reg.updHealthConfirm]) ∧
  (∀ (s : State) (w : Word),
      s.dev.recording = false →
      Completes (.healthConfirm w) s fun e =>
        s.dev.Keeps e []) ∧
  (∀ (s : State),
      s.dev.upd.state = .confirming →
      s.dev.upd.windowOpen = true →
      s.dev.reg Reg.updConfirmLeft = 0 →
      Completes .confirmWindowExpiry s fun e =>
        e.upd.state = .retreating ∧
        e.upd.record = .retreating ∧
        e.upd.retreatWhy = 2 ∧
        e.mode = .waking ∧
        e.upd.fw = (s.dev.upd.journal.map fun j => j.1).getD s.dev.upd.fw ∧
        e.cfg.region = (s.dev.upd.journal.map fun j => j.2.2).getD s.dev.cfg.region) ∧
  (∀ (s : State),
      s.dev.upd.state ≠ .confirming ∨ s.dev.upd.windowOpen = false ∨ s.dev.reg Reg.updConfirmLeft ≠ 0 →
      Completes .confirmWindowExpiry s fun e =>
        s.dev.Keeps e [])

/-- Awake, the scrubber reads the next word of each store and goes on, counting the pass at its end: a word of work memory with bad parity is poisoned, a good one not; two good copies of a ledger word change nothing, and copies that cannot be settled poison it; bad parity
in the active slot of the Device Root Key fails the vault, in a tenant's empties its root. The page of a poisoned code word that checks is no longer poisoned, one that fails twice is last word 6 and a halt that only a power-on reset ends. Cursors take what is
written; RETEST is served in MAINTENANCE with the seal open, and its end returns the blocks that passed; CLEAR empties the last-word table; a read of MEM_POISON_ADDR arms it again; a sector whose erase or program fails is
skipped, NOR_FAIL set. Asleep, or with nothing waiting, nothing changes. -/
def Obligations.MemoryCommands : Prop :=
  (∀ (s : State) (bad : Bool),
      s.dev.mode ≠ .dormant →
      s.dev.power.resetHeld = false →
      s.dev.mem.scrubWork + 1 < workWordCount →
      Completes (.scrubStep (.work bad)) s fun e =>
        e.mem.scrubWork = s.dev.mem.scrubWork + 1 ∧
        e.mem.poisonWork = (if bad && !s.dev.mem.poisonWork.contains s.dev.mem.scrubWork then s.dev.mem.scrubWork :: s.dev.mem.poisonWork else s.dev.mem.poisonWork) ∧
        e.mem.poisonLedger = s.dev.mem.poisonLedger ∧
        s.dev.RegsBut e [Reg.memEvents]) ∧
  (∀ (s : State),
      s.dev.mode ≠ .dormant →
      s.dev.power.resetHeld = false →
      workWordCount ≤ s.dev.mem.scrubWork + 1 →
      Completes (.scrubStep (.work false)) s fun e =>
        e.mem.scrubWork = 0 ∧
        e.mem.poisonWork = s.dev.mem.poisonWork ∧
        e.field Reg.memScrubPass 0 16 = (s.dev.field Reg.memScrubPass 0 16 + 1) % 2 ^ 16 ∧
        s.dev.RegsBut e [Reg.memScrubPass]) ∧
  (∀ (s : State) (a b : Copy),
      s.dev.mode ≠ .dormant →
      s.dev.power.resetHeld = false →
      s.dev.mem.scrubLedger + 1 < ledgerWordCount →
      settle a b = .clean →
      Completes (.scrubStep (.ledger a b)) s fun e =>
        e.mem = { s.dev.mem with scrubLedger := s.dev.mem.scrubLedger + 1 } ∧
        s.dev.Keeps e [.mem]) ∧
  (∀ (s : State) (a b : Copy),
      s.dev.mode ≠ .dormant →
      s.dev.power.resetHeld = false →
      s.dev.mem.scrubLedger + 1 = ledgerWordCount →
      settle a b = .clean →
      Completes (.scrubStep (.ledger a b)) s fun e =>
        e.mem.scrubLedger = 0 ∧
        e.field Reg.memScrubPass 16 16 = (s.dev.field Reg.memScrubPass 16 16 + 1) % 2 ^ 16 ∧
        s.dev.RegsBut e [Reg.memScrubPass]) ∧
  (∀ (s : State) (a b : Copy),
      s.dev.mode ≠ .dormant →
      s.dev.power.resetHeld = false →
      s.dev.mem.scrubLedger + 1 < ledgerWordCount →
      s.dev.mem.poisonLedger.contains s.dev.mem.scrubLedger = false →
      settle a b = .poison →
      Completes (.scrubStep (.ledger a b)) s fun e =>
        e.mem.poisonLedger.contains s.dev.mem.scrubLedger = true ∧
        e.mem.scrubLedger = s.dev.mem.scrubLedger + 1 ∧
        e.mem.poisonWork = s.dev.mem.poisonWork ∧
        e.bit Reg.memEvents 1 = true) ∧
  (∀ (s : State) (k : Nat),
      s.dev.mode ≠ .dormant →
      s.dev.power.resetHeld = false →
      Completes (.scrubStep (.vault k false)) s fun e =>
        s.dev.Keeps e []) ∧
  (∀ (s : State) (k : Nat),
      s.dev.mode ≠ .dormant →
      s.dev.power.resetHeld = false →
      k < 2 →
      s.dev.sec.vault.activeB = (k == 1) →
      Completes (.scrubStep (.vault k true)) s fun e =>
        e.sec = { s.dev.sec with vaultOk := false } ∧
        s.dev.Keeps e [.sec]) ∧
  (∀ (s : State) (k : Nat) (t : TenantId),
      s.dev.mode ≠ .dormant →
      s.dev.power.resetHeld = false →
      2 ≤ k →
      tenantOfNat ((k - 2) / 2) = some t →
      (s.dev.tenants.get t).root.alg ≠ 0 →
      Completes (.scrubStep (.vault k true)) s fun e =>
        (e.tenants.get t).root.alg = 0 ∧
        (e.tenants.get t).root.seedOn = false ∧
        e.bit Reg.secEvents 6 = true) ∧
  (∀ (s : State) (t : ScrubTarget),
      s.dev.mode = .dormant ∨ s.dev.power.resetHeld = true →
      Completes (.scrubStep t) s fun e =>
        s.dev.Keeps e []) ∧
  (∀ (s : State) (p : BitVec 16),
      Completes (.codePageRepair p true) s fun e =>
        (((s.dev.mem.poisonWork.any fun w => Config.codePage w == some p) = true) → e.mem.codeRetry = none ∧ e.mem.poisonWork = s.dev.mem.poisonWork.filter (fun w => Config.codePage w != some p) ∧ e.bit Reg.memEvents 3 = true) ∧
        s.dev.RegsBut e [Reg.memEvents]) ∧
  (∀ (s : State) (p : BitVec 16),
      Completes (.codePageRepair p false) s fun e =>
        (((s.dev.mem.poisonWork.any fun w => Config.codePage w == some p) = true) → s.dev.mem.codeRetry ≠ some p → e.mem = { s.dev.mem with codeRetry := some p } ∧ s.dev.RegsBut e []) ∧
        (((s.dev.mem.poisonWork.any fun w => Config.codePage w == some p) = true) → s.dev.mem.codeRetry = some p → e.power.haltForGood = true ∧ e.mem.lwNext = s.dev.mem.lwNext + 1 ∧ e.mem.codeRetry = none)) ∧
  (∀ (s : State) (p : BitVec 16) (ok : Bool),
      Completes (.codePageRepair p ok) s fun e =>
        (¬ ((s.dev.mem.poisonWork.any fun w => Config.codePage w == some p) = true) → s.dev.Keeps e [])) ∧
  (∀ (s : State) (w : Word),
      s.dev.recording = true →
      Completes (.evrCursorWrite w) s fun e =>
        e.reg Reg.evrCursor = w ∧
        s.dev.RegsBut e [Reg.evrCursor] ∧
        e.recorder = s.dev.recorder) ∧
  (∀ (s : State) (w : Word),
      s.dev.recording = true →
      Completes (.evrNorSectWrite w) s fun e =>
        e.reg Reg.evrNorSect = w &&& 0x7FFF ∧
        s.dev.RegsBut e [Reg.evrNorSect] ∧
        e.recorder = s.dev.recorder) ∧
  (∀ (s : State),
      s.dev.mode = .maintenance →
      s.dev.bill.sealOpen = true →
      s.dev.recording = true →
      Completes .evrRetest s fun e =>
        e.recorder = { s.dev.recorder with retesting := true } ∧
        e.reg Reg.evrCmd = 1 ∧
        s.dev.RegsBut e [Reg.evrCmd]) ∧
  (∀ (s : State),
      s.dev.mode ≠ .maintenance ∨ s.dev.bill.sealOpen = false →
      s.dev.recording = true →
      Completes .evrRetest s fun e =>
        e.recorder = s.dev.recorder ∧
        s.dev.RegsBut e [Reg.evrCmd]) ∧
  (∀ (s : State) (g : BitVec 64),
      s.dev.recorder.retesting = true →
      s.dev.recorder.dead = false →
      Completes (.retestDone g) s fun e =>
        e.recorder.retesting = false ∧
        e.recorder.rejoin = s.dev.recorder.rejoin ||| (g &&& s.dev.recorder.retired) ∧
        e.recorder.retired = s.dev.recorder.retired ∧
        e.bit Reg.evrEvents 5 = true ∧
        s.dev.RegsBut e [Reg.evrEvents]) ∧
  (∀ (s : State) (g : BitVec 64),
      s.dev.recorder.retesting = true →
      s.dev.recorder.dead = true →
      Completes (.retestDone g) s fun e =>
        e.recorder.retesting = false ∧
        e.recorder.retired = s.dev.recorder.retired &&& ~~~(s.dev.recorder.rejoin ||| (g &&& s.dev.recorder.retired)) ∧
        e.recorder.rejoin = 0 ∧
        e.bit Reg.evrEvents 5 = true ∧
        s.dev.RegsBut e [Reg.evrEvents]) ∧
  (∀ (s : State) (g : BitVec 64),
      s.dev.recorder.retesting = false →
      Completes (.retestDone g) s fun e =>
        s.dev.Keeps e []) ∧
  (∀ (s : State),
      s.dev.recording = true →
      Completes .lwClear s fun e =>
        e.mem = { s.dev.mem with lastWords := [], lwNext := 0, lwCount := 0 } ∧
        e.reg Reg.memLwClear = 1 ∧
        s.dev.RegsBut e [Reg.memLwClear]) ∧
  (∀ (s : State),
      s.dev.recording = true →
      Completes .poisonAddrRead s fun e =>
        e.mem = { s.dev.mem with poisonArmed := true } ∧
        s.dev.Keeps e [.mem]) ∧
  (∀ (s : State) (w : Word) (c : Instr),
      s.dev.recording = false →
      c ∈ [.evrCursorWrite w, .evrNorSectWrite w, .evrRetest, .lwClear, .poisonAddrRead] →
      Completes c s fun e =>
        s.dev.Keeps e []) ∧
  (∀ (s : State) (ev : EventRecord) (rest : List (Sum (Nat × List Byte) EventRecord)),
      s.dev.recorder.norWait = .inr ev :: rest →
      s.dev.recorder.norBytes + 4 + ev.bytes.length ≤ 4096 →
      Completes (.norProgramDone true) s fun e =>
        e.recorder.norWait = rest ∧
        e.recorder.norCount = s.dev.recorder.norCount + 1 ∧
        e.recorder.norBytes = s.dev.recorder.norBytes + 4 + ev.bytes.length ∧
        e.recorder.norHead = s.dev.recorder.norHead ∧
        e.bill = s.dev.bill) ∧
  (∀ (s : State) (q : Nat) (bs : List Byte) (rest : List (Sum (Nat × List Byte) EventRecord)),
      s.dev.recorder.norWait = .inl (q, bs) :: rest →
      s.dev.recorder.norBytes + 4 + bs.length ≤ 4096 →
      Completes (.norProgramDone true) s fun e =>
        e.recorder.norWait = rest ∧
        e.bill.records = s.dev.bill.records.filter (fun x => x.seq != q)) ∧
  (∀ (s : State) (w : Sum (Nat × List Byte) EventRecord) (rest : List (Sum (Nat × List Byte) EventRecord)),
      s.dev.recorder.norWait = w :: rest →
      s.dev.recorder.norBytes + 4 + (norEntry w).2.length ≤ 4096 →
      Completes (.norProgramDone false) s fun e =>
        e.recorder.norWait = w :: rest ∧
        e.recorder.norSkipped = s.dev.recorder.norHead :: s.dev.recorder.norSkipped ∧
        e.recorder.norBytes = 4096 ∧
        e.bit Reg.evrEvents 4 = true) ∧
  (∀ (s : State) (ok : Bool),
      s.dev.recorder.norWait = [] →
      Completes (.norProgramDone ok) s fun e =>
        e.recorder = s.dev.recorder ∧
        e.bill = s.dev.bill ∧
        s.dev.RegsBut e [Reg.secWaitMax, Reg.secEvents]) ∧
  (∀ (s : State),
      s.dev.recorder.norErased = none →
      Completes (.norEraseDone true) s fun e =>
        e.recorder.norErased = some s.dev.recorder.eraseTarget ∧
        e.recorder.norSectors = s.dev.recorder.norSectors.filter (fun k => k.sector != s.dev.recorder.eraseTarget) ∧
        e.recorder.norSkipped = s.dev.recorder.norSkipped) ∧
  (∀ (s : State),
      s.dev.recorder.norErased = none →
      Completes (.norEraseDone false) s fun e =>
        e.recorder.norErased = none ∧
        e.recorder.norSkipped = s.dev.recorder.eraseTarget :: s.dev.recorder.norSkipped ∧
        e.bit Reg.evrEvents 4 = true) ∧
  (∀ (s : State) (ok : Bool),
      s.dev.recorder.norErased.isSome = true →
      Completes (.norEraseDone ok) s fun e =>
        e.recorder.norErased = s.dev.recorder.norErased ∧
        e.recorder.norSectors = s.dev.recorder.norSectors ∧
        s.dev.RegsBut e [Reg.memArcEvents])

/-- A link that trains with the archive fitted makes the port ready, at no more than the generation set, with the sizes of the namespaces found. A block is sealed only once its result is there, the buffer has room and its content is enough. A write done takes its place; an error is
retried once and a second one fails the namespace alone; a command without completion for 2 s resets the controller, what was outstanding waiting again, and three resets within 10 minutes take the archive down; before that
and without the command nothing changes. A GO ends at once with result 6 where the archive is not fitted or issues nothing, 1 where the copy at hand is the block, 4 where the block is unknown, 3 where its key is gone, else it reads; one without bit 31, or while one reads, does nothing. A read that fails ends with
result 5, a block whose tag or place is wrong with 2, a good one with 1 and its copy. -/
def Obligations.ArchivePort : Prop :=
  (∀ (s : State) (g : Fin 4) (z : Vector Nat 8) (more : Bool),
      s.dev.arcOn = true →
      s.dev.archive.state = .training ∨ s.dev.archive.state = .off →
      Completes (.pcieLinkTrained g z more) s fun e =>
        (e.archive.state = .ready ∨ e.archive.state = .writing) ∧
        e.archive.gen = min g.1 (s.dev.field Reg.memArcCfg 0 2) ∧
        (z.toList.sum ≤ 2 ^ 36 → ∀ k, (e.archive.ns.get k).size = z.get k) ∧
        s.dev.RegsBut e [Reg.memArcEvents]) ∧
  (∀ (s : State) (g : Fin 4) (z : Vector Nat 8) (more : Bool),
      s.dev.arcOn = false ∨ (s.dev.archive.state ≠ .training ∧ s.dev.archive.state ≠ .off) →
      Completes (.pcieLinkTrained g z more) s fun e =>
        s.dev.Keeps e []) ∧
  (∀ (s : State) (k : Fin 8),
      s.dev.resultReady (.archive k) = true →
      s.dev.archive.buffer = [] →
      s.dev.waveReady k = true ∨ s.dev.recsReady k = true →
      s.dev.archive.issues = false →
      Completes (.archiveBlockSealed k) s fun e =>
        (e.archive.buffer.map ArchiveBlock.ns) = [k] ∧
        e.reg (Reg.memArcNsNext k) = BitVec.ofNat 32 ((e.archive.buffer.map ArchiveBlock.no).headD 0 + 1) ∧
        (e.archive.buffer.map ArchiveBlock.root) = [s.dev.sec.vault.drk.epoch]) ∧
  (∀ (s : State) (k : Fin 8),
      s.dev.resultReady (.archive k) = false ∨ 256 ≤ s.dev.archive.buffer.length →
      Completes (.archiveBlockSealed k) s fun e =>
        s.dev.Keeps e []) ∧
  (∀ (s : State) (k : Fin 8),
      s.dev.resultReady (.archive k) = true →
      s.dev.archive.buffer.length < 256 →
      s.dev.waveReady k = false →
      s.dev.recsReady k = false →
      Completes (.archiveBlockSealed k) s fun e =>
        e.archive = s.dev.archive ∧
        s.dev.Keeps e [.sec] ∧
        e.sec.dues = s.dev.sec.dues.filter (fun x => decide (x.use ≠ .archive k))) ∧
  (∀ (s : State) (i : Fin 64) (c : NvmeCmd) (b : ArchiveBlock),
      s.dev.archive.cmds.get i = some c →
      c.block = some b →
      s.dev.archive.buffer = [] →
      Completes (.nvmeCompletion i .ok) s fun e =>
        e.archive.cmds.get i = none ∧
        e.archive.ns = s.dev.archive.ns.set b.ns.1 ((s.dev.archive.ns.get b.ns).written b) ∧
        s.dev.Keeps e [.archive]) ∧
  (∀ (s : State) (i : Fin 64) (c : NvmeCmd) (b : ArchiveBlock),
      s.dev.archive.cmds.get i = some c →
      c.block = some b →
      c.tries = 0 →
      Completes (.nvmeCompletion i .error) s fun e =>
        e.archive = { s.dev.archive with cmds := s.dev.archive.cmds.set i.1 (some { c with tries := 1, since := s.dev.now }) } ∧
        s.dev.Keeps e [.archive]) ∧
  (∀ (s : State) (i : Fin 64) (c : NvmeCmd) (b : ArchiveBlock) (k : Fin 8),
      s.dev.archive.cmds.get i = some c →
      c.block = some b →
      c.tries = 1 →
      k ≠ b.ns →
      Completes (.nvmeCompletion i .error) s fun e =>
        (e.archive.ns.get b.ns).failed = true ∧
        e.archive.ns.get k = s.dev.archive.ns.get k ∧
        e.bit Reg.memArcEvents (8 + b.ns.1) = true ∧
        s.dev.RegsBut e [Reg.memArcEvents]) ∧
  (∀ (s : State) (i : Fin 64) (st : NvmeStatus),
      (s.dev.archive.cmds.get i).bind NvmeCmd.block = none →
      Completes (.nvmeCompletion i st) s fun e =>
        s.dev.Keeps e []) ∧
  (∀ (s : State) (i : Fin 64) (c : NvmeCmd),
      s.dev.archive.cmds.get i = some c →
      c.since + secs 2 ≤ s.dev.now →
      (s.dev.archive.resets.filter (fun t => s.dev.now < t + secs 600)).length < 2 →
      Completes (.nvmeTimeout i) s fun e =>
        e.archive.resets = s.dev.now :: s.dev.archive.resets.filter (fun t => s.dev.now < t + secs 600) ∧
        e.archive.state ≠ .down ∧
        e.bit Reg.memArcEvents 2 = true ∧
        s.dev.RegsBut e [Reg.memArcEvents]) ∧
  (∀ (s : State) (i : Fin 64) (c : NvmeCmd),
      s.dev.archive.cmds.get i = some c →
      c.since + secs 2 ≤ s.dev.now →
      2 ≤ (s.dev.archive.resets.filter (fun t => s.dev.now < t + secs 600)).length →
      Completes (.nvmeTimeout i) s fun e =>
        e.archive.state = .down ∧
        e.archive.cmds = Vector.replicate 64 none ∧
        e.bit Reg.memArcEvents 2 = true ∧
        e.bit Reg.memArcEvents 3 = true ∧
        s.dev.RegsBut e [Reg.memArcEvents]) ∧
  (∀ (s : State) (i : Fin 64),
      ((s.dev.archive.cmds.get i).map fun c => decide (c.since + secs 2 ≤ s.dev.now)) ≠ some true →
      Completes (.nvmeTimeout i) s fun e =>
        s.dev.Keeps e []) ∧
  (∀ (s : State) (w : Word),
      s.dev.recording = true →
      bitOf w 31 = true →
      s.dev.archive.reading = none →
      s.dev.arcOn = false ∨ s.dev.archive.issues = false →
      Completes (.arcReadGo w) s fun e =>
        e.archive = { s.dev.archive with result := 6, page := fieldOf w 0 4 } ∧
        s.dev.Keeps e [.archive]) ∧
  (∀ (s : State) (w : Word),
      s.dev.recording = true →
      bitOf w 31 = true →
      s.dev.archive.reading = none →
      s.dev.arcOn = true →
      s.dev.archive.issues = true →
      ((s.dev.archive.copy.map fun c => decide (c.1 = ((Fin.ofNat 8 (s.dev.field Reg.memArcRdNs 0 3)) : Fin 8).1 ∧ c.2.1 = s.dev.reg Reg.memArcRdEpoch ∧ c.2.2.1 = ((s.dev.reg Reg.memArcRdBlockHi).toNat * 2 ^ 32 + (s.dev.reg Reg.memArcRdBlockLo).toNat))).getD false) = true →
      Completes (.arcReadGo w) s fun e =>
        e.archive = { s.dev.archive with result := 1, page := fieldOf w 0 4 } ∧
        s.dev.Keeps e [.archive]) ∧
  (∀ (s : State) (w : Word),
      s.dev.recording = true →
      bitOf w 31 = true →
      s.dev.archive.reading = none →
      s.dev.arcOn = true →
      s.dev.archive.issues = true →
      ((s.dev.archive.copy.map fun c => decide (c.1 = ((Fin.ofNat 8 (s.dev.field Reg.memArcRdNs 0 3)) : Fin 8).1 ∧ c.2.1 = s.dev.reg Reg.memArcRdEpoch ∧ c.2.2.1 = ((s.dev.reg Reg.memArcRdBlockHi).toNat * 2 ^ 32 + (s.dev.reg Reg.memArcRdBlockLo).toNat))).getD false) = false →
      ((s.dev.archive.ns.get (Fin.ofNat 8 (s.dev.field Reg.memArcRdNs 0 3))).blocks.find? fun b => b.epoch == s.dev.reg Reg.memArcRdEpoch && b.no == ((s.dev.reg Reg.memArcRdBlockHi).toNat * 2 ^ 32 + (s.dev.reg Reg.memArcRdBlockLo).toNat)) = none →
      Completes (.arcReadGo w) s fun e =>
        e.archive = { s.dev.archive with result := 4, page := fieldOf w 0 4 } ∧
        s.dev.Keeps e [.archive]) ∧
  (∀ (s : State) (w : Word) (b : ArchiveBlock),
      s.dev.recording = true →
      bitOf w 31 = true →
      s.dev.archive.reading = none →
      s.dev.arcOn = true →
      s.dev.archive.issues = true →
      ((s.dev.archive.copy.map fun c => decide (c.1 = ((Fin.ofNat 8 (s.dev.field Reg.memArcRdNs 0 3)) : Fin 8).1 ∧ c.2.1 = s.dev.reg Reg.memArcRdEpoch ∧ c.2.2.1 = ((s.dev.reg Reg.memArcRdBlockHi).toNat * 2 ^ 32 + (s.dev.reg Reg.memArcRdBlockLo).toNat))).getD false) = false →
      ((s.dev.archive.ns.get (Fin.ofNat 8 (s.dev.field Reg.memArcRdNs 0 3))).blocks.find? fun b => b.epoch == s.dev.reg Reg.memArcRdEpoch && b.no == ((s.dev.reg Reg.memArcRdBlockHi).toNat * 2 ^ 32 + (s.dev.reg Reg.memArcRdBlockLo).toNat)) = some b →
      b.root ≠ s.dev.sec.vault.drk.epoch →
      Completes (.arcReadGo w) s fun e =>
        e.archive = { s.dev.archive with result := 3, page := fieldOf w 0 4 } ∧
        s.dev.Keeps e [.archive]) ∧
  (∀ (s : State) (w : Word) (b : ArchiveBlock),
      s.dev.recording = true →
      bitOf w 31 = true →
      s.dev.archive.reading = none →
      s.dev.arcOn = true →
      s.dev.archive.issues = true →
      ((s.dev.archive.copy.map fun c => decide (c.1 = ((Fin.ofNat 8 (s.dev.field Reg.memArcRdNs 0 3)) : Fin 8).1 ∧ c.2.1 = s.dev.reg Reg.memArcRdEpoch ∧ c.2.2.1 = ((s.dev.reg Reg.memArcRdBlockHi).toNat * 2 ^ 32 + (s.dev.reg Reg.memArcRdBlockLo).toNat))).getD false) = false →
      ((s.dev.archive.ns.get (Fin.ofNat 8 (s.dev.field Reg.memArcRdNs 0 3))).blocks.find? fun b => b.epoch == s.dev.reg Reg.memArcRdEpoch && b.no == ((s.dev.reg Reg.memArcRdBlockHi).toNat * 2 ^ 32 + (s.dev.reg Reg.memArcRdBlockLo).toNat)) = some b →
      b.root = s.dev.sec.vault.drk.epoch →
      Completes (.arcReadGo w) s fun e =>
        e.archive.reading = some (((Fin.ofNat 8 (s.dev.field Reg.memArcRdNs 0 3)) : Fin 8).1, s.dev.reg Reg.memArcRdEpoch, ((s.dev.reg Reg.memArcRdBlockHi).toNat * 2 ^ 32 + (s.dev.reg Reg.memArcRdBlockLo).toNat), fieldOf w 0 4) ∧
        e.archive.result = 0 ∧
        s.dev.Keeps e [.archive]) ∧
  (∀ (s : State) (w : Word),
      s.dev.recording = false ∨ bitOf w 31 = false ∨ s.dev.archive.reading.isSome = true →
      Completes (.arcReadGo w) s fun e =>
        s.dev.Keeps e []) ∧
  (∀ (s : State) (k : Nat) (epoch : Word) (no page : Nat),
      s.dev.archive.reading = some (k, epoch, no, page) →
      Completes (.arcReadDone .ioError) s fun e =>
        e.archive.reading = none ∧
        e.archive.result = 5 ∧
        e.archive.page = page ∧
        e.archive.copy = s.dev.archive.copy ∧
        s.dev.Keeps e [.archive]) ∧
  (∀ (s : State) (k : Nat) (epoch : Word) (no page : Nat) (b : List Byte),
      s.dev.archive.reading = some (k, epoch, no, page) →
      Completes (.arcReadDone (.data b)) s fun e =>
        e.archive.reading = none ∧
        e.archive.page = page ∧
        ((∃ text, Config.gcmOpen (archiveKey s.dev.sec.vault.drk.key k epoch) (bytesBE 8 no ++ bytesBE 1 k ++ [0, 0, 0]) (slice b 0 64) (slice b 64 (blockRoom + 16)) = some text) → (fieldBE (slice b 0 64) 0 4 = 0x41524342 ∧ fieldBE (slice b 0 64) 4 1 = k ∧ fieldBE (slice b 0 64) 8 4 = epoch.toNat ∧ fieldBE (slice b 0 64) 0x10 8 = no) → e.archive.result = 1 ∧ ∃ c, e.archive.copy = some (k, epoch, no, c)) ∧
        (Config.gcmOpen (archiveKey s.dev.sec.vault.drk.key k epoch) (bytesBE 8 no ++ bytesBE 1 k ++ [0, 0, 0]) (slice b 0 64) (slice b 64 (blockRoom + 16)) = none ∨ ¬ (fieldBE (slice b 0 64) 0 4 = 0x41524342 ∧ fieldBE (slice b 0 64) 4 1 = k ∧ fieldBE (slice b 0 64) 8 4 = epoch.toNat ∧ fieldBE (slice b 0 64) 0x10 8 = no) → e.archive.result = 2 ∧ e.archive.copy = s.dev.archive.copy ∧ s.dev.RegsBut e [])) ∧
  (∀ (s : State) (r : ArcRead),
      s.dev.archive.reading = none →
      Completes (.arcReadDone r) s fun e =>
        s.dev.Keeps e [])

/-- At a frame boundary a TN display turns the polarity and takes the wanted image, which then stands in the mirror; a bistable one begins a write pass over the commons that differ or are dirty, or, while one still runs, has the next one due and
sets FRAME_SLOW. A ball that differs a third frame in a row is marked, and 16 agreeing frames clear its mark. A pulse that has lasted its time commits its row, counts its stress and passes on to the next common, the last one to the pass that is due, if any. VLCD out of range
stops the drive, and it is started again once per second until VLCD holds. Early, or where the glass is not driven, nothing changes. -/
def Obligations.DisplayRules : Prop :=
  (∀ (s : State) (f : BitVec 68),
      s.dev.disp.state = .scroll ∨ s.dev.disp.state = .legend →
      s.dev.disp.frameAt + s.dev.frameTicks ≤ s.dev.now →
      s.dev.bistable = false →
      Completes (.displayFrame f) s fun e =>
        e.disp.frameAt = s.dev.now ∧
        e.disp.polarity = !s.dev.disp.polarity ∧
        e.disp.want = s.dev.wantedImage ∧
        (∀ k < 15, e.reg (Reg.lioImage k) = s.dev.wantedImage.toList.getD k 0) ∧
        e.disp.state = s.dev.disp.state ∧
        e.disp.pass = s.dev.disp.pass ∧
        s.dev.Keeps e [.disp, .recorder, .rLio]) ∧
  (∀ (s : State) (f : BitVec 68),
      s.dev.disp.state = .scroll ∨ s.dev.disp.state = .legend →
      s.dev.disp.frameAt + s.dev.frameTicks ≤ s.dev.now →
      s.dev.bistable = false →
      Completes (.displayFrame f) s fun e =>
        (∀ b < 68, bitOf (e.reg (Reg.lioDispPinfault0 + 4 * (b / 32))) (b % 32) = if f.getLsbD b then bitOf (s.dev.reg (Reg.lioDispPinfault0 + 4 * (b / 32))) (b % 32) || decide ((((s.dev.disp.differ.find? fun p => p.1 == b).map Prod.snd).getD 0) = 2) else bitOf (s.dev.reg (Reg.lioDispPinfault0 + 4 * (b / 32))) (b % 32) && decide ((((s.dev.disp.agree.find? fun p => p.1 == b).map Prod.snd).getD 0) < 15))) ∧
  (∀ (s : State) (f : BitVec 68),
      s.dev.disp.state = .scroll →
      s.dev.disp.frameAt + s.dev.frameTicks ≤ s.dev.now →
      s.dev.bistable = true →
      s.dev.disp.pass = [] →
      Completes (.displayFrame f) s fun e =>
        e.disp.frameAt = s.dev.now ∧
        e.disp.pulseAt = s.dev.now ∧
        e.disp.want = s.dev.wantedImage ∧
        e.disp.passDue = false ∧
        e.disp.pass = ((List.finRange 8).filter fun c => e.rowDiff c.1 != 0 || s.dev.dirty c.1) ∧
        (∀ c : Fin 8, e.dirty c.1 = (s.dev.dirty c.1 || e.disp.pass.head? == some c)) ∧
        (∀ k < 15, e.reg (Reg.lioImage k) = s.dev.reg (Reg.lioImage k)) ∧
        s.dev.Keeps e [.disp, .recorder, .rLio]) ∧
  (∀ (s : State) (f : BitVec 68),
      s.dev.disp.state = .legend →
      s.dev.disp.frameAt + s.dev.frameTicks ≤ s.dev.now →
      s.dev.bistable = true →
      s.dev.disp.pass = [] →
      Completes (.displayFrame f) s fun e =>
        e.disp.frameAt = s.dev.now ∧
        e.disp.pass = (if s.dev.reg Reg.lioDirty = 0 then [] else List.finRange 8) ∧
        e.disp.want = (s.dev.onScroll legendContent).wantedImage ∧
        s.dev.Keeps e [.disp, .recorder, .rLio]) ∧
  (∀ (s : State) (f : BitVec 68),
      s.dev.disp.state = .scroll ∨ s.dev.disp.state = .legend →
      s.dev.disp.frameAt + s.dev.frameTicks ≤ s.dev.now →
      s.dev.bistable = true →
      s.dev.disp.pass ≠ [] →
      Completes (.displayFrame f) s fun e =>
        e.disp.frameAt = s.dev.now ∧
        e.disp.passDue = true ∧
        e.disp.pass = s.dev.disp.pass ∧
        e.disp.want = s.dev.disp.want ∧
        e.bit Reg.lioEvents 2 = true ∧
        s.dev.RegsBut e [Reg.lioEvents]) ∧
  (∀ (s : State) (f : BitVec 68),
      (s.dev.disp.state ≠ .scroll ∧ s.dev.disp.state ≠ .legend) ∨ s.dev.now < s.dev.disp.frameAt + s.dev.frameTicks →
      Completes (.displayFrame f) s fun e =>
        s.dev.Keeps e []) ∧
  (∀ (s : State) (c : Fin 8) (rest : List (Fin 8)) (f : Fin 8),
      s.dev.disp.pass = c :: rest →
      s.dev.disp.pulseAt + s.dev.pulseLen ≤ s.dev.now →
      rest = f :: (rest.drop 1) →
      f ≠ c →
      Completes .bistablePulseEnd s fun e =>
        e.disp.pass = rest ∧
        e.disp.want = s.dev.disp.want ∧
        e.dirty c.1 = false ∧
        e.dirty f.1 = true ∧
        (∀ p < 480, imagePixel e.mirror15 p = if p / 60 = c.1 then imagePixel s.dev.disp.wantWord p else imagePixel s.dev.mirror15 p) ∧
        e.disp.stress.get c = s.dev.disp.stress.get c + s.dev.rowDiff c.1 ∧
        e.disp.pulseAt = s.dev.now ∧
        s.dev.Keeps e [.disp, .rLio]) ∧
  (∀ (s : State) (c : Fin 8),
      s.dev.disp.pass = [c] →
      s.dev.disp.pulseAt + s.dev.pulseLen ≤ s.dev.now →
      s.dev.disp.passDue = false →
      Completes .bistablePulseEnd s fun e =>
        e.disp.pass = [] ∧
        e.disp.want = s.dev.disp.want ∧
        e.dirty c.1 = false ∧
        (∀ p < 480, imagePixel e.mirror15 p = if p / 60 = c.1 then imagePixel s.dev.disp.wantWord p else imagePixel s.dev.mirror15 p) ∧
        e.disp.stress.get c = s.dev.disp.stress.get c + s.dev.rowDiff c.1 ∧
        e.disp.pulseAt = s.dev.now ∧
        s.dev.Keeps e [.disp, .rLio]) ∧
  (∀ (s : State) (c : Fin 8),
      s.dev.disp.pass = [c] →
      s.dev.disp.pulseAt + s.dev.pulseLen ≤ s.dev.now →
      s.dev.disp.passDue = true →
      s.dev.disp.state = .scroll →
      Completes .bistablePulseEnd s fun e =>
        e.disp.passDue = false ∧
        e.disp.want = s.dev.wantedImage ∧
        e.disp.pass = ((List.finRange 8).filter fun k => e.rowDiff k.1 != 0 || (s.dev.dirty k.1 && k != c)) ∧
        (∀ p < 480, imagePixel e.mirror15 p = if p / 60 = c.1 then imagePixel s.dev.disp.wantWord p else imagePixel s.dev.mirror15 p) ∧
        e.disp.stress.get c = s.dev.disp.stress.get c + s.dev.rowDiff c.1 ∧
        e.disp.pulseAt = s.dev.now ∧
        s.dev.Keeps e [.disp, .rLio]) ∧
  (∀ (s : State),
      s.dev.disp.pass = [] ∨ s.dev.now < s.dev.disp.pulseAt + s.dev.pulseLen →
      Completes .bistablePulseEnd s fun e =>
        s.dev.Keeps e []) ∧
  (∀ (s : State),
      s.dev.disp.state = .scroll ∨ s.dev.disp.state = .legend →
      Completes .vlcdFault s fun e =>
        e.disp = { s.dev.disp with state := .fault, faultNow := true, restartAt := s.dev.now + secs 1, pass := [], passDue := false } ∧
        e.bit Reg.lioEvents 1 = true ∧
        s.dev.RegsBut e [Reg.lioEvents] ∧
        s.dev.Keeps e [.disp, .recorder, .rLio]) ∧
  (∀ (s : State),
      s.dev.disp.state ≠ .scroll ∧ s.dev.disp.state ≠ .legend →
      Completes .vlcdFault s fun e =>
        s.dev.Keeps e []) ∧
  (∀ (s : State),
      s.dev.disp.faultNow = true →
      s.dev.power.brace = false →
      s.dev.disp.restartAt ≤ s.dev.now →
      Completes (.vlcdRestart true) s fun e =>
        e.disp = { s.dev.disp with faultNow := false, state := s.dev.mode.display } ∧
        s.dev.Keeps e [.disp]) ∧
  (∀ (s : State),
      s.dev.disp.faultNow = true →
      s.dev.power.brace = false →
      s.dev.disp.restartAt ≤ s.dev.now →
      Completes (.vlcdRestart false) s fun e =>
        e.disp = { s.dev.disp with restartAt := s.dev.now + secs 1 } ∧
        s.dev.Keeps e [.disp]) ∧
  (∀ (s : State) (b : Bool),
      s.dev.disp.faultNow = false ∨ s.dev.power.brace = true ∨ s.dev.now < s.dev.disp.restartAt →
      Completes (.vlcdRestart b) s fun e =>
        s.dev.Keeps e [])

/-- A measurement counts towards a touch from THRESH on and towards a release below three quarters of it; a run of 3 to 19 is a glitch, and the first one after a bring-up that finds δ at THRESH blocks the key. In the tick of the twentieth measurement a touch is
taken: of HOLD it freezes the item, where none is frozen, of either key it lifts a freeze; beside another touched key it is ignored, in one tick both are. A short touch of SCROLL advances one item at its release, one of 1 s passes to the next
section. 60 s make a key stuck and 5 s free enable it, 5 s at or below -THRESH rebase it, and every DRIFT_S the baseline moves one count towards the measurement. Without touches the scroll advances every AUTO_S, and again from 30 s after
the last touch. Out of these conditions nothing changes. -/
def Obligations.KeyRules : Prop :=
  (∀ (s : State) (k : Fin 2) (m : BitVec 16),
      (s.dev.keys.get k).first = false →
      s.dev.keyThresh ≤ ((m.toNat : Int) - ((s.dev.keys.get k).base.toNat : Int)) →
      0 < s.dev.keyThresh →
      Completes (.keyMeasurement k m) s fun e =>
        e.keys.get k = { (s.dev.keys.get k) with meas := m, measAt := s.dev.now, above := min 20 ((s.dev.keys.get k).above + 1), below := 0, lowSince := none, freeSince := none } ∧
        e.keys.get (otherKey k) = s.dev.keys.get (otherKey k) ∧
        s.dev.Keeps e [.keys]) ∧
  (∀ (s : State) (k : Fin 2) (m : BitVec 16),
      (s.dev.keys.get k).first = true →
      s.dev.keyThresh ≤ ((m.toNat : Int) - ((s.dev.keys.get k).base.toNat : Int)) →
      0 < s.dev.keyThresh →
      Completes (.keyMeasurement k m) s fun e =>
        e.keys.get k = { (s.dev.keys.get k) with meas := m, measAt := s.dev.now, above := min 20 ((s.dev.keys.get k).above + 1), below := 0, first := false, blocked := true, lowSince := none, freeSince := none } ∧
        e.keys.get (otherKey k) = s.dev.keys.get (otherKey k) ∧
        e.bit Reg.lioEvents (10 + k.1) = true ∧
        s.dev.RegsBut e [Reg.lioEvents]) ∧
  (∀ (s : State) (k : Fin 2) (m : BitVec 16),
      4 * ((m.toNat : Int) - ((s.dev.keys.get k).base.toNat : Int)) < 3 * s.dev.keyThresh →
      (s.dev.keys.get k).above < 3 ∨ 19 < (s.dev.keys.get k).above ∨ (s.dev.keys.get k).touched = true ∨ (s.dev.keys.get k).blocked = true →
      Completes (.keyMeasurement k m) s fun e =>
        e.keys.get k = { (s.dev.keys.get k) with meas := m, measAt := s.dev.now, above := 0, below := min 20 ((s.dev.keys.get k).below + 1), first := false, lowSince := if ((m.toNat : Int) - ((s.dev.keys.get k).base.toNat : Int)) ≤ -s.dev.keyThresh then some ((s.dev.keys.get k).lowSince.getD s.dev.now) else none, freeSince := some ((s.dev.keys.get k).freeSince.getD s.dev.now) } ∧
        e.keys.get (otherKey k) = s.dev.keys.get (otherKey k) ∧
        s.dev.Keeps e [.keys]) ∧
  (∀ (s : State) (k : Fin 2) (m : BitVec 16),
      3 * s.dev.keyThresh ≤ 4 * ((m.toNat : Int) - ((s.dev.keys.get k).base.toNat : Int)) →
      ((m.toNat : Int) - ((s.dev.keys.get k).base.toNat : Int)) < s.dev.keyThresh →
      (s.dev.keys.get k).above < 3 ∨ 19 < (s.dev.keys.get k).above ∨ (s.dev.keys.get k).touched = true ∨ (s.dev.keys.get k).blocked = true →
      Completes (.keyMeasurement k m) s fun e =>
        (e.keys.get k).above = 0 ∧
        (e.keys.get k).below = 0 ∧
        (e.keys.get k).freeSince = none ∧
        (e.keys.get k).base = (s.dev.keys.get k).base ∧
        e.keys.get (otherKey k) = s.dev.keys.get (otherKey k) ∧
        s.dev.Keeps e [.keys]) ∧
  (∀ (s : State) (k : Fin 2) (m : BitVec 16),
      ((m.toNat : Int) - ((s.dev.keys.get k).base.toNat : Int)) < s.dev.keyThresh →
      3 ≤ (s.dev.keys.get k).above →
      (s.dev.keys.get k).above ≤ 19 →
      (s.dev.keys.get k).touched = false →
      (s.dev.keys.get k).blocked = false →
      Completes (.keyMeasurement k m) s fun e =>
        (e.keys.get k).above = 0 ∧
        (e.keys.get k).base = (s.dev.keys.get k).base ∧
        e.field Reg.lioKeyGlitch (16 * k.1) 16 = min 0xFFFF (s.dev.field Reg.lioKeyGlitch (16 * k.1) 16 + 1) ∧
        e.field Reg.lioKeyGlitch (16 * (otherKey k).1) 16 = s.dev.field Reg.lioKeyGlitch (16 * (otherKey k).1) 16 ∧
        e.bit Reg.lioEvents 12 = true ∧
        e.keys.get (otherKey k) = s.dev.keys.get (otherKey k) ∧
        s.dev.RegsBut e [Reg.lioKeyGlitch, Reg.lioEvents]) ∧
  (∀ (s : State) (k : Fin 2),
      20 ≤ (s.dev.keys.get k).above →
      (s.dev.keys.get k).measAt = s.dev.now →
      (s.dev.keys.get k).touched = false →
      (s.dev.keys.get k).blocked = false →
      (s.dev.keys.get k).stuck = false →
      s.dev.mode ≠ .dormant →
      s.dev.mode ≠ .waking →
      (s.dev.keys.get (otherKey k)).touched = false →
      Completes (.keyTouch k) s fun e =>
        e.keys.get k = { (s.dev.keys.get k) with touched := true, touchAt := s.dev.now, long := false, ignored := false } ∧
        e.keys.get (otherKey k) = s.dev.keys.get (otherKey k) ∧
        e.scroll = s.shown.content s.dev.mode { s.dev.scroll with frozen := (if s.dev.scroll.frozen then false else k == 1), auto := false, touchAt := s.dev.now } ∧
        s.dev.Keeps e [.scroll, .keys]) ∧
  (∀ (s : State),
      20 ≤ (s.dev.keys.get 1).above →
      (s.dev.keys.get 1).measAt = s.dev.now →
      (s.dev.keys.get 1).touched = false →
      (s.dev.keys.get 1).blocked = false →
      (s.dev.keys.get 1).stuck = false →
      s.dev.mode = .run →
      (s.dev.keys.get 0).touched = false →
      Completes (.keyTouch 1) s fun e =>
        e.scroll.frozen = !s.dev.scroll.frozen ∧
        e.scroll.auto = false ∧
        e.scroll.item = s.dev.scroll.item ∧
        e.scroll.section_ = s.dev.scroll.section_ ∧
        s.dev.Keeps e [.scroll, .keys]) ∧
  (∀ (s : State) (k : Fin 2),
      20 ≤ (s.dev.keys.get k).above →
      (s.dev.keys.get k).measAt = s.dev.now →
      (s.dev.keys.get k).touched = false →
      (s.dev.keys.get k).blocked = false →
      (s.dev.keys.get k).stuck = false →
      s.dev.mode ≠ .dormant →
      s.dev.mode ≠ .waking →
      (s.dev.keys.get (otherKey k)).touched = true →
      (s.dev.keys.get (otherKey k)).touchAt ≠ s.dev.now →
      Completes (.keyTouch k) s fun e =>
        e.keys.get k = { (s.dev.keys.get k) with touched := true, touchAt := s.dev.now, long := false, ignored := true } ∧
        e.keys.get (otherKey k) = s.dev.keys.get (otherKey k) ∧
        s.dev.Keeps e [.keys]) ∧
  (∀ (s : State) (k : Fin 2),
      20 ≤ (s.dev.keys.get k).above →
      (s.dev.keys.get k).measAt = s.dev.now →
      (s.dev.keys.get k).touched = false →
      (s.dev.keys.get k).blocked = false →
      (s.dev.keys.get k).stuck = false →
      s.dev.mode ≠ .dormant →
      s.dev.mode ≠ .waking →
      (s.dev.keys.get (otherKey k)).touched = true →
      (s.dev.keys.get (otherKey k)).touchAt = s.dev.now →
      Completes (.keyTouch k) s fun e =>
        e.keys.get k = { (s.dev.keys.get k) with touched := true, touchAt := s.dev.now, long := false, ignored := true } ∧
        e.keys.get (otherKey k) = { (s.dev.keys.get (otherKey k)) with ignored := true } ∧
        e.scroll = s.shown.content s.dev.mode { s.dev.scroll with frozen := s.shown.scroll.frozen, auto := s.shown.scroll.auto, touchAt := s.shown.scroll.touchAt } ∧
        s.dev.Keeps e [.scroll, .keys]) ∧
  (∀ (s : State) (k : Fin 2),
      (s.dev.keys.get k).above < 20 ∨ (s.dev.keys.get k).measAt ≠ s.dev.now ∨ (s.dev.keys.get k).touched = true ∨ (s.dev.keys.get k).blocked = true ∨ (s.dev.keys.get k).stuck = true ∨ s.dev.mode = .dormant ∨ s.dev.mode = .waking →
      Completes (.keyTouch k) s fun e =>
        s.dev.Keeps e []) ∧
  (∀ (s : State),
      20 ≤ (s.dev.keys.get 0).below →
      (s.dev.keys.get 0).measAt = s.dev.now →
      (s.dev.keys.get 0).touched = true →
      (s.dev.keys.get 0).ignored = false →
      (s.dev.keys.get 0).long = false →
      (s.dev.keys.get 0).stuck = false →
      s.dev.now < (s.dev.keys.get 0).touchAt + secs 1 →
      s.dev.scroll.item + 1 < s.dev.sectionLen s.dev.scroll.section_ →
      Completes (.keyRelease 0) s fun e =>
        e.keys.get 0 = { (s.dev.keys.get 0) with touched := false, blocked := false, ignored := false, long := false } ∧
        e.keys.get 1 = s.dev.keys.get 1 ∧
        e.scroll = { s.shown.content s.dev.mode { s.dev.scroll with item := s.dev.scroll.item + 1 } with touchAt := s.dev.now, auto := false } ∧
        s.dev.Keeps e [.scroll, .keys]) ∧
  (∀ (s : State),
      20 ≤ (s.dev.keys.get 0).below →
      (s.dev.keys.get 0).measAt = s.dev.now →
      (s.dev.keys.get 0).touched = true →
      (s.dev.keys.get 0).ignored = false →
      (s.dev.keys.get 0).long = false →
      (s.dev.keys.get 0).stuck = false →
      s.dev.now < (s.dev.keys.get 0).touchAt + secs 1 →
      s.dev.sectionLen s.dev.scroll.section_ ≤ s.dev.scroll.item + 1 →
      Completes (.keyRelease 0) s fun e =>
        e.keys.get 0 = { (s.dev.keys.get 0) with touched := false, blocked := false, ignored := false, long := false } ∧
        e.keys.get 1 = s.dev.keys.get 1 ∧
        e.scroll = { s.shown.content s.dev.mode { s.dev.scroll with section_ := s.dev.nextSection false s.dev.scroll.section_, item := 0 } with touchAt := s.dev.now, auto := false } ∧
        s.dev.Keeps e [.scroll, .keys]) ∧
  (∀ (s : State) (k : Fin 2),
      20 ≤ (s.dev.keys.get k).below →
      (s.dev.keys.get k).measAt = s.dev.now →
      (s.dev.keys.get k).touched = true ∨ (s.dev.keys.get k).blocked = true →
      k = 1 ∨ (s.dev.keys.get k).touched = false ∨ (s.dev.keys.get k).ignored = true ∨ (s.dev.keys.get k).long = true ∨ (s.dev.keys.get k).stuck = true ∨ (s.dev.keys.get k).touchAt + secs 1 ≤ s.dev.now →
      Completes (.keyRelease k) s fun e =>
        e.keys.get k = { (s.dev.keys.get k) with touched := false, blocked := false, ignored := false, long := false } ∧
        e.keys.get (otherKey k) = s.dev.keys.get (otherKey k) ∧
        s.dev.Keeps e [.keys]) ∧
  (∀ (s : State) (k : Fin 2),
      (s.dev.keys.get k).below < 20 ∨ (s.dev.keys.get k).measAt ≠ s.dev.now ∨ ((s.dev.keys.get k).touched = false ∧ (s.dev.keys.get k).blocked = false) →
      Completes (.keyRelease k) s fun e =>
        s.dev.Keeps e []) ∧
  (∀ (s : State),
      (s.dev.keys.get 0).touched = true →
      (s.dev.keys.get 0).ignored = false →
      (s.dev.keys.get 0).long = false →
      (s.dev.keys.get 0).stuck = false →
      (s.dev.keys.get 0).touchAt + secs 1 ≤ s.dev.now →
      Completes .keyLongTouch s fun e =>
        e.keys.get 0 = { (s.dev.keys.get 0) with long := true } ∧
        e.keys.get 1 = s.dev.keys.get 1 ∧
        e.scroll = { s.shown.content s.dev.mode { s.dev.scroll with section_ := s.dev.nextSection false s.dev.scroll.section_, item := 0 } with touchAt := s.dev.now, auto := false } ∧
        s.dev.Keeps e [.scroll, .keys]) ∧
  (∀ (s : State),
      (s.dev.keys.get 0).touched = false ∨ (s.dev.keys.get 0).ignored = true ∨ (s.dev.keys.get 0).long = true ∨ (s.dev.keys.get 0).stuck = true ∨ s.dev.now < (s.dev.keys.get 0).touchAt + secs 1 →
      Completes .keyLongTouch s fun e =>
        s.dev.Keeps e []) ∧
  (∀ (s : State) (k : Fin 2),
      (s.dev.keys.get k).touched = true →
      (s.dev.keys.get k).stuck = false →
      (s.dev.keys.get k).touchAt + secs 60 ≤ s.dev.now →
      Completes (.keyStuck k) s fun e =>
        e.keys.get k = { (s.dev.keys.get k) with stuck := true } ∧
        e.keys.get (otherKey k) = s.dev.keys.get (otherKey k) ∧
        e.bit Reg.lioEvents (8 + k.1) = true ∧
        s.dev.RegsBut e [Reg.lioEvents] ∧
        s.dev.Keeps e [.keys, .recorder, .rLio]) ∧
  (∀ (s : State) (k : Fin 2),
      (s.dev.keys.get k).touched = false ∨ (s.dev.keys.get k).stuck = true ∨ s.dev.now < (s.dev.keys.get k).touchAt + secs 60 →
      Completes (.keyStuck k) s fun e =>
        s.dev.Keeps e []) ∧
  (∀ (s : State) (k : Fin 2),
      (s.dev.keys.get k).stuck = true →
      heldFor (s.dev.keys.get k).freeSince s.dev.now (secs 5) = true →
      Completes (.keyUnstick k) s fun e =>
        e.keys.get k = { (s.dev.keys.get k) with stuck := false, touched := false } ∧
        e.keys.get (otherKey k) = s.dev.keys.get (otherKey k) ∧
        s.dev.Keeps e [.keys]) ∧
  (∀ (s : State) (k : Fin 2),
      (s.dev.keys.get k).stuck = false ∨ heldFor (s.dev.keys.get k).freeSince s.dev.now (secs 5) = false →
      Completes (.keyUnstick k) s fun e =>
        s.dev.Keeps e []) ∧
  (∀ (s : State) (k : Fin 2),
      (s.dev.keys.get k).stuck = false →
      heldFor (s.dev.keys.get k).lowSince s.dev.now (secs 5) = true →
      Completes (.keyRebase k) s fun e =>
        e.keys.get k = { (s.dev.keys.get k) with base := (s.dev.keys.get k).meas, lowSince := none } ∧
        e.keys.get (otherKey k) = s.dev.keys.get (otherKey k) ∧
        e.bit Reg.lioEvents 13 = true ∧
        s.dev.RegsBut e [Reg.lioEvents] ∧
        s.dev.Keeps e [.keys, .recorder, .rLio]) ∧
  (∀ (s : State) (k : Fin 2),
      (s.dev.keys.get k).stuck = true ∨ heldFor (s.dev.keys.get k).lowSince s.dev.now (secs 5) = false →
      Completes (.keyRebase k) s fun e =>
        s.dev.Keeps e []) ∧
  (∀ (s : State) (k : Fin 2),
      (s.dev.keys.get k).touched = false →
      (s.dev.keys.get k).stuck = false →
      (s.dev.keys.get k).blocked = false →
      2 * ((s.dev.keys.get k).delta.natAbs : Int) < s.dev.keyThresh →
      (s.dev.keys.get k).driftAt + secs s.dev.driftSecs ≤ s.dev.now →
      (s.dev.keys.get k).base.toNat < (s.dev.keys.get k).meas.toNat →
      Completes (.keyDrift k) s fun e =>
        e.keys.get k = { (s.dev.keys.get k) with driftAt := s.dev.now, base := (s.dev.keys.get k).base + 1 } ∧
        e.keys.get (otherKey k) = s.dev.keys.get (otherKey k) ∧
        s.dev.Keeps e [.keys]) ∧
  (∀ (s : State) (k : Fin 2),
      (s.dev.keys.get k).touched = false →
      (s.dev.keys.get k).stuck = false →
      (s.dev.keys.get k).blocked = false →
      2 * ((s.dev.keys.get k).delta.natAbs : Int) < s.dev.keyThresh →
      (s.dev.keys.get k).driftAt + secs s.dev.driftSecs ≤ s.dev.now →
      (s.dev.keys.get k).meas.toNat < (s.dev.keys.get k).base.toNat →
      Completes (.keyDrift k) s fun e =>
        e.keys.get k = { (s.dev.keys.get k) with driftAt := s.dev.now, base := (s.dev.keys.get k).base - 1 } ∧
        e.keys.get (otherKey k) = s.dev.keys.get (otherKey k) ∧
        s.dev.Keeps e [.keys]) ∧
  (∀ (s : State) (k : Fin 2),
      (s.dev.keys.get k).touched = false →
      (s.dev.keys.get k).stuck = false →
      (s.dev.keys.get k).blocked = false →
      2 * ((s.dev.keys.get k).delta.natAbs : Int) < s.dev.keyThresh →
      (s.dev.keys.get k).driftAt + secs s.dev.driftSecs ≤ s.dev.now →
      (s.dev.keys.get k).meas = (s.dev.keys.get k).base →
      Completes (.keyDrift k) s fun e =>
        e.keys.get k = { (s.dev.keys.get k) with driftAt := s.dev.now } ∧
        e.keys.get (otherKey k) = s.dev.keys.get (otherKey k) ∧
        s.dev.Keeps e [.keys]) ∧
  (∀ (s : State) (k : Fin 2),
      (s.dev.keys.get k).touched = true ∨ (s.dev.keys.get k).stuck = true ∨ (s.dev.keys.get k).blocked = true ∨ s.dev.keyThresh ≤ 2 * ((s.dev.keys.get k).delta.natAbs : Int) ∨ s.dev.now < (s.dev.keys.get k).driftAt + secs s.dev.driftSecs →
      Completes (.keyDrift k) s fun e =>
        s.dev.Keeps e []) ∧
  (∀ (s : State),
      s.dev.scroll.auto = true →
      s.dev.scroll.frozen = false →
      s.dev.disp.state = .scroll →
      s.dev.scroll.advAt + secs (s.dev.field Reg.bilDispCfg 0 8) ≤ s.dev.now →
      s.dev.scroll.item + 1 < s.dev.sectionLen s.dev.scroll.section_ →
      Completes .scrollAutoAdvance s fun e =>
        e.scroll = { s.shown.content s.dev.mode { s.dev.scroll with item := s.dev.scroll.item + 1 } with advAt := s.dev.now } ∧
        s.dev.Keeps e [.scroll]) ∧
  (∀ (s : State),
      s.dev.scroll.auto = true →
      s.dev.scroll.frozen = false →
      s.dev.disp.state = .scroll →
      s.dev.scroll.advAt + secs (s.dev.field Reg.bilDispCfg 0 8) ≤ s.dev.now →
      s.dev.sectionLen s.dev.scroll.section_ ≤ s.dev.scroll.item + 1 →
      Completes .scrollAutoAdvance s fun e =>
        e.scroll = { s.shown.content s.dev.mode { s.dev.scroll with section_ := s.dev.nextSection true s.dev.scroll.section_, item := 0 } with advAt := s.dev.now } ∧
        s.dev.Keeps e [.scroll]) ∧
  (∀ (s : State),
      s.dev.scroll.auto = false ∨ s.dev.scroll.frozen = true ∨ s.dev.disp.state ≠ .scroll ∨ s.dev.now < s.dev.scroll.advAt + secs (s.dev.field Reg.bilDispCfg 0 8) →
      Completes .scrollAutoAdvance s fun e =>
        s.dev.Keeps e []) ∧
  (∀ (s : State),
      s.dev.scroll.auto = false →
      s.dev.scroll.frozen = false →
      s.dev.scroll.touchAt + secs 30 ≤ s.dev.now →
      Completes .scrollResume s fun e =>
        e.scroll = { s.dev.scroll with auto := true, advAt := s.dev.now } ∧
        s.dev.Keeps e [.scroll]) ∧
  (∀ (s : State),
      s.dev.scroll.auto = true ∨ s.dev.scroll.frozen = true ∨ s.dev.now < s.dev.scroll.touchAt + secs 30 →
      Completes .scrollResume s fun e =>
        s.dev.Keeps e [])

/-- A write to AUX_CMD of an outlet commands its general channels, on with a duty or off; in FAULT an OFF is noted and an ON after it ends the fault, and during the off time of an over-current it only becomes the command. A cooling
channel's byte is ignored. A cooling channel is switched off when its run-on ends; 1 s off after an over-current, or 5 s off after BLOCKED, a channel is commanded on again, the latter counted a retry. OPEN_LOAD of 100 ms sets its bit,
and blocks a cooling channel; MISMATCH of 10 ms sets its bit; a spin-up of SPIN_MS without RUNNING blocks the channel. A blocked channel is off for 5 s with its cap, or in FAULT once its retries are used up. Out of these conditions nothing changes. -/
def Obligations.AuxRules : Prop :=
  (∀ (s : State) (n : LinkId) (w : Word) (k : Fin 4),
      s.dev.recording = true →
      s.dev.role n = .outlet →
      s.dev.auxRole n k = 0 →
      bitOf w (8 * k.1 + 7) = true →
      ((s.dev.link n).aux.get k).fault = false →
      ((s.dev.link n).aux.get k).on = false →
      ((s.dev.link n).aux.get k).offUntil = none →
      s.dev.auxFitted n k = true →
      Completes (.auxCmdWrite n w) s fun e =>
        ((e.link n).aux.get k) = { ((s.dev.link n).aux.get k) with on := true, duty := BitVec.ofNat 6 (fieldOf w (8 * k.1) 6), wanted := true, tach := .unsupervised, spinAt := s.dev.now, offUntil := none, openSince := none, misSince := none, openSet := false, misSet := false, below := false, rate := 0, edges := 0 } ∧
        e.field (Reg.auxCmd n) (8 * k.1) 8 = (if bitOf w (8 * k.1 + 7) then 128 else 0) + fieldOf w (8 * k.1) 6 ∧
        s.dev.LinksBut e n ∧
        s.dev.RegsBut e [Reg.auxCmd n] ∧
        s.dev.Keeps e [.aux, .rAux]) ∧
  (∀ (s : State) (n : LinkId) (w : Word) (k : Fin 4),
      s.dev.recording = true →
      s.dev.role n = .outlet →
      s.dev.auxRole n k = 0 →
      bitOf w (8 * k.1 + 7) = true →
      ((s.dev.link n).aux.get k).fault = false →
      ((s.dev.link n).aux.get k).on = true →
      Completes (.auxCmdWrite n w) s fun e =>
        ((e.link n).aux.get k) = { ((s.dev.link n).aux.get k) with duty := BitVec.ofNat 6 (fieldOf w (8 * k.1) 6), wanted := true } ∧
        e.field (Reg.auxCmd n) (8 * k.1) 8 = (if bitOf w (8 * k.1 + 7) then 128 else 0) + fieldOf w (8 * k.1) 6 ∧
        s.dev.LinksBut e n ∧
        s.dev.RegsBut e [Reg.auxCmd n] ∧
        s.dev.Keeps e [.aux, .rAux]) ∧
  (∀ (s : State) (n : LinkId) (w : Word) (k : Fin 4),
      s.dev.recording = true →
      s.dev.role n = .outlet →
      s.dev.auxRole n k = 0 →
      bitOf w (8 * k.1 + 7) = true →
      ((s.dev.link n).aux.get k).fault = false →
      ((s.dev.link n).aux.get k).on = false →
      ((s.dev.link n).aux.get k).offUntil.isSome = true ∨ s.dev.auxFitted n k = false →
      Completes (.auxCmdWrite n w) s fun e =>
        ((e.link n).aux.get k) = { ((s.dev.link n).aux.get k) with wanted := true } ∧
        e.field (Reg.auxCmd n) (8 * k.1) 8 = (if bitOf w (8 * k.1 + 7) then 128 else 0) + fieldOf w (8 * k.1) 6 ∧
        s.dev.LinksBut e n ∧
        s.dev.RegsBut e [Reg.auxCmd n] ∧
        s.dev.Keeps e [.aux, .rAux]) ∧
  (∀ (s : State) (n : LinkId) (w : Word) (k : Fin 4),
      s.dev.recording = true →
      s.dev.role n = .outlet →
      s.dev.auxRole n k = 0 →
      bitOf w (8 * k.1 + 7) = false →
      ((s.dev.link n).aux.get k).fault = false →
      Completes (.auxCmdWrite n w) s fun e =>
        ((e.link n).aux.get k) = { ((s.dev.link n).aux.get k) with on := false, duty := 0, openSince := none, misSince := none, openSet := false, misSet := false, wanted := false, offUntil := none } ∧
        e.field (Reg.auxCmd n) (8 * k.1) 8 = (if bitOf w (8 * k.1 + 7) then 128 else 0) + fieldOf w (8 * k.1) 6 ∧
        s.dev.LinksBut e n ∧
        s.dev.RegsBut e [Reg.auxCmd n] ∧
        s.dev.Keeps e [.aux, .rAux]) ∧
  (∀ (s : State) (n : LinkId) (w : Word) (k : Fin 4),
      s.dev.recording = true →
      s.dev.role n = .outlet →
      s.dev.auxRole n k = 0 →
      bitOf w (8 * k.1 + 7) = false →
      ((s.dev.link n).aux.get k).fault = true →
      Completes (.auxCmdWrite n w) s fun e =>
        ((e.link n).aux.get k) = { ((s.dev.link n).aux.get k) with seenOff := true, wanted := false } ∧
        e.field (Reg.auxCmd n) (8 * k.1) 8 = (if bitOf w (8 * k.1 + 7) then 128 else 0) + fieldOf w (8 * k.1) 6 ∧
        s.dev.LinksBut e n ∧
        s.dev.RegsBut e [Reg.auxCmd n] ∧
        s.dev.Keeps e [.aux, .rAux]) ∧
  (∀ (s : State) (n : LinkId) (w : Word) (k : Fin 4),
      s.dev.recording = true →
      s.dev.role n = .outlet →
      s.dev.auxRole n k = 0 →
      bitOf w (8 * k.1 + 7) = true →
      ((s.dev.link n).aux.get k).fault = true →
      ((s.dev.link n).aux.get k).seenOff = false →
      Completes (.auxCmdWrite n w) s fun e =>
        ((e.link n).aux.get k) = ((s.dev.link n).aux.get k) ∧
        e.field (Reg.auxCmd n) (8 * k.1) 8 = (if bitOf w (8 * k.1 + 7) then 128 else 0) + fieldOf w (8 * k.1) 6 ∧
        s.dev.LinksBut e n ∧
        s.dev.RegsBut e [Reg.auxCmd n] ∧
        s.dev.Keeps e [.aux, .rAux]) ∧
  (∀ (s : State) (n : LinkId) (w : Word) (k : Fin 4),
      s.dev.recording = true →
      s.dev.role n = .outlet →
      s.dev.auxRole n k = 0 →
      bitOf w (8 * k.1 + 7) = true →
      ((s.dev.link n).aux.get k).fault = true →
      ((s.dev.link n).aux.get k).seenOff = true →
      s.dev.auxFitted n k = true →
      Completes (.auxCmdWrite n w) s fun e =>
        ((e.link n).aux.get k) = { ((s.dev.link n).aux.get k) with on := true, duty := BitVec.ofNat 6 (fieldOf w (8 * k.1) 6), fault := false, seenOff := false, wanted := true, ocTimes := [], tach := .unsupervised, spinAt := s.dev.now, offUntil := none, openSince := none, misSince := none, openSet := false, misSet := false, below := false, rate := 0, edges := 0 } ∧
        e.field (Reg.auxCmd n) (8 * k.1) 8 = (if bitOf w (8 * k.1 + 7) then 128 else 0) + fieldOf w (8 * k.1) 6 ∧
        s.dev.LinksBut e n ∧
        s.dev.RegsBut e [Reg.auxCmd n] ∧
        s.dev.Keeps e [.aux, .rAux]) ∧
  (∀ (s : State) (n : LinkId) (w : Word) (k : Fin 4),
      s.dev.auxRole n k ≠ 0 →
      Completes (.auxCmdWrite n w) s fun e =>
        ((e.link n).aux.get k) = ((s.dev.link n).aux.get k) ∧
        e.field (Reg.auxCmd n) (8 * k.1) 8 = s.dev.field (Reg.auxCmd n) (8 * k.1) 8 ∧
        s.dev.LinksBut e n ∧
        s.dev.RegsBut e [Reg.auxCmd n] ∧
        s.dev.Keeps e [.aux, .rAux]) ∧
  (∀ (s : State) (n : LinkId) (w : Word),
      s.dev.recording = false ∨ s.dev.role n ≠ .outlet →
      Completes (.auxCmdWrite n w) s fun e =>
        s.dev.Keeps e []) ∧
  (∀ (s : State) (n : LinkId) (k : Fin 4) (t : Tick),
      ((s.dev.link n).aux.get k).runOn = some t →
      t ≤ s.dev.now →
      Completes (.auxRunOnExpiry n k) s fun e =>
        ((e.link n).aux.get k) = { ((s.dev.link n).aux.get k) with on := false, duty := 0, openSince := none, misSince := none, openSet := false, misSet := false, runOn := none, wanted := false, offUntil := none, tach := .unsupervised } ∧
        (∀ j, j ≠ k → (e.link n).aux.get j = (s.dev.link n).aux.get j) ∧
        s.dev.LinksBut e n ∧
        s.dev.Keeps e [.aux]) ∧
  (∀ (s : State) (n : LinkId) (k : Fin 4),
      (((s.dev.link n).aux.get k).runOn.map fun t => decide (t ≤ s.dev.now)) ≠ some true →
      Completes (.auxRunOnExpiry n k) s fun e =>
        s.dev.Keeps e []) ∧
  (∀ (s : State) (n : LinkId) (k : Fin 4) (t : Tick),
      ((s.dev.link n).aux.get k).offUntil = some t →
      t ≤ s.dev.now →
      ((s.dev.link n).aux.get k).tach ≠ .blocked →
      ((s.dev.link n).aux.get k).fault = false →
      s.dev.auxFitted n k = true →
      Completes (.auxOcRetry n k) s fun e =>
        ((e.link n).aux.get k) = { ((s.dev.link n).aux.get k) with on := true, duty := BitVec.ofNat 6 (s.dev.auxDuty n k), tach := (if s.dev.auxCooling n k = true ∧ s.dev.auxMinRate n k ≠ 0 then .spinUp else .unsupervised), spinAt := s.dev.now, offUntil := none, openSince := none, misSince := none, openSet := false, misSet := false, below := false, rate := 0, edges := 0 } ∧
        (∀ j, j ≠ k → (e.link n).aux.get j = (s.dev.link n).aux.get j) ∧
        s.dev.LinksBut e n ∧
        s.dev.Keeps e [.aux]) ∧
  (∀ (s : State) (n : LinkId) (k : Fin 4),
      (((s.dev.link n).aux.get k).offUntil.map fun t => decide (t ≤ s.dev.now)) ≠ some true ∨ ((s.dev.link n).aux.get k).tach = .blocked ∨ ((s.dev.link n).aux.get k).fault = true ∨ s.dev.auxFitted n k = false →
      Completes (.auxOcRetry n k) s fun e =>
        s.dev.Keeps e []) ∧
  (∀ (s : State) (n : LinkId) (k : Fin 4) (t : Tick),
      ((s.dev.link n).aux.get k).offUntil = some t →
      t ≤ s.dev.now →
      ((s.dev.link n).aux.get k).tach = .blocked →
      ((s.dev.link n).aux.get k).fault = false →
      s.dev.auxFitted n k = true →
      Completes (.auxBlockedRetry n k) s fun e =>
        ((e.link n).aux.get k) = { ((s.dev.link n).aux.get k) with on := true, duty := BitVec.ofNat 6 (s.dev.auxDuty n k), tach := (if s.dev.auxCooling n k = true ∧ s.dev.auxMinRate n k ≠ 0 then .spinUp else .unsupervised), spinAt := s.dev.now, offUntil := none, openSince := none, misSince := none, openSet := false, misSet := false, below := false, rate := 0, edges := 0, tries := ((s.dev.link n).aux.get k).tries + 1 } ∧
        (∀ j, j ≠ k → (e.link n).aux.get j = (s.dev.link n).aux.get j) ∧
        s.dev.LinksBut e n ∧
        s.dev.Keeps e [.aux]) ∧
  (∀ (s : State) (n : LinkId) (k : Fin 4) (t : Tick),
      ((s.dev.link n).aux.get k).offUntil = some t →
      t ≤ s.dev.now →
      ((s.dev.link n).aux.get k).tach = .blocked →
      ((s.dev.link n).aux.get k).fault = false →
      s.dev.auxFitted n k = false →
      Completes (.auxBlockedRetry n k) s fun e =>
        ((e.link n).aux.get k) = { ((s.dev.link n).aux.get k) with tries := ((s.dev.link n).aux.get k).tries + 1 } ∧
        (∀ j, j ≠ k → (e.link n).aux.get j = (s.dev.link n).aux.get j) ∧
        s.dev.LinksBut e n ∧
        s.dev.Keeps e [.aux]) ∧
  (∀ (s : State) (n : LinkId) (k : Fin 4),
      (((s.dev.link n).aux.get k).offUntil.map fun t => decide (t ≤ s.dev.now)) ≠ some true ∨ ((s.dev.link n).aux.get k).tach ≠ .blocked ∨ ((s.dev.link n).aux.get k).fault = true →
      Completes (.auxBlockedRetry n k) s fun e =>
        s.dev.Keeps e []) ∧
  (∀ (s : State) (n : LinkId) (k : Fin 4),
      ((s.dev.link n).aux.get k).on = true →
      ((s.dev.link n).aux.get k).openSet = false →
      heldFor ((s.dev.link n).aux.get k).openSince s.dev.now (ms 100) = true →
      s.dev.auxCooling n k = false →
      Completes (.auxOpenLoad n k) s fun e =>
        ((e.link n).aux.get k) = { ((s.dev.link n).aux.get k) with openSet := true } ∧
        e.bit (Reg.auxEvents n) (auxBit k 1) = true ∧
        (∀ j, j ≠ k → (e.link n).aux.get j = (s.dev.link n).aux.get j) ∧
        s.dev.LinksBut e n ∧
        s.dev.RegsBut e [Reg.auxEvents n] ∧
        s.dev.Keeps e [.aux, .recorder, .rAux]) ∧
  (∀ (s : State) (n : LinkId) (k : Fin 4),
      ((s.dev.link n).aux.get k).on = true →
      ((s.dev.link n).aux.get k).openSet = false →
      heldFor ((s.dev.link n).aux.get k).openSince s.dev.now (ms 100) = true →
      s.dev.auxCooling n k = true →
      ((s.dev.link n).aux.get k).tries < s.dev.field (Reg.auxCfg n k) 24 3 →
      Completes (.auxOpenLoad n k) s fun e =>
        ((e.link n).aux.get k) = { ((s.dev.link n).aux.get k) with on := false, duty := 0, openSince := none, misSince := none, openSet := false, misSet := false, tach := .blocked, cap := true, offUntil := some (s.dev.now + secs 5) } ∧
        e.bit (Reg.auxEvents n) (auxBit k 1) = true ∧
        e.bit (Reg.auxEvents n) (auxBit k 2) = true ∧
        (∀ j, j ≠ k → (e.link n).aux.get j = (s.dev.link n).aux.get j) ∧
        s.dev.LinksBut e n ∧
        s.dev.RegsBut e [Reg.auxEvents n] ∧
        s.dev.Keeps e [.aux, .recorder, .rAux]) ∧
  (∀ (s : State) (n : LinkId) (k : Fin 4),
      ((s.dev.link n).aux.get k).on = true →
      ((s.dev.link n).aux.get k).openSet = false →
      heldFor ((s.dev.link n).aux.get k).openSince s.dev.now (ms 100) = true →
      s.dev.auxCooling n k = true →
      s.dev.field (Reg.auxCfg n k) 24 3 ≤ ((s.dev.link n).aux.get k).tries →
      Completes (.auxOpenLoad n k) s fun e =>
        ((e.link n).aux.get k) = { ((s.dev.link n).aux.get k) with on := false, duty := 0, openSince := none, misSince := none, openSet := false, misSet := false, tach := .blocked, cap := true, fault := true, offUntil := none, seenOff := false } ∧
        e.bit (Reg.auxEvents n) (auxBit k 1) = true ∧
        e.bit (Reg.auxEvents n) (auxBit k 2) = true ∧
        (∀ j, j ≠ k → (e.link n).aux.get j = (s.dev.link n).aux.get j) ∧
        s.dev.LinksBut e n ∧
        s.dev.RegsBut e [Reg.auxEvents n] ∧
        s.dev.Keeps e [.aux, .recorder, .rAux]) ∧
  (∀ (s : State) (n : LinkId) (k : Fin 4),
      ((s.dev.link n).aux.get k).on = false ∨ ((s.dev.link n).aux.get k).openSet = true ∨ heldFor ((s.dev.link n).aux.get k).openSince s.dev.now (ms 100) = false →
      Completes (.auxOpenLoad n k) s fun e =>
        s.dev.Keeps e []) ∧
  (∀ (s : State) (n : LinkId) (k : Fin 4),
      ((s.dev.link n).aux.get k).misSet = false →
      heldFor ((s.dev.link n).aux.get k).misSince s.dev.now (ms 10) = true →
      Completes (.auxMismatch n k) s fun e =>
        ((e.link n).aux.get k) = { ((s.dev.link n).aux.get k) with misSet := true } ∧
        e.bit (Reg.auxEvents n) (auxBit k 5) = true ∧
        (∀ j, j ≠ k → (e.link n).aux.get j = (s.dev.link n).aux.get j) ∧
        s.dev.LinksBut e n ∧
        s.dev.RegsBut e [Reg.auxEvents n] ∧
        s.dev.Keeps e [.aux, .recorder, .rAux]) ∧
  (∀ (s : State) (n : LinkId) (k : Fin 4),
      ((s.dev.link n).aux.get k).misSet = true ∨ heldFor ((s.dev.link n).aux.get k).misSince s.dev.now (ms 10) = false →
      Completes (.auxMismatch n k) s fun e =>
        s.dev.Keeps e []) ∧
  (∀ (s : State) (n : LinkId) (k : Fin 4),
      ((s.dev.link n).aux.get k).on = true →
      ((s.dev.link n).aux.get k).tach = .spinUp →
      ((s.dev.link n).aux.get k).spinAt + ms (s.dev.settingField (Reg.auxXTach n k) 20 12) ≤ s.dev.now →
      ((s.dev.link n).aux.get k).tries < s.dev.field (Reg.auxCfg n k) 24 3 →
      Completes (.auxSpinTimeout n k) s fun e =>
        ((e.link n).aux.get k) = { ((s.dev.link n).aux.get k) with on := false, duty := 0, openSince := none, misSince := none, openSet := false, misSet := false, tach := .blocked, cap := true, offUntil := some (s.dev.now + secs 5) } ∧
        e.bit (Reg.auxEvents n) (auxBit k 2) = true ∧
        (∀ j, j ≠ k → (e.link n).aux.get j = (s.dev.link n).aux.get j) ∧
        s.dev.LinksBut e n ∧
        s.dev.RegsBut e [Reg.auxEvents n] ∧
        s.dev.Keeps e [.aux, .recorder, .rAux]) ∧
  (∀ (s : State) (n : LinkId) (k : Fin 4),
      ((s.dev.link n).aux.get k).on = true →
      ((s.dev.link n).aux.get k).tach = .spinUp →
      ((s.dev.link n).aux.get k).spinAt + ms (s.dev.settingField (Reg.auxXTach n k) 20 12) ≤ s.dev.now →
      s.dev.field (Reg.auxCfg n k) 24 3 ≤ ((s.dev.link n).aux.get k).tries →
      Completes (.auxSpinTimeout n k) s fun e =>
        ((e.link n).aux.get k) = { ((s.dev.link n).aux.get k) with on := false, duty := 0, openSince := none, misSince := none, openSet := false, misSet := false, tach := .blocked, cap := true, fault := true, offUntil := none, seenOff := false } ∧
        e.bit (Reg.auxEvents n) (auxBit k 2) = true ∧
        (∀ j, j ≠ k → (e.link n).aux.get j = (s.dev.link n).aux.get j) ∧
        s.dev.LinksBut e n ∧
        s.dev.RegsBut e [Reg.auxEvents n] ∧
        s.dev.Keeps e [.aux, .recorder, .rAux]) ∧
  (∀ (s : State) (n : LinkId) (k : Fin 4),
      ((s.dev.link n).aux.get k).on = false ∨ ((s.dev.link n).aux.get k).tach ≠ .spinUp ∨ s.dev.now < ((s.dev.link n).aux.get k).spinAt + ms (s.dev.settingField (Reg.auxXTach n k) 20 12) →
      Completes (.auxSpinTimeout n k) s fun e =>
        s.dev.Keeps e [])
end

