-- ==== Sys2Proof/Laws/Exec.lean ====
section
/-! SUPPORT. What each command does to the device, as one equation for its arm of `exec`, and what completing means for a
command that updates the device. -/

namespace Sys2Proof.Machine

theorem exec_tickClosure (s : State) : exec (.tickClosure) s = execTickClosure s := rfl
theorem exec_samplePoint (s : State) : exec (.samplePoint) s = s.upd Dev.samplePoint := rfl
theorem exec_planningLapBoundary (s : State) : exec (.planningLapBoundary) s = s.upd Dev.planningLap := rfl
theorem exec_lapBoundary (s : State) : exec (.lapBoundary) s = s.upd Dev.lapBoundary := rfl
theorem exec_calendarSecond (s : State) : exec (.calendarSecond) s = s.upd Dev.calendarSecond := rfl
theorem exec_paceLoss (s : State) : exec (.paceLoss) s = s.upd Dev.paceLoss := rfl
theorem exec_paceDriftCheck (periods : Nat) (s : State) :
    exec (.paceDriftCheck periods) s = s.upd fun d => d.paceDriftCheck periods := rfl
theorem exec_lapOverrun (cls : WorkClass) (late : List LinkId) (s : State) :
    exec (.lapOverrun cls late) s = s.upd fun d => d.lapOverrun cls late := rfl
theorem exec_porRelease (testEn : Bool) (paceOk : Bool) (loaderOk : Bool) (s : State) :
    exec (.porRelease testEn paceOk loaderOk) s = s.upd fun d => d.porRelease testEn paceOk loaderOk := rfl
theorem exec_enterStartingBlock (s : State) : exec (.enterStartingBlock) s = s.upd Dev.enterStartingBlock := rfl
theorem exec_enterRun (fwOk : Bool) (keysOk : Bool) (found : List ScrubFound) (s : State) :
    exec (.enterRun fwOk keysOk found) s = s.upd fun d => d.enterRunStep fwOk keysOk found := rfl
theorem exec_modeReqDormant (s : State) : exec (.modeReqDormant) s = s.upd fun d => d.modeRequested 0 := rfl
theorem exec_modeReqRun (s : State) : exec (.modeReqRun) s = s.upd fun d => d.modeRequested 3 := rfl
theorem exec_modeReqEconomy (s : State) : exec (.modeReqEconomy) s = s.upd fun d => d.modeRequested 4 := rfl
theorem exec_modeReqMaintenance (s : State) : exec (.modeReqMaintenance) s = s.upd fun d => d.modeRequested 5 := rfl
theorem exec_modeReqSafeHalt (s : State) : exec (.modeReqSafeHalt) s = s.upd fun d => d.modeRequested 6 := rfl
theorem exec_ecoDelayExpiry (s : State) : exec (.ecoDelayExpiry) s = s.upd Dev.ecoDelayExpiry := rfl
theorem exec_supplyDormantEntry (s : State) : exec (.supplyDormantEntry) s = s.upd Dev.supplyDormantEntry := rfl
theorem exec_wakeFrameWake (addr : Byte) (parity : Bool) (s : State) :
    exec (.wakeFrameWake addr parity) s = s.upd fun d => d.wakeFrame addr parity := rfl
theorem exec_wakeFrameSleepNotice (addr : Byte) (parity : Bool) (s : State) :
    exec (.wakeFrameSleepNotice addr parity) s = s.upd fun d => d.sleepNotice addr parity := rfl
theorem exec_wakeFrameAlert (addr : Byte) (parity : Bool) (s : State) :
    exec (.wakeFrameAlert addr parity) s = s.upd fun d => d.alertFrame addr parity := rfl
theorem exec_wakeBitTimeout (s : State) :
    exec (.wakeBitTimeout) s = s.upd fun d => d.onPower fun p => { p with frameAbandoned := true } := rfl
theorem exec_pfailRelease (s : State) : exec (.pfailRelease) s = s.upd Dev.pfailRelease := rfl
theorem exec_readVoutPoll (s : State) : exec (.readVoutPoll) s = s.upd Dev.readVoutPoll := rfl
theorem exec_pmbusTransactionDone (res : PmbResult) (s : State) :
    exec (.pmbusTransactionDone res) s = s.upd fun d => d.pmbusDone res := rfl
theorem exec_pmbusRetry (s : State) : exec (.pmbusRetry) s = s.upd Dev.pmbusRetry := rfl
theorem exec_pmbusRecoveryRetry (s : State) : exec (.pmbusRecoveryRetry) s = s.upd Dev.pmbusRecoveryRetry := rfl
theorem exec_tempoLower (s : State) : exec (.tempoLower) s = s.upd Dev.tempoLower := rfl
theorem exec_pmbAlert (s : State) : exec (.pmbAlert) s = s.upd Dev.pmbAlert := rfl
theorem exec_vcoreLow (s : State) : exec (.vcoreLow) s = s.upd Dev.vcoreLow := rfl
theorem exec_supplyWarning (src : SupplySource) (s : State) :
    exec (.supplyWarning src) s = s.upd fun d => d.supplyWarning src := rfl
theorem exec_supplyRecovery (vaonSince : Nat) (s : State) :
    exec (.supplyRecovery vaonSince) s = s.upd fun d => d.supplyRecovery vaonSince := rfl
theorem exec_railUndervoltageReset (rail : Rail) (s : State) :
    exec (.railUndervoltageReset rail) s = s.upd fun d => d.railReset rail := rfl
theorem exec_porAssert (s : State) : exec (.porAssert) s = s.upd Dev.porAssert := rfl
theorem exec_writeInc (addr : Word) (data : List Word) (s : State) :
    exec (.writeInc addr data) s = s.upd fun d => d.transact s.shown (Txn.start 0x02 addr (data.map some) (data.length - 1) false) := rfl
theorem exec_writeFix (addr : Word) (data : List Word) (s : State) :
    exec (.writeFix addr data) s = s.upd fun d => d.transact s.shown (Txn.start 0x03 addr (data.map some) (data.length - 1) false) := rfl
theorem exec_readInc (addr : Word) (len : Byte) (s : State) :
    exec (.readInc addr len) s = s.upd fun d => d.transact s.shown (Txn.start 0x0B addr (List.replicate (len.toNat + 1) none) len.toNat false) := rfl
theorem exec_readFix (addr : Word) (len : Byte) (s : State) :
    exec (.readFix addr len) s = s.upd fun d => d.transact s.shown (Txn.start 0x0C addr (List.replicate (len.toNat + 1) none) len.toNat false) := rfl
theorem exec_readId (s : State) :
    exec (.readId) s = s.upd fun d => d.transact s.shown (Txn.start 0x9F 0 [none] 0 false) := rfl
theorem exec_unknownOpcode (opcode : Byte) (s : State) :
    exec (.unknownOpcode opcode) s = s.upd fun d => if knownOpcode opcode then d else d.transact s.shown (Txn.start opcode 0 [] 0 false) := rfl
theorem exec_transactionAbort (opcode : Byte) (addr : Word) (len : Byte) (words : List Word) (s : State) :
    exec (.transactionAbort opcode addr len words) s = s.upd fun d => d.abort s.shown opcode addr len words := rfl
theorem exec_guardPairExpiry (s : State) : exec (.guardPairExpiry) s = s.upd Dev.pairExpiry := rfl
theorem exec_stallTimeout (opcode : Byte) (addr : Word) (len : Byte) (words : List Word) (word : Byte) (applied : Bool) (s : State) :
    exec (.stallTimeout opcode addr len words word applied) s = s.upd fun d => d.stallTimeout s.shown opcode addr len words word applied := rfl
theorem exec_headTimeout (link : LinkId) (s : State) :
    exec (.headTimeout link) s = s.upd fun d => d.headTimeout s.shown link := rfl
theorem exec_registerWrite (addr : Word) (data : Word) (s : State) :
    exec (.registerWrite addr data) s = s.upd (Dev.hosted fun d => d.registerWrite s.shown addr.toNat data) := rfl
theorem exec_w1cClear (addr : Word) (data : Word) (s : State) :
    exec (.w1cClear addr data) s = s.upd (Dev.hosted fun d => d.w1cClear s.shown addr.toNat data) := rfl
theorem exec_wideValueCapture (addr : Word) (s : State) :
    exec (.wideValueCapture addr) s = s.upd (Dev.hosted fun d => d.wideRead s.shown addr.toNat) := rfl
theorem exec_errCauseRead (s : State) :
    exec (.errCauseRead) s = s.upd (Dev.hosted fun d => d.onHost fun h => { h with errArmed := true }) := rfl
theorem exec_stallMaxWrite (data : Word) (s : State) :
    exec (.stallMaxWrite data) s = s.upd (Dev.hosted fun d => if data = 0 then d.setReg Reg.hptStallMax 0 else d) := rfl
theorem exec_headRegisterAccess (link : LinkId) (addr : BitVec 15) (write : Option Word) (s : State) :
    exec (.headRegisterAccess link addr write) s = execHeadRegisterAccess link addr write s := rfl
theorem exec_headFrameReceived (link : LinkId) (blocks : List Block) (s : State) :
    exec (.headFrameReceived link blocks) s = s.upd fun d => (d.frame link blocks).feedbackTaken d link := rfl
theorem exec_alarmReceived (link : LinkId) (arg : BitVec 16) (s : State) :
    exec (.alarmReceived link arg) s = s.upd fun d => d.alarm link arg := rfl
theorem exec_trainingStart (link : LinkId) (s : State) :
    exec (.trainingStart link) s = s.upd fun d => d.startTraining link := rfl
theorem exec_trainAReply (link : LinkId) (arg : BitVec 16) (s : State) :
    exec (.trainAReply link arg) s = s.upd fun d => d.trainA link arg := rfl
theorem exec_trainBEcho (link : LinkId) (marker : BitVec 16) (rttPs : Word) (s : State) :
    exec (.trainBEcho link marker rttPs) s = s.upd fun d => d.trainB link marker rttPs := rfl
theorem exec_trainingComplete (link : LinkId) (s : State) :
    exec (.trainingComplete link) s = s.upd fun d => (d.enterConfirm link).trainDone link := rfl
theorem exec_trainingFail (link : LinkId) (s : State) :
    exec (.trainingFail link) s = s.upd fun d => d.trainingFails link := rfl
theorem exec_trainingRetry (link : LinkId) (s : State) :
    exec (.trainingRetry link) s = s.upd fun d => d.retryTraining link := rfl
theorem exec_linkLost (link : LinkId) (s : State) : exec (.linkLost link) s = s.upd fun d => d.lose link := rfl
theorem exec_retrain (link : LinkId) (s : State) :
    exec (.retrain link) s = s.upd fun d => d.gw (Reg.lnkCmd link) 1 fun d => d.retrain link := rfl
theorem exec_headRegResponse (link : LinkId) (resp : BitVec 2) (tag : BitVec 6) (addr : BitVec 15) (data : Word) (s : State) :
    exec (.headRegResponse link resp tag addr data) s = s.upd fun d => d.response s.shown link resp tag addr data := rfl
theorem exec_headRegRepeat (link : LinkId) (s : State) :
    exec (.headRegRepeat link) s = s.upd fun d => d.repeatReq link := rfl
theorem exec_overcurrentDecision (link : LinkId) (ch : Fin 8) (s : State) :
    exec (.overcurrentDecision link ch) s = s.upd fun d => d.overcurrent link ch := rfl
theorem exec_senseOpen (link : LinkId) (s : State) :
    exec (.senseOpen link) s = s.upd fun d => d.senseOpened link := rfl
theorem exec_senseOpenClear (link : LinkId) (s : State) :
    exec (.senseOpenClear link) s = execSenseOpenClear link s := rfl
theorem exec_tpoPulseStart (out : Fin 2) (s : State) :
    exec (.tpoPulseStart out) s = s.upd fun d => d.tpoStart out := rfl
theorem exec_tpoPulseEnd (out : Fin 2) (s : State) : exec (.tpoPulseEnd out) s = execTpoPulseEnd out s := rfl
theorem exec_s0LevelChange (inp : Fin 4) (level : Bool) (s : State) :
    exec (.s0LevelChange inp level) s = execS0LevelChange inp level s := rfl
theorem exec_s0PulseCount (inp : Fin 4) (s : State) : exec (.s0PulseCount inp) s = execS0PulseCount inp s := rfl
theorem exec_s0Stuck (inp : Fin 4) (s : State) : exec (.s0Stuck inp) s = execS0Stuck inp s := rfl
theorem exec_tariffHoldExpiry (tenant : TenantId) (s : State) :
    exec (.tariffHoldExpiry tenant) s = execTariffHoldExpiry tenant s := rfl
theorem exec_mdIntervalEnd (link : LinkId) (sliding : Bool) (s : State) :
    exec (.mdIntervalEnd link sliding) s = s.upd fun d => d.mdEnd link sliding := rfl
theorem exec_sealChange (a : Bool) (b : Bool) (s : State) : exec (.sealChange a b) s = execSealChange a b s := rfl
theorem exec_sealFault (s : State) :
    exec (.sealFault) s = s.upd fun d => if d.bill.sealA = d.bill.sealB ∧ d.bill.sealSince + ms 100 < d.now then d.sealTo .fault else d := rfl
theorem exec_recordSigned (s : State) : exec (.recordSigned) s = s.upd Dev.recordSigned := rfl
theorem exec_recCursorWrite (data : Word) (s : State) :
    exec (.recCursorWrite data) s = s.upd (Dev.hosted fun d => d.setReg Reg.bilRecCursor data) := rfl
theorem exec_tokensCredited (link : LinkId) (s : State) :
    exec (.tokensCredited link) s = s.upd fun d => d.creditTokens link := rfl
theorem exec_reduceTimeout (link : LinkId) (s : State) :
    exec (.reduceTimeout link) s = s.upd fun d => d.reduceStop link := rfl
theorem exec_hostLimitWrite (data : Word) (s : State) :
    exec (.hostLimitWrite data) s = s.upd (Dev.hosted fun d => d.hostLimit data) := rfl
theorem exec_utilLimitStart (s : State) : exec (.utilLimitStart) s = s.upd Dev.limitStart := rfl
theorem exec_utilLimitExpiry (s : State) : exec (.utilLimitExpiry) s = s.upd Dev.limitExpiry := rfl
theorem exec_budgetInForce (s : State) : exec (.budgetInForce) s = s.upd Dev.lowerBudget := rfl
theorem exec_groupNotReady (link : LinkId) (s : State) :
    exec (.groupNotReady link) s = s.upd fun d => d.notReady link := rfl
theorem exec_withdrawOpen (link : LinkId) (s : State) :
    exec (.withdrawOpen link) s = s.upd fun d => d.breakGroup link := rfl
theorem exec_withdrawEnd (link : LinkId) (s : State) :
    exec (.withdrawEnd link) s = s.upd fun d => d.unwithdraw link := rfl
theorem exec_groupIdleOff (link : LinkId) (s : State) : exec (.groupIdleOff link) s = execGroupIdleOff link s := rfl
theorem exec_assignDischarged (link : LinkId) (s : State) :
    exec (.assignDischarged link) s = s.upd fun d => d.assignPrepare link := rfl
theorem exec_assignOwned (link : LinkId) (s : State) :
    exec (.assignOwned link) s = s.upd fun d => d.assignJoin link := rfl
theorem exec_releaseCurrentLow (link : LinkId) (s : State) :
    exec (.releaseCurrentLow link) s = s.upd fun d => d.releaseLow link := rfl
theorem exec_releaseDischarged (link : LinkId) (s : State) :
    exec (.releaseDischarged link) s = s.upd fun d => d.releaseOpen link := rfl
theorem exec_releaseFreed (link : LinkId) (s : State) :
    exec (.releaseFreed link) s = s.upd fun d => d.releaseDone link := rfl
theorem exec_exchRampDone (slot : Fin 16) (s : State) :
    exec (.exchRampDone slot) s = s.upd fun d => d.exchOpen slot := rfl
theorem exec_exchDonorOpen (slot : Fin 16) (s : State) :
    exec (.exchDonorOpen slot) s = s.upd fun d => d.exchDonorOpen slot := rfl
theorem exec_exchMatched (slot : Fin 16) (s : State) :
    exec (.exchMatched slot) s = s.upd fun d => d.exchMatched slot := rfl
theorem exec_exchSegPrepare (slot : Fin 16) (s : State) :
    exec (.exchSegPrepare slot) s = s.upd fun d => d.exchPrepare slot := rfl
theorem exec_exchCloseCommand (slot : Fin 16) (s : State) :
    exec (.exchCloseCommand slot) s = s.upd fun d => d.exchClose slot := rfl
theorem exec_exchJoined (slot : Fin 16) (s : State) :
    exec (.exchJoined slot) s = s.upd fun d => d.exchJoin slot := rfl
theorem exec_exchTimeout (slot : Fin 16) (s : State) :
    exec (.exchTimeout slot) s = s.upd fun d => d.exchTimeout slot := rfl
theorem exec_contactorOpenFault (link : LinkId) (contactor : Fin 16) (s : State) :
    exec (.contactorOpenFault link contactor) s = s.upd fun d => d.openFault link contactor := rfl
theorem exec_contactorWeld (link : LinkId) (contactor : Fin 16) (s : State) :
    exec (.contactorWeld link contactor) s = s.upd fun d => d.weldFault link contactor := rfl
theorem exec_pilotStateTaken (link : LinkId) (s : State) :
    exec (.pilotStateTaken link) s = execPilotStateTaken link s := rfl
theorem exec_pilotFault (link : LinkId) (s : State) : exec (.pilotFault link) s = execPilotFault link s := rfl
theorem exec_pilotDiodeMissing (link : LinkId) (s : State) :
    exec (.pilotDiodeMissing link) s = execPilotDiodeMissing link s := rfl
theorem exec_faultPilotFEnd (link : LinkId) (s : State) :
    exec (.faultPilotFEnd link) s = execFaultPilotFEnd link s := rfl
theorem exec_stopCToBOpen (link : LinkId) (s : State) : exec (.stopCToBOpen link) s = execStopCToBOpen link s := rfl
theorem exec_proximityTaken (link : LinkId) (s : State) :
    exec (.proximityTaken link) s = execProximityTaken link s := rfl
theorem exec_matchingStart (link : LinkId) (s : State) :
    exec (.matchingStart link) s = s.upd fun d => d.startMatching link := rfl
theorem exec_slacParmReq (link : LinkId) (evMac : BitVec 48) (runId : BitVec 64) (s : State) :
    exec (.slacParmReq link evMac runId) s = s.upd fun d => d.slacParm link evMac runId := rfl
theorem exec_startAttenCharInd (link : LinkId) (runId : BitVec 64) (s : State) :
    exec (.startAttenCharInd link runId) s = s.upd fun d => d.soundingStart link runId := rfl
theorem exec_slacMatchReq (link : LinkId) (evMac : BitVec 48) (evseMac : BitVec 48) (runId : BitVec 64) (s : State) :
    exec (.slacMatchReq link evMac evseMac runId) s = s.upd fun d => d.slacMatch link evMac evseMac runId := rfl
theorem exec_cmValidate (link : LinkId) (toggles : Nat) (s : State) :
    exec (.cmValidate link toggles) s = s.upd fun d => d.validate link toggles := rfl
theorem exec_slacInitExpiry (link : LinkId) (s : State) :
    exec (.slacInitExpiry link) s = s.upd fun d => d.slacExpiry link := rfl
theorem exec_attemptRestart (link : LinkId) (s : State) :
    exec (.attemptRestart link) s = execAttemptRestart link s := rfl
theorem exec_supportedAppProtocol (link : LinkId) (offered : List Protocol) (s : State) :
    exec (.supportedAppProtocol link offered) s = s.upd fun d => d.appProtocol link offered := rfl
theorem exec_sessionSetupReq (link : LinkId) (form : V2gForm) (s : State) :
    exec (.sessionSetupReq link form) s = s.upd fun d => d.sessionSetup link form := rfl
theorem exec_authorizationReq (link : LinkId) (form : V2gForm) (contract : Option ContractChain) (s : State) :
    exec (.authorizationReq link form contract) s = s.upd fun d => d.authRequest link form contract := rfl
theorem exec_cableCheckReq (link : LinkId) (form : V2gForm) (s : State) :
    exec (.cableCheckReq link form) s = s.upd fun d => d.cableCheck link form := rfl
theorem exec_preChargeReq (link : LinkId) (form : V2gForm) (targetV : BitVec 16) (targetI : BitVec 16) (s : State) :
    exec (.preChargeReq link form targetV targetI) s = s.upd fun d => d.preCharge link form targetV targetI := rfl
theorem exec_powerDeliveryStart (link : LinkId) (form : V2gForm) (s : State) :
    exec (.powerDeliveryStart link form) s = s.upd fun d => d.deliver link form := rfl
theorem exec_powerDeliveryStop (link : LinkId) (form : V2gForm) (s : State) :
    exec (.powerDeliveryStop link form) s = s.upd fun d => d.deliverStop link form := rfl
theorem exec_chargeLoopReq (link : LinkId) (form : V2gForm) (req : ChargeLoop) (s : State) :
    exec (.chargeLoopReq link form req) s = s.upd fun d => d.chargeLoop link form req := rfl
theorem exec_pauseStandbyReq (link : LinkId) (s : State) :
    exec (.pauseStandbyReq link) s = execPauseStandbyReq link s := rfl
theorem exec_v2gSequenceTimeout (link : LinkId) (s : State) :
    exec (.v2gSequenceTimeout link) s = execV2gSequenceTimeout link s := rfl
theorem exec_stateBoundExpiry (link : LinkId) (s : State) :
    exec (.stateBoundExpiry link) s = s.upd fun d => d.stateBound link := rfl
theorem exec_authTimeout (link : LinkId) (s : State) : exec (.authTimeout link) s = execAuthTimeout link s := rfl
theorem exec_authHoldExpiry (link : LinkId) (s : State) :
    exec (.authHoldExpiry link) s = execAuthHoldExpiry link s := rfl
theorem exec_stopCurrentLow (link : LinkId) (s : State) :
    exec (.stopCurrentLow link) s = execStopCurrentLow link s := rfl
theorem exec_stopMsExpiry (link : LinkId) (s : State) : exec (.stopMsExpiry link) s = execStopMsExpiry link s := rfl
theorem exec_sessionEnd (link : LinkId) (s : State) :
    exec (.sessionEnd link) s = s.upd fun d => d.endIfOpen link := rfl
theorem exec_vehStopCmd (link : LinkId) (s : State) : exec (.vehStopCmd link) s = execVehStopCmd link s := rfl
theorem exec_dischKwWrite (link : LinkId) (data : Word) (s : State) :
    exec (.dischKwWrite link data) s = execDischKwWrite link data s := rfl
theorem exec_directionSettled (link : LinkId) (s : State) :
    exec (.directionSettled link) s = s.upd fun d => d.settleDirection link := rfl
theorem exec_sprintChMismatch (_how : ChannelMismatch) (s : State) :
    exec (.sprintChMismatch _how) s = s.upd Dev.channelMismatch := rfl
theorem exec_sprintSelftest (aOk : Bool) (bOk : Bool) (s : State) :
    exec (.sprintSelftest aOk bOk) s = s.upd fun d => d.selftest (aOk && bOk) := rfl
theorem exec_tripoutReadbackFault (pair : Fin 4) (s : State) :
    exec (.tripoutReadbackFault pair) s = s.upd fun d => d.readbackFault pair := rfl
theorem exec_threshRetry (link : LinkId) (s : State) :
    exec (.threshRetry link) s = s.upd fun d => d.threshRetry link := rfl
theorem exec_imdHalfPeriod (link : LinkId) (s : State) :
    exec (.imdHalfPeriod link) s = execImdHalfPeriod link s := rfl
theorem exec_segReady (group : LinkId) (s : State) : exec (.segReady group) s = s.upd fun d => d.segReady group := rfl
theorem exec_symmetryFault (link : LinkId) (s : State) :
    exec (.symmetryFault link) s = s.upd fun d => d.symmetryFault link := rfl
theorem exec_rdcAcFault (link : LinkId) (s : State) :
    exec (.rdcAcFault link) s = s.upd fun d => d.rdcAcFault link := rfl
theorem exec_rdcDcFault (link : LinkId) (s : State) :
    exec (.rdcDcFault link) s = s.upd fun d => d.rdcDcFault link := rfl
theorem exec_siteRdc (link : LinkId) (s : State) : exec (.siteRdc link) s = s.upd fun d => d.siteRdcFault link := rfl
theorem exec_limitReduce (link : LinkId) (voltage : Bool) (s : State) :
    exec (.limitReduce link voltage) s = s.upd fun d => d.limitReduce link voltage := rfl
theorem exec_limitTrip (link : LinkId) (voltage : Bool) (s : State) :
    exec (.limitTrip link voltage) s = s.upd fun d => d.limitTrip link voltage := rfl
theorem exec_limitLift (link : LinkId) (voltage : Bool) (s : State) :
    exec (.limitLift link voltage) s = s.upd fun d => d.limitLift link voltage := rfl
theorem exec_safeDirFault (link : LinkId) (s : State) :
    exec (.safeDirFault link) s = s.upd fun d => d.safeDirFault link := rfl
theorem exec_avPairChange (pair : Fin 8) (a : Bool) (b : Bool) (s : State) :
    exec (.avPairChange pair a b) s = s.upd fun d => d.avLevels pair a b := rfl
theorem exec_avDiscrepancy (pair : Fin 8) (s : State) :
    exec (.avDiscrepancy pair) s = s.upd fun d => d.avDiscrepancy pair := rfl
theorem exec_avTimerRestart (pair : Fin 8) (s : State) :
    exec (.avTimerRestart pair) s = s.upd fun d => d.avRestart pair := rfl
theorem exec_causeGone (link : Option LinkId) (code : Byte) (s : State) :
    exec (.causeGone link code) s = s.upd fun d => d.causeGone link code.toNat := rfl
theorem exec_rstreqRise (inp : Fin 2) (s : State) : exec (.rstreqRise inp) s = s.upd fun d => d.resetRise inp := rfl
theorem exec_edgeResetAccepted (inp : Fin 2) (s : State) :
    exec (.edgeResetAccepted inp) s = s.upd fun d => d.resetFall inp := rfl
theorem exec_rstJammed (inp : Fin 2) (s : State) : exec (.rstJammed inp) s = s.upd fun d => d.resetJam inp := rfl
theorem exec_snDataFrame (net : SafetyNet) (frame : List Byte) (s : State) :
    exec (.snDataFrame net frame) s = s.upd fun d => d.snReceive net 1 frame := rfl
theorem exec_snResetFrame (net : SafetyNet) (frame : List Byte) (s : State) :
    exec (.snResetFrame net frame) s = s.upd fun d => d.snReceive net 2 frame := rfl
theorem exec_snSecondCopyTimeout (conn : Fin 8) (s : State) :
    exec (.snSecondCopyTimeout conn) s = s.upd fun d => d.copyLate conn := rfl
theorem exec_snWatchdogExpiry (conn : Fin 8) (s : State) :
    exec (.snWatchdogExpiry conn) s = s.upd fun d => d.watchdogLate conn := rfl
theorem exec_snStartTimeout (conn : Fin 8) (s : State) :
    exec (.snStartTimeout conn) s = s.upd fun d => d.startLate conn := rfl
theorem exec_snTx (s : State) : exec (.snTx) s = s.upd Dev.snTx := rfl
theorem exec_tagPoll (link : LinkId) (s : State) : exec (.tagPoll link) s = s.upd fun d => d.tagPoll link := rfl
theorem exec_tagEngineGrant (engine : Fin 24) (s : State) :
    exec (.tagEngineGrant engine) s = s.upd fun d => d.grantEngine engine := rfl
theorem exec_airResponse (engine : Fin 24) (answer : AirAnswer) (s : State) :
    exec (.airResponse engine answer) s = s.upd fun d => d.airResponse engine answer := rfl
theorem exec_tagTransactionEnd (engine : Fin 24) (s : State) :
    exec (.tagTransactionEnd engine) s = s.upd fun d => d.tagEnd engine := rfl
theorem exec_tagEngineTimeout (engine : Fin 24) (s : State) :
    exec (.tagEngineTimeout engine) s = s.upd fun d => d.tagTimeout engine := rfl
theorem exec_tagPollPromote (link : LinkId) (s : State) :
    exec (.tagPollPromote link) s = s.upd fun d => d.tagPromote link := rfl
theorem exec_fieldResetEnd (link : LinkId) (s : State) :
    exec (.fieldResetEnd link) s = s.upd fun d => d.fieldResetEnd link := rfl
theorem exec_serviceFieldPresent (s : State) : exec (.serviceFieldPresent) s = s.upd Dev.fieldPresent := rfl
theorem exec_serviceFieldLost (s : State) : exec (.serviceFieldLost) s = s.upd Dev.fieldLost := rfl
theorem exec_svcReadSummary (p1p2 : BitVec 16) (s : State) :
    exec (.svcReadSummary p1p2) s = s.upd fun d => d.svcCmd fun d => d.readSummary p1p2.toNat := rfl
theorem exec_svcReadLastword (entry : Byte) (s : State) :
    exec (.svcReadLastword entry) s = s.upd fun d => d.svcCmd fun d => d.readLastword entry.toNat := rfl
theorem exec_svcAuth1 (s : State) : exec (.svcAuth1) s = s.upd fun d => d.svcCmd Dev.svcAuth1 := rfl
theorem exec_svcAuth2 (nonce : List Byte) (sealedText : List Byte) (s : State) :
    exec (.svcAuth2 nonce sealedText) s = s.upd fun d => d.svcCmd fun d => d.svcAuth2 nonce sealedText := rfl
theorem exec_svcReadEvent (seq : BitVec 64) (tagOk : Bool) (s : State) :
    exec (.svcReadEvent seq tagOk) s = s.upd fun d => d.svcCmd fun d => d.svcReadEvent seq.toNat tagOk := rfl
theorem exec_svcMbxWrite (p1 : Byte) (data : List Byte) (tagOk : Bool) (s : State) :
    exec (.svcMbxWrite p1 data tagOk) s = s.upd fun d => d.svcCmd fun d => d.mbxWrite (4 * p1.toNat) data tagOk := rfl
theorem exec_svcMbxRead (p1 : Byte) (le : Byte) (s : State) :
    exec (.svcMbxRead p1 le) s = s.upd fun d => d.svcCmd fun d => d.mbxRead (4 * p1.toNat) le.toNat := rfl
theorem exec_svcMbxAcquire (s : State) : exec (.svcMbxAcquire) s = s.upd fun d => d.svcCmd Dev.fieldAcquire := rfl
theorem exec_svcMbxPost (p2 : Byte) (s : State) :
    exec (.svcMbxPost p2) s = s.upd fun d => d.svcCmd fun d => d.fieldPost p2.toNat := rfl
theorem exec_svcMbxRelease (s : State) : exec (.svcMbxRelease) s = s.upd fun d => d.svcCmd Dev.fieldRelease := rfl
theorem exec_svcMbxCancel (s : State) : exec (.svcMbxCancel) s = s.upd fun d => d.svcCmd Dev.fieldCancel := rfl
theorem exec_svcSecureTimeout (s : State) : exec (.svcSecureTimeout) s = s.upd Dev.svcTimeout := rfl
theorem exec_wireMbxAcquire (s : State) : exec (.wireMbxAcquire) s = s.upd Dev.wireAcquire := rfl
theorem exec_wireMbxPost (len : BitVec 9) (s : State) :
    exec (.wireMbxPost len) s = s.upd fun d => d.wirePost len.toNat := rfl
theorem exec_wireMbxRelease (s : State) : exec (.wireMbxRelease) s = s.upd Dev.wireRelease := rfl
theorem exec_wireMbxCancel (s : State) : exec (.wireMbxCancel) s = s.upd Dev.wireCancel := rfl
theorem exec_wireMbxDataWrite (index : Fin 64) (data : Word) (s : State) :
    exec (.wireMbxDataWrite index data) s = s.upd fun d => d.wireWrite index data := rfl
theorem exec_wireMbxTimeout (s : State) : exec (.wireMbxTimeout) s = s.upd Dev.wireTimeout := rfl
theorem exec_hostTenantLock (tenant : BitVec 10) (s : State) :
    exec (.hostTenantLock tenant) s = s.upd fun d => if d.recording then d.lockTenant tenant.toNat else d := rfl
theorem exec_enrolHe (s : State) : exec (.enrolHe) s = s.upd fun d => d.gw Reg.secCmd 1 fun d => d.enrol false := rfl
theorem exec_enrolVendor (s : State) :
    exec (.enrolVendor) s = s.upd fun d => d.gw Reg.secCmd 2 fun d => d.enrol true := rfl
theorem exec_rotateRoot (s : State) :
    exec (.rotateRoot) s = s.upd fun d => if d.rotateServed then d.gw Reg.secCmd 3 Dev.rotateRoot else if d.recording then d.rotateRoot else d := rfl
theorem exec_rngRestart (s : State) : exec (.rngRestart) s = s.upd fun d => d.gw Reg.secCmd 4 Dev.rngRestart := rfl
theorem exec_loadChain (len : BitVec 13) (s : State) : exec (.loadChain len) s = execLoadChain len s := rfl
theorem exec_objectSubmit (slot : Fin 4) (data : Word) (s : State) :
    exec (.objectSubmit slot data) s = s.upd (Dev.hosted fun d => d.submitObject slot data) := rfl
theorem exec_cryptoOperationDone (kind : EngineKind) (engine : Fin 32) (s : State) :
    exec (.cryptoOperationDone kind engine) s = s.upd fun d => d.operationDone kind engine := rfl
theorem exec_cryptoResult (s : State) : exec (.cryptoResult) s = s.upd Dev.cryptoResult := rfl
theorem exec_cryptoOverrun (s : State) : exec (.cryptoOverrun) s = s.upd Dev.cryptoOverrun := rfl
theorem exec_objectVerified (path : ObjectPath) (s : State) :
    exec (.objectVerified path) s = s.upd fun d => d.objectReady path := rfl
theorem exec_attestationStart (s : State) : exec (.attestationStart) s = s.upd (Dev.hosted Dev.attestStart) := rfl
theorem exec_rngHealthAlarm (s : State) : exec (.rngHealthAlarm) s = s.upd Dev.rngAlarm := rfl
theorem exec_rngStartupDone (passed : Bool) (s : State) :
    exec (.rngStartupDone passed) s = s.upd fun d => d.startupDone passed := rfl
theorem exec_rngReseed (s : State) : exec (.rngReseed) s = execRngReseed s := rfl
theorem exec_violCauseRead (s : State) : exec (.violCauseRead) s = s.upd (Dev.hosted Dev.readViolCause) := rfl
theorem exec_waitMaxWrite (data : Word) (s : State) :
    exec (.waitMaxWrite data) s = s.upd (Dev.hosted fun d => d.writeWaitMax data) := rfl
theorem exec_gridPeriodStart (quiet : Vector CellDiffs 6) (s : State) :
    exec (.gridPeriodStart quiet) s = s.upd fun d => d.gridPeriod quiet := rfl
theorem exec_beaconDecoded (b : Beacon) (s : State) :
    exec (.beaconDecoded b) s = s.upd fun d => d.beaconHeard b := rfl
theorem exec_electionReadTimeout (s : State) : exec (.electionReadTimeout) s = execElectionReadTimeout s := rfl
theorem exec_gridSegmentRx (seg : Segment) (s : State) :
    exec (.gridSegmentRx seg) s = s.upd fun d => d.segmentHeard seg := rfl
theorem exec_gridMsgTimeout (sender : Fin 32) (s : State) :
    exec (.gridMsgTimeout sender) s = execGridMsgTimeout sender s := rfl
theorem exec_gridObjectRx (sender : Fin 32) (s : State) :
    exec (.gridObjectRx sender) s = s.upd fun d => d.gridObject sender := rfl
theorem exec_gridPieceRx (sender : Fin 32) (s : State) :
    exec (.gridPieceRx sender) s = s.upd fun d => d.gridPiece sender := rfl
theorem exec_gridChallengeRx (sender : Fin 32) (s : State) :
    exec (.gridChallengeRx sender) s = execGridChallengeRx sender s := rfl
theorem exec_gridTableRx (sender : Fin 32) (s : State) :
    exec (.gridTableRx sender) s = s.upd fun d => d.gridTable sender := rfl
theorem exec_gridListenExpiry (s : State) : exec (.gridListenExpiry) s = execGridListenExpiry s := rfl
theorem exec_beaconLoss (s : State) : exec (.beaconLoss) s = execBeaconLoss s := rfl
theorem exec_guardEnd (s : State) : exec (.guardEnd) s = s.upd Dev.guardDone := rfl
theorem exec_discoveryStart (s : State) : exec (.discoveryStart) s = execDiscoveryStart s := rfl
theorem exec_discoveryAnswerRx (a : DiscAnswer) (s : State) :
    exec (.discoveryAnswerRx a) s = s.upd fun d => d.answerHeard a := rfl
theorem exec_grdDiscover (s : State) : exec (.grdDiscover) s = s.upd fun d => d.gw Reg.grdCmd 1 Dev.discover := rfl
theorem exec_grdRestart (s : State) : exec (.grdRestart) s = s.upd fun d => d.gw Reg.grdCmd 2 Dev.relisten := rfl
theorem exec_fnHold (fn : Byte) (inst : BitVec 10) (s : State) :
    exec (.fnHold fn inst) s = s.upd fun d => d.gw Reg.cfgFnCtrl (fnWord 1 fn inst) fun d => d.fnHold fn inst := rfl
theorem exec_fnResume (fn : Byte) (inst : BitVec 10) (s : State) :
    exec (.fnResume fn inst) s = s.upd fun d => d.gw Reg.cfgFnCtrl (fnWord 2 fn inst) fun d => d.fnResume fn inst := rfl
theorem exec_fnCancel (fn : Byte) (inst : BitVec 10) (s : State) :
    exec (.fnCancel fn inst) s = s.upd fun d => d.gw Reg.cfgFnCtrl (fnWord 3 fn inst) fun d => d.fnCancel fn inst := rfl
theorem exec_fnCmdZero (fn : Byte) (inst : BitVec 10) (s : State) :
    exec (.fnCmdZero fn inst) s = s.upd fun d => d.gw Reg.cfgFnCtrl (fnWord 0 fn inst) id := rfl
theorem exec_holdTakesEffect (slot : Fin 16) (s : State) :
    exec (.holdTakesEffect slot) s = s.upd fun d => d.holdStep slot := rfl
theorem exec_resumeTakesEffect (slot : Fin 16) (s : State) :
    exec (.resumeTakesEffect slot) s = s.upd fun d => d.resumeStep slot := rfl
theorem exec_cfgLoadWrite (s : State) :
    exec (.cfgLoadWrite) s = s.upd fun d => d.loadCmd 0x10000000 Dev.loadWrite := rfl
theorem exec_cfgLoadCommit (len : BitVec 23) (s : State) :
    exec (.cfgLoadCommit len) s = execCfgLoadCommit len s := rfl
theorem exec_updPieceSubmit (slot : Fin 2) (data : Word) (s : State) :
    exec (.updPieceSubmit slot data) s = s.upd (Dev.hosted fun d => d.submitPiece slot data) := rfl
theorem exec_pieceChecked (path : PiecePath) (s : State) :
    exec (.pieceChecked path) s = s.upd fun d => d.pieceChecked path := rfl
theorem exec_partVerified (part : Fin 32) (s : State) :
    exec (.partVerified part) s = s.upd fun d => d.partChecked part.1 := rfl
theorem exec_headStagingDone (link : LinkId) (s : State) :
    exec (.headStagingDone link) s = s.upd fun d => d.stagingEnds link := rfl
theorem exec_updActivate (s : State) : exec (.updActivate) s = s.upd fun d => d.gw Reg.updCmd 1 Dev.updActivate := rfl
theorem exec_updAbandon (s : State) : exec (.updAbandon) s = s.upd fun d => d.gw Reg.updCmd 2 Dev.updAbandon := rfl
theorem exec_manifestExpiry (s : State) :
    exec (.manifestExpiry) s = s.upd fun d => if d.manifestExpired then d.endUpdate 5 else d := rfl
theorem exec_activationEntry (s : State) : exec (.activationEntry) s = s.upd Dev.activationEntry := rfl
theorem exec_activationStopTimeout (s : State) : exec (.activationStopTimeout) s = s.upd Dev.activationTimeout := rfl
theorem exec_headsArmed (s : State) : exec (.headsArmed) s = s.upd Dev.headsArmed := rfl
theorem exec_loaderWriteDone (hashesOk : Bool) (ms : Word) (s : State) :
    exec (.loaderWriteDone hashesOk ms) s = s.upd fun d => d.loaderDone hashesOk ms := rfl
theorem exec_healthConfirm (data : Word) (s : State) : exec (.healthConfirm data) s = execHealthConfirm data s := rfl
theorem exec_confirmWindowExpiry (s : State) : exec (.confirmWindowExpiry) s = s.upd Dev.windowExpired := rfl
theorem exec_scrubStep (target : ScrubTarget) (s : State) :
    exec (.scrubStep target) s = s.upd fun d => d.scrub target := rfl
theorem exec_codePageRepair (page : BitVec 16) (hashOk : Bool) (s : State) :
    exec (.codePageRepair page hashOk) s = s.upd fun d => d.repairPage page hashOk := rfl
theorem exec_evrCursorWrite (data : Word) (s : State) :
    exec (.evrCursorWrite data) s = s.upd (Dev.hosted fun d => d.setReg Reg.evrCursor data) := rfl
theorem exec_evrNorSectWrite (data : Word) (s : State) :
    exec (.evrNorSectWrite data) s = s.upd (Dev.hosted fun d => d.setReg Reg.evrNorSect (BitVec.ofNat 32 (fieldOf data 0 15))) := rfl
theorem exec_evrRetest (s : State) : exec (.evrRetest) s = s.upd fun d => d.gw Reg.evrCmd 1 Dev.retest := rfl
theorem exec_retestDone (passed : BitVec 64) (s : State) :
    exec (.retestDone passed) s = s.upd fun d => d.retestDone passed := rfl
theorem exec_lwClear (s : State) : exec (.lwClear) s = s.upd fun d => d.gw Reg.memLwClear 1 Dev.clearLastWords := rfl
theorem exec_poisonAddrRead (s : State) : exec (.poisonAddrRead) s = s.upd (Dev.hosted Dev.readPoisonAddr) := rfl
theorem exec_norProgramDone (ok : Bool) (s : State) :
    exec (.norProgramDone ok) s = s.upd fun d => d.programDone ok := rfl
theorem exec_norEraseDone (ok : Bool) (s : State) :
    exec (.norEraseDone ok) s = s.upd fun d => (d.norErasedDone ok).each (List.finRange 8) Dev.arcLost := rfl
theorem exec_archiveBlockSealed (ns : Fin 8) (s : State) :
    exec (.archiveBlockSealed ns) s = s.upd fun d => d.blockSealed ns := rfl
theorem exec_nvmeCompletion (cmd : Fin 64) (status : NvmeStatus) (s : State) :
    exec (.nvmeCompletion cmd status) s = s.upd fun d => d.arcCompletion cmd (status == .ok) := rfl
theorem exec_nvmeTimeout (cmd : Fin 64) (s : State) :
    exec (.nvmeTimeout cmd) s = s.upd fun d => d.arcTimeout cmd := rfl
theorem exec_arcReadGo (data : Word) (s : State) :
    exec (.arcReadGo data) s = s.upd (Dev.hosted fun d => d.arcRead data) := rfl
theorem exec_arcReadDone (res : ArcRead) (s : State) :
    exec (.arcReadDone res) s = s.upd fun d => d.arcReadDone res := rfl
theorem exec_displayFrame (differ : BitVec 68) (s : State) :
    exec (.displayFrame differ) s = s.upd fun d => d.displayFrame differ := rfl
theorem exec_bistablePulseEnd (s : State) : exec (.bistablePulseEnd) s = s.upd Dev.pulseEnd := rfl
theorem exec_vlcdFault (s : State) : exec (.vlcdFault) s = execVlcdFault s := rfl
theorem exec_vlcdRestart (holds : Bool) (s : State) : exec (.vlcdRestart holds) s = execVlcdRestart holds s := rfl
theorem exec_keyMeasurement (key : Fin 2) (meas : BitVec 16) (s : State) :
    exec (.keyMeasurement key meas) s = s.upd fun d => d.keyMeasured key meas := rfl
theorem exec_keyTouch (key : Fin 2) (s : State) :
    exec (.keyTouch key) s = s.upd fun d => d.keyTouched s.shown key := rfl
theorem exec_keyRelease (key : Fin 2) (s : State) :
    exec (.keyRelease key) s = s.upd fun d => d.keyReleased s.shown key := rfl
theorem exec_keyLongTouch (s : State) : exec (.keyLongTouch) s = s.upd fun d => d.keyLong s.shown := rfl
theorem exec_keyStuck (key : Fin 2) (s : State) : exec (.keyStuck key) s = execKeyStuck key s := rfl
theorem exec_keyUnstick (key : Fin 2) (s : State) : exec (.keyUnstick key) s = execKeyUnstick key s := rfl
theorem exec_keyRebase (key : Fin 2) (s : State) : exec (.keyRebase key) s = execKeyRebase key s := rfl
theorem exec_keyDrift (key : Fin 2) (s : State) : exec (.keyDrift key) s = execKeyDrift key s := rfl
theorem exec_scrollAutoAdvance (s : State) : exec (.scrollAutoAdvance) s = execScrollAutoAdvance s := rfl
theorem exec_scrollResume (s : State) : exec (.scrollResume) s = execScrollResume s := rfl
theorem exec_auxCmdWrite (link : LinkId) (data : Word) (s : State) :
    exec (.auxCmdWrite link data) s = s.upd (Dev.hosted fun d => d.auxCommand link data) := rfl
theorem exec_auxRunOnExpiry (link : LinkId) (ch : Fin 4) (s : State) :
    exec (.auxRunOnExpiry link ch) s = execAuxRunOnExpiry link ch s := rfl
theorem exec_auxOcRetry (link : LinkId) (ch : Fin 4) (s : State) :
    exec (.auxOcRetry link ch) s = execAuxOcRetry link ch s := rfl
theorem exec_auxOpenLoad (link : LinkId) (ch : Fin 4) (s : State) :
    exec (.auxOpenLoad link ch) s = execAuxOpenLoad link ch s := rfl
theorem exec_auxMismatch (link : LinkId) (ch : Fin 4) (s : State) :
    exec (.auxMismatch link ch) s = execAuxMismatch link ch s := rfl
theorem exec_auxSpinTimeout (link : LinkId) (ch : Fin 4) (s : State) :
    exec (.auxSpinTimeout link ch) s = execAuxSpinTimeout link ch s := rfl
theorem exec_auxBlockedRetry (link : LinkId) (ch : Fin 4) (s : State) :
    exec (.auxBlockedRetry link ch) s = execAuxBlockedRetry link ch s := rfl
theorem exec_wakeRailsInRange (s : State) : exec (.wakeRailsInRange) s = s.upd Dev.wakeRailsInRange := rfl
theorem exec_dormantEntryEnd (s : State) : exec (.dormantEntryEnd) s = s.upd Dev.dormantEntryEnd := rfl
theorem exec_railResetRelease (loaderOk : Bool) (s : State) :
    exec (.railResetRelease loaderOk) s = s.upd fun d => d.railResetRelease loaderOk := rfl
theorem exec_s0StuckClear (inp : Fin 4) (s : State) : exec (.s0StuckClear inp) s = execS0StuckClear inp s := rfl
theorem exec_soundingWindowEnd (link : LinkId) (s : State) :
    exec (.soundingWindowEnd link) s = s.upd fun d => d.soundingEnd link := rfl
theorem exec_attenSoundRx (link : LinkId) (runId : BitVec 64) (groups : Vector Byte 58) (s : State) :
    exec (.attenSoundRx link runId groups) s = s.upd fun d => d.sound link runId groups := rfl
theorem exec_negotiationReq (link : LinkId) (form : V2gForm) (agreed : Option Negotiated) (s : State) :
    exec (.negotiationReq link form agreed) s = s.upd fun d => d.negotiate link form agreed := rfl
theorem exec_tlsHandshake (link : LinkId) (ok : Bool) (done : Bool) (s : State) :
    exec (.tlsHandshake link ok done) s = s.upd fun d => d.tlsStep link ok done := rfl
theorem exec_pcieLinkTrained (gen : Fin 4) (sizes : Vector Nat 8) (more : Bool) (s : State) :
    exec (.pcieLinkTrained gen sizes more) s = s.upd fun d => d.arcTrained gen sizes more := rfl
theorem exec_cfgLoadCmdDone (s : State) : exec (.cfgLoadCmdDone) s = s.upd Dev.loadDone := rfl

/-- A command that is an update of the device completes with what the update leaves. -/
theorem completes_of {c : Instr} {s : State} {f : Dev → Dev} {P : Dev → Prop} (hc : exec c s = s.upd f)
    (h : P (f s.dev).settled) : Completes c s P := ⟨_, hc, rfl, rfl, h⟩

end Sys2Proof.Machine
end

