-- ==== Sys2Proof/Laws/State.lean ====
section
/-! SUPPORT. What each update of the device leaves of every section: true by definition, said once, so that no later
proof unfolds a record update. -/

namespace Sys2Proof.Machine

section
variable (d : Dev)

@[simp] theorem Dev.onRec_pacer (f : Recorder → Recorder) : (d.onRec f).pacer = d.pacer := rfl
@[simp] theorem Dev.onRec_power (f : Recorder → Recorder) : (d.onRec f).power = d.power := rfl
@[simp] theorem Dev.onRec_host (f : Recorder → Recorder) : (d.onRec f).host = d.host := rfl
@[simp] theorem Dev.onRec_regs (f : Recorder → Recorder) : (d.onRec f).regs = d.regs := rfl
@[simp] theorem Dev.onRec_links (f : Recorder → Recorder) : (d.onRec f).links = d.links := rfl
@[simp] theorem Dev.onRec_tenants (f : Recorder → Recorder) : (d.onRec f).tenants = d.tenants := rfl
@[simp] theorem Dev.onRec_bill (f : Recorder → Recorder) : (d.onRec f).bill = d.bill := rfl
@[simp] theorem Dev.onRec_alloc (f : Recorder → Recorder) : (d.onRec f).alloc = d.alloc := rfl
@[simp] theorem Dev.onRec_prot (f : Recorder → Recorder) : (d.onRec f).prot = d.prot := rfl
@[simp] theorem Dev.onRec_engines (f : Recorder → Recorder) : (d.onRec f).engines = d.engines := rfl
@[simp] theorem Dev.onRec_svc (f : Recorder → Recorder) : (d.onRec f).svc = d.svc := rfl
@[simp] theorem Dev.onRec_sec (f : Recorder → Recorder) : (d.onRec f).sec = d.sec := rfl
@[simp] theorem Dev.onRec_grid (f : Recorder → Recorder) : (d.onRec f).grid = d.grid := rfl
@[simp] theorem Dev.onRec_disp (f : Recorder → Recorder) : (d.onRec f).disp = d.disp := rfl
@[simp] theorem Dev.onRec_scroll (f : Recorder → Recorder) : (d.onRec f).scroll = d.scroll := rfl
@[simp] theorem Dev.onRec_keys (f : Recorder → Recorder) : (d.onRec f).keys = d.keys := rfl
@[simp] theorem Dev.onRec_tpo (f : Recorder → Recorder) : (d.onRec f).tpo = d.tpo := rfl
@[simp] theorem Dev.onRec_s0 (f : Recorder → Recorder) : (d.onRec f).s0 = d.s0 := rfl
@[simp] theorem Dev.onRec_cfg (f : Recorder → Recorder) : (d.onRec f).cfg = d.cfg := rfl
@[simp] theorem Dev.onRec_upd (f : Recorder → Recorder) : (d.onRec f).upd = d.upd := rfl
@[simp] theorem Dev.onRec_recorder (f : Recorder → Recorder) : (d.onRec f).recorder = f d.recorder := rfl
@[simp] theorem Dev.onRec_mem (f : Recorder → Recorder) : (d.onRec f).mem = d.mem := rfl
@[simp] theorem Dev.onRec_archive (f : Recorder → Recorder) : (d.onRec f).archive = d.archive := rfl
@[simp] theorem Dev.onRec_locked (f : Recorder → Recorder) : (d.onRec f).locked = d.locked := rfl
@[simp] theorem Dev.onRec_commits (f : Recorder → Recorder) : (d.onRec f).commits = d.commits := rfl
@[simp] theorem Dev.onRec_fresh (f : Recorder → Recorder) : (d.onRec f).fresh = d.fresh := rfl
@[simp] theorem Dev.onRec_link (f : Recorder → Recorder) (m : LinkId) : (d.onRec f).link m = d.link m := rfl
@[simp] theorem Dev.onRec_tenant (f : Recorder → Recorder) (t : TenantId) : (d.onRec f).tenant t = d.tenant t := rfl
@[simp] theorem Dev.onRec_reg (f : Recorder → Recorder) (x : Nat) : (d.onRec f).reg x = d.reg x := rfl
@[simp] theorem Dev.onRec_mode (f : Recorder → Recorder) : (d.onRec f).mode = d.mode := rfl
@[simp] theorem Dev.onRec_recording (f : Recorder → Recorder) : (d.onRec f).recording = d.recording := rfl
@[simp] theorem Dev.onRec_now (f : Recorder → Recorder) : (d.onRec f).now = d.now := rfl

@[simp] theorem Dev.onPower_pacer (f : Power → Power) : (d.onPower f).pacer = d.pacer := rfl
@[simp] theorem Dev.onPower_power (f : Power → Power) : (d.onPower f).power = f d.power := rfl
@[simp] theorem Dev.onPower_host (f : Power → Power) : (d.onPower f).host = d.host := rfl
@[simp] theorem Dev.onPower_regs (f : Power → Power) : (d.onPower f).regs = d.regs := rfl
@[simp] theorem Dev.onPower_links (f : Power → Power) : (d.onPower f).links = d.links := rfl
@[simp] theorem Dev.onPower_tenants (f : Power → Power) : (d.onPower f).tenants = d.tenants := rfl
@[simp] theorem Dev.onPower_bill (f : Power → Power) : (d.onPower f).bill = d.bill := rfl
@[simp] theorem Dev.onPower_alloc (f : Power → Power) : (d.onPower f).alloc = d.alloc := rfl
@[simp] theorem Dev.onPower_prot (f : Power → Power) : (d.onPower f).prot = d.prot := rfl
@[simp] theorem Dev.onPower_engines (f : Power → Power) : (d.onPower f).engines = d.engines := rfl
@[simp] theorem Dev.onPower_svc (f : Power → Power) : (d.onPower f).svc = d.svc := rfl
@[simp] theorem Dev.onPower_sec (f : Power → Power) : (d.onPower f).sec = d.sec := rfl
@[simp] theorem Dev.onPower_grid (f : Power → Power) : (d.onPower f).grid = d.grid := rfl
@[simp] theorem Dev.onPower_disp (f : Power → Power) : (d.onPower f).disp = d.disp := rfl
@[simp] theorem Dev.onPower_scroll (f : Power → Power) : (d.onPower f).scroll = d.scroll := rfl
@[simp] theorem Dev.onPower_keys (f : Power → Power) : (d.onPower f).keys = d.keys := rfl
@[simp] theorem Dev.onPower_tpo (f : Power → Power) : (d.onPower f).tpo = d.tpo := rfl
@[simp] theorem Dev.onPower_s0 (f : Power → Power) : (d.onPower f).s0 = d.s0 := rfl
@[simp] theorem Dev.onPower_cfg (f : Power → Power) : (d.onPower f).cfg = d.cfg := rfl
@[simp] theorem Dev.onPower_upd (f : Power → Power) : (d.onPower f).upd = d.upd := rfl
@[simp] theorem Dev.onPower_recorder (f : Power → Power) : (d.onPower f).recorder = d.recorder := rfl
@[simp] theorem Dev.onPower_mem (f : Power → Power) : (d.onPower f).mem = d.mem := rfl
@[simp] theorem Dev.onPower_archive (f : Power → Power) : (d.onPower f).archive = d.archive := rfl
@[simp] theorem Dev.onPower_locked (f : Power → Power) : (d.onPower f).locked = d.locked := rfl
@[simp] theorem Dev.onPower_commits (f : Power → Power) : (d.onPower f).commits = d.commits := rfl
@[simp] theorem Dev.onPower_fresh (f : Power → Power) : (d.onPower f).fresh = d.fresh := rfl
@[simp] theorem Dev.onPower_link (f : Power → Power) (m : LinkId) : (d.onPower f).link m = d.link m := rfl
@[simp] theorem Dev.onPower_tenant (f : Power → Power) (t : TenantId) : (d.onPower f).tenant t = d.tenant t := rfl
@[simp] theorem Dev.onPower_reg (f : Power → Power) (x : Nat) : (d.onPower f).reg x = d.reg x := rfl
@[simp] theorem Dev.onPower_now (f : Power → Power) : (d.onPower f).now = d.now := rfl

@[simp] theorem Dev.onPacer_pacer (f : Pacer → Pacer) : (d.onPacer f).pacer = f d.pacer := rfl
@[simp] theorem Dev.onPacer_power (f : Pacer → Pacer) : (d.onPacer f).power = d.power := rfl
@[simp] theorem Dev.onPacer_host (f : Pacer → Pacer) : (d.onPacer f).host = d.host := rfl
@[simp] theorem Dev.onPacer_regs (f : Pacer → Pacer) : (d.onPacer f).regs = d.regs := rfl
@[simp] theorem Dev.onPacer_links (f : Pacer → Pacer) : (d.onPacer f).links = d.links := rfl
@[simp] theorem Dev.onPacer_tenants (f : Pacer → Pacer) : (d.onPacer f).tenants = d.tenants := rfl
@[simp] theorem Dev.onPacer_bill (f : Pacer → Pacer) : (d.onPacer f).bill = d.bill := rfl
@[simp] theorem Dev.onPacer_alloc (f : Pacer → Pacer) : (d.onPacer f).alloc = d.alloc := rfl
@[simp] theorem Dev.onPacer_prot (f : Pacer → Pacer) : (d.onPacer f).prot = d.prot := rfl
@[simp] theorem Dev.onPacer_engines (f : Pacer → Pacer) : (d.onPacer f).engines = d.engines := rfl
@[simp] theorem Dev.onPacer_svc (f : Pacer → Pacer) : (d.onPacer f).svc = d.svc := rfl
@[simp] theorem Dev.onPacer_sec (f : Pacer → Pacer) : (d.onPacer f).sec = d.sec := rfl
@[simp] theorem Dev.onPacer_grid (f : Pacer → Pacer) : (d.onPacer f).grid = d.grid := rfl
@[simp] theorem Dev.onPacer_disp (f : Pacer → Pacer) : (d.onPacer f).disp = d.disp := rfl
@[simp] theorem Dev.onPacer_scroll (f : Pacer → Pacer) : (d.onPacer f).scroll = d.scroll := rfl
@[simp] theorem Dev.onPacer_keys (f : Pacer → Pacer) : (d.onPacer f).keys = d.keys := rfl
@[simp] theorem Dev.onPacer_tpo (f : Pacer → Pacer) : (d.onPacer f).tpo = d.tpo := rfl
@[simp] theorem Dev.onPacer_s0 (f : Pacer → Pacer) : (d.onPacer f).s0 = d.s0 := rfl
@[simp] theorem Dev.onPacer_cfg (f : Pacer → Pacer) : (d.onPacer f).cfg = d.cfg := rfl
@[simp] theorem Dev.onPacer_upd (f : Pacer → Pacer) : (d.onPacer f).upd = d.upd := rfl
@[simp] theorem Dev.onPacer_recorder (f : Pacer → Pacer) : (d.onPacer f).recorder = d.recorder := rfl
@[simp] theorem Dev.onPacer_mem (f : Pacer → Pacer) : (d.onPacer f).mem = d.mem := rfl
@[simp] theorem Dev.onPacer_archive (f : Pacer → Pacer) : (d.onPacer f).archive = d.archive := rfl
@[simp] theorem Dev.onPacer_locked (f : Pacer → Pacer) : (d.onPacer f).locked = d.locked := rfl
@[simp] theorem Dev.onPacer_commits (f : Pacer → Pacer) : (d.onPacer f).commits = d.commits := rfl
@[simp] theorem Dev.onPacer_fresh (f : Pacer → Pacer) : (d.onPacer f).fresh = d.fresh := rfl
@[simp] theorem Dev.onPacer_link (f : Pacer → Pacer) (m : LinkId) : (d.onPacer f).link m = d.link m := rfl
@[simp] theorem Dev.onPacer_tenant (f : Pacer → Pacer) (t : TenantId) : (d.onPacer f).tenant t = d.tenant t := rfl
@[simp] theorem Dev.onPacer_reg (f : Pacer → Pacer) (x : Nat) : (d.onPacer f).reg x = d.reg x := rfl
@[simp] theorem Dev.onPacer_mode (f : Pacer → Pacer) : (d.onPacer f).mode = d.mode := rfl
@[simp] theorem Dev.onPacer_recording (f : Pacer → Pacer) : (d.onPacer f).recording = d.recording := rfl

@[simp] theorem Dev.onHost_pacer (f : HostPort → HostPort) : (d.onHost f).pacer = d.pacer := rfl
@[simp] theorem Dev.onHost_power (f : HostPort → HostPort) : (d.onHost f).power = d.power := rfl
@[simp] theorem Dev.onHost_host (f : HostPort → HostPort) : (d.onHost f).host = f d.host := rfl
@[simp] theorem Dev.onHost_regs (f : HostPort → HostPort) : (d.onHost f).regs = d.regs := rfl
@[simp] theorem Dev.onHost_links (f : HostPort → HostPort) : (d.onHost f).links = d.links := rfl
@[simp] theorem Dev.onHost_tenants (f : HostPort → HostPort) : (d.onHost f).tenants = d.tenants := rfl
@[simp] theorem Dev.onHost_bill (f : HostPort → HostPort) : (d.onHost f).bill = d.bill := rfl
@[simp] theorem Dev.onHost_alloc (f : HostPort → HostPort) : (d.onHost f).alloc = d.alloc := rfl
@[simp] theorem Dev.onHost_prot (f : HostPort → HostPort) : (d.onHost f).prot = d.prot := rfl
@[simp] theorem Dev.onHost_engines (f : HostPort → HostPort) : (d.onHost f).engines = d.engines := rfl
@[simp] theorem Dev.onHost_svc (f : HostPort → HostPort) : (d.onHost f).svc = d.svc := rfl
@[simp] theorem Dev.onHost_sec (f : HostPort → HostPort) : (d.onHost f).sec = d.sec := rfl
@[simp] theorem Dev.onHost_grid (f : HostPort → HostPort) : (d.onHost f).grid = d.grid := rfl
@[simp] theorem Dev.onHost_disp (f : HostPort → HostPort) : (d.onHost f).disp = d.disp := rfl
@[simp] theorem Dev.onHost_scroll (f : HostPort → HostPort) : (d.onHost f).scroll = d.scroll := rfl
@[simp] theorem Dev.onHost_keys (f : HostPort → HostPort) : (d.onHost f).keys = d.keys := rfl
@[simp] theorem Dev.onHost_tpo (f : HostPort → HostPort) : (d.onHost f).tpo = d.tpo := rfl
@[simp] theorem Dev.onHost_s0 (f : HostPort → HostPort) : (d.onHost f).s0 = d.s0 := rfl
@[simp] theorem Dev.onHost_cfg (f : HostPort → HostPort) : (d.onHost f).cfg = d.cfg := rfl
@[simp] theorem Dev.onHost_upd (f : HostPort → HostPort) : (d.onHost f).upd = d.upd := rfl
@[simp] theorem Dev.onHost_recorder (f : HostPort → HostPort) : (d.onHost f).recorder = d.recorder := rfl
@[simp] theorem Dev.onHost_mem (f : HostPort → HostPort) : (d.onHost f).mem = d.mem := rfl
@[simp] theorem Dev.onHost_archive (f : HostPort → HostPort) : (d.onHost f).archive = d.archive := rfl
@[simp] theorem Dev.onHost_locked (f : HostPort → HostPort) : (d.onHost f).locked = d.locked := rfl
@[simp] theorem Dev.onHost_commits (f : HostPort → HostPort) : (d.onHost f).commits = d.commits := rfl
@[simp] theorem Dev.onHost_fresh (f : HostPort → HostPort) : (d.onHost f).fresh = d.fresh := rfl
@[simp] theorem Dev.onHost_link (f : HostPort → HostPort) (m : LinkId) : (d.onHost f).link m = d.link m := rfl
@[simp] theorem Dev.onHost_tenant (f : HostPort → HostPort) (t : TenantId) : (d.onHost f).tenant t = d.tenant t := rfl
@[simp] theorem Dev.onHost_reg (f : HostPort → HostPort) (x : Nat) : (d.onHost f).reg x = d.reg x := rfl
@[simp] theorem Dev.onHost_mode (f : HostPort → HostPort) : (d.onHost f).mode = d.mode := rfl
@[simp] theorem Dev.onHost_recording (f : HostPort → HostPort) : (d.onHost f).recording = d.recording := rfl
@[simp] theorem Dev.onHost_now (f : HostPort → HostPort) : (d.onHost f).now = d.now := rfl

@[simp] theorem Dev.onBilling_pacer (f : Billing → Billing) : (d.onBilling f).pacer = d.pacer := rfl
@[simp] theorem Dev.onBilling_power (f : Billing → Billing) : (d.onBilling f).power = d.power := rfl
@[simp] theorem Dev.onBilling_host (f : Billing → Billing) : (d.onBilling f).host = d.host := rfl
@[simp] theorem Dev.onBilling_regs (f : Billing → Billing) : (d.onBilling f).regs = d.regs := rfl
@[simp] theorem Dev.onBilling_links (f : Billing → Billing) : (d.onBilling f).links = d.links := rfl
@[simp] theorem Dev.onBilling_tenants (f : Billing → Billing) : (d.onBilling f).tenants = d.tenants := rfl
@[simp] theorem Dev.onBilling_bill (f : Billing → Billing) : (d.onBilling f).bill = f d.bill := rfl
@[simp] theorem Dev.onBilling_alloc (f : Billing → Billing) : (d.onBilling f).alloc = d.alloc := rfl
@[simp] theorem Dev.onBilling_prot (f : Billing → Billing) : (d.onBilling f).prot = d.prot := rfl
@[simp] theorem Dev.onBilling_engines (f : Billing → Billing) : (d.onBilling f).engines = d.engines := rfl
@[simp] theorem Dev.onBilling_svc (f : Billing → Billing) : (d.onBilling f).svc = d.svc := rfl
@[simp] theorem Dev.onBilling_sec (f : Billing → Billing) : (d.onBilling f).sec = d.sec := rfl
@[simp] theorem Dev.onBilling_grid (f : Billing → Billing) : (d.onBilling f).grid = d.grid := rfl
@[simp] theorem Dev.onBilling_disp (f : Billing → Billing) : (d.onBilling f).disp = d.disp := rfl
@[simp] theorem Dev.onBilling_scroll (f : Billing → Billing) : (d.onBilling f).scroll = d.scroll := rfl
@[simp] theorem Dev.onBilling_keys (f : Billing → Billing) : (d.onBilling f).keys = d.keys := rfl
@[simp] theorem Dev.onBilling_tpo (f : Billing → Billing) : (d.onBilling f).tpo = d.tpo := rfl
@[simp] theorem Dev.onBilling_s0 (f : Billing → Billing) : (d.onBilling f).s0 = d.s0 := rfl
@[simp] theorem Dev.onBilling_cfg (f : Billing → Billing) : (d.onBilling f).cfg = d.cfg := rfl
@[simp] theorem Dev.onBilling_upd (f : Billing → Billing) : (d.onBilling f).upd = d.upd := rfl
@[simp] theorem Dev.onBilling_recorder (f : Billing → Billing) : (d.onBilling f).recorder = d.recorder := rfl
@[simp] theorem Dev.onBilling_mem (f : Billing → Billing) : (d.onBilling f).mem = d.mem := rfl
@[simp] theorem Dev.onBilling_archive (f : Billing → Billing) : (d.onBilling f).archive = d.archive := rfl
@[simp] theorem Dev.onBilling_locked (f : Billing → Billing) : (d.onBilling f).locked = d.locked := rfl
@[simp] theorem Dev.onBilling_commits (f : Billing → Billing) : (d.onBilling f).commits = d.commits := rfl
@[simp] theorem Dev.onBilling_fresh (f : Billing → Billing) : (d.onBilling f).fresh = d.fresh := rfl
@[simp] theorem Dev.onBilling_link (f : Billing → Billing) (m : LinkId) : (d.onBilling f).link m = d.link m := rfl
@[simp] theorem Dev.onBilling_tenant (f : Billing → Billing) (t : TenantId) : (d.onBilling f).tenant t = d.tenant t := rfl
@[simp] theorem Dev.onBilling_reg (f : Billing → Billing) (x : Nat) : (d.onBilling f).reg x = d.reg x := rfl
@[simp] theorem Dev.onBilling_mode (f : Billing → Billing) : (d.onBilling f).mode = d.mode := rfl
@[simp] theorem Dev.onBilling_recording (f : Billing → Billing) : (d.onBilling f).recording = d.recording := rfl
@[simp] theorem Dev.onBilling_now (f : Billing → Billing) : (d.onBilling f).now = d.now := rfl

@[simp] theorem Dev.onAlloc_pacer (f : Allocation → Allocation) : (d.onAlloc f).pacer = d.pacer := rfl
@[simp] theorem Dev.onAlloc_power (f : Allocation → Allocation) : (d.onAlloc f).power = d.power := rfl
@[simp] theorem Dev.onAlloc_host (f : Allocation → Allocation) : (d.onAlloc f).host = d.host := rfl
@[simp] theorem Dev.onAlloc_regs (f : Allocation → Allocation) : (d.onAlloc f).regs = d.regs := rfl
@[simp] theorem Dev.onAlloc_links (f : Allocation → Allocation) : (d.onAlloc f).links = d.links := rfl
@[simp] theorem Dev.onAlloc_tenants (f : Allocation → Allocation) : (d.onAlloc f).tenants = d.tenants := rfl
@[simp] theorem Dev.onAlloc_bill (f : Allocation → Allocation) : (d.onAlloc f).bill = d.bill := rfl
@[simp] theorem Dev.onAlloc_alloc (f : Allocation → Allocation) : (d.onAlloc f).alloc = f d.alloc := rfl
@[simp] theorem Dev.onAlloc_prot (f : Allocation → Allocation) : (d.onAlloc f).prot = d.prot := rfl
@[simp] theorem Dev.onAlloc_engines (f : Allocation → Allocation) : (d.onAlloc f).engines = d.engines := rfl
@[simp] theorem Dev.onAlloc_svc (f : Allocation → Allocation) : (d.onAlloc f).svc = d.svc := rfl
@[simp] theorem Dev.onAlloc_sec (f : Allocation → Allocation) : (d.onAlloc f).sec = d.sec := rfl
@[simp] theorem Dev.onAlloc_grid (f : Allocation → Allocation) : (d.onAlloc f).grid = d.grid := rfl
@[simp] theorem Dev.onAlloc_disp (f : Allocation → Allocation) : (d.onAlloc f).disp = d.disp := rfl
@[simp] theorem Dev.onAlloc_scroll (f : Allocation → Allocation) : (d.onAlloc f).scroll = d.scroll := rfl
@[simp] theorem Dev.onAlloc_keys (f : Allocation → Allocation) : (d.onAlloc f).keys = d.keys := rfl
@[simp] theorem Dev.onAlloc_tpo (f : Allocation → Allocation) : (d.onAlloc f).tpo = d.tpo := rfl
@[simp] theorem Dev.onAlloc_s0 (f : Allocation → Allocation) : (d.onAlloc f).s0 = d.s0 := rfl
@[simp] theorem Dev.onAlloc_cfg (f : Allocation → Allocation) : (d.onAlloc f).cfg = d.cfg := rfl
@[simp] theorem Dev.onAlloc_upd (f : Allocation → Allocation) : (d.onAlloc f).upd = d.upd := rfl
@[simp] theorem Dev.onAlloc_recorder (f : Allocation → Allocation) : (d.onAlloc f).recorder = d.recorder := rfl
@[simp] theorem Dev.onAlloc_mem (f : Allocation → Allocation) : (d.onAlloc f).mem = d.mem := rfl
@[simp] theorem Dev.onAlloc_archive (f : Allocation → Allocation) : (d.onAlloc f).archive = d.archive := rfl
@[simp] theorem Dev.onAlloc_locked (f : Allocation → Allocation) : (d.onAlloc f).locked = d.locked := rfl
@[simp] theorem Dev.onAlloc_commits (f : Allocation → Allocation) : (d.onAlloc f).commits = d.commits := rfl
@[simp] theorem Dev.onAlloc_fresh (f : Allocation → Allocation) : (d.onAlloc f).fresh = d.fresh := rfl
@[simp] theorem Dev.onAlloc_link (f : Allocation → Allocation) (m : LinkId) : (d.onAlloc f).link m = d.link m := rfl
@[simp] theorem Dev.onAlloc_tenant (f : Allocation → Allocation) (t : TenantId) : (d.onAlloc f).tenant t = d.tenant t := rfl
@[simp] theorem Dev.onAlloc_reg (f : Allocation → Allocation) (x : Nat) : (d.onAlloc f).reg x = d.reg x := rfl
@[simp] theorem Dev.onAlloc_mode (f : Allocation → Allocation) : (d.onAlloc f).mode = d.mode := rfl
@[simp] theorem Dev.onAlloc_recording (f : Allocation → Allocation) : (d.onAlloc f).recording = d.recording := rfl
@[simp] theorem Dev.onAlloc_now (f : Allocation → Allocation) : (d.onAlloc f).now = d.now := rfl

@[simp] theorem Dev.onProtection_pacer (f : Protection → Protection) : (d.onProtection f).pacer = d.pacer := rfl
@[simp] theorem Dev.onProtection_power (f : Protection → Protection) : (d.onProtection f).power = d.power := rfl
@[simp] theorem Dev.onProtection_host (f : Protection → Protection) : (d.onProtection f).host = d.host := rfl
@[simp] theorem Dev.onProtection_regs (f : Protection → Protection) : (d.onProtection f).regs = d.regs := rfl
@[simp] theorem Dev.onProtection_links (f : Protection → Protection) : (d.onProtection f).links = d.links := rfl
@[simp] theorem Dev.onProtection_tenants (f : Protection → Protection) : (d.onProtection f).tenants = d.tenants := rfl
@[simp] theorem Dev.onProtection_bill (f : Protection → Protection) : (d.onProtection f).bill = d.bill := rfl
@[simp] theorem Dev.onProtection_alloc (f : Protection → Protection) : (d.onProtection f).alloc = d.alloc := rfl
@[simp] theorem Dev.onProtection_prot (f : Protection → Protection) : (d.onProtection f).prot = f d.prot := rfl
@[simp] theorem Dev.onProtection_engines (f : Protection → Protection) : (d.onProtection f).engines = d.engines := rfl
@[simp] theorem Dev.onProtection_svc (f : Protection → Protection) : (d.onProtection f).svc = d.svc := rfl
@[simp] theorem Dev.onProtection_sec (f : Protection → Protection) : (d.onProtection f).sec = d.sec := rfl
@[simp] theorem Dev.onProtection_grid (f : Protection → Protection) : (d.onProtection f).grid = d.grid := rfl
@[simp] theorem Dev.onProtection_disp (f : Protection → Protection) : (d.onProtection f).disp = d.disp := rfl
@[simp] theorem Dev.onProtection_scroll (f : Protection → Protection) : (d.onProtection f).scroll = d.scroll := rfl
@[simp] theorem Dev.onProtection_keys (f : Protection → Protection) : (d.onProtection f).keys = d.keys := rfl
@[simp] theorem Dev.onProtection_tpo (f : Protection → Protection) : (d.onProtection f).tpo = d.tpo := rfl
@[simp] theorem Dev.onProtection_s0 (f : Protection → Protection) : (d.onProtection f).s0 = d.s0 := rfl
@[simp] theorem Dev.onProtection_cfg (f : Protection → Protection) : (d.onProtection f).cfg = d.cfg := rfl
@[simp] theorem Dev.onProtection_upd (f : Protection → Protection) : (d.onProtection f).upd = d.upd := rfl
@[simp] theorem Dev.onProtection_recorder (f : Protection → Protection) : (d.onProtection f).recorder = d.recorder := rfl
@[simp] theorem Dev.onProtection_mem (f : Protection → Protection) : (d.onProtection f).mem = d.mem := rfl
@[simp] theorem Dev.onProtection_archive (f : Protection → Protection) : (d.onProtection f).archive = d.archive := rfl
@[simp] theorem Dev.onProtection_locked (f : Protection → Protection) : (d.onProtection f).locked = d.locked := rfl
@[simp] theorem Dev.onProtection_commits (f : Protection → Protection) : (d.onProtection f).commits = d.commits := rfl
@[simp] theorem Dev.onProtection_fresh (f : Protection → Protection) : (d.onProtection f).fresh = d.fresh := rfl
@[simp] theorem Dev.onProtection_link (f : Protection → Protection) (m : LinkId) : (d.onProtection f).link m = d.link m := rfl
@[simp] theorem Dev.onProtection_tenant (f : Protection → Protection) (t : TenantId) : (d.onProtection f).tenant t = d.tenant t := rfl
@[simp] theorem Dev.onProtection_reg (f : Protection → Protection) (x : Nat) : (d.onProtection f).reg x = d.reg x := rfl
@[simp] theorem Dev.onProtection_mode (f : Protection → Protection) : (d.onProtection f).mode = d.mode := rfl
@[simp] theorem Dev.onProtection_recording (f : Protection → Protection) : (d.onProtection f).recording = d.recording := rfl
@[simp] theorem Dev.onProtection_now (f : Protection → Protection) : (d.onProtection f).now = d.now := rfl

@[simp] theorem Dev.onSvc_pacer (f : ServiceTag → ServiceTag) : (d.onSvc f).pacer = d.pacer := rfl
@[simp] theorem Dev.onSvc_power (f : ServiceTag → ServiceTag) : (d.onSvc f).power = d.power := rfl
@[simp] theorem Dev.onSvc_host (f : ServiceTag → ServiceTag) : (d.onSvc f).host = d.host := rfl
@[simp] theorem Dev.onSvc_regs (f : ServiceTag → ServiceTag) : (d.onSvc f).regs = d.regs := rfl
@[simp] theorem Dev.onSvc_links (f : ServiceTag → ServiceTag) : (d.onSvc f).links = d.links := rfl
@[simp] theorem Dev.onSvc_tenants (f : ServiceTag → ServiceTag) : (d.onSvc f).tenants = d.tenants := rfl
@[simp] theorem Dev.onSvc_bill (f : ServiceTag → ServiceTag) : (d.onSvc f).bill = d.bill := rfl
@[simp] theorem Dev.onSvc_alloc (f : ServiceTag → ServiceTag) : (d.onSvc f).alloc = d.alloc := rfl
@[simp] theorem Dev.onSvc_prot (f : ServiceTag → ServiceTag) : (d.onSvc f).prot = d.prot := rfl
@[simp] theorem Dev.onSvc_engines (f : ServiceTag → ServiceTag) : (d.onSvc f).engines = d.engines := rfl
@[simp] theorem Dev.onSvc_svc (f : ServiceTag → ServiceTag) : (d.onSvc f).svc = f d.svc := rfl
@[simp] theorem Dev.onSvc_sec (f : ServiceTag → ServiceTag) : (d.onSvc f).sec = d.sec := rfl
@[simp] theorem Dev.onSvc_grid (f : ServiceTag → ServiceTag) : (d.onSvc f).grid = d.grid := rfl
@[simp] theorem Dev.onSvc_disp (f : ServiceTag → ServiceTag) : (d.onSvc f).disp = d.disp := rfl
@[simp] theorem Dev.onSvc_scroll (f : ServiceTag → ServiceTag) : (d.onSvc f).scroll = d.scroll := rfl
@[simp] theorem Dev.onSvc_keys (f : ServiceTag → ServiceTag) : (d.onSvc f).keys = d.keys := rfl
@[simp] theorem Dev.onSvc_tpo (f : ServiceTag → ServiceTag) : (d.onSvc f).tpo = d.tpo := rfl
@[simp] theorem Dev.onSvc_s0 (f : ServiceTag → ServiceTag) : (d.onSvc f).s0 = d.s0 := rfl
@[simp] theorem Dev.onSvc_cfg (f : ServiceTag → ServiceTag) : (d.onSvc f).cfg = d.cfg := rfl
@[simp] theorem Dev.onSvc_upd (f : ServiceTag → ServiceTag) : (d.onSvc f).upd = d.upd := rfl
@[simp] theorem Dev.onSvc_recorder (f : ServiceTag → ServiceTag) : (d.onSvc f).recorder = d.recorder := rfl
@[simp] theorem Dev.onSvc_mem (f : ServiceTag → ServiceTag) : (d.onSvc f).mem = d.mem := rfl
@[simp] theorem Dev.onSvc_archive (f : ServiceTag → ServiceTag) : (d.onSvc f).archive = d.archive := rfl
@[simp] theorem Dev.onSvc_locked (f : ServiceTag → ServiceTag) : (d.onSvc f).locked = d.locked := rfl
@[simp] theorem Dev.onSvc_commits (f : ServiceTag → ServiceTag) : (d.onSvc f).commits = d.commits := rfl
@[simp] theorem Dev.onSvc_fresh (f : ServiceTag → ServiceTag) : (d.onSvc f).fresh = d.fresh := rfl
@[simp] theorem Dev.onSvc_link (f : ServiceTag → ServiceTag) (m : LinkId) : (d.onSvc f).link m = d.link m := rfl
@[simp] theorem Dev.onSvc_tenant (f : ServiceTag → ServiceTag) (t : TenantId) : (d.onSvc f).tenant t = d.tenant t := rfl
@[simp] theorem Dev.onSvc_reg (f : ServiceTag → ServiceTag) (x : Nat) : (d.onSvc f).reg x = d.reg x := rfl
@[simp] theorem Dev.onSvc_mode (f : ServiceTag → ServiceTag) : (d.onSvc f).mode = d.mode := rfl
@[simp] theorem Dev.onSvc_recording (f : ServiceTag → ServiceTag) : (d.onSvc f).recording = d.recording := rfl
@[simp] theorem Dev.onSvc_now (f : ServiceTag → ServiceTag) : (d.onSvc f).now = d.now := rfl

@[simp] theorem Dev.onSec_pacer (f : Security → Security) : (d.onSec f).pacer = d.pacer := rfl
@[simp] theorem Dev.onSec_power (f : Security → Security) : (d.onSec f).power = d.power := rfl
@[simp] theorem Dev.onSec_host (f : Security → Security) : (d.onSec f).host = d.host := rfl
@[simp] theorem Dev.onSec_regs (f : Security → Security) : (d.onSec f).regs = d.regs := rfl
@[simp] theorem Dev.onSec_links (f : Security → Security) : (d.onSec f).links = d.links := rfl
@[simp] theorem Dev.onSec_tenants (f : Security → Security) : (d.onSec f).tenants = d.tenants := rfl
@[simp] theorem Dev.onSec_bill (f : Security → Security) : (d.onSec f).bill = d.bill := rfl
@[simp] theorem Dev.onSec_alloc (f : Security → Security) : (d.onSec f).alloc = d.alloc := rfl
@[simp] theorem Dev.onSec_prot (f : Security → Security) : (d.onSec f).prot = d.prot := rfl
@[simp] theorem Dev.onSec_engines (f : Security → Security) : (d.onSec f).engines = d.engines := rfl
@[simp] theorem Dev.onSec_svc (f : Security → Security) : (d.onSec f).svc = d.svc := rfl
@[simp] theorem Dev.onSec_sec (f : Security → Security) : (d.onSec f).sec = f d.sec := rfl
@[simp] theorem Dev.onSec_grid (f : Security → Security) : (d.onSec f).grid = d.grid := rfl
@[simp] theorem Dev.onSec_disp (f : Security → Security) : (d.onSec f).disp = d.disp := rfl
@[simp] theorem Dev.onSec_scroll (f : Security → Security) : (d.onSec f).scroll = d.scroll := rfl
@[simp] theorem Dev.onSec_keys (f : Security → Security) : (d.onSec f).keys = d.keys := rfl
@[simp] theorem Dev.onSec_tpo (f : Security → Security) : (d.onSec f).tpo = d.tpo := rfl
@[simp] theorem Dev.onSec_s0 (f : Security → Security) : (d.onSec f).s0 = d.s0 := rfl
@[simp] theorem Dev.onSec_cfg (f : Security → Security) : (d.onSec f).cfg = d.cfg := rfl
@[simp] theorem Dev.onSec_upd (f : Security → Security) : (d.onSec f).upd = d.upd := rfl
@[simp] theorem Dev.onSec_recorder (f : Security → Security) : (d.onSec f).recorder = d.recorder := rfl
@[simp] theorem Dev.onSec_mem (f : Security → Security) : (d.onSec f).mem = d.mem := rfl
@[simp] theorem Dev.onSec_archive (f : Security → Security) : (d.onSec f).archive = d.archive := rfl
@[simp] theorem Dev.onSec_locked (f : Security → Security) : (d.onSec f).locked = d.locked := rfl
@[simp] theorem Dev.onSec_commits (f : Security → Security) : (d.onSec f).commits = d.commits := rfl
@[simp] theorem Dev.onSec_fresh (f : Security → Security) : (d.onSec f).fresh = d.fresh := rfl
@[simp] theorem Dev.onSec_link (f : Security → Security) (m : LinkId) : (d.onSec f).link m = d.link m := rfl
@[simp] theorem Dev.onSec_tenant (f : Security → Security) (t : TenantId) : (d.onSec f).tenant t = d.tenant t := rfl
@[simp] theorem Dev.onSec_reg (f : Security → Security) (x : Nat) : (d.onSec f).reg x = d.reg x := rfl
@[simp] theorem Dev.onSec_mode (f : Security → Security) : (d.onSec f).mode = d.mode := rfl
@[simp] theorem Dev.onSec_recording (f : Security → Security) : (d.onSec f).recording = d.recording := rfl
@[simp] theorem Dev.onSec_now (f : Security → Security) : (d.onSec f).now = d.now := rfl

@[simp] theorem Dev.onGrid_pacer (f : Grid → Grid) : (d.onGrid f).pacer = d.pacer := rfl
@[simp] theorem Dev.onGrid_power (f : Grid → Grid) : (d.onGrid f).power = d.power := rfl
@[simp] theorem Dev.onGrid_host (f : Grid → Grid) : (d.onGrid f).host = d.host := rfl
@[simp] theorem Dev.onGrid_regs (f : Grid → Grid) : (d.onGrid f).regs = d.regs := rfl
@[simp] theorem Dev.onGrid_links (f : Grid → Grid) : (d.onGrid f).links = d.links := rfl
@[simp] theorem Dev.onGrid_tenants (f : Grid → Grid) : (d.onGrid f).tenants = d.tenants := rfl
@[simp] theorem Dev.onGrid_bill (f : Grid → Grid) : (d.onGrid f).bill = d.bill := rfl
@[simp] theorem Dev.onGrid_alloc (f : Grid → Grid) : (d.onGrid f).alloc = d.alloc := rfl
@[simp] theorem Dev.onGrid_prot (f : Grid → Grid) : (d.onGrid f).prot = d.prot := rfl
@[simp] theorem Dev.onGrid_engines (f : Grid → Grid) : (d.onGrid f).engines = d.engines := rfl
@[simp] theorem Dev.onGrid_svc (f : Grid → Grid) : (d.onGrid f).svc = d.svc := rfl
@[simp] theorem Dev.onGrid_sec (f : Grid → Grid) : (d.onGrid f).sec = d.sec := rfl
@[simp] theorem Dev.onGrid_grid (f : Grid → Grid) : (d.onGrid f).grid = f d.grid := rfl
@[simp] theorem Dev.onGrid_disp (f : Grid → Grid) : (d.onGrid f).disp = d.disp := rfl
@[simp] theorem Dev.onGrid_scroll (f : Grid → Grid) : (d.onGrid f).scroll = d.scroll := rfl
@[simp] theorem Dev.onGrid_keys (f : Grid → Grid) : (d.onGrid f).keys = d.keys := rfl
@[simp] theorem Dev.onGrid_tpo (f : Grid → Grid) : (d.onGrid f).tpo = d.tpo := rfl
@[simp] theorem Dev.onGrid_s0 (f : Grid → Grid) : (d.onGrid f).s0 = d.s0 := rfl
@[simp] theorem Dev.onGrid_cfg (f : Grid → Grid) : (d.onGrid f).cfg = d.cfg := rfl
@[simp] theorem Dev.onGrid_upd (f : Grid → Grid) : (d.onGrid f).upd = d.upd := rfl
@[simp] theorem Dev.onGrid_recorder (f : Grid → Grid) : (d.onGrid f).recorder = d.recorder := rfl
@[simp] theorem Dev.onGrid_mem (f : Grid → Grid) : (d.onGrid f).mem = d.mem := rfl
@[simp] theorem Dev.onGrid_archive (f : Grid → Grid) : (d.onGrid f).archive = d.archive := rfl
@[simp] theorem Dev.onGrid_locked (f : Grid → Grid) : (d.onGrid f).locked = d.locked := rfl
@[simp] theorem Dev.onGrid_commits (f : Grid → Grid) : (d.onGrid f).commits = d.commits := rfl
@[simp] theorem Dev.onGrid_fresh (f : Grid → Grid) : (d.onGrid f).fresh = d.fresh := rfl
@[simp] theorem Dev.onGrid_link (f : Grid → Grid) (m : LinkId) : (d.onGrid f).link m = d.link m := rfl
@[simp] theorem Dev.onGrid_tenant (f : Grid → Grid) (t : TenantId) : (d.onGrid f).tenant t = d.tenant t := rfl
@[simp] theorem Dev.onGrid_reg (f : Grid → Grid) (x : Nat) : (d.onGrid f).reg x = d.reg x := rfl
@[simp] theorem Dev.onGrid_mode (f : Grid → Grid) : (d.onGrid f).mode = d.mode := rfl
@[simp] theorem Dev.onGrid_recording (f : Grid → Grid) : (d.onGrid f).recording = d.recording := rfl
@[simp] theorem Dev.onGrid_now (f : Grid → Grid) : (d.onGrid f).now = d.now := rfl

@[simp] theorem Dev.onDisp_pacer (f : Display → Display) : (d.onDisp f).pacer = d.pacer := rfl
@[simp] theorem Dev.onDisp_power (f : Display → Display) : (d.onDisp f).power = d.power := rfl
@[simp] theorem Dev.onDisp_host (f : Display → Display) : (d.onDisp f).host = d.host := rfl
@[simp] theorem Dev.onDisp_regs (f : Display → Display) : (d.onDisp f).regs = d.regs := rfl
@[simp] theorem Dev.onDisp_links (f : Display → Display) : (d.onDisp f).links = d.links := rfl
@[simp] theorem Dev.onDisp_tenants (f : Display → Display) : (d.onDisp f).tenants = d.tenants := rfl
@[simp] theorem Dev.onDisp_bill (f : Display → Display) : (d.onDisp f).bill = d.bill := rfl
@[simp] theorem Dev.onDisp_alloc (f : Display → Display) : (d.onDisp f).alloc = d.alloc := rfl
@[simp] theorem Dev.onDisp_prot (f : Display → Display) : (d.onDisp f).prot = d.prot := rfl
@[simp] theorem Dev.onDisp_engines (f : Display → Display) : (d.onDisp f).engines = d.engines := rfl
@[simp] theorem Dev.onDisp_svc (f : Display → Display) : (d.onDisp f).svc = d.svc := rfl
@[simp] theorem Dev.onDisp_sec (f : Display → Display) : (d.onDisp f).sec = d.sec := rfl
@[simp] theorem Dev.onDisp_grid (f : Display → Display) : (d.onDisp f).grid = d.grid := rfl
@[simp] theorem Dev.onDisp_disp (f : Display → Display) : (d.onDisp f).disp = f d.disp := rfl
@[simp] theorem Dev.onDisp_scroll (f : Display → Display) : (d.onDisp f).scroll = d.scroll := rfl
@[simp] theorem Dev.onDisp_keys (f : Display → Display) : (d.onDisp f).keys = d.keys := rfl
@[simp] theorem Dev.onDisp_tpo (f : Display → Display) : (d.onDisp f).tpo = d.tpo := rfl
@[simp] theorem Dev.onDisp_s0 (f : Display → Display) : (d.onDisp f).s0 = d.s0 := rfl
@[simp] theorem Dev.onDisp_cfg (f : Display → Display) : (d.onDisp f).cfg = d.cfg := rfl
@[simp] theorem Dev.onDisp_upd (f : Display → Display) : (d.onDisp f).upd = d.upd := rfl
@[simp] theorem Dev.onDisp_recorder (f : Display → Display) : (d.onDisp f).recorder = d.recorder := rfl
@[simp] theorem Dev.onDisp_mem (f : Display → Display) : (d.onDisp f).mem = d.mem := rfl
@[simp] theorem Dev.onDisp_archive (f : Display → Display) : (d.onDisp f).archive = d.archive := rfl
@[simp] theorem Dev.onDisp_locked (f : Display → Display) : (d.onDisp f).locked = d.locked := rfl
@[simp] theorem Dev.onDisp_commits (f : Display → Display) : (d.onDisp f).commits = d.commits := rfl
@[simp] theorem Dev.onDisp_fresh (f : Display → Display) : (d.onDisp f).fresh = d.fresh := rfl
@[simp] theorem Dev.onDisp_link (f : Display → Display) (m : LinkId) : (d.onDisp f).link m = d.link m := rfl
@[simp] theorem Dev.onDisp_tenant (f : Display → Display) (t : TenantId) : (d.onDisp f).tenant t = d.tenant t := rfl
@[simp] theorem Dev.onDisp_reg (f : Display → Display) (x : Nat) : (d.onDisp f).reg x = d.reg x := rfl
@[simp] theorem Dev.onDisp_mode (f : Display → Display) : (d.onDisp f).mode = d.mode := rfl
@[simp] theorem Dev.onDisp_recording (f : Display → Display) : (d.onDisp f).recording = d.recording := rfl
@[simp] theorem Dev.onDisp_now (f : Display → Display) : (d.onDisp f).now = d.now := rfl

@[simp] theorem Dev.onScroll_pacer (f : Scroll → Scroll) : (d.onScroll f).pacer = d.pacer := rfl
@[simp] theorem Dev.onScroll_power (f : Scroll → Scroll) : (d.onScroll f).power = d.power := rfl
@[simp] theorem Dev.onScroll_host (f : Scroll → Scroll) : (d.onScroll f).host = d.host := rfl
@[simp] theorem Dev.onScroll_regs (f : Scroll → Scroll) : (d.onScroll f).regs = d.regs := rfl
@[simp] theorem Dev.onScroll_links (f : Scroll → Scroll) : (d.onScroll f).links = d.links := rfl
@[simp] theorem Dev.onScroll_tenants (f : Scroll → Scroll) : (d.onScroll f).tenants = d.tenants := rfl
@[simp] theorem Dev.onScroll_bill (f : Scroll → Scroll) : (d.onScroll f).bill = d.bill := rfl
@[simp] theorem Dev.onScroll_alloc (f : Scroll → Scroll) : (d.onScroll f).alloc = d.alloc := rfl
@[simp] theorem Dev.onScroll_prot (f : Scroll → Scroll) : (d.onScroll f).prot = d.prot := rfl
@[simp] theorem Dev.onScroll_engines (f : Scroll → Scroll) : (d.onScroll f).engines = d.engines := rfl
@[simp] theorem Dev.onScroll_svc (f : Scroll → Scroll) : (d.onScroll f).svc = d.svc := rfl
@[simp] theorem Dev.onScroll_sec (f : Scroll → Scroll) : (d.onScroll f).sec = d.sec := rfl
@[simp] theorem Dev.onScroll_grid (f : Scroll → Scroll) : (d.onScroll f).grid = d.grid := rfl
@[simp] theorem Dev.onScroll_disp (f : Scroll → Scroll) : (d.onScroll f).disp = d.disp := rfl
@[simp] theorem Dev.onScroll_scroll (f : Scroll → Scroll) : (d.onScroll f).scroll = f d.scroll := rfl
@[simp] theorem Dev.onScroll_keys (f : Scroll → Scroll) : (d.onScroll f).keys = d.keys := rfl
@[simp] theorem Dev.onScroll_tpo (f : Scroll → Scroll) : (d.onScroll f).tpo = d.tpo := rfl
@[simp] theorem Dev.onScroll_s0 (f : Scroll → Scroll) : (d.onScroll f).s0 = d.s0 := rfl
@[simp] theorem Dev.onScroll_cfg (f : Scroll → Scroll) : (d.onScroll f).cfg = d.cfg := rfl
@[simp] theorem Dev.onScroll_upd (f : Scroll → Scroll) : (d.onScroll f).upd = d.upd := rfl
@[simp] theorem Dev.onScroll_recorder (f : Scroll → Scroll) : (d.onScroll f).recorder = d.recorder := rfl
@[simp] theorem Dev.onScroll_mem (f : Scroll → Scroll) : (d.onScroll f).mem = d.mem := rfl
@[simp] theorem Dev.onScroll_archive (f : Scroll → Scroll) : (d.onScroll f).archive = d.archive := rfl
@[simp] theorem Dev.onScroll_locked (f : Scroll → Scroll) : (d.onScroll f).locked = d.locked := rfl
@[simp] theorem Dev.onScroll_commits (f : Scroll → Scroll) : (d.onScroll f).commits = d.commits := rfl
@[simp] theorem Dev.onScroll_fresh (f : Scroll → Scroll) : (d.onScroll f).fresh = d.fresh := rfl
@[simp] theorem Dev.onScroll_link (f : Scroll → Scroll) (m : LinkId) : (d.onScroll f).link m = d.link m := rfl
@[simp] theorem Dev.onScroll_tenant (f : Scroll → Scroll) (t : TenantId) : (d.onScroll f).tenant t = d.tenant t := rfl
@[simp] theorem Dev.onScroll_reg (f : Scroll → Scroll) (x : Nat) : (d.onScroll f).reg x = d.reg x := rfl
@[simp] theorem Dev.onScroll_mode (f : Scroll → Scroll) : (d.onScroll f).mode = d.mode := rfl
@[simp] theorem Dev.onScroll_recording (f : Scroll → Scroll) : (d.onScroll f).recording = d.recording := rfl
@[simp] theorem Dev.onScroll_now (f : Scroll → Scroll) : (d.onScroll f).now = d.now := rfl

@[simp] theorem Dev.onCfg_pacer (f : Configuration → Configuration) : (d.onCfg f).pacer = d.pacer := rfl
@[simp] theorem Dev.onCfg_power (f : Configuration → Configuration) : (d.onCfg f).power = d.power := rfl
@[simp] theorem Dev.onCfg_host (f : Configuration → Configuration) : (d.onCfg f).host = d.host := rfl
@[simp] theorem Dev.onCfg_regs (f : Configuration → Configuration) : (d.onCfg f).regs = d.regs := rfl
@[simp] theorem Dev.onCfg_links (f : Configuration → Configuration) : (d.onCfg f).links = d.links := rfl
@[simp] theorem Dev.onCfg_tenants (f : Configuration → Configuration) : (d.onCfg f).tenants = d.tenants := rfl
@[simp] theorem Dev.onCfg_bill (f : Configuration → Configuration) : (d.onCfg f).bill = d.bill := rfl
@[simp] theorem Dev.onCfg_alloc (f : Configuration → Configuration) : (d.onCfg f).alloc = d.alloc := rfl
@[simp] theorem Dev.onCfg_prot (f : Configuration → Configuration) : (d.onCfg f).prot = d.prot := rfl
@[simp] theorem Dev.onCfg_engines (f : Configuration → Configuration) : (d.onCfg f).engines = d.engines := rfl
@[simp] theorem Dev.onCfg_svc (f : Configuration → Configuration) : (d.onCfg f).svc = d.svc := rfl
@[simp] theorem Dev.onCfg_sec (f : Configuration → Configuration) : (d.onCfg f).sec = d.sec := rfl
@[simp] theorem Dev.onCfg_grid (f : Configuration → Configuration) : (d.onCfg f).grid = d.grid := rfl
@[simp] theorem Dev.onCfg_disp (f : Configuration → Configuration) : (d.onCfg f).disp = d.disp := rfl
@[simp] theorem Dev.onCfg_scroll (f : Configuration → Configuration) : (d.onCfg f).scroll = d.scroll := rfl
@[simp] theorem Dev.onCfg_keys (f : Configuration → Configuration) : (d.onCfg f).keys = d.keys := rfl
@[simp] theorem Dev.onCfg_tpo (f : Configuration → Configuration) : (d.onCfg f).tpo = d.tpo := rfl
@[simp] theorem Dev.onCfg_s0 (f : Configuration → Configuration) : (d.onCfg f).s0 = d.s0 := rfl
@[simp] theorem Dev.onCfg_cfg (f : Configuration → Configuration) : (d.onCfg f).cfg = f d.cfg := rfl
@[simp] theorem Dev.onCfg_upd (f : Configuration → Configuration) : (d.onCfg f).upd = d.upd := rfl
@[simp] theorem Dev.onCfg_recorder (f : Configuration → Configuration) : (d.onCfg f).recorder = d.recorder := rfl
@[simp] theorem Dev.onCfg_mem (f : Configuration → Configuration) : (d.onCfg f).mem = d.mem := rfl
@[simp] theorem Dev.onCfg_archive (f : Configuration → Configuration) : (d.onCfg f).archive = d.archive := rfl
@[simp] theorem Dev.onCfg_locked (f : Configuration → Configuration) : (d.onCfg f).locked = d.locked := rfl
@[simp] theorem Dev.onCfg_commits (f : Configuration → Configuration) : (d.onCfg f).commits = d.commits := rfl
@[simp] theorem Dev.onCfg_fresh (f : Configuration → Configuration) : (d.onCfg f).fresh = d.fresh := rfl
@[simp] theorem Dev.onCfg_link (f : Configuration → Configuration) (m : LinkId) : (d.onCfg f).link m = d.link m := rfl
@[simp] theorem Dev.onCfg_tenant (f : Configuration → Configuration) (t : TenantId) : (d.onCfg f).tenant t = d.tenant t := rfl
@[simp] theorem Dev.onCfg_reg (f : Configuration → Configuration) (x : Nat) : (d.onCfg f).reg x = d.reg x := rfl
@[simp] theorem Dev.onCfg_mode (f : Configuration → Configuration) : (d.onCfg f).mode = d.mode := rfl
@[simp] theorem Dev.onCfg_recording (f : Configuration → Configuration) : (d.onCfg f).recording = d.recording := rfl
@[simp] theorem Dev.onCfg_now (f : Configuration → Configuration) : (d.onCfg f).now = d.now := rfl

@[simp] theorem Dev.onUpd_pacer (f : Update → Update) : (d.onUpd f).pacer = d.pacer := rfl
@[simp] theorem Dev.onUpd_power (f : Update → Update) : (d.onUpd f).power = d.power := rfl
@[simp] theorem Dev.onUpd_host (f : Update → Update) : (d.onUpd f).host = d.host := rfl
@[simp] theorem Dev.onUpd_regs (f : Update → Update) : (d.onUpd f).regs = d.regs := rfl
@[simp] theorem Dev.onUpd_links (f : Update → Update) : (d.onUpd f).links = d.links := rfl
@[simp] theorem Dev.onUpd_tenants (f : Update → Update) : (d.onUpd f).tenants = d.tenants := rfl
@[simp] theorem Dev.onUpd_bill (f : Update → Update) : (d.onUpd f).bill = d.bill := rfl
@[simp] theorem Dev.onUpd_alloc (f : Update → Update) : (d.onUpd f).alloc = d.alloc := rfl
@[simp] theorem Dev.onUpd_prot (f : Update → Update) : (d.onUpd f).prot = d.prot := rfl
@[simp] theorem Dev.onUpd_engines (f : Update → Update) : (d.onUpd f).engines = d.engines := rfl
@[simp] theorem Dev.onUpd_svc (f : Update → Update) : (d.onUpd f).svc = d.svc := rfl
@[simp] theorem Dev.onUpd_sec (f : Update → Update) : (d.onUpd f).sec = d.sec := rfl
@[simp] theorem Dev.onUpd_grid (f : Update → Update) : (d.onUpd f).grid = d.grid := rfl
@[simp] theorem Dev.onUpd_disp (f : Update → Update) : (d.onUpd f).disp = d.disp := rfl
@[simp] theorem Dev.onUpd_scroll (f : Update → Update) : (d.onUpd f).scroll = d.scroll := rfl
@[simp] theorem Dev.onUpd_keys (f : Update → Update) : (d.onUpd f).keys = d.keys := rfl
@[simp] theorem Dev.onUpd_tpo (f : Update → Update) : (d.onUpd f).tpo = d.tpo := rfl
@[simp] theorem Dev.onUpd_s0 (f : Update → Update) : (d.onUpd f).s0 = d.s0 := rfl
@[simp] theorem Dev.onUpd_cfg (f : Update → Update) : (d.onUpd f).cfg = d.cfg := rfl
@[simp] theorem Dev.onUpd_upd (f : Update → Update) : (d.onUpd f).upd = f d.upd := rfl
@[simp] theorem Dev.onUpd_recorder (f : Update → Update) : (d.onUpd f).recorder = d.recorder := rfl
@[simp] theorem Dev.onUpd_mem (f : Update → Update) : (d.onUpd f).mem = d.mem := rfl
@[simp] theorem Dev.onUpd_archive (f : Update → Update) : (d.onUpd f).archive = d.archive := rfl
@[simp] theorem Dev.onUpd_locked (f : Update → Update) : (d.onUpd f).locked = d.locked := rfl
@[simp] theorem Dev.onUpd_commits (f : Update → Update) : (d.onUpd f).commits = d.commits := rfl
@[simp] theorem Dev.onUpd_fresh (f : Update → Update) : (d.onUpd f).fresh = d.fresh := rfl
@[simp] theorem Dev.onUpd_link (f : Update → Update) (m : LinkId) : (d.onUpd f).link m = d.link m := rfl
@[simp] theorem Dev.onUpd_tenant (f : Update → Update) (t : TenantId) : (d.onUpd f).tenant t = d.tenant t := rfl
@[simp] theorem Dev.onUpd_reg (f : Update → Update) (x : Nat) : (d.onUpd f).reg x = d.reg x := rfl
@[simp] theorem Dev.onUpd_mode (f : Update → Update) : (d.onUpd f).mode = d.mode := rfl
@[simp] theorem Dev.onUpd_recording (f : Update → Update) : (d.onUpd f).recording = d.recording := rfl
@[simp] theorem Dev.onUpd_now (f : Update → Update) : (d.onUpd f).now = d.now := rfl

@[simp] theorem Dev.onMem_pacer (f : Memory → Memory) : (d.onMem f).pacer = d.pacer := rfl
@[simp] theorem Dev.onMem_power (f : Memory → Memory) : (d.onMem f).power = d.power := rfl
@[simp] theorem Dev.onMem_host (f : Memory → Memory) : (d.onMem f).host = d.host := rfl
@[simp] theorem Dev.onMem_regs (f : Memory → Memory) : (d.onMem f).regs = d.regs := rfl
@[simp] theorem Dev.onMem_links (f : Memory → Memory) : (d.onMem f).links = d.links := rfl
@[simp] theorem Dev.onMem_tenants (f : Memory → Memory) : (d.onMem f).tenants = d.tenants := rfl
@[simp] theorem Dev.onMem_bill (f : Memory → Memory) : (d.onMem f).bill = d.bill := rfl
@[simp] theorem Dev.onMem_alloc (f : Memory → Memory) : (d.onMem f).alloc = d.alloc := rfl
@[simp] theorem Dev.onMem_prot (f : Memory → Memory) : (d.onMem f).prot = d.prot := rfl
@[simp] theorem Dev.onMem_engines (f : Memory → Memory) : (d.onMem f).engines = d.engines := rfl
@[simp] theorem Dev.onMem_svc (f : Memory → Memory) : (d.onMem f).svc = d.svc := rfl
@[simp] theorem Dev.onMem_sec (f : Memory → Memory) : (d.onMem f).sec = d.sec := rfl
@[simp] theorem Dev.onMem_grid (f : Memory → Memory) : (d.onMem f).grid = d.grid := rfl
@[simp] theorem Dev.onMem_disp (f : Memory → Memory) : (d.onMem f).disp = d.disp := rfl
@[simp] theorem Dev.onMem_scroll (f : Memory → Memory) : (d.onMem f).scroll = d.scroll := rfl
@[simp] theorem Dev.onMem_keys (f : Memory → Memory) : (d.onMem f).keys = d.keys := rfl
@[simp] theorem Dev.onMem_tpo (f : Memory → Memory) : (d.onMem f).tpo = d.tpo := rfl
@[simp] theorem Dev.onMem_s0 (f : Memory → Memory) : (d.onMem f).s0 = d.s0 := rfl
@[simp] theorem Dev.onMem_cfg (f : Memory → Memory) : (d.onMem f).cfg = d.cfg := rfl
@[simp] theorem Dev.onMem_upd (f : Memory → Memory) : (d.onMem f).upd = d.upd := rfl
@[simp] theorem Dev.onMem_recorder (f : Memory → Memory) : (d.onMem f).recorder = d.recorder := rfl
@[simp] theorem Dev.onMem_mem (f : Memory → Memory) : (d.onMem f).mem = f d.mem := rfl
@[simp] theorem Dev.onMem_archive (f : Memory → Memory) : (d.onMem f).archive = d.archive := rfl
@[simp] theorem Dev.onMem_locked (f : Memory → Memory) : (d.onMem f).locked = d.locked := rfl
@[simp] theorem Dev.onMem_commits (f : Memory → Memory) : (d.onMem f).commits = d.commits := rfl
@[simp] theorem Dev.onMem_fresh (f : Memory → Memory) : (d.onMem f).fresh = d.fresh := rfl
@[simp] theorem Dev.onMem_link (f : Memory → Memory) (m : LinkId) : (d.onMem f).link m = d.link m := rfl
@[simp] theorem Dev.onMem_tenant (f : Memory → Memory) (t : TenantId) : (d.onMem f).tenant t = d.tenant t := rfl
@[simp] theorem Dev.onMem_reg (f : Memory → Memory) (x : Nat) : (d.onMem f).reg x = d.reg x := rfl
@[simp] theorem Dev.onMem_mode (f : Memory → Memory) : (d.onMem f).mode = d.mode := rfl
@[simp] theorem Dev.onMem_recording (f : Memory → Memory) : (d.onMem f).recording = d.recording := rfl
@[simp] theorem Dev.onMem_now (f : Memory → Memory) : (d.onMem f).now = d.now := rfl

@[simp] theorem Dev.onArc_pacer (f : Archive → Archive) : (d.onArc f).pacer = d.pacer := rfl
@[simp] theorem Dev.onArc_power (f : Archive → Archive) : (d.onArc f).power = d.power := rfl
@[simp] theorem Dev.onArc_host (f : Archive → Archive) : (d.onArc f).host = d.host := rfl
@[simp] theorem Dev.onArc_regs (f : Archive → Archive) : (d.onArc f).regs = d.regs := rfl
@[simp] theorem Dev.onArc_links (f : Archive → Archive) : (d.onArc f).links = d.links := rfl
@[simp] theorem Dev.onArc_tenants (f : Archive → Archive) : (d.onArc f).tenants = d.tenants := rfl
@[simp] theorem Dev.onArc_bill (f : Archive → Archive) : (d.onArc f).bill = d.bill := rfl
@[simp] theorem Dev.onArc_alloc (f : Archive → Archive) : (d.onArc f).alloc = d.alloc := rfl
@[simp] theorem Dev.onArc_prot (f : Archive → Archive) : (d.onArc f).prot = d.prot := rfl
@[simp] theorem Dev.onArc_engines (f : Archive → Archive) : (d.onArc f).engines = d.engines := rfl
@[simp] theorem Dev.onArc_svc (f : Archive → Archive) : (d.onArc f).svc = d.svc := rfl
@[simp] theorem Dev.onArc_sec (f : Archive → Archive) : (d.onArc f).sec = d.sec := rfl
@[simp] theorem Dev.onArc_grid (f : Archive → Archive) : (d.onArc f).grid = d.grid := rfl
@[simp] theorem Dev.onArc_disp (f : Archive → Archive) : (d.onArc f).disp = d.disp := rfl
@[simp] theorem Dev.onArc_scroll (f : Archive → Archive) : (d.onArc f).scroll = d.scroll := rfl
@[simp] theorem Dev.onArc_keys (f : Archive → Archive) : (d.onArc f).keys = d.keys := rfl
@[simp] theorem Dev.onArc_tpo (f : Archive → Archive) : (d.onArc f).tpo = d.tpo := rfl
@[simp] theorem Dev.onArc_s0 (f : Archive → Archive) : (d.onArc f).s0 = d.s0 := rfl
@[simp] theorem Dev.onArc_cfg (f : Archive → Archive) : (d.onArc f).cfg = d.cfg := rfl
@[simp] theorem Dev.onArc_upd (f : Archive → Archive) : (d.onArc f).upd = d.upd := rfl
@[simp] theorem Dev.onArc_recorder (f : Archive → Archive) : (d.onArc f).recorder = d.recorder := rfl
@[simp] theorem Dev.onArc_mem (f : Archive → Archive) : (d.onArc f).mem = d.mem := rfl
@[simp] theorem Dev.onArc_archive (f : Archive → Archive) : (d.onArc f).archive = f d.archive := rfl
@[simp] theorem Dev.onArc_locked (f : Archive → Archive) : (d.onArc f).locked = d.locked := rfl
@[simp] theorem Dev.onArc_commits (f : Archive → Archive) : (d.onArc f).commits = d.commits := rfl
@[simp] theorem Dev.onArc_fresh (f : Archive → Archive) : (d.onArc f).fresh = d.fresh := rfl
@[simp] theorem Dev.onArc_link (f : Archive → Archive) (m : LinkId) : (d.onArc f).link m = d.link m := rfl
@[simp] theorem Dev.onArc_tenant (f : Archive → Archive) (t : TenantId) : (d.onArc f).tenant t = d.tenant t := rfl
@[simp] theorem Dev.onArc_reg (f : Archive → Archive) (x : Nat) : (d.onArc f).reg x = d.reg x := rfl
@[simp] theorem Dev.onArc_mode (f : Archive → Archive) : (d.onArc f).mode = d.mode := rfl
@[simp] theorem Dev.onArc_recording (f : Archive → Archive) : (d.onArc f).recording = d.recording := rfl
@[simp] theorem Dev.onArc_now (f : Archive → Archive) : (d.onArc f).now = d.now := rfl

@[simp] theorem Dev.onLink_pacer (n : LinkId) (f : Link → Link) : (d.onLink n f).pacer = d.pacer := rfl
@[simp] theorem Dev.onLink_power (n : LinkId) (f : Link → Link) : (d.onLink n f).power = d.power := rfl
@[simp] theorem Dev.onLink_host (n : LinkId) (f : Link → Link) : (d.onLink n f).host = d.host := rfl
@[simp] theorem Dev.onLink_regs (n : LinkId) (f : Link → Link) : (d.onLink n f).regs = d.regs := rfl
@[simp] theorem Dev.onLink_tenants (n : LinkId) (f : Link → Link) : (d.onLink n f).tenants = d.tenants := rfl
@[simp] theorem Dev.onLink_bill (n : LinkId) (f : Link → Link) : (d.onLink n f).bill = d.bill := rfl
@[simp] theorem Dev.onLink_alloc (n : LinkId) (f : Link → Link) : (d.onLink n f).alloc = d.alloc := rfl
@[simp] theorem Dev.onLink_prot (n : LinkId) (f : Link → Link) : (d.onLink n f).prot = d.prot := rfl
@[simp] theorem Dev.onLink_engines (n : LinkId) (f : Link → Link) : (d.onLink n f).engines = d.engines := rfl
@[simp] theorem Dev.onLink_svc (n : LinkId) (f : Link → Link) : (d.onLink n f).svc = d.svc := rfl
@[simp] theorem Dev.onLink_sec (n : LinkId) (f : Link → Link) : (d.onLink n f).sec = d.sec := rfl
@[simp] theorem Dev.onLink_grid (n : LinkId) (f : Link → Link) : (d.onLink n f).grid = d.grid := rfl
@[simp] theorem Dev.onLink_disp (n : LinkId) (f : Link → Link) : (d.onLink n f).disp = d.disp := rfl
@[simp] theorem Dev.onLink_scroll (n : LinkId) (f : Link → Link) : (d.onLink n f).scroll = d.scroll := rfl
@[simp] theorem Dev.onLink_keys (n : LinkId) (f : Link → Link) : (d.onLink n f).keys = d.keys := rfl
@[simp] theorem Dev.onLink_tpo (n : LinkId) (f : Link → Link) : (d.onLink n f).tpo = d.tpo := rfl
@[simp] theorem Dev.onLink_s0 (n : LinkId) (f : Link → Link) : (d.onLink n f).s0 = d.s0 := rfl
@[simp] theorem Dev.onLink_cfg (n : LinkId) (f : Link → Link) : (d.onLink n f).cfg = d.cfg := rfl
@[simp] theorem Dev.onLink_upd (n : LinkId) (f : Link → Link) : (d.onLink n f).upd = d.upd := rfl
@[simp] theorem Dev.onLink_recorder (n : LinkId) (f : Link → Link) : (d.onLink n f).recorder = d.recorder := rfl
@[simp] theorem Dev.onLink_mem (n : LinkId) (f : Link → Link) : (d.onLink n f).mem = d.mem := rfl
@[simp] theorem Dev.onLink_archive (n : LinkId) (f : Link → Link) : (d.onLink n f).archive = d.archive := rfl
@[simp] theorem Dev.onLink_locked (n : LinkId) (f : Link → Link) : (d.onLink n f).locked = d.locked := rfl
@[simp] theorem Dev.onLink_commits (n : LinkId) (f : Link → Link) : (d.onLink n f).commits = d.commits := rfl
@[simp] theorem Dev.onLink_fresh (n : LinkId) (f : Link → Link) : (d.onLink n f).fresh = d.fresh := rfl
@[simp] theorem Dev.onLink_tenant (n : LinkId) (f : Link → Link) (t : TenantId) : (d.onLink n f).tenant t = d.tenant t := rfl
@[simp] theorem Dev.onLink_reg (n : LinkId) (f : Link → Link) (x : Nat) : (d.onLink n f).reg x = d.reg x := rfl
@[simp] theorem Dev.onLink_mode (n : LinkId) (f : Link → Link) : (d.onLink n f).mode = d.mode := rfl
@[simp] theorem Dev.onLink_recording (n : LinkId) (f : Link → Link) : (d.onLink n f).recording = d.recording := rfl
@[simp] theorem Dev.onLink_now (n : LinkId) (f : Link → Link) : (d.onLink n f).now = d.now := rfl

@[simp] theorem Dev.onTenant_pacer (t0 : TenantId) (f : Tenant → Tenant) : (d.onTenant t0 f).pacer = d.pacer := rfl
@[simp] theorem Dev.onTenant_power (t0 : TenantId) (f : Tenant → Tenant) : (d.onTenant t0 f).power = d.power := rfl
@[simp] theorem Dev.onTenant_host (t0 : TenantId) (f : Tenant → Tenant) : (d.onTenant t0 f).host = d.host := rfl
@[simp] theorem Dev.onTenant_regs (t0 : TenantId) (f : Tenant → Tenant) : (d.onTenant t0 f).regs = d.regs := rfl
@[simp] theorem Dev.onTenant_links (t0 : TenantId) (f : Tenant → Tenant) : (d.onTenant t0 f).links = d.links := rfl
@[simp] theorem Dev.onTenant_bill (t0 : TenantId) (f : Tenant → Tenant) : (d.onTenant t0 f).bill = d.bill := rfl
@[simp] theorem Dev.onTenant_alloc (t0 : TenantId) (f : Tenant → Tenant) : (d.onTenant t0 f).alloc = d.alloc := rfl
@[simp] theorem Dev.onTenant_prot (t0 : TenantId) (f : Tenant → Tenant) : (d.onTenant t0 f).prot = d.prot := rfl
@[simp] theorem Dev.onTenant_engines (t0 : TenantId) (f : Tenant → Tenant) : (d.onTenant t0 f).engines = d.engines := rfl
@[simp] theorem Dev.onTenant_svc (t0 : TenantId) (f : Tenant → Tenant) : (d.onTenant t0 f).svc = d.svc := rfl
@[simp] theorem Dev.onTenant_sec (t0 : TenantId) (f : Tenant → Tenant) : (d.onTenant t0 f).sec = d.sec := rfl
@[simp] theorem Dev.onTenant_grid (t0 : TenantId) (f : Tenant → Tenant) : (d.onTenant t0 f).grid = d.grid := rfl
@[simp] theorem Dev.onTenant_disp (t0 : TenantId) (f : Tenant → Tenant) : (d.onTenant t0 f).disp = d.disp := rfl
@[simp] theorem Dev.onTenant_scroll (t0 : TenantId) (f : Tenant → Tenant) : (d.onTenant t0 f).scroll = d.scroll := rfl
@[simp] theorem Dev.onTenant_keys (t0 : TenantId) (f : Tenant → Tenant) : (d.onTenant t0 f).keys = d.keys := rfl
@[simp] theorem Dev.onTenant_tpo (t0 : TenantId) (f : Tenant → Tenant) : (d.onTenant t0 f).tpo = d.tpo := rfl
@[simp] theorem Dev.onTenant_s0 (t0 : TenantId) (f : Tenant → Tenant) : (d.onTenant t0 f).s0 = d.s0 := rfl
@[simp] theorem Dev.onTenant_cfg (t0 : TenantId) (f : Tenant → Tenant) : (d.onTenant t0 f).cfg = d.cfg := rfl
@[simp] theorem Dev.onTenant_upd (t0 : TenantId) (f : Tenant → Tenant) : (d.onTenant t0 f).upd = d.upd := rfl
@[simp] theorem Dev.onTenant_recorder (t0 : TenantId) (f : Tenant → Tenant) : (d.onTenant t0 f).recorder = d.recorder := rfl
@[simp] theorem Dev.onTenant_mem (t0 : TenantId) (f : Tenant → Tenant) : (d.onTenant t0 f).mem = d.mem := rfl
@[simp] theorem Dev.onTenant_archive (t0 : TenantId) (f : Tenant → Tenant) : (d.onTenant t0 f).archive = d.archive := rfl
@[simp] theorem Dev.onTenant_locked (t0 : TenantId) (f : Tenant → Tenant) : (d.onTenant t0 f).locked = d.locked := rfl
@[simp] theorem Dev.onTenant_commits (t0 : TenantId) (f : Tenant → Tenant) : (d.onTenant t0 f).commits = d.commits := rfl
@[simp] theorem Dev.onTenant_fresh (t0 : TenantId) (f : Tenant → Tenant) : (d.onTenant t0 f).fresh = d.fresh := rfl
@[simp] theorem Dev.onTenant_link (t0 : TenantId) (f : Tenant → Tenant) (m : LinkId) : (d.onTenant t0 f).link m = d.link m := rfl
@[simp] theorem Dev.onTenant_reg (t0 : TenantId) (f : Tenant → Tenant) (x : Nat) : (d.onTenant t0 f).reg x = d.reg x := rfl
@[simp] theorem Dev.onTenant_mode (t0 : TenantId) (f : Tenant → Tenant) : (d.onTenant t0 f).mode = d.mode := rfl
@[simp] theorem Dev.onTenant_recording (t0 : TenantId) (f : Tenant → Tenant) : (d.onTenant t0 f).recording = d.recording := rfl
@[simp] theorem Dev.onTenant_now (t0 : TenantId) (f : Tenant → Tenant) : (d.onTenant t0 f).now = d.now := rfl

@[simp] theorem Dev.setReg_pacer (a : Nat) (w : Word) : (d.setReg a w).pacer = d.pacer := rfl
@[simp] theorem Dev.setReg_power (a : Nat) (w : Word) : (d.setReg a w).power = d.power := rfl
@[simp] theorem Dev.setReg_host (a : Nat) (w : Word) : (d.setReg a w).host = d.host := rfl
@[simp] theorem Dev.setReg_regs (a : Nat) (w : Word) : (d.setReg a w).regs = d.regs.set a w := rfl
@[simp] theorem Dev.setReg_links (a : Nat) (w : Word) : (d.setReg a w).links = d.links := rfl
@[simp] theorem Dev.setReg_tenants (a : Nat) (w : Word) : (d.setReg a w).tenants = d.tenants := rfl
@[simp] theorem Dev.setReg_bill (a : Nat) (w : Word) : (d.setReg a w).bill = d.bill := rfl
@[simp] theorem Dev.setReg_alloc (a : Nat) (w : Word) : (d.setReg a w).alloc = d.alloc := rfl
@[simp] theorem Dev.setReg_prot (a : Nat) (w : Word) : (d.setReg a w).prot = d.prot := rfl
@[simp] theorem Dev.setReg_engines (a : Nat) (w : Word) : (d.setReg a w).engines = d.engines := rfl
@[simp] theorem Dev.setReg_svc (a : Nat) (w : Word) : (d.setReg a w).svc = d.svc := rfl
@[simp] theorem Dev.setReg_sec (a : Nat) (w : Word) : (d.setReg a w).sec = d.sec := rfl
@[simp] theorem Dev.setReg_grid (a : Nat) (w : Word) : (d.setReg a w).grid = d.grid := rfl
@[simp] theorem Dev.setReg_disp (a : Nat) (w : Word) : (d.setReg a w).disp = d.disp := rfl
@[simp] theorem Dev.setReg_scroll (a : Nat) (w : Word) : (d.setReg a w).scroll = d.scroll := rfl
@[simp] theorem Dev.setReg_keys (a : Nat) (w : Word) : (d.setReg a w).keys = d.keys := rfl
@[simp] theorem Dev.setReg_tpo (a : Nat) (w : Word) : (d.setReg a w).tpo = d.tpo := rfl
@[simp] theorem Dev.setReg_s0 (a : Nat) (w : Word) : (d.setReg a w).s0 = d.s0 := rfl
@[simp] theorem Dev.setReg_cfg (a : Nat) (w : Word) : (d.setReg a w).cfg = d.cfg := rfl
@[simp] theorem Dev.setReg_upd (a : Nat) (w : Word) : (d.setReg a w).upd = d.upd := rfl
@[simp] theorem Dev.setReg_recorder (a : Nat) (w : Word) : (d.setReg a w).recorder = d.recorder := rfl
@[simp] theorem Dev.setReg_mem (a : Nat) (w : Word) : (d.setReg a w).mem = d.mem := rfl
@[simp] theorem Dev.setReg_archive (a : Nat) (w : Word) : (d.setReg a w).archive = d.archive := rfl
@[simp] theorem Dev.setReg_locked (a : Nat) (w : Word) : (d.setReg a w).locked = d.locked := rfl
@[simp] theorem Dev.setReg_commits (a : Nat) (w : Word) : (d.setReg a w).commits = d.commits := rfl
@[simp] theorem Dev.setReg_fresh (a : Nat) (w : Word) : (d.setReg a w).fresh = d.fresh := rfl
@[simp] theorem Dev.setReg_link (a : Nat) (w : Word) (m : LinkId) : (d.setReg a w).link m = d.link m := rfl
@[simp] theorem Dev.setReg_tenant (a : Nat) (w : Word) (t : TenantId) : (d.setReg a w).tenant t = d.tenant t := rfl
@[simp] theorem Dev.setReg_mode (a : Nat) (w : Word) : (d.setReg a w).mode = d.mode := rfl
@[simp] theorem Dev.setReg_recording (a : Nat) (w : Word) : (d.setReg a w).recording = d.recording := rfl
@[simp] theorem Dev.setReg_now (a : Nat) (w : Word) : (d.setReg a w).now = d.now := rfl

@[simp] theorem Dev.settled_pacer : (d.settled).pacer = d.pacer := rfl
@[simp] theorem Dev.settled_power : (d.settled).power = d.power := rfl
@[simp] theorem Dev.settled_host : (d.settled).host = d.host := rfl
@[simp] theorem Dev.settled_regs : (d.settled).regs = d.regs.normal := rfl
@[simp] theorem Dev.settled_links : (d.settled).links = d.links := rfl
@[simp] theorem Dev.settled_tenants : (d.settled).tenants = d.tenants := rfl
@[simp] theorem Dev.settled_bill : (d.settled).bill = d.bill := rfl
@[simp] theorem Dev.settled_alloc : (d.settled).alloc = d.alloc := rfl
@[simp] theorem Dev.settled_prot : (d.settled).prot = d.prot := rfl
@[simp] theorem Dev.settled_engines : (d.settled).engines = d.engines := rfl
@[simp] theorem Dev.settled_svc : (d.settled).svc = d.svc := rfl
@[simp] theorem Dev.settled_sec : (d.settled).sec = d.sec := rfl
@[simp] theorem Dev.settled_grid : (d.settled).grid = d.grid := rfl
@[simp] theorem Dev.settled_disp : (d.settled).disp = d.disp := rfl
@[simp] theorem Dev.settled_scroll : (d.settled).scroll = d.scroll := rfl
@[simp] theorem Dev.settled_keys : (d.settled).keys = d.keys := rfl
@[simp] theorem Dev.settled_tpo : (d.settled).tpo = d.tpo := rfl
@[simp] theorem Dev.settled_s0 : (d.settled).s0 = d.s0 := rfl
@[simp] theorem Dev.settled_cfg : (d.settled).cfg = d.cfg := rfl
@[simp] theorem Dev.settled_upd : (d.settled).upd = d.upd := rfl
@[simp] theorem Dev.settled_recorder : (d.settled).recorder = d.recorder := rfl
@[simp] theorem Dev.settled_mem : (d.settled).mem = d.mem := rfl
@[simp] theorem Dev.settled_archive : (d.settled).archive = d.archive := rfl
@[simp] theorem Dev.settled_locked : (d.settled).locked = d.locked := rfl
@[simp] theorem Dev.settled_commits : (d.settled).commits = d.commits := rfl
@[simp] theorem Dev.settled_fresh : (d.settled).fresh = d.fresh := rfl
@[simp] theorem Dev.settled_link (m : LinkId) : (d.settled).link m = d.link m := rfl
@[simp] theorem Dev.settled_tenant (t : TenantId) : (d.settled).tenant t = d.tenant t := rfl
@[simp] theorem Dev.settled_mode : (d.settled).mode = d.mode := rfl
@[simp] theorem Dev.settled_recording : (d.settled).recording = d.recording := rfl
@[simp] theorem Dev.settled_now : (d.settled).now = d.now := rfl

@[simp] theorem Dev.drew_pacer : (d.drew).pacer = d.pacer := rfl
@[simp] theorem Dev.drew_power : (d.drew).power = d.power := rfl
@[simp] theorem Dev.drew_host : (d.drew).host = d.host := rfl
@[simp] theorem Dev.drew_regs : (d.drew).regs = d.regs := rfl
@[simp] theorem Dev.drew_links : (d.drew).links = d.links := rfl
@[simp] theorem Dev.drew_tenants : (d.drew).tenants = d.tenants := rfl
@[simp] theorem Dev.drew_bill : (d.drew).bill = d.bill := rfl
@[simp] theorem Dev.drew_alloc : (d.drew).alloc = d.alloc := rfl
@[simp] theorem Dev.drew_prot : (d.drew).prot = d.prot := rfl
@[simp] theorem Dev.drew_engines : (d.drew).engines = d.engines := rfl
@[simp] theorem Dev.drew_svc : (d.drew).svc = d.svc := rfl
@[simp] theorem Dev.drew_sec : (d.drew).sec = d.sec := rfl
@[simp] theorem Dev.drew_grid : (d.drew).grid = d.grid := rfl
@[simp] theorem Dev.drew_disp : (d.drew).disp = d.disp := rfl
@[simp] theorem Dev.drew_scroll : (d.drew).scroll = d.scroll := rfl
@[simp] theorem Dev.drew_keys : (d.drew).keys = d.keys := rfl
@[simp] theorem Dev.drew_tpo : (d.drew).tpo = d.tpo := rfl
@[simp] theorem Dev.drew_s0 : (d.drew).s0 = d.s0 := rfl
@[simp] theorem Dev.drew_cfg : (d.drew).cfg = d.cfg := rfl
@[simp] theorem Dev.drew_upd : (d.drew).upd = d.upd := rfl
@[simp] theorem Dev.drew_recorder : (d.drew).recorder = d.recorder := rfl
@[simp] theorem Dev.drew_mem : (d.drew).mem = d.mem := rfl
@[simp] theorem Dev.drew_archive : (d.drew).archive = d.archive := rfl
@[simp] theorem Dev.drew_locked : (d.drew).locked = d.locked := rfl
@[simp] theorem Dev.drew_commits : (d.drew).commits = d.commits := rfl
@[simp] theorem Dev.drew_fresh : (d.drew).fresh = d.fresh + 1 := rfl
@[simp] theorem Dev.drew_link (m : LinkId) : (d.drew).link m = d.link m := rfl
@[simp] theorem Dev.drew_tenant (t : TenantId) : (d.drew).tenant t = d.tenant t := rfl
@[simp] theorem Dev.drew_reg (x : Nat) : (d.drew).reg x = d.reg x := rfl
@[simp] theorem Dev.drew_mode : (d.drew).mode = d.mode := rfl
@[simp] theorem Dev.drew_recording : (d.drew).recording = d.recording := rfl
@[simp] theorem Dev.drew_now : (d.drew).now = d.now := rfl

@[simp] theorem Dev.onKey_pacer (k : Fin 2) (f : Key → Key) : (d.onKey k f).pacer = d.pacer := rfl
@[simp] theorem Dev.onKey_power (k : Fin 2) (f : Key → Key) : (d.onKey k f).power = d.power := rfl
@[simp] theorem Dev.onKey_host (k : Fin 2) (f : Key → Key) : (d.onKey k f).host = d.host := rfl
@[simp] theorem Dev.onKey_regs (k : Fin 2) (f : Key → Key) : (d.onKey k f).regs = d.regs := rfl
@[simp] theorem Dev.onKey_links (k : Fin 2) (f : Key → Key) : (d.onKey k f).links = d.links := rfl
@[simp] theorem Dev.onKey_tenants (k : Fin 2) (f : Key → Key) : (d.onKey k f).tenants = d.tenants := rfl
@[simp] theorem Dev.onKey_bill (k : Fin 2) (f : Key → Key) : (d.onKey k f).bill = d.bill := rfl
@[simp] theorem Dev.onKey_alloc (k : Fin 2) (f : Key → Key) : (d.onKey k f).alloc = d.alloc := rfl
@[simp] theorem Dev.onKey_prot (k : Fin 2) (f : Key → Key) : (d.onKey k f).prot = d.prot := rfl
@[simp] theorem Dev.onKey_engines (k : Fin 2) (f : Key → Key) : (d.onKey k f).engines = d.engines := rfl
@[simp] theorem Dev.onKey_svc (k : Fin 2) (f : Key → Key) : (d.onKey k f).svc = d.svc := rfl
@[simp] theorem Dev.onKey_sec (k : Fin 2) (f : Key → Key) : (d.onKey k f).sec = d.sec := rfl
@[simp] theorem Dev.onKey_grid (k : Fin 2) (f : Key → Key) : (d.onKey k f).grid = d.grid := rfl
@[simp] theorem Dev.onKey_disp (k : Fin 2) (f : Key → Key) : (d.onKey k f).disp = d.disp := rfl
@[simp] theorem Dev.onKey_scroll (k : Fin 2) (f : Key → Key) : (d.onKey k f).scroll = d.scroll := rfl
@[simp] theorem Dev.onKey_tpo (k : Fin 2) (f : Key → Key) : (d.onKey k f).tpo = d.tpo := rfl
@[simp] theorem Dev.onKey_s0 (k : Fin 2) (f : Key → Key) : (d.onKey k f).s0 = d.s0 := rfl
@[simp] theorem Dev.onKey_cfg (k : Fin 2) (f : Key → Key) : (d.onKey k f).cfg = d.cfg := rfl
@[simp] theorem Dev.onKey_upd (k : Fin 2) (f : Key → Key) : (d.onKey k f).upd = d.upd := rfl
@[simp] theorem Dev.onKey_recorder (k : Fin 2) (f : Key → Key) : (d.onKey k f).recorder = d.recorder := rfl
@[simp] theorem Dev.onKey_mem (k : Fin 2) (f : Key → Key) : (d.onKey k f).mem = d.mem := rfl
@[simp] theorem Dev.onKey_archive (k : Fin 2) (f : Key → Key) : (d.onKey k f).archive = d.archive := rfl
@[simp] theorem Dev.onKey_locked (k : Fin 2) (f : Key → Key) : (d.onKey k f).locked = d.locked := rfl
@[simp] theorem Dev.onKey_commits (k : Fin 2) (f : Key → Key) : (d.onKey k f).commits = d.commits := rfl
@[simp] theorem Dev.onKey_fresh (k : Fin 2) (f : Key → Key) : (d.onKey k f).fresh = d.fresh := rfl
@[simp] theorem Dev.onKey_link (k : Fin 2) (f : Key → Key) (m : LinkId) : (d.onKey k f).link m = d.link m := rfl
@[simp] theorem Dev.onKey_tenant (k : Fin 2) (f : Key → Key) (t : TenantId) : (d.onKey k f).tenant t = d.tenant t := rfl
@[simp] theorem Dev.onKey_reg (k : Fin 2) (f : Key → Key) (x : Nat) : (d.onKey k f).reg x = d.reg x := rfl
@[simp] theorem Dev.onKey_mode (k : Fin 2) (f : Key → Key) : (d.onKey k f).mode = d.mode := rfl
@[simp] theorem Dev.onKey_recording (k : Fin 2) (f : Key → Key) : (d.onKey k f).recording = d.recording := rfl
@[simp] theorem Dev.onKey_now (k : Fin 2) (f : Key → Key) : (d.onKey k f).now = d.now := rfl

@[simp] theorem Dev.onTpo_pacer (k : Fin 2) (f : TestPulse → TestPulse) : (d.onTpo k f).pacer = d.pacer := rfl
@[simp] theorem Dev.onTpo_power (k : Fin 2) (f : TestPulse → TestPulse) : (d.onTpo k f).power = d.power := rfl
@[simp] theorem Dev.onTpo_host (k : Fin 2) (f : TestPulse → TestPulse) : (d.onTpo k f).host = d.host := rfl
@[simp] theorem Dev.onTpo_regs (k : Fin 2) (f : TestPulse → TestPulse) : (d.onTpo k f).regs = d.regs := rfl
@[simp] theorem Dev.onTpo_links (k : Fin 2) (f : TestPulse → TestPulse) : (d.onTpo k f).links = d.links := rfl
@[simp] theorem Dev.onTpo_tenants (k : Fin 2) (f : TestPulse → TestPulse) : (d.onTpo k f).tenants = d.tenants := rfl
@[simp] theorem Dev.onTpo_bill (k : Fin 2) (f : TestPulse → TestPulse) : (d.onTpo k f).bill = d.bill := rfl
@[simp] theorem Dev.onTpo_alloc (k : Fin 2) (f : TestPulse → TestPulse) : (d.onTpo k f).alloc = d.alloc := rfl
@[simp] theorem Dev.onTpo_prot (k : Fin 2) (f : TestPulse → TestPulse) : (d.onTpo k f).prot = d.prot := rfl
@[simp] theorem Dev.onTpo_engines (k : Fin 2) (f : TestPulse → TestPulse) : (d.onTpo k f).engines = d.engines := rfl
@[simp] theorem Dev.onTpo_svc (k : Fin 2) (f : TestPulse → TestPulse) : (d.onTpo k f).svc = d.svc := rfl
@[simp] theorem Dev.onTpo_sec (k : Fin 2) (f : TestPulse → TestPulse) : (d.onTpo k f).sec = d.sec := rfl
@[simp] theorem Dev.onTpo_grid (k : Fin 2) (f : TestPulse → TestPulse) : (d.onTpo k f).grid = d.grid := rfl
@[simp] theorem Dev.onTpo_disp (k : Fin 2) (f : TestPulse → TestPulse) : (d.onTpo k f).disp = d.disp := rfl
@[simp] theorem Dev.onTpo_scroll (k : Fin 2) (f : TestPulse → TestPulse) : (d.onTpo k f).scroll = d.scroll := rfl
@[simp] theorem Dev.onTpo_keys (k : Fin 2) (f : TestPulse → TestPulse) : (d.onTpo k f).keys = d.keys := rfl
@[simp] theorem Dev.onTpo_s0 (k : Fin 2) (f : TestPulse → TestPulse) : (d.onTpo k f).s0 = d.s0 := rfl
@[simp] theorem Dev.onTpo_cfg (k : Fin 2) (f : TestPulse → TestPulse) : (d.onTpo k f).cfg = d.cfg := rfl
@[simp] theorem Dev.onTpo_upd (k : Fin 2) (f : TestPulse → TestPulse) : (d.onTpo k f).upd = d.upd := rfl
@[simp] theorem Dev.onTpo_recorder (k : Fin 2) (f : TestPulse → TestPulse) : (d.onTpo k f).recorder = d.recorder := rfl
@[simp] theorem Dev.onTpo_mem (k : Fin 2) (f : TestPulse → TestPulse) : (d.onTpo k f).mem = d.mem := rfl
@[simp] theorem Dev.onTpo_archive (k : Fin 2) (f : TestPulse → TestPulse) : (d.onTpo k f).archive = d.archive := rfl
@[simp] theorem Dev.onTpo_locked (k : Fin 2) (f : TestPulse → TestPulse) : (d.onTpo k f).locked = d.locked := rfl
@[simp] theorem Dev.onTpo_commits (k : Fin 2) (f : TestPulse → TestPulse) : (d.onTpo k f).commits = d.commits := rfl
@[simp] theorem Dev.onTpo_fresh (k : Fin 2) (f : TestPulse → TestPulse) : (d.onTpo k f).fresh = d.fresh := rfl
@[simp] theorem Dev.onTpo_link (k : Fin 2) (f : TestPulse → TestPulse) (m : LinkId) : (d.onTpo k f).link m = d.link m := rfl
@[simp] theorem Dev.onTpo_tenant (k : Fin 2) (f : TestPulse → TestPulse) (t : TenantId) : (d.onTpo k f).tenant t = d.tenant t := rfl
@[simp] theorem Dev.onTpo_reg (k : Fin 2) (f : TestPulse → TestPulse) (x : Nat) : (d.onTpo k f).reg x = d.reg x := rfl
@[simp] theorem Dev.onTpo_mode (k : Fin 2) (f : TestPulse → TestPulse) : (d.onTpo k f).mode = d.mode := rfl
@[simp] theorem Dev.onTpo_recording (k : Fin 2) (f : TestPulse → TestPulse) : (d.onTpo k f).recording = d.recording := rfl
@[simp] theorem Dev.onTpo_now (k : Fin 2) (f : TestPulse → TestPulse) : (d.onTpo k f).now = d.now := rfl

@[simp] theorem Dev.onS0_pacer (k : Fin 4) (f : S0Input → S0Input) : (d.onS0 k f).pacer = d.pacer := rfl
@[simp] theorem Dev.onS0_power (k : Fin 4) (f : S0Input → S0Input) : (d.onS0 k f).power = d.power := rfl
@[simp] theorem Dev.onS0_host (k : Fin 4) (f : S0Input → S0Input) : (d.onS0 k f).host = d.host := rfl
@[simp] theorem Dev.onS0_regs (k : Fin 4) (f : S0Input → S0Input) : (d.onS0 k f).regs = d.regs := rfl
@[simp] theorem Dev.onS0_links (k : Fin 4) (f : S0Input → S0Input) : (d.onS0 k f).links = d.links := rfl
@[simp] theorem Dev.onS0_tenants (k : Fin 4) (f : S0Input → S0Input) : (d.onS0 k f).tenants = d.tenants := rfl
@[simp] theorem Dev.onS0_bill (k : Fin 4) (f : S0Input → S0Input) : (d.onS0 k f).bill = d.bill := rfl
@[simp] theorem Dev.onS0_alloc (k : Fin 4) (f : S0Input → S0Input) : (d.onS0 k f).alloc = d.alloc := rfl
@[simp] theorem Dev.onS0_prot (k : Fin 4) (f : S0Input → S0Input) : (d.onS0 k f).prot = d.prot := rfl
@[simp] theorem Dev.onS0_engines (k : Fin 4) (f : S0Input → S0Input) : (d.onS0 k f).engines = d.engines := rfl
@[simp] theorem Dev.onS0_svc (k : Fin 4) (f : S0Input → S0Input) : (d.onS0 k f).svc = d.svc := rfl
@[simp] theorem Dev.onS0_sec (k : Fin 4) (f : S0Input → S0Input) : (d.onS0 k f).sec = d.sec := rfl
@[simp] theorem Dev.onS0_grid (k : Fin 4) (f : S0Input → S0Input) : (d.onS0 k f).grid = d.grid := rfl
@[simp] theorem Dev.onS0_disp (k : Fin 4) (f : S0Input → S0Input) : (d.onS0 k f).disp = d.disp := rfl
@[simp] theorem Dev.onS0_scroll (k : Fin 4) (f : S0Input → S0Input) : (d.onS0 k f).scroll = d.scroll := rfl
@[simp] theorem Dev.onS0_keys (k : Fin 4) (f : S0Input → S0Input) : (d.onS0 k f).keys = d.keys := rfl
@[simp] theorem Dev.onS0_tpo (k : Fin 4) (f : S0Input → S0Input) : (d.onS0 k f).tpo = d.tpo := rfl
@[simp] theorem Dev.onS0_cfg (k : Fin 4) (f : S0Input → S0Input) : (d.onS0 k f).cfg = d.cfg := rfl
@[simp] theorem Dev.onS0_upd (k : Fin 4) (f : S0Input → S0Input) : (d.onS0 k f).upd = d.upd := rfl
@[simp] theorem Dev.onS0_recorder (k : Fin 4) (f : S0Input → S0Input) : (d.onS0 k f).recorder = d.recorder := rfl
@[simp] theorem Dev.onS0_mem (k : Fin 4) (f : S0Input → S0Input) : (d.onS0 k f).mem = d.mem := rfl
@[simp] theorem Dev.onS0_archive (k : Fin 4) (f : S0Input → S0Input) : (d.onS0 k f).archive = d.archive := rfl
@[simp] theorem Dev.onS0_locked (k : Fin 4) (f : S0Input → S0Input) : (d.onS0 k f).locked = d.locked := rfl
@[simp] theorem Dev.onS0_commits (k : Fin 4) (f : S0Input → S0Input) : (d.onS0 k f).commits = d.commits := rfl
@[simp] theorem Dev.onS0_fresh (k : Fin 4) (f : S0Input → S0Input) : (d.onS0 k f).fresh = d.fresh := rfl
@[simp] theorem Dev.onS0_link (k : Fin 4) (f : S0Input → S0Input) (m : LinkId) : (d.onS0 k f).link m = d.link m := rfl
@[simp] theorem Dev.onS0_tenant (k : Fin 4) (f : S0Input → S0Input) (t : TenantId) : (d.onS0 k f).tenant t = d.tenant t := rfl
@[simp] theorem Dev.onS0_reg (k : Fin 4) (f : S0Input → S0Input) (x : Nat) : (d.onS0 k f).reg x = d.reg x := rfl
@[simp] theorem Dev.onS0_mode (k : Fin 4) (f : S0Input → S0Input) : (d.onS0 k f).mode = d.mode := rfl
@[simp] theorem Dev.onS0_recording (k : Fin 4) (f : S0Input → S0Input) : (d.onS0 k f).recording = d.recording := rfl
@[simp] theorem Dev.onS0_now (k : Fin 4) (f : S0Input → S0Input) : (d.onS0 k f).now = d.now := rfl

@[simp] theorem Dev.onLnk_pacer (n : LinkId) (f : LinkLayer → LinkLayer) : (d.onLnk n f).pacer = d.pacer := rfl
@[simp] theorem Dev.onLnk_power (n : LinkId) (f : LinkLayer → LinkLayer) : (d.onLnk n f).power = d.power := rfl
@[simp] theorem Dev.onLnk_host (n : LinkId) (f : LinkLayer → LinkLayer) : (d.onLnk n f).host = d.host := rfl
@[simp] theorem Dev.onLnk_regs (n : LinkId) (f : LinkLayer → LinkLayer) : (d.onLnk n f).regs = d.regs := rfl
@[simp] theorem Dev.onLnk_tenants (n : LinkId) (f : LinkLayer → LinkLayer) : (d.onLnk n f).tenants = d.tenants := rfl
@[simp] theorem Dev.onLnk_bill (n : LinkId) (f : LinkLayer → LinkLayer) : (d.onLnk n f).bill = d.bill := rfl
@[simp] theorem Dev.onLnk_alloc (n : LinkId) (f : LinkLayer → LinkLayer) : (d.onLnk n f).alloc = d.alloc := rfl
@[simp] theorem Dev.onLnk_prot (n : LinkId) (f : LinkLayer → LinkLayer) : (d.onLnk n f).prot = d.prot := rfl
@[simp] theorem Dev.onLnk_engines (n : LinkId) (f : LinkLayer → LinkLayer) : (d.onLnk n f).engines = d.engines := rfl
@[simp] theorem Dev.onLnk_svc (n : LinkId) (f : LinkLayer → LinkLayer) : (d.onLnk n f).svc = d.svc := rfl
@[simp] theorem Dev.onLnk_sec (n : LinkId) (f : LinkLayer → LinkLayer) : (d.onLnk n f).sec = d.sec := rfl
@[simp] theorem Dev.onLnk_grid (n : LinkId) (f : LinkLayer → LinkLayer) : (d.onLnk n f).grid = d.grid := rfl
@[simp] theorem Dev.onLnk_disp (n : LinkId) (f : LinkLayer → LinkLayer) : (d.onLnk n f).disp = d.disp := rfl
@[simp] theorem Dev.onLnk_scroll (n : LinkId) (f : LinkLayer → LinkLayer) : (d.onLnk n f).scroll = d.scroll := rfl
@[simp] theorem Dev.onLnk_keys (n : LinkId) (f : LinkLayer → LinkLayer) : (d.onLnk n f).keys = d.keys := rfl
@[simp] theorem Dev.onLnk_tpo (n : LinkId) (f : LinkLayer → LinkLayer) : (d.onLnk n f).tpo = d.tpo := rfl
@[simp] theorem Dev.onLnk_s0 (n : LinkId) (f : LinkLayer → LinkLayer) : (d.onLnk n f).s0 = d.s0 := rfl
@[simp] theorem Dev.onLnk_cfg (n : LinkId) (f : LinkLayer → LinkLayer) : (d.onLnk n f).cfg = d.cfg := rfl
@[simp] theorem Dev.onLnk_upd (n : LinkId) (f : LinkLayer → LinkLayer) : (d.onLnk n f).upd = d.upd := rfl
@[simp] theorem Dev.onLnk_recorder (n : LinkId) (f : LinkLayer → LinkLayer) : (d.onLnk n f).recorder = d.recorder := rfl
@[simp] theorem Dev.onLnk_mem (n : LinkId) (f : LinkLayer → LinkLayer) : (d.onLnk n f).mem = d.mem := rfl
@[simp] theorem Dev.onLnk_archive (n : LinkId) (f : LinkLayer → LinkLayer) : (d.onLnk n f).archive = d.archive := rfl
@[simp] theorem Dev.onLnk_locked (n : LinkId) (f : LinkLayer → LinkLayer) : (d.onLnk n f).locked = d.locked := rfl
@[simp] theorem Dev.onLnk_commits (n : LinkId) (f : LinkLayer → LinkLayer) : (d.onLnk n f).commits = d.commits := rfl
@[simp] theorem Dev.onLnk_fresh (n : LinkId) (f : LinkLayer → LinkLayer) : (d.onLnk n f).fresh = d.fresh := rfl
@[simp] theorem Dev.onLnk_tenant (n : LinkId) (f : LinkLayer → LinkLayer) (t : TenantId) : (d.onLnk n f).tenant t = d.tenant t := rfl
@[simp] theorem Dev.onLnk_reg (n : LinkId) (f : LinkLayer → LinkLayer) (x : Nat) : (d.onLnk n f).reg x = d.reg x := rfl
@[simp] theorem Dev.onLnk_mode (n : LinkId) (f : LinkLayer → LinkLayer) : (d.onLnk n f).mode = d.mode := rfl
@[simp] theorem Dev.onLnk_recording (n : LinkId) (f : LinkLayer → LinkLayer) : (d.onLnk n f).recording = d.recording := rfl
@[simp] theorem Dev.onLnk_now (n : LinkId) (f : LinkLayer → LinkLayer) : (d.onLnk n f).now = d.now := rfl

@[simp] theorem Dev.onCmd_pacer (n : LinkId) (f : Commands → Commands) : (d.onCmd n f).pacer = d.pacer := rfl
@[simp] theorem Dev.onCmd_power (n : LinkId) (f : Commands → Commands) : (d.onCmd n f).power = d.power := rfl
@[simp] theorem Dev.onCmd_host (n : LinkId) (f : Commands → Commands) : (d.onCmd n f).host = d.host := rfl
@[simp] theorem Dev.onCmd_regs (n : LinkId) (f : Commands → Commands) : (d.onCmd n f).regs = d.regs := rfl
@[simp] theorem Dev.onCmd_tenants (n : LinkId) (f : Commands → Commands) : (d.onCmd n f).tenants = d.tenants := rfl
@[simp] theorem Dev.onCmd_bill (n : LinkId) (f : Commands → Commands) : (d.onCmd n f).bill = d.bill := rfl
@[simp] theorem Dev.onCmd_alloc (n : LinkId) (f : Commands → Commands) : (d.onCmd n f).alloc = d.alloc := rfl
@[simp] theorem Dev.onCmd_prot (n : LinkId) (f : Commands → Commands) : (d.onCmd n f).prot = d.prot := rfl
@[simp] theorem Dev.onCmd_engines (n : LinkId) (f : Commands → Commands) : (d.onCmd n f).engines = d.engines := rfl
@[simp] theorem Dev.onCmd_svc (n : LinkId) (f : Commands → Commands) : (d.onCmd n f).svc = d.svc := rfl
@[simp] theorem Dev.onCmd_sec (n : LinkId) (f : Commands → Commands) : (d.onCmd n f).sec = d.sec := rfl
@[simp] theorem Dev.onCmd_grid (n : LinkId) (f : Commands → Commands) : (d.onCmd n f).grid = d.grid := rfl
@[simp] theorem Dev.onCmd_disp (n : LinkId) (f : Commands → Commands) : (d.onCmd n f).disp = d.disp := rfl
@[simp] theorem Dev.onCmd_scroll (n : LinkId) (f : Commands → Commands) : (d.onCmd n f).scroll = d.scroll := rfl
@[simp] theorem Dev.onCmd_keys (n : LinkId) (f : Commands → Commands) : (d.onCmd n f).keys = d.keys := rfl
@[simp] theorem Dev.onCmd_tpo (n : LinkId) (f : Commands → Commands) : (d.onCmd n f).tpo = d.tpo := rfl
@[simp] theorem Dev.onCmd_s0 (n : LinkId) (f : Commands → Commands) : (d.onCmd n f).s0 = d.s0 := rfl
@[simp] theorem Dev.onCmd_cfg (n : LinkId) (f : Commands → Commands) : (d.onCmd n f).cfg = d.cfg := rfl
@[simp] theorem Dev.onCmd_upd (n : LinkId) (f : Commands → Commands) : (d.onCmd n f).upd = d.upd := rfl
@[simp] theorem Dev.onCmd_recorder (n : LinkId) (f : Commands → Commands) : (d.onCmd n f).recorder = d.recorder := rfl
@[simp] theorem Dev.onCmd_mem (n : LinkId) (f : Commands → Commands) : (d.onCmd n f).mem = d.mem := rfl
@[simp] theorem Dev.onCmd_archive (n : LinkId) (f : Commands → Commands) : (d.onCmd n f).archive = d.archive := rfl
@[simp] theorem Dev.onCmd_locked (n : LinkId) (f : Commands → Commands) : (d.onCmd n f).locked = d.locked := rfl
@[simp] theorem Dev.onCmd_commits (n : LinkId) (f : Commands → Commands) : (d.onCmd n f).commits = d.commits := rfl
@[simp] theorem Dev.onCmd_fresh (n : LinkId) (f : Commands → Commands) : (d.onCmd n f).fresh = d.fresh := rfl
@[simp] theorem Dev.onCmd_tenant (n : LinkId) (f : Commands → Commands) (t : TenantId) : (d.onCmd n f).tenant t = d.tenant t := rfl
@[simp] theorem Dev.onCmd_reg (n : LinkId) (f : Commands → Commands) (x : Nat) : (d.onCmd n f).reg x = d.reg x := rfl
@[simp] theorem Dev.onCmd_mode (n : LinkId) (f : Commands → Commands) : (d.onCmd n f).mode = d.mode := rfl
@[simp] theorem Dev.onCmd_recording (n : LinkId) (f : Commands → Commands) : (d.onCmd n f).recording = d.recording := rfl
@[simp] theorem Dev.onCmd_now (n : LinkId) (f : Commands → Commands) : (d.onCmd n f).now = d.now := rfl

@[simp] theorem Dev.onMet_pacer (n : LinkId) (f : Metrology → Metrology) : (d.onMet n f).pacer = d.pacer := rfl
@[simp] theorem Dev.onMet_power (n : LinkId) (f : Metrology → Metrology) : (d.onMet n f).power = d.power := rfl
@[simp] theorem Dev.onMet_host (n : LinkId) (f : Metrology → Metrology) : (d.onMet n f).host = d.host := rfl
@[simp] theorem Dev.onMet_regs (n : LinkId) (f : Metrology → Metrology) : (d.onMet n f).regs = d.regs := rfl
@[simp] theorem Dev.onMet_tenants (n : LinkId) (f : Metrology → Metrology) : (d.onMet n f).tenants = d.tenants := rfl
@[simp] theorem Dev.onMet_bill (n : LinkId) (f : Metrology → Metrology) : (d.onMet n f).bill = d.bill := rfl
@[simp] theorem Dev.onMet_alloc (n : LinkId) (f : Metrology → Metrology) : (d.onMet n f).alloc = d.alloc := rfl
@[simp] theorem Dev.onMet_prot (n : LinkId) (f : Metrology → Metrology) : (d.onMet n f).prot = d.prot := rfl
@[simp] theorem Dev.onMet_engines (n : LinkId) (f : Metrology → Metrology) : (d.onMet n f).engines = d.engines := rfl
@[simp] theorem Dev.onMet_svc (n : LinkId) (f : Metrology → Metrology) : (d.onMet n f).svc = d.svc := rfl
@[simp] theorem Dev.onMet_sec (n : LinkId) (f : Metrology → Metrology) : (d.onMet n f).sec = d.sec := rfl
@[simp] theorem Dev.onMet_grid (n : LinkId) (f : Metrology → Metrology) : (d.onMet n f).grid = d.grid := rfl
@[simp] theorem Dev.onMet_disp (n : LinkId) (f : Metrology → Metrology) : (d.onMet n f).disp = d.disp := rfl
@[simp] theorem Dev.onMet_scroll (n : LinkId) (f : Metrology → Metrology) : (d.onMet n f).scroll = d.scroll := rfl
@[simp] theorem Dev.onMet_keys (n : LinkId) (f : Metrology → Metrology) : (d.onMet n f).keys = d.keys := rfl
@[simp] theorem Dev.onMet_tpo (n : LinkId) (f : Metrology → Metrology) : (d.onMet n f).tpo = d.tpo := rfl
@[simp] theorem Dev.onMet_s0 (n : LinkId) (f : Metrology → Metrology) : (d.onMet n f).s0 = d.s0 := rfl
@[simp] theorem Dev.onMet_cfg (n : LinkId) (f : Metrology → Metrology) : (d.onMet n f).cfg = d.cfg := rfl
@[simp] theorem Dev.onMet_upd (n : LinkId) (f : Metrology → Metrology) : (d.onMet n f).upd = d.upd := rfl
@[simp] theorem Dev.onMet_recorder (n : LinkId) (f : Metrology → Metrology) : (d.onMet n f).recorder = d.recorder := rfl
@[simp] theorem Dev.onMet_mem (n : LinkId) (f : Metrology → Metrology) : (d.onMet n f).mem = d.mem := rfl
@[simp] theorem Dev.onMet_archive (n : LinkId) (f : Metrology → Metrology) : (d.onMet n f).archive = d.archive := rfl
@[simp] theorem Dev.onMet_locked (n : LinkId) (f : Metrology → Metrology) : (d.onMet n f).locked = d.locked := rfl
@[simp] theorem Dev.onMet_commits (n : LinkId) (f : Metrology → Metrology) : (d.onMet n f).commits = d.commits := rfl
@[simp] theorem Dev.onMet_fresh (n : LinkId) (f : Metrology → Metrology) : (d.onMet n f).fresh = d.fresh := rfl
@[simp] theorem Dev.onMet_tenant (n : LinkId) (f : Metrology → Metrology) (t : TenantId) : (d.onMet n f).tenant t = d.tenant t := rfl
@[simp] theorem Dev.onMet_reg (n : LinkId) (f : Metrology → Metrology) (x : Nat) : (d.onMet n f).reg x = d.reg x := rfl
@[simp] theorem Dev.onMet_mode (n : LinkId) (f : Metrology → Metrology) : (d.onMet n f).mode = d.mode := rfl
@[simp] theorem Dev.onMet_recording (n : LinkId) (f : Metrology → Metrology) : (d.onMet n f).recording = d.recording := rfl
@[simp] theorem Dev.onMet_now (n : LinkId) (f : Metrology → Metrology) : (d.onMet n f).now = d.now := rfl

@[simp] theorem Dev.onBill_pacer (n : LinkId) (f : LinkBill → LinkBill) : (d.onBill n f).pacer = d.pacer := rfl
@[simp] theorem Dev.onBill_power (n : LinkId) (f : LinkBill → LinkBill) : (d.onBill n f).power = d.power := rfl
@[simp] theorem Dev.onBill_host (n : LinkId) (f : LinkBill → LinkBill) : (d.onBill n f).host = d.host := rfl
@[simp] theorem Dev.onBill_regs (n : LinkId) (f : LinkBill → LinkBill) : (d.onBill n f).regs = d.regs := rfl
@[simp] theorem Dev.onBill_tenants (n : LinkId) (f : LinkBill → LinkBill) : (d.onBill n f).tenants = d.tenants := rfl
@[simp] theorem Dev.onBill_bill (n : LinkId) (f : LinkBill → LinkBill) : (d.onBill n f).bill = d.bill := rfl
@[simp] theorem Dev.onBill_alloc (n : LinkId) (f : LinkBill → LinkBill) : (d.onBill n f).alloc = d.alloc := rfl
@[simp] theorem Dev.onBill_prot (n : LinkId) (f : LinkBill → LinkBill) : (d.onBill n f).prot = d.prot := rfl
@[simp] theorem Dev.onBill_engines (n : LinkId) (f : LinkBill → LinkBill) : (d.onBill n f).engines = d.engines := rfl
@[simp] theorem Dev.onBill_svc (n : LinkId) (f : LinkBill → LinkBill) : (d.onBill n f).svc = d.svc := rfl
@[simp] theorem Dev.onBill_sec (n : LinkId) (f : LinkBill → LinkBill) : (d.onBill n f).sec = d.sec := rfl
@[simp] theorem Dev.onBill_grid (n : LinkId) (f : LinkBill → LinkBill) : (d.onBill n f).grid = d.grid := rfl
@[simp] theorem Dev.onBill_disp (n : LinkId) (f : LinkBill → LinkBill) : (d.onBill n f).disp = d.disp := rfl
@[simp] theorem Dev.onBill_scroll (n : LinkId) (f : LinkBill → LinkBill) : (d.onBill n f).scroll = d.scroll := rfl
@[simp] theorem Dev.onBill_keys (n : LinkId) (f : LinkBill → LinkBill) : (d.onBill n f).keys = d.keys := rfl
@[simp] theorem Dev.onBill_tpo (n : LinkId) (f : LinkBill → LinkBill) : (d.onBill n f).tpo = d.tpo := rfl
@[simp] theorem Dev.onBill_s0 (n : LinkId) (f : LinkBill → LinkBill) : (d.onBill n f).s0 = d.s0 := rfl
@[simp] theorem Dev.onBill_cfg (n : LinkId) (f : LinkBill → LinkBill) : (d.onBill n f).cfg = d.cfg := rfl
@[simp] theorem Dev.onBill_upd (n : LinkId) (f : LinkBill → LinkBill) : (d.onBill n f).upd = d.upd := rfl
@[simp] theorem Dev.onBill_recorder (n : LinkId) (f : LinkBill → LinkBill) : (d.onBill n f).recorder = d.recorder := rfl
@[simp] theorem Dev.onBill_mem (n : LinkId) (f : LinkBill → LinkBill) : (d.onBill n f).mem = d.mem := rfl
@[simp] theorem Dev.onBill_archive (n : LinkId) (f : LinkBill → LinkBill) : (d.onBill n f).archive = d.archive := rfl
@[simp] theorem Dev.onBill_locked (n : LinkId) (f : LinkBill → LinkBill) : (d.onBill n f).locked = d.locked := rfl
@[simp] theorem Dev.onBill_commits (n : LinkId) (f : LinkBill → LinkBill) : (d.onBill n f).commits = d.commits := rfl
@[simp] theorem Dev.onBill_fresh (n : LinkId) (f : LinkBill → LinkBill) : (d.onBill n f).fresh = d.fresh := rfl
@[simp] theorem Dev.onBill_tenant (n : LinkId) (f : LinkBill → LinkBill) (t : TenantId) : (d.onBill n f).tenant t = d.tenant t := rfl
@[simp] theorem Dev.onBill_reg (n : LinkId) (f : LinkBill → LinkBill) (x : Nat) : (d.onBill n f).reg x = d.reg x := rfl
@[simp] theorem Dev.onBill_mode (n : LinkId) (f : LinkBill → LinkBill) : (d.onBill n f).mode = d.mode := rfl
@[simp] theorem Dev.onBill_recording (n : LinkId) (f : LinkBill → LinkBill) : (d.onBill n f).recording = d.recording := rfl
@[simp] theorem Dev.onBill_now (n : LinkId) (f : LinkBill → LinkBill) : (d.onBill n f).now = d.now := rfl

@[simp] theorem Dev.onGroup_pacer (n : LinkId) (f : Group → Group) : (d.onGroup n f).pacer = d.pacer := rfl
@[simp] theorem Dev.onGroup_power (n : LinkId) (f : Group → Group) : (d.onGroup n f).power = d.power := rfl
@[simp] theorem Dev.onGroup_host (n : LinkId) (f : Group → Group) : (d.onGroup n f).host = d.host := rfl
@[simp] theorem Dev.onGroup_regs (n : LinkId) (f : Group → Group) : (d.onGroup n f).regs = d.regs := rfl
@[simp] theorem Dev.onGroup_tenants (n : LinkId) (f : Group → Group) : (d.onGroup n f).tenants = d.tenants := rfl
@[simp] theorem Dev.onGroup_bill (n : LinkId) (f : Group → Group) : (d.onGroup n f).bill = d.bill := rfl
@[simp] theorem Dev.onGroup_alloc (n : LinkId) (f : Group → Group) : (d.onGroup n f).alloc = d.alloc := rfl
@[simp] theorem Dev.onGroup_prot (n : LinkId) (f : Group → Group) : (d.onGroup n f).prot = d.prot := rfl
@[simp] theorem Dev.onGroup_engines (n : LinkId) (f : Group → Group) : (d.onGroup n f).engines = d.engines := rfl
@[simp] theorem Dev.onGroup_svc (n : LinkId) (f : Group → Group) : (d.onGroup n f).svc = d.svc := rfl
@[simp] theorem Dev.onGroup_sec (n : LinkId) (f : Group → Group) : (d.onGroup n f).sec = d.sec := rfl
@[simp] theorem Dev.onGroup_grid (n : LinkId) (f : Group → Group) : (d.onGroup n f).grid = d.grid := rfl
@[simp] theorem Dev.onGroup_disp (n : LinkId) (f : Group → Group) : (d.onGroup n f).disp = d.disp := rfl
@[simp] theorem Dev.onGroup_scroll (n : LinkId) (f : Group → Group) : (d.onGroup n f).scroll = d.scroll := rfl
@[simp] theorem Dev.onGroup_keys (n : LinkId) (f : Group → Group) : (d.onGroup n f).keys = d.keys := rfl
@[simp] theorem Dev.onGroup_tpo (n : LinkId) (f : Group → Group) : (d.onGroup n f).tpo = d.tpo := rfl
@[simp] theorem Dev.onGroup_s0 (n : LinkId) (f : Group → Group) : (d.onGroup n f).s0 = d.s0 := rfl
@[simp] theorem Dev.onGroup_cfg (n : LinkId) (f : Group → Group) : (d.onGroup n f).cfg = d.cfg := rfl
@[simp] theorem Dev.onGroup_upd (n : LinkId) (f : Group → Group) : (d.onGroup n f).upd = d.upd := rfl
@[simp] theorem Dev.onGroup_recorder (n : LinkId) (f : Group → Group) : (d.onGroup n f).recorder = d.recorder := rfl
@[simp] theorem Dev.onGroup_mem (n : LinkId) (f : Group → Group) : (d.onGroup n f).mem = d.mem := rfl
@[simp] theorem Dev.onGroup_archive (n : LinkId) (f : Group → Group) : (d.onGroup n f).archive = d.archive := rfl
@[simp] theorem Dev.onGroup_locked (n : LinkId) (f : Group → Group) : (d.onGroup n f).locked = d.locked := rfl
@[simp] theorem Dev.onGroup_commits (n : LinkId) (f : Group → Group) : (d.onGroup n f).commits = d.commits := rfl
@[simp] theorem Dev.onGroup_fresh (n : LinkId) (f : Group → Group) : (d.onGroup n f).fresh = d.fresh := rfl
@[simp] theorem Dev.onGroup_tenant (n : LinkId) (f : Group → Group) (t : TenantId) : (d.onGroup n f).tenant t = d.tenant t := rfl
@[simp] theorem Dev.onGroup_reg (n : LinkId) (f : Group → Group) (x : Nat) : (d.onGroup n f).reg x = d.reg x := rfl
@[simp] theorem Dev.onGroup_mode (n : LinkId) (f : Group → Group) : (d.onGroup n f).mode = d.mode := rfl
@[simp] theorem Dev.onGroup_recording (n : LinkId) (f : Group → Group) : (d.onGroup n f).recording = d.recording := rfl
@[simp] theorem Dev.onGroup_now (n : LinkId) (f : Group → Group) : (d.onGroup n f).now = d.now := rfl

@[simp] theorem Dev.onOut_pacer (n : LinkId) (f : OutletAlloc → OutletAlloc) : (d.onOut n f).pacer = d.pacer := rfl
@[simp] theorem Dev.onOut_power (n : LinkId) (f : OutletAlloc → OutletAlloc) : (d.onOut n f).power = d.power := rfl
@[simp] theorem Dev.onOut_host (n : LinkId) (f : OutletAlloc → OutletAlloc) : (d.onOut n f).host = d.host := rfl
@[simp] theorem Dev.onOut_regs (n : LinkId) (f : OutletAlloc → OutletAlloc) : (d.onOut n f).regs = d.regs := rfl
@[simp] theorem Dev.onOut_tenants (n : LinkId) (f : OutletAlloc → OutletAlloc) : (d.onOut n f).tenants = d.tenants := rfl
@[simp] theorem Dev.onOut_bill (n : LinkId) (f : OutletAlloc → OutletAlloc) : (d.onOut n f).bill = d.bill := rfl
@[simp] theorem Dev.onOut_alloc (n : LinkId) (f : OutletAlloc → OutletAlloc) : (d.onOut n f).alloc = d.alloc := rfl
@[simp] theorem Dev.onOut_prot (n : LinkId) (f : OutletAlloc → OutletAlloc) : (d.onOut n f).prot = d.prot := rfl
@[simp] theorem Dev.onOut_engines (n : LinkId) (f : OutletAlloc → OutletAlloc) : (d.onOut n f).engines = d.engines := rfl
@[simp] theorem Dev.onOut_svc (n : LinkId) (f : OutletAlloc → OutletAlloc) : (d.onOut n f).svc = d.svc := rfl
@[simp] theorem Dev.onOut_sec (n : LinkId) (f : OutletAlloc → OutletAlloc) : (d.onOut n f).sec = d.sec := rfl
@[simp] theorem Dev.onOut_grid (n : LinkId) (f : OutletAlloc → OutletAlloc) : (d.onOut n f).grid = d.grid := rfl
@[simp] theorem Dev.onOut_disp (n : LinkId) (f : OutletAlloc → OutletAlloc) : (d.onOut n f).disp = d.disp := rfl
@[simp] theorem Dev.onOut_scroll (n : LinkId) (f : OutletAlloc → OutletAlloc) : (d.onOut n f).scroll = d.scroll := rfl
@[simp] theorem Dev.onOut_keys (n : LinkId) (f : OutletAlloc → OutletAlloc) : (d.onOut n f).keys = d.keys := rfl
@[simp] theorem Dev.onOut_tpo (n : LinkId) (f : OutletAlloc → OutletAlloc) : (d.onOut n f).tpo = d.tpo := rfl
@[simp] theorem Dev.onOut_s0 (n : LinkId) (f : OutletAlloc → OutletAlloc) : (d.onOut n f).s0 = d.s0 := rfl
@[simp] theorem Dev.onOut_cfg (n : LinkId) (f : OutletAlloc → OutletAlloc) : (d.onOut n f).cfg = d.cfg := rfl
@[simp] theorem Dev.onOut_upd (n : LinkId) (f : OutletAlloc → OutletAlloc) : (d.onOut n f).upd = d.upd := rfl
@[simp] theorem Dev.onOut_recorder (n : LinkId) (f : OutletAlloc → OutletAlloc) : (d.onOut n f).recorder = d.recorder := rfl
@[simp] theorem Dev.onOut_mem (n : LinkId) (f : OutletAlloc → OutletAlloc) : (d.onOut n f).mem = d.mem := rfl
@[simp] theorem Dev.onOut_archive (n : LinkId) (f : OutletAlloc → OutletAlloc) : (d.onOut n f).archive = d.archive := rfl
@[simp] theorem Dev.onOut_locked (n : LinkId) (f : OutletAlloc → OutletAlloc) : (d.onOut n f).locked = d.locked := rfl
@[simp] theorem Dev.onOut_commits (n : LinkId) (f : OutletAlloc → OutletAlloc) : (d.onOut n f).commits = d.commits := rfl
@[simp] theorem Dev.onOut_fresh (n : LinkId) (f : OutletAlloc → OutletAlloc) : (d.onOut n f).fresh = d.fresh := rfl
@[simp] theorem Dev.onOut_tenant (n : LinkId) (f : OutletAlloc → OutletAlloc) (t : TenantId) : (d.onOut n f).tenant t = d.tenant t := rfl
@[simp] theorem Dev.onOut_reg (n : LinkId) (f : OutletAlloc → OutletAlloc) (x : Nat) : (d.onOut n f).reg x = d.reg x := rfl
@[simp] theorem Dev.onOut_mode (n : LinkId) (f : OutletAlloc → OutletAlloc) : (d.onOut n f).mode = d.mode := rfl
@[simp] theorem Dev.onOut_recording (n : LinkId) (f : OutletAlloc → OutletAlloc) : (d.onOut n f).recording = d.recording := rfl
@[simp] theorem Dev.onOut_now (n : LinkId) (f : OutletAlloc → OutletAlloc) : (d.onOut n f).now = d.now := rfl

@[simp] theorem Dev.onCon_pacer (n : LinkId) (f : Contactors → Contactors) : (d.onCon n f).pacer = d.pacer := rfl
@[simp] theorem Dev.onCon_power (n : LinkId) (f : Contactors → Contactors) : (d.onCon n f).power = d.power := rfl
@[simp] theorem Dev.onCon_host (n : LinkId) (f : Contactors → Contactors) : (d.onCon n f).host = d.host := rfl
@[simp] theorem Dev.onCon_regs (n : LinkId) (f : Contactors → Contactors) : (d.onCon n f).regs = d.regs := rfl
@[simp] theorem Dev.onCon_tenants (n : LinkId) (f : Contactors → Contactors) : (d.onCon n f).tenants = d.tenants := rfl
@[simp] theorem Dev.onCon_bill (n : LinkId) (f : Contactors → Contactors) : (d.onCon n f).bill = d.bill := rfl
@[simp] theorem Dev.onCon_alloc (n : LinkId) (f : Contactors → Contactors) : (d.onCon n f).alloc = d.alloc := rfl
@[simp] theorem Dev.onCon_prot (n : LinkId) (f : Contactors → Contactors) : (d.onCon n f).prot = d.prot := rfl
@[simp] theorem Dev.onCon_engines (n : LinkId) (f : Contactors → Contactors) : (d.onCon n f).engines = d.engines := rfl
@[simp] theorem Dev.onCon_svc (n : LinkId) (f : Contactors → Contactors) : (d.onCon n f).svc = d.svc := rfl
@[simp] theorem Dev.onCon_sec (n : LinkId) (f : Contactors → Contactors) : (d.onCon n f).sec = d.sec := rfl
@[simp] theorem Dev.onCon_grid (n : LinkId) (f : Contactors → Contactors) : (d.onCon n f).grid = d.grid := rfl
@[simp] theorem Dev.onCon_disp (n : LinkId) (f : Contactors → Contactors) : (d.onCon n f).disp = d.disp := rfl
@[simp] theorem Dev.onCon_scroll (n : LinkId) (f : Contactors → Contactors) : (d.onCon n f).scroll = d.scroll := rfl
@[simp] theorem Dev.onCon_keys (n : LinkId) (f : Contactors → Contactors) : (d.onCon n f).keys = d.keys := rfl
@[simp] theorem Dev.onCon_tpo (n : LinkId) (f : Contactors → Contactors) : (d.onCon n f).tpo = d.tpo := rfl
@[simp] theorem Dev.onCon_s0 (n : LinkId) (f : Contactors → Contactors) : (d.onCon n f).s0 = d.s0 := rfl
@[simp] theorem Dev.onCon_cfg (n : LinkId) (f : Contactors → Contactors) : (d.onCon n f).cfg = d.cfg := rfl
@[simp] theorem Dev.onCon_upd (n : LinkId) (f : Contactors → Contactors) : (d.onCon n f).upd = d.upd := rfl
@[simp] theorem Dev.onCon_recorder (n : LinkId) (f : Contactors → Contactors) : (d.onCon n f).recorder = d.recorder := rfl
@[simp] theorem Dev.onCon_mem (n : LinkId) (f : Contactors → Contactors) : (d.onCon n f).mem = d.mem := rfl
@[simp] theorem Dev.onCon_archive (n : LinkId) (f : Contactors → Contactors) : (d.onCon n f).archive = d.archive := rfl
@[simp] theorem Dev.onCon_locked (n : LinkId) (f : Contactors → Contactors) : (d.onCon n f).locked = d.locked := rfl
@[simp] theorem Dev.onCon_commits (n : LinkId) (f : Contactors → Contactors) : (d.onCon n f).commits = d.commits := rfl
@[simp] theorem Dev.onCon_fresh (n : LinkId) (f : Contactors → Contactors) : (d.onCon n f).fresh = d.fresh := rfl
@[simp] theorem Dev.onCon_tenant (n : LinkId) (f : Contactors → Contactors) (t : TenantId) : (d.onCon n f).tenant t = d.tenant t := rfl
@[simp] theorem Dev.onCon_reg (n : LinkId) (f : Contactors → Contactors) (x : Nat) : (d.onCon n f).reg x = d.reg x := rfl
@[simp] theorem Dev.onCon_mode (n : LinkId) (f : Contactors → Contactors) : (d.onCon n f).mode = d.mode := rfl
@[simp] theorem Dev.onCon_recording (n : LinkId) (f : Contactors → Contactors) : (d.onCon n f).recording = d.recording := rfl
@[simp] theorem Dev.onCon_now (n : LinkId) (f : Contactors → Contactors) : (d.onCon n f).now = d.now := rfl

@[simp] theorem Dev.onVeh_pacer (n : LinkId) (f : Vehicle → Vehicle) : (d.onVeh n f).pacer = d.pacer := rfl
@[simp] theorem Dev.onVeh_power (n : LinkId) (f : Vehicle → Vehicle) : (d.onVeh n f).power = d.power := rfl
@[simp] theorem Dev.onVeh_host (n : LinkId) (f : Vehicle → Vehicle) : (d.onVeh n f).host = d.host := rfl
@[simp] theorem Dev.onVeh_regs (n : LinkId) (f : Vehicle → Vehicle) : (d.onVeh n f).regs = d.regs := rfl
@[simp] theorem Dev.onVeh_tenants (n : LinkId) (f : Vehicle → Vehicle) : (d.onVeh n f).tenants = d.tenants := rfl
@[simp] theorem Dev.onVeh_bill (n : LinkId) (f : Vehicle → Vehicle) : (d.onVeh n f).bill = d.bill := rfl
@[simp] theorem Dev.onVeh_alloc (n : LinkId) (f : Vehicle → Vehicle) : (d.onVeh n f).alloc = d.alloc := rfl
@[simp] theorem Dev.onVeh_prot (n : LinkId) (f : Vehicle → Vehicle) : (d.onVeh n f).prot = d.prot := rfl
@[simp] theorem Dev.onVeh_engines (n : LinkId) (f : Vehicle → Vehicle) : (d.onVeh n f).engines = d.engines := rfl
@[simp] theorem Dev.onVeh_svc (n : LinkId) (f : Vehicle → Vehicle) : (d.onVeh n f).svc = d.svc := rfl
@[simp] theorem Dev.onVeh_sec (n : LinkId) (f : Vehicle → Vehicle) : (d.onVeh n f).sec = d.sec := rfl
@[simp] theorem Dev.onVeh_grid (n : LinkId) (f : Vehicle → Vehicle) : (d.onVeh n f).grid = d.grid := rfl
@[simp] theorem Dev.onVeh_disp (n : LinkId) (f : Vehicle → Vehicle) : (d.onVeh n f).disp = d.disp := rfl
@[simp] theorem Dev.onVeh_scroll (n : LinkId) (f : Vehicle → Vehicle) : (d.onVeh n f).scroll = d.scroll := rfl
@[simp] theorem Dev.onVeh_keys (n : LinkId) (f : Vehicle → Vehicle) : (d.onVeh n f).keys = d.keys := rfl
@[simp] theorem Dev.onVeh_tpo (n : LinkId) (f : Vehicle → Vehicle) : (d.onVeh n f).tpo = d.tpo := rfl
@[simp] theorem Dev.onVeh_s0 (n : LinkId) (f : Vehicle → Vehicle) : (d.onVeh n f).s0 = d.s0 := rfl
@[simp] theorem Dev.onVeh_cfg (n : LinkId) (f : Vehicle → Vehicle) : (d.onVeh n f).cfg = d.cfg := rfl
@[simp] theorem Dev.onVeh_upd (n : LinkId) (f : Vehicle → Vehicle) : (d.onVeh n f).upd = d.upd := rfl
@[simp] theorem Dev.onVeh_recorder (n : LinkId) (f : Vehicle → Vehicle) : (d.onVeh n f).recorder = d.recorder := rfl
@[simp] theorem Dev.onVeh_mem (n : LinkId) (f : Vehicle → Vehicle) : (d.onVeh n f).mem = d.mem := rfl
@[simp] theorem Dev.onVeh_archive (n : LinkId) (f : Vehicle → Vehicle) : (d.onVeh n f).archive = d.archive := rfl
@[simp] theorem Dev.onVeh_locked (n : LinkId) (f : Vehicle → Vehicle) : (d.onVeh n f).locked = d.locked := rfl
@[simp] theorem Dev.onVeh_commits (n : LinkId) (f : Vehicle → Vehicle) : (d.onVeh n f).commits = d.commits := rfl
@[simp] theorem Dev.onVeh_fresh (n : LinkId) (f : Vehicle → Vehicle) : (d.onVeh n f).fresh = d.fresh := rfl
@[simp] theorem Dev.onVeh_tenant (n : LinkId) (f : Vehicle → Vehicle) (t : TenantId) : (d.onVeh n f).tenant t = d.tenant t := rfl
@[simp] theorem Dev.onVeh_reg (n : LinkId) (f : Vehicle → Vehicle) (x : Nat) : (d.onVeh n f).reg x = d.reg x := rfl
@[simp] theorem Dev.onVeh_mode (n : LinkId) (f : Vehicle → Vehicle) : (d.onVeh n f).mode = d.mode := rfl
@[simp] theorem Dev.onVeh_recording (n : LinkId) (f : Vehicle → Vehicle) : (d.onVeh n f).recording = d.recording := rfl
@[simp] theorem Dev.onVeh_now (n : LinkId) (f : Vehicle → Vehicle) : (d.onVeh n f).now = d.now := rfl

@[simp] theorem Dev.onProt_pacer (n : LinkId) (f : LinkProt → LinkProt) : (d.onProt n f).pacer = d.pacer := rfl
@[simp] theorem Dev.onProt_power (n : LinkId) (f : LinkProt → LinkProt) : (d.onProt n f).power = d.power := rfl
@[simp] theorem Dev.onProt_host (n : LinkId) (f : LinkProt → LinkProt) : (d.onProt n f).host = d.host := rfl
@[simp] theorem Dev.onProt_regs (n : LinkId) (f : LinkProt → LinkProt) : (d.onProt n f).regs = d.regs := rfl
@[simp] theorem Dev.onProt_tenants (n : LinkId) (f : LinkProt → LinkProt) : (d.onProt n f).tenants = d.tenants := rfl
@[simp] theorem Dev.onProt_bill (n : LinkId) (f : LinkProt → LinkProt) : (d.onProt n f).bill = d.bill := rfl
@[simp] theorem Dev.onProt_alloc (n : LinkId) (f : LinkProt → LinkProt) : (d.onProt n f).alloc = d.alloc := rfl
@[simp] theorem Dev.onProt_prot (n : LinkId) (f : LinkProt → LinkProt) : (d.onProt n f).prot = d.prot := rfl
@[simp] theorem Dev.onProt_engines (n : LinkId) (f : LinkProt → LinkProt) : (d.onProt n f).engines = d.engines := rfl
@[simp] theorem Dev.onProt_svc (n : LinkId) (f : LinkProt → LinkProt) : (d.onProt n f).svc = d.svc := rfl
@[simp] theorem Dev.onProt_sec (n : LinkId) (f : LinkProt → LinkProt) : (d.onProt n f).sec = d.sec := rfl
@[simp] theorem Dev.onProt_grid (n : LinkId) (f : LinkProt → LinkProt) : (d.onProt n f).grid = d.grid := rfl
@[simp] theorem Dev.onProt_disp (n : LinkId) (f : LinkProt → LinkProt) : (d.onProt n f).disp = d.disp := rfl
@[simp] theorem Dev.onProt_scroll (n : LinkId) (f : LinkProt → LinkProt) : (d.onProt n f).scroll = d.scroll := rfl
@[simp] theorem Dev.onProt_keys (n : LinkId) (f : LinkProt → LinkProt) : (d.onProt n f).keys = d.keys := rfl
@[simp] theorem Dev.onProt_tpo (n : LinkId) (f : LinkProt → LinkProt) : (d.onProt n f).tpo = d.tpo := rfl
@[simp] theorem Dev.onProt_s0 (n : LinkId) (f : LinkProt → LinkProt) : (d.onProt n f).s0 = d.s0 := rfl
@[simp] theorem Dev.onProt_cfg (n : LinkId) (f : LinkProt → LinkProt) : (d.onProt n f).cfg = d.cfg := rfl
@[simp] theorem Dev.onProt_upd (n : LinkId) (f : LinkProt → LinkProt) : (d.onProt n f).upd = d.upd := rfl
@[simp] theorem Dev.onProt_recorder (n : LinkId) (f : LinkProt → LinkProt) : (d.onProt n f).recorder = d.recorder := rfl
@[simp] theorem Dev.onProt_mem (n : LinkId) (f : LinkProt → LinkProt) : (d.onProt n f).mem = d.mem := rfl
@[simp] theorem Dev.onProt_archive (n : LinkId) (f : LinkProt → LinkProt) : (d.onProt n f).archive = d.archive := rfl
@[simp] theorem Dev.onProt_locked (n : LinkId) (f : LinkProt → LinkProt) : (d.onProt n f).locked = d.locked := rfl
@[simp] theorem Dev.onProt_commits (n : LinkId) (f : LinkProt → LinkProt) : (d.onProt n f).commits = d.commits := rfl
@[simp] theorem Dev.onProt_fresh (n : LinkId) (f : LinkProt → LinkProt) : (d.onProt n f).fresh = d.fresh := rfl
@[simp] theorem Dev.onProt_tenant (n : LinkId) (f : LinkProt → LinkProt) (t : TenantId) : (d.onProt n f).tenant t = d.tenant t := rfl
@[simp] theorem Dev.onProt_reg (n : LinkId) (f : LinkProt → LinkProt) (x : Nat) : (d.onProt n f).reg x = d.reg x := rfl
@[simp] theorem Dev.onProt_mode (n : LinkId) (f : LinkProt → LinkProt) : (d.onProt n f).mode = d.mode := rfl
@[simp] theorem Dev.onProt_recording (n : LinkId) (f : LinkProt → LinkProt) : (d.onProt n f).recording = d.recording := rfl
@[simp] theorem Dev.onProt_now (n : LinkId) (f : LinkProt → LinkProt) : (d.onProt n f).now = d.now := rfl

@[simp] theorem Dev.onTag_pacer (n : LinkId) (f : LinkTag → LinkTag) : (d.onTag n f).pacer = d.pacer := rfl
@[simp] theorem Dev.onTag_power (n : LinkId) (f : LinkTag → LinkTag) : (d.onTag n f).power = d.power := rfl
@[simp] theorem Dev.onTag_host (n : LinkId) (f : LinkTag → LinkTag) : (d.onTag n f).host = d.host := rfl
@[simp] theorem Dev.onTag_regs (n : LinkId) (f : LinkTag → LinkTag) : (d.onTag n f).regs = d.regs := rfl
@[simp] theorem Dev.onTag_tenants (n : LinkId) (f : LinkTag → LinkTag) : (d.onTag n f).tenants = d.tenants := rfl
@[simp] theorem Dev.onTag_bill (n : LinkId) (f : LinkTag → LinkTag) : (d.onTag n f).bill = d.bill := rfl
@[simp] theorem Dev.onTag_alloc (n : LinkId) (f : LinkTag → LinkTag) : (d.onTag n f).alloc = d.alloc := rfl
@[simp] theorem Dev.onTag_prot (n : LinkId) (f : LinkTag → LinkTag) : (d.onTag n f).prot = d.prot := rfl
@[simp] theorem Dev.onTag_engines (n : LinkId) (f : LinkTag → LinkTag) : (d.onTag n f).engines = d.engines := rfl
@[simp] theorem Dev.onTag_svc (n : LinkId) (f : LinkTag → LinkTag) : (d.onTag n f).svc = d.svc := rfl
@[simp] theorem Dev.onTag_sec (n : LinkId) (f : LinkTag → LinkTag) : (d.onTag n f).sec = d.sec := rfl
@[simp] theorem Dev.onTag_grid (n : LinkId) (f : LinkTag → LinkTag) : (d.onTag n f).grid = d.grid := rfl
@[simp] theorem Dev.onTag_disp (n : LinkId) (f : LinkTag → LinkTag) : (d.onTag n f).disp = d.disp := rfl
@[simp] theorem Dev.onTag_scroll (n : LinkId) (f : LinkTag → LinkTag) : (d.onTag n f).scroll = d.scroll := rfl
@[simp] theorem Dev.onTag_keys (n : LinkId) (f : LinkTag → LinkTag) : (d.onTag n f).keys = d.keys := rfl
@[simp] theorem Dev.onTag_tpo (n : LinkId) (f : LinkTag → LinkTag) : (d.onTag n f).tpo = d.tpo := rfl
@[simp] theorem Dev.onTag_s0 (n : LinkId) (f : LinkTag → LinkTag) : (d.onTag n f).s0 = d.s0 := rfl
@[simp] theorem Dev.onTag_cfg (n : LinkId) (f : LinkTag → LinkTag) : (d.onTag n f).cfg = d.cfg := rfl
@[simp] theorem Dev.onTag_upd (n : LinkId) (f : LinkTag → LinkTag) : (d.onTag n f).upd = d.upd := rfl
@[simp] theorem Dev.onTag_recorder (n : LinkId) (f : LinkTag → LinkTag) : (d.onTag n f).recorder = d.recorder := rfl
@[simp] theorem Dev.onTag_mem (n : LinkId) (f : LinkTag → LinkTag) : (d.onTag n f).mem = d.mem := rfl
@[simp] theorem Dev.onTag_archive (n : LinkId) (f : LinkTag → LinkTag) : (d.onTag n f).archive = d.archive := rfl
@[simp] theorem Dev.onTag_locked (n : LinkId) (f : LinkTag → LinkTag) : (d.onTag n f).locked = d.locked := rfl
@[simp] theorem Dev.onTag_commits (n : LinkId) (f : LinkTag → LinkTag) : (d.onTag n f).commits = d.commits := rfl
@[simp] theorem Dev.onTag_fresh (n : LinkId) (f : LinkTag → LinkTag) : (d.onTag n f).fresh = d.fresh := rfl
@[simp] theorem Dev.onTag_tenant (n : LinkId) (f : LinkTag → LinkTag) (t : TenantId) : (d.onTag n f).tenant t = d.tenant t := rfl
@[simp] theorem Dev.onTag_reg (n : LinkId) (f : LinkTag → LinkTag) (x : Nat) : (d.onTag n f).reg x = d.reg x := rfl
@[simp] theorem Dev.onTag_mode (n : LinkId) (f : LinkTag → LinkTag) : (d.onTag n f).mode = d.mode := rfl
@[simp] theorem Dev.onTag_recording (n : LinkId) (f : LinkTag → LinkTag) : (d.onTag n f).recording = d.recording := rfl
@[simp] theorem Dev.onTag_now (n : LinkId) (f : LinkTag → LinkTag) : (d.onTag n f).now = d.now := rfl

@[simp] theorem Dev.onAux_pacer (n : LinkId) (k : Fin 4) (f : AuxChannel → AuxChannel) : (d.onAux n k f).pacer = d.pacer := rfl
@[simp] theorem Dev.onAux_power (n : LinkId) (k : Fin 4) (f : AuxChannel → AuxChannel) : (d.onAux n k f).power = d.power := rfl
@[simp] theorem Dev.onAux_host (n : LinkId) (k : Fin 4) (f : AuxChannel → AuxChannel) : (d.onAux n k f).host = d.host := rfl
@[simp] theorem Dev.onAux_regs (n : LinkId) (k : Fin 4) (f : AuxChannel → AuxChannel) : (d.onAux n k f).regs = d.regs := rfl
@[simp] theorem Dev.onAux_tenants (n : LinkId) (k : Fin 4) (f : AuxChannel → AuxChannel) : (d.onAux n k f).tenants = d.tenants := rfl
@[simp] theorem Dev.onAux_bill (n : LinkId) (k : Fin 4) (f : AuxChannel → AuxChannel) : (d.onAux n k f).bill = d.bill := rfl
@[simp] theorem Dev.onAux_alloc (n : LinkId) (k : Fin 4) (f : AuxChannel → AuxChannel) : (d.onAux n k f).alloc = d.alloc := rfl
@[simp] theorem Dev.onAux_prot (n : LinkId) (k : Fin 4) (f : AuxChannel → AuxChannel) : (d.onAux n k f).prot = d.prot := rfl
@[simp] theorem Dev.onAux_engines (n : LinkId) (k : Fin 4) (f : AuxChannel → AuxChannel) : (d.onAux n k f).engines = d.engines := rfl
@[simp] theorem Dev.onAux_svc (n : LinkId) (k : Fin 4) (f : AuxChannel → AuxChannel) : (d.onAux n k f).svc = d.svc := rfl
@[simp] theorem Dev.onAux_sec (n : LinkId) (k : Fin 4) (f : AuxChannel → AuxChannel) : (d.onAux n k f).sec = d.sec := rfl
@[simp] theorem Dev.onAux_grid (n : LinkId) (k : Fin 4) (f : AuxChannel → AuxChannel) : (d.onAux n k f).grid = d.grid := rfl
@[simp] theorem Dev.onAux_disp (n : LinkId) (k : Fin 4) (f : AuxChannel → AuxChannel) : (d.onAux n k f).disp = d.disp := rfl
@[simp] theorem Dev.onAux_scroll (n : LinkId) (k : Fin 4) (f : AuxChannel → AuxChannel) : (d.onAux n k f).scroll = d.scroll := rfl
@[simp] theorem Dev.onAux_keys (n : LinkId) (k : Fin 4) (f : AuxChannel → AuxChannel) : (d.onAux n k f).keys = d.keys := rfl
@[simp] theorem Dev.onAux_tpo (n : LinkId) (k : Fin 4) (f : AuxChannel → AuxChannel) : (d.onAux n k f).tpo = d.tpo := rfl
@[simp] theorem Dev.onAux_s0 (n : LinkId) (k : Fin 4) (f : AuxChannel → AuxChannel) : (d.onAux n k f).s0 = d.s0 := rfl
@[simp] theorem Dev.onAux_cfg (n : LinkId) (k : Fin 4) (f : AuxChannel → AuxChannel) : (d.onAux n k f).cfg = d.cfg := rfl
@[simp] theorem Dev.onAux_upd (n : LinkId) (k : Fin 4) (f : AuxChannel → AuxChannel) : (d.onAux n k f).upd = d.upd := rfl
@[simp] theorem Dev.onAux_recorder (n : LinkId) (k : Fin 4) (f : AuxChannel → AuxChannel) : (d.onAux n k f).recorder = d.recorder := rfl
@[simp] theorem Dev.onAux_mem (n : LinkId) (k : Fin 4) (f : AuxChannel → AuxChannel) : (d.onAux n k f).mem = d.mem := rfl
@[simp] theorem Dev.onAux_archive (n : LinkId) (k : Fin 4) (f : AuxChannel → AuxChannel) : (d.onAux n k f).archive = d.archive := rfl
@[simp] theorem Dev.onAux_locked (n : LinkId) (k : Fin 4) (f : AuxChannel → AuxChannel) : (d.onAux n k f).locked = d.locked := rfl
@[simp] theorem Dev.onAux_commits (n : LinkId) (k : Fin 4) (f : AuxChannel → AuxChannel) : (d.onAux n k f).commits = d.commits := rfl
@[simp] theorem Dev.onAux_fresh (n : LinkId) (k : Fin 4) (f : AuxChannel → AuxChannel) : (d.onAux n k f).fresh = d.fresh := rfl
@[simp] theorem Dev.onAux_tenant (n : LinkId) (k : Fin 4) (f : AuxChannel → AuxChannel) (t : TenantId) : (d.onAux n k f).tenant t = d.tenant t := rfl
@[simp] theorem Dev.onAux_reg (n : LinkId) (k : Fin 4) (f : AuxChannel → AuxChannel) (x : Nat) : (d.onAux n k f).reg x = d.reg x := rfl
@[simp] theorem Dev.onAux_mode (n : LinkId) (k : Fin 4) (f : AuxChannel → AuxChannel) : (d.onAux n k f).mode = d.mode := rfl
@[simp] theorem Dev.onAux_recording (n : LinkId) (k : Fin 4) (f : AuxChannel → AuxChannel) : (d.onAux n k f).recording = d.recording := rfl
@[simp] theorem Dev.onAux_now (n : LinkId) (k : Fin 4) (f : AuxChannel → AuxChannel) : (d.onAux n k f).now = d.now := rfl

end

/-! ### What a vector holds after one of its places is set -/

theorem vector_get_set {α : Type} {n : Nat} (v : Vector α n) (i j : Fin n) (x : α) :
    (v.set i.1 x).get j = if j = i then x else v.get j := by
  simp only [Vector.get_eq_getElem, Vector.getElem_set, Fin.ext_iff]
  split <;> split <;> first | rfl | (exfalso; omega)

@[simp] theorem Dev.onLink_link (d : Dev) (n m : LinkId) (f : Link → Link) :
    (d.onLink n f).link m = if m = n then f (d.link n) else d.link m := vector_get_set d.links n m _

@[simp] theorem Dev.onTenant_tenant (d : Dev) (t u : TenantId) (f : Tenant → Tenant) :
    (d.onTenant t f).tenant u = if u = t then f (d.tenant t) else d.tenant u := vector_get_set d.tenants t u _

@[simp] theorem Dev.onKey_get (d : Dev) (k j : Fin 2) (f : Key → Key) :
    (d.onKey k f).keys.get j = if j = k then f (d.keys.get k) else d.keys.get j := vector_get_set d.keys k j _

@[simp] theorem Dev.onTpo_get (d : Dev) (k j : Fin 2) (f : TestPulse → TestPulse) :
    (d.onTpo k f).tpo.get j = if j = k then f (d.tpo.get k) else d.tpo.get j := vector_get_set d.tpo k j _

@[simp] theorem Dev.onS0_get (d : Dev) (k j : Fin 4) (f : S0Input → S0Input) :
    (d.onS0 k f).s0.get j = if j = k then f (d.s0.get k) else d.s0.get j := vector_get_set d.s0 k j _

@[simp] theorem Dev.onLnk_link (d : Dev) (n m : LinkId) (f : LinkLayer → LinkLayer) :
    (d.onLnk n f).link m = if m = n then { d.link n with lnk := f (d.link n).lnk } else d.link m := Dev.onLink_link d n m _

@[simp] theorem Dev.onCmd_link (d : Dev) (n m : LinkId) (f : Commands → Commands) :
    (d.onCmd n f).link m = if m = n then { d.link n with cmd := f (d.link n).cmd } else d.link m := Dev.onLink_link d n m _

@[simp] theorem Dev.onMet_link (d : Dev) (n m : LinkId) (f : Metrology → Metrology) :
    (d.onMet n f).link m = if m = n then { d.link n with met := f (d.link n).met } else d.link m := Dev.onLink_link d n m _

@[simp] theorem Dev.onBill_link (d : Dev) (n m : LinkId) (f : LinkBill → LinkBill) :
    (d.onBill n f).link m = if m = n then { d.link n with bill := f (d.link n).bill } else d.link m := Dev.onLink_link d n m _

@[simp] theorem Dev.onGroup_link (d : Dev) (n m : LinkId) (f : Group → Group) :
    (d.onGroup n f).link m = if m = n then { d.link n with group := f (d.link n).group } else d.link m := Dev.onLink_link d n m _

@[simp] theorem Dev.onOut_link (d : Dev) (n m : LinkId) (f : OutletAlloc → OutletAlloc) :
    (d.onOut n f).link m = if m = n then { d.link n with out := f (d.link n).out } else d.link m := Dev.onLink_link d n m _

@[simp] theorem Dev.onCon_link (d : Dev) (n m : LinkId) (f : Contactors → Contactors) :
    (d.onCon n f).link m = if m = n then { d.link n with con := f (d.link n).con } else d.link m := Dev.onLink_link d n m _

@[simp] theorem Dev.onVeh_link (d : Dev) (n m : LinkId) (f : Vehicle → Vehicle) :
    (d.onVeh n f).link m = if m = n then { d.link n with veh := f (d.link n).veh } else d.link m := Dev.onLink_link d n m _

@[simp] theorem Dev.onProt_link (d : Dev) (n m : LinkId) (f : LinkProt → LinkProt) :
    (d.onProt n f).link m = if m = n then { d.link n with prot := f (d.link n).prot } else d.link m := Dev.onLink_link d n m _

@[simp] theorem Dev.onTag_link (d : Dev) (n m : LinkId) (f : LinkTag → LinkTag) :
    (d.onTag n f).link m = if m = n then { d.link n with tag := f (d.link n).tag } else d.link m := Dev.onLink_link d n m _

@[simp] theorem Dev.onAux_link (d : Dev) (n m : LinkId) (k : Fin 4) (f : AuxChannel → AuxChannel) :
    (d.onAux n k f).link m =
      if m = n then { d.link n with aux := (d.link n).aux.set k.1 (f ((d.link n).aux.get k)) } else d.link m :=
  Dev.onLink_link d n m _

end Sys2Proof.Machine
end

