-- ==== Sys2Proof/Laws/Registers.lean ====
section
/-! SUPPORT. The register store (R8, R13): a read after a write gives the value written, every other register keeps its
value, and every operation keeps the canonical form. -/

namespace Sys2Proof.Machine

theorem RegStore.find_filter (st : RegStore) (a b : Nat) (h : b ≠ a) :
    (st.filter fun e => e.1 != a).find? (fun e => e.1 == b) = st.find? fun e => e.1 == b := by
  induction st with
  | nil => rfl
  | cons e es ih =>
    by_cases ha : e.1 = a
    · have hb : (e.1 == b) = false := by rw [ha]; simpa using Ne.symm h
      rw [List.filter_cons_of_neg (by simp [ha]), List.find?_cons, hb]
      exact ih
    · rw [List.filter_cons_of_pos (by simp [ha]), List.find?_cons, List.find?_cons, ih]

theorem RegStore.find_filter_self (st : RegStore) (a : Nat) :
    (st.filter fun e => e.1 != a).find? (fun e => e.1 == a) = none := by
  simp [List.find?_eq_none]

theorem RegStore.find_insert (st : RegStore) (a b : Nat) (w : Word) (h : b ≠ a) :
    (RegStore.insert st a w).find? (fun e => e.1 == b) = st.find? fun e => e.1 == b := by
  have hab : (a == b) = false := by simpa using Ne.symm h
  induction st with
  | nil => simp [RegStore.insert, hab]
  | cons e es ih =>
    simp only [RegStore.insert]
    split
    · simp [List.find?_cons, hab]
    · simp only [List.find?_cons, ih]

theorem RegStore.find_insert_self (st : RegStore) (a : Nat) (w : Word)
    (h : st.find? (fun e => e.1 == a) = none) :
    (RegStore.insert st a w).find? (fun e => e.1 == a) = some (a, w) := by
  induction st with
  | nil => simp [RegStore.insert]
  | cons e es ih =>
    simp only [List.find?_cons] at h
    split at h
    · simp at h
    · rename_i hne
      simp only [RegStore.insert]
      split
      · simp
      · simp only [List.find?_cons, hne]
        exact ih h

/-- A read after a write: the value written at its address, what was there before at every other one. -/
theorem RegStore.get_set (st : RegStore) (a b : Nat) (w : Word) :
    (st.set a w).get b = if b = a then w else st.get b := by
  unfold RegStore.get RegStore.set
  by_cases hb : b = a
  · subst hb
    by_cases hw : w = regReset b
    · simp only [hw, if_pos, RegStore.find_filter_self]
    · simp only [hw, if_false, RegStore.find_insert_self _ _ _ (RegStore.find_filter_self st b), if_pos]
  · by_cases hw : w = regReset a
    · simp only [hw, if_pos, RegStore.find_filter _ _ _ hb, if_neg hb]
    · simp only [hw, if_false, RegStore.find_insert _ _ _ _ hb, RegStore.find_filter _ _ _ hb, if_neg hb]

/-- Putting a store into canonical form changes no register. -/
@[simp] theorem RegStore.get_normal (st : RegStore) (a : Nat) : (RegStore.normal st).get a = st.get a := by
  induction st with
  | nil => rfl
  | cons e es ih =>
    have : RegStore.normal (e :: es) = (RegStore.normal es).set e.1 e.2 := rfl
    rw [this, RegStore.get_set, ih]
    by_cases h : a = e.1
    · subst h; simp [RegStore.get]
    · have he : (e.1 == a) = false := by simpa using Ne.symm h
      simp [RegStore.get, he, h]

theorem RegStore.wf_cons (e : Nat × Word) (es : RegStore) :
    RegStore.wf (e :: es) = true ↔ (∀ f ∈ es, e.1 < f.1) ∧ e.2 ≠ regReset e.1 ∧ RegStore.wf es = true := by
  simp [RegStore.wf, and_assoc]

theorem RegStore.wf_filter (st : RegStore) (p : Nat × Word → Bool) (h : RegStore.wf st = true) :
    RegStore.wf (st.filter p) = true := by
  induction st with
  | nil => rfl
  | cons e es ih =>
    obtain ⟨h1, h2, h3⟩ := (RegStore.wf_cons e es).1 h
    simp only [List.filter_cons]
    split
    · exact (RegStore.wf_cons _ _).2 ⟨fun f hf => h1 f (List.mem_filter.1 hf).1, h2, ih h3⟩
    · exact ih h3

theorem RegStore.mem_insert (st : RegStore) (a : Nat) (w : Word) (x : Nat × Word)
    (h : x ∈ RegStore.insert st a w) : x = (a, w) ∨ x ∈ st := by
  induction st with
  | nil => simpa [RegStore.insert] using h
  | cons e es ih =>
    simp only [RegStore.insert] at h
    split at h
    · simpa using h
    · rcases List.mem_cons.1 h with h | h
      · exact .inr (by simp [h])
      · rcases ih h with h | h
        · exact .inl h
        · exact .inr (by simp [h])

theorem RegStore.wf_insert (st : RegStore) (a : Nat) (w : Word) (h : RegStore.wf st = true) (hw : w ≠ regReset a)
    (ha : ∀ e ∈ st, e.1 ≠ a) : RegStore.wf (RegStore.insert st a w) = true := by
  induction st with
  | nil => exact (RegStore.wf_cons _ _).2 ⟨by simp, hw, rfl⟩
  | cons e es ih =>
    obtain ⟨h1, h2, h3⟩ := (RegStore.wf_cons e es).1 h
    have hne : e.1 ≠ a := ha e (by simp)
    simp only [RegStore.insert]
    split
    · rename_i hlt
      refine (RegStore.wf_cons _ _).2 ⟨fun f hf => ?_, hw, h⟩
      rcases List.mem_cons.1 hf with hf | hf
      · simpa [hf] using hlt
      · exact lt_trans hlt (h1 f hf)
    · rename_i hge
      refine (RegStore.wf_cons _ _).2 ⟨fun f hf => ?_, h2, ih h3 fun f hf => ha f (by simp [hf])⟩
      rcases RegStore.mem_insert es a w f hf with hf | hf
      · subst hf
        exact lt_of_le_of_ne (Nat.le_of_not_lt hge) hne
      · exact h1 f hf

/-- A write keeps the canonical form. -/
theorem RegStore.wf_set (st : RegStore) (a : Nat) (w : Word) (h : RegStore.wf st = true) :
    RegStore.wf (st.set a w) = true := by
  unfold RegStore.set
  have hf := RegStore.wf_filter st (fun e => e.1 != a) h
  by_cases hw : w = regReset a
  · simpa only [hw, if_pos] using hf
  · simp only [hw, if_false]
    exact RegStore.wf_insert _ a w hf hw fun e he => by simpa using (List.mem_filter.1 he).2

/-- The canonical form is canonical. -/
theorem RegStore.wf_normal (st : RegStore) : RegStore.wf (RegStore.normal st) = true := by
  induction st with
  | nil => rfl
  | cons e es ih => exact RegStore.wf_set _ _ _ ih

/-- A register of the device after a write. -/
@[simp] theorem Dev.setReg_reg (d : Dev) (a b : Nat) (w : Word) :
    (d.setReg a w).reg b = if b = a then w else d.reg b := RegStore.get_set d.regs a b w

@[simp] theorem Dev.settled_reg (d : Dev) (b : Nat) : d.settled.reg b = d.reg b := RegStore.get_normal d.regs b

theorem Dev.settled_wf (d : Dev) : d.settled.regs.wf = true := RegStore.wf_normal d.regs

end Sys2Proof.Machine
end

