-- ==== Sys2Proof/Laws/Events.lean ====
section
/-! SUPPORT. What the operations that every chapter shares leave of the device: counters, register fields and event detail
bits touch the register store and the recorder, and nothing else. -/

namespace Sys2Proof.Machine

set_option Elab.async false

@[simp] theorem Dev.logEvent_pacer (d : Dev) (e : TickEvent) : (d.logEvent e).pacer = d.pacer := by unfold Dev.logEvent; split_ifs <;> rfl
@[simp] theorem Dev.logEvent_power (d : Dev) (e : TickEvent) : (d.logEvent e).power = d.power := by unfold Dev.logEvent; split_ifs <;> rfl
@[simp] theorem Dev.logEvent_host (d : Dev) (e : TickEvent) : (d.logEvent e).host = d.host := by unfold Dev.logEvent; split_ifs <;> rfl
@[simp] theorem Dev.logEvent_links (d : Dev) (e : TickEvent) : (d.logEvent e).links = d.links := by unfold Dev.logEvent; split_ifs <;> rfl
@[simp] theorem Dev.logEvent_tenants (d : Dev) (e : TickEvent) : (d.logEvent e).tenants = d.tenants := by unfold Dev.logEvent; split_ifs <;> rfl
@[simp] theorem Dev.logEvent_bill (d : Dev) (e : TickEvent) : (d.logEvent e).bill = d.bill := by unfold Dev.logEvent; split_ifs <;> rfl
@[simp] theorem Dev.logEvent_alloc (d : Dev) (e : TickEvent) : (d.logEvent e).alloc = d.alloc := by unfold Dev.logEvent; split_ifs <;> rfl
@[simp] theorem Dev.logEvent_prot (d : Dev) (e : TickEvent) : (d.logEvent e).prot = d.prot := by unfold Dev.logEvent; split_ifs <;> rfl
@[simp] theorem Dev.logEvent_engines (d : Dev) (e : TickEvent) : (d.logEvent e).engines = d.engines := by unfold Dev.logEvent; split_ifs <;> rfl
@[simp] theorem Dev.logEvent_svc (d : Dev) (e : TickEvent) : (d.logEvent e).svc = d.svc := by unfold Dev.logEvent; split_ifs <;> rfl
@[simp] theorem Dev.logEvent_sec (d : Dev) (e : TickEvent) : (d.logEvent e).sec = d.sec := by unfold Dev.logEvent; split_ifs <;> rfl
@[simp] theorem Dev.logEvent_grid (d : Dev) (e : TickEvent) : (d.logEvent e).grid = d.grid := by unfold Dev.logEvent; split_ifs <;> rfl
@[simp] theorem Dev.logEvent_disp (d : Dev) (e : TickEvent) : (d.logEvent e).disp = d.disp := by unfold Dev.logEvent; split_ifs <;> rfl
@[simp] theorem Dev.logEvent_scroll (d : Dev) (e : TickEvent) : (d.logEvent e).scroll = d.scroll := by unfold Dev.logEvent; split_ifs <;> rfl
@[simp] theorem Dev.logEvent_keys (d : Dev) (e : TickEvent) : (d.logEvent e).keys = d.keys := by unfold Dev.logEvent; split_ifs <;> rfl
@[simp] theorem Dev.logEvent_tpo (d : Dev) (e : TickEvent) : (d.logEvent e).tpo = d.tpo := by unfold Dev.logEvent; split_ifs <;> rfl
@[simp] theorem Dev.logEvent_s0 (d : Dev) (e : TickEvent) : (d.logEvent e).s0 = d.s0 := by unfold Dev.logEvent; split_ifs <;> rfl
@[simp] theorem Dev.logEvent_cfg (d : Dev) (e : TickEvent) : (d.logEvent e).cfg = d.cfg := by unfold Dev.logEvent; split_ifs <;> rfl
@[simp] theorem Dev.logEvent_upd (d : Dev) (e : TickEvent) : (d.logEvent e).upd = d.upd := by unfold Dev.logEvent; split_ifs <;> rfl
@[simp] theorem Dev.logEvent_mem (d : Dev) (e : TickEvent) : (d.logEvent e).mem = d.mem := by unfold Dev.logEvent; split_ifs <;> rfl
@[simp] theorem Dev.logEvent_archive (d : Dev) (e : TickEvent) : (d.logEvent e).archive = d.archive := by unfold Dev.logEvent; split_ifs <;> rfl
@[simp] theorem Dev.logEvent_locked (d : Dev) (e : TickEvent) : (d.logEvent e).locked = d.locked := by unfold Dev.logEvent; split_ifs <;> rfl
@[simp] theorem Dev.logEvent_commits (d : Dev) (e : TickEvent) : (d.logEvent e).commits = d.commits := by unfold Dev.logEvent; split_ifs <;> rfl
@[simp] theorem Dev.logEvent_fresh (d : Dev) (e : TickEvent) : (d.logEvent e).fresh = d.fresh := by unfold Dev.logEvent; split_ifs <;> rfl
@[simp] theorem Dev.logEvent_link (d : Dev) (e : TickEvent) (m : LinkId) : (d.logEvent e).link m = d.link m := by unfold Dev.link; simp
@[simp] theorem Dev.logEvent_tenant (d : Dev) (e : TickEvent) (u : TenantId) : (d.logEvent e).tenant u = d.tenant u := by unfold Dev.tenant; simp
@[simp] theorem Dev.logEvent_mode (d : Dev) (e : TickEvent) : (d.logEvent e).mode = d.mode := by unfold Dev.mode; simp
@[simp] theorem Dev.logEvent_recording (d : Dev) (e : TickEvent) : (d.logEvent e).recording = d.recording := by unfold Dev.recording Dev.mode; simp
@[simp] theorem Dev.logEvent_now (d : Dev) (e : TickEvent) : (d.logEvent e).now = d.now := by unfold Dev.now; simp
@[simp] theorem Dev.logEvent_regs (d : Dev) (e : TickEvent) : (d.logEvent e).regs = d.regs := by unfold Dev.logEvent; split_ifs <;> rfl
@[simp] theorem Dev.logEvent_reg (d : Dev) (e : TickEvent) (x : Nat) : (d.logEvent e).reg x = d.reg x := by unfold Dev.reg; simp

@[simp] theorem Dev.happen_pacer (d : Dev) (source : Nat) (arg : Word) (tn : Option TenantId) : (d.happen source arg tn).pacer = d.pacer := by unfold Dev.happen; simp
@[simp] theorem Dev.happen_power (d : Dev) (source : Nat) (arg : Word) (tn : Option TenantId) : (d.happen source arg tn).power = d.power := by unfold Dev.happen; simp
@[simp] theorem Dev.happen_host (d : Dev) (source : Nat) (arg : Word) (tn : Option TenantId) : (d.happen source arg tn).host = d.host := by unfold Dev.happen; simp
@[simp] theorem Dev.happen_links (d : Dev) (source : Nat) (arg : Word) (tn : Option TenantId) : (d.happen source arg tn).links = d.links := by unfold Dev.happen; simp
@[simp] theorem Dev.happen_tenants (d : Dev) (source : Nat) (arg : Word) (tn : Option TenantId) : (d.happen source arg tn).tenants = d.tenants := by unfold Dev.happen; simp
@[simp] theorem Dev.happen_bill (d : Dev) (source : Nat) (arg : Word) (tn : Option TenantId) : (d.happen source arg tn).bill = d.bill := by unfold Dev.happen; simp
@[simp] theorem Dev.happen_alloc (d : Dev) (source : Nat) (arg : Word) (tn : Option TenantId) : (d.happen source arg tn).alloc = d.alloc := by unfold Dev.happen; simp
@[simp] theorem Dev.happen_prot (d : Dev) (source : Nat) (arg : Word) (tn : Option TenantId) : (d.happen source arg tn).prot = d.prot := by unfold Dev.happen; simp
@[simp] theorem Dev.happen_engines (d : Dev) (source : Nat) (arg : Word) (tn : Option TenantId) : (d.happen source arg tn).engines = d.engines := by unfold Dev.happen; simp
@[simp] theorem Dev.happen_svc (d : Dev) (source : Nat) (arg : Word) (tn : Option TenantId) : (d.happen source arg tn).svc = d.svc := by unfold Dev.happen; simp
@[simp] theorem Dev.happen_sec (d : Dev) (source : Nat) (arg : Word) (tn : Option TenantId) : (d.happen source arg tn).sec = d.sec := by unfold Dev.happen; simp
@[simp] theorem Dev.happen_grid (d : Dev) (source : Nat) (arg : Word) (tn : Option TenantId) : (d.happen source arg tn).grid = d.grid := by unfold Dev.happen; simp
@[simp] theorem Dev.happen_disp (d : Dev) (source : Nat) (arg : Word) (tn : Option TenantId) : (d.happen source arg tn).disp = d.disp := by unfold Dev.happen; simp
@[simp] theorem Dev.happen_scroll (d : Dev) (source : Nat) (arg : Word) (tn : Option TenantId) : (d.happen source arg tn).scroll = d.scroll := by unfold Dev.happen; simp
@[simp] theorem Dev.happen_keys (d : Dev) (source : Nat) (arg : Word) (tn : Option TenantId) : (d.happen source arg tn).keys = d.keys := by unfold Dev.happen; simp
@[simp] theorem Dev.happen_tpo (d : Dev) (source : Nat) (arg : Word) (tn : Option TenantId) : (d.happen source arg tn).tpo = d.tpo := by unfold Dev.happen; simp
@[simp] theorem Dev.happen_s0 (d : Dev) (source : Nat) (arg : Word) (tn : Option TenantId) : (d.happen source arg tn).s0 = d.s0 := by unfold Dev.happen; simp
@[simp] theorem Dev.happen_cfg (d : Dev) (source : Nat) (arg : Word) (tn : Option TenantId) : (d.happen source arg tn).cfg = d.cfg := by unfold Dev.happen; simp
@[simp] theorem Dev.happen_upd (d : Dev) (source : Nat) (arg : Word) (tn : Option TenantId) : (d.happen source arg tn).upd = d.upd := by unfold Dev.happen; simp
@[simp] theorem Dev.happen_mem (d : Dev) (source : Nat) (arg : Word) (tn : Option TenantId) : (d.happen source arg tn).mem = d.mem := by unfold Dev.happen; simp
@[simp] theorem Dev.happen_archive (d : Dev) (source : Nat) (arg : Word) (tn : Option TenantId) : (d.happen source arg tn).archive = d.archive := by unfold Dev.happen; simp
@[simp] theorem Dev.happen_locked (d : Dev) (source : Nat) (arg : Word) (tn : Option TenantId) : (d.happen source arg tn).locked = d.locked := by unfold Dev.happen; simp
@[simp] theorem Dev.happen_commits (d : Dev) (source : Nat) (arg : Word) (tn : Option TenantId) : (d.happen source arg tn).commits = d.commits := by unfold Dev.happen; simp
@[simp] theorem Dev.happen_fresh (d : Dev) (source : Nat) (arg : Word) (tn : Option TenantId) : (d.happen source arg tn).fresh = d.fresh := by unfold Dev.happen; simp
@[simp] theorem Dev.happen_link (d : Dev) (source : Nat) (arg : Word) (tn : Option TenantId) (m : LinkId) : (d.happen source arg tn).link m = d.link m := by unfold Dev.link; simp
@[simp] theorem Dev.happen_tenant (d : Dev) (source : Nat) (arg : Word) (tn : Option TenantId) (u : TenantId) : (d.happen source arg tn).tenant u = d.tenant u := by unfold Dev.tenant; simp
@[simp] theorem Dev.happen_mode (d : Dev) (source : Nat) (arg : Word) (tn : Option TenantId) : (d.happen source arg tn).mode = d.mode := by unfold Dev.mode; simp
@[simp] theorem Dev.happen_recording (d : Dev) (source : Nat) (arg : Word) (tn : Option TenantId) : (d.happen source arg tn).recording = d.recording := by unfold Dev.recording Dev.mode; simp
@[simp] theorem Dev.happen_now (d : Dev) (source : Nat) (arg : Word) (tn : Option TenantId) : (d.happen source arg tn).now = d.now := by unfold Dev.now; simp
@[simp] theorem Dev.happen_regs (d : Dev) (source : Nat) (arg : Word) (tn : Option TenantId) : (d.happen source arg tn).regs = d.regs := by unfold Dev.happen; simp
@[simp] theorem Dev.happen_reg (d : Dev) (source : Nat) (arg : Word) (tn : Option TenantId) (x : Nat) : (d.happen source arg tn).reg x = d.reg x := by unfold Dev.reg; simp

@[simp] theorem Dev.raise_pacer (d : Dev) (e : EvReg) (b : Nat) (arg : Word) (tn : Option TenantId) : (d.raise e b arg tn).pacer = d.pacer := by unfold Dev.raise; dsimp only; split <;> simp
@[simp] theorem Dev.raise_power (d : Dev) (e : EvReg) (b : Nat) (arg : Word) (tn : Option TenantId) : (d.raise e b arg tn).power = d.power := by unfold Dev.raise; dsimp only; split <;> simp
@[simp] theorem Dev.raise_host (d : Dev) (e : EvReg) (b : Nat) (arg : Word) (tn : Option TenantId) : (d.raise e b arg tn).host = d.host := by unfold Dev.raise; dsimp only; split <;> simp
@[simp] theorem Dev.raise_links (d : Dev) (e : EvReg) (b : Nat) (arg : Word) (tn : Option TenantId) : (d.raise e b arg tn).links = d.links := by unfold Dev.raise; dsimp only; split <;> simp
@[simp] theorem Dev.raise_tenants (d : Dev) (e : EvReg) (b : Nat) (arg : Word) (tn : Option TenantId) : (d.raise e b arg tn).tenants = d.tenants := by unfold Dev.raise; dsimp only; split <;> simp
@[simp] theorem Dev.raise_bill (d : Dev) (e : EvReg) (b : Nat) (arg : Word) (tn : Option TenantId) : (d.raise e b arg tn).bill = d.bill := by unfold Dev.raise; dsimp only; split <;> simp
@[simp] theorem Dev.raise_alloc (d : Dev) (e : EvReg) (b : Nat) (arg : Word) (tn : Option TenantId) : (d.raise e b arg tn).alloc = d.alloc := by unfold Dev.raise; dsimp only; split <;> simp
@[simp] theorem Dev.raise_prot (d : Dev) (e : EvReg) (b : Nat) (arg : Word) (tn : Option TenantId) : (d.raise e b arg tn).prot = d.prot := by unfold Dev.raise; dsimp only; split <;> simp
@[simp] theorem Dev.raise_engines (d : Dev) (e : EvReg) (b : Nat) (arg : Word) (tn : Option TenantId) : (d.raise e b arg tn).engines = d.engines := by unfold Dev.raise; dsimp only; split <;> simp
@[simp] theorem Dev.raise_svc (d : Dev) (e : EvReg) (b : Nat) (arg : Word) (tn : Option TenantId) : (d.raise e b arg tn).svc = d.svc := by unfold Dev.raise; dsimp only; split <;> simp
@[simp] theorem Dev.raise_sec (d : Dev) (e : EvReg) (b : Nat) (arg : Word) (tn : Option TenantId) : (d.raise e b arg tn).sec = d.sec := by unfold Dev.raise; dsimp only; split <;> simp
@[simp] theorem Dev.raise_grid (d : Dev) (e : EvReg) (b : Nat) (arg : Word) (tn : Option TenantId) : (d.raise e b arg tn).grid = d.grid := by unfold Dev.raise; dsimp only; split <;> simp
@[simp] theorem Dev.raise_disp (d : Dev) (e : EvReg) (b : Nat) (arg : Word) (tn : Option TenantId) : (d.raise e b arg tn).disp = d.disp := by unfold Dev.raise; dsimp only; split <;> simp
@[simp] theorem Dev.raise_scroll (d : Dev) (e : EvReg) (b : Nat) (arg : Word) (tn : Option TenantId) : (d.raise e b arg tn).scroll = d.scroll := by unfold Dev.raise; dsimp only; split <;> simp
@[simp] theorem Dev.raise_keys (d : Dev) (e : EvReg) (b : Nat) (arg : Word) (tn : Option TenantId) : (d.raise e b arg tn).keys = d.keys := by unfold Dev.raise; dsimp only; split <;> simp
@[simp] theorem Dev.raise_tpo (d : Dev) (e : EvReg) (b : Nat) (arg : Word) (tn : Option TenantId) : (d.raise e b arg tn).tpo = d.tpo := by unfold Dev.raise; dsimp only; split <;> simp
@[simp] theorem Dev.raise_s0 (d : Dev) (e : EvReg) (b : Nat) (arg : Word) (tn : Option TenantId) : (d.raise e b arg tn).s0 = d.s0 := by unfold Dev.raise; dsimp only; split <;> simp
@[simp] theorem Dev.raise_cfg (d : Dev) (e : EvReg) (b : Nat) (arg : Word) (tn : Option TenantId) : (d.raise e b arg tn).cfg = d.cfg := by unfold Dev.raise; dsimp only; split <;> simp
@[simp] theorem Dev.raise_upd (d : Dev) (e : EvReg) (b : Nat) (arg : Word) (tn : Option TenantId) : (d.raise e b arg tn).upd = d.upd := by unfold Dev.raise; dsimp only; split <;> simp
@[simp] theorem Dev.raise_mem (d : Dev) (e : EvReg) (b : Nat) (arg : Word) (tn : Option TenantId) : (d.raise e b arg tn).mem = d.mem := by unfold Dev.raise; dsimp only; split <;> simp
@[simp] theorem Dev.raise_archive (d : Dev) (e : EvReg) (b : Nat) (arg : Word) (tn : Option TenantId) : (d.raise e b arg tn).archive = d.archive := by unfold Dev.raise; dsimp only; split <;> simp
@[simp] theorem Dev.raise_locked (d : Dev) (e : EvReg) (b : Nat) (arg : Word) (tn : Option TenantId) : (d.raise e b arg tn).locked = d.locked := by unfold Dev.raise; dsimp only; split <;> simp
@[simp] theorem Dev.raise_commits (d : Dev) (e : EvReg) (b : Nat) (arg : Word) (tn : Option TenantId) : (d.raise e b arg tn).commits = d.commits := by unfold Dev.raise; dsimp only; split <;> simp
@[simp] theorem Dev.raise_fresh (d : Dev) (e : EvReg) (b : Nat) (arg : Word) (tn : Option TenantId) : (d.raise e b arg tn).fresh = d.fresh := by unfold Dev.raise; dsimp only; split <;> simp
@[simp] theorem Dev.raise_link (d : Dev) (e : EvReg) (b : Nat) (arg : Word) (tn : Option TenantId) (m : LinkId) : (d.raise e b arg tn).link m = d.link m := by unfold Dev.link; simp
@[simp] theorem Dev.raise_tenant (d : Dev) (e : EvReg) (b : Nat) (arg : Word) (tn : Option TenantId) (u : TenantId) : (d.raise e b arg tn).tenant u = d.tenant u := by unfold Dev.tenant; simp
@[simp] theorem Dev.raise_mode (d : Dev) (e : EvReg) (b : Nat) (arg : Word) (tn : Option TenantId) : (d.raise e b arg tn).mode = d.mode := by unfold Dev.mode; simp
@[simp] theorem Dev.raise_recording (d : Dev) (e : EvReg) (b : Nat) (arg : Word) (tn : Option TenantId) : (d.raise e b arg tn).recording = d.recording := by unfold Dev.recording Dev.mode; simp
@[simp] theorem Dev.raise_now (d : Dev) (e : EvReg) (b : Nat) (arg : Word) (tn : Option TenantId) : (d.raise e b arg tn).now = d.now := by unfold Dev.now; simp

@[simp] theorem Dev.raiseAlways_pacer (d : Dev) (e : EvReg) (b : Nat) (arg : Word) (tn : Option TenantId) : (d.raiseAlways e b arg tn).pacer = d.pacer := by unfold Dev.raiseAlways; split <;> simp
@[simp] theorem Dev.raiseAlways_power (d : Dev) (e : EvReg) (b : Nat) (arg : Word) (tn : Option TenantId) : (d.raiseAlways e b arg tn).power = d.power := by unfold Dev.raiseAlways; split <;> simp
@[simp] theorem Dev.raiseAlways_host (d : Dev) (e : EvReg) (b : Nat) (arg : Word) (tn : Option TenantId) : (d.raiseAlways e b arg tn).host = d.host := by unfold Dev.raiseAlways; split <;> simp
@[simp] theorem Dev.raiseAlways_links (d : Dev) (e : EvReg) (b : Nat) (arg : Word) (tn : Option TenantId) : (d.raiseAlways e b arg tn).links = d.links := by unfold Dev.raiseAlways; split <;> simp
@[simp] theorem Dev.raiseAlways_tenants (d : Dev) (e : EvReg) (b : Nat) (arg : Word) (tn : Option TenantId) : (d.raiseAlways e b arg tn).tenants = d.tenants := by unfold Dev.raiseAlways; split <;> simp
@[simp] theorem Dev.raiseAlways_bill (d : Dev) (e : EvReg) (b : Nat) (arg : Word) (tn : Option TenantId) : (d.raiseAlways e b arg tn).bill = d.bill := by unfold Dev.raiseAlways; split <;> simp
@[simp] theorem Dev.raiseAlways_alloc (d : Dev) (e : EvReg) (b : Nat) (arg : Word) (tn : Option TenantId) : (d.raiseAlways e b arg tn).alloc = d.alloc := by unfold Dev.raiseAlways; split <;> simp
@[simp] theorem Dev.raiseAlways_prot (d : Dev) (e : EvReg) (b : Nat) (arg : Word) (tn : Option TenantId) : (d.raiseAlways e b arg tn).prot = d.prot := by unfold Dev.raiseAlways; split <;> simp
@[simp] theorem Dev.raiseAlways_engines (d : Dev) (e : EvReg) (b : Nat) (arg : Word) (tn : Option TenantId) : (d.raiseAlways e b arg tn).engines = d.engines := by unfold Dev.raiseAlways; split <;> simp
@[simp] theorem Dev.raiseAlways_svc (d : Dev) (e : EvReg) (b : Nat) (arg : Word) (tn : Option TenantId) : (d.raiseAlways e b arg tn).svc = d.svc := by unfold Dev.raiseAlways; split <;> simp
@[simp] theorem Dev.raiseAlways_sec (d : Dev) (e : EvReg) (b : Nat) (arg : Word) (tn : Option TenantId) : (d.raiseAlways e b arg tn).sec = d.sec := by unfold Dev.raiseAlways; split <;> simp
@[simp] theorem Dev.raiseAlways_grid (d : Dev) (e : EvReg) (b : Nat) (arg : Word) (tn : Option TenantId) : (d.raiseAlways e b arg tn).grid = d.grid := by unfold Dev.raiseAlways; split <;> simp
@[simp] theorem Dev.raiseAlways_disp (d : Dev) (e : EvReg) (b : Nat) (arg : Word) (tn : Option TenantId) : (d.raiseAlways e b arg tn).disp = d.disp := by unfold Dev.raiseAlways; split <;> simp
@[simp] theorem Dev.raiseAlways_scroll (d : Dev) (e : EvReg) (b : Nat) (arg : Word) (tn : Option TenantId) : (d.raiseAlways e b arg tn).scroll = d.scroll := by unfold Dev.raiseAlways; split <;> simp
@[simp] theorem Dev.raiseAlways_keys (d : Dev) (e : EvReg) (b : Nat) (arg : Word) (tn : Option TenantId) : (d.raiseAlways e b arg tn).keys = d.keys := by unfold Dev.raiseAlways; split <;> simp
@[simp] theorem Dev.raiseAlways_tpo (d : Dev) (e : EvReg) (b : Nat) (arg : Word) (tn : Option TenantId) : (d.raiseAlways e b arg tn).tpo = d.tpo := by unfold Dev.raiseAlways; split <;> simp
@[simp] theorem Dev.raiseAlways_s0 (d : Dev) (e : EvReg) (b : Nat) (arg : Word) (tn : Option TenantId) : (d.raiseAlways e b arg tn).s0 = d.s0 := by unfold Dev.raiseAlways; split <;> simp
@[simp] theorem Dev.raiseAlways_cfg (d : Dev) (e : EvReg) (b : Nat) (arg : Word) (tn : Option TenantId) : (d.raiseAlways e b arg tn).cfg = d.cfg := by unfold Dev.raiseAlways; split <;> simp
@[simp] theorem Dev.raiseAlways_upd (d : Dev) (e : EvReg) (b : Nat) (arg : Word) (tn : Option TenantId) : (d.raiseAlways e b arg tn).upd = d.upd := by unfold Dev.raiseAlways; split <;> simp
@[simp] theorem Dev.raiseAlways_mem (d : Dev) (e : EvReg) (b : Nat) (arg : Word) (tn : Option TenantId) : (d.raiseAlways e b arg tn).mem = d.mem := by unfold Dev.raiseAlways; split <;> simp
@[simp] theorem Dev.raiseAlways_archive (d : Dev) (e : EvReg) (b : Nat) (arg : Word) (tn : Option TenantId) : (d.raiseAlways e b arg tn).archive = d.archive := by unfold Dev.raiseAlways; split <;> simp
@[simp] theorem Dev.raiseAlways_locked (d : Dev) (e : EvReg) (b : Nat) (arg : Word) (tn : Option TenantId) : (d.raiseAlways e b arg tn).locked = d.locked := by unfold Dev.raiseAlways; split <;> simp
@[simp] theorem Dev.raiseAlways_commits (d : Dev) (e : EvReg) (b : Nat) (arg : Word) (tn : Option TenantId) : (d.raiseAlways e b arg tn).commits = d.commits := by unfold Dev.raiseAlways; split <;> simp
@[simp] theorem Dev.raiseAlways_fresh (d : Dev) (e : EvReg) (b : Nat) (arg : Word) (tn : Option TenantId) : (d.raiseAlways e b arg tn).fresh = d.fresh := by unfold Dev.raiseAlways; split <;> simp
@[simp] theorem Dev.raiseAlways_link (d : Dev) (e : EvReg) (b : Nat) (arg : Word) (tn : Option TenantId) (m : LinkId) : (d.raiseAlways e b arg tn).link m = d.link m := by unfold Dev.link; simp
@[simp] theorem Dev.raiseAlways_tenant (d : Dev) (e : EvReg) (b : Nat) (arg : Word) (tn : Option TenantId) (u : TenantId) : (d.raiseAlways e b arg tn).tenant u = d.tenant u := by unfold Dev.tenant; simp
@[simp] theorem Dev.raiseAlways_mode (d : Dev) (e : EvReg) (b : Nat) (arg : Word) (tn : Option TenantId) : (d.raiseAlways e b arg tn).mode = d.mode := by unfold Dev.mode; simp
@[simp] theorem Dev.raiseAlways_recording (d : Dev) (e : EvReg) (b : Nat) (arg : Word) (tn : Option TenantId) : (d.raiseAlways e b arg tn).recording = d.recording := by unfold Dev.recording Dev.mode; simp
@[simp] theorem Dev.raiseAlways_now (d : Dev) (e : EvReg) (b : Nat) (arg : Word) (tn : Option TenantId) : (d.raiseAlways e b arg tn).now = d.now := by unfold Dev.now; simp

@[simp] theorem Dev.raiseIf_pacer (d : Dev) (c : Bool) (e : EvReg) (b : Nat) (arg : Word) : (d.raiseIf c e b arg).pacer = d.pacer := by unfold Dev.raiseIf; split <;> simp
@[simp] theorem Dev.raiseIf_power (d : Dev) (c : Bool) (e : EvReg) (b : Nat) (arg : Word) : (d.raiseIf c e b arg).power = d.power := by unfold Dev.raiseIf; split <;> simp
@[simp] theorem Dev.raiseIf_host (d : Dev) (c : Bool) (e : EvReg) (b : Nat) (arg : Word) : (d.raiseIf c e b arg).host = d.host := by unfold Dev.raiseIf; split <;> simp
@[simp] theorem Dev.raiseIf_links (d : Dev) (c : Bool) (e : EvReg) (b : Nat) (arg : Word) : (d.raiseIf c e b arg).links = d.links := by unfold Dev.raiseIf; split <;> simp
@[simp] theorem Dev.raiseIf_tenants (d : Dev) (c : Bool) (e : EvReg) (b : Nat) (arg : Word) : (d.raiseIf c e b arg).tenants = d.tenants := by unfold Dev.raiseIf; split <;> simp
@[simp] theorem Dev.raiseIf_bill (d : Dev) (c : Bool) (e : EvReg) (b : Nat) (arg : Word) : (d.raiseIf c e b arg).bill = d.bill := by unfold Dev.raiseIf; split <;> simp
@[simp] theorem Dev.raiseIf_alloc (d : Dev) (c : Bool) (e : EvReg) (b : Nat) (arg : Word) : (d.raiseIf c e b arg).alloc = d.alloc := by unfold Dev.raiseIf; split <;> simp
@[simp] theorem Dev.raiseIf_prot (d : Dev) (c : Bool) (e : EvReg) (b : Nat) (arg : Word) : (d.raiseIf c e b arg).prot = d.prot := by unfold Dev.raiseIf; split <;> simp
@[simp] theorem Dev.raiseIf_engines (d : Dev) (c : Bool) (e : EvReg) (b : Nat) (arg : Word) : (d.raiseIf c e b arg).engines = d.engines := by unfold Dev.raiseIf; split <;> simp
@[simp] theorem Dev.raiseIf_svc (d : Dev) (c : Bool) (e : EvReg) (b : Nat) (arg : Word) : (d.raiseIf c e b arg).svc = d.svc := by unfold Dev.raiseIf; split <;> simp
@[simp] theorem Dev.raiseIf_sec (d : Dev) (c : Bool) (e : EvReg) (b : Nat) (arg : Word) : (d.raiseIf c e b arg).sec = d.sec := by unfold Dev.raiseIf; split <;> simp
@[simp] theorem Dev.raiseIf_grid (d : Dev) (c : Bool) (e : EvReg) (b : Nat) (arg : Word) : (d.raiseIf c e b arg).grid = d.grid := by unfold Dev.raiseIf; split <;> simp
@[simp] theorem Dev.raiseIf_disp (d : Dev) (c : Bool) (e : EvReg) (b : Nat) (arg : Word) : (d.raiseIf c e b arg).disp = d.disp := by unfold Dev.raiseIf; split <;> simp
@[simp] theorem Dev.raiseIf_scroll (d : Dev) (c : Bool) (e : EvReg) (b : Nat) (arg : Word) : (d.raiseIf c e b arg).scroll = d.scroll := by unfold Dev.raiseIf; split <;> simp
@[simp] theorem Dev.raiseIf_keys (d : Dev) (c : Bool) (e : EvReg) (b : Nat) (arg : Word) : (d.raiseIf c e b arg).keys = d.keys := by unfold Dev.raiseIf; split <;> simp
@[simp] theorem Dev.raiseIf_tpo (d : Dev) (c : Bool) (e : EvReg) (b : Nat) (arg : Word) : (d.raiseIf c e b arg).tpo = d.tpo := by unfold Dev.raiseIf; split <;> simp
@[simp] theorem Dev.raiseIf_s0 (d : Dev) (c : Bool) (e : EvReg) (b : Nat) (arg : Word) : (d.raiseIf c e b arg).s0 = d.s0 := by unfold Dev.raiseIf; split <;> simp
@[simp] theorem Dev.raiseIf_cfg (d : Dev) (c : Bool) (e : EvReg) (b : Nat) (arg : Word) : (d.raiseIf c e b arg).cfg = d.cfg := by unfold Dev.raiseIf; split <;> simp
@[simp] theorem Dev.raiseIf_upd (d : Dev) (c : Bool) (e : EvReg) (b : Nat) (arg : Word) : (d.raiseIf c e b arg).upd = d.upd := by unfold Dev.raiseIf; split <;> simp
@[simp] theorem Dev.raiseIf_mem (d : Dev) (c : Bool) (e : EvReg) (b : Nat) (arg : Word) : (d.raiseIf c e b arg).mem = d.mem := by unfold Dev.raiseIf; split <;> simp
@[simp] theorem Dev.raiseIf_archive (d : Dev) (c : Bool) (e : EvReg) (b : Nat) (arg : Word) : (d.raiseIf c e b arg).archive = d.archive := by unfold Dev.raiseIf; split <;> simp
@[simp] theorem Dev.raiseIf_locked (d : Dev) (c : Bool) (e : EvReg) (b : Nat) (arg : Word) : (d.raiseIf c e b arg).locked = d.locked := by unfold Dev.raiseIf; split <;> simp
@[simp] theorem Dev.raiseIf_commits (d : Dev) (c : Bool) (e : EvReg) (b : Nat) (arg : Word) : (d.raiseIf c e b arg).commits = d.commits := by unfold Dev.raiseIf; split <;> simp
@[simp] theorem Dev.raiseIf_fresh (d : Dev) (c : Bool) (e : EvReg) (b : Nat) (arg : Word) : (d.raiseIf c e b arg).fresh = d.fresh := by unfold Dev.raiseIf; split <;> simp
@[simp] theorem Dev.raiseIf_link (d : Dev) (c : Bool) (e : EvReg) (b : Nat) (arg : Word) (m : LinkId) : (d.raiseIf c e b arg).link m = d.link m := by unfold Dev.link; simp
@[simp] theorem Dev.raiseIf_tenant (d : Dev) (c : Bool) (e : EvReg) (b : Nat) (arg : Word) (u : TenantId) : (d.raiseIf c e b arg).tenant u = d.tenant u := by unfold Dev.tenant; simp
@[simp] theorem Dev.raiseIf_mode (d : Dev) (c : Bool) (e : EvReg) (b : Nat) (arg : Word) : (d.raiseIf c e b arg).mode = d.mode := by unfold Dev.mode; simp
@[simp] theorem Dev.raiseIf_recording (d : Dev) (c : Bool) (e : EvReg) (b : Nat) (arg : Word) : (d.raiseIf c e b arg).recording = d.recording := by unfold Dev.recording Dev.mode; simp
@[simp] theorem Dev.raiseIf_now (d : Dev) (c : Bool) (e : EvReg) (b : Nat) (arg : Word) : (d.raiseIf c e b arg).now = d.now := by unfold Dev.now; simp

@[simp] theorem Dev.count_pacer (d : Dev) (a n : Nat) : (d.count a n).pacer = d.pacer := by unfold Dev.count; simp
@[simp] theorem Dev.count_power (d : Dev) (a n : Nat) : (d.count a n).power = d.power := by unfold Dev.count; simp
@[simp] theorem Dev.count_host (d : Dev) (a n : Nat) : (d.count a n).host = d.host := by unfold Dev.count; simp
@[simp] theorem Dev.count_links (d : Dev) (a n : Nat) : (d.count a n).links = d.links := by unfold Dev.count; simp
@[simp] theorem Dev.count_tenants (d : Dev) (a n : Nat) : (d.count a n).tenants = d.tenants := by unfold Dev.count; simp
@[simp] theorem Dev.count_bill (d : Dev) (a n : Nat) : (d.count a n).bill = d.bill := by unfold Dev.count; simp
@[simp] theorem Dev.count_alloc (d : Dev) (a n : Nat) : (d.count a n).alloc = d.alloc := by unfold Dev.count; simp
@[simp] theorem Dev.count_prot (d : Dev) (a n : Nat) : (d.count a n).prot = d.prot := by unfold Dev.count; simp
@[simp] theorem Dev.count_engines (d : Dev) (a n : Nat) : (d.count a n).engines = d.engines := by unfold Dev.count; simp
@[simp] theorem Dev.count_svc (d : Dev) (a n : Nat) : (d.count a n).svc = d.svc := by unfold Dev.count; simp
@[simp] theorem Dev.count_sec (d : Dev) (a n : Nat) : (d.count a n).sec = d.sec := by unfold Dev.count; simp
@[simp] theorem Dev.count_grid (d : Dev) (a n : Nat) : (d.count a n).grid = d.grid := by unfold Dev.count; simp
@[simp] theorem Dev.count_disp (d : Dev) (a n : Nat) : (d.count a n).disp = d.disp := by unfold Dev.count; simp
@[simp] theorem Dev.count_scroll (d : Dev) (a n : Nat) : (d.count a n).scroll = d.scroll := by unfold Dev.count; simp
@[simp] theorem Dev.count_keys (d : Dev) (a n : Nat) : (d.count a n).keys = d.keys := by unfold Dev.count; simp
@[simp] theorem Dev.count_tpo (d : Dev) (a n : Nat) : (d.count a n).tpo = d.tpo := by unfold Dev.count; simp
@[simp] theorem Dev.count_s0 (d : Dev) (a n : Nat) : (d.count a n).s0 = d.s0 := by unfold Dev.count; simp
@[simp] theorem Dev.count_cfg (d : Dev) (a n : Nat) : (d.count a n).cfg = d.cfg := by unfold Dev.count; simp
@[simp] theorem Dev.count_upd (d : Dev) (a n : Nat) : (d.count a n).upd = d.upd := by unfold Dev.count; simp
@[simp] theorem Dev.count_recorder (d : Dev) (a n : Nat) : (d.count a n).recorder = d.recorder := by unfold Dev.count; simp
@[simp] theorem Dev.count_mem (d : Dev) (a n : Nat) : (d.count a n).mem = d.mem := by unfold Dev.count; simp
@[simp] theorem Dev.count_archive (d : Dev) (a n : Nat) : (d.count a n).archive = d.archive := by unfold Dev.count; simp
@[simp] theorem Dev.count_locked (d : Dev) (a n : Nat) : (d.count a n).locked = d.locked := by unfold Dev.count; simp
@[simp] theorem Dev.count_commits (d : Dev) (a n : Nat) : (d.count a n).commits = d.commits := by unfold Dev.count; simp
@[simp] theorem Dev.count_fresh (d : Dev) (a n : Nat) : (d.count a n).fresh = d.fresh := by unfold Dev.count; simp
@[simp] theorem Dev.count_link (d : Dev) (a n : Nat) (m : LinkId) : (d.count a n).link m = d.link m := by unfold Dev.count; simp
@[simp] theorem Dev.count_tenant (d : Dev) (a n : Nat) (u : TenantId) : (d.count a n).tenant u = d.tenant u := by unfold Dev.count; simp
@[simp] theorem Dev.count_mode (d : Dev) (a n : Nat) : (d.count a n).mode = d.mode := by unfold Dev.count; simp
@[simp] theorem Dev.count_recording (d : Dev) (a n : Nat) : (d.count a n).recording = d.recording := by unfold Dev.count; simp
@[simp] theorem Dev.count_now (d : Dev) (a n : Nat) : (d.count a n).now = d.now := by unfold Dev.count; simp

@[simp] theorem Dev.setField_pacer (d : Dev) (a lo w v : Nat) : (d.setField a lo w v).pacer = d.pacer := by unfold Dev.setField; simp
@[simp] theorem Dev.setField_power (d : Dev) (a lo w v : Nat) : (d.setField a lo w v).power = d.power := by unfold Dev.setField; simp
@[simp] theorem Dev.setField_host (d : Dev) (a lo w v : Nat) : (d.setField a lo w v).host = d.host := by unfold Dev.setField; simp
@[simp] theorem Dev.setField_links (d : Dev) (a lo w v : Nat) : (d.setField a lo w v).links = d.links := by unfold Dev.setField; simp
@[simp] theorem Dev.setField_tenants (d : Dev) (a lo w v : Nat) : (d.setField a lo w v).tenants = d.tenants := by unfold Dev.setField; simp
@[simp] theorem Dev.setField_bill (d : Dev) (a lo w v : Nat) : (d.setField a lo w v).bill = d.bill := by unfold Dev.setField; simp
@[simp] theorem Dev.setField_alloc (d : Dev) (a lo w v : Nat) : (d.setField a lo w v).alloc = d.alloc := by unfold Dev.setField; simp
@[simp] theorem Dev.setField_prot (d : Dev) (a lo w v : Nat) : (d.setField a lo w v).prot = d.prot := by unfold Dev.setField; simp
@[simp] theorem Dev.setField_engines (d : Dev) (a lo w v : Nat) : (d.setField a lo w v).engines = d.engines := by unfold Dev.setField; simp
@[simp] theorem Dev.setField_svc (d : Dev) (a lo w v : Nat) : (d.setField a lo w v).svc = d.svc := by unfold Dev.setField; simp
@[simp] theorem Dev.setField_sec (d : Dev) (a lo w v : Nat) : (d.setField a lo w v).sec = d.sec := by unfold Dev.setField; simp
@[simp] theorem Dev.setField_grid (d : Dev) (a lo w v : Nat) : (d.setField a lo w v).grid = d.grid := by unfold Dev.setField; simp
@[simp] theorem Dev.setField_disp (d : Dev) (a lo w v : Nat) : (d.setField a lo w v).disp = d.disp := by unfold Dev.setField; simp
@[simp] theorem Dev.setField_scroll (d : Dev) (a lo w v : Nat) : (d.setField a lo w v).scroll = d.scroll := by unfold Dev.setField; simp
@[simp] theorem Dev.setField_keys (d : Dev) (a lo w v : Nat) : (d.setField a lo w v).keys = d.keys := by unfold Dev.setField; simp
@[simp] theorem Dev.setField_tpo (d : Dev) (a lo w v : Nat) : (d.setField a lo w v).tpo = d.tpo := by unfold Dev.setField; simp
@[simp] theorem Dev.setField_s0 (d : Dev) (a lo w v : Nat) : (d.setField a lo w v).s0 = d.s0 := by unfold Dev.setField; simp
@[simp] theorem Dev.setField_cfg (d : Dev) (a lo w v : Nat) : (d.setField a lo w v).cfg = d.cfg := by unfold Dev.setField; simp
@[simp] theorem Dev.setField_upd (d : Dev) (a lo w v : Nat) : (d.setField a lo w v).upd = d.upd := by unfold Dev.setField; simp
@[simp] theorem Dev.setField_recorder (d : Dev) (a lo w v : Nat) : (d.setField a lo w v).recorder = d.recorder := by unfold Dev.setField; simp
@[simp] theorem Dev.setField_mem (d : Dev) (a lo w v : Nat) : (d.setField a lo w v).mem = d.mem := by unfold Dev.setField; simp
@[simp] theorem Dev.setField_archive (d : Dev) (a lo w v : Nat) : (d.setField a lo w v).archive = d.archive := by unfold Dev.setField; simp
@[simp] theorem Dev.setField_locked (d : Dev) (a lo w v : Nat) : (d.setField a lo w v).locked = d.locked := by unfold Dev.setField; simp
@[simp] theorem Dev.setField_commits (d : Dev) (a lo w v : Nat) : (d.setField a lo w v).commits = d.commits := by unfold Dev.setField; simp
@[simp] theorem Dev.setField_fresh (d : Dev) (a lo w v : Nat) : (d.setField a lo w v).fresh = d.fresh := by unfold Dev.setField; simp
@[simp] theorem Dev.setField_link (d : Dev) (a lo w v : Nat) (m : LinkId) : (d.setField a lo w v).link m = d.link m := by unfold Dev.setField; simp
@[simp] theorem Dev.setField_tenant (d : Dev) (a lo w v : Nat) (u : TenantId) : (d.setField a lo w v).tenant u = d.tenant u := by unfold Dev.setField; simp
@[simp] theorem Dev.setField_mode (d : Dev) (a lo w v : Nat) : (d.setField a lo w v).mode = d.mode := by unfold Dev.setField; simp
@[simp] theorem Dev.setField_recording (d : Dev) (a lo w v : Nat) : (d.setField a lo w v).recording = d.recording := by unfold Dev.setField; simp
@[simp] theorem Dev.setField_now (d : Dev) (a lo w v : Nat) : (d.setField a lo w v).now = d.now := by unfold Dev.setField; simp

@[simp] theorem Dev.countField_pacer (d : Dev) (a lo w n : Nat) : (d.countField a lo w n).pacer = d.pacer := by unfold Dev.countField; simp
@[simp] theorem Dev.countField_power (d : Dev) (a lo w n : Nat) : (d.countField a lo w n).power = d.power := by unfold Dev.countField; simp
@[simp] theorem Dev.countField_host (d : Dev) (a lo w n : Nat) : (d.countField a lo w n).host = d.host := by unfold Dev.countField; simp
@[simp] theorem Dev.countField_links (d : Dev) (a lo w n : Nat) : (d.countField a lo w n).links = d.links := by unfold Dev.countField; simp
@[simp] theorem Dev.countField_tenants (d : Dev) (a lo w n : Nat) : (d.countField a lo w n).tenants = d.tenants := by unfold Dev.countField; simp
@[simp] theorem Dev.countField_bill (d : Dev) (a lo w n : Nat) : (d.countField a lo w n).bill = d.bill := by unfold Dev.countField; simp
@[simp] theorem Dev.countField_alloc (d : Dev) (a lo w n : Nat) : (d.countField a lo w n).alloc = d.alloc := by unfold Dev.countField; simp
@[simp] theorem Dev.countField_prot (d : Dev) (a lo w n : Nat) : (d.countField a lo w n).prot = d.prot := by unfold Dev.countField; simp
@[simp] theorem Dev.countField_engines (d : Dev) (a lo w n : Nat) : (d.countField a lo w n).engines = d.engines := by unfold Dev.countField; simp
@[simp] theorem Dev.countField_svc (d : Dev) (a lo w n : Nat) : (d.countField a lo w n).svc = d.svc := by unfold Dev.countField; simp
@[simp] theorem Dev.countField_sec (d : Dev) (a lo w n : Nat) : (d.countField a lo w n).sec = d.sec := by unfold Dev.countField; simp
@[simp] theorem Dev.countField_grid (d : Dev) (a lo w n : Nat) : (d.countField a lo w n).grid = d.grid := by unfold Dev.countField; simp
@[simp] theorem Dev.countField_disp (d : Dev) (a lo w n : Nat) : (d.countField a lo w n).disp = d.disp := by unfold Dev.countField; simp
@[simp] theorem Dev.countField_scroll (d : Dev) (a lo w n : Nat) : (d.countField a lo w n).scroll = d.scroll := by unfold Dev.countField; simp
@[simp] theorem Dev.countField_keys (d : Dev) (a lo w n : Nat) : (d.countField a lo w n).keys = d.keys := by unfold Dev.countField; simp
@[simp] theorem Dev.countField_tpo (d : Dev) (a lo w n : Nat) : (d.countField a lo w n).tpo = d.tpo := by unfold Dev.countField; simp
@[simp] theorem Dev.countField_s0 (d : Dev) (a lo w n : Nat) : (d.countField a lo w n).s0 = d.s0 := by unfold Dev.countField; simp
@[simp] theorem Dev.countField_cfg (d : Dev) (a lo w n : Nat) : (d.countField a lo w n).cfg = d.cfg := by unfold Dev.countField; simp
@[simp] theorem Dev.countField_upd (d : Dev) (a lo w n : Nat) : (d.countField a lo w n).upd = d.upd := by unfold Dev.countField; simp
@[simp] theorem Dev.countField_recorder (d : Dev) (a lo w n : Nat) : (d.countField a lo w n).recorder = d.recorder := by unfold Dev.countField; simp
@[simp] theorem Dev.countField_mem (d : Dev) (a lo w n : Nat) : (d.countField a lo w n).mem = d.mem := by unfold Dev.countField; simp
@[simp] theorem Dev.countField_archive (d : Dev) (a lo w n : Nat) : (d.countField a lo w n).archive = d.archive := by unfold Dev.countField; simp
@[simp] theorem Dev.countField_locked (d : Dev) (a lo w n : Nat) : (d.countField a lo w n).locked = d.locked := by unfold Dev.countField; simp
@[simp] theorem Dev.countField_commits (d : Dev) (a lo w n : Nat) : (d.countField a lo w n).commits = d.commits := by unfold Dev.countField; simp
@[simp] theorem Dev.countField_fresh (d : Dev) (a lo w n : Nat) : (d.countField a lo w n).fresh = d.fresh := by unfold Dev.countField; simp
@[simp] theorem Dev.countField_link (d : Dev) (a lo w n : Nat) (m : LinkId) : (d.countField a lo w n).link m = d.link m := by unfold Dev.countField; simp
@[simp] theorem Dev.countField_tenant (d : Dev) (a lo w n : Nat) (u : TenantId) : (d.countField a lo w n).tenant u = d.tenant u := by unfold Dev.countField; simp
@[simp] theorem Dev.countField_mode (d : Dev) (a lo w n : Nat) : (d.countField a lo w n).mode = d.mode := by unfold Dev.countField; simp
@[simp] theorem Dev.countField_recording (d : Dev) (a lo w n : Nat) : (d.countField a lo w n).recording = d.recording := by unfold Dev.countField; simp
@[simp] theorem Dev.countField_now (d : Dev) (a lo w n : Nat) : (d.countField a lo w n).now = d.now := by unfold Dev.countField; simp

@[simp] theorem Dev.count_reg (d : Dev) (a n x : Nat) :
    (d.count a n).reg x = if x = a then satWord ((d.reg a).toNat + n) else d.reg x := by unfold Dev.count; simp

@[simp] theorem Dev.setField_reg (d : Dev) (a lo w v x : Nat) :
    (d.setField a lo w v).reg x = if x = a then putField (d.reg a) lo w v else d.reg x := by unfold Dev.setField; simp

@[simp] theorem Dev.countField_reg (d : Dev) (a lo w n x : Nat) :
    (d.countField a lo w n).reg x =
      if x = a then putField (d.reg a) lo w (satTo w (d.field a lo w + n)) else d.reg x := by
  unfold Dev.countField; simp

theorem oneBit_getLsbD (b k : Nat) (h : b < 32) : (oneBit b).getLsbD k = decide (k = b) := by
  unfold oneBit
  rw [BitVec.getLsbD_ofNat, Nat.testBit_two_pow]
  by_cases hk : k = b
  · simp [hk, h]
  · have : b ≠ k := fun x => hk x.symm
    simp [hk, this]

theorem word_or_oneBit (w : Word) (b : Nat) (h : bitOf w b = true) : w ||| oneBit b = w := by
  have hb : b < 32 := by
    by_contra hc
    have : w.getLsbD b = false := BitVec.getLsbD_of_ge _ _ (by omega)
    simp [bitOf, this] at h
  apply BitVec.eq_of_getLsbD_eq
  intro i hi
  rw [BitVec.getLsbD_or, oneBit_getLsbD b i hb]
  by_cases hk : i = b
  · subst hk; simp [bitOf] at h; simp [h]
  · simp [hk]

/-- A detail bit raised reads 1, and no other register changes (R438). -/
@[simp] theorem Dev.raise_reg (d : Dev) (e : EvReg) (b : Nat) (arg : Word) (tn : Option TenantId) (x : Nat) :
    (d.raise e b arg tn).reg x = if x = e.addr then d.reg x ||| oneBit b else d.reg x := by
  unfold Dev.raise
  dsimp only
  split
  · by_cases hx : x = e.addr
    · subst hx; simp
    · simp [hx]
  · by_cases hx : x = e.addr
    · subst hx; simp
    · simp [hx]

@[simp] theorem Dev.raiseAlways_reg (d : Dev) (e : EvReg) (b : Nat) (arg : Word) (tn : Option TenantId) (x : Nat) :
    (d.raiseAlways e b arg tn).reg x = if x = e.addr then d.reg x ||| oneBit b else d.reg x := by
  unfold Dev.raiseAlways
  split
  · by_cases hx : x = e.addr
    · subst hx; simp
    · simp [hx]
  · simp

@[simp] theorem Dev.raiseIf_reg (d : Dev) (c : Bool) (e : EvReg) (b : Nat) (arg : Word) (x : Nat) :
    (d.raiseIf c e b arg).reg x = if c = true ∧ x = e.addr then d.reg x ||| oneBit b else d.reg x := by
  unfold Dev.raiseIf
  cases c <;> simp

/-- The bit of a word after its or with a single bit. -/
theorem bitOf_or_oneBit (w : Word) (b k : Nat) (h : b < 32) : bitOf (w ||| oneBit b) k = (bitOf w k || decide (k = b)) := by
  simp [bitOf, BitVec.getLsbD_or, oneBit_getLsbD b k h]

@[simp] theorem bitOf_or_oneBit_self (w : Word) (b : Nat) (h : b < 32) : bitOf (w ||| oneBit b) b = true := by
  simp [bitOf_or_oneBit w b b h]

end Sys2Proof.Machine
end

