-- ==== Sys2Proof/Laws/Keeps.lean ====
section
/-! SUPPORT. Which parts of the device each operation can change: one lemma for each operation, composed by
`Dev.Keeps.via`. -/

namespace Sys2Proof.Machine

set_option Elab.async false

/-- A number for each part, so that a set of parts is a number whose bits are quick to compare. -/
def Part.idx : Part → Nat
  | .pacer => 0
  | .power => 1
  | .host => 2
  | .tenants => 3
  | .bill => 4
  | .alloc => 5
  | .prot => 6
  | .engines => 7
  | .svc => 8
  | .sec => 9
  | .grid => 10
  | .disp => 11
  | .scroll => 12
  | .keys => 13
  | .tpo => 14
  | .s0 => 15
  | .cfg => 16
  | .upd => 17
  | .recorder => 18
  | .mem => 19
  | .archive => 20
  | .locked => 21
  | .commits => 22
  | .fresh => 23
  | .lnk => 24
  | .hs => 25
  | .rx => 26
  | .cmd => 27
  | .frame => 28
  | .met => 29
  | .lbill => 30
  | .group => 31
  | .out => 32
  | .con => 33
  | .veh => 34
  | .lprot => 35
  | .ltag => 36
  | .aux => 37
  | .rGlb => 38
  | .rPac => 39
  | .rPwr => 40
  | .rCfg => 41
  | .rUpd => 42
  | .rSec => 43
  | .rMem => 44
  | .rEvr => 45
  | .rPrt => 46
  | .rAlc => 47
  | .rBil => 48
  | .rGrd => 49
  | .rTag => 50
  | .rLio => 51
  | .rHpt => 52
  | .rLnk => 53
  | .rMet => 54
  | .rVeh => 55
  | .rAux => 56
  | .rTen => 57
  | .rNone => 58

def Part.mask (l : List Part) : Nat := l.foldr (fun p m => Nat.lor (Nat.shiftLeft 1 p.idx) m) 0

/-- A part stands in a list. -/
def Part.isIn (l : List Part) (p : Part) : Bool := (Part.mask l).testBit p.idx

/-- Every part of one list stands in another. -/
def Part.within (m l : List Part) : Bool := Nat.beq (Nat.land (Part.mask m) (Part.mask l)) (Part.mask m)

def Part.ofIdx : Nat → Part
  | 0 => .pacer
  | 1 => .power
  | 2 => .host
  | 3 => .tenants
  | 4 => .bill
  | 5 => .alloc
  | 6 => .prot
  | 7 => .engines
  | 8 => .svc
  | 9 => .sec
  | 10 => .grid
  | 11 => .disp
  | 12 => .scroll
  | 13 => .keys
  | 14 => .tpo
  | 15 => .s0
  | 16 => .cfg
  | 17 => .upd
  | 18 => .recorder
  | 19 => .mem
  | 20 => .archive
  | 21 => .locked
  | 22 => .commits
  | 23 => .fresh
  | 24 => .lnk
  | 25 => .hs
  | 26 => .rx
  | 27 => .cmd
  | 28 => .frame
  | 29 => .met
  | 30 => .lbill
  | 31 => .group
  | 32 => .out
  | 33 => .con
  | 34 => .veh
  | 35 => .lprot
  | 36 => .ltag
  | 37 => .aux
  | 38 => .rGlb
  | 39 => .rPac
  | 40 => .rPwr
  | 41 => .rCfg
  | 42 => .rUpd
  | 43 => .rSec
  | 44 => .rMem
  | 45 => .rEvr
  | 46 => .rPrt
  | 47 => .rAlc
  | 48 => .rBil
  | 49 => .rGrd
  | 50 => .rTag
  | 51 => .rLio
  | 52 => .rHpt
  | 53 => .rLnk
  | 54 => .rMet
  | 55 => .rVeh
  | 56 => .rAux
  | 57 => .rTen
  | 58 => .rNone
  | _ => .rNone

theorem Part.idx_inj {p q : Part} (h : p.idx = q.idx) : p = q := by
  have key : ∀ p : Part, Part.ofIdx p.idx = p := by intro p; cases p <;> rfl
  rw [← key p, ← key q, h]

theorem Part.isIn_iff {l : List Part} {p : Part} : Part.isIn l p = true ↔ p ∈ l := by
  unfold Part.isIn
  induction l with
  | nil => simp [Part.mask]
  | cons q l ih =>
    have : Part.mask (q :: l) = (1 <<< q.idx) ||| Part.mask l := Eq.refl _
    rw [this, Nat.testBit_or, Bool.or_eq_true, ih, List.mem_cons]
    constructor
    · rintro (h | h)
      · left
        rw [Nat.one_shiftLeft, Nat.testBit_two_pow] at h
        exact (Part.idx_inj (by simpa using h)).symm
      · exact .inr h
    · rintro (h | h)
      · left; subst h; rw [Nat.one_shiftLeft, Nat.testBit_two_pow]; simp
      · exact .inr h

theorem Part.within_sub {m l : List Part} (h : Part.within m l = true) : m ⊆ l := by
  intro p hp
  have h1 : Part.mask m &&& Part.mask l = Part.mask m := Nat.eq_of_beq_eq_true h
  have h2 := Part.isIn_iff.2 hp
  unfold Part.isIn at h2
  rw [← h1, Nat.testBit_and, Bool.and_eq_true] at h2
  exact Part.isIn_iff.1 h2.2

theorem Part.isIn_goal {l : List Part} {p : Part} (h : Part.isIn l p = true) : Part.isIn l p = true := h

theorem Part.within_goal {m l : List Part} (h : Part.within m l = true) : Part.within m l = true := h

theorem Dev.Keeps.rfl {d : Dev} {l : List Part} : d.Keeps d l := by intro p _; cases p <;> first | exact Eq.refl _ | exact fun _ => Eq.refl _ | exact fun _ _ => Eq.refl _

theorem Dev.Keeps.trans {a b c : Dev} {l m : List Part} (h1 : a.Keeps b l) (h2 : b.Keeps c m) (hs : m ⊆ l) : a.Keeps c l := by
  intro p hp
  have x := h1 p hp
  have y := h2 p fun h => hp (hs h)
  cases p <;> first | exact Eq.trans y x | exact fun n => Eq.trans (y n) (x n) | exact fun a h => Eq.trans (y a h) (x a h)

/-- One more operation after the others. -/
theorem Dev.Keeps.via {a b c : Dev} {l m : List Part} (h2 : b.Keeps c m) (h1 : a.Keeps b l) (hs : Part.within m l = true) :
    a.Keeps c l := h1.trans h2 (Part.within_sub hs)

theorem Dev.Keeps.via' {a b c : Dev} {l m : List Part} (h1 : a.Keeps b l) (h2 : b.Keeps c m) (hs : Part.within m l = true) :
    a.Keeps c l := Dev.Keeps.via h2 h1 hs

theorem regPart_near {a i k : Nat} (hi : i < k) (h1 : a < 0x1000000) (h2 : a % 0x10000 + 4 * k ≤ 0x10000) :
    regPart (a + 4 * i) = devBlock (a / 0x10000) := by
  unfold regPart
  rw [if_pos (by omega), show (a + 4 * i) / 0x10000 = a / 0x10000 by omega]

theorem Dev.Keeps.of_regs {d e : Dev} {l : List Part} {r : RegStore} (h : d.Keeps e l)
    (hr : ∀ a, regPart a ∉ l → r.get a = e.regs.get a) : d.Keeps { e with regs := r } l := by
  intro p hp
  have := h p hp
  cases p <;> first | exact this | exact fun a ha => (hr a (by rw [ha]; exact hp)).trans (this a ha)

theorem Dev.Keeps.settled {d e : Dev} {l : List Part} (h : d.Keeps e l) : d.Keeps e.settled l :=
  h.of_regs fun _ _ => RegStore.get_normal _ _

theorem lt_of_range {i n m : Nat} (h : i ∈ List.range n) (hn : n ≤ m) : i < m := Nat.lt_of_lt_of_le (List.mem_range.1 h) hn

theorem Role.channels_le (r : Role) : r.channels ≤ 8 := by cases r <;> decide

theorem contains_regPart {l : List Part} (h : Part.within Part.registers l = true) (a : Nat) : Part.isIn l (regPart a) = true := by
  refine Part.isIn_iff.2 (Part.within_sub h ?_)
  unfold regPart
  split
  · unfold devBlock; split <;> decide
  · split
    · unfold linkBlock; split <;> decide
    · decide

theorem slice_length (bs : List Byte) (off len : Nat) : (slice bs off len).length = len := by
  unfold slice
  simp only [List.length_append, List.length_replicate, List.length_take, List.length_drop]
  omega

theorem padTo_length (len : Nat) (bs : List Byte) : (padTo len bs).length = len := slice_length _ _ _

theorem wordsOfBytes_length (bs : List Byte) : (wordsOfBytes bs).length = (bs.length + 3) / 4 := by simp [wordsOfBytes]

theorem wordsLE_length (bs : List Byte) : (wordsLE bs).length = (bs.length + 3) / 4 := by simp [wordsLE]

theorem contains_of {p q : Part} {l : List Part} (h : p = q) (hq : Part.isIn l q = true) : Part.isIn l p = true := h ▸ hq

theorem Dev.Keeps.setReg {d e : Dev} {l : List Part} {a : Nat} {w : Word} (h : d.Keeps e l)
    (ha : Part.isIn l (regPart a) = true) : d.Keeps (e.setReg a w) l :=
  h.of_regs fun b hb => by
    rw [RegStore.get_set, if_neg]
    rintro rfl
    exact hb (Part.isIn_iff.1 ha)

theorem Dev.Keeps.setField {d e : Dev} {l : List Part} {a lo width v : Nat} (h : d.Keeps e l)
    (ha : Part.isIn l (regPart a) = true) : d.Keeps (e.setField a lo width v) l := h.setReg ha

theorem Dev.Keeps.countField {d e : Dev} {l : List Part} {a lo width n : Nat} (h : d.Keeps e l)
    (ha : Part.isIn l (regPart a) = true) : d.Keeps (e.countField a lo width n) l := h.setReg ha

theorem Dev.Keeps.count {d e : Dev} {l : List Part} {a n : Nat} (h : d.Keeps e l)
    (ha : Part.isIn l (regPart a) = true) : d.Keeps (e.count a n) l := h.setReg ha

theorem Dev.Keeps.setRegs {d e : Dev} {l : List Part} {a : Nat} {ws : List Word} (h : d.Keeps e l)
    (ha : ∀ i, i < ws.length → Part.isIn l (regPart (a + 4 * i)) = true) : d.Keeps (e.setRegs a ws) l := by
  induction ws generalizing e a with
  | nil => exact h
  | cons w ws ih =>
    refine ih (h.setReg (by simpa using ha 0 (by simp))) fun i hi => ?_
    have := ha (i + 1) (by simpa using hi)
    rwa [show a + 4 + 4 * i = a + 4 * (i + 1) by omega]

theorem Dev.Keeps.foldl {α : Type} {d : Dev} {l : List Part} {f : Dev → α → Dev} (hf : ∀ e x, Dev.Keeps e (f e x) l) :
    ∀ (xs : List α) (e : Dev), d.Keeps e l → d.Keeps (xs.foldl f e) l
  | [], _, h => h
  | x :: xs, e, h => Dev.Keeps.foldl hf xs (f e x) (h.trans (hf e x) (fun _ hp => hp))

theorem Dev.Keeps.each {α : Type} {d e : Dev} {l : List Part} {xs : List α} {f : Dev → α → Dev}
    (hf : ∀ e x, x ∈ xs → Dev.Keeps e (f e x) l) (h : d.Keeps e l) : d.Keeps (e.each xs f) l := by
  unfold Dev.each
  induction xs generalizing e with
  | nil => exact h
  | cons x xs ih => exact ih (fun e y hy => hf e y (by simp [hy])) (h.trans (hf e x (by simp)) fun _ hp => hp)

theorem Dev.Keeps.gw {d e : Dev} {l : List Part} {a : Nat} {w : Word} {f : Dev → Dev} (hf : ∀ e, Dev.Keeps e (f e) l)
    (h : d.Keeps e l) (ha : Part.isIn l (regPart a) = true) : d.Keeps (e.gw a w f) l := by
  unfold Dev.gw
  split
  · exact (h.setReg (a := a) (w := w) ha).trans (hf _) fun _ hp => hp
  · exact h

theorem Dev.Keeps.hosted {d e : Dev} {l : List Part} {f : Dev → Dev} (hf : ∀ e, Dev.Keeps e (f e) l) (h : d.Keeps e l) :
    d.Keeps (e.hosted f) l := by
  unfold Dev.hosted
  split
  · exact h.trans (hf _) fun _ hp => hp
  · exact h

theorem Dev.Keeps.applyIf {d e : Dev} {l : List Part} {c : Bool} {f : Dev → Dev} (hf : ∀ e, Dev.Keeps e (f e) l)
    (h : d.Keeps e l) : d.Keeps (applyIf c f e) l := by
  unfold Machine.applyIf
  split
  · exact h.trans (hf _) fun _ hp => hp
  · exact h

theorem Dev.Keeps.ite {d e f : Dev} {l : List Part} {c : Prop} [Decidable c] (h1 : c → d.Keeps e l) (h2 : ¬c → d.Keeps f l) :
    d.Keeps (if c then e else f) l := by
  split
  · exact h1 ‹_›
  · exact h2 ‹_›

theorem Dev.Keeps.drew {d e : Dev} {l : List Part} (h : d.Keeps e l) (hs : Part.within [Part.fresh] l = true) : d.Keeps e.drew l :=
  Dev.Keeps.via (m := [.fresh]) (by intro p hp; cases p <;> first | exact Eq.refl _ | exact fun _ => Eq.refl _ | exact fun _ _ => Eq.refl _ | exact absurd (by decide) hp) h hs

theorem Dev.Keeps.to_tenants {d e : Dev} {l : List Part} {v} (h : d.Keeps e l) (hs : Part.within [Part.tenants] l = true) :
    d.Keeps { e with tenants := v } l :=
  Dev.Keeps.via (m := [.tenants]) (by intro p hp; cases p <;> first | exact Eq.refl _ | exact fun _ => Eq.refl _ | exact fun _ _ => Eq.refl _ | exact absurd (by decide) hp) h hs

theorem Dev.Keeps.to_engines {d e : Dev} {l : List Part} {v} (h : d.Keeps e l) (hs : Part.within [Part.engines] l = true) :
    d.Keeps { e with engines := v } l :=
  Dev.Keeps.via (m := [.engines]) (by intro p hp; cases p <;> first | exact Eq.refl _ | exact fun _ => Eq.refl _ | exact fun _ _ => Eq.refl _ | exact absurd (by decide) hp) h hs

theorem Dev.Keeps.to_locked {d e : Dev} {l : List Part} {v} (h : d.Keeps e l) (hs : Part.within [Part.locked] l = true) :
    d.Keeps { e with locked := v } l :=
  Dev.Keeps.via (m := [.locked]) (by intro p hp; cases p <;> first | exact Eq.refl _ | exact fun _ => Eq.refl _ | exact fun _ _ => Eq.refl _ | exact absurd (by decide) hp) h hs

theorem Dev.Keeps.to_commits {d e : Dev} {l : List Part} {v} (h : d.Keeps e l) (hs : Part.within [Part.commits] l = true) :
    d.Keeps { e with commits := v } l :=
  Dev.Keeps.via (m := [.commits]) (by intro p hp; cases p <;> first | exact Eq.refl _ | exact fun _ => Eq.refl _ | exact fun _ _ => Eq.refl _ | exact absurd (by decide) hp) h hs

theorem Dev.Keeps.to_fresh {d e : Dev} {l : List Part} {v} (h : d.Keeps e l) (hs : Part.within [Part.fresh] l = true) :
    d.Keeps { e with fresh := v } l :=
  Dev.Keeps.via (m := [.fresh]) (by intro p hp; cases p <;> first | exact Eq.refl _ | exact fun _ => Eq.refl _ | exact fun _ _ => Eq.refl _ | exact absurd (by decide) hp) h hs

/-- Of what the device holds for one link, a part is as before. -/
def Part.linkSame (k l : Link) : Part → Prop
  | .lnk => l.lnk = k.lnk
  | .hs => l.hs = k.hs
  | .rx => l.rx = k.rx
  | .cmd => l.cmd = k.cmd
  | .frame => l.frame = k.frame
  | .met => l.met = k.met
  | .lbill => l.bill = k.bill
  | .group => l.group = k.group
  | .out => l.out = k.out
  | .con => l.con = k.con
  | .veh => l.veh = k.veh
  | .lprot => l.prot = k.prot
  | .ltag => l.tag = k.tag
  | .aux => l.aux = k.aux
  | _ => True

theorem Dev.onLink_keeps (d : Dev) (n : LinkId) (f : Link → Link) (l : List Part)
    (hf : ∀ p, p ∉ l → p.linkSame (d.link n) (f (d.link n))) : d.Keeps (d.onLink n f) l := by
  intro p hp
  have h := hf p hp
  have hl : ∀ m, (d.onLink n f).link m = if m = n then f (d.link n) else d.link m := fun m => Dev.onLink_link d n m f
  cases p <;> first | exact Eq.refl _ | exact fun _ _ => Eq.refl _ | (intro m; rw [hl m]; split; (· next e => subst e; exact h); rfl)

theorem Dev.Keeps.onLink {d e : Dev} {l : List Part} {n : LinkId} {f : Link → Link}
    (hf : ∀ p, p ∉ l → p.linkSame (e.link n) (f (e.link n))) (h : d.Keeps e l) : d.Keeps (e.onLink n f) l :=
  h.trans (Dev.onLink_keeps e n f l hf) fun _ h => h

theorem Dev.onLnk_keeps (d : Dev) (n : LinkId) (f : LinkLayer → LinkLayer) : d.Keeps (d.onLnk n f) [.lnk] :=
  Dev.onLink_keeps _ _ _ _ fun p hp => by cases p <;> first | exact Eq.refl _ | exact True.intro | exact absurd (by decide) hp

theorem Dev.onCmd_keeps (d : Dev) (n : LinkId) (f : Commands → Commands) : d.Keeps (d.onCmd n f) [.cmd] :=
  Dev.onLink_keeps _ _ _ _ fun p hp => by cases p <;> first | exact Eq.refl _ | exact True.intro | exact absurd (by decide) hp

theorem Dev.onMet_keeps (d : Dev) (n : LinkId) (f : Metrology → Metrology) : d.Keeps (d.onMet n f) [.met] :=
  Dev.onLink_keeps _ _ _ _ fun p hp => by cases p <;> first | exact Eq.refl _ | exact True.intro | exact absurd (by decide) hp

theorem Dev.onBill_keeps (d : Dev) (n : LinkId) (f : LinkBill → LinkBill) : d.Keeps (d.onBill n f) [.lbill] :=
  Dev.onLink_keeps _ _ _ _ fun p hp => by cases p <;> first | exact Eq.refl _ | exact True.intro | exact absurd (by decide) hp

theorem Dev.onGroup_keeps (d : Dev) (n : LinkId) (f : Group → Group) : d.Keeps (d.onGroup n f) [.group] :=
  Dev.onLink_keeps _ _ _ _ fun p hp => by cases p <;> first | exact Eq.refl _ | exact True.intro | exact absurd (by decide) hp

theorem Dev.onOut_keeps (d : Dev) (n : LinkId) (f : OutletAlloc → OutletAlloc) : d.Keeps (d.onOut n f) [.out] :=
  Dev.onLink_keeps _ _ _ _ fun p hp => by cases p <;> first | exact Eq.refl _ | exact True.intro | exact absurd (by decide) hp

theorem Dev.onCon_keeps (d : Dev) (n : LinkId) (f : Contactors → Contactors) : d.Keeps (d.onCon n f) [.con] :=
  Dev.onLink_keeps _ _ _ _ fun p hp => by cases p <;> first | exact Eq.refl _ | exact True.intro | exact absurd (by decide) hp

theorem Dev.onVeh_keeps (d : Dev) (n : LinkId) (f : Vehicle → Vehicle) : d.Keeps (d.onVeh n f) [.veh] :=
  Dev.onLink_keeps _ _ _ _ fun p hp => by cases p <;> first | exact Eq.refl _ | exact True.intro | exact absurd (by decide) hp

theorem Dev.onProt_keeps (d : Dev) (n : LinkId) (f : LinkProt → LinkProt) : d.Keeps (d.onProt n f) [.lprot] :=
  Dev.onLink_keeps _ _ _ _ fun p hp => by cases p <;> first | exact Eq.refl _ | exact True.intro | exact absurd (by decide) hp

theorem Dev.onTag_keeps (d : Dev) (n : LinkId) (f : LinkTag → LinkTag) : d.Keeps (d.onTag n f) [.ltag] :=
  Dev.onLink_keeps _ _ _ _ fun p hp => by cases p <;> first | exact Eq.refl _ | exact True.intro | exact absurd (by decide) hp

theorem Dev.onAux_keeps (d : Dev) (n : LinkId) (k : Fin 4) (f : AuxChannel → AuxChannel) : d.Keeps (d.onAux n k f) [.aux] :=
  Dev.onLink_keeps _ _ _ _ fun p hp => by cases p <;> first | exact Eq.refl _ | exact True.intro | exact absurd (by decide) hp

theorem Dev.onPower_keeps (d : Dev) (f : Power → Power) : d.Keeps (d.onPower f) [.power] := by
  intro p hp; cases p <;> first | exact Eq.refl _ | exact fun _ => Eq.refl _ | exact fun _ _ => Eq.refl _ | exact absurd (by decide) hp

theorem Dev.onPacer_keeps (d : Dev) (f : Pacer → Pacer) : d.Keeps (d.onPacer f) [.pacer] := by
  intro p hp; cases p <;> first | exact Eq.refl _ | exact fun _ => Eq.refl _ | exact fun _ _ => Eq.refl _ | exact absurd (by decide) hp

theorem Dev.onHost_keeps (d : Dev) (f : HostPort → HostPort) : d.Keeps (d.onHost f) [.host] := by
  intro p hp; cases p <;> first | exact Eq.refl _ | exact fun _ => Eq.refl _ | exact fun _ _ => Eq.refl _ | exact absurd (by decide) hp

theorem Dev.onBilling_keeps (d : Dev) (f : Billing → Billing) : d.Keeps (d.onBilling f) [.bill] := by
  intro p hp; cases p <;> first | exact Eq.refl _ | exact fun _ => Eq.refl _ | exact fun _ _ => Eq.refl _ | exact absurd (by decide) hp

theorem Dev.onAlloc_keeps (d : Dev) (f : Allocation → Allocation) : d.Keeps (d.onAlloc f) [.alloc] := by
  intro p hp; cases p <;> first | exact Eq.refl _ | exact fun _ => Eq.refl _ | exact fun _ _ => Eq.refl _ | exact absurd (by decide) hp

theorem Dev.onProtection_keeps (d : Dev) (f : Protection → Protection) : d.Keeps (d.onProtection f) [.prot] := by
  intro p hp; cases p <;> first | exact Eq.refl _ | exact fun _ => Eq.refl _ | exact fun _ _ => Eq.refl _ | exact absurd (by decide) hp

theorem Dev.onSvc_keeps (d : Dev) (f : ServiceTag → ServiceTag) : d.Keeps (d.onSvc f) [.svc] := by
  intro p hp; cases p <;> first | exact Eq.refl _ | exact fun _ => Eq.refl _ | exact fun _ _ => Eq.refl _ | exact absurd (by decide) hp

theorem Dev.onSec_keeps (d : Dev) (f : Security → Security) : d.Keeps (d.onSec f) [.sec] := by
  intro p hp; cases p <;> first | exact Eq.refl _ | exact fun _ => Eq.refl _ | exact fun _ _ => Eq.refl _ | exact absurd (by decide) hp

theorem Dev.onGrid_keeps (d : Dev) (f : Grid → Grid) : d.Keeps (d.onGrid f) [.grid] := by
  intro p hp; cases p <;> first | exact Eq.refl _ | exact fun _ => Eq.refl _ | exact fun _ _ => Eq.refl _ | exact absurd (by decide) hp

theorem Dev.onDisp_keeps (d : Dev) (f : Display → Display) : d.Keeps (d.onDisp f) [.disp] := by
  intro p hp; cases p <;> first | exact Eq.refl _ | exact fun _ => Eq.refl _ | exact fun _ _ => Eq.refl _ | exact absurd (by decide) hp

theorem Dev.onScroll_keeps (d : Dev) (f : Scroll → Scroll) : d.Keeps (d.onScroll f) [.scroll] := by
  intro p hp; cases p <;> first | exact Eq.refl _ | exact fun _ => Eq.refl _ | exact fun _ _ => Eq.refl _ | exact absurd (by decide) hp

theorem Dev.onKey_keeps (d : Dev) (k : Fin 2) (f : Key → Key) : d.Keeps (d.onKey k f) [.keys] := by
  intro p hp; cases p <;> first | exact Eq.refl _ | exact fun _ => Eq.refl _ | exact fun _ _ => Eq.refl _ | exact absurd (by decide) hp

theorem Dev.onTpo_keeps (d : Dev) (k : Fin 2) (f : TestPulse → TestPulse) : d.Keeps (d.onTpo k f) [.tpo] := by
  intro p hp; cases p <;> first | exact Eq.refl _ | exact fun _ => Eq.refl _ | exact fun _ _ => Eq.refl _ | exact absurd (by decide) hp

theorem Dev.onS0_keeps (d : Dev) (k : Fin 4) (f : S0Input → S0Input) : d.Keeps (d.onS0 k f) [.s0] := by
  intro p hp; cases p <;> first | exact Eq.refl _ | exact fun _ => Eq.refl _ | exact fun _ _ => Eq.refl _ | exact absurd (by decide) hp

theorem Dev.onCfg_keeps (d : Dev) (f : Configuration → Configuration) : d.Keeps (d.onCfg f) [.cfg] := by
  intro p hp; cases p <;> first | exact Eq.refl _ | exact fun _ => Eq.refl _ | exact fun _ _ => Eq.refl _ | exact absurd (by decide) hp

theorem Dev.onUpd_keeps (d : Dev) (f : Update → Update) : d.Keeps (d.onUpd f) [.upd] := by
  intro p hp; cases p <;> first | exact Eq.refl _ | exact fun _ => Eq.refl _ | exact fun _ _ => Eq.refl _ | exact absurd (by decide) hp

theorem Dev.onMem_keeps (d : Dev) (f : Memory → Memory) : d.Keeps (d.onMem f) [.mem] := by
  intro p hp; cases p <;> first | exact Eq.refl _ | exact fun _ => Eq.refl _ | exact fun _ _ => Eq.refl _ | exact absurd (by decide) hp

theorem Dev.onArc_keeps (d : Dev) (f : Archive → Archive) : d.Keeps (d.onArc f) [.archive] := by
  intro p hp; cases p <;> first | exact Eq.refl _ | exact fun _ => Eq.refl _ | exact fun _ _ => Eq.refl _ | exact absurd (by decide) hp

theorem Dev.onRec_keeps (d : Dev) (f : Recorder → Recorder) : d.Keeps (d.onRec f) [.recorder] := by
  intro p hp; cases p <;> first | exact Eq.refl _ | exact fun _ => Eq.refl _ | exact fun _ _ => Eq.refl _ | exact absurd (by decide) hp

theorem Dev.onTenant_keeps (d : Dev) (t : TenantId) (f : Tenant → Tenant) : d.Keeps (d.onTenant t f) [.tenants] := by
  intro p hp; cases p <;> first | exact Eq.refl _ | exact fun _ => Eq.refl _ | exact fun _ _ => Eq.refl _ | exact absurd (by decide) hp

theorem Dev.logEvent_keeps (d : Dev) (e : TickEvent) : d.Keeps (d.logEvent e) [.recorder] := by
  unfold Dev.logEvent
  repeat' first | with_reducible exact Dev.Keeps.rfl | exact Eq.refl true | with_reducible apply Dev.Keeps.via (Dev.onRec_keeps _ _) | with_reducible apply Dev.Keeps.ite | with_reducible intro _

theorem regPart_link {a k : Nat} (h1 : 0x1000000 ≤ a) (h2 : a < 0x4000000) (h3 : a % 0x10000 / 0x1000 = k) :
    regPart a = linkBlock k := by
  unfold regPart; rw [if_neg (by omega), if_pos h2, h3]

theorem regPart_dev {a k : Nat} (hk : k < 0x100) (h : a / 0x10000 = k) : regPart a = devBlock k := by
  unfold regPart; rw [if_pos (by omega), h]

theorem regPart_auxCmd {n : Nat} (hn : n < 144) : regPart (Reg.auxCmd n) = .rAux := regPart_link (k := 3) (by unfold Reg.auxCmd; omega) (by unfold Reg.auxCmd; omega) (by unfold Reg.auxCmd; omega)
theorem regPart_auxEvents {n : Nat} (hn : n < 144) : regPart (Reg.auxEvents n) = .rAux := regPart_link (k := 3) (by unfold Reg.auxEvents; omega) (by unfold Reg.auxEvents; omega) (by unfold Reg.auxEvents; omega)
theorem regPart_bilLapFlags {n : Nat} (hn : n < 144) : regPart (Reg.bilLapFlags n) = .rBil := regPart_dev (k := 10) (by decide) (by unfold Reg.bilLapFlags; omega)
theorem regPart_bilLapSeq {n : Nat} (hn : n < 144) : regPart (Reg.bilLapSeq n) = .rBil := regPart_dev (k := 10) (by decide) (by unfold Reg.bilLapSeq; omega)
theorem regPart_bilMdFixP {n : Nat} (hn : n < 144) : regPart (Reg.bilMdFixP n) = .rBil := regPart_dev (k := 10) (by decide) (by unfold Reg.bilMdFixP; omega)
theorem regPart_bilMdFixPT {n : Nat} (hn : n < 144) : regPart (Reg.bilMdFixPT n) = .rBil := regPart_dev (k := 10) (by decide) (by unfold Reg.bilMdFixPT; omega)
theorem regPart_bilMdSldP {n : Nat} (hn : n < 144) : regPart (Reg.bilMdSldP n) = .rBil := regPart_dev (k := 10) (by decide) (by unfold Reg.bilMdSldP; omega)
theorem regPart_bilMdSldPT {n : Nat} (hn : n < 144) : regPart (Reg.bilMdSldPT n) = .rBil := regPart_dev (k := 10) (by decide) (by unfold Reg.bilMdSldPT; omega)
theorem regPart_bilTEvents {n : Nat} : regPart (Reg.bilTEvents n) = .rTen := by unfold regPart Reg.bilTEvents; rw [if_neg (by omega), if_neg (by omega)]
theorem regPart_bilTGrantSerial {n : Nat} : regPart (Reg.bilTGrantSerial n) = .rTen := by unfold regPart Reg.bilTGrantSerial; rw [if_neg (by omega), if_neg (by omega)]
theorem regPart_lioImage {k : Nat} (hk : k < 64) : regPart (Reg.lioImage k) = .rLio := regPart_dev (k := 13) (by decide) (by unfold Reg.lioImage; omega)
theorem regPart_lioS0CntHi {i : Nat} (hi : i < 64) : regPart (Reg.lioS0CntHi i) = .rLio := regPart_dev (k := 13) (by decide) (by unfold Reg.lioS0CntHi; omega)
theorem regPart_lioS0CntLo {i : Nat} (hi : i < 64) : regPart (Reg.lioS0CntLo i) = .rLio := regPart_dev (k := 13) (by decide) (by unfold Reg.lioS0CntLo; omega)
theorem regPart_lnkAlarmLast {n : Nat} (hn : n < 144) : regPart (Reg.lnkAlarmLast n) = .rLnk := regPart_link (k := 0) (by unfold Reg.lnkAlarmLast; omega) (by unfold Reg.lnkAlarmLast; omega) (by unfold Reg.lnkAlarmLast; omega)
theorem regPart_lnkBadCtrl {n : Nat} (hn : n < 144) : regPart (Reg.lnkBadCtrl n) = .rLnk := regPart_link (k := 0) (by unfold Reg.lnkBadCtrl; omega) (by unfold Reg.lnkBadCtrl; omega) (by unfold Reg.lnkBadCtrl; omega)
theorem regPart_lnkCmd {n : Nat} (hn : n < 144) : regPart (Reg.lnkCmd n) = .rLnk := regPart_link (k := 0) (by unfold Reg.lnkCmd; omega) (by unfold Reg.lnkCmd; omega) (by unfold Reg.lnkCmd; omega)
theorem regPart_lnkEvents {n : Nat} (hn : n < 144) : regPart (Reg.lnkEvents n) = .rLnk := regPart_link (k := 0) (by unfold Reg.lnkEvents; omega) (by unfold Reg.lnkEvents; omega) (by unfold Reg.lnkEvents; omega)
theorem regPart_lnkFailLap {n : Nat} (hn : n < 144) : regPart (Reg.lnkFailLap n) = .rLnk := regPart_link (k := 0) (by unfold Reg.lnkFailLap; omega) (by unfold Reg.lnkFailLap; omega) (by unfold Reg.lnkFailLap; omega)
theorem regPart_lnkFailRx {n : Nat} (hn : n < 144) : regPart (Reg.lnkFailRx n) = .rLnk := regPart_link (k := 0) (by unfold Reg.lnkFailRx; omega) (by unfold Reg.lnkFailRx; omega) (by unfold Reg.lnkFailRx; omega)
theorem regPart_lnkHeadFw {n : Nat} (hn : n < 144) : regPart (Reg.lnkHeadFw n) = .rLnk := regPart_link (k := 0) (by unfold Reg.lnkHeadFw; omega) (by unfold Reg.lnkHeadFw; omega) (by unfold Reg.lnkHeadFw; omega)
theorem regPart_lnkHeadId {n : Nat} (hn : n < 144) : regPart (Reg.lnkHeadId n) = .rLnk := regPart_link (k := 0) (by unfold Reg.lnkHeadId; omega) (by unfold Reg.lnkHeadId; omega) (by unfold Reg.lnkHeadId; omega)
theorem regPart_lnkRtt {n : Nat} (hn : n < 144) : regPart (Reg.lnkRtt n) = .rLnk := regPart_link (k := 0) (by unfold Reg.lnkRtt; omega) (by unfold Reg.lnkRtt; omega) (by unfold Reg.lnkRtt; omega)
theorem regPart_lnkTrainCnt {n : Nat} (hn : n < 144) : regPart (Reg.lnkTrainCnt n) = .rLnk := regPart_link (k := 0) (by unfold Reg.lnkTrainCnt; omega) (by unfold Reg.lnkTrainCnt; omega) (by unfold Reg.lnkTrainCnt; omega)
theorem regPart_lnkTripLast {n : Nat} (hn : n < 144) : regPart (Reg.lnkTripLast n) = .rLnk := regPart_link (k := 0) (by unfold Reg.lnkTripLast; omega) (by unfold Reg.lnkTripLast; omega) (by unfold Reg.lnkTripLast; omega)
theorem regPart_memArcNsEpoch {i : Nat} (hi : i < 64) : regPart (Reg.memArcNsEpoch i) = .rMem := regPart_dev (k := 6) (by decide) (by unfold Reg.memArcNsEpoch; omega)
theorem regPart_memArcNsNext {i : Nat} (hi : i < 64) : regPart (Reg.memArcNsNext i) = .rMem := regPart_dev (k := 6) (by decide) (by unfold Reg.memArcNsNext; omega)
theorem regPart_memArcRdTag {k : Nat} (hk : k < 64) : regPart (Reg.memArcRdTag k) = .rMem := regPart_dev (k := 6) (by decide) (by unfold Reg.memArcRdTag; omega)
theorem regPart_metCalCrc {n : Nat} (hn : n < 144) : regPart (Reg.metCalCrc n) = .rMet := regPart_link (k := 1) (by unfold Reg.metCalCrc; omega) (by unfold Reg.metCalCrc; omega) (by unfold Reg.metCalCrc; omega)
theorem regPart_metCalOffset {n i : Nat} (hn : n < 144) (hi : i < 64) : regPart (Reg.metCalOffset n i) = .rMet := regPart_link (k := 1) (by unfold Reg.metCalOffset; omega) (by unfold Reg.metCalOffset; omega) (by unfold Reg.metCalOffset; omega)
theorem regPart_metDc {n k : Nat} (hn : n < 144) (hk : k < 64) : regPart (Reg.metDc n k) = .rMet := regPart_link (k := 1) (by unfold Reg.metDc; omega) (by unfold Reg.metDc; omega) (by unfold Reg.metDc; omega)
theorem regPart_metDipCnt {n : Nat} (hn : n < 144) : regPart (Reg.metDipCnt n) = .rMet := regPart_link (k := 1) (by unfold Reg.metDipCnt; omega) (by unfold Reg.metDipCnt; omega) (by unfold Reg.metDipCnt; omega)
theorem regPart_metEvents {n : Nat} (hn : n < 144) : regPart (Reg.metEvents n) = .rMet := regPart_link (k := 1) (by unfold Reg.metEvents; omega) (by unfold Reg.metEvents; omega) (by unfold Reg.metEvents; omega)
theorem regPart_metFreq {n : Nat} (hn : n < 144) : regPart (Reg.metFreq n) = .rMet := regPart_link (k := 1) (by unfold Reg.metFreq; omega) (by unfold Reg.metFreq; omega) (by unfold Reg.metFreq; omega)
theorem regPart_metH {n i k : Nat} (hn : n < 144) (hi : i < 6) (hk : k < 40) : regPart (Reg.metH n i k) = .rMet := regPart_link (k := 1) (by unfold Reg.metH; omega) (by unfold Reg.metH; omega) (by
    unfold Reg.metH; rw [show (0x1001400 + 0x10000 * n + 0xA0 * i + 0x4 * k) % 0x10000 = 0x1400 + 0xA0 * i + 4 * k by omega]; omega)
theorem regPart_metLapBridged {n : Nat} (hn : n < 144) : regPart (Reg.metLapBridged n) = .rMet := regPart_link (k := 1) (by unfold Reg.metLapBridged; omega) (by unfold Reg.metLapBridged; omega) (by unfold Reg.metLapBridged; omega)
theorem regPart_metLapExpHi {n : Nat} (hn : n < 144) : regPart (Reg.metLapExpHi n) = .rMet := regPart_link (k := 1) (by unfold Reg.metLapExpHi; omega) (by unfold Reg.metLapExpHi; omega) (by unfold Reg.metLapExpHi; omega)
theorem regPart_metLapExpLo {n : Nat} (hn : n < 144) : regPart (Reg.metLapExpLo n) = .rMet := regPart_link (k := 1) (by unfold Reg.metLapExpLo; omega) (by unfold Reg.metLapExpLo; omega) (by unfold Reg.metLapExpLo; omega)
theorem regPart_metLapFlags {n : Nat} (hn : n < 144) : regPart (Reg.metLapFlags n) = .rMet := regPart_link (k := 1) (by unfold Reg.metLapFlags; omega) (by unfold Reg.metLapFlags; omega) (by unfold Reg.metLapFlags; omega)
theorem regPart_metLapImpHi {n : Nat} (hn : n < 144) : regPart (Reg.metLapImpHi n) = .rMet := regPart_link (k := 1) (by unfold Reg.metLapImpHi; omega) (by unfold Reg.metLapImpHi; omega) (by unfold Reg.metLapImpHi; omega)
theorem regPart_metLapImpLo {n : Nat} (hn : n < 144) : regPart (Reg.metLapImpLo n) = .rMet := regPart_link (k := 1) (by unfold Reg.metLapImpLo; omega) (by unfold Reg.metLapImpLo; omega) (by unfold Reg.metLapImpLo; omega)
theorem regPart_metLapNum {n : Nat} (hn : n < 144) : regPart (Reg.metLapNum n) = .rMet := regPart_link (k := 1) (by unfold Reg.metLapNum; omega) (by unfold Reg.metLapNum; omega) (by unfold Reg.metLapNum; omega)
theorem regPart_metOcCnt {n : Nat} (hn : n < 144) : regPart (Reg.metOcCnt n) = .rMet := regPart_link (k := 1) (by unfold Reg.metOcCnt; omega) (by unfold Reg.metOcCnt; omega) (by unfold Reg.metOcCnt; omega)
theorem regPart_metPkmax {n k : Nat} (hn : n < 144) (hk : k < 64) : regPart (Reg.metPkmax n k) = .rMet := regPart_link (k := 1) (by unfold Reg.metPkmax; omega) (by unfold Reg.metPkmax; omega) (by unfold Reg.metPkmax; omega)
theorem regPart_metPkmin {n k : Nat} (hn : n < 144) (hk : k < 64) : regPart (Reg.metPkmin n k) = .rMet := regPart_link (k := 1) (by unfold Reg.metPkmin; omega) (by unfold Reg.metPkmin; omega) (by unfold Reg.metPkmin; omega)
theorem regPart_metPower {n : Nat} (hn : n < 144) : regPart (Reg.metPower n) = .rMet := regPart_link (k := 1) (by unfold Reg.metPower; omega) (by unfold Reg.metPower; omega) (by unfold Reg.metPower; omega)
theorem regPart_metPph {n k : Nat} (hn : n < 144) (hk : k < 64) : regPart (Reg.metPph n k) = .rMet := regPart_link (k := 1) (by unfold Reg.metPph; omega) (by unfold Reg.metPph; omega) (by unfold Reg.metPph; omega)
theorem regPart_metPqLast0 {n : Nat} (hn : n < 144) : regPart (Reg.metPqLast0 n) = .rMet := regPart_link (k := 1) (by unfold Reg.metPqLast0; omega) (by unfold Reg.metPqLast0; omega) (by unfold Reg.metPqLast0; omega)
theorem regPart_metPqLast1 {n : Nat} (hn : n < 144) : regPart (Reg.metPqLast1 n) = .rMet := regPart_link (k := 1) (by unfold Reg.metPqLast1; omega) (by unfold Reg.metPqLast1; omega) (by unfold Reg.metPqLast1; omega)
theorem regPart_metPqLast2 {n : Nat} (hn : n < 144) : regPart (Reg.metPqLast2 n) = .rMet := regPart_link (k := 1) (by unfold Reg.metPqLast2; omega) (by unfold Reg.metPqLast2; omega) (by unfold Reg.metPqLast2; omega)
theorem regPart_metRms {n k : Nat} (hn : n < 144) (hk : k < 64) : regPart (Reg.metRms n k) = .rMet := regPart_link (k := 1) (by unfold Reg.metRms; omega) (by unfold Reg.metRms; omega) (by unfold Reg.metRms; omega)
theorem regPart_metSwellCnt {n : Nat} (hn : n < 144) : regPart (Reg.metSwellCnt n) = .rMet := regPart_link (k := 1) (by unfold Reg.metSwellCnt; omega) (by unfold Reg.metSwellCnt; omega) (by unfold Reg.metSwellCnt; omega)
theorem regPart_metThd {n k : Nat} (hn : n < 144) (hk : k < 64) : regPart (Reg.metThd n k) = .rMet := regPart_link (k := 1) (by unfold Reg.metThd; omega) (by unfold Reg.metThd; omega) (by unfold Reg.metThd; omega)
theorem regPart_prtLEvents {n : Nat} (hn : n < 144) : regPart (Reg.prtLEvents n) = .rPrt := regPart_dev (k := 8) (by decide) (by unfold Reg.prtLEvents; omega)
theorem regPart_secAttDigest {k : Nat} (hk : k < 64) : regPart (Reg.secAttDigest k) = .rSec := regPart_dev (k := 5) (by decide) (by unfold Reg.secAttDigest; omega)
theorem regPart_secAttResp {k : Nat} (hk : k < 64) : regPart (Reg.secAttResp k) = .rSec := regPart_dev (k := 5) (by decide) (by unfold Reg.secAttResp; omega)
theorem regPart_secEnrol {k : Nat} (hk : k < 64) : regPart (Reg.secEnrol k) = .rSec := regPart_dev (k := 5) (by decide) (by unfold Reg.secEnrol; omega)
theorem regPart_tagLEvents {n : Nat} (hn : n < 144) : regPart (Reg.tagLEvents n) = .rTag := regPart_dev (k := 12) (by decide) (by unfold Reg.tagLEvents; omega)
theorem regPart_tagSvcMbxData {k : Nat} (hk : k < 64) : regPart (Reg.tagSvcMbxData k) = .rTag := regPart_dev (k := 12) (by decide) (by unfold Reg.tagSvcMbxData; omega)
theorem regPart_tagTAuthCnt {n : Nat} : regPart (Reg.tagTAuthCnt n) = .rTen := by unfold regPart Reg.tagTAuthCnt; rw [if_neg (by omega), if_neg (by omega)]
theorem regPart_tagTBlock {n i k : Nat} : regPart (Reg.tagTBlock n i k) = .rTen := by unfold regPart Reg.tagTBlock; rw [if_neg (by omega), if_neg (by omega)]
theorem regPart_tagTRefuseCnt {n : Nat} : regPart (Reg.tagTRefuseCnt n) = .rTen := by unfold regPart Reg.tagTRefuseCnt; rw [if_neg (by omega), if_neg (by omega)]
theorem regPart_tagTRemoteSerial {n : Nat} : regPart (Reg.tagTRemoteSerial n) = .rTen := by unfold regPart Reg.tagTRemoteSerial; rw [if_neg (by omega), if_neg (by omega)]
theorem regPart_tagTRootId {n : Nat} : regPart (Reg.tagTRootId n) = .rTen := by unfold regPart Reg.tagTRootId; rw [if_neg (by omega), if_neg (by omega)]
theorem regPart_updPart {i : Nat} (hi : i < 64) : regPart (Reg.updPart i) = .rUpd := regPart_dev (k := 4) (by decide) (by unfold Reg.updPart; omega)
theorem regPart_vehCfg {n : Nat} (hn : n < 144) : regPart (Reg.vehCfg n) = .rVeh := regPart_link (k := 2) (by unfold Reg.vehCfg; omega) (by unfold Reg.vehCfg; omega) (by unfold Reg.vehCfg; omega)
theorem regPart_vehCmd {n : Nat} (hn : n < 144) : regPart (Reg.vehCmd n) = .rVeh := regPart_link (k := 2) (by unfold Reg.vehCmd; omega) (by unfold Reg.vehCmd; omega) (by unfold Reg.vehCmd; omega)
theorem regPart_vehCounts {n : Nat} (hn : n < 144) : regPart (Reg.vehCounts n) = .rVeh := regPart_link (k := 2) (by unfold Reg.vehCounts; omega) (by unfold Reg.vehCounts; omega) (by unfold Reg.vehCounts; omega)
theorem regPart_vehDischKw {n : Nat} (hn : n < 144) : regPart (Reg.vehDischKw n) = .rVeh := regPart_link (k := 2) (by unfold Reg.vehDischKw; omega) (by unfold Reg.vehDischKw; omega) (by unfold Reg.vehDischKw; omega)
theorem regPart_vehEvCurr {n : Nat} (hn : n < 144) : regPart (Reg.vehEvCurr n) = .rVeh := regPart_link (k := 2) (by unfold Reg.vehEvCurr; omega) (by unfold Reg.vehEvCurr; omega) (by unfold Reg.vehEvCurr; omega)
theorem regPart_vehEvMacHi {n : Nat} (hn : n < 144) : regPart (Reg.vehEvMacHi n) = .rVeh := regPart_link (k := 2) (by unfold Reg.vehEvMacHi; omega) (by unfold Reg.vehEvMacHi; omega) (by unfold Reg.vehEvMacHi; omega)
theorem regPart_vehEvMacLo {n : Nat} (hn : n < 144) : regPart (Reg.vehEvMacLo n) = .rVeh := regPart_link (k := 2) (by unfold Reg.vehEvMacLo; omega) (by unfold Reg.vehEvMacLo; omega) (by unfold Reg.vehEvMacLo; omega)
theorem regPart_vehEvPower {n : Nat} (hn : n < 144) : regPart (Reg.vehEvPower n) = .rVeh := regPart_link (k := 2) (by unfold Reg.vehEvPower; omega) (by unfold Reg.vehEvPower; omega) (by unfold Reg.vehEvPower; omega)
theorem regPart_vehEvSoc {n : Nat} (hn : n < 144) : regPart (Reg.vehEvSoc n) = .rVeh := regPart_link (k := 2) (by unfold Reg.vehEvSoc; omega) (by unfold Reg.vehEvSoc; omega) (by unfold Reg.vehEvSoc; omega)
theorem regPart_vehEvVolt {n : Nat} (hn : n < 144) : regPart (Reg.vehEvVolt n) = .rVeh := regPart_link (k := 2) (by unfold Reg.vehEvVolt; omega) (by unfold Reg.vehEvVolt; omega) (by unfold Reg.vehEvVolt; omega)
theorem regPart_vehEvents {n : Nat} (hn : n < 144) : regPart (Reg.vehEvents n) = .rVeh := regPart_link (k := 2) (by unfold Reg.vehEvents; omega) (by unfold Reg.vehEvents; omega) (by unfold Reg.vehEvents; omega)
theorem regPart_vehLastEnd {n : Nat} (hn : n < 144) : regPart (Reg.vehLastEnd n) = .rVeh := regPart_link (k := 2) (by unfold Reg.vehLastEnd; omega) (by unfold Reg.vehLastEnd; omega) (by unfold Reg.vehLastEnd; omega)
theorem regPart_vehPub {n : Nat} (hn : n < 144) : regPart (Reg.vehPub n) = .rVeh := regPart_link (k := 2) (by unfold Reg.vehPub; omega) (by unfold Reg.vehPub; omega) (by unfold Reg.vehPub; omega)
theorem regPart_vehReq {n : Nat} (hn : n < 144) : regPart (Reg.vehReq n) = .rVeh := regPart_link (k := 2) (by unfold Reg.vehReq; omega) (by unfold Reg.vehReq; omega) (by unfold Reg.vehReq; omega)
theorem regPart_vehSlac {n : Nat} (hn : n < 144) : regPart (Reg.vehSlac n) = .rVeh := regPart_link (k := 2) (by unfold Reg.vehSlac; omega) (by unfold Reg.vehSlac; omega) (by unfold Reg.vehSlac; omega)
theorem regPart_vehXStop {n : Nat} (hn : n < 144) : regPart (Reg.vehXStop n) = .rVeh := regPart_link (k := 2) (by unfold Reg.vehXStop; omega) (by unfold Reg.vehXStop; omega) (by unfold Reg.vehXStop; omega)
theorem Dev.Keeps.raise {d e : Dev} {l : List Part} {r : EvReg} {bit : Nat} {arg : Word} {t : Option TenantId} (h : d.Keeps e l)
    (hs : Part.within [Part.recorder] l = true) (ha : Part.isIn l (regPart r.addr) = true) : d.Keeps (e.raise r bit arg t) l := by
  unfold Dev.raise
  extract_lets
  repeat' first | with_reducible exact h | exact hs | exact ha | with_reducible apply Dev.Keeps.via (Dev.onRec_keeps _ _) | with_reducible apply Dev.Keeps.via (Dev.logEvent_keeps _ _) | with_reducible apply Dev.Keeps.setReg | with_reducible apply Dev.Keeps.ite | with_reducible intro _

theorem Dev.Keeps.raiseAlways {d e : Dev} {l : List Part} {r : EvReg} {bit : Nat} {arg : Word} {t : Option TenantId} (h : d.Keeps e l)
    (hs : Part.within [Part.recorder] l = true) (ha : Part.isIn l (regPart r.addr) = true) : d.Keeps (e.raiseAlways r bit arg t) l := by
  unfold Dev.raiseAlways
  split
  · exact ((h.via' (Dev.onRec_keeps _ _) hs).setReg ha).via' (Dev.logEvent_keeps _ _) hs
  · exact h.raise hs ha

theorem Dev.Keeps.raiseIf {d e : Dev} {l : List Part} {c : Bool} {r : EvReg} {bit : Nat} {arg : Word} (h : d.Keeps e l)
    (hs : Part.within [Part.recorder] l = true) (ha : Part.isIn l (regPart r.addr) = true) : d.Keeps (e.raiseIf c r bit arg) l := by
  unfold Dev.raiseIf
  split
  · exact h.raise hs ha
  · exact h

end Sys2Proof.Machine
end

