-- ==== Sys2Proof/Laws/KeepsCore.lean ====
section
/-! SUPPORT. Which parts of the device an operation can change: what the recorder, links, metrology, engines and billing do. -/

namespace Sys2Proof.Machine

set_option Elab.async false

theorem Dev.happen_keeps (d : Dev) (source : Nat) (arg : Word := 0) (tenant : Option TenantId := none) : d.Keeps (d.happen source arg tenant) [.recorder] := by
  unfold Dev.happen
  repeat' first | with_reducible exact Dev.Keeps.rfl | ((with_reducible apply Part.within_goal); exact Eq.refl true) | ((with_reducible apply Part.isIn_goal); exact Eq.refl true) | with_reducible apply Dev.Keeps.via (Dev.logEvent_keeps _ _)

theorem Dev.lastWord_keeps (d : Dev) (code : Nat) (arg : Nat) : d.Keeps (d.lastWord code arg) [.mem] := by
  unfold Dev.lastWord
  repeat' first | with_reducible exact Dev.Keeps.rfl | ((with_reducible apply Part.within_goal); exact Eq.refl true) | ((with_reducible apply Part.isIn_goal); exact Eq.refl true) | with_reducible apply Dev.Keeps.via (Dev.onMem_keeps _ _) | with_reducible apply Dev.Keeps.ite | with_reducible intro _ | extract_lets

theorem Dev.loseRecords_keeps (d : Dev) (seqs : List Nat) : d.Keeps (d.loseRecords seqs) [.recorder, .rEvr] := by
  unfold Dev.loseRecords
  repeat' first | with_reducible exact Dev.Keeps.rfl | ((with_reducible apply Part.within_goal); exact Eq.refl true) | ((with_reducible apply Part.isIn_goal); exact Eq.refl true) | with_reducible apply Dev.Keeps.via (Dev.onRec_keeps _ _) | with_reducible apply Dev.Keeps.raise | with_reducible apply Dev.Keeps.count | with_reducible apply Dev.Keeps.foldl | with_reducible apply Dev.Keeps.ite | with_reducible intro _ | extract_lets

theorem Dev.retireBlock_keeps (d : Dev) (b : Fin 64) : d.Keeps (d.retireBlock b) [.recorder, .mem, .rEvr] := by
  unfold Dev.retireBlock
  repeat' first | with_reducible exact Dev.Keeps.rfl | ((with_reducible apply Part.within_goal); exact Eq.refl true) | ((with_reducible apply Part.isIn_goal); exact Eq.refl true) | with_reducible apply Dev.Keeps.via (Dev.loseRecords_keeps _ _) | with_reducible apply Dev.Keeps.via (Dev.onRec_keeps _ _) | with_reducible apply Dev.Keeps.via (Dev.lastWord_keeps _ _ _) | with_reducible apply Dev.Keeps.raise | with_reducible apply Dev.Keeps.ite | with_reducible intro _ | extract_lets

theorem Dev.ringWrite_keeps (d : Dev) (e : EventRecord) : d.Keeps (d.ringWrite e) [.recorder, .mem, .rEvr] := by
  unfold Dev.ringWrite
  repeat' first | with_reducible exact Dev.Keeps.rfl | ((with_reducible apply Part.within_goal); exact Eq.refl true) | ((with_reducible apply Part.isIn_goal); exact Eq.refl true) | with_reducible apply Dev.Keeps.via (Dev.retireBlock_keeps _ _) | with_reducible apply Dev.Keeps.via (Dev.onRec_keeps _ _) | with_reducible apply Dev.Keeps.via (Dev.loseRecords_keeps _ _) | with_reducible apply Dev.Keeps.ite | with_reducible intro _ | extract_lets

theorem Dev.consumePoison_keeps (d : Dev) (work : Bool) (word : Nat) : d.Keeps (d.consumePoison work word) [.mem, .rMem] := by
  unfold Dev.consumePoison
  repeat' first | with_reducible exact Dev.Keeps.rfl | ((with_reducible apply Part.within_goal); exact Eq.refl true) | ((with_reducible apply Part.isIn_goal); exact Eq.refl true) | with_reducible apply Dev.Keeps.via (Dev.onMem_keeps _ _) | with_reducible apply Dev.Keeps.count | with_reducible apply Dev.Keeps.ite | with_reducible intro _ | extract_lets

theorem Dev.writeEvent_keeps (d : Dev) (view : Nat → Word) (poison : Nat → Option (Bool × Nat)) (e : TickEvent) : d.Keeps (d.writeEvent view poison e) [.recorder, .mem, .rMem, .rEvr] := by
  unfold Dev.writeEvent
  repeat' first | with_reducible exact Dev.Keeps.rfl | ((with_reducible apply Part.within_goal); exact Eq.refl true) | ((with_reducible apply Part.isIn_goal); exact Eq.refl true) | with_reducible apply Dev.Keeps.via (Dev.ringWrite_keeps _ _) | with_reducible apply Dev.Keeps.via (Dev.onRec_keeps _ _) | with_reducible apply Dev.Keeps.via (Dev.consumePoison_keeps _ _ _) | with_reducible apply Dev.Keeps.foldl | with_reducible apply Dev.Keeps.ite | with_reducible intro _ | extract_lets

theorem Dev.closeEvents_keeps (d : Dev) (view : Nat → Word) (poison : Nat → Option (Bool × Nat)) : d.Keeps (d.closeEvents view poison) [.recorder, .mem, .rMem, .rEvr] := by
  unfold Dev.closeEvents
  repeat' first | with_reducible exact Dev.Keeps.rfl | ((with_reducible apply Part.within_goal); exact Eq.refl true) | ((with_reducible apply Part.isIn_goal); exact Eq.refl true) | with_reducible apply Dev.Keeps.via (Dev.writeEvent_keeps _ _ _ _) | with_reducible apply Dev.Keeps.via (Dev.onRec_keeps _ _) | with_reducible apply Dev.Keeps.count | with_reducible apply Dev.Keeps.foldl | with_reducible apply Dev.Keeps.ite | with_reducible intro _ | extract_lets

theorem Dev.openTick_keeps (d : Dev) : d.Keeps (d.openTick) [.rEvr] := by
  unfold Dev.openTick
  repeat' first | with_reducible exact Dev.Keeps.rfl | ((with_reducible apply Part.within_goal); exact Eq.refl true) | ((with_reducible apply Part.isIn_goal); exact Eq.refl true) | with_reducible apply Dev.Keeps.setReg | with_reducible apply Dev.Keeps.ite | with_reducible intro _

theorem Dev.queueReq_keeps (d : Dev) (n : LinkId) (p : RegPurpose) (addr : Nat) (write : Option Word) : d.Keeps (d.queueReq n p addr write) [.lnk] := by
  unfold Dev.queueReq
  repeat' first | with_reducible exact Dev.Keeps.rfl | ((with_reducible apply Part.within_goal); exact Eq.refl true) | ((with_reducible apply Part.isIn_goal); exact Eq.refl true) | with_reducible apply Dev.Keeps.via (Dev.onLnk_keeps _ _ _) | extract_lets

theorem Dev.reqDone_keeps (d : Dev) (n : LinkId) : d.Keeps (d.reqDone n) [.lnk] := by
  unfold Dev.reqDone
  repeat' first | with_reducible exact Dev.Keeps.rfl | ((with_reducible apply Part.within_goal); exact Eq.refl true) | ((with_reducible apply Part.isIn_goal); exact Eq.refl true) | with_reducible apply Dev.Keeps.via (Dev.onLnk_keeps _ _ _)

theorem Dev.preemptWith_keeps (d : Dev) (n : LinkId) (p : Preempt) : d.Keeps (d.preemptWith n p) [.lnk, .con] := by
  unfold Dev.preemptWith
  repeat' first | with_reducible exact Dev.Keeps.rfl | ((with_reducible apply Part.within_goal); exact Eq.refl true) | ((with_reducible apply Part.isIn_goal); exact Eq.refl true) | with_reducible apply Dev.Keeps.onLink | (intro p hp; cases p <;> first | exact Eq.refl _ | exact True.intro | exact absurd (by decide) hp) | with_reducible apply Dev.Keeps.ite | with_reducible intro _ | extract_lets

theorem Dev.sendTrip_keeps (d : Dev) (n : LinkId) (cls : Nat) : d.Keeps (d.sendTrip n cls) [.recorder, .lnk, .con, .rLnk] := by
  unfold Dev.sendTrip
  repeat' first | with_reducible exact Dev.Keeps.rfl | ((with_reducible apply Part.within_goal); exact Eq.refl true) | ((with_reducible apply Part.isIn_goal); first | exact Eq.refl true | exact contains_of (regPart_lnkEvents (Nat.lt_of_lt_of_le (Fin.isLt _) (by decide))) (Eq.refl true) | exact contains_of (regPart_lnkTripLast (Nat.lt_of_lt_of_le (Fin.isLt _) (by decide))) (Eq.refl true)) | with_reducible apply Dev.Keeps.via (Dev.onLnk_keeps _ _ _) | with_reducible apply Dev.Keeps.via (Dev.preemptWith_keeps _ _ _) | with_reducible apply Dev.Keeps.setReg | with_reducible apply Dev.Keeps.raise | with_reducible apply Dev.Keeps.ite | with_reducible intro _ | extract_lets | split | (dsimp +zetaDelta only; split)

theorem Dev.sendRelease_keeps (d : Dev) (n : LinkId) : d.Keeps (d.sendRelease n) [.lnk, .con] := by
  unfold Dev.sendRelease
  repeat' first | with_reducible exact Dev.Keeps.rfl | ((with_reducible apply Part.within_goal); exact Eq.refl true) | ((with_reducible apply Part.isIn_goal); exact Eq.refl true) | with_reducible apply Dev.Keeps.via (Dev.preemptWith_keeps _ _ _) | with_reducible apply Dev.Keeps.ite | with_reducible intro _

theorem Dev.settleLink_keeps (d : Dev) (n : LinkId) : d.Keeps (d.settleLink n) [.lnk] := by
  unfold Dev.settleLink
  repeat' first | with_reducible exact Dev.Keeps.rfl | ((with_reducible apply Part.within_goal); exact Eq.refl true) | ((with_reducible apply Part.isIn_goal); exact Eq.refl true) | with_reducible apply Dev.Keeps.via (Dev.onLnk_keeps _ _ _) | with_reducible apply Dev.Keeps.ite | with_reducible intro _ | extract_lets

theorem Dev.beginTraining_keeps (d : Dev) (n : LinkId) : d.Keeps (d.beginTraining n) [.lnk, .rLnk] := by
  unfold Dev.beginTraining
  repeat' first | with_reducible exact Dev.Keeps.rfl | ((with_reducible apply Part.within_goal); exact Eq.refl true) | ((with_reducible apply Part.isIn_goal); first | exact Eq.refl true | exact contains_of (regPart_lnkFailRx (Nat.lt_of_lt_of_le (Fin.isLt _) (by decide))) (Eq.refl true) | exact contains_of (regPart_lnkTrainCnt (Nat.lt_of_lt_of_le (Fin.isLt _) (by decide))) (Eq.refl true)) | with_reducible apply Dev.Keeps.via (Dev.onLnk_keeps _ _ _) | with_reducible apply Dev.Keeps.setReg | with_reducible apply Dev.Keeps.count

theorem Dev.endBridge_keeps (d : Dev) (n : LinkId) : d.Keeps (d.endBridge n) [.met] := by
  unfold Dev.endBridge
  repeat' first | with_reducible exact Dev.Keeps.rfl | ((with_reducible apply Part.within_goal); exact Eq.refl true) | ((with_reducible apply Part.isIn_goal); exact Eq.refl true) | with_reducible apply Dev.Keeps.via (Dev.onMet_keeps _ _ _)

theorem Dev.failTraining_keeps (d : Dev) (n : LinkId) : d.Keeps (d.failTraining n) [.recorder, .lnk, .rLnk] := by
  unfold Dev.failTraining
  repeat' first | with_reducible exact Dev.Keeps.rfl | ((with_reducible apply Part.within_goal); exact Eq.refl true) | ((with_reducible apply Part.isIn_goal); first | exact Eq.refl true | exact contains_of (regPart_lnkEvents (Nat.lt_of_lt_of_le (Fin.isLt _) (by decide))) (Eq.refl true)) | with_reducible apply Dev.Keeps.via (Dev.onLnk_keeps _ _ _) | with_reducible apply Dev.Keeps.raise

theorem Dev.tpoCheck_keeps (d : Dev) : d.Keeps (d.tpoCheck) [.recorder, .rLio] := by
  unfold Dev.tpoCheck
  repeat' first | with_reducible exact Dev.Keeps.rfl | ((with_reducible apply Part.within_goal); exact Eq.refl true) | ((with_reducible apply Part.isIn_goal); exact Eq.refl true) | with_reducible apply Dev.Keeps.raiseIf | with_reducible apply Dev.Keeps.each | with_reducible intro _

theorem regPart_tpoCnt (k : Fin 2) : regPart (tpoCnt k) = .rLio := by unfold tpoCnt; split <;> rfl

theorem Dev.queuePulses_keeps (d : Dev) (k : Fin 2) (c : Nat) : d.Keeps (d.queuePulses k c) [.tpo, .recorder, .rLio] := by
  induction c generalizing d with
  | zero => exact Dev.Keeps.rfl
  | succ c ih =>
    refine Dev.Keeps.trans ?_ (ih _) fun _ h => h
    extract_lets
    repeat' first | with_reducible exact Dev.Keeps.rfl | exact Eq.refl true | with_reducible apply Dev.Keeps.via (Dev.onTpo_keeps _ _ _) | with_reducible apply Dev.Keeps.raise | with_reducible apply Dev.Keeps.raiseIf | with_reducible apply Dev.Keeps.raise | with_reducible apply Dev.Keeps.setReg | exact contains_of (regPart_tpoCnt _) (Eq.refl true) | with_reducible apply Dev.Keeps.ite | with_reducible intro _

theorem Dev.tpoPin_keeps (d : Dev) (k : Fin 2) : d.Keeps (d.tpoPin k) [.tpo] := by
  unfold Dev.tpoPin
  repeat' first | with_reducible exact Dev.Keeps.rfl | ((with_reducible apply Part.within_goal); exact Eq.refl true) | ((with_reducible apply Part.isIn_goal); exact Eq.refl true) | with_reducible apply Dev.Keeps.via (Dev.onTpo_keeps _ _ _)

theorem Dev.tpoSample_keeps (d : Dev) (n : LinkId) (p : Int) : d.Keeps (d.tpoSample n p) [.tpo, .recorder, .rLio] := by
  unfold Dev.tpoSample
  repeat' first | with_reducible exact Dev.Keeps.rfl | ((with_reducible apply Part.within_goal); exact Eq.refl true) | ((with_reducible apply Part.isIn_goal); exact Eq.refl true) | with_reducible apply Dev.Keeps.via (Dev.queuePulses_keeps _ _ _) | with_reducible apply Dev.Keeps.via (Dev.onTpo_keeps _ _ _) | with_reducible apply Dev.Keeps.each | with_reducible apply Dev.Keeps.ite | with_reducible intro _ | extract_lets

theorem Dev.pqEnd_keeps (d : Dev) (n : LinkId) (kind : Nat) (e : PqEvent) : d.Keeps (d.pqEnd n kind e) [.recorder, .rMet] := by
  unfold Dev.pqEnd
  repeat' first | with_reducible exact Dev.Keeps.rfl | ((with_reducible apply Part.within_goal); exact Eq.refl true) | ((with_reducible apply Part.isIn_goal); first | exact Eq.refl true | exact contains_of (regPart_metDipCnt (Nat.lt_of_lt_of_le (Fin.isLt _) (by decide))) (Eq.refl true) | exact contains_of (regPart_metEvents (Nat.lt_of_lt_of_le (Fin.isLt _) (by decide))) (Eq.refl true) | exact contains_of (regPart_metPqLast0 (Nat.lt_of_lt_of_le (Fin.isLt _) (by decide))) (Eq.refl true) | exact contains_of (regPart_metPqLast1 (Nat.lt_of_lt_of_le (Fin.isLt _) (by decide))) (Eq.refl true) | exact contains_of (regPart_metPqLast2 (Nat.lt_of_lt_of_le (Fin.isLt _) (by decide))) (Eq.refl true) | exact contains_of (regPart_metSwellCnt (Nat.lt_of_lt_of_le (Fin.isLt _) (by decide))) (Eq.refl true)) | with_reducible apply Dev.Keeps.setReg | with_reducible apply Dev.Keeps.raise | with_reducible apply Dev.Keeps.count | with_reducible apply Dev.Keeps.ite | with_reducible intro _ | extract_lets

theorem Dev.pqSample_keeps (d : Dev) (n : LinkId) (ys : List Int) : d.Keeps (d.pqSample n ys) [.recorder, .met, .rMet] := by
  unfold Dev.pqSample
  repeat' first | with_reducible exact Dev.Keeps.rfl | ((with_reducible apply Part.within_goal); exact Eq.refl true) | ((with_reducible apply Part.isIn_goal); exact Eq.refl true) | with_reducible apply Dev.Keeps.via (Dev.onMet_keeps _ _ _) | with_reducible apply Dev.Keeps.via (Dev.pqEnd_keeps _ _ _ _) | with_reducible apply Dev.Keeps.each | with_reducible apply Dev.Keeps.ite | with_reducible intro _ | extract_lets | split | (dsimp +zetaDelta only; split)

theorem Dev.sampleFlags_keeps (d : Dev) (n : LinkId) (bridged : Bool) (sats : Nat) (tempNow : Bool) : d.Keeps (d.sampleFlags n bridged sats tempNow) [.recorder, .met, .rMet] := by
  unfold Dev.sampleFlags
  repeat' first | with_reducible exact Dev.Keeps.rfl | ((with_reducible apply Part.within_goal); exact Eq.refl true) | ((with_reducible apply Part.isIn_goal); first | exact Eq.refl true | exact contains_of (regPart_metEvents (Nat.lt_of_lt_of_le (Fin.isLt _) (by decide))) (Eq.refl true)) | with_reducible apply Dev.Keeps.via (Dev.onMet_keeps _ _ _) | with_reducible apply Dev.Keeps.raise | with_reducible apply Dev.Keeps.raiseIf | with_reducible apply Dev.Keeps.each | with_reducible intro _ | extract_lets

theorem Dev.linkSample_keeps (d : Dev) (n : LinkId) : d.Keeps (d.linkSample n) [.grid, .tpo, .recorder, .met, .rLio, .rMet] := by
  unfold Dev.linkSample
  repeat' first | with_reducible exact Dev.Keeps.rfl | ((with_reducible apply Part.within_goal); exact Eq.refl true) | ((with_reducible apply Part.isIn_goal); exact Eq.refl true) | with_reducible apply Dev.Keeps.via (Dev.onMet_keeps _ _ _) | with_reducible apply Dev.Keeps.via (Dev.sampleFlags_keeps _ _ _ _ _) | with_reducible apply Dev.Keeps.via (Dev.tpoSample_keeps _ _ _) | with_reducible apply Dev.Keeps.via (Dev.pqSample_keeps _ _ _) | with_reducible apply Dev.Keeps.via (Dev.onGrid_keeps _ _) | with_reducible apply Dev.Keeps.applyIf | with_reducible apply Dev.Keeps.foldl | with_reducible apply Dev.Keeps.ite | with_reducible intro _ | extract_lets

theorem Dev.sampleLink_keeps (d : Dev) (n : LinkId) : d.Keeps (d.sampleLink n) [.grid, .tpo, .recorder, .met, .rLio, .rMet] := by
  unfold Dev.sampleLink
  repeat' first | with_reducible exact Dev.Keeps.rfl | ((with_reducible apply Part.within_goal); exact Eq.refl true) | ((with_reducible apply Part.isIn_goal); exact Eq.refl true) | with_reducible apply Dev.Keeps.via (Dev.onMet_keeps _ _ _) | with_reducible apply Dev.Keeps.via (Dev.linkSample_keeps _ _) | with_reducible apply Dev.Keeps.applyIf | with_reducible intro _ | extract_lets

theorem Dev.latchPlanning_keeps (d : Dev) (n : LinkId) : d.Keeps (d.latchPlanning n) [.recorder, .met, .rMet] := by
  unfold Dev.latchPlanning
  repeat' first | with_reducible exact Dev.Keeps.rfl | ((with_reducible apply Part.within_goal); exact Eq.refl true) | ((with_reducible apply Part.isIn_goal); first | exact Eq.refl true | exact contains_of (regPart_metDc (Nat.lt_of_lt_of_le (Fin.isLt _) (by decide)) (by first | exact Nat.lt_of_lt_of_le (Fin.isLt _) (by decide) | exact lt_of_range (by assumption) (by decide) | exact lt_of_range (by assumption) (Nat.le_trans (Role.channels_le _) (by decide)) | decide | omega | (simp at *; omega))) (Eq.refl true) | exact contains_of (regPart_metEvents (Nat.lt_of_lt_of_le (Fin.isLt _) (by decide))) (Eq.refl true) | exact contains_of (regPart_metFreq (Nat.lt_of_lt_of_le (Fin.isLt _) (by decide))) (Eq.refl true) | exact contains_of (regPart_metPower (Nat.lt_of_lt_of_le (Fin.isLt _) (by decide))) (Eq.refl true) | exact contains_of (regPart_metPph (Nat.lt_of_lt_of_le (Fin.isLt _) (by decide)) (by first | exact Nat.lt_of_lt_of_le (Fin.isLt _) (by decide) | exact lt_of_range (by assumption) (by decide) | exact lt_of_range (by assumption) (Nat.le_trans (Role.channels_le _) (by decide)) | decide | omega | (simp at *; omega))) (Eq.refl true) | exact contains_of (regPart_metRms (Nat.lt_of_lt_of_le (Fin.isLt _) (by decide)) (by first | exact Nat.lt_of_lt_of_le (Fin.isLt _) (by decide) | exact lt_of_range (by assumption) (by decide) | exact lt_of_range (by assumption) (Nat.le_trans (Role.channels_le _) (by decide)) | decide | omega | (simp at *; omega))) (Eq.refl true)) | with_reducible apply Dev.Keeps.via (Dev.onMet_keeps _ _ _) | with_reducible apply Dev.Keeps.setReg | with_reducible apply Dev.Keeps.raiseIf | with_reducible apply Dev.Keeps.each | with_reducible apply Dev.Keeps.ite | with_reducible intro _ | extract_lets

theorem Dev.harmonics_keeps (d : Dev) (n : LinkId) : d.Keeps (d.harmonics n) [.rMet] := by
  unfold Dev.harmonics
  repeat' first | with_reducible exact Dev.Keeps.rfl | ((with_reducible apply Part.within_goal); exact Eq.refl true) | ((with_reducible apply Part.isIn_goal); first | exact Eq.refl true | exact contains_of (regPart_metH (Nat.lt_of_lt_of_le (Fin.isLt _) (by decide)) (by first | exact Nat.lt_of_lt_of_le (Fin.isLt _) (by decide) | exact lt_of_range (by assumption) (by decide) | exact lt_of_range (by assumption) (Nat.le_trans (Role.channels_le _) (by decide)) | decide | omega | (simp at *; omega)) (by first | exact Nat.lt_of_lt_of_le (Fin.isLt _) (by decide) | exact lt_of_range (by assumption) (by decide) | exact lt_of_range (by assumption) (Nat.le_trans (Role.channels_le _) (by decide)) | decide | omega | (simp at *; omega))) (Eq.refl true) | exact contains_of (regPart_metThd (Nat.lt_of_lt_of_le (Fin.isLt _) (by decide)) (by first | exact Nat.lt_of_lt_of_le (Fin.isLt _) (by decide) | exact lt_of_range (by assumption) (by decide) | exact lt_of_range (by assumption) (Nat.le_trans (Role.channels_le _) (by decide)) | decide | omega | (simp at *; omega))) (Eq.refl true)) | with_reducible apply Dev.Keeps.setReg | with_reducible apply Dev.Keeps.each | with_reducible apply Dev.Keeps.ite | with_reducible intro _ | extract_lets

theorem Dev.latchLap_keeps (d : Dev) (n : LinkId) : d.Keeps (d.latchLap n) [.met, .rMet] := by
  unfold Dev.latchLap
  repeat' first | with_reducible exact Dev.Keeps.rfl | ((with_reducible apply Part.within_goal); exact Eq.refl true) | ((with_reducible apply Part.isIn_goal); first | exact Eq.refl true | exact contains_of (regPart_metLapBridged (Nat.lt_of_lt_of_le (Fin.isLt _) (by decide))) (Eq.refl true) | exact contains_of (regPart_metLapExpHi (Nat.lt_of_lt_of_le (Fin.isLt _) (by decide))) (Eq.refl true) | exact contains_of (regPart_metLapExpLo (Nat.lt_of_lt_of_le (Fin.isLt _) (by decide))) (Eq.refl true) | exact contains_of (regPart_metLapFlags (Nat.lt_of_lt_of_le (Fin.isLt _) (by decide))) (Eq.refl true) | exact contains_of (regPart_metLapImpHi (Nat.lt_of_lt_of_le (Fin.isLt _) (by decide))) (Eq.refl true) | exact contains_of (regPart_metLapImpLo (Nat.lt_of_lt_of_le (Fin.isLt _) (by decide))) (Eq.refl true) | exact contains_of (regPart_metLapNum (Nat.lt_of_lt_of_le (Fin.isLt _) (by decide))) (Eq.refl true) | exact contains_of (regPart_metPkmax (Nat.lt_of_lt_of_le (Fin.isLt _) (by decide)) (by first | exact Nat.lt_of_lt_of_le (Fin.isLt _) (by decide) | exact lt_of_range (by assumption) (by decide) | exact lt_of_range (by assumption) (Nat.le_trans (Role.channels_le _) (by decide)) | decide | omega | (simp at *; omega))) (Eq.refl true) | exact contains_of (regPart_metPkmin (Nat.lt_of_lt_of_le (Fin.isLt _) (by decide)) (by first | exact Nat.lt_of_lt_of_le (Fin.isLt _) (by decide) | exact lt_of_range (by assumption) (by decide) | exact lt_of_range (by assumption) (Nat.le_trans (Role.channels_le _) (by decide)) | decide | omega | (simp at *; omega))) (Eq.refl true)) | with_reducible apply Dev.Keeps.via (Dev.onMet_keeps _ _ _) | with_reducible apply Dev.Keeps.setReg | with_reducible apply Dev.Keeps.each | with_reducible intro _ | extract_lets

theorem Dev.randomDrawn_keeps (d : Dev) : d.Keeps (d.randomDrawn) [.sec, .fresh] := by
  unfold Dev.randomDrawn
  repeat' first | with_reducible exact Dev.Keeps.rfl | ((with_reducible apply Part.within_goal); exact Eq.refl true) | ((with_reducible apply Part.isIn_goal); exact Eq.refl true) | with_reducible apply Dev.Keeps.via (Dev.onSec_keeps _ _) | with_reducible apply Dev.Keeps.drew

theorem Dev.holdForRng_keeps (d : Dev) (w : RngWait) : d.Keeps (d.holdForRng w) [.sec] := by
  unfold Dev.holdForRng
  repeat' first | with_reducible exact Dev.Keeps.rfl | ((with_reducible apply Part.within_goal); exact Eq.refl true) | ((with_reducible apply Part.isIn_goal); exact Eq.refl true) | with_reducible apply Dev.Keeps.via (Dev.onSec_keeps _ _)

theorem Dev.dropRngWait_keeps (d : Dev) (gone : RngWait → Bool) : d.Keeps (d.dropRngWait gone) [.sec] := by
  unfold Dev.dropRngWait
  repeat' first | with_reducible exact Dev.Keeps.rfl | ((with_reducible apply Part.within_goal); exact Eq.refl true) | ((with_reducible apply Part.isIn_goal); exact Eq.refl true) | with_reducible apply Dev.Keeps.via (Dev.onSec_keeps _ _)

theorem Dev.waited_keeps (d : Dev) (us : Nat) : d.Keeps (d.waited us) [.rSec] := by
  unfold Dev.waited
  repeat' first | with_reducible exact Dev.Keeps.rfl | ((with_reducible apply Part.within_goal); exact Eq.refl true) | ((with_reducible apply Part.isIn_goal); exact Eq.refl true) | with_reducible apply Dev.Keeps.setReg | with_reducible apply Dev.Keeps.ite | with_reducible intro _

theorem Dev.feedAsym_keeps (d : Dev) (e : Fin 24) : d.Keeps (d.feedAsym e) [.sec, .rSec] := by
  unfold Dev.feedAsym
  repeat' first | with_reducible exact Dev.Keeps.rfl | ((with_reducible apply Part.within_goal); exact Eq.refl true) | ((with_reducible apply Part.isIn_goal); exact Eq.refl true) | with_reducible apply Dev.Keeps.via (Dev.waited_keeps _ _) | with_reducible apply Dev.Keeps.via (Dev.onSec_keeps _ _) | split | (dsimp +zetaDelta only; split)

theorem Dev.feedSym_keeps (d : Dev) (e : Fin 32) : d.Keeps (d.feedSym e) [.sec, .rSec] := by
  unfold Dev.feedSym
  repeat' first | with_reducible exact Dev.Keeps.rfl | ((with_reducible apply Part.within_goal); exact Eq.refl true) | ((with_reducible apply Part.isIn_goal); exact Eq.refl true) | with_reducible apply Dev.Keeps.via (Dev.waited_keeps _ _) | with_reducible apply Dev.Keeps.via (Dev.onSec_keeps _ _) | split | (dsimp +zetaDelta only; split)

theorem Dev.feedEngines_keeps (d : Dev) : d.Keeps (d.feedEngines) [.sec, .rSec] := by
  unfold Dev.feedEngines
  repeat' first | with_reducible exact Dev.Keeps.rfl | ((with_reducible apply Part.within_goal); exact Eq.refl true) | ((with_reducible apply Part.isIn_goal); exact Eq.refl true) | with_reducible apply Dev.Keeps.via (Dev.feedAsym_keeps _ _) | with_reducible apply Dev.Keeps.via (Dev.feedSym_keeps _ _) | with_reducible apply Dev.Keeps.via (Dev.onSec_keeps _ _) | with_reducible apply Dev.Keeps.each | with_reducible intro _ | extract_lets

theorem Dev.request_keeps (d : Dev) (use : CryptoUse) (cls : CryptoClass) (ops : List CryptoOp) (covered : Bool) (rank : Nat := 640) : d.Keeps (d.request use cls ops covered rank) [.sec, .recorder, .rSec] := by
  unfold Dev.request
  repeat' first | with_reducible exact Dev.Keeps.rfl | ((with_reducible apply Part.within_goal); exact Eq.refl true) | ((with_reducible apply Part.isIn_goal); exact Eq.refl true) | with_reducible apply Dev.Keeps.via (Dev.onSec_keeps _ _) | with_reducible apply Dev.Keeps.raise | with_reducible apply Dev.Keeps.ite | with_reducible intro _ | extract_lets

theorem Dev.dueNow_keeps (d : Dev) (u : CryptoUse) (rank : Nat := 640) : d.Keeps (d.dueNow u rank) [.sec] := by
  unfold Dev.dueNow
  repeat' first | with_reducible exact Dev.Keeps.rfl | ((with_reducible apply Part.within_goal); exact Eq.refl true) | ((with_reducible apply Part.isIn_goal); exact Eq.refl true) | with_reducible apply Dev.Keeps.via (Dev.onSec_keeps _ _)

theorem Dev.finish_keeps (d : Dev) (u : CryptoUse) : d.Keeps (d.finish u) [.sec] := by
  unfold Dev.finish
  repeat' first | with_reducible exact Dev.Keeps.rfl | ((with_reducible apply Part.within_goal); exact Eq.refl true) | ((with_reducible apply Part.isIn_goal); exact Eq.refl true) | with_reducible apply Dev.Keeps.via (Dev.onSec_keeps _ _) | with_reducible apply Dev.Keeps.ite | with_reducible intro _ | extract_lets

theorem Dev.cancel_keeps (d : Dev) (u : CryptoUse) : d.Keeps (d.cancel u) [.sec] := by
  unfold Dev.cancel
  repeat' first | with_reducible exact Dev.Keeps.rfl | ((with_reducible apply Part.within_goal); exact Eq.refl true) | ((with_reducible apply Part.isIn_goal); exact Eq.refl true) | with_reducible apply Dev.Keeps.via (Dev.onSec_keeps _ _) | with_reducible apply Dev.Keeps.ite | with_reducible intro _ | extract_lets

theorem Dev.commit_keeps (d : Dev) (key : Nat) (c : Commit) : d.Keeps (d.commit key c) [.commits] := by
  unfold Dev.commit
  repeat' first | with_reducible exact Dev.Keeps.rfl | ((with_reducible apply Part.within_goal); exact Eq.refl true) | ((with_reducible apply Part.isIn_goal); exact Eq.refl true) | with_reducible apply Dev.Keeps.to_commits

theorem Dev.freeEngine_keeps (d : Dev) (k : EngineKind) (e : Fin 32) : d.Keeps (d.freeEngine k e).2 [.sec] := by
  unfold Dev.freeEngine
  repeat' first | with_reducible exact Dev.Keeps.rfl | ((with_reducible apply Part.within_goal); exact Eq.refl true) | ((with_reducible apply Part.isIn_goal); exact Eq.refl true) | with_reducible apply Dev.Keeps.via (Dev.onSec_keeps _ _) | with_reducible apply Dev.Keeps.ite | with_reducible intro _ | split | dsimp only | (dsimp +zetaDelta only; split)

theorem Dev.violation_keeps (d : Dev) (addr : Word) (cause : Nat) (write : Bool) : d.Keeps (d.violation addr cause write) [.sec, .recorder, .rSec] := by
  unfold Dev.violation
  repeat' first | with_reducible exact Dev.Keeps.rfl | ((with_reducible apply Part.within_goal); exact Eq.refl true) | ((with_reducible apply Part.isIn_goal); exact Eq.refl true) | with_reducible apply Dev.Keeps.via (Dev.onSec_keeps _ _) | with_reducible apply Dev.Keeps.setReg | with_reducible apply Dev.Keeps.raise | with_reducible apply Dev.Keeps.count | with_reducible apply Dev.Keeps.ite | with_reducible intro _ | extract_lets

theorem Dev.closeSegment_keeps (d : Dev) (n : LinkId) : d.Keeps (d.closeSegment n) [.tenants, .recorder, .lbill, .rBil] := by
  unfold Dev.closeSegment
  repeat' first | with_reducible exact Dev.Keeps.rfl | ((with_reducible apply Part.within_goal); exact Eq.refl true) | ((with_reducible apply Part.isIn_goal); exact Eq.refl true) | with_reducible apply Dev.Keeps.via (Dev.onBill_keeps _ _ _) | with_reducible apply Dev.Keeps.via (Dev.onTenant_keeps _ _ _) | with_reducible apply Dev.Keeps.raise | with_reducible apply Dev.Keeps.ite | with_reducible intro _ | extract_lets | split | (dsimp +zetaDelta only; split)

theorem Dev.settleSegments_keeps (d : Dev) : d.Keeps (d.settleSegments) [.tenants, .recorder, .lbill, .rBil] := by
  unfold Dev.settleSegments
  repeat' first | with_reducible exact Dev.Keeps.rfl | ((with_reducible apply Part.within_goal); exact Eq.refl true) | ((with_reducible apply Part.isIn_goal); exact Eq.refl true) | with_reducible apply Dev.Keeps.via (Dev.onBill_keeps _ _ _) | with_reducible apply Dev.Keeps.via (Dev.closeSegment_keeps _ _) | with_reducible apply Dev.Keeps.each | with_reducible apply Dev.Keeps.ite | with_reducible intro _

theorem Dev.commitTotals_keeps (d : Dev) : d.Keeps (d.commitTotals) [.power, .met] := by
  unfold Dev.commitTotals
  repeat' first | with_reducible exact Dev.Keeps.rfl | ((with_reducible apply Part.within_goal); exact Eq.refl true) | ((with_reducible apply Part.isIn_goal); exact Eq.refl true) | with_reducible apply Dev.Keeps.via (Dev.onPower_keeps _ _) | with_reducible apply Dev.Keeps.via (Dev.onMet_keeps _ _ _) | with_reducible apply Dev.Keeps.each | with_reducible apply Dev.Keeps.ite | with_reducible intro _

theorem Dev.commitTenant_keeps (d : Dev) (t : TenantId) (f : Tenant → Tenant) : d.Keeps (d.commitTenant t f) [.tenants, .recorder] := by
  unfold Dev.commitTenant
  repeat' first | with_reducible exact Dev.Keeps.rfl | ((with_reducible apply Part.within_goal); exact Eq.refl true) | ((with_reducible apply Part.isIn_goal); exact Eq.refl true) | with_reducible apply Dev.Keeps.via (Dev.onTenant_keeps _ _ _) | with_reducible apply Dev.Keeps.via (Dev.happen_keeps _ _ _ _) | with_reducible apply Dev.Keeps.ite | with_reducible intro _

theorem Dev.sumResv_keeps (d : Dev) (t : TenantId) : d.Keeps (d.sumResv t) [.tenants] := by
  unfold Dev.sumResv
  repeat' first | with_reducible exact Dev.Keeps.rfl | ((with_reducible apply Part.within_goal); exact Eq.refl true) | ((with_reducible apply Part.isIn_goal); exact Eq.refl true) | with_reducible apply Dev.Keeps.via (Dev.onTenant_keeps _ _ _) | extract_lets

theorem Dev.checkLow_keeps (d was : Dev) (t : TenantId) : d.Keeps (d.checkLow was t) [.tenants, .recorder, .rTen] := by
  unfold Dev.checkLow
  repeat' first | with_reducible exact Dev.Keeps.rfl | ((with_reducible apply Part.within_goal); exact Eq.refl true) | ((with_reducible apply Part.isIn_goal); first | exact Eq.refl true | exact contains_of (regPart_bilTEvents) (Eq.refl true)) | with_reducible apply Dev.Keeps.via (Dev.onTenant_keeps _ _ _) | with_reducible apply Dev.Keeps.raise | with_reducible apply Dev.Keeps.ite | with_reducible intro _

theorem Dev.armLow_keeps (d : Dev) : d.Keeps (d.armLow) [.tenants] := by
  unfold Dev.armLow
  repeat' first | with_reducible exact Dev.Keeps.rfl | ((with_reducible apply Part.within_goal); exact Eq.refl true) | ((with_reducible apply Part.isIn_goal); exact Eq.refl true) | with_reducible apply Dev.Keeps.via (Dev.onTenant_keeps _ _ _) | with_reducible apply Dev.Keeps.each | with_reducible intro _

theorem Dev.charge_keeps (d : Dev) (n : LinkId) : d.Keeps (d.charge n) [.tenants, .recorder, .lbill, .rTen] := by
  unfold Dev.charge
  repeat' first | with_reducible exact Dev.Keeps.rfl | ((with_reducible apply Part.within_goal); exact Eq.refl true) | ((with_reducible apply Part.isIn_goal); exact Eq.refl true) | with_reducible apply Dev.Keeps.via (Dev.checkLow_keeps _ _ _) | with_reducible apply Dev.Keeps.via (Dev.sumResv_keeps _ _) | with_reducible apply Dev.Keeps.via (Dev.commitTenant_keeps _ _ _) | with_reducible apply Dev.Keeps.via (Dev.onBill_keeps _ _ _) | extract_lets | split | (dsimp +zetaDelta only; split)

theorem Dev.reserve_keeps (d : Dev) (n : LinkId) : d.Keeps (d.reserve n) [.lbill] := by
  unfold Dev.reserve
  repeat' first | with_reducible exact Dev.Keeps.rfl | ((with_reducible apply Part.within_goal); exact Eq.refl true) | ((with_reducible apply Part.isIn_goal); exact Eq.refl true) | with_reducible apply Dev.Keeps.via (Dev.onBill_keeps _ _ _) | extract_lets | split | (dsimp +zetaDelta only; split)

theorem Dev.addRecord_keeps (d : Dev) (kind sub : Nat) (link : Option LinkId) (rank : Nat) (flags : Word) (poisoned : Bool)
    (body : List Byte) : d.Keeps (d.addRecord kind sub link rank flags poisoned body) [.bill] := by
  unfold Dev.addRecord
  repeat' first | with_reducible exact Dev.Keeps.rfl | ((with_reducible apply Part.within_goal); exact Eq.refl true) | ((with_reducible apply Part.isIn_goal); exact Eq.refl true) | with_reducible apply Dev.Keeps.via (Dev.onBilling_keeps _ _) | with_reducible apply Dev.Keeps.ite | with_reducible intro _ | extract_lets

theorem Dev.keepOldKey_keeps (d : Dev) : d.Keeps (d.keepOldKey) [.sec] := by
  unfold Dev.keepOldKey
  repeat' first | with_reducible exact Dev.Keeps.rfl | ((with_reducible apply Part.within_goal); exact Eq.refl true) | ((with_reducible apply Part.isIn_goal); exact Eq.refl true) | with_reducible apply Dev.Keeps.via (Dev.onSec_keeps _ _)

theorem Dev.completeRecord_keeps (d : Dev) (seq : Nat) (bytes : List Byte) : d.Keeps (d.completeRecord seq bytes) [.bill, .sec, .recorder] := by
  unfold Dev.completeRecord
  repeat' first | with_reducible exact Dev.Keeps.rfl | ((with_reducible apply Part.within_goal); exact Eq.refl true) | ((with_reducible apply Part.isIn_goal); exact Eq.refl true) | with_reducible apply Dev.Keeps.via (Dev.onRec_keeps _ _) | with_reducible apply Dev.Keeps.via (Dev.keepOldKey_keeps _) | with_reducible apply Dev.Keeps.via (Dev.onBilling_keeps _ _) | with_reducible apply Dev.Keeps.ite | with_reducible intro _

theorem Dev.completeUnsignable_keeps (d : Dev) (r : QueuedRecord) : d.Keeps (d.completeUnsignable r) [.bill, .sec, .recorder, .mem, .rMem, .rBil] := by
  unfold Dev.completeUnsignable
  repeat' first | with_reducible exact Dev.Keeps.rfl | ((with_reducible apply Part.within_goal); exact Eq.refl true) | ((with_reducible apply Part.isIn_goal); first | exact Eq.refl true | exact contains_of (regPart_bilLapFlags (Nat.lt_of_lt_of_le (Fin.isLt _) (by decide))) (Eq.refl true)) | with_reducible apply Dev.Keeps.via (Dev.consumePoison_keeps _ _ _) | with_reducible apply Dev.Keeps.via (Dev.completeRecord_keeps _ _ _) | with_reducible apply Dev.Keeps.setReg | with_reducible apply Dev.Keeps.raise | with_reducible apply Dev.Keeps.ite | with_reducible intro _ | extract_lets | split | (dsimp +zetaDelta only; split)

theorem Dev.passUnsignable_keeps (d : Dev) (k : Nat) : d.Keeps (d.passUnsignable k) [.bill, .sec, .recorder, .mem, .rMem, .rBil] := by
  induction k generalizing d with
  | zero => exact Dev.Keeps.rfl
  | succ k ih =>
    unfold Dev.passUnsignable
    split
    · split
      · exact (Dev.completeUnsignable_keeps _ _).trans (ih _) fun _ h => h
      · exact Dev.Keeps.rfl
    · exact Dev.Keeps.rfl

theorem Dev.startSigning_keeps (d : Dev) : d.Keeps (d.startSigning) [.bill, .sec, .recorder, .mem, .rSec, .rMem, .rBil] := by
  unfold Dev.startSigning
  repeat' first | with_reducible exact Dev.Keeps.rfl | ((with_reducible apply Part.within_goal); exact Eq.refl true) | ((with_reducible apply Part.isIn_goal); exact Eq.refl true) | with_reducible apply Dev.Keeps.via (Dev.passUnsignable_keeps _ _) | with_reducible apply Dev.Keeps.via (Dev.request_keeps _ _ _ _ _ _) | with_reducible apply Dev.Keeps.ite | with_reducible intro _ | extract_lets | split | (dsimp +zetaDelta only; split)

theorem Dev.issueRecord_keeps (d : Dev) (r : QueuedRecord) : d.Keeps (d.issueRecord r) [.bill, .rBil] := by
  unfold Dev.issueRecord
  repeat' first | with_reducible exact Dev.Keeps.rfl | ((with_reducible apply Part.within_goal); exact Eq.refl true) | ((with_reducible apply Part.isIn_goal); first | exact Eq.refl true | exact contains_of (regPart_bilLapFlags (Nat.lt_of_lt_of_le (Fin.isLt _) (by decide))) (Eq.refl true) | exact contains_of (regPart_bilLapSeq (Nat.lt_of_lt_of_le (Fin.isLt _) (by decide))) (Eq.refl true)) | with_reducible apply Dev.Keeps.via (Dev.onBilling_keeps _ _) | with_reducible apply Dev.Keeps.setReg | extract_lets | split | (dsimp +zetaDelta only; split)

theorem Dev.dropLap_keeps (d : Dev) (r : QueuedRecord) : d.Keeps (d.dropLap r) [.recorder, .lbill, .rBil] := by
  unfold Dev.dropLap
  repeat' first | with_reducible exact Dev.Keeps.rfl | ((with_reducible apply Part.within_goal); exact Eq.refl true) | ((with_reducible apply Part.isIn_goal); exact Eq.refl true) | with_reducible apply Dev.Keeps.via (Dev.onBill_keeps _ _ _) | with_reducible apply Dev.Keeps.raise | split | (dsimp +zetaDelta only; split)

theorem Dev.issueWaiting_keeps (d : Dev) : d.Keeps (d.issueWaiting) [.bill, .sec, .recorder, .mem, .lbill, .rSec, .rMem, .rBil] := by
  unfold Dev.issueWaiting
  repeat' first | with_reducible exact Dev.Keeps.rfl | ((with_reducible apply Part.within_goal); exact Eq.refl true) | ((with_reducible apply Part.isIn_goal); exact Eq.refl true) | with_reducible apply Dev.Keeps.via (Dev.issueRecord_keeps _ _) | with_reducible apply Dev.Keeps.via (Dev.dropLap_keeps _ _) | with_reducible apply Dev.Keeps.via (Dev.onBilling_keeps _ _) | with_reducible apply Dev.Keeps.via (Dev.startSigning_keeps _) | with_reducible apply Dev.Keeps.foldl | with_reducible apply Dev.Keeps.ite | with_reducible intro _ | extract_lets

theorem Dev.lapRecord_keeps (d : Dev) (n : LinkId) (recon activation : Bool) : d.Keeps (d.lapRecord n recon activation) [.bill, .lbill] := by
  unfold Dev.lapRecord
  repeat' first | with_reducible exact Dev.Keeps.rfl | ((with_reducible apply Part.within_goal); exact Eq.refl true) | ((with_reducible apply Part.isIn_goal); exact Eq.refl true) | with_reducible apply Dev.Keeps.via (Dev.onBill_keeps _ _ _) | with_reducible apply Dev.Keeps.via (Dev.addRecord_keeps _ _ _ _ _ _ _ _) | extract_lets

theorem Dev.reconcile_keeps (d : Dev) : d.Keeps (d.reconcile).1 [.recorder, .rBil] := by
  unfold Dev.reconcile
  repeat' first | with_reducible exact Dev.Keeps.rfl | ((with_reducible apply Part.within_goal); exact Eq.refl true) | ((with_reducible apply Part.isIn_goal); exact Eq.refl true) | with_reducible apply Dev.Keeps.setReg | with_reducible apply Dev.Keeps.raiseIf | with_reducible apply Dev.Keeps.ite | with_reducible intro _ | extract_lets | split | dsimp only | (dsimp +zetaDelta only; split)

theorem Dev.maxDemand_keeps (d : Dev) (n : LinkId) (w cal : Nat) (r : Nat × Nat × Fin 4) (h1 : regPart r.1 = .rBil)
    (h2 : regPart r.2.1 = .rBil) : d.Keeps (d.maxDemand n w cal r) [.lbill, .rBil] := by
  unfold Dev.maxDemand
  split
  · exact Dev.Keeps.via (Dev.onBill_keeps _ _ _) (Dev.Keeps.setReg (Dev.Keeps.setReg Dev.Keeps.rfl (contains_of h1 (Eq.refl true))) (contains_of h2 (Eq.refl true))) (Eq.refl true)
  · exact Dev.Keeps.rfl

theorem mdRegs_part (n : LinkId) (sliding : Bool) : (regPart (mdRegs n sliding).1.1 = .rBil ∧ regPart (mdRegs n sliding).1.2.1 = .rBil) ∧
    regPart (mdRegs n sliding).2.1 = .rBil ∧ regPart (mdRegs n sliding).2.2.1 = .rBil := by
  have := n.2
  unfold mdRegs
  cases sliding <;> refine ⟨⟨?_, ?_⟩, ?_, ?_⟩ <;>
    exact regPart_dev (k := 10) (by decide) (by simp [Reg.bilMdSldP, Reg.bilMdSldPT, Reg.bilMdSldC, Reg.bilMdSldCT, Reg.bilMdFixP, Reg.bilMdFixPT, Reg.bilMdFixC, Reg.bilMdFixCT]; omega)

theorem Dev.demandValue_keeps (d : Dev) (n : LinkId) (sliding : Bool) (uj secs : Nat) : d.Keeps (d.demandValue n sliding uj secs) [.lbill, .rBil] := by
  have h := mdRegs_part n sliding
  exact Dev.Keeps.trans (Dev.maxDemand_keeps _ _ _ _ _ h.1.1 h.1.2) (Dev.maxDemand_keeps _ _ _ _ _ h.2.1 h.2.2) fun _ h => h

theorem Dev.spoilDemand_keeps (d : Dev) : d.Keeps (d.spoilDemand) [.lbill] := by
  unfold Dev.spoilDemand
  repeat' first | with_reducible exact Dev.Keeps.rfl | ((with_reducible apply Part.within_goal); exact Eq.refl true) | ((with_reducible apply Part.isIn_goal); exact Eq.refl true) | with_reducible apply Dev.Keeps.via (Dev.onBill_keeps _ _ _) | with_reducible apply Dev.Keeps.each | with_reducible apply Dev.Keeps.ite | with_reducible intro _

theorem Dev.closePeriod_keeps (d : Dev) (day : Nat) : d.Keeps (d.closePeriod day) [.tenants, .bill, .recorder, .lbill, .rBil] := by
  unfold Dev.closePeriod
  repeat' first | with_reducible exact Dev.Keeps.rfl | ((with_reducible apply Part.within_goal); exact Eq.refl true) | ((with_reducible apply Part.isIn_goal); first | exact Eq.refl true | exact contains_of (regPart_bilMdFixP (Nat.lt_of_lt_of_le (Fin.isLt _) (by decide))) (Eq.refl true) | exact contains_of (regPart_bilMdFixPT (Nat.lt_of_lt_of_le (Fin.isLt _) (by decide))) (Eq.refl true) | exact contains_of (regPart_bilMdSldP (Nat.lt_of_lt_of_le (Fin.isLt _) (by decide))) (Eq.refl true) | exact contains_of (regPart_bilMdSldPT (Nat.lt_of_lt_of_le (Fin.isLt _) (by decide))) (Eq.refl true)) | with_reducible apply Dev.Keeps.via (Dev.addRecord_keeps _ _ _ _ _ _ _ _) | with_reducible apply Dev.Keeps.via (Dev.onBill_keeps _ _ _) | with_reducible apply Dev.Keeps.via (Dev.onBilling_keeps _ _) | with_reducible apply Dev.Keeps.setReg | with_reducible apply Dev.Keeps.raise | with_reducible apply Dev.Keeps.each | with_reducible apply Dev.Keeps.ite | with_reducible intro _ | extract_lets | with_reducible apply Dev.Keeps.to_tenants

theorem Dev.periodStep_keeps (d : Dev) : d.Keeps (d.periodStep) [.tenants, .bill, .recorder, .lbill, .rBil] := by
  unfold Dev.periodStep
  repeat' first | with_reducible exact Dev.Keeps.rfl | ((with_reducible apply Part.within_goal); exact Eq.refl true) | ((with_reducible apply Part.isIn_goal); exact Eq.refl true) | with_reducible apply Dev.Keeps.via (Dev.onBilling_keeps _ _) | with_reducible apply Dev.Keeps.via (Dev.closePeriod_keeps _ _) | with_reducible apply Dev.Keeps.setReg | with_reducible apply Dev.Keeps.ite | with_reducible intro _ | extract_lets

theorem Dev.openSession_keeps (d : Dev) (n : LinkId) (t : TenantId) (path : AuthPath) (credHash : List Byte) (protocol : Nat) (late : Bool) : d.Keeps (d.openSession n t path credHash protocol late) [.power, .tenants, .bill, .recorder, .met, .lbill, .rBil] := by
  unfold Dev.openSession
  repeat' first | with_reducible exact Dev.Keeps.rfl | ((with_reducible apply Part.within_goal); exact Eq.refl true) | ((with_reducible apply Part.isIn_goal); exact Eq.refl true) | with_reducible apply Dev.Keeps.via (Dev.commitTotals_keeps _) | with_reducible apply Dev.Keeps.via (Dev.onBilling_keeps _ _) | with_reducible apply Dev.Keeps.via (Dev.onBill_keeps _ _ _) | with_reducible apply Dev.Keeps.via (Dev.closeSegment_keeps _ _) | with_reducible apply Dev.Keeps.ite | with_reducible intro _ | extract_lets

theorem Dev.notePower_keeps (d : Dev) (n : LinkId) : d.Keeps (d.notePower n) [.lbill] := by
  unfold Dev.notePower
  repeat' first | with_reducible exact Dev.Keeps.rfl | ((with_reducible apply Part.within_goal); exact Eq.refl true) | ((with_reducible apply Part.isIn_goal); exact Eq.refl true) | with_reducible apply Dev.Keeps.via (Dev.onBill_keeps _ _ _) | with_reducible apply Dev.Keeps.ite | with_reducible intro _ | extract_lets | split | (dsimp +zetaDelta only; split)

theorem Dev.closeSession_keeps (d : Dev) (n : LinkId) (reason : StopReason) : d.Keeps (d.closeSession n reason) [.power, .tenants, .bill, .recorder, .met, .lbill, .rBil, .rTen] := by
  unfold Dev.closeSession
  repeat' first | with_reducible exact Dev.Keeps.rfl | ((with_reducible apply Part.within_goal); exact Eq.refl true) | ((with_reducible apply Part.isIn_goal); exact Eq.refl true) | with_reducible apply Dev.Keeps.via (Dev.charge_keeps _ _) | with_reducible apply Dev.Keeps.via (Dev.closeSegment_keeps _ _) | with_reducible apply Dev.Keeps.via (Dev.notePower_keeps _ _) | with_reducible apply Dev.Keeps.via (Dev.addRecord_keeps _ _ _ _ _ _ _ _) | with_reducible apply Dev.Keeps.via (Dev.onBill_keeps _ _ _) | with_reducible apply Dev.Keeps.via (Dev.commitTotals_keeps _) | with_reducible apply Dev.Keeps.via (Dev.sumResv_keeps _ _) | with_reducible apply Dev.Keeps.via (Dev.onTenant_keeps _ _ _) | with_reducible apply Dev.Keeps.applyIf | with_reducible intro _ | extract_lets | split | (dsimp +zetaDelta only; split)

theorem Dev.beginLapLink_keeps (d : Dev) (n : LinkId) : d.Keeps (d.beginLapLink n) [.met, .lbill] := by
  unfold Dev.beginLapLink
  repeat' first | with_reducible exact Dev.Keeps.rfl | ((with_reducible apply Part.within_goal); exact Eq.refl true) | ((with_reducible apply Part.isIn_goal); exact Eq.refl true) | with_reducible apply Dev.Keeps.via (Dev.onBill_keeps _ _ _) | with_reducible apply Dev.Keeps.via (Dev.onMet_keeps _ _ _) | split | (dsimp +zetaDelta only; split)

theorem Dev.beginLap_keeps (d : Dev) : d.Keeps (d.beginLap) [.pacer, .bill, .met, .lbill, .rPac] := by
  unfold Dev.beginLap
  repeat' first | with_reducible exact Dev.Keeps.rfl | ((with_reducible apply Part.within_goal); exact Eq.refl true) | ((with_reducible apply Part.isIn_goal); exact Eq.refl true) | with_reducible apply Dev.Keeps.via (Dev.onPacer_keeps _ _) | with_reducible apply Dev.Keeps.via (Dev.onBilling_keeps _ _) | with_reducible apply Dev.Keeps.via (Dev.beginLapLink_keeps _ _) | with_reducible apply Dev.Keeps.setReg | with_reducible apply Dev.Keeps.each | with_reducible apply Dev.Keeps.ite | with_reducible intro _ | extract_lets

theorem Dev.closeLap_keeps (d : Dev) (activation : Bool) : d.Keeps (d.closeLap activation) Part.lap := by
  unfold Dev.closeLap
  repeat' first | with_reducible exact Dev.Keeps.rfl | ((with_reducible apply Part.within_goal); exact Eq.refl true) | ((with_reducible apply Part.isIn_goal); exact Eq.refl true) | with_reducible apply Dev.Keeps.via (Dev.notePower_keeps _ _) | with_reducible apply Dev.Keeps.via (Dev.latchLap_keeps _ _) | with_reducible apply Dev.Keeps.via (Dev.charge_keeps _ _) | with_reducible apply Dev.Keeps.via (Dev.closeSegment_keeps _ _) | with_reducible apply Dev.Keeps.via (Dev.reconcile_keeps _) | with_reducible apply Dev.Keeps.via (Dev.lapRecord_keeps _ _ _ _) | with_reducible apply Dev.Keeps.via (Dev.commitTotals_keeps _) | with_reducible apply Dev.Keeps.via (Dev.onPacer_keeps _ _) | with_reducible apply Dev.Keeps.setReg | with_reducible apply Dev.Keeps.each | with_reducible apply Dev.Keeps.applyIf | with_reducible intro _ | extract_lets | dsimp only | (dsimp +zetaDelta only; split)

theorem Dev.flagClosedLap_keeps (d : Dev) (bit : Nat) : d.Keeps (d.flagClosedLap bit) [.bill] := by
  unfold Dev.flagClosedLap
  repeat' first | with_reducible exact Dev.Keeps.rfl | ((with_reducible apply Part.within_goal); exact Eq.refl true) | ((with_reducible apply Part.isIn_goal); exact Eq.refl true) | with_reducible apply Dev.Keeps.via (Dev.onBilling_keeps _ _) | with_reducible apply Dev.Keeps.ite | with_reducible intro _

theorem Dev.mirror_keeps (d : Dev) : d.Keeps (d.mirror) [.power] := by
  unfold Dev.mirror
  repeat' first | with_reducible exact Dev.Keeps.rfl | ((with_reducible apply Part.within_goal); exact Eq.refl true) | ((with_reducible apply Part.isIn_goal); exact Eq.refl true) | with_reducible apply Dev.Keeps.via (Dev.onPower_keeps _ _)

theorem Dev.crossLap_keeps (d : Dev) : d.Keeps (d.crossLap) Part.lap := by
  unfold Dev.crossLap
  repeat' first | with_reducible exact Dev.Keeps.rfl | ((with_reducible apply Part.within_goal); exact Eq.refl true) | ((with_reducible apply Part.isIn_goal); exact Eq.refl true) | with_reducible apply Dev.Keeps.via (Dev.beginLap_keeps _) | with_reducible apply Dev.Keeps.via (Dev.mirror_keeps _) | with_reducible apply Dev.Keeps.via (Dev.periodStep_keeps _) | with_reducible apply Dev.Keeps.via (Dev.closeLap_keeps _ _) | with_reducible apply Dev.Keeps.via (Dev.onPacer_keeps _ _)

theorem Dev.lapFirst_keeps (d : Dev) : d.Keeps (d.lapFirst) Part.lap := by
  unfold Dev.lapFirst
  repeat' first | with_reducible exact Dev.Keeps.rfl | ((with_reducible apply Part.within_goal); exact Eq.refl true) | ((with_reducible apply Part.isIn_goal); exact Eq.refl true) | with_reducible apply Dev.Keeps.via (Dev.crossLap_keeps _) | with_reducible apply Dev.Keeps.ite | with_reducible intro _

theorem Dev.holdTariff_keeps (d : Dev) (t : TenantId) : d.Keeps (d.holdTariff t) [.tenants] := by
  unfold Dev.holdTariff
  repeat' first | with_reducible exact Dev.Keeps.rfl | ((with_reducible apply Part.within_goal); exact Eq.refl true) | ((with_reducible apply Part.isIn_goal); exact Eq.refl true) | with_reducible apply Dev.Keeps.via (Dev.onTenant_keeps _ _ _)

theorem Dev.resumeTariff_keeps (d : Dev) (t : TenantId) : d.Keeps (d.resumeTariff t) [.tenants, .bill, .recorder, .rTen] := by
  unfold Dev.resumeTariff
  repeat' first | with_reducible exact Dev.Keeps.rfl | ((with_reducible apply Part.within_goal); exact Eq.refl true) | ((with_reducible apply Part.isIn_goal); first | exact Eq.refl true | exact contains_of (regPart_bilTEvents) (Eq.refl true)) | with_reducible apply Dev.Keeps.via (Dev.onTenant_keeps _ _ _) | with_reducible apply Dev.Keeps.via (Dev.addRecord_keeps _ _ _ _ _ _ _ _) | with_reducible apply Dev.Keeps.raise

theorem Dev.refixSlots_keeps (d : Dev) (t : TenantId) : d.Keeps (d.refixSlots t) [.lbill] := by
  unfold Dev.refixSlots
  repeat' first | with_reducible exact Dev.Keeps.rfl | ((with_reducible apply Part.within_goal); exact Eq.refl true) | ((with_reducible apply Part.isIn_goal); exact Eq.refl true) | with_reducible apply Dev.Keeps.via (Dev.onBill_keeps _ _ _) | with_reducible apply Dev.Keeps.each | with_reducible apply Dev.Keeps.ite | with_reducible intro _

theorem Dev.applyGrant_keeps (d : Dev) (t : TenantId) (amount : Int) (serial : Word) (raw : List Byte) (late : Bool) : d.Keeps (d.applyGrant t amount serial raw late) [.tenants, .bill, .recorder, .rTen] := by
  unfold Dev.applyGrant
  repeat' first | with_reducible exact Dev.Keeps.rfl | ((with_reducible apply Part.within_goal); exact Eq.refl true) | ((with_reducible apply Part.isIn_goal); first | exact Eq.refl true | exact contains_of (regPart_bilTEvents) (Eq.refl true) | exact contains_of (regPart_bilTGrantSerial) (Eq.refl true)) | with_reducible apply Dev.Keeps.via (Dev.onTenant_keeps _ _ _) | with_reducible apply Dev.Keeps.via (Dev.checkLow_keeps _ _ _) | with_reducible apply Dev.Keeps.via (Dev.addRecord_keeps _ _ _ _ _ _ _ _) | with_reducible apply Dev.Keeps.setReg | with_reducible apply Dev.Keeps.raise | with_reducible apply Dev.Keeps.ite | with_reducible intro _ | extract_lets

end Sys2Proof.Machine
end

