-- ==== Sys2Proof/Laws/KeepsVehicles.lean ====
section
/-! SUPPORT. Which parts of the device an operation can change: what allocation, vehicles and protection share. -/

namespace Sys2Proof.Machine

set_option Elab.async false

theorem Dev.command_keeps (d : Dev) (n : LinkId) (k : Fin 16) (shut : Bool) : d.Keeps (d.command n k shut) [.cmd, .con] := by
  unfold Dev.command
  repeat' first | with_reducible exact Dev.Keeps.rfl | ((with_reducible apply Part.within_goal); exact Eq.refl true) | ((with_reducible apply Part.isIn_goal); exact Eq.refl true) | with_reducible apply Dev.Keeps.via (Dev.onCon_keeps _ _ _) | with_reducible apply Dev.Keeps.via (Dev.onCmd_keeps _ _ _) | with_reducible apply Dev.Keeps.ite | with_reducible intro _ | extract_lets

theorem Dev.openAll_keeps (d : Dev) (n : LinkId) : d.Keeps (d.openAll n) [.cmd, .con] := by
  unfold Dev.openAll
  repeat' first | with_reducible exact Dev.Keeps.rfl | ((with_reducible apply Part.within_goal); exact Eq.refl true) | ((with_reducible apply Part.isIn_goal); exact Eq.refl true) | with_reducible apply Dev.Keeps.via (Dev.command_keeps _ _ _ _) | with_reducible apply Dev.Keeps.each | with_reducible intro _

theorem Dev.restartSegment_keeps (d : Dev) (ms : List LinkId) : d.Keeps (d.restartSegment ms) [.lprot] := by
  unfold Dev.restartSegment
  repeat' first | with_reducible exact Dev.Keeps.rfl | ((with_reducible apply Part.within_goal); exact Eq.refl true) | ((with_reducible apply Part.isIn_goal); exact Eq.refl true) | with_reducible apply Dev.Keeps.via (Dev.onProt_keeps _ _ _) | with_reducible apply Dev.Keeps.each | with_reducible intro _ | extract_lets

theorem Dev.blindWithout_keeps (d : Dev) (n : LinkId) : d.Keeps (d.blindWithout n) [.lprot] := by
  unfold Dev.blindWithout
  repeat' first | with_reducible exact Dev.Keeps.rfl | ((with_reducible apply Part.within_goal); exact Eq.refl true) | ((with_reducible apply Part.isIn_goal); exact Eq.refl true) | with_reducible apply Dev.Keeps.via (Dev.onProt_keeps _ _ _) | with_reducible apply Dev.Keeps.ite | with_reducible intro _

theorem Dev.chooseInjectors_keeps (d : Dev) : d.Keeps (d.chooseInjectors) [.lprot] := by
  unfold Dev.chooseInjectors
  repeat' first | with_reducible exact Dev.Keeps.rfl | ((with_reducible apply Part.within_goal); exact Eq.refl true) | ((with_reducible apply Part.isIn_goal); exact Eq.refl true) | with_reducible apply Dev.Keeps.via (Dev.onProt_keeps _ _ _) | with_reducible apply Dev.Keeps.via (Dev.restartSegment_keeps _ _) | with_reducible apply Dev.Keeps.via (Dev.blindWithout_keeps _ _) | with_reducible apply Dev.Keeps.each | with_reducible apply Dev.Keeps.ite | with_reducible intro _ | extract_lets

theorem Dev.updateSegments_keeps (d : Dev) : d.Keeps (d.updateSegments) [.lprot] := by
  unfold Dev.updateSegments
  repeat' first | with_reducible exact Dev.Keeps.rfl | ((with_reducible apply Part.within_goal); exact Eq.refl true) | ((with_reducible apply Part.isIn_goal); exact Eq.refl true) | with_reducible apply Dev.Keeps.via (Dev.onProt_keeps _ _ _) | with_reducible apply Dev.Keeps.via (Dev.chooseInjectors_keeps _) | with_reducible apply Dev.Keeps.via (Dev.restartSegment_keeps _ _) | with_reducible apply Dev.Keeps.each | with_reducible apply Dev.Keeps.ite | with_reducible intro _ | extract_lets

theorem Dev.setBudget_keeps (d : Dev) : d.Keeps (d.setBudget) [.alloc] := by
  unfold Dev.setBudget
  repeat' first | with_reducible exact Dev.Keeps.rfl | ((with_reducible apply Part.within_goal); exact Eq.refl true) | ((with_reducible apply Part.isIn_goal); exact Eq.refl true) | with_reducible apply Dev.Keeps.via (Dev.onAlloc_keeps _ _) | with_reducible apply Dev.Keeps.ite | with_reducible intro _ | extract_lets

theorem Dev.budgetRaise_keeps (d : Dev) : d.Keeps (d.budgetRaise) [.alloc, .recorder, .rAlc] := by
  unfold Dev.budgetRaise
  repeat' first | with_reducible exact Dev.Keeps.rfl | ((with_reducible apply Part.within_goal); exact Eq.refl true) | ((with_reducible apply Part.isIn_goal); exact Eq.refl true) | with_reducible apply Dev.Keeps.via (Dev.onAlloc_keeps _ _) | with_reducible apply Dev.Keeps.raise | split | (dsimp +zetaDelta only; split)

theorem Dev.publishGrant_keeps (d : Dev) (n : LinkId) : d.Keeps (d.publishGrant n) [.out] := by
  unfold Dev.publishGrant
  repeat' first | with_reducible exact Dev.Keeps.rfl | ((with_reducible apply Part.within_goal); exact Eq.refl true) | ((with_reducible apply Part.isIn_goal); exact Eq.refl true) | with_reducible apply Dev.Keeps.via (Dev.onOut_keeps _ _ _)

theorem Dev.raiseGrant_keeps (d : Dev) (n : LinkId) (cap : Nat) : d.Keeps (d.raiseGrant n cap) [.recorder, .out, .rAlc] := by
  unfold Dev.raiseGrant
  repeat' first | with_reducible exact Dev.Keeps.rfl | ((with_reducible apply Part.within_goal); exact Eq.refl true) | ((with_reducible apply Part.isIn_goal); exact Eq.refl true) | with_reducible apply Dev.Keeps.via (Dev.onOut_keeps _ _ _) | with_reducible apply Dev.Keeps.raise | with_reducible apply Dev.Keeps.ite | with_reducible intro _ | extract_lets

theorem Dev.freeAll_keeps (d : Dev) : d.Keeps (d.freeAll) [.group] := by
  unfold Dev.freeAll
  repeat' first | with_reducible exact Dev.Keeps.rfl | ((with_reducible apply Part.within_goal); exact Eq.refl true) | ((with_reducible apply Part.isIn_goal); exact Eq.refl true) | with_reducible apply Dev.Keeps.via (Dev.onGroup_keeps _ _ _) | with_reducible apply Dev.Keeps.each | with_reducible intro _

theorem Dev.closeSlot_keeps (d : Dev) (x : Fin 16) (abort : Option Nat) : d.Keeps (d.closeSlot x abort) [.alloc] := by
  unfold Dev.closeSlot
  repeat' first | with_reducible exact Dev.Keeps.rfl | ((with_reducible apply Part.within_goal); exact Eq.refl true) | ((with_reducible apply Part.isIn_goal); exact Eq.refl true) | with_reducible apply Dev.Keeps.via (Dev.onAlloc_keeps _ _) | extract_lets | split | (dsimp +zetaDelta only; split)

theorem Dev.dropSeg_keeps (d : Dev) (g : LinkId) : d.Keeps (d.dropSeg g) [.prot] := by
  unfold Dev.dropSeg
  repeat' first | with_reducible exact Dev.Keeps.rfl | ((with_reducible apply Part.within_goal); exact Eq.refl true) | ((with_reducible apply Part.isIn_goal); exact Eq.refl true) | with_reducible apply Dev.Keeps.via (Dev.onProtection_keeps _ _)

theorem Dev.cutToGroups_keeps (d : Dev) (o : LinkId) : d.Keeps (d.cutToGroups o) [.out] := by
  unfold Dev.cutToGroups
  repeat' first | with_reducible exact Dev.Keeps.rfl | ((with_reducible apply Part.within_goal); exact Eq.refl true) | ((with_reducible apply Part.isIn_goal); exact Eq.refl true) | with_reducible apply Dev.Keeps.via (Dev.publishGrant_keeps _ _) | with_reducible apply Dev.Keeps.via (Dev.onOut_keeps _ _ _) | extract_lets

theorem Dev.takeOut_keeps (d : Dev) (g : LinkId) (why : WithdrawWhy) : d.Keeps (d.takeOut g why) [.prot, .recorder, .group, .out, .rAlc] := by
  unfold Dev.takeOut
  repeat' first | with_reducible exact Dev.Keeps.rfl | ((with_reducible apply Part.within_goal); exact Eq.refl true) | ((with_reducible apply Part.isIn_goal); exact Eq.refl true) | with_reducible apply Dev.Keeps.via (Dev.onGroup_keeps _ _ _) | with_reducible apply Dev.Keeps.via (Dev.dropSeg_keeps _ _) | with_reducible apply Dev.Keeps.via (Dev.cutToGroups_keeps _ _) | with_reducible apply Dev.Keeps.raise | extract_lets | split | (dsimp +zetaDelta only; split)

theorem Dev.afterAbort_keeps (d : Dev) (e : Exchange) (code : Nat) : d.Keeps (d.afterAbort e code) [.prot, .recorder, .cmd, .group, .out, .con, .rAlc] := by
  unfold Dev.afterAbort
  repeat' first | with_reducible exact Dev.Keeps.rfl | ((with_reducible apply Part.within_goal); exact Eq.refl true) | ((with_reducible apply Part.isIn_goal); exact Eq.refl true) | with_reducible apply Dev.Keeps.via (Dev.command_keeps _ _ _ _) | with_reducible apply Dev.Keeps.via (Dev.onGroup_keeps _ _ _) | with_reducible apply Dev.Keeps.via (Dev.takeOut_keeps _ _ _) | with_reducible apply Dev.Keeps.ite | with_reducible intro _ | extract_lets | split | (dsimp +zetaDelta only; split)

theorem Dev.abortExchange_keeps (d : Dev) (x : Fin 16) (code : Nat) : d.Keeps (d.abortExchange x code) [.alloc, .prot, .recorder, .cmd, .group, .out, .con, .rAlc] := by
  unfold Dev.abortExchange
  repeat' first | with_reducible exact Dev.Keeps.rfl | ((with_reducible apply Part.within_goal); exact Eq.refl true) | ((with_reducible apply Part.isIn_goal); exact Eq.refl true) | with_reducible apply Dev.Keeps.via (Dev.afterAbort_keeps _ _ _) | with_reducible apply Dev.Keeps.via (Dev.dropSeg_keeps _ _) | with_reducible apply Dev.Keeps.via (Dev.closeSlot_keeps _ _ _) | with_reducible apply Dev.Keeps.raise | with_reducible apply Dev.Keeps.count | split | (dsimp +zetaDelta only; split)

theorem Dev.lowerReason_keeps (d : Dev) (x : Fin 16) (hit : Exchange → Bool) (code : Nat) : d.Keeps (d.lowerReason x hit code) [.alloc] := by
  unfold Dev.lowerReason
  repeat' first | with_reducible exact Dev.Keeps.rfl | ((with_reducible apply Part.within_goal); exact Eq.refl true) | ((with_reducible apply Part.isIn_goal); exact Eq.refl true) | with_reducible apply Dev.Keeps.via (Dev.onAlloc_keeps _ _) | with_reducible apply Dev.Keeps.ite | with_reducible intro _ | split | (dsimp +zetaDelta only; split)

theorem Dev.abortWhere_keeps (d : Dev) (hit : Exchange → Bool) (code : Nat) : d.Keeps (d.abortWhere hit code) [.alloc, .prot, .recorder, .cmd, .group, .out, .con, .rAlc] := by
  unfold Dev.abortWhere
  repeat' first | with_reducible exact Dev.Keeps.rfl | ((with_reducible apply Part.within_goal); exact Eq.refl true) | ((with_reducible apply Part.isIn_goal); exact Eq.refl true) | with_reducible apply Dev.Keeps.via (Dev.abortExchange_keeps _ _ _) | with_reducible apply Dev.Keeps.via (Dev.lowerReason_keeps _ _ _ _) | with_reducible apply Dev.Keeps.each | with_reducible apply Dev.Keeps.ite | with_reducible intro _ | split | (dsimp +zetaDelta only; split)

theorem Dev.abortAll_keeps (d : Dev) (code : Nat) : d.Keeps (d.abortAll code) [.alloc, .prot, .recorder, .cmd, .group, .out, .con, .rAlc] := by
  unfold Dev.abortAll
  repeat' first | with_reducible exact Dev.Keeps.rfl | ((with_reducible apply Part.within_goal); exact Eq.refl true) | ((with_reducible apply Part.isIn_goal); exact Eq.refl true) | with_reducible apply Dev.Keeps.via (Dev.abortWhere_keeps _ _ _)

theorem Dev.withdraw_keeps (d : Dev) (g : LinkId) (why : WithdrawWhy) : d.Keeps (d.withdraw g why) [.alloc, .prot, .recorder, .cmd, .group, .out, .con, .rAlc] := by
  unfold Dev.withdraw
  repeat' first | with_reducible exact Dev.Keeps.rfl | ((with_reducible apply Part.within_goal); exact Eq.refl true) | ((with_reducible apply Part.isIn_goal); exact Eq.refl true) | with_reducible apply Dev.Keeps.via (Dev.abortWhere_keeps _ _ _) | with_reducible apply Dev.Keeps.via (Dev.takeOut_keeps _ _ _) | with_reducible apply Dev.Keeps.via (Dev.onGroup_keeps _ _ _) | with_reducible apply Dev.Keeps.ite | with_reducible intro _ | extract_lets

theorem Dev.tripExchanges_keeps (d : Dev) (n : LinkId) : d.Keeps (d.tripExchanges n) [.alloc, .prot, .recorder, .cmd, .group, .out, .con, .rAlc] := by
  unfold Dev.tripExchanges
  repeat' first | with_reducible exact Dev.Keeps.rfl | ((with_reducible apply Part.within_goal); exact Eq.refl true) | ((with_reducible apply Part.isIn_goal); exact Eq.refl true) | with_reducible apply Dev.Keeps.via (Dev.abortWhere_keeps _ _ _) | with_reducible apply Dev.Keeps.via (Dev.onGroup_keeps _ _ _) | with_reducible apply Dev.Keeps.via (Dev.withdraw_keeps _ _ _) | with_reducible apply Dev.Keeps.each | with_reducible apply Dev.Keeps.ite | with_reducible intro _ | extract_lets

theorem Dev.releaseGroups_keeps (d : Dev) (o : LinkId) : d.Keeps (d.releaseGroups o) [.group] := by
  unfold Dev.releaseGroups
  repeat' first | with_reducible exact Dev.Keeps.rfl | ((with_reducible apply Part.within_goal); exact Eq.refl true) | ((with_reducible apply Part.isIn_goal); exact Eq.refl true) | with_reducible apply Dev.Keeps.via (Dev.onGroup_keeps _ _ _) | with_reducible apply Dev.Keeps.each | with_reducible intro _

theorem Dev.planPass_keeps {d e : Dev} {l : List Part} (first : Bool) (os : List LinkId) (s : Dev × Nat) (h : d.Keeps s.1 l)
    (hs : Part.within [Part.out] l = true) : d.Keeps (e.planPass first os s).1 l := by
  unfold Dev.planPass
  induction os generalizing s with
  | nil => exact h
  | cons o os ih => exact ih _ (Dev.Keeps.via (Dev.onOut_keeps _ _ _) h hs)

theorem Dev.planCut_keeps (d : Dev) (o : LinkId) : d.Keeps (d.planCut o) [.out] := by
  unfold Dev.planCut
  repeat' first | with_reducible exact Dev.Keeps.rfl | ((with_reducible apply Part.within_goal); exact Eq.refl true) | ((with_reducible apply Part.isIn_goal); exact Eq.refl true) | with_reducible apply Dev.Keeps.via (Dev.onOut_keeps _ _ _) | extract_lets

theorem Dev.planRaise_keeps (d : Dev) (o : LinkId) : d.Keeps (d.planRaise o) [.recorder, .out, .rAlc] := by
  unfold Dev.planRaise
  repeat' first | with_reducible exact Dev.Keeps.rfl | ((with_reducible apply Part.within_goal); exact Eq.refl true) | ((with_reducible apply Part.isIn_goal); exact Eq.refl true) | with_reducible apply Dev.Keeps.via (Dev.raiseGrant_keeps _ _ _) | with_reducible apply Dev.Keeps.ite | with_reducible intro _

theorem Dev.plan_keeps (d : Dev) : d.Keeps d.plan [.recorder, .out, .rAlc] := by
  unfold Dev.plan
  extract_lets os budget d1 d2 d3
  have h1 : d.Keeps d1 [.recorder, .out, .rAlc] := by
    refine Dev.Keeps.each (fun e o _ => ?_) Dev.Keeps.rfl
    exact Dev.Keeps.via (Dev.onOut_keeps _ _ _) Dev.Keeps.rfl (Eq.refl true)
  have h2 : d.Keeps d2 [.recorder, .out, .rAlc] :=
    Dev.planPass_keeps _ _ _ (Dev.planPass_keeps _ _ _ h1 (Eq.refl true)) (Eq.refl true)
  have h3 : d.Keeps d3 [.recorder, .out, .rAlc] := Dev.Keeps.each (fun e o _ => Dev.Keeps.via (Dev.planCut_keeps _ _) Dev.Keeps.rfl (Eq.refl true)) h2
  have h4 : d.Keeps (d3.each os Dev.planRaise) [.recorder, .out, .rAlc] :=
    Dev.Keeps.each (fun e o _ => Dev.Keeps.via (Dev.planRaise_keeps _ _) Dev.Keeps.rfl (Eq.refl true)) h3
  exact Dev.Keeps.each (fun e o _ => Dev.Keeps.via (Dev.publishGrant_keeps _ _) Dev.Keeps.rfl (Eq.refl true)) h4

theorem Dev.startExchange_keeps (d : Dev) (x : Fin 16) (g r : LinkId) (donor : Option LinkId) : d.Keeps (d.startExchange x g r donor) [.alloc, .group, .out] := by
  unfold Dev.startExchange
  repeat' first | with_reducible exact Dev.Keeps.rfl | ((with_reducible apply Part.within_goal); exact Eq.refl true) | ((with_reducible apply Part.isIn_goal); exact Eq.refl true) | with_reducible apply Dev.Keeps.via (Dev.onGroup_keeps _ _ _) | with_reducible apply Dev.Keeps.via (Dev.publishGrant_keeps _ _) | with_reducible apply Dev.Keeps.via (Dev.planCut_keeps _ _) | with_reducible apply Dev.Keeps.via (Dev.onAlloc_keeps _ _) | with_reducible apply Dev.Keeps.ite | with_reducible intro _ | extract_lets | split | (dsimp +zetaDelta only; split)

theorem Dev.startAssign_keeps (d : Dev) (g r : LinkId) : d.Keeps (d.startAssign g r) [.group] := by
  unfold Dev.startAssign
  repeat' first | with_reducible exact Dev.Keeps.rfl | ((with_reducible apply Part.within_goal); exact Eq.refl true) | ((with_reducible apply Part.isIn_goal); exact Eq.refl true) | with_reducible apply Dev.Keeps.via (Dev.onGroup_keeps _ _ _) | split | (dsimp +zetaDelta only; split)

theorem Dev.moveInto_keeps (d : Dev) (r : LinkId) (k : Nat) : d.Keeps (d.moveInto r k) [.alloc, .group, .out] := by
  induction k generalizing d with
  | zero => exact Dev.Keeps.rfl
  | succ k ih =>
    have go : ∀ e : Dev, d.Keeps e [.alloc, .group, .out] → d.Keeps (e.moveInto r k) [.alloc, .group, .out] := fun e h => h.trans (ih e) fun _ h => h
    unfold Dev.moveInto
    repeat' first | with_reducible exact Dev.Keeps.rfl | exact Eq.refl true | with_reducible apply go | with_reducible apply Dev.Keeps.via (Dev.startAssign_keeps _ _ _) | with_reducible apply Dev.Keeps.via (Dev.startExchange_keeps _ _ _ _ _) | with_reducible apply Dev.Keeps.ite | with_reducible intro _ | split

theorem Dev.countShort_keeps (d : Dev) (o : LinkId) : d.Keeps (d.countShort o) [.out] := by
  unfold Dev.countShort
  repeat' first | with_reducible exact Dev.Keeps.rfl | ((with_reducible apply Part.within_goal); exact Eq.refl true) | ((with_reducible apply Part.isIn_goal); exact Eq.refl true) | with_reducible apply Dev.Keeps.via (Dev.onOut_keeps _ _ _) | with_reducible apply Dev.Keeps.ite | with_reducible intro _ | extract_lets

theorem Dev.selectMoves_keeps (d : Dev) : d.Keeps (d.selectMoves) [.alloc, .group, .out] := by
  unfold Dev.selectMoves
  repeat' first | with_reducible exact Dev.Keeps.rfl | ((with_reducible apply Part.within_goal); exact Eq.refl true) | ((with_reducible apply Part.isIn_goal); exact Eq.refl true) | with_reducible apply Dev.Keeps.via (Dev.countShort_keeps _ _) | with_reducible apply Dev.Keeps.via (Dev.moveInto_keeps _ _ _) | with_reducible apply Dev.Keeps.each | with_reducible apply Dev.Keeps.ite | with_reducible intro _ | extract_lets

theorem Dev.startReleases_keeps (d : Dev) : d.Keeps (d.startReleases) [.group] := by
  unfold Dev.startReleases
  repeat' first | with_reducible exact Dev.Keeps.rfl | ((with_reducible apply Part.within_goal); exact Eq.refl true) | ((with_reducible apply Part.isIn_goal); exact Eq.refl true) | with_reducible apply Dev.Keeps.via (Dev.releaseGroups_keeps _ _) | with_reducible apply Dev.Keeps.each | with_reducible apply Dev.Keeps.ite | with_reducible intro _

theorem Dev.driveGroup_keeps (d : Dev) (g : LinkId) : d.Keeps (d.driveGroup g) [.cmd, .group] := by
  unfold Dev.driveGroup
  repeat' first | with_reducible exact Dev.Keeps.rfl | ((with_reducible apply Part.within_goal); exact Eq.refl true) | ((with_reducible apply Part.isIn_goal); exact Eq.refl true) | with_reducible apply Dev.Keeps.via (Dev.onGroup_keeps _ _ _) | with_reducible apply Dev.Keeps.via (Dev.onCmd_keeps _ _ _) | extract_lets

theorem Dev.closeAssigned_keeps (d : Dev) (g : LinkId) : d.Keeps (d.closeAssigned g) [.cmd, .group, .con] := by
  unfold Dev.closeAssigned
  repeat' first | with_reducible exact Dev.Keeps.rfl | ((with_reducible apply Part.within_goal); exact Eq.refl true) | ((with_reducible apply Part.isIn_goal); exact Eq.refl true) | with_reducible apply Dev.Keeps.via (Dev.onGroup_keeps _ _ _) | with_reducible apply Dev.Keeps.via (Dev.command_keeps _ _ _ _) | with_reducible apply Dev.Keeps.ite | with_reducible intro _ | split | (dsimp +zetaDelta only; split)

theorem Dev.groupSample_keeps (d : Dev) (g : LinkId) : d.Keeps (d.groupSample g) [.cmd, .group, .con] := by
  unfold Dev.groupSample
  repeat' first | with_reducible exact Dev.Keeps.rfl | ((with_reducible apply Part.within_goal); exact Eq.refl true) | ((with_reducible apply Part.isIn_goal); exact Eq.refl true) | with_reducible apply Dev.Keeps.via (Dev.closeAssigned_keeps _ _) | with_reducible apply Dev.Keeps.via (Dev.onGroup_keeps _ _ _) | extract_lets

theorem Dev.exchangeSample_keeps (d : Dev) (x : Fin 16) : d.Keeps (d.exchangeSample x) [.alloc] := by
  unfold Dev.exchangeSample
  repeat' first | with_reducible exact Dev.Keeps.rfl | ((with_reducible apply Part.within_goal); exact Eq.refl true) | ((with_reducible apply Part.isIn_goal); exact Eq.refl true) | with_reducible apply Dev.Keeps.via (Dev.onAlloc_keeps _ _) | with_reducible apply Dev.Keeps.ite | with_reducible intro _ | extract_lets | split | (dsimp +zetaDelta only; split)

theorem Dev.donorCredited_keeps (d : Dev) (n : LinkId) : d.Keeps (d.donorCredited n) [.alloc] := by
  unfold Dev.donorCredited
  repeat' first | with_reducible exact Dev.Keeps.rfl | ((with_reducible apply Part.within_goal); exact Eq.refl true) | ((with_reducible apply Part.isIn_goal); exact Eq.refl true) | with_reducible apply Dev.Keeps.via (Dev.onAlloc_keeps _ _) | with_reducible apply Dev.Keeps.ite | with_reducible intro _

theorem Dev.haltAllocation_keeps (d : Dev) : d.Keeps (d.haltAllocation) [.alloc, .prot, .recorder, .cmd, .group, .out, .con, .rAlc] := by
  unfold Dev.haltAllocation
  repeat' first | with_reducible exact Dev.Keeps.rfl | ((with_reducible apply Part.within_goal); exact Eq.refl true) | ((with_reducible apply Part.isIn_goal); exact Eq.refl true) | with_reducible apply Dev.Keeps.via (Dev.onProtection_keeps _ _) | with_reducible apply Dev.Keeps.via (Dev.abortAll_keeps _ _) | with_reducible apply Dev.Keeps.via (Dev.onGroup_keeps _ _ _) | with_reducible apply Dev.Keeps.via (Dev.publishGrant_keeps _ _) | with_reducible apply Dev.Keeps.via (Dev.onOut_keeps _ _ _) | with_reducible apply Dev.Keeps.via (Dev.openAll_keeps _ _) | with_reducible apply Dev.Keeps.each | with_reducible intro _ | extract_lets

theorem Dev.clearOnOpen_keeps (d : Dev) (n : LinkId) : d.Keeps (d.clearOnOpen n) [.alloc, .group, .out] := by
  unfold Dev.clearOnOpen
  repeat' first | with_reducible exact Dev.Keeps.rfl | ((with_reducible apply Part.within_goal); exact Eq.refl true) | ((with_reducible apply Part.isIn_goal); exact Eq.refl true) | with_reducible apply Dev.Keeps.via (Dev.onGroup_keeps _ _ _) | with_reducible apply Dev.Keeps.via (Dev.donorCredited_keeps _ _) | with_reducible apply Dev.Keeps.via (Dev.onOut_keeps _ _ _) | with_reducible apply Dev.Keeps.ite | with_reducible intro _ | extract_lets | split | (dsimp +zetaDelta only; split)

theorem Dev.auxOn_keeps (d : Dev) (n : LinkId) (k : Fin 4) (duty : Nat) : d.Keeps (d.auxOn n k duty) [.aux] := by
  unfold Dev.auxOn
  repeat' first | with_reducible exact Dev.Keeps.rfl | ((with_reducible apply Part.within_goal); exact Eq.refl true) | ((with_reducible apply Part.isIn_goal); exact Eq.refl true) | with_reducible apply Dev.Keeps.via (Dev.onAux_keeps _ _ _ _) | with_reducible apply Dev.Keeps.ite | with_reducible intro _ | extract_lets

theorem Dev.auxOff_keeps (d : Dev) (n : LinkId) (k : Fin 4) : d.Keeps (d.auxOff n k) [.aux] := by
  unfold Dev.auxOff
  repeat' first | with_reducible exact Dev.Keeps.rfl | ((with_reducible apply Part.within_goal); exact Eq.refl true) | ((with_reducible apply Part.isIn_goal); exact Eq.refl true) | with_reducible apply Dev.Keeps.via (Dev.onAux_keeps _ _ _ _)

theorem Dev.coolingOn_keeps (d : Dev) (n : LinkId) : d.Keeps (d.coolingOn n) [.aux] := by
  unfold Dev.coolingOn
  repeat' first | with_reducible exact Dev.Keeps.rfl | ((with_reducible apply Part.within_goal); exact Eq.refl true) | ((with_reducible apply Part.isIn_goal); exact Eq.refl true) | with_reducible apply Dev.Keeps.via (Dev.onAux_keeps _ _ _ _) | with_reducible apply Dev.Keeps.via (Dev.auxOn_keeps _ _ _ _) | with_reducible apply Dev.Keeps.each | with_reducible apply Dev.Keeps.ite | with_reducible intro _ | extract_lets

theorem Dev.coolingRunOn_keeps (d : Dev) (n : LinkId) : d.Keeps (d.coolingRunOn n) [.aux] := by
  unfold Dev.coolingRunOn
  repeat' first | with_reducible exact Dev.Keeps.rfl | ((with_reducible apply Part.within_goal); exact Eq.refl true) | ((with_reducible apply Part.isIn_goal); exact Eq.refl true) | with_reducible apply Dev.Keeps.via (Dev.onAux_keeps _ _ _ _) | with_reducible apply Dev.Keeps.each | with_reducible apply Dev.Keeps.ite | with_reducible intro _

theorem Dev.toState_keeps (d : Dev) (n : LinkId) (st : VehState) : d.Keeps (d.toState n st) [.veh] := by
  unfold Dev.toState
  repeat' first | with_reducible exact Dev.Keeps.rfl | ((with_reducible apply Part.within_goal); exact Eq.refl true) | ((with_reducible apply Part.isIn_goal); exact Eq.refl true) | with_reducible apply Dev.Keeps.via (Dev.onVeh_keeps _ _ _)

theorem Dev.answer_keeps (d : Dev) (n : LinkId) (r : Response) : d.Keeps (d.answer n r) [.veh] := by
  unfold Dev.answer
  repeat' first | with_reducible exact Dev.Keeps.rfl | ((with_reducible apply Part.within_goal); exact Eq.refl true) | ((with_reducible apply Part.isIn_goal); exact Eq.refl true) | with_reducible apply Dev.Keeps.via (Dev.onVeh_keeps _ _ _)

theorem Dev.lastEnd_keeps (d : Dev) (n : LinkId) (fail reason : Nat) : d.Keeps (d.lastEnd n fail reason) [.rVeh] := by
  unfold Dev.lastEnd
  repeat' first | with_reducible exact Dev.Keeps.rfl | ((with_reducible apply Part.within_goal); exact Eq.refl true) | ((with_reducible apply Part.isIn_goal); first | exact Eq.refl true | exact contains_of (regPart_vehLastEnd (Nat.lt_of_lt_of_le (Fin.isLt _) (by decide))) (Eq.refl true)) | with_reducible apply Dev.Keeps.setReg

theorem Dev.trigger_keeps (d : Dev) (t : ModeTrigger) : d.Keeps (d.trigger t) [.power] := by
  unfold Dev.trigger
  repeat' first | with_reducible exact Dev.Keeps.rfl | ((with_reducible apply Part.within_goal); exact Eq.refl true) | ((with_reducible apply Part.isIn_goal); exact Eq.refl true) | with_reducible apply Dev.Keeps.via (Dev.onPower_keeps _ _)

theorem Dev.refreshReq_keeps (d : Dev) (n : LinkId) : d.Keeps (d.refreshReq n) [.out, .rVeh] := by
  unfold Dev.refreshReq
  repeat' first | with_reducible exact Dev.Keeps.rfl | ((with_reducible apply Part.within_goal); exact Eq.refl true) | ((with_reducible apply Part.isIn_goal); first | exact Eq.refl true | exact contains_of (regPart_vehReq (Nat.lt_of_lt_of_le (Fin.isLt _) (by decide))) (Eq.refl true)) | with_reducible apply Dev.Keeps.via (Dev.onOut_keeps _ _ _) | with_reducible apply Dev.Keeps.setReg | extract_lets

theorem Dev.publish_keeps (d : Dev) (n : LinkId) : d.Keeps (d.publish n) [.out, .veh, .rVeh] := by
  unfold Dev.publish
  repeat' first | with_reducible exact Dev.Keeps.rfl | ((with_reducible apply Part.within_goal); exact Eq.refl true) | ((with_reducible apply Part.isIn_goal); first | exact Eq.refl true | exact contains_of (regPart_vehPub (Nat.lt_of_lt_of_le (Fin.isLt _) (by decide))) (Eq.refl true)) | with_reducible apply Dev.Keeps.via (Dev.publishGrant_keeps _ _) | with_reducible apply Dev.Keeps.via (Dev.onVeh_keeps _ _ _) | with_reducible apply Dev.Keeps.setReg | extract_lets

theorem Dev.putSet_keeps (d : Dev) (n : LinkId) (volts amps : Nat) : d.Keeps (d.putSet n volts amps) [.veh] := by
  unfold Dev.putSet
  repeat' first | with_reducible exact Dev.Keeps.rfl | ((with_reducible apply Part.within_goal); exact Eq.refl true) | ((with_reducible apply Part.isIn_goal); exact Eq.refl true) | with_reducible apply Dev.Keeps.via (Dev.onVeh_keeps _ _ _)

theorem Dev.setpoints_keeps (d : Dev) (n : LinkId) : d.Keeps (d.setpoints n) [.veh] := by
  unfold Dev.setpoints
  repeat' first | with_reducible exact Dev.Keeps.rfl | ((with_reducible apply Part.within_goal); exact Eq.refl true) | ((with_reducible apply Part.isIn_goal); exact Eq.refl true) | with_reducible apply Dev.Keeps.via (Dev.putSet_keeps _ _ _ _) | with_reducible apply Dev.Keeps.ite | with_reducible intro _ | extract_lets | split | (dsimp +zetaDelta only; split)

theorem Dev.driveOutlet_keeps (d : Dev) (n : LinkId) : d.Keeps (d.driveOutlet n) [.cmd] := by
  unfold Dev.driveOutlet
  repeat' first | with_reducible exact Dev.Keeps.rfl | ((with_reducible apply Part.within_goal); exact Eq.refl true) | ((with_reducible apply Part.isIn_goal); exact Eq.refl true) | with_reducible apply Dev.Keeps.via (Dev.onCmd_keeps _ _ _) | extract_lets

theorem Dev.startSession_keeps (d0 : Dev) (n : LinkId) (c : HeldCredential) : d0.Keeps (d0.startSession n c) (.out :: .veh :: .rVeh :: Part.lap) := by
  unfold Dev.startSession
  repeat' first | with_reducible exact Dev.Keeps.rfl | ((with_reducible apply Part.within_goal); exact Eq.refl true) | ((with_reducible apply Part.isIn_goal); first | exact Eq.refl true | exact contains_of (regPart_vehCounts (Nat.lt_of_lt_of_le (Fin.isLt _) (by decide))) (Eq.refl true) | exact contains_of (regPart_vehEvents (Nat.lt_of_lt_of_le (Fin.isLt _) (by decide))) (Eq.refl true)) | with_reducible apply Dev.Keeps.via (Dev.lapFirst_keeps _) | with_reducible apply Dev.Keeps.via (Dev.onVeh_keeps _ _ _) | with_reducible apply Dev.Keeps.via (Dev.openSession_keeps _ _ _ _ _ _ _) | with_reducible apply Dev.Keeps.via (Dev.toState_keeps _ _ _) | with_reducible apply Dev.Keeps.via (Dev.refreshReq_keeps _ _) | with_reducible apply Dev.Keeps.raise | with_reducible apply Dev.Keeps.countField | with_reducible apply Dev.Keeps.ite | with_reducible intro _ | extract_lets

theorem Dev.endSession_keeps (d : Dev) (n : LinkId) (why : StopReason) : d.Keeps (d.endSession n why) Part.session := by
  unfold Dev.endSession
  repeat' first | with_reducible exact Dev.Keeps.rfl | ((with_reducible apply Part.within_goal); exact Eq.refl true) | ((with_reducible apply Part.isIn_goal); first | exact Eq.refl true | exact contains_of (regPart_vehEvents (Nat.lt_of_lt_of_le (Fin.isLt _) (by decide))) (Eq.refl true)) | with_reducible apply Dev.Keeps.via (Dev.lapFirst_keeps _) | with_reducible apply Dev.Keeps.via (Dev.lastEnd_keeps _ _ _ _) | with_reducible apply Dev.Keeps.via (Dev.closeSession_keeps _ _ _) | with_reducible apply Dev.Keeps.via (Dev.toState_keeps _ _ _) | with_reducible apply Dev.Keeps.via (Dev.onVeh_keeps _ _ _) | with_reducible apply Dev.Keeps.via (Dev.abortWhere_keeps _ _ _) | with_reducible apply Dev.Keeps.via (Dev.refreshReq_keeps _ _) | with_reducible apply Dev.Keeps.via (Dev.coolingRunOn_keeps _ _) | with_reducible apply Dev.Keeps.raise | with_reducible apply Dev.Keeps.ite | with_reducible intro _ | extract_lets

theorem Dev.beginStop_keeps (d : Dev) (n : LinkId) (why : StopReason) (rank : Nat) : d.Keeps (d.beginStop n why rank) [.out, .veh, .rVeh] := by
  unfold Dev.beginStop
  repeat' first | with_reducible exact Dev.Keeps.rfl | ((with_reducible apply Part.within_goal); exact Eq.refl true) | ((with_reducible apply Part.isIn_goal); exact Eq.refl true) | with_reducible apply Dev.Keeps.via (Dev.onVeh_keeps _ _ _) | with_reducible apply Dev.Keeps.via (Dev.refreshReq_keeps _ _) | with_reducible apply Dev.Keeps.via (Dev.toState_keeps _ _ _) | with_reducible apply Dev.Keeps.ite | with_reducible intro _ | extract_lets

theorem Dev.startStop_keeps (d : Dev) (n : LinkId) (why : StopReason) (rank : Nat) : d.Keeps (d.startStop n why rank) [.out, .veh, .rVeh] := by
  unfold Dev.startStop
  repeat' first | with_reducible exact Dev.Keeps.rfl | ((with_reducible apply Part.within_goal); exact Eq.refl true) | ((with_reducible apply Part.isIn_goal); exact Eq.refl true) | with_reducible apply Dev.Keeps.via (Dev.beginStop_keeps _ _ _ _) | with_reducible apply Dev.Keeps.ite | with_reducible intro _

theorem Dev.openNow_keeps (d : Dev) (n : LinkId) (why : StopReason) (rank : Nat) : d.Keeps (d.openNow n why rank) [.cmd, .out, .con, .veh, .rVeh] := by
  unfold Dev.openNow
  repeat' first | with_reducible exact Dev.Keeps.rfl | ((with_reducible apply Part.within_goal); exact Eq.refl true) | ((with_reducible apply Part.isIn_goal); exact Eq.refl true) | with_reducible apply Dev.Keeps.via (Dev.startStop_keeps _ _ _ _) | with_reducible apply Dev.Keeps.via (Dev.onVeh_keeps _ _ _) | with_reducible apply Dev.Keeps.via (Dev.command_keeps _ _ _ _)

theorem Dev.endStopped_keeps (d : Dev) (n : LinkId) : d.Keeps (d.endStopped n) Part.session := by
  unfold Dev.endStopped
  repeat' first | with_reducible exact Dev.Keeps.rfl | ((with_reducible apply Part.within_goal); exact Eq.refl true) | ((with_reducible apply Part.isIn_goal); exact Eq.refl true) | with_reducible apply Dev.Keeps.via (Dev.endSession_keeps _ _ _) | with_reducible apply Dev.Keeps.via (Dev.toState_keeps _ _ _) | with_reducible apply Dev.Keeps.via (Dev.onVeh_keeps _ _ _) | with_reducible apply Dev.Keeps.ite | with_reducible intro _ | extract_lets

theorem Dev.endUnclosed_keeps (d : Dev) (n : LinkId) : d.Keeps (d.endUnclosed n) Part.session := by
  unfold Dev.endUnclosed
  repeat' first | with_reducible exact Dev.Keeps.rfl | ((with_reducible apply Part.within_goal); exact Eq.refl true) | ((with_reducible apply Part.isIn_goal); exact Eq.refl true) | with_reducible apply Dev.Keeps.via (Dev.endStopped_keeps _ _) | with_reducible apply Dev.Keeps.ite | with_reducible intro _

theorem Dev.closeOutlet_keeps (d : Dev) (n : LinkId) : d.Keeps (d.closeOutlet n) [.cmd, .con, .veh, .aux] := by
  unfold Dev.closeOutlet
  repeat' first | with_reducible exact Dev.Keeps.rfl | ((with_reducible apply Part.within_goal); exact Eq.refl true) | ((with_reducible apply Part.isIn_goal); exact Eq.refl true) | with_reducible apply Dev.Keeps.via (Dev.coolingOn_keeps _ _) | with_reducible apply Dev.Keeps.via (Dev.onVeh_keeps _ _ _) | with_reducible apply Dev.Keeps.via (Dev.command_keeps _ _ _ _)

theorem Dev.dropRun_keeps (d : Dev) (n : LinkId) : d.Keeps (d.dropRun n) [.sec, .veh] := by
  unfold Dev.dropRun
  repeat' first | with_reducible exact Dev.Keeps.rfl | ((with_reducible apply Part.within_goal); exact Eq.refl true) | ((with_reducible apply Part.isIn_goal); exact Eq.refl true) | with_reducible apply Dev.Keeps.via (Dev.dropRngWait_keeps _ _) | with_reducible apply Dev.Keeps.via (Dev.cancel_keeps _ _) | with_reducible apply Dev.Keeps.via (Dev.onVeh_keeps _ _ _)

theorem Dev.endAttempt_keeps (d : Dev) (n : LinkId) (fail : Nat) : d.Keeps (d.endAttempt n fail) [.sec, .veh, .rVeh] := by
  unfold Dev.endAttempt
  repeat' first | with_reducible exact Dev.Keeps.rfl | ((with_reducible apply Part.within_goal); exact Eq.refl true) | ((with_reducible apply Part.isIn_goal); exact Eq.refl true) | with_reducible apply Dev.Keeps.via (Dev.toState_keeps _ _ _) | with_reducible apply Dev.Keeps.via (Dev.onVeh_keeps _ _ _) | with_reducible apply Dev.Keeps.via (Dev.dropRun_keeps _ _) | with_reducible apply Dev.Keeps.via (Dev.lastEnd_keeps _ _ _ _)

theorem Dev.enterFault_keeps (d : Dev) (n : LinkId) (fail : Nat) : d.Keeps (d.enterFault n fail) [.sec, .veh, .rVeh] := by
  unfold Dev.enterFault
  repeat' first | with_reducible exact Dev.Keeps.rfl | ((with_reducible apply Part.within_goal); exact Eq.refl true) | ((with_reducible apply Part.isIn_goal); exact Eq.refl true) | with_reducible apply Dev.Keeps.via (Dev.toState_keeps _ _ _) | with_reducible apply Dev.Keeps.via (Dev.onVeh_keeps _ _ _) | with_reducible apply Dev.Keeps.via (Dev.dropRun_keeps _ _) | with_reducible apply Dev.Keeps.via (Dev.lastEnd_keeps _ _ _ _) | with_reducible apply Dev.Keeps.ite | with_reducible intro _

theorem Dev.failAttempt_keeps (d : Dev) (n : LinkId) (fail : Nat) (third : Bool := false) : d.Keeps (d.failAttempt n fail third) [.sec, .recorder, .veh, .rVeh] := by
  unfold Dev.failAttempt
  repeat' first | with_reducible exact Dev.Keeps.rfl | ((with_reducible apply Part.within_goal); exact Eq.refl true) | ((with_reducible apply Part.isIn_goal); first | exact Eq.refl true | exact contains_of (regPart_vehEvents (Nat.lt_of_lt_of_le (Fin.isLt _) (by decide))) (Eq.refl true) | exact contains_of (regPart_vehSlac (Nat.lt_of_lt_of_le (Fin.isLt _) (by decide))) (Eq.refl true)) | with_reducible apply Dev.Keeps.via (Dev.onVeh_keeps _ _ _) | with_reducible apply Dev.Keeps.via (Dev.dropRun_keeps _ _) | with_reducible apply Dev.Keeps.via (Dev.toState_keeps _ _ _) | with_reducible apply Dev.Keeps.via (Dev.lastEnd_keeps _ _ _ _) | with_reducible apply Dev.Keeps.via (Dev.enterFault_keeps _ _ _) | with_reducible apply Dev.Keeps.raise | with_reducible apply Dev.Keeps.setField | with_reducible apply Dev.Keeps.ite | with_reducible intro _ | extract_lets

theorem Dev.badMessage_keeps (d : Dev) (n : LinkId) : d.Keeps (d.badMessage n) [.sec, .recorder, .out, .veh, .rVeh] := by
  unfold Dev.badMessage
  repeat' first | with_reducible exact Dev.Keeps.rfl | ((with_reducible apply Part.within_goal); exact Eq.refl true) | ((with_reducible apply Part.isIn_goal); first | exact Eq.refl true | exact contains_of (regPart_vehEvents (Nat.lt_of_lt_of_le (Fin.isLt _) (by decide))) (Eq.refl true)) | with_reducible apply Dev.Keeps.via (Dev.answer_keeps _ _ _) | with_reducible apply Dev.Keeps.via (Dev.startStop_keeps _ _ _ _) | with_reducible apply Dev.Keeps.via (Dev.endAttempt_keeps _ _ _) | with_reducible apply Dev.Keeps.raise | with_reducible apply Dev.Keeps.ite | with_reducible intro _ | extract_lets

theorem Dev.driveTripout_keeps (d : Dev) : d.Keeps (d.driveTripout) [.prot] := by
  unfold Dev.driveTripout
  repeat' first | with_reducible exact Dev.Keeps.rfl | ((with_reducible apply Part.within_goal); exact Eq.refl true) | ((with_reducible apply Part.isIn_goal); exact Eq.refl true) | with_reducible apply Dev.Keeps.via (Dev.onProtection_keeps _ _) | extract_lets

theorem Dev.forceLink_keeps (d : Dev) (n : LinkId) (rank : Nat) : d.Keeps (d.forceLink n rank) [.alloc, .prot, .recorder, .cmd, .group, .out, .con, .veh, .rAlc, .rVeh] := by
  unfold Dev.forceLink
  repeat' first | with_reducible exact Dev.Keeps.rfl | ((with_reducible apply Part.within_goal); exact Eq.refl true) | ((with_reducible apply Part.isIn_goal); exact Eq.refl true) | with_reducible apply Dev.Keeps.via (Dev.tripExchanges_keeps _ _) | with_reducible apply Dev.Keeps.via (Dev.publishGrant_keeps _ _) | with_reducible apply Dev.Keeps.via (Dev.onOut_keeps _ _ _) | with_reducible apply Dev.Keeps.via (Dev.onVeh_keeps _ _ _) | with_reducible apply Dev.Keeps.via (Dev.openAll_keeps _ _) | with_reducible apply Dev.Keeps.via (Dev.openNow_keeps _ _ _ _) | with_reducible apply Dev.Keeps.via (Dev.withdraw_keeps _ _ _) | extract_lets | split | (dsimp +zetaDelta only; split)

theorem Dev.tripLink_keeps (d : Dev) (n : LinkId) (c : Cause) (cls : Nat) (gone : Bool) : d.Keeps (d.tripLink n c cls gone) [.alloc, .prot, .recorder, .lnk, .cmd, .group, .out, .con, .veh, .lprot, .rPrt, .rAlc, .rLnk, .rVeh] := by
  unfold Dev.tripLink
  repeat' first | with_reducible exact Dev.Keeps.rfl | ((with_reducible apply Part.within_goal); exact Eq.refl true) | ((with_reducible apply Part.isIn_goal); first | exact Eq.refl true | exact contains_of (regPart_prtLEvents (Nat.lt_of_lt_of_le (Fin.isLt _) (by decide))) (Eq.refl true)) | with_reducible apply Dev.Keeps.via (Dev.onProt_keeps _ _ _) | with_reducible apply Dev.Keeps.via (Dev.sendTrip_keeps _ _ _) | with_reducible apply Dev.Keeps.via (Dev.forceLink_keeps _ _ _) | with_reducible apply Dev.Keeps.raise | with_reducible apply Dev.Keeps.ite | with_reducible intro _ | extract_lets

theorem Dev.haltBy_keeps (d : Dev) (c : Cause) (gone : Bool) : d.Keeps (d.haltBy c gone) [.power, .prot, .recorder, .rPrt] := by
  unfold Dev.haltBy
  repeat' first | with_reducible exact Dev.Keeps.rfl | ((with_reducible apply Part.within_goal); exact Eq.refl true) | ((with_reducible apply Part.isIn_goal); exact Eq.refl true) | with_reducible apply Dev.Keeps.via (Dev.onPower_keeps _ _) | with_reducible apply Dev.Keeps.via (Dev.onProtection_keeps _ _) | with_reducible apply Dev.Keeps.raise

theorem Dev.recordTrip_keeps (d : Dev) (c : Cause) (cls : Nat) : d.Keeps (d.recordTrip c cls) [.prot, .rPrt] := by
  unfold Dev.recordTrip
  repeat' first | with_reducible exact Dev.Keeps.rfl | ((with_reducible apply Part.within_goal); exact Eq.refl true) | ((with_reducible apply Part.isIn_goal); exact Eq.refl true) | with_reducible apply Dev.Keeps.via (Dev.onProtection_keeps _ _) | with_reducible apply Dev.Keeps.count | with_reducible apply Dev.Keeps.ite | with_reducible intro _ | extract_lets | split | (dsimp +zetaDelta only; split)

theorem Dev.trip_keeps (d : Dev) (c : Cause) (ns : List LinkId) (gone : Bool := false) : d.Keeps (d.trip c ns gone) Part.trip := by
  unfold Dev.trip
  repeat' first | with_reducible exact Dev.Keeps.rfl | ((with_reducible apply Part.within_goal); exact Eq.refl true) | ((with_reducible apply Part.isIn_goal); exact Eq.refl true) | with_reducible apply Dev.Keeps.via (Dev.recordTrip_keeps _ _ _) | with_reducible apply Dev.Keeps.via (Dev.tripLink_keeps _ _ _ _ _) | with_reducible apply Dev.Keeps.via (Dev.driveTripout_keeps _) | with_reducible apply Dev.Keeps.via (Dev.haltBy_keeps _ _ _) | with_reducible apply Dev.Keeps.each | with_reducible apply Dev.Keeps.ite | with_reducible intro _ | extract_lets

theorem Dev.Keeps.causeOn {d f : Dev} {l : List Part} {e : EvReg} {bit : Nat} {c : Cause} {n : Option LinkId} {ns : List LinkId}
    {gone : Bool} (h : d.Keeps f l) (hs : Part.within Part.trip l = true) (hr : Part.within [Part.recorder] l = true)
    (ha : Part.isIn l (regPart e.addr) = true) : d.Keeps (f.causeOn e bit c n ns gone) l := by
  unfold Dev.causeOn
  exact (h.raiseAlways hr ha).via' (Dev.trip_keeps _ _ _ _) hs

theorem Dev.linkCause_keeps (d : Dev) (n : LinkId) (code bit : Nat) (index : Nat := 0) : d.Keeps (d.linkCause n code bit index) Part.trip := by
  unfold Dev.linkCause
  repeat' first | with_reducible exact Dev.Keeps.rfl | ((with_reducible apply Part.within_goal); exact Eq.refl true) | ((with_reducible apply Part.isIn_goal); first | exact Eq.refl true | exact contains_of (regPart_prtLEvents (Nat.lt_of_lt_of_le (Fin.isLt _) (by decide))) (Eq.refl true)) | with_reducible apply Dev.Keeps.causeOn

theorem Dev.deviceCause_keeps (d : Dev) (code bit : Nat) (ns : List LinkId := []) (index : Nat := 0) (gone : Bool := false) : d.Keeps (d.deviceCause code bit ns index gone) Part.trip := by
  unfold Dev.deviceCause
  repeat' first | with_reducible exact Dev.Keeps.rfl | ((with_reducible apply Part.within_goal); exact Eq.refl true) | ((with_reducible apply Part.isIn_goal); exact Eq.refl true) | with_reducible apply Dev.Keeps.causeOn

theorem Dev.checkGone_keeps (d : Dev) : d.Keeps (d.checkGone) [.prot, .lprot] := by
  unfold Dev.checkGone
  repeat' first | with_reducible exact Dev.Keeps.rfl | ((with_reducible apply Part.within_goal); exact Eq.refl true) | ((with_reducible apply Part.isIn_goal); exact Eq.refl true) | with_reducible apply Dev.Keeps.via (Dev.onProtection_keeps _ _) | with_reducible apply Dev.Keeps.via (Dev.onProt_keeps _ _ _) | with_reducible apply Dev.Keeps.each | with_reducible apply Dev.Keeps.ite | with_reducible intro _

theorem Dev.markGone_keeps (d : Dev) (n : Option LinkId) (code : Nat) : d.Keeps (d.markGone n code) [.prot, .lprot] := by
  unfold Dev.markGone
  repeat' first | with_reducible exact Dev.Keeps.rfl | ((with_reducible apply Part.within_goal); exact Eq.refl true) | ((with_reducible apply Part.isIn_goal); exact Eq.refl true) | with_reducible apply Dev.Keeps.via (Dev.onProtection_keeps _ _) | with_reducible apply Dev.Keeps.via (Dev.onProt_keeps _ _ _) | with_reducible apply Dev.Keeps.each | with_reducible apply Dev.Keeps.ite | with_reducible intro _ | extract_lets

theorem Dev.releaseLink_keeps (d : Dev) (n : LinkId) : d.Keeps (d.releaseLink n) [.recorder, .lnk, .group, .con, .veh, .lprot, .rPrt] := by
  unfold Dev.releaseLink
  repeat' first | with_reducible exact Dev.Keeps.rfl | ((with_reducible apply Part.within_goal); exact Eq.refl true) | ((with_reducible apply Part.isIn_goal); first | exact Eq.refl true | exact contains_of (regPart_prtLEvents (Nat.lt_of_lt_of_le (Fin.isLt _) (by decide))) (Eq.refl true)) | with_reducible apply Dev.Keeps.via (Dev.onVeh_keeps _ _ _) | with_reducible apply Dev.Keeps.via (Dev.onProt_keeps _ _ _) | with_reducible apply Dev.Keeps.via (Dev.sendRelease_keeps _ _) | with_reducible apply Dev.Keeps.via (Dev.onGroup_keeps _ _ _) | with_reducible apply Dev.Keeps.raise | with_reducible apply Dev.Keeps.each | with_reducible apply Dev.Keeps.ite | with_reducible intro _ | extract_lets

theorem Dev.edgeReset_keeps (d : Dev) (links : List LinkId) (site : Bool) : d.Keeps (d.edgeReset links site) [.power, .prot, .recorder, .lnk, .group, .con, .veh, .lprot, .rPrt] := by
  unfold Dev.edgeReset
  repeat' first | with_reducible exact Dev.Keeps.rfl | ((with_reducible apply Part.within_goal); exact Eq.refl true) | ((with_reducible apply Part.isIn_goal); exact Eq.refl true) | with_reducible apply Dev.Keeps.via (Dev.releaseLink_keeps _ _) | with_reducible apply Dev.Keeps.via (Dev.onProtection_keeps _ _) | with_reducible apply Dev.Keeps.via (Dev.driveTripout_keeps _) | with_reducible apply Dev.Keeps.via (Dev.onPower_keeps _ _) | with_reducible apply Dev.Keeps.each | with_reducible apply Dev.Keeps.ite | with_reducible intro _ | extract_lets

theorem Dev.queueThresh_keeps (d : Dev) (n : LinkId) (k : Nat) : d.Keeps (d.queueThresh n k) [.lnk] := by
  unfold Dev.queueThresh
  repeat' first | with_reducible exact Dev.Keeps.rfl | ((with_reducible apply Part.within_goal); exact Eq.refl true) | ((with_reducible apply Part.isIn_goal); exact Eq.refl true) | with_reducible apply Dev.Keeps.via (Dev.queueReq_keeps _ _ _ _ _)

theorem Dev.startThresholds_keeps (d : Dev) (n : LinkId) : d.Keeps (d.startThresholds n) [.lnk, .lprot] := by
  unfold Dev.startThresholds
  repeat' first | with_reducible exact Dev.Keeps.rfl | ((with_reducible apply Part.within_goal); exact Eq.refl true) | ((with_reducible apply Part.isIn_goal); exact Eq.refl true) | with_reducible apply Dev.Keeps.via (Dev.onProt_keeps _ _ _) | with_reducible apply Dev.Keeps.via (Dev.queueThresh_keeps _ _ _) | with_reducible apply Dev.Keeps.each | with_reducible intro _

theorem Dev.holdLink_keeps (d : Dev) (n : LinkId) (why : HeldWhy) : d.Keeps (d.holdLink n why) [.alloc, .prot, .recorder, .lnk, .cmd, .group, .out, .con, .veh, .rAlc, .rVeh] := by
  unfold Dev.holdLink
  repeat' first | with_reducible exact Dev.Keeps.rfl | ((with_reducible apply Part.within_goal); exact Eq.refl true) | ((with_reducible apply Part.isIn_goal); exact Eq.refl true) | with_reducible apply Dev.Keeps.via (Dev.onLnk_keeps _ _ _) | with_reducible apply Dev.Keeps.via (Dev.withdraw_keeps _ _ _) | with_reducible apply Dev.Keeps.via (Dev.openAll_keeps _ _) | with_reducible apply Dev.Keeps.via (Dev.openNow_keeps _ _ _ _) | with_reducible apply Dev.Keeps.ite | with_reducible intro _ | extract_lets | split | (dsimp +zetaDelta only; split)

theorem Dev.threshFailed_keeps (d : Dev) (n : LinkId) (k : Nat) : d.Keeps (d.threshFailed n k) [.alloc, .prot, .recorder, .lnk, .cmd, .group, .out, .con, .veh, .lprot, .rPrt, .rAlc, .rVeh] := by
  unfold Dev.threshFailed
  repeat' first | with_reducible exact Dev.Keeps.rfl | ((with_reducible apply Part.within_goal); exact Eq.refl true) | ((with_reducible apply Part.isIn_goal); first | exact Eq.refl true | exact contains_of (regPart_prtLEvents (Nat.lt_of_lt_of_le (Fin.isLt _) (by decide))) (Eq.refl true)) | with_reducible apply Dev.Keeps.via (Dev.reqDone_keeps _ _) | with_reducible apply Dev.Keeps.via (Dev.onLnk_keeps _ _ _) | with_reducible apply Dev.Keeps.via (Dev.onProt_keeps _ _ _) | with_reducible apply Dev.Keeps.via (Dev.holdLink_keeps _ _ _) | with_reducible apply Dev.Keeps.raise | with_reducible apply Dev.Keeps.ite | with_reducible intro _ | extract_lets

theorem Dev.threshPassed_keeps (d : Dev) (n : LinkId) (k : Nat) : d.Keeps (d.threshPassed n k) [.lnk, .lprot] := by
  unfold Dev.threshPassed
  repeat' first | with_reducible exact Dev.Keeps.rfl | ((with_reducible apply Part.within_goal); exact Eq.refl true) | ((with_reducible apply Part.isIn_goal); exact Eq.refl true) | with_reducible apply Dev.Keeps.via (Dev.reqDone_keeps _ _) | with_reducible apply Dev.Keeps.via (Dev.onProt_keeps _ _ _) | with_reducible apply Dev.Keeps.via (Dev.settleLink_keeps _ _) | with_reducible apply Dev.Keeps.via (Dev.onLnk_keeps _ _ _) | with_reducible apply Dev.Keeps.ite | with_reducible intro _ | extract_lets

theorem Dev.takeIso_keeps (d : Dev) (n : LinkId) (v : Nat × Bool × Bool) : d.Keeps (d.takeIso n v) [.lprot] := by
  unfold Dev.takeIso
  repeat' first | with_reducible exact Dev.Keeps.rfl | ((with_reducible apply Part.within_goal); exact Eq.refl true) | ((with_reducible apply Part.isIn_goal); exact Eq.refl true) | with_reducible apply Dev.Keeps.via (Dev.onProt_keeps _ _ _) | with_reducible apply Dev.Keeps.each | with_reducible intro _

theorem Dev.passCable_keeps (d : Dev) (n : LinkId) (start : Tick) (v : Nat × Bool × Bool) : d.Keeps (d.passCable n start v) [.veh] := by
  unfold Dev.passCable
  repeat' first | with_reducible exact Dev.Keeps.rfl | ((with_reducible apply Part.within_goal); exact Eq.refl true) | ((with_reducible apply Part.isIn_goal); exact Eq.refl true) | with_reducible apply Dev.Keeps.via (Dev.onVeh_keeps _ _ _) | with_reducible apply Dev.Keeps.each | with_reducible apply Dev.Keeps.ite | with_reducible intro _ | extract_lets

theorem Dev.halfPeriod_keeps (d : Dev) (n : LinkId) : d.Keeps (d.halfPeriod n) Part.trip := by
  unfold Dev.halfPeriod
  repeat' first | with_reducible exact Dev.Keeps.rfl | ((with_reducible apply Part.within_goal); exact Eq.refl true) | ((with_reducible apply Part.isIn_goal); first | exact Eq.refl true | exact contains_of (regPart_prtLEvents (Nat.lt_of_lt_of_le (Fin.isLt _) (by decide))) (Eq.refl true)) | with_reducible apply Dev.Keeps.via (Dev.onProt_keeps _ _ _) | with_reducible apply Dev.Keeps.via (Dev.passCable_keeps _ _ _ _) | with_reducible apply Dev.Keeps.via (Dev.takeIso_keeps _ _ _) | with_reducible apply Dev.Keeps.via (Dev.linkCause_keeps _ _ _ _ _) | with_reducible apply Dev.Keeps.raiseIf | with_reducible apply Dev.Keeps.ite | with_reducible intro _ | extract_lets | split | (dsimp +zetaDelta only; split)

theorem Dev.imdSample_keeps (d : Dev) (n : LinkId) : d.Keeps (d.imdSample n) [.lprot] := by
  unfold Dev.imdSample
  repeat' first | with_reducible exact Dev.Keeps.rfl | ((with_reducible apply Part.within_goal); exact Eq.refl true) | ((with_reducible apply Part.isIn_goal); exact Eq.refl true) | with_reducible apply Dev.Keeps.via (Dev.onProt_keeps _ _ _) | with_reducible apply Dev.Keeps.ite | with_reducible intro _ | extract_lets

theorem Dev.residual_keeps (d : Dev) (n : LinkId) (new : Bool) : d.Keeps (d.residual n new) [.recorder, .lprot, .rPrt] := by
  unfold Dev.residual
  repeat' first | with_reducible exact Dev.Keeps.rfl | ((with_reducible apply Part.within_goal); exact Eq.refl true) | ((with_reducible apply Part.isIn_goal); first | exact Eq.refl true | exact contains_of (regPart_prtLEvents (Nat.lt_of_lt_of_le (Fin.isLt _) (by decide))) (Eq.refl true)) | with_reducible apply Dev.Keeps.via (Dev.onProt_keeps _ _ _) | with_reducible apply Dev.Keeps.raiseIf | with_reducible apply Dev.Keeps.ite | with_reducible intro _ | extract_lets

theorem Dev.limitSample_keeps (d : Dev) (n : LinkId) : d.Keeps (d.limitSample n) [.lprot] := by
  unfold Dev.limitSample
  repeat' first | with_reducible exact Dev.Keeps.rfl | ((with_reducible apply Part.within_goal); exact Eq.refl true) | ((with_reducible apply Part.isIn_goal); exact Eq.refl true) | with_reducible apply Dev.Keeps.via (Dev.onProt_keeps _ _ _) | with_reducible apply Dev.Keeps.ite | with_reducible intro _ | extract_lets

theorem Dev.mergeSegment_keeps (d : Dev) (g : LinkId) : d.Keeps (d.mergeSegment g) [.lprot] := by
  unfold Dev.mergeSegment
  repeat' first | with_reducible exact Dev.Keeps.rfl | ((with_reducible apply Part.within_goal); exact Eq.refl true) | ((with_reducible apply Part.isIn_goal); exact Eq.refl true) | with_reducible apply Dev.Keeps.via (Dev.onProt_keeps _ _ _) | with_reducible apply Dev.Keeps.via (Dev.restartSegment_keeps _ _) | with_reducible apply Dev.Keeps.ite | with_reducible intro _ | extract_lets

theorem Dev.symmetrySample_keeps (d : Dev) (n : LinkId) : d.Keeps (d.symmetrySample n) [.lprot] := by
  unfold Dev.symmetrySample
  repeat' first | with_reducible exact Dev.Keeps.rfl | ((with_reducible apply Part.within_goal); exact Eq.refl true) | ((with_reducible apply Part.isIn_goal); exact Eq.refl true) | with_reducible apply Dev.Keeps.via (Dev.onProt_keeps _ _ _) | with_reducible apply Dev.Keeps.each | with_reducible apply Dev.Keeps.ite | with_reducible intro _ | extract_lets

theorem Dev.bandSample_keeps (d : Dev) (n : LinkId) : d.Keeps (d.bandSample n) [.lprot] := by
  unfold Dev.bandSample
  repeat' first | with_reducible exact Dev.Keeps.rfl | ((with_reducible apply Part.within_goal); exact Eq.refl true) | ((with_reducible apply Part.isIn_goal); exact Eq.refl true) | with_reducible apply Dev.Keeps.via (Dev.onProt_keeps _ _ _) | extract_lets

theorem Dev.protSample_keeps (d : Dev) (n : LinkId) : d.Keeps (d.protSample n) [.recorder, .lprot, .rPrt] := by
  unfold Dev.protSample
  repeat' first | with_reducible exact Dev.Keeps.rfl | ((with_reducible apply Part.within_goal); exact Eq.refl true) | ((with_reducible apply Part.isIn_goal); exact Eq.refl true) | with_reducible apply Dev.Keeps.via (Dev.onProt_keeps _ _ _) | with_reducible apply Dev.Keeps.via (Dev.imdSample_keeps _ _) | with_reducible apply Dev.Keeps.via (Dev.residual_keeps _ _ _) | with_reducible apply Dev.Keeps.via (Dev.bandSample_keeps _ _) | with_reducible apply Dev.Keeps.via (Dev.limitSample_keeps _ _) | with_reducible apply Dev.Keeps.ite | with_reducible intro _ | extract_lets | split | (dsimp +zetaDelta only; split)

theorem Dev.feedbackSince_keeps (d : Dev) (n : LinkId) : d.Keeps (d.feedbackSince n) [.lprot] := by
  unfold Dev.feedbackSince
  repeat' first | with_reducible exact Dev.Keeps.rfl | ((with_reducible apply Part.within_goal); exact Eq.refl true) | ((with_reducible apply Part.isIn_goal); exact Eq.refl true) | with_reducible apply Dev.Keeps.via (Dev.onProt_keeps _ _ _) | extract_lets

theorem Dev.segPrepare_keeps (d : Dev) (g o : LinkId) : d.Keeps (d.segPrepare g o) [.prot, .lprot] := by
  unfold Dev.segPrepare
  repeat' first | with_reducible exact Dev.Keeps.rfl | ((with_reducible apply Part.within_goal); exact Eq.refl true) | ((with_reducible apply Part.isIn_goal); exact Eq.refl true) | with_reducible apply Dev.Keeps.via (Dev.chooseInjectors_keeps _) | with_reducible apply Dev.Keeps.via (Dev.onProtection_keeps _ _) | extract_lets

theorem Dev.onPair_keeps (d : Dev) (k : Fin 8) (f : AvPair → AvPair) : d.Keeps (d.onPair k f) [.prot] := by
  unfold Dev.onPair
  repeat' first | with_reducible exact Dev.Keeps.rfl | ((with_reducible apply Part.within_goal); exact Eq.refl true) | ((with_reducible apply Part.isIn_goal); exact Eq.refl true) | with_reducible apply Dev.Keeps.via (Dev.onProtection_keeps _ _)

theorem Dev.avDemand_keeps (d : Dev) (k : Fin 8) : d.Keeps (d.avDemand k) Part.trip := by
  unfold Dev.avDemand
  repeat' first | with_reducible exact Dev.Keeps.rfl | ((with_reducible apply Part.within_goal); exact Eq.refl true) | ((with_reducible apply Part.isIn_goal); exact Eq.refl true) | with_reducible apply Dev.Keeps.causeOn

theorem Dev.avLevels_keeps (d : Dev) (k : Fin 8) (a b : Bool) : d.Keeps (d.avLevels k a b) Part.trip := by
  unfold Dev.avLevels
  repeat' first | with_reducible exact Dev.Keeps.rfl | ((with_reducible apply Part.within_goal); exact Eq.refl true) | ((with_reducible apply Part.isIn_goal); exact Eq.refl true) | with_reducible apply Dev.Keeps.via (Dev.onPair_keeps _ _ _) | with_reducible apply Dev.Keeps.via (Dev.avDemand_keeps _ _) | with_reducible apply Dev.Keeps.ite | with_reducible intro _ | extract_lets

theorem Dev.judgePairs_keeps (d : Dev) : d.Keeps (d.judgePairs) Part.trip := by
  unfold Dev.judgePairs
  repeat' first | with_reducible exact Dev.Keeps.rfl | ((with_reducible apply Part.within_goal); exact Eq.refl true) | ((with_reducible apply Part.isIn_goal); exact Eq.refl true) | with_reducible apply Dev.Keeps.via (Dev.avDemand_keeps _ _) | with_reducible apply Dev.Keeps.each | with_reducible apply Dev.Keeps.ite | with_reducible intro _

theorem Dev.armPairs_keeps (d : Dev) : d.Keeps (d.armPairs) Part.trip := by
  unfold Dev.armPairs
  repeat' first | with_reducible exact Dev.Keeps.rfl | ((with_reducible apply Part.within_goal); exact Eq.refl true) | ((with_reducible apply Part.isIn_goal); exact Eq.refl true) | with_reducible apply Dev.Keeps.via (Dev.judgePairs_keeps _) | with_reducible apply Dev.Keeps.via (Dev.onPair_keeps _ _ _) | with_reducible apply Dev.Keeps.each | with_reducible intro _

theorem Dev.onConn_keeps (d : Dev) (c : Fin 8) (f : Connection → Connection) : d.Keeps (d.onConn c f) [.prot] := by
  unfold Dev.onConn
  repeat' first | with_reducible exact Dev.Keeps.rfl | ((with_reducible apply Part.within_goal); exact Eq.refl true) | ((with_reducible apply Part.isIn_goal); exact Eq.refl true) | with_reducible apply Dev.Keeps.via (Dev.onProtection_keeps _ _)

theorem Dev.snFault_keeps (d : Dev) (c : Fin 8) : d.Keeps (d.snFault c) Part.trip := by
  unfold Dev.snFault
  repeat' first | with_reducible exact Dev.Keeps.rfl | ((with_reducible apply Part.within_goal); exact Eq.refl true) | ((with_reducible apply Part.isIn_goal); exact Eq.refl true) | with_reducible apply Dev.Keeps.via (Dev.onConn_keeps _ _ _) | with_reducible apply Dev.Keeps.causeOn

theorem Dev.snSignals_keeps (d : Dev) (c : Fin 8) (sig : Byte) : d.Keeps (d.snSignals c sig) Part.trip := by
  unfold Dev.snSignals
  repeat' first | with_reducible exact Dev.Keeps.rfl | ((with_reducible apply Part.within_goal); exact Eq.refl true) | ((with_reducible apply Part.isIn_goal); exact Eq.refl true) | with_reducible apply Dev.Keeps.via (Dev.onConn_keeps _ _ _) | with_reducible apply Dev.Keeps.causeOn | with_reducible apply Dev.Keeps.each | with_reducible intro _

theorem Dev.snReset_keeps (d : Dev) (c : Fin 8) (cnt : BitVec 16) : d.Keeps (d.snReset c cnt) [.power, .prot, .recorder, .lnk, .group, .con, .veh, .lprot, .rPrt] := by
  unfold Dev.snReset
  repeat' first | with_reducible exact Dev.Keeps.rfl | ((with_reducible apply Part.within_goal); exact Eq.refl true) | ((with_reducible apply Part.isIn_goal); exact Eq.refl true) | with_reducible apply Dev.Keeps.via (Dev.edgeReset_keeps _ _ _) | with_reducible apply Dev.Keeps.via (Dev.onConn_keeps _ _ _) | with_reducible apply Dev.Keeps.raise | with_reducible apply Dev.Keeps.ite | with_reducible intro _ | extract_lets

theorem Dev.snAct_keeps (d : Dev) (c : Fin 8) (p : List Byte) : d.Keeps (d.snAct c p) Part.trip := by
  unfold Dev.snAct
  repeat' first | with_reducible exact Dev.Keeps.rfl | ((with_reducible apply Part.within_goal); exact Eq.refl true) | ((with_reducible apply Part.isIn_goal); exact Eq.refl true) | with_reducible apply Dev.Keeps.via (Dev.snSignals_keeps _ _ _) | with_reducible apply Dev.Keeps.via (Dev.snReset_keeps _ _ _) | with_reducible apply Dev.Keeps.ite | with_reducible intro _

theorem Dev.snFrame_keeps (d : Dev) (net : SafetyNet) (kind : Nat) (raw : List Byte) : d.Keeps (d.snFrame net kind raw) Part.trip := by
  unfold Dev.snFrame
  repeat' first | with_reducible exact Dev.Keeps.rfl | ((with_reducible apply Part.within_goal); exact Eq.refl true) | ((with_reducible apply Part.isIn_goal); exact Eq.refl true) | with_reducible apply Dev.Keeps.via (Dev.onConn_keeps _ _ _) | with_reducible apply Dev.Keeps.via (Dev.snFault_keeps _ _) | with_reducible apply Dev.Keeps.via (Dev.snAct_keeps _ _ _) | with_reducible apply Dev.Keeps.raiseIf | with_reducible apply Dev.Keeps.count | with_reducible apply Dev.Keeps.ite | with_reducible intro _ | extract_lets | split | (dsimp +zetaDelta only; split)

theorem Dev.snSend_keeps (d : Dev) : d.Keeps (d.snSend) [.prot] := by
  unfold Dev.snSend
  repeat' first | with_reducible exact Dev.Keeps.rfl | ((with_reducible apply Part.within_goal); exact Eq.refl true) | ((with_reducible apply Part.isIn_goal); exact Eq.refl true) | with_reducible apply Dev.Keeps.via (Dev.onProtection_keeps _ _) | with_reducible apply Dev.Keeps.ite | with_reducible intro _ | extract_lets

theorem Dev.openConnections_keeps (d : Dev) : d.Keeps (d.openConnections) [.prot] := by
  unfold Dev.openConnections
  repeat' first | with_reducible exact Dev.Keeps.rfl | ((with_reducible apply Part.within_goal); exact Eq.refl true) | ((with_reducible apply Part.isIn_goal); exact Eq.refl true) | with_reducible apply Dev.Keeps.via (Dev.onConn_keeps _ _ _) | with_reducible apply Dev.Keeps.each | with_reducible apply Dev.Keeps.ite | with_reducible intro _

end Sys2Proof.Machine
end

