-- ==== Sys2Proof/Laws/KeepsModes.lean ====
section
/-! SUPPORT. Which parts of the device an operation can change: configuration, resets, updates and modes. -/

namespace Sys2Proof.Machine

set_option Elab.async false

theorem Dev.imageDefaults_keeps (d : Dev) : d.Keeps d.imageDefaults Part.registers := by
  refine Dev.Keeps.rfl.of_regs fun a ha => ?_
  exact absurd (Part.isIn_iff.1 (contains_regPart (l := Part.registers) (Eq.refl true) a)) ha

theorem Dev.imageAbsent_keeps (d : Dev) : d.Keeps d.imageAbsent Part.registers := by
  refine Dev.Keeps.rfl.of_regs fun a ha => ?_
  exact absurd (Part.isIn_iff.1 (contains_regPart (l := Part.registers) (Eq.refl true) a)) ha

theorem Dev.kindDefaults_keeps (d : Dev) (given : List Nat) : d.Keeps (d.kindDefaults given) [.rVeh] := by
  unfold Dev.kindDefaults
  repeat' first | with_reducible exact Dev.Keeps.rfl | ((with_reducible apply Part.within_goal); exact Eq.refl true) | ((with_reducible apply Part.isIn_goal); first | exact Eq.refl true | exact contains_of (regPart_vehCfg (Nat.lt_of_lt_of_le (Fin.isLt _) (by decide))) (Eq.refl true) | exact contains_of (regPart_vehXStop (Nat.lt_of_lt_of_le (Fin.isLt _) (by decide))) (Eq.refl true)) | with_reducible apply Dev.Keeps.setField | with_reducible apply Dev.Keeps.each | with_reducible apply Dev.Keeps.ite | with_reducible intro _ | extract_lets

theorem Dev.imageRegs_keeps (d : Dev) (es : List (Nat × Word)) : d.Keeps (d.imageRegs es) Part.registers := by
  unfold Dev.imageRegs
  repeat' first | with_reducible exact Dev.Keeps.rfl | ((with_reducible apply Part.within_goal); exact Eq.refl true) | ((with_reducible apply Part.isIn_goal); first | exact Eq.refl true | with_reducible apply contains_regPart) | with_reducible apply Dev.Keeps.via (Dev.imageDefaults_keeps _) | with_reducible apply Dev.Keeps.via (Dev.kindDefaults_keeps _ _) | with_reducible apply Dev.Keeps.setReg | with_reducible apply Dev.Keeps.each | with_reducible intro _ | extract_lets | split | (dsimp +zetaDelta only; split)

theorem Dev.loadImage_keeps (d : Dev) : d.Keeps (d.loadImage) (.tenants :: .sec :: .cfg :: .recorder :: Part.registers) := by
  unfold Dev.loadImage
  repeat' first | with_reducible exact Dev.Keeps.rfl | ((with_reducible apply Part.within_goal); exact Eq.refl true) | ((with_reducible apply Part.isIn_goal); first | exact Eq.refl true | with_reducible apply contains_regPart) | with_reducible apply Dev.Keeps.via (Dev.onCfg_keeps _ _) | with_reducible apply Dev.Keeps.via (Dev.onSec_keeps _ _) | with_reducible apply Dev.Keeps.via (Dev.imageAbsent_keeps _) | with_reducible apply Dev.Keeps.via (Dev.imageRegs_keeps _ _) | with_reducible apply Dev.Keeps.setReg | with_reducible apply Dev.Keeps.raise | with_reducible apply Dev.Keeps.raiseAlways | with_reducible apply Dev.Keeps.each | with_reducible apply Dev.Keeps.ite | with_reducible intro _ | extract_lets | with_reducible apply Dev.Keeps.to_tenants

theorem Dev.fnStat_keeps (d : Dev) (refuse : Nat) (fn : Byte) (inst : BitVec 10) : d.Keeps (d.fnStat refuse fn inst) [.cfg] := by
  unfold Dev.fnStat
  repeat' first | with_reducible exact Dev.Keeps.rfl | ((with_reducible apply Part.within_goal); exact Eq.refl true) | ((with_reducible apply Part.isIn_goal); exact Eq.refl true) | with_reducible apply Dev.Keeps.via (Dev.onCfg_keeps _ _)

theorem Dev.setSlot_keeps (d : Dev) (k : Fin 16) (h : Option HoldSlot) : d.Keeps (d.setSlot k h) [.cfg] := by
  unfold Dev.setSlot
  repeat' first | with_reducible exact Dev.Keeps.rfl | ((with_reducible apply Part.within_goal); exact Eq.refl true) | ((with_reducible apply Part.isIn_goal); exact Eq.refl true) | with_reducible apply Dev.Keeps.via (Dev.onCfg_keeps _ _)

theorem Dev.fnRefuse_keeps (d : Dev) (code : Nat) (fn : Byte) (inst : BitVec 10) : d.Keeps (d.fnRefuse code fn inst) [.cfg, .recorder, .rCfg] := by
  unfold Dev.fnRefuse
  repeat' first | with_reducible exact Dev.Keeps.rfl | ((with_reducible apply Part.within_goal); exact Eq.refl true) | ((with_reducible apply Part.isIn_goal); exact Eq.refl true) | with_reducible apply Dev.Keeps.via (Dev.fnStat_keeps _ _ _ _) | with_reducible apply Dev.Keeps.raise

theorem Dev.nowHeld_keeps (d : Dev) (k : Fin 16) : d.Keeps (d.nowHeld k) [.tenants, .alloc, .cfg] := by
  unfold Dev.nowHeld
  repeat' first | with_reducible exact Dev.Keeps.rfl | ((with_reducible apply Part.within_goal); exact Eq.refl true) | ((with_reducible apply Part.isIn_goal); exact Eq.refl true) | with_reducible apply Dev.Keeps.via (Dev.setSlot_keeps _ _ _) | with_reducible apply Dev.Keeps.via (Dev.holdTariff_keeps _ _) | with_reducible apply Dev.Keeps.via (Dev.onAlloc_keeps _ _) | extract_lets | split | (dsimp +zetaDelta only; split)

theorem Dev.takeSlot_keeps (d : Dev) (fn : Byte) (inst : BitVec 10) : d.Keeps (d.takeSlot fn inst) [.tenants, .alloc, .cfg, .archive] := by
  unfold Dev.takeSlot
  repeat' first | with_reducible exact Dev.Keeps.rfl | ((with_reducible apply Part.within_goal); exact Eq.refl true) | ((with_reducible apply Part.isIn_goal); exact Eq.refl true) | with_reducible apply Dev.Keeps.via (Dev.fnStat_keeps _ _ _ _) | with_reducible apply Dev.Keeps.via (Dev.setSlot_keeps _ _ _) | with_reducible apply Dev.Keeps.via (Dev.onAlloc_keeps _ _) | with_reducible apply Dev.Keeps.via (Dev.nowHeld_keeps _ _) | with_reducible apply Dev.Keeps.via (Dev.onArc_keeps _ _) | with_reducible apply Dev.Keeps.ite | with_reducible intro _ | extract_lets | split | (dsimp +zetaDelta only; split)

theorem Dev.commitCal_keeps (d : Dev) (n : LinkId) (ch : Fin 8) : d.Keeps (d.commitCal n ch) [.recorder, .met, .rMet] := by
  have hn := n.2
  have hc := ch.2
  unfold Dev.commitCal
  extract_lets m mine old new changed d1
  refine Dev.Keeps.ite (fun _ => Dev.Keeps.rfl) fun _ => ?_
  have h : d.Keeps (d.setRegs (calAddr n ch.1 0) new) [.recorder, .met, .rMet] := by
    refine Dev.Keeps.setRegs Dev.Keeps.rfl fun i hi => ?_
    have hi : i < 5 := by simpa [new] using hi
    exact contains_of (q := .rMet) (regPart_link (k := 1) (by unfold calAddr; omega) (by unfold calAddr; omega) (by unfold calAddr; omega)) (Eq.refl true)
  have h1 : d.Keeps d1 [.recorder, .met, .rMet] := Dev.Keeps.via (Dev.onMet_keeps _ _ _) h (Eq.refl true)
  exact Dev.Keeps.raiseIf (Dev.Keeps.setReg h1 (contains_of (regPart_metCalCrc hn) (Eq.refl true))) (Eq.refl true) (contains_of (regPart_metEvents hn) (Eq.refl true))

theorem Dev.commitCals_keeps (d : Dev) (n : LinkId) : d.Keeps (d.commitCals n) [.recorder, .met, .rMet] := by
  unfold Dev.commitCals
  repeat' first | with_reducible exact Dev.Keeps.rfl | ((with_reducible apply Part.within_goal); exact Eq.refl true) | ((with_reducible apply Part.isIn_goal); exact Eq.refl true) | with_reducible apply Dev.Keeps.via (Dev.onMet_keeps _ _ _) | with_reducible apply Dev.Keeps.via (Dev.commitCal_keeps _ _ _) | with_reducible apply Dev.Keeps.each | with_reducible intro _ | extract_lets

theorem Dev.before_keeps (d : Dev) (old : List (Nat × Word)) : d.Keeps (d.before old) Part.registers := by
  unfold Dev.before
  repeat' first | with_reducible exact Dev.Keeps.rfl | ((with_reducible apply Part.within_goal); exact Eq.refl true) | ((with_reducible apply Part.isIn_goal); first | exact Eq.refl true | with_reducible apply contains_regPart) | with_reducible apply Dev.Keeps.setReg | with_reducible apply Dev.Keeps.each | with_reducible intro _

theorem Dev.resumeProt_keeps (d : Dev) (n : LinkId) (old : List (Nat × Word)) : d.Keeps (d.resumeProt n old) (.lnk :: .lprot :: Part.registers) := by
  unfold Dev.resumeProt
  repeat' first | with_reducible exact Dev.Keeps.rfl | ((with_reducible apply Part.within_goal); exact Eq.refl true) | ((with_reducible apply Part.isIn_goal); first | exact Eq.refl true | with_reducible apply contains_regPart) | with_reducible apply Dev.Keeps.via (Dev.before_keeps _ _) | with_reducible apply Dev.Keeps.via (Dev.restartSegment_keeps _ _) | with_reducible apply Dev.Keeps.via (Dev.startThresholds_keeps _ _) | with_reducible apply Dev.Keeps.ite | with_reducible intro _ | extract_lets

theorem Dev.resumed_keeps (d : Dev) (h : HoldSlot) : d.Keeps (d.resumed h) (.alloc :: .prot :: .recorder :: .archive :: .lnk :: .met :: .lbill :: .veh :: .lprot :: Part.registers) := by
  unfold Dev.resumed
  repeat' first | with_reducible exact Dev.Keeps.rfl | ((with_reducible apply Part.within_goal); exact Eq.refl true) | ((with_reducible apply Part.isIn_goal); first | exact Eq.refl true | with_reducible apply contains_regPart) | with_reducible apply Dev.Keeps.via (Dev.commitCals_keeps _ _) | with_reducible apply Dev.Keeps.via (Dev.tpoCheck_keeps _) | with_reducible apply Dev.Keeps.via (Dev.refixSlots_keeps _ _) | with_reducible apply Dev.Keeps.via (Dev.setBudget_keeps _) | with_reducible apply Dev.Keeps.via (Dev.onAlloc_keeps _ _) | with_reducible apply Dev.Keeps.via (Dev.resumeProt_keeps _ _ _) | with_reducible apply Dev.Keeps.via (Dev.onVeh_keeps _ _ _) | with_reducible apply Dev.Keeps.via (Dev.onArc_keeps _ _) | with_reducible apply Dev.Keeps.via (Dev.before_keeps _ _) | with_reducible apply Dev.Keeps.via (Dev.startThresholds_keeps _ _) | with_reducible apply Dev.Keeps.via (Dev.onConn_keeps _ _ _) | with_reducible apply Dev.Keeps.each | with_reducible apply Dev.Keeps.ite | with_reducible intro _ | extract_lets | split | (dsimp +zetaDelta only; split)

theorem Dev.applyResume_keeps (d : Dev) (k : Fin 16) : d.Keeps (d.applyResume k) (.tenants :: .bill :: .alloc :: .prot :: .cfg :: .recorder :: .archive :: .lnk :: .met :: .lbill :: .veh :: .lprot :: Part.registers) := by
  unfold Dev.applyResume
  repeat' first | with_reducible exact Dev.Keeps.rfl | ((with_reducible apply Part.within_goal); exact Eq.refl true) | ((with_reducible apply Part.isIn_goal); first | exact Eq.refl true | with_reducible apply contains_regPart) | with_reducible apply Dev.Keeps.via (Dev.resumeTariff_keeps _ _) | with_reducible apply Dev.Keeps.via (Dev.resumed_keeps _ _) | with_reducible apply Dev.Keeps.via (Dev.setSlot_keeps _ _ _) | with_reducible apply Dev.Keeps.setReg | with_reducible apply Dev.Keeps.each | with_reducible apply Dev.Keeps.ite | with_reducible intro _ | extract_lets | split | (dsimp +zetaDelta only; split)

theorem Dev.discardHold_keeps (d : Dev) (k : Fin 16) : d.Keeps (d.discardHold k) (.tenants :: .alloc :: .cfg :: .archive :: .met :: .veh :: Part.registers) := by
  unfold Dev.discardHold
  repeat' first | with_reducible exact Dev.Keeps.rfl | ((with_reducible apply Part.within_goal); exact Eq.refl true) | ((with_reducible apply Part.isIn_goal); first | exact Eq.refl true | with_reducible apply contains_regPart) | with_reducible apply Dev.Keeps.via (Dev.setSlot_keeps _ _ _) | with_reducible apply Dev.Keeps.via (Dev.onMet_keeps _ _ _) | with_reducible apply Dev.Keeps.via (Dev.onTenant_keeps _ _ _) | with_reducible apply Dev.Keeps.via (Dev.onAlloc_keeps _ _) | with_reducible apply Dev.Keeps.via (Dev.onVeh_keeps _ _ _) | with_reducible apply Dev.Keeps.via (Dev.onArc_keeps _ _) | with_reducible apply Dev.Keeps.setReg | with_reducible apply Dev.Keeps.each | with_reducible apply Dev.Keeps.ite | with_reducible intro _ | extract_lets | split | (dsimp +zetaDelta only; split)

theorem Dev.endHolds_keeps (d : Dev) : d.Keeps (d.endHolds) (.tenants :: .alloc :: .cfg :: .archive :: .met :: .veh :: Part.registers) := by
  unfold Dev.endHolds
  repeat' first | with_reducible exact Dev.Keeps.rfl | ((with_reducible apply Part.within_goal); exact Eq.refl true) | ((with_reducible apply Part.isIn_goal); first | exact Eq.refl true | with_reducible apply contains_regPart) | with_reducible apply Dev.Keeps.via (Dev.discardHold_keeps _ _) | with_reducible apply Dev.Keeps.each | with_reducible intro _

theorem Dev.lastGasp_keeps (d : Dev) : d.Keeps (d.lastGasp) (.rPwr :: Part.lap) := by
  unfold Dev.lastGasp
  repeat' first | with_reducible exact Dev.Keeps.rfl | ((with_reducible apply Part.within_goal); exact Eq.refl true) | ((with_reducible apply Part.isIn_goal); exact Eq.refl true) | with_reducible apply Dev.Keeps.via (Dev.lapFirst_keeps _) | with_reducible apply Dev.Keeps.via (Dev.commitTotals_keeps _) | with_reducible apply Dev.Keeps.via (Dev.mirror_keeps _) | with_reducible apply Dev.Keeps.setReg | extract_lets

theorem Dev.verifyLoader_keeps (d : Dev) : d.Keeps (d.verifyLoader) [.power, .mem] := by
  unfold Dev.verifyLoader
  repeat' first | with_reducible exact Dev.Keeps.rfl | ((with_reducible apply Part.within_goal); exact Eq.refl true) | ((with_reducible apply Part.isIn_goal); exact Eq.refl true) | with_reducible apply Dev.Keeps.via (Dev.onPower_keeps _ _) | with_reducible apply Dev.Keeps.via (Dev.lastWord_keeps _ _ _) | with_reducible apply Dev.Keeps.ite | with_reducible intro _

theorem Dev.imagePairs_keeps (d : Dev) : d.Keeps (d.imagePairs) Part.registers := by
  unfold Dev.imagePairs
  repeat' first | with_reducible exact Dev.Keeps.rfl | ((with_reducible apply Part.within_goal); exact Eq.refl true) | ((with_reducible apply Part.isIn_goal); first | exact Eq.refl true | with_reducible apply contains_regPart) | with_reducible apply Dev.Keeps.setReg | with_reducible apply Dev.Keeps.each | with_reducible apply Dev.Keeps.ite | with_reducible intro _ | extract_lets

theorem Dev.armBoot_keeps (d : Dev) : d.Keeps (d.armBoot) (.power :: .alloc :: .prot :: .recorder :: .mem :: .lnk :: .cmd :: .group :: .out :: .con :: .veh :: .lprot :: Part.registers) := by
  unfold Dev.armBoot
  repeat' first | with_reducible exact Dev.Keeps.rfl | ((with_reducible apply Part.within_goal); exact Eq.refl true) | ((with_reducible apply Part.isIn_goal); first | exact Eq.refl true | with_reducible apply contains_regPart) | with_reducible apply Dev.Keeps.via (Dev.verifyLoader_keeps _) | with_reducible apply Dev.Keeps.via (Dev.armPairs_keeps _) | with_reducible apply Dev.Keeps.via (Dev.imagePairs_keeps _) | with_reducible apply Dev.Keeps.via (Dev.onProtection_keeps _ _) | with_reducible apply Dev.Keeps.via (Dev.onPower_keeps _ _)

theorem Dev.restoreMirrors_keeps (d : Dev) : d.Keeps (d.restoreMirrors) [.pacer, .power, .bill, .svc, .lbill, .rPwr, .rBil] := by
  unfold Dev.restoreMirrors
  repeat' first | with_reducible exact Dev.Keeps.rfl | ((with_reducible apply Part.within_goal); exact Eq.refl true) | ((with_reducible apply Part.isIn_goal); exact Eq.refl true) | with_reducible apply Dev.Keeps.via (Dev.onSvc_keeps _ _) | with_reducible apply Dev.Keeps.via (Dev.onPower_keeps _ _) | with_reducible apply Dev.Keeps.via (Dev.onBilling_keeps _ _) | with_reducible apply Dev.Keeps.via (Dev.onPacer_keeps _ _) | with_reducible apply Dev.Keeps.via (Dev.onBill_keeps _ _ _) | with_reducible apply Dev.Keeps.setReg | with_reducible apply Dev.Keeps.each | with_reducible apply Dev.Keeps.ite | with_reducible intro _

theorem Dev.activationCut_keeps (d : Dev) : d.Keeps (d.activationCut) [.upd, .recorder, .rUpd] := by
  unfold Dev.activationCut
  repeat' first | with_reducible exact Dev.Keeps.rfl | ((with_reducible apply Part.within_goal); exact Eq.refl true) | ((with_reducible apply Part.isIn_goal); exact Eq.refl true) | with_reducible apply Dev.Keeps.via (Dev.onUpd_keeps _ _) | with_reducible apply Dev.Keeps.raise | with_reducible apply Dev.Keeps.ite | with_reducible intro _

theorem Dev.powerOn_keeps (d : Dev) (loaderOk : Bool) : d.Keeps (d.powerOn loaderOk) (.pacer :: .power :: .bill :: .alloc :: .prot :: .svc :: .upd :: .recorder :: .mem :: .fresh :: .lnk :: .cmd :: .lbill :: .group :: .out :: .con :: .veh :: .lprot :: Part.registers) := by
  unfold Dev.powerOn
  repeat' first | with_reducible exact Dev.Keeps.rfl | ((with_reducible apply Part.within_goal); exact Eq.refl true) | ((with_reducible apply Part.isIn_goal); first | exact Eq.refl true | with_reducible apply contains_regPart) | with_reducible apply Dev.Keeps.via (Dev.onPacer_keeps _ _) | with_reducible apply Dev.Keeps.via (Dev.restoreMirrors_keeps _) | with_reducible apply Dev.Keeps.via (Dev.activationCut_keeps _) | with_reducible apply Dev.Keeps.via (Dev.armBoot_keeps _) | with_reducible apply Dev.Keeps.via (Dev.onPower_keeps _ _) | with_reducible apply Dev.Keeps.setReg | with_reducible apply Dev.Keeps.count | with_reducible apply Dev.Keeps.drew | with_reducible apply Dev.Keeps.ite | with_reducible intro _ | extract_lets

theorem Dev.wakeCause_keeps (d : Dev) (c : WakeCause) : d.Keeps (d.wakeCause c) [.power] := by
  unfold Dev.wakeCause
  repeat' first | with_reducible exact Dev.Keeps.rfl | ((with_reducible apply Part.within_goal); exact Eq.refl true) | ((with_reducible apply Part.isIn_goal); exact Eq.refl true) | with_reducible apply Dev.Keeps.via (Dev.onPower_keeps _ _) | with_reducible apply Dev.Keeps.ite | with_reducible intro _

theorem Dev.leaveDormant_keeps (d : Dev) (c : WakeCause) : d.Keeps (d.leaveDormant c) (.pacer :: .power :: .alloc :: .prot :: .recorder :: .mem :: .fresh :: .lnk :: .cmd :: .group :: .out :: .con :: .veh :: .lprot :: Part.registers) := by
  unfold Dev.leaveDormant
  repeat' first | with_reducible exact Dev.Keeps.rfl | ((with_reducible apply Part.within_goal); exact Eq.refl true) | ((with_reducible apply Part.isIn_goal); first | exact Eq.refl true | with_reducible apply contains_regPart) | with_reducible apply Dev.Keeps.via (Dev.onPacer_keeps _ _) | with_reducible apply Dev.Keeps.via (Dev.armBoot_keeps _) | with_reducible apply Dev.Keeps.via (Dev.onPower_keeps _ _) | with_reducible apply Dev.Keeps.setReg | with_reducible apply Dev.Keeps.raiseIf | with_reducible apply Dev.Keeps.drew | extract_lets

theorem Dev.setPart_keeps (d : Dev) (k : Nat) (s : PartState) : d.Keeps (d.setPart k s) [.upd, .rUpd] := by
  unfold Dev.setPart
  repeat' first | with_reducible exact Dev.Keeps.rfl | ((with_reducible apply Part.within_goal); exact Eq.refl true) | ((with_reducible apply Part.isIn_goal); first | exact Eq.refl true | exact contains_of (regPart_updPart (by first | exact Nat.lt_of_lt_of_le (Fin.isLt _) (by decide) | exact lt_of_range (by assumption) (by decide) | exact lt_of_range (by assumption) (Nat.le_trans (Role.channels_le _) (by decide)) | decide | omega | (simp at *; omega))) (Eq.refl true)) | with_reducible apply Dev.Keeps.via (Dev.onUpd_keeps _ _) | with_reducible apply Dev.Keeps.setReg | with_reducible apply Dev.Keeps.ite | with_reducible intro _ | extract_lets

theorem Dev.eraseStaging_keeps (d : Dev) : d.Keeps (d.eraseStaging) [.upd] := by
  unfold Dev.eraseStaging
  repeat' first | with_reducible exact Dev.Keeps.rfl | ((with_reducible apply Part.within_goal); exact Eq.refl true) | ((with_reducible apply Part.isIn_goal); exact Eq.refl true) | with_reducible apply Dev.Keeps.via (Dev.onUpd_keeps _ _)

theorem Dev.offerManifest_keeps (d : Dev) (serial : Word) (notBefore notAfter : Nat) (b : List Byte) : d.Keeps (d.offerManifest serial notBefore notAfter b) [.upd, .recorder, .rUpd] := by
  unfold Dev.offerManifest
  repeat' first | with_reducible exact Dev.Keeps.rfl | ((with_reducible apply Part.within_goal); exact Eq.refl true) | ((with_reducible apply Part.isIn_goal); exact Eq.refl true) | with_reducible apply Dev.Keeps.via (Dev.onUpd_keeps _ _) | with_reducible apply Dev.Keeps.via (Dev.eraseStaging_keeps _) | with_reducible apply Dev.Keeps.via (Dev.setPart_keeps _ _ _) | with_reducible apply Dev.Keeps.setReg | with_reducible apply Dev.Keeps.raise | with_reducible apply Dev.Keeps.raiseAlways | with_reducible apply Dev.Keeps.each | with_reducible apply Dev.Keeps.ite | with_reducible intro _ | extract_lets

theorem Dev.endUpdate_keeps (d : Dev) (outcome : Nat) : d.Keeps (d.endUpdate outcome) [.upd, .rUpd] := by
  unfold Dev.endUpdate
  repeat' first | with_reducible exact Dev.Keeps.rfl | ((with_reducible apply Part.within_goal); exact Eq.refl true) | ((with_reducible apply Part.isIn_goal); exact Eq.refl true) | with_reducible apply Dev.Keeps.via (Dev.onUpd_keeps _ _) | with_reducible apply Dev.Keeps.via (Dev.eraseStaging_keeps _) | with_reducible apply Dev.Keeps.setReg

theorem Dev.failPart_keeps (d : Dev) (k : Nat) : d.Keeps (d.failPart k) [.upd, .recorder, .rUpd] := by
  unfold Dev.failPart
  repeat' first | with_reducible exact Dev.Keeps.rfl | ((with_reducible apply Part.within_goal); exact Eq.refl true) | ((with_reducible apply Part.isIn_goal); exact Eq.refl true) | with_reducible apply Dev.Keeps.via (Dev.eraseStaging_keeps _) | with_reducible apply Dev.Keeps.via (Dev.onUpd_keeps _ _) | with_reducible apply Dev.Keeps.via (Dev.setPart_keeps _ _ _) | with_reducible apply Dev.Keeps.setReg | with_reducible apply Dev.Keeps.raise

theorem Dev.stageStep_keeps (d : Dev) (n : LinkId) (p : PartEntry) (img : List Byte) (k : Nat) : d.Keeps (d.stageStep n p img k) [.lnk] := by
  unfold Dev.stageStep
  repeat' first | with_reducible exact Dev.Keeps.rfl | ((with_reducible apply Part.within_goal); exact Eq.refl true) | ((with_reducible apply Part.isIn_goal); exact Eq.refl true) | with_reducible apply Dev.Keeps.via (Dev.queueReq_keeps _ _ _ _ _) | with_reducible apply Dev.Keeps.via (Dev.onLnk_keeps _ _ _) | with_reducible apply Dev.Keeps.ite | with_reducible intro _ | extract_lets

theorem Dev.stageOn_keeps (d : Dev) (n : LinkId) (k : Nat) : d.Keeps (d.stageOn n k) [.lnk] := by
  unfold Dev.stageOn
  repeat' first | with_reducible exact Dev.Keeps.rfl | ((with_reducible apply Part.within_goal); exact Eq.refl true) | ((with_reducible apply Part.isIn_goal); exact Eq.refl true) | with_reducible apply Dev.Keeps.via (Dev.stageStep_keeps _ _ _ _ _) | split | (dsimp +zetaDelta only; split)

theorem Dev.takeParts_keeps (d : Dev) (k : Nat) : d.Keeps (d.takeParts k) [.sec, .upd, .recorder, .lnk, .rUpd, .rSec] := by
  induction k generalizing d with
  | zero => exact Dev.Keeps.rfl
  | succ k ih =>
    have go : ∀ e : Dev, d.Keeps e [.sec, .upd, .recorder, .lnk, .rUpd, .rSec] → d.Keeps (e.takeParts k) [.sec, .upd, .recorder, .lnk, .rUpd, .rSec] := fun e h => h.trans (ih e) fun _ h => h
    unfold Dev.takeParts
    repeat' first | with_reducible exact Dev.Keeps.rfl | exact Eq.refl true | with_reducible apply go | with_reducible apply Dev.Keeps.via (Dev.setPart_keeps _ _ _) | with_reducible apply Dev.Keeps.via (Dev.request_keeps _ _ _ _ _ _) | with_reducible apply Dev.Keeps.via (Dev.stageOn_keeps _ _ _) | with_reducible apply Dev.Keeps.raise | with_reducible apply Dev.Keeps.via (Dev.onUpd_keeps _ _) | with_reducible apply Dev.Keeps.each | with_reducible apply Dev.Keeps.ite | with_reducible intro _ | extract_lets | split

theorem Dev.verifyParts_keeps (d : Dev) : d.Keeps (d.verifyParts) [.sec, .upd, .recorder, .lnk, .rUpd, .rSec] := by
  unfold Dev.verifyParts
  repeat' first | with_reducible exact Dev.Keeps.rfl | ((with_reducible apply Part.within_goal); exact Eq.refl true) | ((with_reducible apply Part.isIn_goal); exact Eq.refl true) | with_reducible apply Dev.Keeps.via (Dev.takeParts_keeps _ _) | with_reducible apply Dev.Keeps.via (Dev.onUpd_keeps _ _)

theorem Dev.partChecked_keeps (d : Dev) (k : Nat) : d.Keeps (d.partChecked k) [.sec, .upd, .recorder, .lnk, .rUpd, .rSec] := by
  unfold Dev.partChecked
  repeat' first | with_reducible exact Dev.Keeps.rfl | ((with_reducible apply Part.within_goal); exact Eq.refl true) | ((with_reducible apply Part.isIn_goal); exact Eq.refl true) | with_reducible apply Dev.Keeps.via (Dev.finish_keeps _ _) | with_reducible apply Dev.Keeps.via (Dev.takeParts_keeps _ _) | with_reducible apply Dev.Keeps.via (Dev.setPart_keeps _ _ _) | with_reducible apply Dev.Keeps.via (Dev.onUpd_keeps _ _) | with_reducible apply Dev.Keeps.via (Dev.failPart_keeps _ _) | with_reducible apply Dev.Keeps.ite | with_reducible intro _ | extract_lets | split | (dsimp +zetaDelta only; split)

theorem Dev.headStaged_keeps (d : Dev) (n : LinkId) (verified : Bool) : d.Keeps (d.headStaged n verified) [.sec, .upd, .recorder, .lnk, .rUpd, .rSec] := by
  unfold Dev.headStaged
  repeat' first | with_reducible exact Dev.Keeps.rfl | ((with_reducible apply Part.within_goal); exact Eq.refl true) | ((with_reducible apply Part.isIn_goal); exact Eq.refl true) | with_reducible apply Dev.Keeps.via (Dev.setPart_keeps _ _ _) | with_reducible apply Dev.Keeps.via (Dev.onUpd_keeps _ _) | with_reducible apply Dev.Keeps.via (Dev.takeParts_keeps _ _) | with_reducible apply Dev.Keeps.via (Dev.failPart_keeps _ _) | with_reducible apply Dev.Keeps.via (Dev.stageOn_keeps _ _ _) | with_reducible apply Dev.Keeps.ite | with_reducible intro _ | extract_lets | split | (dsimp +zetaDelta only; split)

theorem Dev.storeUnit_keeps (d : Dev) (serial : Word) (i : Nat) (bytes : List Byte) : d.Keeps (d.storeUnit serial i bytes) [.upd] := by
  unfold Dev.storeUnit
  repeat' first | with_reducible exact Dev.Keeps.rfl | ((with_reducible apply Part.within_goal); exact Eq.refl true) | ((with_reducible apply Part.isIn_goal); exact Eq.refl true) | with_reducible apply Dev.Keeps.via (Dev.onUpd_keeps _ _) | with_reducible apply Dev.Keeps.ite | with_reducible intro _

theorem Dev.applyPiece_keeps (d : Dev) (p : Piece) (code : Nat) : d.Keeps (d.applyPiece p code) [.sec, .upd, .recorder, .lnk, .rUpd, .rSec] := by
  unfold Dev.applyPiece
  repeat' first | with_reducible exact Dev.Keeps.rfl | ((with_reducible apply Part.within_goal); exact Eq.refl true) | ((with_reducible apply Part.isIn_goal); exact Eq.refl true) | with_reducible apply Dev.Keeps.via (Dev.storeUnit_keeps _ _ _ _) | with_reducible apply Dev.Keeps.via (Dev.verifyParts_keeps _) | with_reducible apply Dev.Keeps.setReg | with_reducible apply Dev.Keeps.countField | with_reducible apply Dev.Keeps.each | with_reducible apply Dev.Keeps.ite | with_reducible intro _ | extract_lets | split | (dsimp +zetaDelta only; split)

theorem Dev.activate_keeps (d : Dev) : d.Keeps (d.activate) [.upd, .group, .out, .veh, .rVeh] := by
  unfold Dev.activate
  repeat' first | with_reducible exact Dev.Keeps.rfl | ((with_reducible apply Part.within_goal); exact Eq.refl true) | ((with_reducible apply Part.isIn_goal); exact Eq.refl true) | with_reducible apply Dev.Keeps.via (Dev.onUpd_keeps _ _) | with_reducible apply Dev.Keeps.via (Dev.startStop_keeps _ _ _ _) | with_reducible apply Dev.Keeps.via (Dev.releaseGroups_keeps _ _) | with_reducible apply Dev.Keeps.each | with_reducible apply Dev.Keeps.ite | with_reducible intro _ | extract_lets

theorem Dev.autoActivate_keeps (d : Dev) : d.Keeps (d.autoActivate) [.upd, .group, .out, .veh, .rVeh] := by
  unfold Dev.autoActivate
  repeat' first | with_reducible exact Dev.Keeps.rfl | ((with_reducible apply Part.within_goal); exact Eq.refl true) | ((with_reducible apply Part.isIn_goal); exact Eq.refl true) | with_reducible apply Dev.Keeps.via (Dev.onUpd_keeps _ _) | with_reducible apply Dev.Keeps.via (Dev.activate_keeps _) | with_reducible apply Dev.Keeps.ite | with_reducible intro _ | extract_lets | split | (dsimp +zetaDelta only; split)

theorem Dev.commandHeads_keeps (d : Dev) (ns : List LinkId) (cmd : Nat) : d.Keeps (d.commandHeads ns cmd) [.lnk] := by
  unfold Dev.commandHeads
  repeat' first | with_reducible exact Dev.Keeps.rfl | ((with_reducible apply Part.within_goal); exact Eq.refl true) | ((with_reducible apply Part.isIn_goal); exact Eq.refl true) | with_reducible apply Dev.Keeps.via (Dev.queueReq_keeps _ _ _ _ _) | with_reducible apply Dev.Keeps.each | with_reducible intro _

theorem Dev.readStaging_keeps (d : Dev) (n : LinkId) : d.Keeps (d.readStaging n) [.lnk] := by
  unfold Dev.readStaging
  repeat' first | with_reducible exact Dev.Keeps.rfl | ((with_reducible apply Part.within_goal); exact Eq.refl true) | ((with_reducible apply Part.isIn_goal); exact Eq.refl true) | with_reducible apply Dev.Keeps.via (Dev.queueReq_keeps _ _ _ _ _)

theorem Dev.armHeads_keeps (d : Dev) : d.Keeps (d.armHeads) [.upd, .lnk] := by
  unfold Dev.armHeads
  repeat' first | with_reducible exact Dev.Keeps.rfl | ((with_reducible apply Part.within_goal); exact Eq.refl true) | ((with_reducible apply Part.isIn_goal); exact Eq.refl true) | with_reducible apply Dev.Keeps.via (Dev.onUpd_keeps _ _) | with_reducible apply Dev.Keeps.via (Dev.readStaging_keeps _ _) | with_reducible apply Dev.Keeps.each | with_reducible intro _ | extract_lets

theorem Dev.writeArm_keeps (d : Dev) (n : LinkId) (again : Bool) : d.Keeps (d.writeArm n again) [.lnk] := by
  unfold Dev.writeArm
  repeat' first | with_reducible exact Dev.Keeps.rfl | ((with_reducible apply Part.within_goal); exact Eq.refl true) | ((with_reducible apply Part.isIn_goal); exact Eq.refl true) | with_reducible apply Dev.Keeps.via (Dev.queueReq_keeps _ _ _ _ _)

theorem Dev.armFails_keeps (d : Dev) : d.Keeps (d.armFails) [.upd] := by
  unfold Dev.armFails
  repeat' first | with_reducible exact Dev.Keeps.rfl | ((with_reducible apply Part.within_goal); exact Eq.refl true) | ((with_reducible apply Part.isIn_goal); exact Eq.refl true) | with_reducible apply Dev.Keeps.via (Dev.onUpd_keeps _ _)

theorem Dev.stagingRead_keeps (d : Dev) (n : LinkId) (data : Word) : d.Keeps (d.stagingRead n data) [.upd, .lnk] := by
  unfold Dev.stagingRead
  repeat' first | with_reducible exact Dev.Keeps.rfl | ((with_reducible apply Part.within_goal); exact Eq.refl true) | ((with_reducible apply Part.isIn_goal); exact Eq.refl true) | with_reducible apply Dev.Keeps.via (Dev.onLnk_keeps _ _ _) | with_reducible apply Dev.Keeps.via (Dev.writeArm_keeps _ _ _) | with_reducible apply Dev.Keeps.via (Dev.armFails_keeps _) | with_reducible apply Dev.Keeps.ite | with_reducible intro _ | extract_lets

theorem Dev.abandonActivation_keeps (d : Dev) : d.Keeps (d.abandonActivation) [.upd, .recorder, .lnk, .rUpd] := by
  unfold Dev.abandonActivation
  repeat' first | with_reducible exact Dev.Keeps.rfl | ((with_reducible apply Part.within_goal); exact Eq.refl true) | ((with_reducible apply Part.isIn_goal); exact Eq.refl true) | with_reducible apply Dev.Keeps.via (Dev.onUpd_keeps _ _) | with_reducible apply Dev.Keeps.via (Dev.commandHeads_keeps _ _ _) | with_reducible apply Dev.Keeps.raise | with_reducible apply Dev.Keeps.ite | with_reducible intro _

theorem Dev.stopFrames_keeps (d : Dev) : d.Keeps (d.stopFrames) [.lnk] := by
  unfold Dev.stopFrames
  repeat' first | with_reducible exact Dev.Keeps.rfl | ((with_reducible apply Part.within_goal); exact Eq.refl true) | ((with_reducible apply Part.isIn_goal); exact Eq.refl true) | with_reducible apply Dev.Keeps.via (Dev.onLnk_keeps _ _ _) | with_reducible apply Dev.Keeps.each | with_reducible intro _

theorem Dev.swapped_keeps (d : Dev) : d.Keeps (d.swapped) (.power :: .alloc :: .prot :: .cfg :: .upd :: .recorder :: .mem :: .lnk :: .cmd :: .group :: .out :: .con :: .veh :: .lprot :: Part.registers) := by
  unfold Dev.swapped
  repeat' first | with_reducible exact Dev.Keeps.rfl | ((with_reducible apply Part.within_goal); exact Eq.refl true) | ((with_reducible apply Part.isIn_goal); first | exact Eq.refl true | with_reducible apply contains_regPart) | with_reducible apply Dev.Keeps.via (Dev.onUpd_keeps _ _) | with_reducible apply Dev.Keeps.via (Dev.armBoot_keeps _) | with_reducible apply Dev.Keeps.via (Dev.onCfg_keeps _ _) | extract_lets | split | (dsimp +zetaDelta only; split)

theorem Dev.endRetreat_keeps (d : Dev) : d.Keeps (d.endRetreat) [.upd, .recorder, .lnk, .rUpd] := by
  unfold Dev.endRetreat
  repeat' first | with_reducible exact Dev.Keeps.rfl | ((with_reducible apply Part.within_goal); exact Eq.refl true) | ((with_reducible apply Part.isIn_goal); exact Eq.refl true) | with_reducible apply Dev.Keeps.via (Dev.endUpdate_keeps _ _) | with_reducible apply Dev.Keeps.via (Dev.commandHeads_keeps _ _ _) | with_reducible apply Dev.Keeps.raise

theorem Dev.resumeParts_keeps (d : Dev) : d.Keeps (d.resumeParts) [.sec, .upd, .recorder, .lnk, .rUpd, .rSec] := by
  unfold Dev.resumeParts
  repeat' first | with_reducible exact Dev.Keeps.rfl | ((with_reducible apply Part.within_goal); exact Eq.refl true) | ((with_reducible apply Part.isIn_goal); exact Eq.refl true) | with_reducible apply Dev.Keeps.via (Dev.takeParts_keeps _ _) | with_reducible apply Dev.Keeps.via (Dev.setPart_keeps _ _ _) | with_reducible apply Dev.Keeps.each | with_reducible apply Dev.Keeps.ite | with_reducible intro _

theorem Dev.updateAtRun_keeps (d : Dev) : d.Keeps (d.updateAtRun) [.sec, .upd, .recorder, .lnk, .rUpd, .rSec] := by
  unfold Dev.updateAtRun
  repeat' first | with_reducible exact Dev.Keeps.rfl | ((with_reducible apply Part.within_goal); exact Eq.refl true) | ((with_reducible apply Part.isIn_goal); exact Eq.refl true) | with_reducible apply Dev.Keeps.via (Dev.onUpd_keeps _ _) | with_reducible apply Dev.Keeps.via (Dev.endRetreat_keeps _) | with_reducible apply Dev.Keeps.via (Dev.resumeParts_keeps _) | with_reducible apply Dev.Keeps.setReg | split | (dsimp +zetaDelta only; split)

theorem Dev.countWindow_keeps (d : Dev) : d.Keeps (d.countWindow) [.rUpd] := by
  unfold Dev.countWindow
  repeat' first | with_reducible exact Dev.Keeps.rfl | ((with_reducible apply Part.within_goal); exact Eq.refl true) | ((with_reducible apply Part.isIn_goal); exact Eq.refl true) | with_reducible apply Dev.Keeps.setReg | with_reducible apply Dev.Keeps.ite | with_reducible intro _

theorem Dev.confirm_keeps (d : Dev) : d.Keeps (d.confirm) [.upd, .recorder, .lnk, .rUpd] := by
  unfold Dev.confirm
  repeat' first | with_reducible exact Dev.Keeps.rfl | ((with_reducible apply Part.within_goal); exact Eq.refl true) | ((with_reducible apply Part.isIn_goal); exact Eq.refl true) | with_reducible apply Dev.Keeps.via (Dev.endUpdate_keeps _ _) | with_reducible apply Dev.Keeps.via (Dev.onUpd_keeps _ _) | with_reducible apply Dev.Keeps.via (Dev.commandHeads_keeps _ _ _) | with_reducible apply Dev.Keeps.raise | extract_lets

theorem Dev.setRates_keeps (d : Dev) : d.Keeps (d.setRates) [.met] := by
  unfold Dev.setRates
  repeat' first | with_reducible exact Dev.Keeps.rfl | ((with_reducible apply Part.within_goal); exact Eq.refl true) | ((with_reducible apply Part.isIn_goal); exact Eq.refl true) | with_reducible apply Dev.Keeps.via (Dev.onMet_keeps _ _ _) | with_reducible apply Dev.Keeps.each | with_reducible apply Dev.Keeps.ite | with_reducible intro _ | extract_lets

theorem Dev.sendPmb_keeps (d : Dev) (op : PmbOp) : d.Keeps (d.sendPmb op) [.power] := by
  unfold Dev.sendPmb
  repeat' first | with_reducible exact Dev.Keeps.rfl | ((with_reducible apply Part.within_goal); exact Eq.refl true) | ((with_reducible apply Part.isIn_goal); exact Eq.refl true) | with_reducible apply Dev.Keeps.via (Dev.onPower_keeps _ _) | with_reducible apply Dev.Keeps.ite | with_reducible intro _

theorem Dev.sendVout_keeps (d : Dev) (mv : Nat) : d.Keeps (d.sendVout mv) [.power, .recorder, .rPwr] := by
  unfold Dev.sendVout
  repeat' first | with_reducible exact Dev.Keeps.rfl | ((with_reducible apply Part.within_goal); exact Eq.refl true) | ((with_reducible apply Part.isIn_goal); exact Eq.refl true) | with_reducible apply Dev.Keeps.via (Dev.onPower_keeps _ _) | with_reducible apply Dev.Keeps.via (Dev.sendPmb_keeps _ _) | with_reducible apply Dev.Keeps.setReg | with_reducible apply Dev.Keeps.raise | with_reducible apply Dev.Keeps.ite | with_reducible intro _

theorem Dev.govern_keeps (d : Dev) : d.Keeps (d.govern) [.power, .recorder, .rPwr] := by
  unfold Dev.govern
  repeat' first | with_reducible exact Dev.Keeps.rfl | ((with_reducible apply Part.within_goal); exact Eq.refl true) | ((with_reducible apply Part.isIn_goal); exact Eq.refl true) | with_reducible apply Dev.Keeps.via (Dev.onPower_keeps _ _) | with_reducible apply Dev.Keeps.via (Dev.sendVout_keeps _ _) | with_reducible apply Dev.Keeps.ite | with_reducible intro _ | extract_lets

theorem Dev.overrun_keeps (d : Dev) (arg : Word) : d.Keeps (d.overrun arg) (.pacer :: .rPac :: .rPwr :: Part.trip) := by
  unfold Dev.overrun
  repeat' first | with_reducible exact Dev.Keeps.rfl | ((with_reducible apply Part.within_goal); exact Eq.refl true) | ((with_reducible apply Part.isIn_goal); exact Eq.refl true) | with_reducible apply Dev.Keeps.via (Dev.deviceCause_keeps _ _ _ _ _ _) | with_reducible apply Dev.Keeps.via (Dev.onPacer_keeps _ _) | with_reducible apply Dev.Keeps.via (Dev.sendVout_keeps _ _) | with_reducible apply Dev.Keeps.raiseAlways | with_reducible apply Dev.Keeps.count | with_reducible apply Dev.Keeps.ite | with_reducible intro _ | extract_lets

theorem Dev.braceUp_keeps (d : Dev) : d.Keeps (d.braceUp) [.power, .alloc, .disp] := by
  unfold Dev.braceUp
  repeat' first | with_reducible exact Dev.Keeps.rfl | ((with_reducible apply Part.within_goal); exact Eq.refl true) | ((with_reducible apply Part.isIn_goal); exact Eq.refl true) | with_reducible apply Dev.Keeps.via (Dev.onAlloc_keeps _ _) | with_reducible apply Dev.Keeps.via (Dev.onDisp_keeps _ _) | with_reducible apply Dev.Keeps.via (Dev.onPower_keeps _ _) | with_reducible apply Dev.Keeps.ite | with_reducible intro _ | extract_lets

theorem Dev.unbrace_keeps (d : Dev) : d.Keeps (d.unbrace) (.alloc :: .prot :: .upd :: .out :: .veh :: .rPwr :: .rLio :: .rVeh :: Part.lap) := by
  unfold Dev.unbrace
  repeat' first | with_reducible exact Dev.Keeps.rfl | ((with_reducible apply Part.within_goal); exact Eq.refl true) | ((with_reducible apply Part.isIn_goal); exact Eq.refl true) | with_reducible apply Dev.Keeps.via (Dev.dropSeg_keeps _ _) | with_reducible apply Dev.Keeps.via (Dev.onAlloc_keeps _ _) | with_reducible apply Dev.Keeps.via (Dev.onUpd_keeps _ _) | with_reducible apply Dev.Keeps.via (Dev.onPacer_keeps _ _) | with_reducible apply Dev.Keeps.via (Dev.onPower_keeps _ _) | with_reducible apply Dev.Keeps.via (Dev.startSession_keeps _ _ _) | with_reducible apply Dev.Keeps.raise | with_reducible apply Dev.Keeps.raiseIf | with_reducible apply Dev.Keeps.each | with_reducible apply Dev.Keeps.ite | with_reducible intro _ | extract_lets | split | (dsimp +zetaDelta only; split)

theorem Dev.refuseMode_keeps (d : Dev) (why : ModeRefusal) : d.Keeps (d.refuseMode why) [.power, .recorder, .rPwr] := by
  unfold Dev.refuseMode
  repeat' first | with_reducible exact Dev.Keeps.rfl | ((with_reducible apply Part.within_goal); exact Eq.refl true) | ((with_reducible apply Part.isIn_goal); exact Eq.refl true) | with_reducible apply Dev.Keeps.via (Dev.onPower_keeps _ _) | with_reducible apply Dev.Keeps.raise

theorem Dev.closeForDormant_keeps (d : Dev) : d.Keeps (d.closeForDormant) Part.lap := by
  unfold Dev.closeForDormant
  repeat' first | with_reducible exact Dev.Keeps.rfl | ((with_reducible apply Part.within_goal); exact Eq.refl true) | ((with_reducible apply Part.isIn_goal); exact Eq.refl true) | with_reducible apply Dev.Keeps.via (Dev.onPacer_keeps _ _) | with_reducible apply Dev.Keeps.via (Dev.flagClosedLap_keeps _ _) | with_reducible apply Dev.Keeps.via (Dev.closeLap_keeps _ _) | with_reducible apply Dev.Keeps.ite | with_reducible intro _

theorem Dev.enterDormant_keeps (d : Dev) : d.Keeps (d.enterDormant) (.alloc :: .prot :: .disp :: .cmd :: .group :: .out :: .con :: .rAlc :: Part.lap) := by
  unfold Dev.enterDormant
  repeat' first | with_reducible exact Dev.Keeps.rfl | ((with_reducible apply Part.within_goal); exact Eq.refl true) | ((with_reducible apply Part.isIn_goal); exact Eq.refl true) | with_reducible apply Dev.Keeps.via (Dev.sendPmb_keeps _ _) | with_reducible apply Dev.Keeps.via (Dev.onDisp_keeps _ _) | with_reducible apply Dev.Keeps.via (Dev.abortAll_keeps _ _) | with_reducible apply Dev.Keeps.via (Dev.closeForDormant_keeps _) | with_reducible apply Dev.Keeps.via (Dev.freeAll_keeps _) | with_reducible apply Dev.Keeps.via (Dev.onPacer_keeps _ _) | with_reducible apply Dev.Keeps.via (Dev.onPower_keeps _ _) | with_reducible apply Dev.Keeps.via (Dev.onOut_keeps _ _ _) | with_reducible apply Dev.Keeps.each | with_reducible apply Dev.Keeps.ite | with_reducible intro _ | extract_lets

theorem Dev.enterSafeHalt_keeps (d : Dev) : d.Keeps (d.enterSafeHalt) [.power, .tenants, .alloc, .prot, .upd, .recorder, .mem, .lnk, .cmd, .lbill, .group, .out, .con, .rUpd, .rAlc, .rBil] := by
  unfold Dev.enterSafeHalt
  repeat' first | with_reducible exact Dev.Keeps.rfl | ((with_reducible apply Part.within_goal); exact Eq.refl true) | ((with_reducible apply Part.isIn_goal); exact Eq.refl true) | with_reducible apply Dev.Keeps.via (Dev.lastWord_keeps _ _ _) | with_reducible apply Dev.Keeps.via (Dev.settleSegments_keeps _) | with_reducible apply Dev.Keeps.via (Dev.haltAllocation_keeps _) | with_reducible apply Dev.Keeps.via (Dev.abandonActivation_keeps _) | with_reducible apply Dev.Keeps.via (Dev.onPower_keeps _ _) | with_reducible apply Dev.Keeps.ite | with_reducible intro _ | extract_lets

theorem Dev.leaveSafeHalt_keeps (d : Dev) : d.Keeps (d.leaveSafeHalt) [.pacer, .power, .bill, .sec, .upd, .recorder, .lnk, .met, .lbill, .group, .rPac, .rUpd, .rSec] := by
  unfold Dev.leaveSafeHalt
  repeat' first | with_reducible exact Dev.Keeps.rfl | ((with_reducible apply Part.within_goal); exact Eq.refl true) | ((with_reducible apply Part.isIn_goal); exact Eq.refl true) | with_reducible apply Dev.Keeps.via (Dev.onPower_keeps _ _) | with_reducible apply Dev.Keeps.via (Dev.updateAtRun_keeps _) | with_reducible apply Dev.Keeps.via (Dev.freeAll_keeps _) | with_reducible apply Dev.Keeps.via (Dev.beginLap_keeps _) | with_reducible apply Dev.Keeps.ite | with_reducible intro _ | extract_lets

theorem Dev.enterActivation_keeps (d : Dev) : d.Keeps (d.enterActivation) (.pacer :: .power :: .tenants :: .bill :: .alloc :: .prot :: .cfg :: .recorder :: .archive :: .cmd :: .met :: .lbill :: .group :: .out :: .con :: .veh :: Part.registers) := by
  unfold Dev.enterActivation
  repeat' first | with_reducible exact Dev.Keeps.rfl | ((with_reducible apply Part.within_goal); exact Eq.refl true) | ((with_reducible apply Part.isIn_goal); first | exact Eq.refl true | with_reducible apply contains_regPart) | with_reducible apply Dev.Keeps.via (Dev.onPacer_keeps _ _) | with_reducible apply Dev.Keeps.via (Dev.closeLap_keeps _ _) | with_reducible apply Dev.Keeps.via (Dev.haltAllocation_keeps _) | with_reducible apply Dev.Keeps.via (Dev.onPower_keeps _ _) | with_reducible apply Dev.Keeps.via (Dev.endHolds_keeps _) | with_reducible apply Dev.Keeps.ite | with_reducible intro _ | extract_lets

theorem Dev.enterMaintenance_keeps (d : Dev) : d.Keeps (d.enterMaintenance) [.power, .bill, .met] := by
  unfold Dev.enterMaintenance
  repeat' first | with_reducible exact Dev.Keeps.rfl | ((with_reducible apply Part.within_goal); exact Eq.refl true) | ((with_reducible apply Part.isIn_goal); exact Eq.refl true) | with_reducible apply Dev.Keeps.via (Dev.onBilling_keeps _ _) | with_reducible apply Dev.Keeps.via (Dev.onPower_keeps _ _) | with_reducible apply Dev.Keeps.via (Dev.onMet_keeps _ _ _) | with_reducible apply Dev.Keeps.each | with_reducible intro _

theorem Dev.leaveMaintenance_keeps (d : Dev) : d.Keeps (d.leaveMaintenance) [.power, .bill] := by
  unfold Dev.leaveMaintenance
  repeat' first | with_reducible exact Dev.Keeps.rfl | ((with_reducible apply Part.within_goal); exact Eq.refl true) | ((with_reducible apply Part.isIn_goal); exact Eq.refl true) | with_reducible apply Dev.Keeps.via (Dev.onBilling_keeps _ _) | with_reducible apply Dev.Keeps.via (Dev.onPower_keeps _ _)

theorem Dev.applyTrigger_keeps (d : Dev) (t : ModeTrigger) : d.Keeps (d.applyTrigger t) (.pacer :: .power :: .tenants :: .bill :: .alloc :: .prot :: .disp :: .cfg :: .recorder :: .archive :: .cmd :: .met :: .lbill :: .group :: .out :: .con :: .veh :: Part.registers) := by
  unfold Dev.applyTrigger
  repeat' first | with_reducible exact Dev.Keeps.rfl | ((with_reducible apply Part.within_goal); exact Eq.refl true) | ((with_reducible apply Part.isIn_goal); first | exact Eq.refl true | with_reducible apply contains_regPart) | with_reducible apply Dev.Keeps.via (Dev.onPower_keeps _ _) | with_reducible apply Dev.Keeps.via (Dev.enterActivation_keeps _) | with_reducible apply Dev.Keeps.via (Dev.enterDormant_keeps _) | with_reducible apply Dev.Keeps.via (Dev.refuseMode_keeps _ _) | with_reducible apply Dev.Keeps.ite | with_reducible intro _ | split | (dsimp +zetaDelta only; split)

theorem Dev.boundaryTransition_keeps (d : Dev) : d.Keeps (d.boundaryTransition) [.power, .bill, .recorder, .met, .rPwr] := by
  unfold Dev.boundaryTransition
  repeat' first | with_reducible exact Dev.Keeps.rfl | ((with_reducible apply Part.within_goal); exact Eq.refl true) | ((with_reducible apply Part.isIn_goal); exact Eq.refl true) | with_reducible apply Dev.Keeps.via (Dev.onPower_keeps _ _) | with_reducible apply Dev.Keeps.via (Dev.enterMaintenance_keeps _) | with_reducible apply Dev.Keeps.via (Dev.refuseMode_keeps _ _) | with_reducible apply Dev.Keeps.via (Dev.leaveMaintenance_keeps _) | with_reducible apply Dev.Keeps.ite | with_reducible intro _ | extract_lets | split | (dsimp +zetaDelta only; split)

theorem Dev.resolveModes_keeps (d : Dev) : d.Keeps (d.resolveModes) (.pacer :: .power :: .tenants :: .bill :: .alloc :: .prot :: .sec :: .disp :: .cfg :: .upd :: .recorder :: .mem :: .archive :: .lnk :: .cmd :: .met :: .lbill :: .group :: .out :: .con :: .veh :: Part.registers) := by
  unfold Dev.resolveModes
  repeat' first | with_reducible exact Dev.Keeps.rfl | ((with_reducible apply Part.within_goal); exact Eq.refl true) | ((with_reducible apply Part.isIn_goal); first | exact Eq.refl true | with_reducible apply contains_regPart) | with_reducible apply Dev.Keeps.via (Dev.refuseMode_keeps _ _) | with_reducible apply Dev.Keeps.via (Dev.onPower_keeps _ _) | with_reducible apply Dev.Keeps.via (Dev.enterSafeHalt_keeps _) | with_reducible apply Dev.Keeps.via (Dev.boundaryTransition_keeps _) | with_reducible apply Dev.Keeps.via (Dev.applyTrigger_keeps _ _) | with_reducible apply Dev.Keeps.via (Dev.leaveSafeHalt_keeps _) | with_reducible apply Dev.Keeps.ite | with_reducible intro _ | extract_lets | split | (dsimp +zetaDelta only; split)

theorem Dev.economyExit_keeps (d : Dev) : d.Keeps (d.economyExit) [.power] := by
  unfold Dev.economyExit
  repeat' first | with_reducible exact Dev.Keeps.rfl | ((with_reducible apply Part.within_goal); exact Eq.refl true) | ((with_reducible apply Part.isIn_goal); exact Eq.refl true) | with_reducible apply Dev.Keeps.via (Dev.trigger_keeps _ _) | with_reducible apply Dev.Keeps.ite | with_reducible intro _

theorem Dev.countEco_keeps (d : Dev) : d.Keeps (d.countEco) [.power] := by
  unfold Dev.countEco
  repeat' first | with_reducible exact Dev.Keeps.rfl | ((with_reducible apply Part.within_goal); exact Eq.refl true) | ((with_reducible apply Part.isIn_goal); exact Eq.refl true) | with_reducible apply Dev.Keeps.via (Dev.onPower_keeps _ _) | extract_lets

theorem Dev.requestMode_keeps (d : Dev) (why : ModeRefusal) (t : ModeTrigger) : d.Keeps (d.requestMode why t) [.power, .recorder, .rPwr] := by
  unfold Dev.requestMode
  repeat' first | with_reducible exact Dev.Keeps.rfl | ((with_reducible apply Part.within_goal); exact Eq.refl true) | ((with_reducible apply Part.isIn_goal); exact Eq.refl true) | with_reducible apply Dev.Keeps.via (Dev.trigger_keeps _ _) | with_reducible apply Dev.Keeps.via (Dev.refuseMode_keeps _ _) | with_reducible apply Dev.Keeps.ite | with_reducible intro _

theorem Dev.modeRequest_keeps (d : Dev) (code : Nat) : d.Keeps (d.modeRequest code) (.rPwr :: Part.trip) := by
  unfold Dev.modeRequest
  repeat' first | with_reducible exact Dev.Keeps.rfl | ((with_reducible apply Part.within_goal); exact Eq.refl true) | ((with_reducible apply Part.isIn_goal); exact Eq.refl true) | with_reducible apply Dev.Keeps.via (Dev.requestMode_keeps _ _ _) | with_reducible apply Dev.Keeps.via (Dev.refuseMode_keeps _ _) | with_reducible apply Dev.Keeps.via (Dev.deviceCause_keeps _ _ _ _ _ _) | with_reducible apply Dev.Keeps.ite | with_reducible intro _ | extract_lets | split | (dsimp +zetaDelta only; split)

theorem Dev.bringupFails_keeps (d : Dev) (f : BringupFault) (word : Option Nat) : d.Keeps (d.bringupFails f word) [.power, .recorder, .mem, .rPwr] := by
  unfold Dev.bringupFails
  repeat' first | with_reducible exact Dev.Keeps.rfl | ((with_reducible apply Part.within_goal); exact Eq.refl true) | ((with_reducible apply Part.isIn_goal); exact Eq.refl true) | with_reducible apply Dev.Keeps.via (Dev.onPower_keeps _ _) | with_reducible apply Dev.Keeps.via (Dev.lastWord_keeps _ _ _) | with_reducible apply Dev.Keeps.raise | extract_lets | split | (dsimp +zetaDelta only; split)

theorem Dev.recordHeld_keeps (d : Dev) : d.Keeps (d.recordHeld) [.recorder, .rEvr] := by
  unfold Dev.recordHeld
  repeat' first | with_reducible exact Dev.Keeps.rfl | ((with_reducible apply Part.within_goal); exact Eq.refl true) | ((with_reducible apply Part.isIn_goal); exact Eq.refl true) | with_reducible apply Dev.Keeps.via (Dev.onRec_keeps _ _) | with_reducible apply Dev.Keeps.count | with_reducible apply Dev.Keeps.ite | with_reducible intro _ | extract_lets

theorem Dev.takeBases_keeps (d : Dev) : d.Keeps (d.takeBases) [.keys] := by
  unfold Dev.takeBases
  repeat' first | with_reducible exact Dev.Keeps.rfl | ((with_reducible apply Part.within_goal); exact Eq.refl true) | ((with_reducible apply Part.isIn_goal); exact Eq.refl true) | with_reducible apply Dev.Keeps.via (Dev.onKey_keeps _ _ _) | with_reducible apply Dev.Keeps.each | with_reducible intro _

theorem Dev.startingBlock_keeps (d : Dev) : d.Keeps (d.startingBlock) (.power :: .tenants :: .prot :: .sec :: .disp :: .scroll :: .keys :: .cfg :: .upd :: .recorder :: .mem :: .lnk :: Part.registers) := by
  unfold Dev.startingBlock
  repeat' first | with_reducible exact Dev.Keeps.rfl | ((with_reducible apply Part.within_goal); exact Eq.refl true) | ((with_reducible apply Part.isIn_goal); first | exact Eq.refl true | with_reducible apply contains_regPart) | with_reducible apply Dev.Keeps.via (Dev.onProtection_keeps _ _) | with_reducible apply Dev.Keeps.via (Dev.onPower_keeps _ _) | with_reducible apply Dev.Keeps.via (Dev.takeBases_keeps _) | with_reducible apply Dev.Keeps.via (Dev.loadImage_keeps _) | with_reducible apply Dev.Keeps.via (Dev.tpoCheck_keeps _) | with_reducible apply Dev.Keeps.via (Dev.openConnections_keeps _) | with_reducible apply Dev.Keeps.via (Dev.resumeParts_keeps _) | with_reducible apply Dev.Keeps.via (Dev.bringupFails_keeps _ _ _) | with_reducible apply Dev.Keeps.via (Dev.onScroll_keeps _ _) | with_reducible apply Dev.Keeps.via (Dev.onDisp_keeps _ _) | with_reducible apply Dev.Keeps.via (Dev.sendPmb_keeps _ _) | with_reducible apply Dev.Keeps.via (Dev.recordHeld_keeps _) | with_reducible apply Dev.Keeps.ite | with_reducible intro _ | extract_lets

theorem Dev.remask_keeps (d : Dev) : d.Keeps (d.remask) [.sec, .recorder, .fresh, .rSec] := by
  unfold Dev.remask
  repeat' first | with_reducible exact Dev.Keeps.rfl | ((with_reducible apply Part.within_goal); exact Eq.refl true) | ((with_reducible apply Part.isIn_goal); exact Eq.refl true) | with_reducible apply Dev.Keeps.via (Dev.onSec_keeps _ _) | with_reducible apply Dev.Keeps.via (Dev.randomDrawn_keeps _) | with_reducible apply Dev.Keeps.raise | with_reducible apply Dev.Keeps.ite | with_reducible intro _

theorem Dev.closeInterrupted_keeps (d : Dev) : d.Keeps (d.closeInterrupted) Part.lap := by
  unfold Dev.closeInterrupted
  repeat' first | with_reducible exact Dev.Keeps.rfl | ((with_reducible apply Part.within_goal); exact Eq.refl true) | ((with_reducible apply Part.isIn_goal); exact Eq.refl true) | with_reducible apply Dev.Keeps.via (Dev.onPacer_keeps _ _) | with_reducible apply Dev.Keeps.via (Dev.closeSession_keeps _ _ _) | with_reducible apply Dev.Keeps.via (Dev.closeLap_keeps _ _) | with_reducible apply Dev.Keeps.via (Dev.onPower_keeps _ _) | with_reducible apply Dev.Keeps.each | with_reducible apply Dev.Keeps.ite | with_reducible intro _ | extract_lets

theorem Dev.holdVersions_keeps (d : Dev) : d.Keeps (d.holdVersions) [.alloc, .prot, .recorder, .lnk, .cmd, .group, .out, .con, .veh, .rAlc, .rLnk, .rVeh] := by
  unfold Dev.holdVersions
  repeat' first | with_reducible exact Dev.Keeps.rfl | ((with_reducible apply Part.within_goal); exact Eq.refl true) | ((with_reducible apply Part.isIn_goal); first | exact Eq.refl true | exact contains_of (regPart_lnkEvents (Nat.lt_of_lt_of_le (Fin.isLt _) (by decide))) (Eq.refl true)) | with_reducible apply Dev.Keeps.via (Dev.holdLink_keeps _ _ _) | with_reducible apply Dev.Keeps.raise | with_reducible apply Dev.Keeps.each | with_reducible apply Dev.Keeps.ite | with_reducible intro _

theorem Dev.enterRun_keeps (d : Dev) : d.Keeps (d.enterRun) (.alloc :: .prot :: .sec :: .upd :: .mem :: .fresh :: .lnk :: .cmd :: .group :: .out :: .con :: .veh :: .rPwr :: .rUpd :: .rSec :: .rMem :: .rAlc :: .rLnk :: .rVeh :: Part.lap) := by
  unfold Dev.enterRun
  repeat' first | with_reducible exact Dev.Keeps.rfl | ((with_reducible apply Part.within_goal); exact Eq.refl true) | ((with_reducible apply Part.isIn_goal); exact Eq.refl true) | with_reducible apply Dev.Keeps.via (Dev.remask_keeps _) | with_reducible apply Dev.Keeps.via (Dev.startSigning_keeps _) | with_reducible apply Dev.Keeps.via (Dev.closeInterrupted_keeps _) | with_reducible apply Dev.Keeps.via (Dev.onPower_keeps _ _) | with_reducible apply Dev.Keeps.via (Dev.holdVersions_keeps _) | with_reducible apply Dev.Keeps.via (Dev.setBudget_keeps _) | with_reducible apply Dev.Keeps.via (Dev.updateAtRun_keeps _) | with_reducible apply Dev.Keeps.via (Dev.freeAll_keeps _) | with_reducible apply Dev.Keeps.via (Dev.beginLap_keeps _) | with_reducible apply Dev.Keeps.setReg | with_reducible apply Dev.Keeps.ite | with_reducible intro _ | extract_lets

theorem Dev.calendarSecond_keeps (d : Dev) : d.Keeps (d.calendarSecond) [.pacer] := by
  unfold Dev.calendarSecond
  repeat' first | with_reducible exact Dev.Keeps.rfl | ((with_reducible apply Part.within_goal); exact Eq.refl true) | ((with_reducible apply Part.isIn_goal); exact Eq.refl true) | with_reducible apply Dev.Keeps.via (Dev.onPacer_keeps _ _) | with_reducible apply Dev.Keeps.ite | with_reducible intro _

theorem Dev.paceLoss_keeps (d : Dev) : d.Keeps (d.paceLoss) (.pacer :: .rPac :: Part.trip) := by
  unfold Dev.paceLoss
  repeat' first | with_reducible exact Dev.Keeps.rfl | ((with_reducible apply Part.within_goal); exact Eq.refl true) | ((with_reducible apply Part.isIn_goal); exact Eq.refl true) | with_reducible apply Dev.Keeps.via (Dev.deviceCause_keeps _ _ _ _ _ _) | with_reducible apply Dev.Keeps.via (Dev.onProtection_keeps _ _) | with_reducible apply Dev.Keeps.via (Dev.onPacer_keeps _ _) | with_reducible apply Dev.Keeps.raise | with_reducible apply Dev.Keeps.ite | with_reducible intro _

theorem Dev.paceDriftCheck_keeps (d : Dev) (periods : Nat) : d.Keeps (d.paceDriftCheck periods) [.pacer, .recorder, .rPac] := by
  unfold Dev.paceDriftCheck
  repeat' first | with_reducible exact Dev.Keeps.rfl | ((with_reducible apply Part.within_goal); exact Eq.refl true) | ((with_reducible apply Part.isIn_goal); exact Eq.refl true) | with_reducible apply Dev.Keeps.via (Dev.onPacer_keeps _ _) | with_reducible apply Dev.Keeps.setReg | with_reducible apply Dev.Keeps.raiseIf | with_reducible apply Dev.Keeps.ite | with_reducible intro _ | extract_lets

theorem Dev.lapOverrun_keeps (d : Dev) (cls : WorkClass) (late : List LinkId) : d.Keeps (d.lapOverrun cls late) (.pacer :: .met :: .rPac :: .rPwr :: Part.trip) := by
  unfold Dev.lapOverrun
  repeat' first | with_reducible exact Dev.Keeps.rfl | ((with_reducible apply Part.within_goal); exact Eq.refl true) | ((with_reducible apply Part.isIn_goal); exact Eq.refl true) | with_reducible apply Dev.Keeps.via (Dev.overrun_keeps _ _) | with_reducible apply Dev.Keeps.via (Dev.onMet_keeps _ _ _) | with_reducible apply Dev.Keeps.each | with_reducible apply Dev.Keeps.ite | with_reducible intro _ | extract_lets | split | (dsimp +zetaDelta only; split)

theorem Dev.porRelease_keeps (d : Dev) (testEn paceOk loaderOk : Bool) : d.Keeps (d.porRelease testEn paceOk loaderOk) (.pacer :: .power :: .bill :: .alloc :: .prot :: .svc :: .upd :: .recorder :: .mem :: .fresh :: .lnk :: .cmd :: .lbill :: .group :: .out :: .con :: .veh :: .lprot :: Part.registers) := by
  unfold Dev.porRelease
  repeat' first | with_reducible exact Dev.Keeps.rfl | ((with_reducible apply Part.within_goal); exact Eq.refl true) | ((with_reducible apply Part.isIn_goal); first | exact Eq.refl true | with_reducible apply contains_regPart) | with_reducible apply Dev.Keeps.via (Dev.onPower_keeps _ _) | with_reducible apply Dev.Keeps.via (Dev.powerOn_keeps _ _) | with_reducible apply Dev.Keeps.via (Dev.onPacer_keeps _ _) | with_reducible apply Dev.Keeps.via (Dev.paceLoss_keeps _) | with_reducible apply Dev.Keeps.ite | with_reducible intro _ | extract_lets

theorem Dev.enterStartingBlock_keeps (d : Dev) : d.Keeps (d.enterStartingBlock) (.power :: .tenants :: .prot :: .sec :: .disp :: .scroll :: .keys :: .cfg :: .upd :: .recorder :: .mem :: .lnk :: Part.registers) := by
  unfold Dev.enterStartingBlock
  repeat' first | with_reducible exact Dev.Keeps.rfl | ((with_reducible apply Part.within_goal); exact Eq.refl true) | ((with_reducible apply Part.isIn_goal); first | exact Eq.refl true | with_reducible apply contains_regPart) | with_reducible apply Dev.Keeps.via (Dev.startingBlock_keeps _) | with_reducible apply Dev.Keeps.ite | with_reducible intro _

theorem Dev.modeRequested_keeps (d : Dev) (code : Nat) : d.Keeps (d.modeRequested code) (.rPwr :: Part.trip) := by
  unfold Dev.modeRequested
  repeat' first | with_reducible exact Dev.Keeps.rfl | ((with_reducible apply Part.within_goal); exact Eq.refl true) | ((with_reducible apply Part.isIn_goal); exact Eq.refl true) | with_reducible apply Dev.Keeps.via (Dev.modeRequest_keeps _ _) | with_reducible apply Dev.Keeps.gw | with_reducible intro _

theorem Dev.ecoDelayExpiry_keeps (d : Dev) : d.Keeps (d.ecoDelayExpiry) [.power] := by
  unfold Dev.ecoDelayExpiry
  repeat' first | with_reducible exact Dev.Keeps.rfl | ((with_reducible apply Part.within_goal); exact Eq.refl true) | ((with_reducible apply Part.isIn_goal); exact Eq.refl true) | with_reducible apply Dev.Keeps.via (Dev.trigger_keeps _ _) | with_reducible apply Dev.Keeps.ite | with_reducible intro _ | extract_lets

theorem Dev.supplyDormantEntry_keeps (d : Dev) : d.Keeps (d.supplyDormantEntry) [.power] := by
  unfold Dev.supplyDormantEntry
  repeat' first | with_reducible exact Dev.Keeps.rfl | ((with_reducible apply Part.within_goal); exact Eq.refl true) | ((with_reducible apply Part.isIn_goal); exact Eq.refl true) | with_reducible apply Dev.Keeps.via (Dev.trigger_keeps _ _) | with_reducible apply Dev.Keeps.ite | with_reducible intro _

theorem Dev.frameTaken_keeps (d : Dev) : d.Keeps (d.frameTaken) [.power] := by
  unfold Dev.frameTaken
  repeat' first | with_reducible exact Dev.Keeps.rfl | ((with_reducible apply Part.within_goal); exact Eq.refl true) | ((with_reducible apply Part.isIn_goal); exact Eq.refl true) | with_reducible apply Dev.Keeps.via (Dev.onPower_keeps _ _)

theorem Dev.wakeFrame_keeps (d : Dev) (addr : Byte) (parity : Bool) : d.Keeps (d.wakeFrame addr parity) [.power] := by
  unfold Dev.wakeFrame
  repeat' first | with_reducible exact Dev.Keeps.rfl | ((with_reducible apply Part.within_goal); exact Eq.refl true) | ((with_reducible apply Part.isIn_goal); exact Eq.refl true) | with_reducible apply Dev.Keeps.via (Dev.frameTaken_keeps _) | with_reducible apply Dev.Keeps.via (Dev.wakeCause_keeps _ _) | with_reducible apply Dev.Keeps.ite | with_reducible intro _ | extract_lets

theorem Dev.sleepNotice_keeps (d : Dev) (addr : Byte) (parity : Bool) : d.Keeps (d.sleepNotice addr parity) [.power, .recorder] := by
  unfold Dev.sleepNotice
  repeat' first | with_reducible exact Dev.Keeps.rfl | ((with_reducible apply Part.within_goal); exact Eq.refl true) | ((with_reducible apply Part.isIn_goal); exact Eq.refl true) | with_reducible apply Dev.Keeps.via (Dev.frameTaken_keeps _) | with_reducible apply Dev.Keeps.via (Dev.happen_keeps _ _ _ _) | with_reducible apply Dev.Keeps.via (Dev.onPower_keeps _ _) | with_reducible apply Dev.Keeps.ite | with_reducible intro _ | extract_lets

theorem Dev.alertFrame_keeps (d : Dev) (addr : Byte) (parity : Bool) : d.Keeps (d.alertFrame addr parity) [.power] := by
  unfold Dev.alertFrame
  repeat' first | with_reducible exact Dev.Keeps.rfl | ((with_reducible apply Part.within_goal); exact Eq.refl true) | ((with_reducible apply Part.isIn_goal); exact Eq.refl true) | with_reducible apply Dev.Keeps.via (Dev.frameTaken_keeps _) | with_reducible apply Dev.Keeps.via (Dev.wakeCause_keeps _ _) | with_reducible apply Dev.Keeps.ite | with_reducible intro _ | extract_lets

theorem Dev.pfailRelease_keeps (d : Dev) : d.Keeps (d.pfailRelease) [.power] := by
  unfold Dev.pfailRelease
  repeat' first | with_reducible exact Dev.Keeps.rfl | ((with_reducible apply Part.within_goal); exact Eq.refl true) | ((with_reducible apply Part.isIn_goal); exact Eq.refl true) | with_reducible apply Dev.Keeps.via (Dev.onPower_keeps _ _) | with_reducible apply Dev.Keeps.via (Dev.wakeCause_keeps _ _) | with_reducible apply Dev.Keeps.ite | with_reducible intro _ | extract_lets

theorem Dev.readVoutPoll_keeps (d : Dev) : d.Keeps (d.readVoutPoll) [.power] := by
  unfold Dev.readVoutPoll
  repeat' first | with_reducible exact Dev.Keeps.rfl | ((with_reducible apply Part.within_goal); exact Eq.refl true) | ((with_reducible apply Part.isIn_goal); exact Eq.refl true) | with_reducible apply Dev.Keeps.via (Dev.onPower_keeps _ _) | with_reducible apply Dev.Keeps.via (Dev.sendPmb_keeps _ _) | with_reducible apply Dev.Keeps.ite | with_reducible intro _ | extract_lets

theorem Dev.nextPmb_keeps (d : Dev) : d.Keeps (d.nextPmb) [.power] := by
  unfold Dev.nextPmb
  repeat' first | with_reducible exact Dev.Keeps.rfl | ((with_reducible apply Part.within_goal); exact Eq.refl true) | ((with_reducible apply Part.isIn_goal); exact Eq.refl true) | with_reducible apply Dev.Keeps.via (Dev.onPower_keeps _ _) | split | (dsimp +zetaDelta only; split)

theorem Dev.pmbFailed_keeps (d : Dev) : d.Keeps (d.pmbFailed) [.power, .recorder, .rPwr] := by
  unfold Dev.pmbFailed
  repeat' first | with_reducible exact Dev.Keeps.rfl | ((with_reducible apply Part.within_goal); exact Eq.refl true) | ((with_reducible apply Part.isIn_goal); exact Eq.refl true) | with_reducible apply Dev.Keeps.via (Dev.onPower_keeps _ _) | with_reducible apply Dev.Keeps.raise | with_reducible apply Dev.Keeps.raiseIf | with_reducible apply Dev.Keeps.ite | with_reducible intro _

theorem Dev.voutRead_keeps (d : Dev) (w : BitVec 16) : d.Keeps (d.voutRead w) [.power, .recorder, .rPwr] := by
  unfold Dev.voutRead
  repeat' first | with_reducible exact Dev.Keeps.rfl | ((with_reducible apply Part.within_goal); exact Eq.refl true) | ((with_reducible apply Part.isIn_goal); exact Eq.refl true) | with_reducible apply Dev.Keeps.via (Dev.onPower_keeps _ _) | with_reducible apply Dev.Keeps.via (Dev.nextPmb_keeps _) | with_reducible apply Dev.Keeps.via (Dev.pmbFailed_keeps _) | with_reducible apply Dev.Keeps.setReg | with_reducible apply Dev.Keeps.ite | with_reducible intro _ | extract_lets

theorem Dev.pmbusDone_keeps (d : Dev) (res : PmbResult) : d.Keeps (d.pmbusDone res) [.power, .recorder, .rPwr] := by
  unfold Dev.pmbusDone
  repeat' first | with_reducible exact Dev.Keeps.rfl | ((with_reducible apply Part.within_goal); exact Eq.refl true) | ((with_reducible apply Part.isIn_goal); exact Eq.refl true) | with_reducible apply Dev.Keeps.via (Dev.onPower_keeps _ _) | with_reducible apply Dev.Keeps.via (Dev.voutRead_keeps _ _) | with_reducible apply Dev.Keeps.via (Dev.nextPmb_keeps _) | with_reducible apply Dev.Keeps.via (Dev.pmbFailed_keeps _) | with_reducible apply Dev.Keeps.via (Dev.sendPmb_keeps _ _) | with_reducible apply Dev.Keeps.via (Dev.happen_keeps _ _ _ _) | with_reducible apply Dev.Keeps.ite | with_reducible intro _ | extract_lets | split | (dsimp +zetaDelta only; split)

theorem Dev.pmbusRetry_keeps (d : Dev) : d.Keeps (d.pmbusRetry) [.power] := by
  unfold Dev.pmbusRetry
  repeat' first | with_reducible exact Dev.Keeps.rfl | ((with_reducible apply Part.within_goal); exact Eq.refl true) | ((with_reducible apply Part.isIn_goal); exact Eq.refl true) | with_reducible apply Dev.Keeps.via (Dev.onPower_keeps _ _) | with_reducible apply Dev.Keeps.ite | with_reducible intro _

theorem Dev.pmbusRecoveryRetry_keeps (d : Dev) : d.Keeps (d.pmbusRecoveryRetry) [.power] := by
  unfold Dev.pmbusRecoveryRetry
  repeat' first | with_reducible exact Dev.Keeps.rfl | ((with_reducible apply Part.within_goal); exact Eq.refl true) | ((with_reducible apply Part.isIn_goal); exact Eq.refl true) | with_reducible apply Dev.Keeps.via (Dev.onPower_keeps _ _) | with_reducible apply Dev.Keeps.ite | with_reducible intro _

theorem Dev.tempoLower_keeps (d : Dev) : d.Keeps (d.tempoLower) [.power, .recorder, .rPwr] := by
  unfold Dev.tempoLower
  repeat' first | with_reducible exact Dev.Keeps.rfl | ((with_reducible apply Part.within_goal); exact Eq.refl true) | ((with_reducible apply Part.isIn_goal); exact Eq.refl true) | with_reducible apply Dev.Keeps.via (Dev.onPower_keeps _ _) | with_reducible apply Dev.Keeps.via (Dev.sendVout_keeps _ _) | extract_lets | split | (dsimp +zetaDelta only; split)

theorem Dev.pmbAlert_keeps (d : Dev) : d.Keeps (d.pmbAlert) [.power] := by
  unfold Dev.pmbAlert
  repeat' first | with_reducible exact Dev.Keeps.rfl | ((with_reducible apply Part.within_goal); exact Eq.refl true) | ((with_reducible apply Part.isIn_goal); exact Eq.refl true) | with_reducible apply Dev.Keeps.via (Dev.sendPmb_keeps _ _) | with_reducible apply Dev.Keeps.via (Dev.onPower_keeps _ _) | with_reducible apply Dev.Keeps.ite | with_reducible intro _ | extract_lets

theorem Dev.vcoreLow_keeps (d : Dev) : d.Keeps (d.vcoreLow) (.rPwr :: Part.trip) := by
  unfold Dev.vcoreLow
  repeat' first | with_reducible exact Dev.Keeps.rfl | ((with_reducible apply Part.within_goal); exact Eq.refl true) | ((with_reducible apply Part.isIn_goal); exact Eq.refl true) | with_reducible apply Dev.Keeps.via (Dev.deviceCause_keeps _ _ _ _ _ _) | with_reducible apply Dev.Keeps.via (Dev.onProtection_keeps _ _) | with_reducible apply Dev.Keeps.raise | with_reducible apply Dev.Keeps.ite | with_reducible intro _

theorem Dev.supplyWarning_keeps (d : Dev) (src : SupplySource) : d.Keeps (d.supplyWarning src) (.alloc :: .disp :: .rPwr :: Part.lap) := by
  unfold Dev.supplyWarning
  repeat' first | with_reducible exact Dev.Keeps.rfl | ((with_reducible apply Part.within_goal); exact Eq.refl true) | ((with_reducible apply Part.isIn_goal); exact Eq.refl true) | with_reducible apply Dev.Keeps.via (Dev.onPower_keeps _ _) | with_reducible apply Dev.Keeps.via (Dev.lastGasp_keeps _) | with_reducible apply Dev.Keeps.via (Dev.braceUp_keeps _) | with_reducible apply Dev.Keeps.raise | with_reducible apply Dev.Keeps.ite | with_reducible intro _ | extract_lets | split | (dsimp +zetaDelta only; split)

theorem Dev.supplyRecovery_keeps (d : Dev) (vaonSince : Tick) : d.Keeps (d.supplyRecovery vaonSince) (.alloc :: .prot :: .upd :: .out :: .veh :: .rPwr :: .rLio :: .rVeh :: Part.lap) := by
  unfold Dev.supplyRecovery
  repeat' first | with_reducible exact Dev.Keeps.rfl | ((with_reducible apply Part.within_goal); exact Eq.refl true) | ((with_reducible apply Part.isIn_goal); exact Eq.refl true) | with_reducible apply Dev.Keeps.via (Dev.unbrace_keeps _) | with_reducible apply Dev.Keeps.ite | with_reducible intro _

theorem Dev.wakeRailsInRange_keeps (d : Dev) : d.Keeps (d.wakeRailsInRange) (.pacer :: .power :: .alloc :: .prot :: .recorder :: .mem :: .fresh :: .lnk :: .cmd :: .group :: .out :: .con :: .veh :: .lprot :: Part.registers) := by
  unfold Dev.wakeRailsInRange
  repeat' first | with_reducible exact Dev.Keeps.rfl | ((with_reducible apply Part.within_goal); exact Eq.refl true) | ((with_reducible apply Part.isIn_goal); first | exact Eq.refl true | with_reducible apply contains_regPart) | with_reducible apply Dev.Keeps.via (Dev.leaveDormant_keeps _ _) | with_reducible apply Dev.Keeps.ite | with_reducible intro _ | split | (dsimp +zetaDelta only; split)

theorem Dev.railResetRelease_keeps (d : Dev) (loaderOk : Bool) : d.Keeps (d.railResetRelease loaderOk) (.pacer :: .power :: .bill :: .alloc :: .prot :: .svc :: .upd :: .recorder :: .mem :: .fresh :: .lnk :: .cmd :: .lbill :: .group :: .out :: .con :: .veh :: .lprot :: Part.registers) := by
  unfold Dev.railResetRelease
  repeat' first | with_reducible exact Dev.Keeps.rfl | ((with_reducible apply Part.within_goal); exact Eq.refl true) | ((with_reducible apply Part.isIn_goal); first | exact Eq.refl true | with_reducible apply contains_regPart) | with_reducible apply Dev.Keeps.via (Dev.onPower_keeps _ _) | with_reducible apply Dev.Keeps.via (Dev.powerOn_keeps _ _) | with_reducible apply Dev.Keeps.ite | with_reducible intro _ | extract_lets

end Sys2Proof.Machine
end

