-- ==== Sys2Proof/Laws/KeepsSecurity.lean ====
section
/-! SUPPORT. Which parts of the device an operation can change: authorization, security, tags, the grid and holds. -/

namespace Sys2Proof.Machine

set_option Elab.async false

theorem Dev.stepDemand_keeps (d : Dev) : d.Keeps (d.stepDemand) [.lbill] := by
  unfold Dev.stepDemand
  repeat' first | with_reducible exact Dev.Keeps.rfl | ((with_reducible apply Part.within_goal); exact Eq.refl true) | ((with_reducible apply Part.isIn_goal); exact Eq.refl true) | with_reducible apply Dev.Keeps.via (Dev.onBill_keeps _ _ _) | with_reducible apply Dev.Keeps.each | with_reducible intro _

theorem Dev.applyTime_keeps (d0 : Dev) (us leap : Nat) : d0.Keeps (d0.applyTime us leap) (.alloc :: Part.lap) := by
  unfold Dev.applyTime
  repeat' first | with_reducible exact Dev.Keeps.rfl | ((with_reducible apply Part.within_goal); exact Eq.refl true) | ((with_reducible apply Part.isIn_goal); exact Eq.refl true) | with_reducible apply Dev.Keeps.via (Dev.lapFirst_keeps _) | with_reducible apply Dev.Keeps.via (Dev.setBudget_keeps _) | with_reducible apply Dev.Keeps.via (Dev.onPacer_keeps _ _) | with_reducible apply Dev.Keeps.via (Dev.stepDemand_keeps _) | with_reducible apply Dev.Keeps.via (Dev.closeLap_keeps _ _) | with_reducible apply Dev.Keeps.via (Dev.beginLap_keeps _) | with_reducible apply Dev.Keeps.via (Dev.mirror_keeps _) | with_reducible apply Dev.Keeps.via (Dev.periodStep_keeps _) | with_reducible apply Dev.Keeps.via (Dev.flagClosedLap_keeps _ _) | with_reducible apply Dev.Keeps.raise | with_reducible apply Dev.Keeps.ite | with_reducible intro _ | extract_lets

theorem Dev.applyCredential_keeps (d : Dev) (n : LinkId) (h : HeldCredential) : d.Keeps (d.applyCredential n h) (.out :: .veh :: .rVeh :: Part.lap) := by
  unfold Dev.applyCredential
  repeat' first | with_reducible exact Dev.Keeps.rfl | ((with_reducible apply Part.within_goal); exact Eq.refl true) | ((with_reducible apply Part.isIn_goal); exact Eq.refl true) | with_reducible apply Dev.Keeps.via (Dev.onVeh_keeps _ _ _) | with_reducible apply Dev.Keeps.via (Dev.startSession_keeps _ _ _) | with_reducible apply Dev.Keeps.ite | with_reducible intro _

theorem Dev.refuseOutlet_keeps (d : Dev) (n : LinkId) (code : Nat) : d.Keeps (d.refuseOutlet n code) [.sec, .recorder, .veh, .rVeh] := by
  unfold Dev.refuseOutlet
  repeat' first | with_reducible exact Dev.Keeps.rfl | ((with_reducible apply Part.within_goal); exact Eq.refl true) | ((with_reducible apply Part.isIn_goal); first | exact Eq.refl true | exact contains_of (regPart_vehEvents (Nat.lt_of_lt_of_le (Fin.isLt _) (by decide))) (Eq.refl true)) | with_reducible apply Dev.Keeps.via (Dev.endAttempt_keeps _ _ _) | with_reducible apply Dev.Keeps.via (Dev.answer_keeps _ _ _) | with_reducible apply Dev.Keeps.raise | with_reducible apply Dev.Keeps.ite | with_reducible intro _

theorem Dev.countDecision_keeps (d : Dev) (path tenant code : Nat) : d.Keeps (d.countDecision path tenant code) [.recorder, .rTag, .rTen] := by
  unfold Dev.countDecision
  repeat' first | with_reducible exact Dev.Keeps.rfl | ((with_reducible apply Part.within_goal); exact Eq.refl true) | ((with_reducible apply Part.isIn_goal); first | exact Eq.refl true | exact contains_of (regPart_tagTAuthCnt) (Eq.refl true) | exact contains_of (regPart_tagTRefuseCnt) (Eq.refl true)) | with_reducible apply Dev.Keeps.raise | with_reducible apply Dev.Keeps.raiseIf | with_reducible apply Dev.Keeps.count | with_reducible apply Dev.Keeps.ite | with_reducible intro _ | extract_lets | split | (dsimp +zetaDelta only; split)

theorem Dev.showDecision_keeps (d : Dev) (n : LinkId) (path tenant code : Nat) : d.Keeps (d.showDecision n path tenant code) [.recorder, .ltag, .rTag, .rTen] := by
  unfold Dev.showDecision
  repeat' first | with_reducible exact Dev.Keeps.rfl | ((with_reducible apply Part.within_goal); exact Eq.refl true) | ((with_reducible apply Part.isIn_goal); first | exact Eq.refl true | exact contains_of (regPart_tagLEvents (Nat.lt_of_lt_of_le (Fin.isLt _) (by decide))) (Eq.refl true)) | with_reducible apply Dev.Keeps.via (Dev.onTag_keeps _ _ _) | with_reducible apply Dev.Keeps.via (Dev.countDecision_keeps _ _ _ _) | with_reducible apply Dev.Keeps.raise | with_reducible apply Dev.Keeps.ite | with_reducible intro _ | extract_lets

theorem Dev.judgeCredential_keeps (d was : Dev) (n : LinkId) (c : Credential) : d.Keeps (d.judgeCredential was n c) (.sec :: .out :: .veh :: .ltag :: .rTag :: .rVeh :: Part.lap) := by
  unfold Dev.judgeCredential
  repeat' first | with_reducible exact Dev.Keeps.rfl | ((with_reducible apply Part.within_goal); exact Eq.refl true) | ((with_reducible apply Part.isIn_goal); first | exact Eq.refl true | exact contains_of (regPart_tagTRemoteSerial) (Eq.refl true)) | with_reducible apply Dev.Keeps.via (Dev.showDecision_keeps _ _ _ _ _) | with_reducible apply Dev.Keeps.via (Dev.applyCredential_keeps _ _ _) | with_reducible apply Dev.Keeps.via (Dev.refuseOutlet_keeps _ _ _) | with_reducible apply Dev.Keeps.setReg | with_reducible apply Dev.Keeps.ite | with_reducible intro _ | extract_lets | split | (dsimp +zetaDelta only; split)

theorem Dev.judgeAstray_keeps (d was : Dev) (c : Credential) : d.Keeps (d.judgeAstray was c) [.recorder, .rTag, .rTen] := by
  unfold Dev.judgeAstray
  repeat' first | with_reducible exact Dev.Keeps.rfl | ((with_reducible apply Part.within_goal); exact Eq.refl true) | ((with_reducible apply Part.isIn_goal); exact Eq.refl true) | with_reducible apply Dev.Keeps.via (Dev.countDecision_keeps _ _ _ _) | extract_lets

theorem Dev.noteSerial_keeps (d : Dev) (kind s : Nat) (serial : Word) : d.Keeps (d.noteSerial kind s serial) [.sec] := by
  unfold Dev.noteSerial
  repeat' first | with_reducible exact Dev.Keeps.rfl | ((with_reducible apply Part.within_goal); exact Eq.refl true) | ((with_reducible apply Part.isIn_goal); exact Eq.refl true) | with_reducible apply Dev.Keeps.via (Dev.onSec_keeps _ _)

theorem Dev.showBlocks_keeps (d : Dev) (t : TenantId) : d.Keeps (d.showBlocks t) [.rTen] := by
  unfold Dev.showBlocks
  repeat' first | with_reducible exact Dev.Keeps.rfl | ((with_reducible apply Part.within_goal); exact Eq.refl true) | ((with_reducible apply Part.isIn_goal); first | exact Eq.refl true | exact contains_of (regPart_tagTBlock) (Eq.refl true)) | with_reducible apply Dev.Keeps.setRegs | (intro i hi; simp only [wordsOfBytes_length, wordsLE_length, padTo_length, List.length_replicate, List.length_map, List.length_range, Dev.attestResponse] at hi; exact contains_of (regPart_near hi (by decide) (by decide)) (Eq.refl true)) | (intro i hi; exact contains_of (regPart_near (k := 256) (Nat.lt_of_lt_of_le hi (by simp [wordsOfBytes_length, wordsLE_length, padTo_length, Dev.attestResponse])) (by decide) (by decide)) (Eq.refl true)) | with_reducible apply Dev.Keeps.each | with_reducible intro _

theorem Dev.applyBlocks_keeps (d : Dev) (t : TenantId) (body : List Byte) (e : Dev) (h : d.applyBlocks t body = some e) :
    d.Keeps e [.tenants, .recorder, .rTag, .rTen] := by
  unfold Dev.applyBlocks at h
  extract_lets at h
  split at h
  · exact absurd h (by simp)
  · cases h
    repeat' first | with_reducible exact Dev.Keeps.rfl | exact Eq.refl true | with_reducible apply Dev.Keeps.via (Dev.onTenant_keeps _ _ _) | with_reducible apply Dev.Keeps.via (Dev.showBlocks_keeps _ _) | with_reducible apply Dev.Keeps.raise

theorem Dev.applyLimit_keeps (d : Dev) (kw start expiry : Nat) : d.Keeps (d.applyLimit kw start expiry) [.alloc] := by
  unfold Dev.applyLimit
  repeat' first | with_reducible exact Dev.Keeps.rfl | ((with_reducible apply Part.within_goal); exact Eq.refl true) | ((with_reducible apply Part.isIn_goal); exact Eq.refl true) | with_reducible apply Dev.Keeps.via (Dev.setBudget_keeps _) | with_reducible apply Dev.Keeps.via (Dev.onAlloc_keeps _ _) | with_reducible apply Dev.Keeps.ite | with_reducible intro _ | extract_lets

theorem Dev.showRoot_keeps (d : Dev) (t : TenantId) : d.Keeps (d.showRoot t) [.rTen] := by
  unfold Dev.showRoot
  repeat' first | with_reducible exact Dev.Keeps.rfl | ((with_reducible apply Part.within_goal); exact Eq.refl true) | ((with_reducible apply Part.isIn_goal); first | exact Eq.refl true | exact contains_of (regPart_tagTRootId) (Eq.refl true)) | with_reducible apply Dev.Keeps.setReg | with_reducible apply Dev.Keeps.ite | with_reducible intro _ | extract_lets

theorem Dev.emptyRoot_keeps (d : Dev) (t : TenantId) : d.Keeps (d.emptyRoot t) [.tenants, .rTen] := by
  unfold Dev.emptyRoot
  repeat' first | with_reducible exact Dev.Keeps.rfl | ((with_reducible apply Part.within_goal); exact Eq.refl true) | ((with_reducible apply Part.isIn_goal); exact Eq.refl true) | with_reducible apply Dev.Keeps.via (Dev.showRoot_keeps _ _) | with_reducible apply Dev.Keeps.via (Dev.onTenant_keeps _ _ _)

theorem Dev.removeRoot_keeps (d : Dev) (t : TenantId) : d.Keeps (d.removeRoot t) [.tenants, .recorder, .rSec, .rTen] := by
  unfold Dev.removeRoot
  repeat' first | with_reducible exact Dev.Keeps.rfl | ((with_reducible apply Part.within_goal); exact Eq.refl true) | ((with_reducible apply Part.isIn_goal); exact Eq.refl true) | with_reducible apply Dev.Keeps.via (Dev.emptyRoot_keeps _ _) | with_reducible apply Dev.Keeps.raise

theorem Dev.commitRoot_keeps (d : Dev) (t : TenantId) (shadow : RootSlot) : d.Keeps (d.commitRoot t shadow) [.tenants, .recorder, .rSec, .rTen] := by
  unfold Dev.commitRoot
  repeat' first | with_reducible exact Dev.Keeps.rfl | ((with_reducible apply Part.within_goal); exact Eq.refl true) | ((with_reducible apply Part.isIn_goal); exact Eq.refl true) | with_reducible apply Dev.Keeps.via (Dev.showRoot_keeps _ _) | with_reducible apply Dev.Keeps.via (Dev.onTenant_keeps _ _ _) | with_reducible apply Dev.Keeps.raise | with_reducible apply Dev.Keeps.ite | with_reducible intro _

theorem Dev.beginRoot_keeps (d : Dev) (path : ObjectPath) (b : List Byte) : d.Keeps (d.beginRoot path b).1 [.tenants, .sec, .recorder, .rSec, .rTen] := by
  unfold Dev.beginRoot
  repeat' first | with_reducible exact Dev.Keeps.rfl | ((with_reducible apply Part.within_goal); exact Eq.refl true) | ((with_reducible apply Part.isIn_goal); exact Eq.refl true) | with_reducible apply Dev.Keeps.via (Dev.removeRoot_keeps _ _) | with_reducible apply Dev.Keeps.via (Dev.noteSerial_keeps _ _ _ _) | with_reducible apply Dev.Keeps.via (Dev.request_keeps _ _ _ _ _ _) | with_reducible apply Dev.Keeps.via (Dev.onSec_keeps _ _) | with_reducible apply Dev.Keeps.raise | with_reducible apply Dev.Keeps.ite | with_reducible intro _ | extract_lets | split | dsimp only | (dsimp +zetaDelta only; split)

theorem Dev.remoteStart_keeps (d was : Dev) (b : List Byte) (late : Bool) : d.Keeps (d.remoteStart was b late) (.sec :: .out :: .veh :: .ltag :: .rTag :: .rVeh :: Part.lap) := by
  unfold Dev.remoteStart
  repeat' first | with_reducible exact Dev.Keeps.rfl | ((with_reducible apply Part.within_goal); exact Eq.refl true) | ((with_reducible apply Part.isIn_goal); exact Eq.refl true) | with_reducible apply Dev.Keeps.via (Dev.judgeCredential_keeps _ _ _ _) | with_reducible apply Dev.Keeps.via (Dev.judgeAstray_keeps _ _ _) | with_reducible apply Dev.Keeps.ite | with_reducible intro _ | extract_lets | split | (dsimp +zetaDelta only; split)

theorem Dev.consume_keeps (d was : Dev) (path : ObjectPath) (b : List Byte) (admitted : Tick) (late : Bool) :
    d.Keeps (d.consume was path b admitted late).1 (.alloc :: .sec :: .upd :: .out :: .veh :: .ltag :: .rUpd :: .rSec :: .rTag :: .rVeh :: Part.lap) := by
  have hr : ∀ {l : List Part}, d.Keeps d l := Dev.Keeps.rfl
  unfold Dev.consume
  extract_lets body s d1
  have h1 : d.Keeps d1 (.alloc :: .sec :: .upd :: .out :: .veh :: .ltag :: .rUpd :: .rSec :: .rTag :: .rVeh :: Part.lap) := Dev.Keeps.ite (fun _ => Dev.Keeps.via (Dev.noteSerial_keeps _ _ _ _) hr (Eq.refl true)) fun _ => hr
  split
  · exact Dev.Keeps.via (Dev.applyGrant_keeps _ _ _ _ _ _) hr (Eq.refl true)
  · exact Dev.Keeps.via (Dev.remoteStart_keeps _ _ _ _) hr (Eq.refl true)
  · split
    · next heq => exact Dev.Keeps.via (Dev.applyBlocks_keeps _ _ _ _ heq) h1 (Eq.refl true)
    · exact hr
  · exact Dev.Keeps.via (Dev.applyLimit_keeps _ _ _ _) h1 (Eq.refl true)
  · exact Dev.Keeps.via (Dev.applyTime_keeps _ _ _) h1 (Eq.refl true)
  · exact Dev.Keeps.via (Dev.beginRoot_keeps _ _ _) hr (Eq.refl true)
  · exact Dev.Keeps.via (Dev.offerManifest_keeps _ _ _ _ _) hr (Eq.refl true)
  · exact hr

theorem Dev.onSub_keeps (d : Dev) (c : Fin 4) (f : SubSlot → SubSlot) : d.Keeps (d.onSub c f) [.sec] := by
  unfold Dev.onSub
  repeat' first | with_reducible exact Dev.Keeps.rfl | ((with_reducible apply Part.within_goal); exact Eq.refl true) | ((with_reducible apply Part.isIn_goal); exact Eq.refl true) | with_reducible apply Dev.Keeps.via (Dev.onSec_keeps _ _)

theorem Dev.engineTakes_keeps (d : Dev) (w : Option Nat) : d.Keeps (d.engineTakes w) [.mem, .rMem] := by
  unfold Dev.engineTakes
  repeat' first | with_reducible exact Dev.Keeps.rfl | ((with_reducible apply Part.within_goal); exact Eq.refl true) | ((with_reducible apply Part.isIn_goal); exact Eq.refl true) | with_reducible apply Dev.Keeps.via (Dev.consumePoison_keeps _ _ _) | split | (dsimp +zetaDelta only; split)

theorem Dev.admitObject_keeps (d : Dev) (path : ObjectPath) (b : List Byte) (poisoned : Bool) : d.Keeps (d.admitObject path b poisoned) [.sec, .recorder, .rSec] := by
  unfold Dev.admitObject
  repeat' first | with_reducible exact Dev.Keeps.rfl | ((with_reducible apply Part.within_goal); exact Eq.refl true) | ((with_reducible apply Part.isIn_goal); exact Eq.refl true) | with_reducible apply Dev.Keeps.via (Dev.request_keeps _ _ _ _ _ _) | with_reducible apply Dev.Keeps.via (Dev.dueNow_keeps _ _ _) | with_reducible apply Dev.Keeps.ite | with_reducible intro _

theorem Dev.submitObject_keeps (d : Dev) (c : Fin 4) (data : Word) : d.Keeps (d.submitObject c data) [.sec, .recorder, .rSec] := by
  unfold Dev.submitObject
  repeat' first | with_reducible exact Dev.Keeps.rfl | ((with_reducible apply Part.within_goal); exact Eq.refl true) | ((with_reducible apply Part.isIn_goal); exact Eq.refl true) | with_reducible apply Dev.Keeps.via (Dev.admitObject_keeps _ _ _ _) | with_reducible apply Dev.Keeps.via (Dev.onSub_keeps _ _ _) | with_reducible apply Dev.Keeps.ite | with_reducible intro _ | extract_lets

theorem Dev.subDone_keeps (d : Dev) (c : Fin 4) (code : Nat) : d.Keeps (d.subDone c code) [.sec, .recorder, .rSec] := by
  unfold Dev.subDone
  repeat' first | with_reducible exact Dev.Keeps.rfl | ((with_reducible apply Part.within_goal); exact Eq.refl true) | ((with_reducible apply Part.isIn_goal); exact Eq.refl true) | with_reducible apply Dev.Keeps.via (Dev.onSub_keeps _ _ _) | with_reducible apply Dev.Keeps.raiseIf

theorem Dev.objectReady_keeps (d : Dev) (path : ObjectPath) : d.Keeps (d.objectReady path) [.sec, .commits] := by
  unfold Dev.objectReady
  repeat' first | with_reducible exact Dev.Keeps.rfl | ((with_reducible apply Part.within_goal); exact Eq.refl true) | ((with_reducible apply Part.isIn_goal); exact Eq.refl true) | with_reducible apply Dev.Keeps.via (Dev.commit_keeps _ _ _) | with_reducible apply Dev.Keeps.via (Dev.finish_keeps _ _) | with_reducible apply Dev.Keeps.ite | with_reducible intro _

theorem Dev.objectDone_keeps (d was : Dev) (path : ObjectPath) (late : Bool) : d.Keeps (d.objectDone was path late) (.alloc :: .sec :: .upd :: .mem :: .out :: .veh :: .ltag :: .rUpd :: .rSec :: .rMem :: .rTag :: .rVeh :: Part.lap) := by
  unfold Dev.objectDone
  repeat' first | with_reducible exact Dev.Keeps.rfl | ((with_reducible apply Part.within_goal); exact Eq.refl true) | ((with_reducible apply Part.isIn_goal); exact Eq.refl true) | with_reducible apply Dev.Keeps.via (Dev.subDone_keeps _ _ _) | with_reducible apply Dev.Keeps.via (Dev.engineTakes_keeps _ _) | with_reducible apply Dev.Keeps.via (Dev.consume_keeps _ _ _ _ _ _) | with_reducible apply Dev.Keeps.via (Dev.onSec_keeps _ _) | with_reducible apply Dev.Keeps.raise | with_reducible apply Dev.Keeps.ite | with_reducible intro _ | extract_lets | split | dsimp only | (dsimp +zetaDelta only; split)

theorem Dev.rootTested_keeps (d : Dev) (t : TenantId) : d.Keeps (d.rootTested t) [.tenants, .sec, .recorder, .rSec, .rTen] := by
  unfold Dev.rootTested
  repeat' first | with_reducible exact Dev.Keeps.rfl | ((with_reducible apply Part.within_goal); exact Eq.refl true) | ((with_reducible apply Part.isIn_goal); exact Eq.refl true) | with_reducible apply Dev.Keeps.via (Dev.onSec_keeps _ _) | with_reducible apply Dev.Keeps.via (Dev.commitRoot_keeps _ _ _) | with_reducible apply Dev.Keeps.via (Dev.noteSerial_keeps _ _ _ _) | with_reducible apply Dev.Keeps.via (Dev.subDone_keeps _ _ _) | with_reducible apply Dev.Keeps.raise | with_reducible apply Dev.Keeps.ite | with_reducible intro _ | extract_lets | split | (dsimp +zetaDelta only; split)

theorem Dev.cmdDone_keeps (d : Dev) (code : Nat) : d.Keeps (d.cmdDone code) [.sec] := by
  unfold Dev.cmdDone
  repeat' first | with_reducible exact Dev.Keeps.rfl | ((with_reducible apply Part.within_goal); exact Eq.refl true) | ((with_reducible apply Part.isIn_goal); exact Eq.refl true) | with_reducible apply Dev.Keeps.via (Dev.onSec_keeps _ _)

theorem Dev.drkTested_keeps (d : Dev) : d.Keeps (d.drkTested) [.sec, .recorder, .rSec] := by
  unfold Dev.drkTested
  repeat' first | with_reducible exact Dev.Keeps.rfl | ((with_reducible apply Part.within_goal); exact Eq.refl true) | ((with_reducible apply Part.isIn_goal); exact Eq.refl true) | with_reducible apply Dev.Keeps.via (Dev.onSec_keeps _ _) | with_reducible apply Dev.Keeps.via (Dev.keepOldKey_keeps _) | with_reducible apply Dev.Keeps.via (Dev.cmdDone_keeps _ _) | with_reducible apply Dev.Keeps.setReg | with_reducible apply Dev.Keeps.raise | with_reducible apply Dev.Keeps.ite | with_reducible intro _ | extract_lets | split | (dsimp +zetaDelta only; split)

theorem Dev.drawRoot_keeps (d : Dev) : d.Keeps (d.drawRoot) [.sec, .recorder, .fresh, .rSec] := by
  unfold Dev.drawRoot
  repeat' first | with_reducible exact Dev.Keeps.rfl | ((with_reducible apply Part.within_goal); exact Eq.refl true) | ((with_reducible apply Part.isIn_goal); exact Eq.refl true) | with_reducible apply Dev.Keeps.via (Dev.request_keeps _ _ _ _ _ _) | with_reducible apply Dev.Keeps.via (Dev.randomDrawn_keeps _) | with_reducible apply Dev.Keeps.via (Dev.onSec_keeps _ _) | extract_lets

theorem Dev.rotateRoot_keeps (d : Dev) : d.Keeps (d.rotateRoot) [.sec, .recorder, .fresh, .rSec] := by
  unfold Dev.rotateRoot
  repeat' first | with_reducible exact Dev.Keeps.rfl | ((with_reducible apply Part.within_goal); exact Eq.refl true) | ((with_reducible apply Part.isIn_goal); exact Eq.refl true) | with_reducible apply Dev.Keeps.via (Dev.violation_keeps _ _ _ _) | with_reducible apply Dev.Keeps.via (Dev.cmdDone_keeps _ _) | with_reducible apply Dev.Keeps.via (Dev.onSec_keeps _ _) | with_reducible apply Dev.Keeps.via (Dev.drawRoot_keeps _) | with_reducible apply Dev.Keeps.ite | with_reducible intro _ | extract_lets

theorem Dev.enrol_keeps (d : Dev) (vendor : Bool) : d.Keeps (d.enrol vendor) [.sec, .recorder, .rSec] := by
  unfold Dev.enrol
  repeat' first | with_reducible exact Dev.Keeps.rfl | ((with_reducible apply Part.within_goal); exact Eq.refl true) | ((with_reducible apply Part.isIn_goal); exact Eq.refl true) | with_reducible apply Dev.Keeps.via (Dev.cmdDone_keeps _ _) | with_reducible apply Dev.Keeps.via (Dev.onSec_keeps _ _) | with_reducible apply Dev.Keeps.via (Dev.request_keeps _ _ _ _ _ _) | with_reducible apply Dev.Keeps.ite | with_reducible intro _ | extract_lets

theorem Dev.enrolDone_keeps (d : Dev) : d.Keeps (d.enrolDone) [.sec, .fresh, .rSec] := by
  unfold Dev.enrolDone
  repeat' first | with_reducible exact Dev.Keeps.rfl | ((with_reducible apply Part.within_goal); exact Eq.refl true) | ((with_reducible apply Part.isIn_goal); first | exact Eq.refl true | exact contains_of (regPart_secEnrol (by first | exact Nat.lt_of_lt_of_le (Fin.isLt _) (by decide) | exact lt_of_range (by assumption) (by decide) | exact lt_of_range (by assumption) (Nat.le_trans (Role.channels_le _) (by decide)) | decide | omega | (simp at *; omega))) (Eq.refl true)) | with_reducible apply Dev.Keeps.via (Dev.cmdDone_keeps _ _) | with_reducible apply Dev.Keeps.via (Dev.randomDrawn_keeps _) | with_reducible apply Dev.Keeps.setRegs | (intro i hi; simp only [wordsOfBytes_length, wordsLE_length, padTo_length, List.length_replicate, List.length_map, List.length_range, Dev.attestResponse] at hi; exact contains_of (regPart_near hi (by decide) (by decide)) (Eq.refl true)) | (intro i hi; exact contains_of (regPart_near (k := 256) (Nat.lt_of_lt_of_le hi (by simp [wordsOfBytes_length, wordsLE_length, padTo_length, Dev.attestResponse])) (by decide) (by decide)) (Eq.refl true)) | extract_lets

theorem Dev.loadChain_keeps (d : Dev) (len : Nat) : d.Keeps (d.loadChain len) [.sec, .recorder, .rSec] := by
  unfold Dev.loadChain
  repeat' first | with_reducible exact Dev.Keeps.rfl | ((with_reducible apply Part.within_goal); exact Eq.refl true) | ((with_reducible apply Part.isIn_goal); exact Eq.refl true) | with_reducible apply Dev.Keeps.via (Dev.request_keeps _ _ _ _ _ _) | with_reducible apply Dev.Keeps.via (Dev.onSec_keeps _ _) | with_reducible apply Dev.Keeps.ite | with_reducible intro _

theorem Dev.chainChecked_keeps (d : Dev) : d.Keeps (d.chainChecked) [.sec, .recorder, .rSec] := by
  unfold Dev.chainChecked
  repeat' first | with_reducible exact Dev.Keeps.rfl | ((with_reducible apply Part.within_goal); exact Eq.refl true) | ((with_reducible apply Part.isIn_goal); exact Eq.refl true) | with_reducible apply Dev.Keeps.via (Dev.cmdDone_keeps _ _) | with_reducible apply Dev.Keeps.via (Dev.onSec_keeps _ _) | with_reducible apply Dev.Keeps.raise | with_reducible apply Dev.Keeps.ite | with_reducible intro _ | extract_lets

theorem Dev.attestStart_keeps (d : Dev) : d.Keeps (d.attestStart) [.sec, .recorder, .rSec] := by
  unfold Dev.attestStart
  repeat' first | with_reducible exact Dev.Keeps.rfl | ((with_reducible apply Part.within_goal); exact Eq.refl true) | ((with_reducible apply Part.isIn_goal); exact Eq.refl true) | with_reducible apply Dev.Keeps.via (Dev.request_keeps _ _ _ _ _ _) | with_reducible apply Dev.Keeps.via (Dev.onSec_keeps _ _) | with_reducible apply Dev.Keeps.ite | with_reducible intro _

theorem Dev.attestDone_keeps (d : Dev) : d.Keeps (d.attestDone) [.sec, .recorder, .rSec] := by
  unfold Dev.attestDone
  repeat' first | with_reducible exact Dev.Keeps.rfl | ((with_reducible apply Part.within_goal); exact Eq.refl true) | ((with_reducible apply Part.isIn_goal); first | exact Eq.refl true | exact contains_of (regPart_secAttDigest (by first | exact Nat.lt_of_lt_of_le (Fin.isLt _) (by decide) | exact lt_of_range (by assumption) (by decide) | exact lt_of_range (by assumption) (Nat.le_trans (Role.channels_le _) (by decide)) | decide | omega | (simp at *; omega))) (Eq.refl true) | exact contains_of (regPart_secAttResp (by first | exact Nat.lt_of_lt_of_le (Fin.isLt _) (by decide) | exact lt_of_range (by assumption) (by decide) | exact lt_of_range (by assumption) (Nat.le_trans (Role.channels_le _) (by decide)) | decide | omega | (simp at *; omega))) (Eq.refl true)) | with_reducible apply Dev.Keeps.via (Dev.onSec_keeps _ _) | with_reducible apply Dev.Keeps.raise | with_reducible apply Dev.Keeps.setRegs | (intro i hi; simp only [wordsOfBytes_length, wordsLE_length, padTo_length, List.length_replicate, List.length_map, List.length_range, Dev.attestResponse] at hi; exact contains_of (regPart_near hi (by decide) (by decide)) (Eq.refl true)) | (intro i hi; exact contains_of (regPart_near (k := 256) (Nat.lt_of_lt_of_le hi (by simp [wordsOfBytes_length, wordsLE_length, padTo_length, Dev.attestResponse])) (by decide) (by decide)) (Eq.refl true)) | extract_lets

theorem Dev.failMatching_keeps (d : Dev) : d.Keeps (d.failMatching) [.sec, .recorder, .veh, .rVeh] := by
  unfold Dev.failMatching
  repeat' first | with_reducible exact Dev.Keeps.rfl | ((with_reducible apply Part.within_goal); exact Eq.refl true) | ((with_reducible apply Part.isIn_goal); first | exact Eq.refl true | exact contains_of (regPart_vehEvents (Nat.lt_of_lt_of_le (Fin.isLt _) (by decide))) (Eq.refl true)) | with_reducible apply Dev.Keeps.via (Dev.failAttempt_keeps _ _ _ _) | with_reducible apply Dev.Keeps.raise | with_reducible apply Dev.Keeps.each | with_reducible intro _ | split | (dsimp +zetaDelta only; split)

theorem Dev.slacAnswer_keeps (d : Dev) (n : LinkId) (evMac : BitVec 48) (runId : BitVec 64) : d.Keeps (d.slacAnswer n evMac runId) [.sec, .fresh, .veh] := by
  unfold Dev.slacAnswer
  repeat' first | with_reducible exact Dev.Keeps.rfl | ((with_reducible apply Part.within_goal); exact Eq.refl true) | ((with_reducible apply Part.isIn_goal); exact Eq.refl true) | with_reducible apply Dev.Keeps.via (Dev.randomDrawn_keeps _) | with_reducible apply Dev.Keeps.via (Dev.answer_keeps _ _ _) | with_reducible apply Dev.Keeps.via (Dev.onVeh_keeps _ _ _)

theorem Dev.tlsWork_keeps (d : Dev) (n : LinkId) : d.Keeps (d.tlsWork n) [.sec, .recorder, .fresh, .rSec] := by
  unfold Dev.tlsWork
  repeat' first | with_reducible exact Dev.Keeps.rfl | ((with_reducible apply Part.within_goal); exact Eq.refl true) | ((with_reducible apply Part.isIn_goal); exact Eq.refl true) | with_reducible apply Dev.Keeps.via (Dev.request_keeps _ _ _ _ _ _) | with_reducible apply Dev.Keeps.via (Dev.randomDrawn_keeps _)

theorem Dev.tagPoll_keeps (d : Dev) (n : LinkId) : d.Keeps (d.tagPoll n) [.ltag] := by
  unfold Dev.tagPoll
  repeat' first | with_reducible exact Dev.Keeps.rfl | ((with_reducible apply Part.within_goal); exact Eq.refl true) | ((with_reducible apply Part.isIn_goal); exact Eq.refl true) | with_reducible apply Dev.Keeps.via (Dev.onTag_keeps _ _ _) | with_reducible apply Dev.Keeps.ite | with_reducible intro _

theorem Dev.onEngine_keeps (d : Dev) (x : Fin 24) (t : Option TagTransaction) : d.Keeps (d.onEngine x t) [.engines] := by
  unfold Dev.onEngine
  repeat' first | with_reducible exact Dev.Keeps.rfl | ((with_reducible apply Part.within_goal); exact Eq.refl true) | ((with_reducible apply Part.isIn_goal); exact Eq.refl true) | with_reducible apply Dev.Keeps.to_engines

theorem Dev.nextRound_keeps (d : Dev) (x : Fin 24) (t : TagTransaction) (at' : Tick) : d.Keeps (d.nextRound x t at') [.engines, .sec, .fresh] := by
  unfold Dev.nextRound
  repeat' first | with_reducible exact Dev.Keeps.rfl | ((with_reducible apply Part.within_goal); exact Eq.refl true) | ((with_reducible apply Part.isIn_goal); exact Eq.refl true) | with_reducible apply Dev.Keeps.via (Dev.randomDrawn_keeps _) | with_reducible apply Dev.Keeps.via (Dev.onEngine_keeps _ _ _) | with_reducible apply Dev.Keeps.via (Dev.holdForRng_keeps _ _) | extract_lets | split | (dsimp +zetaDelta only; split)

theorem Dev.grantEngine_keeps (d : Dev) (x : Fin 24) : d.Keeps (d.grantEngine x) [.engines, .sec, .fresh, .ltag] := by
  unfold Dev.grantEngine
  repeat' first | with_reducible exact Dev.Keeps.rfl | ((with_reducible apply Part.within_goal); exact Eq.refl true) | ((with_reducible apply Part.isIn_goal); exact Eq.refl true) | with_reducible apply Dev.Keeps.via (Dev.onTag_keeps _ _ _) | with_reducible apply Dev.Keeps.via (Dev.nextRound_keeps _ _ _ _) | with_reducible apply Dev.Keeps.via (Dev.onEngine_keeps _ _ _) | with_reducible apply Dev.Keeps.ite | with_reducible intro _ | extract_lets | split | (dsimp +zetaDelta only; split)

theorem Dev.tagCrypto_keeps (d : Dev) (x : Fin 24) : d.Keeps (d.tagCrypto x) [.sec, .recorder, .rSec] := by
  unfold Dev.tagCrypto
  repeat' first | with_reducible exact Dev.Keeps.rfl | ((with_reducible apply Part.within_goal); exact Eq.refl true) | ((with_reducible apply Part.isIn_goal); exact Eq.refl true) | with_reducible apply Dev.Keeps.via (Dev.request_keeps _ _ _ _ _ _)

theorem Dev.cardsFound_keeps (d : Dev) (x : Fin 24) (t : TagTransaction) (found : List (List Byte)) : d.Keeps (d.cardsFound x t found) [.engines, .ltag] := by
  unfold Dev.cardsFound
  repeat' first | with_reducible exact Dev.Keeps.rfl | ((with_reducible apply Part.within_goal); exact Eq.refl true) | ((with_reducible apply Part.isIn_goal); exact Eq.refl true) | with_reducible apply Dev.Keeps.via (Dev.onTag_keeps _ _ _) | with_reducible apply Dev.Keeps.via (Dev.onEngine_keeps _ _ _) | with_reducible apply Dev.Keeps.ite | with_reducible intro _ | extract_lets | split | (dsimp +zetaDelta only; split)

theorem Dev.sendAuth2_keeps (d : Dev) (x : Fin 24) (tn : TenantId) (t : TagTransaction) (at' : Tick) : d.Keeps (d.sendAuth2 x tn t at') [.engines, .sec, .recorder, .fresh, .rSec] := by
  unfold Dev.sendAuth2
  repeat' first | with_reducible exact Dev.Keeps.rfl | ((with_reducible apply Part.within_goal); exact Eq.refl true) | ((with_reducible apply Part.isIn_goal); exact Eq.refl true) | with_reducible apply Dev.Keeps.via (Dev.randomDrawn_keeps _) | with_reducible apply Dev.Keeps.via (Dev.tagCrypto_keeps _ _) | with_reducible apply Dev.Keeps.via (Dev.onEngine_keeps _ _ _) | extract_lets

theorem Dev.cardAnswer_keeps (d : Dev) (x : Fin 24) (t : TagTransaction) (a : AirAnswer) : d.Keeps (d.cardAnswer x t a) [.engines, .sec, .recorder, .fresh, .ltag, .rSec] := by
  unfold Dev.cardAnswer
  repeat' first | with_reducible exact Dev.Keeps.rfl | ((with_reducible apply Part.within_goal); exact Eq.refl true) | ((with_reducible apply Part.isIn_goal); exact Eq.refl true) | with_reducible apply Dev.Keeps.via (Dev.onEngine_keeps _ _ _) | with_reducible apply Dev.Keeps.via (Dev.cardsFound_keeps _ _ _ _) | with_reducible apply Dev.Keeps.via (Dev.onTag_keeps _ _ _) | with_reducible apply Dev.Keeps.via (Dev.sendAuth2_keeps _ _ _ _ _) | with_reducible apply Dev.Keeps.via (Dev.holdForRng_keeps _ _) | with_reducible apply Dev.Keeps.via (Dev.tagCrypto_keeps _ _) | with_reducible apply Dev.Keeps.ite | with_reducible intro _ | extract_lets | split | (dsimp +zetaDelta only; split)

theorem Dev.uhfAnswer_keeps (d : Dev) (x : Fin 24) (t : TagTransaction) (a : AirAnswer) : d.Keeps (d.uhfAnswer x t a) [.engines, .sec, .recorder, .fresh, .rSec] := by
  unfold Dev.uhfAnswer
  repeat' first | with_reducible exact Dev.Keeps.rfl | ((with_reducible apply Part.within_goal); exact Eq.refl true) | ((with_reducible apply Part.isIn_goal); exact Eq.refl true) | with_reducible apply Dev.Keeps.via (Dev.onEngine_keeps _ _ _) | with_reducible apply Dev.Keeps.via (Dev.nextRound_keeps _ _ _ _) | with_reducible apply Dev.Keeps.via (Dev.tagCrypto_keeps _ _) | with_reducible apply Dev.Keeps.ite | with_reducible intro _ | extract_lets | split | (dsimp +zetaDelta only; split)

theorem Dev.airResponse_keeps (d : Dev) (x : Fin 24) (a : AirAnswer) : d.Keeps (d.airResponse x a) [.engines, .sec, .recorder, .fresh, .ltag, .rSec] := by
  unfold Dev.airResponse
  repeat' first | with_reducible exact Dev.Keeps.rfl | ((with_reducible apply Part.within_goal); exact Eq.refl true) | ((with_reducible apply Part.isIn_goal); exact Eq.refl true) | with_reducible apply Dev.Keeps.via (Dev.uhfAnswer_keeps _ _ _ _) | with_reducible apply Dev.Keeps.via (Dev.cardAnswer_keeps _ _ _ _) | with_reducible apply Dev.Keeps.ite | with_reducible intro _ | split | (dsimp +zetaDelta only; split)

theorem Dev.freeTag_keeps (d : Dev) (x : Fin 24) (n : LinkId) : d.Keeps (d.freeTag x n) [.engines, .sec, .ltag] := by
  unfold Dev.freeTag
  repeat' first | with_reducible exact Dev.Keeps.rfl | ((with_reducible apply Part.within_goal); exact Eq.refl true) | ((with_reducible apply Part.isIn_goal); exact Eq.refl true) | with_reducible apply Dev.Keeps.via (Dev.finish_keeps _ _) | with_reducible apply Dev.Keeps.via (Dev.onTag_keeps _ _ _) | with_reducible apply Dev.Keeps.via (Dev.onEngine_keeps _ _ _)

theorem Dev.refuseUnnamed_keeps (d : Dev) (n : LinkId) (path code : Nat) : d.Keeps (d.refuseUnnamed n path code) [.sec, .recorder, .veh, .ltag, .rTag, .rVeh] := by
  unfold Dev.refuseUnnamed
  repeat' first | with_reducible exact Dev.Keeps.rfl | ((with_reducible apply Part.within_goal); exact Eq.refl true) | ((with_reducible apply Part.isIn_goal); first | exact Eq.refl true | exact contains_of (regPart_tagLEvents (Nat.lt_of_lt_of_le (Fin.isLt _) (by decide))) (Eq.refl true)) | with_reducible apply Dev.Keeps.via (Dev.refuseOutlet_keeps _ _ _) | with_reducible apply Dev.Keeps.via (Dev.onTag_keeps _ _ _) | with_reducible apply Dev.Keeps.raise | with_reducible apply Dev.Keeps.raiseIf | with_reducible apply Dev.Keeps.count | extract_lets

theorem Dev.tagResult_keeps (d was : Dev) (n : LinkId) (path : AuthPath) (o : TagOutcome) : d.Keeps (d.tagResult was n path o) (.sec :: .out :: .veh :: .ltag :: .rTag :: .rVeh :: Part.lap) := by
  unfold Dev.tagResult
  repeat' first | with_reducible exact Dev.Keeps.rfl | ((with_reducible apply Part.within_goal); exact Eq.refl true) | ((with_reducible apply Part.isIn_goal); exact Eq.refl true) | with_reducible apply Dev.Keeps.via (Dev.refuseOutlet_keeps _ _ _) | with_reducible apply Dev.Keeps.via (Dev.showDecision_keeps _ _ _ _ _) | with_reducible apply Dev.Keeps.via (Dev.judgeCredential_keeps _ _ _ _) | with_reducible apply Dev.Keeps.via (Dev.refuseUnnamed_keeps _ _ _ _) | with_reducible apply Dev.Keeps.ite | with_reducible intro _ | extract_lets | split | (dsimp +zetaDelta only; split)

theorem Dev.tagEnd_keeps (d : Dev) (x : Fin 24) : d.Keeps (d.tagEnd x) [.engines, .sec, .commits, .ltag] := by
  unfold Dev.tagEnd
  repeat' first | with_reducible exact Dev.Keeps.rfl | ((with_reducible apply Part.within_goal); exact Eq.refl true) | ((with_reducible apply Part.isIn_goal); exact Eq.refl true) | with_reducible apply Dev.Keeps.via (Dev.freeTag_keeps _ _ _) | with_reducible apply Dev.Keeps.via (Dev.onTag_keeps _ _ _) | with_reducible apply Dev.Keeps.via (Dev.commit_keeps _ _ _) | with_reducible apply Dev.Keeps.ite | with_reducible intro _ | extract_lets | split | (dsimp +zetaDelta only; split)

theorem Dev.tagTimeout_keeps (d : Dev) (x : Fin 24) : d.Keeps (d.tagTimeout x) [.engines, .sec, .recorder, .commits, .ltag, .rTag] := by
  unfold Dev.tagTimeout
  repeat' first | with_reducible exact Dev.Keeps.rfl | ((with_reducible apply Part.within_goal); exact Eq.refl true) | ((with_reducible apply Part.isIn_goal); exact Eq.refl true) | with_reducible apply Dev.Keeps.via (Dev.commit_keeps _ _ _) | with_reducible apply Dev.Keeps.via (Dev.onTag_keeps _ _ _) | with_reducible apply Dev.Keeps.via (Dev.dropRngWait_keeps _ _) | with_reducible apply Dev.Keeps.via (Dev.cancel_keeps _ _) | with_reducible apply Dev.Keeps.via (Dev.onEngine_keeps _ _ _) | with_reducible apply Dev.Keeps.raise | with_reducible apply Dev.Keeps.ite | with_reducible intro _ | split | (dsimp +zetaDelta only; split)

theorem Dev.tagPromote_keeps (d : Dev) (n : LinkId) : d.Keeps (d.tagPromote n) [.ltag] := by
  unfold Dev.tagPromote
  repeat' first | with_reducible exact Dev.Keeps.rfl | ((with_reducible apply Part.within_goal); exact Eq.refl true) | ((with_reducible apply Part.isIn_goal); exact Eq.refl true) | with_reducible apply Dev.Keeps.via (Dev.onTag_keeps _ _ _) | with_reducible apply Dev.Keeps.ite | with_reducible intro _ | split | (dsimp +zetaDelta only; split)

theorem Dev.fieldResetEnd_keeps (d : Dev) (n : LinkId) : d.Keeps (d.fieldResetEnd n) [.ltag] := by
  unfold Dev.fieldResetEnd
  repeat' first | with_reducible exact Dev.Keeps.rfl | ((with_reducible apply Part.within_goal); exact Eq.refl true) | ((with_reducible apply Part.isIn_goal); exact Eq.refl true) | with_reducible apply Dev.Keeps.via (Dev.onTag_keeps _ _ _) | with_reducible apply Dev.Keeps.ite | with_reducible intro _

theorem Dev.fieldPresent_keeps (d : Dev) : d.Keeps (d.fieldPresent) [.power, .svc, .recorder, .rTag] := by
  unfold Dev.fieldPresent
  repeat' first | with_reducible exact Dev.Keeps.rfl | ((with_reducible apply Part.within_goal); exact Eq.refl true) | ((with_reducible apply Part.isIn_goal); exact Eq.refl true) | with_reducible apply Dev.Keeps.via (Dev.onSvc_keeps _ _) | with_reducible apply Dev.Keeps.via (Dev.wakeCause_keeps _ _) | with_reducible apply Dev.Keeps.raise | with_reducible apply Dev.Keeps.count | with_reducible apply Dev.Keeps.ite | with_reducible intro _ | extract_lets

theorem Dev.loseMailbox_keeps (d : Dev) : d.Keeps (d.loseMailbox) [.svc, .recorder, .rTag] := by
  unfold Dev.loseMailbox
  repeat' first | with_reducible exact Dev.Keeps.rfl | ((with_reducible apply Part.within_goal); exact Eq.refl true) | ((with_reducible apply Part.isIn_goal); first | exact Eq.refl true | exact contains_of (regPart_tagSvcMbxData (by first | exact Nat.lt_of_lt_of_le (Fin.isLt _) (by decide) | exact lt_of_range (by assumption) (by decide) | exact lt_of_range (by assumption) (Nat.le_trans (Role.channels_le _) (by decide)) | decide | omega | (simp at *; omega))) (Eq.refl true)) | with_reducible apply Dev.Keeps.via (Dev.onSvc_keeps _ _) | with_reducible apply Dev.Keeps.raise | with_reducible apply Dev.Keeps.setRegs | (intro i hi; simp only [wordsOfBytes_length, wordsLE_length, padTo_length, List.length_replicate, List.length_map, List.length_range, Dev.attestResponse] at hi; exact contains_of (regPart_near hi (by decide) (by decide)) (Eq.refl true)) | (intro i hi; exact contains_of (regPart_near (k := 256) (Nat.lt_of_lt_of_le hi (by simp [wordsOfBytes_length, wordsLE_length, padTo_length, Dev.attestResponse])) (by decide) (by decide)) (Eq.refl true))

theorem Dev.fieldLost_keeps (d : Dev) : d.Keeps (d.fieldLost) [.svc, .sec, .recorder, .rTag] := by
  unfold Dev.fieldLost
  repeat' first | with_reducible exact Dev.Keeps.rfl | ((with_reducible apply Part.within_goal); exact Eq.refl true) | ((with_reducible apply Part.isIn_goal); exact Eq.refl true) | with_reducible apply Dev.Keeps.via (Dev.onSvc_keeps _ _) | with_reducible apply Dev.Keeps.via (Dev.dropRngWait_keeps _ _) | with_reducible apply Dev.Keeps.via (Dev.loseMailbox_keeps _) | with_reducible apply Dev.Keeps.ite | with_reducible intro _ | extract_lets

theorem Dev.svcAnswer_keeps (d : Dev) (data : List Byte) (sw : Nat) : d.Keeps (d.svcAnswer data sw) [.svc] := by
  unfold Dev.svcAnswer
  repeat' first | with_reducible exact Dev.Keeps.rfl | ((with_reducible apply Part.within_goal); exact Eq.refl true) | ((with_reducible apply Part.isIn_goal); exact Eq.refl true) | with_reducible apply Dev.Keeps.via (Dev.onSvc_keeps _ _) | with_reducible apply Dev.Keeps.ite | with_reducible intro _

theorem Dev.readSummary_keeps (d : Dev) (p : Nat) : d.Keeps (d.readSummary p) [.svc] := by
  unfold Dev.readSummary
  repeat' first | with_reducible exact Dev.Keeps.rfl | ((with_reducible apply Part.within_goal); exact Eq.refl true) | ((with_reducible apply Part.isIn_goal); exact Eq.refl true) | with_reducible apply Dev.Keeps.via (Dev.svcAnswer_keeps _ _ _) | with_reducible apply Dev.Keeps.ite | with_reducible intro _ | split | (dsimp +zetaDelta only; split)

theorem Dev.readLastword_keeps (d : Dev) (i : Nat) : d.Keeps (d.readLastword i) [.svc] := by
  unfold Dev.readLastword
  repeat' first | with_reducible exact Dev.Keeps.rfl | ((with_reducible apply Part.within_goal); exact Eq.refl true) | ((with_reducible apply Part.isIn_goal); exact Eq.refl true) | with_reducible apply Dev.Keeps.via (Dev.svcAnswer_keeps _ _ _) | with_reducible apply Dev.Keeps.ite | with_reducible intro _

theorem Dev.svcChallenge_keeps (d : Dev) : d.Keeps (d.svcChallenge) [.svc, .sec, .recorder, .fresh, .rSec] := by
  unfold Dev.svcChallenge
  repeat' first | with_reducible exact Dev.Keeps.rfl | ((with_reducible apply Part.within_goal); exact Eq.refl true) | ((with_reducible apply Part.isIn_goal); exact Eq.refl true) | with_reducible apply Dev.Keeps.via (Dev.randomDrawn_keeps _) | with_reducible apply Dev.Keeps.via (Dev.request_keeps _ _ _ _ _ _) | with_reducible apply Dev.Keeps.via (Dev.svcAnswer_keeps _ _ _) | with_reducible apply Dev.Keeps.via (Dev.onSvc_keeps _ _) | extract_lets

theorem Dev.svcAuth1_keeps (d : Dev) : d.Keeps (d.svcAuth1) [.svc, .sec, .recorder, .fresh, .rSec] := by
  unfold Dev.svcAuth1
  repeat' first | with_reducible exact Dev.Keeps.rfl | ((with_reducible apply Part.within_goal); exact Eq.refl true) | ((with_reducible apply Part.isIn_goal); exact Eq.refl true) | with_reducible apply Dev.Keeps.via (Dev.svcAnswer_keeps _ _ _) | with_reducible apply Dev.Keeps.via (Dev.svcChallenge_keeps _) | with_reducible apply Dev.Keeps.via (Dev.holdForRng_keeps _ _) | with_reducible apply Dev.Keeps.ite | with_reducible intro _

theorem Dev.svcAuth2_keeps (d : Dev) (nonce sealedText : List Byte) : d.Keeps (d.svcAuth2 nonce sealedText) [.svc, .sec, .recorder, .fresh, .rSec, .rTag] := by
  unfold Dev.svcAuth2
  repeat' first | with_reducible exact Dev.Keeps.rfl | ((with_reducible apply Part.within_goal); exact Eq.refl true) | ((with_reducible apply Part.isIn_goal); exact Eq.refl true) | with_reducible apply Dev.Keeps.via (Dev.svcAnswer_keeps _ _ _) | with_reducible apply Dev.Keeps.via (Dev.request_keeps _ _ _ _ _ _) | with_reducible apply Dev.Keeps.via (Dev.onSvc_keeps _ _) | with_reducible apply Dev.Keeps.via (Dev.randomDrawn_keeps _) | with_reducible apply Dev.Keeps.raise | with_reducible apply Dev.Keeps.ite | with_reducible intro _ | extract_lets | split | (dsimp +zetaDelta only; split)

theorem Dev.svcUnsealed_keeps (d : Dev) : d.Keeps (d.svcUnsealed) [.svc] := by
  unfold Dev.svcUnsealed
  repeat' first | with_reducible exact Dev.Keeps.rfl | ((with_reducible apply Part.within_goal); exact Eq.refl true) | ((with_reducible apply Part.isIn_goal); exact Eq.refl true) | with_reducible apply Dev.Keeps.via (Dev.svcAnswer_keeps _ _ _) | with_reducible apply Dev.Keeps.via (Dev.onSvc_keeps _ _)

theorem Dev.svcSealed_keeps (d : Dev) (data : List Byte) : d.Keeps (d.svcSealed data) [.svc] := by
  unfold Dev.svcSealed
  repeat' first | with_reducible exact Dev.Keeps.rfl | ((with_reducible apply Part.within_goal); exact Eq.refl true) | ((with_reducible apply Part.isIn_goal); exact Eq.refl true) | with_reducible apply Dev.Keeps.via (Dev.onSvc_keeps _ _) | with_reducible apply Dev.Keeps.via (Dev.svcAnswer_keeps _ _ _)

theorem Dev.svcDone_keeps (d : Dev) (data : List Byte) : d.Keeps (d.svcDone data) [.svc] := by
  unfold Dev.svcDone
  repeat' first | with_reducible exact Dev.Keeps.rfl | ((with_reducible apply Part.within_goal); exact Eq.refl true) | ((with_reducible apply Part.isIn_goal); exact Eq.refl true) | with_reducible apply Dev.Keeps.via (Dev.svcSealed_keeps _ _) | with_reducible apply Dev.Keeps.via (Dev.svcAnswer_keeps _ _ _) | with_reducible apply Dev.Keeps.ite | with_reducible intro _

theorem Dev.svcReadEvent_keeps (d : Dev) (seq : Nat) (tagOk : Bool) : d.Keeps (d.svcReadEvent seq tagOk) [.svc] := by
  unfold Dev.svcReadEvent
  repeat' first | with_reducible exact Dev.Keeps.rfl | ((with_reducible apply Part.within_goal); exact Eq.refl true) | ((with_reducible apply Part.isIn_goal); exact Eq.refl true) | with_reducible apply Dev.Keeps.via (Dev.svcAnswer_keeps _ _ _) | with_reducible apply Dev.Keeps.via (Dev.svcUnsealed_keeps _) | with_reducible apply Dev.Keeps.via (Dev.svcSealed_keeps _ _) | with_reducible apply Dev.Keeps.ite | with_reducible intro _ | split | (dsimp +zetaDelta only; split)

theorem Dev.setMbx_keeps (d : Dev) (bs : List Byte) : d.Keeps (d.setMbx bs) [.rTag] := by
  unfold Dev.setMbx
  repeat' first | with_reducible exact Dev.Keeps.rfl | ((with_reducible apply Part.within_goal); exact Eq.refl true) | ((with_reducible apply Part.isIn_goal); first | exact Eq.refl true | exact contains_of (regPart_tagSvcMbxData (by first | exact Nat.lt_of_lt_of_le (Fin.isLt _) (by decide) | exact lt_of_range (by assumption) (by decide) | exact lt_of_range (by assumption) (Nat.le_trans (Role.channels_le _) (by decide)) | decide | omega | (simp at *; omega))) (Eq.refl true)) | with_reducible apply Dev.Keeps.setRegs | (intro i hi; simp only [wordsOfBytes_length, wordsLE_length, padTo_length, List.length_replicate, List.length_map, List.length_range, Dev.attestResponse] at hi; exact contains_of (regPart_near hi (by decide) (by decide)) (Eq.refl true)) | (intro i hi; exact contains_of (regPart_near (k := 256) (Nat.lt_of_lt_of_le hi (by simp [wordsOfBytes_length, wordsLE_length, padTo_length, Dev.attestResponse])) (by decide) (by decide)) (Eq.refl true))

theorem Dev.mbxWrite_keeps (d : Dev) (off : Nat) (data : List Byte) (tagOk : Bool) : d.Keeps (d.mbxWrite off data tagOk) [.svc, .rTag] := by
  unfold Dev.mbxWrite
  repeat' first | with_reducible exact Dev.Keeps.rfl | ((with_reducible apply Part.within_goal); exact Eq.refl true) | ((with_reducible apply Part.isIn_goal); exact Eq.refl true) | with_reducible apply Dev.Keeps.via (Dev.svcUnsealed_keeps _) | with_reducible apply Dev.Keeps.via (Dev.svcAnswer_keeps _ _ _) | with_reducible apply Dev.Keeps.via (Dev.svcDone_keeps _ _) | with_reducible apply Dev.Keeps.via (Dev.onSvc_keeps _ _) | with_reducible apply Dev.Keeps.via (Dev.setMbx_keeps _ _) | with_reducible apply Dev.Keeps.ite | with_reducible intro _

theorem Dev.mbxRead_keeps (d : Dev) (off len : Nat) : d.Keeps (d.mbxRead off len) [.svc] := by
  unfold Dev.mbxRead
  repeat' first | with_reducible exact Dev.Keeps.rfl | ((with_reducible apply Part.within_goal); exact Eq.refl true) | ((with_reducible apply Part.isIn_goal); exact Eq.refl true) | with_reducible apply Dev.Keeps.via (Dev.svcAnswer_keeps _ _ _) | with_reducible apply Dev.Keeps.via (Dev.svcDone_keeps _ _) | with_reducible apply Dev.Keeps.ite | with_reducible intro _

theorem Dev.fieldAcquire_keeps (d : Dev) : d.Keeps (d.fieldAcquire) [.svc, .recorder, .rTag] := by
  unfold Dev.fieldAcquire
  repeat' first | with_reducible exact Dev.Keeps.rfl | ((with_reducible apply Part.within_goal); exact Eq.refl true) | ((with_reducible apply Part.isIn_goal); exact Eq.refl true) | with_reducible apply Dev.Keeps.via (Dev.svcDone_keeps _ _) | with_reducible apply Dev.Keeps.via (Dev.onSvc_keeps _ _) | with_reducible apply Dev.Keeps.via (Dev.svcAnswer_keeps _ _ _) | with_reducible apply Dev.Keeps.raise | with_reducible apply Dev.Keeps.ite | with_reducible intro _ | extract_lets

theorem Dev.fieldPost_keeps (d : Dev) (p2 : Nat) : d.Keeps (d.fieldPost p2) [.svc, .recorder, .rTag] := by
  unfold Dev.fieldPost
  repeat' first | with_reducible exact Dev.Keeps.rfl | ((with_reducible apply Part.within_goal); exact Eq.refl true) | ((with_reducible apply Part.isIn_goal); exact Eq.refl true) | with_reducible apply Dev.Keeps.via (Dev.svcAnswer_keeps _ _ _) | with_reducible apply Dev.Keeps.via (Dev.svcDone_keeps _ _) | with_reducible apply Dev.Keeps.via (Dev.onSvc_keeps _ _) | with_reducible apply Dev.Keeps.raise | with_reducible apply Dev.Keeps.ite | with_reducible intro _

theorem Dev.fieldRelease_keeps (d : Dev) : d.Keeps (d.fieldRelease) [.svc] := by
  unfold Dev.fieldRelease
  repeat' first | with_reducible exact Dev.Keeps.rfl | ((with_reducible apply Part.within_goal); exact Eq.refl true) | ((with_reducible apply Part.isIn_goal); exact Eq.refl true) | with_reducible apply Dev.Keeps.via (Dev.svcDone_keeps _ _) | with_reducible apply Dev.Keeps.via (Dev.onSvc_keeps _ _) | with_reducible apply Dev.Keeps.via (Dev.svcAnswer_keeps _ _ _) | with_reducible apply Dev.Keeps.ite | with_reducible intro _

theorem Dev.fieldCancel_keeps (d : Dev) : d.Keeps (d.fieldCancel) [.svc] := by
  unfold Dev.fieldCancel
  repeat' first | with_reducible exact Dev.Keeps.rfl | ((with_reducible apply Part.within_goal); exact Eq.refl true) | ((with_reducible apply Part.isIn_goal); exact Eq.refl true) | with_reducible apply Dev.Keeps.via (Dev.svcDone_keeps _ _) | with_reducible apply Dev.Keeps.via (Dev.onSvc_keeps _ _) | with_reducible apply Dev.Keeps.via (Dev.svcAnswer_keeps _ _ _) | with_reducible apply Dev.Keeps.ite | with_reducible intro _

theorem Dev.svcTimeout_keeps (d : Dev) : d.Keeps (d.svcTimeout) [.svc] := by
  unfold Dev.svcTimeout
  repeat' first | with_reducible exact Dev.Keeps.rfl | ((with_reducible apply Part.within_goal); exact Eq.refl true) | ((with_reducible apply Part.isIn_goal); exact Eq.refl true) | with_reducible apply Dev.Keeps.via (Dev.onSvc_keeps _ _) | with_reducible apply Dev.Keeps.ite | with_reducible intro _

theorem Dev.wireAcquire_keeps (d : Dev) : d.Keeps (d.wireAcquire) [.svc, .recorder, .rTag] := by
  unfold Dev.wireAcquire
  repeat' first | with_reducible exact Dev.Keeps.rfl | ((with_reducible apply Part.within_goal); exact Eq.refl true) | ((with_reducible apply Part.isIn_goal); exact Eq.refl true) | with_reducible apply Dev.Keeps.via (Dev.onSvc_keeps _ _) | with_reducible apply Dev.Keeps.raise | with_reducible apply Dev.Keeps.ite | with_reducible intro _

theorem Dev.wirePost_keeps (d : Dev) (len : Nat) : d.Keeps (d.wirePost len) [.svc] := by
  unfold Dev.wirePost
  repeat' first | with_reducible exact Dev.Keeps.rfl | ((with_reducible apply Part.within_goal); exact Eq.refl true) | ((with_reducible apply Part.isIn_goal); exact Eq.refl true) | with_reducible apply Dev.Keeps.via (Dev.onSvc_keeps _ _) | with_reducible apply Dev.Keeps.ite | with_reducible intro _

theorem Dev.wireRelease_keeps (d : Dev) : d.Keeps (d.wireRelease) [.svc] := by
  unfold Dev.wireRelease
  repeat' first | with_reducible exact Dev.Keeps.rfl | ((with_reducible apply Part.within_goal); exact Eq.refl true) | ((with_reducible apply Part.isIn_goal); exact Eq.refl true) | with_reducible apply Dev.Keeps.via (Dev.onSvc_keeps _ _) | with_reducible apply Dev.Keeps.ite | with_reducible intro _

theorem Dev.wireCancel_keeps (d : Dev) : d.Keeps (d.wireCancel) [.svc] := by
  unfold Dev.wireCancel
  repeat' first | with_reducible exact Dev.Keeps.rfl | ((with_reducible apply Part.within_goal); exact Eq.refl true) | ((with_reducible apply Part.isIn_goal); exact Eq.refl true) | with_reducible apply Dev.Keeps.via (Dev.onSvc_keeps _ _) | with_reducible apply Dev.Keeps.ite | with_reducible intro _

theorem Dev.wireWrite_keeps (d : Dev) (index : Fin 64) (data : Word) : d.Keeps (d.wireWrite index data) [.rTag] := by
  unfold Dev.wireWrite
  repeat' first | with_reducible exact Dev.Keeps.rfl | ((with_reducible apply Part.within_goal); exact Eq.refl true) | ((with_reducible apply Part.isIn_goal); first | exact Eq.refl true | exact contains_of (regPart_tagSvcMbxData (by first | exact Nat.lt_of_lt_of_le (Fin.isLt _) (by decide) | exact lt_of_range (by assumption) (by decide) | exact lt_of_range (by assumption) (Nat.le_trans (Role.channels_le _) (by decide)) | decide | omega | (simp at *; omega))) (Eq.refl true)) | with_reducible apply Dev.Keeps.setReg | with_reducible apply Dev.Keeps.ite | with_reducible intro _

theorem Dev.wireTimeout_keeps (d : Dev) : d.Keeps (d.wireTimeout) [.svc, .recorder, .rTag] := by
  unfold Dev.wireTimeout
  repeat' first | with_reducible exact Dev.Keeps.rfl | ((with_reducible apply Part.within_goal); exact Eq.refl true) | ((with_reducible apply Part.isIn_goal); exact Eq.refl true) | with_reducible apply Dev.Keeps.via (Dev.loseMailbox_keeps _) | with_reducible apply Dev.Keeps.ite | with_reducible intro _

theorem Dev.lockTenant_keeps (d : Dev) (t : Nat) : d.Keeps (d.lockTenant t) [.locked] := by
  unfold Dev.lockTenant
  repeat' first | with_reducible exact Dev.Keeps.rfl | ((with_reducible apply Part.within_goal); exact Eq.refl true) | ((with_reducible apply Part.isIn_goal); exact Eq.refl true) | with_reducible apply Dev.Keeps.ite | with_reducible intro _ | split | with_reducible apply Dev.Keeps.to_locked | (dsimp +zetaDelta only; split)

theorem Dev.gridGate_keeps (d : Dev) : d.Keeps (d.gridGate) [.grid] := by
  unfold Dev.gridGate
  repeat' first | with_reducible exact Dev.Keeps.rfl | ((with_reducible apply Part.within_goal); exact Eq.refl true) | ((with_reducible apply Part.isIn_goal); exact Eq.refl true) | with_reducible apply Dev.Keeps.via (Dev.onGrid_keeps _ _) | with_reducible apply Dev.Keeps.ite | with_reducible intro _ | split | (dsimp +zetaDelta only; split)

theorem Dev.countBlanked_keeps (d : Dev) (xs : List Decision) : d.Keeps (d.countBlanked xs) [.rGrd] := by
  unfold Dev.countBlanked
  repeat' first | with_reducible exact Dev.Keeps.rfl | ((with_reducible apply Part.within_goal); exact Eq.refl true) | ((with_reducible apply Part.isIn_goal); exact Eq.refl true) | with_reducible apply Dev.Keeps.count

theorem Dev.ownSegment_keeps (d : Dev) : d.Keeps (d.ownSegment).2 [.grid] := by
  unfold Dev.ownSegment
  repeat' first | with_reducible exact Dev.Keeps.rfl | ((with_reducible apply Part.within_goal); exact Eq.refl true) | ((with_reducible apply Part.isIn_goal); exact Eq.refl true) | with_reducible apply Dev.Keeps.via (Dev.onGrid_keeps _ _) | with_reducible apply Dev.Keeps.ite | with_reducible intro _ | extract_lets | split | dsimp only | (dsimp +zetaDelta only; split)

theorem Dev.fillPeriod_keeps (d : Dev) (mine : Bool) : d.Keeps (d.fillPeriod mine) [.grid] := by
  unfold Dev.fillPeriod
  repeat' first | with_reducible exact Dev.Keeps.rfl | ((with_reducible apply Part.within_goal); exact Eq.refl true) | ((with_reducible apply Part.isIn_goal); exact Eq.refl true) | with_reducible apply Dev.Keeps.via (Dev.ownSegment_keeps _) | with_reducible apply Dev.Keeps.via (Dev.onGrid_keeps _ _) | with_reducible apply Dev.Keeps.ite | with_reducible intro _ | extract_lets | dsimp only | (dsimp +zetaDelta only; split)

theorem Dev.onNb_keeps (d : Dev) (i : Fin 32) (f : Neighbour → Neighbour) : d.Keeps (d.onNb i f) [.grid] := by
  unfold Dev.onNb
  repeat' first | with_reducible exact Dev.Keeps.rfl | ((with_reducible apply Part.within_goal); exact Eq.refl true) | ((with_reducible apply Part.isIn_goal); exact Eq.refl true) | with_reducible apply Dev.Keeps.via (Dev.onGrid_keeps _ _)

theorem Dev.setCoord_keeps (d : Dev) (node : BitVec 48) : d.Keeps (d.setCoord node) [.grid, .recorder, .rGrd] := by
  unfold Dev.setCoord
  repeat' first | with_reducible exact Dev.Keeps.rfl | ((with_reducible apply Part.within_goal); exact Eq.refl true) | ((with_reducible apply Part.isIn_goal); exact Eq.refl true) | with_reducible apply Dev.Keeps.via (Dev.onGrid_keeps _ _) | with_reducible apply Dev.Keeps.raise | with_reducible apply Dev.Keeps.ite | with_reducible intro _

theorem Dev.sendGrid_keeps (d : Dev) (kind : Nat) (bytes : List Byte) : d.Keeps (d.sendGrid kind bytes) [.grid] := by
  unfold Dev.sendGrid
  repeat' first | with_reducible exact Dev.Keeps.rfl | ((with_reducible apply Part.within_goal); exact Eq.refl true) | ((with_reducible apply Part.isIn_goal); exact Eq.refl true) | with_reducible apply Dev.Keeps.via (Dev.onGrid_keeps _ _) | with_reducible apply Dev.Keeps.ite | with_reducible intro _

theorem Dev.dropMsg_keeps (d : Dev) (m : GridMsg) : d.Keeps (d.dropMsg m) [.grid] := by
  unfold Dev.dropMsg
  repeat' first | with_reducible exact Dev.Keeps.rfl | ((with_reducible apply Part.within_goal); exact Eq.refl true) | ((with_reducible apply Part.isIn_goal); exact Eq.refl true) | with_reducible apply Dev.Keeps.via (Dev.onGrid_keeps _ _)

theorem Dev.badMsg_keeps (d : Dev) (m : GridMsg) : d.Keeps (d.badMsg m) [.grid, .recorder, .rGrd] := by
  unfold Dev.badMsg
  repeat' first | with_reducible exact Dev.Keeps.rfl | ((with_reducible apply Part.within_goal); exact Eq.refl true) | ((with_reducible apply Part.isIn_goal); exact Eq.refl true) | with_reducible apply Dev.Keeps.via (Dev.dropMsg_keeps _ _) | with_reducible apply Dev.Keeps.raise

theorem Dev.takeSegment_keeps (d : Dev) (sender : Fin 32) (h : Nat) (payload : List Byte) : d.Keeps (d.takeSegment sender h payload) [.grid, .recorder, .rGrd] := by
  unfold Dev.takeSegment
  repeat' first | with_reducible exact Dev.Keeps.rfl | ((with_reducible apply Part.within_goal); exact Eq.refl true) | ((with_reducible apply Part.isIn_goal); exact Eq.refl true) | with_reducible apply Dev.Keeps.via (Dev.onGrid_keeps _ _) | with_reducible apply Dev.Keeps.via (Dev.badMsg_keeps _ _) | with_reducible apply Dev.Keeps.via (Dev.dropMsg_keeps _ _) | with_reducible apply Dev.Keeps.ite | with_reducible intro _ | extract_lets | split | (dsimp +zetaDelta only; split)

theorem Dev.beginDiscovery_keeps (d : Dev) : d.Keeps (d.beginDiscovery) [.grid] := by
  unfold Dev.beginDiscovery
  repeat' first | with_reducible exact Dev.Keeps.rfl | ((with_reducible apply Part.within_goal); exact Eq.refl true) | ((with_reducible apply Part.isIn_goal); exact Eq.refl true) | with_reducible apply Dev.Keeps.via (Dev.onGrid_keeps _ _) | with_reducible apply Dev.Keeps.via (Dev.fillPeriod_keeps _ _) | with_reducible apply Dev.Keeps.ite | with_reducible intro _ | extract_lets

theorem Dev.discoveryComplete_keeps (d : Dev) : d.Keeps (d.discoveryComplete) [.grid, .recorder, .rGrd] := by
  unfold Dev.discoveryComplete
  repeat' first | with_reducible exact Dev.Keeps.rfl | ((with_reducible apply Part.within_goal); exact Eq.refl true) | ((with_reducible apply Part.isIn_goal); exact Eq.refl true) | with_reducible apply Dev.Keeps.via (Dev.sendGrid_keeps _ _ _) | with_reducible apply Dev.Keeps.via (Dev.onGrid_keeps _ _) | with_reducible apply Dev.Keeps.raise | with_reducible apply Dev.Keeps.raiseIf | with_reducible apply Dev.Keeps.foldl | with_reducible intro _ | extract_lets

theorem Dev.compareElection_keeps (d : Dev) (prio : Nat) (node : Nat) : d.Keeps (d.compareElection prio node) [.grid, .recorder, .rGrd] := by
  unfold Dev.compareElection
  repeat' first | with_reducible exact Dev.Keeps.rfl | ((with_reducible apply Part.within_goal); exact Eq.refl true) | ((with_reducible apply Part.isIn_goal); exact Eq.refl true) | with_reducible apply Dev.Keeps.via (Dev.onGrid_keeps _ _) | with_reducible apply Dev.Keeps.raise | with_reducible apply Dev.Keeps.ite | with_reducible intro _ | extract_lets

theorem Dev.hearRival_keeps (d : Dev) (b : BeaconBits) : d.Keeps (d.hearRival b) [.grid, .recorder, .rGrd] := by
  unfold Dev.hearRival
  repeat' first | with_reducible exact Dev.Keeps.rfl | ((with_reducible apply Part.within_goal); exact Eq.refl true) | ((with_reducible apply Part.isIn_goal); exact Eq.refl true) | with_reducible apply Dev.Keeps.via (Dev.compareElection_keeps _ _ _) | with_reducible apply Dev.Keeps.via (Dev.onGrid_keeps _ _) | with_reducible apply Dev.Keeps.ite | with_reducible intro _ | extract_lets | split | (dsimp +zetaDelta only; split)

theorem Dev.coordinate_keeps (d : Dev) (was : Byte) : d.Keeps (d.coordinate was) [.grid, .recorder, .rGrd] := by
  unfold Dev.coordinate
  repeat' first | with_reducible exact Dev.Keeps.rfl | ((with_reducible apply Part.within_goal); exact Eq.refl true) | ((with_reducible apply Part.isIn_goal); exact Eq.refl true) | with_reducible apply Dev.Keeps.via (Dev.onGrid_keeps _ _) | with_reducible apply Dev.Keeps.via (Dev.discoveryComplete_keeps _) | with_reducible apply Dev.Keeps.ite | with_reducible intro _ | extract_lets | split | (dsimp +zetaDelta only; split)

theorem Dev.gridPeriod_keeps (d : Dev) (quiet : Vector CellDiffs 6) : d.Keeps (d.gridPeriod quiet) [.grid, .recorder, .rGrd] := by
  unfold Dev.gridPeriod
  repeat' first | with_reducible exact Dev.Keeps.rfl | ((with_reducible apply Part.within_goal); exact Eq.refl true) | ((with_reducible apply Part.isIn_goal); exact Eq.refl true) | with_reducible apply Dev.Keeps.via (Dev.onGrid_keeps _ _) | with_reducible apply Dev.Keeps.via (Dev.coordinate_keeps _ _) | with_reducible apply Dev.Keeps.via (Dev.fillPeriod_keeps _ _) | with_reducible apply Dev.Keeps.ite | with_reducible intro _ | extract_lets | split | (dsimp +zetaDelta only; split)

theorem Dev.readCoord_keeps (d : Dev) (b : BeaconBits) : d.Keeps (d.readCoord b) [.grid, .recorder, .rGrd] := by
  unfold Dev.readCoord
  repeat' first | with_reducible exact Dev.Keeps.rfl | ((with_reducible apply Part.within_goal); exact Eq.refl true) | ((with_reducible apply Part.isIn_goal); exact Eq.refl true) | with_reducible apply Dev.Keeps.via (Dev.onGrid_keeps _ _) | with_reducible apply Dev.Keeps.via (Dev.setCoord_keeps _ _) | with_reducible apply Dev.Keeps.ite | with_reducible intro _ | extract_lets | split | (dsimp +zetaDelta only; split)

theorem Dev.followBeacon_keeps (d : Dev) (b : BeaconBits) : d.Keeps (d.followBeacon b) [.grid, .recorder, .fresh, .rGrd] := by
  unfold Dev.followBeacon
  repeat' first | with_reducible exact Dev.Keeps.rfl | ((with_reducible apply Part.within_goal); exact Eq.refl true) | ((with_reducible apply Part.isIn_goal); exact Eq.refl true) | with_reducible apply Dev.Keeps.via (Dev.onNb_keeps _ _ _) | with_reducible apply Dev.Keeps.via (Dev.readCoord_keeps _ _) | with_reducible apply Dev.Keeps.via (Dev.onGrid_keeps _ _) | with_reducible apply Dev.Keeps.via (Dev.fillPeriod_keeps _ _) | with_reducible apply Dev.Keeps.drew | with_reducible apply Dev.Keeps.ite | with_reducible intro _ | extract_lets | split | (dsimp +zetaDelta only; split)

theorem Dev.beaconHeard_keeps (d : Dev) (b : Beacon) : d.Keeps (d.beaconHeard b) [.grid, .recorder, .fresh, .rGrd] := by
  unfold Dev.beaconHeard
  repeat' first | with_reducible exact Dev.Keeps.rfl | ((with_reducible apply Part.within_goal); exact Eq.refl true) | ((with_reducible apply Part.isIn_goal); exact Eq.refl true) | with_reducible apply Dev.Keeps.via (Dev.countBlanked_keeps _ _) | with_reducible apply Dev.Keeps.via (Dev.followBeacon_keeps _ _) | with_reducible apply Dev.Keeps.via (Dev.hearRival_keeps _ _) | with_reducible apply Dev.Keeps.ite | with_reducible intro _ | extract_lets | split | (dsimp +zetaDelta only; split)

theorem Dev.gridRespond_keeps (d : Dev) : d.Keeps (d.gridRespond) [.sec, .grid] := by
  unfold Dev.gridRespond
  repeat' first | with_reducible exact Dev.Keeps.rfl | ((with_reducible apply Part.within_goal); exact Eq.refl true) | ((with_reducible apply Part.isIn_goal); exact Eq.refl true) | with_reducible apply Dev.Keeps.via (Dev.sendGrid_keeps _ _ _) | with_reducible apply Dev.Keeps.via (Dev.onSec_keeps _ _) | split | (dsimp +zetaDelta only; split)

theorem Dev.takeChallenge_keeps (d : Dev) (challenge : List Byte) : d.Keeps (d.takeChallenge challenge) [.sec, .grid, .recorder, .rSec, .rGrd] := by
  unfold Dev.takeChallenge
  repeat' first | with_reducible exact Dev.Keeps.rfl | ((with_reducible apply Part.within_goal); exact Eq.refl true) | ((with_reducible apply Part.isIn_goal); exact Eq.refl true) | with_reducible apply Dev.Keeps.via (Dev.onGrid_keeps _ _) | with_reducible apply Dev.Keeps.via (Dev.cancel_keeps _ _) | with_reducible apply Dev.Keeps.via (Dev.request_keeps _ _ _ _ _ _) | with_reducible apply Dev.Keeps.via (Dev.onSec_keeps _ _) | with_reducible apply Dev.Keeps.raise | with_reducible apply Dev.Keeps.countField | with_reducible apply Dev.Keeps.ite | with_reducible intro _ | extract_lets

theorem Dev.segmentHeard_keeps (d : Dev) (seg : Segment) : d.Keeps (d.segmentHeard seg) [.grid, .recorder, .rGrd] := by
  unfold Dev.segmentHeard
  repeat' first | with_reducible exact Dev.Keeps.rfl | ((with_reducible apply Part.within_goal); exact Eq.refl true) | ((with_reducible apply Part.isIn_goal); exact Eq.refl true) | with_reducible apply Dev.Keeps.via (Dev.countBlanked_keeps _ _) | with_reducible apply Dev.Keeps.via (Dev.badMsg_keeps _ _) | with_reducible apply Dev.Keeps.via (Dev.takeSegment_keeps _ _ _ _) | with_reducible apply Dev.Keeps.via (Dev.onNb_keeps _ _ _) | with_reducible apply Dev.Keeps.count | with_reducible apply Dev.Keeps.ite | with_reducible intro _ | extract_lets | split | (dsimp +zetaDelta only; split)

theorem Dev.gridObject_keeps (d : Dev) (sender : Fin 32) : d.Keeps (d.gridObject sender) [.sec, .grid, .recorder, .rSec, .rGrd] := by
  unfold Dev.gridObject
  repeat' first | with_reducible exact Dev.Keeps.rfl | ((with_reducible apply Part.within_goal); exact Eq.refl true) | ((with_reducible apply Part.isIn_goal); exact Eq.refl true) | with_reducible apply Dev.Keeps.via (Dev.admitObject_keeps _ _ _ _) | with_reducible apply Dev.Keeps.via (Dev.onSec_keeps _ _) | with_reducible apply Dev.Keeps.via (Dev.dropMsg_keeps _ _) | with_reducible apply Dev.Keeps.raise | with_reducible apply Dev.Keeps.countField | with_reducible apply Dev.Keeps.ite | with_reducible intro _ | extract_lets | split | (dsimp +zetaDelta only; split)

theorem Dev.gridPiece_keeps (d : Dev) (sender : Fin 32) : d.Keeps (d.gridPiece sender) [.sec, .grid, .upd, .recorder, .rSec, .rGrd] := by
  unfold Dev.gridPiece
  repeat' first | with_reducible exact Dev.Keeps.rfl | ((with_reducible apply Part.within_goal); exact Eq.refl true) | ((with_reducible apply Part.isIn_goal); exact Eq.refl true) | with_reducible apply Dev.Keeps.via (Dev.dropMsg_keeps _ _) | with_reducible apply Dev.Keeps.via (Dev.onUpd_keeps _ _) | with_reducible apply Dev.Keeps.via (Dev.request_keeps _ _ _ _ _ _) | with_reducible apply Dev.Keeps.raise | with_reducible apply Dev.Keeps.countField | with_reducible apply Dev.Keeps.ite | with_reducible intro _ | extract_lets | split | (dsimp +zetaDelta only; split)

theorem Dev.gridTable_keeps (d : Dev) (sender : Fin 32) : d.Keeps (d.gridTable sender) [.grid, .recorder, .rGrd] := by
  unfold Dev.gridTable
  repeat' first | with_reducible exact Dev.Keeps.rfl | ((with_reducible apply Part.within_goal); exact Eq.refl true) | ((with_reducible apply Part.isIn_goal); exact Eq.refl true) | with_reducible apply Dev.Keeps.via (Dev.dropMsg_keeps _ _) | with_reducible apply Dev.Keeps.via (Dev.setCoord_keeps _ _) | with_reducible apply Dev.Keeps.via (Dev.onGrid_keeps _ _) | with_reducible apply Dev.Keeps.ite | with_reducible intro _ | extract_lets | split | (dsimp +zetaDelta only; split)

theorem Dev.guardDone_keeps (d : Dev) : d.Keeps (d.guardDone) [.grid, .recorder, .rGrd] := by
  unfold Dev.guardDone
  repeat' first | with_reducible exact Dev.Keeps.rfl | ((with_reducible apply Part.within_goal); exact Eq.refl true) | ((with_reducible apply Part.isIn_goal); exact Eq.refl true) | with_reducible apply Dev.Keeps.via (Dev.setCoord_keeps _ _) | with_reducible apply Dev.Keeps.via (Dev.onGrid_keeps _ _) | with_reducible apply Dev.Keeps.via (Dev.fillPeriod_keeps _ _) | with_reducible apply Dev.Keeps.ite | with_reducible intro _ | extract_lets

theorem Dev.answerHeard_keeps (d : Dev) (a : DiscAnswer) : d.Keeps (d.answerHeard a) [.grid, .rGrd] := by
  unfold Dev.answerHeard
  repeat' first | with_reducible exact Dev.Keeps.rfl | ((with_reducible apply Part.within_goal); exact Eq.refl true) | ((with_reducible apply Part.isIn_goal); exact Eq.refl true) | with_reducible apply Dev.Keeps.via (Dev.countBlanked_keeps _ _) | with_reducible apply Dev.Keeps.via (Dev.onGrid_keeps _ _) | with_reducible apply Dev.Keeps.ite | with_reducible intro _ | extract_lets | split | (dsimp +zetaDelta only; split)

theorem Dev.discover_keeps (d : Dev) : d.Keeps (d.discover) [.grid] := by
  unfold Dev.discover
  repeat' first | with_reducible exact Dev.Keeps.rfl | ((with_reducible apply Part.within_goal); exact Eq.refl true) | ((with_reducible apply Part.isIn_goal); exact Eq.refl true) | with_reducible apply Dev.Keeps.via (Dev.beginDiscovery_keeps _) | with_reducible apply Dev.Keeps.ite | with_reducible intro _

theorem Dev.relisten_keeps (d : Dev) : d.Keeps (d.relisten) [.grid] := by
  unfold Dev.relisten
  repeat' first | with_reducible exact Dev.Keeps.rfl | ((with_reducible apply Part.within_goal); exact Eq.refl true) | ((with_reducible apply Part.isIn_goal); exact Eq.refl true) | with_reducible apply Dev.Keeps.via (Dev.onGrid_keeps _ _) | with_reducible apply Dev.Keeps.ite | with_reducible intro _

theorem Dev.rngRestart_keeps (d : Dev) : d.Keeps (d.rngRestart) [.sec] := by
  unfold Dev.rngRestart
  repeat' first | with_reducible exact Dev.Keeps.rfl | ((with_reducible apply Part.within_goal); exact Eq.refl true) | ((with_reducible apply Part.isIn_goal); exact Eq.refl true) | with_reducible apply Dev.Keeps.via (Dev.onSec_keeps _ _) | with_reducible apply Dev.Keeps.via (Dev.cmdDone_keeps _ _) | with_reducible apply Dev.Keeps.ite | with_reducible intro _ | extract_lets

theorem Dev.workDone_keeps (d : Dev) (r : CryptoReq) : d.Keeps (d.workDone r) [.sec, .recorder, .fresh, .rSec] := by
  unfold Dev.workDone
  repeat' first | with_reducible exact Dev.Keeps.rfl | ((with_reducible apply Part.within_goal); exact Eq.refl true) | ((with_reducible apply Part.isIn_goal); exact Eq.refl true) | with_reducible apply Dev.Keeps.via (Dev.enrolDone_keeps _) | with_reducible apply Dev.Keeps.via (Dev.cmdDone_keeps _ _) | with_reducible apply Dev.Keeps.via (Dev.onSec_keeps _ _) | with_reducible apply Dev.Keeps.via (Dev.chainChecked_keeps _) | with_reducible apply Dev.Keeps.via (Dev.dueNow_keeps _ _ _) | with_reducible apply Dev.Keeps.ite | with_reducible intro _ | split | (dsimp +zetaDelta only; split)

theorem Dev.operationDone_keeps (d : Dev) (kind : EngineKind) (engine : Fin 32) : d.Keeps (d.operationDone kind engine) [.sec, .recorder, .fresh, .rSec] := by
  have h : d.Keeps (d.freeEngine kind engine).2 [.sec, .recorder, .fresh, .rSec] := Dev.Keeps.via (Dev.freeEngine_keeps _ _ _) Dev.Keeps.rfl (Eq.refl true)
  unfold Dev.operationDone
  split
  · next heq => rw [heq] at h; exact h
  · next heq =>
    rw [heq] at h
    have h' := h
    repeat' first | with_reducible exact h' | exact Eq.refl true | with_reducible apply Dev.Keeps.via (Dev.feedEngines_keeps _) | with_reducible apply Dev.Keeps.via (Dev.workDone_keeps _ _) | with_reducible apply Dev.Keeps.via (Dev.onSec_keeps _ _) | with_reducible apply Dev.Keeps.ite | with_reducible intro _ | extract_lets

theorem Dev.contractDone_keeps (d was : Dev) (w : ContractWait) (late : Bool) : d.Keeps (d.contractDone was w late) (.sec :: .out :: .veh :: .ltag :: .rTag :: .rVeh :: Part.lap) := by
  unfold Dev.contractDone
  repeat' first | with_reducible exact Dev.Keeps.rfl | ((with_reducible apply Part.within_goal); exact Eq.refl true) | ((with_reducible apply Part.isIn_goal); exact Eq.refl true) | with_reducible apply Dev.Keeps.via (Dev.judgeCredential_keeps _ _ _ _)

theorem Dev.applyResult_keeps (d : Dev) (x : CryptoDue) : d.Keeps (d.applyResult x) [.sec, .grid, .recorder, .commits, .rSec] := by
  unfold Dev.applyResult
  extract_lets key
  cases x.use <;> first
    | exact Dev.Keeps.rfl
    | exact Dev.Keeps.via (Dev.commit_keeps _ _ _) Dev.Keeps.rfl (Eq.refl true)
    | exact Dev.Keeps.via (Dev.attestDone_keeps _) Dev.Keeps.rfl (Eq.refl true)
    | exact Dev.Keeps.via (Dev.gridRespond_keeps _) Dev.Keeps.rfl (Eq.refl true)
    | (dsimp only; split <;> first
        | exact Dev.Keeps.via (Dev.commit_keeps _ _ _) (Dev.Keeps.via (Dev.onSec_keeps _ _) Dev.Keeps.rfl (Eq.refl true)) (Eq.refl true)
        | exact Dev.Keeps.rfl)

theorem Dev.cryptoResult_keeps (d : Dev) : d.Keeps (d.cryptoResult) [.sec, .grid, .recorder, .commits, .rSec] := by
  unfold Dev.cryptoResult
  repeat' first | with_reducible exact Dev.Keeps.rfl | ((with_reducible apply Part.within_goal); exact Eq.refl true) | ((with_reducible apply Part.isIn_goal); exact Eq.refl true) | with_reducible apply Dev.Keeps.via (Dev.applyResult_keeps _ _) | with_reducible apply Dev.Keeps.via (Dev.onSec_keeps _ _) | split | (dsimp +zetaDelta only; split)

theorem Dev.cryptoOverrun_keeps (d : Dev) : d.Keeps (d.cryptoOverrun) (.pacer :: .sec :: .rPac :: .rPwr :: Part.trip) := by
  unfold Dev.cryptoOverrun
  repeat' first | with_reducible exact Dev.Keeps.rfl | ((with_reducible apply Part.within_goal); exact Eq.refl true) | ((with_reducible apply Part.isIn_goal); exact Eq.refl true) | with_reducible apply Dev.Keeps.via (Dev.overrun_keeps _ _) | with_reducible apply Dev.Keeps.via (Dev.onSec_keeps _ _) | with_reducible apply Dev.Keeps.ite | with_reducible intro _ | split | (dsimp +zetaDelta only; split)

theorem Dev.rngServe_keeps (d : Dev) (w : RngWait) : d.Keeps (d.rngServe w) [.engines, .svc, .sec, .recorder, .fresh, .veh, .rSec] := by
  unfold Dev.rngServe
  repeat' first | with_reducible exact Dev.Keeps.rfl | ((with_reducible apply Part.within_goal); exact Eq.refl true) | ((with_reducible apply Part.isIn_goal); exact Eq.refl true) | with_reducible apply Dev.Keeps.via (Dev.slacAnswer_keeps _ _ _ _) | with_reducible apply Dev.Keeps.via (Dev.tlsWork_keeps _ _) | with_reducible apply Dev.Keeps.via (Dev.svcChallenge_keeps _) | with_reducible apply Dev.Keeps.via (Dev.nextRound_keeps _ _ _ _) | with_reducible apply Dev.Keeps.via (Dev.sendAuth2_keeps _ _ _ _ _) | with_reducible apply Dev.Keeps.ite | with_reducible intro _ | extract_lets | split | (dsimp +zetaDelta only; split)

theorem Dev.rngRefuse_keeps (d : Dev) (w : RngWait) : d.Keeps (d.rngRefuse w) [.engines, .svc, .sec, .fresh] := by
  unfold Dev.rngRefuse
  repeat' first | with_reducible exact Dev.Keeps.rfl | ((with_reducible apply Part.within_goal); exact Eq.refl true) | ((with_reducible apply Part.isIn_goal); exact Eq.refl true) | with_reducible apply Dev.Keeps.via (Dev.svcAnswer_keeps _ _ _) | with_reducible apply Dev.Keeps.via (Dev.nextRound_keeps _ _ _ _) | with_reducible apply Dev.Keeps.via (Dev.onEngine_keeps _ _ _) | with_reducible apply Dev.Keeps.ite | with_reducible intro _ | split | (dsimp +zetaDelta only; split)

theorem Dev.declareFailed_keeps (d : Dev) (fails : Nat) : d.Keeps (d.declareFailed fails) [.engines, .svc, .sec, .recorder, .fresh, .veh, .rSec, .rVeh] := by
  unfold Dev.declareFailed
  repeat' first | with_reducible exact Dev.Keeps.rfl | ((with_reducible apply Part.within_goal); exact Eq.refl true) | ((with_reducible apply Part.isIn_goal); exact Eq.refl true) | with_reducible apply Dev.Keeps.via (Dev.onSec_keeps _ _) | with_reducible apply Dev.Keeps.via (Dev.failMatching_keeps _) | with_reducible apply Dev.Keeps.via (Dev.rngRefuse_keeps _ _) | with_reducible apply Dev.Keeps.via (Dev.cmdDone_keeps _ _) | with_reducible apply Dev.Keeps.via (Dev.cancel_keeps _ _) | with_reducible apply Dev.Keeps.raise | with_reducible apply Dev.Keeps.each | with_reducible apply Dev.Keeps.ite | with_reducible intro _ | extract_lets

theorem Dev.rngFailure_keeps (d : Dev) (fails : Nat) : d.Keeps (d.rngFailure fails) [.engines, .svc, .sec, .recorder, .fresh, .veh, .rSec, .rVeh] := by
  unfold Dev.rngFailure
  repeat' first | with_reducible exact Dev.Keeps.rfl | ((with_reducible apply Part.within_goal); exact Eq.refl true) | ((with_reducible apply Part.isIn_goal); exact Eq.refl true) | with_reducible apply Dev.Keeps.via (Dev.declareFailed_keeps _ _) | with_reducible apply Dev.Keeps.via (Dev.onSec_keeps _ _) | with_reducible apply Dev.Keeps.count | with_reducible apply Dev.Keeps.ite | with_reducible intro _ | extract_lets

theorem Dev.rngAlarm_keeps (d : Dev) : d.Keeps (d.rngAlarm) [.engines, .svc, .sec, .recorder, .fresh, .veh, .rSec, .rVeh] := by
  unfold Dev.rngAlarm
  repeat' first | with_reducible exact Dev.Keeps.rfl | ((with_reducible apply Part.within_goal); exact Eq.refl true) | ((with_reducible apply Part.isIn_goal); exact Eq.refl true) | with_reducible apply Dev.Keeps.via (Dev.rngFailure_keeps _ _) | with_reducible apply Dev.Keeps.raise | with_reducible apply Dev.Keeps.drew | with_reducible apply Dev.Keeps.ite | with_reducible intro _ | extract_lets

theorem Dev.cmdServe_keeps (d : Dev) : d.Keeps (d.cmdServe) [.sec, .recorder, .fresh, .rSec] := by
  unfold Dev.cmdServe
  repeat' first | with_reducible exact Dev.Keeps.rfl | ((with_reducible apply Part.within_goal); exact Eq.refl true) | ((with_reducible apply Part.isIn_goal); exact Eq.refl true) | with_reducible apply Dev.Keeps.via (Dev.onSec_keeps _ _) | with_reducible apply Dev.Keeps.via (Dev.drawRoot_keeps _) | with_reducible apply Dev.Keeps.via (Dev.enrolDone_keeps _) | with_reducible apply Dev.Keeps.ite | with_reducible intro _ | extract_lets

theorem Dev.startupDone_keeps (d : Dev) (passed : Bool) : d.Keeps (d.startupDone passed) [.engines, .svc, .sec, .recorder, .fresh, .veh, .rSec, .rVeh] := by
  unfold Dev.startupDone
  repeat' first | with_reducible exact Dev.Keeps.rfl | ((with_reducible apply Part.within_goal); exact Eq.refl true) | ((with_reducible apply Part.isIn_goal); exact Eq.refl true) | with_reducible apply Dev.Keeps.via (Dev.onSec_keeps _ _) | with_reducible apply Dev.Keeps.via (Dev.cmdDone_keeps _ _) | with_reducible apply Dev.Keeps.via (Dev.cmdServe_keeps _) | with_reducible apply Dev.Keeps.via (Dev.rngServe_keeps _ _) | with_reducible apply Dev.Keeps.via (Dev.rngFailure_keeps _ _) | with_reducible apply Dev.Keeps.count | with_reducible apply Dev.Keeps.each | with_reducible apply Dev.Keeps.ite | with_reducible intro _ | extract_lets

theorem Dev.readViolCause_keeps (d : Dev) : d.Keeps (d.readViolCause) [.sec] := by
  unfold Dev.readViolCause
  repeat' first | with_reducible exact Dev.Keeps.rfl | ((with_reducible apply Part.within_goal); exact Eq.refl true) | ((with_reducible apply Part.isIn_goal); exact Eq.refl true) | with_reducible apply Dev.Keeps.via (Dev.onSec_keeps _ _)

theorem Dev.writeWaitMax_keeps (d : Dev) (data : Word) : d.Keeps (d.writeWaitMax data) [.rSec] := by
  unfold Dev.writeWaitMax
  repeat' first | with_reducible exact Dev.Keeps.rfl | ((with_reducible apply Part.within_goal); exact Eq.refl true) | ((with_reducible apply Part.isIn_goal); exact Eq.refl true) | with_reducible apply Dev.Keeps.setReg | with_reducible apply Dev.Keeps.ite | with_reducible intro _

theorem Dev.fnHold_keeps (d : Dev) (fn : Byte) (inst : BitVec 10) : d.Keeps (d.fnHold fn inst) [.tenants, .alloc, .cfg, .recorder, .archive, .rCfg] := by
  unfold Dev.fnHold
  repeat' first | with_reducible exact Dev.Keeps.rfl | ((with_reducible apply Part.within_goal); exact Eq.refl true) | ((with_reducible apply Part.isIn_goal); exact Eq.refl true) | with_reducible apply Dev.Keeps.via (Dev.fnRefuse_keeps _ _ _ _) | with_reducible apply Dev.Keeps.via (Dev.takeSlot_keeps _ _ _) | with_reducible apply Dev.Keeps.ite | with_reducible intro _ | extract_lets

theorem Dev.fnResume_keeps (d0 : Dev) (fn : Byte) (inst : BitVec 10) : d0.Keeps (d0.fnResume fn inst) (.pacer :: .power :: .tenants :: .bill :: .alloc :: .prot :: .cfg :: .recorder :: .archive :: .lnk :: .met :: .lbill :: .veh :: .lprot :: Part.registers) := by
  unfold Dev.fnResume
  repeat' first | with_reducible exact Dev.Keeps.rfl | ((with_reducible apply Part.within_goal); exact Eq.refl true) | ((with_reducible apply Part.isIn_goal); first | exact Eq.refl true | with_reducible apply contains_regPart) | with_reducible apply Dev.Keeps.via (Dev.lapFirst_keeps _) | with_reducible apply Dev.Keeps.via (Dev.fnRefuse_keeps _ _ _ _) | with_reducible apply Dev.Keeps.via (Dev.fnStat_keeps _ _ _ _) | with_reducible apply Dev.Keeps.via (Dev.setSlot_keeps _ _ _) | with_reducible apply Dev.Keeps.via (Dev.applyResume_keeps _ _) | with_reducible apply Dev.Keeps.ite | with_reducible intro _ | extract_lets | split | (dsimp +zetaDelta only; split)

theorem Dev.fnCancel_keeps (d : Dev) (fn : Byte) (inst : BitVec 10) : d.Keeps (d.fnCancel fn inst) (.tenants :: .alloc :: .cfg :: .recorder :: .archive :: .met :: .veh :: Part.registers) := by
  unfold Dev.fnCancel
  repeat' first | with_reducible exact Dev.Keeps.rfl | ((with_reducible apply Part.within_goal); exact Eq.refl true) | ((with_reducible apply Part.isIn_goal); first | exact Eq.refl true | with_reducible apply contains_regPart) | with_reducible apply Dev.Keeps.via (Dev.fnRefuse_keeps _ _ _ _) | with_reducible apply Dev.Keeps.via (Dev.fnStat_keeps _ _ _ _) | with_reducible apply Dev.Keeps.via (Dev.discardHold_keeps _ _) | split | (dsimp +zetaDelta only; split)

theorem Dev.holdStep_keeps (d0 : Dev) (k : Fin 16) : d0.Keeps (d0.holdStep k) (.alloc :: .cfg :: Part.lap) := by
  unfold Dev.holdStep
  repeat' first | with_reducible exact Dev.Keeps.rfl | ((with_reducible apply Part.within_goal); exact Eq.refl true) | ((with_reducible apply Part.isIn_goal); exact Eq.refl true) | with_reducible apply Dev.Keeps.via (Dev.lapFirst_keeps _) | with_reducible apply Dev.Keeps.via (Dev.nowHeld_keeps _ _) | with_reducible apply Dev.Keeps.ite | with_reducible intro _ | extract_lets | split | (dsimp +zetaDelta only; split)

theorem Dev.resumeStep_keeps (d0 : Dev) (k : Fin 16) : d0.Keeps (d0.resumeStep k) (.pacer :: .power :: .tenants :: .bill :: .alloc :: .prot :: .cfg :: .recorder :: .archive :: .lnk :: .met :: .lbill :: .veh :: .lprot :: Part.registers) := by
  unfold Dev.resumeStep
  repeat' first | with_reducible exact Dev.Keeps.rfl | ((with_reducible apply Part.within_goal); exact Eq.refl true) | ((with_reducible apply Part.isIn_goal); first | exact Eq.refl true | with_reducible apply contains_regPart) | with_reducible apply Dev.Keeps.via (Dev.lapFirst_keeps _) | with_reducible apply Dev.Keeps.via (Dev.applyResume_keeps _ _) | with_reducible apply Dev.Keeps.ite | with_reducible intro _ | extract_lets | split | (dsimp +zetaDelta only; split)

theorem Dev.Keeps.loadCmd {d e : Dev} {l : List Part} {w : Word} {f : Dev → Dev} (hf : ∀ e, Dev.Keeps e (f e) l) (h : d.Keeps e l)
    (ha : Part.isIn l (regPart Reg.cfgLoadCmd) = true) : d.Keeps (e.loadCmd w f) l := by
  unfold Dev.loadCmd
  split
  · exact Dev.Keeps.gw hf h ha
  · split
    · exact h.trans (hf e) fun _ h => h
    · exact h

theorem Dev.loadBarred_keeps (d : Dev) : d.Keeps (d.loadBarred) [.sec, .recorder, .rSec] := by
  unfold Dev.loadBarred
  repeat' first | with_reducible exact Dev.Keeps.rfl | ((with_reducible apply Part.within_goal); exact Eq.refl true) | ((with_reducible apply Part.isIn_goal); exact Eq.refl true) | with_reducible apply Dev.Keeps.via (Dev.violation_keeps _ _ _ _)

theorem Dev.loadWrite_keeps (d : Dev) : d.Keeps (d.loadWrite) [.sec, .cfg, .recorder, .rSec] := by
  unfold Dev.loadWrite
  repeat' first | with_reducible exact Dev.Keeps.rfl | ((with_reducible apply Part.within_goal); exact Eq.refl true) | ((with_reducible apply Part.isIn_goal); exact Eq.refl true) | with_reducible apply Dev.Keeps.via (Dev.loadBarred_keeps _) | with_reducible apply Dev.Keeps.via (Dev.onCfg_keeps _ _) | with_reducible apply Dev.Keeps.ite | with_reducible intro _ | extract_lets

theorem Dev.loadCommit_keeps (d : Dev) (len : Nat) : d.Keeps (d.loadCommit len) [.sec, .cfg, .recorder, .rSec] := by
  unfold Dev.loadCommit
  repeat' first | with_reducible exact Dev.Keeps.rfl | ((with_reducible apply Part.within_goal); exact Eq.refl true) | ((with_reducible apply Part.isIn_goal); exact Eq.refl true) | with_reducible apply Dev.Keeps.via (Dev.loadBarred_keeps _) | with_reducible apply Dev.Keeps.via (Dev.onCfg_keeps _ _) | with_reducible apply Dev.Keeps.ite | with_reducible intro _

theorem Dev.loadDone_keeps (d : Dev) : d.Keeps (d.loadDone) (.cfg :: .recorder :: Part.registers) := by
  unfold Dev.loadDone
  repeat' first | with_reducible exact Dev.Keeps.rfl | ((with_reducible apply Part.within_goal); exact Eq.refl true) | ((with_reducible apply Part.isIn_goal); first | exact Eq.refl true | with_reducible apply contains_regPart) | with_reducible apply Dev.Keeps.via (Dev.onCfg_keeps _ _) | with_reducible apply Dev.Keeps.raise | with_reducible apply Dev.Keeps.ite | with_reducible intro _ | extract_lets

theorem Dev.onPiece_keeps (d : Dev) (c : Fin 2) (f : PieceSlot → PieceSlot) : d.Keeps (d.onPiece c f) [.upd] := by
  unfold Dev.onPiece
  repeat' first | with_reducible exact Dev.Keeps.rfl | ((with_reducible apply Part.within_goal); exact Eq.refl true) | ((with_reducible apply Part.isIn_goal); exact Eq.refl true) | with_reducible apply Dev.Keeps.via (Dev.onUpd_keeps _ _)

theorem Dev.submitPiece_keeps (d : Dev) (c : Fin 2) (data : Word) : d.Keeps (d.submitPiece c data) [.sec, .upd, .recorder, .rSec] := by
  unfold Dev.submitPiece
  repeat' first | with_reducible exact Dev.Keeps.rfl | ((with_reducible apply Part.within_goal); exact Eq.refl true) | ((with_reducible apply Part.isIn_goal); exact Eq.refl true) | with_reducible apply Dev.Keeps.via (Dev.request_keeps _ _ _ _ _ _) | with_reducible apply Dev.Keeps.via (Dev.onPiece_keeps _ _ _) | with_reducible apply Dev.Keeps.ite | with_reducible intro _ | extract_lets

theorem Dev.pieceChecked_keeps (d : Dev) (path : PiecePath) : d.Keeps (d.pieceChecked path) [.sec, .upd, .recorder, .mem, .lnk, .rUpd, .rSec, .rMem] := by
  unfold Dev.pieceChecked
  repeat' first | with_reducible exact Dev.Keeps.rfl | ((with_reducible apply Part.within_goal); exact Eq.refl true) | ((with_reducible apply Part.isIn_goal); exact Eq.refl true) | with_reducible apply Dev.Keeps.via (Dev.finish_keeps _ _) | with_reducible apply Dev.Keeps.via (Dev.onPiece_keeps _ _ _) | with_reducible apply Dev.Keeps.via (Dev.applyPiece_keeps _ _ _) | with_reducible apply Dev.Keeps.via (Dev.engineTakes_keeps _ _) | with_reducible apply Dev.Keeps.via (Dev.onUpd_keeps _ _) | with_reducible apply Dev.Keeps.via (Dev.request_keeps _ _ _ _ _ _) | with_reducible apply Dev.Keeps.ite | with_reducible intro _ | extract_lets | split | (dsimp +zetaDelta only; split)

theorem Dev.stagingEnds_keeps (d : Dev) (n : LinkId) : d.Keeps (d.stagingEnds n) [.sec, .upd, .recorder, .lnk, .rUpd, .rSec] := by
  unfold Dev.stagingEnds
  repeat' first | with_reducible exact Dev.Keeps.rfl | ((with_reducible apply Part.within_goal); exact Eq.refl true) | ((with_reducible apply Part.isIn_goal); exact Eq.refl true) | with_reducible apply Dev.Keeps.via (Dev.headStaged_keeps _ _ _) | with_reducible apply Dev.Keeps.ite | with_reducible intro _

theorem Dev.updActivate_keeps (d : Dev) : d.Keeps (d.updActivate) [.upd, .group, .out, .veh, .rVeh] := by
  unfold Dev.updActivate
  repeat' first | with_reducible exact Dev.Keeps.rfl | ((with_reducible apply Part.within_goal); exact Eq.refl true) | ((with_reducible apply Part.isIn_goal); exact Eq.refl true) | with_reducible apply Dev.Keeps.via (Dev.onUpd_keeps _ _) | with_reducible apply Dev.Keeps.via (Dev.activate_keeps _) | with_reducible apply Dev.Keeps.ite | with_reducible intro _ | extract_lets

theorem Dev.updAbandon_keeps (d : Dev) : d.Keeps (d.updAbandon) [.upd, .rUpd] := by
  unfold Dev.updAbandon
  repeat' first | with_reducible exact Dev.Keeps.rfl | ((with_reducible apply Part.within_goal); exact Eq.refl true) | ((with_reducible apply Part.isIn_goal); exact Eq.refl true) | with_reducible apply Dev.Keeps.via (Dev.endUpdate_keeps _ _) | with_reducible apply Dev.Keeps.ite | with_reducible intro _ | split | (dsimp +zetaDelta only; split)

theorem Dev.activationEntry_keeps (d : Dev) : d.Keeps (d.activationEntry) [.power, .upd, .lnk] := by
  unfold Dev.activationEntry
  repeat' first | with_reducible exact Dev.Keeps.rfl | ((with_reducible apply Part.within_goal); exact Eq.refl true) | ((with_reducible apply Part.isIn_goal); exact Eq.refl true) | with_reducible apply Dev.Keeps.via (Dev.armHeads_keeps _) | with_reducible apply Dev.Keeps.via (Dev.trigger_keeps _ _) | with_reducible apply Dev.Keeps.ite | with_reducible intro _

theorem Dev.activationTimeout_keeps (d : Dev) : d.Keeps (d.activationTimeout) [.upd, .recorder, .rUpd] := by
  unfold Dev.activationTimeout
  repeat' first | with_reducible exact Dev.Keeps.rfl | ((with_reducible apply Part.within_goal); exact Eq.refl true) | ((with_reducible apply Part.isIn_goal); exact Eq.refl true) | with_reducible apply Dev.Keeps.via (Dev.onUpd_keeps _ _) | with_reducible apply Dev.Keeps.raise | with_reducible apply Dev.Keeps.ite | with_reducible intro _

theorem Dev.healthConfirm_keeps (d : Dev) (data : Word) : d.Keeps (d.healthConfirm data) [.upd, .recorder, .lnk, .rUpd] := by
  unfold Dev.healthConfirm
  repeat' first | with_reducible exact Dev.Keeps.rfl | ((with_reducible apply Part.within_goal); exact Eq.refl true) | ((with_reducible apply Part.isIn_goal); exact Eq.refl true) | with_reducible apply Dev.Keeps.via (Dev.confirm_keeps _) | with_reducible apply Dev.Keeps.raiseAlways | with_reducible apply Dev.Keeps.ite | with_reducible intro _

end Sys2Proof.Machine
end

