-- ==== Sys2Proof/Laws/KeepsLocal.lean ====
section
/-! SUPPORT. Which parts of the device an operation can change: memories, local outputs, frames and vehicle steps. -/

namespace Sys2Proof.Machine

set_option Elab.async false

theorem Dev.stopTenant_keeps (d : Dev) (t : TenantId) : d.Keeps (d.stopTenant t) [.out, .veh, .rVeh] := by
  unfold Dev.stopTenant
  repeat' first | with_reducible exact Dev.Keeps.rfl | ((with_reducible apply Part.within_goal); exact Eq.refl true) | ((with_reducible apply Part.isIn_goal); exact Eq.refl true) | with_reducible apply Dev.Keeps.via (Dev.startStop_keeps _ _ _ _) | with_reducible apply Dev.Keeps.each | with_reducible intro _

theorem Dev.poisonResponse_keeps (d : Dev) (word : Nat) : d.Keeps (d.poisonResponse word) (.tenants :: .bill :: .mem :: .fresh :: .lbill :: .rMem :: .rEvr :: .rTen :: Part.trip) := by
  unfold Dev.poisonResponse
  repeat' first | with_reducible exact Dev.Keeps.rfl | ((with_reducible apply Part.within_goal); exact Eq.refl true) | ((with_reducible apply Part.isIn_goal); first | exact Eq.refl true | exact contains_of (regPart_bilTEvents) (Eq.refl true)) | with_reducible apply Dev.Keeps.via (Dev.retireBlock_keeps _ _) | with_reducible apply Dev.Keeps.via (Dev.onBilling_keeps _ _) | with_reducible apply Dev.Keeps.via (Dev.deviceCause_keeps _ _ _ _ _ _) | with_reducible apply Dev.Keeps.via (Dev.consumePoison_keeps _ _ _) | with_reducible apply Dev.Keeps.via (Dev.stopTenant_keeps _ _) | with_reducible apply Dev.Keeps.via (Dev.onTenant_keeps _ _ _) | with_reducible apply Dev.Keeps.via (Dev.onBill_keeps _ _ _) | with_reducible apply Dev.Keeps.raise | with_reducible apply Dev.Keeps.drew | with_reducible apply Dev.Keeps.ite | with_reducible intro _ | extract_lets | split | (dsimp +zetaDelta only; split)

theorem Dev.clearRewritten_keeps (d was : Dev) : d.Keeps (d.clearRewritten was) [.mem] := by
  unfold Dev.clearRewritten
  repeat' first | with_reducible exact Dev.Keeps.rfl | ((with_reducible apply Part.within_goal); exact Eq.refl true) | ((with_reducible apply Part.isIn_goal); exact Eq.refl true) | with_reducible apply Dev.Keeps.via (Dev.onMem_keeps _ _) | with_reducible apply Dev.Keeps.ite | with_reducible intro _

theorem Dev.poisonLedger_keeps (d : Dev) (word : Nat) : d.Keeps (d.poisonLedger word) (.tenants :: .bill :: .mem :: .fresh :: .lbill :: .rMem :: .rEvr :: .rTen :: Part.trip) := by
  unfold Dev.poisonLedger
  repeat' first | with_reducible exact Dev.Keeps.rfl | ((with_reducible apply Part.within_goal); exact Eq.refl true) | ((with_reducible apply Part.isIn_goal); exact Eq.refl true) | with_reducible apply Dev.Keeps.via (Dev.poisonResponse_keeps _ _) | with_reducible apply Dev.Keeps.via (Dev.onMem_keeps _ _) | with_reducible apply Dev.Keeps.raise | with_reducible apply Dev.Keeps.ite | with_reducible intro _

theorem Dev.ledgerRepair_keeps (d : Dev) : d.Keeps (d.ledgerRepair) [.recorder, .rMem] := by
  unfold Dev.ledgerRepair
  repeat' first | with_reducible exact Dev.Keeps.rfl | ((with_reducible apply Part.within_goal); exact Eq.refl true) | ((with_reducible apply Part.isIn_goal); exact Eq.refl true) | with_reducible apply Dev.Keeps.raise | with_reducible apply Dev.Keeps.count

theorem Dev.scrubLedgerNext_keeps (d : Dev) (word : Nat) : d.Keeps (d.scrubLedgerNext word) [.mem, .rMem] := by
  unfold Dev.scrubLedgerNext
  repeat' first | with_reducible exact Dev.Keeps.rfl | ((with_reducible apply Part.within_goal); exact Eq.refl true) | ((with_reducible apply Part.isIn_goal); exact Eq.refl true) | with_reducible apply Dev.Keeps.via (Dev.onMem_keeps _ _) | with_reducible apply Dev.Keeps.setField | with_reducible apply Dev.Keeps.ite | with_reducible intro _

theorem Dev.scrubWorkNext_keeps (d : Dev) (word : Nat) : d.Keeps (d.scrubWorkNext word) [.mem, .rMem] := by
  unfold Dev.scrubWorkNext
  repeat' first | with_reducible exact Dev.Keeps.rfl | ((with_reducible apply Part.within_goal); exact Eq.refl true) | ((with_reducible apply Part.isIn_goal); exact Eq.refl true) | with_reducible apply Dev.Keeps.via (Dev.onMem_keeps _ _) | with_reducible apply Dev.Keeps.setField | with_reducible apply Dev.Keeps.ite | with_reducible intro _

theorem Dev.readLedger_keeps (d : Dev) (word : Nat) (a b : Copy) : d.Keeps (d.readLedger word a b) (.tenants :: .bill :: .mem :: .fresh :: .lbill :: .rMem :: .rEvr :: .rTen :: Part.trip) := by
  unfold Dev.readLedger
  repeat' first | with_reducible exact Dev.Keeps.rfl | ((with_reducible apply Part.within_goal); exact Eq.refl true) | ((with_reducible apply Part.isIn_goal); exact Eq.refl true) | with_reducible apply Dev.Keeps.via (Dev.ledgerRepair_keeps _) | with_reducible apply Dev.Keeps.via (Dev.poisonLedger_keeps _ _) | with_reducible apply Dev.Keeps.ite | with_reducible intro _ | split | (dsimp +zetaDelta only; split)

theorem Dev.scrubLedger_keeps (d : Dev) (a b : Copy) : d.Keeps (d.scrubLedger a b) (.tenants :: .bill :: .mem :: .fresh :: .lbill :: .rMem :: .rEvr :: .rTen :: Part.trip) := by
  unfold Dev.scrubLedger
  repeat' first | with_reducible exact Dev.Keeps.rfl | ((with_reducible apply Part.within_goal); exact Eq.refl true) | ((with_reducible apply Part.isIn_goal); exact Eq.refl true) | with_reducible apply Dev.Keeps.via (Dev.scrubLedgerNext_keeps _ _) | with_reducible apply Dev.Keeps.via (Dev.readLedger_keeps _ _ _ _)

theorem Dev.scrubWork_keeps (d : Dev) (bad : Bool) : d.Keeps (d.scrubWork bad) [.recorder, .mem, .rMem] := by
  unfold Dev.scrubWork
  repeat' first | with_reducible exact Dev.Keeps.rfl | ((with_reducible apply Part.within_goal); exact Eq.refl true) | ((with_reducible apply Part.isIn_goal); exact Eq.refl true) | with_reducible apply Dev.Keeps.via (Dev.onMem_keeps _ _) | with_reducible apply Dev.Keeps.via (Dev.scrubWorkNext_keeps _ _) | with_reducible apply Dev.Keeps.raiseIf | with_reducible apply Dev.Keeps.ite | with_reducible intro _ | extract_lets

theorem Dev.vaultFailure_keeps (d : Dev) (slot : Nat) : d.Keeps (d.vaultFailure slot) [.tenants, .sec, .recorder, .rSec, .rTen] := by
  unfold Dev.vaultFailure
  repeat' first | with_reducible exact Dev.Keeps.rfl | ((with_reducible apply Part.within_goal); exact Eq.refl true) | ((with_reducible apply Part.isIn_goal); exact Eq.refl true) | with_reducible apply Dev.Keeps.via (Dev.onSec_keeps _ _) | with_reducible apply Dev.Keeps.via (Dev.emptyRoot_keeps _ _) | with_reducible apply Dev.Keeps.raise | with_reducible apply Dev.Keeps.ite | with_reducible intro _ | split | (dsimp +zetaDelta only; split)

theorem Dev.foundBad_keeps (d : Dev) (x : ScrubFound) : d.Keeps (d.foundBad x) (.tenants :: .bill :: .sec :: .mem :: .fresh :: .lbill :: .rSec :: .rMem :: .rEvr :: .rTen :: Part.trip) := by
  unfold Dev.foundBad
  repeat' first | with_reducible exact Dev.Keeps.rfl | ((with_reducible apply Part.within_goal); exact Eq.refl true) | ((with_reducible apply Part.isIn_goal); exact Eq.refl true) | with_reducible apply Dev.Keeps.via (Dev.readLedger_keeps _ _ _ _) | with_reducible apply Dev.Keeps.via (Dev.vaultFailure_keeps _ _) | split | (dsimp +zetaDelta only; split)

theorem Dev.firstPass_keeps (d : Dev) (found : List ScrubFound) : d.Keeps (d.firstPass found) (.tenants :: .bill :: .sec :: .mem :: .fresh :: .lbill :: .rSec :: .rMem :: .rEvr :: .rTen :: Part.trip) := by
  unfold Dev.firstPass
  repeat' first | with_reducible exact Dev.Keeps.rfl | ((with_reducible apply Part.within_goal); exact Eq.refl true) | ((with_reducible apply Part.isIn_goal); exact Eq.refl true) | with_reducible apply Dev.Keeps.via (Dev.scrubLedgerNext_keeps _ _) | with_reducible apply Dev.Keeps.via (Dev.foundBad_keeps _ _) | with_reducible apply Dev.Keeps.each | with_reducible intro _

theorem Dev.repairPage_keeps (d : Dev) (page : BitVec 16) (ok : Bool) : d.Keeps (d.repairPage page ok) (.mem :: .rMem :: Part.trip) := by
  unfold Dev.repairPage
  repeat' first | with_reducible exact Dev.Keeps.rfl | ((with_reducible apply Part.within_goal); exact Eq.refl true) | ((with_reducible apply Part.isIn_goal); exact Eq.refl true) | with_reducible apply Dev.Keeps.via (Dev.onMem_keeps _ _) | with_reducible apply Dev.Keeps.via (Dev.deviceCause_keeps _ _ _ _ _ _) | with_reducible apply Dev.Keeps.via (Dev.onPower_keeps _ _) | with_reducible apply Dev.Keeps.via (Dev.lastWord_keeps _ _ _) | with_reducible apply Dev.Keeps.raise | with_reducible apply Dev.Keeps.ite | with_reducible intro _

theorem Dev.norProgrammed_keeps (d : Dev) (ok : Bool) : d.Keeps (d.norProgrammed ok) [.bill, .recorder, .rEvr] := by
  unfold Dev.norProgrammed
  repeat' first | with_reducible exact Dev.Keeps.rfl | ((with_reducible apply Part.within_goal); exact Eq.refl true) | ((with_reducible apply Part.isIn_goal); exact Eq.refl true) | with_reducible apply Dev.Keeps.via (Dev.onRec_keeps _ _) | with_reducible apply Dev.Keeps.via (Dev.onBilling_keeps _ _) | with_reducible apply Dev.Keeps.raise | with_reducible apply Dev.Keeps.ite | with_reducible intro _ | extract_lets | split | (dsimp +zetaDelta only; split)

theorem Dev.norErasedDone_keeps (d : Dev) (ok : Bool) : d.Keeps (d.norErasedDone ok) [.recorder, .rEvr] := by
  unfold Dev.norErasedDone
  repeat' first | with_reducible exact Dev.Keeps.rfl | ((with_reducible apply Part.within_goal); exact Eq.refl true) | ((with_reducible apply Part.isIn_goal); exact Eq.refl true) | with_reducible apply Dev.Keeps.via (Dev.onRec_keeps _ _) | with_reducible apply Dev.Keeps.raise | with_reducible apply Dev.Keeps.ite | with_reducible intro _ | extract_lets

theorem Dev.onNs_keeps (d : Dev) (k : Fin 8) (f : Namespace → Namespace) : d.Keeps (d.onNs k f) [.archive] := by
  unfold Dev.onNs
  repeat' first | with_reducible exact Dev.Keeps.rfl | ((with_reducible apply Part.within_goal); exact Eq.refl true) | ((with_reducible apply Part.isIn_goal); exact Eq.refl true) | with_reducible apply Dev.Keeps.via (Dev.onArc_keeps _ _)

theorem Dev.arcFeed_keeps (d : Dev) (k : Fin 8) : d.Keeps (d.arcFeed k) [.sec, .recorder, .rSec] := by
  unfold Dev.arcFeed
  repeat' first | with_reducible exact Dev.Keeps.rfl | ((with_reducible apply Part.within_goal); exact Eq.refl true) | ((with_reducible apply Part.isIn_goal); exact Eq.refl true) | with_reducible apply Dev.Keeps.via (Dev.request_keeps _ _ _ _ _ _) | with_reducible apply Dev.Keeps.ite | with_reducible intro _ | extract_lets

theorem Dev.arcLost_keeps (d : Dev) (k : Fin 8) : d.Keeps (d.arcLost k) [.recorder, .archive, .rMem] := by
  unfold Dev.arcLost
  repeat' first | with_reducible exact Dev.Keeps.rfl | ((with_reducible apply Part.within_goal); exact Eq.refl true) | ((with_reducible apply Part.isIn_goal); exact Eq.refl true) | with_reducible apply Dev.Keeps.via (Dev.onNs_keeps _ _ _) | with_reducible apply Dev.Keeps.raise | with_reducible apply Dev.Keeps.ite | with_reducible intro _

theorem Dev.sealBlock_keeps (d : Dev) (k : Fin 8) : d.Keeps (d.sealBlock k) [.archive, .rMem] := by
  unfold Dev.sealBlock
  repeat' first | with_reducible exact Dev.Keeps.rfl | ((with_reducible apply Part.within_goal); exact Eq.refl true) | ((with_reducible apply Part.isIn_goal); first | exact Eq.refl true | exact contains_of (regPart_memArcNsEpoch (by first | exact Nat.lt_of_lt_of_le (Fin.isLt _) (by decide) | exact lt_of_range (by assumption) (by decide) | exact lt_of_range (by assumption) (Nat.le_trans (Role.channels_le _) (by decide)) | decide | omega | (simp at *; omega))) (Eq.refl true) | exact contains_of (regPart_memArcNsNext (by first | exact Nat.lt_of_lt_of_le (Fin.isLt _) (by decide) | exact lt_of_range (by assumption) (by decide) | exact lt_of_range (by assumption) (Nat.le_trans (Role.channels_le _) (by decide)) | decide | omega | (simp at *; omega))) (Eq.refl true)) | with_reducible apply Dev.Keeps.via (Dev.onNs_keeps _ _ _) | with_reducible apply Dev.Keeps.via (Dev.onArc_keeps _ _) | with_reducible apply Dev.Keeps.setReg | with_reducible apply Dev.Keeps.ite | with_reducible intro _ | extract_lets

theorem Dev.arcIssue_keeps (d : Dev) : d.Keeps (d.arcIssue) [.archive] := by
  unfold Dev.arcIssue
  repeat' first | with_reducible exact Dev.Keeps.rfl | ((with_reducible apply Part.within_goal); exact Eq.refl true) | ((with_reducible apply Part.isIn_goal); exact Eq.refl true) | with_reducible apply Dev.Keeps.via (Dev.onArc_keeps _ _)

theorem Dev.arcCompletion_keeps (d : Dev) (i : Fin 64) (ok : Bool) : d.Keeps (d.arcCompletion i ok) [.recorder, .archive, .rMem] := by
  unfold Dev.arcCompletion
  repeat' first | with_reducible exact Dev.Keeps.rfl | ((with_reducible apply Part.within_goal); exact Eq.refl true) | ((with_reducible apply Part.isIn_goal); exact Eq.refl true) | with_reducible apply Dev.Keeps.via (Dev.arcIssue_keeps _) | with_reducible apply Dev.Keeps.via (Dev.onArc_keeps _ _) | with_reducible apply Dev.Keeps.via (Dev.onNs_keeps _ _ _) | with_reducible apply Dev.Keeps.raise | with_reducible apply Dev.Keeps.ite | with_reducible intro _ | extract_lets | split | (dsimp +zetaDelta only; split)

theorem Dev.readEnds_keeps (d : Dev) (result page : Nat) : d.Keeps (d.readEnds result page) [.archive] := by
  unfold Dev.readEnds
  repeat' first | with_reducible exact Dev.Keeps.rfl | ((with_reducible apply Part.within_goal); exact Eq.refl true) | ((with_reducible apply Part.isIn_goal); exact Eq.refl true) | with_reducible apply Dev.Keeps.via (Dev.onArc_keeps _ _) | with_reducible apply Dev.Keeps.ite | with_reducible intro _

theorem Dev.arcTimeout_keeps (d : Dev) (i : Fin 64) : d.Keeps (d.arcTimeout i) [.recorder, .archive, .rMem] := by
  unfold Dev.arcTimeout
  repeat' first | with_reducible exact Dev.Keeps.rfl | ((with_reducible apply Part.within_goal); exact Eq.refl true) | ((with_reducible apply Part.isIn_goal); exact Eq.refl true) | with_reducible apply Dev.Keeps.via (Dev.readEnds_keeps _ _ _) | with_reducible apply Dev.Keeps.via (Dev.onArc_keeps _ _) | with_reducible apply Dev.Keeps.via (Dev.arcIssue_keeps _) | with_reducible apply Dev.Keeps.raise | with_reducible apply Dev.Keeps.raiseIf | with_reducible apply Dev.Keeps.ite | with_reducible intro _ | extract_lets | split | (dsimp +zetaDelta only; split)

theorem Dev.arcRead_keeps (d : Dev) (data : Word) : d.Keeps (d.arcRead data) [.archive] := by
  unfold Dev.arcRead
  repeat' first | with_reducible exact Dev.Keeps.rfl | ((with_reducible apply Part.within_goal); exact Eq.refl true) | ((with_reducible apply Part.isIn_goal); exact Eq.refl true) | with_reducible apply Dev.Keeps.via (Dev.onArc_keeps _ _) | with_reducible apply Dev.Keeps.ite | with_reducible intro _ | extract_lets | split | (dsimp +zetaDelta only; split)

theorem Dev.arcReadDone_keeps (d : Dev) (res : ArcRead) : d.Keeps (d.arcReadDone res) [.archive, .rMem] := by
  have he : ∀ n p, d.Keeps (d.readEnds n p) [.archive, .rMem] := fun n p => Dev.Keeps.via (Dev.readEnds_keeps _ _ _) Dev.Keeps.rfl (Eq.refl true)
  unfold Dev.arcReadDone
  split
  · exact Dev.Keeps.rfl
  · split
    · exact he _ _
    · extract_lets
      split
      · refine Dev.Keeps.ite (fun _ => ?_) fun _ => he _ _
        refine Dev.Keeps.via (Dev.onArc_keeps _ _) (Dev.Keeps.via (Dev.readEnds_keeps _ _ _) (Dev.Keeps.setRegs Dev.Keeps.rfl fun i hi => ?_) (Eq.refl true)) (Eq.refl true)
        rw [wordsOfBytes_length, slice_length] at hi
        exact contains_of (regPart_near hi (by decide) (by decide)) (Eq.refl true)
      · exact he _ _

theorem Dev.arcIdentify_keeps (d : Dev) (sizes : Vector Nat 8) (more : Bool) : d.Keeps (d.arcIdentify sizes more) [.recorder, .archive, .rMem] := by
  unfold Dev.arcIdentify
  repeat' first | with_reducible exact Dev.Keeps.rfl | ((with_reducible apply Part.within_goal); exact Eq.refl true) | ((with_reducible apply Part.isIn_goal); exact Eq.refl true) | with_reducible apply Dev.Keeps.via (Dev.onArc_keeps _ _) | with_reducible apply Dev.Keeps.raiseIf | with_reducible apply Dev.Keeps.ite | with_reducible intro _ | extract_lets

theorem Dev.arcGate_keeps (d : Dev) : d.Keeps (d.arcGate) [.archive] := by
  unfold Dev.arcGate
  repeat' first | with_reducible exact Dev.Keeps.rfl | ((with_reducible apply Part.within_goal); exact Eq.refl true) | ((with_reducible apply Part.isIn_goal); exact Eq.refl true) | with_reducible apply Dev.Keeps.via (Dev.onArc_keeps _ _) | with_reducible apply Dev.Keeps.via (Dev.arcIssue_keeps _) | with_reducible apply Dev.Keeps.ite | with_reducible intro _

theorem Dev.arcSample_keeps (d : Dev) (k : Fin 8) (bytes : List Byte) : d.Keeps (d.arcSample k bytes) [.sec, .recorder, .archive, .rSec, .rMem] := by
  unfold Dev.arcSample
  repeat' first | with_reducible exact Dev.Keeps.rfl | ((with_reducible apply Part.within_goal); exact Eq.refl true) | ((with_reducible apply Part.isIn_goal); exact Eq.refl true) | with_reducible apply Dev.Keeps.via (Dev.onNs_keeps _ _ _) | with_reducible apply Dev.Keeps.via (Dev.arcFeed_keeps _ _) | with_reducible apply Dev.Keeps.raise | with_reducible apply Dev.Keeps.count | with_reducible apply Dev.Keeps.ite | with_reducible intro _

theorem Dev.scrub_keeps (d : Dev) (t : ScrubTarget) : d.Keeps (d.scrub t) (.tenants :: .bill :: .sec :: .mem :: .fresh :: .lbill :: .rSec :: .rMem :: .rEvr :: .rTen :: Part.trip) := by
  unfold Dev.scrub
  repeat' first | with_reducible exact Dev.Keeps.rfl | ((with_reducible apply Part.within_goal); exact Eq.refl true) | ((with_reducible apply Part.isIn_goal); exact Eq.refl true) | with_reducible apply Dev.Keeps.via (Dev.scrubLedger_keeps _ _ _) | with_reducible apply Dev.Keeps.via (Dev.scrubWork_keeps _ _) | with_reducible apply Dev.Keeps.via (Dev.vaultFailure_keeps _ _) | with_reducible apply Dev.Keeps.ite | with_reducible intro _ | split | (dsimp +zetaDelta only; split)

theorem Dev.retest_keeps (d : Dev) : d.Keeps (d.retest) [.recorder] := by
  unfold Dev.retest
  repeat' first | with_reducible exact Dev.Keeps.rfl | ((with_reducible apply Part.within_goal); exact Eq.refl true) | ((with_reducible apply Part.isIn_goal); exact Eq.refl true) | with_reducible apply Dev.Keeps.via (Dev.onRec_keeps _ _) | with_reducible apply Dev.Keeps.ite | with_reducible intro _

theorem Dev.retestDone_keeps (d : Dev) (passed : BitVec 64) : d.Keeps (d.retestDone passed) [.recorder, .mem, .rEvr] := by
  unfold Dev.retestDone
  repeat' first | with_reducible exact Dev.Keeps.rfl | ((with_reducible apply Part.within_goal); exact Eq.refl true) | ((with_reducible apply Part.isIn_goal); exact Eq.refl true) | with_reducible apply Dev.Keeps.via (Dev.onRec_keeps _ _) | with_reducible apply Dev.Keeps.via (Dev.onMem_keeps _ _) | with_reducible apply Dev.Keeps.raise | with_reducible apply Dev.Keeps.ite | with_reducible intro _ | extract_lets

theorem Dev.clearLastWords_keeps (d : Dev) : d.Keeps (d.clearLastWords) [.mem] := by
  unfold Dev.clearLastWords
  repeat' first | with_reducible exact Dev.Keeps.rfl | ((with_reducible apply Part.within_goal); exact Eq.refl true) | ((with_reducible apply Part.isIn_goal); exact Eq.refl true) | with_reducible apply Dev.Keeps.via (Dev.onMem_keeps _ _)

theorem Dev.readPoisonAddr_keeps (d : Dev) : d.Keeps (d.readPoisonAddr) [.mem] := by
  unfold Dev.readPoisonAddr
  repeat' first | with_reducible exact Dev.Keeps.rfl | ((with_reducible apply Part.within_goal); exact Eq.refl true) | ((with_reducible apply Part.isIn_goal); exact Eq.refl true) | with_reducible apply Dev.Keeps.via (Dev.onMem_keeps _ _)

theorem Dev.programDone_keeps (d : Dev) (ok : Bool) : d.Keeps (d.programDone ok) [.bill, .sec, .recorder, .rSec, .rEvr] := by
  unfold Dev.programDone
  repeat' first | with_reducible exact Dev.Keeps.rfl | ((with_reducible apply Part.within_goal); exact Eq.refl true) | ((with_reducible apply Part.isIn_goal); exact Eq.refl true) | with_reducible apply Dev.Keeps.via (Dev.norProgrammed_keeps _ _) | with_reducible apply Dev.Keeps.via (Dev.arcFeed_keeps _ _) | with_reducible apply Dev.Keeps.each | with_reducible intro _

theorem Dev.blockSealed_keeps (d : Dev) (k : Fin 8) : d.Keeps (d.blockSealed k) [.sec, .recorder, .archive, .rSec, .rMem] := by
  unfold Dev.blockSealed
  repeat' first | with_reducible exact Dev.Keeps.rfl | ((with_reducible apply Part.within_goal); exact Eq.refl true) | ((with_reducible apply Part.isIn_goal); exact Eq.refl true) | with_reducible apply Dev.Keeps.via (Dev.finish_keeps _ _) | with_reducible apply Dev.Keeps.via (Dev.arcFeed_keeps _ _) | with_reducible apply Dev.Keeps.via (Dev.arcIssue_keeps _) | with_reducible apply Dev.Keeps.via (Dev.sealBlock_keeps _ _) | with_reducible apply Dev.Keeps.ite | with_reducible intro _ | extract_lets

theorem Dev.arcTrained_keeps (d : Dev) (gen : Fin 4) (sizes : Vector Nat 8) (more : Bool) : d.Keeps (d.arcTrained gen sizes more) [.recorder, .archive, .rMem] := by
  unfold Dev.arcTrained
  repeat' first | with_reducible exact Dev.Keeps.rfl | ((with_reducible apply Part.within_goal); exact Eq.refl true) | ((with_reducible apply Part.isIn_goal); exact Eq.refl true) | with_reducible apply Dev.Keeps.via (Dev.arcIssue_keeps _) | with_reducible apply Dev.Keeps.via (Dev.arcIdentify_keeps _ _ _) | with_reducible apply Dev.Keeps.via (Dev.onArc_keeps _ _) | with_reducible apply Dev.Keeps.ite | with_reducible intro _

theorem Dev.commitRow_keeps (d : Dev) (c : Nat) : d.Keeps (d.commitRow c) [.rLio] := by
  unfold Dev.commitRow
  repeat' first | with_reducible exact Dev.Keeps.rfl | ((with_reducible apply Part.within_goal); exact Eq.refl true) | ((with_reducible apply Part.isIn_goal); first | exact Eq.refl true | exact contains_of (regPart_lioImage (by first | exact Nat.lt_of_lt_of_le (Fin.isLt _) (by decide) | exact lt_of_range (by assumption) (by decide) | exact lt_of_range (by assumption) (Nat.le_trans (Role.channels_le _) (by decide)) | decide | omega | (simp at *; omega))) (Eq.refl true)) | with_reducible apply Dev.Keeps.setReg | with_reducible apply Dev.Keeps.each | with_reducible intro _ | extract_lets

theorem Dev.setDirty_keeps (d : Dev) (c : Nat) (on : Bool) : d.Keeps (d.setDirty c on) [.rLio] := by
  unfold Dev.setDirty
  repeat' first | with_reducible exact Dev.Keeps.rfl | ((with_reducible apply Part.within_goal); exact Eq.refl true) | ((with_reducible apply Part.isIn_goal); exact Eq.refl true) | with_reducible apply Dev.Keeps.setField

theorem Dev.Keeps.foldl_mem {α : Type} {d : Dev} {l : List Part} {f : Dev → α → Dev} :
    ∀ (xs : List α) (e : Dev), (∀ e x, x ∈ xs → Dev.Keeps e (f e x) l) → d.Keeps e l → d.Keeps (xs.foldl f e) l
  | [], _, _, h => h
  | x :: xs, e, hf, h => Dev.Keeps.foldl_mem xs (f e x) (fun e y hy => hf e y (by simp [hy])) (h.trans (hf e x (by simp)) (fun _ hp => hp))

theorem Dev.readBack_keeps (d : Dev) (differ : BitVec 68) : d.Keeps (d.readBack differ) [.disp, .recorder, .rLio] := by
  unfold Dev.readBack
  extract_lets differs
  refine Dev.Keeps.foldl_mem _ _ (fun e b hb => ?_) Dev.Keeps.rfl
  have hb : b < 68 := List.mem_range.1 hb
  have ha : Part.isIn [.disp, .recorder, .rLio] (regPart (Reg.lioDispPinfault0 + 4 * (b / 32))) = true :=
    contains_of (q := .rLio) (regPart_dev (k := 13) (by decide) (by unfold Reg.lioDispPinfault0; omega)) (Eq.refl true)
  repeat' first | with_reducible exact Dev.Keeps.rfl | with_reducible exact ha | ((with_reducible apply Part.within_goal); exact Eq.refl true) | ((with_reducible apply Part.isIn_goal); exact Eq.refl true) | with_reducible apply Dev.Keeps.via (Dev.onDisp_keeps _ _) | with_reducible apply Dev.Keeps.raise | with_reducible apply Dev.Keeps.setField | with_reducible apply Dev.Keeps.ite | with_reducible intro _ | extract_lets

theorem Dev.startPass_keeps (d : Dev) : d.Keeps (d.startPass) [.disp, .scroll, .rLio] := by
  unfold Dev.startPass
  repeat' first | with_reducible exact Dev.Keeps.rfl | ((with_reducible apply Part.within_goal); exact Eq.refl true) | ((with_reducible apply Part.isIn_goal); exact Eq.refl true) | with_reducible apply Dev.Keeps.via (Dev.onScroll_keeps _ _) | with_reducible apply Dev.Keeps.via (Dev.onDisp_keeps _ _) | with_reducible apply Dev.Keeps.via (Dev.setDirty_keeps _ _ _) | with_reducible apply Dev.Keeps.ite | with_reducible intro _ | extract_lets | split | (dsimp +zetaDelta only; split)

theorem Dev.displayFrame_keeps (d : Dev) (differ : BitVec 68) : d.Keeps (d.displayFrame differ) [.disp, .scroll, .recorder, .rLio] := by
  unfold Dev.displayFrame
  repeat' first | with_reducible exact Dev.Keeps.rfl | ((with_reducible apply Part.within_goal); exact Eq.refl true) | ((with_reducible apply Part.isIn_goal); first | exact Eq.refl true | exact contains_of (regPart_lioImage (by first | exact Nat.lt_of_lt_of_le (Fin.isLt _) (by decide) | exact lt_of_range (by assumption) (by decide) | exact lt_of_range (by assumption) (Nat.le_trans (Role.channels_le _) (by decide)) | decide | omega | (simp at *; omega))) (Eq.refl true)) | with_reducible apply Dev.Keeps.via (Dev.onDisp_keeps _ _) | with_reducible apply Dev.Keeps.via (Dev.startPass_keeps _) | with_reducible apply Dev.Keeps.via (Dev.readBack_keeps _ _) | with_reducible apply Dev.Keeps.setReg | with_reducible apply Dev.Keeps.raise | with_reducible apply Dev.Keeps.each | with_reducible apply Dev.Keeps.ite | with_reducible intro _ | extract_lets

theorem Dev.addStress_keeps (d : Dev) (c n : Nat) : d.Keeps (d.addStress c n) [.disp] := by
  unfold Dev.addStress
  repeat' first | with_reducible exact Dev.Keeps.rfl | ((with_reducible apply Part.within_goal); exact Eq.refl true) | ((with_reducible apply Part.isIn_goal); exact Eq.refl true) | with_reducible apply Dev.Keeps.via (Dev.onDisp_keeps _ _) | with_reducible apply Dev.Keeps.ite | with_reducible intro _

theorem Dev.pulseEnd_keeps (d : Dev) : d.Keeps (d.pulseEnd) [.disp, .scroll, .rLio] := by
  unfold Dev.pulseEnd
  repeat' first | with_reducible exact Dev.Keeps.rfl | ((with_reducible apply Part.within_goal); exact Eq.refl true) | ((with_reducible apply Part.isIn_goal); exact Eq.refl true) | with_reducible apply Dev.Keeps.via (Dev.onDisp_keeps _ _) | with_reducible apply Dev.Keeps.via (Dev.setDirty_keeps _ _ _) | with_reducible apply Dev.Keeps.via (Dev.commitRow_keeps _ _) | with_reducible apply Dev.Keeps.via (Dev.addStress_keeps _ _ _) | with_reducible apply Dev.Keeps.via (Dev.startPass_keeps _) | with_reducible apply Dev.Keeps.ite | with_reducible intro _ | extract_lets | split | (dsimp +zetaDelta only; split)

theorem Dev.glassSecond_keeps (d was : Dev) : d.Keeps (d.glassSecond was) [.disp, .scroll] := by
  unfold Dev.glassSecond
  repeat' first | with_reducible exact Dev.Keeps.rfl | ((with_reducible apply Part.within_goal); exact Eq.refl true) | ((with_reducible apply Part.isIn_goal); exact Eq.refl true) | with_reducible apply Dev.Keeps.via (Dev.addStress_keeps _ _ _) | with_reducible apply Dev.Keeps.via (Dev.onScroll_keeps _ _) | with_reducible apply Dev.Keeps.each | with_reducible apply Dev.Keeps.ite | with_reducible intro _ | extract_lets

theorem Dev.displayGate_keeps (d : Dev) (was : Dev) : d.Keeps (d.displayGate was) [.disp, .scroll] := by
  unfold Dev.displayGate
  repeat' first | with_reducible exact Dev.Keeps.rfl | ((with_reducible apply Part.within_goal); exact Eq.refl true) | ((with_reducible apply Part.isIn_goal); exact Eq.refl true) | with_reducible apply Dev.Keeps.via (Dev.onDisp_keeps _ _) | with_reducible apply Dev.Keeps.via (Dev.onScroll_keeps _ _) | with_reducible apply Dev.Keeps.ite | with_reducible intro _ | extract_lets | split | (dsimp +zetaDelta only; split)

theorem Dev.vlcdUpdate_keeps (d : Dev) : d.Keeps (d.vlcdUpdate) [.disp, .recorder, .fresh, .rLio] := by
  unfold Dev.vlcdUpdate
  repeat' first | with_reducible exact Dev.Keeps.rfl | ((with_reducible apply Part.within_goal); exact Eq.refl true) | ((with_reducible apply Part.isIn_goal); exact Eq.refl true) | with_reducible apply Dev.Keeps.via (Dev.onDisp_keeps _ _) | with_reducible apply Dev.Keeps.raiseIf | with_reducible apply Dev.Keeps.drew | with_reducible apply Dev.Keeps.foldl | with_reducible intro _ | extract_lets

theorem Dev.moveTo_keeps (d was : Dev) (sec item : Nat) : d.Keeps (d.moveTo was sec item) [.scroll] := by
  unfold Dev.moveTo
  repeat' first | with_reducible exact Dev.Keeps.rfl | ((with_reducible apply Part.within_goal); exact Eq.refl true) | ((with_reducible apply Part.isIn_goal); exact Eq.refl true) | with_reducible apply Dev.Keeps.via (Dev.onScroll_keeps _ _)

theorem Dev.advance_keeps (d was : Dev) (liveOnly : Bool) : d.Keeps (d.advance was liveOnly) [.scroll] := by
  unfold Dev.advance
  repeat' first | with_reducible exact Dev.Keeps.rfl | ((with_reducible apply Part.within_goal); exact Eq.refl true) | ((with_reducible apply Part.isIn_goal); exact Eq.refl true) | with_reducible apply Dev.Keeps.via (Dev.moveTo_keeps _ _ _ _) | with_reducible apply Dev.Keeps.ite | with_reducible intro _ | extract_lets

theorem Dev.keyMeasured_keeps (d : Dev) (k : Fin 2) (meas : BitVec 16) : d.Keeps (d.keyMeasured k meas) [.keys, .recorder, .rLio] := by
  unfold Dev.keyMeasured
  repeat' first | with_reducible exact Dev.Keeps.rfl | ((with_reducible apply Part.within_goal); exact Eq.refl true) | ((with_reducible apply Part.isIn_goal); exact Eq.refl true) | with_reducible apply Dev.Keeps.via (Dev.onKey_keeps _ _ _) | with_reducible apply Dev.Keeps.raise | with_reducible apply Dev.Keeps.raiseIf | with_reducible apply Dev.Keeps.countField | with_reducible apply Dev.Keeps.ite | with_reducible intro _ | extract_lets

theorem Dev.keyTouched_keeps (d was : Dev) (k : Fin 2) : d.Keeps (d.keyTouched was k) [.scroll, .keys] := by
  unfold Dev.keyTouched
  repeat' first | with_reducible exact Dev.Keeps.rfl | ((with_reducible apply Part.within_goal); exact Eq.refl true) | ((with_reducible apply Part.isIn_goal); exact Eq.refl true) | with_reducible apply Dev.Keeps.via (Dev.onKey_keeps _ _ _) | with_reducible apply Dev.Keeps.via (Dev.onScroll_keeps _ _) | with_reducible apply Dev.Keeps.ite | with_reducible intro _ | extract_lets

theorem Dev.keyReleased_keeps (d was : Dev) (k : Fin 2) : d.Keeps (d.keyReleased was k) [.scroll, .keys] := by
  unfold Dev.keyReleased
  repeat' first | with_reducible exact Dev.Keeps.rfl | ((with_reducible apply Part.within_goal); exact Eq.refl true) | ((with_reducible apply Part.isIn_goal); exact Eq.refl true) | with_reducible apply Dev.Keeps.via (Dev.onKey_keeps _ _ _) | with_reducible apply Dev.Keeps.via (Dev.onScroll_keeps _ _) | with_reducible apply Dev.Keeps.via (Dev.advance_keeps _ _ _) | with_reducible apply Dev.Keeps.ite | with_reducible intro _ | extract_lets

theorem Dev.keyLong_keeps (d was : Dev) : d.Keeps (d.keyLong was) [.scroll, .keys] := by
  unfold Dev.keyLong
  repeat' first | with_reducible exact Dev.Keeps.rfl | ((with_reducible apply Part.within_goal); exact Eq.refl true) | ((with_reducible apply Part.isIn_goal); exact Eq.refl true) | with_reducible apply Dev.Keeps.via (Dev.onScroll_keeps _ _) | with_reducible apply Dev.Keeps.via (Dev.moveTo_keeps _ _ _ _) | with_reducible apply Dev.Keeps.via (Dev.onKey_keeps _ _ _) | with_reducible apply Dev.Keeps.ite | with_reducible intro _ | extract_lets

theorem Dev.storeKeys_keeps (d : Dev) : d.Keeps (d.storeKeys) [.keys] := by
  unfold Dev.storeKeys
  repeat' first | with_reducible exact Dev.Keeps.rfl | ((with_reducible apply Part.within_goal); exact Eq.refl true) | ((with_reducible apply Part.isIn_goal); exact Eq.refl true) | with_reducible apply Dev.Keeps.via (Dev.onKey_keeps _ _ _) | with_reducible apply Dev.Keeps.each | with_reducible intro _

theorem Dev.auxFault_keeps (d : Dev) (n : LinkId) (k : Fin 4) : d.Keeps (d.auxFault n k) [.aux] := by
  unfold Dev.auxFault
  repeat' first | with_reducible exact Dev.Keeps.rfl | ((with_reducible apply Part.within_goal); exact Eq.refl true) | ((with_reducible apply Part.isIn_goal); exact Eq.refl true) | with_reducible apply Dev.Keeps.via (Dev.onAux_keeps _ _ _ _) | with_reducible apply Dev.Keeps.via (Dev.auxOff_keeps _ _ _)

theorem Dev.auxBlocked_keeps (d : Dev) (n : LinkId) (k : Fin 4) : d.Keeps (d.auxBlocked n k) [.recorder, .aux, .rAux] := by
  unfold Dev.auxBlocked
  repeat' first | with_reducible exact Dev.Keeps.rfl | ((with_reducible apply Part.within_goal); exact Eq.refl true) | ((with_reducible apply Part.isIn_goal); first | exact Eq.refl true | exact contains_of (regPart_auxEvents (Nat.lt_of_lt_of_le (Fin.isLt _) (by decide))) (Eq.refl true)) | with_reducible apply Dev.Keeps.via (Dev.onAux_keeps _ _ _ _) | with_reducible apply Dev.Keeps.via (Dev.auxOff_keeps _ _ _) | with_reducible apply Dev.Keeps.via (Dev.auxFault_keeps _ _ _) | with_reducible apply Dev.Keeps.raise | with_reducible apply Dev.Keeps.ite | with_reducible intro _ | extract_lets

theorem Dev.auxFrame_keeps (d : Dev) (n : LinkId) (k : Fin 4) : d.Keeps (d.auxFrame n k) [.recorder, .aux, .rAux] := by
  unfold Dev.auxFrame
  repeat' first | with_reducible exact Dev.Keeps.rfl | ((with_reducible apply Part.within_goal); exact Eq.refl true) | ((with_reducible apply Part.isIn_goal); first | exact Eq.refl true | exact contains_of (regPart_auxEvents (Nat.lt_of_lt_of_le (Fin.isLt _) (by decide))) (Eq.refl true)) | with_reducible apply Dev.Keeps.via (Dev.onAux_keeps _ _ _ _) | with_reducible apply Dev.Keeps.via (Dev.auxOff_keeps _ _ _) | with_reducible apply Dev.Keeps.via (Dev.auxFault_keeps _ _ _) | with_reducible apply Dev.Keeps.raise | with_reducible apply Dev.Keeps.ite | with_reducible intro _ | extract_lets

theorem Dev.tachState_keeps (d : Dev) (n : LinkId) (k : Fin 4) : d.Keeps (d.tachState n k) [.recorder, .aux, .rAux] := by
  unfold Dev.tachState
  repeat' first | with_reducible exact Dev.Keeps.rfl | ((with_reducible apply Part.within_goal); exact Eq.refl true) | ((with_reducible apply Part.isIn_goal); first | exact Eq.refl true | exact contains_of (regPart_auxEvents (Nat.lt_of_lt_of_le (Fin.isLt _) (by decide))) (Eq.refl true)) | with_reducible apply Dev.Keeps.via (Dev.onAux_keeps _ _ _ _) | with_reducible apply Dev.Keeps.raise | with_reducible apply Dev.Keeps.ite | with_reducible intro _ | extract_lets | split | (dsimp +zetaDelta only; split)

theorem Dev.tachJudge_keeps (d : Dev) (n : LinkId) (k : Fin 4) : d.Keeps (d.tachJudge n k) [.recorder, .aux, .rAux] := by
  unfold Dev.tachJudge
  repeat' first | with_reducible exact Dev.Keeps.rfl | ((with_reducible apply Part.within_goal); exact Eq.refl true) | ((with_reducible apply Part.isIn_goal); exact Eq.refl true) | with_reducible apply Dev.Keeps.via (Dev.onAux_keeps _ _ _ _) | with_reducible apply Dev.Keeps.via (Dev.tachState_keeps _ _ _)

theorem Dev.auxCommand_keeps (d : Dev) (n : LinkId) (data : Word) : d.Keeps (d.auxCommand n data) [.aux, .rAux] := by
  unfold Dev.auxCommand
  repeat' first | with_reducible exact Dev.Keeps.rfl | ((with_reducible apply Part.within_goal); exact Eq.refl true) | ((with_reducible apply Part.isIn_goal); first | exact Eq.refl true | exact contains_of (regPart_auxCmd (Nat.lt_of_lt_of_le (Fin.isLt _) (by decide))) (Eq.refl true)) | with_reducible apply Dev.Keeps.via (Dev.onAux_keeps _ _ _ _) | with_reducible apply Dev.Keeps.via (Dev.auxOn_keeps _ _ _ _) | with_reducible apply Dev.Keeps.via (Dev.auxOff_keeps _ _ _) | with_reducible apply Dev.Keeps.setField | with_reducible apply Dev.Keeps.each | with_reducible apply Dev.Keeps.ite | with_reducible intro _ | extract_lets

theorem Dev.auxIdle_keeps (d : Dev) (n : LinkId) : d.Keeps (d.auxIdle n) [.aux] := by
  unfold Dev.auxIdle
  repeat' first | with_reducible exact Dev.Keeps.rfl | ((with_reducible apply Part.within_goal); exact Eq.refl true) | ((with_reducible apply Part.isIn_goal); exact Eq.refl true) | with_reducible apply Dev.Keeps.via (Dev.onAux_keeps _ _ _ _) | with_reducible apply Dev.Keeps.each | with_reducible apply Dev.Keeps.ite | with_reducible intro _

theorem Dev.pilotFrame_keeps (d : Dev) (n : LinkId) : d.Keeps (d.pilotFrame n) [.veh] := by
  unfold Dev.pilotFrame
  repeat' first | with_reducible exact Dev.Keeps.rfl | ((with_reducible apply Part.within_goal); exact Eq.refl true) | ((with_reducible apply Part.isIn_goal); exact Eq.refl true) | with_reducible apply Dev.Keeps.via (Dev.onVeh_keeps _ _ _) | with_reducible apply Dev.Keeps.ite | with_reducible intro _ | extract_lets

theorem Dev.enterConfirm_keeps (d : Dev) (n : LinkId) : d.Keeps (d.enterConfirm n) [.lnk] := by
  unfold Dev.enterConfirm
  repeat' first | with_reducible exact Dev.Keeps.rfl | ((with_reducible apply Part.within_goal); exact Eq.refl true) | ((with_reducible apply Part.isIn_goal); exact Eq.refl true) | with_reducible apply Dev.Keeps.via (Dev.onLnk_keeps _ _ _) | with_reducible apply Dev.Keeps.ite | with_reducible intro _ | extract_lets

theorem Dev.failedTick_keeps (d : Dev) (n : LinkId) : d.Keeps (d.failedTick n) [.lnk, .rx, .met, .rLnk] := by
  unfold Dev.failedTick
  repeat' first | with_reducible exact Dev.Keeps.rfl | ((with_reducible apply Part.within_goal); exact Eq.refl true) | ((with_reducible apply Part.isIn_goal); first | exact Eq.refl true | exact contains_of (regPart_lnkFailRx (Nat.lt_of_lt_of_le (Fin.isLt _) (by decide))) (Eq.refl true)) | with_reducible apply Dev.Keeps.via (Dev.onLnk_keeps _ _ _) | with_reducible apply Dev.Keeps.via (Dev.onMet_keeps _ _ _) | with_reducible apply Dev.Keeps.count | with_reducible apply Dev.Keeps.onLink | (intro p hp; cases p <;> first | exact Eq.refl _ | exact True.intro | exact absurd (by decide) hp) | with_reducible apply Dev.Keeps.applyIf | with_reducible apply Dev.Keeps.ite | with_reducible intro _ | extract_lets

theorem Dev.judgeMissing_keeps (d : Dev) (n : LinkId) : d.Keeps (d.judgeMissing n) [.lnk, .rx, .met, .rLnk] := by
  unfold Dev.judgeMissing
  repeat' first | with_reducible exact Dev.Keeps.rfl | ((with_reducible apply Part.within_goal); exact Eq.refl true) | ((with_reducible apply Part.isIn_goal); exact Eq.refl true) | with_reducible apply Dev.Keeps.via (Dev.enterConfirm_keeps _ _) | with_reducible apply Dev.Keeps.via (Dev.failedTick_keeps _ _) | with_reducible apply Dev.Keeps.ite | with_reducible intro _ | extract_lets

theorem Dev.takeFrame_keeps (d : Dev) (n : LinkId) (bs : List Block) : d.Keeps (d.takeFrame n bs) [.alloc, .prot, .recorder, .lnk, .hs, .rx, .cmd, .met, .group, .out, .con, .veh, .aux, .rAlc, .rLnk, .rAux] := by
  unfold Dev.takeFrame
  repeat' first | with_reducible exact Dev.Keeps.rfl | ((with_reducible apply Part.within_goal); exact Eq.refl true) | ((with_reducible apply Part.isIn_goal); first | exact Eq.refl true | exact contains_of (regPart_lnkEvents (Nat.lt_of_lt_of_le (Fin.isLt _) (by decide))) (Eq.refl true)) | with_reducible apply Dev.Keeps.via (Dev.onMet_keeps _ _ _) | with_reducible apply Dev.Keeps.via (Dev.pilotFrame_keeps _ _) | with_reducible apply Dev.Keeps.via (Dev.auxFrame_keeps _ _ _) | with_reducible apply Dev.Keeps.via (Dev.withdraw_keeps _ _ _) | with_reducible apply Dev.Keeps.raiseIf | with_reducible apply Dev.Keeps.each | with_reducible apply Dev.Keeps.onLink | (intro p hp; cases p <;> first | exact Eq.refl _ | exact True.intro | exact absurd (by decide) hp) | with_reducible apply Dev.Keeps.ite | with_reducible intro _ | extract_lets | split | (dsimp +zetaDelta only; split)

theorem Dev.askIdentity_keeps (d : Dev) (n : LinkId) : d.Keeps (d.askIdentity n) [.lnk] := by
  unfold Dev.askIdentity
  repeat' first | with_reducible exact Dev.Keeps.rfl | ((with_reducible apply Part.within_goal); exact Eq.refl true) | ((with_reducible apply Part.isIn_goal); exact Eq.refl true) | with_reducible apply Dev.Keeps.via (Dev.queueReq_keeps _ _ _ _ _)

theorem Dev.goodFrame_keeps (d : Dev) (n : LinkId) (bs : List Block) : d.Keeps (d.goodFrame n bs) [.alloc, .prot, .recorder, .lnk, .hs, .rx, .cmd, .met, .group, .out, .con, .veh, .aux, .rAlc, .rLnk, .rAux] := by
  unfold Dev.goodFrame
  repeat' first | with_reducible exact Dev.Keeps.rfl | ((with_reducible apply Part.within_goal); exact Eq.refl true) | ((with_reducible apply Part.isIn_goal); exact Eq.refl true) | with_reducible apply Dev.Keeps.via (Dev.onLnk_keeps _ _ _) | with_reducible apply Dev.Keeps.via (Dev.takeFrame_keeps _ _ _) | with_reducible apply Dev.Keeps.via (Dev.askIdentity_keeps _ _) | with_reducible apply Dev.Keeps.ite | with_reducible intro _ | extract_lets

theorem Dev.frame_keeps (d : Dev) (n : LinkId) (bs : List Block) : d.Keeps (d.frame n bs) [.alloc, .prot, .recorder, .lnk, .hs, .rx, .cmd, .met, .group, .out, .con, .veh, .aux, .rAlc, .rLnk, .rAux] := by
  unfold Dev.frame
  repeat' first | with_reducible exact Dev.Keeps.rfl | ((with_reducible apply Part.within_goal); exact Eq.refl true) | ((with_reducible apply Part.isIn_goal); first | exact Eq.refl true | exact contains_of (regPart_lnkBadCtrl (Nat.lt_of_lt_of_le (Fin.isLt _) (by decide))) (Eq.refl true) | exact contains_of (regPart_lnkEvents (Nat.lt_of_lt_of_le (Fin.isLt _) (by decide))) (Eq.refl true)) | with_reducible apply Dev.Keeps.via (Dev.enterConfirm_keeps _ _) | with_reducible apply Dev.Keeps.via (Dev.onLnk_keeps _ _ _) | with_reducible apply Dev.Keeps.via (Dev.goodFrame_keeps _ _ _) | with_reducible apply Dev.Keeps.via (Dev.failedTick_keeps _ _) | with_reducible apply Dev.Keeps.raise | with_reducible apply Dev.Keeps.count | with_reducible apply Dev.Keeps.ite | with_reducible intro _ | extract_lets

theorem Dev.alarm_keeps (d : Dev) (n : LinkId) (arg : BitVec 16) : d.Keeps (d.alarm n arg) Part.trip := by
  unfold Dev.alarm
  repeat' first | with_reducible exact Dev.Keeps.rfl | ((with_reducible apply Part.within_goal); exact Eq.refl true) | ((with_reducible apply Part.isIn_goal); first | exact Eq.refl true | exact contains_of (regPart_lnkAlarmLast (Nat.lt_of_lt_of_le (Fin.isLt _) (by decide))) (Eq.refl true) | exact contains_of (regPart_lnkEvents (Nat.lt_of_lt_of_le (Fin.isLt _) (by decide))) (Eq.refl true)) | with_reducible apply Dev.Keeps.via (Dev.enterConfirm_keeps _ _) | with_reducible apply Dev.Keeps.via (Dev.onLnk_keeps _ _ _) | with_reducible apply Dev.Keeps.via (Dev.onProt_keeps _ _ _) | with_reducible apply Dev.Keeps.causeOn | with_reducible apply Dev.Keeps.setReg | with_reducible apply Dev.Keeps.ite | with_reducible intro _ | extract_lets

theorem Dev.trainA_keeps (d : Dev) (n : LinkId) (arg : BitVec 16) : d.Keeps (d.trainA n arg) [.lnk, .rLnk] := by
  unfold Dev.trainA
  repeat' first | with_reducible exact Dev.Keeps.rfl | ((with_reducible apply Part.within_goal); exact Eq.refl true) | ((with_reducible apply Part.isIn_goal); first | exact Eq.refl true | exact contains_of (regPart_lnkRtt (Nat.lt_of_lt_of_le (Fin.isLt _) (by decide))) (Eq.refl true)) | with_reducible apply Dev.Keeps.via (Dev.onLnk_keeps _ _ _) | with_reducible apply Dev.Keeps.setReg | with_reducible apply Dev.Keeps.ite | with_reducible intro _

theorem Dev.trainB_keeps (d : Dev) (n : LinkId) (marker : BitVec 16) (rtt : Word) : d.Keeps (d.trainB n marker rtt) [.fresh, .lnk, .rLnk] := by
  unfold Dev.trainB
  repeat' first | with_reducible exact Dev.Keeps.rfl | ((with_reducible apply Part.within_goal); exact Eq.refl true) | ((with_reducible apply Part.isIn_goal); first | exact Eq.refl true | exact contains_of (regPart_lnkRtt (Nat.lt_of_lt_of_le (Fin.isLt _) (by decide))) (Eq.refl true)) | with_reducible apply Dev.Keeps.via (Dev.onLnk_keeps _ _ _) | with_reducible apply Dev.Keeps.setReg | with_reducible apply Dev.Keeps.drew | with_reducible apply Dev.Keeps.ite | with_reducible intro _ | extract_lets

theorem Dev.trainDone_keeps (d : Dev) (n : LinkId) : d.Keeps (d.trainDone n) [.alloc, .prot, .recorder, .lnk, .cmd, .group, .out, .con, .veh, .lprot, .ltag, .rAlc, .rTag, .rLnk, .rVeh] := by
  unfold Dev.trainDone
  repeat' first | with_reducible exact Dev.Keeps.rfl | ((with_reducible apply Part.within_goal); exact Eq.refl true) | ((with_reducible apply Part.isIn_goal); first | exact Eq.refl true | exact contains_of (regPart_lnkEvents (Nat.lt_of_lt_of_le (Fin.isLt _) (by decide))) (Eq.refl true) | exact contains_of (regPart_lnkHeadFw (Nat.lt_of_lt_of_le (Fin.isLt _) (by decide))) (Eq.refl true) | exact contains_of (regPart_lnkHeadId (Nat.lt_of_lt_of_le (Fin.isLt _) (by decide))) (Eq.refl true) | exact contains_of (regPart_tagLEvents (Nat.lt_of_lt_of_le (Fin.isLt _) (by decide))) (Eq.refl true)) | with_reducible apply Dev.Keeps.via (Dev.onLnk_keeps _ _ _) | with_reducible apply Dev.Keeps.via (Dev.startThresholds_keeps _ _) | with_reducible apply Dev.Keeps.via (Dev.queueReq_keeps _ _ _ _ _) | with_reducible apply Dev.Keeps.via (Dev.holdLink_keeps _ _ _) | with_reducible apply Dev.Keeps.via (Dev.onProt_keeps _ _ _) | with_reducible apply Dev.Keeps.via (Dev.readStaging_keeps _ _) | with_reducible apply Dev.Keeps.via (Dev.stageOn_keeps _ _ _) | with_reducible apply Dev.Keeps.via (Dev.onTag_keeps _ _ _) | with_reducible apply Dev.Keeps.setReg | with_reducible apply Dev.Keeps.raise | with_reducible apply Dev.Keeps.raiseIf | with_reducible apply Dev.Keeps.each | with_reducible apply Dev.Keeps.ite | with_reducible intro _ | extract_lets | split | (dsimp +zetaDelta only; split)

theorem Dev.lose_keeps (d : Dev) (n : LinkId) : d.Keeps (d.lose n) (.rx :: .met :: Part.trip) := by
  unfold Dev.lose
  repeat' first | with_reducible exact Dev.Keeps.rfl | ((with_reducible apply Part.within_goal); exact Eq.refl true) | ((with_reducible apply Part.isIn_goal); first | exact Eq.refl true | exact contains_of (regPart_lnkEvents (Nat.lt_of_lt_of_le (Fin.isLt _) (by decide))) (Eq.refl true)) | with_reducible apply Dev.Keeps.via (Dev.judgeMissing_keeps _ _) | with_reducible apply Dev.Keeps.via (Dev.sendTrip_keeps _ _ _) | with_reducible apply Dev.Keeps.via (Dev.endBridge_keeps _ _) | with_reducible apply Dev.Keeps.via (Dev.onLnk_keeps _ _ _) | with_reducible apply Dev.Keeps.via (Dev.onVeh_keeps _ _ _) | with_reducible apply Dev.Keeps.via (Dev.withdraw_keeps _ _ _) | with_reducible apply Dev.Keeps.causeOn | with_reducible apply Dev.Keeps.ite | with_reducible intro _ | extract_lets | split | (dsimp +zetaDelta only; split)

theorem Dev.retrain_keeps (d : Dev) (n : LinkId) : d.Keeps (d.retrain n) [.alloc, .prot, .recorder, .lnk, .cmd, .met, .group, .out, .con, .veh, .rAlc, .rLnk] := by
  unfold Dev.retrain
  repeat' first | with_reducible exact Dev.Keeps.rfl | ((with_reducible apply Part.within_goal); exact Eq.refl true) | ((with_reducible apply Part.isIn_goal); first | exact Eq.refl true | exact contains_of (regPart_lnkEvents (Nat.lt_of_lt_of_le (Fin.isLt _) (by decide))) (Eq.refl true)) | with_reducible apply Dev.Keeps.via (Dev.onVeh_keeps _ _ _) | with_reducible apply Dev.Keeps.via (Dev.endBridge_keeps _ _) | with_reducible apply Dev.Keeps.via (Dev.onLnk_keeps _ _ _) | with_reducible apply Dev.Keeps.via (Dev.beginTraining_keeps _ _) | with_reducible apply Dev.Keeps.via (Dev.withdraw_keeps _ _ _) | with_reducible apply Dev.Keeps.raise | with_reducible apply Dev.Keeps.ite | with_reducible intro _ | extract_lets | split | (dsimp +zetaDelta only; split)

theorem Dev.reqFailed_keeps (d : Dev) (n : LinkId) (p : RegPurpose) : d.Keeps (d.reqFailed n p) [.alloc, .prot, .sec, .upd, .recorder, .lnk, .cmd, .group, .out, .con, .veh, .lprot, .rUpd, .rSec, .rPrt, .rAlc, .rLnk, .rVeh] := by
  unfold Dev.reqFailed
  repeat' first | with_reducible exact Dev.Keeps.rfl | ((with_reducible apply Part.within_goal); exact Eq.refl true) | ((with_reducible apply Part.isIn_goal); exact Eq.refl true) | with_reducible apply Dev.Keeps.via (Dev.threshFailed_keeps _ _ _) | with_reducible apply Dev.Keeps.via (Dev.failTraining_keeps _ _) | with_reducible apply Dev.Keeps.via (Dev.reqDone_keeps _ _) | with_reducible apply Dev.Keeps.via (Dev.onLnk_keeps _ _ _) | with_reducible apply Dev.Keeps.via (Dev.onProt_keeps _ _ _) | with_reducible apply Dev.Keeps.via (Dev.headStaged_keeps _ _ _) | with_reducible apply Dev.Keeps.via (Dev.armFails_keeps _) | with_reducible apply Dev.Keeps.via (Dev.writeArm_keeps _ _ _) | with_reducible apply Dev.Keeps.ite | with_reducible intro _ | split | (dsimp +zetaDelta only; split)

theorem Dev.reqAnswered_keeps (d : Dev) (n : LinkId) (p : RegPurpose) (data : Word) : d.Keeps (d.reqAnswered n p data) [.alloc, .prot, .grid, .upd, .recorder, .lnk, .cmd, .met, .group, .out, .con, .veh, .lprot, .rUpd, .rPrt, .rAlc, .rLnk, .rVeh] := by
  unfold Dev.reqAnswered
  repeat' first | with_reducible exact Dev.Keeps.rfl | ((with_reducible apply Part.within_goal); exact Eq.refl true) | ((with_reducible apply Part.isIn_goal); exact Eq.refl true) | with_reducible apply Dev.Keeps.via (Dev.threshPassed_keeps _ _ _) | with_reducible apply Dev.Keeps.via (Dev.threshFailed_keeps _ _ _) | with_reducible apply Dev.Keeps.via (Dev.reqDone_keeps _ _) | with_reducible apply Dev.Keeps.via (Dev.onLnk_keeps _ _ _) | with_reducible apply Dev.Keeps.via (Dev.onProt_keeps _ _ _) | with_reducible apply Dev.Keeps.via (Dev.onGrid_keeps _ _) | with_reducible apply Dev.Keeps.via (Dev.failPart_keeps _ _) | with_reducible apply Dev.Keeps.via (Dev.stageOn_keeps _ _ _) | with_reducible apply Dev.Keeps.via (Dev.stagingRead_keeps _ _ _) | with_reducible apply Dev.Keeps.via (Dev.onUpd_keeps _ _) | with_reducible apply Dev.Keeps.via (Dev.readStaging_keeps _ _) | with_reducible apply Dev.Keeps.via (Dev.retrain_keeps _ _) | with_reducible apply Dev.Keeps.ite | with_reducible intro _ | extract_lets | split | (dsimp +zetaDelta only; split)

theorem Dev.forgetVehicle_keeps (d : Dev) (n : LinkId) : d.Keeps (d.forgetVehicle n) [.rVeh] := by
  unfold Dev.forgetVehicle
  repeat' first | with_reducible exact Dev.Keeps.rfl | ((with_reducible apply Part.within_goal); exact Eq.refl true) | ((with_reducible apply Part.isIn_goal); first | exact Eq.refl true | exact contains_of (regPart_vehEvCurr (Nat.lt_of_lt_of_le (Fin.isLt _) (by decide))) (Eq.refl true) | exact contains_of (regPart_vehEvMacHi (Nat.lt_of_lt_of_le (Fin.isLt _) (by decide))) (Eq.refl true) | exact contains_of (regPart_vehEvMacLo (Nat.lt_of_lt_of_le (Fin.isLt _) (by decide))) (Eq.refl true) | exact contains_of (regPart_vehEvPower (Nat.lt_of_lt_of_le (Fin.isLt _) (by decide))) (Eq.refl true) | exact contains_of (regPart_vehEvSoc (Nat.lt_of_lt_of_le (Fin.isLt _) (by decide))) (Eq.refl true) | exact contains_of (regPart_vehEvVolt (Nat.lt_of_lt_of_le (Fin.isLt _) (by decide))) (Eq.refl true) | exact contains_of (regPart_vehPub (Nat.lt_of_lt_of_le (Fin.isLt _) (by decide))) (Eq.refl true) | exact contains_of (regPart_vehSlac (Nat.lt_of_lt_of_le (Fin.isLt _) (by decide))) (Eq.refl true)) | with_reducible apply Dev.Keeps.setReg

theorem Dev.plugIn_keeps (d : Dev) (n : LinkId) : d.Keeps (d.plugIn n) [.sec, .recorder, .veh, .rVeh] := by
  unfold Dev.plugIn
  repeat' first | with_reducible exact Dev.Keeps.rfl | ((with_reducible apply Part.within_goal); exact Eq.refl true) | ((with_reducible apply Part.isIn_goal); first | exact Eq.refl true | exact contains_of (regPart_vehCounts (Nat.lt_of_lt_of_le (Fin.isLt _) (by decide))) (Eq.refl true) | exact contains_of (regPart_vehEvents (Nat.lt_of_lt_of_le (Fin.isLt _) (by decide))) (Eq.refl true)) | with_reducible apply Dev.Keeps.via (Dev.toState_keeps _ _ _) | with_reducible apply Dev.Keeps.via (Dev.onVeh_keeps _ _ _) | with_reducible apply Dev.Keeps.via (Dev.forgetVehicle_keeps _ _) | with_reducible apply Dev.Keeps.via (Dev.enterFault_keeps _ _ _) | with_reducible apply Dev.Keeps.raise | with_reducible apply Dev.Keeps.countField | with_reducible apply Dev.Keeps.ite | with_reducible intro _ | extract_lets

theorem Dev.toAuthorizing_keeps (d : Dev) (n : LinkId) : d.Keeps (d.toAuthorizing n) (.out :: .veh :: .rVeh :: Part.lap) := by
  unfold Dev.toAuthorizing
  repeat' first | with_reducible exact Dev.Keeps.rfl | ((with_reducible apply Part.within_goal); exact Eq.refl true) | ((with_reducible apply Part.isIn_goal); exact Eq.refl true) | with_reducible apply Dev.Keeps.via (Dev.toState_keeps _ _ _) | with_reducible apply Dev.Keeps.via (Dev.applyCredential_keeps _ _ _) | with_reducible apply Dev.Keeps.via (Dev.onVeh_keeps _ _ _) | extract_lets | split | (dsimp +zetaDelta only; split)

theorem Dev.unplug_keeps (d : Dev) (n : LinkId) : d.Keeps (d.unplug n) [.sec, .recorder, .cmd, .out, .con, .veh, .rVeh] := by
  unfold Dev.unplug
  repeat' first | with_reducible exact Dev.Keeps.rfl | ((with_reducible apply Part.within_goal); exact Eq.refl true) | ((with_reducible apply Part.isIn_goal); first | exact Eq.refl true | exact contains_of (regPart_vehEvents (Nat.lt_of_lt_of_le (Fin.isLt _) (by decide))) (Eq.refl true)) | with_reducible apply Dev.Keeps.via (Dev.dropRun_keeps _ _) | with_reducible apply Dev.Keeps.via (Dev.openNow_keeps _ _ _ _) | with_reducible apply Dev.Keeps.via (Dev.onVeh_keeps _ _ _) | with_reducible apply Dev.Keeps.via (Dev.toState_keeps _ _ _) | with_reducible apply Dev.Keeps.raise | with_reducible apply Dev.Keeps.ite | with_reducible intro _ | extract_lets

theorem Dev.pilotFaulted_keeps (d : Dev) (n : LinkId) : d.Keeps (d.pilotFaulted n) [.sec, .recorder, .cmd, .out, .con, .veh, .rVeh] := by
  unfold Dev.pilotFaulted
  repeat' first | with_reducible exact Dev.Keeps.rfl | ((with_reducible apply Part.within_goal); exact Eq.refl true) | ((with_reducible apply Part.isIn_goal); first | exact Eq.refl true | exact contains_of (regPart_vehEvents (Nat.lt_of_lt_of_le (Fin.isLt _) (by decide))) (Eq.refl true)) | with_reducible apply Dev.Keeps.via (Dev.openNow_keeps _ _ _ _) | with_reducible apply Dev.Keeps.via (Dev.onVeh_keeps _ _ _) | with_reducible apply Dev.Keeps.via (Dev.enterFault_keeps _ _ _) | with_reducible apply Dev.Keeps.raise | extract_lets

theorem Dev.pilotAction_keeps (d1 : Dev) (n : LinkId) (cd : Bool) (p : Pilot) : d1.Keeps (d1.pilotAction n cd p) [.sec, .recorder, .cmd, .out, .con, .veh, .rVeh] := by
  unfold Dev.pilotAction
  repeat' first | with_reducible exact Dev.Keeps.rfl | ((with_reducible apply Part.within_goal); exact Eq.refl true) | ((with_reducible apply Part.isIn_goal); exact Eq.refl true) | with_reducible apply Dev.Keeps.via (Dev.unplug_keeps _ _) | with_reducible apply Dev.Keeps.via (Dev.plugIn_keeps _ _) | with_reducible apply Dev.Keeps.via (Dev.command_keeps _ _ _ _) | with_reducible apply Dev.Keeps.via (Dev.onVeh_keeps _ _ _) | with_reducible apply Dev.Keeps.via (Dev.startStop_keeps _ _ _ _) | with_reducible apply Dev.Keeps.via (Dev.pilotFaulted_keeps _ _) | with_reducible apply Dev.Keeps.ite | with_reducible intro _ | extract_lets | split | (dsimp +zetaDelta only; split)

theorem Dev.takePilot_keeps (d : Dev) (n : LinkId) (p : Pilot) : d.Keeps (d.takePilot n p) [.sec, .recorder, .cmd, .out, .con, .veh, .rVeh] := by
  unfold Dev.takePilot
  repeat' first | with_reducible exact Dev.Keeps.rfl | ((with_reducible apply Part.within_goal); exact Eq.refl true) | ((with_reducible apply Part.isIn_goal); exact Eq.refl true) | with_reducible apply Dev.Keeps.via (Dev.onVeh_keeps _ _ _) | with_reducible apply Dev.Keeps.via (Dev.pilotAction_keeps _ _ _ _) | with_reducible apply Dev.Keeps.ite | with_reducible intro _ | extract_lets

theorem Dev.proxFault_keeps (d : Dev) (n : LinkId) : d.Keeps (d.proxFault n) [.sec, .recorder, .out, .veh, .rVeh] := by
  unfold Dev.proxFault
  repeat' first | with_reducible exact Dev.Keeps.rfl | ((with_reducible apply Part.within_goal); exact Eq.refl true) | ((with_reducible apply Part.isIn_goal); first | exact Eq.refl true | exact contains_of (regPart_vehEvents (Nat.lt_of_lt_of_le (Fin.isLt _) (by decide))) (Eq.refl true)) | with_reducible apply Dev.Keeps.via (Dev.onVeh_keeps _ _ _) | with_reducible apply Dev.Keeps.via (Dev.startStop_keeps _ _ _ _) | with_reducible apply Dev.Keeps.via (Dev.enterFault_keeps _ _ _) | with_reducible apply Dev.Keeps.raise | with_reducible apply Dev.Keeps.ite | with_reducible intro _ | extract_lets

theorem Dev.takeProx_keeps (d : Dev) (n : LinkId) (pp : Byte) : d.Keeps (d.takeProx n pp) [.sec, .recorder, .cmd, .out, .con, .veh, .rVeh] := by
  unfold Dev.takeProx
  repeat' first | with_reducible exact Dev.Keeps.rfl | ((with_reducible apply Part.within_goal); exact Eq.refl true) | ((with_reducible apply Part.isIn_goal); exact Eq.refl true) | with_reducible apply Dev.Keeps.via (Dev.onVeh_keeps _ _ _) | with_reducible apply Dev.Keeps.via (Dev.unplug_keeps _ _) | with_reducible apply Dev.Keeps.via (Dev.pilotAction_keeps _ _ _ _) | with_reducible apply Dev.Keeps.via (Dev.proxFault_keeps _ _) | with_reducible apply Dev.Keeps.ite | with_reducible intro _ | extract_lets | split | (dsimp +zetaDelta only; split)

theorem Dev.plugWait_keeps (d : Dev) (n : LinkId) : d.Keeps (d.plugWait n) (.out :: .veh :: .rVeh :: Part.lap) := by
  unfold Dev.plugWait
  repeat' first | with_reducible exact Dev.Keeps.rfl | ((with_reducible apply Part.within_goal); exact Eq.refl true) | ((with_reducible apply Part.isIn_goal); first | exact Eq.refl true | exact contains_of (regPart_vehEvents (Nat.lt_of_lt_of_le (Fin.isLt _) (by decide))) (Eq.refl true)) | with_reducible apply Dev.Keeps.via (Dev.onVeh_keeps _ _ _) | with_reducible apply Dev.Keeps.via (Dev.toAuthorizing_keeps _ _) | with_reducible apply Dev.Keeps.raiseIf | with_reducible apply Dev.Keeps.ite | with_reducible intro _ | extract_lets

theorem Dev.startMatching_keeps (d : Dev) (n : LinkId) : d.Keeps (d.startMatching n) [.sec, .recorder, .veh, .rVeh] := by
  unfold Dev.startMatching
  repeat' first | with_reducible exact Dev.Keeps.rfl | ((with_reducible apply Part.within_goal); exact Eq.refl true) | ((with_reducible apply Part.isIn_goal); first | exact Eq.refl true | exact contains_of (regPart_vehEvents (Nat.lt_of_lt_of_le (Fin.isLt _) (by decide))) (Eq.refl true)) | with_reducible apply Dev.Keeps.via (Dev.onVeh_keeps _ _ _) | with_reducible apply Dev.Keeps.via (Dev.failAttempt_keeps _ _ _ _) | with_reducible apply Dev.Keeps.via (Dev.toState_keeps _ _ _) | with_reducible apply Dev.Keeps.raise | with_reducible apply Dev.Keeps.ite | with_reducible intro _ | extract_lets

theorem Dev.slacParm_keeps (d : Dev) (n : LinkId) (evMac : BitVec 48) (runId : BitVec 64) : d.Keeps (d.slacParm n evMac runId) [.sec, .recorder, .fresh, .veh, .rVeh] := by
  unfold Dev.slacParm
  repeat' first | with_reducible exact Dev.Keeps.rfl | ((with_reducible apply Part.within_goal); exact Eq.refl true) | ((with_reducible apply Part.isIn_goal); first | exact Eq.refl true | exact contains_of (regPart_vehEvents (Nat.lt_of_lt_of_le (Fin.isLt _) (by decide))) (Eq.refl true)) | with_reducible apply Dev.Keeps.via (Dev.failAttempt_keeps _ _ _ _) | with_reducible apply Dev.Keeps.via (Dev.slacAnswer_keeps _ _ _ _) | with_reducible apply Dev.Keeps.via (Dev.holdForRng_keeps _ _) | with_reducible apply Dev.Keeps.via (Dev.dropRngWait_keeps _ _) | with_reducible apply Dev.Keeps.raise | with_reducible apply Dev.Keeps.ite | with_reducible intro _

theorem Dev.soundingStart_keeps (d : Dev) (n : LinkId) (runId : BitVec 64) : d.Keeps (d.soundingStart n runId) [.veh] := by
  unfold Dev.soundingStart
  repeat' first | with_reducible exact Dev.Keeps.rfl | ((with_reducible apply Part.within_goal); exact Eq.refl true) | ((with_reducible apply Part.isIn_goal); exact Eq.refl true) | with_reducible apply Dev.Keeps.via (Dev.onVeh_keeps _ _ _) | with_reducible apply Dev.Keeps.ite | with_reducible intro _

theorem Dev.sound_keeps (d : Dev) (n : LinkId) (runId : BitVec 64) (groups : Vector Byte 58) : d.Keeps (d.sound n runId groups) [.fresh, .veh] := by
  unfold Dev.sound
  repeat' first | with_reducible exact Dev.Keeps.rfl | ((with_reducible apply Part.within_goal); exact Eq.refl true) | ((with_reducible apply Part.isIn_goal); exact Eq.refl true) | with_reducible apply Dev.Keeps.via (Dev.onVeh_keeps _ _ _) | with_reducible apply Dev.Keeps.drew | with_reducible apply Dev.Keeps.ite | with_reducible intro _ | extract_lets

theorem Dev.soundingEnd_keeps (d : Dev) (n : LinkId) : d.Keeps (d.soundingEnd n) [.fresh, .veh, .rVeh] := by
  unfold Dev.soundingEnd
  repeat' first | with_reducible exact Dev.Keeps.rfl | ((with_reducible apply Part.within_goal); exact Eq.refl true) | ((with_reducible apply Part.isIn_goal); first | exact Eq.refl true | exact contains_of (regPart_vehSlac (Nat.lt_of_lt_of_le (Fin.isLt _) (by decide))) (Eq.refl true)) | with_reducible apply Dev.Keeps.via (Dev.onVeh_keeps _ _ _) | with_reducible apply Dev.Keeps.via (Dev.answer_keeps _ _ _) | with_reducible apply Dev.Keeps.setField | with_reducible apply Dev.Keeps.drew | with_reducible apply Dev.Keeps.ite | with_reducible intro _ | extract_lets | split | (dsimp +zetaDelta only; split)

theorem Dev.slacMatch_keeps (d : Dev) (n : LinkId) (evMac mac : BitVec 48) (runId : BitVec 64) : d.Keeps (d.slacMatch n evMac mac runId) [.sec, .recorder, .veh, .rVeh] := by
  unfold Dev.slacMatch
  repeat' first | with_reducible exact Dev.Keeps.rfl | ((with_reducible apply Part.within_goal); exact Eq.refl true) | ((with_reducible apply Part.isIn_goal); first | exact Eq.refl true | exact contains_of (regPart_vehEvMacHi (Nat.lt_of_lt_of_le (Fin.isLt _) (by decide))) (Eq.refl true) | exact contains_of (regPart_vehEvMacLo (Nat.lt_of_lt_of_le (Fin.isLt _) (by decide))) (Eq.refl true) | exact contains_of (regPart_vehEvents (Nat.lt_of_lt_of_le (Fin.isLt _) (by decide))) (Eq.refl true) | exact contains_of (regPart_vehSlac (Nat.lt_of_lt_of_le (Fin.isLt _) (by decide))) (Eq.refl true)) | with_reducible apply Dev.Keeps.via (Dev.failAttempt_keeps _ _ _ _) | with_reducible apply Dev.Keeps.via (Dev.toState_keeps _ _ _) | with_reducible apply Dev.Keeps.via (Dev.answer_keeps _ _ _) | with_reducible apply Dev.Keeps.setReg | with_reducible apply Dev.Keeps.raise | with_reducible apply Dev.Keeps.setField | with_reducible apply Dev.Keeps.ite | with_reducible intro _ | extract_lets | split | (dsimp +zetaDelta only; split)

theorem Dev.validate_keeps (d : Dev) (n : LinkId) (toggles : Nat) : d.Keeps (d.validate n toggles) [.sec, .recorder, .veh, .rVeh] := by
  unfold Dev.validate
  repeat' first | with_reducible exact Dev.Keeps.rfl | ((with_reducible apply Part.within_goal); exact Eq.refl true) | ((with_reducible apply Part.isIn_goal); first | exact Eq.refl true | exact contains_of (regPart_vehEvents (Nat.lt_of_lt_of_le (Fin.isLt _) (by decide))) (Eq.refl true)) | with_reducible apply Dev.Keeps.via (Dev.answer_keeps _ _ _) | with_reducible apply Dev.Keeps.via (Dev.failAttempt_keeps _ _ _ _) | with_reducible apply Dev.Keeps.raise | with_reducible apply Dev.Keeps.ite | with_reducible intro _ | split | (dsimp +zetaDelta only; split)

theorem Dev.slacExpiry_keeps (d : Dev) (n : LinkId) : d.Keeps (d.slacExpiry n) [.sec, .recorder, .veh, .rVeh] := by
  unfold Dev.slacExpiry
  repeat' first | with_reducible exact Dev.Keeps.rfl | ((with_reducible apply Part.within_goal); exact Eq.refl true) | ((with_reducible apply Part.isIn_goal); first | exact Eq.refl true | exact contains_of (regPart_vehEvents (Nat.lt_of_lt_of_le (Fin.isLt _) (by decide))) (Eq.refl true)) | with_reducible apply Dev.Keeps.via (Dev.failAttempt_keeps _ _ _ _) | with_reducible apply Dev.Keeps.raise | with_reducible apply Dev.Keeps.ite | with_reducible intro _ | extract_lets | split | (dsimp +zetaDelta only; split)

theorem Dev.appProtocol_keeps (d : Dev) (n : LinkId) (offered : List Protocol) : d.Keeps (d.appProtocol n offered) [.sec, .recorder, .veh, .rVeh] := by
  unfold Dev.appProtocol
  repeat' first | with_reducible exact Dev.Keeps.rfl | ((with_reducible apply Part.within_goal); exact Eq.refl true) | ((with_reducible apply Part.isIn_goal); first | exact Eq.refl true | exact contains_of (regPart_vehEvents (Nat.lt_of_lt_of_le (Fin.isLt _) (by decide))) (Eq.refl true)) | with_reducible apply Dev.Keeps.via (Dev.answer_keeps _ _ _) | with_reducible apply Dev.Keeps.via (Dev.onVeh_keeps _ _ _) | with_reducible apply Dev.Keeps.via (Dev.failAttempt_keeps _ _ _ _) | with_reducible apply Dev.Keeps.raise | with_reducible apply Dev.Keeps.ite | with_reducible intro _ | extract_lets | split | (dsimp +zetaDelta only; split)

theorem Dev.tlsStep_keeps (d : Dev) (n : LinkId) (ok done : Bool) : d.Keeps (d.tlsStep n ok done) [.sec, .recorder, .fresh, .out, .veh, .rSec, .rVeh] := by
  unfold Dev.tlsStep
  repeat' first | with_reducible exact Dev.Keeps.rfl | ((with_reducible apply Part.within_goal); exact Eq.refl true) | ((with_reducible apply Part.isIn_goal); first | exact Eq.refl true | exact contains_of (regPart_vehEvents (Nat.lt_of_lt_of_le (Fin.isLt _) (by decide))) (Eq.refl true)) | with_reducible apply Dev.Keeps.via (Dev.badMessage_keeps _ _) | with_reducible apply Dev.Keeps.via (Dev.failAttempt_keeps _ _ _ _) | with_reducible apply Dev.Keeps.via (Dev.onVeh_keeps _ _ _) | with_reducible apply Dev.Keeps.via (Dev.finish_keeps _ _) | with_reducible apply Dev.Keeps.via (Dev.tlsWork_keeps _ _) | with_reducible apply Dev.Keeps.via (Dev.holdForRng_keeps _ _) | with_reducible apply Dev.Keeps.via (Dev.dropRngWait_keeps _ _) | with_reducible apply Dev.Keeps.raise | with_reducible apply Dev.Keeps.ite | with_reducible intro _ | extract_lets

theorem Dev.sessionSetup_keeps (d : Dev) (n : LinkId) (form : V2gForm) : d.Keeps (d.sessionSetup n form) [.sec, .recorder, .out, .veh, .rVeh] := by
  unfold Dev.sessionSetup
  repeat' first | with_reducible exact Dev.Keeps.rfl | ((with_reducible apply Part.within_goal); exact Eq.refl true) | ((with_reducible apply Part.isIn_goal); exact Eq.refl true) | with_reducible apply Dev.Keeps.via (Dev.badMessage_keeps _ _) | with_reducible apply Dev.Keeps.via (Dev.answer_keeps _ _ _) | with_reducible apply Dev.Keeps.ite | with_reducible intro _ | extract_lets

theorem Dev.presentContract_keeps (d : Dev) (n : LinkId) (c : ContractChain) : d.Keeps (d.presentContract n c) [.sec, .recorder, .veh, .ltag, .rSec, .rTag, .rVeh, .rTen] := by
  unfold Dev.presentContract
  repeat' first | with_reducible exact Dev.Keeps.rfl | ((with_reducible apply Part.within_goal); exact Eq.refl true) | ((with_reducible apply Part.isIn_goal); exact Eq.refl true) | with_reducible apply Dev.Keeps.via (Dev.refuseOutlet_keeps _ _ _) | with_reducible apply Dev.Keeps.via (Dev.showDecision_keeps _ _ _ _ _) | with_reducible apply Dev.Keeps.via (Dev.request_keeps _ _ _ _ _ _) | with_reducible apply Dev.Keeps.via (Dev.onSec_keeps _ _) | with_reducible apply Dev.Keeps.via (Dev.onVeh_keeps _ _ _) | with_reducible apply Dev.Keeps.ite | with_reducible intro _ | extract_lets

theorem Dev.authRequest_keeps (d : Dev) (n : LinkId) (form : V2gForm) (contract : Option ContractChain) : d.Keeps (d.authRequest n form contract) (.sec :: .out :: .veh :: .ltag :: .rSec :: .rTag :: .rVeh :: Part.lap) := by
  unfold Dev.authRequest
  repeat' first | with_reducible exact Dev.Keeps.rfl | ((with_reducible apply Part.within_goal); exact Eq.refl true) | ((with_reducible apply Part.isIn_goal); exact Eq.refl true) | with_reducible apply Dev.Keeps.via (Dev.badMessage_keeps _ _) | with_reducible apply Dev.Keeps.via (Dev.toAuthorizing_keeps _ _) | with_reducible apply Dev.Keeps.via (Dev.answer_keeps _ _ _) | with_reducible apply Dev.Keeps.via (Dev.presentContract_keeps _ _ _) | with_reducible apply Dev.Keeps.ite | with_reducible intro _ | extract_lets | split | (dsimp +zetaDelta only; split)

theorem Dev.agree_keeps (d : Dev) (n : LinkId) (a : Negotiated) : d.Keeps (d.agree n a) [.out, .veh, .rVeh] := by
  unfold Dev.agree
  repeat' first | with_reducible exact Dev.Keeps.rfl | ((with_reducible apply Part.within_goal); exact Eq.refl true) | ((with_reducible apply Part.isIn_goal); first | exact Eq.refl true | exact contains_of (regPart_vehEvCurr (Nat.lt_of_lt_of_le (Fin.isLt _) (by decide))) (Eq.refl true) | exact contains_of (regPart_vehEvPower (Nat.lt_of_lt_of_le (Fin.isLt _) (by decide))) (Eq.refl true) | exact contains_of (regPart_vehEvVolt (Nat.lt_of_lt_of_le (Fin.isLt _) (by decide))) (Eq.refl true)) | with_reducible apply Dev.Keeps.via (Dev.onVeh_keeps _ _ _) | with_reducible apply Dev.Keeps.via (Dev.publish_keeps _ _) | with_reducible apply Dev.Keeps.via (Dev.refreshReq_keeps _ _) | with_reducible apply Dev.Keeps.via (Dev.toState_keeps _ _ _) | with_reducible apply Dev.Keeps.setReg | with_reducible apply Dev.Keeps.setField | with_reducible apply Dev.Keeps.ite | with_reducible intro _ | extract_lets

theorem Dev.negotiate_keeps (d : Dev) (n : LinkId) (form : V2gForm) (agreed : Option Negotiated) : d.Keeps (d.negotiate n form agreed) [.sec, .recorder, .out, .veh, .rVeh] := by
  unfold Dev.negotiate
  repeat' first | with_reducible exact Dev.Keeps.rfl | ((with_reducible apply Part.within_goal); exact Eq.refl true) | ((with_reducible apply Part.isIn_goal); exact Eq.refl true) | with_reducible apply Dev.Keeps.via (Dev.badMessage_keeps _ _) | with_reducible apply Dev.Keeps.via (Dev.answer_keeps _ _ _) | with_reducible apply Dev.Keeps.via (Dev.agree_keeps _ _ _) | with_reducible apply Dev.Keeps.via (Dev.onVeh_keeps _ _ _) | with_reducible apply Dev.Keeps.ite | with_reducible intro _ | extract_lets | split | (dsimp +zetaDelta only; split)

theorem Dev.cableCheck_keeps (d : Dev) (n : LinkId) (form : V2gForm) : d.Keeps (d.cableCheck n form) [.sec, .recorder, .cmd, .out, .con, .veh, .aux, .rVeh] := by
  unfold Dev.cableCheck
  repeat' first | with_reducible exact Dev.Keeps.rfl | ((with_reducible apply Part.within_goal); exact Eq.refl true) | ((with_reducible apply Part.isIn_goal); exact Eq.refl true) | with_reducible apply Dev.Keeps.via (Dev.badMessage_keeps _ _) | with_reducible apply Dev.Keeps.via (Dev.answer_keeps _ _ _) | with_reducible apply Dev.Keeps.via (Dev.setpoints_keeps _ _) | with_reducible apply Dev.Keeps.via (Dev.refreshReq_keeps _ _) | with_reducible apply Dev.Keeps.via (Dev.closeOutlet_keeps _ _) | with_reducible apply Dev.Keeps.via (Dev.toState_keeps _ _ _) | with_reducible apply Dev.Keeps.via (Dev.onVeh_keeps _ _ _) | with_reducible apply Dev.Keeps.ite | with_reducible intro _ | extract_lets | split | (dsimp +zetaDelta only; split)

theorem Dev.setTargets_keeps (d : Dev) (n : LinkId) (volts amps : BitVec 16) : d.Keeps (d.setTargets n volts amps) [.rVeh] := by
  unfold Dev.setTargets
  repeat' first | with_reducible exact Dev.Keeps.rfl | ((with_reducible apply Part.within_goal); exact Eq.refl true) | ((with_reducible apply Part.isIn_goal); first | exact Eq.refl true | exact contains_of (regPart_vehEvCurr (Nat.lt_of_lt_of_le (Fin.isLt _) (by decide))) (Eq.refl true) | exact contains_of (regPart_vehEvVolt (Nat.lt_of_lt_of_le (Fin.isLt _) (by decide))) (Eq.refl true)) | with_reducible apply Dev.Keeps.setField

theorem Dev.preCharge_keeps (d : Dev) (n : LinkId) (form : V2gForm) (volts amps : BitVec 16) : d.Keeps (d.preCharge n form volts amps) [.sec, .recorder, .out, .veh, .rVeh] := by
  unfold Dev.preCharge
  repeat' first | with_reducible exact Dev.Keeps.rfl | ((with_reducible apply Part.within_goal); exact Eq.refl true) | ((with_reducible apply Part.isIn_goal); exact Eq.refl true) | with_reducible apply Dev.Keeps.via (Dev.setpoints_keeps _ _) | with_reducible apply Dev.Keeps.via (Dev.answer_keeps _ _ _) | with_reducible apply Dev.Keeps.via (Dev.setTargets_keeps _ _ _ _) | with_reducible apply Dev.Keeps.via (Dev.badMessage_keeps _ _) | with_reducible apply Dev.Keeps.via (Dev.refreshReq_keeps _ _) | with_reducible apply Dev.Keeps.via (Dev.toState_keeps _ _ _) | with_reducible apply Dev.Keeps.ite | with_reducible intro _ | extract_lets | split | (dsimp +zetaDelta only; split)

theorem Dev.deliver_keeps (d : Dev) (n : LinkId) (form : V2gForm) : d.Keeps (d.deliver n form) [.sec, .recorder, .out, .veh, .rVeh] := by
  unfold Dev.deliver
  repeat' first | with_reducible exact Dev.Keeps.rfl | ((with_reducible apply Part.within_goal); exact Eq.refl true) | ((with_reducible apply Part.isIn_goal); exact Eq.refl true) | with_reducible apply Dev.Keeps.via (Dev.badMessage_keeps _ _) | with_reducible apply Dev.Keeps.via (Dev.setpoints_keeps _ _) | with_reducible apply Dev.Keeps.via (Dev.refreshReq_keeps _ _) | with_reducible apply Dev.Keeps.via (Dev.answer_keeps _ _ _) | with_reducible apply Dev.Keeps.via (Dev.toState_keeps _ _ _) | with_reducible apply Dev.Keeps.ite | with_reducible intro _ | extract_lets | split | (dsimp +zetaDelta only; split)

theorem Dev.deliverStop_keeps (d : Dev) (n : LinkId) (form : V2gForm) : d.Keeps (d.deliverStop n form) [.sec, .recorder, .out, .veh, .rVeh] := by
  unfold Dev.deliverStop
  repeat' first | with_reducible exact Dev.Keeps.rfl | ((with_reducible apply Part.within_goal); exact Eq.refl true) | ((with_reducible apply Part.isIn_goal); exact Eq.refl true) | with_reducible apply Dev.Keeps.via (Dev.badMessage_keeps _ _) | with_reducible apply Dev.Keeps.via (Dev.answer_keeps _ _ _) | with_reducible apply Dev.Keeps.via (Dev.startStop_keeps _ _ _ _) | with_reducible apply Dev.Keeps.ite | with_reducible intro _ | extract_lets

theorem Dev.loopAnswer_keeps (d : Dev) (n : LinkId) : d.Keeps (d.loopAnswer n) [.veh] := by
  unfold Dev.loopAnswer
  repeat' first | with_reducible exact Dev.Keeps.rfl | ((with_reducible apply Part.within_goal); exact Eq.refl true) | ((with_reducible apply Part.isIn_goal); exact Eq.refl true) | with_reducible apply Dev.Keeps.via (Dev.onVeh_keeps _ _ _) | with_reducible apply Dev.Keeps.ite | with_reducible intro _ | extract_lets

theorem Dev.chargeLoop_keeps (d : Dev) (n : LinkId) (form : V2gForm) (req : ChargeLoop) : d.Keeps (d.chargeLoop n form req) [.sec, .recorder, .out, .veh, .rVeh] := by
  unfold Dev.chargeLoop
  repeat' first | with_reducible exact Dev.Keeps.rfl | ((with_reducible apply Part.within_goal); exact Eq.refl true) | ((with_reducible apply Part.isIn_goal); first | exact Eq.refl true | exact contains_of (regPart_vehEvSoc (Nat.lt_of_lt_of_le (Fin.isLt _) (by decide))) (Eq.refl true)) | with_reducible apply Dev.Keeps.via (Dev.badMessage_keeps _ _) | with_reducible apply Dev.Keeps.via (Dev.refreshReq_keeps _ _) | with_reducible apply Dev.Keeps.via (Dev.onVeh_keeps _ _ _) | with_reducible apply Dev.Keeps.via (Dev.setTargets_keeps _ _ _ _) | with_reducible apply Dev.Keeps.via (Dev.publish_keeps _ _) | with_reducible apply Dev.Keeps.via (Dev.setpoints_keeps _ _) | with_reducible apply Dev.Keeps.via (Dev.loopAnswer_keeps _ _) | with_reducible apply Dev.Keeps.setReg | with_reducible apply Dev.Keeps.ite | with_reducible intro _ | extract_lets | split | (dsimp +zetaDelta only; split)

theorem Dev.stateBound_keeps (d : Dev) (n : LinkId) : d.Keeps (d.stateBound n) [.sec, .recorder, .out, .veh, .rVeh] := by
  unfold Dev.stateBound
  repeat' first | with_reducible exact Dev.Keeps.rfl | ((with_reducible apply Part.within_goal); exact Eq.refl true) | ((with_reducible apply Part.isIn_goal); first | exact Eq.refl true | exact contains_of (regPart_vehEvents (Nat.lt_of_lt_of_le (Fin.isLt _) (by decide))) (Eq.refl true)) | with_reducible apply Dev.Keeps.via (Dev.slacExpiry_keeps _ _) | with_reducible apply Dev.Keeps.via (Dev.failAttempt_keeps _ _ _ _) | with_reducible apply Dev.Keeps.via (Dev.startStop_keeps _ _ _ _) | with_reducible apply Dev.Keeps.raise | with_reducible apply Dev.Keeps.ite | with_reducible intro _ | extract_lets | split | (dsimp +zetaDelta only; split)

theorem Dev.stopOpen_keeps (d : Dev) (n : LinkId) : d.Keeps (d.stopOpen n) [.cmd, .con, .veh] := by
  unfold Dev.stopOpen
  repeat' first | with_reducible exact Dev.Keeps.rfl | ((with_reducible apply Part.within_goal); exact Eq.refl true) | ((with_reducible apply Part.isIn_goal); exact Eq.refl true) | with_reducible apply Dev.Keeps.via (Dev.onVeh_keeps _ _ _) | with_reducible apply Dev.Keeps.via (Dev.command_keeps _ _ _ _)

theorem Dev.endIfOpen_keeps (d : Dev) (n : LinkId) : d.Keeps (d.endIfOpen n) Part.session := by
  unfold Dev.endIfOpen
  repeat' first | with_reducible exact Dev.Keeps.rfl | ((with_reducible apply Part.within_goal); exact Eq.refl true) | ((with_reducible apply Part.isIn_goal); exact Eq.refl true) | with_reducible apply Dev.Keeps.via (Dev.endStopped_keeps _ _) | with_reducible apply Dev.Keeps.ite | with_reducible intro _ | extract_lets

theorem Dev.vehSample_keeps (d : Dev) (n : LinkId) : d.Keeps (d.vehSample n) [.veh] := by
  unfold Dev.vehSample
  repeat' first | with_reducible exact Dev.Keeps.rfl | ((with_reducible apply Part.within_goal); exact Eq.refl true) | ((with_reducible apply Part.isIn_goal); exact Eq.refl true) | with_reducible apply Dev.Keeps.via (Dev.onVeh_keeps _ _ _) | with_reducible apply Dev.Keeps.ite | with_reducible intro _ | extract_lets

theorem Dev.decideDirection_keeps (d : Dev) (n : LinkId) : d.Keeps (d.decideDirection n) [.veh] := by
  unfold Dev.decideDirection
  repeat' first | with_reducible exact Dev.Keeps.rfl | ((with_reducible apply Part.within_goal); exact Eq.refl true) | ((with_reducible apply Part.isIn_goal); exact Eq.refl true) | with_reducible apply Dev.Keeps.via (Dev.setpoints_keeps _ _) | with_reducible apply Dev.Keeps.via (Dev.onVeh_keeps _ _ _) | with_reducible apply Dev.Keeps.ite | with_reducible intro _ | extract_lets

theorem Dev.acClose_keeps (d : Dev) (n : LinkId) : d.Keeps (d.acClose n) [.cmd, .out, .con, .veh, .aux, .rVeh] := by
  unfold Dev.acClose
  repeat' first | with_reducible exact Dev.Keeps.rfl | ((with_reducible apply Part.within_goal); exact Eq.refl true) | ((with_reducible apply Part.isIn_goal); exact Eq.refl true) | with_reducible apply Dev.Keeps.via (Dev.closeOutlet_keeps _ _) | with_reducible apply Dev.Keeps.via (Dev.refreshReq_keeps _ _) | with_reducible apply Dev.Keeps.via (Dev.toState_keeps _ _ _) | with_reducible apply Dev.Keeps.ite | with_reducible intro _ | extract_lets

theorem Dev.vehPlan_keeps (d : Dev) (n : LinkId) : d.Keeps (d.vehPlan n) [.cmd, .out, .con, .veh, .aux, .rVeh] := by
  unfold Dev.vehPlan
  repeat' first | with_reducible exact Dev.Keeps.rfl | ((with_reducible apply Part.within_goal); exact Eq.refl true) | ((with_reducible apply Part.isIn_goal); exact Eq.refl true) | with_reducible apply Dev.Keeps.via (Dev.acClose_keeps _ _) | with_reducible apply Dev.Keeps.via (Dev.decideDirection_keeps _ _) | with_reducible apply Dev.Keeps.via (Dev.setpoints_keeps _ _) | with_reducible apply Dev.Keeps.via (Dev.publish_keeps _ _) | with_reducible apply Dev.Keeps.ite | with_reducible intro _ | extract_lets

theorem Dev.settleDirection_keeps (d : Dev) (n : LinkId) : d.Keeps (d.settleDirection n) [.out, .veh, .rVeh] := by
  unfold Dev.settleDirection
  repeat' first | with_reducible exact Dev.Keeps.rfl | ((with_reducible apply Part.within_goal); exact Eq.refl true) | ((with_reducible apply Part.isIn_goal); exact Eq.refl true) | with_reducible apply Dev.Keeps.via (Dev.setpoints_keeps _ _) | with_reducible apply Dev.Keeps.via (Dev.refreshReq_keeps _ _) | with_reducible apply Dev.Keeps.via (Dev.onVeh_keeps _ _ _) | with_reducible apply Dev.Keeps.ite | with_reducible intro _ | extract_lets | split | (dsimp +zetaDelta only; split)

theorem Dev.overcurrent_keeps (d0 : Dev) (n : LinkId) (ch : Fin 8) : d0.Keeps (d0.overcurrent n ch) (.pacer :: .tenants :: .bill :: .met :: .lbill :: .rPac :: .rBil :: .rMet :: .rTen :: Part.trip) := by
  unfold Dev.overcurrent
  repeat' first | with_reducible exact Dev.Keeps.rfl | ((with_reducible apply Part.within_goal); exact Eq.refl true) | ((with_reducible apply Part.isIn_goal); first | exact Eq.refl true | exact contains_of (regPart_metEvents (Nat.lt_of_lt_of_le (Fin.isLt _) (by decide))) (Eq.refl true) | exact contains_of (regPart_metOcCnt (Nat.lt_of_lt_of_le (Fin.isLt _) (by decide))) (Eq.refl true)) | with_reducible apply Dev.Keeps.via (Dev.lapFirst_keeps _) | with_reducible apply Dev.Keeps.via (Dev.onMet_keeps _ _ _) | with_reducible apply Dev.Keeps.causeOn | with_reducible apply Dev.Keeps.count | with_reducible apply Dev.Keeps.ite | with_reducible intro _ | extract_lets

theorem Dev.senseSample_keeps (d : Dev) (n : LinkId) : d.Keeps (d.senseSample n) [.met] := by
  unfold Dev.senseSample
  repeat' first | with_reducible exact Dev.Keeps.rfl | ((with_reducible apply Part.within_goal); exact Eq.refl true) | ((with_reducible apply Part.isIn_goal); exact Eq.refl true) | with_reducible apply Dev.Keeps.via (Dev.onMet_keeps _ _ _) | extract_lets

theorem Dev.senseOpened_keeps (d0 : Dev) (link : LinkId) : d0.Keeps (d0.senseOpened link) (.out :: .veh :: .rVeh :: Part.lap) := by
  unfold Dev.senseOpened
  repeat' first | with_reducible exact Dev.Keeps.rfl | ((with_reducible apply Part.within_goal); exact Eq.refl true) | ((with_reducible apply Part.isIn_goal); first | exact Eq.refl true | exact contains_of (regPart_metEvents (Nat.lt_of_lt_of_le (Fin.isLt _) (by decide))) (Eq.refl true)) | with_reducible apply Dev.Keeps.via (Dev.lapFirst_keeps _) | with_reducible apply Dev.Keeps.via (Dev.startStop_keeps _ _ _ _) | with_reducible apply Dev.Keeps.via (Dev.onMet_keeps _ _ _) | with_reducible apply Dev.Keeps.raise | with_reducible apply Dev.Keeps.ite | with_reducible intro _ | extract_lets

theorem Dev.tpoStart_keeps (d : Dev) (out : Fin 2) : d.Keeps (d.tpoStart out) [.tpo] := by
  unfold Dev.tpoStart
  repeat' first | with_reducible exact Dev.Keeps.rfl | ((with_reducible apply Part.within_goal); exact Eq.refl true) | ((with_reducible apply Part.isIn_goal); exact Eq.refl true) | with_reducible apply Dev.Keeps.via (Dev.tpoPin_keeps _ _) | with_reducible apply Dev.Keeps.via (Dev.onTpo_keeps _ _ _) | with_reducible apply Dev.Keeps.ite | with_reducible intro _ | extract_lets

theorem Dev.mdEnd_keeps (d : Dev) (n : LinkId) (sliding : Bool) : d.Keeps (d.mdEnd n sliding) (.lbill :: Part.registers) := by
  unfold Dev.mdEnd
  repeat' first | with_reducible exact Dev.Keeps.rfl | ((with_reducible apply Part.within_goal); exact Eq.refl true) | ((with_reducible apply Part.isIn_goal); first | exact Eq.refl true | with_reducible apply contains_regPart) | with_reducible apply Dev.Keeps.via (Dev.demandValue_keeps _ _ _ _ _) | with_reducible apply Dev.Keeps.via (Dev.onBill_keeps _ _ _) | with_reducible apply Dev.Keeps.ite | with_reducible intro _ | extract_lets

theorem Dev.sealTo_keeps (d0 : Dev) (new : SealState) : d0.Keeps (d0.sealTo new) Part.lap := by
  unfold Dev.sealTo
  repeat' first | with_reducible exact Dev.Keeps.rfl | ((with_reducible apply Part.within_goal); exact Eq.refl true) | ((with_reducible apply Part.isIn_goal); exact Eq.refl true) | with_reducible apply Dev.Keeps.via (Dev.lapFirst_keeps _) | with_reducible apply Dev.Keeps.via (Dev.onBilling_keeps _ _) | with_reducible apply Dev.Keeps.via (Dev.onBill_keeps _ _ _) | with_reducible apply Dev.Keeps.via (Dev.onMet_keeps _ _ _) | with_reducible apply Dev.Keeps.via (Dev.trigger_keeps _ _) | with_reducible apply Dev.Keeps.setReg | with_reducible apply Dev.Keeps.raiseAlways | with_reducible apply Dev.Keeps.count | with_reducible apply Dev.Keeps.each | with_reducible apply Dev.Keeps.ite | with_reducible intro _ | extract_lets

theorem Dev.recordSigned_keeps (d : Dev) : d.Keeps (d.recordSigned) [.bill, .sec, .recorder, .mem, .rSec, .rMem, .rBil] := by
  unfold Dev.recordSigned
  repeat' first | with_reducible exact Dev.Keeps.rfl | ((with_reducible apply Part.within_goal); exact Eq.refl true) | ((with_reducible apply Part.isIn_goal); exact Eq.refl true) | with_reducible apply Dev.Keeps.via (Dev.startSigning_keeps _) | with_reducible apply Dev.Keeps.via (Dev.completeRecord_keeps _ _ _) | with_reducible apply Dev.Keeps.via (Dev.finish_keeps _ _) | with_reducible apply Dev.Keeps.ite | with_reducible intro _ | extract_lets | split | (dsimp +zetaDelta only; split)

end Sys2Proof.Machine
end

