-- ==== Sys2Proof/Laws/KeepsPort.lean ====
section
/-! SUPPORT. Which parts of the device an operation can change: exchanges, protection, the host port, links and ticks. -/

namespace Sys2Proof.Machine

set_option Elab.async false

theorem Dev.creditTokens_keeps (d : Dev) (n : LinkId) : d.Keeps (d.creditTokens n) [.alloc, .out] := by
  unfold Dev.creditTokens
  repeat' first | with_reducible exact Dev.Keeps.rfl | ((with_reducible apply Part.within_goal); exact Eq.refl true) | ((with_reducible apply Part.isIn_goal); exact Eq.refl true) | with_reducible apply Dev.Keeps.via (Dev.donorCredited_keeps _ _) | with_reducible apply Dev.Keeps.via (Dev.onOut_keeps _ _ _) | with_reducible apply Dev.Keeps.ite | with_reducible intro _ | extract_lets

theorem Dev.reduceStop_keeps (d : Dev) (n : LinkId) : d.Keeps (d.reduceStop n) [.recorder, .out, .veh, .rAlc, .rVeh] := by
  unfold Dev.reduceStop
  repeat' first | with_reducible exact Dev.Keeps.rfl | ((with_reducible apply Part.within_goal); exact Eq.refl true) | ((with_reducible apply Part.isIn_goal); exact Eq.refl true) | with_reducible apply Dev.Keeps.via (Dev.startStop_keeps _ _ _ _) | with_reducible apply Dev.Keeps.via (Dev.onOut_keeps _ _ _) | with_reducible apply Dev.Keeps.raise | with_reducible apply Dev.Keeps.ite | with_reducible intro _ | extract_lets

theorem Dev.hostLimit_keeps (d : Dev) (data : Word) : d.Keeps (d.hostLimit data) [.alloc, .rAlc] := by
  unfold Dev.hostLimit
  repeat' first | with_reducible exact Dev.Keeps.rfl | ((with_reducible apply Part.within_goal); exact Eq.refl true) | ((with_reducible apply Part.isIn_goal); exact Eq.refl true) | with_reducible apply Dev.Keeps.via (Dev.setBudget_keeps _) | with_reducible apply Dev.Keeps.setReg

theorem Dev.limitStart_keeps (d : Dev) : d.Keeps (d.limitStart) [.alloc] := by
  unfold Dev.limitStart
  repeat' first | with_reducible exact Dev.Keeps.rfl | ((with_reducible apply Part.within_goal); exact Eq.refl true) | ((with_reducible apply Part.isIn_goal); exact Eq.refl true) | with_reducible apply Dev.Keeps.via (Dev.setBudget_keeps _) | with_reducible apply Dev.Keeps.via (Dev.onAlloc_keeps _ _) | with_reducible apply Dev.Keeps.ite | with_reducible intro _ | split | (dsimp +zetaDelta only; split)

theorem Dev.limitExpiry_keeps (d : Dev) : d.Keeps (d.limitExpiry) [.alloc, .recorder, .rAlc] := by
  unfold Dev.limitExpiry
  repeat' first | with_reducible exact Dev.Keeps.rfl | ((with_reducible apply Part.within_goal); exact Eq.refl true) | ((with_reducible apply Part.isIn_goal); exact Eq.refl true) | with_reducible apply Dev.Keeps.via (Dev.setBudget_keeps _) | with_reducible apply Dev.Keeps.via (Dev.onAlloc_keeps _ _) | with_reducible apply Dev.Keeps.raise | with_reducible apply Dev.Keeps.ite | with_reducible intro _ | split | (dsimp +zetaDelta only; split)

theorem Dev.lowerBudget_keeps (d : Dev) : d.Keeps (d.lowerBudget) [.alloc, .recorder, .rAlc] := by
  unfold Dev.lowerBudget
  repeat' first | with_reducible exact Dev.Keeps.rfl | ((with_reducible apply Part.within_goal); exact Eq.refl true) | ((with_reducible apply Part.isIn_goal); exact Eq.refl true) | with_reducible apply Dev.Keeps.via (Dev.onAlloc_keeps _ _) | with_reducible apply Dev.Keeps.raise | with_reducible apply Dev.Keeps.ite | with_reducible intro _ | split | (dsimp +zetaDelta only; split)

theorem Dev.notReady_keeps (d : Dev) (g : LinkId) : d.Keeps (d.notReady g) [.alloc, .prot, .recorder, .cmd, .group, .out, .con, .rAlc] := by
  unfold Dev.notReady
  repeat' first | with_reducible exact Dev.Keeps.rfl | ((with_reducible apply Part.within_goal); exact Eq.refl true) | ((with_reducible apply Part.isIn_goal); exact Eq.refl true) | with_reducible apply Dev.Keeps.via (Dev.withdraw_keeps _ _ _) | with_reducible apply Dev.Keeps.ite | with_reducible intro _ | extract_lets

theorem Dev.breakGroup_keeps (d : Dev) (g : LinkId) : d.Keeps (d.breakGroup g) [.recorder, .cmd, .group, .con, .rAlc] := by
  unfold Dev.breakGroup
  repeat' first | with_reducible exact Dev.Keeps.rfl | ((with_reducible apply Part.within_goal); exact Eq.refl true) | ((with_reducible apply Part.isIn_goal); exact Eq.refl true) | with_reducible apply Dev.Keeps.via (Dev.onGroup_keeps _ _ _) | with_reducible apply Dev.Keeps.via (Dev.openAll_keeps _ _) | with_reducible apply Dev.Keeps.raise | with_reducible apply Dev.Keeps.ite | with_reducible intro _ | extract_lets | split | (dsimp +zetaDelta only; split)

theorem Dev.withdrawTick_keeps (d : Dev) (g : LinkId) : d.Keeps (d.withdrawTick g) [.alloc, .prot, .recorder, .cmd, .group, .out, .con, .rAlc] := by
  unfold Dev.withdrawTick
  repeat' first | with_reducible exact Dev.Keeps.rfl | ((with_reducible apply Part.within_goal); exact Eq.refl true) | ((with_reducible apply Part.isIn_goal); exact Eq.refl true) | with_reducible apply Dev.Keeps.via (Dev.onGroup_keeps _ _ _) | with_reducible apply Dev.Keeps.via (Dev.withdraw_keeps _ _ _) | with_reducible apply Dev.Keeps.ite | with_reducible intro _ | extract_lets

theorem Dev.unwithdraw_keeps (d : Dev) (g : LinkId) : d.Keeps (d.unwithdraw g) [.group] := by
  unfold Dev.unwithdraw
  repeat' first | with_reducible exact Dev.Keeps.rfl | ((with_reducible apply Part.within_goal); exact Eq.refl true) | ((with_reducible apply Part.isIn_goal); exact Eq.refl true) | with_reducible apply Dev.Keeps.via (Dev.onGroup_keeps _ _ _) | with_reducible apply Dev.Keeps.ite | with_reducible intro _ | extract_lets

theorem Dev.assignPrepare_keeps (d : Dev) (g : LinkId) : d.Keeps (d.assignPrepare g) [.prot, .group, .lprot] := by
  unfold Dev.assignPrepare
  repeat' first | with_reducible exact Dev.Keeps.rfl | ((with_reducible apply Part.within_goal); exact Eq.refl true) | ((with_reducible apply Part.isIn_goal); exact Eq.refl true) | with_reducible apply Dev.Keeps.via (Dev.segPrepare_keeps _ _ _) | with_reducible apply Dev.Keeps.via (Dev.onGroup_keeps _ _ _) | with_reducible apply Dev.Keeps.ite | with_reducible intro _ | split | (dsimp +zetaDelta only; split)

theorem Dev.assignBounds_keeps (d : Dev) (g : LinkId) : d.Keeps (d.assignBounds g) [.alloc, .prot, .recorder, .cmd, .group, .out, .con, .rAlc] := by
  unfold Dev.assignBounds
  repeat' first | with_reducible exact Dev.Keeps.rfl | ((with_reducible apply Part.within_goal); exact Eq.refl true) | ((with_reducible apply Part.isIn_goal); exact Eq.refl true) | with_reducible apply Dev.Keeps.via (Dev.withdraw_keeps _ _ _) | with_reducible apply Dev.Keeps.via (Dev.onGroup_keeps _ _ _) | with_reducible apply Dev.Keeps.via (Dev.dropSeg_keeps _ _) | with_reducible apply Dev.Keeps.ite | with_reducible intro _ | split | (dsimp +zetaDelta only; split)

theorem Dev.assignJoin_keeps (d : Dev) (g : LinkId) : d.Keeps (d.assignJoin g) [.prot, .group] := by
  unfold Dev.assignJoin
  repeat' first | with_reducible exact Dev.Keeps.rfl | ((with_reducible apply Part.within_goal); exact Eq.refl true) | ((with_reducible apply Part.isIn_goal); exact Eq.refl true) | with_reducible apply Dev.Keeps.via (Dev.onGroup_keeps _ _ _) | with_reducible apply Dev.Keeps.via (Dev.dropSeg_keeps _ _) | with_reducible apply Dev.Keeps.ite | with_reducible intro _ | split | (dsimp +zetaDelta only; split)

theorem Dev.releaseLow_keeps (d : Dev) (g : LinkId) : d.Keeps (d.releaseLow g) [.recorder, .cmd, .group, .con, .rAlc] := by
  unfold Dev.releaseLow
  repeat' first | with_reducible exact Dev.Keeps.rfl | ((with_reducible apply Part.within_goal); exact Eq.refl true) | ((with_reducible apply Part.isIn_goal); exact Eq.refl true) | with_reducible apply Dev.Keeps.via (Dev.onGroup_keeps _ _ _) | with_reducible apply Dev.Keeps.via (Dev.openAll_keeps _ _) | with_reducible apply Dev.Keeps.raise | with_reducible apply Dev.Keeps.ite | with_reducible intro _ | split | (dsimp +zetaDelta only; split)

theorem Dev.releaseOpen_keeps (d : Dev) (g : LinkId) : d.Keeps (d.releaseOpen g) [.cmd, .group, .con] := by
  unfold Dev.releaseOpen
  repeat' first | with_reducible exact Dev.Keeps.rfl | ((with_reducible apply Part.within_goal); exact Eq.refl true) | ((with_reducible apply Part.isIn_goal); exact Eq.refl true) | with_reducible apply Dev.Keeps.via (Dev.onGroup_keeps _ _ _) | with_reducible apply Dev.Keeps.via (Dev.openAll_keeps _ _) | with_reducible apply Dev.Keeps.ite | with_reducible intro _ | split | (dsimp +zetaDelta only; split)

theorem Dev.releaseDone_keeps (d : Dev) (g : LinkId) : d.Keeps (d.releaseDone g) [.group] := by
  unfold Dev.releaseDone
  repeat' first | with_reducible exact Dev.Keeps.rfl | ((with_reducible apply Part.within_goal); exact Eq.refl true) | ((with_reducible apply Part.isIn_goal); exact Eq.refl true) | with_reducible apply Dev.Keeps.via (Dev.onGroup_keeps _ _ _) | with_reducible apply Dev.Keeps.ite | with_reducible intro _ | split | (dsimp +zetaDelta only; split)

theorem Dev.onSlot_keeps (d : Dev) (x : Fin 16) (f : Exchange → Exchange) : d.Keeps (d.onSlot x f) [.alloc] := by
  unfold Dev.onSlot
  repeat' first | with_reducible exact Dev.Keeps.rfl | ((with_reducible apply Part.within_goal); exact Eq.refl true) | ((with_reducible apply Part.isIn_goal); exact Eq.refl true) | with_reducible apply Dev.Keeps.via (Dev.onAlloc_keeps _ _)

theorem Dev.exchOpen_keeps (d : Dev) (x : Fin 16) : d.Keeps (d.exchOpen x) [.alloc, .cmd, .group, .con] := by
  unfold Dev.exchOpen
  repeat' first | with_reducible exact Dev.Keeps.rfl | ((with_reducible apply Part.within_goal); exact Eq.refl true) | ((with_reducible apply Part.isIn_goal); exact Eq.refl true) | with_reducible apply Dev.Keeps.via (Dev.onSlot_keeps _ _ _) | with_reducible apply Dev.Keeps.via (Dev.onGroup_keeps _ _ _) | with_reducible apply Dev.Keeps.via (Dev.command_keeps _ _ _ _) | with_reducible apply Dev.Keeps.ite | with_reducible intro _ | split | (dsimp +zetaDelta only; split)

theorem Dev.exchDonorOpen_keeps (d : Dev) (x : Fin 16) : d.Keeps (d.exchDonorOpen x) [.alloc] := by
  unfold Dev.exchDonorOpen
  repeat' first | with_reducible exact Dev.Keeps.rfl | ((with_reducible apply Part.within_goal); exact Eq.refl true) | ((with_reducible apply Part.isIn_goal); exact Eq.refl true) | with_reducible apply Dev.Keeps.via (Dev.onSlot_keeps _ _ _) | with_reducible apply Dev.Keeps.ite | with_reducible intro _ | split | (dsimp +zetaDelta only; split)

theorem Dev.exchMatched_keeps (d : Dev) (x : Fin 16) : d.Keeps (d.exchMatched x) [.alloc] := by
  unfold Dev.exchMatched
  repeat' first | with_reducible exact Dev.Keeps.rfl | ((with_reducible apply Part.within_goal); exact Eq.refl true) | ((with_reducible apply Part.isIn_goal); exact Eq.refl true) | with_reducible apply Dev.Keeps.via (Dev.onSlot_keeps _ _ _) | with_reducible apply Dev.Keeps.ite | with_reducible intro _ | split | (dsimp +zetaDelta only; split)

theorem Dev.exchPrepare_keeps (d : Dev) (x : Fin 16) : d.Keeps (d.exchPrepare x) [.alloc, .prot, .lprot] := by
  unfold Dev.exchPrepare
  repeat' first | with_reducible exact Dev.Keeps.rfl | ((with_reducible apply Part.within_goal); exact Eq.refl true) | ((with_reducible apply Part.isIn_goal); exact Eq.refl true) | with_reducible apply Dev.Keeps.via (Dev.onSlot_keeps _ _ _) | with_reducible apply Dev.Keeps.via (Dev.segPrepare_keeps _ _ _) | with_reducible apply Dev.Keeps.ite | with_reducible intro _ | extract_lets | split | (dsimp +zetaDelta only; split)

theorem Dev.exchClose_keeps (d : Dev) (x : Fin 16) : d.Keeps (d.exchClose x) [.alloc, .cmd, .con] := by
  unfold Dev.exchClose
  repeat' first | with_reducible exact Dev.Keeps.rfl | ((with_reducible apply Part.within_goal); exact Eq.refl true) | ((with_reducible apply Part.isIn_goal); exact Eq.refl true) | with_reducible apply Dev.Keeps.via (Dev.onSlot_keeps _ _ _) | with_reducible apply Dev.Keeps.via (Dev.command_keeps _ _ _ _) | with_reducible apply Dev.Keeps.ite | with_reducible intro _ | split | (dsimp +zetaDelta only; split)

theorem Dev.exchJoin_keeps (d : Dev) (x : Fin 16) : d.Keeps (d.exchJoin x) [.alloc, .prot, .recorder, .cmd, .group, .out, .con, .veh, .rAlc, .rVeh] := by
  unfold Dev.exchJoin
  repeat' first | with_reducible exact Dev.Keeps.rfl | ((with_reducible apply Part.within_goal); exact Eq.refl true) | ((with_reducible apply Part.isIn_goal); exact Eq.refl true) | with_reducible apply Dev.Keeps.via (Dev.onGroup_keeps _ _ _) | with_reducible apply Dev.Keeps.via (Dev.dropSeg_keeps _ _) | with_reducible apply Dev.Keeps.via (Dev.closeSlot_keeps _ _ _) | with_reducible apply Dev.Keeps.via (Dev.publish_keeps _ _) | with_reducible apply Dev.Keeps.via (Dev.abortExchange_keeps _ _ _) | with_reducible apply Dev.Keeps.via (Dev.raiseGrant_keeps _ _ _) | with_reducible apply Dev.Keeps.raise | with_reducible apply Dev.Keeps.count | with_reducible apply Dev.Keeps.ite | with_reducible intro _ | extract_lets | split | (dsimp +zetaDelta only; split)

theorem Dev.exchTimeout_keeps (d : Dev) (x : Fin 16) : d.Keeps (d.exchTimeout x) Part.trip := by
  unfold Dev.exchTimeout
  repeat' first | with_reducible exact Dev.Keeps.rfl | ((with_reducible apply Part.within_goal); exact Eq.refl true) | ((with_reducible apply Part.isIn_goal); exact Eq.refl true) | with_reducible apply Dev.Keeps.via (Dev.linkCause_keeps _ _ _ _ _) | with_reducible apply Dev.Keeps.via (Dev.abortExchange_keeps _ _ _) | with_reducible apply Dev.Keeps.via (Dev.lowerReason_keeps _ _ _ _) | split | (dsimp +zetaDelta only; split)

theorem Dev.exchNoTarget_keeps (d : Dev) : d.Keeps (d.exchNoTarget) [.alloc, .prot, .recorder, .cmd, .group, .out, .con, .rAlc] := by
  unfold Dev.exchNoTarget
  repeat' first | with_reducible exact Dev.Keeps.rfl | ((with_reducible apply Part.within_goal); exact Eq.refl true) | ((with_reducible apply Part.isIn_goal); exact Eq.refl true) | with_reducible apply Dev.Keeps.via (Dev.abortWhere_keeps _ _ _)

theorem Dev.openFault_keeps (d : Dev) (n : LinkId) (k : Fin 16) : d.Keeps (d.openFault n k) Part.trip := by
  unfold Dev.openFault
  repeat' first | with_reducible exact Dev.Keeps.rfl | ((with_reducible apply Part.within_goal); exact Eq.refl true) | ((with_reducible apply Part.isIn_goal); exact Eq.refl true) | with_reducible apply Dev.Keeps.via (Dev.onCon_keeps _ _ _) | with_reducible apply Dev.Keeps.via (Dev.abortWhere_keeps _ _ _) | with_reducible apply Dev.Keeps.via (Dev.onGroup_keeps _ _ _) | with_reducible apply Dev.Keeps.via (Dev.command_keeps _ _ _ _) | with_reducible apply Dev.Keeps.via (Dev.withdraw_keeps _ _ _) | with_reducible apply Dev.Keeps.via (Dev.linkCause_keeps _ _ _ _ _) | with_reducible apply Dev.Keeps.ite | with_reducible intro _ | extract_lets | split | (dsimp +zetaDelta only; split)

theorem Dev.weldFault_keeps (d : Dev) (n : LinkId) (k : Fin 16) : d.Keeps (d.weldFault n k) (.lnk :: .lprot :: .rPrt :: .rLnk :: Part.session) := by
  unfold Dev.weldFault
  repeat' first | with_reducible exact Dev.Keeps.rfl | ((with_reducible apply Part.within_goal); exact Eq.refl true) | ((with_reducible apply Part.isIn_goal); exact Eq.refl true) | with_reducible apply Dev.Keeps.via (Dev.onCon_keeps _ _ _) | with_reducible apply Dev.Keeps.via (Dev.abortWhere_keeps _ _ _) | with_reducible apply Dev.Keeps.via (Dev.linkCause_keeps _ _ _ _ _) | with_reducible apply Dev.Keeps.via (Dev.withdraw_keeps _ _ _) | with_reducible apply Dev.Keeps.via (Dev.endStopped_keeps _ _) | with_reducible apply Dev.Keeps.ite | with_reducible intro _ | extract_lets | split | (dsimp +zetaDelta only; split)

theorem Dev.channelMismatch_keeps (d : Dev) : d.Keeps (d.channelMismatch) Part.trip := by
  unfold Dev.channelMismatch
  repeat' first | with_reducible exact Dev.Keeps.rfl | ((with_reducible apply Part.within_goal); exact Eq.refl true) | ((with_reducible apply Part.isIn_goal); exact Eq.refl true) | with_reducible apply Dev.Keeps.via (Dev.deviceCause_keeps _ _ _ _ _ _) | with_reducible apply Dev.Keeps.ite | with_reducible intro _

theorem Dev.selftest_keeps (d : Dev) (ok : Bool) : d.Keeps (d.selftest ok) Part.trip := by
  unfold Dev.selftest
  repeat' first | with_reducible exact Dev.Keeps.rfl | ((with_reducible apply Part.within_goal); exact Eq.refl true) | ((with_reducible apply Part.isIn_goal); exact Eq.refl true) | with_reducible apply Dev.Keeps.via (Dev.onProtection_keeps _ _) | with_reducible apply Dev.Keeps.via (Dev.markGone_keeps _ _ _) | with_reducible apply Dev.Keeps.via (Dev.deviceCause_keeps _ _ _ _ _ _) | with_reducible apply Dev.Keeps.ite | with_reducible intro _ | extract_lets

theorem Dev.readbackFault_keeps (d : Dev) (k : Fin 4) : d.Keeps (d.readbackFault k) Part.trip := by
  unfold Dev.readbackFault
  repeat' first | with_reducible exact Dev.Keeps.rfl | ((with_reducible apply Part.within_goal); exact Eq.refl true) | ((with_reducible apply Part.isIn_goal); exact Eq.refl true) | with_reducible apply Dev.Keeps.via (Dev.onProtection_keeps _ _) | with_reducible apply Dev.Keeps.causeOn | with_reducible apply Dev.Keeps.ite | with_reducible intro _

theorem Dev.threshRetry_keeps (d : Dev) (n : LinkId) : d.Keeps (d.threshRetry n) [.lnk, .lprot] := by
  unfold Dev.threshRetry
  repeat' first | with_reducible exact Dev.Keeps.rfl | ((with_reducible apply Part.within_goal); exact Eq.refl true) | ((with_reducible apply Part.isIn_goal); exact Eq.refl true) | with_reducible apply Dev.Keeps.via (Dev.startThresholds_keeps _ _) | with_reducible apply Dev.Keeps.ite | with_reducible intro _ | split | (dsimp +zetaDelta only; split)

theorem Dev.takeReady_keeps (d : Dev) (g : LinkId) : d.Keeps (d.takeReady g) [.alloc, .cmd, .group, .con] := by
  unfold Dev.takeReady
  repeat' first | with_reducible exact Dev.Keeps.rfl | ((with_reducible apply Part.within_goal); exact Eq.refl true) | ((with_reducible apply Part.isIn_goal); exact Eq.refl true) | with_reducible apply Dev.Keeps.via (Dev.onSlot_keeps _ _ _) | with_reducible apply Dev.Keeps.via (Dev.closeAssigned_keeps _ _) | split | (dsimp +zetaDelta only; split)

theorem Dev.segReady_keeps (d : Dev) (g : LinkId) : d.Keeps (d.segReady g) [.alloc, .prot, .cmd, .group, .con, .veh] := by
  unfold Dev.segReady
  repeat' first | with_reducible exact Dev.Keeps.rfl | ((with_reducible apply Part.within_goal); exact Eq.refl true) | ((with_reducible apply Part.isIn_goal); exact Eq.refl true) | with_reducible apply Dev.Keeps.via (Dev.takeReady_keeps _ _) | with_reducible apply Dev.Keeps.via (Dev.onVeh_keeps _ _ _) | with_reducible apply Dev.Keeps.via (Dev.onProtection_keeps _ _) | with_reducible apply Dev.Keeps.ite | with_reducible intro _ | split | (dsimp +zetaDelta only; split)

theorem Dev.symmetryFault_keeps (d : Dev) (n : LinkId) : d.Keeps (d.symmetryFault n) Part.trip := by
  unfold Dev.symmetryFault
  repeat' first | with_reducible exact Dev.Keeps.rfl | ((with_reducible apply Part.within_goal); exact Eq.refl true) | ((with_reducible apply Part.isIn_goal); exact Eq.refl true) | with_reducible apply Dev.Keeps.via (Dev.linkCause_keeps _ _ _ _ _) | with_reducible apply Dev.Keeps.ite | with_reducible intro _

theorem Dev.rdcAcFault_keeps (d : Dev) (n : LinkId) : d.Keeps (d.rdcAcFault n) Part.trip := by
  unfold Dev.rdcAcFault
  repeat' first | with_reducible exact Dev.Keeps.rfl | ((with_reducible apply Part.within_goal); exact Eq.refl true) | ((with_reducible apply Part.isIn_goal); exact Eq.refl true) | with_reducible apply Dev.Keeps.via (Dev.linkCause_keeps _ _ _ _ _) | with_reducible apply Dev.Keeps.ite | with_reducible intro _ | extract_lets

theorem Dev.rdcDcFault_keeps (d : Dev) (n : LinkId) : d.Keeps (d.rdcDcFault n) Part.trip := by
  unfold Dev.rdcDcFault
  repeat' first | with_reducible exact Dev.Keeps.rfl | ((with_reducible apply Part.within_goal); exact Eq.refl true) | ((with_reducible apply Part.isIn_goal); exact Eq.refl true) | with_reducible apply Dev.Keeps.via (Dev.linkCause_keeps _ _ _ _ _) | with_reducible apply Dev.Keeps.ite | with_reducible intro _ | extract_lets

theorem Dev.siteRdcFault_keeps (d : Dev) (n : LinkId) : d.Keeps (d.siteRdcFault n) Part.trip := by
  unfold Dev.siteRdcFault
  repeat' first | with_reducible exact Dev.Keeps.rfl | ((with_reducible apply Part.within_goal); exact Eq.refl true) | ((with_reducible apply Part.isIn_goal); exact Eq.refl true) | with_reducible apply Dev.Keeps.via (Dev.linkCause_keeps _ _ _ _ _) | with_reducible apply Dev.Keeps.ite | with_reducible intro _

theorem Dev.reduced_keeps (d : Dev) (n : LinkId) (voltage on : Bool) : d.Keeps (d.reduced n voltage on) [.out, .veh, .lprot, .rVeh] := by
  unfold Dev.reduced
  repeat' first | with_reducible exact Dev.Keeps.rfl | ((with_reducible apply Part.within_goal); exact Eq.refl true) | ((with_reducible apply Part.isIn_goal); exact Eq.refl true) | with_reducible apply Dev.Keeps.via (Dev.setpoints_keeps _ _) | with_reducible apply Dev.Keeps.via (Dev.publish_keeps _ _) | with_reducible apply Dev.Keeps.via (Dev.onProt_keeps _ _ _) | with_reducible apply Dev.Keeps.ite | with_reducible intro _

theorem Dev.limitReduce_keeps (d : Dev) (n : LinkId) (voltage : Bool) : d.Keeps (d.limitReduce n voltage) [.recorder, .out, .veh, .lprot, .rPrt, .rVeh] := by
  unfold Dev.limitReduce
  repeat' first | with_reducible exact Dev.Keeps.rfl | ((with_reducible apply Part.within_goal); exact Eq.refl true) | ((with_reducible apply Part.isIn_goal); first | exact Eq.refl true | exact contains_of (regPart_prtLEvents (Nat.lt_of_lt_of_le (Fin.isLt _) (by decide))) (Eq.refl true)) | with_reducible apply Dev.Keeps.via (Dev.reduced_keeps _ _ _ _) | with_reducible apply Dev.Keeps.raise | with_reducible apply Dev.Keeps.ite | with_reducible intro _ | extract_lets

theorem Dev.limitTrip_keeps (d : Dev) (n : LinkId) (voltage : Bool) : d.Keeps (d.limitTrip n voltage) Part.trip := by
  unfold Dev.limitTrip
  repeat' first | with_reducible exact Dev.Keeps.rfl | ((with_reducible apply Part.within_goal); exact Eq.refl true) | ((with_reducible apply Part.isIn_goal); exact Eq.refl true) | with_reducible apply Dev.Keeps.via (Dev.linkCause_keeps _ _ _ _ _) | with_reducible apply Dev.Keeps.ite | with_reducible intro _

theorem Dev.limitLift_keeps (d : Dev) (n : LinkId) (voltage : Bool) : d.Keeps (d.limitLift n voltage) [.out, .veh, .lprot, .rVeh] := by
  unfold Dev.limitLift
  repeat' first | with_reducible exact Dev.Keeps.rfl | ((with_reducible apply Part.within_goal); exact Eq.refl true) | ((with_reducible apply Part.isIn_goal); exact Eq.refl true) | with_reducible apply Dev.Keeps.via (Dev.reduced_keeps _ _ _ _) | with_reducible apply Dev.Keeps.ite | with_reducible intro _ | extract_lets

theorem Dev.safeDirFault_keeps (d : Dev) (n : LinkId) : d.Keeps (d.safeDirFault n) Part.trip := by
  unfold Dev.safeDirFault
  repeat' first | with_reducible exact Dev.Keeps.rfl | ((with_reducible apply Part.within_goal); exact Eq.refl true) | ((with_reducible apply Part.isIn_goal); exact Eq.refl true) | with_reducible apply Dev.Keeps.via (Dev.linkCause_keeps _ _ _ _ _) | with_reducible apply Dev.Keeps.ite | with_reducible intro _

theorem Dev.avDiscrepancy_keeps (d : Dev) (k : Fin 8) : d.Keeps (d.avDiscrepancy k) Part.trip := by
  unfold Dev.avDiscrepancy
  repeat' first | with_reducible exact Dev.Keeps.rfl | ((with_reducible apply Part.within_goal); exact Eq.refl true) | ((with_reducible apply Part.isIn_goal); exact Eq.refl true) | with_reducible apply Dev.Keeps.via (Dev.onPair_keeps _ _ _) | with_reducible apply Dev.Keeps.causeOn | with_reducible apply Dev.Keeps.ite | with_reducible intro _ | extract_lets

theorem Dev.avRestart_keeps (d : Dev) (k : Fin 8) : d.Keeps (d.avRestart k) [.prot] := by
  unfold Dev.avRestart
  repeat' first | with_reducible exact Dev.Keeps.rfl | ((with_reducible apply Part.within_goal); exact Eq.refl true) | ((with_reducible apply Part.isIn_goal); exact Eq.refl true) | with_reducible apply Dev.Keeps.via (Dev.onPair_keeps _ _ _) | with_reducible apply Dev.Keeps.ite | with_reducible intro _ | extract_lets

theorem Dev.causeGone_keeps (d : Dev) (n : Option LinkId) (code : Nat) : d.Keeps (d.causeGone n code) [.prot, .lprot] := by
  unfold Dev.causeGone
  repeat' first | with_reducible exact Dev.Keeps.rfl | ((with_reducible apply Part.within_goal); exact Eq.refl true) | ((with_reducible apply Part.isIn_goal); exact Eq.refl true) | with_reducible apply Dev.Keeps.via (Dev.markGone_keeps _ _ _) | with_reducible apply Dev.Keeps.ite | with_reducible intro _

theorem Dev.onReset_keeps (d : Dev) (k : Fin 2) (f : ResetInput → ResetInput) : d.Keeps (d.onReset k f) [.prot] := by
  unfold Dev.onReset
  repeat' first | with_reducible exact Dev.Keeps.rfl | ((with_reducible apply Part.within_goal); exact Eq.refl true) | ((with_reducible apply Part.isIn_goal); exact Eq.refl true) | with_reducible apply Dev.Keeps.via (Dev.onProtection_keeps _ _)

theorem Dev.resetRise_keeps (d : Dev) (k : Fin 2) : d.Keeps (d.resetRise k) [.prot] := by
  unfold Dev.resetRise
  repeat' first | with_reducible exact Dev.Keeps.rfl | ((with_reducible apply Part.within_goal); exact Eq.refl true) | ((with_reducible apply Part.isIn_goal); exact Eq.refl true) | with_reducible apply Dev.Keeps.via (Dev.onReset_keeps _ _ _) | with_reducible apply Dev.Keeps.ite | with_reducible intro _ | extract_lets

theorem Dev.resetFall_keeps (d : Dev) (k : Fin 2) : d.Keeps (d.resetFall k) [.power, .prot, .recorder, .lnk, .group, .con, .veh, .lprot, .rPrt] := by
  unfold Dev.resetFall
  repeat' first | with_reducible exact Dev.Keeps.rfl | ((with_reducible apply Part.within_goal); exact Eq.refl true) | ((with_reducible apply Part.isIn_goal); exact Eq.refl true) | with_reducible apply Dev.Keeps.via (Dev.onReset_keeps _ _ _) | with_reducible apply Dev.Keeps.via (Dev.edgeReset_keeps _ _ _) | with_reducible apply Dev.Keeps.raise | with_reducible apply Dev.Keeps.ite | with_reducible intro _ | extract_lets

theorem Dev.resetJam_keeps (d : Dev) (k : Fin 2) : d.Keeps (d.resetJam k) [.prot, .recorder, .rPrt] := by
  unfold Dev.resetJam
  repeat' first | with_reducible exact Dev.Keeps.rfl | ((with_reducible apply Part.within_goal); exact Eq.refl true) | ((with_reducible apply Part.isIn_goal); exact Eq.refl true) | with_reducible apply Dev.Keeps.via (Dev.onReset_keeps _ _ _) | with_reducible apply Dev.Keeps.raise | with_reducible apply Dev.Keeps.ite | with_reducible intro _ | extract_lets

theorem Dev.snReceive_keeps (d : Dev) (net : SafetyNet) (kind : Nat) (frame : List Byte) : d.Keeps (d.snReceive net kind frame) Part.trip := by
  unfold Dev.snReceive
  repeat' first | with_reducible exact Dev.Keeps.rfl | ((with_reducible apply Part.within_goal); exact Eq.refl true) | ((with_reducible apply Part.isIn_goal); exact Eq.refl true) | with_reducible apply Dev.Keeps.via (Dev.snFrame_keeps _ _ _ _) | with_reducible apply Dev.Keeps.ite | with_reducible intro _ | split | (dsimp +zetaDelta only; split)

theorem Dev.copyLate_keeps (d : Dev) (c : Fin 8) : d.Keeps (d.copyLate c) Part.trip := by
  unfold Dev.copyLate
  repeat' first | with_reducible exact Dev.Keeps.rfl | ((with_reducible apply Part.within_goal); exact Eq.refl true) | ((with_reducible apply Part.isIn_goal); exact Eq.refl true) | with_reducible apply Dev.Keeps.via (Dev.snFault_keeps _ _) | with_reducible apply Dev.Keeps.via (Dev.onConn_keeps _ _ _) | with_reducible apply Dev.Keeps.ite | with_reducible intro _ | extract_lets

theorem Dev.watchdogLate_keeps (d : Dev) (c : Fin 8) : d.Keeps (d.watchdogLate c) Part.trip := by
  unfold Dev.watchdogLate
  repeat' first | with_reducible exact Dev.Keeps.rfl | ((with_reducible apply Part.within_goal); exact Eq.refl true) | ((with_reducible apply Part.isIn_goal); exact Eq.refl true) | with_reducible apply Dev.Keeps.via (Dev.snFault_keeps _ _) | with_reducible apply Dev.Keeps.ite | with_reducible intro _ | extract_lets

theorem Dev.startLate_keeps (d : Dev) (c : Fin 8) : d.Keeps (d.startLate c) Part.trip := by
  unfold Dev.startLate
  repeat' first | with_reducible exact Dev.Keeps.rfl | ((with_reducible apply Part.within_goal); exact Eq.refl true) | ((with_reducible apply Part.isIn_goal); exact Eq.refl true) | with_reducible apply Dev.Keeps.via (Dev.snFault_keeps _ _) | with_reducible apply Dev.Keeps.ite | with_reducible intro _ | extract_lets

theorem Dev.snTx_keeps (d : Dev) : d.Keeps (d.snTx) [.prot] := by
  unfold Dev.snTx
  repeat' first | with_reducible exact Dev.Keeps.rfl | ((with_reducible apply Part.within_goal); exact Eq.refl true) | ((with_reducible apply Part.isIn_goal); exact Eq.refl true) | with_reducible apply Dev.Keeps.via (Dev.snSend_keeps _) | with_reducible apply Dev.Keeps.ite | with_reducible intro _

theorem Dev.unpoison_keeps (d : Dev) (a : Nat) : d.Keeps (d.unpoison a) [.mem] := by
  unfold Dev.unpoison
  repeat' first | with_reducible exact Dev.Keeps.rfl | ((with_reducible apply Part.within_goal); exact Eq.refl true) | ((with_reducible apply Part.isIn_goal); exact Eq.refl true) | with_reducible apply Dev.Keeps.via (Dev.onMem_keeps _ _)

theorem Dev.hostCommand_keeps (d : Dev) (a : Nat) (w : Word) : d.Keeps (d.hostCommand a w) (.pacer :: .power :: .tenants :: .bill :: .alloc :: .prot :: .sec :: .grid :: .cfg :: .upd :: .recorder :: .mem :: .archive :: .locked :: .fresh :: .lnk :: .cmd :: .met :: .lbill :: .group :: .out :: .con :: .veh :: .lprot :: Part.registers) := by
  unfold Dev.hostCommand
  repeat' first | with_reducible exact Dev.Keeps.rfl | ((with_reducible apply Part.within_goal); exact Eq.refl true) | ((with_reducible apply Part.isIn_goal); first | exact Eq.refl true | with_reducible apply contains_regPart) | with_reducible apply Dev.Keeps.via (Dev.retrain_keeps _ _) | with_reducible apply Dev.Keeps.via (Dev.startStop_keeps _ _ _ _) | with_reducible apply Dev.Keeps.via (Dev.onMet_keeps _ _ _) | with_reducible apply Dev.Keeps.via (Dev.modeRequest_keeps _ _) | with_reducible apply Dev.Keeps.via (Dev.enrol_keeps _ _) | with_reducible apply Dev.Keeps.via (Dev.rotateRoot_keeps _) | with_reducible apply Dev.Keeps.via (Dev.rngRestart_keeps _) | with_reducible apply Dev.Keeps.via (Dev.loadChain_keeps _ _) | with_reducible apply Dev.Keeps.via (Dev.discover_keeps _) | with_reducible apply Dev.Keeps.via (Dev.relisten_keeps _) | with_reducible apply Dev.Keeps.via (Dev.fnHold_keeps _ _ _) | with_reducible apply Dev.Keeps.via (Dev.fnResume_keeps _ _ _) | with_reducible apply Dev.Keeps.via (Dev.fnCancel_keeps _ _ _) | with_reducible apply Dev.Keeps.via (Dev.loadWrite_keeps _) | with_reducible apply Dev.Keeps.via (Dev.loadCommit_keeps _ _) | with_reducible apply Dev.Keeps.via (Dev.updActivate_keeps _) | with_reducible apply Dev.Keeps.via (Dev.updAbandon_keeps _) | with_reducible apply Dev.Keeps.via (Dev.healthConfirm_keeps _ _) | with_reducible apply Dev.Keeps.via (Dev.clearLastWords_keeps _) | with_reducible apply Dev.Keeps.via (Dev.retest_keeps _) | with_reducible apply Dev.Keeps.via (Dev.lockTenant_keeps _ _) | with_reducible apply Dev.Keeps.setReg | with_reducible apply Dev.Keeps.loadCmd | with_reducible apply Dev.Keeps.gw | with_reducible apply Dev.Keeps.ite | with_reducible intro _ | extract_lets | split | (dsimp +zetaDelta only; split)

theorem Dev.writeOnly_keeps (d : Dev) (a : Nat) (w : Word) : d.Keeps (d.writeOnly a w) [.svc, .sec, .upd, .recorder, .archive, .rSec, .rTag] := by
  unfold Dev.writeOnly
  repeat' first | with_reducible exact Dev.Keeps.rfl | ((with_reducible apply Part.within_goal); exact Eq.refl true) | ((with_reducible apply Part.isIn_goal); exact Eq.refl true) | with_reducible apply Dev.Keeps.via (Dev.wireAcquire_keeps _) | with_reducible apply Dev.Keeps.via (Dev.wirePost_keeps _ _) | with_reducible apply Dev.Keeps.via (Dev.wireRelease_keeps _) | with_reducible apply Dev.Keeps.via (Dev.wireCancel_keeps _) | with_reducible apply Dev.Keeps.via (Dev.attestStart_keeps _) | with_reducible apply Dev.Keeps.via (Dev.arcRead_keeps _ _) | with_reducible apply Dev.Keeps.via (Dev.submitObject_keeps _ _ _) | with_reducible apply Dev.Keeps.via (Dev.submitPiece_keeps _ _ _) | with_reducible apply Dev.Keeps.ite | with_reducible intro _ | split | (dsimp +zetaDelta only; split)

theorem Dev.plainWrite_keeps (d : Dev) (a : Nat) (w : Word) (r : RegDecl) : d.Keeps (d.plainWrite a w r) (.mem :: Part.registers) := by
  unfold Dev.plainWrite
  repeat' first | with_reducible exact Dev.Keeps.rfl | ((with_reducible apply Part.within_goal); exact Eq.refl true) | ((with_reducible apply Part.isIn_goal); first | exact Eq.refl true | with_reducible apply contains_regPart) | with_reducible apply Dev.Keeps.via (Dev.unpoison_keeps _ _) | with_reducible apply Dev.Keeps.setReg

theorem Dev.writeRw_keeps (d : Dev) (a : Nat) (w : Word) (r : RegDecl) : d.Keeps (d.writeRw a w r) (.alloc :: .mem :: .aux :: Part.registers) := by
  unfold Dev.writeRw
  repeat' first | with_reducible exact Dev.Keeps.rfl | ((with_reducible apply Part.within_goal); exact Eq.refl true) | ((with_reducible apply Part.isIn_goal); first | exact Eq.refl true | with_reducible apply contains_regPart) | with_reducible apply Dev.Keeps.via (Dev.writeWaitMax_keeps _ _) | with_reducible apply Dev.Keeps.via (Dev.hostLimit_keeps _ _) | with_reducible apply Dev.Keeps.via (Dev.wireWrite_keeps _ _ _) | with_reducible apply Dev.Keeps.via (Dev.auxCommand_keeps _ _ _) | with_reducible apply Dev.Keeps.via (Dev.plainWrite_keeps _ _ _ _) | with_reducible apply Dev.Keeps.setReg | with_reducible apply Dev.Keeps.ite | with_reducible intro _ | extract_lets | split | (dsimp +zetaDelta only; split)

theorem Dev.clearSticky_keeps (d shown : Dev) (a : Nat) (w : Word) (r : RegDecl) : d.Keeps (d.clearSticky shown a w r) (.recorder :: .mem :: Part.registers) := by
  unfold Dev.clearSticky
  repeat' first | with_reducible exact Dev.Keeps.rfl | ((with_reducible apply Part.within_goal); exact Eq.refl true) | ((with_reducible apply Part.isIn_goal); first | exact Eq.refl true | with_reducible apply contains_regPart) | with_reducible apply Dev.Keeps.via (Dev.unpoison_keeps _ _) | with_reducible apply Dev.Keeps.via (Dev.onRec_keeps _ _) | with_reducible apply Dev.Keeps.setReg | with_reducible apply Dev.Keeps.foldl | with_reducible intro _ | extract_lets

theorem Dev.takeWord_keeps (d shown : Dev) (a : Nat) (w : Word) (r : RegDecl) : d.Keeps (d.takeWord shown a w r) (.svc :: .sec :: .grid :: .cfg :: .upd :: .mem :: .archive :: .locked :: .fresh :: .lnk :: .lprot :: .rGlb :: .rPwr :: .rCfg :: .rUpd :: .rSec :: .rMem :: .rEvr :: .rPrt :: .rGrd :: .rTag :: .rLio :: .rHpt :: .rLnk :: .rAux :: .rNone :: Part.session) := by
  unfold Dev.takeWord
  repeat' first | with_reducible exact Dev.Keeps.rfl | ((with_reducible apply Part.within_goal); exact Eq.refl true) | ((with_reducible apply Part.isIn_goal); first | exact Eq.refl true | with_reducible apply contains_regPart) | with_reducible apply Dev.Keeps.via (Dev.unpoison_keeps _ _) | with_reducible apply Dev.Keeps.via (Dev.writeRw_keeps _ _ _ _) | with_reducible apply Dev.Keeps.via (Dev.plainWrite_keeps _ _ _ _) | with_reducible apply Dev.Keeps.via (Dev.clearSticky_keeps _ _ _ _ _) | with_reducible apply Dev.Keeps.via (Dev.hostCommand_keeps _ _ _) | with_reducible apply Dev.Keeps.via (Dev.writeOnly_keeps _ _ _) | with_reducible apply Dev.Keeps.ite | with_reducible intro _ | split | (dsimp +zetaDelta only; split)

theorem Dev.captureWide_keeps (d shown : Dev) (a : Nat) : d.Keeps (d.captureWide shown a) [.host] := by
  unfold Dev.captureWide
  repeat' first | with_reducible exact Dev.Keeps.rfl | ((with_reducible apply Part.within_goal); exact Eq.refl true) | ((with_reducible apply Part.isIn_goal); exact Eq.refl true) | with_reducible apply Dev.Keeps.via (Dev.onHost_keeps _ _) | with_reducible apply Dev.Keeps.ite | with_reducible intro _

theorem Dev.rearm_keeps (d : Dev) (a : Nat) : d.Keeps (d.rearm a) [.host, .sec, .mem] := by
  unfold Dev.rearm
  repeat' first | with_reducible exact Dev.Keeps.rfl | ((with_reducible apply Part.within_goal); exact Eq.refl true) | ((with_reducible apply Part.isIn_goal); exact Eq.refl true) | with_reducible apply Dev.Keeps.via (Dev.onHost_keeps _ _) | with_reducible apply Dev.Keeps.via (Dev.readViolCause_keeps _) | with_reducible apply Dev.Keeps.via (Dev.readPoisonAddr_keeps _) | with_reducible apply Dev.Keeps.ite | with_reducible intro _

theorem Dev.readReg_keeps (d shown : Dev) (a : Nat) (r : RegDecl) : d.Keeps (d.readReg shown a r).2 [.host, .sec, .mem] := by
  unfold Dev.readReg
  repeat' first | with_reducible exact Dev.Keeps.rfl | ((with_reducible apply Part.within_goal); exact Eq.refl true) | ((with_reducible apply Part.isIn_goal); exact Eq.refl true) | with_reducible apply Dev.Keeps.via (Dev.onHost_keeps _ _) | with_reducible apply Dev.Keeps.via (Dev.rearm_keeps _ _) | with_reducible apply Dev.Keeps.via (Dev.captureWide_keeps _ _ _) | with_reducible apply Dev.Keeps.ite | with_reducible intro _ | split | dsimp only | (dsimp +zetaDelta only; split)

theorem Dev.busError_keeps (d : Dev) (t : Txn) (cause applied : Nat) (early : Bool := false) : d.Keeps (d.busError t cause applied early).1 [.host, .recorder, .rHpt] := by
  unfold Dev.busError
  repeat' first | with_reducible exact Dev.Keeps.rfl | ((with_reducible apply Part.within_goal); exact Eq.refl true) | ((with_reducible apply Part.isIn_goal); exact Eq.refl true) | with_reducible apply Dev.Keeps.via (Dev.onHost_keeps _ _) | with_reducible apply Dev.Keeps.raise | with_reducible apply Dev.Keeps.count | with_reducible apply Dev.Keeps.ite | with_reducible intro _ | extract_lets | split | dsimp only | (dsimp +zetaDelta only; split)

theorem Dev.guardFail_keeps (d : Dev) : d.Keeps (d.guardFail) [.host, .recorder, .rHpt] := by
  unfold Dev.guardFail
  repeat' first | with_reducible exact Dev.Keeps.rfl | ((with_reducible apply Part.within_goal); exact Eq.refl true) | ((with_reducible apply Part.isIn_goal); exact Eq.refl true) | with_reducible apply Dev.Keeps.via (Dev.onHost_keeps _ _) | with_reducible apply Dev.Keeps.raise | with_reducible apply Dev.Keeps.count

theorem Dev.openPair_keeps (d : Dev) (t : Txn) (w : Word) (silent : Bool) : d.Keeps (d.openPair t w silent).1 [.host, .recorder, .rHpt] := by
  unfold Dev.openPair
  repeat' first | with_reducible exact Dev.Keeps.rfl | ((with_reducible apply Part.within_goal); exact Eq.refl true) | ((with_reducible apply Part.isIn_goal); exact Eq.refl true) | with_reducible apply Dev.Keeps.via (Dev.onHost_keeps _ _) | with_reducible apply Dev.Keeps.via (Dev.guardFail_keeps _) | with_reducible apply Dev.Keeps.ite | with_reducible intro _ | split | dsimp only | (dsimp +zetaDelta only; split)

theorem Dev.readPoison_keeps (d shown : Dev) (t : Txn) (a : Nat) : d.Keeps (d.readPoison shown t a).1 [.mem, .rMem] := by
  unfold Dev.readPoison
  repeat' first | with_reducible exact Dev.Keeps.rfl | ((with_reducible apply Part.within_goal); exact Eq.refl true) | ((with_reducible apply Part.isIn_goal); exact Eq.refl true) | with_reducible apply Dev.Keeps.via (Dev.consumePoison_keeps _ _ _) | with_reducible apply Dev.Keeps.ite | with_reducible intro _ | split | dsimp only | (dsimp +zetaDelta only; split)

theorem Dev.readWord_keeps (d shown : Dev) (t : Txn) : d.Keeps (d.readWord shown t).1 [.host, .sec, .recorder, .mem, .lnk, .rSec, .rMem, .rHpt] := by
  unfold Dev.readWord
  repeat' first | with_reducible exact Dev.Keeps.rfl | ((with_reducible apply Part.within_goal); exact Eq.refl true) | ((with_reducible apply Part.isIn_goal); exact Eq.refl true) | with_reducible apply Dev.Keeps.via (Dev.onHost_keeps _ _) | with_reducible apply Dev.Keeps.via (Dev.busError_keeps _ _ _ _ _) | with_reducible apply Dev.Keeps.via (Dev.violation_keeps _ _ _ _) | with_reducible apply Dev.Keeps.via (Dev.readPoison_keeps _ _ _ _) | with_reducible apply Dev.Keeps.via (Dev.queueReq_keeps _ _ _ _ _) | with_reducible apply Dev.Keeps.via (Dev.readReg_keeps _ _ _ _) | with_reducible apply Dev.Keeps.ite | with_reducible intro _ | extract_lets | split | dsimp only | (dsimp +zetaDelta only; split)

theorem Dev.writeWord_keeps (d shown : Dev) (t : Txn) (w : Word) : d.Keeps (d.writeWord shown t w).1 Part.port := by
  unfold Dev.writeWord
  repeat' first | with_reducible exact Dev.Keeps.rfl | ((with_reducible apply Part.within_goal); exact Eq.refl true) | ((with_reducible apply Part.isIn_goal); first | exact Eq.refl true | with_reducible apply contains_regPart) | with_reducible apply Dev.Keeps.via (Dev.onHost_keeps _ _) | with_reducible apply Dev.Keeps.via (Dev.busError_keeps _ _ _ _ _) | with_reducible apply Dev.Keeps.via (Dev.violation_keeps _ _ _ _) | with_reducible apply Dev.Keeps.via (Dev.openPair_keeps _ _ _ _) | with_reducible apply Dev.Keeps.via (Dev.queueReq_keeps _ _ _ _ _) | with_reducible apply Dev.Keeps.via (Dev.takeWord_keeps _ _ _ _ _) | with_reducible apply Dev.Keeps.ite | with_reducible intro _ | extract_lets | split | dsimp only | (dsimp +zetaDelta only; split)

theorem Dev.stalledWord_keeps (d : Dev) (t : Txn) (done : Bool) : d.Keeps (d.stalledWord t done).1 [.host, .recorder, .rHpt] := by
  unfold Dev.stalledWord
  repeat' first | with_reducible exact Dev.Keeps.rfl | ((with_reducible apply Part.within_goal); exact Eq.refl true) | ((with_reducible apply Part.isIn_goal); exact Eq.refl true) | with_reducible apply Dev.Keeps.via (Dev.busError_keeps _ _ _ _ _) | with_reducible apply Dev.Keeps.raise | extract_lets | dsimp only | (dsimp +zetaDelta only; split)

theorem Dev.serveWord_keeps (d shown : Dev) (t : Txn) (x : Option Word) : d.Keeps (d.serveWord shown t x).1 Part.port := by
  unfold Dev.serveWord
  repeat' first | with_reducible exact Dev.Keeps.rfl | ((with_reducible apply Part.within_goal); exact Eq.refl true) | ((with_reducible apply Part.isIn_goal); first | exact Eq.refl true | with_reducible apply contains_regPart) | with_reducible apply Dev.Keeps.via (Dev.writeWord_keeps _ _ _ _) | with_reducible apply Dev.Keeps.via (Dev.readWord_keeps _ _ _) | with_reducible apply Dev.Keeps.via (Dev.stalledWord_keeps _ _ _) | with_reducible apply Dev.Keeps.via (Dev.onHost_keeps _ _) | with_reducible apply Dev.Keeps.ite | with_reducible intro _ | extract_lets | split | dsimp only | (dsimp +zetaDelta only; split)

theorem Dev.serveWords_keeps (d shown : Dev) (ws : List (Option Word)) (t : Txn) : d.Keeps (d.serveWords shown ws t).1 Part.port := by
  induction ws generalizing d t with
  | nil => exact Dev.Keeps.rfl
  | cons x xs ih =>
    have go : ∀ (e : Dev) (t : Txn), d.Keeps e Part.port → d.Keeps (e.serveWords shown xs t).1 Part.port := fun e t h => h.trans (ih e t) fun _ h => h
    unfold Dev.serveWords
    split
    · exact ih _ _
    · extract_lets y
      have hy : d.Keeps y.1 Part.port := by
        exact Dev.Keeps.via (Dev.serveWord_keeps _ _ _ _) Dev.Keeps.rfl (Eq.refl true)
      split
      · exact hy
      · exact go _ _ hy

theorem Dev.stalls_keeps (d : Dev) (t : Txn) : d.Keeps (d.stalls t).1 [.fresh, .rHpt] := by
  unfold Dev.stalls
  repeat' first | with_reducible exact Dev.Keeps.rfl | ((with_reducible apply Part.within_goal); exact Eq.refl true) | ((with_reducible apply Part.isIn_goal); exact Eq.refl true) | with_reducible apply Dev.Keeps.setReg | with_reducible apply Dev.Keeps.drew | with_reducible apply Dev.Keeps.ite | with_reducible intro _ | extract_lets | split | dsimp only | (dsimp +zetaDelta only; split)

theorem Dev.endTxn_keeps (d : Dev) (t : Txn) : d.Keeps (d.endTxn t) [.host, .fresh, .rHpt] := by
  unfold Dev.endTxn
  repeat' first | with_reducible exact Dev.Keeps.rfl | ((with_reducible apply Part.within_goal); exact Eq.refl true) | ((with_reducible apply Part.isIn_goal); exact Eq.refl true) | with_reducible apply Dev.Keeps.via (Dev.stalls_keeps _ _) | with_reducible apply Dev.Keeps.via (Dev.onHost_keeps _ _) | with_reducible apply Dev.Keeps.setReg | with_reducible apply Dev.Keeps.ite | with_reducible intro _ | extract_lets | dsimp only | (dsimp +zetaDelta only; split)

theorem Dev.goOn_keeps (d shown : Dev) (t : Txn) : d.Keeps (d.goOn shown t) Part.port := by
  unfold Dev.goOn
  repeat' first | with_reducible exact Dev.Keeps.rfl | ((with_reducible apply Part.within_goal); exact Eq.refl true) | ((with_reducible apply Part.isIn_goal); first | exact Eq.refl true | with_reducible apply contains_regPart) | with_reducible apply Dev.Keeps.via (Dev.serveWords_keeps _ _ _ _) | with_reducible apply Dev.Keeps.via (Dev.onHost_keeps _ _) | with_reducible apply Dev.Keeps.via (Dev.endTxn_keeps _ _) | with_reducible apply Dev.Keeps.ite | with_reducible intro _ | extract_lets | dsimp only | (dsimp +zetaDelta only; split)

theorem Dev.commitPair_keeps (d shown : Dev) (p : OpenPair) : d.Keeps (d.commitPair shown p) Part.port := by
  unfold Dev.commitPair
  repeat' first | with_reducible exact Dev.Keeps.rfl | ((with_reducible apply Part.within_goal); exact Eq.refl true) | ((with_reducible apply Part.isIn_goal); first | exact Eq.refl true | with_reducible apply contains_regPart) | with_reducible apply Dev.Keeps.via (Dev.onHost_keeps _ _) | with_reducible apply Dev.Keeps.via (Dev.clearSticky_keeps _ _ _ _ _) | with_reducible apply Dev.Keeps.via (Dev.takeWord_keeps _ _ _ _ _) | with_reducible apply Dev.Keeps.ite | with_reducible intro _ | extract_lets | split | (dsimp +zetaDelta only; split)

theorem Dev.breakPair_keeps (d : Dev) (t : Txn) : d.Keeps (d.breakPair t).1 [.host, .recorder, .rHpt] := by
  unfold Dev.breakPair
  repeat' first | with_reducible exact Dev.Keeps.rfl | ((with_reducible apply Part.within_goal); exact Eq.refl true) | ((with_reducible apply Part.isIn_goal); exact Eq.refl true) | with_reducible apply Dev.Keeps.via (Dev.guardFail_keeps _) | with_reducible apply Dev.Keeps.ite | with_reducible intro _ | split | dsimp only | (dsimp +zetaDelta only; split)

theorem Dev.refuseTxn_keeps (d : Dev) (t : Txn) (cause : Nat) : d.Keeps (d.refuseTxn t cause) [.host, .recorder, .fresh, .rHpt] := by
  unfold Dev.refuseTxn
  repeat' first | with_reducible exact Dev.Keeps.rfl | ((with_reducible apply Part.within_goal); exact Eq.refl true) | ((with_reducible apply Part.isIn_goal); exact Eq.refl true) | with_reducible apply Dev.Keeps.via (Dev.busError_keeps _ _ _ _ _) | with_reducible apply Dev.Keeps.via (Dev.endTxn_keeps _ _) | with_reducible apply Dev.Keeps.via (Dev.onHost_keeps _ _) | with_reducible apply Dev.Keeps.ite | with_reducible intro _ | extract_lets | dsimp only | (dsimp +zetaDelta only; split)

theorem Dev.completePair_keeps (d shown : Dev) (t : Txn) (p : OpenPair) : d.Keeps (d.completePair shown t p) Part.port := by
  unfold Dev.completePair
  repeat' first | with_reducible exact Dev.Keeps.rfl | ((with_reducible apply Part.within_goal); exact Eq.refl true) | ((with_reducible apply Part.isIn_goal); first | exact Eq.refl true | with_reducible apply contains_regPart) | with_reducible apply Dev.Keeps.via (Dev.endTxn_keeps _ _) | with_reducible apply Dev.Keeps.via (Dev.commitPair_keeps _ _ _) | with_reducible apply Dev.Keeps.via (Dev.onHost_keeps _ _) | with_reducible apply Dev.Keeps.via (Dev.stalledWord_keeps _ _ _) | with_reducible apply Dev.Keeps.ite | with_reducible intro _ | extract_lets | split | dsimp only | (dsimp +zetaDelta only; split)

theorem Dev.transact_keeps (d shown : Dev) (t : Txn) : d.Keeps (d.transact shown t) Part.port := by
  unfold Dev.transact
  repeat' first | with_reducible exact Dev.Keeps.rfl | ((with_reducible apply Part.within_goal); exact Eq.refl true) | ((with_reducible apply Part.isIn_goal); first | exact Eq.refl true | with_reducible apply contains_regPart) | with_reducible apply Dev.Keeps.via (Dev.completePair_keeps _ _ _ _) | with_reducible apply Dev.Keeps.via (Dev.breakPair_keeps _ _) | with_reducible apply Dev.Keeps.via (Dev.refuseTxn_keeps _ _ _) | with_reducible apply Dev.Keeps.via (Dev.goOn_keeps _ _ _) | with_reducible apply Dev.Keeps.ite | with_reducible intro _ | extract_lets | split | dsimp only | (dsimp +zetaDelta only; split)

theorem Dev.aborted_keeps (d : Dev) : d.Keeps (d.aborted) [.host, .recorder, .rHpt] := by
  unfold Dev.aborted
  repeat' first | with_reducible exact Dev.Keeps.rfl | ((with_reducible apply Part.within_goal); exact Eq.refl true) | ((with_reducible apply Part.isIn_goal); exact Eq.refl true) | with_reducible apply Dev.Keeps.via (Dev.onHost_keeps _ _) | with_reducible apply Dev.Keeps.raise | with_reducible apply Dev.Keeps.count

theorem Dev.dropHostReq_keeps (d : Dev) (n : LinkId) : d.Keeps (d.dropHostReq n) [.lnk] := by
  unfold Dev.dropHostReq
  repeat' first | with_reducible exact Dev.Keeps.rfl | ((with_reducible apply Part.within_goal); exact Eq.refl true) | ((with_reducible apply Part.isIn_goal); exact Eq.refl true) | with_reducible apply Dev.Keeps.via (Dev.onLnk_keeps _ _ _) | with_reducible apply Dev.Keeps.via (Dev.reqDone_keeps _ _) | with_reducible apply Dev.Keeps.ite | with_reducible intro _ | extract_lets | split | (dsimp +zetaDelta only; split)

theorem Dev.abandonRead_keeps (d : Dev) (t : Txn) : d.Keeps (d.abandonRead t) [.lnk] := by
  unfold Dev.abandonRead
  repeat' first | with_reducible exact Dev.Keeps.rfl | ((with_reducible apply Part.within_goal); exact Eq.refl true) | ((with_reducible apply Part.isIn_goal); exact Eq.refl true) | with_reducible apply Dev.Keeps.via (Dev.dropHostReq_keeps _ _) | with_reducible apply Dev.Keeps.ite | with_reducible intro _ | split | (dsimp +zetaDelta only; split)

theorem Dev.abort_keeps (d shown : Dev) (opcode : Byte) (addr : Word) (len : Byte) (words : List Word) : d.Keeps (d.abort shown opcode addr len words) Part.port := by
  unfold Dev.abort
  repeat' first | with_reducible exact Dev.Keeps.rfl | ((with_reducible apply Part.within_goal); exact Eq.refl true) | ((with_reducible apply Part.isIn_goal); first | exact Eq.refl true | with_reducible apply contains_regPart) | with_reducible apply Dev.Keeps.via (Dev.aborted_keeps _) | with_reducible apply Dev.Keeps.via (Dev.goOn_keeps _ _ _) | with_reducible apply Dev.Keeps.via (Dev.onHost_keeps _ _) | with_reducible apply Dev.Keeps.via (Dev.abandonRead_keeps _ _) | with_reducible apply Dev.Keeps.via (Dev.transact_keeps _ _ _) | with_reducible apply Dev.Keeps.ite | with_reducible intro _ | extract_lets | split | (dsimp +zetaDelta only; split)

theorem Dev.pairExpiry_keeps (d : Dev) : d.Keeps (d.pairExpiry) [.host, .recorder, .rHpt] := by
  unfold Dev.pairExpiry
  repeat' first | with_reducible exact Dev.Keeps.rfl | ((with_reducible apply Part.within_goal); exact Eq.refl true) | ((with_reducible apply Part.isIn_goal); exact Eq.refl true) | with_reducible apply Dev.Keeps.via (Dev.guardFail_keeps _) | with_reducible apply Dev.Keeps.ite | with_reducible intro _ | split | (dsimp +zetaDelta only; split)

theorem Dev.stallTimeout_keeps (d shown : Dev) (opcode : Byte) (addr : Word) (len : Byte) (words : List Word) (word : Byte)
    (applied : Bool) : d.Keeps (d.stallTimeout shown opcode addr len words word applied) Part.port := by
  unfold Dev.stallTimeout
  repeat' first | with_reducible exact Dev.Keeps.rfl | ((with_reducible apply Part.within_goal); exact Eq.refl true) | ((with_reducible apply Part.isIn_goal); first | exact Eq.refl true | with_reducible apply contains_regPart) | with_reducible apply Dev.Keeps.via (Dev.transact_keeps _ _ _) | with_reducible apply Dev.Keeps.ite | with_reducible intro _ | extract_lets

theorem Dev.headTimeout_keeps (d shown : Dev) (n : LinkId) : d.Keeps (d.headTimeout shown n) Part.port := by
  unfold Dev.headTimeout
  repeat' first | with_reducible exact Dev.Keeps.rfl | ((with_reducible apply Part.within_goal); exact Eq.refl true) | ((with_reducible apply Part.isIn_goal); first | exact Eq.refl true | with_reducible apply contains_regPart) | with_reducible apply Dev.Keeps.via (Dev.busError_keeps _ _ _ _ _) | with_reducible apply Dev.Keeps.via (Dev.dropHostReq_keeps _ _) | with_reducible apply Dev.Keeps.via (Dev.goOn_keeps _ _ _) | with_reducible apply Dev.Keeps.via (Dev.onHost_keeps _ _) | with_reducible apply Dev.Keeps.ite | with_reducible intro _ | extract_lets | split | dsimp only | (dsimp +zetaDelta only; split)

theorem Dev.registerWrite_keeps (d shown : Dev) (a : Nat) (w : Word) : d.Keeps (d.registerWrite shown a w) (.svc :: .sec :: .grid :: .cfg :: .upd :: .mem :: .archive :: .locked :: .fresh :: .lnk :: .lprot :: .rGlb :: .rPwr :: .rCfg :: .rUpd :: .rSec :: .rMem :: .rEvr :: .rPrt :: .rGrd :: .rTag :: .rLio :: .rHpt :: .rLnk :: .rAux :: .rNone :: Part.session) := by
  unfold Dev.registerWrite
  repeat' first | with_reducible exact Dev.Keeps.rfl | ((with_reducible apply Part.within_goal); exact Eq.refl true) | ((with_reducible apply Part.isIn_goal); first | exact Eq.refl true | with_reducible apply contains_regPart) | with_reducible apply Dev.Keeps.via (Dev.takeWord_keeps _ _ _ _ _) | with_reducible apply Dev.Keeps.ite | with_reducible intro _ | split | (dsimp +zetaDelta only; split)

theorem Dev.w1cClear_keeps (d shown : Dev) (a : Nat) (w : Word) : d.Keeps (d.w1cClear shown a w) (.recorder :: .mem :: Part.registers) := by
  unfold Dev.w1cClear
  repeat' first | with_reducible exact Dev.Keeps.rfl | ((with_reducible apply Part.within_goal); exact Eq.refl true) | ((with_reducible apply Part.isIn_goal); first | exact Eq.refl true | with_reducible apply contains_regPart) | with_reducible apply Dev.Keeps.via (Dev.clearSticky_keeps _ _ _ _ _) | with_reducible apply Dev.Keeps.ite | with_reducible intro _ | split | (dsimp +zetaDelta only; split)

theorem Dev.wideRead_keeps (d shown : Dev) (a : Nat) : d.Keeps (d.wideRead shown a) [.host] := by
  unfold Dev.wideRead
  repeat' first | with_reducible exact Dev.Keeps.rfl | ((with_reducible apply Part.within_goal); exact Eq.refl true) | ((with_reducible apply Part.isIn_goal); exact Eq.refl true) | with_reducible apply Dev.Keeps.via (Dev.captureWide_keeps _ _ _) | with_reducible apply Dev.Keeps.ite | with_reducible intro _ | split | (dsimp +zetaDelta only; split)

theorem Dev.feedbackTaken_keeps (d was : Dev) (n : LinkId) : d.Keeps (d.feedbackTaken was n) [.con, .lprot] := by
  unfold Dev.feedbackTaken
  repeat' first | with_reducible exact Dev.Keeps.rfl | ((with_reducible apply Part.within_goal); exact Eq.refl true) | ((with_reducible apply Part.isIn_goal); exact Eq.refl true) | with_reducible apply Dev.Keeps.via (Dev.onCon_keeps _ _ _) | with_reducible apply Dev.Keeps.via (Dev.restartSegment_keeps _ _) | with_reducible apply Dev.Keeps.via (Dev.updateSegments_keeps _) | with_reducible apply Dev.Keeps.via (Dev.mergeSegment_keeps _ _) | with_reducible apply Dev.Keeps.ite | with_reducible intro _ | extract_lets

theorem Dev.startTraining_keeps (d : Dev) (n : LinkId) : d.Keeps (d.startTraining n) [.lnk, .rLnk] := by
  unfold Dev.startTraining
  repeat' first | with_reducible exact Dev.Keeps.rfl | ((with_reducible apply Part.within_goal); exact Eq.refl true) | ((with_reducible apply Part.isIn_goal); exact Eq.refl true) | with_reducible apply Dev.Keeps.via (Dev.beginTraining_keeps _ _) | with_reducible apply Dev.Keeps.ite | with_reducible intro _ | extract_lets

theorem Dev.trainingFails_keeps (d : Dev) (n : LinkId) : d.Keeps (d.trainingFails n) [.recorder, .lnk, .rLnk] := by
  unfold Dev.trainingFails
  repeat' first | with_reducible exact Dev.Keeps.rfl | ((with_reducible apply Part.within_goal); exact Eq.refl true) | ((with_reducible apply Part.isIn_goal); exact Eq.refl true) | with_reducible apply Dev.Keeps.via (Dev.enterConfirm_keeps _ _) | with_reducible apply Dev.Keeps.via (Dev.failTraining_keeps _ _) | with_reducible apply Dev.Keeps.ite | with_reducible intro _ | extract_lets | split | (dsimp +zetaDelta only; split)

theorem Dev.retryTraining_keeps (d : Dev) (n : LinkId) : d.Keeps (d.retryTraining n) [.lnk, .rLnk] := by
  unfold Dev.retryTraining
  repeat' first | with_reducible exact Dev.Keeps.rfl | ((with_reducible apply Part.within_goal); exact Eq.refl true) | ((with_reducible apply Part.isIn_goal); exact Eq.refl true) | with_reducible apply Dev.Keeps.via (Dev.beginTraining_keeps _ _) | with_reducible apply Dev.Keeps.ite | with_reducible intro _ | extract_lets

theorem Dev.hostAnswered_keeps (d shown : Dev) (n : LinkId) (reject : Bool) (data : Word) : d.Keeps (d.hostAnswered shown n reject data) Part.port := by
  unfold Dev.hostAnswered
  repeat' first | with_reducible exact Dev.Keeps.rfl | ((with_reducible apply Part.within_goal); exact Eq.refl true) | ((with_reducible apply Part.isIn_goal); first | exact Eq.refl true | with_reducible apply contains_regPart) | with_reducible apply Dev.Keeps.via (Dev.reqDone_keeps _ _) | with_reducible apply Dev.Keeps.via (Dev.busError_keeps _ _ _ _ _) | with_reducible apply Dev.Keeps.via (Dev.goOn_keeps _ _ _) | with_reducible apply Dev.Keeps.via (Dev.onHost_keeps _ _) | with_reducible apply Dev.Keeps.ite | with_reducible intro _ | extract_lets | split | dsimp only | (dsimp +zetaDelta only; split)

theorem Dev.response_keeps (d shown : Dev) (n : LinkId) (resp : BitVec 2) (tag : BitVec 6) (addr : BitVec 15) (data : Word) : d.Keeps (d.response shown n resp tag addr data) Part.port := by
  unfold Dev.response
  repeat' first | with_reducible exact Dev.Keeps.rfl | ((with_reducible apply Part.within_goal); exact Eq.refl true) | ((with_reducible apply Part.isIn_goal); first | exact Eq.refl true | with_reducible apply contains_regPart) | with_reducible apply Dev.Keeps.via (Dev.hostAnswered_keeps _ _ _ _ _) | with_reducible apply Dev.Keeps.via (Dev.reqFailed_keeps _ _ _) | with_reducible apply Dev.Keeps.via (Dev.reqAnswered_keeps _ _ _ _) | with_reducible apply Dev.Keeps.ite | with_reducible intro _ | split | (dsimp +zetaDelta only; split)

theorem Dev.repeatReq_keeps (d : Dev) (n : LinkId) : d.Keeps (d.repeatReq n) [.lnk] := by
  unfold Dev.repeatReq
  repeat' first | with_reducible exact Dev.Keeps.rfl | ((with_reducible apply Part.within_goal); exact Eq.refl true) | ((with_reducible apply Part.isIn_goal); exact Eq.refl true) | with_reducible apply Dev.Keeps.via (Dev.onLnk_keeps _ _ _) | with_reducible apply Dev.Keeps.ite | with_reducible intro _ | split | (dsimp +zetaDelta only; split)

theorem Dev.sendFrame_keeps (d : Dev) (tick : Tick) (n : LinkId) : d.Keeps (d.sendFrame tick n) [.lnk, .frame, .con, .lprot] := by
  unfold Dev.sendFrame
  repeat' first | with_reducible exact Dev.Keeps.rfl | ((with_reducible apply Part.within_goal); exact Eq.refl true) | ((with_reducible apply Part.isIn_goal); exact Eq.refl true) | with_reducible apply Dev.Keeps.via (Dev.restartSegment_keeps _ _) | with_reducible apply Dev.Keeps.onLink | (intro p hp; cases p <;> first | exact Eq.refl _ | exact True.intro | exact absurd (by decide) hp) | with_reducible apply Dev.Keeps.ite | with_reducible intro _ | extract_lets

theorem Dev.applyCommit_keeps (d was : Dev) (c : Commit) : d.Keeps (d.applyCommit was c) (.alloc :: .sec :: .upd :: .mem :: .out :: .veh :: .ltag :: .rUpd :: .rSec :: .rMem :: .rTag :: .rVeh :: Part.lap) := by
  unfold Dev.applyCommit
  repeat' first | with_reducible exact Dev.Keeps.rfl | ((with_reducible apply Part.within_goal); exact Eq.refl true) | ((with_reducible apply Part.isIn_goal); exact Eq.refl true) | with_reducible apply Dev.Keeps.via (Dev.tagResult_keeps _ _ _ _ _) | with_reducible apply Dev.Keeps.via (Dev.contractDone_keeps _ _ _ _) | with_reducible apply Dev.Keeps.via (Dev.objectDone_keeps _ _ _ _) | with_reducible apply Dev.Keeps.via (Dev.rootTested_keeps _ _) | with_reducible apply Dev.Keeps.via (Dev.drkTested_keeps _) | split | (dsimp +zetaDelta only; split)

theorem Dev.commitAll_keeps (d was : Dev) : d.Keeps (d.commitAll was) (.alloc :: .sec :: .upd :: .mem :: .commits :: .out :: .veh :: .ltag :: .rUpd :: .rSec :: .rMem :: .rTag :: .rVeh :: Part.lap) := by
  unfold Dev.commitAll
  repeat' first | with_reducible exact Dev.Keeps.rfl | ((with_reducible apply Part.within_goal); exact Eq.refl true) | ((with_reducible apply Part.isIn_goal); exact Eq.refl true) | with_reducible apply Dev.Keeps.via (Dev.applyCommit_keeps _ _ _) | with_reducible apply Dev.Keeps.each | with_reducible intro _ | extract_lets | with_reducible apply Dev.Keeps.to_commits

theorem Dev.requestLate_keeps (d : Dev) (n : LinkId) : d.Keeps (d.requestLate n) [.alloc, .prot, .sec, .upd, .recorder, .lnk, .cmd, .group, .out, .con, .veh, .lprot, .rUpd, .rSec, .rPrt, .rAlc, .rLnk, .rVeh] := by
  unfold Dev.requestLate
  repeat' first | with_reducible exact Dev.Keeps.rfl | ((with_reducible apply Part.within_goal); exact Eq.refl true) | ((with_reducible apply Part.isIn_goal); exact Eq.refl true) | with_reducible apply Dev.Keeps.via (Dev.reqDone_keeps _ _) | with_reducible apply Dev.Keeps.via (Dev.reqFailed_keeps _ _ _) | with_reducible apply Dev.Keeps.ite | with_reducible intro _ | split | (dsimp +zetaDelta only; split)

theorem Dev.outletTick_keeps (d : Dev) (n : LinkId) : d.Keeps (d.outletTick n) Part.session := by
  unfold Dev.outletTick
  repeat' first | with_reducible exact Dev.Keeps.rfl | ((with_reducible apply Part.within_goal); exact Eq.refl true) | ((with_reducible apply Part.isIn_goal); exact Eq.refl true) | with_reducible apply Dev.Keeps.via (Dev.plugWait_keeps _ _) | with_reducible apply Dev.Keeps.via (Dev.endUnclosed_keeps _ _) | with_reducible apply Dev.Keeps.via (Dev.applyCredential_keeps _ _ _) | with_reducible apply Dev.Keeps.via (Dev.setpoints_keeps _ _) | with_reducible apply Dev.Keeps.via (Dev.publish_keeps _ _) | with_reducible apply Dev.Keeps.via (Dev.auxIdle_keeps _ _) | with_reducible apply Dev.Keeps.ite | with_reducible intro _ | extract_lets | split | (dsimp +zetaDelta only; split)

theorem Dev.groupTick_keeps (d : Dev) (g : LinkId) : d.Keeps (d.groupTick g) [.alloc, .prot, .recorder, .cmd, .group, .out, .con, .rAlc] := by
  unfold Dev.groupTick
  repeat' first | with_reducible exact Dev.Keeps.rfl | ((with_reducible apply Part.within_goal); exact Eq.refl true) | ((with_reducible apply Part.isIn_goal); exact Eq.refl true) | with_reducible apply Dev.Keeps.via (Dev.assignBounds_keeps _ _) | with_reducible apply Dev.Keeps.via (Dev.withdrawTick_keeps _ _)

theorem Dev.operatingSecond_keeps (d : Dev) : d.Keeps (d.operatingSecond) [.rPwr, .rUpd] := by
  unfold Dev.operatingSecond
  repeat' first | with_reducible exact Dev.Keeps.rfl | ((with_reducible apply Part.within_goal); exact Eq.refl true) | ((with_reducible apply Part.isIn_goal); exact Eq.refl true) | with_reducible apply Dev.Keeps.via (Dev.countWindow_keeps _) | with_reducible apply Dev.Keeps.setReg | with_reducible apply Dev.Keeps.ite | with_reducible intro _

theorem Dev.paceSeen_keeps (d : Dev) : d.Keeps (d.paceSeen) [.pacer, .prot] := by
  unfold Dev.paceSeen
  repeat' first | with_reducible exact Dev.Keeps.rfl | ((with_reducible apply Part.within_goal); exact Eq.refl true) | ((with_reducible apply Part.isIn_goal); exact Eq.refl true) | with_reducible apply Dev.Keeps.via (Dev.onProtection_keeps _ _) | with_reducible apply Dev.Keeps.via (Dev.onPacer_keeps _ _)

theorem Dev.resyncDone_keeps (d : Dev) : d.Keeps (d.resyncDone) [.host] := by
  unfold Dev.resyncDone
  repeat' first | with_reducible exact Dev.Keeps.rfl | ((with_reducible apply Part.within_goal); exact Eq.refl true) | ((with_reducible apply Part.isIn_goal); exact Eq.refl true) | with_reducible apply Dev.Keeps.via (Dev.onHost_keeps _ _) | with_reducible apply Dev.Keeps.ite | with_reducible intro _

theorem Dev.closeLinks_keeps (d : Dev) : d.Keeps (d.closeLinks) (.sec :: .upd :: .lnk :: .rx :: .lprot :: .rUpd :: .rSec :: .rPrt :: .rLnk :: Part.session) := by
  unfold Dev.closeLinks
  repeat' first | with_reducible exact Dev.Keeps.rfl | ((with_reducible apply Part.within_goal); exact Eq.refl true) | ((with_reducible apply Part.isIn_goal); exact Eq.refl true) | with_reducible apply Dev.Keeps.via (Dev.judgeMissing_keeps _ _) | with_reducible apply Dev.Keeps.via (Dev.requestLate_keeps _ _) | with_reducible apply Dev.Keeps.via (Dev.outletTick_keeps _ _) | with_reducible apply Dev.Keeps.via (Dev.groupTick_keeps _ _) | with_reducible apply Dev.Keeps.via (Dev.budgetRaise_keeps _) | with_reducible apply Dev.Keeps.via (Dev.clearOnOpen_keeps _ _) | with_reducible apply Dev.Keeps.each | with_reducible intro _ | extract_lets

theorem Dev.afterLap_keeps (d : Dev) : d.Keeps (d.afterLap) [.keys, .upd, .group, .out, .veh, .rVeh] := by
  unfold Dev.afterLap
  repeat' first | with_reducible exact Dev.Keeps.rfl | ((with_reducible apply Part.within_goal); exact Eq.refl true) | ((with_reducible apply Part.isIn_goal); exact Eq.refl true) | with_reducible apply Dev.Keeps.via (Dev.storeKeys_keeps _) | with_reducible apply Dev.Keeps.via (Dev.autoActivate_keeps _) | with_reducible apply Dev.Keeps.ite | with_reducible intro _

theorem Dev.closeModes_keeps (d shown : Dev) : d.Keeps (d.closeModes shown) (.pacer :: .power :: .tenants :: .bill :: .alloc :: .prot :: .sec :: .grid :: .disp :: .scroll :: .keys :: .cfg :: .upd :: .recorder :: .mem :: .archive :: .lnk :: .cmd :: .met :: .lbill :: .group :: .out :: .con :: .veh :: Part.registers) := by
  unfold Dev.closeModes
  repeat' first | with_reducible exact Dev.Keeps.rfl | ((with_reducible apply Part.within_goal); exact Eq.refl true) | ((with_reducible apply Part.isIn_goal); first | exact Eq.refl true | with_reducible apply contains_regPart) | with_reducible apply Dev.Keeps.via (Dev.govern_keeps _) | with_reducible apply Dev.Keeps.via (Dev.countEco_keeps _) | with_reducible apply Dev.Keeps.via (Dev.resolveModes_keeps _) | with_reducible apply Dev.Keeps.via (Dev.afterLap_keeps _) | with_reducible apply Dev.Keeps.via (Dev.economyExit_keeps _) | with_reducible apply Dev.Keeps.via (Dev.displayGate_keeps _ _) | with_reducible apply Dev.Keeps.via (Dev.arcGate_keeps _) | with_reducible apply Dev.Keeps.via (Dev.gridGate_keeps _) | with_reducible apply Dev.Keeps.via (Dev.spoilDemand_keeps _) | with_reducible apply Dev.Keeps.via (Dev.glassSecond_keeps _ _) | with_reducible apply Dev.Keeps.ite | with_reducible intro _ | extract_lets

theorem Dev.closeCommands_keeps (d : Dev) : d.Keeps (d.closeCommands) [.prot, .cmd, .group, .lprot] := by
  unfold Dev.closeCommands
  repeat' first | with_reducible exact Dev.Keeps.rfl | ((with_reducible apply Part.within_goal); exact Eq.refl true) | ((with_reducible apply Part.isIn_goal); exact Eq.refl true) | with_reducible apply Dev.Keeps.via (Dev.driveOutlet_keeps _ _) | with_reducible apply Dev.Keeps.via (Dev.driveGroup_keeps _ _) | with_reducible apply Dev.Keeps.via (Dev.checkGone_keeps _) | with_reducible apply Dev.Keeps.via (Dev.chooseInjectors_keeps _) | with_reducible apply Dev.Keeps.via (Dev.feedbackSince_keeps _ _) | with_reducible apply Dev.Keeps.via (Dev.onProtection_keeps _ _) | with_reducible apply Dev.Keeps.each | with_reducible intro _ | extract_lets

theorem Dev.nextTick_keeps (d : Dev) : d.Keeps (d.nextTick) [.pacer, .fresh, .lnk, .frame, .met, .con, .lprot, .rEvr] := by
  unfold Dev.nextTick
  repeat' first | with_reducible exact Dev.Keeps.rfl | ((with_reducible apply Part.within_goal); exact Eq.refl true) | ((with_reducible apply Part.isIn_goal); exact Eq.refl true) | with_reducible apply Dev.Keeps.via (Dev.openTick_keeps _) | with_reducible apply Dev.Keeps.via (Dev.onPacer_keeps _ _) | with_reducible apply Dev.Keeps.via (Dev.onLnk_keeps _ _ _) | with_reducible apply Dev.Keeps.via (Dev.updateSegments_keeps _) | with_reducible apply Dev.Keeps.via (Dev.setRates_keeps _) | with_reducible apply Dev.Keeps.via (Dev.sendFrame_keeps _ _ _) | with_reducible apply Dev.Keeps.each | with_reducible apply Dev.Keeps.drew | with_reducible apply Dev.Keeps.applyIf | with_reducible intro _ | extract_lets

theorem Dev.closeTick_keeps (d shown : Dev) : d.Keeps (d.closeTick shown) (.host :: .sec :: .grid :: .disp :: .scroll :: .keys :: .tpo :: .cfg :: .upd :: .mem :: .archive :: .commits :: .lnk :: .rx :: .lprot :: .ltag :: .rGlb :: .rPwr :: .rCfg :: .rUpd :: .rSec :: .rMem :: .rEvr :: .rPrt :: .rGrd :: .rTag :: .rLio :: .rHpt :: .rLnk :: .rAux :: .rNone :: Part.session) := by
  unfold Dev.closeTick
  repeat' first | with_reducible exact Dev.Keeps.rfl | ((with_reducible apply Part.within_goal); exact Eq.refl true) | ((with_reducible apply Part.isIn_goal); first | exact Eq.refl true | with_reducible apply contains_regPart) | with_reducible apply Dev.Keeps.via (Dev.commitAll_keeps _ _) | with_reducible apply Dev.Keeps.via (Dev.lapFirst_keeps _) | with_reducible apply Dev.Keeps.via (Dev.feedEngines_keeps _) | with_reducible apply Dev.Keeps.via (Dev.closeCommands_keeps _) | with_reducible apply Dev.Keeps.via (Dev.closeModes_keeps _ _) | with_reducible apply Dev.Keeps.via (Dev.closeLinks_keeps _) | with_reducible apply Dev.Keeps.via (Dev.tpoPin_keeps _ _) | with_reducible apply Dev.Keeps.via (Dev.clearRewritten_keeps _ _) | with_reducible apply Dev.Keeps.via (Dev.issueWaiting_keeps _) | with_reducible apply Dev.Keeps.via (Dev.resyncDone_keeps _) | with_reducible apply Dev.Keeps.via (Dev.paceSeen_keeps _) | with_reducible apply Dev.Keeps.via (Dev.operatingSecond_keeps _) | with_reducible apply Dev.Keeps.via (Dev.closeEvents_keeps _ _ _) | with_reducible apply Dev.Keeps.via (Dev.onRec_keeps _ _) | with_reducible apply Dev.Keeps.each | with_reducible apply Dev.Keeps.applyIf | with_reducible intro _ | extract_lets

theorem Dev.arcSamples_keeps (d : Dev) : d.Keeps (d.arcSamples) [.sec, .recorder, .archive, .rSec, .rMem] := by
  unfold Dev.arcSamples
  repeat' first | with_reducible exact Dev.Keeps.rfl | ((with_reducible apply Part.within_goal); exact Eq.refl true) | ((with_reducible apply Part.isIn_goal); exact Eq.refl true) | with_reducible apply Dev.Keeps.via (Dev.arcSample_keeps _ _ _) | with_reducible apply Dev.Keeps.each | with_reducible apply Dev.Keeps.ite | with_reducible intro _ | extract_lets

theorem Dev.samplePoint_keeps (d : Dev) : d.Keeps (d.samplePoint) (.alloc :: .sec :: .grid :: .tpo :: .archive :: .lnk :: .rx :: .cmd :: .group :: .con :: .veh :: .lprot :: .rPwr :: .rSec :: .rMem :: .rPrt :: .rLio :: .rLnk :: Part.lap) := by
  unfold Dev.samplePoint
  repeat' first | with_reducible exact Dev.Keeps.rfl | ((with_reducible apply Part.within_goal); exact Eq.refl true) | ((with_reducible apply Part.isIn_goal); exact Eq.refl true) | with_reducible apply Dev.Keeps.via (Dev.lapFirst_keeps _) | with_reducible apply Dev.Keeps.via (Dev.onPacer_keeps _ _) | with_reducible apply Dev.Keeps.via (Dev.judgeMissing_keeps _ _) | with_reducible apply Dev.Keeps.via (Dev.sampleLink_keeps _ _) | with_reducible apply Dev.Keeps.via (Dev.protSample_keeps _ _) | with_reducible apply Dev.Keeps.via (Dev.senseSample_keeps _ _) | with_reducible apply Dev.Keeps.via (Dev.vehSample_keeps _ _) | with_reducible apply Dev.Keeps.via (Dev.groupSample_keeps _ _) | with_reducible apply Dev.Keeps.via (Dev.exchangeSample_keeps _ _) | with_reducible apply Dev.Keeps.via (Dev.symmetrySample_keeps _ _) | with_reducible apply Dev.Keeps.via (Dev.lastGasp_keeps _) | with_reducible apply Dev.Keeps.via (Dev.arcSamples_keeps _) | with_reducible apply Dev.Keeps.each | with_reducible apply Dev.Keeps.ite | with_reducible intro _ | extract_lets

theorem Dev.lapFrames_keeps (d : Dev) (n : LinkId) : d.Keeps (d.lapFrames n) [.recorder, .lnk, .rLnk] := by
  unfold Dev.lapFrames
  repeat' first | with_reducible exact Dev.Keeps.rfl | ((with_reducible apply Part.within_goal); exact Eq.refl true) | ((with_reducible apply Part.isIn_goal); first | exact Eq.refl true | exact contains_of (regPart_lnkEvents (Nat.lt_of_lt_of_le (Fin.isLt _) (by decide))) (Eq.refl true) | exact contains_of (regPart_lnkFailLap (Nat.lt_of_lt_of_le (Fin.isLt _) (by decide))) (Eq.refl true)) | with_reducible apply Dev.Keeps.via (Dev.onLnk_keeps _ _ _) | with_reducible apply Dev.Keeps.setReg | with_reducible apply Dev.Keeps.raiseIf | extract_lets

theorem Dev.creditStep_keeps (d : Dev) : d.Keeps (d.creditStep) [.tenants, .recorder, .lbill, .out, .veh, .rVeh, .rTen] := by
  unfold Dev.creditStep
  repeat' first | with_reducible exact Dev.Keeps.rfl | ((with_reducible apply Part.within_goal); exact Eq.refl true) | ((with_reducible apply Part.isIn_goal); first | exact Eq.refl true | exact contains_of (regPart_bilTEvents) (Eq.refl true)) | with_reducible apply Dev.Keeps.via (Dev.reserve_keeps _ _) | with_reducible apply Dev.Keeps.via (Dev.armLow_keeps _) | with_reducible apply Dev.Keeps.via (Dev.checkLow_keeps _ _ _) | with_reducible apply Dev.Keeps.via (Dev.sumResv_keeps _ _) | with_reducible apply Dev.Keeps.via (Dev.stopTenant_keeps _ _) | with_reducible apply Dev.Keeps.raise | with_reducible apply Dev.Keeps.each | with_reducible apply Dev.Keeps.ite | with_reducible intro _ | extract_lets

theorem Dev.planMetrology_keeps (d : Dev) : d.Keeps (d.planMetrology) [.recorder, .met, .lbill, .rMet] := by
  unfold Dev.planMetrology
  repeat' first | with_reducible exact Dev.Keeps.rfl | ((with_reducible apply Part.within_goal); exact Eq.refl true) | ((with_reducible apply Part.isIn_goal); exact Eq.refl true) | with_reducible apply Dev.Keeps.via (Dev.notePower_keeps _ _) | with_reducible apply Dev.Keeps.via (Dev.latchPlanning_keeps _ _) | with_reducible apply Dev.Keeps.via (Dev.onMet_keeps _ _ _) | with_reducible apply Dev.Keeps.via (Dev.harmonics_keeps _ _) | with_reducible apply Dev.Keeps.each | with_reducible apply Dev.Keeps.applyIf | with_reducible intro _ | extract_lets

theorem Dev.planningLap_keeps (d : Dev) : d.Keeps (d.planningLap) [.pacer, .tenants, .alloc, .prot, .disp, .recorder, .fresh, .lnk, .cmd, .met, .lbill, .group, .out, .con, .veh, .aux, .rAlc, .rLio, .rLnk, .rMet, .rVeh, .rAux, .rTen] := by
  unfold Dev.planningLap
  repeat' first | with_reducible exact Dev.Keeps.rfl | ((with_reducible apply Part.within_goal); exact Eq.refl true) | ((with_reducible apply Part.isIn_goal); exact Eq.refl true) | with_reducible apply Dev.Keeps.via (Dev.onPacer_keeps _ _) | with_reducible apply Dev.Keeps.via (Dev.lapFrames_keeps _ _) | with_reducible apply Dev.Keeps.via (Dev.creditStep_keeps _) | with_reducible apply Dev.Keeps.via (Dev.planMetrology_keeps _) | with_reducible apply Dev.Keeps.via (Dev.exchNoTarget_keeps _) | with_reducible apply Dev.Keeps.via (Dev.startReleases_keeps _) | with_reducible apply Dev.Keeps.via (Dev.selectMoves_keeps _) | with_reducible apply Dev.Keeps.via (Dev.plan_keeps _) | with_reducible apply Dev.Keeps.via (Dev.vlcdUpdate_keeps _) | with_reducible apply Dev.Keeps.via (Dev.vehPlan_keeps _ _) | with_reducible apply Dev.Keeps.via (Dev.tachJudge_keeps _ _ _) | with_reducible apply Dev.Keeps.setReg | with_reducible apply Dev.Keeps.each | with_reducible apply Dev.Keeps.ite | with_reducible intro _ | extract_lets

theorem Dev.lapBoundary_keeps (d : Dev) : d.Keeps (d.lapBoundary) Part.lap := by
  unfold Dev.lapBoundary
  repeat' first | with_reducible exact Dev.Keeps.rfl | ((with_reducible apply Part.within_goal); exact Eq.refl true) | ((with_reducible apply Part.isIn_goal); exact Eq.refl true) | with_reducible apply Dev.Keeps.via (Dev.lapFirst_keeps _)

end Sys2Proof.Machine
end

