-- ==== Sys2Proof/Laws/Effects.lean ====
section
/-! SUPPORT. What a kept part says about the device, and what the shared operations do. -/

namespace Sys2Proof.Machine

set_option Elab.async false

theorem Part.not_mem {l : List Part} {p : Part} (h : Part.isIn l p = false) : p ∉ l := fun hm => by simp [Part.isIn_iff.2 hm] at h
theorem Dev.Keeps.pacer {d e : Dev} {l : List Part} (h : d.Keeps e l) (hp : Part.isIn l .pacer = false := by rfl) : e.pacer = d.pacer := h .pacer (Part.not_mem hp)
theorem Dev.Keeps.power {d e : Dev} {l : List Part} (h : d.Keeps e l) (hp : Part.isIn l .power = false := by rfl) : e.power = d.power := h .power (Part.not_mem hp)
theorem Dev.Keeps.host {d e : Dev} {l : List Part} (h : d.Keeps e l) (hp : Part.isIn l .host = false := by rfl) : e.host = d.host := h .host (Part.not_mem hp)
theorem Dev.Keeps.tenants {d e : Dev} {l : List Part} (h : d.Keeps e l) (hp : Part.isIn l .tenants = false := by rfl) : e.tenants = d.tenants := h .tenants (Part.not_mem hp)
theorem Dev.Keeps.bill {d e : Dev} {l : List Part} (h : d.Keeps e l) (hp : Part.isIn l .bill = false := by rfl) : e.bill = d.bill := h .bill (Part.not_mem hp)
theorem Dev.Keeps.alloc {d e : Dev} {l : List Part} (h : d.Keeps e l) (hp : Part.isIn l .alloc = false := by rfl) : e.alloc = d.alloc := h .alloc (Part.not_mem hp)
theorem Dev.Keeps.prot {d e : Dev} {l : List Part} (h : d.Keeps e l) (hp : Part.isIn l .prot = false := by rfl) : e.prot = d.prot := h .prot (Part.not_mem hp)
theorem Dev.Keeps.engines {d e : Dev} {l : List Part} (h : d.Keeps e l) (hp : Part.isIn l .engines = false := by rfl) : e.engines = d.engines := h .engines (Part.not_mem hp)
theorem Dev.Keeps.svc {d e : Dev} {l : List Part} (h : d.Keeps e l) (hp : Part.isIn l .svc = false := by rfl) : e.svc = d.svc := h .svc (Part.not_mem hp)
theorem Dev.Keeps.sec {d e : Dev} {l : List Part} (h : d.Keeps e l) (hp : Part.isIn l .sec = false := by rfl) : e.sec = d.sec := h .sec (Part.not_mem hp)
theorem Dev.Keeps.grid {d e : Dev} {l : List Part} (h : d.Keeps e l) (hp : Part.isIn l .grid = false := by rfl) : e.grid = d.grid := h .grid (Part.not_mem hp)
theorem Dev.Keeps.disp {d e : Dev} {l : List Part} (h : d.Keeps e l) (hp : Part.isIn l .disp = false := by rfl) : e.disp = d.disp := h .disp (Part.not_mem hp)
theorem Dev.Keeps.scroll {d e : Dev} {l : List Part} (h : d.Keeps e l) (hp : Part.isIn l .scroll = false := by rfl) : e.scroll = d.scroll := h .scroll (Part.not_mem hp)
theorem Dev.Keeps.keys {d e : Dev} {l : List Part} (h : d.Keeps e l) (hp : Part.isIn l .keys = false := by rfl) : e.keys = d.keys := h .keys (Part.not_mem hp)
theorem Dev.Keeps.tpo {d e : Dev} {l : List Part} (h : d.Keeps e l) (hp : Part.isIn l .tpo = false := by rfl) : e.tpo = d.tpo := h .tpo (Part.not_mem hp)
theorem Dev.Keeps.s0 {d e : Dev} {l : List Part} (h : d.Keeps e l) (hp : Part.isIn l .s0 = false := by rfl) : e.s0 = d.s0 := h .s0 (Part.not_mem hp)
theorem Dev.Keeps.cfg {d e : Dev} {l : List Part} (h : d.Keeps e l) (hp : Part.isIn l .cfg = false := by rfl) : e.cfg = d.cfg := h .cfg (Part.not_mem hp)
theorem Dev.Keeps.upd {d e : Dev} {l : List Part} (h : d.Keeps e l) (hp : Part.isIn l .upd = false := by rfl) : e.upd = d.upd := h .upd (Part.not_mem hp)
theorem Dev.Keeps.recorder {d e : Dev} {l : List Part} (h : d.Keeps e l) (hp : Part.isIn l .recorder = false := by rfl) : e.recorder = d.recorder := h .recorder (Part.not_mem hp)
theorem Dev.Keeps.mem {d e : Dev} {l : List Part} (h : d.Keeps e l) (hp : Part.isIn l .mem = false := by rfl) : e.mem = d.mem := h .mem (Part.not_mem hp)
theorem Dev.Keeps.archive {d e : Dev} {l : List Part} (h : d.Keeps e l) (hp : Part.isIn l .archive = false := by rfl) : e.archive = d.archive := h .archive (Part.not_mem hp)
theorem Dev.Keeps.locked {d e : Dev} {l : List Part} (h : d.Keeps e l) (hp : Part.isIn l .locked = false := by rfl) : e.locked = d.locked := h .locked (Part.not_mem hp)
theorem Dev.Keeps.fresh {d e : Dev} {l : List Part} (h : d.Keeps e l) (hp : Part.isIn l .fresh = false := by rfl) : e.fresh = d.fresh := h .fresh (Part.not_mem hp)
theorem Dev.Keeps.lnk {d e : Dev} {l : List Part} (h : d.Keeps e l) (n : LinkId) (hp : Part.isIn l .lnk = false := by rfl) : (e.link n).lnk = (d.link n).lnk := h .lnk (Part.not_mem hp) n
theorem Dev.Keeps.hs {d e : Dev} {l : List Part} (h : d.Keeps e l) (n : LinkId) (hp : Part.isIn l .hs = false := by rfl) : (e.link n).hs = (d.link n).hs := h .hs (Part.not_mem hp) n
theorem Dev.Keeps.rx {d e : Dev} {l : List Part} (h : d.Keeps e l) (n : LinkId) (hp : Part.isIn l .rx = false := by rfl) : (e.link n).rx = (d.link n).rx := h .rx (Part.not_mem hp) n
theorem Dev.Keeps.cmd {d e : Dev} {l : List Part} (h : d.Keeps e l) (n : LinkId) (hp : Part.isIn l .cmd = false := by rfl) : (e.link n).cmd = (d.link n).cmd := h .cmd (Part.not_mem hp) n
theorem Dev.Keeps.frame {d e : Dev} {l : List Part} (h : d.Keeps e l) (n : LinkId) (hp : Part.isIn l .frame = false := by rfl) : (e.link n).frame = (d.link n).frame := h .frame (Part.not_mem hp) n
theorem Dev.Keeps.met {d e : Dev} {l : List Part} (h : d.Keeps e l) (n : LinkId) (hp : Part.isIn l .met = false := by rfl) : (e.link n).met = (d.link n).met := h .met (Part.not_mem hp) n
theorem Dev.Keeps.lbill {d e : Dev} {l : List Part} (h : d.Keeps e l) (n : LinkId) (hp : Part.isIn l .lbill = false := by rfl) : (e.link n).bill = (d.link n).bill := h .lbill (Part.not_mem hp) n
theorem Dev.Keeps.group {d e : Dev} {l : List Part} (h : d.Keeps e l) (n : LinkId) (hp : Part.isIn l .group = false := by rfl) : (e.link n).group = (d.link n).group := h .group (Part.not_mem hp) n
theorem Dev.Keeps.out {d e : Dev} {l : List Part} (h : d.Keeps e l) (n : LinkId) (hp : Part.isIn l .out = false := by rfl) : (e.link n).out = (d.link n).out := h .out (Part.not_mem hp) n
theorem Dev.Keeps.con {d e : Dev} {l : List Part} (h : d.Keeps e l) (n : LinkId) (hp : Part.isIn l .con = false := by rfl) : (e.link n).con = (d.link n).con := h .con (Part.not_mem hp) n
theorem Dev.Keeps.veh {d e : Dev} {l : List Part} (h : d.Keeps e l) (n : LinkId) (hp : Part.isIn l .veh = false := by rfl) : (e.link n).veh = (d.link n).veh := h .veh (Part.not_mem hp) n
theorem Dev.Keeps.lprot {d e : Dev} {l : List Part} (h : d.Keeps e l) (n : LinkId) (hp : Part.isIn l .lprot = false := by rfl) : (e.link n).prot = (d.link n).prot := h .lprot (Part.not_mem hp) n
theorem Dev.Keeps.ltag {d e : Dev} {l : List Part} (h : d.Keeps e l) (n : LinkId) (hp : Part.isIn l .ltag = false := by rfl) : (e.link n).tag = (d.link n).tag := h .ltag (Part.not_mem hp) n
theorem Dev.Keeps.aux {d e : Dev} {l : List Part} (h : d.Keeps e l) (n : LinkId) (hp : Part.isIn l .aux = false := by rfl) : (e.link n).aux = (d.link n).aux := h .aux (Part.not_mem hp) n
theorem Dev.Keeps.mode {d e : Dev} {l : List Part} (h : d.Keeps e l) (hp : Part.isIn l .power = false := by rfl) : e.mode = d.mode := by
  unfold Dev.mode; rw [h.power hp]
theorem Dev.Keeps.now {d e : Dev} {l : List Part} (h : d.Keeps e l) (hp : Part.isIn l .pacer = false := by rfl) : e.now = d.now := by
  unfold Dev.now; rw [h.pacer hp]
theorem Dev.Keeps.tenant {d e : Dev} {l : List Part} (h : d.Keeps e l) (t : TenantId) (hp : Part.isIn l .tenants = false := by rfl) : e.tenant t = d.tenant t := by
  unfold Dev.tenant; rw [h.tenants hp]
theorem Dev.Keeps.reg {d e : Dev} {l : List Part} (h : d.Keeps e l) (a : Nat) (hp : Part.isIn l (regPart a) = false) : e.reg a = d.reg a := by
  have x := h _ (Part.not_mem hp)
  have hin := Part.isIn_iff.1 (contains_regPart (l := Part.registers) (Eq.refl true) a)
  generalize hq : regPart a = q at x hin
  cases q <;> first | exact x a hq | exact absurd hin (by decide)
theorem Dev.Keeps.anyReg {d e : Dev} {l : List Part} (h : d.Keeps e l) (a : Nat)
    (hd : (Part.registers.all fun p => !Part.isIn l p) = true := by rfl) : e.reg a = d.reg a := by
  refine h.reg a ?_
  have hin := Part.isIn_iff.1 (contains_regPart (l := Part.registers) (Eq.refl true) a)
  simpa using List.all_eq_true.1 hd _ hin
theorem Dev.Keeps.reg_of {d e : Dev} {l : List Part} (h : d.Keeps e l) {a : Nat} {p : Part} (ha : regPart a = p) (hp : Part.isIn l p = false := by rfl) : e.reg a = d.reg a :=
  h.reg a (ha ▸ hp)
theorem Dev.Keeps.field {d e : Dev} {l : List Part} (h : d.Keeps e l) (a lo w : Nat) (hp : Part.isIn l (regPart a) = false) :
    e.field a lo w = d.field a lo w := by
  unfold Dev.field; rw [h.reg a hp]
theorem Dev.Keeps.bit {d e : Dev} {l : List Part} (h : d.Keeps e l) (a b : Nat) (hp : Part.isIn l (regPart a) = false) :
    e.bit a b = d.bit a b := by
  unfold Dev.bit; rw [h.reg a hp]
theorem Dev.Keeps.role {d e : Dev} {l : List Part} (h : d.Keeps e l) (n : LinkId) (hp : Part.isIn l .rLnk = false := by rfl) :
    e.role n = d.role n := by
  unfold Dev.role
  rw [h.field _ _ _ (by rw [show regPart (Reg.lnkCfg n) = .rLnk from regPart_link (k := 0) (by unfold Reg.lnkCfg; omega) (by have := n.2; unfold Reg.lnkCfg; omega) (by have := n.2; unfold Reg.lnkCfg; omega)]; exact hp)]
theorem Dev.Keeps.linksOf {d e : Dev} {l : List Part} (h : d.Keeps e l) (r : Role) (hp : Part.isIn l .rLnk = false := by rfl) :
    e.linksOf r = d.linksOf r := by
  unfold Dev.linksOf; simp only [h.role _ hp]
theorem Dev.Keeps.usedLinks {d e : Dev} {l : List Part} (h : d.Keeps e l) (hp : Part.isIn l .rLnk = false := by rfl) :
    e.usedLinks = d.usedLinks := by
  unfold Dev.usedLinks; simp only [h.role _ hp]
theorem Dev.Keeps.outlets {d e : Dev} {l : List Part} (h : d.Keeps e l) (hp : Part.isIn l .rLnk = false := by rfl) :
    e.outlets = d.outlets := h.linksOf _ hp
theorem Dev.Keeps.powers {d e : Dev} {l : List Part} (h : d.Keeps e l) (hp : Part.isIn l .rLnk = false := by rfl) :
    e.powers = d.powers := h.linksOf _ hp
theorem Dev.setReg_keeps (d : Dev) (a : Nat) (w : Word) : d.Keeps (d.setReg a w) [regPart a] :=
  Dev.Keeps.setReg Dev.Keeps.rfl (Part.isIn_iff.2 (by simp))
theorem Dev.driveTripout_reg (d : Dev) (x : Nat) : d.driveTripout.reg x = d.reg x := by simp [Dev.driveTripout]
theorem Dev.driveTripout_siteLatch (d : Dev) : d.driveTripout.prot.siteLatch = d.prot.siteLatch := by simp [Dev.driveTripout]
theorem Dev.driveTripout_power (d : Dev) : d.driveTripout.power = d.power := by simp [Dev.driveTripout]
theorem Dev.trip_site (d : Dev) (c : Cause) (ns : List LinkId) (gone : Bool)
    (hc : d.classOn (d.tripClass c.code c.index) ns = 3) (ha : d.prot.armed = true) :
    (d.trip c ns gone).power.haltNow = true ∧ (d.trip c ns gone).prot.siteLatch.isSome = true ∧
      (d.trip c ns gone).bit Reg.prtEvents 3 = true := by
  simp [Dev.trip, hc, ha, Dev.driveTripout_reg, Dev.driveTripout_siteLatch, Dev.driveTripout_power, Dev.haltBy, Dev.bit, EvReg.addr]
theorem Dev.classOn_three (d : Dev) (ns : List LinkId) : d.classOn 3 ns = 3 := by simp [Dev.classOn]
theorem Dev.tripClass_fixed (d : Dev) (code index : Nat) (h : 0x30 ≤ code) (h2 : code ≠ 0x34) : d.tripClass code index = 3 := by
  simp [Dev.tripClass, h, h2]
theorem Dev.deviceCause_site (d : Dev) (code bit : Nat) (ns : List LinkId) (index : Nat) (gone : Bool) (h : 0x30 ≤ code)
    (h2 : code ≠ 0x34) (ha : d.prot.armed = true) :
    (d.deviceCause code bit ns index gone).power.haltNow = true ∧
      (d.deviceCause code bit ns index gone).prot.siteLatch.isSome = true ∧
      (d.deviceCause code bit ns index gone).bit Reg.prtEvents 3 = true := by
  unfold Dev.deviceCause Dev.causeOn
  exact Dev.trip_site _ _ _ _ (by simp only [Dev.tripClass_fixed _ _ _ h h2, Dev.classOn_three]) (by simp [ha])
/-- The modes with another request for SAFE HALT. -/
def Power.halting (p : Power) (h x : Bool) : Power := { p with haltNow := h, exitHalt := x }

/-- What a trip leaves of the modes: it asks for SAFE HALT, and no more. -/
theorem Dev.trip_power (d : Dev) (c : Cause) (ns : List LinkId) (gone : Bool) :
    ∃ h x, (d.trip c ns gone).power = d.power.halting h x := by
  unfold Dev.trip
  extract_lets cls d1
  split
  · exact ⟨d.power.haltNow, d.power.exitHalt, rfl⟩
  · have h1 : d.Keeps d1 [.alloc, .prot, .recorder, .lnk, .cmd, .group, .out, .con, .veh, .lprot, .rPrt, .rAlc, .rLnk, .rVeh] := by
      refine Dev.Keeps.each (fun e n _ => ?_) ?_
      · exact Dev.Keeps.via (Dev.tripLink_keeps _ _ _ _ _) Dev.Keeps.rfl (Eq.refl true)
      · exact Dev.Keeps.via (Dev.recordTrip_keeps _ _ _) Dev.Keeps.rfl (Eq.refl true)
    rw [Dev.driveTripout_power]
    split
    · exact ⟨true, false, by rw [← h1.power]; simp [Dev.haltBy, Power.halting]⟩
    · exact ⟨d.power.haltNow, d.power.exitHalt, h1.power⟩

theorem Dev.trip_mode (d : Dev) (c : Cause) (ns : List LinkId) (gone : Bool) : (d.trip c ns gone).mode = d.mode := by
  obtain ⟨h, x, e⟩ := d.trip_power c ns gone
  simp [Dev.mode, e, Power.halting]

/-- What holds before and through every element of a list holds after it. -/
theorem Dev.each_inv {α : Type} {P : Dev → Prop} {xs : List α} {f : Dev → α → Dev} {d : Dev} (h : P d)
    (hs : ∀ e x, x ∈ xs → P e → P (f e x)) : P (d.each xs f) := by
  unfold Dev.each
  induction xs generalizing d with
  | nil => exact h
  | cons x xs ih => exact ih (hs d x (by simp) h) fun e y hy => hs e y (by simp [hy])

/-- Of modes and protection a trip changes no more than the request for SAFE HALT, the latches and the record of trips. -/
def Dev.Mild (d e : Dev) : Prop :=
  (∃ h x, e.power = d.power.halting h x) ∧ e.prot.armed = d.prot.armed ∧ e.prot.bootMap = d.prot.bootMap

theorem Dev.Mild.rfl (d : Dev) : d.Mild d := ⟨⟨d.power.haltNow, d.power.exitHalt, Eq.refl _⟩, Eq.refl _, Eq.refl _⟩

theorem Dev.Mild.trans {d e f : Dev} (h1 : d.Mild e) (h2 : e.Mild f) : d.Mild f := by
  obtain ⟨⟨h, x, a⟩, b, c⟩ := h1
  obtain ⟨⟨h', x', a'⟩, b', c'⟩ := h2
  exact ⟨⟨h', x', by rw [a', a]; simp [Power.halting]⟩, b'.trans b, c'.trans c⟩

theorem Dev.Mild.of_keeps {d e : Dev} {l : List Part} (h : d.Keeps e l) (h1 : Part.isIn l .power = false := by rfl)
    (h2 : Part.isIn l .prot = false := by rfl) : d.Mild e :=
  ⟨⟨d.power.haltNow, d.power.exitHalt, h.power h1⟩, by rw [h.prot h2], by rw [h.prot h2]⟩

theorem Dev.Mild.mode {d e : Dev} (h : d.Mild e) : e.mode = d.mode := by
  obtain ⟨⟨h, x, a⟩, _⟩ := h
  simp [Dev.mode, a, Power.halting]

theorem Dev.Mild.via {a b c : Dev} (h2 : b.Mild c) (h1 : a.Mild b) : a.Mild c := h1.trans h2

theorem Dev.raise_mild (d : Dev) (e : EvReg) (bit : Nat) (arg : Word) (t : Option TenantId) : d.Mild (d.raise e bit arg t) :=
  ⟨⟨d.power.haltNow, d.power.exitHalt, by simp [Power.halting]⟩, by simp, by simp⟩

theorem Dev.count_mild (d : Dev) (a n : Nat) : d.Mild (d.count a n) := Dev.Mild.rfl d

theorem Dev.dropSeg_mild (d : Dev) (g : LinkId) : d.Mild (d.dropSeg g) := Dev.Mild.rfl d

theorem Dev.takeOut_mild (d : Dev) (g : LinkId) (why : WithdrawWhy) : d.Mild (d.takeOut g why) := by
  unfold Dev.takeOut
  extract_lets owner d1
  have h : d.Mild d1 := Dev.Mild.via (Dev.raise_mild _ _ _ _ _)
    (Dev.Mild.via (Dev.Mild.of_keeps (Dev.onGroup_keeps _ _ _)) (Dev.dropSeg_mild d g))
  match owner with
  | some o => exact Dev.Mild.via (Dev.Mild.of_keeps (Dev.cutToGroups_keeps _ _)) h
  | none => exact h

theorem Dev.afterAbort_mild (d : Dev) (e : Exchange) (code : Nat) : d.Mild (d.afterAbort e code) := by
  unfold Dev.afterAbort
  extract_lets g d1 back idle
  have h1 : d.Mild d1 := by
    unfold d1
    split
    · exact Dev.Mild.of_keeps (Dev.command_keeps _ _ _ _)
    · exact Dev.Mild.rfl d
  have hb : d.Mild back := Dev.Mild.via (Dev.Mild.of_keeps (Dev.onGroup_keeps _ _ _)) h1
  have hi : d.Mild idle := Dev.Mild.via (Dev.Mild.of_keeps (Dev.onGroup_keeps _ _ _)) h1
  split <;> first
    | exact hb
    | exact Dev.Mild.rfl d
    | exact Dev.Mild.via (Dev.takeOut_mild _ _ _) (Dev.Mild.via (Dev.Mild.of_keeps (Dev.onGroup_keeps _ _ _)) h1)
    | (split
       · exact hb
       · exact hi)

theorem Dev.abortExchange_mild (d : Dev) (x : Fin 16) (code : Nat) : d.Mild (d.abortExchange x code) := by
  unfold Dev.abortExchange
  split
  · exact Dev.Mild.via (Dev.raise_mild _ _ _ _ _) (Dev.Mild.via (Dev.count_mild _ _ _) (Dev.Mild.via (Dev.afterAbort_mild _ _ _)
      (Dev.Mild.via (Dev.dropSeg_mild _ _) (Dev.Mild.of_keeps (Dev.closeSlot_keeps _ _ _)))))
  · exact Dev.Mild.rfl d

theorem Dev.abortWhere_mild (d : Dev) (hit : Exchange → Bool) (code : Nat) : d.Mild (d.abortWhere hit code) := by
  unfold Dev.abortWhere
  refine Dev.each_inv (P := d.Mild) (Dev.Mild.rfl d) fun e x _ he => ?_
  split
  · split
    · exact he.trans (Dev.abortExchange_mild _ _ _)
    · exact he
  · exact he.trans (Dev.Mild.of_keeps (Dev.lowerReason_keeps _ _ _ _))

theorem Dev.withdraw_mild (d : Dev) (g : LinkId) (why : WithdrawWhy) : d.Mild (d.withdraw g why) := by
  unfold Dev.withdraw
  extract_lets d1
  have h1 : d.Mild d1 := Dev.abortWhere_mild _ _ _
  split
  · exact h1.trans (Dev.takeOut_mild _ _ _)
  · split
    · exact h1.trans (Dev.Mild.of_keeps (Dev.onGroup_keeps _ _ _))
    · exact h1

theorem Dev.tripExchanges_mild (d : Dev) (n : LinkId) : d.Mild (d.tripExchanges n) := by
  unfold Dev.tripExchanges
  extract_lets hit gs
  exact Dev.each_inv (P := d.Mild) (Dev.abortWhere_mild _ _ _) fun e g _ he =>
    he.trans (Dev.Mild.via (Dev.Mild.of_keeps (Dev.onGroup_keeps _ _ _)) (Dev.withdraw_mild _ _ _))

theorem Dev.openNow_mild (d : Dev) (n : LinkId) (why : StopReason) (rank : Nat) : d.Mild (d.openNow n why rank) :=
  Dev.Mild.of_keeps (Dev.openNow_keeps _ _ _ _)

theorem Dev.forceLink_mild (d : Dev) (n : LinkId) (rank : Nat) : d.Mild (d.forceLink n rank) := by
  unfold Dev.forceLink
  extract_lets d0
  have h0 : d.Mild d0 := Dev.tripExchanges_mild d n
  split
  · exact Dev.Mild.via (Dev.Mild.of_keeps (Dev.publishGrant_keeps _ _)) (Dev.Mild.via (Dev.Mild.of_keeps (Dev.onOut_keeps _ _ _))
      (Dev.Mild.via (Dev.Mild.of_keeps (Dev.onVeh_keeps _ _ _)) (Dev.Mild.via (Dev.Mild.of_keeps (Dev.openAll_keeps _ _))
        (Dev.Mild.via (Dev.openNow_mild _ _ _ _) h0))))
  · exact Dev.Mild.via (Dev.withdraw_mild _ _ _) (Dev.Mild.via (Dev.Mild.of_keeps (Dev.openAll_keeps _ _)) h0)
  · exact h0

theorem Dev.tripLink_mild (d : Dev) (n : LinkId) (c : Cause) (cls : Nat) (gone : Bool) : d.Mild (d.tripLink n c cls gone) := by
  unfold Dev.tripLink
  extract_lets old d1 d2 d3
  have h1 : d.Mild d1 := Dev.Mild.of_keeps (Dev.onProt_keeps _ _ _)
  have h2 : d.Mild d2 := by
    unfold d2
    split
    · exact Dev.Mild.via (Dev.raise_mild _ _ _ _ _) h1
    · exact h1
  have h3 : d.Mild d3 := by
    unfold d3
    split
    · exact Dev.Mild.via (Dev.Mild.of_keeps (Dev.sendTrip_keeps _ _ _)) h2
    · exact h2
  exact Dev.Mild.via (Dev.forceLink_mild _ _ _) h3

theorem Dev.trip_mild (d : Dev) (c : Cause) (ns : List LinkId) (gone : Bool) : d.Mild (d.trip c ns gone) := by
  refine ⟨d.trip_power c ns gone, ?_⟩
  unfold Dev.trip
  extract_lets cls d1
  split
  · exact ⟨rfl, rfl⟩
  · have h0 : (d.recordTrip c cls).prot.armed = d.prot.armed ∧ (d.recordTrip c cls).prot.bootMap = d.prot.bootMap := by
      unfold Dev.recordTrip; extract_lets same; constructor <;> simp <;> split <;> simp
    have h1 : d1.prot.armed = d.prot.armed ∧ d1.prot.bootMap = d.prot.bootMap := by
      refine Dev.each_inv (P := fun e => e.prot.armed = d.prot.armed ∧ e.prot.bootMap = d.prot.bootMap) h0 fun e n _ he => ?_
      have := Dev.tripLink_mild e n c cls gone
      exact ⟨this.2.1.trans he.1, this.2.2.trans he.2⟩
    split <;> simp [Dev.driveTripout, Dev.haltBy, h1]

theorem Dev.causeOn_mild (d : Dev) (e : EvReg) (bit : Nat) (c : Cause) (n : Option LinkId) (ns : List LinkId) (gone : Bool) :
    d.Mild (d.causeOn e bit c n ns gone) := by
  unfold Dev.causeOn
  refine Dev.Mild.trans (e := d.raiseAlways e bit (causeArg c.code (d.classOn (d.tripClass c.code c.index) ns) n)) ?_ (Dev.trip_mild _ _ _ _)
  exact ⟨⟨d.power.haltNow, d.power.exitHalt, by simp [Power.halting]⟩, by simp, by simp⟩

theorem Dev.deviceCause_mild (d : Dev) (code bit : Nat) (ns : List LinkId) (index : Nat) (gone : Bool) :
    d.Mild (d.deviceCause code bit ns index gone) := Dev.causeOn_mild _ _ _ _ _ _ _

theorem Dev.judgePairs_mild (d : Dev) : d.Mild d.judgePairs := by
  unfold Dev.judgePairs
  refine Dev.each_inv (P := d.Mild) (Dev.Mild.rfl d) fun e k _ he => ?_
  split
  · exact he.trans (Dev.causeOn_mild _ _ _ _ _ _ _)
  · exact he

theorem Dev.armPairs_mild (d : Dev) : d.Mild d.armPairs := by
  unfold Dev.armPairs
  refine Dev.Mild.trans (Dev.each_inv (P := d.Mild) (Dev.Mild.rfl d) fun e k _ he => he.trans ?_) (Dev.judgePairs_mild _)
  exact ⟨⟨e.power.haltNow, e.power.exitHalt, by simp [Dev.onPair, Power.halting]⟩, by simp [Dev.onPair], by simp [Dev.onPair]⟩

theorem Dev.imagePairs_mild (d : Dev) : d.Mild d.imagePairs := by
  unfold Dev.imagePairs
  extract_lets img
  split
  · exact Dev.each_inv (P := d.Mild) (Dev.Mild.rfl d) fun e x _ he => he.trans (Dev.Mild.rfl e)
  · exact Dev.Mild.rfl d

/-- What the verification of the loader leaves of the modes: it may ask for SAFE HALT for good (R56). -/
theorem Dev.verifyLoader_power (d : Dev) : ∃ h g f, d.verifyLoader.power =
    { d.power with haltNow := h, haltForGood := g, bringupFault := f } := by
  unfold Dev.verifyLoader
  split
  · exact ⟨_, _, _, rfl⟩
  · exact ⟨_, _, _, rfl⟩

theorem Dev.verifyLoader_prot (d : Dev) : d.verifyLoader.prot = d.prot := by
  unfold Dev.verifyLoader; split <;> rfl

/-- Arming on the boot map (R49, R56): the mode is WAKING, and of the rest of the modes only the tempo, the bring-up and the
request for SAFE HALT change. -/
theorem Dev.armBoot_waking (d : Dev) : d.armBoot.mode = .waking ∧ d.armBoot.power.bringup = .waking ∧ d.armBoot.power.tempo = 0 ∧
    d.armBoot.prot.armed = true ∧ d.armBoot.prot.bootMap = true ∧ d.armBoot.power.waking = d.power.waking ∧
    d.armBoot.power.resetHeld = d.power.resetHeld ∧ d.armBoot.power.railLow = d.power.railLow ∧
    d.armBoot.power.porAsserted = d.power.porAsserted ∧ d.armBoot.power.loaderOk = d.power.loaderOk ∧
    d.armBoot.power.testEn = d.power.testEn := by
  unfold Dev.armBoot
  generalize hx : (d.onPower fun p => { p with
      mode := .waking, bringup := .waking, bringupAt := d.now, bringupLead := 0, bringupFault := none, tempo := 0, target := 0
      vcoreOff := false }).onProtection (fun p => { p with armed := true, bootMap := true, selftestOk := false }) = x
  obtain ⟨h, g, f, e⟩ := x.imagePairs.armPairs.verifyLoader_power
  obtain ⟨⟨h', x', a⟩, b, c⟩ := (Dev.imagePairs_mild x).trans (Dev.armPairs_mild _)
  simp only [Dev.mode, e, Dev.verifyLoader_prot, a, b, c, Power.halting]
  subst hx
  exact ⟨rfl, rfl, rfl, rfl, rfl, rfl, rfl, rfl, rfl, rfl, rfl⟩

theorem Dev.coreReset_held (d : Dev) (cold : Bool) : (d.coreReset cold).mode = .waking ∧ (d.coreReset cold).prot.armed = false ∧
    (d.coreReset cold).tenants = d.tenants := ⟨rfl, rfl, rfl⟩

/-- What the wait states of a transaction leave of it (R86, R89): the longest stall, the STALLED bit, and a draw. -/
theorem Dev.stalls_cases (d : Dev) (t : Txn) :
    d.stalls t = (d, t) ∨ d.stalls t = (d.drew, t) ∨
      ∃ w, d.stalls t = (d.drew.setReg Reg.hptStallMax w, { t with status := t.status ||| 8 }) := by
  unfold Dev.stalls
  extract_lets w bound us
  split
  · exact .inl rfl
  · split
    · exact .inr (.inr ⟨_, rfl⟩)
    · exact .inr (.inl rfl)

/-- The end of a transaction (R88, R109): what the port drives, the count of transactions, and no other register but the
longest stall. -/
theorem Dev.endTxn_port (d : Dev) (t : Txn) : (d.endTxn t).host.run = none ∧ (d.endTxn t).host.pair = d.host.pair ∧
    (d.endTxn t).host.outData = (if t.aborted then [] else t.out) ∧ (d.endTxn t).host.outErr = (t.failed && !t.aborted) ∧
    (d.endTxn t).host.errCause = d.host.errCause ∧ (d.endTxn t).host.errAddr = d.host.errAddr := by
  unfold Dev.endTxn
  obtain e | e | ⟨w, e⟩ := d.stalls_cases t <;> rw [e] <;> refine ⟨rfl, rfl, rfl, ?_, rfl, rfl⟩ <;>
    simp [Txn.failed]

theorem Dev.endTxn_reg (d : Dev) (t : Txn) (a : Nat) (ha : a ≠ Reg.hptTxnCnt) (hs : a ≠ Reg.hptStallMax) :
    (d.endTxn t).reg a = d.reg a := by
  unfold Dev.endTxn
  extract_lets x st
  rw [Dev.setReg_reg, if_neg ha, Dev.onHost_reg]
  obtain e | e | ⟨w, e⟩ := d.stalls_cases t <;> simp only [x, e]
  · rfl
  · exact (Dev.setReg_reg d _ a w).trans (if_neg hs)

theorem Dev.endTxn_count (d : Dev) (t : Txn) : (d.endTxn t).reg Reg.hptTxnCnt = d.reg Reg.hptTxnCnt + 1 := by
  unfold Dev.endTxn; simp

/-- The link layer with another TRIP in progress. -/
def LinkLayer.tripping (l : LinkLayer) (s : Byte) (p : Option Preempt) (x : Bool) : LinkLayer :=
  { l with tripSerial := s, preempt := p, spoiled := x }

/-- What a trip may change at the links (R126, R142): the TRIP in progress, its record, and event bits that it sets. -/
def Dev.LinkMild (d e : Dev) : Prop :=
  (∀ m, ∃ s p x, (e.link m).lnk = (d.link m).lnk.tripping s p x) ∧
  (∀ a, regPart a = .rLnk → (∀ m : LinkId, a ≠ Reg.lnkTripLast m) → (∀ m : LinkId, a ≠ Reg.lnkEvents m) → e.reg a = d.reg a) ∧
  (∀ (m : LinkId) b, d.bit (Reg.lnkEvents m) b = true → e.bit (Reg.lnkEvents m) b = true)

theorem Dev.LinkMild.rfl (d : Dev) : d.LinkMild d :=
  ⟨fun m => ⟨(d.link m).lnk.tripSerial, (d.link m).lnk.preempt, (d.link m).lnk.spoiled, Eq.refl _⟩, fun _ _ _ _ => Eq.refl _, fun _ _ h => h⟩

theorem Dev.LinkMild.trans {d e f : Dev} (h1 : d.LinkMild e) (h2 : e.LinkMild f) : d.LinkMild f := by
  refine ⟨fun m => ?_, fun a h x y => (h2.2.1 a h x y).trans (h1.2.1 a h x y), fun m b h => h2.2.2 m b (h1.2.2 m b h)⟩
  obtain ⟨s, p, x, e1⟩ := h1.1 m
  obtain ⟨s', p', x', e2⟩ := h2.1 m
  exact ⟨s', p', x', by rw [e2, e1]; rfl⟩

theorem regPart_lnkEvents' (m : LinkId) : regPart (Reg.lnkEvents m) = .rLnk := regPart_lnkEvents m.2

theorem Dev.LinkMild.of_keeps {d e : Dev} {l : List Part} (h : d.Keeps e l) (h1 : Part.isIn l .lnk = false := by rfl)
    (h2 : Part.isIn l .rLnk = false := by rfl) : d.LinkMild e :=
  ⟨fun m => ⟨(d.link m).lnk.tripSerial, (d.link m).lnk.preempt, (d.link m).lnk.spoiled, h.lnk m h1⟩, fun _ ha _ _ => h.reg_of ha h2,
    fun m b hb => by rwa [h.bit _ _ (by rw [regPart_lnkEvents']; exact h2)]⟩

theorem lnkTripLast_ne_events (m n : LinkId) : Reg.lnkEvents m ≠ Reg.lnkTripLast n := by
  unfold Reg.lnkEvents Reg.lnkTripLast; have := m.2; have := n.2; omega

theorem LinkLayer.tripping_same (l : LinkLayer) : l = l.tripping l.tripSerial l.preempt l.spoiled := Eq.refl _

theorem Dev.sendTrip_linkMild (d : Dev) (n : LinkId) (cls : Nat) : d.LinkMild (d.sendTrip n cls) := by
  unfold Dev.sendTrip
  split
  · extract_lets l serial c arg
    have hr : ∀ a, ((d.preemptWith n { release := false, cls := c, serial := serial }).onLnk n
        fun l => { l with tripSerial := serial }).reg a = d.reg a := fun _ => Eq.refl _
    refine ⟨fun m => ?_, fun a _ h1 h2 => ?_, fun m b hb => ?_⟩
    · simp only [Dev.raise_link, Dev.setReg_link, Dev.onLnk, Dev.preemptWith, Dev.onLink_link]
      split
      · next h => subst h; exact ⟨_, _, _, Eq.refl _⟩
      · exact ⟨_, _, _, LinkLayer.tripping_same _⟩
    · rw [Dev.raise_reg, if_neg (show a ≠ (EvReg.lnk n).addr from h2 n), Dev.setReg_reg, if_neg (h1 n), hr]
    · unfold Dev.bit at hb ⊢
      rw [Dev.raise_reg, Dev.setReg_reg, if_neg (lnkTripLast_ne_events m n), hr]
      split
      · rw [bitOf_or_oneBit _ _ _ (by decide), hb]; rfl
      · exact hb
  · exact Dev.LinkMild.rfl d

theorem Dev.tripLink_linkMild (d : Dev) (n : LinkId) (c : Cause) (cls : Nat) (gone : Bool) : d.LinkMild (d.tripLink n c cls gone) := by
  unfold Dev.tripLink
  extract_lets old d1 d2 d3
  have h2 : d.LinkMild d2 := by
    refine Dev.LinkMild.of_keeps (l := [.lprot, .recorder, .rPrt]) ?_
    refine Dev.Keeps.ite (fun _ => ?_) fun _ => Dev.Keeps.via (Dev.onProt_keeps _ _ _) Dev.Keeps.rfl (Eq.refl true)
    exact Dev.Keeps.raise (Dev.Keeps.via (Dev.onProt_keeps _ _ _) Dev.Keeps.rfl (Eq.refl true)) (Eq.refl true)
      (contains_of (regPart_prtLEvents n.2) (Eq.refl true))
  have h3 : d.LinkMild d3 := by
    unfold d3
    split
    · exact h2.trans (Dev.sendTrip_linkMild _ _ _)
    · exact h2
  exact h3.trans (Dev.LinkMild.of_keeps (Dev.forceLink_keeps d3 n c.source))

theorem Dev.trip_linkMild (d : Dev) (c : Cause) (ns : List LinkId) (gone : Bool) : d.LinkMild (d.trip c ns gone) := by
  unfold Dev.trip
  extract_lets cls d1
  split
  · exact Dev.LinkMild.rfl d
  · have h1 : d.LinkMild d1 := by
      refine Dev.each_inv (P := d.LinkMild) (Dev.LinkMild.of_keeps (Dev.recordTrip_keeps d c cls)) fun e n _ he => ?_
      exact he.trans (Dev.tripLink_linkMild e n c cls gone)
    refine Dev.LinkMild.trans (e := if cls = 3 then d1.haltBy c gone else d1) ?_ (Dev.LinkMild.of_keeps (Dev.driveTripout_keeps _))
    split
    · exact h1.trans (Dev.LinkMild.of_keeps (Dev.haltBy_keeps d1 c gone))
    · exact h1

theorem EvReg.addr_rLnk (e : EvReg) (h : regPart e.addr = .rLnk) : ∃ m : LinkId, e.addr = Reg.lnkEvents m := by
  cases e <;> first
    | exact ⟨_, Eq.refl _⟩
    | exact absurd h (by decide)
    | exact absurd ((regPart_prtLEvents (Fin.isLt _)).symm.trans h) (by decide)
    | exact absurd ((regPart_metEvents (Fin.isLt _)).symm.trans h) (by decide)
    | exact absurd ((regPart_vehEvents (Fin.isLt _)).symm.trans h) (by decide)
    | exact absurd ((regPart_tagLEvents (Nat.lt_of_lt_of_le (Fin.isLt _) (by decide))).symm.trans h) (by decide)
    | exact absurd ((regPart_auxEvents (Fin.isLt _)).symm.trans h) (by decide)
    | exact absurd (regPart_bilTEvents.symm.trans h) (by decide)

theorem Dev.raiseAlways_linkMild (d : Dev) (e : EvReg) (bit : Nat) (arg : Word) (tn : Option TenantId) (hb : bit < 32) :
    d.LinkMild (d.raiseAlways e bit arg tn) := by
  refine ⟨fun m => ⟨(d.link m).lnk.tripSerial, (d.link m).lnk.preempt, (d.link m).lnk.spoiled, by simp [LinkLayer.tripping]⟩, fun a h h1 h2 => ?_, fun m b h => ?_⟩
  · rw [Dev.raiseAlways_reg, if_neg]
    rintro rfl
    obtain ⟨m, hm⟩ := EvReg.addr_rLnk e h
    exact h2 m hm
  · unfold Dev.bit at h ⊢
    rw [Dev.raiseAlways_reg]
    split
    · rw [bitOf_or_oneBit _ _ _ hb, h]; rfl
    · exact h

theorem Dev.causeOn_linkMild (d : Dev) (e : EvReg) (bit : Nat) (c : Cause) (n : Option LinkId) (ns : List LinkId) (gone : Bool)
    (hb : bit < 32) : d.LinkMild (d.causeOn e bit c n ns gone) := by
  unfold Dev.causeOn
  exact (Dev.raiseAlways_linkMild d e bit _ none hb).trans (Dev.trip_linkMild _ _ _ _)

/-- The detail bit of a cause of a link reads 1 after it. -/
theorem Dev.causeOn_lnkBit (d : Dev) (m : LinkId) (bit : Nat) (c : Cause) (n : Option LinkId) (ns : List LinkId) (gone : Bool)
    (hb : bit < 32) : (d.causeOn (.lnk m) bit c n ns gone).bit (Reg.lnkEvents m) bit = true := by
  unfold Dev.causeOn
  refine (Dev.trip_linkMild _ _ _ _).2.2 m bit ?_
  unfold Dev.bit
  rw [Dev.raiseAlways_reg, if_pos (show Reg.lnkEvents m = (EvReg.lnk m).addr from rfl), bitOf_or_oneBit_self _ _ hb]

/-- A cause sets its detail bit, where no trip writes that register. -/
theorem Dev.causeOn_bit (d : Dev) (e : EvReg) (bit : Nat) (c : Cause) (n : Option LinkId) (ns : List LinkId) (gone : Bool)
    (hb : bit < 32) (hp : Part.isIn Part.trip (regPart e.addr) = false) : (d.causeOn e bit c n ns gone).bit e.addr bit = true := by
  unfold Dev.causeOn
  rw [(Dev.trip_keeps _ _ _ _).bit _ _ hp]
  unfold Dev.bit
  rw [Dev.raiseAlways_reg, if_pos rfl, bitOf_or_oneBit_self _ _ hb]

/-- A cause leaves every other register that no trip writes. -/
theorem Dev.causeOn_reg (d : Dev) (e : EvReg) (bit : Nat) (c : Cause) (n : Option LinkId) (ns : List LinkId) (gone : Bool) (a : Nat)
    (ha : a ≠ e.addr) (hp : Part.isIn Part.trip (regPart a) = false) : (d.causeOn e bit c n ns gone).reg a = d.reg a := by
  unfold Dev.causeOn
  rw [(Dev.trip_keeps _ _ _ _).reg _ hp, Dev.raiseAlways_reg, if_neg ha]

/-! ### The budget -/

@[simp] theorem Dev.setBudget_reg (d : Dev) (a : Nat) : d.setBudget.reg a = d.reg a := d.setBudget_keeps.anyReg a

@[simp] theorem Dev.setBudget_limit (d : Dev) :
    d.setBudget.alloc.limit = d.alloc.limit ∧ d.setBudget.alloc.waiting = d.alloc.waiting ∧
      d.setBudget.alloc.expired = d.alloc.expired := by
  simp only [Dev.setBudget]; split_ifs <;> simp

end Sys2Proof.Machine
end

