-- ==== Sys2Proof/WellFormed.lean ====
section
/-! DEFINITION. What the spec requires of a command's operands before the device can meet it: lengths of bursts,
frames, payloads and answers. The meanings are total: a command that is not well formed is outside what the spec's
senders can send, and nothing here is a premise of a meaning. -/

namespace Sys2Proof

/-- A burst has 1 to 256 words (R83). -/
def burstOk (ws : List Word) : Bool := 1 ≤ ws.length && ws.length ≤ 256

/-- An aborted transaction has met at most the words that LEN announces (R83, R103). -/
def abortOk (len : Byte) (ws : List Word) : Bool := ws.length ≤ len.toNat + 1

/-- A link frame has 96 blocks (R116). -/
def frameOk (bs : List Block) : Bool := bs.length == 96

/-- A training marker of step B is 1 to 8 (R134). -/
def markerOk (m : BitVec 16) : Bool := 1 ≤ m.toNat && m.toNat ≤ 8

/-- A response of a head is READ_DATA, WRITE_DONE or REJECT (R139). -/
def responseOk (r : BitVec 2) : Bool := r != 0

/-- The head register of a pass-through access is word aligned (R106). -/
def headAddrOk (a : BitVec 15) : Bool := a.toNat % 4 == 0

/-- Protocols that a vehicle offers do not repeat (R249). -/
def offerOk (ps : List Protocol) : Bool := !ps.isEmpty && decide ps.Nodup

/-- An Ethernet frame on a safety network, from its destination address to before its FCS: 60 to 1,514 bytes, or 1,518 with a VLAN
tag (R312, R313). -/
def etherOk (p : List Byte) : Bool := 60 ≤ p.length && p.length ≤ 1518

/-- Lengths of what a card answers (R328): UIDs of 4, 7 or 10 bytes, nonces of 12, sealed random numbers of 16 and 32
with their tags, the sealed credential file; of a UHF tag the EPC holds tenant and vehicle number (R330). -/
def answerOk : AirAnswer → Bool
  | .uids us => !us.isEmpty && us.all fun u => u.length == 4 || u.length == 7 || u.length == 10
  | .fci t _ => t.toNat < 1024
  | .auth1 n s => n.length == 12 && s.length == 32
  | .auth2 n s => n.length == 12 && s.length == 48
  | .credential s => s.length == 48
  | .uhfTag _ _ epc _ _ => 6 ≤ epc.length
  | .none => true

/-- Host words of a load command: an image of at most 4 MiB, in bytes (R399, R426). -/
def imageLenOk (n : BitVec 23) : Bool := 1 ≤ n.toNat && n.toNat ≤ 4194304

/-- A credential chain loaded by the host has 1 to 4,096 bytes (R352). -/
def chainLenOk (n : BitVec 13) : Bool := 1 ≤ n.toNat && n.toNat ≤ 4096

/-- LEN of a posted message holds its bytes − 1, at most 255 (R337, R340). -/
def mailLenOk (n : BitVec 9) : Bool := n.toNat ≤ 255

/-- A mailbox write of a tag carries 1 to 128 bytes (R335). -/
def mailDataOk (bs : List Byte) : Bool := 1 ≤ bs.length && bs.length ≤ 128

/-- A mailbox read of a tag asks for 1 to 128 bytes (R335). -/
def mailReadOk (le : Byte) : Bool := 1 ≤ le.toNat && le.toNat ≤ 128

/-- The links of a lap overrun do not repeat (R37, R181). -/
def lateOk (ls : List LinkId) : Bool := decide ls.Nodup

/-- An archive block holds 64 KiB (R450). -/
def arcReadOk : ArcRead → Bool
  | .data b => b.length == 65536
  | .ioError => true

/-- The operand conditions of a command. -/
def Instr.wf : Instr → Bool
  | .writeInc _ ws | .writeFix _ ws => burstOk ws
  | .transactionAbort _ _ len ws => abortOk len ws
  | .headFrameReceived _ bs => frameOk bs
  | .trainBEcho _ m _ => markerOk m
  | .headRegResponse _ r _ _ _ => responseOk r
  | .headRegisterAccess _ a _ => headAddrOk a
  | .supportedAppProtocol _ ps => offerOk ps
  | .snDataFrame _ p | .snResetFrame _ p => etherOk p
  | .airResponse _ a => answerOk a
  | .cfgLoadCommit n => imageLenOk n
  | .loadChain n => chainLenOk n
  | .wireMbxPost n => mailLenOk n
  | .svcMbxWrite _ bs _ => mailDataOk bs
  | .svcMbxRead _ le => mailReadOk le
  | .lapOverrun _ ls => lateOk ls
  | .arcReadDone r => arcReadOk r
  | _ => true

end Sys2Proof
end

