-- ==== Sys2Proof/Tests/Slice0.lean ====
section
/-! SUPPORT. The model's own tests: a witness of the hypotheses of each statement, the operand conditions, and worked examples
of the specification. -/

namespace Sys2Proof.Tests

set_option Elab.async false

open Sys2Proof.Machine

/-! ### Small states -/

def up (f : Dev → Dev) : State := { State.reset with dev := f State.reset.dev }
def on (s : State) (f : Dev → Dev) : State := { s with dev := f s.dev }
def awake (d : Dev) : Dev := { d with power := { d.power with resetHeld := false, mode := .run } }
def ctrlWord (t : Nat) (a : Nat) : Block :=
  let p := t * 2 ^ 24 + a * 2 ^ 8
  { header := 2, payload := BitVec.ofNat 32 (p + ctrlCrc (BitVec.ofNat 32 p)) }
def goodBlocks : List Block :=
  let bs := ctrlWord 1 0 :: List.replicate 47 { header := 1, payload := 0 } ++ List.replicate 46 { header := 1, payload := 0 }
  bs ++ [{ header := 1, payload := BitVec.ofNat 32 (frameCrc bs) }, ctrlWord 2 7]
def exch (k : Nat) (sent : Bool) : Exchange :=
  { receiver := 3, donor := some 7, group := 9, step := k, start := 0, stepAt := 0,
    condSince := some 0, unownedAt := none, segSent := sent, segReady := true, paused := false }
def moving (k : Nat) (sent : Bool) (now : Nat) (dest0 : Word) (fb : BitVec 16) : State :=
  up fun d => awake { ((((d.setReg (Reg.lnkCfg 9) 2).setReg (Reg.alcMx 9 0) dest0).onGroup 9 fun x => { x with lowSince := some 0 }).onLink 9
    fun l => { l with hs := { l.hs with fb := fb } }) with
      pacer := { d.pacer with tick := now }, alloc := { d.alloc with slots := d.alloc.slots.set 2 (some (exch k sent)) } }
def car (f : Vehicle → Vehicle) (now : Nat) : State :=
  up fun d => awake { (((d.setReg (Reg.lnkCfg 7) 1).onLnk 7 fun l => { l with state := .live }).onVeh 7 f) with
    pacer := { d.pacer with tick := now } }
def slacRun : SlacRun :=
  { runId := 9, evMac := 5, nmk := [], parmAt := 0, soundAt := some 0, sounds := 3, sum := 1740, toggles := 2 }
def going (v : Vehicle) : Vehicle := { v with live := true, closedOnce := true, openCmd := false, state := .energy }
def guardian (f : Dev → Dev) (now : Nat) : State :=
  up fun d => f (awake { (d.setReg (Reg.lnkCfg 7) 1).onLnk 7 fun l => { l with state := .live } with
    prot := { d.prot with armed := true, bootMap := false }, pacer := { d.pacer with tick := now } })
def judged (f : LinkProt → LinkProt) (now : Nat) : State := guardian (fun d => d.onProt 7 f) now
def conn (f : Connection → Connection) (now : Nat) : State :=
  guardian (fun d => (((d.setReg Reg.prtSnCfg 0xC0000000).setReg (Reg.prtSnRxId 2) 0x55).setReg (Reg.prtSnRxCfg 2) 0x800003E8).onConn 2 fun c => f { c with isOpen := true }) now
def snPdu (kind : Byte) (seq : Nat) (body : List Byte) : List Byte :=
  let p := [1, kind] ++ bytesBE 4 0x55 ++ bytesBE 2 seq ++ bytesBE 2 100 ++ [BitVec.ofNat 8 body.length, 0] ++ body
  p ++ bytesBE 4 (scrc p)
def snFrm (p : List Byte) : List Byte := List.replicate 12 0 ++ safetyType ++ p
def tagRun (st : TagStep) (o : Option TagOutcome) : TagTransaction :=
  { link := 7, cls := 1, granted := 0, step := st, uid := [1, 2, 3, 4], tenant := 5, keyVer := 1, rndA := [], rndB := [],
    ks := [], found := [], failed := [], outcome := o, sent := .poll false, sendAt := 0 }
def reading (st : TagStep) (o : Option TagOutcome) (now : Nat) : State :=
  on (car id now) (fun d => d.onEngine 3 (some (tagRun st o)))
def svcAt (f : ServiceTag → ServiceTag) (now : Nat) : State :=
  up fun d => awake { d.onSvc f with pacer := { d.pacer with tick := now } }
def secure (f : Security → Security) (now : Nat) : State :=
  up fun d => awake { d.onSec f with pacer := { d.pacer with tick := now } }
def work (u : CryptoUse) (k : EngineKind) (n : Nat) (c : Bool) : CryptoReq :=
  { use := u, cls := .legal, admitted := 0, rank := 640, ops := List.replicate n { kind := k, chunks := 1, us := 5 }, since := 0, cancelled := c }
def gridAt (f : Grid → Grid) (now : Nat) : State :=
  up fun d => awake { d.onGrid f with pacer := { d.pacer with tick := now } }
def gridMsg (kind : Nat) (bytes : List Byte) (done : Bool) : GridMsg :=
  { sender := 4, kind := kind, msg := 2, next := 1, bytes := bytes, done := done, idle := 64, start := 0 }
def gridCell (b : Bool) : CellDiffs := [if b then 3 else -3]
def gridSync : SyncDiffs :=
  #v[#v[gridCell true, gridCell true, gridCell false], Vector.replicate 3 [], #v[gridCell false, gridCell true, gridCell true],
     Vector.replicate 3 [], #v[gridCell true, gridCell false, gridCell true], Vector.replicate 3 []]
def gridBeacon (prio count : Nat) (part : BitVec 16) (owner : Byte) (cycle : Nat) : Beacon :=
  let bits := beaconBits prio count part owner ++ bitsOf 8 (beaconCrc prio count part owner)
  { cycle := cycle, sync := gridSync, cells := Vector.ofFn fun i => gridCell (bits.getD i.1 false) }
def gridAnswer (slot : Fin 4) (node : BitVec 48) : DiscAnswer :=
  let bits := bitsOf 48 node.toNat ++ bitsOf 16 (discCrc node)
  { slot := slot, sync := gridSync, cells := Vector.ofFn fun i => gridCell (bits.getD i.1 false) }
def gridSeg (hdr : Nat) (payload : List Byte) : Segment :=
  let bits := segCells hdr payload
  Vector.ofFn fun i => gridCell (bits.getD i.1 none == some true)
def manifest : Manifest :=
  { serial := 3, notBefore := 0, notAfter := 90, auto := false, units := 1,
    parts := [{ kind := 1, mode := 2, headId := 0, first := 0, units := 1, newVer := 2, baseVer := 1, payloadLen := 0, imageLen := 4, hash := [1] },
              { kind := 3, mode := 1, headId := 0x55, first := 0, units := 1, newVer := 2, baseVer := 1, payloadLen := 0, imageLen := 4, hash := [1] }],
    compat := [] }
def updating (f : Update → Update) (now : Nat) : State :=
  up fun d => awake { d.onUpd (fun u => f { u with manifest := some manifest }) with
    pacer := { d.pacer with tick := now, calSet := true, cal := 91 } }
def holding (h : HoldSlot) (now : Nat) : State :=
  up fun d => awake { d.setSlot 2 (some h) with pacer := { d.pacer with tick := now } }
def held (fn : Byte) (st : HoldState) : HoldSlot := { fn := fn, inst := 0, state := st, saved := [(Reg.tagXPoll, 77)], since := 0 }
def sealedBlock : ArchiveBlock := { ns := 2, epoch := 0, no := 7, root := 0, place := 0, bytes := [1], tag := [], recEnd := 0 }
def writing (tries : Nat) : NvmeCmd := { block := some sealedBlock, tries := tries, since := 0 }
def archiving (c : Option NvmeCmd) (now : Nat) : State :=
  up fun d => awake { (d.setReg Reg.memArcCfg 0x80000003).onArc (fun a => { a with state := .ready, cmds := a.cmds.set 3 c }) with
    pacer := { d.pacer with tick := now } }
def someRecord : EventRecord :=
  { seq := 1, opSeconds := 0, cycles := 0, tick := 0, source := 5, reg := 0, bit := 1, arg := 0, repeats := 0, dropped := 0, cls := 0,
    poison := false, tenant := false, snapshot := [], cal := 0 }
def showing (f : Display → Display) (now : Nat) : State :=
  up fun d => awake { d.onDisp f with pacer := { d.pacer with tick := now } }
def keyed (f : Key → Key) (now : Nat) : State :=
  up fun d => awake { d.onKey 1 f with pacer := { d.pacer with tick := now } }
def auxAt (role : Word) (f : AuxChannel → AuxChannel) (now : Nat) : State :=
  on (car id now) fun d => ((d.setReg (Reg.auxCfg 7 2) role).onLnk 7 fun l => { l with headCaps := 0xF0000 }).onAux 7 2 f
theorem waits_none {d : Dev} {n : LinkId}
    (hm : ¬ (d.mode = .startingBlock ∨ d.mode = .safeHalt ∨ d.mode = .maintenance ∨ d.mode = .activation ∨ d.upd.state = .activating))
    (hh : (d.cfg.slots.toList.any fun s => (s.map fun h => decide (h.fn = 5 ∧ h.inst.toNat = n.1)).getD false) = false)
    (ha : d.vehActive + 1 ≤ tempoLinks d.power.tempo) (hc : tempoCores d.power.tempo = 16) : d.waitReason n = .none := by
  have : d.tempoAdmits = true := by
    unfold Dev.tempoAdmits
    rw [hc]
    exact Bool.and_eq_true_iff.mpr ⟨decide_eq_true ha, decide_eq_true (Nat.min_le_left _ _)⟩
  unfold Dev.waitReason
  simp only [hh, this, if_neg hm]
  rfl

/-! ### Witnesses of the statements' hypotheses, clause by clause -/

theorem test_witness_EmptyQueueIdles :
    (∃ (s : State), s.pending = []) :=
  ⟨State.reset, by decide⟩

theorem test_witness_InvariantKept :
    (∃ (s : State) (t : State), s.Inv ∧ step s = .next t) :=
  ⟨State.reset, State.reset, by exact ⟨⟨rfl, rfl⟩, rfl⟩⟩

theorem test_witness_CanonicalRegisters :
    (∃ (s : State) (t : State), s.Inv ∧ t.Inv ∧ ∀ a, s.dev.reg a = t.dev.reg a) :=
  ⟨State.reset, State.reset, by exact ⟨⟨rfl, rfl⟩, ⟨rfl, rfl⟩, fun _ => rfl⟩⟩

theorem test_witness_CommandFrame :
    (∃ (s : State) (t : State) (c : Instr), exec c s = .next t) :=
  ⟨State.reset, State.reset, .tickClosure, by rfl⟩

theorem test_witness_TickCount :
    (∃ (s : State) (t : State) (c : Instr), exec c s = .next t) :=
  ⟨State.reset, State.reset, .tickClosure, by rfl⟩

theorem test_witness_StickyBits :
    (∃ (s : State) (a : Word) (w : Word) (r : RegDecl) (k : Nat), s.dev.recording = true ∧ s.dev.writable a.toNat w = some r ∧ r.kind = .w1c ∧ k < 32) ∧
    (∃ (k : Nat), k < 32) :=
  ⟨⟨up awake, 0xE0004, 5, ⟨4, 1, 4, 1, .w1c, 15, 0, [], false, 0⟩, 2, by decide⟩,
   ⟨3, by decide⟩⟩

theorem test_witness_StuckKeys :
    (∃ (s : State) (k : Fin 2), (s.dev.keys.get k).touched = true ∧ (s.dev.keys.get k).stuck = false ∧ (s.dev.keys.get k).touchAt + secs 60 ≤ s.dev.now) ∧
    (∃ (s : State) (k : Fin 2), (s.dev.keys.get k).stuck = true) ∧
    (∃ (s : State), (s.dev.keys.get 0).stuck = true) ∧
    (∃ (s : State) (k : Fin 2), (s.dev.keys.get k).stuck = true) ∧
    (∃ (s : State) (k : Fin 2), (s.dev.keys.get k).stuck = true ∧ (s.dev.keys.get k).first = false) ∧
    (∃ (s : State) (k : Fin 2), (s.dev.keys.get k).stuck = true) ∧
    (∃ (s : State) (k : Fin 2), (s.dev.keys.get k).stuck = true) ∧
    (∃ (s : State) (k : Fin 2), (s.dev.keys.get k).stuck = true) :=
  ⟨⟨keyed (fun x => { x with touched := true }) 60000000, 1, by decide⟩,
   ⟨keyed (fun x => { x with stuck := true, touched := true }) 60000000, 1, by decide⟩,
   ⟨on (keyed id 60000000) (fun d => d.onKey 0 fun x => { x with stuck := true, touched := true }), by decide⟩,
   ⟨keyed (fun x => { x with stuck := true, touched := true, below := 20 }) 60000000, 1, by decide⟩,
   ⟨keyed (fun x => { x with stuck := true, touched := true, first := false }) 60000000, 1, by decide⟩,
   ⟨keyed (fun x => { x with stuck := true, touched := true }) 60000000, 1, by decide⟩,
   ⟨keyed (fun x => { x with stuck := true, touched := true }) 60000000, 1, by decide⟩,
   ⟨keyed (fun x => { x with stuck := true, freeSince := some 0 }) 60000000, 1, by decide⟩⟩

theorem test_witness_PauseAndStandby :
    (∃ (s : State) (n : LinkId), (s.dev.link n).veh.live = true ∧ (s.dev.link n).veh.talking = true ∧ (s.dev.link n).veh.state ≠ .stopping ∧ (s.dev.link n).veh.stopWhy = .none) ∧
    (∃ (d : Dev) (n : LinkId), (d.link n).veh.live = true ∧ (d.link n).veh.stopWhy ≠ .none ∧ d.everClosed n = false) :=
  ⟨⟨car going 5, 7, by decide⟩,
   ⟨(car (fun v => { going v with closedOnce := false, stopWhy := .vehicle }) 5).dev, 7, by decide⟩⟩

theorem test_witness_PacerDoesItsRules :
    (∃ (s : State), s.dev.power.resetHeld = false ∧ s.dev.mode ≠ .dormant ∧ s.dev.pacer.leap = none ∧ s.dev.pacer.secNext ≤ s.dev.now) ∧
    (∃ (s : State), s.dev.power.resetHeld = false ∧ s.dev.mode ≠ .dormant ∧ s.dev.now < s.dev.pacer.secNext) ∧
    (∃ (s : State), s.dev.power.resetHeld = false ∧ s.dev.mode ≠ .dormant ∧ s.dev.pacer.leap = some (s.dev.pacer.cal, true) ∧ s.dev.pacer.leapHeld = false ∧ s.dev.pacer.secNext ≤ s.dev.now) ∧
    (∃ (s : State), s.dev.power.resetHeld = false ∧ s.dev.mode ≠ .dormant ∧ s.dev.prot.armed = true) ∧
    (∃ (s : State), s.dev.power.resetHeld = false ∧ s.dev.mode ≠ .dormant ∧ s.dev.pacer.driftAt + 1000000 ≤ s.dev.now) ∧
    (∃ (s : State) (ns : List LinkId) (n : LinkId), n ∈ ns ∧ s.dev.role n = .outlet ∨ s.dev.role n = .site ∧ s.dev.pacer.vcoreMargin = false) ∧
    (∃ (s : State), s.dev.pacer.vcoreMargin = false ∧ s.dev.power.pmbLost = false) ∧
    (∃ (s : State), s.dev.pacer.vcoreMargin = true ∧ s.dev.prot.armed = true) :=
  ⟨⟨up (fun d => awake { d with pacer := { d.pacer with tick := 1000000, secNext := 1000000 } }), by decide⟩,
   ⟨up (fun d => awake { d with pacer := { d.pacer with secNext := 1000000 } }), by decide⟩,
   ⟨up (fun d => awake { d with pacer := { d.pacer with tick := 1000000, secNext := 1000000, leap := some (d.pacer.cal, true) } }), by decide⟩,
   ⟨up (fun d => awake { d with prot := { d.prot with armed := true } }), by decide⟩,
   ⟨up (fun d => awake { d with pacer := { d.pacer with tick := 1000000 } }), by decide⟩,
   ⟨up (fun d => awake (d.setReg (Reg.lnkCfg 7) 1)), [3, 7], 7, by decide⟩,
   ⟨up (fun d => awake (d.setReg (Reg.lnkCfg 7) 1)), by decide⟩,
   ⟨up (fun d => awake { (d.setReg (Reg.lnkCfg 7) 1) with prot := { d.prot with armed := true }, pacer := { d.pacer with vcoreMargin := true } }), by decide⟩⟩

theorem test_witness_ModeRequests :
    (∃ (s : State), s.dev.dormantRefusal = .none) ∧
    (∃ (s : State), s.dev.mode = .economy ∨ s.dev.mode = .maintenance) ∧
    (∃ (s : State), s.dev.mode = .run) ∧
    (∃ (s : State), s.dev.recording = true ∧ s.dev.dormantRefusal ≠ .none) ∧
    (∃ (s : State), s.dev.recording = true ∧ s.dev.mode ≠ .economy ∧ s.dev.mode ≠ .maintenance) ∧
    (∃ (s : State), s.dev.recording = true ∧ s.dev.mode ≠ .run) ∧
    (∃ (s : State), s.dev.maintenanceRefusal = .none) ∧
    (∃ (s : State), s.dev.recording = true ∧ s.dev.maintenanceRefusal ≠ .none) ∧
    (∃ (s : State), s.dev.recording = true ∧ s.dev.prot.armed = true) ∧
    (∃ (s : State) (c : Instr), s.dev.recording = false ∧ c ∈ [.modeReqDormant, .modeReqRun, .modeReqEconomy, .modeReqMaintenance, .modeReqSafeHalt]) :=
  ⟨⟨up awake, by decide⟩,
   ⟨up (fun d => { d with power := { d.power with mode := .economy } }), by decide⟩,
   ⟨up awake, by decide⟩,
   ⟨on (car going 5) id, by decide⟩,
   ⟨up awake, by decide⟩,
   ⟨up (fun d => { d with power := { d.power with mode := .maintenance } }), by decide⟩,
   ⟨up (fun d => awake { d with bill := { d.bill with sealState := .opened } }), by decide⟩,
   ⟨up awake, by decide⟩,
   ⟨up (fun d => awake { d with prot := { d.prot with armed := true } }), by decide⟩,
   ⟨State.reset, .modeReqRun, by decide⟩⟩

theorem test_witness_BringUp :
    (∃ (s : State), s.dev.power.porAsserted = true ∧ s.dev.power.railLow = [] ∧ s.dev.upd.record ≠ .swapping) ∧
    (∃ (s : State), s.dev.power.porAsserted = true ∧ s.dev.power.railLow = []) ∧
    (∃ (s : State), s.dev.power.porAsserted = true ∧ s.dev.power.railLow = []) ∧
    (∃ (s : State), s.dev.power.porAsserted = true ∧ s.dev.power.railLow = []) ∧
    (∃ (s : State), s.dev.power.porAsserted = true ∧ s.dev.power.railLow ≠ []) ∧
    (∃ (s : State), s.dev.power.porAsserted = false) ∧
    (∃ (s : State), s.dev.power.bringup = .waking ∧ s.dev.power.resetHeld = false ∧ s.dev.mode = .waking ∧ s.dev.power.haltForGood = false) ∧
    (∃ (s : State), s.dev.power.bringup = .starting ∧ s.dev.power.bringupFault = none ∧ s.dev.mode = .startingBlock ∧ s.dev.power.haltLatch = false ∧ s.dev.power.haltNow = false ∧ s.dev.sec.rng ≠ .startup ∧ s.dev.sec.rng ≠ .restarting) ∧
    (∃ (s : State), s.dev.power.bringup = .starting ∧ s.dev.power.bringupFault = none ∧ s.dev.mode = .startingBlock ∧ s.dev.power.haltLatch = true ∧ s.dev.sec.rng ≠ .startup ∧ s.dev.sec.rng ≠ .restarting) ∧
    (∃ (s : State), s.dev.power.bringup = .starting ∧ s.dev.power.bringupFault = none ∧ s.dev.mode = .startingBlock ∧ s.dev.upd.journal = none ∧ s.dev.sec.rng ≠ .startup ∧ s.dev.sec.rng ≠ .restarting) ∧
    (∃ (s : State), s.dev.power.bringup = .starting ∧ s.dev.power.bringupFault = none ∧ s.dev.mode = .startingBlock ∧ s.dev.sec.rng ≠ .startup ∧ s.dev.sec.rng ≠ .restarting) ∧
    (∃ (s : State), s.dev.mode = .run ∧ s.dev.field Reg.pwrTempoCfg 16 8 ≠ 0 ∧ heldFor s.dev.power.ecoSince s.dev.now (60000000 * s.dev.field Reg.pwrTempoCfg 16 8) = true ∧ s.dev.liveSessions ≤ 24) ∧
    (∃ (s : State), s.dev.power.pfail = true ∧ heldFor s.dev.power.warnAt s.dev.now 20000 = true ∧ s.dev.mode ≠ .dormant ∧ s.dev.power.resetHeld = false) :=
  ⟨⟨up (fun d => { d with power := { d.power with porAsserted := true, railLow := [] } }), by decide⟩,
   ⟨up (fun d => { d with power := { d.power with porAsserted := true, railLow := [] } }), by decide⟩,
   ⟨up (fun d => { d with power := { d.power with porAsserted := true, railLow := [] } }), by decide⟩,
   ⟨up (fun d => { d with power := { d.power with porAsserted := true, railLow := [] } }), by decide⟩,
   ⟨up (fun d => { d with power := { d.power with porAsserted := true, railLow := [.vsp] } }), by decide⟩,
   ⟨up (fun d => { d with power := { d.power with porAsserted := false } }), by decide⟩,
   ⟨up (fun d => { d with power := { d.power with bringup := .waking, resetHeld := false } }), by decide⟩,
   ⟨on (up (fun d => { d with power := { d.power with bringup := .starting, bringupFault := none, mode := .startingBlock } })) (fun d => d.onSec fun x => { x with rng := .healthy }), by decide⟩,
   ⟨on (up (fun d => { d with power := { d.power with bringup := .starting, bringupFault := none, mode := .startingBlock, haltLatch := true } })) (fun d => d.onSec fun x => { x with rng := .healthy }), by decide⟩,
   ⟨on (up (fun d => { d with power := { d.power with bringup := .starting, bringupFault := none, mode := .startingBlock } })) (fun d => d.onSec fun x => { x with rng := .healthy }), by decide⟩,
   ⟨on (up (fun d => { d with power := { d.power with bringup := .starting, bringupFault := none, mode := .startingBlock } })) (fun d => d.onSec fun x => { x with rng := .healthy }), by decide⟩,
   ⟨up (fun d => awake { (d.setField Reg.pwrTempoCfg 16 8 1) with power := { d.power with ecoSince := some 0 }, pacer := { d.pacer with tick := 60000000 } }), by decide⟩,
   ⟨up (fun d => awake { d with power := { d.power with pfail := true, warnAt := some 0 }, pacer := { d.pacer with tick := 20000 } }), by decide⟩⟩

theorem test_witness_WakeBusRules :
    (∃ (s : State) (a : Byte) (p : Bool), s.dev.mode = .dormant ∧ s.dev.power.entering = false ∧ s.dev.wakeMatch a = true ∧ wakeParity a 1 p = true) ∧
    (∃ (s : State) (a : Byte) (p : Bool), s.dev.mode = .dormant ∧ s.dev.power.entering = true ∧ s.dev.wakeMatch a = true ∧ wakeParity a 1 p = true) ∧
    (∃ (s : State) (a : Byte) (p : Bool), s.dev.mode ≠ .dormant ∨ s.dev.wakeMatch a = false ∨ wakeParity a 1 p = false) ∧
    (∃ (s : State) (a : Byte) (p : Bool), s.dev.mode = .dormant ∧ s.dev.power.entering = false ∧ s.dev.wakeMatch a = true ∧ wakeParity a 3 p = true) ∧
    (∃ (s : State) (a : Byte) (p : Bool), s.dev.mode = .dormant ∧ s.dev.power.entering = true ∧ s.dev.wakeMatch a = true ∧ wakeParity a 3 p = true) ∧
    (∃ (s : State) (a : Byte) (p : Bool), s.dev.mode ≠ .dormant ∨ s.dev.wakeMatch a = false ∨ wakeParity a 3 p = false) ∧
    (∃ (a : Byte) (p : Bool), wakeParity a 2 p = true) ∧
    (∃ (a : Byte) (p : Bool), wakeParity a 2 p = false) ∧
    (∃ (s : State), s.dev.mode = .dormant ∧ s.dev.power.entering = false ∧ s.dev.power.supplyDormant = true) ∧
    (∃ (s : State), s.dev.mode = .dormant ∧ s.dev.power.entering = true ∧ s.dev.power.supplyDormant = true) ∧
    (∃ (s : State), s.dev.mode ≠ .dormant ∨ s.dev.power.supplyDormant = false) ∧
    (∃ (s : State) (c : WakeCause), s.dev.power.waking = some c ∧ s.dev.mode = .dormant ∧ s.dev.power.entering = false) ∧
    (∃ (s : State), s.dev.power.waking = none ∨ s.dev.mode ≠ .dormant ∨ s.dev.power.entering = true) ∧
    (∃ (s : State), s.dev.mode = .dormant ∧ s.dev.power.entering = true) ∧
    (∃ (s : State), s.dev.mode ≠ .dormant ∨ s.dev.power.entering = false) :=
  ⟨⟨up (fun d => { d with power := { d.power with mode := .dormant } }), 0xFF, (wakeBits 0xFF 1).getLsbD 0, by decide⟩,
   ⟨up (fun d => { d with power := { d.power with mode := .dormant, entering := true } }), 0xFF, (wakeBits 0xFF 1).getLsbD 0, by decide⟩,
   ⟨up awake, 3, true, by decide⟩,
   ⟨up (fun d => { d with power := { d.power with mode := .dormant } }), 0xFF, (wakeBits 0xFF 3).getLsbD 0, by decide⟩,
   ⟨up (fun d => { d with power := { d.power with mode := .dormant, entering := true } }), 0xFF, (wakeBits 0xFF 3).getLsbD 0, by decide⟩,
   ⟨up awake, 3, true, by decide⟩,
   ⟨5, (wakeBits 5 2).getLsbD 0, by decide⟩,
   ⟨5, !(wakeBits 5 2).getLsbD 0, by decide⟩,
   ⟨up (fun d => { d with power := { d.power with mode := .dormant, supplyDormant := true } }), by decide⟩,
   ⟨up (fun d => { d with power := { d.power with mode := .dormant, supplyDormant := true, entering := true } }), by decide⟩,
   ⟨up awake, by decide⟩,
   ⟨up (fun d => { d with power := { d.power with mode := .dormant, waking := some (.wake 5) } }), (.wake 5), by decide⟩,
   ⟨up awake, by decide⟩,
   ⟨up (fun d => { d with power := { d.power with mode := .dormant, entering := true } }), by decide⟩,
   ⟨up awake, by decide⟩⟩

theorem test_witness_PmbusRules :
    (∃ (s : State), s.dev.power.tempo < s.dev.power.target ∧ s.dev.power.pmbOp = none ∧ s.dev.power.voutAt.isSome = true ∧ s.dev.power.pollAt + 1000 ≤ s.dev.now ∧ s.dev.power.pmbLost = false) ∧
    (∃ (s : State), s.dev.power.target ≤ s.dev.power.tempo) ∧
    (∃ (s : State) (op : PmbOp), s.dev.power.pmbOp = some op ∧ op ≠ .readVout ∧ op ≠ .voutMode ∧ op ≠ .statusWord ∧ s.dev.power.pmbRetryAt = none) ∧
    (∃ (s : State), s.dev.power.pmbOp = some .statusWord ∧ s.dev.power.pmbRetryAt = none ∧ s.dev.power.pmbQueue = []) ∧
    (∃ (s : State), s.dev.power.pmbOp = some .readVout ∧ s.dev.power.pmbRetryAt = none) ∧
    (∃ (s : State) (op : PmbOp) (r : PmbResult), s.dev.power.pmbOp = some op ∧ s.dev.power.pmbRetryAt = none ∧ s.dev.power.pmbLost = false ∧ s.dev.power.pmbFails < 3 ∧ r = .nack ∨ r = .pecError ∨ (r = .busHeld ∧ s.dev.power.pmbOpAt + 25000 ≤ s.dev.now)) ∧
    (∃ (s : State) (op : PmbOp) (r : PmbResult), s.dev.power.pmbOp = some op ∧ s.dev.power.pmbRetryAt = none ∧ s.dev.power.pmbLost = false ∧ 3 ≤ s.dev.power.pmbFails ∧ r = .nack ∨ r = .pecError ∨ (r = .busHeld ∧ s.dev.power.pmbOpAt + 25000 ≤ s.dev.now)) ∧
    (∃ (s : State), s.dev.now < s.dev.power.pmbOpAt + 25000) ∧
    (∃ (s : State), s.dev.power.pmbLost = false ∧ heldFor s.dev.power.pmbRetryAt s.dev.now 0 = true) ∧
    (∃ (s : State), s.dev.power.pmbLost = true ∧ heldFor s.dev.power.pmbRetryAt s.dev.now 0 = true) ∧
    (∃ (s : State) (t : Fin 8), s.dev.tempoBounds.1 ≤ t.1 ∧ t.1 < s.dev.power.tempo ∧ s.dev.covers t.1 = true ∧ heldFor (s.dev.power.covers.get t) s.dev.now (1000000 * s.dev.field Reg.pwrTempoCfg 8 8) = true ∧ ∀ u : Fin 8, s.dev.tempoBounds.1 ≤ u.1 → u < t → s.dev.covers u.1 = false) ∧
    (∃ (s : State), ∀ t : Fin 8, s.dev.tempoBounds.1 ≤ t.1 → t.1 < s.dev.power.tempo → s.dev.covers t.1 = true → heldFor (s.dev.power.covers.get t) s.dev.now (1000000 * s.dev.field Reg.pwrTempoCfg 8 8) = false) ∧
    (∃ (s : State), s.dev.mode ≠ .dormant ∧ s.dev.power.resetHeld = false) ∧
    (∃ (s : State), s.dev.mode = .dormant ∨ s.dev.power.resetHeld = true) :=
  ⟨⟨up (fun d => { d with power := { d.power with tempo := 1, target := 2, voutAt := some 0 }, pacer := { d.pacer with tick := 1000 } }), by decide⟩,
   ⟨up awake, by decide⟩,
   ⟨up (fun d => { d with power := { d.power with pmbOp := some .operationOff } }), .operationOff, by decide⟩,
   ⟨up (fun d => { d with power := { d.power with pmbOp := some .statusWord } }), by decide⟩,
   ⟨up (fun d => { d with power := { d.power with pmbOp := some .readVout, tempo := 1, target := 2, voutAt := some 0 } }), by decide⟩,
   ⟨up (fun d => { d with power := { d.power with pmbOp := some .operationOff, pmbFails := 2 } }), .operationOff, .pecError, by decide⟩,
   ⟨up (fun d => { d with power := { d.power with pmbOp := some .operationOff, pmbFails := 3 } }), .operationOff, .nack, by decide⟩,
   ⟨up awake, by decide⟩,
   ⟨up (fun d => { d with power := { d.power with pmbRetryAt := some 0 } }), by decide⟩,
   ⟨up (fun d => { d with power := { d.power with pmbLost := true, pmbRetryAt := some 0 } }), by decide⟩,
   ⟨up (fun d => awake { (d.setReg Reg.pwrTempoCfg 7) with power := { d.power with tempo := 9, covers := Vector.replicate 8 (some 0) } }), 7, by exact ⟨by decide, by decide, by unfold Dev.covers; simp only [Bool.and_eq_true, decide_eq_true_eq]; exact ⟨⟨by decide +kernel, by decide +kernel⟩, Nat.min_le_left _ _⟩, by decide, by decide⟩⟩,
   ⟨up (fun d => awake { d with power := { d.power with tempo := 1 } }), by decide⟩,
   ⟨up awake, by decide⟩,
   ⟨up (fun d => { d with power := { d.power with resetHeld := true } }), by decide⟩⟩

theorem test_witness_SupplyRules :
    (∃ (s : State), s.dev.mode ≠ .dormant ∧ s.dev.power.resetHeld = false ∧ s.dev.prot.armed = true) ∧
    (∃ (s : State), s.dev.mode = .dormant ∨ s.dev.power.resetHeld = true) ∧
    (∃ (s : State), s.dev.mode ≠ .dormant ∧ s.dev.power.resetHeld = false) ∧
    (∃ (s : State), s.dev.mode = .dormant ∨ s.dev.power.resetHeld = true) ∧
    (∃ (s : State) (v : Nat), s.dev.mode ≠ .dormant ∧ s.dev.power.brace = true ∧ s.dev.power.pfail = false ∧ heldFor s.dev.power.warnAt s.dev.now 10000 = true ∧ (s.dev.power.pfailGone.getD 0) + 10000 ≤ s.dev.now ∧ v + 10000 ≤ s.dev.now) ∧
    (∃ (s : State) (v : Nat), s.dev.power.brace = false ∨ s.dev.power.pfail = true ∨ heldFor s.dev.power.warnAt s.dev.now 10000 = false ∨ s.dev.now < (s.dev.power.pfailGone.getD 0) + 10000 ∨ s.dev.now < v + 10000 ∨ s.dev.mode = .dormant) ∧
    (∃ (s : State), s.dev.mode ≠ .dormant ∧ s.dev.power.resetHeld = false) ∧
    (∃ (s : State), s.dev.mode ≠ .dormant ∧ s.dev.power.resetHeld = true) ∧
    (∃ (s : State), s.dev.mode = .dormant) ∧
    (∃ (s : State), s.dev.power.porAsserted = false ∧ s.dev.power.resetHeld = false) ∧
    (∃ (s : State), s.dev.power.porAsserted = false ∧ s.dev.power.resetHeld = true) ∧
    (∃ (s : State), s.dev.power.porAsserted = true) ∧
    (∃ (s : State), s.dev.power.resetHeld = true ∧ s.dev.power.railLow ≠ [] ∧ s.dev.power.porAsserted = false ∧ s.dev.power.testEn = false ∧ s.dev.upd.record ≠ .swapping) ∧
    (∃ (s : State), s.dev.power.resetHeld = true ∧ s.dev.power.railLow ≠ [] ∧ s.dev.power.porAsserted = false) ∧
    (∃ (s : State), s.dev.power.resetHeld = true ∧ s.dev.power.porAsserted = true) ∧
    (∃ (s : State), s.dev.power.resetHeld = false ∨ s.dev.power.railLow = []) :=
  ⟨⟨up (fun d => awake { d with prot := { d.prot with armed := true } }), by decide⟩,
   ⟨up (fun d => { d with power := { d.power with resetHeld := true } }), by decide⟩,
   ⟨up awake, by decide⟩,
   ⟨up (fun d => { d with power := { d.power with resetHeld := true } }), by decide⟩,
   ⟨up (fun d => awake { d with power := { d.power with brace := true, warnAt := some 0 }, pacer := { d.pacer with tick := 10000 } }), 0, by decide⟩,
   ⟨up awake, 0, by decide⟩,
   ⟨up awake, by decide⟩,
   ⟨up (fun d => { d with power := { d.power with resetHeld := true } }), by decide⟩,
   ⟨up (fun d => { d with power := { d.power with mode := .dormant } }), by decide⟩,
   ⟨up (fun d => awake { d with power := { d.power with porAsserted := false } }), by decide⟩,
   ⟨up (fun d => { d with power := { d.power with porAsserted := false, resetHeld := true } }), by decide⟩,
   ⟨up (fun d => { d with power := { d.power with porAsserted := true } }), by decide⟩,
   ⟨up (fun d => { d with power := { d.power with resetHeld := true, railLow := [.vmr], porAsserted := false } }), by decide⟩,
   ⟨up (fun d => { d with power := { d.power with resetHeld := true, railLow := [.vmr], porAsserted := false } }), by decide⟩,
   ⟨up (fun d => { d with power := { d.power with resetHeld := true, railLow := [.vmr], porAsserted := true } }), by decide⟩,
   ⟨up awake, by decide⟩⟩

theorem test_witness_PortReads :
    (∃ (s : State) (a : Word) (r : RegDecl), s.dev.portServes = true ∧ s.dev.host.pair = none ∧ s.dev.mode ≠ .waking ∧ s.dev.wordAt a.toNat = .reg r ∧ r.kind ≠ .vault ∧ s.dev.host.capture = none ∧ s.shown.poisonWord a.toNat = none) ∧
    (∃ (s : State) (a : Word) (r : RegDecl) (c : Capture) (w : Word) (rest : List Word), s.dev.portServes = true ∧ s.dev.host.pair = none ∧ s.dev.mode ≠ .waking ∧ s.dev.wordAt a.toNat = .reg r ∧ r.kind ≠ .vault ∧ s.dev.host.capture = some c ∧ c.addr = a.toNat ∧ c.words = w :: rest) ∧
    (∃ (s : State) (a : Word) (r : RegDecl), s.dev.portServes = true ∧ s.dev.host.pair = none ∧ s.dev.mode ≠ .waking ∧ s.dev.wordAt a.toNat = .reg r ∧ r.kind ≠ .vault ∧ s.dev.host.capture = none ∧ wideFrom a.toNat = 0 ∧ a.toNat / 0x10000 ≠ 0xE ∧ s.shown.poisonWord a.toNat = none) ∧
    (∃ (s : State), s.dev.portServes = true ∧ s.dev.host.pair = none ∧ s.dev.host.capture = none ∧ s.shown.poisonWord 0 = none) :=
  ⟨⟨up awake, 0x4, ⟨0x4, 1, 4, 1, .ro, 0, 0, [], false, 2⟩, by decide⟩,
   ⟨up (fun d => awake { d with host := { d.host with capture := some { addr := 4, words := [7] } } }), 0x4, ⟨0x4, 1, 4, 1, .ro, 0, 0, [], false, 2⟩, { addr := 4, words := [7] }, 7, [], by decide⟩,
   ⟨up awake, 0x4, ⟨0x4, 1, 4, 1, .ro, 0, 0, [], false, 2⟩, by decide⟩,
   ⟨up awake, by decide⟩⟩

theorem test_witness_PortWrites :
    (∃ (s : State) (a : Word) (w : Word) (r : RegDecl), s.dev.portServes = true ∧ s.dev.host.pair = none ∧ s.dev.mode ≠ .waking ∧ s.dev.wordAt a.toNat = .reg r ∧ r.kind = .rw ∧ s.dev.writeViolation a.toNat w r = none ∧ a.toNat < 0x1000000 ∧ a.toNat ∉ [Reg.hptStallMax, Reg.secWaitMax, Reg.alcHostLimit] ∧ ¬(Reg.tagSvcMbxData 0 ≤ a.toNat ∧ a.toNat < Reg.tagSvcMbxData 64) ∧ s.dev.busyBuffer a.toNat = false) ∧
    (∃ (s : State) (a : Word) (w : Word) (x : Word) (r : RegDecl), s.dev.portServes = true ∧ s.dev.host.pair = none ∧ s.dev.mode ≠ .waking ∧ s.dev.wordAt a.toNat = .reg r ∧ r.kind = .rw ∧ s.dev.writeViolation a.toNat w r = none ∧ s.dev.writeViolation a.toNat x r = none ∧ a.toNat < 0x1000000 ∧ a.toNat / 0x10000 ∉ [0x3, 0x5, 0x9, 0xC, 0xE]) ∧
    (∃ (s : State) (o : Byte), knownOpcode o = false ∧ s.dev.portServes = true ∧ s.dev.host.pair = none ∧ s.dev.mode ≠ .waking ∧ s.dev.host.errArmed = true) ∧
    (∃ (s : State) (o : Byte), s.dev.host.run = none ∧ s.dev.portServes = true ∧ s.dev.host.pair = none ∧ s.dev.mode ≠ .waking ∧ knownOpcode o = true) ∧
    (∃ (s : State) (t : Txn) (n : LinkId) (since : Tick) (write : Bool), s.dev.host.run = some t ∧ t.head = some (n, since, write) ∧ t.words = []) ∧
    (∃ (s : State), s.dev.host.run = none ∧ s.dev.portServes = false) :=
  ⟨⟨up awake, 0x70028, 5, ⟨40, 1, 4, 1, .rw, 32767, 0, [], false, 0⟩, by decide⟩,
   ⟨up awake, 0x70028, 5, 6, ⟨40, 1, 4, 1, .rw, 32767, 0, [], false, 0⟩, by decide⟩,
   ⟨up (fun d => awake { d with host := { d.host with errArmed := true } }), 0x55, by decide⟩,
   ⟨up awake, 0x02, by decide⟩,
   ⟨up (fun d => awake { d with host := { d.host with run := some { Txn.start 2 0 [] 0 false with head := some (7, 5, true) } } }), { Txn.start 2 0 [] 0 false with head := some (7, 5, true) }, 7, 5, true, by decide⟩,
   ⟨State.reset, by decide⟩⟩

theorem test_witness_PortWords :
    (∃ (s : State) (p : OpenPair), s.dev.host.pair = some p ∧ p.since + 1000 < s.dev.now) ∧
    (∃ (s : State) (p : OpenPair), s.dev.host.pair = some p ∧ s.dev.now ≤ p.since + 1000) ∧
    (∃ (s : State) (o : Byte), s.dev.portServes = true ∧ s.dev.mode ≠ .waking ∧ knownOpcode o = true ∧ s.dev.host.pair = none) ∧
    (∃ (s : State) (n : LinkId) (t : Txn) (since : Tick) (write : Bool), s.dev.host.run = some t ∧ t.head = some (n, since, write) ∧ t.words = [] ∧ t.aborted = false ∧ since + 24 ≤ s.dev.now ∧ s.dev.host.errArmed = true) ∧
    (∃ (s : State) (n : LinkId) (t : Txn) (since : Tick) (write : Bool), s.dev.host.run = some t ∧ t.head = some (n, since, write) ∧ s.dev.now < since + 24) ∧
    (∃ (s : State) (a : Word) (w : Word) (r : RegDecl), s.dev.recording = true ∧ s.dev.writable a.toNat w = some r ∧ r.kind = .expert ∧ s.dev.expertOpen a.toNat = true) ∧
    (∃ (s : State) (a : Word) (w : Word) (r : RegDecl), s.dev.recording = true ∧ s.dev.writable a.toNat w = some r ∧ r.kind = .expert ∧ s.dev.expertOpen a.toNat = false) ∧
    (∃ (s : State) (a : Word) (w : Word) (r : RegDecl), s.dev.recording = true ∧ s.dev.writable a.toNat w = some r ∧ r.kind = .rw ∧ a.toNat < 0x1000000 ∧ a.toNat ∉ [Reg.hptStallMax, Reg.secWaitMax, Reg.alcHostLimit] ∧ ¬(Reg.tagSvcMbxData 0 ≤ a.toNat ∧ a.toNat < Reg.tagSvcMbxData 64) ∧ s.dev.busyBuffer a.toNat = false) ∧
    (∃ (s : State) (a : Word) (w : Word) (r : RegDecl), s.dev.recording = true ∧ s.dev.writable a.toNat w = some r ∧ r.kind = .w1c ∧ (s.dev.recorder.setNow.filter fun x => x.1 == a.toNat) = []) ∧
    (∃ (s : State) (a : Word) (r : RegDecl), s.dev.recording = true ∧ s.dev.wordAt a.toNat = .reg r ∧ wideFrom a.toNat ≠ 0) ∧
    (∃ (s : State), s.dev.recording = true) ∧
    (∃ (s : State), s.dev.recording = true) ∧
    (∃ (s : State) (n : LinkId) (a : BitVec 15), s.dev.portServes = true ∧ s.dev.host.pair = none ∧ s.dev.mode ≠ .waking ∧ s.dev.trained n = true ∧ a.toNat % 4 = 0) ∧
    (∃ (s : State) (n : LinkId) (a : BitVec 15), s.dev.portServes = true ∧ s.dev.host.pair = none ∧ s.dev.mode ≠ .waking ∧ s.dev.trained n = false ∧ a.toNat % 4 = 0) :=
  ⟨⟨up (fun d => { d with pacer := { d.pacer with tick := 2000 }, host := { d.host with pair := some ⟨0, 0, 5, false⟩ } }), ⟨0, 0, 5, false⟩, by decide⟩,
   ⟨up (fun d => { d with pacer := { d.pacer with tick := 900 }, host := { d.host with pair := some ⟨0, 0, 5, false⟩ } }), ⟨0, 0, 5, false⟩, by decide⟩,
   ⟨up awake, 0x02, by decide⟩,
   ⟨up (fun d => { d with pacer := { d.pacer with tick := 2000 }, host := { d.host with errArmed := true, run := some { Txn.start 2 0 [] 0 false with head := some (7, 5, true) } } }), 7, { Txn.start 2 0 [] 0 false with head := some (7, 5, true) }, 5, true, by decide⟩,
   ⟨up (fun d => { d with host := { d.host with run := some { Txn.start 2 0 [] 0 false with head := some (7, 5, true) } } }), 7, { Txn.start 2 0 [] 0 false with head := some (7, 5, true) }, 5, true, by decide⟩,
   ⟨up (fun d => awake { d with cfg := { d.cfg with slots := d.cfg.slots.set 0 (some { fn := 1, inst := 0, state := .held, saved := [(0x60020, 0)], since := 0 }) } }), 0x60020, 5, (regRow 0x60020).get (by decide), by decide⟩,
   ⟨up awake, 0x60020, 5, (regRow 0x60020).get (by decide), by decide⟩,
   ⟨up awake, 0x70028, 5, ⟨40, 1, 4, 1, .rw, 32767, 0, [], false, 0⟩, by decide⟩,
   ⟨up awake, 0xE0004, 5, ⟨4, 1, 4, 1, .w1c, 15, 0, [], false, 0⟩, by decide⟩,
   ⟨up awake, 8, ⟨8, 1, 4, 1, .ro, 0, 0, [], false, 0⟩, by decide⟩,
   ⟨up awake, by decide⟩,
   ⟨up awake, by decide⟩,
   ⟨up (fun d => awake (d.onLnk 7 fun l => { l with state := .live })), 7, 8, by decide⟩,
   ⟨up awake, 7, 8, by decide⟩⟩

theorem test_witness_PortErrors :
    (∃ (s : State) (a : Word), s.dev.portServes = true ∧ s.dev.host.pair = none ∧ s.dev.mode ≠ .waking ∧ s.dev.wordAt a.toNat = .misaligned ∨ s.dev.wordAt a.toNat = .reserved) ∧
    (∃ (s : State) (a : Word), s.dev.portServes = true ∧ s.dev.host.pair = none ∧ s.dev.mode ≠ .waking ∧ s.dev.wordAt a.toNat = .misaligned ∨ s.dev.wordAt a.toNat = .reserved) ∧
    (∃ (s : State) (a : Word), s.dev.portServes = true ∧ s.dev.host.pair = none ∧ s.dev.mode ≠ .waking ∧ s.dev.wordAt a.toNat = .barred) ∧
    (∃ (s : State) (a : Word) (r : RegDecl), s.dev.portServes = true ∧ s.dev.host.pair = none ∧ s.dev.mode ≠ .waking ∧ s.dev.wordAt a.toNat = .reg r ∧ r.kind = .vault) ∧
    (∃ (s : State) (a : Word) (w : Word) (r : RegDecl), s.dev.portServes = true ∧ s.dev.host.pair = none ∧ s.dev.mode ≠ .waking ∧ s.dev.wordAt a.toNat = .barred ∧ regRow a.toNat = some r ∧ r.opens w = false) ∧
    (∃ (s : State) (a : Word) (w : Word) (r : RegDecl) (c : Nat), s.dev.portServes = true ∧ s.dev.host.pair = none ∧ s.dev.mode ≠ .waking ∧ s.dev.wordAt a.toNat = .reg r ∧ s.dev.writeViolation a.toNat w r = some c ∧ r.opens w = false) ∧
    (∃ (s : State) (a : Word), s.dev.portServes = true ∧ s.dev.host.pair = none ∧ s.dev.mode ≠ .waking ∧ s.dev.wordAt a.toNat = .ledger) ∧
    (∃ (s : State) (a : Word) (w : Word) (c : Instr), s.dev.portServes = true ∧ s.dev.host.pair = none ∧ s.dev.mode = .waking ∧ c ∈ [.readInc a 0, .readFix a 0, .writeInc a [w], .writeFix a [w]]) ∧
    (∃ (s : State) (a : Word) (k : Byte) (o : Byte) (ws : List Word) (c : Instr), s.dev.portServes = false ∧ c ∈ [.readInc a k, .readFix a k, .writeInc a ws, .writeFix a ws, .readId, .unknownOpcode o]) :=
  ⟨⟨up awake, 0x3, by decide⟩,
   ⟨up awake, 0xF0000, by decide⟩,
   ⟨up awake, 0x4003000, by decide⟩,
   ⟨up awake, 0x58000, (regRow 0x58000).get (by decide), by decide⟩,
   ⟨up awake, 0x4003000, 5, (regRow 0x4003000).get (by decide), by decide⟩,
   ⟨up awake, BitVec.ofNat 32 (Reg.cfgLoadBuf 3), 5, (regRow (Reg.cfgLoadBuf 3)).get (by decide), 5, by decide⟩,
   ⟨up awake, 0x8000000, by decide⟩,
   ⟨up (fun d => { d with power := { d.power with resetHeld := false } }), 8, 5, .readInc 8 0, by decide⟩,
   ⟨State.reset, 8, 0, 0, [], .readInc 8 0, by decide⟩⟩

theorem test_witness_LinkFrames :
    (∃ (s : State) (n : LinkId) (bs : List Block), (s.dev.link n).lnk.state.framed = true ∧ (s.dev.link n).lnk.judged = false ∧ badCtrl bs = 0 ∧ frameValid s.dev.now n.1 bs = true ∧ hasLock (lockBlocks bs (s.dev.link n).lnk.hdrBad) = true) ∧
    (∃ (s : State) (n : LinkId) (bs : List Block), (s.dev.link n).lnk.state.framed = true ∧ (s.dev.link n).lnk.judged = false ∧ frameValid s.dev.now n.1 bs = false) ∧
    (∃ (s : State) (n : LinkId) (a : BitVec 16), (s.dev.link n).lnk.state.framed = true ∧ (s.dev.link n).lnk.alarmSerial = some (BitVec.ofNat 6 a.toNat)) ∧
    (∃ (s : State) (n : LinkId), (s.dev.link n).lnk.state.framed = false ∧ (s.dev.link n).lnk.state ≠ .trainC) ∧
    (∃ (s : State) (n : LinkId) (a : BitVec 16), (s.dev.link n).lnk.state.framed = true ∧ (s.dev.link n).lnk.alarmSerial ≠ some (BitVec.ofNat 6 a.toNat)) ∧
    (∃ (s : State) (n : LinkId), (s.dev.link n).lnk.state = .live ∧ (s.dev.link n).lnk.judged = true ∧ 2 ≤ (s.dev.link n).lnk.badRun) ∧
    (∃ (s : State) (n : LinkId), (s.dev.link n).lnk.judged = true ∧ (s.dev.link n).lnk.badRun < 2) ∧
    (∃ (s : State) (n : LinkId) (r : HeadRequest) (resp : BitVec 2) (tag : BitVec 6) (a : BitVec 15), (s.dev.link n).lnk.state = .confirm ∧ (s.dev.link n).lnk.request = some r ∧ r.fits resp tag a = true ∧ r.purpose = .headId ∨ r.purpose = .headRole ∨ r.purpose = .headFw ∧ resp ≠ 3 ∧ (s.dev.link n).lnk.waiting = []) ∧
    (∃ (s : State) (n : LinkId) (r : HeadRequest) (tag : BitVec 6) (a : BitVec 15), (s.dev.link n).lnk.state = .confirm ∧ (s.dev.link n).lnk.request = some r ∧ r.fits 3 tag a = true ∧ r.purpose = .headId ∨ r.purpose = .headRole ∨ r.purpose = .headFw) ∧
    (∃ (s : State) (n : LinkId) (resp : BitVec 2) (tag : BitVec 6) (a : BitVec 15), (s.dev.link n).lnk.request = none ∨ ((s.dev.link n).lnk.request.map fun r => r.fits resp tag a) = some false) ∧
    (∃ (s : State) (n : LinkId) (r : HeadRequest), (s.dev.link n).lnk.request = some r ∧ s.dev.now < r.since + 8 ∨ r.repeated = true) ∧
    (∃ (s : State) (n : LinkId) (r : HeadRequest) (resp : BitVec 2) (tag : BitVec 6) (a : BitVec 15), s.dev.trained n = true ∧ (s.dev.link n).lnk.request = some r ∧ r.fits resp tag a = true ∧ r.purpose = .headCaps ∧ resp ≠ 3 ∧ (s.dev.link n).lnk.waiting = []) ∧
    (∃ (s : State) (n : LinkId) (r : HeadRequest), (s.dev.link n).lnk.request = some r ∧ r.since + 8 ≤ s.dev.now ∧ r.repeated = false) :=
  ⟨⟨up (fun d => awake (d.onLnk 7 fun l => { l with state := .live })), 7, goodBlocks, by refine ⟨by decide, by decide, ?_, ?_, ?_⟩ <;> decide +kernel⟩,
   ⟨up (fun d => awake (d.onLnk 7 fun l => { l with state := .live })), 7, [], by decide⟩,
   ⟨up (fun d => awake (d.onLnk 7 fun l => { l with state := .live, alarmSerial := some 5 })), 7, 5, by decide⟩,
   ⟨up awake, 7, by decide⟩,
   ⟨up (fun d => awake (d.onLnk 7 fun l => { l with state := .live })), 7, 5, by decide⟩,
   ⟨up (fun d => awake (d.onLnk 7 fun l => { l with state := .live, judged := true, badRun := 2 })), 7, by decide⟩,
   ⟨up (fun d => awake (d.onLnk 7 fun l => { l with state := .live, judged := true, badRun := 1 })), 7, by decide⟩,
   ⟨up (fun d => awake (d.onLnk 7 fun l => { l with state := .confirm, request := some ⟨.headId, 12, none, 3, 0, false, false⟩ })), 7, ⟨.headId, 12, none, 3, 0, false, false⟩, 1, 3, 12, by decide⟩,
   ⟨up (fun d => awake (d.onLnk 7 fun l => { l with state := .confirm, request := some ⟨.headId, 12, none, 3, 0, false, false⟩ })), 7, ⟨.headId, 12, none, 3, 0, false, false⟩, 3, 12, by decide⟩,
   ⟨up awake, 7, 1, 3, 12, by decide⟩,
   ⟨up (fun d => d.onLnk 7 fun l => { l with request := some ⟨.headCaps, 12, none, 3, 0, false, false⟩ }), 7, ⟨.headCaps, 12, none, 3, 0, false, false⟩, by decide⟩,
   ⟨up (fun d => awake (d.onLnk 7 fun l => { l with state := .live, request := some ⟨.headCaps, 12, none, 3, 0, false, false⟩ })), 7, ⟨.headCaps, 12, none, 3, 0, false, false⟩, 1, 3, 12, by decide⟩,
   ⟨up (fun d => { (d.onLnk 7 fun l => { l with request := some ⟨.headCaps, 12, none, 3, 0, false, false⟩ }) with pacer := { d.pacer with tick := 9 } }), 7, ⟨.headCaps, 12, none, 3, 0, false, false⟩, by decide⟩⟩

theorem test_witness_LinkTraining :
    (∃ (s : State) (n : LinkId), s.dev.mayTrain n = true ∧ (s.dev.link n).lnk.state = .off ∨ (s.dev.link n).lnk.state = .lost ∧ s.dev.trainDue n = true) ∧
    (∃ (s : State) (n : LinkId), s.dev.mayTrain n = true ∧ (s.dev.link n).lnk.state = .off ∧ (s.dev.link n).lnk.retryAt.isSome = true ∧ s.dev.trainDue n = true) ∧
    (∃ (s : State) (n : LinkId), (s.dev.link n).lnk.state = .trainA ∧ s.dev.now ≤ (s.dev.link n).lnk.trainAt + 50000) ∧
    (∃ (s : State) (n : LinkId) (m : BitVec 16), (s.dev.link n).lnk.state = .trainB ∧ s.dev.now ≤ (s.dev.link n).lnk.trainAt + 100000 ∧ m.toNat = (s.dev.link n).lnk.echoes + 1) ∧
    (∃ (s : State) (n : LinkId) (i : Word) (r : Word) (f : Word), (s.dev.link n).lnk.state = .confirm ∧ (s.dev.link n).lnk.idReads = [i, r, f] ∧ 16 ≤ (s.dev.link n).lnk.goodRun ∧ s.dev.now ≤ (s.dev.link n).lnk.trainAt + 200000) ∧
    (∃ (s : State) (n : LinkId), (s.dev.link n).lnk.state ≠ .trainC ∧ (s.dev.link n).lnk.state ≠ .confirm ∨ (s.dev.link n).lnk.goodRun < 16 ∨ (s.dev.link n).lnk.idReads.length ≠ 3 ∨ (s.dev.link n).lnk.trainAt + 200000 < s.dev.now) ∧
    (∃ (s : State) (n : LinkId), s.dev.mayTrain n = false ∨ s.dev.trainDue n = false) ∧
    (∃ (s : State) (n : LinkId), s.dev.mayTrain n = false ∨ s.dev.trainDue n = false) ∧
    (∃ (s : State) (n : LinkId), (s.dev.link n).lnk.state ≠ .trainA ∨ (s.dev.link n).lnk.trainAt + 50000 < s.dev.now) ∧
    (∃ (s : State) (n : LinkId) (m : BitVec 16), (s.dev.link n).lnk.state ≠ .trainB ∨ (s.dev.link n).lnk.trainAt + 100000 < s.dev.now ∨ m.toNat ≠ (s.dev.link n).lnk.echoes + 1) ∧
    (∃ (s : State) (n : LinkId) (b : Nat), ((s.dev.enterConfirm n).link n).lnk.state.bound = some b ∧ (s.dev.link n).lnk.trainAt + 1000 * b < s.dev.now) ∧
    (∃ (s : State) (n : LinkId), s.dev.recording = true ∧ s.dev.mayTrain n = true ∧ s.dev.role n = .site ∧ (s.dev.link n).cmd.close = 0 ∧ (s.dev.link n).hs.fb = 0) ∧
    (∃ (s : State) (n : LinkId), s.dev.recording = true ∧ s.dev.mayTrain n = true ∧ (s.dev.link n).hs.fb ≠ 0) :=
  ⟨⟨up (fun d => awake ({ (d.setReg (Reg.lnkCfg 7) 1).onPower (fun p => { p with bringup := .done }) with fresh := 0 })), 7, by decide⟩,
   ⟨up (fun d => awake ({ ((d.setReg (Reg.lnkCfg 7) 1).onPower (fun p => { p with bringup := .done })).onLnk 7 (fun l => { l with retryAt := some 0 }) with fresh := 0 })), 7, by decide⟩,
   ⟨up (fun d => d.onLnk 7 fun l => { l with state := .trainA }), 7, by decide⟩,
   ⟨up (fun d => d.onLnk 7 fun l => { l with state := .trainB }), 7, 1, by decide⟩,
   ⟨up (fun d => d.onLnk 7 fun l => { l with state := .confirm, goodRun := 16, idReads := [1, 2, 3] }), 7, 1, 2, 3, by decide⟩,
   ⟨up awake, 7, by decide⟩,
   ⟨up awake, 7, by decide⟩,
   ⟨up awake, 7, by decide⟩,
   ⟨up awake, 7, by decide⟩,
   ⟨up awake, 7, 1, by decide⟩,
   ⟨up (fun d => { (d.onLnk 7 fun l => { l with state := .trainA }) with pacer := { d.pacer with tick := 60000 } }), 7, 50, by decide⟩,
   ⟨up (fun d => awake ({ ((d.setReg (Reg.lnkCfg 7) 3).onLnk 7 (fun l => { l with judged := false })).onPower (fun p => { p with bringup := .done }) with fresh := 0 })), 7, by decide⟩,
   ⟨up (fun d => awake ({ ((d.setReg (Reg.lnkCfg 7) 3).onLink 7 (fun l => { l with hs := { l.hs with fb := 1 } })).onPower (fun p => { p with bringup := .done }) with fresh := 0 })), 7, by decide⟩⟩

theorem test_witness_MetrologyRules :
    (∃ (s : State) (n : LinkId) (ch : Fin 8), s.dev.lapDue = false ∧ ocChannel (s.dev.role n) ch.1 = true ∧ s.dev.ocLim n ≠ 0 ∧ ((s.dev.link n).met.chans.get ch).ocDone = false ∧ s.dev.ocCount n ≤ ((s.dev.link n).met.chans.get ch).ocRun ∧ 0 < ((s.dev.link n).met.chans.get ch).ocRun) ∧
    (∃ (s : State) (n : LinkId) (ch : Fin 8), s.dev.lapDue = false ∧ s.dev.ocLim n = 0 ∨ ((s.dev.link n).met.chans.get ch).ocDone = true ∨ ((s.dev.link n).met.chans.get ch).ocRun < s.dev.ocCount n) ∧
    (∃ (s : State) (n : LinkId), s.dev.lapDue = false ∧ s.dev.role n = .outlet ∧ (s.dev.link n).met.senseOpen = false ∧ heldFor (s.dev.link n).met.senseSince s.dev.now (1000 * s.dev.settingField (Reg.metXSense n) 16 16) = true ∧ (s.dev.link n).veh.live = false) ∧
    (∃ (s : State) (n : LinkId), s.dev.lapDue = false ∧ (s.dev.link n).met.senseOpen = true ∨ heldFor (s.dev.link n).met.senseSince s.dev.now (1000 * s.dev.settingField (Reg.metXSense n) 16 16) = false) ∧
    (∃ (s : State) (n : LinkId), s.dev.lapDue = false ∧ s.dev.role n = .outlet ∧ (s.dev.link n).met.senseOpen = false ∧ heldFor (s.dev.link n).met.senseSince s.dev.now (1000 * s.dev.settingField (Reg.metXSense n) 16 16) = true ∧ (s.dev.link n).veh.live = true ∧ (s.dev.link n).veh.stopWhy = .none) ∧
    (∃ (s : State) (n : LinkId), (s.dev.link n).met.senseOpen = true ∧ heldFor (s.dev.link n).met.senseGood s.dev.now 1000000 = true) ∧
    (∃ (s : State) (n : LinkId), (s.dev.link n).met.senseOpen = false ∨ heldFor (s.dev.link n).met.senseGood s.dev.now 1000000 = false) ∧
    (∃ (s : State) (k : Fin 2), 0 < (s.dev.tpo.get k).backlog ∧ (s.dev.tpo.get k).active = false ∧ ((s.dev.tpo.get k).start.map fun x => decide (x + 500 ≤ s.dev.now)).getD true = true ∧ s.dev.tpoRuns k = true) ∧
    (∃ (s : State) (k : Fin 2), (s.dev.tpo.get k).backlog = 0 ∨ (s.dev.tpo.get k).active = true ∨ s.dev.tpoRuns k = false ∨ ((s.dev.tpo.get k).start.map fun x => decide (x + 500 ≤ s.dev.now)) = some false) ∧
    (∃ (s : State) (k : Fin 2), (s.dev.tpo.get k).active = false ∨ ((s.dev.tpo.get k).start.map fun x => decide (x + 250 ≤ s.dev.now)) = some false) ∧
    (∃ (s : State) (k : Fin 2), (s.dev.tpo.get k).active = true ∧ ((s.dev.tpo.get k).start.map fun x => decide (x + 250 ≤ s.dev.now)).getD true = true) ∧
    (∃ (s : State) (k : Fin 4) (v : Bool), (s.dev.s0.get k).level ≠ v ∧ s.dev.recording = true ∧ s.dev.s0Active k = false) ∧
    (∃ (s : State) (k : Fin 4) (v : Bool), (s.dev.s0.get k).level ≠ v ∧ s.dev.recording = true ∧ s.dev.s0Active k = true ∧ (s.dev.s0.get k).judged = false ∧ bitOf (s.dev.s0Cfg k) 31 = true) ∧
    (∃ (s : State) (k : Fin 4) (v : Bool), (s.dev.s0.get k).level = v ∨ s.dev.recording = false) ∧
    (∃ (s : State) (k : Fin 4) (x : Tick), s.dev.recording = true ∧ bitOf (s.dev.s0Cfg k) 31 = true ∧ s.dev.s0Active k = true ∧ (s.dev.s0.get k).judged = false ∧ (s.dev.s0.get k).since + 30000 ≤ s.dev.now ∧ (s.dev.s0.get k).lastPulse = some x ∧ s.dev.now < x + 62500) ∧
    (∃ (s : State) (k : Fin 4), s.dev.recording = false ∨ bitOf (s.dev.s0Cfg k) 31 = false ∨ s.dev.s0Active k = false ∨ (s.dev.s0.get k).judged = true ∨ s.dev.now < (s.dev.s0.get k).since + 30000) ∧
    (∃ (s : State) (k : Fin 4), s.dev.recording = false ∨ bitOf (s.dev.s0Cfg k) 31 = false ∨ s.dev.s0Active k = false ∨ (s.dev.s0.get k).stuck = true ∨ s.dev.now ≤ (s.dev.s0.get k).since + 1000 * (10 * fieldOf (s.dev.s0Cfg k) 16 14)) ∧
    (∃ (s : State) (k : Fin 4), (s.dev.s0.get k).stuck = false ∨ s.dev.s0Active k = true ∨ s.dev.now < (s.dev.s0.get k).since + 30000) ∧
    (∃ (s : State) (k : Fin 4), s.dev.recording = true ∧ bitOf (s.dev.s0Cfg k) 31 = true ∧ s.dev.s0Active k = true ∧ (s.dev.s0.get k).judged = false ∧ (s.dev.s0.get k).since + 30000 ≤ s.dev.now ∧ ((s.dev.s0.get k).lastPulse.map fun t => decide (t + 62500 ≤ s.dev.now)).getD true = true) ∧
    (∃ (s : State) (k : Fin 4), s.dev.recording = true ∧ bitOf (s.dev.s0Cfg k) 31 = true ∧ s.dev.s0Active k = true ∧ (s.dev.s0.get k).stuck = false ∧ (s.dev.s0.get k).since + 1000 * (10 * fieldOf (s.dev.s0Cfg k) 16 14) < s.dev.now) ∧
    (∃ (s : State) (k : Fin 4), (s.dev.s0.get k).stuck = true ∧ s.dev.s0Active k = false ∧ (s.dev.s0.get k).since + 30000 ≤ s.dev.now) :=
  ⟨⟨up (fun d => awake (((d.setReg (Reg.lnkCfg 7) 1).setReg (Reg.metXOc 7) 0x10064).onMet 7 fun m => { m with chans := m.chans.set 1 { m.chans.get 1 with ocRun := 70000, ocDone := false } })), 7, 1, by decide⟩,
   ⟨up awake, 7, 1, by decide⟩,
   ⟨up (fun d => awake { ((d.setReg (Reg.lnkCfg 7) 1).onMet 7 fun m => { m with senseOpen := false, senseSince := some 0 }) with pacer := { d.pacer with tick := 100000000 } }), 7, by decide⟩,
   ⟨up awake, 7, by decide⟩,
   ⟨up (fun d => awake { ((d.setReg (Reg.lnkCfg 7) 1).onMet 7 fun m => { m with senseOpen := false, senseSince := some 0 }).onVeh 7 (fun v => { v with live := true, closedOnce := true, openCmd := false, state := .energy }) with pacer := { d.pacer with tick := 100000000 } }), 7, by decide⟩,
   ⟨up (fun d => { (d.onMet 7 fun m => { m with senseOpen := true, senseGood := some 0 }) with pacer := { d.pacer with tick := 1000000 } }), 7, by decide⟩,
   ⟨up awake, 7, by decide⟩,
   ⟨up (fun d => awake ((((d.setReg (tpoReg 0) 0x80700064).onTpo 0 fun t => { t with backlog := 1 })).onMet 7 fun m => { m with fast := true })), 0, by decide⟩,
   ⟨up awake, 0, by decide⟩,
   ⟨up awake, 0, by decide⟩,
   ⟨up (fun d => awake (d.onTpo 0 fun t => { t with active := true })), 0, by decide⟩,
   ⟨up (fun d => awake (d.setReg (Reg.lioS0X 0) 0x40000000)), 0, true, by decide⟩,
   ⟨up (fun d => awake (d.setReg (Reg.lioS0X 0) 0x80000000)), 0, true, by decide⟩,
   ⟨up awake, 0, false, by decide⟩,
   ⟨up (fun d => awake { ((d.setReg (Reg.lioS0X 0) 0x80000000).onS0 0 fun x => { x with lastPulse := some 5 }) with pacer := { d.pacer with tick := 30000 } }), 0, 5, by decide⟩,
   ⟨up awake, 0, by decide⟩,
   ⟨up awake, 0, by decide⟩,
   ⟨up awake, 0, by decide⟩,
   ⟨up (fun d => awake { (d.setReg (Reg.lioS0X 0) 0x80000000) with pacer := { d.pacer with tick := 30000 } }), 0, by decide⟩,
   ⟨up (fun d => awake { (d.setReg (Reg.lioS0X 0) 0x80000000) with pacer := { d.pacer with tick := 30000 } }), 0, by decide⟩,
   ⟨up (fun d => awake { ((d.setReg (Reg.lioS0X 0) 0x40000000).onS0 0 (fun x => { x with stuck := true })) with pacer := { d.pacer with tick := 30000 } }), 0, by decide⟩⟩

theorem test_witness_BillingRules :
    (∃ (s : State) (n : LinkId), s.dev.role n = .outlet ∨ s.dev.role n = .site ∧ s.dev.mdBoundary false = true ∧ (s.dev.link n).bill.fixed.startTick ≠ s.dev.now) ∧
    (∃ (s : State) (n : LinkId), s.dev.role n = .outlet ∨ s.dev.role n = .site ∧ s.dev.mdBoundary true = true ∧ (s.dev.link n).bill.sliding.startTick ≠ s.dev.now) ∧
    (∃ (s : State) (k : Bool), s.dev.mdBoundary k = false) ∧
    (∃ (s : State), s.dev.lapDue = false ∧ s.dev.bill.sealState ≠ .closed) ∧
    (∃ (s : State), s.dev.lapDue = false ∧ s.dev.bill.sealState = .closed) ∧
    (∃ (s : State), s.dev.bill.sealA ≠ s.dev.bill.sealB ∨ s.dev.now ≤ s.dev.bill.sealSince + 100000) ∧
    (∃ (s : State), s.dev.lapDue = false ∧ s.dev.bill.sealA = s.dev.bill.sealB ∧ s.dev.bill.sealSince + 100000 < s.dev.now ∧ s.dev.bill.sealState = .closed) ∧
    (∃ (s : State) (t : TenantId) (k : Fin 16) (h : HoldSlot), s.dev.lapDue = false ∧ (s.dev.tenant t).held = true ∧ (s.dev.tenant t).heldAt + 60000000 * s.dev.field (Reg.bilTCfg t) 16 11 ≤ s.dev.now ∧ s.dev.pacer.lastBoundary = some s.dev.now ∧ s.dev.slotFor 2 (BitVec.ofNat 10 t.1) = some k ∧ s.dev.cfg.slots.get k = some h ∧ h.state = .held) ∧
    (∃ (s : State) (t : TenantId), s.dev.lapDue = false ∧ s.dev.holdExpired t = false ∨ s.dev.pacer.lastBoundary ≠ some s.dev.now) ∧
    (∃ (s : State), s.dev.bill.records.find? (fun r => !r.signed) = none) ∧
    (∃ (s : State) (r : QueuedRecord), s.dev.bill.records.find? (fun r => !r.signed) = some r ∧ s.dev.resultReady (.sign r.seq) = true) ∧
    (∃ (s : State), s.dev.recording = true) :=
  ⟨⟨up (fun d => awake { ((d.setReg (Reg.lnkCfg 7) 1).setReg Reg.bilCfg 0xF00).onBill 7 (fun b => { b with fixed := { b.fixed with startTick := 1 } }) with pacer := { d.pacer with calSet := true, cal := 3599, secNext := d.pacer.tick } }), 7, by decide⟩,
   ⟨up (fun d => awake { ((d.setReg (Reg.lnkCfg 7) 1).setReg Reg.bilCfg 0x19F00).onBill 7 (fun b => { b with sliding := { b.sliding with startTick := 1 } }) with pacer := { d.pacer with calSet := true, cal := 3599, secNext := d.pacer.tick } }), 7, by decide⟩,
   ⟨up awake, true, by decide⟩,
   ⟨up (fun d => { d with bill := { d.bill with sealState := .opened } }), by decide⟩,
   ⟨up id, by decide⟩,
   ⟨up id, by decide⟩,
   ⟨up (fun d => { d with bill := { d.bill with sealA := true, sealB := true }, pacer := { d.pacer with tick := 200000 } }), by decide⟩,
   ⟨up (fun d => awake { ((d.setReg (Reg.bilTCfg 3) 0).onTenant 3 fun t => { t with held := true, heldAt := 0 }) with cfg := { d.cfg with slots := d.cfg.slots.set 0 (some { fn := 2, inst := 3, state := .held, saved := [], since := 0 }) }, pacer := { d.pacer with tick := 600000000, lapRunning := true, lastBoundary := some 600000000, lapStart := 600000000 } }), 3, 0, { fn := 2, inst := 3, state := .held, saved := [], since := 0 }, by decide⟩,
   ⟨up awake, 3, by decide⟩,
   ⟨up awake, by decide⟩,
   ⟨up (fun d => { d with bill := { d.bill with records := [⟨4, 1, none, 0, [], false, false⟩] }, sec := { d.sec with dues := [⟨.sign 4, 0, 0, false⟩] } }), ⟨4, 1, none, 0, [], false, false⟩, by decide⟩,
   ⟨up awake, by decide⟩⟩

theorem test_witness_TicksAndLaps :
    (∃ (s : State), s.dev.ticking = true) ∧
    (∃ (s : State), s.dev.ticking = false) ∧
    (∃ (s : State), s.dev.ticking = true ∧ isSamplePoint s.dev.now = true ∧ s.dev.pacer.sampledAt ≠ some s.dev.now) ∧
    (∃ (s : State), isSamplePoint s.dev.now = false ∨ s.dev.pacer.sampledAt = some s.dev.now) ∧
    (∃ (s : State), s.dev.ticking = true ∧ s.dev.now % 100000 = 0 ∧ 0 < s.dev.now ∧ s.dev.pacer.plannedAt ≠ some s.dev.now) ∧
    (∃ (s : State), s.dev.now % 100000 ≠ 0 ∨ s.dev.now = 0 ∨ s.dev.pacer.plannedAt = some s.dev.now) ∧
    (∃ (s : State), s.dev.lapDue = false) ∧
    (∃ (s : State), s.dev.ticking = true ∧ s.dev.atBoundary = true) :=
  ⟨⟨up awake, by decide⟩,
   ⟨State.reset, by decide⟩,
   ⟨up (fun d => awake { d with pacer := { d.pacer with tick := 31 } }), by decide⟩,
   ⟨up awake, by decide⟩,
   ⟨up (fun d => awake { d with pacer := { d.pacer with tick := 300000 } }), by decide⟩,
   ⟨up awake, by decide⟩,
   ⟨up awake, by decide⟩,
   ⟨up (fun d => awake { d with pacer := { d.pacer with tick := 900000000, lapStart := 0, lapRunning := true, lapEndAt := some 900000000 } }), by decide⟩⟩

theorem test_witness_DueLapFirst :
    (∃ (n : LinkId) (ch : Fin 8) (k : Fin 16) (t : TenantId) (c : Instr), c ∈ [.lapBoundary, .overcurrentDecision n ch, .senseOpen n, .tariffHoldExpiry t, .holdTakesEffect k, .resumeTakesEffect k]) :=
  ⟨7, 1, 2, 3, .senseOpen 7, by decide⟩

theorem test_witness_BudgetRules :
    (∃ (s : State) (n : LinkId), (s.dev.link n).out.pending ≠ 0 ∧ (s.dev.link n).out.stopDone = false ∧ isSamplePoint s.dev.now = true ∧ s.dev.powerWithin n = true ∧ s.dev.halted = false) ∧
    (∃ (s : State) (n : LinkId), (s.dev.link n).out.pending ≠ 0 ∧ (s.dev.link n).out.stopDone = false ∧ s.dev.halted = false ∧ (s.dev.link n).out.cutAt + 1000 * s.dev.reduceMs ≤ s.dev.now ∧ (s.dev.link n).veh.live = true ∧ (s.dev.link n).veh.stopWhy = .none) ∧
    (∃ (s : State) (n : LinkId), (s.dev.link n).out.pending = 0 ∨ (s.dev.link n).out.stopDone = true ∨ isSamplePoint s.dev.now = false ∨ s.dev.powerWithin n = false ∨ s.dev.halted = true) ∧
    (∃ (s : State) (n : LinkId), (s.dev.link n).out.pending = 0 ∨ (s.dev.link n).out.stopDone = true ∨ s.dev.halted = true ∨ s.dev.now < (s.dev.link n).out.cutAt + 1000 * s.dev.reduceMs) ∧
    (∃ (s : State) (w : Word), s.dev.recording = true ∧ (s.dev.setReg Reg.alcHostLimit (BitVec.ofNat 32 (fieldOf w 0 16))).budgetTerm = s.dev.alloc.inForce) ∧
    (∃ (s : State), s.dev.recording = false) ∧
    (∃ (s : State) (w : Word), s.dev.recording = true ∧ s.dev.alloc.inForce < (s.dev.setReg Reg.alcHostLimit (BitVec.ofNat 32 (fieldOf w 0 16))).budgetTerm) ∧
    (∃ (s : State) (w : Word), s.dev.recording = true ∧ (s.dev.setReg Reg.alcHostLimit (BitVec.ofNat 32 (fieldOf w 0 16))).budgetTerm < s.dev.alloc.inForce) ∧
    (∃ (s : State) (l : UtilLimit), s.dev.alloc.waiting = some l ∧ s.dev.pacer.calSet = true ∧ l.start ≤ s.dev.pacer.cal) ∧
    (∃ (s : State), ∀ l, s.dev.alloc.waiting = some l → s.dev.pacer.calSet = true → s.dev.pacer.cal < l.start) ∧
    (∃ (s : State), ∀ l, s.dev.alloc.limit = some l → s.dev.pacer.calSet = true → s.dev.pacer.cal < l.expiry) ∧
    (∃ (s : State), ∀ b, s.dev.alloc.target = some b → b < s.dev.granted + s.dev.pending) ∧
    (∃ (s : State) (l : UtilLimit), s.dev.alloc.limit = some l ∧ s.dev.pacer.calSet = true ∧ l.expiry ≤ s.dev.pacer.cal) ∧
    (∃ (s : State) (b : Nat), s.dev.alloc.target = some b ∧ s.dev.granted + s.dev.pending ≤ b) :=
  ⟨⟨up (fun d => awake { (d.onOut 7 fun o => { o with pending := 5, grant := 10 }) with pacer := { d.pacer with tick := 31 } }), 7, by decide⟩,
   ⟨up (fun d => awake { ((d.setReg (Reg.lnkCfg 7) 1).onOut 7 fun o => { o with pending := 5 }).onVeh 7 (fun v => { v with live := true, closedOnce := true, openCmd := false, state := .energy }) with pacer := { d.pacer with tick := 100000000 } }), 7, by decide⟩,
   ⟨up awake, 7, by decide⟩,
   ⟨up awake, 7, by decide⟩,
   ⟨up (fun d => awake d), 90, by decide⟩,
   ⟨State.reset, by decide⟩,
   ⟨up (fun d => awake { (d.setReg Reg.alcXBudget 0x640064) with alloc := { d.alloc with inForce := 3 } }), 90, by decide⟩,
   ⟨up (fun d => awake { d with alloc := { d.alloc with inForce := 100000 } }), 90, by decide⟩,
   ⟨up (fun d => awake { d with alloc := { d.alloc with waiting := some { kw := 4, start := 5, expiry := 6 } }, pacer := { d.pacer with calSet := true, cal := 5 } }), { kw := 4, start := 5, expiry := 6 }, by decide⟩,
   ⟨up awake, by decide⟩,
   ⟨up awake, by decide⟩,
   ⟨up awake, by decide⟩,
   ⟨up (fun d => awake { d with alloc := { d.alloc with limit := some { kw := 4, start := 5, expiry := 6 } }, pacer := { d.pacer with calSet := true, cal := 6 } }), { kw := 4, start := 5, expiry := 6 }, by decide⟩,
   ⟨up (fun d => awake { d with alloc := { d.alloc with target := some 7 } }), 7, by decide +kernel⟩⟩

theorem test_witness_GroupRules :
    (∃ (s : State) (g : LinkId), s.dev.role g ≠ .power ∨ s.dev.trained g = false ∨ bitOf (s.dev.link g).hs.b39 29 = true ∨ (s.dev.link g).group.gmode2Since = none) ∧
    (∃ (s : State) (g : LinkId), (s.dev.link g).group.breakAt = none) ∧
    (∃ (s : State) (g : LinkId), (s.dev.link g).group.state ≠ .withdrawn ∨ heldFor (s.dev.link g).group.clearSince s.dev.now 10000000 = false ∨ (s.dev.link g).prot.latch.isSome = true) ∧
    (∃ (s : State) (g : LinkId), s.dev.role g ≠ .power ∨ (s.dev.link g).group.state ≠ .free ∨ (s.dev.link g).group.assign.isSome = true ∨ s.dev.now < (s.dev.link g).group.idleSince + 1000000 * s.dev.field Reg.alcCfg2 16 16) ∧
    (∃ (s : State) (g : LinkId) (c : Instr), (s.dev.link g).group.assign = none ∧ c ∈ [.assignDischarged g, .assignOwned g]) ∧
    (∃ (s : State) (g : LinkId) (c : Instr), (s.dev.link g).group.release = none ∧ c ∈ [.releaseCurrentLow g, .releaseDischarged g, .releaseFreed g]) ∧
    (∃ (s : State) (g : LinkId), heldFor (s.dev.link g).group.deadSince s.dev.now 5000 = false ∨ s.dev.warned = true) ∧
    (∃ (s : State) (g : LinkId) (o : LinkId) (k : Fin 16) (a : Tick), (s.dev.link g).group.assign = some (o, k, .closing, a) ∧ s.dev.fb g k.1 = false) ∧
    (∃ (s : State) (g : LinkId) (a : Tick), (s.dev.link g).group.release = some (.rampDown, a) ∧ heldFor (s.dev.link g).group.lowSince s.dev.now 10000 = false ∧ s.dev.now < a + 1000 * s.dev.rampMs) ∧
    (∃ (s : State) (g : LinkId), (s.dev.link g).group.deadSince = none ∨ s.dev.meanAtMost g 1 s.dev.releaseA = false) ∧
    (∃ (s : State) (g : LinkId), (s.dev.link g).hs.fb ≠ 0) ∧
    (∃ (s : State) (g : LinkId) (t : Tick), s.dev.role g = .power ∧ s.dev.trained g = true ∧ bitOf (s.dev.link g).hs.b39 29 = false ∧ (s.dev.link g).group.gmode2Since = some t ∧ t + 100000 < s.dev.now ∧ (s.dev.link g).group.state ≠ .withdrawn ∧ s.dev.slotOf g = none ∧ (s.dev.link g).group.owner = none) ∧
    (∃ (s : State) (g : LinkId) (t : Tick), (s.dev.link g).group.breakAt = some t ∧ isSamplePoint s.dev.now = true ∧ s.dev.meanAtMost g 1 s.dev.releaseA = true) ∧
    (∃ (s : State) (g : LinkId) (t : Tick), (s.dev.link g).group.breakAt = some t ∧ isSamplePoint s.dev.now = false ∧ t + 1000 * s.dev.rampMs ≤ s.dev.now ∧ (s.dev.link g).cmd.close ≠ 0) ∧
    (∃ (s : State) (g : LinkId) (t : Tick), (s.dev.link g).group.state = .withdrawn ∧ (s.dev.link g).group.clearSince = some t ∧ t + 10000000 ≤ s.dev.now ∧ (s.dev.link g).prot.latch = none) ∧
    (∃ (s : State) (g : LinkId), s.dev.role g = .power ∧ (s.dev.link g).group.state = .free ∧ (s.dev.link g).group.assign = none ∧ (s.dev.link g).group.idleSince + 1000000 * s.dev.field Reg.alcCfg2 16 16 ≤ s.dev.now) ∧
    (∃ (s : State) (g : LinkId) (o : LinkId) (k : Fin 16) (a : Tick) (t : Tick), (s.dev.link g).group.assign = some (o, k, .discharge, a) ∧ (s.dev.link g).group.deadSince = some t ∧ t + 5000 ≤ s.dev.now ∧ s.dev.warned = false) ∧
    (∃ (s : State) (g : LinkId) (o : LinkId) (k : Fin 16) (a : Tick), (s.dev.link g).group.assign = some (o, k, .closing, a) ∧ s.dev.fb g k.1 = true) ∧
    (∃ (s : State) (g : LinkId) (a : Tick) (t : Tick), (s.dev.link g).group.release = some (.rampDown, a) ∧ (s.dev.link g).group.lowSince = some t ∧ t + 10000 ≤ s.dev.now) ∧
    (∃ (s : State) (g : LinkId) (a : Tick), (s.dev.link g).group.release = some (.rampDown, a) ∧ (s.dev.link g).group.lowSince = none ∧ a + 1000 * s.dev.rampMs ≤ s.dev.now) ∧
    (∃ (s : State) (g : LinkId) (a : Tick) (t : Tick), (s.dev.link g).group.release = some (.discharge, a) ∧ (s.dev.link g).group.deadSince = some t ∧ s.dev.meanAtMost g 1 s.dev.releaseA = true) ∧
    (∃ (s : State) (g : LinkId) (a : Tick), (s.dev.link g).group.release = some (.opening, a) ∧ (s.dev.link g).hs.fb = 0) :=
  ⟨⟨up awake, 7, by decide⟩,
   ⟨up awake, 7, by decide⟩,
   ⟨up awake, 7, by decide⟩,
   ⟨up awake, 7, by decide⟩,
   ⟨up awake, 7, .assignOwned 7, by decide⟩,
   ⟨up awake, 7, .releaseFreed 7, by decide⟩,
   ⟨up awake, 7, by decide⟩,
   ⟨up (fun d => awake (d.onGroup 7 fun x => { x with assign := some (3, 2, .closing, 0) })), 7, 3, 2, 0, by decide⟩,
   ⟨up (fun d => awake (d.onGroup 7 fun x => { x with release := some (.rampDown, 0) })), 7, 0, by decide⟩,
   ⟨up awake, 7, by decide⟩,
   ⟨up (fun d => d.onLink 7 fun l => { l with hs := { l.hs with fb := 1 } }), 7, by decide⟩,
   ⟨up (fun d => awake { (((d.setReg (Reg.lnkCfg 7) 2).onLnk 7 fun l => { l with state := .live }).onGroup 7 fun x => { x with state := .owned, owner := none, gmode2Since := some 0 }) with pacer := { d.pacer with tick := 200000 } }), 7, 0, by decide⟩,
   ⟨up (fun d => awake { (d.onGroup 7 fun x => { x with breakAt := some 0 }) with pacer := { d.pacer with tick := 31 } }), 7, 0, by decide⟩,
   ⟨up (fun d => awake { ((d.onGroup 7 fun x => { x with breakAt := some 0 }).onCmd 7 fun c => { c with close := 4 }) with pacer := { d.pacer with tick := 10000000 } }), 7, 0, by decide⟩,
   ⟨up (fun d => awake { (d.onGroup 7 fun x => { x with state := .withdrawn, clearSince := some 5 }) with pacer := { d.pacer with tick := 10000005 } }), 7, 5, by decide⟩,
   ⟨up (fun d => awake { (d.setReg (Reg.lnkCfg 7) 2) with pacer := { d.pacer with tick := 100000000000 } }), 7, by decide⟩,
   ⟨up (fun d => awake { (d.onGroup 7 fun x => { x with assign := some (3, 2, .discharge, 0), deadSince := some 0 }) with pacer := { d.pacer with tick := 5000 } }), 7, 3, 2, 0, 0, by decide⟩,
   ⟨up (fun d => awake (d.onLink 7 fun l => { l with group := { l.group with assign := some (3, 2, .closing, 0) }, hs := { l.hs with fb := 4 } })), 7, 3, 2, 0, by decide⟩,
   ⟨up (fun d => awake { (d.onGroup 7 fun x => { x with release := some (.rampDown, 0), lowSince := some 0 }) with pacer := { d.pacer with tick := 10000 } }), 7, 0, 0, by decide⟩,
   ⟨up (fun d => awake { (d.onGroup 7 fun x => { x with release := some (.rampDown, 0) }) with pacer := { d.pacer with tick := 10000000 } }), 7, 0, by decide⟩,
   ⟨up (fun d => awake (d.onGroup 7 fun x => { x with release := some (.discharge, 0), deadSince := some 0 })), 7, 0, 0, by decide⟩,
   ⟨up (fun d => awake (d.onGroup 7 fun x => { x with release := some (.opening, 0) })), 7, 0, by decide⟩⟩

theorem test_witness_ExchangeRules :
    (∃ (s : State) (x : Fin 16) (f : Exchange) (o : LinkId) (k : Fin 16) (t : Tick), s.dev.alloc.slots.get x = some f ∧ f.step = 3 ∧ f.donor = some o ∧ (s.dev.link f.group).group.lowSince = some t ∧ t + 10000 ≤ s.dev.now ∧ s.dev.contactorTo f.group o = some k ∧ isSamplePoint s.dev.now = true) ∧
    (∃ (s : State) (x : Fin 16) (f : Exchange) (o : LinkId) (k : Fin 16), s.dev.alloc.slots.get x = some f ∧ f.step = 4 ∧ f.donor = some o ∧ s.dev.contactorTo f.group o = some k ∧ s.dev.fb f.group k.1 = false ∧ isSamplePoint s.dev.now = true) ∧
    (∃ (s : State) (x : Fin 16) (f : Exchange) (t : Tick), s.dev.alloc.slots.get x = some f ∧ f.step = 5 ∧ f.paused = false ∧ f.condSince = some t ∧ t + 5000 ≤ s.dev.now ∧ isSamplePoint s.dev.now = true) ∧
    (∃ (s : State) (x : Fin 16) (f : Exchange), s.dev.alloc.slots.get x = some f ∧ f.step = 6 ∧ f.segSent = false ∧ f.paused = false ∧ s.dev.mergePending f.receiver = false ∧ ∀ y, y < x → s.dev.alloc.slots.get y = none) ∧
    (∃ (s : State) (x : Fin 16) (f : Exchange) (k : Fin 16) (t : Tick), s.dev.alloc.slots.get x = some f ∧ f.step = 6 ∧ f.segReady = true ∧ f.paused = false ∧ f.condSince = some t ∧ t + 5000 ≤ s.dev.now ∧ s.dev.warned = false ∧ s.dev.contactorTo f.group f.receiver = some k ∧ isSamplePoint s.dev.now = true) ∧
    (∃ (s : State) (x : Fin 16) (f : Exchange) (k : Fin 16), s.dev.alloc.slots.get x = some f ∧ f.step = 7 ∧ s.dev.contactorTo f.group f.receiver = some k ∧ s.dev.fb f.group k.1 = true ∧ isSamplePoint s.dev.now = true ∧ s.dev.granted + s.dev.pending ≤ s.dev.alloc.inForce) ∧
    (∃ (s : State) (x : Fin 16) (f : Exchange) (code : Nat), s.dev.alloc.slots.get x = some f ∧ s.dev.exchLate f = some code ∧ code ≠ 6) ∧
    (∃ (s : State) (x : Fin 16) (f : Exchange), s.dev.alloc.slots.get x = some f ∧ s.dev.exchLate f = some 6) ∧
    (∃ (s : State) (x : Fin 16) (f : Exchange), s.dev.alloc.slots.get x = some f ∧ s.dev.exchLate f = none) ∧
    (∃ (s : State) (x : Fin 16) (c : Instr), s.dev.alloc.slots.get x = none ∧ c ∈ [.exchRampDone x, .exchDonorOpen x, .exchMatched x, .exchSegPrepare x, .exchCloseCommand x, .exchJoined x]) ∧
    (∃ (s : State) (x : Fin 16) (f : Exchange) (c : Instr), s.dev.alloc.slots.get x = some f ∧ (c = .exchRampDone x ∧ f.step ≠ 3) ∨ (c = .exchDonorOpen x ∧ f.step ≠ 4) ∨ (c = .exchMatched x ∧ f.step ≠ 5) ∨ (c = .exchSegPrepare x ∧ f.step ≠ 6) ∨ (c = .exchCloseCommand x ∧ f.step ≠ 6) ∨ (c = .exchJoined x ∧ f.step ≠ 7)) :=
  ⟨⟨moving 3 false 10031 7 0, 2, exch 3 false, 7, 0, 0, by decide⟩,
   ⟨moving 4 false 10031 7 0, 2, exch 4 false, 7, 0, by decide⟩,
   ⟨moving 5 false 10031 7 0, 2, exch 5 false, 0, by decide⟩,
   ⟨moving 6 false 10031 7 0, 2, exch 6 false, by decide⟩,
   ⟨moving 6 false 10031 3 0, 2, exch 6 false, 0, 0, by decide⟩,
   ⟨moving 7 false 10031 3 1, 2, exch 7 false, 0, by decide +kernel⟩,
   ⟨moving 5 false 100000000 3 1, 2, exch 5 false, 4, by decide⟩,
   ⟨moving 7 false 100000000 3 0, 2, exch 7 false, by decide⟩,
   ⟨moving 5 false 10 3 1, 2, exch 5 false, by decide⟩,
   ⟨up awake, 2, .exchMatched 2, by decide⟩,
   ⟨moving 5 false 10 3 1, 2, exch 5 false, .exchJoined 2, by decide⟩⟩

theorem test_witness_ContactorFaults :
    (∃ (s : State) (n : LinkId) (k : Fin 16), (s.dev.link n).cmd.close.getLsbD k.1 = true ∧ s.dev.fb n k.1 = false ∧ (s.dev.link n).con.openFault.getLsbD k.1 = false ∧ s.dev.trained n = true ∧ s.dev.carriedFor n k (1000 * s.dev.closeMs + b2n ((s.dev.link n).con.seen.getLsbD k.1)) = true) ∧
    (∃ (s : State) (n : LinkId) (k : Fin 16), (s.dev.link n).cmd.close.getLsbD k.1 = false ∨ s.dev.fb n k.1 = true ∨ (s.dev.link n).con.openFault.getLsbD k.1 = true ∨ s.dev.trained n = false ∨ s.dev.carriedFor n k (1000 * s.dev.closeMs + b2n ((s.dev.link n).con.seen.getLsbD k.1)) = false) ∧
    (∃ (s : State) (n : LinkId) (k : Fin 16), s.dev.role n = .outlet ∨ s.dev.role n = .power ∧ (s.dev.link n).cmd.close.getLsbD k.1 = false ∧ s.dev.fb n k.1 = true ∧ (s.dev.link n).con.weld.getLsbD k.1 = false ∧ s.dev.trained n = true ∧ s.dev.carriedFor n k (1000 * s.dev.openMs + b2n ((s.dev.link n).con.seen.getLsbD k.1)) = true) ∧
    (∃ (s : State) (n : LinkId) (k : Fin 16), (s.dev.link n).cmd.close.getLsbD k.1 = true ∨ s.dev.fb n k.1 = false ∨ (s.dev.link n).con.weld.getLsbD k.1 = true ∨ s.dev.trained n = false ∨ s.dev.carriedFor n k (1000 * s.dev.openMs + b2n ((s.dev.link n).con.seen.getLsbD k.1)) = false) :=
  ⟨⟨on (car id 100000000) (fun d => (d.onCmd 7 fun c => { c with close := 1 }).onCon 7 fun c => { c with carried := c.carried.set 0 (some 0) }), 7, 0, by decide⟩,
   ⟨up awake, 7, 0, by decide⟩,
   ⟨on (car id 100000000) (fun d => (d.onLink 7 fun l => { l with hs := { l.hs with fb := 1 } }).onCon 7 fun c => { c with carried := c.carried.set 0 (some 0) }), 7, 0, by decide⟩,
   ⟨up awake, 7, 0, by decide⟩⟩

theorem test_witness_PilotRules :
    (∃ (s : State) (n : LinkId), s.dev.role n = .outlet ∧ s.dev.trained n = true ∧ (s.dev.link n).veh.cand = some .a ∧ (s.dev.link n).veh.pilot ≠ .a ∧ (s.dev.link n).veh.candSince + 3000 ≤ s.dev.now + 1 ∧ s.dev.noCable n = false ∧ (s.dev.link n).veh.live = false) ∧
    (∃ (s : State) (n : LinkId), s.dev.role n = .outlet ∧ s.dev.trained n = true ∧ (s.dev.link n).veh.cand = some .a ∧ (s.dev.link n).veh.pilot ≠ .a ∧ (s.dev.link n).veh.candSince + 3000 ≤ s.dev.now + 1 ∧ s.dev.noCable n = false ∧ (s.dev.link n).veh.live = true ∧ (s.dev.link n).veh.stopWhy = .none) ∧
    (∃ (s : State) (n : LinkId), s.dev.role n = .outlet ∧ s.dev.trained n = true ∧ (s.dev.link n).veh.cand = some .b ∧ (s.dev.link n).veh.pilot ≠ .b ∧ (s.dev.link n).veh.candSince + 3000 ≤ s.dev.now + 1 ∧ s.dev.noCable n = false ∧ (s.dev.link n).veh.state = .idle ∧ (s.dev.link n).veh.ppFault = false) ∧
    (∃ (s : State) (n : LinkId), s.dev.role n = .outlet ∧ s.dev.trained n = true ∧ (s.dev.link n).veh.cand = some .b ∧ (s.dev.link n).veh.pilot ≠ .b ∧ (s.dev.link n).veh.candSince + 3000 ≤ s.dev.now + 1 ∧ s.dev.noCable n = false ∧ (s.dev.link n).veh.state ≠ .idle ∧ (s.dev.link n).veh.pilot = .c ∨ (s.dev.link n).veh.pilot = .d ∧ s.dev.isAc n = true ∧ (s.dev.link n).cmd.close.getLsbD 0 = true) ∧
    (∃ (s : State) (n : LinkId), s.dev.role n = .outlet ∧ s.dev.trained n = true ∧ (s.dev.link n).veh.cand = some .b ∧ (s.dev.link n).veh.pilot ≠ .b ∧ (s.dev.link n).veh.candSince + 3000 ≤ s.dev.now + 1 ∧ s.dev.noCable n = false ∧ (s.dev.link n).veh.state ≠ .idle ∧ (s.dev.link n).veh.pilot = .c ∨ (s.dev.link n).veh.pilot = .d ∧ s.dev.isAc n = false ∧ (s.dev.link n).veh.live = true ∧ (s.dev.link n).veh.stopWhy = .none ∧ (s.dev.link n).cmd.close.getLsbD 0 = true ∧ s.dev.currentAtMost n (s.dev.stopA n) = false) ∧
    (∃ (s : State) (n : LinkId), s.dev.role n = .outlet ∧ s.dev.trained n = true ∧ (s.dev.link n).veh.cand = some .c ∧ (s.dev.link n).veh.pilot ≠ .c ∧ (s.dev.link n).veh.candSince + 3000 ≤ s.dev.now + 1) ∧
    (∃ (s : State) (n : LinkId), s.dev.role n = .outlet ∧ s.dev.trained n = true ∧ (s.dev.link n).veh.cand = some .d ∧ (s.dev.link n).veh.pilot ≠ .d ∧ (s.dev.link n).veh.candSince + 3000 ≤ s.dev.now + 1 ∧ s.dev.vehBit n 10 = true ∨ ((s.dev.link n).cmd.close.getLsbD 0 = false ∧ s.dev.fb n 0 = false)) ∧
    (∃ (s : State) (n : LinkId), s.dev.role n = .outlet ∧ s.dev.trained n = true ∧ (s.dev.link n).veh.cand = some .e ∧ (s.dev.link n).veh.pilot ≠ .e ∧ (s.dev.link n).veh.candSince + 3000 ≤ s.dev.now + 1 ∧ s.dev.noCable n = false) ∧
    (∃ (s : State) (n : LinkId), s.dev.role n = .outlet ∧ s.dev.trained n = true ∧ (s.dev.link n).veh.cand = some .f ∧ (s.dev.link n).veh.pilot ≠ .f ∧ (s.dev.link n).veh.candSince + 3000 ≤ s.dev.now + 1 ∧ s.dev.noCable n = false ∧ (s.dev.link n).cmd.pilotMode ≠ 2) ∧
    (∃ (s : State) (n : LinkId), s.dev.role n = .outlet ∧ s.dev.trained n = true ∧ (s.dev.link n).veh.cand = some .f ∧ (s.dev.link n).veh.pilot ≠ .f ∧ (s.dev.link n).veh.candSince + 3000 ≤ s.dev.now + 1 ∧ (s.dev.link n).cmd.pilotMode = 2) ∧
    (∃ (s : State) (n : LinkId) (p : Pilot), s.dev.role n = .outlet ∧ s.dev.trained n = true ∧ (s.dev.link n).veh.cand = some p ∧ (s.dev.link n).veh.pilot ≠ p ∧ p ≠ .invalid ∧ (s.dev.link n).veh.candSince + 3000 ≤ s.dev.now + 1 ∧ s.dev.noCable n = true) ∧
    (∃ (s : State) (n : LinkId), s.dev.role n ≠ .outlet ∨ s.dev.trained n = false ∨ (s.dev.link n).veh.cand = none ∨ (s.dev.link n).veh.cand = some (s.dev.link n).veh.pilot ∨ s.dev.now + 1 < (s.dev.link n).veh.candSince + 3000) ∧
    (∃ (s : State) (n : LinkId), s.dev.role n = .outlet ∧ (s.dev.link n).veh.cand = some .invalid ∧ (s.dev.link n).veh.pilot ≠ .invalid ∧ (s.dev.link n).veh.candSince + 100000 ≤ s.dev.now + 1) ∧
    (∃ (s : State) (n : LinkId), s.dev.role n ≠ .outlet ∨ (s.dev.link n).veh.cand ≠ some .invalid ∨ (s.dev.link n).veh.pilot = .invalid ∨ s.dev.now + 1 < (s.dev.link n).veh.candSince + 100000) ∧
    (∃ (s : State) (n : LinkId) (t : Tick), (s.dev.link n).veh.diodeSince = some t ∧ t + 3000 ≤ s.dev.now + 1) ∧
    (∃ (s : State) (n : LinkId), ((s.dev.link n).veh.diodeSince.map fun t => decide (t + 3000 ≤ s.dev.now + 1)) ≠ some true) ∧
    (∃ (s : State) (n : LinkId) (t : Tick), (s.dev.link n).veh.pilotFUntil = some t ∧ t ≤ s.dev.now) ∧
    (∃ (s : State) (n : LinkId), ((s.dev.link n).veh.pilotFUntil.map fun t => decide (t ≤ s.dev.now)) ≠ some true) ∧
    (∃ (s : State) (n : LinkId) (t : Tick), (s.dev.link n).veh.cToBAt = some t ∧ t + 100000 ≤ s.dev.now ∨ (isSamplePoint s.dev.now = true ∧ s.dev.currentAtMost n (s.dev.stopA n) = true)) ∧
    (∃ (s : State) (n : LinkId) (t : Tick), (s.dev.link n).veh.cToBAt = none ∨ ((s.dev.link n).veh.cToBAt = some t ∧ s.dev.now < t + 100000 ∧ isSamplePoint s.dev.now = false)) ∧
    (∃ (s : State) (n : LinkId) (a : Nat), s.dev.role n = .outlet ∧ s.dev.trained n = true ∧ (s.dev.link n).veh.cand.isSome = true ∧ (s.dev.link n).veh.pp ≠ some (s.dev.link n).veh.ppRaw ∧ (s.dev.link n).veh.ppSince + 3000 ≤ s.dev.now + 1 ∧ s.dev.field (Reg.vehCfg n) 8 2 = 0 ∧ (s.dev.link n).veh.pp ≠ some 0xFF ∧ 5 ≤ (s.dev.link n).veh.ppRaw.toNat ∧ (s.dev.link n).veh.ppRaw.toNat ≤ 13 ∧ a = 63 ∨
      17 ≤ (s.dev.link n).veh.ppRaw.toNat ∧ (s.dev.link n).veh.ppRaw.toNat ≤ 30 ∧ a = 32 ∨
      50 ≤ (s.dev.link n).veh.ppRaw.toNat ∧ (s.dev.link n).veh.ppRaw.toNat ≤ 100 ∧ a = 20 ∨
      110 ≤ (s.dev.link n).veh.ppRaw.toNat ∧ (s.dev.link n).veh.ppRaw.toNat ≤ 250 ∧ a = 13) ∧
    (∃ (s : State) (n : LinkId), s.dev.role n = .outlet ∧ s.dev.trained n = true ∧ (s.dev.link n).veh.cand.isSome = true ∧ (s.dev.link n).veh.pp ≠ some (s.dev.link n).veh.ppRaw ∧ (s.dev.link n).veh.ppSince + 3000 ≤ s.dev.now + 1 ∧ s.dev.field (Reg.vehCfg n) 8 2 = 0 ∧ (s.dev.link n).veh.ppRaw = 255 ∧ (s.dev.link n).veh.live = false) ∧
    (∃ (s : State) (n : LinkId), s.dev.role n = .outlet ∧ s.dev.trained n = true ∧ (s.dev.link n).veh.cand.isSome = true ∧ (s.dev.link n).veh.pp ≠ some (s.dev.link n).veh.ppRaw ∧ (s.dev.link n).veh.ppSince + 3000 ≤ s.dev.now + 1 ∧ s.dev.field (Reg.vehCfg n) 8 2 = 0 ∧ codedCable (s.dev.link n).veh.ppRaw.toNat = none) ∧
    (∃ (s : State) (n : LinkId), s.dev.role n = .outlet ∧ s.dev.trained n = true ∧ (s.dev.link n).veh.cand.isSome = true ∧ (s.dev.link n).veh.pp ≠ some (s.dev.link n).veh.ppRaw ∧ (s.dev.link n).veh.ppSince + 3000 ≤ s.dev.now + 1 ∧ s.dev.field (Reg.vehCfg n) 8 2 = 2 ∧ (s.dev.link n).veh.ppRaw = 0 ∨ (s.dev.link n).veh.ppRaw = 255) ∧
    (∃ (s : State) (n : LinkId), s.dev.role n ≠ .outlet ∨ s.dev.trained n = false ∨ (s.dev.link n).veh.cand = none ∨ (s.dev.link n).veh.pp = some (s.dev.link n).veh.ppRaw ∨ s.dev.now + 1 < (s.dev.link n).veh.ppSince + 3000) :=
  ⟨⟨car (fun v => { v with cand := some .a, pilot := .b, candSince := 0, state := .ended }) 3000, 7, by decide⟩,
   ⟨car (fun v => { going v with cand := some .a, pilot := .c, candSince := 0 }) 3000, 7, by decide⟩,
   ⟨car (fun v => { v with cand := some .b, pilot := .a, candSince := 0 }) 3000, 7, by decide⟩,
   ⟨on (car (fun v => { going v with cand := some .b, pilot := .c, candSince := 0 }) 3000) (fun d => (d.setReg (Reg.metCfg 7) 1).onCmd 7 fun c => { c with close := 1 }), 7, by decide⟩,
   ⟨on (car (fun v => { going v with cand := some .b, pilot := .c, candSince := 0 }) 3000) (fun d => (d.onCmd 7 fun c => { c with close := 1 }).onMet 7 fun m => { m with chans := m.chans.map fun c => { c with last := List.replicate 32 100000000 } }), 7, by decide⟩,
   ⟨car (fun v => { v with cand := some .c, pilot := .b, candSince := 0 }) 3000, 7, by decide⟩,
   ⟨car (fun v => { v with cand := some .d, pilot := .b, candSince := 0 }) 3000, 7, by decide⟩,
   ⟨car (fun v => { v with cand := some .e, pilot := .b, candSince := 0 }) 3000, 7, by decide⟩,
   ⟨car (fun v => { v with cand := some .f, pilot := .b, candSince := 0 }) 3000, 7, by decide⟩,
   ⟨on (car (fun v => { v with cand := some .f, pilot := .b, candSince := 0 }) 3000) (fun d => d.onCmd 7 fun c => { c with pilotMode := 2 }), 7, by decide⟩,
   ⟨on (car (fun v => { v with cand := some .c, pilot := .b, candSince := 0, pp := some 0xFF }) 3000) (fun d => d.setReg (Reg.vehCfg 7) 0), 7, .c, by decide⟩,
   ⟨up awake, 7, by decide⟩,
   ⟨car (fun v => { v with cand := some .invalid, pilot := .b, candSince := 0 }) 100000, 7, by decide⟩,
   ⟨up awake, 7, by decide⟩,
   ⟨car (fun v => { v with diodeSince := some 0 }) 3000, 7, 0, by decide⟩,
   ⟨up awake, 7, by decide⟩,
   ⟨car (fun v => { v with pilotFUntil := some 5 }) 5, 7, 5, by decide⟩,
   ⟨up awake, 7, by decide⟩,
   ⟨car (fun v => { v with cToBAt := some 5 }) 100005, 7, 5, by decide⟩,
   ⟨up awake, 7, 0, by decide⟩,
   ⟨on (car (fun v => { v with cand := some .b, pp := none, ppRaw := 250, ppSince := 0 }) 3000) (fun d => d.setReg (Reg.vehCfg 7) 0), 7, 13, by decide⟩,
   ⟨on (car (fun v => { v with cand := some .b, pp := none, ppRaw := 255, ppSince := 0, state := .plugged }) 3000) (fun d => d.setReg (Reg.vehCfg 7) 0), 7, by decide⟩,
   ⟨on (car (fun v => { v with cand := some .b, pp := none, ppRaw := 251, ppSince := 0 }) 3000) (fun d => d.setReg (Reg.vehCfg 7) 0), 7, by decide⟩,
   ⟨on (car (fun v => { v with cand := some .b, pp := none, ppRaw := 0, ppSince := 0 }) 3000) (fun d => d.setReg (Reg.vehCfg 7) 0x200), 7, by decide⟩,
   ⟨up awake, 7, by decide⟩⟩

theorem test_witness_MatchingRules :
    (∃ (s : State) (n : LinkId), s.dev.plugReady n = true ∧ s.dev.hlcEnabled n = true ∧ s.dev.waitReason n = .none ∧ s.dev.megawatt n = false ∧ s.dev.sec.rng ≠ .failed) ∧
    (∃ (s : State) (n : LinkId), s.dev.plugReady n = true ∧ s.dev.hlcEnabled n = true ∧ s.dev.waitReason n = .none ∧ s.dev.megawatt n = true ∧ (s.dev.link n).veh.pp = some 0 ∧ s.dev.sec.rng ≠ .failed) ∧
    (∃ (s : State) (n : LinkId), s.dev.plugReady n = false ∨ s.dev.hlcEnabled n = false ∨ s.dev.waitReason n ≠ .none ∨ (s.dev.megawatt n = true ∧ (s.dev.link n).veh.pp ≠ some 0)) ∧
    (∃ (s : State) (n : LinkId), (s.dev.link n).veh.state = .matching ∧ s.dev.sec.rng = .healthy) ∧
    (∃ (s : State) (n : LinkId), (s.dev.link n).veh.state = .matching ∧ s.dev.sec.rng = .restarting ∨ s.dev.sec.rng = .startup) ∧
    (∃ (s : State) (n : LinkId), (s.dev.link n).veh.state = .matching ∧ s.dev.sec.rng = .failed) ∧
    (∃ (s : State) (n : LinkId) (r : SlacRun), (s.dev.link n).veh.state = .matching ∧ (s.dev.link n).veh.slac = some r) ∧
    (∃ (s : State) (n : LinkId) (r : SlacRun) (t : Tick), s.dev.role n = .outlet ∧ s.dev.trained n = true ∧ s.dev.megawatt n = false ∧ (s.dev.link n).veh.slac = some r ∧ r.soundAt = some t ∧ s.dev.now < t + 600000 ∧ r.sounds < 10) ∧
    (∃ (s : State) (n : LinkId) (r : SlacRun) (t : Tick), s.dev.role n = .outlet ∧ s.dev.trained n = true ∧ s.dev.megawatt n = false ∧ (s.dev.link n).veh.slac = some r ∧ r.soundAt = some t ∧ t + 600000 ≤ s.dev.now ∨ 10 ≤ r.sounds) ∧
    (∃ (s : State) (n : LinkId) (r : SlacRun) (t : Tick), (s.dev.link n).veh.state = .matching ∧ (s.dev.link n).veh.slac = some r ∧ r.soundAt = some t ∧ t + 600000 ≤ s.dev.now ∧ 3 ≤ r.sounds ∧ r.sum % (58 * r.sounds) = 0 ∧ r.sum / (58 * r.sounds) < 256) ∧
    (∃ (s : State) (n : LinkId) (r : SlacRun) (t : Tick), (s.dev.link n).veh.state = .matching ∧ (s.dev.link n).veh.slac = some r ∧ r.soundAt = some t ∧ t + 600000 ≤ s.dev.now ∧ r.sounds < 3) ∧
    (∃ (s : State) (n : LinkId) (r : SlacRun) (h : Sounding), (s.dev.link n).veh.state = .matching ∧ (s.dev.link n).veh.slac = some r ∧ s.dev.now ≤ r.parmAt + 10000000 ∧ ((s.dev.link n).veh.heard.find? fun x => decide (x.runId = r.runId)) = some h ∧ s.dev.attenElsewhere n r.runId = none ∧ s.dev.sec.rng ≠ .failed) ∧
    (∃ (s : State) (n : LinkId) (r : SlacRun) (h : Sounding) (a : Nat), (s.dev.link n).veh.state = .matching ∧ (s.dev.link n).veh.slac = some r ∧ s.dev.now ≤ r.parmAt + 10000000 ∧ ((s.dev.link n).veh.heard.find? fun x => decide (x.runId = r.runId)) = some h ∧ s.dev.attenElsewhere n r.runId = some a ∧ s.dev.settingField (Reg.vehXSlac n) 8 8 ≠ 0 ∧ a + s.dev.settingField (Reg.vehXSlac n) 8 8 < h.atten) ∧
    (∃ (s : State) (n : LinkId) (r : SlacRun) (i : BitVec 64), (s.dev.link n).veh.slac = some r ∧ i ≠ r.runId ∨ r.parmAt + 10000000 < s.dev.now) ∧
    (∃ (s : State) (n : LinkId) (r : SlacRun), (s.dev.link n).veh.state = .matching ∧ (s.dev.link n).veh.slac = some r) ∧
    (∃ (s : State) (n : LinkId) (r : SlacRun) (k : Nat), (s.dev.link n).veh.state = .matching ∧ (s.dev.link n).veh.slac = some r ∧ k ≠ r.toggles ∧ (s.dev.link n).veh.tries = 0) ∧
    (∃ (s : State) (n : LinkId), (s.dev.link n).veh.state = .matching ∧ (s.dev.link n).veh.slac = none ∧ (s.dev.link n).veh.stateAt + 1000000 * s.dev.slacInit n ≤ s.dev.now ∧ (s.dev.link n).veh.tries = 0) ∧
    (∃ (s : State) (n : LinkId), (s.dev.link n).veh.state = .matching ∧ (s.dev.link n).veh.slac = none ∧ (s.dev.link n).veh.stateAt + 1000000 * s.dev.slacInit n ≤ s.dev.now ∧ (s.dev.link n).veh.tries = 2 ∧ s.dev.isAc n = true ∧ s.dev.vehBit n 0 = true) ∧
    (∃ (s : State) (n : LinkId), (s.dev.link n).veh.state = .matching ∧ (s.dev.link n).veh.slac = none ∧ (s.dev.link n).veh.stateAt + 1000000 * s.dev.slacInit n ≤ s.dev.now ∧ (s.dev.link n).veh.tries = 2 ∧ s.dev.isAc n = false) ∧
    (∃ (s : State) (n : LinkId), (s.dev.link n).veh.slac = none ∧ s.dev.now < (s.dev.link n).veh.stateAt + 1000000 * s.dev.slacInit n) ∧
    (∃ (s : State) (n : LinkId) (t : Tick), (s.dev.link n).veh.restartAt = some t ∧ t ≤ s.dev.now) ∧
    (∃ (s : State) (n : LinkId), ((s.dev.link n).veh.restartAt.map fun t => decide (t ≤ s.dev.now)) ≠ some true) ∧
    (∃ (s : State) (n : LinkId) (m : BitVec 48) (x : BitVec 48) (i : BitVec 64) (k : Nat) (c : Instr), (s.dev.link n).veh.state ≠ .matching ∧ c ∈ [.slacParmReq n m i, .startAttenCharInd n i, .soundingWindowEnd n, .slacMatchReq n m x i, .cmValidate n k, .slacInitExpiry n]) :=
  ⟨⟨on (car (fun v => { v with state := .plugged }) 5) (fun d => { (d.setReg (Reg.vehCfg 7) 8) with power := { d.power with tempo := 7 } }), 7, by exact ⟨by decide +kernel, by decide +kernel, waits_none (by decide +kernel) (by decide +kernel) (by decide +kernel) rfl, by decide +kernel, by decide⟩⟩,
   ⟨on (car (fun v => { v with state := .plugged, pp := some 0 }) 5) (fun d => { ((d.setReg (Reg.vehCfg 7) 8).setReg (Reg.lnkCfg 7) 5) with power := { d.power with tempo := 7 } }), 7, by exact ⟨by decide +kernel, by decide +kernel, waits_none (by decide +kernel) (by decide +kernel) (by decide +kernel) rfl, by decide +kernel, by decide, by decide⟩⟩,
   ⟨up awake, 7, by decide⟩,
   ⟨on (car (fun v => { v with state := .matching }) 5) (fun d => d.onSec fun x => { x with rng := .healthy }), 7, by decide⟩,
   ⟨on (car (fun v => { v with state := .matching }) 5) (fun d => d.onSec fun x => { x with rng := .restarting }), 7, by decide⟩,
   ⟨on (car (fun v => { v with state := .matching }) 5) (fun d => d.onSec fun x => { x with rng := .failed }), 7, by decide⟩,
   ⟨car (fun v => { v with state := .matching, slac := some slacRun }) 5, 7, slacRun, by decide⟩,
   ⟨car (fun v => { v with slac := some slacRun }) 599999, 7, slacRun, 0, by decide⟩,
   ⟨car (fun v => { v with slac := some slacRun }) 600000, 7, slacRun, 0, by decide⟩,
   ⟨car (fun v => { v with state := .matching, slac := some slacRun }) 600000, 7, slacRun, 0, by decide⟩,
   ⟨car (fun v => { v with state := .matching, slac := some { slacRun with sounds := 2 } }) 600000, 7, { slacRun with sounds := 2 }, 0, by decide⟩,
   ⟨car (fun v => { v with state := .matching, slac := some slacRun, heard := [{ runId := 9, atten := 10, at? := 0 }] }) 600000, 7, slacRun, { runId := 9, atten := 10, at? := 0 }, by decide +kernel⟩,
   ⟨on (car (fun v => { v with state := .matching, slac := some slacRun, heard := [{ runId := 9, atten := 40, at? := 0 }] }) 600000) (fun d => ((d.setReg (Reg.lnkCfg 8) 1).setReg (Reg.vehXSlac 7) 0x600).onVeh 8 fun v => { v with heard := [{ runId := 9, atten := 10, at? := 0 }] }), 7, slacRun, { runId := 9, atten := 40, at? := 0 }, 10, by decide +kernel⟩,
   ⟨car (fun v => { v with state := .matching, slac := some slacRun }) 5, 7, slacRun, 3, by decide⟩,
   ⟨car (fun v => { v with state := .matching, slac := some slacRun }) 5, 7, slacRun, by decide⟩,
   ⟨car (fun v => { v with state := .matching, slac := some slacRun, tries := 0 }) 5, 7, slacRun, 3, by decide⟩,
   ⟨car (fun v => { v with state := .matching, tries := 0, stateAt := 0 }) 1000000000, 7, by decide⟩,
   ⟨on (car (fun v => { v with state := .matching, tries := 2, stateAt := 0 }) 1000000000) (fun d => (d.setReg (Reg.metCfg 7) 1).setReg (Reg.vehCfg 7) 1), 7, by decide⟩,
   ⟨car (fun v => { v with state := .matching, tries := 2, stateAt := 0 }) 1000000000, 7, by decide⟩,
   ⟨on (car (fun v => { v with state := .matching }) 5) (fun d => d.setReg (Reg.vehXSlac 7) 20), 7, by decide⟩,
   ⟨car (fun v => { v with restartAt := some 5 }) 5, 7, 5, by decide⟩,
   ⟨up awake, 7, by decide⟩,
   ⟨up awake, 7, 1, 2, 3, 0, .cmValidate 7 0, by decide⟩⟩

theorem test_witness_ProtocolRules :
    (∃ (s : State) (n : LinkId), (s.dev.link n).veh.state = .setup ∧ (s.dev.link n).veh.tls = false ∧ (s.dev.link n).veh.protocol = .none ∧ s.dev.sec.rng ≠ .failed ∧ (s.dev.link n).veh.tries = 1) ∧
    (∃ (s : State) (n : LinkId) (ok : Bool), (s.dev.link n).veh.state = .setup ∧ (s.dev.link n).veh.tls = false ∧ (s.dev.link n).veh.protocol = .none ∧ s.dev.sec.rng ≠ .failed ∧ ok = false ∨ s.dev.sec.chain = [] ∧ (s.dev.link n).veh.tries = 1) ∧
    (∃ (s : State) (n : LinkId), (s.dev.link n).veh.state = .setup ∧ (s.dev.link n).veh.tls = false ∧ (s.dev.link n).veh.protocol = .none ∧ s.dev.sec.rng = .restarting ∨ s.dev.sec.rng = .startup) ∧
    (∃ (s : State) (n : LinkId), (s.dev.link n).veh.state = .setup ∧ (s.dev.link n).veh.tls = false ∧ (s.dev.link n).veh.protocol = .none ∧ s.dev.sec.rng = .failed) ∧
    (∃ (s : State) (n : LinkId), (s.dev.link n).veh.state = .setup ∧ (s.dev.link n).veh.tls = false ∧ (s.dev.link n).veh.protocol ≠ .none ∧ (s.dev.link n).veh.live = false) ∧
    (∃ (s : State) (n : LinkId) (ps : List Protocol), (s.dev.link n).veh.state = .setup ∧ (s.dev.link n).veh.protocol = .none ∧ s.dev.megawatt n = false ∧ Protocol.iso15118_20 ∈ ps ∧ s.dev.vehBit n 3 = true ∧ (s.dev.link n).veh.tls = true) ∧
    (∃ (s : State) (n : LinkId), (s.dev.link n).veh.state = .setup ∧ (s.dev.link n).veh.protocol = .none ∧ s.dev.megawatt n = false ∧ s.dev.vehBit n 1 = true ∧ (s.dev.link n).veh.tls = false) ∧
    (∃ (s : State) (n : LinkId), (s.dev.link n).veh.state = .setup ∧ (s.dev.link n).veh.protocol = .none ∧ (s.dev.link n).veh.tries = 0) ∧
    (∃ (s : State) (n : LinkId), (s.dev.link n).veh.state = .setup ∧ (s.dev.link n).veh.protocol ≠ .none) ∧
    (∃ (s : State) (n : LinkId), (s.dev.link n).veh.state = .authorizing) ∧
    (∃ (s : State) (n : LinkId), (s.dev.link n).veh.state = .setup ∧ (s.dev.link n).veh.response = .ok ∧ (s.dev.link n).veh.held = none ∧ (s.dev.link n).veh.live = false) ∧
    (∃ (s : State) (n : LinkId), (s.dev.link n).veh.state = .negotiating) ∧
    (∃ (s : State) (n : LinkId), (s.dev.link n).veh.state = .negotiating) ∧
    (∃ (s : State) (n : LinkId), (s.dev.link n).veh.state = .allocating ∧ s.dev.isAc n = false ∧ (s.dev.link n).veh.segAnswered = false ∨ s.dev.owned n = [] ∨ (s.dev.link n).met.fast = false) ∧
    (∃ (s : State) (n : LinkId), (s.dev.link n).veh.state = .allocating ∧ s.dev.isAc n = false ∧ (s.dev.link n).veh.segAnswered = true ∧ s.dev.owned n ≠ [] ∧ (s.dev.link n).met.fast = true ∧ (s.dev.link n).veh.pilot ≠ .d ∧ s.dev.warned = false) ∧
    (∃ (s : State) (n : LinkId), (s.dev.link n).veh.state = .cableCheck) ∧
    (∃ (s : State) (n : LinkId), (s.dev.link n).veh.state = .cableCheck ∧ (s.dev.link n).veh.cablePassed = true ∧ s.dev.isAc n = false) ∧
    (∃ (s : State) (n : LinkId), (s.dev.link n).veh.state = .precharge) ∧
    (∃ (s : State) (n : LinkId), (s.dev.link n).veh.state = .energy) ∧
    (∃ (s : State) (n : LinkId) (v : BitVec 16) (a : BitVec 16) (q : ChargeLoop) (c : Instr), (s.dev.link n).veh.state = .energy ∧ (s.dev.link n).veh.basic = false ∧ (s.dev.link n).veh.live = true ∧ (s.dev.link n).veh.stopWhy = .none ∧ c ∈ [.sessionSetupReq n .bad, .authorizationReq n .bad none, .negotiationReq n .bad none, .cableCheckReq n .bad, .preChargeReq n .bad v a, .powerDeliveryStart n .bad, .powerDeliveryStop n .bad, .chargeLoopReq n .bad q]) ∧
    (∃ (s : State) (n : LinkId) (v : BitVec 16) (a : BitVec 16) (q : ChargeLoop) (f : V2gForm) (ok : Bool) (done : Bool) (ps : List Protocol) (c : Instr), (s.dev.link n).veh.state = .idle ∧ (s.dev.link n).veh.live = false ∧ c ∈ [.tlsHandshake n ok done, .supportedAppProtocol n ps, .sessionSetupReq n f, .authorizationReq n f none, .negotiationReq n f none, .cableCheckReq n f, .preChargeReq n f v a, .powerDeliveryStart n f, .powerDeliveryStop n f, .chargeLoopReq n f q, .pauseStandbyReq n, .v2gSequenceTimeout n]) :=
  ⟨⟨car (fun v => { v with state := .setup, tls := false, tries := 1 }) 5, 7, by decide⟩,
   ⟨car (fun v => { v with state := .setup, tls := false, tries := 1 }) 5, 7, false, by decide⟩,
   ⟨on (car (fun v => { v with state := .setup, tls := false }) 5) (fun d => d.onSec fun x => { x with rng := .restarting }), 7, by decide⟩,
   ⟨on (car (fun v => { v with state := .setup, tls := false }) 5) (fun d => d.onSec fun x => { x with rng := .failed }), 7, by decide⟩,
   ⟨car (fun v => { v with state := .setup, tls := false, protocol := .din70121 }) 5, 7, by decide⟩,
   ⟨on (car (fun v => { v with state := .setup, tls := true }) 5) (fun d => d.setReg (Reg.vehCfg 7) 8), 7, [.din70121, .iso15118_20], by decide⟩,
   ⟨on (car (fun v => { v with state := .setup, tls := false }) 5) (fun d => d.setReg (Reg.vehCfg 7) 2), 7, by decide⟩,
   ⟨car (fun v => { v with state := .setup }) 5, 7, by decide⟩,
   ⟨car (fun v => { v with state := .setup, protocol := .din70121 }) 5, 7, by decide⟩,
   ⟨car (fun v => { v with state := .authorizing }) 5, 7, by decide⟩,
   ⟨car (fun v => { v with state := .setup, response := .ok, held := none, live := false }) 5, 7, by decide⟩,
   ⟨car (fun v => { v with state := .negotiating }) 5, 7, by decide⟩,
   ⟨car (fun v => { v with state := .negotiating }) 5, 7, by decide⟩,
   ⟨car (fun v => { v with state := .allocating }) 5, 7, by decide⟩,
   ⟨on (car (fun v => { v with state := .allocating, segAnswered := true }) 5) (fun d => ((d.setReg (Reg.lnkCfg 9) 2).onGroup 9 fun g => { g with owner := some 7 }).onLink 7 fun l => { l with met := { l.met with fast := true } }), 7, by decide +kernel⟩,
   ⟨car (fun v => { v with state := .cableCheck, cablePassed := true }) 5, 7, by decide⟩,
   ⟨car (fun v => { v with state := .cableCheck, cablePassed := true }) 5, 7, by decide⟩,
   ⟨car (fun v => { v with state := .precharge }) 5, 7, by decide⟩,
   ⟨car (fun v => { v with state := .energy }) 5, 7, by decide⟩,
   ⟨car going 5, 7, 0, 0, { targetV := 4000, targetI := 100, ownDisKw := 0, soc := 50 }, .sessionSetupReq 7 .bad, by decide⟩,
   ⟨up awake, 7, 0, 0, { targetV := 4000, targetI := 100, ownDisKw := 0, soc := 50 }, .good, true, true, [], .sessionSetupReq 7 .good, by decide⟩⟩

theorem test_witness_SessionStops :
    (∃ (s : State) (n : LinkId), (s.dev.link n).veh.live = true ∧ (s.dev.link n).veh.stopWhy = .none ∧ (s.dev.link n).veh.talking = true ∧ (s.dev.link n).veh.state ≠ .stopping) ∧
    (∃ (s : State) (n : LinkId), (s.dev.link n).veh.live = true ∧ (s.dev.link n).veh.stopWhy = .none ∧ (s.dev.link n).veh.talking = true ∧ (s.dev.link n).veh.state ≠ .stopping) ∧
    (∃ (s : State) (n : LinkId), s.dev.recording = true ∧ (s.dev.link n).veh.live = true ∧ (s.dev.link n).veh.stopWhy = .none) ∧
    (∃ (s : State) (n : LinkId), s.dev.recording = true ∧ (s.dev.link n).veh.live = false) ∧
    (∃ (s : State) (n : LinkId), (s.dev.link n).veh.talking = true ∧ (s.dev.link n).veh.protocol ≠ .none ∧ (s.dev.link n).veh.state = .setup ∧ (s.dev.link n).veh.live = false) ∧
    (∃ (s : State) (n : LinkId), (s.dev.link n).veh.live = true ∧ (s.dev.link n).veh.stopWhy = .none ∧ (s.dev.link n).veh.talking = true ∧ (s.dev.link n).veh.protocol ≠ .none ∧ (s.dev.link n).veh.state = .energy) ∧
    (∃ (s : State) (n : LinkId), (s.dev.link n).veh.state = .setup ∧ (s.dev.link n).veh.stateAt + 20000000 ≤ s.dev.now ∧ (s.dev.link n).veh.response ≠ .ok ∧ (s.dev.link n).veh.tries = 0) ∧
    (∃ (s : State) (n : LinkId), (s.dev.link n).veh.live = true ∧ (s.dev.link n).veh.stopWhy = .none ∧ (s.dev.link n).veh.state = .cableCheck ∧ (s.dev.link n).veh.stateAt + 30000000 ≤ s.dev.now ∧ (s.dev.link n).veh.cablePassed = false) ∧
    (∃ (s : State) (n : LinkId), (s.dev.link n).veh.live = true ∧ (s.dev.link n).veh.stopWhy = .none ∧ (s.dev.link n).veh.state = .precharge ∧ (s.dev.link n).veh.stateAt + 10000000 ≤ s.dev.now) ∧
    (∃ (s : State) (n : LinkId), ((s.dev.link n).veh.state = .setup ∧ s.dev.now < (s.dev.link n).veh.stateAt + 20000000) ∨ ((s.dev.link n).veh.state = .cableCheck ∧ s.dev.now < (s.dev.link n).veh.stateAt + 30000000) ∨ ((s.dev.link n).veh.state = .precharge ∧ s.dev.now < (s.dev.link n).veh.stateAt + 10000000) ∨ (s.dev.link n).veh.state = .energy ∨ (s.dev.link n).veh.state = .idle) ∧
    (∃ (s : State) (n : LinkId), (s.dev.link n).veh.state = .authorizing ∧ (s.dev.link n).veh.waitAuth = none ∧ s.dev.decides n = false ∧ (s.dev.link n).veh.stateAt + 1000000 * s.dev.settingField (Reg.vehXAuth n) 0 16 ≤ s.dev.now) ∧
    (∃ (s : State) (n : LinkId), (s.dev.link n).veh.state ≠ .authorizing ∨ (s.dev.link n).veh.waitAuth.isSome = true ∨ s.dev.decides n = true ∨ s.dev.now < (s.dev.link n).veh.stateAt + 1000000 * s.dev.settingField (Reg.vehXAuth n) 0 16) ∧
    (∃ (s : State) (n : LinkId) (h : HeldCredential), (s.dev.link n).veh.held = some h ∧ (s.dev.link n).veh.state = .idle ∧ h.since + 1000000 * s.dev.settingField (Reg.vehXAuth n) 16 16 ≤ s.dev.now) ∧
    (∃ (s : State) (n : LinkId) (h : HeldCredential), (s.dev.link n).veh.held = none ∨ (s.dev.link n).veh.state ≠ .idle ∨ ((s.dev.link n).veh.held = some h ∧ s.dev.now < h.since + 1000000 * s.dev.settingField (Reg.vehXAuth n) 16 16)) ∧
    (∃ (s : State) (n : LinkId) (t : Tick), (s.dev.link n).veh.live = true ∧ (s.dev.link n).veh.state = .stopping ∧ (s.dev.link n).veh.openCmd = false ∧ (s.dev.link n).veh.lowSince = some t ∧ t + 10000 ≤ s.dev.now) ∧
    (∃ (s : State) (n : LinkId), (s.dev.link n).veh.live = false ∨ (s.dev.link n).veh.state ≠ .stopping ∨ (s.dev.link n).veh.openCmd = true ∨ heldFor (s.dev.link n).veh.lowSince s.dev.now 10000 = false) ∧
    (∃ (s : State) (n : LinkId), (s.dev.link n).veh.live = true ∧ (s.dev.link n).veh.state = .stopping ∧ (s.dev.link n).veh.openCmd = false ∧ (s.dev.link n).veh.stopAt + 1000 * s.dev.stopMs n ≤ s.dev.now) ∧
    (∃ (s : State) (n : LinkId), (s.dev.link n).veh.live = false ∨ (s.dev.link n).veh.state ≠ .stopping ∨ (s.dev.link n).veh.openCmd = true ∨ s.dev.now < (s.dev.link n).veh.stopAt + 1000 * s.dev.stopMs n) ∧
    (∃ (s : State) (n : LinkId), (s.dev.link n).veh.live = true ∧ (s.dev.link n).veh.stopWhy ≠ .none ∧ (s.dev.link n).veh.stopAt < s.dev.now ∧ s.dev.fb n 0 = false ∧ (s.dev.link n).veh.state = .stopping ∧ (s.dev.link n).veh.pilot ≠ .a ∧ s.dev.noCable n = false) ∧
    (∃ (s : State) (n : LinkId), (s.dev.link n).veh.live = true ∧ (s.dev.link n).veh.stopWhy ≠ .none ∧ (s.dev.link n).veh.stopAt < s.dev.now ∧ s.dev.fb n 0 = false ∧ (s.dev.link n).veh.state = .stopping ∧ (s.dev.link n).veh.pilot = .a) ∧
    (∃ (s : State) (n : LinkId), (s.dev.link n).veh.live = false ∨ (s.dev.link n).veh.stopWhy = .none ∨ s.dev.now ≤ (s.dev.link n).veh.stopAt ∨ s.dev.fb n 0 = true) ∧
    (∃ (s : State) (n : LinkId), s.dev.recording = true ∧ s.dev.role n = .outlet) ∧
    (∃ (s : State) (n : LinkId), s.dev.recording = false ∨ s.dev.role n ≠ .outlet) ∧
    (∃ (s : State) (n : LinkId) (dir : Bool) (t : Tick), (s.dev.link n).veh.turning = some dir ∧ (s.dev.link n).veh.live = true ∧ (s.dev.link n).veh.lowSince = some t ∧ t + 10001 ≤ s.dev.now ∧ isSamplePoint s.dev.now = true) ∧
    (∃ (s : State) (n : LinkId), (s.dev.link n).veh.turning = none ∨ (s.dev.link n).veh.live = false ∨ heldFor (s.dev.link n).veh.lowSince s.dev.now 10001 = false ∨ isSamplePoint s.dev.now = false) :=
  ⟨⟨car going 5, 7, by decide⟩,
   ⟨car going 5, 7, by decide⟩,
   ⟨car going 5, 7, by decide⟩,
   ⟨up awake, 7, by decide⟩,
   ⟨car (fun v => { v with state := .setup, protocol := .din70121 }) 5, 7, by decide⟩,
   ⟨car (fun v => { going v with protocol := .din70121 }) 5, 7, by decide⟩,
   ⟨car (fun v => { v with state := .setup, stateAt := 0 }) 20000000, 7, by decide⟩,
   ⟨car (fun v => { going v with state := .cableCheck, stateAt := 0 }) 30000000, 7, by decide⟩,
   ⟨car (fun v => { going v with state := .precharge, stateAt := 0 }) 10000000, 7, by decide⟩,
   ⟨up awake, 7, by decide⟩,
   ⟨car (fun v => { v with state := .authorizing, stateAt := 0 }) 100000000000, 7, by decide⟩,
   ⟨up awake, 7, by decide⟩,
   ⟨car (fun v => { v with held := some { tenant := 1, path := .tag, hash := [], since := 0, late := false } }) 100000000000, 7, { tenant := 1, path := .tag, hash := [], since := 0, late := false }, by decide⟩,
   ⟨up awake, 7, { tenant := 1, path := .tag, hash := [], since := 0, late := false }, by decide⟩,
   ⟨car (fun v => { going v with state := .stopping, lowSince := some 0 }) 10000, 7, 0, by decide⟩,
   ⟨up awake, 7, by decide⟩,
   ⟨car (fun v => { going v with state := .stopping, stopAt := 0 }) 100000000, 7, by decide⟩,
   ⟨up awake, 7, by decide⟩,
   ⟨car (fun v => { going v with stopWhy := .vehicle, openCmd := true, state := .stopping, pilot := .b }) 5, 7, by decide⟩,
   ⟨car (fun v => { going v with stopWhy := .vehicle, openCmd := true, state := .stopping, pilot := .a }) 5, 7, by decide⟩,
   ⟨up awake, 7, by decide⟩,
   ⟨car id 5, 7, by decide⟩,
   ⟨up awake, 7, by decide⟩,
   ⟨car (fun v => { going v with turning := some true, lowSince := some 0 }) 10031, 7, true, 0, by decide⟩,
   ⟨up awake, 7, by decide⟩⟩

theorem test_witness_SprintRules :
    (∃ (s : State), s.dev.prot.armed = true) ∧
    (∃ (s : State), s.dev.prot.armed = true) ∧
    (∃ (s : State) (a : Bool) (b : Bool), s.dev.prot.armed = true ∧ a = false ∨ b = false) ∧
    (∃ (s : State), s.dev.prot.armed = true) ∧
    (∃ (s : State) (m : ChannelMismatch) (a : Bool) (b : Bool) (k : Fin 4) (c : Instr), s.dev.prot.armed = false ∧ c ∈ [.sprintChMismatch m, .sprintSelftest a b, .tripoutReadbackFault k]) ∧
    (∃ (code : Byte), code = 0x36 ∨ code = 0x37) ∧
    (∃ (code : Byte), code ≠ 0x36 ∧ code ≠ 0x37) :=
  ⟨⟨guardian id 5, by decide⟩,
   ⟨guardian id 5, by decide⟩,
   ⟨guardian id 5, true, false, by decide⟩,
   ⟨guardian id 5, by decide⟩,
   ⟨up awake, .oneLate, true, true, 2, .sprintSelftest true true, by decide⟩,
   ⟨0x36, by decide⟩,
   ⟨0x24, by decide⟩⟩

theorem test_witness_InsulationRules :
    (∃ (s : State) (n : LinkId) (t : Tick), (s.dev.link n).prot.threshRetryAt = some t ∧ t ≤ s.dev.now ∧ s.dev.trained n = true) ∧
    (∃ (s : State) (n : LinkId), ((s.dev.link n).prot.threshRetryAt.map fun t => decide (t ≤ s.dev.now)) ≠ some true ∨ s.dev.trained n = false) ∧
    (∃ (s : State) (n : LinkId), s.dev.hasImd n = true ∧ s.dev.trained n = true ∧ isSamplePoint s.dev.now = true ∧ (s.dev.link n).prot.imd.halfStart + 1000 * s.dev.imdHalf n ≤ s.dev.now ∧ (s.dev.link n).prot.imd.positive = true) ∧
    (∃ (s : State) (n : LinkId), s.dev.hasImd n = true ∧ s.dev.trained n = true ∧ isSamplePoint s.dev.now = true ∧ (s.dev.link n).prot.imd.halfStart + 1000 * s.dev.imdHalf n ≤ s.dev.now ∧ (s.dev.link n).prot.imd.positive = false) ∧
    (∃ (s : State) (n : LinkId), s.dev.hasImd n = false ∨ s.dev.trained n = false ∨ isSamplePoint s.dev.now = false ∨ s.dev.now < (s.dev.link n).prot.imd.halfStart + 1000 * s.dev.imdHalf n) ∧
    (∃ (s : State) (g : LinkId) (o : LinkId) (k : Fin 16) (q : SegRequest) (t : Tick), (s.dev.prot.segs.find? fun x => decide (x.group = g)) = some q ∧ q.answered = false ∧ isSamplePoint s.dev.now = true ∧ s.dev.warned = false ∧ s.dev.segReadyNow q = true ∧ (s.dev.link g).met.fast = true ∧ s.dev.slotOf g = none ∧ s.dev.matched g o = true ∧ (s.dev.link g).group.assign = some (o, k, .segPrepare, t)) ∧
    (∃ (s : State) (g : LinkId) (q : SegRequest) (i : Fin 16) (x : Exchange), (s.dev.prot.segs.find? fun x => decide (x.group = g)) = some q ∧ q.answered = false ∧ isSamplePoint s.dev.now = true ∧ s.dev.warned = false ∧ s.dev.segReadyNow q = true ∧ (s.dev.link g).met.fast = true ∧ s.dev.slotOf g = some i ∧ s.dev.alloc.slots.get i = some x) ∧
    (∃ (s : State) (g : LinkId), (s.dev.prot.segs.find? fun x => decide (x.group = g)).isNone = true ∨ isSamplePoint s.dev.now = false ∨ s.dev.warned = true ∨ (s.dev.link g).met.fast = false) ∧
    (∃ (s : State) (n : LinkId) (t : Tick), isSamplePoint s.dev.now = true ∧ (s.dev.link n).prot.sym.since = some t ∧ t + 1000 * s.dev.settingField (Reg.prtLXSym n) 8 8 ≤ s.dev.now) ∧
    (∃ (s : State) (n : LinkId), isSamplePoint s.dev.now = false ∨ heldFor (s.dev.link n).prot.sym.since s.dev.now (1000 * s.dev.settingField (Reg.prtLXSym n) 8 8) = false) ∧
    (∃ (s : State) (n : LinkId) (t : Tick), s.dev.role n = .outlet ∧ s.dev.isAc n = true ∧ isSamplePoint s.dev.now = true ∧ (s.dev.link n).prot.rdcAc.since = some t ∧ t + 10000 ≤ s.dev.now) ∧
    (∃ (s : State) (n : LinkId), isSamplePoint s.dev.now = false ∨ heldFor (s.dev.link n).prot.rdcAc.since s.dev.now (10000) = false ∧ s.dev.rdcFast n = false ∨ s.dev.role n ≠ .outlet ∨ s.dev.isAc n = false) ∧
    (∃ (s : State) (n : LinkId), s.dev.role n = .outlet ∧ s.dev.isAc n = true ∧ isSamplePoint s.dev.now = true ∧ s.dev.rdcFast n = true) ∧
    (∃ (s : State) (n : LinkId) (t : Tick), s.dev.role n = .outlet ∧ s.dev.isAc n = true ∧ isSamplePoint s.dev.now = true ∧ (s.dev.link n).prot.rdcDc.since = some t ∧ t + 70000 ≤ s.dev.now) ∧
    (∃ (s : State) (n : LinkId), isSamplePoint s.dev.now = false ∨ heldFor (s.dev.link n).prot.rdcDc.since s.dev.now (70000) = false ∨ s.dev.role n ≠ .outlet ∨ s.dev.isAc n = false) ∧
    (∃ (s : State) (n : LinkId) (t : Tick), s.dev.role n = .site ∧ isSamplePoint s.dev.now = true ∧ (s.dev.link n).prot.siteRdc.since = some t ∧ t + 1000 * s.dev.settingField Reg.prtXSite 16 8 ≤ s.dev.now) ∧
    (∃ (s : State) (n : LinkId), s.dev.role n ≠ .site ∨ isSamplePoint s.dev.now = false ∨ heldFor (s.dev.link n).prot.siteRdc.since s.dev.now (1000 * s.dev.settingField Reg.prtXSite 16 8) = false) ∧
    (∃ (s : State) (n : LinkId) (t : Tick), isSamplePoint s.dev.now = true ∧ s.dev.sessionLive n = true ∧ (s.dev.link n).prot.reducingI = false ∧ ((s.dev.link n).prot.limited false).since = some t ∧ t + 1000 ≤ s.dev.now) ∧
    (∃ (s : State) (n : LinkId), isSamplePoint s.dev.now = true ∧ (s.dev.link n).prot.reducingI = true ∧ (s.dev.link n).prot.overI + 1000000 ≤ s.dev.now) ∧
    (∃ (s : State) (n : LinkId), isSamplePoint s.dev.now = false ∨ (s.dev.link n).prot.reducingI = false ∨ s.dev.now < (s.dev.link n).prot.overI + 1000000) ∧
    (∃ (s : State) (n : LinkId) (t : Tick), isSamplePoint s.dev.now = true ∧ s.dev.sessionLive n = true ∧ (s.dev.link n).prot.reducingV = false ∧ ((s.dev.link n).prot.limited true).since = some t ∧ t + 1000 ≤ s.dev.now) ∧
    (∃ (s : State) (n : LinkId), isSamplePoint s.dev.now = true ∧ (s.dev.link n).prot.reducingV = true ∧ (s.dev.link n).prot.overV + 1000000 ≤ s.dev.now) ∧
    (∃ (s : State) (n : LinkId), isSamplePoint s.dev.now = false ∨ (s.dev.link n).prot.reducingV = false ∨ s.dev.now < (s.dev.link n).prot.overV + 1000000) ∧
    (∃ (s : State) (n : LinkId) (v : Bool), isSamplePoint s.dev.now = false ∨ s.dev.sessionLive n = false ∨ heldFor ((s.dev.link n).prot.limited v).since s.dev.now 1000 = false) ∧
    (∃ (s : State) (n : LinkId) (v : Bool) (t : Tick), isSamplePoint s.dev.now = true ∧ s.dev.sessionLive n = true ∧ ((s.dev.link n).prot.limited v).since = some t ∧ t + 1000 * s.dev.settingField (Reg.prtLXLim n) 16 8 ≤ s.dev.now) ∧
    (∃ (s : State) (n : LinkId) (v : Bool), isSamplePoint s.dev.now = false ∨ s.dev.sessionLive n = false ∨ heldFor ((s.dev.link n).prot.limited v).since s.dev.now (1000 * s.dev.settingField (Reg.prtLXLim n) 16 8) = false) ∧
    (∃ (s : State) (n : LinkId) (t : Tick), isSamplePoint s.dev.now = true ∧ (s.dev.link n).prot.safeDir.since = some t ∧ t + 5000 ≤ s.dev.now) ∧
    (∃ (s : State) (n : LinkId), isSamplePoint s.dev.now = false ∨ heldFor (s.dev.link n).prot.safeDir.since s.dev.now (5000) = false) :=
  ⟨⟨judged (fun p => { p with threshRetryAt := some 5 }) 5, 7, 5, by decide⟩,
   ⟨up awake, 7, by decide⟩,
   ⟨judged (fun p => { p with imd := { p.imd with positive := true, halfStart := 0 } }) 125000031, 7, by decide⟩,
   ⟨judged (fun p => { p with imd := { p.imd with positive := false, halfStart := 0 } }) 125000031, 7, by decide⟩,
   ⟨up awake, 7, by decide⟩,
   ⟨guardian (fun d => { ((((d.setReg (Reg.lnkCfg 9) 2).onGroup 9 fun x => { x with assign := some (7, 0, .segPrepare, 0) }).onProt 9 fun p => { p with imd := { p.imd with injecting := false, quiet := 2 } }).onMet 9 fun m => { m with fast := true, chans := m.chans.map fun c => { c with last := [5] } }).onMet 7 (fun m => { m with chans := m.chans.map fun c => { c with last := [5] } }) with prot := { d.prot with segs := [{ group := 9, outlet := 7, since := 0, answered := false }] }, alloc := d.alloc }) 31, 9, 7, 0, { group := 9, outlet := 7, since := 0, answered := false }, 0, by decide +kernel⟩,
   ⟨guardian (fun d => { ((((d.setReg (Reg.lnkCfg 9) 2).onGroup 9 fun x => { x with assign := some (7, 0, .segPrepare, 0) }).onProt 9 fun p => { p with imd := { p.imd with injecting := false, quiet := 2 } }).onMet 9 fun m => { m with fast := true, chans := m.chans.map fun c => { c with last := [5] } }).onMet 7 (fun m => { m with chans := m.chans.map fun c => { c with last := [5] } }) with prot := { d.prot with segs := [{ group := 9, outlet := 7, since := 0, answered := false }] }, alloc := { d.alloc with slots := d.alloc.slots.set 2 (some (exch 5 true)) } }) 31, 9, { group := 9, outlet := 7, since := 0, answered := false }, 2, exch 5 true, by decide +kernel⟩,
   ⟨up awake, 9, by decide⟩,
   ⟨judged (fun p => { p with sym := { p.sym with since := some 0 } }) 125000031, 7, 0, by decide⟩,
   ⟨up awake, 7, by decide⟩,
   ⟨on (judged (fun p => { p with rdcAc := { p.rdcAc with since := some 0 } }) 125000031) (fun d => d.setReg (Reg.metCfg 7) 1), 7, 0, by decide⟩,
   ⟨up awake, 7, by decide⟩,
   ⟨on (judged (fun p => { p with fastRun := 4 }) 125000031) (fun d => d.setReg (Reg.metCfg 7) 1), 7, by decide⟩,
   ⟨on (judged (fun p => { p with rdcDc := { p.rdcDc with since := some 0 } }) 125000031) (fun d => d.setReg (Reg.metCfg 7) 1), 7, 0, by decide⟩,
   ⟨up awake, 7, by decide⟩,
   ⟨on (judged (fun p => { p with siteRdc := { p.siteRdc with since := some 0 } }) 125000031) (fun d => d.setReg (Reg.lnkCfg 7) 3), 7, 0, by decide⟩,
   ⟨up awake, 7, by decide⟩,
   ⟨on (judged (fun p => { p with slc := { p.slc with since := some 0 }, slv := { p.slv with since := some 0 } }) 125000031) (fun d => d.onVeh 7 going), 7, 0, by decide⟩,
   ⟨judged (fun p => { p with reducingI := true, overI := 0 }) 125000031, 7, by decide⟩,
   ⟨up awake, 7, by decide⟩,
   ⟨on (judged (fun p => { p with slc := { p.slc with since := some 0 }, slv := { p.slv with since := some 0 } }) 125000031) (fun d => d.onVeh 7 going), 7, 0, by decide⟩,
   ⟨judged (fun p => { p with reducingV := true, overV := 0 }) 125000031, 7, by decide⟩,
   ⟨up awake, 7, by decide⟩,
   ⟨up awake, 7, true, by decide⟩,
   ⟨on (judged (fun p => { p with slc := { p.slc with since := some 0 }, slv := { p.slv with since := some 0 } }) 125000031) (fun d => d.onVeh 7 going), 7, true, 0, by decide⟩,
   ⟨up awake, 7, true, by decide⟩,
   ⟨judged (fun p => { p with safeDir := { p.safeDir with since := some 0 } }) 125000031, 7, 0, by decide⟩,
   ⟨up awake, 7, by decide⟩⟩

theorem test_witness_SafetyInputs :
    (∃ (s : State) (k : Fin 8), (s.dev.prot.pairs.get k).state ≠ .demand ∧ s.dev.avEnabled k = true) ∧
    (∃ (s : State) (k : Fin 8), (s.dev.prot.pairs.get k).state ≠ .demand ∧ s.dev.avEnabled k = false) ∧
    (∃ (s : State) (k : Fin 8), (s.dev.prot.pairs.get k).state ≠ .clear) ∧
    (∃ (s : State) (k : Fin 8), (s.dev.prot.pairs.get k).state ≠ .discrepancy) ∧
    (∃ (s : State) (k : Fin 8) (a : Bool) (b : Bool), avOf a b = (s.dev.prot.pairs.get k).state) ∧
    (∃ (s : State) (k : Fin 8), s.dev.avEnabled k = true ∧ (s.dev.prot.pairs.get k).state = .discrepancy ∧ (s.dev.prot.pairs.get k).faulted = false ∧ 1000 * s.dev.field (Reg.prtAvCfg k) 16 8 ≤ (s.dev.prot.pairs.get k).timer s.dev.now) ∧
    (∃ (s : State) (k : Fin 8), s.dev.avEnabled k = false ∨ (s.dev.prot.pairs.get k).state ≠ .discrepancy ∨ (s.dev.prot.pairs.get k).faulted = true ∨ (s.dev.prot.pairs.get k).timer s.dev.now < 1000 * s.dev.field (Reg.prtAvCfg k) 16 8) ∧
    (∃ (s : State) (k : Fin 8), s.dev.avEnabled k = true ∧ (s.dev.prot.pairs.get k).state ≠ .discrepancy ∧ (s.dev.prot.pairs.get k).since + 1000 * s.dev.field (Reg.prtAvCfg k) 16 8 ≤ s.dev.now) ∧
    (∃ (s : State) (k : Fin 8), s.dev.avEnabled k = false ∨ (s.dev.prot.pairs.get k).state = .discrepancy ∨ s.dev.now < (s.dev.prot.pairs.get k).since + 1000 * s.dev.field (Reg.prtAvCfg k) 16 8) ∧
    (∃ (s : State) (k : Fin 2), (s.dev.prot.resets.get k).high = false) ∧
    (∃ (s : State) (k : Fin 2), (s.dev.prot.resets.get k).high = true) ∧
    (∃ (s : State) (k : Fin 2), s.dev.prot.armed = true ∧ (s.dev.prot.resets.get k).high = true ∧ (s.dev.prot.resets.get k).jammed = false ∧ 50000 ≤ s.dev.now - (s.dev.prot.resets.get k).riseAt ∧ s.dev.now - (s.dev.prot.resets.get k).riseAt ≤ 5000000) ∧
    (∃ (s : State) (k : Fin 2), s.dev.prot.armed = true ∧ (s.dev.prot.resets.get k).high = true ∧ (s.dev.prot.resets.get k).jammed = false ∧ s.dev.now - (s.dev.prot.resets.get k).riseAt < 50000) ∧
    (∃ (s : State) (k : Fin 2), (s.dev.prot.resets.get k).high = true ∧ s.dev.prot.armed = false ∨ (s.dev.prot.resets.get k).jammed = true ∨ 5000000 < s.dev.now - (s.dev.prot.resets.get k).riseAt) ∧
    (∃ (s : State) (k : Fin 2), (s.dev.prot.resets.get k).high = false) ∧
    (∃ (s : State) (k : Fin 2), s.dev.prot.armed = true ∧ (s.dev.prot.resets.get k).high = true ∧ (s.dev.prot.resets.get k).jammed = false ∧ (s.dev.prot.resets.get k).riseAt + 5000000 ≤ s.dev.now) ∧
    (∃ (s : State) (k : Fin 2), s.dev.prot.armed = false ∨ (s.dev.prot.resets.get k).high = false ∨ (s.dev.prot.resets.get k).jammed = true ∨ s.dev.now < (s.dev.prot.resets.get k).riseAt + 5000000) :=
  ⟨⟨guardian (fun d => d.setReg (Reg.prtAvCfg 2) 0x80640007) 5, 2, by decide⟩,
   ⟨guardian id 5, 2, by decide⟩,
   ⟨guardian (fun d => d.onPair 2 fun p => { p with state := .discrepancy }) 5, 2, by decide⟩,
   ⟨guardian (fun d => d.onPair 2 fun p => { p with state := .clear }) 5, 2, by decide⟩,
   ⟨guardian (fun d => d.onPair 2 fun p => { p with state := .clear }) 5, 2, true, false, by decide⟩,
   ⟨guardian (fun d => (d.setReg (Reg.prtAvCfg 2) 0x80640007).onPair 2 fun p => { p with state := .discrepancy, since := 0 }) 125000031, 2, by decide⟩,
   ⟨guardian id 5, 2, by decide⟩,
   ⟨guardian (fun d => (d.setReg (Reg.prtAvCfg 2) 0x80640007).onPair 2 fun p => { p with state := .clear, since := 0 }) 125000031, 2, by decide⟩,
   ⟨guardian id 5, 2, by decide⟩,
   ⟨guardian id 5, 1, by decide⟩,
   ⟨guardian (fun d => d.onReset 1 fun r => { r with high := true, riseAt := 0 }) 5, 1, by decide⟩,
   ⟨guardian (fun d => d.onReset 1 fun r => { r with high := true, riseAt := 0 }) 50000, 1, by decide⟩,
   ⟨guardian (fun d => d.onReset 1 fun r => { r with high := true, riseAt := 0 }) 49999, 1, by decide⟩,
   ⟨guardian (fun d => d.onReset 1 fun r => { r with high := true, riseAt := 0 }) 5000001, 1, by decide⟩,
   ⟨guardian id 5, 1, by decide⟩,
   ⟨guardian (fun d => d.onReset 1 fun r => { r with high := true, riseAt := 0 }) 5000000, 1, by decide⟩,
   ⟨guardian id 5, 1, by decide⟩⟩

theorem test_witness_SafetyNetwork :
    (∃ (s : State) (net : SafetyNet) (f : List Byte) (p : List Byte) (c : Fin 8) (l : BitVec 16), s.dev.prot.armed = true ∧ s.dev.netOn net = true ∧ pduIn f = some p ∧ pduValid p = true ∧ fieldBE p 1 1 = 1 ∧ s.dev.connOf (fieldBE (pduOf p) 2 4) = some c ∧ (s.dev.prot.conns.get c).isOpen = true ∧ (s.dev.prot.conns.get c).firsts = [] ∧ (s.dev.prot.conns.get c).lastSeq = some l ∧ BitVec.ofNat 16 (fieldBE (pduOf p) 6 2) = l + 1) ∧
    (∃ (s : State) (net : SafetyNet) (f : List Byte) (p : List Byte) (c : Fin 8) (l : BitVec 16), s.dev.prot.armed = true ∧ s.dev.netOn net = true ∧ pduIn f = some p ∧ pduValid p = true ∧ fieldBE p 1 1 = 2 ∧ s.dev.connOf (fieldBE (pduOf p) 2 4) = some c ∧ (s.dev.prot.conns.get c).isOpen = true ∧ (s.dev.prot.conns.get c).firsts = [] ∧ (s.dev.prot.conns.get c).lastSeq = some l ∧ BitVec.ofNat 16 (fieldBE (pduOf p) 6 2) = l + 1) ∧
    (∃ (s : State) (f : List Byte) (p : List Byte) (c : Fin 8) (t : Tick), s.dev.prot.armed = true ∧ s.dev.netOn .b = true ∧ pduIn f = some p ∧ pduValid p = true ∧ fieldBE p 1 1 = 1 ∧ s.dev.connOf (fieldBE (pduOf p) 2 4) = some c ∧ (s.dev.prot.conns.get c).isOpen = true ∧ (s.dev.prot.conns.get c).firsts = [{ net := .a, seq := BitVec.ofNat 16 (fieldBE (pduOf p) 6 2), pdu := pduOf p, at? := t }] ∧ s.dev.now ≤ t + 1000 * min (fieldBE (pduOf p) 8 2) (s.dev.field (Reg.prtSnRxCfg c) 0 16)) ∧
    (∃ (s : State) (f : List Byte) (p : List Byte) (q : List Byte) (c : Fin 8) (t : Tick), s.dev.prot.armed = true ∧ s.dev.netOn .b = true ∧ pduIn f = some p ∧ pduValid p = true ∧ fieldBE p 1 1 = 1 ∧ s.dev.connOf (fieldBE (pduOf p) 2 4) = some c ∧ (s.dev.prot.conns.get c).isOpen = true ∧ (s.dev.prot.conns.get c).firsts = [{ net := .a, seq := BitVec.ofNat 16 (fieldBE (pduOf p) 6 2), pdu := q, at? := t }] ∧ q ≠ pduOf p) ∧
    (∃ (s : State) (net : SafetyNet) (f : List Byte) (p : List Byte) (c : Fin 8) (t : Tick), s.dev.prot.armed = true ∧ s.dev.netOn net = true ∧ pduIn f = some p ∧ pduValid p = true ∧ fieldBE p 1 1 = 1 ∧ s.dev.connOf (fieldBE (pduOf p) 2 4) = some c ∧ (s.dev.prot.conns.get c).isOpen = true ∧ (s.dev.prot.conns.get c).firsts = [{ net := net, seq := BitVec.ofNat 16 (fieldBE (pduOf p) 6 2), pdu := pduOf p, at? := t }] ∨ ((s.dev.prot.conns.get c).firsts = [] ∧ (s.dev.prot.conns.get c).lastSeq = some (BitVec.ofNat 16 (fieldBE (pduOf p) 6 2)))) ∧
    (∃ (s : State) (net : SafetyNet) (f : List Byte) (p : List Byte) (c : Fin 8) (l : BitVec 16), s.dev.prot.armed = true ∧ s.dev.netOn net = true ∧ pduIn f = some p ∧ pduValid p = true ∧ fieldBE p 1 1 = 1 ∧ s.dev.connOf (fieldBE (pduOf p) 2 4) = some c ∧ (s.dev.prot.conns.get c).isOpen = true ∧ (s.dev.prot.conns.get c).firsts = [] ∧ (s.dev.prot.conns.get c).lastSeq = some l ∧ 8 < (BitVec.ofNat 16 (fieldBE (pduOf p) 6 2) - l).toNat) ∧
    (∃ (s : State) (net : SafetyNet) (f : List Byte) (p : List Byte), s.dev.prot.armed = true ∧ s.dev.netOn net = true ∧ pduIn f = some p ∧ pduValid p = true ∧ fieldBE p 1 1 = 1 ∧ s.dev.connOf (fieldBE (pduOf p) 2 4) = none) ∧
    (∃ (s : State) (net : SafetyNet) (f : List Byte) (k : Nat) (c : Instr), (k = 1 ∧ c = .snDataFrame net f) ∨ (k = 2 ∧ c = .snResetFrame net f) ∧ s.dev.prot.armed = false ∨ s.dev.netOn net = false ∨ ((pduIn f).map fun p => pduValid p && fieldBE p 1 1 == k) ≠ some true) ∧
    (∃ (s : State) (c : Fin 8) (f : FirstCopy), (s.dev.prot.conns.get c).isOpen = true ∧ (s.dev.prot.conns.get c).firsts = [f] ∧ f.at? + 1000 * s.dev.texpOf c f < s.dev.now) ∧
    (∃ (s : State) (c : Fin 8), (s.dev.prot.conns.get c).isOpen = false ∨ ((s.dev.prot.conns.get c).firsts.any fun f => decide (f.at? + 1000 * s.dev.texpOf c f < s.dev.now)) = false) ∧
    (∃ (s : State) (c : Fin 8), (s.dev.prot.conns.get c).isOpen = true ∧ (s.dev.prot.conns.get c).lastSeq.isSome = true ∧ (s.dev.prot.conns.get c).lastFirst + 1000 * (s.dev.prot.conns.get c).texp < s.dev.now ∧ (s.dev.prot.conns.get c).fault = false ∨ (s.dev.prot.conns.get c).faultAt ≤ (s.dev.prot.conns.get c).lastFirst) ∧
    (∃ (s : State) (c : Fin 8), (s.dev.prot.conns.get c).isOpen = false ∨ (s.dev.prot.conns.get c).lastSeq = none ∨ s.dev.now ≤ (s.dev.prot.conns.get c).lastFirst + 1000 * (s.dev.prot.conns.get c).texp) ∧
    (∃ (s : State) (c : Fin 8), (s.dev.prot.conns.get c).isOpen = true ∧ (s.dev.prot.conns.get c).gotPair = false ∧ (s.dev.prot.conns.get c).fault = false ∧ (s.dev.prot.conns.get c).openedAt + 5000000 < s.dev.now) ∧
    (∃ (s : State) (c : Fin 8), (s.dev.prot.conns.get c).isOpen = false ∨ (s.dev.prot.conns.get c).gotPair = true ∨ s.dev.now ≤ (s.dev.prot.conns.get c).openedAt + 5000000) ∧
    (∃ (s : State), s.dev.prot.armed = true ∧ s.dev.prot.bootMap = false ∧ s.dev.netOn .a = true ∧ s.dev.prot.txAt + 1000 * s.dev.settingField Reg.prtXSn 16 8 ≤ s.dev.now ∨ s.dev.prot.sigClosed ≠ s.dev.prot.txSig) ∧
    (∃ (s : State), s.dev.prot.armed = false ∨ s.dev.prot.bootMap = true ∨ (s.dev.netOn .a = false ∧ s.dev.netOn .b = false) ∨ (s.dev.now < s.dev.prot.txAt + 1000 * s.dev.settingField Reg.prtXSn 16 8 ∧ s.dev.prot.sigClosed = s.dev.prot.txSig)) :=
  ⟨⟨conn (fun c => { c with firsts := [], lastSeq := some 6 }) 5, .a, snFrm (snPdu 1 7 [0]), snPdu 1 7 [0], 2, 6, by decide +kernel⟩,
   ⟨conn (fun c => { c with firsts := [], lastSeq := some 6 }) 5, .a, snFrm (snPdu 2 7 [0, 3]), snPdu 2 7 [0, 3], 2, 6, by decide +kernel⟩,
   ⟨conn (fun c => { c with firsts := [{ net := .a, seq := 7, pdu := pduOf (snPdu 1 7 [0]), at? := 3 }] }) 5, snFrm (snPdu 1 7 [0]), snPdu 1 7 [0], 2, 3, by decide +kernel⟩,
   ⟨conn (fun c => { c with firsts := [{ net := .a, seq := 7, pdu := [], at? := 3 }] }) 5, snFrm (snPdu 1 7 [0]), snPdu 1 7 [0], [], 2, 3, by decide +kernel⟩,
   ⟨conn (fun c => { c with firsts := [], lastSeq := some 7 }) 5, .a, snFrm (snPdu 1 7 [0]), snPdu 1 7 [0], 2, 3, by decide +kernel⟩,
   ⟨conn (fun c => { c with firsts := [], lastSeq := some 70 }) 5, .a, snFrm (snPdu 1 7 [0]), snPdu 1 7 [0], 2, 70, by decide +kernel⟩,
   ⟨on (conn id 5) (fun d => d.setReg (Reg.prtSnRxId 2) 0x56), .a, snFrm (snPdu 1 7 [0]), snPdu 1 7 [0], by decide +kernel⟩,
   ⟨up awake, .a, [], 1, .snDataFrame .a [], by decide⟩,
   ⟨conn (fun c => { c with firsts := [{ net := .a, seq := 7, pdu := [], at? := 3 }] }) 50000000, 2, { net := .a, seq := 7, pdu := [], at? := 3 }, by decide +kernel⟩,
   ⟨conn id 5, 2, by decide +kernel⟩,
   ⟨conn (fun c => { c with lastSeq := some 5, lastFirst := 0, texp := 100 }) 100001, 2, by decide +kernel⟩,
   ⟨conn id 5, 2, by decide +kernel⟩,
   ⟨conn id 5000001, 2, by decide +kernel⟩,
   ⟨conn id 5, 2, by decide +kernel⟩,
   ⟨conn id 5000001, by decide +kernel⟩,
   ⟨up awake, by decide⟩⟩

theorem test_witness_TagRules :
    (∃ (s : State) (n : LinkId), (s.dev.link n).tag.pollAt + 1000 * s.dev.pollMs n ≤ s.dev.now ∧ s.dev.role n = .outlet ∧ s.dev.mode = .run ∨ s.dev.mode = .economy ∧ 1 ≤ s.dev.tagMode n ∧ s.dev.tagMode n ≤ 4 ∧ (s.dev.link n).veh.live = false ∧ (s.dev.link n).tag.request = none ∧ (s.dev.link n).tag.engine = none ∧ (s.dev.link n).tag.fieldOff = none ∧ (s.dev.link n).veh.state = .idle) ∧
    (∃ (s : State) (n : LinkId), (s.dev.link n).tag.pollAt + 1000 * s.dev.pollMs n ≤ s.dev.now ∧ s.dev.role n = .outlet ∧ s.dev.mode = .run ∨ s.dev.mode = .economy ∧ 1 ≤ s.dev.tagMode n ∧ s.dev.tagMode n ≤ 4 ∧ (s.dev.link n).veh.live = false ∧ (s.dev.link n).tag.request = none ∧ (s.dev.link n).tag.engine = none ∧ (s.dev.link n).tag.fieldOff = none ∧ (s.dev.link n).veh.state ∈ [.plugged, .matching, .setup, .authorizing] ∧ (s.dev.link n).veh.held = none) ∧
    (∃ (s : State) (n : LinkId), (s.dev.link n).tag.pollAt + 1000 * s.dev.pollMs n ≤ s.dev.now ∧ s.dev.role n ≠ .outlet ∨ (s.dev.mode ≠ .run ∧ s.dev.mode ≠ .economy) ∨ s.dev.tagMode n = 0 ∨ (s.dev.link n).veh.live = true ∨ (s.dev.link n).tag.request.isSome = true ∨ (s.dev.link n).tag.engine.isSome = true ∨ (s.dev.link n).tag.fieldOff.isSome = true) ∧
    (∃ (s : State) (n : LinkId), s.dev.now < (s.dev.link n).tag.pollAt + 1000 * s.dev.pollMs n) ∧
    (∃ (s : State) (x : Fin 24) (n : LinkId) (r : TagRequest), s.dev.engines.get x = none ∧ s.dev.firstRequest (uhfEngine x) = some (n, r) ∧ uhfEngine x = false ∨ s.dev.sec.rng = .healthy) ∧
    (∃ (s : State) (x : Fin 24), (s.dev.engines.get x).isSome = true ∨ s.dev.firstRequest (uhfEngine x) = none) ∧
    (∃ (s : State) (x : Fin 24) (t : TagTransaction) (us : List (List Byte)) (u : List Byte), s.dev.engines.get x = some t ∧ x.1 < 16 ∧ t.sendAt ≤ s.dev.now ∧ t.step = .anticollision ∧ lowestUid ((us.filter fun u => !((s.dev.link t.link).tag.halted.filter us.contains).contains u)) = some u) ∧
    (∃ (s : State) (x : Fin 24) (t : TagTransaction) (us : List (List Byte)), s.dev.engines.get x = some t ∧ x.1 < 16 ∧ t.sendAt ≤ s.dev.now ∧ t.step = .anticollision ∧ lowestUid ((us.filter fun u => !((s.dev.link t.link).tag.halted.filter us.contains).contains u)) = none) ∧
    (∃ (s : State) (x : Fin 24) (t : TagTransaction), s.dev.engines.get x = some t ∧ x.1 < 16 ∧ t.sendAt ≤ s.dev.now ∧ t.step = .anticollision) ∧
    (∃ (s : State) (x : Fin 24) (t : TagTransaction) (tn : BitVec 16), s.dev.engines.get x = some t ∧ x.1 < 16 ∧ t.sendAt ≤ s.dev.now ∧ t.step = .fci ∧ s.dev.configRefusal .card tn.toNat = none ∧ s.dev.sec.rng ≠ .failed ∧ s.dev.seeded tn.toNat = true) ∧
    (∃ (s : State) (x : Fin 24) (t : TagTransaction) (tn : BitVec 16) (code : Nat), s.dev.engines.get x = some t ∧ x.1 < 16 ∧ t.sendAt ≤ s.dev.now ∧ t.step = .fci ∧ s.dev.configRefusal .card tn.toNat = some code) ∧
    (∃ (s : State) (x : Fin 24) (t : TagTransaction), s.dev.engines.get x = some t ∧ 16 ≤ x.1 ∧ t.sendAt ≤ s.dev.now ∧ t.step = .round ∧ t.found = [] ∧ t.failed = []) ∧
    (∃ (s : State) (x : Fin 24), ((s.dev.engines.get x).map fun t => decide (t.sendAt ≤ s.dev.now) && decide (t.step ≠ .held) && decide (t.step ≠ .done)) ≠ some true) ∧
    (∃ (s : State) (x : Fin 24) (t : TagTransaction), s.dev.engines.get x = some t ∧ t.outcome = some .noCard) ∧
    (∃ (s : State) (x : Fin 24) (t : TagTransaction) (r : TagOutcome), s.dev.engines.get x = some t ∧ t.outcome = some r ∧ r ≠ .noCard) ∧
    (∃ (s : State) (x : Fin 24), (s.dev.engines.get x).bind TagTransaction.outcome = none) ∧
    (∃ (s : State) (x : Fin 24) (t : TagTransaction), s.dev.engines.get x = some t ∧ t.granted + 250000 ≤ s.dev.now) ∧
    (∃ (s : State) (x : Fin 24), ((s.dev.engines.get x).map fun t => decide (t.granted + 250000 ≤ s.dev.now)) ≠ some true) ∧
    (∃ (s : State) (n : LinkId) (r : TagRequest), (s.dev.link n).tag.request = some r ∧ r.cls = 2 ∧ r.admitted + 2000000 ≤ s.dev.now) ∧
    (∃ (s : State) (n : LinkId), ((s.dev.link n).tag.request.map fun r => decide (r.cls = 2 ∧ r.admitted + 2000000 ≤ s.dev.now)) ≠ some true) ∧
    (∃ (s : State) (n : LinkId) (t : Tick), (s.dev.link n).tag.fieldOff = some t ∧ t ≤ s.dev.now) ∧
    (∃ (s : State) (n : LinkId), ((s.dev.link n).tag.fieldOff.map fun t => decide (t ≤ s.dev.now)) ≠ some true) :=
  ⟨⟨on (car id 100000000) (fun d => d.setReg (Reg.tagLCfg 7) 1), 7, by decide⟩,
   ⟨on (car (fun v => { v with state := .authorizing }) 100000000) (fun d => d.setReg (Reg.tagLCfg 7) 1), 7, by decide⟩,
   ⟨car id 100000000, 7, by decide⟩,
   ⟨on (car id 5) (fun d => d.setReg Reg.tagXPoll 0x64064), 7, by decide⟩,
   ⟨on (car id 5) (fun d => d.onTag 7 fun x => { x with request := some { cls := 2, admitted := 0 } }), 3, 7, { cls := 2, admitted := 0 }, by decide +kernel⟩,
   ⟨car id 5, 3, by decide +kernel⟩,
   ⟨on (reading .anticollision none 5) (fun d => d.onTag 7 fun l => { l with halted := [[1, 2, 3, 4]] }), 3, tagRun .anticollision none, [[1, 2, 3, 4], [9, 9, 9, 9], [2, 2, 2, 2]], [2, 2, 2, 2], by decide⟩,
   ⟨on (reading .anticollision none 5) (fun d => d.onTag 7 fun l => { l with halted := [[1, 2, 3, 4]] }), 3, tagRun .anticollision none, [[1, 2, 3, 4]], by decide⟩,
   ⟨reading .anticollision none 5, 3, tagRun .anticollision none, by decide⟩,
   ⟨on (reading .fci none 5) (fun d => (d.setReg (Reg.tagTCfg 5) 0x8F000000).onTenant 5 fun t => { t with rootA := { t.rootA with seedOn := true }, activeB := false }), 3, tagRun .fci none, 5, by decide⟩,
   ⟨reading .fci none 5, 3, tagRun .fci none, 0x7777, 3, by decide⟩,
   ⟨on (car id 5) (fun d => d.onEngine 17 (some (tagRun .round none))), 17, tagRun .round none, by decide⟩,
   ⟨up awake, 3, by decide⟩,
   ⟨reading .done (some .noCard) 5, 3, tagRun .done (some .noCard), by decide⟩,
   ⟨reading .done (some .ambiguous) 5, 3, tagRun .done (some .ambiguous), .ambiguous, by decide⟩,
   ⟨up awake, 3, by decide⟩,
   ⟨reading .auth1 none 250000, 3, tagRun .auth1 none, by decide⟩,
   ⟨up awake, 3, by decide⟩,
   ⟨on (car id 2000000) (fun d => d.onTag 7 fun x => { x with request := some { cls := 2, admitted := 0 } }), 7, { cls := 2, admitted := 0 }, by decide⟩,
   ⟨up awake, 7, by decide⟩,
   ⟨on (car id 5) (fun d => d.onTag 7 fun x => { x with fieldOff := some 5 }), 7, 5, by decide⟩,
   ⟨up awake, 7, by decide⟩⟩

theorem test_witness_ServiceTagRules :
    (∃ (s : State), s.dev.svc.state = .noField ∧ s.dev.bit Reg.pwrWakeCfg 8 = false) ∧
    (∃ (s : State), s.dev.svc.state = .noField ∧ s.dev.bit Reg.pwrWakeCfg 8 = true ∧ s.dev.mode = .dormant ∧ s.dev.power.entering = false) ∧
    (∃ (s : State), s.dev.svc.state ≠ .noField) ∧
    (∃ (s : State), s.dev.svc.state ≠ .noField ∧ s.dev.svc.owner = .field) ∧
    (∃ (s : State), s.dev.svc.owner ≠ .field) ∧
    (∃ (s : State), s.dev.svc.state = .field ∨ s.dev.svc.state = .opened) ∧
    (∃ (s : State) (n : LinkId) (p : BitVec 16), s.dev.svc.state = .opened ∧ linkOfNat p.toNat = some n ∧ s.dev.recording = true) ∧
    (∃ (s : State) (p : BitVec 16), s.dev.svc.state = .opened ∧ p ≠ 0xFFFF ∧ linkOfNat p.toNat = none) ∧
    (∃ (s : State) (n : LinkId) (p : BitVec 16), s.dev.svc.state = .opened ∧ linkOfNat p.toNat = some n ∧ s.dev.recording = false) ∧
    (∃ (s : State) (i : Byte), s.dev.svc.state = .field ∨ s.dev.svc.state = .opened ∧ i.toNat ≤ 15) ∧
    (∃ (s : State) (i : Byte), s.dev.svc.state = .opened ∧ 15 < i.toNat) ∧
    (∃ (s : State), s.dev.svc.state = .opened ∧ s.dev.recording = true ∧ s.dev.svc.fails < 3 ∧ (s.dev.tenants.get 0).root.seedOn = true ∧ s.dev.sec.rng = .healthy) ∧
    (∃ (s : State), s.dev.svc.state = .opened ∧ s.dev.recording = true ∧ s.dev.svc.fails < 3 ∧ (s.dev.tenants.get 0).root.seedOn = true ∧ s.dev.sec.rng = .restarting ∨ s.dev.sec.rng = .startup) ∧
    (∃ (s : State), s.dev.svc.state = .opened ∧ 3 ≤ s.dev.svc.fails ∨ (s.dev.tenants.get 0).root.seedOn = false ∨ s.dev.sec.rng = .failed ∨ s.dev.recording = false) ∧
    (∃ (s : State) (rndB : List Byte), s.dev.svc.state = .opened ∧ s.dev.recording = true ∧ s.dev.svc.rndB = some rndB ∧ rndB.length = 16) ∧
    (∃ (s : State), s.dev.svc.state = .opened ∧ s.dev.svc.rndB = none ∨ s.dev.recording = false) ∧
    (∃ (s : State) (q : BitVec 64), s.dev.svc.state = .secured ∧ (s.dev.recorder.ring.find? fun x => x.entry.seq == q.toNat) = none) ∧
    (∃ (s : State) (q : BitVec 64), s.dev.svc.state = .secured ∧ (s.dev.recorder.ring.any fun x => x.entry.seq == q.toNat) = true) ∧
    (∃ (s : State), s.dev.svc.state = .secured) ∧
    (∃ (s : State), s.dev.svc.state = .opened) ∧
    (∃ (s : State) (p : BitVec 16) (i : Byte) (a : List Byte) (b : List Byte) (c : Instr), s.dev.svc.state = .secured ∧ c ∈ [.svcReadSummary p, .svcReadLastword i, .svcAuth1, .svcAuth2 a b]) ∧
    (∃ (s : State), s.dev.svc.state = .secured ∧ s.dev.svc.lastCmd + 60000000 ≤ s.dev.now) ∧
    (∃ (s : State), s.dev.svc.state ≠ .secured ∨ s.dev.now < s.dev.svc.lastCmd + 60000000) ∧
    (∃ (s : State) (p : BitVec 16) (i : Byte) (j : Byte) (a : List Byte) (b : List Byte) (q : BitVec 64) (ok : Bool) (c : Instr), s.dev.svc.state = .noField ∧ c ∈ [.svcReadSummary p, .svcReadLastword i, .svcAuth1, .svcAuth2 a b, .svcReadEvent q ok, .svcMbxAcquire, .svcMbxWrite i a ok, .svcMbxRead i j, .svcMbxPost i, .svcMbxRelease, .svcMbxCancel]) :=
  ⟨⟨on (svcAt id 5) (fun d => d.setReg Reg.pwrWakeCfg 0), by decide⟩,
   ⟨on (svcAt id 5) (fun d => { (d.setReg Reg.pwrWakeCfg 0x100) with power := { d.power with mode := .dormant } }), by decide⟩,
   ⟨svcAt (fun t => { t with state := .field }) 5, by decide⟩,
   ⟨svcAt (fun t => { t with state := .opened, owner := .field }) 5, by decide⟩,
   ⟨svcAt (fun t => { t with state := .opened }) 5, by decide⟩,
   ⟨svcAt (fun t => { t with state := .opened }) 5, by decide⟩,
   ⟨svcAt (fun t => { t with state := .opened }) 5, 7, 7, by decide⟩,
   ⟨svcAt (fun t => { t with state := .opened }) 5, 144, by decide⟩,
   ⟨on (svcAt (fun t => { t with state := .opened }) 5) (fun d => { d with power := { d.power with mode := .dormant } }), 7, 7, by decide⟩,
   ⟨svcAt (fun t => { t with state := .field }) 5, 15, by decide⟩,
   ⟨svcAt (fun t => { t with state := .opened }) 5, 16, by decide⟩,
   ⟨on (svcAt (fun t => { t with state := .opened }) 5) (fun d => (d.onTenant 0 fun t => { t with rootA := { t.rootA with seedOn := true }, activeB := false }).onSec fun x => { x with rng := .healthy }), by decide⟩,
   ⟨on (svcAt (fun t => { t with state := .opened }) 5) (fun d => (d.onTenant 0 fun t => { t with rootA := { t.rootA with seedOn := true }, activeB := false }).onSec fun x => { x with rng := .restarting }), by decide⟩,
   ⟨svcAt (fun t => { t with state := .opened, fails := 3 }) 5, by decide⟩,
   ⟨svcAt (fun t => { t with state := .opened, rndB := some (List.replicate 16 7) }) 5, List.replicate 16 7, by decide⟩,
   ⟨svcAt (fun t => { t with state := .opened }) 5, by decide⟩,
   ⟨svcAt (fun t => { t with state := .secured }) 5, 9, by decide⟩,
   ⟨on (svcAt (fun t => { t with state := .secured }) 5) (fun d => d.onRec fun r => { r with ring := [{ block := 0, place := 0, entry := someRecord }] }), 1, by decide⟩,
   ⟨svcAt (fun t => { t with state := .secured }) 5, by decide⟩,
   ⟨svcAt (fun t => { t with state := .opened }) 5, by decide⟩,
   ⟨svcAt (fun t => { t with state := .secured }) 5, 7, 3, [], [], .svcAuth1, by decide⟩,
   ⟨svcAt (fun t => { t with state := .secured, lastCmd := 0 }) 60000000, by decide⟩,
   ⟨up awake, by decide⟩,
   ⟨up awake, 7, 3, 4, [], [], 9, true, .svcAuth1, by decide⟩⟩

theorem test_witness_MailboxRules :
    (∃ (s : State), s.dev.svc.state = .opened ∧ s.dev.svc.owner = .none ∧ s.dev.svc.fill = .empty) ∧
    (∃ (s : State) (t : Tick), s.dev.svc.state = .opened ∧ s.dev.svc.owner = .wire ∧ s.dev.svc.fill = .empty ∧ s.dev.svc.acqAt = some t ∧ s.dev.now ≤ t + 30) ∧
    (∃ (s : State), s.dev.svc.state = .opened ∧ s.dev.svc.owner = .field ∨ s.dev.svc.fill ≠ .empty ∨ (s.dev.svc.owner = .wire ∧ (s.dev.svc.acqAt.map fun t => decide (s.dev.now ≤ t + 30)) ≠ some true)) ∧
    (∃ (s : State) (p : Byte) (data : List Byte), s.dev.svc.state = .opened ∧ s.dev.svc.owner = .field ∧ 4 * p.toNat + data.length ≤ 256 ∧ data.length ≤ 128) ∧
    (∃ (s : State), s.dev.svc.state = .opened ∧ s.dev.svc.owner ≠ .field) ∧
    (∃ (s : State) (p : Byte) (data : List Byte), s.dev.svc.state = .opened ∧ s.dev.svc.owner = .field ∧ 256 < 4 * p.toNat + data.length ∨ 128 < data.length) ∧
    (∃ (s : State), s.dev.svc.state = .secured) ∧
    (∃ (s : State) (p : Byte) (le : Byte), s.dev.svc.state = .opened ∧ 4 * p.toNat + le.toNat ≤ 256 ∧ le.toNat ≤ 128) ∧
    (∃ (s : State) (p : Byte) (le : Byte), s.dev.svc.state = .opened ∧ 256 < 4 * p.toNat + le.toNat ∨ 128 < le.toNat) ∧
    (∃ (s : State) (p : Byte), s.dev.svc.state = .opened ∧ s.dev.svc.owner = .field ∧ 1 ≤ p.toNat ∧ p.toNat ≤ 128) ∧
    (∃ (s : State) (p : Byte), s.dev.svc.state = .opened ∧ s.dev.svc.owner = .field ∧ p.toNat = 0 ∨ 128 < p.toNat) ∧
    (∃ (s : State), s.dev.svc.state = .opened ∧ s.dev.svc.owner ≠ .field) ∧
    (∃ (s : State), s.dev.svc.state = .opened ∧ s.dev.svc.fill = .forField) ∧
    (∃ (s : State), s.dev.svc.state = .opened ∧ s.dev.svc.fill ≠ .forField) ∧
    (∃ (s : State), s.dev.svc.state = .opened ∧ s.dev.svc.fill = .forWire) ∧
    (∃ (s : State), s.dev.svc.state = .opened ∧ s.dev.svc.fill ≠ .forWire) ∧
    (∃ (s : State), s.dev.recording = true ∧ s.dev.svc.owner = .none ∧ s.dev.svc.fill = .empty) ∧
    (∃ (s : State) (t : Tick), s.dev.recording = true ∧ s.dev.svc.owner = .field ∧ s.dev.svc.fill = .empty ∧ s.dev.svc.acqAt = some t ∧ s.dev.now ≤ t + 30) ∧
    (∃ (s : State) (l : BitVec 9), s.dev.recording = true ∧ s.dev.svc.owner = .wire ∧ 1 ≤ l.toNat ∧ l.toNat ≤ 255) ∧
    (∃ (s : State), s.dev.recording = true ∧ s.dev.svc.fill = .forWire) ∧
    (∃ (s : State), s.dev.recording = true ∧ s.dev.svc.fill = .forField) ∧
    (∃ (s : State), s.dev.recording = true ∧ s.dev.svc.owner = .wire) ∧
    (∃ (s : State) (i : Fin 64) (w : Word) (l : BitVec 9) (c : Instr), s.dev.recording = false ∨ (s.dev.svc.owner = .none ∧ s.dev.svc.fill ≠ .forWire ∧ s.dev.svc.fill ≠ .forField ∧ c ≠ .wireMbxAcquire) ∧ c ∈ [.wireMbxAcquire, .wireMbxPost l, .wireMbxRelease, .wireMbxCancel, .wireMbxDataWrite i w]) ∧
    (∃ (s : State), s.dev.svc.owner ≠ .wire) ∧
    (∃ (s : State) (t : Tick), s.dev.svc.owner = .wire ∧ s.dev.svc.acqAt = some t ∧ t + 1000000 ≤ s.dev.now) ∧
    (∃ (s : State), s.dev.svc.owner ≠ .wire ∨ (s.dev.svc.acqAt.map fun t => decide (t + 1000000 ≤ s.dev.now)) ≠ some true) ∧
    (∃ (s : State) (t : BitVec 10) (u : TenantId), s.dev.recording = true ∧ tenantOfNat t.toNat = some u ∧ u ∉ s.dev.locked) ∧
    (∃ (s : State) (t : BitVec 10), s.dev.recording = false ∨ ((tenantOfNat t.toNat).map fun u => decide (u ∈ s.dev.locked)) ≠ some false) :=
  ⟨⟨svcAt (fun t => { t with state := .opened }) 5, by decide⟩,
   ⟨svcAt (fun t => { t with state := .opened, owner := .wire, acqAt := some 5 }) 35, 5, by decide⟩,
   ⟨svcAt (fun t => { t with state := .opened, owner := .wire, acqAt := some 5 }) 36, by decide⟩,
   ⟨svcAt (fun t => { t with state := .opened, owner := .field }) 5, 1, [1, 2], by decide⟩,
   ⟨svcAt (fun t => { t with state := .opened, owner := .wire }) 5, by decide⟩,
   ⟨svcAt (fun t => { t with state := .opened, owner := .field }) 5, 64, [1, 2], by decide⟩,
   ⟨svcAt (fun t => { t with state := .secured }) 5, by decide⟩,
   ⟨svcAt (fun t => { t with state := .opened }) 5, 1, 8, by decide⟩,
   ⟨svcAt (fun t => { t with state := .opened }) 5, 1, 129, by decide⟩,
   ⟨svcAt (fun t => { t with state := .opened, owner := .field }) 5, 128, by decide⟩,
   ⟨svcAt (fun t => { t with state := .opened, owner := .field }) 5, 129, by decide⟩,
   ⟨svcAt (fun t => { t with state := .opened }) 5, by decide⟩,
   ⟨svcAt (fun t => { t with state := .opened, fill := .forField }) 5, by decide⟩,
   ⟨svcAt (fun t => { t with state := .opened }) 5, by decide⟩,
   ⟨svcAt (fun t => { t with state := .opened, fill := .forWire }) 5, by decide⟩,
   ⟨svcAt (fun t => { t with state := .opened }) 5, by decide⟩,
   ⟨svcAt id 5, by decide⟩,
   ⟨svcAt (fun t => { t with state := .opened, owner := .field, acqAt := some 5 }) 35, 5, by decide⟩,
   ⟨svcAt (fun t => { t with owner := .wire }) 5, 255, by decide⟩,
   ⟨svcAt (fun t => { t with fill := .forWire }) 5, by decide⟩,
   ⟨svcAt (fun t => { t with fill := .forField }) 5, by decide⟩,
   ⟨svcAt (fun t => { t with owner := .wire }) 5, by decide⟩,
   ⟨svcAt id 5, 63, 9, 8, .wireMbxRelease, by decide⟩,
   ⟨svcAt id 5, by decide⟩,
   ⟨svcAt (fun t => { t with owner := .wire, acqAt := some 5 }) 1000005, 5, by decide⟩,
   ⟨svcAt id 5, by decide⟩,
   ⟨svcAt id 5, 4, 4, by decide⟩,
   ⟨up id, 4, by decide⟩⟩

theorem test_witness_SecurityCommands :
    (∃ (s : State), s.dev.recording = true ∧ s.dev.sec.cmdBusy = false ∧ s.dev.bit Reg.secCfg 0 = true ∧ s.dev.sec.rng ≠ .failed) ∧
    (∃ (s : State), s.dev.recording = true ∧ s.dev.sec.cmdBusy = false ∧ s.dev.bit Reg.secCfg 0 = false) ∧
    (∃ (s : State), s.dev.recording = true ∧ s.dev.sec.cmdBusy = false ∧ s.dev.bit Reg.secCfg 0 = true ∧ s.dev.sec.rng = .failed) ∧
    (∃ (s : State), s.dev.recording = true ∧ s.dev.sec.cmdBusy = false ∧ s.dev.sec.rng ≠ .failed) ∧
    (∃ (s : State), s.dev.recording = true ∧ s.dev.sec.cmdBusy = false ∧ s.dev.sec.rng = .failed) ∧
    (∃ (s : State), s.dev.mode = .maintenance ∧ s.dev.bill.sealOpen = true ∧ s.dev.sec.cmdBusy = false ∧ s.dev.sec.rng = .healthy) ∧
    (∃ (s : State), s.dev.mode = .maintenance ∧ s.dev.bill.sealOpen = true ∧ s.dev.sec.cmdBusy = false ∧ s.dev.sec.rng = .restarting ∨ s.dev.sec.rng = .startup) ∧
    (∃ (s : State), s.dev.mode = .maintenance ∧ s.dev.bill.sealOpen = true ∧ s.dev.sec.cmdBusy = false ∧ s.dev.sec.rng = .failed) ∧
    (∃ (s : State), s.dev.recording = true ∧ s.dev.mode ≠ .maintenance ∨ s.dev.bill.sealOpen = false ∧ s.dev.sec.violArmed = true) ∧
    (∃ (s : State), s.dev.recording = true ∧ s.dev.sec.cmdBusy = false ∧ s.dev.sec.rng = .failed) ∧
    (∃ (s : State), s.dev.recording = true ∧ s.dev.sec.cmdBusy = false ∧ s.dev.sec.rng ≠ .failed) ∧
    (∃ (s : State), s.dev.recording = true ∧ s.dev.sec.cmdBusy = false) ∧
    (∃ (s : State) (l : BitVec 13) (c : Instr), s.dev.recording = true ∧ s.dev.sec.cmdBusy = true ∧ c ∈ [.enrolHe, .enrolVendor, .rngRestart, .loadChain l]) ∧
    (∃ (s : State) (c : Fin 4) (w : Word), s.dev.recording = true ∧ bitOf w 31 = true ∧ (s.dev.sec.slots.get c).state ≠ 1) ∧
    (∃ (s : State) (c : Fin 4) (w : Word), bitOf w 31 = false ∨ (s.dev.sec.slots.get c).state = 1) ∧
    (∃ (s : State), s.dev.recording = true ∧ s.dev.sec.attBusy = false) ∧
    (∃ (s : State), s.dev.sec.attBusy = true) ∧
    (∃ (s : State), s.dev.recording = true) ∧
    (∃ (s : State), s.dev.recording = true) ∧
    (∃ (s : State) (l : BitVec 13) (k : Fin 4) (w : Word) (c : Instr), s.dev.recording = false ∧ c ∈ [.enrolHe, .enrolVendor, .rotateRoot, .rngRestart, .loadChain l, .objectSubmit k w, .attestationStart, .violCauseRead, .waitMaxWrite w]) :=
  ⟨⟨on (secure id 5) (fun d => d.setReg Reg.secCfg 1), by decide⟩,
   ⟨on (secure id 5) (fun d => d.setReg Reg.secCfg 0), by decide⟩,
   ⟨on (secure (fun x => { x with rng := .failed }) 5) (fun d => d.setReg Reg.secCfg 1), by decide⟩,
   ⟨secure id 5, by decide⟩,
   ⟨secure (fun x => { x with rng := .failed }) 5, by decide⟩,
   ⟨on (secure (fun x => { x with rng := .healthy }) 5) (fun d => { d with power := { d.power with mode := .maintenance }, bill := { d.bill with sealState := .opened } }), by decide⟩,
   ⟨on (secure (fun x => { x with rng := .restarting }) 5) (fun d => { d with power := { d.power with mode := .maintenance }, bill := { d.bill with sealState := .opened } }), by decide⟩,
   ⟨on (secure (fun x => { x with rng := .failed }) 5) (fun d => { d with power := { d.power with mode := .maintenance }, bill := { d.bill with sealState := .opened } }), by decide⟩,
   ⟨secure (fun x => { x with violArmed := true }) 5, by decide⟩,
   ⟨secure (fun x => { x with rng := .failed }) 5, by decide⟩,
   ⟨secure id 5, by decide⟩,
   ⟨secure id 5, by decide⟩,
   ⟨secure (fun x => { x with cmdBusy := true }) 5, 9, .enrolHe, by decide⟩,
   ⟨secure id 5, 2, 0x80000008, by decide⟩,
   ⟨secure id 5, 2, 8, by decide⟩,
   ⟨secure id 5, by decide⟩,
   ⟨secure (fun x => { x with attBusy := true }) 5, by decide⟩,
   ⟨secure id 5, by decide⟩,
   ⟨secure id 5, by decide⟩,
   ⟨State.reset, 9, 2, 0, .enrolHe, by decide⟩⟩

theorem test_witness_CryptoPoolRules :
    (∃ (s : State) (x : Fin 32) (r : CryptoReq), s.dev.sec.sym.get x = some r ∧ r.cancelled = false ∧ r.use = .svcStep ∧ r.advance.ops = [] ∧ s.dev.sec.queue = [] ∧ s.dev.sec.outside = []) ∧
    (∃ (s : State) (x : Fin 32) (r : CryptoReq), s.dev.sec.sym.get x = some r ∧ r.cancelled = false ∧ r.advance.ops ≠ []) ∧
    (∃ (s : State) (x : Fin 32) (r : CryptoReq), s.dev.sec.sym.get x = some r ∧ r.cancelled = true ∧ s.dev.sec.queue = [] ∧ s.dev.sec.outside = []) ∧
    (∃ (s : State) (x : Fin 32), s.dev.sec.sym.get x = none) ∧
    (∃ (s : State) (x : CryptoDue), s.dev.nextResult = some x ∧ x.use = .attestHost) ∧
    (∃ (s : State) (x : CryptoDue) (t : TenantId), s.dev.nextResult = some x ∧ x.use = .rootTest t) ∧
    (∃ (s : State), s.dev.nextResult = none) ∧
    (∃ (s : State) (x : CryptoDue), (s.dev.sec.dues.find? fun y => decide (y.at? ≤ s.dev.now) && !y.overrun && s.dev.sec.working y.use) = some x ∧ s.dev.pacer.vcoreMargin = false) ∧
    (∃ (s : State) (x : CryptoDue), (s.dev.sec.dues.find? fun y => decide (y.at? ≤ s.dev.now) && !y.overrun && s.dev.sec.working y.use) = some x ∧ s.dev.pacer.vcoreMargin = true ∧ s.dev.prot.armed = true) ∧
    (∃ (s : State), (s.dev.sec.dues.find? fun y => decide (y.at? ≤ s.dev.now) && !y.overrun && s.dev.sec.working y.use).isNone = true) ∧
    (∃ (s : State) (p : ObjectPath), s.dev.resultReady (.object p) = true) ∧
    (∃ (s : State) (p : ObjectPath), s.dev.resultReady (.object p) = false) ∧
    (∃ (s : State), s.dev.sec.rng = .healthy ∧ s.dev.sec.rngFails = 0) ∧
    (∃ (s : State), s.dev.sec.rng = .restarting ∨ s.dev.sec.rng = .startup ∧ s.dev.sec.rngFails < 2) ∧
    (∃ (s : State), s.dev.sec.rng = .restarting ∨ s.dev.sec.rng = .startup ∧ 2 ≤ s.dev.sec.rngFails) ∧
    (∃ (s : State), s.dev.sec.rng = .failed) ∧
    (∃ (s : State), s.dev.sec.rng = .startup ∨ s.dev.sec.rng = .restarting ∧ s.dev.sec.cmdBusy = false ∧ s.dev.sec.rngWaits = []) ∧
    (∃ (s : State), s.dev.sec.rng = .failed ∧ s.dev.sec.cmdBusy = true ∧ s.dev.sec.cmd = 4) ∧
    (∃ (s : State), s.dev.sec.rng = .failed ∧ s.dev.sec.cmdBusy = true ∧ s.dev.sec.cmd = 4) ∧
    (∃ (s : State), s.dev.sec.rng = .startup ∨ s.dev.sec.rng = .restarting ∧ s.dev.sec.rngFails < 2) ∧
    (∃ (s : State), s.dev.sec.rng = .startup ∨ s.dev.sec.rng = .restarting ∧ 2 ≤ s.dev.sec.rngFails) ∧
    (∃ (s : State), s.dev.sec.rng = .healthy ∨ (s.dev.sec.rng = .failed ∧ (s.dev.sec.cmdBusy = false ∨ s.dev.sec.cmd ≠ 4))) ∧
    (∃ (s : State), s.dev.sec.rng = .healthy ∧ 65536 ≤ s.dev.sec.rngGen ∨ s.dev.sec.rngSeedAt + 60000000 ≤ s.dev.now) ∧
    (∃ (s : State), s.dev.sec.rng ≠ .healthy ∨ (s.dev.sec.rngGen < 65536 ∧ s.dev.now < s.dev.sec.rngSeedAt + 60000000)) :=
  ⟨⟨secure (fun c => { c with sym := c.sym.set 3 (some (work .svcStep .sym 1 false)) }) 5, 3, work .svcStep .sym 1 false, by decide⟩,
   ⟨secure (fun c => { c with sym := c.sym.set 3 (some (work .svcStep .sym 2 false)) }) 5, 3, work .svcStep .sym 2 false, by decide⟩,
   ⟨secure (fun c => { c with sym := c.sym.set 3 (some (work .svcStep .sym 2 true)) }) 5, 3, work .svcStep .sym 2 true, by decide⟩,
   ⟨secure id 5, 3, by decide⟩,
   ⟨secure (fun c => { c with dues := [{ use := .attestHost, at? := 5, rank := 640, overrun := false }] }) 5, { use := .attestHost, at? := 5, rank := 640, overrun := false }, by decide⟩,
   ⟨secure (fun c => { c with dues := [{ use := .rootTest 4, at? := 5, rank := 640, overrun := false }] }) 5, { use := .rootTest 4, at? := 5, rank := 640, overrun := false }, 4, by decide⟩,
   ⟨secure id 5, by decide⟩,
   ⟨on (secure (fun c => { c with dues := [{ use := .attestHost, at? := 5, rank := 640, overrun := false }], queue := [work .attestHost .asym 1 false] }) 5) (fun d => { d with pacer := { d.pacer with vcoreMargin := false } }), { use := .attestHost, at? := 5, rank := 640, overrun := false }, by decide⟩,
   ⟨on (on (secure (fun c => { c with dues := [{ use := .attestHost, at? := 5, rank := 640, overrun := false }], queue := [work .attestHost .asym 1 false] }) 5) (fun d => { d with pacer := { d.pacer with vcoreMargin := true } })) (fun d => { d with prot := { d.prot with armed := true } }), { use := .attestHost, at? := 5, rank := 640, overrun := false }, by decide⟩,
   ⟨secure id 5, by decide⟩,
   ⟨secure (fun c => { c with dues := [{ use := .object (.slot 2), at? := 5, rank := 640, overrun := false }] }) 5, .slot 2, by decide⟩,
   ⟨secure id 5, .slot 2, by decide⟩,
   ⟨secure (fun x => { x with rng := .healthy }) 5, by decide⟩,
   ⟨secure (fun x => { x with rng := .restarting, rngFails := 1 }) 5, by decide⟩,
   ⟨secure (fun x => { x with rng := .restarting, rngFails := 2 }) 5, by decide⟩,
   ⟨secure (fun x => { x with rng := .failed }) 5, by decide⟩,
   ⟨secure (fun x => { x with rng := .restarting, cmdBusy := false }) 5, by decide⟩,
   ⟨secure (fun x => { x with rng := .failed, cmdBusy := true, cmd := 4 }) 5, by decide⟩,
   ⟨secure (fun x => { x with rng := .failed, cmdBusy := true, cmd := 4 }) 5, by decide⟩,
   ⟨secure (fun x => { x with rng := .startup, rngFails := 1 }) 5, by decide⟩,
   ⟨secure (fun x => { x with rng := .startup, rngFails := 2 }) 5, by decide⟩,
   ⟨secure (fun x => { x with rng := .healthy }) 5, by decide⟩,
   ⟨secure (fun x => { x with rng := .healthy, rngSeedAt := 0 }) 60000000, by decide⟩,
   ⟨secure id 5, by decide⟩⟩

theorem test_witness_GridRules :
    (∃ (s : State), s.dev.grid.state = .listen ∧ s.dev.grid.cycle0 + 256 ≤ s.dev.grid.cycle) ∧
    (∃ (s : State), s.dev.grid.state = .member ∧ s.dev.grid.cycle0 + 256 ≤ s.dev.grid.cycle) ∧
    (∃ (s : State), s.dev.grid.state = .guarding ∧ s.dev.grid.cycle0 + 256 ≤ s.dev.grid.cycle) ∧
    (∃ (s : State), s.dev.grid.state = .coordinator ∧ s.dev.grid.disc = none ∧ s.dev.grid.cycle0 + 256 ≤ s.dev.grid.cycle) ∧
    (∃ (s : State), s.dev.grid.state = .off ∨ s.dev.grid.state = .noMains ∨ s.dev.grid.cycle < s.dev.grid.cycle0 + 256) ∧
    (∃ (s : State) (b : Beacon) (x : BeaconBits), s.dev.grid.state = .listen ∨ s.dev.grid.state = .member ∨ ((s.dev.grid.state = .guarding ∨ s.dev.grid.state = .coordinator) ∧ s.dev.grid.yielding = true) ∧ s.dev.readBeacon b = some x) ∧
    (∃ (s : State) (b : Beacon) (x : BeaconBits), s.dev.grid.state = .guarding ∨ s.dev.grid.state = .coordinator ∧ s.dev.grid.yielding = false ∧ s.dev.grid.election = none ∧ s.dev.readBeacon b = some x) ∧
    (∃ (s : State) (b : Beacon), s.dev.readBeacon b = none) ∧
    (∃ (s : State), s.dev.grid.state = .off ∨ s.dev.grid.state = .noMains) ∧
    (∃ (s : State) (x : Election), s.dev.grid.election = some x ∧ 8 ≤ x.since) ∧
    (∃ (s : State), (s.dev.grid.election.map fun x => decide (8 ≤ x.since)) ≠ some true) ∧
    (∃ (s : State), s.dev.grid.state = .listen ∧ s.dev.txOk = true ∧ s.dev.listenN ≤ s.dev.grid.quiet) ∧
    (∃ (s : State), s.dev.grid.state ≠ .listen ∨ s.dev.txOk = false ∨ s.dev.grid.quiet < s.dev.listenN) ∧
    (∃ (s : State), s.dev.grid.state = .member ∧ s.dev.lossN ≤ s.dev.grid.quiet) ∧
    (∃ (s : State), s.dev.grid.state ≠ .member ∨ s.dev.grid.quiet < s.dev.lossN) ∧
    (∃ (s : State), s.dev.grid.state = .guarding ∧ 48 ≤ s.dev.grid.count.1 ∧ s.dev.grid.yielding = false) ∧
    (∃ (s : State), s.dev.grid.state ≠ .guarding ∨ s.dev.grid.count.1 < 48 ∨ s.dev.grid.yielding = true) ∧
    (∃ (s : State), s.dev.grid.state = .coordinator ∧ s.dev.grid.disc = none ∧ s.dev.grid.yielding = false ∧ s.dev.grid.discDue = 0) ∧
    (∃ (s : State), s.dev.grid.state ≠ .coordinator ∨ s.dev.grid.disc.isSome = true ∨ s.dev.grid.yielding = true ∨ s.dev.grid.discDue ≠ 0) ∧
    (∃ (s : State) (a : DiscAnswer) (r : Fin 24) (m : BitVec 12) (xs : List Decision) (node : BitVec 48), s.dev.grid.disc = some r ∧ s.dev.grid.owner = 0xFF ∧ s.dev.findSync a.sync = m ∧ s.dev.decideCells m a.cells.toList = xs ∧ mapWhole m = true ∧ cellField xs 0 48 = node.toNat ∧ cellField xs 48 16 = discCrc node ∧ s.dev.grid.state = .coordinator → discSlot node r.1 = a.slot.1) ∧
    (∃ (s : State) (a : DiscAnswer) (r : Fin 24) (m : BitVec 12) (xs : List Decision), s.dev.grid.disc = some r ∧ s.dev.grid.owner = 0xFF ∧ s.dev.findSync a.sync = m ∧ s.dev.decideCells m a.cells.toList = xs ∧ mapWhole m = false ∨ cellField xs 48 16 ≠ discCrc (BitVec.ofNat 48 (cellField xs 0 48)) ∨ (s.dev.grid.state = .coordinator ∧ discSlot (BitVec.ofNat 48 (cellField xs 0 48)) r.1 ≠ a.slot.1)) ∧
    (∃ (s : State), s.dev.grid.disc = none ∨ s.dev.grid.owner ≠ 0xFF) ∧
    (∃ (s : State), s.dev.recording = true ∧ s.dev.grid.state = .coordinator ∧ s.dev.grid.disc = none ∧ s.dev.grid.yielding = false) ∧
    (∃ (s : State), s.dev.recording = true ∧ s.dev.grid.state ≠ .coordinator ∨ s.dev.grid.disc.isSome = true ∨ s.dev.grid.yielding = true) ∧
    (∃ (s : State), s.dev.recording = true ∧ s.dev.grid.state.runs = true) ∧
    (∃ (s : State), s.dev.recording = true ∧ s.dev.grid.state.runs = false) ∧
    (∃ (s : State) (c : Instr), s.dev.recording = false ∧ c ∈ [.grdDiscover, .grdRestart]) :=
  ⟨⟨gridAt (fun g => { g with state := .listen, cycle := 256 }) 5, by decide⟩,
   ⟨gridAt (fun g => { g with state := .member, count := 119, cycle := 256 }) 5, by decide⟩,
   ⟨gridAt (fun g => { g with state := .guarding, count := 3, cycle := 256 }) 5, by decide⟩,
   ⟨gridAt (fun g => { g with state := .coordinator, count := 3, cycle := 256 }) 5, by decide⟩,
   ⟨gridAt id 5, by decide⟩,
   ⟨gridAt (fun g => { g with state := .listen }) 5, gridBeacon 1 3 0 0 9, { prio := 1, count := 3, nodePart := 0, owner := 0, cycle := 9, map := 0x321 }, by decide +kernel⟩,
   ⟨gridAt (fun g => { g with state := .guarding }) 5, gridBeacon 1 3 0 0 9, { prio := 1, count := 3, nodePart := 0, owner := 0, cycle := 9, map := 0x321 }, by decide +kernel⟩,
   ⟨gridAt (fun g => { g with state := .listen }) 5, { gridBeacon 1 3 0 0 9 with cells := Vector.replicate 42 [3] }, by decide +kernel⟩,
   ⟨gridAt id 5, by decide⟩,
   ⟨gridAt (fun g => { g with state := .coordinator, election := some { prio := 1, part0 := none, part1 := none, part2 := none, since := 8, resume := .guarding, silent := false } }) 5, { prio := 1, part0 := none, part1 := none, part2 := none, since := 8, resume := .guarding, silent := false }, by decide⟩,
   ⟨gridAt id 5, by decide⟩,
   ⟨on (car id 5) (fun d => { (d.setReg Reg.grdCfg 0x40070000) with grid := { d.grid with state := .listen, quiet := 500, grdA := 1 } }), by decide⟩,
   ⟨gridAt id 5, by decide⟩,
   ⟨gridAt (fun g => { g with state := .member, quiet := 500 }) 5, by decide⟩,
   ⟨gridAt id 5, by decide⟩,
   ⟨gridAt (fun g => { g with state := .guarding, count := 48 }) 5, by decide⟩,
   ⟨gridAt id 5, by decide⟩,
   ⟨gridAt (fun g => { g with state := .coordinator, discDue := 0 }) 5, by decide⟩,
   ⟨gridAt id 5, by decide⟩,
   ⟨gridAt (fun g => { g with state := .coordinator, disc := some 0, owner := 0xFF }) 5, gridAnswer 1 5, 0, 0x321, (gridAt id 0).dev.decideCells 0x321 (gridAnswer 1 5).cells.toList, 5, by decide +kernel⟩,
   ⟨gridAt (fun g => { g with state := .coordinator, disc := some 0, owner := 0xFF }) 5, gridAnswer 2 5, 0, 0x321, (gridAt id 0).dev.decideCells 0x321 (gridAnswer 2 5).cells.toList, by decide +kernel⟩,
   ⟨gridAt id 5, by decide⟩,
   ⟨gridAt (fun g => { g with state := .coordinator, discDue := 3 }) 5, by decide⟩,
   ⟨gridAt id 5, by decide⟩,
   ⟨gridAt (fun g => { g with state := .coordinator, discDue := 3 }) 5, by decide⟩,
   ⟨gridAt id 5, by decide⟩,
   ⟨State.reset, .grdRestart, by decide⟩⟩

theorem test_witness_GridMessages :
    (∃ (s : State) (n : Fin 32) (g : Segment) (h : Nat) (p : List Byte) (xs : List Decision), s.dev.grid.state.runs = true ∧ s.dev.grid.sender = some n ∧ s.dev.decideCells (s.dev.grid.mapOf n) g.toList = xs ∧ cellField xs 0 16 = h ∧ (List.range 37).map (fun i => BitVec.ofNat 8 (cellField xs (16 + 8 * i) 8)) = p ∧ cellField xs 312 16 = crc16 (bytesBE 2 h ++ p) ∧ (s.dev.grid.msgs.find? fun m => m.sender == n && !m.done) = none ∧ h / 2 ^ 13 = 1 ∧ h / 4 % 128 = 0) ∧
    (∃ (s : State) (n : Fin 32) (g : Segment) (h : Nat) (p : List Byte) (xs : List Decision) (m : GridMsg), s.dev.grid.state.runs = true ∧ s.dev.grid.sender = some n ∧ s.dev.decideCells (s.dev.grid.mapOf n) g.toList = xs ∧ cellField xs 0 16 = h ∧ (List.range 37).map (fun i => BitVec.ofNat 8 (cellField xs (16 + 8 * i) 8)) = p ∧ cellField xs 312 16 = crc16 (bytesBE 2 h ++ p) ∧ s.dev.grid.msgs = [m] ∧ m.sender = n ∧ m.done = false ∧ m.msg = BitVec.ofNat 4 (h / 2 ^ 9) ∧ m.next = h / 4 % 128 ∧ m.kind = 1) ∧
    (∃ (s : State) (n : Fin 32) (g : Segment) (h : Nat) (p : List Byte) (xs : List Decision) (m : GridMsg), s.dev.grid.state.runs = true ∧ s.dev.grid.sender = some n ∧ s.dev.decideCells (s.dev.grid.mapOf n) g.toList = xs ∧ cellField xs 0 16 = h ∧ (List.range 37).map (fun i => BitVec.ofNat 8 (cellField xs (16 + 8 * i) 8)) = p ∧ cellField xs 312 16 = crc16 (bytesBE 2 h ++ p) ∧ s.dev.grid.msgs = [m] ∧ m.sender = n ∧ m.done = false ∧ m.msg ≠ BitVec.ofNat 4 (h / 2 ^ 9) ∨ m.next ≠ h / 4 % 128 ∧ h / 4 % 128 ≠ 0) ∧
    (∃ (s : State) (n : Fin 32) (g : Segment) (h : Nat) (p : List Byte) (xs : List Decision) (m : GridMsg), s.dev.grid.state.runs = true ∧ s.dev.grid.sender = some n ∧ s.dev.decideCells (s.dev.grid.mapOf n) g.toList = xs ∧ cellField xs 0 16 = h ∧ (List.range 37).map (fun i => BitVec.ofNat 8 (cellField xs (16 + 8 * i) 8)) = p ∧ cellField xs 312 16 ≠ crc16 (bytesBE 2 h ++ p) ∧ s.dev.grid.msgs = [m] ∧ m.sender = n ∧ m.done = false) ∧
    (∃ (s : State), s.dev.grid.state.runs = false ∨ s.dev.grid.sender = none) ∧
    (∃ (s : State) (m : GridMsg), s.dev.grid.msgs = [m] ∧ m.done = false ∧ 64 ≤ m.idle) ∧
    (∃ (s : State) (n : Fin 32), ((s.dev.grid.msgs.find? fun m => m.sender == n && !m.done).map fun m => decide (64 ≤ m.idle)) ≠ some true) ∧
    (∃ (s : State) (n : Fin 32) (m : GridMsg), s.dev.gridDone n 1 = some m ∧ s.dev.sec.gridObj = none) ∧
    (∃ (s : State) (n : Fin 32), s.dev.gridDone n 1 = none ∨ s.dev.sec.gridObj.isSome = true) ∧
    (∃ (s : State) (n : Fin 32) (m : GridMsg), s.dev.gridDone n 2 = some m ∧ s.dev.upd.gridPieces.length < 4) ∧
    (∃ (s : State) (n : Fin 32) (m : GridMsg), s.dev.gridDone n 2 = some m ∧ 4 ≤ s.dev.upd.gridPieces.length) ∧
    (∃ (s : State) (n : Fin 32) (m : GridMsg), s.dev.gridDone n 3 = some m ∧ s.dev.txOk = true ∧ s.dev.sec.gridChal = none ∧ s.dev.grid.tx = []) ∧
    (∃ (s : State) (n : Fin 32) (m : GridMsg), s.dev.gridDone n 3 = some m ∧ s.dev.txOk = false) ∧
    (∃ (s : State) (n : Fin 32) (m : GridMsg), s.dev.gridDone n 5 = some m ∧ s.dev.grid.state = .member ∧ 1 ≤ fieldBE m.bytes 0 1 ∧ fieldBE m.bytes 0 1 ≤ 32 ∧ 1 + 6 * fieldBE m.bytes 0 1 ≤ m.bytes.length) ∧
    (∃ (s : State) (n : Fin 32) (m : GridMsg), s.dev.gridDone n 5 = some m ∧ s.dev.grid.state ≠ .member ∨ fieldBE m.bytes 0 1 = 0 ∨ 32 < fieldBE m.bytes 0 1 ∨ m.bytes.length < 1 + 6 * fieldBE m.bytes 0 1) ∧
    (∃ (s : State) (n : Fin 32) (k : Nat) (c : Instr), (k = 1 ∧ c = .gridObjectRx n) ∨ (k = 2 ∧ c = .gridPieceRx n) ∨ (k = 3 ∧ c = .gridChallengeRx n) ∨ (k = 5 ∧ c = .gridTableRx n) ∧ s.dev.gridDone n k = none) :=
  ⟨⟨gridAt (fun g => { g with state := .member, owner := 4, nbs := g.nbs.set 4 { Neighbour.reset with valid := true, map := 0x321 } }) 5, 4, gridSeg 0x2400 [7], 0x2400, padTo 37 [7], (gridAt id 0).dev.decideCells 0x321 (gridSeg 0x2400 [7]).toList, by decide +kernel⟩,
   ⟨gridAt (fun g => { g with state := .member, owner := 4, nbs := g.nbs.set 4 { Neighbour.reset with valid := true, map := 0x321 }, msgs := [gridMsg 1 [] false] }) 5, 4, gridSeg 0x2406 [7], 0x2406, padTo 37 [7], (gridAt id 0).dev.decideCells 0x321 (gridSeg 0x2406 [7]).toList, gridMsg 1 [] false, by decide +kernel⟩,
   ⟨gridAt (fun g => { g with state := .member, owner := 4, nbs := g.nbs.set 4 { Neighbour.reset with valid := true, map := 0x321 }, msgs := [gridMsg 1 [] false] }) 5, 4, gridSeg 0x2416 [7], 0x2416, padTo 37 [7], (gridAt id 0).dev.decideCells 0x321 (gridSeg 0x2416 [7]).toList, gridMsg 1 [] false, by decide +kernel⟩,
   ⟨gridAt (fun g => { g with state := .member, owner := 4, nbs := g.nbs.set 4 { Neighbour.reset with valid := true, map := 0x321 }, msgs := [gridMsg 1 [] false] }) 5, 4, Vector.replicate 328 [-3], 0, padTo 37 [], (gridAt id 0).dev.decideCells 0x321 (List.replicate 328 [-3]), gridMsg 1 [] false, by decide +kernel⟩,
   ⟨gridAt id 5, by decide⟩,
   ⟨gridAt (fun g => { g with state := .member, msgs := [gridMsg 1 [] false] }) 5, gridMsg 1 [] false, by decide⟩,
   ⟨gridAt id 5, 4, by decide⟩,
   ⟨gridAt (fun g => { g with state := .member, msgs := [gridMsg 1 [] true] }) 5, 4, gridMsg 1 [] true, by decide⟩,
   ⟨gridAt id 5, 4, by decide⟩,
   ⟨gridAt (fun g => { g with state := .member, msgs := [gridMsg 2 [] true] }) 5, 4, gridMsg 2 [] true, by decide⟩,
   ⟨on (gridAt (fun g => { g with state := .member, msgs := [gridMsg 2 [] true] }) 5) (fun d => d.onUpd fun u => { u with gridPieces := List.replicate 4 { index := 0, data := [], tag := [] } }), 4, gridMsg 2 [] true, by decide⟩,
   ⟨on (car id 5) (fun d => { (d.setReg Reg.grdCfg 0x40070000) with grid := { d.grid with state := .member, grdA := 1, msgs := [gridMsg 3 [] true] } }), 4, gridMsg 3 [] true, by decide⟩,
   ⟨gridAt (fun g => { g with state := .member, msgs := [gridMsg 3 [] true] }) 5, 4, gridMsg 3 [] true, by decide⟩,
   ⟨gridAt (fun g => { g with state := .member, msgs := [gridMsg 5 [2, 0, 0, 0, 0, 0, 9, 0, 0, 0, 0, 0, 3] true] }) 5, 4, gridMsg 5 [2, 0, 0, 0, 0, 0, 9, 0, 0, 0, 0, 0, 3] true, by decide⟩,
   ⟨gridAt (fun g => { g with state := .member, msgs := [gridMsg 5 [] true] }) 5, 4, gridMsg 5 [] true, by decide⟩,
   ⟨gridAt id 5, 4, 2, .gridPieceRx 4, by decide⟩⟩

theorem test_witness_HoldRules :
    (∃ (s : State) (fn : Byte) (inst : BitVec 10), s.dev.recording = true ∧ s.dev.holdRefusal fn inst = 0) ∧
    (∃ (s : State) (fn : Byte) (inst : BitVec 10), s.dev.recording = true ∧ s.dev.holdRefusal fn inst ≠ 0) ∧
    (∃ (s : State) (fn : Byte) (inst : BitVec 10) (k : Fin 16) (h : HoldSlot), s.dev.recording = true ∧ s.dev.lapDue = false ∧ s.dev.slotFor fn inst = some k ∧ s.dev.cfg.slots.get k = some h ∧ h.state ≠ .resumePending ∧ resumesAtOnce fn.toNat = false ∧ fn = 2 → ((tenantOfNat inst.toNat).map s.dev.holdExpired) = some false) ∧
    (∃ (s : State) (fn : Byte) (inst : BitVec 10) (k : Fin 16) (h : HoldSlot), s.dev.recording = true ∧ s.dev.lapDue = false ∧ s.dev.slotFor fn inst = some k ∧ s.dev.cfg.slots.get k = some h ∧ h.state ≠ .resumePending ∧ resumesAtOnce fn.toNat = true) ∧
    (∃ (s : State) (fn : Byte) (inst : BitVec 10) (k : Fin 16) (h : HoldSlot), s.dev.recording = true ∧ s.dev.lapDue = false ∧ s.dev.slotFor fn inst = some k ∧ s.dev.cfg.slots.get k = some h ∧ h.state = .resumePending) ∧
    (∃ (s : State) (fn : Byte) (inst : BitVec 10) (k : Fin 16) (h : HoldSlot) (t : TenantId), s.dev.recording = true ∧ s.dev.lapDue = false ∧ s.dev.slotFor fn inst = some k ∧ s.dev.cfg.slots.get k = some h ∧ fn = 2 ∧ tenantOfNat inst.toNat = some t ∧ s.dev.holdExpired t = true) ∧
    (∃ (s : State) (fn : Byte) (inst : BitVec 10), s.dev.recording = true ∧ s.dev.lapDue = false ∧ s.dev.slotFor fn inst = none) ∧
    (∃ (s : State), s.dev.recording = true ∧ s.dev.lapDue = true) ∧
    (∃ (s : State) (fn : Byte) (inst : BitVec 10) (k : Fin 16) (h : HoldSlot) (a : Nat) (w : Word), s.dev.recording = true ∧ s.dev.slotFor fn inst = some k ∧ s.dev.cfg.slots.get k = some h ∧ h.saved = [(a, w)]) ∧
    (∃ (s : State) (fn : Byte) (inst : BitVec 10), s.dev.recording = true ∧ s.dev.slotFor fn inst = none) ∧
    (∃ (s : State), s.dev.recording = true) ∧
    (∃ (s : State) (k : Fin 16) (h : HoldSlot), s.dev.lapDue = false ∧ s.dev.cfg.slots.get k = some h ∧ h.state = .holdPending ∧ s.dev.holdDue h = true) ∧
    (∃ (s : State) (k : Fin 16), s.dev.lapDue = false ∧ ((s.dev.cfg.slots.get k).map fun h => decide (h.state = .holdPending) && s.dev.holdDue h) ≠ some true) ∧
    (∃ (s : State) (k : Fin 16) (h : HoldSlot), s.dev.lapDue = false ∧ s.dev.cfg.slots.get k = some h ∧ h.state = .resumePending ∧ s.dev.resumeDue h = true) ∧
    (∃ (s : State) (k : Fin 16), s.dev.lapDue = false ∧ ((s.dev.cfg.slots.get k).map fun h => decide (h.state = .resumePending) && s.dev.resumeDue h) ≠ some true) ∧
    (∃ (s : State), s.dev.loadServed = true ∧ s.dev.cfg.loadBusy = 0 ∧ (s.dev.reg Reg.cfgLoadOffset).toNat < 4194304) ∧
    (∃ (s : State), s.dev.loadServed = true ∧ s.dev.cfg.loadBusy = 0) ∧
    (∃ (s : State) (l : BitVec 23) (c : Instr), s.dev.loadServed = true ∧ s.dev.cfg.loadBusy ≠ 0 ∧ c ∈ [.cfgLoadWrite, .cfgLoadCommit l]) ∧
    (∃ (s : State) (l : BitVec 23) (c : Instr), s.dev.recording = true ∧ s.dev.loadServed = false ∧ c ∈ [.cfgLoadWrite, .cfgLoadCommit l]) ∧
    (∃ (s : State) (fn : Byte) (inst : BitVec 10) (l : BitVec 23) (c : Instr), s.dev.recording = false ∧ c ∈ [.fnHold fn inst, .fnResume fn inst, .fnCancel fn inst, .fnCmdZero fn inst, .cfgLoadWrite, .cfgLoadCommit l]) ∧
    (∃ (s : State), s.dev.cfg.loadBusy ≠ 2) ∧
    (∃ (s : State), s.dev.cfg.loadBusy = 2) :=
  ⟨⟨updating id 5, 8, 0, by decide⟩,
   ⟨updating id 5, 0x33, 0, by decide⟩,
   ⟨holding (held 2 .held) 5, 2, 0, 2, held 2 .held, by decide⟩,
   ⟨holding (held 8 .held) 5, 8, 0, 2, held 8 .held, by decide⟩,
   ⟨holding (held 2 .resumePending) 5, 2, 0, 2, held 2 .resumePending, by decide⟩,
   ⟨on (holding (held 2 .held) 120000000) (fun d => (d.setReg (Reg.bilTCfg 0) 0x10000).onTenant 0 fun t => { t with held := true, heldAt := 0 }), 2, 0, 2, held 2 .held, 0, by decide⟩,
   ⟨updating id 5, 8, 0, by decide⟩,
   ⟨up (fun d => awake { d with pacer := { d.pacer with tick := 900000000, lapStart := 0, lapRunning := true, lapEndAt := some 900000000 } }), by decide⟩,
   ⟨holding (held 8 .held) 5, 8, 0, 2, held 8 .held, Reg.tagXPoll, 77, by decide⟩,
   ⟨updating id 5, 8, 0, by decide⟩,
   ⟨updating id 5, by decide⟩,
   ⟨holding (held 3 .holdPending) 5, 2, held 3 .holdPending, by decide⟩,
   ⟨updating id 5, 2, by decide⟩,
   ⟨holding (held 7 .resumePending) 5, 2, held 7 .resumePending, by decide⟩,
   ⟨updating id 5, 2, by decide⟩,
   ⟨on (updating id 5) (fun d => { d with power := { d.power with mode := .startingBlock } }), by decide⟩,
   ⟨on (updating id 5) (fun d => { d with power := { d.power with mode := .safeHalt } }), by decide⟩,
   ⟨on (on (updating id 5) (fun d => { d with power := { d.power with mode := .startingBlock } })) (fun d => d.onCfg fun c => { c with loadBusy := 1 }), 500, .cfgLoadWrite, by decide⟩,
   ⟨updating id 5, 500, .cfgLoadWrite, by decide⟩,
   ⟨State.reset, 8, 0, 500, .cfgLoadWrite, by decide⟩,
   ⟨on (updating id 5) (fun d => d.onCfg fun c => { c with loadBusy := 1 }), by decide⟩,
   ⟨on (updating id 5) (fun d => d.onCfg fun c => { c with loadBusy := 2 }), by decide⟩⟩

theorem test_witness_UpdateIntake :
    (∃ (s : State) (c : Fin 2) (w : Word), s.dev.recording = true ∧ bitOf w 31 = true ∧ (s.dev.upd.slots.get c).state ≠ 1) ∧
    (∃ (s : State) (c : Fin 2) (w : Word), s.dev.recording = false ∨ bitOf w 31 = false ∨ (s.dev.upd.slots.get c).state = 1) ∧
    (∃ (s : State) (c : Fin 2) (p : Piece), s.dev.resultReady (.piece (.slot c)) = true ∧ (s.dev.upd.slots.get c).piece = some p) ∧
    (∃ (s : State) (p : Piece) (ps : List Piece), s.dev.resultReady (.piece .grid) = true ∧ s.dev.upd.gridPieces = p :: ps) ∧
    (∃ (s : State) (p : PiecePath), s.dev.resultReady (.piece p) = false) ∧
    (∃ (s : State) (k : Fin 32) (m : Manifest) (p : PartEntry) (t : PartState), s.dev.upd.manifest = some m ∧ m.parts[k.1]? = some p ∧ s.dev.upd.parts[k.1]? = some t ∧ s.dev.upd.state = .verifying ∧ s.dev.currentPart = some k.1 ∧ p.kind.toNat ≤ 2 ∧ t.state = 1 ∧ s.dev.resultReady (.image k) = true) ∧
    (∃ (s : State) (k : Fin 32), s.dev.upd.manifest = none ∨ s.dev.upd.state ≠ .verifying ∨ s.dev.currentPart ≠ some k.1 ∨ s.dev.resultReady (.image k) = false) ∧
    (∃ (s : State) (n : LinkId) (k : Nat) (p : PartEntry) (t : PartState), s.dev.stagingOn n = some (k, p) ∧ s.dev.upd.parts[k]? = some t ∧ (s.dev.link n).lnk.stg = 3) ∧
    (∃ (s : State) (n : LinkId) (k : Nat) (p : PartEntry) (t : PartState), s.dev.stagingOn n = some (k, p) ∧ s.dev.upd.parts[k]? = some t ∧ (s.dev.link n).lnk.stg = 4 ∧ n ∉ t.failed) ∧
    (∃ (s : State) (n : LinkId) (k : Nat) (p : PartEntry) (t : PartState), s.dev.stagingOn n = some (k, p) ∧ s.dev.upd.parts[k]? = some t ∧ (s.dev.link n).lnk.stg = 4 ∧ n ∈ t.failed) ∧
    (∃ (s : State) (n : LinkId), s.dev.stagingOn n = none ∨ ((s.dev.link n).lnk.stg ≠ 3 ∧ (s.dev.link n).lnk.stg ≠ 4)) ∧
    (∃ (s : State), s.dev.recording = true ∧ s.dev.activateRefusal = 0) ∧
    (∃ (s : State), s.dev.recording = true ∧ s.dev.activateRefusal ≠ 0) ∧
    (∃ (s : State), s.dev.recording = true ∧ s.dev.upd.state ∈ [.receiving, .verifying, .ready, .failed] ∨ (s.dev.upd.state = .activating ∧ s.dev.upd.step < 3)) ∧
    (∃ (s : State), s.dev.recording = true ∧ ¬ (s.dev.upd.state ∈ [.receiving, .verifying, .ready, .failed] ∨ (s.dev.upd.state = .activating ∧ s.dev.upd.step < 3))) ∧
    (∃ (s : State) (c : Instr), s.dev.recording = false ∧ c ∈ [.updActivate, .updAbandon]) ∧
    (∃ (s : State) (m : Manifest), s.dev.upd.manifest = some m ∧ s.dev.upd.state = .ready ∧ s.dev.pacer.calSet = true ∧ m.notAfter ≠ 0 ∧ m.notAfter < s.dev.pacer.cal) ∧
    (∃ (s : State), s.dev.upd.state ≠ .ready ∨ s.dev.pacer.calSet = false ∨ (s.dev.upd.manifest.map fun m => m.notAfter != 0 && decide (m.notAfter < s.dev.pacer.cal)) ≠ some true) :=
  ⟨⟨updating id 5, 1, 0x80000100, by decide⟩,
   ⟨updating id 5, 1, 0x100, by decide⟩,
   ⟨on (updating (fun u => { u with state := .receiving, slots := u.slots.set 1 { state := 1, result := 0, piece := some { index := 0, data := [1], tag := [] } } }) 5) (fun d => d.onSec fun x => { x with dues := [{ use := .piece (.slot 1), at? := 5, rank := 640, overrun := false }] }), 1, { index := 0, data := [1], tag := [] }, by decide⟩,
   ⟨on (updating (fun u => { u with state := .receiving, gridPieces := [{ index := 0, data := [1], tag := [] }] }) 5) (fun d => d.onSec fun x => { x with dues := [{ use := .piece .grid, at? := 5, rank := 640, overrun := false }] }), { index := 0, data := [1], tag := [] }, [], by decide⟩,
   ⟨updating id 5, .grid, by decide⟩,
   ⟨on (updating (fun u => { u with state := .verifying, parts := [{ state := 1, heads := [], failed := [] }, { state := 0, heads := [], failed := [] }] }) 5) (fun d => d.onSec fun x => { x with dues := [{ use := .image 0, at? := 5, rank := 640, overrun := false }] }), 0, manifest, { kind := 1, mode := 2, headId := 0, first := 0, units := 1, newVer := 2, baseVer := 1, payloadLen := 0, imageLen := 4, hash := [1] }, { state := 1, heads := [], failed := [] }, by decide⟩,
   ⟨updating id 5, 3, by decide⟩,
   ⟨on (car id 5) (fun d => ((d.setReg (Reg.lnkHeadId 7) 0x55).onLnk 7 fun l => { l with stg := 3 }).onUpd fun u => { u with manifest := some manifest, state := .verifying, parts := [{ state := 2, heads := [], failed := [] }, { state := 1, heads := [], failed := [] }] }), 7, 1, { kind := 3, mode := 1, headId := 0x55, first := 0, units := 1, newVer := 2, baseVer := 1, payloadLen := 0, imageLen := 4, hash := [1] }, { state := 1, heads := [], failed := [] }, by decide +kernel⟩,
   ⟨on (car id 5) (fun d => ((d.setReg (Reg.lnkHeadId 7) 0x55).onLnk 7 fun l => { l with stg := 4 }).onUpd fun u => { u with manifest := some manifest, state := .verifying, parts := [{ state := 2, heads := [], failed := [] }, { state := 1, heads := [], failed := [] }] }), 7, 1, { kind := 3, mode := 1, headId := 0x55, first := 0, units := 1, newVer := 2, baseVer := 1, payloadLen := 0, imageLen := 4, hash := [1] }, { state := 1, heads := [], failed := [] }, by decide +kernel⟩,
   ⟨on (car id 5) (fun d => ((d.setReg (Reg.lnkHeadId 7) 0x55).onLnk 7 fun l => { l with stg := 4 }).onUpd fun u => { u with manifest := some manifest, state := .verifying, parts := [{ state := 2, heads := [], failed := [] }, { state := 1, heads := [], failed := [7] }] }), 7, 1, { kind := 3, mode := 1, headId := 0x55, first := 0, units := 1, newVer := 2, baseVer := 1, payloadLen := 0, imageLen := 4, hash := [1] }, { state := 1, heads := [], failed := [7] }, by decide +kernel⟩,
   ⟨updating id 5, 7, by decide⟩,
   ⟨updating (fun u => { u with state := .ready }) 5, by decide⟩,
   ⟨updating (fun u => { u with state := .receiving }) 5, by decide⟩,
   ⟨updating (fun u => { u with state := .ready }) 5, by decide⟩,
   ⟨updating (fun u => { u with state := .confirming }) 5, by decide⟩,
   ⟨State.reset, .updAbandon, by decide⟩,
   ⟨updating (fun u => { u with state := .ready }) 5, manifest, by decide⟩,
   ⟨updating id 5, by decide⟩⟩

theorem test_witness_ActivationRules :
    (∃ (s : State), s.dev.upd.state = .activating ∧ s.dev.upd.step = 1 ∧ s.dev.allOpen = true ∧ s.dev.liveSessions = 0 ∧ s.dev.warned = false ∧ s.dev.mode = .run ∨ s.dev.mode = .economy) ∧
    (∃ (s : State), s.dev.upd.state ≠ .activating ∨ s.dev.upd.step ≠ 1 ∨ s.dev.allOpen = false ∨ s.dev.liveSessions ≠ 0 ∨ s.dev.warned = true ∨ (s.dev.mode ≠ .run ∧ s.dev.mode ≠ .economy)) ∧
    (∃ (s : State), s.dev.upd.state = .activating ∧ s.dev.upd.step = 1 ∧ s.dev.upd.stepAt + 30000000 ≤ s.dev.now ∧ s.dev.allOpen = false ∧ s.dev.warned = false) ∧
    (∃ (s : State), s.dev.upd.state ≠ .activating ∨ s.dev.upd.step ≠ 1 ∨ s.dev.now < s.dev.upd.stepAt + 30000000 ∨ s.dev.allOpen = true ∨ s.dev.warned = true) ∧
    (∃ (s : State), s.dev.upd.state = .activating ∧ s.dev.upd.step = 3 ∧ s.dev.mode = .activation ∧ s.dev.warned = false ∧ (s.dev.upd.staged.all s.dev.upd.armed.contains) = true) ∧
    (∃ (s : State), s.dev.upd.state = .activating ∧ s.dev.upd.step = 3 ∧ s.dev.mode = .activation ∧ s.dev.warned = false ∧ (s.dev.upd.staged.all s.dev.upd.armed.contains) = false ∧ s.dev.upd.armBad = true ∨ s.dev.upd.stepAt + 1000000 < s.dev.now) ∧
    (∃ (s : State), s.dev.upd.state ≠ .activating ∨ s.dev.upd.step ≠ 3 ∨ s.dev.mode ≠ .activation ∨ s.dev.warned = true ∨ ((s.dev.upd.staged.all s.dev.upd.armed.contains) = false ∧ s.dev.upd.armBad = false ∧ s.dev.now ≤ s.dev.upd.stepAt + 1000000)) ∧
    (∃ (s : State) (m : Manifest), s.dev.upd.record = .swapping ∧ s.dev.upd.step = 5 ∧ s.dev.power.resetHeld = false ∧ s.dev.upd.manifest = some m) ∧
    (∃ (s : State), s.dev.upd.record = .swapping ∧ s.dev.upd.step = 5 ∧ s.dev.power.resetHeld = false) ∧
    (∃ (s : State), s.dev.upd.record ≠ .swapping ∨ s.dev.upd.step ≠ 5 ∨ s.dev.power.resetHeld = true) ∧
    (∃ (s : State) (w : Word), s.dev.recording = true ∧ bitOf w 0 = true ∧ s.dev.confirmable = true) ∧
    (∃ (s : State) (w : Word), s.dev.recording = true ∧ bitOf w 0 = true ∧ s.dev.confirmable = false) ∧
    (∃ (s : State) (w : Word), s.dev.recording = true ∧ bitOf w 0 = false) ∧
    (∃ (s : State), s.dev.recording = false) ∧
    (∃ (s : State), s.dev.upd.state = .confirming ∧ s.dev.upd.windowOpen = true ∧ s.dev.reg Reg.updConfirmLeft = 0) ∧
    (∃ (s : State), s.dev.upd.state ≠ .confirming ∨ s.dev.upd.windowOpen = false ∨ s.dev.reg Reg.updConfirmLeft ≠ 0) :=
  ⟨⟨updating (fun u => { u with state := .activating, step := 1 }) 5, by decide +kernel⟩,
   ⟨updating id 5, by decide⟩,
   ⟨on (updating (fun u => { u with state := .activating, step := 1 }) 30000000) (fun d => d.onLink 9 fun l => { l with hs := { l.hs with fb := 1 } }), by decide +kernel⟩,
   ⟨updating id 5, by decide⟩,
   ⟨on (updating (fun u => { u with state := .activating, step := 3, staged := [7], armed := [7] }) 5) (fun d => { d with power := { d.power with mode := .activation } }), by decide⟩,
   ⟨on (updating (fun u => { u with state := .activating, step := 3, staged := [7], armed := [], stepAt := 0 }) 1000001) (fun d => { d with power := { d.power with mode := .activation } }), by decide⟩,
   ⟨updating id 5, by decide⟩,
   ⟨updating (fun u => { u with record := .swapping, step := 5 }) 5, manifest, by decide⟩,
   ⟨updating (fun u => { u with record := .swapping, step := 5 }) 5, by decide⟩,
   ⟨updating id 5, by decide⟩,
   ⟨updating (fun u => { u with state := .confirming }) 5, 1, by decide +kernel⟩,
   ⟨updating (fun u => { u with state := .ready }) 5, 1, by decide +kernel⟩,
   ⟨updating id 5, 2, by decide⟩,
   ⟨State.reset, by decide⟩,
   ⟨updating (fun u => { u with state := .confirming, windowOpen := true }) 5, by decide⟩,
   ⟨updating id 5, by decide⟩⟩

theorem test_witness_MemoryCommands :
    (∃ (s : State), s.dev.mode ≠ .dormant ∧ s.dev.power.resetHeld = false ∧ s.dev.mem.scrubWork + 1 < workWordCount) ∧
    (∃ (s : State), s.dev.mode ≠ .dormant ∧ s.dev.power.resetHeld = false ∧ workWordCount ≤ s.dev.mem.scrubWork + 1) ∧
    (∃ (s : State) (a : Copy) (b : Copy), s.dev.mode ≠ .dormant ∧ s.dev.power.resetHeld = false ∧ s.dev.mem.scrubLedger + 1 < ledgerWordCount ∧ settle a b = .clean) ∧
    (∃ (s : State) (a : Copy) (b : Copy), s.dev.mode ≠ .dormant ∧ s.dev.power.resetHeld = false ∧ s.dev.mem.scrubLedger + 1 = ledgerWordCount ∧ settle a b = .clean) ∧
    (∃ (s : State) (a : Copy) (b : Copy), s.dev.mode ≠ .dormant ∧ s.dev.power.resetHeld = false ∧ s.dev.mem.scrubLedger + 1 < ledgerWordCount ∧ s.dev.mem.poisonLedger.contains s.dev.mem.scrubLedger = false ∧ settle a b = .poison) ∧
    (∃ (s : State), s.dev.mode ≠ .dormant ∧ s.dev.power.resetHeld = false) ∧
    (∃ (s : State) (k : Nat), s.dev.mode ≠ .dormant ∧ s.dev.power.resetHeld = false ∧ k < 2 ∧ s.dev.sec.vault.activeB = (k == 1)) ∧
    (∃ (s : State) (k : Nat) (t : TenantId), s.dev.mode ≠ .dormant ∧ s.dev.power.resetHeld = false ∧ 2 ≤ k ∧ tenantOfNat ((k - 2) / 2) = some t ∧ (s.dev.tenants.get t).root.alg ≠ 0) ∧
    (∃ (s : State), s.dev.mode = .dormant ∨ s.dev.power.resetHeld = true) ∧
    (∃ (s : State), s.dev.recording = true) ∧
    (∃ (s : State), s.dev.recording = true) ∧
    (∃ (s : State), s.dev.mode = .maintenance ∧ s.dev.bill.sealOpen = true ∧ s.dev.recording = true) ∧
    (∃ (s : State), s.dev.mode ≠ .maintenance ∨ s.dev.bill.sealOpen = false ∧ s.dev.recording = true) ∧
    (∃ (s : State), s.dev.recorder.retesting = true ∧ s.dev.recorder.dead = false) ∧
    (∃ (s : State), s.dev.recorder.retesting = true ∧ s.dev.recorder.dead = true) ∧
    (∃ (s : State), s.dev.recorder.retesting = false) ∧
    (∃ (s : State), s.dev.recording = true) ∧
    (∃ (s : State), s.dev.recording = true) ∧
    (∃ (s : State) (w : Word) (c : Instr), s.dev.recording = false ∧ c ∈ [.evrCursorWrite w, .evrNorSectWrite w, .evrRetest, .lwClear, .poisonAddrRead]) ∧
    (∃ (s : State) (ev : EventRecord) (rest : List (Sum (Nat × List Byte) EventRecord)), s.dev.recorder.norWait = .inr ev :: rest ∧ s.dev.recorder.norBytes + 4 + ev.bytes.length ≤ 4096) ∧
    (∃ (s : State) (q : Nat) (bs : List Byte) (rest : List (Sum (Nat × List Byte) EventRecord)), s.dev.recorder.norWait = .inl (q, bs) :: rest ∧ s.dev.recorder.norBytes + 4 + bs.length ≤ 4096) ∧
    (∃ (s : State) (w : Sum (Nat × List Byte) EventRecord) (rest : List (Sum (Nat × List Byte) EventRecord)), s.dev.recorder.norWait = w :: rest ∧ s.dev.recorder.norBytes + 4 + (norEntry w).2.length ≤ 4096) ∧
    (∃ (s : State), s.dev.recorder.norWait = []) ∧
    (∃ (s : State), s.dev.recorder.norErased = none) ∧
    (∃ (s : State), s.dev.recorder.norErased = none) ∧
    (∃ (s : State), s.dev.recorder.norErased.isSome = true) :=
  ⟨⟨up awake, by decide⟩,
   ⟨up (fun d => awake (d.onMem fun m => { m with scrubWork := 12582911 })), by decide⟩,
   ⟨up awake, { good := true, ver := 0, data := 5 }, { good := true, ver := 0, data := 5 }, by decide⟩,
   ⟨up (fun d => awake (d.onMem fun m => { m with scrubLedger := 1048575 })), { good := true, ver := 0, data := 5 }, { good := true, ver := 0, data := 5 }, by decide⟩,
   ⟨up awake, { good := false, ver := 0, data := 5 }, { good := false, ver := 0, data := 5 }, by decide⟩,
   ⟨up awake, by decide⟩,
   ⟨up (fun d => awake (d.onSec fun x => { x with vault := { x.vault with activeB := false } })), 0, by decide⟩,
   ⟨up (fun d => awake (d.onTenant 4 fun t => { t with rootA := { t.rootA with alg := 1 }, activeB := false })), 11, 4, by decide⟩,
   ⟨State.reset, by decide⟩,
   ⟨up awake, by decide⟩,
   ⟨up awake, by decide⟩,
   ⟨up fun d => { (awake d).onBilling (fun b => { b with sealState := .opened }) with power := { (awake d).power with mode := .maintenance } }, by decide⟩,
   ⟨up awake, by decide⟩,
   ⟨up (fun d => awake (d.onRec fun r => { r with retesting := true, retired := 5 })), by decide⟩,
   ⟨up (fun d => awake (d.onRec fun r => { r with retesting := true, retired := 5, dead := true })), by decide⟩,
   ⟨up awake, by decide⟩,
   ⟨up awake, by decide⟩,
   ⟨up awake, by decide⟩,
   ⟨State.reset, 9, .lwClear, by decide⟩,
   ⟨up (fun d => awake (d.onRec fun r => { r with norWait := [.inr someRecord] })), someRecord, [], by decide +kernel⟩,
   ⟨up (fun d => awake (d.onRec fun r => { r with norWait := [.inl (4, [1, 2])] })), 4, [1, 2], [], by decide⟩,
   ⟨up (fun d => awake (d.onRec fun r => { r with norWait := [.inl (4, [1, 2])] })), .inl (4, [1, 2]), [], by decide⟩,
   ⟨up awake, by decide⟩,
   ⟨up awake, by decide⟩,
   ⟨up awake, by decide⟩,
   ⟨up (fun d => awake (d.onRec fun r => { r with norErased := some 4 })), by decide⟩⟩

theorem test_witness_ArchivePort :
    (∃ (s : State), s.dev.arcOn = true ∧ s.dev.archive.state = .training ∨ s.dev.archive.state = .off) ∧
    (∃ (s : State), s.dev.arcOn = false ∨ (s.dev.archive.state ≠ .training ∧ s.dev.archive.state ≠ .off)) ∧
    (∃ (s : State) (k : Fin 8), s.dev.resultReady (.archive k) = true ∧ s.dev.archive.buffer = [] ∧ s.dev.waveReady k = true ∨ s.dev.recsReady k = true ∧ s.dev.archive.issues = false) ∧
    (∃ (s : State) (k : Fin 8), s.dev.resultReady (.archive k) = false ∨ 256 ≤ s.dev.archive.buffer.length) ∧
    (∃ (s : State) (k : Fin 8), s.dev.resultReady (.archive k) = true ∧ s.dev.archive.buffer.length < 256 ∧ s.dev.waveReady k = false ∧ s.dev.recsReady k = false) ∧
    (∃ (s : State) (i : Fin 64) (c : NvmeCmd) (b : ArchiveBlock), s.dev.archive.cmds.get i = some c ∧ c.block = some b ∧ s.dev.archive.buffer = []) ∧
    (∃ (s : State) (i : Fin 64) (c : NvmeCmd) (b : ArchiveBlock), s.dev.archive.cmds.get i = some c ∧ c.block = some b ∧ c.tries = 0) ∧
    (∃ (s : State) (i : Fin 64) (c : NvmeCmd) (b : ArchiveBlock) (k : Fin 8), s.dev.archive.cmds.get i = some c ∧ c.block = some b ∧ c.tries = 1 ∧ k ≠ b.ns) ∧
    (∃ (s : State) (i : Fin 64), (s.dev.archive.cmds.get i).bind NvmeCmd.block = none) ∧
    (∃ (s : State) (i : Fin 64) (c : NvmeCmd), s.dev.archive.cmds.get i = some c ∧ c.since + secs 2 ≤ s.dev.now ∧ (s.dev.archive.resets.filter (fun t => s.dev.now < t + secs 600)).length < 2) ∧
    (∃ (s : State) (i : Fin 64) (c : NvmeCmd), s.dev.archive.cmds.get i = some c ∧ c.since + secs 2 ≤ s.dev.now ∧ 2 ≤ (s.dev.archive.resets.filter (fun t => s.dev.now < t + secs 600)).length) ∧
    (∃ (s : State) (i : Fin 64), ((s.dev.archive.cmds.get i).map fun c => decide (c.since + secs 2 ≤ s.dev.now)) ≠ some true) ∧
    (∃ (s : State) (w : Word), s.dev.recording = true ∧ bitOf w 31 = true ∧ s.dev.archive.reading = none ∧ s.dev.arcOn = false ∨ s.dev.archive.issues = false) ∧
    (∃ (s : State) (w : Word), s.dev.recording = true ∧ bitOf w 31 = true ∧ s.dev.archive.reading = none ∧ s.dev.arcOn = true ∧ s.dev.archive.issues = true ∧ ((s.dev.archive.copy.map fun c => decide (c.1 = ((Fin.ofNat 8 (s.dev.field Reg.memArcRdNs 0 3)) : Fin 8).1 ∧ c.2.1 = s.dev.reg Reg.memArcRdEpoch ∧ c.2.2.1 = ((s.dev.reg Reg.memArcRdBlockHi).toNat * 2 ^ 32 + (s.dev.reg Reg.memArcRdBlockLo).toNat))).getD false) = true) ∧
    (∃ (s : State) (w : Word), s.dev.recording = true ∧ bitOf w 31 = true ∧ s.dev.archive.reading = none ∧ s.dev.arcOn = true ∧ s.dev.archive.issues = true ∧ ((s.dev.archive.copy.map fun c => decide (c.1 = ((Fin.ofNat 8 (s.dev.field Reg.memArcRdNs 0 3)) : Fin 8).1 ∧ c.2.1 = s.dev.reg Reg.memArcRdEpoch ∧ c.2.2.1 = ((s.dev.reg Reg.memArcRdBlockHi).toNat * 2 ^ 32 + (s.dev.reg Reg.memArcRdBlockLo).toNat))).getD false) = false ∧ ((s.dev.archive.ns.get (Fin.ofNat 8 (s.dev.field Reg.memArcRdNs 0 3))).blocks.find? fun b => b.epoch == s.dev.reg Reg.memArcRdEpoch && b.no == ((s.dev.reg Reg.memArcRdBlockHi).toNat * 2 ^ 32 + (s.dev.reg Reg.memArcRdBlockLo).toNat)) = none) ∧
    (∃ (s : State) (w : Word) (b : ArchiveBlock), s.dev.recording = true ∧ bitOf w 31 = true ∧ s.dev.archive.reading = none ∧ s.dev.arcOn = true ∧ s.dev.archive.issues = true ∧ ((s.dev.archive.copy.map fun c => decide (c.1 = ((Fin.ofNat 8 (s.dev.field Reg.memArcRdNs 0 3)) : Fin 8).1 ∧ c.2.1 = s.dev.reg Reg.memArcRdEpoch ∧ c.2.2.1 = ((s.dev.reg Reg.memArcRdBlockHi).toNat * 2 ^ 32 + (s.dev.reg Reg.memArcRdBlockLo).toNat))).getD false) = false ∧ ((s.dev.archive.ns.get (Fin.ofNat 8 (s.dev.field Reg.memArcRdNs 0 3))).blocks.find? fun b => b.epoch == s.dev.reg Reg.memArcRdEpoch && b.no == ((s.dev.reg Reg.memArcRdBlockHi).toNat * 2 ^ 32 + (s.dev.reg Reg.memArcRdBlockLo).toNat)) = some b ∧ b.root ≠ s.dev.sec.vault.drk.epoch) ∧
    (∃ (s : State) (w : Word) (b : ArchiveBlock), s.dev.recording = true ∧ bitOf w 31 = true ∧ s.dev.archive.reading = none ∧ s.dev.arcOn = true ∧ s.dev.archive.issues = true ∧ ((s.dev.archive.copy.map fun c => decide (c.1 = ((Fin.ofNat 8 (s.dev.field Reg.memArcRdNs 0 3)) : Fin 8).1 ∧ c.2.1 = s.dev.reg Reg.memArcRdEpoch ∧ c.2.2.1 = ((s.dev.reg Reg.memArcRdBlockHi).toNat * 2 ^ 32 + (s.dev.reg Reg.memArcRdBlockLo).toNat))).getD false) = false ∧ ((s.dev.archive.ns.get (Fin.ofNat 8 (s.dev.field Reg.memArcRdNs 0 3))).blocks.find? fun b => b.epoch == s.dev.reg Reg.memArcRdEpoch && b.no == ((s.dev.reg Reg.memArcRdBlockHi).toNat * 2 ^ 32 + (s.dev.reg Reg.memArcRdBlockLo).toNat)) = some b ∧ b.root = s.dev.sec.vault.drk.epoch) ∧
    (∃ (s : State) (w : Word), s.dev.recording = false ∨ bitOf w 31 = false ∨ s.dev.archive.reading.isSome = true) ∧
    (∃ (s : State) (k : Nat) (epoch : Word) (no : Nat) (page : Nat), s.dev.archive.reading = some (k, epoch, no, page)) ∧
    (∃ (s : State) (k : Nat) (epoch : Word) (no : Nat) (page : Nat), s.dev.archive.reading = some (k, epoch, no, page)) ∧
    (∃ (s : State), s.dev.archive.reading = none) :=
  ⟨⟨up (fun d => awake ((d.setReg Reg.memArcCfg 0x80000003).onArc fun a => { a with state := .training })), by decide⟩,
   ⟨up awake, by decide⟩,
   ⟨on (secure (fun s => { s with dues := [{ use := .archive 2, at? := 0, rank := 0, overrun := false }] }) 5) (fun d => ((d.setReg Reg.memArcCfg 0x80000003).setReg (Reg.memXArcNs 2) 0x02000000).onNs 2 fun x => { x with wave := [(1, List.replicate 70000 0)] }), 2, by decide +kernel⟩,
   ⟨up awake, 2, by decide⟩,
   ⟨secure (fun s => { s with dues := [{ use := .archive 2, at? := 0, rank := 0, overrun := false }] }) 5, 2, by decide⟩,
   ⟨archiving (some (writing 0)) 5, 3, writing 0, sealedBlock, by decide⟩,
   ⟨archiving (some (writing 0)) 5, 3, writing 0, sealedBlock, by decide⟩,
   ⟨archiving (some (writing 1)) 5, 3, writing 1, sealedBlock, 4, by decide⟩,
   ⟨up awake, 3, by decide⟩,
   ⟨archiving (some (writing 0)) 2000000, 3, writing 0, by decide⟩,
   ⟨on (archiving (some (writing 0)) 2000000) (fun d => d.onArc fun a => { a with resets := [1, 0] }), 3, writing 0, by decide⟩,
   ⟨up awake, 3, by decide⟩,
   ⟨up awake, 0x80000003, by decide⟩,
   ⟨on (archiving none 5) (fun d => d.onArc fun a => { a with copy := some (0, 0, 0, []) }), 0x80000003, by decide⟩,
   ⟨archiving none 5, 0x80000003, by decide⟩,
   ⟨on (archiving none 5) (fun d => d.onNs 0 fun x => { x with blocks := [{ sealedBlock with no := 0, root := 9 }] }), 0x80000003, { sealedBlock with no := 0, root := 9 }, by decide⟩,
   ⟨on (archiving none 5) (fun d => (d.onNs 0 fun x => { x with blocks := [{ sealedBlock with no := 0, root := 0 }] }).onSec fun x => { x with vault := { x.vault with drkA := { x.vault.drkA with epoch := 0 }, activeB := false } }), 0x80000003, { sealedBlock with no := 0, root := 0 }, by decide⟩,
   ⟨up awake, 3, by decide⟩,
   ⟨on (archiving none 5) (fun d => d.onArc fun a => { a with reading := some (2, 0, 7, 3) }), 2, 0, 7, 3, by decide⟩,
   ⟨on (archiving none 5) (fun d => d.onArc fun a => { a with reading := some (2, 0, 7, 3) }), 2, 0, 7, 3, by decide⟩,
   ⟨up awake, by decide⟩⟩

theorem test_witness_DisplayRules :
    (∃ (s : State), s.dev.disp.state = .scroll ∨ s.dev.disp.state = .legend ∧ s.dev.disp.frameAt + s.dev.frameTicks ≤ s.dev.now ∧ s.dev.bistable = false) ∧
    (∃ (s : State), s.dev.disp.state = .scroll ∨ s.dev.disp.state = .legend ∧ s.dev.disp.frameAt + s.dev.frameTicks ≤ s.dev.now ∧ s.dev.bistable = false) ∧
    (∃ (s : State), s.dev.disp.state = .scroll ∧ s.dev.disp.frameAt + s.dev.frameTicks ≤ s.dev.now ∧ s.dev.bistable = true ∧ s.dev.disp.pass = []) ∧
    (∃ (s : State), s.dev.disp.state = .legend ∧ s.dev.disp.frameAt + s.dev.frameTicks ≤ s.dev.now ∧ s.dev.bistable = true ∧ s.dev.disp.pass = []) ∧
    (∃ (s : State), s.dev.disp.state = .scroll ∨ s.dev.disp.state = .legend ∧ s.dev.disp.frameAt + s.dev.frameTicks ≤ s.dev.now ∧ s.dev.bistable = true ∧ s.dev.disp.pass ≠ []) ∧
    (∃ (s : State), (s.dev.disp.state ≠ .scroll ∧ s.dev.disp.state ≠ .legend) ∨ s.dev.now < s.dev.disp.frameAt + s.dev.frameTicks) ∧
    (∃ (s : State) (c : Fin 8) (rest : List (Fin 8)) (f : Fin 8), s.dev.disp.pass = c :: rest ∧ s.dev.disp.pulseAt + s.dev.pulseLen ≤ s.dev.now ∧ rest = f :: (rest.drop 1) ∧ f ≠ c) ∧
    (∃ (s : State) (c : Fin 8), s.dev.disp.pass = [c] ∧ s.dev.disp.pulseAt + s.dev.pulseLen ≤ s.dev.now ∧ s.dev.disp.passDue = false) ∧
    (∃ (s : State) (c : Fin 8), s.dev.disp.pass = [c] ∧ s.dev.disp.pulseAt + s.dev.pulseLen ≤ s.dev.now ∧ s.dev.disp.passDue = true ∧ s.dev.disp.state = .scroll) ∧
    (∃ (s : State), s.dev.disp.pass = [] ∨ s.dev.now < s.dev.disp.pulseAt + s.dev.pulseLen) ∧
    (∃ (s : State), s.dev.disp.state = .scroll ∨ s.dev.disp.state = .legend) ∧
    (∃ (s : State), s.dev.disp.state ≠ .scroll ∧ s.dev.disp.state ≠ .legend) ∧
    (∃ (s : State), s.dev.disp.faultNow = true ∧ s.dev.power.brace = false ∧ s.dev.disp.restartAt ≤ s.dev.now) ∧
    (∃ (s : State), s.dev.disp.faultNow = true ∧ s.dev.power.brace = false ∧ s.dev.disp.restartAt ≤ s.dev.now) ∧
    (∃ (s : State), s.dev.disp.faultNow = false ∨ s.dev.power.brace = true ∨ s.dev.now < s.dev.disp.restartAt) :=
  ⟨⟨showing (fun x => { x with state := .scroll }) 900000, by decide⟩,
   ⟨on (showing (fun x => { x with state := .scroll, differ := [(3, 2), (40, 2), (41, 1)], agree := [(9, 15), (8, 14)] }) 900000) (fun d => d.setReg Reg.lioDispPinfault0 0x300), by decide +kernel⟩,
   ⟨on (showing (fun x => { x with state := .scroll }) 900000) (fun d => (d.setReg Reg.lioDispCfg 0x80000000).setReg Reg.lioDirty 0x28), by decide +kernel⟩,
   ⟨on (showing (fun x => { x with state := .legend }) 900000) (fun d => (d.setReg Reg.lioDispCfg 0x80000000).setReg Reg.lioDirty 0x28), by decide +kernel⟩,
   ⟨on (showing (fun x => { x with state := .scroll, pass := [2] }) 900000) (fun d => (d.setReg Reg.lioDispCfg 0x80000000).setReg Reg.lioDirty 0x28), by decide +kernel⟩,
   ⟨showing (fun x => { x with state := .scroll, frameAt := 900000 }) 900000, by decide +kernel⟩,
   ⟨showing (fun x => { x with state := .scroll, pass := [2, 3], want := Vector.replicate 15 0xFF00FF00 }) 900000, 2, [3], 3, by decide +kernel⟩,
   ⟨showing (fun x => { x with state := .scroll, pass := [2], want := Vector.replicate 15 0xFF00FF00 }) 900000, 2, by decide +kernel⟩,
   ⟨on (showing (fun x => { x with state := .scroll, pass := [2], passDue := true, want := Vector.replicate 15 0xFF00FF00 }) 900000) (fun d => d.setReg Reg.lioDirty 0x28), 2, by decide +kernel⟩,
   ⟨up awake, by decide⟩,
   ⟨showing (fun x => { x with state := .scroll }) 900000, by decide⟩,
   ⟨showing (fun x => { x with state := .off }) 900000, by decide⟩,
   ⟨showing (fun x => { x with state := .fault, faultNow := true }) 900000, by decide⟩,
   ⟨showing (fun x => { x with state := .fault, faultNow := true }) 900000, by decide⟩,
   ⟨up awake, by decide⟩⟩

theorem test_witness_KeyRules :
    (∃ (s : State) (k : Fin 2) (m : BitVec 16), (s.dev.keys.get k).first = false ∧ s.dev.keyThresh ≤ ((m.toNat : Int) - ((s.dev.keys.get k).base.toNat : Int)) ∧ 0 < s.dev.keyThresh) ∧
    (∃ (s : State) (k : Fin 2) (m : BitVec 16), (s.dev.keys.get k).first = true ∧ s.dev.keyThresh ≤ ((m.toNat : Int) - ((s.dev.keys.get k).base.toNat : Int)) ∧ 0 < s.dev.keyThresh) ∧
    (∃ (s : State) (k : Fin 2) (m : BitVec 16), 4 * ((m.toNat : Int) - ((s.dev.keys.get k).base.toNat : Int)) < 3 * s.dev.keyThresh ∧ (s.dev.keys.get k).above < 3 ∨ 19 < (s.dev.keys.get k).above ∨ (s.dev.keys.get k).touched = true ∨ (s.dev.keys.get k).blocked = true) ∧
    (∃ (s : State) (k : Fin 2) (m : BitVec 16), 3 * s.dev.keyThresh ≤ 4 * ((m.toNat : Int) - ((s.dev.keys.get k).base.toNat : Int)) ∧ ((m.toNat : Int) - ((s.dev.keys.get k).base.toNat : Int)) < s.dev.keyThresh ∧ (s.dev.keys.get k).above < 3 ∨ 19 < (s.dev.keys.get k).above ∨ (s.dev.keys.get k).touched = true ∨ (s.dev.keys.get k).blocked = true) ∧
    (∃ (s : State) (k : Fin 2) (m : BitVec 16), ((m.toNat : Int) - ((s.dev.keys.get k).base.toNat : Int)) < s.dev.keyThresh ∧ 3 ≤ (s.dev.keys.get k).above ∧ (s.dev.keys.get k).above ≤ 19 ∧ (s.dev.keys.get k).touched = false ∧ (s.dev.keys.get k).blocked = false) ∧
    (∃ (s : State) (k : Fin 2), 20 ≤ (s.dev.keys.get k).above ∧ (s.dev.keys.get k).measAt = s.dev.now ∧ (s.dev.keys.get k).touched = false ∧ (s.dev.keys.get k).blocked = false ∧ (s.dev.keys.get k).stuck = false ∧ s.dev.mode ≠ .dormant ∧ s.dev.mode ≠ .waking ∧ (s.dev.keys.get (otherKey k)).touched = false) ∧
    (∃ (s : State), 20 ≤ (s.dev.keys.get 1).above ∧ (s.dev.keys.get 1).measAt = s.dev.now ∧ (s.dev.keys.get 1).touched = false ∧ (s.dev.keys.get 1).blocked = false ∧ (s.dev.keys.get 1).stuck = false ∧ s.dev.mode = .run ∧ (s.dev.keys.get 0).touched = false) ∧
    (∃ (s : State) (k : Fin 2), 20 ≤ (s.dev.keys.get k).above ∧ (s.dev.keys.get k).measAt = s.dev.now ∧ (s.dev.keys.get k).touched = false ∧ (s.dev.keys.get k).blocked = false ∧ (s.dev.keys.get k).stuck = false ∧ s.dev.mode ≠ .dormant ∧ s.dev.mode ≠ .waking ∧ (s.dev.keys.get (otherKey k)).touched = true ∧ (s.dev.keys.get (otherKey k)).touchAt ≠ s.dev.now) ∧
    (∃ (s : State) (k : Fin 2), 20 ≤ (s.dev.keys.get k).above ∧ (s.dev.keys.get k).measAt = s.dev.now ∧ (s.dev.keys.get k).touched = false ∧ (s.dev.keys.get k).blocked = false ∧ (s.dev.keys.get k).stuck = false ∧ s.dev.mode ≠ .dormant ∧ s.dev.mode ≠ .waking ∧ (s.dev.keys.get (otherKey k)).touched = true ∧ (s.dev.keys.get (otherKey k)).touchAt = s.dev.now) ∧
    (∃ (s : State) (k : Fin 2), (s.dev.keys.get k).above < 20 ∨ (s.dev.keys.get k).measAt ≠ s.dev.now ∨ (s.dev.keys.get k).touched = true ∨ (s.dev.keys.get k).blocked = true ∨ (s.dev.keys.get k).stuck = true ∨ s.dev.mode = .dormant ∨ s.dev.mode = .waking) ∧
    (∃ (s : State), 20 ≤ (s.dev.keys.get 0).below ∧ (s.dev.keys.get 0).measAt = s.dev.now ∧ (s.dev.keys.get 0).touched = true ∧ (s.dev.keys.get 0).ignored = false ∧ (s.dev.keys.get 0).long = false ∧ (s.dev.keys.get 0).stuck = false ∧ s.dev.now < (s.dev.keys.get 0).touchAt + secs 1 ∧ s.dev.scroll.item + 1 < s.dev.sectionLen s.dev.scroll.section_) ∧
    (∃ (s : State), 20 ≤ (s.dev.keys.get 0).below ∧ (s.dev.keys.get 0).measAt = s.dev.now ∧ (s.dev.keys.get 0).touched = true ∧ (s.dev.keys.get 0).ignored = false ∧ (s.dev.keys.get 0).long = false ∧ (s.dev.keys.get 0).stuck = false ∧ s.dev.now < (s.dev.keys.get 0).touchAt + secs 1 ∧ s.dev.sectionLen s.dev.scroll.section_ ≤ s.dev.scroll.item + 1) ∧
    (∃ (s : State) (k : Fin 2), 20 ≤ (s.dev.keys.get k).below ∧ (s.dev.keys.get k).measAt = s.dev.now ∧ (s.dev.keys.get k).touched = true ∨ (s.dev.keys.get k).blocked = true ∧ k = 1 ∨ (s.dev.keys.get k).touched = false ∨ (s.dev.keys.get k).ignored = true ∨ (s.dev.keys.get k).long = true ∨ (s.dev.keys.get k).stuck = true ∨ (s.dev.keys.get k).touchAt + secs 1 ≤ s.dev.now) ∧
    (∃ (s : State) (k : Fin 2), (s.dev.keys.get k).below < 20 ∨ (s.dev.keys.get k).measAt ≠ s.dev.now ∨ ((s.dev.keys.get k).touched = false ∧ (s.dev.keys.get k).blocked = false)) ∧
    (∃ (s : State), (s.dev.keys.get 0).touched = true ∧ (s.dev.keys.get 0).ignored = false ∧ (s.dev.keys.get 0).long = false ∧ (s.dev.keys.get 0).stuck = false ∧ (s.dev.keys.get 0).touchAt + secs 1 ≤ s.dev.now) ∧
    (∃ (s : State), (s.dev.keys.get 0).touched = false ∨ (s.dev.keys.get 0).ignored = true ∨ (s.dev.keys.get 0).long = true ∨ (s.dev.keys.get 0).stuck = true ∨ s.dev.now < (s.dev.keys.get 0).touchAt + secs 1) ∧
    (∃ (s : State) (k : Fin 2), (s.dev.keys.get k).touched = true ∧ (s.dev.keys.get k).stuck = false ∧ (s.dev.keys.get k).touchAt + secs 60 ≤ s.dev.now) ∧
    (∃ (s : State) (k : Fin 2), (s.dev.keys.get k).touched = false ∨ (s.dev.keys.get k).stuck = true ∨ s.dev.now < (s.dev.keys.get k).touchAt + secs 60) ∧
    (∃ (s : State) (k : Fin 2), (s.dev.keys.get k).stuck = true ∧ heldFor (s.dev.keys.get k).freeSince s.dev.now (secs 5) = true) ∧
    (∃ (s : State) (k : Fin 2), (s.dev.keys.get k).stuck = false ∨ heldFor (s.dev.keys.get k).freeSince s.dev.now (secs 5) = false) ∧
    (∃ (s : State) (k : Fin 2), (s.dev.keys.get k).stuck = false ∧ heldFor (s.dev.keys.get k).lowSince s.dev.now (secs 5) = true) ∧
    (∃ (s : State) (k : Fin 2), (s.dev.keys.get k).stuck = true ∨ heldFor (s.dev.keys.get k).lowSince s.dev.now (secs 5) = false) ∧
    (∃ (s : State) (k : Fin 2), (s.dev.keys.get k).touched = false ∧ (s.dev.keys.get k).stuck = false ∧ (s.dev.keys.get k).blocked = false ∧ 2 * ((s.dev.keys.get k).delta.natAbs : Int) < s.dev.keyThresh ∧ (s.dev.keys.get k).driftAt + secs s.dev.driftSecs ≤ s.dev.now ∧ (s.dev.keys.get k).base.toNat < (s.dev.keys.get k).meas.toNat) ∧
    (∃ (s : State) (k : Fin 2), (s.dev.keys.get k).touched = false ∧ (s.dev.keys.get k).stuck = false ∧ (s.dev.keys.get k).blocked = false ∧ 2 * ((s.dev.keys.get k).delta.natAbs : Int) < s.dev.keyThresh ∧ (s.dev.keys.get k).driftAt + secs s.dev.driftSecs ≤ s.dev.now ∧ (s.dev.keys.get k).meas.toNat < (s.dev.keys.get k).base.toNat) ∧
    (∃ (s : State) (k : Fin 2), (s.dev.keys.get k).touched = false ∧ (s.dev.keys.get k).stuck = false ∧ (s.dev.keys.get k).blocked = false ∧ 2 * ((s.dev.keys.get k).delta.natAbs : Int) < s.dev.keyThresh ∧ (s.dev.keys.get k).driftAt + secs s.dev.driftSecs ≤ s.dev.now ∧ (s.dev.keys.get k).meas = (s.dev.keys.get k).base) ∧
    (∃ (s : State) (k : Fin 2), (s.dev.keys.get k).touched = true ∨ (s.dev.keys.get k).stuck = true ∨ (s.dev.keys.get k).blocked = true ∨ s.dev.keyThresh ≤ 2 * ((s.dev.keys.get k).delta.natAbs : Int) ∨ s.dev.now < (s.dev.keys.get k).driftAt + secs s.dev.driftSecs) ∧
    (∃ (s : State), s.dev.scroll.auto = true ∧ s.dev.scroll.frozen = false ∧ s.dev.disp.state = .scroll ∧ s.dev.scroll.advAt + secs (s.dev.field Reg.bilDispCfg 0 8) ≤ s.dev.now ∧ s.dev.scroll.item + 1 < s.dev.sectionLen s.dev.scroll.section_) ∧
    (∃ (s : State), s.dev.scroll.auto = true ∧ s.dev.scroll.frozen = false ∧ s.dev.disp.state = .scroll ∧ s.dev.scroll.advAt + secs (s.dev.field Reg.bilDispCfg 0 8) ≤ s.dev.now ∧ s.dev.sectionLen s.dev.scroll.section_ ≤ s.dev.scroll.item + 1) ∧
    (∃ (s : State), s.dev.scroll.auto = false ∨ s.dev.scroll.frozen = true ∨ s.dev.disp.state ≠ .scroll ∨ s.dev.now < s.dev.scroll.advAt + secs (s.dev.field Reg.bilDispCfg 0 8)) ∧
    (∃ (s : State), s.dev.scroll.auto = false ∧ s.dev.scroll.frozen = false ∧ s.dev.scroll.touchAt + secs 30 ≤ s.dev.now) ∧
    (∃ (s : State), s.dev.scroll.auto = true ∨ s.dev.scroll.frozen = true ∨ s.dev.now < s.dev.scroll.touchAt + secs 30) :=
  ⟨⟨on (keyed (fun x => { x with first := false, base := 100, above := 4 }) 5) (fun d => d.setReg Reg.lioXKey 100), 1, 60000, by decide⟩,
   ⟨on (keyed (fun x => { x with first := true, base := 100 }) 5) (fun d => d.setReg Reg.lioXKey 100), 1, 60000, by decide⟩,
   ⟨on (keyed (fun x => { x with first := false, base := 100 }) 5) (fun d => d.setReg Reg.lioXKey 50), 1, 20, by decide⟩,
   ⟨on (keyed (fun x => { x with first := false, base := 100 }) 5) (fun d => d.setReg Reg.lioXKey 100), 1, 180, by decide⟩,
   ⟨on (keyed (fun x => { x with first := false, base := 100, above := 19 }) 5) (fun d => d.setReg Reg.lioXKey 100), 1, 180, by decide⟩,
   ⟨keyed (fun x => { x with first := false, above := 20, measAt := 5 }) 5, 1, by decide⟩,
   ⟨keyed (fun x => { x with first := false, above := 20, measAt := 5 }) 5, by decide⟩,
   ⟨on (keyed (fun x => { x with first := false, above := 20, measAt := 5 }) 5) (fun d => d.onKey 0 fun x => { x with touched := true, touchAt := 4 }), 1, by decide⟩,
   ⟨on (keyed (fun x => { x with first := false, above := 20, measAt := 5 }) 5) (fun d => d.onKey 0 fun x => { x with touched := true, touchAt := 5 }), 1, by decide⟩,
   ⟨keyed id 5, 1, by decide⟩,
   ⟨on (keyed id 900000) (fun d => (d.onKey 0 fun x => { x with touched := true, below := 20, measAt := 900000, touchAt := 5 }).onScroll fun x => { x with section_ := 7, item := 1 }), by decide⟩,
   ⟨on (keyed id 900000) (fun d => (d.onKey 0 fun x => { x with touched := true, below := 20, measAt := 900000, touchAt := 5 }).onScroll fun x => { x with section_ := 7, item := 200 }), by decide⟩,
   ⟨keyed (fun x => { x with first := false, below := 20, touched := true, measAt := 5 }) 5, 1, by decide⟩,
   ⟨keyed id 5, 1, by decide⟩,
   ⟨on (keyed id 2000000) (fun d => d.onKey 0 fun x => { x with touched := true }), by decide⟩,
   ⟨keyed id 5, by decide⟩,
   ⟨keyed (fun x => { x with touched := true }) 60000000, 1, by decide⟩,
   ⟨keyed id 5, 1, by decide⟩,
   ⟨keyed (fun x => { x with stuck := true, freeSince := some 0 }) 60000000, 1, by decide⟩,
   ⟨keyed id 5, 1, by decide⟩,
   ⟨keyed (fun x => { x with lowSince := some 0 }) 60000000, 1, by decide⟩,
   ⟨keyed id 5, 1, by decide⟩,
   ⟨on (keyed (fun x => { x with base := 100, meas := 101 }) 900000000) (fun d => d.setReg Reg.lioXKey 0x10064), 1, by decide⟩,
   ⟨on (keyed (fun x => { x with base := 100, meas := 99 }) 900000000) (fun d => d.setReg Reg.lioXKey 0x10064), 1, by decide⟩,
   ⟨on (keyed (fun x => { x with base := 100, meas := 100 }) 900000000) (fun d => d.setReg Reg.lioXKey 0x10064), 1, by decide⟩,
   ⟨keyed (fun x => { x with touched := true }) 5, 1, by decide⟩,
   ⟨showing (fun x => { x with state := .scroll }) 900000000, by decide⟩,
   ⟨on (showing (fun x => { x with state := .scroll }) 900000000) (fun d => d.onScroll fun x => { x with item := 3 }), by decide⟩,
   ⟨showing (fun x => { x with state := .off }) 900000000, by decide⟩,
   ⟨on (showing id 900000000) (fun d => d.onScroll fun x => { x with auto := false }), by decide⟩,
   ⟨on (showing id 5) (fun d => d.onScroll fun x => { x with auto := false }), by decide⟩⟩

theorem test_witness_AuxRules :
    (∃ (s : State) (n : LinkId) (w : Word) (k : Fin 4), s.dev.recording = true ∧ s.dev.role n = .outlet ∧ s.dev.auxRole n k = 0 ∧ bitOf w (8 * k.1 + 7) = true ∧ ((s.dev.link n).aux.get k).fault = false ∧ ((s.dev.link n).aux.get k).on = false ∧ ((s.dev.link n).aux.get k).offUntil = none ∧ s.dev.auxFitted n k = true) ∧
    (∃ (s : State) (n : LinkId) (w : Word) (k : Fin 4), s.dev.recording = true ∧ s.dev.role n = .outlet ∧ s.dev.auxRole n k = 0 ∧ bitOf w (8 * k.1 + 7) = true ∧ ((s.dev.link n).aux.get k).fault = false ∧ ((s.dev.link n).aux.get k).on = true) ∧
    (∃ (s : State) (n : LinkId) (w : Word) (k : Fin 4), s.dev.recording = true ∧ s.dev.role n = .outlet ∧ s.dev.auxRole n k = 0 ∧ bitOf w (8 * k.1 + 7) = true ∧ ((s.dev.link n).aux.get k).fault = false ∧ ((s.dev.link n).aux.get k).on = false ∧ ((s.dev.link n).aux.get k).offUntil.isSome = true ∨ s.dev.auxFitted n k = false) ∧
    (∃ (s : State) (n : LinkId) (w : Word) (k : Fin 4), s.dev.recording = true ∧ s.dev.role n = .outlet ∧ s.dev.auxRole n k = 0 ∧ bitOf w (8 * k.1 + 7) = false ∧ ((s.dev.link n).aux.get k).fault = false) ∧
    (∃ (s : State) (n : LinkId) (w : Word) (k : Fin 4), s.dev.recording = true ∧ s.dev.role n = .outlet ∧ s.dev.auxRole n k = 0 ∧ bitOf w (8 * k.1 + 7) = false ∧ ((s.dev.link n).aux.get k).fault = true) ∧
    (∃ (s : State) (n : LinkId) (w : Word) (k : Fin 4), s.dev.recording = true ∧ s.dev.role n = .outlet ∧ s.dev.auxRole n k = 0 ∧ bitOf w (8 * k.1 + 7) = true ∧ ((s.dev.link n).aux.get k).fault = true ∧ ((s.dev.link n).aux.get k).seenOff = false) ∧
    (∃ (s : State) (n : LinkId) (w : Word) (k : Fin 4), s.dev.recording = true ∧ s.dev.role n = .outlet ∧ s.dev.auxRole n k = 0 ∧ bitOf w (8 * k.1 + 7) = true ∧ ((s.dev.link n).aux.get k).fault = true ∧ ((s.dev.link n).aux.get k).seenOff = true ∧ s.dev.auxFitted n k = true) ∧
    (∃ (s : State) (n : LinkId) (k : Fin 4), s.dev.auxRole n k ≠ 0) ∧
    (∃ (s : State) (n : LinkId), s.dev.recording = false ∨ s.dev.role n ≠ .outlet) ∧
    (∃ (s : State) (n : LinkId) (k : Fin 4) (t : Tick), ((s.dev.link n).aux.get k).runOn = some t ∧ t ≤ s.dev.now) ∧
    (∃ (s : State) (n : LinkId) (k : Fin 4), (((s.dev.link n).aux.get k).runOn.map fun t => decide (t ≤ s.dev.now)) ≠ some true) ∧
    (∃ (s : State) (n : LinkId) (k : Fin 4) (t : Tick), ((s.dev.link n).aux.get k).offUntil = some t ∧ t ≤ s.dev.now ∧ ((s.dev.link n).aux.get k).tach ≠ .blocked ∧ ((s.dev.link n).aux.get k).fault = false ∧ s.dev.auxFitted n k = true) ∧
    (∃ (s : State) (n : LinkId) (k : Fin 4), (((s.dev.link n).aux.get k).offUntil.map fun t => decide (t ≤ s.dev.now)) ≠ some true ∨ ((s.dev.link n).aux.get k).tach = .blocked ∨ ((s.dev.link n).aux.get k).fault = true ∨ s.dev.auxFitted n k = false) ∧
    (∃ (s : State) (n : LinkId) (k : Fin 4) (t : Tick), ((s.dev.link n).aux.get k).offUntil = some t ∧ t ≤ s.dev.now ∧ ((s.dev.link n).aux.get k).tach = .blocked ∧ ((s.dev.link n).aux.get k).fault = false ∧ s.dev.auxFitted n k = true) ∧
    (∃ (s : State) (n : LinkId) (k : Fin 4) (t : Tick), ((s.dev.link n).aux.get k).offUntil = some t ∧ t ≤ s.dev.now ∧ ((s.dev.link n).aux.get k).tach = .blocked ∧ ((s.dev.link n).aux.get k).fault = false ∧ s.dev.auxFitted n k = false) ∧
    (∃ (s : State) (n : LinkId) (k : Fin 4), (((s.dev.link n).aux.get k).offUntil.map fun t => decide (t ≤ s.dev.now)) ≠ some true ∨ ((s.dev.link n).aux.get k).tach ≠ .blocked ∨ ((s.dev.link n).aux.get k).fault = true) ∧
    (∃ (s : State) (n : LinkId) (k : Fin 4), ((s.dev.link n).aux.get k).on = true ∧ ((s.dev.link n).aux.get k).openSet = false ∧ heldFor ((s.dev.link n).aux.get k).openSince s.dev.now (ms 100) = true ∧ s.dev.auxCooling n k = false) ∧
    (∃ (s : State) (n : LinkId) (k : Fin 4), ((s.dev.link n).aux.get k).on = true ∧ ((s.dev.link n).aux.get k).openSet = false ∧ heldFor ((s.dev.link n).aux.get k).openSince s.dev.now (ms 100) = true ∧ s.dev.auxCooling n k = true ∧ ((s.dev.link n).aux.get k).tries < s.dev.field (Reg.auxCfg n k) 24 3) ∧
    (∃ (s : State) (n : LinkId) (k : Fin 4), ((s.dev.link n).aux.get k).on = true ∧ ((s.dev.link n).aux.get k).openSet = false ∧ heldFor ((s.dev.link n).aux.get k).openSince s.dev.now (ms 100) = true ∧ s.dev.auxCooling n k = true ∧ s.dev.field (Reg.auxCfg n k) 24 3 ≤ ((s.dev.link n).aux.get k).tries) ∧
    (∃ (s : State) (n : LinkId) (k : Fin 4), ((s.dev.link n).aux.get k).on = false ∨ ((s.dev.link n).aux.get k).openSet = true ∨ heldFor ((s.dev.link n).aux.get k).openSince s.dev.now (ms 100) = false) ∧
    (∃ (s : State) (n : LinkId) (k : Fin 4), ((s.dev.link n).aux.get k).misSet = false ∧ heldFor ((s.dev.link n).aux.get k).misSince s.dev.now (ms 10) = true) ∧
    (∃ (s : State) (n : LinkId) (k : Fin 4), ((s.dev.link n).aux.get k).misSet = true ∨ heldFor ((s.dev.link n).aux.get k).misSince s.dev.now (ms 10) = false) ∧
    (∃ (s : State) (n : LinkId) (k : Fin 4), ((s.dev.link n).aux.get k).on = true ∧ ((s.dev.link n).aux.get k).tach = .spinUp ∧ ((s.dev.link n).aux.get k).spinAt + ms (s.dev.settingField (Reg.auxXTach n k) 20 12) ≤ s.dev.now ∧ ((s.dev.link n).aux.get k).tries < s.dev.field (Reg.auxCfg n k) 24 3) ∧
    (∃ (s : State) (n : LinkId) (k : Fin 4), ((s.dev.link n).aux.get k).on = true ∧ ((s.dev.link n).aux.get k).tach = .spinUp ∧ ((s.dev.link n).aux.get k).spinAt + ms (s.dev.settingField (Reg.auxXTach n k) 20 12) ≤ s.dev.now ∧ s.dev.field (Reg.auxCfg n k) 24 3 ≤ ((s.dev.link n).aux.get k).tries) ∧
    (∃ (s : State) (n : LinkId) (k : Fin 4), ((s.dev.link n).aux.get k).on = false ∨ ((s.dev.link n).aux.get k).tach ≠ .spinUp ∨ s.dev.now < ((s.dev.link n).aux.get k).spinAt + ms (s.dev.settingField (Reg.auxXTach n k) 20 12)) :=
  ⟨⟨auxAt 0 (fun a => { a with on := false }) 5, 7, 0x00850000, 2, by decide⟩,
   ⟨auxAt 0 (fun a => { a with on := true }) 5, 7, 0x00850000, 2, by decide⟩,
   ⟨auxAt 0 (fun a => { a with offUntil := some 9 }) 5, 7, 0x00850000, 2, by decide⟩,
   ⟨auxAt 0 (fun a => { a with on := true }) 5, 7, 0, 2, by decide⟩,
   ⟨auxAt 0 (fun a => { a with fault := true }) 5, 7, 0, 2, by decide⟩,
   ⟨auxAt 0 (fun a => { a with fault := true }) 5, 7, 0x00850000, 2, by decide⟩,
   ⟨auxAt 0 (fun a => { a with fault := true, seenOff := true }) 5, 7, 0x00850000, 2, by decide⟩,
   ⟨auxAt 0x40000000 id 5, 7, 2, by decide⟩,
   ⟨up awake, 7, by decide⟩,
   ⟨auxAt 0x40000000 (fun a => { a with on := true, runOn := some 3 }) 5, 7, 2, 3, by decide⟩,
   ⟨auxAt 0x40000000 (fun a => { a with runOn := some 9 }) 5, 7, 2, by decide⟩,
   ⟨auxAt 0x40000000 (fun a => { a with offUntil := some 3 }) 5, 7, 2, 3, by decide⟩,
   ⟨auxAt 0x40000000 (fun a => { a with offUntil := some 9 }) 5, 7, 2, by decide⟩,
   ⟨auxAt 0x40000000 (fun a => { a with offUntil := some 3, tach := .blocked }) 5, 7, 2, 3, by decide⟩,
   ⟨on (auxAt 0x40000000 (fun a => { a with offUntil := some 3, tach := .blocked }) 5) (fun d => d.onLnk 7 fun l => { l with headCaps := 0 }), 7, 2, 3, by decide⟩,
   ⟨auxAt 0x40000000 (fun a => { a with offUntil := some 9 }) 5, 7, 2, by decide⟩,
   ⟨auxAt 0 (fun a => { a with on := true, openSince := some 0 }) 500000, 7, 2, by decide⟩,
   ⟨auxAt 0x43000000 (fun a => { a with on := true, openSince := some 0 }) 500000, 7, 2, by decide⟩,
   ⟨auxAt 0x43000000 (fun a => { a with on := true, tries := 3, openSince := some 0 }) 500000, 7, 2, by decide⟩,
   ⟨auxAt 0 (fun a => { a with on := true, openSince := some 4 }) 5, 7, 2, by decide⟩,
   ⟨auxAt 0 (fun a => { a with misSince := some 0 }) 500000, 7, 2, by decide⟩,
   ⟨auxAt 0 (fun a => { a with misSince := some 4 }) 5, 7, 2, by decide⟩,
   ⟨auxAt 0x43000000 (fun a => { a with on := true, tach := .spinUp }) 50000000, 7, 2, by decide⟩,
   ⟨auxAt 0x43000000 (fun a => { a with on := true, tach := .spinUp, tries := 3 }) 50000000, 7, 2, by decide⟩,
   ⟨auxAt 0x40000000 (fun a => { a with on := false }) 500000, 7, 2, by decide⟩⟩

/-! ### Operand conditions: each check refuses an ill-formed command -/

theorem test_wf_burst : (Instr.writeInc 0 []).wf = false := by decide
theorem test_wf_abort : (Instr.transactionAbort 0 0 0 [1, 2]).wf = false := by decide
theorem test_wf_frame : (Instr.headFrameReceived 7 []).wf = false := by decide
theorem test_wf_marker : (Instr.trainBEcho 7 9 0).wf = false := by decide
theorem test_wf_response : (Instr.headRegResponse 7 0 0 0 0).wf = false := by decide
theorem test_wf_headAddr : (Instr.headRegisterAccess 7 2 none).wf = false := by decide
theorem test_wf_offer : (Instr.supportedAppProtocol 7 [.din70121, .din70121]).wf = false := by decide
theorem test_wf_pdu : (Instr.snDataFrame .a []).wf = false := by decide
theorem test_wf_answer : (Instr.airResponse 3 (.uids [[1]])).wf = false := by decide
theorem test_wf_image : (Instr.cfgLoadCommit 0).wf = false := by decide
theorem test_wf_chain : (Instr.loadChain 4097).wf = false := by decide
theorem test_wf_mail : (Instr.wireMbxPost 256).wf = false := by decide
theorem test_wf_mailData : (Instr.svcMbxWrite 0 [] true).wf = false := by decide
theorem test_wf_mailRead : (Instr.svcMbxRead 0 129).wf = false := by decide
theorem test_wf_late : (Instr.lapOverrun .lapClosure [7, 7]).wf = false := by decide
theorem test_wf_arcRead : (Instr.arcReadDone (.data [])).wf = false := by decide
theorem test_wf_frame_good : (Instr.headFrameReceived 7 goodBlocks).wf = true := by decide

/-! ### Worked examples of the specification -/

/-- The voltage channel of bay 12, steps 1 to 4 (chapter 05, one lap at bay 12). -/
theorem test_cal_voltage :
    calSample { offset := -112, gain := 250200000, tc1 := -250, tc2 := 0, phase := 0, tsel := 0, tref := 250 } 205 5012800 = 74754137 := by
  decide

/-- The current channel, step 5. -/
theorem test_cal_current :
    calSample { offset := 58, gain := 120000000, tc1 := 0, tc2 := 0, phase := 0, tsel := 2, tref := 0 } 0 3406100 = 24361911 := by
  decide

/-- Step 7: whole µJ and the remainder. -/
theorem test_energy : Energy.add { uj := 0, rem := 0 } 1821153632475807 = { uj := 5691105, rem := 32475807 } := by decide

/-- Steps 3 and 10 of the slot change at 21:00 (chapter 06). -/
theorem test_mwh : toMwh 18803412905317 1250000 = (5223170, 2155317) ∧ toMwh 36011275482090 2155317 = (10003132, 2437407) := by decide

/-- The example of R293: 470 kΩ, 20 V and 12.40 V read 211 kΩ. -/
theorem test_iso :
    (((State.reset.dev.setReg (Reg.prtLXInj 7) 0x07D00000).onProt 7 fun p => { p with injR := some 470000 }).isoValue 7 1240000 1).1 = 211 := by
  decide

/-- The sample points of R24. -/
theorem test_sample_points : [31, 62, 93, 124, 156, 187].all isSamplePoint = true ∧ isSamplePoint 125 = false := by decide

/-! ### The queue -/

theorem test_idle : step State.reset = .next State.reset := rfl

end Sys2Proof.Tests
end

section
/-! SUPPORT. Sticky bits (R100): what one write leaves in each bit of its register, and what an event lists. -/

namespace Sys2Proof.Machine

/-- How a command that updates the device completes: what is to be shown is shown of the updated device. -/
theorem Completes.of_upd {c : Instr} {s : State} {f : Dev → Dev} {P : Dev → Prop} (hc : exec c s = s.upd f)
    (hP : P (f s.dev).settled) : Completes c s P :=
  ⟨_, hc, rfl, rfl, hP⟩

theorem Dev.hosted_of_recording {d : Dev} (f : Dev → Dev) (h : d.recording = true) : Dev.hosted f d = f d := if_pos h

@[simp] theorem Dev.settled_bit (d : Dev) (a k : Nat) : d.settled.bit a k = d.bit a k := by simp [Dev.bit]

@[simp] theorem Dev.unpoison_reg (d : Dev) (a x : Nat) : (d.unpoison a).reg x = d.reg x := rfl

/-! ### Bits of words -/

theorem bitOf_or (v w : Word) (k : Nat) : bitOf (v ||| w) k = (bitOf v k || bitOf w k) := BitVec.getLsbD_or

theorem bitOf_and (v w : Word) (k : Nat) : bitOf (v &&& w) k = (bitOf v k && bitOf w k) := BitVec.getLsbD_and

theorem bitOf_not (w : Word) {k : Nat} (hk : k < 32) : bitOf (~~~w) k = !bitOf w k := by
  simp [bitOf, hk]

/-- Unlike `oneBit_getLsbD` this bounds the bit that is looked at: a number of 32 or more names no bit of the word. -/
theorem bitOf_oneBit (b : Nat) {k : Nat} (hk : k < 32) : bitOf (oneBit b) k = (b == k) := by
  rw [bitOf, oneBit, BitVec.getLsbD_ofNat, Nat.testBit_two_pow, decide_eq_true hk, Bool.true_and, beq_eq_decide]

/-- A word gathered from a list of bits has the bits of the list. -/
theorem bitOf_foldl_or_oneBit (xs : List (Nat × Nat)) (m : Word) {k : Nat} (hk : k < 32) :
    bitOf (xs.foldl (fun m x => m ||| oneBit x.2) m) k = (bitOf m k || xs.any fun x => x.2 == k) := by
  induction xs generalizing m with
  | nil => simp
  | cons x xs ih => rw [List.foldl_cons, ih, bitOf_or, bitOf_oneBit _ hk, List.any_cons, Bool.or_assoc]

/-- The entries of one address that hold a bit: the list contains the pair of both. -/
theorem any_filter_eq_contains (xs : List (Nat × Nat)) (a k : Nat) :
    ((xs.filter fun x => x.1 == a).any fun x => x.2 == k) = xs.contains (a, k) := by
  rw [Bool.eq_iff_iff, List.any_filter, List.any_eq_true, List.contains_iff_mem]
  simp [Prod.exists]

/-! ### The write of a register of sticky bits -/

/-- Each bit after the write (R100): it is cleared by a 1 where the last closure showed it set and the open tick has not
set it again, and stays as it was otherwise. -/
theorem Dev.clearSticky_bit (d shown : Dev) (a : Nat) (w : Word) (r : RegDecl) {k : Nat} (hk : k < 32) :
    (d.clearSticky shown a w r).bit a k =
      (d.bit a k && !(bitOf (r.taken w) k && shown.bit a k && !d.recorder.setNow.contains (a, k))) := by
  have again : bitOf ((d.recorder.setNow.filter fun x => x.1 == a).foldl (fun m x => m ||| oneBit x.2) 0) k =
      d.recorder.setNow.contains (a, k) := by
    rw [bitOf_foldl_or_oneBit _ _ hk, any_filter_eq_contains]
    simp [bitOf]
  simp only [Dev.clearSticky, Dev.bit, Dev.unpoison_reg, Dev.onRec_reg, Dev.setReg_reg, if_pos, bitOf_and, bitOf_not _ hk, again]

theorem Dev.clearSticky_regsBut (d shown : Dev) (a : Nat) (w : Word) (r : RegDecl) :
    d.RegsBut (d.clearSticky shown a w r) [a] := by
  intro x hx
  simp only [List.mem_singleton] at hx
  simp only [Dev.clearSticky, Dev.unpoison_reg, Dev.onRec_reg, Dev.setReg_reg, if_neg hx]

/-- The command at a register of sticky bits that the word reaches is the write of that register. -/
theorem Dev.w1cClear_of_writable {d : Dev} {a : Nat} {w : Word} {r : RegDecl} (shown : Dev) (hr : d.writable a w = some r)
    (hk : r.kind = .w1c) : d.w1cClear shown a w = d.clearSticky shown a w r := by
  simp only [Dev.w1cClear, hr, if_pos hk]

/-! ### What an event lists -/

theorem Dev.logEvent_setNow (d : Dev) (e : TickEvent) : (d.logEvent e).recorder.setNow = d.recorder.setNow := by
  unfold Dev.logEvent
  split_ifs <;> rfl

/-- An event lists its bit, whether it is a new event or a repeat. -/
theorem Dev.raise_setNow (d : Dev) (e : EvReg) (b : Nat) (arg : Word) (tn : Option TenantId) :
    (d.raise e b arg tn).recorder.setNow = (e.addr, b) :: d.recorder.setNow := by
  unfold Dev.raise
  split
  · rfl
  · rw [Dev.logEvent_setNow]
    rfl

theorem Dev.raise_bit (d : Dev) (e : EvReg) {b : Nat} (arg : Word) (tn : Option TenantId) (hb : b < 32) :
    (d.raise e b arg tn).bit e.addr b = true := by
  simp only [Dev.bit, Dev.raise_reg, if_pos, bitOf_or_oneBit_self _ _ hb]

/-- Settles O10: the bits of the register written by `Dev.clearSticky_bit`, the events by `Dev.raise_setNow`. -/
theorem stickyBits : Obligations.StickyBits := by
  unfold Obligations.StickyBits
  refine ⟨fun s a w r k hrun hreach hkind hk => ?_, fun d r k w hk => ⟨d.raise_bit r w none hk, ?_⟩⟩
  · refine Completes.of_upd (exec_w1cClear a w s) ?_
    rw [Dev.hosted_of_recording _ hrun, Dev.w1cClear_of_writable _ hreach hkind]
    refine ⟨?_, fun x hx => ?_⟩
    · rw [Dev.settled_bit, Dev.clearSticky_bit _ _ _ _ _ hk]
    · rw [Dev.settled_reg, Dev.clearSticky_regsBut _ _ _ _ _ x hx]
  · rw [Dev.raise_setNow]
    simp

end Sys2Proof.Machine
end

section
/-! SUPPORT. Controlled stops and the end of a session (R266, R275 to R277): what beginning a stop sets and leaves, and
what the end of a session puts into the registers of its outlet. -/

namespace Sys2Proof.Machine

/-! ### What an update leaves, composed -/

theorem Dev.RegsBut.rfl {d : Dev} {as : List Nat} : d.RegsBut d as := fun _ _ => Eq.refl _

theorem Dev.RegsBut.trans {a b c : Dev} {as : List Nat} (h1 : a.RegsBut b as) (h2 : b.RegsBut c as) : a.RegsBut c as :=
  fun x hx => (h2 x hx).trans (h1 x hx)

theorem Dev.LinksBut.rfl {d : Dev} {n : LinkId} : d.LinksBut d n := fun _ _ => Eq.refl _

theorem Dev.LinksBut.trans {a b c : Dev} {n : LinkId} (h1 : a.LinksBut b n) (h2 : b.LinksBut c n) : a.LinksBut c n :=
  fun m hm => (h2 m hm).trans (h1 m hm)

theorem Dev.onVeh_regsBut (d : Dev) (n : LinkId) (f : Vehicle → Vehicle) (as : List Nat) : d.RegsBut (d.onVeh n f) as :=
  fun a _ => d.onVeh_reg n f a

theorem Dev.onVeh_linksBut (d : Dev) (n : LinkId) (f : Vehicle → Vehicle) : d.LinksBut (d.onVeh n f) n :=
  fun m hm => by rw [Dev.onVeh_link, if_neg hm]

theorem Dev.settled_regsBut (d : Dev) (as : List Nat) : d.RegsBut d.settled as := fun a _ => d.settled_reg a

theorem Dev.settled_linksBut (d : Dev) (n : LinkId) : d.LinksBut d.settled n := fun m _ => d.settled_link m

/-! ### The state of a vehicle and its power request -/

@[simp] theorem Dev.toState_reg (d : Dev) (n : LinkId) (st : VehState) (a : Nat) : (d.toState n st).reg a = d.reg a := rfl

@[simp] theorem Dev.toState_veh (d : Dev) (n : LinkId) (st : VehState) :
    ((d.toState n st).link n).veh = { (d.link n).veh with state := st, stateAt := d.now } := by
  simp [Dev.toState]

@[simp] theorem Dev.refreshReq_veh (d : Dev) (n m : LinkId) : ((d.refreshReq n).link m).veh = (d.link m).veh :=
  (d.refreshReq_keeps n).veh m

theorem Dev.refreshReq_regsBut (d : Dev) (n : LinkId) : d.RegsBut (d.refreshReq n) [Reg.vehReq n] := by
  intro a ha
  rw [List.mem_singleton] at ha
  rw [Dev.refreshReq, Dev.setReg_reg, if_neg ha, Dev.onOut_reg]

theorem Dev.refreshReq_linksBut (d : Dev) (n : LinkId) : d.LinksBut (d.refreshReq n) n := by
  intro m hm
  rw [Dev.refreshReq, Dev.setReg_link, Dev.onOut_link, if_neg hm]

/-! ### Beginning a stop -/

/-- The vehicle of a stop that begins at a tick. -/
def Vehicle.stopped (v : Vehicle) (why : StopReason) (rank : Nat) (now : Tick) : Vehicle :=
  { v with
    stopWhy := why, stopRank := rank, stopAt := now, lowSince := none, iout := 0, turning := none, response := why.told
    state := .stopping, stateAt := now }

/-- The first cause of a stop begins it. -/
theorem Dev.beginStop_veh {d : Dev} {n : LinkId} (why : StopReason) (rank : Nat) (h : (d.link n).veh.stopWhy = .none) :
    ((d.beginStop n why rank).link n).veh = (d.link n).veh.stopped why rank d.now := by
  simp [Dev.beginStop, h, Vehicle.stopped]

theorem Dev.beginStop_regsBut (d : Dev) (n : LinkId) (why : StopReason) (rank : Nat) :
    d.RegsBut (d.beginStop n why rank) [Reg.vehReq n] := by
  unfold Dev.beginStop
  extract_lets v
  split_ifs with hbegun hfirst
  · exact d.onVeh_regsBut n _ _
  · exact .rfl
  · exact ((d.onVeh_regsBut n _ _).trans (Dev.onVeh_regsBut _ n _ _)).trans (Dev.refreshReq_regsBut _ n)

theorem Dev.beginStop_linksBut (d : Dev) (n : LinkId) (why : StopReason) (rank : Nat) :
    d.LinksBut (d.beginStop n why rank) n := by
  unfold Dev.beginStop
  extract_lets v
  split_ifs with hbegun hfirst
  · exact d.onVeh_linksBut n _
  · exact .rfl
  · exact ((d.onVeh_linksBut n _).trans (Dev.onVeh_linksBut _ n _)).trans (Dev.refreshReq_linksBut _ n)

theorem Dev.startStop_of_live {d : Dev} {n : LinkId} (why : StopReason) (rank : Nat) (h : (d.link n).veh.live = true) :
    d.startStop n why rank = d.beginStop n why rank := if_pos h

@[simp] theorem Dev.answer_veh (d : Dev) (n : LinkId) (r : Response) :
    ((d.answer n r).link n).veh = { (d.link n).veh with response := r } := by
  simp [Dev.answer]

/-- R277: the request for pause or standby begins the stop of the vehicle. -/
theorem execPauseStandbyReq_of_talking {s : State} {n : LinkId} (hlive : (s.dev.link n).veh.live = true)
    (htalk : (s.dev.link n).veh.talking = true) (hstate : (s.dev.link n).veh.state ≠ .stopping) :
    exec (.pauseStandbyReq n) s =
      .next { s with dev := ((s.dev.answer n .ok).beginStop n .vehicle (vehRank n)).settled } := by
  rw [exec_pauseStandbyReq, execPauseStandbyReq, State.upd, if_pos ⟨hlive, htalk, hstate⟩,
    Dev.startStop_of_live _ _ (by simpa using hlive)]

/-! ### The end of a session -/

theorem StopReason.code_lt (why : StopReason) : why.code < 256 := by cases why <;> decide

/-- The lowest byte of VEH_LAST_END is the reason of the stop (R280). -/
theorem Dev.lastEnd_reason (d : Dev) (n : LinkId) (fail : Nat) (why : StopReason) :
    (d.lastEnd n fail why.code).field (Reg.vehLastEnd n) 0 8 = why.code := by
  have hcode := why.code_lt
  simp only [Dev.lastEnd, Dev.field, Dev.setReg_reg, if_pos, fieldOf, packWord, List.map_cons, List.map_nil, List.sum_cons,
    List.sum_nil, BitVec.toNat_ofNat]
  omega

/-- The session is closed in the ledger, its reason noted and its end an event, after a lap that is due. -/
def Dev.noteEnd (d : Dev) (n : LinkId) (why : StopReason) : Dev :=
  ((d.lapFirst.closeSession n why).lastEnd n 0 why.code).raise (.veh n) 2 (BitVec.ofNat 32 why.code)

theorem Dev.noteEnd_reason (d : Dev) (n : LinkId) (why : StopReason) :
    (d.noteEnd n why).field (Reg.vehLastEnd n) 0 8 = why.code := by
  have hne : Reg.vehLastEnd n ≠ (EvReg.veh n).addr := by simp only [EvReg.addr, Reg.vehLastEnd, Reg.vehEvents]; omega
  rw [Dev.noteEnd, Dev.field, Dev.raise_reg, if_neg hne]
  exact Dev.lastEnd_reason _ n 0 why

theorem Dev.noteEnd_event (d : Dev) (n : LinkId) (why : StopReason) : (d.noteEnd n why).bit (Reg.vehEvents n) 2 = true :=
  Dev.raise_bit _ (.veh n) _ _ (by decide)

/-- What follows of the end of a session writes, among the registers of its vehicle, VEH_REQ alone. -/
theorem Dev.endSession_reg {d : Dev} {n : LinkId} (why : StopReason) (hlive : (d.link n).veh.live = true) {a : Nat}
    (ha : regPart a = .rVeh) (hne : a ≠ Reg.vehReq n) : (d.endSession n why).reg a = (d.noteEnd n why).reg a := by
  rw [Dev.endSession, if_pos hlive, (Dev.abortWhere_keeps _ _ _).reg_of ha,
    Dev.refreshReq_regsBut _ n a (by simpa using hne), (Dev.coolingRunOn_keeps _ n).reg_of ha, Dev.toState_reg, Dev.onVeh_reg]
  rfl

theorem Dev.endSession_live (d : Dev) (n : LinkId) (why : StopReason) : ((d.endSession n why).link n).veh.live = false := by
  unfold Dev.endSession
  extract_lets v d0 d1 d2
  split_ifs with hlive
  · rw [(Dev.abortWhere_keeps _ _ _).veh n, Dev.refreshReq_veh, (Dev.coolingRunOn_keeps _ n).veh n]
    simp [d2]
  · simpa using hlive

theorem Dev.endStopped_reg (d : Dev) (n : LinkId) (a : Nat) :
    (d.endStopped n).reg a = (d.endSession n (d.link n).veh.stopWhy).reg a := by
  unfold Dev.endStopped
  extract_lets v d1
  split_ifs with hfault hidle <;> rfl

theorem Dev.endStopped_live (d : Dev) (n : LinkId) : ((d.endStopped n).link n).veh.live = false := by
  have hend := d.endSession_live n (d.link n).veh.stopWhy
  unfold Dev.endStopped
  extract_lets v d1
  split_ifs with hfault hidle
  · simpa using hend
  · simpa using hend
  · exact hend

/-- The end of a stopped session tells its reason and is an event. -/
theorem Dev.endStopped_told {d : Dev} {n : LinkId} (hlive : (d.link n).veh.live = true) :
    (d.endStopped n).field (Reg.vehLastEnd n) 0 8 = (d.link n).veh.stopWhy.code ∧
      (d.endStopped n).bit (Reg.vehEvents n) 2 = true := by
  have hlast : Reg.vehLastEnd n ≠ Reg.vehReq n := by simp only [Reg.vehLastEnd, Reg.vehReq]; omega
  have hevents : Reg.vehEvents n ≠ Reg.vehReq n := by simp only [Reg.vehEvents, Reg.vehReq]; omega
  rw [Dev.field, Dev.bit, Dev.endStopped_reg, Dev.endStopped_reg, Dev.endSession_reg _ hlive (regPart_vehLastEnd n.2) hlast,
    Dev.endSession_reg _ hlive (regPart_vehEvents n.2) hevents]
  exact ⟨d.noteEnd_reason n _, d.noteEnd_event n _⟩

theorem Dev.endUnclosed_of_unclosed {d : Dev} {n : LinkId} (hlive : (d.link n).veh.live = true)
    (hwhy : (d.link n).veh.stopWhy ≠ .none) (hopen : d.everClosed n = false) : d.endUnclosed n = d.endStopped n :=
  if_pos ⟨hlive, hwhy, by simp [hopen]⟩

/-- Settles O12: the stop of the vehicle is `Dev.beginStop_veh`, its frame `Dev.beginStop_regsBut` and
`Dev.beginStop_linksBut`, the end of the unclosed session `Dev.endStopped_told`. -/
theorem pauseAndStandby : Obligations.PauseAndStandby := by
  unfold Obligations.PauseAndStandby
  refine ⟨fun s n hlive htalk hstate hwhy => ?_, fun d n hlive hwhy hopen => ?_⟩
  · refine ⟨_, execPauseStandbyReq_of_talking hlive htalk hstate, rfl, rfl, ?_⟩
    have hveh := Dev.beginStop_veh (d := s.dev.answer n .ok) (n := n) .vehicle (vehRank n) (by simpa using hwhy)
    simp only [Dev.settled_link, hveh, Dev.answer_veh]
    refine ⟨rfl, rfl, rfl, rfl, rfl, rfl, hlive, ?_, ?_⟩
    · exact ((s.dev.onVeh_regsBut n _ _).trans (Dev.beginStop_regsBut _ n _ _)).trans (Dev.settled_regsBut _ _)
    · exact ((s.dev.onVeh_linksBut n _).trans (Dev.beginStop_linksBut _ n _ _)).trans (Dev.settled_linksBut _ n)
  · rw [Dev.endUnclosed_of_unclosed hlive hwhy hopen]
    exact ⟨d.endStopped_live n, Dev.endStopped_told hlive⟩

end Sys2Proof.Machine
end

section
/-! SUPPORT. Stuck keys (R470): what each command of a key leaves of a key that is stuck. -/

namespace Sys2Proof.Machine

/-! ### A measurement and a release, of the key alone -/

/-- A key after a measurement at a tick, under a threshold (R466, R468, R469). -/
def Key.measured (x : Key) (thresh : Int) (now : Tick) (meas : BitVec 16) : Key :=
  let δ : Int := meas.toNat - x.base.toNat
  { x with
    meas := meas, measAt := now
    above := if thresh ≤ δ then min 20 (x.above + 1) else 0
    below := if 4 * δ < 3 * thresh then min 20 (x.below + 1) else 0
    first := false, blocked := x.blocked || (x.first && decide (thresh ≤ δ))
    lowSince := sinceWhen x.lowSince now (decide (δ ≤ -thresh))
    freeSince := sinceWhen x.freeSince now (decide (4 * δ < 3 * thresh)) }

/-- A key after its release (R466). -/
def Key.released (x : Key) : Key :=
  { x with touched := false, blocked := false, ignored := false, long := false }

theorem Dev.keyMeasured_get (d : Dev) (k : Fin 2) (m : BitVec 16) :
    (d.keyMeasured k m).keys.get k = (d.keys.get k).measured d.keyThresh d.now m := by
  unfold Dev.keyMeasured
  extract_lets x x1 t reached low glitch block d1 d2
  have hkey : d2.keys.get k = x.measured t d.now m := by
    rw [Dev.raiseIf_keys, Dev.onKey_get, if_pos rfl]
    rfl
  split_ifs <;> simpa using hkey

/-- A measurement not below three quarters of the threshold breaks the time that the key has been free (R470). -/
theorem Key.measured_freeSince_of_le {x : Key} {thresh : Int} {m : BitVec 16} (now : Tick)
    (h : 3 * thresh ≤ 4 * ((m.toNat : Int) - x.base.toNat)) : (x.measured thresh now m).freeSince = none := by
  have hlow : ¬ 4 * ((m.toNat : Int) - x.base.toNat) < 3 * thresh := not_lt.mpr h
  simp [Key.measured, sinceWhen, hlow]

/-! ### The commands at a stuck key -/

section
variable {d : Dev} {k : Fin 2}

theorem Dev.keyTouched_of_stuck (was : Dev) (h : (d.keys.get k).stuck = true) : d.keyTouched was k = d := by
  simp [Dev.keyTouched, h]

theorem Dev.keyLong_of_stuck (was : Dev) (h : (d.keys.get 0).stuck = true) : d.keyLong was = d := by
  simp [Dev.keyLong, h]

/-- The release of a stuck key, where it is taken, changes the key alone: it is never a short touch. -/
theorem Dev.keyReleased_of_stuck (was : Dev) (h : (d.keys.get k).stuck = true) :
    d.keyReleased was k = d ∨ d.keyReleased was k = d.onKey k Key.released := by
  unfold Dev.keyReleased
  extract_lets x short d1
  have hshort : ¬ short := by simp [short, x, h]
  rw [if_neg hshort]
  split_ifs
  · exact .inl rfl
  · exact .inr rfl

end

section
variable {s : State} {k : Fin 2}

theorem exec_keyDrift_of_stuck (h : (s.dev.keys.get k).stuck = true) : exec (.keyDrift k) s = s.upd id := by
  simp [exec_keyDrift, execKeyDrift, State.upd, h]

theorem exec_keyRebase_of_stuck (h : (s.dev.keys.get k).stuck = true) : exec (.keyRebase k) s = s.upd id := by
  simp [exec_keyRebase, execKeyRebase, State.upd, h]

/-- A touch of 60 s makes the key stuck. -/
theorem exec_keyStuck_of_touched (htouched : (s.dev.keys.get k).touched = true) (hstuck : (s.dev.keys.get k).stuck = false)
    (hlong : (s.dev.keys.get k).touchAt + secs 60 ≤ s.dev.now) :
    exec (.keyStuck k) s = s.upd fun d => (d.onKey k fun x => { x with stuck := true }).raise .lio (8 + k.1) := by
  simp [exec_keyStuck, execKeyStuck, State.upd, htouched, hstuck, hlong]

/-- The key is enabled again where it has been free for 5 s. -/
theorem exec_keyUnstick_of_free (hstuck : (s.dev.keys.get k).stuck = true)
    (hfree : heldFor (s.dev.keys.get k).freeSince s.dev.now (secs 5) = true) :
    exec (.keyUnstick k) s = s.upd fun d => d.onKey k fun x => { x with stuck := false, touched := false } := by
  simp [exec_keyUnstick, execKeyUnstick, State.upd, hstuck, hfree]

theorem exec_keyUnstick_of_not_free (hfree : heldFor (s.dev.keys.get k).freeSince s.dev.now (secs 5) = false) :
    exec (.keyUnstick k) s = s.upd id := by
  simp [exec_keyUnstick, execKeyUnstick, State.upd, hfree]

end

/-- Settles O11: a touch and a long touch find the device as it was (`Dev.keyTouched_of_stuck`, `Dev.keyLong_of_stuck`), a
release and a measurement change the key alone (`Dev.keyReleased_of_stuck`, `Dev.keyMeasured_get`). -/
theorem stuckKeys : Obligations.StuckKeys := by
  unfold Obligations.StuckKeys
  refine ⟨fun s k htouched hstuck hlong => ?stuck, fun s k hstuck => ?touch, fun s hstuck => ?longTouch,
    fun s k hstuck => ?release, fun s k m hstuck _ => ?measurement, fun s k hstuck => ?drift, fun s k hstuck => ?rebase,
    fun s k hstuck => ?unstick⟩
  case stuck =>
    refine .of_upd (exec_keyStuck_of_touched htouched hstuck hlong) ⟨by simp, ?_, by simp⟩
    rw [Dev.settled_bit]
    exact Dev.raise_bit _ .lio _ _ (by omega)
  case touch => exact .of_upd (exec_keyTouch k s) (by simp [Dev.keyTouched_of_stuck _ hstuck])
  case longTouch => exact .of_upd (exec_keyLongTouch s) (by simp [Dev.keyLong_of_stuck _ hstuck])
  case release =>
    refine .of_upd (exec_keyRelease k s) ?_
    obtain hnone | hreleased := Dev.keyReleased_of_stuck s.shown hstuck
    · simp [hnone, hstuck]
    · simp [hreleased, Key.released, hstuck]
  case measurement =>
    refine .of_upd (exec_keyMeasurement k m s) ?_
    rw [Dev.settled_keys, Dev.keyMeasured_get]
    exact ⟨rfl, hstuck, Key.measured_freeSince_of_le _⟩
  case drift => exact .of_upd (exec_keyDrift_of_stuck hstuck) (by simp)
  case rebase => exact .of_upd (exec_keyRebase_of_stuck hstuck) (by simp)
  case unstick =>
    cases hfree : heldFor (s.dev.keys.get k).freeSince s.dev.now (secs 5) with
    | true => exact .of_upd (exec_keyUnstick_of_free hstuck hfree) (by simp)
    | false => exact .of_upd (exec_keyUnstick_of_not_free hfree) (by simp [hstuck])

end Sys2Proof.Machine
end

section
/-! SUPPORT. The frame of every command (R21, R22): each command but the closure is one update of the device, so the
commands that wait and what reads show stay, and the registers come out in canonical form. -/

namespace Sys2Proof.Machine

set_option Elab.async false

/-- Every command but the closure of a tick changes the device alone, and leaves its registers in canonical form. -/
theorem exec_eq_next (c : Instr) (s : State) (hc : c ≠ .tickClosure) :
    ∃ e : Dev, exec c s = .next { s with dev := e.settled } := by
  cases c with
  | tickClosure => exact absurd rfl hc
  | _ => exact ⟨_, rfl⟩

/-- The closure of a tick: the device as it closes is shown, and the next tick opens on it; a device that does not count
changes nothing. -/
theorem exec_tickClosure_cases (s : State) :
    (s.dev.ticking = false ∧ exec .tickClosure s = .next s) ∨
    (s.dev.ticking = true ∧ exec .tickClosure s = .next { s with
      dev := (s.dev.closeTick s.shown).settled.nextTick.settled, shown := (s.dev.closeTick s.shown).settled }) := by
  rw [exec_tickClosure, execTickClosure]
  cases s.dev.ticking with
  | false => exact .inl ⟨rfl, rfl⟩
  | true => exact .inr ⟨rfl, rfl⟩

/-- Settles O1: a step takes the command in front. -/
theorem stepRunsTheFront : Obligations.StepRunsTheFront := by
  unfold Obligations.StepRunsTheFront
  intro s c rest
  rfl

/-- Settles O2: with no command waiting a step leaves the state. -/
theorem emptyQueueIdles : Obligations.EmptyQueueIdles := by
  unfold Obligations.EmptyQueueIdles
  intro s hs
  rw [step, hs]

/-- Settles O3: an update of the device leaves the queue, and so does the closure. -/
theorem everyCommandAnswers : Obligations.EveryCommandAnswers := by
  unfold Obligations.EveryCommandAnswers
  intro s c
  by_cases hc : c = .tickClosure
  · subst hc
    obtain ⟨-, h⟩ | ⟨-, h⟩ := exec_tickClosure_cases s
    · exact ⟨s, h, rfl⟩
    · exact ⟨_, h, rfl⟩
  · obtain ⟨e, h⟩ := exec_eq_next c s hc
    exact ⟨_, h, rfl⟩

/-- A command leaves the register files in canonical form. -/
theorem exec_keeps_inv {c : Instr} {s t : State} (hs : s.Inv) (h : exec c s = .next t) : t.Inv := by
  by_cases hc : c = .tickClosure
  · subst hc
    obtain ⟨-, he⟩ | ⟨-, he⟩ := exec_tickClosure_cases s
    · obtain rfl : s = t := by simpa [he] using h
      exact hs
    · rw [he] at h
      cases h
      exact ⟨Dev.settled_wf _, Dev.settled_wf _⟩
  · obtain ⟨e, he⟩ := exec_eq_next c s hc
    rw [he] at h
    cases h
    exact ⟨Dev.settled_wf _, hs.2⟩

/-- Settles O6: every command keeps the form (`exec_keeps_inv`), and an idle step keeps the state. -/
theorem invariantKept : Obligations.InvariantKept := by
  unfold Obligations.InvariantKept
  intro s t hs h
  match hp : s.pending with
  | [] =>
    rw [step, hp] at h
    cases h
    exact hs
  | c :: rest =>
    rw [step, hp] at h
    exact exec_keeps_inv (s := { s with pending := rest }) hs h

/-! ### The frame of each command -/

/-- The frame of a command: what `touches` leaves out is as before, and but for the closure so is what reads show. -/
def Framed (c : Instr) (s : State) : Prop :=
  ∀ t, exec c s = .next t → s.dev.Keeps t.dev (touches c) ∧ (c ≠ .tickClosure → t.shown = s.shown)

theorem Framed.of_upd {c : Instr} {s : State} {f : Dev → Dev} {l : List Part} (hc : exec c s = s.upd f)
    (hf : s.dev.Keeps (f s.dev) l) (hl : touches c = l := by rfl) :
    Framed c s := by
  intro t ht
  rw [hc] at ht
  cases ht
  exact ⟨(hl ▸ hf).settled, fun _ => rfl⟩

theorem Dev.Keeps.mono {d e : Dev} {m l : List Part} (h : d.Keeps e m) (hs : Part.within m l = true := by rfl) :
    d.Keeps e l := h.via Dev.Keeps.rfl hs

/-- A list that names every part leaves nothing to keep. -/
theorem Dev.keeps_every (d e : Dev) : d.Keeps e Part.every := by
  intro p hp
  exact absurd (by cases p <;> decide) hp

/-- The closure of a tick on a device that counts. -/
theorem framed_tickClosure (s : State) : Framed .tickClosure s := by
  intro t ht
  refine ⟨?_, fun h => absurd rfl h⟩
  obtain ⟨-, he⟩ | ⟨-, he⟩ := exec_tickClosure_cases s
  · obtain rfl : s = t := by simpa [he] using ht
    exact .rfl
  · rw [he] at ht
    cases ht
    exact .settled (.via (Dev.nextTick_keeps _) (.settled ((Dev.closeTick_keeps _ _).mono)) rfl)

theorem Dev.Keeps.svcCmd {d e : Dev} {l : List Part} {f : Dev → Dev} (hf : ∀ e, Dev.Keeps e (f e) l) (h : d.Keeps e l)
    (hs : Part.within [.sec] l = true := by rfl) : d.Keeps (e.svcCmd f) l :=
  .ite (fun _ => h) fun _ => (h.via' (Dev.dropRngWait_keeps _ _) hs).trans (hf _) (List.Subset.refl _)

section
variable (s : State) (n : LinkId) (ch : Fin 4)

theorem framed_s0LevelChange (level : Bool) : Framed (.s0LevelChange ch level) s := by
  refine .of_upd (l := [.s0, .recorder, .rLio]) (exec_s0LevelChange _ _ _) (.ite (fun _ => .rfl) fun _ => ?_)
  refine .ite (fun _ => .raise (.countField ?_ rfl) rfl rfl) fun _ => ?_ <;> exact (Dev.onS0_keeps _ _ _).mono

theorem framed_s0PulseCount : Framed (.s0PulseCount ch) s := by
  refine .of_upd (l := [.s0, .recorder, .rLio]) (exec_s0PulseCount _ _) (.ite (fun _ => .ite (fun _ => ?_) fun _ => ?_) fun _ => .rfl)
  · refine .setReg (.setReg ?_ (contains_of (regPart_lioS0CntLo (by omega)) rfl)) (contains_of (regPart_lioS0CntHi (by omega)) rfl)
    exact .via (Dev.onS0_keeps _ _ _) (Dev.onS0_keeps _ _ _).mono rfl
  · exact .raise (Dev.onS0_keeps _ _ _).mono rfl rfl

theorem framed_tariffHoldExpiry (t : TenantId) : Framed (.tariffHoldExpiry t) s := by
  refine .of_upd (l := .pacer :: .power :: .tenants :: .bill :: .alloc :: .cfg :: .recorder :: .archive :: .met :: .lbill :: .veh ::
    Part.registers) (exec_tariffHoldExpiry _ _) (.ite (fun _ => ?_) fun _ => (Dev.lapFirst_keeps _).mono)
  split
  · exact .raise (.via (Dev.fnStat_keeps _ _ _ _) (.via (Dev.onTenant_keeps _ _ _) (.via (Dev.discardHold_keeps _ _)
      (Dev.lapFirst_keeps _).mono rfl) rfl) rfl) rfl (contains_regPart rfl _)
  · exact (Dev.lapFirst_keeps _).mono

theorem framed_sealChange (a b : Bool) : Framed (.sealChange a b) s := by
  refine .of_upd (l := Part.lap) (exec_sealChange _ _ _) (.ite (fun _ => ?_) fun _ => .via (Dev.sealTo_keeps _ _) ?_ rfl)
  all_goals exact (Dev.onBilling_keeps _ _).mono

theorem framed_pilotStateTaken : Framed (.pilotStateTaken n) s := by
  refine .of_upd (l := [.sec, .recorder, .cmd, .out, .con, .veh, .rVeh]) (exec_pilotStateTaken _ _) ?_
  extract_lets v
  split
  · exact .ite (fun _ => Dev.takePilot_keeps _ _ _) fun _ => .rfl
  · exact .rfl

theorem framed_pilotDiodeMissing : Framed (.pilotDiodeMissing n) s := by
  refine .of_upd (l := [.sec, .recorder, .cmd, .out, .con, .veh, .rVeh]) (exec_pilotDiodeMissing _ _) ?_
  split
  · exact .ite (fun _ => .via (Dev.pilotFaulted_keeps _ _) (Dev.onVeh_keeps _ _ _).mono rfl) fun _ => .rfl
  · exact .rfl

theorem framed_faultPilotFEnd : Framed (.faultPilotFEnd n) s := by
  refine .of_upd (l := [.veh]) (exec_faultPilotFEnd _ _) ?_
  split
  · exact .ite (fun _ => Dev.onVeh_keeps _ _ _) fun _ => .rfl
  · exact .rfl

theorem framed_stopCToBOpen : Framed (.stopCToBOpen n) s := by
  refine .of_upd (l := [.cmd, .con, .veh]) (exec_stopCToBOpen _ _) ?_
  split
  · exact .ite (fun _ => Dev.stopOpen_keeps _ _) fun _ => .rfl
  · exact .rfl

theorem framed_attemptRestart : Framed (.attemptRestart n) s := by
  refine .of_upd (l := [.veh]) (exec_attemptRestart _ _) ?_
  split
  · exact .ite (fun _ => Dev.onVeh_keeps _ _ _) fun _ => .rfl
  · exact .rfl

theorem framed_authHoldExpiry : Framed (.authHoldExpiry n) s := by
  refine .of_upd (l := [.veh]) (exec_authHoldExpiry _ _) ?_
  extract_lets v
  split
  · exact .ite (fun _ => Dev.onVeh_keeps _ _ _) fun _ => .rfl
  · exact .rfl

theorem framed_electionReadTimeout : Framed .electionReadTimeout s := by
  refine .of_upd (l := [.grid]) (exec_electionReadTimeout _) ?_
  split
  · exact .ite (fun _ => Dev.onGrid_keeps _ _) fun _ => .rfl
  · exact .rfl

theorem framed_gridMsgTimeout (x : Fin 32) : Framed (.gridMsgTimeout x) s := by
  refine .of_upd (l := [.grid, .recorder, .rGrd]) (exec_gridMsgTimeout _ _) ?_
  split
  · exact .ite (fun _ => Dev.badMsg_keeps _ _) fun _ => .rfl
  · exact .rfl

theorem framed_gridChallengeRx (x : Fin 32) : Framed (.gridChallengeRx x) s := by
  refine .of_upd (l := [.sec, .grid, .recorder, .rSec, .rGrd]) (exec_gridChallengeRx _ _) ?_
  split
  · exact .ite (fun _ => .via (Dev.takeChallenge_keeps _ _) (Dev.dropMsg_keeps _ _).mono rfl) fun _ => (Dev.dropMsg_keeps _ _).mono
  · exact .rfl

theorem framed_auxRunOnExpiry : Framed (.auxRunOnExpiry n ch) s := by
  refine .of_upd (l := [.aux]) (exec_auxRunOnExpiry _ _ _) ?_
  split
  · exact .ite (fun _ => .via (Dev.onAux_keeps _ _ _ _) (Dev.auxOff_keeps _ _ _) rfl) fun _ => .rfl
  · exact .rfl

theorem framed_auxOcRetry : Framed (.auxOcRetry n ch) s := by
  refine .of_upd (l := [.aux]) (exec_auxOcRetry _ _ _) ?_
  extract_lets a
  split
  · exact .ite (fun _ => Dev.auxOn_keeps _ _ _ _) fun _ => .rfl
  · exact .rfl

theorem framed_auxBlockedRetry : Framed (.auxBlockedRetry n ch) s := by
  refine .of_upd (l := [.aux]) (exec_auxBlockedRetry _ _ _) ?_
  extract_lets a
  split
  · exact .ite (fun _ => .via (Dev.onAux_keeps _ _ _ _) (Dev.auxOn_keeps _ _ _ _) rfl) fun _ => .rfl
  · exact .rfl

theorem framed_auxOpenLoad : Framed (.auxOpenLoad n ch) s := by
  refine .of_upd (l := [.recorder, .aux, .rAux]) (exec_auxOpenLoad _ _ _) (.ite (fun _ => ?_) fun _ => .rfl)
  have hset : s.dev.Keeps ((s.dev.onAux n ch fun x => { x with openSet := true }).raise (.aux n) (auxBit ch 1))
      [.recorder, .aux, .rAux] := .raise (Dev.onAux_keeps _ _ _ _).mono rfl (contains_of (regPart_auxEvents n.2) rfl)
  exact .ite (fun _ => .via (Dev.auxBlocked_keeps _ _ _) hset rfl) fun _ => hset

end

/-- The frame of every command: of the operations that a command is made of, each keeps what its lemma under `Laws` says. -/
theorem framed (c : Instr) (s : State) : Framed c s := by
  cases c with
  | tickClosure => exact framed_tickClosure s
  | samplePoint => exact .of_upd (exec_samplePoint _) (Dev.samplePoint_keeps _)
  | planningLapBoundary => exact .of_upd (exec_planningLapBoundary _) (Dev.planningLap_keeps _)
  | lapBoundary => exact .of_upd (exec_lapBoundary _) (Dev.lapBoundary_keeps _)
  | calendarSecond => exact .of_upd (exec_calendarSecond _) (Dev.calendarSecond_keeps _)
  | paceLoss => exact .of_upd (exec_paceLoss _) (Dev.paceLoss_keeps _)
  | paceDriftCheck => exact .of_upd (exec_paceDriftCheck _ _) (Dev.paceDriftCheck_keeps _ _)
  | lapOverrun => exact .of_upd (exec_lapOverrun _ _ _) (Dev.lapOverrun_keeps _ _ _)
  | porRelease => exact .of_upd (exec_porRelease _ _ _ _) (Dev.porRelease_keeps _ _ _ _)
  | enterStartingBlock => exact .of_upd (exec_enterStartingBlock _) (Dev.enterStartingBlock_keeps _)
  | enterRun => exact .of_upd (l := Part.every) (exec_enterRun _ _ _ _) (Dev.keeps_every _ _)
  | modeReqDormant => exact .of_upd (exec_modeReqDormant _) (Dev.modeRequested_keeps _ _)
  | modeReqRun => exact .of_upd (exec_modeReqRun _) (Dev.modeRequested_keeps _ _)
  | modeReqEconomy => exact .of_upd (exec_modeReqEconomy _) (Dev.modeRequested_keeps _ _)
  | modeReqMaintenance => exact .of_upd (exec_modeReqMaintenance _) (Dev.modeRequested_keeps _ _)
  | modeReqSafeHalt => exact .of_upd (exec_modeReqSafeHalt _) (Dev.modeRequested_keeps _ _)
  | ecoDelayExpiry => exact .of_upd (exec_ecoDelayExpiry _) (Dev.ecoDelayExpiry_keeps _)
  | supplyDormantEntry => exact .of_upd (exec_supplyDormantEntry _) (Dev.supplyDormantEntry_keeps _)
  | wakeFrameWake => exact .of_upd (exec_wakeFrameWake _ _ _) (Dev.wakeFrame_keeps _ _ _)
  | wakeFrameSleepNotice => exact .of_upd (exec_wakeFrameSleepNotice _ _ _) (Dev.sleepNotice_keeps _ _ _)
  | wakeFrameAlert => exact .of_upd (exec_wakeFrameAlert _ _ _) (Dev.alertFrame_keeps _ _ _)
  | wakeBitTimeout => exact .of_upd (l := [.power]) (exec_wakeBitTimeout _) (Dev.onPower_keeps _ _)
  | pfailRelease => exact .of_upd (exec_pfailRelease _) (Dev.pfailRelease_keeps _)
  | readVoutPoll => exact .of_upd (exec_readVoutPoll _) (Dev.readVoutPoll_keeps _)
  | pmbusTransactionDone => exact .of_upd (exec_pmbusTransactionDone _ _) (Dev.pmbusDone_keeps _ _)
  | pmbusRetry => exact .of_upd (exec_pmbusRetry _) (Dev.pmbusRetry_keeps _)
  | pmbusRecoveryRetry => exact .of_upd (exec_pmbusRecoveryRetry _) (Dev.pmbusRecoveryRetry_keeps _)
  | tempoLower => exact .of_upd (exec_tempoLower _) (Dev.tempoLower_keeps _)
  | pmbAlert => exact .of_upd (exec_pmbAlert _) (Dev.pmbAlert_keeps _)
  | vcoreLow => exact .of_upd (exec_vcoreLow _) (Dev.vcoreLow_keeps _)
  | supplyWarning => exact .of_upd (exec_supplyWarning _ _) (Dev.supplyWarning_keeps _ _)
  | supplyRecovery => exact .of_upd (exec_supplyRecovery _ _) (Dev.supplyRecovery_keeps _ _)
  | railUndervoltageReset => exact .of_upd (l := Part.every) (exec_railUndervoltageReset _ _) (Dev.keeps_every _ _)
  | porAssert => exact .of_upd (l := Part.every) (exec_porAssert _) (Dev.keeps_every _ _)
  | writeInc => exact .of_upd (l := Part.port) (exec_writeInc _ _ _) (Dev.transact_keeps _ _ _)
  | writeFix => exact .of_upd (l := Part.port) (exec_writeFix _ _ _) (Dev.transact_keeps _ _ _)
  | readInc => exact .of_upd (l := Part.port) (exec_readInc _ _ _) (Dev.transact_keeps _ _ _)
  | readFix => exact .of_upd (l := Part.port) (exec_readFix _ _ _) (Dev.transact_keeps _ _ _)
  | readId => exact .of_upd (exec_readId _) (Dev.transact_keeps _ _ _)
  | unknownOpcode =>
    exact .of_upd (l := Part.port) (exec_unknownOpcode _ _) (.ite (fun _ => .rfl) fun _ => Dev.transact_keeps _ _ _)
  | transactionAbort => exact .of_upd (exec_transactionAbort _ _ _ _ _) (Dev.abort_keeps _ _ _ _ _ _)
  | guardPairExpiry => exact .of_upd (exec_guardPairExpiry _) (Dev.pairExpiry_keeps _)
  | stallTimeout => exact .of_upd (exec_stallTimeout _ _ _ _ _ _ _) (Dev.stallTimeout_keeps _ _ _ _ _ _ _ _)
  | headTimeout => exact .of_upd (exec_headTimeout _ _) (Dev.headTimeout_keeps _ _ _)
  | registerWrite =>
    exact .of_upd (l := (.svc :: .sec :: .grid :: .cfg :: .upd :: .mem :: .archive :: .locked :: .fresh :: .lnk :: .lprot ::
      .rGlb :: .rPwr :: .rCfg :: .rUpd :: .rSec :: .rMem :: .rEvr :: .rPrt :: .rGrd :: .rTag :: .rLio :: .rHpt :: .rLnk ::
      .rAux :: .rNone :: Part.session)) (exec_registerWrite _ _ _) (.hosted (fun e => e.registerWrite_keeps _ _ _) .rfl)
  | w1cClear =>
    exact .of_upd (l := (.recorder :: .mem :: Part.registers)) (exec_w1cClear _ _ _) (.hosted (fun e => e.w1cClear_keeps _ _
      _) .rfl)
  | wideValueCapture => exact .of_upd (l := [.host]) (exec_wideValueCapture _ _) (.hosted (fun e => e.wideRead_keeps _ _) .rfl)
  | errCauseRead => exact .of_upd (l := [.host]) (exec_errCauseRead _) (.hosted (fun e => e.onHost_keeps _) .rfl)
  | stallMaxWrite =>
    exact .of_upd (l := [.rHpt]) (exec_stallMaxWrite _ _) (.hosted (fun _ => .ite (fun _ => .setReg .rfl rfl) fun _ => .rfl)
      .rfl)
  | headRegisterAccess => exact .of_upd (l := Part.port) (exec_headRegisterAccess _ _ _ _) (Dev.transact_keeps _ _ _)
  | headFrameReceived =>
    exact .of_upd (l := [.alloc, .prot, .recorder, .lnk, .hs, .rx, .cmd, .met, .group, .out, .con, .veh, .lprot, .aux, .rAlc,
      .rLnk, .rAux]) (exec_headFrameReceived _ _ _) (.via (Dev.feedbackTaken_keeps _ _ _) (Dev.frame_keeps _ _ _).mono rfl)
  | alarmReceived => exact .of_upd (exec_alarmReceived _ _ _) (Dev.alarm_keeps _ _ _)
  | trainingStart => exact .of_upd (exec_trainingStart _ _) (Dev.startTraining_keeps _ _)
  | trainAReply => exact .of_upd (exec_trainAReply _ _ _) (Dev.trainA_keeps _ _ _)
  | trainBEcho => exact .of_upd (exec_trainBEcho _ _ _ _) (Dev.trainB_keeps _ _ _ _)
  | trainingComplete =>
    exact .of_upd (l := [.alloc, .prot, .recorder, .lnk, .cmd, .group, .out, .con, .veh, .lprot, .ltag, .rAlc, .rTag, .rLnk,
      .rVeh]) (exec_trainingComplete _ _) (.via (Dev.trainDone_keeps _ _) (Dev.enterConfirm_keeps _ _).mono rfl)
  | trainingFail => exact .of_upd (exec_trainingFail _ _) (Dev.trainingFails_keeps _ _)
  | trainingRetry => exact .of_upd (exec_trainingRetry _ _) (Dev.retryTraining_keeps _ _)
  | linkLost => exact .of_upd (exec_linkLost _ _) (Dev.lose_keeps _ _)
  | retrain =>
    exact .of_upd (l := [.alloc, .prot, .recorder, .lnk, .cmd, .met, .group, .out, .con, .veh, .rAlc, .rLnk]) (exec_retrain _
      _) (.gw (fun e => e.retrain_keeps _) .rfl (contains_of (regPart_lnkCmd (Fin.isLt _)) rfl))
  | headRegResponse => exact .of_upd (exec_headRegResponse _ _ _ _ _ _) (Dev.response_keeps _ _ _ _ _ _ _)
  | headRegRepeat => exact .of_upd (exec_headRegRepeat _ _) (Dev.repeatReq_keeps _ _)
  | overcurrentDecision => exact .of_upd (exec_overcurrentDecision _ _ _) (Dev.overcurrent_keeps _ _ _)
  | senseOpen => exact .of_upd (exec_senseOpen _ _) (Dev.senseOpened_keeps _ _)
  | senseOpenClear =>
    exact .of_upd (l := [.met]) (exec_senseOpenClear _ _) (.ite (fun _ => Dev.onMet_keeps _ _ _) fun _ => .rfl)
  | tpoPulseStart => exact .of_upd (exec_tpoPulseStart _ _) (Dev.tpoStart_keeps _ _)
  | tpoPulseEnd =>
    exact .of_upd (l := [.tpo]) (exec_tpoPulseEnd _ _) (.ite (fun _ => .via (Dev.tpoPin_keeps _ _) (Dev.onTpo_keeps _ _
      _).mono rfl) fun _ => .rfl)
  | s0LevelChange => exact framed_s0LevelChange s _ _
  | s0PulseCount => exact framed_s0PulseCount s _
  | s0Stuck =>
    exact .of_upd (l := [.s0, .recorder, .rLio]) (exec_s0Stuck _ _) (.ite (fun _ => .raise (Dev.onS0_keeps _ _ _).mono rfl
      rfl) fun _ => .rfl)
  | tariffHoldExpiry => exact framed_tariffHoldExpiry s _
  | mdIntervalEnd => exact .of_upd (exec_mdIntervalEnd _ _ _) (Dev.mdEnd_keeps _ _ _)
  | sealChange => exact framed_sealChange s _ _
  | sealFault => exact .of_upd (l := Part.lap) (exec_sealFault _) (.ite (fun _ => Dev.sealTo_keeps _ _) fun _ => .rfl)
  | recordSigned => exact .of_upd (exec_recordSigned _) (Dev.recordSigned_keeps _)
  | recCursorWrite => exact .of_upd (l := [.rBil]) (exec_recCursorWrite _ _) (.hosted (fun _ => .setReg .rfl rfl) .rfl)
  | tokensCredited => exact .of_upd (exec_tokensCredited _ _) (Dev.creditTokens_keeps _ _)
  | reduceTimeout => exact .of_upd (exec_reduceTimeout _ _) (Dev.reduceStop_keeps _ _)
  | hostLimitWrite =>
    exact .of_upd (l := [.alloc, .rAlc]) (exec_hostLimitWrite _ _) (.hosted (fun e => e.hostLimit_keeps _) .rfl)
  | utilLimitStart => exact .of_upd (exec_utilLimitStart _) (Dev.limitStart_keeps _)
  | utilLimitExpiry => exact .of_upd (exec_utilLimitExpiry _) (Dev.limitExpiry_keeps _)
  | budgetInForce => exact .of_upd (exec_budgetInForce _) (Dev.lowerBudget_keeps _)
  | groupNotReady => exact .of_upd (exec_groupNotReady _ _) (Dev.notReady_keeps _ _)
  | withdrawOpen => exact .of_upd (exec_withdrawOpen _ _) (Dev.breakGroup_keeps _ _)
  | withdrawEnd => exact .of_upd (exec_withdrawEnd _ _) (Dev.unwithdraw_keeps _ _)
  | groupIdleOff =>
    exact .of_upd (l := [.cmd, .group]) (exec_groupIdleOff _ _) (.ite (fun _ => Dev.driveGroup_keeps _ _) fun _ => .rfl)
  | assignDischarged => exact .of_upd (exec_assignDischarged _ _) (Dev.assignPrepare_keeps _ _)
  | assignOwned => exact .of_upd (exec_assignOwned _ _) (Dev.assignJoin_keeps _ _)
  | releaseCurrentLow => exact .of_upd (exec_releaseCurrentLow _ _) (Dev.releaseLow_keeps _ _)
  | releaseDischarged => exact .of_upd (exec_releaseDischarged _ _) (Dev.releaseOpen_keeps _ _)
  | releaseFreed => exact .of_upd (exec_releaseFreed _ _) (Dev.releaseDone_keeps _ _)
  | exchRampDone => exact .of_upd (exec_exchRampDone _ _) (Dev.exchOpen_keeps _ _)
  | exchDonorOpen => exact .of_upd (exec_exchDonorOpen _ _) (Dev.exchDonorOpen_keeps _ _)
  | exchMatched => exact .of_upd (exec_exchMatched _ _) (Dev.exchMatched_keeps _ _)
  | exchSegPrepare => exact .of_upd (exec_exchSegPrepare _ _) (Dev.exchPrepare_keeps _ _)
  | exchCloseCommand => exact .of_upd (exec_exchCloseCommand _ _) (Dev.exchClose_keeps _ _)
  | exchJoined => exact .of_upd (exec_exchJoined _ _) (Dev.exchJoin_keeps _ _)
  | exchTimeout => exact .of_upd (exec_exchTimeout _ _) (Dev.exchTimeout_keeps _ _)
  | contactorOpenFault => exact .of_upd (exec_contactorOpenFault _ _ _) (Dev.openFault_keeps _ _ _)
  | contactorWeld => exact .of_upd (exec_contactorWeld _ _ _) (Dev.weldFault_keeps _ _ _)
  | pilotStateTaken => exact framed_pilotStateTaken s _
  | pilotFault =>
    exact .of_upd (l := [.sec, .recorder, .cmd, .out, .con, .veh, .rVeh]) (exec_pilotFault _ _) (.ite (fun _ => .via
      (Dev.pilotFaulted_keeps _ _) (Dev.onVeh_keeps _ _ _).mono rfl) fun _ => .rfl)
  | pilotDiodeMissing => exact framed_pilotDiodeMissing s _
  | faultPilotFEnd => exact framed_faultPilotFEnd s _
  | stopCToBOpen => exact framed_stopCToBOpen s _
  | proximityTaken =>
    exact .of_upd (l := [.sec, .recorder, .cmd, .out, .con, .veh, .rVeh]) (exec_proximityTaken _ _) (.ite (fun _ =>
      (Dev.takeProx_keeps _ _ _).mono) fun _ => .rfl)
  | matchingStart => exact .of_upd (exec_matchingStart _ _) (Dev.startMatching_keeps _ _)
  | slacParmReq => exact .of_upd (exec_slacParmReq _ _ _ _) (Dev.slacParm_keeps _ _ _ _)
  | startAttenCharInd => exact .of_upd (exec_startAttenCharInd _ _ _) (Dev.soundingStart_keeps _ _ _)
  | slacMatchReq => exact .of_upd (exec_slacMatchReq _ _ _ _ _) (Dev.slacMatch_keeps _ _ _ _ _)
  | cmValidate => exact .of_upd (exec_cmValidate _ _ _) (Dev.validate_keeps _ _ _)
  | slacInitExpiry => exact .of_upd (exec_slacInitExpiry _ _) (Dev.slacExpiry_keeps _ _)
  | attemptRestart => exact framed_attemptRestart s _
  | supportedAppProtocol => exact .of_upd (exec_supportedAppProtocol _ _ _) (Dev.appProtocol_keeps _ _ _)
  | sessionSetupReq => exact .of_upd (exec_sessionSetupReq _ _ _) (Dev.sessionSetup_keeps _ _ _)
  | authorizationReq => exact .of_upd (exec_authorizationReq _ _ _ _) (Dev.authRequest_keeps _ _ _ _)
  | cableCheckReq => exact .of_upd (exec_cableCheckReq _ _ _) (Dev.cableCheck_keeps _ _ _)
  | preChargeReq => exact .of_upd (exec_preChargeReq _ _ _ _ _) (Dev.preCharge_keeps _ _ _ _ _)
  | powerDeliveryStart => exact .of_upd (exec_powerDeliveryStart _ _ _) (Dev.deliver_keeps _ _ _)
  | powerDeliveryStop => exact .of_upd (exec_powerDeliveryStop _ _ _) (Dev.deliverStop_keeps _ _ _)
  | chargeLoopReq => exact .of_upd (exec_chargeLoopReq _ _ _ _) (Dev.chargeLoop_keeps _ _ _ _)
  | pauseStandbyReq =>
    exact .of_upd (l := [.out, .veh, .rVeh]) (exec_pauseStandbyReq _ _) (.ite (fun _ => .via (Dev.startStop_keeps _ _ _ _)
      (Dev.answer_keeps _ _ _).mono rfl) fun _ => .rfl)
  | v2gSequenceTimeout =>
    exact .of_upd (l := [.sec, .recorder, .out, .veh, .rVeh]) (exec_v2gSequenceTimeout _ _) (.ite (fun _ =>
      Dev.badMessage_keeps _ _) fun _ => .rfl)
  | stateBoundExpiry => exact .of_upd (exec_stateBoundExpiry _ _) (Dev.stateBound_keeps _ _)
  | authTimeout =>
    exact .of_upd (l := [.sec, .recorder, .veh, .rVeh]) (exec_authTimeout _ _) (.ite (fun _ => .via (Dev.endAttempt_keeps _ _
      _) (.via (Dev.answer_keeps _ _ _) (.raise .rfl rfl (contains_of (regPart_vehEvents (Fin.isLt _)) rfl)) rfl) rfl) fun _
      => .rfl)
  | authHoldExpiry => exact framed_authHoldExpiry s _
  | stopCurrentLow =>
    exact .of_upd (l := [.cmd, .con, .veh]) (exec_stopCurrentLow _ _) (.ite (fun _ => Dev.stopOpen_keeps _ _) fun _ => .rfl)
  | stopMsExpiry =>
    exact .of_upd (l := [.recorder, .cmd, .con, .veh, .rVeh]) (exec_stopMsExpiry _ _) (.ite (fun _ => .raise
      (Dev.stopOpen_keeps _ _).mono rfl (contains_of (regPart_vehEvents (Fin.isLt _)) rfl)) fun _ => .rfl)
  | sessionEnd => exact .of_upd (exec_sessionEnd _ _) (Dev.endIfOpen_keeps _ _)
  | vehStopCmd =>
    exact .of_upd (l := [.out, .veh, .rVeh]) (exec_vehStopCmd _ _) (.gw (fun e => (e.startStop_keeps _ _ _).mono) .rfl
      (contains_of (regPart_vehCmd (Fin.isLt _)) rfl))
  | dischKwWrite =>
    exact .of_upd (l := [.rVeh]) (exec_dischKwWrite _ _ _) (.hosted (fun _ => .ite (fun _ => .setReg .rfl (contains_of
      (regPart_vehDischKw (Fin.isLt _)) rfl)) fun _ => .rfl) .rfl)
  | directionSettled => exact .of_upd (exec_directionSettled _ _) (Dev.settleDirection_keeps _ _)
  | sprintChMismatch => exact .of_upd (exec_sprintChMismatch _ _) (Dev.channelMismatch_keeps _)
  | sprintSelftest => exact .of_upd (exec_sprintSelftest _ _ _) (Dev.selftest_keeps _ _)
  | tripoutReadbackFault => exact .of_upd (exec_tripoutReadbackFault _ _) (Dev.readbackFault_keeps _ _)
  | threshRetry => exact .of_upd (exec_threshRetry _ _) (Dev.threshRetry_keeps _ _)
  | imdHalfPeriod =>
    exact .of_upd (l := Part.trip) (exec_imdHalfPeriod _ _) (.ite (fun _ => Dev.halfPeriod_keeps _ _) fun _ => .rfl)
  | segReady => exact .of_upd (exec_segReady _ _) (Dev.segReady_keeps _ _)
  | symmetryFault => exact .of_upd (exec_symmetryFault _ _) (Dev.symmetryFault_keeps _ _)
  | rdcAcFault => exact .of_upd (exec_rdcAcFault _ _) (Dev.rdcAcFault_keeps _ _)
  | rdcDcFault => exact .of_upd (exec_rdcDcFault _ _) (Dev.rdcDcFault_keeps _ _)
  | siteRdc => exact .of_upd (exec_siteRdc _ _) (Dev.siteRdcFault_keeps _ _)
  | limitReduce => exact .of_upd (exec_limitReduce _ _ _) (Dev.limitReduce_keeps _ _ _)
  | limitTrip => exact .of_upd (exec_limitTrip _ _ _) (Dev.limitTrip_keeps _ _ _)
  | limitLift => exact .of_upd (exec_limitLift _ _ _) (Dev.limitLift_keeps _ _ _)
  | safeDirFault => exact .of_upd (exec_safeDirFault _ _) (Dev.safeDirFault_keeps _ _)
  | avPairChange => exact .of_upd (exec_avPairChange _ _ _ _) (Dev.avLevels_keeps _ _ _ _)
  | avDiscrepancy => exact .of_upd (exec_avDiscrepancy _ _) (Dev.avDiscrepancy_keeps _ _)
  | avTimerRestart => exact .of_upd (exec_avTimerRestart _ _) (Dev.avRestart_keeps _ _)
  | causeGone => exact .of_upd (exec_causeGone _ _ _) (Dev.causeGone_keeps _ _ _)
  | rstreqRise => exact .of_upd (exec_rstreqRise _ _) (Dev.resetRise_keeps _ _)
  | edgeResetAccepted => exact .of_upd (exec_edgeResetAccepted _ _) (Dev.resetFall_keeps _ _)
  | rstJammed => exact .of_upd (exec_rstJammed _ _) (Dev.resetJam_keeps _ _)
  | snDataFrame => exact .of_upd (exec_snDataFrame _ _ _) (Dev.snReceive_keeps _ _ _ _)
  | snResetFrame => exact .of_upd (exec_snResetFrame _ _ _) (Dev.snReceive_keeps _ _ _ _)
  | snSecondCopyTimeout => exact .of_upd (exec_snSecondCopyTimeout _ _) (Dev.copyLate_keeps _ _)
  | snWatchdogExpiry => exact .of_upd (exec_snWatchdogExpiry _ _) (Dev.watchdogLate_keeps _ _)
  | snStartTimeout => exact .of_upd (exec_snStartTimeout _ _) (Dev.startLate_keeps _ _)
  | snTx => exact .of_upd (exec_snTx _) (Dev.snTx_keeps _)
  | tagPoll => exact .of_upd (exec_tagPoll _ _) (Dev.tagPoll_keeps _ _)
  | tagEngineGrant => exact .of_upd (exec_tagEngineGrant _ _) (Dev.grantEngine_keeps _ _)
  | airResponse => exact .of_upd (exec_airResponse _ _ _) (Dev.airResponse_keeps _ _ _)
  | tagTransactionEnd => exact .of_upd (exec_tagTransactionEnd _ _) (Dev.tagEnd_keeps _ _)
  | tagEngineTimeout => exact .of_upd (exec_tagEngineTimeout _ _) (Dev.tagTimeout_keeps _ _)
  | tagPollPromote => exact .of_upd (exec_tagPollPromote _ _) (Dev.tagPromote_keeps _ _)
  | fieldResetEnd => exact .of_upd (exec_fieldResetEnd _ _) (Dev.fieldResetEnd_keeps _ _)
  | serviceFieldPresent => exact .of_upd (exec_serviceFieldPresent _) (Dev.fieldPresent_keeps _)
  | serviceFieldLost => exact .of_upd (exec_serviceFieldLost _) (Dev.fieldLost_keeps _)
  | svcReadSummary =>
    exact .of_upd (l := [.svc, .sec]) (exec_svcReadSummary _ _) (.svcCmd (fun e => (e.readSummary_keeps _).mono) .rfl)
  | svcReadLastword =>
    exact .of_upd (l := [.svc, .sec]) (exec_svcReadLastword _ _) (.svcCmd (fun e => (e.readLastword_keeps _).mono) .rfl)
  | svcAuth1 =>
    exact .of_upd (l := [.svc, .sec, .recorder, .fresh, .rSec]) (exec_svcAuth1 _) (.svcCmd (fun e => (e.svcAuth1_keeps).mono)
      .rfl)
  | svcAuth2 =>
    exact .of_upd (l := [.svc, .sec, .recorder, .fresh, .rSec, .rTag]) (exec_svcAuth2 _ _ _) (.svcCmd (fun e =>
      (e.svcAuth2_keeps _ _).mono) .rfl)
  | svcReadEvent =>
    exact .of_upd (l := [.svc, .sec]) (exec_svcReadEvent _ _ _) (.svcCmd (fun e => (e.svcReadEvent_keeps _ _).mono) .rfl)
  | svcMbxWrite =>
    exact .of_upd (l := [.svc, .sec, .rTag]) (exec_svcMbxWrite _ _ _ _) (.svcCmd (fun e => (e.mbxWrite_keeps _ _ _).mono)
      .rfl)
  | svcMbxRead => exact .of_upd (l := [.svc, .sec]) (exec_svcMbxRead _ _ _) (.svcCmd (fun e => (e.mbxRead_keeps _ _).mono) .rfl)
  | svcMbxAcquire =>
    exact .of_upd (l := [.svc, .sec, .recorder, .rTag]) (exec_svcMbxAcquire _) (.svcCmd (fun e => (e.fieldAcquire_keeps).mono)
      .rfl)
  | svcMbxPost =>
    exact .of_upd (l := [.svc, .sec, .recorder, .rTag]) (exec_svcMbxPost _ _) (.svcCmd (fun e => (e.fieldPost_keeps _).mono)
      .rfl)
  | svcMbxRelease =>
    exact .of_upd (l := [.svc, .sec]) (exec_svcMbxRelease _) (.svcCmd (fun e => (e.fieldRelease_keeps).mono) .rfl)
  | svcMbxCancel => exact .of_upd (l := [.svc, .sec]) (exec_svcMbxCancel _) (.svcCmd (fun e => (e.fieldCancel_keeps).mono) .rfl)
  | svcSecureTimeout => exact .of_upd (exec_svcSecureTimeout _) (Dev.svcTimeout_keeps _)
  | wireMbxAcquire => exact .of_upd (exec_wireMbxAcquire _) (Dev.wireAcquire_keeps _)
  | wireMbxPost => exact .of_upd (exec_wireMbxPost _ _) (Dev.wirePost_keeps _ _)
  | wireMbxRelease => exact .of_upd (exec_wireMbxRelease _) (Dev.wireRelease_keeps _)
  | wireMbxCancel => exact .of_upd (exec_wireMbxCancel _) (Dev.wireCancel_keeps _)
  | wireMbxDataWrite => exact .of_upd (exec_wireMbxDataWrite _ _ _) (Dev.wireWrite_keeps _ _ _)
  | wireMbxTimeout => exact .of_upd (exec_wireMbxTimeout _) (Dev.wireTimeout_keeps _)
  | hostTenantLock =>
    exact .of_upd (l := [.locked]) (exec_hostTenantLock _ _) (.ite (fun _ => Dev.lockTenant_keeps _ _) fun _ => .rfl)
  | enrolHe => exact .of_upd (l := [.sec, .recorder, .rSec]) (exec_enrolHe _) (.gw (fun e => e.enrol_keeps _) .rfl rfl)
  | enrolVendor => exact .of_upd (l := [.sec, .recorder, .rSec]) (exec_enrolVendor _) (.gw (fun e => e.enrol_keeps _) .rfl rfl)
  | rotateRoot =>
    exact .of_upd (l := [.sec, .recorder, .fresh, .rSec]) (exec_rotateRoot _) (.ite (fun _ => .gw (fun e =>
      e.rotateRoot_keeps) .rfl rfl) fun _ => .ite (fun _ => Dev.rotateRoot_keeps _) fun _ => .rfl)
  | rngRestart => exact .of_upd (l := [.sec, .rSec]) (exec_rngRestart _) (.gw (fun e => (e.rngRestart_keeps).mono) .rfl rfl)
  | loadChain =>
    exact .of_upd (l := [.sec, .recorder, .rSec]) (exec_loadChain _ _) (.gw (fun e => (e.loadChain_keeps _).mono) .rfl rfl)
  | objectSubmit =>
    exact .of_upd (l := [.sec, .recorder, .rSec]) (exec_objectSubmit _ _ _) (.hosted (fun e => (e.submitObject_keeps _
      _).mono) .rfl)
  | cryptoOperationDone => exact .of_upd (exec_cryptoOperationDone _ _ _) (Dev.operationDone_keeps _ _ _)
  | cryptoResult => exact .of_upd (exec_cryptoResult _) (Dev.cryptoResult_keeps _)
  | cryptoOverrun => exact .of_upd (exec_cryptoOverrun _) (Dev.cryptoOverrun_keeps _)
  | objectVerified => exact .of_upd (exec_objectVerified _ _) (Dev.objectReady_keeps _ _)
  | attestationStart =>
    exact .of_upd (l := [.sec, .recorder, .rSec]) (exec_attestationStart _) (.hosted (fun e => (e.attestStart_keeps).mono)
      .rfl)
  | rngHealthAlarm => exact .of_upd (exec_rngHealthAlarm _) (Dev.rngAlarm_keeps _)
  | rngStartupDone => exact .of_upd (exec_rngStartupDone _ _) (Dev.startupDone_keeps _ _)
  | rngReseed => exact .of_upd (l := [.sec]) (exec_rngReseed _) (.ite (fun _ => Dev.onSec_keeps _ _) fun _ => .rfl)
  | violCauseRead => exact .of_upd (l := [.sec]) (exec_violCauseRead _) (.hosted (fun e => (e.readViolCause_keeps).mono) .rfl)
  | waitMaxWrite => exact .of_upd (l := [.rSec]) (exec_waitMaxWrite _ _) (.hosted (fun e => (e.writeWaitMax_keeps _).mono) .rfl)
  | gridPeriodStart => exact .of_upd (exec_gridPeriodStart _ _) (Dev.gridPeriod_keeps _ _)
  | beaconDecoded => exact .of_upd (exec_beaconDecoded _ _) (Dev.beaconHeard_keeps _ _)
  | electionReadTimeout => exact framed_electionReadTimeout s
  | gridSegmentRx => exact .of_upd (exec_gridSegmentRx _ _) (Dev.segmentHeard_keeps _ _)
  | gridMsgTimeout => exact framed_gridMsgTimeout s _
  | gridObjectRx => exact .of_upd (exec_gridObjectRx _ _) (Dev.gridObject_keeps _ _)
  | gridPieceRx => exact .of_upd (exec_gridPieceRx _ _) (Dev.gridPiece_keeps _ _)
  | gridChallengeRx => exact framed_gridChallengeRx s _
  | gridTableRx => exact .of_upd (exec_gridTableRx _ _) (Dev.gridTable_keeps _ _)
  | gridListenExpiry =>
    exact .of_upd (l := [.grid]) (exec_gridListenExpiry _) (.ite (fun _ => .via (Dev.fillPeriod_keeps _ _) (Dev.onGrid_keeps _
      _) rfl) fun _ => .rfl)
  | beaconLoss =>
    exact .of_upd (l := [.grid, .recorder, .rGrd]) (exec_beaconLoss _) (.ite (fun _ => .raise (Dev.onGrid_keeps _ _).mono rfl
      rfl) fun _ => .rfl)
  | guardEnd => exact .of_upd (exec_guardEnd _) (Dev.guardDone_keeps _)
  | discoveryStart =>
    exact .of_upd (l := [.grid]) (exec_discoveryStart _) (.ite (fun _ => Dev.beginDiscovery_keeps _) fun _ => .rfl)
  | discoveryAnswerRx => exact .of_upd (exec_discoveryAnswerRx _ _) (Dev.answerHeard_keeps _ _)
  | grdDiscover => exact .of_upd (l := [.grid, .rGrd]) (exec_grdDiscover _) (.gw (fun e => (e.discover_keeps).mono) .rfl rfl)
  | grdRestart => exact .of_upd (l := [.grid, .rGrd]) (exec_grdRestart _) (.gw (fun e => (e.relisten_keeps).mono) .rfl rfl)
  | fnHold =>
    exact .of_upd (l := [.tenants, .alloc, .cfg, .recorder, .archive, .rCfg]) (exec_fnHold _ _ _) (.gw (fun e =>
      (e.fnHold_keeps _ _).mono) .rfl rfl)
  | fnResume =>
    exact .of_upd (l := (.pacer :: .power :: .tenants :: .bill :: .alloc :: .prot :: .cfg :: .recorder :: .archive :: .lnk ::
      .met :: .lbill :: .veh :: .lprot :: Part.registers)) (exec_fnResume _ _ _) (.gw (fun e => (e.fnResume_keeps _ _).mono)
      .rfl rfl)
  | fnCancel =>
    exact .of_upd (l := (.tenants :: .alloc :: .cfg :: .recorder :: .archive :: .met :: .veh :: Part.registers))
      (exec_fnCancel _ _ _) (.gw (fun e => (e.fnCancel_keeps _ _).mono) .rfl rfl)
  | fnCmdZero => exact .of_upd (l := [.rCfg]) (exec_fnCmdZero _ _ _) (.gw (fun _ => .rfl) .rfl rfl)
  | holdTakesEffect => exact .of_upd (exec_holdTakesEffect _ _) (Dev.holdStep_keeps _ _)
  | resumeTakesEffect => exact .of_upd (exec_resumeTakesEffect _ _) (Dev.resumeStep_keeps _ _)
  | cfgLoadWrite =>
    exact .of_upd (l := [.sec, .cfg, .recorder, .rCfg, .rSec]) (exec_cfgLoadWrite _) (.loadCmd (fun e =>
      (e.loadWrite_keeps).mono) .rfl rfl)
  | cfgLoadCommit =>
    exact .of_upd (l := [.sec, .cfg, .recorder, .rCfg, .rSec]) (exec_cfgLoadCommit _ _) (.loadCmd (fun e =>
      (e.loadCommit_keeps _).mono) .rfl rfl)
  | updPieceSubmit =>
    exact .of_upd (l := [.sec, .upd, .recorder, .rSec]) (exec_updPieceSubmit _ _ _) (.hosted (fun e => (e.submitPiece_keeps _
      _).mono) .rfl)
  | pieceChecked => exact .of_upd (exec_pieceChecked _ _) (Dev.pieceChecked_keeps _ _)
  | partVerified => exact .of_upd (exec_partVerified _ _) (Dev.partChecked_keeps _ _)
  | headStagingDone => exact .of_upd (exec_headStagingDone _ _) (Dev.stagingEnds_keeps _ _)
  | updActivate =>
    exact .of_upd (l := [.upd, .group, .out, .veh, .rUpd, .rVeh]) (exec_updActivate _) (.gw (fun e =>
      (e.updActivate_keeps).mono) .rfl rfl)
  | updAbandon => exact .of_upd (l := [.upd, .rUpd]) (exec_updAbandon _) (.gw (fun e => (e.updAbandon_keeps).mono) .rfl rfl)
  | manifestExpiry =>
    exact .of_upd (l := [.upd, .rUpd]) (exec_manifestExpiry _) (.ite (fun _ => Dev.endUpdate_keeps _ _) fun _ => .rfl)
  | activationEntry => exact .of_upd (exec_activationEntry _) (Dev.activationEntry_keeps _)
  | activationStopTimeout => exact .of_upd (exec_activationStopTimeout _) (Dev.activationTimeout_keeps _)
  | headsArmed => exact .of_upd (l := Part.every) (exec_headsArmed _) (Dev.keeps_every _ _)
  | loaderWriteDone => exact .of_upd (l := Part.every) (exec_loaderWriteDone _ _ _) (Dev.keeps_every _ _)
  | healthConfirm =>
    exact .of_upd (l := [.upd, .recorder, .lnk, .rUpd]) (exec_healthConfirm _ _) (.gw (fun e => (e.healthConfirm_keeps
      _).mono) .rfl rfl)
  | confirmWindowExpiry => exact .of_upd (l := Part.every) (exec_confirmWindowExpiry _) (Dev.keeps_every _ _)
  | scrubStep => exact .of_upd (exec_scrubStep _ _) (Dev.scrub_keeps _ _)
  | codePageRepair => exact .of_upd (exec_codePageRepair _ _ _) (Dev.repairPage_keeps _ _ _)
  | evrCursorWrite => exact .of_upd (l := [.rEvr]) (exec_evrCursorWrite _ _) (.hosted (fun _ => .setReg .rfl rfl) .rfl)
  | evrNorSectWrite => exact .of_upd (l := [.rEvr]) (exec_evrNorSectWrite _ _) (.hosted (fun _ => .setReg .rfl rfl) .rfl)
  | evrRetest => exact .of_upd (l := [.recorder, .rEvr]) (exec_evrRetest _) (.gw (fun e => (e.retest_keeps).mono) .rfl rfl)
  | retestDone => exact .of_upd (exec_retestDone _ _) (Dev.retestDone_keeps _ _)
  | lwClear => exact .of_upd (l := [.mem, .rMem]) (exec_lwClear _) (.gw (fun e => (e.clearLastWords_keeps).mono) .rfl rfl)
  | poisonAddrRead =>
    exact .of_upd (l := [.mem]) (exec_poisonAddrRead _) (.hosted (fun e => (e.readPoisonAddr_keeps).mono) .rfl)
  | norProgramDone => exact .of_upd (exec_norProgramDone _ _) (Dev.programDone_keeps _ _)
  | norEraseDone =>
    exact .of_upd (l := [.recorder, .archive, .rMem, .rEvr]) (exec_norEraseDone _ _) (.each (fun e k _ => (e.arcLost_keeps
      k).mono) (Dev.norErasedDone_keeps _ _).mono)
  | archiveBlockSealed => exact .of_upd (exec_archiveBlockSealed _ _) (Dev.blockSealed_keeps _ _)
  | nvmeCompletion => exact .of_upd (exec_nvmeCompletion _ _ _) (Dev.arcCompletion_keeps _ _ _)
  | nvmeTimeout => exact .of_upd (exec_nvmeTimeout _ _) (Dev.arcTimeout_keeps _ _)
  | arcReadGo => exact .of_upd (l := [.archive]) (exec_arcReadGo _ _) (.hosted (fun e => (e.arcRead_keeps _).mono) .rfl)
  | arcReadDone => exact .of_upd (exec_arcReadDone _ _) (Dev.arcReadDone_keeps _ _)
  | displayFrame => exact .of_upd (exec_displayFrame _ _) (Dev.displayFrame_keeps _ _)
  | bistablePulseEnd => exact .of_upd (exec_bistablePulseEnd _) (Dev.pulseEnd_keeps _)
  | vlcdFault =>
    exact .of_upd (l := [.disp, .recorder, .rLio]) (exec_vlcdFault _) (.ite (fun _ => .raise (Dev.onDisp_keeps _ _).mono rfl
      rfl) fun _ => .rfl)
  | vlcdRestart =>
    exact .of_upd (l := [.disp]) (exec_vlcdRestart _ _) (.ite (fun _ => .ite (fun _ => Dev.onDisp_keeps _ _) fun _ =>
      Dev.onDisp_keeps _ _) fun _ => .rfl)
  | keyMeasurement => exact .of_upd (exec_keyMeasurement _ _ _) (Dev.keyMeasured_keeps _ _ _)
  | keyTouch => exact .of_upd (exec_keyTouch _ _) (Dev.keyTouched_keeps _ _ _)
  | keyRelease => exact .of_upd (exec_keyRelease _ _) (Dev.keyReleased_keeps _ _ _)
  | keyLongTouch => exact .of_upd (exec_keyLongTouch _) (Dev.keyLong_keeps _ _)
  | keyStuck =>
    exact .of_upd (l := [.keys, .recorder, .rLio]) (exec_keyStuck _ _) (.ite (fun _ => .raise (Dev.onKey_keeps _ _ _).mono rfl
      rfl) fun _ => .rfl)
  | keyUnstick => exact .of_upd (l := [.keys]) (exec_keyUnstick _ _) (.ite (fun _ => Dev.onKey_keeps _ _ _) fun _ => .rfl)
  | keyRebase =>
    exact .of_upd (l := [.keys, .recorder, .rLio]) (exec_keyRebase _ _) (.ite (fun _ => .raise (Dev.onKey_keeps _ _ _).mono
      rfl rfl) fun _ => .rfl)
  | keyDrift => exact .of_upd (l := [.keys]) (exec_keyDrift _ _) (.ite (fun _ => Dev.onKey_keeps _ _ _) fun _ => .rfl)
  | scrollAutoAdvance =>
    exact .of_upd (l := [.scroll]) (exec_scrollAutoAdvance _) (.ite (fun _ => .via (Dev.onScroll_keeps _ _) (Dev.advance_keeps
      _ _ _).mono rfl) fun _ => .rfl)
  | scrollResume => exact .of_upd (l := [.scroll]) (exec_scrollResume _) (.ite (fun _ => Dev.onScroll_keeps _ _) fun _ => .rfl)
  | auxCmdWrite =>
    exact .of_upd (l := [.aux, .rAux]) (exec_auxCmdWrite _ _ _) (.hosted (fun e => (e.auxCommand_keeps _ _).mono) .rfl)
  | auxRunOnExpiry => exact framed_auxRunOnExpiry s _ _
  | auxOcRetry => exact framed_auxOcRetry s _ _
  | auxOpenLoad => exact framed_auxOpenLoad s _ _
  | auxMismatch =>
    exact .of_upd (l := [.recorder, .aux, .rAux]) (exec_auxMismatch _ _ _) (.ite (fun _ => .raise (Dev.onAux_keeps _ _ _
      _).mono rfl (contains_of (regPart_auxEvents (Fin.isLt _)) rfl)) fun _ => .rfl)
  | auxSpinTimeout =>
    exact .of_upd (l := [.recorder, .aux, .rAux]) (exec_auxSpinTimeout _ _ _) (.ite (fun _ => Dev.auxBlocked_keeps _ _ _) fun
      _ => .rfl)
  | auxBlockedRetry => exact framed_auxBlockedRetry s _ _
  | wakeRailsInRange => exact .of_upd (exec_wakeRailsInRange _) (Dev.wakeRailsInRange_keeps _)
  | dormantEntryEnd => exact .of_upd (l := Part.every) (exec_dormantEntryEnd _) (Dev.keeps_every _ _)
  | railResetRelease => exact .of_upd (exec_railResetRelease _ _) (Dev.railResetRelease_keeps _ _)
  | s0StuckClear => exact .of_upd (l := [.s0]) (exec_s0StuckClear _ _) (.ite (fun _ => Dev.onS0_keeps _ _ _) fun _ => .rfl)
  | soundingWindowEnd => exact .of_upd (exec_soundingWindowEnd _ _) (Dev.soundingEnd_keeps _ _)
  | attenSoundRx => exact .of_upd (exec_attenSoundRx _ _ _ _) (Dev.sound_keeps _ _ _ _)
  | negotiationReq => exact .of_upd (exec_negotiationReq _ _ _ _) (Dev.negotiate_keeps _ _ _ _)
  | tlsHandshake => exact .of_upd (exec_tlsHandshake _ _ _ _) (Dev.tlsStep_keeps _ _ _ _)
  | pcieLinkTrained => exact .of_upd (exec_pcieLinkTrained _ _ _ _) (Dev.arcTrained_keeps _ _ _ _)
  | cfgLoadCmdDone => exact .of_upd (exec_cfgLoadCmdDone _) (Dev.loadDone_keeps _)

/-- Settles O8: the frame of every command (`framed`), of which each command's case cites the frames of its operations. -/
theorem commandFrame : Obligations.CommandFrame := by
  unfold Obligations.CommandFrame
  exact fun s t c h => framed c s t h


/-! ### The state after reset -/

theorem Dev.reset_close (n : LinkId) : (Dev.reset.link n).cmd.close = 0 := by
  have h : Dev.reset.link n = Link.reset n := by simp [Dev.link, Dev.reset]
  rw [h]
  rfl

/-- Settles O4: the registers of the identity, the lap, the last link and the keys are read from the store at reset. -/
theorem resetState : Obligations.ResetState := by
  unfold Obligations.ResetState
  exact ⟨rfl, rfl, rfl, by decide, by decide, by decide, by decide, Dev.reset_close⟩

/-- Settles O5: the store of registers is in canonical form at reset, and so is the one that reads show. -/
theorem invariantAtReset : Obligations.InvariantAtReset := by
  unfold Obligations.InvariantAtReset
  exact ⟨rfl, rfl⟩

end Sys2Proof.Machine
end


section
/-! SUPPORT. How the clause of a command is shown: what the update leaves, the registers it leaves, and that it is none. -/

namespace Sys2Proof.Machine

set_option Elab.async false

/-- A command that finds its condition unmet changes nothing. -/
theorem Completes.idle {c : Instr} {s : State} {f : Dev → Dev} (hc : exec c s = s.upd f) (h : f s.dev = s.dev) :
    Completes c s fun e => s.dev.Keeps e [] :=
  .of_upd hc (by rw [h]; exact Dev.Keeps.rfl.settled)

/-- A command completes with what a given device shows, once the update is known to lead there. -/
theorem Completes.of_eq {c : Instr} {s : State} {f : Dev → Dev} {e : Dev} {P : Dev → Prop} (hc : exec c s = s.upd f)
    (h : f s.dev = e) (hP : P e.settled) : Completes c s P :=
  .of_upd hc (by rwa [h])

theorem Completes.imp {c : Instr} {s : State} {P Q : Dev → Prop} (h : Completes c s P) (hPQ : ∀ e, P e → Q e) :
    Completes c s Q := by
  obtain ⟨t, ht, hpending, hshown, hP⟩ := h
  exact ⟨t, ht, hpending, hshown, hPQ _ hP⟩

/-! ### Registers that an update leaves -/

section
variable {d e : Dev} {as : List Nat}

theorem Dev.RegsBut.settled (h : d.RegsBut e as) : d.RegsBut e.settled as := h.trans (e.settled_regsBut as)

theorem Dev.RegsBut.of_same (h : d.RegsBut e as) {f : Dev} (hf : ∀ a, f.reg a = e.reg a) : d.RegsBut f as :=
  fun a ha => (hf a).trans (h a ha)

theorem Dev.RegsBut.setReg (h : d.RegsBut e as) {a : Nat} {w : Word} (ha : a ∈ as) : d.RegsBut (e.setReg a w) as :=
  fun b hb => by rw [Dev.setReg_reg, if_neg (ne_of_mem_of_not_mem ha hb).symm, h b hb]

theorem Dev.RegsBut.setField (h : d.RegsBut e as) {a lo w v : Nat} (ha : a ∈ as) : d.RegsBut (e.setField a lo w v) as :=
  h.setReg ha

theorem Dev.RegsBut.countField (h : d.RegsBut e as) {a lo w n : Nat} (ha : a ∈ as) : d.RegsBut (e.countField a lo w n) as :=
  h.setReg ha

theorem Dev.RegsBut.count (h : d.RegsBut e as) {a n : Nat} (ha : a ∈ as) : d.RegsBut (e.count a n) as := h.setReg ha

theorem Dev.RegsBut.raise (h : d.RegsBut e as) {r : EvReg} {b : Nat} {w : Word} {t : Option TenantId} (hr : r.addr ∈ as) :
    d.RegsBut (e.raise r b w t) as :=
  fun a ha => by rw [Dev.raise_reg, if_neg (ne_of_mem_of_not_mem hr ha).symm, h a ha]

theorem Dev.RegsBut.raiseAlways (h : d.RegsBut e as) {r : EvReg} {b : Nat} {w : Word} {t : Option TenantId} (hr : r.addr ∈ as) :
    d.RegsBut (e.raiseAlways r b w t) as :=
  fun a ha => by rw [Dev.raiseAlways_reg, if_neg (ne_of_mem_of_not_mem hr ha).symm, h a ha]

/-- A register that only one raised event names. -/
theorem Dev.settled_raise_bit (d : Dev) (r : EvReg) {b : Nat} (w : Word) (t : Option TenantId) (hb : b < 32) :
    (d.raise r b w t).settled.bit r.addr b = true := by
  rw [Dev.settled_bit]
  exact d.raise_bit r w t hb

theorem Dev.raise_bit_other (d : Dev) {r : EvReg} {a : Nat} (b k : Nat) (w : Word) (t : Option TenantId) (ha : a ≠ r.addr) :
    (d.raise r b w t).bit a k = d.bit a k := by
  rw [Dev.bit, Dev.raise_reg, if_neg ha, Dev.bit]

end

/-! ### Updates of a section leave every register -/

section
variable {d e : Dev} {as : List Nat}

theorem Dev.RegsBut.onPower {f} (h : d.RegsBut e as) : d.RegsBut (e.onPower f) as := h

theorem Dev.RegsBut.onPacer {f} (h : d.RegsBut e as) : d.RegsBut (e.onPacer f) as := h

theorem Dev.RegsBut.onHost {f} (h : d.RegsBut e as) : d.RegsBut (e.onHost f) as := h

theorem Dev.RegsBut.onBilling {f} (h : d.RegsBut e as) : d.RegsBut (e.onBilling f) as := h

theorem Dev.RegsBut.onAlloc {f} (h : d.RegsBut e as) : d.RegsBut (e.onAlloc f) as := h

theorem Dev.RegsBut.onProtection {f} (h : d.RegsBut e as) : d.RegsBut (e.onProtection f) as := h

theorem Dev.RegsBut.onSvc {f} (h : d.RegsBut e as) : d.RegsBut (e.onSvc f) as := h

theorem Dev.RegsBut.onSec {f} (h : d.RegsBut e as) : d.RegsBut (e.onSec f) as := h

theorem Dev.RegsBut.onGrid {f} (h : d.RegsBut e as) : d.RegsBut (e.onGrid f) as := h

theorem Dev.RegsBut.onDisp {f} (h : d.RegsBut e as) : d.RegsBut (e.onDisp f) as := h

theorem Dev.RegsBut.onScroll {f} (h : d.RegsBut e as) : d.RegsBut (e.onScroll f) as := h

theorem Dev.RegsBut.onCfg {f} (h : d.RegsBut e as) : d.RegsBut (e.onCfg f) as := h

theorem Dev.RegsBut.onUpd {f} (h : d.RegsBut e as) : d.RegsBut (e.onUpd f) as := h

theorem Dev.RegsBut.onMem {f} (h : d.RegsBut e as) : d.RegsBut (e.onMem f) as := h

theorem Dev.RegsBut.onArc {f} (h : d.RegsBut e as) : d.RegsBut (e.onArc f) as := h

theorem Dev.RegsBut.onRec {f} (h : d.RegsBut e as) : d.RegsBut (e.onRec f) as := h

theorem Dev.RegsBut.onLnk {k f} (h : d.RegsBut e as) : d.RegsBut (e.onLnk k f) as := h

theorem Dev.RegsBut.onCmd {k f} (h : d.RegsBut e as) : d.RegsBut (e.onCmd k f) as := h

theorem Dev.RegsBut.onMet {k f} (h : d.RegsBut e as) : d.RegsBut (e.onMet k f) as := h

theorem Dev.RegsBut.onBill {k f} (h : d.RegsBut e as) : d.RegsBut (e.onBill k f) as := h

theorem Dev.RegsBut.onGroup {k f} (h : d.RegsBut e as) : d.RegsBut (e.onGroup k f) as := h

theorem Dev.RegsBut.onOut {k f} (h : d.RegsBut e as) : d.RegsBut (e.onOut k f) as := h

theorem Dev.RegsBut.onCon {k f} (h : d.RegsBut e as) : d.RegsBut (e.onCon k f) as := h

theorem Dev.RegsBut.onVeh {k f} (h : d.RegsBut e as) : d.RegsBut (e.onVeh k f) as := h

theorem Dev.RegsBut.onProt {k f} (h : d.RegsBut e as) : d.RegsBut (e.onProt k f) as := h

theorem Dev.RegsBut.onTag {k f} (h : d.RegsBut e as) : d.RegsBut (e.onTag k f) as := h

theorem Dev.RegsBut.onLink {k f} (h : d.RegsBut e as) : d.RegsBut (e.onLink k f) as := h

theorem Dev.RegsBut.onKey {k f} (h : d.RegsBut e as) : d.RegsBut (e.onKey k f) as := h

theorem Dev.RegsBut.onTenant {k f} (h : d.RegsBut e as) : d.RegsBut (e.onTenant k f) as := h

theorem Dev.RegsBut.onAux {n k f} (h : d.RegsBut e as) : d.RegsBut (e.onAux n k f) as := h

end

/-! ### Parts that an update leaves -/

section
variable {d e : Dev} {l : List Part}

theorem Dev.Keeps.onPower {f} (h : d.Keeps e l) (hs : Part.within [.power] l = true := by rfl) : d.Keeps (e.onPower f) l :=
  h.via' (Dev.onPower_keeps e f) hs

theorem Dev.Keeps.onPacer {f} (h : d.Keeps e l) (hs : Part.within [.pacer] l = true := by rfl) : d.Keeps (e.onPacer f) l :=
  h.via' (Dev.onPacer_keeps e f) hs

theorem Dev.Keeps.onHost {f} (h : d.Keeps e l) (hs : Part.within [.host] l = true := by rfl) : d.Keeps (e.onHost f) l :=
  h.via' (Dev.onHost_keeps e f) hs

theorem Dev.Keeps.onBilling {f} (h : d.Keeps e l) (hs : Part.within [.bill] l = true := by rfl) : d.Keeps (e.onBilling f) l :=
  h.via' (Dev.onBilling_keeps e f) hs

theorem Dev.Keeps.onAlloc {f} (h : d.Keeps e l) (hs : Part.within [.alloc] l = true := by rfl) : d.Keeps (e.onAlloc f) l :=
  h.via' (Dev.onAlloc_keeps e f) hs

theorem Dev.Keeps.onProtection {f} (h : d.Keeps e l) (hs : Part.within [.prot] l = true := by rfl) : d.Keeps (e.onProtection f) l :=
  h.via' (Dev.onProtection_keeps e f) hs

theorem Dev.Keeps.onSvc {f} (h : d.Keeps e l) (hs : Part.within [.svc] l = true := by rfl) : d.Keeps (e.onSvc f) l :=
  h.via' (Dev.onSvc_keeps e f) hs

theorem Dev.Keeps.onSec {f} (h : d.Keeps e l) (hs : Part.within [.sec] l = true := by rfl) : d.Keeps (e.onSec f) l :=
  h.via' (Dev.onSec_keeps e f) hs

theorem Dev.Keeps.onGrid {f} (h : d.Keeps e l) (hs : Part.within [.grid] l = true := by rfl) : d.Keeps (e.onGrid f) l :=
  h.via' (Dev.onGrid_keeps e f) hs

theorem Dev.Keeps.onDisp {f} (h : d.Keeps e l) (hs : Part.within [.disp] l = true := by rfl) : d.Keeps (e.onDisp f) l :=
  h.via' (Dev.onDisp_keeps e f) hs

theorem Dev.Keeps.onScroll {f} (h : d.Keeps e l) (hs : Part.within [.scroll] l = true := by rfl) : d.Keeps (e.onScroll f) l :=
  h.via' (Dev.onScroll_keeps e f) hs

theorem Dev.Keeps.onKey {k} {f} (h : d.Keeps e l) (hs : Part.within [.keys] l = true := by rfl) : d.Keeps (e.onKey k f) l :=
  h.via' (Dev.onKey_keeps e _ f) hs

theorem Dev.Keeps.onTpo {k} {f} (h : d.Keeps e l) (hs : Part.within [.tpo] l = true := by rfl) : d.Keeps (e.onTpo k f) l :=
  h.via' (Dev.onTpo_keeps e _ f) hs

theorem Dev.Keeps.onS0 {k} {f} (h : d.Keeps e l) (hs : Part.within [.s0] l = true := by rfl) : d.Keeps (e.onS0 k f) l :=
  h.via' (Dev.onS0_keeps e _ f) hs

theorem Dev.Keeps.onCfg {f} (h : d.Keeps e l) (hs : Part.within [.cfg] l = true := by rfl) : d.Keeps (e.onCfg f) l :=
  h.via' (Dev.onCfg_keeps e f) hs

theorem Dev.Keeps.onUpd {f} (h : d.Keeps e l) (hs : Part.within [.upd] l = true := by rfl) : d.Keeps (e.onUpd f) l :=
  h.via' (Dev.onUpd_keeps e f) hs

theorem Dev.Keeps.onMem {f} (h : d.Keeps e l) (hs : Part.within [.mem] l = true := by rfl) : d.Keeps (e.onMem f) l :=
  h.via' (Dev.onMem_keeps e f) hs

theorem Dev.Keeps.onArc {f} (h : d.Keeps e l) (hs : Part.within [.archive] l = true := by rfl) : d.Keeps (e.onArc f) l :=
  h.via' (Dev.onArc_keeps e f) hs

theorem Dev.Keeps.onRec {f} (h : d.Keeps e l) (hs : Part.within [.recorder] l = true := by rfl) : d.Keeps (e.onRec f) l :=
  h.via' (Dev.onRec_keeps e f) hs

theorem Dev.Keeps.onTenant {k} {f} (h : d.Keeps e l) (hs : Part.within [.tenants] l = true := by rfl) : d.Keeps (e.onTenant k f) l :=
  h.via' (Dev.onTenant_keeps e _ f) hs

theorem Dev.Keeps.onLnk {k} {f} (h : d.Keeps e l) (hs : Part.within [.lnk] l = true := by rfl) : d.Keeps (e.onLnk k f) l :=
  h.via' (Dev.onLnk_keeps e _ f) hs

theorem Dev.Keeps.onCmd {k} {f} (h : d.Keeps e l) (hs : Part.within [.cmd] l = true := by rfl) : d.Keeps (e.onCmd k f) l :=
  h.via' (Dev.onCmd_keeps e _ f) hs

theorem Dev.Keeps.onMet {k} {f} (h : d.Keeps e l) (hs : Part.within [.met] l = true := by rfl) : d.Keeps (e.onMet k f) l :=
  h.via' (Dev.onMet_keeps e _ f) hs

theorem Dev.Keeps.onBill {k} {f} (h : d.Keeps e l) (hs : Part.within [.lbill] l = true := by rfl) : d.Keeps (e.onBill k f) l :=
  h.via' (Dev.onBill_keeps e _ f) hs

theorem Dev.Keeps.onGroup {k} {f} (h : d.Keeps e l) (hs : Part.within [.group] l = true := by rfl) : d.Keeps (e.onGroup k f) l :=
  h.via' (Dev.onGroup_keeps e _ f) hs

theorem Dev.Keeps.onOut {k} {f} (h : d.Keeps e l) (hs : Part.within [.out] l = true := by rfl) : d.Keeps (e.onOut k f) l :=
  h.via' (Dev.onOut_keeps e _ f) hs

theorem Dev.Keeps.onCon {k} {f} (h : d.Keeps e l) (hs : Part.within [.con] l = true := by rfl) : d.Keeps (e.onCon k f) l :=
  h.via' (Dev.onCon_keeps e _ f) hs

theorem Dev.Keeps.onVeh {k} {f} (h : d.Keeps e l) (hs : Part.within [.veh] l = true := by rfl) : d.Keeps (e.onVeh k f) l :=
  h.via' (Dev.onVeh_keeps e _ f) hs

theorem Dev.Keeps.onProt {k} {f} (h : d.Keeps e l) (hs : Part.within [.lprot] l = true := by rfl) : d.Keeps (e.onProt k f) l :=
  h.via' (Dev.onProt_keeps e _ f) hs

theorem Dev.Keeps.onTag {k} {f} (h : d.Keeps e l) (hs : Part.within [.ltag] l = true := by rfl) : d.Keeps (e.onTag k f) l :=
  h.via' (Dev.onTag_keeps e _ f) hs

theorem Dev.Keeps.onAux {n k f} (h : d.Keeps e l) (hs : Part.within [.aux] l = true := by rfl) : d.Keeps (e.onAux n k f) l :=
  h.via' (Dev.onAux_keeps e n k f) hs

end

/-! ### Links that an update leaves -/

section
variable {d e : Dev} {n : LinkId}

theorem Dev.LinksBut.of_same (h : d.LinksBut e n) {f : Dev} (hf : ∀ m, f.link m = e.link m) : d.LinksBut f n :=
  fun m hm => (hf m).trans (h m hm)

theorem Dev.LinksBut.settled (h : d.LinksBut e n) : d.LinksBut e.settled n := h

theorem Dev.LinksBut.onLink {f : Link → Link} (h : d.LinksBut e n) : d.LinksBut (e.onLink n f) n :=
  fun m hm => by rw [Dev.onLink_link, if_neg hm, h m hm]

theorem Dev.LinksBut.onLnk {f} (h : d.LinksBut e n) : d.LinksBut (e.onLnk n f) n := h.onLink

theorem Dev.LinksBut.onCmd {f} (h : d.LinksBut e n) : d.LinksBut (e.onCmd n f) n := h.onLink

theorem Dev.LinksBut.onMet {f} (h : d.LinksBut e n) : d.LinksBut (e.onMet n f) n := h.onLink

theorem Dev.LinksBut.onBill {f} (h : d.LinksBut e n) : d.LinksBut (e.onBill n f) n := h.onLink

theorem Dev.LinksBut.onGroup {f} (h : d.LinksBut e n) : d.LinksBut (e.onGroup n f) n := h.onLink

theorem Dev.LinksBut.onOut {f} (h : d.LinksBut e n) : d.LinksBut (e.onOut n f) n := h.onLink

theorem Dev.LinksBut.onCon {f} (h : d.LinksBut e n) : d.LinksBut (e.onCon n f) n := h.onLink

theorem Dev.LinksBut.onVeh {f} (h : d.LinksBut e n) : d.LinksBut (e.onVeh n f) n := h.onLink

theorem Dev.LinksBut.onProt {f} (h : d.LinksBut e n) : d.LinksBut (e.onProt n f) n := h.onLink

theorem Dev.LinksBut.onTag {f} (h : d.LinksBut e n) : d.LinksBut (e.onTag n f) n := h.onLink

theorem Dev.LinksBut.onAux {k f} (h : d.LinksBut e n) : d.LinksBut (e.onAux n k f) n := h.onLink

theorem Dev.LinksBut.raise {r : EvReg} {b : Nat} {w : Word} {t : Option TenantId} (h : d.LinksBut e n) :
    d.LinksBut (e.raise r b w t) n := h.of_same fun _ => by simp

theorem Dev.LinksBut.setReg {a : Nat} {w : Word} (h : d.LinksBut e n) : d.LinksBut (e.setReg a w) n := h

end

/-! ### Fields of a word -/

theorem bitOf_putField (w : Word) (lo width v : Nat) {k : Nat} (hk : k < 32) :
    bitOf (putField w lo width v) k = if lo ≤ k ∧ k < lo + width then v.testBit (k - lo) else bitOf w k := by
  simp only [putField, bitOf, BitVec.getLsbD_or, BitVec.getLsbD_and, BitVec.getLsbD_not, BitVec.getLsbD_ofNat,
    Nat.testBit_mul_two_pow, Nat.testBit_two_pow_sub_one, Nat.testBit_mod_two_pow, hk, decide_true, Bool.true_and]
  by_cases hlo : lo ≤ k <;> by_cases hhi : k < lo + width <;> simp [hlo, hhi] <;> grind

theorem fieldOf_testBit (w : Word) (lo width i : Nat) :
    (fieldOf w lo width).testBit i = (decide (i < width) && bitOf w (lo + i)) := by
  rw [fieldOf, Nat.testBit_mod_two_pow, ← Nat.shiftRight_eq_div_pow, Nat.testBit_shiftRight, bitOf, BitVec.getLsbD]

theorem fieldOf_putField (w : Word) {lo width : Nat} (v : Nat) (h : lo + width ≤ 32) :
    fieldOf (putField w lo width v) lo width = v % 2 ^ width := by
  refine Nat.eq_of_testBit_eq fun i => ?_
  rw [fieldOf_testBit, Nat.testBit_mod_two_pow]
  by_cases hi : i < width
  · rw [bitOf_putField w lo width v (by omega), if_pos (by omega), Nat.add_sub_cancel_left]
  · simp [hi]

theorem fieldOf_putField_other (w : Word) {lo width lo' width' : Nat} (v : Nat) (h : lo' + width' ≤ 32)
    (hd : lo' + width' ≤ lo ∨ lo + width ≤ lo') :
    fieldOf (putField w lo width v) lo' width' = fieldOf w lo' width' := by
  refine Nat.eq_of_testBit_eq fun i => ?_
  rw [fieldOf_testBit, fieldOf_testBit]
  by_cases hi : i < width'
  · rw [bitOf_putField w lo width v (by omega), if_neg (by omega)]
  · simp [hi]

theorem fieldOf_lt (w : Word) (lo width : Nat) : fieldOf w lo width < 2 ^ width := Nat.mod_lt _ (Nat.two_pow_pos _)

/-- A counter in a field counts up to the field's end and stays there. -/
theorem Dev.countField_field (d : Dev) (a : Nat) {lo width : Nat} (n : Nat) (h : lo + width ≤ 32) :
    (d.countField a lo width n).field a lo width = min (2 ^ width - 1) (d.field a lo width + n) := by
  have hpos := Nat.two_pow_pos width
  rw [Dev.field, Dev.countField_reg, if_pos rfl, fieldOf_putField _ _ h, satTo, Nat.mod_eq_of_lt (by omega), Nat.min_comm]

theorem Dev.countField_field_other (d : Dev) (a : Nat) {lo width lo' width' : Nat} (n : Nat) (h : lo' + width' ≤ 32)
    (hd : lo' + width' ≤ lo ∨ lo + width ≤ lo') : (d.countField a lo width n).field a lo' width' = d.field a lo' width' := by
  rw [Dev.field, Dev.countField_reg, if_pos rfl, fieldOf_putField_other _ _ h hd, Dev.field]

@[simp] theorem Dev.settled_field (d : Dev) (a lo width : Nat) : d.settled.field a lo width = d.field a lo width := by
  rw [Dev.field, Dev.settled_reg, Dev.field]

theorem Dev.raise_field_other (d : Dev) {r : EvReg} {a : Nat} (b : Nat) (w : Word) (t : Option TenantId) (lo width : Nat)
    (ha : a ≠ r.addr) : (d.raise r b w t).field a lo width = d.field a lo width := by
  rw [Dev.field, Dev.raise_reg, if_neg ha, Dev.field]

end Sys2Proof.Machine
end


section
/-! SUPPORT. Keys and the scroll (R466 to R470): what each command of a key leaves, in each of its cases. -/

namespace Sys2Proof.Machine

set_option Elab.async false

theorem otherKey_ne (k : Fin 2) : otherKey k ≠ k := by
  revert k
  decide

theorem Dev.onKey_other (d : Dev) (k : Fin 2) (f : Key → Key) : (d.onKey k f).keys.get (otherKey k) = d.keys.get (otherKey k) := by
  rw [Dev.onKey_get, if_neg (otherKey_ne k)]

theorem Dev.onKey_self (d : Dev) (k : Fin 2) (f : Key → Key) : (d.onKey k f).keys.get k = f (d.keys.get k) := by
  rw [Dev.onKey_get, if_pos rfl]

/-! ### A measurement -/

section
variable (d : Dev) (k : Fin 2) (m : BitVec 16)

/-- A measurement of a key, with the events that it brings left out. -/
def Dev.keyNoted : Dev := d.onKey k fun x => x.measured d.keyThresh d.now m

/-- How far a measurement lies above the baseline of its key. -/
def Dev.keyDelta : Int := (m.toNat : Int) - ((d.keys.get k).base.toNat : Int)

/-- A run of measurements that ends before it is a touch (R466). -/
def Dev.keyGlitch : Bool :=
  !decide (d.keyThresh ≤ d.keyDelta k m) && decide (3 ≤ (d.keys.get k).above ∧ (d.keys.get k).above ≤ 19) &&
    !(d.keys.get k).touched && !(d.keys.get k).blocked

theorem Dev.keyMeasured_eq : d.keyMeasured k m =
    let e := (d.keyNoted k m).raiseIf ((d.keys.get k).first && decide (d.keyThresh ≤ d.keyDelta k m)) .lio (10 + k.1)
    if d.keyGlitch k m then (e.countField Reg.lioKeyGlitch (16 * k.1) 16).raise .lio 12 else e := rfl

variable {d k m}

/-- A measurement that neither blocks the key nor ends a glitch. -/
theorem Dev.keyMeasured_quiet (hblock : (d.keys.get k).first = false ∨ d.keyDelta k m < d.keyThresh)
    (hrun : d.keyGlitch k m = false) : d.keyMeasured k m = d.keyNoted k m := by
  have hb : ((d.keys.get k).first && decide (d.keyThresh ≤ d.keyDelta k m)) = false := by
    obtain h | h := hblock
    · simp [h]
    · simp [not_le.mpr h]
  simp [Dev.keyMeasured_eq, hb, hrun, Dev.raiseIf]

/-- A touch found by the first measurement blocks the key (R467). -/
theorem Dev.keyMeasured_blocking (hfirst : (d.keys.get k).first = true) (hover : d.keyThresh ≤ d.keyDelta k m) :
    d.keyMeasured k m = (d.keyNoted k m).raise .lio (10 + k.1) := by
  simp [Dev.keyMeasured_eq, Dev.keyGlitch, hfirst, hover, Dev.raiseIf]

/-- A run of 3 to 19 measurements is a glitch at its end (R466). -/
theorem Dev.keyMeasured_glitch (hover : d.keyDelta k m < d.keyThresh) (hrun : d.keyGlitch k m = true) :
    d.keyMeasured k m = ((d.keyNoted k m).countField Reg.lioKeyGlitch (16 * k.1) 16).raise .lio 12 := by
  simp [Dev.keyMeasured_eq, hrun, not_le.mpr hover, Dev.raiseIf]

theorem Dev.keyGlitch_of_run (h : (d.keys.get k).above < 3 ∨ 19 < (d.keys.get k).above ∨ (d.keys.get k).touched = true ∨
    (d.keys.get k).blocked = true) : d.keyGlitch k m = false := by
  simp only [Dev.keyGlitch]
  grind

/-! ### The key after a measurement -/

section
variable {x : Key} {thresh : Int} {now : Tick}

/-- A measurement at or above the threshold. -/
theorem Key.measured_over (ht : 0 < thresh) (h : thresh ≤ (m.toNat : Int) - x.base.toNat) : x.measured thresh now m =
    { x with
      meas := m, measAt := now, above := min 20 (x.above + 1), below := 0, first := false, blocked := x.blocked || x.first
      lowSince := none, freeSince := none } := by
  have hlow : ¬ 4 * ((m.toNat : Int) - x.base.toNat) < 3 * thresh := by omega
  have hneg : ¬ (m.toNat : Int) - x.base.toNat ≤ -thresh := by omega
  simp only [Key.measured, sinceWhen, h, hlow, hneg]
  simp

/-- A measurement below three quarters of the threshold. -/
theorem Key.measured_low (ht : 0 ≤ thresh) (h : 4 * ((m.toNat : Int) - x.base.toNat) < 3 * thresh) : x.measured thresh now m =
    { x with
      meas := m, measAt := now, above := 0, below := min 20 (x.below + 1), first := false
      lowSince := if (m.toNat : Int) - x.base.toNat ≤ -thresh then some (x.lowSince.getD now) else none
      freeSince := some (x.freeSince.getD now) } := by
  have hover : ¬ thresh ≤ (m.toNat : Int) - x.base.toNat := by omega
  simp only [Key.measured, sinceWhen, h, hover]
  simp

/-- A measurement between three quarters of the threshold and the threshold. -/
theorem Key.measured_between (h : 3 * thresh ≤ 4 * ((m.toNat : Int) - x.base.toNat))
    (hover : (m.toNat : Int) - x.base.toNat < thresh) : (x.measured thresh now m).above = 0 ∧
      (x.measured thresh now m).below = 0 ∧ (x.measured thresh now m).freeSince = none := by
  simp [Key.measured, sinceWhen, not_lt.mpr h, not_le.mpr hover]

theorem Key.measured_base : (x.measured thresh now m).base = x.base := rfl

theorem Key.measured_above_of_lt (hover : (m.toNat : Int) - x.base.toNat < thresh) : (x.measured thresh now m).above = 0 := by
  simp [Key.measured, not_le.mpr hover]

end
end

theorem Dev.keyThresh_nonneg (d : Dev) : 0 ≤ d.keyThresh := Int.natCast_nonneg _

/-! ### Touches and releases -/

section
variable {d : Dev} (was : Dev) {k : Fin 2}

/-- A touch that is not taken. -/
theorem Dev.keyTouched_idle (h : (d.keys.get k).above < 20 ∨ (d.keys.get k).measAt ≠ d.now ∨ (d.keys.get k).touched = true ∨
    (d.keys.get k).blocked = true ∨ (d.keys.get k).stuck = true ∨ d.mode = .dormant ∨ d.mode = .waking) :
    d.keyTouched was k = d := if_pos h

/-- A touch is taken in the tick of the twentieth measurement (R466, R470). -/
structure Dev.KeyTakes (d : Dev) (k : Fin 2) : Prop where
  above : 20 ≤ (d.keys.get k).above
  measAt : (d.keys.get k).measAt = d.now
  touched : (d.keys.get k).touched = false
  blocked : (d.keys.get k).blocked = false
  stuck : (d.keys.get k).stuck = false
  dormant : d.mode ≠ .dormant
  waking : d.mode ≠ .waking

/-- The scroll after a touch of a key alone: a touch of HOLD freezes it, a touch of either key lifts a freeze. -/
theorem Dev.keyTouched_alone (h : d.KeyTakes k) (ho : (d.keys.get (otherKey k)).touched = false) :
    d.keyTouched was k =
      (d.onKey k fun y => { y with touched := true, touchAt := d.now, long := false, ignored := false }).onScroll fun s =>
        was.content d.mode
          { s with frozen := (if d.scroll.frozen then false else k == 1), auto := false, touchAt := d.now } := by
  obtain ⟨habove, hmeas, htouched, hblocked, hstuck, hdormant, hwaking⟩ := h
  simp [Dev.keyTouched, not_lt.mpr habove, hmeas, htouched, hblocked, hstuck, hdormant, hwaking, ho]
  rfl

/-- A touch beside another touched key is ignored. -/
theorem Dev.keyTouched_beside (h : d.KeyTakes k) (ho : (d.keys.get (otherKey k)).touched = true)
    (hat : (d.keys.get (otherKey k)).touchAt ≠ d.now) :
    d.keyTouched was k = d.onKey k fun y => { y with touched := true, touchAt := d.now, long := false, ignored := true } := by
  obtain ⟨habove, hmeas, htouched, hblocked, hstuck, hdormant, hwaking⟩ := h
  simp [Dev.keyTouched, not_lt.mpr habove, hmeas, htouched, hblocked, hstuck, hdormant, hwaking, ho, hat]

/-- Of two touches in one tick both are ignored, and the scroll is as the tick found it. -/
theorem Dev.keyTouched_both (h : d.KeyTakes k) (ho : (d.keys.get (otherKey k)).touched = true)
    (hat : (d.keys.get (otherKey k)).touchAt = d.now) :
    d.keyTouched was k = ((d.onKey k fun y =>
      { y with touched := true, touchAt := d.now, long := false, ignored := true }).onKey (otherKey k) fun y =>
        { y with ignored := true }).onScroll fun s => was.content d.mode
          { s with frozen := was.scroll.frozen, auto := was.scroll.auto, touchAt := was.scroll.touchAt } := by
  obtain ⟨habove, hmeas, htouched, hblocked, hstuck, hdormant, hwaking⟩ := h
  simp [Dev.keyTouched, not_lt.mpr habove, hmeas, htouched, hblocked, hstuck, hdormant, hwaking, ho, hat]

theorem Dev.keyReleased_idle (h : (d.keys.get k).below < 20 ∨ (d.keys.get k).measAt ≠ d.now ∨
    ((d.keys.get k).touched = false ∧ (d.keys.get k).blocked = false)) : d.keyReleased was k = d :=
  if_pos (by simpa using h)

/-- A release that ends no short touch of SCROLL changes the key alone. -/
theorem Dev.keyReleased_long (hbelow : 20 ≤ (d.keys.get k).below) (hmeas : (d.keys.get k).measAt = d.now)
    (hheld : (d.keys.get k).touched = true ∨ (d.keys.get k).blocked = true)
    (hlong : k = 1 ∨ (d.keys.get k).touched = false ∨ (d.keys.get k).ignored = true ∨ (d.keys.get k).long = true ∨
      (d.keys.get k).stuck = true ∨ (d.keys.get k).touchAt + secs 1 ≤ d.now) :
    d.keyReleased was k = d.onKey k Key.released := by
  have htaken : ¬ ((d.keys.get k).below < 20 ∨ (d.keys.get k).measAt ≠ d.now ∨
      ((!(d.keys.get k).touched) = true ∧ (!(d.keys.get k).blocked) = true)) := by grind
  have hshort : ¬ (k = 0 ∧ (d.keys.get k).touched = true ∧ (!(d.keys.get k).ignored) = true ∧ (!(d.keys.get k).long) = true ∧
      (!(d.keys.get k).stuck) = true ∧ d.now < (d.keys.get k).touchAt + secs 1) := by grind
  exact (if_neg htaken).trans (if_neg hshort)

/-- A short touch of SCROLL is taken by its release (R215). -/
structure Dev.ScrollShort (d : Dev) : Prop where
  below : 20 ≤ (d.keys.get 0).below
  measAt : (d.keys.get 0).measAt = d.now
  touched : (d.keys.get 0).touched = true
  ignored : (d.keys.get 0).ignored = false
  long : (d.keys.get 0).long = false
  stuck : (d.keys.get 0).stuck = false
  short : d.now < (d.keys.get 0).touchAt + secs 1

theorem Dev.keyReleased_short (h : d.ScrollShort) : d.keyReleased was 0 =
    ((d.onKey 0 Key.released).advance was false).onScroll fun s => { s with touchAt := d.now, auto := false } := by
  obtain ⟨hbelow, hmeas, htouched, hignored, hlong, hstuck, hshort⟩ := h
  simp only [Dev.keyReleased, not_lt.mpr hbelow, hmeas, htouched, hignored, hlong, hstuck, hshort]
  simp
  rfl

theorem Dev.advance_item (liveOnly : Bool) (h : d.scroll.item + 1 < d.sectionLen d.scroll.section_) :
    d.advance was liveOnly = d.onScroll fun x => was.content d.mode { x with item := x.item + 1 } := if_pos h

theorem Dev.advance_section (liveOnly : Bool) (h : d.sectionLen d.scroll.section_ ≤ d.scroll.item + 1) :
    d.advance was liveOnly = d.onScroll fun x =>
      was.content d.mode { x with section_ := d.nextSection liveOnly x.section_, item := 0 } := if_neg (not_lt.mpr h)

theorem Dev.sectionLen_onKey (j : Fin 2) (f : Key → Key) (n : Nat) : (d.onKey j f).sectionLen n = d.sectionLen n := rfl

theorem Dev.nextSection_onKey (j : Fin 2) (f : Key → Key) (l : Bool) (n : Nat) :
    (d.onKey j f).nextSection l n = d.nextSection l n := rfl

theorem Dev.onScroll_onScroll (f g : Scroll → Scroll) : (d.onScroll f).onScroll g = d.onScroll fun x => g (f x) := rfl

/-- A short touch of SCROLL shows the next item of the section. -/
theorem Dev.keyReleased_item (h : d.ScrollShort) (hitem : d.scroll.item + 1 < d.sectionLen d.scroll.section_) :
    d.keyReleased was 0 = (d.onKey 0 Key.released).onScroll fun x =>
      { was.content d.mode { x with item := x.item + 1 } with touchAt := d.now, auto := false } := by
  rw [Dev.keyReleased_short _ h, Dev.advance_item _ _ (by rwa [Dev.sectionLen_onKey, Dev.onKey_scroll]),
    Dev.onScroll_onScroll, Dev.onKey_mode]

/-- At the end of its section it shows the next one. -/
theorem Dev.keyReleased_section (h : d.ScrollShort) (hitem : d.sectionLen d.scroll.section_ ≤ d.scroll.item + 1) :
    d.keyReleased was 0 = (d.onKey 0 Key.released).onScroll fun x =>
      { was.content d.mode { x with section_ := d.nextSection false x.section_, item := 0 } with
        touchAt := d.now, auto := false } := by
  rw [Dev.keyReleased_short _ h, Dev.advance_section _ _ (by rwa [Dev.sectionLen_onKey, Dev.onKey_scroll]),
    Dev.onScroll_onScroll, Dev.onKey_mode]
  simp only [Dev.nextSection_onKey]

theorem Dev.keyLong_taken (htouched : (d.keys.get 0).touched = true) (hignored : (d.keys.get 0).ignored = false)
    (hlong : (d.keys.get 0).long = false) (hstuck : (d.keys.get 0).stuck = false)
    (hat : (d.keys.get 0).touchAt + secs 1 ≤ d.now) : d.keyLong was =
      (d.onKey 0 fun y => { y with long := true }).onScroll fun x =>
        { was.content d.mode { x with section_ := d.nextSection false d.scroll.section_, item := 0 } with
          touchAt := d.now, auto := false } := by
  rw [Dev.keyLong, if_pos (by simp [htouched, hignored, hlong, hstuck, hat]), Dev.moveTo, Dev.onScroll_onScroll, Dev.onKey_mode]

theorem Dev.keyLong_idle (h : (d.keys.get 0).touched = false ∨ (d.keys.get 0).ignored = true ∨ (d.keys.get 0).long = true ∨
    (d.keys.get 0).stuck = true ∨ d.now < (d.keys.get 0).touchAt + secs 1) : d.keyLong was = d :=
  if_neg (by grind)

end

/-! ### The scroll of its own accord, and the state of a key -/

section
variable {s : State} {k : Fin 2}

theorem exec_keyStuck_idle (h : (s.dev.keys.get k).touched = false ∨ (s.dev.keys.get k).stuck = true ∨
    s.dev.now < (s.dev.keys.get k).touchAt + secs 60) : Completes (.keyStuck k) s fun e => s.dev.Keeps e [] :=
  .idle (exec_keyStuck k s) (if_neg (by grind))

theorem exec_keyUnstick_idle (h : (s.dev.keys.get k).stuck = false ∨
    heldFor (s.dev.keys.get k).freeSince s.dev.now (secs 5) = false) :
    Completes (.keyUnstick k) s fun e => s.dev.Keeps e [] :=
  .idle (exec_keyUnstick k s) (if_neg (by grind))

theorem exec_keyRebase_idle (h : (s.dev.keys.get k).stuck = true ∨
    heldFor (s.dev.keys.get k).lowSince s.dev.now (secs 5) = false) :
    Completes (.keyRebase k) s fun e => s.dev.Keeps e [] :=
  .idle (exec_keyRebase k s) (if_neg (by grind))

/-- R469: the baseline of a key that is free and stable moves one count towards the measurement. -/
theorem exec_keyDrift_of_free (htouched : (s.dev.keys.get k).touched = false) (hstuck : (s.dev.keys.get k).stuck = false)
    (hblocked : (s.dev.keys.get k).blocked = false) (hnear : 2 * ((s.dev.keys.get k).delta.natAbs : Int) < s.dev.keyThresh)
    (hat : (s.dev.keys.get k).driftAt + secs s.dev.driftSecs ≤ s.dev.now) :
    exec (.keyDrift k) s = s.upd fun d => d.onKey k fun y => { y with
      driftAt := d.now
      base := if y.base.toNat < y.meas.toNat then y.base + 1 else if y.meas.toNat < y.base.toNat then y.base - 1 else y.base } := by
  rw [exec_keyDrift]
  simp only [execKeyDrift, State.upd, htouched, hstuck, hblocked, hnear, hat]
  simp

end
/-! ### What the clauses say of a measurement -/

section
variable {d : Dev} {k : Fin 2} {m : BitVec 16}

theorem Dev.keyNoted_self : (d.keyNoted k m).keys.get k = (d.keys.get k).measured d.keyThresh d.now m := d.onKey_self k _

theorem Dev.keyNoted_other : (d.keyNoted k m).keys.get (otherKey k) = d.keys.get (otherKey k) := d.onKey_other k _

end

/-- The frame of a change of keys alone, and of keys and scroll. -/
theorem Dev.onKey_settled_keeps (d : Dev) (k : Fin 2) (f : Key → Key) : d.Keeps (d.onKey k f).settled [.keys] :=
  (d.onKey_keeps k f).settled

theorem Dev.onKey_onScroll_keeps (d : Dev) (k : Fin 2) (f : Key → Key) (g : Scroll → Scroll) :
    d.Keeps ((d.onKey k f).onScroll g).settled [.scroll, .keys] :=
  .settled (.via (Dev.onScroll_keeps _ g) (d.onKey_keeps k f).mono rfl)

/-- Settles O54: each command of a key in each of its cases is the update that its lemma names, and the rest of the clause is
read off that update. -/
theorem keyRules : Obligations.KeyRules := by
  unfold Obligations.KeyRules
  refine ⟨?touching, ?block, ?low, ?between, ?glitch, ?touch, ?hold, ?beside, ?both, ?touchIdle, ?releaseItem, ?releaseSection,
    ?releaseLong, ?releaseIdle, ?long, ?longIdle, ?stuck, ?stuckIdle, ?unstick, ?unstickIdle, ?rebase, ?rebaseIdle, ?driftUp,
    ?driftDown, ?driftNone, ?driftIdle, ?autoItem, ?autoSection, ?autoIdle, ?resume, ?resumeIdle⟩
  case touching =>
    intro s k m hfirst hover ht
    refine .of_eq (exec_keyMeasurement k m s) (Dev.keyMeasured_quiet (.inl hfirst) ?_)
      ⟨?_, Dev.keyNoted_other, Dev.onKey_settled_keeps _ _ _⟩
    · simp [Dev.keyGlitch, Dev.keyDelta, hover]
    · rw [Dev.settled_keys, Dev.keyNoted_self, Key.measured_over ht hover]
      simp [hfirst]
  case block =>
    intro s k m hfirst hover ht
    refine .of_eq (exec_keyMeasurement k m s) (Dev.keyMeasured_blocking hfirst hover)
      ⟨?_, ?_, Dev.settled_raise_bit _ .lio _ _ (by omega), .settled (.raise (fun _ _ => rfl) (by simp [EvReg.addr]))⟩
    · rw [Dev.settled_keys, Dev.raise_keys, Dev.keyNoted_self, Key.measured_over ht hover]
      simp [hfirst]
    · rw [Dev.settled_keys, Dev.raise_keys, Dev.keyNoted_other]
  case low =>
    intro s k m hlow hrun
    have ht := s.dev.keyThresh_nonneg
    refine .of_eq (exec_keyMeasurement k m s) (Dev.keyMeasured_quiet (.inr ?_) (Dev.keyGlitch_of_run hrun))
      ⟨?_, Dev.keyNoted_other, Dev.onKey_settled_keeps _ _ _⟩
    · rw [Dev.keyDelta]
      omega
    · rw [Dev.settled_keys, Dev.keyNoted_self, Key.measured_low ht hlow]
  case between =>
    intro s k m hlow hover hrun
    refine .of_eq (exec_keyMeasurement k m s) (Dev.keyMeasured_quiet (.inr hover) (Dev.keyGlitch_of_run hrun)) ?_
    obtain ⟨habove, hbelow, hfree⟩ := Key.measured_between (now := s.dev.now) hlow hover
    rw [Dev.settled_keys, Dev.keyNoted_self]
    exact ⟨habove, hbelow, hfree, rfl, Dev.keyNoted_other, Dev.onKey_settled_keeps _ _ _⟩
  case glitch =>
    intro s k m hover hmin hmax htouched hblocked
    refine .of_eq (exec_keyMeasurement k m s) (Dev.keyMeasured_glitch hover ?_) ?_
    · simp [Dev.keyGlitch, Dev.keyDelta, not_le.mpr hover, hmin, hmax, htouched, hblocked]
    have hself : 16 * k.1 + 16 ≤ 32 := by omega
    have hother : 16 * (otherKey k).1 + 16 ≤ 32 := by omega
    have hne : (otherKey k).1 ≠ k.1 := fun h => otherKey_ne k (Fin.ext h)
    refine ⟨?_, ?_, ?_, ?_, Dev.settled_raise_bit _ .lio _ _ (by omega), ?_, .settled (.raise ?_ (by simp [EvReg.addr]))⟩
    · rw [Dev.settled_keys, Dev.raise_keys, Dev.countField_keys, Dev.keyNoted_self]
      exact Key.measured_above_of_lt hover
    · rw [Dev.settled_keys, Dev.raise_keys, Dev.countField_keys, Dev.keyNoted_self, Key.measured_base]
    · rw [Dev.settled_field, Dev.raise_field_other _ _ _ _ _ _ (by decide), Dev.countField_field _ _ _ hself]
      rfl
    · rw [Dev.settled_field, Dev.raise_field_other _ _ _ _ _ _ (by decide), Dev.countField_field_other _ _ _ hother (by omega)]
      rfl
    · rw [Dev.settled_keys, Dev.raise_keys, Dev.countField_keys, Dev.keyNoted_other]
    · exact .countField (fun _ _ => rfl) (by simp)
  case touch =>
    intro s k habove hmeas htouched hblocked hstuck hdormant hwaking hother
    refine .of_eq (exec_keyTouch k s) (Dev.keyTouched_alone _ ⟨habove, hmeas, htouched, hblocked, hstuck, hdormant, hwaking⟩ hother)
      ⟨?_, ?_, rfl, Dev.onKey_onScroll_keeps _ _ _ _⟩
    · simp
    · simp [otherKey_ne]
  case hold =>
    intro s habove hmeas htouched hblocked hstuck hmode hother
    refine .of_eq (exec_keyTouch 1 s) (Dev.keyTouched_alone _ ⟨habove, hmeas, htouched, hblocked, hstuck, by simp [hmode], by simp [hmode]⟩ hother)
      ⟨?_, rfl, rfl, rfl, Dev.onKey_onScroll_keeps _ _ _ _⟩
    simp [Dev.content]
  case beside =>
    intro s k habove hmeas htouched hblocked hstuck hdormant hwaking hother hat
    refine .of_eq (exec_keyTouch k s) (Dev.keyTouched_beside _ ⟨habove, hmeas, htouched, hblocked, hstuck, hdormant, hwaking⟩ hother hat)
      ⟨?_, ?_, Dev.onKey_settled_keeps _ _ _⟩
    · simp
    · simp [otherKey_ne]
  case both =>
    intro s k habove hmeas htouched hblocked hstuck hdormant hwaking hother hat
    refine .of_eq (exec_keyTouch k s) (Dev.keyTouched_both _ ⟨habove, hmeas, htouched, hblocked, hstuck, hdormant, hwaking⟩ hother hat)
      ⟨?_, ?_, rfl, ?_⟩
    · simp [(otherKey_ne k).symm]
    · simp [otherKey_ne]
    · exact .settled (.via (Dev.onScroll_keeps _ _) (.via (Dev.onKey_keeps _ _ _) (Dev.onKey_keeps _ _ _).mono rfl) rfl)
  case touchIdle => exact fun s k h => .idle (exec_keyTouch k s) (Dev.keyTouched_idle _ h)
  case releaseItem =>
    intro s hbelow hmeas htouched hignored hlong hstuck hshort hitem
    refine .of_eq (exec_keyRelease 0 s)
      (Dev.keyReleased_item _ ⟨hbelow, hmeas, htouched, hignored, hlong, hstuck, hshort⟩ hitem)
      ⟨?_, ?_, rfl, Dev.onKey_onScroll_keeps _ _ _ _⟩
    · simp [Key.released]
    · simp
  case releaseSection =>
    intro s hbelow hmeas htouched hignored hlong hstuck hshort hitem
    refine .of_eq (exec_keyRelease 0 s)
      (Dev.keyReleased_section _ ⟨hbelow, hmeas, htouched, hignored, hlong, hstuck, hshort⟩ hitem)
      ⟨?_, ?_, rfl, Dev.onKey_onScroll_keeps _ _ _ _⟩
    · simp [Key.released]
    · simp
  case releaseLong =>
    intro s k hbelow hmeas hheld hlong
    refine .of_eq (exec_keyRelease k s) (Dev.keyReleased_long _ hbelow hmeas hheld hlong) ⟨?_, ?_, Dev.onKey_settled_keeps _ _ _⟩
    · simp [Key.released]
    · simp [otherKey_ne]
  case releaseIdle => exact fun s k h => .idle (exec_keyRelease k s) (Dev.keyReleased_idle _ h)
  case long =>
    intro s htouched hignored hlong hstuck hat
    refine .of_eq (exec_keyLongTouch s) (Dev.keyLong_taken _ htouched hignored hlong hstuck hat)
      ⟨?_, ?_, rfl, Dev.onKey_onScroll_keeps _ _ _ _⟩
    · simp
    · simp
  case longIdle => exact fun s h => .idle (exec_keyLongTouch s) (Dev.keyLong_idle _ h)
  case stuck =>
    intro s k htouched hstuck hat
    refine .of_upd (exec_keyStuck_of_touched htouched hstuck hat) ⟨?_, ?_, Dev.settled_raise_bit _ .lio _ _ (by omega),
      .settled (.raise (fun _ _ => rfl) (by simp [EvReg.addr])), .settled (.raise (Dev.onKey_keeps _ _ _).mono rfl rfl)⟩
    · simp
    · simp [otherKey_ne]
  case stuckIdle => exact fun s k h => exec_keyStuck_idle h
  case unstick =>
    intro s k hstuck hfree
    refine .of_upd (exec_keyUnstick_of_free hstuck hfree) ⟨?_, ?_, Dev.onKey_settled_keeps _ _ _⟩
    · simp
    · simp [otherKey_ne]
  case unstickIdle => exact fun s k h => exec_keyUnstick_idle h
  case rebase =>
    intro s k hstuck hlow
    refine .of_eq (exec_keyRebase k s) (if_pos ⟨by simp [hstuck], hlow⟩) ⟨?_, ?_, Dev.settled_raise_bit _ .lio _ _ (by omega),
      .settled (.raise (fun _ _ => rfl) (by simp [EvReg.addr])), .settled (.raise (Dev.onKey_keeps _ _ _).mono rfl rfl)⟩
    · simp
    · simp [otherKey_ne]
  case rebaseIdle => exact fun s k h => exec_keyRebase_idle h
  case driftUp =>
    intro s k htouched hstuck hblocked hnear hat hup
    refine .of_upd (exec_keyDrift_of_free htouched hstuck hblocked hnear hat) ⟨?_, ?_, Dev.onKey_settled_keeps _ _ _⟩
    · simp [hup]
    · simp [otherKey_ne]
  case driftDown =>
    intro s k htouched hstuck hblocked hnear hat hdown
    refine .of_upd (exec_keyDrift_of_free htouched hstuck hblocked hnear hat) ⟨?_, ?_, Dev.onKey_settled_keeps _ _ _⟩
    · simp [hdown, not_lt.mpr hdown.le]
    · simp [otherKey_ne]
  case driftNone =>
    intro s k htouched hstuck hblocked hnear hat hsame
    refine .of_upd (exec_keyDrift_of_free htouched hstuck hblocked hnear hat) ⟨?_, ?_, Dev.onKey_settled_keeps _ _ _⟩
    · simp [hsame]
    · simp [otherKey_ne]
  case driftIdle => exact fun s k h => .idle (exec_keyDrift k s) (if_neg (by grind))
  case autoItem =>
    intro s hauto hfrozen hstate hat hitem
    refine .of_eq (exec_scrollAutoAdvance s) (if_pos ⟨hauto, by simp [hfrozen], hstate, hat⟩) ?_
    rw [Dev.advance_item _ _ hitem]
    exact ⟨rfl, Dev.Keeps.settled (.via (Dev.onScroll_keeps _ _) (Dev.onScroll_keeps _ _) rfl)⟩
  case autoSection =>
    intro s hauto hfrozen hstate hat hitem
    refine .of_eq (exec_scrollAutoAdvance s) (if_pos ⟨hauto, by simp [hfrozen], hstate, hat⟩) ?_
    rw [Dev.advance_section _ _ hitem]
    exact ⟨rfl, Dev.Keeps.settled (.via (Dev.onScroll_keeps _ _) (Dev.onScroll_keeps _ _) rfl)⟩
  case autoIdle => exact fun s h => .idle (exec_scrollAutoAdvance s) (if_neg (by grind))
  case resume =>
    intro s hauto hfrozen hat
    exact .of_eq (exec_scrollResume s) (if_pos ⟨by simp [hauto], by simp [hfrozen], hat⟩) ⟨rfl, (Dev.onScroll_keeps _ _).settled⟩
  case resumeIdle => exact fun s h => .idle (exec_scrollResume s) (if_neg (by grind))

end Sys2Proof.Machine
end


section
/-! SUPPORT. Auxiliary channels (R471 to R480): what each command of a channel leaves of it and of the others. -/

namespace Sys2Proof.Machine

set_option Elab.async false

/-- What a loop over distinct elements does at one of them: what this element needs holds until its turn, its turn brings the
result, and the others leave the result. -/
theorem Dev.each_once {α : Type} {xs : List α} {f : Dev → α → Dev} {d : Dev} {x : α} {R Q : Dev → Prop} (hx : x ∈ xs)
    (hnodup : xs.Nodup) (hR : R d) (hbefore : ∀ e y, y ≠ x → R e → R (f e y)) (hturn : ∀ e, R e → Q (f e x))
    (hafter : ∀ e y, y ≠ x → Q e → Q (f e y)) : Q (d.each xs f) := by
  unfold Dev.each
  induction xs generalizing d with
  | nil => simp at hx
  | cons y ys ih =>
    obtain ⟨hy, hys⟩ := List.nodup_cons.mp hnodup
    obtain rfl | hmem := List.mem_cons.mp hx
    · have hrest : ∀ e z, z ∈ ys → Q e → Q (f e z) := fun e z hz => hafter e z (ne_of_mem_of_not_mem hz hy)
      exact Dev.each_inv (d := f d x) (hturn d hR) hrest
    · exact ih hmem hys (hbefore d y (ne_of_mem_of_not_mem hmem hy).symm hR)

/-! ### One byte of AUX_CMD -/

theorem fieldOf_eight_mod (w : Word) (lo : Nat) : fieldOf w lo 8 % 64 = fieldOf w lo 6 := by
  simp only [fieldOf]
  omega

theorem fieldOf_eight_div (w : Word) (lo : Nat) : fieldOf w lo 8 / 128 = if bitOf w (lo + 7) then 1 else 0 := by
  have hbit : bitOf w (lo + 7) = (w.toNat / 2 ^ lo).testBit 7 := by
    rw [← Nat.shiftRight_eq_div_pow, Nat.testBit_shiftRight, bitOf, BitVec.getLsbD]
  rw [hbit, Nat.testBit_eq_decide_div_mod_eq]
  simp only [fieldOf, decide_eq_true_eq]
  split_ifs <;> omega

theorem ofNat_fieldOf_eight (w : Word) (lo : Nat) : BitVec.ofNat 6 (fieldOf w lo 8) = BitVec.ofNat 6 (fieldOf w lo 6) := by
  rw [← fieldOf_eight_mod]
  apply BitVec.eq_of_toNat_eq
  simp

/-- What AUX_CMD takes of the byte of one channel, and what the channel does with it (R472, R475, R480). -/
def Dev.auxChannel (n : LinkId) (data : Word) (d : Dev) (k : Fin 4) : Dev :=
  if d.auxRole n k ≠ 0 then d
  else
    let byte := fieldOf data (8 * k.1) 8
    let on := byte / 128 = 1
    let d1 := d.setField (Reg.auxCmd n) (8 * k.1) 8 (byte / 128 * 128 + byte % 64)
    let a := (d.link n).aux.get k
    if a.fault then
      if !on then d1.onAux n k fun x => { x with seenOff := true, wanted := false }
      else if a.seenOff then
        (d1.onAux n k fun x => { x with fault := false, seenOff := false, wanted := true, ocTimes := [] }).auxOn n k (byte % 64)
      else d1
    else if on then
      let d2 := d1.onAux n k fun x => { x with wanted := true }
      if a.on then d2.onAux n k fun x => { x with duty := BitVec.ofNat 6 byte }
      else if a.offUntil.isSome then d2
      else d2.auxOn n k (byte % 64)
    else (d1.auxOff n k).onAux n k fun x => { x with wanted := false, offUntil := none }

theorem Dev.auxCommand_eq {d : Dev} {n : LinkId} {data : Word} (h : d.role n = .outlet) :
    d.auxCommand n data = d.each (List.finRange 4) (Dev.auxChannel n data) := if_neg (not_not.mpr h)


section
variable (d : Dev) (n : LinkId) (k : Fin 4) (f : AuxChannel → AuxChannel)

@[simp] theorem Dev.onAux_self : ((d.onAux n k f).link n).aux.get k = f ((d.link n).aux.get k) := by
  rw [Dev.onAux_link, if_pos rfl, vector_get_set, if_pos rfl]

theorem Dev.onAux_congr {g : AuxChannel → AuxChannel} (h : f ((d.link n).aux.get k) = g ((d.link n).aux.get k)) :
    d.onAux n k f = d.onAux n k g := by
  have hlink : d.links.get n = d.link n := rfl
  simp only [Dev.onAux, Dev.onLink, hlink, h]

theorem Dev.onAux_id : d.onAux n k id = d := by
  have haux : (d.links.get n).aux.set k.1 ((d.links.get n).aux.get k) = (d.links.get n).aux := by
    simp [Vector.get_eq_getElem]
  have hlinks : d.links.set n.1 (d.links.get n) = d.links := by simp [Vector.get_eq_getElem]
  simp only [Dev.onAux, Dev.onLink, id, haux]
  exact congrArg (fun v => { d with links := v }) hlinks

theorem Dev.onAux_onAux (g : AuxChannel → AuxChannel) : (d.onAux n k f).onAux n k g = d.onAux n k fun a => g (f a) := by
  simp [Dev.onAux, Dev.onLink, Vector.get_eq_getElem]

theorem Dev.onAux_other {j : Fin 4} (h : j ≠ k) : ((d.onAux n k f).link n).aux.get j = (d.link n).aux.get j := by
  rw [Dev.onAux_link, if_pos rfl, vector_get_set, if_neg h]

@[simp] theorem Dev.onAux_auxFitted (m : LinkId) (j : Fin 4) : (d.onAux n k f).auxFitted m j = d.auxFitted m j := by
  rw [Dev.auxFitted, Dev.onAux_link]
  split_ifs with h
  · rw [h, Dev.auxFitted]
  · rfl

@[simp] theorem Dev.onAux_auxRole (m : LinkId) (j : Fin 4) : (d.onAux n k f).auxRole m j = d.auxRole m j := rfl

@[simp] theorem Dev.onAux_field (a lo width : Nat) : (d.onAux n k f).field a lo width = d.field a lo width := rfl

end

theorem auxCfg_ne_auxCmd (n m : LinkId) (k : Fin 4) : Reg.auxCfg n k ≠ Reg.auxCmd m := by
  have := n.2
  simp only [Reg.auxCfg, Reg.auxCmd]
  omega

/-- What a channel of an outlet needs of the device when its byte of AUX_CMD is taken. -/
structure Dev.AuxAgrees (d e : Dev) (n : LinkId) (k : Fin 4) : Prop where
  chan : (e.link n).aux.get k = (d.link n).aux.get k
  fitted : e.auxFitted n k = d.auxFitted n k
  now : e.now = d.now
  role : e.auxRole n k = d.auxRole n k
  byte : e.field (Reg.auxCmd n) (8 * k.1) 8 = d.field (Reg.auxCmd n) (8 * k.1) 8

/-- The value that AUX_CMD shows for a byte written. -/
def auxCmdByte (data : Word) (k : Fin 4) : Nat :=
  (if bitOf data (8 * k.1 + 7) then 128 else 0) + fieldOf data (8 * k.1) 6

theorem auxCmdByte_eq (data : Word) (k : Fin 4) :
    fieldOf data (8 * k.1) 8 / 128 * 128 + fieldOf data (8 * k.1) 8 % 64 = auxCmdByte data k := by
  rw [fieldOf_eight_div, fieldOf_eight_mod, auxCmdByte]
  split_ifs <;> simp

theorem auxCmdByte_lt (data : Word) (k : Fin 4) : auxCmdByte data k < 256 := by
  have := fieldOf_lt data (8 * k.1) 6
  simp only [auxCmdByte]
  split_ifs <;> omega

section
variable {d : Dev} {n : LinkId} {data : Word} {k : Fin 4}

theorem Dev.auxChannel_of_cooling (h : d.auxRole n k ≠ 0) : Dev.auxChannel n data d k = d := if_pos h

/-- AUX_CMD with the byte of one channel taken. -/
def Dev.auxTaken (d : Dev) (n : LinkId) (data : Word) (k : Fin 4) : Dev :=
  d.setField (Reg.auxCmd n) (8 * k.1) 8 (auxCmdByte data k)

theorem Dev.auxTaken_byte : (d.auxTaken n data k).field (Reg.auxCmd n) (8 * k.1) 8 = auxCmdByte data k := by
  rw [Dev.auxTaken, Dev.field, Dev.setField_reg, if_pos rfl, fieldOf_putField _ _ (by omega), Nat.mod_eq_of_lt]
  exact auxCmdByte_lt data k

theorem Dev.auxTaken_other {j : Fin 4} (h : j ≠ k) :
    (d.auxTaken n data k).field (Reg.auxCmd n) (8 * j.1) 8 = d.field (Reg.auxCmd n) (8 * j.1) 8 := by
  have hne : j.1 ≠ k.1 := fun e => h (Fin.ext e)
  rw [Dev.auxTaken, Dev.field, Dev.setField_reg, if_pos rfl, fieldOf_putField_other _ _ (by omega) (by omega), Dev.field]

@[simp] theorem Dev.auxTaken_link (m : LinkId) : (d.auxTaken n data k).link m = d.link m := rfl

@[simp] theorem Dev.auxTaken_auxRole (j : Fin 4) : (d.auxTaken n data k).auxRole n j = d.auxRole n j := by
  rw [Dev.auxRole, Dev.auxTaken, Dev.field, Dev.setField_reg, if_neg (auxCfg_ne_auxCmd n n j), Dev.auxRole, Dev.field]

@[simp] theorem Dev.auxTaken_auxFitted (j : Fin 4) : (d.auxTaken n data k).auxFitted n j = d.auxFitted n j := rfl

@[simp] theorem Dev.auxTaken_now : (d.auxTaken n data k).now = d.now := rfl

/-- The channel of a byte that is taken, as a function of the channel before. -/
def AuxChannel.commanded (a : AuxChannel) (on fitted : Bool) (duty : Nat) (now : Tick) : AuxChannel :=
  let started (x : AuxChannel) : AuxChannel := if !fitted then x else { x with
    on := true, duty := BitVec.ofNat 6 duty, tach := .unsupervised, spinAt := now, offUntil := none, openSince := none,
    misSince := none, openSet := false, misSet := false, below := false, rate := 0, edges := 0 }
  if a.fault then
    if !on then { a with seenOff := true, wanted := false }
    else if a.seenOff then started { a with fault := false, seenOff := false, wanted := true, ocTimes := [] }
    else a
  else if on then
    if a.on then { a with wanted := true, duty := BitVec.ofNat 6 duty }
    else if a.offUntil.isSome then { a with wanted := true }
    else started { a with wanted := true }
  else { a with on := false, duty := 0, openSince := none, misSince := none, openSet := false, misSet := false, wanted := false, offUntil := none }

theorem Dev.auxOn_of_general (duty : Nat) (h : d.auxRole n k = 0) : d.auxOn n k duty =
    if !d.auxFitted n k then d else d.onAux n k fun a => { a with
      on := true, duty := BitVec.ofNat 6 duty, tach := .unsupervised, spinAt := d.now, offUntil := none, openSince := none,
      misSince := none, openSet := false, misSet := false, below := false, rate := 0, edges := 0 } := by
  have hcool : d.auxCooling n k = false := by simp [Dev.auxCooling, h]
  simp [Dev.auxOn, hcool]

/-- A byte taken by a general channel changes the byte in AUX_CMD and the channel, and no more. -/
theorem Dev.auxChannel_of_general (h : d.auxRole n k = 0) : Dev.auxChannel n data d k =
    (d.auxTaken n data k).onAux n k fun a =>
      a.commanded (bitOf data (8 * k.1 + 7)) (d.auxFitted n k) (fieldOf data (8 * k.1) 6) d.now := by
  have htaken : d.setField (Reg.auxCmd n) (8 * k.1) 8 (auxCmdByte data k) = d.auxTaken n data k := rfl
  have hon : (fieldOf data (8 * k.1) 8 / 128 = 1) = (bitOf data (8 * k.1 + 7) = true) := by
    rw [fieldOf_eight_div]
    simp
  simp only [Dev.auxChannel, h, ne_eq, not_true_eq_false, if_false, auxCmdByte_eq]
  simp only [htaken, hon, fieldOf_eight_mod, ofNat_fieldOf_eight, decide_not]
  rw [Dev.auxOn_of_general _ (by simpa using h), Dev.auxOn_of_general _ (by simpa using h)]
  simp only [Dev.auxOff, Dev.onAux_onAux, Dev.onAux_auxFitted, Dev.auxTaken_auxFitted, Dev.onAux_now, Dev.auxTaken_now]
  split_ifs with hfault hoff hseen hfitted hbit hrun huntil hfitted
  all_goals first
    | refine Dev.onAux_congr _ _ _ _ ?_
    | refine (Dev.onAux_id _ n k).symm.trans (Dev.onAux_congr _ _ _ _ ?_)
  all_goals simp_all [AuxChannel.commanded]

theorem Dev.auxChannel_cases (d : Dev) (n : LinkId) (data : Word) (k : Fin 4) :
    Dev.auxChannel n data d k = d ∨ ∃ f, Dev.auxChannel n data d k = (d.auxTaken n data k).onAux n k f := by
  by_cases h : d.auxRole n k = 0
  · exact .inr ⟨_, Dev.auxChannel_of_general h⟩
  · exact .inl (Dev.auxChannel_of_cooling h)

theorem Dev.AuxAgrees.trans {e f : Dev} (h1 : d.AuxAgrees e n k) (h2 : e.AuxAgrees f n k) : d.AuxAgrees f n k :=
  ⟨h2.chan.trans h1.chan, h2.fitted.trans h1.fitted, h2.now.trans h1.now, h2.role.trans h1.role, h2.byte.trans h1.byte⟩

/-- The byte of one channel leaves the others alone. -/
theorem Dev.auxChannel_agrees {j : Fin 4} (hj : j ≠ k) : d.AuxAgrees (Dev.auxChannel n data d j) n k := by
  obtain h | ⟨f, h⟩ := d.auxChannel_cases n data j
  · rw [h]
    exact ⟨rfl, rfl, rfl, rfl, rfl⟩
  · rw [h]
    refine ⟨?_, by simp, by simp, by simp, ?_⟩
    · rw [Dev.onAux_other _ _ _ _ hj.symm, Dev.auxTaken_link]
    · rw [Dev.onAux_field, Dev.auxTaken_other hj.symm]

/-- What AUX_CMD leaves of one channel is what its own byte leaves of it. -/
theorem Dev.auxCommand_at {Q : Dev → Prop} (hrole : d.role n = .outlet)
    (hturn : ∀ e, d.AuxAgrees e n k → Q (Dev.auxChannel n data e k)) (hQ : ∀ e f, Q e → e.AuxAgrees f n k → Q f) :
    Q (d.auxCommand n data) := by
  rw [Dev.auxCommand_eq hrole]
  exact Dev.each_once (R := fun e => d.AuxAgrees e n k) (List.mem_finRange k) (List.nodup_finRange 4) ⟨rfl, rfl, rfl, rfl, rfl⟩
    (fun e y hy he => he.trans (Dev.auxChannel_agrees hy)) hturn fun e y hy he => hQ _ _ he (Dev.auxChannel_agrees hy)

/-- What a channel of a link and its byte of AUX_CMD show. -/
def Dev.AuxShows (n : LinkId) (k : Fin 4) (a : AuxChannel) (byte : Nat) (e : Dev) : Prop :=
  (e.link n).aux.get k = a ∧ e.field (Reg.auxCmd n) (8 * k.1) 8 = byte

theorem Dev.AuxShows.of_agrees {a : AuxChannel} {byte : Nat} (e f : Dev) (h : e.AuxShows n k a byte) (hf : e.AuxAgrees f n k) :
    f.AuxShows n k a byte := ⟨hf.chan.trans h.1, hf.byte.trans h.2⟩

theorem Dev.auxCommand_general (hrole : d.role n = .outlet) (h : d.auxRole n k = 0) :
    (d.auxCommand n data).AuxShows n k (((d.link n).aux.get k).commanded (bitOf data (8 * k.1 + 7)) (d.auxFitted n k)
      (fieldOf data (8 * k.1) 6) d.now) (auxCmdByte data k) := by
  refine Dev.auxCommand_at hrole (fun e he => ?_) Dev.AuxShows.of_agrees
  rw [Dev.AuxShows, Dev.auxChannel_of_general (he.role.trans h), Dev.onAux_self, Dev.auxTaken_link, he.chan, he.fitted, he.now,
    Dev.onAux_field, Dev.auxTaken_byte]
  exact ⟨rfl, rfl⟩

theorem Dev.auxCommand_cooling (h : d.auxRole n k ≠ 0) :
    (d.auxCommand n data).AuxShows n k ((d.link n).aux.get k) (d.field (Reg.auxCmd n) (8 * k.1) 8) := by
  by_cases hrole : d.role n = .outlet
  · refine Dev.auxCommand_at hrole (fun e he => ?_) Dev.AuxShows.of_agrees
    rw [Dev.auxChannel_of_cooling (by rwa [he.role])]
    exact ⟨he.chan, he.byte⟩
  · simp [Dev.auxCommand, hrole, Dev.AuxShows]

theorem Dev.auxCommand_linksBut : d.LinksBut (d.auxCommand n data) n := by
  by_cases hrole : d.role n = .outlet
  · rw [Dev.auxCommand_eq hrole]
    refine Dev.each_inv (P := fun e => d.LinksBut e n) .rfl fun e j _ he => ?_
    obtain h | ⟨f, h⟩ := e.auxChannel_cases n data j <;> rw [h]
    · exact he
    · exact .onAux he
  · simp [Dev.auxCommand, hrole, Dev.LinksBut.rfl]

theorem Dev.auxCommand_regsBut : d.RegsBut (d.auxCommand n data) [Reg.auxCmd n] := by
  by_cases hrole : d.role n = .outlet
  · rw [Dev.auxCommand_eq hrole]
    refine Dev.each_inv (P := fun e => d.RegsBut e [Reg.auxCmd n]) .rfl fun e j _ he => ?_
    obtain h | ⟨f, h⟩ := e.auxChannel_cases n data j <;> rw [h]
    · exact he
    · exact .of_same (.setField he (by simp)) fun _ => rfl
  · simp [Dev.auxCommand, hrole, Dev.RegsBut.rfl]

/-- A word written to AUX_CMD of an outlet, at a general channel. -/
theorem completes_auxCmdWrite {s : State} (hrec : s.dev.recording = true) (hrole : s.dev.role n = .outlet)
    (h : s.dev.auxRole n k = 0) :
    Completes (.auxCmdWrite n data) s fun e =>
      (e.link n).aux.get k = ((s.dev.link n).aux.get k).commanded (bitOf data (8 * k.1 + 7)) (s.dev.auxFitted n k)
        (fieldOf data (8 * k.1) 6) s.dev.now ∧
      e.field (Reg.auxCmd n) (8 * k.1) 8 = auxCmdByte data k ∧ s.dev.LinksBut e n ∧ s.dev.RegsBut e [Reg.auxCmd n] ∧
      s.dev.Keeps e [.aux, .rAux] := by
  obtain ⟨hchan, hbyte⟩ := Dev.auxCommand_general (data := data) hrole h
  refine .of_eq (exec_auxCmdWrite n data s) (Dev.hosted_of_recording _ hrec) ⟨hchan, ?_, Dev.auxCommand_linksBut,
    Dev.auxCommand_regsBut.settled, (Dev.auxCommand_keeps _ _ _).settled⟩
  rw [Dev.settled_field, hbyte]

end

/-! ### The commands of one channel -/

/-- One channel of a link changes, and events of the link's channels may be set. -/
structure Dev.AuxStep (d e : Dev) (n : LinkId) (k : Fin 4) (a : AuxChannel) : Prop where
  chan : (e.link n).aux.get k = a
  others : ∀ j, j ≠ k → (e.link n).aux.get j = (d.link n).aux.get j
  links : d.LinksBut e n
  regs : d.RegsBut e [Reg.auxEvents n]
  keeps : d.Keeps e [.aux, .recorder, .rAux]

section
variable {d e : Dev} {n : LinkId} {k : Fin 4} {a : AuxChannel}

theorem Dev.AuxStep.rfl : d.AuxStep d n k ((d.link n).aux.get k) := ⟨Eq.refl _, fun _ _ => Eq.refl _, .rfl, .rfl, .rfl⟩

theorem Dev.AuxStep.onAux {f : AuxChannel → AuxChannel} (h : d.AuxStep e n k a) : d.AuxStep (e.onAux n k f) n k (f a) :=
  ⟨by rw [Dev.onAux_self, h.chan], fun j hj => by rw [Dev.onAux_other _ _ _ _ hj, h.others j hj], .onAux h.links,
    h.regs.of_same fun _ => Eq.refl _, .onAux h.keeps⟩

theorem Dev.AuxStep.raise {b : Nat} (h : d.AuxStep e n k a) : d.AuxStep (e.raise (.aux n) b) n k a :=
  ⟨by rw [Dev.raise_link, h.chan], fun j hj => by rw [Dev.raise_link, h.others j hj], .raise h.links,
    .raise h.regs (by simp [EvReg.addr]), .raise h.keeps (Eq.refl _) (contains_of (regPart_auxEvents n.2) (Eq.refl _))⟩

theorem Dev.AuxStep.settled (h : d.AuxStep e n k a) : d.AuxStep e.settled n k a :=
  ⟨h.chan, h.others, h.links, .settled h.regs, h.keeps.settled⟩

theorem Dev.onAux_clause (d : Dev) (n : LinkId) (k : Fin 4) (f : AuxChannel → AuxChannel) :
    ((d.onAux n k f).settled.link n).aux.get k = f ((d.link n).aux.get k) ∧
    (∀ j, j ≠ k → ((d.onAux n k f).settled.link n).aux.get j = (d.link n).aux.get j) ∧
    d.LinksBut (d.onAux n k f).settled n ∧ d.Keeps (d.onAux n k f).settled [.aux] :=
  have h := (Dev.AuxStep.rfl (d := d) (n := n) (k := k)).onAux (f := f)
  ⟨h.chan, h.others, h.links, .settled (.onAux .rfl)⟩

theorem Dev.AuxStep.clause (h : d.AuxStep e n k a) {b : Nat} (hb : e.bit (Reg.auxEvents n) b = true) :
    (e.settled.link n).aux.get k = a ∧ e.settled.bit (Reg.auxEvents n) b = true ∧
    (∀ j, j ≠ k → (e.settled.link n).aux.get j = (d.link n).aux.get j) ∧ d.LinksBut e.settled n ∧
    d.RegsBut e.settled [Reg.auxEvents n] ∧ d.Keeps e.settled [.aux, .recorder, .rAux] :=
  ⟨h.chan, by rwa [Dev.settled_bit], h.others, h.links, .settled h.regs, h.keeps.settled⟩

/-- A channel that is switched off. -/
def AuxChannel.off (a : AuxChannel) : AuxChannel :=
  { a with on := false, duty := 0, openSince := none, misSince := none, openSet := false, misSet := false }

/-- A channel of a cooling fan that is found blocked, with retries left or without (R477). -/
def AuxChannel.jammed (a : AuxChannel) (retry : Bool) (now : Tick) : AuxChannel :=
  if retry then { a.off with tach := .blocked, cap := true, offUntil := some (now + secs 5) }
  else { a.off with tach := .blocked, cap := true, fault := true, offUntil := none, seenOff := false }

theorem Dev.AuxStep.auxBlocked (h : d.AuxStep e n k a) : d.AuxStep (e.auxBlocked n k) n k
    (a.jammed (decide (a.tries < e.field (Reg.auxCfg n k) 24 3)) e.now) := by
  have hstep := ((h.onAux (f := AuxChannel.off)).onAux (f := fun a => { a with tach := .blocked, cap := true })).raise
    (b := auxBit k 2)
  unfold Dev.auxBlocked
  by_cases htries : e.field (Reg.auxCfg n k) 24 3 ≤ ((e.link n).aux.get k).tries
  · simp only [if_pos htries, decide_eq_false (not_lt.mpr (h.chan ▸ htries))]
    exact (hstep.onAux (f := AuxChannel.off)).onAux
  · simp only [if_neg htries, decide_eq_true (not_le.mp (h.chan ▸ htries))]
    exact hstep.onAux

theorem auxBit_lt (k : Fin 4) {b : Nat} (h : b < 8) : auxBit k b < 32 := by
  simp only [auxBit]
  omega

theorem Dev.auxBlocked_bit : (d.auxBlocked n k).bit (Reg.auxEvents n) (auxBit k 2) = true := by
  have hb : auxBit k 2 < 32 := auxBit_lt k (by omega)
  unfold Dev.auxBlocked
  extract_lets x d1
  have hbit : d1.bit (Reg.auxEvents n) (auxBit k 2) = true := Dev.raise_bit _ (.aux n) _ _ hb
  split_ifs
  · exact hbit
  · exact hbit

theorem Dev.auxBlocked_bit_keeps {b : Nat} (h : d.bit (Reg.auxEvents n) b = true) :
    (d.auxBlocked n k).bit (Reg.auxEvents n) b = true := by
  have hb : auxBit k 2 < 32 := auxBit_lt k (by omega)
  unfold Dev.auxBlocked
  extract_lets x d1
  have hbit : d1.bit (Reg.auxEvents n) b = true := by
    rw [Dev.bit, Dev.raise_reg, if_pos (show Reg.auxEvents n = (EvReg.aux n).addr from Eq.refl _), bitOf_or_oneBit _ _ _ hb]
    exact Bool.or_eq_true_iff.mpr (.inl h)
  split_ifs
  · exact hbit
  · exact hbit

theorem Dev.auxOn_fitted (duty : Nat) (h : d.auxFitted n k = true) : d.auxOn n k duty = d.onAux n k fun a => { a with
    on := true, duty := BitVec.ofNat 6 duty
    tach := if d.auxCooling n k = true ∧ d.auxMinRate n k ≠ 0 then .spinUp else .unsupervised
    spinAt := d.now, offUntil := none, openSince := none, misSince := none, openSet := false, misSet := false, below := false
    rate := 0, edges := 0 } := by
  simp [Dev.auxOn, h]

theorem Dev.auxOn_unfitted (duty : Nat) (h : d.auxFitted n k = false) : d.auxOn n k duty = d := by
  simp [Dev.auxOn, h]

end

section
variable {s : State} {n : LinkId} {k : Fin 4}

/-- Where the time of a retry has not come, the command finds nothing to do. -/
theorem exec_auxOcRetry_idle (h : (((s.dev.link n).aux.get k).offUntil.map fun t => decide (t ≤ s.dev.now)) ≠ some true ∨
    ((s.dev.link n).aux.get k).tach = .blocked ∨ ((s.dev.link n).aux.get k).fault = true ∨ s.dev.auxFitted n k = false) :
    Completes (.auxOcRetry n k) s fun e => s.dev.Keeps e [] := by
  refine .idle (exec_auxOcRetry n k s) ?_
  cases huntil : ((s.dev.link n).aux.get k).offUntil with
  | none => simp only [huntil]
  | some t =>
    simp only [huntil]
    split_ifs with hdue
    · refine Dev.auxOn_unfitted _ ?_
      simp_all
    · rfl

theorem exec_auxBlockedRetry_idle (h : (((s.dev.link n).aux.get k).offUntil.map fun t => decide (t ≤ s.dev.now)) ≠ some true ∨
    ((s.dev.link n).aux.get k).tach ≠ .blocked ∨ ((s.dev.link n).aux.get k).fault = true) :
    Completes (.auxBlockedRetry n k) s fun e => s.dev.Keeps e [] := by
  refine .idle (exec_auxBlockedRetry n k s) ?_
  cases huntil : ((s.dev.link n).aux.get k).offUntil with
  | none => simp only [huntil]
  | some t =>
    simp only [huntil]
    exact if_neg (by grind)

theorem exec_auxRunOnExpiry_idle (h : (((s.dev.link n).aux.get k).runOn.map fun t => decide (t ≤ s.dev.now)) ≠ some true) :
    Completes (.auxRunOnExpiry n k) s fun e => s.dev.Keeps e [] := by
  refine .idle (exec_auxRunOnExpiry n k s) ?_
  cases hon : ((s.dev.link n).aux.get k).runOn with
  | none => rfl
  | some t => exact if_neg (by simp_all)

/-- The end of a cooling channel's run-on switches it off (R476). -/
theorem exec_auxRunOnExpiry_due {t : Tick} (hon : ((s.dev.link n).aux.get k).runOn = some t) (ht : t ≤ s.dev.now) :
    exec (.auxRunOnExpiry n k) s = s.upd fun d =>
      (d.auxOff n k).onAux n k fun a => { a with runOn := none, wanted := false, offUntil := none, tach := .unsupervised } := by
  simp [exec_auxRunOnExpiry, execAuxRunOnExpiry, State.upd, hon, ht]

theorem exec_auxOcRetry_due {t : Tick} (huntil : ((s.dev.link n).aux.get k).offUntil = some t) (ht : t ≤ s.dev.now)
    (htach : ((s.dev.link n).aux.get k).tach ≠ .blocked) (hfault : ((s.dev.link n).aux.get k).fault = false) :
    exec (.auxOcRetry n k) s = s.upd fun d => d.auxOn n k (d.auxDuty n k) := by
  simp [exec_auxOcRetry, execAuxOcRetry, State.upd, huntil, ht, htach, hfault]

theorem exec_auxBlockedRetry_due {t : Tick} (huntil : ((s.dev.link n).aux.get k).offUntil = some t) (ht : t ≤ s.dev.now)
    (htach : ((s.dev.link n).aux.get k).tach = .blocked) (hfault : ((s.dev.link n).aux.get k).fault = false) :
    exec (.auxBlockedRetry n k) s = s.upd fun d =>
      (d.auxOn n k (d.auxDuty n k)).onAux n k fun x => { x with tries := ((d.link n).aux.get k).tries + 1 } := by
  simp [exec_auxBlockedRetry, execAuxBlockedRetry, State.upd, huntil, ht, htach, hfault]

/-- A channel that has had no load for 100 ms sets its event (R474). -/
def Dev.auxOpened (d : Dev) (n : LinkId) (k : Fin 4) : Dev :=
  (d.onAux n k fun x => { x with openSet := true }).raise (.aux n) (auxBit k 1)

theorem Dev.auxOpened_step (d : Dev) : d.AuxStep (d.auxOpened n k) n k { (d.link n).aux.get k with openSet := true } :=
  (Dev.AuxStep.rfl.onAux (f := fun x => { x with openSet := true })).raise

theorem Dev.auxOpened_bit (d : Dev) : (d.auxOpened n k).bit (Reg.auxEvents n) (auxBit k 1) = true :=
  Dev.raise_bit _ (.aux n) _ _ (auxBit_lt k (by omega))

theorem Dev.auxOpened_field (d : Dev) (lo width : Nat) :
    (d.auxOpened n k).field (Reg.auxCfg n k) lo width = d.field (Reg.auxCfg n k) lo width := by
  refine Dev.raise_field_other _ _ _ _ _ _ ?_
  simp only [EvReg.addr, Reg.auxCfg, Reg.auxEvents]
  omega

theorem exec_auxOpenLoad_due (hon : ((s.dev.link n).aux.get k).on = true) (hset : ((s.dev.link n).aux.get k).openSet = false)
    (hheld : heldFor ((s.dev.link n).aux.get k).openSince s.dev.now (ms 100) = true) :
    exec (.auxOpenLoad n k) s = s.upd fun d =>
      if d.auxCooling n k then (d.auxOpened n k).auxBlocked n k else d.auxOpened n k := by
  simp [exec_auxOpenLoad, execAuxOpenLoad, State.upd, hon, hset, hheld, Dev.auxOpened]

/-- A cooling channel without a load is blocked. -/
theorem Dev.openJammed_step (d : Dev) : d.AuxStep ((d.auxOpened n k).auxBlocked n k) n k
    (({ (d.link n).aux.get k with openSet := true } : AuxChannel).jammed
      (decide (((d.link n).aux.get k).tries < d.field (Reg.auxCfg n k) 24 3)) d.now) := by
  have h := d.auxOpened_step (n := n) (k := k) |>.auxBlocked
  rwa [Dev.auxOpened_field, show (d.auxOpened n k).now = d.now from (Dev.raise_now _ _ _ _ _)] at h

theorem exec_auxSpinTimeout_due (hon : ((s.dev.link n).aux.get k).on = true) (htach : ((s.dev.link n).aux.get k).tach = .spinUp)
    (hat : ((s.dev.link n).aux.get k).spinAt + ms (s.dev.settingField (Reg.auxXTach n k) 20 12) ≤ s.dev.now) :
    exec (.auxSpinTimeout n k) s = s.upd fun d => d.auxBlocked n k := by
  simp [exec_auxSpinTimeout, execAuxSpinTimeout, State.upd, hon, htach, hat]

theorem exec_auxMismatch_due (hset : ((s.dev.link n).aux.get k).misSet = false)
    (hheld : heldFor ((s.dev.link n).aux.get k).misSince s.dev.now (ms 10) = true) :
    exec (.auxMismatch n k) s = s.upd fun d => (d.onAux n k fun x => { x with misSet := true }).raise (.aux n) (auxBit k 5) := by
  simp [exec_auxMismatch, execAuxMismatch, State.upd, hset, hheld]

end

/-- Settles O55: a word of AUX_CMD does to each general channel what `AuxChannel.commanded` says, and every other command changes
one channel and its events (`Dev.AuxStep`). -/
theorem auxRules : Obligations.AuxRules := by
  unfold Obligations.AuxRules
  refine ⟨?start, ?duty, ?waits, ?off, ?faultOff, ?faultOn, ?restart, ?cooling, ?notWritten, ?runOn, ?runOnIdle, ?retry, ?retryIdle,
    ?blockedRetry, ?blockedUnfitted, ?blockedIdle, ?openLoad, ?openJams, ?openFault, ?openIdle, ?mismatch, ?mismatchIdle, ?spin,
    ?spinFault, ?spinIdle⟩
  case start =>
    intro s n w k hrec hrole hgen hbit hfault hon huntil hfitted
    refine (completes_auxCmdWrite hrec hrole hgen).imp fun e ⟨hchan, hrest⟩ => ⟨hchan.trans ?_, hrest⟩
    simp [AuxChannel.commanded, hbit, hfault, hon, huntil, hfitted]
  case duty =>
    intro s n w k hrec hrole hgen hbit hfault hon
    refine (completes_auxCmdWrite hrec hrole hgen).imp fun e ⟨hchan, hrest⟩ => ⟨hchan.trans ?_, hrest⟩
    simp [AuxChannel.commanded, hbit, hfault, hon]
  case waits =>
    intro s n w k hrec hrole hgen hbit hfault hon hwaits
    refine (completes_auxCmdWrite hrec hrole hgen).imp fun e ⟨hchan, hrest⟩ => ⟨hchan.trans ?_, hrest⟩
    obtain huntil | hfitted := hwaits
    · simp [AuxChannel.commanded, hbit, hfault, hon, huntil]
    · simp [AuxChannel.commanded, hbit, hfault, hon, hfitted]
  case off =>
    intro s n w k hrec hrole hgen hbit hfault
    refine (completes_auxCmdWrite hrec hrole hgen).imp fun e ⟨hchan, hrest⟩ => ⟨hchan.trans ?_, hrest⟩
    simp [AuxChannel.commanded, hbit, hfault]
  case faultOff =>
    intro s n w k hrec hrole hgen hbit hfault
    refine (completes_auxCmdWrite hrec hrole hgen).imp fun e ⟨hchan, hrest⟩ => ⟨hchan.trans ?_, hrest⟩
    simp [AuxChannel.commanded, hbit, hfault]
  case faultOn =>
    intro s n w k hrec hrole hgen hbit hfault hseen
    refine (completes_auxCmdWrite hrec hrole hgen).imp fun e ⟨hchan, hrest⟩ => ⟨hchan.trans ?_, hrest⟩
    simp [AuxChannel.commanded, hbit, hfault, hseen]
  case restart =>
    intro s n w k hrec hrole hgen hbit hfault hseen hfitted
    refine (completes_auxCmdWrite hrec hrole hgen).imp fun e ⟨hchan, hrest⟩ => ⟨hchan.trans ?_, hrest⟩
    simp [AuxChannel.commanded, hbit, hfault, hseen, hfitted]
  case cooling =>
    intro s n w k hcool
    cases hrec : s.dev.recording with
    | true =>
      obtain ⟨hchan, hbyte⟩ := Dev.auxCommand_cooling (data := w) hcool
      exact .of_eq (exec_auxCmdWrite n w s) (Dev.hosted_of_recording _ hrec) ⟨hchan, by rw [Dev.settled_field, hbyte],
        Dev.auxCommand_linksBut, Dev.auxCommand_regsBut.settled, (Dev.auxCommand_keeps _ _ _).settled⟩
    | false =>
      exact .of_eq (exec_auxCmdWrite n w s) (if_neg (by simp [hrec])) ⟨rfl, by rw [Dev.settled_field], .rfl, .settled .rfl,
        .settled .rfl⟩
  case notWritten =>
    intro s n w h
    refine .idle (exec_auxCmdWrite n w s) ?_
    simp only [Dev.hosted, Dev.auxCommand]
    grind
  case runOn =>
    intro s n k t hon ht
    refine .of_upd (exec_auxRunOnExpiry_due hon ht) ?_
    rw [Dev.auxOff, Dev.onAux_onAux]
    exact Dev.onAux_clause _ _ _ _
  case runOnIdle => exact fun s n k h => exec_auxRunOnExpiry_idle h
  case retry =>
    intro s n k t huntil ht htach hfault hfitted
    refine .of_upd (exec_auxOcRetry_due huntil ht htach hfault) ?_
    rw [Dev.auxOn_fitted _ hfitted]
    exact Dev.onAux_clause _ _ _ _
  case retryIdle => exact fun s n k h => exec_auxOcRetry_idle h
  case blockedRetry =>
    intro s n k t huntil ht htach hfault hfitted
    refine .of_upd (exec_auxBlockedRetry_due huntil ht htach hfault) ?_
    rw [Dev.auxOn_fitted _ hfitted, Dev.onAux_onAux]
    exact Dev.onAux_clause _ _ _ _
  case blockedUnfitted =>
    intro s n k t huntil ht htach hfault hfitted
    refine .of_upd (exec_auxBlockedRetry_due huntil ht htach hfault) ?_
    rw [Dev.auxOn_unfitted _ hfitted]
    exact Dev.onAux_clause _ _ _ _
  case blockedIdle => exact fun s n k h => exec_auxBlockedRetry_idle h
  case openLoad =>
    intro s n k hon hset hheld hcool
    refine .of_upd (exec_auxOpenLoad_due hon hset hheld) ?_
    rw [if_neg (by simp [hcool])]
    exact s.dev.auxOpened_step.clause s.dev.auxOpened_bit
  case openJams =>
    intro s n k hon hset hheld hcool htries
    refine .of_upd (exec_auxOpenLoad_due hon hset hheld) ?_
    rw [if_pos hcool]
    have hstep := s.dev.openJammed_step (n := n) (k := k)
    rw [decide_eq_true htries] at hstep
    obtain ⟨hchan, hopen, hothers⟩ := hstep.clause (Dev.auxBlocked_bit_keeps s.dev.auxOpened_bit)
    exact ⟨hchan, hopen, by rw [Dev.settled_bit, Dev.auxBlocked_bit], hothers⟩
  case openFault =>
    intro s n k hon hset hheld hcool htries
    refine .of_upd (exec_auxOpenLoad_due hon hset hheld) ?_
    rw [if_pos hcool]
    have hstep := s.dev.openJammed_step (n := n) (k := k)
    rw [decide_eq_false (not_lt.mpr htries)] at hstep
    obtain ⟨hchan, hopen, hothers⟩ := hstep.clause (Dev.auxBlocked_bit_keeps s.dev.auxOpened_bit)
    exact ⟨hchan, hopen, by rw [Dev.settled_bit, Dev.auxBlocked_bit], hothers⟩
  case openIdle => exact fun s n k h => .idle (exec_auxOpenLoad n k s) (if_neg (by grind))
  case mismatch =>
    intro s n k hset hheld
    exact .of_upd (exec_auxMismatch_due hset hheld) ((Dev.AuxStep.rfl.onAux (f := fun x => { x with misSet := true })).raise.clause
      (Dev.raise_bit _ (.aux n) _ _ (auxBit_lt k (by omega))))
  case mismatchIdle => exact fun s n k h => .idle (exec_auxMismatch n k s) (if_neg (by grind))
  case spin =>
    intro s n k hon htach hat htries
    refine .of_upd (exec_auxSpinTimeout_due hon htach hat) ?_
    have hstep := (Dev.AuxStep.rfl (d := s.dev) (n := n) (k := k)).auxBlocked
    rw [decide_eq_true htries] at hstep
    exact hstep.clause Dev.auxBlocked_bit
  case spinFault =>
    intro s n k hon htach hat htries
    refine .of_upd (exec_auxSpinTimeout_due hon htach hat) ?_
    have hstep := (Dev.AuxStep.rfl (d := s.dev) (n := n) (k := k)).auxBlocked
    rw [decide_eq_false (not_lt.mpr htries)] at hstep
    exact hstep.clause Dev.auxBlocked_bit
  case spinIdle => exact fun s n k h => .idle (exec_auxSpinTimeout n k s) (if_neg (by grind))

end Sys2Proof.Machine
end


section
/-! SUPPORT. The Pacer's own events (R26, R30, R31, R37): what each of its commands leaves. -/

namespace Sys2Proof.Machine

set_option Elab.async false

/-! ### Causes of the device -/

theorem Dev.deviceCause_pacer (d : Dev) (code bit : Nat) : (d.deviceCause code bit).pacer = d.pacer :=
  (d.deviceCause_keeps code bit).pacer

theorem Dev.deviceCause_regPart (d : Dev) (code bit : Nat) {a : Nat} {p : Part} (ha : regPart a = p)
    (hp : Part.isIn Part.trip p = false := by rfl) : (d.deviceCause code bit).reg a = d.reg a :=
  (d.deviceCause_keeps code bit).reg_of ha hp

theorem Dev.deviceCause_bit (d : Dev) (code bit : Nat) {a k : Nat} {p : Part} (ha : regPart a = p)
    (hp : Part.isIn Part.trip p = false := by rfl) : (d.deviceCause code bit).bit a k = d.bit a k := by
  rw [Dev.bit, d.deviceCause_regPart code bit ha hp, Dev.bit]

/-! ### The calendar -/

theorem Dev.calendarSecond_awake {d : Dev} (hreset : d.power.resetHeld = false) (hmode : d.mode ≠ .dormant) :
    d.calendarSecond = d.onPacer fun p => p.atTick d.now := by
  simp [Dev.calendarSecond, hreset, hmode]

theorem Dev.onPacer_id {d : Dev} {f : Pacer → Pacer} (h : f d.pacer = d.pacer) : d.onPacer f = d := by
  simp only [Dev.onPacer, h]

/-! ### The drift -/

theorem Dev.paceDriftCheck_due {d : Dev} {k : Nat} (hreset : d.power.resetHeld = false) (hmode : d.mode ≠ .dormant)
    (hdue : d.pacer.driftAt + 1000000 ≤ d.now) :
    d.paceDriftCheck k = ((d.onPacer fun p =>
      { p with driftAt := d.now, driftNow := decide (k < 24997500 ∨ 25002500 < k) }).setReg Reg.pacDrift
        (wordOfInt (driftTenths k))).raiseIf (decide (k < 24997500 ∨ 25002500 < k)) .pac 1 (wordOfInt (driftTenths k)) := by
  have hcond : d.pacer.driftAt + secs 1 ≤ d.now ∧ d.mode ≠ .dormant ∧ (!d.power.resetHeld) = true :=
    ⟨hdue, hmode, by simp [hreset]⟩
  simp only [Dev.paceDriftCheck, if_pos hcond, Bool.decide_or]

theorem Dev.raiseIf_bit (d : Dev) (c : Bool) (r : EvReg) {b : Nat} (w : Word) (hb : b < 32) :
    (d.raiseIf c r b w).bit r.addr b = (c || d.bit r.addr b) := by
  cases c
  · simp [Dev.raiseIf]
  · simp [Dev.raiseIf, d.raise_bit r w none hb]

theorem Dev.RegsBut.raiseIf {d e : Dev} {as : List Nat} (h : d.RegsBut e as) {c : Bool} {r : EvReg} {b : Nat} {w : Word}
    (hr : r.addr ∈ as) : d.RegsBut (e.raiseIf c r b w) as := by
  cases c
  · exact h
  · exact h.raise hr

/-! ### Overruns -/

/-- The flag of a link whose lap was closed late. -/
def Dev.flagOne (d : Dev) (n : LinkId) : Dev :=
  if d.role n = .outlet ∨ d.role n = .site then d.onMet n fun m => { m with flags := { m.flags with overrun := true } }
  else d

def Dev.flagLate (d : Dev) (late : List LinkId) : Dev := d.each late Dev.flagOne

theorem Dev.lapOverrun_eq (d : Dev) (w : WorkClass) (late : List LinkId) :
    ∃ arg, d.lapOverrun w late = (d.flagLate late).overrun arg := ⟨_, rfl⟩

theorem Dev.flagOne_keeps (d : Dev) (n : LinkId) : d.Keeps (d.flagOne n) [.met] :=
  .ite (fun _ => .onMet .rfl) fun _ => .rfl

theorem Dev.flagLate_keeps (d : Dev) (late : List LinkId) : d.Keeps (d.flagLate late) [.met] :=
  .each (fun e n _ => e.flagOne_keeps n) .rfl

theorem Dev.flagOne_other (d : Dev) {m n : LinkId} (h : m ≠ n) : (d.flagOne n).link m = d.link m := by
  unfold Dev.flagOne
  split
  · rw [Dev.onMet, Dev.onLink_link, if_neg h]
  · rfl

theorem Dev.flagOne_flags {d : Dev} {n : LinkId} (hrole : d.role n = .outlet ∨ d.role n = .site) :
    ((d.flagOne n).link n).met.flags = { (d.link n).met.flags with overrun := true } := by
  rw [Dev.flagOne, if_pos hrole]
  simp

/-- A late link is flagged, once or again. -/
theorem Dev.flagLate_flags {d : Dev} {late : List LinkId} {n : LinkId} (hn : n ∈ late)
    (hrole : d.role n = .outlet ∨ d.role n = .site) :
    ((d.flagLate late).link n).met.flags = { (d.link n).met.flags with overrun := true } := by
  unfold Dev.flagLate Dev.each
  induction late generalizing d with
  | nil => simp at hn
  | cons m ms ih =>
    rw [List.foldl_cons]
    by_cases hmn : n = m
    · subst hmn
      refine Dev.each_inv (P := fun e => (e.link n).met.flags = { (d.link n).met.flags with overrun := true })
        (Dev.flagOne_flags hrole) fun e k _ he => ?_
      by_cases hk : n = k
      · subst hk
        unfold Dev.flagOne
        split
        · simp [he]
        · exact he
      · rw [e.flagOne_other hk, he]
    · rw [ih ((List.mem_cons.mp hn).resolve_left hmn) (by rwa [(d.flagOne_keeps m).role]), d.flagOne_other hmn]

theorem Dev.flagLate_others (d : Dev) {late : List LinkId} {m : LinkId} (hm : m ∉ late) :
    (d.flagLate late).link m = d.link m :=
  Dev.each_inv (P := fun e => e.link m = d.link m) rfl fun e _ hk he =>
    (e.flagOne_other (ne_of_mem_of_not_mem hk hm).symm).trans he

/-- The first overrun (R37): its event, its count, and the margin of VCORE that it raises. -/
theorem Dev.overrun_first {d : Dev} (hmargin : d.pacer.vcoreMargin = false) (arg : Word) :
    d.overrun arg = ((((d.raiseAlways .pac 4 arg).count Reg.pacOverrunCnt).onPacer fun p =>
      { p with vcoreMargin := true }).sendVout (min 900 (tempoMv d.power.tempo + 20))) := by
  simp [Dev.overrun, hmargin, Dev.voutFor]

theorem Dev.overrun_again {d : Dev} (hmargin : d.pacer.vcoreMargin = true) (arg : Word) :
    d.overrun arg = ((d.raiseAlways .pac 4 arg).count Reg.pacOverrunCnt).deviceCause 0x32 0 := by
  simp [Dev.overrun, hmargin]

theorem Dev.overrunCounted_bit (d : Dev) (arg : Word) :
    ((d.raiseAlways .pac 4 arg).count Reg.pacOverrunCnt).bit Reg.pacEvents 4 = true := by
  rw [Dev.bit, Dev.count, Dev.setReg_reg, if_neg (by decide), Dev.raiseAlways_reg,
    if_pos (show Reg.pacEvents = EvReg.pac.addr from rfl), bitOf_or_oneBit_self _ _ (by decide)]

theorem Dev.overrunCounted_count (d : Dev) (arg : Word) :
    ((d.raiseAlways .pac 4 arg).count Reg.pacOverrunCnt).reg Reg.pacOverrunCnt =
      satWord ((d.reg Reg.pacOverrunCnt).toNat + 1) := by
  rw [Dev.count, Dev.setReg_reg, if_pos rfl, Dev.raiseAlways_reg, if_neg (by decide)]

/-- A tempo's minimum is never above the most that VCORE is set to. -/
theorem tempoMv_le (t : Nat) : tempoMv t ≤ 900 := by
  obtain h | h := Nat.lt_or_ge t 8
  · interval_cases t <;> decide
  · simp [tempoMv, h]

theorem Dev.sendVout_sent {d : Dev} {mv : Nat} (hlost : d.power.pmbLost = false) (hmv : tempoMv d.power.tempo ≤ mv) :
    d.sendVout mv = ((d.sendPmb (.voutCommand mv)).onPower fun p => { p with voutAt := some d.now, pollAt := d.now }).setReg
      Reg.pwrVcoreReq (BitVec.ofNat 32 mv) := by
  rw [Dev.sendVout, if_neg (by simp [hlost]), if_neg (not_lt.mpr hmv)]

theorem Dev.sendVout_pac (d : Dev) (mv : Nat) {a : Nat} (ha : regPart a = .rPac) : (d.sendVout mv).reg a = d.reg a :=
  (d.sendVout_keeps mv).reg_of ha

end Sys2Proof.Machine
end

section
/-! The Pacer's own events. -/

namespace Sys2Proof.Machine

set_option Elab.async false

/-- Settles O13: each command of the Pacer is unfolded once under its condition; the causes that follow are those of a trip. -/
theorem pacerDoesItsRules : Obligations.PacerDoesItsRules := by
  unfold Obligations.PacerDoesItsRules
  refine ⟨?second, ?early, ?leapSecond, ?loss, ?drift, ?firstOverrun, ?margin, ?overrunUnderMargin⟩
  case second =>
    intro s hreset hmode hleap hdue
    refine .of_eq (exec_calendarSecond s) (Dev.calendarSecond_awake hreset hmode) ⟨?_, .settled (.onPacer .rfl)⟩
    simp [Pacer.atTick, hdue, Pacer.turnOver, hleap]
  case early =>
    intro s hreset hmode hearly
    refine .idle (exec_calendarSecond s) ?_
    rw [Dev.calendarSecond_awake hreset hmode]
    exact Dev.onPacer_id (if_neg (not_le.mpr hearly))
  case leapSecond =>
    intro s hreset hmode hleap hheld hdue
    refine .of_eq (exec_calendarSecond s) (Dev.calendarSecond_awake hreset hmode) ⟨?_, .settled (.onPacer .rfl)⟩
    simp [Pacer.atTick, hdue, Pacer.turnOver, hleap, hheld]
  case loss =>
    intro s hreset hmode harmed
    set d := ((s.dev.onPacer fun p => { p with paceOk := false }).onProtection fun p =>
      { p with paceOkSince := none }).raise .pac 0 with hd
    have hcause := d.deviceCause_site 0x30 0 [] 0 false (by decide) (by decide) (by simp [hd, harmed])
    obtain ⟨hhalt, hlatch, -⟩ := hcause
    refine .of_eq (e := d.deviceCause 0x30 0) (exec_paceLoss s) ?_ ⟨?_, ?_, hhalt, hlatch, ?_⟩
    · simp [Dev.paceLoss, hreset, hmode, hd]
    · rw [Dev.settled_pacer, Dev.deviceCause_pacer, hd]
      simp
    · rw [Dev.settled_bit, d.deviceCause_bit 0x30 0 (p := .rPac) rfl, hd]
      exact Dev.raise_bit _ .pac 0 none (by decide)
    · exact .settled (.via (Dev.deviceCause_keeps _ _ _) (.raise (.onProtection (.onPacer .rfl)) rfl rfl) rfl)
  case drift =>
    intro s k hreset hmode hdue
    refine .of_eq (exec_paceDriftCheck k s) (Dev.paceDriftCheck_due hreset hmode hdue) ⟨?_, ?_, ?_, ?_, ?_⟩
    · rw [Dev.settled_bit, show Reg.pacEvents = EvReg.pac.addr from rfl, Dev.raiseIf_bit _ _ _ _ (by decide),
        Bool.or_eq_true, decide_eq_true_eq, or_comm]
      simp [Dev.bit, EvReg.addr, Reg.pacEvents, Reg.pacDrift]
    · simp
    · rw [Dev.settled_reg, Dev.raiseIf_reg]
      simp [EvReg.addr, Reg.pacDrift, Reg.pacEvents]
    · exact .settled (.raiseIf (.setReg (fun _ _ => rfl) (by simp)) (by simp [EvReg.addr]))
    · exact .settled (.raiseIf (.setReg (.onPacer .rfl) rfl) rfl rfl)
  case firstOverrun =>
    intro s w ns n hn hrole hmargin
    obtain ⟨arg, harg⟩ := s.dev.lapOverrun_eq w ns
    have hlate := s.dev.flagLate_keeps ns
    have hmargin' : (s.dev.flagLate ns).pacer.vcoreMargin = false := by rw [hlate.pacer, hmargin]
    have hlink : ∀ m, ((s.dev.flagLate ns).overrun arg).link m = (s.dev.flagLate ns).link m := by
      intro m
      rw [Dev.overrun_first hmargin']
      simp [Dev.sendVout, Dev.sendPmb]
      split_ifs <;> simp
    refine .of_eq (e := (s.dev.flagLate ns).overrun arg) (exec_lapOverrun w ns s) harg ⟨?_, ?_, ?_, ?_, ?_, ?_⟩
    · rw [Dev.settled_bit, Dev.overrun_first hmargin', Dev.bit, Dev.sendVout_pac _ _ rfl]
      exact Dev.overrunCounted_bit _ arg
    · rw [Dev.settled_pacer, Dev.overrun_first hmargin', (Dev.sendVout_keeps _ _).pacer]
      simp [hlate.pacer]
    · rw [Dev.settled_reg, Dev.overrun_first hmargin', Dev.sendVout_pac _ _ rfl, ← hlate.reg_of (a := Reg.pacOverrunCnt) rfl]
      exact Dev.overrunCounted_count _ arg
    · rw [Dev.settled_link, hlink, Dev.flagLate_flags hn hrole]
    · intro m hm
      rw [Dev.settled_link, hlink, Dev.flagLate_others _ hm]
    · rw [Dev.overrun_first hmargin']
      exact .settled (.via (Dev.sendVout_keeps _ _)
        (.onPacer (.count (.raiseAlways (hlate.mono) rfl rfl) rfl)) rfl)
  case margin =>
    intro s w ns hmargin hlost
    obtain ⟨arg, harg⟩ := s.dev.lapOverrun_eq w ns
    have hlate := s.dev.flagLate_keeps ns
    have hmargin' : (s.dev.flagLate ns).pacer.vcoreMargin = false := by rw [hlate.pacer, hmargin]
    refine .of_eq (e := (s.dev.flagLate ns).overrun arg) (exec_lapOverrun w ns s) harg ?_
    have htempo := tempoMv_le s.dev.power.tempo
    rw [Dev.overrun_first hmargin', hlate.power, Dev.sendVout_sent (by simp [hlate.power, hlost])
      (by simp [hlate.power]; omega)]
    refine ⟨?_, ?_⟩
    · rw [Dev.settled_reg, Dev.setReg_reg, if_pos rfl]
    · simp [Dev.now, hlate.pacer]
  case overrunUnderMargin =>
    intro s w ns hmargin harmed
    obtain ⟨arg, harg⟩ := s.dev.lapOverrun_eq w ns
    have hlate := s.dev.flagLate_keeps ns
    have hmargin' : (s.dev.flagLate ns).pacer.vcoreMargin = true := by rw [hlate.pacer, hmargin]
    set d := ((s.dev.flagLate ns).raiseAlways .pac 4 arg).count Reg.pacOverrunCnt with hd
    obtain ⟨hhalt, hlatch, -⟩ := d.deviceCause_site 0x32 0 [] 0 false (by decide) (by decide)
      (by simp [hd, hlate.prot, harmed])
    refine .of_eq (e := d.deviceCause 0x32 0) (exec_lapOverrun w ns s) (harg.trans (Dev.overrun_again hmargin' arg))
      ⟨?_, ?_, hhalt, hlatch, ?_⟩
    · rw [Dev.settled_bit, d.deviceCause_bit 0x32 0 (p := .rPac) rfl]
      exact Dev.overrunCounted_bit _ arg
    · rw [Dev.settled_reg, d.deviceCause_regPart 0x32 0 (p := .rPac) rfl, ← hlate.reg_of (a := Reg.pacOverrunCnt) rfl]
      exact Dev.overrunCounted_count _ arg
    · rw [Dev.settled_pacer, Dev.deviceCause_pacer, hd]
      simp [hlate.pacer]

end Sys2Proof.Machine
end


section
/-! SUPPORT. Mode requests (R53): what the register write leaves of the reasons against a mode. -/

namespace Sys2Proof.Machine

set_option Elab.async false

theorem Dev.gw_of_recording {d : Dev} (a : Nat) (w : Word) (f : Dev → Dev) (h : d.recording = true) :
    d.gw a w f = f (d.setReg a w) := if_pos h

theorem Dev.gw_idle {d : Dev} (a : Nat) (w : Word) (f : Dev → Dev) (h : d.recording = false) : d.gw a w f = d := by
  simp [Dev.gw, h]

section
variable {d e : Dev} (h : d.Keeps e [.rPwr])
include h

theorem Dev.Keeps.liveSessions_eq : e.liveSessions = d.liveSessions := by
  have hlive : e.sessionLive = d.sessionLive := funext fun n => by simp only [Dev.sessionLive, h.veh n]
  rw [Dev.liveSessions, h.outlets, hlive, Dev.liveSessions]

theorem Dev.Keeps.dormantRefusal_eq : e.dormantRefusal = d.dormantRefusal := by
  have hopen : e.allOpen = d.allOpen := by simp only [Dev.allOpen, h.hs]
  simp only [Dev.dormantRefusal, h.mode, h.liveSessions_eq, hopen, h.upd]

theorem Dev.Keeps.maintenanceRefusal_eq : e.maintenanceRefusal = d.maintenanceRefusal := by
  simp only [Dev.maintenanceRefusal, h.mode, h.liveSessions_eq, h.bill]

end

/-- The device with PWR_MODE_REQ written. -/
def Dev.modeAsked (d : Dev) (code : Nat) : Dev := d.setReg Reg.pwrModeReq (BitVec.ofNat 32 (code % 16))

theorem Dev.modeAsked_keeps (d : Dev) (code : Nat) : d.Keeps (d.modeAsked code) [.rPwr] := .setReg .rfl rfl

theorem Dev.modeAsked_regsBut {d : Dev} {code : Nat} {as : List Nat} (h : Reg.pwrModeReq ∈ as) :
    d.RegsBut (d.modeAsked code) as := .setReg (fun _ _ => rfl) h

theorem Dev.modeRequested_recording {d : Dev} {code : Nat} (h : d.recording = true) :
    d.modeRequested code = (d.modeAsked code).modeRequest code := if_pos h

section
variable {c : Instr} {s : State} {code : Nat} {d : Dev}

/-- A request that is admitted adds its trigger to the open tick. -/
theorem Completes.modeTriggered {t : ModeTrigger} (hc : exec c s = s.upd fun d => d.modeRequested code)
    (hrun : s.dev.recording = true) (h : (s.dev.modeAsked code).modeRequest code = (s.dev.modeAsked code).trigger t) :
    Completes c s fun e =>
      e.power = { s.dev.power with trigs := s.dev.power.trigs ++ [t] } ∧
      e.reg Reg.pwrModeReq = BitVec.ofNat 32 (code % 16) ∧
      s.dev.RegsBut e [Reg.pwrModeReq] := by
  refine .of_eq hc ((Dev.modeRequested_recording hrun).trans h) ⟨rfl, ?_, ?_⟩
  · rw [Dev.settled_reg, Dev.trigger, Dev.onPower_reg, Dev.modeAsked, Dev.setReg_reg, if_pos rfl]
  · exact .settled (.onPower (Dev.modeAsked_regsBut (by simp)))

/-- A request that is refused shows its reason and sets MODE_REFUSED. -/
theorem Completes.modeRefused {why : ModeRefusal} (hc : exec c s = s.upd fun d => d.modeRequested code)
    (hrun : s.dev.recording = true) (h : (s.dev.modeAsked code).modeRequest code = (s.dev.modeAsked code).refuseMode why) :
    Completes c s fun e =>
      e.power = { s.dev.power with refuse := why } ∧
      e.reg Reg.pwrModeReq = BitVec.ofNat 32 (code % 16) ∧
      e.bit Reg.pwrEvents 6 = true ∧
      s.dev.RegsBut e [Reg.pwrModeReq, Reg.pwrEvents] := by
  refine .of_eq hc ((Dev.modeRequested_recording hrun).trans h) ⟨?_, ?_, ?_, ?_⟩
  · rw [Dev.settled_power, Dev.refuseMode, Dev.raise_power]
    rfl
  · rw [Dev.settled_reg, Dev.refuseMode, Dev.raise_reg, if_neg (by decide), Dev.onPower_reg, Dev.modeAsked, Dev.setReg_reg,
      if_pos rfl]
  · exact Dev.settled_raise_bit _ .pwr 0 none (by decide)
  · rw [Dev.refuseMode]
    exact .settled (.raise (.onPower (Dev.modeAsked_regsBut (by simp))) (by simp [EvReg.addr]))

theorem Dev.modeRequest_dormant : (d.modeAsked code).modeRequest 0 =
    (d.modeAsked code).requestMode d.dormantRefusal (.toDormant true) := by
  rw [← (d.modeAsked_keeps code).dormantRefusal_eq]
  rfl

theorem Dev.modeRequest_maintenance : (d.modeAsked code).modeRequest 5 =
    (d.modeAsked code).requestMode d.maintenanceRefusal .toMaintenance := by
  rw [← (d.modeAsked_keeps code).maintenanceRefusal_eq]
  rfl

theorem Dev.recording_of_dormantRefusal (h : d.dormantRefusal = .none) : d.recording = true := by
  by_cases hrun : d.mode = .run
  · simp [Dev.recording, hrun]
  · by_cases heco : d.mode = .economy
    · simp [Dev.recording, heco]
    · simp [Dev.dormantRefusal, hrun, heco] at h

theorem Dev.recording_of_maintenanceRefusal (h : d.maintenanceRefusal = .none) : d.recording = true := by
  by_cases hrun : d.mode = .run
  · simp [Dev.recording, hrun]
  · by_cases heco : d.mode = .economy
    · simp [Dev.recording, heco]
    · simp [Dev.maintenanceRefusal, hrun, heco] at h

end

end Sys2Proof.Machine
end

section
/-! Mode requests. -/

namespace Sys2Proof.Machine

set_option Elab.async false

/-- Settles O14: each code leads to a trigger or a refusal, which leave what they are said to leave. -/
theorem modeRequests : Obligations.ModeRequests := by
  unfold Obligations.ModeRequests
  refine ⟨?dormant, ?run, ?economy, ?noDormant, ?noRun, ?noEconomy, ?maintenance, ?noMaintenance, ?safeHalt, ?asleep⟩
  case dormant =>
    intro s hnone
    exact .modeTriggered (code := 0) (exec_modeReqDormant s) (Dev.recording_of_dormantRefusal hnone)
      (Dev.modeRequest_dormant.trans (if_pos hnone))
  case run =>
    intro s hmode
    have hasked : (s.dev.modeAsked 3).mode = s.dev.mode := rfl
    refine .modeTriggered (code := 3) (exec_modeReqRun s) (by obtain h | h := hmode <;> simp [Dev.recording, h]) ?_
    obtain h | h := hmode <;> simp [Dev.modeRequest, hasked, h, Dev.requestMode]
  case economy =>
    intro s hmode
    have hasked : (s.dev.modeAsked 4).mode = s.dev.mode := rfl
    refine .modeTriggered (code := 4) (exec_modeReqEconomy s) (by simp [Dev.recording, hmode]) ?_
    simp [Dev.modeRequest, hasked, hmode, Dev.requestMode]
  case noDormant =>
    intro s hrun hwhy
    exact .modeRefused (code := 0) (exec_modeReqDormant s) hrun (Dev.modeRequest_dormant.trans (if_neg hwhy))
  case noRun =>
    intro s hrun heco hmaint
    have hasked : (s.dev.modeAsked 3).mode = s.dev.mode := rfl
    refine .modeRefused (code := 3) (exec_modeReqRun s) hrun ?_
    simp [Dev.modeRequest, hasked, heco, hmaint]
  case noEconomy =>
    intro s hrun hmode
    have hasked : (s.dev.modeAsked 4).mode = s.dev.mode := rfl
    refine .modeRefused (code := 4) (exec_modeReqEconomy s) hrun ?_
    simp [Dev.modeRequest, hasked, hmode, Dev.requestMode]
  case maintenance =>
    intro s hnone
    exact .modeTriggered (code := 5) (exec_modeReqMaintenance s) (Dev.recording_of_maintenanceRefusal hnone)
      (Dev.modeRequest_maintenance.trans (if_pos hnone))
  case noMaintenance =>
    intro s hrun hwhy
    exact .modeRefused (code := 5) (exec_modeReqMaintenance s) hrun (Dev.modeRequest_maintenance.trans (if_neg hwhy))
  case safeHalt =>
    intro s hrun harmed
    have hsite := (s.dev.modeAsked 6).deviceCause_site 0x33 0 [] 0 true (by decide) (by decide) harmed
    obtain ⟨hhalt, hlatch, hbit⟩ := hsite
    refine .of_eq (e := (s.dev.modeAsked 6).deviceCause 0x33 0 [] 0 true) (exec_modeReqSafeHalt s)
      (Dev.modeRequested_recording hrun) ⟨hhalt, hlatch, ?_, ?_, ?_⟩
    · rw [Dev.settled_bit, hbit]
    · rw [Dev.settled_reg, (Dev.deviceCause_keeps _ _ _ _ _ _).reg_of (p := .rPwr) rfl, Dev.modeAsked, Dev.setReg_reg,
        if_pos rfl]
      rfl
    · exact ((s.dev.modeAsked 6).deviceCause_mild _ _ _ _ _).mode
  case asleep =>
    intro s c hrun hc
    have hidle : ∀ code, s.dev.modeRequested code = s.dev := fun code => Dev.gw_idle _ _ _ hrun
    simp only [List.mem_cons, List.not_mem_nil, or_false] at hc
    obtain rfl | rfl | rfl | rfl | rfl := hc
    · exact .idle (exec_modeReqDormant s) (hidle 0)
    · exact .idle (exec_modeReqRun s) (hidle 3)
    · exact .idle (exec_modeReqEconomy s) (hidle 4)
    · exact .idle (exec_modeReqMaintenance s) (hidle 5)
    · exact .idle (exec_modeReqSafeHalt s) (hidle 6)

end Sys2Proof.Machine
end


section
/-! SUPPORT. Modes through the steps of bring-up and through a lap (R49, R56): which commands leave of the power controller
only the record of the last commit, or only a request for SAFE HALT. -/

namespace Sys2Proof.Machine

set_option Elab.async false

/-! ### Commits: of the power controller they change the record of the last commit alone -/

/-- The power controller with another record of the last commit and other mirrors in the keeper. -/
def Power.committed (p : Power) (at' : Tick) (cal : Option Nat) (seconds cycles seals : Word) : Power :=
  { p with
    commitAt := at', commitCal := cal, opSecondsMirror := seconds, cyclesMirror := cycles, sealCntMirror := seals }

/-- Of the power controller only the record of the last commit and the mirrors change. -/
def Dev.Commits (d e : Dev) : Prop := ∃ at' cal seconds cycles seals, e.power = d.power.committed at' cal seconds cycles seals

theorem Dev.Commits.of_power {d e : Dev} (h : e.power = d.power) : d.Commits e := ⟨_, _, _, _, _, h⟩

theorem Dev.Commits.rfl (d : Dev) : d.Commits d := .of_power (Eq.refl _)

theorem Dev.Commits.trans {d e f : Dev} (h1 : d.Commits e) (h2 : e.Commits f) : d.Commits f := by
  obtain ⟨a, c, o, y, z, h1⟩ := h1
  obtain ⟨a', c', o', y', z', h2⟩ := h2
  exact ⟨a', c', o', y', z', by rw [h2, h1]; simp [Power.committed]⟩

theorem Dev.Commits.via {d e f : Dev} (h2 : e.Commits f) (h1 : d.Commits e) : d.Commits f := h1.trans h2

theorem Dev.Commits.of_keeps {d e : Dev} {l : List Part} (h : d.Keeps e l) (hp : Part.isIn l .power = false := by rfl) :
    d.Commits e := .of_power (h.power hp)

theorem Dev.Commits.mode {d e : Dev} (h : d.Commits e) : e.mode = d.mode := by
  obtain ⟨a, c, o, y, z, h⟩ := h
  rw [Dev.mode, h]
  rfl

theorem Dev.Commits.haltLatch {d e : Dev} (h : d.Commits e) : e.power.haltLatch = d.power.haltLatch := by
  obtain ⟨a, c, o, y, z, h⟩ := h
  rw [h]
  rfl

theorem Dev.commitTotals_commits (d : Dev) : d.Commits d.commitTotals := by
  have hmet : d.Keeps (d.each d.usedLinks fun d n => d.onMet n fun m => { m with comImp := m.imp, comExp := m.exp }) [.met] :=
    .each (fun _ _ _ => .onMet .rfl) .rfl
  exact (Dev.Commits.of_keeps hmet).trans ⟨_, _, _, _, _, rfl⟩

theorem Dev.notePowers_keeps (d : Dev) (n : LinkId) : d.Keeps (applyIf d.planEnds (fun d => d.notePower n) d) [.lbill] :=
  .applyIf (fun e => e.notePower_keeps n) .rfl

theorem Dev.closeSession_commits (d : Dev) (n : LinkId) (why : StopReason) : d.Commits (d.closeSession n why) := by
  unfold Dev.closeSession
  extract_lets d1
  split
  · exact .rfl d
  · extract_lets _ d2 d3
    have h1 : d.Commits d1 := .via (.of_keeps (Dev.charge_keeps _ n)) (.via (.of_keeps (Dev.closeSegment_keeps _ n))
      (.of_keeps (d.notePowers_keeps n)))
    have h3 : d1.Commits d3 := .via (.of_keeps (Dev.onBill_keeps _ _ _)) (.of_keeps (Dev.addRecord_keeps _ _ _ _ _ _ _ _))
    exact .via (Dev.commitTotals_commits _) (.via (.of_keeps (Dev.sumResv_keeps _ _)) (.via (.of_keeps (Dev.onTenant_keeps _ _ _))
      (.via h3 h1)))

theorem Dev.each_commits {α : Type} {xs : List α} {f : Dev → α → Dev} {d : Dev} (h : ∀ (e : Dev) (x : α), e.Commits (f e x)) :
    d.Commits (d.each xs f) :=
  Dev.each_inv (P := d.Commits) (.rfl d) fun e x _ he => he.trans (h e x)

theorem Dev.closeLap_commits (d : Dev) (activation : Bool) : d.Commits (d.closeLap activation) := by
  unfold Dev.closeLap
  extract_lets d0 d1 r d2
  have h0 : d.Commits d0 := by
    refine .of_keeps (l := [.lbill]) (.applyIf (fun e => ?_) .rfl)
    exact .each (fun x n _ => x.notePower_keeps n) .rfl
  have h1 : d0.Commits d1 := Dev.each_commits fun e n => (Dev.Commits.of_keeps (Dev.closeSegment_keeps e n)).trans
    ((Dev.Commits.of_keeps (Dev.charge_keeps _ n)).trans (.of_keeps (Dev.latchLap_keeps _ n)))
  have h2 : d1.Commits d2 := (Dev.Commits.of_keeps d1.reconcile_keeps).trans
    (Dev.each_commits fun e n => .of_keeps (Dev.lapRecord_keeps e n _ _))
  exact h0.trans (h1.trans (h2.trans (Dev.commitTotals_commits _)))

theorem Dev.closeInterrupted_commits (d : Dev) : d.Commits d.closeInterrupted := by
  unfold Dev.closeInterrupted
  extract_lets d1 d2 d3
  have h2 : d1.Commits d2 := Dev.each_commits fun e n => by
    beta_reduce
    split
    · exact e.closeSession_commits n .powerLoss
    · exact .rfl e
  have h3 : d2.Commits d3 := by
    unfold d3
    split
    · exact d2.closeLap_commits false
    · exact .rfl d2
  obtain ⟨a, c, o, y, z, h⟩ := Dev.Commits.trans (d := d) (e := d1) (.rfl d) (h2.trans h3)
  refine ⟨d.power.commitAt, d.power.commitCal, o, y, z, ?_⟩
  simp [h, Power.committed]

/-! ### The first pass over the ledger may ask for SAFE HALT, and no more -/

theorem Dev.poisonResponse_mild (d : Dev) (word : Nat) : d.Mild (d.poisonResponse word) := by
  unfold Dev.poisonResponse
  split_ifs
  · exact .of_keeps (d.retireBlock_keeps _)
  · exact .of_keeps (d.onBilling_keeps _)
  · have hconsume : d.Mild (d.consumePoison false word) := .of_keeps (d.consumePoison_keeps _ _)
    split
    · exact hconsume.trans (Dev.deviceCause_mild _ _ _ _ _ _)
    · exact hconsume.trans (Dev.deviceCause_mild _ _ _ _ _ _)
    · exact .via (.of_keeps (Dev.stopTenant_keeps _ _)) (.via (Dev.raise_mild _ _ _ _ _)
        (.via (.of_keeps (l := [.fresh]) (.drew .rfl rfl)) (.via (.of_keeps (Dev.onTenant_keeps _ _ _)) hconsume)))
    · exact hconsume.trans (.of_keeps (Dev.onBill_keeps _ _ _))
    · exact hconsume.trans (.of_keeps (Dev.onBill_keeps _ _ _))
    · exact .of_keeps (Dev.onBilling_keeps _ _)
    · exact .rfl d
    · exact .rfl d

theorem Dev.foundBad_mild (d : Dev) (x : ScrubFound) : d.Mild (d.foundBad x) := by
  cases x with
  | vault k => exact .of_keeps (d.vaultFailure_keeps k)
  | ledger w a b =>
    simp only [Dev.foundBad, Dev.readLedger]
    split
    · exact .rfl d
    · split
      · exact .rfl d
      · exact .of_keeps d.ledgerRepair_keeps
      · unfold Dev.poisonLedger
        split
        · exact .rfl d
        · exact .via (Dev.poisonResponse_mild _ _) (.via (Dev.raise_mild _ _ _ _ _) (.of_keeps (Dev.onMem_keeps _ _)))

theorem Dev.firstPass_mild (d : Dev) (found : List ScrubFound) : d.Mild (d.firstPass found) :=
  .trans (Dev.each_inv (P := d.Mild) (.rfl d) fun e x _ he => he.trans (e.foundBad_mild x))
    (.of_keeps (Dev.scrubLedgerNext_keeps _ _))

/-! ### Registers through arming and power-on -/

theorem Dev.imagePairs_rPrt (d : Dev) : d.Keeps d.imagePairs [.rPrt] := by
  refine .ite (fun _ => .each (fun e x hx => ?_) .rfl) fun _ => .rfl
  obtain ⟨-, hany⟩ := List.mem_filter.mp hx
  obtain ⟨k, hk, hkx⟩ := List.any_eq_true.mp hany
  rw [eq_of_beq hkx]
  refine .setReg .rfl (contains_of (q := .rPrt) ?_ rfl)
  rw [List.mem_range] at hk
  interval_cases k <;> rfl

theorem Dev.armBoot_reg (d : Dev) {a : Nat} (ha : regPart a = .rPwr) : d.armBoot.reg a = d.reg a := by
  unfold Dev.armBoot
  rw [(Dev.verifyLoader_keeps _).reg_of ha, (Dev.armPairs_keeps _).reg_of ha, (Dev.imagePairs_rPrt _).reg_of ha]
  rfl

end Sys2Proof.Machine
end


section
/-! SUPPORT. Bring-up (R49, R52, R56): what the release of POR_N, step 4 and steps 6 to 8 leave. -/

namespace Sys2Proof.Machine

set_option Elab.async false

/-! ### Power-on -/

/-- A power-on reset counted, and the Pacer restarted (R24, R49). -/
def Dev.cycleCounted (d : Dev) : Dev :=
  (((d.activationCut.restoreMirrors.count Reg.pwrCycles).setReg Reg.pwrWakeCause 0).onPacer fun p =>
    p.fromKeeper (d.drawn.toNat % 32768) 0).drew

def Dev.powered (d : Dev) (loaderOk : Bool) : Dev :=
  (d.cycleCounted.onPower fun p =>
    { p with resetHeld := false, porAsserted := false, railLow := [], loaderOk := loaderOk }).armBoot

theorem Dev.powerOn_eq (d : Dev) (loaderOk : Bool) : d.powerOn loaderOk =
    if (d.powered loaderOk).power.testEn ∨ (d.powered loaderOk).upd.record = .swapping then
      (d.powered loaderOk).onPower fun p => { p with bringup := .idle }
    else d.powered loaderOk := by
  unfold Dev.powerOn Dev.powered Dev.cycleCounted
  rfl

/-- The device after a power-on reset but for how far its bring-up goes. -/
theorem Dev.powerOn_cases (d : Dev) (loaderOk : Bool) :
    ∃ b, d.powerOn loaderOk = (d.powered loaderOk).onPower fun p => { p with bringup := b } := by
  rw [Dev.powerOn_eq]
  generalize d.powered loaderOk = x
  split
  · exact ⟨_, rfl⟩
  · exact ⟨x.power.bringup, rfl⟩

theorem Dev.restoreMirrors_power (d : Dev) : ∃ b, d.restoreMirrors.power = { d.power with vaonLost := b } := by
  unfold Dev.restoreMirrors
  split
  · have hbills : ∀ e : Dev, (e.each allLinks fun d n => d.onBill n fun b => { b with unwatched := true }).power = e.power :=
      fun e => (Dev.Keeps.each (l := [.lbill]) (fun _ _ _ => .onBill .rfl) .rfl).power
    exact ⟨false, by simp [hbills]⟩
  · exact ⟨d.power.vaonLost, rfl⟩

theorem Dev.restoreMirrors_cycles (d : Dev) : d.restoreMirrors.reg Reg.pwrCycles =
    if d.power.vaonLost then d.power.cyclesMirror else d.reg Reg.pwrCycles := by
  unfold Dev.restoreMirrors
  split
  · have hbills : ∀ e : Dev, (e.each allLinks fun d n => d.onBill n fun b => { b with unwatched := true }).reg Reg.pwrCycles =
        e.reg Reg.pwrCycles := fun e => (Dev.Keeps.each (l := [.lbill]) (fun _ _ _ => .onBill .rfl) .rfl).anyReg _
    rw [Dev.onSvc_reg, Dev.onPower_reg, hbills, Dev.onBilling_reg, Dev.onPacer_reg, Dev.setReg_reg, if_neg (by decide),
      Dev.setReg_reg, if_pos rfl]
  · rfl

theorem Dev.restoreMirrors_pacer (d : Dev) : d.restoreMirrors.pacer.paceOk = d.pacer.paceOk := by
  unfold Dev.restoreMirrors
  split
  · have hbills : ∀ e : Dev, (e.each allLinks fun d n => d.onBill n fun b => { b with unwatched := true }).pacer = e.pacer :=
      fun e => (Dev.Keeps.each (l := [.lbill]) (fun _ _ _ => .onBill .rfl) .rfl).pacer
    rw [Dev.onSvc_pacer, Dev.onPower_pacer, hbills]
    rfl
  · rfl

theorem Dev.cycleCounted_power (d : Dev) : ∃ b, d.cycleCounted.power = { d.power with vaonLost := b } := by
  obtain ⟨b, hb⟩ := d.activationCut.restoreMirrors_power
  exact ⟨b, by rw [← d.activationCut_keeps.power, ← hb]; rfl⟩

theorem Dev.cycleCounted_cycles (d : Dev) : d.cycleCounted.reg Reg.pwrCycles =
    satWord ((if d.power.vaonLost then d.power.cyclesMirror else d.reg Reg.pwrCycles).toNat + 1) := by
  have hreg : d.cycleCounted.reg Reg.pwrCycles =
      ((d.activationCut.restoreMirrors.count Reg.pwrCycles).setReg Reg.pwrWakeCause 0).reg Reg.pwrCycles := rfl
  rw [hreg, Dev.setReg_reg, if_neg (by decide), Dev.count_reg, if_pos rfl, Dev.restoreMirrors_cycles,
    d.activationCut_keeps.power, d.activationCut_keeps.reg_of (p := .rPwr) rfl]

theorem Dev.cycleCounted_wakeCause (d : Dev) : d.cycleCounted.reg Reg.pwrWakeCause = 0 := by
  have hreg : d.cycleCounted.reg Reg.pwrWakeCause =
      ((d.activationCut.restoreMirrors.count Reg.pwrCycles).setReg Reg.pwrWakeCause 0).reg Reg.pwrWakeCause := rfl
  rw [hreg, Dev.setReg_reg, if_pos rfl]

theorem Dev.cycleCounted_paceOk (d : Dev) : d.cycleCounted.pacer.paceOk = d.pacer.paceOk := by
  have hcounted : d.cycleCounted.pacer.paceOk = d.activationCut.restoreMirrors.pacer.paceOk := rfl
  rw [hcounted, Dev.restoreMirrors_pacer, d.activationCut_keeps.pacer]

theorem Dev.activationCut_record {d : Dev} (h : d.upd.record ≠ .swapping) : d.activationCut.upd.record ≠ .swapping := by
  unfold Dev.activationCut
  split_ifs
  · simp
  · simpa using h
  · exact h

theorem Dev.powered_record {d : Dev} (loaderOk : Bool) (h : d.upd.record ≠ .swapping) :
    (d.powered loaderOk).upd.record ≠ .swapping := by
  have hupd : d.cycleCounted.upd = d.activationCut.upd := d.activationCut.restoreMirrors_keeps.upd
  rw [Dev.powered, (Dev.armBoot_keeps _).upd, Dev.onPower_upd, hupd]
  exact Dev.activationCut_record h

/-- What holds of the modes as bring-up begins. -/
structure Dev.Waking (d : Dev) : Prop where
  mode : d.mode = .waking
  tempo : d.power.tempo = 0
  armed : d.prot.armed = true
  bootMap : d.prot.bootMap = true
  resetHeld : d.power.resetHeld = false
  porAsserted : d.power.porAsserted = false
  railLow : d.power.railLow = []

theorem Dev.powered_waking (d : Dev) (loaderOk : Bool) :
    (d.powered loaderOk).Waking ∧ (d.powered loaderOk).power.bringup = .waking ∧
      (d.powered loaderOk).power.testEn = d.power.testEn := by
  unfold Dev.powered
  generalize hx : (d.cycleCounted.onPower fun p =>
    { p with resetHeld := false, porAsserted := false, railLow := [], loaderOk := loaderOk }) = x
  have hpins : x.power.resetHeld = false ∧ x.power.porAsserted = false ∧ x.power.railLow = [] ∧ x.power.testEn = d.power.testEn := by
    obtain ⟨b, hb⟩ := d.cycleCounted_power
    rw [← hx, Dev.onPower_power, hb]
    exact ⟨rfl, rfl, rfl, rfl⟩
  obtain ⟨hmode, hbringup, htempo, harmed, hboot, -, hreset, hlow, hpor, -, htest⟩ := x.armBoot_waking
  obtain ⟨hpinReset, hpinPor, hpinLow, hpinTest⟩ := hpins
  exact ⟨⟨hmode, htempo, harmed, hboot, hreset.trans hpinReset, hpor.trans hpinPor, hlow.trans hpinLow⟩, hbringup, htest.trans hpinTest⟩

theorem Dev.powerOn_waking (d : Dev) (loaderOk : Bool) : (d.powerOn loaderOk).Waking := by
  obtain ⟨b, h⟩ := d.powerOn_cases loaderOk
  obtain ⟨⟨hmode, htempo, harmed, hboot, hreset, hpor, hlow⟩, -, -⟩ := d.powered_waking loaderOk
  rw [h]
  generalize d.powered loaderOk = x at *
  exact ⟨hmode, htempo, harmed, hboot, hreset, hpor, hlow⟩

theorem Dev.powered_reg (d : Dev) (loaderOk : Bool) {a : Nat} (ha : regPart a = .rPwr) :
    (d.powered loaderOk).reg a = d.cycleCounted.reg a := by
  rw [Dev.powered, Dev.armBoot_reg _ ha]
  rfl

theorem Dev.powerOn_reg (d : Dev) (loaderOk : Bool) {a : Nat} (ha : regPart a = .rPwr) :
    (d.powerOn loaderOk).reg a = d.cycleCounted.reg a := by
  obtain ⟨b, h⟩ := d.powerOn_cases loaderOk
  rw [h, Dev.onPower_reg, d.powered_reg loaderOk ha]

theorem Dev.powerOn_paceOk (d : Dev) (loaderOk : Bool) : (d.powerOn loaderOk).pacer.paceOk = d.pacer.paceOk := by
  obtain ⟨b, h⟩ := d.powerOn_cases loaderOk
  rw [h, Dev.onPower_pacer, Dev.powered, (Dev.armBoot_keeps _).pacer, Dev.onPower_pacer, Dev.cycleCounted_paceOk]

/-- A loader found bad asks for SAFE HALT for good (R56). -/
theorem Dev.armBoot_badLoader {d : Dev} (h : d.power.loaderOk = false) : d.armBoot.power.haltNow = true ∧
    d.armBoot.power.haltForGood = true ∧ d.armBoot.power.bringupFault = some .loaderBad := by
  unfold Dev.armBoot
  generalize hx : (d.onPower fun p => { p with
      mode := .waking, bringup := .waking, bringupAt := d.now, bringupLead := 0, bringupFault := none, tempo := 0, target := 0
      vcoreOff := false }).onProtection (fun p => { p with armed := true, bootMap := true, selftestOk := false }) = x
  obtain ⟨⟨a, b, hpower⟩, -, -⟩ := (Dev.imagePairs_mild x).trans (Dev.armPairs_mild _)
  have hbad : x.imagePairs.armPairs.power.loaderOk = false := by
    rw [hpower, ← hx]
    exact h
  simp [Dev.verifyLoader, hbad]

theorem Dev.powerOn_badLoader (d : Dev) : (d.powerOn false).power.haltNow = true ∧
    (d.powerOn false).power.haltForGood = true ∧ (d.powerOn false).power.bringupFault = some .loaderBad := by
  obtain ⟨b, h⟩ := d.powerOn_cases false
  have hbad : (d.powered false).power.haltNow = true ∧ (d.powered false).power.haltForGood = true ∧
      (d.powered false).power.bringupFault = some .loaderBad := by
    unfold Dev.powered
    exact Dev.armBoot_badLoader rfl
  rw [h]
  generalize d.powered false = x at *
  exact hbad

/-- The loss of the reference in WAKING asks for SAFE HALT. -/
theorem Dev.paceLoss_waking {d : Dev} (h : d.Waking) : d.paceLoss.mode = .waking ∧ d.paceLoss.pacer.paceOk = false ∧
    d.paceLoss.power.haltNow = true ∧ d.paceLoss.prot.siteLatch.isSome = true := by
  obtain ⟨hmode, -, harmed, -, hreset, -, -⟩ := h
  have heq : d.paceLoss = (((d.onPacer fun p => { p with paceOk := false }).onProtection fun p =>
      { p with paceOkSince := none }).raise .pac 0).deviceCause 0x30 0 := by
    simp [Dev.paceLoss, hmode, hreset]
  generalize hx : ((d.onPacer fun p => { p with paceOk := false }).onProtection fun p =>
      { p with paceOkSince := none }).raise .pac 0 = x at heq
  obtain ⟨hhalt, hlatch, -⟩ := x.deviceCause_site 0x30 0 [] 0 false (by decide) (by decide) (by simp [← hx, harmed])
  rw [heq]
  refine ⟨?_, ?_, hhalt, hlatch⟩
  · rw [(x.deviceCause_mild _ _ _ _ _).mode, ← hx]
    simpa using hmode
  · rw [Dev.deviceCause_pacer, ← hx]
    simp

/-- The release of POR_N with the rails in range, on the device with the pins taken. -/
def Dev.released (d : Dev) (testEn : Bool) : Dev :=
  (d.onPower fun p => { p with porAsserted := false, testEn := testEn }).onPacer fun p => { p with paceOk := true }

theorem Dev.porRelease_on {d : Dev} {testEn paceOk loaderOk : Bool} (hpor : d.power.porAsserted = true)
    (hrails : d.power.railLow = []) : d.porRelease testEn paceOk loaderOk =
      if paceOk then (d.released testEn).powerOn loaderOk else ((d.released testEn).powerOn loaderOk).paceLoss := by
  simp [Dev.porRelease, hpor, hrails, Dev.released]

theorem Dev.released_cycles (d : Dev) (testEn : Bool) : (d.released testEn).cycleCounted.reg Reg.pwrCycles =
    satWord ((if d.power.vaonLost then d.power.cyclesMirror else d.reg Reg.pwrCycles).toNat + 1) :=
  (d.released testEn).cycleCounted_cycles

/-! ### Step 4 -/

theorem Dev.openConnections_bootMap (d : Dev) : d.openConnections.prot.bootMap = d.prot.bootMap :=
  Dev.each_inv (P := fun e => e.prot.bootMap = d.prot.bootMap) rfl fun _ _ _ he => he

theorem Dev.sendPmb_powerOf (d : Dev) (op : PmbOp) : (d.sendPmb op).mode = d.mode ∧
    (d.sendPmb op).power.bringup = d.power.bringup ∧ (d.sendPmb op).power.tempo = d.power.tempo ∧
    (d.sendPmb op).power.waking = d.power.waking ∧ (d.sendPmb op).power.bringupFault = d.power.bringupFault := by
  unfold Dev.sendPmb
  split <;> exact ⟨rfl, rfl, rfl, rfl, rfl⟩

theorem Dev.recordHeld_held (d : Dev) : d.recordHeld.recorder.held = [] := by
  simp only [Dev.recordHeld]
  split
  · rfl
  · simp

/-- STARTING BLOCK before the image is read. -/
def Dev.blockEntered (d : Dev) : Dev :=
  (d.onPower fun p => { p with
    mode := if p.mode = .safeHalt then .safeHalt else .startingBlock, bringup := .starting
    tempo := max 1 p.tempo, target := max 1 p.target
    waking := none, wakeSent := if d.power.waking.isSome then some (wakeBits 0xFF 1) else p.wakeSent }).onProtection fun p =>
      { p with resets := p.resets.map fun r => { r with jammed := r.jammed || r.high } }

/-- What the outcome of the image's check leaves. -/
def Dev.imageJudged (d : Dev) : Dev :=
  if d.cfg.valid then (d.onProtection fun p => { p with bootMap := false }).openConnections.tpoCheck
  else (d.bringupFails .cfgInvalid (some 1)).resumeParts

theorem Dev.startingBlock_eq (d : Dev) : d.startingBlock =
    ((d.blockEntered.loadImage.takeBases.imageJudged.recordHeld.sendPmb .voutMode).onDisp fun x =>
      { x with state := .legend, frameAt := d.now }).onScroll fun x =>
        if d.blockEntered.loadImage.takeBases.imageJudged.bistable then x else legendContent x := rfl

theorem Dev.bringupFails_power (d : Dev) (f : BringupFault) (w : Option Nat) :
    (d.bringupFails f w).power = { d.power with bringupFault := some f } := by
  cases w <;> simp [Dev.bringupFails, Dev.lastWord]

theorem Dev.bringupFails_bit (d : Dev) (f : BringupFault) (w : Option Nat) : (d.bringupFails f w).bit Reg.pwrEvents 7 = true := by
  have hbit : ((d.onPower fun p => { p with bringupFault := some f }).raise .pwr 7).bit Reg.pwrEvents 7 = true :=
    Dev.raise_bit _ .pwr 0 none (by decide)
  cases w with
  | none => exact hbit
  | some a => rw [Dev.bit, Dev.bringupFails, (Dev.lastWord_keeps _ _ _).anyReg]; exact hbit

theorem Dev.bringupFails_regsBut (d : Dev) (f : BringupFault) : d.RegsBut (d.bringupFails f none) [Reg.pwrEvents] := by
  unfold Dev.bringupFails
  exact .raise (.onPower fun _ _ => rfl) (by simp [EvReg.addr])

theorem Dev.imageJudged_valid {d : Dev} (h : d.cfg.valid = true) : d.imageJudged.power = d.power ∧
    d.imageJudged.prot.bootMap = false := by
  rw [Dev.imageJudged, if_pos h, (Dev.tpoCheck_keeps _).power, (Dev.tpoCheck_keeps _).prot, (Dev.openConnections_keeps _).power,
    Dev.openConnections_bootMap]
  exact ⟨rfl, rfl⟩

theorem Dev.imageJudged_invalid {d : Dev} (h : d.cfg.valid = false) :
    d.imageJudged.power = { d.power with bringupFault := some .cfgInvalid } ∧
      d.imageJudged.bit Reg.pwrEvents 7 = true := by
  rw [Dev.imageJudged, if_neg (by simp [h]), (Dev.resumeParts_keeps _).power, Dev.bringupFails_power, Dev.bit,
    (Dev.resumeParts_keeps _).reg_of (p := .rPwr) rfl]
  exact ⟨rfl, Dev.bringupFails_bit _ _ _⟩

theorem Dev.imageJudged_cfg (d : Dev) : d.imageJudged.cfg = d.cfg := by
  unfold Dev.imageJudged
  split
  · rw [(Dev.tpoCheck_keeps _).cfg, (Dev.openConnections_keeps _).cfg]
    rfl
  · rw [(Dev.resumeParts_keeps _).cfg, (Dev.bringupFails_keeps _ _ _).cfg]

end Sys2Proof.Machine
end


section
/-! SUPPORT. Steps 6 to 8 of bring-up (R56). -/

namespace Sys2Proof.Machine

set_option Elab.async false

/-- Bring-up goes on after a power-on reset but with TEST_EN high or in the middle of a swap. -/
theorem Dev.powerOn_bringup {d : Dev} (loaderOk : Bool) (htest : d.power.testEn = false) (hrecord : d.upd.record ≠ .swapping) :
    (d.powerOn loaderOk).power.bringup = .waking := by
  obtain ⟨-, hbringup, htest'⟩ := d.powered_waking loaderOk
  rw [Dev.powerOn_eq, if_neg (by simp [htest', htest, Dev.powered_record loaderOk hrecord]), hbringup]

theorem Dev.powerOn_test {d : Dev} (loaderOk : Bool) (htest : d.power.testEn = true) :
    (d.powerOn loaderOk).power.bringup = .idle ∧ (d.powerOn loaderOk).power.testEn = true := by
  obtain ⟨-, -, htest'⟩ := d.powered_waking loaderOk
  rw [Dev.powerOn_eq, if_pos (.inl (by rw [htest', htest]))]
  generalize d.powered loaderOk = x at *
  exact ⟨rfl, htest'.trans htest⟩

/-- The device in STARTING BLOCK, its image judged and its held events recorded. -/
def Dev.blockJudged (d : Dev) : Dev := (d.blockEntered.loadImage.takeBases.imageJudged.recordHeld).sendPmb .voutMode

theorem Dev.startingBlock_shows (d : Dev) : ∃ g, d.startingBlock =
    (d.blockJudged.onDisp fun x => { x with state := .legend, frameAt := d.now }).onScroll g := ⟨_, d.startingBlock_eq⟩

theorem Dev.imageRead_power (d : Dev) : d.blockEntered.loadImage.takeBases.power = d.blockEntered.power := by
  rw [(Dev.takeBases_keeps _).power, (Dev.loadImage_keeps _).power]

theorem Dev.imageJudged_power (d : Dev) : ∃ f, d.imageJudged.power = { d.power with bringupFault := f } := by
  cases hvalid : d.cfg.valid
  · exact ⟨_, (Dev.imageJudged_invalid hvalid).1⟩
  · exact ⟨d.power.bringupFault, (Dev.imageJudged_valid hvalid).1⟩

theorem Dev.blockJudged_modes {d : Dev} (hmode : d.mode = .waking) : d.blockJudged.mode = .startingBlock ∧
    d.blockJudged.power.bringup = .starting ∧ d.blockJudged.power.tempo = max 1 d.power.tempo ∧
    d.blockJudged.power.waking = none := by
  obtain ⟨hm, hb, ht, hw, -⟩ := d.blockEntered.loadImage.takeBases.imageJudged.recordHeld.sendPmb_powerOf .voutMode
  obtain ⟨f, hf⟩ := d.blockEntered.loadImage.takeBases.imageJudged_power
  have hpower := (Dev.recordHeld_keeps d.blockEntered.loadImage.takeBases.imageJudged).power.trans hf
  rw [d.imageRead_power] at hpower
  have hfrom : d.power.mode = .waking := hmode
  refine ⟨hm.trans ?_, hb.trans ?_, ht.trans ?_, hw.trans ?_⟩
  · rw [Dev.mode, hpower]
    simp [Dev.blockEntered, hfrom]
  · rw [hpower]
    rfl
  · rw [hpower]
    rfl
  · rw [hpower]
    rfl

theorem Dev.blockJudged_held (d : Dev) : d.blockJudged.recorder.held = [] := by
  rw [Dev.blockJudged, (Dev.sendPmb_keeps _ _).recorder, Dev.recordHeld_held]

theorem Dev.blockJudged_cfg (d : Dev) : d.blockJudged.cfg = d.blockEntered.loadImage.takeBases.cfg := by
  rw [Dev.blockJudged, (Dev.sendPmb_keeps _ _).cfg, (Dev.recordHeld_keeps _).cfg, Dev.imageJudged_cfg]

theorem Dev.blockJudged_valid {d : Dev} (h : d.blockJudged.cfg.valid = true) : d.blockJudged.prot.bootMap = false := by
  rw [d.blockJudged_cfg] at h
  rw [Dev.blockJudged, (Dev.sendPmb_keeps _ _).prot, (Dev.recordHeld_keeps _).prot, (Dev.imageJudged_valid h).2]

theorem Dev.blockJudged_invalid {d : Dev} (h : d.blockJudged.cfg.valid = false) :
    d.blockJudged.power.bringupFault = some .cfgInvalid ∧ d.blockJudged.bit Reg.pwrEvents 7 = true := by
  rw [d.blockJudged_cfg] at h
  obtain ⟨hpower, hbit⟩ := Dev.imageJudged_invalid h
  obtain ⟨-, -, -, -, hf⟩ := d.blockEntered.loadImage.takeBases.imageJudged.recordHeld.sendPmb_powerOf .voutMode
  refine ⟨hf.trans (by rw [(Dev.recordHeld_keeps _).power, hpower]), ?_⟩
  rw [Dev.bit, Dev.blockJudged, (Dev.sendPmb_keeps _ _).anyReg, (Dev.recordHeld_keeps _).reg_of (p := .rPwr) rfl]
  exact hbit

/-- The device as its bring-up is done: the vault masked anew, what was interrupted closed, and the mode of R49 entered. -/
def Dev.bringupDone (d : Dev) : Dev :=
  d.remask.closeInterrupted.startSigning.onPower fun p => { p with
    bringup := .done, ecoSince := none
    mode := if p.mode = .safeHalt ∨ p.haltLatch then .safeHalt else .run
    haltEarly := decide (p.mode = .safeHalt) }

/-- The duration of bring-up noted, the versions of the heads judged and the budget set. -/
def Dev.bringupTimed (d : Dev) : Dev :=
  ((if d.bringupDone.mode = .run then
      d.bringupDone.setReg Reg.pwrBringupTime (BitVec.ofNat 32 ((d.now - d.power.bringupAt + d.power.bringupLead) / 1000))
    else d.bringupDone).holdVersions).setBudget

theorem Dev.bringupSigned_commits (d : Dev) : d.Commits d.remask.closeInterrupted.startSigning :=
  .via (.of_keeps (Dev.startSigning_keeps _)) (.via (Dev.closeInterrupted_commits _) (.of_keeps d.remask_keeps))

theorem Dev.bringupDone_mode {d : Dev} (hmode : d.mode = .startingBlock) :
    d.bringupDone.mode = if d.power.haltLatch then .safeHalt else .run := by
  have hsame := d.bringupSigned_commits
  have hsigned : d.remask.closeInterrupted.startSigning.power.mode = .startingBlock := hsame.mode.trans hmode
  simp [Dev.bringupDone, Dev.mode, hsigned, hsame.haltLatch]

theorem Dev.bringupDone_pwr (d : Dev) {a : Nat} (ha : regPart a = .rPwr) : d.bringupDone.reg a = d.reg a := by
  rw [Dev.bringupDone, Dev.onPower_reg, (Dev.startSigning_keeps _).reg_of ha, (Dev.closeInterrupted_keeps _).reg_of ha,
    (Dev.remask_keeps _).reg_of ha]

theorem Dev.bringupTimed_power (d : Dev) : d.bringupTimed.power = d.bringupDone.power := by
  rw [Dev.bringupTimed, (Dev.setBudget_keeps _).power, (Dev.holdVersions_keeps _).power]
  split <;> rfl

theorem Dev.bringupTimed_time (d : Dev) : d.bringupTimed.reg Reg.pwrBringupTime =
    if d.bringupDone.mode = .run then BitVec.ofNat 32 ((d.now - d.power.bringupAt + d.power.bringupLead) / 1000)
    else d.reg Reg.pwrBringupTime := by
  rw [Dev.bringupTimed, Dev.setBudget_reg, (Dev.holdVersions_keeps _).reg_of (p := .rPwr) rfl]
  split
  · rw [Dev.setReg_reg, if_pos rfl]
  · exact d.bringupDone_pwr rfl

theorem Dev.bringupTimed_mode (d : Dev) : d.bringupTimed.mode = d.bringupDone.mode := by
  rw [Dev.mode, d.bringupTimed_power, Dev.mode]

theorem Dev.enterRun_run {d : Dev} (h : d.bringupDone.mode = .run) :
    d.enterRun = d.bringupTimed.freeAll.updateAtRun.beginLap := by
  have hrun : d.bringupTimed.mode = .run := d.bringupTimed_mode.trans h
  have hfreed : d.bringupTimed.freeAll.updateAtRun.mode = .run := by
    rw [(Dev.updateAtRun_keeps _).mode, (Dev.freeAll_keeps _).mode, hrun]
  have hstage : (if d.bringupTimed.mode = .run then d.bringupTimed.freeAll.updateAtRun else d.bringupTimed) =
      d.bringupTimed.freeAll.updateAtRun := if_pos hrun
  calc d.enterRun
      = if (if d.bringupTimed.mode = .run then d.bringupTimed.freeAll.updateAtRun else d.bringupTimed).mode = .run then
          (if d.bringupTimed.mode = .run then d.bringupTimed.freeAll.updateAtRun else d.bringupTimed).beginLap
        else if d.bringupTimed.mode = .run then d.bringupTimed.freeAll.updateAtRun else d.bringupTimed := rfl
    _ = d.bringupTimed.freeAll.updateAtRun.beginLap := by rw [hstage, if_pos hfreed]

theorem Dev.enterRun_halted {d : Dev} (h : d.bringupDone.mode ≠ .run) : d.enterRun = d.bringupTimed := by
  have hmode : d.bringupTimed.mode ≠ .run := by rwa [d.bringupTimed_mode]
  calc d.enterRun
      = if (if d.bringupTimed.mode = .run then d.bringupTimed.freeAll.updateAtRun else d.bringupTimed).mode = .run then
          (if d.bringupTimed.mode = .run then d.bringupTimed.freeAll.updateAtRun else d.bringupTimed).beginLap
        else if d.bringupTimed.mode = .run then d.bringupTimed.freeAll.updateAtRun else d.bringupTimed := rfl
    _ = d.bringupTimed := by rw [if_neg hmode, if_neg hmode]

theorem Dev.beginLap_running (d : Dev) : d.beginLap.pacer.lapRunning = true := by
  unfold Dev.beginLap
  extract_lets d1 d2
  rw [Dev.onBilling_pacer, (Dev.Keeps.each (l := [.met, .lbill]) (fun e n _ => e.beginLapLink_keeps n) .rfl).pacer]
  rfl

theorem Dev.enterRun_power {d : Dev} : d.enterRun.power = d.bringupDone.power := by
  by_cases h : d.bringupDone.mode = .run
  · rw [Dev.enterRun_run h, (Dev.beginLap_keeps _).power, (Dev.updateAtRun_keeps _).power, (Dev.freeAll_keeps _).power,
      d.bringupTimed_power]
  · rw [Dev.enterRun_halted h, d.bringupTimed_power]

theorem Dev.enterRun_time {d : Dev} : d.enterRun.reg Reg.pwrBringupTime =
    if d.bringupDone.mode = .run then BitVec.ofNat 32 ((d.now - d.power.bringupAt + d.power.bringupLead) / 1000)
    else d.reg Reg.pwrBringupTime := by
  rw [← d.bringupTimed_time]
  by_cases h : d.bringupDone.mode = .run
  · rw [Dev.enterRun_run h, (Dev.beginLap_keeps _).reg_of (p := .rPwr) rfl, (Dev.updateAtRun_keeps _).reg_of (p := .rPwr) rfl,
      (Dev.freeAll_keeps _).anyReg]
  · rw [Dev.enterRun_halted h]

theorem Dev.enterRun_entered {d : Dev} (hmode : d.mode = .startingBlock) (hlatch : d.power.haltLatch = false) :
    d.enterRun.mode = .run ∧ d.enterRun.power.bringup = .done ∧ d.enterRun.pacer.lapRunning = true ∧
      d.enterRun.reg Reg.pwrBringupTime = BitVec.ofNat 32 ((d.now - d.power.bringupAt + d.power.bringupLead) / 1000) := by
  have hrun : d.bringupDone.mode = .run := by simp [Dev.bringupDone_mode hmode, hlatch]
  refine ⟨?_, ?_, ?_, ?_⟩
  · rw [Dev.mode, Dev.enterRun_power]
    exact hrun
  · rw [Dev.enterRun_power]
    rfl
  · rw [Dev.enterRun_run hrun, Dev.beginLap_running]
  · rw [Dev.enterRun_time, if_pos hrun]

theorem Dev.enterRun_latched {d : Dev} (hmode : d.mode = .startingBlock) (hlatch : d.power.haltLatch = true) :
    d.enterRun.mode = .safeHalt ∧ d.enterRun.power.bringup = .done ∧
      d.enterRun.reg Reg.pwrBringupTime = d.reg Reg.pwrBringupTime := by
  have hhalt : d.bringupDone.mode = .safeHalt := by simp [Dev.bringupDone_mode hmode, hlatch]
  refine ⟨?_, ?_, ?_⟩
  · rw [Dev.mode, Dev.enterRun_power]
    exact hhalt
  · rw [Dev.enterRun_power]
    rfl
  · rw [Dev.enterRun_time, if_neg (by simp [hhalt])]

/-- The condition of steps 6 to 8. -/
def Dev.runReady (d : Dev) : Prop :=
  d.power.bringup = .starting ∧ d.power.bringupFault = none ∧ d.mode = .startingBlock ∧ d.sec.rng ≠ .startup ∧
    d.sec.rng ≠ .restarting

theorem Dev.enterRunStep_ready {d : Dev} (h : d.runReady) (fwOk keysOk : Bool) (found : List ScrubFound) :
    d.enterRunStep fwOk keysOk found =
      if !fwOk then
        if d.upd.journal.isSome then d.retreat 2 else d.bringupFails .fwInvalid none
      else if !keysOk then (d.onSec fun s => { s with vaultOk := false }).bringupFails .keyFail (some 2)
      else ((d.onSec fun s => { s with vaultOk := true }).firstPass found).enterRun := by
  obtain ⟨hbringup, hfault, hmode, hstartup, hrestarting⟩ := h
  exact if_pos ⟨hbringup, by simp [hfault], .inl hmode, hstartup, hrestarting⟩

theorem Dev.enterRunStep_good {d : Dev} (h : d.runReady) (found : List ScrubFound) :
    d.enterRunStep true true found = ((d.onSec fun s => { s with vaultOk := true }).firstPass found).enterRun :=
  Dev.enterRunStep_ready h true true found

/-- The device after the first pass, firmware and keys good: what its modes and times were they are. -/
theorem Dev.passed_same (d : Dev) (found : List ScrubFound) :
    let e := (d.onSec fun s => { s with vaultOk := true }).firstPass found
    e.mode = d.mode ∧ e.power.haltLatch = d.power.haltLatch ∧ e.power.bringupAt = d.power.bringupAt ∧
      e.power.bringupLead = d.power.bringupLead ∧ e.now = d.now ∧
      e.reg Reg.pwrBringupTime = d.reg Reg.pwrBringupTime := by
  intro e
  obtain ⟨⟨h, x, hpower⟩, -, -⟩ := (d.onSec fun s => { s with vaultOk := true }).firstPass_mild found
  have hkeeps := (d.onSec fun s => { s with vaultOk := true }).firstPass_keeps found
  have heq : e.power = d.power.halting h x := hpower
  refine ⟨by rw [Dev.mode, heq]; rfl, by rw [heq]; rfl, by rw [heq]; rfl, by rw [heq]; rfl, hkeeps.now, ?_⟩
  exact hkeeps.reg_of (p := .rPwr) rfl

end Sys2Proof.Machine
end

section
/-! Bring-up. -/

namespace Sys2Proof.Machine

set_option Elab.async false

/-- Settles O15: the release is a power-on reset of the device with its pins taken; step 4 and steps 6 to 8 are followed
stage by stage. -/
theorem bringUp : Obligations.BringUp := by
  unfold Obligations.BringUp
  refine ⟨?release, ?test, ?badLoader, ?noReference, ?railLow, ?notAsserted, ?block, ?run, ?halted, ?badFirmware, ?badKeys,
    ?economy, ?supply⟩
  case release =>
    intro s hpor hrails hrecord
    have hexec := Dev.porRelease_on (testEn := false) (paceOk := true) (loaderOk := true) hpor hrails
    rw [if_pos rfl] at hexec
    obtain ⟨hmode, htempo, harmed, hboot, hreset, hpor', -⟩ := (s.dev.released false).powerOn_waking true
    have hbringup := Dev.powerOn_bringup (d := s.dev.released false) true rfl hrecord
    have hpace : ((s.dev.released false).powerOn true).pacer.paceOk = true := (s.dev.released false).powerOn_paceOk true
    have hcycles := ((s.dev.released false).powerOn_reg true (a := Reg.pwrCycles) rfl).trans (s.dev.released_cycles false)
    have hwhy := ((s.dev.released false).powerOn_reg true (a := Reg.pwrWakeCause) rfl).trans (Dev.cycleCounted_wakeCause _)
    generalize (s.dev.released false).powerOn true = y at *
    exact .of_eq (exec_porRelease _ _ _ s) hexec ⟨hmode, hbringup, hreset, hpor', htempo, harmed, hboot, hpace,
      by rw [Dev.settled_reg, hcycles], by rw [Dev.settled_reg, hwhy]⟩
  case test =>
    intro s hpor hrails
    have hexec := Dev.porRelease_on (testEn := true) (paceOk := true) (loaderOk := true) hpor hrails
    rw [if_pos rfl] at hexec
    obtain ⟨hmode, -, -, -, hreset, -, -⟩ := (s.dev.released true).powerOn_waking true
    obtain ⟨hbringup, htest⟩ := Dev.powerOn_test (d := s.dev.released true) true rfl
    generalize (s.dev.released true).powerOn true = y at *
    exact .of_eq (exec_porRelease _ _ _ s) hexec ⟨hmode, hbringup, htest, hreset⟩
  case badLoader =>
    intro s hpor hrails
    have hexec := Dev.porRelease_on (testEn := false) (paceOk := true) (loaderOk := false) hpor hrails
    rw [if_pos rfl] at hexec
    obtain ⟨hmode, -, -, -, -, -, -⟩ := (s.dev.released false).powerOn_waking false
    have hbad := (s.dev.released false).powerOn_badLoader
    generalize (s.dev.released false).powerOn false = y at *
    exact .of_eq (exec_porRelease _ _ _ s) hexec ⟨hmode, hbad⟩
  case noReference =>
    intro s hpor hrails
    have hexec := Dev.porRelease_on (testEn := false) (paceOk := false) (loaderOk := true) hpor hrails
    rw [if_neg Bool.false_ne_true] at hexec
    have hlost := Dev.paceLoss_waking ((s.dev.released false).powerOn_waking true)
    generalize ((s.dev.released false).powerOn true).paceLoss = y at *
    exact .of_eq (exec_porRelease _ _ _ s) hexec hlost
  case railLow =>
    intro s testEn paceOk loaderOk hpor hrails
    refine .of_eq (exec_porRelease _ _ _ s) (e := s.dev.onPower fun p => { p with porAsserted := false, testEn := testEn }) ?_
      ⟨rfl, .settled (.onPower .rfl)⟩
    simp [Dev.porRelease, hpor, hrails]
  case notAsserted =>
    intro s testEn paceOk loaderOk hpor
    exact .idle (exec_porRelease _ _ _ s) (by simp [Dev.porRelease, hpor])
  case block =>
    intro s hbringup hreset hmode hgood
    obtain ⟨g, hg⟩ := s.dev.startingBlock_shows
    obtain ⟨hm, hb, ht, hw⟩ := Dev.blockJudged_modes hmode
    have hheld := s.dev.blockJudged_held
    have hvalid := Dev.blockJudged_valid (d := s.dev)
    have hinvalid := Dev.blockJudged_invalid (d := s.dev)
    generalize s.dev.blockJudged = y at *
    refine .of_eq (exec_enterStartingBlock s)
      ((if_pos ⟨hbringup, by simp [hreset], .inl hmode, by simp [hgood]⟩).trans hg)
      ⟨hm, hb, ht, hw, rfl, hheld, hvalid, fun h => ⟨(hinvalid h).1, ?_⟩⟩
    rw [Dev.settled_bit]
    exact (hinvalid h).2
  case run =>
    intro s found hbringup hfault hmode hlatch _ hstartup hrestarting
    obtain ⟨hpmode, hplatch, hpat, hplead, hpnow, -⟩ := s.dev.passed_same found
    have hexec := Dev.enterRunStep_good ⟨hbringup, hfault, hmode, hstartup, hrestarting⟩ found
    obtain ⟨hmode', hdone, hlap, htime⟩ := Dev.enterRun_entered (hpmode.trans hmode) (hplatch.trans hlatch)
    rw [hpat, hplead, hpnow] at htime
    generalize ((s.dev.onSec fun s => { s with vaultOk := true }).firstPass found).enterRun = y at *
    exact .of_eq (exec_enterRun _ _ _ s) hexec ⟨hmode', hdone, hlap, by rw [Dev.settled_reg, htime]⟩
  case halted =>
    intro s found hbringup hfault hmode hlatch hstartup hrestarting
    obtain ⟨hpmode, hplatch, -, -, -, hptime⟩ := s.dev.passed_same found
    have hexec := Dev.enterRunStep_good ⟨hbringup, hfault, hmode, hstartup, hrestarting⟩ found
    obtain ⟨hmode', hdone, htime⟩ := Dev.enterRun_latched (hpmode.trans hmode) (hplatch.trans hlatch)
    rw [hptime] at htime
    generalize ((s.dev.onSec fun s => { s with vaultOk := true }).firstPass found).enterRun = y at *
    exact .of_eq (exec_enterRun _ _ _ s) hexec ⟨hmode', hdone, by rw [Dev.settled_reg, htime]⟩
  case badFirmware =>
    intro s keysOk found hbringup hfault hmode hjournal hstartup hrestarting
    refine .of_eq (e := s.dev.bringupFails .fwInvalid none) (exec_enterRun _ _ _ s) ?_ ⟨?_, ?_, ?_⟩
    · rw [Dev.enterRunStep_ready ⟨hbringup, hfault, hmode, hstartup, hrestarting⟩]
      simp [hjournal]
    · rw [Dev.settled_power, Dev.bringupFails_power]
    · rw [Dev.settled_bit, Dev.bringupFails_bit]
    · exact .settled (Dev.bringupFails_regsBut _ _)
  case badKeys =>
    intro s found hbringup hfault hmode hstartup hrestarting
    set x := s.dev.onSec fun s => { s with vaultOk := false }
    refine .of_eq (e := x.bringupFails .keyFail (some 2)) (exec_enterRun _ _ _ s)
      (Dev.enterRunStep_ready ⟨hbringup, hfault, hmode, hstartup, hrestarting⟩ _ _ _) ⟨?_, ?_, ?_, ?_, ?_⟩
    · rw [Dev.settled_mode, Dev.mode, Dev.bringupFails_power]
      exact hmode
    · rw [Dev.settled_power, Dev.bringupFails_power]
      exact hbringup
    · rw [Dev.settled_power, Dev.bringupFails_power]
    · rw [Dev.settled_sec, (Dev.bringupFails_keeps _ _ _).sec]
      rfl
    · rw [Dev.settled_bit, Dev.bringupFails_bit]
  case economy =>
    intro s hmode hset hheld hfew
    have hsecs : secs (60 * s.dev.field Reg.pwrTempoCfg 16 8) = 60000000 * s.dev.field Reg.pwrTempoCfg 16 8 :=
      (Nat.mul_assoc 1000000 60 _).symm
    refine .of_eq (exec_ecoDelayExpiry s) (if_pos ⟨hmode, hset, by rw [hsecs]; exact hheld, hfew⟩) ⟨rfl, ?_⟩
    exact .settled (.onPower fun _ _ => rfl)
  case supply =>
    intro s hpfail hheld hmode hreset
    refine .of_eq (exec_supplyDormantEntry s) (if_pos ⟨hpfail, hheld, hmode, by simp [hreset]⟩) ⟨rfl, ?_⟩
    exact .settled (.onPower fun _ _ => rfl)

end Sys2Proof.Machine
end


section
/-! SUPPORT. How a clause is refuted: what it claims of a device that the model evaluates. -/

namespace Sys2Proof.Machine

set_option Elab.async false

/-- What a clause claims holds of the device that the command leaves. -/
theorem Completes.claim {c : Instr} {s : State} {f : Dev → Dev} {P : Dev → Prop} (h : Completes c s P)
    (hc : exec c s = s.upd f) : P (f s.dev).settled := by
  obtain ⟨t, ht, -, -, hP⟩ := h
  rw [hc, State.upd, Host.Outcome.next.injEq] at ht
  rwa [← ht] at hP

/-- A site latch that lasts through a reset: LAP_OVERRUN under VCORE_MARGIN (R37, R67). -/
def lastingLatch : Latch :=
  { causes := [{ cause := { code := 0x32, source := 587, index := 0 }, cls := 3, gone := false }]
    primary := { code := 0x32, source := 587, index := 0 }, first := 0 }

/-- A device that enters DORMANT, its site tripped and the halt latch not set yet. -/
def trippedEntering : Dev :=
  { State.reset.dev with
    power := { State.reset.dev.power with mode := .dormant, entering := true, haltLatch := false }
    prot := { State.reset.dev.prot with siteLatch := some lastingLatch } }

theorem trippedEntering_haltLatch : trippedEntering.dormantEntryEnd.settled.power.haltLatch = true := rfl

end Sys2Proof.Machine
end

section
/-! The wake bus. -/

namespace Sys2Proof.Machine

set_option Elab.async false

/-- Refutes O16: the end of DORMANT entry does not always keep the halt latch. Where a cause that lasts through a reset stands in
the site latch, the reset of the core sets the halt latch although it was not set before. -/
theorem not_wakeBusRules : ¬ Obligations.WakeBusRules := by
  unfold Obligations.WakeBusRules
  rintro ⟨-, -, -, -, -, -, -, -, -, -, -, -, -, -, hend, -⟩
  have hclaim := (hend { State.reset with dev := trippedEntering } rfl rfl).claim (exec_dormantEntryEnd _)
  obtain ⟨-, -, -, -, -, hkept, -⟩ := hclaim
  have hset : trippedEntering.power.haltLatch = true := hkept.symm.trans trippedEntering_haltLatch
  exact absurd hset (by decide)

end Sys2Proof.Machine
end


section
/-! SUPPORT. A lap boundary (R30, R196): what carrying it out leaves of the Pacer, the modes and the registers, and that it is
not due again. -/

namespace Sys2Proof.Machine

set_option Elab.async false

/-! ### The end of a lap -/

/-- The links of a closing lap settled and recorded, before the number of the lap counts on. -/
def Dev.lapSettled (d : Dev) (activation : Bool) : Dev :=
  let d0 := applyIf d.planEnds (fun d => d.each d.usedLinks Dev.notePower) d
  let d1 := d0.each d0.usedLinks fun d n => ((d.closeSegment n).charge n).latchLap n
  let r := d1.reconcile
  r.1.each d.usedLinks fun d n => d.lapRecord n r.2 activation

theorem Dev.lapSettled_keeps (d : Dev) (activation : Bool) :
    d.Keeps (d.lapSettled activation) [.tenants, .bill, .recorder, .met, .lbill, .rBil, .rMet, .rTen] := by
  refine .each (fun e n _ => .via (e.lapRecord_keeps n _ _) .rfl rfl) (.via (Dev.reconcile_keeps _) (.each (fun e n _ => ?_)
    (.applyIf (fun e => .each (fun x n _ => .via (x.notePower_keeps n) .rfl rfl) .rfl) .rfl)) rfl)
  exact .via (Dev.latchLap_keeps _ n) (.via (Dev.charge_keeps _ n) (.via (e.closeSegment_keeps n) .rfl rfl) rfl) rfl

theorem Dev.notePower_usedLinks (d : Dev) :
    (applyIf d.planEnds (fun d => d.each d.usedLinks Dev.notePower) d).usedLinks = d.usedLinks :=
  (Dev.Keeps.applyIf (l := [.lbill]) (fun _ => .each (fun x n _ => x.notePower_keeps n) .rfl) .rfl).usedLinks

theorem Dev.closeLap_eq (d : Dev) (activation : Bool) : d.closeLap activation =
    (((d.lapSettled activation).setReg Reg.pacLapNum ((d.lapSettled activation).reg Reg.pacLapNum + 1)).onPacer fun p =>
      { p with lapRunning := false }).commitTotals := by
  simp only [Dev.closeLap, Dev.lapSettled, d.notePower_usedLinks]

theorem Dev.closeLap_pacer (d : Dev) (activation : Bool) :
    (d.closeLap activation).pacer = { d.pacer with lapRunning := false } := by
  rw [Dev.closeLap_eq, (Dev.commitTotals_keeps _).pacer, Dev.onPacer_pacer, Dev.setReg_pacer, (d.lapSettled_keeps _).pacer]

theorem Dev.closeLap_reg (d : Dev) (activation : Bool) {a : Nat} (ha : regPart a = .rPac) :
    (d.closeLap activation).reg a = if a = Reg.pacLapNum then d.reg Reg.pacLapNum + 1 else d.reg a := by
  rw [Dev.closeLap_eq, (Dev.commitTotals_keeps _).anyReg, Dev.onPacer_reg, Dev.setReg_reg,
    (d.lapSettled_keeps _).reg_of (a := Reg.pacLapNum) rfl, (d.lapSettled_keeps _).reg_of ha]

/-! ### The start of a lap -/

theorem Dev.beginLap_pacer (d : Dev) : d.beginLap.pacer = { d.pacer with
    lapRunning := true, lapStart := d.now, lapStartCal := if d.pacer.calSet then (d.pacer.atTick d.now).cal else 0
    lapStartSet := d.pacer.calSet, lapEndAt := none, lapAdjusted := false, lapStep := false, lapRecovered := false
    lapInterrupted := false, lapDormant := false, lapSeconds := 0, lastBoundary := some d.now } := by
  unfold Dev.beginLap
  extract_lets d1 d2
  rw [Dev.onBilling_pacer, (Dev.Keeps.each (l := [.met, .lbill]) (fun e n _ => e.beginLapLink_keeps n) .rfl).pacer]
  rfl

theorem Dev.beginLap_reg (d : Dev) (a : Nat) : d.beginLap.reg a =
    if a = Reg.pacLapStartHi then BitVec.ofNat 32 (d.now / 2 ^ 32)
    else if a = Reg.pacLapStartLo then BitVec.ofNat 32 d.now else d.reg a := by
  unfold Dev.beginLap
  extract_lets d1 d2
  rw [Dev.onBilling_reg, (Dev.Keeps.each (l := [.met, .lbill]) (fun e n _ => e.beginLapLink_keeps n) .rfl).anyReg]
  unfold d2
  rw [Dev.setReg_reg, Dev.setReg_reg]
  rfl

theorem Dev.beginLap_now (d : Dev) : d.beginLap.now = d.now := by
  rw [Dev.now, d.beginLap_pacer, Dev.now]

/-! ### A boundary carried out -/

theorem Pacer.atTick_tick (p : Pacer) (now : Tick) : (p.atTick now).tick = p.tick := by
  unfold Pacer.atTick Pacer.turnOver
  grind

/-- The lap closed at the boundary, and the period stepped where it ends with it. -/
def Dev.lapClosed (d : Dev) : Dev := (((d.onPacer fun p => p.atTick d.now).closeLap false).periodStep).mirror

theorem Dev.lapClosed_pacer (d : Dev) : d.lapClosed.pacer = { d.pacer.atTick d.now with lapRunning := false } := by
  rw [Dev.lapClosed, (Dev.mirror_keeps _).pacer, (Dev.periodStep_keeps _).pacer, Dev.closeLap_pacer, Dev.onPacer_pacer]

theorem Dev.lapClosed_now (d : Dev) : d.lapClosed.now = d.now := by
  rw [Dev.now, d.lapClosed_pacer]
  exact d.pacer.atTick_tick d.now

theorem Dev.crossLap_eq (d : Dev) : d.crossLap = d.lapClosed.beginLap := rfl

theorem Dev.crossLap_now (d : Dev) : d.crossLap.now = d.now := by
  rw [d.crossLap_eq, Dev.beginLap_now, d.lapClosed_now]

theorem Dev.crossLap_started (d : Dev) : d.crossLap.pacer.lapStart = d.now ∧ d.crossLap.pacer.lapRunning = true ∧
    d.crossLap.pacer.lastBoundary = some d.now := by
  rw [d.crossLap_eq, Dev.beginLap_pacer, d.lapClosed_now]
  exact ⟨rfl, rfl, rfl⟩

theorem Dev.crossLap_reg (d : Dev) {a : Nat} (ha : regPart a = .rPac) : d.crossLap.reg a =
    if a = Reg.pacLapStartHi then BitVec.ofNat 32 (d.now / 2 ^ 32)
    else if a = Reg.pacLapStartLo then BitVec.ofNat 32 d.now
    else if a = Reg.pacLapNum then d.reg Reg.pacLapNum + 1 else d.reg a := by
  rw [d.crossLap_eq, Dev.beginLap_reg, d.lapClosed_now, Dev.lapClosed, (Dev.mirror_keeps _).anyReg,
    (Dev.periodStep_keeps _).reg_of ha, Dev.closeLap_reg _ _ ha]
  rfl

theorem Dev.crossLap_commits (d : Dev) : d.Commits d.crossLap :=
  .via (.of_keeps (Dev.beginLap_keeps _)) (.via ⟨_, _, _, _, _, rfl⟩ (.via (.of_keeps (Dev.periodStep_keeps _))
    (.via (Dev.closeLap_commits _ _) (.of_keeps (d.onPacer_keeps _)))))

theorem Dev.lapFirst_of_not_due {d : Dev} (h : d.lapDue = false) : d.lapFirst = d := if_neg (by simp [h])

theorem Dev.lapFirst_of_due {d : Dev} (h : d.lapDue = true) : d.lapFirst = d.crossLap := if_pos h

theorem Dev.lapFirst_now (d : Dev) : d.lapFirst.now = d.now := by
  cases h : d.lapDue
  · rw [Dev.lapFirst_of_not_due h]
  · rw [Dev.lapFirst_of_due h, d.crossLap_now]

theorem Dev.lapFirst_commits (d : Dev) : d.Commits d.lapFirst := by
  cases h : d.lapDue
  · rw [Dev.lapFirst_of_not_due h]
    exact .rfl d
  · rw [Dev.lapFirst_of_due h]
    exact d.crossLap_commits

theorem Dev.atBoundary_start {d : Dev} (h : d.atBoundary = true) : d.pacer.lapStart < d.now := by
  have hstart : (d.pacer.atTick d.now).lapStart = d.pacer.lapStart := by
    unfold Pacer.atTick Pacer.turnOver
    grind
  simp only [Dev.atBoundary, Bool.and_eq_true, decide_eq_true_eq] at h
  rw [← hstart]
  exact h.1.2

/-- A boundary carried out in the open tick is not due in it again (R30). -/
theorem Dev.lapFirst_not_due (d : Dev) : d.lapFirst.lapDue = false := by
  cases h : d.lapDue
  · rwa [Dev.lapFirst_of_not_due h]
  · rw [Dev.lapFirst_of_due h, Dev.lapDue, Bool.and_eq_false_iff]
    right
    by_contra hb
    have hlt := Dev.atBoundary_start (Bool.not_eq_false _ ▸ hb)
    rw [d.crossLap_started.1, d.crossLap_now] at hlt
    exact Nat.lt_irrefl _ hlt

theorem Dev.lapFirst_lapFirst (d : Dev) : d.lapFirst.lapFirst = d.lapFirst := Dev.lapFirst_of_not_due d.lapFirst_not_due

/-- A command that sees the device only with the boundary carried out does on any state what it does on that state. -/
theorem exec_lapFirst {c : Instr} {f : Dev → Dev} (hc : ∀ s, exec c s = s.upd f)
    (hf : ∀ d e : Dev, d.lapFirst = e.lapFirst → f d = f e) (s : State) :
    exec c s = exec c { s with dev := s.dev.lapFirst } := by
  rw [hc, hc, State.upd, State.upd, hf s.dev s.dev.lapFirst s.dev.lapFirst_lapFirst.symm]

end Sys2Proof.Machine
end

section
/-! A lap boundary that is due. -/

namespace Sys2Proof.Machine

set_option Elab.async false

/-- Settles O28: each of the commands begins with `Dev.lapFirst`, which is the same done twice. -/
theorem dueLapFirst : Obligations.DueLapFirst := by
  unfold Obligations.DueLapFirst
  intro s n ch k t c hc
  refine ⟨?_, s.dev.lapFirst_not_due⟩
  simp only [List.mem_cons, List.not_mem_nil, or_false] at hc
  obtain rfl | rfl | rfl | rfl | rfl | rfl := hc
  · exact exec_lapFirst exec_lapBoundary (fun _ _ h => h) s
  · exact exec_lapFirst (exec_overcurrentDecision n ch) (fun _ _ h => by simp only [Dev.overcurrent, h]) s
  · exact exec_lapFirst (exec_senseOpen n) (fun _ _ h => by simp only [Dev.senseOpened, h]) s
  · exact exec_lapFirst (exec_tariffHoldExpiry t) (fun _ _ h => by simp only [h]) s
  · exact exec_lapFirst (exec_holdTakesEffect k) (fun _ _ h => by simp only [Dev.holdStep, h]) s
  · exact exec_lapFirst (exec_resumeTakesEffect k) (fun _ _ h => by simp only [Dev.resumeStep, h]) s

end Sys2Proof.Machine
end


section
/-! SUPPORT. The supply rules (R65, R70 to R74): what a warning, its recovery and a reset of the core leave. -/

namespace Sys2Proof.Machine

set_option Elab.async false

/-! ### The last-gasp commit -/

theorem Dev.commitTotals_at (d : Dev) : d.commitTotals.power.commitAt = d.now := by
  rw [Dev.commitTotals, Dev.onPower_power]

theorem Dev.lastGasp_commits (d : Dev) : d.Commits d.lastGasp :=
  .via (Dev.commitTotals_commits _) (.via ⟨_, _, _, _, _, rfl⟩ (.via (.of_power rfl) d.lapFirst_commits))

theorem Dev.lastGasp_at (d : Dev) : d.lastGasp.power.commitAt = d.now := by
  rw [Dev.lastGasp, Dev.commitTotals_at]
  exact d.lapFirst_now

theorem Dev.lastGasp_pwr (d : Dev) {a : Nat} (ha : regPart a = .rPwr) : d.lastGasp.reg a =
    if a = Reg.pwrCommitSeq then d.reg Reg.pwrCommitSeq + 1 else d.reg a := by
  rw [Dev.lastGasp, (Dev.commitTotals_keeps _).anyReg, (Dev.mirror_keeps _).anyReg, Dev.setReg_reg,
    d.lapFirst_keeps.reg_of ha, d.lapFirst_keeps.reg_of (a := Reg.pwrCommitSeq) rfl]

theorem Dev.lastGasp_regsBut {d : Dev} (h : d.lapDue = false) : d.RegsBut d.lastGasp [Reg.pwrCommitSeq] := by
  intro a ha
  rw [Dev.lastGasp, (Dev.commitTotals_keeps _).anyReg, (Dev.mirror_keeps _).anyReg, Dev.setReg_reg,
    if_neg (by simpa using ha), Dev.lapFirst_of_not_due h]

theorem Dev.lastGasp_tenants {d : Dev} (h : d.lapDue = false) : d.lastGasp.tenants = d.tenants := by
  rw [Dev.lastGasp, (Dev.commitTotals_keeps _).tenants, (Dev.mirror_keeps _).tenants, Dev.setReg_tenants,
    Dev.lapFirst_of_not_due h]

/-! ### A warning -/

/-- The power controller after the pin of a supply warning. -/
def Power.warnedBy (p : Power) (src : SupplySource) : Power :=
  match src with
  | .pfail => { p with pfail := true, pfailGone := none }
  | .vaonLow => { p with vaonLow := true }

/-- A supply warning shown: what its pin tells, and its event. -/
def Dev.warningShown (d : Dev) (src : SupplySource) : Dev :=
  (d.onPower fun p => p.warnedBy src).raise .pwr 3 (match src with | .pfail => 0 | .vaonLow => 1)

theorem Dev.warningShown_power (d : Dev) (src : SupplySource) : (d.warningShown src).power = d.power.warnedBy src := by
  simp [Dev.warningShown]

theorem Dev.warningShown_bit (d : Dev) (src : SupplySource) : (d.warningShown src).bit Reg.pwrEvents 3 = true :=
  Dev.raise_bit _ .pwr _ none (by decide)

theorem Dev.warningShown_regsBut (d : Dev) (src : SupplySource) : d.RegsBut (d.warningShown src) [Reg.pwrEvents] := by
  unfold Dev.warningShown
  exact .raise (.onPower fun _ _ => rfl) (by simp [EvReg.addr])

theorem Power.warnedBy_same (p : Power) (src : SupplySource) : (p.warnedBy src).mode = p.mode ∧
    (p.warnedBy src).brace = p.brace ∧ (p.warnedBy src).resetHeld = p.resetHeld ∧ (p.warnedBy src).entering = p.entering ∧
    (src = .pfail → (p.warnedBy src).pfail = true) ∧ (src = .vaonLow → (p.warnedBy src).vaonLow = true) := by
  cases src <;> simp [Power.warnedBy]

/-- A device braced, its count of the warning restarted (R70, R71). -/
def Dev.bracedNow (d : Dev) : Dev :=
  if d.power.brace then d.onPower fun p => { p with warnAt := some d.now } else d.braceUp

theorem Dev.braceUp_power (d : Dev) : d.braceUp.power = { d.power with brace := true, warnAt := some d.now } := rfl

theorem Dev.bracedNow_power (d : Dev) : d.bracedNow.power = { d.power with brace := true, warnAt := some d.now } := by
  unfold Dev.bracedNow
  split
  · next h => rw [Dev.onPower_power, ← h]
  · exact d.braceUp_power

theorem Dev.bracedNow_keeps (d : Dev) : d.Keeps d.bracedNow [.power, .alloc, .disp] :=
  .ite (fun _ => .onPower .rfl) fun _ => .via d.braceUp_keeps .rfl rfl

theorem Dev.supplyWarning_asleep {d : Dev} (src : SupplySource) (h : d.mode = .dormant ∨ d.power.resetHeld = true) :
    d.supplyWarning src = d.warningShown src := if_pos h

theorem Dev.supplyWarning_awake {d : Dev} (src : SupplySource) (hmode : d.mode ≠ .dormant) (hreset : d.power.resetHeld = false) :
    d.supplyWarning src = (d.warningShown src).bracedNow.lastGasp := by
  obtain ⟨-, hbrace, -⟩ := d.power.warnedBy_same src
  have hnow : (d.warningShown src).now = d.now := by simp [Dev.warningShown]
  have hshown : ∀ (a b : Dev → Dev), (if d.mode = .dormant ∨ d.power.resetHeld = true then d.warningShown src
      else if d.power.brace = true then a (d.warningShown src) else b (d.warningShown src)) =
        if d.power.brace = true then a (d.warningShown src) else b (d.warningShown src) := fun a b =>
    if_neg (by simp [hmode, hreset])
  refine (hshown (fun e => (e.onPower fun p => { p with warnAt := some d.now }).lastGasp) fun e => e.braceUp.lastGasp).trans ?_
  rw [Dev.bracedNow, d.warningShown_power, hbrace, hnow]
  split <;> rfl

theorem Dev.lapDue_congr {d e : Dev} (hpacer : e.pacer = d.pacer) (hlen : e.reg Reg.pacLapLen = d.reg Reg.pacLapLen)
    (hmode : e.mode = d.mode) (hreset : e.power.resetHeld = d.power.resetHeld) (hentering : e.power.entering = d.power.entering) :
    e.lapDue = d.lapDue := by
  unfold Dev.lapDue Dev.ticking Dev.atBoundary Dev.lapLen Dev.field Dev.now
  rw [hpacer, hlen, hmode, hreset, hentering]

theorem Dev.warned_lapDue (d : Dev) (src : SupplySource) : (d.warningShown src).bracedNow.lapDue = d.lapDue := by
  obtain ⟨hmode, -, hreset, hentering, -⟩ := d.power.warnedBy_same src
  have hpower : (d.warningShown src).bracedNow.power =
      { d.power.warnedBy src with brace := true, warnAt := some (d.warningShown src).now } := by
    rw [Dev.bracedNow_power, d.warningShown_power]
  refine Dev.lapDue_congr ?_ ?_ ?_ ?_ ?_
  · rw [(Dev.bracedNow_keeps _).pacer]
    simp [Dev.warningShown]
  · rw [(Dev.bracedNow_keeps _).anyReg, d.warningShown_regsBut src _ (by decide)]
  · rw [Dev.mode, hpower]
    exact hmode
  · rw [hpower]
    exact hreset
  · rw [hpower]
    exact hentering

/-! ### The recovery -/

theorem Dev.openSession_commits (d : Dev) (n : LinkId) (t : TenantId) (path : AuthPath) (hash : List Byte) (protocol : Nat)
    (late : Bool) : d.Commits (d.openSession n t path hash protocol late) :=
  (Dev.Commits.of_keeps (d.closeSegment_keeps n)).trans (.via (Dev.commitTotals_commits _) (.of_power rfl))

theorem Dev.startSession_commits (d : Dev) (n : LinkId) (c : HeldCredential) : d.Commits (d.startSession n c) := by
  unfold Dev.startSession
  extract_lets e d1 d2
  have h1 : d.Commits d1 := .via (.of_keeps (Dev.onVeh_keeps _ _ _)) (.via (Dev.openSession_commits _ _ _ _ _ _ _) d.lapFirst_commits)
  have h2 : d.Commits d2 := .via (.of_keeps (Dev.toState_keeps _ _ _)) h1
  refine .via (.of_keeps (Dev.refreshReq_keeps _ _)) (h2.trans (.of_power ?_))
  rw [Dev.countField_power, Dev.raise_power]

/-- A session of an outlet that waited for the supply. -/
def Dev.startWaiting (d : Dev) (n : LinkId) : Dev :=
  match (d.link n).veh.waitAuth with
  | some c => if (d.link n).veh.state = .authorizing then d.startSession n c else d
  | none => d

/-- An exchange that a supply warning paused goes on. -/
def Exchange.resumed (e : Exchange) (now : Tick) : Exchange :=
  if e.paused then
    { e with paused := false, step := min e.step 5, stepAt := now, segSent := false, segReady := false, condSince := none }
  else e

theorem Exchange.resumed_paused (e : Exchange) (now : Tick) : (e.resumed now).paused = false := by
  unfold Exchange.resumed
  split
  · rfl
  · next h => exact Bool.not_eq_true _ ▸ h

/-- The brace lifted, before the sessions that waited for it. -/
def Dev.braceLifted (d : Dev) : Dev :=
  let d0 := d.each (d.exchanges.filter fun e => e.paused && e.segSent) fun d e => d.dropSeg e.group
  let d1 := d0.onAlloc fun a => { a with slots := a.slots.map fun s => s.map fun e => e.resumed d.now }
  let d1 := (d1.raiseIf (d.bit Reg.lioDispCfg 31 && d.reg Reg.lioDirty != 0) .lio 3).onUpd fun u => { u with
    stepAt := if u.state = .activating ∧ u.step ≤ 3 then u.stepAt + (d.now - d.power.warnAt.getD d.now) else u.stepAt }
  (((d1.onPower fun p => { p with brace := false, warnAt := none, vaonLow := false }).onPacer
    fun p => { p with lapRecovered := p.lapRecovered || p.lapRunning }).raise .pwr 4)

theorem Dev.unbrace_eq (d : Dev) : ∃ ns, d.unbrace = d.braceLifted.each ns Dev.startWaiting := ⟨_, rfl⟩

/-- What the recovery brings and no session that starts after it takes away. -/
structure Dev.Unbraced (d : Dev) : Prop where
  brace : d.power.brace = false
  warnAt : d.power.warnAt = none
  vaonLow : d.power.vaonLow = false
  slots : ∀ x y, d.alloc.slots.get x = some y → y.paused = false
  event : d.bit Reg.pwrEvents 4 = true

theorem Dev.braceLifted_unbraced (d : Dev) : d.braceLifted.Unbraced := by
  refine ⟨by simp [Dev.braceLifted], by simp [Dev.braceLifted], by simp [Dev.braceLifted], fun x y hy => ?_,
    Dev.raise_bit _ .pwr _ none (by decide)⟩
  simp only [Dev.braceLifted, Dev.raise_alloc, Dev.onPacer_alloc, Dev.onPower_alloc, Dev.onUpd_alloc, Dev.raiseIf_alloc,
    Dev.onAlloc_alloc, Vector.get_eq_getElem, Vector.getElem_map] at hy
  obtain ⟨e, -, rfl⟩ := Option.map_eq_some_iff.mp hy
  exact e.resumed_paused d.now

theorem Dev.startSession_unbraced {d : Dev} (h : d.Unbraced) (n : LinkId) (c : HeldCredential) : (d.startSession n c).Unbraced := by
  obtain ⟨hbrace, hwarn, hlow, hslots, hevent⟩ := h
  obtain ⟨a, k, o, y, z, hpower⟩ := d.startSession_commits n c
  have hkeeps := d.startSession_keeps n c
  refine ⟨by rw [hpower]; exact hbrace, by rw [hpower]; exact hwarn, by rw [hpower]; exact hlow, ?_, ?_⟩
  · rw [hkeeps.alloc]
    exact hslots
  · rw [Dev.bit, hkeeps.reg_of (p := .rPwr) rfl]
    exact hevent

theorem Dev.unbrace_unbraced (d : Dev) : d.unbrace.Unbraced := by
  obtain ⟨ns, h⟩ := d.unbrace_eq
  rw [h]
  refine Dev.each_inv (P := Dev.Unbraced) d.braceLifted_unbraced fun e n _ he => ?_
  unfold Dev.startWaiting
  split
  · split
    · exact Dev.startSession_unbraced he _ _
    · exact he
  · exact he

/-! ### The reset of the core -/

theorem Dev.resetAll_held (d : Dev) : d.resetAll.mode = .waking ∧ d.resetAll.power.resetHeld = true ∧
    d.resetAll.prot.armed = false ∧ d.resetAll.tenants = d.tenants := by
  have htenants : ∀ w, (applyIf d.power.warnAt.isSome (fun d => d.lastWord 7 w) d).tenants = d.tenants := fun w =>
    (Dev.Keeps.applyIf (l := [.mem]) (fun e => e.lastWord_keeps 7 w) .rfl).tenants
  unfold Dev.resetAll
  extract_lets d0
  obtain ⟨hmode, harmed, hten⟩ := d0.coreReset_held true
  exact ⟨hmode, rfl, harmed, hten.trans (htenants _)⟩

end Sys2Proof.Machine
end


section
/-! The supply rules. -/

namespace Sys2Proof.Machine

set_option Elab.async false

/-- A warning of the supply outside reset and DORMANT. -/
theorem Dev.supplyWarning_shows {d : Dev} (src : SupplySource) (hmode : d.mode ≠ .dormant) (hreset : d.power.resetHeld = false) :
    let e := d.supplyWarning src
    e.power.brace = true ∧ e.power.warnAt = some d.now ∧ e.power.commitAt = d.now ∧ (src = .pfail → e.power.pfail = true) ∧
      (src = .vaonLow → e.power.vaonLow = true) ∧ e.mode = d.mode ∧ e.bit Reg.pwrEvents 3 = true ∧
      e.reg Reg.pwrCommitSeq = d.reg Reg.pwrCommitSeq + 1 ∧
      (d.lapDue = false → d.RegsBut e [Reg.pwrEvents, Reg.pwrCommitSeq]) := by
  intro e
  set x := (d.warningShown src).bracedNow with hx
  have he : e = x.lastGasp := Dev.supplyWarning_awake src hmode hreset
  have hnow : (d.warningShown src).now = d.now := by simp [Dev.warningShown]
  obtain ⟨hsame, -, -, -, hpfail, hlow⟩ := d.power.warnedBy_same src
  obtain ⟨a, c, o, y, z, hpower⟩ := x.lastGasp_commits
  rw [hx, Dev.bracedNow_power, d.warningShown_power, hnow, ← hx] at hpower
  have hreg : ∀ r, x.reg r = (d.warningShown src).reg r := fun r => (Dev.bracedNow_keeps _).anyReg r
  rw [he]
  refine ⟨by rw [hpower]; rfl, by rw [hpower]; rfl, ?_, fun h => by rw [hpower]; exact hpfail h,
    fun h => by rw [hpower]; exact hlow h, ?_, ?_, ?_, fun hdue => ?_⟩
  · rw [x.lastGasp_at, hx, (Dev.bracedNow_keeps _).now, hnow]
  · rw [Dev.mode, hpower]
    exact hsame
  · rw [Dev.bit, x.lastGasp_pwr rfl, if_neg (by decide), hreg]
    exact d.warningShown_bit src
  · rw [x.lastGasp_pwr rfl, if_pos rfl, hreg, d.warningShown_regsBut src _ (by decide)]
  · have hlast : x.RegsBut x.lastGasp [Reg.pwrCommitSeq] := Dev.lastGasp_regsBut (by rw [hx, Dev.warned_lapDue, hdue])
    intro r hr
    simp only [List.mem_cons, List.not_mem_nil, or_false, not_or] at hr
    rw [hlast r (by simpa using hr.2), hreg, d.warningShown_regsBut src r (by simpa using hr.1)]

/-- A rail reset of a running core. -/
theorem Dev.railReset_shows {d : Dev} (r : Rail) (hmode : d.mode ≠ .dormant) (hreset : d.power.resetHeld = false) :
    let e := d.railReset r
    e.power.resetHeld = true ∧ e.power.railLow = [r] ∧ e.mode = .waking ∧ e.prot.armed = false ∧
      (d.lapDue = false → e.tenants = d.tenants) := by
  intro e
  have he : e = (if r = .vmr then d else d.lastGasp).resetAll.onPower fun p => { p with railLow := [r] } := by
    simp [e, Dev.railReset, hmode, hreset]
  obtain ⟨hm, hr, ha, ht⟩ := (if r = .vmr then d else d.lastGasp).resetAll_held
  rw [he]
  generalize (if r = .vmr then d else d.lastGasp).resetAll = x at *
  refine ⟨hr, rfl, hm, ha, fun hdue => ht.trans ?_⟩
  split
  · rfl
  · exact Dev.lastGasp_tenants hdue

/-- Settles O18: a warning is pinned, braced and committed; the recovery lifts the brace before any session starts; the resets
of the core and their release are those of power-on. -/
theorem supplyRules : Obligations.SupplyRules := by
  unfold Obligations.SupplyRules
  refine ⟨?vcore, ?vcoreAsleep, ?warning, ?warningAsleep, ?recovery, ?noRecovery, ?rail, ?railHeld, ?railDormant, ?por, ?porHeld,
    ?porAgain, ?release, ?badLoader, ?releaseHeld, ?noRelease⟩
  case vcore =>
    intro s hmode hreset harmed
    have hexec : s.dev.vcoreLow = ((s.dev.onProtection fun p => { p with vcoreOkSince := some s.dev.now }).raise .pwr 0).deviceCause
        0x31 0 := if_neg (by simp [hmode, hreset])
    have hbit : ((s.dev.onProtection fun p => { p with vcoreOkSince := some s.dev.now }).raise .pwr 0).bit Reg.pwrEvents 0 = true :=
      Dev.raise_bit _ .pwr 0 none (by decide)
    have hsame : ((s.dev.onProtection fun p => { p with vcoreOkSince := some s.dev.now }).raise .pwr 0).mode = s.dev.mode := by
      simp
    have harm : ((s.dev.onProtection fun p => { p with vcoreOkSince := some s.dev.now }).raise .pwr 0).prot.armed = true := by
      simp [harmed]
    generalize (s.dev.onProtection fun p => { p with vcoreOkSince := some s.dev.now }).raise .pwr 0 = x at *
    obtain ⟨hhalt, hlatch, -⟩ := x.deviceCause_site 0x31 0 [] 0 false (by decide) (by decide) harm
    refine .of_eq (exec_vcoreLow s) hexec ⟨?_, hhalt, hlatch, ?_⟩
    · rw [Dev.settled_bit, x.deviceCause_bit 0x31 0 (p := .rPwr) rfl, hbit]
    · exact (x.deviceCause_mild _ _ _ _ _).mode.trans hsame
  case vcoreAsleep =>
    intro s h
    exact .idle (exec_vcoreLow s) (if_pos h)
  case warning =>
    intro s x hmode hreset
    obtain ⟨hbrace, hwarn, hat, hpfail, hlow, hm, hbit, hseq, hregs⟩ := Dev.supplyWarning_shows x hmode hreset
    refine .of_upd (exec_supplyWarning x s) ?_
    generalize s.dev.supplyWarning x = e at *
    exact ⟨hbrace, hwarn, hat, hpfail, hlow, hm, by rw [Dev.settled_bit, hbit], by rw [Dev.settled_reg, hseq],
      fun hdue => (hregs hdue).settled⟩
  case warningAsleep =>
    intro s x h
    refine .of_eq (exec_supplyWarning x s) (Dev.supplyWarning_asleep x h) ⟨?_, ?_, ?_, (s.dev.warningShown_regsBut x).settled⟩
    · rintro rfl
      exact s.dev.warningShown_power .pfail
    · rintro rfl
      exact s.dev.warningShown_power .vaonLow
    · rw [Dev.settled_bit, s.dev.warningShown_bit]
  case recovery =>
    intro s v hmode hbrace hpfail hheld hgone hsince
    obtain ⟨hb, hw, hl, hs, he⟩ := s.dev.unbrace_unbraced
    have hexec : s.dev.supplyRecovery v = s.dev.unbrace := if_pos ⟨hbrace, by simp [hpfail], hheld, hgone, hsince, hmode⟩
    generalize s.dev.unbrace = x at *
    exact .of_eq (exec_supplyRecovery v s) hexec ⟨hb, hw, hl, hs, by rw [Dev.settled_bit, he]⟩
  case noRecovery =>
    intro s v h
    refine .idle (exec_supplyRecovery v s) (if_neg ?_)
    rintro ⟨hbrace, hpfail, hheld, hgone, hsince, hmode⟩
    have hms : ms 10 = 10000 := rfl
    rw [hms] at hheld hgone hsince
    rw [Bool.not_eq_true'] at hpfail
    obtain h | h | h | h | h | h := h
    · rw [h] at hbrace
      cases hbrace
    · rw [hpfail] at h
      cases h
    · rw [h] at hheld
      cases hheld
    · exact absurd hgone (not_le.mpr h)
    · exact absurd hsince (not_le.mpr h)
    · exact hmode h
  case rail =>
    intro s r hmode hreset
    obtain ⟨hr, hlow, hm, ha, ht⟩ := Dev.railReset_shows r hmode hreset
    refine .of_upd (exec_railUndervoltageReset r s) ?_
    generalize s.dev.railReset r = e at *
    exact ⟨hr, hlow, hm, ha, ht⟩
  case railHeld =>
    intro s r hmode hreset
    refine .of_eq (exec_railUndervoltageReset r s) ((if_neg hmode).trans (if_pos hreset)) ⟨rfl, .settled (.onPower .rfl)⟩
  case railDormant =>
    intro s r hmode
    exact .idle (exec_railUndervoltageReset r s) (if_pos hmode)
  case por =>
    intro s hpor hreset
    obtain ⟨hm, hr, ha, ht⟩ := s.dev.resetAll_held
    have hexec : s.dev.porAssert = s.dev.resetAll.onPower fun p => { p with porAsserted := true } := by
      simp [Dev.porAssert, hpor, hreset]
    generalize s.dev.resetAll = x at *
    exact .of_eq (exec_porAssert s) hexec ⟨hr, rfl, hm, ha, ht⟩
  case porHeld =>
    intro s hpor hreset
    refine .of_eq (e := s.dev.onPower fun p => { p with porAsserted := true }) (exec_porAssert s) ?_ ⟨rfl, .settled (.onPower .rfl)⟩
    simp [Dev.porAssert, hpor, hreset]
  case porAgain =>
    intro s hpor
    exact .idle (exec_porAssert s) (if_pos hpor)
  case release =>
    intro s hreset hrails hpor htest hrecord
    have hexec : s.dev.railResetRelease true = (s.dev.onPower fun p => { p with railLow := [] }).powerOn true := by
      simp [Dev.railResetRelease, hreset, hrails, hpor]
    obtain ⟨hm, -, ha, hb, hr, -, hl⟩ := (s.dev.onPower fun p => { p with railLow := [] }).powerOn_waking true
    have hbringup := Dev.powerOn_bringup (d := s.dev.onPower fun p => { p with railLow := [] }) true htest hrecord
    have hcycles := ((s.dev.onPower fun p => { p with railLow := [] }).powerOn_reg true (a := Reg.pwrCycles) rfl).trans
      (Dev.cycleCounted_cycles _)
    generalize (s.dev.onPower fun p => { p with railLow := [] }).powerOn true = x at *
    exact .of_eq (exec_railResetRelease true s) hexec ⟨hm, hbringup, hr, hl, ha, hb, by rw [Dev.settled_reg, hcycles]; rfl⟩
  case badLoader =>
    intro s hreset hrails hpor
    have hexec : s.dev.railResetRelease false = (s.dev.onPower fun p => { p with railLow := [] }).powerOn false := by
      simp [Dev.railResetRelease, hreset, hrails, hpor]
    obtain ⟨hm, -, -, -, -, -, -⟩ := (s.dev.onPower fun p => { p with railLow := [] }).powerOn_waking false
    have hbad := (s.dev.onPower fun p => { p with railLow := [] }).powerOn_badLoader
    generalize (s.dev.onPower fun p => { p with railLow := [] }).powerOn false = x at *
    exact .of_eq (exec_railResetRelease false s) hexec ⟨hm, hbad⟩
  case releaseHeld =>
    intro s ok hreset hpor
    by_cases hrails : s.dev.power.railLow = []
    · refine .of_eq (e := s.dev) (exec_railResetRelease ok s) (by simp [Dev.railResetRelease, hrails]) ⟨?_, Dev.Keeps.rfl.settled⟩
      rw [Dev.settled_power, ← hrails]
    · refine .of_eq (e := s.dev.onPower fun p => { p with railLow := [] }) (exec_railResetRelease ok s) ?_ ⟨rfl, .settled (.onPower .rfl)⟩
      simp [Dev.railResetRelease, hreset, hrails, hpor]
  case noRelease =>
    intro s ok h
    refine .idle (exec_railResetRelease ok s) (if_neg ?_)
    rintro ⟨hreset, hrails⟩
    obtain h | h := h
    · rw [h] at hreset
      cases hreset
    · simp [h] at hrails

end Sys2Proof.Machine
end


section
/-! SUPPORT. The host port (R86 to R93, R103, R107): how a transaction of one word is carried out, and what its end leaves. -/

namespace Sys2Proof.Machine

set_option Elab.async false

/-! ### The transaction as a whole -/

theorem Dev.transact_barred {d : Dev} (shown : Dev) (t : Txn) (h : d.portServes = false) : d.transact shown t = d := by
  simp [Dev.transact, h]

/-- A transaction that the port serves, with no pair open. -/
theorem Dev.transact_served {d : Dev} (shown : Dev) {t : Txn} (hserves : d.portServes = true) (hpair : d.host.pair = none)
    (hmode : d.mode ≠ .waking ∨ t.opcode = 0x9F) (hknown : knownOpcode t.opcode = true) :
    d.transact shown t = d.goOn shown t := by
  have hcomplete : d.completes t = none := by simp [Dev.completes, hpair]
  have hbreak : d.breakPair t = (d, t) := by simp [Dev.breakPair, hpair]
  have hawake : ¬ (d.mode = .waking ∧ t.opcode ≠ 0x9F) := by
    rintro ⟨hw, ho⟩
    exact hmode.elim (fun h => h hw) ho
  simp only [Dev.transact, hserves, hcomplete, hbreak, hknown, if_neg hawake]
  rfl

/-- A transaction refused as a whole: in WAKING with cause 4, of an unlisted opcode with cause 3. -/
theorem Dev.transact_waking {d : Dev} (shown : Dev) {t : Txn} (hserves : d.portServes = true) (hpair : d.host.pair = none)
    (hmode : d.mode = .waking) (hop : t.opcode ≠ 0x9F) : d.transact shown t = d.refuseTxn t 4 := by
  have hcomplete : d.completes t = none := by simp [Dev.completes, hpair]
  have hbreak : d.breakPair t = (d, t) := by simp [Dev.breakPair, hpair]
  simp only [Dev.transact, hserves, hcomplete, hbreak, if_pos (And.intro hmode hop)]
  rfl

theorem Dev.transact_unlisted {d : Dev} (shown : Dev) {t : Txn} (hserves : d.portServes = true) (hpair : d.host.pair = none)
    (hmode : d.mode ≠ .waking) (hknown : knownOpcode t.opcode = false) : d.transact shown t = d.refuseTxn t 3 := by
  have hcomplete : d.completes t = none := by simp [Dev.completes, hpair]
  have hbreak : d.breakPair t = (d, t) := by simp [Dev.breakPair, hpair]
  have hawake : ¬ (d.mode = .waking ∧ t.opcode ≠ 0x9F) := fun h => hmode h.1
  simp only [Dev.transact, hserves, hcomplete, hbreak, hknown, if_neg hawake]
  rfl

/-- One word of a transaction that meets no stall: a write or a read. -/
def Dev.oneWord (d shown : Dev) (t : Txn) (x : Option Word) : Dev × Txn :=
  let u := t.waitsFor ((d.wordAt t.addr.toNat).bound t.addr.toNat)
  match x with
  | some w => d.writeWord shown u w
  | none => d.readWord shown u

theorem Dev.stallsHere_none {d : Dev} {t : Txn} (h : t.stall = none) : d.stallsHere t = none := by
  simp [Dev.stallsHere, h]

theorem Dev.serveWords_cons {d shown : Dev} {x : Option Word} {xs : List (Option Word)} {t : Txn} (hok : t.failed = false)
    (hstall : t.stall = none) (hhead : (d.oneWord shown t x).2.head = none) :
    d.serveWords shown (x :: xs) t = (d.oneWord shown t x).1.serveWords shown xs (d.oneWord shown t x).2 := by
  have hserve : d.serveWord shown (t.waitsFor ((d.wordAt t.addr.toNat).bound t.addr.toNat)) x = d.oneWord shown t x := by
    rw [Dev.serveWord.eq_def, Dev.stallsHere_none (by exact hstall)]
    cases x <;> rfl
  simp only [Dev.serveWords, hok, hserve, hhead]
  rfl

/-- The end of a transaction whose words are all served. -/
theorem Dev.goOn_ended {d shown e : Dev} {t u : Txn} (h : d.serveWords shown t.words t = (e, u)) (hhead : u.head = none) :
    d.goOn shown t = e.endTxn u := by
  simp [Dev.goOn, h, hhead]

theorem Dev.goOn_one {d e shown : Dev} {t u : Txn} {x : Option Word} (hwords : t.words = [x]) (hok : t.failed = false)
    (hstall : t.stall = none) (h : d.oneWord shown t x = (e, u)) (hhead : u.head = none) :
    d.goOn shown t = e.endTxn { u with words := [] } := by
  refine Dev.goOn_ended ?_ hhead
  rw [hwords, Dev.serveWords_cons hok hstall (by rw [h]; exact hhead), h]
  rfl

theorem Dev.goOn_two {d e f shown : Dev} {t u v : Txn} {x y : Option Word} (hwords : t.words = [x, y]) (hok : t.failed = false)
    (hstall : t.stall = none) (h : d.oneWord shown t x = (e, u)) (hhead : u.head = none) (hok' : u.failed = false)
    (hstall' : u.stall = none) (h' : e.oneWord shown u y = (f, v)) (hhead' : v.head = none) :
    d.goOn shown t = f.endTxn { v with words := [] } := by
  refine Dev.goOn_ended ?_ hhead'
  rw [hwords, Dev.serveWords_cons hok hstall (by rw [h]; exact hhead), h, Dev.serveWords_cons hok' hstall' (by rw [h']; exact hhead'), h']
  rfl

theorem Dev.goOn_none {d shown : Dev} {t : Txn} (hwords : t.words = []) (hhead : t.head = none) :
    d.goOn shown t = d.endTxn { t with words := [] } := by
  refine Dev.goOn_ended ?_ hhead
  rw [hwords]
  rfl

/-! ### The end of a transaction -/

theorem Dev.endTxn_regsBut (d : Dev) (t : Txn) : d.RegsBut (d.endTxn t) [Reg.hptTxnCnt, Reg.hptStallMax] := by
  intro a ha
  simp only [List.mem_cons, List.not_mem_nil, or_false, not_or] at ha
  exact d.endTxn_reg t a ha.1 ha.2

/-- What the end of a transaction leaves, where the words served left all registers but some. -/
theorem Completes.ended {c : Instr} {s : State} {f : Dev → Dev} {d : Dev} {t : Txn} {as : List Nat} (hc : exec c s = s.upd f)
    (hf : f s.dev = d.endTxn t) (hregs : s.dev.RegsBut d as) (hcnt : Reg.hptTxnCnt ∉ as) :
    Completes c s fun e =>
      e.host.outData = (if t.aborted then [] else t.out) ∧
      e.host.outErr = (t.failed && !t.aborted) ∧
      e.host.run = none ∧
      e.reg Reg.hptTxnCnt = s.dev.reg Reg.hptTxnCnt + 1 ∧
      s.dev.RegsBut e ([Reg.hptTxnCnt, Reg.hptStallMax] ++ as) ∧
      (e.host.errCause = d.host.errCause ∧ e.host.errAddr = d.host.errAddr) ∧
      ∀ a, a ≠ Reg.hptTxnCnt → a ≠ Reg.hptStallMax → e.reg a = d.reg a := by
  obtain ⟨hrun, -, hdata, herr, hcause, haddr⟩ := d.endTxn_port t
  refine .of_eq hc hf ⟨hdata, herr, hrun, ?_, ?_, ⟨hcause, haddr⟩, fun a h1 h2 => ?_⟩
  · rw [Dev.settled_reg, Dev.endTxn_count, hregs _ hcnt]
  · intro a ha
    simp only [List.mem_append, not_or] at ha
    rw [Dev.settled_reg, d.endTxn_regsBut t a ha.1, hregs a ha.2]
  · rw [Dev.settled_reg, d.endTxn_reg t a h1 h2]

/-! ### Reads -/

theorem Dev.readWord_reg {d shown : Dev} {t : Txn} {a : Nat} {r : RegDecl} (ha : t.addr.toNat = a) (hword : d.wordAt a = .reg r)
    (hkind : r.kind ≠ .vault) : d.readWord shown t =
      (let v := d.readReg shown a r
       let x := v.2.readPoison shown t a
       (x.1, x.2.next (some v.1))) := by
  simp only [Dev.readWord, ha, hword, if_neg hkind]

/-- A read without a capture: the value of the register, or 0 of one that is write-only. -/
theorem Dev.readReg_plain {d shown : Dev} {a : Nat} {r : RegDecl} (h : d.host.capture = none) :
    d.readReg shown a r = (if r.kind = .wo then 0 else d.readValue shown a, (d.captureWide shown a).rearm a) := by
  simp [Dev.readReg, h]

theorem Dev.rearm_reg (d : Dev) (a x : Nat) : (d.rearm a).reg x = d.reg x := by
  unfold Dev.rearm Dev.readViolCause Dev.readPoisonAddr
  split_ifs <;> rfl

theorem Dev.captureWide_reg (d shown : Dev) (a x : Nat) : (d.captureWide shown a).reg x = d.reg x := rfl

/-- A word that carries no poison: of the transaction at most the mark of a poisoned register changes. -/
theorem Dev.readPoison_clean {d shown : Dev} {t : Txn} {a : Nat} (h : shown.poisonWord a = none) :
    d.readPoison shown t a = (d, if shown.poisonAt a then t.meets 2 else t) := by
  simp [Dev.readPoison, h]

/-! ### The status of a transaction -/

theorem Txn.failed_meets (t : Txn) {b : Nat} (hb : b < 8) : (t.meets b).failed = (t.failed || b == 1) := by
  have hbit : ∀ b : Fin 8, (BitVec.ofNat 8 (2 ^ b.1)).getLsbD 1 = (b.1 == 1) := by decide
  simp only [Txn.meets, Txn.failed, BitVec.getLsbD_or]
  rw [hbit ⟨b, hb⟩]

@[simp] theorem Txn.failed_start (o : Byte) (a : Word) (ws : List (Option Word)) (n : Nat) (b : Bool) :
    (Txn.start o a ws n b).failed = false := by simp [Txn.start, Txn.failed]

@[simp] theorem Txn.failed_next (t : Txn) (v : Option Word) : (t.next v).failed = t.failed := rfl

@[simp] theorem Txn.failed_waitsFor (t : Txn) (us : Nat) : (t.waitsFor us).failed = t.failed := rfl

@[simp] theorem Txn.failed_served (t : Txn) (ws : List (Option Word)) : ({ t with words := ws } : Txn).failed = t.failed := rfl

/-- Of the marks of poison the status alone tells. -/
theorem Txn.poisonMark (t : Txn) (b : Bool) : let u := if b then t.meets 2 else t
    u.failed = t.failed ∧ u.out = t.out ∧ u.head = t.head ∧ u.aborted = t.aborted ∧ u.opcode = t.opcode ∧ u.addr = t.addr ∧
      u.stall = t.stall := by
  cases b
  · exact ⟨rfl, rfl, rfl, rfl, rfl, rfl, rfl⟩
  · exact ⟨by simp [Txn.failed_meets], rfl, rfl, rfl, rfl, rfl, rfl⟩

/-- The value that a plain read answers. -/
def Dev.readAnswer (d shown : Dev) (a : Nat) (r : RegDecl) : Word := if r.kind = .wo then 0 else d.readValue shown a

/-- A read of a register without poison: the value, no register changed, no error, no head awaited. -/
theorem Dev.oneWord_read {d shown : Dev} {t : Txn} {r : RegDecl} (hword : d.wordAt t.addr.toNat = .reg r) (hkind : r.kind ≠ .vault)
    (hcapture : d.host.capture = none) (hpoison : shown.poisonWord t.addr.toNat = none) :
    ∃ u : Txn, d.oneWord shown t none = ((d.captureWide shown t.addr.toNat).rearm t.addr.toNat, u) ∧ u.failed = t.failed ∧
      u.out = t.out ++ [d.readAnswer shown t.addr.toNat r] ∧ u.head = t.head ∧ u.aborted = t.aborted ∧ u.opcode = t.opcode ∧
      u.stall = t.stall ∧ u.addr = if t.opcode = 0x03 ∨ t.opcode = 0x0C then t.addr else t.addr + 4 := by
  set b := t.waitsFor ((d.wordAt t.addr.toNat).bound t.addr.toNat)
  obtain ⟨hf, ho, hh, ha, hop, had, hs⟩ := b.poisonMark (shown.poisonAt t.addr.toNat)
  refine ⟨(if shown.poisonAt t.addr.toNat then b.meets 2 else b).next (some (d.readAnswer shown t.addr.toNat r)), ?_, hf, ?_, hh, ha, hop, hs, ?_⟩
  · have hread : d.oneWord shown t none = d.readWord shown b := rfl
    rw [hread, Dev.readWord_reg (t := b) (a := t.addr.toNat) rfl hword hkind]
    simp only [Dev.readReg_plain hcapture]
    rw [Dev.readPoison_clean hpoison]
    rfl
  · exact congrArg (· ++ [d.readAnswer shown t.addr.toNat r]) ho
  · simp only [Txn.next, hop, had]
    rfl

theorem Dev.rearm_host (d : Dev) (a : Nat) : (d.rearm a).host.capture = d.host.capture := by
  unfold Dev.rearm Dev.readViolCause Dev.readPoisonAddr
  split_ifs <;> rfl

theorem Dev.rearm_locked (d : Dev) (a : Nat) : (d.rearm a).locked = d.locked := by
  unfold Dev.rearm Dev.readViolCause Dev.readPoisonAddr
  split_ifs <;> rfl

/-- What an address names depends on the registers that enable tenants and on the locks alone. -/
theorem Dev.wordAt_congr {d e : Dev} (hreg : ∀ x, e.reg x = d.reg x) (hlocked : e.locked = d.locked) (a : Nat) :
    e.wordAt a = d.wordAt a := by
  have hten : ∀ t, e.tenantEnabled t = d.tenantEnabled t := fun t => by
    simp only [Dev.tenantEnabled, Dev.bit, hreg, hlocked]
  simp only [Dev.wordAt, hten]

theorem Dev.readOn_wordAt (d shown : Dev) (a x : Nat) : ((d.captureWide shown a).rearm a).wordAt x = d.wordAt x :=
  Dev.wordAt_congr (fun y => ((d.captureWide shown a).rearm_reg a y).trans (d.captureWide_reg shown a y))
    ((d.captureWide shown a).rearm_locked a) x

theorem Dev.readOn_capture (d shown : Dev) {a : Nat} (h : wideFrom a = 0) :
    ((d.captureWide shown a).rearm a).host.capture = none := by
  rw [Dev.rearm_host, Dev.captureWide, Dev.onHost_host, if_pos h]

theorem Dev.readValue_shown (d shown : Dev) {a : Nat} (h : a ≠ Reg.hptLastStatus) : d.readValue shown a = shown.view a := if_neg h

/-- Poison consumed counts in one register. -/
theorem Dev.consumePoison_regsBut (d : Dev) (work : Bool) (word : Nat) : d.RegsBut (d.consumePoison work word) [Reg.memPoisonCnt] := by
  unfold Dev.consumePoison
  extract_lets d1
  have h1 : d.RegsBut d1 [Reg.memPoisonCnt] := .count (fun _ _ => rfl) (by simp)
  split
  · exact h1.onMem
  · exact h1

/-- A read of the word that a capture holds next (R86). -/
theorem Dev.oneWord_captured {d shown : Dev} {t : Txn} {r : RegDecl} {c : Capture} {w : Word} {rest : List Word}
    (hword : d.wordAt t.addr.toNat = .reg r) (hkind : r.kind ≠ .vault) (hcapture : d.host.capture = some c)
    (haddr : c.addr = t.addr.toNat) (hwords : c.words = w :: rest) :
    ∃ e u, d.oneWord shown t none = (e, u) ∧ d.RegsBut e [Reg.memPoisonCnt] ∧ u.failed = t.failed ∧ u.out = t.out ++ [w] ∧
      u.head = t.head ∧ u.aborted = t.aborted := by
  set b := t.waitsFor ((d.wordAt t.addr.toNat).bound t.addr.toNat)
  set x := d.onHost fun h => { h with capture := if rest.isEmpty then none else some { addr := t.addr.toNat + 4, words := rest } }
  have hread : d.oneWord shown t none =
      ((x.readPoison shown b t.addr.toNat).1, (x.readPoison shown b t.addr.toNat).2.next (some w)) := by
    have hword' : d.oneWord shown t none = d.readWord shown b := rfl
    have hreg : d.readReg shown t.addr.toNat r = (w, x) := by
      simp [Dev.readReg, hcapture, Capture.serve, hwords, haddr, x]
    rw [hword', Dev.readWord_reg (t := b) (a := t.addr.toNat) rfl hword hkind]
    simp only [hreg]
  rw [hread]
  cases hp : shown.poisonWord t.addr.toNat with
  | none =>
    rw [Dev.readPoison_clean hp]
    obtain ⟨hf, ho, hh, ha, -, -, -⟩ := b.poisonMark (shown.poisonAt t.addr.toNat)
    exact ⟨_, _, rfl, fun _ _ => rfl, hf, congrArg (· ++ [w]) ho, hh, ha⟩
  | some p =>
    obtain ⟨hf, ho, hh, ha, -, -, -⟩ := b.poisonMark true
    have hpoison : x.readPoison shown b t.addr.toNat = (x.consumePoison p.1 p.2, b.meets 2) := by simp [Dev.readPoison, hp]
    rw [hpoison]
    exact ⟨_, _, rfl, x.consumePoison_regsBut _ _, hf, congrArg (· ++ [w]) ho, hh, ha⟩

end Sys2Proof.Machine
end

section
/-! Reads of the host port. -/

namespace Sys2Proof.Machine

set_option Elab.async false

/-- Settles O19: a read answers the captured word or the register's value; its end counts it and drives what it answered. -/
theorem portReads : Obligations.PortReads := by
  unfold Obligations.PortReads
  refine ⟨?plain, ?captured, ?fixed, ?identity⟩
  case plain =>
    intro s a r hserves hpair hmode hword hkind hcapture hpoison
    set t := Txn.start 0x0B a [none] 0 false with ht
    obtain ⟨u, hu, hfailed, hout, hhead, haborted, -, -, -⟩ :=
      Dev.oneWord_read (shown := s.shown) (t := t) hword hkind hcapture hpoison
    have hgo : s.dev.transact s.shown t =
        ((s.dev.captureWide s.shown a.toNat).rearm a.toNat).endTxn { u with words := [] } := by
      rw [Dev.transact_served s.shown hserves hpair (.inl hmode) rfl, Dev.goOn_one rfl (Txn.failed_start _ _ _ _ _) rfl hu hhead]
      rfl
    refine (Completes.ended (as := []) (exec_readInc a 0 s) hgo (fun x _ => Dev.rearm_reg _ _ x) (by simp)).imp ?_
    rintro e ⟨hdata, herr, hrun, hcount, hregs, -⟩
    refine ⟨?_, ?_, hrun, hcount, by simpa using hregs⟩
    · simpa [haborted, hout, ht, Txn.start, Dev.readAnswer] using hdata
    · simpa [hfailed, ht] using herr
  case captured =>
    intro s a r c w rest hserves hpair hmode hword hkind hcapture haddr hwords
    set t := Txn.start 0x0B a [none] 0 false with ht
    obtain ⟨d, u, hu, hregs, hfailed, hout, hhead, haborted⟩ :=
      Dev.oneWord_captured (shown := s.shown) (t := t) hword hkind hcapture haddr hwords
    have hgo : s.dev.transact s.shown t = d.endTxn { u with words := [] } := by
      rw [Dev.transact_served s.shown hserves hpair (.inl hmode) rfl,
        Dev.goOn_one rfl (Txn.failed_start _ _ _ _ _) rfl hu hhead]
    refine (Completes.ended (as := [Reg.memPoisonCnt]) (exec_readInc a 0 s) hgo hregs (by decide)).imp ?_
    rintro e ⟨hdata, herr, -, hcount, -, -⟩
    refine ⟨?_, ?_, hcount⟩
    · simpa [haborted, hout, ht, Txn.start] using hdata
    · simpa [hfailed, ht] using herr
  case fixed =>
    intro s a r hserves hpair hmode hword hkind hcapture hwide hblock hpoison
    set t := Txn.start 0x0C a [none, none] 1 false with ht
    set d := (s.dev.captureWide s.shown a.toNat).rearm a.toNat with hd
    obtain ⟨u, hu, hfailed, hout, hhead, haborted, hop, hstall, haddr⟩ :=
      Dev.oneWord_read (shown := s.shown) (t := t) hword hkind hcapture hpoison
    have haddr' : u.addr = a := by simpa [ht, Txn.start] using haddr
    obtain ⟨v, hv, hfailed', hout', hhead', haborted', -, -, -⟩ := Dev.oneWord_read (d := d) (shown := s.shown) (t := u) (r := r)
      (by rw [haddr', hd, Dev.readOn_wordAt, hword]) hkind (by rw [hd]; exact s.dev.readOn_capture s.shown hwide)
      (by rw [haddr', hpoison])
    have hgo : s.dev.transact s.shown t = ((d.captureWide s.shown u.addr.toNat).rearm u.addr.toNat).endTxn { v with words := [] } := by
      rw [Dev.transact_served s.shown hserves hpair (.inl hmode) rfl, Dev.goOn_two rfl (Txn.failed_start _ _ _ _ _)
        rfl hu hhead (hfailed.trans (Txn.failed_start _ _ _ _ _)) hstall hv (hhead'.trans hhead)]
    have hanswer : d.readAnswer s.shown u.addr.toNat r = s.dev.readAnswer s.shown a.toNat r := by
      rw [haddr', Dev.readAnswer, Dev.readAnswer, Dev.readValue_shown, Dev.readValue_shown]
      · rintro h
        exact hblock (by rw [h]; decide)
      · rintro h
        exact hblock (by rw [h]; decide)
    refine (Completes.ended (as := []) (exec_readFix a 1 s) hgo (fun x _ => ?_) (by simp)).imp ?_
    · rw [Dev.rearm_reg, Dev.captureWide_reg, hd, Dev.rearm_reg, Dev.captureWide_reg]
    rintro e ⟨hdata, herr, hrun, hcount, hregs, -⟩
    refine ⟨?_, ?_, hrun, hcount, by simpa using hregs⟩
    · rw [hout', hout, hanswer, haborted', haborted] at hdata
      exact hdata
    · simpa [hfailed, hfailed', ht] using herr
  case identity =>
    intro s hserves hpair hcapture hpoison
    set t := Txn.start 0x9F 0 [none] 0 false with ht
    have hrow : ∃ r, regRow 0 = some r ∧ r.kind = .ro := ⟨_, rfl, rfl⟩
    obtain ⟨r, hr, hkind⟩ := hrow
    have hword : s.dev.wordAt t.addr.toNat = .reg r := by
      have haddr : t.addr.toNat = 0 := rfl
      simp [haddr, Dev.wordAt, hr]
    obtain ⟨u, hu, hfailed, hout, hhead, haborted, -, -, -⟩ :=
      Dev.oneWord_read (shown := s.shown) (t := t) hword (by simp [hkind]) hcapture hpoison
    have hgo : s.dev.transact s.shown t =
        ((s.dev.captureWide s.shown t.addr.toNat).rearm t.addr.toNat).endTxn { u with words := [] } := by
      rw [Dev.transact_served s.shown hserves hpair (.inr rfl) rfl,
        Dev.goOn_one rfl (Txn.failed_start _ _ _ _ _) rfl hu hhead]
    have hanswer : s.dev.readAnswer s.shown t.addr.toNat r = s.shown.view 0 := by
      rw [Dev.readAnswer, if_neg (by simp [hkind]), Dev.readValue_shown]
      · rfl
      · exact (by decide : (0 : Nat) ≠ Reg.hptLastStatus)
    refine (Completes.ended (as := []) (exec_readId s) hgo (fun x _ => Dev.rearm_reg _ _ x) (by simp)).imp ?_
    rintro e ⟨hdata, herr, hrun, hcount, hregs, -⟩
    refine ⟨?_, ?_, hrun, hcount, by simpa using hregs⟩
    · rw [hout, hanswer, haborted] at hdata
      exact hdata
    · simpa [hfailed, ht] using herr

end Sys2Proof.Machine
end


section
/-! SUPPORT. Words written through the host port (R90 to R93): a plain register, a violation, an address that holds none. -/

namespace Sys2Proof.Machine

set_option Elab.async false

/-- The device as a word is written: what a wide read captured is over. -/
def Dev.captureOver (d : Dev) : Dev := d.onHost fun h => { h with capture := none }

/-- The transaction as its next word is served: how long it may wait. -/
def Dev.waiting (d : Dev) (t : Txn) : Txn := t.waitsFor ((d.wordAt t.addr.toNat).bound t.addr.toNat)

/-- What a transaction keeps through the service of a word that it drives nothing for. -/
structure Txn.Goes (t u : Txn) (failed : Bool) (out : List Word) : Prop where
  failed : u.failed = failed
  out : u.out = out
  head : u.head = t.head
  aborted : u.aborted = t.aborted
  opcode : u.opcode = t.opcode
  stall : u.stall = t.stall
  addr : u.addr = if t.opcode = 0x03 ∨ t.opcode = 0x0C then t.addr else t.addr + 4

theorem Dev.waiting_next (d : Dev) (t : Txn) (v : Option Word) :
    t.Goes ((d.waiting t).next v) t.failed (match v with | some w => t.out ++ [w] | none => t.out) :=
  ⟨rfl, by cases v <;> rfl, rfl, rfl, rfl, rfl, rfl⟩

theorem Dev.waiting_meets (d : Dev) (t : Txn) {b : Nat} (hb : b < 8) (v : Option Word) :
    t.Goes (((d.waiting t).meets b).next v) (t.failed || b == 1) (match v with | some w => t.out ++ [w] | none => t.out) :=
  ⟨(d.waiting t).failed_meets hb, by cases v <;> rfl, rfl, rfl, rfl, rfl, rfl⟩

theorem Txn.Goes.cast {t u : Txn} {failed failed' : Bool} {out out' : List Word} (h : t.Goes u failed out)
    (hf : failed = failed') (ho : out = out') : t.Goes u failed' out' := hf ▸ ho ▸ h

theorem Dev.captureOver_wordAt (d : Dev) (a : Nat) : d.captureOver.wordAt a = d.wordAt a :=
  Dev.wordAt_congr (fun x => d.onHost_reg _ x) (d.onHost_locked _) a

section
variable {d shown : Dev} {t : Txn} {a : Nat} {w : Word} {r : RegDecl} (ha : t.addr.toNat = a)
include ha

/-- A word at a register that no violation bars and that opens no pair. -/
theorem Dev.oneWord_taken (hword : d.wordAt a = .reg r) (hbar : d.writeViolation a w r = none) (hopens : r.opens w = false) :
    d.oneWord shown t (some w) = (d.captureOver.takeWord shown a w r, (d.waiting t).next none) := by
  have hword' : d.captureOver.wordAt a = .reg r := by rw [d.captureOver_wordAt, hword]
  have hbar' : d.captureOver.writeViolation a w r = none := hbar
  have hwait : (d.waiting t).addr.toNat = a := ha
  have hone : d.oneWord shown t (some w) = d.writeWord shown (d.waiting t) w := rfl
  simp only [hone, Dev.writeWord, hwait]
  simp only [Dev.captureOver] at hword' hbar'
  simp only [hword', hbar', hopens]
  rfl

/-- A word at a register that a rule of access bars. -/
theorem Dev.oneWord_violates {c : Nat} (hword : d.wordAt a = .reg r) (hbar : d.writeViolation a w r = some c)
    (hopens : r.opens w = false) : d.oneWord shown t (some w) =
      (d.captureOver.violation t.addr c true, ((d.waiting t).meets 4).next none) := by
  have hword' : d.captureOver.wordAt a = .reg r := by rw [d.captureOver_wordAt, hword]
  have hbar' : d.captureOver.writeViolation a w r = some c := hbar
  have hwait : (d.waiting t).addr.toNat = a := ha
  have hone : d.oneWord shown t (some w) = d.writeWord shown (d.waiting t) w := rfl
  simp only [hone, Dev.writeWord, hwait]
  simp only [Dev.captureOver] at hword' hbar'
  simp only [hword', hbar', hopens]
  rfl

/-- A word in the page of a tenant that is not enabled. -/
theorem Dev.oneWord_barred (hword : d.wordAt a = .barred) (hrow : regRow a = some r) (hopens : r.opens w = false) :
    d.oneWord shown t (some w) = (d.captureOver.violation t.addr 1 true, ((d.waiting t).meets 4).next none) := by
  have hword' : d.captureOver.wordAt a = .barred := by rw [d.captureOver_wordAt, hword]
  have hwait : (d.waiting t).addr.toNat = a := ha
  have hone : d.oneWord shown t (some w) = d.writeWord shown (d.waiting t) w := rfl
  simp only [hone, Dev.writeWord, hwait]
  simp only [Dev.captureOver] at hword'
  simp only [hword', hrow, hopens]
  rfl

/-- A word written into the ledger window. -/
theorem Dev.oneWord_ledger (hword : d.wordAt a = .ledger) :
    d.oneWord shown t (some w) = (d.captureOver, (d.waiting t).next none) := by
  have hword' : d.captureOver.wordAt a = .ledger := by rw [d.captureOver_wordAt, hword]
  have hwait : (d.waiting t).addr.toNat = a := ha
  have hone : d.oneWord shown t (some w) = d.writeWord shown (d.waiting t) w := rfl
  simp only [hone, Dev.writeWord, hwait]
  simp only [Dev.captureOver] at hword'
  simp only [hword']
  rfl

/-- A word read or written at an address that holds none. -/
theorem Dev.oneWord_nowhere (x : Option Word) (hword : d.wordAt a = .misaligned ∨ d.wordAt a = .reserved) :
    ∃ cause, d.oneWord shown t x = ((d.captureOver.busError (d.waiting t) cause 0).1,
      ((d.waiting t).meets 1).next (if x.isSome then none else some 0)) := by
  have hwait : (d.waiting t).addr.toNat = a := ha
  cases x with
  | some w =>
    have hone : d.oneWord shown t (some w) = d.writeWord shown (d.waiting t) w := rfl
    obtain hword | hword := hword <;>
    · have hword' := (d.captureOver_wordAt a).trans hword
      simp only [Dev.captureOver] at hword'
      simp only [hone, Dev.writeWord, hwait, hword']
      exact ⟨_, rfl⟩
  | none =>
    have hone : d.oneWord shown t none = d.readWord shown (d.waiting t) := rfl
    obtain hword | hword := hword <;>
    · simp only [hone, Dev.readWord, hwait, hword]
      exact ⟨_, rfl⟩

/-- A read that a rule of access forbids: a page that is barred, or a vault word. -/
theorem Dev.oneWord_forbidden (hword : d.wordAt a = .barred ∨ ∃ r, d.wordAt a = .reg r ∧ r.kind = .vault) :
    ∃ cause, d.oneWord shown t none =
      (d.captureOver.violation t.addr cause false, ((d.waiting t).meets 4).next (some 0)) := by
  have hwait : (d.waiting t).addr.toNat = a := ha
  have hone : d.oneWord shown t none = d.readWord shown (d.waiting t) := rfl
  obtain hword | ⟨r, hword, hkind⟩ := hword
  · simp only [hone, Dev.readWord, hwait, hword]
    exact ⟨_, rfl⟩
  · simp only [hone, Dev.readWord, hwait, hword, if_pos hkind]
    exact ⟨_, rfl⟩

end

/-! ### A register that takes what is written -/

/-- A read/write register of the device's own block without a rule of its own. -/
structure Dev.PlainAt (d : Dev) (a : Nat) : Prop where
  own : a < 0x1000000
  rule : a ∉ [Reg.hptStallMax, Reg.secWaitMax, Reg.alcHostLimit]
  mailbox : ¬(Reg.tagSvcMbxData 0 ≤ a ∧ a < Reg.tagSvcMbxData 64)
  free : d.busyBuffer a = false

theorem Dev.takeWord_plain {d shown : Dev} {a : Nat} {w : Word} {r : RegDecl} (h : d.PlainAt a) (hkind : r.kind = .rw) :
    d.takeWord shown a w r = (d.plainWrite a w r).unpoison a := by
  obtain ⟨hown, hrule, hmailbox, hfree⟩ := h
  simp only [List.mem_cons, List.not_mem_nil, or_false, not_or] at hrule
  obtain ⟨hstall, hwait, hlimit⟩ := hrule
  have hstays : d.rwIgnored a w = false := by
    rw [Dev.rwIgnored, if_neg (by simp [hstall, hwait]), if_neg hmailbox, hfree]
  have hwrite : d.writeRw a w r = d.plainWrite a w r := by
    simp only [Dev.writeRw, if_neg hstall, if_neg hwait, if_neg hlimit, if_neg hmailbox]
    exact if_neg fun h => absurd h.1 (not_le.mpr hown)
  simp [Dev.takeWord, hkind, hstays, hwrite]

theorem Dev.plainTaken_reg (d : Dev) (a : Nat) (w : Word) (r : RegDecl) (x : Nat) :
    ((d.plainWrite a w r).unpoison a).reg x = if x = a then r.taken w else d.reg x := by
  rw [Dev.unpoison_reg, Dev.plainWrite, Dev.unpoison_reg, Dev.setReg_reg]

theorem Dev.wordAt_own (d e : Dev) {a : Nat} (h : a < 0x1000000) : e.wordAt a = d.wordAt a := by
  have hten : ¬(0x4000000 ≤ a ∧ a < 0x4400000) := fun h' => by omega
  simp only [Dev.wordAt, if_neg hten]

theorem Dev.writeViolation_congr {d e : Dev} {a : Nat} {w : Word} {r : RegDecl} (hkind : r.kind = .rw) (ha : a ≠ Reg.secCmd)
    (hmode : e.mode = d.mode) : e.writeViolation a w r = d.writeViolation a w r := by
  simp only [Dev.writeViolation, hkind, ha, Dev.loadServed, hmode]
  simp

theorem RegDecl.opens_rw {r : RegDecl} (hkind : r.kind = .rw) (w : Word) : r.opens w = false := by
  simp [RegDecl.opens, hkind]

/-! ### Violations and bus errors -/

theorem Dev.violation_regsBut (d : Dev) (a : Word) (cause : Nat) (write : Bool) :
    d.RegsBut (d.violation a cause write) [Reg.secViolCnt, Reg.secEvents, Reg.secViolAddr, Reg.secViolCause] := by
  unfold Dev.violation
  extract_lets d1
  have h1 : d.RegsBut d1 [Reg.secViolCnt, Reg.secEvents, Reg.secViolAddr, Reg.secViolCause] :=
    .raise (.count (fun _ _ => rfl) (by simp)) (by simp [EvReg.addr])
  split
  · exact .onSec (.setReg (.setReg h1 (by simp)) (by simp))
  · exact h1

theorem Dev.violation_shows (d : Dev) (a : Word) (cause : Nat) (write : Bool) :
    (d.violation a cause write).bit Reg.secEvents 0 = true ∧
      (d.violation a cause write).reg Reg.secViolCnt = satWord ((d.reg Reg.secViolCnt).toNat + 1) := by
  unfold Dev.violation
  extract_lets d1
  have hbit : d1.bit Reg.secEvents 0 = true := Dev.raise_bit _ .sec _ none (by decide)
  have hcnt : d1.reg Reg.secViolCnt = satWord ((d.reg Reg.secViolCnt).toNat + 1) := by
    rw [Dev.raise_reg, if_neg (by decide), Dev.count_reg, if_pos rfl]
  split
  · refine ⟨?_, ?_⟩
    · rw [Dev.bit, Dev.onSec_reg, Dev.setReg_reg, if_neg (by decide), Dev.setReg_reg, if_neg (by decide)]
      exact hbit
    · rw [Dev.onSec_reg, Dev.setReg_reg, if_neg (by decide), Dev.setReg_reg, if_neg (by decide), hcnt]
  · exact ⟨hbit, hcnt⟩

theorem Dev.busError_regsBut (d : Dev) (t : Txn) (cause applied : Nat) (early : Bool) :
    d.RegsBut (d.busError t cause applied early).1 [Reg.hptErrCnt, Reg.hptEvents] := by
  unfold Dev.busError
  extract_lets d1 d2
  have h1 : d.RegsBut d1 [Reg.hptErrCnt, Reg.hptEvents] := .raise (.count (fun _ _ => rfl) (by simp)) (by simp [EvReg.addr])
  unfold d2
  split
  · exact h1.onHost
  · exact h1

theorem Dev.busError_shows (d : Dev) (t : Txn) (cause applied : Nat) (early : Bool) :
    (d.busError t cause applied early).1.bit Reg.hptEvents 1 = true ∧
      (d.busError t cause applied early).1.reg Reg.hptErrCnt = satWord ((d.reg Reg.hptErrCnt).toNat + 1) := by
  unfold Dev.busError
  extract_lets d1 d2
  have hbit : d1.bit Reg.hptEvents 1 = true := Dev.raise_bit _ .hpt _ none (by decide)
  have hcnt : d1.reg Reg.hptErrCnt = satWord ((d.reg Reg.hptErrCnt).toNat + 1) := by
    rw [Dev.raise_reg, if_neg (by decide), Dev.count_reg, if_pos rfl]
  unfold d2
  split
  · exact ⟨hbit, hcnt⟩
  · exact ⟨hbit, hcnt⟩

/-- A transaction refused as a whole (R91): a bus error, its words unserved. -/
theorem Dev.refuseTxn_eq (d : Dev) (t : Txn) (cause : Nat) : d.refuseTxn t cause =
    (d.busError t cause 0 true).1.captureOver.endTxn
      { t.meets 1 with words := [], out := t.words.filterMap fun w => if w.isNone then some 0 else none } := rfl

end Sys2Proof.Machine
end


section
/-! Writes through the host port, aborts, and the words that it turns away. -/

namespace Sys2Proof.Machine

set_option Elab.async false

/-- The one word of a transaction that the port serves leads to its end. -/
theorem Dev.transact_one {d e shown : Dev} {o : Byte} {a : Word} {x : Option Word} {u : Txn} {failed : Bool} {out : List Word}
    (hserves : d.portServes = true) (hpair : d.host.pair = none) (hmode : d.mode ≠ .waking) (hknown : knownOpcode o = true)
    (h : d.oneWord shown (Txn.start o a [x] 0 false) x = (e, u)) (hgoes : (Txn.start o a [x] 0 false).Goes u failed out) :
    d.transact shown (Txn.start o a [x] 0 false) = e.endTxn { u with words := [] } := by
  rw [Dev.transact_served shown hserves hpair (.inl hmode) hknown, Dev.goOn_one rfl (Txn.failed_start _ _ _ _ _) rfl h hgoes.head]

/-- What a command leaves that is one transaction of one word. -/
theorem Completes.oneTxn {c : Instr} {s : State} {f : Dev → Dev} {e : Dev} {o : Byte} {a : Word} {x : Option Word} {u : Txn}
    {failed : Bool} {out : List Word} {as : List Nat} (hc : exec c s = s.upd f)
    (hf : f s.dev = s.dev.transact s.shown (Txn.start o a [x] 0 false)) (hserves : s.dev.portServes = true)
    (hpair : s.dev.host.pair = none) (hmode : s.dev.mode ≠ .waking) (hknown : knownOpcode o = true)
    (h : s.dev.oneWord s.shown (Txn.start o a [x] 0 false) x = (e, u)) (hgoes : (Txn.start o a [x] 0 false).Goes u failed out)
    (hregs : s.dev.RegsBut e as) (hcnt : Reg.hptTxnCnt ∉ as) :
    Completes c s fun g =>
      g.host.outData = out ∧ g.host.outErr = failed ∧ g.host.run = none ∧
      g.reg Reg.hptTxnCnt = s.dev.reg Reg.hptTxnCnt + 1 ∧ s.dev.RegsBut g ([Reg.hptTxnCnt, Reg.hptStallMax] ++ as) ∧
      ∀ b, b ≠ Reg.hptTxnCnt → b ≠ Reg.hptStallMax → g.reg b = e.reg b := by
  have hend := hf.trans (Dev.transact_one hserves hpair hmode hknown h hgoes)
  refine (Completes.ended hc hend hregs hcnt).imp ?_
  rintro g ⟨hdata, herr, hrun, hcount, hregs, -, hsame⟩
  have haborted : ({ u with words := [] } : Txn).aborted = false := hgoes.aborted
  have hfailed : ({ u with words := [] } : Txn).failed = failed := hgoes.failed
  rw [hfailed, haborted] at herr
  rw [haborted] at hdata
  exact ⟨hdata.trans hgoes.out, herr.trans (Bool.and_true _), hrun, hcount, hregs, hsame⟩

/-- An error or a violation met: its event, its count, and no other register but the transaction's own. -/
theorem Completes.metAt {c : Instr} {s : State} {e : Dev} {data : List Word} {err : Bool} {as : List Nat} {cnt ev k : Nat}
    (h : Completes c s fun g => g.host.outData = data ∧ g.host.outErr = err ∧ g.host.run = none ∧
      g.reg Reg.hptTxnCnt = s.dev.reg Reg.hptTxnCnt + 1 ∧ s.dev.RegsBut g ([Reg.hptTxnCnt, Reg.hptStallMax] ++ as) ∧
      ∀ b, b ≠ Reg.hptTxnCnt → b ≠ Reg.hptStallMax → g.reg b = e.reg b)
    (hev : e.bit ev k = true) (hcnt : e.reg cnt = satWord ((s.dev.reg cnt).toNat + 1))
    (hev1 : ev ≠ Reg.hptTxnCnt) (hev2 : ev ≠ Reg.hptStallMax) (hcnt1 : cnt ≠ Reg.hptTxnCnt) (hcnt2 : cnt ≠ Reg.hptStallMax) :
    Completes c s fun g => g.host.outData = data ∧ g.host.outErr = err ∧ g.host.run = none ∧ g.bit ev k = true ∧
      g.reg cnt = satWord ((s.dev.reg cnt).toNat + 1) ∧ g.reg Reg.hptTxnCnt = s.dev.reg Reg.hptTxnCnt + 1 ∧
      s.dev.RegsBut g ([Reg.hptTxnCnt, Reg.hptStallMax] ++ as) := by
  refine h.imp ?_
  rintro g ⟨hdata, herr, hrun, hcount, hregs, hsame⟩
  refine ⟨hdata, herr, hrun, ?_, ?_, hcount, hregs⟩
  · rw [Dev.bit, hsame ev hev1 hev2]
    exact hev
  · rw [hsame cnt hcnt1 hcnt2, hcnt]

section
variable {c : Instr} {s : State} {f : Dev → Dev} {o : Byte} {a : Word} {x : Option Word} {r : RegDecl}
  (hc : exec c s = s.upd f) (hf : f s.dev = s.dev.transact s.shown (Txn.start o a [x] 0 false))
  (hserves : s.dev.portServes = true) (hpair : s.dev.host.pair = none) (hmode : s.dev.mode ≠ .waking)
  (hknown : knownOpcode o = true)
include hc hf hserves hpair hmode hknown

/-- One word at an address that holds none: a bus error. -/
theorem Completes.nowhere (hword : s.dev.wordAt a.toNat = .misaligned ∨ s.dev.wordAt a.toNat = .reserved) :
    Completes c s fun e =>
      e.host.outData = (if x.isSome then [] else [0]) ∧ e.host.outErr = true ∧ e.host.run = none ∧
      e.bit Reg.hptEvents 1 = true ∧ e.reg Reg.hptErrCnt = satWord ((s.dev.reg Reg.hptErrCnt).toNat + 1) ∧
      e.reg Reg.hptTxnCnt = s.dev.reg Reg.hptTxnCnt + 1 ∧
      s.dev.RegsBut e [Reg.hptTxnCnt, Reg.hptStallMax, Reg.hptErrCnt, Reg.hptEvents] := by
  obtain ⟨cause, h⟩ := Dev.oneWord_nowhere (d := s.dev) (shown := s.shown) (t := Txn.start o a [x] 0 false) rfl x hword
  have hgoes : (Txn.start o a [x] 0 false).Goes
      (((s.dev.waiting (Txn.start o a [x] 0 false)).meets 1).next (if x.isSome then none else some 0)) true
        (if x.isSome then [] else [0]) := by
    cases x
    · exact (s.dev.waiting_meets _ (by decide) (some 0)).cast (by simp) rfl
    · exact (s.dev.waiting_meets _ (by decide) none).cast (by simp) rfl
  obtain ⟨hbit, hcnt⟩ := s.dev.captureOver.busError_shows (s.dev.waiting (Txn.start o a [x] 0 false)) cause 0 false
  exact (Completes.oneTxn hc hf hserves hpair hmode hknown h hgoes (Dev.busError_regsBut _ _ _ _ _) (by decide)).metAt hbit hcnt
    (by decide) (by decide) (by decide) (by decide)

/-- One word that a rule of access forbids: an access violation, and no error. -/
theorem Completes.forbidden {cause : Nat} {write : Bool} {v : Option Word}
    (h : s.dev.oneWord s.shown (Txn.start o a [x] 0 false) x = (s.dev.captureOver.violation a cause write,
      ((s.dev.waiting (Txn.start o a [x] 0 false)).meets 4).next v)) :
    Completes c s fun e =>
      e.host.outData = v.toList ∧ e.host.outErr = false ∧ e.host.run = none ∧
      e.bit Reg.secEvents 0 = true ∧ e.reg Reg.secViolCnt = satWord ((s.dev.reg Reg.secViolCnt).toNat + 1) ∧
      e.reg Reg.hptTxnCnt = s.dev.reg Reg.hptTxnCnt + 1 ∧
      s.dev.RegsBut e [Reg.hptTxnCnt, Reg.hptStallMax, Reg.secViolCnt, Reg.secEvents, Reg.secViolAddr, Reg.secViolCause] := by
  have hgoes : (Txn.start o a [x] 0 false).Goes (((s.dev.waiting (Txn.start o a [x] 0 false)).meets 4).next v) false
      v.toList := (s.dev.waiting_meets _ (by decide) v).cast (by simp) (by cases v <;> rfl)
  obtain ⟨hbit, hcnt⟩ := s.dev.captureOver.violation_shows a cause write
  exact (Completes.oneTxn hc hf hserves hpair hmode hknown h hgoes (Dev.violation_regsBut _ _ _ _) (by decide)).metAt hbit hcnt
    (by decide) (by decide) (by decide) (by decide)

end

/-- A transaction refused as a whole. -/
theorem Completes.refused {c : Instr} {s : State} {f : Dev → Dev} {t : Txn} {cause : Nat} (hc : exec c s = s.upd f)
    (hf : f s.dev = s.dev.refuseTxn t cause) (haborted : t.aborted = false) :
    Completes c s fun e =>
      e.host.outData = (t.words.filterMap fun w => if w.isNone then some 0 else none) ∧ e.host.outErr = true ∧
      e.host.run = none ∧ e.bit Reg.hptEvents 1 = true ∧
      e.reg Reg.hptErrCnt = satWord ((s.dev.reg Reg.hptErrCnt).toNat + 1) ∧
      e.reg Reg.hptTxnCnt = s.dev.reg Reg.hptTxnCnt + 1 ∧
      s.dev.RegsBut e [Reg.hptTxnCnt, Reg.hptStallMax, Reg.hptErrCnt, Reg.hptEvents] ∧
      (s.dev.host.errArmed = true → e.host.errCause = packWord [(10, 8, 0), (8, 2, 0), (0, 4, cause)] ∧ e.host.errAddr = 0) := by
  obtain ⟨hbit, hcnt⟩ := s.dev.busError_shows t cause 0 true
  refine (Completes.ended hc (hf.trans (s.dev.refuseTxn_eq t cause)) (Dev.RegsBut.onHost (s.dev.busError_regsBut _ _ _ _))
    (by decide)).imp ?_
  rintro e ⟨hdata, herr, hrun, hcount, hregs, ⟨hcause, haddr⟩, hsame⟩
  refine ⟨?_, ?_, hrun, ?_, ?_, hcount, hregs, fun harmed => ?_⟩
  · exact hdata.trans (if_neg (by simp [haborted, Txn.meets]))
  · have hfailed : (t.meets 1).failed = true := by simp [Txn.failed_meets]
    have hkept : (!t.aborted) = true := by simp [haborted]
    exact herr.trans ((Bool.and_eq_true _ _).mpr ⟨hfailed, hkept⟩)
  · rw [Dev.bit, hsame _ (by decide) (by decide)]
    exact hbit
  · rw [hsame _ (by decide) (by decide)]
    exact hcnt
  · rw [hcause, haddr]
    simp [Dev.captureOver, Dev.busError, harmed]

/-- Settles O22: each of the words that the port turns away is a transaction of one word, or a transaction refused as a whole. -/
theorem portErrors : Obligations.PortErrors := by
  unfold Obligations.PortErrors
  refine ⟨?readNowhere, ?writeNowhere, ?readBarred, ?readVault, ?writeBarred, ?writeBars, ?ledger, ?waking, ?notServing⟩
  case readNowhere =>
    intro s a hserves hpair hmode hword
    exact .nowhere (x := none) (exec_readInc a 0 s) rfl hserves hpair hmode rfl hword
  case writeNowhere =>
    intro s a w hserves hpair hmode hword
    exact .nowhere (x := some w) (exec_writeInc a [w] s) rfl hserves hpair hmode rfl hword
  case readBarred =>
    intro s a hserves hpair hmode hword
    obtain ⟨cause, h⟩ := Dev.oneWord_forbidden (d := s.dev) (shown := s.shown) (t := Txn.start 0x0B a [none] 0 false)
      rfl (.inl hword)
    exact .forbidden (exec_readInc a 0 s) rfl hserves hpair hmode rfl h
  case readVault =>
    intro s a r hserves hpair hmode hword hkind
    obtain ⟨cause, h⟩ := Dev.oneWord_forbidden (d := s.dev) (shown := s.shown) (t := Txn.start 0x0B a [none] 0 false)
      rfl (.inr ⟨r, hword, hkind⟩)
    exact .forbidden (exec_readInc a 0 s) rfl hserves hpair hmode rfl h
  case writeBarred =>
    intro s a w r hserves hpair hmode hword hrow hopens
    exact .forbidden (exec_writeInc a [w] s) rfl hserves hpair hmode rfl (Dev.oneWord_barred rfl hword hrow hopens)
  case writeBars =>
    intro s a w r c hserves hpair hmode hword hbar hopens
    exact .forbidden (exec_writeInc a [w] s) rfl hserves hpair hmode rfl (Dev.oneWord_violates rfl hword hbar hopens)
  case ledger =>
    intro s a w hserves hpair hmode hword
    refine (Completes.oneTxn (as := []) (x := some w) (exec_writeInc a [w] s) rfl hserves hpair hmode rfl (Dev.oneWord_ledger rfl hword)
      (s.dev.waiting_next _ none) (fun _ _ => rfl) (by simp)).imp ?_
    rintro e ⟨-, herr, -, hcount, hregs, -⟩
    exact ⟨herr.trans (Txn.failed_start _ _ _ _ _), hcount, hregs⟩
  case waking =>
    intro s a w c hserves hpair hmode hc
    have hrefused : ∀ {t : Txn} {f : Dev → Dev}, exec c s = s.upd f → f s.dev = s.dev.transact s.shown t → t.opcode ≠ 0x9F →
        t.aborted = false → Completes c s fun e => e.host.outErr = true ∧ e.host.run = none ∧ e.bit Reg.hptEvents 1 = true ∧
          e.reg Reg.hptErrCnt = satWord ((s.dev.reg Reg.hptErrCnt).toNat + 1) ∧
          e.reg Reg.hptTxnCnt = s.dev.reg Reg.hptTxnCnt + 1 ∧
          s.dev.RegsBut e [Reg.hptTxnCnt, Reg.hptStallMax, Reg.hptErrCnt, Reg.hptEvents] := by
      intro t f hexec hf hop haborted
      refine (Completes.refused hexec (hf.trans (Dev.transact_waking s.shown hserves hpair hmode hop)) haborted).imp ?_
      rintro e ⟨-, herr, hrun, hbit, hcnt, hcount, hregs, -⟩
      exact ⟨herr, hrun, hbit, hcnt, hcount, hregs⟩
    simp only [List.mem_cons, List.not_mem_nil, or_false] at hc
    obtain rfl | rfl | rfl | rfl := hc
    · exact hrefused (exec_readInc a 0 s) rfl (by exact of_decide_eq_true rfl) rfl
    · exact hrefused (exec_readFix a 0 s) rfl (by exact of_decide_eq_true rfl) rfl
    · exact hrefused (exec_writeInc a [w] s) rfl (by exact of_decide_eq_true rfl) rfl
    · exact hrefused (exec_writeFix a [w] s) rfl (by exact of_decide_eq_true rfl) rfl
  case notServing =>
    intro s a k o ws c hserves hc
    simp only [List.mem_cons, List.not_mem_nil, or_false] at hc
    obtain rfl | rfl | rfl | rfl | rfl | rfl := hc
    · exact .idle (exec_readInc a k s) (Dev.transact_barred _ _ hserves)
    · exact .idle (exec_readFix a k s) (Dev.transact_barred _ _ hserves)
    · exact .idle (exec_writeInc a ws s) (Dev.transact_barred _ _ hserves)
    · exact .idle (exec_writeFix a ws s) (Dev.transact_barred _ _ hserves)
    · exact .idle (exec_readId s) (Dev.transact_barred _ _ hserves)
    · refine .idle (exec_unknownOpcode o s) ?_
      split
      · rfl
      · exact Dev.transact_barred _ _ hserves

end Sys2Proof.Machine
end


section
/-! Writes and aborts at the host port. -/

namespace Sys2Proof.Machine

set_option Elab.async false

/-- A count of aborts: its event, its register, and the resynchronisation that begins (R103). -/
theorem Dev.aborted_shows (d : Dev) : d.aborted.bit Reg.hptEvents 3 = true ∧
    d.aborted.reg Reg.hptAbortCnt = satWord ((d.reg Reg.hptAbortCnt).toNat + 1) ∧
    d.aborted.host = { d.host with resync := true, resyncAt := d.now, capture := none } := by
  have hbit : ((d.count Reg.hptAbortCnt).raise .hpt 3).bit Reg.hptEvents 3 = true := Dev.raise_bit _ .hpt _ none (by decide)
  refine ⟨hbit, ?_, ?_⟩
  · rw [Dev.aborted, Dev.onHost_reg, Dev.raise_reg, if_neg (by decide), Dev.count_reg, if_pos rfl]
  · simp [Dev.aborted]

theorem Dev.aborted_regsBut (d : Dev) : d.RegsBut d.aborted [Reg.hptEvents, Reg.hptAbortCnt] :=
  .onHost (.raise (.count (fun _ _ => rfl) (by simp)) (by simp [EvReg.addr]))

/-- The transaction that a host reset cuts while its last word waits for its head. -/
def Txn.cut (t : Txn) : Txn := { (t.next none) with head := none, aborted := true, words := [] }

theorem Dev.abort_running {d shown : Dev} {o : Byte} {a : Word} {len : Byte} {t : Txn} (hrun : d.host.run = some t) :
    d.abort shown o a len [] =
      (((d.abandonRead t).onHost fun h => { h with run := none }).endTxn { t.cut with words := [] }).aborted := by
  have hleft : (if (t.opcode == 0x02 || t.opcode == 0x03) = true then (([] : List Word).drop (t.index + 1)).map some else []) =
      ([] : List (Option Word)) := by simp
  simp only [Dev.abort, hrun, hleft]
  exact congrArg Dev.aborted (Dev.goOn_none (t := t.cut) rfl rfl)

/-- A register that a transaction's own count is no read/write register. -/
theorem Dev.wordAt_txnCnt {d : Dev} {r : RegDecl} (h : d.wordAt Reg.hptTxnCnt = .reg r) : r.kind ≠ .rw := by
  have hrow : d.wordAt Reg.hptTxnCnt = State.reset.dev.wordAt Reg.hptTxnCnt := State.reset.dev.wordAt_own d (by decide)
  have hro : ∃ q : RegDecl, State.reset.dev.wordAt Reg.hptTxnCnt = .reg q ∧ q.kind = .ro := ⟨_, rfl, rfl⟩
  obtain ⟨q, hq, hkind⟩ := hro
  rw [hrow, hq, WordAt.reg.injEq] at h
  rw [← h, hkind]
  decide

/-- The blocks of the address map that hold a read/write register with a rule of its own. -/
theorem Dev.plainAt_of_block (d : Dev) {a : Nat} (hown : a < 0x1000000) (hblock : a / 0x10000 ∉ [0x3, 0x5, 0x9, 0xC, 0xE]) :
    d.PlainAt a := by
  simp only [List.mem_cons, List.not_mem_nil, or_false, not_or] at hblock
  obtain ⟨-, h5, h9, hC, hE⟩ := hblock
  refine ⟨hown, ?_, ?_, ?_⟩
  · simp only [List.mem_cons, List.not_mem_nil, or_false, Reg.hptStallMax, Reg.secWaitMax, Reg.alcHostLimit]
    omega
  · simp only [Reg.tagSvcMbxData]
    omega
  · have hbuf : ¬(Reg.secSubBuf 0 0 ≤ a ∧ a < Reg.secSubBuf 4 0) := by
      simp only [Reg.secSubBuf]
      omega
    rw [Dev.busyBuffer, decide_eq_false hbuf, Bool.false_and]

theorem address_of_block {a : Nat} (hblock : a / 0x10000 ∉ [0x3, 0x5, 0x9, 0xC, 0xE]) :
    a ≠ Reg.secCmd ∧ a ≠ Reg.hptTxnCnt ∧ a ≠ Reg.hptStallMax := by
  simp only [List.mem_cons, List.not_mem_nil, or_false, not_or] at hblock
  simp only [Reg.secCmd, Reg.hptTxnCnt, Reg.hptStallMax]
  omega

/-- Settles O20: a word at a plain register is taken as it is written, twice of two; what is refused or cut off ends as such. -/
theorem portWrites : Obligations.PortWrites := by
  unfold Obligations.PortWrites
  refine ⟨?one, ?two, ?unlisted, ?cutEmpty, ?cutHead, ?cutNothing⟩
  case one =>
    intro s a w r hserves hpair hmode hword hkind hbar hown hrule hmailbox hbusy
    have hplain : s.dev.captureOver.PlainAt a.toNat := ⟨hown, hrule, hmailbox, hbusy⟩
    have htaken := Dev.oneWord_taken (shown := s.shown) (t := Txn.start 0x02 a [some w] 0 false) (a := a.toNat) rfl hword hbar
      (RegDecl.opens_rw hkind w)
    rw [Dev.takeWord_plain hplain hkind] at htaken
    have hregs : s.dev.RegsBut ((s.dev.captureOver.plainWrite a.toNat w r).unpoison a.toNat) [a.toNat] := fun x hx => by
      rw [Dev.plainTaken_reg, if_neg (by simpa using hx)]
      rfl
    have hcnt : a.toNat ≠ Reg.hptTxnCnt := fun h => Dev.wordAt_txnCnt (h ▸ hword) hkind
    have hstall : a.toNat ≠ Reg.hptStallMax := fun h => hrule (by simp [h])
    refine (Completes.oneTxn (exec_writeInc a [w] s) rfl hserves hpair hmode rfl htaken (s.dev.waiting_next _ none) hregs
      (by simpa using hcnt.symm)).imp ?_
    rintro e ⟨-, herr, hrun, hcount, hregs, hsame⟩
    refine ⟨?_, herr.trans (Txn.failed_start _ _ _ _ _), hrun, hcount, fun x hx => hregs x ?_⟩
    · rw [hsame _ hcnt hstall, Dev.plainTaken_reg, if_pos rfl]
    · simp only [List.mem_cons, List.not_mem_nil, or_false, List.cons_append, List.nil_append] at hx ⊢
      tauto
  case two =>
    intro s a w x r hserves hpair hmode hword hkind hbar hbar' hown hblock
    set t := Txn.start 0x03 a [some w, some x] 1 false with ht
    obtain ⟨hcmd, hcnt, hstall⟩ := address_of_block hblock
    have hfirst := Dev.oneWord_taken (shown := s.shown) (t := t) (a := a.toNat) rfl hword hbar (RegDecl.opens_rw hkind w)
    rw [Dev.takeWord_plain (Dev.plainAt_of_block _ hown hblock) hkind] at hfirst
    set d := (s.dev.captureOver.plainWrite a.toNat w r).unpoison a.toNat with hd
    set u := (s.dev.waiting t).next none with hu
    have hsecond := Dev.oneWord_taken (d := d) (shown := s.shown) (t := u) (w := x) (a := a.toNat) rfl
      (by rw [s.dev.wordAt_own d hown, hword]) ((Dev.writeViolation_congr hkind hcmd rfl).trans hbar') (RegDecl.opens_rw hkind x)
    rw [Dev.takeWord_plain (Dev.plainAt_of_block _ hown hblock) hkind] at hsecond
    have hok : u.failed = false := Txn.failed_start 0x03 a [some w, some x] 1 false
    have hgo : s.dev.transact s.shown t = ((d.captureOver.plainWrite a.toNat x r).unpoison a.toNat).endTxn
        { (d.waiting u).next none with words := [] } := by
      rw [Dev.transact_served s.shown hserves hpair (.inl hmode) rfl,
        Dev.goOn_two rfl (Txn.failed_start _ _ _ _ _) rfl hfirst rfl hok rfl hsecond rfl]
    have hregs : s.dev.RegsBut ((d.captureOver.plainWrite a.toNat x r).unpoison a.toNat) [a.toNat] := fun y hy => by
      have hy' : y ≠ a.toNat := by simpa using hy
      rw [Dev.plainTaken_reg, if_neg hy', Dev.captureOver, Dev.onHost_reg, hd, Dev.plainTaken_reg, if_neg hy', Dev.captureOver,
        Dev.onHost_reg]
    refine (Completes.ended (exec_writeFix a [w, x] s) hgo hregs (by simpa using hcnt.symm)).imp ?_
    rintro e ⟨-, herr, hrun, hcount, hregs, -, hsame⟩
    refine ⟨?_, ?_, hrun, hcount, fun y hy => hregs y ?_⟩
    · rw [hsame _ hcnt hstall, Dev.plainTaken_reg, if_pos rfl]
    · have hok' : ({ (d.waiting u).next none with words := [] } : Txn).failed = false := hok
      rw [hok', Bool.false_and] at herr
      exact herr
    · simp only [List.mem_cons, List.not_mem_nil, or_false, List.cons_append, List.nil_append] at hy ⊢
      tauto
  case unlisted =>
    intro s o hknown hserves hpair hmode harmed
    have hf : (if knownOpcode o then s.dev else s.dev.transact s.shown (Txn.start o 0 [] 0 false)) =
        s.dev.refuseTxn (Txn.start o 0 [] 0 false) 3 := by
      rw [if_neg (by simp [hknown]), Dev.transact_unlisted s.shown hserves hpair hmode hknown]
    refine (Completes.refused (exec_unknownOpcode o s) hf rfl).imp ?_
    rintro e ⟨hdata, herr, -, hbit, hcnt, -, hregs, hshown⟩
    obtain ⟨hcause, haddr⟩ := hshown harmed
    exact ⟨herr, hdata, hcause, haddr, hbit, hcnt, hregs⟩
  case cutEmpty =>
    intro s o a len hrun hserves hpair hmode hknown
    set t := Txn.start o a [] len.toNat true
    have hexec : s.dev.abort s.shown o a len [] = (s.dev.endTxn { t with words := [] }).aborted := by
      simp only [Dev.abort, hrun, hserves, List.take_nil, List.map_nil, ite_self]
      rw [if_pos trivial, Dev.transact_served s.shown hserves hpair (.inl hmode) hknown, Dev.goOn_none rfl rfl]
    obtain ⟨hbit, hcnt, hhost⟩ := (s.dev.endTxn { t with words := [] }).aborted_shows
    have hnow : (s.dev.endTxn { t with words := [] }).now = s.dev.now := (Dev.endTxn_keeps _ _).now
    have hregs : s.dev.RegsBut (s.dev.endTxn { t with words := [] }).aborted
        [Reg.hptEvents, Reg.hptAbortCnt, Reg.hptTxnCnt, Reg.hptStallMax] := fun x hx => by
      simp only [List.mem_cons, List.not_mem_nil, or_false, not_or] at hx
      rw [Dev.aborted_regsBut _ x (by simp [hx]), Dev.endTxn_regsBut _ _ x (by simp [hx])]
    rw [Dev.endTxn_regsBut _ _ Reg.hptAbortCnt (by decide)] at hcnt
    refine .of_eq (exec_transactionAbort o a len [] s) hexec ⟨?_, ?_, ?_, ?_, ?_, hregs.settled⟩
    · rw [Dev.settled_bit, hbit]
    · rw [Dev.settled_reg, hcnt]
    · rw [Dev.settled_host, hhost]
    · rw [Dev.settled_host, hhost, hnow]
    · rw [Dev.settled_host, hhost]
  case cutHead =>
    intro s o a len t n since write hrun _ _
    set d := (s.dev.abandonRead t).onHost fun h => { h with run := none }
    obtain ⟨hbit, hcnt, hhost⟩ := (d.endTxn { t.cut with words := [] }).aborted_shows
    obtain ⟨hend, -⟩ := d.endTxn_port { t.cut with words := [] }
    have hkeeps : s.dev.Keeps d [.lnk, .host] := .onHost (.via (s.dev.abandonRead_keeps t) .rfl rfl)
    have hnow : (d.endTxn { t.cut with words := [] }).now = s.dev.now := by rw [(Dev.endTxn_keeps _ _).now, hkeeps.now]
    refine .of_eq (exec_transactionAbort o a len [] s) (Dev.abort_running hrun) ⟨?_, ?_, ?_, ?_, ?_⟩
    · rw [Dev.settled_bit, hbit]
    · rw [Dev.settled_reg, hcnt, Dev.endTxn_regsBut _ _ Reg.hptAbortCnt (by decide), hkeeps.anyReg]
    · rw [Dev.settled_host, hhost]
      exact hend
    · rw [Dev.settled_host, hhost]
    · rw [Dev.settled_host, hhost, hnow]
  case cutNothing =>
    intro s o a len ws hrun hserves
    exact .idle (exec_transactionAbort o a len ws s) (by simp [Dev.abort, hrun, hserves])

end Sys2Proof.Machine
end


section
/-! SUPPORT. The training of a link (R134 to R137): what its beginning, its steps and its requests leave of the link. -/

namespace Sys2Proof.Machine

set_option Elab.async false

theorem Dev.LinksBut.drew {d e : Dev} {n : LinkId} (h : d.LinksBut e n) : d.LinksBut e.drew n := h

theorem Dev.RegsBut.drew {d e : Dev} {as : List Nat} (h : d.RegsBut e as) : d.RegsBut e.drew as := h

/-! ### Beginning -/

section
variable (d : Dev) (n : LinkId)

theorem Dev.enterConfirm_of_state {d : Dev} {n : LinkId} (h : (d.link n).lnk.state ≠ .trainC) : d.enterConfirm n = d := by
  simp [Dev.enterConfirm, h]

theorem Dev.beginTraining_state : ((d.beginTraining n).link n).lnk.state = .trainA := by simp [Dev.beginTraining]

theorem Dev.beginTraining_trainAt : ((d.beginTraining n).link n).lnk.trainAt = d.now := by simp [Dev.beginTraining]

theorem Dev.beginTraining_retryAt : ((d.beginTraining n).link n).lnk.retryAt = none := by simp [Dev.beginTraining]

theorem lnkFailRx_ne_trainCnt (n : LinkId) : Reg.lnkFailRx n ≠ Reg.lnkTrainCnt n := by simp [Reg.lnkFailRx, Reg.lnkTrainCnt]

theorem Dev.beginTraining_failRx : (d.beginTraining n).reg (Reg.lnkFailRx n) = 0 := by
  simp [Dev.beginTraining, lnkFailRx_ne_trainCnt]

theorem Dev.beginTraining_trainCnt :
    (d.beginTraining n).reg (Reg.lnkTrainCnt n) = satWord ((d.reg (Reg.lnkTrainCnt n)).toNat + 1) := by
  simp [Dev.beginTraining, (lnkFailRx_ne_trainCnt n).symm]

theorem Dev.LinksBut.beginTraining {d e : Dev} {n : LinkId} (h : d.LinksBut e n) : d.LinksBut (e.beginTraining n) n :=
  h.onLnk.setReg.setReg

theorem Dev.RegsBut.beginTraining {d e : Dev} {n : LinkId} {as : List Nat} (h : d.RegsBut e as) (hf : Reg.lnkFailRx n ∈ as)
    (hc : Reg.lnkTrainCnt n ∈ as) : d.RegsBut (e.beginTraining n) as := ((h.onLnk).setReg hf).count hc

end

theorem Dev.beginTraining_regsBut (d : Dev) (n : LinkId) : d.RegsBut (d.beginTraining n) [Reg.lnkFailRx n, Reg.lnkTrainCnt n] :=
  .beginTraining (fun _ _ => rfl) (by simp) (by simp)

/-! ### RETRAIN -/

/-- A link taken out of its state by RETRAIN, its pilot unknown. -/
def Dev.unlinked (d : Dev) (n : LinkId) : Dev :=
  ((d.onLnk n fun l => l.stop .off none).endBridge n).onVeh n fun v => { v with pilot := .unknown, cand := none, pp := none }

section
variable (d : Dev) (n : LinkId)

theorem Dev.setReg_lnkCmd_role (m : LinkId) (w : Word) : (d.setReg (Reg.lnkCmd n) w).role m = d.role m := by
  have hne : Reg.lnkCfg m ≠ Reg.lnkCmd n := by
    simp only [Reg.lnkCfg, Reg.lnkCmd]
    omega
  simp [Dev.role, Dev.field, hne]

theorem Dev.setReg_lnkCmd_mayTrain (w : Word) : (d.setReg (Reg.lnkCmd n) w).mayTrain n = d.mayTrain n := by
  simp only [Dev.mayTrain, Dev.setReg_lnkCmd_role]
  rfl

theorem Dev.retrain_site {d : Dev} {n : LinkId} (hmay : d.mayTrain n = true) (hsite : d.role n = .site)
    (hclose : (d.link n).cmd.close = 0) (hfb : (d.link n).hs.fb = 0) : d.retrain n = (d.unlinked n).beginTraining n := by
  have hopens : ¬(d.closeBits n ≠ 0 ∨ (d.link n).hs.fb ≠ 0) := by simp [Dev.closeBits, hclose, hfb]
  have hrole : (d.unlinked n).role n = .site := hsite
  rw [Dev.retrain, if_neg (by simpa using hmay), if_neg hopens]
  unfold Dev.unlinked at hrole ⊢
  simp only [hrole]

end

/-! ### Requests of a head's registers -/

/-- What a link's requests leave of its layer. -/
structure LinkLayer.Same (l m : LinkLayer) : Prop where
  state : m.state = l.state
  headRole : m.headRole = l.headRole
  goodRun : m.goodRun = l.goodRun
  badRun : m.badRun = l.badRun
  judged : m.judged = l.judged

theorem LinkLayer.Same.rfl {l : LinkLayer} : l.Same l := ⟨Eq.refl _, Eq.refl _, Eq.refl _, Eq.refl _, Eq.refl _⟩

theorem LinkLayer.Same.trans {l m k : LinkLayer} (h : l.Same m) (h' : m.Same k) : l.Same k :=
  ⟨h'.state.trans h.state, h'.headRole.trans h.headRole, h'.goodRun.trans h.goodRun, h'.badRun.trans h.badRun,
    h'.judged.trans h.judged⟩

theorem LinkLayer.enqueue_same (l : LinkLayer) (r : HeadRequest) : l.Same (l.enqueue r) := by
  simp only [LinkLayer.enqueue]
  split_ifs <;> exact ⟨rfl, rfl, rfl, rfl, rfl⟩

theorem LinkLayer.issue_same (l : LinkLayer) (now : Tick) : l.Same (l.issue now) := by
  unfold LinkLayer.issue
  split <;> exact ⟨rfl, rfl, rfl, rfl, rfl⟩

/-- A link whose layer is as before but for its requests. -/
def Dev.AsksOnly (d e : Dev) (n : LinkId) : Prop := (d.link n).lnk.Same (e.link n).lnk

theorem Dev.AsksOnly.trans {d e f : Dev} {n : LinkId} (h : d.AsksOnly e n) (h' : e.AsksOnly f n) : d.AsksOnly f n :=
  LinkLayer.Same.trans h h'

theorem Dev.AsksOnly.of_lnk {d e : Dev} {n : LinkId} (h : (e.link n).lnk = (d.link n).lnk) : d.AsksOnly e n := by
  rw [Dev.AsksOnly, h]
  exact .rfl

section
variable {d : Dev} {n : LinkId}

theorem Dev.queueReq_asksOnly (p : RegPurpose) (a : Nat) (w : Option Word) : d.AsksOnly (d.queueReq n p a w) n := by
  rw [Dev.AsksOnly, Dev.queueReq, Dev.onLnk_link, if_pos rfl]
  exact (LinkLayer.enqueue_same _ _).trans (LinkLayer.issue_same _ _)

theorem Dev.readStaging_asksOnly : d.AsksOnly (d.readStaging n) n := Dev.queueReq_asksOnly _ _ _

theorem Dev.stageStep_asksOnly (p : PartEntry) (img : List Byte) (k : Nat) : d.AsksOnly (d.stageStep n p img k) n := by
  unfold Dev.stageStep
  extract_lets words q
  have hq : ∀ a w, d.AsksOnly (q a w) n := fun a w => Dev.queueReq_asksOnly _ a w
  split_ifs
  case pos => exact Dev.AsksOnly.trans ⟨by simp, by simp, by simp, by simp, by simp⟩ (Dev.queueReq_asksOnly _ _ _)
  all_goals exact hq _ _

theorem Dev.queueThresh_asksOnly (k : Nat) : d.AsksOnly (d.queueThresh n k) n :=
  .trans (Dev.queueReq_asksOnly _ _ _) (Dev.queueReq_asksOnly _ _ _)

theorem Dev.startThresholds_asksOnly : d.AsksOnly (d.startThresholds n) n := by
  refine Dev.each_inv (P := fun e => d.AsksOnly e n) ?_ fun e k _ he => he.trans (Dev.queueThresh_asksOnly k)
  exact .of_lnk ((Dev.onProt_keeps d n _).lnk n)

theorem Dev.startThresholds_threshOk : ((d.startThresholds n).link n).prot.threshOk = false := by
  refine Dev.each_inv (P := fun e => (e.link n).prot.threshOk = false) (by simp) fun e k _ he => ?_
  have hkeeps : e.Keeps (e.queueThresh n k) [.lnk] := .via (Dev.queueReq_keeps _ _ _ _ _) (.via (Dev.queueReq_keeps _ _ _ _ _) .rfl rfl) rfl
  rw [hkeeps.lprot n]
  exact he

theorem Dev.holdLink_asksOnly (why : HeldWhy) (h : (d.link n).lnk.state = .held) : d.AsksOnly (d.holdLink n why) n := by
  unfold Dev.holdLink
  extract_lets d1
  have h1 : d.AsksOnly d1 n := ⟨by simp [d1, h], by simp [d1], by simp [d1], by simp [d1], by simp [d1]⟩
  split
  · split_ifs
    · exact h1.trans (.of_lnk (((Dev.withdraw_keeps _ _ _).lnk n).trans ((Dev.openAll_keeps d1 n).lnk n)))
    · exact h1.trans (.of_lnk ((Dev.openAll_keeps d1 n).lnk n))
  · exact h1.trans (.of_lnk (((Dev.openAll_keeps _ _).lnk n).trans ((Dev.openNow_keeps d1 n _ _).lnk n)))
  · exact h1

theorem Dev.stageOn_asksOnly (k : Nat) : d.AsksOnly (d.stageOn n k) n := by
  unfold Dev.stageOn
  split
  · exact Dev.stageStep_asksOnly _ _ _
  · exact .of_lnk rfl

/-- A link held as its training completes, with what its head's identity words say. -/
def Dev.trainHeld (d : Dev) (n : LinkId) (i r f : Word) : Dev :=
  ((d.onLnk n fun x => { x with headRole := r, state := .held, heldWhy := .ownDecision }).setReg (Reg.lnkHeadId n) i).setReg
    (Reg.lnkHeadFw n) f

theorem Dev.trainHeld_shows (i r f : Word) :
    ((d.trainHeld n i r f).link n).lnk.state = .held ∧ ((d.trainHeld n i r f).link n).lnk.headRole = r ∧
      (d.trainHeld n i r f).reg (Reg.lnkHeadId n) = i ∧ (d.trainHeld n i r f).reg (Reg.lnkHeadFw n) = f := by
  have hne : Reg.lnkHeadId n ≠ Reg.lnkHeadFw n := by simp [Reg.lnkHeadId, Reg.lnkHeadFw]
  simp [Dev.trainHeld, hne]

/-- The events of the reasons that hold a link. -/
theorem Dev.eachReason_shows (why : List HeldWhy) {as : List Nat} (hev : Reg.lnkEvents n ∈ as) :
    (∀ m, (d.each why fun d w => d.raise (.lnk n) w.bit).link m = d.link m) ∧
      d.RegsBut (d.each why fun d w => d.raise (.lnk n) w.bit) as :=
  Dev.each_inv (P := fun e => (∀ m, e.link m = d.link m) ∧ d.RegsBut e as) ⟨fun _ => rfl, fun _ _ => rfl⟩
    fun e w _ ⟨hlink, hregs⟩ => ⟨fun m => by rw [Dev.raise_link, hlink], hregs.raise hev⟩

theorem Dev.trainDone_shows {i r f : Word} (hstate : (d.link n).lnk.state = .confirm) (hreads : (d.link n).lnk.idReads = [i, r, f])
    (hrun : 16 ≤ (d.link n).lnk.goodRun) (hnow : d.now ≤ (d.link n).lnk.trainAt + 200000) :
    ((d.trainDone n).link n).lnk.state = .held ∧ ((d.trainDone n).link n).lnk.headRole = r ∧
      ((d.trainDone n).link n).prot.threshOk = false ∧
      (d.trainDone n).reg (Reg.lnkHeadId n) = i ∧ (d.trainDone n).reg (Reg.lnkHeadFw n) = f := by
  unfold Dev.trainDone
  extract_lets l headId headRole headFw d1 why d2 d3 d4 d5 d5' d5'' d6 mode bad
  have hl : headId = i ∧ headRole = r ∧ headFw = f := by simp [headId, headRole, headFw, l, hreads]
  rw [if_pos ⟨hstate, hrun, by rw [hreads]; rfl, hnow⟩]
  obtain ⟨hheld, hrole, hid, hfw⟩ := Dev.trainHeld_shows (d := d) (n := n) headId headRole headFw
  change (d1.link n).lnk.state = .held at hheld
  change (d1.link n).lnk.headRole = headRole at hrole
  change d1.reg _ = headId at hid
  change d1.reg _ = headFw at hfw
  obtain ⟨hlink, hregs⟩ := Dev.eachReason_shows (d := d1) (n := n) why (as := [Reg.lnkEvents n]) (by simp)
  have h2 : d1.AsksOnly d2 n := .of_lnk (by rw [hlink])
  have hq : (d2.holdLink n (why.headD .ownDecision)).AsksOnly d3 n :=
    .trans (Dev.queueReq_asksOnly _ _ _) Dev.startThresholds_asksOnly
  have h3 : d1.AsksOnly d3 n := h2.trans ((Dev.holdLink_asksOnly _ (by rw [h2.state, hheld])).trans hq)
  have h4 : d3.AsksOnly d4 n := .trans (.of_lnk ((Dev.onProt_keeps d3 n _).lnk n)) (Dev.queueReq_asksOnly _ _ _)
  have k4 : d3.Keeps d4 [.lnk, .lprot] := .via (Dev.queueReq_keeps _ _ _ _ _) (.onProt .rfl) rfl
  have h5 : d4.AsksOnly d5 n := Dev.queueReq_asksOnly _ _ _
  have k5 : d4.Keeps d5 [.lnk] := Dev.queueReq_keeps _ _ _ _ _
  have h5' : d5.AsksOnly d5' n ∧ d5.Keeps d5' [.lnk] := by
    unfold d5'; split
    · exact ⟨Dev.readStaging_asksOnly, Dev.readStaging_keeps _ _⟩
    · exact ⟨.of_lnk rfl, .rfl⟩
  have h5'' : d5'.AsksOnly d5'' n ∧ d5'.Keeps d5'' [.lnk] := by
    unfold d5''; split
    · exact ⟨Dev.stageOn_asksOnly _, Dev.stageOn_keeps _ _ _⟩
    · exact ⟨.of_lnk rfl, .rfl⟩
  have h6 : d5''.AsksOnly d6 n ∧ d5''.Keeps d6 [.lnk] := by
    unfold d6; split
    · exact ⟨Dev.queueReq_asksOnly _ _ _, Dev.queueReq_keeps _ _ _ _ _⟩
    · exact ⟨.of_lnk rfl, .rfl⟩
  have hasks : d1.AsksOnly d6 n := h3.trans (h4.trans (h5.trans (h5'.1.trans (h5''.1.trans h6.1))))
  have k46 : d4.Keeps d6 [.lnk] := .via h6.2 (.via h5''.2 (.via h5'.2 k5 rfl) rfl) rfl
  have k36 : d3.Keeps d6 [.lnk, .lprot] := .via k46 k4 rfl
  have hthresh : (d6.link n).prot.threshOk = false := by
    rw [k46.lprot n, (Dev.queueReq_keeps _ _ _ _ _).lprot n]
    simpa using Dev.startThresholds_threshOk
  have hreg : ∀ a, regPart a = .rLnk → a ≠ Reg.lnkEvents n → d6.reg a = d1.reg a := fun a ha hne => by
    have hd3 : d2.Keeps d3 [.alloc, .prot, .recorder, .lnk, .cmd, .group, .out, .con, .veh, .lprot, .rAlc, .rVeh] :=
      .via (Dev.startThresholds_keeps _ _) (.via (Dev.queueReq_keeps _ _ _ _ _) (.via (Dev.holdLink_keeps d2 n _) .rfl rfl) rfl) rfl
    rw [k36.anyReg, hd3.reg_of ha, hregs a (by simpa using hne)]
  set e := (d6.onTag n fun t => { t with mismatch := bad }).raiseIf bad (.tagL n) 3
  have ke : d6.Keeps e [.ltag, .recorder, .rTag] :=
    .raiseIf (.onTag .rfl) rfl (contains_of (regPart_tagLEvents (Nat.lt_of_lt_of_le n.2 (by decide))) rfl)
  have hreg' : ∀ a, regPart a = .rLnk → a ≠ Reg.lnkEvents n → e.reg a = d1.reg a := fun a ha hne =>
    (ke.reg_of ha).trans (hreg a ha hne)
  refine ⟨?_, ?_, ?_, ?_, ?_⟩
  · rw [ke.lnk n, hasks.state, hheld]
  · rw [ke.lnk n, hasks.headRole, hrole, hl.2.1]
  · rw [ke.lprot n, hthresh]
  · rw [hreg' _ (regPart_lnkHeadId n.2) (by simp [Reg.lnkHeadId, Reg.lnkEvents]), hid, hl.1]
  · rw [hreg' _ (regPart_lnkHeadFw n.2) (by simp [Reg.lnkHeadFw, Reg.lnkEvents]), hfw, hl.2.2]

end

/-! ### The commands -/

/-- Settles O24: each step acts on its link alone; the requests that follow a completed training leave the state it reached. -/
theorem linkTraining : Obligations.LinkTraining := by
  unfold Obligations.LinkTraining
  refine ⟨?start, ?retry, ?stepA, ?stepB, ?done, ?notDone, ?noStart, ?noRetry, ?lateA, ?lateB, ?fail, ?retrain, ?refused⟩
  case start =>
    intro s n hmay hstate hdue
    refine .of_eq (exec_trainingStart n s) (if_pos ⟨hmay, hstate, hdue⟩) ⟨?_, ?_, ?_, ?_, ?_, ?_⟩
    · exact s.dev.beginTraining_state n
    · exact s.dev.beginTraining_trainAt n
    · rw [Dev.settled_reg, Dev.beginTraining_trainCnt]
    · rw [Dev.settled_reg, Dev.beginTraining_failRx]
    · exact .settled (.beginTraining fun _ _ => rfl)
    · exact .settled (.beginTraining (fun _ _ => rfl) (by simp) (by simp))
  case retry =>
    intro s n hmay hstate hretry hdue
    refine .of_eq (exec_trainingRetry n s) (if_pos ⟨hmay, hstate, hretry, hdue⟩) ⟨?_, ?_, ?_, ?_, ?_, ?_⟩
    · exact s.dev.beginTraining_state n
    · exact s.dev.beginTraining_trainAt n
    · exact s.dev.beginTraining_retryAt n
    · rw [Dev.settled_reg, Dev.beginTraining_trainCnt]
    · exact .settled (.beginTraining fun _ _ => rfl)
    · exact .settled (.beginTraining (fun _ _ => rfl) (by simp) (by simp))
  case stepA =>
    intro s n a hstate hnow
    refine .of_eq (exec_trainAReply n a s) (if_pos ⟨hstate, hnow⟩) ⟨?_, ?_, ?_, ?_⟩
    · simp
    · simp
    · exact .settled (.setReg (.onLnk fun _ _ => rfl))
    · exact .settled (.setReg (.onLnk fun _ _ => rfl) (by simp))
  case stepB =>
    intro s n m rtt hstate hnow hm
    refine .of_eq (exec_trainBEcho n m rtt s) (if_pos ⟨hstate, hnow, hm⟩) ?_
    rw [← hm]
    by_cases hlast : m.toNat < 8
    · rw [if_pos hlast]
      refine ⟨fun _ => by simp, by simp [hlast, hstate], by simpa using ⟨BitVec.isLt _, BitVec.isLt _⟩, ?_, ?_⟩
      · exact .settled (.onLnk (.setReg fun _ _ => rfl))
      · exact .settled (.onLnk (.setReg (fun _ _ => rfl) (by simp)))
    · rw [if_neg hlast]
      refine ⟨fun h => absurd h hlast, by simp [hlast], by simpa using ⟨BitVec.isLt _, BitVec.isLt _⟩, ?_, ?_⟩
      · exact .settled (.drew (.onLnk (.setReg fun _ _ => rfl)))
      · exact .settled (.drew (.onLnk (.setReg (fun _ _ => rfl) (by simp))))
  case done =>
    intro s n i r f hstate hreads hrun hnow
    obtain ⟨hheld, hrole, hthresh, hid, hfw⟩ := Dev.trainDone_shows hstate hreads hrun hnow
    refine .of_eq (exec_trainingComplete n s) (by rw [Dev.enterConfirm_of_state (by simp [hstate])]) ⟨hheld, hrole, hthresh, ?_, ?_⟩
    · rw [Dev.settled_reg, hid]
    · rw [Dev.settled_reg, hfw]
  case notDone =>
    intro s n hstate hunmet
    refine .idle (exec_trainingComplete n s) ?_
    rw [Dev.enterConfirm_of_state hstate, Dev.trainDone, if_neg]
    rintro ⟨hconfirm, hrun, hreads, hnow⟩
    obtain h | h | h | h := hunmet
    · exact h hconfirm
    · exact absurd hrun (Nat.not_le.mpr h)
    · exact h hreads
    · exact absurd hnow (Nat.not_le.mpr h)
  case noStart =>
    intro s n h
    refine .idle (exec_trainingStart n s) (if_neg ?_)
    rintro ⟨hmay, -, hdue⟩
    simp_all
  case noRetry =>
    intro s n h
    refine .idle (exec_trainingRetry n s) (if_neg ?_)
    rintro ⟨hmay, -, -, hdue⟩
    simp_all
  case lateA =>
    intro s n a h
    refine .idle (exec_trainAReply n a s) (if_neg ?_)
    rintro ⟨hstate, hnow⟩
    exact h.elim (· hstate) fun h => absurd hnow (Nat.not_le.mpr h)
  case lateB =>
    intro s n m rtt h
    refine .idle (exec_trainBEcho n m rtt s) (if_neg ?_)
    rintro ⟨hstate, hnow, hm⟩
    obtain h | h | h := h
    · exact h hstate
    · exact absurd hnow (Nat.not_le.mpr h)
    · exact h hm
  case fail =>
    intro s n b hbound hlate
    have hconf : (s.dev.enterConfirm n).now = s.dev.now ∧ s.dev.LinksBut (s.dev.enterConfirm n) n ∧
        ((s.dev.enterConfirm n).link n).lnk.trainAt = (s.dev.link n).lnk.trainAt ∧
        ∀ a, (s.dev.enterConfirm n).reg a = s.dev.reg a := by
      simp only [Dev.enterConfirm]
      split_ifs
      · exact ⟨by simp, .onLnk fun _ _ => rfl, by simp, fun _ => rfl⟩
      · exact ⟨rfl, fun _ _ => rfl, rfl, fun _ => rfl⟩
    obtain ⟨hnow, hlinks, hat, hreg⟩ := hconf
    have hfails : s.dev.trainingFails n = (s.dev.enterConfirm n).failTraining n := by
      simp only [Dev.trainingFails, hbound, ms, hat, hnow, if_pos hlate]
    generalize s.dev.enterConfirm n = d at *
    refine .of_eq (exec_trainingFail n s) hfails ⟨?_, ?_, ?_, ?_, ?_⟩
    · simp [Dev.failTraining, LinkLayer.stop]
    · simp [Dev.failTraining, LinkLayer.stop, hnow, secs]
    · exact Dev.settled_raise_bit _ (.lnk n) _ _ (by decide)
    · exact .settled (.raise (.onLnk hlinks))
    · exact .settled (.raise (.onLnk (.of_same (fun _ _ => rfl) hreg)) (by simp [EvReg.addr]))
  case retrain =>
    intro s n hrun hmay hsite hclose hfb
    have hexec : s.dev.gw (Reg.lnkCmd n) 1 (fun d => d.retrain n) = ((s.dev.setReg (Reg.lnkCmd n) 1).unlinked n).beginTraining n := by
      rw [Dev.gw_of_recording _ _ _ hrun, Dev.retrain_site]
      · rw [Dev.setReg_lnkCmd_mayTrain, hmay]
      · rw [Dev.setReg_lnkCmd_role, hsite]
      · exact hclose
      · exact hfb
    have hnow : (s.dev.setReg (Reg.lnkCmd n) 1).now = s.dev.now := rfl
    have hcmd : (s.dev.setReg (Reg.lnkCmd n) 1).reg (Reg.lnkCmd n) = 1 := by simp
    have hregs : s.dev.RegsBut (s.dev.setReg (Reg.lnkCmd n) 1) [Reg.lnkCmd n, Reg.lnkTrainCnt n, Reg.lnkFailRx n] :=
      .setReg (fun _ _ => rfl) (by simp)
    have hlinks : s.dev.LinksBut (s.dev.setReg (Reg.lnkCmd n) 1) n := fun _ _ => rfl
    generalize s.dev.setReg (Reg.lnkCmd n) 1 = d at *
    refine .of_eq (exec_retrain n s) hexec ⟨?_, ?_, ?_, ?_, ?_⟩
    · exact Dev.beginTraining_state _ n
    · exact (Dev.beginTraining_trainAt _ n).trans hnow
    · rw [Dev.settled_reg, Dev.beginTraining_regsBut _ n _ (by simp [Reg.lnkCmd, Reg.lnkFailRx, Reg.lnkTrainCnt])]
      exact hcmd
    · exact .settled (.beginTraining (.onVeh (.onMet (.onLnk hlinks))))
    · exact .settled (.beginTraining (.onVeh (.onMet (.onLnk hregs))) (by simp) (by simp))
  case refused =>
    intro s n hrun hmay hfb
    set d := s.dev.setReg (Reg.lnkCmd n) 1 with hd
    have hmay' : d.mayTrain n = true := by rw [hd, Dev.setReg_lnkCmd_mayTrain, hmay]
    have hexec : s.dev.gw (Reg.lnkCmd n) 1 (fun d => d.retrain n) = d.raise (.lnk n) 10 := by
      rw [Dev.gw_of_recording _ _ _ hrun, ← hd, Dev.retrain, if_neg (by simpa using hmay'), if_pos (.inr hfb)]
    refine .of_eq (exec_retrain n s) hexec ⟨?_, ?_, ?_⟩
    · exact Dev.settled_raise_bit _ (.lnk n) _ _ (by decide)
    · simp [hd]
    · exact .settled (.raise (.setReg (fun _ _ => rfl) (by simp)) (by simp [EvReg.addr]))

end Sys2Proof.Machine
end


section
/-! SUPPORT. Frames of a link, its loss and its register channel (R116 to R140). -/

namespace Sys2Proof.Machine

set_option Elab.async false

theorem LinkState.ne_trainC_of_framed {x : LinkState} (h : x.framed = true) : x ≠ .trainC := by
  rintro rfl
  exact absurd h (by decide)

section
variable {d : Dev} {n : LinkId} {bs : List Block}

/-! ### Frames -/

theorem Dev.outletFrame_keeps (d : Dev) (n : LinkId) :
    d.Keeps ((d.pilotFrame n).each (List.finRange 4) fun d k => d.auxFrame n k) [.recorder, .veh, .aux, .rAux] :=
  Dev.each_inv (P := fun e => d.Keeps e [.recorder, .veh, .aux, .rAux]) (Dev.pilotFrame_keeps d n).mono
    fun e k _ he => .via (Dev.auxFrame_keeps e n k) he rfl

/-- A frame taken on a trained link brings the head's status and leaves the run of good and missing ones. -/
theorem Dev.takeFrame_shows :
    ((d.takeFrame n bs).link n).hs = statusOf bs ∧
      ((d.takeFrame n bs).link n).lnk.goodRun = (d.link n).lnk.goodRun ∧
      ((d.takeFrame n bs).link n).lnk.badRun = (d.link n).lnk.badRun ∧
      ((d.takeFrame n bs).link n).lnk.judged = (d.link n).lnk.judged := by
  obtain ⟨e, hk, hs, hgood, hbad, hjudged⟩ : ∃ e : Dev,
      e.Keeps (d.takeFrame n bs) [.alloc, .prot, .recorder, .cmd, .group, .out, .con, .veh, .aux, .rAlc, .rAux] ∧
      (e.link n).hs = statusOf bs ∧ (e.link n).lnk.goodRun = (d.link n).lnk.goodRun ∧
      (e.link n).lnk.badRun = (d.link n).lnk.badRun ∧ (e.link n).lnk.judged = (d.link n).lnk.judged := by
    unfold Dev.takeFrame
    extract_lets role was d1 d2
    refine ⟨d2, ?_, ?_⟩
    · clear_value d2 d1 role
      cases role with
      | outlet =>
        simp only
        exact (Dev.outletFrame_keeps d2 n).mono
      | power => exact .ite (fun _ => .mono (Dev.withdraw_keeps d2 n _)) fun _ => .rfl
      | site => exact .rfl
      | unused => exact .rfl
    · have h1 : d2.link n = d1.link n := Dev.raiseIf_link _ _ _ _ _ _
      simp [h1, d1, Dev.onMet]
  rw [hk.hs n, hk.lnk n]
  exact ⟨hs, hgood, hbad, hjudged⟩

theorem Dev.askIdentity_asksOnly : d.AsksOnly (d.askIdentity n) n :=
  .trans (Dev.queueReq_asksOnly _ _ _) (.trans (Dev.queueReq_asksOnly _ _ _) (Dev.queueReq_asksOnly _ _ _))

/-- The tick of a good frame is judged. -/
theorem Dev.goodFrame_shows :
    ((d.goodFrame n bs).link n).lnk.goodRun = (d.link n).lnk.goodRun + 1 ∧
      ((d.goodFrame n bs).link n).lnk.badRun = 0 ∧ ((d.goodFrame n bs).link n).lnk.judged = true ∧
      (d.trained n = true → ((d.goodFrame n bs).link n).hs = statusOf bs) := by
  unfold Dev.goodFrame
  extract_lets d1 l
  have h1 : (d1.link n).lnk.goodRun = (d.link n).lnk.goodRun + 1 ∧ (d1.link n).lnk.badRun = 0 ∧ (d1.link n).lnk.judged = true := by
    simp [d1]
  obtain ⟨hgood, hbad, hjudged⟩ := h1
  split_ifs with htrained hask
  · obtain ⟨hs, hg, hb, hj⟩ := Dev.takeFrame_shows (d := d1) (n := n) (bs := bs)
    exact ⟨hg.trans hgood, hb.trans hbad, hj.trans hjudged, fun _ => hs⟩
  · have hsame : d1.AsksOnly (d1.askIdentity n) n := Dev.askIdentity_asksOnly
    exact ⟨hsame.goodRun.trans hgood, hsame.badRun.trans hbad, hsame.judged.trans hjudged, fun h => absurd h htrained⟩
  · exact ⟨hgood, hbad, hjudged, fun h => absurd h htrained⟩

/-- The tick of a missing frame is judged, its samples silent (R126). -/
theorem Dev.failedTick_shows :
    ((d.failedTick n).link n).lnk.goodRun = 0 ∧
      ((d.failedTick n).link n).lnk.badRun = (if (d.link n).lnk.alarmNow then 0 else (d.link n).lnk.badRun + 1) ∧
      ((d.failedTick n).link n).lnk.judged = true ∧ ((d.failedTick n).link n).rx = RxSamples.silent ∧
      ((d.failedTick n).link n).hs = (d.link n).hs ∧
      (d.failedTick n).reg (Reg.lnkFailRx n) = satWord ((d.reg (Reg.lnkFailRx n)).toNat + 1) := by
  unfold Dev.failedTick applyIf
  extract_lets d1
  split_ifs <;> simp [d1, *]

/-- A frame with lock and without a bad character is a good frame of its tick. -/
theorem Dev.frame_good (hframed : (d.link n).lnk.state.framed = true) (hjudged : (d.link n).lnk.judged = false)
    (hctrl : badCtrl bs = 0) (hvalid : frameValid d.now n.1 bs = true)
    (hlock : hasLock (lockBlocks bs (d.link n).lnk.hdrBad) = true) :
    d.frame n bs = (d.onLnk n fun l => { l with hdrBad := lockBlocks bs l.hdrBad }).goodFrame n bs := by
  have hconf := Dev.enterConfirm_of_state (LinkState.ne_trainC_of_framed hframed)
  simp [Dev.frame, hconf, hframed, hjudged, hctrl, hvalid, hlock]

/-- What a failed tick finds of a frame that is not valid: its lock and its bad characters are counted. -/
theorem Dev.frame_bad (hframed : (d.link n).lnk.state.framed = true) (hjudged : (d.link n).lnk.judged = false)
    (hvalid : frameValid d.now n.1 bs = false) :
    ∃ e : Dev, d.frame n bs = e.failedTick n ∧ (e.link n).lnk.alarmNow = (d.link n).lnk.alarmNow ∧
      (e.link n).lnk.badRun = (d.link n).lnk.badRun ∧ (e.link n).hs = (d.link n).hs ∧
      e.reg (Reg.lnkFailRx n) = d.reg (Reg.lnkFailRx n) := by
  have hconf := Dev.enterConfirm_of_state (LinkState.ne_trainC_of_framed hframed)
  have hctrl : Reg.lnkFailRx n ≠ Reg.lnkBadCtrl n := by simp [Reg.lnkFailRx, Reg.lnkBadCtrl]
  have hev : Reg.lnkFailRx n ≠ (EvReg.lnk n).addr := by simp [Reg.lnkFailRx, EvReg.addr, Reg.lnkEvents]
  unfold Dev.frame
  extract_lets d0 l d1 bad d2
  have hd0 : d0 = d := hconf
  refine ⟨d2, by rw [if_pos (by simp [l, hd0, hframed, hjudged])]; simp [hvalid], ?_⟩
  simp only [d2, d1, hd0]
  split_ifs <;> simp [hctrl, hev]

/-! ### Loss -/

theorem Dev.judgeMissing_of_judged (h : (d.link n).lnk.judged = true) (hstate : (d.link n).lnk.state ≠ .trainC) :
    d.judgeMissing n = d := by
  simp [Dev.judgeMissing, Dev.enterConfirm_of_state hstate, h]

theorem Dev.LinkMild.alarm {d e : Dev} {n : LinkId} (h : d.LinkMild e) :
    (e.link n).lnk.alarmSerial = (d.link n).lnk.alarmSerial ∧ (e.link n).lnk.alarmNow = (d.link n).lnk.alarmNow := by
  obtain ⟨s, p, x, hlnk⟩ := h.1 n
  simp [hlnk, LinkLayer.tripping]

/-- A tick that is judged is not judged again as missing. -/
theorem Dev.judgeMissing_badRun (h : (d.link n).lnk.judged = true) (hrun : (d.link n).lnk.badRun < 2) :
    ((d.judgeMissing n).link n).lnk.badRun < 2 := by
  have hconf : ((d.enterConfirm n).link n).lnk.judged = true ∧ ((d.enterConfirm n).link n).lnk.badRun < 2 := by
    simp only [Dev.enterConfirm]
    split_ifs <;> simp [h, hrun]
  rw [Dev.judgeMissing, if_neg (by simp [hconf.1])]
  exact hconf.2

/-- The record of a first ALARM of a serial. -/
def Dev.alarmTaken (d : Dev) (n : LinkId) (a : BitVec 16) : Dev :=
  ((d.onLnk n fun l => { l with alarmSerial := some (BitVec.ofNat 6 a.toNat), alarmNow := true, badRun := 0 }).setReg
    (Reg.lnkAlarmLast n) (packWord [(16, 16, d.now), (0, 16, a.toNat)])).onProt n fun p => { p with alarmAt := d.now }

theorem Dev.alarm_first {a : BitVec 16} (hframed : (d.link n).lnk.state.framed = true)
    (hserial : (d.link n).lnk.alarmSerial ≠ some (BitVec.ofNat 6 a.toNat)) :
    d.alarm n a = (d.alarmTaken n a).causeOn (.lnk n) 1 { code := alarmCause a, source := 4 * n.1, index := 0 } (some n) [n] := by
  have hconf := Dev.enterConfirm_of_state (LinkState.ne_trainC_of_framed hframed)
  unfold Dev.alarm
  extract_lets d0 l serial d1
  have hd0 : d0 = d := hconf
  rw [if_pos (by rw [show l = (d.link n).lnk from congrArg (fun e : Dev => (e.link n).lnk) hd0]; exact hframed),
    if_neg (by rw [show l = (d.link n).lnk from congrArg (fun e : Dev => (e.link n).lnk) hd0]; exact hserial)]
  rw [Dev.alarmTaken, ← hd0]

theorem Dev.alarmTaken_shows {a : BitVec 16} :
    ((d.alarmTaken n a).link n).lnk.alarmSerial = some (BitVec.ofNat 6 a.toNat) ∧ ((d.alarmTaken n a).link n).lnk.alarmNow = true ∧
      (d.alarmTaken n a).reg (Reg.lnkAlarmLast n) = packWord [(16, 16, d.now), (0, 16, a.toNat)] := by
  simp [Dev.alarmTaken]

/-- A link lost, its pilot unknown (R137). -/
def Dev.unlinkedUntil (d : Dev) (n : LinkId) (retry : Tick) : Dev :=
  ((d.onLnk n fun l => l.stop .lost (some retry)).endBridge n).onVeh n fun v => { v with pilot := .unknown, cand := none, pp := none }

theorem Dev.unlinkedUntil_shows (t : Tick) :
    ((d.unlinkedUntil n t).link n).lnk.state = .lost ∧ ((d.unlinkedUntil n t).link n).lnk.retryAt = some t ∧
      (∀ a, (d.unlinkedUntil n t).reg a = d.reg a) ∧ ((d.unlinkedUntil n t).link n).veh.pilot = .unknown := by
  simp [Dev.unlinkedUntil, Dev.endBridge, LinkLayer.stop]

/-- The group of a lost power link is withdrawn. -/
def Dev.withoutLink (d : Dev) (n : LinkId) : Dev :=
  match d.role n with
  | .power => if d.serving then d.withdraw n .linkHeldOrLost else d
  | _ => d

theorem Dev.withoutLink_keeps (d : Dev) (n : LinkId) :
    d.Keeps (d.withoutLink n) [.alloc, .prot, .recorder, .cmd, .group, .out, .con, .rAlc] := by
  unfold Dev.withoutLink
  split
  · exact .ite (fun _ => Dev.withdraw_keeps d n _) fun _ => .rfl
  · exact .rfl

theorem Dev.lose_eq (hstate : (d.link n).lnk.state = .live) (hjudged : (d.link n).lnk.judged = true)
    (hrun : 2 ≤ (d.link n).lnk.badRun) :
    ∃ e : Dev, d.lose n = (e.unlinkedUntil n (d.now + ms 10)).withoutLink n ∧ e.bit (Reg.lnkEvents n) 0 = true := by
  have htrained : d.trained n = true := by simp [Dev.trained, hstate]
  have hjudge : d.judgeMissing n = d := Dev.judgeMissing_of_judged hjudged (by simp [hstate])
  unfold Dev.lose
  extract_lets d0 serial c cls d1 d2 d3 d4
  have hd0 : d0 = d := hjudge
  have hbit1 : d1.bit (Reg.lnkEvents n) 0 = true := Dev.causeOn_lnkBit d0 n 0 c (some n) [n] false (by decide)
  refine ⟨d2, by rw [if_pos (by rw [hd0]; exact ⟨htrained, hrun⟩)]; rfl, ?_⟩
  unfold d2
  split_ifs
  · exact (Dev.sendTrip_linkMild d1 n _).2.2 n 0 hbit1
  · exact hbit1

/-- The withdrawal of a lost power link's group leaves the link. -/
theorem Dev.lose_shows (hstate : (d.link n).lnk.state = .live) (hjudged : (d.link n).lnk.judged = true)
    (hrun : 2 ≤ (d.link n).lnk.badRun) :
    ((d.lose n).link n).lnk.state = .lost ∧ ((d.lose n).link n).lnk.retryAt = some (d.now + 10000) ∧
      (d.lose n).bit (Reg.lnkEvents n) 0 = true ∧ ((d.lose n).link n).veh.pilot = .unknown := by
  obtain ⟨e, hlose, hbit⟩ := Dev.lose_eq hstate hjudged hrun
  obtain ⟨hlost, hretry, hreg, hpilot⟩ := e.unlinkedUntil_shows (n := n) (d.now + ms 10)
  have hk := (e.unlinkedUntil n (d.now + ms 10)).withoutLink_keeps n
  rw [hlose, hk.lnk n, hk.veh n, hk.bit _ _ (by rw [regPart_lnkEvents']; rfl)]
  exact ⟨hlost, hretry, by rw [Dev.bit, hreg, ← Dev.bit, hbit], hpilot⟩

/-! ### Requests and responses -/

theorem Dev.reqAnswered_identity {p : RegPurpose} {data : Word} (h : p = .headId ∨ p = .headRole ∨ p = .headFw) :
    d.reqAnswered n p data = (d.onLnk n fun l => { l with idReads := l.idReads ++ [data] }).reqDone n := by
  obtain rfl | rfl | rfl := h <;> rfl

theorem Dev.reqFailed_identity {p : RegPurpose} (h : p = .headId ∨ p = .headRole ∨ p = .headFw) :
    d.reqFailed n p = d.failTraining n := by
  obtain rfl | rfl | rfl := h <;> rfl

/-- A response that fits the request of a framed link and is not the host's ends it. -/
theorem Dev.response_own {shown : Dev} {r : HeadRequest} {resp : BitVec 2} {tag : BitVec 6} {a : BitVec 15} {data : Word}
    (hframed : (d.link n).lnk.state.framed = true) (hreq : (d.link n).lnk.request = some r) (hfits : r.fits resp tag a = true)
    (hown : r.purpose ≠ .host) :
    d.response shown n resp tag a data = if resp = 3 then d.reqFailed n r.purpose else d.reqAnswered n r.purpose data := by
  rw [Dev.response, hreq]
  simp only
  rw [if_pos ⟨hframed, hfits⟩, if_neg hown]

theorem Dev.response_unfit {shown : Dev} {resp : BitVec 2} {tag : BitVec 6} {a : BitVec 15} {data : Word}
    (h : (d.link n).lnk.request = none ∨ ((d.link n).lnk.request.map fun r => r.fits resp tag a) = some false) :
    d.response shown n resp tag a data = d := by
  rw [Dev.response]
  cases hreq : (d.link n).lnk.request with
  | none => rfl
  | some r =>
    have hfits : r.fits resp tag a = false := by simpa [hreq] using h
    simp [hfits]

theorem LinkLayer.issue_of_none {l : LinkLayer} (now : Tick) (h : l.waiting = []) : l.issue now = l := by
  unfold LinkLayer.issue
  rw [h]
  split
  · next h' => exact absurd h' (by simp)
  · rfl

/-- The last request of a link done leaves none. -/
theorem Dev.reqDone_shows (hwait : (d.link n).lnk.waiting = []) :
    ((d.reqDone n).link n).lnk = { (d.link n).lnk with request := none } ∧ d.LinksBut (d.reqDone n) n ∧ d.RegsBut (d.reqDone n) [] := by
  refine ⟨?_, .onLnk fun _ _ => rfl, fun _ _ => rfl⟩
  rw [Dev.reqDone, Dev.onLnk_link, if_pos rfl]
  exact LinkLayer.issue_of_none _ hwait

theorem Dev.trained_framed (h : d.trained n = true) : (d.link n).lnk.state.framed = true := by
  simp only [Dev.trained, Bool.or_eq_true, beq_iff_eq] at h
  obtain h | h := h <;> rw [h] <;> rfl

end

/-! ### The commands -/

/-- Settles O23: each frame, alarm or response acts on its link's layer; what a loss or an alarm trips leaves that layer but for
the TRIP in progress. -/
theorem linkFrames : Obligations.LinkFrames := by
  unfold Obligations.LinkFrames
  refine ⟨?good, ?bad, ?again, ?unframed, ?alarm, ?lost, ?notLost, ?identity, ?rejected, ?unfit, ?noRepeat, ?caps, ?asked⟩
  case good =>
    intro s n bs hframed hjudged hctrl hvalid hlock
    refine .of_eq (exec_headFrameReceived n bs s) (congrArg (Dev.feedbackTaken · s.dev n)
      (Dev.frame_good hframed hjudged hctrl hvalid hlock)) ?_
    have hk := Dev.feedbackTaken_keeps ((s.dev.onLnk n fun l => { l with hdrBad := lockBlocks bs l.hdrBad }).goodFrame n bs) s.dev n
    obtain ⟨hgood, hbad, hj, hhs⟩ :=
      Dev.goodFrame_shows (d := s.dev.onLnk n fun l => { l with hdrBad := lockBlocks bs l.hdrBad }) (n := n) (bs := bs)
    refine ⟨?_, ?_, ?_, fun htrained => ?_⟩
    · rw [Dev.settled_link, hk.lnk n, hgood]
      simp
    · rw [Dev.settled_link, hk.lnk n, hbad]
    · rw [Dev.settled_link, hk.lnk n, hj]
    · rw [Dev.settled_link, hk.hs n, hhs]
      simpa [Dev.trained] using htrained
  case bad =>
    intro s n bs hframed hjudged hvalid
    obtain ⟨e, hexec, halarm, hrun, hhs, hreg⟩ := Dev.frame_bad hframed hjudged hvalid
    refine .of_eq (exec_headFrameReceived n bs s) (congrArg (Dev.feedbackTaken · s.dev n) hexec) ?_
    have hk := Dev.feedbackTaken_keeps (e.failedTick n) s.dev n
    obtain ⟨hgood, hbad, hj, hrx, hs, hcount⟩ := Dev.failedTick_shows (d := e) (n := n)
    refine ⟨?_, ?_, ?_, ?_, ?_, ?_⟩
    · rw [Dev.settled_link, hk.lnk n, hgood]
    · rw [Dev.settled_link, hk.lnk n, hbad, halarm, hrun]
    · rw [Dev.settled_link, hk.lnk n, hj]
    · rw [Dev.settled_link, hk.rx n, hrx]
    · rw [Dev.settled_link, hk.hs n, hs, hhs]
    · rw [Dev.settled_reg, hk.anyReg, hcount, hreg]
  case again =>
    intro s n a hframed hserial
    have hconf := Dev.enterConfirm_of_state (LinkState.ne_trainC_of_framed hframed)
    refine .of_eq (exec_alarmReceived n a s) (by rw [Dev.alarm, hconf, if_pos hframed, if_pos hserial]) ⟨?_, ?_, ?_⟩
    · rw [Dev.settled_link, Dev.onLnk_link, if_pos rfl, ← hserial]
    · exact .settled (.onLnk fun _ _ => rfl)
    · exact .settled (.onLnk .rfl)
  case unframed =>
    intro s n a hframed hstate
    exact .idle (exec_alarmReceived n a s) (by simp [Dev.alarm, Dev.enterConfirm_of_state hstate, hframed])
  case alarm =>
    intro s n a hframed hserial
    obtain ⟨hser, hnow, hlast⟩ := Dev.alarmTaken_shows (d := s.dev) (n := n) (a := a)
    have hexec := Dev.alarm_first hframed hserial
    generalize s.dev.alarmTaken n a = d at *
    have hmild := d.causeOn_linkMild (.lnk n) 1 { code := alarmCause a, source := 4 * n.1, index := 0 } (some n) [n] false (by decide)
    refine .of_eq (exec_alarmReceived n a s) hexec ⟨?_, ?_, ?_, ?_⟩
    · rw [Dev.settled_link, hmild.alarm.1, hser]
    · rw [Dev.settled_link, hmild.alarm.2, hnow]
    · rw [Dev.settled_reg, hmild.2.1 _ (regPart_lnkAlarmLast n.2), hlast]
      · exact fun m => by simp only [ne_eq, Reg.lnkAlarmLast, Reg.lnkTripLast]; omega
      · exact fun m => by simp only [ne_eq, Reg.lnkAlarmLast, Reg.lnkEvents]; omega
    · rw [Dev.settled_bit]
      exact d.causeOn_lnkBit n 1 _ (some n) [n] false (by decide)
  case lost =>
    intro s n hstate hjudged hrun
    obtain ⟨hlost, hretry, hbit, hpilot⟩ := Dev.lose_shows hstate hjudged hrun
    generalize hlose : s.dev.lose n = e at *
    exact .of_eq (exec_linkLost n s) hlose ⟨hlost, hretry, by rw [Dev.settled_bit, hbit], hpilot⟩
  case notLost =>
    intro s n hjudged hrun
    refine .idle (exec_linkLost n s) (if_neg ?_)
    rintro ⟨-, hlost⟩
    exact absurd hlost (Nat.not_le.mpr (Dev.judgeMissing_badRun hjudged hrun))
  case identity =>
    intro s n r resp tag a data hstate hreq hfits hpurpose hresp hwait
    set d := s.dev.onLnk n fun l => { l with idReads := l.idReads ++ [data] } with hd
    have hexec : s.dev.response s.shown n resp tag a data = d.reqDone n := by
      rw [Dev.response_own (by rw [hstate]; rfl) hreq hfits (by rintro h; simp [h] at hpurpose), if_neg hresp,
        Dev.reqAnswered_identity hpurpose]
    obtain ⟨hlnk, hlinks, hregs⟩ := Dev.reqDone_shows (d := d) (n := n) (by simp [hd, hwait])
    refine .of_eq (exec_headRegResponse n resp tag a data s) hexec ⟨?_, ?_, ?_, ?_⟩
    · rw [Dev.settled_link, hlnk]
      simp [hd]
    · rw [Dev.settled_link, hlnk]
    · exact .settled fun m hm => (hlinks m hm).trans (Dev.LinksBut.onLnk (fun _ _ => rfl) m hm)
    · exact .settled hregs
  case rejected =>
    intro s n r tag a data hstate hreq hfits hpurpose
    have hexec : s.dev.response s.shown n 3 tag a data = s.dev.failTraining n := by
      rw [Dev.response_own (by rw [hstate]; rfl) hreq hfits (by rintro h; simp [h] at hpurpose), if_pos rfl,
        Dev.reqFailed_identity hpurpose]
    refine .of_eq (exec_headRegResponse n 3 tag a data s) hexec ⟨?_, ?_, ?_, ?_, ?_⟩
    · simp [Dev.failTraining, LinkLayer.stop]
    · simp [Dev.failTraining, LinkLayer.stop, secs]
    · exact Dev.settled_raise_bit _ (.lnk n) _ _ (by decide)
    · exact .settled (.raise (.onLnk fun _ _ => rfl))
    · exact .settled (.raise (.onLnk fun _ _ => rfl) (by simp [EvReg.addr]))
  case unfit =>
    intro s n resp tag a data h
    exact .idle (exec_headRegResponse n resp tag a data s) (Dev.response_unfit h)
  case noRepeat =>
    intro s n r hreq h
    refine .idle (exec_headRegRepeat n s) ?_
    simp only [Dev.repeatReq, hreq]
    refine if_neg ?_
    rintro ⟨hlate, hrep⟩
    exact h.elim (fun h => absurd hlate (Nat.not_le.mpr h)) fun h => by simp [h] at hrep
  case caps =>
    intro s n r resp tag a data htrained hreq hfits hpurpose hresp hwait
    set d := s.dev.onLnk n fun l => { l with headCaps := data } with hd
    have hexec : s.dev.response s.shown n resp tag a data = d.reqDone n := by
      rw [Dev.response_own (Dev.trained_framed htrained) hreq hfits (by simp [hpurpose]), if_neg hresp, hpurpose]
      rfl
    obtain ⟨hlnk, hlinks, hregs⟩ := Dev.reqDone_shows (d := d) (n := n) (by simp [hd, hwait])
    refine .of_eq (exec_headRegResponse n resp tag a data s) hexec ⟨?_, ?_, ?_, ?_⟩
    · rw [Dev.settled_link, hlnk]
      simp [hd]
    · rw [Dev.settled_link, hlnk]
    · exact .settled fun m hm => (hlinks m hm).trans (Dev.LinksBut.onLnk (fun _ _ => rfl) m hm)
    · exact .settled hregs
  case asked =>
    intro s n r hreq hlate hrep
    refine .of_eq (exec_headRegRepeat n s) (e := s.dev.onLnk n fun l =>
      { l with request := some { r with repeated := true, carry := true, since := s.dev.now } }) ?_ ⟨?_, ?_, ?_⟩
    · simp only [Dev.repeatReq, hreq]
      exact if_pos ⟨hlate, by simp [hrep]⟩
    · simp
    · exact .settled (.onLnk fun _ _ => rfl)
    · exact .settled (.onLnk fun _ _ => rfl)

end Sys2Proof.Machine
end


section
/-! SUPPORT. Over-current, the sense wire, the test pulse outputs and the S0 inputs. -/

namespace Sys2Proof.Machine

set_option Elab.async false

section
variable {d e : Dev} {as : List Nat}

theorem Dev.RegsBut.onS0 {k f} (h : d.RegsBut e as) : d.RegsBut (e.onS0 k f) as := h

theorem Dev.onS0_self (d : Dev) (k : Fin 4) (f : S0Input → S0Input) : (d.onS0 k f).s0.get k = f (d.s0.get k) := by
  rw [Dev.onS0_get, if_pos rfl]

theorem Dev.onTpo_self (d : Dev) (k : Fin 2) (f : TestPulse → TestPulse) : (d.onTpo k f).tpo.get k = f (d.tpo.get k) := by
  rw [Dev.onTpo_get, if_pos rfl]

/-- A counter of two words counts on in its low word. -/
theorem ofNat_pair_succ (lo hi : Word) :
    BitVec.ofNat 32 (lo.toNat + 2 ^ 32 * hi.toNat + 1) = BitVec.ofNat 32 (lo.toNat + 1) := by
  apply BitVec.eq_of_toNat_eq
  simp only [BitVec.toNat_ofNat]
  omega

end

section
variable {d : Dev} {n : LinkId} {ch : Fin 8}

/-- A run of over-current taken and counted. -/
def Dev.overRun (d : Dev) (n : LinkId) (ch : Fin 8) : Dev :=
  (d.onMet n fun m => { m with
    chans := m.chans.set ch.1 { (d.link n).met.chans.get ch with ocDone := true }, ocLap := m.ocLap + 1 }).count (Reg.metOcCnt n)

theorem Dev.overRun_shows :
    (d.overRun n ch).reg (Reg.metOcCnt n) = satWord ((d.reg (Reg.metOcCnt n)).toNat + 1) ∧ (d.overRun n ch).mode = d.mode := by
  simp [Dev.overRun]

theorem Dev.overcurrent_of (hdue : d.lapDue = false) (hch : ocChannel (d.role n) ch.1 = true) (hlim : d.ocLim n ≠ 0)
    (hdone : ((d.link n).met.chans.get ch).ocDone = false) (hrun : d.ocCount n ≤ ((d.link n).met.chans.get ch).ocRun)
    (hpos : 0 < ((d.link n).met.chans.get ch).ocRun) :
    d.overcurrent n ch =
      (d.overRun n ch).causeOn (.met n) 0 { code := 0x11, source := 4 * n.1 + 1, index := 0 } (some n) [n] := by
  rw [Dev.overcurrent, Dev.lapFirst_of_not_due hdue, if_pos ⟨hch, hlim, by simp [hdone], hrun, hpos⟩, Dev.overRun]

theorem Dev.causeOn_mode (d : Dev) (r : EvReg) (b : Nat) (c : Cause) (l : Option LinkId) (ns : List LinkId) (gone : Bool) :
    (d.causeOn r b c l ns gone).mode = d.mode := by
  rw [Dev.causeOn, Dev.trip_mode]
  simp

/-- SENSE_OPEN_NOW with its event. -/
def Dev.senseNoted (d : Dev) (n : LinkId) : Dev :=
  (d.onMet n fun m => { m with senseOpen := true, flags := { m.flags with senseOpen := true } }).raise (.met n) 1

theorem Dev.senseOpened_of (hdue : d.lapDue = false) (hrole : d.role n = .outlet) (hopen : (d.link n).met.senseOpen = false)
    (hheld : heldFor (d.link n).met.senseSince d.now (1000 * d.settingField (Reg.metXSense n) 16 16) = true) :
    d.senseOpened n = (d.senseNoted n).startStop n .senseOpen (4 * n.1 + 1) := by
  rw [Dev.senseOpened, Dev.lapFirst_of_not_due hdue, if_pos ⟨hrole, by simp [hopen], hheld⟩, Dev.senseNoted]

end

/-- Settles O25: each command acts on its channel, output or input alone; a stop that a sense wire begins is that of its session. -/
theorem metrologyRules : Obligations.MetrologyRules := by
  unfold Obligations.MetrologyRules
  refine ⟨?tooMuch, ?noOver, ?sense, ?noSense, ?senseStop, ?senseBack, ?noBack, ?start, ?noStart, ?noEnd, ?stop, ?level, ?glitch,
    ?noLevel, ?early, ?noPulse, ?noStuck, ?noFree, ?pulse, ?stuck, ?free⟩
  case tooMuch =>
    intro s n ch hdue hch hlim hdone hrun hpos
    have hexec := Dev.overcurrent_of hdue hch hlim hdone hrun hpos
    obtain ⟨hcnt, hmode⟩ := Dev.overRun_shows (d := s.dev) (n := n) (ch := ch)
    generalize s.dev.overRun n ch = d at *
    refine .of_eq (exec_overcurrentDecision n ch s) hexec ⟨?_, ?_, ?_⟩
    · rw [Dev.settled_bit]
      exact d.causeOn_bit (.met n) 0 _ _ _ _ (by decide) (by rw [show (EvReg.met n).addr = Reg.metEvents n from rfl, regPart_metEvents n.2]; rfl)
    · rw [Dev.settled_reg, d.causeOn_reg _ _ _ _ _ _ _ (by simp [Reg.metOcCnt, Reg.metEvents, EvReg.addr])
        (by rw [regPart_metOcCnt n.2]; rfl), hcnt]
    · exact (d.causeOn_mode _ _ _ _ _ _).trans hmode
  case noOver =>
    intro s n ch hdue h
    refine .idle (exec_overcurrentDecision n ch s) ?_
    rw [Dev.overcurrent, Dev.lapFirst_of_not_due hdue, if_neg]
    rintro ⟨-, hlim, hdone, hrun, -⟩
    obtain h | h | h := h
    · exact hlim h
    · simp [h] at hdone
    · exact absurd hrun (Nat.not_le.mpr h)
  case sense =>
    intro s n hdue hrole hopen hheld hlive
    have hexec := Dev.senseOpened_of hdue hrole hopen hheld
    rw [Dev.startStop, if_neg (by simp [Dev.senseNoted, hlive])] at hexec
    refine .of_eq (exec_senseOpen n s) hexec ⟨?_, ?_, ?_, ?_⟩
    · simp [Dev.senseNoted]
    · exact Dev.settled_raise_bit _ (.met n) _ _ (by decide)
    · simp [Dev.senseNoted]
    · exact .settled (.raise (.onMet fun _ _ => rfl) (by simp [EvReg.addr]))
  case noSense =>
    intro s n hdue h
    refine .idle (exec_senseOpen n s) ?_
    rw [Dev.senseOpened, Dev.lapFirst_of_not_due hdue, if_neg]
    rintro ⟨-, hopen, hheld⟩
    obtain h | h := h
    · simp [h] at hopen
    · exact absurd (h.symm.trans hheld) (by simp)
  case senseStop =>
    intro s n hdue hrole hopen hheld hlive hwhy
    have hexec := Dev.senseOpened_of hdue hrole hopen hheld
    rw [Dev.startStop_of_live _ _ (by simp [Dev.senseNoted, hlive])] at hexec
    have hveh : ((s.dev.senseNoted n).link n).veh = (s.dev.link n).veh := by simp [Dev.senseNoted]
    have hstop := Dev.beginStop_veh .senseOpen (4 * n.1 + 1) (d := s.dev.senseNoted n) (n := n) (by rw [hveh, hwhy])
    rw [hveh, show (s.dev.senseNoted n).now = s.dev.now by simp [Dev.senseNoted]] at hstop
    have hk := (s.dev.senseNoted n).beginStop_keeps n .senseOpen (4 * n.1 + 1)
    have hopened : ((s.dev.senseNoted n).link n).met.senseOpen = true := by simp [Dev.senseNoted]
    have hbit : (s.dev.senseNoted n).bit (Reg.metEvents n) 1 = true := Dev.raise_bit _ (.met n) _ _ (by decide)
    generalize (s.dev.senseNoted n).beginStop n .senseOpen (4 * n.1 + 1) = e at *
    refine .of_eq (exec_senseOpen n s) hexec ⟨?_, ?_, ?_, ?_, ?_, ?_⟩
    · rw [Dev.settled_link, hk.met n, hopened]
    · rw [Dev.settled_bit, hk.bit _ _ (by rw [regPart_metEvents n.2]; rfl), hbit]
    all_goals rw [Dev.settled_link, hstop, Vehicle.stopped]
  case senseBack =>
    intro s n hopen hheld
    refine .of_eq (exec_senseOpenClear n s) (if_pos ⟨hopen, hheld⟩) ⟨?_, ?_, ?_⟩
    · simp
    · exact .settled (.onMet fun _ _ => rfl)
    · exact .settled (.onMet fun _ _ => rfl)
  case noBack =>
    intro s n h
    refine .idle (exec_senseOpenClear n s) (if_neg ?_)
    rintro ⟨hopen, hheld⟩
    obtain h | h := h
    · simp [h] at hopen
    · exact absurd (h.symm.trans hheld) (by simp)
  case start =>
    intro s k hback hactive hfree hruns
    refine .of_eq (exec_tpoPulseStart k s) (if_pos ⟨hback, by simp [hactive], hfree, hruns⟩) ⟨?_, ?_⟩
    · rw [Dev.settled_tpo, Dev.tpoPin, Dev.onTpo_self, Dev.onTpo_self]
      simp [Dev.setting]
    · exact .settled (.via (Dev.tpoPin_keeps _ _) (.onTpo .rfl) rfl)
  case noStart =>
    intro s k h
    refine .idle (exec_tpoPulseStart k s) (if_neg ?_)
    rintro ⟨hback, hactive, hfree, hruns⟩
    obtain h | h | h | h := h
    · simp [h] at hback
    · simp [h] at hactive
    · exact absurd (h.symm.trans hruns) (by simp)
    · simp [h] at hfree
  case noEnd =>
    intro s k h
    refine .idle (exec_tpoPulseEnd k s) (if_neg ?_)
    rintro ⟨hactive, hpast⟩
    obtain h | h := h
    · simp [h] at hactive
    · simp [h] at hpast
  case stop =>
    intro s k hactive hpast
    refine .of_eq (exec_tpoPulseEnd k s) (if_pos ⟨hactive, hpast⟩) ⟨?_, ?_⟩
    · rw [Dev.settled_tpo, Dev.tpoPin, Dev.onTpo_self, Dev.onTpo_self]
      simp [Dev.setting]
    · exact .settled (.via (Dev.tpoPin_keeps _ _) (.onTpo .rfl) rfl)
  case level =>
    intro s k v hlevel hrun hactive
    have hexec : ¬((s.dev.s0.get k).level = v ∨ (!s.dev.recording) = true) := by simp [hlevel, hrun]
    refine .of_eq (exec_s0LevelChange k v s) ((if_neg hexec).trans (if_neg (by simp [hactive]))) ⟨?_, ?_⟩
    · rw [Dev.settled_s0, Dev.onS0_self]
    · exact .settled (.onS0 fun _ _ => rfl)
  case glitch =>
    intro s k v hlevel hrun hactive hjudged hon
    have hexec : ¬((s.dev.s0.get k).level = v ∨ (!s.dev.recording) = true) := by simp [hlevel, hrun]
    refine .of_eq (exec_s0LevelChange k v s) ((if_neg hexec).trans (if_pos (by simp [hactive, hjudged, hon]))) ⟨?_, ?_, ?_⟩
    · rw [Dev.settled_s0, Dev.raise_s0, Dev.countField_s0, Dev.onS0_self]
    · exact Dev.settled_raise_bit _ .s0 _ _ (by omega)
    · exact .settled (.raise (.countField (.onS0 fun _ _ => rfl) (by simp)) (by simp [EvReg.addr]))
  case noLevel =>
    intro s k v h
    exact .idle (exec_s0LevelChange k v s) (if_pos (h.imp_right fun h => by simp [h]))
  case early =>
    intro s k x hrun hon hactive hjudged hsince hlast hearly
    have hexec : ¬((s.dev.s0.get k).lastPulse.map fun t => decide (t + 62500 ≤ s.dev.now)).getD true = true := by
      simp [hlast, Nat.not_le.mpr hearly]
    refine .of_eq (exec_s0PulseCount k s) ((if_pos ⟨hrun, hon, hactive, by simp [hjudged], hsince⟩).trans (if_neg hexec)) ⟨?_, ?_, ?_⟩
    · rw [Dev.settled_s0, Dev.raise_s0, Dev.onS0_self]
    · exact Dev.settled_raise_bit _ .s0 _ _ (by omega)
    · exact .settled (.raise (.onS0 fun _ _ => rfl) (by simp [EvReg.addr]))
  case noPulse =>
    intro s k h
    refine .idle (exec_s0PulseCount k s) (if_neg ?_)
    rintro ⟨hrun, hon, hactive, hjudged, hsince⟩
    obtain h | h | h | h | h := h
    · exact absurd (h.symm.trans hrun) (by simp)
    · exact absurd (h.symm.trans hon) (by simp)
    · exact absurd (h.symm.trans hactive) (by simp)
    · simp [h] at hjudged
    · exact absurd hsince (Nat.not_le.mpr h)
  case noStuck =>
    intro s k h
    refine .idle (exec_s0Stuck k s) (if_neg ?_)
    rintro ⟨hrun, hon, hactive, hstuck, hsince⟩
    obtain h | h | h | h | h := h
    · exact absurd (h.symm.trans hrun) (by simp)
    · exact absurd (h.symm.trans hon) (by simp)
    · exact absurd (h.symm.trans hactive) (by simp)
    · simp [h] at hstuck
    · exact absurd hsince (Nat.not_lt.mpr h)
  case noFree =>
    intro s k h
    refine .idle (exec_s0StuckClear k s) (if_neg ?_)
    rintro ⟨hstuck, hactive, hsince⟩
    obtain h | h | h := h
    · simp [h] at hstuck
    · simp [h] at hactive
    · exact absurd hsince (Nat.not_le.mpr h)
  case pulse =>
    intro s k hrun hon hactive hjudged hsince hfree
    have hne : Reg.lioS0CntLo k ≠ Reg.lioS0CntHi k := by simp [Reg.lioS0CntLo, Reg.lioS0CntHi]
    refine .of_eq (exec_s0PulseCount k s) ((if_pos ⟨hrun, hon, hactive, by simp [hjudged], hsince⟩).trans (if_pos hfree)) ⟨?_, ?_, ?_, ?_⟩
    · rw [Dev.settled_s0, Dev.setReg_s0, Dev.setReg_s0, Dev.onS0_self, Dev.onS0_self]
    · rw [Dev.settled_s0, Dev.setReg_s0, Dev.setReg_s0, Dev.onS0_self]
    · rw [Dev.settled_reg, Dev.setReg_reg, if_neg hne, Dev.setReg_reg, if_pos rfl, ofNat_pair_succ]
    · exact .settled (.setReg (.setReg (.onS0 (.onS0 fun _ _ => rfl)) (by simp)) (by simp))
  case stuck =>
    intro s k hrun hon hactive hstuck hsince
    refine .of_eq (exec_s0Stuck k s) (if_pos ⟨hrun, hon, hactive, by simp [hstuck], hsince⟩) ⟨?_, ?_, ?_⟩
    · rw [Dev.settled_s0, Dev.raise_s0, Dev.onS0_self]
    · exact Dev.settled_raise_bit _ .s0 _ _ (by omega)
    · exact .settled (.raise (.onS0 fun _ _ => rfl) (by simp [EvReg.addr]))
  case free =>
    intro s k hstuck hactive hsince
    refine .of_eq (exec_s0StuckClear k s) (if_pos ⟨hstuck, by simp [hactive], hsince⟩) ⟨?_, ?_⟩
    · rw [Dev.settled_s0, Dev.onS0_self]
    · exact .settled (.onS0 fun _ _ => rfl)

end Sys2Proof.Machine
end


section
/-! SUPPORT. Demand intervals, the seal, held tariffs and the signing of records. -/

namespace Sys2Proof.Machine

set_option Elab.async false

section
variable {d : Dev} {n : LinkId}

/-! ### Demand -/

/-- A maximum of demand leaves the intervals that run. -/
theorem Dev.maxDemand_intervals (w cal : Nat) (r : Nat × Nat × Fin 4) :
    ((d.maxDemand n w cal r).link n).bill.fixed = (d.link n).bill.fixed ∧
      ((d.maxDemand n w cal r).link n).bill.sliding = (d.link n).bill.sliding := by
  unfold Dev.maxDemand
  split_ifs <;> simp

/-- The intervals that run are as before. -/
def Dev.SameIntervals (d e : Dev) (n : LinkId) : Prop :=
  (e.link n).bill.fixed = (d.link n).bill.fixed ∧ (e.link n).bill.sliding = (d.link n).bill.sliding

theorem Dev.demandValue_intervals (sliding : Bool) (uj secs : Nat) : d.SameIntervals (d.demandValue n sliding uj secs) n := by
  unfold Dev.demandValue
  extract_lets w r
  obtain ⟨hf, hs⟩ := Dev.maxDemand_intervals (d := d) (n := n) w (d.pacer.atTick d.now).cal r.1
  obtain ⟨hf', hs'⟩ := Dev.maxDemand_intervals (d := d.maxDemand n w (d.pacer.atTick d.now).cal r.1) (n := n) w (d.pacer.atTick d.now).cal r.2
  exact ⟨hf'.trans hf, hs'.trans hs⟩

/-- An interval that ends leaves the one of the other kind, and the next begins at its tick. -/
theorem Dev.mdEnd_fixed (hrole : d.role n = .outlet ∨ d.role n = .site) (hat : d.mdBoundary false = true)
    (hnew : (d.link n).bill.fixed.startTick ≠ d.now) :
    ((d.mdEnd n false).link n).bill.fixed = d.newDemand n [] ∧ ((d.mdEnd n false).link n).bill.sliding = (d.link n).bill.sliding := by
  unfold Dev.mdEnd
  extract_lets q uj actual len whole k subs d1 d1'
  have hq : q.startTick ≠ d.now := hnew
  have h1 : d.SameIntervals d1' n := by
    unfold d1'
    split_ifs
    · exact Dev.demandValue_intervals _ _ _
    · exact ⟨rfl, rfl⟩
  clear_value d1'
  rw [if_pos ⟨hrole, hat, hq⟩, if_neg (by decide), Dev.onBill_link, if_pos rfl]
  exact ⟨rfl, h1.2⟩

theorem Dev.mdEnd_sliding (hrole : d.role n = .outlet ∨ d.role n = .site) (hat : d.mdBoundary true = true)
    (hnew : (d.link n).bill.sliding.startTick ≠ d.now) :
    ((d.mdEnd n true).link n).bill.sliding.start = (d.ujAt n).1 ∧ ((d.mdEnd n true).link n).bill.sliding.startTick = d.now ∧
      ((d.mdEnd n true).link n).bill.sliding.subs.length ≤ d.field Reg.bilCfg 15 4 ∧
      ((d.mdEnd n true).link n).bill.fixed = (d.link n).bill.fixed := by
  unfold Dev.mdEnd
  extract_lets q uj actual len whole k subs d1 d1'
  have hq : q.startTick ≠ d.now := hnew
  have hsubs : subs.length ≤ k := List.length_take_le _ _
  have h1 : d.SameIntervals d1 n := by
    unfold d1
    split_ifs
    · exact Dev.demandValue_intervals _ _ _
    · exact ⟨rfl, rfl⟩
  clear_value d1 subs
  rw [if_pos ⟨hrole, hat, hq⟩, if_pos rfl, Dev.onBill_link, if_pos rfl]
  exact ⟨rfl, rfl, hsubs, h1.1⟩

/-! ### Signing -/

/-- A record is signed and its bytes wait for the NOR writer. -/
def Dev.HandedOver (d : Dev) (seq : Nat) (bytes : List Byte) : Prop :=
  (∀ q ∈ d.bill.records, q.seq = seq → q.signed = true) ∧ .inl (seq, bytes) ∈ d.recorder.norWait

theorem Dev.raise_norWait (d : Dev) (r : EvReg) (b : Nat) (w : Word) (t : Option TenantId) :
    (d.raise r b w t).recorder.norWait = d.recorder.norWait := by
  unfold Dev.raise Dev.logEvent
  extract_lets d1
  split_ifs <;> simp [d1]

theorem Dev.completeRecord_handedOver (seq : Nat) (bytes : List Byte) : (d.completeRecord seq bytes).HandedOver seq bytes := by
  unfold Dev.completeRecord Dev.keepOldKey
  constructor
  · simp only [Dev.onRec_bill, Dev.onSec_bill, Dev.onBilling_bill, List.mem_map]
    rintro q ⟨r, -, rfl⟩ hq
    split_ifs at hq ⊢ with h
    · rfl
    · exact absurd hq h
  · simp

variable {seq : Nat} {bytes : List Byte}

theorem Dev.HandedOver.completeRecord (h : d.HandedOver seq bytes) (k : Nat) (bs : List Byte) :
    (d.completeRecord k bs).HandedOver seq bytes := by
  obtain ⟨hsigned, hwaits⟩ := h
  unfold Dev.completeRecord Dev.keepOldKey
  constructor
  · simp only [Dev.onRec_bill, Dev.onSec_bill, Dev.onBilling_bill, List.mem_map]
    rintro q ⟨r, hr, rfl⟩ hq
    split_ifs at hq ⊢ with h
    · rfl
    · exact hsigned r hr hq
  · simp [hwaits]

theorem Dev.HandedOver.of_same {e : Dev} (h : d.HandedOver seq bytes) (hbill : e.bill = d.bill)
    (hnor : e.recorder.norWait = d.recorder.norWait) : e.HandedOver seq bytes := by
  simpa only [Dev.HandedOver, hbill, hnor] using h

theorem Dev.HandedOver.completeUnsignable (h : d.HandedOver seq bytes) (r : QueuedRecord) :
    (d.completeUnsignable r).HandedOver seq bytes := by
  unfold Dev.completeUnsignable
  extract_lets fl bs used d1
  have hused : used.HandedOver seq bytes := by
    unfold used
    split
    · have hk := d.consumePoison_keeps false (524288 + 128 * (r.seq % 1024) + ‹Nat›)
      exact h.of_same hk.bill (congrArg _ hk.recorder)
    · exact h
  have h1 : d1.HandedOver seq bytes := (hused.completeRecord r.seq bs).of_same (Dev.raise_bill _ _ _ _ _) (Dev.raise_norWait _ _ _ _ _)
  split
  · split_ifs
    · exact h1.of_same rfl rfl
    · exact h1
  · exact h1

theorem Dev.HandedOver.passUnsignable (h : d.HandedOver seq bytes) (k : Nat) : (d.passUnsignable k).HandedOver seq bytes := by
  induction k generalizing d with
  | zero => exact h
  | succ k ih =>
    rw [Dev.passUnsignable]
    split
    · split_ifs
      · exact ih (h.completeUnsignable _)
      · exact h
    · exact h

theorem Dev.HandedOver.request (h : d.HandedOver seq bytes) (use : CryptoUse) (cls : CryptoClass) (ops : List CryptoOp)
    (covered : Bool) (rank : Nat) : (d.request use cls ops covered rank).HandedOver seq bytes := by
  unfold Dev.request
  extract_lets r d1
  have h1 : d1.HandedOver seq bytes := by
    unfold d1
    split_ifs
    · exact h.of_same rfl rfl
    · exact h
  split_ifs
  · exact h1.of_same rfl rfl
  · exact h1.of_same (by simp) (by rw [Dev.raise_norWait]; simp)

theorem Dev.HandedOver.startSigning (h : d.HandedOver seq bytes) : d.startSigning.HandedOver seq bytes := by
  have h1 := h.passUnsignable d.bill.records.length
  unfold Dev.startSigning
  extract_lets d1
  split
  · split_ifs
    · exact h1
    · exact h1.request _ _ _ _ _
  · exact h1

theorem Dev.recordSigned_handedOver {r : QueuedRecord} (hfind : d.bill.records.find? (fun r => !r.signed) = some r)
    (hready : d.resultReady (.sign r.seq) = true) :
    d.recordSigned.HandedOver r.seq (signedPart (patch r.bytes 0x30 (hash16 d.bill.lastRecord)) ++
      padTo 96 (Config.sign384 (d.sec.signKey r.seq) (signedPart (patch r.bytes 0x30 (hash16 d.bill.lastRecord))))) := by
  rw [Dev.recordSigned, hfind]
  simp only
  rw [if_pos hready]
  exact (Dev.completeRecord_handedOver _ _).startSigning

end

/-! ### The seal -/

section
variable {d : Dev}

theorem Dev.trigger_mode (d : Dev) (t : ModeTrigger) : (d.trigger t).mode = d.mode := rfl

theorem Dev.raiseAlways_bit (d : Dev) (r : EvReg) {b : Nat} (w : Word) (t : Option TenantId) (hb : b < 32) :
    (d.raiseAlways r b w t).bit r.addr b = true := by
  rw [Dev.bit, Dev.raiseAlways_reg, if_pos rfl, bitOf_or_oneBit_self _ _ hb]

/-- Each link in use notes an open seal. -/
theorem Dev.sealNoted_keeps (d : Dev) (ns : List LinkId) (f : LinkBill → LinkBill) :
    d.Keeps (d.each ns fun d n => d.onBill n f) [.lbill] :=
  Dev.each_inv (P := fun e => d.Keeps e [.lbill]) .rfl fun _ _ _ he => .onBill he

theorem Dev.calDropped_keeps (d : Dev) (ns : List LinkId) (f : Metrology → Metrology) :
    d.Keeps (d.each ns fun d n => d.onMet n f) [.met] :=
  Dev.each_inv (P := fun e => d.Keeps e [.met]) .rfl fun _ _ _ he => .onMet he

/-- A seal that is no longer closed: counted, with the calendar and its event. -/
theorem Dev.sealTo_left {x : SealState} (hdue : d.lapDue = false) (hold : d.bill.sealState = .closed) (hx : x ≠ .closed) :
    (d.sealTo x).bill = { d.bill with sealState := x, unwatched := false } ∧
      (d.sealTo x).reg Reg.bilSealCnt = satWord ((d.reg Reg.bilSealCnt).toNat + 1) ∧
      (d.sealTo x).reg Reg.bilSealLast = BitVec.ofNat 32 d.pacer.cal ∧
      (d.sealTo x).bit Reg.bilEvents (if x = .opened then 0 else 2) = true ∧
      d.RegsBut (d.sealTo x) [Reg.bilSealCnt, Reg.bilSealLast, Reg.bilEvents] := by
  rw [Dev.sealTo, Dev.lapFirst_of_not_due hdue]
  extract_lets d1 d2
  rw [if_neg (by rw [hold]; exact hx), if_pos hold]
  have hk := Dev.sealNoted_keeps ((d1.count Reg.bilSealCnt).setReg Reg.bilSealLast (BitVec.ofNat 32 d.pacer.cal)) d1.usedLinks
    fun b => { b with sealOpen := true }
  have hbill : d2.bill = { d.bill with sealState := x, unwatched := false } := by
    unfold d2
    rw [hk.bill]
    simp [d1]
  have hcnt : d2.reg Reg.bilSealCnt = satWord ((d.reg Reg.bilSealCnt).toNat + 1) := by
    unfold d2
    rw [hk.anyReg]
    simp [d1, show Reg.bilSealCnt ≠ Reg.bilSealLast by decide]
  have hlast : d2.reg Reg.bilSealLast = BitVec.ofNat 32 d.pacer.cal := by
    unfold d2
    rw [hk.anyReg]
    simp
  have hregs : d.RegsBut d2 [Reg.bilSealCnt, Reg.bilSealLast, Reg.bilEvents] := by
    have h1 : d.RegsBut ((d1.count Reg.bilSealCnt).setReg Reg.bilSealLast (BitVec.ofNat 32 d.pacer.cal))
        [Reg.bilSealCnt, Reg.bilSealLast, Reg.bilEvents] :=
      .setReg (.count (fun _ _ => rfl) (by simp)) (by simp)
    exact h1.of_same fun a => hk.anyReg a
  clear_value d2
  refine ⟨?_, ?_, ?_, ?_, hregs.raiseAlways (by simp [EvReg.addr])⟩
  · rw [Dev.raiseAlways_bill, hbill]
  · rw [Dev.raiseAlways_reg, if_neg (by decide), hcnt]
  · rw [Dev.raiseAlways_reg, if_neg (by decide), hlast]
  · exact Dev.raiseAlways_bit _ .bil _ _ (by split <;> decide)

/-- The seal closed again, with its event, and the calibration that was written dropped. -/
def Dev.resealed (d : Dev) : Dev :=
  ((d.onBilling fun b => { b with sealState := .closed, unwatched := false }).raiseAlways .bil 1).each allLinks fun d n =>
    d.onMet n fun m => { m with calWrites := [] }

theorem Dev.resealed_keeps (d : Dev) :
    Dev.Keeps ((d.onBilling fun b => { b with sealState := .closed, unwatched := false }).raiseAlways .bil 1) d.resealed [.met] :=
  Dev.calDropped_keeps _ _ _

theorem Dev.resealed_shows (d : Dev) :
    d.resealed.bill.sealState = .closed ∧ d.resealed.bit Reg.bilEvents 1 = true ∧ d.resealed.mode = d.mode ∧
      d.RegsBut d.resealed [Reg.bilEvents] := by
  have hk := d.resealed_keeps
  refine ⟨?_, ?_, ?_, fun a ha => ?_⟩
  · rw [hk.bill, Dev.raiseAlways_bill, Dev.onBilling_bill]
  · rw [Dev.bit, hk.anyReg, ← Dev.bit]
    exact Dev.raiseAlways_bit _ .bil _ _ (by decide)
  · rw [hk.mode, Dev.raiseAlways_mode, Dev.onBilling_mode]
  · rw [hk.anyReg, Dev.raiseAlways_reg, if_neg (by simpa [EvReg.addr] using ha), Dev.onBilling_reg]

/-- The seal's inputs read. -/
def Dev.sealRead (d : Dev) (a b : Bool) : Dev :=
  let since := if d.bill.sealA = d.bill.sealB then d.bill.sealSince else d.now
  d.onBilling fun x => { x with sealA := a, sealB := b, sealSince := if a = b then since else d.now }

theorem exec_sealChange_ne {a b : Bool} (h : a ≠ b) (s : State) :
    exec (.sealChange a b) s = s.upd fun d => (d.sealRead a b).sealTo (if a then .closed else .opened) := by
  rw [exec_sealChange, execSealChange]
  exact congrArg s.upd (funext fun d => if_neg h)

theorem Dev.sealTo_closed (hdue : d.lapDue = false) (hold : d.bill.sealState ≠ .closed) :
    d.sealTo .closed =
      if d.resealed.mode = .maintenance then d.resealed.trigger (.toRunFromMaintenance false) else d.resealed := by
  rw [Dev.sealTo, Dev.lapFirst_of_not_due hdue]
  extract_lets d1 d2 d2'
  rw [if_neg hold.symm, if_neg hold, if_pos rfl]
  have hd : d2' = d.resealed := rfl
  rw [hd]

theorem Dev.sealTo_closed_shows (hdue : d.lapDue = false) (hold : d.bill.sealState ≠ .closed) :
    (d.sealTo .closed).bill.sealState = .closed ∧ (d.sealTo .closed).bit Reg.bilEvents 1 = true ∧
      (d.sealTo .closed).mode = d.mode ∧ d.RegsBut (d.sealTo .closed) [Reg.bilEvents] := by
  rw [Dev.sealTo_closed hdue hold]
  obtain ⟨hstate, hbit, hmode, hregs⟩ := d.resealed_shows
  split_ifs
  · refine ⟨?_, ?_, ?_, hregs.onPower⟩
    · rw [Dev.trigger, Dev.onPower_bill, hstate]
    · rw [Dev.trigger, Dev.bit, Dev.onPower_reg, ← Dev.bit, hbit]
    · rw [Dev.trigger_mode, hmode]
  · exact ⟨hstate, hbit, hmode, hregs⟩

end

/-! ### A held tariff -/

section
variable {d : Dev} {k : Fin 16}

theorem Dev.setSlot_get (x : Option HoldSlot) : (d.setSlot k x).cfg.slots.get k = x := by
  simp [Dev.setSlot, Vector.get_eq_getElem]

/-- The slot of a discarded hold of a tariff is free. -/
theorem Dev.discardHold_slot {h : HoldSlot} (hslot : d.cfg.slots.get k = some h) (hfn : h.fn = 2) :
    (d.discardHold k).cfg.slots.get k = none := by
  rw [Dev.discardHold, hslot]
  simp only [hfn]
  have hfree := Dev.setSlot_get (d := d.each h.saved fun d p => d.setReg p.1 p.2) (k := k) none
  generalize (d.each h.saved fun d p => d.setReg p.1 p.2).setSlot k none = e at *
  rw [show BitVec.toNat (2 : Byte) = 2 from rfl]
  cases tenantOfNat h.inst.toNat <;> exact hfree

theorem Dev.slotFor_fn {fn : Byte} {inst : BitVec 10} {h : HoldSlot} (hfor : d.slotFor fn inst = some k)
    (hslot : d.cfg.slots.get k = some h) : h.fn = fn ∧ h.inst = inst := by
  have := List.find?_some hfor
  simpa [hslot] using this

/-- A held tariff discarded, its interim values gone (R203). -/
def Dev.tariffDropped (d : Dev) (t : TenantId) (k : Fin 16) : Dev :=
  (((d.discardHold k).onTenant t fun x => { x with interimImp := Vector.replicate 16 0, interimExp := Vector.replicate 16 0 }).fnStat 0 2
    (BitVec.ofNat 10 t.1)).raise (.bilT t) 5

theorem Dev.tariffDropped_shows {t : TenantId} {h : HoldSlot} (hslot : d.cfg.slots.get k = some h) (hfn : h.fn = 2) :
    (d.tariffDropped t k).cfg.stat = { refuse := 0, fn := 2, inst := BitVec.ofNat 10 t.1 } ∧
      (d.tariffDropped t k).cfg.slots.get k = none ∧ ((d.tariffDropped t k).tenant t).interimImp = Vector.replicate 16 0 ∧
      ((d.tariffDropped t k).tenant t).interimExp = Vector.replicate 16 0 ∧ (d.tariffDropped t k).bit (Reg.bilTEvents t) 5 = true := by
  have hfree := Dev.discardHold_slot hslot hfn
  unfold Dev.tariffDropped Dev.fnStat
  generalize d.discardHold k = e at *
  refine ⟨by simp, by simpa using hfree, by simp, by simp, Dev.raise_bit _ (.bilT t) _ _ (by decide)⟩

end

/-! ### The commands -/

/-- Settles O26: intervals, seal and held tariff act on the state as it is where no lap boundary is due; a signed record stays
signed and queued through the start of the next one. -/
theorem billingRules : Obligations.BillingRules := by
  unfold Obligations.BillingRules
  refine ⟨?fixed, ?sliding, ?between, ?equal, ?closed, ?opened, ?noFault, ?fault, ?expired, ?notExpired, ?noRecord, ?signed, ?cursor⟩
  case fixed =>
    intro s n hrole hat hnew
    have h := Dev.mdEnd_fixed hrole hat hnew
    generalize hend : s.dev.mdEnd n false = e at *
    exact .of_eq (exec_mdIntervalEnd n false s) hend h
  case sliding =>
    intro s n hrole hat hnew
    have h := Dev.mdEnd_sliding hrole hat hnew
    generalize hend : s.dev.mdEnd n true = e at *
    exact .of_eq (exec_mdIntervalEnd n true s) hend h
  case between =>
    intro s n k hat
    refine .idle (exec_mdIntervalEnd n k s) (if_neg ?_)
    rintro ⟨-, h, -⟩
    exact absurd (hat.symm.trans h) (by simp)
  case equal =>
    intro s a
    exact .of_eq (exec_sealChange a a s) (if_pos rfl) ⟨rfl, rfl, rfl, .settled (.onBilling .rfl)⟩
  case closed =>
    intro s hdue hstate
    obtain ⟨hclosed, hbit, hmode, hregs⟩ := Dev.sealTo_closed_shows (d := s.dev.sealRead true false) hdue hstate
    have hread : s.dev.RegsBut (s.dev.sealRead true false) [] := .onBilling fun _ _ => rfl
    generalize hto : (s.dev.sealRead true false).sealTo .closed = e at *
    refine .of_eq (exec_sealChange_ne (by decide) s) hto ⟨hclosed, ?_, hmode, .settled fun a ha => ?_⟩
    · rw [Dev.settled_bit, hbit]
    · rw [hregs a ha, hread a (by simp)]
  case opened =>
    intro s hdue hstate
    obtain ⟨hbill, hcnt, hlast, hbit, hregs⟩ := Dev.sealTo_left (d := s.dev.sealRead false true) (x := .opened) hdue hstate (by decide)
    have hread : ∀ a, (s.dev.sealRead false true).reg a = s.dev.reg a := fun _ => rfl
    generalize hto : (s.dev.sealRead false true).sealTo .opened = e at *
    refine .of_eq (exec_sealChange_ne (by decide) s) hto ⟨?_, ?_, ?_, ?_, ?_, ?_, .settled fun a ha => ?_⟩
    · rw [Dev.settled_bill, hbill]
    · rw [Dev.settled_bill, hbill]
      rfl
    · rw [Dev.settled_bill, hbill]
      rfl
    · rw [Dev.settled_reg, hcnt, hread]
    · rw [Dev.settled_reg, hlast]
      rfl
    · rw [Dev.settled_bit]
      exact hbit
    · rw [hregs a ha, hread]
  case noFault =>
    intro s h
    refine .idle (exec_sealFault s) (if_neg ?_)
    rintro ⟨heq, hlate⟩
    exact h.elim (· heq) fun h => absurd hlate (Nat.not_lt.mpr h)
  case fault =>
    intro s hdue heq hlate hstate
    obtain ⟨hbill, hcnt, hlast, hbit, hregs⟩ := Dev.sealTo_left (x := .fault) hdue hstate (by decide)
    generalize hto : s.dev.sealTo .fault = e at *
    refine .of_eq (exec_sealFault s) ((if_pos ⟨heq, hlate⟩).trans hto) ⟨?_, ?_, ?_, ?_, .settled hregs⟩
    · rw [Dev.settled_bill, hbill]
    · rw [Dev.settled_bit]
      exact hbit
    · rw [Dev.settled_reg, hcnt]
    · rw [Dev.settled_reg, hlast]
  case expired =>
    intro s t k h hdue hheld hpast hat hfor hslot hstate
    obtain ⟨hfn, -⟩ := Dev.slotFor_fn hfor hslot
    have hshows := Dev.tariffDropped_shows (t := t) hslot hfn
    have hfilter : ((s.dev.slotFor 2 (BitVec.ofNat 10 t.1)).filter fun k =>
        s.dev.cfg.slots.get k |>.any fun h => h.state == .held) = some k := by
      rw [hfor]
      simp [hslot, hstate]
    refine .of_eq (e := s.dev.tariffDropped t k) (exec_tariffHoldExpiry t s) ?_ ?_
    · simp only [Dev.lapFirst_of_not_due hdue]
      rw [if_pos ⟨by simp [Dev.holdExpired, hheld, secs, ← mul_assoc, hpast], hat⟩, hfilter]
      rfl
    · generalize s.dev.tariffDropped t k = e at *
      obtain ⟨hstat, hfree, himp, hexp, hbit⟩ := hshows
      exact ⟨hstat, hfree, himp, hexp, by rw [Dev.settled_bit, hbit]⟩
  case notExpired =>
    intro s t hdue h
    refine .idle (exec_tariffHoldExpiry t s) ?_
    simp only [Dev.lapFirst_of_not_due hdue]
    rw [if_neg]
    rintro ⟨hexp, hat⟩
    exact h.elim (fun h => absurd (h.symm.trans hexp) (by simp)) (· hat)
  case noRecord =>
    intro s hnone
    exact .idle (exec_recordSigned s) (by rw [Dev.recordSigned, hnone])
  case signed =>
    intro s r hfind hready
    obtain ⟨hsigned, hwaits⟩ := Dev.recordSigned_handedOver hfind hready
    generalize hexec : s.dev.recordSigned = e at *
    refine .of_eq (exec_recordSigned s) hexec ⟨hsigned, ?_⟩
    rintro body rfl
    exact hwaits
  case cursor =>
    intro s w hrun
    refine .of_eq (exec_recCursorWrite w s) (Dev.hosted_of_recording _ hrun) ⟨by simp, ?_⟩
    exact .settled (.setReg (fun _ _ => rfl) (by simp))

end Sys2Proof.Machine
end


section
/-! SUPPORT. The site budget (R218 to R231). -/

namespace Sys2Proof.Machine

set_option Elab.async false

section
variable {d : Dev}

/-- A budget that differs from the one in force waits for the next tick or for force (R223). -/
theorem Dev.setBudget_alloc :
    d.setBudget.alloc =
      if d.alloc.inForce < d.budgetTerm then { d.alloc with raise := some d.budgetTerm, target := none }
      else if d.budgetTerm < d.alloc.inForce then { d.alloc with target := some d.budgetTerm, raise := none }
      else { d.alloc with target := none, raise := none } := by
  unfold Dev.setBudget
  extract_lets b
  split_ifs <;> rfl

theorem Dev.view_alcUtilLimit (e : Dev) :
    e.view Reg.alcUtilLimit = BitVec.ofNat 32 ((e.alloc.limit.map UtilLimit.kw).getD 0xFFFF) := rfl

theorem Dev.view_alcUtilExpiry (e : Dev) :
    e.view Reg.alcUtilExpiry = BitVec.ofNat 32 ((e.alloc.limit.map UtilLimit.expiry).getD 0) := rfl

/-- ALC_HOST_LIMIT written, its term not yet the budget's. -/
def Dev.hostLimitSet (d : Dev) (w : Word) : Dev := d.setReg Reg.alcHostLimit (BitVec.ofNat 32 (fieldOf w 0 16))

theorem Completes.hostLimit {s : State} {w : Word} {a : Allocation} (hrun : s.dev.recording = true)
    (ha : (s.dev.hostLimitSet w).setBudget.alloc = a) :
    Completes (.hostLimitWrite w) s fun e =>
      e.reg Reg.alcHostLimit = BitVec.ofNat 32 (fieldOf w 0 16) ∧ e.alloc = a ∧ s.dev.RegsBut e [Reg.alcHostLimit] := by
  have hregs : s.dev.RegsBut (s.dev.hostLimitSet w) [Reg.alcHostLimit] := .setReg (fun _ _ => rfl) (by simp)
  refine .of_eq (e := (s.dev.hostLimitSet w).setBudget) (exec_hostLimitWrite w s) (Dev.hosted_of_recording _ hrun) ⟨?_, ha, .settled ?_⟩
  · rw [Dev.settled_reg, Dev.setBudget_reg, Dev.hostLimitSet, Dev.setReg_reg, if_pos rfl]
  · exact hregs.of_same fun a => Dev.setBudget_reg _ a

variable {n : LinkId}

/-- A cut that was not followed in REDUCE_MS, with its event. -/
def Dev.cutLate (d : Dev) (n : LinkId) : Dev :=
  (d.onOut n fun x => { x with stopDone := true }).raise .alc 4 (BitVec.ofNat 32 n.1)

theorem Dev.cutLate_shows (d : Dev) (n : LinkId) :
    ((d.cutLate n).link n).veh = (d.link n).veh ∧ (d.cutLate n).now = d.now ∧ ((d.cutLate n).link n).out.stopDone = true ∧
      ((d.cutLate n).link n).out.pending = (d.link n).out.pending ∧ (d.cutLate n).bit Reg.alcEvents 4 = true :=
  ⟨by simp [Dev.cutLate], by simp [Dev.cutLate], by simp [Dev.cutLate], by simp [Dev.cutLate], Dev.raise_bit _ .alc _ _ (by decide)⟩

theorem Dev.refreshReq_out (d : Dev) (n : LinkId) :
    ((d.refreshReq n).link n).out = { (d.link n).out with req := satTo 16 (d.reqOf n) } := by
  rw [Dev.refreshReq, Dev.setReg_link, Dev.onOut_link, if_pos rfl]

/-- A stop leaves the tokens of its outlet. -/
theorem Dev.beginStop_out (why : StopReason) (rank : Nat) :
    ((d.beginStop n why rank).link n).out.stopDone = (d.link n).out.stopDone ∧
      ((d.beginStop n why rank).link n).out.pending = (d.link n).out.pending := by
  unfold Dev.beginStop
  extract_lets v
  split_ifs
  · simp
  · exact ⟨rfl, rfl⟩
  · rw [Dev.refreshReq_out]
    simp [Dev.toState]

/-- A limit that has lapsed, with its event. -/
def Dev.limitLapsed (d : Dev) : Dev := (d.onAlloc fun a => { a with limit := none, expired := true }).raise .alc 3

theorem Dev.limitLapsed_shows (d : Dev) :
    d.limitLapsed.alloc.limit = none ∧ d.limitLapsed.alloc.expired = true ∧ d.limitLapsed.bit Reg.alcEvents 3 = true ∧
      d.RegsBut d.limitLapsed [Reg.alcEvents] :=
  ⟨by simp [Dev.limitLapsed], by simp [Dev.limitLapsed], Dev.raise_bit _ .alc _ _ (by decide),
    .raise (.onAlloc fun _ _ => rfl) (by simp [EvReg.addr])⟩

end

/-- Settles O29: the budget's own updates name what waits; a stop for tokens that were not given back is that of its session. -/
theorem budgetRules : Obligations.BudgetRules := by
  unfold Obligations.BudgetRules
  refine ⟨?credited, ?stop, ?notCredited, ?noStop, ?equal, ?off, ?more, ?less, ?start, ?early, ?lasting, ?unfit, ?lapse, ?inForce⟩
  case credited =>
    intro s n hpending hdone hpoint hwithin hhalted
    refine .of_eq (exec_tokensCredited n s) (if_pos ⟨hpending, by simp [hdone], by simp [hhalted], hpoint, hwithin⟩) ⟨?_, ?_, ?_, ?_⟩
    · simp [Dev.donorCredited]
    · have h1 : s.dev.LinksBut (s.dev.onOut n fun x => { x with pending := 0 }) n := .onOut fun _ _ => rfl
      exact .settled (h1.of_same fun _ => rfl)
    · intro x f hf
      simp [Dev.donorCredited, Vector.get_eq_getElem] at hf ⊢
      simp [hf]
    · exact .settled (.onAlloc (.onOut .rfl))
  case stop =>
    intro s n hpending hdone hhalted hlate hlive hwhy
    obtain ⟨hveh, hnow, hstop, hpend, hbit⟩ := s.dev.cutLate_shows n
    have hexec : s.dev.reduceStop n = (s.dev.cutLate n).beginStop n .trip (vehRank n) := by
      rw [← Dev.startStop_of_live _ _ (by rw [hveh, hlive])]
      exact if_pos ⟨hpending, by simp [hdone], by simp [hhalted], hlate⟩
    generalize s.dev.cutLate n = d at *
    have hstopped := Dev.beginStop_veh .trip (vehRank n) (d := d) (n := n) (by rw [hveh, hwhy])
    obtain ⟨hdone', hpend'⟩ := Dev.beginStop_out .trip (vehRank n) (d := d) (n := n)
    have hk := d.beginStop_keeps n .trip (vehRank n)
    generalize d.beginStop n .trip (vehRank n) = e at *
    refine .of_eq (exec_reduceTimeout n s) hexec ⟨?_, ?_, ?_, ?_, ?_, ?_⟩
    · rw [Dev.settled_bit, hk.bit _ _ (by rfl), hbit]
    · rw [Dev.settled_link, hdone', hstop]
    · rw [Dev.settled_link, hpend', hpend]
    all_goals rw [Dev.settled_link, hstopped, Vehicle.stopped]
  case notCredited =>
    intro s n h
    refine .idle (exec_tokensCredited n s) (if_neg ?_)
    rintro ⟨hpending, hdone, hhalted, hpoint, hwithin⟩
    obtain h | h | h | h | h := h
    · exact hpending h
    · simp [h] at hdone
    · exact absurd (h.symm.trans hpoint) (by simp)
    · exact absurd (h.symm.trans hwithin) (by simp)
    · simp [h] at hhalted
  case noStop =>
    intro s n h
    refine .idle (exec_reduceTimeout n s) (if_neg ?_)
    rintro ⟨hpending, hdone, hhalted, hlate⟩
    obtain h | h | h | h := h
    · exact hpending h
    · simp [h] at hdone
    · simp [h] at hhalted
    · exact absurd hlate (Nat.not_le.mpr h)
  case equal =>
    intro s w hrun hterm
    refine .hostLimit hrun (Dev.setBudget_alloc.trans ?_)
    rw [if_neg, if_neg]
    · rfl
    · exact Nat.not_lt.mpr hterm.ge
    · exact Nat.not_lt.mpr hterm.le
  case off =>
    intro s w hrun
    exact .idle (exec_hostLimitWrite w s) (if_neg (by simp [hrun]))
  case more =>
    intro s w hrun hterm
    exact .hostLimit hrun (Dev.setBudget_alloc.trans (if_pos hterm))
  case less =>
    intro s w hrun hterm
    exact .hostLimit hrun (Dev.setBudget_alloc.trans ((if_neg (Nat.lt_asymm hterm)).trans (if_pos hterm)))
  case start =>
    intro s l hwait hset hcal
    have hexec : s.dev.limitStart = (s.dev.onAlloc fun a => { a with limit := some l, waiting := none, expired := false }).setBudget := by
      rw [Dev.limitStart, hwait]
      exact if_pos ⟨hset, hcal⟩
    obtain ⟨hlimit, hwaiting, hexp⟩ :=
      Dev.setBudget_limit (s.dev.onAlloc fun a => { a with limit := some l, waiting := none, expired := false })
    have hk : s.dev.Keeps _ [.alloc] := .via
      (Dev.setBudget_keeps (s.dev.onAlloc fun a => { a with limit := some l, waiting := none, expired := false })) (.onAlloc .rfl) rfl
    generalize (s.dev.onAlloc fun a => { a with limit := some l, waiting := none, expired := false }).setBudget = e at *
    refine .of_eq (exec_utilLimitStart s) hexec ⟨hlimit, hwaiting, hexp, ?_, ?_, hk.settled⟩
    · rw [Dev.view_alcUtilLimit, Dev.settled_alloc, hlimit]
      rfl
    · rw [Dev.view_alcUtilExpiry, Dev.settled_alloc, hlimit]
      rfl
  case early =>
    intro s l hwait hset hcal
    refine .idle (exec_utilLimitStart s) ?_
    rw [Dev.limitStart, hwait]
    exact if_neg fun h => absurd h.2 (Nat.not_le.mpr hcal)
  case lasting =>
    intro s l hlimit hset hcal
    refine .idle (exec_utilLimitExpiry s) ?_
    rw [Dev.limitExpiry, hlimit]
    exact if_neg fun h => absurd h.2 (Nat.not_le.mpr hcal)
  case unfit =>
    intro s b htarget hb
    refine .idle (exec_budgetInForce s) ?_
    rw [Dev.lowerBudget, htarget]
    exact if_neg (Nat.not_le.mpr hb)
  case lapse =>
    intro s l hlimit hset hcal
    obtain ⟨hnone, hlapsed, hbit, hregs⟩ := s.dev.limitLapsed_shows
    have hexec : s.dev.limitExpiry = s.dev.limitLapsed.setBudget := by
      rw [Dev.limitExpiry, hlimit]
      exact if_pos ⟨hset, hcal⟩
    generalize s.dev.limitLapsed = d at *
    obtain ⟨hlim, -, hexp⟩ := d.setBudget_limit
    have hk := d.setBudget_keeps
    generalize d.setBudget = e at *
    refine .of_eq (exec_utilLimitExpiry s) hexec ⟨?_, ?_, ?_, ?_, .settled (hregs.of_same fun a => hk.anyReg a)⟩
    · rw [Dev.settled_alloc, hlim, hnone]
    · rw [Dev.settled_alloc, hexp, hlapsed]
    · rw [Dev.settled_bit, Dev.bit, hk.anyReg, ← Dev.bit, hbit]
    · rw [Dev.view_alcUtilLimit, Dev.settled_alloc, hlim, hnone]
      rfl
  case inForce =>
    intro s b htarget hb
    have hexec : s.dev.lowerBudget = (s.dev.onAlloc fun a => { a with inForce := b, target := none }).raise .alc 2 (BitVec.ofNat 32 b) := by
      rw [Dev.lowerBudget, htarget]
      exact if_pos hb
    refine .of_eq (exec_budgetInForce s) hexec ⟨?_, ?_, ?_⟩
    · simp
    · exact Dev.settled_raise_bit _ .alc _ _ (by decide)
    · exact .settled (.raise (.onAlloc fun _ _ => rfl) (by simp [EvReg.addr]))

end Sys2Proof.Machine
end


section
/-! SUPPORT. The steps of a withdrawal, an assignment and a release. -/

namespace Sys2Proof.Machine

set_option Elab.async false

section
variable {d : Dev} {g : LinkId}

/-! ### Contactors -/

theorem getLsbD_ofNat_two_pow (i k : Fin 16) : (BitVec.ofNat 16 (2 ^ k.1)).getLsbD i.1 = decide (k = i) := by
  rw [BitVec.getLsbD_ofNat, Nat.testBit_two_pow]
  simp [Fin.ext_iff]

/-- A contactor commanded open is open, and the others that are open stay open. -/
theorem Dev.command_open (i k : Fin 16) (h : (d.link g).cmd.close.getLsbD i.1 = false ∨ k = i) :
    ((d.command g k false).link g).cmd.close.getLsbD i.1 = false := by
  rw [Dev.command]
  by_cases hsame : ((d.link g).cmd.close.getLsbD k.1 == false || (false && d.warned)) = true
  · rw [if_pos hsame]
    obtain h | rfl := h
    · exact h
    · simpa using hsame
  · rw [if_neg hsame, Dev.onCon_link, if_pos rfl, Dev.onCmd_link, if_pos rfl, if_neg (by decide), BitVec.getLsbD_and,
      BitVec.getLsbD_not, getLsbD_ofNat_two_pow]
    obtain h | rfl := h
    · rw [h, Bool.false_and]
    · simp

/-- All contactors of a link commanded open. -/
theorem Dev.openAll_close : ((d.openAll g).link g).cmd.close = 0 := by
  refine BitVec.eq_of_getLsbD_eq fun i hi => ?_
  rw [show (0 : BitVec 16) = 0#16 from rfl, BitVec.getLsbD_zero]
  refine Dev.each_once (x := (⟨i, hi⟩ : Fin 16)) (R := fun _ => True) (Q := fun e => (e.link g).cmd.close.getLsbD i = false)
    (List.mem_finRange _) (List.nodup_finRange 16) trivial (fun _ _ _ _ => trivial) ?_ ?_
  · exact fun e _ => Dev.command_open (⟨i, hi⟩ : Fin 16) _ (.inr rfl)
  · exact fun e y _ he => Dev.command_open (⟨i, hi⟩ : Fin 16) y (.inl he)

/-! ### Withdrawal -/

theorem Dev.lowerReason_slots (x : Fin 16) (hit : Exchange → Bool) (code : Nat) :
    (d.lowerReason x hit code).alloc.slots = d.alloc.slots := by
  unfold Dev.lowerReason
  split
  · split_ifs <;> rfl
  · rfl

/-- Exchanges that are not met are not aborted. -/
theorem Dev.abortWhere_none {hit : Exchange → Bool} {code : Nat}
    (h : ∀ x e, d.alloc.slots.get x = some e → hit e = false) : d.Keeps (d.abortWhere hit code) [.alloc] := by
  have hinv : d.Keeps (d.abortWhere hit code) [.alloc] ∧ (d.abortWhere hit code).alloc.slots = d.alloc.slots := by
    unfold Dev.abortWhere
    refine Dev.each_inv (P := fun e => d.Keeps e [.alloc] ∧ e.alloc.slots = d.alloc.slots) ⟨.rfl, rfl⟩ fun e x _ he => ?_
    obtain ⟨hk, hslots⟩ := he
    cases hx : e.alloc.slots.get x with
    | some f =>
      simp only [h x f (hslots ▸ hx), Bool.false_eq_true, if_false]
      exact ⟨hk, hslots⟩
    | none => exact ⟨.via (Dev.lowerReason_keeps e x hit code) hk rfl, (Dev.lowerReason_slots x hit code).trans hslots⟩
  exact hinv.1

theorem Dev.slotOf_none (h : d.slotOf g = none) {x : Fin 16} {e : Exchange} (hx : d.alloc.slots.get x = some e) : e.group ≠ g := by
  have := List.find?_eq_none.mp h x (List.mem_finRange x)
  simpa [hx] using this

/-- A group without owner and in no exchange is withdrawn. -/
theorem Dev.withdraw_shows (why : WithdrawWhy) (hslot : d.slotOf g = none) (hstate : (d.link g).group.state ≠ .withdrawn)
    (howner : (d.link g).group.owner = none) :
    ((d.withdraw g why).link g).group.state = .withdrawn ∧ ((d.withdraw g why).link g).group.why = why ∧
      ((d.withdraw g why).link g).group.breakAt = some d.now ∧ (d.withdraw g why).bit Reg.alcEvents 5 = true := by
  have hk := Dev.abortWhere_none (d := d) (hit := fun e => e.group == g) (code := if why = .trip then 7 else 9)
    fun x e he => by simpa using Dev.slotOf_none hslot he
  unfold Dev.withdraw
  extract_lets d1
  have hgroup : (d1.link g).group = (d.link g).group := hk.group g
  have hnow : d1.now = d.now := hk.now
  clear_value d1
  rw [if_pos (by rw [hgroup]; exact hstate)]
  unfold Dev.takeOut
  extract_lets owner d2
  have hnone : owner = none := by rw [show owner = (d1.link g).group.owner from rfl, hgroup, howner]
  rw [hnone]
  refine ⟨by simp [d2], by simp [d2], by simp [d2, Dev.dropSeg, hnow], Dev.raise_bit _ .alc _ _ (by decide)⟩

end

/-- All contactors of a group commanded open, with its group changed. -/
theorem Dev.openAll_group (d : Dev) (g : LinkId) (f : Group → Group) :
    (((d.openAll g).onGroup g f).link g).group = f (d.link g).group ∧ (((d.openAll g).onGroup g f).link g).cmd.close = 0 ∧
      (∀ as, d.RegsBut ((d.openAll g).onGroup g f) as) := by
  have hk := d.openAll_keeps g
  refine ⟨?_, ?_, fun as => .onGroup fun a _ => hk.anyReg a⟩
  · rw [Dev.onGroup_link, if_pos rfl, hk.group g]
  · rw [Dev.onGroup_link, if_pos rfl]
    exact Dev.openAll_close

/-- Settles O30: each command acts on its group in its own step, and opens contactors through the same command. -/
theorem groupRules : Obligations.GroupRules := by
  unfold Obligations.GroupRules
  refine ⟨?ready, ?unbroken, ?cause, ?busy, ?unassigned, ?unreleased, ?undead, ?unjoined, ?noLow, ?noOpen, ?noFree, ?notReady, ?break_,
    ?force, ?clear, ?idle, ?prepare, ?join, ?low, ?lowForce, ?dead, ?freed⟩
  case ready =>
    intro s g h
    refine .idle (exec_groupNotReady g s) (if_neg ?_)
    rintro ⟨hrole, htrained, hbit, hsince⟩
    obtain h | h | h | h := h
    · exact h hrole
    · exact absurd (h.symm.trans htrained) (by simp)
    · simp [h] at hbit
    · simp [h] at hsince
  case unbroken =>
    intro s g h
    exact .idle (exec_withdrawOpen g s) (by rw [Dev.breakGroup, h])
  case cause =>
    intro s g h
    refine .idle (exec_withdrawEnd g s) (if_neg ?_)
    rintro ⟨hstate, hheld, hlatch⟩
    obtain h | h | h := h
    · exact h hstate
    · exact absurd (h.symm.trans hheld) (by simp)
    · rw [Option.isNone_iff_eq_none] at hlatch
      simp [hlatch] at h
  case busy =>
    intro s g h
    refine .idle (exec_groupIdleOff g s) (if_neg ?_)
    rintro ⟨hrole, hstate, hassign, hidle⟩
    obtain h | h | h | h := h
    · exact h hrole
    · exact h hstate
    · rw [Option.isNone_iff_eq_none] at hassign
      simp [hassign] at h
    · exact absurd hidle (Nat.not_le.mpr h)
  case unassigned =>
    intro s g c h hc
    simp only [List.mem_cons, List.not_mem_nil, or_false] at hc
    obtain rfl | rfl := hc
    · exact .idle (exec_assignDischarged g s) (by rw [Dev.assignPrepare, h])
    · exact .idle (exec_assignOwned g s) (by rw [Dev.assignJoin, h])
  case unreleased =>
    intro s g c h hc
    simp only [List.mem_cons, List.not_mem_nil, or_false] at hc
    obtain rfl | rfl | rfl := hc
    · exact .idle (exec_releaseCurrentLow g s) (by rw [Dev.releaseLow, h])
    · exact .idle (exec_releaseDischarged g s) (by rw [Dev.releaseOpen, h])
    · exact .idle (exec_releaseFreed g s) (by rw [Dev.releaseDone, h])
  case undead =>
    intro s g h
    refine .idle (exec_assignDischarged g s) ?_
    unfold Dev.assignPrepare
    split
    · refine if_neg ?_
      rintro ⟨hheld, hwarned⟩
      exact h.elim (fun h => absurd (h.symm.trans hheld) (by simp)) fun h => by simp [h] at hwarned
    · rfl
  case unjoined =>
    intro s g o k a h hfb
    exact .idle (exec_assignOwned g s) (by simp [Dev.assignJoin, h, hfb])
  case noLow =>
    intro s g a h hheld hearly
    refine .idle (exec_releaseCurrentLow g s) ?_
    rw [Dev.releaseLow, h]
    exact (if_neg (by rw [show ms 10 = 10000 from rfl, hheld]; simp)).trans (if_neg (Nat.not_le.mpr hearly))
  case noOpen =>
    intro s g h
    refine .idle (exec_releaseDischarged g s) ?_
    unfold Dev.releaseOpen
    split
    · refine if_neg ?_
      rintro ⟨hdead, hmean⟩
      exact h.elim (fun h => by simp [h] at hdead) fun h => absurd (h.symm.trans hmean) (by simp)
    · rfl
  case noFree =>
    intro s g h
    refine .idle (exec_releaseFreed g s) ?_
    unfold Dev.releaseDone
    split
    · exact if_neg h
    · rfl
  case notReady =>
    intro s g t hrole htrained hbit hsince hlate hstate hslot howner
    obtain ⟨hwithdrawn, hwhy, hbreak, hev⟩ := Dev.withdraw_shows .notReady hslot hstate howner
    have hexec : s.dev.notReady g = s.dev.withdraw g .notReady := if_pos ⟨hrole, htrained, by simp [hbit], by simp [hsince, ms, hlate]⟩
    generalize s.dev.withdraw g .notReady = e at *
    exact .of_eq (exec_groupNotReady g s) hexec ⟨hwithdrawn, hwhy, hbreak, by rw [Dev.settled_bit, hev]⟩
  case break_ =>
    intro s g t hat hpoint hmean
    obtain ⟨hgroup, hclose, hregs⟩ := s.dev.openAll_group g fun x => { x with breakAt := none }
    have hexec : s.dev.breakGroup g = (s.dev.openAll g).onGroup g fun x => { x with breakAt := none } := by
      rw [Dev.breakGroup, hat]
      exact if_pos ⟨hpoint, hmean⟩
    generalize (s.dev.openAll g).onGroup g (fun x => { x with breakAt := none }) = e at *
    exact .of_eq (exec_withdrawOpen g s) hexec ⟨hgroup, hclose, .settled (hregs [])⟩
  case force =>
    intro s g t hat hpoint hlate hshut
    obtain ⟨hgroup, hclose, hregs⟩ := s.dev.openAll_group g fun x => { x with breakAt := none }
    have hexec : s.dev.breakGroup g =
        ((s.dev.openAll g).onGroup g fun x => { x with breakAt := none }).raise .alc 7 (BitVec.ofNat 32 g.1) := by
      rw [Dev.breakGroup, hat]
      exact (if_neg fun h => absurd (hpoint.symm.trans h.1) (by simp)).trans ((if_pos hlate).trans (if_neg hshut))
    generalize (s.dev.openAll g).onGroup g (fun x => { x with breakAt := none }) = e at *
    refine .of_eq (exec_withdrawOpen g s) hexec ⟨?_, ?_, ?_, .settled ((hregs _).raise (by simp [EvReg.addr]))⟩
    · rw [Dev.settled_link, Dev.raise_link, hgroup]
    · rw [Dev.settled_link, Dev.raise_link, hclose]
    · exact Dev.settled_raise_bit _ .alc _ _ (by decide)
  case clear =>
    intro s g t hstate hclear hlate hlatch
    refine .of_eq (exec_withdrawEnd g s) (if_pos ⟨hstate, by simp [heldFor, hclear, secs, hlate], by simp [hlatch]⟩) ⟨?_, ?_, ?_, ?_⟩
    · simp [Group.free]
    · simp [Group.free]
    · simp [Group.free]
    · exact .settled (.onGroup fun _ _ => rfl)
  case idle =>
    intro s g hrole hstate hassign hidle
    have hdrive : s.dev.drive g = { gmode := 0, vset := 0, iset := 0, plim := 0 } := by
      rw [Dev.drive]
      simp only [hstate, hassign]
      exact if_neg (Nat.not_lt.mpr hidle)
    refine .of_eq (exec_groupIdleOff g s) (if_pos ⟨hrole, hstate, by simp [hassign], hidle⟩) ⟨?_, ?_, ?_, ?_, ?_⟩
    · simp [Dev.driveGroup, hdrive]
    · simp [Dev.driveGroup, hdrive]
    · simp [Dev.driveGroup, hdrive]
    · simp [Dev.driveGroup, hdrive]
    · exact .settled fun a _ => (s.dev.driveGroup_keeps g).anyReg a
  case prepare =>
    intro s g o k a t hassign hdead hlate hwarned
    set d := s.dev.onGroup g fun x => { x with assign := some (o, k, .segPrepare, s.dev.now) } with hd
    have hexec : s.dev.assignPrepare g = d.segPrepare g o := by
      rw [Dev.assignPrepare, hassign]
      exact if_pos ⟨by simp [heldFor, hdead, ms, hlate], by simp [hwarned]⟩
    have hk := d.segPrepare_keeps g o
    have hsegs : (d.segPrepare g o).prot.segs =
        s.dev.prot.segs.filter (fun x => decide (x.group ≠ g)) ++ [{ group := g, outlet := o, since := s.dev.now, answered := false }] := by
      rw [Dev.segPrepare, (Dev.chooseInjectors_keeps _).prot]
      rfl
    have hgroup : (d.link g).group.assign = some (o, k, .segPrepare, s.dev.now) := by simp [hd]
    have hreg : ∀ a, d.reg a = s.dev.reg a := fun _ => rfl
    generalize d.segPrepare g o = e at *
    refine .of_eq (exec_assignDischarged g s) hexec ⟨?_, hsegs, .settled fun a _ => (hk.anyReg a).trans (hreg a)⟩
    rw [Dev.settled_link, hk.group g, hgroup]
  case join =>
    intro s g o k a hassign hfb
    refine .of_eq (e := (s.dev.dropSeg g).onGroup g fun x =>
      { x with state := .owned, owner := some o, assign := none, joinedAt := some s.dev.now }) (exec_assignOwned g s) ?_ ⟨?_, rfl, ?_, ?_⟩
    · simp only [Dev.assignJoin, hassign]
      exact if_pos hfb
    · simp [Dev.dropSeg]
    · exact .settled (.onGroup fun _ _ => rfl)
    · exact .settled (.onGroup fun _ _ => rfl)
  case low =>
    intro s g a t hrelease hlow hlate
    refine .of_eq (e := s.dev.onGroup g fun x => { x with release := some (.discharge, s.dev.now), deadSince := none })
      (exec_releaseCurrentLow g s) ?_ ⟨?_, ?_, ?_⟩
    · rw [Dev.releaseLow, hrelease]
      exact if_pos (by simp [heldFor, hlow, ms, hlate])
    · simp
    · exact .settled (.onGroup fun _ _ => rfl)
    · exact .settled (.onGroup fun _ _ => rfl)
  case lowForce =>
    intro s g a hrelease hlow hlate
    obtain ⟨hgroup, hclose, hregs⟩ := s.dev.openAll_group g fun x => { x with release := some (.opening, s.dev.now) }
    have hexec : s.dev.releaseLow g =
        ((s.dev.openAll g).onGroup g fun x => { x with release := some (.opening, s.dev.now) }).raise .alc 7 (BitVec.ofNat 32 g.1) := by
      rw [Dev.releaseLow, hrelease]
      exact (if_neg (by simp [heldFor, hlow])).trans (if_pos hlate)
    generalize (s.dev.openAll g).onGroup g (fun x => { x with release := some (.opening, s.dev.now) }) = e at *
    refine .of_eq (exec_releaseCurrentLow g s) hexec ⟨?_, ?_, ?_⟩
    · rw [Dev.settled_link, Dev.raise_link, hgroup]
    · rw [Dev.settled_link, Dev.raise_link, hclose]
    · exact Dev.settled_raise_bit _ .alc _ _ (by decide)
  case dead =>
    intro s g a t hrelease hdead hmean
    obtain ⟨hgroup, hclose, hregs⟩ := s.dev.openAll_group g fun x => { x with release := some (.opening, s.dev.now) }
    have hexec : s.dev.releaseOpen g = (s.dev.openAll g).onGroup g fun x => { x with release := some (.opening, s.dev.now) } := by
      rw [Dev.releaseOpen, hrelease]
      exact if_pos ⟨by simp [hdead], hmean⟩
    generalize (s.dev.openAll g).onGroup g (fun x => { x with release := some (.opening, s.dev.now) }) = e at *
    exact .of_eq (exec_releaseDischarged g s) hexec ⟨hgroup, hclose, .settled (hregs [])⟩
  case freed =>
    intro s g a hrelease hfb
    refine .of_eq (e := s.dev.onGroup g fun x => x.free s.dev.now) (exec_releaseFreed g s) ?_ ⟨?_, ?_, ?_, ?_, ?_, ?_⟩
    · rw [Dev.releaseDone, hrelease]
      exact if_pos hfb
    · simp [Group.free]
    · simp [Group.free]
    · simp [Group.free]
    · simp [Group.free]
    · exact .settled (.onGroup fun _ _ => rfl)
    · exact .settled (.onGroup fun _ _ => rfl)

end Sys2Proof.Machine
end


section
/-! SUPPORT. What a trip leaves of the protection: the inputs, the safety connections and the device's own frames. -/

namespace Sys2Proof.Machine

set_option Elab.async false

/-- The protection with the site latch, the last trip, the trip outputs and the segment requests of another one. -/
def Protection.tripped (p q : Protection) : Protection :=
  { p with siteLatch := q.siteLatch, lastTick := q.lastTick, lastCls := q.lastCls, lastCause := q.lastCause,
           tripout := q.tripout, segs := q.segs }

/-- A trip changes nothing else of the protection (R304, R321). -/
def Dev.Trips (d e : Dev) : Prop := e.prot = d.prot.tripped e.prot

section
variable {d e f : Dev}

theorem Dev.Trips.of_prot (h : e.prot = d.prot) : d.Trips e := by
  rw [Dev.Trips, h]
  rfl

theorem Dev.Trips.of_keeps {l : List Part} (h : d.Keeps e l) (hp : Part.isIn l .prot = false := by rfl) : d.Trips e :=
  .of_prot (h.prot hp)

theorem Dev.Trips.rfl : d.Trips d := .of_prot (Eq.refl _)

theorem Dev.Trips.via (h' : e.Trips f) (h : d.Trips e) : d.Trips f := by
  rw [Dev.Trips] at h h' ⊢
  rw [h', h]
  rfl

theorem Dev.Trips.pairs (h : d.Trips e) : e.prot.pairs = d.prot.pairs := by rw [h]; rfl

theorem Dev.Trips.resets (h : d.Trips e) : e.prot.resets = d.prot.resets := by rw [h]; rfl

theorem Dev.Trips.conns (h : d.Trips e) : e.prot.conns = d.prot.conns := by rw [h]; rfl

end

section
variable (d : Dev)

theorem Dev.raise_trips (r : EvReg) (b : Nat) (w : Word) (t : Option TenantId) : d.Trips (d.raise r b w t) := .of_prot (by simp)

theorem Dev.raiseAlways_trips (r : EvReg) (b : Nat) (w : Word) (t : Option TenantId) : d.Trips (d.raiseAlways r b w t) :=
  .of_prot (by simp)

theorem Dev.count_trips (a n : Nat) : d.Trips (d.count a n) := .of_prot rfl

theorem Dev.dropSeg_trips (g : LinkId) : d.Trips (d.dropSeg g) := rfl

theorem Dev.driveTripout_trips : d.Trips d.driveTripout := rfl

theorem Dev.recordTrip_trips (c : Cause) (cls : Nat) : d.Trips (d.recordTrip c cls) := by
  have hcount : ∀ b : Bool, (if b = true then d else d.count Reg.prtTripCnt).prot = d.prot := fun b => by cases b <;> rfl
  rw [Dev.Trips, Dev.recordTrip, Dev.onProtection_prot, hcount]
  rfl

theorem Dev.haltBy_trips (c : Cause) (gone : Bool) : d.Trips (d.haltBy c gone) :=
  .via (Dev.raise_trips _ _ _ _ _) rfl

theorem Dev.takeOut_trips (g : LinkId) (why : WithdrawWhy) : d.Trips (d.takeOut g why) := by
  unfold Dev.takeOut
  extract_lets owner d1
  have h1 : d.Trips d1 := .via (Dev.raise_trips _ _ _ _ _) (.via (.of_keeps (Dev.onGroup_keeps _ _ _)) (d.dropSeg_trips g))
  cases owner with
  | some o => exact .via (.of_keeps (Dev.cutToGroups_keeps _ _)) h1
  | none => exact h1

theorem Dev.afterAbort_trips (e : Exchange) (code : Nat) : d.Trips (d.afterAbort e code) := by
  unfold Dev.afterAbort
  extract_lets g d1 back idle
  have h1 : d.Trips d1 := by
    unfold d1
    split
    · exact .of_keeps (Dev.command_keeps _ _ _ _)
    · exact .rfl
  have hback : d.Trips back := .via (.of_keeps (Dev.onGroup_keeps _ _ _)) h1
  have hidle : d.Trips idle := .via (.of_keeps (Dev.onGroup_keeps _ _ _)) h1
  clear_value back idle d1
  split
  · exact hback
  · exact hback
  · exact .via (Dev.takeOut_trips _ _ _) (.via (.of_keeps (Dev.onGroup_keeps _ _ _)) h1)
  · exact .via (Dev.takeOut_trips _ _ _) (.via (.of_keeps (Dev.onGroup_keeps _ _ _)) h1)
  · exact .rfl
  · exact .rfl
  · split_ifs
    · exact hback
    · exact hidle

theorem Dev.abortExchange_trips (x : Fin 16) (code : Nat) : d.Trips (d.abortExchange x code) := by
  unfold Dev.abortExchange
  split
  · exact .via (Dev.raise_trips _ _ _ _ _) (.via (Dev.count_trips _ _ _) (.via (Dev.afterAbort_trips _ _ _)
      (.via (Dev.dropSeg_trips _ _) (.of_keeps (Dev.closeSlot_keeps _ _ _)))))
  · exact .rfl

theorem Dev.abortWhere_trips (hit : Exchange → Bool) (code : Nat) : d.Trips (d.abortWhere hit code) := by
  unfold Dev.abortWhere
  refine Dev.each_inv (P := d.Trips) .rfl fun e x _ he => ?_
  split
  · split_ifs
    · exact .via (Dev.abortExchange_trips _ _ _) he
    · exact he
  · exact .via (.of_keeps (Dev.lowerReason_keeps _ _ _ _)) he

theorem Dev.withdraw_trips (g : LinkId) (why : WithdrawWhy) : d.Trips (d.withdraw g why) := by
  unfold Dev.withdraw
  extract_lets d1
  have h1 : d.Trips d1 := d.abortWhere_trips _ _
  split_ifs
  · exact .via (Dev.takeOut_trips _ _ _) h1
  · exact .via (.of_keeps (Dev.onGroup_keeps _ _ _)) h1
  · exact h1

theorem Dev.tripExchanges_trips (n : LinkId) : d.Trips (d.tripExchanges n) := by
  unfold Dev.tripExchanges
  extract_lets hit gs
  exact Dev.each_inv (P := d.Trips) (d.abortWhere_trips _ _) fun e g _ he =>
    .via (.of_keeps (Dev.onGroup_keeps _ _ _)) (.via (Dev.withdraw_trips _ _ _) he)

theorem Dev.forceLink_trips (n : LinkId) (rank : Nat) : d.Trips (d.forceLink n rank) := by
  unfold Dev.forceLink
  extract_lets d0
  have h0 : d.Trips d0 := d.tripExchanges_trips n
  clear_value d0
  split
  · exact .via (.of_keeps (Dev.publishGrant_keeps _ _)) (.via (.of_keeps (Dev.onOut_keeps _ _ _)) (.via (.of_keeps (Dev.onVeh_keeps _ _ _))
      (.via (.of_keeps (Dev.openAll_keeps _ _)) (.via (.of_keeps (Dev.openNow_keeps _ _ _ _)) h0))))
  · exact .via (Dev.withdraw_trips _ _ _) (.via (.of_keeps (Dev.openAll_keeps _ _)) h0)
  · exact h0

theorem Dev.tripLink_trips (n : LinkId) (c : Cause) (cls : Nat) (gone : Bool) : d.Trips (d.tripLink n c cls gone) := by
  unfold Dev.tripLink
  extract_lets old d1 d2 d3
  have h1 : d.Trips d1 := .of_keeps (Dev.onProt_keeps _ _ _)
  have h2 : d.Trips d2 := by
    unfold d2
    split_ifs
    · exact .via (Dev.raise_trips _ _ _ _ _) h1
    · exact h1
  have h3 : d.Trips d3 := by
    unfold d3
    split_ifs
    · exact .via (.of_keeps (Dev.sendTrip_keeps _ _ _)) h2
    · exact h2
  exact .via (Dev.forceLink_trips _ _ _) h3

theorem Dev.trip_trips (c : Cause) (ns : List LinkId) (gone : Bool) : d.Trips (d.trip c ns gone) := by
  unfold Dev.trip
  extract_lets cls d1
  have h1 : d.Trips d1 := Dev.each_inv (P := d.Trips) (d.recordTrip_trips c cls) fun e n _ he => .via (Dev.tripLink_trips _ _ _ _ _) he
  clear_value d1
  split_ifs
  · exact .rfl
  · exact .via (Dev.driveTripout_trips _) (.via (Dev.haltBy_trips _ _ _) h1)
  · exact .via (Dev.driveTripout_trips _) h1

theorem Dev.causeOn_trips (r : EvReg) (b : Nat) (c : Cause) (n : Option LinkId) (ns : List LinkId) (gone : Bool) :
    d.Trips (d.causeOn r b c n ns gone) := .via (Dev.trip_trips _ _ _ _) (d.raiseAlways_trips _ _ _ _)

end

end Sys2Proof.Machine
end


section
/-! SUPPORT. Antivalent inputs and reset inputs (R299 to R312). -/

namespace Sys2Proof.Machine

set_option Elab.async false

/-! ### Registers of the protection that a trip leaves -/

/-- A register of the protection that no trip writes. -/
structure PrtAside (a : Nat) : Prop where
  part : regPart a = .rPrt
  count : a ≠ Reg.prtTripCnt
  events : a ≠ EvReg.prt.addr
  links : ∀ n : LinkId, a ≠ (EvReg.prtL n).addr

section
variable {d : Dev} {a : Nat}

theorem Dev.tripLink_prt (h : PrtAside a) (n : LinkId) (c : Cause) (cls : Nat) (gone : Bool) :
    (d.tripLink n c cls gone).reg a = d.reg a := by
  unfold Dev.tripLink
  extract_lets old d1 d2 d3
  have h2 : d2.reg a = d.reg a := by
    unfold d2
    split_ifs
    · rw [Dev.raise_reg, if_neg (h.links n)]
      rfl
    · rfl
  have h3 : d3.reg a = d2.reg a := by
    unfold d3
    split_ifs
    · exact (Dev.sendTrip_keeps _ _ _).reg_of h.part
    · rfl
  rw [(Dev.forceLink_keeps d3 n c.source).reg_of h.part, h3, h2]

theorem Dev.trip_prt (h : PrtAside a) (c : Cause) (ns : List LinkId) (gone : Bool) : (d.trip c ns gone).reg a = d.reg a := by
  unfold Dev.trip
  extract_lets cls d1
  have h0 : (d.recordTrip c cls).reg a = d.reg a := by
    rw [Dev.recordTrip, Dev.onProtection_reg]
    split_ifs
    · rfl
    · exact (Dev.count_reg _ _ _ _).trans (if_neg h.count)
  have h1 : d1.reg a = d.reg a := Dev.each_inv (P := fun e => e.reg a = d.reg a) h0 fun e n _ he => (Dev.tripLink_prt h n c cls gone).trans he
  clear_value d1
  split_ifs
  · rfl
  · rw [Dev.driveTripout_reg, Dev.haltBy, Dev.raise_reg, if_neg h.events, ← h1]
    rfl
  · rw [Dev.driveTripout_reg, h1]

/-- A cause of a register that no trip writes sets its detail bit. -/
theorem Dev.causeOn_prtBit {r : EvReg} (h : PrtAside r.addr) {b : Nat} (hb : b < 32) (c : Cause) (n : Option LinkId)
    (ns : List LinkId) (gone : Bool) : (d.causeOn r b c n ns gone).bit r.addr b = true := by
  rw [Dev.causeOn, Dev.bit, Dev.trip_prt h, ← Dev.bit, Dev.raiseAlways_bit _ _ _ _ hb]

theorem prtAside_av : PrtAside EvReg.av.addr where
  part := by decide
  count := by decide
  events := by decide
  links n := by simp only [EvReg.addr, Reg.prtAvEvents, Reg.prtLEvents]; omega

theorem prtAside_rst : PrtAside EvReg.rst.addr where
  part := by decide
  count := by decide
  events := by decide
  links n := by simp only [EvReg.addr, Reg.prtRstEvents, Reg.prtLEvents]; omega

end

/-! ### Pairs and reset inputs -/

section
variable (d : Dev)

theorem Dev.onPair_self (k : Fin 8) (f : AvPair → AvPair) : (d.onPair k f).prot.pairs.get k = f (d.prot.pairs.get k) := by
  simp [Dev.onPair, Vector.get_eq_getElem]

theorem Dev.onReset_self (k : Fin 2) (f : ResetInput → ResetInput) : (d.onReset k f).prot.resets.get k = f (d.prot.resets.get k) := by
  simp [Dev.onReset, Vector.get_eq_getElem]

theorem Dev.Keeps.onPair {d e : Dev} {l : List Part} {k f} (h : d.Keeps e l) (hs : Part.within [.prot] l = true := by rfl) :
    d.Keeps (e.onPair k f) l := h.via' (Dev.onPair_keeps e k f) hs

theorem Dev.Keeps.onReset {d e : Dev} {l : List Part} {k f} (h : d.Keeps e l) (hs : Part.within [.prot] l = true := by rfl) :
    d.Keeps (e.onReset k f) l := h.via' (Dev.onReset_keeps e k f) hs

theorem Dev.RegsBut.onReset {d e : Dev} {as : List Nat} {k f} (h : d.RegsBut e as) : d.RegsBut (e.onReset k f) as := h

end

section
variable {d : Dev} {k : Fin 8} {a b : Bool}

/-- A pair in a new state. -/
def Dev.pairMoved (d : Dev) (k : Fin 8) (a b : Bool) : Dev :=
  d.onPair k fun p => { p with
    a := a, b := b, state := avOf a b, since := d.now, counted := (d.prot.pairs.get k).timer d.now
    restarted := p.restarted && decide (avOf a b ≠ .discrepancy) }

theorem Dev.avLevels_moved (h : avOf a b ≠ (d.prot.pairs.get k).state) :
    d.avLevels k a b =
      if avOf a b = .demand ∧ d.avEnabled k then (d.pairMoved k a b).avDemand k else d.pairMoved k a b := by
  rw [Dev.avLevels]
  exact if_neg h

theorem Dev.pairMoved_pair :
    ((d.pairMoved k a b).prot.pairs.get k).state = avOf a b ∧ ((d.pairMoved k a b).prot.pairs.get k).since = d.now ∧
      ((d.pairMoved k a b).prot.pairs.get k).counted = (d.prot.pairs.get k).timer d.now := by
  rw [Dev.pairMoved, Dev.onPair_self]
  exact ⟨rfl, rfl, rfl⟩

/-! ### Release -/

theorem Dev.releaseLink_shows (d : Dev) (n : LinkId) :
    (∀ m, ((d.releaseLink n).link m).prot.latch = if m = n then none else (d.link m).prot.latch) ∧
      d.RegsBut (d.releaseLink n) [Reg.prtLEvents n] := by
  unfold Dev.releaseLink
  extract_lets d1
  have h1 : (∀ m, (d1.link m).prot.latch = if m = n then none else (d.link m).prot.latch) ∧ d.RegsBut d1 [Reg.prtLEvents n] := by
    have hk : d.Keeps (d.sendRelease n) [.lnk, .con] := (d.sendRelease_keeps n).mono
    refine ⟨fun m => ?_, ?_⟩
    · simp only [d1, Dev.raise_link, Dev.onVeh_link, Dev.onProt_link]
      by_cases hm : m = n
      · simp [hm]
      · simp [hm, hk.lprot m]
    · exact .raise (.onVeh (.onProt fun a _ => hk.anyReg a)) (by simp [EvReg.addr])
  clear_value d1
  refine Dev.each_inv (P := fun e => (∀ m, (e.link m).prot.latch = if m = n then none else (d.link m).prot.latch) ∧
    d.RegsBut e [Reg.prtLEvents n]) h1 fun e g _ he => ?_
  obtain ⟨hlatch, hregs⟩ := he
  have hk : ∀ (c : Prop) [Decidable c], e.Keeps (if c then e.onGroup g fun z => z.free e.now else e) [.group] :=
    fun c _ => .ite (fun _ => .onGroup .rfl) fun _ => .rfl
  exact ⟨fun m => by rw [(hk _).lprot m, hlatch m], hregs.of_same fun a => (hk _).anyReg a⟩

theorem Dev.releaseLinks_shows (d : Dev) (ns : List LinkId) :
    (∀ m, ((d.each ns Dev.releaseLink).link m).prot.latch = if m ∈ ns then none else (d.link m).prot.latch) ∧
      (∀ x, PrtAside x → (d.each ns Dev.releaseLink).reg x = d.reg x) ∧ (d.each ns Dev.releaseLink).prot = d.prot := by
  unfold Dev.each
  induction ns generalizing d with
  | nil => exact ⟨fun m => by simp, fun _ _ => rfl, rfl⟩
  | cons n ns ih =>
    obtain ⟨hlatch, hregs, hprot⟩ := ih (d.releaseLink n)
    obtain ⟨hl, hr⟩ := d.releaseLink_shows n
    refine ⟨fun m => ?_, fun x hx => ?_, ?_⟩
    · rw [List.foldl_cons, hlatch, hl]
      by_cases hm : m = n <;> by_cases hms : m ∈ ns <;> simp [hm, hms]
    · rw [List.foldl_cons, hregs x hx, hr x (by simpa [EvReg.addr] using hx.links n)]
    · rw [List.foldl_cons, hprot, (d.releaseLink_keeps n).prot]

end

section
variable {d : Dev}

theorem Dev.exitMarked_shows (d : Dev) (c : Prop) [Decidable c] :
    (∀ m, (if c then d.onPower fun p => { p with exitHalt := true } else d).link m = d.link m) ∧
      (if c then d.onPower fun p => { p with exitHalt := true } else d).prot = d.prot ∧
      ∀ x, (if c then d.onPower fun p => { p with exitHalt := true } else d).reg x = d.reg x := by
  split_ifs <;> exact ⟨fun _ => rfl, rfl, fun _ => rfl⟩

/-- The latches noted whose causes are all still gone are released, and no other (R310). -/
theorem Dev.edgeReset_shows (ns : List LinkId) (site : Bool) :
    (∀ m, ((d.edgeReset ns site).link m).prot.latch =
        if ns.contains m ∧ d.goneLatches.1.contains m then none else (d.link m).prot.latch) ∧
      (d.edgeReset ns site).prot.siteLatch = (if site ∧ d.goneLatches.2 then none else d.prot.siteLatch) ∧
      (d.edgeReset ns site).prot.resets = d.prot.resets ∧ ∀ x, PrtAside x → (d.edgeReset ns site).reg x = d.reg x := by
  unfold Dev.edgeReset
  extract_lets now d1 d2 d3
  obtain ⟨hlatch, hregs, hprot⟩ := d.releaseLinks_shows (ns.filter now.1.contains)
  have h2 : (∀ m, d2.link m = d1.link m) ∧ d2.prot.siteLatch = (if site ∧ now.2 then none else d.prot.siteLatch) ∧
      d2.prot.resets = d.prot.resets ∧ ∀ x, d2.reg x = d1.reg x := by
    have h1 : d1.prot = d.prot := hprot
    clear_value d1
    unfold d2
    split_ifs
    · exact ⟨fun _ => rfl, rfl, by rw [Dev.onProtection_prot, h1], fun _ => rfl⟩
    · exact ⟨fun _ => rfl, congrArg Protection.siteLatch h1, congrArg Protection.resets h1, fun _ => rfl⟩
  obtain ⟨hlink2, hsite2, hresets2, hreg2⟩ := h2
  have h3 : (∀ m, (d3.link m).prot.latch = if ns.contains m ∧ now.1.contains m then none else (d.link m).prot.latch) ∧
      d3.prot.siteLatch = (if site ∧ now.2 then none else d.prot.siteLatch) ∧ d3.prot.resets = d.prot.resets ∧
      ∀ x, PrtAside x → d3.reg x = d.reg x := by
    refine ⟨fun m => ?_, (Dev.driveTripout_siteLatch d2).trans hsite2, (Dev.driveTripout_trips d2).resets.trans hresets2, fun x hx => ?_⟩
    · rw [show (d3.link m) = d2.link m from rfl, hlink2, hlatch]
      simp only [List.mem_filter, List.contains_iff_mem]
    · rw [show d3.reg x = d2.reg x from Dev.driveTripout_reg d2 x, hreg2, hregs x hx]
  clear_value d3
  obtain ⟨hlink4, hprot4, hreg4⟩ := Dev.exitMarked_shows d3 (d3.noLatch ∧ d.mode = .safeHalt)
  simp only [hlink4, hprot4, hreg4]
  exact h3

/-- A pulse accepted, with its event. -/
def Dev.resetFallen (d : Dev) (k : Fin 2) : Dev :=
  (d.onReset k fun r => { r with high := false, lowSince := d.now }).raise .rst 0

theorem Dev.resetFallen_shows (d : Dev) (k : Fin 2) :
    ((d.resetFallen k).prot.resets.get k).high = false ∧ ((d.resetFallen k).prot.resets.get k).lowSince = d.now ∧
      (∀ n, (d.resetFallen k).link n = d.link n) ∧ (d.resetFallen k).prot.siteLatch = d.prot.siteLatch ∧
      (d.resetFallen k).bit EvReg.rst.addr 0 = true := by
  have hprot : (d.resetFallen k).prot = (d.onReset k fun r => { r with high := false, lowSince := d.now }).prot := Dev.raise_prot _ _ _ _ _
  refine ⟨?_, ?_, fun n => Dev.raise_link _ _ _ _ _ _, ?_, Dev.raise_bit _ .rst _ _ (by decide)⟩
  · rw [hprot, Dev.onReset_self]
  · rw [hprot, Dev.onReset_self]
  · rw [hprot]
    rfl

theorem Dev.goneLatches_congr {e : Dev} (hlink : ∀ n, e.link n = d.link n) (hsite : e.prot.siteLatch = d.prot.siteLatch) :
    e.goneLatches = d.goneLatches := by
  simp only [Dev.goneLatches, hlink, hsite]

end

/-- Settles O39: a pair or a reset input changes alone; a demand or a discrepancy trips, and a release writes its latches alone. -/
theorem safetyInputs : Obligations.SafetyInputs := by
  unfold Obligations.SafetyInputs
  refine ⟨?demand, ?off, ?clear, ?equal, ?same, ?fault, ?noFault, ?restart, ?noRestart, ?rise, ?noRise, ?accepted, ?short, ?barred,
    ?noFall, ?jam, ?noJam⟩
  case demand =>
    intro s k hstate hon
    have hmoved := Dev.avLevels_moved (d := s.dev) (k := k) (a := false) (b := true) hstate.symm
    rw [if_pos ⟨rfl, hon⟩, Dev.avDemand] at hmoved
    obtain ⟨hst, hsince, -⟩ := Dev.pairMoved_pair (d := s.dev) (k := k) (a := false) (b := true)
    generalize s.dev.pairMoved k false true = d at *
    have hpairs := (d.causeOn_trips .av k.1 { code := 0x21, source := 576 + k.1, index := k.1 } none
      (d.targets (Reg.prtAvCfg k)) false).pairs
    have hbit := d.causeOn_prtBit prtAside_av (b := k.1) (by omega) { code := 0x21, source := 576 + k.1, index := k.1 } none
      (d.targets (Reg.prtAvCfg k)) false
    generalize d.causeOn .av k.1 { code := 0x21, source := 576 + k.1, index := k.1 } none (d.targets (Reg.prtAvCfg k)) = e at *
    refine .of_eq (exec_avPairChange k false true s) hmoved ⟨?_, ?_, ?_⟩
    · rw [Dev.settled_prot, hpairs, hst]
      rfl
    · rw [Dev.settled_prot, hpairs, hsince]
    · rw [Dev.settled_bit]
      exact hbit
  case off =>
    intro s k hstate hoff
    have hmoved := Dev.avLevels_moved (d := s.dev) (k := k) (a := false) (b := true) hstate.symm
    rw [if_neg (by simp [hoff])] at hmoved
    obtain ⟨hst, hsince, -⟩ := Dev.pairMoved_pair (d := s.dev) (k := k) (a := false) (b := true)
    exact .of_eq (exec_avPairChange k false true s) hmoved ⟨hst, hsince, .settled (.onPair .rfl)⟩
  case clear =>
    intro s k hstate
    have hmoved := Dev.avLevels_moved (d := s.dev) (k := k) (a := true) (b := false) hstate.symm
    rw [if_neg (by rintro ⟨h, -⟩; exact absurd h (by decide))] at hmoved
    obtain ⟨hst, hsince, hcounted⟩ := Dev.pairMoved_pair (d := s.dev) (k := k) (a := true) (b := false)
    exact .of_eq (exec_avPairChange k true false s) hmoved ⟨hst, hsince, hcounted, .settled (.onPair .rfl)⟩
  case equal =>
    intro s k a hstate
    have hav : avOf a a = .discrepancy := by cases a <;> rfl
    have hmoved := Dev.avLevels_moved (d := s.dev) (k := k) (a := a) (b := a) (by rw [hav]; exact hstate.symm)
    rw [if_neg (by rintro ⟨h, -⟩; rw [hav] at h; exact absurd h (by decide))] at hmoved
    obtain ⟨hst, hsince, -⟩ := Dev.pairMoved_pair (d := s.dev) (k := k) (a := a) (b := a)
    exact .of_eq (exec_avPairChange k a a s) hmoved ⟨hst.trans hav, hsince, .settled (.onPair .rfl)⟩
  case same =>
    intro s k a b h
    refine .of_eq (exec_avPairChange k a b s) (if_pos h) ⟨?_, .settled (.onPair .rfl)⟩
    rw [Dev.settled_prot, Dev.onPair_self]
  case fault =>
    intro s k hon hstate hfault htimer
    have hexec : s.dev.avDiscrepancy k = (s.dev.onPair k fun p => { p with faulted := true }).causeOn .av (8 + k.1)
        { code := 0x20, source := 576 + k.1, index := k.1 } none (s.dev.targets (Reg.prtAvCfg k)) :=
      if_pos ⟨hon, hstate, by simp [hfault], htimer⟩
    have hpair : ((s.dev.onPair k fun p => { p with faulted := true }).prot.pairs.get k).faulted = true := by
      rw [Dev.onPair_self]
    generalize s.dev.onPair k (fun p => { p with faulted := true }) = d at *
    have hpairs := (d.causeOn_trips .av (8 + k.1) { code := 0x20, source := 576 + k.1, index := k.1 } none
      (s.dev.targets (Reg.prtAvCfg k)) false).pairs
    have hbit := d.causeOn_prtBit prtAside_av (b := 8 + k.1) (by omega) { code := 0x20, source := 576 + k.1, index := k.1 } none
      (s.dev.targets (Reg.prtAvCfg k)) false
    generalize d.causeOn .av (8 + k.1) { code := 0x20, source := 576 + k.1, index := k.1 } none (s.dev.targets (Reg.prtAvCfg k)) = e at *
    refine .of_eq (exec_avDiscrepancy k s) hexec ⟨?_, ?_⟩
    · rw [Dev.settled_prot, hpairs, hpair]
    · rw [Dev.settled_bit]
      exact hbit
  case noFault =>
    intro s k h
    refine .idle (exec_avDiscrepancy k s) (if_neg ?_)
    rintro ⟨hon, hstate, hfault, htimer⟩
    obtain h | h | h | h := h
    · exact absurd (h.symm.trans hon) (by simp)
    · exact h hstate
    · simp [h] at hfault
    · exact absurd htimer (Nat.not_le.mpr h)
  case restart =>
    intro s k hon hstate hsince
    refine .of_eq (exec_avTimerRestart k s) (if_pos ⟨hon, hstate, hsince⟩) ⟨?_, .settled (.onPair .rfl)⟩
    rw [Dev.settled_prot, Dev.onPair_self]
  case noRestart =>
    intro s k h
    refine .idle (exec_avTimerRestart k s) (if_neg ?_)
    rintro ⟨hon, hstate, hsince⟩
    obtain h | h | h := h
    · exact absurd (h.symm.trans hon) (by simp)
    · exact hstate h
    · exact absurd hsince (Nat.not_le.mpr h)
  case rise =>
    intro s k hhigh
    refine .of_eq (exec_rstreqRise k s) (if_pos (by simp [hhigh])) ⟨?_, ?_, ?_, ?_, .settled (.onReset .rfl)⟩
    all_goals rw [Dev.settled_prot, Dev.onReset_self]
    · cases s.dev.prot.armed <;> rfl
    · cases s.dev.prot.armed <;> rfl
  case noRise =>
    intro s k hhigh
    exact .idle (exec_rstreqRise k s) (if_neg (by simp [hhigh]))
  case accepted =>
    intro s k harmed hhigh hjammed hlong hshort
    have hnot : ¬((!s.dev.prot.armed) = true ∨ (s.dev.prot.resets.get k).jammed = true ∨
        secs 5 < s.dev.now - (s.dev.prot.resets.get k).riseAt) := by
      rintro (h | h | h)
      · simp [harmed] at h
      · exact absurd (h.symm.trans hjammed) (by simp)
      · exact absurd h (Nat.not_lt.mpr hshort)
    have hexec : s.dev.resetFall k = (s.dev.resetFallen k).edgeReset (s.dev.prot.resets.get k).goneLinks (s.dev.prot.resets.get k).goneSite :=
      (if_pos hhigh).trans ((if_neg hnot).trans (if_neg (Nat.not_lt.mpr hlong)))
    obtain ⟨hhigh', hlow, hlink, hsite, hbit⟩ := s.dev.resetFallen_shows k
    have hgone := Dev.goneLatches_congr hlink hsite
    generalize s.dev.resetFallen k = d at *
    obtain ⟨hlatch, hsite', hresets, hreg⟩ := d.edgeReset_shows (s.dev.prot.resets.get k).goneLinks (s.dev.prot.resets.get k).goneSite
    generalize d.edgeReset (s.dev.prot.resets.get k).goneLinks (s.dev.prot.resets.get k).goneSite = e at *
    refine .of_eq (exec_edgeResetAccepted k s) hexec ⟨?_, ?_, ?_, fun n => ?_, ?_⟩
    · rw [Dev.settled_prot, hresets, hhigh']
    · rw [Dev.settled_prot, hresets, hlow]
    · rw [Dev.settled_bit, show Reg.prtRstEvents = EvReg.rst.addr from rfl, Dev.bit, hreg _ prtAside_rst, ← Dev.bit, hbit]
    · rw [Dev.settled_link, hlatch, hgone, hlink]
    · rw [Dev.settled_prot, hsite', hgone, hsite]
  case short =>
    intro s k harmed hhigh hjammed hshort
    have hnot : ¬((!s.dev.prot.armed) = true ∨ (s.dev.prot.resets.get k).jammed = true ∨
        secs 5 < s.dev.now - (s.dev.prot.resets.get k).riseAt) := by
      rintro (h | h | h)
      · simp [harmed] at h
      · exact absurd (h.symm.trans hjammed) (by simp)
      · exact absurd h (Nat.not_lt.mpr (hshort.le.trans (by decide)))
    refine .of_eq (exec_edgeResetAccepted k s) ((if_pos hhigh).trans ((if_neg hnot).trans (if_pos hshort))) ⟨?_, ?_, ?_, ?_, ?_⟩
    · rw [Dev.settled_prot, Dev.raise_prot, Dev.onReset_self]
    · exact Dev.settled_raise_bit _ .rst _ _ (by decide)
    · exact fun n => Dev.raise_link _ _ _ _ _ _
    · rw [Dev.settled_prot, Dev.raise_prot]
      rfl
    · exact .settled (.raise (.onReset fun _ _ => rfl) (by simp [EvReg.addr]))
  case barred =>
    intro s k hhigh h
    have hbar : (!s.dev.prot.armed) = true ∨ (s.dev.prot.resets.get k).jammed = true ∨
        secs 5 < s.dev.now - (s.dev.prot.resets.get k).riseAt := h.imp_left fun h => by simp [h]
    refine .of_eq (exec_edgeResetAccepted k s) ((if_pos hhigh).trans (if_pos hbar)) ⟨?_, fun _ => rfl, .settled (.onReset .rfl)⟩
    rw [Dev.settled_prot, Dev.onReset_self]
  case noFall =>
    intro s k hhigh
    exact .idle (exec_edgeResetAccepted k s) (if_neg (by simp [hhigh]))
  case jam =>
    intro s k harmed hhigh hjammed hlate
    refine .of_eq (exec_rstJammed k s) (if_pos ⟨harmed, hhigh, by simp [hjammed], hlate⟩) ⟨?_, ?_, ?_⟩
    · rw [Dev.settled_prot, Dev.raise_prot, Dev.onReset_self]
    · exact Dev.settled_raise_bit _ .rst _ _ (by decide)
    · exact .settled (.raise (.onReset fun _ _ => rfl) (by simp [EvReg.addr]))
  case noJam =>
    intro s k h
    refine .idle (exec_rstJammed k s) (if_neg ?_)
    rintro ⟨harmed, hhigh, hjammed, hlate⟩
    obtain h | h | h | h := h
    · exact absurd (h.symm.trans harmed) (by simp)
    · exact absurd (h.symm.trans hhigh) (by simp)
    · simp [h] at hjammed
    · exact absurd hlate (Nat.not_le.mpr h)

end Sys2Proof.Machine
end


section
/-! SUPPORT. Safety frames (R312 to R318). -/

namespace Sys2Proof.Machine

set_option Elab.async false

/-! ### The device's own PDU -/

theorem natBE_bytesBE_two {v : Nat} (h : v < 2 ^ 16) : natBE (bytesBE 2 v) = v := by
  simp only [bytesBE, natBE, List.foldl_cons, List.foldl_nil, BitVec.toNat_ofNat]
  omega

theorem natBE_bytesBE_four {v : Nat} (h : v < 2 ^ 32) : natBE (bytesBE 4 v) = v := by
  simp only [bytesBE, natBE, List.foldl_cons, List.foldl_nil, BitVec.toNat_ofNat]
  omega

theorem scrc_lt (bs : List Byte) : scrc bs < 2 ^ 32 := by
  have : scrc bs ≤ 0xFFFFFFFF := Nat.sub_le _ _
  omega

/-- A field whose bytes stand after a head of known length. -/
theorem fieldBE_after {hd bs tl : List Byte} {off len : Nat} (ho : hd.length = off) (hl : bs.length = len) :
    fieldBE (hd ++ bs ++ tl) off len = natBE bs := by
  subst ho hl
  simp [fieldBE, slice]

/-- The device's PDU before its check value (R313). -/
def snBody (conn : Nat) (seq : BitVec 16) (texp : Nat) (sig : Byte) : List Byte :=
  [1, 1] ++ bytesBE 4 conn ++ bytesBE 2 seq.toNat ++ bytesBE 2 texp ++ [1, 0, sig]

theorem snBody_valid (conn : Nat) (seq : BitVec 16) (texp : Nat) (sig : Byte) :
    pduValid (snBody conn seq texp sig ++ bytesBE 4 (scrc (snBody conn seq texp sig))) = true := by
  set body := snBody conn seq texp sig with hbody
  have hlen : fieldBE (body ++ bytesBE 4 (scrc body)) 10 1 = 1 := rfl
  have hkind : fieldBE (body ++ bytesBE 4 (scrc body)) 0 1 = 1 := rfl
  have hver : fieldBE (body ++ bytesBE 4 (scrc body)) 1 1 = 1 := rfl
  have hcrc : fieldBE (body ++ bytesBE 4 (scrc body)) 13 4 = scrc body := by
    have hafter := fieldBE_after (hd := body) (bs := bytesBE 4 (scrc body)) (tl := []) (off := 13) (len := 4) rfl rfl
    rwa [List.append_nil, natBE_bytesBE_four (scrc_lt body)] at hafter
  have htake : (body ++ bytesBE 4 (scrc body)).take 13 = body := List.take_left' rfl
  have hlong : (body ++ bytesBE 4 (scrc body)).length = 17 := rfl
  simp [pduValid, hlen, hkind, hver, hcrc, htake, hlong]

theorem snBody_seq (conn : Nat) (seq : BitVec 16) (texp : Nat) (sig : Byte) (tl : List Byte) :
    fieldBE (snBody conn seq texp sig ++ tl) 6 2 = seq.toNat := by
  have hafter := fieldBE_after (hd := [1, 1] ++ bytesBE 4 conn) (bs := bytesBE 2 seq.toNat)
    (tl := bytesBE 2 texp ++ [1, 0, sig] ++ tl) (off := 6) (len := 2) rfl rfl
  rw [natBE_bytesBE_two seq.isLt] at hafter
  rw [← hafter, snBody]
  simp only [List.append_assoc]

/-- An own frame is at least 60 bytes long (R312). -/
theorem Dev.snEthernet_length (d : Dev) (net : SafetyNet) (pdu : List Byte) : 60 ≤ (d.snEthernet net pdu).length := by
  rw [Dev.snEthernet, List.length_append, List.length_replicate]
  omega

/-! ### Connections -/

section
variable {d : Dev} {c : Fin 8}

theorem Dev.onConn_self (f : Connection → Connection) : (d.onConn c f).prot.conns.get c = f (d.prot.conns.get c) := by
  simp [Dev.onConn, Vector.get_eq_getElem]

theorem Dev.Keeps.onConn {d e : Dev} {l : List Part} {c f} (h : d.Keeps e l) (hs : Part.within [.prot] l = true := by rfl) :
    d.Keeps (e.onConn c f) l := h.via' (Dev.onConn_keeps e c f) hs

theorem prtAside_sn : PrtAside EvReg.sn.addr where
  part := by decide
  count := by decide
  events := by decide
  links n := by simp only [EvReg.addr, Reg.prtSnEvents, Reg.prtLEvents]; omega

/-- SN_FAULT: the connection is marked at this tick, with its detail bit. -/
theorem Dev.snFault_shows :
    (d.snFault c).prot.conns.get c = { d.prot.conns.get c with fault := true, faultAt := d.now } ∧
      (d.snFault c).bit Reg.prtSnEvents (16 + c.1) = true := by
  rw [Dev.snFault]
  have hself := Dev.onConn_self (d := d) (c := c) fun x => { x with fault := true, faultAt := d.now }
  generalize d.onConn c (fun x => { x with fault := true, faultAt := d.now }) = e at *
  refine ⟨?_, e.causeOn_prtBit prtAside_sn (by omega) _ _ _ _⟩
  rw [(e.causeOn_trips _ _ _ _ _ _).conns, hself]

theorem Dev.releaseLinks_trips (d : Dev) (ns : List LinkId) : d.Trips (d.each ns Dev.releaseLink) :=
  .of_prot (d.releaseLinks_shows ns).2.2

theorem Dev.edgeReset_trips (d : Dev) (ns : List LinkId) (site : Bool) : d.Trips (d.edgeReset ns site) := by
  unfold Dev.edgeReset
  extract_lets now d1 d2 d3
  have h1 : d.Trips d1 := d.releaseLinks_trips _
  have h2 : d.Trips d2 := by
    unfold d2
    split_ifs
    · exact .via (e := d1) rfl h1
    · exact h1
  have h3 : d.Trips d3 := .via (Dev.driveTripout_trips d2) h2
  clear_value d3
  split_ifs
  · exact .via (.of_prot rfl) h3
  · exact h3

/-- What a first copy says acts on the outlets and latches and leaves its place among the copies (R317, R318). -/
theorem Dev.snAct_conn (p : List Byte) :
    ((d.snAct c p).prot.conns.get c).lastSeq = (d.prot.conns.get c).lastSeq ∧
      ((d.snAct c p).prot.conns.get c).lastFirst = (d.prot.conns.get c).lastFirst ∧
      ((d.snAct c p).prot.conns.get c).firsts = (d.prot.conns.get c).firsts := by
  have hsignals : ∀ sig, (d.onConn c fun x => { x with sig := sig }).Trips (d.snSignals c sig) := fun sig =>
    Dev.each_inv (P := (d.onConn c fun x => { x with sig := sig }).Trips) .rfl fun e k _ he => .via (e.causeOn_trips _ _ _ _ _ _) he
  unfold Dev.snAct
  split_ifs
  · rw [(hsignals _).conns, Dev.onConn_self]
    exact ⟨rfl, rfl, rfl⟩
  · rw [(hsignals _).conns, Dev.onConn_self]
    exact ⟨rfl, rfl, rfl⟩
  · rw [Dev.snReset]
    split_ifs
    · rw [(Dev.edgeReset_trips _ _ _).conns, Dev.raise_prot, Dev.onConn_self]
      exact ⟨rfl, rfl, rfl⟩
    · exact ⟨rfl, rfl, rfl⟩

/-- A PDU of its kind, valid, on an enabled network and an open connection. -/
structure Dev.Hears (d : Dev) (net : SafetyNet) (kind : Nat) (f p : List Byte) (c : Fin 8) : Prop where
  armed : d.prot.armed = true
  on : d.netOn net = true
  inside : pduIn f = some p
  valid : pduValid p = true
  kind : fieldBE p 1 1 = kind
  conn : d.connOf (fieldBE (pduOf p) 2 4) = some c
  isOpen : (d.prot.conns.get c).isOpen = true

variable {net : SafetyNet} {kind : Nat} {f p : List Byte}

/-- A PDU whose SEQ waits for its second copy. -/
theorem Dev.snReceive_known {g : FirstCopy} (h : d.Hears net kind f p c)
    (hfirst : (d.prot.conns.get c).firsts.find? (fun g => g.seq == BitVec.ofNat 16 (fieldBE (pduOf p) 6 2)) = some g) :
    d.snReceive net kind f =
      if g.net = net then d
      else if g.pdu = pduOf p ∧ d.now ≤ g.at? + ms (d.texpOf c g) then
        (d.onConn c fun x => { x with firsts := x.firsts.filter fun g => decide (g.seq ≠ BitVec.ofNat 16 (fieldBE (pduOf p) 6 2)) }).onConn c
          fun x => { x with gotPair := true, fault := false, pairAt := if x.fault ∨ !x.gotPair then d.now else x.pairAt }
      else (d.onConn c fun x =>
        { x with firsts := x.firsts.filter fun g => decide (g.seq ≠ BitVec.ofNat 16 (fieldBE (pduOf p) 6 2)) }).snFault c := by
  rw [Dev.snReceive, h.inside]
  simp only [h.armed, if_true, Dev.snFrame]
  rw [if_neg (by simp [h.on, h.valid, h.kind]), h.conn]
  simp only [h.isOpen, hfirst]
  rfl

/-- A PDU with a SEQ that no copy waits with. -/
theorem Dev.snReceive_new (h : d.Hears net kind f p c) (hfirsts : (d.prot.conns.get c).firsts = []) {l : BitVec 16}
    (hlast : (d.prot.conns.get c).lastSeq = some l) {step : Nat}
    (hstep : (BitVec.ofNat 16 (fieldBE (pduOf p) 6 2) - l).toNat = step) :
    d.snReceive net kind f =
      if step = 0 then d
      else if step ≤ 8 then
        (((d.onConn c fun x => { x with lastSeq := some (BitVec.ofNat 16 (fieldBE (pduOf p) 6 2)) }).onConn c fun x => { x with
            firsts := x.firsts ++ [{ net := net, seq := BitVec.ofNat 16 (fieldBE (pduOf p) 6 2), pdu := pduOf p, at? := d.now }]
            lastFirst := d.now, texp := min (fieldBE (pduOf p) 8 2) (d.field (Reg.prtSnRxCfg c) 0 16) }).raiseIf
            (step ≠ 1) .sn (8 + c.1)).snAct c (pduOf p)
      else (d.onConn c fun x => { x with lastSeq := some (BitVec.ofNat 16 (fieldBE (pduOf p) 6 2)) }).snFault c := by
  subst hstep
  rw [Dev.snReceive, h.inside]
  simp only [h.armed, if_true, Dev.snFrame]
  rw [if_neg (by simp [h.on, h.valid, h.kind]), h.conn]
  simp only [h.isOpen, hfirsts, hlast, List.find?_nil, Option.map_some, Option.getD_some]
  rfl

end

end Sys2Proof.Machine
end


section
/-! SUPPORT. Safety frames: what the statement asks (R312 to R318). -/

namespace Sys2Proof.Machine

set_option Elab.async false

section
variable {s : State} {net : SafetyNet} {kind : Nat} {f p : List Byte} {c : Fin 8}

/-- A first copy of the next SEQ waits for its second one, whatever it says. -/
theorem Dev.snReceive_next {d : Dev} {l : BitVec 16} (h : d.Hears net kind f p c) (hfirsts : (d.prot.conns.get c).firsts = [])
    (hlast : (d.prot.conns.get c).lastSeq = some l) (hseq : BitVec.ofNat 16 (fieldBE (pduOf p) 6 2) = l + 1) :
    ((d.snReceive net kind f).prot.conns.get c).lastSeq = some (l + 1) ∧
      ((d.snReceive net kind f).prot.conns.get c).lastFirst = d.now ∧
      ((d.snReceive net kind f).prot.conns.get c).firsts = [{ net := net, seq := l + 1, pdu := pduOf p, at? := d.now }] := by
  have hstep : (BitVec.ofNat 16 (fieldBE (pduOf p) 6 2) - l).toNat = 1 := by
    rw [hseq]
    bv_omega
  rw [Dev.snReceive_new h hfirsts hlast hstep, if_neg (by decide), if_pos (by decide)]
  obtain ⟨hseq', hfirst', hcopies'⟩ := Dev.snAct_conn (c := c) (pduOf p) (d := (((d.onConn c fun x =>
    { x with lastSeq := some (BitVec.ofNat 16 (fieldBE (pduOf p) 6 2)) }).onConn c fun x => { x with
      firsts := x.firsts ++ [{ net := net, seq := BitVec.ofNat 16 (fieldBE (pduOf p) 6 2), pdu := pduOf p, at? := d.now }]
      lastFirst := d.now, texp := min (fieldBE (pduOf p) 8 2) (d.field (Reg.prtSnRxCfg c) 0 16) }).raiseIf (1 ≠ 1) .sn (8 + c.1)))
  rw [hseq', hfirst', hcopies', Dev.raiseIf, if_neg (by decide), Dev.onConn_self, Dev.onConn_self, hfirsts, hseq]
  exact ⟨rfl, rfl, rfl⟩

theorem Dev.find_self (g : FirstCopy) : [g].find? (fun x => x.seq == g.seq) = some g := by simp

/-- Off, not valid, or of another kind: nothing is heard. -/
theorem Dev.snReceive_deaf {d : Dev}
    (h : d.prot.armed = false ∨ d.netOn net = false ∨ ((pduIn f).map fun p => pduValid p && fieldBE p 1 1 == kind) ≠ some true) :
    d.snReceive net kind f = d := by
  rw [Dev.snReceive]
  cases hp : pduIn f with
  | none => rfl
  | some p =>
    obtain h | h | h := h
    · exact if_neg (by simp [h])
    all_goals
      refine ite_eq_right_iff.mpr fun _ => ?_
      rw [Dev.snFrame, if_pos]
    · simp [h]
    · simp only [hp, Option.map_some, ne_eq, Option.some.injEq, Bool.and_eq_true, beq_iff_eq, not_and] at h
      cases hv : pduValid p
      · simp
      · simp [h hv]

/-- The connection is at fault, with its copies as they were. -/
theorem Dev.snFault_conn (d : Dev) (c : Fin 8) :
    ((d.snFault c).prot.conns.get c).fault = true ∧ ((d.snFault c).prot.conns.get c).faultAt = d.now ∧
      ((d.snFault c).prot.conns.get c).firsts = (d.prot.conns.get c).firsts ∧
      (d.snFault c).bit Reg.prtSnEvents (16 + c.1) = true := by
  obtain ⟨hconn, hbit⟩ := Dev.snFault_shows (d := d) (c := c)
  rw [hconn]
  exact ⟨rfl, rfl, rfl, hbit⟩

/-- The device's own frame: the next SEQ, valid, on each enabled network (R312 to R315). -/
theorem Dev.snSend_shows (d : Dev) (ha : d.netOn .a = true) :
    d.snSend.prot.txSeq = d.prot.txSeq + 1 ∧ d.snSend.prot.txAt = d.now ∧ pduValid d.snSend.prot.txPdu = true ∧
      fieldBE d.snSend.prot.txPdu 6 2 = (d.prot.txSeq + 1).toNat ∧ 60 ≤ d.snSend.prot.txA.length ∧
      d.snSend.prot.txB.isEmpty = !d.netOn .b ∧ d.Keeps d.snSend [.prot] := by
  refine ⟨rfl, rfl, snBody_valid _ _ _ _, snBody_seq _ _ _ _ _, ?_, ?_, Dev.snSend_keeps d⟩
  · change 60 ≤ (if d.netOn .a = true then _ else []).length
    rw [if_pos ha]
    exact d.snEthernet_length .a _
  · change (if d.netOn .b = true then _ else []).isEmpty = _
    cases hb : d.netOn .b
    · rfl
    · rw [if_pos rfl]
      have hlong := d.snEthernet_length .b d.snSend.prot.txPdu
      cases hframe : d.snEthernet .b d.snSend.prot.txPdu with
      | nil => simp [hframe] at hlong
      | cons x xs => exact congrArg List.isEmpty hframe

end

/-- Settles O40: each frame is heard, paired or a fault by the lemma on its SEQ; the timers by their bounds; the own frame by its construction. -/
theorem safetyNetwork : Obligations.SafetyNetwork := by
  unfold Obligations.SafetyNetwork
  refine ⟨?dataCopy, ?resetCopy, ?pair, ?unlike, ?again, ?ahead, ?unknown, ?deaf, ?copyLate, ?copyIdle, ?watchdog, ?watchdogIdle,
    ?start, ?startIdle, ?send, ?sendIdle⟩
  case dataCopy =>
    intro s net f p c l harmed hon hp hvalid hkind hconn hopen hfirsts hlast hseq
    have h : s.dev.Hears net 1 f p c := ⟨harmed, hon, hp, hvalid, hkind, hconn, hopen⟩
    have hshows := Dev.snReceive_next h hfirsts hlast hseq
    generalize hexec : s.dev.snReceive net 1 f = e at *
    refine .of_eq (exec_snDataFrame net f s) hexec ?_
    rwa [Dev.settled_prot]
  case resetCopy =>
    intro s net f p c l harmed hon hp hvalid hkind hconn hopen hfirsts hlast hseq
    have h : s.dev.Hears net 2 f p c := ⟨harmed, hon, hp, hvalid, hkind, hconn, hopen⟩
    have hshows := Dev.snReceive_next h hfirsts hlast hseq
    generalize hexec : s.dev.snReceive net 2 f = e at *
    refine .of_eq (exec_snResetFrame net f s) hexec ?_
    rwa [Dev.settled_prot]
  case pair =>
    intro s f p c t harmed hon hp hvalid hkind hconn hopen hfirsts htime
    have h : s.dev.Hears .b 1 f p c := ⟨harmed, hon, hp, hvalid, hkind, hconn, hopen⟩
    have hexec := (Dev.snReceive_known h (by rw [hfirsts]; exact Dev.find_self _)).trans
      ((if_neg SafetyNet.noConfusion).trans (if_pos ⟨rfl, htime⟩))
    refine .of_eq (exec_snDataFrame .b f s) hexec ?_
    rw [Dev.settled_prot, Dev.onConn_self, Dev.onConn_self, hfirsts]
    exact ⟨by simp, rfl, rfl, (Dev.Keeps.onConn (Dev.onConn_keeps _ _ _)).settled⟩
  case unlike =>
    intro s f p q c t harmed hon hp hvalid hkind hconn hopen hfirsts hq
    have h : s.dev.Hears .b 1 f p c := ⟨harmed, hon, hp, hvalid, hkind, hconn, hopen⟩
    have hexec := (Dev.snReceive_known h (by rw [hfirsts]; exact Dev.find_self _)).trans
      ((if_neg SafetyNet.noConfusion).trans (if_neg fun hsame => hq hsame.1))
    obtain ⟨hfault, -, hleft, hbit⟩ := Dev.snFault_conn (s.dev.onConn c fun x =>
      { x with firsts := x.firsts.filter fun g => decide (g.seq ≠ BitVec.ofNat 16 (fieldBE (pduOf p) 6 2)) }) c
    rw [Dev.onConn_self, hfirsts] at hleft
    generalize Dev.snFault _ c = e at *
    refine .of_eq (exec_snDataFrame .b f s) hexec ?_
    rw [Dev.settled_prot, Dev.settled_bit]
    exact ⟨hleft.trans (by simp), hfault, hbit⟩
  case again =>
    intro s net f p c t harmed hon hp hvalid hkind hconn hopen hcopies
    have h : s.dev.Hears net 1 f p c := ⟨harmed, hon, hp, hvalid, hkind, hconn, hopen⟩
    obtain hfirsts | ⟨hfirsts, hlast⟩ := hcopies
    · exact .idle (exec_snDataFrame net f s) ((Dev.snReceive_known h (by rw [hfirsts]; exact Dev.find_self _)).trans (if_pos rfl))
    · exact .idle (exec_snDataFrame net f s) ((Dev.snReceive_new h hfirsts hlast (by rw [BitVec.sub_self]; rfl)).trans (if_pos rfl))
  case ahead =>
    intro s net f p c l harmed hon hp hvalid hkind hconn hopen hfirsts hlast hfar
    have h : s.dev.Hears net 1 f p c := ⟨harmed, hon, hp, hvalid, hkind, hconn, hopen⟩
    have hexec := (Dev.snReceive_new h hfirsts hlast rfl).trans ((if_neg (by omega)).trans (if_neg (by omega)))
    obtain ⟨hfault, -, -, hbit⟩ := Dev.snFault_conn (s.dev.onConn c fun x =>
      { x with lastSeq := some (BitVec.ofNat 16 (fieldBE (pduOf p) 6 2)) }) c
    generalize Dev.snFault _ c = e at *
    refine .of_eq (exec_snDataFrame net f s) hexec ?_
    rw [Dev.settled_prot, Dev.settled_bit]
    exact ⟨hfault, hbit⟩
  case unknown =>
    intro s net f p harmed hon hp hvalid hkind hconn
    refine .of_eq (exec_snDataFrame net f s) (e := s.dev.count Reg.prtSnUnknown) ?_ ⟨?_, rfl, ?_⟩
    · rw [Dev.snReceive, hp]
      simp only [harmed, if_true, Dev.snFrame]
      rw [if_neg (by simp [hon, hvalid, hkind]), hconn]
    · rw [Dev.settled_reg, Dev.count_reg, if_pos rfl]
    · exact (Dev.RegsBut.rfl.count (by simp)).settled
  case deaf =>
    intro s net f k c hwhich hnone
    obtain ⟨rfl, rfl⟩ | ⟨rfl, rfl⟩ := hwhich
    · exact .idle (exec_snDataFrame net f s) (Dev.snReceive_deaf hnone)
    · exact .idle (exec_snResetFrame net f s) (Dev.snReceive_deaf hnone)
  case copyLate =>
    intro s c f hopen hfirsts hlate
    have hl : decide (f.at? + ms (s.dev.texpOf c f) < s.dev.now) = true := decide_eq_true hlate
    have hexec : s.dev.copyLate c = (s.dev.onConn c fun x =>
        { x with firsts := x.firsts.filter fun f => !decide (f.at? + ms (s.dev.texpOf c f) < s.dev.now) }).snFault c :=
      if_pos ⟨hopen, by rw [hfirsts, List.any_cons, hl, Bool.true_or]⟩
    obtain ⟨hfault, hat, hleft, hbit⟩ := Dev.snFault_conn (s.dev.onConn c fun x =>
      { x with firsts := x.firsts.filter fun f => !decide (f.at? + ms (s.dev.texpOf c f) < s.dev.now) }) c
    rw [Dev.onConn_self, hfirsts] at hleft
    generalize Dev.snFault _ c = e at *
    refine .of_eq (exec_snSecondCopyTimeout c s) hexec ?_
    rw [Dev.settled_prot, Dev.settled_bit]
    exact ⟨hleft.trans (by simp only [List.filter_cons, hl]; rfl), hfault, hat, hbit⟩
  case copyIdle =>
    intro s c hnot
    refine .idle (exec_snSecondCopyTimeout c s) (if_neg ?_)
    rintro ⟨hopen, hlate⟩
    obtain h | h := hnot
    · simp [h] at hopen
    · exact absurd (h.symm.trans hlate) (by simp)
  case watchdog =>
    intro s c hopen hseq hlate hfault
    have hexec : s.dev.watchdogLate c = s.dev.snFault c := if_pos ⟨hopen, hseq, hlate, by simpa using hfault⟩
    obtain ⟨hnow, hat, -, hbit⟩ := Dev.snFault_conn s.dev c
    generalize s.dev.snFault c = e at *
    refine .of_eq (exec_snWatchdogExpiry c s) hexec ?_
    rw [Dev.settled_prot, Dev.settled_bit]
    exact ⟨hnow, hat, hbit⟩
  case watchdogIdle =>
    intro s c hnot
    refine .idle (exec_snWatchdogExpiry c s) (if_neg ?_)
    rintro ⟨hopen, hseq, hlate, -⟩
    obtain h | h | h := hnot
    · simp [h] at hopen
    · simp [h] at hseq
    · exact absurd hlate (Nat.not_lt.mpr h)
  case start =>
    intro s c hopen hpair hfault hlate
    have hexec : s.dev.startLate c = s.dev.snFault c := if_pos ⟨hopen, by simp [hpair], by simp [hfault], hlate⟩
    obtain ⟨hnow, hat, -, hbit⟩ := Dev.snFault_conn s.dev c
    generalize s.dev.snFault c = e at *
    refine .of_eq (exec_snStartTimeout c s) hexec ?_
    rw [Dev.settled_prot, Dev.settled_bit]
    exact ⟨hnow, hat, hbit⟩
  case startIdle =>
    intro s c hnot
    refine .idle (exec_snStartTimeout c s) (if_neg ?_)
    rintro ⟨hopen, hpair, -, hlate⟩
    obtain h | h | h := hnot
    · simp [h] at hopen
    · simp [h] at hpair
    · exact absurd hlate (Nat.not_lt.mpr h)
  case send =>
    intro s harmed hboot ha hdue
    have hexec : s.dev.snTx = s.dev.snSend := if_pos ⟨harmed, by simp [hboot], .inl ha, hdue⟩
    obtain ⟨hseq, hat, hvalid, hfield, hlong, hb, hkeeps⟩ := s.dev.snSend_shows ha
    generalize s.dev.snSend = e at *
    refine .of_eq (exec_snTx s) hexec ?_
    rw [Dev.settled_prot]
    exact ⟨hseq, hat, hvalid, hfield, hlong, hb, hkeeps.settled⟩
  case sendIdle =>
    intro s hnot
    refine .idle (exec_snTx s) (if_neg ?_)
    rintro ⟨harmed, hboot, hon, hdue⟩
    obtain h | h | ⟨ha, hb⟩ | ⟨hearly, hsame⟩ := hnot
    · simp [h] at harmed
    · simp [h] at hboot
    · simp [ha, hb] at hon
    · obtain hdue | hchanged := hdue
      · exact absurd hdue (Nat.not_le.mpr hearly)
      · exact hchanged hsame

end Sys2Proof.Machine
end


section
/-! SUPPORT. What the operations of a vehicle session show (R252 to R256, R265 to R277). -/

namespace Sys2Proof.Machine

set_option Elab.async false

section
variable {d : Dev} {n : LinkId}

/-! ### A run dropped -/

@[simp] theorem Dev.dropRun_veh (d : Dev) (n : LinkId) :
    ((d.dropRun n).link n).veh = { (d.link n).veh with slac := none, tls := false, contract := false } := by
  simp [Dev.dropRun, Dev.cancel, Dev.dropRngWait]

@[simp] theorem Dev.dropRun_reg (d : Dev) (n : LinkId) (a : Nat) : (d.dropRun n).reg a = d.reg a := rfl

@[simp] theorem Dev.dropRun_now (d : Dev) (n : LinkId) : (d.dropRun n).now = d.now := rfl

theorem Dev.LinksBut.dropRun {e : Dev} (h : d.LinksBut e n) : d.LinksBut (e.dropRun n) n :=
  (h.onVeh (f := fun v => { v with slac := none, tls := false, contract := false })).of_same fun _ => Eq.refl _

/-! ### Controlled stop -/

/-- What no operation of the controlled stop moves: the inputs of the vehicle. -/
def Vehicle.SameInputs (v w : Vehicle) : Prop :=
  w.pilot = v.pilot ∧ w.pp = v.pp ∧ w.cableA = v.cableA ∧ w.diodeSince = v.diodeSince ∧ w.ppFault = v.ppFault

theorem Vehicle.SameInputs.rfl {v : Vehicle} : v.SameInputs v := ⟨Eq.refl _, Eq.refl _, Eq.refl _, Eq.refl _, Eq.refl _⟩

theorem Dev.startStop_idle (why : StopReason) (rank : Nat) (h : (d.link n).veh.live = false) : d.startStop n why rank = d :=
  if_neg (by simp [h])

theorem Dev.startStop_inputs (why : StopReason) (rank : Nat) :
    (d.link n).veh.SameInputs ((d.startStop n why rank).link n).veh := by
  unfold Dev.startStop
  split_ifs
  · by_cases hwhy : (d.link n).veh.stopWhy = .none
    · rw [Dev.beginStop_veh why rank hwhy]
      exact .rfl
    · unfold Dev.beginStop
      extract_lets v
      rw [if_pos hwhy]
      split_ifs
      · rw [Dev.onVeh_link, if_pos rfl]
        exact .rfl
      · exact .rfl
  · exact .rfl

theorem Dev.startStop_regsBut (why : StopReason) (rank : Nat) : d.RegsBut (d.startStop n why rank) [Reg.vehReq n] := by
  unfold Dev.startStop
  split_ifs
  · exact d.beginStop_regsBut n why rank
  · exact .rfl

@[simp] theorem Dev.command_reg (d : Dev) (n : LinkId) (k : Fin 16) (shut : Bool) (a : Nat) : (d.command n k shut).reg a = d.reg a := by
  unfold Dev.command
  split_ifs <;> rfl

@[simp] theorem Dev.command_veh (d : Dev) (n m : LinkId) (k : Fin 16) (shut : Bool) :
    ((d.command n k shut).link m).veh = (d.link m).veh := (d.command_keeps n k shut).veh m

@[simp] theorem Dev.command_now (d : Dev) (n : LinkId) (k : Fin 16) (shut : Bool) : (d.command n k shut).now = d.now :=
  (d.command_keeps n k shut).now

theorem Dev.LinksBut.command {e : Dev} {k : Fin 16} {shut : Bool} (h : d.LinksBut e n) : d.LinksBut (e.command n k shut) n := by
  unfold Dev.command
  split_ifs
  · exact h
  · exact h.onCmd.onCon
  · exact h.onCmd.onCon

/-- The outlet's contactor commanded open and no current offered, before any stop. -/
def Dev.cutOff (d : Dev) (n : LinkId) : Dev :=
  (d.command n 0 false).onVeh n fun v => { v with openCmd := true, iout := 0, turning := none }

theorem Dev.openNow_eq (d : Dev) (n : LinkId) (why : StopReason) (rank : Nat) :
    d.openNow n why rank = (d.cutOff n).startStop n why rank := rfl

theorem Dev.cutOff_veh (d : Dev) (n : LinkId) :
    ((d.cutOff n).link n).veh = { (d.link n).veh with openCmd := true, iout := 0, turning := none } := by
  rw [Dev.cutOff, Dev.onVeh_link, if_pos rfl, ← d.command_veh n n 0 false]

theorem Dev.cutOff_now (d : Dev) (n : LinkId) : (d.cutOff n).now = d.now := d.command_now n 0 false

theorem Dev.cutOff_open (d : Dev) (n : LinkId) : ((d.cutOff n).link n).cmd.close.getLsbD 0 = false := by
  rw [Dev.cutOff, Dev.onVeh_link, if_pos rfl]
  exact Dev.command_open 0 0 (.inr rfl)

theorem Dev.openNow_open (d : Dev) (n : LinkId) (why : StopReason) (rank : Nat) :
    ((d.openNow n why rank).link n).cmd.close.getLsbD 0 = false := by
  rw [Dev.openNow_eq, ((d.cutOff n).startStop_keeps n why rank).cmd n, d.cutOff_open]

theorem Dev.openNow_regsBut (d : Dev) (n : LinkId) (why : StopReason) (rank : Nat) : d.RegsBut (d.openNow n why rank) [Reg.vehReq n] :=
  Dev.RegsBut.trans (b := d.cutOff n) (fun a _ => d.command_reg n 0 false a) (Dev.startStop_regsBut why rank)

theorem Dev.openNow_inputs (d : Dev) (n : LinkId) (why : StopReason) (rank : Nat) :
    (d.link n).veh.SameInputs ((d.openNow n why rank).link n).veh := by
  have h := Dev.startStop_inputs (d := d.cutOff n) (n := n) why rank
  rw [d.cutOff_veh n] at h
  exact h

/-! ### FAULT -/

theorem Dev.enterFault_veh (d : Dev) (n : LinkId) (fail : Nat) :
    ((d.enterFault n fail).link n).veh =
      { (d.link n).veh with slac := none, tls := false, contract := false, waitAuth := none, state := .fault, stateAt := d.now } := by
  unfold Dev.enterFault
  split_ifs
  · simp
  · simp [Dev.lastEnd]

theorem Dev.enterFault_regsBut (d : Dev) (n : LinkId) (fail : Nat) : d.RegsBut (d.enterFault n fail) [Reg.vehLastEnd n] := by
  unfold Dev.enterFault
  split_ifs
  · exact Dev.RegsBut.rfl.of_same fun a => by rw [Dev.toState_reg, Dev.onVeh_reg, Dev.dropRun_reg]
  · have h := Dev.RegsBut.rfl (d := d) |>.setReg (a := Reg.vehLastEnd n) (as := [Reg.vehLastEnd n])
      (w := packWord [(16, 4, (d.link n).veh.state.code), (8, 8, fail), (0, 8, 0)]) (by simp)
    exact h.of_same fun a => by rw [Dev.toState_reg, Dev.onVeh_reg, Dev.dropRun_reg]; rfl

theorem Reg.vehEvents_ne_vehReq (n : LinkId) : Reg.vehEvents n ≠ Reg.vehReq n := by
  simp only [Reg.vehEvents, Reg.vehReq]
  omega

theorem Reg.vehEvents_ne_vehLastEnd (n : LinkId) : Reg.vehEvents n ≠ Reg.vehLastEnd n := by
  simp only [Reg.vehEvents, Reg.vehLastEnd]
  omega

/-- A pilot fault: FAULT with its event, the contactor open and state F for 4 s. -/
theorem Dev.pilotFaulted_shows (d : Dev) (n : LinkId) :
    (d.link n).veh.SameInputs ((d.pilotFaulted n).link n).veh ∧
      ((d.pilotFaulted n).link n).veh.state = .fault ∧
      ((d.pilotFaulted n).link n).veh.pilotFUntil = some (d.now + 4000000) ∧
      (d.pilotFaulted n).bit (Reg.vehEvents n) 6 = true ∧
      ((d.pilotFaulted n).link n).cmd.close.getLsbD 0 = false := by
  unfold Dev.pilotFaulted
  extract_lets d1
  have hin : (d.link n).veh.SameInputs (d1.link n).veh := by
    have h := (d.raise (.veh n) 6).openNow_inputs n .vehicle (vehRank n)
    rwa [Dev.raise_link] at h
  have hbit : d1.bit (Reg.vehEvents n) 6 = true := by
    rw [Dev.bit, Dev.openNow_regsBut _ n _ _ _ (by simpa using Reg.vehEvents_ne_vehReq n)]
    exact d.raise_bit (.veh n) _ _ (by decide)
  have hopen : (d1.link n).cmd.close.getLsbD 0 = false := Dev.openNow_open _ n _ _
  clear_value d1
  rw [Dev.onVeh_link, if_pos rfl]
  refine ⟨?_, ?_, rfl, ?_, ?_⟩
  · rw [d1.enterFault_veh]
    exact hin
  · rw [d1.enterFault_veh]
  · rw [Dev.bit, Dev.onVeh_reg, d1.enterFault_regsBut n 8 _ (by simpa using Reg.vehEvents_ne_vehLastEnd n)]
    exact hbit
  · change ((d1.enterFault n 8).link n).cmd.close.getLsbD 0 = false
    rw [(d1.enterFault_keeps n 8).cmd n, hopen]

/-! ### Plug-in and plug-out -/

/-- The vehicle as unplugging leaves it, before the outlet is IDLE. -/
def Vehicle.unplugged (v : Vehicle) : Vehicle :=
  { v with
    basic := v.live && v.basic, protocol := if v.live then v.protocol else .none, restartAt := none, wait := .none
    tempoWaiting := false, waitAuth := none, cToBAt := none, pilotFUntil := none, tries := 0, active := false }

/-- State A with no session: IDLE, the run dropped and the contactor open. -/
theorem Dev.unplug_shows (d : Dev) (n : LinkId) (hlive : (d.link n).veh.live = false) :
    (d.link n).veh.SameInputs ((d.unplug n).link n).veh ∧ ((d.unplug n).link n).veh.state = .idle ∧
      ((d.unplug n).link n).veh.slac = none ∧ ((d.unplug n).link n).cmd.close.getLsbD 0 = false := by
  unfold Dev.unplug
  extract_lets v d1 d2 d3
  have h1 : (d1.link n).veh = { (d.link n).veh with slac := none, tls := false, contract := false } := by
    unfold d1
    rw [Dev.dropRun_veh]
    split_ifs
    · rfl
    · rw [Dev.raise_link]
  have h2 : (d2.link n).veh = { (d1.link n).veh with openCmd := true, iout := 0, turning := none } := by
    unfold d2
    rw [Dev.openNow_eq, Dev.startStop_idle _ _ (by rw [d1.cutOff_veh, h1]; exact hlive), d1.cutOff_veh]
  have hopen : (d2.link n).cmd.close.getLsbD 0 = false := d1.openNow_open n _ _
  clear_value d2
  have h3 : (d3.link n).veh = (d2.link n).veh.unplugged := by
    unfold d3
    rw [Dev.onVeh_link, if_pos rfl]
    rfl
  have hopen3 : (d3.link n).cmd.close.getLsbD 0 = false := by
    unfold d3
    rw [Dev.onVeh_link, if_pos rfl]
    exact hopen
  clear_value d3
  have hlive3 : (d3.link n).veh.live = false := by
    rw [h3, h2, h1]
    exact hlive
  rw [if_neg (by simp [hlive3]), Dev.toState_veh, h3, h2, h1]
  refine ⟨.rfl, rfl, rfl, ?_⟩
  rw [(d3.toState_keeps n .idle).cmd n]
  exact hopen3

/-- State A in a live session: the controlled stop with reason 2, the contactor open. -/
theorem Dev.unplug_live (d : Dev) (n : LinkId) (hlive : (d.link n).veh.live = true) (hwhy : (d.link n).veh.stopWhy = .none) :
    (d.link n).veh.SameInputs ((d.unplug n).link n).veh ∧ ((d.unplug n).link n).veh.state = .stopping ∧
      ((d.unplug n).link n).veh.stopWhy = .unplug ∧ ((d.unplug n).link n).veh.openCmd = true ∧
      ((d.unplug n).link n).veh.iout = 0 ∧ ((d.unplug n).link n).cmd.close.getLsbD 0 = false := by
  unfold Dev.unplug
  extract_lets v d1 d2 d3
  have h1 : (d1.link n).veh = { (d.link n).veh with slac := none, tls := false, contract := false } := by
    unfold d1
    rw [Dev.dropRun_veh]
    split_ifs
    · rfl
    · rw [Dev.raise_link]
  have h2 : (d2.link n).veh = ({ (d1.link n).veh with openCmd := true, iout := 0, turning := none } : Vehicle).stopped .unplug
      (vehRank n) d1.now := by
    unfold d2
    rw [Dev.openNow_eq, Dev.startStop_of_live _ _ (by rw [d1.cutOff_veh, h1]; exact hlive),
      Dev.beginStop_veh _ _ (by rw [d1.cutOff_veh, h1]; exact hwhy), d1.cutOff_veh, d1.cutOff_now]
  have hopen : (d2.link n).cmd.close.getLsbD 0 = false := d1.openNow_open n _ _
  clear_value d2
  have h3 : (d3.link n).veh = (d2.link n).veh.unplugged := by
    unfold d3
    rw [Dev.onVeh_link, if_pos rfl]
    rfl
  have hopen3 : (d3.link n).cmd.close.getLsbD 0 = false := by
    unfold d3
    rw [Dev.onVeh_link, if_pos rfl]
    exact hopen
  clear_value d3
  have hlive3 : (d3.link n).veh.live = true := by
    rw [h3, h2, h1]
    exact hlive
  rw [if_pos hlive3, h3, h2, h1]
  exact ⟨.rfl, rfl, rfl, rfl, rfl, hopen3⟩

@[simp] theorem Dev.forgetVehicle_link (d : Dev) (n m : LinkId) : (d.forgetVehicle n).link m = d.link m := by
  simp only [Dev.forgetVehicle, Dev.setReg_link]

theorem Dev.forgetVehicle_events (d : Dev) (n : LinkId) : (d.forgetVehicle n).reg (Reg.vehEvents n) = d.reg (Reg.vehEvents n) := by
  unfold Dev.forgetVehicle
  have hne : Reg.vehEvents n ≠ Reg.vehEvMacLo n ∧ Reg.vehEvents n ≠ Reg.vehEvMacHi n ∧ Reg.vehEvents n ≠ Reg.vehEvPower n ∧
      Reg.vehEvents n ≠ Reg.vehEvVolt n ∧ Reg.vehEvents n ≠ Reg.vehEvCurr n ∧ Reg.vehEvents n ≠ Reg.vehEvSoc n ∧
      Reg.vehEvents n ≠ Reg.vehSlac n ∧ Reg.vehEvents n ≠ Reg.vehPub n := by
    simp only [Reg.vehEvents, Reg.vehEvMacLo, Reg.vehEvMacHi, Reg.vehEvPower, Reg.vehEvVolt, Reg.vehEvCurr, Reg.vehEvSoc, Reg.vehSlac,
      Reg.vehPub]
    omega
  obtain ⟨h1, h2, h3, h4, h5, h6, h7, h8⟩ := hne
  simp [Dev.setReg_reg, h1, h2, h3, h4, h5, h6, h7, h8]

/-- A plug-in without a proximity fault: PLUGGED at this tick, with its event. -/
theorem Dev.plugIn_shows (d : Dev) (n : LinkId) (hpp : (d.link n).veh.ppFault = false) :
    ((d.plugIn n).link n).veh.pilot = (d.link n).veh.pilot ∧ ((d.plugIn n).link n).veh.state = .plugged ∧
      ((d.plugIn n).link n).veh.stateAt = d.now ∧ ((d.plugIn n).link n).veh.tries = 0 ∧
      (d.plugIn n).bit (Reg.vehEvents n) 0 = true := by
  unfold Dev.plugIn
  extract_lets d1 d2
  have h1 : (d1.link n).veh.pilot = (d.link n).veh.pilot ∧ (d1.link n).veh.state = .plugged ∧ (d1.link n).veh.stateAt = d.now ∧
      (d1.link n).veh.tries = 0 ∧ (d1.link n).veh.ppFault = (d.link n).veh.ppFault := by
    unfold d1
    rw [Dev.toState_veh, Dev.onVeh_link, if_pos rfl]
    exact ⟨rfl, rfl, rfl, rfl, rfl⟩
  clear_value d1
  have hlink : d2.link n = d1.link n := by
    unfold d2
    rw [Dev.forgetVehicle_link, Dev.countField_link, Dev.raise_link]
  have hbit : d2.bit (Reg.vehEvents n) 0 = true := by
    unfold d2
    rw [Dev.bit, Dev.forgetVehicle_events, Dev.countField_reg, if_neg (by simp only [Reg.vehEvents, Reg.vehCounts]; omega)]
    exact d1.raise_bit (.veh n) _ _ (by decide)
  obtain ⟨hpilot, hstate, hat, htries, hfault⟩ := h1
  rw [if_neg (by rw [hlink, hfault, hpp]; decide), hlink]
  exact ⟨hpilot, hstate, hat, htries, hbit⟩

end

end Sys2Proof.Machine
end


section
/-! SUPPORT. Pilot and proximity (R252 to R256). -/

namespace Sys2Proof.Machine

set_option Elab.async false

section
variable {d : Dev} {n : LinkId} {p : Pilot}

/-- The pilot state taken, before the outlet acts on it. -/
def Dev.pilotSet (d : Dev) (n : LinkId) (p : Pilot) : Dev :=
  d.onVeh n fun x => { x with
    pilot := p
    slac := x.slac.map fun r =>
      if p = .b ∧ ((d.link n).veh.pilot == .c || (d.link n).veh.pilot == .d) then { r with toggles := r.toggles + 1 } else r }

theorem Dev.pilotSet_veh (d : Dev) (n : LinkId) (p : Pilot) :
    ((d.pilotSet n p).link n).veh = { (d.link n).veh with
      pilot := p
      slac := (d.link n).veh.slac.map fun r =>
        if p = .b ∧ ((d.link n).veh.pilot == .c || (d.link n).veh.pilot == .d) then { r with toggles := r.toggles + 1 } else r } := by
  rw [Dev.pilotSet, Dev.onVeh_link, if_pos rfl]

theorem Dev.pilotSet_veh_of_ne (d : Dev) (n : LinkId) (hp : p ≠ .b) :
    ((d.pilotSet n p).link n).veh = { (d.link n).veh with pilot := p } := by
  rw [Dev.pilotSet_veh]
  simp [hp]

theorem Dev.pilotSet_cmd (d : Dev) (n : LinkId) (p : Pilot) : ((d.pilotSet n p).link n).cmd = (d.link n).cmd := by
  rw [Dev.pilotSet, Dev.onVeh_link, if_pos rfl]

theorem Dev.pilotSet_fb (d : Dev) (n : LinkId) (p : Pilot) (k : Nat) : (d.pilotSet n p).fb n k = d.fb n k := by
  rw [Dev.fb, Dev.pilotSet, Dev.onVeh_link, if_pos rfl, Dev.fb]

theorem Dev.pilotSet_low (d : Dev) (n : LinkId) (p : Pilot) (a : Nat) : (d.pilotSet n p).currentAtMost n a = d.currentAtMost n a := by
  have hs : (d.pilotSet n p).samples n 1 = d.samples n 1 := by
    simp only [Dev.samples, Dev.pilotSet, Dev.onVeh_link, if_true]
  rw [Dev.currentAtMost, hs, Dev.currentAtMost]

theorem Dev.pilotSet_keeps (d : Dev) (n : LinkId) (p : Pilot) : d.Keeps (d.pilotSet n p) [.veh] := d.onVeh_keeps n _

theorem Dev.pilotSet_linksBut (d : Dev) (n : LinkId) (p : Pilot) : d.LinksBut (d.pilotSet n p) n := Dev.LinksBut.rfl.onVeh

/-- A pilot state held for its 3,000 ticks is taken. -/
structure Dev.Takes (d : Dev) (n : LinkId) (p : Pilot) : Prop where
  outlet : d.role n = .outlet
  trained : d.trained n = true
  cand : (d.link n).veh.cand = some p
  changed : (d.link n).veh.pilot ≠ p
  held : (d.link n).veh.candSince + 3000 ≤ d.now + 1

theorem Dev.Takes.exec {s : State} (h : s.dev.Takes n p) (hp : p ≠ .invalid) :
    exec (.pilotStateTaken n) s = s.upd fun d => d.takePilot n p := by
  rw [exec_pilotStateTaken, execPilotStateTaken, State.upd, State.upd]
  simp only [h.cand]
  rw [if_pos ⟨h.outlet, h.trained, hp, h.changed.symm, decide_eq_true h.held⟩]

theorem Dev.takePilot_silent (h : d.noCable n = true) : d.takePilot n p = d.pilotSet n p := if_pos h

theorem Dev.takePilot_seen (h : d.noCable n = false) :
    d.takePilot n p = (d.pilotSet n p).pilotAction n ((d.link n).veh.pilot == .c || (d.link n).veh.pilot == .d) p :=
  if_neg (by simp [h])

/-- A state on which the outlet does no more than take it. -/
theorem Dev.takePilot_mere (h : ∀ cd, (d.pilotSet n p).pilotAction n cd p = d.pilotSet n p) : d.takePilot n p = d.pilotSet n p := by
  cases hc : d.noCable n
  · rw [Dev.takePilot_seen hc, h]
  · exact Dev.takePilot_silent hc

/-! ### A coded cable -/

theorem codedCable_of_band {pp a : Nat}
    (h : 5 ≤ pp ∧ pp ≤ 13 ∧ a = 63 ∨ 17 ≤ pp ∧ pp ≤ 30 ∧ a = 32 ∨ 50 ≤ pp ∧ pp ≤ 100 ∧ a = 20 ∨ 110 ≤ pp ∧ pp ≤ 250 ∧ a = 13) :
    codedCable pp = some a ∧ a ≠ 0 := by
  unfold codedCable
  obtain ⟨h1, h2, rfl⟩ | ⟨h1, h2, rfl⟩ | ⟨h1, h2, rfl⟩ | ⟨h1, h2, rfl⟩ := h
  · exact ⟨if_pos ⟨h1, h2⟩, by decide⟩
  · exact ⟨(if_neg (by omega)).trans (if_pos ⟨h1, h2⟩), by decide⟩
  · exact ⟨(if_neg (by omega)).trans ((if_neg (by omega)).trans (if_pos ⟨h1, h2⟩)), by decide⟩
  · exact ⟨(if_neg (by omega)).trans ((if_neg (by omega)).trans ((if_neg (by omega)).trans (if_pos ⟨h1, h2⟩))), by decide⟩

/-- A proximity value outside its codes: PP_FAULT with its event. -/
theorem Dev.proxFault_shows (d : Dev) (n : LinkId) :
    ((d.proxFault n).link n).veh.ppFault = true ∧ (d.proxFault n).bit (Reg.vehEvents n) 7 = true := by
  unfold Dev.proxFault
  extract_lets d1 v
  have hfault : (d1.link n).veh.ppFault = true := by
    unfold d1
    rw [Dev.raise_link, Dev.onVeh_link, if_pos rfl]
  have hbit : d1.bit (Reg.vehEvents n) 7 = true := Dev.raise_bit _ (.veh n) _ _ (by decide)
  clear_value d1
  split_ifs
  · obtain ⟨-, -, -, -, hpp⟩ := Dev.startStop_inputs (d := d1) (n := n) .vehicle (vehRank n)
    rw [hpp, Dev.bit, Dev.startStop_regsBut _ _ _ (by simpa using Reg.vehEvents_ne_vehReq n)]
    exact ⟨hfault, hbit⟩
  · exact ⟨hfault, hbit⟩
  · rw [d1.enterFault_veh, Dev.bit, d1.enterFault_regsBut n 7 _ (by simpa using Reg.vehEvents_ne_vehLastEnd n)]
    exact ⟨hfault, hbit⟩

/-- A proximity value held for its 3,000 ticks is taken. -/
theorem exec_proximityTaken_of {s : State} (hrole : s.dev.role n = .outlet) (htrained : s.dev.trained n = true)
    (hcand : (s.dev.link n).veh.cand.isSome = true) (hpp : (s.dev.link n).veh.pp ≠ some (s.dev.link n).veh.ppRaw)
    (hheld : (s.dev.link n).veh.ppSince + 3000 ≤ s.dev.now + 1) :
    exec (.proximityTaken n) s = s.upd fun d => d.takeProx n (s.dev.link n).veh.ppRaw := by
  rw [exec_proximityTaken, execProximityTaken, State.upd, State.upd]
  exact congrArg (fun e : Dev => (.next { s with dev := e.settled } : Ending))
    (if_pos (c := _ ∧ _ ∧ _ ∧ _ ∧ _) ⟨hrole, htrained, hcand, hpp, decide_eq_true hheld⟩)

end

end Sys2Proof.Machine
end


section
/-! SUPPORT. Pilot and proximity: what the statement asks (R252 to R256). -/

namespace Sys2Proof.Machine

set_option Elab.async false

/-- Settles O33: each state by what the outlet does on it, as `pilotAction` orders them; faults by `pilotFaulted_shows`. -/
theorem pilotRules : Obligations.PilotRules := by
  unfold Obligations.PilotRules
  refine ⟨?aIdle, ?aLive, ?bIdle, ?bAc, ?bDc, ?c, ?d, ?e, ?f, ?fOwn, ?unseen, ?untaken, ?invalid, ?valid, ?diode, ?diodeIdle, ?released, ?held,
    ?cToB, ?cToBIdle, ?coded, ?uncabled, ?ppFault, ?ppOther, ?ppIdle⟩
  case aIdle =>
    intro s n hrole htrained hcand hpilot hheld hcable hlive
    have hset := s.dev.pilotSet_veh_of_ne n (p := .a) (by decide)
    obtain ⟨⟨htaken, -⟩, hstate, hslac, hopen⟩ := (s.dev.pilotSet n .a).unplug_shows n (by rw [hset]; exact hlive)
    have hexec : s.dev.takePilot n .a = (s.dev.pilotSet n .a).unplug n := Dev.takePilot_seen hcable
    rw [hset] at htaken
    generalize (s.dev.pilotSet n .a).unplug n = e at *
    refine .of_eq (Dev.Takes.exec ⟨hrole, htrained, hcand, hpilot, hheld⟩ (by decide)) hexec ?_
    rw [Dev.settled_link]
    exact ⟨htaken, hstate, hslac, hopen⟩
  case aLive =>
    intro s n hrole htrained hcand hpilot hheld hcable hlive hwhy
    have hset := s.dev.pilotSet_veh_of_ne n (p := .a) (by decide)
    obtain ⟨⟨htaken, -⟩, hstate, hstop, hcmd, hcut, hopen⟩ :=
      (s.dev.pilotSet n .a).unplug_live n (by rw [hset]; exact hlive) (by rw [hset]; exact hwhy)
    have hexec : s.dev.takePilot n .a = (s.dev.pilotSet n .a).unplug n := Dev.takePilot_seen hcable
    rw [hset] at htaken
    generalize (s.dev.pilotSet n .a).unplug n = e at *
    refine .of_eq (Dev.Takes.exec ⟨hrole, htrained, hcand, hpilot, hheld⟩ (by decide)) hexec ?_
    rw [Dev.settled_link]
    exact ⟨htaken, hstate, hstop, rfl, hcmd, hcut, hopen⟩
  case bIdle =>
    intro s n hrole htrained hcand hpilot hheld hcable hstate hpp
    have hset := s.dev.pilotSet_veh n .b
    obtain ⟨htaken, hplugged, hat, htries, hbit⟩ := (s.dev.pilotSet n .b).plugIn_shows n (by rw [hset]; exact hpp)
    have hexec : s.dev.takePilot n .b = (s.dev.pilotSet n .b).plugIn n :=
      (Dev.takePilot_seen hcable).trans (if_pos (by rw [hset]; exact hstate))
    rw [hset] at htaken
    generalize (s.dev.pilotSet n .b).plugIn n = e at *
    refine .of_eq (Dev.Takes.exec ⟨hrole, htrained, hcand, hpilot, hheld⟩ (by decide)) hexec ?_
    rw [Dev.settled_link, Dev.settled_bit]
    exact ⟨htaken, hplugged, hat, htries, hbit⟩
  case bAc =>
    intro s n hrole htrained hcand hpilot hheld hcable hstate hwas hac hclosed
    have hset := s.dev.pilotSet_veh n .b
    have hcd : ((s.dev.link n).veh.pilot == .c || (s.dev.link n).veh.pilot == .d) = true := by
      obtain h | h := hwas <;> rw [h] <;> rfl
    have hac' : (s.dev.pilotSet n .b).isAc n = true := hac
    have hexec : s.dev.takePilot n .b = (s.dev.pilotSet n .b).command n 0 false :=
      (Dev.takePilot_seen hcable).trans ((if_neg (by rw [hset]; exact hstate)).trans
        (if_pos (by rw [hcd, hac', s.dev.pilotSet_cmd, hclosed]; rfl)))
    refine .of_eq (Dev.Takes.exec ⟨hrole, htrained, hcand, hpilot, hheld⟩ (by decide)) hexec ?_
    rw [Dev.settled_link, Dev.command_veh, hset]
    exact ⟨rfl, rfl, Dev.command_open 0 0 (.inr rfl), (s.dev.pilotSet_linksBut n .b).command.settled,
      Dev.RegsBut.settled fun a _ => (Dev.command_reg _ n 0 false a).trans rfl⟩
  case bDc =>
    intro s n hrole htrained hcand hpilot hheld hcable hstate hwas hac hlive hwhy hclosed hflows
    have hset := s.dev.pilotSet_veh n .b
    have hcd : ((s.dev.link n).veh.pilot == .c || (s.dev.link n).veh.pilot == .d) = true := by
      obtain h | h := hwas <;> rw [h] <;> rfl
    have hac' : (s.dev.pilotSet n .b).isAc n = false := hac
    have hdc' : (s.dev.pilotSet n .b).isDc n = true := congrArg (!·) hac
    have hflows' : (s.dev.pilotSet n .b).currentAtMost n ((s.dev.pilotSet n .b).stopA n) = false := by
      rw [s.dev.pilotSet_low]
      exact hflows
    have hexec : s.dev.takePilot n .b =
        ((s.dev.pilotSet n .b).startStop n .vehicle (vehRank n)).onVeh n fun x => { x with cToBAt := some s.dev.now } :=
      (Dev.takePilot_seen hcable).trans ((if_neg (by rw [hset]; exact hstate)).trans
        ((if_neg (by rw [hac']; simp)).trans
          (if_pos (by rw [hcd, hdc', hset, hlive, hwhy, s.dev.pilotSet_cmd, hclosed, hflows']; rfl))))
    have hstop := Dev.beginStop_veh .vehicle (vehRank n) (d := s.dev.pilotSet n .b) (n := n) (by rw [hset]; exact hwhy)
    rw [← Dev.startStop_of_live .vehicle (vehRank n) (by rw [hset]; exact hlive), hset] at hstop
    generalize (s.dev.pilotSet n .b).startStop n .vehicle (vehRank n) = e at *
    refine .of_eq (Dev.Takes.exec ⟨hrole, htrained, hcand, hpilot, hheld⟩ (by decide)) hexec ?_
    rw [Dev.settled_link, Dev.onVeh_link, if_pos rfl, hstop]
    exact ⟨rfl, rfl, rfl, rfl, rfl, rfl⟩
  case c =>
    intro s n hrole htrained hcand hpilot hheld
    refine .of_eq (Dev.Takes.exec ⟨hrole, htrained, hcand, hpilot, hheld⟩ (by decide)) (Dev.takePilot_mere fun _ => rfl) ?_
    rw [Dev.settled_link, s.dev.pilotSet_veh_of_ne n (by decide)]
    exact ⟨rfl, (s.dev.pilotSet_linksBut n .c).settled, (s.dev.pilotSet_keeps n .c).settled⟩
  case d =>
    intro s n hrole htrained hcand hpilot hheld hwhere
    have hmere : ∀ cd, (s.dev.pilotSet n .d).pilotAction n cd .d = s.dev.pilotSet n .d := by
      refine fun cd => if_neg ?_
      obtain hvent | ⟨hopen, hfb⟩ := hwhere
      · have hvent' : (s.dev.pilotSet n .d).vehBit n 10 = true := hvent
        rw [hvent']
        simp
      · rw [s.dev.pilotSet_cmd, s.dev.pilotSet_fb, hopen, hfb]
        simp
    refine .of_eq (Dev.Takes.exec ⟨hrole, htrained, hcand, hpilot, hheld⟩ (by decide)) (Dev.takePilot_mere hmere) ?_
    rw [Dev.settled_link, s.dev.pilotSet_veh_of_ne n (by decide)]
    exact ⟨rfl, (s.dev.pilotSet_linksBut n .d).settled, (s.dev.pilotSet_keeps n .d).settled⟩
  case e =>
    intro s n hrole htrained hcand hpilot hheld hcable
    have hset := s.dev.pilotSet_veh_of_ne n (p := .e) (by decide)
    obtain ⟨⟨htaken, -⟩, hstate, huntil, hbit, hopen⟩ := (s.dev.pilotSet n .e).pilotFaulted_shows n
    have hexec : s.dev.takePilot n .e = (s.dev.pilotSet n .e).pilotFaulted n := Dev.takePilot_seen hcable
    rw [hset] at htaken
    generalize (s.dev.pilotSet n .e).pilotFaulted n = e at *
    refine .of_eq (Dev.Takes.exec ⟨hrole, htrained, hcand, hpilot, hheld⟩ (by decide)) hexec ?_
    rw [Dev.settled_link, Dev.settled_bit]
    exact ⟨htaken, hstate, huntil, hbit, hopen⟩
  case f =>
    intro s n hrole htrained hcand hpilot hheld hcable hmode
    have hset := s.dev.pilotSet_veh_of_ne n (p := .f) (by decide)
    obtain ⟨⟨htaken, -⟩, hstate, huntil, hbit, hopen⟩ := (s.dev.pilotSet n .f).pilotFaulted_shows n
    have hexec : s.dev.takePilot n .f = (s.dev.pilotSet n .f).pilotFaulted n :=
      (Dev.takePilot_seen hcable).trans (if_neg (by rw [s.dev.pilotSet_cmd]; exact hmode))
    rw [hset] at htaken
    generalize (s.dev.pilotSet n .f).pilotFaulted n = e at *
    refine .of_eq (Dev.Takes.exec ⟨hrole, htrained, hcand, hpilot, hheld⟩ (by decide)) hexec ?_
    rw [Dev.settled_link, Dev.settled_bit]
    exact ⟨htaken, hstate, huntil, hbit, hopen⟩
  case fOwn =>
    intro s n hrole htrained hcand hpilot hheld hmode
    refine .of_eq (Dev.Takes.exec ⟨hrole, htrained, hcand, hpilot, hheld⟩ (by decide))
      (Dev.takePilot_mere fun _ => if_pos (by rw [s.dev.pilotSet_cmd]; exact hmode)) ?_
    rw [Dev.settled_link, s.dev.pilotSet_veh_of_ne n (by decide)]
    exact ⟨rfl, (s.dev.pilotSet_linksBut n .f).settled, (s.dev.pilotSet_keeps n .f).settled⟩
  case unseen =>
    intro s n p hrole htrained hcand hpilot hp hheld hcable
    refine .of_eq (Dev.Takes.exec ⟨hrole, htrained, hcand, hpilot, hheld⟩ hp) (Dev.takePilot_silent hcable) ?_
    rw [Dev.settled_link, s.dev.pilotSet_veh]
    exact ⟨rfl, rfl, (s.dev.pilotSet_keeps n p).settled⟩
  case untaken =>
    intro s n hnot
    refine .idle (exec_pilotStateTaken n s) ?_
    cases hcand : (s.dev.link n).veh.cand with
    | none => simp only [hcand]
    | some p =>
      simp only [hcand]
      refine if_neg ?_
      rintro ⟨hrole, htrained, -, hpilot, hheld⟩
      obtain h | h | h | h | h := hnot
      · exact h hrole
      · simp [h] at htrained
      · simp [h] at hcand
      · exact hpilot (Option.some.inj (hcand.symm.trans h))
      · exact absurd (of_decide_eq_true hheld) (Nat.not_le.mpr h)
  case invalid =>
    intro s n hrole hcand hpilot hheld
    obtain ⟨⟨htaken, -⟩, hstate, huntil, hbit, hopen⟩ := (s.dev.onVeh n fun x => { x with pilot := .invalid }).pilotFaulted_shows n
    rw [Dev.onVeh_link, if_pos rfl] at htaken
    have hheld' : heldTicks (s.dev.link n).veh.candSince s.dev.now 100000 = true := decide_eq_true hheld
    refine .of_eq (exec_pilotFault n s) (if_pos ⟨hrole, hcand, hpilot, hheld'⟩) ?_
    generalize Dev.pilotFaulted _ n = e at *
    rw [Dev.settled_link, Dev.settled_bit]
    exact ⟨htaken, hstate, huntil, hbit, hopen⟩
  case valid =>
    intro s n hnot
    refine .idle (exec_pilotFault n s) (if_neg ?_)
    rintro ⟨hrole, hcand, hpilot, hheld⟩
    obtain h | h | h | h := hnot
    · exact h hrole
    · exact h hcand
    · exact hpilot h
    · exact absurd (of_decide_eq_true hheld) (Nat.not_le.mpr h)
  case diode =>
    intro s n t hsince hheld
    obtain ⟨⟨-, -, -, hdiode, -⟩, hstate, huntil, hbit, hopen⟩ :=
      (s.dev.onVeh n fun x => { x with diodeSince := none }).pilotFaulted_shows n
    rw [Dev.onVeh_link, if_pos rfl] at hdiode
    have hheld' : heldTicks t s.dev.now 3000 = true := decide_eq_true hheld
    refine .of_eq (exec_pilotDiodeMissing n s)
      (e := (s.dev.onVeh n fun x => { x with diodeSince := none }).pilotFaulted n) (by simp only [hsince]; exact if_pos hheld') ?_
    generalize Dev.pilotFaulted _ n = e at *
    rw [Dev.settled_link, Dev.settled_bit]
    exact ⟨hdiode, hstate, huntil, hbit, hopen⟩
  case diodeIdle =>
    intro s n hnot
    refine .idle (exec_pilotDiodeMissing n s) ?_
    cases hsince : (s.dev.link n).veh.diodeSince with
    | none => simp only [hsince]
    | some t =>
      simp only [hsince]
      exact if_neg fun hheld => hnot (by rw [hsince]; exact congrArg some hheld)
  case released =>
    intro s n t huntil hdue
    refine .of_eq (exec_faultPilotFEnd n s) (e := s.dev.onVeh n fun x => { x with pilotFUntil := none })
      (by simp only [huntil]; exact if_pos hdue) ?_
    rw [Dev.settled_link, Dev.onVeh_link, if_pos rfl]
    exact ⟨rfl, Dev.LinksBut.rfl.onVeh.settled, (s.dev.onVeh_keeps n _).settled⟩
  case held =>
    intro s n hnot
    refine .idle (exec_faultPilotFEnd n s) ?_
    cases huntil : (s.dev.link n).veh.pilotFUntil with
    | none => simp only [huntil]
    | some t =>
      simp only [huntil]
      exact if_neg fun hdue => hnot (by rw [huntil]; exact congrArg some (decide_eq_true hdue))
  case cToB =>
    intro s n t hat hdue
    refine .of_eq (exec_stopCToBOpen n s) (e := s.dev.stopOpen n) (by simp only [hat]; exact if_pos hdue) ?_
    rw [Dev.settled_link, Dev.stopOpen, Dev.onVeh_link, if_pos rfl]
    refine ⟨?_, Dev.command_open 0 0 (.inr rfl), Dev.LinksBut.rfl.command.onVeh.settled,
      Dev.RegsBut.settled fun a _ => s.dev.command_reg n 0 false a⟩
    rw [← s.dev.command_veh n n 0 false]
  case cToBIdle =>
    intro s n t hnot
    refine .idle (exec_stopCToBOpen n s) ?_
    obtain h | ⟨h, hearly, hpoint⟩ := hnot
    · simp only [h]
    · simp only [h]
      exact if_neg (not_or.mpr ⟨Nat.not_le.mpr hearly, by simp [hpoint]⟩)
  case coded =>
    intro s n a hrole htrained hcand hpp hheld hmode hwas hband
    obtain ⟨hcode, ha⟩ := codedCable_of_band hband
    have hcable : s.dev.noCable n = false := by
      rw [Dev.noCable, beq_eq_false_iff_ne.mpr hwas, Bool.and_false]
    have hexec : s.dev.takeProx n (s.dev.link n).veh.ppRaw =
        (s.dev.onVeh n fun v => { v with pp := some (s.dev.link n).veh.ppRaw }).onVeh n fun v => { v with cableA := a, ppFault := false } := by
      rw [Dev.takeProx, show s.dev.ppMode n = 0 from hmode]
      simp only [hcode, if_neg ha, hcable]
      rfl
    refine .of_eq (exec_proximityTaken_of hrole htrained hcand hpp hheld) hexec ?_
    rw [Dev.settled_link, Dev.onVeh_link, if_pos rfl, Dev.onVeh_link, if_pos rfl]
    exact ⟨rfl, Dev.LinksBut.rfl.onVeh.onVeh.settled, (s.dev.onVeh_keeps n _).onVeh.settled⟩
  case uncabled =>
    intro s n hrole htrained hcand hpp hheld hmode hraw hlive
    have hcode : codedCable (s.dev.link n).veh.ppRaw.toNat = some 0 := by rw [hraw]; rfl
    have hexec : s.dev.takeProx n (s.dev.link n).veh.ppRaw =
        ((s.dev.onVeh n fun v => { v with pp := some (s.dev.link n).veh.ppRaw }).onVeh n
          fun v => { v with cableA := 0, ppFault := false }).unplug n := by
      rw [Dev.takeProx, show s.dev.ppMode n = 0 from hmode]
      simp only [hcode]
      rfl
    have hset : (((s.dev.onVeh n fun v => { v with pp := some (s.dev.link n).veh.ppRaw }).onVeh n
        fun v => { v with cableA := 0, ppFault := false }).link n).veh =
          { (s.dev.link n).veh with pp := some (s.dev.link n).veh.ppRaw, cableA := 0, ppFault := false } := by
      rw [Dev.onVeh_link, if_pos rfl, Dev.onVeh_link, if_pos rfl]
    obtain ⟨⟨-, htaken, hcableA, -⟩, hstate, hslac, hopen⟩ := Dev.unplug_shows _ n ((congrArg Vehicle.live hset).trans hlive)
    rw [hset] at htaken hcableA
    generalize Dev.unplug _ n = e at *
    refine .of_eq (exec_proximityTaken_of hrole htrained hcand hpp hheld) hexec ?_
    rw [Dev.settled_link]
    exact ⟨htaken.trans (congrArg some hraw), hcableA, hstate, hslac, hopen⟩
  case ppFault =>
    intro s n hrole htrained hcand hpp hheld hmode hcode
    have hexec : s.dev.takeProx n (s.dev.link n).veh.ppRaw =
        (s.dev.onVeh n fun v => { v with pp := some (s.dev.link n).veh.ppRaw }).proxFault n := by
      rw [Dev.takeProx, show s.dev.ppMode n = 0 from hmode]
      simp only [hcode]
    obtain ⟨hfault, hbit⟩ := Dev.proxFault_shows (s.dev.onVeh n fun v => { v with pp := some (s.dev.link n).veh.ppRaw }) n
    generalize Dev.proxFault _ n = e at *
    refine .of_eq (exec_proximityTaken_of hrole htrained hcand hpp hheld) hexec ?_
    rw [Dev.settled_link, Dev.settled_bit]
    exact ⟨hfault, hbit⟩
  case ppOther =>
    intro s n hrole htrained hcand hpp hheld hmode hraw
    have hexec : s.dev.takeProx n (s.dev.link n).veh.ppRaw =
        (s.dev.onVeh n fun v => { v with pp := some (s.dev.link n).veh.ppRaw }).onVeh n fun v => { v with ppFault := false } := by
      rw [Dev.takeProx, show s.dev.ppMode n = 2 from hmode]
      exact if_pos hraw
    refine .of_eq (exec_proximityTaken_of hrole htrained hcand hpp hheld) hexec ?_
    rw [Dev.settled_link, Dev.onVeh_link, if_pos rfl, Dev.onVeh_link, if_pos rfl]
    exact ⟨rfl, (s.dev.onVeh_keeps n _).onVeh.settled⟩
  case ppIdle =>
    intro s n hnot
    refine .idle (exec_proximityTaken n s) (if_neg ?_)
    rintro ⟨hrole, htrained, hcand, hpp, hheld⟩
    obtain h | h | h | h | h := hnot
    · exact h hrole
    · simp [h] at htrained
    · simp [h] at hcand
    · exact hpp h
    · exact absurd (of_decide_eq_true hheld) (Nat.not_le.mpr h)

end Sys2Proof.Machine
end


section
/-! SUPPORT. Matching: a failed attempt and its ends (R257 to R262). -/

namespace Sys2Proof.Machine

set_option Elab.async false

section
variable {d : Dev} {n : LinkId}

theorem Reg.vehEvents_ne_vehSlac (n : LinkId) : Reg.vehEvents n ≠ Reg.vehSlac n := by
  simp only [Reg.vehEvents, Reg.vehSlac]
  omega

/-- A failed attempt's number and dropped run, before what follows it. -/
def Dev.attemptCounted (d : Dev) (n : LinkId) (tries : Nat) : Dev :=
  ((d.dropRun n).onVeh n fun v => { v with tries := tries, protocol := .none, active := false }).setField (Reg.vehSlac n) 24 2
    (min 3 tries)

theorem Dev.attemptCounted_veh (d : Dev) (n : LinkId) (tries : Nat) :
    ((d.attemptCounted n tries).link n).veh =
      { (d.link n).veh with slac := none, tls := false, contract := false, tries := tries, protocol := .none, active := false } := by
  rw [Dev.attemptCounted, Dev.setField_link, Dev.onVeh_link, if_pos rfl, Dev.dropRun_veh]

theorem Dev.attemptCounted_events (d : Dev) (n : LinkId) (tries : Nat) :
    (d.attemptCounted n tries).reg (Reg.vehEvents n) = d.reg (Reg.vehEvents n) := by
  rw [Dev.attemptCounted, Dev.setField_reg, if_neg (Reg.vehEvents_ne_vehSlac n), Dev.onVeh_reg, Dev.dropRun_reg]

theorem Dev.lastEnd_events (d : Dev) (n : LinkId) (fail reason : Nat) :
    (d.lastEnd n fail reason).reg (Reg.vehEvents n) = d.reg (Reg.vehEvents n) := by
  rw [Dev.lastEnd, Dev.setReg_reg, if_neg (Reg.vehEvents_ne_vehLastEnd n)]

@[simp] theorem Dev.lastEnd_link (d : Dev) (n m : LinkId) (fail reason : Nat) : (d.lastEnd n fail reason).link m = d.link m := rfl

/-- Before the third, a failed attempt is tried again after 4 s. -/
theorem Dev.failAttempt_again (fail : Nat) (h : (d.link n).veh.tries + 1 < 3) :
    ((d.failAttempt n fail).link n).veh =
        { (d.link n).veh with
          slac := none, tls := false, contract := false, tries := (d.link n).veh.tries + 1, protocol := .none, active := false
          restartAt := some (d.now + 4000000), state := .plugged, stateAt := d.now } ∧
      (d.failAttempt n fail).reg (Reg.vehEvents n) = d.reg (Reg.vehEvents n) := by
  have hexec : d.failAttempt n fail = (((d.attemptCounted n ((d.link n).veh.tries + 1)).lastEnd n fail 0).onVeh n
      fun v => { v with restartAt := some (d.now + 4000000) }).toState n .plugged := if_pos h
  have hnow : (d.attemptCounted n ((d.link n).veh.tries + 1)).now = d.now := rfl
  have hveh := d.attemptCounted_veh n ((d.link n).veh.tries + 1)
  have hreg := d.attemptCounted_events n ((d.link n).veh.tries + 1)
  generalize d.attemptCounted n ((d.link n).veh.tries + 1) = e at *
  rw [hexec, Dev.toState_veh, Dev.onVeh_link, if_pos rfl, Dev.lastEnd_link, hveh, Dev.toState_reg, Dev.onVeh_reg,
    Dev.lastEnd_events, hreg]
  exact ⟨congrArg (fun t => ({ (d.link n).veh with
    slac := none, tls := false, contract := false, tries := (d.link n).veh.tries + 1, protocol := .none, active := false
    restartAt := some (d.now + 4000000), state := .plugged, stateAt := t } : Vehicle)) hnow, rfl⟩

/-- The third failed attempt on an AC outlet with BASIC goes on to basic charging. -/
theorem Dev.failAttempt_basic {third : Bool} (fail : Nat) (h : third = true ∨ (d.link n).veh.tries = 2)
    (hac : (d.isAc n && d.vehBit n 0) = true) :
    ((d.failAttempt n fail third).link n).veh.state = .authorizing ∧ ((d.failAttempt n fail third).link n).veh.basic = true ∧
      ((d.failAttempt n fail third).link n).veh.protocol = .basic ∧ ((d.failAttempt n fail third).link n).veh.tries = 3 ∧
      ((d.failAttempt n fail third).link n).veh.slac = none ∧
      (d.failAttempt n fail third).bit (Reg.vehEvents n) 13 = true ∧
      (d.bit (Reg.vehEvents n) 3 = true → (d.failAttempt n fail third).bit (Reg.vehEvents n) 3 = true) := by
  have htries : (if third = true then 3 else (d.link n).veh.tries + 1) = 3 := by
    obtain rfl | h := h
    · rfl
    · rw [h]
      exact ite_self _
  have hexec : d.failAttempt n fail third = ((((d.attemptCounted n 3).lastEnd n fail 0).onVeh n
      fun v => { v with basic := true, protocol := .basic, restartAt := none }).toState n .authorizing).raise (.veh n) 13 := by
    unfold Dev.failAttempt
    rw [htries]
    exact (if_neg (by decide)).trans (if_pos hac)
  have hveh := d.attemptCounted_veh n 3
  have hreg := d.attemptCounted_events n 3
  generalize d.attemptCounted n 3 = e at *
  rw [hexec, Dev.raise_link, Dev.toState_veh, Dev.onVeh_link, if_pos rfl, Dev.lastEnd_link, hveh]
  refine ⟨rfl, rfl, rfl, rfl, rfl, Dev.raise_bit _ (.veh n) _ _ (by decide), fun hbit => ?_⟩
  have haddr : Reg.vehEvents n = (EvReg.veh n).addr := rfl
  rw [Dev.bit, Dev.raise_reg, if_pos haddr, Dev.toState_reg, Dev.onVeh_reg, Dev.lastEnd_events, hreg, bitOf_or]
  exact Bool.or_eq_true_iff.mpr (.inl hbit)

/-- The third failed attempt elsewhere ends in FAULT. -/
theorem Dev.failAttempt_fault {third : Bool} (fail : Nat) (h : third = true ∨ (d.link n).veh.tries = 2)
    (hac : (d.isAc n && d.vehBit n 0) = false) :
    ((d.failAttempt n fail third).link n).veh.state = .fault ∧ ((d.failAttempt n fail third).link n).veh.tries = 3 ∧
      ((d.failAttempt n fail third).link n).veh.slac = none ∧
      (d.failAttempt n fail third).reg (Reg.vehEvents n) = d.reg (Reg.vehEvents n) := by
  have htries : (if third = true then 3 else (d.link n).veh.tries + 1) = 3 := by
    obtain rfl | h := h
    · rfl
    · rw [h]
      exact ite_self _
  have hexec : d.failAttempt n fail third = (d.attemptCounted n 3).enterFault n fail := by
    unfold Dev.failAttempt
    rw [htries]
    exact (if_neg (by decide)).trans (if_neg (by simp [hac]))
  have hveh := d.attemptCounted_veh n 3
  have hreg := d.attemptCounted_events n 3
  generalize d.attemptCounted n 3 = e at *
  rw [hexec, e.enterFault_veh, hveh, e.enterFault_regsBut n fail _ (by simpa using Reg.vehEvents_ne_vehLastEnd n), hreg]
  exact ⟨rfl, rfl, rfl, rfl⟩

/-- What the outlet reads of its own settings, whatever event it raises. -/
theorem Dev.raise_veh_settings (d : Dev) (n : LinkId) (b : Nat) :
    (d.raise (.veh n) b).isAc n = d.isAc n ∧ (d.raise (.veh n) b).vehBit n 0 = d.vehBit n 0 := by
  have hmet : Reg.metCfg n ≠ (EvReg.veh n).addr := by
    simp only [Reg.metCfg, EvReg.addr, Reg.vehEvents]
    omega
  have hveh : Reg.vehCfg n ≠ (EvReg.veh n).addr := by
    simp only [Reg.vehCfg, EvReg.addr, Reg.vehEvents]
    omega
  exact ⟨d.raise_bit_other b 0 _ _ hmet, d.raise_bit_other b 0 _ _ hveh⟩

/-- A failed attempt tried again, with the event of the failure. -/
theorem Dev.failAttempt_first (d : Dev) (n : LinkId) (fail : Nat) (h : (d.link n).veh.tries = 0) :
    (((d.raise (.veh n) 3).failAttempt n fail).bit (Reg.vehEvents n) 3 = true) ∧
      (((d.raise (.veh n) 3).failAttempt n fail).link n).veh.state = .plugged ∧
      (((d.raise (.veh n) 3).failAttempt n fail).link n).veh.tries = 1 ∧
      (((d.raise (.veh n) 3).failAttempt n fail).link n).veh.restartAt = some (d.now + 4000000) ∧
      (((d.raise (.veh n) 3).failAttempt n fail).link n).veh.slac = none := by
  obtain ⟨hveh, hreg⟩ := Dev.failAttempt_again (d := d.raise (.veh n) 3) (n := n) fail (by rw [Dev.raise_link, h]; decide)
  rw [Dev.raise_link, Dev.raise_now, h] at hveh
  rw [Dev.bit, hreg, hveh, ← Dev.bit]
  exact ⟨d.raise_bit (.veh n) _ _ (by decide), rfl, rfl, rfl, rfl⟩

/-- A failure that ends matching for good. -/
theorem Dev.failAttempt_third (d : Dev) (n : LinkId) (fail : Nat) :
    ((d.raise (.veh n) 3).failAttempt n fail true).bit (Reg.vehEvents n) 3 = true ∧
      (((d.raise (.veh n) 3).failAttempt n fail true).link n).veh.tries = 3 ∧
      (((d.raise (.veh n) 3).failAttempt n fail true).link n).veh.slac = none ∧
      ((((d.raise (.veh n) 3).failAttempt n fail true).link n).veh.state = .fault ∨
        (((d.raise (.veh n) 3).failAttempt n fail true).link n).veh.state = .authorizing) := by
  have hraised : (d.raise (.veh n) 3).bit (Reg.vehEvents n) 3 = true := d.raise_bit (.veh n) _ _ (by decide)
  cases hac : ((d.raise (.veh n) 3).isAc n && (d.raise (.veh n) 3).vehBit n 0)
  · obtain ⟨hstate, htries, hslac, hreg⟩ := Dev.failAttempt_fault (third := true) fail (.inl rfl) hac
    rw [Dev.bit, hreg]
    exact ⟨hraised, htries, hslac, .inl hstate⟩
  · obtain ⟨hstate, -, -, htries, hslac, -, hbit⟩ := Dev.failAttempt_basic (third := true) fail (.inl rfl) hac
    exact ⟨hbit hraised, htries, hslac, .inr hstate⟩

/-! ### The commands of a run -/

theorem Dev.wholeMean_exact {sum k : Nat} (h : sum % k = 0) : d.wholeMean sum k = sum / k := if_pos h

theorem Dev.RegsBut.randomDrawn {e : Dev} {as : List Nat} (h : d.RegsBut e as) : d.RegsBut e.randomDrawn as := h

theorem Dev.LinksBut.randomDrawn {e : Dev} (h : d.LinksBut e n) : d.LinksBut e.randomDrawn n := h

/-- The run answered with a fresh NMK. -/
theorem Dev.slacAnswer_shows (d : Dev) (n : LinkId) (m : BitVec 48) (r : BitVec 64) :
    ((d.slacAnswer n m r).link n).veh = { (d.link n).veh with
        response := .slacParmCnf
        slac := some { runId := r, evMac := m, nmk := d.random 16, parmAt := d.now, soundAt := none, sounds := 0, sum := 0, toggles := 0 } } ∧
      d.LinksBut (d.slacAnswer n m r) n ∧ d.RegsBut (d.slacAnswer n m r) [] := by
  refine ⟨?_, Dev.LinksBut.rfl.onVeh.onVeh.randomDrawn, fun a _ => rfl⟩
  change (((Dev.onVeh d n _).answer n .slacParmCnf).link n).veh = _
  rw [Dev.answer_veh, Dev.onVeh_link, if_pos rfl]

/-- A sound heard within its window and its ten, or not. -/
theorem Dev.sound_slac {r : SlacRun} {t : Tick} {a : Vector Byte 58} (hrole : d.role n = .outlet) (htrained : d.trained n = true)
    (hmega : d.megawatt n = false) (hslac : (d.link n).veh.slac = some r) (hat : r.soundAt = some t) :
    ((d.sound n r.runId a).link n).veh.slac =
        (if d.now < t + 600000 ∧ r.sounds < 10 then
          some { r with sounds := r.sounds + 1, sum := r.sum + (a.toList.map BitVec.toNat).sum } else some r) ∧
      d.LinksBut (d.sound n r.runId a) n ∧ d.RegsBut (d.sound n r.runId a) [] := by
  unfold Dev.sound
  extract_lets total
  rw [if_pos ⟨hrole, htrained, by simp [hmega]⟩]
  refine ⟨?_, Dev.LinksBut.rfl.onVeh.drew, fun _ _ => rfl⟩
  rw [Dev.drew_link, Dev.onVeh_link, if_pos rfl]
  dsimp only
  rw [hslac, Option.map_some, hat, Option.map_some, Option.getD_some]
  by_cases hin : d.now < t + 600000 ∧ r.sounds < 10
  · rw [if_pos hin, if_pos ⟨rfl, decide_eq_true hin.1, hin.2⟩]
  · rw [if_neg hin, if_neg]
    rintro ⟨-, htime, hsounds⟩
    exact hin ⟨of_decide_eq_true htime, hsounds⟩

/-- The sounding as its window ends. -/
def Dev.windowOver (d : Dev) (n : LinkId) (r : SlacRun) : Dev := d.onVeh n fun v => { v with slac := some { r with soundAt := none } }

theorem Dev.soundingEnd_of {r : SlacRun} {t : Tick} (hstate : (d.link n).veh.state = .matching) (hslac : (d.link n).veh.slac = some r)
    (hat : r.soundAt = some t) (hover : t + 600000 ≤ d.now) :
    d.soundingEnd n = if 3 ≤ r.sounds then
        ((((d.windowOver n r).onVeh n fun v => { v with heard := hearAt v.heard r.runId (d.wholeMean r.sum (58 * r.sounds)) d.now }).setField
          (Reg.vehSlac n) 0 8 (d.wholeMean r.sum (58 * r.sounds))).answer n .attenCharInd).drew
      else d.windowOver n r := by
  have hheld : heldFor r.soundAt d.now (ms 600) = true := by
    rw [hat]
    exact decide_eq_true hover
  rw [Dev.soundingEnd, hstate, hslac]
  exact if_pos hheld

theorem Dev.slacMatch_of {r : SlacRun} {h : Sounding} (m : BitVec 48) (hstate : (d.link n).veh.state = .matching)
    (hslac : (d.link n).veh.slac = some r) (htime : d.now ≤ r.parmAt + 10000000)
    (hheard : ((d.link n).veh.heard.find? fun x => decide (x.runId = r.runId)) = some h) :
    d.slacMatch n m (evseMac n) r.runId =
      if d.settingField (Reg.vehXSlac n) 8 8 ≠ 0 ∧
          ((d.attenElsewhere n r.runId).map fun a => decide (a + d.settingField (Reg.vehXSlac n) 8 8 < h.atten)).getD false = true then
        d.raise (.veh n) 11
      else if d.sec.rng = .failed then (d.raise (.veh n) 3).failAttempt n 1 true
      else
        ((((d.setReg (Reg.vehEvMacLo n) (BitVec.ofNat 32 m.toNat)).setReg (Reg.vehEvMacHi n)
          (BitVec.ofNat 32 (m.toNat / 2 ^ 32))).setField (Reg.vehSlac n) 8 8 ((d.attenElsewhere n r.runId).getD 0xFF)).answer n
            .slacMatchCnf).toState n .setup := by
  rw [Dev.slacMatch, hstate, hslac]
  dsimp only
  rw [if_pos ⟨rfl, rfl, htime⟩]
  simp only [hheard]

/-- Out of MATCHING none of the commands of a run does anything. -/
theorem Dev.slacMatch_idle {m x : BitVec 48} {i : BitVec 64}
    (h : (d.link n).veh.state ≠ .matching ∨ ∃ r, (d.link n).veh.slac = some r ∧ (i ≠ r.runId ∨ r.parmAt + 10000000 < d.now)) :
    d.slacMatch n m x i = d := by
  unfold Dev.slacMatch
  split
  next r hstate hslac =>
    obtain h | ⟨r', hr, h⟩ := h
    · exact absurd hstate h
    · obtain rfl : r = r' := Option.some.inj (hslac.symm.trans hr)
      refine if_neg ?_
      rintro ⟨hrun, -, htime⟩
      obtain h | h := h
      · exact h hrun.symm
      · exact absurd htime (Nat.not_le.mpr h)
  next => rfl

theorem Dev.validate_idle {k : Nat} (h : (d.link n).veh.state ≠ .matching) : d.validate n k = d := by
  unfold Dev.validate
  split
  next r hstate _ => exact absurd hstate h
  next => rfl

theorem Dev.soundingEnd_idle (h : (d.link n).veh.state ≠ .matching) : d.soundingEnd n = d := by
  unfold Dev.soundingEnd
  split
  next r hstate _ => exact absurd hstate h
  next => rfl

theorem Dev.validate_of {r : SlacRun} (k : Nat) (hstate : (d.link n).veh.state = .matching) (hslac : (d.link n).veh.slac = some r) :
    d.validate n k = if r.toggles = k then d.answer n (.validateCnf r.toggles)
      else ((d.answer n (.validateCnf r.toggles)).raise (.veh n) 3).failAttempt n 1 := by
  rw [Dev.validate, hstate, hslac]

theorem Dev.slacExpiry_of (hstate : (d.link n).veh.state = .matching) (hslac : (d.link n).veh.slac = none)
    (hdue : (d.link n).veh.stateAt + 1000000 * d.slacInit n ≤ d.now) :
    d.slacExpiry n = (d.raise (.veh n) 3).failAttempt n 1 := by
  unfold Dev.slacExpiry
  extract_lets v init due
  have hnow : due = true := by
    unfold due v
    rw [hslac]
    exact decide_eq_true hdue
  exact if_pos ⟨hstate, hnow⟩

end

end Sys2Proof.Machine
end


section
/-! SUPPORT. Matching: what the statement asks (R257 to R262). -/

namespace Sys2Proof.Machine

set_option Elab.async false

/-- Settles O34: each command by its equation on a run; failures by `failAttempt_first` and `failAttempt_third`. -/
theorem matchingRules : Obligations.MatchingRules := by
  unfold Obligations.MatchingRules
  refine ⟨?matching, ?megawatt, ?unready, ?parm, ?parmWaits, ?parmFailed, ?sounding, ?heard, ?unheard, ?mean, ?few, ?match_, ?wrong, ?stray,
    ?validated, ?invalid, ?expired, ?basic, ?fault, ?early, ?restart, ?restartIdle, ?elsewhere⟩
  case matching =>
    intro s n hready hhlc hwait hmega hrng
    refine .of_eq (exec_matchingStart n s) ((if_pos ⟨hready, hhlc, hwait, .inl (by simp [hmega])⟩).trans (if_neg hrng)) ?_
    rw [show s.dev.megawatt n = false from hmega, Dev.settled_link, Dev.toState_veh, Dev.onVeh_link, if_pos rfl, Dev.onVeh_link,
      if_pos rfl]
    exact ⟨rfl, Dev.LinksBut.rfl.onVeh.onVeh.onVeh.settled, (s.dev.onVeh_keeps n _).onVeh.onVeh.settled⟩
  case megawatt =>
    intro s n hready hhlc hwait hmega hpp hrng
    refine .of_eq (exec_matchingStart n s) ((if_pos ⟨hready, hhlc, hwait, .inr hpp⟩).trans (if_neg hrng)) ?_
    rw [show s.dev.megawatt n = true from hmega, Dev.settled_link, Dev.toState_veh]
    exact ⟨rfl, rfl, Dev.LinksBut.rfl.onVeh.onVeh.onVeh.settled, (s.dev.onVeh_keeps n _).onVeh.onVeh.settled⟩
  case unready =>
    intro s n hnot
    refine .idle (exec_matchingStart n s) (if_neg ?_)
    rintro ⟨hready, hhlc, hwait, hmega⟩
    obtain h | h | h | ⟨h, hpp⟩ := hnot
    · simp [h] at hready
    · simp [h] at hhlc
    · exact h hwait
    · exact hmega.elim (fun hnot => by simp [h] at hnot) hpp
  case parm =>
    intro s n m r hstate hrng
    obtain ⟨hveh, hlinks, hregs⟩ := s.dev.slacAnswer_shows n m r
    refine .of_eq (exec_slacParmReq n m r s) ((if_pos hstate).trans ((if_neg (by rw [hrng]; decide)).trans (if_pos hrng))) ?_
    exact ⟨hveh, hlinks.settled, hregs.settled⟩
  case parmWaits =>
    intro s n m r hstate hrng
    have hnot : s.dev.sec.rng ≠ .failed ∧ s.dev.sec.rng ≠ .healthy := by
      obtain h | h := hrng <;> rw [h] <;> decide
    refine .of_eq (exec_slacParmReq n m r s) ((if_pos hstate).trans ((if_neg hnot.1).trans (if_neg hnot.2))) ⟨?_, ?_⟩
    · change ((s.dev.dropRngWait (RngWait.ofLink n)).sec.rngWaits ++ [RngWait.slac n m r]).contains (RngWait.slac n m r) = true
      simp
    · exact (Dev.Keeps.onSec (s.dev.dropRngWait_keeps _)).settled
  case parmFailed =>
    intro s n m r hstate hrng
    obtain ⟨hbit, htries, hslac, hend⟩ := s.dev.failAttempt_third n 1
    have hexec : s.dev.slacParm n m r = (s.dev.raise (.veh n) 3).failAttempt n 1 true := (if_pos hstate).trans (if_pos hrng)
    generalize (s.dev.raise (.veh n) 3).failAttempt n 1 true = e at *
    refine .of_eq (exec_slacParmReq n m r s) hexec ?_
    rw [Dev.settled_bit, Dev.settled_link]
    exact ⟨hbit, htries, hslac, hend⟩
  case sounding =>
    intro s n r hstate hslac
    refine .of_eq (exec_startAttenCharInd n r.runId s) (if_pos hstate) ?_
    rw [Dev.settled_link, Dev.onVeh_link, if_pos rfl, hslac, Option.map_some, if_pos rfl]
    exact ⟨rfl, Dev.LinksBut.rfl.onVeh.settled, (s.dev.onVeh_keeps n _).settled⟩
  case heard =>
    intro s n r t a hrole htrained hmega hslac hat htime hsounds
    obtain ⟨hheard, hlinks, hregs⟩ := Dev.sound_slac (a := a) hrole htrained hmega hslac hat
    rw [if_pos ⟨htime, hsounds⟩] at hheard
    exact .of_eq (exec_attenSoundRx n r.runId a s) rfl ⟨hheard, hlinks.settled, hregs.settled⟩
  case unheard =>
    intro s n r t a hrole htrained hmega hslac hat hlate
    obtain ⟨hheard, hlinks, hregs⟩ := Dev.sound_slac (a := a) hrole htrained hmega hslac hat
    rw [if_neg fun h => hlate.elim (fun hover => absurd h.1 (Nat.not_lt.mpr hover)) fun hten => absurd h.2 (Nat.not_lt.mpr hten)] at hheard
    exact .of_eq (exec_attenSoundRx n r.runId a s) rfl ⟨hheard, hlinks.settled, hregs.settled⟩
  case mean =>
    intro s n r t hstate hslac hat hover hthree hwhole hfits
    refine .of_eq (exec_soundingWindowEnd n s) ((Dev.soundingEnd_of hstate hslac hat hover).trans (if_pos hthree)) ?_
    rw [Dev.wholeMean_exact hwhole, Dev.settled_link, Dev.drew_link, Dev.answer_veh, Dev.setField_link, Dev.onVeh_link, if_pos rfl,
      Dev.windowOver, Dev.onVeh_link, if_pos rfl]
    refine ⟨rfl, rfl, ?_, Dev.LinksBut.rfl.onVeh.onVeh.setReg.onVeh.drew.settled, ?_⟩
    · rw [Dev.settled_field, Dev.field, Dev.drew_reg, Dev.answer, Dev.onVeh_reg, Dev.setField_reg, if_pos rfl,
        fieldOf_putField _ _ (by decide)]
      exact Nat.mod_eq_of_lt hfits
    · exact ((Dev.onVeh_regsBut s.dev n _ _).trans (Dev.onVeh_regsBut _ n _ _)).setField (by simp) |>.drew.settled
  case few =>
    intro s n r t hstate hslac hat hover hfew
    refine .of_eq (exec_soundingWindowEnd n s)
      ((Dev.soundingEnd_of hstate hslac hat hover).trans (if_neg (Nat.not_le.mpr hfew))) ?_
    rw [Dev.settled_link, Dev.windowOver, Dev.onVeh_link, if_pos rfl]
    exact ⟨rfl, Dev.LinksBut.rfl.onVeh.settled, (s.dev.onVeh_keeps n _).settled⟩
  case match_ =>
    intro s n m r h hstate hslac htime hheard helse hrng
    refine .of_eq (exec_slacMatchReq n m (evseMac n) r.runId s) ((Dev.slacMatch_of m hstate hslac htime hheard).trans
      ((if_neg (by rw [helse]; exact fun h => Bool.noConfusion h.2)).trans (if_neg hrng))) ?_
    have hlo : Reg.vehEvMacLo n ≠ Reg.vehSlac n ∧ Reg.vehEvMacHi n ≠ Reg.vehSlac n ∧ Reg.vehEvMacLo n ≠ Reg.vehEvMacHi n := by
      simp only [Reg.vehEvMacLo, Reg.vehEvMacHi, Reg.vehSlac]
      omega
    obtain ⟨h1, h2, h3⟩ := hlo
    rw [helse, Dev.settled_link, Dev.toState_veh, Dev.answer_veh, Dev.settled_reg, Dev.settled_reg, Dev.settled_field, Dev.field,
      Dev.toState_reg, Dev.toState_reg, Dev.toState_reg, Dev.answer, Dev.onVeh_reg, Dev.onVeh_reg, Dev.onVeh_reg, Dev.setField_reg,
      Dev.setField_reg, Dev.setField_reg, if_neg h1, if_neg h2, if_pos rfl, Dev.setReg_reg, if_neg h3, Dev.setReg_reg, if_pos rfl,
      Dev.setReg_reg, if_pos rfl, fieldOf_putField _ _ (by decide)]
    exact ⟨rfl, rfl, rfl, rfl, rfl, Dev.LinksBut.rfl.setReg.setReg.setReg.onVeh.onVeh.settled⟩
  case wrong =>
    intro s n m r h a hstate hslac htime hheard helse hguard hstronger
    refine .of_eq (exec_slacMatchReq n m (evseMac n) r.runId s) ((Dev.slacMatch_of m hstate hslac htime hheard).trans
      (if_pos ⟨hguard, by rw [helse]; exact decide_eq_true hstronger⟩)) ?_
    rw [Dev.settled_link, Dev.raise_link]
    exact ⟨Dev.settled_raise_bit _ (.veh n) _ _ (by decide), rfl, (Dev.RegsBut.rfl.raise (r := .veh n) (by simp [EvReg.addr])).settled⟩
  case stray =>
    intro s n m x r i hslac hnot
    exact .idle (exec_slacMatchReq n m x i s) (Dev.slacMatch_idle (.inr ⟨r, hslac, hnot⟩))
  case validated =>
    intro s n r hstate hslac
    refine .of_eq (exec_cmValidate n r.toggles s) ((Dev.validate_of _ hstate hslac).trans (if_pos rfl)) ?_
    rw [Dev.settled_link, Dev.answer_veh]
    exact ⟨rfl, Dev.LinksBut.rfl.onVeh.settled, (s.dev.onVeh_keeps n _).settled⟩
  case invalid =>
    intro s n r k hstate hslac hk htries
    have hexec := (Dev.validate_of k hstate hslac).trans (if_neg hk.symm)
    have hshows := (s.dev.answer n (.validateCnf r.toggles)).failAttempt_first n 1 (by rw [Dev.answer_veh]; exact htries)
    generalize Dev.failAttempt _ n 1 = e at *
    refine .of_eq (exec_cmValidate n k s) hexec ?_
    rw [Dev.settled_bit, Dev.settled_link]
    exact hshows
  case expired =>
    intro s n hstate hslac hdue htries
    have hexec := Dev.slacExpiry_of hstate hslac hdue
    have hshows := s.dev.failAttempt_first n 1 htries
    generalize Dev.failAttempt _ n 1 = e at *
    refine .of_eq (exec_slacInitExpiry n s) hexec ?_
    rw [Dev.settled_bit, Dev.settled_link]
    exact hshows
  case basic =>
    intro s n hstate hslac hdue htries hac hbasic
    have hexec := Dev.slacExpiry_of hstate hslac hdue
    obtain ⟨hac', hbasic'⟩ := s.dev.raise_veh_settings n 3
    obtain ⟨hauth, hb, hprotocol, -, -, hbit, hkept⟩ := Dev.failAttempt_basic (d := s.dev.raise (.veh n) 3) (n := n) (third := false) 1
      (.inr (by rw [Dev.raise_link]; exact htries)) (by rw [hac', hbasic', hac, hbasic]; rfl)
    have hevent := hkept (s.dev.raise_bit (.veh n) _ _ (by decide))
    generalize Dev.failAttempt _ n 1 = e at *
    refine .of_eq (exec_slacInitExpiry n s) hexec ?_
    rw [Dev.settled_bit, Dev.settled_bit, Dev.settled_link]
    exact ⟨hevent, hbit, hauth, hb, hprotocol⟩
  case fault =>
    intro s n hstate hslac hdue htries hac
    have hexec := Dev.slacExpiry_of hstate hslac hdue
    obtain ⟨hac', -⟩ := s.dev.raise_veh_settings n 3
    obtain ⟨hfault, -, -, hreg⟩ := Dev.failAttempt_fault (d := s.dev.raise (.veh n) 3) (n := n) (third := false) 1
      (.inr (by rw [Dev.raise_link]; exact htries)) (by rw [hac', hac]; rfl)
    have hevent : ((s.dev.raise (.veh n) 3).failAttempt n 1).bit (Reg.vehEvents n) 3 = true := by
      rw [Dev.bit, hreg]
      exact s.dev.raise_bit (.veh n) _ _ (by decide)
    generalize Dev.failAttempt _ n 1 = e at *
    refine .of_eq (exec_slacInitExpiry n s) hexec ?_
    rw [Dev.settled_bit, Dev.settled_link]
    exact ⟨hevent, hfault⟩
  case early =>
    intro s n hslac hearly
    refine .idle (exec_slacInitExpiry n s) ?_
    rw [Dev.slacExpiry, hslac]
    exact if_neg fun h => absurd (of_decide_eq_true h.2) (Nat.not_le.mpr hearly)
  case restart =>
    intro s n t hat hdue
    refine .of_eq (exec_attemptRestart n s) (e := s.dev.onVeh n fun x => { x with restartAt := none })
      (by simp only [hat]; exact if_pos hdue) ?_
    rw [Dev.settled_link, Dev.onVeh_link, if_pos rfl]
    exact ⟨rfl, Dev.LinksBut.rfl.onVeh.settled, (s.dev.onVeh_keeps n _).settled⟩
  case restartIdle =>
    intro s n hnot
    refine .idle (exec_attemptRestart n s) ?_
    cases hat : (s.dev.link n).veh.restartAt with
    | none => simp only [hat]
    | some t =>
      simp only [hat]
      exact if_neg fun hdue => hnot (by rw [hat]; exact congrArg some (decide_eq_true hdue))
  case elsewhere =>
    intro s n m x i k c hstate hc
    simp only [List.mem_cons, List.not_mem_nil, or_false] at hc
    obtain rfl | rfl | rfl | rfl | rfl | rfl := hc
    · exact .idle (exec_slacParmReq n m i s) (if_neg hstate)
    · exact .idle (exec_startAttenCharInd n i s) (if_neg hstate)
    · exact .idle (exec_soundingWindowEnd n s) (Dev.soundingEnd_idle hstate)
    · exact .idle (exec_slacMatchReq n m x i s) (Dev.slacMatch_idle (.inl hstate))
    · exact .idle (exec_cmValidate n k s) (Dev.validate_idle hstate)
    · exact .idle (exec_slacInitExpiry n s) (if_neg fun h => hstate h.1)

end Sys2Proof.Machine
end


section
/-! SUPPORT. How a session is stopped and ended: what the statement asks (R265 to R277). -/

namespace Sys2Proof.Machine

set_option Elab.async false

section
variable {d : Dev} {n : LinkId}

/-! ### The end of a session -/

/-- An exchange aborted because the session of its receiver ended moves no outlet's power. -/
theorem Dev.abortExchange_out (d : Dev) (x : Fin 16) (m : LinkId) : ((d.abortExchange x 8).link m).out = (d.link m).out := by
  rw [Dev.abortExchange]
  cases d.alloc.slots.get x with
  | none => rfl
  | some e =>
    rw [Dev.raise_link, Dev.count_link]
    have hbefore : (((d.closeSlot x (some 8)).dropSeg e.group).link m).out = (d.link m).out := by
      rw [(Dev.dropSeg_keeps _ e.group).out m, (d.closeSlot_keeps x (some 8)).out m]
    generalize (d.closeSlot x (some 8)).dropSeg e.group = f at *
    rw [← hbefore]
    unfold Dev.afterAbort
    extract_lets g d1 back idle
    have h1 : (d1.link m).out = (f.link m).out := by
      unfold d1
      split
      · exact (Dev.command_keeps _ _ _ _).out m
      · rfl
    have hgroup : ∀ h : Group → Group, ((d1.onGroup g h).link m).out = (f.link m).out := fun h => by
      rw [(Dev.onGroup_keeps d1 g h).out m, h1]
    change ((if e.step < 4 then back else idle).link m).out = _
    split_ifs
    · exact hgroup _
    · exact hgroup _

theorem Dev.abortWhere_out (d : Dev) (hit : Exchange → Bool) (m : LinkId) :
    ((d.abortWhere hit 8).link m).out = (d.link m).out := by
  refine Dev.each_inv (P := fun e => (e.link m).out = (d.link m).out) rfl fun e x _ he => ?_
  split
  · split_ifs
    · exact (e.abortExchange_out x m).trans he
    · exact he
  · exact ((e.lowerReason_keeps x hit 8).out m).trans he

/-- A session that ended: ENDED, and its outlet asks for no power. -/
theorem Dev.endSession_shows (why : StopReason) (hlive : (d.link n).veh.live = true) :
    ((d.endSession n why).link n).veh.state = .ended ∧ ((d.endSession n why).link n).out.req = 0 := by
  unfold Dev.endSession
  extract_lets v d0 d1 d2
  rw [if_pos hlive]
  have hstate : (d2.link n).veh.state = .ended := congrArg Vehicle.state (Dev.toState_veh _ n .ended)
  clear_value d2
  have hcooled : ((d2.coolingRunOn n).link n).veh.state = .ended := by
    rw [(Dev.coolingRunOn_keeps d2 n).veh n, hstate]
  generalize d2.coolingRunOn n = e at *
  constructor
  · rw [(Dev.abortWhere_keeps _ _ _).veh n, Dev.refreshReq_veh, hcooled]
  · have hreq : e.reqOf n = 0 := by
      unfold Dev.reqOf
      extract_lets v
      have hv : v.state = .ended := hcooled
      rw [hv]
    rw [Dev.abortWhere_out, Dev.refreshReq_out, hreq]
    rfl

/-- The end of a stopped session: ENDED, or IDLE once the vehicle has gone. -/
theorem Dev.endStopped_shows (hlive : (d.link n).veh.live = true) (hstate : (d.link n).veh.state = .stopping) :
    ((d.endStopped n).link n).out.req = 0 ∧
      ((d.link n).veh.pilot = .a ∨ d.noCable n = true →
        ((d.endStopped n).link n).veh.state = .idle ∧ ((d.endStopped n).link n).veh.protocol = .none) ∧
      ((d.link n).veh.pilot ≠ .a → d.noCable n = false → ((d.endStopped n).link n).veh.state = .ended) := by
  obtain ⟨hended, hreq⟩ := Dev.endSession_shows (d.link n).veh.stopWhy hlive
  unfold Dev.endStopped
  extract_lets v d1
  have hnotFault : ¬v.state = .fault := by
    rw [show v.state = .stopping from hstate]
    decide
  change (d1.link n).veh.state = .ended at hended
  change (d1.link n).out.req = 0 at hreq
  clear_value d1
  rw [if_neg hnotFault]
  by_cases hgone : (d.link n).veh.pilot = .a ∨ d.noCable n = true
  · rw [if_pos hgone]
    refine ⟨?_, fun _ => ?_, fun hpilot hcable => ?_⟩
    · rw [(Dev.toState_keeps _ n .idle).out n, (Dev.onVeh_keeps d1 n _).out n, hreq]
    · rw [Dev.toState_veh, Dev.onVeh_link, if_pos rfl]
      exact ⟨rfl, rfl⟩
    · simp [hpilot, hcable] at hgone
  · rw [if_neg hgone]
    exact ⟨hreq, fun h => absurd h hgone, fun _ _ => hended⟩

theorem Dev.endIfOpen_of (hlive : (d.link n).veh.live = true) (hwhy : (d.link n).veh.stopWhy ≠ .none)
    (hat : (d.link n).veh.stopAt < d.now) (hfb : d.fb n 0 = false) : d.endIfOpen n = d.endStopped n :=
  if_pos ⟨hlive, hwhy, hat, by simp [hfb]⟩

/-! ### Messages -/

/-- A bad message of an outlet without a session ends the attempt. -/
theorem Dev.badMessage_ends (hlive : (d.link n).veh.live = false) :
    (d.badMessage n).bit (Reg.vehEvents n) 10 = true ∧ ((d.badMessage n).link n).veh.state = .ended ∧
      ((d.badMessage n).link n).veh.response = .failed := by
  unfold Dev.badMessage
  extract_lets d1
  have hveh : (d1.link n).veh = { (d.link n).veh with response := .failed } := by
    unfold d1
    rw [Dev.raise_link, Dev.answer_veh]
  have hbit : d1.bit (Reg.vehEvents n) 10 = true := Dev.raise_bit _ (.veh n) _ _ (by decide)
  clear_value d1
  rw [if_neg (by rw [hveh]; simp [hlive]), Dev.endAttempt, Dev.bit, Dev.toState_reg, Dev.onVeh_reg, Dev.dropRun_reg,
    Dev.lastEnd_events, Dev.toState_veh, Dev.onVeh_link, if_pos rfl, Dev.dropRun_veh, Dev.lastEnd_link, hveh]
  exact ⟨hbit, rfl, rfl⟩

/-- A bad message of a live session stops it with reason 1. -/
theorem Dev.badMessage_stops (hlive : (d.link n).veh.live = true) (hwhy : (d.link n).veh.stopWhy = .none) :
    (d.badMessage n).bit (Reg.vehEvents n) 10 = true ∧
      ((d.badMessage n).link n).veh =
        { ({ (d.link n).veh with response := .failed } : Vehicle).stopped .vehicle (vehRank n) d.now with response := .failed } := by
  unfold Dev.badMessage
  extract_lets d1
  have hveh : (d1.link n).veh = { (d.link n).veh with response := .failed } := by
    unfold d1
    rw [Dev.raise_link, Dev.answer_veh]
  have hnow : d1.now = d.now := Dev.raise_now _ _ _ _ _
  have hbit : d1.bit (Reg.vehEvents n) 10 = true := Dev.raise_bit _ (.veh n) _ _ (by decide)
  clear_value d1
  have hlive1 : (d1.link n).veh.live = true := by rw [hveh]; exact hlive
  rw [if_pos hlive1, Dev.startStop_of_live _ _ hlive1, Dev.answer_veh, Dev.beginStop_veh _ _ (by rw [hveh]; exact hwhy), hveh, hnow]
  refine ⟨?_, rfl⟩
  rw [Dev.bit, Dev.answer, Dev.onVeh_reg, Dev.beginStop_regsBut d1 n _ _ _ (by simpa using Reg.vehEvents_ne_vehReq n)]
  exact hbit

/-- A stop that begins after an answer. -/
theorem Dev.startStop_answered (r : Response) (why : StopReason) (rank : Nat) (hlive : (d.link n).veh.live = true)
    (hwhy : (d.link n).veh.stopWhy = .none) :
    (((d.answer n r).startStop n why rank).link n).veh = ({ (d.link n).veh with response := r } : Vehicle).stopped why rank d.now := by
  rw [Dev.startStop_of_live _ _ (by rw [Dev.answer_veh]; exact hlive), Dev.beginStop_veh _ _ (by rw [Dev.answer_veh]; exact hwhy),
    Dev.answer_veh]
  rfl

theorem Dev.startStop_veh (why : StopReason) (rank : Nat) (hlive : (d.link n).veh.live = true) (hwhy : (d.link n).veh.stopWhy = .none) :
    ((d.startStop n why rank).link n).veh = (d.link n).veh.stopped why rank d.now := by
  rw [Dev.startStop_of_live _ _ hlive, Dev.beginStop_veh _ _ hwhy]

/-! ### The contactor and the direction -/

theorem Dev.stopOpen_shows (d : Dev) (n : LinkId) :
    ((d.stopOpen n).link n).veh = { (d.link n).veh with openCmd := true, cToBAt := none } ∧
      ((d.stopOpen n).link n).cmd.close.getLsbD 0 = false ∧ d.LinksBut (d.stopOpen n) n ∧ d.RegsBut (d.stopOpen n) [] := by
  refine ⟨?_, ?_, Dev.LinksBut.rfl.command.onVeh, fun a _ => d.command_reg n 0 false a⟩
  · rw [Dev.stopOpen, Dev.onVeh_link, if_pos rfl, ← d.command_veh n n 0 false]
  · rw [Dev.stopOpen, Dev.onVeh_link, if_pos rfl]
    exact Dev.command_open 0 0 (.inr rfl)

/-- The set points leave the direction of the flow and the run of low current. -/
theorem Dev.setpoints_veh (d : Dev) (n : LinkId) :
    ((d.setpoints n).link n).veh.discharge = (d.link n).veh.discharge ∧
      ((d.setpoints n).link n).veh.turning = (d.link n).veh.turning ∧
      ((d.setpoints n).link n).veh.lowSince = (d.link n).veh.lowSince := by
  have hput : ∀ v a, ((d.putSet n v a).link n).veh.discharge = (d.link n).veh.discharge ∧
      ((d.putSet n v a).link n).veh.turning = (d.link n).veh.turning ∧
      ((d.putSet n v a).link n).veh.lowSince = (d.link n).veh.lowSince := fun v a => by
    rw [Dev.putSet, Dev.onVeh_link, if_pos rfl]
    exact ⟨rfl, rfl, rfl⟩
  unfold Dev.setpoints
  extract_lets v targetV targetI pub10 put
  by_cases hac : d.isAc n = true
  · rw [if_pos hac]
    exact ⟨rfl, rfl, rfl⟩
  rw [if_neg hac]
  split
  · exact hput _ _
  · exact hput _ _
  · split_ifs
    · exact hput _ _
    · exact hput _ _
    · exact hput _ _
  · exact hput _ _
  · exact ⟨rfl, rfl, rfl⟩

/-- The outlet as its flow takes the new direction. -/
def Dev.turned (d : Dev) (n : LinkId) (dir : Bool) : Dev :=
  d.onVeh n fun x => { x with discharge := dir, turning := none, lowSince := none }

theorem Dev.settleDirection_of {dir : Bool} (hturning : (d.link n).veh.turning = some dir) :
    d.settleDirection n = if (d.link n).veh.live = true ∧ isSamplePoint d.now = true ∧ heldFor (d.link n).veh.lowSince d.now 10001 = true then
      ((d.turned n dir).refreshReq n).setpoints n else d := by
  rw [Dev.settleDirection, hturning]
  rfl

end

/-- Settles O36: the stops by `Dev.startStop_veh`, the ends by `Dev.endStopped_shows`, bad messages by their two lemmas. -/
theorem sessionStops : Obligations.SessionStops := by
  unfold Obligations.SessionStops
  refine ⟨?deliverStop, ?pause, ?stopCmd, ?stopIdle, ?timeoutSetup, ?timeoutEnergy, ?setupBound, ?cableBound, ?prechargeBound, ?boundIdle,
    ?auth, ?authIdle, ?hold, ?holdIdle, ?low, ?lowIdle, ?forced, ?forcedIdle, ?ended, ?gone, ?endIdle, ?disch, ?dischIdle, ?turned, ?turnIdle⟩
  case deliverStop =>
    intro s n hlive hwhy htalk hstate
    have hexec : s.dev.deliverStop n .good = (s.dev.answer n .ok).startStop n .vehicle (vehRank n) :=
      (if_pos (by rw [hlive, htalk]; rfl)).trans ((if_neg V2gForm.noConfusion).trans (if_neg hstate))
    have hveh := Dev.startStop_answered .ok .vehicle (vehRank n) hlive hwhy
    generalize (s.dev.answer n .ok).startStop n .vehicle (vehRank n) = e at *
    refine .of_eq (exec_powerDeliveryStop n .good s) hexec ?_
    rw [Dev.settled_link, hveh]
    exact ⟨rfl, rfl, rfl, rfl, rfl⟩
  case pause =>
    intro s n hlive hwhy htalk hstate
    have hveh := Dev.startStop_answered .ok .vehicle (vehRank n) hlive hwhy
    refine .of_eq (exec_pauseStandbyReq n s) (if_pos ⟨hlive, htalk, hstate⟩) ?_
    generalize (s.dev.answer n .ok).startStop n .vehicle (vehRank n) = e at *
    rw [Dev.settled_link, hveh]
    exact ⟨rfl, rfl, rfl, rfl, rfl⟩
  case stopCmd =>
    intro s n hrec hlive hwhy
    have hveh := Dev.startStop_veh (d := s.dev.setReg (Reg.vehCmd n) 1) .remote hostRank hlive hwhy
    have hreg := Dev.startStop_regsBut (d := s.dev.setReg (Reg.vehCmd n) 1) (n := n) .remote hostRank (Reg.vehCmd n)
      (by simp only [List.mem_singleton, Reg.vehCmd, Reg.vehReq]; omega)
    rw [Dev.setReg_reg, if_pos rfl] at hreg
    refine .of_eq (exec_vehStopCmd n s) (Dev.gw_of_recording _ _ _ hrec) ?_
    generalize Dev.startStop _ n .remote hostRank = e at *
    rw [Dev.settled_link, Dev.settled_reg, hveh, hreg]
    exact ⟨rfl, rfl, rfl, rfl, rfl, rfl⟩
  case stopIdle =>
    intro s n hrec hlive
    have hnone : (s.dev.setReg (Reg.vehCmd n) 1).startStop n .remote hostRank = s.dev.setReg (Reg.vehCmd n) 1 :=
      Dev.startStop_idle _ _ hlive
    refine .of_eq (exec_vehStopCmd n s) ((Dev.gw_of_recording _ _ _ hrec).trans hnone) ⟨rfl, ?_, ?_⟩
    · rw [Dev.settled_reg, Dev.setReg_reg, if_pos rfl]
    · exact (Dev.RegsBut.rfl.setReg (by simp)).settled
  case timeoutSetup =>
    intro s n htalk hprotocol hstate hlive
    have hshows := Dev.badMessage_ends hlive
    refine .of_eq (exec_v2gSequenceTimeout n s) (if_pos ⟨htalk, hprotocol, by rw [hstate]; decide, by rw [hstate]; decide⟩) ?_
    generalize s.dev.badMessage n = e at *
    rw [Dev.settled_bit, Dev.settled_link]
    exact hshows
  case timeoutEnergy =>
    intro s n hlive hwhy htalk hprotocol hstate
    obtain ⟨hbit, hveh⟩ := Dev.badMessage_stops hlive hwhy
    refine .of_eq (exec_v2gSequenceTimeout n s) (if_pos ⟨htalk, hprotocol, by rw [hstate]; decide, by rw [hstate]; decide⟩) ?_
    generalize s.dev.badMessage n = e at *
    rw [Dev.settled_bit, Dev.settled_link, hveh]
    exact ⟨hbit, rfl, rfl, rfl, rfl, rfl⟩
  case setupBound =>
    intro s n hstate hlate hanswer htries
    have hexec : s.dev.stateBound n = (s.dev.raise (.veh n) 4).failAttempt n 2 := by
      rw [Dev.stateBound, hstate]
      exact if_pos (by rw [Bool.and_eq_true, decide_eq_true_eq, bne_iff_ne]; exact ⟨hlate, hanswer⟩)
    obtain ⟨hveh, hreg⟩ := Dev.failAttempt_again (d := s.dev.raise (.veh n) 4) (n := n) 2 (by rw [Dev.raise_link, htries]; decide)
    have hbit : ((s.dev.raise (.veh n) 4).failAttempt n 2).bit (Reg.vehEvents n) 4 = true := by
      rw [Dev.bit, hreg]
      exact s.dev.raise_bit (.veh n) _ _ (by decide)
    rw [Dev.raise_link, Dev.raise_now, htries] at hveh
    generalize Dev.failAttempt _ n 2 = e at *
    refine .of_eq (exec_stateBoundExpiry n s) hexec ?_
    rw [Dev.settled_bit, Dev.settled_link, hveh]
    exact ⟨hbit, rfl, rfl, rfl⟩
  case cableBound =>
    intro s n hlive hwhy hstate hlate hpassed
    have hexec : s.dev.stateBound n = s.dev.startStop n .trip (vehRank n) := by
      rw [Dev.stateBound, hstate]
      exact if_pos (by rw [hpassed, Bool.and_eq_true, decide_eq_true_eq]; exact ⟨hlate, rfl⟩)
    have hveh := Dev.startStop_veh .trip (vehRank n) hlive hwhy
    generalize s.dev.startStop n .trip (vehRank n) = e at *
    refine .of_eq (exec_stateBoundExpiry n s) hexec ?_
    rw [Dev.settled_link, hveh]
    exact ⟨rfl, rfl, rfl, rfl⟩
  case prechargeBound =>
    intro s n hlive hwhy hstate hlate
    have hexec : s.dev.stateBound n = s.dev.startStop n .vehicle (vehRank n) := by
      rw [Dev.stateBound, hstate]
      exact if_pos (decide_eq_true hlate)
    have hveh := Dev.startStop_veh .vehicle (vehRank n) hlive hwhy
    generalize s.dev.startStop n .vehicle (vehRank n) = e at *
    refine .of_eq (exec_stateBoundExpiry n s) hexec ?_
    rw [Dev.settled_link, hveh]
    exact ⟨rfl, rfl, rfl, rfl⟩
  case boundIdle =>
    intro s n hnot
    refine .idle (exec_stateBoundExpiry n s) ?_
    obtain ⟨h, hearly⟩ | ⟨h, hearly⟩ | ⟨h, hearly⟩ | h | h := hnot
    · rw [Dev.stateBound, h]
      refine if_neg fun hdue => ?_
      rw [Bool.and_eq_true, decide_eq_true_eq] at hdue
      exact absurd hdue.1 (Nat.not_le.mpr hearly)
    · rw [Dev.stateBound, h]
      refine if_neg fun hdue => ?_
      rw [Bool.and_eq_true, decide_eq_true_eq] at hdue
      exact absurd hdue.1 (Nat.not_le.mpr hearly)
    · rw [Dev.stateBound, h]
      exact if_neg fun hdue => absurd (of_decide_eq_true hdue) (Nat.not_le.mpr hearly)
    · rw [Dev.stateBound, h]
    · rw [Dev.stateBound, h]
  case auth =>
    intro s n hstate hwait hdecides hlate
    refine .of_eq (exec_authTimeout n s) (if_pos ⟨hstate, by simp [hwait], by simp [hdecides], hlate⟩) ?_
    rw [Dev.settled_bit, Dev.settled_link, Dev.endAttempt, Dev.bit, Dev.toState_reg, Dev.onVeh_reg, Dev.dropRun_reg,
      Dev.lastEnd_events, Dev.toState_veh, Dev.onVeh_link, if_pos rfl, Dev.dropRun_veh, Dev.lastEnd_link, Dev.answer_veh]
    exact ⟨s.dev.raise_bit (.veh n) _ _ (by decide), rfl, rfl⟩
  case authIdle =>
    intro s n hnot
    refine .idle (exec_authTimeout n s) (if_neg ?_)
    rintro ⟨hstate, hwait, hdecides, hlate⟩
    obtain h | h | h | h := hnot
    · exact h hstate
    · rw [Option.isNone_iff_eq_none.mp hwait] at h
      exact Bool.noConfusion h
    · simp [h] at hdecides
    · exact absurd hlate (Nat.not_le.mpr h)
  case hold =>
    intro s n h hheld hstate hlate
    refine .of_eq (exec_authHoldExpiry n s) (e := s.dev.onVeh n fun x => { x with held := none })
      (by simp only [hheld]; exact if_pos ⟨hstate, hlate⟩) ?_
    rw [Dev.settled_link, Dev.onVeh_link, if_pos rfl]
    exact ⟨rfl, Dev.LinksBut.rfl.onVeh.settled, (s.dev.onVeh_keeps n _).settled⟩
  case holdIdle =>
    intro s n h hnot
    refine .idle (exec_authHoldExpiry n s) ?_
    cases hheld : (s.dev.link n).veh.held with
    | none => simp only [hheld]
    | some x =>
      simp only [hheld]
      refine if_neg ?_
      rintro ⟨hstate, hlate⟩
      obtain h | h | ⟨h, hearly⟩ := hnot
      · simp [h] at hheld
      · exact h hstate
      · obtain rfl := Option.some.inj (hheld.symm.trans h)
        exact absurd hlate (Nat.not_le.mpr hearly)
  case low =>
    intro s n t hlive hstate hcmd hlow hheld
    obtain ⟨hveh, hopen, hlinks, hregs⟩ := s.dev.stopOpen_shows n
    have hheld' : heldFor (s.dev.link n).veh.lowSince s.dev.now (ms 10) = true := by
      rw [hlow]
      exact decide_eq_true hheld
    refine .of_eq (exec_stopCurrentLow n s) (if_pos ⟨hlive, hstate, by simp [hcmd], hheld'⟩) ?_
    exact ⟨hveh, hopen, hlinks.settled, hregs.settled⟩
  case lowIdle =>
    intro s n hnot
    refine .idle (exec_stopCurrentLow n s) (if_neg ?_)
    rintro ⟨hlive, hstate, hcmd, hheld⟩
    obtain h | h | h | h := hnot
    · simp [h] at hlive
    · exact h hstate
    · simp [h] at hcmd
    · exact absurd (h.symm.trans hheld) (by simp)
  case forced =>
    intro s n hlive hstate hcmd hlate
    obtain ⟨hveh, hopen, hlinks, hregs⟩ := s.dev.stopOpen_shows n
    refine .of_eq (exec_stopMsExpiry n s) (if_pos ⟨hlive, hstate, by simp [hcmd], hlate⟩) ?_
    rw [Dev.settled_link, Dev.raise_link]
    exact ⟨hveh, hopen, hlinks.raise.settled, Dev.settled_raise_bit _ (.veh n) _ _ (by decide),
      (Dev.RegsBut.raise (r := .veh n) (fun a _ => hregs a (by simp)) (by simp [EvReg.addr])).settled⟩
  case forcedIdle =>
    intro s n hnot
    refine .idle (exec_stopMsExpiry n s) (if_neg ?_)
    rintro ⟨hlive, hstate, hcmd, hlate⟩
    obtain h | h | h | h := hnot
    · simp [h] at hlive
    · exact h hstate
    · simp [h] at hcmd
    · exact absurd hlate (Nat.not_le.mpr h)
  case ended =>
    intro s n hlive hwhy hat hfb hstate hpilot hcable
    have hexec := Dev.endIfOpen_of hlive hwhy hat hfb
    have hdead := s.dev.endStopped_live n
    obtain ⟨hreason, hevent⟩ := Dev.endStopped_told hlive
    obtain ⟨hreq, -, hended⟩ := Dev.endStopped_shows hlive hstate
    generalize s.dev.endStopped n = e at *
    refine .of_eq (exec_sessionEnd n s) hexec ?_
    rw [Dev.settled_link, Dev.settled_bit, Dev.settled_field]
    exact ⟨hdead, hevent, hreq, hreason, hended hpilot hcable⟩
  case gone =>
    intro s n hlive hwhy hat hfb hstate hpilot
    have hexec := Dev.endIfOpen_of hlive hwhy hat hfb
    have hdead := s.dev.endStopped_live n
    obtain ⟨hreason, hevent⟩ := Dev.endStopped_told hlive
    obtain ⟨hreq, hidle, -⟩ := Dev.endStopped_shows hlive hstate
    generalize s.dev.endStopped n = e at *
    refine .of_eq (exec_sessionEnd n s) hexec ?_
    rw [Dev.settled_link, Dev.settled_bit, Dev.settled_field]
    exact ⟨hdead, hevent, hreq, hreason, hidle (.inl hpilot)⟩
  case endIdle =>
    intro s n hnot
    refine .idle (exec_sessionEnd n s) (if_neg ?_)
    rintro ⟨hlive, hwhy, hat, hfb⟩
    obtain h | h | h | h := hnot
    · simp [h] at hlive
    · exact hwhy h
    · exact absurd hat (Nat.not_lt.mpr h)
    · simp [h] at hfb
  case disch =>
    intro s n w hrec hrole
    refine .of_eq (exec_dischKwWrite n w s) ((Dev.hosted_of_recording _ hrec).trans (if_pos hrole)) ⟨?_, ?_, Dev.LinksBut.rfl.setReg.settled⟩
    · rw [Dev.settled_reg, Dev.setReg_reg, if_pos rfl]
    · exact (Dev.RegsBut.rfl.setReg (by simp)).settled
  case dischIdle =>
    intro s n w hnot
    refine .idle (exec_dischKwWrite n w s) ?_
    obtain h | h := hnot
    · exact if_neg (by simp [h])
    · exact ite_eq_right_iff.mpr fun _ => if_neg h
  case turned =>
    intro s n dir t hturning hlive hlow hheld hpoint
    have hheld' : heldFor (s.dev.link n).veh.lowSince s.dev.now 10001 = true := by
      rw [hlow]
      exact decide_eq_true hheld
    have hexec := (Dev.settleDirection_of hturning).trans (if_pos ⟨hlive, hpoint, hheld'⟩)
    have hveh := Dev.setpoints_veh ((s.dev.turned n dir).refreshReq n) n
    rw [Dev.refreshReq_veh, Dev.turned, Dev.onVeh_link, if_pos rfl, ← Dev.turned] at hveh
    generalize Dev.setpoints _ n = e at *
    refine .of_eq (exec_directionSettled n s) hexec ?_
    rw [Dev.settled_link]
    exact hveh
  case turnIdle =>
    intro s n hnot
    refine .idle (exec_directionSettled n s) ?_
    cases hturning : (s.dev.link n).veh.turning with
    | none => rw [Dev.settleDirection, hturning]
    | some dir =>
      rw [Dev.settleDirection_of hturning]
      refine if_neg ?_
      rintro ⟨hlive, hpoint, hheld⟩
      obtain h | h | h | h := hnot
      · simp [h] at hturning
      · simp [h] at hlive
      · exact absurd (h.symm.trans hheld) (by simp)
      · exact absurd (h.symm.trans hpoint) (by simp)

end Sys2Proof.Machine
end


section
/-! SUPPORT. Tag engines and transactions: what the statement asks (R328 to R334). -/

namespace Sys2Proof.Machine

set_option Elab.async false

section
variable {d : Dev} {n : LinkId} {x : Fin 24} {t : TagTransaction}

theorem Dev.onEngine_self (d : Dev) (x : Fin 24) (t : Option TagTransaction) : (d.onEngine x t).engines.get x = t := by
  simp [Dev.onEngine, Vector.get_eq_getElem]

@[simp] theorem Dev.onEngine_link (d : Dev) (x : Fin 24) (t : Option TagTransaction) (m : LinkId) :
    (d.onEngine x t).link m = d.link m := rfl

theorem Dev.LinksBut.onEngine {e : Dev} {t : Option TagTransaction} (h : d.LinksBut e n) : d.LinksBut (e.onEngine x t) n := h

/-! ### Polls -/

theorem Dev.tagPoll_due (h : (d.link n).tag.pollAt + 1000 * d.pollMs n ≤ d.now) :
    d.tagPoll n = d.onTag n fun x => { x with
      pollAt := d.now, request := ((d.pollClass n).map fun c => ({ cls := c, admitted := d.now } : TagRequest)).or x.request } := if_pos h

/-- What keeps an outlet from asking for an engine. -/
def Dev.pollBarred (d : Dev) (n : LinkId) : Prop :=
  d.role n ≠ .outlet ∨ (d.mode ≠ .run ∧ d.mode ≠ .economy) ∨ d.tagMode n = 0 ∨ 4 < d.tagMode n ∨ (d.link n).veh.live = true ∨
    (d.link n).tag.request.isSome = true ∨ (d.link n).tag.engine.isSome = true ∨ (d.link n).tag.fieldOff.isSome = true

theorem Dev.pollClass_barred (h : d.pollBarred n) : d.pollClass n = none := if_pos h

/-- An outlet that nothing bars. -/
theorem Dev.not_pollBarred (hrole : d.role n = .outlet) (hmode : d.mode = .run ∨ d.mode = .economy) (hlo : 1 ≤ d.tagMode n)
    (hhi : d.tagMode n ≤ 4) (hlive : (d.link n).veh.live = false) (hrequest : (d.link n).tag.request = none)
    (hengine : (d.link n).tag.engine = none) (hfield : (d.link n).tag.fieldOff = none) : ¬d.pollBarred n := by
  rintro (h | ⟨h1, h2⟩ | h | h | h | h | h | h)
  · exact h hrole
  · exact hmode.elim h1 h2
  · exact absurd hlo (by omega)
  · exact absurd hhi (by omega)
  · simp [hlive] at h
  · simp [hrequest] at h
  · simp [hengine] at h
  · simp [hfield] at h

theorem Dev.pollClass_idle (h : ¬d.pollBarred n) (hstate : (d.link n).veh.state = .idle) : d.pollClass n = some 2 := by
  refine (if_neg h).trans ?_
  rw [hstate]

theorem Dev.pollClass_waiting (h : ¬d.pollBarred n) (hstate : (d.link n).veh.state ∈ [.plugged, .matching, .setup, .authorizing])
    (hheld : (d.link n).veh.held = none) : d.pollClass n = some 1 := by
  refine (if_neg h).trans ?_
  simp only [List.mem_cons, List.not_mem_nil, or_false] at hstate
  obtain h | h | h | h := hstate
  · rw [h, hheld]; rfl
  · rw [h, hheld]; rfl
  · rw [h, hheld]; rfl
  · rw [h, hheld]; rfl

/-! ### Answers -/

/-- An answer to a command sent. -/
theorem Dev.airResponse_card {a : AirAnswer} (h : d.engines.get x = some t) (hx : x.1 < 16) (hsent : t.sendAt ≤ d.now)
    (hheld : t.step ≠ .held) : d.airResponse x a = d.cardAnswer x t a := by
  have hcard : uhfEngine x = false := decide_eq_false (Nat.not_le.mpr hx)
  rw [Dev.airResponse, h]
  refine (if_neg ?_).trans (if_neg (by simp [hcard]))
  rintro (hearly | hheld')
  · exact absurd hsent (Nat.not_le.mpr hearly)
  · exact hheld hheld'

theorem Dev.airResponse_uhf {a : AirAnswer} (h : d.engines.get x = some t) (hx : 16 ≤ x.1) (hsent : t.sendAt ≤ d.now)
    (hheld : t.step ≠ .held) : d.airResponse x a = d.uhfAnswer x t a := by
  rw [Dev.airResponse, h]
  refine (if_neg ?_).trans (if_pos (decide_eq_true hx))
  rintro (hearly | hheld')
  · exact absurd hsent (Nat.not_le.mpr hearly)
  · exact hheld hheld'

theorem Dev.cardAnswer_uids (us : List (List Byte)) (h : t.step = .anticollision) :
    d.cardAnswer x t (.uids us) = d.cardsFound x t us := by
  unfold Dev.cardAnswer
  rw [h]

theorem Dev.cardAnswer_none (h : t.step = .anticollision) : d.cardAnswer x t .none = d.cardsFound x t [] := by
  unfold Dev.cardAnswer
  rw [h]

theorem Dev.cardAnswer_fci {tn : BitVec 16} (k : Byte) (h : t.step = .fci) (hserved : d.configRefusal .card tn.toNat = none)
    (hrng : d.sec.rng ≠ .failed) (hseeded : d.seeded tn.toNat = true) :
    d.cardAnswer x t (.fci tn k) = (d.onTag t.link fun l => { l with card := .opened }).onEngine x
      (some (({ t with tenant := tn, keyVer := k } : TagTransaction).go d.now .auth1 .auth1)) := by
  unfold Dev.cardAnswer
  rw [h]
  simp only [hserved]
  exact (if_neg hrng).trans (if_neg (by simp [hseeded]))

theorem Dev.cardAnswer_refused {tn : BitVec 16} (k : Byte) {code : Nat} (h : t.step = .fci)
    (hrefused : d.configRefusal .card tn.toNat = some code) :
    d.cardAnswer x t (.fci tn k) = (d.onTag t.link fun l => { l with card := .opened }).onEngine x
      (some (({ t with tenant := tn, keyVer := k } : TagTransaction).ends d.now (.refused code tn))) := by
  unfold Dev.cardAnswer
  rw [h]
  simp only [hrefused]

theorem Dev.uhfAnswer_none (h : t.step = .round) (hfound : t.found = []) (hfailed : t.failed = []) :
    d.uhfAnswer x t .none = d.onEngine x (some (t.ends d.now .noCard)) := by
  unfold Dev.uhfAnswer
  rw [h, hfound, hfailed]

/-- The card of the lowest UID that is not HALTED is selected. -/
theorem Dev.cardsFound_some {us : List (List Byte)} {u : List Byte}
    (h : lowestUid (us.filter fun u => !((d.link t.link).tag.halted.filter us.contains).contains u) = some u) :
    d.cardsFound x t us = (d.onEngine x (some { t.go d.now .fci (.select credentialAid) with uid := u })).onTag t.link fun l =>
      { l with uid := u, halted := (d.link t.link).tag.halted.filter us.contains } := by
  unfold Dev.cardsFound
  extract_lets still
  change lowestUid (us.filter fun u => !still.contains u) = some u at h
  rw [h]

theorem Dev.cardsFound_none {us : List (List Byte)}
    (h : lowestUid (us.filter fun u => !((d.link t.link).tag.halted.filter us.contains).contains u) = none) :
    d.cardsFound x t us = (d.onEngine x (some { t with step := .done, outcome := some .noCard, sendAt := d.now })).onTag t.link fun l =>
      { l with
        uid := [], halted := (d.link t.link).tag.halted.filter us.contains
        card := if ((d.link t.link).tag.halted.filter us.contains).isEmpty then .none else .halted } := by
  unfold Dev.cardsFound
  extract_lets still
  change lowestUid (us.filter fun u => !still.contains u) = none at h
  rw [h]

theorem Dev.cardAnswer_done {a : AirAnswer} (h : t.step = .done) : d.cardAnswer x t a = d := by
  unfold Dev.cardAnswer
  rw [h]

theorem Dev.uhfAnswer_done {a : AirAnswer} (h : t.step = .done) : d.uhfAnswer x t a = d := by
  unfold Dev.uhfAnswer
  rw [h]

/-- A command not sent yet, and an engine that is free, held or done, hear nothing. -/
theorem Dev.airResponse_deaf {a : AirAnswer}
    (h : ((d.engines.get x).map fun t => decide (t.sendAt ≤ d.now) && decide (t.step ≠ .held) && decide (t.step ≠ .done)) ≠ some true) :
    d.airResponse x a = d := by
  rw [Dev.airResponse]
  cases hx : d.engines.get x with
  | none => rfl
  | some t =>
    by_cases hwait : d.now < t.sendAt ∨ t.step = .held
    · exact if_pos hwait
    · have hdone : t.step = .done := by
        rw [not_or] at hwait
        by_contra hnot
        refine h ?_
        rw [hx, Option.map_some, decide_eq_true (Nat.not_lt.mp hwait.1), decide_eq_true hwait.2, decide_eq_true hnot]
        rfl
      refine (if_neg hwait).trans ?_
      split_ifs
      · exact Dev.uhfAnswer_done hdone
      · exact Dev.cardAnswer_done hdone

/-! ### Ends -/

theorem Dev.freeTag_shows (d : Dev) (x : Fin 24) (n : LinkId) :
    (d.freeTag x n).engines.get x = none ∧ ((d.freeTag x n).link n).tag.engine = none ∧ (d.freeTag x n).commits = d.commits ∧
      d.LinksBut (d.freeTag x n) n ∧ d.RegsBut (d.freeTag x n) [] := by
  refine ⟨d.onEngine_self x none, ?_, rfl, Dev.LinksBut.of_same (Dev.LinksBut.rfl (d := d).onTag (f := fun t => { t with engine := none })) fun _ => rfl, fun _ _ => rfl⟩
  change (((d.onEngine x none).onTag n fun t => { t with engine := none }).link n).tag.engine = none
  rw [Dev.onTag_link, if_pos rfl]

/-- The device after a transaction ended, before its result is kept. -/
def Dev.tagFreed (d : Dev) (x : Fin 24) (t : TagTransaction) (o : TagOutcome) : Dev :=
  if !uhfEngine x && o.halts then
    (d.freeTag x t.link).onTag t.link fun l => { l with card := .halted, halted := l.halted ++ [t.uid] }
  else d.freeTag x t.link

theorem Dev.tagFreed_shows (o : TagOutcome) :
    (d.tagFreed x t o).engines.get x = none ∧ ((d.tagFreed x t o).link t.link).tag.engine = none ∧
      (d.tagFreed x t o).commits = d.commits ∧ d.LinksBut (d.tagFreed x t o) t.link ∧ d.RegsBut (d.tagFreed x t o) [] := by
  obtain ⟨hengine, hlink, hcommits, hlinks, hregs⟩ := d.freeTag_shows x t.link
  unfold Dev.tagFreed
  generalize d.freeTag x t.link = e at *
  split_ifs
  · refine ⟨hengine, ?_, hcommits, hlinks.onTag, hregs⟩
    rw [Dev.onTag_link, if_pos rfl]
    exact hlink
  · exact ⟨hengine, hlink, hcommits, hlinks, hregs⟩

theorem Dev.tagEnd_of {o : TagOutcome} (h : d.engines.get x = some t) (ho : t.outcome = some o) :
    d.tagEnd x = if o = .noCard then d.tagFreed x t o
      else (d.tagFreed x t o).commit (commitKey (vehRank t.link) 0) (.tagResult t.link (if uhfEngine x then .tag else .card) o) := by
  rw [Dev.tagEnd, h]
  simp only [ho]
  rfl

/-- A transaction abandoned: the field off for 5 ms, before its result is kept. -/
def Dev.tagAbandoned (d : Dev) (x : Fin 24) (n : LinkId) : Dev :=
  (((d.onEngine x none).cancel (.tagStep x)).dropRngWait (· == .tag x)).onTag n fun l => { l with
    engine := none, fieldOff := some (d.now + ms 5), card := .none, uid := [], halted := [] }

theorem Dev.tagTimeout_of (h : d.engines.get x = some t) (hlate : t.granted + 250000 ≤ d.now) :
    d.tagTimeout x = ((d.tagAbandoned x t.link).raise .tag 4 (BitVec.ofNat 32 t.link.1)).commit (commitKey (vehRank t.link) 0)
      (.tagResult t.link (if uhfEngine x then .tag else .card) (.timeout t.named)) := by
  rw [Dev.tagTimeout, h]
  exact if_pos hlate

theorem Dev.tagAbandoned_tag : ((d.tagAbandoned x n).link n).tag =
    { (d.link n).tag with engine := none, fieldOff := some (d.now + 5000), card := .none, uid := [], halted := [] } := by
  rw [Dev.tagAbandoned, Dev.onTag_link, if_pos rfl]
  rfl

/-- An inventory round begins at once where random numbers are to be had. -/
theorem Dev.nextRound_healthy (at' : Tick) (h : d.sec.rng = .healthy) :
    d.nextRound x t at' =
      (d.onEngine x (some { t with step := .round, rndB := d.random 10, sent := .round d.uhfAfi (d.random 10), sendAt := at' })).randomDrawn := by
  rw [Dev.nextRound, h]

/-- A granted engine's transaction, before its first command. -/
def Dev.tagBegun (d : Dev) (n : LinkId) (r : TagRequest) : TagTransaction :=
  { link := n, cls := r.cls, granted := d.now, step := .anticollision, uid := [], tenant := 0, keyVer := 0, rndA := [], rndB := [], ks := []
    found := [], failed := [], outcome := none
    sent := .poll (d.tagMode n == 2 || d.tagMode n == 3 && (d.link n).tag.turnB), sendAt := d.now }

/-- The outlet that an engine was granted. -/
def Dev.tagGranted (d : Dev) (x : Fin 24) (n : LinkId) : Dev :=
  d.onTag n fun t => { t with request := none, engine := some x, turnB := !t.turnB }

theorem Dev.tagGranted_tag (d : Dev) (x : Fin 24) (n : LinkId) :
    ((d.tagGranted x n).link n).tag = { (d.link n).tag with request := none, engine := some x, turnB := !(d.link n).tag.turnB } := by
  rw [Dev.tagGranted, Dev.onTag_link, if_pos rfl]

theorem Dev.grantEngine_of {r : TagRequest} (hfree : d.engines.get x = none)
    (hfirst : d.firstRequest (uhfEngine x) = some (n, r)) :
    d.grantEngine x = if uhfEngine x then (d.tagGranted x n).nextRound x (d.tagBegun n r) d.now
      else (d.tagGranted x n).onEngine x (some (d.tagBegun n r)) := by
  rw [Dev.grantEngine, hfree, hfirst]
  rfl

/-- What a grant shows, whichever way the transaction begins. -/
theorem Dev.tagGranted_shows (d : Dev) (x : Fin 24) (n : LinkId) (t : TagTransaction) :
    ((d.tagGranted x n).onEngine x (some t)).engines.get x = some t ∧
      (((d.tagGranted x n).onEngine x (some t)).link n).tag.request = none ∧
      (((d.tagGranted x n).onEngine x (some t)).link n).tag.engine = some x ∧
      d.LinksBut ((d.tagGranted x n).onEngine x (some t)) n ∧ d.RegsBut ((d.tagGranted x n).onEngine x (some t)) [] := by
  rw [Dev.onEngine_link, Dev.tagGranted_tag]
  exact ⟨Dev.onEngine_self _ x _, rfl, rfl, Dev.LinksBut.rfl.onTag.onEngine, fun _ _ => rfl⟩

end

/-- Settles O41: polls by their class, answers by the transaction's step, ends by what frees the engine. -/
theorem tagRules : Obligations.TagRules := by
  unfold Obligations.TagRules
  refine ⟨?idle, ?waiting, ?barred, ?early, ?grant, ?grantIdle, ?selected, ?noneLeft, ?noneHeard, ?fci, ?refused, ?roundEnd, ?deaf, ?noCard,
    ?result, ?notEnded, ?abandoned, ?inTime, ?promoted, ?notPromoted, ?fieldOn, ?fieldOff⟩
  case idle =>
    intro s n hdue hrole hmode hlo hhi hlive hrequest hengine hfield hstate
    have hclass := Dev.pollClass_idle (Dev.not_pollBarred hrole hmode hlo hhi hlive hrequest hengine hfield) hstate
    refine .of_eq (exec_tagPoll n s) (Dev.tagPoll_due hdue) ?_
    rw [Dev.settled_link, Dev.onTag_link, if_pos rfl, hclass]
    exact ⟨rfl, Dev.LinksBut.rfl.onTag.settled, (s.dev.onTag_keeps n _).settled⟩
  case waiting =>
    intro s n hdue hrole hmode hlo hhi hlive hrequest hengine hfield hstate hheld
    have hclass := Dev.pollClass_waiting (Dev.not_pollBarred hrole hmode hlo hhi hlive hrequest hengine hfield) hstate hheld
    refine .of_eq (exec_tagPoll n s) (Dev.tagPoll_due hdue) ?_
    rw [Dev.settled_link, Dev.onTag_link, if_pos rfl, hclass]
    exact ⟨rfl, Dev.LinksBut.rfl.onTag.settled, (s.dev.onTag_keeps n _).settled⟩
  case barred =>
    intro s n hdue hbar
    have hbarred : s.dev.pollBarred n := by
      obtain h | h | h | h | h | h | h := hbar
      · exact .inl h
      · exact .inr (.inl h)
      · exact .inr (.inr (.inl h))
      · exact .inr (.inr (.inr (.inr (.inl h))))
      · exact .inr (.inr (.inr (.inr (.inr (.inl h)))))
      · exact .inr (.inr (.inr (.inr (.inr (.inr (.inl h))))))
      · exact .inr (.inr (.inr (.inr (.inr (.inr (.inr h))))))
    refine .of_eq (exec_tagPoll n s) (Dev.tagPoll_due hdue) ?_
    rw [Dev.settled_link, Dev.onTag_link, if_pos rfl, Dev.pollClass_barred hbarred]
    exact ⟨rfl, Dev.LinksBut.rfl.onTag.settled, (s.dev.onTag_keeps n _).settled⟩
  case early =>
    intro s n hearly
    exact .idle (exec_tagPoll n s) (if_neg (Nat.not_le.mpr hearly))
  case grant =>
    intro s x n r hfree hfirst hrng
    by_cases hu : uhfEngine x = true
    · have hhealthy : (s.dev.tagGranted x n).sec.rng = .healthy := hrng.resolve_left (by simp [hu])
      obtain ⟨hengine, hrequest, hgranted, hlinks, hregs⟩ := s.dev.tagGranted_shows x n
        { s.dev.tagBegun n r with
          step := .round, rndB := (s.dev.tagGranted x n).random 10
          sent := .round (s.dev.tagGranted x n).uhfAfi ((s.dev.tagGranted x n).random 10), sendAt := s.dev.now }
      refine .of_eq (exec_tagEngineGrant x s)
        ((Dev.grantEngine_of hfree hfirst).trans ((if_pos hu).trans (Dev.nextRound_healthy _ hhealthy))) ?_
      exact ⟨hrequest, hgranted, (congrArg (Option.map _) hengine).trans (by rw [if_pos hu]; rfl), hlinks.randomDrawn.settled,
        hregs.randomDrawn.settled⟩
    · obtain ⟨hengine, hrequest, hgranted, hlinks, hregs⟩ := s.dev.tagGranted_shows x n (s.dev.tagBegun n r)
      refine .of_eq (exec_tagEngineGrant x s) ((Dev.grantEngine_of hfree hfirst).trans (if_neg hu)) ?_
      exact ⟨hrequest, hgranted, (congrArg (Option.map _) hengine).trans (by rw [if_neg hu]; rfl), hlinks.settled, hregs.settled⟩
  case grantIdle =>
    intro s x hnot
    refine .idle (exec_tagEngineGrant x s) ?_
    rw [Dev.grantEngine]
    obtain h | h := hnot
    · obtain ⟨t, ht⟩ := Option.isSome_iff_exists.mp h
      rw [ht]
    · rw [h]
      cases s.dev.engines.get x <;> rfl
  case selected =>
    intro s x t us u hengine hx hsent hstep hlowest
    have hexec := (Dev.airResponse_card (a := .uids us) hengine hx hsent (by rw [hstep]; decide)).trans
      ((Dev.cardAnswer_uids us hstep).trans (Dev.cardsFound_some hlowest))
    refine .of_eq (exec_airResponse x (.uids us) s) hexec ⟨?_, ?_, ?_, fun _ _ => ?_⟩
    · exact congrArg (Option.map _) (Dev.onEngine_self _ x _)
    · rw [Dev.settled_link, Dev.onTag_link, if_pos rfl]
    · exact Dev.LinksBut.rfl.onEngine.onTag.settled
    · rw [Dev.settled_reg]
      rfl
  case noneLeft =>
    intro s x t us hengine hx hsent hstep hlowest
    have hexec := (Dev.airResponse_card (a := .uids us) hengine hx hsent (by rw [hstep]; decide)).trans
      ((Dev.cardAnswer_uids us hstep).trans (Dev.cardsFound_none hlowest))
    refine .of_eq (exec_airResponse x (.uids us) s) hexec ⟨?_, ?_, ?_, fun _ _ => ?_⟩
    · exact congrArg (Option.map _) (Dev.onEngine_self _ x _)
    · rw [Dev.settled_link, Dev.onTag_link, if_pos rfl]
    · exact Dev.LinksBut.rfl.onEngine.onTag.settled
    · rw [Dev.settled_reg]
      rfl
  case noneHeard =>
    intro s x t hengine hx hsent hstep
    have hexec := (Dev.airResponse_card (a := .none) hengine hx hsent (by rw [hstep]; decide)).trans
      ((Dev.cardAnswer_none hstep).trans (Dev.cardsFound_none rfl))
    have hstill : (s.dev.link t.link).tag.halted.filter ([] : List (List Byte)).contains = [] := List.filter_eq_nil_iff.mpr fun _ _ => by simp
    rw [hstill] at hexec
    refine .of_eq (exec_airResponse x .none s) hexec ⟨?_, ?_, ?_, ?_, ?_, fun _ _ => ?_⟩
    · exact congrArg (Option.map _) (Dev.onEngine_self _ x _)
    · rw [Dev.settled_link, Dev.onTag_link, if_pos rfl]
      rfl
    · rw [Dev.settled_link, Dev.onTag_link, if_pos rfl]
    · rw [Dev.settled_link, Dev.onTag_link, if_pos rfl]
    · exact Dev.LinksBut.rfl.onEngine.onTag.settled
    · rw [Dev.settled_reg]
      rfl
  case fci =>
    intro s x t tn k hengine hx hsent hstep hserved hrng hseeded
    have hexec := (Dev.airResponse_card (a := .fci tn k) hengine hx hsent (by rw [hstep]; decide)).trans
      (Dev.cardAnswer_fci k hstep hserved hrng hseeded)
    refine .of_eq (exec_airResponse x (.fci tn k) s) hexec ⟨?_, ?_, ?_, fun _ _ => ?_⟩
    · exact congrArg (Option.map _) (Dev.onEngine_self _ x _)
    · rw [Dev.settled_link, Dev.onEngine_link, Dev.onTag_link, if_pos rfl]
    · exact Dev.LinksBut.rfl.onTag.onEngine.settled
    · rw [Dev.settled_reg]
      rfl
  case refused =>
    intro s x t tn k code hengine hx hsent hstep hrefused
    have hexec := (Dev.airResponse_card (a := .fci tn k) hengine hx hsent (by rw [hstep]; decide)).trans
      (Dev.cardAnswer_refused k hstep hrefused)
    refine .of_eq (exec_airResponse x (.fci tn k) s) hexec ⟨?_, ?_, fun _ _ => ?_⟩
    · exact congrArg (Option.map _) (Dev.onEngine_self _ x _)
    · exact Dev.LinksBut.rfl.onTag.onEngine.settled
    · rw [Dev.settled_reg]
      rfl
  case roundEnd =>
    intro s x t hengine hx hsent hstep hfound hfailed
    have hexec := (Dev.airResponse_uhf (a := .none) hengine hx hsent (by rw [hstep]; decide)).trans
      (Dev.uhfAnswer_none hstep hfound hfailed)
    refine .of_eq (exec_airResponse x .none s) hexec ⟨?_, fun _ => rfl, fun _ _ => ?_⟩
    · exact congrArg (Option.map _) (Dev.onEngine_self _ x _)
    · rw [Dev.settled_reg]
      rfl
  case deaf =>
    intro s x a hnot
    exact .idle (exec_airResponse x a s) (Dev.airResponse_deaf hnot)
  case noCard =>
    intro s x t hengine hout
    obtain ⟨hfree, hlink, hcommits, hlinks, hregs⟩ := s.dev.tagFreed_shows (x := x) (t := t) .noCard
    exact .of_eq (exec_tagTransactionEnd x s) ((Dev.tagEnd_of hengine hout).trans (if_pos rfl))
      ⟨hfree, hlink, hcommits, hlinks.settled, hregs.settled⟩
  case result =>
    intro s x t r hengine hout hcard
    obtain ⟨hfree, hlink, hcommits, hlinks, hregs⟩ := s.dev.tagFreed_shows (x := x) (t := t) r
    have hexec := (Dev.tagEnd_of hengine hout).trans (if_neg hcard)
    generalize s.dev.tagFreed x t r = e at *
    refine .of_eq (exec_tagTransactionEnd x s) hexec ⟨hfree, hlink, ?_, Dev.LinksBut.settled hlinks, ?_⟩
    · exact congrArg (· ++ _) hcommits
    · exact Dev.RegsBut.settled fun a ha => hregs a ha
  case notEnded =>
    intro s x hnone
    refine .idle (exec_tagTransactionEnd x s) ?_
    rw [Dev.tagEnd]
    cases hx : s.dev.engines.get x with
    | none => rfl
    | some t =>
      rw [hx, Option.bind_some] at hnone
      simp only [hnone]
  case abandoned =>
    intro s x t hengine hlate
    have htag := s.dev.tagAbandoned_tag (x := x) (n := t.link)
    refine .of_eq (exec_tagEngineTimeout x s) (Dev.tagTimeout_of hengine hlate) ⟨?_, ?_, ?_, ?_, ?_, ?_, ?_, ?_⟩
    · change ((s.dev.tagAbandoned x t.link).raise .tag 4 (BitVec.ofNat 32 t.link.1)).engines.get x = none
      rw [Dev.raise_engines]
      exact s.dev.onEngine_self x none
    · change (((s.dev.tagAbandoned x t.link).raise .tag 4 (BitVec.ofNat 32 t.link.1)).link t.link).tag.engine = none
      rw [Dev.raise_link, htag]
    · change (((s.dev.tagAbandoned x t.link).raise .tag 4 (BitVec.ofNat 32 t.link.1)).link t.link).tag.fieldOff = _
      rw [Dev.raise_link, htag]
    · change (((s.dev.tagAbandoned x t.link).raise .tag 4 (BitVec.ofNat 32 t.link.1)).link t.link).tag.card = _
      rw [Dev.raise_link, htag]
    · rw [Dev.settled_bit]
      exact Dev.raise_bit _ .tag _ _ (by decide)
    · change ((s.dev.tagAbandoned x t.link).raise .tag 4 (BitVec.ofNat 32 t.link.1)).commits ++ _ = _
      rw [Dev.raise_commits]
      rfl
    · intro m hm
      change ((s.dev.tagAbandoned x t.link).raise .tag 4 (BitVec.ofNat 32 t.link.1)).link m = _
      rw [Dev.raise_link, Dev.tagAbandoned, Dev.onTag_link, if_neg hm]
      rfl
    · have hsame : s.dev.RegsBut (s.dev.tagAbandoned x t.link) [Reg.tagEvents] := fun _ _ => rfl
      exact Dev.RegsBut.settled (hsame.raise (r := .tag) (by simp [EvReg.addr]))
  case inTime =>
    intro s x hnot
    refine .idle (exec_tagEngineTimeout x s) ?_
    rw [Dev.tagTimeout]
    cases hx : s.dev.engines.get x with
    | none => rfl
    | some t => exact if_neg fun hlate => hnot (by rw [hx]; exact congrArg some (decide_eq_true hlate))
  case promoted =>
    intro s n r hrequest hcls hwaited
    refine .of_eq (exec_tagPollPromote n s) (e := s.dev.onTag n fun x => { x with request := some { r with cls := 1 } }) ?_ ?_
    · rw [Dev.tagPromote, hrequest]
      exact if_pos ⟨hcls, hwaited⟩
    · rw [Dev.settled_link, Dev.onTag_link, if_pos rfl]
      exact ⟨rfl, Dev.LinksBut.rfl.onTag.settled, (s.dev.onTag_keeps n _).settled⟩
  case notPromoted =>
    intro s n hnot
    refine .idle (exec_tagPollPromote n s) ?_
    rw [Dev.tagPromote]
    cases hr : (s.dev.link n).tag.request with
    | none => rfl
    | some r => exact if_neg fun hdue => hnot (by rw [hr]; exact congrArg some (decide_eq_true hdue))
  case fieldOn =>
    intro s n t hoff hdue
    refine .of_eq (exec_fieldResetEnd n s) (if_pos (by rw [hoff]; exact decide_eq_true hdue)) ?_
    rw [Dev.settled_link, Dev.onTag_link, if_pos rfl]
    exact ⟨rfl, Dev.LinksBut.rfl.onTag.settled, (s.dev.onTag_keeps n _).settled⟩
  case fieldOff =>
    intro s n hnot
    refine .idle (exec_fieldResetEnd n s) (if_neg ?_)
    cases hoff : (s.dev.link n).tag.fieldOff with
    | none => exact Bool.noConfusion
    | some t => exact fun hdue => hnot (by rw [hoff]; exact congrArg some hdue)

end Sys2Proof.Machine
end


section
/-! SUPPORT. The service tag: its commands and its mailbox (R335 to R338). -/

namespace Sys2Proof.Machine

set_option Elab.async false

/-! ### Words in a row -/

section
variable {d : Dev}

theorem Dev.setRegs_other (ws : List Word) {a x : Nat} (h : ∀ i, i < ws.length → x ≠ a + 4 * i) : (d.setRegs a ws).reg x = d.reg x := by
  induction ws generalizing d a with
  | nil => rfl
  | cons w ws ih =>
    rw [Dev.setRegs, ih fun i hi => ?_, Dev.setReg_reg, if_neg (show x ≠ a from h 0 (Nat.succ_pos _))]
    have hne := h (i + 1) (Nat.succ_lt_succ hi)
    omega

theorem Dev.setRegs_at (ws : List Word) {a i : Nat} (h : i < ws.length) : (d.setRegs a ws).reg (a + 4 * i) = ws.getD i 0 := by
  induction ws generalizing d a i with
  | nil => exact absurd h (Nat.not_lt_zero i)
  | cons w ws ih =>
    rw [Dev.setRegs]
    cases i with
    | zero => rw [Dev.setRegs_other ws fun i _ => by omega, Nat.mul_zero, Nat.add_zero, Dev.setReg_reg, if_pos rfl, List.getD_cons_zero]
    | succ i =>
      rw [show a + 4 * (i + 1) = a + 4 + 4 * i by omega, ih (Nat.lt_of_succ_lt_succ h), List.getD_cons_succ]

theorem Dev.setRegs_svc (ws : List Word) (a : Nat) : (d.setRegs a ws).svc = d.svc := by
  induction ws generalizing d a with
  | nil => rfl
  | cons w ws ih => exact ih _

theorem padded_words (bs : List Byte) : (wordsLE (padTo 256 bs)).length = 64 := by
  simp [wordsLE, padTo, slice]

/-- A word of the mailbox, counted from its first. -/
theorem Reg.tagSvcMbxData_eq (i : Nat) : Reg.tagSvcMbxData i = Reg.tagSvcMbxData 0 + 4 * i := by
  simp only [Reg.tagSvcMbxData]

theorem Dev.setMbx_at (bs : List Byte) {i : Nat} (h : i < 64) :
    (d.setMbx bs).reg (Reg.tagSvcMbxData i) = (wordsLE (padTo 256 bs)).getD i 0 := by
  rw [Reg.tagSvcMbxData_eq i, Dev.setMbx, Dev.setRegs_at _ (by rw [padded_words]; exact h)]

/-- A mailbox lost: it is empty and no side owns it. -/
theorem Dev.loseMailbox_shows (d : Dev) :
    d.loseMailbox.svc = { d.svc with owner := .none, fill := .empty, len := 0, secured := false, acqAt := none } ∧
      d.loseMailbox.bit Reg.tagSvcEvents 5 = true ∧ ∀ i, i < 64 → d.loseMailbox.reg (Reg.tagSvcMbxData i) = 0 := by
  refine ⟨?_, Dev.raise_bit _ .svc _ _ (by decide), fun i hi => ?_⟩
  · rw [Dev.loseMailbox, Dev.raise_svc, Dev.setRegs_svc]
    rfl
  · have hne : Reg.tagSvcMbxData i ≠ EvReg.svc.addr := by
      simp only [Reg.tagSvcMbxData, EvReg.addr, Reg.tagSvcEvents]
      omega
    rw [Dev.loseMailbox, Dev.raise_reg, if_neg hne, Reg.tagSvcMbxData_eq i, Dev.setRegs_at (i := i) (List.replicate 64 0) (by rw [List.length_replicate]; exact hi)]
    exact List.getD_replicate 0 hi

/-! ### Commands and answers -/

/-- A command of the service tag takes the place of an AUTH1 that waits. -/
def Dev.svcAsked (d : Dev) : Dev := d.dropRngWait (· == .svcAuth1)

theorem Dev.svcCmd_of (f : Dev → Dev) (h : d.svc.state ≠ .noField) : d.svcCmd f = f d.svcAsked := if_neg h

theorem Dev.svcCmd_idle (f : Dev → Dev) (h : d.svc.state = .noField) : d.svcCmd f = d := if_pos h

theorem Dev.svcCmd_opened (f : Dev → Dev) (h : d.svc.state = .opened) : d.svcCmd f = f d.svcAsked :=
  Dev.svcCmd_of f (by rw [h]; exact SvcState.noConfusion)

theorem Dev.svcCmd_secured (f : Dev → Dev) (h : d.svc.state = .secured) : d.svcCmd f = f d.svcAsked :=
  Dev.svcCmd_of f (by rw [h]; exact SvcState.noConfusion)

/-- The service tag as a command is answered. -/
def ServiceTag.answered (t : ServiceTag) (now : Tick) (data : List Byte) (sw : BitVec 16) : ServiceTag :=
  { t with resp := data, sw := sw, lastCmd := now, state := if t.state = .field then .opened else t.state }

theorem Dev.svcAnswer_svc (d : Dev) (data : List Byte) (sw : Nat) :
    (d.svcAnswer data sw).svc = d.svc.answered d.now data (BitVec.ofNat 16 sw) := rfl

theorem ServiceTag.answered_opened {t : ServiceTag} (now : Tick) (data : List Byte) (sw : BitVec 16)
    (h : t.state = .field ∨ t.state = .opened) : (t.answered now data sw).state = .opened := by
  obtain h | h := h
  · exact if_pos h
  · exact (if_neg (by rw [h]; exact SvcState.noConfusion)).trans h

theorem ServiceTag.answered_kept {t : ServiceTag} (now : Tick) (data : List Byte) (sw : BitVec 16) (h : t.state ≠ .field) :
    (t.answered now data sw).state = t.state := if_neg h

theorem Dev.svcAnswer_regsBut (d : Dev) (data : List Byte) (sw : Nat) (as : List Nat) : d.RegsBut (d.svcAsked.svcAnswer data sw) as :=
  fun _ _ => rfl

/-- A command answered by a status word alone, without data, changes nothing else of what the field sees. -/
theorem Completes.svcRefuses {c : Instr} {s : State} {f : Dev → Dev} (sw : Nat) (hc : exec c s = s.upd fun d => d.svcCmd f)
    (hstate : s.dev.svc.state = .opened ∨ s.dev.svc.state = .secured) (hf : f s.dev.svcAsked = s.dev.svcAsked.svcAnswer [] sw) :
    Completes c s fun e => e.svc.sw = BitVec.ofNat 16 sw ∧ e.svc.resp = [] ∧ e.svc.state = s.dev.svc.state ∧ s.dev.RegsBut e [] ∧
      e.svc.owner = s.dev.svc.owner ∧ e.svc.fill = s.dev.svc.fill ∧ e.svc.rndB = s.dev.svc.rndB := by
  have hfield : s.dev.svc.state ≠ .noField ∧ s.dev.svc.state ≠ .field := by
    obtain h | h := hstate <;> rw [h] <;> exact ⟨SvcState.noConfusion, SvcState.noConfusion⟩
  refine .of_eq hc ((Dev.svcCmd_of f hfield.1).trans hf) ⟨rfl, rfl, ?_, (s.dev.svcAnswer_regsBut [] sw []).settled, rfl, rfl, rfl⟩
  exact ServiceTag.answered_kept (t := s.dev.svc) _ _ _ hfield.2

/-- The same, of the answer alone. -/
theorem Completes.svcDenies {c : Instr} {s : State} {f : Dev → Dev} (sw : Nat) (hc : exec c s = s.upd fun d => d.svcCmd f)
    (hstate : s.dev.svc.state = .opened ∨ s.dev.svc.state = .secured) (hf : f s.dev.svcAsked = s.dev.svcAsked.svcAnswer [] sw) :
    Completes c s fun e => e.svc.sw = BitVec.ofNat 16 sw ∧ e.svc.resp = [] ∧ e.svc.state = s.dev.svc.state ∧ s.dev.RegsBut e [] :=
  (Completes.svcRefuses sw hc hstate hf).imp fun _ ⟨hsw, hresp, hst, hregs, _⟩ => ⟨hsw, hresp, hst, hregs⟩

/-- A command done in the open state is answered in the clear. -/
theorem Dev.svcDone_opened (data : List Byte) (h : d.svc.state = .opened) : d.svcDone data = d.svcAnswer data 0x9000 :=
  if_neg (by rw [h]; exact SvcState.noConfusion)

/-! ### Authentication -/

/-- The plain text of AUTH2 ends with the challenge. -/
theorem authPlain_iff {plain : Option (List Byte)} {rndB : List Byte} (hlen : rndB.length = 16) :
    plain = some ((plain.getD []).take 16 ++ rndB) ↔ ∃ rndA : List Byte, rndA.length = 16 ∧ plain = some (rndA ++ rndB) := by
  constructor
  · intro h
    refine ⟨_, ?_, h⟩
    cases plain with
    | none => simp at h
    | some p =>
      have hp := congrArg (fun o => (Option.getD o []).length) h
      simp only [Option.getD_some, List.length_append, List.length_take, hlen] at hp ⊢
      omega
  · rintro ⟨rndA, hA, rfl⟩
    rw [Option.getD_some, List.take_left' hA]

theorem Dev.request_svc (d : Dev) (use : CryptoUse) (cls : CryptoClass) (ops : List CryptoOp) (covered : Bool) :
    (d.request use cls ops covered).svc = d.svc := (d.request_keeps use cls ops covered).svc

/-- A request of the tag class works on the pool alone, and where its class is full the pool's event tells. -/
theorem Dev.request_svcEvents (d : Dev) (use : CryptoUse) (cls : CryptoClass) (ops : List CryptoOp) :
    (d.request use cls ops false).reg Reg.tagSvcEvents = d.reg Reg.tagSvcEvents :=
  (d.request_keeps use cls ops false).reg_of (a := Reg.tagSvcEvents) (p := .rTag) rfl

end

end Sys2Proof.Machine
end


section
/-! SUPPORT. The service tag: what the statement asks (R335, R336). -/

namespace Sys2Proof.Machine

set_option Elab.async false

section
variable {d : Dev}

/-- The tag in a field, before any wake cause. -/
def Dev.fieldCome (d : Dev) : Dev :=
  ((d.onSvc fun t => { t with
    state := .field, power := d.power.vaonLost, fails := 0, rndB := none, ks := [], lastCmd := d.now }).count Reg.tagSvcCnt).raise .svc 0

theorem Dev.fieldCome_svc (d : Dev) : d.fieldCome.svc =
    { d.svc with state := .field, power := d.power.vaonLost, fails := 0, rndB := none, ks := [], lastCmd := d.now } := by
  rw [Dev.fieldCome, Dev.raise_svc]
  rfl

theorem Dev.fieldCome_power (d : Dev) : d.fieldCome.power = d.power := by
  rw [Dev.fieldCome, Dev.raise_power]
  rfl

theorem Dev.fieldPresent_of (h : d.svc.state = .noField) :
    d.fieldPresent = if d.bit Reg.pwrWakeCfg 8 then d.fieldCome.wakeCause .serviceField else d.fieldCome :=
  if_neg fun hne => hne h

/-- The tag without a field, before its mailbox. -/
def Dev.fieldGone (d : Dev) : Dev :=
  d.svcAsked.onSvc fun t => { t with state := .noField, power := false, ks := [], rndB := none, txCount := 0, rxCount := 0, fails := 0 }

/-- A summary answered with its data. -/
theorem Completes.svcTells {c : Instr} {s : State} {f : Dev → Dev} (data : List Byte) (hc : exec c s = s.upd fun d => d.svcCmd f)
    (hstate : s.dev.svc.state = .field ∨ s.dev.svc.state = .opened) (hf : f s.dev.svcAsked = s.dev.svcAsked.svcAnswer data 0x9000) :
    Completes c s fun e => e.svc.sw = 0x9000 ∧ e.svc.resp = data ∧ e.svc.state = .opened ∧ e.svc.lastCmd = s.dev.now ∧
      s.dev.RegsBut e [] := by
  have hfield : s.dev.svc.state ≠ .noField := by
    obtain h | h := hstate <;> rw [h] <;> exact SvcState.noConfusion
  exact .of_eq hc ((Dev.svcCmd_of f hfield).trans hf)
    ⟨rfl, rfl, ServiceTag.answered_opened (t := s.dev.svc) _ _ _ hstate, rfl, (s.dev.svcAnswer_regsBut data _ []).settled⟩

theorem not_secured_of {st : SvcState} (h : st = .field ∨ st = .opened) : st ≠ .secured := by
  obtain h | h := h <;> rw [h] <;> exact SvcState.noConfusion

theorem Dev.readSummary_link {p : Nat} {n : LinkId} (hstate : d.svc.state ≠ .secured) (hp : linkOfNat p = some n) :
    d.readSummary p = if d.svcServed then
        d.svcAnswer (bytesBE 8 (d.link n).bill.impMwh ++ bytesBE 8 (d.link n).bill.expMwh ++
          bytesBE 4 (d.reg (Reg.metCalCrc n)).toNat ++ [if d.sessionLive n then 1 else 0]) 0x9000
      else d.svcAnswer [] 0x6985 := by
  have hdev : p ≠ 0xFFFF := by
    rintro rfl
    have hnone : linkOfNat 0xFFFF = none := rfl
    exact absurd (hnone.symm.trans hp) (by simp)
  rw [Dev.readSummary, if_neg hstate, if_neg hdev, hp]

/-- AUTH1 answered with a challenge. -/
theorem Dev.svcChallenge_svc (d : Dev) :
    d.svcChallenge.svc.sw = 0x9000 ∧ d.svcChallenge.svc.rndB = some (Config.randomBytes d.fresh 16) ∧
      (d.svc.state = .opened → d.svcChallenge.svc.state = .opened) := by
  unfold Dev.svcChallenge
  extract_lets rndB d1 nonce
  rw [Dev.request_svc, Dev.svcAnswer_svc]
  exact ⟨rfl, rfl, fun h => ServiceTag.answered_opened _ _ _ (.inr h)⟩

/-- The exchange secured by AUTH2. -/
def Dev.svcSecures (d : Dev) (rndA rndB : List Byte) : Dev :=
  (((d.randomDrawn.svcAnswer (d.random 12 ++ Config.gcm128Seal d.serviceKey (d.random 12) (rndB ++ rndA)) 0x9000).onSvc fun t => { t with
    state := .secured, rndB := none, ks := sessionKs d.serviceKey rndA rndB, txCount := 0, rxCount := 0 }).raise .svc 1).request
      .svcStep .tag [deriveOp, gcmOp 64] false

/-- AUTH2 counted as a failure. -/
def Dev.svcFails (d : Dev) : Dev := ((d.svcAnswer [] 0x6982).onSvc fun t => { t with rndB := none, fails := t.fails + 1 }).raise .svc 2

theorem Dev.svcSecures_shows (d : Dev) (rndA rndB : List Byte) :
    (d.svcSecures rndA rndB).svc.state = .secured ∧ (d.svcSecures rndA rndB).svc.sw = 0x9000 ∧
      (d.svcSecures rndA rndB).svc.txCount = 0 ∧ (d.svcSecures rndA rndB).svc.rxCount = 0 ∧
      (d.svcSecures rndA rndB).bit Reg.tagSvcEvents 1 = true ∧ (d.svcSecures rndA rndB).svc.rndB = none := by
  have hbit : (d.svcSecures rndA rndB).bit Reg.tagSvcEvents 1 = true := by
    rw [Dev.bit, Dev.svcSecures, Dev.request_svcEvents]
    exact Dev.raise_bit _ .svc _ _ (by decide)
  refine ⟨?_, ?_, ?_, ?_, hbit, ?_⟩
  all_goals rw [Dev.svcSecures, Dev.request_svc, Dev.raise_svc]; rfl

theorem Dev.svcFails_shows (hstate : d.svc.state = .opened) :
    d.svcFails.svc.state = .opened ∧ d.svcFails.svc.sw = 0x6982 ∧ d.svcFails.svc.fails = d.svc.fails + 1 ∧
      d.svcFails.bit Reg.tagSvcEvents 2 = true ∧ d.svcFails.svc.rndB = none := by
  refine ⟨?_, ?_, ?_, Dev.raise_bit _ .svc _ _ (by decide), ?_⟩
  · rw [Dev.svcFails, Dev.raise_svc]
    exact ServiceTag.answered_opened (t := d.svc) d.now [] 0x6982 (.inr hstate)
  all_goals rw [Dev.svcFails, Dev.raise_svc]; rfl

theorem Dev.svcAuth2_eq {nonce sealedText rndB : List Byte} (hstate : d.svc.state = .opened) (hrec : d.recording = true)
    (hrnd : d.svc.rndB = some rndB) :
    d.svcAuth2 nonce sealedText =
      if Config.gcm128Open d.serviceKey nonce sealedText =
          some (((Config.gcm128Open d.serviceKey nonce sealedText).getD []).take 16 ++ rndB) then
        d.svcSecures (((Config.gcm128Open d.serviceKey nonce sealedText).getD []).take 16) rndB
      else d.svcFails := by
  have hserved : d.svcServed = true := hrec
  rw [Dev.svcAuth2, if_neg (by rw [hstate]; exact SvcState.noConfusion), if_neg (by simp [hserved]), hrnd]
  rfl

/-- AUTH2 with its challenge answered. -/
theorem Dev.svcAuth2_of {nonce sealedText rndB : List Byte} (hstate : d.svc.state = .opened) (hrec : d.recording = true)
    (hrnd : d.svc.rndB = some rndB) (hlen : rndB.length = 16) :
    ((∃ rndA : List Byte, rndA.length = 16 ∧ Config.gcm128Open d.serviceKey nonce sealedText = some (rndA ++ rndB)) →
        (d.svcAuth2 nonce sealedText).svc.state = .secured ∧ (d.svcAuth2 nonce sealedText).svc.sw = 0x9000 ∧
          (d.svcAuth2 nonce sealedText).svc.txCount = 0 ∧ (d.svcAuth2 nonce sealedText).svc.rxCount = 0 ∧
          (d.svcAuth2 nonce sealedText).bit Reg.tagSvcEvents 1 = true) ∧
      ((¬∃ rndA : List Byte, rndA.length = 16 ∧ Config.gcm128Open d.serviceKey nonce sealedText = some (rndA ++ rndB)) →
        (d.svcAuth2 nonce sealedText).svc.state = .opened ∧ (d.svcAuth2 nonce sealedText).svc.sw = 0x6982 ∧
          (d.svcAuth2 nonce sealedText).svc.fails = d.svc.fails + 1 ∧ (d.svcAuth2 nonce sealedText).bit Reg.tagSvcEvents 2 = true) ∧
      (d.svcAuth2 nonce sealedText).svc.rndB = none := by
  rw [Dev.svcAuth2_eq hstate hrec hrnd, ← authPlain_iff hlen]
  by_cases hplain : Config.gcm128Open d.serviceKey nonce sealedText =
      some (((Config.gcm128Open d.serviceKey nonce sealedText).getD []).take 16 ++ rndB)
  · obtain ⟨hst, hsw, htx, hrx, hbit, hnone⟩ :=
      d.svcSecures_shows (((Config.gcm128Open d.serviceKey nonce sealedText).getD []).take 16) rndB
    rw [if_pos hplain]
    exact ⟨fun _ => ⟨hst, hsw, htx, hrx, hbit⟩, fun hnot => absurd hplain hnot, hnone⟩
  · obtain ⟨hst, hsw, hfails, hbit, hnone⟩ := Dev.svcFails_shows hstate
    rw [if_neg hplain]
    exact ⟨fun h => absurd h hplain, fun _ => ⟨hst, hsw, hfails, hbit⟩, hnone⟩

end

/-- Settles O42: answers by `Completes.svcTells`, refusals by `Completes.svcDenies`, AUTH2 by `Dev.svcAuth2_of`. -/
theorem serviceTagRules : Obligations.ServiceTagRules := by
  unfold Obligations.ServiceTagRules
  refine ⟨?come, ?wakes, ?again, ?goneOwner, ?gone, ?summary, ?linkSummary, ?noLink, ?unserved, ?lastword, ?noLastword, ?auth1, ?auth1Waits,
    ?auth1Denied, ?auth2, ?auth2Denied, ?noEvent, ?event, ?unsealed, ?eventDenied, ?secured, ?timeout, ?timeoutIdle, ?noField⟩
  case come =>
    intro s hstate hcfg
    refine .of_eq (exec_serviceFieldPresent s) ((Dev.fieldPresent_of hstate).trans (if_neg (by simp [hcfg]))) ?_
    have hsvc := s.dev.fieldCome_svc
    have hregs : s.dev.RegsBut s.dev.fieldCome [Reg.tagSvcCnt, Reg.tagSvcEvents] :=
      Dev.RegsBut.raise (r := .svc) (Dev.RegsBut.count (Dev.RegsBut.onSvc .rfl) (by simp)) (by simp [EvReg.addr])
    refine ⟨congrArg ServiceTag.state hsvc, congrArg ServiceTag.fails hsvc, congrArg ServiceTag.lastCmd hsvc, ?_, ?_,
      s.dev.fieldCome_power, hregs.settled⟩
    · rw [Dev.settled_reg, Dev.fieldCome, Dev.raise_reg, if_neg (by decide), Dev.count_reg, if_pos rfl]
      rfl
    · exact Dev.settled_raise_bit _ .svc _ _ (by decide)
  case wakes =>
    intro s hstate hcfg hmode hentering
    have hmode' : s.dev.fieldCome.mode = .dormant := (congrArg Power.mode s.dev.fieldCome_power).trans hmode
    have hentering' : ¬s.dev.fieldCome.power.entering = true := by rw [s.dev.fieldCome_power, hentering]; exact Bool.noConfusion
    refine .of_eq (exec_serviceFieldPresent s) ((Dev.fieldPresent_of hstate).trans ((if_pos hcfg).trans
      ((if_pos hmode').trans (if_neg hentering')))) ⟨congrArg ServiceTag.state s.dev.fieldCome_svc, ?_⟩
    change ({ s.dev.fieldCome.power with waking := s.dev.fieldCome.power.waking.or (some .serviceField) } : Power) = _
    rw [s.dev.fieldCome_power]
  case again =>
    intro s hstate
    exact .idle (exec_serviceFieldPresent s) (if_pos hstate)
  case goneOwner =>
    intro s hstate howner
    obtain ⟨hsvc, hbit, hwords⟩ := s.dev.fieldGone.loseMailbox_shows
    have hexec : s.dev.fieldLost = s.dev.fieldGone.loseMailbox := if_pos ⟨hstate, howner⟩
    generalize s.dev.fieldGone.loseMailbox = e at *
    refine .of_eq (exec_serviceFieldLost s) hexec ⟨?_, ?_, ?_, ?_, ?_, ?_, ?_⟩
    · exact congrArg ServiceTag.state hsvc
    · exact congrArg ServiceTag.ks hsvc
    · exact congrArg ServiceTag.rndB hsvc
    · exact congrArg ServiceTag.owner hsvc
    · exact congrArg ServiceTag.fill hsvc
    · rwa [Dev.settled_bit]
    · rw [Dev.settled_reg]
      exact hwords 0 (by decide)
  case gone =>
    intro s howner
    exact .of_eq (exec_serviceFieldLost s) (if_neg fun h => howner h.2)
      ⟨rfl, rfl, rfl, rfl, rfl, Dev.RegsBut.settled fun _ _ => rfl⟩
  case summary =>
    intro s hstate
    refine (Completes.svcTells _ (exec_svcReadSummary 0xFFFF s) hstate
      ((if_neg (not_secured_of hstate)).trans (if_pos rfl))).imp fun e ⟨hsw, hresp, hopened, hlast, hregs⟩ => ?_
    exact ⟨hsw, hopened, hlast, hresp, hregs⟩
  case linkSummary =>
    intro s n p hstate hp hrec
    refine (Completes.svcTells _ (exec_svcReadSummary p s) (.inr hstate)
      ((Dev.readSummary_link (d := s.dev.svcAsked) (not_secured_of (.inr hstate)) hp).trans (if_pos hrec))).imp fun e ⟨hsw, hresp, _, _, hregs⟩ => ?_
    exact ⟨hsw, hresp, hregs⟩
  case noLink =>
    intro s p hstate hne hp
    refine Completes.svcDenies 0x6A86 (exec_svcReadSummary p s) (.inl hstate) ?_
    have hdev : ¬p.toNat = 0xFFFF := fun h => hne (BitVec.eq_of_toNat_eq h)
    have hstate' : s.dev.svcAsked.svc.state = .opened := hstate
    rw [Dev.readSummary, if_neg (not_secured_of (.inr hstate')), if_neg hdev, hp]
  case unserved =>
    intro s n p hstate hp hrec
    exact Completes.svcDenies 0x6985 (exec_svcReadSummary p s) (.inl hstate)
      ((Dev.readSummary_link (d := s.dev.svcAsked) (not_secured_of (.inr hstate)) hp).trans
        (if_neg fun h => Bool.noConfusion (hrec.symm.trans h)))
  case lastword =>
    intro s i hstate hi
    refine (Completes.svcTells _ (exec_svcReadLastword i s) hstate
      ((if_neg (not_secured_of hstate)).trans (if_neg (Nat.not_lt.mpr hi)))).imp fun e ⟨hsw, hresp, hopened, _, hregs⟩ => ?_
    exact ⟨hsw, hresp, hopened, hregs⟩
  case noLastword =>
    intro s i hstate hi
    exact Completes.svcDenies 0x6A86 (exec_svcReadLastword i s) (.inl hstate)
      ((if_neg (not_secured_of (.inr hstate))).trans (if_pos hi))
  case auth1 =>
    intro s hstate hrec hfails hseed hrng
    have hexec : s.dev.svcCmd Dev.svcAuth1 = s.dev.svcAsked.svcChallenge := by
      refine (Dev.svcCmd_opened _ hstate).trans ((if_neg (not_secured_of (.inr hstate))).trans ((if_neg ?_).trans (if_pos hrng)))
      rintro (h | h | h | h)
      · have hrec' : s.dev.svcAsked.svcServed = true := hrec
        simp [hrec'] at h
      · exact absurd hfails (Nat.not_lt.mpr h)
      · have hseed' : (s.dev.svcAsked.tenants.get 0).root.seedOn = true := hseed
        simp [hseed'] at h
      · exact RngState.noConfusion (hrng.symm.trans h)
    obtain ⟨hsw, hrnd, hopened⟩ := s.dev.svcAsked.svcChallenge_svc
    have hopen := hopened hstate
    generalize s.dev.svcAsked.svcChallenge = e at *
    exact .of_eq (exec_svcAuth1 s) hexec ⟨hsw, hrnd, hopen⟩
  case auth1Waits =>
    intro s hstate hrec hfails hseed hrng
    have hnot : s.dev.sec.rng ≠ .failed ∧ s.dev.sec.rng ≠ .healthy := by
      obtain h | h := hrng <;> rw [h] <;> exact ⟨RngState.noConfusion, RngState.noConfusion⟩
    have hexec : s.dev.svcCmd Dev.svcAuth1 = s.dev.svcAsked.holdForRng .svcAuth1 := by
      refine (Dev.svcCmd_opened _ hstate).trans ((if_neg (not_secured_of (.inr hstate))).trans ((if_neg ?_).trans (if_neg hnot.2)))
      rintro (h | h | h | h)
      · have hrec' : s.dev.svcAsked.svcServed = true := hrec
        simp [hrec'] at h
      · exact absurd hfails (Nat.not_lt.mpr h)
      · have hseed' : (s.dev.svcAsked.tenants.get 0).root.seedOn = true := hseed
        simp [hseed'] at h
      · exact hnot.1 h
    refine .of_eq (exec_svcAuth1 s) hexec ⟨?_, rfl, (Dev.Keeps.onSec (s.dev.dropRngWait_keeps _)).settled⟩
    change (s.dev.svcAsked.sec.rngWaits ++ [RngWait.svcAuth1]).contains RngWait.svcAuth1 = true
    simp
  case auth1Denied =>
    intro s hstate hwhy
    refine (Completes.svcRefuses 0x6985 (exec_svcAuth1 s) (.inl hstate) ?_).imp
      fun e ⟨hsw, hresp, hst, hregs, _, _, hrnd⟩ => ⟨hsw, hresp, hst, hregs, hrnd⟩
    refine (if_neg (not_secured_of (.inr hstate))).trans (if_pos ?_)
    obtain h | h | h | h := hwhy
    · exact .inr (.inl h)
    · have h' : (s.dev.svcAsked.tenants.get 0).root.seedOn = false := h
      exact .inr (.inr (.inl (by simp [h'])))
    · exact .inr (.inr (.inr h))
    · have h' : s.dev.svcAsked.svcServed = false := h
      exact .inl (by simp [h'])
  case auth2 =>
    intro s nonce sealedText rndB hstate hrec hrnd hlen
    have hshows := Dev.svcAuth2_of (d := s.dev.svcAsked) (nonce := nonce) (sealedText := sealedText) hstate hrec hrnd hlen
    have hexec := Dev.svcCmd_opened (fun d => d.svcAuth2 nonce sealedText) hstate
    generalize s.dev.svcAsked.svcAuth2 nonce sealedText = e at *
    refine .of_eq (exec_svcAuth2 nonce sealedText s) hexec ?_
    rw [Dev.settled_bit, Dev.settled_bit]
    exact hshows
  case auth2Denied =>
    intro s nonce sealedText hstate hwhy
    refine Completes.svcDenies 0x6985 (exec_svcAuth2 nonce sealedText s) (.inl hstate) ?_
    have hstate' : s.dev.svcAsked.svc.state = .opened := hstate
    rw [Dev.svcAuth2, if_neg (not_secured_of (.inr hstate'))]
    by_cases hrec : s.dev.svcAsked.svcServed = true
    · have hnone : s.dev.svcAsked.svc.rndB = none := hwhy.resolve_right fun h => Bool.noConfusion (h.symm.trans hrec)
      rw [if_neg (by simp [hrec]), hnone]
    · exact if_pos (by simpa using hrec)
  case noEvent =>
    intro s q hstate hnone
    refine Completes.svcDenies 0x6A86 (exec_svcReadEvent q true s) (.inr hstate) ?_
    have hnone' : (s.dev.svcAsked.recorder.ring.find? fun x => x.entry.seq == q.toNat) = none := hnone
    rw [Dev.svcReadEvent, if_neg fun h => h hstate, if_neg (by simp), hnone']
  case event =>
    intro s q hstate hany
    have hfound : (s.dev.svcAsked.recorder.ring.find? fun x => x.entry.seq == q.toNat).isSome = true := by
      rw [List.find?_isSome]
      exact List.any_eq_true.mp hany
    obtain ⟨x, hx⟩ := Option.isSome_iff_exists.mp hfound
    have hexec : (s.dev.svcCmd fun d => d.svcReadEvent q.toNat true) = s.dev.svcAsked.svcSealed x.entry.bytes := by
      rw [Dev.svcCmd_secured _ hstate, Dev.svcReadEvent, if_neg fun h => h hstate, if_neg (by simp), hx]
    refine .of_eq (exec_svcReadEvent q true s) hexec ⟨rfl, ?_, rfl, rfl, Dev.RegsBut.settled fun _ _ => rfl⟩
    exact (ServiceTag.answered_kept (t := s.dev.svc) s.dev.now [] 0x9000 (by rw [hstate]; exact SvcState.noConfusion)).trans hstate
  case unsealed =>
    intro s q hstate
    have hexec : (s.dev.svcCmd fun d => d.svcReadEvent q.toNat false) = s.dev.svcAsked.svcUnsealed := by
      rw [Dev.svcCmd_secured _ hstate, Dev.svcReadEvent, if_neg fun h => h hstate, if_pos (by simp)]
    have hopened : s.dev.svc.unsecured.state = .opened := if_pos hstate
    refine .of_eq (exec_svcReadEvent q false s) hexec ⟨rfl, rfl, ?_, rfl, Dev.RegsBut.settled fun _ _ => rfl⟩
    exact ServiceTag.answered_opened (t := s.dev.svc.unsecured) s.dev.now [] 0x6982 (.inr hopened)
  case eventDenied =>
    intro s q ok hstate
    exact Completes.svcDenies 0x6982 (exec_svcReadEvent q ok s) (.inl hstate) (if_pos (not_secured_of (.inr hstate)))
  case secured =>
    intro s p i a b c hstate hc
    simp only [List.mem_cons, List.not_mem_nil, or_false] at hc
    obtain rfl | rfl | rfl | rfl := hc
    · exact Completes.svcDenies 0x6982 (exec_svcReadSummary p s) (.inr hstate) (if_pos hstate)
    · exact Completes.svcDenies 0x6982 (exec_svcReadLastword i s) (.inr hstate) (if_pos hstate)
    · exact Completes.svcDenies 0x6982 (exec_svcAuth1 s) (.inr hstate) (if_pos hstate)
    · exact Completes.svcDenies 0x6982 (exec_svcAuth2 a b s) (.inr hstate) (if_pos hstate)
  case timeout =>
    intro s hstate hlate
    exact .of_eq (exec_svcSecureTimeout s) (if_pos ⟨hstate, hlate⟩)
      ⟨if_pos hstate, rfl, rfl, rfl, (s.dev.onSvc_keeps _).settled⟩
  case timeoutIdle =>
    intro s hnot
    refine .idle (exec_svcSecureTimeout s) (if_neg ?_)
    rintro ⟨hstate, hlate⟩
    obtain h | h := hnot
    · exact h hstate
    · exact absurd hlate (Nat.not_le.mpr h)
  case noField =>
    intro s p i j a b q ok c hstate hc
    simp only [List.mem_cons, List.not_mem_nil, or_false] at hc
    obtain rfl | rfl | rfl | rfl | rfl | rfl | rfl | rfl | rfl | rfl | rfl := hc
    · exact .idle (exec_svcReadSummary p s) (Dev.svcCmd_idle _ hstate)
    · exact .idle (exec_svcReadLastword i s) (Dev.svcCmd_idle _ hstate)
    · exact .idle (exec_svcAuth1 s) (Dev.svcCmd_idle _ hstate)
    · exact .idle (exec_svcAuth2 a b s) (Dev.svcCmd_idle _ hstate)
    · exact .idle (exec_svcReadEvent q ok s) (Dev.svcCmd_idle _ hstate)
    · exact .idle (exec_svcMbxAcquire s) (Dev.svcCmd_idle _ hstate)
    · exact .idle (exec_svcMbxWrite i a ok s) (Dev.svcCmd_idle _ hstate)
    · exact .idle (exec_svcMbxRead i j s) (Dev.svcCmd_idle _ hstate)
    · exact .idle (exec_svcMbxPost i s) (Dev.svcCmd_idle _ hstate)
    · exact .idle (exec_svcMbxRelease s) (Dev.svcCmd_idle _ hstate)
    · exact .idle (exec_svcMbxCancel s) (Dev.svcCmd_idle _ hstate)

end Sys2Proof.Machine
end


section
/-! SUPPORT. The mailbox of the service tag and the tenant lock: what the statement asks (R337, R339). -/

namespace Sys2Proof.Machine

set_option Elab.async false

section
variable {d : Dev}

/-- The mailbox in the field's hands. -/
def Dev.mbxTaken (d : Dev) : Dev := d.onSvc fun t => { t with owner := .field, acqAt := some d.now, wrote := none }

/-- A message handed to the wire. -/
def Dev.mbxPosted (d : Dev) (p2 : Nat) : Dev :=
  (d.onSvc fun t => { t with owner := .none, fill := .forWire, len := 2 * p2, secured := t.wrote == some true, acqAt := none }).raise
    .svc 3

theorem Dev.mbxPosted_svc (d : Dev) (p2 : Nat) : (d.mbxPosted p2).svc =
    { d.svc with owner := .none, fill := .forWire, len := 2 * p2, secured := d.svc.wrote == some true, acqAt := none } := by
  rw [Dev.mbxPosted, Dev.raise_svc]
  rfl

theorem Dev.fieldPost_of {p2 : Nat} (hstate : d.svc.state = .opened) (howner : d.svc.owner = .field) (hlo : 1 ≤ p2) (hhi : p2 ≤ 128) :
    d.fieldPost p2 = (d.mbxPosted p2).svcAnswer [] 0x9000 := by
  rw [Dev.fieldPost, if_neg fun h => h howner, if_neg (by omega)]
  exact Dev.svcDone_opened [] ((congrArg ServiceTag.state (d.mbxPosted_svc p2)).trans hstate)

theorem Dev.not_acquirable (hnot : d.svc.owner = .field ∨ d.svc.fill ≠ .empty ∨
      (d.svc.owner = .wire ∧ (d.svc.acqAt.map fun t => decide (d.now ≤ t + 30)) ≠ some true)) :
    ¬(d.svc.owner = .none ∧ d.svc.fill = .empty) ∧ ¬(d.wireJustAcquired = true ∧ d.svc.fill = .empty) := by
  obtain h | h | ⟨h, hlate⟩ := hnot
  · refine ⟨fun hn => MbxOwner.noConfusion (h.symm.trans hn.1), fun hn => ?_⟩
    rw [Dev.wireJustAcquired, h] at hn
    exact Bool.noConfusion hn.1
  · exact ⟨fun hn => h hn.2, fun hn => h hn.2⟩
  · refine ⟨fun hn => MbxOwner.noConfusion (h.symm.trans hn.1), fun hn => hlate ?_⟩
    rw [Dev.wireJustAcquired, Bool.and_eq_true] at hn
    revert hn
    cases d.svc.acqAt with
    | none => exact fun hn => Bool.noConfusion hn.1.2
    | some t => exact fun hn => congrArg some hn.1.2

theorem Dev.mbxWrite_of {off : Nat} {data : List Byte} (ok : Bool) (hstate : d.svc.state = .opened) (howner : d.svc.owner = .field)
    (hfit : off + data.length ≤ 256) (hlen : data.length ≤ 128) :
    d.mbxWrite off data ok = ((d.setMbx (patch d.mbxBytes off data)).onSvc fun t => { t with
      wrote := some (t.wrote.getD true && t.state == .secured) }).svcAnswer [] 0x9000 := by
  rw [Dev.mbxWrite, if_neg (by rw [hstate]; exact fun h => SvcState.noConfusion h.1), if_neg fun h => h howner, if_neg (by omega)]
  refine Dev.svcDone_opened [] ?_
  change ((d.setMbx (patch d.mbxBytes off data)).svc).state = .opened
  rw [Dev.setMbx, Dev.setRegs_svc, hstate]

theorem Dev.mbxWrite_open {off : Nat} {data : List Byte} (ok : Bool) (hstate : d.svc.state = .opened) :
    d.mbxWrite off data ok = if d.svc.owner ≠ .field then d.svcAnswer [] 0x6985
      else if 256 < off + data.length ∨ 128 < data.length then d.svcAnswer [] 0x6A86
      else ((d.setMbx (patch d.mbxBytes off data)).onSvc fun t => { t with
        wrote := some (t.wrote.getD true && t.state == .secured) }).svcDone [] :=
  if_neg (by rw [hstate]; exact fun h => SvcState.noConfusion h.1)

end

/-- A command of the field that empties the mailbox. -/
theorem Completes.mbxEmpties {c : Instr} {s : State} {f : Dev → Dev} (hc : exec c s = s.upd fun d => d.svcCmd f)
    (hstate : s.dev.svc.state = .opened) (hf : f s.dev.svcAsked = (s.dev.svcAsked.onSvc ServiceTag.emptied).svcDone []) :
    Completes c s fun e => e.svc.fill = .empty ∧ e.svc.len = 0 ∧ e.svc.sw = 0x9000 ∧ s.dev.RegsBut e [] := by
  have hexec : s.dev.svcCmd f = (s.dev.svcAsked.onSvc ServiceTag.emptied).svcAnswer [] 0x9000 :=
    (Dev.svcCmd_opened f hstate).trans (hf.trans (Dev.svcDone_opened [] hstate))
  exact .of_eq hc hexec ⟨rfl, rfl, rfl, Dev.RegsBut.settled fun _ _ => rfl⟩

/-- What a message handed to the wire shows. -/
theorem Dev.mbxPosted_shows (d : Dev) (p2 : Nat) :
    (d.mbxPosted p2).bit Reg.tagSvcEvents 3 = true ∧ d.RegsBut (d.mbxPosted p2) [Reg.tagSvcEvents] :=
  ⟨Dev.raise_bit _ .svc _ _ (by decide), Dev.RegsBut.raise (r := .svc) (fun _ _ => rfl) (by simp [EvReg.addr])⟩

/-- Settles O43: the field's commands by their answers, the wire's by the part of the tag they write, the lock by the list it extends. -/
theorem mailboxRules : Obligations.MailboxRules := by
  unfold Obligations.MailboxRules
  refine ⟨?acquire, ?collide, ?notAcquired, ?write, ?notOwner, ?noRoom, ?unsealed, ?read, ?noRead, ?post, ?noPost, ?notPoster, ?release,
    ?noRelease, ?cancel, ?noCancel, ?wireAcquire, ?wireCollides, ?wirePost, ?wireRelease, ?wireCancel, ?wireWrite, ?wireIdle, ?wireBarred,
    ?lost, ?notLost, ?lock, ?notLocked⟩
  case acquire =>
    intro s hstate howner hfill
    have hexec : s.dev.svcCmd Dev.fieldAcquire = s.dev.svcAsked.mbxTaken.svcAnswer [] 0x9000 :=
      (Dev.svcCmd_opened _ hstate).trans ((if_pos ⟨howner, hfill⟩).trans (Dev.svcDone_opened [] hstate))
    exact .of_eq (exec_svcMbxAcquire s) hexec ⟨rfl, rfl, rfl, rfl, Dev.RegsBut.settled fun _ _ => rfl⟩
  case collide =>
    intro s t hstate howner hfill hat hsoon
    have hjust : s.dev.svcAsked.wireJustAcquired = true := by
      have h1 : s.dev.svcAsked.svc.owner = .wire := howner
      have h2 : s.dev.svcAsked.svc.acqAt = some t := hat
      rw [Dev.wireJustAcquired, h1, h2]
      exact decide_eq_true hsoon
    have hexec : s.dev.svcCmd Dev.fieldAcquire = (s.dev.svcAsked.mbxTaken.svcAnswer [] 0x9000).raise .svc 4 := by
      refine (Dev.svcCmd_opened _ hstate).trans ((if_neg ?_).trans ((if_pos ⟨hjust, hfill⟩).trans ?_))
      · exact fun h => MbxOwner.noConfusion (howner.symm.trans h.1)
      · exact congrArg (Dev.raise · .svc 4) (Dev.svcDone_opened [] hstate)
    have hregs : s.dev.RegsBut (s.dev.svcAsked.mbxTaken.svcAnswer [] 0x9000) [Reg.tagSvcEvents] := fun _ _ => rfl
    refine .of_eq (exec_svcMbxAcquire s) hexec ?_
    rw [show ∀ e : Dev, e.settled.svc = e.svc from fun _ => rfl, Dev.raise_svc]
    exact ⟨rfl, rfl, rfl, Dev.settled_raise_bit _ .svc _ _ (by decide), (hregs.raise (r := .svc) (by simp [EvReg.addr])).settled⟩
  case notAcquired =>
    intro s hstate hnot
    obtain ⟨h1, h2⟩ := Dev.not_acquirable (d := s.dev.svcAsked) hnot
    exact (Completes.svcRefuses 0x6985 (exec_svcMbxAcquire s) (.inl hstate) ((if_neg h1).trans (if_neg h2))).imp
      fun e ⟨hsw, hresp, hst, hregs, howner, _, _⟩ => ⟨hsw, hresp, hst, hregs, howner⟩
  case write =>
    intro s p data ok hstate howner hfit hlen
    have hexec := (Dev.svcCmd_opened (fun d => d.mbxWrite (4 * p.toNat) data ok) hstate).trans
      (Dev.mbxWrite_of (d := s.dev.svcAsked) ok hstate howner hfit hlen)
    refine .of_eq (exec_svcMbxWrite p data ok s) hexec ⟨rfl, fun i hi => ?_⟩
    rw [Dev.settled_reg]
    exact Dev.setMbx_at (d := s.dev.svcAsked) _ hi
  case notOwner =>
    intro s p data hstate howner
    exact Completes.svcDenies 0x6985 (exec_svcMbxWrite p data true s) (.inl hstate)
      ((Dev.mbxWrite_open (d := s.dev.svcAsked) true hstate).trans (if_pos howner))
  case noRoom =>
    intro s p data hstate howner hlong
    exact Completes.svcDenies 0x6A86 (exec_svcMbxWrite p data true s) (.inl hstate)
      ((Dev.mbxWrite_open (d := s.dev.svcAsked) true hstate).trans ((if_neg fun h => h howner).trans (if_pos hlong)))
  case unsealed =>
    intro s p data hstate
    have hexec : (s.dev.svcCmd fun d => d.mbxWrite (4 * p.toNat) data false) = s.dev.svcAsked.svcUnsealed :=
      (Dev.svcCmd_secured _ hstate).trans (if_pos ⟨hstate, rfl⟩)
    have hopened : s.dev.svc.unsecured.state = .opened := if_pos hstate
    refine .of_eq (exec_svcMbxWrite p data false s) hexec ⟨rfl, ?_, rfl, Dev.RegsBut.settled fun _ _ => rfl⟩
    exact ServiceTag.answered_opened (t := s.dev.svc.unsecured) s.dev.now [] 0x6982 (.inr hopened)
  case read =>
    intro s p le hstate hfit hlen
    have hexec : (s.dev.svcCmd fun d => d.mbxRead (4 * p.toNat) le.toNat) =
        s.dev.svcAsked.svcAnswer (slice s.dev.mbxBytes (4 * p.toNat) le.toNat) 0x9000 :=
      (Dev.svcCmd_opened _ hstate).trans ((if_neg (by omega)).trans (Dev.svcDone_opened _ hstate))
    exact .of_eq (exec_svcMbxRead p le s) hexec ⟨rfl, rfl, (s.dev.svcAnswer_regsBut _ _ []).settled⟩
  case noRead =>
    intro s p le hstate hlong
    exact Completes.svcDenies 0x6A86 (exec_svcMbxRead p le s) (.inl hstate) (if_pos hlong)
  case post =>
    intro s p hstate howner hlo hhi
    have hexec := (Dev.svcCmd_opened (fun d => d.fieldPost p.toNat) hstate).trans
      (Dev.fieldPost_of (d := s.dev.svcAsked) hstate howner hlo hhi)
    have hsvc := s.dev.svcAsked.mbxPosted_svc p.toNat
    obtain ⟨hbit, hregs⟩ := s.dev.svcAsked.mbxPosted_shows p.toNat
    generalize s.dev.svcAsked.mbxPosted p.toNat = e at *
    refine .of_eq (exec_svcMbxPost p s) hexec ⟨?_, ?_, ?_, rfl, ?_, ?_⟩
    · exact congrArg ServiceTag.owner hsvc
    · exact congrArg ServiceTag.fill hsvc
    · exact congrArg ServiceTag.len hsvc
    · rw [Dev.settled_bit]
      exact hbit
    · exact Dev.RegsBut.settled fun a ha => hregs a ha
  case noPost =>
    intro s p hstate howner hlen
    refine (Completes.svcRefuses 0x6A86 (exec_svcMbxPost p s) (.inl hstate) ((if_neg fun h => h howner).trans (if_pos hlen))).imp
      fun e ⟨hsw, hresp, hst, hregs, hown, _, _⟩ => ⟨hsw, hresp, hst, hregs, hown.trans howner⟩
  case notPoster =>
    intro s p hstate howner
    exact Completes.svcDenies 0x6985 (exec_svcMbxPost p s) (.inl hstate) (if_pos howner)
  case release =>
    intro s hstate hfill
    exact Completes.mbxEmpties (exec_svcMbxRelease s) hstate (if_pos hfill)
  case noRelease =>
    intro s hstate hfill
    exact (Completes.svcRefuses 0x6985 (exec_svcMbxRelease s) (.inl hstate) (if_neg hfill)).imp
      fun e ⟨hsw, hresp, hst, hregs, _, hf, _⟩ => ⟨hsw, hresp, hst, hregs, hf⟩
  case cancel =>
    intro s hstate hfill
    exact Completes.mbxEmpties (exec_svcMbxCancel s) hstate (if_pos hfill)
  case noCancel =>
    intro s hstate hfill
    exact (Completes.svcRefuses 0x6985 (exec_svcMbxCancel s) (.inl hstate) (if_neg hfill)).imp
      fun e ⟨hsw, hresp, hst, hregs, _, hf, _⟩ => ⟨hsw, hresp, hst, hregs, hf⟩
  case wireAcquire =>
    intro s hrec howner hfill
    exact .of_eq (exec_wireMbxAcquire s) (if_pos ⟨hrec, howner, hfill⟩) ⟨rfl, (s.dev.onSvc_keeps _).settled⟩
  case wireCollides =>
    intro s t hrec howner hfill hat hsoon
    have hjust : ((s.dev.svc.acqAt.map fun t => decide (s.dev.now ≤ t + 30)).getD false) = true := by
      rw [hat]
      exact decide_eq_true hsoon
    refine .of_eq (exec_wireMbxAcquire s) ((if_neg fun h => MbxOwner.noConfusion (howner.symm.trans h.2.1)).trans
      (if_pos ⟨hrec, howner, hfill, hjust⟩)) ⟨s.dev.raise_svc _ _ _ _, Dev.settled_raise_bit _ .svc _ _ (by decide), ?_⟩
    exact (Dev.RegsBut.rfl.raise (r := .svc) (by simp [EvReg.addr])).settled
  case wirePost =>
    intro s l hrec howner hlo hhi
    exact .of_eq (exec_wireMbxPost l s) (if_pos ⟨hrec, howner, hlo, hhi⟩) ⟨rfl, (s.dev.onSvc_keeps _).settled⟩
  case wireRelease =>
    intro s hrec hfill
    exact .of_eq (exec_wireMbxRelease s) (if_pos ⟨hrec, hfill⟩) ⟨rfl, (s.dev.onSvc_keeps _).settled⟩
  case wireCancel =>
    intro s hrec hfill
    exact .of_eq (exec_wireMbxCancel s) (if_pos ⟨hrec, hfill⟩) ⟨rfl, (s.dev.onSvc_keeps _).settled⟩
  case wireWrite =>
    intro s i w hrec howner
    refine .of_eq (exec_wireMbxDataWrite i w s) (if_pos ⟨hrec, howner⟩) ⟨?_, rfl, (Dev.RegsBut.rfl.setReg (by simp)).settled⟩
    rw [Dev.settled_reg, Dev.setReg_reg, if_pos rfl]
  case wireIdle =>
    intro s i w l c hnot hc
    simp only [List.mem_cons, List.not_mem_nil, or_false] at hc
    have hoff : s.dev.recording = false → ¬s.dev.wireOn = true := fun h hon => Bool.noConfusion (h.symm.trans hon)
    obtain hrec | ⟨howner, hwire, hfield, hacquire⟩ := hnot
    · obtain rfl | rfl | rfl | rfl | rfl := hc
      · exact .idle (exec_wireMbxAcquire s) ((if_neg fun h => hoff hrec h.1).trans (if_neg fun h => hoff hrec h.1))
      · exact .idle (exec_wireMbxPost l s) (if_neg fun h => hoff hrec h.1)
      · exact .idle (exec_wireMbxRelease s) (if_neg fun h => hoff hrec h.1)
      · exact .idle (exec_wireMbxCancel s) (if_neg fun h => hoff hrec h.1)
      · exact .idle (exec_wireMbxDataWrite i w s) (if_neg fun h => hoff hrec h.1)
    · obtain rfl | rfl | rfl | rfl | rfl := hc
      · exact absurd rfl hacquire
      · exact .idle (exec_wireMbxPost l s) (if_neg fun h => MbxOwner.noConfusion (howner.symm.trans h.2.1))
      · exact .idle (exec_wireMbxRelease s) (if_neg fun h => hwire h.2)
      · exact .idle (exec_wireMbxCancel s) (if_neg fun h => hfield h.2)
      · exact .idle (exec_wireMbxDataWrite i w s) (if_neg fun h => MbxOwner.noConfusion (howner.symm.trans h.2))
  case wireBarred =>
    intro s i w howner
    exact .idle (exec_wireMbxDataWrite i w s) (if_neg fun h => howner h.2)
  case lost =>
    intro s t howner hat hlate
    obtain ⟨hsvc, hbit, hwords⟩ := s.dev.loseMailbox_shows
    have hexec : s.dev.wireTimeout = s.dev.loseMailbox := if_pos ⟨howner, by rw [hat]; exact decide_eq_true hlate⟩
    generalize s.dev.loseMailbox = e at *
    refine .of_eq (exec_wireMbxTimeout s) hexec ⟨congrArg ServiceTag.owner hsvc, congrArg ServiceTag.fill hsvc, ?_, fun i hi => ?_⟩
    · rwa [Dev.settled_bit]
    · rw [Dev.settled_reg]
      exact hwords i hi
  case notLost =>
    intro s hnot
    refine .idle (exec_wireMbxTimeout s) (if_neg ?_)
    rintro ⟨howner, hheld⟩
    obtain h | h := hnot
    · exact h howner
    · revert hheld h
      cases s.dev.svc.acqAt with
      | none => exact fun hheld => Bool.noConfusion hheld
      | some t => exact fun hheld h => h (congrArg some hheld)
  case lock =>
    intro s t u hrec hu hnew
    refine .of_eq (exec_hostTenantLock t s) (e := { s.dev with locked := s.dev.locked ++ [u] }) ((if_pos hrec).trans ?_) ⟨rfl, ?_⟩
    · rw [Dev.lockTenant, hu]
      exact if_neg (by simpa using hnew)
    · have hkeeps := s.dev.lockTenant_keeps t.toNat
      rw [Dev.lockTenant, hu] at hkeeps
      dsimp only at hkeeps
      rw [if_neg (by simpa using hnew)] at hkeeps
      exact hkeeps.settled
  case notLocked =>
    intro s t hnot
    refine .idle (exec_hostTenantLock t s) ?_
    obtain h | h := hnot
    · exact if_neg (by simp [h])
    · refine ite_eq_right_iff.mpr fun _ => ?_
      rw [Dev.lockTenant]
      cases hu : tenantOfNat t.toNat with
      | none => rfl
      | some u =>
        refine if_pos ?_
        by_contra hnew
        refine h ?_
        rw [hu]
        exact congrArg some (decide_eq_false (by simpa using hnew))

end Sys2Proof.Machine
end


section
/-! SUPPORT. The commands of SEC_CMD and submissions: what the statement asks (R350 to R374). -/

namespace Sys2Proof.Machine

set_option Elab.async false

section
variable {d : Dev} {u : CryptoUse} {cls : CryptoClass} {ops : List CryptoOp} {covered : Bool} {rank : Nat}

/-! ### A request to the pool -/

/-- A request joins what waits, and where its result is due, what is due. -/
theorem Dev.request_sec : ∃ queue outside dues, (d.request u cls ops covered rank).sec =
    { d.sec with queue := queue, outside := outside, dues := dues } := by
  unfold Dev.request
  extract_lets r d1
  have h1 : ∃ dues, d1.sec = { d.sec with dues := dues } := by
    unfold d1
    split_ifs
    · exact ⟨_, rfl⟩
    · exact ⟨_, rfl⟩
  clear_value d1
  obtain ⟨dues, h1⟩ := h1
  split_ifs
  · exact ⟨_, _, _, by rw [Dev.onSec, h1]⟩
  · rw [Dev.raise_sec]
    exact ⟨_, _, _, by rw [Dev.onSec, h1]⟩

theorem Dev.request_working (d : Dev) (u : CryptoUse) (cls : CryptoClass) (ops : List CryptoOp) (covered : Bool) (rank : Nat) :
    (d.request u cls ops covered rank).sec.working u = true := by
  unfold Dev.request
  extract_lets r d1
  have hr : (decide (r.use = u) && !r.cancelled) = true := by
    rw [decide_eq_true (show r.use = u from rfl)]
    rfl
  clear_value d1 r
  split_ifs
  · simp [Security.working, Dev.onSec, hr]
  · rw [Dev.raise_sec]
    simp [Security.working, Dev.onSec, hr]

theorem Dev.request_due (d : Dev) (u : CryptoUse) (cls : CryptoClass) (ops : List CryptoOp) (rank : Nat) :
    ((d.request u cls ops true rank).sec.dues.any fun x => decide (x.use = u)) = true := by
  unfold Dev.request
  extract_lets r d1
  have h1 : (d1.sec.dues.any fun x => decide (x.use = u)) = true := by
    change ((d.sec.dues ++ [_]).any _) = true
    rw [List.any_append, List.any_cons, decide_eq_true rfl, Bool.true_or, Bool.or_true]
  clear_value d1 r
  split_ifs
  · exact h1
  · rw [Dev.raise_sec]
    exact h1

theorem Dev.request_regsBut : d.RegsBut (d.request u cls ops covered rank) [Reg.secEvents] := by
  unfold Dev.request
  extract_lets r d1
  have h1 : d.RegsBut d1 [Reg.secEvents] := by
    unfold d1
    split_ifs
    · exact fun _ _ => rfl
    · exact .rfl
  clear_value d1
  split_ifs
  · exact h1.onSec
  · exact Dev.RegsBut.raise (r := .sec) h1.onSec (by simp [EvReg.addr])

/-! ### Commands -/

/-- SEC_CMD as a command begins. -/
def Security.begun (s : Security) (code : Nat) : Security := { s with cmd := code, cmdBusy := true, cmdResult := 0 }

theorem Dev.enrol_asks (vendor : Bool) (hbusy : d.sec.cmdBusy = false) (hcfg : vendor = true ∨ d.bit Reg.secCfg 0 = true)
    (hrng : d.sec.rng ≠ .failed) :
    d.enrol vendor = (d.onSec fun s => { s with
      cmd := if vendor then 2 else 1, cmdBusy := true, cmdResult := 0, cmdWaits := s.rng != .healthy }).request .enrol .legal
        [ecdhOp, ecdhOp, deriveOp, gcmOp 48, signOp, signOp] false := by
  refine (if_neg (by simp [hbusy])).trans ((if_neg ?_).trans (if_neg hrng))
  rintro ⟨h1, h2⟩
  obtain h | h := hcfg
  · simp [h] at h1
  · simp [h] at h2

theorem Dev.enrol_fails (vendor : Bool) (hbusy : d.sec.cmdBusy = false) (hcfg : vendor = true ∨ d.bit Reg.secCfg 0 = true)
    (hrng : d.sec.rng = .failed) : d.enrol vendor = (d.onSec fun s => { s with cmd := if vendor then 2 else 1 }).cmdDone 12 := by
  refine (if_neg (by simp [hbusy])).trans ((if_neg ?_).trans (if_pos hrng))
  rintro ⟨h1, h2⟩
  obtain h | h := hcfg
  · simp [h] at h1
  · simp [h] at h2

/-- SEC_CMD written with a code. -/
theorem Dev.written_secCfg (d : Dev) (w : Word) : (d.setReg Reg.secCmd w).bit Reg.secCfg 0 = d.bit Reg.secCfg 0 := by
  rw [Dev.bit, Dev.setReg_reg, if_neg (by decide), Dev.bit]

/-- A command that works in the pool shows its number, and SEC_CMD what was written. -/
theorem Completes.secWorks {c : Instr} {s : State} {f : Dev → Dev} {w : Word} {e : Dev} {P : Security → Prop} (hc : exec c s = s.upd f)
    (hf : f s.dev = e.request u cls ops covered rank) (hw : e.reg Reg.secCmd = w)
    (hP : ∀ queue outside dues, P { e.sec with queue := queue, outside := outside, dues := dues }) :
    Completes c s fun x => P x.sec ∧ x.sec.working u = true ∧ x.reg Reg.secCmd = w := by
  have hwork := e.request_working u cls ops covered rank
  obtain ⟨queue, outside, dues, hsec⟩ := Dev.request_sec (d := e) (u := u) (cls := cls) (ops := ops) (covered := covered) (rank := rank)
  have hreg := Dev.request_regsBut (d := e) (u := u) (cls := cls) (ops := ops) (covered := covered) (rank := rank) Reg.secCmd (by decide)
  generalize e.request u cls ops covered rank = e' at *
  refine .of_eq hc hf ?_
  rw [Dev.settled_reg, Dev.settled_sec, hsec]
  exact ⟨hP queue outside dues, hsec ▸ hwork, hreg.trans hw⟩

theorem Dev.written_secCmd (d : Dev) (w : Word) : (d.setReg Reg.secCmd w).reg Reg.secCmd = w := by
  rw [Dev.setReg_reg, if_pos rfl]

/-- A command that ends at once, or waits for what the pool does not give, writes SEC_CMD alone. -/
theorem Completes.secEnds {c : Instr} {s : State} {f : Dev → Dev} (w : Word) {e : Dev} (hc : exec c s = s.upd f) (hf : f s.dev = e)
    (hw : ∀ a, e.reg a = (s.dev.setReg Reg.secCmd w).reg a) :
    Completes c s fun x => x.sec = e.sec ∧ x.reg Reg.secCmd = w ∧ s.dev.RegsBut x [Reg.secCmd] := by
  refine .of_eq hc hf ⟨rfl, ?_, ?_⟩
  · rw [Dev.settled_reg, hw, Dev.setReg_reg, if_pos rfl]
  · have h : s.dev.RegsBut (s.dev.setReg Reg.secCmd w) [Reg.secCmd] := Dev.RegsBut.rfl.setReg (by simp)
    exact (h.of_same hw).settled

theorem Dev.rotateServed_of {d : Dev} (hmode : d.mode = .maintenance) (hseal : d.bill.sealOpen = true) : d.rotateServed = true := by
  rw [Dev.rotateServed, hmode, hseal]
  rfl

theorem Dev.recording_of_maintenance {d : Dev} (hmode : d.mode = .maintenance) : d.recording = true := by
  rw [Dev.recording, hmode]
  rfl

/-- ROTATE_ROOT where it is served. -/
theorem Dev.rotate_served {d : Dev} (hmode : d.mode = .maintenance) (hseal : d.bill.sealOpen = true) :
    (if d.rotateServed then d.gw Reg.secCmd 3 Dev.rotateRoot else if d.recording then d.rotateRoot else d) =
      (d.setReg Reg.secCmd 3).rotateRoot := by
  rw [if_pos (Dev.rotateServed_of hmode hseal)]
  exact Dev.gw_of_recording _ _ _ (Dev.recording_of_maintenance hmode)

/-- A new Device Root Key drawn, before its tests. -/
def Dev.rootDrawn (d : Dev) : Dev :=
  (d.onSec fun s => { s with
    cmdWaits := false
    roots := s.roots ++ [{ target := none, shadow := RootSlot.empty
                           drk := { key := d.random 32, epoch := d.sec.vault.drk.epoch + 1
                                    check := Config.child (d.random 32) serialBytes (ascii "KAT") 16 }
                           pop := [], signer := 0, serial := 0, path := none }] }).randomDrawn

/-- A violation where its first cause is to be kept. -/
theorem Dev.violation_armed (addr : Word) (cause : Nat) (write : Bool) (h : d.sec.violArmed = true) :
    (d.violation addr cause write).bit Reg.secEvents 0 = true ∧
      (d.violation addr cause write).reg Reg.secViolCnt = satWord ((d.reg Reg.secViolCnt).toNat + 1) ∧
      (d.violation addr cause write).reg Reg.secViolAddr = addr ∧
      (d.violation addr cause write).reg Reg.secViolCause = packWord [(8, 1, b2n write), (0, 3, cause)] ∧
      (d.violation addr cause write).sec = { d.sec with violArmed := false } := by
  unfold Dev.violation
  extract_lets d1
  have hsec : d1.sec = d.sec := by
    unfold d1
    rw [Dev.raise_sec]
    rfl
  have hbit : d1.bit Reg.secEvents 0 = true := Dev.raise_bit _ .sec _ _ (by decide)
  have hcnt : d1.reg Reg.secViolCnt = satWord ((d.reg Reg.secViolCnt).toNat + 1) := by
    unfold d1
    rw [Dev.raise_reg, if_neg (by decide), Dev.count_reg, if_pos rfl]
  clear_value d1
  rw [if_pos (by rw [hsec, h]), Dev.bit, Dev.onSec_reg, Dev.onSec_reg, Dev.onSec_reg, Dev.onSec_reg, Dev.setReg_reg, if_neg (by decide),
    Dev.setReg_reg, if_neg (by decide), Dev.setReg_reg, if_neg (by decide), Dev.setReg_reg, if_neg (by decide), Dev.setReg_reg,
    if_neg (by decide), Dev.setReg_reg, if_pos rfl, Dev.setReg_reg, if_pos rfl]
  refine ⟨hbit, hcnt, rfl, rfl, ?_⟩
  change ({ d1.sec with violArmed := false } : Security) = _
  rw [hsec]

/-! ### Submissions -/

/-- A submission's slot as it is taken. -/
def Dev.subTaken (d : Dev) (c : Fin 4) (b : List Byte) : Dev :=
  d.onSub c fun s => { s with state := 1, kind := BitVec.ofNat 8 (objKind b), result := 0, obj := b, since := d.now }

theorem Dev.subTaken_slot (d : Dev) (c : Fin 4) (b : List Byte) : (d.subTaken c b).sec.slots.get c =
    { state := 1, kind := BitVec.ofNat 8 (objKind b), result := 0, obj := b, since := d.now } := by
  simp [Dev.subTaken, Dev.onSub, Dev.onSec, Vector.get_eq_getElem]

/-- An object admitted leaves the slots, and its result is due. -/
theorem Dev.admitObject_shows (path : ObjectPath) (b : List Byte) (poisoned : Bool) :
    (d.admitObject path b poisoned).sec.slots = d.sec.slots ∧
      ((d.admitObject path b poisoned).sec.dues.any fun x => decide (x.use = .object path)) = true := by
  unfold Dev.admitObject
  split_ifs
  · obtain ⟨queue, outside, dues, hsec⟩ := Dev.request_sec (d := d) (u := .object path) (cls := .legal)
      (ops := [hashOp b.length, verifyOp (objAlg b)]) (covered := true) (rank := pathRank path)
    exact ⟨by rw [hsec], d.request_due _ _ _ _⟩
  · refine ⟨rfl, ?_⟩
    change ((d.sec.dues ++ [_]).any _) = true
    rw [List.any_append, List.any_cons, decide_eq_true rfl, Bool.true_or, Bool.or_true]

end

end Sys2Proof.Machine
end


section
/-! SUPPORT. Security commands: what the statement asks (R350 to R374). -/

namespace Sys2Proof.Machine

set_option Elab.async false

/-- Settles O44: commands that work by `Completes.secWorks`, those that end at once by `Completes.secEnds`. -/
theorem securityCommands : Obligations.SecurityCommands := by
  unfold Obligations.SecurityCommands
  refine ⟨?enrolHe, ?enrolBarred, ?enrolFailed, ?vendor, ?vendorFailed, ?rotate, ?rotateWaits, ?rotateFailed, ?rotateBarred, ?restart,
    ?restartIdle, ?chain, ?busy, ?submit, ?noSubmit, ?attest, ?attesting, ?violRead, ?waitMax, ?off⟩
  case enrolHe =>
    intro s hrec hbusy hcfg hrng
    have hexec := (Dev.gw_of_recording Reg.secCmd 1 (fun d => d.enrol false) hrec).trans
      (Dev.enrol_asks (d := s.dev.setReg Reg.secCmd 1) false hbusy (.inr ((s.dev.written_secCfg 1).trans hcfg)) hrng)
    exact (Completes.secWorks (P := fun x => x.cmd = 1 ∧ x.cmdBusy = true ∧ x.cmdResult = 0) (exec_enrolHe s) hexec
      (s.dev.written_secCmd 1) fun _ _ _ => ⟨rfl, rfl, rfl⟩).imp fun e ⟨⟨hcmd, hon, hresult⟩, hwork, hreg⟩ => ⟨hcmd, hon, hresult, hwork, hreg⟩
  case enrolBarred =>
    intro s hrec hbusy hcfg
    have hcfg' : (s.dev.setReg Reg.secCmd 1).bit Reg.secCfg 0 = false := (s.dev.written_secCfg 1).trans hcfg
    have hexec := (Dev.gw_of_recording Reg.secCmd 1 (fun d => d.enrol false) hrec).trans
      ((if_neg (fun h => Bool.noConfusion (hbusy.symm.trans h))).trans (if_pos ⟨rfl, by rw [hcfg']; rfl⟩))
    refine (Completes.secEnds 1 (exec_enrolHe s) hexec fun _ => rfl).imp fun e ⟨hsec, hreg, hregs⟩ => ?_
    rw [hsec]
    exact ⟨rfl, rfl, rfl, hreg, hregs⟩
  case enrolFailed =>
    intro s hrec hbusy hcfg hrng
    have hexec := (Dev.gw_of_recording Reg.secCmd 1 (fun d => d.enrol false) hrec).trans
      (Dev.enrol_fails (d := s.dev.setReg Reg.secCmd 1) false hbusy (.inr ((s.dev.written_secCfg 1).trans hcfg)) hrng)
    refine (Completes.secEnds 1 (exec_enrolHe s) hexec fun _ => rfl).imp fun e ⟨hsec, hreg, hregs⟩ => ?_
    rw [hsec]
    exact ⟨rfl, rfl, rfl, hreg, hregs⟩
  case vendor =>
    intro s hrec hbusy hrng
    have hexec := (Dev.gw_of_recording Reg.secCmd 2 (fun d => d.enrol true) hrec).trans
      (Dev.enrol_asks (d := s.dev.setReg Reg.secCmd 2) true hbusy (.inl rfl) hrng)
    exact (Completes.secWorks (P := fun x => x.cmd = 2 ∧ x.cmdBusy = true ∧ x.cmdResult = 0) (exec_enrolVendor s) hexec
      (s.dev.written_secCmd 2) fun _ _ _ => ⟨rfl, rfl, rfl⟩).imp fun e ⟨⟨hcmd, hon, hresult⟩, hwork, hreg⟩ => ⟨hcmd, hon, hresult, hwork, hreg⟩
  case vendorFailed =>
    intro s hrec hbusy hrng
    have hexec := (Dev.gw_of_recording Reg.secCmd 2 (fun d => d.enrol true) hrec).trans
      (Dev.enrol_fails (d := s.dev.setReg Reg.secCmd 2) true hbusy (.inl rfl) hrng)
    refine (Completes.secEnds 2 (exec_enrolVendor s) hexec fun _ => rfl).imp fun e ⟨hsec, hreg, hregs⟩ => ?_
    rw [hsec]
    exact ⟨rfl, rfl, rfl, hreg, hregs⟩
  case rotate =>
    intro s hmode hseal hbusy hrng
    have hexec : (s.dev.setReg Reg.secCmd 3).rotateRoot =
        (((s.dev.setReg Reg.secCmd 3).onSec fun x => { x with cmd := 3, cmdBusy := true, cmdResult := 0, cmdWaits := true }).rootDrawn).request
          .drkTest .legal [deriveOp, deriveOp, deriveOp, signOp, verifyOp 1] true := by
      have hserved : (s.dev.setReg Reg.secCmd 3).rotateServed = true := Dev.rotateServed_of hmode hseal
      refine (if_neg (by rw [hserved]; exact Bool.noConfusion)).trans ((if_neg (fun h => Bool.noConfusion (hbusy.symm.trans h))).trans
        ((if_neg (fun h => RngState.noConfusion (hrng.symm.trans h))).trans (if_pos hrng)))
    exact (Completes.secWorks (P := fun x => x.cmd = 3 ∧ x.cmdBusy = true ∧ x.cmdResult = 0) (exec_rotateRoot s)
      ((Dev.rotate_served hmode hseal).trans hexec) (s.dev.written_secCmd 3) fun _ _ _ => ⟨rfl, rfl, rfl⟩).imp
        fun e ⟨⟨hcmd, hon, hresult⟩, hwork, hreg⟩ => ⟨hcmd, hon, hresult, hwork, hreg⟩
  case rotateWaits =>
    intro s hmode hseal hbusy hrng
    have hnot : s.dev.sec.rng ≠ .failed ∧ s.dev.sec.rng ≠ .healthy := by
      obtain h | h := hrng <;> rw [h] <;> exact ⟨RngState.noConfusion, RngState.noConfusion⟩
    have hserved : (s.dev.setReg Reg.secCmd 3).rotateServed = true := Dev.rotateServed_of hmode hseal
    have hexec := (Dev.rotate_served hmode hseal).trans ((if_neg (by rw [hserved]; exact Bool.noConfusion)).trans
      ((if_neg (fun h => Bool.noConfusion (hbusy.symm.trans h))).trans ((if_neg hnot.1).trans (if_neg hnot.2))))
    refine (Completes.secEnds 3 (exec_rotateRoot s) hexec fun _ => rfl).imp fun e ⟨hsec, _, hregs⟩ => ?_
    rw [hsec]
    exact ⟨rfl, rfl, rfl, rfl, rfl, hregs⟩
  case rotateFailed =>
    intro s hmode hseal hbusy hrng
    have hserved : (s.dev.setReg Reg.secCmd 3).rotateServed = true := Dev.rotateServed_of hmode hseal
    have hexec := (Dev.rotate_served hmode hseal).trans ((if_neg (by rw [hserved]; exact Bool.noConfusion)).trans
      ((if_neg (fun h => Bool.noConfusion (hbusy.symm.trans h))).trans (if_pos hrng)))
    refine (Completes.secEnds 3 (exec_rotateRoot s) hexec fun _ => rfl).imp fun e ⟨hsec, hreg, hregs⟩ => ?_
    rw [hsec]
    exact ⟨rfl, rfl, rfl, hreg, hregs⟩
  case rotateBarred =>
    intro s hrec hnot harmed
    have hserved : s.dev.rotateServed = false := by
      obtain h | h := hnot
      · rw [Dev.rotateServed, beq_eq_false_iff_ne.mpr h, Bool.false_and]
      · rw [Dev.rotateServed, h, Bool.and_false]
    have hexec : (if s.dev.rotateServed then s.dev.gw Reg.secCmd 3 Dev.rotateRoot else if s.dev.recording then s.dev.rotateRoot else s.dev) =
        s.dev.violation (BitVec.ofNat 32 Reg.secCmd) 4 true :=
      (if_neg (by rw [hserved]; exact Bool.noConfusion)).trans ((if_pos hrec).trans (if_pos (by simp [hserved])))
    obtain ⟨hbit, hcnt, haddr, hcause, hsec⟩ := Dev.violation_armed (BitVec.ofNat 32 Reg.secCmd) 4 true harmed
    generalize s.dev.violation (BitVec.ofNat 32 Reg.secCmd) 4 true = e at *
    refine .of_eq (exec_rotateRoot s) hexec ?_
    rw [Dev.settled_bit, Dev.settled_reg, Dev.settled_reg, Dev.settled_reg, Dev.settled_sec]
    exact ⟨hbit, hcnt, haddr, hcause, hsec⟩
  case restart =>
    intro s hrec hbusy hrng
    have hexec := (Dev.gw_of_recording Reg.secCmd 4 Dev.rngRestart hrec).trans
      ((if_neg (fun h => Bool.noConfusion (hbusy.symm.trans h))).trans (if_pos hrng))
    refine (Completes.secEnds 4 (exec_rngRestart s) hexec fun _ => rfl).imp
      fun e ⟨hsec, hreg, hregs⟩ => ?_
    rw [hsec]
    exact ⟨rfl, rfl, rfl, hrng, hreg, hregs⟩
  case restartIdle =>
    intro s hrec hbusy hrng
    have hexec := (Dev.gw_of_recording Reg.secCmd 4 Dev.rngRestart hrec).trans
      ((if_neg (fun h => Bool.noConfusion (hbusy.symm.trans h))).trans (if_neg hrng))
    refine (Completes.secEnds 4 (exec_rngRestart s) hexec fun _ => rfl).imp fun e ⟨hsec, hreg, hregs⟩ => ?_
    rw [hsec]
    exact ⟨rfl, rfl, rfl, hreg, hregs, rfl⟩
  case chain =>
    intro s l hrec hbusy
    have hexec := (Dev.gw_of_recording Reg.secCmd (packWord [(16, 13, l.toNat), (0, 4, 5)]) (fun d => d.loadChain l.toNat) hrec).trans
      (if_neg (fun h => Bool.noConfusion (hbusy.symm.trans h)))
    exact (Completes.secWorks (P := fun x => x.cmd = 5 ∧ x.cmdBusy = true ∧ x.cmdResult = 0 ∧ x.chainLen = l.toNat) (exec_loadChain l s) hexec
      (s.dev.written_secCmd _) fun _ _ _ => ⟨rfl, rfl, rfl, rfl⟩).imp fun e ⟨⟨hcmd, hon, hresult, hlen⟩, hwork, hreg⟩ => ⟨hcmd, hon, hresult, hlen, hwork, hreg⟩
  case busy =>
    intro s l c hrec hbusy hc
    simp only [List.mem_cons, List.not_mem_nil, or_false] at hc
    obtain rfl | rfl | rfl | rfl := hc
    · exact (Completes.secEnds 1 (exec_enrolHe s) ((Dev.gw_of_recording _ _ _ hrec).trans (if_pos hbusy)) fun _ => rfl).imp
        fun e ⟨hsec, _, hregs⟩ => ⟨hsec, hregs⟩
    · exact (Completes.secEnds 2 (exec_enrolVendor s) ((Dev.gw_of_recording _ _ _ hrec).trans (if_pos hbusy)) fun _ => rfl).imp
        fun e ⟨hsec, _, hregs⟩ => ⟨hsec, hregs⟩
    · exact (Completes.secEnds 4 (exec_rngRestart s) ((Dev.gw_of_recording _ _ _ hrec).trans (if_pos hbusy)) fun _ => rfl).imp
        fun e ⟨hsec, _, hregs⟩ => ⟨hsec, hregs⟩
    · exact (Completes.secEnds _ (exec_loadChain l s) ((Dev.gw_of_recording _ _ _ hrec).trans (if_pos hbusy)) fun _ => rfl).imp
        fun e ⟨hsec, _, hregs⟩ => ⟨hsec, hregs⟩
  case submit =>
    intro s c w hrec hgo hfree
    have hexec : Dev.hosted (fun d => d.submitObject c w) s.dev =
        (s.dev.subTaken c (s.dev.subBytes c (min 4096 (fieldOf w 0 13)))).admitObject (.slot c)
          (s.dev.subBytes c (min 4096 (fieldOf w 0 13))) (s.dev.subPoison c).isSome :=
      (Dev.hosted_of_recording _ hrec).trans (if_neg (by rw [hgo]; exact fun h => h.elim (by simp) hfree))
    obtain ⟨hslots, hdue⟩ := Dev.admitObject_shows (d := s.dev.subTaken c (s.dev.subBytes c (min 4096 (fieldOf w 0 13)))) (.slot c)
      (s.dev.subBytes c (min 4096 (fieldOf w 0 13))) (s.dev.subPoison c).isSome
    have hslot := s.dev.subTaken_slot c (s.dev.subBytes c (min 4096 (fieldOf w 0 13)))
    rw [← hslots] at hslot
    generalize Dev.admitObject _ (.slot c) _ _ = e at *
    refine .of_eq (exec_objectSubmit c w s) hexec ?_
    rw [Dev.settled_sec]
    exact ⟨hslot, hdue⟩
  case noSubmit =>
    intro s c w hnot
    refine .idle (exec_objectSubmit c w s) (ite_eq_right_iff.mpr fun _ => if_pos ?_)
    obtain h | h := hnot
    · exact .inl (by simp [h])
    · exact .inr h
  case attest =>
    intro s hrec hbusy
    obtain ⟨queue, outside, dues, hsec⟩ := Dev.request_sec (u := .attestHost) (cls := .legal) (ops := attestOps) (covered := true) (rank := 640)
      (d := s.dev.onSec fun x => { x with attBusy := true, attMode := BitVec.ofNat 8 s.dev.mode.code
                                          attChal := bytesOfWordsBE (s.dev.words (Reg.secAttChal 0) 8) })
    have hwork := (s.dev.onSec fun x => { x with attBusy := true, attMode := BitVec.ofNat 8 s.dev.mode.code
                                                 attChal := bytesOfWordsBE (s.dev.words (Reg.secAttChal 0) 8) }).request_working
      .attestHost .legal attestOps true 640
    have hexec := (Dev.hosted_of_recording Dev.attestStart hrec).trans (if_neg fun h => Bool.noConfusion (hbusy.symm.trans h))
    generalize Dev.request _ .attestHost .legal attestOps true 640 = e at *
    refine .of_eq (exec_attestationStart s) hexec ?_
    rw [Dev.settled_sec]
    refine ⟨?_, ?_, ?_, hwork⟩
    all_goals rw [hsec]; rfl
  case attesting =>
    intro s hbusy
    exact .idle (exec_attestationStart s) (ite_eq_right_iff.mpr fun _ => if_pos hbusy)
  case violRead =>
    intro s hrec
    exact .of_eq (exec_violCauseRead s) (Dev.hosted_of_recording _ hrec) ⟨rfl, (s.dev.onSec_keeps _).settled⟩
  case waitMax =>
    intro s w hrec
    by_cases hw : w = 0
    · refine .of_eq (exec_waitMaxWrite w s) ((Dev.hosted_of_recording _ hrec).trans (if_pos hw)) ⟨?_, rfl, ?_⟩
      · rw [Dev.settled_reg, Dev.setReg_reg, if_pos rfl, if_pos hw]
      · exact (Dev.RegsBut.rfl.setReg (by simp)).settled
    · refine .of_eq (exec_waitMaxWrite w s) ((Dev.hosted_of_recording _ hrec).trans (if_neg hw)) ⟨?_, rfl, Dev.RegsBut.rfl.settled⟩
      rw [Dev.settled_reg, if_neg hw]
  case off =>
    intro s l k w c hrec hc
    have hoff : ¬s.dev.recording = true := fun h => Bool.noConfusion (hrec.symm.trans h)
    simp only [List.mem_cons, List.not_mem_nil, or_false] at hc
    obtain rfl | rfl | rfl | rfl | rfl | rfl | rfl | rfl | rfl := hc
    · exact .idle (exec_enrolHe s) (Dev.gw_idle _ _ _ hrec)
    · exact .idle (exec_enrolVendor s) (Dev.gw_idle _ _ _ hrec)
    · refine .idle (exec_rotateRoot s) ?_
      by_cases hserved : s.dev.rotateServed = true
      · exact (if_pos hserved).trans (Dev.gw_idle _ _ _ hrec)
      · exact (if_neg hserved).trans (if_neg hoff)
    · exact .idle (exec_rngRestart s) (Dev.gw_idle _ _ _ hrec)
    · exact .idle (exec_loadChain l s) (Dev.gw_idle _ _ _ hrec)
    · exact .idle (exec_objectSubmit k w s) (if_neg hoff)
    · exact .idle (exec_attestationStart s) (if_neg hoff)
    · exact .idle (exec_violCauseRead s) (if_neg hoff)
    · exact .idle (exec_waitMaxWrite w s) (if_neg hoff)

end Sys2Proof.Machine
end


section
/-! SUPPORT. The ends of the pool's work and of the random number generator's tests (R34, R365 to R371). -/

namespace Sys2Proof.Machine

set_option Elab.async false

/-! ### What a trip leaves of the device's causes -/

section
variable {d : Dev}

theorem Dev.tripLink_prtEvents (n : LinkId) (c : Cause) (cls : Nat) (gone : Bool) :
    (d.tripLink n c cls gone).reg Reg.prtEvents = d.reg Reg.prtEvents := by
  unfold Dev.tripLink
  extract_lets old d1 d2 d3
  have h2 : d2.reg Reg.prtEvents = d.reg Reg.prtEvents := by
    unfold d2
    split_ifs
    · rw [Dev.raise_reg, if_neg (by simp only [EvReg.addr, Reg.prtEvents, Reg.prtLEvents]; omega)]
      rfl
    · rfl
  have h3 : d3.reg Reg.prtEvents = d2.reg Reg.prtEvents := by
    unfold d3
    split_ifs
    · exact (Dev.sendTrip_keeps _ _ _).reg_of (p := .rPrt) rfl
    · rfl
  rw [(Dev.forceLink_keeps d3 n c.source).reg_of (p := .rPrt) rfl, h3, h2]

/-- A trip clears no event of the device's causes. -/
theorem Dev.trip_prtEvents (c : Cause) (ns : List LinkId) (gone : Bool) {k : Nat} (hk : d.bit Reg.prtEvents k = true) :
    (d.trip c ns gone).bit Reg.prtEvents k = true := by
  unfold Dev.trip
  extract_lets cls d1
  have h0 : (d.recordTrip c cls).reg Reg.prtEvents = d.reg Reg.prtEvents := by
    rw [Dev.recordTrip, Dev.onProtection_reg]
    split_ifs
    · rfl
    · exact (Dev.count_reg _ _ _ _).trans (if_neg (by decide))
  have h1 : d1.reg Reg.prtEvents = d.reg Reg.prtEvents :=
    Dev.each_inv (P := fun e => e.reg Reg.prtEvents = d.reg Reg.prtEvents) h0 fun e n _ he =>
      (Dev.tripLink_prtEvents n c cls gone).trans he
  clear_value d1
  split_ifs
  · exact hk
  · rw [Dev.bit, Dev.driveTripout_reg, Dev.haltBy, Dev.raise_reg, if_pos (show Reg.prtEvents = EvReg.prt.addr from rfl)]
    refine (bitOf_or _ _ _).trans (Bool.or_eq_true_iff.mpr (.inl ?_))
    exact (congrArg (bitOf · k) h1).trans hk
  · rw [Dev.bit, Dev.driveTripout_reg, h1]
    exact hk

/-- A cause of the device sets its detail bit. -/
theorem Dev.deviceCause_detail (d : Dev) (code : Nat) {b : Nat} (hb : b < 32) :
    (d.deviceCause code b).bit Reg.prtEvents b = true := by
  unfold Dev.deviceCause Dev.causeOn
  refine Dev.trip_prtEvents _ _ _ ?_
  rw [show Reg.prtEvents = EvReg.prt.addr from rfl]
  exact Dev.raiseAlways_bit _ _ _ _ hb

end

/-! ### An operation that has ended -/

section
variable {d : Dev} {x : Fin 32} {r : CryptoReq}

theorem Dev.operationDone_idle (h : d.sec.sym.get x = none) : d.operationDone .sym x = d := by
  have hset : d.sec.sym.set x.1 none = d.sec.sym := by
    rw [← h]
    exact Vector.set_getElem_self x.2
  unfold Dev.operationDone Dev.freeEngine
  rw [h]
  exact congrArg (fun v => { d with sec := { d.sec with sym := v } }) hset

theorem Dev.operationDone_cancelled (h : d.sec.sym.get x = some r) (hc : r.cancelled = true) :
    d.operationDone .sym x = d.onSec fun s => { s with sym := s.sym.set x.1 none } := by
  unfold Dev.operationDone Dev.freeEngine
  rw [h]
  exact if_pos hc

theorem Dev.operationDone_more (h : d.sec.sym.get x = some r) (hc : r.cancelled = false) (hmore : r.advance.ops ≠ []) :
    d.operationDone .sym x = (d.onSec fun s => { s with sym := s.sym.set x.1 none }).onSec fun s =>
      { s with queue := s.queue ++ [{ r.advance with since := (d.onSec fun s => { s with sym := s.sym.set x.1 none }).now }] } := by
  unfold Dev.operationDone Dev.freeEngine
  rw [h]
  exact (if_neg (by simp [hc])).trans (if_neg (by simpa using hmore))

theorem Dev.operationDone_last (h : d.sec.sym.get x = some r) (hc : r.cancelled = false) (hlast : r.advance.ops = []) :
    d.operationDone .sym x = (d.onSec fun s => { s with sym := s.sym.set x.1 none }).workDone r := by
  unfold Dev.operationDone Dev.freeEngine
  rw [h]
  exact (if_neg (by simp [hc])).trans (if_pos (by simp [hlast]))

theorem Dev.workDone_svcStep (h : r.use = .svcStep) : d.workDone r = d := by
  unfold Dev.workDone
  rw [h]

theorem CryptoReq.advance_use (r : CryptoReq) : r.advance.use = r.use := by
  unfold CryptoReq.advance
  split
  · rfl
  · split_ifs <;> rfl

theorem CryptoReq.advance_cancelled (r : CryptoReq) : r.advance.cancelled = r.cancelled := by
  unfold CryptoReq.advance
  split
  · rfl
  · split_ifs <;> rfl

/-- A request that waits in the queue, not cancelled, works. -/
theorem Security.working_of_queue {s : Security} {u : CryptoUse} (q : CryptoReq) (hq : q ∈ s.queue) (hu : q.use = u)
    (hc : q.cancelled = false) : s.working u = true := by
  have hany : s.queue.any (fun r => decide (r.use = u) && !r.cancelled) = true :=
    List.any_eq_true.mpr ⟨q, hq, by simp [hu, hc]⟩
  simp [Security.working, hany]

end

/-! ### Results -/

section
variable {d : Dev} {x : CryptoDue}

theorem Dev.cryptoResult_of (h : d.nextResult = some x) :
    d.cryptoResult = (d.onSec fun s => { s with dues := s.dues.erase x }).applyResult x := by
  rw [Dev.cryptoResult, h]

theorem Dev.applyResult_attestHost (h : x.use = .attestHost) : d.applyResult x = d.attestDone := by
  unfold Dev.applyResult
  rw [h]

theorem Dev.applyResult_rootTest {t : TenantId} (h : x.use = .rootTest t) :
    d.applyResult x = d.commit (commitKey x.rank 0) (.rootTest t) := by
  unfold Dev.applyResult
  rw [h]

theorem Dev.setRegs_sec (ws : List Word) (a : Nat) : (d.setRegs a ws).sec = d.sec := by
  induction ws generalizing d a with
  | nil => rfl
  | cons w ws ih => exact ih _

theorem Dev.attestDone_sec (d : Dev) : d.attestDone.sec = { d.sec with attBusy := false, attCount := d.sec.attCount + 1 } := by
  rw [Dev.attestDone, Dev.raise_sec, Dev.onSec_sec, Dev.setRegs_sec, Dev.setRegs_sec]

/-- A result that is late is marked. -/
def Dev.lateMarked (d : Dev) (x : CryptoDue) : Dev :=
  d.onSec fun s => { s with dues := s.dues.map fun y => if y = x then { y with overrun := true } else y }

theorem Dev.cryptoOverrun_of
    (h : (d.sec.dues.find? fun y => decide (y.at? ≤ d.now) && !y.overrun && d.sec.working y.use) = some x) :
    d.cryptoOverrun = (d.lateMarked x).overrun (BitVec.ofNat 32 x.rank) := by
  rw [Dev.cryptoOverrun, h]
  rfl

theorem Dev.lateMarked_dues (d : Dev) (x : CryptoDue) :
    (d.lateMarked x).sec.dues = d.sec.dues.map fun y => if y = x then { y with overrun := true } else y := rfl

end

/-! ### The RNG is declared failed -/

/-- The RNG is failed and nobody waits for it. -/
def Security.rngGone (s : Security) : Prop := s.rng = .failed ∧ s.rngWaits = []

section
variable {d : Dev}

theorem Dev.dropRun_rngGone (n : LinkId) (h : d.sec.rngGone) : (d.dropRun n).sec.rngGone := by
  obtain ⟨hrng, hwaits⟩ := h
  refine ⟨hrng, ?_⟩
  show d.sec.rngWaits.filter _ = []
  rw [hwaits, List.filter_nil]

theorem Dev.enterFault_rngGone (n : LinkId) (fail : Nat) (h : d.sec.rngGone) : (d.enterFault n fail).sec.rngGone := by
  unfold Dev.enterFault
  split_ifs
  · exact Dev.dropRun_rngGone n h
  · exact Dev.dropRun_rngGone (d := d.lastEnd n fail 0) n h

theorem Dev.failAttempt_rngGone (n : LinkId) (fail : Nat) (third : Bool) (h : d.sec.rngGone) :
    (d.failAttempt n fail third).sec.rngGone := by
  unfold Dev.failAttempt
  extract_lets tries d0 d1
  have h1 : d1.sec.rngGone := Dev.dropRun_rngGone n h
  clear_value d1
  split_ifs
  · exact h1
  · rw [Dev.raise_sec]
    exact h1
  · exact Dev.enterFault_rngGone n fail h1

theorem Dev.failMatching_rngGone (h : d.sec.rngGone) : d.failMatching.sec.rngGone := by
  unfold Dev.failMatching
  refine Dev.each_inv (P := fun e => e.sec.rngGone) h fun e n _ he => ?_
  split
  · exact Dev.failAttempt_rngGone n 1 true (by rw [Dev.raise_sec]; exact he)
  · exact Dev.failAttempt_rngGone n 2 true (by rw [Dev.raise_sec]; exact he)
  · exact he

theorem Dev.nextRound_failed (x : Fin 24) (t : TagTransaction) (at' : Tick) (h : d.sec.rng = .failed) :
    (d.nextRound x t at').sec = d.sec := by
  unfold Dev.nextRound
  rw [h]
  rfl

theorem Dev.rngRefuse_rngGone (w : RngWait) (h : d.sec.rngGone) : (d.rngRefuse w).sec.rngGone := by
  unfold Dev.rngRefuse
  split
  · exact h
  · exact h
  · exact h
  · split
    · split_ifs
      · rw [Dev.nextRound_failed _ _ _ h.1]
        exact h
      · exact h
    · exact h

/-- What declaring the RNG failed leaves: nobody waits, and of the security's registers the event is set (R371). -/
theorem Dev.declareFailed_shows (d : Dev) (fails : Nat) : (d.declareFailed fails).sec.rngGone ∧
    (d.declareFailed fails).reg Reg.secEvents = d.reg Reg.secEvents ||| oneBit 2 ∧
    (d.declareFailed fails).reg Reg.secRngFailCnt = d.reg Reg.secRngFailCnt := by
  unfold Dev.declareFailed
  extract_lets waits d1 d2
  have h1 : d1.sec.rngGone := by
    unfold d1
    rw [Dev.raise_sec]
    exact ⟨rfl, rfl⟩
  have hev : d1.reg Reg.secEvents = d.reg Reg.secEvents ||| oneBit 2 :=
    (Dev.raise_reg _ _ _ _ _ _).trans (if_pos rfl)
  have hcnt : d1.reg Reg.secRngFailCnt = d.reg Reg.secRngFailCnt :=
    (Dev.raise_reg _ _ _ _ _ _).trans (if_neg (by decide))
  have hrefused : d1.Keeps (d1.each waits Dev.rngRefuse) [.engines, .svc, .sec, .fresh] :=
    Dev.Keeps.each (fun e w _ => e.rngRefuse_keeps w) .rfl
  have hmatching := (d1.each waits Dev.rngRefuse).failMatching_keeps
  have h2 : d2.sec.rngGone :=
    Dev.failMatching_rngGone (Dev.each_inv (P := fun e => e.sec.rngGone) h1 fun e w _ he => Dev.rngRefuse_rngGone w he)
  have hreg : ∀ a, regPart a = .rSec → d2.reg a = d1.reg a := fun a ha => (hmatching.reg_of ha).trans (hrefused.reg_of ha)
  clear_value d2 d1
  have hd2 : ∀ e : Dev, e.sec.rngGone → (∀ a, e.reg a = d2.reg a) → e.sec.rngGone ∧
      e.reg Reg.secEvents = d.reg Reg.secEvents ||| oneBit 2 ∧ e.reg Reg.secRngFailCnt = d.reg Reg.secRngFailCnt :=
    fun e he hregs => ⟨he, by rw [hregs, hreg _ rfl, hev], by rw [hregs, hreg _ rfl, hcnt]⟩
  split_ifs
  · exact hd2 _ h2 fun _ => rfl
  · exact hd2 _ h2 fun _ => rfl

theorem Dev.rngFailure_restarts {fails : Nat} (h : fails < 3) :
    d.rngFailure fails = (d.count Reg.secRngFailCnt).onSec fun s => { s with rng := .restarting, rngFails := fails } :=
  if_neg (Nat.not_le.mpr h)

theorem Dev.rngFailure_third {fails : Nat} (h : 3 ≤ fails) : d.rngFailure fails = (d.count Reg.secRngFailCnt).declareFailed fails :=
  if_pos h

theorem Dev.rngCounted (d : Dev) :
    (d.count Reg.secRngFailCnt).reg Reg.secRngFailCnt = satWord ((d.reg Reg.secRngFailCnt).toNat + 1) := by
  rw [Dev.count_reg, if_pos rfl]

/-- An alarm counts one failure beside its event. -/
theorem Dev.alarm_counted (d : Dev) : ((d.raise .sec 1).count Reg.secRngFailCnt).reg Reg.secRngFailCnt =
    satWord ((d.reg Reg.secRngFailCnt).toNat + 1) := by
  rw [Dev.count_reg, if_pos rfl, Dev.raise_reg, if_neg (by decide)]

theorem Dev.alarm_bit (d : Dev) : ((d.raise .sec 1).count Reg.secRngFailCnt).bit Reg.secEvents 1 = true := by
  rw [Dev.bit, Dev.count_reg, if_neg (by decide), ← Dev.bit]
  exact d.raise_bit .sec 0 none (by decide)

/-! ### The start-up test -/

/-- The first alarm of a healthy source: whether it ends an older run makes no difference. -/
theorem Dev.rngAlarm_first (hrng : d.sec.rng = .healthy) (hfails : d.sec.rngFails = 0) :
    d.rngAlarm = ((d.raise .sec 1).count Reg.secRngFailCnt).drew.onSec fun s => { s with rng := .restarting, rngFails := 1 } := by
  have hfailed : d.sec.rng ≠ .failed := by simp [hrng]
  have hone : (if d.drawn.getLsbD 0 = true then 1 else d.sec.rngFails + 1) = 1 := by rw [hfails, Nat.zero_add, ite_self]
  exact (if_neg hfailed).trans ((if_pos hrng).trans
    ((congrArg (d.raise .sec 1).drew.rngFailure hone).trans (Dev.rngFailure_restarts (by decide))))

theorem Dev.rngAlarm_testing (h : d.sec.rng = .restarting ∨ d.sec.rng = .startup) :
    d.rngAlarm = (d.raise .sec 1).rngFailure (d.sec.rngFails + 1) := by
  have hfailed : d.sec.rng ≠ .failed := by obtain h | h := h <;> simp [h]
  have hhealthy : d.sec.rng ≠ .healthy := by obtain h | h := h <;> simp [h]
  exact (if_neg hfailed).trans (if_neg hhealthy)

theorem Dev.rngRestarting_testing (h : d.sec.rng = .startup ∨ d.sec.rng = .restarting) : d.rngRestarting = false := by
  obtain h | h := h
  · simp [Dev.rngRestarting, h]
  · simp [Dev.rngRestarting, h]

theorem Dev.startupDone_tested (h : d.sec.rng = .startup ∨ d.sec.rng = .restarting) :
    ¬(d.sec.rng = .healthy ∨ d.sec.rng = .failed ∧ (!d.rngRestarting) = true) := by
  obtain h | h := h
  · simp [h]
  · simp [h]

theorem Dev.startupDone_failed (h : d.sec.rng = .startup ∨ d.sec.rng = .restarting) :
    d.startupDone false = d.rngFailure (d.sec.rngFails + 1) :=
  (if_neg (Dev.startupDone_tested h)).trans ((if_neg Bool.false_ne_true).trans
    (if_neg (by rw [Dev.rngRestarting_testing h]; exact Bool.false_ne_true)))

theorem Dev.cmdServe_idle (h : d.sec.cmdBusy = false) : d.cmdServe = d := if_neg fun ⟨hbusy, _⟩ => Bool.noConfusion (h.symm.trans hbusy)

/-- A passed test where nothing waits: generation starts anew. -/
theorem Dev.startupDone_passed (h : d.sec.rng = .startup ∨ d.sec.rng = .restarting) (hbusy : d.sec.cmdBusy = false)
    (hwaits : d.sec.rngWaits = []) : d.startupDone true = d.onSec fun s =>
      { s with rng := .healthy, rngSeedAt := d.now, rngGen := 0 } := by
  have hfailed : d.sec.rng ≠ .failed := by obtain h | h := h <;> simp [h]
  refine (if_neg (Dev.startupDone_tested h)).trans ((if_pos rfl).trans
    ((if_neg (by rw [Dev.rngRestarting_testing h]; exact Bool.false_ne_true)).trans ?_))
  have hsec : { d.sec with rng := .healthy, rngSeedAt := d.now, rngGen := 0, rngWaits := []
                           rngFails := if d.sec.rng = .failed then 0 else d.sec.rngFails } =
      { d.sec with rng := .healthy, rngSeedAt := d.now, rngGen := 0 } := by simp [hfailed, hwaits]
  rw [hwaits]
  refine (Dev.cmdServe_idle ?_).trans ?_
  · exact hbusy
  · exact congrArg (fun x : Security => { d with sec := x }) hsec

end

end Sys2Proof.Machine
end


section
/-! The crypto pool and the random number generator as work ends. -/

namespace Sys2Proof.Machine

set_option Elab.async false

/-- Settles O45: each command under its condition; declaring the RNG failed serves what waits, and keeps who waits empty. -/
theorem cryptoPoolRules : Obligations.CryptoPoolRules := by
  unfold Obligations.CryptoPoolRules
  refine ⟨?svcStep, ?more, ?cancelled, ?free, ?attest, ?rootTest, ?noResult, ?firstOverrun, ?overrunUnderMargin, ?noOverrun, ?object,
    ?objectEarly, ?alarmHealthy, ?alarmAgain, ?alarmThird, ?alarmFailed, ?passed, ?restartPassed, ?restartFailed, ?testFailed,
    ?testThird, ?notTested, ?reseed, ?notReseeded⟩
  case svcStep =>
    intro s x r hr hc huse hlast _ _
    refine .of_eq (exec_cryptoOperationDone _ _ s) ((Dev.operationDone_last hr hc hlast).trans (Dev.workDone_svcStep huse)) ⟨?_, ?_⟩
    · rw [Dev.settled_sec]
      rfl
    · exact .settled (.onSec .rfl)
  case more =>
    intro s x r hr hc hmore
    refine .of_eq (exec_cryptoOperationDone _ _ s) (Dev.operationDone_more hr hc hmore) ⟨?_, .settled (.onSec (.onSec .rfl))⟩
    rw [Dev.settled_sec]
    exact Security.working_of_queue _ (List.mem_append_right _ (List.mem_singleton_self _)) r.advance_use
      (r.advance_cancelled.trans hc)
  case cancelled =>
    intro s x r hr hc _ _
    refine .of_eq (exec_cryptoOperationDone _ _ s) (Dev.operationDone_cancelled hr hc) ⟨?_, ?_⟩
    · rw [Dev.settled_sec]
      rfl
    · exact .settled (.onSec .rfl)
  case free =>
    intro s x hx
    exact .idle (exec_cryptoOperationDone _ _ s) (Dev.operationDone_idle hx)
  case attest =>
    intro s x hx huse
    refine .of_eq (exec_cryptoResult s) ((Dev.cryptoResult_of hx).trans (Dev.applyResult_attestHost huse)) ⟨?_, ?_, ?_, ?_⟩
    · rw [Dev.settled_sec, Dev.attestDone_sec]
    · rw [Dev.settled_sec, Dev.attestDone_sec]
      rfl
    · exact Dev.settled_raise_bit _ .sec _ _ (by decide)
    · rw [Dev.settled_sec, Dev.attestDone_sec]
      rfl
  case rootTest =>
    intro s x t hx huse
    refine .of_eq (exec_cryptoResult s) ((Dev.cryptoResult_of hx).trans (Dev.applyResult_rootTest huse)) ⟨?_, ?_, ?_⟩
    · rfl
    · rw [Dev.settled_sec]
      rfl
    · exact .settled fun _ _ => rfl
  case noResult =>
    intro s hx
    exact .idle (exec_cryptoResult s) (by rw [Dev.cryptoResult, hx])
  case firstOverrun =>
    intro s x hx hmargin
    have hpac : (s.dev.lateMarked x).reg Reg.pacOverrunCnt = s.dev.reg Reg.pacOverrunCnt := rfl
    have hpacer : (s.dev.lateMarked x).pacer = s.dev.pacer := rfl
    have hdues := s.dev.lateMarked_dues x
    have hexec := Dev.cryptoOverrun_of hx
    generalize s.dev.lateMarked x = d at *
    refine .of_eq (exec_cryptoOverrun s) (hexec.trans (Dev.overrun_first (by rw [hpacer, hmargin]) _)) ⟨?_, ?_, ?_, ?_⟩
    · rw [Dev.settled_sec, (Dev.sendVout_keeps _ _).sec, ← hdues]
      simp
    · rw [Dev.settled_bit, Dev.bit, Dev.sendVout_pac _ _ rfl]
      exact Dev.overrunCounted_bit _ _
    · rw [Dev.settled_reg, Dev.sendVout_pac _ _ rfl, ← hpac]
      exact Dev.overrunCounted_count _ _
    · rw [Dev.settled_pacer, (Dev.sendVout_keeps _ _).pacer]
      simp [hpacer]
  case overrunUnderMargin =>
    intro s x hx hmargin harmed
    have hpac : (s.dev.lateMarked x).reg Reg.pacOverrunCnt = s.dev.reg Reg.pacOverrunCnt := rfl
    have hpacer : (s.dev.lateMarked x).pacer = s.dev.pacer := rfl
    have hprot : (s.dev.lateMarked x).prot = s.dev.prot := rfl
    have hdues := s.dev.lateMarked_dues x
    have hexec := Dev.cryptoOverrun_of hx
    generalize s.dev.lateMarked x = d at *
    have hbit := d.overrunCounted_bit (BitVec.ofNat 32 x.rank)
    have hcount := d.overrunCounted_count (BitVec.ofNat 32 x.rank)
    have hexec' := hexec.trans (Dev.overrun_again (by rw [hpacer, hmargin]) _)
    have hsec : ((d.raiseAlways .pac 4 (BitVec.ofNat 32 x.rank)).count Reg.pacOverrunCnt).sec = d.sec := by simp
    have harmed' : ((d.raiseAlways .pac 4 (BitVec.ofNat 32 x.rank)).count Reg.pacOverrunCnt).prot.armed = true := by
      simp [hprot, harmed]
    generalize (d.raiseAlways .pac 4 (BitVec.ofNat 32 x.rank)).count Reg.pacOverrunCnt = e at *
    obtain ⟨hhalt, -, -⟩ := e.deviceCause_site 0x32 0 [] 0 false (by decide) (by decide) harmed'
    refine .of_eq (exec_cryptoOverrun s) hexec' ⟨?_, ?_, ?_, hhalt, ?_⟩
    · rw [Dev.settled_sec, (Dev.deviceCause_keeps _ _ _).sec, hsec, hdues]
    · rw [Dev.settled_bit, e.deviceCause_bit 0x32 0 (p := .rPac) rfl]
      exact hbit
    · rw [Dev.settled_reg, e.deviceCause_regPart 0x32 0 (p := .rPac) rfl, hcount, hpac]
    · rw [Dev.settled_bit]
      exact Dev.deviceCause_detail _ _ (by decide)
  case noOverrun =>
    intro s hx
    exact .idle (exec_cryptoOverrun s) (by rw [Dev.cryptoOverrun, Option.isNone_iff_eq_none.mp hx])
  case object =>
    intro s p hready
    refine .of_eq (exec_objectVerified p s) (if_neg (by simp [hready])) ⟨rfl, ?_, ?_, .settled fun _ _ => rfl⟩
    · rw [Dev.settled_sec]
      rfl
    · rw [Dev.settled_sec]
      rfl
  case objectEarly =>
    intro s p hready
    exact .idle (exec_objectVerified p s) (if_pos (by simp [hready]))
  case alarmHealthy =>
    intro s hrng hfails
    have hexec := Dev.rngAlarm_first hrng hfails
    refine .of_eq (exec_rngHealthAlarm s) hexec ⟨?_, ?_, ?_, ?_, ?_⟩
    · rw [Dev.settled_sec]
      rfl
    · rw [Dev.settled_sec]
      rfl
    · rw [Dev.settled_bit]
      exact s.dev.alarm_bit
    · rw [Dev.settled_reg]
      exact s.dev.alarm_counted
    · exact .settled (.onSec (.drew (.count (.raise .rfl (by decide)) (by decide))))
  case alarmAgain =>
    intro s hrng hfails
    have hexec : s.dev.rngAlarm = ((s.dev.raise .sec 1).count Reg.secRngFailCnt).onSec fun x =>
        { x with rng := .restarting, rngFails := s.dev.sec.rngFails + 1 } :=
      (Dev.rngAlarm_testing hrng).trans (Dev.rngFailure_restarts (Nat.succ_lt_succ hfails))
    refine .of_eq (exec_rngHealthAlarm s) hexec ⟨?_, ?_, ?_⟩
    · rw [Dev.settled_sec, Dev.onSec_sec, Dev.count_sec, Dev.raise_sec]
    · rw [Dev.settled_bit]
      exact s.dev.alarm_bit
    · rw [Dev.settled_reg]
      exact s.dev.alarm_counted
  case alarmThird =>
    intro s hrng hfails
    have hexec := (Dev.rngAlarm_testing hrng).trans (Dev.rngFailure_third (Nat.succ_le_succ hfails))
    have h1 : bitOf (((s.dev.raise .sec 1).count Reg.secRngFailCnt).reg Reg.secEvents) 1 = true := s.dev.alarm_bit
    obtain ⟨hgone, hevents, hcount⟩ := ((s.dev.raise .sec 1).count Reg.secRngFailCnt).declareFailed_shows (s.dev.sec.rngFails + 1)
    generalize ((s.dev.raise .sec 1).count Reg.secRngFailCnt).declareFailed (s.dev.sec.rngFails + 1) = e at *
    refine .of_eq (exec_rngHealthAlarm s) hexec ⟨?_, ?_, ?_, ?_, ?_⟩
    · rw [Dev.settled_sec]
      exact hgone.1
    · rw [Dev.settled_sec]
      exact hgone.2
    · rw [Dev.settled_bit, Dev.bit, hevents, bitOf_or, h1, Bool.true_or]
    · rw [Dev.settled_bit, Dev.bit, hevents, bitOf_or_oneBit_self _ _ (by decide)]
    · rw [Dev.settled_reg, hcount]
      exact s.dev.alarm_counted
  case alarmFailed =>
    intro s hrng
    refine .of_eq (exec_rngHealthAlarm s) (if_pos hrng) ⟨?_, ?_, .settled (.raise .rfl (by decide))⟩
    · rw [Dev.settled_sec, Dev.raise_sec]
    · exact Dev.settled_raise_bit _ .sec _ _ (by decide)
  case passed =>
    intro s hrng hbusy hwaits
    refine .of_eq (exec_rngStartupDone true s) (Dev.startupDone_passed hrng hbusy hwaits) ⟨?_, .settled (.onSec .rfl)⟩
    rw [Dev.settled_sec]
    rfl
  case restartPassed =>
    intro s hrng hbusy hcmd
    have hrestart : s.dev.rngRestarting = true := by simp [Dev.rngRestarting, hrng, hbusy, hcmd]
    refine .of_eq (exec_rngStartupDone true s) ((if_neg (by simp [hrng, hrestart])).trans ((if_pos rfl).trans (if_pos hrestart)))
      ⟨?_, ?_, ?_, ?_, .settled (.onSec (.onSec .rfl))⟩
    · rw [Dev.settled_sec]
      rfl
    · rw [Dev.settled_sec]
      exact if_pos hrng
    · rw [Dev.settled_sec]
      rfl
    · rw [Dev.settled_sec]
      rfl
  case restartFailed =>
    intro s hrng hbusy hcmd
    have hrestart : s.dev.rngRestarting = true := by simp [Dev.rngRestarting, hrng, hbusy, hcmd]
    refine .of_eq (exec_rngStartupDone false s) ((if_neg (by simp [hrng, hrestart])).trans
      ((if_neg Bool.false_ne_true).trans (if_pos hrestart))) ⟨?_, ?_, ?_, ?_, .settled (.onSec (.count .rfl (by decide)))⟩
    · rw [Dev.settled_sec]
      exact hrng
    · rw [Dev.settled_sec]
      rfl
    · rw [Dev.settled_sec]
      rfl
    · rw [Dev.settled_reg]
      exact s.dev.rngCounted
  case testFailed =>
    intro s hrng hfails
    refine .of_eq (exec_rngStartupDone false s) ((Dev.startupDone_failed hrng).trans
      (Dev.rngFailure_restarts (Nat.succ_lt_succ hfails))) ⟨?_, ?_, .settled (.onSec (.count .rfl (by decide)))⟩
    · rw [Dev.settled_sec]
      rfl
    · rw [Dev.settled_reg]
      exact s.dev.rngCounted
  case testThird =>
    intro s hrng hfails
    have hexec := (Dev.startupDone_failed hrng).trans (Dev.rngFailure_third (Nat.succ_le_succ hfails))
    obtain ⟨hgone, hevents, -⟩ := (s.dev.count Reg.secRngFailCnt).declareFailed_shows (s.dev.sec.rngFails + 1)
    generalize (s.dev.count Reg.secRngFailCnt).declareFailed (s.dev.sec.rngFails + 1) = e at *
    refine .of_eq (exec_rngStartupDone false s) hexec ⟨?_, ?_⟩
    · rw [Dev.settled_sec]
      exact hgone.1
    · rw [Dev.settled_bit, Dev.bit, hevents, bitOf_or_oneBit_self _ _ (by decide)]
  case notTested =>
    intro s ok h
    refine .idle (exec_rngStartupDone ok s) (if_pos (h.imp_right fun ⟨hrng, h⟩ => ⟨hrng, ?_⟩))
    obtain h | h := h
    · simp [Dev.rngRestarting, h]
    · simp [Dev.rngRestarting, h]
  case reseed =>
    intro s hrng hdue
    refine .of_eq (exec_rngReseed s) (if_pos ⟨hrng, hdue⟩) ⟨?_, .settled (.onSec .rfl)⟩
    rw [Dev.settled_sec]
    rfl
  case notReseeded =>
    intro s h
    refine .idle (exec_rngReseed s) (if_neg ?_)
    rintro ⟨hrng, hdue⟩
    obtain h | ⟨hgen, hat⟩ := h
    · exact h hrng
    · exact hdue.elim (Nat.not_le.mpr hgen) (Nat.not_le.mpr hat)

end Sys2Proof.Machine
end


section
/-! SUPPORT. Periods, beacons and discovery of the grid link (R382 to R391). -/

namespace Sys2Proof.Machine

set_option Elab.async false

section
variable {d : Dev}

/-! ### What a period sends -/

/-- Outside its own period a node only fills the cells it sends. -/
theorem Dev.fillPeriod_beacon (d : Dev) : ∃ cells, d.fillPeriod false = d.onGrid fun g => { g with cells := cells } := by
  unfold Dev.fillPeriod
  extract_lets head
  exact ⟨_, if_neg fun h => Bool.noConfusion h.1⟩

theorem Dev.ownSegment_grid (d : Dev) : ∃ tx msgNo, d.ownSegment.2 = d.onGrid fun g => { g with tx := tx, msgNo := msgNo } := by
  unfold Dev.ownSegment
  split
  · exact ⟨d.grid.tx, _, rfl⟩
  next t rest _ =>
    by_cases hlast : segsOf t.bytes ≤ t.sent + 1
    · exact ⟨rest, d.grid.msgNo + 1, congrArg (fun g => { d with grid := g }) (if_pos hlast)⟩
    · exact ⟨{ t with sent := t.sent + 1 } :: rest, d.grid.msgNo, congrArg (fun g => { d with grid := g }) (if_neg hlast)⟩

/-- In its own period a node takes its next segment from what it sends. -/
theorem Dev.fillPeriod_grid (d : Dev) (mine : Bool) : ∃ cells tx msgNo, d.fillPeriod mine = d.onGrid fun g =>
    { g with cells := cells, tx := tx, msgNo := msgNo } := by
  unfold Dev.fillPeriod
  extract_lets head r
  by_cases hown : mine ∧ d.txOk ∧ !d.warned ∧ (d.grid.state = .coordinator ∨ d.grid.state = .member)
  · obtain ⟨tx, msgNo, hr⟩ := d.ownSegment_grid
    exact ⟨_, tx, msgNo, (if_pos hown).trans (congrArg (fun e : Dev => e.onGrid fun g => { g with cells := head ++ r.1 ++ quietCells 2 }) hr)⟩
  · exact ⟨_, d.grid.tx, d.grid.msgNo, if_neg hown⟩

/-! ### A period turned -/

/-- A turned period of a node that follows no coordinator: its owner is not known yet. -/
def Dev.periodTurned (d : Dev) (q : Vector CellDiffs 6) : Dev :=
  (d.onGrid fun g => g.turnPeriod d.now ((d.cycleBegan (d.grid.cycle0 + 256)).getD d.now) q).onGrid fun g => { g with
    owner := 0xFE
    nbs := if g.state = .coordinator then g.nbs.set 0 { g.nbs.get 0 with pending := !g.tx.isEmpty } else g.nbs }

/-- What the turn of a period shows of the grid link, whatever else is done in it. -/
structure Dev.Turned (d : Dev) (g : Grid) : Prop where
  state : g.state = d.grid.state
  count : g.count.1 = if d.grid.state = .listen then 0 else (d.grid.count.1 + 1) % 120
  startAt : g.startAt = d.now
  cycle0 : g.cycle0 = d.grid.cycle0 + 256
  quiet : g.quiet = if d.grid.heard = true then 0 else d.grid.quiet + 1
  heard : g.heard = false

theorem Dev.periodTurned_count (d : Dev) (q : Vector CellDiffs 6) :
    (d.periodTurned q).grid.count.1 = if d.grid.state = .listen then 0 else (d.grid.count.1 + 1) % 120 := by
  show (if d.grid.state = .listen then (0 : Fin 120)
    else if h : d.grid.count.1 + 1 < 120 then ⟨d.grid.count.1 + 1, h⟩ else 0).1 = _
  have hcount := d.grid.count.2
  split_ifs with hstate hlt
  · rfl
  · exact (Nat.mod_eq_of_lt hlt).symm
  · show 0 = (d.grid.count.1 + 1) % 120
    omega

theorem Dev.periodTurned_turned (d : Dev) (q : Vector CellDiffs 6) : d.Turned (d.periodTurned q).grid where
  state := rfl
  count := d.periodTurned_count q
  startAt := rfl
  cycle0 := rfl
  quiet := rfl
  heard := rfl

/-- What the node sends, the owner and the neighbours are no part of the turn. -/
theorem Dev.Turned.sends {g : Grid} (h : d.Turned g) (owner : Byte) (prev : Nat) (nbs : Vector Neighbour 32)
    (cells : List (Option Bool)) (tx : List GridTx) (msgNo : BitVec 4) (disc : Option (Fin 24)) :
    d.Turned { g with owner := owner, prevOwner := prev, nbs := nbs, cells := cells, tx := tx, msgNo := msgNo, disc := disc } where
  state := h.state
  count := h.count
  startAt := h.startAt
  cycle0 := h.cycle0
  quiet := h.quiet
  heard := h.heard

theorem Grid.periodOver_of {g : Grid} (h : g.cycle0 + 256 ≤ g.cycle) : g.periodOver = true := decide_eq_true h

/-- A period turns where the link runs and its 256 cycles have passed. -/
theorem Dev.gridPeriod_turns (q : Vector CellDiffs 6) (hruns : d.grid.state.runs = true) (hover : d.grid.cycle0 + 256 ≤ d.grid.cycle) :
    d.gridPeriod q =
      match (d.periodTurned q).grid.state with
      | .coordinator =>
        (if (d.periodTurned q).grid.yielding then d.periodTurned q else (d.periodTurned q).coordinate d.grid.owner).fillPeriod
          ((if (d.periodTurned q).grid.yielding then d.periodTurned q else (d.periodTurned q).coordinate d.grid.owner).grid.owner == 0 &&
            !(if (d.periodTurned q).grid.yielding then d.periodTurned q else (d.periodTurned q).coordinate d.grid.owner).grid.yielding)
      | .guarding => (d.periodTurned q).fillPeriod false
      | .member =>
        (d.periodTurned q).onGrid fun g => { g with
          disc := g.disc.bind fun r => if h : r.1 + 1 < 24 then some ⟨r.1 + 1, h⟩ else none }
      | _ => d.periodTurned q := by
  refine (if_neg ?_).trans ?_
  · rw [hruns, Grid.periodOver_of hover]
    decide
  · rfl

/-- Without a discovery the coordinator chooses the owner of its period. -/
theorem Dev.coordinate_chooses (was : Byte) (h : d.grid.disc = none) : ∃ owner prev nbs,
    d.coordinate was = d.onGrid fun g => { g with owner := owner, prevOwner := prev, nbs := nbs } := by
  unfold Dev.coordinate
  rw [h]
  extract_lets d1
  have hd1 : d1 = d := rfl
  rw [hd1, h]
  exact ⟨_, _, _, rfl⟩

/-! ### Beacons -/

theorem Dev.setCoord_grid (d : Dev) (node : BitVec 48) : (d.setCoord node).grid = { d.grid with coord := node } := by
  unfold Dev.setCoord
  split_ifs with h
  · rw [← h]
  · rw [Dev.raise_grid, Dev.onGrid_grid]

theorem Dev.readCoord_grid (d : Dev) (x : BeaconBits) : ∃ parts coord,
    (d.readCoord x).grid = { d.grid with coordParts := parts, coord := coord } := by
  unfold Dev.readCoord
  extract_lets k known kept parts part d1
  split
  · rw [Dev.setCoord_grid]
    exact ⟨parts, _, rfl⟩
  · exact ⟨parts, d.grid.coord, rfl⟩

/-- What a beacon shows of the grid link of a node that follows it. -/
structure Grid.Follows (g : Grid) (b : Nat) (x : BeaconBits) : Prop where
  state : g.state = .member
  count : g.count = x.count
  owner : g.owner = x.owner
  heard : g.heard = true
  quiet : g.quiet = 0
  cycle0 : g.cycle0 = b - 2
  coordMap : g.coordMap = x.map
  election : g.election = none
  yielding : g.yielding = false

theorem Grid.Follows.sends {g : Grid} {b : Nat} {x : BeaconBits} (h : g.Follows b x) (cells : List (Option Bool)) (tx : List GridTx)
    (msgNo : BitVec 4) : { g with cells := cells, tx := tx, msgNo := msgNo }.Follows b x where
  state := h.state
  count := h.count
  owner := h.owner
  heard := h.heard
  quiet := h.quiet
  cycle0 := h.cycle0
  coordMap := h.coordMap
  election := h.election
  yielding := h.yielding

theorem Grid.Follows.reads {g : Grid} {b : Nat} {x : BeaconBits} (h : g.Follows b x) (parts : List (Nat × BitVec 16))
    (coord : BitVec 48) : { g with coordParts := parts, coord := coord }.Follows b x where
  state := h.state
  count := h.count
  owner := h.owner
  heard := h.heard
  quiet := h.quiet
  cycle0 := h.cycle0
  coordMap := h.coordMap
  election := h.election
  yielding := h.yielding

theorem Dev.followBeacon_follows (d : Dev) (x : BeaconBits) : (d.followBeacon x).grid.Follows x.cycle x := by
  unfold Dev.followBeacon
  extract_lets r began d1
  have h1 : d1.grid.Follows x.cycle x := by
    set d0 := (d.onGrid fun g => { g with
      state := .member, yielding := false, election := none, heard := true, quiet := 0, count := x.count
      cycle0 := x.cycle - 2, began := began, owner := x.owner, coordMap := x.map
      tx := if g.state = .member then g.tx else g.tx.filter fun t => t.kind != 5
      disc := if x.owner = 0xFF then some r else none }).drew with hd0
    have h0 : d0.grid.Follows x.cycle x := ⟨rfl, rfl, rfl, rfl, rfl, rfl, rfl, rfl, rfl⟩
    obtain ⟨parts, coord, hread⟩ := d0.readCoord_grid x
    have h2 : (d0.readCoord x).grid.Follows x.cycle x := by
      rw [hread]
      exact h0.reads parts coord
    show ((d0.readCoord x).onNb 0 _).grid.Follows x.cycle x
    generalize d0.readCoord x = e at h2 ⊢
    exact ⟨h2.state, h2.count, h2.owner, h2.heard, h2.quiet, h2.cycle0, h2.coordMap, h2.election, h2.yielding⟩
  clear_value d1
  split
  · exact h1.sends _ d1.grid.tx d1.grid.msgNo
  · obtain ⟨cells, tx, msgNo, hfill⟩ := d1.fillPeriod_grid (x.owner == BitVec.ofNat 8 _)
    rw [hfill]
    exact h1.sends cells tx msgNo
  · obtain ⟨cells, tx, msgNo, hfill⟩ := d1.fillPeriod_grid false
    rw [hfill]
    exact h1.sends cells tx msgNo

theorem Dev.readBeacon_cycle {b : Beacon} {x : BeaconBits} (h : d.readBeacon b = some x) : x.cycle = b.cycle := by
  unfold Dev.readBeacon at h
  extract_lets map xs prio count part owner at h
  split_ifs at h
  rw [← Option.some.inj h]

/-- The samples that the search for a beacon blanks are counted. -/
def Dev.searched (d : Dev) (b : Beacon) : Dev :=
  d.countBlanked (d.syncDecisions b.sync ++ d.decideCells (d.findSync b.sync) b.cells.toList)

theorem Dev.searched_regsBut (d : Dev) (b : Beacon) : d.RegsBut (d.searched b) [Reg.grdBlanked] := .count .rfl (by decide)

theorem GridState.runs_of {st : GridState} (h : st = .listen ∨ st = .member ∨ st = .guarding ∨ st = .coordinator) : st.runs = true := by
  obtain rfl | rfl | rfl | rfl := h <;> rfl

theorem Dev.beaconHeard_follows {b : Beacon} {x : BeaconBits} (h : d.grid.state = .listen ∨ d.grid.state = .member ∨
      ((d.grid.state = .guarding ∨ d.grid.state = .coordinator) ∧ d.grid.yielding = true)) (hx : d.readBeacon b = some x) :
    d.beaconHeard b = (d.searched b).followBeacon x := by
  have hruns : d.grid.state.runs = true := by
    obtain h | h | ⟨h | h, -⟩ := h <;> simp [h, GridState.runs]
  refine (if_neg (by simp [hruns])).trans ?_
  rw [hx]
  obtain h | h | ⟨h | h, hy⟩ := h
  · simp only [h]
    rfl
  · simp only [h]
    rfl
  · simp only [h]
    exact if_pos hy
  · simp only [h]
    exact if_pos hy

theorem Dev.beaconHeard_rival {b : Beacon} {x : BeaconBits} (h : d.grid.state = .guarding ∨ d.grid.state = .coordinator)
    (hy : d.grid.yielding = false) (hx : d.readBeacon b = some x) : d.beaconHeard b = (d.searched b).hearRival x := by
  have hruns : d.grid.state.runs = true := by
    obtain h | h := h <;> simp [h, GridState.runs]
  refine (if_neg (by simp [hruns])).trans ?_
  rw [hx]
  obtain h | h := h
  · simp only [h]
    exact if_neg (by simp [hy])
  · simp only [h]
    exact if_neg (by simp [hy])

theorem Dev.beaconHeard_none {b : Beacon} (hruns : d.grid.state.runs = true) (hx : d.readBeacon b = none) :
    d.beaconHeard b = d.searched b := by
  refine (if_neg (by simp [hruns])).trans ?_
  rw [hx]
  rfl

/-- The first beacon of a rival is one part of three of its number: the election is not decided by it. -/
theorem Dev.hearRival_first (x : BeaconBits) (h : d.grid.election = none) : ∃ r : Election,
    d.hearRival x = (d.onGrid fun g => { g with election := some r }) ∧ r.prio = BitVec.ofNat 3 x.prio ∧ r.since = 0 ∧
      r.resume = d.grid.state := by
  unfold Dev.hearRival
  rw [h]
  extract_lets e e1
  have hparts : e1.part0 = none ∨ e1.part1 = none ∨ e1.part2 = none := by
    have hmod : x.count.1 % 3 < 3 := Nat.mod_lt _ (by decide)
    by_cases h0 : x.count.1 % 3 = 0
    · exact .inr (.inl (if_neg (by omega)))
    · exact .inl (if_neg h0)
  have hprio : e1.prio = BitVec.ofNat 3 x.prio := rfl
  have hsince : e1.since = 0 := rfl
  have hresume : e1.resume = d.grid.state := rfl
  clear_value e1
  split
  next h0 h1 h2 => obtain h | h | h := hparts <;> simp_all
  · exact ⟨e1, rfl, hprio, hsince, hresume⟩

/-! ### Networks and discovery -/

theorem Dev.beginDiscovery_shows (d : Dev) : ∃ owner cells, d.beginDiscovery = d.onGrid fun g =>
    { g with disc := some 0, answers := [], discDue := d.discEvery, owner := owner, cells := cells } := by
  unfold Dev.beginDiscovery
  extract_lets d1
  split_ifs
  · obtain ⟨cells, hfill⟩ := d1.fillPeriod_beacon
    exact ⟨_, cells, hfill⟩
  · exact ⟨_, d.grid.cells, rfl⟩

/-- The node coordinates its network. -/
def Dev.coordinates (d : Dev) : Dev :=
  (d.onGrid fun g => { g with
    state := .coordinator, index := some 0, discDue := 4, prevOwner := 0, owner := 0 }).setCoord Config.node

theorem Dev.guardDone_grid (h : d.grid.state = .guarding ∧ 48 ≤ d.grid.count.1 ∧ d.grid.yielding = false) : ∃ cells tx msgNo,
    d.guardDone.grid = { d.grid with state := .coordinator, index := some 0, discDue := 4, prevOwner := 0, owner := 0, coord := Config.node
                                     cells := cells, tx := tx, msgNo := msgNo } := by
  obtain ⟨hstate, hcount, hy⟩ := h
  have hexec : d.guardDone = if d.grid.startAt = d.now then d.coordinates.fillPeriod true else d.coordinates :=
    if_pos ⟨hstate, hcount, by simp [hy]⟩
  have hgrid := Dev.setCoord_grid (d.onGrid fun g => { g with
    state := .coordinator, index := some 0, discDue := 4, prevOwner := 0, owner := 0 }) Config.node
  rw [hexec]
  split_ifs
  · obtain ⟨cells, tx, msgNo, hfill⟩ := d.coordinates.fillPeriod_grid true
    refine ⟨cells, tx, msgNo, ?_⟩
    rw [hfill, Dev.onGrid_grid, Dev.coordinates, hgrid]
    rfl
  · exact ⟨d.grid.cells, d.grid.tx, d.grid.msgNo, hgrid⟩

/-- The samples that the search for an answer blanks are counted. -/
def Dev.answerSearched (d : Dev) (a : DiscAnswer) : Dev :=
  d.countBlanked (d.syncDecisions a.sync ++ d.decideCells (d.findSync a.sync) a.cells.toList)

theorem Dev.answerSearched_regsBut (d : Dev) (a : DiscAnswer) : d.RegsBut (d.answerSearched a) [Reg.grdBlanked] := .count .rfl (by decide)

/-- The node whose number an answer carries. -/
def Dev.answerNode (d : Dev) (a : DiscAnswer) : BitVec 48 :=
  BitVec.ofNat 48 (cellField (d.decideCells (d.findSync a.sync) a.cells.toList) 0 48)

/-- An answer is kept: whole, of another node, and at a coordinator in its slot. -/
def Dev.answerTaken (d : Dev) (a : DiscAnswer) (r : Fin 24) : Prop :=
  mapWhole (d.findSync a.sync) ∧
    cellField (d.decideCells (d.findSync a.sync) a.cells.toList) 48 16 = discCrc (d.answerNode a) ∧ d.answerNode a ≠ Config.node ∧
    (d.grid.state = .coordinator → discSlot (d.answerNode a) r.1 = a.slot.1)

theorem Dev.answerHeard_taken {a : DiscAnswer} {r : Fin 24} (hdisc : d.grid.disc = some r) (howner : d.grid.owner = 0xFF)
    (h : d.answerTaken a r) : ∃ nbs, d.answerHeard a = (d.answerSearched a).onGrid fun g => { g with
      answers := (d.answerNode a, d.findSync a.sync) :: g.answers.filter fun x => x.1 != d.answerNode a
      nbs := nbs } := by
  unfold Dev.answerHeard
  rw [hdisc]
  exact ⟨_, (if_neg (by simp [howner])).trans (if_pos h)⟩

theorem Dev.answerHeard_missed {a : DiscAnswer} {r : Fin 24} (hdisc : d.grid.disc = some r) (howner : d.grid.owner = 0xFF)
    (h : ¬d.answerTaken a r) : d.answerHeard a = d.answerSearched a := by
  unfold Dev.answerHeard
  rw [hdisc]
  exact (if_neg (by simp [howner])).trans (if_neg h)

end

end Sys2Proof.Machine
end


section
/-! The rules of the grid link's periods, beacons and discovery. -/

namespace Sys2Proof.Machine

set_option Elab.async false

/-- Settles O46: a turned period, a followed beacon and a begun discovery are each read once, whatever is sent in them. -/
theorem gridRules : Obligations.GridRules := by
  unfold Obligations.GridRules
  refine ⟨?listens, ?member, ?guarding, ?coordinator, ?noPeriod, ?followed, ?rival, ?notDecoded, ?linkOff, ?electionOver,
    ?electionReads, ?network, ?listensOn, ?lost, ?notLost, ?guardOver, ?guards, ?discovery, ?noDiscovery, ?answer, ?answerMissed,
    ?noRound, ?discover, ?discoverIdle, ?restart, ?restartOff, ?notRecording⟩
  case listens =>
    intro s q hstate hover
    have hexec := Dev.gridPeriod_turns q (GridState.runs_of (.inl hstate)) hover
    have ht := s.dev.periodTurned_turned q
    rw [ht.state, hstate] at hexec
    have hkeeps : s.dev.Keeps (s.dev.periodTurned q) [.grid] := .onGrid (.onGrid .rfl)
    refine .of_eq (exec_gridPeriodStart q s) hexec ⟨ht.state.trans hstate, ht.count.trans (if_pos hstate), ht.startAt, ht.cycle0,
      ht.quiet, rfl, ht.heard, hkeeps.settled⟩
  case member =>
    intro s q hstate hover
    have hexec := Dev.gridPeriod_turns q (GridState.runs_of (.inr (.inl hstate))) hover
    have ht := s.dev.periodTurned_turned q
    rw [ht.state, hstate] at hexec
    have hkeeps : s.dev.Keeps (s.dev.periodTurned q) [.grid] := .onGrid (.onGrid .rfl)
    refine .of_eq (exec_gridPeriodStart q s) hexec ⟨ht.state.trans hstate, ht.count.trans (if_neg (by simp [hstate])), ht.startAt,
      ht.cycle0, ht.quiet, rfl, ht.heard, .settled (.onGrid hkeeps)⟩
  case guarding =>
    intro s q hstate hover
    have hexec := Dev.gridPeriod_turns q (GridState.runs_of (.inr (.inr (.inl hstate)))) hover
    have ht := s.dev.periodTurned_turned q
    rw [ht.state, hstate] at hexec
    have hkeeps : s.dev.Keeps (s.dev.periodTurned q) [.grid] := .onGrid (.onGrid .rfl)
    obtain ⟨cells, hfill⟩ := (s.dev.periodTurned q).fillPeriod_beacon
    refine .of_eq (exec_gridPeriodStart q s) (hexec.trans hfill) ⟨ht.state.trans hstate, ht.count.trans (if_neg (by simp [hstate])),
      ht.startAt, ht.cycle0, ht.quiet, rfl, ht.heard, .settled (.onGrid hkeeps)⟩
  case coordinator =>
    intro s q hstate hdisc hover
    have hexec := Dev.gridPeriod_turns q (GridState.runs_of (.inr (.inr (.inr hstate)))) hover
    have ht := s.dev.periodTurned_turned q
    rw [ht.state, hstate] at hexec
    have hkeeps : s.dev.Keeps (s.dev.periodTurned q) [.grid] := .onGrid (.onGrid .rfl)
    obtain ⟨owner, prev, nbs, hchoose⟩ := Dev.coordinate_chooses (d := s.dev.periodTurned q) s.dev.grid.owner hdisc
    have hpre : s.dev.Turned (if (s.dev.periodTurned q).grid.yielding then s.dev.periodTurned q
          else (s.dev.periodTurned q).coordinate s.dev.grid.owner).grid ∧
        s.dev.Keeps (if (s.dev.periodTurned q).grid.yielding then s.dev.periodTurned q
          else (s.dev.periodTurned q).coordinate s.dev.grid.owner) [.grid] := by
      rw [hchoose]
      split_ifs
      · exact ⟨ht, hkeeps⟩
      · exact ⟨ht.sends owner prev nbs _ _ _ _, .onGrid hkeeps⟩
    generalize (if (s.dev.periodTurned q).grid.yielding then s.dev.periodTurned q
          else (s.dev.periodTurned q).coordinate s.dev.grid.owner) = e at *
    obtain ⟨hturned, hkept⟩ := hpre
    obtain ⟨cells, tx, msgNo, hfill⟩ := e.fillPeriod_grid (e.grid.owner == 0 && !e.grid.yielding)
    refine .of_eq (exec_gridPeriodStart q s) (hexec.trans hfill) ⟨hturned.state.trans hstate,
      hturned.count.trans (if_neg (by simp [hstate])), hturned.startAt, hturned.cycle0, hturned.quiet, hturned.heard,
      .settled (.onGrid hkept)⟩
  case noPeriod =>
    intro s q h
    refine .idle (exec_gridPeriodStart q s) (if_pos ?_)
    obtain h | h | h := h
    · simp [h, GridState.runs]
    · simp [h, GridState.runs]
    · exact .inr (by simpa [Grid.periodOver] using h)
  case followed =>
    intro s b x hstate hx
    have hfollows := (s.dev.searched b).followBeacon_follows x
    rw [s.dev.readBeacon_cycle hx] at hfollows
    refine .of_eq (exec_beaconDecoded b s) (Dev.beaconHeard_follows hstate hx) ?_
    rw [Dev.settled_grid]
    exact ⟨hfollows.state, hfollows.count, hfollows.owner, hfollows.heard, hfollows.quiet, hfollows.cycle0, hfollows.coordMap,
      hfollows.election, hfollows.yielding⟩
  case rival =>
    intro s b x hstate hy helection hx
    obtain ⟨r, hrival, hprio, hsince, hresume⟩ := (s.dev.searched b).hearRival_first x helection
    have hregs := s.dev.searched_regsBut b
    refine .of_eq (exec_beaconDecoded b s) ((Dev.beaconHeard_rival hstate hy hx).trans hrival) ⟨rfl, rfl, ?_, .settled (.onGrid hregs)⟩
    show some (r.prio.toNat, r.since, r.resume) = _
    rw [hprio, hsince, hresume, BitVec.toNat_ofNat]
    rfl
  case notDecoded =>
    intro s b hx
    cases hruns : s.dev.grid.state.runs
    · exact .of_eq (exec_beaconDecoded b s) (if_pos (by simp [hruns])) ⟨rfl, .settled .rfl⟩
    · exact .of_eq (exec_beaconDecoded b s) (Dev.beaconHeard_none hruns hx) ⟨rfl, .settled (s.dev.searched_regsBut b)⟩
  case linkOff =>
    intro s b h
    refine .idle (exec_beaconDecoded b s) (if_pos ?_)
    obtain h | h := h
    · simp [h, GridState.runs]
    · simp [h, GridState.runs]
  case electionOver =>
    intro s x helection hsince
    refine .of_eq (e := s.dev.onGrid fun g => { g with election := none, state := x.resume }) (exec_electionReadTimeout s) ?_
      ⟨rfl, .settled (.onGrid .rfl)⟩
    simp only [helection]
    exact if_pos hsince
  case electionReads =>
    intro s h
    refine .idle (exec_electionReadTimeout s) ?_
    cases helection : s.dev.grid.election with
    | none => rfl
    | some x => exact if_neg fun hsince => h (by simp [helection, hsince])
  case network =>
    intro s hstate htx hquiet
    obtain ⟨cells, hfill⟩ := (s.dev.onGrid fun g => { g.leave .guarding with msgNo := g.msgNo }).fillPeriod_beacon
    exact .of_eq (exec_gridListenExpiry s) ((if_pos ⟨hstate, htx, hquiet⟩).trans hfill)
      ⟨rfl, rfl, rfl, rfl, rfl, .settled (.onGrid (.onGrid .rfl))⟩
  case listensOn =>
    intro s h
    refine .idle (exec_gridListenExpiry s) (if_neg ?_)
    rintro ⟨hstate, htx, hquiet⟩
    obtain h | h | h := h
    · exact h hstate
    · exact Bool.noConfusion (h.symm.trans htx)
    · exact absurd hquiet (Nat.not_le.mpr h)
  case lost =>
    intro s hstate hquiet
    refine .of_eq (exec_beaconLoss s) (if_pos ⟨hstate, hquiet⟩) ?_
    rw [Dev.settled_grid, Dev.raise_grid]
    exact ⟨rfl, rfl, rfl, rfl, rfl, Dev.settled_raise_bit _ .grd _ _ (by decide), .settled (.raise (.onGrid .rfl) (by decide))⟩
  case notLost =>
    intro s h
    refine .idle (exec_beaconLoss s) (if_neg ?_)
    rintro ⟨hstate, hquiet⟩
    obtain h | h := h
    · exact h hstate
    · exact absurd hquiet (Nat.not_le.mpr h)
  case guardOver =>
    intro s hstate hcount hy
    obtain ⟨cells, tx, msgNo, hgrid⟩ := Dev.guardDone_grid ⟨hstate, hcount, hy⟩
    refine .of_eq (exec_guardEnd s) rfl ?_
    rw [Dev.settled_grid, hgrid]
    exact ⟨rfl, rfl, rfl, rfl, rfl⟩
  case guards =>
    intro s h
    refine .idle (exec_guardEnd s) (if_neg ?_)
    rintro ⟨hstate, hcount, hy⟩
    obtain h | h | h := h
    · exact h hstate
    · exact absurd hcount (Nat.not_le.mpr h)
    · simp [h] at hy
  case discovery =>
    intro s hstate hdisc hy hdue
    obtain ⟨owner, cells, hbegin⟩ := s.dev.beginDiscovery_shows
    exact .of_eq (exec_discoveryStart s) ((if_pos ⟨hstate, by simp [hdisc], hdue, by simp [hy]⟩).trans hbegin)
      ⟨rfl, rfl, rfl, .settled (.onGrid .rfl)⟩
  case noDiscovery =>
    intro s h
    refine .idle (exec_discoveryStart s) (if_neg ?_)
    rintro ⟨hstate, hdisc, hdue, hy⟩
    obtain h | h | h | h := h
    · exact h hstate
    · simp [Option.isNone_iff_eq_none.mp hdisc] at h
    · simp [h] at hy
    · exact h hdue
  case answer =>
    intro s a r m xs node hdisc howner hm hxs hwhole hnode hcrc hstate hslot
    subst hm hxs
    have hnode' : s.dev.answerNode a = node := by
      rw [Dev.answerNode, hnode, BitVec.ofNat_toNat, BitVec.setWidth_eq]
    have hregs := s.dev.answerSearched_regsBut a
    by_cases hself : node = Config.node
    · have hexec : s.dev.answerHeard a = s.dev.answerSearched a :=
        Dev.answerHeard_missed hdisc howner fun ⟨_, _, hother, _⟩ => hother (hnode'.trans hself)
      obtain ⟨t, ht, hpending, -, hP⟩ := Completes.of_eq (P := fun e => s.dev.RegsBut e [Reg.grdBlanked] ∧ e.grid = s.dev.grid)
        (exec_discoveryAnswerRx a s) hexec ⟨.settled hregs, rfl⟩
      exact ⟨t, ht, hpending, hP.1, fun h => absurd hself h, fun _ => hP.2⟩
    · obtain ⟨nbs, hexec⟩ := Dev.answerHeard_taken hdisc howner
        (show s.dev.answerTaken a r from ⟨hwhole, by rw [hnode', hcrc], by rwa [hnode'], fun _ => by rw [hnode', hslot]⟩)
      rw [hnode'] at hexec
      obtain ⟨t, ht, hpending, -, hP⟩ := Completes.of_eq (P := fun e => s.dev.RegsBut e [Reg.grdBlanked] ∧
          e.grid.answers = (node, s.dev.findSync a.sync) :: s.dev.grid.answers.filter (fun x => x.1 != node))
        (exec_discoveryAnswerRx a s) hexec ⟨.settled (.onGrid hregs), rfl⟩
      exact ⟨t, ht, hpending, hP.1, fun _ => hP.2, fun h => absurd h hself⟩
  case answerMissed =>
    intro s a r m xs hdisc howner hm hxs h
    subst hm hxs
    refine .of_eq (exec_discoveryAnswerRx a s) (Dev.answerHeard_missed hdisc howner ?_)
      ⟨rfl, .settled (s.dev.answerSearched_regsBut a)⟩
    rintro ⟨hwhole, hcrc, -, hslot⟩
    obtain h | h | ⟨hstate, h⟩ := h
    · exact Bool.noConfusion (h.symm.trans hwhole)
    · exact h hcrc
    · exact h (hslot hstate)
  case noRound =>
    intro s a h
    refine .idle (exec_discoveryAnswerRx a s) ?_
    unfold Dev.answerHeard
    obtain h | h := h
    · rw [h]
    · cases s.dev.grid.disc with
      | none => rfl
      | some r => exact if_pos h
  case discover =>
    intro s hrec hstate hdisc hy
    obtain ⟨owner, cells, hbegin⟩ := (s.dev.setReg Reg.grdCmd 1).beginDiscovery_shows
    have hevery : (s.dev.setReg Reg.grdCmd 1).discEvery = s.dev.discEvery := by
      have hreg : (s.dev.setReg Reg.grdCmd 1).reg Reg.grdXDisc = s.dev.reg Reg.grdXDisc :=
        (Dev.setReg_reg _ _ _ _).trans (if_neg (by decide))
      unfold Dev.discEvery Dev.settingField Dev.setting
      rw [hreg]
      rfl
    refine .of_eq (exec_grdDiscover s) ((Dev.gw_of_recording _ _ _ hrec).trans
      ((if_pos ⟨hstate, by simp [hdisc], by simp [hy]⟩).trans hbegin)) ⟨rfl, rfl, hevery, ?_, .settled (.onGrid (.setReg .rfl (by decide)))⟩
    rw [Dev.settled_reg, Dev.onGrid_reg, Dev.setReg_reg, if_pos rfl]
  case discoverIdle =>
    intro s hrec h
    refine .of_eq (exec_grdDiscover s) ((Dev.gw_of_recording _ _ _ hrec).trans (if_neg ?_))
      ⟨rfl, ?_, .settled (.setReg .rfl (by decide))⟩
    · rintro ⟨hstate, hdisc, hy⟩
      have hnone : s.dev.grid.disc = none := Option.isNone_iff_eq_none.mp hdisc
      have hon : (!s.dev.grid.yielding) = true := hy
      obtain h | h | h := h
      · exact h hstate
      · simp [hnone] at h
      · simp [h] at hon
    · rw [Dev.settled_reg, Dev.setReg_reg, if_pos rfl]
  case restart =>
    intro s hrec hruns
    refine .of_eq (exec_grdRestart s) ((Dev.gw_of_recording _ _ _ hrec).trans (if_pos hruns))
      ⟨rfl, rfl, rfl, rfl, rfl, ?_, .settled (.onGrid (.setReg .rfl (by decide)))⟩
    rw [Dev.settled_reg, Dev.onGrid_reg, Dev.setReg_reg, if_pos rfl]
  case restartOff =>
    intro s hrec hruns
    refine .of_eq (exec_grdRestart s) ((Dev.gw_of_recording _ _ _ hrec).trans (if_neg (by simp [hruns])))
      ⟨rfl, ?_, .settled (.setReg .rfl (by decide))⟩
    rw [Dev.settled_reg, Dev.setReg_reg, if_pos rfl]
  case notRecording =>
    intro s c hrec hc
    rw [List.mem_cons, List.mem_singleton] at hc
    obtain rfl | rfl := hc
    · exact .idle (exec_grdDiscover s) (Dev.gw_idle _ _ _ hrec)
    · exact .idle (exec_grdRestart s) (Dev.gw_idle _ _ _ hrec)

end Sys2Proof.Machine
end


section
/-! SUPPORT. Segments and messages of the grid link (R384 to R393). -/

namespace Sys2Proof.Machine

set_option Elab.async false

section
variable {d : Dev} {n : Fin 32} {g : Segment} {h : Nat} {p : List Byte} {xs : List Decision} {m : GridMsg}

/-! ### A segment heard -/

/-- A good segment is counted and its sender's level kept. -/
def Dev.segmentKept (d : Dev) (n : Fin 32) (xs : List Decision) (h : Nat) : Dev :=
  ((d.countBlanked xs).count Reg.grdRxOk).onNb n fun x =>
    if x.valid then { x with level := levelOf xs, age := 0, pending := h % 2 == 1 } else x

theorem Dev.segmentKept_msgs (d : Dev) (n : Fin 32) (xs : List Decision) (h : Nat) :
    (d.segmentKept n xs h).grid.msgs = d.grid.msgs := rfl

theorem Dev.segmentKept_began (d : Dev) (n : Fin 32) (xs : List Decision) (h : Nat) :
    (d.segmentKept n xs h).grid.began = d.grid.began := rfl

theorem Dev.segmentKept_regsBut (d : Dev) (n : Fin 32) (xs : List Decision) (h : Nat) :
    d.RegsBut (d.segmentKept n xs h) [Reg.grdRxOk, Reg.grdBlanked] := by
  have hcount : d.RegsBut ((d.countBlanked xs).count Reg.grdRxOk) [Reg.grdRxOk, Reg.grdBlanked] :=
    .count (.count .rfl (by decide)) (by decide)
  exact hcount.onGrid

theorem Dev.segmentKept_counted (d : Dev) (n : Fin 32) (xs : List Decision) (h : Nat) :
    (d.segmentKept n xs h).reg Reg.grdRxOk = satWord ((d.reg Reg.grdRxOk).toNat + 1) := by
  have hblanked : (d.countBlanked xs).reg Reg.grdRxOk = d.reg Reg.grdRxOk :=
    (Dev.count_reg _ _ _ _).trans (if_neg (by decide))
  show ((d.countBlanked xs).count Reg.grdRxOk).reg Reg.grdRxOk = _
  rw [Dev.count_reg, if_pos rfl, hblanked]

/-- A segment that fails its CRC is counted. -/
def Dev.segmentBad (d : Dev) (xs : List Decision) : Dev := (d.countBlanked xs).count Reg.grdRxBad

theorem Dev.segmentBad_counted (d : Dev) (xs : List Decision) :
    (d.segmentBad xs).reg Reg.grdRxBad = satWord ((d.reg Reg.grdRxBad).toNat + 1) := by
  have hblanked : (d.countBlanked xs).reg Reg.grdRxBad = d.reg Reg.grdRxBad :=
    (Dev.count_reg _ _ _ _).trans (if_neg (by decide))
  rw [Dev.segmentBad, Dev.count_reg, if_pos rfl, hblanked]

theorem Dev.segmentHeard_good (hruns : d.grid.state.runs = true) (hsender : d.grid.sender = some n)
    (hxs : d.decideCells (d.grid.mapOf n) g.toList = xs) (hh : cellField xs 0 16 = h)
    (hp : (List.range 37).map (fun i => BitVec.ofNat 8 (cellField xs (16 + 8 * i) 8)) = p)
    (hcrc : cellField xs 312 16 = crc16 (bytesBE 2 h ++ p)) : d.segmentHeard g = (d.segmentKept n xs h).takeSegment n h p := by
  subst hh hp hxs
  unfold Dev.segmentHeard
  rw [hsender]
  exact (if_neg (by simp [hruns])).trans (if_neg fun hne => hne hcrc)

theorem Dev.segmentHeard_bad (hruns : d.grid.state.runs = true) (hsender : d.grid.sender = some n)
    (hxs : d.decideCells (d.grid.mapOf n) g.toList = xs) (hh : cellField xs 0 16 = h)
    (hp : (List.range 37).map (fun i => BitVec.ofNat 8 (cellField xs (16 + 8 * i) 8)) = p)
    (hcrc : cellField xs 312 16 ≠ crc16 (bytesBE 2 h ++ p)) (hm : (d.grid.msgs.find? fun m => m.sender == n && !m.done) = some m) :
    d.segmentHeard g = (d.segmentBad xs).badMsg m := by
  subst hh hp hxs
  unfold Dev.segmentHeard
  rw [hsender]
  refine (if_neg (by simp [hruns])).trans ((if_pos hcrc).trans ?_)
  rw [hm]
  rfl

/-! ### Its sender's message -/

theorem Dev.takeSegment_begins (hm : (d.grid.msgs.find? fun m => m.sender == n && !m.done) = none) (hkind : h / 2 ^ 13 = 1)
    (hno : h / 4 % 128 = 0) : d.takeSegment n h p = d.onGrid fun g => { g with
      msgs := g.msgs ++ [{ sender := n, kind := 1, msg := BitVec.ofNat 4 (h / 2 ^ 9), next := 1, bytes := p, done := (h / 2 % 2 == 1)
                           idle := 0, start := d.grid.began }] } := by
  unfold Dev.takeSegment
  extract_lets kind msg no last begun fresh
  have hk : kind = 1 := hkind
  rw [hm]
  refine (if_pos ⟨hno, by omega, .inr (.inl hk)⟩).trans ?_
  unfold begun
  rw [hk]

theorem Dev.takeSegment_next (hm : (d.grid.msgs.find? fun m => m.sender == n && !m.done) = some m) (hmsg : m.msg = BitVec.ofNat 4 (h / 2 ^ 9))
    (hnext : m.next = h / 4 % 128) (hkind : m.kind = 1) : d.takeSegment n h p = (d.dropMsg m).onGrid fun g => { g with
      msgs := g.msgs ++ [{ m with next := m.next + 1, bytes := m.bytes ++ p, done := (h / 2 % 2 == 1), idle := 0
                                  start := d.grid.began }] } := by
  unfold Dev.takeSegment
  extract_lets kind msg no last begun fresh
  have hin : ¬(last && !([1, 2, 3, 5].contains m.kind)) = true := by simp [hkind]
  rw [hm]
  refine (if_neg fun h => h.elim (fun h => h hmsg) fun h => h hnext).trans ((if_neg hin).trans ?_)
  rw [hnext]

theorem Dev.takeSegment_outOfTurn (hm : (d.grid.msgs.find? fun m => m.sender == n && !m.done) = some m)
    (hturn : m.msg ≠ BitVec.ofNat 4 (h / 2 ^ 9) ∨ m.next ≠ h / 4 % 128) (hno : h / 4 % 128 ≠ 0) : d.takeSegment n h p = d.badMsg m := by
  unfold Dev.takeSegment
  rw [hm]
  exact (if_pos hturn).trans (if_neg fun h => hno h.1)

/-- The only message is that of its sender, under assembly. -/
theorem findAssembled_single (hsender : m.sender = n) (hdone : m.done = false) :
    ([m].find? fun m => m.sender == n && !m.done) = some m := by
  simp [hsender, hdone]

theorem Dev.badMsg_grid (d : Dev) (m : GridMsg) : (d.badMsg m).grid = { d.grid with msgs := d.grid.msgs.erase m } := by
  rw [Dev.badMsg, Dev.raise_grid]
  rfl

theorem Dev.badMsg_bit (d : Dev) (m : GridMsg) : (d.badMsg m).bit Reg.grdEvents 1 = true := Dev.raise_bit _ .grd _ _ (by decide)

theorem Dev.badMsg_reg (d : Dev) (m : GridMsg) {a : Nat} (ha : a ≠ Reg.grdEvents) : (d.badMsg m).reg a = d.reg a :=
  (Dev.raise_reg _ _ _ _ _ _).trans (if_neg ha)

theorem Dev.RegsBut.badMsg {c : Dev} {as : List Nat} (h : c.RegsBut d as) (m : GridMsg) (ha : Reg.grdEvents ∈ as) : c.RegsBut (d.badMsg m) as :=
  .raise (r := .grd) (.onGrid h) ha

/-! ### What a message is handed to -/

/-- A covered request is due with its rank. -/
theorem Dev.request_dues (u : CryptoUse) (cls : CryptoClass) (ops : List CryptoOp) (rank : Nat) :
    (d.request u cls ops true rank).sec.dues =
      d.sec.dues ++ [{ use := u, at? := d.now + allowance cls ops, rank := rank, overrun := false }] := by
  unfold Dev.request
  extract_lets r d1
  have h1 : d1.sec.dues = d.sec.dues ++ [{ use := u, at? := d.now + allowance cls ops, rank := rank, overrun := false }] := rfl
  clear_value d1 r
  split_ifs
  · exact h1
  · rw [Dev.raise_sec]
    exact h1

theorem Dev.admitObject_due (path : ObjectPath) (b : List Byte) (poisoned : Bool) :
    ((d.admitObject path b poisoned).sec.dues.any fun x => decide (x.use = .object path ∧ x.rank = pathRank path)) = true := by
  unfold Dev.admitObject
  split_ifs
  · rw [Dev.request_dues]
    simp
  · show ((d.sec.dues ++ [_]).any _) = true
    simp

theorem Dev.admitObject_gridObj (path : ObjectPath) (b : List Byte) (poisoned : Bool) :
    (d.admitObject path b poisoned).sec.gridObj = d.sec.gridObj := by
  unfold Dev.admitObject
  split_ifs
  · obtain ⟨queue, outside, dues, hsec⟩ := Dev.request_sec (d := d) (u := .object path) (cls := .legal)
      (ops := [hashOp b.length, verifyOp (objAlg b)]) (covered := true) (rank := pathRank path)
    rw [hsec]
  · rfl

/-- An OBJECT leaves the messages and is held under verification. -/
def Dev.objectTaken (d : Dev) (m : GridMsg) : Dev :=
  (((d.dropMsg m).onSec fun s => { s with
    gridObj := some (m.bytes.take (40 + objLen m.bytes + sigLen (objAlg m.bytes)), m.start) }).countField Reg.grdMsgCnt 16 16).raise .grd 0

theorem Dev.objectTaken_shows (d : Dev) (m : GridMsg) :
    (d.objectTaken m).sec.gridObj = some (m.bytes.take (40 + objLen m.bytes + sigLen (objAlg m.bytes)), m.start) ∧
      (d.objectTaken m).grid.msgs = d.grid.msgs.erase m ∧ (d.objectTaken m).bit Reg.grdEvents 0 = true :=
  ⟨by rw [Dev.objectTaken, Dev.raise_sec]; rfl, by rw [Dev.objectTaken, Dev.raise_grid]; rfl, Dev.raise_bit _ .grd _ _ (by decide)⟩

theorem Dev.gridObject_taken (hm : d.gridDone n 1 = some m) (hobj : d.sec.gridObj = none) : d.gridObject n =
    (d.objectTaken m).admitObject .grid (m.bytes.take (40 + objLen m.bytes + sigLen (objAlg m.bytes))) false := by
  unfold Dev.gridObject
  rw [hm]
  exact if_neg (by simp [hobj])

theorem Dev.gridPiece_dropped (hm : d.gridDone n 2 = some m) (hfull : 4 ≤ d.upd.gridPieces.length) :
    d.gridPiece n = ((d.dropMsg m).countField Reg.grdDrop 16 16).raise .grd 6 := by
  unfold Dev.gridPiece
  rw [hm]
  exact if_pos hfull

/-- A PIECE joins those of update intake. -/
theorem Dev.gridPiece_taken (hm : d.gridDone n 2 = some m) (hroom : d.upd.gridPieces.length < 4) :
    (d.gridPiece n).upd.gridPieces = d.upd.gridPieces ++
        [{ index := fieldBE m.bytes 0 4, data := slice m.bytes 4 256, tag := slice m.bytes 260 32 }] ∧
      (d.gridPiece n).grid.msgs = d.grid.msgs.erase m := by
  unfold Dev.gridPiece
  rw [hm]
  dsimp only
  rw [if_neg (Nat.not_le.mpr hroom)]
  split_ifs
  · rw [(Dev.request_keeps _ _ _ _ _ _).upd, (Dev.request_keeps _ _ _ _ _ _).grid]
    exact ⟨rfl, rfl⟩
  · exact ⟨rfl, rfl⟩

theorem Dev.takeChallenge_first (challenge : List Byte) (hchal : d.sec.gridChal = none) (htx : d.grid.tx = []) :
    d.takeChallenge challenge = (d.onSec fun s => { s with gridChal := some (challenge, BitVec.ofNat 8 d.mode.code) }).request
      .attestGrid .legal attestOps true := by
  unfold Dev.takeChallenge
  extract_lets unsent d1
  have hd1 : d1 = d := if_neg (by simp [unsent, hchal, htx])
  rw [hd1]

/-- The step of GRID_CHALLENGE_RX. -/
def Dev.gridChallenge (d : Dev) (n : Fin 32) : Dev :=
  match d.gridDone n 3 with
  | some m =>
    if fieldBE m.bytes 0 6 = Config.node.toNat ∧ d.txOk then (d.dropMsg m).takeChallenge (slice m.bytes 6 32) else d.dropMsg m
  | none => d

theorem exec_gridChallenge (n : Fin 32) (s : State) : exec (.gridChallengeRx n) s = s.upd fun d => d.gridChallenge n := rfl

theorem Dev.gridChallenge_aside (hm : d.gridDone n 3 = some m) (h : fieldBE m.bytes 0 6 ≠ Config.node.toNat ∨ d.txOk = false) :
    d.gridChallenge n = d.dropMsg m := by
  unfold Dev.gridChallenge
  rw [hm]
  refine if_neg ?_
  rintro ⟨hnode, htx⟩
  obtain h | h := h
  · exact h hnode
  · exact Bool.noConfusion (h.symm.trans htx)

/-- A challenge for this node where none is at hand: it is held, and its answer is under work. -/
theorem Dev.gridChallenge_taken (hm : d.gridDone n 3 = some m) (hnode : fieldBE m.bytes 0 6 = Config.node.toNat) (htx : d.txOk = true)
    (hchal : d.sec.gridChal = none) (hempty : d.grid.tx = []) :
    (d.gridChallenge n).sec.gridChal = some (slice m.bytes 6 32, BitVec.ofNat 8 d.mode.code) ∧
      (d.gridChallenge n).sec.working .attestGrid = true ∧ (d.gridChallenge n).grid.msgs = d.grid.msgs.erase m := by
  have hexec : d.gridChallenge n = ((d.dropMsg m).onSec fun s => { s with
      gridChal := some (slice m.bytes 6 32, BitVec.ofNat 8 (d.dropMsg m).mode.code) }).request .attestGrid .legal attestOps true := by
    unfold Dev.gridChallenge
    rw [hm]
    exact (if_pos ⟨hnode, htx⟩).trans (Dev.takeChallenge_first (d := d.dropMsg m) _ hchal hempty)
  rw [hexec]
  refine ⟨?_, Dev.request_working _ _ _ _ _ _, ?_⟩
  · obtain ⟨queue, outside, dues, hsec⟩ := Dev.request_sec (d := (d.dropMsg m).onSec fun s => { s with
      gridChal := some (slice m.bytes 6 32, BitVec.ofNat 8 (d.dropMsg m).mode.code) }) (u := .attestGrid) (cls := .legal)
      (ops := attestOps) (covered := true) (rank := 640)
    rw [hsec]
    rfl
  · rw [(Dev.request_keeps _ _ _ _ _ _).grid]
    rfl

/-- A TABLE in force leaves the messages. -/
theorem Dev.gridTable_taken (hm : d.gridDone n 5 = some m) (hstate : d.grid.state = .member) (hlo : 1 ≤ fieldBE m.bytes 0 1)
    (hhi : fieldBE m.bytes 0 1 ≤ 32) (hlen : 1 + 6 * fieldBE m.bytes 0 1 ≤ m.bytes.length) :
    (d.gridTable n).grid.table = (List.range (fieldBE m.bytes 0 1)).map (fun i => BitVec.ofNat 48 (fieldBE m.bytes (1 + 6 * i) 6)) ∧
      (d.gridTable n).grid.coord = BitVec.ofNat 48 (fieldBE m.bytes 1 6) ∧ (d.gridTable n).grid.msgs = d.grid.msgs.erase m := by
  obtain ⟨k, hk⟩ : ∃ k, fieldBE m.bytes 0 1 = k + 1 := ⟨_, (Nat.sub_add_cancel hlo).symm⟩
  have hhead : ((List.range (fieldBE m.bytes 0 1)).map fun i => BitVec.ofNat 48 (fieldBE m.bytes (1 + 6 * i) 6)).headD 0 =
      BitVec.ofNat 48 (fieldBE m.bytes 1 6) := by
    rw [hk, List.range_succ_eq_map]
    rfl
  unfold Dev.gridTable
  rw [hm]
  dsimp only
  rw [if_neg (by rintro (h | h | h | h); exacts [h hstate, by omega, by omega, by omega]), hhead, Dev.setCoord_grid]
  exact ⟨rfl, rfl, rfl⟩

theorem Dev.gridTable_dropped (hm : d.gridDone n 5 = some m) (h : d.grid.state ≠ .member ∨ fieldBE m.bytes 0 1 = 0 ∨
    32 < fieldBE m.bytes 0 1 ∨ m.bytes.length < 1 + 6 * fieldBE m.bytes 0 1) : d.gridTable n = d.dropMsg m := by
  unfold Dev.gridTable
  rw [hm]
  exact if_pos h

end

end Sys2Proof.Machine
end


section
/-! Segments and messages of the grid link. -/

namespace Sys2Proof.Machine

set_option Elab.async false

/-- Settles O47: a segment is decided once, and then begins, continues or discards its sender's message; each message is handed on once. -/
theorem gridMessages : Obligations.GridMessages := by
  unfold Obligations.GridMessages
  refine ⟨?begins, ?next, ?outOfTurn, ?badCrc, ?notHeard, ?timeout, ?inTime, ?object, ?noObject, ?piece, ?pieceDropped, ?challenge,
    ?challengeSilent, ?table, ?tableDropped, ?nothing⟩
  case begins =>
    intro s n g h p xs hruns hsender hxs hh hp hcrc hnone hkind hno
    have hexec := Dev.segmentHeard_good hruns hsender hxs hh hp hcrc
    have hmsgs := s.dev.segmentKept_msgs n xs h
    have hbegan := s.dev.segmentKept_began n xs h
    have hregs := s.dev.segmentKept_regsBut n xs h
    have hcount := s.dev.segmentKept_counted n xs h
    generalize s.dev.segmentKept n xs h = e at *
    refine .of_eq (exec_gridSegmentRx g s) (hexec.trans (Dev.takeSegment_begins (by rw [hmsgs, hnone]) hkind hno))
      ⟨?_, ?_, .settled (.onGrid hregs)⟩
    · rw [Dev.settled_grid, Dev.onGrid_grid, ← hbegan, ← hmsgs]
    · rw [Dev.settled_reg, Dev.onGrid_reg, hcount]
  case next =>
    intro s n g h p xs m hruns hsender hxs hh hp hcrc hsingle hm hdone hmsg hnext hkind
    have hexec := Dev.segmentHeard_good hruns hsender hxs hh hp hcrc
    have hmsgs := s.dev.segmentKept_msgs n xs h
    have hbegan := s.dev.segmentKept_began n xs h
    have hregs := s.dev.segmentKept_regsBut n xs h
    generalize s.dev.segmentKept n xs h = e at *
    refine .of_eq (exec_gridSegmentRx g s) (hexec.trans
      (Dev.takeSegment_next (by rw [hmsgs, hsingle, findAssembled_single hm hdone]) hmsg hnext hkind))
      ⟨?_, .settled (.onGrid (.onGrid hregs))⟩
    rw [Dev.settled_grid, Dev.onGrid_grid, Dev.dropMsg, Dev.onGrid_grid, hmsgs, hsingle, List.erase_cons_head, ← hbegan]
    rfl
  case outOfTurn =>
    intro s n g h p xs m hruns hsender hxs hh hp hcrc hsingle hm hdone hturn hno
    have hexec := Dev.segmentHeard_good hruns hsender hxs hh hp hcrc
    have hmsgs := s.dev.segmentKept_msgs n xs h
    have hregs : s.dev.RegsBut (s.dev.segmentKept n xs h) [Reg.grdRxOk, Reg.grdBlanked, Reg.grdEvents] :=
      fun a ha => s.dev.segmentKept_regsBut n xs h a fun h => ha (List.mem_append_left [Reg.grdEvents] h)
    generalize s.dev.segmentKept n xs h = e at *
    refine .of_eq (exec_gridSegmentRx g s) (hexec.trans
      (Dev.takeSegment_outOfTurn (by rw [hmsgs, hsingle, findAssembled_single hm hdone]) hturn hno)) ⟨?_, ?_, .settled (.badMsg hregs m (by simp))⟩
    · rw [Dev.settled_grid, Dev.badMsg_grid, hmsgs, hsingle, List.erase_cons_head]
    · rw [Dev.settled_bit, Dev.badMsg_bit]
  case badCrc =>
    intro s n g h p xs m hruns hsender hxs hh hp hcrc hsingle hm hdone
    have hexec := Dev.segmentHeard_bad hruns hsender hxs hh hp hcrc (m := m) (by rw [hsingle, findAssembled_single hm hdone])
    have hmsgs : (s.dev.segmentBad xs).grid.msgs = s.dev.grid.msgs := rfl
    have hcount := s.dev.segmentBad_counted xs
    have hregs : s.dev.RegsBut (s.dev.segmentBad xs) [Reg.grdRxBad, Reg.grdBlanked, Reg.grdEvents] :=
      .count (.count .rfl (by decide)) (by decide)
    generalize s.dev.segmentBad xs = e at *
    refine .of_eq (exec_gridSegmentRx g s) hexec ⟨?_, ?_, ?_, .settled (.badMsg hregs m (by simp))⟩
    · rw [Dev.settled_grid, Dev.badMsg_grid, hmsgs, hsingle, List.erase_cons_head]
    · rw [Dev.settled_bit, Dev.badMsg_bit]
    · rw [Dev.settled_reg, Dev.badMsg_reg _ _ (by decide), hcount]
  case notHeard =>
    intro s g h
    refine .idle (exec_gridSegmentRx g s) ?_
    unfold Dev.segmentHeard
    obtain h | h := h
    · cases s.dev.grid.sender with
      | none => rfl
      | some n => exact if_pos (by simp [h])
    · rw [h]
  case timeout =>
    intro s m hsingle hdone hidle
    have hexec : (match s.dev.grid.msgs.find? fun x => x.sender == m.sender && !x.done with
        | some m => if 64 ≤ m.idle then s.dev.badMsg m else s.dev
        | none => s.dev) = s.dev.badMsg m := by
      rw [hsingle, findAssembled_single rfl hdone]
      exact if_pos hidle
    refine .of_eq (exec_gridMsgTimeout m.sender s) hexec ⟨?_, ?_, .settled (.badMsg .rfl m (by simp))⟩
    · rw [Dev.settled_grid, Dev.badMsg_grid, hsingle, List.erase_cons_head]
    · rw [Dev.settled_bit, Dev.badMsg_bit]
  case inTime =>
    intro s n h
    refine .idle (exec_gridMsgTimeout n s) ?_
    cases hm : s.dev.grid.msgs.find? fun m => m.sender == n && !m.done with
    | none => rfl
    | some m => exact if_neg fun hidle => h (by simp [hm, hidle])
  case object =>
    intro s n m hm hobj
    have hexec := Dev.gridObject_taken hm hobj
    obtain ⟨hgrid, hmsgs, hbit⟩ := s.dev.objectTaken_shows m
    generalize s.dev.objectTaken m = e at *
    have hkeeps := e.admitObject_keeps .grid (m.bytes.take (40 + objLen m.bytes + sigLen (objAlg m.bytes))) false
    refine .of_eq (exec_gridObjectRx n s) hexec ⟨?_, ?_, ?_, ?_⟩
    · rw [Dev.settled_sec, Dev.admitObject_gridObj, hgrid]
    · rw [Dev.settled_grid, hkeeps.grid, hmsgs]
    · rw [Dev.settled_bit, Dev.bit, hkeeps.reg_of (a := Reg.grdEvents) (p := .rGrd) rfl, ← Dev.bit, hbit]
    · rw [Dev.settled_sec]
      exact Dev.admitObject_due _ _ _
  case noObject =>
    intro s n h
    refine .idle (exec_gridObjectRx n s) ?_
    unfold Dev.gridObject
    obtain h | h := h
    · rw [h]
    · cases s.dev.gridDone n 1 with
      | none => rfl
      | some m => exact if_pos h
  case piece =>
    intro s n m hm hroom
    obtain ⟨hpieces, hmsgs⟩ := Dev.gridPiece_taken hm hroom
    exact .of_eq (exec_gridPieceRx n s) rfl ⟨hpieces, hmsgs⟩
  case pieceDropped =>
    intro s n m hm hfull
    have hregs : s.dev.RegsBut ((s.dev.dropMsg m).countField Reg.grdDrop 16 16) [Reg.grdEvents, Reg.grdDrop] :=
      .countField (.onGrid .rfl) (by decide)
    refine .of_eq (exec_gridPieceRx n s) (Dev.gridPiece_dropped hm hfull) ⟨?_, ?_, Dev.settled_raise_bit _ .grd _ _ (by decide),
      .settled (.raise hregs (by decide))⟩
    · rw [Dev.settled_upd, Dev.raise_upd]
      rfl
    · rw [Dev.settled_grid, Dev.raise_grid]
      rfl
  case challenge =>
    intro s n m hm htx hchal hempty
    by_cases hnode : fieldBE m.bytes 0 6 = Config.node.toNat
    · obtain ⟨hheld, hworks, hmsgs⟩ := Dev.gridChallenge_taken hm hnode htx hchal hempty
      exact .of_eq (exec_gridChallenge n s) rfl ⟨fun _ => ⟨hheld, hworks⟩, fun h => absurd hnode h, hmsgs⟩
    · exact .of_eq (exec_gridChallenge n s) (Dev.gridChallenge_aside hm (.inl hnode)) ⟨fun h => absurd h hnode, fun _ => rfl, rfl⟩
  case challengeSilent =>
    intro s n m hm htx
    exact .of_eq (exec_gridChallenge n s) (Dev.gridChallenge_aside hm (.inr htx)) ⟨rfl, rfl, .settled (.onGrid .rfl)⟩
  case table =>
    intro s n m hm hstate hlo hhi hlen
    obtain ⟨htable, hcoord, hmsgs⟩ := Dev.gridTable_taken hm hstate hlo hhi hlen
    exact .of_eq (exec_gridTableRx n s) rfl ⟨htable, hcoord, hmsgs⟩
  case tableDropped =>
    intro s n m hm h
    exact .of_eq (exec_gridTableRx n s) (Dev.gridTable_dropped hm h) ⟨rfl, rfl, .settled (.onGrid .rfl)⟩
  case nothing =>
    intro s n k c hc hnone
    obtain ⟨rfl, rfl⟩ | ⟨rfl, rfl⟩ | ⟨rfl, rfl⟩ | ⟨rfl, rfl⟩ := hc
    · exact .idle (exec_gridObjectRx n s) (by rw [Dev.gridObject, hnone])
    · exact .idle (exec_gridPieceRx n s) (by rw [Dev.gridPiece, hnone])
    · exact .idle (exec_gridChallenge n s) (by rw [Dev.gridChallenge, hnone])
    · exact .idle (exec_gridTableRx n s) (by rw [Dev.gridTable, hnone])

end Sys2Proof.Machine
end


section
/-! SUPPORT. Pieces, parts and ends of an update (R413 to R418). -/

namespace Sys2Proof.Machine

set_option Elab.async false

/-- What taking parts up leaves: the places of pieces, what is stored and staged, and every part that is complete (R416). -/
structure Update.Took (u v : Update) : Prop where
  slots : v.slots = u.slots
  gridPieces : v.gridPieces = u.gridPieces
  stored : v.stored = u.stored
  images : v.images = u.images
  staged : v.staged = u.staged
  complete : ∀ (k : Nat) (t : PartState), u.parts[k]? = some t → 2 ≤ t.state → v.parts[k]? = some t

theorem Update.Took.refl (u : Update) : u.Took u := ⟨rfl, rfl, rfl, rfl, rfl, fun _ _ h _ => h⟩

theorem Update.Took.trans {u v w : Update} (h : u.Took v) (h' : v.Took w) : u.Took w where
  slots := h'.slots.trans h.slots
  gridPieces := h'.gridPieces.trans h.gridPieces
  stored := h'.stored.trans h.stored
  images := h'.images.trans h.images
  staged := h'.staged.trans h.staged
  complete k t hk ht := h'.complete k t (h.complete k t hk ht) ht

section
variable {d : Dev}

theorem Dev.setPart_upd (d : Dev) (k : Nat) (s : PartState) : (d.setPart k s).upd = { d.upd with parts := d.upd.parts.set k s } := by
  unfold Dev.setPart
  extract_lets kind d1
  split_ifs
  · rfl
  · rfl

/-- The part under way is not complete. -/
theorem Dev.currentPart_open {k : Nat} (h : d.currentPart = some k) : ∃ t, d.upd.parts[k]? = some t ∧ t.state < 2 := by
  have hfound := List.find?_some h
  cases hk : d.upd.parts[k]? with
  | none => simp [hk] at hfound
  | some t => exact ⟨t, rfl, by simpa [hk] using hfound⟩

theorem Dev.setPart_took {k : Nat} (s : PartState) (h : d.currentPart = some k) : d.upd.Took (d.setPart k s).upd := by
  rw [d.setPart_upd]
  refine ⟨rfl, rfl, rfl, rfl, rfl, fun j t hj ht => ?_⟩
  obtain ⟨open', hk, hopen⟩ := Dev.currentPart_open h
  have hkj : k ≠ j := by
    rintro rfl
    rw [hk, Option.some.injEq] at hj
    subst hj
    omega
  show (d.upd.parts.set k s)[j]? = some t
  rw [List.getElem?_set_ne hkj, hj]

theorem Dev.takeParts_took (d : Dev) (fuel : Nat) : d.upd.Took (d.takeParts fuel).upd := by
  induction fuel generalizing d with
  | zero => exact .refl _
  | succ fuel ih =>
    unfold Dev.takeParts
    cases hm : d.upd.manifest with
    | none => exact .refl _
    | some m =>
      cases hk : d.currentPart with
      | none =>
        dsimp only
        rw [Dev.raise_upd]
        exact ⟨rfl, rfl, rfl, rfl, rfl, fun _ _ h _ => h⟩
      | some k =>
        dsimp only
        cases hp : m.parts[k]? with
        | none => exact .refl _
        | some p =>
          dsimp only
          split_ifs
          · rw [(Dev.request_keeps _ _ _ _ _ _).upd]
            exact Dev.setPart_took _ hk
          · exact (Dev.setPart_took _ hk).trans (ih _)
          · refine Dev.each_inv (P := fun e => d.upd.Took e.upd) (Dev.setPart_took _ hk) fun e n _ he => ?_
            rw [(e.stageOn_keeps n 0).upd]
            exact he

theorem Dev.verifyParts_took (d : Dev) : d.upd.Took d.verifyParts.upd :=
  Update.Took.trans (v := { d.upd with state := .verifying }) ⟨rfl, rfl, rfl, rfl, rfl, fun _ _ h _ => h⟩ 
    (Dev.takeParts_took (d.onUpd fun u => { u with state := .verifying }) 33)

/-! ### Pieces -/

theorem Dev.storeUnit_places (d : Dev) (serial : Word) (i : Nat) (bytes : List Byte) :
    (d.storeUnit serial i bytes).upd.gridPieces = d.upd.gridPieces ∧ (d.storeUnit serial i bytes).upd.slots = d.upd.slots := by
  unfold Dev.storeUnit
  split_ifs
  · exact ⟨rfl, rfl⟩
  · exact ⟨rfl, rfl⟩

/-- What the result of a check does leaves the places of pieces, and without a good piece what is stored. -/
theorem Dev.applyPiece_places (d : Dev) (p : Piece) (code : Nat) :
    (d.applyPiece p code).upd.gridPieces = d.upd.gridPieces ∧ (d.applyPiece p code).upd.slots = d.upd.slots ∧
      (code ≠ 1 → (d.applyPiece p code).upd.stored = d.upd.stored) := by
  unfold Dev.applyPiece
  cases d.upd.manifest with
  | none => exact ⟨rfl, rfl, fun _ => rfl⟩
  | some m =>
    dsimp only
    by_cases hgood : code = 1
    · rw [if_pos hgood]
      obtain ⟨hgrid, hslots⟩ := Dev.each_inv (xs := List.range p.units.length)
        (f := fun d i => d.storeUnit m.serial (p.index + i) (slice p.data (256 * i) 256)) (d := d)
        (P := fun e => e.upd.gridPieces = d.upd.gridPieces ∧ e.upd.slots = d.upd.slots) ⟨rfl, rfl⟩ fun e i _ ⟨hg, hs⟩ => by
          obtain ⟨hg', hs'⟩ := e.storeUnit_places m.serial (p.index + i) (slice p.data (256 * i) 256)
          exact ⟨hg'.trans hg, hs'.trans hs⟩
      generalize d.each (List.range p.units.length) (fun d i => d.storeUnit m.serial (p.index + i) (slice p.data (256 * i) 256)) = e at *
      split_ifs
      · have htook := (e.setReg Reg.updHave (BitVec.ofNat 32 e.upd.stored.length)).verifyParts_took
        exact ⟨htook.gridPieces.trans hgrid, htook.slots.trans hslots, fun h => absurd hgood h⟩
      · exact ⟨hgrid, hslots, fun h => absurd hgood h⟩
    · rw [if_neg hgood]
      split_ifs
      · exact ⟨rfl, rfl, fun _ => rfl⟩
      · exact ⟨rfl, rfl, fun _ => rfl⟩
      · exact ⟨rfl, rfl, fun _ => rfl⟩

theorem Dev.onPiece_slot (d : Dev) (c : Fin 2) (x : PieceSlot) : (d.onPiece c fun _ => x).upd.slots.get c = x := by
  show (d.upd.slots.set c.1 x).get c = x
  exact Vector.getElem_set_self c.2

theorem Dev.pieceChecked_slot {c : Fin 2} {p : Piece} (hready : d.resultReady (.piece (.slot c)) = true)
    (hp : (d.upd.slots.get c).piece = some p) :
    (d.pieceChecked (.slot c)).upd.slots.get c =
        { state := 2, result := d.pieceResult true (d.piecePoison c).isSome p, piece := none } ∧
      (d.pieceResult true (d.piecePoison c).isSome p ≠ 1 → (d.pieceChecked (.slot c)).upd.stored = d.upd.stored) := by
  unfold Dev.pieceChecked
  rw [if_neg (by simp [hready])]
  dsimp only
  rw [hp]
  dsimp only
  refine ⟨Dev.onPiece_slot _ _ _, fun hcode => ?_⟩
  obtain ⟨-, -, hstored⟩ := Dev.applyPiece_places ((d.finish (.piece (.slot c))).engineTakes
    (if d.pieceResult true (d.piecePoison c).isSome p = 6 then d.piecePoison c else none)) p
    (d.pieceResult true (d.piecePoison c).isSome p)
  refine (hstored hcode).trans ?_
  rw [(Dev.engineTakes_keeps _ _).upd, (Dev.finish_keeps _ _).upd]

theorem Dev.pieceChecked_grid {p : Piece} {ps : List Piece} (hready : d.resultReady (.piece .grid) = true)
    (hp : d.upd.gridPieces = p :: ps) : (d.pieceChecked .grid).upd.gridPieces = ps ∧
      (d.pieceResult false false p ≠ 1 → (d.pieceChecked .grid).upd.stored = d.upd.stored) := by
  unfold Dev.pieceChecked
  rw [if_neg (by simp [hready])]
  dsimp only
  rw [hp]
  dsimp only
  obtain ⟨hgrid, -, hstored⟩ := Dev.applyPiece_places ((d.finish (.piece .grid)).onUpd fun u => { u with gridPieces := ps }) p
    (d.pieceResult false false p)
  split_ifs
  · exact ⟨hgrid, hstored⟩
  · rw [(Dev.request_keeps _ _ _ _ _ _).upd]
    exact ⟨hgrid, hstored⟩

/-! ### Parts -/

section
variable {k : Fin 32} {m : Manifest} {p : PartEntry} {t : PartState}

theorem Dev.failPart_shows (d : Dev) (k : Nat) :
    (d.failPart k).upd.state = .failed ∧ (d.failPart k).upd.images = [] ∧ (d.failPart k).upd.staged = [] ∧
      (d.failPart k).bit Reg.updEvents 2 = true ∧ (d.failPart k).reg Reg.updLastEnd = packWord [(0, 4, 6), (8, 5, k)] := by
  set e := ((d.setPart k { state := 4, heads := [], failed := [] }).onUpd fun u => { u with state := .failed }).setReg Reg.updLastEnd
    (packWord [(0, 4, 6), (8, 5, k)]) with he
  have hexec : d.failPart k = (e.raise .upd 2 (BitVec.ofNat 32 k)).eraseStaging := rfl
  have hstate : e.upd.state = .failed := rfl
  have hreg : e.reg Reg.updLastEnd = packWord [(0, 4, 6), (8, 5, k)] := (Dev.setReg_reg _ _ _ _).trans (if_pos rfl)
  clear_value e
  rw [hexec]
  refine ⟨?_, rfl, rfl, ?_, ?_⟩
  · show (e.raise .upd 2 _).upd.state = _
    rw [Dev.raise_upd, hstate]
  · exact e.raise_bit .upd _ _ (by decide)
  · show (e.raise .upd 2 _).reg Reg.updLastEnd = _
    rw [Dev.raise_reg, if_neg (by decide), hreg]

/-- The part under way whose hash is due. -/
structure Dev.HashDue (d : Dev) (k : Fin 32) (m : Manifest) (p : PartEntry) (t : PartState) : Prop where
  manifest : d.upd.manifest = some m
  entry : m.parts[k.1]? = some p
  part : d.upd.parts[k.1]? = some t
  state : d.upd.state = .verifying
  current : d.currentPart = some k.1
  kind : p.kind.toNat ≤ 2
  asked : t.state = 1
  ready : d.resultReady (.image k) = true

theorem Dev.partChecked_of (h : d.HashDue k m p t) : d.partChecked k.1 =
    if Config.sha384 (d.assembled m p) = p.hash then
      (((d.finish (.image k)).onUpd fun u => { u with images := u.images ++ [(k, d.assembled m p)] }).setPart k.1
        { state := 2, heads := [], failed := [] }).takeParts 33
    else (d.finish (.image k)).failPart k.1 := by
  have hk : Fin.ofNat 32 k.1 = k := Fin.ofNat_val_eq_self k
  unfold Dev.partChecked
  rw [h.manifest]
  dsimp only
  rw [h.entry, h.part]
  dsimp only
  rw [hk, if_pos ⟨h.state, h.current, h.kind, h.asked, h.ready⟩]

/-- A part whose hash is the manifest's is complete, and its image assembled, whatever is taken up next. -/
theorem Dev.partChecked_good (h : d.HashDue k m p t) (hhash : Config.sha384 (d.assembled m p) = p.hash) :
    (((d.partChecked k.1).upd.parts[k.1]?).map PartState.state) = some 2 ∧ (k, d.assembled m p) ∈ (d.partChecked k.1).upd.images := by
  rw [Dev.partChecked_of h, if_pos hhash]
  have htook := (((d.finish (.image k)).onUpd fun u => { u with images := u.images ++ [(k, d.assembled m p)] }).setPart k.1
    { state := 2, heads := [], failed := [] }).takeParts_took 33
  rw [Dev.setPart_upd] at htook
  have hlen : k.1 < d.upd.parts.length := (List.getElem?_eq_some_iff.mp h.part).1
  refine ⟨?_, ?_⟩
  · rw [htook.complete k.1 { state := 2, heads := [], failed := [] } (List.getElem?_set_self hlen) (by decide)]
    rfl
  · rw [htook.images]
    exact List.mem_append_right _ (List.mem_singleton_self _)

theorem Dev.partChecked_idle (h : d.upd.manifest = none ∨ d.upd.state ≠ .verifying ∨ d.currentPart ≠ some k.1 ∨
    d.resultReady (.image k) = false) : d.partChecked k.1 = d := by
  have hk : Fin.ofNat 32 k.1 = k := Fin.ofNat_val_eq_self k
  unfold Dev.partChecked
  cases hm : d.upd.manifest with
  | none => rfl
  | some m =>
    dsimp only
    cases m.parts[k.1]? with
    | none => rfl
    | some p =>
      cases d.upd.parts[k.1]? with
      | none => rfl
      | some t =>
        refine if_neg ?_
        rintro ⟨hstate, hcurrent, -, -, hready⟩
        rw [hk] at hready
        obtain h | h | h | h := h
        · simp [hm] at h
        · exact h hstate
        · exact h hcurrent
        · exact Bool.noConfusion (h.symm.trans hready)

end

/-! ### Heads -/

section
variable {n : LinkId} {k : Nat} {p : PartEntry} {t : PartState}

theorem Dev.headStaged_verified (hon : d.stagingOn n = some (k, p)) (ht : d.upd.parts[k]? = some t) :
    n ∈ (d.headStaged n true).upd.staged ∧ (((d.headStaged n true).upd.parts[k]?).map PartState.heads) = some (t.heads ++ [n]) := by
  have hlen : k < d.upd.parts.length := (List.getElem?_eq_some_iff.mp ht).1
  unfold Dev.headStaged
  rw [hon]
  dsimp only
  rw [show d.upd.parts.getD k { state := 1, heads := [], failed := [] } = t by rw [List.getD_eq_getElem?_getD, ht]; rfl, if_pos rfl]
  have hstaged : ∀ (u : List LinkId), n ∈ (if u.contains n = true then u else u ++ [n]) := fun u => by
    split_ifs with h
    · exact List.contains_iff_mem.mp h
    · simp
  split_ifs with hdone
  · have htook := ((d.onUpd fun u => { u with staged := if u.staged.contains n then u.staged else u.staged ++ [n] }).setPart k
      { t with heads := t.heads ++ [n], state := 3 }).takeParts_took 33
    rw [Dev.setPart_upd] at htook
    refine ⟨?_, ?_⟩
    · rw [htook.staged]
      exact hstaged _
    · rw [htook.complete k { t with heads := t.heads ++ [n], state := 3 } (List.getElem?_set_self hlen) (Nat.le_succ 2)]
      rfl
  · rw [Dev.setPart_upd]
    refine ⟨hstaged _, ?_⟩
    show ((d.upd.parts.set k _)[k]?).map PartState.heads = _
    rw [List.getElem?_set_self hlen]
    rfl

theorem Dev.headStaged_again (hon : d.stagingOn n = some (k, p)) (ht : d.upd.parts[k]? = some t) (hfirst : n ∉ t.failed) :
    (d.headStaged n false).upd = { d.upd with parts := d.upd.parts.set k { t with failed := t.failed ++ [n] } } := by
  unfold Dev.headStaged
  rw [hon]
  dsimp only
  rw [show d.upd.parts.getD k { state := 1, heads := [], failed := [] } = t by rw [List.getD_eq_getElem?_getD, ht]; rfl,
    if_neg Bool.false_ne_true, if_neg (by simpa using hfirst), (Dev.stageOn_keeps _ _ _).upd, Dev.setPart_upd]

theorem Dev.headStaged_fails (hon : d.stagingOn n = some (k, p)) (ht : d.upd.parts[k]? = some t) (hagain : n ∈ t.failed) :
    d.headStaged n false = d.failPart k := by
  unfold Dev.headStaged
  rw [hon]
  dsimp only
  rw [show d.upd.parts.getD k { state := 1, heads := [], failed := [] } = t by rw [List.getD_eq_getElem?_getD, ht]; rfl,
    if_neg Bool.false_ne_true, if_pos (by simpa using hagain)]

end

/-! ### Activation and its ends -/

theorem Dev.activate_upd (d : Dev) : d.activate.upd = { d.upd with state := .activating, actRefuse := 0, step := 1, stepAt := d.now } := by
  unfold Dev.activate
  extract_lets d1 d2
  have h2 : d2.upd = d1.upd := Dev.each_inv (P := fun e => e.upd = d1.upd) rfl fun e n _ he => by
    split_ifs
    · rw [(e.startStop_keeps n _ _).upd, he]
    · exact he
  have h3 : (d2.each d2.outlets Dev.releaseGroups).upd = d2.upd :=
    Dev.each_inv (P := fun e => e.upd = d2.upd) rfl fun e n _ he => by rw [(e.releaseGroups_keeps n).upd, he]
  rw [h3, h2]
  rfl

/-- The update may be abandoned (R418). -/
def Update.abandonable (u : Update) : Prop :=
  u.state ∈ [UpdState.receiving, .verifying, .ready, .failed] ∨ (u.state = .activating ∧ u.step < 3)

theorem Dev.updAbandon_of (h : d.upd.abandonable) : d.updAbandon = d.endUpdate 4 := by
  unfold Dev.updAbandon
  obtain h | ⟨h, hstep⟩ := h
  · simp only [List.mem_cons, List.not_mem_nil, or_false] at h
    obtain h | h | h | h := h
    · rw [h]
    · rw [h]
    · rw [h]
    · rw [h]
  · rw [h]
    exact if_pos hstep

theorem Dev.updAbandon_idle (h : ¬d.upd.abandonable) : d.updAbandon = d := by
  unfold Dev.updAbandon
  cases hstate : d.upd.state with
  | activating => exact if_neg fun hstep => h (.inr ⟨hstate, hstep⟩)
  | receiving => exact absurd (.inl (by simp [hstate])) h
  | verifying => exact absurd (.inl (by simp [hstate])) h
  | ready => exact absurd (.inl (by simp [hstate])) h
  | failed => exact absurd (.inl (by simp [hstate])) h
  | _ => rfl

theorem Dev.endUpdate_reg (d : Dev) (outcome : Nat) : (d.endUpdate outcome).reg Reg.updLastEnd = packWord [(0, 4, outcome)] :=
  (Dev.setReg_reg _ _ _ _).trans (if_pos rfl)

theorem Dev.endUpdate_regsBut (d : Dev) (outcome : Nat) : d.RegsBut (d.endUpdate outcome) [Reg.updLastEnd] :=
  .setReg (.onUpd (.onUpd .rfl)) (by decide)

end

end Sys2Proof.Machine
end


section
/-! Intake of an update: pieces, parts, staged heads, and its ends. -/

namespace Sys2Proof.Machine

set_option Elab.async false

/-- Settles O49: the places of pieces and complete parts outlast whatever is taken up next; each end of an update is one operation. -/
theorem updateIntake : Obligations.UpdateIntake := by
  unfold Obligations.UpdateIntake
  refine ⟨?submit, ?noSubmit, ?checked, ?gridChecked, ?notChecked, ?part, ?noPart, ?staged, ?sentAgain, ?headFails, ?noHead, ?activate,
    ?refused, ?abandon, ?noAbandon, ?notRecording, ?expired, ?notExpired⟩
  case submit =>
    intro s c w hrec hgo hfree
    refine .of_eq (exec_updPieceSubmit c w s) ((Dev.hosted_of_recording _ hrec).trans (if_neg ?_)) ⟨?_, ?_⟩
    · simp [hgo, hfree]
    · rw [Dev.settled_upd, (Dev.request_keeps _ _ _ _ _ _).upd]
      exact Dev.onPiece_slot _ _ _
    · rw [Dev.settled_sec]
      exact Dev.request_working _ _ _ _ _ _
  case noSubmit =>
    intro s c w h
    refine .idle (exec_updPieceSubmit c w s) ?_
    unfold Dev.hosted
    split_ifs with hrec
    · refine if_pos ?_
      obtain h | h | h := h
      · simp [h] at hrec
      · exact .inl (by simp [h])
      · exact .inr h
    · rfl
  case checked =>
    intro s c p hready hp
    obtain ⟨hslot, hstored⟩ := Dev.pieceChecked_slot hready hp
    exact .of_eq (exec_pieceChecked _ s) rfl ⟨hslot, hstored⟩
  case gridChecked =>
    intro s p ps hready hp
    obtain ⟨hgrid, hstored⟩ := Dev.pieceChecked_grid hready hp
    exact .of_eq (exec_pieceChecked _ s) rfl ⟨hgrid, hstored⟩
  case notChecked =>
    intro s p hready
    exact .idle (exec_pieceChecked p s) (if_pos (by simp [hready]))
  case part =>
    intro s k m p t hm hp ht hstate hcurrent hkind hasked hready
    have hdue : s.dev.HashDue k m p t := ⟨hm, hp, ht, hstate, hcurrent, hkind, hasked, hready⟩
    by_cases hhash : Config.sha384 (s.dev.assembled m p) = p.hash
    · exact .of_eq (exec_partVerified k s) rfl ⟨fun h => absurd hhash h, fun _ => Dev.partChecked_good hdue hhash⟩
    · obtain ⟨hfailed, himages, -, hbit, -⟩ := (s.dev.finish (.image k)).failPart_shows k.1
      refine .of_eq (exec_partVerified k s) ((Dev.partChecked_of hdue).trans (if_neg hhash))
        ⟨fun _ => ⟨hfailed, ?_, himages⟩, fun h => absurd h hhash⟩
      rw [Dev.settled_bit, hbit]
  case noPart =>
    intro s k h
    exact .idle (exec_partVerified k s) (Dev.partChecked_idle h)
  case staged =>
    intro s n k p t hon ht hstg
    obtain ⟨hstaged, hheads⟩ := Dev.headStaged_verified hon ht
    exact .of_eq (exec_headStagingDone n s) (if_pos hstg) ⟨hstaged, hheads⟩
  case sentAgain =>
    intro s n k p t hon ht hstg hfirst
    have hlen : k < s.dev.upd.parts.length := (List.getElem?_eq_some_iff.mp ht).1
    have hupd := Dev.headStaged_again hon ht hfirst
    refine .of_eq (exec_headStagingDone n s) ((if_neg (by simp [hstg])).trans (if_pos hstg)) ?_
    rw [Dev.settled_upd, hupd]
    refine ⟨rfl, rfl, ?_⟩
    rw [List.getElem?_set_self hlen]
    rfl
  case headFails =>
    intro s n k p t hon ht hstg hagain
    obtain ⟨hfailed, -, hstaged, hbit, hreg⟩ := s.dev.failPart_shows k
    refine .of_eq (exec_headStagingDone n s) ((if_neg (by simp [hstg])).trans ((if_pos hstg).trans (Dev.headStaged_fails hon ht hagain)))
      ⟨hfailed, hstaged, ?_, ?_⟩
    · rw [Dev.settled_bit, hbit]
    · rw [Dev.settled_reg, hreg]
  case noHead =>
    intro s n h
    refine .idle (exec_headStagingDone n s) ?_
    obtain h | ⟨h3, h4⟩ := h
    · have hidle : ∀ b, s.dev.headStaged n b = s.dev := fun b => by rw [Dev.headStaged, h]
      unfold Dev.stagingEnds
      rw [hidle, hidle, ite_self, ite_self]
    · exact (if_neg h3).trans (if_neg h4)
  case activate =>
    intro s hrec hadmitted
    have hcode : (s.dev.setReg Reg.updCmd 1).activateRefusal = 0 := hadmitted
    have hupd := (s.dev.setReg Reg.updCmd 1).activate_upd
    have hreg : (s.dev.setReg Reg.updCmd 1).activate.reg Reg.updCmd = 1 := by
      rw [(Dev.activate_keeps _).reg_of (p := .rUpd) rfl, Dev.setReg_reg, if_pos rfl]
    refine .of_eq (exec_updActivate s) ((Dev.gw_of_recording _ _ _ hrec).trans (if_neg fun h => h hcode)) ?_
    rw [Dev.settled_upd, Dev.settled_reg, hupd]
    exact ⟨rfl, rfl, rfl, rfl, hreg⟩
  case refused =>
    intro s hrec hrefused
    exact .of_eq (exec_updActivate s) ((Dev.gw_of_recording _ _ _ hrec).trans (if_pos hrefused))
      ⟨rfl, .settled (.onUpd (.setReg .rfl (by decide)))⟩
  case abandon =>
    intro s hrec h
    have habandon : (s.dev.setReg Reg.updCmd 2).upd.abandonable := h
    have hpre : s.dev.RegsBut (s.dev.setReg Reg.updCmd 2) [Reg.updCmd, Reg.updLastEnd] := .setReg .rfl (by decide)
    have hcmd : (s.dev.setReg Reg.updCmd 2).reg Reg.updCmd = 2 := (Dev.setReg_reg _ _ _ _).trans (if_pos rfl)
    have hexec := (Dev.gw_of_recording Reg.updCmd 2 Dev.updAbandon hrec).trans (Dev.updAbandon_of habandon)
    generalize s.dev.setReg Reg.updCmd 2 = e at *
    refine .of_eq (exec_updAbandon s) hexec ⟨rfl, rfl, rfl, rfl, ?_, ?_, .settled (.setReg (.onUpd (.onUpd hpre)) (by decide))⟩
    · rw [Dev.settled_reg, Dev.endUpdate_reg]
      rfl
    · rw [Dev.settled_reg, e.endUpdate_regsBut 4 Reg.updCmd (by decide), hcmd]
  case noAbandon =>
    intro s hrec h
    have hkept : ¬(s.dev.setReg Reg.updCmd 2).upd.abandonable := h
    exact .of_eq (exec_updAbandon s) ((Dev.gw_of_recording _ _ _ hrec).trans (Dev.updAbandon_idle hkept))
      ⟨rfl, .settled (.setReg .rfl (by decide))⟩
  case notRecording =>
    intro s c hrec hc
    rw [List.mem_cons, List.mem_singleton] at hc
    obtain rfl | rfl := hc
    · exact .idle (exec_updActivate s) (Dev.gw_idle _ _ _ hrec)
    · exact .idle (exec_updAbandon s) (Dev.gw_idle _ _ _ hrec)
  case expired =>
    intro s m hm hstate hset hnotAfter hpast
    have hexpired : s.dev.manifestExpired = true := by
      rw [Dev.manifestExpired, hm]
      simp [hstate, hset, hnotAfter, hpast]
    refine .of_eq (exec_manifestExpiry s) (if_pos hexpired) ⟨rfl, rfl, rfl, rfl, ?_, .settled (s.dev.endUpdate_regsBut 5)⟩
    rw [Dev.settled_reg, Dev.endUpdate_reg]
    rfl
  case notExpired =>
    intro s h
    refine .idle (exec_manifestExpiry s) (if_neg ?_)
    unfold Dev.manifestExpired
    cases hm : s.dev.upd.manifest with
    | none => simp
    | some m =>
      rw [hm] at h
      simp only [Bool.and_eq_true, beq_iff_eq, not_and, bne_iff_ne, decide_eq_true_eq]
      intro hready hpast
      obtain ⟨⟨hstate, hset⟩, hnotAfter⟩ := hready
      obtain h | h | h := h
      · exact h hstate
      · simp [h] at hset
      · simp [hnotAfter, hpast] at h

end Sys2Proof.Machine
end


section
/-! SUPPORT. Activation, retreat and confirmation (R420 to R424). -/

namespace Sys2Proof.Machine

set_option Elab.async false

section
variable {d : Dev}

/-! ### The reset into the loader -/

/-- The update as an internal reset leaves it. -/
def Update.restarted (u : Update) : Update :=
  { u with refuse := 0, actRefuse := 0, gridPieces := [], slots := Vector.replicate 2 { state := 0, result := 0, piece := none } }

theorem Dev.internalReset_upd (d : Dev) : d.internalReset.upd = d.upd.restarted := by
  show d.stopFrames.upd.restarted = _
  rw [d.stopFrames_keeps.upd]

theorem Dev.internalReset_region (d : Dev) : d.internalReset.cfg.region = d.cfg.region := by
  show d.stopFrames.cfg.region = _
  rw [d.stopFrames_keeps.cfg]

/-- What a retreat shows (R422). -/
theorem Dev.retreat_shows (d : Dev) (why : Nat) :
    (d.retreat why).upd.state = .retreating ∧ (d.retreat why).upd.record = .retreating ∧ (d.retreat why).upd.retreatWhy = why ∧
      (d.retreat why).mode = .waking ∧ (d.retreat why).upd.fw = (d.upd.journal.map fun j => j.1).getD d.upd.fw ∧
      (d.retreat why).cfg.region = (d.upd.journal.map fun j => j.2.2).getD d.cfg.region := by
  unfold Dev.retreat
  extract_lets d1 d2
  have hupd : d2.upd = d1.upd := by
    unfold d2
    cases d.upd.journal with
    | none => rfl
    | some j => rfl
  have hregion : d2.cfg.region = (d.upd.journal.map fun j => j.2.2).getD d.cfg.region := by
    unfold d2
    cases d.upd.journal with
    | none => rfl
    | some j => rfl
  clear_value d2
  rw [(Dev.armBoot_keeps _).upd, (Dev.armBoot_keeps _).cfg, d2.internalReset_upd, d2.internalReset_region, hupd, hregion]
  exact ⟨rfl, rfl, rfl, (Dev.armBoot_waking _).1, rfl, rfl⟩

/-- What a swap shows (R420). -/
theorem Dev.swap_shows (d : Dev) :
    d.swap.upd.record = .swapping ∧ d.swap.upd.step = 5 ∧ d.swap.upd.stepAt = d.now ∧
      d.swap.upd.journal = some (d.upd.fw, d.upd.fwImage, d.cfg.region) ∧ d.swap.upd.fw = d.upd.fw ∧ d.swap.mode = .waking := by
  unfold Dev.swap
  extract_lets d1
  have hupd : ((d1.internalReset.armBoot).onPower fun p => { p with bringup := .idle }).upd = d1.upd.restarted := by
    rw [Dev.onPower_upd, (Dev.armBoot_keeps _).upd, Dev.internalReset_upd]
  have hmode : ((d1.internalReset.armBoot).onPower fun p => { p with bringup := .idle }).mode = .waking := by
    have hboot := (Dev.armBoot_waking d1.internalReset).1
    generalize d1.internalReset.armBoot = e at *
    exact hboot
  rw [hupd, hmode]
  exact ⟨rfl, rfl, rfl, rfl, rfl, rfl⟩

theorem Dev.armBoot_updReg (d : Dev) {a : Nat} (ha : regPart a = .rUpd) : d.armBoot.reg a = d.reg a := by
  unfold Dev.armBoot
  rw [(Dev.verifyLoader_keeps _).reg_of ha, (Dev.armPairs_keeps _).reg_of ha, (Dev.imagePairs_rPrt _).reg_of ha]
  rfl

/-- The loader has written the device parts: the new images boot (R421). -/
theorem Dev.swapped_shows {m : Manifest} (h : d.upd.manifest = some m) :
    d.swapped.upd.step = 6 ∧ d.swapped.upd.fw = d.newFw m ∧ d.swapped.cfg.region = (d.newImage m 2).getD d.cfg.region ∧
      d.swapped.reg Reg.updSwapMs = d.reg Reg.updSwapMs ∧ d.swapped.mode = .waking := by
  unfold Dev.swapped
  rw [h]
  dsimp only
  rw [(Dev.armBoot_keeps _).upd, (Dev.armBoot_keeps _).cfg, Dev.armBoot_updReg _ (a := Reg.updSwapMs) rfl]
  exact ⟨rfl, rfl, rfl, rfl, (Dev.armBoot_waking _).1⟩

/-! ### Arming -/

theorem Dev.armHeads_arming (d : Dev) : (d.onUpd fun u =>
    { u with record := .arming, step := 3, stepAt := d.now, armed := [], armBad := false }).Keeps d.armHeads [.lnk] :=
  .each (fun e n _ => e.readStaging_keeps n) .rfl

/-- ACTIVATION is asked for, and the heads are armed, under these conditions (R420). -/
structure Dev.EntersActivation (d : Dev) : Prop where
  state : d.upd.state = .activating
  step : d.upd.step = 1
  opened : d.allOpen = true
  noSession : d.liveSessions = 0
  unwarned : d.warned = false
  mode : d.mode = .run ∨ d.mode = .economy

theorem Dev.activationEntry_shows (h : d.EntersActivation) :
    d.activationEntry.upd = { d.upd with record := .arming, step := 3, stepAt := d.now, armed := [], armBad := false } ∧
      d.activationEntry.power.trigs = d.power.trigs ++ [.toActivation] := by
  have hexec : d.activationEntry = (d.trigger .toActivation).armHeads :=
    if_pos ⟨h.state, h.step, h.opened, h.noSession, by simp [h.unwarned], h.mode⟩
  rw [hexec, (Dev.armHeads_arming _).upd, (Dev.armHeads_arming _).power]
  exact ⟨rfl, rfl⟩

theorem Dev.arming_of (hstate : d.upd.state = .activating) (hstep : d.upd.step = 3) : d.arming = true := by
  simp [Dev.arming, hstate, hstep]

theorem Dev.headsArmed_under (hstate : d.upd.state = .activating) (hstep : d.upd.step = 3) (hmode : d.mode = .activation)
    (hwarned : d.warned = false) : d.headsArmed =
      if d.upd.staged.all d.upd.armed.contains then d.swap
      else if d.upd.armBad ∨ d.upd.stepAt + secs 1 < d.now then d.retreat 3
      else d := if_pos ⟨Dev.arming_of hstate hstep, hmode, by simp [hwarned]⟩

/-! ### Confirmation -/

theorem Dev.confirmable_written (d : Dev) (w : Word) : (d.setReg Reg.updHealthConfirm w).confirmable = d.confirmable := by
  have hreg : ∀ a, a ≠ Reg.updHealthConfirm → (d.setReg Reg.updHealthConfirm w).reg a = d.reg a := fun a ha =>
    (Dev.setReg_reg _ _ _ _).trans (if_neg ha)
  have hcfg : ∀ n : LinkId, Reg.lnkCfg n ≠ Reg.updHealthConfirm := fun n => by
    simp only [Reg.lnkCfg, Reg.updHealthConfirm]
    omega
  have hid : ∀ n : LinkId, Reg.lnkHeadId n ≠ Reg.updHealthConfirm := fun n => by
    simp only [Reg.lnkHeadId, Reg.updHealthConfirm]
    omega
  have hfw : ∀ n : LinkId, Reg.lnkHeadFw n ≠ Reg.updHealthConfirm := fun n => by
    simp only [Reg.lnkHeadFw, Reg.updHealthConfirm]
    omega
  have hrole : ∀ n, (d.setReg Reg.updHealthConfirm w).role n = d.role n := fun n => by
    unfold Dev.role Dev.field
    rw [hreg _ (hcfg n)]
  have hused : (d.setReg Reg.updHealthConfirm w).usedLinks = d.usedLinks := by
    unfold Dev.usedLinks
    simp only [hrole]
  have hruns : ∀ m, (d.setReg Reg.updHealthConfirm w).runsNew m = d.runsNew m := fun m => by
    funext n
    unfold Dev.runsNew Dev.partFor
    rw [hrole, hreg _ (hid n), hreg _ (hfw n)]
    rfl
  unfold Dev.confirmable
  rw [hused]
  simp only [hruns]
  rfl

theorem Dev.confirm_shows (d : Dev) :
    d.confirm.upd.state = .idle ∧ d.confirm.upd.record = .none ∧
      d.confirm.upd.compat = some ((d.upd.manifest.map Manifest.compat).getD []) ∧ d.confirm.reg Reg.updLastEnd = 1 ∧
      d.confirm.bit Reg.updEvents 6 = true := by
  set e := ((d.commandHeads d.upd.staged 5).onUpd fun u => { u with compat := some ((d.upd.manifest.map Manifest.compat).getD []) }).endUpdate 1
    with he
  have hexec : d.confirm = e.raise .upd 6 := rfl
  have hstate : e.upd.state = .idle := rfl
  have hrecord : e.upd.record = .none := rfl
  have hcompat : e.upd.compat = some ((d.upd.manifest.map Manifest.compat).getD []) := rfl
  have hreg : e.reg Reg.updLastEnd = 1 := Dev.endUpdate_reg _ _
  clear_value e
  rw [hexec, Dev.raise_upd, Dev.raise_reg, if_neg (by decide)]
  exact ⟨hstate, hrecord, hcompat, hreg, e.raise_bit .upd _ _ (by decide)⟩

end

end Sys2Proof.Machine
end


section
/-! Activation of an update, its confirmation and its retreat. -/

namespace Sys2Proof.Machine

set_option Elab.async false

/-- Settles O50: entry, swap, retreat and confirmation are one operation each, whose reset keeps the update and boots in WAKING. -/
theorem activationRules : Obligations.ActivationRules := by
  unfold Obligations.ActivationRules
  refine ⟨?entry, ?noEntry, ?timeout, ?inTime, ?swap, ?armFails, ?notArmed, ?loaded, ?loaderFails, ?noLoader, ?confirm, ?refused,
    ?noCode, ?notRecording, ?expired, ?notExpired⟩
  case entry =>
    intro s hstate hstep hopen hsession hwarned hmode
    obtain ⟨hupd, htrigs⟩ := Dev.activationEntry_shows (d := s.dev) ⟨hstate, hstep, hopen, hsession, hwarned, hmode⟩
    refine .of_eq (exec_activationEntry s) rfl ?_
    rw [Dev.settled_upd, Dev.settled_power, hupd, htrigs]
    exact ⟨rfl, rfl, rfl, rfl, rfl⟩
  case noEntry =>
    intro s h
    refine .idle (exec_activationEntry s) (if_neg ?_)
    rintro ⟨hstate, hstep, hopen, hsession, hwarned, hmode⟩
    obtain h | h | h | h | h | ⟨hrun, heconomy⟩ := h
    · exact h hstate
    · exact h hstep
    · exact Bool.noConfusion (h.symm.trans hopen)
    · exact h hsession
    · simp [h] at hwarned
    · exact hmode.elim hrun heconomy
  case timeout =>
    intro s hstate hstep hdue hopen hwarned
    refine .of_eq (exec_activationStopTimeout s) (if_pos ⟨hstate, hstep, hdue, by simp [hopen], by simp [hwarned]⟩)
      ⟨?_, Dev.settled_raise_bit _ .upd _ _ (by decide), .settled (.raise (.onUpd .rfl) (by decide))⟩
    rw [Dev.settled_upd, Dev.raise_upd]
    rfl
  case inTime =>
    intro s h
    refine .idle (exec_activationStopTimeout s) (if_neg ?_)
    rintro ⟨hstate, hstep, hdue, hopen, hwarned⟩
    obtain h | h | h | h | h := h
    · exact h hstate
    · exact h hstep
    · exact absurd hdue (Nat.not_le.mpr h)
    · simp [h] at hopen
    · simp [h] at hwarned
  case swap =>
    intro s hstate hstep hmode hwarned hall
    obtain ⟨hrecord, hfive, hat, hjournal, hfw, hwaking⟩ := s.dev.swap_shows
    have hexec := (Dev.headsArmed_under hstate hstep hmode hwarned).trans (if_pos hall)
    generalize s.dev.swap = e at *
    exact .of_eq (exec_headsArmed s) hexec ⟨hrecord, hfive, hat, hjournal, hfw, hwaking⟩
  case armFails =>
    intro s hstate hstep hmode hwarned hall hfails
    obtain ⟨hretreats, hrecord, hwhy, hwaking, hfw, hregion⟩ := s.dev.retreat_shows 3
    have hexec := (Dev.headsArmed_under hstate hstep hmode hwarned).trans ((if_neg (by simp [hall])).trans (if_pos hfails))
    generalize s.dev.retreat 3 = e at *
    exact .of_eq (exec_headsArmed s) hexec ⟨hretreats, hrecord, hwhy, hwaking, hfw, hregion⟩
  case notArmed =>
    intro s h
    refine .idle (exec_headsArmed s) ?_
    by_cases hunder : s.dev.arming ∧ s.dev.mode = .activation ∧ !s.dev.warned
    · obtain ⟨harming, hmode, hwarned⟩ := hunder
      obtain ⟨hstate, hstep⟩ : s.dev.upd.state = .activating ∧ s.dev.upd.step = 3 := by simpa [Dev.arming] using harming
      obtain h | h | h | h | ⟨hall, hbad, hat⟩ := h
      · exact absurd hstate h
      · exact absurd hstep h
      · exact absurd hmode h
      · simp [h] at hwarned
      · refine (if_pos ⟨harming, hmode, hwarned⟩).trans ((if_neg (by simp [hall])).trans (if_neg ?_))
        rintro (hbad' | hlate)
        · exact Bool.noConfusion (hbad.symm.trans hbad')
        · exact absurd hlate (Nat.not_lt.mpr hat)
    · exact if_neg hunder
  case loaded =>
    intro s m w hrecord hstep hheld hm
    have hmanifest : (s.dev.setReg Reg.updSwapMs w).upd.manifest = some m := hm
    have hreg : (s.dev.setReg Reg.updSwapMs w).reg Reg.updSwapMs = w := (Dev.setReg_reg _ _ _ _).trans (if_pos rfl)
    obtain ⟨hsix, hfw, hregion, hms, hwaking⟩ := Dev.swapped_shows hmanifest
    have hexec : s.dev.loaderDone true w = (s.dev.setReg Reg.updSwapMs w).swapped :=
      (if_pos ⟨hrecord, hstep, by simp [hheld]⟩).trans (if_pos rfl)
    generalize (s.dev.setReg Reg.updSwapMs w).swapped = e at *
    refine .of_eq (exec_loaderWriteDone true w s) hexec ⟨hsix, hfw, hregion, ?_, hwaking⟩
    rw [Dev.settled_reg, hms, hreg]
  case loaderFails =>
    intro s w hrecord hstep hheld
    obtain ⟨hretreats, hretreating, hwhy, hwaking, hfw, hregion⟩ := (s.dev.setReg Reg.updSwapMs w).retreat_shows 3
    have hexec : s.dev.loaderDone false w = (s.dev.setReg Reg.updSwapMs w).retreat 3 :=
      (if_pos ⟨hrecord, hstep, by simp [hheld]⟩).trans (if_neg Bool.false_ne_true)
    generalize (s.dev.setReg Reg.updSwapMs w).retreat 3 = e at *
    exact .of_eq (exec_loaderWriteDone false w s) hexec ⟨hretreats, hretreating, hwhy, hwaking, hfw, hregion⟩
  case noLoader =>
    intro s ok w h
    refine .idle (exec_loaderWriteDone ok w s) (if_neg ?_)
    rintro ⟨hrecord, hstep, hheld⟩
    obtain h | h | h := h
    · exact h hrecord
    · exact h hstep
    · simp [h] at hheld
  case confirm =>
    intro s w hrec hbit hconfirmable
    have hconf := (s.dev.confirmable_written (w &&& 1)).trans hconfirmable
    obtain ⟨hstate, hrecord, hcompat, hreg, hset⟩ := (s.dev.setReg Reg.updHealthConfirm (w &&& 1)).confirm_shows
    refine .of_eq (exec_healthConfirm w s) ((Dev.gw_of_recording _ _ _ hrec).trans ((if_neg (by simp [hbit])).trans (if_pos hconf)))
      ⟨hstate, hrecord, hcompat, ?_, ?_⟩
    · rw [Dev.settled_reg, hreg]
    · rw [Dev.settled_bit, hset]
  case refused =>
    intro s w hrec hbit hconfirmable
    have hconf := (s.dev.confirmable_written (w &&& 1)).trans hconfirmable
    have hregs : s.dev.RegsBut (s.dev.setReg Reg.updHealthConfirm (w &&& 1)) [Reg.updHealthConfirm, Reg.updEvents] := .setReg .rfl (by decide)
    refine .of_eq (exec_healthConfirm w s) ((Dev.gw_of_recording _ _ _ hrec).trans ((if_neg (by simp [hbit])).trans
      (if_neg fun h => Bool.noConfusion (hconf.symm.trans h)))) ⟨?_, ?_, .settled (.raiseAlways hregs (by decide))⟩
    · rw [Dev.settled_upd, Dev.raiseAlways_upd]
      rfl
    · rw [Dev.settled_bit]
      exact Dev.raiseAlways_bit _ .upd _ _ (by decide)
  case noCode =>
    intro s w hrec hbit
    exact .of_eq (exec_healthConfirm w s) ((Dev.gw_of_recording _ _ _ hrec).trans (if_pos (by simp [hbit])))
      ⟨rfl, .settled (.setReg .rfl (by decide))⟩
  case notRecording =>
    intro s w hrec
    exact .idle (exec_healthConfirm w s) (Dev.gw_idle _ _ _ hrec)
  case expired =>
    intro s hstate hopen hleft
    obtain ⟨hretreats, hrecord, hwhy, hwaking, hfw, hregion⟩ :=
      (s.dev.lastWord 5 ((s.dev.upd.manifest.map fun m => m.serial.toNat).getD 0)).retreat_shows 2
    have hexec : s.dev.windowExpired = (s.dev.lastWord 5 ((s.dev.upd.manifest.map fun m => m.serial.toNat).getD 0)).retreat 2 :=
      if_pos ⟨hstate, hopen, hleft⟩
    generalize (s.dev.lastWord 5 ((s.dev.upd.manifest.map fun m => m.serial.toNat).getD 0)).retreat 2 = e at *
    exact .of_eq (exec_confirmWindowExpiry s) hexec ⟨hretreats, hrecord, hwhy, hwaking, hfw, hregion⟩
  case notExpired =>
    intro s h
    refine .idle (exec_confirmWindowExpiry s) (if_neg ?_)
    rintro ⟨hstate, hopen, hleft⟩
    obtain h | h | h := h
    · exact h hstate
    · exact Bool.noConfusion (h.symm.trans hopen)
    · exact h hleft

end Sys2Proof.Machine
end


section
/-! The memories' commands: a program that ends with nothing waiting still lets the archive ask the pool for a seal (R447, R452). -/

namespace Sys2Proof.Machine

set_option Elab.async false

/-! ### What was set in the open tick -/

section
variable {d : Dev}

theorem Dev.request_full {u : CryptoUse} {cls : CryptoClass} (ops : List CryptoOp) (covered : Bool) (rank : Nat)
    (h : ¬d.sec.inClass cls < cls.quota) : (Reg.secEvents, 8) ∈ (d.request u cls ops covered rank).recorder.setNow := by
  unfold Dev.request
  extract_lets r d1
  rw [if_neg h, Dev.raise_setNow]
  exact List.mem_cons_self

/-- A request clears nothing of what was set in the open tick. -/
theorem Dev.request_setNow (u : CryptoUse) (cls : CryptoClass) (ops : List CryptoOp) (covered : Bool) (rank : Nat) {x : Nat × Nat}
    (hx : x ∈ d.recorder.setNow) : x ∈ (d.request u cls ops covered rank).recorder.setNow := by
  unfold Dev.request
  extract_lets r d1
  have h1 : d1.recorder = d.recorder := by
    unfold d1
    split_ifs
    · rfl
    · rfl
  split_ifs
  · show x ∈ d1.recorder.setNow
    rwa [h1]
  · rw [Dev.raise_setNow]
    refine List.mem_cons_of_mem _ ?_
    show x ∈ d1.recorder.setNow
    rwa [h1]

theorem Dev.arcFeed_setNow (k : Fin 8) {x : Nat × Nat} (hx : x ∈ d.recorder.setNow) : x ∈ (d.arcFeed k).recorder.setNow := by
  unfold Dev.arcFeed
  extract_lets use
  split_ifs
  · exact hx
  · exact Dev.request_setNow _ _ _ _ _ hx
  · exact hx

theorem Dev.arcFeed_asks {k : Fin 8} (hon : d.arcOn = true) (hroom : d.archive.buffer.length < 256)
    (hwork : d.sec.working (.archive k) = false) (hdues : d.sec.dues = []) (hwave : d.waveReady k = true) :
    d.arcFeed k = d.request (.archive k) .archive [deriveOp, gcmOp blockRoom] false := by
  refine (if_neg ?_).trans (if_pos (.inl hwave))
  rw [hon, hwork, hdues]
  rintro (h | h | h | h)
  · exact Bool.noConfusion h
  · exact absurd h (Nat.not_le.mpr hroom)
  · exact Bool.noConfusion h
  · exact Bool.noConfusion h

/-- The archive follows the ring whether or not a program had something to write. -/
theorem Dev.programDone_setNow (ok : Bool) {x : Nat × Nat} (hnone : d.recorder.norWait = []) (hx : x ∈ (d.arcFeed 0).recorder.setNow) :
    x ∈ (d.programDone ok).recorder.setNow := by
  have hends : d.norProgrammed ok = d := by rw [Dev.norProgrammed, hnone]
  have hall : List.finRange 8 = 0 :: [1, 2, 3, 4, 5, 6, 7] := by decide
  rw [Dev.programDone, hends, hall]
  exact Dev.each_inv (d := d.arcFeed 0) (P := fun e => x ∈ e.recorder.setNow) hx fun e k _ he => e.arcFeed_setNow k he

end

/-! ### A device that asks for a seal -/

/-- A request of the ARCHIVE class that waits. -/
def archiveRequest : CryptoReq :=
  { use := .svcStep, cls := .archive, admitted := 0, rank := 640, ops := [], since := 0, cancelled := false }

/-- A device whose archive has a block's content at hand while the pool's ARCHIVE class is full (R368, R452). -/
def sealWaits : Dev :=
  { (Dev.reset.setReg Reg.memArcCfg (oneBit 31)).setReg (Reg.memXArcNs 0) 0x2000000 with
    sec := { Security.reset with queue := List.replicate 64 archiveRequest }
    archive := { Archive.reset with ns := Archive.reset.ns.set 0 { Namespace.reset with wave := [(0, List.replicate 65457 0)] } } }

theorem sealWaits_arcOn : sealWaits.arcOn = true := by decide

theorem sealWaits_nsContent : sealWaits.nsContent 0 = 2 := by
  have hheld : ((sealWaits.archive.ns.get 0).failed || (sealWaits.archive.known && (sealWaits.archive.ns.get 0).size == 0)) = false := rfl
  have hsetting : sealWaits.settingField (Reg.memXArcNs 0) 24 2 = 2 := by decide
  rw [Dev.nsContent, hheld]
  exact hsetting

theorem sealWaits_waveReady : sealWaits.waveReady 0 = true := by
  have hlength : totalLength ((sealWaits.archive.ns.get 0).wave.map Prod.snd) = 65457 := by
    show totalLength [List.replicate 65457 (0 : Byte)] = 65457
    rw [totalLength, List.map_singleton, List.length_replicate, List.sum_singleton]
  rw [Dev.waveReady, sealWaits_nsContent, hlength]
  decide

theorem sealWaits_working : sealWaits.sec.working (.archive 0) = false := by decide

theorem sealWaits_full : ¬sealWaits.sec.inClass .archive < CryptoClass.archive.quota := by decide

/-- A seal asked for where its class is full sets QUEUE_FULL (R368). -/
theorem sealWaits_arcFeed : (Reg.secEvents, 8) ∈ (sealWaits.arcFeed 0).recorder.setNow := by
  rw [Dev.arcFeed_asks sealWaits_arcOn (by decide) sealWaits_working rfl sealWaits_waveReady]
  exact Dev.request_full _ _ _ sealWaits_full

theorem sealWaits_recorder : sealWaits.recorder = Recorder.reset := rfl

/-- The event QUEUE_FULL enters the recorder of this device. -/
theorem sealWaits_programDone : (sealWaits.programDone true).recorder ≠ sealWaits.recorder := by
  have hnone : sealWaits.recorder.norWait = [] := by
    rw [sealWaits_recorder]
    rfl
  have hset := Dev.programDone_setNow true hnone sealWaits_arcFeed
  intro hsame
  rw [hsame, sealWaits_recorder] at hset
  exact absurd hset List.not_mem_nil

/-- Refutes O51: with nothing waiting to be programmed the archive still asks the pool for a seal (R452), and where its class is full the
event QUEUE_FULL enters the recorder, which the clause claims unchanged. -/
theorem not_memoryCommands : ¬ Obligations.MemoryCommands := by
  unfold Obligations.MemoryCommands
  rintro ⟨-, -, -, -, -, -, -, -, -, -, -, -, -, -, -, -, -, -, -, -, -, -, -, -, -, hnothing, -⟩
  have hdev : ∀ d : Dev, d.recorder.norWait = [] → (d.programDone true).recorder = d.recorder := fun d hnone =>
    ((hnothing { State.reset with dev := d } true hnone).claim (exec_norProgramDone true _)).1
  exact sealWaits_programDone (hdev sealWaits (by rw [sealWaits_recorder]; rfl))

end Sys2Proof.Machine
end


section
/-! SUPPORT. The archive port: what its controller is given, and how its commands end (R448 to R455). -/

namespace Sys2Proof.Machine

set_option Elab.async false

/-! ### Commands to the controller -/

/-- What issuing writes leaves of the archive; the port only begins to write (R448). -/
structure Archive.Issued (a b : Archive) : Prop where
  ns : b.ns = a.ns
  gen : b.gen = a.gen
  resets : b.resets = a.resets
  state : b.state = a.state ∨ b.state = .writing

theorem Archive.issueWrites_issued (a : Archive) (now : Tick) (fuel : Nat) : a.Issued (a.issueWrites now fuel) := by
  induction fuel generalizing a with
  | zero => exact ⟨rfl, rfl, rfl, .inl rfl⟩
  | succ fuel ih =>
    unfold Archive.issueWrites
    split
    · split_ifs
      · obtain ⟨hns, hgen, hresets, hstate⟩ := ih _
        exact ⟨hns, hgen, hresets, .inr (hstate.elim (fun h => h) fun h => h)⟩
      · exact ⟨rfl, rfl, rfl, .inl rfl⟩
    · exact ⟨rfl, rfl, rfl, .inl rfl⟩

theorem Archive.issueWrites_empty {a : Archive} (now : Tick) (h : a.buffer = []) : a.issueWrites now 64 = a := by
  unfold Archive.issueWrites
  rw [h]

theorem Archive.issueWrites_barred {a : Archive} (now : Tick) (h : a.issues = false) : a.issueWrites now 64 = a := by
  unfold Archive.issueWrites
  split
  · exact if_neg (by simp [h])
  · rfl

section
variable {d : Dev}

theorem Dev.arcIssue_issued (d : Dev) : d.archive.Issued d.arcIssue.archive := d.archive.issueWrites_issued d.now 64

theorem Dev.RegsBut.arcIssue {c : Dev} {as : List Nat} (h : c.RegsBut d as) : c.RegsBut d.arcIssue as := h.onArc

theorem Dev.arcIssue_reg (d : Dev) (a : Nat) : d.arcIssue.reg a = d.reg a := rfl

theorem Archive.idle_eq (a : Archive) : ∃ st, a.idle = { a with state := st } ∧ (st = a.state ∨ st = .ready) := by
  unfold Archive.idle
  split_ifs
  · exact ⟨_, rfl, .inr rfl⟩
  · exact ⟨_, rfl, .inl rfl⟩

/-! ### Training -/

/-- The sizes found, of a controller whose namespaces are all used (R448). -/
theorem Dev.arcIdentify_archive (d : Dev) (z : Vector Nat 8) (more : Bool) : ∃ ns buffer,
    (d.arcIdentify z more).archive = { d.archive with ns := ns, buffer := buffer } ∧
      (z.toList.sum ≤ 2 ^ 36 → ∀ k, (ns.get k).size = z.get k) := by
  unfold Dev.arcIdentify
  extract_lets upTo d1
  refine ⟨d1.archive.ns, d1.archive.buffer.filter fun b => (d1.archive.ns.get b.ns).size != 0, ?_, fun hsum k => ?_⟩
  · rw [Dev.raiseIf_archive]
    rfl
  · have hle : upTo k.1 ≤ 2 ^ 36 := by
      refine le_trans ?_ hsum
      exact List.Sublist.sum_le_sum (List.take_sublist _ _) fun _ _ => Nat.zero_le _
    show ((Vector.ofFn fun k : Fin 8 => { d.archive.ns.get k with size := if upTo k.1 ≤ 2 ^ 36 then z.get k else 0 }).get k).size = z.get k
    have hget : (Vector.ofFn fun k : Fin 8 => { d.archive.ns.get k with size := if upTo k.1 ≤ 2 ^ 36 then z.get k else 0 }).get k =
      { d.archive.ns.get k with size := if upTo k.1 ≤ 2 ^ 36 then z.get k else 0 } := Vector.getElem_ofFn k.2
    rw [hget]
    exact if_pos hle

theorem Dev.arcIdentify_regsBut (d : Dev) (z : Vector Nat 8) (more : Bool) : d.RegsBut (d.arcIdentify z more) [Reg.memArcEvents] := by
  unfold Dev.arcIdentify
  extract_lets upTo d1
  have h1 : d.RegsBut d1 [Reg.memArcEvents] := .onArc .rfl
  exact .raiseIf h1.onArc (by decide)

/-- The port as a trained link leaves it, before its controller is identified. -/
def Dev.arcPortReady (d : Dev) (g : Fin 4) : Dev :=
  d.onArc fun a => { a with state := .ready, gen := min g.1 (d.field Reg.memArcCfg 0 2) }

theorem Dev.arcTrained_of {g : Fin 4} {z : Vector Nat 8} {more : Bool} (hon : d.arcOn = true)
    (hstate : d.archive.state = .training ∨ d.archive.state = .off) :
    d.arcTrained g z more = ((d.arcPortReady g).arcIdentify z more).arcIssue := if_pos ⟨hon, hstate.symm⟩

/-! ### Sealing -/

/-- A sealed block joins the buffer with its place in the numbering (R450, R451). -/
theorem Dev.sealBlock_shows (d : Dev) (k : Fin 8) : ∃ b : ArchiveBlock, (d.sealBlock k).archive.buffer = d.archive.buffer ++ [b] ∧
    b.ns = k ∧ b.root = d.sec.vault.drk.epoch ∧ (d.sealBlock k).archive.state = d.archive.state ∧
    (d.sealBlock k).archive.held = d.archive.held ∧ (d.sealBlock k).reg (Reg.memArcNsNext k) = BitVec.ofNat 32 (b.no + 1) := by
  unfold Dev.sealBlock
  extract_lets x fresh epoch no place c head nonce body tag block d1
  exact ⟨block, rfl, rfl, rfl, rfl, rfl, (Dev.setReg_reg _ _ _ _).trans (if_pos rfl)⟩

theorem Dev.arcFeed_nsNext (d : Dev) (k j : Fin 8) : (d.arcFeed j).reg (Reg.memArcNsNext k) = d.reg (Reg.memArcNsNext k) :=
  (d.arcFeed_keeps j).reg_of (p := .rMem) (by decide +revert)

/-- A block with its content at hand is sealed, and waits where nothing is issued. -/
theorem Dev.blockSealed_waits {k : Fin 8} (hready : d.resultReady (.archive k) = true) (hempty : d.archive.buffer = [])
    (hcontent : d.waveReady k = true ∨ d.recsReady k = true) (hbarred : d.archive.issues = false) :
    ((d.blockSealed k).archive.buffer.map ArchiveBlock.ns) = [k] ∧
      (d.blockSealed k).reg (Reg.memArcNsNext k) =
        BitVec.ofNat 32 (((d.blockSealed k).archive.buffer.map ArchiveBlock.no).headD 0 + 1) ∧
      ((d.blockSealed k).archive.buffer.map ArchiveBlock.root) = [d.sec.vault.drk.epoch] := by
  have hexec : d.blockSealed k = (((d.finish (.archive k)).sealBlock k).arcIssue).arcFeed k :=
    (if_pos ⟨hready, by rw [hempty]; decide⟩).trans (if_pos hcontent)
  obtain ⟨b, hbuffer, hns, hroot, hstate, hheld, hnext⟩ := (d.finish (.archive k)).sealBlock_shows k
  rw [hexec, Dev.arcFeed_nsNext, (Dev.arcFeed_keeps _ k).archive]
  generalize (d.finish (.archive k)).sealBlock k = e at *
  have hissues : e.archive.issues = false := by
    rw [Archive.issues, hstate, hheld]
    exact hbarred
  have hissued : e.arcIssue.archive = e.archive := Archive.issueWrites_barred _ hissues
  have hsingle : e.archive.buffer = [b] := hbuffer.trans (congrArg (· ++ [b]) hempty)
  rw [hissued, hsingle, Dev.arcIssue_reg, hnext]
  exact ⟨congrArg (fun x => [x]) hns, rfl, congrArg (fun x => [x]) hroot⟩

/-! ### Completions -/

section
variable {i : Fin 64} {c : NvmeCmd} {b : ArchiveBlock}

/-- A command that has ended leaves its place, and what waits is issued. -/
def Dev.arcFreed (d : Dev) (i : Fin 64) : Dev := (d.onArc fun a => Archive.idle { a with cmds := a.cmds.set i.1 none }).arcIssue

theorem Dev.arcCompletion_ok (hc : d.archive.cmds.get i = some c) (hb : c.block = some b) :
    d.arcCompletion i true = (d.onNs b.ns fun x => x.written b).arcFreed i := by
  unfold Dev.arcCompletion
  rw [hc]
  dsimp only
  rw [hb]
  rfl

theorem Dev.arcCompletion_again (hc : d.archive.cmds.get i = some c) (hb : c.block = some b) (htries : c.tries = 0) :
    d.arcCompletion i false = d.onArc fun a => { a with cmds := a.cmds.set i.1 (some { c with tries := 1, since := d.now }) } := by
  unfold Dev.arcCompletion
  rw [hc]
  dsimp only
  rw [hb]
  exact (if_neg Bool.false_ne_true).trans (if_pos htries)

/-- A namespace fails: what waits for it is dropped, and its event is set (R453). -/
def Dev.nsFailed (d : Dev) (k : Fin 8) : Dev :=
  ((d.onNs k fun x => { x with failed := true, wave := [] }).onArc fun a => { a with
    buffer := a.buffer.filter fun o => o.ns != k }).raise .arc (8 + k.1)

theorem Dev.arcCompletion_fails (hc : d.archive.cmds.get i = some c) (hb : c.block = some b) (htries : c.tries ≠ 0) :
    d.arcCompletion i false = (d.nsFailed b.ns).arcFreed i := by
  unfold Dev.arcCompletion
  rw [hc]
  dsimp only
  rw [hb]
  exact (if_neg Bool.false_ne_true).trans (if_neg htries)

theorem Dev.arcCompletion_idle (ok : Bool) (h : (d.archive.cmds.get i).bind NvmeCmd.block = none) : d.arcCompletion i ok = d := by
  unfold Dev.arcCompletion
  cases hc : d.archive.cmds.get i with
  | none => rfl
  | some c =>
    rw [hc] at h
    have hb : c.block = none := h
    dsimp only
    rw [hb]

theorem Dev.arcFreed_ns (d : Dev) (i : Fin 64) : (d.arcFreed i).archive.ns = d.archive.ns := by
  obtain ⟨st, hidle, -⟩ := Archive.idle_eq { d.archive with cmds := d.archive.cmds.set i.1 none }
  refine (Dev.arcIssue_issued _).ns.trans ?_
  show (Archive.idle { d.archive with cmds := d.archive.cmds.set i.1 none }).ns = _
  rw [hidle]

theorem Dev.arcFreed_empty (d : Dev) (i : Fin 64) (h : d.archive.buffer = []) : (d.arcFreed i).archive.cmds.get i = none := by
  obtain ⟨st, hidle, -⟩ := Archive.idle_eq { d.archive with cmds := d.archive.cmds.set i.1 none }
  have hissued : (d.arcFreed i).archive = Archive.idle { d.archive with cmds := d.archive.cmds.set i.1 none } :=
    Archive.issueWrites_empty _ (by
      show (Archive.idle { d.archive with cmds := d.archive.cmds.set i.1 none }).buffer = []
      rw [hidle]
      exact h)
  rw [hissued, hidle]
  exact Vector.getElem_set_self i.2

theorem Dev.arcFreed_keeps (d : Dev) (i : Fin 64) : d.Keeps (d.arcFreed i) [.archive] :=
  Dev.Keeps.via (Dev.arcIssue_keeps (d.onArc fun a => Archive.idle { a with cmds := a.cmds.set i.1 none })) (Dev.onArc_keeps d _) rfl

theorem Dev.nsFailed_archive (d : Dev) (k : Fin 8) : (d.nsFailed k).archive =
    { d.archive with ns := d.archive.ns.set k.1 { d.archive.ns.get k with failed := true, wave := [] }
                     buffer := d.archive.buffer.filter fun o => o.ns != k } := by
  rw [Dev.nsFailed, Dev.raise_archive]
  rfl

theorem Dev.nsFailed_regsBut (d : Dev) (k : Fin 8) : d.RegsBut (d.nsFailed k) [Reg.memArcEvents] :=
  .raise (r := .arc) (.onArc (.onArc .rfl)) (by decide)

/-! ### Resets of the controller -/

/-- The resets of the last 10 minutes, with this one. -/
def Dev.arcResets (d : Dev) : List Tick := d.now :: d.archive.resets.filter fun t => d.now < t + secs 600

/-- The controller is reset: a read ends, and what was outstanding waits again (R453). -/
def Dev.arcReset (d : Dev) : Dev :=
  ((if d.archive.reading.isSome then d.readEnds 5 0 else d).onArc fun a => { a with
    buffer := (d.archive.cmds.toList.filterMap id).filterMap NvmeCmd.block ++ a.buffer, cmds := Vector.replicate 64 none
    resets := d.arcResets, state := if 3 ≤ d.arcResets.length then .down else .ready }).raise .arc 2

theorem Dev.arcTimeout_resets (hc : d.archive.cmds.get i = some c) (hdue : c.since + secs 2 ≤ d.now) :
    d.arcTimeout i = (d.arcReset.raiseIf (3 ≤ d.arcResets.length) .arc 3).arcIssue := by
  unfold Dev.arcTimeout
  rw [hc]
  exact if_neg (Nat.not_lt.mpr hdue)

theorem Dev.arcReset_archive (d : Dev) : d.arcReset.archive.cmds = Vector.replicate 64 none ∧ d.arcReset.archive.resets = d.arcResets ∧
    d.arcReset.archive.state = if 3 ≤ d.arcResets.length then .down else .ready := by
  rw [Dev.arcReset, Dev.raise_archive]
  exact ⟨rfl, rfl, rfl⟩

theorem Dev.arcReset_regsBut (d : Dev) : d.RegsBut d.arcReset [Reg.memArcEvents] := by
  have hended : ∀ e : Dev, (e = d ∨ e = d.readEnds 5 0) → d.RegsBut e [Reg.memArcEvents] := by
    rintro e (rfl | rfl)
    · exact .rfl
    · exact fun _ _ => rfl
  exact .raise (r := .arc) (.onArc (hended _ (by split_ifs; exacts [.inr rfl, .inl rfl]))) (by decide)

theorem Dev.arcReset_bit (d : Dev) : d.arcReset.bit Reg.memArcEvents 2 = true := Dev.raise_bit _ .arc _ _ (by decide)

end

/-! ### Reads of a block -/

section
variable {w : Word}

theorem Dev.arcRead_barred (hgo : bitOf w 31 = true) (hidle : d.archive.reading = none)
    (h : d.arcOn = false ∨ d.archive.issues = false) :
    d.arcRead w = d.onArc fun a => { a with result := 6, page := fieldOf w 0 4 } := by
  refine (if_neg (by simp [hgo, hidle])).trans (if_pos ?_)
  obtain h | h := h
  · exact .inl (by simp [h])
  · exact .inr (by simp [h])

theorem Dev.arcRead_held (hgo : bitOf w 31 = true) (hidle : d.archive.reading = none) (hon : d.arcOn = true)
    (hissues : d.archive.issues = true)
    (hcopy : ((d.archive.copy.map fun c => decide (c.1 = ((Fin.ofNat 8 (d.field Reg.memArcRdNs 0 3)) : Fin 8).1 ∧
      c.2.1 = d.reg Reg.memArcRdEpoch ∧
      c.2.2.1 = ((d.reg Reg.memArcRdBlockHi).toNat * 2 ^ 32 + (d.reg Reg.memArcRdBlockLo).toNat))).getD false) = true) :
    d.arcRead w = d.onArc fun a => { a with result := 1, page := fieldOf w 0 4 } :=
  (if_neg (by simp [hgo, hidle])).trans ((if_neg (by simp [hon, hissues])).trans (if_pos hcopy))

theorem Dev.arcRead_sought (hgo : bitOf w 31 = true) (hidle : d.archive.reading = none) (hon : d.arcOn = true)
    (hissues : d.archive.issues = true)
    (hcopy : ((d.archive.copy.map fun c => decide (c.1 = ((Fin.ofNat 8 (d.field Reg.memArcRdNs 0 3)) : Fin 8).1 ∧
      c.2.1 = d.reg Reg.memArcRdEpoch ∧
      c.2.2.1 = ((d.reg Reg.memArcRdBlockHi).toNat * 2 ^ 32 + (d.reg Reg.memArcRdBlockLo).toNat))).getD false) = false) :
    d.arcRead w = match (d.archive.ns.get (Fin.ofNat 8 (d.field Reg.memArcRdNs 0 3))).blocks.find? fun b =>
        b.epoch == d.reg Reg.memArcRdEpoch && b.no == ((d.reg Reg.memArcRdBlockHi).toNat * 2 ^ 32 + (d.reg Reg.memArcRdBlockLo).toNat) with
      | none => d.onArc fun a => { a with result := 4, page := fieldOf w 0 4 }
      | some b =>
        if b.root ≠ d.sec.vault.drk.epoch then d.onArc fun a => { a with result := 3, page := fieldOf w 0 4 }
        else
          d.onArc fun a => { a with
            reading := some (((Fin.ofNat 8 (d.field Reg.memArcRdNs 0 3)) : Fin 8).1, d.reg Reg.memArcRdEpoch,
              (d.reg Reg.memArcRdBlockHi).toNat * 2 ^ 32 + (d.reg Reg.memArcRdBlockLo).toNat, fieldOf w 0 4)
            result := 0
            cmds := match (List.finRange 64).find? fun i => (a.cmds.get i).isNone with
              | some i => a.cmds.set i.1 (some { block := none, tries := 0, since := d.now })
              | none => a.cmds } := by
  refine (if_neg (by simp [hgo, hidle])).trans ((if_neg (by simp [hon, hissues])).trans ((if_neg (by rw [hcopy]; exact Bool.false_ne_true)).trans ?_))
  rfl

theorem Dev.readEnds_archive (d : Dev) (result page : Nat) : (d.readEnds result page).archive.reading = none ∧
    (d.readEnds result page).archive.result = result ∧ (d.readEnds result page).archive.page = page ∧
    (d.readEnds result page).archive.copy = d.archive.copy := by
  obtain ⟨st, hidle, -⟩ := Archive.idle_eq { d.archive with
    reading := none, result := result, page := page
    cmds := d.archive.cmds.map fun c => c.bind fun x => if x.block.isNone then none else some x }
  have harchive : (d.readEnds result page).archive = _ := hidle
  rw [harchive]
  exact ⟨rfl, rfl, rfl, rfl⟩

/-- The head of a block read names the block that is sought (R455). -/
def blockNamed (b : List Byte) (k : Nat) (epoch : Word) (no : Nat) : Prop :=
  fieldBE (slice b 0 64) 0 4 = 0x41524342 ∧ fieldBE (slice b 0 64) 4 1 = k ∧ fieldBE (slice b 0 64) 8 4 = epoch.toNat ∧
    fieldBE (slice b 0 64) 0x10 8 = no

/-- A slice holds the bytes from its offset on, 0 past the end. -/
theorem slice_eq_map (b : List Byte) (o n : Nat) : slice b o n = (List.range n).map fun i => b.getD (o + i) 0 := by
  unfold slice
  extract_lets p
  have hlen : p.length = min n (b.length - o) := by simp [p]
  refine List.ext_getElem (by simp [hlen]) fun i h1 h2 => ?_
  have hi : i < n := by simpa using h2
  rw [List.getElem_map, List.getElem_range]
  by_cases hin : i < p.length
  · rw [List.getElem_append_left hin]
    have hb : o + i < b.length := by omega
    simp [p, hb]
  · rw [List.getElem_append_right (Nat.not_lt.mp hin), List.getElem_replicate]
    have hb : b.length ≤ o + i := by omega
    simp [hb]

/-- The head holds the block's first 64 bytes. -/
theorem fieldBE_head (b : List Byte) {o n : Nat} (h : o + n ≤ 64) : fieldBE (slice b 0 64) o n = fieldBE b o n := by
  unfold fieldBE
  rw [slice_eq_map _ o, slice_eq_map b o, slice_eq_map b 0]
  refine congrArg natBE (List.map_congr_left fun i hi => ?_)
  have hlt : o + i < 64 := by
    have := List.mem_range.mp hi
    omega
  simp [List.getD, hlt]

theorem blockNamed_iff (b : List Byte) (k : Nat) (epoch : Word) (no : Nat) : blockNamed b k epoch no ↔
    (fieldBE b 0 4 = 0x41524342 ∧ fieldBE b 4 1 = k ∧ fieldBE b 8 4 = epoch.toNat ∧ fieldBE b 0x10 8 = no) := by
  rw [blockNamed, fieldBE_head b (by decide), fieldBE_head b (by decide), fieldBE_head b (by decide), fieldBE_head b (by decide)]

/-- The content of a block read, where its tag is right (R450, R455). -/
def Dev.blockText (d : Dev) (k : Nat) (epoch : Word) (no : Nat) (b : List Byte) : Option (List Byte) :=
  Config.gcmOpen (archiveKey d.sec.vault.drk.key k epoch) (bytesBE 8 no ++ bytesBE 1 k ++ [0, 0, 0]) (slice b 0 64)
    (slice b 64 (blockRoom + 16))

variable {k : Nat} {epoch : Word} {no page : Nat} {b : List Byte}

theorem Dev.arcReadDone_wrong (hreading : d.archive.reading = some (k, epoch, no, page))
    (h : d.blockText k epoch no b = none ∨ ¬blockNamed b k epoch no) : d.arcReadDone (.data b) = d.readEnds 2 page := by
  unfold Dev.arcReadDone
  rw [hreading]
  dsimp only
  cases htext : Config.gcmOpen (archiveKey d.sec.vault.drk.key k epoch) (bytesBE 8 no ++ bytesBE 1 k ++ [0, 0, 0]) (slice b 0 64)
      (slice b 64 (blockRoom + 16)) with
  | none => rfl
  | some text =>
    obtain h | h := h
    · exact absurd (htext.symm.trans h) (by simp)
    · exact if_neg fun hnamed => h ((blockNamed_iff b k epoch no).mpr hnamed)

theorem Dev.arcReadDone_right {text : List Byte} (hreading : d.archive.reading = some (k, epoch, no, page))
    (htext : d.blockText k epoch no b = some text) (h : blockNamed b k epoch no) : ∃ ws c,
    d.arcReadDone (.data b) = (((d.setRegs (Reg.memArcRdTag 0) ws).readEnds 1 page).onArc fun a =>
      { a with copy := some (k, epoch, no, c) }) := by
  unfold Dev.arcReadDone
  rw [hreading]
  dsimp only
  rw [show Config.gcmOpen (archiveKey d.sec.vault.drk.key k epoch) (bytesBE 8 no ++ bytesBE 1 k ++ [0, 0, 0]) (slice b 0 64)
      (slice b 64 (blockRoom + 16)) = some text from htext]
  exact ⟨_, _, if_pos ((blockNamed_iff b k epoch no).mp h)⟩

end

end

end Sys2Proof.Machine
end


section
/-! The archive port. -/

namespace Sys2Proof.Machine

set_option Elab.async false

/-- Settles O52: every command ends in one update of the archive, after which what waits may be issued. -/
theorem archivePort : Obligations.ArchivePort := by
  unfold Obligations.ArchivePort
  refine ⟨?trained, ?notTrained, ?sealed, ?notSealed, ?noContent, ?written, ?again, ?nsFails, ?noWrite, ?resets, ?down, ?inTime, ?barred,
    ?held, ?unknown, ?keyGone, ?reads, ?noGo, ?ioError, ?data, ?noRead⟩
  case trained =>
    intro s g z more hon hstate
    have hexec := Dev.arcTrained_of (g := g) (z := z) (more := more) hon hstate
    obtain ⟨ns, buffer, hidentified, hsizes⟩ := (s.dev.arcPortReady g).arcIdentify_archive z more
    have hregs : s.dev.RegsBut ((s.dev.arcPortReady g).arcIdentify z more) [Reg.memArcEvents] :=
      (s.dev.arcPortReady g).arcIdentify_regsBut z more
    generalize (s.dev.arcPortReady g).arcIdentify z more = e at *
    obtain ⟨hns, hgen, -, hst⟩ := e.arcIssue_issued
    refine .of_eq (exec_pcieLinkTrained g z more s) hexec ⟨?_, ?_, ?_, .settled hregs.arcIssue⟩
    · exact hst.imp_left fun h => h.trans (by rw [hidentified]; rfl)
    · exact hgen.trans (by rw [hidentified]; rfl)
    · intro hsum k
      rw [Dev.settled_archive, hns, hidentified]
      exact hsizes hsum k
  case notTrained =>
    intro s g z more h
    refine .idle (exec_pcieLinkTrained g z more s) (if_neg ?_)
    rintro ⟨hon, hstate⟩
    obtain h | ⟨htraining, hoff⟩ := h
    · exact Bool.noConfusion (h.symm.trans hon)
    · exact hstate.elim hoff htraining
  case sealed =>
    intro s k hready hempty hcontent hbarred
    obtain ⟨hns, hnext, hroot⟩ := Dev.blockSealed_waits hready hempty hcontent hbarred
    refine .of_eq (exec_archiveBlockSealed k s) rfl ⟨hns, ?_, hroot⟩
    rw [Dev.settled_reg, hnext, Dev.settled_archive]
  case notSealed =>
    intro s k h
    refine .idle (exec_archiveBlockSealed k s) (if_neg ?_)
    rintro ⟨hready, hroom⟩
    obtain h | h := h
    · exact Bool.noConfusion (h.symm.trans hready)
    · exact absurd hroom (Nat.not_lt.mpr h)
  case noContent =>
    intro s k hready hroom hwave hrecs
    refine .of_eq (exec_archiveBlockSealed k s) ((if_pos ⟨hready, hroom⟩).trans (if_neg ?_))
      ⟨rfl, .settled (Dev.finish_keeps _ _), rfl⟩
    simp [hwave, hrecs]
  case written =>
    intro s i c b hc hb hempty
    refine .of_eq (exec_nvmeCompletion i .ok s) (Dev.arcCompletion_ok hc hb) ⟨?_, ?_, ?_⟩
    · rw [Dev.settled_archive]
      exact Dev.arcFreed_empty _ i hempty
    · rw [Dev.settled_archive, Dev.arcFreed_ns]
      rfl
    · exact .settled (.via (Dev.arcFreed_keeps _ i) (Dev.onNs_keeps _ _ _) rfl)
  case again =>
    intro s i c b hc hb htries
    exact .of_eq (exec_nvmeCompletion i .error s) (Dev.arcCompletion_again hc hb htries) ⟨rfl, .settled (.onArc .rfl)⟩
  case nsFails =>
    intro s i c b k hc hb htries hk
    have hexec := Dev.arcCompletion_fails hc hb (by rw [htries]; decide)
    have harchive := s.dev.nsFailed_archive b.ns
    have hregs := s.dev.nsFailed_regsBut b.ns
    have hbit : (s.dev.nsFailed b.ns).bit Reg.memArcEvents (8 + b.ns.1) = true := Dev.raise_bit _ .arc _ _ (by omega)
    generalize s.dev.nsFailed b.ns = e at *
    refine .of_eq (exec_nvmeCompletion i .error s) hexec ⟨?_, ?_, ?_, ?_⟩
    · rw [Dev.settled_archive, Dev.arcFreed_ns, harchive]
      exact congrArg Namespace.failed (Vector.getElem_set_self b.ns.2)
    · rw [Dev.settled_archive, Dev.arcFreed_ns, harchive]
      exact Vector.getElem_set_ne b.ns.2 k.2 fun h => hk (Fin.ext h.symm)
    · rw [Dev.settled_bit]
      exact hbit
    · exact .settled fun a ha => hregs a ha
  case noWrite =>
    intro s i st h
    exact .idle (exec_nvmeCompletion i st s) (Dev.arcCompletion_idle _ h)
  case resets =>
    intro s i c hc hdue hfew
    have hlength : ¬3 ≤ s.dev.arcResets.length := Nat.not_le.mpr (Nat.succ_lt_succ hfew)
    have hexec := Dev.arcTimeout_resets hc hdue
    obtain ⟨-, hresets, hstate⟩ := s.dev.arcReset_archive
    have hregs := s.dev.arcReset_regsBut
    have hbit := s.dev.arcReset_bit
    rw [decide_eq_false hlength, show ∀ e : Dev, e.raiseIf false .arc 3 = e from fun _ => rfl] at hexec
    rw [if_neg hlength] at hstate
    generalize s.dev.arcReset = e at *
    obtain ⟨-, -, hkept, hst⟩ := e.arcIssue_issued
    refine .of_eq (exec_nvmeTimeout i s) hexec ⟨hkept.trans hresets, ?_, ?_, .settled hregs.arcIssue⟩
    · rw [Dev.settled_archive]
      obtain h | h := hst
      · simp [h, hstate]
      · simp [h]
    · rw [Dev.settled_bit]
      exact hbit
  case down =>
    intro s i c hc hdue hmany
    have hlength : 3 ≤ s.dev.arcResets.length := Nat.succ_le_succ hmany
    have hexec := Dev.arcTimeout_resets hc hdue
    obtain ⟨hcmds, -, hstate⟩ := s.dev.arcReset_archive
    have hregs := s.dev.arcReset_regsBut
    have hbit := s.dev.arcReset_bit
    rw [decide_eq_true hlength, show ∀ e : Dev, e.raiseIf true .arc 3 = e.raise .arc 3 from fun _ => rfl] at hexec
    rw [if_pos hlength] at hstate
    generalize s.dev.arcReset = e at *
    have harchive : (e.raise .arc 3).archive = e.archive := Dev.raise_archive _ _ _ _ _
    have hbits : (e.raise .arc 3).bit Reg.memArcEvents 2 = true ∧ (e.raise .arc 3).bit Reg.memArcEvents 3 = true := by
      refine ⟨?_, e.raise_bit .arc _ _ (by decide)⟩
      rw [Dev.bit, Dev.raise_reg, if_pos (show Reg.memArcEvents = EvReg.arc.addr from rfl)]
      exact (bitOf_or _ _ _).trans (Bool.or_eq_true_iff.mpr (.inl hbit))
    have hraised : s.dev.RegsBut (e.raise .arc 3) [Reg.memArcEvents] := .raise hregs (by decide)
    generalize e.raise .arc 3 = f at *
    have hissued : f.arcIssue.archive = f.archive :=
      Archive.issueWrites_barred _ (by rw [harchive, Archive.issues, hstate]; rfl)
    refine .of_eq (exec_nvmeTimeout i s) hexec ⟨?_, ?_, ?_, ?_, .settled hraised.arcIssue⟩
    · rw [Dev.settled_archive, hissued, harchive, hstate]
    · rw [Dev.settled_archive, hissued, harchive, hcmds]
    · rw [Dev.settled_bit]
      exact hbits.1
    · rw [Dev.settled_bit]
      exact hbits.2
  case inTime =>
    intro s i h
    refine .idle (exec_nvmeTimeout i s) ?_
    unfold Dev.arcTimeout
    cases hc : s.dev.archive.cmds.get i with
    | none => rfl
    | some c =>
      refine if_pos (Nat.not_le.mp fun hdue => h ?_)
      rw [hc]
      exact congrArg some (decide_eq_true hdue)
  case barred =>
    intro s w hrec hgo hidle h
    exact .of_eq (exec_arcReadGo w s) ((Dev.hosted_of_recording _ hrec).trans (Dev.arcRead_barred hgo hidle h)) ⟨rfl, .settled (.onArc .rfl)⟩
  case held =>
    intro s w hrec hgo hidle hon hissues hcopy
    exact .of_eq (exec_arcReadGo w s) ((Dev.hosted_of_recording _ hrec).trans (Dev.arcRead_held hgo hidle hon hissues hcopy))
      ⟨rfl, .settled (.onArc .rfl)⟩
  case unknown =>
    intro s w hrec hgo hidle hon hissues hcopy hnone
    have hexec := Dev.arcRead_sought hgo hidle hon hissues hcopy
    rw [hnone] at hexec
    exact .of_eq (exec_arcReadGo w s) ((Dev.hosted_of_recording _ hrec).trans hexec) ⟨rfl, .settled (.onArc .rfl)⟩
  case keyGone =>
    intro s w b hrec hgo hidle hon hissues hcopy hsome hroot
    have hexec := Dev.arcRead_sought hgo hidle hon hissues hcopy
    rw [hsome] at hexec
    exact .of_eq (exec_arcReadGo w s) ((Dev.hosted_of_recording _ hrec).trans (hexec.trans (if_pos hroot))) ⟨rfl, .settled (.onArc .rfl)⟩
  case reads =>
    intro s w b hrec hgo hidle hon hissues hcopy hsome hroot
    have hexec := Dev.arcRead_sought hgo hidle hon hissues hcopy
    rw [hsome] at hexec
    exact .of_eq (exec_arcReadGo w s) ((Dev.hosted_of_recording _ hrec).trans (hexec.trans (if_neg fun h => h hroot)))
      ⟨rfl, rfl, .settled (.onArc .rfl)⟩
  case noGo =>
    intro s w h
    refine .idle (exec_arcReadGo w s) ?_
    unfold Dev.hosted
    split_ifs with hrec
    · refine if_pos ?_
      obtain h | h | h := h
      · simp [h] at hrec
      · exact .inl (by simp [h])
      · exact .inr h
    · rfl
  case ioError =>
    intro s k epoch no page hreading
    have hexec : s.dev.arcReadDone .ioError = s.dev.readEnds 5 page := by
      unfold Dev.arcReadDone
      rw [hreading]
    obtain ⟨hnone, hresult, hpage, hcopy⟩ := s.dev.readEnds_archive 5 page
    exact .of_eq (exec_arcReadDone .ioError s) hexec ⟨hnone, hresult, hpage, hcopy, .settled (Dev.readEnds_keeps _ _ _)⟩
  case data =>
    intro s k epoch no page b hreading
    by_cases hright : (∃ text, s.dev.blockText k epoch no b = some text) ∧ blockNamed b k epoch no
    · obtain ⟨⟨text, htext⟩, hnamed⟩ := hright
      obtain ⟨ws, c, hexec⟩ := Dev.arcReadDone_right hreading htext hnamed
      obtain ⟨hnone, hresult, hpage, -⟩ := (s.dev.setRegs (Reg.memArcRdTag 0) ws).readEnds_archive 1 page
      generalize (s.dev.setRegs (Reg.memArcRdTag 0) ws).readEnds 1 page = e at *
      refine .of_eq (exec_arcReadDone (.data b) s) hexec ⟨hnone, hpage, fun _ _ => ⟨hresult, c, rfl⟩, fun h => ?_⟩
      obtain h | h := h
      · exact absurd (htext.symm.trans h) (by simp)
      · exact absurd hnamed h
    · have hwrong : s.dev.blockText k epoch no b = none ∨ ¬blockNamed b k epoch no := by
        rw [not_and_or, not_exists] at hright
        exact hright.imp_left fun h => Option.eq_none_iff_forall_ne_some.mpr h
      have hexec := Dev.arcReadDone_wrong hreading hwrong
      obtain ⟨hnone, hresult, hpage, hcopy⟩ := s.dev.readEnds_archive 2 page
      have hregs : s.dev.RegsBut (s.dev.readEnds 2 page) [] := fun _ _ => rfl
      generalize s.dev.readEnds 2 page = e at *
      refine .of_eq (exec_arcReadDone (.data b) s) hexec ⟨hnone, hpage, fun htext hnamed => ?_, fun _ => ⟨hresult, hcopy, .settled hregs⟩⟩
      exact absurd ⟨htext, hnamed⟩ hright
  case noRead =>
    intro s r hnone
    refine .idle (exec_arcReadDone r s) ?_
    unfold Dev.arcReadDone
    rw [hnone]

end Sys2Proof.Machine
end


section
/-! The display's passes: a pass that is due takes the wanted image at its own begin, by the map as it then stands (R459, R462). -/

namespace Sys2Proof.Machine

set_option Elab.async false

section
variable {d : Dev}

/-! ### A pulse that ends -/

/-- A pulse that has lasted its time: its row is committed, its stress counted, and its common clean (R459, R460). -/
def Dev.pulsed (d : Dev) (c : Fin 8) (rest : List (Fin 8)) : Dev :=
  (((d.addStress c.1 (d.rowDiff c.1)).commitRow c.1).setDirty c.1 false).onDisp fun x => { x with pass := rest, pulseAt := d.now }

theorem Dev.pulseEnd_passDue {c : Fin 8} (hpass : d.disp.pass = [c]) (hlasted : d.disp.pulseAt + d.pulseLen ≤ d.now)
    (hdue : (d.pulsed c []).disp.passDue = true) : d.pulseEnd = (d.pulsed c []).startPass := by
  unfold Dev.pulseEnd
  rw [hpass]
  exact (if_neg (Nat.not_lt.mpr hlasted)).trans (if_pos hdue)

theorem Dev.startPass_want (h : d.disp.state = .scroll) : d.startPass.disp.want = d.wantedImage := by
  have hscroll : (d.onScroll fun x => if d.disp.state = .legend then legendContent x else x) = d := by
    rw [h]
    rfl
  unfold Dev.startPass
  rw [hscroll]
  dsimp only
  split
  · rfl
  · rfl

theorem Dev.addStress_disp (d : Dev) (c n : Nat) : ∃ stress, (d.addStress c n).disp = { d.disp with stress := stress } := by
  unfold Dev.addStress
  by_cases hn : n = 0
  · exact ⟨d.disp.stress, congrArg Dev.disp (if_pos hn)⟩
  · exact ⟨if h : c < 8 then d.disp.stress.set c (d.disp.stress.get ⟨c, h⟩ + n) else d.disp.stress, congrArg Dev.disp (if_neg hn)⟩

/-- A row committed leaves every register but the mirrored image. -/
theorem Dev.commitRow_regsBut (d : Dev) (c : Nat) {a : Nat} (ha : ∀ k < 15, a ≠ Reg.lioImage k) : (d.commitRow c).reg a = d.reg a := by
  unfold Dev.commitRow
  refine Dev.each_inv (P := fun e => e.reg a = d.reg a) rfl fun e k hk he => ?_
  dsimp only
  rw [Dev.setReg_reg, if_neg (ha k (List.mem_range.mp hk)), he]

theorem Dev.pulsed_dirtyReg (d : Dev) (c : Fin 8) (rest : List (Fin 8)) :
    (d.pulsed c rest).reg Reg.lioDirty = putField (d.reg Reg.lioDirty) c.1 1 0 := by
  have hrow : ((d.addStress c.1 (d.rowDiff c.1)).commitRow c.1).reg Reg.lioDirty = d.reg Reg.lioDirty := by
    rw [Dev.commitRow_regsBut _ _ fun k hk => by simp only [Reg.lioDirty, Reg.lioImage]; omega,
      (Dev.addStress_keeps _ _ _).reg_of (p := .rLio) rfl]
  unfold Dev.pulsed
  generalize (d.addStress c.1 (d.rowDiff c.1)).commitRow c.1 = e at *
  rw [Dev.onDisp_reg, Dev.setDirty, Dev.setField, Dev.setReg_reg, if_pos rfl, hrow]
  rfl

theorem Dev.pulsed_disp (d : Dev) (c : Fin 8) (rest : List (Fin 8)) : ∃ stress,
    (d.pulsed c rest).disp = { d.disp with stress := stress, pass := rest, pulseAt := d.now } := by
  obtain ⟨stress, hstress⟩ := d.addStress_disp c.1 (d.rowDiff c.1)
  refine ⟨stress, ?_⟩
  unfold Dev.pulsed
  rw [Dev.onDisp_disp, (Dev.setDirty_keeps _ _ _).disp, (Dev.commitRow_keeps _ _).disp, hstress]

theorem Dev.pulsed_scroll (d : Dev) (c : Fin 8) (rest : List (Fin 8)) : (d.pulsed c rest).scroll = d.scroll := by
  unfold Dev.pulsed
  rw [Dev.onDisp_scroll, (Dev.setDirty_keeps _ _ _).scroll, (Dev.commitRow_keeps _ _).scroll, (Dev.addStress_keeps _ _ _).scroll]

end

/-! ### A lamp whose place in the map is LIO_DIRTY -/

/-- The first word of an image of these pixels. -/
def firstWord (ps : List Nat) : Word :=
  BitVec.ofNat 32 (((List.range 32).filter fun b => ps.contains (32 * 0 + b)).map fun b => 2 ^ b).sum

theorem Dev.wantedImage_first (d : Dev) : d.wantedImage.get 0 = firstWord (d.scroll.elements.filterMap d.pixelOf) :=
  Vector.getElem_ofFn (by decide)

/-- The 286th half word from LIO_MAP on is the low half of LIO_DIRTY. -/
theorem Dev.pixelOf_dirty (d : Dev) : d.pixelOf 286 =
    if fieldOf (d.reg Reg.lioDirty) 0 16 < 480 then some (fieldOf (d.reg Reg.lioDirty) 0 16) else none := rfl

/-- A device whose only lamp is element 286, with common 0 dirty and under its pulse, and the next pass due. -/
def selfMapped : Dev :=
  { Dev.reset.setReg Reg.lioDirty 1 with
    pacer := { Pacer.reset with tick := 900000 }
    scroll := { Scroll.reset with lamps := [286] }
    disp := { Display.reset with state := .scroll, pass := [0], passDue := true } }

theorem selfMapped_elements : selfMapped.scroll.elements = [286] := by decide

theorem selfMapped_dirtyReg : selfMapped.reg Reg.lioDirty = 1 := by decide

theorem selfMapped_lasted : selfMapped.disp.pulseAt + selfMapped.pulseLen ≤ selfMapped.now := by decide

/-- As the pulse begins to end, the lamp stands for pixel 1. -/
theorem selfMapped_wants : selfMapped.wantedImage.get 0 = 2 := by
  rw [Dev.wantedImage_first, selfMapped_elements, List.filterMap_cons, Dev.pixelOf_dirty, selfMapped_dirtyReg]
  decide

/-- As the next pass begins, common 0 is clean and the lamp stands for pixel 0. -/
theorem selfMapped_pulsedWants : (selfMapped.pulsed 0 []).wantedImage.get 0 = 1 := by
  rw [Dev.wantedImage_first, Dev.pulsed_scroll, selfMapped_elements, List.filterMap_cons, Dev.pixelOf_dirty, Dev.pulsed_dirtyReg,
    selfMapped_dirtyReg]
  decide

theorem selfMapped_pulseEnd : selfMapped.pulseEnd.disp.want.get 0 = 1 := by
  obtain ⟨stress, hdisp⟩ := selfMapped.pulsed_disp 0 []
  have hdue : (selfMapped.pulsed 0 []).disp.passDue = true := by
    rw [hdisp]
    rfl
  have hstate : (selfMapped.pulsed 0 []).disp.state = .scroll := by
    rw [hdisp]
    rfl
  rw [Dev.pulseEnd_passDue rfl selfMapped_lasted hdue, Dev.startPass_want hstate, selfMapped_pulsedWants]

/-- Refutes O53: the pass that is due takes the image by the map as the ended pulse left it. A lit element of number 286 has its place in
the map at LIO_DIRTY, whose bit the end of the pulse clears, so the image taken is not the one that was wanted before. -/
theorem not_displayRules : ¬ Obligations.DisplayRules := by
  unfold Obligations.DisplayRules
  rintro ⟨-, -, -, -, -, -, -, -, hdue, -⟩
  have hwant : ∀ d : Dev, d.disp.pass = [0] → d.disp.pulseAt + d.pulseLen ≤ d.now → d.disp.passDue = true → d.disp.state = .scroll →
      d.pulseEnd.disp.want = d.wantedImage := fun d hpass hlasted hpassDue hstate =>
    ((hdue { State.reset with dev := d } 0 hpass hlasted hpassDue hstate).claim (exec_bistablePulseEnd _)).2.1
  have hsame := congrArg (fun v => v.get 0) (hwant selfMapped rfl selfMapped_lasted rfl rfl)
  rw [selfMapped_pulseEnd, selfMapped_wants] at hsame
  exact absurd hsame (by decide)

end Sys2Proof.Machine
end


section
/-! SUPPORT. The tick counter: what leaves it as it is. Only a closure counts it, and only resets and the exit from DORMANT set it. -/

namespace Sys2Proof.Machine

set_option Elab.async false

/-- The second device stands in the tick of the first. -/
def Dev.SameNow (d e : Dev) : Prop := e.now = d.now

theorem Dev.SameNow.rfl {d : Dev} : d.SameNow d := Eq.refl _

theorem Dev.SameNow.via {a b c : Dev} (h2 : b.SameNow c) (h1 : a.SameNow b) : a.SameNow c := Eq.trans h2 h1

theorem Dev.SameNow.of_keeps {a b : Dev} {l : List Part} (h : a.Keeps b l) (hp : Part.isIn l .pacer = false := by rfl) :
    a.SameNow b := h.now hp

theorem Dev.SameNow.kept {a b c : Dev} {l : List Part} (h2 : b.Keeps c l) (h1 : a.SameNow b)
    (hp : Part.isIn l .pacer = false := by rfl) : a.SameNow c := .via (.of_keeps h2 hp) h1

theorem Dev.onPacer_now {d : Dev} {f : Pacer → Pacer} {t : Tick} (hf : ∀ p, (f p).tick = t) : (d.onPacer f).now = t := hf _

theorem Dev.SameNow.onPacer {a b : Dev} {f : Pacer → Pacer} (hf : ∀ p, (f p).tick = p.tick) (h : a.SameNow b) :
    a.SameNow (b.onPacer f) := .via (hf _) h

theorem Dev.SameNow.ite {d e f : Dev} {c : Prop} [Decidable c] (h1 : d.SameNow e) (h2 : d.SameNow f) :
    d.SameNow (if c then e else f) := by
  split
  · exact h1
  · exact h2

theorem Dev.SameNow.each {α : Type} {d e : Dev} {xs : List α} {f : Dev → α → Dev} (hf : ∀ e x, Dev.SameNow e (f e x))
    (h : d.SameNow e) : d.SameNow (e.each xs f) := by
  unfold Dev.each
  induction xs generalizing e with
  | nil => exact h
  | cons x xs ih => exact ih (.via (hf e x) h)

/-! ### Laps, sessions and credentials -/

theorem Dev.lapFirst_sameNow (d : Dev) : d.SameNow d.lapFirst := d.lapFirst_now

theorem Dev.beginLap_sameNow (d : Dev) : d.SameNow d.beginLap := d.beginLap_now

theorem Dev.closeLap_sameNow (d : Dev) (activation : Bool) : d.SameNow (d.closeLap activation) := by
  rw [Dev.SameNow, Dev.now, Dev.closeLap_pacer]
  rfl

theorem Dev.startSession_sameNow (d : Dev) (n : LinkId) (c : HeldCredential) : d.SameNow (d.startSession n c) := by
  unfold Dev.startSession
  extract_lets e d1 d2
  have h1 : d.SameNow d1 := .kept (Dev.onVeh_keeps _ _ _) (.kept (Dev.openSession_keeps _ _ _ _ _ _ _) d.lapFirst_sameNow)
  have h2 : d.SameNow d2 := .kept (Dev.toState_keeps _ _ _) h1
  exact .kept (Dev.refreshReq_keeps _ _) (.via (Dev.countField_now _ _ _ _ _) (.via (Dev.raise_now _ _ _ _ _) h2))

theorem Dev.endSession_sameNow (d : Dev) (n : LinkId) (why : StopReason) : d.SameNow (d.endSession n why) := by
  unfold Dev.endSession
  refine .ite ?_ .rfl
  extract_lets d0 d1 d2
  have h1 : d.SameNow d1 := .via (Dev.raise_now _ _ _ _ _) (.kept (Dev.lastEnd_keeps _ _ _ _)
    (.kept (Dev.closeSession_keeps _ _ _) d.lapFirst_sameNow))
  have h2 : d.SameNow d2 := .kept (Dev.toState_keeps _ _ _) (.kept (Dev.onVeh_keeps _ _ _) h1)
  exact .kept (Dev.abortWhere_keeps _ _ _) (.kept (Dev.refreshReq_keeps _ _) (.kept (Dev.coolingRunOn_keeps _ _) h2))

theorem Dev.endStopped_sameNow (d : Dev) (n : LinkId) : d.SameNow (d.endStopped n) := by
  have h := d.endSession_sameNow n (d.link n).veh.stopWhy
  exact .ite (.kept (Dev.toState_keeps _ _ _) h)
    (.ite (.kept (Dev.toState_keeps _ _ _) (.kept (Dev.onVeh_keeps _ _ _) h)) h)

theorem Dev.applyCredential_sameNow (d : Dev) (n : LinkId) (h : HeldCredential) : d.SameNow (d.applyCredential n h) :=
  .ite (.ite (.kept (Dev.onVeh_keeps _ _ _) .rfl) (d.startSession_sameNow n h)) (.kept (Dev.onVeh_keeps _ _ _) .rfl)

theorem Dev.judgeCredential_sameNow (d was : Dev) (n : LinkId) (c : Credential) : d.SameNow (d.judgeCredential was n c) := by
  unfold Dev.judgeCredential
  extract_lets code d1
  have h1 : d.SameNow d1 := .kept (Dev.showDecision_keeps _ _ _ _ _) .rfl
  split
  case h_1 t _ _ =>
    have h2 : d.SameNow (if c.path = .remote then d1.setReg (Reg.tagTRemoteSerial t) c.serial else d1) :=
      .ite (.via (Dev.setReg_now _ _ _) h1) h1
    exact .ite h2 (.via (Dev.applyCredential_sameNow _ _ _) h2)
  case h_2 => exact .kept (Dev.refuseOutlet_keeps _ _ _) h1

theorem Dev.remoteStart_sameNow (d was : Dev) (b : List Byte) (late : Bool) : d.SameNow (d.remoteStart was b late) := by
  unfold Dev.remoteStart
  extract_lets c
  split
  · exact .ite (Dev.judgeCredential_sameNow _ _ _ _) (.of_keeps (Dev.judgeAstray_keeps _ _ _))
  · exact .of_keeps (Dev.judgeAstray_keeps _ _ _)

theorem Dev.applyTime_sameNow (d : Dev) (us leap : Nat) : d.SameNow (d.applyTime us leap) := by
  unfold Dev.applyTime
  extract_lets now e p was diff set d1 d2
  have hset (q : Pacer) : (set q).tick = q.tick := Eq.refl _
  have he : d.SameNow e := d.lapFirst_sameNow
  have h1 : d.SameNow d1 := .kept (Dev.stepDemand_keeps _) (.via (Dev.raise_now _ _ _ _ _) he)
  have h2 : d.SameNow d2 := .onPacer hset (.via (Dev.closeLap_sameNow _ _) (.onPacer (fun p => p.atTick_tick _) h1))
  refine .ite (.kept (Dev.setBudget_keeps _) (.onPacer hset he)) (.ite
    (.via (Dev.raise_now _ _ _ _ _) (.onPacer hset he)) (.ite ?_ (.onPacer hset ?_)))
  · exact .via (Dev.beginLap_sameNow _) (.kept (Dev.mirror_keeps _) (.kept (Dev.periodStep_keeps _) h2))
  · exact .ite (.kept (Dev.flagClosedLap_keeps _ _) h1) h1

theorem Dev.consume_sameNow (d was : Dev) (path : ObjectPath) (b : List Byte) (admitted : Tick) (late : Bool) :
    d.SameNow (d.consume was path b admitted late).1 := by
  unfold Dev.consume
  extract_lets body s d1
  have h1 : d.SameNow d1 := .ite (.of_keeps (Dev.noteSerial_keeps _ _ _ _)) .rfl
  split
  · exact .of_keeps (Dev.applyGrant_keeps _ _ _ _ _ _)
  · exact d.remoteStart_sameNow was b late
  · split
    · exact .via (Dev.SameNow.of_keeps (Dev.applyBlocks_keeps _ _ _ _ ‹_›)) h1
    · exact .rfl
  · exact .kept (Dev.applyLimit_keeps _ _ _ _) h1
  · exact .via (Dev.applyTime_sameNow _ _ _) h1
  · exact .of_keeps (Dev.beginRoot_keeps _ _ _)
  · exact .of_keeps (Dev.offerManifest_keeps _ _ _ _ _)
  · exact .rfl

theorem Dev.objectDone_sameNow (d was : Dev) (path : ObjectPath) (late : Bool) : d.SameNow (d.objectDone was path late) := by
  unfold Dev.objectDone
  split
  · extract_lets s code r
    have hr : d.SameNow r.1 := Dev.consume_sameNow _ _ _ _ _ _
    exact .ite (.kept (Dev.subDone_keeps _ _ _) (.of_keeps (Dev.engineTakes_keeps _ _)))
      (.ite (.of_keeps (Dev.subDone_keeps _ _ _)) (.ite hr (.kept (Dev.subDone_keeps _ _ _) hr)))
  · split
    · exact .rfl
    · extract_lets d1 code r
      have h1 : d.SameNow d1 := .of_keeps (Dev.onSec_keeps _ _)
      have hr : d.SameNow r.1 := .via (Dev.consume_sameNow _ _ _ _ _ _) h1
      exact .ite (.via (Dev.raise_now _ _ _ _ _) h1) (.ite hr (.via (Dev.raise_now _ _ _ _ _) hr))

theorem Dev.tagResult_sameNow (d was : Dev) (n : LinkId) (path : AuthPath) (o : TagOutcome) :
    d.SameNow (d.tagResult was n path o) := by
  cases o with
  | noCard => exact .rfl
  | refused code tenant => exact .kept (Dev.refuseOutlet_keeps _ _ _) (.of_keeps (Dev.showDecision_keeps _ _ _ _ _))
  | bad tenant => exact Dev.judgeCredential_sameNow _ _ _ _
  | ambiguous => exact .of_keeps (Dev.refuseUnnamed_keeps _ _ _ _)
  | timeout tenant =>
    cases tenant with
    | none => exact .of_keeps (Dev.refuseUnnamed_keeps _ _ _ _)
    | some tenant => exact .kept (Dev.refuseOutlet_keeps _ _ _) (.of_keeps (Dev.showDecision_keeps _ _ _ _ _))
  | credential tenant ident days => exact Dev.judgeCredential_sameNow _ _ _ _

theorem Dev.applyCommit_sameNow (d was : Dev) (c : Commit) : d.SameNow (d.applyCommit was c) := by
  cases c with
  | tagResult n path o => exact d.tagResult_sameNow was n path o
  | contract w late => exact d.judgeCredential_sameNow was w.link _
  | object path late => exact d.objectDone_sameNow was path late
  | rootTest t => exact .of_keeps (Dev.rootTested_keeps _ _)
  | drkTest => exact .of_keeps (Dev.drkTested_keeps _)

theorem Dev.commitAll_sameNow (d was : Dev) : d.SameNow (d.commitAll was) :=
  .each (fun e x => e.applyCommit_sameNow was x.2) .rfl

theorem Dev.toAuthorizing_sameNow (d : Dev) (n : LinkId) : d.SameNow (d.toAuthorizing n) := by
  unfold Dev.toAuthorizing
  extract_lets d1
  have h1 : d.SameNow d1 := .of_keeps (Dev.toState_keeps _ _ _)
  split
  · exact .via (Dev.applyCredential_sameNow _ _ _) (.kept (Dev.onVeh_keeps _ _ _) h1)
  · exact h1

theorem Dev.plugWait_sameNow (d : Dev) (n : LinkId) : d.SameNow (d.plugWait n) := by
  unfold Dev.plugWait
  extract_lets v w basic w1 d1
  have h1 : d.SameNow d1 := .via (Dev.raiseIf_now _ _ _ _ _) (.of_keeps (Dev.onVeh_keeps _ _ _))
  exact .ite (.ite (.via (Dev.toAuthorizing_sameNow _ _) (.kept (Dev.onVeh_keeps _ _ _) h1)) h1)
    (.ite .rfl (.ite (.of_keeps (Dev.onVeh_keeps _ _ _)) .rfl))

/-! ### The commands of the sessions -/

theorem Dev.authRequest_sameNow (d : Dev) (n : LinkId) (form : V2gForm) (contract : Option ContractChain) :
    d.SameNow (d.authRequest n form contract) := by
  have hbad : d.SameNow (d.badMessage n) := .of_keeps (Dev.badMessage_keeps _ _)
  have hon : d.SameNow (d.answer n .ongoing) := .of_keeps (Dev.answer_keeps _ _ _)
  have hpresent {e : Dev} (he : d.SameNow e) (c : ContractChain) : d.SameNow (e.presentContract n c) :=
    .kept (Dev.presentContract_keeps _ _ _) he
  unfold Dev.authRequest
  extract_lets v plugCharge d1 d2 d3
  have h1 : d.SameNow d1 := .via (Dev.toAuthorizing_sameNow _ _) hon
  have h2 : d.SameNow d2 := .ite (.kept (Dev.answer_keeps _ _ _) h1) h1
  split
  · refine .ite hbad ?_
    split
    · exact .ite (hpresent h2 _) h2
    · exact h2
  · refine .ite hbad ?_
    split
    · exact .ite (hpresent hon _) hon
    · exact hon
  · exact .ite hbad (.of_keeps (Dev.answer_keeps _ _ _))
  · exact .ite hbad .rfl

theorem Dev.endIfOpen_sameNow (d : Dev) (n : LinkId) : d.SameNow (d.endIfOpen n) :=
  .ite (d.endStopped_sameNow n) .rfl

theorem Dev.weldFault_sameNow (d : Dev) (n : LinkId) (k : Fin 16) : d.SameNow (d.weldFault n k) := by
  unfold Dev.weldFault
  refine .ite ?_ .rfl
  extract_lets d1 e d2 v
  have h1 : d.SameNow d1 := .of_keeps (Dev.onCon_keeps _ _ _)
  split
  · exact .kept (Dev.linkCause_keeps _ _ _ _ _) (.kept (Dev.withdraw_keeps _ _ _) (.kept (Dev.abortWhere_keeps _ _ _) h1))
  · have h2 : d.SameNow d2 := .kept (Dev.linkCause_keeps _ _ _ _ _) h1
    exact .ite (.via (Dev.endStopped_sameNow _ _) h2) h2
  · exact h1

theorem Dev.causeOn_sameNow (d : Dev) (r : EvReg) (b : Nat) (c : Cause) (n : Option LinkId) (ns : List LinkId) (gone : Bool) :
    d.SameNow (d.causeOn r b c n ns gone) := .kept (Dev.trip_keeps _ _ _ _) (Dev.raiseAlways_now _ _ _ _ _)

theorem Dev.overcurrent_sameNow (d : Dev) (n : LinkId) (ch : Fin 8) : d.SameNow (d.overcurrent n ch) :=
  .ite (.via (Dev.causeOn_sameNow _ _ _ _ _ _ _) (.via (Dev.count_now _ _ _) (.kept (Dev.onMet_keeps _ _ _)
    d.lapFirst_sameNow))) d.lapFirst_sameNow

theorem Dev.senseOpened_sameNow (d : Dev) (n : LinkId) : d.SameNow (d.senseOpened n) :=
  .ite (.kept (Dev.startStop_keeps _ _ _ _) (.via (Dev.raise_now _ _ _ _ _) (.kept (Dev.onMet_keeps _ _ _)
    d.lapFirst_sameNow))) d.lapFirst_sameNow

theorem Dev.sealTo_sameNow (d : Dev) (new : SealState) : d.SameNow (d.sealTo new) := by
  unfold Dev.sealTo
  extract_lets e old d1 d2 d3
  have he : d.SameNow e := d.lapFirst_sameNow
  have h1 : d.SameNow d1 := .kept (Dev.onBilling_keeps _ _) he
  have h2 : d.SameNow d2 := .each (fun e n => .of_keeps (e.onBill_keeps n _)) (.via (Dev.setReg_now _ _ _)
    (.via (Dev.count_now _ _ _) h1))
  have h3 : d.SameNow d3 := .each (fun e n => .of_keeps (e.onMet_keeps n _)) (.via (Dev.raiseAlways_now _ _ _ _ _) h1)
  exact .ite he (.ite (.via (Dev.raiseAlways_now _ _ _ _ _) h2) (.ite (.ite (.kept (Dev.trigger_keeps _ _) h3) h3) h1))

end Sys2Proof.Machine
end


section
/-! SUPPORT. The tick counter through the modes, the supplies, the resets and the functions of the configuration. -/

namespace Sys2Proof.Machine

set_option Elab.async false

/-! ### Supplies and modes -/

theorem Dev.lastGasp_sameNow (d : Dev) : d.SameNow d.lastGasp :=
  .kept (Dev.commitTotals_keeps _) (.kept (Dev.mirror_keeps _) (.via (Dev.setReg_now _ _ _) d.lapFirst_sameNow))

theorem Dev.unbrace_sameNow (d : Dev) : d.SameNow d.unbrace := by
  unfold Dev.unbrace
  extract_lets d0 d1 d2
  have h0 : d.SameNow d0 := .each (fun e _ => .of_keeps (e.dropSeg_keeps _)) .rfl
  have h2 : d.SameNow d2 := .kept (Dev.onUpd_keeps _ _) (.via (Dev.raiseIf_now _ _ _ _ _) (.kept (Dev.onAlloc_keeps _ _) h0))
  refine .each (fun e n => ?_) (.via (Dev.raise_now _ _ _ _ _) (.onPacer (fun _ => Eq.refl _) (.kept (Dev.onPower_keeps _ _) h2)))
  split
  · exact .ite (e.startSession_sameNow n _) .rfl
  · exact .rfl

theorem Dev.supplyWarning_sameNow (d : Dev) (src : SupplySource) : d.SameNow (d.supplyWarning src) := by
  unfold Dev.supplyWarning
  extract_lets arg d1
  have h1 : d.SameNow d1 := .via (Dev.raise_now _ _ _ _ _) (.of_keeps (Dev.onPower_keeps _ _))
  exact .ite h1 (.ite (.via (Dev.lastGasp_sameNow _) (.kept (Dev.onPower_keeps _ _) h1))
    (.via (Dev.lastGasp_sameNow _) (.kept (Dev.braceUp_keeps _) h1)))

theorem Dev.supplyRecovery_sameNow (d : Dev) (since : Tick) : d.SameNow (d.supplyRecovery since) :=
  .ite d.unbrace_sameNow .rfl

theorem Dev.closeForDormant_sameNow (d : Dev) : d.SameNow d.closeForDormant :=
  .ite .rfl (.ite (.onPacer (fun _ => Eq.refl _) (.of_keeps (Dev.flagClosedLap_keeps _ _)))
    (.via (Dev.closeLap_sameNow _ _) (.onPacer (fun _ => Eq.refl _) .rfl)))

theorem Dev.enterDormant_sameNow (d : Dev) : d.SameNow d.enterDormant := by
  unfold Dev.enterDormant
  extract_lets d1
  have h1 : d.SameNow d1 := .kept (Dev.sendPmb_keeps _ _) (.kept (Dev.onDisp_keeps _ _) (.kept (Dev.abortAll_keeps _ _)
    d.closeForDormant_sameNow))
  exact .each (fun e n => .of_keeps (e.onOut_keeps n _)) (.kept (Dev.freeAll_keeps _)
    (.onPacer (fun _ => Eq.refl _) (.kept (Dev.onPower_keeps _ _) h1)))

theorem Dev.leaveSafeHalt_sameNow (d : Dev) : d.SameNow d.leaveSafeHalt := by
  unfold Dev.leaveSafeHalt
  extract_lets d1 d2
  have h1 : d.SameNow d1 := .of_keeps (Dev.onPower_keeps _ _)
  have h2 : d.SameNow d2 := .kept (Dev.updateAtRun_keeps _) (.kept (Dev.freeAll_keeps _) h1)
  exact .ite (.ite h2 (.via (Dev.beginLap_sameNow _) h2)) h1

theorem Dev.enterActivation_sameNow (d : Dev) : d.SameNow d.enterActivation := by
  unfold Dev.enterActivation
  extract_lets d1
  have h1 : d.SameNow d1 := .ite .rfl (.ite (.onPacer (fun _ => Eq.refl _) .rfl) (d.closeLap_sameNow true))
  exact .kept (Dev.haltAllocation_keeps _) (.kept (Dev.onPower_keeps _ _) (.kept (Dev.endHolds_keeps _) h1))

theorem Dev.applyTrigger_sameNow (d : Dev) (t : ModeTrigger) : d.SameNow (d.applyTrigger t) := by
  have hpending : d.SameNow (d.onPower fun p => { p with pending := some t }) := .of_keeps (Dev.onPower_keeps _ _)
  cases t with
  | toRunFromEconomy host => exact .ite (.of_keeps (Dev.onPower_keeps _ _)) .rfl
  | toActivation => exact d.enterActivation_sameNow
  | toDormant host =>
    cases host with
    | false => exact .via (Dev.enterDormant_sameNow _) (.of_keeps (Dev.onPower_keeps _ _))
    | true => exact .ite d.enterDormant_sameNow (.of_keeps (Dev.refuseMode_keeps _ _))
  | _ => exact hpending

theorem Dev.resolveModes_sameNow (d : Dev) : d.SameNow d.resolveModes := by
  unfold Dev.resolveModes
  extract_lets p ts refused d0 d1 win d2
  have hrefused (e : Dev) (gone : List ModeTrigger) : e.SameNow (refused e gone) := .ite (.of_keeps (Dev.refuseMode_keeps _ _)) .rfl
  have h0 : d.SameNow d0 := .of_keeps (Dev.onPower_keeps _ _)
  have h1 : d.SameNow d1 := .kept (Dev.boundaryTransition_keeps _) h0
  have h2 : d.SameNow d2 := by
    unfold d2
    cases win with
    | some t => exact .via (Dev.applyTrigger_sameNow _ _) (.via (hrefused _ _) h1)
    | none => exact h1
  exact .ite (.kept (Dev.enterSafeHalt_keeps _) (.via (hrefused _ _) h0)) (.ite (.via (Dev.leaveSafeHalt_sameNow _) h2) h2)

/-! ### Bring-up and resets -/

theorem Dev.closeInterrupted_sameNow (d : Dev) : d.SameNow d.closeInterrupted := by
  unfold Dev.closeInterrupted
  extract_lets d1 d2 d3
  exact Dev.onPacer_now fun _ => Eq.refl _

theorem Dev.enterRun_sameNow (d : Dev) : d.SameNow d.enterRun := by
  unfold Dev.enterRun
  extract_lets d1 d2 d3 d4 d5 d6
  have h1 : d.SameNow d1 := .of_keeps (Dev.remask_keeps _)
  have h3 : d.SameNow d3 := .kept (Dev.onPower_keeps _ _) (.kept (Dev.startSigning_keeps _) (.via (Dev.closeInterrupted_sameNow _) h1))
  have h4 : d.SameNow d4 := .kept (Dev.holdVersions_keeps _) (.ite (.via (Dev.setReg_now _ _ _) h3) h3)
  have h5 : d.SameNow d5 := .kept (Dev.setBudget_keeps _) h4
  have h6 : d.SameNow d6 := .ite (.kept (Dev.updateAtRun_keeps _) (.kept (Dev.freeAll_keeps _) h5)) h5
  exact .ite (.via (Dev.beginLap_sameNow _) h6) h6

theorem Dev.coreReset_now (d : Dev) (cold : Bool) : (d.coreReset cold).now = if cold then 0 else d.now := Eq.refl _

theorem Dev.internalReset_sameNow (d : Dev) : d.SameNow d.internalReset :=
  .via (Dev.coreReset_now _ false) (.of_keeps (Dev.stopFrames_keeps _))

theorem Dev.swap_sameNow (d : Dev) : d.SameNow d.swap := by
  unfold Dev.swap
  extract_lets d1
  have h1 : d.SameNow d1 := .of_keeps (Dev.onUpd_keeps _ _)
  exact .kept (Dev.onPower_keeps _ _) (.kept (Dev.armBoot_keeps _) (.via (Dev.internalReset_sameNow _) h1))

theorem Dev.retreat_sameNow (d : Dev) (why : Nat) : d.SameNow (d.retreat why) := by
  unfold Dev.retreat
  extract_lets d1 d2
  have h1 : d.SameNow d1 := .of_keeps (Dev.onUpd_keeps _ _)
  have h2 : d.SameNow d2 := by
    unfold d2
    split
    · exact .kept (Dev.onCfg_keeps _ _) h1
    · exact h1
  exact .kept (Dev.armBoot_keeps _) (.via (Dev.internalReset_sameNow _) h2)

theorem Dev.enterRunStep_sameNow (d : Dev) (fwOk keysOk : Bool) (found : List ScrubFound) :
    d.SameNow (d.enterRunStep fwOk keysOk found) :=
  .ite (.ite (.ite (d.retreat_sameNow 2) (.of_keeps (Dev.bringupFails_keeps _ _ _)))
    (.ite (.kept (Dev.bringupFails_keeps _ _ _) (.of_keeps (Dev.onSec_keeps _ _)))
      (.via (Dev.enterRun_sameNow _) (.kept (Dev.firstPass_keeps _ _) (.of_keeps (Dev.onSec_keeps _ _)))))) .rfl

theorem Dev.headsArmed_sameNow (d : Dev) : d.SameNow d.headsArmed :=
  .ite (.ite d.swap_sameNow (.ite (d.retreat_sameNow 3) .rfl)) .rfl

theorem Dev.loaderDone_sameNow (d : Dev) (ok : Bool) (took : Word) : d.SameNow (d.loaderDone ok took) :=
  .ite (.ite (.kept (Dev.swapped_keeps _) (Dev.setReg_now _ _ _)) (.via (Dev.retreat_sameNow _ _) (Dev.setReg_now _ _ _))) .rfl

theorem Dev.windowExpired_sameNow (d : Dev) : d.SameNow d.windowExpired :=
  .ite (.via (Dev.retreat_sameNow _ _) (.of_keeps (Dev.lastWord_keeps _ _ _))) .rfl

theorem Dev.dormantEntryEnd_sameNow (d : Dev) : d.SameNow d.dormantEntryEnd := by
  unfold Dev.dormantEntryEnd
  refine .ite ?_ .rfl
  extract_lets d1
  have h1 : d.SameNow d1 := d.coreReset_now false
  exact .onPacer (fun _ => Eq.refl _) (.kept (Dev.onPower_keeps _ _) h1)

/-- The tick counter goes on, or starts over at zero. -/
def Dev.Restarts (d e : Dev) : Prop := d.SameNow e ∨ e.now = 0

theorem Dev.Restarts.ite {d e f : Dev} {c : Prop} [Decidable c] (h1 : d.Restarts e) (h2 : d.Restarts f) :
    d.Restarts (if c then e else f) := by
  split
  · exact h1
  · exact h2

theorem Dev.Restarts.via {d e f : Dev} (hef : e.SameNow f) : d.Restarts e → d.Restarts f
  | .inl h => .inl (.via hef h)
  | .inr h => .inr (Eq.trans hef h)

theorem Dev.resetAll_now (d : Dev) : d.resetAll.now = 0 := by
  unfold Dev.resetAll
  extract_lets d0
  rw [Dev.onPower_now]
  exact d0.coreReset_now true

theorem Dev.railReset_restarts (d : Dev) (rail : Rail) : d.Restarts (d.railReset rail) :=
  .ite (.inl .rfl) (.ite (.inl (.of_keeps (Dev.onPower_keeps _ _)))
    (.via (.of_keeps (Dev.onPower_keeps _ _)) (.inr (Dev.resetAll_now _))))

theorem Dev.porAssert_restarts (d : Dev) : d.Restarts d.porAssert :=
  .ite (.inl .rfl) (.via (.of_keeps (Dev.onPower_keeps _ _)) (.ite (.inl .rfl) (.inr (Dev.resetAll_now _))))

theorem Dev.powerOn_now (d : Dev) (loaderOk : Bool) : (d.powerOn loaderOk).now = 0 := by
  unfold Dev.powerOn
  extract_lets d1 d2
  have h1 : d1.now = 0 := Eq.trans (Dev.drew_now _) (Dev.onPacer_now fun _ => Eq.refl _)
  have h2 : d1.SameNow d2 := .kept (Dev.armBoot_keeps _) (.of_keeps (Dev.onPower_keeps _ _))
  exact Eq.trans (Dev.SameNow.ite (.kept (Dev.onPower_keeps _ _) h2) h2) h1

theorem Dev.paceLoss_sameNow (d : Dev) : d.SameNow d.paceLoss :=
  .ite .rfl (.kept (Dev.deviceCause_keeps _ _ _) (.via (Dev.raise_now _ _ _ _ _)
    (.kept (Dev.onProtection_keeps _ _) (.onPacer (fun _ => Eq.refl _) .rfl))))

theorem Dev.porRelease_restarts (d : Dev) (testEn paceOk loaderOk : Bool) : d.Restarts (d.porRelease testEn paceOk loaderOk) := by
  unfold Dev.porRelease
  refine .ite ?_ (.inl .rfl)
  extract_lets d1 d2
  have h2 : d.Restarts d2 := .inr (Dev.powerOn_now _ _)
  exact .ite (.ite h2 (.via (Dev.paceLoss_sameNow _) h2)) (.inl (.of_keeps (Dev.onPower_keeps _ _)))

theorem Dev.railResetRelease_restarts (d : Dev) (loaderOk : Bool) : d.Restarts (d.railResetRelease loaderOk) :=
  .ite (.ite (.inl (.of_keeps (Dev.onPower_keeps _ _))) (.inr (Dev.powerOn_now _ _))) (.inl .rfl)

/-! ### The exit from DORMANT -/

theorem Pacer.wake_tick (p : Pacer) (draw : Nat) : p.dormantTick ≤ (p.wake draw).tick := Nat.le_add_right _ _

theorem Dev.leaveDormant_now (d : Dev) (c : WakeCause) : d.pacer.dormantTick ≤ (d.leaveDormant c).now := by
  unfold Dev.leaveDormant
  extract_lets early d1 d2 d3
  have h1 : d1.now = (d.pacer.wake d.drawn.toNat).tick := by
    rw [Dev.setReg_now, Dev.drew_now, Dev.now, Dev.onPacer_pacer]
  have h2 : d1.SameNow d2 := .kept (Dev.armBoot_keeps _) (.of_keeps (Dev.onPower_keeps _ _))
  have h3 : d1.SameNow d3 := .via (Dev.drew_now _) (.kept (Dev.onPower_keeps _ _) h2)
  rw [Dev.raiseIf_now, h3, h1]
  exact d.pacer.wake_tick _

theorem Dev.wakeRailsInRange_now (d : Dev) :
    d.SameNow d.wakeRailsInRange ∨ d.pacer.dormantTick ≤ d.wakeRailsInRange.now := by
  unfold Dev.wakeRailsInRange
  split
  · split
    · exact .inr (d.leaveDormant_now _)
    · exact .inl .rfl
  · exact .inl .rfl

/-! ### The Pacer's own events -/

theorem Pacer.turnOver_tick (p : Pacer) : p.turnOver.tick = p.tick := by
  unfold Pacer.turnOver
  grind

theorem Dev.calendarSecond_sameNow (d : Dev) : d.SameNow d.calendarSecond :=
  .ite (.onPacer Pacer.turnOver_tick .rfl) (.onPacer (fun p => p.atTick_tick _) .rfl)

theorem Dev.paceDriftCheck_sameNow (d : Dev) (periods : Nat) : d.SameNow (d.paceDriftCheck periods) :=
  .ite (.via (Dev.raiseIf_now _ _ _ _ _) (.via (Dev.setReg_now _ _ _) (.onPacer (fun _ => Eq.refl _) .rfl))) .rfl

theorem Dev.overrun_sameNow (d : Dev) (arg : Word) : d.SameNow (d.overrun arg) := by
  unfold Dev.overrun
  extract_lets d1 d2
  have h1 : d.SameNow d1 := .via (Dev.count_now _ _ _) (Dev.raiseAlways_now _ _ _ _ _)
  exact .ite (.kept (Dev.deviceCause_keeps _ _ _) h1) (.kept (Dev.sendVout_keeps _ _) (.onPacer (fun _ => Eq.refl _) h1))

theorem Dev.lapOverrun_sameNow (d : Dev) (cls : WorkClass) (late : List LinkId) : d.SameNow (d.lapOverrun cls late) :=
  .via (Dev.overrun_sameNow _ _) (.each (fun e n => .ite (.of_keeps (e.onMet_keeps n _)) .rfl) .rfl)

theorem Dev.cryptoOverrun_sameNow (d : Dev) : d.SameNow d.cryptoOverrun := by
  unfold Dev.cryptoOverrun
  split
  · exact .rfl
  · exact .via (Dev.overrun_sameNow _ _) (.of_keeps (Dev.onSec_keeps _ _))

/-! ### Functions held and resumed -/

theorem Dev.fnResume_sameNow (d : Dev) (fn : Byte) (inst : BitVec 10) : d.SameNow (d.fnResume fn inst) := by
  have h := d.lapFirst_sameNow
  unfold Dev.fnResume
  extract_lets e
  split
  · exact .kept (Dev.fnRefuse_keeps _ _ _ _) h
  · split
    · exact h
    · refine .ite h ?_
      extract_lets d1
      have h1 : d.SameNow d1 := .kept (Dev.fnStat_keeps _ _ _ _) (.kept (Dev.setSlot_keeps _ _ _) h)
      exact .ite (.kept (Dev.applyResume_keeps _ _) h1) h1

theorem Dev.holdStep_sameNow (d : Dev) (k : Fin 16) : d.SameNow (d.holdStep k) := by
  have h := d.lapFirst_sameNow
  unfold Dev.holdStep
  extract_lets e
  split
  · exact .ite (.kept (Dev.nowHeld_keeps _ _) h) h
  · exact h

theorem Dev.resumeStep_sameNow (d : Dev) (k : Fin 16) : d.SameNow (d.resumeStep k) := by
  have h := d.lapFirst_sameNow
  unfold Dev.resumeStep
  extract_lets e
  split
  · exact .ite (.kept (Dev.applyResume_keeps _ _) h) h
  · exact h

end Sys2Proof.Machine
end


section
/-! SUPPORT. The tick counter through the host port: a written word, a transaction, and what a head answers. -/

namespace Sys2Proof.Machine

set_option Elab.async false

theorem Dev.SameNow.gw {d : Dev} {a : Nat} {w : Word} {f : Dev → Dev} (hf : ∀ e, Dev.SameNow e (f e)) : d.SameNow (d.gw a w f) :=
  .ite (.via (hf _) (Dev.setReg_now _ _ _)) .rfl

theorem Dev.SameNow.loadCmd {d : Dev} {w : Word} {f : Dev → Dev} (hf : ∀ e, Dev.SameNow e (f e)) : d.SameNow (d.loadCmd w f) :=
  .ite (.gw hf) (.ite (hf d) .rfl)

theorem Dev.SameNow.iteDo {e : Dev} {c : Prop} [Decidable c] {f : Dev → Dev} (hf : e.SameNow (f e)) :
    e.SameNow (if c then f e else e) := .ite hf .rfl

/-! ### Commands of the host -/

theorem Dev.hostCommand_sameNow (d : Dev) (a : Nat) (w : Word) : d.SameNow (d.hostCommand a w) := by
  unfold Dev.hostCommand
  extract_lets linkAt fn inst
  have hlink (n : LinkId) : d.SameNow (linkAt n) :=
    .ite (.ite (.gw fun e => .of_keeps (e.retrain_keeps n)) (Dev.setReg_now _ _ _))
      (.ite (.ite (.gw fun e => .of_keeps (e.startStop_keeps n _ _)) (Dev.setReg_now _ _ _))
        (.ite (.ite (.of_keeps (Dev.onMet_keeps _ _ _)) .rfl) .rfl))
  refine .ite ?_ (.ite ?_ (.ite ?_ (.ite ?_ (.ite ?_ (.ite ?_ (.ite ?_ (.ite ?_ (.ite ?_ (.ite ?_ (.ite ?_ .rfl))))))))))
  case refine_1 =>
    split
    · exact hlink _
    · exact .rfl
  case refine_2 => exact .gw fun e => .of_keeps (e.modeRequest_keeps _)
  case refine_3 =>
    refine .gw fun e => ?_
    split
    · exact .of_keeps (e.enrol_keeps _)
    · exact .of_keeps (e.enrol_keeps _)
    · exact .of_keeps e.rotateRoot_keeps
    · exact .of_keeps e.rngRestart_keeps
    · exact .of_keeps (e.loadChain_keeps _)
    · exact .rfl
  case refine_4 =>
    exact .gw fun e => have h : e.SameNow (if bitOf w 0 then e.discover else e) := .iteDo (.of_keeps e.discover_keeps)
      .ite (.kept (Dev.relisten_keeps _) h) h
  case refine_5 =>
    refine .gw fun e => ?_
    split
    · exact .of_keeps (e.fnHold_keeps _ _)
    · exact e.fnResume_sameNow _ _
    · exact .of_keeps (e.fnCancel_keeps _ _)
    · exact .rfl
  case refine_6 =>
    refine .loadCmd fun e => ?_
    split
    · exact .of_keeps e.loadWrite_keeps
    · exact .of_keeps (e.loadCommit_keeps _)
    · exact .rfl
  case refine_7 =>
    refine .gw fun e => ?_
    split
    · exact .of_keeps e.updActivate_keeps
    · exact .of_keeps e.updAbandon_keeps
    · exact .rfl
  case refine_8 => exact .gw fun e => .of_keeps (e.healthConfirm_keeps _)
  case refine_9 => exact .gw fun e => .iteDo (.of_keeps e.clearLastWords_keeps)
  case refine_10 => exact .gw fun e => .iteDo (.of_keeps e.retest_keeps)
  case refine_11 => exact .of_keeps (d.lockTenant_keeps _)

theorem Dev.takeWord_sameNow (d shown : Dev) (a : Nat) (w : Word) (r : RegDecl) : d.SameNow (d.takeWord shown a w r) := by
  unfold Dev.takeWord
  split
  · exact .ite .rfl (.kept (Dev.unpoison_keeps _ _) (.of_keeps (Dev.writeRw_keeps _ _ _ _)))
  · exact .ite (.of_keeps (Dev.plainWrite_keeps _ _ _ _)) .rfl
  · exact .of_keeps (Dev.clearSticky_keeps _ _ _ _ _)
  · exact .kept (Dev.unpoison_keeps _ _) (d.hostCommand_sameNow a _)
  · exact .of_keeps (Dev.writeOnly_keeps _ _ _)
  · exact .rfl
  · exact .rfl

theorem Dev.registerWrite_sameNow (d shown : Dev) (a : Nat) (w : Word) : d.SameNow (d.registerWrite shown a w) := by
  unfold Dev.registerWrite
  split
  · exact .ite (d.takeWord_sameNow shown a w _) .rfl
  · exact .rfl

/-! ### Words of a transaction -/

theorem Dev.writeWord_sameNow (d shown : Dev) (t : Txn) (w : Word) : d.SameNow (d.writeWord shown t w).1 := by
  unfold Dev.writeWord
  extract_lets a d0 error d1 barred opened
  have h0 : d.SameNow d0 := .of_keeps (Dev.onHost_keeps _ _)
  have herror (cause : Nat) : d.SameNow (error cause).1 := .kept (Dev.busError_keeps _ _ _ _ _) h0
  have hpair (cause : Nat) (r : RegDecl) (t' : Txn) : d.SameNow (if r.opens w then
      (d0.violation t.addr cause true).openPair t' w true else (d0.violation t.addr cause true, t')).1 := by
    have hv : d.SameNow (d0.violation t.addr cause true) := .kept (Dev.violation_keeps _ _ _ _) h0
    split
    · exact .kept (Dev.openPair_keeps _ _ _ _) hv
    · exact hv
  have hbarred : d.SameNow barred.1 := by
    unfold barred
    cases regRow a with
    | some r => exact hpair 1 r _
    | none => exact .kept (Dev.violation_keeps _ _ _ _) h0
  split
  · exact herror 2
  · exact herror 1
  · exact hbarred
  · exact h0
  · split
    · exact herror 5
    · exact .kept (Dev.queueReq_keeps _ _ _ _ _) h0
  · split
    · exact hpair _ _ _
    · split
      · exact .kept (Dev.openPair_keeps _ _ _ _) h0
      · exact .via (Dev.takeWord_sameNow _ _ _ _ _) h0

theorem Dev.serveWord_sameNow (d shown : Dev) (t : Txn) (x : Option Word) : d.SameNow (d.serveWord shown t x).1 := by
  unfold Dev.serveWord
  cases d.stallsHere t with
  | none =>
    cases x with
    | some w => exact d.writeWord_sameNow shown t w
    | none => exact .of_keeps (Dev.readWord_keeps _ _ _)
  | some done =>
    cases x with
    | some w =>
      refine .kept (Dev.stalledWord_keeps _ _ _) ?_
      cases done
      · exact .rfl
      · exact d.writeWord_sameNow shown t w
    | none => exact .kept (Dev.stalledWord_keeps _ _ _) (.of_keeps (Dev.onHost_keeps _ _))

theorem Dev.serveWords_sameNow (d shown : Dev) (ws : List (Option Word)) (t : Txn) : d.SameNow (d.serveWords shown ws t).1 := by
  induction ws generalizing d t with
  | nil => exact .rfl
  | cons x xs ih =>
    unfold Dev.serveWords
    split
    · exact ih _ _
    · extract_lets y
      have hy : d.SameNow y.1 := d.serveWord_sameNow shown _ x
      split
      · exact hy
      · exact .via (ih _ _) hy

theorem Dev.goOn_sameNow (d shown : Dev) (t : Txn) : d.SameNow (d.goOn shown t) := by
  have h := d.serveWords_sameNow shown t.words t
  exact .ite (.kept (Dev.onHost_keeps _ _) h) (.kept (Dev.endTxn_keeps _ _) h)

theorem Dev.commitPair_sameNow (d shown : Dev) (p : OpenPair) : d.SameNow (d.commitPair shown p) := by
  unfold Dev.commitPair
  extract_lets d1
  have h1 : d.SameNow d1 := .of_keeps (Dev.onHost_keeps _ _)
  refine .ite h1 ?_
  split
  · refine .ite h1 ?_
    split
    · exact .kept (Dev.clearSticky_keeps _ _ _ _ _) h1
    · exact .via (Dev.takeWord_sameNow _ _ _ _ _) h1
  · exact h1

theorem Dev.completePair_sameNow (d shown : Dev) (t : Txn) (p : OpenPair) : d.SameNow (d.completePair shown t p) := by
  unfold Dev.completePair
  extract_lets t1
  split
  · exact .kept (Dev.endTxn_keeps _ _) (d.commitPair_sameNow shown p)
  · exact .kept (Dev.endTxn_keeps _ _) (.kept (Dev.stalledWord_keeps _ _ _)
      (.ite (d.commitPair_sameNow shown p) (.of_keeps (Dev.onHost_keeps _ _))))

/-! ### Transactions -/

theorem Dev.transact_sameNow (d shown : Dev) (t : Txn) : d.SameNow (d.transact shown t) := by
  unfold Dev.transact
  refine .ite .rfl ?_
  split
  · exact d.completePair_sameNow shown t _
  · have h : d.SameNow (d.breakPair t).1 := .of_keeps (Dev.breakPair_keeps _ _)
    exact .ite (.kept (Dev.refuseTxn_keeps _ _ _) h) (.ite (.kept (Dev.refuseTxn_keeps _ _ _) h) (.via (Dev.goOn_sameNow _ _ _) h))

theorem Dev.abort_sameNow (d shown : Dev) (opcode : Byte) (addr : Word) (len : Byte) (words : List Word) :
    d.SameNow (d.abort shown opcode addr len words) := by
  unfold Dev.abort
  extract_lets write
  split
  · exact .kept (Dev.aborted_keeps _) (.via (Dev.goOn_sameNow _ _ _) (.kept (Dev.onHost_keeps _ _)
      (.of_keeps (Dev.abandonRead_keeps _ _))))
  · exact .ite (.kept (Dev.aborted_keeps _) (d.transact_sameNow shown _)) .rfl

theorem Dev.stallTimeout_sameNow (d shown : Dev) (opcode : Byte) (addr : Word) (len : Byte) (words : List Word) (word : Byte)
    (applied : Bool) : d.SameNow (d.stallTimeout shown opcode addr len words word applied) := by
  unfold Dev.stallTimeout
  exact .ite (d.transact_sameNow shown _) .rfl

theorem Dev.headTimeout_sameNow (d shown : Dev) (n : LinkId) : d.SameNow (d.headTimeout shown n) := by
  unfold Dev.headTimeout
  split
  · split
    · exact .ite (.via (Dev.goOn_sameNow _ _ _) (.kept (Dev.onHost_keeps _ _) (.kept (Dev.busError_keeps _ _ _ _ _)
        (.of_keeps (Dev.dropHostReq_keeps _ _))))) .rfl
    · exact .rfl
  · exact .rfl

theorem Dev.hostAnswered_sameNow (d shown : Dev) (n : LinkId) (reject : Bool) (data : Word) :
    d.SameNow (d.hostAnswered shown n reject data) := by
  unfold Dev.hostAnswered
  extract_lets d1 later
  have h1 : d.SameNow d1 := .of_keeps (Dev.reqDone_keeps _ _)
  split
  · split
    · refine .ite ?_ h1
      extract_lets t1 x value
      have hx : d.SameNow x.1 := by
        dsimp only [x]
        split
        · exact .kept (Dev.busError_keeps _ _ _ _ _) h1
        · exact h1
      exact .via (Dev.goOn_sameNow _ _ _) (.kept (Dev.onHost_keeps _ _) hx)
    · exact h1
  · exact h1

theorem Dev.response_sameNow (d shown : Dev) (n : LinkId) (resp : BitVec 2) (tag : BitVec 6) (addr : BitVec 15) (data : Word) :
    d.SameNow (d.response shown n resp tag addr data) := by
  unfold Dev.response
  split
  · exact .ite (.ite (d.hostAnswered_sameNow shown n _ data) (.ite (.of_keeps (Dev.reqFailed_keeps _ _ _))
      (.of_keeps (Dev.reqAnswered_keeps _ _ _ _)))) .rfl
  · exact .rfl

end Sys2Proof.Machine
end


section
/-! SUPPORT. The closure of a tick and the commands of its points: what they leave of the Pacer and of the plan's registers. -/

namespace Sys2Proof.Machine

set_option Elab.async false

/-! ### The closure -/

theorem Dev.outletTick_sameNow (d : Dev) (n : LinkId) : d.SameNow (d.outletTick n) := by
  unfold Dev.outletTick
  extract_lets d1 v d2 d3
  have h1 : d.SameNow d1 := .via (Dev.plugWait_sameNow _ _) (.ite (d.endStopped_sameNow n) .rfl)
  have h2 : d.SameNow d2 := by
    unfold d2
    cases v.held with
    | some h => exact .ite (.via (Dev.applyCredential_sameNow _ _ _) h1) h1
    | none => exact h1
  have h3 : d.SameNow d3 := .ite (.kept (Dev.setpoints_keeps _ _) (.kept (Dev.publish_keeps _ _) h2)) h2
  exact .ite (.kept (Dev.auxIdle_keeps _ _) h3) h3

theorem Dev.closeLinks_sameNow (d : Dev) : d.SameNow d.closeLinks := by
  unfold Dev.closeLinks
  extract_lets d1 d2
  have h1 : d.SameNow d1 := .each (fun e n => .of_keeps (e.requestLate_keeps n)) (.each (fun e n => .of_keeps (e.judgeMissing_keeps n)) .rfl)
  have h2 : d.SameNow d2 := .each (fun e n => .of_keeps (e.groupTick_keeps n)) (.each (fun e n => e.outletTick_sameNow n) h1)
  exact .kept (Dev.budgetRaise_keeps _) (.each (fun e n => .of_keeps (e.clearOnOpen_keeps n)) h2)

theorem Dev.closeModes_sameNow (d shown : Dev) : d.SameNow (d.closeModes shown) := by
  unfold Dev.closeModes
  extract_lets d1 d2
  have h1 : d.SameNow d1 := .kept (Dev.govern_keeps _) (.kept (Dev.countEco_keeps _) (.via (Dev.resolveModes_sameNow _)
    (.kept (Dev.afterLap_keeps _) (.of_keeps (Dev.economyExit_keeps _)))))
  have h2 : d.SameNow d2 := .kept (Dev.displayGate_keeps _ _) (.kept (Dev.arcGate_keeps _) (.kept (Dev.gridGate_keeps _)
    (.ite h1 (.kept (Dev.spoilDemand_keeps _) h1))))
  exact .ite (.kept (Dev.glassSecond_keeps _ _) h2) h2

/-- The closing tick up to where PACE_IN is seen. -/
def Dev.closingWork (d shown : Dev) : Dev :=
  let d1 := ((d.lapFirst.commitAll shown).closeLinks.closeModes shown).closeCommands.feedEngines
  (applyIf (d1.mode != .dormant) (fun d => d.each [0, 1] Dev.tpoPin) d1).operatingSecond

theorem Dev.closingWork_sameNow (d shown : Dev) : d.SameNow (d.closingWork shown) := by
  unfold Dev.closingWork
  extract_lets d1
  have h1 : d.SameNow d1 := .kept (Dev.feedEngines_keeps _) (.kept (Dev.closeCommands_keeps _) (.via (Dev.closeModes_sameNow _ _)
    (.via (Dev.closeLinks_sameNow _) (.via (Dev.commitAll_sameNow _ _) d.lapFirst_sameNow))))
  exact .kept (Dev.operatingSecond_keeps _) (.ite (.each (fun e k => .of_keeps (e.tpoPin_keeps k)) h1) h1)

/-- The Pacer with PACE_IN seen (R26). -/
def Pacer.seen (p : Pacer) : Pacer := { p with paceOk := true }

theorem Dev.paceSeen_pacer (d : Dev) : d.paceSeen.pacer = d.pacer.seen := Eq.refl _

/-- What follows the sight of PACE_IN in a closure leaves the Pacer. -/
theorem Dev.closeTick_pacer (d shown : Dev) : (d.closeTick shown).pacer = (d.closingWork shown).pacer.seen := by
  unfold Dev.closeTick
  extract_lets d0 d1 dp d2 d3
  have hwork : dp.operatingSecond = d.closingWork shown := by
    unfold Dev.closingWork
    rfl
  rw [Dev.onRec_pacer, (Dev.closeEvents_keeps _ _ _).pacer, (Dev.clearRewritten_keeps _ _).pacer, (Dev.issueWaiting_keeps _).pacer,
    (Dev.resyncDone_keeps _).pacer, Dev.paceSeen_pacer, hwork]

theorem Dev.closeTick_now (d shown : Dev) : (d.closeTick shown).now = d.now := by
  have hseen : (d.closingWork shown).pacer.seen.tick = (d.closingWork shown).now := by
    generalize d.closingWork shown = e
    rfl
  rw [Dev.now, d.closeTick_pacer, hseen, d.closingWork_sameNow shown]

/-! ### The next tick -/

theorem Dev.nextTick_now (d : Dev) : d.nextTick.now = d.now + 1 := by
  unfold Dev.nextTick
  extract_lets next d1 d2
  have h1 : d1.now = d.now + 1 := Eq.trans (Dev.openTick_keeps _).now (Dev.onPacer_now fun _ => Eq.refl _)
  have h2 : d1.SameNow d2 := .each (fun e n => .of_keeps (e.onLnk_keeps n _)) .rfl
  refine Eq.trans (?_ : d1.SameNow _) h1
  exact .kept (Dev.updateSegments_keeps _) (.via (Dev.drew_now _) (.each (fun e n => .of_keeps (e.sendFrame_keeps _ n))
    (.ite (.kept (Dev.setRates_keeps _) h2) h2)))

theorem Dev.openTick_regsBut (d : Dev) : d.RegsBut d.openTick [Reg.evrEvents] := by
  unfold Dev.openTick
  split
  · exact Dev.RegsBut.rfl.setReg (by simp)
  · exact .rfl

theorem Dev.nextTick_regsBut (d : Dev) : d.RegsBut d.nextTick [Reg.evrEvents] := by
  unfold Dev.nextTick
  extract_lets next d1 d2
  have h1 : d.RegsBut d1 [Reg.evrEvents] := (Dev.RegsBut.rfl.onPacer).trans (Dev.openTick_regsBut _)
  have hrest {e : Dev} : e.Keeps (((applyIf (next % 125 = 0) Dev.setRates e).each e.usedLinks fun d n =>
      d.sendFrame next n).drew).updateSegments [.met, .lnk, .frame, .con, .lprot, .fresh] :=
    .via (Dev.updateSegments_keeps _) (.drew (.each (fun x n _ => (x.sendFrame_keeps next n).mono)
      (.applyIf (fun x => x.setRates_keeps.mono) .rfl)) rfl) rfl
  have h2 : d1.Keeps d2 [.lnk] := .each (fun e n _ => e.onLnk_keeps n _) .rfl
  exact h1.of_same fun a => by rw [hrest.anyReg, h2.anyReg]

theorem Dev.nextTick_mode (d : Dev) : d.nextTick.mode = d.mode := (Dev.nextTick_keeps d).mode

/-! ### The planning lap -/

/-- The registers that an exchange cut short writes. -/
def Reg.ofAborts : List Nat := [Reg.alcEvents, Reg.alcAbortCnt]

theorem Dev.RegsBut.kept {d e f : Dev} {as : List Nat} {l : List Part} (h2 : e.Keeps f l) (h : d.RegsBut e as)
    (hd : (Part.registers.all fun p => !Part.isIn l p) = true := by rfl) : d.RegsBut f as :=
  h.of_same fun a => h2.anyReg a hd

theorem Dev.takeOut_regsBut (d : Dev) (g : LinkId) (why : WithdrawWhy) : d.RegsBut (d.takeOut g why) Reg.ofAborts := by
  unfold Dev.takeOut
  extract_lets owner d1
  have h1 : d.RegsBut d1 Reg.ofAborts :=
    ((Dev.RegsBut.kept (Dev.dropSeg_keeps _ _) .rfl).onGroup).raise (List.mem_cons_self ..)
  cases owner with
  | some o => exact .kept (Dev.cutToGroups_keeps _ _) h1
  | none => exact h1

theorem Dev.afterAbort_regsBut (d : Dev) (e : Exchange) (code : Nat) : d.RegsBut (d.afterAbort e code) Reg.ofAborts := by
  unfold Dev.afterAbort
  extract_lets g d1 back idle
  have h1 : d.RegsBut d1 Reg.ofAborts := by
    unfold d1
    split
    · exact .kept (Dev.command_keeps _ _ _ _) .rfl
    · exact .rfl
  have hback : d.RegsBut back Reg.ofAborts := h1.onGroup
  have hidle : d.RegsBut idle Reg.ofAborts := h1.onGroup
  have hout (f : Group → Group) (why : WithdrawWhy) : d.RegsBut ((d1.onGroup g f).takeOut g why) Reg.ofAborts :=
    h1.onGroup.trans (Dev.takeOut_regsBut _ _ _)
  clear_value back idle d1
  split
  · exact hback
  · exact hback
  · exact hout _ _
  · exact hout _ _
  · exact .rfl
  · exact .rfl
  · split_ifs
    · exact hback
    · exact hidle

theorem Dev.abortExchange_regsBut (d : Dev) (x : Fin 16) (code : Nat) : d.RegsBut (d.abortExchange x code) Reg.ofAborts := by
  unfold Dev.abortExchange
  split
  case h_1 e _ =>
    have h : d.RegsBut ((d.closeSlot x (some code)).dropSeg e.group) Reg.ofAborts :=
      .kept (Dev.dropSeg_keeps _ _) (.kept (Dev.closeSlot_keeps _ _ _) .rfl)
    exact ((h.trans (Dev.afterAbort_regsBut _ _ _)).count (by simp [Reg.ofAborts])).raise (List.mem_cons_self ..)
  case h_2 => exact .rfl

theorem Dev.exchNoTarget_regsBut (d : Dev) : d.RegsBut d.exchNoTarget Reg.ofAborts := by
  unfold Dev.exchNoTarget Dev.abortWhere
  refine Dev.each_inv (P := fun e => d.RegsBut e Reg.ofAborts) .rfl fun e x _ he => ?_
  split
  · split_ifs
    · exact he.trans (Dev.abortExchange_regsBut _ _ _)
    · exact he
  · exact .kept (Dev.lowerReason_keeps _ _ _ _) he

theorem Dev.planRaise_regsBut (d : Dev) (o : LinkId) : d.RegsBut (d.planRaise o) Reg.ofAborts := by
  unfold Dev.planRaise Dev.raiseGrant
  extract_lets used o
  split_ifs
  · exact .rfl
  · exact .rfl
  · exact Dev.RegsBut.rfl.raise (List.mem_cons_self ..)
  · exact Dev.RegsBut.rfl.onOut

theorem Dev.plan_regsBut (d : Dev) : d.RegsBut d.plan Reg.ofAborts := by
  unfold Dev.plan
  extract_lets os budget d1 d2 d3
  have h1 : d.Keeps d1 [.out] := .each (fun e o _ => e.onOut_keeps o _) .rfl
  have h2 : d.Keeps d2 [.out] := Dev.planPass_keeps _ _ _ (Dev.planPass_keeps _ _ _ h1 (Eq.refl true)) (Eq.refl true)
  have h3 : d.Keeps d3 [.out] := .each (fun e o _ => e.planCut_keeps o) h2
  have h4 : d.RegsBut (d3.each os Dev.planRaise) Reg.ofAborts :=
    Dev.each_inv (P := fun e => d.RegsBut e Reg.ofAborts) (.kept h3 .rfl) fun e o _ he => he.trans (e.planRaise_regsBut o)
  exact .kept (l := [.out]) (.each (fun e o _ => e.publishGrant_keeps o) .rfl) h4

/-- A planning lap up to its number. -/
def Dev.planned (d : Dev) : Dev :=
  (((d.onPacer fun p => { p with plannedAt := some d.now }).each d.usedLinks Dev.lapFrames).planMetrology).creditStep

theorem Dev.planned_pacer (d : Dev) : d.planned.pacer = { d.pacer with plannedAt := some d.now } := by
  unfold Dev.planned
  rw [(Dev.creditStep_keeps _).pacer, (Dev.planMetrology_keeps _).pacer,
    (Dev.Keeps.each (l := [.recorder, .lnk, .rLnk]) (fun e n _ => e.lapFrames_keeps n) .rfl).pacer, Dev.onPacer_pacer]

theorem Dev.planned_now (d : Dev) : d.planned.now = d.now := by
  rw [Dev.now, d.planned_pacer]
  rfl

/-- The allocation steps of a planning lap. -/
def Dev.allocated (d : Dev) : Dev := d.plan.selectMoves.startReleases.exchNoTarget

theorem Dev.allocated_pacer (d : Dev) : d.allocated.pacer = d.pacer := by
  unfold Dev.allocated
  rw [(Dev.exchNoTarget_keeps _).pacer, (Dev.startReleases_keeps _).pacer, (Dev.selectMoves_keeps _).pacer, (Dev.plan_keeps _).pacer]

theorem Dev.allocated_regsBut (d : Dev) : d.RegsBut d.allocated Reg.ofAborts :=
  (Dev.RegsBut.kept (Dev.startReleases_keeps _) (.kept (Dev.selectMoves_keeps _) d.plan_regsBut)).trans (Dev.exchNoTarget_regsBut _)

/-- The steps of a planning lap after the allocation's. -/
def Dev.planFollowed (d : Dev) : Dev :=
  let d3 := (d.each d.outlets Dev.vehPlan).vlcdUpdate
  d3.each d3.outlets fun d n => d.each (List.finRange 4) fun d k => d.tachJudge n k

theorem Dev.planFollowed_keeps (d : Dev) :
    d.Keeps d.planFollowed [.disp, .recorder, .fresh, .cmd, .out, .con, .veh, .aux, .rLio, .rVeh, .rAux] :=
  .each (fun e n _ => .each (fun x k _ => (x.tachJudge_keeps n k).mono) .rfl)
    (.via (Dev.vlcdUpdate_keeps _) (.each (fun e n _ => (e.vehPlan_keeps n).mono) .rfl) rfl)

theorem Dev.planningLap_due {d : Dev} (hticking : d.ticking = true) (hat : d.now % 100000 = 0) (hpos : 0 < d.now)
    (honce : d.pacer.plannedAt ≠ some d.now) : d.planningLap =
      (d.planned.setReg Reg.alcPlanNum (BitVec.ofNat 32 (d.planned.now / 100000))).allocated.planFollowed := by
  unfold Dev.planningLap
  exact if_pos ⟨hticking, hat, hpos, honce⟩

theorem Dev.planningLap_pacer {d : Dev} (hticking : d.ticking = true) (hat : d.now % 100000 = 0) (hpos : 0 < d.now)
    (honce : d.pacer.plannedAt ≠ some d.now) : d.planningLap.pacer = { d.pacer with plannedAt := some d.now } := by
  rw [Dev.planningLap_due hticking hat hpos honce, (Dev.planFollowed_keeps _).pacer, Dev.allocated_pacer, Dev.setReg_pacer,
    Dev.planned_pacer]

theorem Dev.planningLap_num {d : Dev} (hticking : d.ticking = true) (hat : d.now % 100000 = 0) (hpos : 0 < d.now)
    (honce : d.pacer.plannedAt ≠ some d.now) : d.planningLap.reg Reg.alcPlanNum = BitVec.ofNat 32 (d.now / 100000) := by
  rw [Dev.planningLap_due hticking hat hpos honce, (Dev.planFollowed_keeps _).reg_of rfl,
    Dev.allocated_regsBut _ Reg.alcPlanNum (by decide), Dev.setReg_reg, if_pos rfl, Dev.planned_now]

/-! ### The sample point -/

/-- The readings of a sample point, after a lap boundary that is due. -/
def Dev.sampled (d : Dev) : Dev :=
  let d0 := (d.onPacer fun p => { p with sampledAt := some d.now }).each d.usedLinks Dev.judgeMissing
  let d1 := d0.each d0.usedLinks Dev.sampleLink
  let d2 := d1.each d1.usedLinks Dev.protSample
  let d3 := (d2.each d2.outlets Dev.senseSample).each d2.outlets Dev.vehSample
  ((d3.each d3.powers Dev.groupSample).each (List.finRange 16) Dev.exchangeSample).each d3.usedLinks Dev.symmetrySample

theorem Dev.sampled_keeps (d : Dev) : (d.onPacer fun p => { p with sampledAt := some d.now }).Keeps d.sampled
    [.grid, .tpo, .recorder, .lnk, .rx, .met, .lprot, .veh, .cmd, .group, .con, .alloc, .rLnk, .rLio, .rMet, .rPrt] := by
  unfold Dev.sampled
  extract_lets d0 d1 d2 d3
  have h0 := Dev.Keeps.each (d := d.onPacer fun p => { p with sampledAt := some d.now }) (xs := d.usedLinks)
    (l := [.grid, .tpo, .recorder, .lnk, .rx, .met, .lprot, .veh, .cmd, .group, .con, .alloc, .rLnk, .rLio, .rMet, .rPrt])
    (fun e n _ => (e.judgeMissing_keeps n).mono) .rfl
  have h2 := Dev.Keeps.each (xs := d1.usedLinks) (fun e n _ => (e.protSample_keeps n).mono)
    (Dev.Keeps.each (xs := d0.usedLinks) (fun e n _ => (e.sampleLink_keeps n).mono) h0)
  have h3 := Dev.Keeps.each (xs := d2.outlets) (fun e n _ => (e.vehSample_keeps n).mono)
    (Dev.Keeps.each (xs := d2.outlets) (fun e n _ => (e.senseSample_keeps n).mono) h2)
  exact .each (fun e n _ => (e.symmetrySample_keeps n).mono) (.each (fun e x _ => (e.exchangeSample_keeps x).mono)
    (.each (fun e n _ => (e.groupSample_keeps n).mono) h3))

theorem Pacer.sampled_atTick (p : Pacer) (t now : Tick) :
    ({ p with sampledAt := some t }).atTick now = { p.atTick now with sampledAt := some t } := by
  unfold Pacer.atTick Pacer.turnOver
  grind

/-- The readings of a sample point make no lap boundary due. -/
theorem Dev.sampled_lapDue (d : Dev) : d.sampled.lapDue = d.lapDue := by
  have h := d.sampled_keeps
  rw [Dev.lapDue_congr h.pacer (h.reg_of rfl) h.mode (congrArg Power.resetHeld h.power) (congrArg Power.entering h.power)]
  unfold Dev.lapDue Dev.atBoundary
  simp only [Dev.onPacer_pacer, Pacer.sampled_atTick]
  rfl

theorem Dev.lastGasp_pacer {d : Dev} (hdue : d.lapDue = false) : d.lastGasp.pacer = d.pacer := by
  unfold Dev.lastGasp
  extract_lets d1
  have h1 : d1 = d := Dev.lapFirst_of_not_due hdue
  rw [(Dev.commitTotals_keeps _).pacer, (Dev.mirror_keeps _).pacer, Dev.setReg_pacer, h1]

/-- The last gasp that a sample point carries out under the brace. -/
def Dev.gasped (d : Dev) : Dev := if d.power.brace && d.power.warning && d.power.commitAt != d.now then d.lastGasp else d

theorem Dev.gasped_pacer {d : Dev} (hdue : d.lapDue = false) : d.gasped.pacer = d.pacer := by
  unfold Dev.gasped
  split
  · exact Dev.lastGasp_pacer hdue
  · rfl

theorem Dev.samplePoint_due {d : Dev} (hticking : d.ticking = true) (hat : isSamplePoint d.now = true)
    (honce : d.pacer.sampledAt ≠ some d.now) : d.samplePoint = d.lapFirst.sampled.gasped.arcSamples := by
  unfold Dev.samplePoint
  rw [if_pos ⟨hticking, hat, honce⟩, ← d.lapFirst_now]
  rfl

theorem Dev.samplePoint_off {d : Dev} (hoff : isSamplePoint d.now = false ∨ d.pacer.sampledAt = some d.now) :
    d.samplePoint = d :=
  if_neg fun ⟨_, hat, honce⟩ => hoff.elim (fun h => by simp [h] at hat) honce

theorem Dev.samplePoint_pacer {d : Dev} (hticking : d.ticking = true) (hat : isSamplePoint d.now = true)
    (honce : d.pacer.sampledAt ≠ some d.now) : d.samplePoint.pacer = { d.lapFirst.pacer with sampledAt := some d.now } := by
  have hdue : d.lapFirst.sampled.lapDue = false := by rw [Dev.sampled_lapDue, d.lapFirst_not_due]
  rw [Dev.samplePoint_due hticking hat honce, (Dev.arcSamples_keeps _).pacer, Dev.gasped_pacer hdue, (Dev.sampled_keeps _).pacer,
    Dev.onPacer_pacer, d.lapFirst_now]

/-! ### The count through both -/

theorem Dev.samplePoint_sameNow (d : Dev) : d.SameNow d.samplePoint := by
  by_cases h : d.ticking ∧ isSamplePoint d.now ∧ d.pacer.sampledAt ≠ some d.now
  · obtain ⟨hticking, hat, honce⟩ := h
    rw [Dev.SameNow, Dev.now, Dev.samplePoint_pacer hticking hat honce]
    exact d.lapFirst_now
  · rw [Dev.samplePoint, if_neg h]
    exact .rfl

theorem Dev.planningLap_sameNow (d : Dev) : d.SameNow d.planningLap := by
  by_cases h : d.ticking ∧ d.now % 100000 = 0 ∧ 0 < d.now ∧ d.pacer.plannedAt ≠ some d.now
  · obtain ⟨hticking, hat, hpos, honce⟩ := h
    rw [Dev.SameNow, Dev.now, Dev.planningLap_pacer hticking hat hpos honce]
    rfl
  · rw [Dev.planningLap, if_neg h]
    exact .rfl

end Sys2Proof.Machine
end


section
/-! PROOF of O27: ticks, sample points, planning laps and laps. -/

namespace Sys2Proof.Machine

set_option Elab.async false

theorem Dev.planningLap_off {d : Dev} (hoff : d.now % 100000 ≠ 0 ∨ d.now = 0 ∨ d.pacer.plannedAt = some d.now) :
    d.planningLap = d :=
  if_neg fun ⟨_, hat, hpos, honce⟩ => hoff.elim (fun h => h hat) fun h => h.elim (fun h => by simp [h] at hpos) honce

/-- A closure while the device counts: the next tick is open on what the closing one left, and that is shown. -/
theorem exec_tickClosure_counts {s : State} (hticking : s.dev.ticking = true) :
    ∃ t, exec .tickClosure s = .next t ∧ t.pending = s.pending ∧ t.dev.now = s.dev.now + 1 ∧ t.shown.now = s.dev.now ∧
      t.shown.pacer.paceOk = true ∧ t.dev.RegsBut t.shown [Reg.evrEvents] ∧ t.dev.mode = t.shown.mode := by
  obtain ⟨hoff, -⟩ | ⟨-, hexec⟩ := exec_tickClosure_cases s
  · rw [hticking] at hoff
    cases hoff
  · have hnow := s.dev.closeTick_now s.shown
    have hpace : (s.dev.closeTick s.shown).pacer.paceOk = true := by
      rw [Dev.closeTick_pacer]
      rfl
    generalize s.dev.closeTick s.shown = closed at hexec hnow hpace
    refine ⟨_, hexec, rfl, ?now, ?shownNow, ?pace, ?regs, ?mode⟩
    case now => rw [Dev.settled_now, Dev.nextTick_now, Dev.settled_now, hnow]
    case shownNow => rw [Dev.settled_now, hnow]
    case pace => rw [Dev.settled_pacer, hpace]
    case regs =>
      intro a ha
      rw [Dev.settled_reg closed.settled.nextTick, closed.settled.nextTick_regsBut a ha]
    case mode => rw [Dev.settled_mode, Dev.nextTick_mode]

/-- Settles O27: the closure keeps the tick until it opens the next one, and a sample point, a planning lap and a lap boundary
each note in the Pacer that they are carried out. -/
theorem ticksAndLaps : Obligations.TicksAndLaps := by
  unfold Obligations.TicksAndLaps
  refine ⟨fun s => exec_tickClosure_counts, ?still, ?sample, ?sampleOff, ?plan, ?planOff, ?lapOff, ?lap⟩
  case still =>
    intro s hticking
    obtain ⟨-, hexec⟩ | ⟨hon, -⟩ := exec_tickClosure_cases s
    · exact hexec
    · rw [hticking] at hon
      cases hon
  case sample =>
    intro s hticking hat honce
    refine .of_upd (exec_samplePoint s) ?_
    rw [Dev.settled_pacer, Dev.samplePoint_pacer hticking hat honce]
  case sampleOff => exact fun s hoff => .idle (exec_samplePoint s) (Dev.samplePoint_off hoff)
  case plan =>
    intro s hticking hat hpos honce
    refine .of_upd (exec_planningLapBoundary s) ⟨?_, ?_⟩
    · rw [Dev.settled_pacer, Dev.planningLap_pacer hticking hat hpos honce]
    · rw [Dev.settled_reg, Dev.planningLap_num hticking hat hpos honce]
  case planOff => exact fun s hoff => .idle (exec_planningLapBoundary s) (Dev.planningLap_off hoff)
  case lapOff => exact fun s hdue => .idle (exec_lapBoundary s) (Dev.lapFirst_of_not_due hdue)
  case lap =>
    intro s hticking hboundary
    have hdue : s.dev.lapDue = true := by rw [Dev.lapDue, hticking, hboundary, Bool.and_self]
    obtain ⟨hstart, hrunning, hlast⟩ := s.dev.crossLap_started
    have hnum := s.dev.crossLap_reg (a := Reg.pacLapNum) rfl
    have hlo := s.dev.crossLap_reg (a := Reg.pacLapStartLo) rfl
    have hcross : s.dev.lapBoundary = s.dev.crossLap := Dev.lapFirst_of_due hdue
    generalize s.dev.crossLap = e at *
    refine .of_eq (exec_lapBoundary s) hcross ⟨?_, ?_, ?_, ?_, ?_⟩
    · rw [Dev.settled_pacer, hstart]
    · rw [Dev.settled_pacer, hrunning]
    · rw [Dev.settled_pacer, hlast]
    · rw [Dev.settled_reg, hnum, if_neg (by decide), if_neg (by decide), if_pos rfl]
    · rw [Dev.settled_reg, hlo, if_neg (by decide), if_pos rfl]

end Sys2Proof.Machine
end


section
/-! PROOF of O9: which commands move the tick counter. -/

namespace Sys2Proof.Machine

set_option Elab.async false

section
variable {s t : State} {c : Instr}

/-- A command that does not touch the Pacer leaves the count. -/
theorem exec_now_of_untouched (h : exec c s = .next t) (hp : ((touches c).all fun p => p != .pacer) = true) :
    t.dev.now = s.dev.now := by
  have hpacer : Part.pacer ∉ touches c := fun hin => by simpa using List.all_eq_true.1 hp _ hin
  have hsame : t.dev.pacer = s.dev.pacer := (framed c s t h).1 .pacer hpacer
  rw [Dev.now, hsame, Dev.now]

theorem exec_now_of_upd {f : Dev → Dev} {P : Tick → Prop} (h : exec c s = .next t) (hc : exec c s = s.upd f)
    (hf : P (f s.dev).now) : P t.dev.now := by
  rw [hc, State.upd, Host.Outcome.next.injEq] at h
  rw [← h]
  exact hf

theorem exec_sameNow {f : Dev → Dev} (h : exec c s = .next t) (hc : exec c s = s.upd f) (hf : s.dev.SameNow (f s.dev)) :
    t.dev.now = s.dev.now := exec_now_of_upd (P := fun n => n = s.dev.now) h hc hf

end

theorem exec_tariffHoldExpiry_now {s t : State} {n : TenantId} (h : exec (.tariffHoldExpiry n) s = .next t) :
    t.dev.now = s.dev.now := by
  have hlap := s.dev.lapFirst_sameNow
  refine exec_sameNow h (exec_tariffHoldExpiry n s) (.ite ?_ hlap)
  split
  · exact .via (Dev.raise_now _ _ _ _ _) (.kept (Dev.fnStat_keeps _ _ _ _) (.kept (Dev.onTenant_keeps _ _ _)
      (.kept (Dev.discardHold_keeps _ _) hlap)))
  · exact hlap

theorem exec_sealChange_now {s t : State} {a b : Bool} (h : exec (.sealChange a b) s = .next t) : t.dev.now = s.dev.now :=
  exec_sameNow h (exec_sealChange a b s)
    (.ite (.of_keeps (Dev.onBilling_keeps _ _)) (.via (Dev.sealTo_sameNow _ _) (.of_keeps (Dev.onBilling_keeps _ _))))

theorem exec_tickClosure_now {s t : State} (h : exec .tickClosure s = .next t) :
    t.dev.now = if s.dev.ticking then s.dev.now + 1 else s.dev.now := by
  cases hticking : s.dev.ticking
  · obtain ⟨-, hexec⟩ | ⟨hon, -⟩ := exec_tickClosure_cases s
    · rw [hexec] at h
      cases h
      rfl
    · rw [hticking] at hon
      cases hon
  · obtain ⟨u, hexec, -, hnow, -⟩ := exec_tickClosure_counts hticking
    rw [hexec] at h
    cases h
    exact hnow

/-- Settles O9: the commands that touch the Pacer, each with what it leaves of the count; the others do not reach it. -/
theorem tickCount : Obligations.TickCount := by
  unfold Obligations.TickCount
  intro s t c h
  have untouched := exec_now_of_untouched h
  cases c with
  | tickClosure => exact exec_tickClosure_now h
  | porAssert => exact exec_now_of_upd (P := fun n => n = s.dev.now ∨ n = 0) h (exec_porAssert s) s.dev.porAssert_restarts
  | railUndervoltageReset rail =>
    exact exec_now_of_upd (P := fun n => n = s.dev.now ∨ n = 0) h (exec_railUndervoltageReset rail s) (s.dev.railReset_restarts rail)
  | porRelease testEn paceOk loaderOk =>
    exact exec_now_of_upd (P := fun n => n = s.dev.now ∨ n = 0) h (exec_porRelease testEn paceOk loaderOk s)
      (s.dev.porRelease_restarts testEn paceOk loaderOk)
  | railResetRelease loaderOk =>
    exact exec_now_of_upd (P := fun n => n = s.dev.now ∨ n = 0) h (exec_railResetRelease loaderOk s)
      (s.dev.railResetRelease_restarts loaderOk)
  | wakeRailsInRange =>
    exact exec_now_of_upd (P := fun n => n = s.dev.now ∨ s.dev.pacer.dormantTick ≤ n) h (exec_wakeRailsInRange s)
      s.dev.wakeRailsInRange_now
  | samplePoint => exact exec_sameNow h (exec_samplePoint s) s.dev.samplePoint_sameNow
  | planningLapBoundary => exact exec_sameNow h (exec_planningLapBoundary s) s.dev.planningLap_sameNow
  | lapBoundary => exact exec_sameNow h (exec_lapBoundary s) s.dev.lapFirst_sameNow
  | calendarSecond => exact exec_sameNow h (exec_calendarSecond s) s.dev.calendarSecond_sameNow
  | paceLoss => exact exec_sameNow h (exec_paceLoss s) s.dev.paceLoss_sameNow
  | paceDriftCheck periods => exact exec_sameNow h (exec_paceDriftCheck periods s) (s.dev.paceDriftCheck_sameNow periods)
  | lapOverrun cls late => exact exec_sameNow h (exec_lapOverrun cls late s) (s.dev.lapOverrun_sameNow cls late)
  | cryptoOverrun => exact exec_sameNow h (exec_cryptoOverrun s) s.dev.cryptoOverrun_sameNow
  | enterRun fwOk keysOk found => exact exec_sameNow h (exec_enterRun fwOk keysOk found s) (s.dev.enterRunStep_sameNow fwOk keysOk found)
  | supplyWarning src => exact exec_sameNow h (exec_supplyWarning src s) (s.dev.supplyWarning_sameNow src)
  | supplyRecovery since => exact exec_sameNow h (exec_supplyRecovery since s) (s.dev.supplyRecovery_sameNow since)
  | dormantEntryEnd => exact exec_sameNow h (exec_dormantEntryEnd s) s.dev.dormantEntryEnd_sameNow
  | headsArmed => exact exec_sameNow h (exec_headsArmed s) s.dev.headsArmed_sameNow
  | loaderWriteDone ok took => exact exec_sameNow h (exec_loaderWriteDone ok took s) (s.dev.loaderDone_sameNow ok took)
  | confirmWindowExpiry => exact exec_sameNow h (exec_confirmWindowExpiry s) s.dev.windowExpired_sameNow
  | sealChange a b => exact exec_sealChange_now h
  | sealFault => exact exec_sameNow h (exec_sealFault s) (.ite (s.dev.sealTo_sameNow .fault) .rfl)
  | tariffHoldExpiry n => exact exec_tariffHoldExpiry_now h
  | holdTakesEffect k => exact exec_sameNow h (exec_holdTakesEffect k s) (s.dev.holdStep_sameNow k)
  | resumeTakesEffect k => exact exec_sameNow h (exec_resumeTakesEffect k s) (s.dev.resumeStep_sameNow k)
  | fnResume fn inst => exact exec_sameNow h (exec_fnResume fn inst s) (.gw fun e => e.fnResume_sameNow fn inst)
  | senseOpen n => exact exec_sameNow h (exec_senseOpen n s) (s.dev.senseOpened_sameNow n)
  | overcurrentDecision n ch => exact exec_sameNow h (exec_overcurrentDecision n ch s) (s.dev.overcurrent_sameNow n ch)
  | contactorWeld n k => exact exec_sameNow h (exec_contactorWeld n k s) (s.dev.weldFault_sameNow n k)
  | authorizationReq n form contract =>
    exact exec_sameNow h (exec_authorizationReq n form contract s) (s.dev.authRequest_sameNow n form contract)
  | sessionEnd n => exact exec_sameNow h (exec_sessionEnd n s) (s.dev.endIfOpen_sameNow n)
  | registerWrite a w => exact exec_sameNow h (exec_registerWrite a w s) (.ite (s.dev.registerWrite_sameNow s.shown a.toNat w) .rfl)
  | writeInc a ws => exact exec_sameNow h (exec_writeInc a ws s) (s.dev.transact_sameNow s.shown _)
  | writeFix a ws => exact exec_sameNow h (exec_writeFix a ws s) (s.dev.transact_sameNow s.shown _)
  | readInc a len => exact exec_sameNow h (exec_readInc a len s) (s.dev.transact_sameNow s.shown _)
  | readFix a len => exact exec_sameNow h (exec_readFix a len s) (s.dev.transact_sameNow s.shown _)
  | readId => exact exec_sameNow h (exec_readId s) (s.dev.transact_sameNow s.shown _)
  | unknownOpcode o => exact exec_sameNow h (exec_unknownOpcode o s) (.ite .rfl (s.dev.transact_sameNow s.shown _))
  | transactionAbort o a len ws => exact exec_sameNow h (exec_transactionAbort o a len ws s) (s.dev.abort_sameNow s.shown o a len ws)
  | stallTimeout o a len ws word applied =>
    exact exec_sameNow h (exec_stallTimeout o a len ws word applied s) (s.dev.stallTimeout_sameNow s.shown o a len ws word applied)
  | headTimeout n => exact exec_sameNow h (exec_headTimeout n s) (s.dev.headTimeout_sameNow s.shown n)
  | headRegisterAccess n a w => exact exec_sameNow h (exec_headRegisterAccess n a w s) (s.dev.transact_sameNow s.shown _)
  | headRegResponse n resp tag a w =>
    exact exec_sameNow h (exec_headRegResponse n resp tag a w s) (s.dev.response_sameNow s.shown n resp tag a w)
  | _ => exact untouched rfl

end Sys2Proof.Machine
end
